-- ==== Sys2Proof/Word.lean ====
section
/-! DEFINITION. The plain data types every file uses: a register word, a byte, a pilot register. -/

namespace Sys2Proof

/-- A control-space register word (R5: registers are 32 bits wide). -/
abbrev Word := BitVec 32

/-- One byte of a berth, of a pilot memory or of a link. -/
abbrev Byte := BitVec 8

/-- A pilot general register (R73). -/
abbrev Word64 := BitVec 64

end Sys2Proof
end

