-- ==== Sys2Proof/Syntax.lean ====
section
/-! DEFINITION. The commands the block takes (spec/opcode_table.json): one constructor of `Instr` per row, with the facts each brings from outside. -/

namespace Sys2Proof

/-- A manifest (R21). -/
structure Manifest where
  stream : Nat := 0
  kind : Nat := 0
  stratum : Nat := 0
  plane : Nat := 0
  flags : Nat := 0
  tide : Nat := 0
  frame : Nat := 0
  time : Nat := 0
  epoch : Nat := 0
  setEpoch : Nat := 0
  expSet : Nat := 0
  origin : Nat := 0
  domain : Nat := 0
  firstRow : Nat := 0
  rows : Nat := 0
  handle : Nat := 0
  deriving DecidableEq, Repr

/-- A parcel on the fabric: manifest, placement word and payload (R15). -/
structure Parcel where
  man : Manifest
  offset : Nat
  vc : Fin 4
  source : Fin 45
  payload : List Byte
  deriving DecidableEq, Repr

/-- A guard: bit 31 N and bits 30:28 P of an instruction word (R78). -/
structure Guard where
  n : Bool
  p : Fin 8
  deriving DecidableEq, Repr

/-- Format A (R79). -/
structure FmtA where
  rd : Fin 32
  rs1 : Fin 32
  rs2 : Fin 32
  fn : Fin 128
  deriving DecidableEq, Repr

/-- Format I (R79). -/
structure FmtI where
  rd : Fin 32
  rs1 : Fin 32
  imm : BitVec 12
  deriving DecidableEq, Repr

/-- Format U (R79). -/
structure FmtU where
  rd : Fin 32
  imm : BitVec 17
  deriving DecidableEq, Repr

/-- Format P (R79); `z1` and `z2` are the bits that must be 0. -/
structure FmtP where
  pd : Fin 8
  z1 : BitVec 3
  rs1 : Fin 32
  rs2 : Fin 32
  cond : Fin 8
  z2 : BitVec 3
  deriving DecidableEq, Repr

/-- Format Q (R79). -/
structure FmtQ where
  pd : Fin 8
  cond : Fin 8
  rs1 : Fin 32
  imm : BitVec 11
  deriving DecidableEq, Repr

/-- Format L (R79); `z` is the bits that must be 0. -/
structure FmtL where
  pd : Fin 8
  pa : Fin 8
  pb : Fin 8
  op : Fin 4
  z : BitVec 11
  deriving DecidableEq, Repr

/-- The PTP messages an engine handles, and the ones it does not support (R119). -/
inductive PtpKind where
  | sync | followUp | delayReq | delayResp | pdelayReq | pdelayResp | pdelayRespFollowUp | announce | unsupported
  deriving DecidableEq, Repr

/-- A PTP message as received: its type, domain, flags, carried time and corrections, and an Announce's data set. -/
structure PtpMsg where
  kind : PtpKind
  domain : Nat
  twoStep : Bool
  seq : Nat
  /-- The time the message carries, in ns: origin, precise origin, receive or transmit time. -/
  time : Nat
  /-- Sum of the correction fields, in ns. -/
  corr : Int
  prio1 : Nat := 128
  clockClass : Nat := 248
  accuracy : Nat := 254
  variance : Nat := 65535
  prio2 : Nat := 128
  grandmaster : BitVec 64 := 0
  steps : Nat := 0
  /-- currentUtcOffset of an Announce, when marked valid. -/
  utc : Option Int := none
  sender : BitVec 64 := 0
  deriving DecidableEq, Repr

/-- A control block as one physical lane delivers it: its 8 bytes, byte 0 lowest, and its block position (R129 to R132, R141). -/
structure LaneBlock where
  lane : Fin 64
  block : BitVec 64
  pos : Nat
  deriving DecidableEq, Repr

/-- The data blocks one physical lane delivered since the latest SEAM, as bytes (R133). -/
structure LaneBytes where
  lane : Fin 64
  bytes : List Byte
  deriving DecidableEq, Repr

/-- What 4 consecutive TRAIN blocks of a lane decode to in one polarity (R139, R140). -/
structure TrainId where
  sensor : BitVec 6
  tag : BitVec 8
  deriving DecidableEq, Repr

/-- What the eye monitor and the checker of a lane found over the tide that ends: eye, greatest FOM, equaliser after continuous adaptation, PRBS errors (R142, R144). -/
structure LaneTide where
  port : Fin 4
  lane : Fin 64
  vert : BitVec 8
  horz : Fin 65
  top : Nat
  ctle : BitVec 4
  dfe : BitVec 25
  prbsErr : Nat
  deriving DecidableEq, Repr

/-- What a shadow receiver measured on one lane of its group (R224, R233). -/
structure LaneMeas where
  lane : Fin 8
  ctle : Int
  dfe1 : Int
  offset : Int
  deriving DecidableEq, Repr



/-- What an access unit says, parsed by H.265's rules: its sequence and picture parameters, its order count, its reference picture set and reference lists, its recovery point SEI, the CTUs that slice errors conceal and those no slice covers, and the bytes it takes (R262 to R271). -/
structure AuFacts where
  profileOk : Bool
  level : BitVec 8
  profile : BitVec 5
  chroma : Fin 4
  depth : Fin 17
  width : Nat
  height : Nat
  cropX : Nat
  cropY : Nat
  cropW : Nat
  cropH : Nat
  tileCols : Nat
  tileRows : Nat
  slices : Nat
  ctbLog2 : Fin 7
  dpbSize : Nat
  reorder : Nat
  /-- SpsMaxLatencyPictures, none without a limit. -/
  latency : Option Nat
  irap : Bool
  noRasl : Bool
  noOutPrior : Bool
  rasl : Bool
  poc : Int
  picOutput : Bool
  rps : List Int
  refs : List Int
  /-- recovery_poc_cnt and exact_match_flag. -/
  recovery : Option (Int × Bool)
  syntaxErr : Bool
  errCtus : List Nat
  missCtus : List Nat
  used : Nat
  deriving DecidableEq, Repr







/-- The NVMe commands PCX issues (R339). -/
inductive NvmeOp where
  | identifyCtrl | identifyNs | getCache | setQueues | createCq | createSq | deleteSq | deleteCq
  | write | read | flush | deallocate
  deriving DecidableEq, Repr

/-- What a successful NVMe command returns: a controller's serial number and largest transfer, a namespace's size in 4 KiB blocks and whether its format has 4,096-byte data and no metadata, the cache feature, the bytes of a Read. -/
inductive NvmeData where
  | none
  | ctrl (serial : BitVec 160) (mdts : Word)
  | ns (blocks : BitVec 64) (plain : Bool)
  | cache (present : Bool)
  | bytes (bs : List Byte)
  deriving DecidableEq, Repr

/-- An access of the PCIe host (R338): to control space through BAR0, or to a window of BAR2. -/
inductive HostAccess where
  | readWord (addr : BitVec 32) (be : BitVec 4)
  | writeWord (addr : BitVec 32) (be : BitVec 4) (v : Word)
  | readBar2 (ofs len : Nat)
  | writeBar2 (ofs : Nat) (bs : List Byte)
  deriving DecidableEq, Repr

/-- An HCP message as received (R369): its session byte, sequence, addressed array ID, encrypted body and tag. Its type is the command's. -/
structure HcpMsg where
  session : BitVec 8
  seq : Word
  addressed : BitVec 16
  body : List Byte
  tag : List Byte
  deriving DecidableEq, Repr



/-- What a two-wire bus shows when Daxma samples or drives it (R400, R401): SCL and SDA high, per clock of a bus clear whether SDA is high at the end of SCL high and whether both lines are high after the STOP, and whether SDA follows SCL over 4 clocks. -/
structure TwbLine where
  scl : Bool
  sda : Bool
  clear : List (Bool × Bool)
  short : Bool
  deriving DecidableEq, Repr

/-- A lost arbitration (R397, R398): the winner's address, whether it has 10 bits, its direction (true for a read), and the bytes both controllers sent. -/
structure TwbLoss where
  ten : Bool
  addr : BitVec 10
  read : Bool
  before : List Byte
  deriving DecidableEq, Repr

/-- How the address and data phases of a controller transfer were answered (R396): all acknowledged with the bytes read, the address not acknowledged, or a written byte not acknowledged after some were. -/
inductive TwbAnswer where
  | ok (read : List Byte)
  | nackAddr
  | nackData (acked : Fin 9)
  deriving DecidableEq, Repr

/-- A pin that R406 protects. -/
inductive GpioPin where
  | gpio (n : Fin 160)
  | evt (i : Fin 16)
  deriving DecidableEq, Repr

/-- A write that clears pin faults: GPIO_FAULT_w, or EVT_PAD_i with CLEAR. -/
inductive FaultClear where
  | gpio (w : Fin 5) (v : Word)
  | evt (i : Fin 16) (v : Word)
  deriving DecidableEq, Repr





/-- A high-speed or audio pin that R461 protects: PCIe, Ethernet and viewfinder lanes, SDI outputs, and an audio port's clock pins or data output. -/
inductive PortPin where
  | pcie (l : Fin 32)
  | eth (l : Fin 8)
  | vf (l : Fin 8)
  | sdi (o : Fin 8)
  | audClock (p : Fin 16)
  | audData (p : Fin 16)
  deriving DecidableEq, Repr



/-- The commands: one constructor per row of the opcode table, in its order. -/
inductive Instr where
  /-- REGISTER_WRITE: A 32-bit control-space write to a register that has no row of its own is applied under its fields' access codes and classes (R12) -/
  | registerWrite (m : Fin 32) (addr : BitVec 32) (be : BitVec 4) (v : Word)
  /-- RC_READ: A read of an RC register returns its value and clears it in the same FCLK cycle (R9) -/
  | rcRead (m : Fin 32) (addr : BitVec 32) (be : BitVec 4)
  /-- WIDE_VALUE_READ: A read of the lowest word of a wide value latches the other words into a holding copy (R11) -/
  | wideValueRead (m : Fin 32) (addr : BitVec 32) (be : BitVec 4)
  /-- PARCEL_WRITE: A parcel arrives at a berth and writes its payload, and its manifest is copied or merged into the berth manifest (R34) -/
  | parcelWrite (hop : Nat) (p : Parcel)
  /-- QUAY_READ: A unit issues a read request on its quay for berth contents (R16) -/
  | quayRead (q : Fin 48) (u : Fin 45) (h : BitVec 16) (ofs len : Nat)
  /-- QUAY_READ_DATA: Read data returns to the requesting quay, the first response delivering the berth manifest (R16) -/
  | quayReadData (q : Fin 48) (bad : List (Fin 16384))
  /-- STARVE_LIMIT_EXPIRY: A VC that has waited STARVE_LIMIT FCLK cycles with a flit and a credit wins the next slot once (R19) -/
  | starveLimitExpiry (hop : Nat) (vc : Fin 4)
  /-- BERTH_ALLOCATE: FAB_BERTH_CMD OP 1 allocates a berth after the handle, state and range checks (R35) -/
  | berthAllocate (m : Fin 32) (h : BitVec 16)
  /-- BERTH_FREE: FAB_BERTH_CMD OP 2 frees a berth, or defers the free to DRAINING when references remain (R37) -/
  | berthFree (m : Fin 32) (h : BitVec 16)
  /-- BERTH_QUERY: FAB_BERTH_CMD OP 3 reports a berth's entry and manifest into the query registers (R38) -/
  | berthQuery (m : Fin 32) (h : BitVec 16)
  /-- BERTH_CMD_DONE: A running berth command ends, clears BUSY and writes RESULT (R501) -/
  | berthCmdDone
  /-- BERTH_ACQUIRE: A unit, FAB or PMOV acquires a reference to a berth (R36) -/
  | berthAcquire (u : Fin 45) (h : BitVec 16)
  /-- BERTH_RELEASE: A unit, FAB or PMOV releases a reference, freeing a DRAINING berth at count 0 (R36) -/
  | berthRelease (u : Fin 45) (h : BitVec 16)
  /-- AP_HANDLE_WRITE: A write of FAB_AP_HANDLE releases the old berth and acquires the named one for the aperture (R40) -/
  | apHandleWrite (m : Fin 32) (h : BitVec 16)
  /-- AP_DATA_WRITE: A harbourmaster write of FAB_AP_DATA_i stores 4 bytes in the named berth (R40) -/
  | apDataWrite (m : Fin 32) (i : Fin 1024) (v : Word)
  /-- AP_DATA_READ: A read of FAB_AP_DATA_i returns 4 bytes of the named berth, or 0 for other masters (R40) -/
  | apDataRead (m : Fin 32) (i : Fin 1024)
  /-- TIDE_FIRE: Tide n fires at the first TCLK tick at which tide time reaches T(n) (R106) -/
  | tideFire (eyes : List LaneTide)
  /-- UNIT_TIDE_START: A unit's own tide starts at the tide instant plus its stagger (R42) -/
  | unitTideStart (u : Fin 45)
  /-- UNIT_OVERRUN: A unit whose work for tide n is unfinished at its own tide n + s + 1 declares an overrun and applies its policy (R43) -/
  | unitOverrun (u : Fin 45)
  /-- UNIT_ABANDON: A unit still working at its own tide n + s + 2 abandons the work (R44) -/
  | unitAbandon (u : Fin 45)
  /-- SRX_FRAME_EXPIRE: A camera port or feeder closes short any frame stamped tide n still open at its own tide n + 2 (R44) -/
  | srxFrameExpire (p : Fin 4)
  /-- CLAIM: SYS_OWN_REQ OP CLAIM checks the session and grants ownership, renews it or queues the claim (R52) -/
  | claim (m : Fin 32) (session : BitVec 8)
  /-- OWN_RELEASE: SYS_OWN_REQ OP RELEASE vacates ownership, withdrawing any pending handover (R54) -/
  | ownRelease (m : Fin 32)
  /-- HEARTBEAT: SYS_OWN_REQ OP HEARTBEAT renews the owner's lease (R55) -/
  | heartbeat (m : Fin 32)
  /-- HANDOVER: SYS_OWN_REQ OP HANDOVER passes ownership to a waiting target or leaves the handover pending (R56) -/
  | handover (m : Fin 32) (target : Fin 32)
  /-- CLAIM_TIMEOUT: A waiting claim fails when WAIT_MS elapses (R53) -/
  | claimTimeout (m : Fin 32)
  /-- LEASE_EXPIRY: The owner's lease expires, ownership is vacated and LAPSE is set (R55) -/
  | leaseExpiry
  /-- TXN_BEGIN: SYS_TXN_CTRL OP BEGIN opens a transaction in a free slot (R58) -/
  | txnBegin (m : Fin 32)
  /-- TXN_COMMIT: SYS_TXN_CTRL OP COMMIT checks FULL, target, conflict and queue, and enters the landing queue (R63) -/
  | txnCommit (m : Fin 32) (orLater next : Bool)
  /-- TXN_ROLLBACK: SYS_TXN_CTRL OP ROLLBACK discards the open transaction's shadow and frees its slot (R66) -/
  | txnRollback (m : Fin 32)
  /-- OP_WITHDRAW: SYS_TXN_CTRL OP WITHDRAW removes a queued ticket before its deadline (R66) -/
  | opWithdraw (m : Fin 32)
  /-- LANDING_NO_TIDES: While RUN is 0, a committed transaction lands in the next FCLK cycle and advances the epoch (R69) -/
  | landingNoTides
  /-- ALU: Marl ALU performs the fn operation on rs1 and rs2 (R81) -/
  | alu (k : Fin 16) (g : Guard) (f : FmtA)
  /-- ADDI: Marl ADDI adds a sign-extended immediate (R80) -/
  | addi (k : Fin 16) (g : Guard) (f : FmtI)
  /-- ANDI: Marl ANDI ands a sign-extended immediate (R80) -/
  | andi (k : Fin 16) (g : Guard) (f : FmtI)
  /-- ORI: Marl ORI ors a zero-extended immediate (R80) -/
  | ori (k : Fin 16) (g : Guard) (f : FmtI)
  /-- XORI: Marl XORI xors a zero-extended immediate (R80) -/
  | xori (k : Fin 16) (g : Guard) (f : FmtI)
  /-- SHI: Marl SHI shifts by an immediate distance (R80) -/
  | shi (k : Fin 16) (g : Guard) (f : FmtI)
  /-- LUI: Marl LUI loads a shifted upper immediate (R80) -/
  | lui (k : Fin 16) (g : Guard) (f : FmtU)
  /-- LD: Marl LD loads 64 bits (R80) -/
  | ld (k : Fin 16) (g : Guard) (f : FmtI)
  /-- LW: Marl LW loads 32 bits zero-extended (R80) -/
  | lw (k : Fin 16) (g : Guard) (f : FmtI)
  /-- LH: Marl LH loads 16 bits zero-extended (R80) -/
  | lh (k : Fin 16) (g : Guard) (f : FmtI)
  /-- LB: Marl LB loads 8 bits zero-extended (R80) -/
  | lb (k : Fin 16) (g : Guard) (f : FmtI)
  /-- SD: Marl SD stores 64 bits (R80) -/
  | sd (k : Fin 16) (g : Guard) (f : FmtI)
  /-- SW: Marl SW stores 32 bits (R80) -/
  | sw (k : Fin 16) (g : Guard) (f : FmtI)
  /-- SH: Marl SH stores 16 bits (R80) -/
  | sh (k : Fin 16) (g : Guard) (f : FmtI)
  /-- SB: Marl SB stores 8 bits (R80) -/
  | sb (k : Fin 16) (g : Guard) (f : FmtI)
  /-- CLD: Marl CLD reads a control word, the value being logged (R83) -/
  | cld (k : Fin 16) (g : Guard) (f : FmtI)
  /-- CST: Marl CST writes a control word, raising CTRL for harbourmaster-only or aperture registers (R83) -/
  | cst (k : Fin 16) (g : Guard) (f : FmtI)
  /-- FENCE: Marl FENCE waits until every earlier CST has been performed (R80) -/
  | fence (k : Fin 16) (g : Guard) (f : FmtA)
  /-- PCMP: Marl PCMP sets a predicate from a register comparison (R79) -/
  | pcmp (k : Fin 16) (g : Guard) (f : FmtP)
  /-- PCMPI: Marl PCMPI sets a predicate from an immediate comparison (R79) -/
  | pcmpi (k : Fin 16) (g : Guard) (f : FmtQ)
  /-- PLOG: Marl PLOG combines two predicates (R79) -/
  | plog (k : Fin 16) (g : Guard) (f : FmtL)
  /-- PGET: Marl PGET copies the predicates into a register (R80) -/
  | pget (k : Fin 16) (g : Guard) (f : FmtA)
  /-- BR: Marl BR branches pc-relative (R80) -/
  | br (k : Fin 16) (g : Guard) (off : BitVec 22)
  /-- CALL: Marl CALL saves the return address in x31 and branches (R80) -/
  | call (k : Fin 16) (g : Guard) (off : BitVec 22)
  /-- JR: Marl JR jumps to a register address, saving pc + 4 (R80) -/
  | jr (k : Fin 16) (g : Guard) (f : FmtI)
  /-- DPOP: Marl DPOP pops the next released docket into a register pair (R80) -/
  | dpop (k : Fin 16) (g : Guard) (f : FmtA)
  /-- DPOST: Marl DPOST posts a PILOT_POST docket to a pilot (R80) -/
  | dpost (k : Fin 16) (g : Guard) (f : FmtA)
  /-- DCNT: Marl DCNT returns the number of released dockets not yet popped (R80) -/
  | dcnt (k : Fin 16) (g : Guard) (f : FmtA)
  /-- WAIT: Marl WAIT ends the tide's work, snapshots written banks and waits for the next own tide (R91) -/
  | wait (k : Fin 16) (g : Guard) (f : FmtA)
  /-- WAITU: Marl WAITU waits until the tide number reaches rs1 (R80) -/
  | waitu (k : Fin 16) (g : Guard) (f : FmtA)
  /-- TIDE: Marl TIDE returns the tide number of the pilot's latest release (R80) -/
  | tide (k : Fin 16) (g : Guard) (f : FmtA)
  /-- TIMR: Marl TIMR returns the selected domain's wrap epoch and nanoseconds, logged (R80) -/
  | timr (k : Fin 16) (g : Guard) (f : FmtA)
  /-- MFLD: Marl MFLD reads two words of a berth manifest from the berth table, logged (R80) -/
  | mfld (k : Fin 16) (g : Guard) (f : FmtI)
  /-- TXB: Marl TXB opens a transaction for the pilot (R80) -/
  | txb (k : Fin 16) (g : Guard) (f : FmtA)
  /-- TXC: Marl TXC commits the pilot's transaction to a tide (R80) -/
  | txc (k : Fin 16) (g : Guard) (f : FmtA)
  /-- TXR: Marl TXR rolls back the pilot's transaction (R80) -/
  | txr (k : Fin 16) (g : Guard) (f : FmtA)
  /-- TXW: Marl TXW withdraws one of the pilot's tickets (R80) -/
  | txw (k : Fin 16) (g : Guard) (f : FmtA)
  /-- BCMD_ALLOCATE: Marl BCMD fn 1 allocates a berth from a descriptor in private data memory (R98) -/
  | bcmdAllocate (k : Fin 16) (g : Guard) (f : FmtA)
  /-- BCMD_FREE: Marl BCMD fn 2 frees a berth as the pilot's unit (R80) -/
  | bcmdFree (k : Fin 16) (g : Guard) (f : FmtA)
  /-- BCMD_QUERY: Marl BCMD fn 3 queries a berth into a descriptor (R98) -/
  | bcmdQuery (k : Fin 16) (g : Guard) (f : FmtA)
  /-- PMOV: Marl PMOV starts a parcel move described in private data memory and returns a token (R99) -/
  | pmov (k : Fin 16) (g : Guard) (f : FmtA)
  /-- PMOV_DONE: A parcel move completes, releases its berths and posts PMOV_DONE (R99) -/
  | pmovDone (k : Fin 16)
  /-- HINIT: Marl HINIT resets the hash context to SHA-384 or CRC-32 (R80) -/
  | hinit (k : Fin 16) (g : Guard) (f : FmtA)
  /-- HUPD: Marl HUPD absorbs bytes from data memory into the hash (R80) -/
  | hupd (k : Fin 16) (g : Guard) (f : FmtA)
  /-- HFIN: Marl HFIN writes the digest and resets the context (R80) -/
  | hfin (k : Fin 16) (g : Guard) (f : FmtA)
  /-- CSRR: Marl CSRR reads a control and status register (R84) -/
  | csrr (k : Fin 16) (g : Guard) (f : FmtA)
  /-- CSRW: Marl CSRW writes a control and status register (R84) -/
  | csrw (k : Fin 16) (g : Guard) (f : FmtA)
  /-- TRAP: Marl TRAP raises the TRAP exception with its immediate (R86) -/
  | trap (k : Fin 16) (g : Guard) (f : FmtU)
  /-- ERET: Marl ERET returns to EPC and leaves handler mode (R80) -/
  | eret (k : Fin 16) (g : Guard) (f : FmtA)
  /-- RAND: Marl RAND returns 64 logged bits from the TRNG (R92) -/
  | rand (k : Fin 16) (g : Guard) (f : FmtA)
  /-- HALT: Marl HALT stops the pilot, posting PILOT_HALT and rolling back its transaction (R86) -/
  | halt (k : Fin 16) (g : Guard) (f : FmtA)
  /-- DOCKET_POST: A docket arrives at a pilot queue, or is dropped and counted when the queue is full (R89) -/
  | docketPost (k : Fin 16) (kind src : BitVec 8) (sub : BitVec 16) (payload : Word64)
  /-- PILOT_RELEASE: At a tide boundary WAIT returns, releasing sorted dockets and publishing the bank snapshot (R89) -/
  | pilotRelease (k : Fin 16)
  /-- PILOT_OVERRUN: A pilot that has not waited by its own tide k + 1 declares an overrun (R91) -/
  | pilotOverrun (k : Fin 16)
  /-- PILOT_ABANDON: A pilot still running at tide k + 2 takes the asynchronous ABANDON exception (R91) -/
  | pilotAbandon (k : Fin 16)
  /-- PILOT_START: PILOT_CTRL OP START runs a loaded image or restarts a halted or stopped pilot at the next boundary (R502) -/
  | pilotStart (m : Fin 32) (k : Fin 16)
  /-- PILOT_STOP: PILOT_CTRL OP STOP halts the pilot, rolls back its transaction and frees its banks (R97) -/
  | pilotStop (m : Fin 32) (k : Fin 16)
  /-- PILOT_RESET: PILOT_CTRL OP RESET stops the pilot and clears its memories and registers to EMPTY (R502) -/
  | pilotReset (m : Fin 32) (k : Fin 16)
  /-- PILOT_BEGIN: A started pilot begins at ENTRY at the first tide boundary after START (R95) -/
  | pilotBegin (k : Fin 16)
  /-- PILOT_LOAD: A write of PILOT_LOAD starts a load of a signed image from a berth (R96) -/
  | pilotLoad (m : Fin 32) (k : Fin 16) (h : BitVec 16)
  /-- PILOT_LOAD_DONE: A pilot load finishes its checks and copies, writing RESULT and clearing BUSY (R96) -/
  | pilotLoadDone (k : Fin 16)
  /-- HOST_MAIL: A write of PILOT_MAIL_i posts a HOST_MAIL docket to the pilot (R88) -/
  | hostMail (m : Fin 32) (k : Fin 16) (i : Fin 4) (v : Word)
  /-- EPOCH_WRAP: A domain's nanosecond field wraps, changing its wrap epoch and posting a TIME_EVENT docket (R103) -/
  | epochWrap (d : Fin 2)
  /-- RUN_START: Setting TIME_CTRL.RUN starts the tide schedule at the next due tide (R108) -/
  | runStart (m : Fin 32) (failover domSel : Bool)
  /-- RUN_STOP: Clearing TIME_CTRL.RUN stops tides and lands the queued transactions (R108) -/
  | runStop (m : Fin 32) (failover domSel : Bool)
  /-- PTP_MESSAGE_RX: A PTP message is received and processed by its engine (R119) -/
  | ptpMessageRx (e : Fin 2) (msg : PtpMsg)
  /-- PTP_MESSAGE_TX: A PTP engine sends its own event or general message at its interval (R119) -/
  | ptpMessageTx (e : Fin 2) (kind : PtpKind)
  /-- SYNC_LOSS: No valid Sync for 4 intervals puts a LOCKED domain into HOLDOVER (R116) -/
  | syncLoss (d : Fin 2)
  /-- ANNOUNCE_TIMEOUT: The announce receipt timeout of a PTP engine expires (R119) -/
  | announceTimeout (e : Fin 2)
  /-- CLK_MONITOR_WINDOW: A 10 us clock monitor window ends and may move TCLK to another source (R118) -/
  | clkMonitorWindow (tosc ref : Option Nat)
  /-- ETS_POP: A write of 1 to ETS_q POP removes the head timestamp (R122) -/
  | etsPop (m : Fin 32) (q : Fin 2)
  /-- EVT_POP: A write of 1 to EVT_i POP removes the head timestamp (R122) -/
  | evtPop (m : Fin 32) (i : Fin 16)
  /-- EVT_EDGE: An accepted edge on an event pin is timestamped, queued and posted as an EVT_EDGE docket (R123) -/
  | evtEdge (i : Fin 16) (rising : Bool)
  /-- EVT_GEN_TIME: A write of EVT_GEN_TIME arms a one-shot or periodic output, or sets MISSED if the time is past (R124) -/
  | evtGenTime (m : Fin 32) (i : Fin 16) (lo : Word)
  /-- EVT_OUTPUT_EDGE: An event pin output edge falls at its scheduled time (R124) -/
  | evtOutputEdge (i : Fin 16) (assert : Bool)
  /-- SRX_TRAIN: SRX_CTRL OP TRAIN starts lane training (R137) -/
  | srxTrain (m : Fin 32) (p : Fin 4) (rest : BitVec 28)
  /-- SRX_RUN: SRX_CTRL OP RUN from READY makes the port accept frames (R136) -/
  | srxRun (m : Fin 32) (p : Fin 4) (rest : BitVec 28)
  /-- SRX_STOP: SRX_CTRL OP STOP powers the lanes down and closes any open frame (R136) -/
  | srxStop (m : Fin 32) (p : Fin 4) (rest : BitVec 28)
  /-- LANE_SIGNAL: A lane's swing rises above the loss-of-signal threshold (R137) -/
  | laneSignal (p : Fin 4) (i : Fin 64)
  /-- LANE_CDR_LOCK: A lane's clock recovery loop locks (R137) -/
  | laneCdrLock (p : Fin 4) (i : Fin 64)
  /-- LANE_ALIGN_LOCK: A lane sets LOCK after enough consecutive aligned blocks or headers (R138) -/
  | laneAlignLock (p : Fin 4) (i : Fin 64) (vert : BitVec 8) (horz : Fin 65) (ctle : BitVec 4) (dfe : BitVec 25)
  /-- LANE_LOCK_LOSS: A sand-code lane loses LOCK on 16 invalid headers in 64 (R138) -/
  | laneLockLoss (p : Fin 4) (i : Fin 64)
  /-- LANE_IDENT: TRAIN blocks settle a lane's polarity and identity, or fault it with ID (R140) -/
  | laneIdent (p : Fin 4) (i : Fin 64) (normal inverted : Option TrainId)
  /-- LANE_DESKEW: Skew is measured and removed once every enabled lane has left IDENT (R141) -/
  | laneDeskew (p : Fin 4) (arrivals : List (Fin 64 × Nat))
  /-- SRX_TRAIN_TIMEOUT: SRX_TRAIN_MS elapses, faulting lanes short of READY (R137) -/
  | srxTrainTimeout (p : Fin 4)
  /-- LANE_SLIP: A write of LANE_SLIP moves a lane's block boundary by one bit (R138) -/
  | laneSlip (m : Fin 32) (p : Fin 4) (i : Fin 64) (v : Word)
  /-- LANE_FAULT_TIMEOUT: A lane fails to lock CDR or regain alignment within 1 ms and faults (R158) -/
  | laneFaultTimeout (p : Fin 4) (i : Fin 64)
  /-- LANE_PIN_FAULT: 16 consecutive pin monitor samples out of limits fault the lane (R158) -/
  | lanePinFault (p : Fin 4) (i : Fin 64) (pmv nmv : BitVec 11)
  /-- SOF: A SOF control block opens a frame or stratum, or is ignored as stray (R147) -/
  | sof (p : Fin 4) (blocks : List LaneBlock)
  /-- SEAM: A SEAM block checks the previous row's CRC and accepts, reserves or drops the next row (R150) -/
  | seam (p : Fin 4) (blocks : List LaneBlock) (prev : List LaneBytes) (drained : Nat)
  /-- EOF: An EOF block checks the last row's CRC and closes its stratum (R154) -/
  | eof (p : Fin 4) (blocks : List LaneBlock) (prev : List LaneBytes) (drained : Nat)
  /-- BAD_BLOCK: An invalid or unknown control block counts in LANE_CODE_ERR (R131) -/
  | badBlock (p : Fin 4) (i : Fin 64) (hdr : BitVec 2) (block : BitVec 64) (viol : Bool)
  /-- SRX_FQ_PUSH: A write of SRX_FQ_PUSH adds a raw and map berth pair to the frame queue (R146) -/
  | srxFqPush (m : Fin 32) (p : Fin 4) (raw map : BitVec 16)
  /-- PRBS_SELECT: A write of LANE_CFG.PRBS restarts the lane's checker and clears its counters (R144) -/
  | prbsSelect (m : Fin 32) (p : Fin 4) (i : Fin 64) (v : Word)
  /-- PRBS_LOCK: The PRBS checker locks after 64 error-free bits (R144) -/
  | prbsLock (p : Fin 4) (i : Fin 64) (inv : Bool)
  /-- INJECT: A write of 1 to LANE_CFG.INJECT inverts one bit of the generator's next word (R145) -/
  | inject (m : Fin 32) (p : Fin 4) (i : Fin 64) (v : Word)
  /-- SYNC_OUTPUT_EDGE: A sensor sync output is asserted or deasserted at its tide-relative instant (R163) -/
  | syncOutputEdge (p : Fin 4) (k : Fin 2)
  /-- PIPE_RUN: PIPE_CTRL OP RUN starts the pipeline (R185) -/
  | pipeRun (m : Fin 32) (i : Fin 4) (rest : BitVec 28)
  /-- PIPE_STOP: PIPE_CTRL OP STOP ends the frame in progress and empties the queue (R185) -/
  | pipeStop (m : Fin 32) (i : Fin 4) (rest : BitVec 28)
  /-- PIPE_IN_PUSH: A write of PIPE_IN_PUSH adds an input entry (R165) -/
  | pipeInPush (m : Fin 32) (i : Fin 4) (raw map : BitVec 16)
  /-- PIPE_FRAME_END: A frame finishes, releasing berths, writing counts and posting BERTH_REL and events (R184) -/
  | pipeFrameEnd (i : Fin 4)
  /-- PIPE_OUT_PUSH: A write of PIPE_OUT_PUSH_o adds an output berth to a branch queue (R187) -/
  | pipeOutPush (m : Fin 32) (i : Fin 4) (o : Fin 3) (h : BitVec 16)
  /-- PIPE_RAWOUT_PUSH: A write of PIPE_RAWOUT_PUSH adds a berth to the raw-path queue (R187) -/
  | pipeRawoutPush (m : Fin 32) (i : Fin 4) (h : BitVec 16)
  /-- STAT_PUSH: A write of STAT_PUSH adds a stats berth (R214) -/
  | statPush (m : Fin 32) (i : Fin 4) (h : BitVec 16)
  /-- CAL_TEMP_SAMPLE: Every 1 ms CAL samples item temperatures and makes items pending (R227) -/
  | calTempSample (temps : List (Fin 41 × BitVec 16))
  /-- CAL_RUN: CAL_CMD OP RUN makes the named item, or all items, pending (R227) -/
  | calRun (m : Fin 32) (item : BitVec 6)
  /-- CAL_RUN_START: A pending item starts its run when a run slot is free (R228) -/
  | calRunStart (n : Fin 41)
  /-- CAL_RUN_DONE: A calibration run completes or fails (R229) -/
  | calRunDone (n : Fin 41) (inRange : Bool) (lanes : List LaneMeas)
  /-- CAL_PPB_UPDATE: Every 1 ms CAL recomputes cal_ppb from the TOSC sensor (R230) -/
  | calPpbUpdate (t : BitVec 16) (valid : Bool)
  /-- CAL_FF_CMD: A write of the key to CAL_FF_CMD starts a field fuse burn (R235) -/
  | calFfCmd (m : Fin 32) (key : Word)
  /-- FUSE_BURN_DONE: A fuse burn completes with its read-back result (R235) -/
  | fuseBurnDone (ok : Bool)
  /-- ENC_RUN: ENC_CTRL OP RUN starts the encoder (R260) -/
  | encRun (m : Fin 32) (e : Fin 4) (rest : BitVec 28)
  /-- ENC_STOP: ENC_CTRL OP STOP stops the encoder, abandoning pictures in progress (R256) -/
  | encStop (m : Fin 32) (e : Fin 4) (rest : BitVec 28)
  /-- ENC_SLOT_IN_PUSH: A write of ENC_SLOT_IN_PUSH adds an input berth (R242) -/
  | encSlotInPush (m : Fin 32) (e : Fin 4) (i : Fin 4) (h : BitVec 16)
  /-- ENC_SLOT_BS_PUSH: A write of ENC_SLOT_BS_PUSH adds a bitstream berth (R242) -/
  | encSlotBsPush (m : Fin 32) (e : Fin 4) (i : Fin 4) (h : BitVec 16)
  /-- ENC_SLOT_ES_PUSH: A write of ENC_SLOT_ES_PUSH adds an ENCSTAT berth (R242) -/
  | encSlotEsPush (m : Fin 32) (e : Fin 4) (i : Fin 4) (h : BitVec 16)
  /-- ENC_PICTURE_START: An idle engine starts the due picture of highest priority, or skips it (R243) -/
  | encPictureStart (e : Fin 4)
  /-- ENC_PREEMPT: At a CTU row end the engine saves state and switches to a higher-priority picture (R244) -/
  | encPreempt (e : Fin 4)
  /-- ENC_RESUME: A suspended picture resumes after the restore (R244) -/
  | encResume (e : Fin 4)
  /-- ENC_PICTURE_END: A picture ends, the leader writes the index, releases berths and posts BERTH_REL (R259) -/
  | encPictureEnd (e : Fin 4)
  /-- DEC_RUN: DEC_CTRL OP RUN starts the decoder (R272) -/
  | decRun (m : Fin 32) (d : Fin 2) (rest : BitVec 28)
  /-- DEC_STOP: DEC_CTRL OP STOP abandons the picture, empties the queues and releases every berth (R272) -/
  | decStop (m : Fin 32) (d : Fin 2) (rest : BitVec 28)
  /-- DEC_FLUSH: DEC_CTRL OP FLUSH starts output of every picture waiting in the DPB (R272) -/
  | decFlush (m : Fin 32) (d : Fin 2) (rest : BitVec 28)
  /-- DEC_FLUSH_DONE: The flush completes and FLUSHED is set (R272) -/
  | decFlushDone (d : Fin 2)
  /-- DEC_IN_PUSH: A write of DEC_IN_PUSH adds an input berth (R263) -/
  | decInPush (m : Fin 32) (d : Fin 2) (h : BitVec 16)
  /-- DEC_OUT_PUSH: A write of DEC_OUT_PUSH adds an output berth (R263) -/
  | decOutPush (m : Fin 32) (d : Fin 2) (h : BitVec 16)
  /-- DEC_DPB_PUSH: A write of DEC_DPB_PUSH adds and acquires a pool berth (R263) -/
  | decDpbPush (m : Fin 32) (d : Fin 2) (h : BitVec 16)
  /-- DEC_DECODE_START: The decoder starts decoding the next access unit (R266) -/
  | decDecodeStart (d : Fin 2)
  /-- DEC_DECODE_DONE: An access unit finishes decoding, with concealment and taint decided (R270) -/
  | decDecodeDone (d : Fin 2) (au : AuFacts)
  /-- DEC_COPY_DONE: An output picture copy completes and posts BERTH_REL (R267) -/
  | decCopyDone (d : Fin 2)
  /-- LZE_RUN: LZE_CTRL OP RUN starts the lossless engine (R292) -/
  | lzeRun (m : Fin 32) (rest : BitVec 28)
  /-- LZE_STOP: LZE_CTRL OP STOP ends running jobs at their next block boundary (R289) -/
  | lzeStop (m : Fin 32) (rest : BitVec 28)
  /-- LZE_PUSH: A write of LZE_PUSH_q queues a job and acquires its descriptor berth (R274) -/
  | lzePush (m : Fin 32) (q : Fin 2) (h : BitVec 16) (index : BitVec 16)
  /-- LZE_JOB_START: A queue starts its next job, reading and checking the descriptor (R275) -/
  | lzeJobStart (q : Fin 2)
  /-- LZE_BLOCK_DONE: A core finishes a block, which is written in index order (R276) -/
  | lzeBlockDone (q : Fin 2)
  /-- LZE_JOB_END: A job ends, releases its berths, adds a completion entry and posts a docket (R291) -/
  | lzeJobEnd (q : Fin 2)
  /-- LZE_DONE_POP: A write of 1 to LZE_DONE_POP_q removes the head completion entry (R292) -/
  | lzeDonePop (m : Fin 32) (q : Fin 2) (v : Word)
  /-- MEM_TRAIN_DONE: Controller training ends and quays open, or no quay opens on FAULT (R294) -/
  | memTrainDone (c : Fin 6) (ok : Bool)
  /-- MEM_REQUEST: A request reaches a pseudo-channel pool, or waits for a credit (R296) -/
  | memRequest (q : Fin 48) (addr : Nat) (half write : Bool) (ecc : Fin 3)
  /-- URGENCY_ESCALATE: A waiting request's age passes a threshold and its urgency rises (R305) -/
  | urgencyEscalate
  /-- RESERVE_WINDOW: A quay's 1 us reserve accounting window ends (R308) -/
  | reserveWindow (q : Fin 48)
  /-- MEM_PAGE_IDLE: An open row unused for IDLE MCLK cycles closes (R300) -/
  | memPageIdle (c : Fin 6) (pc : Fin 32) (b : Fin 64)
  /-- MEM_REFRESH: A per-bank refresh falls due, possibly postponed to its limit (R301) -/
  | memRefresh (c : Fin 6) (pc : Fin 32) (b : Fin 64) (limit : Bool)
  /-- MEM_IDLE_WINDOW: A pseudo-channel's idle window of a sweep begins (R302) -/
  | memIdleWindow (c : Fin 6) (pc : Fin 32)
  /-- MEM_RETRAIN: MEM_CTRL OP RETRAIN stops one controller's traffic and retrains it (R304) -/
  | memRetrain (m : Fin 32) (c : Fin 6) (rest : BitVec 28)
  /-- MEM_RETRAIN_DONE: A retrain completes and sets RETRAINED (R304) -/
  | memRetrainDone (c : Fin 6) (ok : Bool)
  /-- MEM_XLATE: A write of MEM_XLATE ADDR_LO decodes an address under the interleave (R314) -/
  | memXlate (m : Fin 32) (v : Word)
  /-- SCN_RUN: SCN_CTRL OP RUN starts scan-out (R335) -/
  | scnRun (m : Fin 32) (rest : BitVec 28)
  /-- SCN_STOP: SCN_CTRL OP STOP stops every head and releases every berth (R335) -/
  | scnStop (m : Fin 32) (rest : BitVec 28)
  /-- SCN_LATCH: At a head's vertical-blank latch it takes its fields, layer entries and berths for the frame (R318) -/
  | scnLatch (h : Fin 10)
  /-- SCN_UNDERRUN: Layer data missing when the raster needs it outputs BG to line end and counts an underrun (R327) -/
  | scnUnderrun (h : Fin 10) (line x : Nat)
  /-- SCN_FRAME_END: At a frame's end the head writes SCN_HEAD_CRC (R334) -/
  | scnFrameEnd (h : Fin 10)
  /-- SCN_LOAD_CMD: A write of GO to SCN_LOAD_CMD starts a load of a berth into a region (R321) -/
  | scnLoadCmd (m : Fin 32) (v : Word)
  /-- SCN_LOAD_DONE: A region load completes and posts LOAD_DONE (R321) -/
  | scnLoadDone
  /-- SCN_LAYER_PUSH: A write of SCN_LAYER_PUSH adds a berth to a layer queue (R322) -/
  | scnLayerPush (m : Fin 32) (l : Fin 16) (h : BitVec 16)
  /-- PCX_ENABLE: PCX_CTRL OP ENABLE brings up a port's links, or is rejected (R336) -/
  | pcxEnable (m : Fin 32) (p : Fin 2) (rest : BitVec 28)
  /-- PCX_DISABLE: PCX_CTRL OP DISABLE turns the port off (R336) -/
  | pcxDisable (m : Fin 32) (p : Fin 2) (rest : BitVec 28)
  /-- PCIE_LINK_UP: A PCIe link finishes training (R337) -/
  | pcieLinkUp (p : Fin 2) (k : Fin 4) (gen width : Nat) (reversed : Bool) (corr uncorr : Nat)
  /-- PCIE_LINK_DOWN: A PCIe link goes down and its drive becomes FAULT (R337) -/
  | pcieLinkDown (p : Fin 2) (k : Fin 4) (corr uncorr : Nat)
  /-- PCIE_HOST_ACCESS: A host TLP on the endpoint reaches control space or a BAR2 window (R338) -/
  | pcieHostAccess (p : Fin 2) (a : HostAccess)
  /-- PCX_EP_WIN: A write of PCX_EP_WIN_w releases the old berth and acquires the new one (R338) -/
  | pcxEpWin (m : Fin 32) (p : Fin 2) (w : Fin 4) (h : BitVec 16)
  /-- PCX_EP_IRQ: A write of 1 to a PCX_EP_IRQ bit raises an MSI-X vector (R338) -/
  | pcxEpIrq (m : Fin 32) (p : Fin 2) (v : Word)
  /-- ATTACH: PCX_DRV_CTRL OP ATTACH resets, identifies and sets up an NVMe drive (R340) -/
  | attach (m : Fin 32) (d : Fin 8) (rest : BitVec 28)
  /-- DETACH: PCX_DRV_CTRL OP DETACH deletes a drive's queues (R340) -/
  | detach (m : Fin 32) (d : Fin 8) (rest : BitVec 28)
  /-- NVME_COMPLETION: An NVMe command completes with its status (R341) -/
  | nvmeCompletion (d : Fin 8) (i : Fin 64) (ok : Bool) (data : NvmeData)
  /-- NVME_TIMEOUT: An admin or I/O command exceeds its timeout (R341) -/
  | nvmeTimeout (d : Fin 8)
  /-- FORMAT: PCX_VOL_CTRL OP FORMAT creates a new striped volume (R346) -/
  | format (m : Fin 32) (v : Fin 4) (rest : BitVec 28)
  /-- MOUNT: PCX_VOL_CTRL OP MOUNT reads the headers and scans to the tail (R346) -/
  | mount (m : Fin 32) (v : Fin 4) (rest : BitVec 28)
  /-- UNMOUNT: PCX_VOL_CTRL OP UNMOUNT unmounts an idle volume (R346) -/
  | unmount (m : Fin 32) (v : Fin 4) (rest : BitVec 28)
  /-- VOL_OP_DONE: A volume operation completes and leaves BUSY (R346) -/
  | volOpDone (v : Fin 4)
  /-- PCX_VOL_PUSH: A write of PCX_VOL_PUSH queues a job (R347) -/
  | pcxVolPush (m : Fin 32) (v : Fin 4) (h index : BitVec 16)
  /-- PCX_JOB_START: A volume starts its next job (R348) -/
  | pcxJobStart (v : Fin 4)
  /-- PCX_JOB_END: A job ends, advancing the tail or failing the volume, and posts its dockets (R349) -/
  | pcxJobEnd (v : Fin 4)
  /-- NET_ENABLE: NET_CTRL OP ENABLE turns the Ethernet port on (R357) -/
  | netEnable (m : Fin 32) (q : Fin 2) (rest : BitVec 28)
  /-- NET_DISABLE: NET_CTRL OP DISABLE turns the Ethernet port off (R357) -/
  | netDisable (m : Fin 32) (q : Fin 2) (rest : BitVec 28)
  /-- ARP_REQUEST: An ARP request or Neighbor Solicitation for an own address is answered (R358) -/
  | arpRequest (q : Fin 2) (v6 : Bool) (target sender : BitVec 128) (mac : BitVec 48)
  /-- ICMP_ECHO_REQUEST: An ICMP echo request is answered (R358) -/
  | icmpEchoRequest (q : Fin 2) (v6 : Bool) (target sender : BitVec 128) (payload : List Byte)
  /-- NEIGH_TIMEOUT: Held datagrams to an unresolved next hop are discarded after 10 ms (R359) -/
  | neighTimeout (q : Fin 2)
  /-- NEIGH_EXPIRY: A neighbour entry expires 60 s after its last confirmation (R359) -/
  | neighExpiry (q : Fin 2)
  /-- NET_TX_PUSH: A write of NET_TX_PUSH adds a berth to a transmit stream (R363) -/
  | netTxPush (m : Fin 32) (q : Fin 2) (t : Fin 32) (h : BitVec 16)
  /-- PIER_DATAGRAM_TX: A Pier datagram of a due object is sent by priority and turn (R362) -/
  | pierDatagramTx (q : Fin 2)
  /-- NET_RX_PUSH: A write of NET_RX_PUSH adds a berth to a receive stream (R367) -/
  | netRxPush (m : Fin 32) (q : Fin 2) (r : Fin 16) (h : BitVec 16)
  /-- PIER_DATAGRAM_RX: A received Pier datagram is matched and written into its object's berth (R368) -/
  | pierDatagramRx (q : Fin 2) (dport : BitVec 16) (payload : List Byte)
  /-- PIER_RX_TIMEOUT: TIMEOUT_US without a datagram ends an object incomplete (R368) -/
  | pierRxTimeout (q : Fin 2) (r : Fin 16)
  /-- HELLO: An HCP HELLO is checked and answered with HELLO_REPLY, opening a handshake (R418) -/
  | hello (q : Fin 2) (body : List Byte)
  /-- HCP_READ: An HCP READ returns up to 256 control words (R370) -/
  | hcpRead (q : Fin 2) (msg : HcpMsg)
  /-- HCP_WRITE: An HCP WRITE performs up to 256 word writes in order (R370) -/
  | hcpWrite (q : Fin 2) (msg : HcpMsg)
  /-- OWN: An HCP OWN message performs an ownership operation for the session (R370) -/
  | own (q : Fin 2) (msg : HcpMsg)
  /-- HCP_HEARTBEAT: An HCP HEARTBEAT renews the owning session's lease (R370) -/
  | hcpHeartbeat (q : Fin 2) (msg : HcpMsg)
  /-- HCP_TXN: An HCP TXN performs a transaction operation and replies TXN_REPLY (R370) -/
  | hcpTxn (q : Fin 2) (msg : HcpMsg)
  /-- WITHDRAW_LIST: An HCP WITHDRAW_LIST withdraws the ticket for the device's own array ID (R374) -/
  | withdrawList (q : Fin 2) (msg : HcpMsg)
  /-- HCP_CLOSE: An HCP CLOSE closes the session, releasing any ownership (R372) -/
  | hcpClose (q : Fin 2) (msg : HcpMsg)
  /-- HCP_PILOT_MESSAGE: An HCP pilot message becomes an HCP_CMD docket (R373) -/
  | hcpPilotMessage (q : Fin 2) (type : Fin 64) (msg : HcpMsg)
  /-- NET_HCP_SEND: A write of NET_HCP_SEND BODY_LO sends a device message (R373) -/
  | netHcpSend (m : Fin 32) (lo : Word)
  /-- HCP_SESSION_TIMEOUT: A session without a valid message for TIMEOUT_MS closes (R372) -/
  | hcpSessionTimeout (i : Fin 8)
  /-- HCP_HANDSHAKE_TIMEOUT: A handshake without a verified client message within 1 s closes (R418) -/
  | hcpHandshakeTimeout (i : Fin 8)
  /-- ARRAY_REPLY: The reply to an array message is sent after array ID times SPREAD_NS (R375) -/
  | arrayReply
  /-- AUD_START: AUD_CTRL OP START arms the port to start at its start time (R391) -/
  | audStart (m : Fin 32) (p : Fin 16) (rest : BitVec 28)
  /-- AUD_STOP: AUD_CTRL OP STOP stops an armed port or closes gates of a running one (R391) -/
  | audStop (m : Fin 32) (p : Fin 16) (rest : BitVec 28)
  /-- AUD_ABORT: AUD_CTRL OP ABORT closes all gates and stops at the next frame (R391) -/
  | audAbort (m : Fin 32) (p : Fin 16) (rest : BitVec 28)
  /-- AUD_PUSH: A write of AUD_PUSH adds a berth to the port queue (R386) -/
  | audPush (m : Fin 32) (p : Fin 16) (h : BitVec 16)
  /-- AUD_FRAME: At a frame instant the port records or plays one frame, starting or closing blocks (R388) -/
  | audFrame (p : Fin 16) (samples : List (BitVec 32))
  /-- AUD_CLOCK_LOSS: No frame sync for 4 frame periods puts a port into clock loss (R383) -/
  | audClockLoss (p : Fin 16)
  /-- ZC_TIMEOUT: A gate finds no zero crossing within TIMEOUT frames and opens or closes (R392) -/
  | zcTimeout (p : Fin 16) (slot : Fin 16)
  /-- SCG_LOCKED: 64 good word-clock periods lock a generator (R382) -/
  | scgLocked (g : Fin 4)
  /-- SCG_HOLDOVER: A locked generator loses its word clock and enters holdover (R382) -/
  | scgHoldover (g : Fin 4)
  /-- TWB_ENABLE: TWB_CTRL OP ENABLE enables the bus, clearing a stuck SDA (R400) -/
  | twbEnable (m : Fin 32) (b : Fin 8) (rest : BitVec 28) (line : TwbLine)
  /-- TWB_DISABLE: TWB_CTRL OP DISABLE turns the bus off, aborting any transfer (R408) -/
  | twbDisable (m : Fin 32) (b : Fin 8) (rest : BitVec 28)
  /-- TWB_CLEAR: TWB_CTRL OP CLEAR runs the bus clear procedure (R400) -/
  | twbClear (m : Fin 32) (b : Fin 8) (rest : BitVec 28) (line : TwbLine)
  /-- TWB_ABORT: TWB_CTRL OP ABORT aborts the transfer in progress (R396) -/
  | twbAbort (m : Fin 32) (b : Fin 8) (rest : BitVec 28)
  /-- TWB_XFER: A write of GO to TWB_XFER queues a controller transfer (R396) -/
  | twbXfer (m : Fin 32) (b : Fin 8) (rest : BitVec 31)
  /-- TWB_XFER_START: A pending transfer starts once the bus is free for tBUF (R396) -/
  | twbXferStart (b : Fin 8) (line : TwbLine) (lost : Option TwbLoss)
  /-- TWB_XFER_DONE: A transfer ends and writes its result (R396) -/
  | twbXferDone (b : Fin 8) (a : TwbAnswer)
  /-- TWB_ALERT: A write of GO to TWB_ALERT queues an alert write transfer (R399) -/
  | twbAlert (m : Fin 32) (b : Fin 8) (rest : BitVec 31)
  /-- TWB_TARGET_WRITE: Bytes written to Daxma as target are posted as TWB_RX dockets (R399) -/
  | twbTargetWrite (b : Fin 8) (general : Bool) (bytes : List Byte)
  /-- TWB_TARGET_READ: A controller reads bytes from Daxma as target (R399) -/
  | twbTargetRead (b : Fin 8) (n : Nat)
  /-- TWB_STRETCH_TIMEOUT: A target stretches SCL past STRETCH_MS and the transfer times out (R396) -/
  | twbStretchTimeout (b : Fin 8)
  /-- SCL_STUCK: SCL held low for STUCK_MS latches SCL_STUCK (R401) -/
  | sclStuck (b : Fin 8)
  /-- TWB_SUPPLY_FAULT: A two-wire pin outside its bank voltage latches SUPPLY (R401) -/
  | twbSupplyFault (b : Fin 8)
  /-- TWB_FAULT_RECOVER: An automatic fault clears 1 ms after the line recovers (R401) -/
  | twbFaultRecover (b : Fin 8)
  /-- TWB_WAKE_MATCH: In sleep an address match is acknowledged, SCL held and a wake requested (R402) -/
  | twbWakeMatch (b : Fin 8)
  /-- CT_WRITE: A control-target write access is CRC-checked and performed as master 2 (R403) -/
  | ctWrite (b : Fin 8) (cmd : Byte) (addr v : Word) (crc : Byte)
  /-- CT_READ: A control-target read access returns the word and its CRC (R403) -/
  | ctRead (b : Fin 8) (cmd : Byte) (addr : Word) (crc : Byte) (n : Nat)
  /-- GPIO_EDGE: An accepted GPIO edge posts a GPIO_EDGE docket (R404) -/
  | gpioEdge (n : Fin 160) (rising : Bool)
  /-- GPIO_DRIVE_FAULT: 16 consecutive drive mismatches latch a GPIO or event pin fault and release the pin (R406) -/
  | gpioDriveFault (pin : GpioPin) (level : Bool)
  /-- GPIO_FAULT_RETRY: After RETRY_MS the pin is driven again for 20 us to test it (R406) -/
  | gpioFaultRetry (pin : GpioPin) (pass : Bool)
  /-- GPIO_FAULT_CLEAR: A write of 1 to a GPIO_FAULT bit or EVT_PAD CLEAR resumes driving at once (R406) -/
  | gpioFaultClear (m : Fin 32) (t : FaultClear)
  /-- SEC_READY: SEC's self-tests and key derivation complete and READY or FAIL is set (R411) -/
  | secReady (ok : Bool)
  /-- CERT_LOAD: SEC_CMD OP CERT_LOAD checks a certificate chain (R427) -/
  | certLoad (m : Fin 32) (rest : BitVec 28)
  /-- OWNER_BURN: SEC_CMD OP OWNER_BURN burns a new owner slot (R414) -/
  | ownerBurn (m : Fin 32) (rest : BitVec 28) (burnt : Bool)
  /-- OWNER_REVOKE: SEC_CMD OP OWNER_REVOKE revokes an owner slot (R414) -/
  | ownerRevoke (m : Fin 32) (rest : BitVec 28) (burnt : Bool)
  /-- POLICY_BURN: SEC_CMD OP POLICY_BURN burns deny policy bits (R414) -/
  | policyBurn (m : Fin 32) (rest : BitVec 28) (burnt : Bool)
  /-- RECIP_SET: SEC_CMD OP RECIP_SET installs a recipient public key (R420) -/
  | recipSet (m : Fin 32) (rest : BitVec 28)
  /-- CLIP_OPEN: SEC_CMD OP CLIP_OPEN draws a clip key and writes its key block (R420) -/
  | clipOpen (m : Fin 32) (rest : BitVec 28)
  /-- CLIP_LOAD: SEC_CMD OP CLIP_LOAD unwraps a device key block for READ (R420) -/
  | clipLoad (m : Fin 32) (rest : BitVec 28)
  /-- CLIP_CLOSE: SEC_CMD OP CLIP_CLOSE destroys a clip key (R420) -/
  | clipClose (m : Fin 32) (rest : BitVec 28)
  /-- ARRAY_KEY: SEC_CMD OP ARRAY_KEY installs the array key from a wrapped entry (R419) -/
  | arrayKey (m : Fin 32) (rest : BitVec 28)
  /-- ATTEST: SEC_CMD OP ATTEST writes a signed attestation report (R428) -/
  | attest (m : Fin 32) (rest : BitVec 28)
  /-- SEC_CMD_DONE: A SEC command completes and sets CMD_DONE (R430) -/
  | secCmdDone
  /-- SEC_LEAF_HASH: The leaf hash of a protected parcel completes and joins an entry (R423) -/
  | secLeafHash (i : Nat)
  /-- CHAIN_SIGN_DONE: A pending chain signature completes and its record is written (R425) -/
  | chainSignDone (d : Fin 32)
  /-- SEC_PUSH: A write of SEC_PUSH adds an output berth (R426) -/
  | secPush (m : Fin 32) (h : BitVec 16)
  /-- RECORD: LOG_CTRL OP RECORD starts logbook recording with START records (R434) -/
  | record (m : Fin 32)
  /-- REPLAY: LOG_CTRL OP REPLAY enters REPLAY_SETUP (R438) -/
  | replay (m : Fin 32)
  /-- LOG_RUN: LOG_CTRL OP RUN starts REPLAYING at the first logged tide (R438) -/
  | logRun (m : Fin 32)
  /-- LOG_STOP: LOG_CTRL OP STOP writes END and closes the segment (R445) -/
  | logStop (m : Fin 32)
  /-- LOG_OUT_PUSH: A write of LOG_OUT_PUSH adds an output berth (R437) -/
  | logOutPush (m : Fin 32) (h : BitVec 16)
  /-- LOG_IN_PUSH: A write of LOG_IN_PUSH adds a logbook berth for replay (R438) -/
  | logInPush (m : Fin 32) (h : BitVec 16)
  /-- LOG_FEED: A write of LOG_FEED_p pushes a raw and map berth to a replay feeder (R438) -/
  | logFeed (m : Fin 32) (p : Fin 4) (raw map : BitVec 16)
  /-- REPLAY_WRITE: A logged WRITE record is performed in the first FCLK cycle after its tide (R439) -/
  | replayWrite
  /-- POWER_ON: Power-on starts a COLD reset (R457) -/
  | powerOn
  /-- RESET_PIN_ASSERT: RESET_N held low for 10 us starts a COLD reset (R482) -/
  | resetPinAssert
  /-- RESET_PIN_RELEASE: RESET_N rises and the power-up sequence runs (R457) -/
  | resetPinRelease (banks : Word)
  /-- BROWNOUT: A rail below 90 % for 2 samples holds a COLD reset (R448) -/
  | brownout (first second : List Nat)
  /-- BROWNOUT_RELEASE: The brown-out reset ends 1 ms after every rail is back in range (R448) -/
  | brownoutRelease (banks : Word)
  /-- SLEEP: PWR_CTRL OP SLEEP stops blocks, puts DRAM in self-refresh and enters sleep (R459) -/
  | sleep (m : Fin 32) (rest : BitVec 28)
  /-- SLEEP_ENTRY_DONE: Sleep entry completes, beginning a latched wake if one arrived (R459) -/
  | sleepEntryDone
  /-- WARM: PWR_CTRL OP WARM with the key performs a WARM reset (R454) -/
  | warm (m : Fin 32) (rest : BitVec 28)
  /-- WAKE_GPIO: An edge on a wake-enabled GPIO requests a wake from sleep (R460) -/
  | wakeGpio (n : Fin 160)
  /-- WAKE_RESET: The wake restarts PLLs and performs a WAKE reset (R460) -/
  | wakeReset (banks : Word)
  /-- PWR_BLOCK_RESET: A write of PWR_BLOCK_RESET stops and resets one unit (R456) -/
  | pwrBlockReset (m : Fin 32) (v : Word)
  /-- WDOG_KICK: A write of 0xC0DE to PWR_WDOG_KICK restarts the watchdog count (R458) -/
  | wdogKick (m : Fin 32) (v : Word)
  /-- WDOG_EXPIRY: The watchdog expires and performs the reset ACTION names (R458) -/
  | wdogExpiry
  /-- VCORE_VID_STEP: Daxma steps the VCORE code by at most 4 codes every 10 us (R447) -/
  | vcoreVidStep
  /-- DOMAIN_SWITCH_ON: A unit power domain switches on in its 128-cycle turn (R451) -/
  | domainSwitchOn (u : Fin 40)
  /-- DOMAIN_GATE_OFF: A gated domain switches off after its block has been stopped for 100 us (R452) -/
  | domainGateOff (u : Fin 40)
  /-- PORT_PIN_FAULT: 16 consecutive out-of-limit samples fault a high-speed pin (R461) -/
  | portPinFault (pin : PortPin) (mv : Nat)
  /-- PORT_FAULT_RETRY: After RETRY_MS a faulted pin is reconnected for 20 us to test it (R461) -/
  | portFaultRetry (pin : PortPin) (pass : Bool)
  /-- REF_LOSS: A 10 us window finds REFCLK missing or off frequency (R462) -/
  | refLoss (ppm : Option Int)
  /-- REF_HOLD_EXPIRY: Reference loss beyond 100 us stops the serial transmitters (R462) -/
  | refHoldExpiry
  /-- REF_RESTORE: After 1 ms in tolerance links retrain and heads restart (R462) -/
  | refRestore
  /-- THERMAL_SAMPLE: Every 1 ms PWR reads the sensors and applies WARN, THROTTLE or SHUTDOWN (R463) -/
  | thermalSample (dieT stackT : List (BitVec 16))
  /-- EXTEST: JTAG instruction EXTEST selects the boundary register driving the pins (R484) -/
  | extest (scan : List Bool)
  /-- IDCODE: JTAG instruction IDCODE selects the identity register (R484) -/
  | idcode
  /-- SAMPLE_PRELOAD: JTAG instruction SAMPLE/PRELOAD selects the boundary register (R484) -/
  | samplePreload (scan : List Bool)
  /-- HIGHZ: JTAG instruction HIGHZ puts every output at high impedance (R484) -/
  | highz
  /-- CLAMP: JTAG instruction CLAMP holds outputs at the boundary values (R484) -/
  | clamp
  /-- DEBUG: JTAG instruction DEBUG selects the debug access register (R484) -/
  | debug
  /-- BYPASS: JTAG instruction BYPASS selects the bypass register (R484) -/
  | bypass
  /-- DEBUG_ACCESS: Update-DR in DEBUG starts a control access as master 3 (R485) -/
  | debugAccess (dr : BitVec 60)
  /-- ETH_LINK_UP: An Ethernet port's link comes up with FEC aligned, setting NET_STATUS.LINK and FEC_LOCK (R376) -/
  | ethLinkUp (q : Fin 2) (fecErr : Nat)
  /-- ETH_LINK_DOWN: An Ethernet port loses its link and sets NET_EVENT.LINK_DOWN (R376) -/
  | ethLinkDown (q : Fin 2) (fecErr : Nat)
  /-- ARP_REPLY: An ARP reply or Neighbor Advertisement fills the neighbour cache and releases the datagrams held for that next hop (R359) -/
  | arpReply (q : Fin 2) (v6 : Bool) (addr : BitVec 128) (mac : BitVec 48)
  /-- NET_RX_DISCARD: A received frame that no rule accepts, such as a fragment, pause frame, oversize frame or unmatched datagram, is discarded and counted in NET_CNT_RX.DISCARD (R358) -/
  | netRxDiscard (q : Fin 2)
  /-- LANE_SIGNAL_LOSS: A Wydun lane's swing stays below the loss-of-signal threshold for 1 us with pin voltages in range, and the lane faults with OPEN (R158) -/
  | laneSignalLoss (p : Fin 4) (i : Fin 64)
  deriving DecidableEq, Repr

end Sys2Proof
end

