-- ==== Sys2Proof/Machine/Bits.lean ====
section
/-! DEFINITION. Bit fields of natural numbers, two's complement values, little-endian bytes, saturating counters, and the two checksums of R500. -/

namespace Sys2Proof.Machine

/-- Bits `hi` down to `lo` of `n`. -/
def bits (n hi lo : Nat) : Nat := (n >>> lo) % 2 ^ (hi + 1 - lo)

/-- Bit `i` of `n`. -/
def bit (n i : Nat) : Bool := n.testBit i

/-- `n` with bits `hi` down to `lo` replaced by the low bits of `v`. -/
def putBits (n hi lo v : Nat) : Nat :=
  (n >>> (hi + 1)) <<< (hi + 1) + (v % 2 ^ (hi + 1 - lo)) <<< lo + n % 2 ^ lo

/-- The two's complement value of the low `w` bits of `n` (R4, S formats). -/
def signed (w n : Nat) : Int :=
  let m := n % 2 ^ w
  if m < 2 ^ (w - 1) then (m : Int) else (m : Int) - (2 ^ w : Nat)

/-- The low `w` bits of an integer, as a natural number. -/
def wrap (w : Nat) (i : Int) : Nat := (i % (2 ^ w : Nat)).toNat

/-- `1` for true, `0` for false: a flag as a field value. -/
def b01 (b : Bool) : Nat := if b then 1 else 0

/-- `v` limited to `lo … hi`. -/
def clampN (lo hi v : Nat) : Nat := if v < lo then lo else if hi < v then hi else v

/-- `v` limited to `lo … hi`, for integers. -/
def clampI (lo hi v : Int) : Int := if v < lo then lo else if hi < v then hi else v

/-- A `w`-bit event counter after `k` more events: it saturates at all ones (R10). -/
def satAdd (w n k : Nat) : Nat := if 2 ^ w ≤ n + k then 2 ^ w - 1 else n + k

/-- The low `k` bytes of `n`, least significant first (R5: little-endian). -/
def bytesLE : Nat → Nat → List Byte
  | 0, _ => []
  | k + 1, n => BitVec.ofNat 8 n :: bytesLE k (n >>> 8)

/-- The value of a list of bytes, least significant first. -/
def ofBytesLE : List Byte → Nat
  | [] => 0
  | b :: bs => b.toNat + ofBytesLE bs <<< 8

/-- The value of a list of bytes, most significant first. -/
def ofBytesBE (bs : List Byte) : Nat := ofBytesLE bs.reverse

/-- The low `k` bytes of `n`, most significant first. -/
def bytesBE (k n : Nat) : List Byte := (bytesLE k n).reverse

/-- `k` zero bytes. -/
def zeros (k : Nat) : List Byte := List.replicate k 0

/-- `bs` cut or zero-padded to `k` bytes. -/
def padTo (k : Nat) (bs : List Byte) : List Byte := bs.take k ++ zeros (k - bs.length)

/-- `⌈a / b⌉`, with `0` for `b = 0`. -/
def ceilDiv (a b : Nat) : Nat := (a + b - 1) / b

/-- `⌊n / d⌋` for a positive `d`, rounding towards minus infinity. -/
def floorDiv (n : Int) (d : Nat) : Int := n.fdiv d

/-- Round to nearest with halves away from minus infinity: `⌊(2n + d) / 2d⌋`. -/
def roundHalfUp (n : Int) (d : Nat) : Int := (2 * n + d).fdiv (2 * d)

/-- One bit of the reflected CRC-32 register (R500). -/
def crc32Bit (c : Nat) : Nat := if c % 2 = 1 then (c >>> 1) ^^^ 0xEDB88320 else c >>> 1

/-- One byte into the CRC-32 register (R500: least significant bit first). -/
def crc32Byte (c : Nat) (b : Byte) : Nat :=
  let x := c ^^^ b.toNat
  crc32Bit (crc32Bit (crc32Bit (crc32Bit (crc32Bit (crc32Bit (crc32Bit (crc32Bit x)))))))

/-- CRC-32 (IEEE 802.3) of a byte string: initial value and final XOR of all ones (R500). -/
def crc32 (bs : List Byte) : Nat := (bs.foldl crc32Byte 0xFFFFFFFF) ^^^ 0xFFFFFFFF

/-- One bit of the CRC-8 register with polynomial 0x07 (R500). -/
def crc8Bit (c : Nat) : Nat := if bit c 7 then ((c <<< 1) ^^^ 0x07) % 256 else (c <<< 1) % 256

/-- One byte into the CRC-8 register (R500: most significant bit first). -/
def crc8Byte (c : Nat) (b : Byte) : Nat :=
  let x := c ^^^ b.toNat
  crc8Bit (crc8Bit (crc8Bit (crc8Bit (crc8Bit (crc8Bit (crc8Bit (crc8Bit x)))))))

/-- CRC-8 of a byte string: initial value 0, no final XOR (R500). -/
def crc8 (bs : List Byte) : Nat := bs.foldl crc8Byte 0

/-- The 32 bit indices `i < w` at which `n` has a 1, ascending. -/
def onesBelow (w n : Nat) : List Nat := (List.range w).filter n.testBit

/-- Replace element `i` of a list, unchanged when `i` is past its end. -/
def listSet {α : Type} (l : List α) (i : Nat) (v : α) : List α := l.set i v

/-- The first index of a list whose element satisfies `p`. -/
def findIdx? {α : Type} (p : α → Bool) : List α → Option Nat
  | [] => none
  | a :: as => if p a then some 0 else (findIdx? p as).map (· + 1)

/-- `r` added to a list of keys that holds no repeats, unless it is there. -/
def addNew {α : Type} [DecidableEq α] (l : List α) (a : α) : List α := if a ∈ l then l else l ++ [a]

end Sys2Proof.Machine
end

