-- ==== Sys2Proof/Machine/Front.lean ====
section
/-! DEFINITION. The front end's arithmetic on one frame: linearisation, black and columns, defects, the strata merge, the sieve and the infrared separation (R170 to R183). -/

namespace Sys2Proof.Machine

/-- A plane of integers, row by row. -/
abbrev Img := Array (Array Int)

namespace Img

/-- The value at row `r`, column `c`; 0 outside. -/
def at_ (m : Img) (r c : Nat) : Int := (m.getD r #[]).getD c 0

/-- The plane of `rows × cols` values `f r c`. -/
def make (rows cols : Nat) (f : Nat → Nat → Int) : Img :=
  ((List.range rows).map fun r => ((List.range cols).map fun c => f r c).toArray).toArray

end Img

/-- Sum of a list of integers. -/
def sumI (l : List Int) : Int := l.foldl (· + ·) 0

/-- `⌊log₂ n⌋` for positive `n`. -/
def ilog2 (n : Nat) : Nat := Nat.log2 n

/-- Word `i` of a little-endian table, 0 beyond its end (R169). -/
def tabWord (t : Array Byte) (i : Nat) : Nat :=
  ofBytesLE ((List.range 4).map fun k => t.getD (4 * i + k) 0)

/-- 16-bit word `i` of a little-endian table. -/
def tabHalf (t : Array Byte) (i : Nat) : Nat :=
  ofBytesLE ((List.range 2).map fun k => t.getD (2 * i + k) 0)

/-- 64-bit word `i` of a little-endian table. -/
def tabLong (t : Array Byte) (i : Nat) : Nat :=
  ofBytesLE ((List.range 8).map fun k => t.getD (8 * i + k) 0)

/-- The front end's settings, from the frame's bank (R169). -/
structure FrontCfg where
  samples : Nat
  rows : Nat
  strata : Nat
  width : Nat
  black : Nat → Nat
  g : Nat → Nat
  wb : Nat → Nat
  knee : Nat → Nat
  sat : Nat → Nat
  a : Nat → Nat
  b : Nat → Nat
  k : Nat
  dilate : Bool
  pick : Bool
  dyn : Bool
  rel : Nat
  absv : Nat
  count : Nat
  codes : Nat → Nat
  pw : Nat
  ph : Nat
  phaseX : Nat
  phaseY : Nat
  edge : Nat
  lg : Nat → Nat
  irmat : Nat → Int

/-- The tables of a frame: linearisation, columns, defect list; none for handle 0 (R169). -/
structure FrontTables where
  lut : Option (Array Byte)
  col : Option (Array Byte)
  list : Option (Array Byte)

/-- What the front end makes of a frame: corrected strata, classes, merged mosaic with its marks, invalid rows, the output planes, and the counts. -/
structure FrontOut where
  strata : List Img
  cls : Img
  chan : Img
  v : Img
  single : Img
  satd : Img
  invalid : List Bool
  rgbi : List Img
  blended : Nat
  singles : Nat
  saturated : Nat
  dynamic : Nat
  unfixed : Nat
  disorder : Bool

namespace Front

/-! ### The sieve (R180, R181) -/

/-- The class at a row and column: 0 R, 1 G, 2 B, 3 C, 4 I, 5 M; reserved codes are M (R180). -/
def classAt (f : FrontCfg) (r c : Nat) : Nat :=
  let code := bits (f.codes ((r + f.phaseY) % f.ph)) (4 * ((c + f.phaseX) % f.pw) + 3) (4 * ((c + f.phaseX) % f.pw))
  min code 5

/-- The sieve has class `k` within its period (R180). -/
def sieveHas (f : FrontCfg) (k : Nat) : Bool :=
  (List.range f.ph).any fun r => (List.range f.pw).any fun c => decide (classAt f r c = k)

/-- The channel of a class; 4 for none (R180). -/
def chanOf (hasG : Bool) (k : Nat) : Nat :=
  if k ≤ 2 then k else if k = 3 then (if hasG then 4 else 1) else if k = 4 then 3 else 4

/-- An index moved into `0 … n - 1` by the least whole number of periods; none where no such place exists (R181). -/
def fold (n period : Nat) (x : Int) : Option Nat :=
  let y : Int := if x < 0 then x + ((-x + period - 1) / period) * period
    else if (n : Int) ≤ x then x - ((x - n + period) / period) * period else x
  if 0 ≤ y ∧ y < n then some y.toNat else none

/-- The site at an offset from `(r, c)`, moved into the frame (R181). -/
def siteAt (f : FrontCfg) (r c : Int) : Option (Nat × Nat) :=
  match fold f.rows f.ph r, fold f.samples f.pw c with
  | some a, some b => some (a, b)
  | _, _ => none

/-! ### Linearisation, black and columns (R171, R172) -/

/-- ℓ of an aligned code (R171). -/
def linear (t : Option (Array Byte)) (s x16 : Nat) : Int :=
  match t with
  | none => x16 * 16
  | some t =>
    let j := x16 >>> 8
    let fr : Int := x16 % 256
    let l0 : Int := (tabWord t (s * 257 + j) % 2 ^ 24 : Nat)
    let l1 : Int := (tabWord t (s * 257 + j + 1) % 2 ^ 24 : Nat)
    clampI 0 0xFFFFFF (l0 + ((l1 - l0) * fr + 128).fdiv 256)

/-- a of a linearised sample in column `c` (R172): round_4 keeps 4 fraction bits, a is clamped to S21.4. -/
def column (t : Option (Array Byte)) (black s c : Nat) (l : Int) : Int :=
  let w := match t with | none => 0x40000000 | some t => tabWord t (s * 32768 + c)
  clampI (-(2 ^ 24)) (2 ^ 24 - 1) (roundHalfUp ((l - black - signed 16 (bits w 15 0)) * (bits w 31 16 : Nat)) (2 ^ 14))

/-- The corrected stratum before defect correction. -/
def stratumImg (f : FrontCfg) (t : FrontTables) (s : Nat) (codes : Img) : Img :=
  Img.make f.rows f.samples fun r c =>
    let x := (codes.at_ r c).toNat % 2 ^ f.width
    column t.col (f.black s) s c (linear t.lut s (x <<< (16 - f.width)))

/-! ### Defects (R173 to R175) -/

/-- The entries of the defect list that are in order, with whether one was not (R173). -/
def defects (t : Array Byte) : Nat → Nat → Nat × Nat → List Nat × Bool
  | 0, _, _ => ([], false)
  | n + 1, i, last =>
    let e := tabLong t i
    let key := (bits e 29 15, bits e 14 0)
    if 0 < i ∧ (key.1 < last.1 ∨ (key.1 = last.1 ∧ key.2 < last.2)) then
      let (l, _) := defects t n (i + 1) last
      (l, true)
    else
      let (l, d) := defects t n (i + 1) key
      (e :: l, d)

/-- Entry `e` marks site `(r, c)` of stratum `s` (R173). -/
def marks (s r c e : Nat) : Bool :=
  let row := bits e 29 15
  let col := bits e 14 0
  let run := bits e 45 31 + 1
  bit e (46 + s) &&
    (if bit e 30 then decide (c = col ∧ row ≤ r ∧ r < row + run) else decide (r = row ∧ col ≤ c ∧ c < col + run))

/-- The nearest same-class site in a direction, at most one period away (R174, R181). -/
def nearest (f : FrontCfg) (cls : Img) (r c : Nat) (dr dc : Int) (lim : Nat) : Option (Nat × Nat) :=
  ((List.range lim).findSome? fun d =>
    let rr : Int := r + dr * (d + 1)
    let cc : Int := c + dc * (d + 1)
    let k := classAt f (wrapTo f.ph rr) (wrapTo f.pw cc)
    if (k : Int) = cls.at_ r c then some (siteAt f rr cc) else none).getD none
where
  /-- An index of the same phase, not negative. -/
  wrapTo (p : Nat) (x : Int) : Nat := (x % p).toNat

/-- The four same-class neighbours: left, right, above, below (R174). -/
def neighbours (f : FrontCfg) (cls : Img) (r c : Nat) : List (Option (Nat × Nat)) :=
  [nearest f cls r c 0 (-1) f.pw, nearest f cls r c 0 1 f.pw, nearest f cls r c (-1) 0 f.ph, nearest f cls r c 1 0 f.ph]

/-- Value and difference that one direction offers (R174). -/
def direction (l : List Int) : Option (Int × Option Nat) :=
  match l with
  | [x, y] => some ((x + y).fdiv 2, some (x - y).natAbs)
  | [x] => some (x, none)
  | _ => none

/-- The replacement of a defective site (R174). -/
def replacement (h v : Option (Int × Option Nat)) : Option Int :=
  match h, v with
  | some (a, some da), some (b, some db) => some (if db < da then b else a)
  | some (a, some _), _ => some a
  | _, some (b, some _) => some b
  | some (a, none), _ => some a
  | _, some (b, none) => some b
  | none, none => none

/-- A defect-corrected stratum, with its dynamic and unfixed sites counted (R174, R175). -/
def correct (f : FrontCfg) (cls : Img) (valid : Nat → Bool) (listed : List Nat) (s : Nat) (a : Img) : Img × Nat × Nat :=
  let bad : Img := Img.make f.rows f.samples fun r c =>
    b01 (!valid r || decide (cls.at_ r c = 5) || listed.any (marks s r c))
  let goodAt (q : Option (Nat × Nat)) : Option Int :=
    match q with | some (r, c) => if bad.at_ r c = 0 then some (a.at_ r c) else none | none => none
  let dyn : Img := Img.make f.rows f.samples fun r c =>
    if !f.dyn ∨ bad.at_ r c ≠ 0 then 0
    else
      let g := (neighbours f cls r c).filterMap goodAt
      match g with
      | x :: y :: l =>
        let hi := (y :: l).foldl max x
        let lo := (y :: l).foldl min x
        let v := a.at_ r c
        b01 (decide (hi + ((hi.natAbs * f.rel) >>> 8 : Nat) + f.absv * 16 < v) ||
          decide (v < lo - ((lo.natAbs * f.rel) >>> 8 : Nat) - f.absv * 16))
      | _ => 0
  let fixed (q : Option (Nat × Nat)) : Option Int :=
    match q with | some (r, c) => if bad.at_ r c = 0 ∧ dyn.at_ r c = 0 then some (a.at_ r c) else none | none => none
  let repl (r c : Nat) : Option (Option Int) :=
    if !valid r ∨ (bad.at_ r c = 0 ∧ dyn.at_ r c = 0) then none
    else
      let n := neighbours f cls r c
      some (replacement (direction ((n.take 2).filterMap fixed)) (direction ((n.drop 2).filterMap fixed)))
  let out := Img.make f.rows f.samples fun r c =>
    match repl r c with | some (some v) => v | _ => a.at_ r c
  let unfixed := Img.make f.rows f.samples fun r c => match repl r c with | some none => 1 | _ => 0
  (out, (total dyn).toNat, (total unfixed).toNat)
where
  /-- Sum of a plane. -/
  total (m : Img) : Int := m.foldl (fun x row => row.foldl (· + ·) x) 0

/-! ### The strata merge (R176 to R179) -/

/-- ramp_s (R176). -/
def ramp (f : FrontCfg) (s : Nat) (a : Int) : Nat :=
  let sat : Int := f.sat s * 16
  let knee : Int := f.knee s * 16
  if sat ≤ a then 0 else if sat ≤ knee ∨ a ≤ knee then 256 else ((sat - a) * 256 / (sat - knee)).toNat

/-- `V_s` scaled by 2⁴⁸ (R176). -/
def variance (f : FrontCfg) (s : Nat) (a : Int) : Int :=
  (f.g s * f.g s : Nat) * ((f.a s : Int) * 65536 + f.b s * max a 0)

/-- The weights of the strata at a site whose rows are valid as told (R176). -/
def weights (f : FrontCfg) (valid : Nat → Bool) (a : Nat → Int) : List Nat :=
  (List.range f.strata).map fun s => if valid s then f.wb s * ramp f s (a s) else 0

/-- The stratum with the largest key among those that qualify; the lower on a tie. -/
def argMax (n : Nat) (p : Nat → Bool) (key : Nat → Nat) : Option Nat :=
  (List.range n).foldl (fun acc s => if !p s then acc else match acc with
    | none => some s
    | some t => if key t < key s then some s else some t) none

/-- The strata disagree at a site (R177), exactly. -/
def disagrees (f : FrontCfg) (a : Nat → Int) (w : List Nat) : Bool :=
  let ws := fun s => w.getD s 0
  if f.strata ≤ 1 ∨ ((List.range f.strata).filter fun s => decide (0 < ws s)).length ≤ 1 then false
  else match argMax f.strata (fun _ => true) ws with
    | none => false
    | some ref => (List.range f.strata).any fun s =>
      decide (s ≠ ref) && decide (0 < ws s) &&
        (let d := a s * f.g s - a ref * f.g ref
         decide ((f.k * f.k : Nat) * (variance f s (a s) + variance f ref (a ref)) < d * d * 65536))

/-- The merged value of a site and its case: 0 blended, 1 single, 2 saturated (R178). -/
def mergeSite (f : FrontCfg) (valid : Nat → Bool) (a : Nat → Int) (w : List Nat) (single : Bool) : Int × Nat :=
  let ws := fun s => w.getD s 0
  let total := w.foldl (· + ·) 0
  let y := fun s => roundHalfUp (a s * f.g s) (2 ^ 20)
  let (v, k) :=
    if total = 0 then
      ((argMax f.strata valid f.g).elim 0 y, 2)
    else if single then
      ((argMax f.strata (fun s => decide (0 < ws s)) (if f.pick then f.g else ws)).elim 0 y, 1)
    else
      (roundHalfUp (sumI ((List.range f.strata).map fun s => ws s * (a s * f.g s))) (total * 2 ^ 20), 0)
  (clampI 0 0xFFFFF v, k)

/-- The row that replaces an invalid merged row (R179). -/
def replacementRow (f : FrontCfg) (invalid : Nat → Bool) (r : Nat) : Option Nat :=
  let cands : List Int := [r - f.ph, r + f.ph, r - 2 * f.ph, r + 2 * f.ph]
  (cands.find? fun (x : Int) => decide (0 ≤ x ∧ x < (f.rows : Int)) && !invalid x.toNat).map Int.toNat

/-! ### Reconstruction (R182, R183) -/

/-- The 3 × 3 and 9 × 9 windows as offsets. -/
def window (k : Nat) : List (Int × Int) :=
  let l : List Int := (List.range (2 * k + 1)).map fun i => (i : Int) - k
  (l.map fun dy => l.map fun dx => (dy, dx)).flatten

/-- Sites of a window around `(r, c)`, moved into the frame; absent sites are left out (R181). -/
def sites (f : FrontCfg) (offs : List (Int × Int)) (r c : Nat) : List (Int × Int × Nat × Nat) :=
  offs.filterMap fun (dy, dx) => (siteAt f (r + dy) (c + dx)).map fun (a, b) => (dy, dx, a, b)

/-- The guide Y (R182). -/
def guide (f : FrontCfg) (cls n : Img) (r c : Nat) : Int :=
  let l := (sites f (window 1) r c).filter fun (_, _, a, b) => f.lg (cls.at_ a b).toNat ≠ 0
  let h := fun (dy dx : Int) => if dy = 0 ∧ dx = 0 then (4 : Int) else if dy = 0 ∨ dx = 0 then 2 else 1
  let hs := sumI (l.map fun (dy, dx, _, _) => h dy dx)
  if hs = 0 then 0 else (sumI (l.map fun (dy, dx, a, b) => h dy dx * n.at_ a b) + hs / 2) / hs

/-- K[k] at a site that does not carry channel `k` (R182). -/
def interpolate (f : FrontCfg) (chan v y : Img) (k r c : Nat) : Int :=
  let yp := y.at_ r c
  let l := (sites f (window 4) r c).filter fun (_, _, a, b) => decide (chan.at_ a b = k)
  let terms := l.map fun (dy, dx, a, b) =>
    let yq := y.at_ a b
    let rr : Int := ((yq - yp).natAbs : Int) * 256 / (yq + yp + 1)
    let e := max 1 (256 - (rr * f.edge).fdiv 16)
    let w : Int := e * (([16, 8, 4, 2, 1] : List Int).getD (max dy.natAbs dx.natAbs) 0)
    (w * ((v.at_ a b * 65536) / (yq + 1)), w)
  let num := sumI (terms.map fun t => t.1)
  let den := sumI (terms.map fun t => t.2)
  if den = 0 then 0 else clampI 0 0xFFFFF (((yp + 1) * (num / den) + 32768).fdiv 65536)

/-- R′, G′, B′ and IR from the four channel planes (R183). -/
def separate (f : FrontCfg) (ks : List Img) : List Img :=
  let k := fun i => ks.getD i #[]
  ((List.range 3).map fun j => Img.make f.rows f.samples fun r c =>
    clampI 0 0xFFFFF ((sumI ((List.range 4).map fun i => f.irmat (4 * j + i) * (k i).at_ r c) + 2048).fdiv 4096)) ++ [k 3]

/-! ### The frame -/

/-- The front end on one frame: input codes and row validity per stratum (R169 to R183). -/
def run (f : FrontCfg) (t : FrontTables) (codes : Nat → Img) (valid : Nat → Nat → Bool) : FrontOut :=
  let hasG := sieveHas f 1
  let cls := Img.make f.rows f.samples fun r c => (classAt f r c : Nat)
  let chan := Img.make f.rows f.samples fun r c => (chanOf hasG (cls.at_ r c).toNat : Nat)
  let (listed, disorder) := match t.list with
    | none => ([], false)
    | some l => defects l f.count 0 (0, 0)
  let cs := (List.range f.strata).map fun s => correct f cls (valid s) listed s (stratumImg f t s (codes s))
  let a := fun s r c => ((cs.getD s (#[], 0, 0)).1).at_ r c
  let invalid := (List.range f.rows).map fun r => !((List.range f.strata).any fun s => valid s r)
  let inv := fun r => invalid.getD r true
  let w := fun r c => weights f (fun s => valid s r) (fun s => a s r c)
  let dis := Img.make f.rows f.samples fun r c => b01 (!inv r && disagrees f (fun s => a s r c) (w r c))
  let single := Img.make f.rows f.samples fun r c =>
    if inv r then 0
    else if dis.at_ r c ≠ 0 then 1
    else if f.dilate then b01 ((sites f (window 1) r c).any fun (_, _, x, y) => dis.at_ x y ≠ 0) else 0
  let merged := fun r c => mergeSite f (fun s => valid s r) (fun s => a s r c) (w r c) (single.at_ r c ≠ 0)
  let v0 := Img.make f.rows f.samples fun r c => if inv r then 0 else (merged r c).1
  let kase := Img.make f.rows f.samples fun r c => if inv r then 3 else ((merged r c).2 : Nat)
  let v := Img.make f.rows f.samples fun r c =>
    if inv r then (match replacementRow f inv r with | some x => v0.at_ x c | none => 0) else v0.at_ r c
  let n := Img.make f.rows f.samples fun r c => (v.at_ r c * f.lg (cls.at_ r c).toNat + 2048).fdiv 4096
  let y := Img.make f.rows f.samples fun r c => guide f cls n r c
  let fed := (List.range 4).map fun k => (List.range 6).any fun c => sieveHas f c && decide (chanOf hasG c = k)
  let ks := (List.range 4).map fun (k : Nat) => Img.make f.rows f.samples fun r c =>
    if chan.at_ r c = (k : Int) then v.at_ r c else if !fed.getD k false then 0 else interpolate f chan v y k r c
  let kcount := fun k => kase.foldl (fun x row => row.foldl (fun x e => if e = (k : Int) then x + 1 else x) x) 0
  { strata := cs.map fun c => c.1, cls := cls, chan := chan, v := v, single := single,
    satd := Img.make f.rows f.samples fun r c => b01 (decide (kase.at_ r c = 2)),
    invalid := invalid, rgbi := separate f ks, blended := kcount 0, singles := kcount 1, saturated := kcount 2,
    dynamic := (cs.map fun c => c.2.1).foldl (· + ·) 0, unfixed := (cs.map fun c => c.2.2).foldl (· + ·) 0,
    disorder := disorder }

end Front

end Sys2Proof.Machine
end

