-- ==== Sys2Proof/Config.lean ====
section
/-! DEFINITION. What one implementation or one device fixes and the spec leaves open: fuse contents and free values. Nothing here has a body that Lean can evaluate. -/

namespace Sys2Proof.Config

/-- Free value number `n`: an unstated value that an instruction or a unit produces (log entry 1). `State.fresh` numbers them. -/
opaque freeNat : Nat → Nat

/-- The factory row `r` of the fuse array, as burnt when the device was made (R233): it differs between devices (R499, log entry 2). -/
opaque factoryFuse : Nat → Nat

/-- The 64-bit draws of SEC's TRNG (R92, R412): draw number `n` (log entry 1). -/
opaque trng : Nat → BitVec 64

/-- The offset the servo predicts for the next sample, from its last offsets (offset, FCLK cycle) and its adjustment: R116 names a prediction and gives no formula (log entry 5). -/
opaque servoPrediction : List (Int × Nat) → Int → Int

/-- The frequency estimate in ppb over the last four samples (R116 gives no formula, log entry 5). -/
opaque freqEstimate : List (Int × Nat) → Int

/-- Which neighbouring code a transfer function gives for tone code `E` where the exact value lies near a halfway point (R196, log entry 11): transfer function and tone code. -/
opaque tfChoice : Nat → Nat → Bool

/-- The raw DEFLATE payload LZE makes of a block's transformed bytes at an effort: one function for every Daxma (R277), whose choices R276 and R280 do not fix (log entry 12). -/
opaque deflate : Nat → List Byte → List Byte

/-- The AES-256-GCM key stream of a key and nonce, of a given length (R411, R422). -/
opaque aesStream : List Byte → List Byte → Nat → List Byte

/-- The AES-256-GCM tag of a key, nonce, AAD and ciphertext (R411, R422). -/
opaque gcmTag : List Byte → List Byte → List Byte → List Byte → List Byte

/-- SEC's root secret RS, burnt at manufacture (R410). -/
opaque rootSecret : List Byte

/-- The KDF of R411: key, label, context, bytes wanted. -/
opaque kdf : List Byte → List Byte → List Byte → Nat → List Byte

/-- The ECDSA or ECDH P-384 public key of a private key, and the ML-DSA-65 public key of a seed (R411, R412). -/
opaque ecPublic : List Byte → List Byte
opaque mlPublic : List Byte → List Byte

/-- ECDSA P-384 with SHA-384: sign under a private key with a nonce, verify under a public key (R412, R413). -/
opaque ecdsaSign : List Byte → List Byte → List Byte → List Byte
opaque ecdsaVerify : List Byte → List Byte → List Byte → Bool

/-- ML-DSA-65 in its pure form with an empty context (R413). -/
opaque mldsaSign : List Byte → List Byte → List Byte
opaque mldsaVerify : List Byte → List Byte → List Byte → Bool

/-- ECDH P-384: the 48-byte x-coordinate of a private and a public key (R418, R421). -/
opaque ecdh : List Byte → List Byte → List Byte

/-- The owner root whose slot hash is given made a dual signature over a statement: OWNER_BURN names the slot only, and SEC holds no more than its hash (R410, R414, log entry 20). -/
opaque rootSigned : List Byte → List Byte → List Byte → Bool

/-- A certificate chain passes the checks of R427 against the two identity keys. -/
opaque certsOk : List Byte → List Byte → List Byte → Bool

/-- The VCORE code Daxma chooses from the speed bin and the hottest die sensor (R447 gives no formula, log entry 22). -/
opaque vcoreCode : Nat → Nat → Nat

end Sys2Proof.Config
end

