-- ==== Sys2Proof/Machine/Transfer.lean ====
section
/-! DEFINITION. The transfer functions of R196 in fixed point: exact to well below the 2⁻²⁰ within which R196 leaves the code open. -/

namespace Sys2Proof.Machine.Transfer

/-- `n` bits of `log₂ (y / 2^96)` for `2^96 ≤ y < 2^97`, by repeated squaring. -/
def logBits : Nat → Nat → Nat → Nat
  | 0, _, acc => acc
  | n + 1, y, acc =>
    let z := (y * y) >>> 96
    if 2 ^ 97 ≤ z then logBits n (z >>> 1) (2 * acc + 1) else logBits n z (2 * acc)

/-- `log₂ (a / b)` in units of 2⁻⁵⁶, for positive `a` and `b`. -/
def log2Q (a b : Nat) : Int :=
  let q := (a <<< 160) / b
  let e := Nat.log2 q
  let y := if 96 ≤ e then q >>> (e - 96) else q <<< (96 - e)
  ((e : Int) - 160) * 2 ^ 56 + (logBits 56 y 0 : Nat)

/-- ln 2 in units of 2⁻⁹⁶. -/
def ln2 : Nat := 54916777467707473351141471128

/-- `e^(x / 2^96)` in units of 2⁻⁹⁶ by its series, `0 ≤ x < 2^96`. -/
def expSeries : Nat → Nat → Nat → Nat → Nat
  | 0, _, _, _ => 0
  | n + 1, k, term, x => term + expSeries n (k + 1) ((term * x) / ((k + 1) <<< 96)) x

/-- `2^(x / 2^56)` in units of 2⁻⁹⁶. -/
def exp2Q (x : Int) : Nat :=
  let i := x.fdiv (2 ^ 56)
  let f := (x - i * 2 ^ 56).toNat
  let m := expSeries 34 0 (2 ^ 96) ((f * ln2) >>> 56)
  if 0 ≤ i then m <<< i.toNat else m >>> (-i).toNat

/-- `(a / b) ^ (p / q)` in units of 2⁻⁹⁶; 0 for `a = 0`. -/
def powQ (a b p q : Nat) : Nat := if a = 0 then 0 else exp2Q (log2Q a b * p / q)

/-- E′ × 2³² for tone code `e` (E = e / 2²⁰), by transfer function (R196); 5 to 7 act as 0. -/
def value32 (tf e : Nat) : Nat :=
  let one := 2 ^ 20
  let down := fun (x : Int) => (x.fdiv (2 ^ 64)).toNat
  if tf = 1 then
    if e * 1000 < 18 * one then e * 4096 * 9 / 2
    else down (((1099 * powQ e one 45 100 : Nat) : Int) / 1000 - (99 * 2 ^ 96 : Nat) / 1000)
  else if tf = 2 then
    if e * 1000000000000000 < 18053968510807 * one then e * 4096 * 9 / 2
    else down (((109929682680944 * powQ e one 45 100 : Nat) : Int) / 100000000000000 -
      (9929682680944 * 2 ^ 96 : Nat) / 100000000000000)
  else if tf = 3 then
    let y := powQ e one 2610 16384
    let num := 3424 * 2 ^ 96 / 4096 + 2413 * y / 128
    let den := 2 ^ 96 + 2392 * y / 128
    powQ num den 2523 32 >>> 64
  else if tf = 4 then
    if e * 12 ≤ one then Nat.sqrt (3 * e * 2 ^ 44)
    else
      let num := 12 * e * 100000000 - 28466892 * one
      let l := log2Q num (100000000 * one)
      ((17883277 * l * (ln2 : Int) / 2 ^ 120 + 55991073 * 2 ^ 32) / 100000000).toNat
  else e * 4096

/-- The code E′ (R196): the nearest one, or either neighbour where the exact value lies within 2⁻²⁰ of a halfway point, widened by 2⁻²⁴ for this computation's own error; clamped to U0.16. -/
def code (tf e : Nat) : Nat :=
  let e := min e (2 ^ 20)
  let v := value32 tf e
  let fr := v % 65536
  let c := if 32768 - 4352 ≤ fr ∧ fr ≤ 32768 + 4352 then v / 65536 + b01 (Config.tfChoice tf e) else (v + 32768) / 65536
  min c 65535

end Sys2Proof.Machine.Transfer
end

