-- ==== Sys2Proof/Machine/Back.lean ====
section
/-! DEFINITION. The back end's arithmetic on one frame: matrices, decimation, scaling, tone, transfer, 3D LUT, quantisation, packing, the ACES form and the raw path (R186 to R205). -/

namespace Sys2Proof.Machine

/-- Settings common to the branches (R190). -/
structure BackCfg where
  wb : Nat → Nat
  ccm : Nat → Int

/-- The settings of one branch, from the frame's bank (R191 to R205). -/
structure BranchCfg where
  o : Nat
  full : Bool
  ycc : Nat
  tf : Nat
  tone : Bool
  parcelRows : Nat
  fmt : Nat
  cropX : Nat
  cropY : Nat
  cropW : Nat
  cropH : Nat
  outW : Nat
  outH : Nat
  stepX : Nat
  stepY : Nat
  phaseX : Int
  phaseY : Int
  kx : Nat
  ky : Nat
  mat : Nat → Int
  ofs : Nat → Int
  aces : Nat

/-- The tables of a branch; none for handle 0. -/
structure BranchTables where
  scaler : Option (Array Byte)
  tone : Option (Array Byte)
  lut : Option (Array Byte)

/-- A branch's image: its planes, each with its plane number and its rows as stored, and the stage-9 codes that output histograms count: Y′, R′, G′, B′, IR. -/
structure BranchOut where
  planes : List (Nat × List (List Byte))
  depth : Nat
  codes : List Img

namespace Back

/-- Clamp to S22.0. -/
def c22 (x : Int) : Int := clampI (-(2 ^ 21)) (2 ^ 21 - 1) x

/-- PIXFMT and DEPTH of a layout code (R200). -/
def pixfmt (fmt : Nat) : Nat := bits fmt 7 4
def depth (fmt : Nat) : Nat := [8, 10, 12, 16].getD (bits fmt 3 2) 8

/-- PIXFMT `p` is allowed for branch `o` (R200). -/
def allowed (o p : Nat) : Bool :=
  if p = 0 ∨ p = 1 ∨ p = 4 then true else if p = 2 ∨ p = 3 then decide (o < 2)
  else if p = 5 then decide (o = 1 ∨ o = 2) else if p = 6 ∨ p = 7 then decide (o = 2) else false

/-- The size limit of a branch (R205). -/
def sizeLimit (o : Nat) : Nat := if o = 0 then 8192 else if o = 1 then 32768 else 4096

/-- A branch's configuration passes R205 for a frame of `cols × rows`. -/
def cfgOk (b : BranchCfg) (cols rows : Nat) : Bool :=
  let p := pixfmt b.fmt
  allowed b.o p && decide (b.cropX + b.cropW ≤ cols) && decide (b.cropY + b.cropH ≤ rows) &&
  decide (b.outW ≤ b.cropW >>> b.kx) && decide (b.outH ≤ b.cropH >>> b.ky) &&
  !(decide (p = 2 ∨ p = 3) && decide (b.outW % 2 = 1)) && !(decide (p = 3) && decide (b.outH % 2 = 1)) &&
  decide (b.outW ≤ sizeLimit b.o) && decide (b.outH ≤ sizeLimit b.o)

/-! ### Stages 1 to 5 -/

/-- A 3 × 3 matrix in S4.12, rounded and clamped (R190). -/
def matrix (m : Nat → Int) (v : Nat → Int) (j : Nat) : Int :=
  c22 ((sumI ((List.range 3).map fun c => m (3 * j + c) * v c) + 2048).fdiv 4096)

/-- Stages 1 to 3 of one pixel (R190, R191); the products of stage 1 are clamped to its format S22.0 (R186). -/
def colour (k : BackCfg) (b : BranchCfg) (rgb : Nat → Int) (j : Nat) : Int :=
  let w := fun c => c22 ((rgb c * k.wb c + 2048).fdiv 4096)
  let x := fun i => matrix k.ccm w i
  c22 (matrix b.mat x j + b.ofs j)

/-- Box decimation (R192). -/
def decimate (b : BranchCfg) (m : Img) : Img :=
  if b.kx + b.ky = 0 then m
  else Img.make (b.cropH >>> b.ky) (b.cropW >>> b.kx) fun r c =>
    (sumI (((List.range (2 ^ b.ky)).map fun j => (List.range (2 ^ b.kx)).map fun i =>
      m.at_ (r * 2 ^ b.ky + j) (c * 2 ^ b.kx + i)).flatten) + (2 : Int) ^ (b.kx + b.ky - 1)).fdiv (2 ^ (b.kx + b.ky))

/-- Source position and phase of output index `x` (R193). -/
def position (step : Nat) (phase : Int) (x : Nat) : Int × Nat :=
  let step := clampN 0x1000000 0x3FFFFFF step
  let s : Int := (((2 * x + 1) * step : Nat) - 2 ^ 24 + 2 * phase).fdiv 2
  let i := s.fdiv (2 ^ 24)
  let phi := ((s % 2 ^ 24).toNat + 2 ^ 17) >>> 18
  if phi = 64 then (i + 1, 0) else (i, phi)

/-- Coefficient `t` of phase `φ`: horizontal of 8 taps, vertical of 4 (R194). -/
def tap (t : Option (Array Byte)) (horizontal : Bool) (phi k : Nat) : Int :=
  match t with
  | none =>
    let lo := if horizontal then 3 else 1
    if k = lo then ((16384 * (64 - phi) / 64 : Nat) : Int) else if k = lo + 1 then ((16384 * phi / 64 : Nat) : Int) else 0
  | some t => signed 16 (tabHalf t (if horizontal then phi * 8 + k else 512 + phi * 4 + k))

/-- The nearest index inside `0 … n - 1`. -/
def edge (n : Nat) (i : Int) : Nat := (clampI 0 (n - 1 : Nat) i).toNat

/-- The scaler: 8 horizontal taps, then 4 vertical ones, each rounded and clamped (R193). -/
def scale (b : BranchCfg) (t : Option (Array Byte)) (m : Img) : Img :=
  let w := b.cropW >>> b.kx
  let h := b.cropH >>> b.ky
  let mid := Img.make h b.outW fun r x =>
    let (i, phi) := position b.stepX b.phaseX x
    c22 ((sumI ((List.range 8).map fun k => tap t true phi k * m.at_ r (edge w (i - 3 + k))) + 8192).fdiv 16384)
  Img.make b.outH b.outW fun y x =>
    let (j, phi) := position b.stepY b.phaseY y
    c22 ((sumI ((List.range 4).map fun k => tap t false phi k * mid.at_ (edge h (j - 1 + k)) x) + 8192).fdiv 16384)

/-! ### Stages 6 to 8 -/

/-- The tone curve (R195): the shift applies to the interpolation term. -/
def tone (t : Option (Array Byte)) (x : Int) : Int :=
  match t with
  | none => clampI 0 0x100000 x
  | some t =>
    let x := (clampI 0 0x1FFFFF x).toNat
    let (e, base, lw) := if x < 1024 then (0, 0, 4) else
      let e := ilog2 x - 9
      (e, 2 ^ (9 + e), 3 + e)
    let j := 64 * e + (x - base) / 2 ^ lw
    let f := (x - base) % 2 ^ lw
    let k := fun i => ((tabWord t i % 2 ^ 21 : Nat) : Int)
    clampI 0 0x1FFFFF (k j + ((k (j + 1) - k j) * f + (2 : Int) ^ lw / 2).fdiv (2 ^ lw))

/-- Stage 6 on a colour triple (R195). -/
def toneRgb (t : Option (Array Byte)) (ratio : Bool) (v : Nat → Int) (j : Nat) : Int :=
  if !ratio then tone t (v j)
  else
    let c := fun i => max (v i) 0
    let m := max (c 0) (max (c 1) (c 2))
    if m = 0 then 0 else min 0x1FFFFF ((c j * tone t m + m / 2) / m)

/-- Stage 7. -/
def transfer (tf : Nat) (x : Int) : Nat := Transfer.code tf x.toNat

/-- Entry of the 3D LUT at grid point `p`, component `j` (R197). -/
def lutAt (t : Array Byte) (p : Nat × Nat × Nat) (j : Nat) : Int :=
  (bits (tabLong t ((p.1 * 65 + p.2.1) * 65 + p.2.2)) (16 * j + 15) (16 * j) : Nat)

/-- One step along axis `a`. -/
def stepAxis (p : Nat × Nat × Nat) (a : Nat) : Nat × Nat × Nat :=
  if a = 0 then (p.1 + 1, p.2) else if a = 1 then (p.1, p.2.1 + 1, p.2.2) else (p.1, p.2.1, p.2.2 + 1)

/-- The axes by descending fraction; ties keep the order R, G, B (R197). -/
def axes (f : Nat → Nat) : List Nat :=
  let ins := fun (l : List Nat) a => (l.takeWhile fun b => decide (f a ≤ f b)) ++ a :: (l.dropWhile fun b => decide (f a ≤ f b))
  [0, 1, 2].foldl ins []

/-- Stage 8: tetrahedral interpolation (R197). -/
def lut3d (t : Array Byte) (e : Nat → Nat) (j : Nat) : Nat :=
  let p0 := (e 0 >>> 10, e 1 >>> 10, e 2 >>> 10)
  let f := fun a => e a % 1024
  let ax := axes f
  let a1 := ax.getD 0 0
  let a2 := ax.getD 1 1
  let a3 := ax.getD 2 2
  let pA := stepAxis p0 a1
  let pB := stepAxis pA a2
  let c0 := lutAt t p0 j
  let cA := lutAt t pA j
  let cB := lutAt t pB j
  let c1 := lutAt t (stepAxis pB a3) j
  (clampI 0 0xFFFF (c0 + ((f a1 : Int) * (cA - c0) + f a2 * (cB - cA) + f a3 * (c1 - cB) + 512).fdiv 1024)).toNat

/-! ### Stages 9 and 10 -/

/-- Quantise `num / den` (R198), rounding half up: luma row, or chroma row. -/
def quantise (d : Nat) (full chroma : Bool) (num : Int) (den : Nat) : Nat :=
  let top : Int := 2 ^ d - 1
  let q : Int := 2 ^ (d - 8)
  (if full then
    clampI 0 top (roundHalfUp (num * top + (if chroma then (den : Int) * 2 ^ (d - 1) else 0)) den)
  else
    clampI q (top - q) (roundHalfUp ((if chroma then 224 * num + 128 * den else 219 * num + 16 * den) * q) den)).toNat

/-- Y′, Cb and Cr of a triple (R198), exactly; E′ is a 16-bit code over 2¹⁶. -/
def ycc (d : Nat) (full : Bool) (sel : Nat) (e : Nat → Nat) (j : Nat) : Nat :=
  let kr := if sel = 1 then 2627 else 2126
  let kb := if sel = 1 then 593 else 722
  let y : Int := ((kr * e 0 + (10000 - kr - kb) * e 1 + kb * e 2 : Nat) : Int)
  if j = 0 then quantise d full false y (10000 * 65536)
  else if j = 1 then quantise d full true (10000 * (e 2 : Int) - y) (2 * 65536 * (10000 - kb))
  else quantise d full true (10000 * (e 0 : Int) - y) (2 * 65536 * (10000 - kr))

/-- 4:2:2 chroma of a row (R199). -/
def sub422 (w : Nat) (row : Nat → Int) (x : Nat) : Int :=
  (row (2 * x - 1) + 2 * row (2 * x) + row (min (2 * x + 1) (w - 1)) + 2).fdiv 4

/-- A plane row as stored (R201). -/
def packRow (d : Nat) (pack : Bool) (l : List Int) : List Byte :=
  let b := if pack then d else if d = 8 then 8 else 16
  let n := ((l.foldr (fun x (acc : Nat) => x.toNat + acc <<< b) 0))
  let stride := ceilDiv (l.length * b) 512 * 64
  bytesLE stride n

/-- The binary16 code nearest to `x × gain / 2³⁶`, ties to even, limited to ±65,504 (R203). -/
def half (x : Int) (gain : Nat) : Nat :=
  let m := x.natAbs * gain
  let mag := if m = 0 then 0 else
    let e : Int := (ilog2 m : Int) - 36
    let u := max e (-14) - 10
    let den := 2 ^ (36 + u).toNat
    let q := m / den
    let r := m % den
    let q := if den < 2 * r ∨ (2 * r = den ∧ q % 2 = 1) then q + 1 else q
    min 0x7BFF (((u + 25).toNat <<< 10) + q - 1024)
  if x < 0 then 0x8000 + mag else mag

/-- One branch on the front end's four planes (R186 to R203). -/
def branch (k : BackCfg) (b : BranchCfg) (t : BranchTables) (rgbi : List Img) : BranchOut :=
  let src := fun i => rgbi.getD i #[]
  let n := if b.o = 2 then 4 else 3
  let p := (List.range n).map fun j =>
    scale b t.scaler (decimate b (Img.make b.cropH b.cropW fun r c =>
      let rgb := fun i => (src i).at_ (b.cropY + r) (b.cropX + c)
      if j = 3 then rgb 3 else colour k b rgb j))
  let px := fun j r c => (p.getD j #[]).at_ r c
  let w := b.outW
  let h := b.outH
  let pf := pixfmt b.fmt
  if pf = 5 then
    { planes := [(15, (List.range h).map fun r => packRow 16 false
        ((List.range w).map fun c => (List.range 3).map fun j => ((half (px j r c) b.aces : Nat) : Int)).flatten)],
      depth := 16, codes := [] }
  else
    let d := depth b.fmt
    let pack := bit b.fmt 1
    let e7 := (List.range 3).map fun j => Img.make h w fun r c => (transfer b.tf (toneRgb t.tone b.tone (fun i => px i r c) j) : Nat)
    let e8 := match t.lut with
      | none => e7
      | some l => if b.o = 2 then e7 else (List.range 3).map fun j => Img.make h w fun r c =>
          (lut3d l (fun i => ((e7.getD i #[]).at_ r c).toNat) j : Nat)
    let e := fun r c i => ((e8.getD i #[]).at_ r c).toNat
    let yc := (List.range 3).map fun j => Img.make h w fun r c => (ycc d b.full b.ycc (e r c) j : Nat)
    let rgb := (List.range 3).map fun j => Img.make h w fun r c => (quantise d b.full false (e r c j) 65536 : Nat)
    let ir := if n = 4 then Img.make h w fun r c =>
        (quantise d b.full false (transfer b.tf (tone t.tone (px 3 r c))) 65536 : Nat) else #[]
    let comp := fun (l : List Img) j r c => (l.getD j #[]).at_ r c
    let rows := fun (h : Nat) (f : Nat → List Int) => (List.range h).map fun r => packRow d pack (f r)
    let flat := fun (js : List (Nat → Nat → Int)) r => ((List.range w).map fun c => js.map fun f => f r c).flatten
    let c422 := fun j r x => sub422 w (fun c => comp yc j r c) x
    let chroma := fun (f : Nat → Nat → Nat → Int) r => ((List.range (w / 2)).map fun x => [f 1 r x, f 2 r x]).flatten
    let yRows := rows h fun r => flat [comp yc 0] r
    let planes :=
      if pf = 0 then [(15, rows h fun r => flat [comp rgb 0, comp rgb 1, comp rgb 2] r)]
      else if pf = 1 then [(0, yRows), (1, rows h fun r => flat [comp yc 1] r), (2, rows h fun r => flat [comp yc 2] r)]
      else if pf = 2 then [(0, yRows), (1, rows h fun r => chroma c422 r)]
      else if pf = 3 then [(0, yRows), (1, rows (h / 2) fun r =>
        chroma (fun j y x => (c422 j (2 * y) x + c422 j (2 * y + 1) x + 1).fdiv 2) r)]
      else if pf = 4 then [(0, yRows)]
      else if pf = 6 then [(15, rows h fun r => flat [comp rgb 0, comp rgb 1, comp rgb 2, fun r c => ir.at_ r c] r)]
      else [(0, rows h fun r => flat [fun r c => ir.at_ r c] r)]
    { planes := planes, depth := d, codes := [yc.getD 0 #[]] ++ rgb ++ [ir] }

/-- A row of the raw path (R204); a replaced row carries no merge marks. -/
def rawRow (cols : Nat) (f : FrontOut) (r : Nat) : List Byte :=
  let inv := f.invalid.getD r false
  padTo (ceilDiv (4 * cols) 64 * 64) ((List.range cols).map fun c =>
    bytesLE 4 (b01 inv <<< 26 + (f.satd.at_ r c).toNat <<< 25 + (f.single.at_ r c).toNat <<< 24 +
      (f.cls.at_ r c).toNat <<< 20 + (f.v.at_ r c).toNat)).flatten

end Back

end Sys2Proof.Machine
end

