-- ==== Sys2Proof/Machine/Regs.lean ====
section
/-! DEFINITION. The register maps of the spec as one table: every field's bits, access code (R8), class (R12) and reset value (R14), and for each field a named place `Reg.<REGISTER>_<FIELD>` taking the instance indices. -/

namespace Sys2Proof.Machine

/-- Access codes (R8). -/
inductive Acc where
  | rw | ro | w1c | w1s | wo | rc
  deriving DecidableEq, Repr

/-- Field classes (R12). -/
inductive Cls where
  | t | l | x | s
  deriving DecidableEq, Repr

/-- The place of a field in control space: its word's address and its bits. -/
structure Fld where
  addr : Nat
  hi : Nat
  lo : Nat
  deriving DecidableEq, Repr

/-- One row of a register map: bits, access code, class and reset value. -/
structure FieldDesc where
  hi : Nat
  lo : Nat
  acc : Acc
  cls : Cls
  rst : Nat
  deriving DecidableEq, Repr

/-- One register of a map, with the count and stride of each array level, outermost first. -/
structure RegDesc where
  base : Nat
  dims : List (Nat × Nat)
  fields : List FieldDesc
  deriving DecidableEq, Repr

namespace Reg

def SYS_ID_DEVICE : Fld := ⟨0x0, 31, 16⟩
def SYS_ID_VENDOR : Fld := ⟨0x0, 15, 0⟩
def SYS_STEP_MAJOR : Fld := ⟨0x4, 15, 8⟩
def SYS_STEP_MINOR : Fld := ⟨0x4, 7, 0⟩
def SYS_IDCODE_VERSION : Fld := ⟨0x8, 31, 28⟩
def SYS_IDCODE_PART : Fld := ⟨0x8, 27, 12⟩
def SYS_IDCODE_MFR : Fld := ⟨0x8, 11, 1⟩
def SYS_IDCODE_ONE : Fld := ⟨0x8, 0, 0⟩
def SYS_CAPS_PILOTS : Fld := ⟨0xC, 31, 24⟩
def SYS_CAPS_HEADS : Fld := ⟨0xC, 23, 20⟩
def SYS_CAPS_DECODERS : Fld := ⟨0xC, 15, 12⟩
def SYS_CAPS_ENCODERS : Fld := ⟨0xC, 11, 8⟩
def SYS_CAPS_PIPES : Fld := ⟨0xC, 7, 4⟩
def SYS_CAPS_PORTS : Fld := ⟨0xC, 3, 0⟩
def SYS_ARRAY_ID_ID : Fld := ⟨0x10, 10, 0⟩
def SYS_SPEED_BIN : Fld := ⟨0x14, 3, 0⟩
def SYS_SUBSYS_ID : Fld := ⟨0x18, 31, 16⟩
def SYS_SUBSYS_VENDOR : Fld := ⟨0x18, 15, 0⟩
def SYS_DIE_ID_VALUE (i : Nat) : Fld := ⟨0x20 + 0x4 * i, 31, 0⟩
def SYS_OWN_STATUS_HANDOVER : Fld := ⟨0x100, 20, 16⟩
def SYS_OWN_STATUS_WAITERS : Fld := ⟨0x100, 15, 12⟩
def SYS_OWN_STATUS_OWNER : Fld := ⟨0x100, 4, 0⟩
def SYS_OWN_REQ_OP : Fld := ⟨0x104, 31, 28⟩
def SYS_OWN_REQ_TARGET : Fld := ⟨0x104, 12, 8⟩
def SYS_OWN_REQ_SESSION : Fld := ⟨0x104, 7, 0⟩
def SYS_OWN_RESULT_RESULT : Fld := ⟨0x108, 3, 0⟩
def SYS_OWN_CFG_WAIT_MS : Fld := ⟨0x10C, 31, 16⟩
def SYS_OWN_CFG_LEASE_MS : Fld := ⟨0x10C, 15, 0⟩
def SYS_OWN_LEFT_MS : Fld := ⟨0x110, 15, 0⟩
def SYS_REJECT_CNT_COUNT : Fld := ⟨0x120, 31, 0⟩
def SYS_REJECT_LAST_MASTER : Fld := ⟨0x124, 31, 27⟩
def SYS_REJECT_LAST_LOAD : Fld := ⟨0x124, 26, 26⟩
def SYS_REJECT_LAST_WORD : Fld := ⟨0x124, 25, 2⟩
def SYS_EVENT_TXN_FAIL : Fld := ⟨0x130, 3, 3⟩
def SYS_EVENT_LAPSE : Fld := ⟨0x130, 2, 2⟩
def SYS_EVENT_OWNER_CHANGE : Fld := ⟨0x130, 1, 1⟩
def SYS_EVENT_REJECT : Fld := ⟨0x130, 0, 0⟩
def SYS_EVENT_EN_EN : Fld := ⟨0x134, 3, 0⟩
def SYS_TXN_CTRL_OP : Fld := ⟨0x200, 31, 28⟩
def SYS_TXN_CTRL_OR_LATER : Fld := ⟨0x200, 1, 1⟩
def SYS_TXN_CTRL_NEXT : Fld := ⟨0x200, 0, 0⟩
def SYS_TXN_TARGET_LO_TIDE_LO : Fld := ⟨0x204, 31, 0⟩
def SYS_TXN_TARGET_HI_TIDE_HI : Fld := ⟨0x208, 15, 0⟩
def SYS_TXN_STATUS_OPEN : Fld := ⟨0x20C, 31, 31⟩
def SYS_TXN_STATUS_RESULT : Fld := ⟨0x20C, 30, 27⟩
def SYS_TXN_STATUS_SLOT : Fld := ⟨0x20C, 26, 24⟩
def SYS_TXN_STATUS_WRITES : Fld := ⟨0x20C, 12, 0⟩
def SYS_TXN_SEQ_SEQ : Fld := ⟨0x210, 31, 0⟩
def SYS_TXN_TICKET_TICKET : Fld := ⟨0x214, 31, 0⟩
def SYS_TXN_DEADLINE_US : Fld := ⟨0x218, 12, 0⟩
def SYS_TXN_LANDQ_COUNT : Fld := ⟨0x21C, 4, 0⟩
def SYS_TXN_SLOT_STATE (i : Nat) : Fld := ⟨0x280 + 0x4 * i, 31, 30⟩
def SYS_TXN_SLOT_HOLDER (i : Nat) : Fld := ⟨0x280 + 0x4 * i, 20, 16⟩
def SYS_TXN_SLOT_WRITES (i : Nat) : Fld := ⟨0x280 + 0x4 * i, 12, 0⟩
def PWR_CTRL_OP : Fld := ⟨0x10000, 31, 28⟩
def PWR_CTRL_KEY : Fld := ⟨0x10000, 15, 0⟩
def PWR_STATUS_STATE : Fld := ⟨0x10004, 31, 30⟩
def PWR_STATUS_REF_OK : Fld := ⟨0x10004, 29, 29⟩
def PWR_STATUS_THERM : Fld := ⟨0x10004, 25, 24⟩
def PWR_STATUS_VID : Fld := ⟨0x10004, 6, 0⟩
def PWR_RESET_CAUSE_WAKE_GPIO : Fld := ⟨0x10008, 7, 7⟩
def PWR_RESET_CAUSE_WAKE_TWB : Fld := ⟨0x10008, 6, 6⟩
def PWR_RESET_CAUSE_THERMAL : Fld := ⟨0x10008, 5, 5⟩
def PWR_RESET_CAUSE_BROWNOUT : Fld := ⟨0x10008, 4, 4⟩
def PWR_RESET_CAUSE_WDOG : Fld := ⟨0x10008, 3, 3⟩
def PWR_RESET_CAUSE_WARM_CMD : Fld := ⟨0x10008, 2, 2⟩
def PWR_RESET_CAUSE_PIN : Fld := ⟨0x10008, 1, 1⟩
def PWR_RESET_CAUSE_POWER_ON : Fld := ⟨0x10008, 0, 0⟩
def PWR_BLOCK_RESET_UNIT : Fld := ⟨0x1000C, 5, 0⟩
def PWR_WDOG_EN : Fld := ⟨0x10010, 31, 31⟩
def PWR_WDOG_ACTION : Fld := ⟨0x10010, 30, 30⟩
def PWR_WDOG_MS : Fld := ⟨0x10010, 15, 0⟩
def PWR_WDOG_KICK_KICK : Fld := ⟨0x10014, 15, 0⟩
def PWR_WAKE_SRC_TWB : Fld := ⟨0x10018, 7, 0⟩
def PWR_WAKE_GPIO_MASK (i : Nat) : Fld := ⟨0x10020 + 0x4 * i, 31, 0⟩
def PWR_GATE_EN_LO : Fld := ⟨0x10040, 31, 0⟩
def PWR_GATE_EN_HI : Fld := ⟨0x10044, 7, 0⟩
def PWR_DOMAIN_ON_LO : Fld := ⟨0x10048, 31, 0⟩
def PWR_DOMAIN_ON_HI : Fld := ⟨0x1004C, 7, 0⟩
def PWR_DIDT_SUM : Fld := ⟨0x10050, 31, 16⟩
def PWR_DIDT_START : Fld := ⟨0x10050, 9, 0⟩
def PWR_VCORE_MODE : Fld := ⟨0x10054, 31, 31⟩
def PWR_VCORE_FIXED : Fld := ⟨0x10054, 6, 0⟩
def PWR_THERM_CFG_SHUTDOWN : Fld := ⟨0x10060, 31, 24⟩
def PWR_THERM_CFG_THROTTLE : Fld := ⟨0x10060, 23, 16⟩
def PWR_THERM_CFG_WARN : Fld := ⟨0x10060, 15, 8⟩
def PWR_THERM_CFG_LZE_CORES : Fld := ⟨0x10060, 4, 0⟩
def PWR_THERM_STACK : Fld := ⟨0x10064, 31, 16⟩
def PWR_THERM_DIE : Fld := ⟨0x10064, 15, 0⟩
def PWR_PROTECT_RETRY_MS : Fld := ⟨0x10068, 15, 0⟩
def PWR_RAIL_MV (i : Nat) : Fld := ⟨0x10080 + 0x4 * i, 15, 0⟩
def PWR_PORT_FAULT_0_PCIE : Fld := ⟨0x100C0, 31, 0⟩
def PWR_PORT_FAULT_1_VF : Fld := ⟨0x100C4, 31, 24⟩
def PWR_PORT_FAULT_1_ETH : Fld := ⟨0x100C4, 23, 16⟩
def PWR_PORT_FAULT_1_SDI_OPEN : Fld := ⟨0x100C4, 15, 8⟩
def PWR_PORT_FAULT_1_SDI_SHORT : Fld := ⟨0x100C4, 7, 0⟩
def PWR_AUD_FAULT_PORT : Fld := ⟨0x100C8, 15, 0⟩
def PWR_EVENT_WRITE_REJECT : Fld := ⟨0x100D0, 5, 5⟩
def PWR_EVENT_REF_LOSS : Fld := ⟨0x100D0, 4, 4⟩
def PWR_EVENT_PORT_FAULT : Fld := ⟨0x100D0, 3, 3⟩
def PWR_EVENT_THERM : Fld := ⟨0x100D0, 2, 2⟩
def PWR_EVENT_DIDT : Fld := ⟨0x100D0, 1, 1⟩
def PWR_EVENT_WAKE : Fld := ⟨0x100D0, 0, 0⟩
def PWR_EVENT_EN_EN : Fld := ⟨0x100D4, 5, 0⟩
def TIME_CTRL_FAILOVER : Fld := ⟨0x20000, 2, 2⟩
def TIME_CTRL_DOM_SEL : Fld := ⟨0x20000, 1, 1⟩
def TIME_CTRL_RUN : Fld := ⟨0x20000, 0, 0⟩
def TIME_STATUS_SLEWING : Fld := ⟨0x20004, 5, 5⟩
def TIME_STATUS_SEL : Fld := ⟨0x20004, 4, 4⟩
def TIME_STATUS_STATE_B : Fld := ⟨0x20004, 3, 2⟩
def TIME_STATUS_STATE_A : Fld := ⟨0x20004, 1, 0⟩
def TIME_EVENT_WRITE_REJECT : Fld := ⟨0x20008, 7, 7⟩
def TIME_EVENT_CLKSRC : Fld := ⟨0x20008, 6, 6⟩
def TIME_EVENT_HOLD_B : Fld := ⟨0x20008, 5, 5⟩
def TIME_EVENT_HOLD_A : Fld := ⟨0x20008, 4, 4⟩
def TIME_EVENT_STEP_B : Fld := ⟨0x20008, 3, 3⟩
def TIME_EVENT_STEP_A : Fld := ⟨0x20008, 2, 2⟩
def TIME_EVENT_WRAP_B : Fld := ⟨0x20008, 1, 1⟩
def TIME_EVENT_WRAP_A : Fld := ⟨0x20008, 0, 0⟩
def TIME_EVENT_EN_EN : Fld := ⟨0x2000C, 7, 0⟩
def TIME_SLEW_RATE : Fld := ⟨0x20010, 9, 0⟩
def TIME_CLK_SRC : Fld := ⟨0x20014, 25, 24⟩
def TIME_CLK_TOL : Fld := ⟨0x20014, 9, 0⟩
def TIME_ACC_LO_NS_LO : Fld := ⟨0x20018, 31, 0⟩
def TIME_ACC_HI_NS_HI : Fld := ⟨0x2001C, 16, 0⟩
def TIDE_PERIOD_FLO_FRAC_LO : Fld := ⟨0x20020, 31, 0⟩
def TIDE_PERIOD_FHI_FRAC_HI : Fld := ⟨0x20024, 15, 0⟩
def TIDE_PERIOD_NS_NS : Fld := ⟨0x20028, 30, 0⟩
def TIDE_ANCHOR_LO_LO : Fld := ⟨0x20030, 31, 0⟩
def TIDE_ANCHOR_HI_HI : Fld := ⟨0x20034, 15, 0⟩
def TIDE_BASE_LO_LO : Fld := ⟨0x20038, 31, 0⟩
def TIDE_BASE_HI_TOP : Fld := ⟨0x2003C, 31, 16⟩
def TIDE_BASE_HI_HI : Fld := ⟨0x2003C, 15, 0⟩
def TIDE_NOW_LO_LO : Fld := ⟨0x20040, 31, 0⟩
def TIDE_NOW_HI_HI : Fld := ⟨0x20044, 15, 0⟩
def DOM_NS (i : Nat) : Fld := ⟨0x20100 + 0x80 * i, 31, 0⟩
def DOM_ERA (i : Nat) : Fld := ⟨0x20104 + 0x80 * i, 31, 16⟩
def DOM_EPOCH (i : Nat) : Fld := ⟨0x20104 + 0x80 * i, 15, 0⟩
def DOM_INC_LO (i : Nat) : Fld := ⟨0x20108 + 0x80 * i, 31, 0⟩
def DOM_INC_HI (i : Nat) : Fld := ⟨0x2010C + 0x80 * i, 10, 0⟩
def DOM_ADJ (i : Nat) : Fld := ⟨0x20110 + 0x80 * i, 31, 0⟩
def DOM_KI (i : Nat) : Fld := ⟨0x20114 + 0x80 * i, 31, 16⟩
def DOM_KP (i : Nat) : Fld := ⟨0x20114 + 0x80 * i, 15, 0⟩
def DOM_LOCK_COUNT (i : Nat) : Fld := ⟨0x20118 + 0x80 * i, 31, 24⟩
def DOM_GLITCH_NS (i : Nat) : Fld := ⟨0x20118 + 0x80 * i, 23, 12⟩
def DOM_MAX_ADJ (i : Nat) : Fld := ⟨0x20118 + 0x80 * i, 11, 0⟩
def DOM_STEP_NS (i : Nat) : Fld := ⟨0x2011C + 0x80 * i, 31, 0⟩
def DOM_RATE_PPB (i : Nat) : Fld := ⟨0x20120 + 0x80 * i, 31, 0⟩
def DOM_OFFSET (i : Nat) : Fld := ⟨0x20124 + 0x80 * i, 31, 0⟩
def DOM_STEP (i : Nat) : Fld := ⟨0x20128 + 0x80 * i, 31, 0⟩
def PTP_EN (i : Nat) : Fld := ⟨0x20200 + 0x80 * i, 31, 31⟩
def PTP_PORT (i : Nat) : Fld := ⟨0x20200 + 0x80 * i, 30, 30⟩
def PTP_ROLE (i : Nat) : Fld := ⟨0x20200 + 0x80 * i, 29, 28⟩
def PTP_TWO_STEP (i : Nat) : Fld := ⟨0x20200 + 0x80 * i, 27, 27⟩
def PTP_P2P (i : Nat) : Fld := ⟨0x20200 + 0x80 * i, 26, 26⟩
def PTP_TRANSPORT (i : Nat) : Fld := ⟨0x20200 + 0x80 * i, 25, 24⟩
def PTP_PROFILE (i : Nat) : Fld := ⟨0x20200 + 0x80 * i, 23, 23⟩
def PTP_DOMAIN (i : Nat) : Fld := ⟨0x20200 + 0x80 * i, 7, 0⟩
def PTP_PRIO1 (i : Nat) : Fld := ⟨0x20204 + 0x80 * i, 31, 24⟩
def PTP_PRIO2 (i : Nat) : Fld := ⟨0x20204 + 0x80 * i, 23, 16⟩
def PTP_LOG_SYNC (i : Nat) : Fld := ⟨0x20204 + 0x80 * i, 15, 12⟩
def PTP_LOG_ANN (i : Nat) : Fld := ⟨0x20204 + 0x80 * i, 11, 8⟩
def PTP_LOG_DREQ (i : Nat) : Fld := ⟨0x20204 + 0x80 * i, 7, 4⟩
def PTP_ANN_TO (i : Nat) : Fld := ⟨0x20204 + 0x80 * i, 3, 0⟩
def PTP_PORT_STATE (i : Nat) : Fld := ⟨0x20208 + 0x80 * i, 3, 0⟩
def PTP_PARENT_LO (i : Nat) : Fld := ⟨0x2020C + 0x80 * i, 31, 0⟩
def PTP_PARENT_HI (i : Nat) : Fld := ⟨0x20210 + 0x80 * i, 31, 0⟩
def PTP_GLITCH (i : Nat) : Fld := ⟨0x20214 + 0x80 * i, 31, 16⟩
def PTP_IGNORED (i : Nat) : Fld := ⟨0x20214 + 0x80 * i, 15, 0⟩
def ETS_HEAD_LO (i : Nat) : Fld := ⟨0x20300 + 0x20 * i, 31, 0⟩
def ETS_HEAD_HI (i : Nat) : Fld := ⟨0x20304 + 0x20 * i, 31, 0⟩
def ETS_DROPPED (i : Nat) : Fld := ⟨0x20308 + 0x20 * i, 31, 16⟩
def ETS_COUNT (i : Nat) : Fld := ⟨0x20308 + 0x20 * i, 4, 0⟩
def ETS_POP (i : Nat) : Fld := ⟨0x2030C + 0x20 * i, 0, 0⟩
def PILOT_CTRL_OP (i : Nat) : Fld := ⟨0x30000 + 0x1000 * i, 31, 28⟩
def PILOT_STATUS_STATE (i : Nat) : Fld := ⟨0x30004 + 0x1000 * i, 31, 29⟩
def PILOT_STATUS_HANDLER (i : Nat) : Fld := ⟨0x30004 + 0x1000 * i, 28, 28⟩
def PILOT_STATUS_OVR (i : Nat) : Fld := ⟨0x30004 + 0x1000 * i, 27, 27⟩
def PILOT_STATUS_CAUSE (i : Nat) : Fld := ⟨0x30004 + 0x1000 * i, 3, 0⟩
def PILOT_LOAD_BUSY (i : Nat) : Fld := ⟨0x30008 + 0x1000 * i, 31, 31⟩
def PILOT_LOAD_RESULT (i : Nat) : Fld := ⟨0x30008 + 0x1000 * i, 30, 27⟩
def PILOT_LOAD_HANDLE (i : Nat) : Fld := ⟨0x30008 + 0x1000 * i, 15, 0⟩
def PILOT_PC_VALUE (i : Nat) : Fld := ⟨0x3000C + 0x1000 * i, 31, 0⟩
def PILOT_EPC_VALUE (i : Nat) : Fld := ⟨0x30010 + 0x1000 * i, 31, 0⟩
def PILOT_EVAL_VALUE (i : Nat) : Fld := ⟨0x30014 + 0x1000 * i, 31, 0⟩
def PILOT_RETIRED_LO_COUNT (i : Nat) : Fld := ⟨0x30018 + 0x1000 * i, 31, 0⟩
def PILOT_RETIRED_HI_COUNT (i : Nat) : Fld := ⟨0x3001C + 0x1000 * i, 31, 0⟩
def PILOT_BUILD_ID_LO_ID (i : Nat) : Fld := ⟨0x30020 + 0x1000 * i, 31, 0⟩
def PILOT_BUILD_ID_HI_ID (i : Nat) : Fld := ⟨0x30024 + 0x1000 * i, 31, 0⟩
def PILOT_DKT_SUB_MASK (i : Nat) : Fld := ⟨0x30030 + 0x1000 * i, 31, 0⟩
def PILOT_DKT_STATUS_LOST (i : Nat) : Fld := ⟨0x30034 + 0x1000 * i, 31, 16⟩
def PILOT_DKT_STATUS_QUEUED (i : Nat) : Fld := ⟨0x30034 + 0x1000 * i, 8, 0⟩
def PILOT_BANKS_MASK (i : Nat) : Fld := ⟨0x30038 + 0x1000 * i, 15, 0⟩
def PILOT_EVENT_WRITE_REJECT (i : Nat) : Fld := ⟨0x3003C + 0x1000 * i, 0, 0⟩
def PILOT_MAIL_VALUE (i j : Nat) : Fld := ⟨0x30040 + 0x1000 * i + 0x4 * j, 31, 0⟩
def PILOT_EVENT_EN_EN (i : Nat) : Fld := ⟨0x30050 + 0x1000 * i, 0, 0⟩
def SEC_CMD_OP : Fld := ⟨0x40000, 31, 28⟩
def SEC_CMD_SLOT : Fld := ⟨0x40000, 23, 16⟩
def SEC_CMD_HANDLE : Fld := ⟨0x40000, 15, 0⟩
def SEC_CMD_OFS_OFS : Fld := ⟨0x40004, 31, 0⟩
def SEC_CMD_ARG_ARG : Fld := ⟨0x40008, 31, 0⟩
def SEC_CMD_KEY_KEY : Fld := ⟨0x4000C, 31, 0⟩
def SEC_CMD_STATUS_BUSY : Fld := ⟨0x40010, 31, 31⟩
def SEC_CMD_STATUS_RESULT : Fld := ⟨0x40010, 3, 0⟩
def SEC_STATUS_READY : Fld := ⟨0x40014, 31, 31⟩
def SEC_STATUS_FAIL : Fld := ⟨0x40014, 30, 30⟩
def SEC_STATUS_CERT_OK : Fld := ⟨0x40014, 29, 29⟩
def SEC_STATUS_POLICY : Fld := ⟨0x40014, 22, 16⟩
def SEC_STATUS_REVOKED : Fld := ⟨0x40014, 7, 4⟩
def SEC_STATUS_OWNERS : Fld := ⟨0x40014, 3, 0⟩
def SEC_EVENT_CMD_DONE : Fld := ⟨0x40020, 4, 4⟩
def SEC_EVENT_BAD_TAG : Fld := ⟨0x40020, 3, 3⟩
def SEC_EVENT_SKIP : Fld := ⟨0x40020, 2, 2⟩
def SEC_EVENT_LOST : Fld := ⟨0x40020, 1, 1⟩
def SEC_EVENT_AUTH : Fld := ⟨0x40020, 0, 0⟩
def SEC_EVENT_EN_EN : Fld := ⟨0x40024, 4, 0⟩
def SEC_CNT_AUTH : Fld := ⟨0x40028, 31, 16⟩
def SEC_CNT_LOST : Fld := ⟨0x40028, 15, 0⟩
def SEC_PUSH_HANDLE : Fld := ⟨0x40030, 15, 0⟩
def SEC_OUT_STATUS_COUNT : Fld := ⟨0x40034, 3, 0⟩
def SEC_CRED_MIN_SERIAL : Fld := ⟨0x40038, 31, 0⟩
def SEC_ARRAY_KEY_ID : Fld := ⟨0x4003C, 31, 0⟩
def SEC_ID_LO : Fld := ⟨0x40040, 31, 0⟩
def SEC_ID_HI : Fld := ⟨0x40044, 31, 0⟩
def SEC_DOM_EN (i : Nat) : Fld := ⟨0x40100 + 0x10 * i, 31, 31⟩
def SEC_DOM_SIGN_EVERY (i : Nat) : Fld := ⟨0x40100 + 0x10 * i, 15, 0⟩
def SEC_DOM_TIDE_LO (i : Nat) : Fld := ⟨0x40104 + 0x10 * i, 31, 0⟩
def SEC_DOM_TIDE_HI (i : Nat) : Fld := ⟨0x40108 + 0x10 * i, 15, 0⟩
def SEC_DOM_SKIPPED (i : Nat) : Fld := ⟨0x4010C + 0x10 * i, 31, 16⟩
def SEC_DOM_LATE (i : Nat) : Fld := ⟨0x4010C + 0x10 * i, 15, 0⟩
def SEC_SESS_STATE (i : Nat) : Fld := ⟨0x40300 + 0x4 * i, 31, 30⟩
def SEC_SESS_MASTER (i : Nat) : Fld := ⟨0x40300 + 0x4 * i, 28, 24⟩
def SEC_SESS_SLOT (i : Nat) : Fld := ⟨0x40300 + 0x4 * i, 21, 20⟩
def SEC_SESS_CLAIM (i : Nat) : Fld := ⟨0x40300 + 0x4 * i, 16, 16⟩
def SEC_CMD_DATA_DATA (i : Nat) : Fld := ⟨0x40400 + 0x4 * i, 31, 0⟩
def LOG_CTRL_OP : Fld := ⟨0x50000, 31, 28⟩
def LOG_STATUS_STATE : Fld := ⟨0x50004, 31, 29⟩
def LOG_STATUS_SEGMENT : Fld := ⟨0x50004, 27, 0⟩
def LOG_CFG_RING : Fld := ⟨0x50008, 31, 31⟩
def LOG_CFG_TRACE : Fld := ⟨0x50008, 30, 30⟩
def LOG_CFG_EFFORT : Fld := ⟨0x50008, 2, 0⟩
def LOG_HASH_DOMAINS_MASK : Fld := ⟨0x5000C, 31, 1⟩
def LOG_NETRX_MASK : Fld := ⟨0x50010, 31, 0⟩
def LOG_STAGE_HANDLE : Fld := ⟨0x50014, 15, 0⟩
def LOG_RING_HANDLE : Fld := ⟨0x50018, 15, 0⟩
def LOG_OUT_PUSH_HANDLE : Fld := ⟨0x5001C, 15, 0⟩
def LOG_IN_PUSH_HANDLE : Fld := ⟨0x50020, 15, 0⟩
def LOG_FEED_MAP (i : Nat) : Fld := ⟨0x50030 + 0x4 * i, 31, 16⟩
def LOG_FEED_RAW (i : Nat) : Fld := ⟨0x50030 + 0x4 * i, 15, 0⟩
def LOG_QUEUE_LOST : Fld := ⟨0x50040, 31, 24⟩
def LOG_QUEUE_IN : Fld := ⟨0x50040, 11, 8⟩
def LOG_QUEUE_OUT : Fld := ⟨0x50040, 3, 0⟩
def LOG_EVENT_WRITE_REJECT : Fld := ⟨0x50044, 4, 4⟩
def LOG_EVENT_ENDED : Fld := ⟨0x50044, 3, 3⟩
def LOG_EVENT_DIVERGED : Fld := ⟨0x50044, 2, 2⟩
def LOG_EVENT_LOST : Fld := ⟨0x50044, 1, 1⟩
def LOG_EVENT_SEG_DONE : Fld := ⟨0x50044, 0, 0⟩
def LOG_EVENT_EN_EN : Fld := ⟨0x50048, 4, 0⟩
def LOG_CNT_LOST_SEGMENTS : Fld := ⟨0x5004C, 31, 16⟩
def LOG_CNT_LOST_RECORDS : Fld := ⟨0x5004C, 15, 0⟩
def LOG_DIV_TIDE_LO : Fld := ⟨0x50050, 31, 0⟩
def LOG_DIV_TIDE_HI : Fld := ⟨0x50054, 15, 0⟩
def LOG_DIV_KIND : Fld := ⟨0x50058, 31, 28⟩
def LOG_DIV_SRC : Fld := ⟨0x50058, 27, 20⟩
def LOG_DIV_STREAM : Fld := ⟨0x50058, 11, 0⟩
def LOG_DIV_KEY_PKIND : Fld := ⟨0x5005C, 31, 28⟩
def LOG_DIV_KEY_PLANE : Fld := ⟨0x5005C, 27, 24⟩
def LOG_DIV_KEY_STRATUM : Fld := ⟨0x5005C, 21, 20⟩
def LOG_DIV_KEY_FIRST_ROW : Fld := ⟨0x5005C, 15, 0⟩
def LOG_DIV_CNT_COUNT : Fld := ⟨0x50060, 31, 0⟩
def LOG_DIV_UNMATCHED_MISSING : Fld := ⟨0x50064, 31, 16⟩
def LOG_DIV_UNMATCHED_EXTRA : Fld := ⟨0x50064, 15, 0⟩
def LOG_REPLAY_CNT_LIVE_DKT : Fld := ⟨0x50068, 31, 0⟩
def FAB_EVENT_ABANDON : Fld := ⟨0x60000, 3, 3⟩
def FAB_EVENT_OVERRUN : Fld := ⟨0x60000, 2, 2⟩
def FAB_EVENT_BERTH_FAULT : Fld := ⟨0x60000, 1, 1⟩
def FAB_EVENT_EARLY_FREE : Fld := ⟨0x60000, 0, 0⟩
def FAB_EVENT_EN_EN : Fld := ⟨0x60004, 3, 0⟩
def FAB_ARB_STARVE_LIMIT : Fld := ⟨0x60010, 9, 0⟩
def FAB_BERTH_CMD_BUSY : Fld := ⟨0x60100, 31, 31⟩
def FAB_BERTH_CMD_RESULT : Fld := ⟨0x60100, 30, 27⟩
def FAB_BERTH_CMD_OP : Fld := ⟨0x60100, 19, 16⟩
def FAB_BERTH_CMD_HANDLE : Fld := ⟨0x60100, 15, 0⟩
def FAB_BERTH_BASE_LO_BASE_LO : Fld := ⟨0x60104, 31, 12⟩
def FAB_BERTH_BASE_HI_BASE_HI : Fld := ⟨0x60108, 5, 0⟩
def FAB_BERTH_SIZE_PAGES : Fld := ⟨0x6010C, 25, 0⟩
def FAB_BERTH_ATTR_REFCOUNT : Fld := ⟨0x60110, 31, 24⟩
def FAB_BERTH_ATTR_STATE : Fld := ⟨0x60110, 23, 22⟩
def FAB_BERTH_ATTR_OWNER : Fld := ⟨0x60110, 21, 16⟩
def FAB_BERTH_ATTR_FORMAT : Fld := ⟨0x60110, 15, 0⟩
def FAB_EARLY_FREE_CNT_COUNT : Fld := ⟨0x60120, 31, 0⟩
def FAB_EARLY_FREE_LAST_HANDLE : Fld := ⟨0x60124, 15, 0⟩
def FAB_BERTH_FAULT_UNIT : Fld := ⟨0x60128, 31, 26⟩
def FAB_BERTH_FAULT_CAUSE : Fld := ⟨0x60128, 18, 16⟩
def FAB_BERTH_FAULT_HANDLE : Fld := ⟨0x60128, 15, 0⟩
def FAB_BERTH_FAULT_CNT_COUNT : Fld := ⟨0x6012C, 31, 0⟩
def FAB_BERTH_MAN_WORD (i : Nat) : Fld := ⟨0x60140 + 0x4 * i, 31, 0⟩
def FAB_AP_HANDLE_HANDLE : Fld := ⟨0x60200, 15, 0⟩
def FAB_AP_BASE_LO_BASE_LO : Fld := ⟨0x60204, 31, 12⟩
def FAB_AP_BASE_HI_BASE_HI : Fld := ⟨0x60208, 5, 0⟩
def FAB_AP_STATUS_FAULT : Fld := ⟨0x6020C, 1, 1⟩
def FAB_AP_STATUS_FAIL : Fld := ⟨0x6020C, 0, 0⟩
def FAB_UNIT_CFG_OFFSET (i : Nat) : Fld := ⟨0x61000 + 0x20 * i, 18, 16⟩
def FAB_UNIT_CFG_STAGGER (i : Nat) : Fld := ⟨0x61000 + 0x20 * i, 9, 0⟩
def FAB_UNIT_OVR_ABANDON_CNT (i : Nat) : Fld := ⟨0x61004 + 0x20 * i, 31, 16⟩
def FAB_UNIT_OVR_OVR_CNT (i : Nat) : Fld := ⟨0x61004 + 0x20 * i, 15, 0⟩
def FAB_UNIT_OVR_TIDE_LO_TIDE_LO (i : Nat) : Fld := ⟨0x61008 + 0x20 * i, 31, 0⟩
def FAB_UNIT_OVR_TIDE_HI_TIDE_HI (i : Nat) : Fld := ⟨0x6100C + 0x20 * i, 15, 0⟩
def FAB_AP_DATA_DATA (i : Nat) : Fld := ⟨0x68000 + 0x4 * i, 31, 0⟩
def SRX_CTRL_OP (i : Nat) : Fld := ⟨0x80000 + 0x4000 * i, 31, 28⟩
def SRX_CTRL_CODE (i : Nat) : Fld := ⟨0x80000 + 0x4000 * i, 27, 27⟩
def SRX_CTRL_REMAP_STEP (i : Nat) : Fld := ⟨0x80000 + 0x4000 * i, 26, 24⟩
def SRX_CTRL_TAG (i : Nat) : Fld := ⟨0x80000 + 0x4000 * i, 23, 16⟩
def SRX_CTRL_RATE (i : Nat) : Fld := ⟨0x80000 + 0x4000 * i, 13, 0⟩
def SRX_STATUS_STATE (i : Nat) : Fld := ⟨0x80004 + 0x4000 * i, 31, 30⟩
def SRX_STATUS_DEGRADED (i : Nat) : Fld := ⟨0x80004 + 0x4000 * i, 29, 29⟩
def SRX_STATUS_READY (i : Nat) : Fld := ⟨0x80004 + 0x4000 * i, 22, 16⟩
def SRX_STATUS_USE (i : Nat) : Fld := ⟨0x80004 + 0x4000 * i, 14, 8⟩
def SRX_STATUS_FAULTS (i : Nat) : Fld := ⟨0x80004 + 0x4000 * i, 6, 0⟩
def SRX_FRAME_PACKED (i : Nat) : Fld := ⟨0x80008 + 0x4000 * i, 18, 18⟩
def SRX_FRAME_STRATA_M1 (i : Nat) : Fld := ⟨0x80008 + 0x4000 * i, 17, 16⟩
def SRX_FRAME_ROWS_M1 (i : Nat) : Fld := ⟨0x80008 + 0x4000 * i, 14, 0⟩
def SRX_ROW_PARCEL_ROWS (i : Nat) : Fld := ⟨0x8000C + 0x4000 * i, 20, 16⟩
def SRX_ROW_SAMPLES_M1 (i : Nat) : Fld := ⟨0x8000C + 0x4000 * i, 14, 0⟩
def SRX_FILL_FILL (i j : Nat) : Fld := ⟨0x80010 + 0x4000 * i + 0x4 * j, 15, 0⟩
def SRX_EXPSET_SET_ID (i : Nat) : Fld := ⟨0x80020 + 0x4000 * i, 15, 0⟩
def SRX_STREAM_DOMAIN (i : Nat) : Fld := ⟨0x80024 + 0x4000 * i, 20, 16⟩
def SRX_STREAM_STREAM (i : Nat) : Fld := ⟨0x80024 + 0x4000 * i, 11, 0⟩
def SRX_FRAME_NUM_FRAME_NUM (i : Nat) : Fld := ⟨0x80028 + 0x4000 * i, 31, 0⟩
def SRX_TRAIN_MS_MS (i : Nat) : Fld := ⟨0x8002C + 0x4000 * i, 15, 0⟩
def SRX_FQ_PUSH_MAP (i : Nat) : Fld := ⟨0x80030 + 0x4000 * i, 31, 16⟩
def SRX_FQ_PUSH_RAW (i : Nat) : Fld := ⟨0x80030 + 0x4000 * i, 15, 0⟩
def SRX_FQ_STATUS_NO_BERTH (i : Nat) : Fld := ⟨0x80034 + 0x4000 * i, 31, 16⟩
def SRX_FQ_STATUS_PUSH_LOST (i : Nat) : Fld := ⟨0x80034 + 0x4000 * i, 8, 8⟩
def SRX_FQ_STATUS_COUNT (i : Nat) : Fld := ⟨0x80034 + 0x4000 * i, 4, 0⟩
def SRX_LINK_CFG_FOM_GOOD (i : Nat) : Fld := ⟨0x80038 + 0x4000 * i, 31, 24⟩
def SRX_LINK_CFG_FOM_FLOOR (i : Nat) : Fld := ⟨0x80038 + 0x4000 * i, 23, 16⟩
def SRX_LINK_CFG_ERR_LIMIT (i : Nat) : Fld := ⟨0x80038 + 0x4000 * i, 15, 0⟩
def SRX_LANE_EN_LO (i : Nat) : Fld := ⟨0x80040 + 0x4000 * i, 31, 0⟩
def SRX_LANE_EN_HI (i : Nat) : Fld := ⟨0x80044 + 0x4000 * i, 31, 0⟩
def SRX_LANE_USE_LO (i : Nat) : Fld := ⟨0x80048 + 0x4000 * i, 31, 0⟩
def SRX_LANE_USE_HI (i : Nat) : Fld := ⟨0x8004C + 0x4000 * i, 31, 0⟩
def SRX_PROPOSE_LO (i : Nat) : Fld := ⟨0x80050 + 0x4000 * i, 31, 0⟩
def SRX_PROPOSE_HI (i : Nat) : Fld := ⟨0x80054 + 0x4000 * i, 31, 0⟩
def SRX_MIN_FRAME_NS_NS (i : Nat) : Fld := ⟨0x80058 + 0x4000 * i, 31, 0⟩
def SRX_EVENT_WRITE_REJECT (i : Nat) : Fld := ⟨0x80060 + 0x4000 * i, 7, 7⟩
def SRX_EVENT_TRAIN_DONE (i : Nat) : Fld := ⟨0x80060 + 0x4000 * i, 6, 6⟩
def SRX_EVENT_LANE_FAULT (i : Nat) : Fld := ⟨0x80060 + 0x4000 * i, 5, 5⟩
def SRX_EVENT_NO_BERTH (i : Nat) : Fld := ⟨0x80060 + 0x4000 * i, 4, 4⟩
def SRX_EVENT_DROP (i : Nat) : Fld := ⟨0x80060 + 0x4000 * i, 3, 3⟩
def SRX_EVENT_LONG (i : Nat) : Fld := ⟨0x80060 + 0x4000 * i, 2, 2⟩
def SRX_EVENT_SHORT (i : Nat) : Fld := ⟨0x80060 + 0x4000 * i, 1, 1⟩
def SRX_EVENT_STRAY (i : Nat) : Fld := ⟨0x80060 + 0x4000 * i, 0, 0⟩
def SRX_EVENT_EN_EN (i : Nat) : Fld := ⟨0x80064 + 0x4000 * i, 7, 0⟩
def SRX_DROP_CNT_BUFFER (i : Nat) : Fld := ⟨0x80070 + 0x4000 * i, 31, 16⟩
def SRX_DROP_CNT_CRC (i : Nat) : Fld := ⟨0x80070 + 0x4000 * i, 15, 0⟩
def SRX_ROW_CNT_LONG (i : Nat) : Fld := ⟨0x80074 + 0x4000 * i, 31, 16⟩
def SRX_ROW_CNT_HDR (i : Nat) : Fld := ⟨0x80074 + 0x4000 * i, 15, 0⟩
def SRX_FRAME_CNT_SHORT (i : Nat) : Fld := ⟨0x80078 + 0x4000 * i, 31, 16⟩
def SRX_FRAME_CNT_LONG (i : Nat) : Fld := ⟨0x80078 + 0x4000 * i, 15, 0⟩
def SRX_EB_HIGH (i : Nat) : Fld := ⟨0x8007C + 0x4000 * i, 27, 16⟩
def SRX_EB_LEVEL (i : Nat) : Fld := ⟨0x8007C + 0x4000 * i, 11, 0⟩
def SRX_SYNC_EN (i j : Nat) : Fld := ⟨0x80080 + 0x4000 * i + 0x10 * j, 31, 31⟩
def SRX_SYNC_POL (i j : Nat) : Fld := ⟨0x80080 + 0x4000 * i + 0x10 * j, 30, 30⟩
def SRX_SYNC_DIV_M1 (i j : Nat) : Fld := ⟨0x80080 + 0x4000 * i + 0x10 * j, 29, 22⟩
def SRX_SYNC_PIN (i j : Nat) : Fld := ⟨0x80080 + 0x4000 * i + 0x10 * j, 7, 0⟩
def SRX_SYNC_OFFSET (i j : Nat) : Fld := ⟨0x80084 + 0x4000 * i + 0x10 * j, 31, 0⟩
def SRX_SYNC_WIDTH (i j : Nat) : Fld := ⟨0x80088 + 0x4000 * i + 0x10 * j, 31, 0⟩
def LANE_CFG_PRBS (i j : Nat) : Fld := ⟨0x81000 + 0x4000 * i + 0x40 * j, 31, 29⟩
def LANE_CFG_GEN (i j : Nat) : Fld := ⟨0x81000 + 0x4000 * i + 0x40 * j, 28, 28⟩
def LANE_CFG_LOOP (i j : Nat) : Fld := ⟨0x81000 + 0x4000 * i + 0x40 * j, 27, 27⟩
def LANE_CFG_INJECT (i j : Nat) : Fld := ⟨0x81000 + 0x4000 * i + 0x40 * j, 26, 26⟩
def LANE_CFG_ADAPT (i j : Nat) : Fld := ⟨0x81000 + 0x4000 * i + 0x40 * j, 25, 24⟩
def LANE_CFG_POL (i j : Nat) : Fld := ⟨0x81000 + 0x4000 * i + 0x40 * j, 23, 22⟩
def LANE_STATUS_STATE (i j : Nat) : Fld := ⟨0x81004 + 0x4000 * i + 0x40 * j, 31, 29⟩
def LANE_STATUS_FAULT (i j : Nat) : Fld := ⟨0x81004 + 0x4000 * i + 0x40 * j, 28, 25⟩
def LANE_STATUS_INVERTED (i j : Nat) : Fld := ⟨0x81004 + 0x4000 * i + 0x40 * j, 24, 24⟩
def LANE_STATUS_LOCK (i j : Nat) : Fld := ⟨0x81004 + 0x4000 * i + 0x40 * j, 23, 23⟩
def LANE_STATUS_SUSPECT (i j : Nat) : Fld := ⟨0x81004 + 0x4000 * i + 0x40 * j, 22, 22⟩
def LANE_STATUS_PRBS_LOCK (i j : Nat) : Fld := ⟨0x81004 + 0x4000 * i + 0x40 * j, 21, 21⟩
def LANE_STATUS_PRBS_INV (i j : Nat) : Fld := ⟨0x81004 + 0x4000 * i + 0x40 * j, 20, 20⟩
def LANE_STATUS_SENSOR_LANE (i j : Nat) : Fld := ⟨0x81004 + 0x4000 * i + 0x40 * j, 19, 14⟩
def LANE_STATUS_DESKEW_UI (i j : Nat) : Fld := ⟨0x81004 + 0x4000 * i + 0x40 * j, 8, 0⟩
def LANE_SLIP_SLIP (i j : Nat) : Fld := ⟨0x81008 + 0x4000 * i + 0x40 * j, 0, 0⟩
def LANE_FOM_FOM (i j : Nat) : Fld := ⟨0x8100C + 0x4000 * i + 0x40 * j, 31, 24⟩
def LANE_FOM_VERT (i j : Nat) : Fld := ⟨0x8100C + 0x4000 * i + 0x40 * j, 23, 16⟩
def LANE_FOM_HORZ (i j : Nat) : Fld := ⟨0x8100C + 0x4000 * i + 0x40 * j, 14, 8⟩
def LANE_EQ_CTLE (i j : Nat) : Fld := ⟨0x81010 + 0x4000 * i + 0x40 * j, 31, 28⟩
def LANE_EQ_DFE (i j : Nat) : Fld := ⟨0x81010 + 0x4000 * i + 0x40 * j, 24, 0⟩
def LANE_PRBS_ERR (i j : Nat) : Fld := ⟨0x81014 + 0x4000 * i + 0x40 * j, 31, 0⟩
def LANE_BITS_LO (i j : Nat) : Fld := ⟨0x81018 + 0x4000 * i + 0x40 * j, 31, 0⟩
def LANE_BITS_HI (i j : Nat) : Fld := ⟨0x8101C + 0x4000 * i + 0x40 * j, 15, 0⟩
def LANE_CODE_ERR (i j : Nat) : Fld := ⟨0x81020 + 0x4000 * i + 0x40 * j, 31, 0⟩
def LANE_PIN_P_MV (i j : Nat) : Fld := ⟨0x81024 + 0x4000 * i + 0x40 * j, 26, 16⟩
def LANE_PIN_N_MV (i j : Nat) : Fld := ⟨0x81024 + 0x4000 * i + 0x40 * j, 10, 0⟩
def PIPE_CTRL_OP (i : Nat) : Fld := ⟨0x100000 + 0x10000 * i, 31, 28⟩
def PIPE_CTRL_AUTO (i : Nat) : Fld := ⟨0x100000 + 0x10000 * i, 0, 0⟩
def PIPE_STATUS_STATE (i : Nat) : Fld := ⟨0x100004 + 0x10000 * i, 31, 30⟩
def PIPE_STATUS_IN_COUNT (i : Nat) : Fld := ⟨0x100004 + 0x10000 * i, 2, 0⟩
def PIPE_IN_PUSH_MAP (i : Nat) : Fld := ⟨0x100008 + 0x10000 * i, 31, 16⟩
def PIPE_IN_PUSH_RAW (i : Nat) : Fld := ⟨0x100008 + 0x10000 * i, 15, 0⟩
def PIPE_IN_STATUS_LOST (i : Nat) : Fld := ⟨0x10000C + 0x10000 * i, 31, 16⟩
def PIPE_IN_STATUS_SKIPPED (i : Nat) : Fld := ⟨0x10000C + 0x10000 * i, 15, 0⟩
def PIPE_GEOM_COLS_M1 (i : Nat) : Fld := ⟨0x100010 + 0x10000 * i, 30, 16⟩
def PIPE_GEOM_ROWS_M1 (i : Nat) : Fld := ⟨0x100010 + 0x10000 * i, 14, 0⟩
def PIPE_TABLES_LUT (i : Nat) : Fld := ⟨0x100014 + 0x10000 * i, 31, 16⟩
def PIPE_TABLES_COL (i : Nat) : Fld := ⟨0x100014 + 0x10000 * i, 15, 0⟩
def PIPE_DEFECT_LIST (i : Nat) : Fld := ⟨0x100018 + 0x10000 * i, 15, 0⟩
def PIPE_DEFECT_COUNT_COUNT (i : Nat) : Fld := ⟨0x10001C + 0x10000 * i, 19, 0⟩
def PIPE_BLACK_BLACK (i j : Nat) : Fld := ⟨0x100020 + 0x10000 * i + 0x4 * j, 23, 0⟩
def PIPE_STRATUM_G (i j : Nat) : Fld := ⟨0x100040 + 0x10000 * i + 0x20 * j, 23, 0⟩
def PIPE_STRATUM_WB (i j : Nat) : Fld := ⟨0x100044 + 0x10000 * i + 0x20 * j, 15, 0⟩
def PIPE_STRATUM_KNEE (i j : Nat) : Fld := ⟨0x100048 + 0x10000 * i + 0x20 * j, 19, 0⟩
def PIPE_STRATUM_SAT (i j : Nat) : Fld := ⟨0x10004C + 0x10000 * i + 0x20 * j, 19, 0⟩
def PIPE_STRATUM_A (i j : Nat) : Fld := ⟨0x100050 + 0x10000 * i + 0x20 * j, 31, 16⟩
def PIPE_STRATUM_B (i j : Nat) : Fld := ⟨0x100050 + 0x10000 * i + 0x20 * j, 15, 0⟩
def PIPE_MERGE_DILATE (i : Nat) : Fld := ⟨0x1000C0 + 0x10000 * i, 9, 9⟩
def PIPE_MERGE_PICK (i : Nat) : Fld := ⟨0x1000C0 + 0x10000 * i, 8, 8⟩
def PIPE_MERGE_K (i : Nat) : Fld := ⟨0x1000C0 + 0x10000 * i, 7, 0⟩
def PIPE_DEFECT_CFG_DYN (i : Nat) : Fld := ⟨0x1000C4 + 0x10000 * i, 31, 31⟩
def PIPE_DEFECT_CFG_REL (i : Nat) : Fld := ⟨0x1000C4 + 0x10000 * i, 23, 16⟩
def PIPE_DEFECT_CFG_ABS (i : Nat) : Fld := ⟨0x1000C4 + 0x10000 * i, 15, 0⟩
def PIPE_SIEVE_ROW_CODES (i j : Nat) : Fld := ⟨0x100100 + 0x10000 * i + 0x4 * j, 31, 0⟩
def PIPE_SIEVE_CFG_EDGE (i : Nat) : Fld := ⟨0x100120 + 0x10000 * i, 23, 16⟩
def PIPE_SIEVE_CFG_PHASE_Y (i : Nat) : Fld := ⟨0x100120 + 0x10000 * i, 14, 12⟩
def PIPE_SIEVE_CFG_PHASE_X (i : Nat) : Fld := ⟨0x100120 + 0x10000 * i, 10, 8⟩
def PIPE_SIEVE_CFG_PH_M1 (i : Nat) : Fld := ⟨0x100120 + 0x10000 * i, 6, 4⟩
def PIPE_SIEVE_CFG_PW_M1 (i : Nat) : Fld := ⟨0x100120 + 0x10000 * i, 2, 0⟩
def PIPE_SIEVE_LG_0_LG_G (i : Nat) : Fld := ⟨0x100124 + 0x10000 * i, 31, 16⟩
def PIPE_SIEVE_LG_0_LG_R (i : Nat) : Fld := ⟨0x100124 + 0x10000 * i, 15, 0⟩
def PIPE_SIEVE_LG_1_LG_C (i : Nat) : Fld := ⟨0x100128 + 0x10000 * i, 31, 16⟩
def PIPE_SIEVE_LG_1_LG_B (i : Nat) : Fld := ⟨0x100128 + 0x10000 * i, 15, 0⟩
def PIPE_SIEVE_LG_2_LG_I (i : Nat) : Fld := ⟨0x10012C + 0x10000 * i, 15, 0⟩
def PIPE_IRMAT_M_HI (i j : Nat) : Fld := ⟨0x100130 + 0x10000 * i + 0x4 * j, 31, 16⟩
def PIPE_IRMAT_M_LO (i j : Nat) : Fld := ⟨0x100130 + 0x10000 * i + 0x4 * j, 15, 0⟩
def PIPE_MERGE_CNT_0_BLENDED (i : Nat) : Fld := ⟨0x100180 + 0x10000 * i, 31, 0⟩
def PIPE_MERGE_CNT_1_SINGLE (i : Nat) : Fld := ⟨0x100184 + 0x10000 * i, 31, 0⟩
def PIPE_MERGE_CNT_2_SATURATED (i : Nat) : Fld := ⟨0x100188 + 0x10000 * i, 31, 0⟩
def PIPE_FRONT_CNT_0_DYNAMIC (i : Nat) : Fld := ⟨0x10018C + 0x10000 * i, 31, 0⟩
def PIPE_FRONT_CNT_1_UNFIXED (i : Nat) : Fld := ⟨0x100190 + 0x10000 * i, 31, 16⟩
def PIPE_FRONT_CNT_1_INVALID (i : Nat) : Fld := ⟨0x100190 + 0x10000 * i, 15, 0⟩
def PIPE_EVENT_WRITE_REJECT (i : Nat) : Fld := ⟨0x1001A0 + 0x10000 * i, 4, 4⟩
def PIPE_EVENT_IN_LOST (i : Nat) : Fld := ⟨0x1001A0 + 0x10000 * i, 3, 3⟩
def PIPE_EVENT_SKIP (i : Nat) : Fld := ⟨0x1001A0 + 0x10000 * i, 2, 2⟩
def PIPE_EVENT_DEFECT_ORDER (i : Nat) : Fld := ⟨0x1001A0 + 0x10000 * i, 1, 1⟩
def PIPE_EVENT_UNFIXED (i : Nat) : Fld := ⟨0x1001A0 + 0x10000 * i, 0, 0⟩
def PIPE_EVENT_EN_EN (i : Nat) : Fld := ⟨0x1001A4 + 0x10000 * i, 4, 0⟩
def PIPE_WB_0_WB_G (i : Nat) : Fld := ⟨0x108000 + 0x10000 * i, 31, 16⟩
def PIPE_WB_0_WB_R (i : Nat) : Fld := ⟨0x108000 + 0x10000 * i, 15, 0⟩
def PIPE_WB_1_WB_B (i : Nat) : Fld := ⟨0x108004 + 0x10000 * i, 15, 0⟩
def PIPE_CCM_M_HI (i j : Nat) : Fld := ⟨0x108010 + 0x10000 * i + 0x4 * j, 31, 16⟩
def PIPE_CCM_M_LO (i j : Nat) : Fld := ⟨0x108010 + 0x10000 * i + 0x4 * j, 15, 0⟩
def PIPE_RAWOUT_CFG_EN (i : Nat) : Fld := ⟨0x108040 + 0x10000 * i, 31, 31⟩
def PIPE_RAWOUT_CFG_DOMAIN (i : Nat) : Fld := ⟨0x108040 + 0x10000 * i, 20, 16⟩
def PIPE_RAWOUT_CFG_STREAM (i : Nat) : Fld := ⟨0x108040 + 0x10000 * i, 11, 0⟩
def PIPE_RAWOUT_PUSH_HANDLE (i : Nat) : Fld := ⟨0x108044 + 0x10000 * i, 15, 0⟩
def PIPE_RAWOUT_STATUS_NO_BERTH (i : Nat) : Fld := ⟨0x108048 + 0x10000 * i, 31, 16⟩
def PIPE_RAWOUT_STATUS_PUSH_LOST (i : Nat) : Fld := ⟨0x108048 + 0x10000 * i, 15, 8⟩
def PIPE_RAWOUT_STATUS_COUNT (i : Nat) : Fld := ⟨0x108048 + 0x10000 * i, 2, 0⟩
def PIPE_BE_EVENT_BAD_CFG (i : Nat) : Fld := ⟨0x108050 + 0x10000 * i, 3, 3⟩
def PIPE_BE_EVENT_BW_LIMIT (i : Nat) : Fld := ⟨0x108050 + 0x10000 * i, 2, 2⟩
def PIPE_BE_EVENT_PUSH_LOST (i : Nat) : Fld := ⟨0x108050 + 0x10000 * i, 1, 1⟩
def PIPE_BE_EVENT_NO_BERTH (i : Nat) : Fld := ⟨0x108050 + 0x10000 * i, 0, 0⟩
def PIPE_BE_EVENT_EN_EN (i : Nat) : Fld := ⟨0x108054 + 0x10000 * i, 3, 0⟩
def PIPE_BE_TIME_PCLK (i : Nat) : Fld := ⟨0x108058 + 0x10000 * i, 31, 0⟩
def PIPE_OUT_CFG_EN (i j : Nat) : Fld := ⟨0x108100 + 0x10000 * i + 0x80 * j, 31, 31⟩
def PIPE_OUT_CFG_FULL (i j : Nat) : Fld := ⟨0x108100 + 0x10000 * i + 0x80 * j, 30, 30⟩
def PIPE_OUT_CFG_YCC (i j : Nat) : Fld := ⟨0x108100 + 0x10000 * i + 0x80 * j, 29, 28⟩
def PIPE_OUT_CFG_TF (i j : Nat) : Fld := ⟨0x108100 + 0x10000 * i + 0x80 * j, 27, 25⟩
def PIPE_OUT_CFG_TONE (i j : Nat) : Fld := ⟨0x108100 + 0x10000 * i + 0x80 * j, 24, 24⟩
def PIPE_OUT_CFG_PARCEL_ROWS (i j : Nat) : Fld := ⟨0x108100 + 0x10000 * i + 0x80 * j, 20, 16⟩
def PIPE_OUT_CFG_FMT (i j : Nat) : Fld := ⟨0x108100 + 0x10000 * i + 0x80 * j, 11, 0⟩
def PIPE_OUT_STREAM_DOMAIN (i j : Nat) : Fld := ⟨0x108104 + 0x10000 * i + 0x80 * j, 20, 16⟩
def PIPE_OUT_STREAM_STREAM (i j : Nat) : Fld := ⟨0x108104 + 0x10000 * i + 0x80 * j, 11, 0⟩
def PIPE_OUT_CROP_XY_CROP_Y (i j : Nat) : Fld := ⟨0x108108 + 0x10000 * i + 0x80 * j, 30, 16⟩
def PIPE_OUT_CROP_XY_CROP_X (i j : Nat) : Fld := ⟨0x108108 + 0x10000 * i + 0x80 * j, 14, 0⟩
def PIPE_OUT_CROP_WH_CROP_H_M1 (i j : Nat) : Fld := ⟨0x10810C + 0x10000 * i + 0x80 * j, 30, 16⟩
def PIPE_OUT_CROP_WH_CROP_W_M1 (i j : Nat) : Fld := ⟨0x10810C + 0x10000 * i + 0x80 * j, 14, 0⟩
def PIPE_OUT_SIZE_OUT_H_M1 (i j : Nat) : Fld := ⟨0x108110 + 0x10000 * i + 0x80 * j, 30, 16⟩
def PIPE_OUT_SIZE_OUT_W_M1 (i j : Nat) : Fld := ⟨0x108110 + 0x10000 * i + 0x80 * j, 14, 0⟩
def PIPE_OUT_STEP_X (i j : Nat) : Fld := ⟨0x108114 + 0x10000 * i + 0x80 * j, 31, 0⟩
def PIPE_OUT_STEP_Y (i j : Nat) : Fld := ⟨0x108118 + 0x10000 * i + 0x80 * j, 31, 0⟩
def PIPE_OUT_PHASE_X (i j : Nat) : Fld := ⟨0x10811C + 0x10000 * i + 0x80 * j, 31, 0⟩
def PIPE_OUT_PHASE_Y (i j : Nat) : Fld := ⟨0x108120 + 0x10000 * i + 0x80 * j, 31, 0⟩
def PIPE_OUT_DECIM_KY (i j : Nat) : Fld := ⟨0x108124 + 0x10000 * i + 0x80 * j, 5, 4⟩
def PIPE_OUT_DECIM_KX (i j : Nat) : Fld := ⟨0x108124 + 0x10000 * i + 0x80 * j, 1, 0⟩
def PIPE_OUT_TABLES_SCALER (i j : Nat) : Fld := ⟨0x108128 + 0x10000 * i + 0x80 * j, 31, 16⟩
def PIPE_OUT_TABLES_TONE (i j : Nat) : Fld := ⟨0x108128 + 0x10000 * i + 0x80 * j, 15, 0⟩
def PIPE_OUT_LUT3D (i j : Nat) : Fld := ⟨0x10812C + 0x10000 * i + 0x80 * j, 15, 0⟩
def PIPE_OUT_MAT_M_HI (i j k : Nat) : Fld := ⟨0x108130 + 0x10000 * i + 0x80 * j + 0x4 * k, 31, 16⟩
def PIPE_OUT_MAT_M_LO (i j k : Nat) : Fld := ⟨0x108130 + 0x10000 * i + 0x80 * j + 0x4 * k, 15, 0⟩
def PIPE_OUT_OFS_OFS (i j k : Nat) : Fld := ⟨0x108144 + 0x10000 * i + 0x80 * j + 0x4 * k, 21, 0⟩
def PIPE_OUT_ACES_GAIN (i j : Nat) : Fld := ⟨0x108150 + 0x10000 * i + 0x80 * j, 23, 0⟩
def PIPE_OUT_PUSH_HANDLE (i j : Nat) : Fld := ⟨0x108160 + 0x10000 * i + 0x80 * j, 15, 0⟩
def PIPE_OUT_STATUS_NO_BERTH (i j : Nat) : Fld := ⟨0x108164 + 0x10000 * i + 0x80 * j, 31, 16⟩
def PIPE_OUT_STATUS_PUSH_LOST (i j : Nat) : Fld := ⟨0x108164 + 0x10000 * i + 0x80 * j, 15, 8⟩
def PIPE_OUT_STATUS_COUNT (i j : Nat) : Fld := ⟨0x108164 + 0x10000 * i + 0x80 * j, 3, 0⟩
def STAT_CFG_EN (i : Nat) : Fld := ⟨0x140000 + 0x1000 * i, 31, 31⟩
def STAT_CFG_DOMAIN (i : Nat) : Fld := ⟨0x140000 + 0x1000 * i, 20, 16⟩
def STAT_CFG_STREAM (i : Nat) : Fld := ⟨0x140000 + 0x1000 * i, 11, 0⟩
def STAT_WIN_XY_WIN_Y (i : Nat) : Fld := ⟨0x140004 + 0x1000 * i, 30, 16⟩
def STAT_WIN_XY_WIN_X (i : Nat) : Fld := ⟨0x140004 + 0x1000 * i, 14, 0⟩
def STAT_WIN_WH_WIN_H_M1 (i : Nat) : Fld := ⟨0x140008 + 0x1000 * i, 30, 16⟩
def STAT_WIN_WH_WIN_W_M1 (i : Nat) : Fld := ⟨0x140008 + 0x1000 * i, 14, 0⟩
def STAT_ZONES_ZY_M1 (i : Nat) : Fld := ⟨0x14000C + 0x1000 * i, 13, 8⟩
def STAT_ZONES_ZX_M1 (i : Nat) : Fld := ⟨0x14000C + 0x1000 * i, 5, 0⟩
def STAT_LUMA_0_LW_G (i : Nat) : Fld := ⟨0x140010 + 0x1000 * i, 31, 16⟩
def STAT_LUMA_0_LW_R (i : Nat) : Fld := ⟨0x140010 + 0x1000 * i, 15, 0⟩
def STAT_LUMA_1_LW_B (i : Nat) : Fld := ⟨0x140014 + 0x1000 * i, 15, 0⟩
def STAT_CLIP_LEVEL (i : Nat) : Fld := ⟨0x140018 + 0x1000 * i, 19, 0⟩
def STAT_WEIGHTS_HANDLE (i : Nat) : Fld := ⟨0x14001C + 0x1000 * i, 15, 0⟩
def STAT_OUT_EN (i j : Nat) : Fld := ⟨0x140020 + 0x1000 * i + 0x4 * j, 31, 31⟩
def STAT_OUT_CH (i j : Nat) : Fld := ⟨0x140020 + 0x1000 * i + 0x4 * j, 2, 0⟩
def STAT_PUSH_HANDLE (i : Nat) : Fld := ⟨0x140030 + 0x1000 * i, 15, 0⟩
def STAT_STATUS_NO_BERTH (i : Nat) : Fld := ⟨0x140034 + 0x1000 * i, 31, 16⟩
def STAT_STATUS_PUSH_LOST (i : Nat) : Fld := ⟨0x140034 + 0x1000 * i, 15, 8⟩
def STAT_STATUS_COUNT (i : Nat) : Fld := ⟨0x140034 + 0x1000 * i, 3, 0⟩
def STAT_LAST_FRAME_FRAME (i : Nat) : Fld := ⟨0x140040 + 0x1000 * i, 31, 0⟩
def STAT_LAST_SET_SET_ID (i : Nat) : Fld := ⟨0x140044 + 0x1000 * i, 15, 0⟩
def STAT_LAST_MEAN_MEAN (i : Nat) : Fld := ⟨0x140048 + 0x1000 * i, 31, 0⟩
def STAT_EVENT_NO_MEASURE (i : Nat) : Fld := ⟨0x140050 + 0x1000 * i, 2, 2⟩
def STAT_EVENT_NO_BERTH (i : Nat) : Fld := ⟨0x140050 + 0x1000 * i, 1, 1⟩
def STAT_EVENT_PUSH_LOST (i : Nat) : Fld := ⟨0x140050 + 0x1000 * i, 0, 0⟩
def STAT_EVENT_EN_EN (i : Nat) : Fld := ⟨0x140054 + 0x1000 * i, 2, 0⟩
def CAL_CMD_OP : Fld := ⟨0x150000, 31, 28⟩
def CAL_CMD_ITEM : Fld := ⟨0x150000, 5, 0⟩
def CAL_CFG_AUTO : Fld := ⟨0x150004, 31, 31⟩
def CAL_CFG_THRESH_MISC : Fld := ⟨0x150004, 20, 16⟩
def CAL_CFG_THRESH_MEM : Fld := ⟨0x150004, 12, 8⟩
def CAL_CFG_THRESH_LANE : Fld := ⟨0x150004, 4, 0⟩
def CAL_EVENT_FACTORY_BAD : Fld := ⟨0x150008, 3, 3⟩
def CAL_EVENT_FF_DONE : Fld := ⟨0x150008, 2, 2⟩
def CAL_EVENT_FAIL : Fld := ⟨0x150008, 1, 1⟩
def CAL_EVENT_APPLIED : Fld := ⟨0x150008, 0, 0⟩
def CAL_EVENT_EN_EN : Fld := ⟨0x15000C, 3, 0⟩
def CAL_PPB_PPB : Fld := ⟨0x150010, 31, 0⟩
def CAL_TOSC_CFG_SRC : Fld := ⟨0x150014, 0, 0⟩
def CAL_TOSC_C1_C1 : Fld := ⟨0x150018, 31, 0⟩
def CAL_TOSC_C2_C2 : Fld := ⟨0x15001C, 31, 0⟩
def CAL_TOSC_T0_T0 : Fld := ⟨0x150020, 15, 0⟩
def CAL_STALE_LO : Fld := ⟨0x150030, 31, 0⟩
def CAL_STALE_HI : Fld := ⟨0x150034, 8, 0⟩
def CAL_PEND_LO : Fld := ⟨0x150038, 31, 0⟩
def CAL_PEND_HI : Fld := ⟨0x15003C, 8, 0⟩
def CAL_FF_STATUS_NEXT : Fld := ⟨0x150040, 25, 20⟩
def CAL_FF_STATUS_FACTORY_BAD : Fld := ⟨0x150040, 19, 19⟩
def CAL_FF_STATUS_BUSY : Fld := ⟨0x150040, 18, 18⟩
def CAL_FF_STATUS_RESULT : Fld := ⟨0x150040, 17, 16⟩
def CAL_FF_TARGET_ROW : Fld := ⟨0x150044, 7, 0⟩
def CAL_FF_DATA_VALUE : Fld := ⟨0x150048, 31, 0⟩
def CAL_FF_CMD_KEY : Fld := ⟨0x15004C, 31, 0⟩
def CAL_ITEM_STATE (i : Nat) : Fld := ⟨0x150100 + 0x10 * i, 31, 30⟩
def CAL_ITEM_FAILS (i : Nat) : Fld := ⟨0x150100 + 0x10 * i, 29, 28⟩
def CAL_ITEM_RUNS (i : Nat) : Fld := ⟨0x150100 + 0x10 * i, 15, 0⟩
def CAL_ITEM_T_START (i : Nat) : Fld := ⟨0x150104 + 0x10 * i, 31, 16⟩
def CAL_ITEM_T_NOW (i : Nat) : Fld := ⟨0x150104 + 0x10 * i, 15, 0⟩
def CAL_LANE_BASE_BASE (i : Nat) : Fld := ⟨0x150800 + 0x4 * i, 15, 0⟩
def CAL_FUSE_VALUE (i : Nat) : Fld := ⟨0x151000 + 0x4 * i, 31, 0⟩
def CAL_FIELD_VALUE (i : Nat) : Fld := ⟨0x151400 + 0x4 * i, 31, 0⟩
def ENC_CTRL_OP (i : Nat) : Fld := ⟨0x160000 + 0x4000 * i, 31, 28⟩
def ENC_STATUS_STATE (i : Nat) : Fld := ⟨0x160004 + 0x4000 * i, 31, 30⟩
def ENC_STATUS_ACTIVE (i : Nat) : Fld := ⟨0x160004 + 0x4000 * i, 25, 24⟩
def ENC_STATUS_SUSPENDED (i : Nat) : Fld := ⟨0x160004 + 0x4000 * i, 19, 16⟩
def ENC_STATUS_OCCUPIED (i : Nat) : Fld := ⟨0x160004 + 0x4000 * i, 11, 8⟩
def ENC_STATUS_CAP (i : Nat) : Fld := ⟨0x160004 + 0x4000 * i, 0, 0⟩
def ENC_EVENT_WRITE_REJECT (i : Nat) : Fld := ⟨0x160010 + 0x4000 * i, 7, 7⟩
def ENC_EVENT_BS_SMALL (i : Nat) : Fld := ⟨0x160010 + 0x4000 * i, 6, 6⟩
def ENC_EVENT_BAD_CFG (i : Nat) : Fld := ⟨0x160010 + 0x4000 * i, 5, 5⟩
def ENC_EVENT_LATE_INPUT (i : Nat) : Fld := ⟨0x160010 + 0x4000 * i, 4, 4⟩
def ENC_EVENT_NO_BERTH (i : Nat) : Fld := ⟨0x160010 + 0x4000 * i, 3, 3⟩
def ENC_EVENT_PREEMPT (i : Nat) : Fld := ⟨0x160010 + 0x4000 * i, 2, 2⟩
def ENC_EVENT_IDR (i : Nat) : Fld := ⟨0x160010 + 0x4000 * i, 1, 1⟩
def ENC_EVENT_CAP (i : Nat) : Fld := ⟨0x160010 + 0x4000 * i, 0, 0⟩
def ENC_EVENT_EN_EN (i : Nat) : Fld := ⟨0x160014 + 0x4000 * i, 7, 0⟩
def ENC_CYCLES_ECLK (i : Nat) : Fld := ⟨0x160020 + 0x4000 * i, 31, 0⟩
def ENC_SLOT_CFG_EN (i j : Nat) : Fld := ⟨0x160100 + 0x4000 * i + 0x100 * j, 31, 31⟩
def ENC_SLOT_CFG_GANG (i j : Nat) : Fld := ⟨0x160100 + 0x4000 * i + 0x100 * j, 29, 28⟩
def ENC_SLOT_CFG_PRIO (i j : Nat) : Fld := ⟨0x160100 + 0x4000 * i + 0x100 * j, 25, 24⟩
def ENC_SLOT_CFG_FOLLOW (i j : Nat) : Fld := ⟨0x160100 + 0x4000 * i + 0x100 * j, 22, 20⟩
def ENC_SLOT_CFG_KIND (i j : Nat) : Fld := ⟨0x160100 + 0x4000 * i + 0x100 * j, 15, 12⟩
def ENC_SLOT_CFG_FMT (i j : Nat) : Fld := ⟨0x160100 + 0x4000 * i + 0x100 * j, 11, 0⟩
def ENC_SLOT_STREAM_DOMAIN (i j : Nat) : Fld := ⟨0x160104 + 0x4000 * i + 0x100 * j, 20, 16⟩
def ENC_SLOT_STREAM_STREAM (i j : Nat) : Fld := ⟨0x160104 + 0x4000 * i + 0x100 * j, 11, 0⟩
def ENC_SLOT_INPUT_STREAM (i j : Nat) : Fld := ⟨0x160108 + 0x4000 * i + 0x100 * j, 11, 0⟩
def ENC_SLOT_SIZE_H_M1 (i j : Nat) : Fld := ⟨0x16010C + 0x4000 * i + 0x100 * j, 30, 16⟩
def ENC_SLOT_SIZE_W_M1 (i j : Nat) : Fld := ⟨0x16010C + 0x4000 * i + 0x100 * j, 14, 0⟩
def ENC_SLOT_QP_QP_BASE (i j : Nat) : Fld := ⟨0x160110 + 0x4000 * i + 0x100 * j, 29, 24⟩
def ENC_SLOT_QP_QP_MIN (i j : Nat) : Fld := ⟨0x160110 + 0x4000 * i + 0x100 * j, 21, 16⟩
def ENC_SLOT_QP_AQ (i j : Nat) : Fld := ⟨0x160110 + 0x4000 * i + 0x100 * j, 15, 8⟩
def ENC_SLOT_QP_CAP_STEP (i j : Nat) : Fld := ⟨0x160110 + 0x4000 * i + 0x100 * j, 3, 0⟩
def ENC_SLOT_CAP_BITS (i j : Nat) : Fld := ⟨0x160114 + 0x4000 * i + 0x100 * j, 31, 0⟩
def ENC_SLOT_REFRESH_W (i j : Nat) : Fld := ⟨0x160118 + 0x4000 * i + 0x100 * j, 20, 16⟩
def ENC_SLOT_REFRESH_SLACK (i j : Nat) : Fld := ⟨0x160118 + 0x4000 * i + 0x100 * j, 11, 8⟩
def ENC_SLOT_SEARCH_RY (i j : Nat) : Fld := ⟨0x16011C + 0x4000 * i + 0x100 * j, 21, 16⟩
def ENC_SLOT_SEARCH_RX (i j : Nat) : Fld := ⟨0x16011C + 0x4000 * i + 0x100 * j, 5, 0⟩
def ENC_SLOT_LEVEL_TIER (i j : Nat) : Fld := ⟨0x160120 + 0x4000 * i + 0x100 * j, 8, 8⟩
def ENC_SLOT_LEVEL_IDC (i j : Nat) : Fld := ⟨0x160120 + 0x4000 * i + 0x100 * j, 7, 0⟩
def ENC_SLOT_VUI_FULL (i j : Nat) : Fld := ⟨0x160124 + 0x4000 * i + 0x100 * j, 24, 24⟩
def ENC_SLOT_VUI_PRIM (i j : Nat) : Fld := ⟨0x160124 + 0x4000 * i + 0x100 * j, 23, 16⟩
def ENC_SLOT_VUI_TRC (i j : Nat) : Fld := ⟨0x160124 + 0x4000 * i + 0x100 * j, 15, 8⟩
def ENC_SLOT_VUI_MATRIX (i j : Nat) : Fld := ⟨0x160124 + 0x4000 * i + 0x100 * j, 7, 0⟩
def ENC_SLOT_REF_REF1 (i j : Nat) : Fld := ⟨0x160128 + 0x4000 * i + 0x100 * j, 31, 16⟩
def ENC_SLOT_REF_REF0 (i j : Nat) : Fld := ⟨0x160128 + 0x4000 * i + 0x100 * j, 15, 0⟩
def ENC_SLOT_STAT_EN (i j : Nat) : Fld := ⟨0x16012C + 0x4000 * i + 0x100 * j, 31, 31⟩
def ENC_SLOT_STAT_DOMAIN (i j : Nat) : Fld := ⟨0x16012C + 0x4000 * i + 0x100 * j, 20, 16⟩
def ENC_SLOT_STAT_STREAM (i j : Nat) : Fld := ⟨0x16012C + 0x4000 * i + 0x100 * j, 11, 0⟩
def ENC_SLOT_IN_PUSH_HANDLE (i j : Nat) : Fld := ⟨0x160130 + 0x4000 * i + 0x100 * j, 15, 0⟩
def ENC_SLOT_BS_PUSH_HANDLE (i j : Nat) : Fld := ⟨0x160134 + 0x4000 * i + 0x100 * j, 15, 0⟩
def ENC_SLOT_ES_PUSH_HANDLE (i j : Nat) : Fld := ⟨0x160138 + 0x4000 * i + 0x100 * j, 15, 0⟩
def ENC_SLOT_QUEUE_LOST (i j : Nat) : Fld := ⟨0x160140 + 0x4000 * i + 0x100 * j, 31, 24⟩
def ENC_SLOT_QUEUE_ES (i j : Nat) : Fld := ⟨0x160140 + 0x4000 * i + 0x100 * j, 19, 16⟩
def ENC_SLOT_QUEUE_BS (i j : Nat) : Fld := ⟨0x160140 + 0x4000 * i + 0x100 * j, 11, 8⟩
def ENC_SLOT_QUEUE_IN (i j : Nat) : Fld := ⟨0x160140 + 0x4000 * i + 0x100 * j, 3, 0⟩
def ENC_SLOT_PIC_CAP (i j : Nat) : Fld := ⟨0x160144 + 0x4000 * i + 0x100 * j, 31, 31⟩
def ENC_SLOT_PIC_DEFER (i j : Nat) : Fld := ⟨0x160144 + 0x4000 * i + 0x100 * j, 30, 30⟩
def ENC_SLOT_PIC_IDR (i j : Nat) : Fld := ⟨0x160144 + 0x4000 * i + 0x100 * j, 29, 29⟩
def ENC_SLOT_PIC_CAUSE (i j : Nat) : Fld := ⟨0x160144 + 0x4000 * i + 0x100 * j, 27, 24⟩
def ENC_SLOT_PIC_QP (i j : Nat) : Fld := ⟨0x160144 + 0x4000 * i + 0x100 * j, 21, 16⟩
def ENC_SLOT_PIC_B (i j : Nat) : Fld := ⟨0x160144 + 0x4000 * i + 0x100 * j, 9, 0⟩
def ENC_SLOT_BITS_BYTES (i j : Nat) : Fld := ⟨0x160148 + 0x4000 * i + 0x100 * j, 31, 0⟩
def ENC_SLOT_CNT_CAP_PICS (i j : Nat) : Fld := ⟨0x16014C + 0x4000 * i + 0x100 * j, 31, 16⟩
def ENC_SLOT_CNT_SKIPPED (i j : Nat) : Fld := ⟨0x16014C + 0x4000 * i + 0x100 * j, 15, 0⟩
def ENC_SLOT_MINCAP_BITS (i j : Nat) : Fld := ⟨0x160150 + 0x4000 * i + 0x100 * j, 31, 0⟩
def ENC_SLOT_XLEVEL_RATE (i j : Nat) : Fld := ⟨0x160154 + 0x4000 * i + 0x100 * j, 2, 2⟩
def ENC_SLOT_XLEVEL_DIM (i j : Nat) : Fld := ⟨0x160154 + 0x4000 * i + 0x100 * j, 1, 1⟩
def ENC_SLOT_XLEVEL_SIZE (i j : Nat) : Fld := ⟨0x160154 + 0x4000 * i + 0x100 * j, 0, 0⟩
def DEC_CTRL_OP (i : Nat) : Fld := ⟨0x180000 + 0x4000 * i, 31, 28⟩
def DEC_STATUS_STATE (i : Nat) : Fld := ⟨0x180004 + 0x4000 * i, 31, 30⟩
def DEC_STATUS_POOL (i : Nat) : Fld := ⟨0x180004 + 0x4000 * i, 20, 16⟩
def DEC_STATUS_DPB (i : Nat) : Fld := ⟨0x180004 + 0x4000 * i, 4, 0⟩
def DEC_CFG_INFMT (i : Nat) : Fld := ⟨0x180008 + 0x4000 * i, 31, 31⟩
def DEC_CFG_LOOSE (i : Nat) : Fld := ⟨0x180008 + 0x4000 * i, 30, 30⟩
def DEC_CFG_PICS (i : Nat) : Fld := ⟨0x180008 + 0x4000 * i, 3, 0⟩
def DEC_OUT_CFG_PARCEL_ROWS (i : Nat) : Fld := ⟨0x18000C + 0x4000 * i, 20, 16⟩
def DEC_OUT_CFG_FMT (i : Nat) : Fld := ⟨0x18000C + 0x4000 * i, 11, 0⟩
def DEC_OUT_STREAM_DOMAIN (i : Nat) : Fld := ⟨0x180010 + 0x4000 * i, 20, 16⟩
def DEC_OUT_STREAM_STREAM (i : Nat) : Fld := ⟨0x180010 + 0x4000 * i, 11, 0⟩
def DEC_IN_LEN_BYTES (i : Nat) : Fld := ⟨0x180014 + 0x4000 * i, 31, 0⟩
def DEC_IN_PUSH_HANDLE (i : Nat) : Fld := ⟨0x180018 + 0x4000 * i, 15, 0⟩
def DEC_OUT_PUSH_HANDLE (i : Nat) : Fld := ⟨0x18001C + 0x4000 * i, 15, 0⟩
def DEC_DPB_PUSH_HANDLE (i : Nat) : Fld := ⟨0x180020 + 0x4000 * i, 15, 0⟩
def DEC_QUEUE_LOST (i : Nat) : Fld := ⟨0x180024 + 0x4000 * i, 31, 24⟩
def DEC_QUEUE_POOL (i : Nat) : Fld := ⟨0x180024 + 0x4000 * i, 20, 16⟩
def DEC_QUEUE_OUT (i : Nat) : Fld := ⟨0x180024 + 0x4000 * i, 12, 8⟩
def DEC_QUEUE_IN (i : Nat) : Fld := ⟨0x180024 + 0x4000 * i, 3, 0⟩
def DEC_FRAME_NUM_FRAME_NUM (i : Nat) : Fld := ⟨0x180028 + 0x4000 * i, 31, 0⟩
def DEC_EVENT_WRITE_REJECT (i : Nat) : Fld := ⟨0x180030 + 0x4000 * i, 9, 9⟩
def DEC_EVENT_FLUSHED (i : Nat) : Fld := ⟨0x180030 + 0x4000 * i, 8, 8⟩
def DEC_EVENT_TAINT_CLEAR (i : Nat) : Fld := ⟨0x180030 + 0x4000 * i, 7, 7⟩
def DEC_EVENT_BAD_CFG (i : Nat) : Fld := ⟨0x180030 + 0x4000 * i, 6, 6⟩
def DEC_EVENT_NO_BERTH (i : Nat) : Fld := ⟨0x180030 + 0x4000 * i, 5, 5⟩
def DEC_EVENT_NO_DPB (i : Nat) : Fld := ⟨0x180030 + 0x4000 * i, 4, 4⟩
def DEC_EVENT_MISSING_REF (i : Nat) : Fld := ⟨0x180030 + 0x4000 * i, 3, 3⟩
def DEC_EVENT_SYNTAX (i : Nat) : Fld := ⟨0x180030 + 0x4000 * i, 2, 2⟩
def DEC_EVENT_UNSUPPORTED (i : Nat) : Fld := ⟨0x180030 + 0x4000 * i, 1, 1⟩
def DEC_EVENT_OVERRUN (i : Nat) : Fld := ⟨0x180030 + 0x4000 * i, 0, 0⟩
def DEC_EVENT_EN_EN (i : Nat) : Fld := ⟨0x180034 + 0x4000 * i, 9, 0⟩
def DEC_PIC_TAINT (i : Nat) : Fld := ⟨0x180040 + 0x4000 * i, 31, 31⟩
def DEC_PIC_POC_LSB (i : Nat) : Fld := ⟨0x180040 + 0x4000 * i, 15, 0⟩
def DEC_CNT_CONCEALED (i : Nat) : Fld := ⟨0x180044 + 0x4000 * i, 31, 0⟩
def DEC_CNT2_GENERATED (i : Nat) : Fld := ⟨0x180048 + 0x4000 * i, 31, 16⟩
def DEC_CNT2_NOT_OUT (i : Nat) : Fld := ⟨0x180048 + 0x4000 * i, 15, 0⟩
def DEC_CYCLES_ECLK (i : Nat) : Fld := ⟨0x18004C + 0x4000 * i, 31, 0⟩
def DEC_SEQ_H_M1 (i : Nat) : Fld := ⟨0x180050 + 0x4000 * i, 30, 16⟩
def DEC_SEQ_W_M1 (i : Nat) : Fld := ⟨0x180050 + 0x4000 * i, 14, 0⟩
def DEC_SEQ2_LEVEL (i : Nat) : Fld := ⟨0x180054 + 0x4000 * i, 31, 24⟩
def DEC_SEQ2_PROFILE (i : Nat) : Fld := ⟨0x180054 + 0x4000 * i, 20, 16⟩
def DEC_SEQ2_CHROMA (i : Nat) : Fld := ⟨0x180054 + 0x4000 * i, 9, 8⟩
def DEC_SEQ2_DEPTH (i : Nat) : Fld := ⟨0x180054 + 0x4000 * i, 3, 0⟩
def LZE_CTRL_OP : Fld := ⟨0x190000, 31, 28⟩
def LZE_STATUS_STATE : Fld := ⟨0x190004, 31, 30⟩
def LZE_STATUS_CORES_BUSY : Fld := ⟨0x190004, 20, 16⟩
def LZE_STATUS_Q1 : Fld := ⟨0x190004, 12, 8⟩
def LZE_STATUS_Q0 : Fld := ⟨0x190004, 4, 0⟩
def LZE_CFG_GUARD : Fld := ⟨0x190008, 26, 16⟩
def LZE_CFG_CORES : Fld := ⟨0x190008, 4, 0⟩
def LZE_PUSH_INDEX (i : Nat) : Fld := ⟨0x190010 + 0x4 * i, 31, 16⟩
def LZE_PUSH_HANDLE (i : Nat) : Fld := ⟨0x190010 + 0x4 * i, 15, 0⟩
def LZE_QUEUE_LOST_1 : Fld := ⟨0x190018, 31, 16⟩
def LZE_QUEUE_LOST_0 : Fld := ⟨0x190018, 15, 0⟩
def LZE_EVENT_WRITE_REJECT : Fld := ⟨0x190020, 3, 3⟩
def LZE_EVENT_DONE_LOST : Fld := ⟨0x190020, 2, 2⟩
def LZE_EVENT_BLOCK_ERR : Fld := ⟨0x190020, 1, 1⟩
def LZE_EVENT_PUSH_LOST : Fld := ⟨0x190020, 0, 0⟩
def LZE_EVENT_EN_EN : Fld := ⟨0x190024, 3, 0⟩
def LZE_CNT_BLOCKS_BLOCKS : Fld := ⟨0x190030, 31, 0⟩
def LZE_CNT_STORED_STORED : Fld := ⟨0x190034, 31, 0⟩
def LZE_DONE_0_TAG (i : Nat) : Fld := ⟨0x190100 + 0x40 * i, 31, 16⟩
def LZE_DONE_0_FIRST_ERR (i : Nat) : Fld := ⟨0x190100 + 0x40 * i, 11, 8⟩
def LZE_DONE_0_RESULT (i : Nat) : Fld := ⟨0x190100 + 0x40 * i, 3, 0⟩
def LZE_DONE_1 (i : Nat) : Fld := ⟨0x190104 + 0x40 * i, 31, 0⟩
def LZE_DONE_2 (i : Nat) : Fld := ⟨0x190108 + 0x40 * i, 31, 0⟩
def LZE_DONE_3 (i : Nat) : Fld := ⟨0x19010C + 0x40 * i, 31, 0⟩
def LZE_DONE_4 (i : Nat) : Fld := ⟨0x190110 + 0x40 * i, 31, 0⟩
def LZE_DONE_5 (i : Nat) : Fld := ⟨0x190114 + 0x40 * i, 31, 0⟩
def LZE_DONE_6 (i : Nat) : Fld := ⟨0x190118 + 0x40 * i, 31, 0⟩
def LZE_DONE_7 (i : Nat) : Fld := ⟨0x19011C + 0x40 * i, 31, 0⟩
def LZE_DONE_POP_POP (i : Nat) : Fld := ⟨0x190120 + 0x40 * i, 0, 0⟩
def LZE_DONE_STAT_DROPPED (i : Nat) : Fld := ⟨0x190124 + 0x40 * i, 31, 16⟩
def LZE_DONE_STAT_COUNT (i : Nat) : Fld := ⟨0x190124 + 0x40 * i, 4, 0⟩
def MEM_CTRL_OP (i : Nat) : Fld := ⟨0x1A0000 + 0x4000 * i, 31, 28⟩
def MEM_STATUS_STATE (i : Nat) : Fld := ⟨0x1A0004 + 0x4000 * i, 31, 29⟩
def MEM_STATUS_HOT (i : Nat) : Fld := ⟨0x1A0004 + 0x4000 * i, 28, 28⟩
def MEM_STATUS_SWEEP_PC (i : Nat) : Fld := ⟨0x1A0004 + 0x4000 * i, 25, 16⟩
def MEM_STATUS_TEMP (i : Nat) : Fld := ⟨0x1A0004 + 0x4000 * i, 15, 0⟩
def MEM_PAGE_PREDICT (i : Nat) : Fld := ⟨0x1A0008 + 0x4000 * i, 31, 31⟩
def MEM_PAGE_HIT_LIMIT (i : Nat) : Fld := ⟨0x1A0008 + 0x4000 * i, 23, 16⟩
def MEM_PAGE_IDLE (i : Nat) : Fld := ⟨0x1A0008 + 0x4000 * i, 15, 0⟩
def MEM_WBUF_HIGH (i : Nat) : Fld := ⟨0x1A000C + 0x4000 * i, 13, 8⟩
def MEM_WBUF_LOW (i : Nat) : Fld := ⟨0x1A000C + 0x4000 * i, 5, 0⟩
def MEM_WIN_PERIOD_US (i : Nat) : Fld := ⟨0x1A0010 + 0x4000 * i, 15, 0⟩
def MEM_EVENT_WRITE_REJECT (i : Nat) : Fld := ⟨0x1A0020 + 0x4000 * i, 5, 5⟩
def MEM_EVENT_TRAIN_FAIL (i : Nat) : Fld := ⟨0x1A0020 + 0x4000 * i, 4, 4⟩
def MEM_EVENT_HOT (i : Nat) : Fld := ⟨0x1A0020 + 0x4000 * i, 3, 3⟩
def MEM_EVENT_RETRAINED (i : Nat) : Fld := ⟨0x1A0020 + 0x4000 * i, 2, 2⟩
def MEM_EVENT_UNCORR (i : Nat) : Fld := ⟨0x1A0020 + 0x4000 * i, 1, 1⟩
def MEM_EVENT_CORR (i : Nat) : Fld := ⟨0x1A0020 + 0x4000 * i, 0, 0⟩
def MEM_EVENT_EN_EN (i : Nat) : Fld := ⟨0x1A0024 + 0x4000 * i, 5, 0⟩
def MEM_CNT_RD_READS (i : Nat) : Fld := ⟨0x1A0030 + 0x4000 * i, 31, 0⟩
def MEM_CNT_WR_WRITES (i : Nat) : Fld := ⟨0x1A0034 + 0x4000 * i, 31, 0⟩
def MEM_CNT_HIT_HITS (i : Nat) : Fld := ⟨0x1A0038 + 0x4000 * i, 31, 0⟩
def MEM_CNT_MISS_MISSES (i : Nat) : Fld := ⟨0x1A003C + 0x4000 * i, 31, 0⟩
def MEM_CNT_REFPOST_POSTPONED (i : Nat) : Fld := ⟨0x1A0040 + 0x4000 * i, 31, 0⟩
def MEM_CNT_CORR_COUNT (i : Nat) : Fld := ⟨0x1A0044 + 0x4000 * i, 31, 0⟩
def MEM_CNT_UNCORR_COUNT (i : Nat) : Fld := ⟨0x1A0048 + 0x4000 * i, 31, 0⟩
def MEM_UNCORR_ADDR_LO (i : Nat) : Fld := ⟨0x1A004C + 0x4000 * i, 31, 0⟩
def MEM_UNCORR_ADDR_HI (i : Nat) : Fld := ⟨0x1A0050 + 0x4000 * i, 5, 0⟩
def MEM_BE_AGE_NS : Fld := ⟨0x1B8000, 15, 0⟩
def MEM_QSTATUS_OVERBOOKED : Fld := ⟨0x1B8004, 31, 31⟩
def MEM_QSTATUS_SUM : Fld := ⟨0x1B8004, 12, 0⟩
def MEM_QEVENT_OVERBOOK : Fld := ⟨0x1B8008, 0, 0⟩
def MEM_XLATE_LO : Fld := ⟨0x1B8010, 31, 0⟩
def MEM_XLATE_HI : Fld := ⟨0x1B8014, 5, 0⟩
def MEM_XLATE_OUT_0_C : Fld := ⟨0x1B8018, 31, 29⟩
def MEM_XLATE_OUT_0_CH : Fld := ⟨0x1B8018, 28, 25⟩
def MEM_XLATE_OUT_0_PC : Fld := ⟨0x1B8018, 24, 24⟩
def MEM_XLATE_OUT_0_SID : Fld := ⟨0x1B8018, 23, 22⟩
def MEM_XLATE_OUT_0_BK : Fld := ⟨0x1B8018, 21, 18⟩
def MEM_XLATE_OUT_0_COL : Fld := ⟨0x1B8018, 17, 16⟩
def MEM_XLATE_OUT_0_INVALID : Fld := ⟨0x1B8018, 0, 0⟩
def MEM_XLATE_OUT_1_ROW : Fld := ⟨0x1B801C, 13, 0⟩
def MEM_QUAY_BASE (i : Nat) : Fld := ⟨0x1B8100 + 0x10 * i, 31, 30⟩
def MEM_QUAY_HOLD (i : Nat) : Fld := ⟨0x1B8100 + 0x10 * i, 29, 29⟩
def MEM_QUAY_RESERVE (i : Nat) : Fld := ⟨0x1B8100 + 0x10 * i, 23, 16⟩
def MEM_QUAY_TARGET_NS (i : Nat) : Fld := ⟨0x1B8100 + 0x10 * i, 15, 0⟩
def MEM_QUAY_LATE_LATE (i : Nat) : Fld := ⟨0x1B8104 + 0x10 * i, 31, 0⟩
def MEM_QUAY_MAX_NS (i : Nat) : Fld := ⟨0x1B8108 + 0x10 * i, 15, 0⟩
def SCN_CTRL_OP : Fld := ⟨0x1C0000, 31, 28⟩
def SCN_STATUS_STATE : Fld := ⟨0x1C0004, 31, 30⟩
def SCN_STATUS_ACTIVE : Fld := ⟨0x1C0004, 9, 0⟩
def SCN_EVENT_LOAD_BUSY : Fld := ⟨0x1C0010, 5, 5⟩
def SCN_EVENT_LOAD_DONE : Fld := ⟨0x1C0010, 4, 4⟩
def SCN_EVENT_BERTH : Fld := ⟨0x1C0010, 3, 3⟩
def SCN_EVENT_UNDERRUN : Fld := ⟨0x1C0010, 2, 2⟩
def SCN_EVENT_BAD_CFG : Fld := ⟨0x1C0010, 1, 1⟩
def SCN_EVENT_WRITE_REJECT : Fld := ⟨0x1C0010, 0, 0⟩
def SCN_EVENT_EN_EN : Fld := ⟨0x1C0014, 5, 0⟩
def SCN_LOAD_SRC_HANDLE : Fld := ⟨0x1C0020, 15, 0⟩
def SCN_LOAD_LEN_BYTES : Fld := ⟨0x1C0024, 31, 0⟩
def SCN_LOAD_DST_REGION : Fld := ⟨0x1C0028, 5, 0⟩
def SCN_LOAD_CMD_BUSY : Fld := ⟨0x1C002C, 31, 31⟩
def SCN_LOAD_CMD_RESULT : Fld := ⟨0x1C002C, 30, 28⟩
def SCN_LOAD_CMD_GO : Fld := ⟨0x1C002C, 0, 0⟩
def SCN_FS_REGION_SIZE (i : Nat) : Fld := ⟨0x1C0100 + 0x4 * i, 26, 16⟩
def SCN_FS_REGION_BASE (i : Nat) : Fld := ⟨0x1C0100 + 0x4 * i, 10, 0⟩
def SCN_HEAD_CFG_EN (i : Nat) : Fld := ⟨0x1C1000 + 0x100 * i, 31, 31⟩
def SCN_HEAD_CFG_QUAD (i : Nat) : Fld := ⟨0x1C1000 + 0x100 * i, 30, 30⟩
def SCN_HEAD_CFG_PSR (i : Nat) : Fld := ⟨0x1C1000 + 0x100 * i, 29, 29⟩
def SCN_HEAD_CFG_RASTER (i : Nat) : Fld := ⟨0x1C1000 + 0x100 * i, 27, 24⟩
def SCN_HEAD_CFG_RATE (i : Nat) : Fld := ⟨0x1C1000 + 0x100 * i, 19, 16⟩
def SCN_HEAD_CFG_TC (i : Nat) : Fld := ⟨0x1C1000 + 0x100 * i, 13, 12⟩
def SCN_HEAD_CFG_PSR_N (i : Nat) : Fld := ⟨0x1C1000 + 0x100 * i, 11, 8⟩
def SCN_HEAD_CFG_WAKE (i : Nat) : Fld := ⟨0x1C1000 + 0x100 * i, 7, 0⟩
def SCN_HEAD_OFFSET (i : Nat) : Fld := ⟨0x1C1004 + 0x100 * i, 31, 0⟩
def SCN_HEAD_BG_0_BG_1 (i : Nat) : Fld := ⟨0x1C1008 + 0x100 * i, 31, 16⟩
def SCN_HEAD_BG_0_BG_0 (i : Nat) : Fld := ⟨0x1C1008 + 0x100 * i, 15, 0⟩
def SCN_HEAD_BG_1_BG_2 (i : Nat) : Fld := ⟨0x1C100C + 0x100 * i, 15, 0⟩
def SCN_VF_LINK_RATE_MBPS (i : Nat) : Fld := ⟨0x1C1010 + 0x100 * i, 28, 16⟩
def SCN_VF_LINK_LANES (i : Nat) : Fld := ⟨0x1C1010 + 0x100 * i, 9, 8⟩
def SCN_VF_LINK_DEPTH (i : Nat) : Fld := ⟨0x1C1010 + 0x100 * i, 0, 0⟩
def SCN_VF_SIZE_H_M1 (i : Nat) : Fld := ⟨0x1C1014 + 0x100 * i, 27, 16⟩
def SCN_VF_SIZE_W_M1 (i : Nat) : Fld := ⟨0x1C1014 + 0x100 * i, 11, 0⟩
def SCN_VF_VB_VB (i : Nat) : Fld := ⟨0x1C1018 + 0x100 * i, 7, 0⟩
def SCN_HEAD_TC_TC (i : Nat) : Fld := ⟨0x1C101C + 0x100 * i, 31, 0⟩
def SCN_HEAD_LATCH_FRAME_FRAME (i : Nat) : Fld := ⟨0x1C1020 + 0x100 * i, 31, 0⟩
def SCN_HEAD_LATCH_EPOCH_EPOCH (i : Nat) : Fld := ⟨0x1C1024 + 0x100 * i, 15, 0⟩
def SCN_HEAD_LATCH_TIDE_LO (i : Nat) : Fld := ⟨0x1C1028 + 0x100 * i, 31, 0⟩
def SCN_HEAD_LATCH_TIDE_HI (i : Nat) : Fld := ⟨0x1C102C + 0x100 * i, 15, 0⟩
def SCN_HEAD_UNDERRUN_LINES (i : Nat) : Fld := ⟨0x1C1030 + 0x100 * i, 31, 16⟩
def SCN_HEAD_UNDERRUN_FRAMES (i : Nat) : Fld := ⟨0x1C1030 + 0x100 * i, 15, 0⟩
def SCN_HEAD_CRC_CRC (i : Nat) : Fld := ⟨0x1C1034 + 0x100 * i, 31, 0⟩
def SCN_HEAD_STATUS_STATE (i : Nat) : Fld := ⟨0x1C1038 + 0x100 * i, 31, 30⟩
def SCN_HEAD_STATUS_UNDERRUN_FRAME (i : Nat) : Fld := ⟨0x1C1038 + 0x100 * i, 29, 29⟩
def SCN_HEAD_STATUS_LINE (i : Nat) : Fld := ⟨0x1C1038 + 0x100 * i, 12, 0⟩
def SCN_LAYER_CFG_EN (i : Nat) : Fld := ⟨0x1C2000 + 0x80 * i, 31, 31⟩
def SCN_LAYER_CFG_FOLLOW (i : Nat) : Fld := ⟨0x1C2000 + 0x80 * i, 30, 30⟩
def SCN_LAYER_CFG_RACE (i : Nat) : Fld := ⟨0x1C2000 + 0x80 * i, 29, 29⟩
def SCN_LAYER_CFG_KEY_EN (i : Nat) : Fld := ⟨0x1C2000 + 0x80 * i, 28, 28⟩
def SCN_LAYER_CFG_HEAD (i : Nat) : Fld := ⟨0x1C2000 + 0x80 * i, 27, 24⟩
def SCN_LAYER_CFG_SRC (i : Nat) : Fld := ⟨0x1C2000 + 0x80 * i, 23, 22⟩
def SCN_LAYER_CFG_ZY_M1 (i : Nat) : Fld := ⟨0x1C2000 + 0x80 * i, 21, 20⟩
def SCN_LAYER_CFG_ZX_M1 (i : Nat) : Fld := ⟨0x1C2000 + 0x80 * i, 19, 18⟩
def SCN_LAYER_CFG_KIND (i : Nat) : Fld := ⟨0x1C2000 + 0x80 * i, 15, 12⟩
def SCN_LAYER_CFG_FMT (i : Nat) : Fld := ⟨0x1C2000 + 0x80 * i, 11, 0⟩
def SCN_LAYER_FOLLOW_STREAM (i : Nat) : Fld := ⟨0x1C2004 + 0x80 * i, 11, 0⟩
def SCN_LAYER_SRC_STRIDE (i : Nat) : Fld := ⟨0x1C2008 + 0x80 * i, 31, 22⟩
def SCN_LAYER_SRC_REGION (i : Nat) : Fld := ⟨0x1C2008 + 0x80 * i, 21, 16⟩
def SCN_LAYER_SRC_HANDLE (i : Nat) : Fld := ⟨0x1C2008 + 0x80 * i, 15, 0⟩
def SCN_LAYER_SRC_XY_SRC_Y (i : Nat) : Fld := ⟨0x1C200C + 0x80 * i, 30, 16⟩
def SCN_LAYER_SRC_XY_SRC_X (i : Nat) : Fld := ⟨0x1C200C + 0x80 * i, 14, 0⟩
def SCN_LAYER_SRC_WH_SRC_H_M1 (i : Nat) : Fld := ⟨0x1C2010 + 0x80 * i, 30, 16⟩
def SCN_LAYER_SRC_WH_SRC_W_M1 (i : Nat) : Fld := ⟨0x1C2010 + 0x80 * i, 14, 0⟩
def SCN_LAYER_DST_XY_DST_Y (i : Nat) : Fld := ⟨0x1C2014 + 0x80 * i, 30, 16⟩
def SCN_LAYER_DST_XY_DST_X (i : Nat) : Fld := ⟨0x1C2014 + 0x80 * i, 14, 0⟩
def SCN_LAYER_ALPHA (i : Nat) : Fld := ⟨0x1C2018 + 0x80 * i, 8, 0⟩
def SCN_LAYER_KEY_0_KEY_1 (i : Nat) : Fld := ⟨0x1C201C + 0x80 * i, 31, 16⟩
def SCN_LAYER_KEY_0_KEY_0 (i : Nat) : Fld := ⟨0x1C201C + 0x80 * i, 15, 0⟩
def SCN_LAYER_KEY_1_KEY_2 (i : Nat) : Fld := ⟨0x1C2020 + 0x80 * i, 15, 0⟩
def SCN_LAYER_PUSH_HANDLE (i : Nat) : Fld := ⟨0x1C2024 + 0x80 * i, 15, 0⟩
def SCN_LAYER_STATUS_CURRENT (i : Nat) : Fld := ⟨0x1C2028 + 0x80 * i, 31, 16⟩
def SCN_LAYER_STATUS_COUNT (i : Nat) : Fld := ⟨0x1C2028 + 0x80 * i, 2, 0⟩
def SCN_LAYER_CNT_SKIPPED (i : Nat) : Fld := ⟨0x1C202C + 0x80 * i, 31, 16⟩
def SCN_LAYER_CNT_PUSH_LOST (i : Nat) : Fld := ⟨0x1C202C + 0x80 * i, 15, 0⟩
def PCX_CTRL_OP (i : Nat) : Fld := ⟨0x1D0000 + 0x1000 * i, 31, 28⟩
def PCX_CTRL_MODE (i : Nat) : Fld := ⟨0x1D0000 + 0x1000 * i, 8, 8⟩
def PCX_CTRL_BIFUR (i : Nat) : Fld := ⟨0x1D0000 + 0x1000 * i, 5, 4⟩
def PCX_CTRL_MAX_GEN (i : Nat) : Fld := ⟨0x1D0000 + 0x1000 * i, 2, 0⟩
def PCX_STATUS_STATE (i : Nat) : Fld := ⟨0x1D0004 + 0x1000 * i, 31, 30⟩
def PCX_STATUS_LINKS_UP (i : Nat) : Fld := ⟨0x1D0004 + 0x1000 * i, 3, 0⟩
def PCX_LINK_UP (i j : Nat) : Fld := ⟨0x1D0010 + 0x1000 * i + 0x4 * j, 31, 31⟩
def PCX_LINK_REVERSED (i j : Nat) : Fld := ⟨0x1D0010 + 0x1000 * i + 0x4 * j, 30, 30⟩
def PCX_LINK_GEN (i j : Nat) : Fld := ⟨0x1D0010 + 0x1000 * i + 0x4 * j, 18, 16⟩
def PCX_LINK_WIDTH (i j : Nat) : Fld := ⟨0x1D0010 + 0x1000 * i + 0x4 * j, 12, 8⟩
def PCX_AER_UNCORR (i : Nat) : Fld := ⟨0x1D0020 + 0x1000 * i, 31, 16⟩
def PCX_AER_CORR (i : Nat) : Fld := ⟨0x1D0020 + 0x1000 * i, 15, 0⟩
def PCX_EVENT_JOB_FAIL (i : Nat) : Fld := ⟨0x1D0030 + 0x1000 * i, 3, 3⟩
def PCX_EVENT_DRIVE_FAULT (i : Nat) : Fld := ⟨0x1D0030 + 0x1000 * i, 2, 2⟩
def PCX_EVENT_LINK_DOWN (i : Nat) : Fld := ⟨0x1D0030 + 0x1000 * i, 1, 1⟩
def PCX_EVENT_WRITE_REJECT (i : Nat) : Fld := ⟨0x1D0030 + 0x1000 * i, 0, 0⟩
def PCX_EVENT_EN_EN (i : Nat) : Fld := ⟨0x1D0034 + 0x1000 * i, 3, 0⟩
def PCX_EP_BAR2_SIZE_LOG2 (i : Nat) : Fld := ⟨0x1D0040 + 0x1000 * i, 5, 0⟩
def PCX_EP_WIN_HANDLE (i j : Nat) : Fld := ⟨0x1D0050 + 0x1000 * i + 0x4 * j, 15, 0⟩
def PCX_EP_IRQ_VECTORS (i : Nat) : Fld := ⟨0x1D0060 + 0x1000 * i, 31, 0⟩
def PCX_DRV_CTRL_OP (i : Nat) : Fld := ⟨0x1D2000 + 0x100 * i, 31, 28⟩
def PCX_DRV_CTRL_PORT (i : Nat) : Fld := ⟨0x1D2000 + 0x100 * i, 8, 8⟩
def PCX_DRV_CTRL_LINK (i : Nat) : Fld := ⟨0x1D2000 + 0x100 * i, 1, 0⟩
def PCX_DRV_NSID_NSID (i : Nat) : Fld := ⟨0x1D2004 + 0x100 * i, 31, 0⟩
def PCX_DRV_STATUS_STATE (i : Nat) : Fld := ⟨0x1D2008 + 0x100 * i, 31, 29⟩
def PCX_DRV_STATUS_RESULT (i : Nat) : Fld := ⟨0x1D2008 + 0x100 * i, 27, 24⟩
def PCX_DRV_STATUS_VWC (i : Nat) : Fld := ⟨0x1D2008 + 0x100 * i, 23, 23⟩
def PCX_DRV_BLOCKS_LO (i : Nat) : Fld := ⟨0x1D200C + 0x100 * i, 31, 0⟩
def PCX_DRV_BLOCKS_HI (i : Nat) : Fld := ⟨0x1D2010 + 0x100 * i, 31, 0⟩
def PCX_DRV_MDTS (i : Nat) : Fld := ⟨0x1D2014 + 0x100 * i, 31, 0⟩
def PCX_DRV_ERR_TIMEOUTS (i : Nat) : Fld := ⟨0x1D2018 + 0x100 * i, 31, 16⟩
def PCX_DRV_ERR_STATUS (i : Nat) : Fld := ⟨0x1D2018 + 0x100 * i, 15, 0⟩
def PCX_DRV_TIMEOUT_MS (i : Nat) : Fld := ⟨0x1D201C + 0x100 * i, 15, 0⟩
def PCX_DRV_SERIAL_0 (i : Nat) : Fld := ⟨0x1D2020 + 0x100 * i, 31, 0⟩
def PCX_DRV_SERIAL_1 (i : Nat) : Fld := ⟨0x1D2024 + 0x100 * i, 31, 0⟩
def PCX_DRV_SERIAL_2 (i : Nat) : Fld := ⟨0x1D2028 + 0x100 * i, 31, 0⟩
def PCX_DRV_SERIAL_3 (i : Nat) : Fld := ⟨0x1D202C + 0x100 * i, 31, 0⟩
def PCX_DRV_SERIAL_4 (i : Nat) : Fld := ⟨0x1D2030 + 0x100 * i, 31, 0⟩
def PCX_VOL_CTRL_OP (i : Nat) : Fld := ⟨0x1D3000 + 0x100 * i, 31, 28⟩
def PCX_VOL_CTRL_HOME (i : Nat) : Fld := ⟨0x1D3000 + 0x100 * i, 24, 24⟩
def PCX_VOL_CTRL_STRIPE_LOG2 (i : Nat) : Fld := ⟨0x1D3000 + 0x100 * i, 19, 16⟩
def PCX_VOL_CTRL_DRIVES (i : Nat) : Fld := ⟨0x1D3000 + 0x100 * i, 7, 0⟩
def PCX_VOL_STATUS_STATE (i : Nat) : Fld := ⟨0x1D3004 + 0x100 * i, 31, 29⟩
def PCX_VOL_STATUS_RESULT (i : Nat) : Fld := ⟨0x1D3004 + 0x100 * i, 27, 24⟩
def PCX_VOL_STATUS_D (i : Nat) : Fld := ⟨0x1D3004 + 0x100 * i, 19, 16⟩
def PCX_VOL_STATUS_QUEUED (i : Nat) : Fld := ⟨0x1D3004 + 0x100 * i, 5, 0⟩
def PCX_VOL_ID_LO (i : Nat) : Fld := ⟨0x1D3008 + 0x100 * i, 31, 0⟩
def PCX_VOL_ID_HI (i : Nat) : Fld := ⟨0x1D300C + 0x100 * i, 31, 0⟩
def PCX_VOL_TAIL_LO (i : Nat) : Fld := ⟨0x1D3010 + 0x100 * i, 31, 0⟩
def PCX_VOL_TAIL_HI (i : Nat) : Fld := ⟨0x1D3014 + 0x100 * i, 31, 0⟩
def PCX_VOL_CHUNK_LO (i : Nat) : Fld := ⟨0x1D3018 + 0x100 * i, 31, 0⟩
def PCX_VOL_CHUNK_HI (i : Nat) : Fld := ⟨0x1D301C + 0x100 * i, 31, 0⟩
def PCX_VOL_CAP_LO (i : Nat) : Fld := ⟨0x1D3020 + 0x100 * i, 31, 0⟩
def PCX_VOL_CAP_HI (i : Nat) : Fld := ⟨0x1D3024 + 0x100 * i, 31, 0⟩
def PCX_VOL_PUSH_INDEX (i : Nat) : Fld := ⟨0x1D3028 + 0x100 * i, 31, 16⟩
def PCX_VOL_PUSH_HANDLE (i : Nat) : Fld := ⟨0x1D3028 + 0x100 * i, 15, 0⟩
def PCX_VOL_QUEUE_LOST (i : Nat) : Fld := ⟨0x1D302C + 0x100 * i, 31, 16⟩
def PCX_VOL_GEN_GEN (i : Nat) : Fld := ⟨0x1D3030 + 0x100 * i, 31, 0⟩
def PCX_VOL_MAP_MAP (i : Nat) : Fld := ⟨0x1D3034 + 0x100 * i, 31, 0⟩
def PCX_VOL_TIMEOUT_MS (i : Nat) : Fld := ⟨0x1D3038 + 0x100 * i, 15, 0⟩
def NET_CTRL_OP (i : Nat) : Fld := ⟨0x1E0000 + 0x4000 * i, 31, 28⟩
def NET_CTRL_FEC (i : Nat) : Fld := ⟨0x1E0000 + 0x4000 * i, 4, 4⟩
def NET_CTRL_MODE (i : Nat) : Fld := ⟨0x1E0000 + 0x4000 * i, 1, 0⟩
def NET_MTU_MTU (i : Nat) : Fld := ⟨0x1E0004 + 0x4000 * i, 13, 0⟩
def NET_STATUS_STATE (i : Nat) : Fld := ⟨0x1E0008 + 0x4000 * i, 31, 30⟩
def NET_STATUS_FEC_LOCK (i : Nat) : Fld := ⟨0x1E0008 + 0x4000 * i, 1, 1⟩
def NET_STATUS_LINK (i : Nat) : Fld := ⟨0x1E0008 + 0x4000 * i, 0, 0⟩
def NET_MAC_LO (i : Nat) : Fld := ⟨0x1E0010 + 0x4000 * i, 31, 0⟩
def NET_MAC_HI (i : Nat) : Fld := ⟨0x1E0014 + 0x4000 * i, 15, 0⟩
def NET_IP4_ADDR (i : Nat) : Fld := ⟨0x1E0018 + 0x4000 * i, 31, 0⟩
def NET_GW4_GW (i : Nat) : Fld := ⟨0x1E001C + 0x4000 * i, 31, 0⟩
def NET_PREFIX_PREFIX6 (i : Nat) : Fld := ⟨0x1E0020 + 0x4000 * i, 13, 8⟩
def NET_PREFIX_PREFIX4 (i : Nat) : Fld := ⟨0x1E0020 + 0x4000 * i, 5, 0⟩
def NET_IP6_0 (i : Nat) : Fld := ⟨0x1E0030 + 0x4000 * i, 31, 0⟩
def NET_IP6_1 (i : Nat) : Fld := ⟨0x1E0034 + 0x4000 * i, 31, 0⟩
def NET_IP6_2 (i : Nat) : Fld := ⟨0x1E0038 + 0x4000 * i, 31, 0⟩
def NET_IP6_3 (i : Nat) : Fld := ⟨0x1E003C + 0x4000 * i, 31, 0⟩
def NET_GW6_0 (i : Nat) : Fld := ⟨0x1E0040 + 0x4000 * i, 31, 0⟩
def NET_GW6_1 (i : Nat) : Fld := ⟨0x1E0044 + 0x4000 * i, 31, 0⟩
def NET_GW6_2 (i : Nat) : Fld := ⟨0x1E0048 + 0x4000 * i, 31, 0⟩
def NET_GW6_3 (i : Nat) : Fld := ⟨0x1E004C + 0x4000 * i, 31, 0⟩
def NET_EVENT_WRITE_REJECT (i : Nat) : Fld := ⟨0x1E0060 + 0x4000 * i, 5, 5⟩
def NET_EVENT_OVERRUN (i : Nat) : Fld := ⟨0x1E0060 + 0x4000 * i, 4, 4⟩
def NET_EVENT_RX_INCOMPLETE (i : Nat) : Fld := ⟨0x1E0060 + 0x4000 * i, 3, 3⟩
def NET_EVENT_NEIGH (i : Nat) : Fld := ⟨0x1E0060 + 0x4000 * i, 2, 2⟩
def NET_EVENT_PUSH_LOST (i : Nat) : Fld := ⟨0x1E0060 + 0x4000 * i, 1, 1⟩
def NET_EVENT_LINK_DOWN (i : Nat) : Fld := ⟨0x1E0060 + 0x4000 * i, 0, 0⟩
def NET_EVENT_EN_EN (i : Nat) : Fld := ⟨0x1E0064 + 0x4000 * i, 5, 0⟩
def NET_CNT_RX_NEIGH_FAIL (i : Nat) : Fld := ⟨0x1E0070 + 0x4000 * i, 31, 16⟩
def NET_CNT_RX_DISCARD (i : Nat) : Fld := ⟨0x1E0070 + 0x4000 * i, 15, 0⟩
def NET_CNT_FEC_FEC_ERR (i : Nat) : Fld := ⟨0x1E0074 + 0x4000 * i, 31, 0⟩
def NET_TX_CFG_EN (i j : Nat) : Fld := ⟨0x1E1000 + 0x4000 * i + 0x40 * j, 31, 31⟩
def NET_TX_CFG_PRIO (i j : Nat) : Fld := ⟨0x1E1000 + 0x4000 * i + 0x40 * j, 29, 28⟩
def NET_TX_CFG_TS (i j : Nat) : Fld := ⟨0x1E1000 + 0x4000 * i + 0x40 * j, 27, 27⟩
def NET_TX_CFG_SRC (i j : Nat) : Fld := ⟨0x1E1000 + 0x4000 * i + 0x40 * j, 26, 26⟩
def NET_TX_CFG_FOLLOW (i j : Nat) : Fld := ⟨0x1E1000 + 0x4000 * i + 0x40 * j, 25, 25⟩
def NET_TX_CFG_V6 (i j : Nat) : Fld := ⟨0x1E1000 + 0x4000 * i + 0x40 * j, 24, 24⟩
def NET_TX_CFG_KIND (i j : Nat) : Fld := ⟨0x1E1000 + 0x4000 * i + 0x40 * j, 23, 20⟩
def NET_TX_CFG_STREAM (i j : Nat) : Fld := ⟨0x1E1000 + 0x4000 * i + 0x40 * j, 11, 0⟩
def NET_TX_DST_0 (i j : Nat) : Fld := ⟨0x1E1004 + 0x4000 * i + 0x40 * j, 31, 0⟩
def NET_TX_DST_1 (i j : Nat) : Fld := ⟨0x1E1008 + 0x4000 * i + 0x40 * j, 31, 0⟩
def NET_TX_DST_2 (i j : Nat) : Fld := ⟨0x1E100C + 0x4000 * i + 0x40 * j, 31, 0⟩
def NET_TX_DST_3 (i j : Nat) : Fld := ⟨0x1E1010 + 0x4000 * i + 0x40 * j, 31, 0⟩
def NET_TX_PORTS_DPORT (i j : Nat) : Fld := ⟨0x1E1014 + 0x4000 * i + 0x40 * j, 31, 16⟩
def NET_TX_PORTS_SPORT (i j : Nat) : Fld := ⟨0x1E1014 + 0x4000 * i + 0x40 * j, 15, 0⟩
def NET_TX_TAG_VLAN_EN (i j : Nat) : Fld := ⟨0x1E1018 + 0x4000 * i + 0x40 * j, 31, 31⟩
def NET_TX_TAG_PCP (i j : Nat) : Fld := ⟨0x1E1018 + 0x4000 * i + 0x40 * j, 30, 28⟩
def NET_TX_TAG_VID (i j : Nat) : Fld := ⟨0x1E1018 + 0x4000 * i + 0x40 * j, 27, 16⟩
def NET_TX_TAG_DSCP (i j : Nat) : Fld := ⟨0x1E1018 + 0x4000 * i + 0x40 * j, 5, 0⟩
def NET_TX_RATE_MBPS (i j : Nat) : Fld := ⟨0x1E101C + 0x4000 * i + 0x40 * j, 31, 0⟩
def NET_TX_LEN (i j : Nat) : Fld := ⟨0x1E1020 + 0x4000 * i + 0x40 * j, 31, 0⟩
def NET_TX_PUSH_HANDLE (i j : Nat) : Fld := ⟨0x1E1024 + 0x4000 * i + 0x40 * j, 15, 0⟩
def NET_TX_STATUS_LOST (i j : Nat) : Fld := ⟨0x1E1028 + 0x4000 * i + 0x40 * j, 31, 24⟩
def NET_TX_STATUS_COUNT (i j : Nat) : Fld := ⟨0x1E1028 + 0x4000 * i + 0x40 * j, 3, 0⟩
def NET_TX_CNT_LATE (i j : Nat) : Fld := ⟨0x1E102C + 0x4000 * i + 0x40 * j, 31, 16⟩
def NET_TX_CNT_OBJECTS (i j : Nat) : Fld := ⟨0x1E102C + 0x4000 * i + 0x40 * j, 15, 0⟩
def NET_RX_CFG_EN (i j : Nat) : Fld := ⟨0x1E2000 + 0x4000 * i + 0x40 * j, 31, 31⟩
def NET_RX_CFG_ORIGIN_EN (i j : Nat) : Fld := ⟨0x1E2000 + 0x4000 * i + 0x40 * j, 30, 30⟩
def NET_RX_CFG_ORIGIN (i j : Nat) : Fld := ⟨0x1E2000 + 0x4000 * i + 0x40 * j, 26, 16⟩
def NET_RX_CFG_MATCH (i j : Nat) : Fld := ⟨0x1E2000 + 0x4000 * i + 0x40 * j, 11, 0⟩
def NET_RX_MATCH_PORT (i j : Nat) : Fld := ⟨0x1E2004 + 0x4000 * i + 0x40 * j, 31, 16⟩
def NET_RX_MATCH_LOCAL (i j : Nat) : Fld := ⟨0x1E2004 + 0x4000 * i + 0x40 * j, 11, 0⟩
def NET_RX_DOMAIN_DOMAIN (i j : Nat) : Fld := ⟨0x1E2008 + 0x4000 * i + 0x40 * j, 20, 16⟩
def NET_RX_TIMEOUT_US (i j : Nat) : Fld := ⟨0x1E200C + 0x4000 * i + 0x40 * j, 31, 0⟩
def NET_RX_PUSH_HANDLE (i j : Nat) : Fld := ⟨0x1E2010 + 0x4000 * i + 0x40 * j, 15, 0⟩
def NET_RX_STATUS_NO_BERTH (i j : Nat) : Fld := ⟨0x1E2014 + 0x4000 * i + 0x40 * j, 31, 16⟩
def NET_RX_STATUS_COUNT (i j : Nat) : Fld := ⟨0x1E2014 + 0x4000 * i + 0x40 * j, 3, 0⟩
def NET_RX_CNT_INCOMPLETE (i j : Nat) : Fld := ⟨0x1E2018 + 0x4000 * i + 0x40 * j, 31, 16⟩
def NET_RX_CNT_GAP (i j : Nat) : Fld := ⟨0x1E2018 + 0x4000 * i + 0x40 * j, 15, 0⟩
def NET_HCP_TIMEOUT_MS : Fld := ⟨0x1E8000, 31, 16⟩
def NET_HCP_PORT : Fld := ⟨0x1E8000, 15, 0⟩
def NET_ARRAY_GROUP_GROUP : Fld := ⟨0x1E8004, 31, 0⟩
def NET_ARRAY_SPREAD_NS : Fld := ⟨0x1E8008, 15, 8⟩
def NET_ARRAY_SESSION : Fld := ⟨0x1E8008, 2, 0⟩
def NET_HCP_SEND_TYPE : Fld := ⟨0x1E8010, 31, 24⟩
def NET_HCP_SEND_SESSION : Fld := ⟨0x1E8010, 2, 0⟩
def NET_HCP_SEND_BODY_LO : Fld := ⟨0x1E8014, 31, 0⟩
def NET_HCP_SEND_BODY_HI : Fld := ⟨0x1E8018, 31, 0⟩
def NET_HCP_CNT_AUTH : Fld := ⟨0x1E8020, 31, 16⟩
def NET_HCP_CNT_DUP : Fld := ⟨0x1E8020, 15, 0⟩
def NET_HCP_SESS_STATE (i : Nat) : Fld := ⟨0x1E8040 + 0x4 * i, 31, 30⟩
def NET_HCP_SESS_PORT (i : Nat) : Fld := ⟨0x1E8040 + 0x4 * i, 29, 29⟩
def NET_HCP_SESS_IDLE_MS (i : Nat) : Fld := ⟨0x1E8040 + 0x4 * i, 15, 0⟩
def AUD_SCG_CFG_EN (i : Nat) : Fld := ⟨0x1F0100 + 0x20 * i, 31, 31⟩
def AUD_SCG_CFG_RATE (i : Nat) : Fld := ⟨0x1F0100 + 0x20 * i, 10, 8⟩
def AUD_SCG_CFG_DOMAIN (i : Nat) : Fld := ⟨0x1F0100 + 0x20 * i, 5, 4⟩
def AUD_SCG_CFG_CLK (i : Nat) : Fld := ⟨0x1F0100 + 0x20 * i, 1, 0⟩
def AUD_SCG_SLEW_RATE (i : Nat) : Fld := ⟨0x1F0104 + 0x20 * i, 9, 0⟩
def AUD_SCG_STATUS_STATE (i : Nat) : Fld := ⟨0x1F0108 + 0x20 * i, 31, 30⟩
def AUD_SCG_STATUS_LOSS (i : Nat) : Fld := ⟨0x1F0108 + 0x20 * i, 15, 0⟩
def AUD_CTRL_OP (i : Nat) : Fld := ⟨0x1F1000 + 0x100 * i, 31, 28⟩
def AUD_CFG_DIR (i : Nat) : Fld := ⟨0x1F1004 + 0x100 * i, 31, 31⟩
def AUD_CFG_ROLE (i : Nat) : Fld := ⟨0x1F1004 + 0x100 * i, 30, 30⟩
def AUD_CFG_FORMAT (i : Nat) : Fld := ⟨0x1F1004 + 0x100 * i, 29, 28⟩
def AUD_CFG_DELAY (i : Nat) : Fld := ⟨0x1F1004 + 0x100 * i, 27, 27⟩
def AUD_CFG_SLOTS_M1 (i : Nat) : Fld := ⟨0x1F1004 + 0x100 * i, 19, 16⟩
def AUD_CFG_SLOT_W (i : Nat) : Fld := ⟨0x1F1004 + 0x100 * i, 13, 12⟩
def AUD_CFG_DATA_W (i : Nat) : Fld := ⟨0x1F1004 + 0x100 * i, 9, 8⟩
def AUD_CFG_STORE (i : Nat) : Fld := ⟨0x1F1004 + 0x100 * i, 5, 4⟩
def AUD_CFG_GEN (i : Nat) : Fld := ⟨0x1F1004 + 0x100 * i, 1, 0⟩
def AUD_MASK_MASK (i : Nat) : Fld := ⟨0x1F1008 + 0x100 * i, 15, 0⟩
def AUD_BLOCK_ALIGN (i : Nat) : Fld := ⟨0x1F100C + 0x100 * i, 31, 31⟩
def AUD_BLOCK_FRAMES_M1 (i : Nat) : Fld := ⟨0x1F100C + 0x100 * i, 12, 0⟩
def AUD_ZC_EN (i : Nat) : Fld := ⟨0x1F1010 + 0x100 * i, 31, 31⟩
def AUD_ZC_TIMEOUT (i : Nat) : Fld := ⟨0x1F1010 + 0x100 * i, 15, 0⟩
def AUD_STREAM_DOMAIN (i : Nat) : Fld := ⟨0x1F1014 + 0x100 * i, 20, 16⟩
def AUD_STREAM_STREAM (i : Nat) : Fld := ⟨0x1F1014 + 0x100 * i, 11, 0⟩
def AUD_START_TIME_LO (i : Nat) : Fld := ⟨0x1F1018 + 0x100 * i, 31, 0⟩
def AUD_START_TIME_HI (i : Nat) : Fld := ⟨0x1F101C + 0x100 * i, 15, 0⟩
def AUD_PUSH_HANDLE (i : Nat) : Fld := ⟨0x1F1020 + 0x100 * i, 15, 0⟩
def AUD_STATUS_STATE (i : Nat) : Fld := ⟨0x1F1024 + 0x100 * i, 31, 30⟩
def AUD_STATUS_CLK_OK (i : Nat) : Fld := ⟨0x1F1024 + 0x100 * i, 29, 29⟩
def AUD_STATUS_COUNT (i : Nat) : Fld := ⟨0x1F1024 + 0x100 * i, 3, 0⟩
def AUD_EVENT_WRITE_REJECT (i : Nat) : Fld := ⟨0x1F1028 + 0x100 * i, 5, 5⟩
def AUD_EVENT_BAD_CFG (i : Nat) : Fld := ⟨0x1F1028 + 0x100 * i, 4, 4⟩
def AUD_EVENT_CLK_LOSS (i : Nat) : Fld := ⟨0x1F1028 + 0x100 * i, 3, 3⟩
def AUD_EVENT_NO_BERTH (i : Nat) : Fld := ⟨0x1F1028 + 0x100 * i, 2, 2⟩
def AUD_EVENT_UNDERRUN (i : Nat) : Fld := ⟨0x1F1028 + 0x100 * i, 1, 1⟩
def AUD_EVENT_PUSH_LOST (i : Nat) : Fld := ⟨0x1F1028 + 0x100 * i, 0, 0⟩
def AUD_EVENT_EN_EN (i : Nat) : Fld := ⟨0x1F102C + 0x100 * i, 5, 0⟩
def AUD_CNT_0_UNDERRUN (i : Nat) : Fld := ⟨0x1F1030 + 0x100 * i, 31, 0⟩
def AUD_CNT_1_NO_BERTH (i : Nat) : Fld := ⟨0x1F1034 + 0x100 * i, 31, 16⟩
def AUD_CNT_1_PUSH_LOST (i : Nat) : Fld := ⟨0x1F1034 + 0x100 * i, 15, 0⟩
def AUD_CNT_2_SLIP (i : Nat) : Fld := ⟨0x1F1038 + 0x100 * i, 31, 16⟩
def AUD_CNT_2_LATE_BLOCKS (i : Nat) : Fld := ⟨0x1F1038 + 0x100 * i, 15, 0⟩
def AUD_SEQ_SEQ (i : Nat) : Fld := ⟨0x1F103C + 0x100 * i, 31, 0⟩
def TWB_CTRL_OP (i : Nat) : Fld := ⟨0x1F8000 + 0x200 * i, 31, 28⟩
def TWB_CFG_RETRY (i : Nat) : Fld := ⟨0x1F8004 + 0x200 * i, 18, 16⟩
def TWB_CFG_WAKE (i : Nat) : Fld := ⟨0x1F8004 + 0x200 * i, 10, 10⟩
def TWB_CFG_GC (i : Nat) : Fld := ⟨0x1F8004 + 0x200 * i, 9, 9⟩
def TWB_CFG_TEN (i : Nat) : Fld := ⟨0x1F8004 + 0x200 * i, 8, 8⟩
def TWB_CFG_SPEED (i : Nat) : Fld := ⟨0x1F8004 + 0x200 * i, 5, 4⟩
def TWB_CFG_MODE (i : Nat) : Fld := ⟨0x1F8004 + 0x200 * i, 2, 0⟩
def TWB_OWN_ADDR_ADDR (i : Nat) : Fld := ⟨0x1F8008 + 0x200 * i, 9, 0⟩
def TWB_TIMING_STUCK_MS (i : Nat) : Fld := ⟨0x1F800C + 0x200 * i, 31, 16⟩
def TWB_TIMING_STRETCH_MS (i : Nat) : Fld := ⟨0x1F800C + 0x200 * i, 15, 0⟩
def TWB_XFER_GO (i : Nat) : Fld := ⟨0x1F8010 + 0x200 * i, 31, 31⟩
def TWB_XFER_TEN (i : Nat) : Fld := ⟨0x1F8010 + 0x200 * i, 30, 30⟩
def TWB_XFER_ADDR (i : Nat) : Fld := ⟨0x1F8010 + 0x200 * i, 25, 16⟩
def TWB_XFER_RD_LEN (i : Nat) : Fld := ⟨0x1F8010 + 0x200 * i, 11, 8⟩
def TWB_XFER_WR_LEN (i : Nat) : Fld := ⟨0x1F8010 + 0x200 * i, 3, 0⟩
def TWB_TXD_0 (i : Nat) : Fld := ⟨0x1F8014 + 0x200 * i, 31, 0⟩
def TWB_TXD_1 (i : Nat) : Fld := ⟨0x1F8018 + 0x200 * i, 31, 0⟩
def TWB_XFER_STATUS_BUSY (i : Nat) : Fld := ⟨0x1F801C + 0x200 * i, 31, 31⟩
def TWB_XFER_STATUS_RESULT (i : Nat) : Fld := ⟨0x1F801C + 0x200 * i, 27, 24⟩
def TWB_XFER_STATUS_BYTES (i : Nat) : Fld := ⟨0x1F801C + 0x200 * i, 3, 0⟩
def TWB_RXD_0 (i : Nat) : Fld := ⟨0x1F8020 + 0x200 * i, 31, 0⟩
def TWB_RXD_1 (i : Nat) : Fld := ⟨0x1F8024 + 0x200 * i, 31, 0⟩
def TWB_TGT_TXD_0 (i : Nat) : Fld := ⟨0x1F8028 + 0x200 * i, 31, 0⟩
def TWB_TGT_TXD_1 (i : Nat) : Fld := ⟨0x1F802C + 0x200 * i, 31, 0⟩
def TWB_TGT_LEN (i : Nat) : Fld := ⟨0x1F8030 + 0x200 * i, 3, 0⟩
def TWB_ALERT_GO (i : Nat) : Fld := ⟨0x1F8034 + 0x200 * i, 31, 31⟩
def TWB_ALERT_ALERT_ADDR (i : Nat) : Fld := ⟨0x1F8034 + 0x200 * i, 25, 16⟩
def TWB_ALERT_LEN (i : Nat) : Fld := ⟨0x1F8034 + 0x200 * i, 3, 0⟩
def TWB_ALERT_D_0 (i : Nat) : Fld := ⟨0x1F8038 + 0x200 * i, 31, 0⟩
def TWB_ALERT_D_1 (i : Nat) : Fld := ⟨0x1F803C + 0x200 * i, 31, 0⟩
def TWB_STATUS_STATE (i : Nat) : Fld := ⟨0x1F8040 + 0x200 * i, 31, 29⟩
def TWB_STATUS_BUS_BUSY (i : Nat) : Fld := ⟨0x1F8040 + 0x200 * i, 28, 28⟩
def TWB_STATUS_SCL (i : Nat) : Fld := ⟨0x1F8040 + 0x200 * i, 27, 27⟩
def TWB_STATUS_SDA (i : Nat) : Fld := ⟨0x1F8040 + 0x200 * i, 26, 26⟩
def TWB_STATUS_FAULT (i : Nat) : Fld := ⟨0x1F8040 + 0x200 * i, 2, 0⟩
def TWB_EVENT_WRITE_REJECT (i : Nat) : Fld := ⟨0x1F8044 + 0x200 * i, 8, 8⟩
def TWB_EVENT_ALERT_DONE (i : Nat) : Fld := ⟨0x1F8044 + 0x200 * i, 7, 7⟩
def TWB_EVENT_XFER_DONE (i : Nat) : Fld := ⟨0x1F8044 + 0x200 * i, 6, 6⟩
def TWB_EVENT_ARB_LOST (i : Nat) : Fld := ⟨0x1F8044 + 0x200 * i, 5, 5⟩
def TWB_EVENT_WAKE (i : Nat) : Fld := ⟨0x1F8044 + 0x200 * i, 4, 4⟩
def TWB_EVENT_CRC_ERR (i : Nat) : Fld := ⟨0x1F8044 + 0x200 * i, 3, 3⟩
def TWB_EVENT_FAULT (i : Nat) : Fld := ⟨0x1F8044 + 0x200 * i, 2, 2⟩
def TWB_EVENT_ISOLATED (i : Nat) : Fld := ⟨0x1F8044 + 0x200 * i, 1, 1⟩
def TWB_EVENT_NACK (i : Nat) : Fld := ⟨0x1F8044 + 0x200 * i, 0, 0⟩
def TWB_EVENT_EN_EN (i : Nat) : Fld := ⟨0x1F8048 + 0x200 * i, 8, 0⟩
def TWB_CNT_ARB_LOST (i : Nat) : Fld := ⟨0x1F804C + 0x200 * i, 31, 16⟩
def TWB_CNT_CRC (i : Nat) : Fld := ⟨0x1F804C + 0x200 * i, 15, 8⟩
def TWB_CNT_OVERREAD (i : Nat) : Fld := ⟨0x1F804C + 0x200 * i, 7, 0⟩
def GPIO_PAD_MODE (i : Nat) : Fld := ⟨0x1FC000 + 0x4 * i, 31, 29⟩
def GPIO_PAD_PULL (i : Nat) : Fld := ⟨0x1FC000 + 0x4 * i, 27, 26⟩
def GPIO_PAD_DRIVE (i : Nat) : Fld := ⟨0x1FC000 + 0x4 * i, 25, 24⟩
def GPIO_PAD_EDGE (i : Nat) : Fld := ⟨0x1FC000 + 0x4 * i, 17, 16⟩
def GPIO_PAD_FILTER (i : Nat) : Fld := ⟨0x1FC000 + 0x4 * i, 7, 0⟩
def GPIO_OUT_OUT (i : Nat) : Fld := ⟨0x1FC400 + 0x4 * i, 31, 0⟩
def GPIO_SET_SET (i : Nat) : Fld := ⟨0x1FC420 + 0x4 * i, 31, 0⟩
def GPIO_CLR_CLR (i : Nat) : Fld := ⟨0x1FC440 + 0x4 * i, 31, 0⟩
def GPIO_IN_IN (i : Nat) : Fld := ⟨0x1FC460 + 0x4 * i, 31, 0⟩
def GPIO_FAULT_FAULT (i : Nat) : Fld := ⟨0x1FC480 + 0x4 * i, 31, 0⟩
def GPIO_FAULT_KIND_LOW (i : Nat) : Fld := ⟨0x1FC4A0 + 0x4 * i, 31, 0⟩
def GPIO_EVENT_CONFLICT : Fld := ⟨0x1FC500, 1, 1⟩
def GPIO_EVENT_FAULT : Fld := ⟨0x1FC500, 0, 0⟩
def GPIO_EVENT_EN_EN : Fld := ⟨0x1FC504, 1, 0⟩
def GPIO_PROTECT_RETRY_MS : Fld := ⟨0x1FC510, 31, 16⟩
def GPIO_PROTECT_SETTLE : Fld := ⟨0x1FC510, 7, 0⟩
def GPIO_BANK_VIO_D : Fld := ⟨0x1FC514, 31, 24⟩
def GPIO_BANK_VIO_C : Fld := ⟨0x1FC514, 23, 16⟩
def GPIO_BANK_VIO_B : Fld := ⟨0x1FC514, 15, 8⟩
def GPIO_BANK_VIO_A : Fld := ⟨0x1FC514, 7, 0⟩
def EVT_MODE (i : Nat) : Fld := ⟨0x1FE000 + 0x40 * i, 31, 29⟩
def EVT_EDGE (i : Nat) : Fld := ⟨0x1FE000 + 0x40 * i, 28, 27⟩
def EVT_DOMAIN (i : Nat) : Fld := ⟨0x1FE000 + 0x40 * i, 26, 25⟩
def EVT_OWN (i : Nat) : Fld := ⟨0x1FE000 + 0x40 * i, 24, 24⟩
def EVT_POLARITY (i : Nat) : Fld := ⟨0x1FE000 + 0x40 * i, 23, 23⟩
def EVT_FILTER (i : Nat) : Fld := ⟨0x1FE000 + 0x40 * i, 7, 0⟩
def EVT_GEN_TIME_LO (i : Nat) : Fld := ⟨0x1FE004 + 0x40 * i, 31, 0⟩
def EVT_GEN_TIME_HI (i : Nat) : Fld := ⟨0x1FE008 + 0x40 * i, 31, 0⟩
def EVT_PERIOD (i : Nat) : Fld := ⟨0x1FE00C + 0x40 * i, 31, 0⟩
def EVT_WIDTH (i : Nat) : Fld := ⟨0x1FE010 + 0x40 * i, 31, 0⟩
def EVT_OFFSET (i : Nat) : Fld := ⟨0x1FE014 + 0x40 * i, 31, 0⟩
def EVT_TSQ_HEAD_LO (i : Nat) : Fld := ⟨0x1FE018 + 0x40 * i, 31, 0⟩
def EVT_TSQ_HEAD_HI (i : Nat) : Fld := ⟨0x1FE01C + 0x40 * i, 31, 0⟩
def EVT_DROPPED (i : Nat) : Fld := ⟨0x1FE020 + 0x40 * i, 31, 16⟩
def EVT_WRITE_REJECT (i : Nat) : Fld := ⟨0x1FE020 + 0x40 * i, 9, 9⟩
def EVT_MISSED (i : Nat) : Fld := ⟨0x1FE020 + 0x40 * i, 8, 8⟩
def EVT_COUNT (i : Nat) : Fld := ⟨0x1FE020 + 0x40 * i, 4, 0⟩
def EVT_POP (i : Nat) : Fld := ⟨0x1FE024 + 0x40 * i, 0, 0⟩
def EVT_PAD_OD (i : Nat) : Fld := ⟨0x1FE028 + 0x40 * i, 31, 31⟩
def EVT_PAD_FAULT (i : Nat) : Fld := ⟨0x1FE028 + 0x40 * i, 30, 29⟩
def EVT_PAD_CLEAR (i : Nat) : Fld := ⟨0x1FE028 + 0x40 * i, 28, 28⟩
def EVT_PAD_PULL (i : Nat) : Fld := ⟨0x1FE028 + 0x40 * i, 27, 26⟩
def EVT_PAD_DRIVE (i : Nat) : Fld := ⟨0x1FE028 + 0x40 * i, 25, 24⟩

end Reg

/-- Register map of SYS, part 0. -/
def tableSYS0 : List RegDesc := [
  ⟨0x0, [], [⟨31, 16, .ro, .s, 0x9416⟩, ⟨15, 0, .ro, .s, 0x1E9D⟩]⟩,
  ⟨0x4, [], [⟨15, 8, .ro, .s, 1⟩, ⟨7, 0, .ro, .s, 0⟩]⟩,
  ⟨0x8, [], [⟨31, 28, .ro, .s, 1⟩, ⟨27, 12, .ro, .s, 0x9416⟩, ⟨11, 1, .ro, .s, 0x4C9⟩, ⟨0, 0, .ro, .s, 1⟩]⟩,
  ⟨0xC, [], [⟨31, 24, .ro, .s, 0x10⟩, ⟨23, 20, .ro, .s, 0xA⟩, ⟨15, 12, .ro, .s, 2⟩, ⟨11, 8, .ro, .s, 4⟩, ⟨7, 4, .ro, .s, 4⟩, ⟨3, 0, .ro, .s, 4⟩]⟩,
  ⟨0x10, [], [⟨10, 0, .rw, .t, 0⟩]⟩,
  ⟨0x14, [], [⟨3, 0, .ro, .s, 0⟩]⟩,
  ⟨0x18, [], [⟨31, 16, .rw, .l, 0x9416⟩, ⟨15, 0, .rw, .l, 0x1E9D⟩]⟩,
  ⟨0x20, [(8, 0x4)], [⟨31, 0, .ro, .s, 0⟩]⟩,
  ⟨0x100, [], [⟨20, 16, .ro, .s, 0⟩, ⟨15, 12, .ro, .s, 0⟩, ⟨4, 0, .ro, .s, 0⟩]⟩,
  ⟨0x104, [], [⟨31, 28, .wo, .l, 0⟩, ⟨12, 8, .wo, .l, 0⟩, ⟨7, 0, .wo, .l, 0⟩]⟩,
  ⟨0x108, [], [⟨3, 0, .ro, .s, 0⟩]⟩,
  ⟨0x10C, [], [⟨31, 16, .rw, .l, 0x3E8⟩, ⟨15, 0, .rw, .l, 0x1388⟩]⟩]

/-- Register map of SYS, part 1. -/
def tableSYS1 : List RegDesc := [
  ⟨0x110, [], [⟨15, 0, .ro, .s, 0⟩]⟩,
  ⟨0x120, [], [⟨31, 0, .rc, .s, 0⟩]⟩,
  ⟨0x124, [], [⟨31, 27, .ro, .s, 0⟩, ⟨26, 26, .ro, .s, 0⟩, ⟨25, 2, .ro, .s, 0⟩]⟩,
  ⟨0x130, [], [⟨3, 3, .w1c, .s, 0⟩, ⟨2, 2, .w1c, .s, 0⟩, ⟨1, 1, .w1c, .s, 0⟩, ⟨0, 0, .w1c, .s, 0⟩]⟩,
  ⟨0x134, [], [⟨3, 0, .rw, .l, 0⟩]⟩,
  ⟨0x200, [], [⟨31, 28, .wo, .l, 0⟩, ⟨1, 1, .wo, .l, 0⟩, ⟨0, 0, .wo, .l, 0⟩]⟩,
  ⟨0x204, [], [⟨31, 0, .rw, .l, 0⟩]⟩,
  ⟨0x208, [], [⟨15, 0, .rw, .l, 0⟩]⟩,
  ⟨0x20C, [], [⟨31, 31, .ro, .s, 0⟩, ⟨30, 27, .ro, .s, 0⟩, ⟨26, 24, .ro, .s, 0⟩, ⟨12, 0, .ro, .s, 0⟩]⟩,
  ⟨0x210, [], [⟨31, 0, .ro, .s, 0⟩]⟩,
  ⟨0x214, [], [⟨31, 0, .rw, .l, 0⟩]⟩,
  ⟨0x218, [], [⟨12, 0, .rw, .l, 0x32⟩]⟩]

/-- Register map of SYS, part 2. -/
def tableSYS2 : List RegDesc := [
  ⟨0x21C, [], [⟨4, 0, .ro, .s, 0⟩]⟩,
  ⟨0x280, [(8, 0x4)], [⟨31, 30, .ro, .s, 0⟩, ⟨20, 16, .ro, .s, 0⟩, ⟨12, 0, .ro, .s, 0⟩]⟩]

/-- Register map of SYS. -/
def tableSYS : List RegDesc := tableSYS0 ++ tableSYS1 ++ tableSYS2

/-- Register map of PWR, part 0. -/
def tablePWR0 : List RegDesc := [
  ⟨0x10000, [], [⟨31, 28, .wo, .l, 0⟩, ⟨15, 0, .wo, .l, 0⟩]⟩,
  ⟨0x10004, [], [⟨31, 30, .ro, .s, 0⟩, ⟨29, 29, .ro, .s, 0⟩, ⟨25, 24, .ro, .s, 0⟩, ⟨6, 0, .ro, .s, 0x28⟩]⟩,
  ⟨0x10008, [], [⟨7, 7, .w1c, .s, 0⟩, ⟨6, 6, .w1c, .s, 0⟩, ⟨5, 5, .w1c, .s, 0⟩, ⟨4, 4, .w1c, .s, 0⟩, ⟨3, 3, .w1c, .s, 0⟩, ⟨2, 2, .w1c, .s, 0⟩, ⟨1, 1, .w1c, .s, 0⟩, ⟨0, 0, .w1c, .s, 1⟩]⟩,
  ⟨0x1000C, [], [⟨5, 0, .wo, .l, 0⟩]⟩,
  ⟨0x10010, [], [⟨31, 31, .w1s, .l, 0⟩, ⟨30, 30, .rw, .l, 0⟩, ⟨15, 0, .rw, .l, 0x3E8⟩]⟩,
  ⟨0x10014, [], [⟨15, 0, .wo, .l, 0⟩]⟩,
  ⟨0x10018, [], [⟨7, 0, .ro, .s, 0⟩]⟩,
  ⟨0x10020, [(5, 0x4)], [⟨31, 0, .rw, .l, 0⟩]⟩,
  ⟨0x10040, [], [⟨31, 0, .rw, .l, 0⟩]⟩,
  ⟨0x10044, [], [⟨7, 0, .rw, .l, 0⟩]⟩,
  ⟨0x10048, [], [⟨31, 0, .ro, .s, 0⟩]⟩,
  ⟨0x1004C, [], [⟨7, 0, .ro, .s, 0⟩]⟩]

/-- Register map of PWR, part 1. -/
def tablePWR1 : List RegDesc := [
  ⟨0x10050, [], [⟨31, 16, .ro, .s, 0x71⟩, ⟨9, 0, .ro, .s, 0⟩]⟩,
  ⟨0x10054, [], [⟨31, 31, .rw, .l, 0⟩, ⟨6, 0, .rw, .l, 0x28⟩]⟩,
  ⟨0x10060, [], [⟨31, 24, .rw, .l, 0x78⟩, ⟨23, 16, .rw, .l, 0x69⟩, ⟨15, 8, .rw, .l, 0x5F⟩, ⟨4, 0, .rw, .l, 4⟩]⟩,
  ⟨0x10064, [], [⟨31, 16, .ro, .s, 0⟩, ⟨15, 0, .ro, .s, 0⟩]⟩,
  ⟨0x10068, [], [⟨15, 0, .rw, .l, 0x64⟩]⟩,
  ⟨0x10080, [(11, 0x4)], [⟨15, 0, .ro, .s, 0⟩]⟩,
  ⟨0x100C0, [], [⟨31, 0, .ro, .s, 0⟩]⟩,
  ⟨0x100C4, [], [⟨31, 24, .ro, .s, 0⟩, ⟨23, 16, .ro, .s, 0⟩, ⟨15, 8, .ro, .s, 0⟩, ⟨7, 0, .ro, .s, 0⟩]⟩,
  ⟨0x100C8, [], [⟨15, 0, .ro, .s, 0⟩]⟩,
  ⟨0x100D0, [], [⟨5, 5, .w1c, .s, 0⟩, ⟨4, 4, .w1c, .s, 0⟩, ⟨3, 3, .w1c, .s, 0⟩, ⟨2, 2, .w1c, .s, 0⟩, ⟨1, 1, .w1c, .s, 0⟩, ⟨0, 0, .w1c, .s, 0⟩]⟩,
  ⟨0x100D4, [], [⟨5, 0, .rw, .l, 0⟩]⟩]

/-- Register map of PWR. -/
def tablePWR : List RegDesc := tablePWR0 ++ tablePWR1

/-- Register map of TIME, part 0. -/
def tableTIME0 : List RegDesc := [
  ⟨0x20000, [], [⟨2, 2, .rw, .l, 0⟩, ⟨1, 1, .rw, .t, 0⟩, ⟨0, 0, .rw, .l, 0⟩]⟩,
  ⟨0x20004, [], [⟨5, 5, .ro, .s, 0⟩, ⟨4, 4, .ro, .s, 0⟩, ⟨3, 2, .ro, .s, 0⟩, ⟨1, 0, .ro, .s, 0⟩]⟩,
  ⟨0x20008, [], [⟨7, 7, .w1c, .s, 0⟩, ⟨6, 6, .w1c, .s, 0⟩, ⟨5, 5, .w1c, .s, 0⟩, ⟨4, 4, .w1c, .s, 0⟩, ⟨3, 3, .w1c, .s, 0⟩, ⟨2, 2, .w1c, .s, 0⟩, ⟨1, 1, .w1c, .s, 0⟩, ⟨0, 0, .w1c, .s, 0⟩]⟩,
  ⟨0x2000C, [], [⟨7, 0, .rw, .l, 0⟩]⟩,
  ⟨0x20010, [], [⟨9, 0, .rw, .l, 0x64⟩]⟩,
  ⟨0x20014, [], [⟨25, 24, .ro, .s, 0⟩, ⟨9, 0, .rw, .l, 0xC8⟩]⟩,
  ⟨0x20018, [], [⟨31, 0, .ro, .s, 0⟩]⟩,
  ⟨0x2001C, [], [⟨16, 0, .ro, .s, 0⟩]⟩,
  ⟨0x20020, [], [⟨31, 0, .rw, .t, 0⟩]⟩,
  ⟨0x20024, [], [⟨15, 0, .rw, .t, 0⟩]⟩,
  ⟨0x20028, [], [⟨30, 0, .rw, .t, 0x989680⟩]⟩,
  ⟨0x20030, [], [⟨31, 0, .rw, .x, 0⟩]⟩]

/-- Register map of TIME, part 1. -/
def tableTIME1 : List RegDesc := [
  ⟨0x20034, [], [⟨15, 0, .rw, .x, 0⟩]⟩,
  ⟨0x20038, [], [⟨31, 0, .rw, .x, 0⟩]⟩,
  ⟨0x2003C, [], [⟨31, 16, .rw, .x, 0⟩, ⟨15, 0, .rw, .x, 0⟩]⟩,
  ⟨0x20040, [], [⟨31, 0, .ro, .s, 0⟩]⟩,
  ⟨0x20044, [], [⟨15, 0, .ro, .s, 0⟩]⟩,
  ⟨0x20100, [(2, 0x80)], [⟨31, 0, .ro, .s, 0⟩]⟩,
  ⟨0x20104, [(2, 0x80)], [⟨31, 16, .ro, .s, 0⟩, ⟨15, 0, .ro, .s, 0⟩]⟩,
  ⟨0x20108, [(2, 0x80)], [⟨31, 0, .rw, .l, 0⟩]⟩,
  ⟨0x2010C, [(2, 0x80)], [⟨10, 0, .rw, .l, 0x200⟩]⟩,
  ⟨0x20110, [(2, 0x80)], [⟨31, 0, .ro, .s, 0⟩]⟩,
  ⟨0x20114, [(2, 0x80)], [⟨31, 16, .rw, .l, 0x10⟩, ⟨15, 0, .rw, .l, 0x80⟩]⟩,
  ⟨0x20118, [(2, 0x80)], [⟨31, 24, .rw, .l, 8⟩, ⟨23, 12, .rw, .l, 0x1F4⟩, ⟨11, 0, .rw, .l, 0xC8⟩]⟩]

/-- Register map of TIME, part 2. -/
def tableTIME2 : List RegDesc := [
  ⟨0x2011C, [(2, 0x80)], [⟨31, 0, .rw, .l, 0x3E8⟩]⟩,
  ⟨0x20120, [(2, 0x80)], [⟨31, 0, .rw, .l, 0x1388⟩]⟩,
  ⟨0x20124, [(2, 0x80)], [⟨31, 0, .ro, .s, 0⟩]⟩,
  ⟨0x20128, [(2, 0x80)], [⟨31, 0, .rw, .t, 0⟩]⟩,
  ⟨0x20200, [(2, 0x80)], [⟨31, 31, .rw, .x, 0⟩, ⟨30, 30, .rw, .x, 0⟩, ⟨29, 28, .rw, .x, 0⟩, ⟨27, 27, .rw, .x, 0⟩, ⟨26, 26, .rw, .x, 0⟩, ⟨25, 24, .rw, .x, 0⟩, ⟨23, 23, .rw, .x, 0⟩, ⟨7, 0, .rw, .x, 0⟩]⟩,
  ⟨0x20204, [(2, 0x80)], [⟨31, 24, .rw, .x, 0x80⟩, ⟨23, 16, .rw, .x, 0x80⟩, ⟨15, 12, .rw, .x, 0xD⟩, ⟨11, 8, .rw, .x, 0⟩, ⟨7, 4, .rw, .x, 0xD⟩, ⟨3, 0, .rw, .x, 3⟩]⟩,
  ⟨0x20208, [(2, 0x80)], [⟨3, 0, .ro, .s, 0⟩]⟩,
  ⟨0x2020C, [(2, 0x80)], [⟨31, 0, .ro, .s, 0⟩]⟩,
  ⟨0x20210, [(2, 0x80)], [⟨31, 0, .ro, .s, 0⟩]⟩,
  ⟨0x20214, [(2, 0x80)], [⟨31, 16, .rc, .s, 0⟩, ⟨15, 0, .rc, .s, 0⟩]⟩,
  ⟨0x20300, [(2, 0x20)], [⟨31, 0, .ro, .s, 0⟩]⟩,
  ⟨0x20304, [(2, 0x20)], [⟨31, 0, .ro, .s, 0⟩]⟩]

/-- Register map of TIME, part 3. -/
def tableTIME3 : List RegDesc := [
  ⟨0x20308, [(2, 0x20)], [⟨31, 16, .rc, .s, 0⟩, ⟨4, 0, .ro, .s, 0⟩]⟩,
  ⟨0x2030C, [(2, 0x20)], [⟨0, 0, .wo, .l, 0⟩]⟩]

/-- Register map of TIME. -/
def tableTIME : List RegDesc := tableTIME0 ++ tableTIME1 ++ tableTIME2 ++ tableTIME3

/-- Register map of PILOT, part 0. -/
def tablePILOT0 : List RegDesc := [
  ⟨0x30000, [(16, 0x1000)], [⟨31, 28, .wo, .l, 0⟩]⟩,
  ⟨0x30004, [(16, 0x1000)], [⟨31, 29, .ro, .s, 0⟩, ⟨28, 28, .ro, .s, 0⟩, ⟨27, 27, .ro, .s, 0⟩, ⟨3, 0, .ro, .s, 0⟩]⟩,
  ⟨0x30008, [(16, 0x1000)], [⟨31, 31, .ro, .s, 0⟩, ⟨30, 27, .ro, .s, 0⟩, ⟨15, 0, .wo, .l, 0⟩]⟩,
  ⟨0x3000C, [(16, 0x1000)], [⟨31, 0, .ro, .s, 0⟩]⟩,
  ⟨0x30010, [(16, 0x1000)], [⟨31, 0, .ro, .s, 0⟩]⟩,
  ⟨0x30014, [(16, 0x1000)], [⟨31, 0, .ro, .s, 0⟩]⟩,
  ⟨0x30018, [(16, 0x1000)], [⟨31, 0, .ro, .s, 0⟩]⟩,
  ⟨0x3001C, [(16, 0x1000)], [⟨31, 0, .ro, .s, 0⟩]⟩,
  ⟨0x30020, [(16, 0x1000)], [⟨31, 0, .ro, .s, 0⟩]⟩,
  ⟨0x30024, [(16, 0x1000)], [⟨31, 0, .ro, .s, 0⟩]⟩,
  ⟨0x30030, [(16, 0x1000)], [⟨31, 0, .rw, .x, 0⟩]⟩,
  ⟨0x30034, [(16, 0x1000)], [⟨31, 16, .rc, .s, 0⟩, ⟨8, 0, .ro, .s, 0⟩]⟩]

/-- Register map of PILOT, part 1. -/
def tablePILOT1 : List RegDesc := [
  ⟨0x30038, [(16, 0x1000)], [⟨15, 0, .ro, .s, 0⟩]⟩,
  ⟨0x3003C, [(16, 0x1000)], [⟨0, 0, .w1c, .s, 0⟩]⟩,
  ⟨0x30040, [(16, 0x1000), (4, 0x4)], [⟨31, 0, .wo, .l, 0⟩]⟩,
  ⟨0x30050, [(16, 0x1000)], [⟨0, 0, .rw, .l, 0⟩]⟩]

/-- Register map of PILOT. -/
def tablePILOT : List RegDesc := tablePILOT0 ++ tablePILOT1

/-- Register map of SEC, part 0. -/
def tableSEC0 : List RegDesc := [
  ⟨0x40000, [], [⟨31, 28, .wo, .l, 0⟩, ⟨23, 16, .wo, .l, 0⟩, ⟨15, 0, .wo, .l, 0⟩]⟩,
  ⟨0x40004, [], [⟨31, 0, .rw, .l, 0⟩]⟩,
  ⟨0x40008, [], [⟨31, 0, .rw, .l, 0⟩]⟩,
  ⟨0x4000C, [], [⟨31, 0, .wo, .l, 0⟩]⟩,
  ⟨0x40010, [], [⟨31, 31, .ro, .s, 0⟩, ⟨3, 0, .ro, .s, 0⟩]⟩,
  ⟨0x40014, [], [⟨31, 31, .ro, .s, 0⟩, ⟨30, 30, .ro, .s, 0⟩, ⟨29, 29, .ro, .s, 0⟩, ⟨22, 16, .ro, .s, 0⟩, ⟨7, 4, .ro, .s, 0⟩, ⟨3, 0, .ro, .s, 0⟩]⟩,
  ⟨0x40020, [], [⟨4, 4, .w1c, .s, 0⟩, ⟨3, 3, .w1c, .s, 0⟩, ⟨2, 2, .w1c, .s, 0⟩, ⟨1, 1, .w1c, .s, 0⟩, ⟨0, 0, .w1c, .s, 0⟩]⟩,
  ⟨0x40024, [], [⟨4, 0, .rw, .l, 0⟩]⟩,
  ⟨0x40028, [], [⟨31, 16, .rc, .s, 0⟩, ⟨15, 0, .rc, .s, 0⟩]⟩,
  ⟨0x40030, [], [⟨15, 0, .wo, .l, 0⟩]⟩,
  ⟨0x40034, [], [⟨3, 0, .ro, .s, 0⟩]⟩,
  ⟨0x40038, [], [⟨31, 0, .rw, .l, 0⟩]⟩]

/-- Register map of SEC, part 1. -/
def tableSEC1 : List RegDesc := [
  ⟨0x4003C, [], [⟨31, 0, .ro, .s, 0⟩]⟩,
  ⟨0x40040, [], [⟨31, 0, .ro, .s, 0⟩]⟩,
  ⟨0x40044, [], [⟨31, 0, .ro, .s, 0⟩]⟩,
  ⟨0x40110, [(31, 0x10)], [⟨31, 31, .rw, .t, 0⟩, ⟨15, 0, .rw, .t, 1⟩]⟩,
  ⟨0x40114, [(31, 0x10)], [⟨31, 0, .ro, .s, 0⟩]⟩,
  ⟨0x40118, [(31, 0x10)], [⟨15, 0, .ro, .s, 0⟩]⟩,
  ⟨0x4011C, [(31, 0x10)], [⟨31, 16, .rc, .s, 0⟩, ⟨15, 0, .rc, .s, 0⟩]⟩,
  ⟨0x40300, [(11, 0x4)], [⟨31, 30, .ro, .s, 0⟩, ⟨28, 24, .ro, .s, 0⟩, ⟨21, 20, .ro, .s, 0⟩, ⟨16, 16, .ro, .s, 0⟩]⟩,
  ⟨0x40400, [(256, 0x4)], [⟨31, 0, .wo, .l, 0⟩]⟩]

/-- Register map of SEC. -/
def tableSEC : List RegDesc := tableSEC0 ++ tableSEC1

/-- Register map of LOG, part 0. -/
def tableLOG0 : List RegDesc := [
  ⟨0x50000, [], [⟨31, 28, .wo, .l, 0⟩]⟩,
  ⟨0x50004, [], [⟨31, 29, .ro, .s, 0⟩, ⟨27, 0, .ro, .s, 0⟩]⟩,
  ⟨0x50008, [], [⟨31, 31, .rw, .x, 0⟩, ⟨30, 30, .rw, .x, 0⟩, ⟨2, 0, .rw, .x, 1⟩]⟩,
  ⟨0x5000C, [], [⟨31, 1, .rw, .x, 0⟩]⟩,
  ⟨0x50010, [], [⟨31, 0, .rw, .x, 0⟩]⟩,
  ⟨0x50014, [], [⟨15, 0, .rw, .x, 0⟩]⟩,
  ⟨0x50018, [], [⟨15, 0, .rw, .x, 0⟩]⟩,
  ⟨0x5001C, [], [⟨15, 0, .wo, .l, 0⟩]⟩,
  ⟨0x50020, [], [⟨15, 0, .wo, .l, 0⟩]⟩,
  ⟨0x50030, [(4, 0x4)], [⟨31, 16, .wo, .l, 0⟩, ⟨15, 0, .wo, .l, 0⟩]⟩,
  ⟨0x50040, [], [⟨31, 24, .rc, .s, 0⟩, ⟨11, 8, .ro, .s, 0⟩, ⟨3, 0, .ro, .s, 0⟩]⟩,
  ⟨0x50044, [], [⟨4, 4, .w1c, .s, 0⟩, ⟨3, 3, .w1c, .s, 0⟩, ⟨2, 2, .w1c, .s, 0⟩, ⟨1, 1, .w1c, .s, 0⟩, ⟨0, 0, .w1c, .s, 0⟩]⟩]

/-- Register map of LOG, part 1. -/
def tableLOG1 : List RegDesc := [
  ⟨0x50048, [], [⟨4, 0, .rw, .l, 0⟩]⟩,
  ⟨0x5004C, [], [⟨31, 16, .rc, .s, 0⟩, ⟨15, 0, .rc, .s, 0⟩]⟩,
  ⟨0x50050, [], [⟨31, 0, .ro, .s, 0⟩]⟩,
  ⟨0x50054, [], [⟨15, 0, .ro, .s, 0⟩]⟩,
  ⟨0x50058, [], [⟨31, 28, .ro, .s, 0⟩, ⟨27, 20, .ro, .s, 0⟩, ⟨11, 0, .ro, .s, 0⟩]⟩,
  ⟨0x5005C, [], [⟨31, 28, .ro, .s, 0⟩, ⟨27, 24, .ro, .s, 0⟩, ⟨21, 20, .ro, .s, 0⟩, ⟨15, 0, .ro, .s, 0⟩]⟩,
  ⟨0x50060, [], [⟨31, 0, .rc, .s, 0⟩]⟩,
  ⟨0x50064, [], [⟨31, 16, .ro, .s, 0⟩, ⟨15, 0, .ro, .s, 0⟩]⟩,
  ⟨0x50068, [], [⟨31, 0, .rc, .s, 0⟩]⟩]

/-- Register map of LOG. -/
def tableLOG : List RegDesc := tableLOG0 ++ tableLOG1

/-- Register map of FAB, part 0. -/
def tableFAB0 : List RegDesc := [
  ⟨0x60000, [], [⟨3, 3, .w1c, .s, 0⟩, ⟨2, 2, .w1c, .s, 0⟩, ⟨1, 1, .w1c, .s, 0⟩, ⟨0, 0, .w1c, .s, 0⟩]⟩,
  ⟨0x60004, [], [⟨3, 0, .rw, .l, 0⟩]⟩,
  ⟨0x60010, [], [⟨9, 0, .rw, .t, 0x100⟩]⟩,
  ⟨0x60100, [], [⟨31, 31, .ro, .s, 0⟩, ⟨30, 27, .ro, .s, 0⟩, ⟨19, 16, .wo, .l, 0⟩, ⟨15, 0, .rw, .l, 0⟩]⟩,
  ⟨0x60104, [], [⟨31, 12, .rw, .l, 0⟩]⟩,
  ⟨0x60108, [], [⟨5, 0, .rw, .l, 0⟩]⟩,
  ⟨0x6010C, [], [⟨25, 0, .rw, .l, 0⟩]⟩,
  ⟨0x60110, [], [⟨31, 24, .ro, .s, 0⟩, ⟨23, 22, .ro, .s, 0⟩, ⟨21, 16, .rw, .l, 0⟩, ⟨15, 0, .rw, .l, 0⟩]⟩,
  ⟨0x60120, [], [⟨31, 0, .rc, .s, 0⟩]⟩,
  ⟨0x60124, [], [⟨15, 0, .ro, .s, 0⟩]⟩,
  ⟨0x60128, [], [⟨31, 26, .ro, .s, 0⟩, ⟨18, 16, .ro, .s, 0⟩, ⟨15, 0, .ro, .s, 0⟩]⟩,
  ⟨0x6012C, [], [⟨31, 0, .rc, .s, 0⟩]⟩]

/-- Register map of FAB, part 1. -/
def tableFAB1 : List RegDesc := [
  ⟨0x60140, [(8, 0x4)], [⟨31, 0, .ro, .s, 0⟩]⟩,
  ⟨0x60200, [], [⟨15, 0, .rw, .l, 0⟩]⟩,
  ⟨0x60204, [], [⟨31, 12, .rw, .l, 0⟩]⟩,
  ⟨0x60208, [], [⟨5, 0, .rw, .l, 0⟩]⟩,
  ⟨0x6020C, [], [⟨1, 1, .w1c, .s, 0⟩, ⟨0, 0, .w1c, .s, 0⟩]⟩,
  ⟨0x61000, [(45, 0x20)], [⟨18, 16, .ro, .s, 0⟩, ⟨9, 0, .rw, .t, 0⟩]⟩,
  ⟨0x61004, [(45, 0x20)], [⟨31, 16, .rc, .s, 0⟩, ⟨15, 0, .rc, .s, 0⟩]⟩,
  ⟨0x61008, [(45, 0x20)], [⟨31, 0, .ro, .s, 0⟩]⟩,
  ⟨0x6100C, [(45, 0x20)], [⟨15, 0, .ro, .s, 0⟩]⟩,
  ⟨0x68000, [(1024, 0x4)], [⟨31, 0, .rw, .l, 0⟩]⟩]

/-- Register map of FAB. -/
def tableFAB : List RegDesc := tableFAB0 ++ tableFAB1

/-- Register map of SRX, part 0. -/
def tableSRX0 : List RegDesc := [
  ⟨0x80000, [(4, 0x4000)], [⟨31, 28, .wo, .l, 0⟩, ⟨27, 27, .rw, .x, 0⟩, ⟨26, 24, .rw, .x, 0⟩, ⟨23, 16, .rw, .x, 0⟩, ⟨13, 0, .rw, .x, 0x9C4⟩]⟩,
  ⟨0x80004, [(4, 0x4000)], [⟨31, 30, .ro, .s, 0⟩, ⟨29, 29, .ro, .s, 0⟩, ⟨22, 16, .ro, .s, 0⟩, ⟨14, 8, .ro, .s, 0⟩, ⟨6, 0, .ro, .s, 0⟩]⟩,
  ⟨0x80008, [(4, 0x4000)], [⟨18, 18, .rw, .t, 0⟩, ⟨17, 16, .rw, .t, 0⟩, ⟨14, 0, .rw, .t, 0⟩]⟩,
  ⟨0x8000C, [(4, 0x4000)], [⟨20, 16, .rw, .t, 0x10⟩, ⟨14, 0, .rw, .t, 0⟩]⟩,
  ⟨0x80010, [(4, 0x4000), (4, 0x4)], [⟨15, 0, .rw, .t, 0⟩]⟩,
  ⟨0x80020, [(4, 0x4000)], [⟨15, 0, .rw, .t, 0⟩]⟩,
  ⟨0x80024, [(4, 0x4000)], [⟨20, 16, .rw, .t, 0⟩, ⟨11, 0, .rw, .t, 0⟩]⟩,
  ⟨0x80028, [(4, 0x4000)], [⟨31, 0, .rw, .x, 0⟩]⟩,
  ⟨0x8002C, [(4, 0x4000)], [⟨15, 0, .rw, .l, 0x64⟩]⟩,
  ⟨0x80030, [(4, 0x4000)], [⟨31, 16, .wo, .l, 0⟩, ⟨15, 0, .wo, .l, 0⟩]⟩,
  ⟨0x80034, [(4, 0x4000)], [⟨31, 16, .rc, .s, 0⟩, ⟨8, 8, .w1c, .s, 0⟩, ⟨4, 0, .ro, .s, 0⟩]⟩,
  ⟨0x80038, [(4, 0x4000)], [⟨31, 24, .rw, .l, 0x60⟩, ⟨23, 16, .rw, .l, 0x18⟩, ⟨15, 0, .rw, .l, 0x3E8⟩]⟩]

/-- Register map of SRX, part 1. -/
def tableSRX1 : List RegDesc := [
  ⟨0x80040, [(4, 0x4000)], [⟨31, 0, .rw, .x, 0⟩]⟩,
  ⟨0x80044, [(4, 0x4000)], [⟨31, 0, .rw, .x, 0⟩]⟩,
  ⟨0x80048, [(4, 0x4000)], [⟨31, 0, .rw, .t, 0⟩]⟩,
  ⟨0x8004C, [(4, 0x4000)], [⟨31, 0, .rw, .t, 0⟩]⟩,
  ⟨0x80050, [(4, 0x4000)], [⟨31, 0, .ro, .s, 0⟩]⟩,
  ⟨0x80054, [(4, 0x4000)], [⟨31, 0, .ro, .s, 0⟩]⟩,
  ⟨0x80058, [(4, 0x4000)], [⟨31, 0, .ro, .s, 0⟩]⟩,
  ⟨0x80060, [(4, 0x4000)], [⟨7, 7, .w1c, .s, 0⟩, ⟨6, 6, .w1c, .s, 0⟩, ⟨5, 5, .w1c, .s, 0⟩, ⟨4, 4, .w1c, .s, 0⟩, ⟨3, 3, .w1c, .s, 0⟩, ⟨2, 2, .w1c, .s, 0⟩, ⟨1, 1, .w1c, .s, 0⟩, ⟨0, 0, .w1c, .s, 0⟩]⟩,
  ⟨0x80064, [(4, 0x4000)], [⟨7, 0, .rw, .l, 0⟩]⟩,
  ⟨0x80070, [(4, 0x4000)], [⟨31, 16, .rc, .s, 0⟩, ⟨15, 0, .rc, .s, 0⟩]⟩,
  ⟨0x80074, [(4, 0x4000)], [⟨31, 16, .rc, .s, 0⟩, ⟨15, 0, .rc, .s, 0⟩]⟩,
  ⟨0x80078, [(4, 0x4000)], [⟨31, 16, .rc, .s, 0⟩, ⟨15, 0, .rc, .s, 0⟩]⟩]

/-- Register map of SRX, part 2. -/
def tableSRX2 : List RegDesc := [
  ⟨0x8007C, [(4, 0x4000)], [⟨27, 16, .rc, .s, 0⟩, ⟨11, 0, .ro, .s, 0⟩]⟩,
  ⟨0x80080, [(4, 0x4000), (2, 0x10)], [⟨31, 31, .rw, .t, 0⟩, ⟨30, 30, .rw, .t, 0⟩, ⟨29, 22, .rw, .t, 0⟩, ⟨7, 0, .rw, .t, 0⟩]⟩,
  ⟨0x80084, [(4, 0x4000), (2, 0x10)], [⟨31, 0, .rw, .t, 0⟩]⟩,
  ⟨0x80088, [(4, 0x4000), (2, 0x10)], [⟨31, 0, .rw, .t, 0⟩]⟩,
  ⟨0x81000, [(4, 0x4000), (64, 0x40)], [⟨31, 29, .rw, .l, 0⟩, ⟨28, 28, .rw, .l, 0⟩, ⟨27, 27, .rw, .l, 0⟩, ⟨26, 26, .w1s, .l, 0⟩, ⟨25, 24, .rw, .x, 1⟩, ⟨23, 22, .rw, .x, 0⟩]⟩,
  ⟨0x81004, [(4, 0x4000), (64, 0x40)], [⟨31, 29, .ro, .s, 0⟩, ⟨28, 25, .ro, .s, 0⟩, ⟨24, 24, .ro, .s, 0⟩, ⟨23, 23, .ro, .s, 0⟩, ⟨22, 22, .ro, .s, 0⟩, ⟨21, 21, .ro, .s, 0⟩, ⟨20, 20, .ro, .s, 0⟩, ⟨19, 14, .ro, .s, 0⟩, ⟨8, 0, .ro, .s, 0⟩]⟩,
  ⟨0x81008, [(4, 0x4000), (64, 0x40)], [⟨0, 0, .wo, .l, 0⟩]⟩,
  ⟨0x8100C, [(4, 0x4000), (64, 0x40)], [⟨31, 24, .ro, .s, 0⟩, ⟨23, 16, .ro, .s, 0⟩, ⟨14, 8, .ro, .s, 0⟩]⟩,
  ⟨0x81010, [(4, 0x4000), (64, 0x40)], [⟨31, 28, .rw, .l, 0⟩, ⟨24, 0, .rw, .l, 0⟩]⟩,
  ⟨0x81014, [(4, 0x4000), (64, 0x40)], [⟨31, 0, .rc, .s, 0⟩]⟩,
  ⟨0x81018, [(4, 0x4000), (64, 0x40)], [⟨31, 0, .ro, .s, 0⟩]⟩,
  ⟨0x8101C, [(4, 0x4000), (64, 0x40)], [⟨15, 0, .ro, .s, 0⟩]⟩]

/-- Register map of SRX, part 3. -/
def tableSRX3 : List RegDesc := [
  ⟨0x81020, [(4, 0x4000), (64, 0x40)], [⟨31, 0, .rc, .s, 0⟩]⟩,
  ⟨0x81024, [(4, 0x4000), (64, 0x40)], [⟨26, 16, .ro, .s, 0⟩, ⟨10, 0, .ro, .s, 0⟩]⟩]

/-- Register map of SRX. -/
def tableSRX : List RegDesc := tableSRX0 ++ tableSRX1 ++ tableSRX2 ++ tableSRX3

/-- Register map of PIPE, part 0. -/
def tablePIPE0 : List RegDesc := [
  ⟨0x100000, [(4, 0x10000)], [⟨31, 28, .wo, .l, 0⟩, ⟨0, 0, .rw, .x, 1⟩]⟩,
  ⟨0x100004, [(4, 0x10000)], [⟨31, 30, .ro, .s, 0⟩, ⟨2, 0, .ro, .s, 0⟩]⟩,
  ⟨0x100008, [(4, 0x10000)], [⟨31, 16, .wo, .l, 0⟩, ⟨15, 0, .wo, .l, 0⟩]⟩,
  ⟨0x10000C, [(4, 0x10000)], [⟨31, 16, .rc, .s, 0⟩, ⟨15, 0, .rc, .s, 0⟩]⟩,
  ⟨0x100010, [(4, 0x10000)], [⟨30, 16, .rw, .t, 0⟩, ⟨14, 0, .rw, .t, 0⟩]⟩,
  ⟨0x100014, [(4, 0x10000)], [⟨31, 16, .rw, .t, 0⟩, ⟨15, 0, .rw, .t, 0⟩]⟩,
  ⟨0x100018, [(4, 0x10000)], [⟨15, 0, .rw, .t, 0⟩]⟩,
  ⟨0x10001C, [(4, 0x10000)], [⟨19, 0, .rw, .t, 0⟩]⟩,
  ⟨0x100020, [(4, 0x10000), (4, 0x4)], [⟨23, 0, .rw, .t, 0⟩]⟩,
  ⟨0x100040, [(4, 0x10000), (4, 0x20)], [⟨23, 0, .rw, .t, 0x10000⟩]⟩,
  ⟨0x100044, [(4, 0x10000), (4, 0x20)], [⟨15, 0, .rw, .t, 0x100⟩]⟩,
  ⟨0x100048, [(4, 0x10000), (4, 0x20)], [⟨19, 0, .rw, .t, 0xFFFFF⟩]⟩]

/-- Register map of PIPE, part 1. -/
def tablePIPE1 : List RegDesc := [
  ⟨0x10004C, [(4, 0x10000), (4, 0x20)], [⟨19, 0, .rw, .t, 0xFFFFF⟩]⟩,
  ⟨0x100050, [(4, 0x10000), (4, 0x20)], [⟨31, 16, .rw, .t, 0⟩, ⟨15, 0, .rw, .t, 0x1000⟩]⟩,
  ⟨0x1000C0, [(4, 0x10000)], [⟨9, 9, .rw, .t, 1⟩, ⟨8, 8, .rw, .t, 0⟩, ⟨7, 0, .rw, .t, 0x30⟩]⟩,
  ⟨0x1000C4, [(4, 0x10000)], [⟨31, 31, .rw, .t, 0⟩, ⟨23, 16, .rw, .t, 0x40⟩, ⟨15, 0, .rw, .t, 0x100⟩]⟩,
  ⟨0x100100, [(4, 0x10000), (8, 0x4)], [⟨31, 0, .rw, .t, 0⟩]⟩,
  ⟨0x100120, [(4, 0x10000)], [⟨23, 16, .rw, .t, 0x10⟩, ⟨14, 12, .rw, .t, 0⟩, ⟨10, 8, .rw, .t, 0⟩, ⟨6, 4, .rw, .t, 0⟩, ⟨2, 0, .rw, .t, 0⟩]⟩,
  ⟨0x100124, [(4, 0x10000)], [⟨31, 16, .rw, .t, 0x1000⟩, ⟨15, 0, .rw, .t, 0x1000⟩]⟩,
  ⟨0x100128, [(4, 0x10000)], [⟨31, 16, .rw, .t, 0x1000⟩, ⟨15, 0, .rw, .t, 0x1000⟩]⟩,
  ⟨0x10012C, [(4, 0x10000)], [⟨15, 0, .rw, .t, 0⟩]⟩,
  ⟨0x100130, [(4, 0x10000), (6, 0x4)], [⟨31, 16, .rw, .t, 0⟩, ⟨15, 0, .rw, .t, 0⟩]⟩,
  ⟨0x100180, [(4, 0x10000)], [⟨31, 0, .ro, .s, 0⟩]⟩,
  ⟨0x100184, [(4, 0x10000)], [⟨31, 0, .ro, .s, 0⟩]⟩]

/-- Register map of PIPE, part 2. -/
def tablePIPE2 : List RegDesc := [
  ⟨0x100188, [(4, 0x10000)], [⟨31, 0, .ro, .s, 0⟩]⟩,
  ⟨0x10018C, [(4, 0x10000)], [⟨31, 0, .ro, .s, 0⟩]⟩,
  ⟨0x100190, [(4, 0x10000)], [⟨31, 16, .ro, .s, 0⟩, ⟨15, 0, .ro, .s, 0⟩]⟩,
  ⟨0x1001A0, [(4, 0x10000)], [⟨4, 4, .w1c, .s, 0⟩, ⟨3, 3, .w1c, .s, 0⟩, ⟨2, 2, .w1c, .s, 0⟩, ⟨1, 1, .w1c, .s, 0⟩, ⟨0, 0, .w1c, .s, 0⟩]⟩,
  ⟨0x1001A4, [(4, 0x10000)], [⟨4, 0, .rw, .l, 0⟩]⟩,
  ⟨0x108000, [(4, 0x10000)], [⟨31, 16, .rw, .t, 0x1000⟩, ⟨15, 0, .rw, .t, 0x1000⟩]⟩,
  ⟨0x108004, [(4, 0x10000)], [⟨15, 0, .rw, .t, 0x1000⟩]⟩,
  ⟨0x108010, [(4, 0x10000), (4, 0x4)], [⟨31, 16, .rw, .t, 0⟩, ⟨15, 0, .rw, .t, 0⟩]⟩,
  ⟨0x108020, [(4, 0x10000)], [⟨15, 0, .rw, .t, 0⟩]⟩,
  ⟨0x108040, [(4, 0x10000)], [⟨31, 31, .rw, .t, 0⟩, ⟨20, 16, .rw, .t, 0⟩, ⟨11, 0, .rw, .t, 0⟩]⟩,
  ⟨0x108044, [(4, 0x10000)], [⟨15, 0, .wo, .l, 0⟩]⟩,
  ⟨0x108048, [(4, 0x10000)], [⟨31, 16, .rc, .s, 0⟩, ⟨15, 8, .rc, .s, 0⟩, ⟨2, 0, .ro, .s, 0⟩]⟩,
  ⟨0x108050, [(4, 0x10000)], [⟨3, 3, .w1c, .s, 0⟩, ⟨2, 2, .w1c, .s, 0⟩, ⟨1, 1, .w1c, .s, 0⟩, ⟨0, 0, .w1c, .s, 0⟩]⟩]

/-- Register map of PIPE, part 3. -/
def tablePIPE3 : List RegDesc := [
  ⟨0x108054, [(4, 0x10000)], [⟨3, 0, .rw, .l, 0⟩]⟩,
  ⟨0x108058, [(4, 0x10000)], [⟨31, 0, .ro, .s, 0⟩]⟩,
  ⟨0x108100, [(4, 0x10000), (3, 0x80)], [⟨31, 31, .rw, .t, 0⟩, ⟨30, 30, .rw, .t, 0⟩, ⟨29, 28, .rw, .t, 0⟩, ⟨27, 25, .rw, .t, 0⟩, ⟨24, 24, .rw, .t, 0⟩, ⟨20, 16, .rw, .t, 0x10⟩, ⟨11, 0, .rw, .t, 0⟩]⟩,
  ⟨0x108104, [(4, 0x10000), (3, 0x80)], [⟨20, 16, .rw, .t, 0⟩, ⟨11, 0, .rw, .t, 0⟩]⟩,
  ⟨0x108108, [(4, 0x10000), (3, 0x80)], [⟨30, 16, .rw, .t, 0⟩, ⟨14, 0, .rw, .t, 0⟩]⟩,
  ⟨0x10810C, [(4, 0x10000), (3, 0x80)], [⟨30, 16, .rw, .t, 0⟩, ⟨14, 0, .rw, .t, 0⟩]⟩,
  ⟨0x108110, [(4, 0x10000), (3, 0x80)], [⟨30, 16, .rw, .t, 0⟩, ⟨14, 0, .rw, .t, 0⟩]⟩,
  ⟨0x108114, [(4, 0x10000), (3, 0x80)], [⟨31, 0, .rw, .t, 0x1000000⟩]⟩,
  ⟨0x108118, [(4, 0x10000), (3, 0x80)], [⟨31, 0, .rw, .t, 0x1000000⟩]⟩,
  ⟨0x10811C, [(4, 0x10000), (3, 0x80)], [⟨31, 0, .rw, .t, 0⟩]⟩,
  ⟨0x108120, [(4, 0x10000), (3, 0x80)], [⟨31, 0, .rw, .t, 0⟩]⟩,
  ⟨0x108124, [(4, 0x10000), (3, 0x80)], [⟨5, 4, .rw, .t, 0⟩, ⟨1, 0, .rw, .t, 0⟩]⟩]

/-- Register map of PIPE, part 4. -/
def tablePIPE4 : List RegDesc := [
  ⟨0x108128, [(4, 0x10000), (3, 0x80)], [⟨31, 16, .rw, .t, 0⟩, ⟨15, 0, .rw, .t, 0⟩]⟩,
  ⟨0x10812C, [(4, 0x10000), (3, 0x80)], [⟨15, 0, .rw, .t, 0⟩]⟩,
  ⟨0x108130, [(4, 0x10000), (3, 0x80), (4, 0x4)], [⟨31, 16, .rw, .t, 0⟩, ⟨15, 0, .rw, .t, 0⟩]⟩,
  ⟨0x108140, [(4, 0x10000), (3, 0x80)], [⟨15, 0, .rw, .t, 0⟩]⟩,
  ⟨0x108144, [(4, 0x10000), (3, 0x80), (3, 0x4)], [⟨21, 0, .rw, .t, 0⟩]⟩,
  ⟨0x108150, [(4, 0x10000), (3, 0x80)], [⟨23, 0, .rw, .t, 0x10000⟩]⟩,
  ⟨0x108160, [(4, 0x10000), (3, 0x80)], [⟨15, 0, .wo, .l, 0⟩]⟩,
  ⟨0x108164, [(4, 0x10000), (3, 0x80)], [⟨31, 16, .rc, .s, 0⟩, ⟨15, 8, .rc, .s, 0⟩, ⟨3, 0, .ro, .s, 0⟩]⟩]

/-- Register map of PIPE. -/
def tablePIPE : List RegDesc := tablePIPE0 ++ tablePIPE1 ++ tablePIPE2 ++ tablePIPE3 ++ tablePIPE4

/-- Register map of STAT, part 0. -/
def tableSTAT0 : List RegDesc := [
  ⟨0x140000, [(4, 0x1000)], [⟨31, 31, .rw, .t, 0⟩, ⟨20, 16, .rw, .t, 0⟩, ⟨11, 0, .rw, .t, 0⟩]⟩,
  ⟨0x140004, [(4, 0x1000)], [⟨30, 16, .rw, .t, 0⟩, ⟨14, 0, .rw, .t, 0⟩]⟩,
  ⟨0x140008, [(4, 0x1000)], [⟨30, 16, .rw, .t, 0x7FFF⟩, ⟨14, 0, .rw, .t, 0x7FFF⟩]⟩,
  ⟨0x14000C, [(4, 0x1000)], [⟨13, 8, .rw, .t, 0xF⟩, ⟨5, 0, .rw, .t, 0xF⟩]⟩,
  ⟨0x140010, [(4, 0x1000)], [⟨31, 16, .rw, .t, 0xB71⟩, ⟨15, 0, .rw, .t, 0x367⟩]⟩,
  ⟨0x140014, [(4, 0x1000)], [⟨15, 0, .rw, .t, 0x128⟩]⟩,
  ⟨0x140018, [(4, 0x1000)], [⟨19, 0, .rw, .t, 0xF0000⟩]⟩,
  ⟨0x14001C, [(4, 0x1000)], [⟨15, 0, .rw, .t, 0⟩]⟩,
  ⟨0x140020, [(4, 0x1000), (3, 0x4)], [⟨31, 31, .rw, .t, 0⟩, ⟨2, 0, .rw, .t, 0⟩]⟩,
  ⟨0x140030, [(4, 0x1000)], [⟨15, 0, .wo, .l, 0⟩]⟩,
  ⟨0x140034, [(4, 0x1000)], [⟨31, 16, .rc, .s, 0⟩, ⟨15, 8, .rc, .s, 0⟩, ⟨3, 0, .ro, .s, 0⟩]⟩,
  ⟨0x140040, [(4, 0x1000)], [⟨31, 0, .ro, .s, 0⟩]⟩]

/-- Register map of STAT, part 1. -/
def tableSTAT1 : List RegDesc := [
  ⟨0x140044, [(4, 0x1000)], [⟨15, 0, .ro, .s, 0⟩]⟩,
  ⟨0x140048, [(4, 0x1000)], [⟨31, 0, .ro, .s, 0⟩]⟩,
  ⟨0x140050, [(4, 0x1000)], [⟨2, 2, .w1c, .s, 0⟩, ⟨1, 1, .w1c, .s, 0⟩, ⟨0, 0, .w1c, .s, 0⟩]⟩,
  ⟨0x140054, [(4, 0x1000)], [⟨2, 0, .rw, .l, 0⟩]⟩]

/-- Register map of STAT. -/
def tableSTAT : List RegDesc := tableSTAT0 ++ tableSTAT1

/-- Register map of CAL, part 0. -/
def tableCAL0 : List RegDesc := [
  ⟨0x150000, [], [⟨31, 28, .wo, .l, 0⟩, ⟨5, 0, .wo, .l, 0⟩]⟩,
  ⟨0x150004, [], [⟨31, 31, .rw, .l, 1⟩, ⟨20, 16, .rw, .l, 7⟩, ⟨12, 8, .rw, .l, 5⟩, ⟨4, 0, .rw, .l, 3⟩]⟩,
  ⟨0x150008, [], [⟨3, 3, .w1c, .s, 0⟩, ⟨2, 2, .w1c, .s, 0⟩, ⟨1, 1, .w1c, .s, 0⟩, ⟨0, 0, .w1c, .s, 0⟩]⟩,
  ⟨0x15000C, [], [⟨3, 0, .rw, .l, 0⟩]⟩,
  ⟨0x150010, [], [⟨31, 0, .ro, .s, 0⟩]⟩,
  ⟨0x150014, [], [⟨0, 0, .rw, .l, 0⟩]⟩,
  ⟨0x150018, [], [⟨31, 0, .rw, .l, 0⟩]⟩,
  ⟨0x15001C, [], [⟨31, 0, .rw, .l, 0⟩]⟩,
  ⟨0x150020, [], [⟨15, 0, .rw, .l, 0⟩]⟩,
  ⟨0x150030, [], [⟨31, 0, .ro, .s, 0⟩]⟩,
  ⟨0x150034, [], [⟨8, 0, .ro, .s, 0⟩]⟩,
  ⟨0x150038, [], [⟨31, 0, .ro, .s, 0⟩]⟩]

/-- Register map of CAL, part 1. -/
def tableCAL1 : List RegDesc := [
  ⟨0x15003C, [], [⟨8, 0, .ro, .s, 0⟩]⟩,
  ⟨0x150040, [], [⟨25, 20, .ro, .s, 0⟩, ⟨19, 19, .ro, .s, 0⟩, ⟨18, 18, .ro, .s, 0⟩, ⟨17, 16, .ro, .s, 0⟩]⟩,
  ⟨0x150044, [], [⟨7, 0, .rw, .l, 0⟩]⟩,
  ⟨0x150048, [], [⟨31, 0, .rw, .l, 0⟩]⟩,
  ⟨0x15004C, [], [⟨31, 0, .wo, .l, 0⟩]⟩,
  ⟨0x150100, [(41, 0x10)], [⟨31, 30, .ro, .s, 1⟩, ⟨29, 28, .ro, .s, 0⟩, ⟨15, 0, .ro, .s, 0⟩]⟩,
  ⟨0x150104, [(41, 0x10)], [⟨31, 16, .ro, .s, 0⟩, ⟨15, 0, .ro, .s, 0⟩]⟩,
  ⟨0x150800, [(256, 0x4)], [⟨15, 0, .ro, .s, 0⟩]⟩,
  ⟨0x151000, [(256, 0x4)], [⟨31, 0, .ro, .s, 0⟩]⟩,
  ⟨0x151400, [(64, 0x4)], [⟨31, 0, .ro, .s, 0⟩]⟩]

/-- Register map of CAL. -/
def tableCAL : List RegDesc := tableCAL0 ++ tableCAL1

/-- Register map of ENC, part 0. -/
def tableENC0 : List RegDesc := [
  ⟨0x160000, [(4, 0x4000)], [⟨31, 28, .wo, .l, 0⟩]⟩,
  ⟨0x160004, [(4, 0x4000)], [⟨31, 30, .ro, .s, 0⟩, ⟨25, 24, .ro, .s, 0⟩, ⟨19, 16, .ro, .s, 0⟩, ⟨11, 8, .ro, .s, 0⟩, ⟨0, 0, .ro, .s, 0⟩]⟩,
  ⟨0x160010, [(4, 0x4000)], [⟨7, 7, .w1c, .s, 0⟩, ⟨6, 6, .w1c, .s, 0⟩, ⟨5, 5, .w1c, .s, 0⟩, ⟨4, 4, .w1c, .s, 0⟩, ⟨3, 3, .w1c, .s, 0⟩, ⟨2, 2, .w1c, .s, 0⟩, ⟨1, 1, .w1c, .s, 0⟩, ⟨0, 0, .w1c, .s, 0⟩]⟩,
  ⟨0x160014, [(4, 0x4000)], [⟨7, 0, .rw, .l, 0⟩]⟩,
  ⟨0x160020, [(4, 0x4000)], [⟨31, 0, .ro, .s, 0⟩]⟩,
  ⟨0x160100, [(4, 0x4000), (4, 0x100)], [⟨31, 31, .rw, .t, 0⟩, ⟨29, 28, .rw, .x, 0⟩, ⟨25, 24, .rw, .t, 0⟩, ⟨22, 20, .rw, .x, 0⟩, ⟨15, 12, .rw, .x, 3⟩, ⟨11, 0, .rw, .x, 0⟩]⟩,
  ⟨0x160104, [(4, 0x4000), (4, 0x100)], [⟨20, 16, .rw, .t, 0⟩, ⟨11, 0, .rw, .t, 0⟩]⟩,
  ⟨0x160108, [(4, 0x4000), (4, 0x100)], [⟨11, 0, .rw, .x, 0⟩]⟩,
  ⟨0x16010C, [(4, 0x4000), (4, 0x100)], [⟨30, 16, .rw, .x, 0⟩, ⟨14, 0, .rw, .x, 0⟩]⟩,
  ⟨0x160110, [(4, 0x4000), (4, 0x100)], [⟨29, 24, .rw, .t, 0x20⟩, ⟨21, 16, .rw, .t, 0⟩, ⟨15, 8, .rw, .t, 0x10⟩, ⟨3, 0, .rw, .t, 4⟩]⟩,
  ⟨0x160114, [(4, 0x4000), (4, 0x100)], [⟨31, 0, .rw, .t, 0xFFFFFFFF⟩]⟩,
  ⟨0x160118, [(4, 0x4000), (4, 0x100)], [⟨20, 16, .rw, .t, 4⟩, ⟨11, 8, .rw, .t, 2⟩]⟩]

/-- Register map of ENC, part 1. -/
def tableENC1 : List RegDesc := [
  ⟨0x16011C, [(4, 0x4000), (4, 0x100)], [⟨21, 16, .rw, .t, 0x10⟩, ⟨5, 0, .rw, .t, 0x20⟩]⟩,
  ⟨0x160120, [(4, 0x4000), (4, 0x100)], [⟨8, 8, .rw, .t, 1⟩, ⟨7, 0, .rw, .t, 0xBA⟩]⟩,
  ⟨0x160124, [(4, 0x4000), (4, 0x100)], [⟨24, 24, .rw, .t, 0⟩, ⟨23, 16, .rw, .t, 1⟩, ⟨15, 8, .rw, .t, 1⟩, ⟨7, 0, .rw, .t, 1⟩]⟩,
  ⟨0x160128, [(4, 0x4000), (4, 0x100)], [⟨31, 16, .rw, .x, 0⟩, ⟨15, 0, .rw, .x, 0⟩]⟩,
  ⟨0x16012C, [(4, 0x4000), (4, 0x100)], [⟨31, 31, .rw, .t, 0⟩, ⟨20, 16, .rw, .t, 0⟩, ⟨11, 0, .rw, .t, 0⟩]⟩,
  ⟨0x160130, [(4, 0x4000), (4, 0x100)], [⟨15, 0, .wo, .l, 0⟩]⟩,
  ⟨0x160134, [(4, 0x4000), (4, 0x100)], [⟨15, 0, .wo, .l, 0⟩]⟩,
  ⟨0x160138, [(4, 0x4000), (4, 0x100)], [⟨15, 0, .wo, .l, 0⟩]⟩,
  ⟨0x160140, [(4, 0x4000), (4, 0x100)], [⟨31, 24, .rc, .s, 0⟩, ⟨19, 16, .ro, .s, 0⟩, ⟨11, 8, .ro, .s, 0⟩, ⟨3, 0, .ro, .s, 0⟩]⟩,
  ⟨0x160144, [(4, 0x4000), (4, 0x100)], [⟨31, 31, .ro, .s, 0⟩, ⟨30, 30, .ro, .s, 0⟩, ⟨29, 29, .ro, .s, 0⟩, ⟨27, 24, .ro, .s, 0⟩, ⟨21, 16, .ro, .s, 0⟩, ⟨9, 0, .ro, .s, 0⟩]⟩,
  ⟨0x160148, [(4, 0x4000), (4, 0x100)], [⟨31, 0, .ro, .s, 0⟩]⟩,
  ⟨0x16014C, [(4, 0x4000), (4, 0x100)], [⟨31, 16, .rc, .s, 0⟩, ⟨15, 0, .rc, .s, 0⟩]⟩]

/-- Register map of ENC, part 2. -/
def tableENC2 : List RegDesc := [
  ⟨0x160150, [(4, 0x4000), (4, 0x100)], [⟨31, 0, .ro, .s, 0⟩]⟩,
  ⟨0x160154, [(4, 0x4000), (4, 0x100)], [⟨2, 2, .ro, .s, 0⟩, ⟨1, 1, .ro, .s, 0⟩, ⟨0, 0, .ro, .s, 0⟩]⟩]

/-- Register map of ENC. -/
def tableENC : List RegDesc := tableENC0 ++ tableENC1 ++ tableENC2

/-- Register map of DEC, part 0. -/
def tableDEC0 : List RegDesc := [
  ⟨0x180000, [(2, 0x4000)], [⟨31, 28, .wo, .l, 0⟩]⟩,
  ⟨0x180004, [(2, 0x4000)], [⟨31, 30, .ro, .s, 0⟩, ⟨20, 16, .ro, .s, 0⟩, ⟨4, 0, .ro, .s, 0⟩]⟩,
  ⟨0x180008, [(2, 0x4000)], [⟨31, 31, .rw, .x, 0⟩, ⟨30, 30, .rw, .t, 0⟩, ⟨3, 0, .rw, .t, 1⟩]⟩,
  ⟨0x18000C, [(2, 0x4000)], [⟨20, 16, .rw, .t, 0x10⟩, ⟨11, 0, .rw, .t, 0⟩]⟩,
  ⟨0x180010, [(2, 0x4000)], [⟨20, 16, .rw, .t, 0⟩, ⟨11, 0, .rw, .t, 0⟩]⟩,
  ⟨0x180014, [(2, 0x4000)], [⟨31, 0, .rw, .l, 0⟩]⟩,
  ⟨0x180018, [(2, 0x4000)], [⟨15, 0, .wo, .l, 0⟩]⟩,
  ⟨0x18001C, [(2, 0x4000)], [⟨15, 0, .wo, .l, 0⟩]⟩,
  ⟨0x180020, [(2, 0x4000)], [⟨15, 0, .wo, .l, 0⟩]⟩,
  ⟨0x180024, [(2, 0x4000)], [⟨31, 24, .rc, .s, 0⟩, ⟨20, 16, .ro, .s, 0⟩, ⟨12, 8, .ro, .s, 0⟩, ⟨3, 0, .ro, .s, 0⟩]⟩,
  ⟨0x180028, [(2, 0x4000)], [⟨31, 0, .rw, .x, 0⟩]⟩,
  ⟨0x180030, [(2, 0x4000)], [⟨9, 9, .w1c, .s, 0⟩, ⟨8, 8, .w1c, .s, 0⟩, ⟨7, 7, .w1c, .s, 0⟩, ⟨6, 6, .w1c, .s, 0⟩, ⟨5, 5, .w1c, .s, 0⟩, ⟨4, 4, .w1c, .s, 0⟩, ⟨3, 3, .w1c, .s, 0⟩, ⟨2, 2, .w1c, .s, 0⟩, ⟨1, 1, .w1c, .s, 0⟩, ⟨0, 0, .w1c, .s, 0⟩]⟩]

/-- Register map of DEC, part 1. -/
def tableDEC1 : List RegDesc := [
  ⟨0x180034, [(2, 0x4000)], [⟨9, 0, .rw, .l, 0⟩]⟩,
  ⟨0x180040, [(2, 0x4000)], [⟨31, 31, .ro, .s, 0⟩, ⟨15, 0, .ro, .s, 0⟩]⟩,
  ⟨0x180044, [(2, 0x4000)], [⟨31, 0, .rc, .s, 0⟩]⟩,
  ⟨0x180048, [(2, 0x4000)], [⟨31, 16, .rc, .s, 0⟩, ⟨15, 0, .rc, .s, 0⟩]⟩,
  ⟨0x18004C, [(2, 0x4000)], [⟨31, 0, .ro, .s, 0⟩]⟩,
  ⟨0x180050, [(2, 0x4000)], [⟨30, 16, .ro, .s, 0⟩, ⟨14, 0, .ro, .s, 0⟩]⟩,
  ⟨0x180054, [(2, 0x4000)], [⟨31, 24, .ro, .s, 0⟩, ⟨20, 16, .ro, .s, 0⟩, ⟨9, 8, .ro, .s, 0⟩, ⟨3, 0, .ro, .s, 0⟩]⟩]

/-- Register map of DEC. -/
def tableDEC : List RegDesc := tableDEC0 ++ tableDEC1

/-- Register map of LZE, part 0. -/
def tableLZE0 : List RegDesc := [
  ⟨0x190000, [], [⟨31, 28, .wo, .l, 0⟩]⟩,
  ⟨0x190004, [], [⟨31, 30, .ro, .s, 0⟩, ⟨20, 16, .ro, .s, 0⟩, ⟨12, 8, .ro, .s, 0⟩, ⟨4, 0, .ro, .s, 0⟩]⟩,
  ⟨0x190008, [], [⟨26, 16, .rw, .l, 0x408⟩, ⟨4, 0, .rw, .x, 0x10⟩]⟩,
  ⟨0x190010, [(2, 0x4)], [⟨31, 16, .wo, .l, 0⟩, ⟨15, 0, .wo, .l, 0⟩]⟩,
  ⟨0x190018, [], [⟨31, 16, .rc, .s, 0⟩, ⟨15, 0, .rc, .s, 0⟩]⟩,
  ⟨0x190020, [], [⟨3, 3, .w1c, .s, 0⟩, ⟨2, 2, .w1c, .s, 0⟩, ⟨1, 1, .w1c, .s, 0⟩, ⟨0, 0, .w1c, .s, 0⟩]⟩,
  ⟨0x190024, [], [⟨3, 0, .rw, .l, 0⟩]⟩,
  ⟨0x190030, [], [⟨31, 0, .rc, .s, 0⟩]⟩,
  ⟨0x190034, [], [⟨31, 0, .rc, .s, 0⟩]⟩,
  ⟨0x190100, [(2, 0x40)], [⟨31, 16, .ro, .s, 0⟩, ⟨11, 8, .ro, .s, 0⟩, ⟨3, 0, .ro, .s, 0⟩]⟩,
  ⟨0x190104, [(2, 0x40)], [⟨31, 0, .ro, .s, 0⟩]⟩,
  ⟨0x190108, [(2, 0x40)], [⟨31, 0, .ro, .s, 0⟩]⟩]

/-- Register map of LZE, part 1. -/
def tableLZE1 : List RegDesc := [
  ⟨0x19010C, [(2, 0x40)], [⟨31, 0, .ro, .s, 0⟩]⟩,
  ⟨0x190110, [(2, 0x40)], [⟨31, 0, .ro, .s, 0⟩]⟩,
  ⟨0x190114, [(2, 0x40)], [⟨31, 0, .ro, .s, 0⟩]⟩,
  ⟨0x190118, [(2, 0x40)], [⟨31, 0, .ro, .s, 0⟩]⟩,
  ⟨0x19011C, [(2, 0x40)], [⟨31, 0, .ro, .s, 0⟩]⟩,
  ⟨0x190120, [(2, 0x40)], [⟨0, 0, .wo, .l, 0⟩]⟩,
  ⟨0x190124, [(2, 0x40)], [⟨31, 16, .rc, .s, 0⟩, ⟨4, 0, .ro, .s, 0⟩]⟩]

/-- Register map of LZE. -/
def tableLZE : List RegDesc := tableLZE0 ++ tableLZE1

/-- Register map of MEM, part 0. -/
def tableMEM0 : List RegDesc := [
  ⟨0x1A0000, [(6, 0x4000)], [⟨31, 28, .wo, .l, 0⟩]⟩,
  ⟨0x1A0004, [(6, 0x4000)], [⟨31, 29, .ro, .s, 0⟩, ⟨28, 28, .ro, .s, 0⟩, ⟨25, 16, .ro, .s, 0⟩, ⟨15, 0, .ro, .s, 0⟩]⟩,
  ⟨0x1A0008, [(6, 0x4000)], [⟨31, 31, .rw, .l, 1⟩, ⟨23, 16, .rw, .l, 0x10⟩, ⟨15, 0, .rw, .l, 0x80⟩]⟩,
  ⟨0x1A000C, [(6, 0x4000)], [⟨13, 8, .rw, .l, 0x30⟩, ⟨5, 0, .rw, .l, 0x10⟩]⟩,
  ⟨0x1A0010, [(6, 0x4000)], [⟨15, 0, .rw, .l, 0x3E8⟩]⟩,
  ⟨0x1A0020, [(6, 0x4000)], [⟨5, 5, .w1c, .s, 0⟩, ⟨4, 4, .w1c, .s, 0⟩, ⟨3, 3, .w1c, .s, 0⟩, ⟨2, 2, .w1c, .s, 0⟩, ⟨1, 1, .w1c, .s, 0⟩, ⟨0, 0, .w1c, .s, 0⟩]⟩,
  ⟨0x1A0024, [(6, 0x4000)], [⟨5, 0, .rw, .l, 0⟩]⟩,
  ⟨0x1A0030, [(6, 0x4000)], [⟨31, 0, .rc, .s, 0⟩]⟩,
  ⟨0x1A0034, [(6, 0x4000)], [⟨31, 0, .rc, .s, 0⟩]⟩,
  ⟨0x1A0038, [(6, 0x4000)], [⟨31, 0, .rc, .s, 0⟩]⟩,
  ⟨0x1A003C, [(6, 0x4000)], [⟨31, 0, .rc, .s, 0⟩]⟩,
  ⟨0x1A0040, [(6, 0x4000)], [⟨31, 0, .rc, .s, 0⟩]⟩]

/-- Register map of MEM, part 1. -/
def tableMEM1 : List RegDesc := [
  ⟨0x1A0044, [(6, 0x4000)], [⟨31, 0, .rc, .s, 0⟩]⟩,
  ⟨0x1A0048, [(6, 0x4000)], [⟨31, 0, .rc, .s, 0⟩]⟩,
  ⟨0x1A004C, [(6, 0x4000)], [⟨31, 0, .ro, .s, 0⟩]⟩,
  ⟨0x1A0050, [(6, 0x4000)], [⟨5, 0, .ro, .s, 0⟩]⟩]

/-- Register map of MEM. -/
def tableMEM : List RegDesc := tableMEM0 ++ tableMEM1

/-- Register map of MEMQ, part 0. -/
def tableMEMQ0 : List RegDesc := [
  ⟨0x1B8000, [], [⟨15, 0, .rw, .l, 0x2710⟩]⟩,
  ⟨0x1B8004, [], [⟨31, 31, .ro, .s, 0⟩, ⟨12, 0, .ro, .s, 0x4C0⟩]⟩,
  ⟨0x1B8008, [], [⟨0, 0, .w1c, .s, 0⟩]⟩,
  ⟨0x1B8010, [], [⟨31, 0, .rw, .l, 0⟩]⟩,
  ⟨0x1B8014, [], [⟨5, 0, .rw, .l, 0⟩]⟩,
  ⟨0x1B8018, [], [⟨31, 29, .ro, .s, 0⟩, ⟨28, 25, .ro, .s, 0⟩, ⟨24, 24, .ro, .s, 0⟩, ⟨23, 22, .ro, .s, 0⟩, ⟨21, 18, .ro, .s, 0⟩, ⟨17, 16, .ro, .s, 0⟩, ⟨0, 0, .ro, .s, 0⟩]⟩,
  ⟨0x1B801C, [], [⟨13, 0, .ro, .s, 0⟩]⟩,
  ⟨0x1B8100, [(48, 0x10)], [⟨31, 30, .rw, .l, 0⟩, ⟨29, 29, .rw, .l, 0⟩, ⟨23, 16, .rw, .l, 0⟩, ⟨15, 0, .rw, .l, 0⟩]⟩,
  ⟨0x1B8104, [(48, 0x10)], [⟨31, 0, .rc, .s, 0⟩]⟩,
  ⟨0x1B8108, [(48, 0x10)], [⟨15, 0, .rc, .s, 0⟩]⟩]

/-- Register map of MEMQ. -/
def tableMEMQ : List RegDesc := tableMEMQ0

/-- Register map of SCN, part 0. -/
def tableSCN0 : List RegDesc := [
  ⟨0x1C0000, [], [⟨31, 28, .wo, .l, 0⟩]⟩,
  ⟨0x1C0004, [], [⟨31, 30, .ro, .s, 0⟩, ⟨9, 0, .ro, .s, 0⟩]⟩,
  ⟨0x1C0010, [], [⟨5, 5, .w1c, .s, 0⟩, ⟨4, 4, .w1c, .s, 0⟩, ⟨3, 3, .w1c, .s, 0⟩, ⟨2, 2, .w1c, .s, 0⟩, ⟨1, 1, .w1c, .s, 0⟩, ⟨0, 0, .w1c, .s, 0⟩]⟩,
  ⟨0x1C0014, [], [⟨5, 0, .rw, .l, 0⟩]⟩,
  ⟨0x1C0020, [], [⟨15, 0, .rw, .l, 0⟩]⟩,
  ⟨0x1C0024, [], [⟨31, 0, .rw, .l, 0⟩]⟩,
  ⟨0x1C0028, [], [⟨5, 0, .rw, .l, 0⟩]⟩,
  ⟨0x1C002C, [], [⟨31, 31, .ro, .s, 0⟩, ⟨30, 28, .ro, .s, 0⟩, ⟨0, 0, .wo, .l, 0⟩]⟩,
  ⟨0x1C0100, [(64, 0x4)], [⟨26, 16, .rw, .t, 0⟩, ⟨10, 0, .rw, .t, 0⟩]⟩,
  ⟨0x1C1000, [(10, 0x100)], [⟨31, 31, .rw, .t, 0⟩, ⟨30, 30, .rw, .t, 0⟩, ⟨29, 29, .rw, .t, 0⟩, ⟨27, 24, .rw, .t, 0⟩, ⟨19, 16, .rw, .t, 1⟩, ⟨13, 12, .rw, .t, 0⟩, ⟨11, 8, .rw, .t, 2⟩, ⟨7, 0, .rw, .t, 8⟩]⟩,
  ⟨0x1C1004, [(10, 0x100)], [⟨31, 0, .rw, .t, 0⟩]⟩,
  ⟨0x1C1008, [(10, 0x100)], [⟨31, 16, .rw, .t, 0x8000⟩, ⟨15, 0, .rw, .t, 0x1000⟩]⟩]

/-- Register map of SCN, part 1. -/
def tableSCN1 : List RegDesc := [
  ⟨0x1C100C, [(10, 0x100)], [⟨15, 0, .rw, .t, 0x8000⟩]⟩,
  ⟨0x1C1010, [(10, 0x100)], [⟨28, 16, .rw, .t, 0x1F40⟩, ⟨9, 8, .rw, .t, 2⟩, ⟨0, 0, .rw, .t, 1⟩]⟩,
  ⟨0x1C1014, [(10, 0x100)], [⟨27, 16, .rw, .t, 0x437⟩, ⟨11, 0, .rw, .t, 0x77F⟩]⟩,
  ⟨0x1C1018, [(10, 0x100)], [⟨7, 0, .rw, .t, 0x2D⟩]⟩,
  ⟨0x1C101C, [(10, 0x100)], [⟨31, 0, .rw, .t, 0⟩]⟩,
  ⟨0x1C1020, [(10, 0x100)], [⟨31, 0, .ro, .s, 0⟩]⟩,
  ⟨0x1C1024, [(10, 0x100)], [⟨15, 0, .ro, .s, 0⟩]⟩,
  ⟨0x1C1028, [(10, 0x100)], [⟨31, 0, .ro, .s, 0⟩]⟩,
  ⟨0x1C102C, [(10, 0x100)], [⟨15, 0, .ro, .s, 0⟩]⟩,
  ⟨0x1C1030, [(10, 0x100)], [⟨31, 16, .rc, .s, 0⟩, ⟨15, 0, .rc, .s, 0⟩]⟩,
  ⟨0x1C1034, [(10, 0x100)], [⟨31, 0, .ro, .s, 0⟩]⟩,
  ⟨0x1C1038, [(10, 0x100)], [⟨31, 30, .ro, .s, 0⟩, ⟨29, 29, .ro, .s, 0⟩, ⟨12, 0, .ro, .s, 0⟩]⟩]

/-- Register map of SCN, part 2. -/
def tableSCN2 : List RegDesc := [
  ⟨0x1C2000, [(16, 0x80)], [⟨31, 31, .rw, .t, 0⟩, ⟨30, 30, .rw, .t, 0⟩, ⟨29, 29, .rw, .t, 0⟩, ⟨28, 28, .rw, .t, 0⟩, ⟨27, 24, .rw, .t, 0⟩, ⟨23, 22, .rw, .t, 0⟩, ⟨21, 20, .rw, .t, 0⟩, ⟨19, 18, .rw, .t, 0⟩, ⟨15, 12, .rw, .t, 2⟩, ⟨11, 0, .rw, .t, 0⟩]⟩,
  ⟨0x1C2004, [(16, 0x80)], [⟨11, 0, .rw, .t, 0⟩]⟩,
  ⟨0x1C2008, [(16, 0x80)], [⟨31, 22, .rw, .t, 0⟩, ⟨21, 16, .rw, .t, 0⟩, ⟨15, 0, .rw, .t, 0⟩]⟩,
  ⟨0x1C200C, [(16, 0x80)], [⟨30, 16, .rw, .t, 0⟩, ⟨14, 0, .rw, .t, 0⟩]⟩,
  ⟨0x1C2010, [(16, 0x80)], [⟨30, 16, .rw, .t, 0⟩, ⟨14, 0, .rw, .t, 0⟩]⟩,
  ⟨0x1C2014, [(16, 0x80)], [⟨30, 16, .rw, .t, 0⟩, ⟨14, 0, .rw, .t, 0⟩]⟩,
  ⟨0x1C2018, [(16, 0x80)], [⟨8, 0, .rw, .t, 0x100⟩]⟩,
  ⟨0x1C201C, [(16, 0x80)], [⟨31, 16, .rw, .t, 0⟩, ⟨15, 0, .rw, .t, 0⟩]⟩,
  ⟨0x1C2020, [(16, 0x80)], [⟨15, 0, .rw, .t, 0⟩]⟩,
  ⟨0x1C2024, [(16, 0x80)], [⟨15, 0, .wo, .l, 0⟩]⟩,
  ⟨0x1C2028, [(16, 0x80)], [⟨31, 16, .ro, .s, 0⟩, ⟨2, 0, .ro, .s, 0⟩]⟩,
  ⟨0x1C202C, [(16, 0x80)], [⟨31, 16, .rc, .s, 0⟩, ⟨15, 0, .rc, .s, 0⟩]⟩]

/-- Register map of SCN. -/
def tableSCN : List RegDesc := tableSCN0 ++ tableSCN1 ++ tableSCN2

/-- Register map of PCX, part 0. -/
def tablePCX0 : List RegDesc := [
  ⟨0x1D0000, [(2, 0x1000)], [⟨31, 28, .wo, .l, 0⟩, ⟨8, 8, .rw, .x, 0⟩, ⟨5, 4, .rw, .x, 0⟩, ⟨2, 0, .rw, .x, 5⟩]⟩,
  ⟨0x1D0004, [(2, 0x1000)], [⟨31, 30, .ro, .s, 0⟩, ⟨3, 0, .ro, .s, 0⟩]⟩,
  ⟨0x1D0010, [(2, 0x1000), (4, 0x4)], [⟨31, 31, .ro, .s, 0⟩, ⟨30, 30, .ro, .s, 0⟩, ⟨18, 16, .ro, .s, 0⟩, ⟨12, 8, .ro, .s, 0⟩]⟩,
  ⟨0x1D0020, [(2, 0x1000)], [⟨31, 16, .rc, .s, 0⟩, ⟨15, 0, .rc, .s, 0⟩]⟩,
  ⟨0x1D0030, [(2, 0x1000)], [⟨3, 3, .w1c, .s, 0⟩, ⟨2, 2, .w1c, .s, 0⟩, ⟨1, 1, .w1c, .s, 0⟩, ⟨0, 0, .w1c, .s, 0⟩]⟩,
  ⟨0x1D0034, [(2, 0x1000)], [⟨3, 0, .rw, .l, 0⟩]⟩,
  ⟨0x1D0040, [(2, 0x1000)], [⟨5, 0, .rw, .x, 0x14⟩]⟩,
  ⟨0x1D0050, [(2, 0x1000), (4, 0x4)], [⟨15, 0, .rw, .l, 0⟩]⟩,
  ⟨0x1D0060, [(2, 0x1000)], [⟨31, 0, .w1s, .l, 0⟩]⟩,
  ⟨0x1D2000, [(8, 0x100)], [⟨31, 28, .wo, .l, 0⟩, ⟨8, 8, .rw, .l, 0⟩, ⟨1, 0, .rw, .l, 0⟩]⟩,
  ⟨0x1D2004, [(8, 0x100)], [⟨31, 0, .rw, .l, 1⟩]⟩,
  ⟨0x1D2008, [(8, 0x100)], [⟨31, 29, .ro, .s, 0⟩, ⟨27, 24, .ro, .s, 0⟩, ⟨23, 23, .ro, .s, 0⟩]⟩]

/-- Register map of PCX, part 1. -/
def tablePCX1 : List RegDesc := [
  ⟨0x1D200C, [(8, 0x100)], [⟨31, 0, .ro, .s, 0⟩]⟩,
  ⟨0x1D2010, [(8, 0x100)], [⟨31, 0, .ro, .s, 0⟩]⟩,
  ⟨0x1D2014, [(8, 0x100)], [⟨31, 0, .ro, .s, 0⟩]⟩,
  ⟨0x1D2018, [(8, 0x100)], [⟨31, 16, .rc, .s, 0⟩, ⟨15, 0, .rc, .s, 0⟩]⟩,
  ⟨0x1D201C, [(8, 0x100)], [⟨15, 0, .rw, .l, 0x7D0⟩]⟩,
  ⟨0x1D2020, [(8, 0x100)], [⟨31, 0, .ro, .s, 0⟩]⟩,
  ⟨0x1D2024, [(8, 0x100)], [⟨31, 0, .ro, .s, 0⟩]⟩,
  ⟨0x1D2028, [(8, 0x100)], [⟨31, 0, .ro, .s, 0⟩]⟩,
  ⟨0x1D202C, [(8, 0x100)], [⟨31, 0, .ro, .s, 0⟩]⟩,
  ⟨0x1D2030, [(8, 0x100)], [⟨31, 0, .ro, .s, 0⟩]⟩,
  ⟨0x1D3000, [(4, 0x100)], [⟨31, 28, .wo, .l, 0⟩, ⟨24, 24, .rw, .x, 0⟩, ⟨19, 16, .rw, .x, 8⟩, ⟨7, 0, .rw, .x, 0⟩]⟩,
  ⟨0x1D3004, [(4, 0x100)], [⟨31, 29, .ro, .s, 0⟩, ⟨27, 24, .ro, .s, 0⟩, ⟨19, 16, .ro, .s, 0⟩, ⟨5, 0, .ro, .s, 0⟩]⟩]

/-- Register map of PCX, part 2. -/
def tablePCX2 : List RegDesc := [
  ⟨0x1D3008, [(4, 0x100)], [⟨31, 0, .ro, .s, 0⟩]⟩,
  ⟨0x1D300C, [(4, 0x100)], [⟨31, 0, .ro, .s, 0⟩]⟩,
  ⟨0x1D3010, [(4, 0x100)], [⟨31, 0, .ro, .s, 0⟩]⟩,
  ⟨0x1D3014, [(4, 0x100)], [⟨31, 0, .ro, .s, 0⟩]⟩,
  ⟨0x1D3018, [(4, 0x100)], [⟨31, 0, .ro, .s, 0⟩]⟩,
  ⟨0x1D301C, [(4, 0x100)], [⟨31, 0, .ro, .s, 0⟩]⟩,
  ⟨0x1D3020, [(4, 0x100)], [⟨31, 0, .ro, .s, 0⟩]⟩,
  ⟨0x1D3024, [(4, 0x100)], [⟨31, 0, .ro, .s, 0⟩]⟩,
  ⟨0x1D3028, [(4, 0x100)], [⟨31, 16, .wo, .l, 0⟩, ⟨15, 0, .wo, .l, 0⟩]⟩,
  ⟨0x1D302C, [(4, 0x100)], [⟨31, 16, .rc, .s, 0⟩]⟩,
  ⟨0x1D3030, [(4, 0x100)], [⟨31, 0, .ro, .s, 0⟩]⟩,
  ⟨0x1D3034, [(4, 0x100)], [⟨31, 0, .ro, .s, 0⟩]⟩]

/-- Register map of PCX, part 3. -/
def tablePCX3 : List RegDesc := [
  ⟨0x1D3038, [(4, 0x100)], [⟨15, 0, .rw, .l, 0x7D0⟩]⟩]

/-- Register map of PCX. -/
def tablePCX : List RegDesc := tablePCX0 ++ tablePCX1 ++ tablePCX2 ++ tablePCX3

/-- Register map of NET, part 0. -/
def tableNET0 : List RegDesc := [
  ⟨0x1E0000, [(2, 0x4000)], [⟨31, 28, .wo, .l, 0⟩, ⟨4, 4, .rw, .x, 1⟩, ⟨1, 0, .rw, .x, 0⟩]⟩,
  ⟨0x1E0004, [(2, 0x4000)], [⟨13, 0, .rw, .x, 0x5DC⟩]⟩,
  ⟨0x1E0008, [(2, 0x4000)], [⟨31, 30, .ro, .s, 0⟩, ⟨1, 1, .ro, .s, 0⟩, ⟨0, 0, .ro, .s, 0⟩]⟩,
  ⟨0x1E0010, [(2, 0x4000)], [⟨31, 0, .rw, .x, 0⟩]⟩,
  ⟨0x1E0014, [(2, 0x4000)], [⟨15, 0, .rw, .x, 0⟩]⟩,
  ⟨0x1E0018, [(2, 0x4000)], [⟨31, 0, .rw, .x, 0⟩]⟩,
  ⟨0x1E001C, [(2, 0x4000)], [⟨31, 0, .rw, .x, 0⟩]⟩,
  ⟨0x1E0020, [(2, 0x4000)], [⟨13, 8, .rw, .x, 0x40⟩, ⟨5, 0, .rw, .x, 0x18⟩]⟩,
  ⟨0x1E0030, [(2, 0x4000)], [⟨31, 0, .rw, .x, 0⟩]⟩,
  ⟨0x1E0034, [(2, 0x4000)], [⟨31, 0, .rw, .x, 0⟩]⟩,
  ⟨0x1E0038, [(2, 0x4000)], [⟨31, 0, .rw, .x, 0⟩]⟩,
  ⟨0x1E003C, [(2, 0x4000)], [⟨31, 0, .rw, .x, 0⟩]⟩]

/-- Register map of NET, part 1. -/
def tableNET1 : List RegDesc := [
  ⟨0x1E0040, [(2, 0x4000)], [⟨31, 0, .rw, .x, 0⟩]⟩,
  ⟨0x1E0044, [(2, 0x4000)], [⟨31, 0, .rw, .x, 0⟩]⟩,
  ⟨0x1E0048, [(2, 0x4000)], [⟨31, 0, .rw, .x, 0⟩]⟩,
  ⟨0x1E004C, [(2, 0x4000)], [⟨31, 0, .rw, .x, 0⟩]⟩,
  ⟨0x1E0060, [(2, 0x4000)], [⟨5, 5, .w1c, .s, 0⟩, ⟨4, 4, .w1c, .s, 0⟩, ⟨3, 3, .w1c, .s, 0⟩, ⟨2, 2, .w1c, .s, 0⟩, ⟨1, 1, .w1c, .s, 0⟩, ⟨0, 0, .w1c, .s, 0⟩]⟩,
  ⟨0x1E0064, [(2, 0x4000)], [⟨5, 0, .rw, .l, 0⟩]⟩,
  ⟨0x1E0070, [(2, 0x4000)], [⟨31, 16, .rc, .s, 0⟩, ⟨15, 0, .rc, .s, 0⟩]⟩,
  ⟨0x1E0074, [(2, 0x4000)], [⟨31, 0, .rc, .s, 0⟩]⟩,
  ⟨0x1E1000, [(2, 0x4000), (32, 0x40)], [⟨31, 31, .rw, .t, 0⟩, ⟨29, 28, .rw, .t, 0⟩, ⟨27, 27, .rw, .t, 0⟩, ⟨26, 26, .rw, .x, 0⟩, ⟨25, 25, .rw, .x, 0⟩, ⟨24, 24, .rw, .x, 0⟩, ⟨23, 20, .rw, .x, 6⟩, ⟨11, 0, .rw, .x, 0⟩]⟩,
  ⟨0x1E1004, [(2, 0x4000), (32, 0x40)], [⟨31, 0, .rw, .x, 0⟩]⟩,
  ⟨0x1E1008, [(2, 0x4000), (32, 0x40)], [⟨31, 0, .rw, .x, 0⟩]⟩,
  ⟨0x1E100C, [(2, 0x4000), (32, 0x40)], [⟨31, 0, .rw, .x, 0⟩]⟩]

/-- Register map of NET, part 2. -/
def tableNET2 : List RegDesc := [
  ⟨0x1E1010, [(2, 0x4000), (32, 0x40)], [⟨31, 0, .rw, .x, 0⟩]⟩,
  ⟨0x1E1014, [(2, 0x4000), (32, 0x40)], [⟨31, 16, .rw, .x, 0⟩, ⟨15, 0, .rw, .x, 0⟩]⟩,
  ⟨0x1E1018, [(2, 0x4000), (32, 0x40)], [⟨31, 31, .rw, .x, 0⟩, ⟨30, 28, .rw, .x, 0⟩, ⟨27, 16, .rw, .x, 0⟩, ⟨5, 0, .rw, .x, 0⟩]⟩,
  ⟨0x1E101C, [(2, 0x4000), (32, 0x40)], [⟨31, 0, .rw, .t, 0⟩]⟩,
  ⟨0x1E1020, [(2, 0x4000), (32, 0x40)], [⟨31, 0, .rw, .t, 0⟩]⟩,
  ⟨0x1E1024, [(2, 0x4000), (32, 0x40)], [⟨15, 0, .wo, .l, 0⟩]⟩,
  ⟨0x1E1028, [(2, 0x4000), (32, 0x40)], [⟨31, 24, .rc, .s, 0⟩, ⟨3, 0, .ro, .s, 0⟩]⟩,
  ⟨0x1E102C, [(2, 0x4000), (32, 0x40)], [⟨31, 16, .rc, .s, 0⟩, ⟨15, 0, .rc, .s, 0⟩]⟩,
  ⟨0x1E2000, [(2, 0x4000), (16, 0x40)], [⟨31, 31, .rw, .t, 0⟩, ⟨30, 30, .rw, .x, 0⟩, ⟨26, 16, .rw, .x, 0⟩, ⟨11, 0, .rw, .x, 0⟩]⟩,
  ⟨0x1E2004, [(2, 0x4000), (16, 0x40)], [⟨31, 16, .rw, .x, 0⟩, ⟨11, 0, .rw, .x, 0⟩]⟩,
  ⟨0x1E2008, [(2, 0x4000), (16, 0x40)], [⟨20, 16, .rw, .t, 0⟩]⟩,
  ⟨0x1E200C, [(2, 0x4000), (16, 0x40)], [⟨31, 0, .rw, .l, 0x3E8⟩]⟩]

/-- Register map of NET, part 3. -/
def tableNET3 : List RegDesc := [
  ⟨0x1E2010, [(2, 0x4000), (16, 0x40)], [⟨15, 0, .wo, .l, 0⟩]⟩,
  ⟨0x1E2014, [(2, 0x4000), (16, 0x40)], [⟨31, 16, .rc, .s, 0⟩, ⟨3, 0, .ro, .s, 0⟩]⟩,
  ⟨0x1E2018, [(2, 0x4000), (16, 0x40)], [⟨31, 16, .rc, .s, 0⟩, ⟨15, 0, .rc, .s, 0⟩]⟩,
  ⟨0x1E8000, [], [⟨31, 16, .rw, .l, 0x2710⟩, ⟨15, 0, .rw, .x, 0x1CE8⟩]⟩,
  ⟨0x1E8004, [], [⟨31, 0, .rw, .l, 0⟩]⟩,
  ⟨0x1E8008, [], [⟨15, 8, .rw, .l, 0x32⟩, ⟨2, 0, .rw, .l, 0⟩]⟩,
  ⟨0x1E8010, [], [⟨31, 24, .rw, .l, 0x80⟩, ⟨2, 0, .rw, .l, 0⟩]⟩,
  ⟨0x1E8014, [], [⟨31, 0, .rw, .l, 0⟩]⟩,
  ⟨0x1E8018, [], [⟨31, 0, .rw, .l, 0⟩]⟩,
  ⟨0x1E8020, [], [⟨31, 16, .rc, .s, 0⟩, ⟨15, 0, .rc, .s, 0⟩]⟩,
  ⟨0x1E8040, [(8, 0x4)], [⟨31, 30, .ro, .s, 0⟩, ⟨29, 29, .ro, .s, 0⟩, ⟨15, 0, .ro, .s, 0⟩]⟩]

/-- Register map of NET. -/
def tableNET : List RegDesc := tableNET0 ++ tableNET1 ++ tableNET2 ++ tableNET3

/-- Register map of AUD, part 0. -/
def tableAUD0 : List RegDesc := [
  ⟨0x1F0100, [(4, 0x20)], [⟨31, 31, .rw, .x, 0⟩, ⟨10, 8, .rw, .x, 2⟩, ⟨5, 4, .rw, .x, 0⟩, ⟨1, 0, .rw, .x, 0⟩]⟩,
  ⟨0x1F0104, [(4, 0x20)], [⟨9, 0, .rw, .l, 0x64⟩]⟩,
  ⟨0x1F0108, [(4, 0x20)], [⟨31, 30, .ro, .s, 0⟩, ⟨15, 0, .rc, .s, 0⟩]⟩,
  ⟨0x1F1000, [(16, 0x100)], [⟨31, 28, .wo, .l, 0⟩]⟩,
  ⟨0x1F1004, [(16, 0x100)], [⟨31, 31, .rw, .x, 0⟩, ⟨30, 30, .rw, .x, 0⟩, ⟨29, 28, .rw, .x, 0⟩, ⟨27, 27, .rw, .x, 1⟩, ⟨19, 16, .rw, .x, 1⟩, ⟨13, 12, .rw, .x, 2⟩, ⟨9, 8, .rw, .x, 1⟩, ⟨5, 4, .rw, .x, 2⟩, ⟨1, 0, .rw, .x, 0⟩]⟩,
  ⟨0x1F1008, [(16, 0x100)], [⟨15, 0, .rw, .x, 3⟩]⟩,
  ⟨0x1F100C, [(16, 0x100)], [⟨31, 31, .rw, .x, 0⟩, ⟨12, 0, .rw, .x, 0x1DF⟩]⟩,
  ⟨0x1F1010, [(16, 0x100)], [⟨31, 31, .rw, .l, 0⟩, ⟨15, 0, .rw, .l, 0x1E0⟩]⟩,
  ⟨0x1F1014, [(16, 0x100)], [⟨20, 16, .rw, .x, 0⟩, ⟨11, 0, .rw, .x, 0⟩]⟩,
  ⟨0x1F1018, [(16, 0x100)], [⟨31, 0, .rw, .l, 0⟩]⟩,
  ⟨0x1F101C, [(16, 0x100)], [⟨15, 0, .rw, .l, 0⟩]⟩,
  ⟨0x1F1020, [(16, 0x100)], [⟨15, 0, .wo, .l, 0⟩]⟩]

/-- Register map of AUD, part 1. -/
def tableAUD1 : List RegDesc := [
  ⟨0x1F1024, [(16, 0x100)], [⟨31, 30, .ro, .s, 0⟩, ⟨29, 29, .ro, .s, 0⟩, ⟨3, 0, .ro, .s, 0⟩]⟩,
  ⟨0x1F1028, [(16, 0x100)], [⟨5, 5, .w1c, .s, 0⟩, ⟨4, 4, .w1c, .s, 0⟩, ⟨3, 3, .w1c, .s, 0⟩, ⟨2, 2, .w1c, .s, 0⟩, ⟨1, 1, .w1c, .s, 0⟩, ⟨0, 0, .w1c, .s, 0⟩]⟩,
  ⟨0x1F102C, [(16, 0x100)], [⟨5, 0, .rw, .l, 0⟩]⟩,
  ⟨0x1F1030, [(16, 0x100)], [⟨31, 0, .rc, .s, 0⟩]⟩,
  ⟨0x1F1034, [(16, 0x100)], [⟨31, 16, .rc, .s, 0⟩, ⟨15, 0, .rc, .s, 0⟩]⟩,
  ⟨0x1F1038, [(16, 0x100)], [⟨31, 16, .rc, .s, 0⟩, ⟨15, 0, .rc, .s, 0⟩]⟩,
  ⟨0x1F103C, [(16, 0x100)], [⟨31, 0, .ro, .s, 0⟩]⟩]

/-- Register map of AUD. -/
def tableAUD : List RegDesc := tableAUD0 ++ tableAUD1

/-- Register map of TWB, part 0. -/
def tableTWB0 : List RegDesc := [
  ⟨0x1F8000, [(8, 0x200)], [⟨31, 28, .wo, .l, 0⟩]⟩,
  ⟨0x1F8004, [(8, 0x200)], [⟨18, 16, .rw, .l, 3⟩, ⟨10, 10, .rw, .x, 0⟩, ⟨9, 9, .rw, .x, 0⟩, ⟨8, 8, .rw, .x, 0⟩, ⟨5, 4, .rw, .x, 0⟩, ⟨2, 0, .rw, .x, 0⟩]⟩,
  ⟨0x1F8008, [(8, 0x200)], [⟨9, 0, .rw, .x, 0⟩]⟩,
  ⟨0x1F800C, [(8, 0x200)], [⟨31, 16, .rw, .l, 0x19⟩, ⟨15, 0, .rw, .l, 0xA⟩]⟩,
  ⟨0x1F8010, [(8, 0x200)], [⟨31, 31, .wo, .l, 0⟩, ⟨30, 30, .wo, .l, 0⟩, ⟨25, 16, .wo, .l, 0⟩, ⟨11, 8, .wo, .l, 0⟩, ⟨3, 0, .wo, .l, 0⟩]⟩,
  ⟨0x1F8014, [(8, 0x200)], [⟨31, 0, .rw, .l, 0⟩]⟩,
  ⟨0x1F8018, [(8, 0x200)], [⟨31, 0, .rw, .l, 0⟩]⟩,
  ⟨0x1F801C, [(8, 0x200)], [⟨31, 31, .ro, .s, 0⟩, ⟨27, 24, .ro, .s, 0⟩, ⟨3, 0, .ro, .s, 0⟩]⟩,
  ⟨0x1F8020, [(8, 0x200)], [⟨31, 0, .ro, .s, 0⟩]⟩,
  ⟨0x1F8024, [(8, 0x200)], [⟨31, 0, .ro, .s, 0⟩]⟩,
  ⟨0x1F8028, [(8, 0x200)], [⟨31, 0, .rw, .l, 0xFFFFFFFF⟩]⟩,
  ⟨0x1F802C, [(8, 0x200)], [⟨31, 0, .rw, .l, 0xFFFFFFFF⟩]⟩]

/-- Register map of TWB, part 1. -/
def tableTWB1 : List RegDesc := [
  ⟨0x1F8030, [(8, 0x200)], [⟨3, 0, .rw, .l, 0⟩]⟩,
  ⟨0x1F8034, [(8, 0x200)], [⟨31, 31, .wo, .l, 0⟩, ⟨25, 16, .rw, .l, 0⟩, ⟨3, 0, .rw, .l, 1⟩]⟩,
  ⟨0x1F8038, [(8, 0x200)], [⟨31, 0, .rw, .l, 0⟩]⟩,
  ⟨0x1F803C, [(8, 0x200)], [⟨31, 0, .rw, .l, 0⟩]⟩,
  ⟨0x1F8040, [(8, 0x200)], [⟨31, 29, .ro, .s, 0⟩, ⟨28, 28, .ro, .s, 0⟩, ⟨27, 27, .ro, .s, 0⟩, ⟨26, 26, .ro, .s, 0⟩, ⟨2, 0, .ro, .s, 0⟩]⟩,
  ⟨0x1F8044, [(8, 0x200)], [⟨8, 8, .w1c, .s, 0⟩, ⟨7, 7, .w1c, .s, 0⟩, ⟨6, 6, .w1c, .s, 0⟩, ⟨5, 5, .w1c, .s, 0⟩, ⟨4, 4, .w1c, .s, 0⟩, ⟨3, 3, .w1c, .s, 0⟩, ⟨2, 2, .w1c, .s, 0⟩, ⟨1, 1, .w1c, .s, 0⟩, ⟨0, 0, .w1c, .s, 0⟩]⟩,
  ⟨0x1F8048, [(8, 0x200)], [⟨8, 0, .rw, .l, 0⟩]⟩,
  ⟨0x1F804C, [(8, 0x200)], [⟨31, 16, .rc, .s, 0⟩, ⟨15, 8, .rc, .s, 0⟩, ⟨7, 0, .rc, .s, 0⟩]⟩]

/-- Register map of TWB. -/
def tableTWB : List RegDesc := tableTWB0 ++ tableTWB1

/-- Register map of GPIO, part 0. -/
def tableGPIO0 : List RegDesc := [
  ⟨0x1FC000, [(160, 0x4)], [⟨31, 29, .rw, .l, 0⟩, ⟨27, 26, .rw, .l, 0⟩, ⟨25, 24, .rw, .l, 1⟩, ⟨17, 16, .rw, .l, 0⟩, ⟨7, 0, .rw, .l, 0⟩]⟩,
  ⟨0x1FC400, [(5, 0x4)], [⟨31, 0, .rw, .l, 0⟩]⟩,
  ⟨0x1FC420, [(5, 0x4)], [⟨31, 0, .w1s, .l, 0⟩]⟩,
  ⟨0x1FC440, [(5, 0x4)], [⟨31, 0, .w1s, .l, 0⟩]⟩,
  ⟨0x1FC460, [(5, 0x4)], [⟨31, 0, .ro, .s, 0⟩]⟩,
  ⟨0x1FC480, [(5, 0x4)], [⟨31, 0, .w1c, .s, 0⟩]⟩,
  ⟨0x1FC4A0, [(5, 0x4)], [⟨31, 0, .ro, .s, 0⟩]⟩,
  ⟨0x1FC500, [], [⟨1, 1, .w1c, .s, 0⟩, ⟨0, 0, .w1c, .s, 0⟩]⟩,
  ⟨0x1FC504, [], [⟨1, 0, .rw, .l, 0⟩]⟩,
  ⟨0x1FC510, [], [⟨31, 16, .rw, .l, 0x64⟩, ⟨7, 0, .rw, .l, 2⟩]⟩,
  ⟨0x1FC514, [], [⟨31, 24, .ro, .s, 0⟩, ⟨23, 16, .ro, .s, 0⟩, ⟨15, 8, .ro, .s, 0⟩, ⟨7, 0, .ro, .s, 0⟩]⟩]

/-- Register map of GPIO. -/
def tableGPIO : List RegDesc := tableGPIO0

/-- Register map of EVT, part 0. -/
def tableEVT0 : List RegDesc := [
  ⟨0x1FE000, [(16, 0x40)], [⟨31, 29, .rw, .x, 0⟩, ⟨28, 27, .rw, .x, 0⟩, ⟨26, 25, .rw, .x, 0⟩, ⟨24, 24, .rw, .x, 0⟩, ⟨23, 23, .rw, .x, 0⟩, ⟨7, 0, .rw, .l, 0⟩]⟩,
  ⟨0x1FE004, [(16, 0x40)], [⟨31, 0, .rw, .l, 0⟩]⟩,
  ⟨0x1FE008, [(16, 0x40)], [⟨31, 0, .rw, .l, 0⟩]⟩,
  ⟨0x1FE00C, [(16, 0x40)], [⟨31, 0, .rw, .l, 0⟩]⟩,
  ⟨0x1FE010, [(16, 0x40)], [⟨31, 0, .rw, .l, 0⟩]⟩,
  ⟨0x1FE014, [(16, 0x40)], [⟨31, 0, .rw, .t, 0⟩]⟩,
  ⟨0x1FE018, [(16, 0x40)], [⟨31, 0, .ro, .s, 0⟩]⟩,
  ⟨0x1FE01C, [(16, 0x40)], [⟨31, 0, .ro, .s, 0⟩]⟩,
  ⟨0x1FE020, [(16, 0x40)], [⟨31, 16, .rc, .s, 0⟩, ⟨9, 9, .w1c, .s, 0⟩, ⟨8, 8, .w1c, .s, 0⟩, ⟨4, 0, .ro, .s, 0⟩]⟩,
  ⟨0x1FE024, [(16, 0x40)], [⟨0, 0, .wo, .l, 0⟩]⟩,
  ⟨0x1FE028, [(16, 0x40)], [⟨31, 31, .rw, .x, 0⟩, ⟨30, 29, .ro, .s, 0⟩, ⟨28, 28, .w1s, .l, 0⟩, ⟨27, 26, .rw, .l, 0⟩, ⟨25, 24, .rw, .l, 1⟩]⟩]

/-- Register map of EVT. -/
def tableEVT : List RegDesc := tableEVT0

/-- The register maps of the block that holds an address (R495, R496). -/
def tableAt (a : Nat) : List RegDesc :=
  if a < 0x10000 then tableSYS
  else if a < 0x20000 then tablePWR
  else if a < 0x30000 then tableTIME
  else if a < 0x40000 then tablePILOT
  else if a < 0x50000 then tableSEC
  else if a < 0x60000 then tableLOG
  else if a < 0x80000 then tableFAB
  else if a < 0x90000 then tableSRX
  else if a < 0x100000 then []
  else if a < 0x140000 then tablePIPE
  else if a < 0x144000 then tableSTAT
  else if a < 0x150000 then []
  else if a < 0x160000 then tableCAL
  else if a < 0x170000 then tableENC
  else if a < 0x180000 then []
  else if a < 0x188000 then tableDEC
  else if a < 0x190000 then []
  else if a < 0x1A0000 then tableLZE
  else if a < 0x1B8000 then tableMEM
  else if a < 0x1C0000 then tableMEMQ
  else if a < 0x1D0000 then tableSCN
  else if a < 0x1E0000 then tablePCX
  else if a < 0x1F0000 then tableNET
  else if a < 0x1F8000 then tableAUD
  else if a < 0x1FC000 then tableTWB
  else if a < 0x1FE000 then tableGPIO
  else if a < 0x200000 then tableEVT
  else []

/-- An offset from a register's first instance is that of an instance of the array. -/
def dimsMatch : List (Nat × Nat) → Nat → Bool
  | [], r => r == 0
  | (c, s) :: rest, r => decide (r / s < c) && dimsMatch rest (r % s)

/-- The register at a word address; none where no map names the address (R7, R496). -/
def regAt (a : Nat) : Option RegDesc :=
  (tableAt a).find? fun r => decide (r.base ≤ a) && dimsMatch r.dims (a - r.base)

/-- The word made of the reset values of a register's fields. -/
def RegDesc.rstWord (r : RegDesc) : Nat := r.fields.foldl (fun n f => n + f.rst <<< f.lo) 0

end Sys2Proof.Machine
end

