-- ==== Sys2Proof/Machine/ResetWords.lean ====
section
/-! DEFINITION. The reset value of every control-space word (R14), with the reset values the maps give by rule: unit staggers (R43), the quay table (R306), identity matrices (R183, R207) and fuse copies (R233, R234, R498). -/

namespace Sys2Proof.Machine

/-- Stage offset of a unit, 7 where the unit is not tide-bound (R43). -/
def stageOffset (u : Nat) : Nat :=
  if u < 4 then 0 else if u < 8 then 1 else if u < 12 then 2 else if u < 14 then 0
  else if u = 15 then 2 else if u = 18 ∨ u = 19 then 3 else if u = 21 ∨ u = 22 then 3
  else if 24 ≤ u ∧ u < 40 then 0 else if 41 ≤ u ∧ u < 45 then 0 else 7

/-- Reset staggers in PCLK cycles (R43). -/
def resetStagger (u : Nat) : Nat :=
  if 4 ≤ u ∧ u < 8 then 64 + 256 * (u - 4)
  else if 8 ≤ u ∧ u < 12 then 192 + 256 * (u - 8)
  else if u = 12 then 128 else if u = 13 then 640 else if u = 15 then 16
  else if u = 18 then 896 else if u = 19 then 1008 else if u = 21 then 32 else if u = 22 then 48 else 0

/-- The quay table at reset: BASE, RESERVE in GB/s and TARGET_NS (R306). -/
def resetQuay (q : Nat) : Nat × Nat × Nat :=
  if q < 4 then (3, 96, 2000)
  else if q < 12 then (if q % 2 = 0 then (1, 80, 2000) else (1, 128, 2000))
  else if q < 22 then (1, 0, 4000)
  else if q < 24 then (0, 0, 0)
  else if q < 28 then (2, 0, 500)
  else if q < 36 then (1, 0, 8000)
  else if q < 40 then (1, 0, 2000)
  else if q = 40 then (2, 0, 1000)
  else if q < 43 then (1, 0, 4000)
  else (2, 0, 500)

/-- Word `t` of a 3 × 3 matrix register array at reset: the identity in S4.12 (R207). -/
def identityWord (t : Nat) : Nat := if t = 0 ∨ t = 2 ∨ t = 4 then 0x1000 else 0

/-- Word `t` of PIPE_IRMAT at reset (R183): m[0][0], m[1][1] and m[2][2] are 0x1000. -/
def irmatWord (t : Nat) : Nat := if t = 0 then 0x1000 else if t = 2 then 0x10000000 else if t = 5 then 0x1000 else 0

/-- Insert a unit into a list ordered by reset stagger, then by unit ID. -/
def byStagger (u : Nat) : List Nat → List Nat
  | [] => [u]
  | v :: vs => if resetStagger v ≤ resetStagger u then v :: byStagger u vs else u :: v :: vs

/-- The order in which PWR switches the unit domains on (R451). -/
def powerOrder : List Nat := (List.range 40).foldl (fun l u => byStagger u l) []

/-- The factory array's CRC does not match (R233). -/
def factoryBad : Bool :=
  decide (Config.factoryFuse 255 % 2 ^ 32 ≠ crc32 ((List.range 255).map fun r => bytesLE 4 (Config.factoryFuse r)).flatten)

/-- The reset words that the maps state by rule and not by number. -/
def ruleWord (a : Nat) : Option Nat :=
  if a = 0x14 then some (bits (Config.factoryFuse 7) 3 0)
  else if 0x20 ≤ a ∧ a < 0x40 then some (Config.factoryFuse ((a - 0x20) / 4) % 2 ^ 32)
  else if 0x61000 ≤ a ∧ a < 0x61000 + 45 * 0x20 ∧ (a - 0x61000) % 0x20 = 0 then
    let u := (a - 0x61000) / 0x20
    some (stageOffset u <<< 16 + resetStagger u)
  else if 0x1B8100 ≤ a ∧ a < 0x1B8100 + 48 * 0x10 ∧ (a - 0x1B8100) % 0x10 = 0 then
    let (b, r, t) := resetQuay ((a - 0x1B8100) / 0x10)
    some (b <<< 30 + r <<< 16 + t)
  else if 0x100000 ≤ a ∧ a < 0x140000 then
    let o := a % 0x10000
    if 0x130 ≤ o ∧ o < 0x148 then some (irmatWord ((o - 0x130) / 4))
    else if 0x8010 ≤ o ∧ o < 0x8024 then some (identityWord ((o - 0x8010) / 4))
    else if 0x8100 ≤ o ∧ o < 0x8280 ∧ 0x30 ≤ (o - 0x8100) % 0x80 ∧ (o - 0x8100) % 0x80 < 0x44 then
      some (identityWord (((o - 0x8100) % 0x80 - 0x30) / 4))
    else none
  else if a = 0x150030 ∨ a = 0x150038 then some 0xFFFFFFFF
  else if a = 0x150034 ∨ a = 0x15003C then some 0x1FF
  else if a = 0x150008 then some (8 * b01 factoryBad)
  else if a = 0x150040 then some (2 ^ 19 * b01 factoryBad)
  else if 0x150800 ≤ a ∧ a < 0x150C00 then
    let l := (a - 0x150800) / 4
    some (bits (Config.factoryFuse (8 + l / 2)) (15 + 16 * (l % 2)) (16 * (l % 2)))
  else if 0x151000 ≤ a ∧ a < 0x151400 then some (Config.factoryFuse ((a - 0x151000) / 4) % 2 ^ 32)
  else none

/-- What a control-space word reads as after any reset that clears its block (R14); 0 where no map names it (R7). -/
def resetWord (a : Nat) : Word :=
  BitVec.ofNat 32 (match ruleWord a with
    | some v => v
    | none => match regAt a with | some r => r.rstWord | none => 0)

end Sys2Proof.Machine
end

