-- ==== Sys2Proof/Machine/SMap.lean ====
section
/-! DEFINITION. Sparse maps over natural-number keys in one canonical form: keys strictly rising, and no entry equal to what an unlisted key reads as. Memory (R33 to R39), control-space words and the tables of units are held so. -/

namespace Sys2Proof.Machine

/-- A sparse map: a list of (key, value) pairs, kept in the canonical form `SMap.wf`. -/
abbrev SMap (α : Type) := List (Nat × α)

namespace SMap

variable {α : Type}

/-- The value at key `k`, where an unlisted key reads as `d k`. -/
def get (d : Nat → α) (m : SMap α) (k : Nat) : α :=
  match m with
  | [] => d k
  | (j, v) :: rest => if k = j then v else get d rest k

/-- Remove key `k`, so that it reads as its default. -/
def erase (m : SMap α) (k : Nat) : SMap α := m.filter fun e => !decide (e.1 = k)

/-- List key `k` with value `v`, whatever `v` is. -/
def put (m : SMap α) (k : Nat) (v : α) : SMap α :=
  match m with
  | [] => [(k, v)]
  | (j, w) :: rest =>
    if k = j then (k, v) :: rest else if k < j then (k, v) :: (j, w) :: rest else (j, w) :: put rest k v

/-- Write `v` at key `k`: writing what the key reads as by default removes the entry. -/
def set [DecidableEq α] (d : Nat → α) (m : SMap α) (k : Nat) (v : α) : SMap α :=
  if v = d k then erase m k else put m k v

/-- The entries with keys in `lo … hi - 1`. -/
def window (m : SMap α) (lo hi : Nat) : SMap α := m.filter fun e => decide (lo ≤ e.1) && decide (e.1 < hi)

/-- The map with every key in `lo … hi - 1` back at its default. -/
def clear (m : SMap α) (lo hi : Nat) : SMap α := m.filter fun e => !(decide (lo ≤ e.1) && decide (e.1 < hi))

/-- Every key of the map is above `b`, the keys rise strictly, and no entry equals its default. -/
def okFrom [DecidableEq α] (d : Nat → α) : Option Nat → SMap α → Bool
  | _, [] => true
  | b, (k, v) :: rest =>
    (match b with | none => true | some j => decide (j < k)) && !decide (v = d k) && okFrom d (some k) rest

/-- The canonical form. -/
def wf [DecidableEq α] (d : Nat → α) (m : SMap α) : Bool := okFrom d none m

end SMap

end Sys2Proof.Machine
end

