-- ==== Sys2Proof/Machine/State.lean ====
section
/-! DEFINITION. The state of the block: plain data, holding every register, queue, table, memory and mode the spec gives it, and the commands that wait. -/

namespace Sys2Proof.Machine

/-- Why a step can stop (never for an effect the spec gives). -/
inductive Fault where
  /-- Raised by MEM_REQUEST for a DRAM address at or above 0x30_0000_0000, which R295 says does not exist. Safe: the machine stops where the spec names no cell. -/
  | noSuchAddress (addr : Nat)
  deriving DecidableEq, Repr

/-- Why a command has no meaning. -/
inductive Refusal where
  /-- Raised by exec for a command whose meaning is not written. Safe: nothing is claimed of it. -/
  | notModelled (mnemonic : String)
  deriving DecidableEq, Repr

/-- The states of a berth (R33). -/
inductive BState where
  | free | held | draining
  deriving DecidableEq, Repr

/-- An entry of the berth table (R33); `base` and `pages` count 4 KiB pages. -/
structure Berth where
  base : Nat := 0
  pages : Nat := 0
  format : Nat := 0
  owner : Nat := 0
  count : Nat := 0
  st : BState := .free
  man : Manifest := {}
  /-- Width and height of the picture a pipeline or decoder wrote, as consumers see the berth's layout (R201, log entry 14). -/
  size : Option (Nat × Nat) := none
  deriving DecidableEq, Repr

/-- One reference that a unit holds to a berth; `fresh` until the first parcel written under it (R34). -/
structure Ref where
  handle : Nat
  unit : Nat
  fresh : Bool
  deriving DecidableEq, Repr

/-- A berth command in progress: the result and query outcome it will show when it ends (R501). -/
structure BerthCmd where
  op : Nat
  handle : Nat
  result : Nat
  query : Option Berth
  deriving DecidableEq, Repr

/-- A read request waiting on a quay (R16). -/
structure QuayReq where
  quay : Nat
  unit : Nat
  handle : Nat
  ofs : Nat
  len : Nat
  ok : Bool
  deriving DecidableEq, Repr

/-- Work that a tide-bound unit has in hand: its stamped tide, the own tide in which the unit does it (R43, R44), whether it overran, and the settings epoch it uses (R30). -/
structure Work where
  unit : Nat
  tide : Nat
  due : Nat
  ovr : Bool
  epoch : Nat
  deriving DecidableEq, Repr

/-- FAB: the berth table, the references units hold, the aperture's and quays' work, and the fabric's arbitration. -/
structure Fab where
  berths : SMap Berth := []
  refs : List Ref := []
  cmd : Option BerthCmd := none
  reads : List QuayReq := []
  /-- The bytes the last read returned, and the berth manifest delivered with a first response (R16). -/
  readData : List Byte := []
  readMan : Manifest := {}
  /-- Per hop, the VC that wins the next slot (R19), plus 1. -/
  starve : SMap Nat := []
  /-- Per unit, the number of its latest own tide, plus 1 (R42). -/
  ownTide : SMap Nat := []
  work : List Work := []
  deriving DecidableEq, Repr

/-- A waiting claim (R53). -/
structure Claim where
  master : Nat
  arrived : Nat
  deadline : Nat
  deriving DecidableEq, Repr

/-- One class-T value in a shadow copy or a commit: its key (the place of its lowest field) and its parts (R11, R60). -/
structure TWrite where
  key : Nat
  parts : List (Fld × Nat)
  deriving DecidableEq, Repr

/-- A transaction slot in use (R58 to R61). -/
structure Txn where
  holder : Nat
  full : Bool
  begin : Nat
  writes : List TWrite
  deriving DecidableEq, Repr

/-- A committed transaction in the landing queue (R63, R65). -/
structure Commit where
  ticket : Nat
  target : Nat
  holder : Nat
  writes : List TWrite
  deriving DecidableEq, Repr

/-- A bank of a frame-bound instance's class-T words, tagged with a settings epoch (R30). -/
structure Bank where
  epoch : Nat
  used : Nat
  words : SMap Word
  deriving DecidableEq, Repr

/-- SYS: ownership and transactions. -/
structure Sys where
  owner : Nat := 0
  leaseEnd : Nat := 0
  handover : Nat := 0
  waits : List Claim := []
  /-- Each master's SYS_OWN_RESULT (R71). -/
  results : SMap Nat := []
  /-- The harbourmaster's last transaction request: result and slot. -/
  txnResult : Nat := 0
  txnSlot : Nat := 0
  slots : SMap (Option Txn) := []
  seq : Nat := 0
  /-- Per class-T field, the sequence of the last commit that wrote it, plus 1; 0 for none (R61). -/
  fieldSeq : SMap Nat := []
  landq : List Commit := []
  /-- The settings epoch (R29). -/
  epoch : Nat := 0
  /-- Banks of the frame-bound instances: SRX_p at p, PIPE_i at 4 + i, ENC_i at 8 + i, STAT_i at 12 + i (R30). -/
  banks : SMap (List Bank) := []
  /-- FCLK cycle, plus 1, of the latest ownership change, and what SYS_OWN_STATUS and SYS_OWN_RESULT show until that cycle ends (R54): owner, handover target, waiting claims, results. -/
  shownAt : Nat := 0
  shownOwner : Nat := 0
  shownHand : Nat := 0
  shownWaits : Nat := 0
  shownResults : SMap Nat := []
  /-- FCLK cycle, plus 1, in which a claim found no owner and won (R54). -/
  wonAt : Nat := 0
  /-- Class-T words that a unit bound by R31 took at its own tide or latch. -/
  applied : SMap (SMap Word) := []
  deriving DecidableEq, Repr

/-- A foreign master record of the best master clock choice (R119). -/
structure Foreign where
  prio1 : Nat
  clockClass : Nat
  accuracy : Nat
  variance : Nat
  prio2 : Nat
  gm : BitVec 64
  steps : Nat
  sender : BitVec 64
  deriving DecidableEq, Repr

/-- The servo of one time domain and the PTP engine that is its reference (R115 to R119). -/
structure Dom where
  /-- Full count of the domain in 2⁻⁴⁰ ns (R101, R105). -/
  count : Nat := 0
  /-- Wrap epoch last reported by a docket (R103). -/
  wrapSeen : Nat := 0
  adj : Int := 0
  integ : Int := 0
  /-- Consecutive valid samples towards LOCK_COUNT, and consecutive glitches (R116). -/
  good : Nat := 0
  /-- This acquisition has stepped the domain (R115). -/
  stepped : Bool := false
  glitches : Nat := 0
  /-- adj of the last 64 valid samples, newest first (R115), and (offset, time) of the last 4 (R116). -/
  adjHist : List Int := []
  lastOffs : List (Int × Nat) := []
  lastSync : Nat := 0
  meanDelay : Int := 0
  /-- A two-step Sync waiting for its Follow_Up: sequence and arrival time. -/
  syncWait : Option (Nat × Nat) := none
  /-- A delay exchange in progress: sequence, t3 and, for peer delay, the responder's t2. -/
  reqWait : Option (Nat × Nat) := none
  peerWait : Option (Nat × Nat × Nat) := none
  lastT1T2 : Option (Int × Int) := none
  parent : BitVec 64 := 0
  /-- The grandmaster's currentUtcOffset in seconds; 0 while its Announce messages mark none valid (R329). -/
  utc : Int := 0
  foreign : List Foreign := []
  lastAnnounce : Nat := 0
  txSeq : Nat := 0
  /-- Times of the last Sync, Announce and delay request sent (R119). -/
  lastTx : SMap Nat := []
  /-- The message the engine sent last: type, sequence and time carried. -/
  lastSent : Option (PtpKind × Nat × Nat) := none
  deriving DecidableEq, Repr

/-- A timestamp queue entry (R121). -/
structure Stamp where
  lo : Nat
  hi : Nat
  deriving DecidableEq, Repr

/-- An event pin (R121 to R124): its queue, its ID counter and its output. -/
structure EvtPin where
  queue : List Stamp := []
  id : Nat := 0
  asserted : Bool := false
  armed : Bool := false
  /-- Next scheduled assertion, and the end of the present pulse, in ns of the pin's domain or of TT. -/
  nextAt : Nat := 0
  endAt : Nat := 0
  /-- FCLK cycle at which a faulted pin is driven again (R407). -/
  retryAt : Nat := 0
  deriving DecidableEq, Repr

/-- TIME: domains, offset accumulator and tide schedule. -/
structure Time where
  dom : SMap Dom := []
  /-- ACC in 2⁻⁴⁰ ns (R106). -/
  acc : Int := 0
  /-- Fraction of TIDE_BASE in 2⁻⁴⁸ ns (R106, R109). -/
  baseFrac : Nat := 0
  /-- Number of the next tide to fire; none while tides do not run (R108). -/
  next : Option Nat := none
  /-- FCLK cycle in which the latest tide fired, and the cycles that hold the scheduled instants of the latest tides, newest first. -/
  firedAt : Nat := 0
  instants : List (Nat × Nat) := []
  /-- Tide at which the selected domain last switched (R27 k = 6). -/
  switchTide : Option Nat := none
  /-- A failover switch is due at the next tide, to this domain (R114). -/
  failTo : Option Nat := none
  /-- Consecutive 10 µs windows with TOSC in tolerance (R118). -/
  toscGood : Nat := 0
  ets : SMap (List Stamp) := []
  evt : SMap EvtPin := []
  deriving DecidableEq, Repr

/-- A docket in a pilot's queue (R87). -/
structure Docket where
  kind : Nat
  src : Nat
  sub : Nat
  payload : Nat
  arrived : Nat
  seq : Nat
  deriving DecidableEq, Repr

/-- The states of a pilot (PILOT_STATUS.STATE). -/
inductive PState where
  | empty | loaded | running | waiting | halted | stopped
  deriving DecidableEq, Repr

/-- A parcel move in flight (R99). -/
structure Move where
  token : Nat
  man : Manifest
  src : Nat
  dst : Nat
  addr : Nat
  srcOfs : Nat
  dstOfs : Nat
  len : Nat
  /-- Its berths were acquired. -/
  ok : Bool
  /-- The pilot was stopped, so its PMOV_DONE is discarded (R97). -/
  discard : Bool
  /-- The tide of the work it belongs to, and whether that work was abandoned (R44, R88). -/
  tide : Nat := 0
  gone : Bool := false
  deriving DecidableEq, Repr

/-- A pilot core (R73). -/
structure Pilot where
  st : PState := .empty
  x : SMap Word64 := []
  /-- Predicates p1 to p7 in bits 7:1. -/
  preds : Nat := 0
  pc : Nat := 0
  evec : Word64 := 0
  epc : Word64 := 0
  ecause : Nat := 0
  eval : Word64 := 0
  scratch : Word64 := 0
  retired : Nat := 0
  handler : Bool := false
  haltCause : Nat := 0
  prog : SMap Byte := []
  data : SMap Byte := []
  entry : Nat := 0
  buildId : Nat := 0
  banks : Nat := 0
  /-- Dockets released and not yet popped, oldest first. -/
  released : List Docket := []
  /-- Dockets that entered and are not yet released. -/
  arrivals : List Docket := []
  /-- The reserved slot holds a released DOCKET_LOST (R90). -/
  lostHeld : Bool := false
  drops : Nat := 0
  seq : Nat := 0
  /-- Hash context: the algorithm (0 SHA-384, 1 CRC-32) and the bytes absorbed. -/
  hashAlg : Nat := 0
  hashed : List Byte := []
  tokens : Nat := 0
  moves : List Move := []
  /-- Tide of the latest release, and tide of the work in hand (R91). -/
  lastTide : Nat := 0
  workTide : Nat := 0
  ovr : Bool := false
  /-- The WAIT in progress: its rd and the lowest tide it accepts (R80). -/
  waitRd : Nat := 0
  waitFor : Nat := 0
  /-- A start operation waits for the next tide boundary: 1 from LOADED, 2 restart (R502). -/
  starting : Nat := 0
  startAt : Nat := 0
  /-- Snapshot of the written banks taken by WAIT, to be published at the release (R77). -/
  snapshot : SMap Byte := []
  /-- Handle of a load in progress, with whether its berth was acquired (R96). -/
  load : Option (Nat × Bool) := none
  /-- The loaded image's owner slot, signing key serial and SHA-384 of its signed bytes (R428). -/
  owner : Nat := 0
  serial : Nat := 0
  imageHash : List Byte := []
  deriving DecidableEq, Repr

/-- A logbook record (R435); the body is a list of 8-byte words. -/
structure LogRec where
  typ : Nat
  src : Nat
  sub : Nat
  tide : Nat
  body : List Nat
  deriving DecidableEq, Repr

/-- LOG (R432 to R444). -/
structure Log where
  /-- Records of the open segment, in order, and the bytes they take. -/
  open_ : List LogRec := []
  bytes : Nat := 0
  /-- Segments closed and not yet written to the staging berth: number and records. -/
  closed : List (Nat × List LogRec) := []
  /-- The TIDE record of the present tide, which opens a continuation segment (R436). -/
  lastTide : Option LogRec := none
  /-- START and END records are due at the next tide. -/
  startDue : Bool := false
  stopDue : Bool := false
  /-- Segments in the staging berth that wait for LZE: number and length (R436). -/
  staged : List (Nat × Nat) := []
  /-- Records and segments lost and not yet reported by a LOST record. -/
  lostDue : Nat × Nat := (0, 0)
  /-- The staging and ring berths LOG holds, and the present output berth with the bytes used. -/
  stage : Option Nat := none
  ring : Option Nat := none
  out : Option (Nat × Nat) := none
  /-- Where the ring continues, and where its wrapping part begins (R437). -/
  ringAt : Nat := 0
  ringSeg0 : Nat := 0
  /-- LOG's own LZE job in flight: 0 none, 1 compress, 2 decompress. -/
  job : Nat := 0
  /-- Replay: the logbook berth in hand with the bytes consumed, and the next segment expected. -/
  inp : Option (Nat × Nat) := none
  inNext : Nat := 0
  /-- Replay: the records of the logbook that are not yet used, in order. -/
  replay : List LogRec := []
  /-- RUN waits for the first logged tide, and the logged instant of the latest tide (R439). -/
  runDue : Bool := false
  lastT : Nat := 0
  /-- Live leaves of replay without a logged leaf so far (R442). -/
  live : List LogRec := []
  /-- The divergence held (R443): tide, kind, source, stream and key word. -/
  held : Option (Nat × Nat × Nat × Nat × Nat) := none
  deriving DecidableEq, Repr

/-- An entry of a unit's queue of berths: the handle, a second handle or number, and whether the unit acquired the berth when the entry was pushed. -/
structure QEnt where
  h : Nat
  h2 : Nat := 0
  held : Bool := false
  deriving DecidableEq, Repr

/-- A calibration result that waits for the boundaries of its consumers (R225, R226): when the run ended, the lanes' new words, and the consumers left: 0 to 3 the ports, 4 MON, 5 to 14 the heads, 32 and up the pseudo-channels. -/
structure CalResult where
  doneAt : Nat
  lanes : List (Nat × Nat)
  waits : List Nat
  deriving DecidableEq, Repr

/-- CAL: results that wait, the field records burnt so far (target row and value; none for one that failed), and the burn in progress. -/
structure Cal where
  results : SMap (Option CalResult) := []
  burnt : List (Option (Nat × Nat)) := []
  /-- How many of them the last reset that reloads fuses read (R234). -/
  loaded : Nat := 0
  burn : Option (Nat × Nat) := none
  deriving DecidableEq, Repr

/-- What a Wydun lane holds beside its registers. -/
structure Lane where
  /-- FCLK cycles: entry of the present training state, loss of LOCK in RUN, and the fault. -/
  enteredAt : Nat := 0
  lostAt : Option Nat := none
  faultAt : Nat := 0
  /-- TRAIN blocks settled its identity since OP = TRAIN (R140). -/
  ident : Bool := false
  /-- Block boundary of the sand code, bits slipped modulo 66 (R138). -/
  boundary : Nat := 0
  /-- Code errors in the present tide (R142). -/
  codeTide : Nat := 0
  /-- The termination is disconnected after a short (R159). -/
  open_ : Bool := false
  /-- Receiver offset in force, S7.0 in mV (R224); none until CAL wrote it. -/
  offset : Option Nat := none
  /-- Bits checked before the present lock, and the FCLK cycle of the lock (R144). -/
  prbsBits : Nat := 0
  prbsFrom : Option Nat := none
  deriving DecidableEq, Repr

/-- One stratum of an open frame (R147 to R155): closed, the highest row accepted plus 1, the rows kept (bit r), and the run of consecutive rows not yet emitted. -/
structure Stratum where
  closed : Bool := false
  next : Nat := 0
  valid : Nat := 0
  first : Nat := 0
  run : List (List Byte) := []
  deriving DecidableEq, Repr

/-- An open frame of a camera port: its berths and whether it holds them, its stamp, the width code of its stratum-0 SOF, its lanes in use and its strata. -/
structure PortFrame where
  raw : Nat
  map : Nat
  entry : Bool
  rawOk : Bool
  mapOk : Bool
  man : Manifest
  width : Nat
  use : Nat
  short : Bool := false
  long : Bool := false
  strata : SMap (Option Stratum) := []
  deriving DecidableEq, Repr

/-- A sensor sync output (R163): asserted, its end, and the pulses due (start, end) in 2⁻⁴⁸ ns of tide time. -/
structure SyncOut where
  on : Bool := false
  offAt : Int := 0
  due : List (Int × Int) := []
  deriving DecidableEq, Repr

/-- A camera port: the start of its training, the width code of its last stratum-0 SOF since then, its elastic buffer's fill in bytes, the open frame, and the row that waits for its CRC (stratum, row, the FCLK cycle of its SEAM). -/
structure SrxPort where
  trainAt : Nat := 0
  width : Option Nat := none
  level : Nat := 0
  frame : Option PortFrame := none
  row : Option (Nat × Nat × Nat) := none
  sync : SMap SyncOut := []
  deriving DecidableEq, Repr

/-- A frame in a pipeline: its berths and those acquired, its stamp, its bank, the outputs written (branch, berth; branch 3 is the raw path), its stats berth, and the back-end events it set. -/
structure PipeFrame where
  raw : Nat
  map : Nat
  got : List Nat
  man : Manifest
  epoch : Nat
  outs : List (Nat × Nat)
  stat : Option Nat
  /-- FCLK cycle of the frame's start (R206). -/
  startAt : Nat
  ev : Nat := 0
  deriving DecidableEq, Repr

/-- A pipeline: the frame in progress, and whether it skips the next one (R43). -/
structure Pipe where
  frame : Option PipeFrame := none
  skip : Bool := false
  deriving DecidableEq, Repr

/-- The work of one engine on its tile of a picture (R243 to R245). -/
inductive TileSt where
  | waiting | coding | suspended | done
  deriving DecidableEq, Repr

/-- A tile: its engine; after an overrun the number of CTUs coded before cap mode was forced (R256); once done, its segment's length in bytes, its parcels, its cap mode, whether its refresh columns were all intra, its sum of log2_88(satd_intra) and its CTUs. -/
structure EncTile where
  engine : Nat
  st : TileSt := .waiting
  forced : Option Nat := none
  len : Nat := 0
  parcels : Nat := 0
  esParcels : Nat := 0
  cap : Bool := false
  intra : Bool := true
  sumLog : Nat := 0
  ctus : Nat := 0
  deriving DecidableEq, Repr

/-- A picture being coded: its stream, berths and references, its stamp and settings epoch, and what the start of the picture decided (R243 to R252). -/
structure EncPic where
  leader : Nat
  slot : Nat
  input : Nat
  bs : Nat
  es : Option Nat
  recRead : Nat
  recWrite : Nat
  got : List (Nat × Nat)
  man : Manifest
  epoch : Nat
  idr : Bool
  /-- Effective cap, and whether it was cut to the berth (R250). -/
  cap : Nat
  /-- Refreshed width before the picture, and whether it starts a cycle or is the deadline picture (R251, R252). -/
  b0 : Nat
  cycleStart : Bool
  deadline : Bool
  qp : Nat
  ev : Nat
  startAt : Nat
  tiles : List EncTile
  deriving DecidableEq, Repr

/-- A stream of an encoder slot between its pictures: the settings epoch that switched the slot on and waits for its IDR, an IDR forced by an abandon, raise, the recon berth last written, the refreshed width, the cycle in progress (frame number of its first picture, POC distance of its deadline) and mean_log2_prev. -/
structure EncStream where
  idrFrom : Option Nat := none
  forced : Bool := false
  raise_ : Nat := 0
  ref : Nat := 0
  b : Nat := 0
  cycle : Option (Nat × Nat) := none
  mean : Option Nat := none
  deriving DecidableEq, Repr

/-- A picture in a decoder's DPB or on its way out: its pool berth, its order count, whether it was generated, is tainted, waits for output, is a reference, is not copied (R269), its latency count, frame number, origin, format and window. -/
structure DpbPic where
  h : Nat
  poc : Int
  gen : Bool
  taint : Bool
  out : Bool
  ref : Bool
  mute : Bool
  latency : Nat
  frame : Nat
  origin : Nat
  chroma : Nat
  depth : Nat
  w : Nat
  hgt : Nat
  cropX : Nat
  cropY : Nat
  cropW : Nat
  cropH : Nat
  deriving DecidableEq, Repr

/-- A decoder (R261 to R272). -/
structure Dec where
  /-- Pool berths held. -/
  pool : List Nat := []
  /-- The access unit being decoded: FCLK cycle of its start. -/
  cur : Option Nat := none
  /-- The input berth in hand: handle, bytes, bytes parsed. -/
  inp : Option (Nat × Nat × Nat) := none
  /-- Access units the present own tide may still start. -/
  left : Nat := 0
  /-- The stamp of the present own tide. -/
  man : Manifest := {}
  dpb : List DpbPic := []
  /-- Pictures output by C.5.2 that wait for the copy engine, and the copy in progress with its berth and stamp. -/
  copies : List DpbPic := []
  copy : Option (DpbPic × Nat × Manifest) := none
  armed : Option Int := none
  /-- A cause of taint has occurred since taint was last cleared. -/
  cause : Bool := false
  /-- NAL units are discarded up to a supported IRAP picture. -/
  discard : Bool := false
  /-- The next access unit is decoded without being copied (R269). -/
  mute : Bool := false
  flushing : Bool := false
  /-- A picture has been decoded since RUN. -/
  begun : Bool := false
  deriving DecidableEq, Repr

/-- A lossless job in progress: its descriptor, its berths and references, the tag of an internal job of LOG, the blocks handled and what they gave, and its result once it has one (R273 to R291). -/
structure LzeJob where
  desc : List Byte
  descH : Nat
  got : List Nat
  /-- Blocks handled, the last index handled plus 1 (0 before the first), bytes consumed and produced, and parcels written. -/
  done : Nat := 0
  last : Nat := 0
  consumed : Nat := 0
  produced : Nat := 0
  seq : Nat := 0
  errs : Nat := 0
  /-- First block error: its code and index. -/
  firstErr : Option (Nat × Nat) := none
  result : Option Nat := none
  deriving DecidableEq, Repr

/-- A completion entry (R291, R292). -/
structure LzeDone where
  tag : Nat
  firstErr : Nat
  result : Nat
  nextBlock : Nat
  consumed : Nat
  produced : Nat
  errs : Nat
  firstErrBlock : Nat
  deriving DecidableEq, Repr

/-- LZE: the job of each queue, the completion queues, and the completions of LOG's internal jobs. -/
structure Lze where
  jobs : SMap (Option LzeJob) := []
  done : SMap (List LzeDone) := []
  logDone : List LzeDone := []
  deriving DecidableEq, Repr

/-- A request of 32 or 64 bytes in a pool or waiting for a credit (R296, R305): order of arrival, quay, address, direction, ECC outcome (0 none, 1 corrected, 2 uncorrectable), arrival, urgency reached, the quay fields in force at arrival, whether it takes an unreserved entry, and how often it was passed (R298). -/
structure MemReq where
  seq : Nat
  quay : Nat
  addr : Nat
  len : Nat
  write : Bool
  ecc : Nat
  arrived : Nat
  urg : Nat
  target : Nat
  hold : Bool
  low : Bool := false
  passed : Nat := 0
  deriving DecidableEq, Repr

/-- A bank: its open row, its page predictor, its last access (R300). -/
structure MemBank where
  row : Option Nat := none
  pred : Nat := 2
  used : Nat := 0
  deriving DecidableEq, Repr

/-- A pseudo-channel: pools, banks, direction of the burst in progress, bank served last. -/
structure MemPc where
  reads : List MemReq := []
  writes : List MemReq := []
  banks : SMap MemBank := []
  writing : Bool := false
  last : Nat := 63
  deriving DecidableEq, Repr

/-- A controller's sweep (R302): its start, the next pseudo-channel, the FCLK cycle of the present window. -/
structure MemSweep where
  startAt : Nat := 0
  next : Nat := 0
  winAt : Nat := 0
  deriving DecidableEq, Repr

/-- The memory system: pseudo-channel 32c + 2ch + pc, sweeps, requests that wait for a credit, bytes per quay in the present reserve window, and the order of arrival. -/
structure MemSys where
  pcs : SMap MemPc := []
  sweeps : SMap MemSweep := []
  waiting : List MemReq := []
  used : SMap Nat := []
  seq : Nat := 0
  deriving DecidableEq, Repr

/-- A head of scan-out: whether it runs, the tide instant its frames count from (2⁻⁴⁸ ns of tide time), the frame in progress and its start, a start that waits, whether the frame had an underrun and was ended, its lost lines (active line, first pixel lost), consecutive still latches (R333), the settings epoch of the latch, and what the interface carried last: timecode and active lines. -/
structure Head where
  run : Bool := false
  base : Int := 0
  frame : Nat := 0
  startAt : Int := 0
  pend : Option Int := none
  /-- RUN waits for the next tide to start a head whose EN is set. -/
  wake : Bool := false
  under : Bool := false
  ended : Bool := false
  lost : List (Nat × Nat) := []
  still : Nat := 0
  epoch : Nat := 0
  touched : Bool := false
  tc : Option (List Nat) := none
  sent : List (List Nat) := []
  /-- The transmitter ran at the latch (R462). -/
  tx : Bool := true
  deriving DecidableEq, Repr

/-- A layer: the berth it holds, whether it is shown in the present frame of a head, and its source size. -/
structure Layer where
  cur : Option Nat := none
  head : Option Nat := none
  on : Bool := false
  srcW : Nat := 0
  srcH : Nat := 0
  deriving DecidableEq, Repr

/-- Scan-out: heads, layers, the frame store's bytes, and the load in progress (region, berth, bytes). -/
structure Scn where
  heads : SMap Head := []
  layers : SMap Layer := []
  store : SMap Byte := []
  load : Option (Nat × Nat × Nat) := none
  deriving DecidableEq, Repr

/-- An NVMe command PCX issued or will issue (R339, R341): drive, place on the drive, bytes to write, the volume whose work it is (none for ATTACH and DETACH), the key of what it returns, and the FCLK cycle of its issue, plus 1. -/
structure NvmeCmd where
  op : NvmeOp
  drive : Nat
  lba : Nat := 0
  blocks : Nat := 0
  fua : Bool := false
  data : List Byte := []
  vol : Option Nat := none
  key : Nat := 0
  issued : Nat := 0
  deriving DecidableEq, Repr

/-- A drive: the port and link it was attached to, the admin commands still to come of the ATTACH or DETACH in progress, and its commands in order of issue. -/
structure Drive where
  port : Nat := 0
  link : Nat := 0
  attaching : Bool := false
  detaching : Bool := false
  plan : List NvmeOp := []
  cmds : List NvmeCmd := []
  deriving DecidableEq, Repr

/-- A recording job in progress (R347): its descriptor, the berths it holds, the logical block of its chunk, its chunk header, and the bytes a READ returned. -/
structure PcxJob where
  desc : List Byte
  got : List Nat
  block : Nat := 0
  hdr : List Byte := []
  read : List Byte := []
  deriving DecidableEq, Repr

/-- The work of a volume: none, an operation of R346, or a job. -/
inductive VolWork where
  | idle | format | mountHeaders | mountScan | unmount | write | checkpoint | readHeader | readPayload
  deriving DecidableEq, Repr

/-- A volume (R342 to R350): its work, the phases of commands still to issue, what its reads returned by key, its result; the volume's constants and log position as its headers give them; the sequence number each clip reached, plus 1. -/
structure Vol where
  work : VolWork := .idle
  phases : List (List NvmeCmd) := []
  got : SMap (List Byte) := []
  result : Option Nat := none
  job : Option PcxJob := none
  id : Nat := 0
  unit : Nat := 256
  members : List Nat := []
  serials : List (List Byte) := []
  cap : Nat := 0
  tail : Nat := 0
  chunk : Nat := 0
  gen : Nat := 0
  copy : Nat := 1
  seqs : SMap Nat := []
  deriving DecidableEq, Repr

/-- A PCX port: the subsystem IDs its endpoint presents (R499), the windows whose berth it holds, the MSI-X vectors it sent last, and what the last BAR2 read returned. -/
structure PcxPort where
  subsys : Word := 0
  wins : List Nat := []
  sent : Nat := 0
  data : List Byte := []
  deriving DecidableEq, Repr

/-- Storage: ports, drives and volumes. -/
structure Pcx where
  ports : SMap PcxPort := []
  drives : SMap Drive := []
  vols : SMap Vol := []
  deriving DecidableEq, Repr

/-- What a frame that NET sends is. -/
inductive FrameKind where
  | neighRequest | neighReply | echoReply | pier
  deriving DecidableEq, Repr

/-- A frame that NET sends (R358 to R362): its destination MAC (0 until resolved), IP version and destination, ports, the NET_TX_TAG word, and its payload. -/
structure NetFrame where
  kind : FrameKind
  mac : Nat := 0
  v6 : Bool := false
  dst : Nat := 0
  sport : Nat := 0
  dport : Nat := 0
  tag : Nat := 0
  payload : List Byte := []
  deriving DecidableEq, Repr

/-- A neighbour cache entry: its last confirmation (R359). -/
structure Neigh where
  v6 : Bool
  addr : Nat
  mac : Nat
  confirmed : Nat
  deriving DecidableEq, Repr

/-- A datagram held for an unresolved next hop (R359). -/
structure HeldFrame where
  hop : Nat
  since : Nat
  frame : NetFrame
  deriving DecidableEq, Repr

/-- The object a transmit stream is sending (R361 to R366). -/
structure TxObject where
  h : Nat
  man : Manifest
  num : Nat
  len : Nat
  ofs : Nat
  held : Bool
  deriving DecidableEq, Repr

/-- A transmit stream: its object, the numbers of its next object and datagram, and its token bucket in 1/2000 bit with the FCLK cycle of its last update (R364); none before the first datagram. -/
structure TxStream where
  cur : Option TxObject := none
  obj : Nat := 0
  seq : Nat := 0
  bucket : Option (Int × Nat) := none
  deriving DecidableEq, Repr

/-- The object a receive stream is filling (R368): its berth (0 for a discarded object), number, length, first header, the ranges that arrived, the size of a full datagram once known, and the FCLK cycle of its last datagram. -/
structure RxObject where
  h : Nat
  num : Nat
  len : Nat
  head : List Byte
  ranges : List (Nat × Nat) := []
  size : Nat := 0
  lastAt : Nat
  deriving DecidableEq, Repr

/-- A receive stream: its object, the number of the last object seen, and the next sequence expected. -/
structure RxStream where
  cur : Option RxObject := none
  last : Option Nat := none
  next : Option Nat := none
  deriving DecidableEq, Repr

/-- An Ethernet port: neighbours, held datagrams, streams, the stream served last per PRIO, the tides whose overrun was declared, and the frames the latest command sent. -/
structure NetPort where
  cache : List Neigh := []
  held : List HeldFrame := []
  tx : SMap TxStream := []
  rx : SMap RxStream := []
  turn : SMap Nat := []
  ovr : List Nat := []
  sent : List NetFrame := []
  deriving DecidableEq, Repr

/-- An HCP message Daxma sends: port, session byte, type, REPLY, sequence, plain body, and the encrypted body with its tag. -/
structure HcpOut where
  port : Nat
  session : Nat
  type : Nat
  reply : Bool
  seq : Nat
  body : List Byte
  wire : List Byte
  deriving DecidableEq, Repr

/-- An HCP session (R371, R372, R418): keys and salts, the sequence last executed and its stored reply, the FCLK cycles of its handshake and of its last valid message, and Daxma's own message count. -/
structure HcpSess where
  c2d : List Byte := []
  d2c : List Byte := []
  saltC : List Byte := []
  saltD : List Byte := []
  last : Option Nat := none
  stored : Option HcpOut := none
  since : Nat := 0
  validAt : Nat := 0
  sent : Nat := 0
  deriving DecidableEq, Repr

/-- HCP: sessions, the sequence and reply of array messages, the array replies that wait for their instant, and the message sent last. -/
structure Hcp where
  sess : SMap HcpSess := []
  arrayLast : Option Nat := none
  arrayStored : Option HcpOut := none
  later : List (Nat × HcpOut) := []
  out : Option HcpOut := none
  deriving DecidableEq, Repr

/-- A recorded audio block in progress (R385, R386): its berth (0 when none is written), sequence, time and media index of frame 0, tide, stamp, flags, frames and their bytes. -/
structure AudBlock where
  h : Nat
  seq : Nat
  t0 : Nat
  media : Nat
  tide : Nat
  man : Manifest
  flags : Nat
  n : Nat := 0
  bytes : List Byte := []
  deriving DecidableEq, Repr

/-- The block an output port plays: berth, time of frame 0, frames, sequence, and the frame output last (R388, R389). -/
structure AudHead where
  h : Nat
  t0 : Nat
  frames : Nat
  seq : Nat
  last : Option Nat := none
  deriving DecidableEq, Repr

/-- An audio port: the media index of its next frame with CLK = 0, its blocks, its slots' gates (0 not yet open, 1 open, 2 closed) and last samples, frames since START and since STOP, an ABORT that waits for the next frame, clock loss, and what its next block's header says. -/
structure AudPort where
  idx : Option Nat := none
  blk : Option AudBlock := none
  head : Option AudHead := none
  gates : SMap Nat := []
  prev : SMap (Option Int) := []
  waited : Nat := 0
  stopped : Nat := 0
  abort : Bool := false
  loss : Bool := false
  lastAt : Nat := 0
  first : Bool := false
  gap : Bool := false
  slip : Bool := false
  /-- The slots as output last. -/
  outs : List Nat := []
  deriving DecidableEq, Repr

/-- Audio: the phase offset each generator is slewing out, in 2⁻⁴⁰ ns (R381), the ports, and per stream the tide of its latest parcel, plus 1, with its parcels in that tide (R23). -/
structure Aud where
  offs : SMap Int := []
  ports : SMap AudPort := []
  seqs : SMap (Nat × Nat) := []
  deriving DecidableEq, Repr

/-- A controller transfer of a two-wire bus (R396, R399): an alert or an XFER, its address, bytes to write, bytes to read, and the attempts lost. -/
structure TwbXfer where
  alert : Bool
  ten : Bool
  addr : Nat
  wr : List Byte
  rdLen : Nat
  lost : Nat := 0
  deriving DecidableEq, Repr

/-- A two-wire bus: transfers that wait and the one in progress with the FCLK cycle of its start, the bytes of a lost transfer that Daxma receives as target, when its fault was found, the address phase of a control-target read, the bytes returned last, and a wake that waits for the clocks. -/
structure Twb where
  wait : List TwbXfer := []
  cur : Option (TwbXfer × Nat) := none
  pre : List Byte := []
  faultAt : Nat := 0
  resp : List Byte := []
  woke : Bool := false
  deriving DecidableEq, Repr

/-- GPIO: when each faulted pin is driven again, and per OUT word the FCLK cycle, plus 1, of the latest write with the value and the SET and CLR masks of that cycle (R404). -/
structure Gpio where
  retryAt : SMap Nat := []
  outs : SMap (Nat × Nat × Nat × Nat) := []
  deriving DecidableEq, Repr

/-- A hashed leaf (R423, R424). -/
structure Leaf where
  stream : Nat
  kind : Nat
  stratum : Nat
  plane : Nat
  firstRow : Nat
  tide : Nat
  late : Bool
  h : List Byte
  deriving DecidableEq, Repr

/-- The hash chain of a domain: leaves that wait on time and late, C and tide of the last entry, the tide closed last plus 1, and the signature that waits: tide and C. -/
structure Chain where
  leaves : List Leaf := []
  late : List Leaf := []
  c : List Byte := []
  tide : Nat := 0
  closed : Nat := 0
  sign : Option (Nat × List Byte) := none
  deriving DecidableEq, Repr

/-- SEC (R410 to R431): fuse bank (slot hashes, revoked slots, policy), open clip keys, recipient keys, array key and its ID, certificates, the command in progress (op, result), the domains enabled at the latest tides, the chains, the present output berth with the bytes used, and the parcels of the latest entry tides. -/
structure Sec where
  slots : SMap (List Byte) := []
  revoked : Nat := 0
  policy : Nat := 0
  clips : List (Nat × List Byte) := []
  recips : SMap (List Byte) := []
  array : Option (Nat × List Byte) := none
  certs : List Byte := []
  cmd : Option (Nat × Nat) := none
  masks : List (Nat × Nat) := []
  chains : SMap Chain := []
  out : Option (Nat × Nat) := none
  seqs : List (Nat × Nat) := []
  deriving DecidableEq, Repr

/-- PWR (R446 to R463): why a reset is held (bit 1 RESET_N, 2 brown-out, 3 thermal) and since when; time 0 of R457; unit domains that wait for their turn, with the FCLK cycle from which each may switch on; the FCLK cycle, plus 1, of the last switch-on; operations that wait for a domain (unit, address, value); per unit, plus 1, since when its block is stopped and when its domain went off; the last BLOCK reset; watchdog, VCORE step and reference times; sleep and its wake request (GPIO or bus, number); per faulted pin when it is tried again; audio ports whose clock or data pin is faulted; the bank voltages measured at the last COLD or WAKE reset. -/
structure Pwr where
  holds : Nat := 0
  heldAt : Nat := 0
  started : Nat := 0
  waitOn : List (Nat × Nat) := (powerOrder).map fun u => (u, 300000)
  lastOn : Nat := 0
  ops : List (Nat × Nat × Nat) := []
  idle : SMap Nat := []
  offAt : SMap Nat := []
  block : Option (Nat × Nat) := none
  kickAt : Nat := 0
  vidAt : Nat := 0
  sleepAt : Nat := 0
  asleep : Bool := false
  wake : Option (Bool × Nat) := none
  wakeAt : Nat := 0
  retry : SMap Nat := []
  audClock : Nat := 0
  audData : Nat := 0
  refLost : Option Nat := none
  refBad : Nat := 0
  txOff : Bool := false
  banks : Nat := 0
  deriving DecidableEq, Repr

/-- The JTAG port (R484, R485): the instruction selected, the boundary register, the debug register captured last, and the FCLK cycle, plus 1, of the latest debug access. -/
structure Jtag where
  ir : Nat := 0x01
  boundary : List Bool := []
  debug : Nat := 0
  at_ : Nat := 0
  deriving DecidableEq, Repr

/-- The state of Daxma. -/
structure State where
  /-- The commands that wait, first in, first out. -/
  pending : List Instr := []
  /-- The FCLK cycle count since reset: 0.5 ns each. -/
  now : Nat := 0
  /-- The number of the next free value (log entry 1): the model's own field. -/
  fresh : Nat := 0
  /-- Control-space words that differ from their reset values. -/
  regs : SMap Word := []
  /-- Upper words written and held until the lowest word is written (R11). -/
  held : SMap (Option Word) := []
  /-- Upper words latched by a read of the lowest word (R11). -/
  latched : SMap (Option Word) := []
  /-- What the latest control-space read returned. -/
  rsp : Word := 0
  /-- W1C bits that events set in this FCLK cycle, per word (R9). -/
  evSet : SMap Word := []
  /-- RC fields that events changed in this FCLK cycle: value before it, and this cycle's share (R9). -/
  evAdd : SMap (Nat × Nat) := []
  /-- Per UNIT_EVENT source, the FCLK cycle of its latest docket, plus 1 (R497). -/
  evPosted : SMap Nat := []
  /-- DRAM: the bytes that differ from what an unwritten byte reads as. -/
  mem : List Host.Cell := []
  fab : Fab := {}
  sys : Sys := {}
  time : Time := {}
  pilots : SMap Pilot := []
  /-- The shared data memory as its writers see it, and its published copy (R76, R77). -/
  shared : SMap Byte := []
  published : SMap Byte := []
  log : Log := {}
  /-- Queues of berths, each under the address of its push register. -/
  queues : SMap (List QEnt) := []
  /-- Parcels written in an enabled integrity domain whose leaf hash has not completed (R423). -/
  leaves : List (Manifest × List Byte) := []
  cal : Cal := {}
  /-- Wydun lane i of port p, under 64p + i. -/
  lanes : SMap Lane := []
  ports : SMap SrxPort := []
  pipes : SMap Pipe := []
  /-- Pictures in the encoders, and the stream of slot s of ENC_e under 4e + s. -/
  encPics : List EncPic := []
  encStreams : SMap EncStream := []
  decs : SMap Dec := []
  lze : Lze := {}
  memsys : MemSys := {}
  scn : Scn := {}
  pcx : Pcx := {}
  sec : Sec := {}
  nets : SMap NetPort := []
  hcp : Hcp := {}
  aud : Aud := {}
  twbs : SMap Twb := []
  gpio : Gpio := {}
  pwr : Pwr := {}
  jtag : Jtag := {}
  deriving DecidableEq, Repr

/-- The machine right after a COLD reset: every register at the value its map states, empty memories, tables and queues (R14, R455). -/
def State.reset : State := {}

end Sys2Proof.Machine
end

