-- ==== Sys2Proof/Machine/Ops.lean ====
section
/-! DEFINITION. The named operations over control-space words, events, dockets, the logbook, DRAM, the berth table and the references units hold. -/

namespace Sys2Proof.Machine

/-- The outcome of a command. -/
abbrev Res := Host.Outcome State Fault Refusal

namespace State

/-! ### Control-space words -/

/-- The stored word at an address: its reset value until something changes it (R14). -/
def word (s : State) (a : Nat) : Word := s.regs.get resetWord a

/-- Store a word. -/
def setWord (s : State) (a : Nat) (v : Word) : State := { s with regs := s.regs.set resetWord a v }

/-- The value of a field. -/
def fld (s : State) (f : Fld) : Nat := bits (s.word f.addr).toNat f.hi f.lo

/-- Write a field, leaving the other bits of its word. -/
def setFld (s : State) (f : Fld) (v : Nat) : State :=
  s.setWord f.addr (BitVec.ofNat 32 (putBits (s.word f.addr).toNat f.hi f.lo v))

/-- A one-bit field as a Boolean. -/
def flag (s : State) (f : Fld) : Bool := decide (s.fld f ≠ 0)

/-- A value held in two fields, the low word first (R11). -/
def fld2 (s : State) (lo hi : Fld) : Nat := s.fld lo + s.fld hi <<< 32

/-- Write a value held in two fields. -/
def setFld2 (s : State) (lo hi : Fld) (v : Nat) : State := (s.setFld lo v).setFld hi (v >>> 32)

/-- Every word of `lo … hi - 1` back at its reset value (R14). -/
def resetWords (s : State) (lo hi : Nat) : State := { s with regs := s.regs.clear lo hi }

/-! ### Free values -/

/-- A free value: nothing constrains it (log entry 1). -/
def freeVal (s : State) : Nat := Config.freeNat s.fresh

/-- The state in which the next free value is another one. -/
def nextFree (s : State) : State := { s with fresh := s.fresh + 1 }

/-! ### Tables keyed by an index -/

def berth (s : State) (h : Nat) : Berth := s.fab.berths.get (fun _ => {}) h
def setBerth (s : State) (h : Nat) (b : Berth) : State :=
  { s with fab := { s.fab with berths := s.fab.berths.set (fun _ => {}) h b } }

def pilot (s : State) (k : Nat) : Pilot := s.pilots.get (fun _ => {}) k
def setPilot (s : State) (k : Nat) (p : Pilot) : State := { s with pilots := s.pilots.set (fun _ => {}) k p }

def dom (s : State) (d : Nat) : Dom := s.time.dom.get (fun _ => {}) d
def setDom (s : State) (d : Nat) (x : Dom) : State :=
  { s with time := { s.time with dom := s.time.dom.set (fun _ => {}) d x } }

def evtPin (s : State) (i : Nat) : EvtPin := s.time.evt.get (fun _ => {}) i
def setEvtPin (s : State) (i : Nat) (x : EvtPin) : State :=
  { s with time := { s.time with evt := s.time.evt.set (fun _ => {}) i x } }

/-! ### Modes and time -/

/-- The number of the latest tide (TIDE_NOW). -/
def tide (s : State) : Nat := s.fld2 (Reg.TIDE_NOW_LO_LO) (Reg.TIDE_NOW_HI_HI)

/-- Tides run (R108). -/
def running (s : State) : Bool := s.flag Reg.TIME_CTRL_RUN

/-- The domain in force (TIME_STATUS.SEL). -/
def sel (s : State) : Nat := s.fld Reg.TIME_STATUS_SEL

/-- State of a domain: 0 FREE, 1 ACQUIRE, 2 LOCKED, 3 HOLDOVER (R115). -/
def domState (s : State) (d : Nat) : Nat :=
  if d = 0 then s.fld Reg.TIME_STATUS_STATE_A else s.fld Reg.TIME_STATUS_STATE_B

/-- Whole nanoseconds of a domain's full count, 64 bits (R105). -/
def fullNs (s : State) (d : Nat) : Nat := (s.dom d).count >>> 40

/-- The 48-bit extended count of the selected domain: wrap epoch and nanosecond field (R103, R113). -/
def capture (s : State) : Nat := s.fullNs s.sel % 2 ^ 48

/-- The logbook records (R432). -/
def recording (s : State) : Bool := decide (s.fld Reg.LOG_STATUS_STATE = 1)

/-- Replay drives the device (R439). -/
def replaying (s : State) : Bool := decide (s.fld Reg.LOG_STATUS_STATE = 3)

/-- Daxma is in replay mode: REPLAY_SETUP, REPLAYING or ENDED (R27, R438). -/
def replayMode (s : State) : Bool := decide (2 ≤ s.fld Reg.LOG_STATUS_STATE)

/-- Milliseconds, microseconds and nanoseconds in FCLK cycles of 0.5 ns. -/
def msCycles (n : Nat) : Nat := n * 2000000
def usCycles (n : Nat) : Nat := n * 2000
def nsCycles (n : Nat) : Nat := n * 2

/-! ### DRAM -/

/-- One byte of DRAM; a byte that nothing has written reads 0 (log entry 3). -/
def memByte (s : State) (a : Nat) : Byte := SMap.get (fun _ => 0) s.mem a

/-- `n` bytes of DRAM from address `a`. -/
def memRead (s : State) (a : Nat) : Nat → List Byte
  | 0 => []
  | n + 1 => s.memByte a :: memRead s (a + 1) n

/-- Bytes written to a memory map from key `a` on. -/
def storeBytes (m : SMap Byte) (a : Nat) : List Byte → SMap Byte
  | [] => m
  | b :: bs => storeBytes (m.set (fun _ => 0) a b) (a + 1) bs

/-- Bytes written to DRAM from address `a` on. -/
def memWrite (s : State) (a : Nat) (bs : List Byte) : State := { s with mem := storeBytes s.mem a bs }

/-! ### Event bits and counters -/

/-- Set bits of a W1C word; the FCLK cycle remembers them (R9). -/
def setBitsOf (s : State) (a m : Nat) : State :=
  let s := s.setWord a (s.word a ||| BitVec.ofNat 32 m)
  { s with evSet := s.evSet.set (fun _ => 0) a (s.evSet.get (fun _ => 0) a ||| BitVec.ofNat 32 m) }

/-- The key of a field among all fields of control space. -/
def fldKey (f : Fld) : Nat := f.addr * 32 + f.lo

/-- An RC field takes the value `v` by an event whose own share is `share` (R9). -/
def rcEvent (s : State) (f : Fld) (v share : Nat) : State :=
  let base := match s.evAdd.find? (fun e => e.1 == fldKey f) with
    | some (_, b, _) => b
    | none => s.fld f
  { s.setFld f v with evAdd := s.evAdd.put (fldKey f) (base, share) }

/-- The share of this FCLK cycle's events in an RC field (R9). -/
def rcShare (s : State) (f : Fld) : Nat :=
  match s.evAdd.find? (fun e => e.1 == fldKey f) with
  | some (_, _, h) => h
  | none => 0

/-- `k` events counted in a saturating counter field (R10). -/
def count (s : State) (f : Fld) (k : Nat := 1) : State :=
  let w := f.hi + 1 - f.lo
  s.rcEvent f (satAdd w (s.fld f) k) (satAdd w (s.rcShare f) k)

/-! ### Dockets -/

/-- The dockets that take one of the queue's 256 places: all but DOCKET_LOST (R90). -/
def queued (p : Pilot) : Nat := (p.released.filter fun d => decide (d.kind ≠ 0x0F)).length + p.arrivals.length

/-- A docket arrives at one pilot's queue (R88, R90): only a LOADED, RUNNING or WAITING pilot takes it, and a full queue drops and counts it. -/
def enqueue (s : State) (k kind src sub payload : Nat) : State :=
  let p := s.pilot k
  if p.st = .loaded ∨ p.st = .running ∨ p.st = .waiting then
    if queued p < 256 then
      s.setPilot k { p with arrivals := p.arrivals ++
        [⟨kind, src % 256, sub % 65536, payload % 2 ^ 64, s.now, 0⟩] }
    else (s.setPilot k { p with drops := p.drops + 1 }).count (Reg.PILOT_DKT_STATUS_LOST k)
  else s

/-- A unit's docket in replay is discarded and counted (R439); otherwise `f` delivers it. -/
def live (s : State) (f : State → State) : State :=
  if s.replaying then s.count Reg.LOG_REPLAY_CNT_LIVE_DKT else f s

/-- Post an addressed docket (R88). -/
def postTo (s : State) (k kind src sub payload : Nat) : State :=
  s.live fun s => s.enqueue k kind src sub payload

/-- Deliver a docket to every subscribed pilot among `ks`. -/
def deliver (kind src sub payload : Nat) : List Nat → State → State
  | [], s => s
  | k :: ks, s =>
    deliver kind src sub payload ks
      (if bit (s.word (Reg.PILOT_DKT_SUB_MASK k).addr).toNat kind then s.enqueue k kind src sub payload else s)

/-- Post a docket to every pilot that subscribes to its kind (R88). -/
def post (s : State) (kind src sub payload : Nat) : State :=
  s.live (deliver kind src sub payload (List.range 16))

/-- Or more event bits into the UNIT_EVENT docket of `src` that arrived in this cycle (R497); completion dockets of LZE and PCX are not event bits (R291, R348). -/
def mergeEvent (now src m : Nat) (d : Docket) : Docket :=
  if d.kind = 5 ∧ d.src = src ∧ d.arrived = now ∧ ¬((src = 14 ∨ src = 16 ∨ src = 17) ∧ 0x8000 ≤ d.sub) then { d with sub := d.sub ||| m } else d

def mergeAll (src m : Nat) : List Nat → State → State
  | [], s => s
  | k :: ks, s =>
    let p := s.pilot k
    mergeAll src m ks (s.setPilot k { p with arrivals := p.arrivals.map (mergeEvent s.now src m) })

/-- Post the event bits `m` of SOURCE `src` as UNIT_EVENT: one docket per FCLK cycle (R497). -/
def unitEvent (s : State) (src m : Nat) : State :=
  if m = 0 then s
  else if s.evPosted.get (fun _ => 0) src = s.now + 1 then mergeAll src m (List.range 16) s
  else { s with evPosted := s.evPosted.set (fun _ => 0) src (s.now + 1) }.post 5 src m 0

/-- Event bits `m` of the W1C word `a` occur: they are set, and those enabled in word `en` post UNIT_EVENT with SOURCE `src`, shifted to SUB bit `sh` (R88, R497). -/
def raise (s : State) (a en src m : Nat) (sh : Nat := 0) : State :=
  (s.setBitsOf a m).unitEvent src (((m &&& (s.word en).toNat) <<< sh) % 65536)

/-- Or more event bits into the docket of one instance of a block whose SUB holds the instance in the bits `im`. -/
def mergeEventAt (now src im inst m : Nat) (d : Docket) : Docket :=
  if d.kind = 5 ∧ d.src = src ∧ d.arrived = now ∧ d.sub &&& im = inst then { d with sub := d.sub ||| m } else d

def mergeAllAt (src im inst m : Nat) : List Nat → State → State
  | [], s => s
  | k :: ks, s =>
    let p := s.pilot k
    mergeAllAt src im inst m ks (s.setPilot k { p with arrivals := p.arrivals.map (mergeEventAt s.now src im inst m) })

/-- Event bits of an instance of a block, whose number stands at `inst` in the SUB bits `im` (R497, R313, R393). -/
def raiseAt (s : State) (a en src im inst m : Nat) : State :=
  let s := s.setBitsOf a m
  let e := m &&& (s.word en).toNat
  let key := src + 256 * (inst + 1)
  if e = 0 then s
  else if s.evPosted.get (fun _ => 0) key = s.now + 1 then mergeAllAt src im inst e (List.range 16) s
  else { s with evPosted := s.evPosted.set (fun _ => 0) key (s.now + 1) }.post 5 src (inst + e) 0

/-! ### The logbook -/

/-- Length of a record in bytes (R435). -/
def recLen (r : LogRec) : Nat := 16 + 8 * r.body.length

/-- The bytes of a record (R435). -/
def recBytes (r : LogRec) : List Byte :=
  bytesLE 1 r.typ ++ bytesLE 1 r.src ++ bytesLE 2 (8 * r.body.length) ++ bytesLE 6 r.tide ++ bytesLE 2 r.sub ++
    zeros 4 ++ (r.body.map (bytesLE 8)).flatten

/-- A record joins the open segment. -/
def pushRec (s : State) (r : LogRec) : State :=
  { s with log := { s.log with open_ := s.log.open_ ++ [r], bytes := s.log.bytes + recLen r } }

/-- A record that is due for records or segments lost (R436, R437). -/
def pushLost (s : State) : State :=
  if s.log.lostDue = (0, 0) then s
  else pushRec { s with log := { s.log with lostDue := (0, 0) } }
    ⟨0x0F, 0, 0, s.tide, [s.log.lostDue.1 % 2 ^ 32 + (s.log.lostDue.2 % 2 ^ 32) <<< 32]⟩

/-- The open segment closes and takes the next segment number (R436). -/
def closeSegment (s : State) : State :=
  { s.setFld Reg.LOG_STATUS_SEGMENT (s.fld Reg.LOG_STATUS_SEGMENT + 1) with
    log := { s.log with closed := s.log.closed ++ [(s.fld Reg.LOG_STATUS_SEGMENT, s.log.open_)], open_ := [], bytes := 0 } }

/-- A new segment opens with the TIDE record of the present tide, marked as a continuation (R436). -/
def continueSegment (s : State) : State :=
  pushLost (match s.log.lastTide with
    | some r => s.pushRec { r with sub := r.sub ||| 4 }
    | none => s)

/-- The staging berth holds 8 segments, the open one among them (R436, R437). -/
def stagingFull (s : State) : Bool := decide (8 ≤ s.log.closed.length + s.log.staged.length)

/-- A record that finds staging full is lost, counted and reported later (R437). -/
def loseRecord (s : State) : State :=
  ({ s with log := { s.log with lostDue := (s.log.lostDue.1, s.log.lostDue.2 + 1) } }.count
    Reg.LOG_CNT_LOST_RECORDS).raise 0x50044 0x50048 22 2

/-- Append a record while STATE is RECORDING and the START records are written (R432, R434, R436); with TRACE in replay, the live PILOT, LEAF and HEADCRC records (R444). -/
def logRec (s : State) (typ src sub : Nat) (body : List Nat) : State :=
  if (s.recording && !s.log.startDue) ||
      (s.replaying && s.flag Reg.LOG_CFG_TRACE && (typ == 0x05 || typ == 0x0D || typ == 0x0E)) then
    let r : LogRec := ⟨typ, src, sub % 65536, s.tide, body⟩
    if s.stagingFull then s.loseRecord
    else if 262144 < s.log.bytes + recLen r then (s.closeSegment.continueSegment).pushRec r
    else s.pushRec r
  else s

/-- A NOTE record: unit or master, event code, two words of detail (R432, R435). -/
def note (s : State) (src code a b : Nat) : State := s.logRec 0x0C src code [a, b]

/-! ### Divergences in replay (R441, R443) -/

/-- A divergence takes the place of the one held: lower tide, then lower KIND; otherwise the earlier stays (R443). -/
def divBefore (t kind : Nat) : Option (Nat × Nat × Nat × Nat × Nat) → Bool
  | none => true
  | some (t', k', _) => decide (t < t') || (decide (t = t') && decide (kind < k'))

/-- Report a divergence: kind, source, stream and key word (R441, R443). -/
def diverge (s : State) (t kind src stream key : Nat) : State :=
  let first := s.log.held.isNone
  let s := s.count Reg.LOG_DIV_CNT_COUNT
  let s := if divBefore t kind s.log.held then
      let s := { s with log := { s.log with held := some (t, kind, src, stream, key) } }
      let s := s.setFld2 Reg.LOG_DIV_TIDE_LO Reg.LOG_DIV_TIDE_HI t
      let s := ((s.setFld Reg.LOG_DIV_KIND kind).setFld Reg.LOG_DIV_SRC src).setFld Reg.LOG_DIV_STREAM stream
      s.setWord 0x5005C (BitVec.ofNat 32 key)
    else s
  if first then s.raise 0x50044 0x50048 22 4 else s

/-- A live record against the logged one that `same` names, in replay: the logged one is used up, and `ok` tells whether they agree; without one, `missing`. -/
def compareRec (s : State) (same ok : LogRec → Bool) (bad : State → State) (missing : State → State) : State :=
  if !s.replaying then s
  else match s.log.replay.find? same with
    | none => missing s
    | some r =>
      let s := { s with log := { s.log with replay := s.log.replay.erase r } }
      if ok r then s else bad s

end State

end Sys2Proof.Machine
end

