-- ==== Sys2Proof/Machine/Fabric.lean ====
section
/-! DEFINITION. The quay fabric and the berth table: manifests, references, berth requests, parcels, reads on quays, and the meanings of their commands. -/

namespace Sys2Proof

open Machine

/-! ### Manifests -/

/-- A manifest as a 256-bit value, bit 0 the least significant bit of byte 0 (R21). -/
def Manifest.toNat (m : Manifest) : Nat :=
  m.stream % 2 ^ 12 + (m.kind % 16) <<< 12 + (m.stratum % 4) <<< 16 + (m.plane % 16) <<< 18 + (m.flags % 1024) <<< 22 +
  (m.tide % 2 ^ 48) <<< 32 + (m.frame % 2 ^ 32) <<< 80 + (m.time % 2 ^ 32) <<< 112 + (m.epoch % 65536) <<< 144 +
  (m.setEpoch % 65536) <<< 160 + (m.expSet % 65536) <<< 176 + (m.origin % 2048) <<< 192 + (m.domain % 32) <<< 203 +
  (m.firstRow % 65536) <<< 208 + (m.rows % 65536) <<< 224 + (m.handle % 65536) <<< 240

/-- The manifest a 256-bit value spells (R21). -/
def Manifest.ofNat (n : Nat) : Manifest where
  stream := bits n 11 0
  kind := bits n 15 12
  stratum := bits n 17 16
  plane := bits n 21 18
  flags := bits n 31 22
  tide := bits n 79 32
  frame := bits n 111 80
  time := bits n 143 112
  epoch := bits n 159 144
  setEpoch := bits n 175 160
  expSet := bits n 191 176
  origin := bits n 202 192
  domain := bits n 207 203
  firstRow := bits n 223 208
  rows := bits n 239 224
  handle := bits n 255 240

/-- 32-bit word `i` of a manifest. -/
def Manifest.wordAt (m : Manifest) (i : Nat) : Nat := bits m.toNat (32 * i + 31) (32 * i)

/-- A later parcel under the same write reference: its flags are ORed in and its row count is added, saturating (R34). -/
def Manifest.merge (m p : Manifest) : Manifest :=
  { m with flags := m.flags ||| p.flags, rows := satAdd 16 m.rows p.rows }

namespace Machine

/-- Flags of R27 as bits of the flags field. -/
def flagStale : Nat := 1
def flagShort : Nat := 2
def flagLong : Nat := 4
def flagDrop : Nat := 8
def flagTaint : Nat := 16
def flagHold : Nat := 32
def flagSwitch : Nat := 64
def flagCap : Nat := 128
def flagReplay : Nat := 256
def flagOvr : Nat := 512

namespace State

/-! ### Faults of the berth table -/

/-- Record a berth fault: handle, unit and cause (R39). -/
def berthFault (s : State) (u h cause : Nat) : State :=
  let s := ((s.setFld Reg.FAB_BERTH_FAULT_UNIT u).setFld Reg.FAB_BERTH_FAULT_CAUSE cause).setFld Reg.FAB_BERTH_FAULT_HANDLE h
  ((s.count Reg.FAB_BERTH_FAULT_CNT_COUNT).raise 0x60000 0x60004 52 2).note u cause h 0

/-! ### References -/

/-- Unit `u` holds a reference to berth `h` (R39). -/
def holds (s : State) (u h : Nat) : Bool := s.fab.refs.any fun r => decide (r.unit = u) && decide (r.handle = h)

/-- Remove the oldest reference of unit `u` to berth `h`. -/
def dropRef (u h : Nat) : List Ref → List Ref
  | [] => []
  | r :: rs => if r.unit = u ∧ r.handle = h then rs else r :: dropRef u h rs

/-- Mark unit `u`'s references to berth `h` as having written (R34). -/
def seenRef (u h : Nat) (l : List Ref) : List Ref :=
  l.map fun (r : Ref) => if r.unit = u ∧ r.handle = h then { r with fresh := false } else r

/-- Acquire (R36): the state and whether it was granted. -/
def acquire (s : State) (u h : Nat) : State × Bool :=
  let b := s.berth h
  if h = 0 ∨ b.st ≠ .held then (s.berthFault u h 3, false)
  else if b.count = 255 then (s.berthFault u h 5, false)
  else
    let s := s.setBerth h { b with count := b.count + 1 }
    ({ s with fab := { s.fab with refs := s.fab.refs ++ [⟨h, u, true⟩] } }, true)

/-- The berth table's share of a release (R36): a DRAINING berth that reaches count 0 becomes FREE. -/
def releaseTable (s : State) (u h : Nat) : State :=
  let b := s.berth h
  if b.st = .free ∨ b.count = 0 ∨ h = 0 then s.berthFault u h 4
  else
    let b := { b with count := b.count - 1 }
    let b := if b.st = .draining ∧ b.count = 0 then { b with st := .free } else b
    let s := s.setBerth h b
    { s with fab := { s.fab with refs := dropRef u h s.fab.refs } }

/-! ### Allocate, free and query -/

/-- Results of berth commands (FAB_BERTH_CMD.RESULT). -/
def resOk : Nat := 0
def resNotFree : Nat := 1
def resBadHandle : Nat := 2
def resBadRange : Nat := 3
def resNotOwner : Nat := 4
def resDeferred : Nat := 5
def resDraining : Nat := 6
def resBadState : Nat := 7

/-- Allocate berth `h` (R35): the checks in order, then HELD with count 0 and a zero manifest. -/
def allocate (s : State) (h base pages format owner : Nat) : State × Nat :=
  if h = 0 then (s, resBadHandle)
  else if (s.berth h).st ≠ .free then (s, resNotFree)
  else if pages = 0 ∨ 0x3000000 < pages ∨ 0x3000000 < base + pages then (s, resBadRange)
  else (s.setBerth h ⟨base, pages, format, owner, 0, .held, {}, none⟩, resOk)

/-- An early free (R37): the event, the count and the handle, and its NOTE. -/
def earlyFree (s : State) (u h : Nat) : State :=
  let s := (s.count Reg.FAB_EARLY_FREE_CNT_COUNT).setFld Reg.FAB_EARLY_FREE_LAST_HANDLE h
  (s.raise 0x60000 0x60004 52 1).note u 0 h 0

/-- Free berth `h` for unit `u`; unit 40 is the harbourmaster (R36, R37). -/
def free (s : State) (u h : Nat) : State × Nat :=
  let b := s.berth h
  if h = 0 then (s, resBadHandle)
  else if b.st = .free then (s, resBadState)
  else if u ≠ 40 ∧ u ≠ b.owner then (s, resNotOwner)
  else if b.st = .draining then (s, resDraining)
  else if b.count = 0 then (s.setBerth h { b with st := .free }, resOk)
  else ((s.setBerth h { b with st := .draining }).earlyFree u h, resDeferred)

/-- Query berth `h` (R35, R38): the entry as it stands. -/
def query (s : State) (h : Nat) : Option Berth × Nat := if h = 0 then (none, resBadHandle) else (some (s.berth h), resOk)

/-- Code of a berth state (R33). -/
def stCode : BState → Nat
  | .free => 0 | .held => 1 | .draining => 2

/-! ### Access to berth contents -/

/-- Why unit `u` may not touch `len` bytes at `ofs` of berth `h`: 0 when it may (R39). -/
def accessCause (s : State) (u h ofs len : Nat) : Nat :=
  if !s.holds u h then 1 else if (s.berth h).pages * 4096 < ofs + len then 2 else 0

/-- Read berth contents; a refused read returns zeros and is recorded (R39). -/
def readBerth (s : State) (u h ofs len : Nat) : State × List Byte :=
  let c := s.accessCause u h ofs len
  if c = 0 then (s, s.memRead ((s.berth h).base * 4096 + ofs) len) else (s.berthFault u h c, zeros len)

/-- Read berth contents without recording a refusal: the bytes a unit that holds the berth sees. -/
def peek (s : State) (h ofs len : Nat) : List Byte := s.memRead ((s.berth h).base * 4096 + ofs) len

/-- Write berth contents; a refused write is discarded and recorded (R39). -/
def writeBerth (s : State) (u h ofs : Nat) (bs : List Byte) : State :=
  let c := s.accessCause u h ofs bs.length
  if c = 0 then s.memWrite ((s.berth h).base * 4096 + ofs) bs else s.berthFault u h c

/-! ### Parcels -/

/-- The manifest's share of a parcel that is written (R34): copied under a new write reference, merged under a used one. -/
def manifestIn (s : State) (u h : Nat) (m : Manifest) : State :=
  let b := s.berth h
  let fresh := s.fab.refs.any fun r => decide (r.unit = u) && decide (r.handle = h) && r.fresh
  let s := s.setBerth h { b with man := if fresh then m else b.man.merge m, size := if fresh then none else b.size }
  { s with fab := { s.fab with refs := seenRef u h s.fab.refs } }

/-- The picture written to berth `h` is `w × hgt` pixels (log entry 14). -/
def setPicSize (s : State) (h w hgt : Nat) : State := s.setBerth h { s.berth h with size := some (w, hgt) }

/-- A parcel of unit `u` arrives: payload at its offset, manifest into the berth manifest (R34, R39). -/
def parcelIn (s : State) (u : Nat) (m : Manifest) (ofs : Nat) (payload : List Byte) : State :=
  let c := s.accessCause u m.handle ofs payload.length
  if c = 0 then (s.memWrite ((s.berth m.handle).base * 4096 + ofs) payload).manifestIn u m.handle m
  else s.berthFault u m.handle c

/-! ### Stamps of originating units -/

/-- Flags every originating unit sets from the state of the device (R27, R231): HOLD, SWITCH, STALE of item 39. -/
def originFlags (s : State) (t : Nat) : Nat :=
  (if s.domState s.sel = 3 then flagHold else 0) |||
  (if s.time.switchTide = some t then flagSwitch else 0) |||
  (if bit (s.word 0x150034).toNat 7 then flagStale else 0)

/-- REPLAY while Daxma is in replay mode (R27). -/
def modeFlags (s : State) : Nat := if s.replayMode then flagReplay else 0

/-- The stamp of content originated now, in tide `t` (R25). -/
def stamp (s : State) (t : Nat) : Manifest :=
  { tide := t, time := s.capture % 2 ^ 32, epoch := s.capture >>> 32, setEpoch := s.sys.epoch,
    origin := s.fld Reg.SYS_ARRAY_ID_ID, flags := s.originFlags t ||| s.modeFlags }

/-! ### Units and tides -/

/-- The number of unit `u`'s latest own tide, plus 1; 0 before the first (R42). -/
def ownTide (s : State) (u : Nat) : Nat := s.fab.ownTide.get (fun _ => 0) u

/-- Unit `u` takes work for stamped tide `t` in hand, to be done in its own tide `due`, under settings epoch `e` (R30, R43). -/
def beginWork (s : State) (u t due e : Nat) : State :=
  { s with fab := { s.fab with work := s.fab.work ++ [⟨u, t, due, false, e⟩] } }

/-- Unit `u` ends its work for tide `t`. -/
def endWork (s : State) (u t : Nat) : State :=
  { s with fab := { s.fab with work := s.fab.work.filter fun w => !(decide (w.unit = u) && decide (w.tide = t)) } }

/-- Unit `u` ends all its work. -/
def endAllWork (s : State) (u : Nat) : State :=
  { s with fab := { s.fab with work := s.fab.work.filter fun w => !decide (w.unit = u) } }

/-- Unit `u` overran the tide for which it emits (R27 flag 9, R43). -/
def ovrFlag (s : State) (u t : Nat) : Nat :=
  if s.fab.work.any fun w => decide (w.unit = u) && decide (w.tide = t) && w.ovr then flagOvr else 0

/-- Declare an overrun of unit `u` for stamped tide `t` (R43): OVR on its work, the count, the tide, the event. -/
def declareOverrun (s : State) (u t : Nat) : State :=
  let s := { s with fab := { s.fab with work := s.fab.work.map fun (w : Work) =>
    if w.unit = u ∧ w.tide = t then ({ w with ovr := true } : Work) else w } }
  let s := s.count (Reg.FAB_UNIT_OVR_OVR_CNT u)
  let s := s.setFld2 (Reg.FAB_UNIT_OVR_TIDE_LO_TIDE_LO u) (Reg.FAB_UNIT_OVR_TIDE_HI_TIDE_HI u) t
  s.raise 0x60000 0x60004 52 4

/-- Count an abandon of unit `u` (R44). -/
def countAbandon (s : State) (u : Nat) : State :=
  (s.count (Reg.FAB_UNIT_OVR_ABANDON_CNT u)).raise 0x60000 0x60004 52 8

/-- Post BERTH_REL (R88): the unit, the handle, the frame number and the flags. -/
def berthRel (s : State) (u h : Nat) (frame flags : Nat) : State :=
  s.post 7 u h (frame % 2 ^ 32 + (flags % 1024) <<< 32)

end State

end Machine

end Sys2Proof
end

