-- ==== Sys2Proof/Machine/Schedule.lean ====
section
/-! DEFINITION. The tide schedule: tide period, tide time, scheduled instants and commit deadlines (R62, R105 to R109). -/

namespace Sys2Proof.Machine.State

/-- The tide period P in force, in 2⁻⁴⁸ ns (R106). -/
def period (s : State) : Nat :=
  (s.fld Reg.TIDE_PERIOD_NS_NS) <<< 48 + (s.fld Reg.TIDE_PERIOD_FHI_FRAC_HI) <<< 32 + s.fld Reg.TIDE_PERIOD_FLO_FRAC_LO

/-- TIDE_ANCHOR (R106). -/
def anchor (s : State) : Nat := s.fld2 Reg.TIDE_ANCHOR_LO_LO Reg.TIDE_ANCHOR_HI_HI

/-- TIDE_BASE with its hidden fraction, in 2⁻⁴⁸ ns (R106). -/
def base (s : State) : Nat :=
  ((s.word 0x20038).toNat + (s.word 0x2003C).toNat <<< 32) <<< 48 + s.time.baseFrac

/-- Tide time TT = D_sel − ACC in 2⁻⁴⁰ ns (R106). -/
def tideTime (s : State) : Int := ((s.dom s.sel).count : Int) - s.time.acc

/-- Tide time in 2⁻⁴⁸ ns. -/
def tideTime48 (s : State) : Int := s.tideTime * 256

/-- The scheduled instant T(n) in 2⁻⁴⁸ ns, exact (R106). -/
def schedTime (s : State) (n : Nat) : Int := (s.base : Int) + ((n : Int) - s.anchor) * s.period

/-- The commit deadline before a tide, in 2⁻⁴⁸ ns (R62). -/
def deadlineLead (s : State) : Int := ((s.fld Reg.SYS_TXN_DEADLINE_US * 1000) <<< 48 : Nat)

/-- The commit deadline of tide `n` has been reached or has passed (R62). -/
def deadlinePassed (s : State) (n : Nat) : Bool := decide (s.schedTime n - s.deadlineLead ≤ s.tideTime48)

/-- The smallest tide number whose instant lies after `x` in 2⁻⁴⁸ ns. -/
def firstTideAfter (s : State) (x : Int) : Nat :=
  ((s.anchor : Int) + (x - s.base).fdiv s.period + 1).toNat

/-- The tide that NEXT targets: the first whose commit deadline lies after now (R62). -/
def nextCommitTide (s : State) : Nat :=
  max (s.firstTideAfter (s.tideTime48 + s.deadlineLead)) (s.time.next.getD 0)

/-- Tide `n` is due: tide time has reached T(n) (R106). -/
def tideDue (s : State) (n : Nat) : Bool := decide (s.schedTime n ≤ s.tideTime48)

/-- FCLK cycles since the latest tide fired. -/
def sinceTide (s : State) : Nat := s.now - s.time.firedAt

end Sys2Proof.Machine.State
end

