-- ==== Sys2Proof/Machine/Control.lean ====
section
/-! DEFINITION. Ownership of control space and transactions: claims, leases and handovers (R46 to R57), shadow copies, commits, the landing queue and the banks of frame-bound blocks (R29, R30, R58 to R71). -/

namespace Sys2Proof.Machine

/-- Result codes of R71. -/
def rOk : Nat := 0
def rWaiting : Nat := 1
def rAuthFail : Nat := 2
def rNotOwner : Nat := 3
def rClaimTimeout : Nat := 4
def rHandoverLapsed : Nat := 5
def rNoSlot : Nat := 6
def rBusy : Nat := 7
def rNoTxn : Nat := 8
def rFull : Nat := 9
def rConflict : Nat := 10
def rLate : Nat := 11
def rTooFar : Nat := 12
def rQueueFull : Nat := 13
def rBadArg : Nat := 14
def rRolledBack : Nat := 15

/-- A master ID that can own Daxma: 1 to 3 and the HCP sessions (R46). -/
def isControlMaster (m : Nat) : Bool := decide (1 ≤ m ∧ m ≤ 3) || decide (8 ≤ m ∧ m ≤ 15)

/-- A pilot's master ID (R46). -/
def isPilotMaster (m : Nat) : Bool := decide (16 ≤ m ∧ m ≤ 31)

/-- `a` is later than `b` in 32-bit serial-number arithmetic (R61). -/
def seqAfter (a b : Nat) : Bool :=
  let d := (a + 2 ^ 32 - b % 2 ^ 32) % 2 ^ 32
  decide (0 < d ∧ d < 2 ^ 31)

namespace State

/-! ### Transactions -/

/-- The transaction slot `i` (R58). -/
def slot (s : State) (i : Nat) : Option Txn := s.sys.slots.get (fun _ => none) i

def setSlot (s : State) (i : Nat) (t : Option Txn) : State :=
  { s with sys := { s.sys with slots := s.sys.slots.set (fun _ => none) i t } }

/-- The slot that `h` holds open. -/
def slotOf (s : State) (h : Nat) : Option (Nat × Txn) :=
  (List.range 8).findSome? fun i => match s.slot i with
    | some t => if t.holder = h then some (i, t) else none
    | none => none

/-- The lowest free slot. -/
def freeSlot (s : State) : Option Nat := (List.range 8).find? fun i => (s.slot i).isNone

/-- Open a transaction for `h` (R58): BUSY before NO_SLOT. -/
def txnBegin (s : State) (h : Nat) : State × Nat :=
  match s.slotOf h with
  | some _ => (s, rBusy)
  | none => match s.freeSlot with
    | none => (s, rNoSlot)
    | some i => (s.setSlot i (some ⟨h, false, s.sys.seq, []⟩), rOk)

/-- Discard the open transaction of `h`, if any (R57, R66). -/
def dropTxn (s : State) (h : Nat) : State :=
  match s.slotOf h with
  | some (i, _) => s.setSlot i none
  | none => s

/-- Roll back the open transaction of `h` (R66). -/
def txnRollback (s : State) (h : Nat) : State × Nat :=
  match s.slotOf h with
  | some (i, _) => (s.setSlot i none, rOk)
  | none => (s, rNoTxn)

/-- One more class-T value in a shadow copy: it replaces the same value, or takes an entry, or marks the transaction FULL at entry 4,097 (R60). -/
def addWrite (t : Txn) (w : TWrite) : Txn :=
  if t.writes.any fun v => decide (v.key = w.key) then
    { t with writes := t.writes.map fun (v : TWrite) => if v.key = w.key then w else v }
  else if t.writes.length < 4096 then { t with writes := t.writes ++ [w] }
  else { t with full := true }

/-- The sequence of the last commit that wrote a class-T value (R61). -/
def lastSeq (s : State) (key : Nat) : Option Nat :=
  match s.sys.fieldSeq.get (fun _ => 0) key with
  | 0 => none
  | n + 1 => some n

/-- Stamp a sequence on every value a commit writes (R63). -/
def stampSeq (q : Nat) (m : SMap Nat) (ws : List TWrite) : SMap Nat :=
  ws.foldl (fun m w => m.set (fun _ => 0) w.key (q + 1)) m

/-- A successful commit: the next sequence value is its ticket, it stamps its values and enters the landing queue (R63). -/
def enterQueue (s : State) (h target : Nat) (ws : List TWrite) : State × Nat :=
  let q := (s.sys.seq + 1) % 2 ^ 32
  ({ s with sys := { s.sys with seq := q, fieldSeq := stampSeq q s.sys.fieldSeq ws,
                                landq := s.sys.landq ++ [⟨q, target, h, ws⟩] } }, q)

/-- Where a commit lands: the target tide or LATE or TOO_FAR; while tides do not run, any (R62, R69). -/
def commitTarget (s : State) (target : Nat) (next orLater : Bool) : Nat × Nat :=
  if !s.running then (target, rOk)
  else
    let t := if next then s.nextCommitTide else if s.deadlinePassed target && orLater then s.nextCommitTide else target
    if !next && !orLater && s.deadlinePassed target then (t, rLate)
    else if s.tide + 2 ^ 24 < t then (t, rTooFar)
    else (t, rOk)

/-- TXN_RESULT (R70, R88): addressed to a requesting pilot, sent to subscribers for the harbourmaster. -/
def postResult (s : State) (h result ticket : Nat) : State :=
  if isPilotMaster h then s.postTo (h - 16) 3 h result ticket else s.post 3 h result ticket

/-- Commit the open transaction of `h` (R62, R63): FULL, then target, then CONFLICT, then the landing queue. Result and ticket. -/
def commit (s : State) (h target : Nat) (next orLater : Bool) : State × Nat × Nat :=
  match s.slotOf h with
  | none => (s, rNoTxn, 0)
  | some (i, t) =>
    let s' := s.setSlot i none
    let (n, r) := s.commitTarget target next orLater
    let res : State × Nat × Nat :=
      if t.full then (s', rFull, 0)
      else if r ≠ rOk then (s', r, 0)
      else if t.writes.any fun w => match s.lastSeq w.key with | some q => seqAfter q t.begin | none => false then
        (s', rConflict, 0)
      else if 16 ≤ s.sys.landq.length then (s', rQueueFull, 0)
      else let (s'', q) := s'.enterQueue h n t.writes; (s'', rOk, q)
    (res.1.postResult h res.2.1 res.2.2, res.2.1, res.2.2)

/-- The class-T values of one write outside a transaction: one implicit commit to NEXT with OR_LATER (R13, R67, R69). -/
def implicitCommit (s : State) (h : Nat) (ws : List TWrite) : State :=
  if 16 ≤ s.sys.landq.length then ((s.raise 0x130 0x134 51 8)).postResult h rQueueFull 0
  else
    let (s', q) := s.enterQueue h (if s.running then s.nextCommitTide else 0) ws
    s'.postResult h rOk q

/-- The class-T values that one write of `h` carries: into its open transaction's shadow copy, an entry each, or an implicit commit (R13, R59, R60, R67). -/
def writeT (s : State) (h : Nat) (ws : List TWrite) : State :=
  if ws.isEmpty then s
  else match s.slotOf h with
  | some (i, t) => s.setSlot i (some (ws.foldl addWrite t))
  | none => s.implicitCommit h ws

/-- The owner of a ticket: a pilot's own, or the harbourmaster's for every control master's (R66). -/
def ownsTicket (h : Nat) (c : Commit) : Bool :=
  if isPilotMaster h then decide (c.holder = h) else !isPilotMaster c.holder

/-- Withdraw a ticket (R66, R69). -/
def withdraw (s : State) (h ticket : Nat) : State × Nat :=
  if !s.running then (s, rLate)
  else match s.sys.landq.find? fun c => decide (c.ticket = ticket) with
    | none => (s, rNoTxn)
    | some c =>
      if !ownsTicket h c then (s, rNotOwner)
      else if s.deadlinePassed c.target then (s, rLate)
      else ({ s with sys := { s.sys with landq := s.sys.landq.filter fun d => !decide (d.ticket = ticket) } }, rOk)

/-! ### Banks of the frame-bound blocks (R30) -/

/-- The address range of frame-bound instance `i`: SRX, PIPE, ENC, STAT. -/
def bankRange (i : Nat) : Nat × Nat :=
  if i < 4 then (0x80000 + i * 0x4000, 0x80000 + (i + 1) * 0x4000)
  else if i < 8 then (0x100000 + (i - 4) * 0x10000, 0x100000 + (i - 3) * 0x10000)
  else if i < 12 then (0x160000 + (i - 8) * 0x4000, 0x160000 + (i - 7) * 0x4000)
  else (0x140000 + (i - 12) * 0x1000, 0x140000 + (i - 11) * 0x1000)

/-- The unit whose work in flight references the banks of instance `i`. -/
def bankUnit (i : Nat) : Nat := if i < 12 then i else i - 8

def bankList (s : State) (i : Nat) : List Bank := s.sys.banks.get (fun _ => []) i

/-- Work in flight of the instance uses epoch `e`. -/
def epochInUse (s : State) (i e : Nat) : Bool :=
  s.fab.work.any fun w => decide (w.unit = bankUnit i) && decide (w.epoch = e)

/-- The least recently used bank that no work in flight references, to be replaced. -/
def victim (s : State) (i : Nat) (bs : List Bank) : Option Bank :=
  (bs.filter fun b => !s.epochInUse i b.epoch).foldl
    (fun acc b => match acc with | none => some b | some a => if b.used < a.used then some b else some a) none

/-- The landed values enter a bank of instance `i` tagged with the present settings epoch. -/
def takeBank (s : State) (i : Nat) : State :=
  let bs := s.bankList i
  let r := bankRange i
  let new : Bank := ⟨s.sys.epoch, s.now, s.regs.window r.1 r.2⟩
  let bs := if bs.length < 8 then bs else match s.victim i bs with
    | some v => bs.filter fun b => !decide (b = v)
    | none => bs
  { s with sys := { s.sys with banks := s.sys.banks.set (fun _ => []) i (bs ++ [new]) } }

def takeBanks : List Nat → State → State
  | [], s => s
  | i :: is, s => takeBanks is (s.takeBank i)

/-- The words of the bank of instance `i` whose epoch is `e`; before any landing, the reset values. -/
def bankWords (s : State) (i e : Nat) : SMap Word :=
  match (s.bankList i).reverse.find? fun b => decide (b.epoch = e) with
  | some b => b.words
  | none => []

/-- A class-T field of frame-bound instance `i` as work of epoch `e` sees it (R30). -/
def bankFld (s : State) (i e : Nat) (f : Fld) : Nat :=
  bits (SMap.get resetWord (s.bankWords i e) f.addr).toNat f.hi f.lo

/-- Instance `i` uses its bank of epoch `e` now: the least recently used order follows. -/
def touchBank (s : State) (i e : Nat) : State :=
  let bs := (s.bankList i).map fun (b : Bank) => if b.epoch = e then ({ b with used := s.now } : Bank) else b
  { s with sys := { s.sys with banks := s.sys.banks.set (fun _ => []) i bs } }

/-- The class-T words in `lo … hi - 1` that a unit bound by R31 takes at its own tide or latch, kept under `key`. -/
def takeApplied (s : State) (key lo hi : Nat) : State :=
  { s with sys := { s.sys with applied := s.sys.applied.set (fun _ => []) key (s.regs.window lo hi) } }

/-- A class-T field as the unit that keeps `key` last took it (R31). -/
def appliedFld (s : State) (key : Nat) (f : Fld) : Nat :=
  bits (SMap.get resetWord (s.sys.applied.get (fun _ => []) key) f.addr).toNat f.hi f.lo

/-! ### Ownership -/

/-- What the ownership registers show stays as it was until this FCLK cycle ends (R54). -/
def keepShown (s : State) : State :=
  if s.sys.shownAt = s.now + 1 then s
  else { s with sys := { s.sys with shownAt := s.now + 1, shownOwner := s.sys.owner, shownHand := s.sys.handover,
                                    shownWaits := s.sys.waits.length, shownResults := s.sys.results } }

/-- Write a master's SYS_OWN_RESULT. -/
def ownResult (s : State) (m r : Nat) : State :=
  let s := s.keepShown
  { s with sys := { s.sys with results := s.sys.results.set (fun _ => 0) m r } }

/-- SEC holds session `i` as valid for master `m` (R416). -/
def sessionValid (s : State) (m i : Nat) : Bool :=
  if i < 8 then decide (m = 8 + i) && decide (s.fld (Reg.SEC_SESS_STATE i) = 2) && s.flag (Reg.SEC_SESS_CLAIM i)
  else if i < 11 then
    decide (m = i - 7) && s.flag Reg.SEC_STATUS_READY && !bit (s.fld Reg.SEC_STATUS_POLICY) (i - 8)
  else false

/-- The lease in FCLK cycles (R55). -/
def leaseCycles (s : State) : Nat := msCycles (s.fld Reg.SYS_OWN_CFG_LEASE_MS)

/-- FAB releases the aperture's berth and writes 0 to its handle when ownership changes (R40). -/
def dropAperture (s : State) : State :=
  let h := s.fld Reg.FAB_AP_HANDLE_HANDLE
  if h = 0 then s else (s.releaseTable 40 h).setFld Reg.FAB_AP_HANDLE_HANDLE 0

/-- Ownership leaves its holder: its open transaction is rolled back and the aperture is released (R40, R57). -/
def leaveOwner (s : State) : State :=
  let s := s.keepShown
  if s.sys.owner = 0 then s
  else
    let o := s.sys.owner
    let s := match s.slotOf o with
      | some (i, _) => let s := s.setSlot i none; { s with sys := { s.sys with txnResult := rRolledBack } }
      | none => s
    let s := s.dropAperture
    { s with sys := { s.sys with owner := 0 } }

/-- `m` becomes the harbourmaster (R57): lease, no handover, no wait of its own; OWNER_CHANGE and its NOTE. -/
def takeOwnership (s : State) (m : Nat) : State :=
  let s := s.leaveOwner
  let s := { s with sys := { s.sys with
    owner := m, leaseEnd := s.now + s.leaseCycles, handover := 0,
    waits := s.sys.waits.filter fun w => !decide (w.master = m) } }
  ((s.raise 0x130 0x134 51 2).note m 1 0 0).ownResult m rOk

/-- The oldest waiting claim; of those of one cycle, the lowest master ID (R54). -/
def oldestWait (ws : List Claim) : Option Claim :=
  ws.foldl (fun acc w => match acc with
    | none => some w
    | some a => if w.arrived < a.arrived ∨ (w.arrived = a.arrived ∧ w.master < a.master) then some w else some a) none

/-- Ownership is vacated and the oldest waiting claim, if any, succeeds (R54). -/
def vacate (s : State) : State :=
  let s := s.leaveOwner
  let s := { s with sys := { s.sys with handover := 0, leaseEnd := 0 } }
  match oldestWait s.sys.waits with
  | some w => s.takeOwnership w.master
  | none => s.raise 0x130 0x134 51 2

/-- A claim waits; it replaces the master's earlier wait (R53). -/
def enqueueWait (s : State) (m : Nat) : State :=
  let s := s.keepShown
  { s with sys := { s.sys with
      waits := (s.sys.waits.filter fun w => !decide (w.master = m)) ++
        [⟨m, s.now, s.now + msCycles (s.fld Reg.SYS_OWN_CFG_WAIT_MS)⟩] } }

/-- OP_CLAIM (R51, R52, R54, R56). -/
def claim (s : State) (m session : Nat) : State :=
  if !s.sessionValid m session then s.ownResult m rAuthFail
  else if s.sys.owner = m then
    let s := s.ownResult m rOk
    { s with sys := { s.sys with leaseEnd := s.now + s.leaseCycles } }
  else if s.sys.owner = 0 then
    let s := s.takeOwnership m
    { s with sys := { s.sys with wonAt := s.now + 1 } }
  else if s.sys.wonAt = s.now + 1 ∧ m < s.sys.owner then
    let o := s.sys.owner
    ((s.enqueueWait o).ownResult o rWaiting).takeOwnership m
  else if s.sys.handover = m then
    let o := s.sys.owner
    (s.takeOwnership m).ownResult o rOk
  else (s.enqueueWait m).ownResult m rWaiting

/-- OP_RELEASE (R54, R56). -/
def ownRelease (s : State) (m : Nat) : State :=
  if s.sys.owner ≠ m then s.ownResult m rNotOwner else (s.ownResult m rOk).vacate

/-- OP_HEARTBEAT (R55). -/
def heartbeat (s : State) (m : Nat) : State :=
  if s.sys.owner ≠ m then s.ownResult m rNotOwner
  else let s := s.ownResult m rOk; { s with sys := { s.sys with leaseEnd := s.now + s.leaseCycles } }

/-- A target that can never claim (R56). -/
def badTarget (m t : Nat) : Bool := decide (t = m) || decide (t = 0) || decide (4 ≤ t ∧ t ≤ 7) || decide (16 ≤ t)

/-- OP_HANDOVER (R56). -/
def handover (s : State) (m t : Nat) : State :=
  if s.sys.owner ≠ m then s.ownResult m rNotOwner
  else if badTarget m t then s.ownResult m rBadArg
  else if s.sys.waits.any fun w => decide (w.master = t) then (s.takeOwnership t).ownResult m rOk
  else
    let s := s.ownResult m rWaiting
    { s with sys := { s.sys with handover := t } }

/-- The lease ends (R55, R56): a pending handover lapses, LAPSE is set and logged, ownership is vacated. -/
def lapse (s : State) : State :=
  let o := s.sys.owner
  let s := if s.sys.handover = 0 then s else s.ownResult o rHandoverLapsed
  ((s.raise 0x130 0x134 51 4).note o 2 0 0).vacate

/-- A write or load that is not the harbourmaster's is discarded, counted, recorded and logged (R50). -/
def reject (s : State) (m a : Nat) (load : Bool) : State :=
  let s := ((s.setFld Reg.SYS_REJECT_LAST_MASTER m).setFld Reg.SYS_REJECT_LAST_LOAD (b01 load)).setFld
    Reg.SYS_REJECT_LAST_WORD (a >>> 2)
  ((s.count Reg.SYS_REJECT_CNT_COUNT).raise 0x130 0x134 51 1).note m 0 a 0

end State

end Sys2Proof.Machine
end

