-- ==== Sys2Proof/Machine/Queues.lean ====
section
/-! DEFINITION. Queues of berths, the parcels that units emit, and berth releases with the pushes that follow them (R34, R36, R242, R322, R363, R423). -/

namespace Sys2Proof.Machine.State

/-! ### Queues, each named by the address of its push register -/

/-- The queue that a push register fills. -/
def queue (s : State) (a : Nat) : List QEnt := s.queues.get (fun _ => []) a

def setQueue (s : State) (a : Nat) (l : List QEnt) : State := { s with queues := s.queues.set (fun _ => []) a l }

/-- Push an entry to the queue at `a`, of `cap` entries; false when it is full and the entry is discarded. -/
def pushQ (s : State) (a cap : Nat) (e : QEnt) : State × Bool :=
  if (s.queue a).length < cap then (s.setQueue a (s.queue a ++ [e]), true) else (s, false)

/-- The head of a queue, and the state without it. -/
def popQ (s : State) (a : Nat) : State × Option QEnt :=
  match s.queue a with
  | [] => (s, none)
  | e :: es => (s.setQueue a es, some e)

/-! ### Pushes by FOLLOW -/

/-- A berth's manifest names kind `k` and stream `t`. -/
def matchesKind (s : State) (h k t : Nat) : Bool :=
  decide ((s.berth h).man.kind = k) && decide ((s.berth h).man.stream = t)

/-- Push an entry and acquire its berth for unit `u` in one cycle; nothing is pushed when the acquire is refused. -/
def pushHeld (s : State) (u a cap h : Nat) : State × Bool :=
  if (s.queue a).length < cap then
    let (s', ok) := s.acquire u h
    if ok then (s'.setQueue a (s'.queue a ++ [⟨h, 0, true⟩]), true) else (s', true)
  else (s, false)

/-- The key of the push register of input queue `j` of encoder `e`, slot `i`: 0 input, 1 bitstream, 2 ENCSTAT. -/
def encQ (e i j : Nat) : Nat := 0x160130 + 0x4000 * e + 0x100 * i + 4 * j

/-- Encoder slots that follow pipeline `v` push and acquire its released berth (R242). -/
def encFollow (v h : Nat) : List (Nat × Nat) → State → State
  | [], s => s
  | (e, i) :: rest, s =>
    let f := fun x => s.bankFld (8 + e) (s.berth h).man.setEpoch x
    encFollow v h rest
      (if f (Reg.ENC_SLOT_CFG_EN e i) = 1 ∧ s.fld (Reg.ENC_SLOT_CFG_FOLLOW e i) = v + 1 ∧
          s.matchesKind h (s.fld (Reg.ENC_SLOT_CFG_KIND e i)) (s.fld (Reg.ENC_SLOT_INPUT_STREAM e i)) then
        let (s', ok) := s.pushHeld (8 + e) (encQ e i 0) 8 h
        if ok then s' else s'.count (Reg.ENC_SLOT_QUEUE_LOST e i)
      else s)

/-- All encoder slots. -/
def encSlots : List (Nat × Nat) := (List.range 16).map fun n => (n / 4, n % 4)

/-- The key of a layer's latched fields and the address of its push register. -/
def layerKey (l : Nat) : Nat := 0x1C2000 + 0x80 * l
def layerQ (l : Nat) : Nat := layerKey l + 0x24

/-- Scan-out layers that follow push and acquire the berth: `race` at its first parcel, otherwise at its release (R322). -/
def scnFollow (race : Bool) (h : Nat) : List Nat → State → State
  | [], s => s
  | l :: rest, s =>
    let f := fun x => s.appliedFld (layerKey l) x
    scnFollow race h rest
      (if f (Reg.SCN_LAYER_CFG_EN l) = 1 ∧ f (Reg.SCN_LAYER_CFG_FOLLOW l) = 1 ∧ f (Reg.SCN_LAYER_CFG_SRC l) = 0 ∧
          f (Reg.SCN_LAYER_CFG_RACE l) = b01 race ∧
          s.matchesKind h (f (Reg.SCN_LAYER_CFG_KIND l)) (f (Reg.SCN_LAYER_FOLLOW_STREAM l)) then
        let (s', ok) := s.pushHeld 15 (layerQ l) 4 h
        if ok then s' else s'.count (Reg.SCN_LAYER_CNT_PUSH_LOST l)
      else s)

/-- The key of a NET port's applied fields, and the push register of a transmit stream. -/
def netKey (q : Nat) : Nat := 0x1E0000 + 0x4000 * q
def netTxQ (q t : Nat) : Nat := 0x1E1024 + 0x4000 * q + 0x40 * t

/-- Transmit streams that follow push and acquire the berth that a unit releases (R363). -/
def netFollow (h : Nat) : List Nat → State → State
  | [], s => s
  | n :: rest, s =>
    let q := n / 32
    let t := n % 32
    netFollow h rest
      (if s.appliedFld (netKey q) (Reg.NET_TX_CFG_EN q t) = 1 ∧ s.fld (Reg.NET_TX_CFG_FOLLOW q t) = 1 ∧
          s.matchesKind h (s.fld (Reg.NET_TX_CFG_KIND q t)) (s.fld (Reg.NET_TX_CFG_STREAM q t)) then
        let (s', ok) := s.pushHeld (18 + q) (netTxQ q t) 8 h
        if ok then s' else (s'.count (Reg.NET_TX_STATUS_LOST q t)).raise
          (Reg.NET_EVENT_PUSH_LOST q).addr (Reg.NET_EVENT_EN_EN q).addr (18 + q) 2
      else s)

/-- Unit `u` releases its reference to berth `h`; followers push and acquire it first, in the same cycle (R36, R38, R242, R322, R363). -/
def release (s : State) (u h : Nat) : State :=
  if !s.holds u h then s.releaseTable u h
  else
    let s := if 4 ≤ u ∧ u < 8 then scnFollow false h (List.range 16) (encFollow (u - 4) h encSlots s) else s
    let s := if u = 12 ∨ u = 13 then scnFollow false h (List.range 16) s else s
    let s := if u = 18 ∨ u = 19 ∨ u = 40 then s else netFollow h (List.range 64) s
    s.releaseTable u h

/-- Release a list of berths. -/
def releaseAll (u : Nat) : List Nat → State → State
  | [], s => s
  | h :: hs, s => releaseAll u hs (s.release u h)

/-- Acquire the berths of a list that are not handle 0; the list of those granted. -/
def acquireAll (u : Nat) : List Nat → State → State × List Nat
  | [], s => (s, [])
  | h :: hs, s =>
    if h = 0 then acquireAll u hs s
    else
      let (s, ok) := s.acquire u h
      let (s, l) := acquireAll u hs s
      (s, if ok then h :: l else l)

/-! ### Parcels that units emit -/

/-- Unit `u` emits a parcel: REPLAY in replay mode (R27), payload and manifest into the berth (R34, R39), the tap of SEC (R423) and of racing layers (R322). -/
def emit (s : State) (u : Nat) (m : Manifest) (ofs : Nat) (payload : List Byte) : State :=
  let m := { m with flags := m.flags ||| s.modeFlags }
  let c := s.accessCause u m.handle ofs payload.length
  if c ≠ 0 then s.berthFault u m.handle c
  else
    let fresh := s.fab.refs.any fun r => decide (r.unit = u) && decide (r.handle = m.handle) && r.fresh
    let s := (s.memWrite ((s.berth m.handle).base * 4096 + ofs) payload).manifestIn u m.handle m
    let s := if fresh && (decide (4 ≤ u ∧ u < 8) || decide (u = 12 ∨ u = 13)) then
        scnFollow true m.handle (List.range 16) s else s
    if m.domain ≠ 0 ∧ s.fld (Reg.SEC_DOM_EN m.domain) = 1 then { s with leaves := s.leaves ++ [(m, payload)] } else s

/-- Release a berth and post BERTH_REL with its manifest's frame number and flags (R88). -/
def releasePost (s : State) (u src h : Nat) : State :=
  let m := (s.berth h).man
  (s.release u h).berthRel src h m.frame m.flags

end Sys2Proof.Machine.State
end

