-- ==== Sys2Proof/Machine/Cal.lean ====
section
/-! DEFINITION. CAL: calibration items, their triggers, runs, results and boundaries, cal_ppb and the field fuses (R223 to R236), with the lane state that results reach. -/

namespace Sys2Proof.Machine

namespace State

/-! ### Lanes and ports, as CAL and SRX use them -/

/-- Wydun lane `i` of port `p`. -/
def lane (s : State) (p i : Nat) : Lane := s.lanes.get (fun _ => {}) (64 * p + i)
def setLane (s : State) (p i : Nat) (x : Lane) : State := { s with lanes := s.lanes.set (fun _ => {}) (64 * p + i) x }

def port (s : State) (p : Nat) : SrxPort := s.ports.get (fun _ => {}) p
def setPort (s : State) (p : Nat) (x : SrxPort) : State := { s with ports := s.ports.set (fun _ => {}) p x }

/-- The state of a lane (R137): 0 OFF, 1 SIGNAL, 2 CDR, 3 ALIGN, 4 IDENT, 5 DESKEW, 6 READY, 7 FAULT. -/
def laneState (s : State) (p i : Nat) : Nat := s.fld (Reg.LANE_STATUS_STATE p i)

/-- The state of a port (R136): 0 OFF, 1 TRAIN, 2 READY, 3 RUN. -/
def portState (s : State) (p : Nat) : Nat := s.fld (Reg.SRX_STATUS_STATE p)

/-- SRX_LANE_EN and the committed SRX_LANE_USE of a port, as 64-bit masks. -/
def laneEn (s : State) (p : Nat) : Nat := s.fld2 (Reg.SRX_LANE_EN_LO p) (Reg.SRX_LANE_EN_HI p)
def laneUse (s : State) (p : Nat) : Nat := s.fld2 (Reg.SRX_LANE_USE_LO p) (Reg.SRX_LANE_USE_HI p)

/-! ### Items -/

/-- Bit `n` of the wide mask in two words. -/
def maskBit (s : State) (lo hi : Fld) (n : Nat) : Bool := bit (s.fld2 lo hi) n

def setMaskBit (s : State) (lo hi : Fld) (n : Nat) (b : Bool) : State :=
  s.setFld2 lo hi (putBits (s.fld2 lo hi) n n (b01 b))

def calPending (s : State) (n : Nat) : Bool := s.maskBit Reg.CAL_PEND_LO Reg.CAL_PEND_HI n
def setCalPending (s : State) (n : Nat) (b : Bool) : State := s.setMaskBit Reg.CAL_PEND_LO Reg.CAL_PEND_HI n b
def calStale (s : State) (n : Nat) : Bool := s.maskBit Reg.CAL_STALE_LO Reg.CAL_STALE_HI n
def setCalStale (s : State) (n : Nat) (b : Bool) : State := s.setMaskBit Reg.CAL_STALE_LO Reg.CAL_STALE_HI n b

def calResult (s : State) (n : Nat) : Option CalResult := s.cal.results.get (fun _ => none) n
def setCalResult (s : State) (n : Nat) (r : Option CalResult) : State :=
  { s with cal := { s.cal with results := s.cal.results.set (fun _ => none) n r } }

/-- A CAL event in the logbook (R232): 0 pending, 1 start, 2 completion, 3 failure, 4 taking effect. -/
def calNote (s : State) (n code : Nat) : State := s.note 23 code n 0

def calRaise (s : State) (m : Nat) : State := s.raise 0x150008 0x15000C 23 m

/-- STATE of an item from what it holds: running stays; otherwise pending, awaiting its boundary, or idle. -/
def showItem (s : State) (n : Nat) : State :=
  let v := if s.fld (Reg.CAL_ITEM_STATE n) = 2 then 2
    else if s.calPending n then 1 else if (s.calResult n).isSome then 3 else 0
  s.setFld (Reg.CAL_ITEM_STATE n) v

/-- Item `n` becomes pending, and stale (R227, R231). -/
def makePending (s : State) (n : Nat) : State :=
  (((s.setCalPending n true).setCalStale n true).showItem n).calNote n 0

def makeAllPending : List Nat → State → State
  | [], s => s
  | n :: ns, s => makeAllPending ns (s.makePending n)

/-- CAL_CMD with OP = RUN (R227): the named item, or all with 63; others are ignored. -/
def calRunCmd (s : State) (item : Nat) : State :=
  if s.replayMode then s
  else if item = 63 then makeAllPending (List.range 41) s
  else if item < 41 then s.makePending item else s

/-- The temperature threshold of an item, in 1/256 °C; none for TOSC (R227). -/
def calThreshold (s : State) (n : Nat) : Option Nat :=
  if n < 32 then some ((s.fld Reg.CAL_CFG_THRESH_LANE + 1) * 128)
  else if n < 38 then some ((s.fld Reg.CAL_CFG_THRESH_MEM + 1) * 128)
  else if n = 39 then none
  else some ((s.fld Reg.CAL_CFG_THRESH_MISC + 1) * 128)

/-- One temperature sample (R227): the item becomes pending when it differs by more than its threshold from the start of its last run, unless 3 runs failed in a row (R229). -/
def tempSample (s : State) (n t : Nat) : State :=
  let s := s.setFld (Reg.CAL_ITEM_T_NOW n) t
  match s.calThreshold n with
  | none => s
  | some th =>
    let d := (signed 16 t - signed 16 (s.fld (Reg.CAL_ITEM_T_START n))).natAbs
    if s.flag Reg.CAL_CFG_AUTO && decide (th < d) && decide (s.fld (Reg.CAL_ITEM_FAILS n) < 3) then s.makePending n else s

def tempSamples : List (Fin 41 × BitVec 16) → State → State
  | [], s => s
  | (n, t) :: rest, s => tempSamples rest (s.tempSample n.val t.toNat)

/-- A run of item `n` is in progress. -/
def calRunning (s : State) (n : Nat) : Bool := decide (s.fld (Reg.CAL_ITEM_STATE n) = 2)

/-- Item `n` can start a run now: pending, not running, and for a lane group its port in READY or RUN (R228). -/
def calStartable (s : State) (n : Nat) : Bool :=
  s.calPending n && !s.calRunning n && decide (n ≠ 39) && (decide (32 ≤ n) || decide (2 ≤ s.portState (n / 8)))

/-- A run slot is free for item `n` and no lower item of its kind can start (R228). -/
def calTurn (s : State) (n : Nat) : Bool :=
  if n < 32 then
    decide (((List.range 32).filter s.calRunning).length < 8) && ((List.range n).all fun k => !s.calStartable k)
  else
    !((List.range 41).any fun k => decide (32 ≤ k) && s.calRunning k) &&
      ((List.range n).all fun k => decide (k < 32) || !s.calStartable k)

/-- The consumers that a result of item `n` reaches (R223, R225). -/
def calConsumers (s : State) (n : Nat) : List Nat :=
  if n < 32 then [n / 8]
  else if n < 38 then (List.range 32).map fun k => 32 + 32 * (n - 32) + k
  else if n = 38 then [0, 1, 2, 3, 4] ++
    ((List.range 10).filter fun h => s.fld (Reg.SCN_HEAD_STATUS_STATE h) ≠ 0).map (fun h => 5 + h) ++
    ((List.range 192).filter fun k => s.fld (Reg.MEM_STATUS_STATE (k / 32)) = 2).map (fun k => 32 + k)
  else [4]

/-- A lane counts in its group's measurement: enabled and not in FAULT (R224). -/
def calMeasurable (s : State) (g : Nat) (l : LaneMeas) : Bool :=
  let p := g / 8
  let i := 8 * (g % 8) + l.lane.val
  bit (s.laneEn p) i && decide (s.laneState p i ≠ 7)

/-- A measured value fits its field (R229, R233). -/
def inField (l : LaneMeas) : Bool :=
  decide (0 ≤ l.ctle ∧ l.ctle < 16) && decide (-16 ≤ l.dfe1 ∧ l.dfe1 < 16) && decide (-64 ≤ l.offset ∧ l.offset < 64)

/-- A lane word of R233. -/
def laneWord (l : LaneMeas) : Nat := wrap 4 l.ctle <<< 12 + wrap 5 l.dfe1 <<< 7 + wrap 7 l.offset

/-- A run ends (R226, R229, R231). -/
def calRunDone (s : State) (n : Nat) (inRange : Bool) (lanes : List LaneMeas) : State :=
  let ms := lanes.filter (s.calMeasurable n)
  let ok := if n < 32 then !ms.isEmpty && ms.all inField else inRange
  let s := s.setFld (Reg.CAL_ITEM_STATE n) 0
  if ok then
    let s := s.setFld (Reg.CAL_ITEM_FAILS n) 0
    let s := s.setFld (Reg.CAL_ITEM_RUNS n) (satAdd 16 (s.fld (Reg.CAL_ITEM_RUNS n)) 1)
    let r : CalResult := ⟨s.now, ms.map fun l => (8 * n + l.lane.val, laneWord l), s.calConsumers n⟩
    ((s.setCalResult n (some r)).showItem n).calNote n 2
  else
    let s := s.setFld (Reg.CAL_ITEM_FAILS n) (min 3 (s.fld (Reg.CAL_ITEM_FAILS n) + 1))
    ((s.calRaise 2).showItem n).calNote n 3

/-! ### Boundaries -/

/-- A frozen lane moves its equaliser to its baseline (R142, R224); taps that the baseline does not hold stay. -/
def toBaseline (s : State) (p i : Nat) : State :=
  let w := s.fld (Reg.CAL_LANE_BASE_BASE (64 * p + i))
  let s := s.setFld (Reg.LANE_EQ_CTLE p i) (bits w 15 12)
  s.setFld (Reg.LANE_EQ_DFE p i) (putBits (s.fld (Reg.LANE_EQ_DFE p i)) 4 0 (bits w 11 7))

/-- The words of a lane-group result take effect (R224). -/
def applyLanes : List (Nat × Nat) → State → State
  | [], s => s
  | (l, w) :: rest, s =>
    let p := l / 64
    let i := l % 64
    let s := s.setLane p i { s.lane p i with offset := some (bits w 6 0) }
    let s := s.setFld (Reg.CAL_LANE_BASE_BASE l) w
    applyLanes rest (if s.flag (Reg.LANE_STATUS_SUSPECT p i) then s.toBaseline p i else s)

/-- Consumer `c` reaches a boundary that lies in FCLK cycle `cyc`: item `n`'s result reaches it, and the item ends when it was the last (R225, R226, R231). -/
def calReach (s : State) (c cyc n : Nat) : State :=
  match s.calResult n with
  | none => s
  | some r =>
    if r.doneAt < cyc ∧ c ∈ r.waits then
      let s := applyLanes r.lanes s
      let w := r.waits.filter fun x => !decide (x = c)
      if w = [] then
        let s := s.setCalResult n none
        let s := if s.calPending n || s.calRunning n then s else s.setCalStale n false
        ((s.showItem n).calRaise 1).calNote n 4
      else s.setCalResult n (some { r with waits := w })
    else s

def calBoundary (c cyc : Nat) : List Nat → State → State
  | [], s => s
  | n :: ns, s => calBoundary c cyc ns (s.calReach c cyc n)

/-- Tide instants are the boundary of the ports and of MON (R223, R225, R226). -/
def calTide (s : State) (cyc : Nat) : State :=
  if s.replayMode then s else
  [0, 1, 2, 3, 4].foldl (fun s c => calBoundary c cyc (List.range 41) s) s

/-- OP = TRAIN or STOP on a port aborts its lane-group runs; the items stay pending (R228). -/
def calAbort (p : Nat) : List Nat → State → State
  | [], s => s
  | n :: ns, s =>
    calAbort p ns (if n / 8 = p ∧ n < 32 ∧ s.calRunning n then
      ((s.setFld (Reg.CAL_ITEM_STATE n) 1).setCalPending n true).setCalStale n true else s)

/-! ### cal_ppb -/

/-- Factory row `r` as read at the latest reset, field records applied. -/
def fuseRow (s : State) (r : Nat) : Nat := s.fld (Reg.CAL_FUSE_VALUE r)

/-- c1, c2 and T0 in use (R230). -/
def toscTrim (s : State) : Int × Int × Int :=
  if s.flag Reg.CAL_TOSC_CFG_SRC then
    (signed 32 (s.fld Reg.CAL_TOSC_C1_C1), signed 32 (s.fld Reg.CAL_TOSC_C2_C2), signed 16 (s.fld Reg.CAL_TOSC_T0_T0))
  else (signed 32 (s.fuseRow 176), signed 32 (s.fuseRow 177), signed 16 (s.fuseRow 178))

/-- cal_ppb of a temperature (R230) in S16.16: c1 has 16 fraction bits and ΔT 8; the last bit, where the sum is not exact, and a sum beyond the format are free (log entry 9). -/
def ppbOf (s : State) (t : Nat) : Nat :=
  let (c1, c2, t0) := s.toscTrim
  let dt := signed 16 t - t0
  let x : Int := c1 * dt * 256 + c2 * dt * dt
  let q := x.fdiv 65536
  let v := if x % 65536 = 0 then q else q + (s.freeVal % 2 : Nat)
  if -(2 ^ 31 : Nat) ≤ v ∧ v < (2 ^ 31 : Nat) then wrap 32 v else s.freeVal % 2 ^ 32

/-! ### Field fuses -/

/-- A write of CAL_FF_CMD (R235): only the key starts a burn; a full bank answers FULL. -/
def ffCmd (s : State) (key : Nat) : State :=
  if key ≠ 0x0F5E0001 ∨ s.flag Reg.CAL_FF_STATUS_BUSY then s
  else if s.fld Reg.CAL_FF_STATUS_NEXT = 32 then s.setFld Reg.CAL_FF_STATUS_RESULT 1
  else
    let s := s.setFld Reg.CAL_FF_STATUS_BUSY 1
    { s with cal := { s.cal with burn := some (s.fld Reg.CAL_FF_TARGET_ROW, s.fld Reg.CAL_FF_DATA_VALUE) } }

/-- The two rows of a field record (R234). -/
def fieldRows (t v : Nat) : Nat × Nat :=
  (0xA0000000 + t <<< 20 + crc8 (BitVec.ofNat 8 t :: bytesLE 4 v), v)

end State

/-! ### Meanings -/

/-- CAL_TEMP_SAMPLE (R227); in replay CAL triggers nothing (R232). -/
def execCalTempSample (temps : List (Fin 41 × BitVec 16)) (s : State) : Res :=
  .next (if s.replayMode then s else State.tempSamples temps s)

/-- CAL_RUN_START (R228). -/
def execCalRunStart (n : Fin 41) (s : State) : Res :=
  .next (
    if !s.replayMode && s.calStartable n.val && s.calTurn n.val then
      let s := s.setCalPending n.val false
      let s := s.setFld (Reg.CAL_ITEM_STATE n.val) 2
      (s.setFld (Reg.CAL_ITEM_T_START n.val) (s.fld (Reg.CAL_ITEM_T_NOW n.val))).calNote n.val 1
    else s)

/-- CAL_RUN_DONE (R229). -/
def execCalRunDone (n : Fin 41) (inRange : Bool) (lanes : List LaneMeas) (s : State) : Res :=
  .next (if s.calRunning n.val then s.calRunDone n.val inRange lanes else s)

/-- CAL_PPB_UPDATE (R230). -/
def execCalPpbUpdate (t : BitVec 16) (valid : Bool) (s : State) : Res :=
  .next (
    if s.replayMode then s
    else if valid then
      let v := s.ppbOf t.toNat
      let s := s.nextFree
      let s := s.setFld Reg.CAL_PPB_PPB v
      let s := s.setFld (Reg.CAL_ITEM_T_NOW 39) t.toNat
      if s.calStale 39 then (((s.setCalPending 39 false).setCalStale 39 false).showItem 39).calNote 39 4 else s
    else s.setCalStale 39 true)

/-- FUSE_BURN_DONE (R235): the record is used in any case, and invalid when the read-back failed. -/
def execFuseBurnDone (ok : Bool) (s : State) : Res :=
  .next (match s.cal.burn with
    | none => s
    | some (t, v) =>
      let s := { s with cal := { s.cal with burn := none, burnt := s.cal.burnt ++ [if ok then some (t, v) else none] } }
      let s := (s.setFld Reg.CAL_FF_STATUS_BUSY 0).setFld Reg.CAL_FF_STATUS_RESULT (if ok then 0 else 2)
      (s.setFld Reg.CAL_FF_STATUS_NEXT (s.fld Reg.CAL_FF_STATUS_NEXT + 1)).calRaise 4)

end Sys2Proof.Machine
end

