-- ==== Sys2Proof/Machine/TimeOps.lean ====
section
/-! DEFINITION. TIME: the two domains, the offset accumulator, the servo and PTP engines, the clock monitor, the timestamp queues and the event pins (R101 to R124). -/

namespace Sys2Proof.Machine

namespace State

/-! ### Counters -/

/-- BASE increment of a domain in 2⁻⁴⁰ ns (R101, R102). -/
def incBase (s : State) (d : Nat) : Nat := s.fld (Reg.DOM_INC_LO d) + s.fld (Reg.DOM_INC_HI d) <<< 32

/-- cal_ppb, S16.16 (R230). -/
def calPpb (s : State) : Int := signed 32 (s.fld Reg.CAL_PPB_PPB)

/-- The effective increment of a domain: exact where it is a whole number of 2⁻⁴⁰ ns, otherwise one of its two neighbours, the choice being free (R102, log entry 4). -/
def effInc (s : State) (d : Nat) : Nat × Bool :=
  let den : Nat := 1000000000 * 65536
  let num : Int := (s.incBase d : Int) * ((den : Int) + (s.dom d).adj * 65536 + s.calPpb)
  let q := (floorDiv num den).toNat
  if num % den = 0 then (q, true) else (q + s.freeVal % 2, false)

/-- A domain's counter after one TCLK tick (R101, R105). -/
def tickDom (s : State) (d : Nat) : State :=
  let (i, exact) := if s.replaying then (2 <<< 40, true) else s.effInc d
  let x := s.dom d
  let s := s.setDom d { x with count := (x.count + i) % 2 ^ 104 }
  if exact then s else s.nextFree

/-- ACC moves towards 0 at every TCLK tick, by at most 2.0 ns × RATE × 10⁻⁷ (R112); the move in 2⁻⁴⁰ ns, rounded down; in replay ACC takes its logged values only (R439). -/
def slewAcc (s : State) : State :=
  if s.replaying then s else
  let lim : Nat := (2 * s.fld Reg.TIME_SLEW_RATE * 2 ^ 40) / 10000000
  let a := s.time.acc
  let a' := if a.natAbs ≤ lim then 0 else if 0 < a then a - lim else a + lim
  { s with time := { s.time with acc := a' } }

/-- One TCLK tick: both counters advance and ACC slews. -/
def tclk (s : State) : State := ((s.tickDom 0).tickDom 1).slewAcc

/-- One FCLK cycle passes: the events of the cycle are past (R9), and every fourth cycle is a TCLK tick. -/
def tick (s : State) : State :=
  let s := { s with now := s.now + 1, evSet := [], evAdd := [] }
  if s.now % 4 = 0 then s.tclk else s

/-- The wrap epoch of a domain (R103). -/
def epochOf (s : State) (d : Nat) : Nat := (s.fullNs d >>> 32) % 65536

/-- A TIME_EVENT docket (R88). -/
def timeEvent (s : State) (src sub payload : Nat) : State := s.post 0x0D src sub payload

/-- Event bits of TIME (R497). -/
def timeRaise (s : State) (m : Nat) : State := s.raise 0x20008 0x2000C 53 m

/-- A changed wrap epoch is announced (R103). -/
def announceWrap (s : State) (d : Nat) : State :=
  let e := s.epochOf d
  if e = (s.dom d).wrapSeen then s
  else (s.setDom d { s.dom d with wrapSeen := e }).timeRaise (1 <<< d) |>.timeEvent d 0 e

/-- Sample clock generators on a stepped domain take the difference up in their offsets (R381). -/
def genStep (s : State) (d : Nat) (by_ : Int) : List Nat → SMap Int → SMap Int
  | [], m => m
  | g :: gs, m =>
    genStep s d by_ gs
      (if s.flag (Reg.AUD_SCG_CFG_EN g) && decide (s.fld (Reg.AUD_SCG_CFG_CLK g) = 0) && decide (s.fld (Reg.AUD_SCG_CFG_DOMAIN g) = d + 1) then
        m.set (fun _ => 0) g (m.get (fun _ => 0) g + by_) else m)

/-- A step moves a domain by a whole number of nanoseconds (R104); on the selected domain ACC takes the step too (R111). -/
def stepDom (s : State) (d : Nat) (ns : Int) : State :=
  let x := s.dom d
  let s := s.setDom d { x with count := wrap 104 ((x.count : Int) + ns * 2 ^ 40), integ := 0 }
  let s := if d = s.sel then { s with time := { s.time with acc := s.time.acc + ns * 2 ^ 40 } } else s
  let s := { s with aud := { s.aud with offs := genStep s d (ns * 2 ^ 40) (List.range 4) s.aud.offs } }
  ((s.timeRaise (4 <<< d)).timeEvent d 4 (wrap 64 ns)).announceWrap d

/-- The selected domain becomes `d` at tide `t` (R111): ACC takes D_new − D_old, so that tide time does not change. -/
def switchDom (s : State) (d t : Nat) : State :=
  if d = s.sel then s
  else
    let delta : Int := ((s.dom d).count : Int) - (s.dom s.sel).count
    let s := s.setFld Reg.TIME_STATUS_SEL d
    let s := { s with time := { s.time with acc := s.time.acc + delta, switchTide := some t } }
    s.timeEvent d 3 (wrap 64 (delta.fdiv (2 ^ 40)))

/-! ### Lock states -/

def setDomState (s : State) (d v : Nat) : State :=
  if d = 0 then s.setFld Reg.TIME_STATUS_STATE_A v else s.setFld Reg.TIME_STATUS_STATE_B v

/-- adj, and DOM_ADJ with it. -/
def setAdj (s : State) (d : Nat) (a : Int) : State :=
  (s.setDom d { s.dom d with adj := a }).setFld (Reg.DOM_ADJ d) (wrap 32 a)

/-- Mean of adj over the last 64 valid samples; its rounding is free (R115, log entry 4). -/
def meanAdj (s : State) (d : Nat) : Int :=
  let l := (s.dom d).adjHist
  if l.length = 0 then (s.dom d).adj
  else
    let q := l.sum.fdiv l.length
    if l.sum % l.length = 0 then q else q + (s.freeVal % 2 : Nat)

/-- A LOCKED domain enters HOLDOVER (R116): adj frozen at its mean, the event, SUB 1, and a failover when it is due (R114). -/
def enterHoldover (s : State) (d : Nat) : State :=
  if s.domState d ≠ 2 then s
  else
    let a := s.meanAdj d
    let s := (s.setAdj d a).nextFree
    let s := s.setDom d { s.dom d with good := 0, glitches := 0 }
    let s := ((s.setDomState d 3).timeRaise (16 <<< d)).timeEvent d 1 (s.epochOf d)
    if s.flag Reg.TIME_CTRL_FAILOVER && decide (d = s.sel) && decide (s.domState (1 - d) = 2) then
      { s with time := { s.time with failTo := some (1 - d) } }
    else s

/-- `x · 2^(−e)`, rounded down, for a signed exponent. -/
def shiftDown (x : Int) (e : Int) : Int := if 0 ≤ e then x.fdiv ((2 : Int) ^ e.toNat) else x * (2 : Int) ^ (-e).toNat

/-- Log₂ of an engine's sync interval (R119). -/
def logSync (s : State) (e : Nat) : Int := signed 4 (s.fld (Reg.PTP_LOG_SYNC e))

/-- The servo's update for one valid sample (R117). -/
def servo (s : State) (d : Nat) (o : Int) : State :=
  let x := s.dom d
  let integ := x.integ + o
  let l := s.logSync d
  let m : Int := (s.fld (Reg.DOM_MAX_ADJ d) * 1000 : Nat)
  let a := shiftDown ((s.fld (Reg.DOM_KP d) : Int) * o) (5 + l) + shiftDown ((s.fld (Reg.DOM_KI d) : Int) * integ) (13 + l)
  let a := clampI (-m) m a
  let s := s.setAdj d a
  s.setDom d { s.dom d with integ := integ, adjHist := (a :: x.adjHist).take 64 }

/-- Enter LOCKED. -/
def lockDom (s : State) (d : Nat) : State :=
  (s.setDomState d 2).setDom d { s.dom d with good := 0, glitches := 0, stepped := false }

/-- Remember a valid sample for the rate-change test. -/
def noteSample (s : State) (d : Nat) (o : Int) : State :=
  let x := s.dom d
  s.setDom d { x with lastOffs := ((o, s.now) :: x.lastOffs).take 4, lastSync := s.now }

/-- A valid sample in ACQUIRE: the first large offset steps the domain, any other steers it; LOCK_COUNT of them lock it (R115, R116). -/
def sampleAcquire (s : State) (d : Nat) (o : Int) : State :=
  let big := decide (s.fld (Reg.DOM_STEP_NS d) < o.natAbs)
  let s := if big && !(s.dom d).stepped then
      let s := s.stepDom d (-o)
      s.setDom d { s.dom d with stepped := true }
    else s.servo d o
  let s := s.setDom d { s.dom d with good := (s.dom d).good + 1 }
  if s.fld (Reg.DOM_LOCK_COUNT d) ≤ (s.dom d).good then s.lockDom d else s

/-- A sample while LOCKED: glitches are discarded and counted, a changed rate enters HOLDOVER, otherwise the servo steers (R116, R117). -/
def sampleLocked (s : State) (d : Nat) (o : Int) : State :=
  let x := s.dom d
  let miss := (o - Config.servoPrediction x.lastOffs x.adj).natAbs
  if s.fld (Reg.DOM_GLITCH_NS d) < miss then
    let s := (s.setDom d { x with glitches := x.glitches + 1 }).count (Reg.PTP_GLITCH d)
    if 3 ≤ (s.dom d).glitches then s.enterHoldover d else s
  else
    let s := (s.setDom d { x with glitches := 0 }).noteSample d o
    let offs := (s.dom d).lastOffs
    if offs.length = 4 ∧ s.fld (Reg.DOM_RATE_PPB d) < (Config.freqEstimate offs - s.meanAdj d).natAbs then
      s.enterHoldover d
    else s.servo d o

/-- A valid sample in HOLDOVER: LOCK_COUNT of them step or steer the domain and lock it, with SUB 2 (R116). -/
def sampleHoldover (s : State) (d : Nat) (o : Int) : State :=
  let s := (s.setDom d { s.dom d with good := (s.dom d).good + 1 }).noteSample d o
  if s.fld (Reg.DOM_LOCK_COUNT d) ≤ (s.dom d).good then
    let s := if s.fld (Reg.DOM_STEP_NS d) < o.natAbs then s.stepDom d (-o) else s.servo d o
    (s.lockDom d).timeEvent d 2 (s.epochOf d)
  else s

/-- A sample offset reaches the servo of its domain (R116, R117). -/
def sample (s : State) (d : Nat) (o : Int) : State :=
  let s := s.setFld (Reg.DOM_OFFSET d) (wrap 32 o)
  match s.domState d with
  | 1 => (s.noteSample d o).sampleAcquire d o
  | 2 => s.sampleLocked d o
  | 3 => s.sampleHoldover d o
  | _ => s

/-! ### PTP engines (R119) -/

/-- The engine disciplines its domain: enabled and not a master (R115). -/
def ptpSlave (s : State) (e : Nat) : Bool :=
  s.flag (Reg.PTP_EN e) &&
  (decide (s.fld (Reg.PTP_ROLE e) = 0) ||
   (decide (s.fld (Reg.PTP_ROLE e) = 2) && !decide (s.fld (Reg.PTP_PORT_STATE e) = 6)))

def ptpMaster (s : State) (e : Nat) : Bool :=
  s.flag (Reg.PTP_EN e) &&
  (decide (s.fld (Reg.PTP_ROLE e) = 1) ||
   (decide (s.fld (Reg.PTP_ROLE e) = 2) && decide (s.fld (Reg.PTP_PORT_STATE e) = 6)))

/-- A Sync with its origin time is complete: the sample t2 − t1 − meanPathDelay (R117). -/
def ptpSample (s : State) (e : Nat) (t1 t2 : Int) : State :=
  let s := s.setDom e { s.dom e with lastT1T2 := some (t1, t2), syncWait := none }
  s.sample e (t2 - t1 - (s.dom e).meanDelay)

/-- One master's data set is better than another's: the order of IEEE 1588 (R119; log entry 6). -/
def betterMaster (a b : Foreign) : Bool :=
  if a.prio1 ≠ b.prio1 then decide (a.prio1 < b.prio1)
  else if a.clockClass ≠ b.clockClass then decide (a.clockClass < b.clockClass)
  else if a.accuracy ≠ b.accuracy then decide (a.accuracy < b.accuracy)
  else if a.variance ≠ b.variance then decide (a.variance < b.variance)
  else if a.prio2 ≠ b.prio2 then decide (a.prio2 < b.prio2)
  else if a.gm ≠ b.gm then decide (a.gm.toNat < b.gm.toNat)
  else decide (a.steps < b.steps)

def bestMaster (l : List Foreign) : Option Foreign :=
  l.foldl (fun acc f => match acc with | none => some f | some a => if betterMaster f a then some f else some a) none

/-- A foreign master beats the engine's own data set; where all compared values tie, the choice is free (log entry 6). -/
def beatsSelf (s : State) (e : Nat) (f : Foreign) : Bool :=
  if f.prio1 ≠ s.fld (Reg.PTP_PRIO1 e) then decide (f.prio1 < s.fld (Reg.PTP_PRIO1 e))
  else if f.clockClass ≠ 248 then decide (f.clockClass < 248)
  else if f.prio2 ≠ s.fld (Reg.PTP_PRIO2 e) then decide (f.prio2 < s.fld (Reg.PTP_PRIO2 e))
  else decide (s.freeVal % 2 = 0)

/-- The engine's domain follows the engine's role (R115): ACQUIRE for a slave, FREE with adj = 0 otherwise. -/
def roleState (s : State) (e : Nat) : State :=
  if s.ptpSlave e then
    (if s.domState e = 0 then
      (s.setDomState e 1).setDom e { s.dom e with good := 0, stepped := false, integ := 0 }
     else s)
  else (s.setDomState e 0).setAdj e 0

/-- The parent is `g` (R116): another grandmaster clears the integrator, and a LOCKED domain enters HOLDOVER. -/
def setParent (s : State) (e : Nat) (g : BitVec 64) : State :=
  let old := (s.dom e).parent
  let s := s.setDom e { s.dom e with parent := g }
  let s := (s.setFld (Reg.PTP_PARENT_LO e) (g.toNat % 2 ^ 32)).setFld (Reg.PTP_PARENT_HI e) (g.toNat >>> 32)
  if old ≠ 0 ∧ old ≠ g then (s.setDom e { s.dom e with integ := 0 }).enterHoldover e else s

/-- An Announce message: at most 8 foreign masters are kept, and the best decides parent and role (R119). -/
def ptpAnnounce (s : State) (e : Nat) (m : PtpMsg) : State :=
  let f : Foreign := ⟨m.prio1, m.clockClass, m.accuracy, m.variance, m.prio2, m.grandmaster, m.steps, m.sender⟩
  let l := (s.dom e).foreign.filter fun x => !decide (x.sender = m.sender)
  let l := if l.length < 8 then l ++ [f] else l
  let s := s.setDom e { s.dom e with foreign := l, lastAnnounce := s.now }
  match bestMaster l with
  | none => s
  | some b =>
    if s.fld (Reg.PTP_ROLE e) = 1 then s
    else if s.fld (Reg.PTP_ROLE e) = 2 ∧ !s.beatsSelf e b then
      (s.nextFree.setFld (Reg.PTP_PORT_STATE e) 6).roleState e
    else
      let s := ((s.nextFree.setFld (Reg.PTP_PORT_STATE e) 9).roleState e).setParent e b.gm
      if b.sender = m.sender then s.setDom e { s.dom e with utc := m.utc.getD 0 } else s

/-- The message an engine sends: sequence and time carried. -/
def ptpSend (s : State) (e : Nat) (k : PtpKind) (seq t : Nat) : State :=
  s.setDom e { s.dom e with lastSent := some (k, seq, t) }

/-- A supported PTP message of the engine's domain is processed (R116, R117, R119). -/
def ptpReceive (s : State) (e : Nat) (m : PtpMsg) : State :=
  let t := s.fullNs e
  let x := s.dom e
  match m.kind with
  | .sync =>
    if !s.ptpSlave e then s
    else if m.twoStep then s.setDom e { x with syncWait := some (m.seq, t) }
    else s.ptpSample e ((m.time : Int) + m.corr) t
  | .followUp => match x.syncWait with
    | some (q, t2) => if q = m.seq ∧ s.ptpSlave e then s.ptpSample e ((m.time : Int) + m.corr) t2 else s
    | none => s
  | .delayResp => match x.reqWait, x.lastT1T2 with
    | some (q, t3), some (t1, t2) =>
      if q = m.seq then
        s.setDom e { x with reqWait := none, meanDelay := ((t2 - t1) + ((m.time : Int) - m.corr - t3)).fdiv 2 }
      else s
    | _, _ => s
  | .pdelayResp => match x.reqWait with
    | some (q, t3) =>
      if q ≠ m.seq then s
      else if m.twoStep then s.setDom e { x with peerWait := some (q, t, m.time) }
      else s.setDom e { x with reqWait := none, meanDelay := (((t : Int) - t3) - m.corr).fdiv 2 }
    | none => s
  | .pdelayRespFollowUp => match x.reqWait, x.peerWait with
    | some (q, t1), some (q', t4, t2) =>
      if q = m.seq ∧ q' = m.seq then
        s.setDom e { x with reqWait := none, peerWait := none,
                            meanDelay := (((t4 : Int) - t1) - ((m.time : Int) + m.corr - t2)).fdiv 2 }
      else s
    | _, _ => s
  | .delayReq => if s.ptpMaster e then s.ptpSend e .delayResp m.seq t else s
  | .pdelayReq => if s.flag (Reg.PTP_P2P e) then s.ptpSend e .pdelayResp m.seq t else s
  | .announce => s.ptpAnnounce e m
  | .unsupported => s.count (Reg.PTP_IGNORED e)

/-- 2^l seconds in FCLK cycles, for a signed log₂ interval. -/
def intervalCycles (l : Int) : Nat := if 0 ≤ l then 2000000000 * 2 ^ l.toNat else 2000000000 / 2 ^ (-l).toNat

/-! ### Clock monitor (R118) -/

/-- One move of TCLK between sources: the event, both domains through HOLDOVER, and at most one tick lost by a free choice (log entry 4). -/
def moveClk (s : State) (src : Nat) : State :=
  let s := (s.setFld Reg.TIME_CLK_SRC src).timeRaise 64
  let lost := s.freeVal % 2
  let lose (s : State) (d : Nat) : State :=
    let x := s.dom d
    s.setDom d { x with count := wrap 104 ((x.count : Int) - lost * (s.effInc d).1) }
  (((lose (lose s 0) 1).nextFree).enterHoldover 0).enterHoldover 1

/-- A clock within tolerance: no missing edge, and a deviation of at most TOL ppm (R118). -/
def clkGood (s : State) (ppm : Option Nat) : Bool :=
  match ppm with | some p => decide (p ≤ s.fld Reg.TIME_CLK_TOL) | none => false

/-! ### Timestamp queues (R121, R122) -/

def etsQueue (s : State) (q : Nat) : List Stamp := s.time.ets.get (fun _ => []) q
def setEts (s : State) (q : Nat) (l : List Stamp) : State :=
  { s with time := { s.time with ets := s.time.ets.set (fun _ => []) q l } }

/-- An entry: ID, domain code, edge and the 48-bit time (R121). -/
def mkStamp (id dcode edge t48 : Nat) : Stamp :=
  ⟨t48 % 2 ^ 32, (id % 256) <<< 24 + dcode <<< 22 + edge <<< 21 + (t48 >>> 32) % 65536⟩

/-- A transmitted frame that asked for a timestamp leaves (R121): the selected domain's time. -/
def pushEts (s : State) (q id : Nat) : State :=
  let l := s.etsQueue q
  if 16 ≤ l.length then s.count (Reg.ETS_DROPPED q)
  else s.setEts q (l ++ [mkStamp id (s.sel + 1) 0 s.capture])

/-- POP of an Ethernet queue; ignored on an empty queue (R122). -/
def popEts (s : State) (q : Nat) : State := s.setEts q (s.etsQueue q).tail

/-! ### Event pins (R123, R124) -/

/-- The domain an event pin names: the selected one for 0, A, B; the reserved code 3 names one of them by a free choice (log entry 7). -/
def evtDom (s : State) (i : Nat) : Nat :=
  match s.fld (Reg.EVT_DOMAIN i) with
  | 0 => s.sel | 1 => 0 | 2 => 1 | _ => s.freeVal % 2

/-- An accepted edge: timestamped, queued or dropped, and posted (R121 to R123). -/
def evtEdge (s : State) (i : Nat) (rising : Bool) (filter : Nat) : State :=
  let p := s.evtPin i
  let d := s.evtDom i
  let t := (wrap 104 (((s.dom d).count : Int) - filter * (s.effInc d).1)) >>> 40 % 2 ^ 48
  let s := s.setEvtPin i { p with id := (p.id + 1) % 256 }
  let s := if p.queue.length < 16 then
      s.setEvtPin i { s.evtPin i with queue := p.queue ++ [mkStamp p.id (d + 1) (b01 rising) t] }
    else s.count (Reg.EVT_DROPPED i)
  (s.post 0x0B i (b01 rising) (t + p.id <<< 56)).nextFree

/-- EDGE selects this edge (EVT_CFG.EDGE). -/
def edgeSelected (sel : Nat) (rising : Bool) : Bool := if rising then sel % 2 == 1 else decide (2 ≤ sel)

/-- The pulse width of an event pin: WIDTH, clamped to PERIOD − 2 ns in mode 3, whose PERIOD is at least 100 ns (R124). -/
def evtPeriod (s : State) (i : Nat) : Nat := max 100 (s.fld (Reg.EVT_PERIOD i))
def evtWidth (s : State) (i : Nat) : Nat :=
  if s.fld (Reg.EVT_MODE i) = 3 then min (s.fld (Reg.EVT_WIDTH i)) (s.evtPeriod i - 2) else s.fld (Reg.EVT_WIDTH i)

/-- The full count with given low 48 bits that lies nearest to a present full count (R105). -/
def nearestFull (present t48 : Nat) : Nat :=
  let k := ((present : Int) - t48 + 2 ^ 47).fdiv (2 ^ 48)
  (((t48 : Int) + k * 2 ^ 48) % 2 ^ 64).toNat

/-- EVT_GEN_TIME takes effect: a one-shot already past sets MISSED, otherwise the pin is armed (R124). -/
def evtArm (s : State) (i : Nat) : State :=
  let d := s.evtDom i
  let t := nearestFull (s.fullNs d) ((s.fld (Reg.EVT_GEN_TIME_LO i)) + (s.fld (Reg.EVT_GEN_TIME_HI i) % 65536) <<< 32)
  match s.fld (Reg.EVT_MODE i) with
  | 2 =>
    if t ≤ s.fullNs d then (s.setBitsOf (Reg.EVT_MISSED i).addr 256).setEvtPin i { s.evtPin i with armed := false }
    else s.setEvtPin i { s.evtPin i with armed := true, nextAt := t }
  | 3 => s.setEvtPin i { s.evtPin i with armed := true, nextAt := t }
  | _ => s

/-- Present time on the scale of an event pin's schedule: tide time for mode 4, the domain's full count otherwise (R124), in ns. -/
def evtNow (s : State) (i : Nat) : Nat :=
  if s.fld (Reg.EVT_MODE i) = 4 then (s.tideTime.fdiv (2 ^ 40)).toNat else s.fullNs (s.evtDom i)

/-- The scheduled assertion of an event pin that is due now, if any (R124). -/
def evtDue (s : State) (i : Nat) : Option Nat :=
  let p := s.evtPin i
  let now := s.evtNow i
  match s.fld (Reg.EVT_MODE i) with
  | 2 | 3 => if p.armed ∧ p.nextAt ≤ now then some p.nextAt else none
  | 4 =>
    let at_ := ((s.schedTime s.tide).fdiv (2 ^ 48)).toNat + s.fld (Reg.EVT_OFFSET i)
    if s.running ∧ p.nextAt ≤ s.tide ∧ at_ ≤ now then some at_ else none
  | 5 => if p.nextAt ≤ now / 1000000000 then some (now / 1000000000 * 1000000000) else none
  | _ => none

/-- An output edge falls: assertion at its due time, deassertion after the width; own edges are captured with OWN = 1 (R123, R124). A faulted pin generates nothing (R407). -/
def evtOutput (s : State) (i : Nat) (up : Bool) : State :=
  let p := s.evtPin i
  let level := up != s.flag (Reg.EVT_POLARITY i)
  let own (s : State) : State := if s.flag (Reg.EVT_OWN i) then s.evtEdge i level 0 else s
  if up then match s.evtDue i with
    | some t =>
      let next := match s.fld (Reg.EVT_MODE i) with
        | 3 => t + s.evtPeriod i
        | 4 => s.tide + 1
        | 5 => t / 1000000000 + 1
        | _ => p.nextAt
      let ok := decide (s.fld (Reg.EVT_PAD_FAULT i) = 0)
      let s := s.setEvtPin i { p with
        asserted := ok, armed := p.armed && !decide (s.fld (Reg.EVT_MODE i) = 2), nextAt := next, endAt := t + s.evtWidth i }
      if ok then own s else s
    | none => s
  else if p.asserted ∧ p.endAt ≤ s.evtNow i then own (s.setEvtPin i { p with asserted := false })
  else s

end State

/-! ### Meanings -/

/-- EPOCH_WRAP (R103): a wrap that the counter made is announced. -/
def execEpochWrap (d : Fin 2) (s : State) : Res := .next (s.announceWrap d)

/-- PTP_MESSAGE_RX (R119): processed by an enabled engine whose domain it names; engines are off in replay (R439). -/
def execPtpMessageRx (e : Fin 2) (msg : PtpMsg) (s : State) : Res :=
  .next (if s.replaying || !s.flag (Reg.PTP_EN e) then s
    else if msg.domain ≠ s.fld (Reg.PTP_DOMAIN e) then s
    else s.ptpReceive e msg)

/-- PTP_MESSAGE_TX (R119): an enabled engine sends its own message; a delay request starts an exchange. -/
def execPtpMessageTx (e : Fin 2) (kind : PtpKind) (s : State) : Res :=
  .next (if s.replaying || !s.flag (Reg.PTP_EN e) then s
    else
      let x := s.dom e
      let t := s.fullNs e
      let s := s.setDom e { x with txSeq := (x.txSeq + 1) % 65536, lastSent := some (kind, x.txSeq, t) }
      match kind with
      | .delayReq | .pdelayReq => s.setDom e { s.dom e with reqWait := some (x.txSeq, t), peerWait := none }
      | _ => s)

/-- SYNC_LOSS (R116): a LOCKED domain without a valid Sync for 4 sync intervals enters HOLDOVER. -/
def execSyncLoss (d : Fin 2) (s : State) : Res :=
  .next (if (s.dom d).lastSync + 4 * State.intervalCycles (s.logSync d) ≤ s.now then s.enterHoldover d else s)

/-- ANNOUNCE_TIMEOUT (R119): the masters heard are forgotten; a BMCA engine becomes master, a slave-only one listens. -/
def execAnnounceTimeout (e : Fin 2) (s : State) : Res :=
  .next (
    let wait := s.fld (Reg.PTP_ANN_TO e) * State.intervalCycles (signed 4 (s.fld (Reg.PTP_LOG_ANN e)))
    if s.flag (Reg.PTP_EN e) ∧ (s.dom e).lastAnnounce + wait ≤ s.now then
      let s := s.setDom e { s.dom e with foreign := [], lastAnnounce := s.now }
      match s.fld (Reg.PTP_ROLE e) with
      | 0 => s.setFld (Reg.PTP_PORT_STATE e) 4
      | 2 => (s.setFld (Reg.PTP_PORT_STATE e) 6).roleState e
      | _ => s
    else s)

/-- CLK_MONITOR_WINDOW (R118): a window that ends out of tolerance moves TCLK to the reference, and to the backup oscillator when that is out too. -/
def execClkMonitorWindow (tosc ref : Option Nat) (s : State) : Res :=
  .next (
    let s := { s with time := { s.time with toscGood := if s.clkGood tosc then s.time.toscGood + 1 else 0 } }
    match s.fld Reg.TIME_CLK_SRC with
    | 0 => if s.clkGood tosc then s else if s.clkGood ref then s.moveClk 1 else s.moveClk 2
    | 1 => if s.clkGood ref then s else s.moveClk 2
    | _ => s)

/-- EVT_EDGE (R123): accepted on a capture pin whose EDGE selects it; event capture is off in replay (R439). -/
def execEvtEdge (i : Fin 16) (rising : Bool) (s : State) : Res :=
  .next (if s.replayMode then s
    else if s.fld (Reg.EVT_MODE i) = 1 ∧ State.edgeSelected (s.fld (Reg.EVT_EDGE i)) rising then
      s.evtEdge i rising (s.fld (Reg.EVT_FILTER i))
    else s)

/-- EVT_OUTPUT_EDGE (R124). -/
def execEvtOutputEdge (i : Fin 16) (assert : Bool) (s : State) : Res := .next (s.evtOutput i assert)

end Sys2Proof.Machine
end

