-- ==== Sys2Proof/Machine/Gpio.lean ====
section
/-! DEFINITION. GPIO pins: what drives them, edges, conflicts, faults and retries; the pads of event pins (R404 to R407, R409). -/

namespace Sys2Proof.Machine.State

/-- Bit `n` of a bulk register array whose word 0 is at `a`. -/
def pinBit (s : State) (a n : Nat) : Bool := bit (s.word (a + 4 * (n / 32))).toNat (n % 32)

def setPinBit (s : State) (a n : Nat) (v : Bool) : State :=
  let w := a + 4 * (n / 32)
  s.setWord w (BitVec.ofNat 32 (putBits (s.word w).toNat (n % 32) (n % 32) (b01 v)))

def gpioIn : Nat := (Reg.GPIO_IN_IN 0).addr
def gpioOut : Nat := (Reg.GPIO_OUT_OUT 0).addr
def gpioFault : Nat := (Reg.GPIO_FAULT_FAULT 0).addr
def gpioKind : Nat := (Reg.GPIO_FAULT_KIND_LOW 0).addr

/-- Event bits of GPIO: SOURCE 49. -/
def gpioRaise (s : State) (m : Nat) : State := s.raise Reg.GPIO_EVENT_FAULT.addr Reg.GPIO_EVENT_EN_EN.addr 49 m

/-- The enabled sync outputs that name pin `n`, ascending in 4p + k (R405). -/
def syncsOn (s : State) (n : Nat) : List (Nat × Nat) :=
  ((List.range 8).map fun i => (i / 2, i % 2)).filter fun e => s.flag (Reg.SRX_SYNC_EN e.1 e.2) && decide (s.fld (Reg.SRX_SYNC_PIN e.1 e.2) = n)

/-- The level of a sync output. -/
def syncLevel (s : State) (p k : Nat) : Bool :=
  (((s.ports.get (fun _ => {}) p).sync.get (fun _ => {}) k).on) != s.flag (Reg.SRX_SYNC_POL p k)

/-- Bank `b` (0 for A) was classified at the last COLD or WAKE reset (R476). -/
def bankOk (s : State) (b : Nat) : Bool :=
  let v := bits s.pwr.banks (8 * b + 7) (8 * b) * 20
  decide (1080 ≤ v ∧ v ≤ 1320) || decide (1620 ≤ v ∧ v ≤ 1980) || decide (2970 ≤ v ∧ v ≤ 3630)

/-- The pads of bank `b` are at the blocks' command: the bank has a class and no JTAG instruction drives the pins (R476, R484). -/
def padsOwn (s : State) (b : Nat) : Bool := s.bankOk b && !decide (s.jtag.ir = 0 ∨ s.jtag.ir = 8 ∨ s.jtag.ir = 9)

/-- The level pin `n` drives, if it drives: none while released, faulted or an input (R404 to R406). -/
def gpioDrive (s : State) (n : Nat) : Option Bool :=
  if s.pinBit gpioFault n || !s.padsOwn (n / 40) then none
  else match s.fld (Reg.GPIO_PAD_MODE n) with
    | 1 => some (s.pinBit gpioOut n)
    | 2 => if s.pinBit gpioOut n then none else some false
    | 3 => match s.syncsOn n with
      | (p, k) :: _ => some (s.syncLevel p k)
      | [] => some false
    | _ => none

/-- The level an event pin drives (R124, R407). -/
def evtDrive (s : State) (i : Nat) : Option Bool :=
  let mode := s.fld (Reg.EVT_MODE i)
  let level := (s.evtPin i).asserted != s.flag (Reg.EVT_POLARITY i)
  if s.fld (Reg.EVT_PAD_FAULT i) ≠ 0 ∨ mode < 2 ∨ 5 < mode ∨ !s.padsOwn 0 then none
  else if s.flag (Reg.EVT_PAD_OD i) && level then none else some level

/-- Several sync outputs that name one pin in MODE 3 set CONFLICT (R405). -/
def gpioConflict (s : State) (n : Nat) : State :=
  if s.fld (Reg.GPIO_PAD_MODE n) = 3 ∧ 1 < (s.syncsOn n).length then s.gpioRaise 2 else s

/-- An accepted edge of pin `n` (R404). -/
def gpioEdge (s : State) (n : Nat) (rising : Bool) : State :=
  if s.pinBit gpioIn n = rising then s
  else
    let s := s.setPinBit gpioIn n rising
    let e := s.fld (Reg.GPIO_PAD_EDGE n)
    if bit e (if rising then 0 else 1) then s.post 0x0A n (b01 rising) 0 else s

/-- FCLK cycles after which a faulted pin is driven again; never for RETRY_MS = 0. -/
def retryTime (s : State) : Nat := if s.fld Reg.GPIO_PROTECT_RETRY_MS = 0 then 0 else s.now + msCycles (s.fld Reg.GPIO_PROTECT_RETRY_MS)

/-- 16 consecutive mismatches latch a fault: the filtered input reads `level` against the driven one (R406, R407). -/
def pinFault (s : State) (pin : GpioPin) (level : Bool) : State :=
  match pin with
  | .gpio n => match s.gpioDrive n with
    | some d =>
      if d = level then s
      else
        let s := (s.setBitsOf (gpioFault + 4 * (n.val / 32)) (1 <<< (n.val % 32))).setPinBit gpioKind n d
        let s := { s with gpio := { s.gpio with retryAt := s.gpio.retryAt.set (fun _ => 0) n s.retryTime } }
        s.gpioRaise 1
    | none => s
  | .evt i => match s.evtDrive i with
    | some d =>
      if d = level then s
      else
        let s := s.setFld (Reg.EVT_PAD_FAULT i) (if d then 1 else 2)
        (s.setEvtPin i { s.evtPin i with retryAt := s.retryTime, asserted := false }).gpioRaise 1
    | none => s

/-- The pin is driven for 20 µs to test it: it resumes, or the retry repeats (R406). -/
def faultRetry (s : State) (pin : GpioPin) (pass : Bool) : State :=
  match pin with
  | .gpio n =>
    let t := s.gpio.retryAt.get (fun _ => 0) n
    if !s.pinBit gpioFault n || decide (t = 0) || decide (s.now < t) then s
    else if pass then ({ s with gpio := { s.gpio with retryAt := s.gpio.retryAt.set (fun _ => 0) n 0 } } : State).setPinBit gpioFault n false
    else { s with gpio := { s.gpio with retryAt := s.gpio.retryAt.set (fun _ => 0) n s.retryTime } }
  | .evt i =>
    let x := s.evtPin i
    if s.fld (Reg.EVT_PAD_FAULT i) = 0 ∨ x.retryAt = 0 ∨ s.now < x.retryAt then s
    else if pass then (s.setEvtPin i { x with retryAt := 0 }).setFld (Reg.EVT_PAD_FAULT i) 0
    else s.setEvtPin i { x with retryAt := s.retryTime }

/-- A cleared fault latch of word `w`: the pins of `m` resume at once (R406). -/
def gpioResume (s : State) (w m : Nat) : State :=
  let ns := (onesBelow 32 m).map (32 * w + ·)
  { s with gpio := { s.gpio with retryAt := ns.foldl (fun r n => r.set (fun _ => 0) n 0) s.gpio.retryAt } }

/-- CLEAR of EVT_PAD_i (R407). -/
def evtResume (s : State) (i : Nat) : State := (s.setEvtPin i { s.evtPin i with retryAt := 0 }).setFld (Reg.EVT_PAD_FAULT i) 0

/-- Writes to GPIO_OUT, GPIO_SET and GPIO_CLR of word `w`; those of one FCLK cycle apply in that order (R404). `k` is 0 for OUT, 1 for SET, 2 for CLR. -/
def gpioWrite (s : State) (w k v : Nat) : State :=
  let a := gpioOut + 4 * w
  let old := s.gpio.outs.get (fun _ => (0, 0, 0, 0)) w
  let (base, set, clr) := if old.1 = s.now + 1 then old.2 else ((s.word a).toNat, 0, 0)
  let (base, set, clr) := if k = 0 then (v, set, clr) else if k = 1 then (base, set ||| v, clr) else (base, set, clr ||| v)
  let s := { s with gpio := { s.gpio with outs := s.gpio.outs.set (fun _ => (0, 0, 0, 0)) w (s.now + 1, base, set, clr) } }
  s.setWord a (BitVec.ofNat 32 (base ||| set) &&& ~~~ BitVec.ofNat 32 clr)

end Sys2Proof.Machine.State

namespace Sys2Proof.Machine

/-! ### Commands -/

/-- GPIO_EDGE (R404). -/
def execGpioEdge (n : Fin 160) (rising : Bool) (s : State) : Res := .next (s.gpioEdge n rising)

/-- GPIO_DRIVE_FAULT (R406, R407). -/
def execGpioDriveFault (pin : GpioPin) (level : Bool) (s : State) : Res := .next (s.pinFault pin level)

/-- GPIO_FAULT_RETRY (R406). -/
def execGpioFaultRetry (pin : GpioPin) (pass : Bool) (s : State) : Res := .next (s.faultRetry pin pass)

end Sys2Proof.Machine
end

