-- ==== Sys2Proof/Machine/Srx.lean ====
section
/-! DEFINITION. Camera ports: training, lane faults and proposals, test patterns, frames, rows and parcels, sync outputs (R127 to R164). -/

namespace Sys2Proof.Machine

/-- First byte of a control block (R131): 0 IDLE, 1 TRAIN, 2 SOF, 3 SEAM, 4 EOF; the sand code's byte, or the K-character's 8-bit value. -/
def ctlByte (sand : Bool) (kind : Nat) : Nat :=
  if sand then [0x1E, 0x2D, 0x33, 0x4B, 0x66].getD kind 0 else [0xBC, 0x5C, 0xFB, 0x1C, 0xFD].getD kind 0

/-- The reserved bits of a control block of a kind are 0 (R131). -/
def ctlReservedOk (kind : Nat) (b : Nat) : Bool :=
  if kind = 0 then decide (bits b 63 8 = 0)
  else if kind = 1 then decide (bits b 15 14 = 0)
  else if kind = 2 then decide (bits b 15 12 = 0) && decide (bits b 63 16 = 0)
  else if kind = 3 then !bit b 63
  else decide (bits b 63 58 = 0)

/-- A control block spells kind `kind` without error (R131). -/
def isCtl (sand : Bool) (kind b : Nat) : Bool := decide (b % 256 = ctlByte sand kind) && ctlReservedOk kind b

/-- Bits per sample of a width code (R131). -/
def widthBits (c : Nat) : Nat := 10 + 2 * c

/-- Bytes of a row of `n` samples of `w` bits (R133). -/
def rowBytes (n w : Nat) : Nat := ceilDiv (n * w) 8

/-- The stride of a stored row (R151). -/
def rowStride (packed : Bool) (n w : Nat) : Nat := (if packed then ceilDiv (rowBytes n w) 64 else ceilDiv (2 * n) 64) * 64

/-- A row of the link as it is stored (R151): samples right-justified in 16-bit words, or the link layout, padded to the stride. -/
def storedRow (packed : Bool) (n w : Nat) (row : List Byte) : List Byte :=
  let v := ofBytesLE (row.take (rowBytes n w))
  padTo (rowStride packed n w)
    (if packed then bytesLE (rowBytes n w) v
     else ((List.range n).map fun j => bytesLE 2 (bits v (j * w + w - 1) (j * w))).flatten)

/-- The 8 bytes of block `b` of a lane, zero where the lane delivered none. -/
def laneBlockBytes (l : List Byte) (b : Nat) : List Byte := padTo 8 ((l.drop (8 * b)).take 8)

/-- Interleave the logical lanes' blocks into the row (R133). -/
def interleave (lanes : List (List Byte)) (blocks : Nat) : List Byte :=
  ((List.range blocks).map fun b => (lanes.map fun l => laneBlockBytes l b).flatten).flatten

/-- The smallest prefix rule of a proposal (R160): the highest-numbered lanes go until the count is a multiple of `2 ^ step`. -/
def proposal (step : Nat) (l : List Nat) : List Nat := l.take (l.length - l.length % 2 ^ step)

namespace State

/-- SRX events (R164). -/
def srxRaise (s : State) (p m : Nat) : State := s.raise (0x80060 + 0x4000 * p) (0x80064 + 0x4000 * p) p m

/-- The lanes in use: the open frame's, otherwise the committed ones. -/
def useNow (s : State) (p : Nat) : Nat :=
  match (s.port p).frame with | some f => f.use | none => s.laneUse p

def sensorOf (s : State) (p i : Nat) : Nat := s.fld (Reg.LANE_STATUS_SENSOR_LANE p i)

/-- The physical lane that carries sensor lane `n`, if training settled one (R140). -/
def physOf (s : State) (p n : Nat) : Option Nat :=
  (List.range 64).find? fun i => (s.lane p i).ident && decide (s.sensorOf p i = n)

/-- Sensor lane `n` is carried by a lane that is now faulted (R160). -/
def sensorFaulted (s : State) (p n : Nat) : Bool :=
  match s.physOf p n with | some i => decide (s.laneState p i = 7) | none => false

/-- SRX_MIN_FRAME_NS for `n` lanes (R162). -/
def minFrameNs (s : State) (p n : Nat) : Nat :=
  if n = 0 then 0xFFFFFFFF
  else
    let w := widthBits (((s.port p).width).getD 3)
    let b := rowBytes (s.fld (Reg.SRX_ROW_SAMPLES_M1 p) + 1) w
    let blocks := (s.fld (Reg.SRX_FRAME_STRATA_M1 p) + 1) *
      (2 + (s.fld (Reg.SRX_FRAME_ROWS_M1 p) + 1) * (1 + ceilDiv b (8 * n)))
    let ui := if s.flag (Reg.SRX_CTRL_CODE p) then 66 else 80
    min 0xFFFFFFFF (blocks * ui * 1000 / s.fld (Reg.SRX_CTRL_RATE p))

/-- Write a proposal from a list of sensor lanes, ascending (R143, R160). -/
def propose (s : State) (p : Nat) (lanes : List Nat) : State :=
  let l := proposal (min 4 (s.fld (Reg.SRX_CTRL_REMAP_STEP p))) lanes
  let m := l.foldl (fun m n => m ||| 2 ^ n) 0
  let s := s.setFld2 (Reg.SRX_PROPOSE_LO p) (Reg.SRX_PROPOSE_HI p) m
  s.setFld (Reg.SRX_MIN_FRAME_NS_NS p) (s.minFrameNs p l.length)

/-! ### Training (R136 to R143) -/

def setLaneState (s : State) (p i v : Nat) : State :=
  (s.setFld (Reg.LANE_STATUS_STATE p i) v).setLane p i { s.lane p i with enteredAt := s.now }

/-- A lane faults with a code (R158 to R160): shut down, latched; its termination opens on a short; in RUN a lane in use degrades the port. -/
def laneFault (s : State) (p i code : Nat) : State :=
  if s.laneState p i = 7 ∨ s.laneState p i = 0 then s
  else
    let s := ((s.setFld (Reg.LANE_STATUS_STATE p i) 7).setFld (Reg.LANE_STATUS_FAULT p i) code).setFld (Reg.LANE_STATUS_LOCK p i) 0
    let s := s.setLane p i { s.lane p i with faultAt := s.now, lostAt := none, open_ := decide (code = 1 ∨ code = 2) }
    let s := s.srxRaise p 0x20
    if s.portState p = 3 ∧ (s.lane p i).ident ∧ bit (s.useNow p) (s.sensorOf p i) then
      let s := s.setFld (Reg.SRX_STATUS_DEGRADED p) 1
      s.propose p ((onesBelow 64 (s.useNow p)).filter fun n => !s.sensorFaulted p n)
    else s

/-- Fault several lanes with one code. -/
def laneFaults (p code : Nat) : List Nat → State → State
  | [], s => s
  | i :: is, s => laneFaults p code is (s.laneFault p i code)

/-- The sensor lanes of the READY lanes, ascending (R143). -/
def readySensors (s : State) (p : Nat) : List Nat :=
  (List.range 64).filter fun n => (List.range 64).any fun i => decide (s.laneState p i = 6) && decide (s.sensorOf p i = n)

/-- The port enters READY (R137, R143). -/
def endTraining (s : State) (p : Nat) : State :=
  let s := s.setFld (Reg.SRX_STATUS_STATE p) 2
  (s.srxRaise p 0x40).propose p (s.readySensors p)

/-- A lane starts training (R136, R137, R159, R224). -/
def trainLane (s : State) (p i : Nat) : State :=
  let s := s.setLane p i { offset := (s.lane p i).offset, prbsBits := (s.lane p i).prbsBits, enteredAt := s.now }
  let s := s.setWord (Reg.LANE_STATUS_STATE p i).addr 0
  if bit (s.laneEn p) i then
    let s := s.setFld (Reg.LANE_STATUS_STATE p i) 1
    if s.fld (Reg.LANE_CFG_ADAPT p i) = 0 then s else s.toBaseline p i
  else s

def trainLanes (p : Nat) : List Nat → State → State
  | [], s => s
  | i :: is, s => trainLanes p is (s.trainLane p i)

/-- SRX_CTRL.OP = TRAIN (R136, R228). -/
def srxTrain (s : State) (p : Nat) : State :=
  let s := calAbort p (List.range 32) s
  let s := trainLanes p (List.range 64) s
  let s := (s.setFld (Reg.SRX_STATUS_STATE p) 1).setFld (Reg.SRX_STATUS_DEGRADED p) 0
  s.setPort p { s.port p with trainAt := s.now, width := none }

/-- SRX_CTRL.OP = RUN (R136): from READY only. -/
def srxRun (s : State) (p : Nat) : State :=
  if s.portState p = 2 then s.setFld (Reg.SRX_STATUS_STATE p) 3 else s.srxRaise p 0x80

/-- The fault code of the training step a lane stopped at (R137, R158). -/
def stepCode (st : Nat) : Nat := if st = 1 then 3 else if st = 2 then 4 else if st = 3 then 5 else if st = 4 then 6 else 7

/-- Lanes short of READY when SRX_TRAIN_MS elapses fault with the code of their step (R137). -/
def timeoutLanes (p : Nat) : List Nat → State → State
  | [], s => s
  | i :: is, s =>
    let st := s.laneState p i
    timeoutLanes p is (if 1 ≤ st ∧ st ≤ 5 then s.laneFault p i (stepCode st) else s)

/-- Restart a lane's PRBS checker and clear its counters (R144). -/
def prbsRestart (s : State) (p i : Nat) : State :=
  let s := (s.setFld (Reg.LANE_STATUS_PRBS_LOCK p i) 0).setFld (Reg.LANE_STATUS_PRBS_INV p i) 0
  let s := s.setFld (Reg.LANE_PRBS_ERR p i) 0
  s.setLane p i { s.lane p i with prbsBits := 0, prbsFrom := none }

/-- The checker of a lane runs (R144): PRBS 1 to 4, and TRAIN or READY or a lane absent from SRX_LANE_USE. -/
def prbsRuns (s : State) (p i : Nat) : Bool :=
  let c := s.fld (Reg.LANE_CFG_PRBS p i)
  decide (1 ≤ c ∧ c ≤ 4) && (decide (s.portState p = 1 ∨ s.portState p = 2) || !bit (s.useNow p) (s.sensorOf p i))

/-- Bits checked since the checker locked, at one bit per UI (R144): LANE_PRBS_BITS. -/
def prbsBits (s : State) (p i : Nat) : Nat :=
  let l := s.lane p i
  l.prbsBits + match l.prbsFrom with
    | some t => if s.prbsRuns p i then (s.now - t) * s.fld (Reg.SRX_CTRL_RATE p) / 2000 else 0
    | none => 0

/-- A write of 1 to LANE_CFG.INJECT (R145): one bit of the generator's next word is wrong; the checker sees it under loopback. -/
def prbsInject (s : State) (p i : Nat) : State :=
  let s := s.setFld (Reg.LANE_CFG_INJECT p i) 0
  if s.flag (Reg.LANE_CFG_LOOP p i) && s.flag (Reg.LANE_CFG_GEN p i) && s.prbsRuns p i && s.flag (Reg.LANE_STATUS_PRBS_LOCK p i) then
    s.count (Reg.LANE_PRBS_ERR p i) else s

/-- A write of LANE_CFG with its previous PRBS code and whether it writes INJECT: the checker restarts, but not by an injection that keeps PRBS (R144, R145, log entry 10). -/
def laneCfgWritten (s : State) (p i old : Nat) (inject : Bool) : State :=
  let s := if inject ∧ old = s.fld (Reg.LANE_CFG_PRBS p i) then s else s.prbsRestart p i
  if inject then s.prbsInject p i else s

/-- A write of 1 to LANE_SLIP (R138): in the sand code the block boundary moves by one bit. -/
def laneSlip (s : State) (p i : Nat) : State :=
  if s.flag (Reg.SRX_CTRL_CODE p) then s.setLane p i { s.lane p i with boundary := ((s.lane p i).boundary + 1) % 66 } else s

/-! ### The frame queue and the pipeline's input queue -/

/-- SRX_FQ_PUSH (R146): the frame queue holds 16 entries. -/
def fqA (p : Nat) : Nat := 0x80030 + 0x4000 * p
def srxFqPush (s : State) (p raw map : Nat) : State :=
  let (s, ok) := s.pushQ (fqA p) 16 ⟨raw, map, false⟩
  if ok then s else s.setBitsOf (0x80034 + 0x4000 * p) 0x100

/-- PIPE_IN_PUSH (R165): the input queue holds 4 entries. -/
def pipeInQ (i : Nat) : Nat := 0x100008 + 0x10000 * i
def pipeInPush (s : State) (i raw map : Nat) : State :=
  let (s, ok) := s.pushQ (pipeInQ i) 4 ⟨raw, map, false⟩
  if ok then s else (s.count (Reg.PIPE_IN_STATUS_LOST i)).raise (0x1001A0 + 0x10000 * i) (0x1001A4 + 0x10000 * i) (4 + i) 8

/-! ### Frames (R146 to R156) -/

def setFrame (s : State) (p : Nat) (f : PortFrame) : State := s.setPort p { s.port p with frame := some f }

/-- A class-T field of port `p` in the bank of the open frame (R147). -/
def frameFld (s : State) (p : Nat) (f : PortFrame) (x : Fld) : Nat := s.bankFld p f.man.setEpoch x

def frameRows (s : State) (p : Nat) (f : PortFrame) : Nat := s.frameFld p f (Reg.SRX_FRAME_ROWS_M1 p) + 1
def frameSamples (s : State) (p : Nat) (f : PortFrame) : Nat := s.frameFld p f (Reg.SRX_ROW_SAMPLES_M1 p) + 1
def frameStrata (s : State) (p : Nat) (f : PortFrame) : Nat := s.frameFld p f (Reg.SRX_FRAME_STRATA_M1 p) + 1
def framePacked (s : State) (p : Nat) (f : PortFrame) : Bool := decide (s.frameFld p f (Reg.SRX_FRAME_PACKED p) = 1)
def frameStride (s : State) (p : Nat) (f : PortFrame) : Nat :=
  rowStride (s.framePacked p f) (s.frameSamples p f) (widthBits f.width)

/-- Rows per parcel: 1 to 16, 0 acts as 16, at most 1 MiB in a parcel (R164). -/
def parcelRows (v stride : Nat) : Nat :=
  let v := if v = 0 ∨ 16 < v then 16 else v
  max 1 (min v (1048576 / stride))

def frameParcelRows (s : State) (p : Nat) (f : PortFrame) : Nat :=
  parcelRows (s.frameFld p f (Reg.SRX_ROW_PARCEL_ROWS p)) (s.frameStride p f)

def stratum (f : PortFrame) (k : Nat) : Option Stratum := f.strata.get (fun _ => none) k
def setStratum (f : PortFrame) (k : Nat) (x : Stratum) : PortFrame := { f with strata := f.strata.set (fun _ => none) k (some x) }

/-- Set flags in the open frame's stamp. -/
def frameFlag (f : PortFrame) (m : Nat) : PortFrame := { f with man := { f.man with flags := f.man.flags ||| m } }

/-- Emit rows of a stratum as one parcel (R25, R151). -/
def emitRows (s : State) (p : Nat) (f : PortFrame) (k first : Nat) (rows : List (List Byte)) : State :=
  if rows = [] ∨ !f.entry then s
  else s.emit p { f.man with stratum := k, plane := 0, firstRow := first, rows := rows.length, handle := f.raw }
    ((k * s.frameRows p f + first) * s.frameStride p f) rows.flatten

/-- Emit the run of rows a stratum holds (R151). -/
def flushRun (s : State) (p : Nat) (f : PortFrame) (k : Nat) : State × PortFrame :=
  match stratum f k with
  | none => (s, f)
  | some x => ((s.emitRows p f k x.first x.run).setFrame p (setStratum f k { x with run := [] }), setStratum f k { x with run := [] })

/-- Bytes enter the elastic buffer; the high-water mark follows (R157, R164). -/
def ebAdd (s : State) (p n : Nat) : State :=
  let s := s.setPort p { s.port p with level := (s.port p).level + n }
  let h := min 2048 (ceilDiv (s.port p).level 4096)
  if s.fld (Reg.SRX_EB_HIGH p) < h then s.setFld (Reg.SRX_EB_HIGH p) h else s

/-- Bytes leave the elastic buffer. -/
def ebSub (s : State) (p n : Nat) : State := s.setPort p { s.port p with level := (s.port p).level - n }

/-- The elastic buffer has room for `n` bytes (R150, R157: 8 MiB). -/
def ebRoom (s : State) (p n : Nat) : Bool := decide ((s.port p).level + n ≤ 8388608)

/-- A row of stratum `k` is dropped (R150, R151): the held run is emitted, then DROP. -/
def dropRow (s : State) (p : Nat) (f : PortFrame) (k : Nat) : State × PortFrame :=
  let (s, f) := s.flushRun p f k
  let f := frameFlag f flagDrop
  ((s.setFrame p f).srxRaise p 8, f)

/-- A row passed its CRC: it joins the run, which is emitted when it fills a parcel (R150, R151, R153). -/
def keepRow (s : State) (p : Nat) (f : PortFrame) (k r : Nat) (row : List Byte) : State :=
  match stratum f k with
  | none => s
  | some x =>
    let x := { x with valid := x.valid ||| 2 ^ r }
    let x := if x.run = [] then { x with first := r, run := [row] } else { x with run := x.run ++ [row] }
    let f := setStratum f k x
    if s.frameParcelRows p f ≤ x.run.length then (s.flushRun p f k).1 else s.setFrame p f

/-- The blocks of a lane as they reached the row (R160): after its fault a lane reads as zeros, from the block in which it struck. -/
def laneRow (s : State) (p i seamAt : Nat) (bs : List Byte) : List Byte :=
  if s.laneState p i ≠ 7 then bs
  else
    let ui := if s.flag (Reg.SRX_CTRL_CODE p) then 66 else 80
    bs.take (8 * (((s.lane p i).faultAt - seamAt) * s.fld (Reg.SRX_CTRL_RATE p) / (ui * 2000)))

/-- The row's bytes from what the lanes delivered (R133, R161): logical lane j is the j-th sensor lane in use. -/
def rowOf (s : State) (p use seamAt : Nat) (prev : List LaneBytes) : List Byte :=
  let lanes := (onesBelow 64 use).map fun n => match s.physOf p n with
    | none => []
    | some i => match prev.find? fun l => decide (l.lane.val = i) with
      | none => []
      | some l => s.laneRow p i seamAt l.bytes
  interleave lanes ((prev.map fun l => l.bytes.length / 8).foldl max 0)

/-- The row that waits for its CRC is settled by the CRC that follows it (R134, R150). -/
def settleRow (s : State) (p : Nat) (prev : List LaneBytes) (crc : Option Nat) : State :=
  match (s.port p).row, (s.port p).frame with
  | some (k, r, t), some f =>
    let s := s.setPort p { s.port p with row := none }
    let row := s.rowOf p f.use t prev
    if crc = some (crc32 row) then
      s.keepRow p f k r (storedRow (s.framePacked p f) (s.frameSamples p f) (widthBits f.width) row)
    else
      let (s, _) := (s.ebSub p (s.frameStride p f)).dropRow p f k
      s.count (Reg.SRX_DROP_CNT_CRC p)
  | _, _ => s

/-- Fill rows of a stratum from row `r` on (R154): `n` rows are left; `acc` is the run of fill rows to be emitted. -/
def fillRows (p k : Nat) (row : List Byte) (valid : Nat) : Nat → Nat → List (List Byte) → State → PortFrame → State × PortFrame
  | 0, r, acc, s, f => (s.emitRows p f k (r - acc.length) acc, f)
  | n + 1, r, acc, s, f =>
    if bit valid r then fillRows p k row valid n (r + 1) [] (s.emitRows p f k (r - acc.length) acc) f
    else if s.ebRoom p row.length then
      let s := s.ebAdd p row.length
      let acc := acc ++ [row]
      if s.frameParcelRows p f ≤ acc.length then
        fillRows p k row valid n (r + 1) [] (s.emitRows p f k (r + 1 - acc.length) acc) f
      else fillRows p k row valid n (r + 1) acc s f
    else
      let s := s.emitRows p f k (r - acc.length) acc
      let f := frameFlag f flagDrop
      fillRows p k row valid n (r + 1) [] (((s.setFrame p f).count (Reg.SRX_DROP_CNT_BUFFER p)).srxRaise p 8) f

/-- The stored form of a fill row (R154). -/
def fillRow (packed : Bool) (n w v : Nat) : List Byte :=
  storedRow packed n w (bytesLE (rowBytes n w) ((List.range n).foldl (fun a j => a + (v % 2 ^ w) <<< (j * w)) 0))

/-- Close a stratum with its closing count (R150, R151, R154). -/
def closeStratum (s : State) (p : Nat) (f : PortFrame) (k count : Nat) (short : Bool) : State × PortFrame :=
  let f := match stratum f k with | some _ => f | none => setStratum f k {}
  let (s, f) := s.flushRun p f k
  let x := (stratum f k).getD {}
  let rows := s.frameRows p f
  let c := min count rows
  let f := setStratum f k { x with closed := true }
  let f := if x.valid % 2 ^ c = 2 ^ c - 1 then f else frameFlag f flagDrop
  if !short then (s.setFrame p f, f)
  else
    let f := { frameFlag f flagShort with short := true }
    let s := (s.setFrame p f).srxRaise p 2
    if !f.entry then (s, f)
    else
      let row := fillRow (s.framePacked p f) (s.frameSamples p f) (widthBits f.width) (s.frameFld p f (Reg.SRX_FILL_FILL p k))
      let (s, f) := fillRows p k row x.valid (rows - c) c [] s f
      (s.setFrame p f, f)

/-- The row-valid map of a stratum (R153). -/
def mapBytes (valid : Nat) : List Byte := bytesLE 4096 (valid % 2 ^ 32768)

/-- Write the map parcels (R153). -/
def emitMaps (p : Nat) (f : PortFrame) : List Nat → State → State
  | [], s => s
  | k :: ks, s =>
    emitMaps p f ks (s.emit p { f.man with stratum := k, plane := 14, firstRow := 0, rows := s.frameRows p f, handle := f.map }
      (k * 4096) (mapBytes ((stratum f k).getD {}).valid))

/-- The four 8-byte words of a manifest, for records (R435). -/
def manWords (m : Manifest) : List Nat := (List.range 4).map fun i => bits m.toNat (64 * i + 63) (64 * i)

/-- A frame closes (R153, R156, R165): maps, the record, the push to the pipeline, the releases and BERTH_REL. -/
def finishFrame (s : State) (p : Nat) (f : PortFrame) : State :=
  let s := s.setPort p { s.port p with frame := none }
  let s := if f.short then s.count (Reg.SRX_FRAME_CNT_SHORT p) else s
  let s := if f.long then s.count (Reg.SRX_FRAME_CNT_LONG p) else s
  let s := s.endWork p f.man.tide
  if !f.entry then s
  else
    let s := if f.map = 0 then s else emitMaps p f (List.range (s.frameStrata p f)) s
    let s := s.logRec 0x08 p 0 (manWords (s.berth f.raw).man ++ [f.map])
    let s := if s.flag (Reg.PIPE_CTRL_AUTO p) then s.pipeInPush p f.raw f.map else s
    let s := if f.rawOk then s.release p f.raw else s
    let s := if f.mapOk then s.release p f.map else s
    s.berthRel p f.raw f.man.frame f.man.flags

/-- Close every stratum that is open or has not started, short (R154). -/
def closeShort (p : Nat) : List Nat → State → PortFrame → State × PortFrame
  | [], s, f => (s, f)
  | k :: ks, s, f =>
    match stratum f k with
    | some x => if x.closed then closeShort p ks s f
      else let (s, f) := s.closeStratum p f k x.next true; closeShort p ks s f
    | none => let (s, f) := s.closeStratum p f k 0 true; closeShort p ks s f

/-- Close the open frame short (R150, R154, R156): the row that waits for its CRC is not kept, and sets DROP. -/
def closeFrame (s : State) (p : Nat) : State :=
  match (s.port p).frame with
  | none => s
  | some f =>
    let (s, f) := match (s.port p).row with
      | none => (s, f)
      | some _ =>
        let s := (s.setPort p { s.port p with row := none }).ebSub p (s.frameStride p f)
        let f := frameFlag f flagDrop
        ((s.setFrame p f).srxRaise p 8, f)
    let (s, f) := closeShort p (List.range (s.frameStrata p f)) s f
    s.finishFrame p f

/-- Calibration that a frame of port `p` relies on is stale (R231): a group that holds a lane in use, VREF or MON. -/
def portStale (s : State) (p use : Nat) : Bool :=
  s.calStale 38 || s.calStale 40 ||
  (List.range 8).any fun g => s.calStale (8 * p + g) &&
    (List.range 8).any fun j => (s.lane p (8 * g + j)).ident && bit use (s.sensorOf p (8 * g + j))

/-- A stratum-0 SOF opens a frame (R25, R147). -/
def openFrame (s : State) (p width : Nat) : State :=
  let s := s.closeFrame p
  let s := s.setPort p { s.port p with width := some width }
  let e := s.sys.epoch
  let s := s.touchBank p e
  let cf := fun x => s.bankFld p e x
  let use := cf (Reg.SRX_LANE_USE_LO p) + cf (Reg.SRX_LANE_USE_HI p) <<< 32
  let num := s.fld (Reg.SRX_FRAME_NUM_FRAME_NUM p)
  let man := s.stamp s.tide
  let man := { man with
    stream := cf (Reg.SRX_STREAM_STREAM p), kind := 1, frame := num, expSet := cf (Reg.SRX_EXPSET_SET_ID p),
    domain := cf (Reg.SRX_STREAM_DOMAIN p), flags := man.flags ||| (if s.portStale p use then flagStale else 0) }
  let s := s.setFld (Reg.SRX_FRAME_NUM_FRAME_NUM p) (num + 1)
  let s := s.beginWork p s.tide s.tide e
  match s.popQ (fqA p) with
  | (s, none) =>
    ((s.setFrame p { raw := 0, map := 0, entry := false, rawOk := false, mapOk := false, man := man, width := width, use := use,
                     strata := [(0, some {})] }).count (Reg.SRX_FQ_STATUS_NO_BERTH p)).srxRaise p 0x10
  | (s, some q) =>
    let (s, a) := s.acquire p q.h
    let (s, b) := if q.h2 = 0 then (s, false) else s.acquire p q.h2
    s.setFrame p { raw := q.h, map := q.h2, entry := true, rawOk := a, mapOk := b, man := man, width := width, use := use,
                   strata := [(0, some {})] }

/-! ### Control blocks -/

/-- A lane counts a code error (R131, R142). -/
def codeErr (s : State) (p i : Nat) : State :=
  (s.count (Reg.LANE_CODE_ERR p i)).setLane p i { s.lane p i with codeTide := (s.lane p i).codeTide + 1 }

/-- Blocks of a control position that are not of kind `kind`, or whose position differs from logical lane 0's, count as code errors (R131, R141). -/
def codeErrs (p kind : Nat) (pos0 : Option Nat) : List LaneBlock → State → State
  | [], s => s
  | b :: bs, s =>
    let bad := !isCtl (s.flag (Reg.SRX_CTRL_CODE p)) kind b.block.toNat ||
      (match pos0 with | some x => decide (b.pos ≠ x) | none => false)
    codeErrs p kind pos0 bs (if bad then s.codeErr p b.lane.val else s)

/-- The block of the lowest logical lane that decoded without error (R149), among READY lanes in use. -/
def headBlock (s : State) (p use kind : Nat) (bs : List LaneBlock) : Option LaneBlock :=
  (onesBelow 64 use).findSome? fun n => match s.physOf p n with
    | none => none
    | some i => if s.laneState p i ≠ 6 then none else
      bs.find? fun b => decide (b.lane.val = i) && isCtl (s.flag (Reg.SRX_CTRL_CODE p)) kind b.block.toNat

/-- The block position on logical lane 0 (R141). -/
def pos0 (s : State) (p use : Nat) (bs : List LaneBlock) : Option Nat :=
  match onesBelow 64 use with
  | [] => none
  | n :: _ => match s.physOf p n with
    | none => none
    | some i => (bs.find? fun b => decide (b.lane.val = i)).map fun b => b.pos

/-- An SOF of a stratum other than 0 (R148): stray unless it starts a configured stratum of the open frame with its width. -/
def startStratum (s : State) (p k width : Nat) : State :=
  match (s.port p).frame with
  | none => s.srxRaise p 1
  | some f =>
    if s.frameStrata p f ≤ k ∨ (stratum f k).isSome ∨ width ≠ f.width then s.srxRaise p 1
    else s.setFrame p (setStratum f k {})

/-- The header of a row is accepted, or the row is discarded (R149, R150, R155). -/
def acceptRow (s : State) (p hdr : Nat) : State :=
  let k := bits hdr 16 15
  let r := bits hdr 14 0
  match (s.port p).frame with
  | none => s.count (Reg.SRX_ROW_CNT_HDR p)
  | some f =>
    match stratum f k with
    | none => s.count (Reg.SRX_ROW_CNT_HDR p)
    | some x =>
      if x.closed ∨ bits hdr 22 17 + 1 ≠ (onesBelow 64 f.use).length ∨ r < x.next then s.count (Reg.SRX_ROW_CNT_HDR p)
      else if !f.entry then s.srxRaise p 8
      else if s.frameRows p f ≤ r then
        ((s.setFrame p { frameFlag f flagLong with long := true }).count (Reg.SRX_ROW_CNT_LONG p)).srxRaise p 4
      else
        let (s, f) := if x.next < r then
            let (s, f) := s.flushRun p f k
            (s, frameFlag f flagDrop)
          else (s, f)
        let f := setStratum f k { (stratum f k).getD {} with next := r + 1 }
        let s := s.setFrame p f
        let n := s.frameStride p f
        if s.ebRoom p n then (s.ebAdd p n).setPort p { (s.ebAdd p n).port p with row := some (k, r, s.now) }
        else (s.dropRow p f k).1.count (Reg.SRX_DROP_CNT_BUFFER p)

/-- An EOF closes its stratum when it is open (R148, R154, R155), and the frame with its last stratum (R156). -/
def eofStratum (s : State) (p k count : Nat) : State :=
  match (s.port p).frame with
  | none => s
  | some f =>
    match stratum f k with
    | none => s
    | some x =>
      if x.closed then s
      else
        let rows := s.frameRows p f
        let (s, f) := if rows < count then
            let f := { frameFlag f flagLong with long := true }
            ((s.setFrame p f).srxRaise p 4, f)
          else (s, f)
        let (s, f) := s.closeStratum p f k count (decide (count < rows))
        if (List.range (s.frameStrata p f)).all fun j => match stratum f j with | some y => y.closed | none => false then
          s.finishFrame p f
        else s

/-- SRX_CTRL.OP = STOP (R136, R154, R228): the open frame closes, and the lanes power down but for latched faults. -/
def stopLanes (p : Nat) : List Nat → State → State
  | [], s => s
  | i :: is, s =>
    stopLanes p is (if s.laneState p i = 7 ∨ s.laneState p i = 0 then s
      else ((s.setFld (Reg.LANE_STATUS_STATE p i) 0).setFld (Reg.LANE_STATUS_LOCK p i) 0).setLane p i
        { s.lane p i with lostAt := none })

def srxStop (s : State) (p : Nat) : State :=
  let s := calAbort p (List.range 32) (s.closeFrame p)
  (stopLanes p (List.range 64) s).setFld (Reg.SRX_STATUS_STATE p) 0

/-- The effect of SRX_CTRL.OP (R136). -/
def srxOp (s : State) (p op : Nat) : State :=
  if op = 1 then s.srxTrain p else if op = 2 then s.srxRun p else if op = 3 then s.srxStop p
  else if op = 0 then s else s.srxRaise p 0x80

/-! ### Checks at each tide (R142) -/

/-- One lane's check at a tide, with what its eye monitor found. -/
def laneTide (s : State) (e : LaneTide) : State :=
  let p := e.port.val
  let i := e.lane.val
  let st := s.laneState p i
  if st = 0 ∨ st = 7 then s
  else
    let fom := min e.vert.toNat (4 * e.horz.val)
    let s := ((s.setFld (Reg.LANE_FOM_VERT p i) e.vert.toNat).setFld (Reg.LANE_FOM_HORZ p i) e.horz.val).setFld (Reg.LANE_FOM_FOM p i) fom
    let s := if s.fld (Reg.LANE_CFG_ADAPT p i) = 2 ∧ !s.flag (Reg.LANE_STATUS_SUSPECT p i) then
        (s.setFld (Reg.LANE_EQ_CTLE p i) e.ctle.toNat).setFld (Reg.LANE_EQ_DFE p i) e.dfe.toNat else s
    let perr := if s.prbsRuns p i ∧ s.flag (Reg.LANE_STATUS_PRBS_LOCK p i) then e.prbsErr else 0
    let s := if perr = 0 then s else s.count (Reg.LANE_PRBS_ERR p i) perr
    let errs := (s.lane p i).codeTide
    let s := s.setLane p i { s.lane p i with codeTide := 0 }
    let s := if s.fld (Reg.SRX_LINK_CFG_FOM_GOOD p) ≤ fom ∧ 0 < errs + perr then
        (s.setFld (Reg.LANE_STATUS_SUSPECT p i) 1).toBaseline p i else s
    if e.top < s.fld (Reg.SRX_LINK_CFG_FOM_FLOOR p) then s.laneFault p i 9
    else if s.portState p = 3 ∧ s.fld (Reg.SRX_LINK_CFG_ERR_LIMIT p) < errs then s.laneFault p i 8 else s

def laneTides : List LaneTide → State → State
  | [], s => s
  | e :: es, s => laneTides es (s.laneTide e)

/-! ### Sync outputs (R163) -/

def syncOut (s : State) (p k : Nat) : SyncOut := (s.port p).sync.get (fun _ => {}) k
def setSyncOut (s : State) (p k : Nat) (x : SyncOut) : State :=
  s.setPort p { s.port p with sync := (s.port p).sync.set (fun _ => {}) k x }

/-- Tide `n` schedules a pulse of an enabled sync output when n mod (DIV_M1 + 1) = 0. -/
def syncTide (s : State) (n p k : Nat) : State :=
  if s.flag (Reg.SRX_SYNC_EN p k) && decide (n % (s.fld (Reg.SRX_SYNC_DIV_M1 p k) + 1) = 0) then
    let t := s.schedTime n + (s.fld (Reg.SRX_SYNC_OFFSET p k) : Int) * (2 : Int) ^ 48
    let x := s.syncOut p k
    s.setSyncOut p k { x with due := x.due ++ [(t, t + (s.fld (Reg.SRX_SYNC_WIDTH p k) : Int) * (2 : Int) ^ 48)] }
  else s

def syncTides (n : Nat) : List (Nat × Nat) → State → State
  | [], s => s
  | (p, k) :: rest, s => syncTides n rest (s.syncTide n p k)

/-- All sync outputs. -/
def syncAll : List (Nat × Nat) := (List.range 8).map fun j => (j / 2, j % 2)

/-- The next edge of a sync output that is due: its end while asserted, otherwise the start of its oldest pulse. -/
def syncEdge (s : State) (p k : Nat) : State :=
  let x := s.syncOut p k
  if x.on ∧ x.offAt ≤ s.tideTime48 then s.setSyncOut p k { x with on := false }
  else match x.due with
    | [] => s
    | (a, b) :: rest => if a ≤ s.tideTime48 then s.setSyncOut p k { on := true, offAt := b, due := rest } else s

end State

/-! ### Meanings -/

/-- LANE_SIGNAL (R137). -/
def execLaneSignal (p : Fin 4) (i : Fin 64) (s : State) : Res :=
  .next (if s.laneState p i = 1 then s.setLaneState p i 2 else s)

/-- LANE_CDR_LOCK (R128, R137). -/
def execLaneCdrLock (p : Fin 4) (i : Fin 64) (s : State) : Res :=
  .next (if s.laneState p i = 2 then s.setLaneState p i 3 else s)

/-- LANE_ALIGN_LOCK (R137, R138, R142): LOCK; in ALIGN the adaptation's result and the next state; in 8b/10b alignment changes only in TRAIN. -/
def execLaneAlignLock (p : Fin 4) (i : Fin 64) (vert : BitVec 8) (horz : Fin 65) (ctle : BitVec 4) (dfe : BitVec 25) (s : State) : Res :=
  .next (
    let st := s.laneState p i
    if st = 3 then
      let s := (s.setFld (Reg.LANE_FOM_VERT p i) vert.toNat).setFld (Reg.LANE_FOM_HORZ p i) horz.val
      let s := s.setFld (Reg.LANE_FOM_FOM p i) (min vert.toNat (4 * horz.val))
      let s := if s.fld (Reg.LANE_CFG_ADAPT p i) = 0 then s
        else (s.setFld (Reg.LANE_EQ_CTLE p i) ctle.toNat).setFld (Reg.LANE_EQ_DFE p i) dfe.toNat
      (s.setFld (Reg.LANE_STATUS_LOCK p i) 1).setLaneState p i 4
    else if 4 ≤ st ∧ st ≤ 6 ∧ s.flag (Reg.SRX_CTRL_CODE p) then
      (s.setFld (Reg.LANE_STATUS_LOCK p i) 1).setLane p i { s.lane p i with lostAt := none }
    else s)

/-- LANE_LOCK_LOSS (R138): a sand-code lane loses LOCK; in RUN the millisecond starts. -/
def execLaneLockLoss (p : Fin 4) (i : Fin 64) (s : State) : Res :=
  .next (
    if s.flag (Reg.SRX_CTRL_CODE p) && s.flag (Reg.LANE_STATUS_LOCK p i) then
      (s.setFld (Reg.LANE_STATUS_LOCK p i) 0).setLane p i { s.lane p i with lostAt := some s.now }
    else s)

/-- LANE_IDENT (R139, R140): polarity and identity, or the fault ID. -/
def execLaneIdent (p : Fin 4) (i : Fin 64) (normal inverted : Option TrainId) (s : State) : Res :=
  .next (
    if s.laneState p i ≠ 4 then s
    else
      let pol := s.fld (Reg.LANE_CFG_POL p i)
      let got := if pol = 1 then normal.map fun t => (t, false) else if pol = 2 then inverted.map fun t => (t, true)
        else match normal with | some t => some (t, false) | none => inverted.map fun t => (t, true)
      match got with
      | none => s.laneFault p i 6
      | some (t, inv) =>
        let s := s.setFld (Reg.LANE_STATUS_INVERTED p i) (b01 inv)
        if t.tag.toNat ≠ s.fld (Reg.SRX_CTRL_TAG p) then s.laneFault p i 6
        else
          let twins := (List.range 64).filter fun j =>
            decide (j ≠ i.val) && (s.lane p j).ident && decide (s.sensorOf p j = t.sensor.toNat)
          let s := (s.setFld (Reg.LANE_STATUS_SENSOR_LANE p i) t.sensor.toNat).setLane p i { s.lane p i with ident := true }
          if twins = [] then s.setLaneState p i 5
          else State.laneFaults p 6 twins (s.laneFault p i 6))

/-- LANE_DESKEW (R141, R143): once every enabled lane has left IDENT; lanes more than 256 UI late fault with SKEW, the others are delayed to the latest and become READY. -/
def execLaneDeskew (p : Fin 4) (arrivals : List (Fin 64 × Nat)) (s : State) : Res :=
  .next (
    let en := onesBelow 64 (s.laneEn p)
    if s.portState p ≠ 1 ∨ !(en.all fun i => decide (s.laneState p i = 5 ∨ s.laneState p i = 7)) then s
    else
      let got := arrivals.filter fun (i, _) => decide (s.laneState p i = 5)
      let first := got.foldl (fun m (_, t) => min m t) ((got.head?.map fun e => e.2).getD 0)
      let late := got.filter fun (_, t) => decide (first + 256 < t)
      let good := got.filter fun (_, t) => decide (t ≤ first + 256)
      let last := good.foldl (fun m (_, t) => max m t) 0
      let s := State.laneFaults p 7 (late.map fun e => e.1.val) s
      let s := good.foldl (fun s (i, t) => (s.setFld (Reg.LANE_STATUS_DESKEW_UI p i) (last - t)).setLaneState p i 6) s
      if en.all fun i => decide (s.laneState p i = 6 ∨ s.laneState p i = 7) then s.endTraining p else s)

/-- SRX_TRAIN_TIMEOUT (R137, R143). -/
def execSrxTrainTimeout (p : Fin 4) (s : State) : Res :=
  .next (
    if s.portState p = 1 ∧ (s.port p).trainAt + State.msCycles (s.fld (Reg.SRX_TRAIN_MS_MS p)) ≤ s.now then
      (State.timeoutLanes p (List.range 64) s).endTraining p
    else s)

/-- LANE_FAULT_TIMEOUT (R137, R138, R158): no clock lock within 1 ms, or LOCK not regained within 1 ms in RUN. -/
def execLaneFaultTimeout (p : Fin 4) (i : Fin 64) (s : State) : Res :=
  .next (
    let l := s.lane p i
    if s.laneState p i = 2 ∧ l.enteredAt + State.msCycles 1 ≤ s.now then s.laneFault p i 4
    else match l.lostAt with
      | some t => if s.portState p = 3 ∧ t + State.msCycles 1 ≤ s.now then s.laneFault p i 5 else s
      | none => s)

/-- LANE_PIN_FAULT (R158, R159): the pin monitor shows the voltages; a short faults the lane. -/
def execLanePinFault (p : Fin 4) (i : Fin 64) (pmv nmv : BitVec 11) (s : State) : Res :=
  .next (
    let s := (s.setFld (Reg.LANE_PIN_P_MV p i) pmv.toNat).setFld (Reg.LANE_PIN_N_MV p i) nmv.toNat
    if pmv.toNat < 100 ∨ nmv.toNat < 100 then s.laneFault p i 1
    else if 1050 < pmv.toNat ∨ 1050 < nmv.toNat then s.laneFault p i 2 else s)

/-- LANE_SIGNAL_LOSS (R158). -/
def execLaneSignalLoss (p : Fin 4) (i : Fin 64) (s : State) : Res :=
  .next (if 2 ≤ s.laneState p i ∧ s.laneState p i ≤ 6 then s.laneFault p i 3 else s)

/-- PRBS_LOCK (R144). -/
def execPrbsLock (p : Fin 4) (i : Fin 64) (inv : Bool) (s : State) : Res :=
  .next (
    if s.prbsRuns p i && !s.flag (Reg.LANE_STATUS_PRBS_LOCK p i) then
      ((s.setFld (Reg.LANE_STATUS_PRBS_LOCK p i) 1).setFld (Reg.LANE_STATUS_PRBS_INV p i) (b01 inv)).setLane p i
        { s.lane p i with prbsFrom := some s.now }
    else s)

/-- BAD_BLOCK (R131): an invalid header, a code violation, an unknown control block or a nonzero reserved bit counts once. -/
def execBadBlock (p : Fin 4) (i : Fin 64) (hdr : BitVec 2) (block : BitVec 64) (viol : Bool) (s : State) : Res :=
  .next (
    let sand := s.flag (Reg.SRX_CTRL_CODE p)
    let st := s.laneState p i
    let ctl := decide (hdr = 2)
    let bad := viol || (sand && decide (hdr = 0 ∨ hdr = 3)) ||
      (ctl && !((List.range 5).any fun k => isCtl sand k block.toNat))
    if bad ∧ 3 ≤ st ∧ st ≤ 6 then s.codeErr p i else s)

/-- SOF (R147, R148). -/
def execSof (p : Fin 4) (blocks : List LaneBlock) (s : State) : Res :=
  .next (
    if s.portState p ≠ 3 ∨ s.replaying then s
    else
      let s := State.codeErrs p 2 none blocks s
      let use := match (s.port p).frame with
        | some f => f.use
        | none => s.bankFld p s.sys.epoch (Reg.SRX_LANE_USE_LO p) + s.bankFld p s.sys.epoch (Reg.SRX_LANE_USE_HI p) <<< 32
      match s.headBlock p use 2 blocks with
      | none => s
      | some b =>
        let k := bits b.block.toNat 9 8
        let w := bits b.block.toNat 11 10
        if k = 0 then s.openFrame p w else s.startStratum p k w)

/-- SEAM (R149, R150, R155): the previous row's CRC, then the next row's header. -/
def execSeam (p : Fin 4) (blocks : List LaneBlock) (prev : List LaneBytes) (drained : Nat) (s : State) : Res :=
  .next (
    if s.portState p ≠ 3 ∨ s.replaying then s
    else
      let s := State.codeErrs p 3 (s.pos0 p (s.useNow p) blocks) blocks (s.ebSub p drained)
      match s.headBlock p (s.useNow p) 3 blocks with
      | none => (s.settleRow p prev none).count (Reg.SRX_ROW_CNT_HDR p)
      | some b => (s.settleRow p prev (some (bits b.block.toNat 39 8))).acceptRow p (bits b.block.toNat 63 40))

/-- EOF (R150, R154, R155, R156). -/
def execEof (p : Fin 4) (blocks : List LaneBlock) (prev : List LaneBytes) (drained : Nat) (s : State) : Res :=
  .next (
    if s.portState p ≠ 3 ∨ s.replaying then s
    else
      let s := State.codeErrs p 4 none blocks (s.ebSub p drained)
      match s.headBlock p (s.useNow p) 4 blocks with
      | none => s.settleRow p prev none
      | some b => (s.settleRow p prev (some (bits b.block.toNat 39 8))).eofStratum p (bits b.block.toNat 57 56) (bits b.block.toNat 55 40))

/-- SRX_FRAME_EXPIRE (R44, R154): at the port's own tide n + 2 a frame stamped n closes short. -/
def execSrxFrameExpire (p : Fin 4) (s : State) : Res :=
  .next (match (s.port p).frame with
    | some f => if f.man.tide + 2 < s.ownTide p then s.closeFrame p else s
    | none => s)

/-- SYNC_OUTPUT_EDGE (R163, R405). -/
def execSyncOutputEdge (p : Fin 4) (k : Fin 2) (s : State) : Res := .next ((s.syncEdge p k).gpioConflict (s.fld (Reg.SRX_SYNC_PIN p k)))

end Sys2Proof.Machine
end

