-- ==== Sys2Proof/Machine/Enc.lean ====
section
/-! DEFINITION. Video encoders: queues, scheduling, pre-emption, gangs, refresh, rate control and cap mode, and the berths they write (R237 to R260). The bits of a slice are free values within R255. -/

namespace Sys2Proof.Machine

/-! ### Pictures as numbers -/

def pad8 (n : Nat) : Nat := ceilDiv n 8 * 8

/-- SubWidthC and SubHeightC of a PIXFMT (R238). -/
def subW (pf : Nat) : Nat := if pf = 1 then 1 else 2
def subH (pf : Nat) : Nat := if pf = 3 then 2 else 1

/-- An input layout the encoders accept (R238). -/
def encLayoutOk (fmt : Nat) : Bool := decide (1 ≤ Back.pixfmt fmt ∧ Back.pixfmt fmt ≤ 3) && decide (bits fmt 3 2 ≠ 3)

/-- The CTU columns of tile `k` of `g` (R245). -/
def tileCols (g c k : Nat) : List Nat := (List.range ((k + 1) * c / g)).drop (k * c / g)

/-- The most a CTU costs without cap mode (R254). -/
def maxCtu (pf depth : Nat) : Nat :=
  let n := subW pf * subH pf
  ceilDiv (4096 * (n + 2) * depth * 5) (3 * n)

/-- The bytes of a recon berth (R247). -/
def reconBytes (pf w8 h8 : Nat) : Nat :=
  let plane := fun w h => ceilDiv (w * 16) 512 * 64 * h
  plane w8 h8 + 2 * plane (w8 / subW pf) (h8 / subH pf) + plane (ceilDiv w8 4) (ceilDiv h8 4) +
    plane (ceilDiv w8 16) (ceilDiv h8 16) + 8 * ceilDiv w8 16 * ceilDiv h8 16

/-- What the coding of a tile follows (R251 to R254). -/
structure TileCfg where
  cols : List Nat
  rows : Nat
  /-- The refreshed area is the CTU columns below `area`; the refresh columns are `b … refHi - 1`. -/
  area : Nat
  b : Nat
  refHi : Nat
  deadline : Bool
  share : Nat
  nonvcl : Nat
  maxctu : Nat
  qp : Nat
  qpMin : Nat
  aq : Nat
  mean : Option Nat
  forcedAt : Option Nat

/-- A CTU record (R258). -/
structure CtuRec where
  inter : Nat
  intra : Nat
  bits_ : Nat
  qp : Nat
  flags : Nat
  row : Nat

/-- A tile being coded: bits left and used, CTUs and area CTUs not yet coded, cap mode and the bits at which it began and at which an overrun forced it, the records, whether every refresh column CTU was intra, and the sum of log2_88. -/
structure TileRun where
  left : Int
  used : Nat
  m : Nat
  u : Nat
  idx : Nat := 0
  cap : Bool := false
  capAt : Nat := 0
  ovrAt : Option Nat := none
  recs : List CtuRec := []
  intra : Bool := true
  sumLog : Nat := 0

/-- log₂ in U8.8; of 0, the free value (R254). -/
def log88 (n free : Nat) : Nat := if n = 0 then free % 65536 else (Transfer.log2Q n 1 / 2 ^ 48).toNat

/-- Code one CTU (R254): `f` are the free values of this CTU. -/
def codeCtu (t : TileCfg) (f : Nat → Nat) (x : TileRun) (p : Nat × Nat) : TileRun :=
  let c := p.2
  let inArea := decide (c < t.area)
  let reserve : Int := t.maxctu + 48 * (x.m - 1 : Nat) + 144 * x.u + 64
  let forced := match t.forcedAt with | some n => decide (n ≤ x.idx) | none => false
  let cap := x.cap || decide (x.left < reserve) || forced
  let satd := f 0 % 2 ^ 32
  let lg := log88 satd (f 4)
  let minimal := cap && inArea && ((t.deadline && decide (t.b ≤ c)) || decide (f 3 % 2 = 1))
  let cost := if !cap then f 2 % (t.maxctu + 1) else if minimal then f 2 % 193 else f 2 % 49
  let dq := match t.mean with
    | none => (0 : Int)
    | some m => clampI (-12) 12 (((t.aq : Int) * ((lg : Int) - m)).fdiv 4096)
  let inRefresh := decide (t.b ≤ c) && decide (c < t.refHi)
  let coded := !cap || minimal
  { left := x.left - cost
    used := x.used + cost
    m := x.m - 1
    u := if inArea then x.u - 1 else x.u
    idx := x.idx + 1
    cap := cap
    capAt := if cap && !x.cap then x.used else x.capAt
    ovrAt := if forced && x.ovrAt.isNone then some x.used else x.ovrAt
    recs := x.recs ++ [⟨f 1 % 2 ^ 32, satd, cost, if cap then 51 else (clampI t.qpMin 51 (t.qp + dq)).toNat,
      b01 cap + 2 * b01 (inRefresh && coded) + 4 * b01 inArea, p.1⟩]
    intra := x.intra && (!inRefresh || coded)
    sumLog := x.sumLog + lg }

/-- Code a tile (R254); free value `5 j + n` of CTU `j` is `f (5 j + n)`. -/
def codeTile (t : TileCfg) (f : Nat → Nat) : TileRun :=
  let ctus := ((List.range t.rows).map fun r => t.cols.map fun c => (r, c)).flatten
  let area := (t.cols.filter fun c => decide (c < t.area)).length
  ctus.foldl (fun x p => codeCtu t (fun n => f (5 * x.idx + n)) x p)
    { left := (t.share : Int) - t.nonvcl, used := t.nonvcl, m := ctus.length, u := area * t.rows }

namespace State

def encStream (s : State) (e i : Nat) : EncStream := s.encStreams.get (fun _ => {}) (4 * e + i)
def setEncStream (s : State) (e i : Nat) (x : EncStream) : State :=
  { s with encStreams := s.encStreams.set (fun _ => {}) (4 * e + i) x }

def encState (s : State) (e : Nat) : Nat := s.fld (Reg.ENC_STATUS_STATE e)

/-- The encoder's class-T fields in the bank of an epoch (R237). -/
def encFld (s : State) (e ep : Nat) (f : Fld) : Nat := s.bankFld (8 + e) ep f

def encA (e : Nat) : Nat := 0x160010 + 0x4000 * e
def encRaise (s : State) (e m : Nat) : State := s.raise (encA e) (encA e + 4) (8 + e) m

/-! ### Free bytes -/

/-- `n` bytes that the spec leaves open (log entry 1). -/
def freeBytes (s : State) (n : Nat) : State × List Byte :=
  ({ s with fresh := s.fresh + n }, (List.range n).map fun i => BitVec.ofNat 8 (Config.freeNat (s.fresh + i)))

/-! ### Queues (R242) -/

/-- ENC_SLOT_IN_PUSH, BS_PUSH and ES_PUSH: queue `j` of slot `i` holds 8 entries. -/
def encPush (s : State) (e i j h : Nat) : State :=
  let (s, ok) := s.pushQ (encQ e i j) 8 ⟨h, 0, false⟩
  if ok then s else s.count (Reg.ENC_SLOT_QUEUE_LOST e i)

/-! ### Gangs (R245) -/

/-- GANG of a slot; 3 acts as 0. -/
def encGang (s : State) (e i : Nat) : Nat := let g := s.fld (Reg.ENC_SLOT_CFG_GANG e i); if g = 3 then 0 else g

/-- The engines of the gang that GANG value `g` on engine `e` names. -/
def gangMembers (e g : Nat) : List Nat := if g = 1 then [e, e + 1] else if g = 2 then [0, 1, 2, 3] else [e]

/-- GANG is set on an engine that cannot lead it. -/
def gangMisled (e g : Nat) : Bool := (decide (g = 1) && decide (e % 2 = 1)) || (decide (g = 2) && decide (e ≠ 0))

/-- Slots of engine `e` that another engine's gang occupies, as a mask, from the settings as they stand. -/
def encOccupied (s : State) (e : Nat) : Nat :=
  (List.range 4).foldl (fun m i =>
    if (List.range 4).any fun l => decide (s.encGang l i ≠ 0) && decide (s.fld (Reg.ENC_SLOT_CFG_EN l i) = 1) &&
        !gangMisled l (s.encGang l i) && decide (e ∈ gangMembers l (s.encGang l i)) then m + 2 ^ i else m) 0

/-- Slot `i` of engine `e` is occupied by another engine's stream. -/
def encTaken (s : State) (e i : Nat) : Bool :=
  (List.range 4).any fun l => decide (l ≠ e) && decide (s.encGang l i ≠ 0) && decide (s.fld (Reg.ENC_SLOT_CFG_EN l i) = 1) &&
    !gangMisled l (s.encGang l i) && decide (e ∈ gangMembers l (s.encGang l i))

/-! ### Late entries and entries not coded (R243, R250, R259) -/

/-- A frame that is not coded: its input is released, counted and reported. -/
def encNotCoded (s : State) (e i : Nat) (q : QEnt) (flags ev : Nat) : State :=
  let man := (s.berth q.h).man
  let s := if q.held then s.release (8 + e) q.h else s
  let s := s.count (Reg.ENC_SLOT_CNT_SKIPPED e i)
  (s.berthRel (8 + e) q.h man.frame (man.flags ||| flags)).encRaise e ev

/-- Drop the entries of a slot that are older than own tide `k` allows (R243). -/
def dropLate (e i k : Nat) : List QEnt → List QEnt → State → State
  | [], keep, s => s.setQueue (encQ e i 0) keep
  | q :: qs, keep, s =>
    if (s.berth q.h).man.tide + 2 < k then dropLate e i k qs keep (s.encNotCoded e i q flagOvr 16)
    else dropLate e i k qs (keep ++ [q]) s

def dropLates (e k : Nat) : List Nat → State → State
  | [], s => s
  | i :: is, s => dropLates e k is (dropLate e i k (s.queue (encQ e i 0)) [] s)

/-- Take the oldest entry of tide `k - 2` of a slot. -/
def encDue (s : State) (k : Nat) : List QEnt → Option (QEnt × List QEnt)
  | [] => none
  | q :: qs => if (s.berth q.h).man.tide + 2 = k then some (q, qs) else (s.encDue k qs).map fun (d, l) => (d, q :: l)

/-! ### What an idle engine could start (R243, R245) -/

def encPic (s : State) (l i : Nat) : Option EncPic := s.encPics.find? fun p => decide (p.leader = l) && decide (p.slot = i)
def setEncPic (s : State) (x : EncPic) : State :=
  { s with encPics := s.encPics.map fun (p : EncPic) => if p.leader = x.leader ∧ p.slot = x.slot then x else p }
def dropEncPic (s : State) (x : EncPic) : State :=
  { s with encPics := s.encPics.filter fun p => !(decide (p.leader = x.leader) && decide (p.slot = x.slot)) }

def picPrio (s : State) (p : EncPic) : Nat := s.encFld p.leader p.epoch (Reg.ENC_SLOT_CFG_PRIO p.leader p.slot)

/-- Set the state of engine `e`'s tile of a picture. -/
def setTile (p : EncPic) (e : Nat) (f : EncTile → EncTile) : EncPic :=
  { p with tiles := p.tiles.map fun (t : EncTile) => if t.engine = e then f t else t }

def tileOf (p : EncPic) (e : Nat) : Option EncTile := p.tiles.find? fun t => decide (t.engine = e)

/-- The picture that engine `e` codes now. -/
def encActive (s : State) (e : Nat) : Option EncPic :=
  s.encPics.find? fun p => p.tiles.any fun t => decide (t.engine = e) && decide (t.st = .coding)

/-- The picture of highest priority that engine `e` has suspended. -/
def encSuspended (s : State) (e : Nat) : List EncPic :=
  s.encPics.filter fun p => p.tiles.any fun t => decide (t.engine = e) && decide (t.st = .suspended)

/-- Something an engine could start: priority, tide, slot, and the leader of a gang picture whose tile waits here, or none for its own entry. -/
structure EncCand where
  prio : Nat
  tide : Nat
  slot : Nat
  gang : Option Nat

/-- `a` goes before `b` (R243). -/
def EncCand.before (a b : EncCand) : Bool :=
  decide (b.prio < a.prio) || (decide (a.prio = b.prio) && (decide (a.tide < b.tide) || (decide (a.tide = b.tide) && decide (a.slot < b.slot))))

/-- The candidates of engine `e` in its own tide `k`. -/
def encCands (s : State) (e k : Nat) : List EncCand :=
  ((List.range 4).filterMap fun i =>
    if (s.encPic e i).isSome || s.encTaken e i then none
    else match s.encDue k (s.queue (encQ e i 0)) with
      | some (q, _) =>
        let ep := (s.berth q.h).man.setEpoch
        if s.encFld e ep (Reg.ENC_SLOT_CFG_EN e i) = 1 then
          some ⟨s.encFld e ep (Reg.ENC_SLOT_CFG_PRIO e i), (s.berth q.h).man.tide, i, none⟩
        else none
      | none => none) ++
  (s.encPics.filterMap fun p =>
    if decide (p.leader ≠ e) && decide (p.man.tide + 2 ≤ k) && p.tiles.any fun t => decide (t.engine = e) && decide (t.st = .waiting) then
      some ⟨s.picPrio p, p.man.tide, p.slot, some p.leader⟩
    else none)

/-- The candidate that goes first, of priority `lo` or higher. -/
def encBest (s : State) (e k lo : Nat) : Option EncCand :=
  (s.encCands e k).foldl (fun (b : Option EncCand) c =>
    if c.prio < lo then b else match b with
      | none => some c
      | some d => if c.before d then some c else b) none

/-! ### Starting a picture (R243, R247, R250 to R252) -/

/-- The refusal cause of a picture before its bitstream berth is known (R250): 0 for none. The size of an input that no pipeline wrote is not known, so that choice is free (log entry 14). -/
def encCause (s : State) (e i ep : Nat) (b : Berth) : Nat :=
  let fmt := s.fld (Reg.ENC_SLOT_CFG_FMT e i)
  let g := s.encGang e i
  if bits b.format 15 12 ≠ s.fld (Reg.ENC_SLOT_CFG_KIND e i) ∨ bits b.format 11 0 ≠ fmt ∨ !encLayoutOk fmt then 1
  else if (match b.size with
      | some (w, h) => decide (w ≠ s.fld (Reg.ENC_SLOT_SIZE_W_M1 e i) + 1 ∨ h ≠ s.fld (Reg.ENC_SLOT_SIZE_H_M1 e i) + 1)
      | none => decide (s.freeVal % 2 = 1)) then 2
  else if gangMisled e g || ((gangMembers e g).any fun m => decide (m ≠ e) && decide (s.encFld m ep (Reg.ENC_SLOT_CFG_EN m i) = 1)) then 3
  else 0

/-- Coded width and height, CTU columns and rows of a slot's pictures. -/
def encW8 (s : State) (e i : Nat) : Nat := pad8 (s.fld (Reg.ENC_SLOT_SIZE_W_M1 e i) + 1)
def encH8 (s : State) (e i : Nat) : Nat := pad8 (s.fld (Reg.ENC_SLOT_SIZE_H_M1 e i) + 1)
def encCols (s : State) (e i : Nat) : Nat := ceilDiv (s.encW8 e i) 64
def encRows (s : State) (e i : Nat) : Nat := ceilDiv (s.encH8 e i) 64

/-- Member `k`'s share of a cap (R246). -/
def encShare (cap g c k : Nat) : Nat := if c = 0 then 0 else cap * (tileCols g c k).length / c

/-- Offset of segment `k` (R248). -/
def segOffset (cap g c k : Nat) : Nat := 4096 + ((List.range k).map fun j => ceilDiv (encShare cap g c j) 512 * 64).sum

/-- The limits of Level 6.2 a stream exceeds (R241): size, dimension, rate in bits 0 to 2. -/
def encExceeds (s : State) (e i : Nat) : Nat :=
  let w := s.encW8 e i
  let h := s.encH8 e i
  b01 (decide (35651584 < w * h)) + 2 * b01 (decide (16888 < w ∨ 16888 < h)) +
    4 * b01 (decide (4278190080 * s.period < w * h * 1000000000 * 2 ^ 48))

/-- Acquire for several engines; the references granted. -/
def acquireFor : List (Nat × Nat) → State → State × List (Nat × Nat)
  | [], s => (s, [])
  | (e, h) :: l, s =>
    if h = 0 then acquireFor l s
    else
      let (s, ok) := s.acquire (8 + e) h
      let (s, g) := acquireFor l s
      (s, if ok then (e, h) :: g else g)

/-- Members take the work of a picture in hand (R30, R43). -/
def encWork (t e : Nat) : List Nat → State → State
  | [], s => s
  | m :: ms, s => encWork t e ms (s.beginWork (8 + m) t (t + 2) e)

/-- Show that engine `e` codes slot `i`, or that it codes nothing. -/
def encShow (s : State) (e : Nat) : State :=
  let mask := (s.encSuspended e).foldl (fun m p => m ||| 2 ^ p.slot) 0
  let s := s.setFld (Reg.ENC_STATUS_SUSPENDED e) mask
  match s.encActive e with
  | some p =>
    let forced := match tileOf p e with | some t => t.forced.isSome | none => false
    ((s.setFld (Reg.ENC_STATUS_STATE e) 2).setFld (Reg.ENC_STATUS_ACTIVE e) p.slot).setFld (Reg.ENC_STATUS_CAP e) (b01 forced)
  | none => (s.setFld (Reg.ENC_STATUS_STATE e) (if s.encState e = 0 then 0 else 1)).setFld (Reg.ENC_STATUS_CAP e) 0

/-- Engine `e` starts the picture of entry `q` of its slot `i`; whether a picture started. -/
def encBegin (s : State) (e i : Nat) (q : QEnt) : State × Bool :=
  let b := s.berth q.h
  let man := b.man
  let ep := man.setEpoch
  let s := s.touchBank (8 + e) ep
  let g := s.encGang e i
  let members := gangMembers e g
  let n := members.length
  let c := s.encCols e i
  let rows := s.encRows e i
  let cmin := 4096 + ((List.range n).map fun k => 192 * ((tileCols n c k).length * rows) + 64).sum
  let s := s.setFld (Reg.ENC_SLOT_MINCAP_BITS e i) cmin
  let cause := s.encCause e i ep b
  let s := s.nextFree
  if cause ≠ 0 then ((s.setFld (Reg.ENC_SLOT_PIC_CAUSE e i) cause).encNotCoded e i q 0 32, false)
  else
    match s.queue (encQ e i 1) with
    | [] => (s.encNotCoded e i q flagOvr 8, false)
    | bq :: bqs =>
      let cap0 := s.encFld e ep (Reg.ENC_SLOT_CAP_BITS e i)
      let size := (s.berth bq.h).pages * 4096
      let small := decide (size < segOffset cap0 n c n)
      let cap := if small then 8 * (size - 4096 - 64 * n) else cap0
      if cap < cmin then
        let s := if small then s.setBitsOf (encA e) 64 else s
        ((s.setFld (Reg.ENC_SLOT_PIC_CAUSE e i) 4).encNotCoded e i q 0 (32 + 64 * b01 small), false)
      else
        let s := s.setQueue (encQ e i 1) bqs
        let want := s.encFld e ep (Reg.ENC_SLOT_STAT_EN e i) = 1
        let (s, es, evEs) := if want then
            match s.popQ (encQ e i 2) with
            | (s, some x) => (s, some x.h, 0)
            | (s, none) => (s, none, 8)
          else (s, none, 0)
        let st := s.encStream e i
        let r0 := s.fld (Reg.ENC_SLOT_REF_REF0 e i)
        let r1 := s.fld (Reg.ENC_SLOT_REF_REF1 e i)
        let (rd, wr) := if st.ref = 0 then (r0, r1) else (r1, r0)
        let on := match st.idrFrom with | some x => decide ((ep + 65536 - x) % 65536 < 32768) | none => false
        let idr := on || st.forced
        let w := min 16 (s.encFld e ep (Reg.ENC_SLOT_REFRESH_W e i))
        let slack := s.encFld e ep (Reg.ENC_SLOT_REFRESH_SLACK e i)
        let starts := !idr && decide (w ≠ 0) && st.cycle.isNone
        let cyc := if idr || decide (w = 0) then none
          else match st.cycle with | some x => some x | none => some (man.frame, ceilDiv c w - 1 + slack)
        let b0 := if idr || decide (w = 0) || starts then 0 else st.b
        let deadline := match cyc with
          | some (f0, d) => decide (d ≤ (man.frame + 65536 - f0 % 65536) % 65536)
          | none => false
        let qp := clampN (s.encFld e ep (Reg.ENC_SLOT_QP_QP_MIN e i)) 51 (s.encFld e ep (Reg.ENC_SLOT_QP_QP_BASE e i) + st.raise_)
        let s := s.setEncStream e i { st with
          idrFrom := if on then none else st.idrFrom, forced := false, cycle := cyc, b := b0,
          mean := if on then none else st.mean }
        let refs := (members.map fun m => ([bq.h, rd, wr] ++ es.toList ++ (if m = e ∧ q.held then [] else [q.h])).map fun h => (m, h)).flatten
        let (s, got) := acquireFor refs s
        let got := if q.held then (e, q.h) :: got else got
        let x := s.encExceeds e i
        let s := ((s.setFld (Reg.ENC_SLOT_XLEVEL_SIZE e i) (x % 2)).setFld (Reg.ENC_SLOT_XLEVEL_DIM e i) (x / 2 % 2)).setFld
          (Reg.ENC_SLOT_XLEVEL_RATE e i) (x / 4)
        let ev := evEs + 64 * b01 small + 2 * b01 (st.forced && !on)
        let s := s.setBitsOf (encA e) ev
        let p : EncPic := ⟨e, i, q.h, bq.h, es, rd, wr, got, man, ep, idr, cap, b0, starts, deadline, qp, ev, s.now,
          members.map fun m => { engine := m, st := if m = e then .coding else .waiting }⟩
        (encWork man.tide ep members { s with encPics := s.encPics ++ [p] }, true)

/-- An idle engine starts what goes first, of priority `lo` or higher; frames not coded are passed over (R243). -/
def encStartLoop (e k lo : Nat) : Nat → State → State
  | 0, s => s
  | fuel + 1, s =>
    match s.encBest e k lo with
    | none => s
    | some c =>
      match c.gang with
      | some l => match s.encPic l c.slot with
        | some p => s.setEncPic (setTile p e fun t => { t with st := .coding })
        | none => s
      | none => match s.encDue k (s.queue (encQ e c.slot 0)) with
        | some (q, qs) =>
          let (s, started) := (s.setQueue (encQ e c.slot 0) qs).encBegin e c.slot q
          if started then s else encStartLoop e k lo fuel s
        | none => s

/-- The least priority an idle engine may start: above every picture it has suspended (R244). -/
def encFloor (s : State) (e : Nat) : Nat := (s.encSuspended e).foldl (fun n p => max n (s.picPrio p + 1)) 0

/-- The engine's own tide number now (R42), 0 before the first. -/
def encOwn (s : State) (e : Nat) : Nat := s.ownTide (8 + e) - 1

/-- ENC_PICTURE_START and the engine's own tide (R243). -/
def encStart (s : State) (e : Nat) : State :=
  if s.encState e = 0 then s
  else
    let k := s.encOwn e
    let s := dropLates e k [0, 1, 2, 3] s
    if s.encState e ≠ 1 then s else (encStartLoop e k (s.encFloor e) 64 s).encShow e

/-- ENC_PREEMPT (R244): at the end of a CTU row the engine suspends its picture for a due one of higher priority. -/
def encPreempt (s : State) (e : Nat) : State :=
  match s.encActive e with
  | none => s
  | some p =>
    let lo := s.picPrio p + 1
    let k := s.encOwn e
    match s.encBest e k lo with
    | none => s
    | some _ =>
      let s := s.setEncPic (setTile p e fun t => { t with st := .suspended })
      ((encStartLoop e k lo 64 (s.encRaise e 4)).encShow e)

/-- ENC_RESUME (R244): no picture of higher priority than the suspended one is due. -/
def encResume (s : State) (e : Nat) : State :=
  if s.encState e ≠ 1 then s
  else
    let l := s.encSuspended e
    match l.find? fun p => l.all fun q => decide (s.picPrio q ≤ s.picPrio p) with
    | none => s
    | some p =>
      match s.encBest e (s.encOwn e) (s.picPrio p + 1) with
      | some _ => s
      | none => (s.setEncPic (setTile p e fun t => { t with st := .coding })).encShow e

/-! ### The end of a tile and of a picture (R248, R249, R251, R254, R258, R259) -/

def encGangSize (p : EncPic) : Nat := p.tiles.length

/-- The number of engine `e` in the gang. -/
def memberNo (p : EncPic) (e : Nat) : Nat := (findIdx? (fun t => decide (t.engine = e)) p.tiles).getD 0

/-- The stamp of a picture's parcels (R249). -/
def bsMan (s : State) (p : EncPic) (flags : Nat) : Manifest :=
  { p.man with
    stream := s.encFld p.leader p.epoch (Reg.ENC_SLOT_STREAM_STREAM p.leader p.slot)
    domain := s.encFld p.leader p.epoch (Reg.ENC_SLOT_STREAM_DOMAIN p.leader p.slot)
    kind := 6, stratum := 0, plane := 0, flags := flags, firstRow := 0, rows := 0, handle := p.bs }

/-- The stamp of a picture's ENCSTAT parcels (R258). -/
def esMan (s : State) (p : EncPic) (h flags : Nat) : Manifest :=
  { p.man with
    stream := s.encFld p.leader p.epoch (Reg.ENC_SLOT_STAT_STREAM p.leader p.slot)
    domain := s.encFld p.leader p.epoch (Reg.ENC_SLOT_STAT_DOMAIN p.leader p.slot)
    kind := 8, stratum := 0, plane := 0, flags := flags, firstRow := 0, rows := 0, handle := h }

/-- Emit a segment in parcels of at most 64 KiB (R249); `capBits` and `ovrBits` are where cap mode and an overrun began. -/
def emitSegment (u g k base : Nat) (m : Manifest) (capBits ovrBits : Option Nat) : Nat → Nat → List Byte → State → State × Nat
  | 0, n, _, s => (s, n)
  | fuel + 1, n, bs, s =>
    if bs = [] then (s, n)
    else
      let l := bs.take 65536
      let stop := 8 * (65536 * n + l.length)
      let hit := fun (x : Option Nat) => match x with | some b => decide (b < stop) | none => false
      let m : Manifest := { m with
        plane := k, firstRow := n * g + k
        flags := m.flags ||| (if hit capBits then flagCap else 0) ||| (if hit ovrBits then flagOvr else 0) }
      emitSegment u g k base m capBits ovrBits fuel (n + 1) (bs.drop 65536)
        (s.emit u m (base + 65536 * n) (padTo (ceilDiv l.length 64 * 64) l))

/-- Emit rows of export data as parcels numbered for member `k` (R258): the rows carry their own offsets. -/
def emitEsRows (u g k plane : Nat) (m : Manifest) : Nat → List (Nat × List Byte) → State → State × Nat
  | n, [], s => (s, n)
  | n, (ofs, bs) :: l, s =>
    emitEsRows u g k plane m (n + 1) l (s.emit u { m with plane := plane, firstRow := n * g + k } ofs bs)

/-- The CTU records of a tile row as bytes (R258). -/
def ctuBytes (r : CtuRec) : List Byte :=
  bytesLE 4 r.inter ++ bytesLE 4 r.intra ++ bytesLE 4 r.bits_ ++ bytesLE 1 r.qp ++ bytesLE 1 r.flags ++ zeros 2

/-- The vector field and CTU records of member `k` (R258); the vectors are free values. -/
def emitExport (s : State) (p : EncPic) (u k h flags : Nat) (cols : List Nat) (x : TileRun) : State × Nat :=
  let w := ceilDiv (s.encW8 p.leader p.slot) 16
  let hh := ceilDiv (s.encH8 p.leader p.slot) 16
  let c := s.encCols p.leader p.slot
  let g := encGangSize p
  let m := s.esMan p h flags
  let xs := (List.range w).filter fun x => decide (x / 4 ∈ cols)
  let s0 := s.fresh
  let vecs := (List.range hh).map fun y => (0x40 + 4 * (y * w + xs.headD 0),
    (xs.map fun x => bytesLE 4 (Config.freeNat (s0 + y * w + x))).flatten)
  let s := { s with fresh := s0 + w * hh }
  let (s, n0) := emitEsRows u g k 0 m 0 vecs s
  let f := 64 + ceilDiv (4 * w * hh) 64 * 64
  let recs := (List.range (s.encRows p.leader p.slot)).map fun r =>
    (f + 16 * (r * c + cols.headD 0), ((x.recs.filter fun q => decide (q.row = r)).map ctuBytes).flatten)
  let (s, n1) := emitEsRows u g k 1 m 0 recs s
  (s, max n0 n1)

/-- Engine `e` finishes its tile: the coding of R254, the segment and the export. -/
def encTileDone (s : State) (p : EncPic) (t : EncTile) : State × EncPic :=
  let l := p.leader
  let i := p.slot
  let f := s.encFld l p.epoch
  let c := s.encCols l i
  let rows := s.encRows l i
  let g := encGangSize p
  let k := memberNo p t.engine
  let u := 8 + t.engine
  let cols := tileCols g c k
  let fmt := s.fld (Reg.ENC_SLOT_CFG_FMT l i)
  let pf := Back.pixfmt fmt
  let w := min 16 (f (Reg.ENC_SLOT_REFRESH_W l i))
  let st := s.encStream l i
  let nonvcl := if k = 0 then s.freeVal % 513 * 8 else 0
  let s := s.nextFree
  let run := codeTile
    { cols := cols, rows := rows
      area := if p.idr then c else if w = 0 then 0 else if p.deadline then c else min c (p.b0 + w)
      b := if p.idr then c else p.b0
      refHi := if p.idr ∨ w = 0 then 0 else if p.deadline then c else min c (p.b0 + w)
      deadline := p.deadline, share := encShare p.cap g c k, nonvcl := nonvcl
      maxctu := maxCtu pf (Back.depth fmt), qp := p.qp
      qpMin := f (Reg.ENC_SLOT_QP_QP_MIN l i), aq := f (Reg.ENC_SLOT_QP_AQ l i)
      mean := st.mean, forcedAt := t.forced } fun n => Config.freeNat (s.fresh + n)
  let s := { s with fresh := s.fresh + 5 * (cols.length * rows) }
  let closing := ceilDiv run.used 8 * 8 - run.used + 8 * (s.freeVal % 8)
  let len := (run.used + closing) / 8
  let s := s.nextFree
  let (s, body) := s.freeBytes (len - 4)
  let seg := ([0, 0, 0, 1] ++ body).take len
  let inFlags := (s.berth p.input).man.flags
  let capBits := if run.cap then some run.capAt else none
  let (s, n) := emitSegment u g k (segOffset p.cap g c k) (s.bsMan p inFlags) capBits run.ovrAt len 0 seg s
  let flags := inFlags ||| (if run.cap then flagCap else 0) ||| s.ovrFlag u p.man.tide
  let (s, ne) := match p.es with
    | some h => s.emitExport p u k h flags cols run
    | none => (s, 0)
  let p := setTile p t.engine fun t => { t with
    st := .done, len := len, parcels := n, esParcels := ne, cap := run.cap, intra := run.intra, sumLog := run.sumLog,
    ctus := cols.length * rows }
  (s.setEncPic p, p)

/-- The index page of a bitstream berth (R248). -/
def indexBytes (p : EncPic) (c b level : Nat) : List Byte :=
  let g := encGangSize p
  padTo 64 (bytesLE 4 p.man.frame ++ bytesLE 4 ((p.tiles.map fun (t : EncTile) => t.len).sum) ++ bytesLE 1 g ++
    bytesLE 1 (b01 p.idr + 2 * b01 p.cycleStart + 4 * b01 (p.tiles.any fun t => t.cap) + 8 * b01 (decide (level ≠ 0))) ++
    bytesLE 2 b ++ zeros 4 ++
    ((List.range g).map fun k => bytesLE 4 (segOffset p.cap g c k) ++ bytesLE 4 ((p.tiles.map fun (t : EncTile) => t.len).getD k 0)).flatten)

/-- Release the references of a list of engines. -/
def releaseFor : List (Nat × Nat) → State → State
  | [], s => s
  | (e, h) :: l, s => releaseFor l (s.release (8 + e) h)

/-- Members end the work of a picture. -/
def encEndWork (t : Nat) : List Nat → State → State
  | [], s => s
  | m :: ms, s => encEndWork t ms (s.endWork (8 + m) t)

/-- Show every engine of a picture that is over. -/
def encShowAll : List Nat → State → State
  | [], s => s
  | m :: ms, s => encShowAll ms (s.encShow m)

/-- The picture leaves the engines: references, work, BERTH_RELs (R259). -/
def encLeave (s : State) (p : EncPic) (flags : Nat) : State :=
  let members := p.tiles.map fun (t : EncTile) => t.engine
  let s := releaseFor p.got s
  let s := encEndWork p.man.tide members s
  let s := encShowAll members (s.dropEncPic p)
  let s := (s.berthRel (8 + p.leader) p.input p.man.frame flags).berthRel (8 + p.leader) p.bs p.man.frame flags
  match p.es with
  | some h => s.berthRel (8 + p.leader) h p.man.frame flags
  | none => s

/-- Every member has finished: the index, the recon berth, the stream's state, the registers, the releases (R247 to R259). -/
def encPicEnd (s : State) (p : EncPic) : State :=
  let l := p.leader
  let i := p.slot
  let u := 8 + l
  let g := encGangSize p
  let c := s.encCols l i
  let cap := p.tiles.any fun t => t.cap
  let w := min 16 (s.encFld l p.epoch (Reg.ENC_SLOT_REFRESH_W l i))
  let st := s.encStream l i
  let allIntra := p.tiles.all fun t => t.intra
  let b := if p.idr ∨ w = 0 then 0 else if p.deadline then c else if allIntra then min c (p.b0 + w) else p.b0
  let defer := !p.idr && decide (w ≠ 0) && !allIntra && !p.deadline
  let ovrs := (p.tiles.map fun t => s.ovrFlag (8 + t.engine) p.man.tide).foldl (· ||| ·) 0
  let flags := (s.berth p.input).man.flags ||| (if cap then flagCap else 0) ||| ovrs
  let last := (p.tiles.map fun (t : EncTile) => t.parcels).foldl max 0
  let s := s.emit u { s.bsMan p flags with plane := 4, firstRow := g * last } 0 (indexBytes p c b (s.encExceeds l i))
  let s := match p.es with
    | some h =>
      let lastEs := (p.tiles.map fun (t : EncTile) => t.esParcels).foldl max 0
      let w16 := ceilDiv (s.encW8 l i) 16
      let h16 := ceilDiv (s.encH8 l i) 16
      s.emit u { s.esMan p h flags with plane := 2, firstRow := g * lastEs } 0
        (padTo 64 (bytesLE 4 p.man.frame ++ bytesLE 2 w16 ++ bytesLE 2 h16 ++ bytesLE 2 c ++ bytesLE 2 (s.encRows l i)))
    | none => s
  let (s, recon) := s.freeBytes (reconBytes (Back.pixfmt (s.fld (Reg.ENC_SLOT_CFG_FMT l i))) (s.encW8 l i) (s.encH8 l i))
  let s := s.writeBerth u p.recWrite 0 recon
  let ctus := (p.tiles.map fun (t : EncTile) => t.ctus).sum
  let sum := (p.tiles.map fun (t : EncTile) => t.sumLog).sum
  let mean := sum / ctus + (if sum % ctus = 0 then 0 else s.freeVal % 2)
  let s := s.nextFree
  let raise_ := if cap then min (st.raise_ + s.encFld l p.epoch (Reg.ENC_SLOT_QP_CAP_STEP l i)) 51 else st.raise_ - 1
  let s := s.setEncStream l i { st with
    raise_ := raise_, ref := 1 - st.ref, b := b, cycle := if b = c then none else st.cycle, mean := some mean }
  let s := s.setWord (Reg.ENC_SLOT_PIC_CAP l i).addr 0
  let s := (s.setFld (Reg.ENC_SLOT_PIC_CAP l i) (b01 cap)).setFld (Reg.ENC_SLOT_PIC_DEFER l i) (b01 defer)
  let s := (s.setFld (Reg.ENC_SLOT_PIC_IDR l i) (b01 p.idr)).setFld (Reg.ENC_SLOT_PIC_QP l i) p.qp
  let s := (s.setFld (Reg.ENC_SLOT_PIC_B l i) b).setFld (Reg.ENC_SLOT_BITS_BYTES l i) ((p.tiles.map fun (t : EncTile) => t.len).sum)
  let s := if cap then s.count (Reg.ENC_SLOT_CNT_CAP_PICS l i) else s
  let s := s.setFld (Reg.ENC_CYCLES_ECLK l) ((s.now - p.startAt) / 2)
  let s := if cap then s.setBitsOf (encA l) 1 else s
  let s := s.encLeave p flags
  s.unitEvent u ((p.ev ||| b01 cap) &&& (s.word (encA l + 4)).toNat)

/-- ENC_PICTURE_END: engine `e` finishes the tile it codes; with the last tile the picture ends (R249, R259). -/
def encEnd (s : State) (e : Nat) : State :=
  match s.encActive e with
  | none => s
  | some p => match tileOf p e with
    | none => s
    | some t =>
      let (s, p) := s.encTileDone p t
      if p.tiles.all fun t => decide (t.st = .done) then s.encPicEnd p else s.encShow e

/-! ### Overrun, abandon, RUN and STOP (R256, R260) -/

/-- Cap mode is forced on a tile; how many CTUs were coded before is free. -/
def forceTile (p : EncPic) (e f : Nat) : EncPic :=
  setTile p e fun t => { t with forced := if t.forced.isSome then t.forced else some f }

/-- An engine overruns its picture of tide `t`. -/
def encOverrun (s : State) (e t : Nat) : State :=
  match s.encPics.find? fun p => decide (p.man.tide = t) && p.tiles.any fun x => decide (x.engine = e) && decide (x.st ≠ .done) with
  | none => s
  | some p =>
    let ctus := (tileCols (encGangSize p) (s.encCols p.leader p.slot) (memberNo p e)).length * s.encRows p.leader p.slot
    ((s.nextFree.setEncPic (forceTile p e (s.freeVal % (ctus + 1)))).setBitsOf (encA p.leader) 1).encShow e

/-- A picture is abandoned (R44, R256): no index; the stream's next picture is an IDR. -/
def encAbandonPic (s : State) (p : EncPic) : State :=
  let ovrs := (p.tiles.map fun t => s.ovrFlag (8 + t.engine) p.man.tide).foldl (· ||| ·) 0
  let st := s.encStream p.leader p.slot
  let s := s.setEncStream p.leader p.slot { st with forced := true, cycle := none, b := 0 }
  s.encLeave p ((s.berth p.input).man.flags ||| ovrs)

def encAbandonPics (e : Nat) : List EncPic → State → State
  | [], s => s
  | p :: ps, s => encAbandonPics e ps ((s.encAbandonPic p).countAbandon (8 + e))

/-- The pictures engine `e` has a part in that is not done. -/
def encInvolved (s : State) (e : Nat) : List EncPic :=
  s.encPics.filter fun p => p.tiles.any fun x => decide (x.engine = e) && decide (x.st ≠ .done)

/-- ENC_CTRL.OP (R256, R260): 1 RUN, 2 STOP. -/
def encOp (s : State) (e op : Nat) : State :=
  if op = 1 then if s.encState e = 0 then s.setFld (Reg.ENC_STATUS_STATE e) 1 else s
  else if op = 2 then
    let s := encAbandonPics e (s.encInvolved e) s
    s.setFld (Reg.ENC_STATUS_STATE e) 0
  else s

/-- Slots whose EN a landing moved from 0 to 1 start a stream with an IDR (R260). -/
def encEnabled (old : State) : List (Nat × Nat) → State → State
  | [], s => s
  | (e, i) :: l, s =>
    encEnabled old l
      (if old.fld (Reg.ENC_SLOT_CFG_EN e i) = 0 ∧ s.fld (Reg.ENC_SLOT_CFG_EN e i) = 1 then
        s.setEncStream e i { s.encStream e i with idrFrom := some s.sys.epoch }
      else s)

end State

/-! ### Commands -/

/-- ENC_PICTURE_START (R243). -/
def execEncPictureStart (e : Fin 4) (s : State) : Res := .next (s.encStart e)

/-- ENC_PREEMPT (R244). -/
def execEncPreempt (e : Fin 4) (s : State) : Res := .next (s.encPreempt e)

/-- ENC_RESUME (R244). -/
def execEncResume (e : Fin 4) (s : State) : Res := .next (s.encResume e)

/-- ENC_PICTURE_END (R259). -/
def execEncPictureEnd (e : Fin 4) (s : State) : Res := .next (s.encEnd e)

end Sys2Proof.Machine
end

