-- ==== Sys2Proof/Machine/Pipe.lean ====
section
/-! DEFINITION. Pipelines and their statistics: queues, frame start and skip, the frame's end with its parcels, counts, statistics and releases (R165 to R222). -/

namespace Sys2Proof.Machine

/-! ### Statistics of a frame (R208 to R217) -/

/-- The bin of a value on the logarithmic scale (R212). -/
def logBin (x : Nat) : Nat :=
  if x < 32 then x >>> 1 else
    let e := ilog2 x
    16 + (e - 5) * 16 + (x >>> (e - 4)) % 16

/-- 256 saturating bins of 32 bits as bytes (R212, R215). -/
def histBytes (bins : List Nat) : List Byte :=
  let h := bins.foldl (fun (a : Array Nat) b => a.modify b (· + 1)) (Array.replicate 256 0)
  (h.toList.map fun n => bytesLE 4 (min n 0xFFFFFFFF)).flatten

/-- A zone's sums over its valid pixels: N, C, unclipped sums of R′ G′ B′ IR, the sum and the largest of Y (R211). -/
structure ZoneSum where
  n : Nat := 0
  c : Nat := 0
  r : Nat := 0
  g : Nat := 0
  b : Nat := 0
  ir : Nat := 0
  y : Nat := 0
  top : Nat := 0

/-- A mean in U20.12 (R211). -/
def mean12 (sum n : Nat) : Nat := if n = 0 then 0 else (sum * 4096 + n / 2) / n

/-- A zone record (R211). -/
def zoneBytes (z : ZoneSum) : List Byte :=
  let u := z.n - z.c
  ([z.n, z.c, mean12 z.r u, mean12 z.g u, mean12 z.b u, mean12 z.ir u, mean12 z.y z.n, z.top].map (bytesLE 4)).flatten

/-- Add a pixel to a zone (R210, R211). -/
def addPixel (z : ZoneSum) (lw : Nat → Nat) (level r g b ir : Nat) : ZoneSum :=
  let y := min 0xFFFFF ((lw 0 * r + lw 1 * g + lw 2 * b + 2048) >>> 12)
  let z := { z with n := z.n + 1, y := z.y + y, top := max z.top y }
  if level ≤ max r (max g b) then { z with c := z.c + 1 }
  else { z with r := z.r + r, g := z.g + g, b := z.b + b, ir := z.ir + ir }

/-- The statistics settings of a frame, from its bank (R222). -/
structure StatCfg where
  winX : Nat
  winY : Nat
  winW : Nat
  winH : Nat
  zx : Nat
  zy : Nat
  lw : Nat → Nat
  level : Nat
  sat : Nat → Nat

namespace StatCfg

/-- The window's columns and rows inside the frame (R209). -/
def cols (c : StatCfg) (n : Nat) : List Nat := (List.range (min n (c.winX + c.winW))).drop c.winX
def rows (c : StatCfg) (n : Nat) : List Nat := (List.range (min n (c.winY + c.winH))).drop c.winY

/-- The columns of zone column `z`, of a window clipped to the frame (R209). -/
def zoneCols (c : StatCfg) (n z : Nat) : List Nat :=
  let w := min n (c.winX + c.winW) - c.winX
  (List.range ((z + 1) * w / c.zx - z * w / c.zx)).map (· + c.winX + z * w / c.zx)
def zoneRows (c : StatCfg) (n z : Nat) : List Nat :=
  let h := min n (c.winY + c.winH) - c.winY
  (List.range ((z + 1) * h / c.zy - z * h / c.zy)).map (· + c.winY + z * h / c.zy)

/-- The zones of a frame, zone index ascending (R209 to R211). -/
def zones (c : StatCfg) (ncols nrows : Nat) (f : FrontOut) : List ZoneSum :=
  let p := fun k r x => ((f.rgbi.getD k #[]).at_ r x).toNat
  ((List.range c.zy).map fun zy => (List.range c.zx).map fun zx =>
    ((c.zoneRows nrows zy).filter fun r => !f.invalid.getD r false).foldl (fun z r =>
      (c.zoneCols ncols zx).foldl (fun z x => addPixel z c.lw c.level (p 0 r x) (p 1 r x) (p 2 r x) (p 3 r x)) z)
      ({} : ZoneSum)).flatten

/-- The values of stratum `s` inside the window: valid rows, class M left out (R208). -/
def stratumValues (c : StatCfg) (ncols nrows s : Nat) (f : FrontOut) (valid : Nat → Nat → Bool) : List Int :=
  (((c.rows nrows).filter fun r => valid s r).map fun r =>
    ((c.cols ncols).filter fun x => decide (f.cls.at_ r x ≠ 5)).map fun x => (f.strata.getD s #[]).at_ r x).flatten

/-- The merged values of channel `k` inside the window (R208). -/
def mergedValues (c : StatCfg) (ncols nrows k : Nat) (f : FrontOut) : List Nat :=
  (((c.rows nrows).filter fun r => !f.invalid.getD r false).map fun r =>
    ((c.cols ncols).filter fun x => decide (f.cls.at_ r x ≠ 5) && decide (f.chan.at_ r x = k)).map
      fun x => (f.v.at_ r x).toNat).flatten

end StatCfg

namespace State

def pipe (s : State) (i : Nat) : Pipe := s.pipes.get (fun _ => {}) i
def setPipe (s : State) (i : Nat) (x : Pipe) : State := { s with pipes := s.pipes.set (fun _ => {}) i x }

/-! ### Queues (R187, R214) -/

def pipeOutQ (i o : Nat) : Nat := 0x108160 + 0x10000 * i + 0x80 * o
def pipeRawQ (i : Nat) : Nat := 0x108044 + 0x10000 * i
def statQ (i : Nat) : Nat := 0x140030 + 0x1000 * i

/-- Front-end, back-end and statistics events (R184, R207, R222). -/
def pipeRaise (s : State) (i m : Nat) : State := s.raise (0x1001A0 + 0x10000 * i) (0x1001A4 + 0x10000 * i) (4 + i) m
def pipeBeRaise (s : State) (i m : Nat) : State := s.raise (0x108050 + 0x10000 * i) (0x108054 + 0x10000 * i) (4 + i) m 8
def statRaise (s : State) (i m : Nat) : State := s.raise (0x140050 + 0x1000 * i) (0x140054 + 0x1000 * i) (4 + i) m 12

/-- PIPE_OUT_PUSH_o (R187). -/
def pipeOutPush (s : State) (i o h : Nat) : State :=
  let (s, ok) := s.pushQ (pipeOutQ i o) 8 ⟨h, 0, false⟩
  if ok then s else (s.count (Reg.PIPE_OUT_STATUS_PUSH_LOST i o)).pipeBeRaise i 2

/-- PIPE_RAWOUT_PUSH (R187). -/
def pipeRawPush (s : State) (i h : Nat) : State :=
  let (s, ok) := s.pushQ (pipeRawQ i) 4 ⟨h, 0, false⟩
  if ok then s else (s.count (Reg.PIPE_RAWOUT_STATUS_PUSH_LOST i)).pipeBeRaise i 2

/-- STAT_PUSH (R214). -/
def statPush (s : State) (i h : Nat) : State :=
  let (s, ok) := s.pushQ (statQ i) 8 ⟨h, 0, false⟩
  if ok then s else (s.count (Reg.STAT_STATUS_PUSH_LOST i)).statRaise i 1

/-- The oldest input entry that is due at own tide `k`, and the queue without it (R166). -/
def dueEntry (s : State) (k : Nat) : List QEnt → Option (QEnt × List QEnt)
  | [] => none
  | e :: es => if (s.berth e.h).man.tide + 1 ≤ k then some (e, es) else (dueEntry s k es).map fun (d, l) => (d, e :: l)

def popDue (s : State) (i k : Nat) : State × Option QEnt :=
  match s.dueEntry k (s.queue (pipeInQ i)) with
  | none => (s, none)
  | some (e, l) => (s.setQueue (pipeInQ i) l, some e)

/-! ### Settings of a frame -/

/-- A pipeline field, and a statistics field, in the bank of epoch `e` (R169, R189, R222). -/
def pipeFld (s : State) (i e : Nat) (f : Fld) : Nat := s.bankFld (4 + i) e f
def statFld (s : State) (i e : Nat) (f : Fld) : Nat := s.bankFld (12 + i) e f

/-- A table of values as a function. -/
def tableFn (n : Nat) (f : Nat → Nat) : Nat → Nat :=
  let a := ((List.range n).map f).toArray
  fun k => a.getD k 0

/-- Coefficient `c` of a matrix whose words hold two each (R183, R190). -/
def coef (s : State) (i e : Nat) (lo hi : Nat → Fld) (c : Nat) : Nat :=
  s.pipeFld i e (if c % 2 = 0 then lo (c / 2) else hi (c / 2))

def frontCfg (s : State) (i e fmt : Nat) : FrontCfg :=
  let f := s.pipeFld i e
  let m := tableFn 12 (s.coef i e (Reg.PIPE_IRMAT_M_LO i) (Reg.PIPE_IRMAT_M_HI i))
  { samples := f (Reg.PIPE_GEOM_COLS_M1 i) + 1
    rows := f (Reg.PIPE_GEOM_ROWS_M1 i) + 1
    strata := bits fmt 4 3 + 1
    width := widthBits (bits fmt 1 0)
    black := tableFn 4 fun k => f (Reg.PIPE_BLACK_BLACK i k)
    g := tableFn 4 fun k => f (Reg.PIPE_STRATUM_G i k)
    wb := tableFn 4 fun k => f (Reg.PIPE_STRATUM_WB i k)
    knee := tableFn 4 fun k => f (Reg.PIPE_STRATUM_KNEE i k)
    sat := tableFn 4 fun k => f (Reg.PIPE_STRATUM_SAT i k)
    a := tableFn 4 fun k => f (Reg.PIPE_STRATUM_A i k)
    b := tableFn 4 fun k => f (Reg.PIPE_STRATUM_B i k)
    k := f (Reg.PIPE_MERGE_K i)
    dilate := decide (f (Reg.PIPE_MERGE_DILATE i) = 1)
    pick := decide (f (Reg.PIPE_MERGE_PICK i) = 1)
    dyn := decide (f (Reg.PIPE_DEFECT_CFG_DYN i) = 1)
    rel := f (Reg.PIPE_DEFECT_CFG_REL i)
    absv := f (Reg.PIPE_DEFECT_CFG_ABS i)
    count := f (Reg.PIPE_DEFECT_COUNT_COUNT i)
    codes := tableFn 8 fun k => f (Reg.PIPE_SIEVE_ROW_CODES i k)
    pw := f (Reg.PIPE_SIEVE_CFG_PW_M1 i) + 1
    ph := f (Reg.PIPE_SIEVE_CFG_PH_M1 i) + 1
    phaseX := f (Reg.PIPE_SIEVE_CFG_PHASE_X i)
    phaseY := f (Reg.PIPE_SIEVE_CFG_PHASE_Y i)
    edge := f (Reg.PIPE_SIEVE_CFG_EDGE i)
    lg := tableFn 5 fun k => f (([Reg.PIPE_SIEVE_LG_0_LG_R i, Reg.PIPE_SIEVE_LG_0_LG_G i, Reg.PIPE_SIEVE_LG_1_LG_B i,
      Reg.PIPE_SIEVE_LG_1_LG_C i, Reg.PIPE_SIEVE_LG_2_LG_I i] : List Fld).getD k (Reg.PIPE_SIEVE_LG_2_LG_I i))
    irmat := fun c => signed 16 (m c) }

def backCfg (s : State) (i e : Nat) : BackCfg :=
  let f := s.pipeFld i e
  let m := tableFn 9 (s.coef i e (Reg.PIPE_CCM_M_LO i) (Reg.PIPE_CCM_M_HI i))
  let wb := tableFn 3 fun k => f (([Reg.PIPE_WB_0_WB_R i, Reg.PIPE_WB_0_WB_G i] : List Fld).getD k (Reg.PIPE_WB_1_WB_B i))
  { wb := fun k => wb k, ccm := fun c => signed 16 (m c) }

def branchCfg (s : State) (i e o : Nat) : BranchCfg :=
  let f := s.pipeFld i e
  let m := tableFn 9 (s.coef i e (Reg.PIPE_OUT_MAT_M_LO i o) (Reg.PIPE_OUT_MAT_M_HI i o))
  let ofs := tableFn 3 fun j => f (Reg.PIPE_OUT_OFS_OFS i o j)
  { o := o
    full := decide (f (Reg.PIPE_OUT_CFG_FULL i o) = 1)
    ycc := f (Reg.PIPE_OUT_CFG_YCC i o)
    tf := f (Reg.PIPE_OUT_CFG_TF i o)
    tone := decide (f (Reg.PIPE_OUT_CFG_TONE i o) = 1)
    parcelRows := f (Reg.PIPE_OUT_CFG_PARCEL_ROWS i o)
    fmt := f (Reg.PIPE_OUT_CFG_FMT i o)
    cropX := f (Reg.PIPE_OUT_CROP_XY_CROP_X i o)
    cropY := f (Reg.PIPE_OUT_CROP_XY_CROP_Y i o)
    cropW := f (Reg.PIPE_OUT_CROP_WH_CROP_W_M1 i o) + 1
    cropH := f (Reg.PIPE_OUT_CROP_WH_CROP_H_M1 i o) + 1
    outW := f (Reg.PIPE_OUT_SIZE_OUT_W_M1 i o) + 1
    outH := f (Reg.PIPE_OUT_SIZE_OUT_H_M1 i o) + 1
    stepX := f (Reg.PIPE_OUT_STEP_X i o)
    stepY := f (Reg.PIPE_OUT_STEP_Y i o)
    phaseX := signed 32 (f (Reg.PIPE_OUT_PHASE_X i o))
    phaseY := signed 32 (f (Reg.PIPE_OUT_PHASE_Y i o))
    kx := f (Reg.PIPE_OUT_DECIM_KX i o)
    ky := f (Reg.PIPE_OUT_DECIM_KY i o)
    mat := fun c => signed 16 (m c)
    ofs := fun j => signed 22 (ofs j)
    aces := f (Reg.PIPE_OUT_ACES_GAIN i o) }

def statCfg (s : State) (i e : Nat) : StatCfg :=
  let f := s.statFld i e
  { winX := f (Reg.STAT_WIN_XY_WIN_X i)
    winY := f (Reg.STAT_WIN_XY_WIN_Y i)
    winW := f (Reg.STAT_WIN_WH_WIN_W_M1 i) + 1
    winH := f (Reg.STAT_WIN_WH_WIN_H_M1 i) + 1
    zx := f (Reg.STAT_ZONES_ZX_M1 i) + 1
    zy := f (Reg.STAT_ZONES_ZY_M1 i) + 1
    lw := tableFn 3 fun k => f (([Reg.STAT_LUMA_0_LW_R i, Reg.STAT_LUMA_0_LW_G i] : List Fld).getD k (Reg.STAT_LUMA_1_LW_B i))
    level := f (Reg.STAT_CLIP_LEVEL i)
    sat := tableFn 4 fun k => s.pipeFld i e (Reg.PIPE_STRATUM_SAT i k) }

/-- The front end's three table berths, and a branch's (R169, R188). -/
def frontTables (s : State) (i e : Nat) : List Nat :=
  [s.pipeFld i e (Reg.PIPE_TABLES_LUT i), s.pipeFld i e (Reg.PIPE_TABLES_COL i), s.pipeFld i e (Reg.PIPE_DEFECT_LIST i)]
def branchTables (s : State) (i e o : Nat) : List Nat :=
  [s.pipeFld i e (Reg.PIPE_OUT_TABLES_SCALER i o), s.pipeFld i e (Reg.PIPE_OUT_TABLES_TONE i o)] ++
    (if o = 2 then [] else [s.pipeFld i e (Reg.PIPE_OUT_LUT3D i o)])

/-! ### Skipping and starting frames (R166, R187, R188, R205, R214, R218) -/

/-- The fields of every STATS parcel (R216). -/
def statMan (s : State) (i e : Nat) (man : Manifest) (flags h : Nat) : Manifest :=
  { man with
    stream := s.statFld i e (Reg.STAT_CFG_STREAM i), domain := s.statFld i e (Reg.STAT_CFG_DOMAIN i)
    kind := 5, stratum := 0, plane := 0, firstRow := 0, rows := 0, handle := h, flags := flags }

/-- The statistics header (R215). -/
def statHeader (man : Manifest) (zx zy m valid clipped : Nat) (sat : List Nat) (excluded : Nat) : List Byte :=
  padTo 64 (bytesLE 4 man.frame ++ bytesLE 2 man.expSet ++ bytesLE 1 zx ++ bytesLE 1 zy ++ bytesLE 4 m ++
    bytesLE 4 valid ++ bytesLE 4 clipped ++ ((List.range 4).map fun k => bytesLE 4 (sat.getD k 0)).flatten ++
    bytesLE 4 excluded)

/-- The STATS marker of a skipped frame (R218). -/
def statSkip (s : State) (i : Nat) (man : Manifest) : State :=
  let e := man.setEpoch
  if s.statFld i e (Reg.STAT_CFG_EN i) = 0 then s
  else match s.popQ (statQ i) with
    | (s, none) => (s.count (Reg.STAT_STATUS_NO_BERTH i)).statRaise i 2
    | (s, some q) =>
      let s := (s.acquire (4 + i) q.h).1
      let c := s.statCfg i e
      let s := s.emit (4 + i) { s.statMan i e man (man.flags ||| flagOvr) q.h with plane := 9 } 0
        (statHeader man c.zx c.zy 0 0 0 [] 0)
      if s.holds (4 + i) q.h then s.releasePost (4 + i) (4 + i) q.h else s

/-- Skip the next due frame (R43, R166). -/
def pipeSkip (s : State) (i k : Nat) : State :=
  match s.popDue i k with
  | (_, none) => s
  | (s, some q) =>
    let man := (s.berth q.h).man
    let s := s.setPipe i { s.pipe i with skip := false }
    let s := (s.count (Reg.PIPE_IN_STATUS_SKIPPED i)).statSkip i man
    (s.berthRel (4 + i) q.h man.frame (man.flags ||| flagOvr)).pipeRaise i 4

/-- Start the outputs of a frame: the branches written with their berths, the berths acquired, the events set (R188, R205). -/
def startOutputs (i e cols rows : Nat) : List Nat → State → List (Nat × Nat) × List Nat × Nat → State × List (Nat × Nat) × List Nat × Nat
  | [], s, acc => (s, acc)
  | o :: os, s, (outs, got, ev) =>
    if s.pipeFld i e (Reg.PIPE_OUT_CFG_EN i o) = 0 then startOutputs i e cols rows os s (outs, got, ev)
    else if !Back.cfgOk (s.branchCfg i e o) cols rows then
      startOutputs i e cols rows os (s.setBitsOf (0x108050 + 0x10000 * i) 8) (outs, got, ev ||| 8)
    else match s.popQ (pipeOutQ i o) with
      | (s, none) =>
        startOutputs i e cols rows os ((s.count (Reg.PIPE_OUT_STATUS_NO_BERTH i o)).setBitsOf (0x108050 + 0x10000 * i) 1)
          (outs, got, ev ||| 1)
      | (s, some q) =>
        let (s, l) := acquireAll (4 + i) (q.h :: s.branchTables i e o) s
        startOutputs i e cols rows os s (outs ++ [(o, q.h)], got ++ l, ev)

/-- Start the raw path of a frame (R204): branch number 3. -/
def startRawPath (s : State) (i e : Nat) (acc : List (Nat × Nat) × List Nat × Nat) : State × List (Nat × Nat) × List Nat × Nat :=
  let (outs, got, ev) := acc
  if s.pipeFld i e (Reg.PIPE_RAWOUT_CFG_EN i) = 0 then (s, acc)
  else match s.popQ (pipeRawQ i) with
    | (s, none) =>
      ((s.count (Reg.PIPE_RAWOUT_STATUS_NO_BERTH i)).setBitsOf (0x108050 + 0x10000 * i) 1, outs, got, ev ||| 1)
    | (s, some q) =>
      let (s, l) := acquireAll (4 + i) [q.h] s
      (s, outs ++ [(3, q.h)], got ++ l, ev)

/-- Start the statistics of a frame (R214): the stats berth and the berths acquired. -/
def startStat (s : State) (i e : Nat) : State × Option Nat × List Nat :=
  if s.statFld i e (Reg.STAT_CFG_EN i) = 0 then (s, none, [])
  else
    let (s, l) := acquireAll (4 + i) [s.statFld i e (Reg.STAT_WEIGHTS_HANDLE i)] s
    match s.popQ (statQ i) with
    | (s, none) => ((s.count (Reg.STAT_STATUS_NO_BERTH i)).statRaise i 2, none, l)
    | (s, some q) =>
      let (s, l') := acquireAll (4 + i) [q.h] s
      (s, some q.h, l ++ l')

/-- Start the oldest due frame at own tide `k` (R166). -/
def pipeStart (s : State) (i k : Nat) : State :=
  match s.popDue i k with
  | (_, none) => s
  | (s, some q) =>
    let man := (s.berth q.h).man
    let e := man.setEpoch
    let s := (s.touchBank (4 + i) e).touchBank (12 + i) e
    let (s, got) := acquireAll (4 + i) ([q.h, q.h2] ++ s.frontTables i e) s
    let cols := s.pipeFld i e (Reg.PIPE_GEOM_COLS_M1 i) + 1
    let rows := s.pipeFld i e (Reg.PIPE_GEOM_ROWS_M1 i) + 1
    let (s, acc) := startOutputs i e cols rows [0, 1, 2] s ([], got, 0)
    let (s, outs, got, ev) := s.startRawPath i e acc
    let (s, stat, l) := s.startStat i e
    let s := s.setPipe i { s.pipe i with frame := some ⟨q.h, q.h2, got ++ l, man, e, outs, stat, s.now, ev⟩ }
    (s.setFld (Reg.PIPE_STATUS_STATE i) 2).beginWork (4 + i) man.tide k e

/-- The pipeline's own tide `k` (R43, R166). -/
def pipeTide (s : State) (i k : Nat) : State :=
  if s.fld (Reg.PIPE_STATUS_STATE i) ≠ 1 then s
  else
    let s := if (s.pipe i).skip then s.pipeSkip i k else s
    if (s.pipe i).skip then s else s.pipeStart i k

/-! ### Reading a frame (R167, R169) -/

/-- A whole berth range as unit `4 + i` reads it: a refused part is recorded once and reads zeros (R39). -/
def readPart (s : State) (u h n : Nat) : State × Array Byte :=
  if !s.holds u h then (s.berthFault u h 1, #[])
  else
    let m := min n ((s.berth h).pages * 4096)
    (if m < n then s.berthFault u h 2 else s, (s.peek h 0 m).toArray)

/-- A table, none for handle 0. -/
def readTable (s : State) (u h n : Nat) : State × Option (Array Byte) :=
  if h = 0 then (s, none) else let (s, a) := s.readPart u h n; (s, some a)

/-- The stored codes of stratum `k` (R151, R167). -/
def storedCodes (a : Array Byte) (packed : Bool) (cols rows w k : Nat) : Img :=
  let stride := rowStride packed cols w
  Img.make rows cols fun r c =>
    let base := (k * rows + r) * stride
    if packed then
      let b := c * w
      let v := ofBytesLE ((List.range 3).map fun j => a.getD (base + b / 8 + j) 0)
      (bits v (b % 8 + w - 1) (b % 8) : Nat)
    else (ofBytesLE [a.getD (base + 2 * c) 0, a.getD (base + 2 * c + 1) 0] : Nat)

/-! ### The frame's end (R184, R188, R202, R204, R216, R217) -/

/-- Emit rows `first …` of a plane as parcels of `n` rows (R202). -/
def emitChunks (u : Nat) (m : Manifest) (stride base n : Nat) : Nat → Nat → List (List Byte) → State → State
  | 0, _, _, s => s
  | fuel + 1, first, rows, s =>
    if rows = [] then s
    else
      let l := rows.take n
      emitChunks u m stride base n fuel (first + l.length) (rows.drop n)
        (s.emit u { m with firstRow := first, rows := l.length } (base + first * stride) l.flatten)

/-- Emit the planes of an image, each after the last; the bytes written (R201, R202). -/
def emitPlanes (u : Nat) (m : Manifest) (pr : Nat) : List (Nat × List (List Byte)) → Nat → State → State × Nat
  | [], base, s => (s, base)
  | (pl, rows) :: ps, base, s =>
    let stride := (rows.head?.getD []).length
    emitPlanes u m pr ps (base + stride * rows.length)
      (emitChunks u { m with plane := pl } stride base (parcelRows pr stride) rows.length 0 rows s)

/-- OR of the flags of the berth manifests of inputs; handle 0 names none (R28). -/
def inputFlags (s : State) (hs : List Nat) : Nat :=
  (hs.filter (· ≠ 0)).foldl (fun f h => f ||| (s.berth h).man.flags) 0

/-- Write the branches of a frame: bytes written and each branch's image. -/
def writeOutputs (i e fflags : Nat) (man : Manifest) (fo : FrontOut) : List (Nat × Nat) → State → Nat → List (Nat × BranchOut) → State × Nat × List (Nat × BranchOut)
  | [], s, n, acc => (s, n, acc)
  | (o, h) :: os, s, n, acc =>
    if o = 3 then
      let cols := s.pipeFld i e (Reg.PIPE_GEOM_COLS_M1 i) + 1
      let m : Manifest := { man with
        stream := s.pipeFld i e (Reg.PIPE_RAWOUT_CFG_STREAM i), domain := s.pipeFld i e (Reg.PIPE_RAWOUT_CFG_DOMAIN i)
        kind := 1, stratum := 0, flags := fflags, handle := h }
      let (s, b) := emitPlanes (4 + i) m (s.bankFld i e (Reg.SRX_ROW_PARCEL_ROWS i))
        [(13, (List.range fo.invalid.length).map (Back.rawRow cols fo))] 0 s
      writeOutputs i e fflags man fo os s (n + b) acc
    else
      let c := s.branchCfg i e o
      let hs := s.branchTables i e o
      let (s, sc) := s.readTable (4 + i) (hs.getD 0 0) 1536
      let (s, tn) := s.readTable (4 + i) (hs.getD 1 0) 3076
      let (s, lt) := s.readTable (4 + i) (hs.getD 2 0) 2197000
      let img := Back.branch (s.backCfg i e) c ⟨sc, tn, lt⟩ fo.rgbi
      let m : Manifest := { man with
        stream := s.pipeFld i e (Reg.PIPE_OUT_STREAM_STREAM i o), domain := s.pipeFld i e (Reg.PIPE_OUT_STREAM_DOMAIN i o)
        kind := 2 + o, stratum := 0, flags := fflags ||| s.inputFlags hs, handle := h }
      let (s, b) := emitPlanes (4 + i) m c.parcelRows img.planes 0 s
      let s := if s.holds (4 + i) h then s.setPicSize h c.outW c.outH else s
      writeOutputs i e fflags man fo os s (n + b) (acc ++ [(o, img)])

/-- The output histogram of branch `o` (R212, R213). -/
def outHist (outs : List (Nat × BranchOut)) (o ch : Nat) : List Byte :=
  let ch := if 5 ≤ ch then 0 else ch
  match (outs.find? fun e => e.1 == o).map (·.2) with
  | some b => histBytes (((b.codes.getD ch #[]).toList.map fun row => row.toList.map fun x => x.toNat >>> (b.depth - 8)).flatten)
  | none => histBytes []

/-- Emit STATS parcels with sequence numbers from `seq` on (R216). -/
def emitStats (u : Nat) (m : Manifest) : Nat → List (Nat × Nat × Nat × List Byte) → State → State
  | _, [], s => s
  | seq, (stratum, plane, ofs, bs) :: l, s =>
    emitStats u m (seq + 1) l (s.emit u { m with stratum := stratum, plane := plane, firstRow := seq } ofs bs)

/-- Measure a frame (R208 to R217): STATS parcels, STATS_DONE or NO_MEASURE, the last-frame registers. -/
def statEnd (s : State) (i : Nat) (f : PipeFrame) (fflags : Nat) (fc : FrontCfg) (fo : FrontOut)
    (valid : Nat → Nat → Bool) (outs : List (Nat × BranchOut)) : State :=
  let e := f.epoch
  if s.statFld i e (Reg.STAT_CFG_EN i) = 0 then s
  else
    let c := s.statCfg i e
    let wh := s.statFld i e (Reg.STAT_WEIGHTS_HANDLE i)
    let (s, wt) := s.readTable (4 + i) wh 4096
    let w := fun z => match wt with | none => 1 | some t => (t.getD z 0).toNat
    let zs := c.zones fc.samples fc.rows fo
    let wzs := (List.range zs.length).zip zs
    let den : Nat := wzs.foldl (fun (x : Nat) (e : Nat × ZoneSum) => x + w e.1 * e.2.n) 0
    let num : Nat := wzs.foldl (fun (x : Nat) (e : Nat × ZoneSum) => x + w e.1 * e.2.y) 0
    let m := if den = 0 then 0 else (2 * 4096 * num + den) / (2 * den)
    let strata := (List.range fc.strata).map fun k => c.stratumValues fc.samples fc.rows k fo valid
    let sat := (List.range fc.strata).map fun k =>
      min 0xFFFFFFFF ((strata.getD k []).filter fun (a : Int) => decide (((c.sat k * 16 : Nat) : Int) ≤ a)).length
    let excluded := ((c.rows fc.rows).filter fun r => fo.invalid.getD r false).length
    let zrec := (zs.map zoneBytes).flatten
    let parcels : List (Nat × Nat × Nat × List Byte) :=
      [(0, 0, 0x4000, padTo (ceilDiv zrec.length 64 * 64) zrec)] ++
      ((List.range fc.strata).map fun k =>
        (k, 1, 0x1000 + 0x400 * k, histBytes ((strata.getD k []).map fun a => logBin (clampI 0 0xFFFFF (a.fdiv 16)).toNat))) ++
      ((List.range 4).map fun k => (0, 2 + k, 0x2000 + 0x400 * k, histBytes ((c.mergedValues fc.samples fc.rows k fo).map logBin))) ++
      (((List.range 3).filter fun o => decide (s.statFld i e (Reg.STAT_OUT_EN i o) = 1)).map fun o =>
        (0, 6 + o, 0x3000 + 0x400 * o, outHist outs o (s.statFld i e (Reg.STAT_OUT_CH i o)))) ++
      [(0, 9, 0, statHeader f.man c.zx c.zy m (zs.foldl (fun x z => x + z.n) 0) (zs.foldl (fun x z => x + z.c) 0) sat excluded)]
    let s := match f.stat with
      | some h => emitStats (4 + i) (s.statMan i e f.man (fflags ||| s.inputFlags [wh]) h) 0 parcels s
      | none => s
    let s := if den = 0 then s.statRaise i 4
      else s.post 6 (4 + i) f.man.expSet (f.man.frame % 2 ^ 32 + (m % 2 ^ 32) <<< 32)
    ((s.setFld (Reg.STAT_LAST_FRAME_FRAME i) f.man.frame).setFld (Reg.STAT_LAST_SET_SET_ID i) f.man.expSet).setFld
      (Reg.STAT_LAST_MEAN_MEAN i) m

/-- BERTH_REL of output berths, with manifests as they stood at the release (R188, R214). -/
def relPosts (u : Nat) : List (Nat × Manifest) → State → State
  | [], s => s
  | (h, m) :: l, s => relPosts u l (s.berthRel u h m.frame m.flags)

/-- Release every berth of a frame and post its BERTH_RELs (R166, R188, R214). -/
def pipeRelease (s : State) (i : Nat) (f : PipeFrame) (flags : Nat) : State :=
  let rel := ((f.outs.map fun x => x.2) ++ f.stat.toList).map fun h => (h, (s.berth h).man)
  let s := releaseAll (4 + i) f.got s
  let s := relPosts (4 + i) rel s
  let s := s.berthRel (4 + i) f.raw f.man.frame flags
  let s := s.setPipe i { s.pipe i with frame := none }
  (s.setFld (Reg.PIPE_STATUS_STATE i) 1).endWork (4 + i) f.man.tide

/-- A frame finishes (R167 to R222). -/
def pipeFrameEnd (s : State) (i : Nat) : State :=
  match (s.pipe i).frame with
  | none => s
  | some f =>
    let u := 4 + i
    let e := f.epoch
    let fmt := (s.berth f.raw).format
    let fc := s.frontCfg i e fmt
    let w := fc.width
    let packed := bit fmt 2
    let (s, raw) := s.readPart u f.raw (fc.strata * fc.rows * rowStride packed fc.samples w)
    let (s, map) := s.readTable u f.map 16384
    let valid : Nat → Nat → Bool := fun k r => match map with
      | none => true
      | some a => bit (a.getD (4096 * k + r / 8) 0).toNat (r % 8)
    let ht := s.frontTables i e
    let (s, lut) := s.readTable u (ht.getD 0 0) 4112
    let (s, col) := s.readTable u (ht.getD 1 0) 524288
    let (s, list) := s.readTable u (if fc.count = 0 then 0 else ht.getD 2 0) (8 * fc.count)
    let fo := Front.run fc ⟨lut, col, list⟩ (fun k => storedCodes raw packed fc.samples fc.rows w k) valid
    let fflags := s.inputFlags ([f.raw, f.map] ++ ht) ||| s.ovrFlag u f.man.tide
    let (s, bytes, outs) := writeOutputs i e fflags f.man fo f.outs s 0 []
    let p := fc.samples * fc.rows
    let limited := decide (128 * fc.strata * p < 40 * bytes) && decide (128 * p < 20 * bytes)
    let sat32 := fun x => min x 0xFFFFFFFF
    let s := s.setFld (Reg.PIPE_MERGE_CNT_0_BLENDED i) (sat32 fo.blended)
    let s := s.setFld (Reg.PIPE_MERGE_CNT_1_SINGLE i) (sat32 fo.singles)
    let s := s.setFld (Reg.PIPE_MERGE_CNT_2_SATURATED i) (sat32 fo.saturated)
    let s := s.setFld (Reg.PIPE_FRONT_CNT_0_DYNAMIC i) (sat32 fo.dynamic)
    let s := s.setFld (Reg.PIPE_FRONT_CNT_1_UNFIXED i) (min fo.unfixed 0xFFFF)
    let s := s.setFld (Reg.PIPE_FRONT_CNT_1_INVALID i) (min (fo.invalid.filter id).length 0xFFFF)
    let s := s.setFld (Reg.PIPE_BE_TIME_PCLK i) ((s.now - f.startAt) * 5 / 8)
    let s := s.statEnd i f fflags fc fo valid outs
    let s := s.pipeRelease i f fflags
    let s := if limited then s.setBitsOf (0x108050 + 0x10000 * i) 4 else s
    let s := s.pipeRaise i (b01 (decide (0 < fo.unfixed)) + 2 * b01 fo.disorder)
    s.unitEvent u (((f.ev ||| 4 * b01 limited) &&& (s.word (0x108054 + 0x10000 * i)).toNat) <<< 8)

/-- The frame in progress is abandoned (R44): nothing more is written, its berths are released. -/
def pipeAbandon (s : State) (i : Nat) : State :=
  match (s.pipe i).frame with
  | none => s
  | some f =>
    let flags := f.man.flags ||| s.ovrFlag (4 + i) f.man.tide
    (s.pipeRelease i f flags).countAbandon (4 + i)

/-- PIPE_CTRL.OP (R185): 1 RUN, 2 STOP. -/
def pipeOp (s : State) (i op : Nat) : State :=
  if op = 1 then
    if s.fld (Reg.PIPE_STATUS_STATE i) = 0 then s.setFld (Reg.PIPE_STATUS_STATE i) 1 else s
  else if op = 2 then
    let s := (s.pipeAbandon i).setQueue (pipeInQ i) []
    (s.setPipe i {}).setFld (Reg.PIPE_STATUS_STATE i) 0
  else s

end State

/-! ### Commands -/

/-- PIPE_FRAME_END: the frame in progress finishes (R184); with none in progress nothing changes. -/
def execPipeFrameEnd (i : Fin 4) (s : State) : Res := .next (s.pipeFrameEnd i)

end Sys2Proof.Machine
end

