-- ==== Sys2Proof/Machine/Dec.lean ====
section
/-! DEFINITION. Video decoders: queues, pacing, the DPB and its output order, concealment, taint and recovery, output copies (R261 to R272). What a stream says is the operand of DEC_DECODE_DONE; decoded samples are free values. -/

namespace Sys2Proof.Machine

/-- PIXFMT of a chroma format (R267): 4:2:0 gives 3, 4:2:2 gives 2, 4:4:4 gives 1, monochrome 4. -/
def chromaPixfmt (c : Nat) : Nat := if c = 0 then 4 else 4 - c

/-- Sequence and picture parameters within R262. -/
def auSupported (a : AuFacts) : Bool :=
  a.profileOk && decide (a.level.toNat ≤ 186 ∨ a.level.toNat = 255) && decide (a.width ≤ 32768) && decide (a.height ≤ 32768) &&
  decide (a.tileCols ≤ 20) && decide (a.tileRows ≤ 22) && decide (a.slices ≤ 600) && decide (a.dpbSize ≤ 16)

/-- The planes of a DPB berth: width, height and offset of Y, Cb, Cr, and the offset of the motion store (R265). -/
def dpbPlanes (chroma w h : Nat) : List (Nat × Nat × Nat) × Nat :=
  let stride := fun w => ceilDiv (w * 16) 512 * 64
  let y := stride w * h
  if chroma = 0 then ([(w, h, 0)], y)
  else
    let cw := if chroma = 3 then w else ceilDiv w 2
    let ch := if chroma = 1 then ceilDiv h 2 else h
    let c := stride cw * ch
    ([(w, h, 0), (cw, ch, y), (cw, ch, y + c)], y + 2 * c)

/-- Bytes of the motion store (R265). -/
def motionBytes (w h : Nat) : Nat := 8 * ceilDiv w 16 * ceilDiv h 16

namespace State

def dec (s : State) (d : Nat) : Dec := s.decs.get (fun _ => {}) d
def setDec (s : State) (d : Nat) (x : Dec) : State := { s with decs := s.decs.set (fun _ => {}) d x }

def decA (d : Nat) : Nat := 0x180000 + 0x4000 * d
def decRaise (s : State) (d m : Nat) : State := s.raise (decA d + 0x30) (decA d + 0x34) (12 + d) m

/-- A class-T field as the decoder last took it at its own tide (R31, R261). -/
def decFld (s : State) (d : Nat) (f : Fld) : Nat := s.appliedFld (decA d) f

def decInQ (d : Nat) : Nat := decA d + 0x18
def decOutQ (d : Nat) : Nat := decA d + 0x1C

/-! ### Queues and the pool (R263) -/

/-- DEC_IN_PUSH: the entry keeps the length DEC_IN_LEN holds (R264). -/
def decInPush (s : State) (d h : Nat) : State :=
  let (s, ok) := s.pushQ (decInQ d) 8 ⟨h, s.fld (Reg.DEC_IN_LEN_BYTES d), false⟩
  if ok then s else s.count (Reg.DEC_QUEUE_LOST d)

/-- DEC_OUT_PUSH. -/
def decOutPush (s : State) (d h : Nat) : State :=
  let (s, ok) := s.pushQ (decOutQ d) 16 ⟨h, 0, false⟩
  if ok then s else s.count (Reg.DEC_QUEUE_LOST d)

/-- DEC_DPB_PUSH: the berth is acquired when it is pushed. -/
def decDpbPush (s : State) (d h : Nat) : State :=
  if 17 ≤ (s.dec d).pool.length then s.count (Reg.DEC_QUEUE_LOST d)
  else
    let (s, ok) := s.acquire (12 + d) h
    if ok then s.setDec d { s.dec d with pool := (s.dec d).pool ++ [h] } else s

/-- Pool berths that hold a picture. -/
def decUsed (x : Dec) : List Nat :=
  let l := (x.dpb.map fun (p : DpbPic) => p.h) ++ (x.copies.map fun (p : DpbPic) => p.h) ++
    (match x.copy with | some (p, _) => [p.h] | none => [])
  x.pool.filter fun h => decide (h ∈ l)

def decFree (x : Dec) : List Nat :=
  let l := decUsed x
  x.pool.filter fun h => !decide (h ∈ l)

/-! ### Output copies (R267, R268) -/

/-- STATE shows what the engines do. -/
def decShow (s : State) (d : Nat) : State :=
  if s.fld (Reg.DEC_STATUS_STATE d) = 0 then s
  else s.setFld (Reg.DEC_STATUS_STATE d) (if (s.dec d).cur.isSome || (s.dec d).copy.isSome then 2 else 1)

/-- The work of the present tide is over when nothing is decoded, copied or still to be started. -/
def decRest (s : State) (d : Nat) : State :=
  let x := s.dec d
  if x.cur.isNone && x.copy.isNone && x.copies.isEmpty && (decide (x.left = 0) || (s.queue (decInQ d)).isEmpty) then
    s.endAllWork (12 + d) else s

/-- The stamp of an output picture: the own tide's, or with PICS = 0 that of the copy's start (R266, R268). -/
def decStamp (s : State) (d : Nat) : Manifest :=
  if s.decFld d (Reg.DEC_CFG_PICS d) = 0 then s.stamp (s.ownTide (12 + d) - 1) else (s.dec d).man

/-- The copy engine takes the next pictures that wait, until one starts (R267). -/
def decCopyNext (d : Nat) : Nat → State → State
  | 0, s => s
  | fuel + 1, s =>
    let x := s.dec d
    if x.copy.isSome then s
    else match x.copies with
      | [] => s
      | p :: ps =>
        let s := s.setDec d { x with copies := ps }
        let fmt := s.decFld d (Reg.DEC_OUT_CFG_FMT d)
        let pf := Back.pixfmt fmt
        if (pf ≠ 4 ∧ pf ≠ chromaPixfmt p.chroma) ∨ Back.depth fmt < p.depth then
          decCopyNext d fuel ((s.count (Reg.DEC_CNT2_NOT_OUT d)).decRaise d 64)
        else match s.popQ (decOutQ d) with
          | (s, none) => decCopyNext d fuel ((s.count (Reg.DEC_CNT2_NOT_OUT d)).decRaise d 32)
          | (s, some q) =>
            let (s, _) := s.acquire (12 + d) q.h
            s.setDec d { s.dec d with copy := some (p, q.h, s.decStamp d) }

/-- A sample of a plane of a DPB berth (R265). -/
def dpbSample (s : State) (p : DpbPic) (c x y : Nat) : Nat :=
  let (w, _, ofs) := (dpbPlanes p.chroma p.w p.hgt).1.getD c (0, 0, 0)
  let a := (s.berth p.h).base * 4096 + ofs + y * (ceilDiv (w * 16) 512 * 64) + 2 * x
  ofBytesLE (s.memRead a 2)

/-- The planes of an output picture, cropped, shifted and packed (R200, R201, R267). -/
def decPlanes (s : State) (p : DpbPic) (fmt : Nat) : List (Nat × List (List Byte)) :=
  let d := Back.depth fmt
  let pf := Back.pixfmt fmt
  let sw := if pf = 1 then 1 else 2
  let sh := if pf = 3 then 2 else 1
  let v := fun c x y => ((s.dpbSample p c x y <<< (d - p.depth) : Nat) : Int)
  let row := fun (l : List Int) => Back.packRow d (bit fmt 1) l
  let luma := (List.range p.cropH).map fun y => row ((List.range p.cropW).map fun x => v 0 (p.cropX + x) (p.cropY + y))
  let chroma := fun c => (List.range (p.cropH / sh)).map fun y =>
    (List.range (p.cropW / sw)).map fun x => v c (p.cropX / sw + x) (p.cropY / sh + y)
  if pf = 4 then [(0, luma)]
  else if pf = 1 then [(0, luma), (1, (chroma 1).map row), (2, (chroma 2).map row)]
  else [(0, luma), (1, ((chroma 1).zip (chroma 2)).map fun (a, b) => row ((a.zip b).map fun (x, y) => [x, y]).flatten)]

/-- The output copy in progress completes (R267). -/
def decCopyDone (s : State) (d : Nat) : State :=
  match (s.dec d).copy with
  | none => s
  | some (p, h, man) =>
    let u := 12 + d
    let m : Manifest := { man with
      stream := s.decFld d (Reg.DEC_OUT_STREAM_STREAM d), domain := s.decFld d (Reg.DEC_OUT_STREAM_DOMAIN d)
      kind := 7, stratum := 0, frame := p.frame, origin := p.origin, handle := h
      flags := man.flags ||| (if p.taint then flagTaint else 0) ||| s.ovrFlag u man.tide }
    let (s, _) := emitPlanes u m (s.decFld d (Reg.DEC_OUT_CFG_PARCEL_ROWS d)) (s.decPlanes p (s.decFld d (Reg.DEC_OUT_CFG_FMT d))) 0 s
    let s := if s.holds u h then (s.setPicSize h p.cropW p.cropH).release u h else s
    let s := s.berthRel u h m.frame m.flags
    let s := (s.setFld (Reg.DEC_PIC_TAINT d) (b01 p.taint)).setFld (Reg.DEC_PIC_POC_LSB d) (wrap 16 p.poc)
    let s := s.setDec d { s.dec d with copy := none }
    ((decCopyNext d ((s.dec d).copies.length + 1) s).decShow d).decRest d

/-! ### The DPB and output order (R267, H.265 clause C.5.2) -/

/-- The picture that waits for output with the smallest order count. -/
def nextOut (l : List DpbPic) : Option DpbPic :=
  (l.filter fun p => p.out).foldl (fun b p => match b with
    | none => some p
    | some q => if p.poc < q.poc then some p else some q) none

/-- Bumping: the picture goes to the copy engine unless R269 mutes it, and leaves the DPB when it is no reference. -/
def bump (x : Dec) : Dec :=
  match nextOut x.dpb with
  | none => x
  | some p =>
    let dpb := (x.dpb.map fun (q : DpbPic) => if q.poc = p.poc ∧ q.h = p.h then { q with out := false } else q).filter fun q => q.out || q.ref
    { x with dpb := dpb, copies := if p.mute then x.copies else x.copies ++ [p] }

/-- Bump every picture that waits. -/
def bumpAll : Nat → Dec → Dec
  | 0, x => x
  | n + 1, x => if x.dpb.any fun p => p.out then bumpAll n (bump x) else x

/-- Too many pictures wait, or one waits too long. -/
def waitsTooMuch (a : AuFacts) (l : List DpbPic) : Bool :=
  decide (a.reorder < (l.filter fun p => p.out).length) ||
  (match a.latency with | some n => l.any fun p => p.out && decide (n ≤ p.latency) | none => false)

/-- Bump while the limits of a sequence are exceeded; `full` counts the fullness of the DPB too. -/
def bumpWhile (a : AuFacts) (full : Bool) : Nat → Dec → Dec
  | 0, x => x
  | n + 1, x =>
    if (x.dpb.any fun p => p.out) && (waitsTooMuch a x.dpb || (full && decide (a.dpbSize ≤ x.dpb.length))) then
      bumpWhile a full n (bump x) else x

/-- Before the picture: the reference picture set, and output or removal of earlier pictures (C.5.2.2). -/
def dpbBefore (a : AuFacts) (x : Dec) : Dec :=
  if a.irap && a.noRasl then
    if x.begun && a.noOutPrior then { x with dpb := [] }
    else { bumpAll x.dpb.length x with dpb := [] }
  else
    let dpb := (x.dpb.map fun (p : DpbPic) => { p with ref := decide (p.poc ∈ a.rps) }).filter fun p => p.out || p.ref
    bumpWhile a true (dpb.length + 1) { x with dpb := dpb }

/-- After the picture: it joins the DPB, and pictures are output that the limits push out (C.5.2.3). -/
def dpbAfter (a : AuFacts) (p : DpbPic) (x : Dec) : Dec :=
  let dpb := x.dpb.map fun (q : DpbPic) => if p.out && q.out && decide (p.poc < q.poc) then { q with latency := q.latency + 1 } else q
  bumpWhile a false (dpb.length + 2) { x with dpb := dpb ++ [p] }

/-! ### Pictures in memory -/

/-- Write the planes of a picture: sample `v c x y`, and its motion store of free values (R265). -/
def writePicture (s : State) (u : Nat) (p : DpbPic) (v : Nat → Nat → Nat → Nat) : State :=
  let (planes, motion) := dpbPlanes p.chroma p.w p.hgt
  let bytes := ((List.range planes.length).map fun c =>
    let (w, h, _) := planes.getD c (0, 0, 0)
    ((List.range h).map fun y => padTo (ceilDiv (w * 16) 512 * 64) (((List.range w).map fun x => bytesLE 2 (v c x y)).flatten)).flatten).flatten
  let s := s.writeBerth u p.h 0 bytes
  let (s, mv) := s.freeBytes (motionBytes p.w p.hgt)
  s.writeBerth u p.h motion mv

/-- The picture that concealment copies from: nearest in order count, not generated; between two at one distance the choice is free (R270). -/
def concealFrom (poc : Int) (free : Nat) (l : List DpbPic) : Option DpbPic :=
  (l.filter fun p => !p.gen).foldl (fun b p => match b with
    | none => some p
    | some q =>
      let dp := (p.poc - poc).natAbs
      let dq := (q.poc - poc).natAbs
      if dp < dq ∨ (dp = dq ∧ free % 2 = 1) then some p else some q) none

/-- The CTU of sample `(x, y)` of plane `c`. -/
def ctuOf (a : AuFacts) (c x y : Nat) : Nat :=
  let n := 2 ^ a.ctbLog2.val
  let sx := if c = 0 ∨ a.chroma.val = 3 then 1 else 2
  let sy := if c ≠ 0 ∧ a.chroma.val = 1 then 2 else 1
  (y * sy / n) * ceilDiv a.width n + x * sx / n

/-- The picture record of an access unit. -/
def picOf (a : AuFacts) (h frame origin : Nat) (gen mute : Bool) (poc : Int) : DpbPic :=
  ⟨h, poc, gen, gen, a.picOutput && !gen, true, mute, 0, frame, origin, a.chroma.val, a.depth.val, a.width, a.height,
    a.cropX, a.cropY, a.cropW, a.cropH⟩

/-- Generate the missing pictures of the reference picture set (R270); false when the pool runs out. -/
def generate (d : Nat) (a : AuFacts) : List Int → State → State × Bool
  | [], s => (s, true)
  | poc :: l, s =>
    let x := s.dec d
    if x.dpb.any fun p => decide (p.poc = poc) then generate d a l s
    else match decFree x with
      | [] => (s, false)
      | h :: _ =>
        let p := picOf a h 0 0 true true poc
        let s := s.writePicture (12 + d) p fun _ _ _ => 2 ^ (a.depth.val - 1)
        let s := s.setDec d { s.dec d with dpb := (s.dec d).dpb ++ [p] }
        generate d a l ((s.count (Reg.DEC_CNT2_GENERATED d)).decRaise d 8)

/-! ### Input (R264) -/

/-- Bytes of the input that are at hand: those left in the berth in hand and those queued. -/
def decBytes (s : State) (d : Nat) : Nat :=
  (match (s.dec d).inp with | some (_, n, pos) => n - pos | none => 0) + ((s.queue (decInQ d)).map fun q => q.h2).sum

/-- Take the next input berth in hand (R264). -/
def decOpen (s : State) (d : Nat) : State :=
  if (s.dec d).inp.isSome then s
  else match s.popQ (decInQ d) with
    | (s, none) => s
    | (s, some q) =>
      let (s, _) := s.acquire (12 + d) q.h
      s.setDec d { s.dec d with inp := some (q.h, q.h2, 0) }

/-- The berth in hand is parsed: release and BERTH_REL (R264). -/
def decClose (s : State) (d : Nat) : State :=
  match (s.dec d).inp with
  | none => s
  | some (h, _, _) =>
    let u := 12 + d
    let m := (s.berth h).man
    let s := if s.holds u h then s.release u h else s
    (s.berthRel u h m.frame m.flags).setDec d { s.dec d with inp := none }

/-- Parse `n` bytes of Annex B input, closing each berth that is used up. -/
def decParse (d : Nat) : Nat → Nat → State → State
  | 0, _, s => s
  | fuel + 1, n, s =>
    if n = 0 then s
    else
      let s := s.decOpen d
      match (s.dec d).inp with
      | none => s
      | some (h, len, pos) =>
        if len ≤ pos + n then decParse d fuel (n - (len - pos)) (s.decClose d)
        else s.setDec d { s.dec d with inp := some (h, len, pos + n) }

/-- The input has something to decode. -/
def decHasInput (s : State) (d : Nat) : Bool := (s.dec d).inp.isSome || !(s.queue (decInQ d)).isEmpty

/-- Start the next access unit if the pace allows it (R266). -/
def decStart (s : State) (d : Nat) : State :=
  let x := s.dec d
  let free := decide (s.decFld d (Reg.DEC_CFG_PICS d) = 0)
  if s.fld (Reg.DEC_STATUS_STATE d) = 0 ∨ x.cur.isSome ∨ !s.decHasInput d ∨ (!free ∧ x.left = 0) then s
  else
    let s := s.decOpen d
    (s.setDec d { s.dec d with cur := some s.now, left := x.left - 1 }).decShow d

/-- The decoder's own tide `k` (R31, R266, R268). -/
def decTide (s : State) (d k : Nat) : State :=
  let s := s.takeApplied (decA d) (decA d) (decA d + 0x4000)
  if s.fld (Reg.DEC_STATUS_STATE d) = 0 then s
  else
    let n := s.decFld d (Reg.DEC_CFG_PICS d)
    let s := s.setDec d { s.dec d with man := s.stamp k, left := n }
    if n ≠ 0 ∧ (s.decHasInput d ∨ (s.dec d).cur.isSome ∨ (s.dec d).copy.isSome) then
      (s.beginWork (12 + d) k k s.sys.epoch).decStart d
    else s.decStart d

/-! ### The end of an access unit (R267 to R271) -/

/-- The input side of a finished access unit. -/
def decTakeInput (s : State) (d : Nat) (a : AuFacts) : State :=
  if s.flag (Reg.DEC_CFG_INFMT d) then decParse d ((s.queue (decInQ d)).length + 2) a.used s else s.decClose d

/-- The decoded picture: samples, taint, recovery, DPB (R268, R270, R271). -/
def decPicture (s : State) (d : Nat) (a : AuFacts) (h : Nat) (inMan : Manifest) (inH : Nat) : State :=
  let u := 12 + d
  let infmt1 := s.flag (Reg.DEC_CFG_INFMT d)
  let frame := if infmt1 then s.fld (Reg.DEC_FRAME_NUM_FRAME_NUM d) else ofBytesLE (s.peek inH 0 4)
  let s := if infmt1 then s.setFld (Reg.DEC_FRAME_NUM_FRAME_NUM d) (frame + 1) else s
  let x := s.dec d
  let clears := (a.irap && a.noRasl) || (match x.armed with | some p => decide (p ≤ a.poc) | none => false)
  let x := if clears then
      { x with dpb := x.dpb.map fun (p : DpbPic) => { p with taint := false }, armed := none, cause := false } else x
  let refs := x.dpb.filter fun p => decide (p.poc ∈ a.refs)
  let cause := a.syntaxErr || !a.missCtus.isEmpty || (refs.any fun p => p.gen)
  let taint := cause || (refs.any fun p => p.taint)
  let loose := decide (s.decFld d (Reg.DEC_CFG_LOOSE d) = 1)
  let armed := if cause then none
    else match a.recovery with
      | some (n, exact) => if x.armed.isNone && x.cause && (exact || loose) then some (a.poc + n) else x.armed
      | none => x.armed
  let p := { picOf a h frame inMan.origin false x.mute a.poc with taint := taint }
  let bad := a.errCtus ++ a.missCtus
  let from_ := concealFrom a.poc s.freeVal x.dpb
  let s := s.nextFree
  let f := s.fresh
  let area := a.width * a.height
  let v := fun c px py =>
    if ctuOf a c px py ∈ bad then (match from_ with | some q => s.dpbSample q c px py | none => 2 ^ (a.depth.val - 1))
    else Config.freeNat (f + c * area + py * a.width + px) % 2 ^ a.depth.val
  let s := (s.writePicture u p v)
  let s := { s with fresh := max s.fresh (f + 3 * area) }
  let s := s.count (Reg.DEC_CNT_CONCEALED d) bad.length
  let s := s.setDec d (dpbAfter a p { x with armed := armed, cause := x.cause || cause, mute := false, begun := true })
  s.decRaise d (4 * b01 a.syntaxErr + 128 * b01 clears)

/-- Show the active sequence (R272). -/
def decSeq (s : State) (d : Nat) (a : AuFacts) : State :=
  let s := (s.setFld (Reg.DEC_SEQ_H_M1 d) (a.height - 1)).setFld (Reg.DEC_SEQ_W_M1 d) (a.width - 1)
  let s := (s.setFld (Reg.DEC_SEQ2_LEVEL d) a.level.toNat).setFld (Reg.DEC_SEQ2_PROFILE d) a.profile.toNat
  (s.setFld (Reg.DEC_SEQ2_CHROMA d) a.chroma.val).setFld (Reg.DEC_SEQ2_DEPTH d) a.depth.val

/-- The access unit in progress is decoded (R267 to R271); nothing changes while its bytes are not all at hand. -/
def decDone (s : State) (d : Nat) (a : AuFacts) : State :=
  match (s.dec d).cur with
  | none => s
  | some t0 =>
    if s.flag (Reg.DEC_CFG_INFMT d) && decide (s.decBytes d < a.used) then s
    else
      let (inH, _) := ((s.dec d).inp).getD (0, 0, 0)
      let inMan := (s.berth inH).man
      let s := s.setFld (Reg.DEC_CYCLES_ECLK d) ((s.now - t0) / 2)
      let s :=
        if !auSupported a then (s.setDec d { s.dec d with discard := true }).decRaise d 2
        else if (s.dec d).discard && !a.irap then s
        else if a.rasl then s
        else
          let s := (s.setDec d { dpbBefore a (s.dec d) with discard := false }).decSeq d a
          let (s, ok) := generate d a a.rps s
          match decFree (s.dec d), ok with
          | h :: _, true => s.decPicture d a h inMan inH
          | _, _ => (s.setDec d { s.dec d with mute := false }).decRaise d 16
      let s := s.decTakeInput d a
      let s := s.setDec d { s.dec d with cur := none }
      let s := decCopyNext d ((s.dec d).copies.length + 1) s
      (s.decShow d).decRest d

/-! ### Overrun, abandon, control (R269, R272) -/

/-- An overrun: the next access unit is decoded without being copied. -/
def decOverrun (s : State) (d : Nat) : State := (s.setDec d { s.dec d with mute := true }).decRaise d 1

/-- The picture in progress is abandoned, and the copies of the tide with it (R44, R269). -/
def decAbandon (s : State) (d : Nat) : State :=
  let u := 12 + d
  let x := s.dec d
  let s := if x.cur.isSome && !s.flag (Reg.DEC_CFG_INFMT d) then s.decClose d else s
  let s := match x.copy with
    | some (p, h, m) => (if s.holds u h then s.release u h else s).berthRel u h p.frame (m.flags ||| flagOvr)
    | none => s
  let s := s.setDec d { s.dec d with cur := none, copy := none, copies := [] }
  s.decShow d

/-- DEC_CTRL.OP = STOP: everything in progress ends, the queues empty, every berth is released (R263, R272). -/
def decStop (s : State) (d : Nat) : State :=
  let u := 12 + d
  let x := s.dec d
  let hs := x.pool ++ (match x.inp with | some (h, _, _) => [h] | none => []) ++ (match x.copy with | some (_, h, _) => [h] | none => [])
  let s := releaseAll u (hs.filter fun h => s.holds u h) s
  let s := ((s.setQueue (decInQ d) []).setQueue (decOutQ d) []).endAllWork u
  let s := if x.cur.isSome then s.countAbandon u else s
  (s.setDec d {}).setFld (Reg.DEC_STATUS_STATE d) 0

/-- DEC_CTRL.OP = FLUSH: every picture that waits in the DPB is output. -/
def decFlush (s : State) (d : Nat) : State :=
  let x := bumpAll (s.dec d).dpb.length (s.dec d)
  let s := s.setDec d { x with flushing := true }
  (decCopyNext d ((s.dec d).copies.length + 1) s).decShow d

/-- DEC_CTRL.OP (R272). -/
def decOp (s : State) (d op : Nat) : State :=
  if op = 1 then if s.fld (Reg.DEC_STATUS_STATE d) = 0 then s.setFld (Reg.DEC_STATUS_STATE d) 1 else s
  else if op = 2 then s.decStop d
  else if op = 3 then s.decFlush d
  else s

/-- The flush is complete when no copy is left. -/
def decFlushDone (s : State) (d : Nat) : State :=
  let x := s.dec d
  if x.flushing && x.copy.isNone && x.copies.isEmpty then (s.setDec d { x with flushing := false }).decRaise d 256 else s

end State

/-! ### Commands -/

/-- DEC_FLUSH_DONE (R272). -/
def execDecFlushDone (d : Fin 2) (s : State) : Res := .next (s.decFlushDone d)

/-- DEC_DECODE_START (R266). -/
def execDecDecodeStart (d : Fin 2) (s : State) : Res := .next (s.decStart d)

/-- DEC_DECODE_DONE (R270). -/
def execDecDecodeDone (d : Fin 2) (au : AuFacts) (s : State) : Res := .next (s.decDone d au)

/-- DEC_COPY_DONE (R267). -/
def execDecCopyDone (d : Fin 2) (s : State) : Res := .next (s.decCopyDone d)

end Sys2Proof.Machine
end

