-- ==== Sys2Proof/Machine/Crypto.lean ====
section
/-! DEFINITION. AES-256-GCM as its users apply it, over the opaque key stream and tag of Config (log entry 15). -/

namespace Sys2Proof.Machine

/-- Bytewise XOR. -/
def xorBytes : List Byte → List Byte → List Byte
  | a :: as, b :: bs => (a ^^^ b) :: xorBytes as bs
  | _, _ => []

/-- The key stream of `n` bytes. -/
def gcmStream (key nonce : List Byte) (n : Nat) : List Byte := padTo n (Config.aesStream key nonce n)

/-- The 16-byte tag of a ciphertext. -/
def gcmTag (key nonce aad cipher : List Byte) : List Byte := padTo 16 (Config.gcmTag key nonce aad cipher)

/-- Encrypt: ciphertext and tag. -/
def gcmSeal (key nonce aad plain : List Byte) : List Byte × List Byte :=
  let c := xorBytes plain (gcmStream key nonce plain.length)
  (c, gcmTag key nonce aad c)

/-- Decrypt: plaintext, and whether the tag verifies. -/
def gcmOpen (key nonce aad cipher tag : List Byte) : List Byte × Bool :=
  (xorBytes cipher (gcmStream key nonce cipher.length), decide (tag = gcmTag key nonce aad cipher))

end Sys2Proof.Machine
end

