-- ==== Sys2Proof/Machine/Inflate.lean ====
section
/-! DEFINITION. Decoding of raw DEFLATE streams (RFC 1951), as R280 and R283 name it. -/

namespace Sys2Proof.Machine.Inflate

/-- How decoding ends. -/
inductive End where
  | ok | syntax_ | short | expand
  deriving DecidableEq, Repr

/-- A stream being decoded: its bytes, the next bit, the output, and the most bytes it may yield. -/
structure Run where
  src : Array Byte
  pos : Nat
  out : Array Byte
  limit : Nat

/-- Bit `i` of the stream; `none` past its end. -/
def bitAt (r : Run) : Option Nat :=
  if h : r.pos / 8 < r.src.size then some (b01 ((r.src[r.pos / 8]).toNat.testBit (r.pos % 8))) else none

/-- `n` bits, least significant first. -/
def take : Nat → Run → Option (Nat × Run)
  | 0, r => some (0, r)
  | n + 1, r => match bitAt r with
    | none => none
    | some b => match take n { r with pos := r.pos + 1 } with
      | none => none
      | some (v, r) => some (b + 2 * v, r)

/-- A canonical Huffman code: how many codes each length has, and the symbols by length. -/
structure Huff where
  count : Array Nat
  symbol : Array Nat

/-- The code that a list of lengths gives. -/
def huff (lens : List Nat) : Huff :=
  { count := ((List.range 16).map fun l => if l = 0 then 0 else (lens.filter (· == l)).length).toArray
    symbol := (((List.range 15).map fun l => (List.range lens.length).filter fun i => decide (lens.getD i 0 = l + 1)).flatten).toArray }

/-- More codes of some length than there is room for. -/
def oversubscribed (h : Huff) : Bool :=
  decide ((List.range 15).foldl (fun (left : Int) l => left * 2 - h.count.getD (l + 1) 0) 1 < 0) ||
  ((List.range 15).foldl (fun (x : Int × Bool) l =>
    let left := x.1 * 2 - h.count.getD (l + 1) 0
    (left, x.2 || decide (left < 0))) (1, false)).2

/-- Decode one symbol: `code`, `first` and `index` at length `l`. -/
def symbol (h : Huff) : Nat → Nat → Nat → Nat → Nat → Run → Option (Option Nat × Run)
  | 0, _, _, _, _, r => some (none, r)
  | n + 1, l, code, first, index, r => match bitAt r with
    | none => none
    | some b =>
      let r := { r with pos := r.pos + 1 }
      let code := code + b
      let c := h.count.getD l 0
      if code < first + c then some (some (h.symbol.getD (index + (code - first)) 0), r)
      else symbol h n (l + 1) (2 * code) (2 * (first + c)) (index + c) r

def decode (h : Huff) (r : Run) : Option (Option Nat × Run) := symbol h 15 1 0 0 0 r

/-- Base length and extra bits of length code `257 + i`. -/
def lengthCode (i : Nat) : Nat × Nat :=
  if i < 8 then (3 + i, 0) else if i = 28 then (258, 0) else ((4 + i % 4) * 2 ^ (i / 4 - 1) + 3, i / 4 - 1)

/-- Base distance and extra bits of distance code `i`. -/
def distCode (i : Nat) : Nat × Nat := if i < 4 then (i + 1, 0) else ((2 + i % 2) * 2 ^ (i / 2 - 1) + 1, i / 2 - 1)

/-- Copy `n` bytes from `d` back. -/
def copy (d : Nat) : Nat → Array Byte → Array Byte
  | 0, a => a
  | n + 1, a => copy d n (a.push (a.getD (a.size - d) 0))

/-- Literals and matches up to the end of a block. -/
def codes (lit dist : Huff) : Nat → Run → End × Run
  | 0, r => (.short, r)
  | n + 1, r =>
    if r.limit < r.out.size then (.expand, r)
    else match decode lit r with
      | none => (.short, r)
      | some (none, r) => (.syntax_, r)
      | some (some v, r) =>
        if v < 256 then codes lit dist n { r with out := r.out.push (BitVec.ofNat 8 v) }
        else if v = 256 then (.ok, r)
        else if 285 < v then (.syntax_, r)
        else
          let (base, eb) := lengthCode (v - 257)
          match take eb r with
          | none => (.short, r)
          | some (x, r) => match decode dist r with
            | none => (.short, r)
            | some (none, r) => (.syntax_, r)
            | some (some dc, r) =>
              if 29 < dc then (.syntax_, r)
              else
                let (db, de) := distCode dc
                match take de r with
                | none => (.short, r)
                | some (y, r) =>
                  if r.out.size < db + y then (.syntax_, r)
                  else codes lit dist n { r with out := copy (db + y) (base + x) r.out }

/-- `n` bytes of a stored block. -/
def raw : Nat → Run → End × Run
  | 0, r => (.ok, r)
  | n + 1, r => match take 8 r with
    | none => (.short, r)
    | some (v, r) => if r.limit < r.out.size then (.expand, r) else raw n { r with out := r.out.push (BitVec.ofNat 8 v) }

/-- The code lengths of a dynamic block. -/
def lengths (h : Huff) : Nat → Nat → List Nat → Run → Option (Option (List Nat) × Run)
  | 0, _, acc, r => some (some acc, r)
  | n + 1, want, acc, r =>
    if want ≤ acc.length then some (if acc.length = want then some acc else none, r)
    else match decode h r with
      | none => none
      | some (none, r) => some (none, r)
      | some (some v, r) =>
        if v < 16 then lengths h n want (acc ++ [v]) r
        else if v = 16 then match acc.getLast?, take 2 r with
          | none, _ => some (none, r)
          | _, none => none
          | some l, some (k, r) => lengths h n want (acc ++ List.replicate (3 + k) l) r
        else match take (if v = 17 then 3 else 7) r with
          | none => none
          | some (k, r) => lengths h n want (acc ++ List.replicate ((if v = 17 then 3 else 11) + k) 0) r

/-- The order in which a dynamic block gives the lengths of its length code. -/
def clOrder : List Nat := [16, 17, 18, 0, 8, 7, 9, 6, 10, 5, 11, 4, 12, 3, 13, 2, 14, 1, 15]

/-- 3-bit lengths of the length code. -/
def clens : List Nat → Run → Option (List (Nat × Nat) × Run)
  | [], r => some ([], r)
  | i :: is, r => match take 3 r with
    | none => none
    | some (v, r) => (clens is r).map fun (l, r) => ((i, v) :: l, r)

/-- The fixed codes. -/
def fixedLit : Huff := huff ((List.range 288).map fun i => if i < 144 then 8 else if i < 256 then 9 else if i < 280 then 7 else 8)
def fixedDist : Huff := huff (List.replicate 30 5)

/-- A dynamic block. -/
def dynamic (fuel : Nat) (r : Run) : End × Run :=
  match take 14 r with
  | none => (.short, r)
  | some (h, r) =>
    let nlen := h % 32 + 257
    let ndist := h / 32 % 32 + 1
    let ncode := h / 1024 + 4
    if 286 < nlen ∨ 30 < ndist then (.syntax_, r)
    else match clens (clOrder.take ncode) r with
      | none => (.short, r)
      | some (l, r) =>
        let cl := huff ((List.range 19).map fun i => ((l.find? fun e => e.1 == i).map (·.2)).getD 0)
        if oversubscribed cl then (.syntax_, r)
        else match lengths cl 320 (nlen + ndist) [] r with
          | none => (.short, r)
          | some (none, r) => (.syntax_, r)
          | some (some ls, r) =>
            let lit := huff (ls.take nlen)
            let dist := huff (ls.drop nlen)
            if oversubscribed lit || oversubscribed dist || decide (ls.getD 256 0 = 0) then (.syntax_, r)
            else codes lit dist fuel r

/-- A stored DEFLATE block. -/
def stored (r : Run) : End × Run :=
  match take 32 { r with pos := ceilDiv r.pos 8 * 8 } with
  | none => (.short, r)
  | some (v, r) => if v % 65536 + v / 65536 ≠ 65535 then (.syntax_, r) else raw (v % 65536) r

/-- The blocks of a stream. -/
def blocks (fuel : Nat) : Nat → Run → End × Run
  | 0, r => (.short, r)
  | n + 1, r => match take 3 r with
    | none => (.short, r)
    | some (v, r) =>
      let (e, r) := if v / 2 = 0 then stored r else if v / 2 = 1 then codes fixedLit fixedDist fuel r
        else if v / 2 = 2 then dynamic fuel r else (.syntax_, r)
      if e ≠ .ok ∨ v % 2 = 1 then (e, r) else blocks fuel n r

/-- Decode a whole stream that should yield `len` bytes (R283 step 6): how it ends, and its bytes. -/
def run (bs : List Byte) (len : Nat) : End × List Byte :=
  let (e, r) := blocks (8 * bs.length + 1) (8 * bs.length + 1) ⟨bs.toArray, 0, #[], len⟩
  let e := if e = .ok ∧ len < r.out.size then .expand else if e = .ok ∧ r.out.size < len then .short else e
  (e, r.out.toList)

end Sys2Proof.Machine.Inflate
end

