-- ==== Sys2Proof/Machine/Lze.lean ====
section
/-! DEFINITION. The lossless engine: jobs, the container, the residual transform, compression and decompression of blocks, completion (R273 to R292). -/

namespace Sys2Proof.Machine

/-! ### Descriptors (R273) -/

namespace LzeJob

/-- The `n` bytes of the descriptor from byte `i` on, as a number. -/
def at_ (j : LzeJob) (i n : Nat) : Nat := ofBytesLE ((j.desc.drop i).take n)

def compress (j : LzeJob) : Bool := decide (j.at_ 0 1 = 1)
def hdr (j : LzeJob) : Bool := bit (j.at_ 1 1) 0
def cont (j : LzeJob) : Bool := bit (j.at_ 1 1) 1
def final (j : LzeJob) : Bool := bit (j.at_ 1 1) 2
def effort (j : LzeJob) : Nat := j.at_ 2 1
def transform (j : LzeJob) : Nat := j.at_ 3 1
def logBlock (j : LzeJob) : Nat := j.at_ 4 1
def outKind (j : LzeJob) : Nat := j.at_ 5 1
def src (j : LzeJob) : Nat := j.at_ 8 2
def dst (j : LzeJob) : Nat := j.at_ 10 2
def rowLen (j : LzeJob) : Nat := j.at_ 12 4
def srcOff (j : LzeJob) : Nat := j.at_ 16 8
def srcLen (j : LzeJob) : Nat := j.at_ 24 8
def dstOff (j : LzeJob) : Nat := j.at_ 32 8
def dstLen (j : LzeJob) : Nat := j.at_ 40 8
def first (j : LzeJob) : Nat := j.at_ 48 4
def nextBlock (j : LzeJob) : Nat := if j.last = 0 then j.first else j.last

end LzeJob

/-- A kind whose parcels carry rows (R22). -/
def kindHasRows (k : Nat) : Bool := decide (k = 1 ∨ k = 2 ∨ k = 3 ∨ k = 4 ∨ k = 7)

/-- Unit size of a transform mode (R282). -/
def unitSize (mode : Nat) : Nat := if mode = 2 then 4 else 2

/-- A descriptor that R275 refuses. -/
def badDesc (j : LzeJob) : Bool :=
  let op := j.at_ 0 1
  let mode := j.transform % 8
  decide ((op ≠ 1 ∧ op ≠ 2) ∨ j.srcLen = 0 ∨ j.dstOff % 64 ≠ 0) ||
  (decide (op = 1) && (decide (j.logBlock < 12 ∨ 18 < j.logBlock ∨ 3 ≤ mode) ||
    (decide (mode ≠ 0) && decide (j.rowLen = 0 ∨ j.rowLen % unitSize mode ≠ 0 ∨ 2 ^ j.logBlock % j.rowLen ≠ 0 ∨ j.srcLen % j.rowLen ≠ 0)))) ||
  (decide (op = 2) && (decide (j.srcOff % 64 ≠ 0 ∨ j.outKind = 0 ∨ j.outKind = 0xF) || (kindHasRows j.outKind && decide (j.rowLen = 0))))

/-! ### The residual transform (R282) -/

/-- Zig-zag of a residual modulo `2 ^ w`. -/
def zigzag (w : Nat) (d : Int) : Nat := let d := signed w (wrap w d); (if 0 ≤ d then 2 * d else -2 * d - 1).toNat

/-- Its inverse. -/
def unzigzag (z : Nat) : Int := if z % 2 = 0 then (z / 2 : Nat) else -(((z + 1) / 2 : Nat) : Int)

/-- The bytes of a row by their place in the unit: byte 0 of every unit, then byte 1, … -/
def planesOf (n : Nat) (units : List Nat) : List Byte :=
  ((List.range n).map fun k => units.map fun u => BitVec.ofNat 8 (u >>> (8 * k))).flatten

/-- One row transformed. -/
def transformRow (mode p : Nat) (row : List Byte) : List Byte :=
  let n := unitSize mode
  let w := if mode = 2 then 20 else 16
  let xs := ((List.range (row.length / n)).map fun i => ofBytesLE ((row.drop (n * i)).take n)).toArray
  let zs := (List.range xs.size).map fun i =>
    let x := xs.getD i 0
    let z := zigzag w (((x % 2 ^ w : Nat) : Int) - (if i < p then 0 else (xs.getD (i - p) 0 % 2 ^ w : Nat)))
    if mode = 2 then x / 2 ^ 20 * 2 ^ 20 + z else z
  planesOf n zs

/-- One row transformed back. -/
def inverseRow (mode p : Nat) (row : List Byte) : List Byte :=
  let n := unitSize mode
  let w := if mode = 2 then 20 else 16
  let c := row.length / n
  let a := row.toArray
  let zs := (List.range c).map fun i => ofBytesLE ((List.range n).map fun k => a.getD (k * c + i) 0)
  let xs := zs.foldl (fun (acc : Array Nat) z =>
    let i := acc.size
    let prev : Int := if i < p then 0 else (acc.getD (i - p) 0 % 2 ^ w : Nat)
    let x := wrap w (prev + unzigzag (z % 2 ^ w))
    acc.push (if mode = 2 then z / 2 ^ 20 * 2 ^ 20 + x else x)) #[]
  (xs.toList.map (bytesLE n)).flatten

/-- Rows of a block, each through `f`. -/
def onRows (f : List Byte → List Byte) (len : Nat) : Nat → List Byte → List Byte
  | 0, bs => bs
  | n + 1, bs => if bs = [] then [] else f (bs.take len) ++ onRows f len n (bs.drop len)

/-- A block's bytes through the transform a TRANSFORM byte names, or through its inverse. -/
def transformBlock (inverse : Bool) (t rowLen : Nat) (bs : List Byte) : List Byte :=
  let mode := t % 8
  let p := bits t 5 3 + 1
  if mode = 0 ∨ 3 ≤ mode ∨ rowLen = 0 then bs
  else onRows (if inverse then inverseRow mode p else transformRow mode p) rowLen bs.length bs

/-! ### The container (R278 to R281) -/

/-- The container header. -/
def containerHeader (j : LzeJob) : List Byte :=
  let total := if j.at_ 56 8 = 0 then j.srcLen else j.at_ 56 8
  let b := [0x4C, 0x5A, 0x43, 0x4E] ++ bytesLE 2 1 ++ zeros 2 ++ bytesLE 8 total ++ bytesLE 4 (ceilDiv total (2 ^ j.logBlock)) ++
    bytesLE 1 j.logBlock ++ bytesLE 1 j.transform ++ bytesLE 1 j.effort ++ zeros 1 ++ bytesLE 4 j.rowLen ++ zeros 32
  b ++ bytesLE 4 (crc32 b)

/-- A block of a compress job: header, payload and padding, and whether it is stored. -/
def compressedBlock (j : LzeJob) (index : Nat) (last : Bool) (raw : List Byte) : List Byte × Bool :=
  let e := min j.effort 5
  let packed := Config.deflate e (transformBlock false j.transform j.rowLen raw)
  let stored := decide (e = 0) || decide (raw.length ≤ packed.length)
  let payload := if stored then raw else packed
  let h := [0x4C, 0x5A, 0x42, 0x4B] ++ bytesLE 4 index ++ bytesLE 4 raw.length ++ bytesLE 4 payload.length ++
    bytesLE 1 (b01 stored + 2 * b01 last) ++ bytesLE 1 j.effort ++ bytesLE 1 j.logBlock ++ bytesLE 1 j.transform ++
    bytesLE 4 j.rowLen ++ bytesLE 4 (crc32 raw)
  (padTo (ceilDiv (32 + payload.length) 64 * 64) (h ++ bytesLE 4 (crc32 h) ++ payload), stored)

/-- Field of a header at byte `i`. -/
def hdrAt (h : List Byte) (i n : Nat) : Nat := ofBytesLE ((h.drop i).take n)

/-- A valid container header. -/
def isContainer (h : List Byte) : Bool :=
  decide (h.take 4 = [0x4C, 0x5A, 0x43, 0x4E]) && decide (hdrAt h 60 4 = crc32 (h.take 60))

/-- A valid block header. -/
def isBlock (h : List Byte) : Bool :=
  decide (h.take 4 = [0x4C, 0x5A, 0x42, 0x4B]) && decide (hdrAt h 28 4 = crc32 (h.take 28))

/-- What decoding a block's payload gives (R283 steps 6 and 7): an error code, or the raw bytes. -/
def decodePayload (h payload : List Byte) : Nat × List Byte :=
  let raw := hdrAt h 8 4
  let stored := bit (hdrAt h 16 1) 0
  let (code, bs) := if stored then (0, payload) else
    match Inflate.run payload raw with
    | (.ok, bs) => (0, transformBlock true (hdrAt h 19 1) (hdrAt h 20 4) bs)
    | (.expand, _) => (8, [])
    | (.short, _) => (9, [])
    | (.syntax_, _) => (6, [])
  if code ≠ 0 then (code, []) else if crc32 bs = hdrAt h 24 4 then (0, bs) else (10, [])

namespace State

def lzeJob (s : State) (q : Nat) : Option LzeJob := s.lze.jobs.get (fun _ => none) q
def setLzeJob (s : State) (q : Nat) (j : Option LzeJob) : State :=
  { s with lze := { s.lze with jobs := s.lze.jobs.set (fun _ => none) q j } }

def lzeQ (q : Nat) : Nat := 0x190010 + 4 * q
def lzeRaise (s : State) (m : Nat) : State := s.raise 0x190020 0x190024 14 m

/-- LZE_STATUS.STATE: BUSY while a job runs. -/
def lzeShow (s : State) : State :=
  if s.fld Reg.LZE_STATUS_STATE = 0 then s
  else s.setFld Reg.LZE_STATUS_STATE (if (s.lzeJob 0).isSome || (s.lzeJob 1).isSome then 2 else 1)

/-! ### Queues (R274) -/

def lzeLost (s : State) (q : Nat) : State :=
  (s.count (if q = 0 then Reg.LZE_QUEUE_LOST_0 else Reg.LZE_QUEUE_LOST_1)).lzeRaise 1

/-- LZE_PUSH_q: the entry acquires its descriptor berth. -/
def lzePush (s : State) (q h index : Nat) : State :=
  if 16 ≤ (s.queue (lzeQ q)).length then s.lzeLost q
  else
    let (s, ok) := s.acquire 14 h
    if ok then s.setQueue (lzeQ q) (s.queue (lzeQ q) ++ [⟨h, index, true⟩]) else s.lzeLost q

/-! ### Parcels (R286, R287) -/

/-- The manifest of a parcel of a job: `first` and `rows` as R286 and R287 number them. -/
def lzeMan (s : State) (j : LzeJob) (kind stratum plane first rows : Nat) : Manifest :=
  { (s.berth j.src).man with
    stream := bits (j.at_ 52 2) 11 0, domain := bits (j.at_ 54 1) 4 0, kind := kind, stratum := stratum, plane := plane
    firstRow := first % 65536, rows := rows, handle := j.dst }

/-- A write into the destination; false when R39 refuses it. -/
def lzeEmit (s : State) (j : LzeJob) (kind first rows ofs : Nat) (bs : List Byte) : State × Bool :=
  let (stratum, plane) := if kind = 9 then (0, 0) else
    (if kind = 1 ∨ kind = 5 then s.freeVal % 4 else 0, Config.freeNat (s.fresh + 1) % 16)
  let s := if kind = 9 then s else s.nextFree.nextFree
  let ok := decide (s.accessCause 14 j.dst ofs bs.length = 0)
  (s.emit 14 (s.lzeMan j kind stratum plane first rows) ofs bs, ok)

/-! ### Starting a job (R275, R279) -/

/-- LZE_JOB_START: the next job of queue `q`; entry handle 0 is a job of LOG, whose descriptor the entry carries. -/
def lzeStart (s : State) (q : Nat) : State :=
  if s.fld Reg.LZE_STATUS_STATE = 0 ∨ (s.lzeJob q).isSome then s
  else match s.popQ (lzeQ q) with
    | (s, none) => s
    | (s, some e) =>
      let c := if e.h = 0 then 0 else s.accessCause 14 e.h (64 * e.h2) 64
      let (s, desc) := if e.h = 0 then (s, bytesLE 64 e.h2) else s.readBerth 14 e.h (64 * e.h2) 64
      let j : LzeJob := { desc := desc, descH := e.h, got := if e.h = 0 then [] else [e.h] }
      if c ≠ 0 then (s.setLzeJob q (some { j with result := some 5 })).lzeShow
      else if badDesc j then (s.setLzeJob q (some { j with result := some 4 })).lzeShow
      else
        let (s, ok1) := s.acquire 14 j.src
        let (s, ok2) := s.acquire 14 j.dst
        let j := { j with got := j.got ++ (if ok1 then [j.src] else []) ++ (if ok2 then [j.dst] else []) }
        if !ok1 || !ok2 then (s.setLzeJob q (some { j with result := some 5 })).lzeShow
        else if j.compress && j.hdr then
          if j.dstLen < 64 then (s.setLzeJob q (some { j with result := some 1 })).lzeShow
          else
            let (s, ok) := s.lzeEmit j 9 0 0 j.dstOff (containerHeader j)
            let j := if ok then { j with produced := 64, seq := 1 } else { j with result := some 5 }
            (s.setLzeJob q (some j)).lzeShow
        else (s.setLzeJob q (some j)).lzeShow

/-! ### Blocks -/

/-- The next block of a compress job (R279 to R281). -/
def lzeCompress (s : State) (j : LzeJob) : State × LzeJob :=
  let n := 2 ^ j.logBlock
  let len := min n (j.srcLen - j.consumed)
  if s.accessCause 14 j.src (j.srcOff + j.consumed) len ≠ 0 then
    ((s.readBerth 14 j.src (j.srcOff + j.consumed) len).1, { j with result := some 5 })
  else
    let raw := s.peek j.src (j.srcOff + j.consumed) len
    let ends := decide (j.srcLen ≤ j.consumed + len)
    let (bs, stored) := compressedBlock j (j.first + j.done) (ends && j.final) raw
    if j.dstLen < j.produced + bs.length then (s, { j with result := some 1 })
    else
      let (s, ok) := s.lzeEmit j 9 j.seq 0 (j.dstOff + j.produced) bs
      if !ok then (s, { j with result := some 5 })
      else
        let s := s.count Reg.LZE_CNT_BLOCKS_BLOCKS
        let s := if stored then s.count Reg.LZE_CNT_STORED_STORED else s
        (s, { j with
          done := j.done + 1, last := j.first + j.done + 1, consumed := j.consumed + len
          produced := j.produced + bs.length, seq := j.seq + 1, result := if ends then some 0 else none })

/-- A block error of a decompress job (R285): counted, the first recorded, and with CONT = 0 the job's result. -/
def lzeError (s : State) (j : LzeJob) (code index : Nat) : State × LzeJob :=
  (s.lzeRaise 2, { j with
    errs := j.errs + 1, firstErr := if j.firstErr.isSome then j.firstErr else some (code, index)
    result := if j.cont then j.result else some code })

/-- A job that has consumed its source ends OK or DAMAGED (R285, R288). -/
def lzeFinish (j : LzeJob) : LzeJob :=
  if j.result.isNone ∧ j.srcLen ≤ j.consumed then { j with result := some (if j.errs = 0 then 0 else 11) } else j

/-- The source bytes of a job from where it stands. -/
def lzeAhead (s : State) (j : LzeJob) (n : Nat) : List Byte := s.peek j.src (j.srcOff + j.consumed) n

/-- Skip container headers, and after a header error scan to the next valid block header, in steps of 64 bytes (R283, R285). -/
def lzeScan (s : State) (scanning : Bool) : Nat → LzeJob → LzeJob
  | 0, j => j
  | n + 1, j =>
    if j.srcLen < j.consumed + 64 ∨ s.accessCause 14 j.src (j.srcOff + j.consumed) 64 ≠ 0 then j
    else
      let h := s.lzeAhead j 64
      if (!scanning && isContainer h) || (scanning && !isBlock h) then s.lzeScan scanning n { j with consumed := j.consumed + 64 }
      else j

/-- Write a block of a decompress job (R284, R286). -/
def lzePlace (s : State) (j : LzeJob) (index v : Nat) (raw : List Byte) : State × LzeJob × Bool :=
  let at_ := (index - j.first) * 2 ^ v
  let rows := kindHasRows j.outKind
  let (s, ok) := s.lzeEmit j j.outKind (if rows then at_ / j.rowLen else j.seq) (if rows then ceilDiv raw.length j.rowLen else 0)
    (j.dstOff + at_) (padTo (ceilDiv raw.length 64 * 64) raw)
  (s, { j with seq := j.seq + 1 }, ok)

/-- The next block of a decompress job (R283 to R285). -/
def lzeDecompress (s : State) (j : LzeJob) : State × LzeJob :=
  let j := s.lzeScan false (j.srcLen / 64 + 1) j
  let left := j.srcLen - j.consumed
  if left = 0 then (s, lzeFinish j)
  else if left < 64 then (s, { j with result := some 2 })
  else if s.accessCause 14 j.src (j.srcOff + j.consumed) 64 ≠ 0 then
    ((s.readBerth 14 j.src (j.srcOff + j.consumed) 64).1, { j with result := some 5 })
  else
    let h := s.lzeAhead j 32
    if !isBlock h then
      let (s, j') := s.lzeError j 6 j.nextBlock
      if j'.result.isSome then (s, j')
      else
        let j' := s.lzeScan true (j.srcLen / 64 + 1) { j' with consumed := j'.consumed + 64 }
        let j' := if j'.srcLen < j'.consumed + 64 then { j' with consumed := j'.srcLen } else j'
        (s, lzeFinish j')
    else
      let index := hdrAt h 4 4
      let raw := hdrAt h 8 4
      let plen := hdrAt h 12 4
      let v := hdrAt h 18 1
      let stored := bit (hdrAt h 16 1) 0
      let size := ceilDiv (32 + plen) 64 * 64
      let order := decide (index < j.first) || (decide (j.last ≠ 0) && decide (index < j.last))
      let (s, j1) := if !order && decide (j.last ≠ 0) && decide (j.last < index) then s.lzeError j 12 j.last else (s, j)
      if j1.result.isSome then (s, j1)
      else
        let bad := order || decide (raw = 0) || decide (2 ^ v < raw) || (stored && decide (plen ≠ raw))
        let guard := !stored && decide (s.fld Reg.LZE_CFG_GUARD * plen < raw)
        let at_ := (index - j1.first) * 2 ^ v
        let room := decide (index < j1.first) || decide (at_ + ceilDiv (min raw (2 ^ v)) 64 * 64 ≤ j1.dstLen)
        if !bad && decide (left < size) then (s, { j1 with result := some 2 })
        else if !bad && !guard && !room then (s, { j1 with result := some 1 })
        else if !bad && decide (s.accessCause 14 j1.src (j1.srcOff + j1.consumed) size ≠ 0) then
          ((s.readBerth 14 j1.src (j1.srcOff + j1.consumed) size).1, { j1 with result := some 5 })
        else
          let (code, out) := if bad then (6, []) else if guard then (7, [])
            else decodePayload h ((s.lzeAhead j1 (32 + plen)).drop 32)
          let (s, j2) := if code = 0 then (s, j1) else s.lzeError j1 code index
          if j2.result.isSome then (s, j2)
          else
            let fill := zeros (min raw (2 ^ v))
            let (s, j3, ok) := if index < j2.first ∨ !room then (s, j2, true)
              else s.lzePlace j2 index v (if code = 0 then out else fill)
            if !ok then (s, { j3 with result := some 5 })
            else
              let s := if code = 0 then s.count Reg.LZE_CNT_BLOCKS_BLOCKS else s
              (s, lzeFinish { j3 with
                done := j3.done + 1, last := max j3.last (index + 1), consumed := min j3.srcLen (j3.consumed + size)
                produced := if code = 0 then j3.produced + raw else j3.produced })

/-- LZE_BLOCK_DONE: the next block of queue `q`'s job in index order is finished and written (R276). -/
def lzeBlock (s : State) (q : Nat) : State :=
  match s.lzeJob q with
  | none => s
  | some j =>
    if j.result.isSome then s
    else
      let (s, j) := if j.compress then s.lzeCompress j else s.lzeDecompress j
      s.setLzeJob q (some j)

/-! ### Completion (R291) -/

def lzeDoneQ (s : State) (q : Nat) : List LzeDone := s.lze.done.get (fun _ => []) q
def setLzeDoneQ (s : State) (q : Nat) (l : List LzeDone) : State :=
  { s with lze := { s.lze with done := s.lze.done.set (fun _ => []) q l } }

/-- The completion entry of a job. -/
def lzeEntry (j : LzeJob) (result : Nat) : LzeDone :=
  { tag := j.at_ 6 2, firstErr := (j.firstErr.map (·.1)).getD 0, result := result, nextBlock := j.nextBlock,
    consumed := j.consumed, produced := j.produced, errs := j.errs, firstErrBlock := (j.firstErr.map (·.2)).getD 0 }

/-- A job with a result ends: releases, the completion entry, the docket; LOG's own jobs report to LOG. -/
def lzeEnd (s : State) (q : Nat) : State :=
  match s.lzeJob q with
  | none => s
  | some j => match j.result with
    | none => s
    | some r =>
      let s := releaseAll 14 j.got s
      let e := lzeEntry j r
      let s := (s.setLzeJob q none).lzeShow
      if j.descH = 0 then { s with lze := { s.lze with logDone := s.lze.logDone ++ [e] } }
      else
        let s := if (s.lzeDoneQ q).length < 16 then s.setLzeDoneQ q (s.lzeDoneQ q ++ [e])
          else (s.count (Reg.LZE_DONE_STAT_DROPPED q)).lzeRaise 4
        s.post 5 14 (0x8000 + q * 0x4000 + r) (e.tag + (e.nextBlock % 2 ^ 32) <<< 32)

/-- LZE_DONE_POP_q: 1 removes the head (R292). -/
def lzePop (s : State) (q : Nat) : State := s.setLzeDoneQ q (s.lzeDoneQ q).tail

/-- STOP ends running jobs at their last block boundary (R289). -/
def lzeStopJob (s : State) (q : Nat) : State :=
  match s.lzeJob q with
  | none => s
  | some j => s.setLzeJob q (some { j with result := some (j.result.getD 3) })

/-- LZE_CTRL.OP (R292): 1 RUN, 2 STOP. -/
def lzeOp (s : State) (op : Nat) : State :=
  if op = 1 then if s.fld Reg.LZE_STATUS_STATE = 0 then (s.setFld Reg.LZE_STATUS_STATE 1).lzeShow else s
  else if op = 2 then ((s.lzeStopJob 0).lzeStopJob 1).setFld Reg.LZE_STATUS_STATE 0
  else s

end State

/-! ### Commands -/

/-- LZE_JOB_START (R275). -/
def execLzeJobStart (q : Fin 2) (s : State) : Res := .next (s.lzeStart q)

/-- LZE_BLOCK_DONE (R276). -/
def execLzeBlockDone (q : Fin 2) (s : State) : Res := .next (s.lzeBlock q)

end Sys2Proof.Machine
end

