-- ==== Sys2Proof/Machine/Pcx.lean ====
section
/-! DEFINITION. Storage: PCIe ports and links, NVMe drives, striped volumes, Wharf chunks and recording jobs (R336 to R351, R422). -/

namespace Sys2Proof.Machine

/-! ### Headers (R343, R344) -/

/-- A volume header of member `i`. -/
def volHeader (x : Vol) (gen i : Nat) : List Byte :=
  let b := [0x57, 0x48, 0x52, 0x46] ++ bytesLE 2 1 ++ bytesLE 1 x.members.length ++ bytesLE 1 (Nat.log2 x.unit) ++ bytesLE 8 x.id ++
    bytesLE 8 gen ++ bytesLE 8 x.cap ++ bytesLE 8 x.tail ++ bytesLE 8 x.chunk ++ bytesLE 1 i ++ zeros 15 ++
    padTo 160 (x.serials.map (padTo 20)).flatten
  let b := padTo 4092 b
  b ++ bytesLE 4 (crc32 b)

/-- A valid volume header copy. -/
def isVolHeader (h : List Byte) : Bool :=
  decide (h.take 4 = [0x57, 0x48, 0x52, 0x46]) && decide (hdrAt h 4 2 = 1) && decide (hdrAt h 4092 4 = crc32 (h.take 4092))

/-- A valid chunk header at logical block `b` of volume `id` (R346); the chunk number is checked where one is expected. -/
def isChunk (h : List Byte) (id b : Nat) (chunk : Option Nat) : Bool :=
  decide (h.take 4 = [0x57, 0x48, 0x43, 0x4B]) && decide (hdrAt h 124 4 = crc32 (h.take 124)) && decide (hdrAt h 8 8 = id) &&
    decide (hdrAt h 24 8 = b) && (match chunk with | some n => decide (hdrAt h 16 8 = n) | none => true)

/-- The capacity of a volume in blocks (R342). -/
def volCapacity (d unit size : Nat) : Nat := d * unit * ((size - 256) / unit)

/-! ### Descriptors (R347) -/

namespace PcxJob

def at_ (j : PcxJob) (i n : Nat) : Nat := ofBytesLE ((j.desc.drop i).take n)
def type (j : PcxJob) : Nat := j.at_ 0 1
def flush (j : PcxJob) : Bool := bit (j.at_ 1 1) 0
/-- ENC, which PCX ignores on OPEN and CLOSE (R422). -/
def enc (j : PcxJob) : Bool := bit (j.at_ 1 1) 1 && decide (j.type = 2 ∨ j.type = 3 ∨ j.type = 9)
def isLast (j : PcxJob) : Bool := bit (j.at_ 1 1) 2
def tag (j : PcxJob) : Nat := j.at_ 2 2
def berth (j : PcxJob) : Nat := j.at_ 4 2
def clip (j : PcxJob) : Nat := j.at_ 8 4
def ofs (j : PcxJob) : Nat := j.at_ 16 8
def len (j : PcxJob) : Nat := j.at_ 24 8
def lba (j : PcxJob) : Nat := j.at_ 32 8
def isWrite (j : PcxJob) : Bool := decide (1 ≤ j.type ∧ j.type ≤ 4)

/-- A descriptor with a value that R347 does not give. -/
def bad (j : PcxJob) : Bool :=
  !(j.isWrite || decide (j.type = 8 ∨ j.type = 9)) || decide (8 ≤ j.at_ 1 1) || decide (j.at_ 6 2 ≠ 0) || decide (j.at_ 12 4 ≠ 0) ||
  decide (j.at_ 40 24 ≠ 0) || (decide (j.type ≠ 9) && decide (j.lba ≠ 0)) ||
  (decide (j.type ≠ 8) && decide (j.ofs % 64 ≠ 0 ∨ j.len = 0))

end PcxJob

/-- Give the waiting commands of a drive their issue while fewer than 64 are outstanding (R341). -/
def issueCmds (now : Nat) : Nat → List NvmeCmd → List NvmeCmd
  | _, [] => []
  | 0, cs => cs
  | room + 1, c :: cs => (if c.issued = 0 then { c with issued := now + 1 } else c) :: issueCmds now room cs

/-- Member and drive LBA of logical block `b` (R342). -/
def blockPlace (x : Vol) (b : Nat) : Nat × Nat :=
  let s := b / x.unit
  let d := max 1 x.members.length
  (x.members.getD (s % d) 0, 256 + s / d * x.unit + b % x.unit)

namespace State

def drive (s : State) (d : Nat) : Drive := s.pcx.drives.get (fun _ => {}) d
def setDrive (s : State) (d : Nat) (x : Drive) : State := { s with pcx := { s.pcx with drives := s.pcx.drives.set (fun _ => {}) d x } }
def vol (s : State) (v : Nat) : Vol := s.pcx.vols.get (fun _ => {}) v
def setVol (s : State) (v : Nat) (x : Vol) : State := { s with pcx := { s.pcx with vols := s.pcx.vols.set (fun _ => {}) v x } }
def pcxPort (s : State) (p : Nat) : PcxPort := s.pcx.ports.get (fun _ => {}) p
def setPcxPort (s : State) (p : Nat) (x : PcxPort) : State := { s with pcx := { s.pcx with ports := s.pcx.ports.set (fun _ => {}) p x } }

def pcxRaise (s : State) (p m : Nat) : State :=
  s.raise (Reg.PCX_EVENT_JOB_FAIL p).addr (Reg.PCX_EVENT_EN_EN p).addr (16 + p) m

def pcxOn (s : State) (p : Nat) : Bool := decide (s.fld (Reg.PCX_STATUS_STATE p) = 1)
def isEndpoint (s : State) (p : Nat) : Bool := decide (s.fld (Reg.PCX_CTRL_MODE p) = 1)

/-! ### Drives -/

def drvState (s : State) (d : Nat) : Nat := s.fld (Reg.PCX_DRV_STATUS_STATE d)
def setDrvState (s : State) (d v : Nat) : State := s.setFld (Reg.PCX_DRV_STATUS_STATE d) v
def drvResult (s : State) (d r : Nat) : State := s.setFld (Reg.PCX_DRV_STATUS_RESULT d) r

/-- The 20-byte serial number of a drive. -/
def drvSerial (s : State) (d : Nat) : List Byte :=
  bytesLE 4 (s.fld (Reg.PCX_DRV_SERIAL_0 d)) ++ bytesLE 4 (s.fld (Reg.PCX_DRV_SERIAL_1 d)) ++ bytesLE 4 (s.fld (Reg.PCX_DRV_SERIAL_2 d)) ++
    bytesLE 4 (s.fld (Reg.PCX_DRV_SERIAL_3 d)) ++ bytesLE 4 (s.fld (Reg.PCX_DRV_SERIAL_4 d))

/-- The drive's namespace in 4 KiB blocks. -/
def drvBlocks (s : State) (d : Nat) : Nat := s.fld2 (Reg.PCX_DRV_BLOCKS_LO d) (Reg.PCX_DRV_BLOCKS_HI d)

/-- Drive `d` belongs to a mounted volume. -/
def drvMember (s : State) (d : Nat) : Bool :=
  (List.range 4).any fun v => decide (s.fld (Reg.PCX_VOL_STATUS_STATE v) = 2) && decide (d ∈ (s.vol v).members)

/-- A drive becomes FAULT (R337): its ATTACH or DETACH ends. -/
def driveFault (s : State) (d : Nat) : State :=
  let x := s.drive d
  let s := s.setDrive d { x with attaching := false, detaching := false, plan := [], cmds := x.cmds.filter fun (c : NvmeCmd) => c.vol.isSome }
  (s.setDrvState d 4).pcxRaise x.port 4

/-- Commands join a drive's list. -/
def addCmds (s : State) (d : Nat) (cs : List NvmeCmd) : State :=
  let x := s.drive d
  s.setDrive d { x with cmds := issueCmds s.now 64 (x.cmds ++ cs) }

/-- The next admin command of an ATTACH or DETACH, or its end (R340). -/
def driveNext (s : State) (d : Nat) : State :=
  let x := s.drive d
  match x.plan with
  | op :: rest => (s.setDrive d { x with plan := rest }).addCmds d [{ op := op, drive := d }]
  | [] =>
    if x.attaching then ((s.setDrive d { x with attaching := false }).setDrvState d 2).drvResult d 0
    else if x.detaching then ((s.setDrive d { x with detaching := false }).setDrvState d 0).drvResult d 0
    else s

/-- ATTACH or DETACH ends with result `r` and the drive faults (log entry 16). -/
def driveFail (s : State) (d r : Nat) : State := (s.drvResult d r).driveFault d

/-- PCX_DRV_CTRL.OP (R340): 1 ATTACH, 2 DETACH. -/
def driveOp (s : State) (d op : Nat) : State :=
  let x := s.drive d
  let busy := x.attaching || x.detaching || s.drvMember d
  if op = 1 then
    if busy then s.drvResult d 1
    else
      let y : Drive := {
        port := s.fld (Reg.PCX_DRV_CTRL_PORT d), link := s.fld (Reg.PCX_DRV_CTRL_LINK d), attaching := true
        plan := [.identifyCtrl, .identifyNs, .getCache, .setQueues, .createCq, .createSq] }
      ((s.setDrive d y).setDrvState d 1).driveNext d
  else if op = 2 then
    if busy then s.drvResult d 1
    else if s.drvState d = 0 then s
    else (s.setDrive d { x with detaching := true, plan := [.deleteSq, .deleteCq] }).driveNext d
  else s

/-- What an admin command returned (R340). -/
def adminDone (s : State) (d : Nat) (data : NvmeData) : State :=
  match data with
  | .ctrl serial mdts =>
    let n := serial.toNat
    let s := (((s.setFld (Reg.PCX_DRV_SERIAL_0 d) (bits n 31 0)).setFld (Reg.PCX_DRV_SERIAL_1 d) (bits n 63 32)).setFld
      (Reg.PCX_DRV_SERIAL_2 d) (bits n 95 64)).setFld (Reg.PCX_DRV_SERIAL_3 d) (bits n 127 96)
    ((s.setFld (Reg.PCX_DRV_SERIAL_4 d) (bits n 159 128)).setFld (Reg.PCX_DRV_MDTS d) mdts.toNat).driveNext d
  | .ns blocks plain =>
    let s := s.setFld2 (Reg.PCX_DRV_BLOCKS_LO d) (Reg.PCX_DRV_BLOCKS_HI d) blocks.toNat
    if plain then s.driveNext d else s.driveFail d 11
  | .cache present => (s.setFld (Reg.PCX_DRV_STATUS_VWC d) (b01 present)).driveNext d
  | _ => s.driveNext d

/-! ### Ports and links -/

/-- Lanes of link `k` under a bifurcation; 0 where the port has no such link (R336). -/
def linkLanes (bifur k : Nat) : Nat :=
  if bifur = 1 then (if k = 0 ∨ k = 2 then 8 else 0) else if bifur = 2 then (if k < 4 then 4 else 0) else if k = 0 then 16 else 0

/-- The largest PCIe width that is at most `n`. -/
def pcieWidth (n : Nat) : Nat := if 16 ≤ n then 16 else if 8 ≤ n then 8 else if 4 ≤ n then 4 else if 2 ≤ n then 2 else 1

/-- AER errors a root port counts (R337). -/
def aer (s : State) (p corr uncorr : Nat) : State :=
  if s.isEndpoint p then s else (s.count (Reg.PCX_AER_CORR p) corr).count (Reg.PCX_AER_UNCORR p) uncorr

/-- Drives on link `k` of port `p` become FAULT. -/
def faultDrives (p k : Nat) : List Nat → State → State
  | [], s => s
  | d :: ds, s =>
    let x := s.drive d
    faultDrives p k ds (if s.drvState d ≠ 0 ∧ x.port = p ∧ x.link = k then s.driveFault d else s)

/-- Link `k` of port `p` goes down (R337). -/
def linkDown (s : State) (p k : Nat) : State :=
  if !s.flag (Reg.PCX_LINK_UP p k) then s
  else
    let s := ((s.setFld (Reg.PCX_LINK_UP p k) 0).setFld (Reg.PCX_LINK_GEN p k) 0).setFld (Reg.PCX_LINK_WIDTH p k) 0
    let s := s.setFld (Reg.PCX_LINK_REVERSED p k) 0
    let s := s.setFld (Reg.PCX_STATUS_LINKS_UP p) (putBits (s.fld (Reg.PCX_STATUS_LINKS_UP p)) k k 0)
    faultDrives p k (List.range 8) (s.pcxRaise p 2)

/-- MSI-X vectors wait in PCX_EP_IRQ until an endpoint's link carries them (R338). -/
def sendIrq (s : State) (p : Nat) : State :=
  let v := s.fld (Reg.PCX_EP_IRQ_VECTORS p)
  if s.pcxOn p && s.isEndpoint p && s.flag (Reg.PCX_LINK_UP p 0) && decide (v ≠ 0) then
    (s.setPcxPort p { s.pcxPort p with sent := v }).setFld (Reg.PCX_EP_IRQ_VECTORS p) 0
  else s

/-- Link `k` of port `p` finishes training (R337). -/
def linkUp (s : State) (p k gen width : Nat) (rev : Bool) : State :=
  let lanes := linkLanes (s.fld (Reg.PCX_CTRL_BIFUR p)) k
  if !s.pcxOn p || decide (lanes = 0) || s.flag (Reg.PCX_LINK_UP p k) then s
  else
    let g := max 1 (min gen (min 5 (s.fld (Reg.PCX_CTRL_MAX_GEN p))))
    let s := ((s.setFld (Reg.PCX_LINK_UP p k) 1).setFld (Reg.PCX_LINK_GEN p k) g).setFld (Reg.PCX_LINK_WIDTH p k) (pcieWidth (min width lanes))
    let s := s.setFld (Reg.PCX_LINK_REVERSED p k) (b01 rev)
    (s.setFld (Reg.PCX_STATUS_LINKS_UP p) (putBits (s.fld (Reg.PCX_STATUS_LINKS_UP p)) k k 1)).sendIrq p

/-- PCX_CTRL.OP (R336, R499): 1 ENABLE, 2 DISABLE. -/
def pcxOp (s : State) (p op : Nat) : State :=
  if op = 1 then
    if s.pcxOn p then s
    else if s.isEndpoint p && (decide (s.fld (Reg.PCX_CTRL_BIFUR p) ≠ 0) || (s.pcxOn (1 - p) && s.isEndpoint (1 - p))) then s.pcxRaise p 1
    else (s.setFld (Reg.PCX_STATUS_STATE p) 1).setPcxPort p { s.pcxPort p with subsys := s.word Reg.SYS_SUBSYS_ID.addr }
  else if op = 2 then ((((s.linkDown p 0).linkDown p 1).linkDown p 2).linkDown p 3).setFld (Reg.PCX_STATUS_STATE p) 0
  else s

/-- A write of PCX_EP_WIN_w (R338): the old berth is released and the new one acquired. -/
def epWindow (s : State) (p w old new : Nat) : State :=
  if old = new then s
  else
    let x := s.pcxPort p
    let s := if w ∈ x.wins then s.release (16 + p) old else s
    let (s, ok) := if new = 0 then (s, false) else s.acquire (16 + p) new
    let rest := x.wins.filter (· ≠ w)
    s.setPcxPort p { s.pcxPort p with wins := if ok then rest ++ [w] else rest }

/-- A write of PCX_EP_IRQ (R338). -/
def epIrq (s : State) (p v : Nat) : State :=
  (s.setFld (Reg.PCX_EP_IRQ_VECTORS p) (s.fld (Reg.PCX_EP_IRQ_VECTORS p) ||| v)).sendIrq p

/-- The berth and offset a BAR2 offset reaches (R338). -/
def epTarget (s : State) (p ofs : Nat) : Nat × Nat :=
  let win := 2 ^ (clampN 20 36 (s.fld (Reg.PCX_EP_BAR2_SIZE_LOG2 p)) - 2)
  (s.fld (Reg.PCX_EP_WIN_HANDLE p (ofs / win % 4)), ofs % win)

/-- A host access to BAR2 (R338, R39). -/
def hostBar2 (s : State) (p : Nat) : HostAccess → State
  | .readBar2 ofs len =>
    let (h, o) := s.epTarget p ofs
    let (s, bs) := s.readBerth (16 + p) h o len
    s.setPcxPort p { s.pcxPort p with data := bs }
  | .writeBar2 ofs bs =>
    let (h, o) := s.epTarget p ofs
    s.writeBerth (16 + p) h o bs
  | _ => s

/-! ### Transfers of a volume -/

def volState (s : State) (v : Nat) : Nat := s.fld (Reg.PCX_VOL_STATUS_STATE v)
def setVolState (s : State) (v n : Nat) : State := s.setFld (Reg.PCX_VOL_STATUS_STATE v) n
def volResult (s : State) (v r : Nat) : State := s.setFld (Reg.PCX_VOL_STATUS_RESULT v) r
def volHome (s : State) (v : Nat) : Nat := s.fld (Reg.PCX_VOL_CTRL_HOME v)
def volUnit (s : State) (v : Nat) : Nat := 16 + s.volHome v
def volQ (v : Nat) : Nat := (Reg.PCX_VOL_PUSH_HANDLE v).addr

/-- Commands that move `n` blocks at logical block `b`, each within one stripe unit and the drive's largest transfer (R341, R342). -/
def transfer (s : State) (v : Nat) (x : Vol) (op : NvmeOp) : Nat → Nat → Nat → List Byte → Nat → List NvmeCmd
  | 0, _, _, _, _ => []
  | fuel + 1, b, n, bs, key =>
    if n = 0 then []
    else
      let (d, lba) := blockPlace x b
      let lim := s.fld (Reg.PCX_DRV_MDTS d) / 4096
      let k := min n (min (x.unit - b % x.unit) (if lim = 0 then x.unit else lim))
      { op := op, drive := d, lba := lba, blocks := k, data := bs.take (4096 * k), vol := some v, key := key } ::
        transfer s v x op fuel (b + k) (n - k) (bs.drop (4096 * k)) (key + 1)

/-- Flush to every member with a volatile cache (R348). -/
def flushCmds (s : State) (v : Nat) (x : Vol) : List NvmeCmd :=
  (x.members.filter fun d => s.flag (Reg.PCX_DRV_STATUS_VWC d)).map fun d => { op := .flush, drive := d, vol := some v }

/-- A header copy written to every member. -/
def headerCmds (v : Nat) (x : Vol) (gen copy : Nat) (fua : Bool) : List NvmeCmd :=
  (List.range x.members.length).map fun i =>
    { op := .write, drive := x.members.getD i 0, lba := copy, blocks := 1, fua := fua, data := volHeader x gen i, vol := some v }

def volPending (s : State) (v : Nat) : Bool := (List.range 8).any fun d => (s.drive d).cmds.any fun (c : NvmeCmd) => decide (c.vol = some v)

/-- Issue the commands of a phase. -/
def issueAll : List NvmeCmd → State → State
  | [], s => s
  | c :: cs, s => issueAll cs (s.addCmds c.drive [c])

def finishVol (s : State) (v r : Nat) : State := s.setVol v { s.vol v with result := some r, phases := [] }

/-- Remove the commands of volume `v` from the drives. -/
def dropCmds (v : Nat) : List Nat → State → State
  | [], s => s
  | d :: ds, s =>
    let x := s.drive d
    dropCmds v ds (s.setDrive d { x with cmds := issueCmds s.now 64 (x.cmds.filter fun (c : NvmeCmd) => !decide (c.vol = some v)) })

/-- The work of volume `v` fails. -/
def volFail (s : State) (v r : Nat) : State := (dropCmds v (List.range 8) s).finishVol v r

/-! ### MOUNT (R346) -/

/-- The valid copy with the highest generation among `hs`, with its key. -/
def bestCopy (hs : List (Nat × List Byte)) : Option (Nat × List Byte) :=
  (hs.filter fun e => isVolHeader e.2).foldl (fun acc e => match acc with
    | none => some e
    | some a => if hdrAt a.2 16 8 < hdrAt e.2 16 8 then some e else some a) none

/-- Two headers of one volume agree in all that its members share (log entry 16). -/
def sameVolume (a b : List Byte) : Bool :=
  decide ((a.take 16).drop 4 = (b.take 16).drop 4) && decide (hdrAt a 24 8 = hdrAt b 24 8) && decide ((a.take 224).drop 64 = (b.take 224).drop 64)

/-- The READY drive whose serial number is `n`. -/
def driveOf (s : State) (n : List Byte) : Option Nat :=
  (List.range 8).find? fun d => decide (s.drvState d = 2) && decide (s.drvSerial d = n)

/-- Read the header block at the tail. -/
def scanTail (s : State) (v : Nat) : State :=
  let x := s.vol v
  if x.cap ≤ x.tail then s.finishVol v 0 else issueAll (s.transfer v x .read 1 x.tail 1 [] 0) (s.setVol v { x with got := [] })

/-- The header copies of every READY drive have been read. -/
def mountChoose (s : State) (v : Nat) : State :=
  let x := s.vol v
  match bestCopy x.got with
  | none => s.finishVol v 3
  | some (key, h) =>
    let n := hdrAt h 6 1
    let serials := (List.range n).map fun i => (h.drop (64 + 20 * i)).take 20
    let drives := serials.map s.driveOf
    if n = 0 ∨ 8 < n ∨ hdrAt h 7 1 < 4 ∨ 10 < hdrAt h 7 1 then s.finishVol v 3
    else if drives.any Option.isNone then s.finishVol v 2
    else
      let ds := drives.map (·.getD 0)
      let agrees := (List.range n).all fun i =>
        match bestCopy (x.got.filter fun e => decide (e.1 / 2 = ds.getD i 0)) with
        | some (_, g) => sameVolume h g && decide (hdrAt g 48 1 = i)
        | none => false
      let other := x.got.get (fun _ => []) (key ^^^ 1)
      if !agrees then s.finishVol v 3
      else (s.setVol v { x with
        work := .mountScan, id := hdrAt h 8 8, unit := 2 ^ hdrAt h 7 1, members := ds, serials := serials, cap := hdrAt h 24 8
        tail := hdrAt h 32 8, chunk := hdrAt h 40 8, gen := hdrAt h 16 8, seqs := []
        copy := if isVolHeader other && decide (hdrAt other 16 8 = hdrAt h 16 8) then 1 else key % 2 }).scanTail v

/-- The header block at the tail has been read. -/
def mountStep (s : State) (v : Nat) : State :=
  let x := s.vol v
  let h := x.got.get (fun _ => []) 0
  if isChunk h x.id x.tail (some x.chunk) then (s.setVol v { x with tail := x.tail + hdrAt h 48 8, chunk := x.chunk + 1 }).scanTail v
  else s.finishVol v 0

/-! ### Stages -/

/-- A READ job's header has been read (R350): check it, then read the payload. -/
def readPlan (s : State) (v : Nat) : State :=
  let x := s.vol v
  match x.job with
  | none => s.finishVol v 0
  | some j =>
    let h := x.got.get (fun _ => []) 0
    if !isChunk h x.id j.lba none then s.finishVol v 10
    else
      let n := ceilDiv (min j.len (hdrAt h 40 8)) 4096
      let s := s.setVol v { x with work := .readPayload, got := [], job := some { j with hdr := h } }
      if n = 0 then s.finishVol v 0 else issueAll (s.transfer v x .read n (j.lba + 1) n [] 0) s

/-- The next non-empty phase, and those after it. -/
def nextPhase : List (List NvmeCmd) → Option (List NvmeCmd × List (List NvmeCmd))
  | [] => none
  | [] :: ps => nextPhase ps
  | p :: ps => some (p, ps)

/-- Volume `v` goes on when none of its commands is outstanding. -/
def volNext (s : State) (v : Nat) : State :=
  let x := s.vol v
  if x.result.isSome || s.volPending v then s
  else match nextPhase x.phases with
    | some (p, ps) => issueAll p (s.setVol v { x with phases := ps })
    | none => match x.work with
      | .idle => s
      | .mountHeaders => s.mountChoose v
      | .mountScan => s.mountStep v
      | .readHeader => s.readPlan v
      | _ => s.finishVol v 0

/-! ### Operations (R346) -/

/-- PCX_VOL_CTRL.OP: 1 FORMAT, 2 MOUNT, 3 UNMOUNT. -/
def volOp (s : State) (v op : Nat) : State :=
  let x := s.vol v
  let st := s.volState v
  if op = 0 ∨ 3 < op then s
  else if st = 1 then s.volResult v 1
  else if op = 3 then
    if st ≠ 2 then s.volResult v 12
    else if x.work ≠ .idle ∨ s.queue (volQ v) ≠ [] then s.volResult v 1
    else (s.setVol v { x with work := .unmount, result := some 0 }).setVolState v 1
  else if st = 2 ∨ x.work ≠ .idle then s.volResult v 1
  else if op = 2 then
    let reads := ((List.range 8).filter fun d => decide (s.drvState d = 2)).map fun d =>
      (List.range 2).map fun c => ({ op := .read, drive := d, lba := c, blocks := 1, vol := some v, key := 2 * d + c } : NvmeCmd)
    ((s.setVol v { x with work := .mountHeaders, result := none, got := [], phases := [reads.flatten] }).setVolState v 1).volNext v
  else
    let ds := onesBelow 8 (s.fld (Reg.PCX_VOL_CTRL_DRIVES v))
    let s := s.setVolState v 1
    if ds = [] ∨ ds.any fun d => decide (s.drvState d ≠ 2) then s.setVol v { x with work := .format, result := some 2 }
    else
      let unit := 2 ^ clampN 4 10 (s.fld (Reg.PCX_VOL_CTRL_STRIPE_LOG2 v))
      let size := ds.foldl (fun m d => min m (s.drvBlocks d)) (s.drvBlocks (ds.headD 0))
      let y : Vol := { x with
        work := .format, result := none, got := [], id := (Config.trng s.fresh).toNat, unit := unit, members := ds
        serials := ds.map s.drvSerial, cap := volCapacity ds.length unit size, tail := 0, chunk := 0, gen := 1, copy := 1, seqs := [] }
      let wipe := ds.map fun d => ({ op := .deallocate, drive := d, blocks := s.drvBlocks d, vol := some v } : NvmeCmd)
      (s.nextFree.setVol v { y with phases := [wipe, headerCmds v y 1 0 false ++ headerCmds v y 1 1 false] }).volNext v

/-- The registers that report a volume (R356). -/
def showVol (s : State) (v : Nat) : State :=
  let x := s.vol v
  let s := (s.setFld2 (Reg.PCX_VOL_ID_LO v) (Reg.PCX_VOL_ID_HI v) x.id).setFld2 (Reg.PCX_VOL_TAIL_LO v) (Reg.PCX_VOL_TAIL_HI v) x.tail
  let s := (s.setFld2 (Reg.PCX_VOL_CHUNK_LO v) (Reg.PCX_VOL_CHUNK_HI v) x.chunk).setFld2 (Reg.PCX_VOL_CAP_LO v) (Reg.PCX_VOL_CAP_HI v) x.cap
  let map := ((List.range x.members.length).map fun i => (x.members.getD i 0) <<< (4 * i)).foldl (· + ·) 0
  ((s.setFld (Reg.PCX_VOL_GEN_GEN v) x.gen).setFld (Reg.PCX_VOL_MAP_MAP v) map).setFld (Reg.PCX_VOL_STATUS_D v) x.members.length

/-- Drives among `ds` in state `a` change to state `b`. -/
def moveDrives (a b : Nat) : List Nat → State → State
  | [], s => s
  | d :: ds, s => moveDrives a b ds (if s.drvState d = a then s.setDrvState d b else s)

/-- VOL_OP_DONE: the operation has its result and leaves BUSY. -/
def volOpDone (s : State) (v : Nat) : State :=
  let x := s.vol v
  match x.result with
  | none => s
  | some r =>
    let done := (s.setVol v { x with work := .idle, result := none, got := [] }).volResult v r
    match x.work with
    | .format => (if r = 0 then done.showVol v else done).setVolState v 0
    | .mountHeaders | .mountScan =>
      if r = 0 then (moveDrives 2 3 x.members (done.showVol v)).setVolState v 2 else done.setVolState v 0
    | .unmount => (moveDrives 3 2 x.members done).setVolState v 0
    | _ => s

/-! ### Jobs -/

/-- PCX_VOL_PUSH (R347, R274): the entry acquires its descriptor berth. -/
def volPush (s : State) (v h index : Nat) : State :=
  if 32 ≤ (s.queue (volQ v)).length then s.count (Reg.PCX_VOL_QUEUE_LOST v)
  else
    let (s, ok) := s.acquire (s.volUnit v) h
    if ok then s.setQueue (volQ v) (s.queue (volQ v) ++ [⟨h, index, true⟩]) else s.count (Reg.PCX_VOL_QUEUE_LOST v)

/-- The key of an open clip (R420). -/
def clipKey (s : State) (clip : Nat) : Option (List Byte) := (s.sec.clips.find? fun e => decide (e.1 = clip)).map (·.2)

/-- The sequence of the next chunk within a clip; free for a clip whose OPEN the volume has not seen (R344, log entry 16). -/
def clipSeq (s : State) (x : Vol) (j : PcxJob) : Nat :=
  if j.type = 1 then 0 else match x.seqs.get (fun _ => 0) j.clip with
    | 0 => s.freeVal % 2 ^ 32
    | n + 1 => n

/-- The chunk of a write job: header block and stored payload (R344, R422). -/
def chunkOf (s : State) (x : Vol) (j : PcxJob) (seq : Nat) (payload : List Byte) : List Byte × List Byte :=
  let head := [0x57, 0x48, 0x43, 0x4B] ++ bytesLE 2 1 ++ bytesLE 1 j.type ++ bytesLE 1 (b01 j.enc + 2 * b01 j.isLast) ++ bytesLE 8 x.id ++
    bytesLE 8 x.chunk ++ bytesLE 8 x.tail ++ bytesLE 4 j.clip ++ bytesLE 4 seq ++ bytesLE 8 payload.length ++
    bytesLE 8 (1 + ceilDiv payload.length 4096)
  let man := bytesLE 32 (s.berth j.berth).man.toNat
  let nonce := bytesLE 4 j.clip ++ bytesLE 4 seq ++ zeros 4
  let (body, tag) := if j.enc then gcmSeal ((s.clipKey j.clip).getD []) nonce (head ++ man) payload else (payload, zeros 16)
  let b := head ++ bytesLE 4 (crc32 body) ++ zeros 4 ++ man ++ tag ++ (if j.enc then nonce else zeros 12)
  (padTo 4096 (b ++ bytesLE 4 (crc32 b)), body)

/-- A write job's commands: payload, then header, then Flush (R348). -/
def planWrite (s : State) (v : Nat) (j : PcxJob) : State :=
  let x := s.vol v
  let u := s.volUnit v
  let n := ceilDiv j.len 4096
  if s.accessCause u j.berth j.ofs j.len ≠ 0 then (s.readBerth u j.berth j.ofs j.len).1.finishVol v 8
  else if x.cap < x.tail + 1 + n then s.finishVol v 4
  else
    let seq := s.clipSeq x j
    let (hdr, body) := s.chunkOf x j seq (s.peek j.berth j.ofs j.len)
    let y := { x with
      work := .write, job := some { j with block := x.tail, hdr := hdr }
      phases := [s.transfer v x .write n (x.tail + 1) n (padTo (4096 * n) body) 0, s.transfer v x .write 1 x.tail 1 hdr 0,
        if j.flush then s.flushCmds v x else []] }
    (s.nextFree.setVol v y).volNext v

/-- PCX_JOB_START: the volume's next job (R347, R348). -/
def jobStart (s : State) (v : Nat) : State :=
  if (s.vol v).work ≠ .idle then s
  else match s.popQ (volQ v) with
    | (s, none) => s
    | (s, some e) =>
      let u := s.volUnit v
      let c := s.accessCause u e.h (64 * e.h2) 64
      let (s, desc) := s.readBerth u e.h (64 * e.h2) 64
      let j : PcxJob := { desc := desc, got := [e.h] }
      let x := s.vol v
      let put := fun (s : State) (w : VolWork) (j : PcxJob) (r : Option Nat) =>
        s.setVol v { s.vol v with work := w, job := some j, result := r, got := [], phases := [] }
      if c ≠ 0 then put s .write j (some 8)
      else if j.bad then put s .write j (some 7)
      else if s.volState v ≠ 2 then put s .write j (some 12)
      else if j.enc && decide ((s.clipKey j.clip).isNone ∨ 2 ^ 36 - 32 < j.len ∨ s.replayMode) then put s .write j (some 7)
      else if j.type = 8 then
        if s.replaying then put s .checkpoint j (some 0)
        else
          let s := put s .checkpoint j none
          (s.setVol v { s.vol v with phases := [s.flushCmds v x, headerCmds v x (x.gen + 1) (1 - x.copy) true] }).volNext v
      else
        let (s, ok) := s.acquire u j.berth
        let j := if ok then { j with got := j.got ++ [j.berth] } else j
        if !ok then put s .write j (some 8)
        else if j.type = 9 then
          let s := put s .readHeader j none
          (s.setVol v { s.vol v with phases := [s.transfer v x .read 1 j.lba 1 [] 0] }).volNext v
        else if s.replaying then put s .write j (some 0)
        else (put s .write j none).planWrite v j

/-- Parcels of a READ job (R350, R23): one parcel keeps the stored rows; where a payload takes several, the numbering of rows is free (log entry 16). -/
def readParcels (u : Nat) (m : Manifest) : Nat → Nat → Nat → List Byte → State → State
  | 0, _, _, _, s => s
  | fuel + 1, seq, ofs, bs, s =>
    if bs = [] then s
    else
      let one := decide (seq = 0 ∧ bs.length ≤ 2 ^ 20)
      let rows := kindHasRows m.kind
      let m' := if !rows then { m with firstRow := seq, rows := 0 }
        else if one then m
        else { m with firstRow := s.freeVal % 65536, rows := Config.freeNat (s.fresh + 1) % 65536 }
      let s := if rows && !one then s.nextFree.nextFree else s
      readParcels u m fuel (seq + 1) (ofs + 2 ^ 20) (bs.drop (2 ^ 20)) (s.emit u m' ofs (bs.take (2 ^ 20)))

/-- A READ job has its payload (R350, R422): decrypt, emit, check. Its result and the bytes written. -/
def readEnd (s : State) (v : Nat) (j : PcxJob) : State × Nat × Nat :=
  let x := s.vol v
  let u := s.volUnit v
  let stored := ((x.got.map (·.2)).flatten).take (min j.len (hdrAt j.hdr 40 8))
  let whole := decide (hdrAt j.hdr 40 8 ≤ j.len)
  let key := (s.clipKey j.clip).getD []
  let (plain, tagOk) := if j.enc then
      gcmOpen key ((j.hdr.drop 112).take 12) (j.hdr.take 56 ++ (j.hdr.drop 64).take 32) stored ((j.hdr.drop 96).take 16)
    else (stored, true)
  let ok := decide (s.accessCause u j.berth j.ofs plain.length = 0)
  let m : Manifest := { Manifest.ofNat (ofBytesLE ((j.hdr.drop 64).take 32)) with handle := j.berth }
  let s := if ok then readParcels u m (plain.length / 2 ^ 20 + 1) 0 j.ofs plain s else (s.readBerth u j.berth j.ofs plain.length).1
  if !ok then (s, 8, 0)
  else if whole && !tagOk then (s.raise 0x40020 0x40024 21 8, 10, plain.length)
  else if whole && decide (crc32 stored ≠ hdrAt j.hdr 56 4) then (s, 10, plain.length)
  else (s, 0, plain.length)

/-- A volume in ERROR ends every queued job with ABORTED (R349). -/
def abortJobs (v : Nat) : List QEnt → State → State
  | [], s => s
  | e :: es, s =>
    let u := s.volUnit v
    let tag := ofBytesLE (s.peek e.h (64 * e.h2 + 2) 2)
    let s := (s.release u e.h).pcxRaise (s.volHome v) 8
    abortJobs v es (s.post 5 u (0x8000 + v * 0x1000 + 9) tag)

/-- READ records and their comparison in replay (R432, R441). -/
def readRec (s : State) (v r block n crc : Nat) : State :=
  let s := s.logRec 0x0B v r [block, n, crc]
  if !s.replaying then s
  else match s.log.replay.find? fun (e : LogRec) => decide (e.typ = 0x0B) && decide (e.src = v) with
    | none => s
    | some e =>
      let s := { s with log := { s.log with replay := s.log.replay.erase e } }
      if e.body.getD 1 0 = n ∧ e.body.getD 2 0 = crc then s else s.diverge s.tide 4 v 0 0

/-- PCX_JOB_END (R348 to R350). -/
def jobEnd (s : State) (v : Nat) : State :=
  let x := s.vol v
  match x.job, x.result with
  | some j, some r =>
    let u := s.volUnit v
    let p := s.volHome v
    let (s, r, n) := if x.work = .readPayload ∧ r = 0 then s.readEnd v j else (s, r, 0)
    let s := if j.type = 9 ∧ !j.bad then s.readRec v r j.lba n (if j.hdr = [] then 0 else hdrAt j.hdr 56 4) else s
    let x := { x with work := .idle, result := none, job := none, got := [] }
    let wrote := decide (r = 0) && decide (j.hdr ≠ []) && j.isWrite
    let x := if wrote then { x with
        tail := x.tail + 1 + ceilDiv j.len 4096, chunk := x.chunk + 1, seqs := x.seqs.set (fun _ => 0) j.clip (hdrAt j.hdr 36 4 + 2) }
      else if r = 0 ∧ j.type = 8 ∧ !s.replaying then { x with gen := x.gen + 1, copy := 1 - x.copy }
      else x
    let s := s.setVol v x
    let s := if s.volState v = 2 then s.showVol v else s
    let block := if j.type = 9 then j.lba else j.block
    let m := (s.berth j.berth).man
    let s := releaseAll u j.got s
    let s := if j.isWrite && decide (1 < j.got.length) then s.berthRel u j.berth m.frame m.flags else s
    let s := s.volResult v r
    let s := if r = 0 then s else s.pcxRaise p 8
    let s := s.post 5 u (0x8000 + v * 0x1000 + r) (j.tag + (block % 2 ^ 40) <<< 16)
    if (r = 5 ∨ r = 6) ∧ j.type ≠ 9 then
      let l := s.queue (volQ v)
      abortJobs v l ((moveDrives 3 2 x.members (s.setVolState v 3)).setQueue (volQ v) [])
    else s
  | _, _ => s

/-! ### Completions and timeouts (R341, R349) -/

/-- The drive's link carries its commands. -/
def drvLinked (s : State) (d : Nat) : Bool := s.flag (Reg.PCX_LINK_UP (s.drive d).port (s.drive d).link) && !s.isEndpoint (s.drive d).port

/-- Outstanding command `i` of drive `d` completes. -/
def nvmeComplete (s : State) (d i : Nat) (ok : Bool) (data : NvmeData) : State :=
  let x := s.drive d
  match x.cmds[i]? with
  | none => s
  | some c =>
    if c.issued = 0 ∨ !s.drvLinked d then s
    else
      let s := s.setDrive d { x with cmds := issueCmds s.now 64 (x.cmds.eraseIdx i) }
      let s := if ok then s else s.count (Reg.PCX_DRV_ERR_STATUS d)
      match c.vol with
      | none => if ok then s.adminDone d data else s.driveFail d 5
      | some v =>
        if !ok then s.volFail v 5
        else
          let y := s.vol v
          let s := match data with
            | .bytes bs => s.setVol v { y with got := y.got.set (fun _ => []) c.key (padTo (4096 * c.blocks) bs) }
            | _ => s
          s.volNext v

/-- A command has outlived its limit: the drive's for admin commands, otherwise the volume's (R340, R341). -/
def cmdExpired (s : State) (d : Nat) (c : NvmeCmd) : Bool :=
  let ms := match c.vol with | none => s.fld (Reg.PCX_DRV_TIMEOUT_MS d) | some v => s.fld (Reg.PCX_VOL_TIMEOUT_MS v)
  decide (c.issued ≠ 0 ∧ c.issued - 1 + msCycles (max 1 ms) ≤ s.now)

/-- NVME_TIMEOUT: the first command of drive `d` that outlived its limit. -/
def nvmeTimeout (s : State) (d : Nat) : State :=
  let x := s.drive d
  match x.cmds.find? (s.cmdExpired d) with
  | none => s
  | some c =>
    let s := (s.setDrive d { x with cmds := issueCmds s.now 64 (x.cmds.erase c) }).count (Reg.PCX_DRV_ERR_TIMEOUTS d)
    match c.vol with
    | none => s.driveFail d 6
    | some v => s.volFail v 6

end State

/-! ### Commands -/

/-- PCIE_LINK_UP (R337): the partner's highest generation and width, and the errors seen in training. -/
def execPcieLinkUp (p : Fin 2) (k : Fin 4) (gen width : Nat) (reversed : Bool) (corr uncorr : Nat) (s : State) : Res :=
  .next ((s.linkUp p k gen width reversed).aer p corr uncorr)

/-- PCIE_LINK_DOWN (R337), with the errors seen on the link since it came up. -/
def execPcieLinkDown (p : Fin 2) (k : Fin 4) (corr uncorr : Nat) (s : State) : Res := .next ((s.linkDown p k).aer p corr uncorr)

/-- NVME_COMPLETION (R341). -/
def execNvmeCompletion (d : Fin 8) (i : Fin 64) (ok : Bool) (data : NvmeData) (s : State) : Res := .next (s.nvmeComplete d i ok data)

/-- NVME_TIMEOUT (R340, R341). -/
def execNvmeTimeout (d : Fin 8) (s : State) : Res := .next (s.nvmeTimeout d)

/-- VOL_OP_DONE (R346). -/
def execVolOpDone (v : Fin 4) (s : State) : Res := .next (s.volOpDone v)

/-- PCX_JOB_START (R347, R348). -/
def execPcxJobStart (v : Fin 4) (s : State) : Res := .next (s.jobStart v)

/-- PCX_JOB_END (R348 to R350). -/
def execPcxJobEnd (v : Fin 4) (s : State) : Res := .next (s.jobEnd v)

end Sys2Proof.Machine
end

