-- ==== Sys2Proof/Machine/Net.lean ====
section
/-! DEFINITION. Ethernet ports: links, neighbours, Pier transmit and receive streams (R357 to R368). -/

namespace Sys2Proof.Machine

/-- Bytes a datagram carries on top of its UDP payload: IP and UDP headers (R362). -/
def ipOverhead (v6 : Bool) : Nat := if v6 then 48 else 28

/-- The largest data of a Pier datagram under an MTU (R362). -/
def pierFull (mtu : Nat) (v6 : Bool) : Nat := (mtu - ipOverhead v6 - 64) / 64 * 64

/-- A Pier header (R361). -/
def pierHeader (first last : Bool) (seq ofs len num n : Nat) (m : Manifest) : List Byte :=
  [0x50, 0x49, 1] ++ bytesLE 1 (b01 first + 2 * b01 last) ++ bytesLE 4 seq ++ bytesLE 8 ofs ++ bytesLE 8 len ++ bytesLE 4 num ++
    bytesLE 2 n ++ zeros 2 ++ bytesLE 32 m.toNat

/-- A multicast address. -/
def isMulticast (v6 : Bool) (a : Nat) : Bool := if v6 then decide (a >>> 120 = 0xFF) else decide (a >>> 28 = 0xE)

/-- The bytes from `cur` on that ranges cover without a gap. -/
def covered (rs : List (Nat × Nat)) : Nat → Nat → Nat
  | 0, cur => cur
  | fuel + 1, cur => match rs.find? fun r => decide (r.1 ≤ cur ∧ cur < r.1 + r.2) with
    | some r => covered rs fuel (r.1 + r.2)
    | none => cur

namespace State

def net (s : State) (q : Nat) : NetPort := s.nets.get (fun _ => {}) q
def setNet (s : State) (q : Nat) (x : NetPort) : State := { s with nets := s.nets.set (fun _ => {}) q x }
def netRaise (s : State) (q m : Nat) : State := s.raise (Reg.NET_EVENT_LINK_DOWN q).addr (Reg.NET_EVENT_EN_EN q).addr (18 + q) m
def netFld (s : State) (q : Nat) (f : Fld) : Nat := s.appliedFld (netKey q) f
def netOn (s : State) (q : Nat) : Bool := decide (s.fld (Reg.NET_STATUS_STATE q) = 1)
def netLink (s : State) (q : Nat) : Bool := s.netOn q && s.flag (Reg.NET_STATUS_LINK q)
def netMtu (s : State) (q : Nat) : Nat := clampN 1280 9000 (s.fld (Reg.NET_MTU_MTU q))
def discardRx (s : State) (q : Nat) : State := s.count (Reg.NET_CNT_RX_DISCARD q)

/-- The frames sent before the present command are forgotten. -/
def quiet (s : State) (q : Nat) : State := s.setNet q { s.net q with sent := [] }

/-! ### Addresses and neighbours (R358, R359) -/

def word4 (s : State) (a : Nat) : Nat :=
  (s.word a).toNat + (s.word (a + 4)).toNat <<< 32 + (s.word (a + 8)).toNat <<< 64 + (s.word (a + 12)).toNat <<< 96

/-- The port's own address. -/
def netOwn (s : State) (q : Nat) (v6 : Bool) : Nat := if v6 then s.word4 (Reg.NET_IP6_0 q).addr else s.fld (Reg.NET_IP4_ADDR q)

/-- The next hop of a unicast destination (R359). -/
def nextHop (s : State) (q : Nat) (v6 : Bool) (dst : Nat) : Nat :=
  let w := if v6 then 128 else 32
  let p := if v6 then s.fld (Reg.NET_PREFIX_PREFIX6 q) else s.fld (Reg.NET_PREFIX_PREFIX4 q)
  let k := w - min p w
  if dst >>> k = s.netOwn q v6 >>> k then dst else if v6 then s.word4 (Reg.NET_GW6_0 q).addr else s.fld (Reg.NET_GW4_GW q)

def neighMac (s : State) (q : Nat) (v6 : Bool) (hop : Nat) : Option Nat :=
  ((s.net q).cache.find? fun (n : Neigh) => decide (n.v6 = v6 ∧ n.addr = hop)).map (·.mac)

/-- The oldest entry of a cache makes room (log entry 17). -/
def evictNeigh (l : List Neigh) : List Neigh :=
  if l.length < 64 then l
  else match l.foldl (fun (acc : Option Neigh) n => match acc with
      | none => some n
      | some a => if n.confirmed < a.confirmed then some n else some a) none with
    | some a => l.erase a
    | none => l

def sendNow (s : State) (q : Nat) (f : NetFrame) : State :=
  let x := s.net q
  s.setNet q { x with sent := x.sent ++ [f] }

/-- A neighbour is confirmed: the datagrams held for it leave (R359). -/
def confirmNeigh (s : State) (q : Nat) (v6 : Bool) (addr mac : Nat) : State :=
  let x := s.net q
  let cache := evictNeigh (x.cache.filter fun (n : Neigh) => !decide (n.v6 = v6 ∧ n.addr = addr)) ++ [⟨v6, addr, mac, s.now⟩]
  let mine := fun (h : HeldFrame) => decide (h.frame.v6 = v6 ∧ h.hop = addr)
  s.setNet q { x with
    cache := cache, held := x.held.filter fun h => !mine h
    sent := x.sent ++ (x.held.filter mine).map fun (h : HeldFrame) => { h.frame with mac := mac } }

def heldBytes (l : List HeldFrame) : Nat := (l.map fun (h : HeldFrame) => h.frame.payload.length + ipOverhead h.frame.v6).sum

/-- A datagram leaves, waits for its next hop, or is discarded (R359). -/
def sendFrame (s : State) (q : Nat) (f : NetFrame) : State :=
  if isMulticast f.v6 f.dst then s.sendNow q { f with mac := if f.v6 then 0x333300000000 + f.dst % 2 ^ 32 else 0x01005E000000 + f.dst % 2 ^ 23 }
  else
    let hop := s.nextHop q f.v6 f.dst
    match s.neighMac q f.v6 hop with
    | some m => s.sendNow q { f with mac := m }
    | none =>
      let x := s.net q
      if 65536 < heldBytes x.held + f.payload.length + ipOverhead f.v6 then
        (s.count (Reg.NET_CNT_RX_NEIGH_FAIL q)).netRaise q 4
      else
        (s.setNet q { x with held := x.held ++ [⟨hop, s.now, f⟩] }).sendNow q { kind := .neighRequest, v6 := f.v6, dst := hop }

/-- ARP_REQUEST. -/
def neighRequest (s : State) (q : Nat) (v6 : Bool) (target sender mac : Nat) : State :=
  if !s.netLink q then s
  else if target ≠ s.netOwn q v6 then s.discardRx q
  else ((s.quiet q).confirmNeigh q v6 sender mac).sendNow q { kind := .neighReply, mac := mac, v6 := v6, dst := sender }

/-- ICMP_ECHO_REQUEST. -/
def echoRequest (s : State) (q : Nat) (v6 : Bool) (target sender : Nat) (payload : List Byte) : State :=
  if !s.netLink q then s
  else if target ≠ s.netOwn q v6 ∨ 1472 < payload.length then s.discardRx q
  else (s.quiet q).sendFrame q { kind := .echoReply, v6 := v6, dst := sender, payload := payload }

/-- NEIGH_TIMEOUT: datagrams held for 10 ms are discarded. -/
def neighTimeout (s : State) (q : Nat) : State :=
  let x := s.net q
  let old := fun (h : HeldFrame) => decide (h.since + msCycles 10 ≤ s.now)
  let n := (x.held.filter old).length
  if n = 0 then s
  else ((s.setNet q { x with held := x.held.filter fun h => !old h }).count (Reg.NET_CNT_RX_NEIGH_FAIL q) n).netRaise q 4

/-- NEIGH_EXPIRY: entries end 60 s after their last confirmation. -/
def neighExpiry (s : State) (q : Nat) : State :=
  let x := s.net q
  s.setNet q { x with cache := x.cache.filter fun (n : Neigh) => decide (s.now < n.confirmed + msCycles 60000) }

/-! ### Links (R357, R376) -/

/-- RS-FEC is on. -/
def fecOn (s : State) (q : Nat) : Bool := decide (s.fld (Reg.NET_CTRL_MODE q) ≠ 1) || s.flag (Reg.NET_CTRL_FEC q)

/-- NET_CTRL.OP: 1 ENABLE, 2 DISABLE. -/
def netOp (s : State) (q op : Nat) : State :=
  if op = 1 then s.setFld (Reg.NET_STATUS_STATE q) 1
  else if op = 2 then ((s.setFld (Reg.NET_STATUS_STATE q) 0).setFld (Reg.NET_STATUS_LINK q) 0).setFld (Reg.NET_STATUS_FEC_LOCK q) 0
  else s

def ethUp (s : State) (q : Nat) : State :=
  if !s.netOn q then s else (s.setFld (Reg.NET_STATUS_LINK q) 1).setFld (Reg.NET_STATUS_FEC_LOCK q) (b01 (s.fecOn q))

def ethDown (s : State) (q : Nat) : State :=
  if !s.netLink q then s
  else ((s.setFld (Reg.NET_STATUS_LINK q) 0).setFld (Reg.NET_STATUS_FEC_LOCK q) 0).netRaise q 1

def fecErrors (s : State) (q n : Nat) : State := if s.netOn q && s.fecOn q then s.count (Reg.NET_CNT_FEC_FEC_ERR q) n else s

/-! ### Transmit streams (R361 to R366) -/

def txStream (s : State) (q t : Nat) : TxStream := (s.net q).tx.get (fun _ => {}) t
def setTx (s : State) (q t : Nat) (x : TxStream) : State :=
  let n := s.net q
  s.setNet q { n with tx := n.tx.set (fun _ => {}) t x }

/-- NET_TX_PUSH. -/
def netTxPush (s : State) (q t h : Nat) : State :=
  let (s, ok) := s.pushQ (netTxQ q t) 8 ⟨h, 0, false⟩
  if ok then s else (s.count (Reg.NET_TX_STATUS_LOST q t)).netRaise q 2

/-- NET's own tide is at least `n + d` (R363, R365). -/
def netAt (s : State) (q n d : Nat) : Bool := decide (n + d < s.ownTide (18 + q))

/-- The access unit of a bitstream berth, from its index (R248). -/
def accessUnit (s : State) (h : Nat) : List Byte :=
  let ix := s.peek h 0 64
  ((List.range (min 4 (hdrAt ix 8 1))).map fun k => s.peek h (hdrAt ix (16 + 8 * k) 4) (hdrAt ix (20 + 8 * k) 4)).flatten

/-- A stream has an object to send now: one in progress, or a head of queue that is due. -/
def txReady (s : State) (q t : Nat) : Bool :=
  decide (s.netFld q (Reg.NET_TX_CFG_EN q t) = 1) &&
  ((s.txStream q t).cur.isSome || match s.queue (netTxQ q t) with
    | e :: _ => s.netAt q (s.berth e.h).man.tide 3
    | [] => false)

/-- Start the object at the head of a stream's queue; none when its berth is refused. -/
def txStart (s : State) (q t : Nat) : State × Option TxObject :=
  match s.popQ (netTxQ q t) with
  | (s, none) => (s, none)
  | (s, some e) =>
    let (s, ok) := if e.held then (s, true) else s.acquire (18 + q) e.h
    if !ok then (s, none)
    else
      let len := if s.fld (Reg.NET_TX_CFG_SRC q t) = 1 then (s.accessUnit e.h).length else s.netFld q (Reg.NET_TX_LEN q t)
      let x := s.txStream q t
      let o : TxObject := ⟨e.h, (s.berth e.h).man, x.obj, len, 0, true⟩
      (s.setTx q t { x with cur := some o, obj := (x.obj + 1) % 2 ^ 32 }, some o)

/-- The token bucket of a stream now, in 1/2000 bit: two full datagrams at most (R364). -/
def txBucket (s : State) (q t : Nat) : Int :=
  let v6 := s.flag (Reg.NET_TX_CFG_V6 q t)
  let cap : Int := (2 * (pierFull (s.netMtu q) v6 + 64 + ipOverhead v6) * 8 * 2000 : Nat)
  match (s.txStream q t).bucket with
  | none => cap
  | some (n, at_) => min cap (n + ((s.now - at_) * s.netFld q (Reg.NET_TX_RATE_MBPS q t) : Nat))

/-- Data of the next datagram of a stream's object. -/
def txNext (s : State) (q t : Nat) (o : TxObject) : Nat := min (pierFull (s.netMtu q) (s.flag (Reg.NET_TX_CFG_V6 q t))) (o.len - o.ofs)

/-- A stream's bucket admits its next datagram. -/
def txAdmits (s : State) (q t : Nat) (o : TxObject) : Bool :=
  decide (s.netFld q (Reg.NET_TX_RATE_MBPS q t) = 0) ||
    decide ((((s.txNext q t o + 64 + ipOverhead (s.flag (Reg.NET_TX_CFG_V6 q t))) * 8 * 2000 : Nat) : Int) ≤ s.txBucket q t)

/-- Send the next datagram of a stream's object (R361, R362, R365, R366). -/
def txSend (s : State) (q t : Nat) (o : TxObject) : State :=
  let u := 18 + q
  let v6 := s.flag (Reg.NET_TX_CFG_V6 q t)
  let n := s.txNext q t o
  let (s, data) := if s.fld (Reg.NET_TX_CFG_SRC q t) = 1 then (s, ((s.accessUnit o.h).drop o.ofs).take n) else s.readBerth u o.h o.ofs n
  let last := decide (o.len ≤ o.ofs + n)
  let m := { o.man with flags := o.man.flags ||| (if s.netAt q o.man.tide 4 then flagOvr else 0) ||| s.modeFlags }
  let x := s.txStream q t
  let dst := if v6 then s.word4 (Reg.NET_TX_DST_0 q t).addr else s.fld (Reg.NET_TX_DST_0 q t)
  let bucket := s.txBucket q t - (((n + 64 + ipOverhead v6) * 8 * 2000 : Nat) : Int)
  let s := if o.ofs = 0 ∧ s.netFld q (Reg.NET_TX_CFG_TS q t) = 1 then s.pushEts q (o.num % 256) else s
  let s := s.setTx q t { x with
    seq := (x.seq + 1) % 2 ^ 32, bucket := some (bucket, s.now), cur := if last then none else some { o with ofs := o.ofs + n } }
  let s := s.sendFrame q {
    kind := .pier, v6 := v6, dst := dst, sport := s.fld (Reg.NET_TX_PORTS_SPORT q t), dport := s.fld (Reg.NET_TX_PORTS_DPORT q t)
    tag := (s.word (Reg.NET_TX_TAG_VLAN_EN q t).addr).toNat
    payload := pierHeader (decide (o.ofs = 0)) last x.seq o.ofs o.len o.num n m ++ data }
  if last then (s.releasePost u u o.h).count (Reg.NET_TX_CNT_OBJECTS q t) else s

/-- The streams in order of turn within PRIO `p`: ascending after the one served last (R364). -/
def txOrder (s : State) (q p : Nat) : List Nat :=
  let l := (s.net q).turn.get (fun _ => 31) p
  (List.range 32).map fun i => (l + 1 + i) % 32

/-- Try the streams of one PRIO in order; true when a datagram was sent. -/
def txTry (q p : Nat) : List Nat → State → State × Bool
  | [], s => (s, false)
  | t :: ts, s =>
    if s.netFld q (Reg.NET_TX_CFG_PRIO q t) ≠ p ∨ !s.txReady q t then txTry q p ts s
    else
      let (s, o) := match (s.txStream q t).cur with
        | some o => (s, some o)
        | none => s.txStart q t
      match o with
      | none => txTry q p ts s
      | some o =>
        if !s.txAdmits q t o then txTry q p ts s
        else
          let n := s.net q
          ((s.setNet q { n with turn := n.turn.set (fun _ => 31) p t }).txSend q t o, true)

def txPrios (q : Nat) : List Nat → State → State
  | [], s => s
  | p :: ps, s => match txTry q p (s.txOrder q p) s with
    | (s, true) => s
    | (s, false) => txPrios q ps s

/-- PIER_DATAGRAM_TX. -/
def pierTx (s : State) (q : Nat) : State := if s.netLink q then txPrios q [3, 2, 1, 0] (s.quiet q) else s

/-! ### Overruns (R365) -/

/-- Tides of the objects of port `q` that are not completely sent. -/
def unsentTides (s : State) (q : Nat) : List Nat :=
  ((List.range 32).map fun t =>
    (match (s.txStream q t).cur with | some o => [o.man.tide] | none => []) ++
      (s.queue (netTxQ q t)).map fun (e : QEnt) => (s.berth e.h).man.tide).flatten

/-- UNIT_OVERRUN of NET_q: the first tide whose objects are late is declared. -/
def netOverrun (s : State) (q : Nat) : State :=
  let x := s.net q
  match (s.unsentTides q).find? fun n => s.netAt q n 4 && !decide (n ∈ x.ovr) with
  | none => s
  | some n => ((s.setNet q { x with ovr := x.ovr ++ [n] }).declareOverrun (18 + q) n).netRaise q 16

/-- An object is abandoned: its berth is released and posted with OVR. -/
def txDrop (s : State) (q t h : Nat) (held : Bool) : State :=
  let u := 18 + q
  let m := (s.berth h).man
  ((if held then s.release u h else s).berthRel u h m.frame (m.flags ||| flagOvr)).count (Reg.NET_TX_CNT_LATE q t)

def txDropQueue (q t n : Nat) : List QEnt → State → State
  | [], s => s
  | e :: es, s =>
    txDropQueue q t n es (if (s.berth e.h).man.tide = n then s.txDrop q t e.h e.held else s.setQueue (netTxQ q t) (s.queue (netTxQ q t) ++ [e]))

def txAbandon (q n : Nat) : List Nat → State → State
  | [], s => s
  | t :: ts, s =>
    let x := s.txStream q t
    let s := match x.cur with
      | some o => if o.man.tide = n then (s.setTx q t { x with cur := none }).txDrop q t o.h true else s
      | none => s
    let l := s.queue (netTxQ q t)
    txAbandon q n ts (txDropQueue q t n l (s.setQueue (netTxQ q t) []))

/-- UNIT_ABANDON of NET_q: the first tide whose objects are two own tides late is abandoned. -/
def netAbandon (s : State) (q : Nat) : State :=
  match (s.unsentTides q).find? fun n => s.netAt q n 5 with
  | none => s
  | some n =>
    let s := txAbandon q n (List.range 32) s
    let x := s.net q
    (s.setNet q { x with ovr := x.ovr.filter (· ≠ n) }).countAbandon (18 + q)

/-- NET_q's own tide: its class-T values in force (R31). -/
def netTide (s : State) (q : Nat) : State := s.takeApplied (netKey q) (netKey q) (netKey q + 0x4000)

/-! ### Receive streams (R367, R368) -/

def rxStream (s : State) (q r : Nat) : RxStream := (s.net q).rx.get (fun _ => {}) r
def setRx (s : State) (q r : Nat) (x : RxStream) : State :=
  let n := s.net q
  s.setNet q { n with rx := n.rx.set (fun _ => {}) r x }

def netRxQ (q r : Nat) : Nat := (Reg.NET_RX_PUSH_HANDLE q r).addr

/-- NET_RX_PUSH. -/
def netRxPush (s : State) (q r h : Nat) : State :=
  let (s, ok) := s.pushQ (netRxQ q r) 8 ⟨h, 0, false⟩
  if ok then s else s.netRaise q 2

/-- The receive stream of a datagram (R367). -/
def rxMatch (s : State) (q dport : Nat) (m : Manifest) : Option Nat :=
  (List.range 16).find? fun r =>
    decide (s.netFld q (Reg.NET_RX_CFG_EN q r) = 1) && decide (s.fld (Reg.NET_RX_MATCH_PORT q r) = dport) &&
    decide (s.fld (Reg.NET_RX_CFG_MATCH q r) = m.stream) &&
    (!s.flag (Reg.NET_RX_CFG_ORIGIN_EN q r) || decide (s.fld (Reg.NET_RX_CFG_ORIGIN q r) = m.origin))

/-- Bytes as 8-byte words. -/
def words8 (bs : List Byte) : List Nat := (List.range (ceilDiv bs.length 8)).map fun i => ofBytesLE ((bs.drop (8 * i)).take 8)

/-- NETRX records of a received object: header and bytes, cut over as many records as needed (R435). -/
def netRecs (src sub : Nat) : Nat → List Nat → State → State
  | 0, _, s => s
  | fuel + 1, ws, s => if ws = [] then s else netRecs src sub fuel (ws.drop 508) (s.logRec 0x0A src sub (ws.take 508))

/-- A received object ends: its record, its release, and INCOMPLETE when bytes are missing (R368, R432). -/
def rxEnd (s : State) (q r : Nat) (o : RxObject) (complete : Bool) : State :=
  let u := 18 + q
  let s := s.setRx q r { s.rxStream q r with cur := none }
  if o.h = 0 then s
  else
    let whole := bit (s.word 0x50010).toNat (16 * q + r)
    let ws := words8 (o.head ++ (if whole then s.peek o.h 0 o.len else []))
    let s := netRecs (16 * q + r) (b01 whole) (ws.length + 1) ws s
    let s := if complete then s else (s.count (Reg.NET_RX_CNT_INCOMPLETE q r)).netRaise q 8
    s.releasePost u u o.h

/-- The first datagram of a new object takes a berth (R368). -/
def rxStart (s : State) (q r num len : Nat) (head : List Byte) : State :=
  let (s, e) := s.popQ (netRxQ q r)
  let (s, h) := match e with
    | none => (s.count (Reg.NET_RX_STATUS_NO_BERTH q r), 0)
    | some e => match s.acquire (18 + q) e.h with
      | (s, true) => (s, e.h)
      | (s, false) => (s, 0)
  s.setRx q r { s.rxStream q r with cur := some { h := h, num := num, len := len, head := head, lastAt := s.now }, last := some num }

/-- A datagram's index within its object; free where neither it nor an earlier one shows the size of a full datagram (log entry 17). -/
def rxIndex (s : State) (o : RxObject) (ofs n : Nat) (last : Bool) : Nat :=
  if ofs = 0 then 0 else if !last then ofs / max 1 n else if o.size ≠ 0 then ofs / o.size else s.freeVal % 65536

/-- Data of a datagram enters its object (R368). -/
def rxData (s : State) (q r : Nat) (o : RxObject) (pm : Manifest) (ofs : Nat) (last : Bool) (data : List Byte) : State :=
  let n := data.length
  let index := s.rxIndex o ofs n last
  let s := s.nextFree
  let m : Manifest := {
    stream := s.fld (Reg.NET_RX_MATCH_LOCAL q r), kind := 0xE, flags := pm.flags, tide := pm.tide, frame := pm.frame, time := pm.time
    epoch := pm.epoch, setEpoch := s.sys.epoch, origin := pm.origin, domain := s.netFld q (Reg.NET_RX_DOMAIN_DOMAIN q r)
    firstRow := index % 65536, handle := o.h }
  let s := if o.h = 0 then s else s.emit (18 + q) m ofs data
  let o := { o with ranges := o.ranges ++ [(ofs, n)], size := if last then o.size else n, lastAt := s.now }
  if o.len ≤ covered o.ranges (o.ranges.length + 1) 0 then s.rxEnd q r o true
  else s.setRx q r { s.rxStream q r with cur := some o }

/-- PIER_DATAGRAM_RX. -/
def pierRx (s : State) (q dport : Nat) (bs : List Byte) : State :=
  if !s.netLink q || s.replayMode then s
  else
    let pm := Manifest.ofNat (ofBytesLE ((bs.drop 32).take 32))
    let ok := decide (64 ≤ bs.length) && decide (bs.take 3 = [0x50, 0x49, 1])
    match if ok then s.rxMatch q dport pm else none with
    | none => s.discardRx q
    | some r =>
      let seq := hdrAt bs 4 4
      let num := hdrAt bs 24 4
      let x := s.rxStream q r
      let gap := match x.next with
        | some e => if seqAfter seq e then (seq + 2 ^ 32 - e) % 2 ^ 32 else 0
        | none => 0
      let fwd := match x.next with | some e => decide (seq = e) || seqAfter seq e | none => true
      let s := (s.setRx q r { x with next := if fwd then some ((seq + 1) % 2 ^ 32) else x.next }).count (Reg.NET_RX_CNT_GAP q r) gap
      let old := match x.last with | some l => !(decide (num = l) || seqAfter num l) | none => false
      let done := decide (x.last = some num) && x.cur.isNone
      if old || done then s.discardRx q
      else
        let s := match x.cur with
          | some o => if o.num = num then s else s.rxEnd q r o false
          | none => s
        let s := if x.last = some num then s else s.rxStart q r num (hdrAt bs 16 8) (bs.take 64)
        match (s.rxStream q r).cur with
        | none => s
        | some o => s.rxData q r o pm (hdrAt bs 8 8) (bit (hdrAt bs 3 1) 1) ((bs.drop 64).take (hdrAt bs 28 2))

/-- PIER_RX_TIMEOUT. -/
def pierTimeout (s : State) (q r : Nat) : State :=
  match (s.rxStream q r).cur with
  | none => s
  | some o => if o.lastAt + usCycles (s.fld (Reg.NET_RX_TIMEOUT_US q r)) ≤ s.now then s.rxEnd q r o false else s

end State

/-! ### Commands -/

/-- ETH_LINK_UP (R376), with the uncorrectable codewords seen meanwhile. -/
def execEthLinkUp (q : Fin 2) (fecErr : Nat) (s : State) : Res := .next ((s.ethUp q).fecErrors q fecErr)

/-- ETH_LINK_DOWN (R376), with the uncorrectable codewords seen since the link came up. -/
def execEthLinkDown (q : Fin 2) (fecErr : Nat) (s : State) : Res := .next ((s.fecErrors q fecErr).ethDown q)

/-- ARP_REQUEST (R358, R359). -/
def execArpRequest (q : Fin 2) (v6 : Bool) (target sender : BitVec 128) (mac : BitVec 48) (s : State) : Res :=
  .next (s.neighRequest q v6 target.toNat sender.toNat mac.toNat)

/-- ARP_REPLY (R359). -/
def execArpReply (q : Fin 2) (v6 : Bool) (addr : BitVec 128) (mac : BitVec 48) (s : State) : Res :=
  .next (if s.netLink q then (s.quiet q).confirmNeigh q v6 addr.toNat mac.toNat else s)

/-- ICMP_ECHO_REQUEST (R358). -/
def execIcmpEchoRequest (q : Fin 2) (v6 : Bool) (target sender : BitVec 128) (payload : List Byte) (s : State) : Res :=
  .next (s.echoRequest q v6 target.toNat sender.toNat payload)

/-- NEIGH_TIMEOUT (R359). -/
def execNeighTimeout (q : Fin 2) (s : State) : Res := .next (s.neighTimeout q)

/-- NEIGH_EXPIRY (R359). -/
def execNeighExpiry (q : Fin 2) (s : State) : Res := .next (s.neighExpiry q)

/-- NET_RX_DISCARD (R357, R358). -/
def execNetRxDiscard (q : Fin 2) (s : State) : Res := .next (if s.netLink q then s.discardRx q else s)

/-- PIER_DATAGRAM_TX (R362 to R366). -/
def execPierDatagramTx (q : Fin 2) (s : State) : Res := .next (s.pierTx q)

/-- PIER_DATAGRAM_RX (R367, R368). -/
def execPierDatagramRx (q : Fin 2) (dport : BitVec 16) (payload : List Byte) (s : State) : Res := .next (s.pierRx q dport.toNat payload)

/-- PIER_RX_TIMEOUT (R368). -/
def execPierRxTimeout (q : Fin 2) (r : Fin 16) (s : State) : Res := .next (s.pierTimeout q r)

end Sys2Proof.Machine
end

