-- ==== Sys2Proof/Machine/Aud.lean ====
section
/-! DEFINITION. Audio ports and sample clock generators: frames, blocks, gates, clock loss (R377 to R393). -/

namespace Sys2Proof.Machine

/-- Bits of a SLOT_W or DATA_W code (R378). -/
def audWidth (c : Nat) : Nat := 16 + 8 * c

/-- Sample rate of a RATE code, in Hz (R378); 0 for the reserved code. -/
def audRate (c : Nat) : Nat := [32000, 44100, 48000, 88200, 96000, 176400, 192000].getD c 0

/-- Bytes of a stored sample (R384). -/
def storeBytesOf (c : Nat) : Nat := c + 2

/-- A stored sample: the top bits of the left-justified sample (R384, log entry 18). -/
def storeSample (store dw v : Nat) : List Byte :=
  let left := (v % 2 ^ dw) <<< (32 - dw)
  bytesLE (storeBytesOf store) (left >>> (32 - 8 * storeBytesOf store))

/-- A stored sample read back, as the `dw` bits sent. -/
def loadSample (store dw : Nat) (bs : List Byte) : Nat :=
  (ofBytesLE bs <<< (32 - 8 * storeBytesOf store)) >>> (32 - dw)

/-- A zero crossing (R392): the sample is 0, or its sign differs from the one before. -/
def crossing (prev : Option Int) (v : Int) : Bool :=
  decide (v = 0) || match prev with | some q => decide (decide (q < 0) ≠ decide (v < 0)) | none => false

/-- A gate at a frame (R392): its new state. -/
def gateStep (zc : Bool) (limit waited stopped : Nat) (stopping : Bool) (g : Nat) (prev : Option Int) (v : Int) : Nat :=
  if g = 2 then 2
  else if stopping then if g = 0 then 2 else if !zc || crossing prev v || decide (limit ≤ stopped) then 2 else 1
  else if g = 1 then 1
  else if !zc || crossing prev v || decide (limit ≤ waited) then 1 else 0

namespace State

def audPort (s : State) (p : Nat) : AudPort := s.aud.ports.get (fun _ => {}) p
def setAudPort (s : State) (p : Nat) (x : AudPort) : State := { s with aud := { s.aud with ports := s.aud.ports.set (fun _ => {}) p x } }
def audState (s : State) (p : Nat) : Nat := s.fld (Reg.AUD_STATUS_STATE p)
def setAudState (s : State) (p v : Nat) : State := s.setFld (Reg.AUD_STATUS_STATE p) v
def audRaise (s : State) (p m : Nat) : State :=
  s.raiseAt (Reg.AUD_EVENT_PUSH_LOST p).addr (Reg.AUD_EVENT_EN_EN p).addr 20 0xF000 (p <<< 12) m
def audQ (p : Nat) : Nat := (Reg.AUD_PUSH_HANDLE p).addr

/-! ### Configuration -/

def audGen (s : State) (p : Nat) : Nat := s.fld (Reg.AUD_CFG_GEN p)
def audFs (s : State) (p : Nat) : Nat := audRate (s.fld (Reg.AUD_SCG_CFG_RATE (s.audGen p)))
def audSlots (s : State) (p : Nat) : Nat := if s.fld (Reg.AUD_CFG_FORMAT p) = 2 then s.fld (Reg.AUD_CFG_SLOTS_M1 p) + 1 else 2
def audMask (s : State) (p : Nat) : List Nat := onesBelow 16 (s.fld (Reg.AUD_MASK_MASK p))
def audFrames (s : State) (p : Nat) : Nat := clampN 15 8191 (s.fld (Reg.AUD_BLOCK_FRAMES_M1 p)) + 1
def audDw (s : State) (p : Nat) : Nat := audWidth (s.fld (Reg.AUD_CFG_DATA_W p))
def audClk (s : State) (p : Nat) : Nat := s.fld (Reg.AUD_SCG_CFG_CLK (s.audGen p))

/-- The port's frames fall at instants of the time base itself (R381). -/
def audTimed (s : State) (p : Nat) : Bool := decide (s.audClk p = 0) && !s.flag (Reg.AUD_CFG_ROLE p)

/-- A configuration that R378, R379, R380 or R384 excludes. -/
def audBad (s : State) (p : Nat) : Bool :=
  let slots := s.audSlots p
  let sw := s.fld (Reg.AUD_CFG_SLOT_W p)
  let dw := s.fld (Reg.AUD_CFG_DATA_W p)
  let mask := s.fld (Reg.AUD_MASK_MASK p)
  decide (s.fld (Reg.AUD_CFG_FORMAT p) = 3) || decide (slots < 2) || decide (sw = 3) || decide (dw = 3) || decide (sw < dw) ||
  decide (s.audFs p = 0) || decide (49152000 < slots * audWidth sw * s.audFs p) || decide (s.fld (Reg.AUD_CFG_STORE p) = 3) ||
  decide (mask = 0) || decide (2 ^ slots ≤ mask) || decide (s.audClk p = 3) || decide (s.fld (Reg.AUD_SCG_CFG_DOMAIN (s.audGen p)) = 3)

/-! ### Generators (R380 to R382) -/

/-- The count of a generator's DOMAIN, in 2⁻⁴⁰ ns (R380). -/
def scgCount (s : State) (code : Nat) : Int :=
  if code = 1 then (s.dom 0).count else if code = 2 then (s.dom 1).count else s.tideTime

def scgBase (s : State) (g : Nat) : Int := s.scgCount (s.fld (Reg.AUD_SCG_CFG_DOMAIN g))
def scgOff (s : State) (g : Nat) : Int := s.aud.offs.get (fun _ => 0) g
def setScgOff (s : State) (g : Nat) (v : Int) : State := { s with aud := { s.aud with offs := s.aud.offs.set (fun _ => 0) g v } }

/-- One TCLK tick of slewing: at most 2.0 ns × RATE × 10⁻⁷, rounded down (R381). -/
def scgSlew : List Nat → State → State
  | [], s => s
  | g :: gs, s =>
    let lim : Nat := 2 * clampN 1 1000 (s.fld (Reg.AUD_SCG_SLEW_RATE g)) * 2 ^ 40 / 10000000
    let a := s.scgOff g
    scgSlew gs (if a = 0 then s else s.setScgOff g (if a.natAbs ≤ lim then 0 else if 0 < a then a - lim else a + lim))

/-- A write of AUD_SCG_CFG: the state follows EN and CLK, the offset takes a changed DOMAIN up (R381, R382; log entry 18). -/
def scgConfig (s : State) (g oldEn oldClk oldDom : Nat) : State :=
  let en := s.fld (Reg.AUD_SCG_CFG_EN g)
  let clk := s.fld (Reg.AUD_SCG_CFG_CLK g)
  let dom := s.fld (Reg.AUD_SCG_CFG_DOMAIN g)
  let s := if en = 1 ∧ oldEn = 1 ∧ clk = 0 ∧ dom ≠ oldDom then s.setScgOff g (s.scgOff g + s.scgCount dom - s.scgCount oldDom)
    else if en = 1 ∧ oldEn = 1 then s else s.setScgOff g 0
  if en = 0 then s.setFld (Reg.AUD_SCG_STATUS_STATE g) 0
  else if oldEn = 1 ∧ oldClk = clk then s
  else s.setFld (Reg.AUD_SCG_STATUS_STATE g) (if clk = 0 then 2 else 1)

def scgWord (s : State) (g : Nat) : Bool := decide (s.fld (Reg.AUD_SCG_CFG_CLK g) = 1 ∨ s.fld (Reg.AUD_SCG_CFG_CLK g) = 2)

def clkLossAll (g : Nat) : List Nat → State → State
  | [], s => s
  | p :: ps, s => clkLossAll g ps (if s.audGen p = g then s.audRaise p 8 else s)

def scgLocked (s : State) (g : Nat) : State :=
  let st := s.fld (Reg.AUD_SCG_STATUS_STATE g)
  if s.scgWord g && decide (st = 1 ∨ st = 3) then s.setFld (Reg.AUD_SCG_STATUS_STATE g) 2 else s

def scgHoldover (s : State) (g : Nat) : State :=
  if s.scgWord g && decide (s.fld (Reg.AUD_SCG_STATUS_STATE g) = 2) then
    clkLossAll g (List.range 16) ((s.setFld (Reg.AUD_SCG_STATUS_STATE g) 3).count (Reg.AUD_SCG_STATUS_LOSS g))
  else s

/-- Frame `k` of the media clock is due: generator time has reached k × 10⁹ / fs (R381). -/
def frameDue (s : State) (p k : Nat) : Bool :=
  decide (((k * 1000000000 : Nat) : Int) * 2 ^ 40 ≤ (s.scgBase (s.audGen p) - s.scgOff (s.audGen p)) * s.audFs p)

/-- The first media index at or after now. -/
def firstFrame (s : State) (p : Nat) : Nat :=
  let x := (s.scgBase (s.audGen p) - s.scgOff (s.audGen p)) * s.audFs p
  ((x + 10 ^ 9 * 2 ^ 40 - 1).fdiv (10 ^ 9 * 2 ^ 40)).toNat

/-- Time of a frame in ns of the generator's DOMAIN, and its media index (R381 to R383). -/
def frameTime (s : State) (p k : Nat) : Nat × Nat :=
  let g := s.audGen p
  if s.audTimed p then ((((k * 1000000000 : Nat) : Int) * 2 ^ 40 / s.audFs p + s.scgOff g).fdiv (2 ^ 40) |>.toNat, k)
  else
    let t := ((s.scgBase g).fdiv (2 ^ 40)).toNat
    (t, (2 * t * s.audFs p + 1000000000) / 2000000000)

/-! ### Recorded blocks (R384 to R387) -/

/-- BERTH_REL of an audio block: the block sequence in bits 31:0 (R386). -/
def audRel (s : State) (h seq flags : Nat) : State := s.post 7 20 h (seq % 2 ^ 32 + (flags % 1024) <<< 32)

/-- The header of a block (R385). -/
def audHeader (s : State) (p : Nat) (b : AudBlock) (flags : Nat) : List Byte :=
  let g := s.audGen p
  [0x41, 0x55, 0x44, 0x42] ++ bytesLE 1 p ++ bytesLE 1 flags ++ bytesLE 1 (s.fld (Reg.AUD_CFG_STORE p)) ++ bytesLE 1 (s.audSlots p) ++
    bytesLE 2 (s.fld (Reg.AUD_MASK_MASK p)) ++ zeros 2 ++ bytesLE 4 (s.audFs p) ++ bytesLE 4 b.n ++ bytesLE 4 b.seq ++ bytesLE 6 b.t0 ++
    bytesLE 1 (g + 16 * s.fld (Reg.AUD_SCG_CFG_DOMAIN g)) ++ zeros 1 ++ bytesLE 8 b.media ++ bytesLE 6 b.tide ++ zeros 18

/-- The number of a parcel within its stream and tide (R23). -/
def audSeqNo (s : State) (stream tide : Nat) : State × Nat :=
  let (t, n) := s.aud.seqs.get (fun _ => (0, 0)) stream
  let n := if t = tide + 1 then n else 0
  ({ s with aud := { s.aud with seqs := s.aud.seqs.set (fun _ => (0, 0)) stream (tide + 1, n + 1) } }, n)

/-- An audio parcel leaves and its berth is released (R386). -/
def audSend (s : State) (p h seq : Nat) (man : Manifest) (bytes : List Byte) : State :=
  let stream := s.fld (Reg.AUD_STREAM_STREAM p)
  let (s, n) := s.audSeqNo stream man.tide
  let m : Manifest := { man with
    stream := stream, kind := 0xA, domain := s.fld (Reg.AUD_STREAM_DOMAIN p), firstRow := n % 65536, rows := 0, handle := h }
  let s := s.emit 20 m 0 bytes
  let flags := (s.berth h).man.flags
  ((s.release 20 h).logRec 0x09 p 0 (words8 (bytes.take 64))).audRel h seq flags

/-- Close the block in progress with further header flags. -/
def audClose (s : State) (p extra : Nat) : State :=
  let x := s.audPort p
  match x.blk with
  | none => s
  | some b =>
    let s := s.setAudPort p { x with blk := none }
    if b.h = 0 then s else s.audSend p b.h b.seq b.man (s.audHeader p b (b.flags ||| extra) ++ b.bytes)

/-- A block starts: its berth, its number and its stamp. -/
def audOpen (s : State) (p t k : Nat) : State :=
  let x := s.audPort p
  let seq := s.fld (Reg.AUD_SEQ_SEQ p)
  let s := s.setFld (Reg.AUD_SEQ_SEQ p) (seq + 1)
  let (s, e) := s.popQ (audQ p)
  let (s, h) := match e with
    | none => ((s.count (Reg.AUD_CNT_1_NO_BERTH p)).audRaise p 4, 0)
    | some e => match s.acquire 20 e.h with
      | (s, true) => (s, e.h)
      | (s, false) => (s, 0)
  let flags := b01 x.first + 4 * b01 x.gap + 16 * b01 x.slip
  let b : AudBlock := ⟨h, seq, t % 2 ^ 48, k, s.tide, s.stamp s.tide, flags, 0, []⟩
  s.setAudPort p { x with blk := some b, first := false, gap := false, slip := if h = 0 then x.slip else false }

/-! ### Stopping (R391, R392) -/

/-- The port stops: the block closes with END, berths are released, the queue empties. -/
def audStopped (s : State) (p : Nat) : State :=
  let s := s.audClose p 2
  let s := match (s.audPort p).head with
    | some o => (s.release 20 o.h).audRel o.h o.seq (s.berth o.h).man.flags
    | none => s
  ((s.setAudPort p {}).setQueue (audQ p) []).setAudState p 0

/-- Every masked slot's gate has closed. -/
def gatesClosed (s : State) (p : Nat) : Bool := (s.audMask p).all fun j => decide ((s.audPort p).gates.get (fun _ => 0) j ≠ 1)

def audMaybeStop (s : State) (p : Nat) : State := if s.audState p = 3 ∧ s.gatesClosed p then s.audStopped p else s

/-- AUD_CTRL.OP (R391): 1 START, 2 STOP, 3 ABORT. -/
def audOp (s : State) (p op : Nat) : State :=
  let st := s.audState p
  let x := s.audPort p
  if op = 0 ∨ 3 < op then s
  else if op = 1 then
    if st ≠ 0 then s.audRaise p 32
    else if s.audBad p then s.audRaise p 16
    else ((s.setAudPort p { idx := if s.audTimed p then some (s.firstFrame p) else none, first := true, lastAt := s.now }).setFld
      (Reg.AUD_SEQ_SEQ p) 0).setAudState p 1
  else if op = 2 then
    if st = 1 then s.audStopped p
    else if st = 2 then
      let s := s.setAudState p 3
      if s.flag (Reg.AUD_ZC_EN p) && !x.loss then s.audMaybeStop p else s.audStopped p
    else s.audRaise p 32
  else if st = 0 then s.audRaise p 32
  else s.setAudPort p { x with abort := true, gates := (s.audMask p).foldl (fun m j => m.set (fun _ => 0) j 2) x.gates }

/-! ### Frames -/

/-- The gates of the masked slots at a frame: each slot with its sample inside the gate (R392). -/
def gateFrame (s : State) (p : Nat) (vals : List (Nat × Nat)) : State × List (Nat × Nat) :=
  let x := s.audPort p
  let dw := s.audDw p
  let zc := s.flag (Reg.AUD_ZC_EN p)
  let lim := s.fld (Reg.AUD_ZC_TIMEOUT p)
  let stopping := decide (s.audState p = 3)
  let step := fun (e : Nat × Nat) =>
    gateStep zc lim x.waited x.stopped stopping (x.gates.get (fun _ => 0) e.1) (x.prev.get (fun _ => none) e.1) (signed dw e.2)
  let y := { x with
    gates := vals.foldl (fun m e => m.set (fun _ => 0) e.1 (step e)) x.gates
    prev := vals.foldl (fun m e => m.set (fun _ => none) e.1 (some (signed dw e.2))) x.prev
    waited := x.waited + 1, stopped := if stopping then x.stopped + 1 else 0 }
  (s.setAudPort p y, vals.map fun e => (e.1, if step e = 1 then e.2 else 0))

/-- An input port's frame (R386, R387). -/
def audRecord (s : State) (p t k : Nat) (samples : List (BitVec 32)) : State :=
  let dw := s.audDw p
  let (s, vals) := s.gateFrame p ((s.audMask p).map fun j => (j, (samples.getD j 0).toNat % 2 ^ dw))
  let s := if (s.audPort p).blk.isNone then s.audOpen p t k else s
  let x := s.audPort p
  let st := s.fld (Reg.AUD_SCG_STATUS_STATE (s.audGen p))
  match x.blk with
  | none => s
  | some b =>
    let bytes := (vals.map fun e => storeSample (s.fld (Reg.AUD_CFG_STORE p)) dw e.2).flatten
    let b := { b with
      n := b.n + 1, bytes := b.bytes ++ bytes
      flags := b.flags ||| (if s.scgWord (s.audGen p) && decide (st = 1 ∨ st = 3) then 8 else 0) }
    let s := s.setAudPort p { x with blk := some b }
    let n := s.audFrames p
    let aligned := s.flag (Reg.AUD_BLOCK_ALIGN p) && decide (s.audClk p = 0)
    if if aligned then decide ((k + 1) % n = 0) else decide (n ≤ b.n) then s.audClose p 0 else s

/-- A block of the port's own shape (R388). -/
def audValid (s : State) (p : Nat) (h : List Byte) : Bool :=
  decide (h.take 4 = [0x41, 0x55, 0x44, 0x42]) && decide (hdrAt h 6 1 = s.fld (Reg.AUD_CFG_STORE p)) && decide (hdrAt h 7 1 = s.audSlots p) &&
    decide (hdrAt h 8 2 = s.fld (Reg.AUD_MASK_MASK p)) && decide (hdrAt h 12 4 = s.audFs p) && decide (hdrAt h 16 4 ≠ 0)

/-- Nearest integer to `(t − t0) × fs / 10⁹`, the times being 48-bit counts (R388). -/
def frameIndex (t t0 fs : Nat) : Int := roundHalfUp (signed 48 (wrap 48 ((t : Int) - t0)) * fs) 1000000000

/-- A head block that is released unused. -/
def audUnused (s : State) (p h seq : Nat) : State :=
  let m := (s.berth h).man
  (((s.release 20 h).audRel h seq m.flags).count (Reg.AUD_CNT_2_LATE_BLOCKS p)).audRaise p 16

/-- The head block whose last frame is not past at `t`, taking blocks from the queue; its frame index. -/
def audHeadAt (s : State) (p t : Nat) : Nat → State × Option (AudHead × Int)
  | 0 => (s, none)
  | fuel + 1 =>
    let x := s.audPort p
    match x.head with
    | some o =>
      let i := frameIndex t o.t0 (s.audFs p)
      if (o.frames : Int) ≤ i then ((s.setAudPort p { x with head := none }).audUnused p o.h o.seq).audHeadAt p t fuel else (s, some (o, i))
    | none => match s.popQ (audQ p) with
      | (s, none) => (s, none)
      | (s, some e) => match s.acquire 20 e.h with
        | (s, false) => s.audHeadAt p t fuel
        | (s, true) =>
          let (s, h) := s.readBerth 20 e.h 0 64
          if s.audValid p h then (s.setAudPort p { s.audPort p with head := some ⟨e.h, hdrAt h 24 6, hdrAt h 16 4, hdrAt h 20 4, none⟩ }).audHeadAt p t fuel
          else (s.audUnused p e.h (hdrAt h 20 4)).audHeadAt p t fuel

/-- A repeated or skipped frame marks the next recorded block of every input port on the generator (R389). -/
def slipAll (g : Nat) : List Nat → State → State
  | [], s => s
  | p :: ps, s =>
    slipAll g ps (if s.audGen p = g ∧ !s.flag (Reg.AUD_CFG_DIR p) then s.setAudPort p { s.audPort p with slip := true } else s)

/-- An output port's frame (R388, R389). -/
def audPlay (s : State) (p t : Nat) : State :=
  let slots := s.audSlots p
  let mask := s.audMask p
  let store := s.fld (Reg.AUD_CFG_STORE p)
  let dw := s.audDw p
  let b := storeBytesOf store
  let (s, cur) := s.audHeadAt p t (2 * (s.queue (audQ p)).length + 2)
  let zero := fun (s : State) =>
    let (s, _) := s.gateFrame p (mask.map fun j => (j, 0))
    let x := s.audPort p
    ((s.setAudPort p { x with
      outs := List.replicate slots 0, head := x.head.map fun (o : AudHead) => { o with last := none } }).count (Reg.AUD_CNT_0_UNDERRUN p)).audRaise p 2
  match cur with
  | none => zero s
  | some (o, i) =>
    if i < 0 ∨ bit s.pwr.audData p then zero s
    else
      let i := i.toNat
      let n := mask.length * b
      let (s, bytes) := s.readBerth 20 o.h (64 + i * n) n
      let (s, vals) := s.gateFrame p ((List.range mask.length).map fun a => (mask.getD a 0, loadSample store dw ((bytes.drop (a * b)).take b)))
      let slips := match o.last with | some l => if i = l then 1 else i - l - 1 | none => 0
      let s := if slips = 0 then s else slipAll (s.audGen p) (List.range 16) (s.count (Reg.AUD_CNT_2_SLIP p) slips)
      let outs := (List.range slots).map fun j => ((vals.find? fun e => e.1 == j).map (·.2)).getD 0
      let s := s.setAudPort p { s.audPort p with outs := outs, head := some { o with last := some i } }
      if i + 1 = o.frames then
        let m := (s.berth o.h).man
        ((s.setAudPort p { s.audPort p with head := none }).release 20 o.h).audRel o.h o.seq m.flags
      else s

/-- The AUDIO record that drives input port `p` in replay, once its frame-0 instant is reached (R439). -/
def audReplay (s : State) (p : Nat) : State :=
  match s.log.replay.find? fun (r : LogRec) => decide (r.typ = 9) && decide (r.src = p) with
  | none => s
  | some r =>
    let h := (r.body.map (bytesLE 8)).flatten
    let t := ((s.scgBase (s.audGen p)).fdiv (2 ^ 40)).toNat
    if signed 48 (wrap 48 ((t : Int) - hdrAt h 24 6)) < 0 then s
    else
      let s := { s with log := { s.log with replay := s.log.replay.erase r } }
      match s.popQ (audQ p) with
      | (s, none) => (s.count (Reg.AUD_CNT_1_NO_BERTH p)).audRaise p 4
      | (s, some e) => match s.acquire 20 e.h with
        | (s, false) => s
        | (s, true) =>
          let (s, b) := s.readBerth 20 e.h 0 64
          let s := if b = h then s else s.diverge s.tide 4 p (s.fld (Reg.AUD_STREAM_STREAM p)) 0
          let n := hdrAt b 16 4 * (onesBelow 16 (hdrAt b 8 2)).length * storeBytesOf (hdrAt b 6 1)
          let (s, body) := s.readBerth 20 e.h 64 n
          s.audSend p e.h (hdrAt b 20 4) (s.stamp (hdrAt h 40 6)) (b ++ body)

/-- The port's start time has come: at once when AUD_START_TIME is 0 (R391). -/
def startReached (s : State) (p t : Nat) : Bool :=
  let st : Nat := s.fld2 (Reg.AUD_START_TIME_LO p) (Reg.AUD_START_TIME_HI p) % 2 ^ 48
  decide (st = 0) || decide (0 ≤ signed 48 (wrap 48 ((t : Int) - st)))

/-- AUD_FRAME: a frame instant of port `p`; with CLK = 0 only once it is due. -/
def audFrame (s : State) (p : Nat) (samples : List (BitVec 32)) : State :=
  let x := s.audPort p
  let timed := s.audTimed p
  let k0 := x.idx.getD 0
  if s.audState p = 0 ∨ (timed ∧ !s.frameDue p k0) ∨ bit s.pwr.audClock p then s
  else
    let (t, k) := s.frameTime p k0
    let s := (s.setAudPort p { x with idx := if timed then some (k0 + 1) else none, lastAt := s.now, loss := false }).setFld (Reg.AUD_STATUS_CLK_OK p) 1
    if x.abort then s.audStopped p
    else if s.audState p = 1 ∧ !s.startReached p t then s
    else
      let s := if s.audState p = 1 then s.setAudState p 2 else s
      if s.flag (Reg.AUD_CFG_DIR p) then (s.audPlay p t).audMaybeStop p
      else if s.replaying then s.audReplay p
      else (s.audRecord p t k samples).audMaybeStop p

/-- Port `p` enters clock loss (R383, R387, R392). -/
def audLost (s : State) (p : Nat) : State :=
  let x := s.audPort p
  let st := s.audState p
  if decide (st ≠ 0) && !x.loss then
    let s := ((s.setAudPort p { x with loss := true }).setFld (Reg.AUD_STATUS_CLK_OK p) 0).audRaise p 8
    let s := if x.blk.isSome then s.audClose p 4 else s
    let s := s.setAudPort p { s.audPort p with
      gap := !s.flag (Reg.AUD_CFG_DIR p) && decide (st ≠ 1), head := (s.audPort p).head.map fun (o : AudHead) => { o with last := none } }
    if st = 3 then s.audStopped p else s
  else s

/-- AUD_CLOCK_LOSS: no frame sync for 4 frame periods (R383). -/
def audLoss (s : State) (p : Nat) : State :=
  if s.flag (Reg.AUD_CFG_ROLE p) && decide (8 * 1000000000 ≤ (s.now - (s.audPort p).lastAt) * s.audFs p) then s.audLost p else s

/-- ZC_TIMEOUT: a gate that found no crossing opens or closes (R392). -/
def zcTimeout (s : State) (p j : Nat) : State :=
  let x := s.audPort p
  let g := x.gates.get (fun _ => 0) j
  let lim := s.fld (Reg.AUD_ZC_TIMEOUT p)
  if !decide (j ∈ s.audMask p) || !s.flag (Reg.AUD_ZC_EN p) then s
  else if s.audState p = 2 ∧ g = 0 ∧ lim ≤ x.waited then s.setAudPort p { x with gates := x.gates.set (fun _ => 0) j 1 }
  else if s.audState p = 3 ∧ g = 1 ∧ lim ≤ x.stopped then (s.setAudPort p { x with gates := x.gates.set (fun _ => 0) j 2 }).audMaybeStop p
  else s

/-- AUD_PUSH (R386). -/
def audPush (s : State) (p h : Nat) : State :=
  let (s, ok) := s.pushQ (audQ p) 8 ⟨h, 0, false⟩
  if ok then s else (s.count (Reg.AUD_CNT_1_PUSH_LOST p)).audRaise p 1

end State

/-! ### Commands -/

/-- AUD_FRAME (R386 to R392): the slots as sampled, for an input port. -/
def execAudFrame (p : Fin 16) (samples : List (BitVec 32)) (s : State) : Res := .next (s.audFrame p samples)

/-- AUD_CLOCK_LOSS (R383). -/
def execAudClockLoss (p : Fin 16) (s : State) : Res := .next (s.audLoss p)

/-- ZC_TIMEOUT (R392). -/
def execZcTimeout (p : Fin 16) (slot : Fin 16) (s : State) : Res := .next (s.zcTimeout p slot)

/-- SCG_LOCKED (R382). -/
def execScgLocked (g : Fin 4) (s : State) : Res := .next (s.scgLocked g)

/-- SCG_HOLDOVER (R382). -/
def execScgHoldover (g : Fin 4) (s : State) : Res := .next (s.scgHoldover g)

end Sys2Proof.Machine
end

