-- ==== Sys2Proof/Machine/Scn.lean ====
section
/-! DEFINITION. Scan-out: heads and their timing, the vertical-blank latch, layers, the frame store, composition, SDI and viewfinder formats, underruns (R315 to R335). -/

namespace Sys2Proof.Machine

/-! ### Rates and rasters (R317) -/

/-- Frame period of a RATE code as a fraction of a second; reserved codes have none. -/
def scnRate (r : Nat) : Option (Nat × Nat) :=
  ([(1001, 24000), (1, 24), (1, 25), (1001, 30000), (1, 30), (1, 50), (1001, 60000), (1, 60), (1, 48), (1, 96), (1, 100),
    (1, 120)] : List (Nat × Nat))[r]?

/-- Active width, height, VB of an SDI raster. -/
def scnRaster (r : Nat) : Option (Nat × Nat × Nat) :=
  ([(1920, 1080, 45), (3840, 2160, 90), (7680, 4320, 180)] : List (Nat × Nat × Nat))[r]?

/-- F to 48 fraction bits of a nanosecond (R316). -/
def framePeriod (r : Nat × Nat) : Nat := r.1 * 1000000000 * 2 ^ 48 / r.2

/-! ### Timecode (R329) -/

/-- Hours, minutes, seconds, frames and the drop-frame mark of frame `n` since midnight at `fps` labels a second. -/
def timecode (fps n : Nat) (drop : Bool) : List Nat :=
  let d := fps / 15
  let perMin := 60 * fps - d
  let perTen := 10 * perMin + d
  let n := if drop then
      let r := n % perTen
      n / perTen * 9 * d + n + (if r < d then 0 else d * ((r - d) / perMin))
    else n
  [n / fps / 3600 % 24, n / fps / 60 % 60, n / fps % 60, n % fps, b01 drop]

/-- The time of day as timecode: from ns of the selected domain and the grandmaster's UTC offset. -/
def timeOfDay (ns : Nat) (utc : Int) (rate : Nat × Nat) : List Nat :=
  let sod := (((ns / 1000000000 : Nat) : Int) - utc) % 86400
  let fps := ceilDiv rate.2 rate.1
  let inSec := ns % 1000000000 * rate.2 / (rate.1 * 1000000000)
  if rate.1 = 1001 ∧ fps % 30 = 0 then timecode fps ((sod.toNat * 1000000000 + ns % 1000000000) * rate.2 / (rate.1 * 1000000000)) true
  else timecode fps (sod.toNat * fps + inSec) false

/-! ### Pixels (R325, R329, R331) -/

/-- The geometry of a layer's source: PIXFMT, depth, PACK, width, height, and its row stride where a region gives one. -/
structure SrcGeom where
  pf : Nat
  d : Nat
  pack : Bool
  w : Nat
  h : Nat
  stride : Option Nat

/-- Stored bits of a sample, and the stride of a plane row of `n` samples (R201). -/
def SrcGeom.bits (g : SrcGeom) : Nat := if g.pack then g.d else if g.d = 8 then 8 else 16
def SrcGeom.rowBytes (g : SrcGeom) (n : Nat) : Nat := g.stride.getD (ceilDiv (n * g.bits) 512 * 64)

/-- Samples in a row of plane 0 (R200). -/
def SrcGeom.rowSamples (g : SrcGeom) : Nat := if g.pf = 0 then 3 * g.w else g.w

/-- Sample `i` of row `r` of a plane that starts at `ofs`, from a byte reader. -/
def SrcGeom.sample (g : SrcGeom) (byte : Nat → Nat) (ofs n r i : Nat) : Nat :=
  let base := ofs + r * g.rowBytes n
  let b := i * g.bits
  Machine.bits (byte (base + b / 8) + byte (base + b / 8 + 1) <<< 8 + byte (base + b / 8 + 2) <<< 16) (b % 8 + g.d - 1) (b % 8)

/-- Component `k` of the source pixel at `(x, y)`, on 16 bits (R325); `ycc` is the head's colour model. -/
def SrcGeom.component (g : SrcGeom) (byte : Nat → Nat) (ycc : Bool) (k x y : Nat) : Nat :=
  let up := fun v => v <<< (16 - g.d)
  let plane0 := g.rowBytes g.rowSamples * g.h
  if g.pf = 0 then up (g.sample byte 0 (3 * g.w) y (3 * x + k))
  else if k = 0 then up (g.sample byte 0 g.w y x)
  else if g.pf = 4 then (if ycc then 0x8000 else up (g.sample byte 0 g.w y x))
  else if g.pf = 1 then up (g.sample byte (k * plane0) g.w y x)
  else if g.pf = 2 then up (g.sample byte plane0 g.w y (x / 2 * 2 + (k - 1)))
  else up (g.sample byte plane0 g.w (y / 2) (x / 2 * 2 + (k - 1)))

/-- A layer as a frame shows it. -/
structure Shown where
  geom : SrcGeom
  byte : Nat → Nat
  srcX : Nat
  srcY : Nat
  srcW : Nat
  srcH : Nat
  dstX : Nat
  dstY : Nat
  zx : Nat
  zy : Nat
  alpha : Nat
  key : Option (Nat → Nat)

/-- Put one layer over a pixel (R325). -/
def overlay (ycc : Bool) (x y : Nat) (c : Nat → Nat) (l : Shown) : Nat → Nat :=
  if l.dstX ≤ x ∧ x < l.dstX + l.srcW * l.zx ∧ l.dstY ≤ y ∧ y < l.dstY + l.srcH * l.zy then
    let p := fun k => l.geom.component l.byte ycc k (l.srcX + (x - l.dstX) / l.zx) (l.srcY + (y - l.dstY) / l.zy)
    let keyed := match l.key with | some f => decide (p 0 = f 0 ∧ p 1 = f 1 ∧ p 2 = f 2) | none => false
    if keyed then c
    else
      let v := [0, 1, 2].map fun k => (l.alpha * p k + (256 - l.alpha) * c k + 128) >>> 8
      fun k => v.getD k 0
  else c

/-- The composed pixels of active line `y`: BG from `lost` on (R325, R327). -/
def composeLine (ycc : Bool) (w : Nat) (bg : Nat → Nat) (ls : List Shown) (lost : Option Nat) (y : Nat) : List (List Nat) :=
  (List.range w).map fun x =>
    let c := if (match lost with | some n => decide (n ≤ x) | none => false) then bg else ls.foldl (overlay ycc x y) bg
    [c 0, c 1, c 2]

/-- The SDI samples of a line: luma, then Cb and Cr of each even column (R329). -/
def sdiLine (px : List (List Nat)) : List Nat :=
  let w := px.length
  let q := fun v => clampN 4 1019 ((v + 32) >>> 6)
  let comp := fun k x => ((px.getD x []).getD k 0 : Nat)
  let chroma := fun k x => (Back.sub422 w (fun c => ((comp k c : Nat) : Int)) x).toNat
  (List.range w).map (fun x => q (comp 0 x)) ++
    ((List.range (w / 2)).map fun x => [q (chroma 1 x), q (chroma 2 x)]).flatten

/-- The viewfinder payload of a line: components of DEPTH bits, packed little-endian (R331). -/
def vfLine (depth : Nat) (px : List (List Nat)) : List Byte :=
  let q := fun v => min (2 ^ depth - 1) ((v + 2 ^ (15 - depth)) >>> (16 - depth))
  let l := px.flatten.map q
  bytesLE (ceilDiv (l.length * depth) 8) (l.foldr (fun x acc => x + acc <<< depth) 0)

/-- The symbols of an active line on lane `k` of `n`, control symbols as 256 plus their value (R331). -/
def vfActive (n a k : Nat) (payload : List Byte) : List Nat :=
  let per := ceilDiv payload.length n
  let lane := (List.range per).map fun i => (payload.getD (i * n + k) 0).toNat
  [256 + 0x1C] ++ (bytesLE 2 a).map BitVec.toNat ++ lane ++ [256 + 0xFD] ++ (bytesLE 4 (crc32 payload)).map BitVec.toNat ++ [256 + 0xBC]

/-- The symbols that open a frame on each lane, or that announce self-refresh (R331, R333). -/
def vfHeader (frame w h : Nat) : List Nat :=
  [256 + 0xFB] ++ (bytesLE 4 frame ++ bytesLE 2 (w - 1) ++ bytesLE 2 (h - 1)).map BitVec.toNat ++ [256 + 0xBC]
def vfRefresh : List Nat := [256 + 0xF7, 1]

namespace State

def head (s : State) (h : Nat) : Head := s.scn.heads.get (fun _ => {}) h
def setHead (s : State) (h : Nat) (x : Head) : State := { s with scn := { s.scn with heads := s.scn.heads.set (fun _ => {}) h x } }
def layer (s : State) (l : Nat) : Layer := s.scn.layers.get (fun _ => {}) l
def setLayer (s : State) (l : Nat) (x : Layer) : State := { s with scn := { s.scn with layers := s.scn.layers.set (fun _ => {}) l x } }

def scnRaise (s : State) (m : Nat) : State := s.raise 0x1C0010 0x1C0014 15 m
def scnRunning (s : State) : Bool := decide (s.fld Reg.SCN_STATUS_STATE = 1)

/-- Fields of head `h` and layer `l` as their head last latched them (R318). -/
def headKey (h : Nat) : Nat := 0x1C1000 + 0x100 * h
def headFld (s : State) (h : Nat) (f : Fld) : Nat := s.appliedFld (headKey h) f
def layerFld (s : State) (l : Nat) (f : Fld) : Nat := s.appliedFld (layerKey l) f

/-- Fields that concern no head, as SCN's own tide took them (R315). -/
def scnKey : Nat := 0x1C0000
def regionFld (s : State) (f : Fld) : Nat := s.appliedFld scnKey f
def scnTide (s : State) : State := s.takeApplied scnKey 0x1C0000 0x1C1000

def takeHead (s : State) (h : Nat) : State := s.takeApplied (headKey h) (headKey h) (headKey h + 0x100)
def takeLayer (s : State) (l : Nat) : State := s.takeApplied (layerKey l) (layerKey l) (layerKey l + 0x80)

/-- SCN_LAYER_PUSH (R322). -/
def scnPush (s : State) (l h : Nat) : State :=
  let (s, ok) := s.pushQ (layerQ l) 4 ⟨h, 0, false⟩
  if ok then s else s.count (Reg.SCN_LAYER_CNT_PUSH_LOST l)

/-! ### Head configurations (R317, R330 to R333) -/

/-- Width, height and blank lines of a head; none where its raster is reserved. -/
def headSize (s : State) (h : Nat) : Option (Nat × Nat × Nat) :=
  if h < 8 then scnRaster (s.headFld h (Reg.SCN_HEAD_CFG_RASTER h))
  else some (s.headFld h (Reg.SCN_VF_SIZE_W_M1 h) + 1, s.headFld h (Reg.SCN_VF_SIZE_H_M1 h) + 1, s.headFld h (Reg.SCN_VF_VB_VB h))

/-- Frame period code of a head, where it allows it. -/
def headRate (s : State) (h : Nat) : Option (Nat × Nat) :=
  let r := s.headFld h (Reg.SCN_HEAD_CFG_RATE h)
  if h < 8 ∧ 7 < r then none else scnRate r

/-- Lanes of a viewfinder port (R335). -/
def vfLanes (s : State) (h : Nat) : Nat :=
  let n := s.headFld h (Reg.SCN_VF_LINK_LANES h)
  if n = 0 then 1 else if n = 1 then 2 else 4

def vfDepth (s : State) (h : Nat) : Nat := if s.headFld h (Reg.SCN_VF_LINK_DEPTH h) = 1 then 10 else 8

/-- Every line of a viewfinder frame fits its link (R332). -/
def vfFits (s : State) (h w hh vb : Nat) (f : Nat × Nat) : Bool :=
  let b := ceilDiv (3 * w * s.vfDepth h) 8
  decide (ceilDiv b (s.vfLanes h) + 9 ≤ f.1 * 1000000 * s.headFld h (Reg.SCN_VF_LINK_RATE_MBPS h) / (f.2 * (hh + vb) * 10))

/-- The head's latched configuration can run. -/
def headOk (s : State) (h : Nat) : Bool :=
  match s.headSize h, s.headRate h with
  | some (w, hh, vb), some f =>
    let quad := decide (s.headFld h (Reg.SCN_HEAD_CFG_QUAD h) = 1)
    if h < 8 then
      if s.headFld h (Reg.SCN_HEAD_CFG_RASTER h) = 2 then quad && decide (h = 0 ∨ h = 4) else !quad
    else decide (64 ≤ w ∧ 64 ≤ hh ∧ 4 ≤ vb) && s.vfFits h w hh vb f &&
      !(decide (s.headFld h (Reg.SCN_HEAD_CFG_PSR h) = 1) && decide (vb ≤ s.headFld h (Reg.SCN_HEAD_CFG_WAKE h)))
  | _, _ => false

/-- The head belongs to a quad-link group that another head leads (R330). -/
def headQuadded (s : State) (h : Nat) : Bool :=
  decide (h < 8 ∧ h % 4 ≠ 0) && decide (s.headFld (h / 4 * 4) (Reg.SCN_HEAD_CFG_QUAD (h / 4 * 4)) = 1) && (s.head (h / 4 * 4)).run

/-- S(j) of a head in 2⁻⁴⁸ ns of tide time (R316). -/
def headInstant (s : State) (h : Nat) (base : Int) (j : Nat) : Int :=
  base + signed 32 (s.headFld h (Reg.SCN_HEAD_OFFSET h)) * 2 ^ 48 + (j * framePeriod ((s.headRate h).getD (1, 24)) : Nat)

/-! ### Sources (R320, R326) -/

/-- A region's first granule and size. -/
def region (s : State) (r : Nat) : Nat × Nat :=
  (s.regionFld (Reg.SCN_FS_REGION_BASE r), s.regionFld (Reg.SCN_FS_REGION_SIZE r))

def layerRegion (s : State) (l : Nat) : Nat := s.layerFld l (Reg.SCN_LAYER_SRC_REGION l)
def layerSrc (s : State) (l : Nat) : Nat := s.layerFld l (Reg.SCN_LAYER_CFG_SRC l)

/-- A layer's latched fields switch it on, on head `h`. -/
def layerWanted (s : State) (h l : Nat) : Bool :=
  decide (s.layerFld l (Reg.SCN_LAYER_CFG_EN l) = 1) && decide (s.layerFld l (Reg.SCN_LAYER_CFG_HEAD l) = h) && decide (s.layerSrc l ≠ 3)

/-- Another layer in force shares granules with layer `l` in a way R320 forbids. -/
def regionClash (s : State) (h l : Nat) : Bool :=
  let r := s.layerRegion l
  let (b, n) := s.region r
  (List.range 16).any fun k =>
    let q := s.layerRegion k
    let (c, m) := s.region q
    decide (k ≠ l) && (if s.layerFld k (Reg.SCN_LAYER_CFG_HEAD k) = h then s.layerWanted h k else (s.layer k).on) &&
      (if q = r then !(decide (s.layerSrc k = 2) && decide (s.layerSrc l = 2)) else decide (b < c + m) && decide (c < b + n))

/-- The geometry of a layer's source: a region's image at STRIDE, or a picture of the size given. -/
def layerGeom (s : State) (l w h : Nat) : SrcGeom :=
  let fmt := s.layerFld l (Reg.SCN_LAYER_CFG_FMT l)
  ⟨Back.pixfmt fmt, Back.depth fmt, bit fmt 1, w, h,
    if s.layerSrc l = 2 then some (64 * s.layerFld l (Reg.SCN_LAYER_SRC_STRIDE l)) else none⟩

/-- The size of a region's image (R326). -/
def regionImage (s : State) (l : Nat) : Nat × Nat :=
  let g := s.layerGeom l 0 0
  let stride := 64 * s.layerFld l (Reg.SCN_LAYER_SRC_STRIDE l)
  let rows := (s.region (s.layerRegion l)).2 * 65536 / stride
  (stride * 8 / g.bits / (if g.pf = 0 then 3 else 1), if g.pf = 1 then rows / 3 else if g.pf = 2 then rows / 2 else if g.pf = 3 then rows * 2 / 3 else rows)

/-- Why R320 and R326 disable a layer of head `h` with a source of `w × hh`, `below` enabled layers under it: true for BAD_CFG. -/
def layerBad (s : State) (h l w hh below : Nat) : Bool :=
  let (b, n) := s.region (s.layerRegion l)
  let g := s.layerGeom l w hh
  let row := g.rowBytes g.rowSamples
  decide (n = 0 ∨ 1536 < b + n) || s.regionClash h l || decide (4 < g.pf) ||
  decide (if h < 8 then g.pf = 0 else g.pf ≠ 0 ∧ g.pf ≠ 4) ||
  decide (w < s.layerFld l (Reg.SCN_LAYER_SRC_XY_SRC_X l) + s.layerFld l (Reg.SCN_LAYER_SRC_WH_SRC_W_M1 l) + 1) ||
  decide (hh < s.layerFld l (Reg.SCN_LAYER_SRC_XY_SRC_Y l) + s.layerFld l (Reg.SCN_LAYER_SRC_WH_SRC_H_M1 l) + 1) ||
  (decide (s.layerSrc l ≠ 2) && decide (n * 65536 < 2 * row)) || decide (4 ≤ below)

/-! ### The latch (R318, R319, R323) -/

/-- SCN releases a berth and posts BERTH_REL (R323). -/
def scnRelease (s : State) (h : Nat) : State := s.releasePost 15 15 h

/-- The layer shows no berth any more. -/
def layerClear (s : State) (l : Nat) : State :=
  let x := s.layer l
  let s := match x.cur with | some h => s.scnRelease h | none => s
  s.setLayer l { x with cur := none, on := false }

/-- Release the entries that a newer one replaces (R323). -/
def skipEntries (l : Nat) : List QEnt → State → State
  | [], s => s
  | q :: qs, s =>
    let m := (s.berth q.h).man
    let s := if q.held then s.scnRelease q.h else s.berthRel 15 q.h m.frame m.flags
    skipEntries l qs (s.count (Reg.SCN_LAYER_CNT_SKIPPED l))

/-- The layer's berth becomes `h`; an acquire that fails keeps the present one (R323). -/
def layerTake (s : State) (l h : Nat) (held : Bool) : State :=
  let x := s.layer l
  let (s, ok) := if held then (s, true) else s.acquire 15 h
  if !ok then s.scnRaise 8
  else
    let s := match x.cur with | some o => s.scnRelease o | none => s
    s.setLayer l { s.layer l with cur := some h }

/-- A layer takes its source at its head's latch. -/
def layerFetch (s : State) (l : Nat) : State :=
  let src := s.layerSrc l
  if src = 0 then
    match (s.queue (layerQ l)).reverse with
    | [] => s
    | q :: older => ((skipEntries l older.reverse (s.setQueue (layerQ l) [])).layerTake l q.h q.held)
  else if src = 1 then
    let h := s.layerFld l (Reg.SCN_LAYER_SRC_HANDLE l)
    if (s.layer l).cur = some h then s else s.layerTake l h false
  else s.layerClear l

/-- The size of a layer's source: of a DRAM berth whose picture size is not known, free values (log entry 14). -/
def layerSize (s : State) (l : Nat) : State × Nat × Nat :=
  if s.layerSrc l = 2 then (s, s.regionImage l)
  else match (s.layer l).cur with
    | none => (s, 0, 0)
    | some h => match (s.berth h).size with
      | some x => (s, x)
      | none => (s.nextFree.nextFree, s.freeVal % 32768, Config.freeNat (s.fresh + 1) % 32768)

/-- One layer at the latch of head `h`: whether it is shown; `keep` after an underrun (R328). -/
def latchLayer (s : State) (h l below : Nat) (keep : Bool) : State :=
  let was := s.layer l
  let oldRegion := s.layerRegion l
  let lands := decide (s.fld (Reg.SCN_LAYER_CFG_HEAD l) = h)
  if !lands then
    if was.head = some h then (s.layerClear l).setLayer l { (s.layerClear l).layer l with head := none } else s
  else
    let s := s.takeLayer l
    if !s.layerWanted h l then (s.layerClear l).setLayer l { (s.layerClear l).layer l with head := some h }
    else
      let s := if keep then s else s.layerFetch l
      let (s, w, hh) := s.layerSize l
      let loading := match s.scn.load with | some (r, _) => decide (r = s.layerRegion l) | none => false
      let dark := decide (s.layerSrc l ≠ 2) && (s.layer l).cur.isNone
      let x := s.layer l
      let moved := decide (x.cur ≠ was.cur) || decide (oldRegion ≠ s.layerRegion l)
      let s := if moved then s.setHead h { s.head h with touched := true } else s
      if dark then s.setLayer l { x with head := some h, on := false }
      else if s.layerBad h l w hh below then
        let s := (s.layerClear l).scnRaise 2
        s.setLayer l { s.layer l with head := some h, on := false }
      else if loading then
        let s := (s.layerClear l).scnRaise 0x20
        s.setLayer l { s.layer l with head := some h, on := false }
      else s.setLayer l { x with head := some h, on := true, srcW := w, srcH := hh }

/-- The layers of head `h`, ascending; `n` of them shown so far. -/
def latchLayers (h : Nat) (keep : Bool) : List Nat → Nat → State → State
  | [], _, s => s
  | l :: ls, n, s =>
    let s := s.latchLayer h l n keep
    latchLayers h keep ls (if (s.layer l).on && decide ((s.layer l).head = some h) then n + 1 else n) s

/-- Every layer of a head that stops lets go of its berth. -/
def clearLayers (h : Nat) : List Nat → State → State
  | [], s => s
  | l :: ls, s =>
    clearLayers h ls (if (s.layer l).head = some h then
      (s.layerClear l).setLayer l { (s.layerClear l).layer l with head := none } else s)

/-- A head stops. -/
def headStop (s : State) (h : Nat) : State :=
  let s := clearLayers h (List.range 16) s
  let s := s.setHead h { s.head h with run := false, under := false, lost := [], still := 0 }
  (s.setFld (Reg.SCN_HEAD_STATUS_STATE h) 0).setFld Reg.SCN_STATUS_ACTIVE (s.fld Reg.SCN_STATUS_ACTIVE &&& (0x3FF ^^^ 2 ^ h))

/-- The timecode a frame carries (R329). -/
def headTc (s : State) (h : Nat) : Option (List Nat) :=
  let tc := s.headFld h (Reg.SCN_HEAD_CFG_TC h)
  if tc = 1 then some (timeOfDay (s.fullNs s.sel) (s.dom s.sel).utc ((s.headRate h).getD (1, 24)))
  else if tc = 2 then some [s.headFld h (Reg.SCN_HEAD_TC_TC h)]
  else none

/-- Self-refresh at a latch (R333): `calm` when all conditions hold. -/
def headPsr (s : State) (h : Nat) (calm : Bool) : State :=
  let x := s.head h
  let st := s.fld (Reg.SCN_HEAD_STATUS_STATE h)
  let psr := decide (8 ≤ h) && decide (s.headFld h (Reg.SCN_HEAD_CFG_PSR h) = 1)
  let enter := psr && calm && (decide (st = 2) || decide (max 1 (s.headFld h (Reg.SCN_HEAD_CFG_PSR_N h)) ≤ x.still))
  (s.setHead h { x with still := if calm then x.still + 1 else 0 }).setFld (Reg.SCN_HEAD_STATUS_STATE h) (if enter then 2 else 1)

/-- The latch of frame `j` (R318, R319, R323, R328, R333, R225). -/
def headLatch (s : State) (h j : Nat) (base : Int) : State :=
  let x := s.head h
  let at_ := s.headInstant h base j
  let s := s.setHead h { x with
    run := true, base := base, frame := j, startAt := at_, under := false, ended := false, lost := [], epoch := s.sys.epoch, touched := false,
    tx := !s.pwr.txOff }
  let s := latchLayers h x.under (List.range 16) 0 s
  let s := s.setFld (Reg.SCN_HEAD_LATCH_FRAME_FRAME h) j
  let s := s.setFld (Reg.SCN_HEAD_LATCH_EPOCH_EPOCH h) s.sys.epoch
  let s := s.setFld2 (Reg.SCN_HEAD_LATCH_TIDE_LO h) (Reg.SCN_HEAD_LATCH_TIDE_HI h) s.tide
  let s := s.setHead h { s.head h with tc := s.headTc h }
  let calm := j ≠ 0 && !(s.head h).touched && !x.touched && !x.under && decide (x.epoch = s.sys.epoch)
  let s := s.headPsr h calm
  let s := s.setFld Reg.SCN_STATUS_ACTIVE (s.fld Reg.SCN_STATUS_ACTIVE ||| 2 ^ h)
  if s.replayMode then s else calBoundary (5 + h) s.now (List.range 41) s

/-- SCN_LATCH: the next latch of head `h`, once its instant is reached (R316, R318). -/
def scnLatch (s : State) (h : Nat) : State :=
  let x := s.head h
  if !s.scnRunning then s
  else if x.run then
    if s.headInstant h x.base (x.frame + 1) ≤ s.tideTime48 then
      let stop := x.pend.isSome || decide (s.fld (Reg.SCN_HEAD_CFG_EN h) = 0)
      if stop then (s.takeHead h).headStop h
      else
        let s := s.takeHead h
        if s.headOk h && !s.headQuadded h then s.headLatch h (x.frame + 1) x.base
        else (s.headStop h).scnRaise 2
    else s
  else match x.pend with
    | none => s
    | some base =>
      let t := s.takeHead h
      if t.headInstant h base 0 ≤ t.tideTime48 then
        let t := t.setHead h { t.head h with pend := none }
        if t.headFld h (Reg.SCN_HEAD_CFG_EN h) = 0 ∨ t.headQuadded h then t
        else if t.headOk h then t.headLatch h 0 base else t.scnRaise 2
      else s

/-- HEAD_START: landings at tide `n` that start heads (R316). -/
def headStarts (old : State) (n : Nat) : List Nat → State → State
  | [], s => s
  | h :: hs, s =>
    let ch := fun f => decide (old.fld f ≠ s.fld f)
    let x := s.head h
    let starts := decide (s.fld (Reg.SCN_HEAD_CFG_EN h) = 1) && s.scnRunning &&
      (x.wake || ch (Reg.SCN_HEAD_CFG_EN h) || ch (Reg.SCN_HEAD_CFG_RASTER h) || ch (Reg.SCN_HEAD_CFG_RATE h) || ch (Reg.SCN_HEAD_CFG_QUAD h))
    headStarts old n hs (s.setHead h { x with wake := false, pend := if starts then some (s.schedTime n) else x.pend })

/-! ### The end of a frame (R325, R334) -/

/-- The bytes a layer reads: a region of the frame store, or its berth. -/
def layerByte (s : State) (l : Nat) : Nat → Nat :=
  if s.layerSrc l = 2 then
    let b := (s.region (s.layerRegion l)).1 * 65536
    fun a => (s.scn.store.get (fun _ => 0) (b + a)).toNat
  else
    let h := (s.layer l).cur.getD 0
    let b := (s.berth h).base * 4096
    let n := (s.berth h).pages * 4096
    fun a => if a < n then (s.memByte (b + a)).toNat else 0

/-- A layer as the frame shows it. -/
def shown (s : State) (l : Nat) : Shown :=
  let f := s.layerFld l
  let x := s.layer l
  { geom := s.layerGeom l x.srcW x.srcH, byte := s.layerByte l
    srcX := f (Reg.SCN_LAYER_SRC_XY_SRC_X l), srcY := f (Reg.SCN_LAYER_SRC_XY_SRC_Y l)
    srcW := f (Reg.SCN_LAYER_SRC_WH_SRC_W_M1 l) + 1, srcH := f (Reg.SCN_LAYER_SRC_WH_SRC_H_M1 l) + 1
    dstX := f (Reg.SCN_LAYER_DST_XY_DST_X l), dstY := f (Reg.SCN_LAYER_DST_XY_DST_Y l)
    zx := f (Reg.SCN_LAYER_CFG_ZX_M1 l) + 1, zy := f (Reg.SCN_LAYER_CFG_ZY_M1 l) + 1
    alpha := min 256 (f (Reg.SCN_LAYER_ALPHA l))
    key := if f (Reg.SCN_LAYER_CFG_KEY_EN l) = 1 then
        let k := [f (Reg.SCN_LAYER_KEY_0_KEY_0 l), f (Reg.SCN_LAYER_KEY_0_KEY_1 l), f (Reg.SCN_LAYER_KEY_1_KEY_2 l)]
        some fun i => k.getD i 0
      else none }

/-- The composed active lines of a head's frame. -/
def picture (s : State) (h : Nat) : List (List (List Nat)) :=
  match s.headSize h with
  | none => []
  | some (w, hh, _) =>
    let bg := [s.headFld h (Reg.SCN_HEAD_BG_0_BG_0 h), s.headFld h (Reg.SCN_HEAD_BG_0_BG_1 h), s.headFld h (Reg.SCN_HEAD_BG_1_BG_2 h)]
    let ls := ((List.range 16).filter fun l => (s.layer l).on && decide ((s.layer l).head = some h)).map s.shown
    (List.range hh).map fun y =>
      composeLine (decide (h < 8)) w (fun k => bg.getD k 0) ls (((s.head h).lost.find? fun e => e.1 == y).map (·.2)) y

/-- SCN_FRAME_END: the CRC of the composed picture, the lines the interface carried, the log record and its comparison in replay (R334, R329, R331, R441). -/
def scnFrameEnd (s : State) (h : Nat) : State :=
  let x := s.head h
  if !x.run ∨ x.ended then s
  else
    let pic := s.picture h
    let crc := crc32 ((pic.map fun line => (line.map fun p => (p.map (bytesLE 2)).flatten).flatten).flatten)
    let sent := if h < 8 then pic.map sdiLine else pic.map fun line => (vfLine (s.vfDepth h) line).map BitVec.toNat
    let s := s.setHead h { x with ended := true, sent := if x.tx then sent else [] }
    let s := (s.setFld (Reg.SCN_HEAD_CRC_CRC h) crc).setFld (Reg.SCN_HEAD_STATUS_UNDERRUN_FRAME h) (b01 x.under)
    let ws := [x.frame % 2 ^ 32 + crc <<< 32]
    (s.logRec 0x0E h 0 ws).compareRec
      (fun r => decide (r.typ = 0x0E) && decide (r.src = h) && decide (r.body.headD 0 % 2 ^ 32 = x.frame % 2 ^ 32))
      (fun r => decide (r.body = ws)) (fun s => s.diverge s.tide 2 h 0 0) id

/-- SCN_UNDERRUN: data for pixel `px` of active line `line` have not arrived (R327, R328). -/
def scnUnderrun (s : State) (h line px : Nat) : State :=
  let x := s.head h
  match s.headSize h with
  | none => s
  | some (w, hh, _) =>
    if !x.run || decide (hh ≤ line) || decide (w ≤ px) || x.ended then s
    else
      let first := !(x.lost.any fun e => e.1 == line)
      let s := s.setHead h { x with under := true, lost := if first then x.lost ++ [(line, px)] else x.lost }
      let s := if first then s.count (Reg.SCN_HEAD_UNDERRUN_LINES h) else s
      let s := if x.under then s
        else (s.count (Reg.SCN_HEAD_UNDERRUN_FRAMES h)).declareOverrun 15
          (s.fld2 (Reg.SCN_HEAD_LATCH_TIDE_LO h) (Reg.SCN_HEAD_LATCH_TIDE_HI h))
      s.scnRaise 4

/-! ### Loads and control (R321, R335) -/

/-- SCN_LOAD_CMD.GO (R321). -/
def scnLoad (s : State) : State :=
  let r := s.fld Reg.SCN_LOAD_DST_REGION
  let h := s.fld Reg.SCN_LOAD_SRC_HANDLE
  let n := s.fld Reg.SCN_LOAD_LEN_BYTES
  let inUse := (List.range 16).any fun l => (s.layer l).on && decide (s.layerRegion l = r)
  let res := fun v (s : State) => s.setFld Reg.SCN_LOAD_CMD_RESULT v
  if s.scn.load.isSome then res 1 s
  else if inUse then res 2 s
  else if (s.berth h).st = .held ∧ (s.berth h).pages * 4096 < n then res 3 s
  else if (s.region r).2 * 65536 < n ∧ h ≠ 0 ∧ (s.berth h).st = .held then res 4 s
  else
    let (s, ok) := s.acquire 15 h
    if !ok then res 3 s
    else ({ s with scn := { s.scn with load := some (r, h, n) } } : State).setFld Reg.SCN_LOAD_CMD_BUSY 1

/-- SCN_LOAD_DONE: the region holds the berth's bytes (R321). -/
def scnLoadDone (s : State) : State :=
  match s.scn.load with
  | none => s
  | some (r, h, n) =>
    let bs := s.peek h 0 n
    let s := { s with scn := { s.scn with store := storeBytes s.scn.store ((s.region r).1 * 65536) bs, load := none } }
    let s := { s with scn := { s.scn with heads := s.scn.heads.map fun (e : Nat × Head) =>
      (e.1, if (List.range 16).any (fun l => decide ((s.layer l).head = some e.1) && decide (s.layerRegion l = r)) then
          { e.2 with touched := true } else e.2) } }
    let s := s.scnRelease h
    ((s.setFld Reg.SCN_LOAD_CMD_BUSY 0).setFld Reg.SCN_LOAD_CMD_RESULT 0).scnRaise 0x10

def headStops : List Nat → State → State
  | [], s => s
  | h :: hs, s => headStops hs ((s.headStop h).setHead h {})

def dropEntries : List QEnt → State → State
  | [], s => s
  | q :: qs, s => dropEntries qs (if q.held then s.scnRelease q.h else s)

def dropQueues : List Nat → State → State
  | [], s => s
  | l :: ls, s => dropQueues ls ((dropEntries (s.queue (layerQ l)) s).setQueue (layerQ l) [])

def wakeHeads : List Nat → State → State
  | [], s => s
  | h :: hs, s => wakeHeads hs (s.setHead h { s.head h with wake := true })

/-- SCN_CTRL.OP (R335): 1 RUN, 2 STOP. -/
def scnOp (s : State) (op : Nat) : State :=
  if op = 1 then
    if s.scnRunning then s else wakeHeads (List.range 10) (s.setFld Reg.SCN_STATUS_STATE 1)
  else if op = 2 then
    let s := headStops (List.range 10) s
    let s := dropQueues (List.range 16) s
    let s := match s.scn.load with
      | some (_, h, _) => ({ s with scn := { s.scn with load := none } }.scnRelease h).setFld Reg.SCN_LOAD_CMD_BUSY 0
      | none => s
    s.setFld Reg.SCN_STATUS_STATE 0
  else s

end State

/-! ### Commands -/

/-- SCN_LATCH (R318). -/
def execScnLatch (h : Fin 10) (s : State) : Res := .next (s.scnLatch h)

/-- SCN_UNDERRUN (R327). -/
def execScnUnderrun (h : Fin 10) (line x : Nat) (s : State) : Res := .next (s.scnUnderrun h line x)

/-- SCN_FRAME_END (R334). -/
def execScnFrameEnd (h : Fin 10) (s : State) : Res := .next (s.scnFrameEnd h)

/-- SCN_LOAD_DONE (R321). -/
def execScnLoadDone (s : State) : Res := .next s.scnLoadDone

end Sys2Proof.Machine
end

