-- ==== Sys2Proof/Machine/Sha.lean ====
section
/-! DEFINITION. SHA-384 (R80 HINIT, R423, R428 and the other uses the spec names): padding, message schedule, rounds and digest over 64-bit words. -/

namespace Sys2Proof.Machine.Sha

/-- Round constants 0 to 39. -/
def k0 : List (BitVec 64) := [
  0x428a2f98d728ae22, 0x7137449123ef65cd, 0xb5c0fbcfec4d3b2f, 0xe9b5dba58189dbbc,
  0x3956c25bf348b538, 0x59f111f1b605d019, 0x923f82a4af194f9b, 0xab1c5ed5da6d8118,
  0xd807aa98a3030242, 0x12835b0145706fbe, 0x243185be4ee4b28c, 0x550c7dc3d5ffb4e2,
  0x72be5d74f27b896f, 0x80deb1fe3b1696b1, 0x9bdc06a725c71235, 0xc19bf174cf692694,
  0xe49b69c19ef14ad2, 0xefbe4786384f25e3, 0x0fc19dc68b8cd5b5, 0x240ca1cc77ac9c65,
  0x2de92c6f592b0275, 0x4a7484aa6ea6e483, 0x5cb0a9dcbd41fbd4, 0x76f988da831153b5,
  0x983e5152ee66dfab, 0xa831c66d2db43210, 0xb00327c898fb213f, 0xbf597fc7beef0ee4,
  0xc6e00bf33da88fc2, 0xd5a79147930aa725, 0x06ca6351e003826f, 0x142929670a0e6e70,
  0x27b70a8546d22ffc, 0x2e1b21385c26c926, 0x4d2c6dfc5ac42aed, 0x53380d139d95b3df,
  0x650a73548baf63de, 0x766a0abb3c77b2a8, 0x81c2c92e47edaee6, 0x92722c851482353b]

/-- Round constants 40 to 79. -/
def k1 : List (BitVec 64) := [
  0xa2bfe8a14cf10364, 0xa81a664bbc423001, 0xc24b8b70d0f89791, 0xc76c51a30654be30,
  0xd192e819d6ef5218, 0xd69906245565a910, 0xf40e35855771202a, 0x106aa07032bbd1b8,
  0x19a4c116b8d2d0c8, 0x1e376c085141ab53, 0x2748774cdf8eeb99, 0x34b0bcb5e19b48a8,
  0x391c0cb3c5c95a63, 0x4ed8aa4ae3418acb, 0x5b9cca4f7763e373, 0x682e6ff3d6b2b8a3,
  0x748f82ee5defb2fc, 0x78a5636f43172f60, 0x84c87814a1f0ab72, 0x8cc702081a6439ec,
  0x90befffa23631e28, 0xa4506cebde82bde9, 0xbef9a3f7b2c67915, 0xc67178f2e372532b,
  0xca273eceea26619c, 0xd186b8c721c0c207, 0xeada7dd6cde0eb1e, 0xf57d4f7fee6ed178,
  0x06f067aa72176fba, 0x0a637dc5a2c898a6, 0x113f9804bef90dae, 0x1b710b35131c471b,
  0x28db77f523047d84, 0x32caab7b40c72493, 0x3c9ebe0a15c9bebc, 0x431d67c49c100d4c,
  0x4cc5d4becb3e42b6, 0x597f299cfc657e2a, 0x5fcb6fab3ad6faec, 0x6c44198c4a475817]

/-- The initial hash value of SHA-384. -/
def iv : List (BitVec 64) := [
  0xcbbb9d5dc1059ed8, 0x629a292a367cd507, 0x9159015a3070dd17, 0x152fecd8f70e5939,
  0x67332667ffc00b31, 0x8eb44a8768581511, 0xdb0c2e0d64f98fa7, 0x47b5481dbefa4fa4]

def rotr (x : BitVec 64) (n : Nat) : BitVec 64 := x.rotateRight n
def ch (x y z : BitVec 64) : BitVec 64 := (x &&& y) ^^^ (~~~x &&& z)
def maj (x y z : BitVec 64) : BitVec 64 := (x &&& y) ^^^ (x &&& z) ^^^ (y &&& z)
def sum0 (x : BitVec 64) : BitVec 64 := rotr x 28 ^^^ rotr x 34 ^^^ rotr x 39
def sum1 (x : BitVec 64) : BitVec 64 := rotr x 14 ^^^ rotr x 18 ^^^ rotr x 41
def sig0 (x : BitVec 64) : BitVec 64 := rotr x 1 ^^^ rotr x 8 ^^^ (x >>> 7)
def sig1 (x : BitVec 64) : BitVec 64 := rotr x 19 ^^^ rotr x 61 ^^^ (x >>> 6)

/-- The schedule extended by `n` words; the list holds the newest word first. -/
def extend : Nat → List (BitVec 64) → List (BitVec 64)
  | 0, w => w
  | n + 1, w => extend n ((sig1 (w.getD 1 0) + w.getD 6 0 + sig0 (w.getD 14 0) + w.getD 15 0) :: w)

/-- One round. -/
def round (h : List (BitVec 64)) (kw : BitVec 64 × BitVec 64) : List (BitVec 64) :=
  match h with
  | [a, b, c, d, e, f, g, hh] =>
    let t1 := hh + sum1 e + ch e f g + kw.1 + kw.2
    let t2 := sum0 a + maj a b c
    [t1 + t2, a, b, c, d + t1, e, f, g]
  | _ => h

/-- One 128-byte block, as its 16 words. -/
def block (h : List (BitVec 64)) (w : List (BitVec 64)) : List (BitVec 64) :=
  let ws := (extend 64 w.reverse).reverse
  List.zipWith (· + ·) h (((k0 ++ k1).zip ws).foldl round h)

/-- The 64-bit big-endian words of a byte string of `8 n` bytes. -/
def words : Nat → List Byte → List (BitVec 64)
  | 0, _ => []
  | n + 1, bs => BitVec.ofNat 64 (ofBytesBE (bs.take 8)) :: words n (bs.drop 8)

/-- The message padded to whole blocks. -/
def pad (bs : List Byte) : List Byte :=
  let n := bs.length
  bs ++ [0x80] ++ zeros ((240 - (n + 1) % 128) % 128) ++ bytesBE 16 (8 * n)

/-- `n` blocks in order. -/
def blocks : Nat → List (BitVec 64) → List Byte → List (BitVec 64)
  | 0, h, _ => h
  | n + 1, h, bs => blocks n (block h (words 16 bs)) (bs.drop 128)

/-- SHA-384 of a byte string: 48 bytes. -/
def sha384 (bs : List Byte) : List Byte :=
  let p := pad bs
  ((blocks (p.length / 128) iv p).take 6).flatMap fun w => bytesBE 8 w.toNat

end Sys2Proof.Machine.Sha
end

