-- ==== Sys2Proof/Machine/Sec.lean ====
section
/-! DEFINITION. SEC: keys, owner slots, clip keys, commands, image checks, sessions' handshake, the hash chain and its signatures, attestation (R410 to R431). -/

namespace Sys2Proof.Machine

/-! ### Statements and keys (R411, R413) -/

/-- The bytes of an ASCII string. -/
def ascii (x : String) : List Byte := x.toList.map fun c => BitVec.ofNat 8 c.toNat

/-- A signed statement S(label, D). -/
def statement (label : String) (d : List Byte) : List Byte := padTo 16 (ascii label) ++ padTo 48 d

/-- A key that SEC derives from RS. -/
def derived (label : String) (n : Nat) : List Byte := padTo n (Config.kdf Config.rootSecret (ascii label) [] n)

def idEcKey : List Byte := derived "DXM-ID-EC" 48
def idMlSeed : List Byte := derived "DXM-ID-MLDSA" 32
def exchangeKey : List Byte := derived "DXM-XCHG" 48
def storageKey : List Byte := derived "DXM-STORAGE" 32
def idEcPub : List Byte := padTo 97 (Config.ecPublic idEcKey)
def idMlPub : List Byte := padTo 1952 (Config.mlPublic idMlSeed)
def exchangePub : List Byte := padTo 97 (Config.ecPublic exchangeKey)

/-- The identity keys' dual signature, with an ECDSA nonce drawn from the TRNG. -/
def idSign (st nonce : List Byte) : List Byte :=
  padTo 96 (Config.ecdsaSign idEcKey st nonce) ++ padTo 3309 (Config.mldsaSign idMlSeed st)

/-- A dual signature verifies. -/
def dualVerify (ec ml st sig : List Byte) : Bool := Config.ecdsaVerify ec st (sig.take 96) && Config.mldsaVerify ml st ((sig.drop 96).take 3309)

/-- The slot hash of a root (R413). -/
def slotHash (ec ml : List Byte) : List Byte := Sha.sha384 (ec ++ Sha.sha384 ml)

/-- `n` bytes of a byte string from place `i` on. -/
def slice (bs : List Byte) (i n : Nat) : List Byte := (bs.drop i).take n

/-! ### Leaves (R424) -/

/-- A leaf of 64 bytes. -/
def leafBytes (l : Leaf) : List Byte :=
  bytesLE 2 l.stream ++ bytesLE 1 l.kind ++ bytesLE 1 (l.stratum % 4 + 4 * (l.plane % 16)) ++ bytesLE 2 l.firstRow ++ bytesLE 2 (b01 l.late) ++
    bytesLE 6 l.tide ++ zeros 2 ++ padTo 48 l.h

/-- The order of on-time leaves. -/
def leafLe (a b : Leaf) : Bool :=
  if a.stream ≠ b.stream then decide (a.stream < b.stream)
  else if a.kind ≠ b.kind then decide (a.kind < b.kind)
  else if a.stratum ≠ b.stratum then decide (a.stratum < b.stratum)
  else if a.plane ≠ b.plane then decide (a.plane < b.plane)
  else if a.firstRow ≠ b.firstRow then decide (a.firstRow < b.firstRow)
  else decide (ofBytesBE a.h ≤ ofBytesBE b.h)

def insertLeaf (x : Leaf) : List Leaf → List Leaf
  | [] => [x]
  | y :: ys => if leafLe y x then y :: insertLeaf x ys else x :: y :: ys

def sortLeaves (l : List Leaf) : List Leaf := l.foldl (fun acc x => insertLeaf x acc) []

namespace State

def secRaise (s : State) (m : Nat) : State := s.raise 0x40020 0x40024 21 m
def secReady (s : State) : Bool := s.flag Reg.SEC_STATUS_READY
def setSec (s : State) (x : Sec) : State := { s with sec := x }

/-- `n` bytes drawn from SEC's TRNG (R412): never logged. -/
def trngBytes (s : State) (n : Nat) : List Byte :=
  padTo n ((List.range (ceilDiv n 8)).map fun i => bytesLE 8 (Config.trng (s.fresh + i)).toNat).flatten

/-- The state after a draw of `n` bytes. -/
def drew (s : State) (n : Nat) : State := { s with fresh := s.fresh + ceilDiv n 8 }

/-! ### Readiness and status (R410, R411, R416) -/

def ownerSlot (s : State) (k : Nat) : List Byte := s.sec.slots.get (fun _ => []) k

/-- Slot `k` is burnt and not revoked. -/
def slotLive (s : State) (k : Nat) : Bool := decide (k < 4) && decide (s.ownerSlot k ≠ []) && !bit s.sec.revoked k

/-- A local session's register: open for a READY device whose fuse does not deny the master (R416). -/
def showLocal (s : State) (i : Nat) : State :=
  let deny := bit s.sec.policy (i - 8)
  let st := if deny then 3 else if s.secReady then 2 else 0
  ((s.setFld (Reg.SEC_SESS_STATE i) st).setFld (Reg.SEC_SESS_MASTER i) (i - 7)).setFld (Reg.SEC_SESS_CLAIM i) (b01 (st = 2))

/-- SEC_STATUS shows the fuse bank. -/
def showSec (s : State) : State :=
  let owners := ((List.range 4).filter fun k => decide (s.ownerSlot k ≠ [])).foldl (fun a k => a + 2 ^ k) 0
  let s := ((s.setFld Reg.SEC_STATUS_OWNERS owners).setFld Reg.SEC_STATUS_REVOKED s.sec.revoked).setFld Reg.SEC_STATUS_POLICY s.sec.policy
  ((s.showLocal 8).showLocal 9).showLocal 10

/-- SEC_READY: the self-tests and the derivations end. -/
def ready (s : State) (ok : Bool) : State :=
  if s.secReady ∨ s.flag Reg.SEC_STATUS_FAIL then s
  else if !ok then s.setFld Reg.SEC_STATUS_FAIL 1
  else
    let h := Sha.sha384 idEcPub
    ((s.setFld Reg.SEC_STATUS_READY 1).setFld2 Reg.SEC_ID_LO Reg.SEC_ID_HI (ofBytesLE (h.take 8))).showSec

/-! ### Images (R415) -/

/-- SEC accepts an image: its header, code and data, its signature block, and whether it is a replay image. -/
def imageOk (s : State) (signed block : List Byte) (replay : Bool) : Bool :=
  let k := hdrAt block 6 1
  let ec := slice block 64 97
  let ml := slice block 161 1952
  let sec := slice block 2113 97
  let sml := slice block 2210 1952
  s.secReady && decide (block.length = 10972) && decide (block.take 4 = [0x53, 0x49, 0x47, 0x42]) && decide (hdrAt block 4 2 = 1) &&
    s.slotLive k && decide (slotHash ec ml = s.ownerSlot k) &&
    dualVerify ec ml (statement "DXM-DELEGATE" (Sha.sha384 (block.take 64 ++ slice block 2113 2049))) (slice block 4162 3405) &&
    bit (hdrAt block 7 1) (b01 replay) &&
    dualVerify sec sml (statement "DXM-IMAGE" (Sha.sha384 signed)) (slice block 7567 3405)

/-! ### The command's input and output (R430) -/

/-- Input bytes of a command: SEC_CMD_DATA for handle 0, otherwise a berth at SEC_CMD_OFS; none when it cannot be read. -/
def secInput (s : State) (h n : Nat) : State × Option (List Byte) :=
  if h = 0 then
    (s, if n ≤ 1024 then some (((List.range (ceilDiv n 4)).map fun i => bytesLE 4 (s.fld (Reg.SEC_CMD_DATA_DATA i))).flatten.take n) else none)
  else
    let ofs := s.fld Reg.SEC_CMD_OFS_OFS
    match s.acquire 21 h with
    | (s, false) => (s, none)
    | (s, true) =>
      let c := s.accessCause 21 h ofs n
      let (s, bs) := s.readBerth 21 h ofs n
      (s.releaseTable 21 h, if c = 0 then some bs else none)

/-- Write a command's output to its berth; false when it cannot be written. -/
def secOutput (s : State) (h : Nat) (bs : List Byte) : State × Bool :=
  let ofs := s.fld Reg.SEC_CMD_OFS_OFS
  match s.acquire 21 h with
  | (s, false) => (s, false)
  | (s, true) =>
    let c := s.accessCause 21 h ofs bs.length
    ((s.writeBerth 21 h ofs bs).releaseTable 21 h, decide (c = 0))

/-! ### Owners and policy (R414) -/

def anyOwner (s : State) : Bool := (List.range 4).any fun k => decide (s.ownerSlot k ≠ [])

/-- OWNER_BURN: result and state. -/
def ownerBurn (s : State) (k h : Nat) (burnt : Bool) : State × Nat :=
  let first := !s.anyOwner
  if 4 ≤ k ∨ s.ownerSlot k ≠ [] then (s, 2)
  else match s.secInput h (if first then 2049 else 5455) with
    | (s, none) => (s, if h = 0 then 2 else 8)
    | (s, some bs) =>
      let hash := slotHash (bs.take 97) (slice bs 97 1952)
      let j := hdrAt bs 2049 1
      let ok := first || (s.slotLive j && Config.rootSigned (s.ownerSlot j)
        (statement "DXM-OWNER" (Sha.sha384 (bytesLE 1 k ++ hash))) (slice bs 2050 3405))
      if !ok then (s, 3)
      else if !burnt then (s, 10)
      else ((s.setSec { s.sec with slots := s.sec.slots.set (fun _ => []) k hash }).showSec, 0)

/-- OWNER_REVOKE. -/
def ownerRevoke (s : State) (k h : Nat) (burnt : Bool) : State × Nat :=
  if !s.slotLive k then (s, 2)
  else if ((List.range 4).filter s.slotLive).length = 1 then (s, 6)
  else match s.secInput h 5455 with
    | (s, none) => (s, if h = 0 then 2 else 8)
    | (s, some bs) =>
      let j := hdrAt bs 0 1
      let ec := slice bs 1 97
      let ml := slice bs 98 1952
      if j = k then (s, 2)
      else if !(s.slotLive j && decide (slotHash ec ml = s.ownerSlot j) &&
          dualVerify ec ml (statement "DXM-REVOKE" (Sha.sha384 (bytesLE 1 k))) (slice bs 2050 3405)) then (s, 3)
      else if !burnt then (s, 10)
      else ((s.setSec { s.sec with revoked := s.sec.revoked ||| 2 ^ k }).showSec, 0)

/-- POLICY_BURN. -/
def policyBurn (s : State) (mask : Nat) (burnt : Bool) : State × Nat :=
  if !s.anyOwner ∨ 8 ≤ mask then (s, 2)
  else if !burnt then (s, 10)
  else ((s.setSec { s.sec with policy := s.sec.policy ||| mask }).showSec, 0)

/-! ### Clips, recipients, the array key (R419 to R421) -/

/-- A wrapped entry of a key block. -/
def wrapEntry (type : Nat) (pub eph nonce key wrap id : List Byte) : List Byte :=
  let head := bytesLE 1 type ++ zeros 15 ++ padTo 48 pub ++ padTo 97 eph ++ zeros 3
  let (c, tag) := gcmSeal wrap nonce (head ++ id) key
  head ++ nonce ++ c ++ tag

/-- The key an entry wraps, if its tag verifies. -/
def unwrapEntry (e wrap id : List Byte) : Option (List Byte) :=
  let (k, ok) := gcmOpen wrap (slice e 164 12) (e.take 164 ++ id) (slice e 176 32) (slice e 208 16)
  if ok then some k else none

/-- The entries for the recipients of a mask, each with an ephemeral key and a nonce of its own. -/
def recipEntries (ck id : List Byte) : List Nat → State → State × List Byte
  | [], s => (s, [])
  | r :: rs, s =>
    let pub := s.sec.recips.get (fun _ => []) r
    let eph := s.trngBytes 48
    let nonce := (s.drew 48).trngBytes 12
    let wrap := padTo 32 (Config.kdf (Config.ecdh eph pub) (ascii "DXM-CLIPWRAP") id 32)
    let (s, rest) := recipEntries ck id rs ((s.drew 48).drew 12)
    (s, wrapEntry 1 (Sha.sha384 pub) (padTo 97 (Config.ecPublic eph)) nonce ck wrap id ++ rest)

/-- RECIP_SET. -/
def recipSet (s : State) (r h : Nat) : State × Nat :=
  if 4 ≤ r then (s, 2)
  else match s.secInput h 97 with
    | (s, none) => (s, 8)
    | (s, some bs) => (s.setSec { s.sec with recips := s.sec.recips.set (fun _ => []) r bs }, 0)

def clipOpenFor (s : State) (clip : Nat) : Bool := s.sec.clips.any fun e => decide (e.1 = clip)

/-- CLIP_OPEN. -/
def clipOpen (s : State) (mask h : Nat) : State × Nat :=
  let clip := s.fld Reg.SEC_CMD_ARG_ARG
  let rs := onesBelow 4 mask
  if s.clipOpenFor clip || decide (h = 0) || decide (s.fld Reg.SEC_CMD_OFS_OFS % 64 ≠ 0) ||
      (rs.any fun r => decide (s.sec.recips.get (fun _ => []) r = [])) then (s, 2)
  else if 16 ≤ s.sec.clips.length then (s, 4)
  else
    let id := bytesLE 4 clip
    let ck := s.trngBytes 32
    let nonce := (s.drew 32).trngBytes 12
    let (s, rest) := recipEntries ck id rs ((s.drew 32).drew 12)
    let block := [0x43, 0x4B, 0x45, 0x59] ++ bytesLE 2 1 ++ bytesLE 1 (1 + rs.length) ++ zeros 9 ++ wrapEntry 0 [] [] nonce ck storageKey id ++ rest
    match s.secOutput h block with
    | (s, false) => (s, 8)
    | (s, true) => (s.setSec { s.sec with clips := s.sec.clips ++ [(clip, ck)] }, 0)

/-- CLIP_LOAD. -/
def clipLoad (s : State) (h : Nat) : State × Nat :=
  let clip := s.fld Reg.SEC_CMD_ARG_ARG
  if s.clipOpenFor clip then (s, 2)
  else if 16 ≤ s.sec.clips.length then (s, 4)
  else match s.secInput h 240 with
    | (s, none) => (s, 8)
    | (s, some bs) =>
      if bs.take 6 ≠ [0x43, 0x4B, 0x45, 0x59, 1, 0] ∨ hdrAt bs 16 1 ≠ 0 then (s, 2)
      else match unwrapEntry (slice bs 16 224) storageKey (bytesLE 4 clip) with
        | none => (s, 3)
        | some ck => (s.setSec { s.sec with clips := s.sec.clips ++ [(clip, ck)] }, 0)

/-- CLIP_CLOSE. -/
def clipClose (s : State) : State × Nat :=
  let clip := s.fld Reg.SEC_CMD_ARG_ARG
  if s.clipOpenFor clip then (s.setSec { s.sec with clips := s.sec.clips.filter fun e => !decide (e.1 = clip) }, 0) else (s, 5)

/-- ARRAY_KEY: the key ID is SEC_CMD_ARG (log entry 20). -/
def arrayKey (s : State) (h : Nat) : State × Nat :=
  let id := s.fld Reg.SEC_CMD_ARG_ARG
  match s.secInput h 224 with
  | (s, none) => (s, 8)
  | (s, some bs) =>
    let wrap := padTo 32 (Config.kdf (Config.ecdh exchangeKey (slice bs 64 97)) (ascii "DXM-ARRAY") (bytesLE 4 id) 32)
    if hdrAt bs 0 1 ≠ 2 then (s, 2)
    else match unwrapEntry bs wrap (bytesLE 4 id) with
      | none => (s, 3)
      | some k => ((s.setSec { s.sec with array := some (id, k) }).setFld Reg.SEC_ARRAY_KEY_ID id, 0)

/-! ### Certificates and attestation (R427, R428) -/

/-- CERT_LOAD. -/
def certLoad (s : State) (h : Nat) : State × Nat :=
  let n := s.fld Reg.SEC_CMD_ARG_ARG
  if h = 0 ∨ n = 0 ∨ 16384 < n then (s, 2)
  else match s.secInput h n with
    | (s, none) => (s, 8)
    | (s, some bs) =>
      if Config.certsOk bs idEcPub idMlPub then ((s.setSec { s.sec with certs := bs }).setFld Reg.SEC_STATUS_CERT_OK 1, 0)
      else ((s.setSec { s.sec with certs := [] }).setFld Reg.SEC_STATUS_CERT_OK 0, 9)

/-- Code of a pilot state (PILOT_STATUS.STATE). -/
def pilotCode : PState → Nat
  | .empty => 0 | .loaded => 1 | .running => 2 | .waiting => 3 | .halted => 4 | .stopped => 5

def chain (s : State) (d : Nat) : Chain := s.sec.chains.get (fun _ => {}) d
def setChain (s : State) (d : Nat) (x : Chain) : State := s.setSec { s.sec with chains := s.sec.chains.set (fun _ => {}) d x }

/-- The attestation report, and the certificate chain after it. -/
def attestReport (s : State) : List Byte :=
  let owners := s.fld Reg.SEC_STATUS_OWNERS
  let challenge := ((List.range 8).map fun i => bytesLE 4 (s.fld (Reg.SEC_CMD_DATA_DATA i))).flatten
  let die := ((List.range 8).map fun i => bytesLE 4 (s.fld (Reg.SYS_DIE_ID_VALUE i))).flatten
  let head := [0x41, 0x54, 0x53, 0x54, 1] ++ bytesLE 1 owners ++ bytesLE 1 s.sec.revoked ++ bytesLE 1 s.sec.policy ++ challenge ++
    bytesLE 6 s.tide ++ bytesLE 2 (s.fld Reg.SYS_ARRAY_ID_ID) ++ bytesLE 8 s.capture ++ die ++ Sha.sha384 idEcPub ++ Sha.sha384 idMlPub ++
    exchangePub ++ zeros 3 ++ bytesLE 4 s.sec.certs.length
  let pilots := (List.range 16).map fun k =>
    let p := s.pilot k
    bytesLE 1 (pilotCode p.st) ++ bytesLE 1 p.owner ++ zeros 2 ++ bytesLE 4 p.serial ++ bytesLE 8 p.buildId ++ padTo 48 p.imageHash
  let domains := (List.range 31).map fun i =>
    let c := s.chain (i + 1)
    bytesLE 1 (i + 1) ++ bytesLE 1 (s.fld (Reg.SEC_DOM_EN (i + 1))) ++ bytesLE 6 c.tide ++ padTo 48 c.c ++ zeros 8
  let body := head ++ pilots.flatten ++ domains.flatten
  let sig := idSign (statement "DXM-ATTEST" (Sha.sha384 body)) (s.trngBytes 48)
  if s.sec.certs = [] then body ++ sig else padTo 6720 (body ++ sig) ++ s.sec.certs

/-- ATTEST. -/
def attest (s : State) (h : Nat) : State × Nat :=
  if h = 0 ∨ s.fld Reg.SEC_CMD_OFS_OFS % 64 ≠ 0 then (s, 2)
  else match (s.drew 48).secOutput h s.attestReport with
    | (s, ok) => (s, if ok then 0 else 8)

/-! ### SEC_CMD (R430) -/

/-- A command's effect and its result: NOT_READY, OWNER_ONLY, MODE, then the command's own. -/
def secRun (s : State) (m op slot h : Nat) (burnt : Bool) : State × Nat :=
  let burn := decide (op = 2 ∨ op = 3 ∨ op = 4)
  if !s.secReady then (s, 11)
  else if burn && decide (16 ≤ m) then (s, 12)
  else if s.replayMode && (burn || decide (op = 6 ∨ op = 7 ∨ op = 9 ∨ op = 10)) then (s, 7)
  else if burn && decide (s.fld Reg.SEC_CMD_KEY_KEY ≠ 0x5EC00F5E) then (s, 2)
  else match op with
    | 1 => s.certLoad h
    | 2 => s.ownerBurn slot h burnt
    | 3 => s.ownerRevoke slot h burnt
    | 4 => s.policyBurn slot burnt
    | 5 => s.recipSet slot h
    | 6 => s.clipOpen slot h
    | 7 => s.clipLoad h
    | 8 => s.clipClose
    | 9 => s.arrayKey h
    | _ => s.attest h

/-- A write of SEC_CMD by master `m`: while BUSY it returns BUSY and is discarded. -/
def secCmd (s : State) (m w : Nat) (burnt : Bool) : State :=
  let op := bits w 31 28
  if op = 0 ∨ 10 < op then s
  else if s.flag Reg.SEC_CMD_STATUS_BUSY then s.setFld Reg.SEC_CMD_STATUS_RESULT 1
  else
    let (s, r) := s.secRun m op (bits w 23 16) (bits w 15 0) burnt
    (s.setSec { s.sec with cmd := some (op, r) }).setFld Reg.SEC_CMD_STATUS_BUSY 1

/-- SEC_CMD_DONE: the result, the event, the logbook's NOTE. -/
def secDone (s : State) : State :=
  match s.sec.cmd with
  | none => s
  | some (op, r) =>
    let s := ((s.setSec { s.sec with cmd := none }).setFld Reg.SEC_CMD_STATUS_BUSY 0).setFld Reg.SEC_CMD_STATUS_RESULT r
    (s.secRaise 16).note 21 op r (s.fld Reg.SEC_CMD_ARG_ARG)

/-! ### Output records (R426) -/

/-- SEC_PUSH. -/
def secQ : Nat := 0x40030
def secPush (s : State) (h : Nat) : State := (s.pushQ secQ 8 ⟨h, 0, false⟩).1

/-- A place for `n` bytes: the present berth, or the next ones of the queue. -/
def secRoom (s : State) (n : Nat) : Nat → State × Option (Nat × Nat)
  | 0 => (s, none)
  | fuel + 1 => match s.sec.out with
    | some (h, ofs) =>
      if ofs + n ≤ (s.berth h).pages * 4096 then (s, some (h, ofs))
      else ((s.setSec { s.sec with out := none }).releasePost 21 21 h).secRoom n fuel
    | none => match s.popQ secQ with
      | (s, none) => (s, none)
      | (s, some e) => match s.acquire 21 e.h with
        | (s, false) => s.secRoom n fuel
        | (s, true) => (s.setSec { s.sec with out := some (e.h, 0) }).secRoom n fuel

/-- The number of a HASH parcel among those of its tide (R23). -/
def secSeq (s : State) (n : Nat) : State × Nat :=
  let k := ((s.sec.seqs.find? fun e => decide (e.1 = n)).map (·.2)).getD 0
  let rest := s.sec.seqs.filter fun e => !decide (e.1 = n)
  (s.setSec { s.sec with seqs := ((n, k + 1) :: rest).take 64 }, k)

/-- Write a record as a HASH parcel: plane 0 for an entry, 1 for a signature (R426). -/
def secWrite (s : State) (n plane : Nat) (bs : List Byte) : State :=
  let size := ceilDiv bs.length 64 * 64
  match s.secRoom size (2 * (s.queue secQ).length + 3) with
  | (s, none) => (s.count Reg.SEC_CNT_LOST).secRaise 2
  | (s, some (h, ofs)) =>
    let (s, k) := s.secSeq n
    let st := s.stamp (s.ownTide 21 - 1)
    let m : Manifest := { st with
      stream := 0, kind := 0xD, stratum := 0, plane := plane, domain := 0, tide := n, frame := 0, expSet := 0
      firstRow := k % 65536, rows := 0, handle := h, flags := st.flags ||| s.ovrFlag 21 n }
    (s.setSec { s.sec with out := some (h, ofs + size) }).emit 21 m ofs (padTo size bs)

/-! ### The chain (R423 to R425) -/

/-- The domains enabled from tide `n` on are noted as its landing leaves them. -/
def noteDomains (s : State) (n : Nat) : State :=
  let mask := ((List.range 32).filter fun d => decide (d ≠ 0) && decide (s.fld (Reg.SEC_DOM_EN d) = 1)).foldl (fun a d => a + 2 ^ d) 0
  s.setSec { s.sec with masks := ((n, mask) :: s.sec.masks).take 16 }

/-- Domain `d` was enabled in tide `n`. -/
def domainOn (s : State) (d n : Nat) : Bool := match s.sec.masks.find? fun e => decide (e.1 = n) with | some e => bit e.2 d | none => false

/-- Close the entry of domain `d` for tide `n`. -/
def closeEntry (s : State) (d n : Nat) : State :=
  let x := s.chain d
  let first := decide (n = 0) || !s.domainOn d (n - 1)
  let last := !s.domainOn d (n + 1)
  let mine := sortLeaves (x.leaves.filter fun (l : Leaf) => decide (l.tide = n))
  let leaves := ((mine ++ x.late).map leafBytes).flatten
  let head := [0x43, 0x48, 0x4E, 0x45] ++ bytesLE 1 d ++ bytesLE 1 1 ++ bytesLE 2 (b01 first + 2 * b01 last) ++ bytesLE 6 n ++
    bytesLE 2 (s.fld Reg.SYS_ARRAY_ID_ID) ++ bytesLE 4 mine.length ++ bytesLE 4 x.late.length ++ Sha.sha384 leaves ++
    (if first then zeros 48 else padTo 48 x.c)
  let c := Sha.sha384 head
  let s := s.secWrite n 0 (head ++ c ++ zeros 24 ++ leaves)
  let every := s.fld (Reg.SEC_DOM_SIGN_EVERY d)
  let due := decide (every ≠ 0) && decide (n % every = 0)
  let s := if due && x.sign.isSome then (s.count (Reg.SEC_DOM_SKIPPED d)).secRaise 4 else s
  let s := s.setChain d { x with
    leaves := x.leaves.filter fun (l : Leaf) => !decide (l.tide = n), late := [], c := c, tide := n, closed := n + 1
    sign := if due then some (n, c) else x.sign }
  s.setFld2 (Reg.SEC_DOM_TIDE_LO d) (Reg.SEC_DOM_TIDE_HI d) n

def closeEntries (n : Nat) : List Nat → State → State
  | [], s => s
  | d :: ds, s => closeEntries n ds (if s.domainOn d n then s.closeEntry d n else s)

/-- SEC's own tide `k`: it closes the entries of tide k − 3 in ascending domain order (R423). -/
def secTide (s : State) (k : Nat) : State := if k < 3 then s else closeEntries (k - 3) ((List.range 32).drop 1) s

/-- The key of a leaf record: stream, kind, stratum, plane, tide and first row (R442). -/
def leafKey (ws : List Nat) : Nat × Nat := (ws.headD 0 % 2 ^ 48, (ws.getD 1 0) % 2 ^ 48)

/-- The key word of the divergence report (R445). -/
def leafDiv (l : Leaf) : Nat := l.kind <<< 28 + l.plane <<< 24 + l.stratum <<< 20 + l.firstRow

/-- A live leaf in replay against the logged leaf of its key (R441, R442). -/
def liveLeaf (s : State) (d : Nat) (l : Leaf) : State :=
  if !s.replaying then s
  else
    let ws := words8 (leafBytes { l with late := false })
    match s.log.replay.find? fun (r : LogRec) => decide (r.typ = 0x0D) && decide (leafKey r.body = leafKey ws) with
    | none => { s with log := { s.log with live := s.log.live ++ [⟨0x0D, d, 0, l.tide, ws⟩] } }
    | some r =>
      let s := { s with log := { s.log with replay := s.log.replay.erase r } }
      if r.body.drop 2 = ws.drop 2 then s else s.diverge l.tide 1 d l.stream (leafDiv l)

/-- SEC_LEAF_HASH: the hash of waiting parcel `i` completes and joins its entry, or the next that closes (R423). -/
def leafHash (s : State) (i : Nat) : State :=
  match s.leaves[i]? with
  | none => s
  | some (m, payload) =>
    let d := m.domain
    let x := s.chain d
    let late := decide (m.tide < x.closed)
    let l : Leaf := ⟨m.stream, m.kind, m.stratum, m.plane, m.firstRow, m.tide, late, Sha.sha384 (bytesLE 32 m.toNat ++ payload)⟩
    let s := { s with leaves := s.leaves.eraseIdx i }
    let s := s.setChain d (if late then { x with late := x.late ++ [l] } else { x with leaves := x.leaves ++ [l] })
    let s := if late then s.count (Reg.SEC_DOM_LATE d) else s
    let s := if bit (s.word 0x5000C).toNat d then s.logRec 0x0D d 0 (words8 (leafBytes l)) else s
    s.liveLeaf d l

/-- CHAIN_SIGN_DONE: the pending signature of domain `d` is made and its record written (R425, R429). -/
def signDone (s : State) (d : Nat) : State :=
  let x := s.chain d
  match x.sign with
  | none => s
  | some (n, c) =>
    let head := [0x43, 0x53, 0x49, 0x47] ++ bytesLE 1 d ++ [1] ++ zeros 2 ++ bytesLE 6 n ++ bytesLE 2 (s.fld Reg.SYS_ARRAY_ID_ID) ++ padTo 48 c
    let sig := if s.replayMode then zeros 3405 else idSign (statement "DXM-CHAIN" (Sha.sha384 head)) (s.trngBytes 48)
    (((s.setChain d { x with sign := none }).drew 48).secWrite n 1 (head ++ sig))

/-! ### The handshake of an HCP session (R417, R418) -/

def hcpSess (s : State) (i : Nat) : HcpSess := s.hcp.sess.get (fun _ => {}) i
def setHcpSess (s : State) (i : Nat) (x : HcpSess) : State := { s with hcp := { s.hcp with sess := s.hcp.sess.set (fun _ => {}) i x } }

/-- Session `i` shows a state: 0 closed, 1 handshake, 2 open. -/
def showSess (s : State) (i st : Nat) : State := (s.setFld (Reg.SEC_SESS_STATE i) st).setFld (Reg.NET_HCP_SESS_STATE i) st

/-- The checks of a HELLO, in order. -/
def helloOk (s : State) (body : List Byte) : Bool :=
  let cred := slice body 129 354
  let k := hdrAt cred 4 1
  s.secReady && decide (body.length = 579) && decide (cred.take 4 = [0x43, 0x52, 0x45, 0x44]) && s.slotLive k &&
    decide (Sha.sha384 (slice cred 16 145) = s.ownerSlot k) &&
    Config.ecdsaVerify (slice cred 16 97) (statement "DXM-CREDENTIAL" (Sha.sha384 (cred.take 258))) (slice cred 258 96) &&
    decide (s.fld Reg.SEC_CRED_MIN_SERIAL ≤ hdrAt cred 8 4) &&
    Config.ecdsaVerify (slice cred 161 97) (statement "DXM-HELLO" (Sha.sha384 (body.take 483))) (slice body 483 96)

/-- An HCP message leaves. -/
def hcpSend (s : State) (o : HcpOut) : State := { s with hcp := { s.hcp with out := some o } }

/-- HELLO: a refused one is counted and gets no reply; otherwise the lowest closed index enters its handshake. -/
def hello (s : State) (q : Nat) (body : List Byte) : State :=
  if !s.netLink q then s
  else if !s.helloOk body then (s.count Reg.SEC_CNT_AUTH).secRaise 1
  else match (List.range 8).find? fun i => decide (s.fld (Reg.SEC_SESS_STATE i) = 0) with
    | none => s.hcpSend ⟨q, 0, 2, true, 0, bytesLE 1 rNoSlot ++ zeros 228, bytesLE 1 rNoSlot ++ zeros 228 ++ zeros 16⟩
    | some i =>
      let nd := s.trngBytes 32
      let eph := (s.drew 32).trngBytes 48
      let nonce := ((s.drew 32).drew 48).trngBytes 48
      let s := ((s.drew 32).drew 48).drew 48
      let z := Config.ecdh eph (slice body 32 97)
      let keys := padTo 72 (Config.kdf z (ascii "DXM-HCP") (body.take 32 ++ nd ++ bytesLE 1 i) 72)
      let head := bytesLE 1 rOk ++ bytesLE 1 i ++ zeros 2 ++ nd ++ padTo 97 (Config.ecPublic eph)
      let sig := padTo 96 (Config.ecdsaSign idEcKey (statement "DXM-HELLO-REPLY" (Sha.sha384 (body ++ head))) nonce)
      let s := s.setHcpSess i { c2d := keys.take 32, d2c := slice keys 32 32, saltC := slice keys 64 4, saltD := slice keys 68 4, since := s.now, validAt := s.now }
      let s := ((s.showSess i 1).setFld (Reg.SEC_SESS_MASTER i) (8 + i)).setFld (Reg.SEC_SESS_SLOT i) (hdrAt body 133 1)
      let s := (s.setFld (Reg.SEC_SESS_CLAIM i) (hdrAt body 134 1 % 2)).setFld (Reg.NET_HCP_SESS_PORT i) q
      s.hcpSend ⟨q, i, 2, true, 0, head ++ sig, head ++ sig ++ zeros 16⟩

/-- A session closes: ownership it holds is released (R372, R57). -/
def closeSession (s : State) (i : Nat) : State :=
  let s := ((s.setHcpSess i {}).showSess i 0).setWord (Reg.SEC_SESS_STATE i).addr 0
  if s.sys.owner = 8 + i then s.vacate else s

/-- HCP_HANDSHAKE_TIMEOUT: no verified message within 1 s (R418). -/
def handshakeTimeout (s : State) (i : Nat) : State :=
  if s.fld (Reg.SEC_SESS_STATE i) = 1 ∧ (s.hcpSess i).since + msCycles 1000 ≤ s.now then s.closeSession i else s

/-- HCP_SESSION_TIMEOUT: no valid message for TIMEOUT_MS (R372). -/
def sessionTimeout (s : State) (i : Nat) : State :=
  if s.fld (Reg.SEC_SESS_STATE i) = 2 ∧ (s.hcpSess i).validAt + msCycles (max 1 (s.fld Reg.NET_HCP_TIMEOUT_MS)) ≤ s.now then s.closeSession i else s

end State

/-! ### Commands -/

/-- SEC_READY (R411). -/
def execSecReady (ok : Bool) (s : State) : Res := .next (s.ready ok)

/-- SEC_CMD_DONE (R430). -/
def execSecCmdDone (s : State) : Res := .next s.secDone

/-- SEC_LEAF_HASH (R423). -/
def execSecLeafHash (i : Nat) (s : State) : Res := .next (s.leafHash i)

/-- CHAIN_SIGN_DONE (R425). -/
def execChainSignDone (d : Fin 32) (s : State) : Res := .next (s.signDone d)

/-- HELLO (R418). -/
def execHello (q : Fin 2) (body : List Byte) (s : State) : Res := .next (s.hello q body)

/-- HCP_HANDSHAKE_TIMEOUT (R418). -/
def execHcpHandshakeTimeout (i : Fin 8) (s : State) : Res := .next (s.handshakeTimeout i)

/-- HCP_SESSION_TIMEOUT (R372). -/
def execHcpSessionTimeout (i : Fin 8) (s : State) : Res := .next (s.sessionTimeout i)

end Sys2Proof.Machine
end

