-- ==== Sys2Proof/Machine/Log.lean ====
section
/-! DEFINITION. The logbook's own work: START, TIDE and END records, segments, their compression into output berths or the ring, and replay: reading the logbook, the feeders, received objects, and the end of the comparison (R432 to R445). -/

namespace Sys2Proof.Machine

/-! ### What START holds (R434) -/

/-- Addresses of the instances of a register, outermost index first. -/
def instances : List (Nat × Nat) → Nat → List Nat
  | [], a => [a]
  | (c, d) :: rest, a => (List.range c).flatMap fun i => instances rest (a + i * d)

/-- Every register map. -/
def allTables : List RegDesc :=
  tableSYS ++ tablePWR ++ tableTIME ++ tablePILOT ++ tableSEC ++ tableLOG ++ tableFAB ++ tableSRX ++ tablePIPE ++ tableSTAT ++ tableCAL ++
  tableENC ++ tableDEC ++ tableLZE ++ tableMEM ++ tableMEMQ ++ tableSCN ++ tablePCX ++ tableNET ++ tableAUD ++ tableTWB ++ tableGPIO ++ tableEVT

/-- The words of class T, L or X. -/
def startAddrs : List Nat :=
  (allTables.filter fun r => r.fields.any fun f => decide (f.cls ≠ .s)).flatMap fun r => instances r.dims r.base

/-- A list cut into pieces of `n`. -/
def chunks {α : Type} (n : Nat) : Nat → List α → List (List α)
  | 0, _ => []
  | fuel + 1, l => if l.isEmpty then [] else l.take n :: chunks n fuel (l.drop n)

/-- A record of a segment, and the bytes after it (R435). -/
def parseRec (bs : List Byte) : LogRec × List Byte :=
  let len := hdrAt bs 2 2
  (⟨hdrAt bs 0 1, hdrAt bs 1 1, hdrAt bs 10 2, hdrAt bs 4 6, State.words8 ((bs.drop 16).take len)⟩, bs.drop (16 + len))

/-- The records of a segment. -/
def parseRecs : Nat → List Byte → List LogRec
  | 0, _ => []
  | fuel + 1, bs => if bs.length < 16 ∨ hdrAt bs 0 1 = 0 then [] else (parseRec bs).1 :: parseRecs fuel (parseRec bs).2

namespace State

def logRaise (s : State) (m : Nat) : State := s.raise 0x50044 0x50048 22 m
def setLog (s : State) (l : Log) : State := { s with log := l }
def logState (s : State) : Nat := s.fld Reg.LOG_STATUS_STATE
def logOutQ : Nat := 0x5001C
def logInQ : Nat := 0x50020
def logFeedQ (p : Nat) : Nat := 0x50030 + 4 * p

/-! ### Queues (R437, R438, R445) -/

/-- A push to LOG_OUT_PUSH or LOG_IN_PUSH; a push to a full queue is discarded and counted. -/
def logPush (s : State) (a : Nat) (e : QEnt) : State :=
  let (s, ok) := s.pushQ a 8 e
  if ok then s else s.count Reg.LOG_QUEUE_LOST

/-! ### Segments (R436, R437) -/

/-- The descriptor of LOG's job for segment `n` of `len` bytes. -/
def logJob (s : State) (n len dst ofs room : Nat) : List Byte :=
  bytesLE 1 1 ++ bytesLE 1 (b01 (decide (n = 0))) ++ bytesLE 1 (s.fld Reg.LOG_CFG_EFFORT) ++ bytesLE 1 0 ++ bytesLE 1 18 ++ bytesLE 1 0 ++
    bytesLE 2 0 ++ bytesLE 2 (s.log.stage.getD 0) ++ bytesLE 2 dst ++ bytesLE 4 0 ++ bytesLE 8 (n % 8 * 262144) ++ bytesLE 8 len ++
    bytesLE 8 ofs ++ bytesLE 8 room ++ bytesLE 4 n ++ zeros 12

/-- LOG's decompress job: berth `h` from byte `ofs`, expecting segment `n` (R438). -/
def logReadJob (s : State) (h ofs n : Nat) : List Byte :=
  bytesLE 1 2 ++ zeros 4 ++ bytesLE 1 0xC ++ bytesLE 2 0 ++ bytesLE 2 h ++ bytesLE 2 (s.log.stage.getD 0) ++ bytesLE 4 0 ++ bytesLE 8 ofs ++
    bytesLE 8 ((s.berth h).pages * 4096 - ofs) ++ bytesLE 8 0 ++ bytesLE 8 2097152 ++ bytesLE 4 n ++ zeros 12

/-- An internal job enters LZE queue 0 when it has room (R274, R436). -/
def pushJob (s : State) (kind : Nat) (desc : List Byte) : State :=
  if 16 ≤ (s.queue (lzeQ 0)).length then s
  else
    let s := s.setQueue (lzeQ 0) (s.queue (lzeQ 0) ++ [⟨0, ofBytesLE desc, false⟩])
    s.setLog { s.log with job := kind }

/-- A segment is lost, counted and reported later (R437). -/
def loseSegment (s : State) : State :=
  ((s.setLog { s.log with lostDue := (s.log.lostDue.1 + 1, s.log.lostDue.2) }).count Reg.LOG_CNT_LOST_SEGMENTS).logRaise 2

/-- Closed segments go to the staging berth as LOGREC parcels (R436); one that finds no berth there is lost. -/
def stageSegments : List (Nat × List LogRec) → State → State
  | [], s => s
  | (n, rs) :: rest, s =>
    let bs := (rs.map recBytes).flatten
    let h := s.log.stage.getD 0
    let ofs := n % 8 * 262144
    let bad := decide (s.accessCause 22 h ofs bs.length ≠ 0)
    let st := s.stamp (s.ownTide 22 - 1)
    let s := s.emit 22 { st with stream := 0, kind := 0xC, firstRow := n % 65536, handle := h } ofs bs
    stageSegments rest (if bad then s.loseSegment else s.setLog { s.log with staged := s.log.staged ++ [(n, bs.length)] })

/-- The present output berth, or the next of the queue (R437). -/
def logOut (s : State) : Nat → State × Option (Nat × Nat)
  | 0 => (s, s.log.out)
  | fuel + 1 => match s.log.out with
    | some o => (s, some o)
    | none => match s.popQ logOutQ with
      | (s, none) => (s, none)
      | (s, some e) => match s.acquire 22 e.h with
        | (s, false) => s.logOut fuel
        | (s, true) => (s.setLog { s.log with out := some (e.h, 0) }, some (e.h, 0))

/-- The oldest staged segment is given to LZE (R436, R437). -/
def logCompress (s : State) : State :=
  match s.log.staged with
  | [] => s
  | (n, len) :: _ =>
    if s.flag Reg.LOG_CFG_RING then
      let h := s.log.ring.getD 0
      s.pushJob 1 (s.logJob n len h s.log.ringAt ((s.berth h).pages * 4096 - s.log.ringAt))
    else match s.logOut 9 with
      | (s, none) => s
      | (s, some (h, ofs)) => s.pushJob 1 (s.logJob n len h ofs ((s.berth h).pages * 4096 - ofs))

/-- The next piece of the logbook is given to LZE in replay (R438). -/
def logRead (s : State) : State :=
  match s.log.inp with
  | some (h, ofs) => s.pushJob 2 (s.logReadJob h ofs s.log.inNext)
  | none => match s.popQ logInQ with
    | (s, none) => s
    | (s, some e) => match s.acquire 22 e.h with
      | (s, false) => s
      | (s, true) => (s.setLog { s.log with inp := some (e.h, 0) }).pushJob 2 (s.logReadJob e.h 0 s.log.inNext)

/-- Give back a berth LOG holds. -/
def logDrop (s : State) (h : Option Nat) : State := match h with | some h => s.release 22 h | none => s

/-- LOG is OFF and its last segment is written: its berths are released, the output berth with BERTH_REL. -/
def logIdle (s : State) : State :=
  if s.logState = 0 ∧ s.log.closed = [] ∧ s.log.staged = [] ∧ s.log.job = 0 then
    let s := (s.logDrop s.log.stage).logDrop s.log.ring
    let s := match s.log.out with | some (h, _) => s.releasePost 22 22 h | none => s
    s.setLog { s.log with stage := none, ring := none, out := none }
  else s

/-- LOG goes on with whatever waits: closed segments, the next job, the release of its berths; a piece of a logbook is read only while no segment of its own waits in the staging berth (log entry 21). -/
def logPump (s : State) : State :=
  let s := if s.log.job = 2 then s else stageSegments s.log.closed (s.setLog { s.log with closed := [] })
  let s := if s.log.job ≠ 0 then s else s.logCompress
  let s := if s.log.job ≠ 0 ∨ s.log.staged ≠ [] ∨ !s.replayMode then s else s.logRead
  s.logIdle

/-! ### The end of LOG's jobs -/

/-- A segment was compressed: it is written, tried again in the next berth, or lost (R437). -/
def segmentEnd (s : State) (e : LzeDone) : State :=
  let s := s.setLog { s.log with job := 0 }
  let drop := fun (s : State) => s.setLog { s.log with staged := s.log.staged.tail }
  let n := (s.log.staged.head?.map (·.1)).getD 0
  if e.result = 0 then
    let s := if s.flag Reg.LOG_CFG_RING then
        let a := s.log.ringAt + e.produced
        s.setLog { s.log with ringAt := a, ringSeg0 := if n = 0 then a else s.log.ringSeg0 }
      else s.setLog { s.log with out := s.log.out.map fun o => (o.1, o.2 + e.produced) }
    (drop s).logRaise 1
  else if e.result ≠ 1 then (drop s).loseSegment
  else if s.flag Reg.LOG_CFG_RING then
    if s.log.ringSeg0 < s.log.ringAt then s.setLog { s.log with ringAt := s.log.ringSeg0 } else (drop s).loseSegment
  else match s.log.out with
    | some (h, _) => (s.setLog { s.log with out := none }).releasePost 22 22 h
    | none => s

/-- The blocks of a piece of the container: index and raw length. -/
def blocksIn : Nat → List Byte → List (Nat × Nat)
  | 0, _ => []
  | fuel + 1, bs =>
    if bs.length < 64 then []
    else if isBlock (bs.take 32) then
      (hdrAt bs 4 4, hdrAt bs 8 4) :: blocksIn fuel (bs.drop (ceilDiv (32 + hdrAt bs 12 4) 64 * 64))
    else blocksIn fuel (bs.drop 64)

/-- The START words are applied, but for LOG's own (R438). -/
def startWords : List Nat → State → State
  | [], s => s
  | w :: ws, s =>
    let a := w % 2 ^ 32
    startWords ws (if 0x50000 ≤ a ∧ a < 0x60000 then s else s.setWord a (BitVec.ofNat 32 (w >>> 32)))

/-- The START berths are allocated (R438). -/
def startBerths : List Nat → State → State
  | w :: v :: ws, s =>
    startBerths ws (s.setBerth (bits w 15 0) {
      base := bits v 31 0, pages := bits w 63 32, format := bits v 47 32, owner := bits w 23 16
      st := if bits w 31 24 = 2 then .draining else .held })
  | _, s => s

/-- Records of the logbook are taken in (R438). -/
def takeRecs : List LogRec → State → State
  | [], s => s
  | r :: rs, s =>
    takeRecs rs (if r.typ = 1 then (if r.sub = 0 then startWords r.body s else startBerths r.body s)
      else s.setLog { s.log with replay := s.log.replay ++ [r] })

/-- The records of the segments in the staging berth, from segment `first` on. -/
def takeSegments (first : Nat) : List (Nat × Nat) → State → State
  | [], s => s
  | (n, len) :: rest, s =>
    let bs := s.peek (s.log.stage.getD 0) ((n - first) * 262144) len
    takeSegments first rest (takeRecs (parseRecs (len / 16) bs) s)

/-- A piece of the logbook was decompressed: its records are taken; the berth is read on or released (R438). -/
def logReadEnd (s : State) (e : LzeDone) : State :=
  let s := s.setLog { s.log with job := 0 }
  match s.log.inp with
  | none => s
  | some (h, ofs) =>
    let first := s.log.inNext
    let bl := (blocksIn (e.consumed / 64 + 1) (s.peek h ofs e.consumed)).filter fun b => decide (first ≤ b.1 ∧ b.1 < e.nextBlock)
    let s := takeSegments first bl s
    if e.result = 1 ∧ first < e.nextBlock then s.setLog { s.log with inp := some (h, ofs + e.consumed), inNext := e.nextBlock }
    else (s.setLog { s.log with inp := none, inNext := e.nextBlock }).release 22 h

/-- Completions of LOG's own jobs (R274, R436). -/
def logDones : List LzeDone → State → State
  | [], s => s
  | e :: es, s => logDones es ((if s.log.job = 2 then s.logReadEnd e else s.segmentEnd e).logPump)

/-- LZE_JOB_END: the job's end, and LOG's next step when the job was LOG's. -/
def lzeJobEnd (s : State) (q : Nat) : State :=
  let s := s.lzeEnd q
  let d := s.lze.logDone
  logDones d { s with lze := { s.lze with logDone := [] } }

/-! ### At each tide -/

/-- The TIDE record of tide `n` (R435). -/
def tideRec (s : State) (n : Nat) : LogRec :=
  let t := (s.schedTime n).fdiv (2 ^ 48)
  let stale := (s.word 0x150030).toNat + (s.word 0x150034).toNat % 2 ^ 9 <<< 32
  ⟨2, 0, b01 (decide (s.domState s.sel = 3)) + 2 * b01 (decide (s.time.switchTide = some n)), n,
    [wrap 48 t, s.fullNs s.sel % 2 ^ 64, wrap 64 (s.time.acc.fdiv (2 ^ 40)),
     s.sys.epoch % 65536 + s.sel <<< 16 + (s.domState 0 + 16 * s.domState 1) <<< 24 + (stale % 2 ^ 32) <<< 32, stale >>> 32]⟩

/-- A record of a tide's opening, past the end of the segment into the next. -/
def pushOpening (s : State) (r : LogRec) : State :=
  if 262144 < s.log.bytes + recLen r then (s.closeSegment.continueSegment).pushRec r else s.pushRec r

def pushOpenings : List LogRec → State → State
  | [], s => s
  | r :: rs, s => pushOpenings rs (s.pushOpening r)

/-- The START records of tide `n` (R434, R435). -/
def startRecs (s : State) (n : Nat) : List LogRec :=
  let ws := startAddrs.map fun a => a + (s.word a).toNat <<< 32
  let bs := (s.fab.berths.filter fun e => decide (e.2.st ≠ .free)).flatMap fun (h, b) =>
    [h + b.owner <<< 16 + stCode b.st <<< 24 + b.pages <<< 32, b.base % 2 ^ 32 + (b.format % 65536) <<< 32]
  (chunks 508 (ws.length + 1) ws).map (fun l => ⟨1, 0, 0, n, l⟩) ++ (chunks 508 (bs.length + 1) bs).map (fun l => ⟨1, 0, 1, n, l⟩)

/-- The records that tide `n` opens with, while LOG records or traces (R436, R444). -/
def logOpening (s : State) (n : Nat) : State :=
  let r := s.tideRec n
  let s := s.setLog { s.log with lastTide := some r }
  if s.log.startDue then
    let s := s.setLog { s.log with startDue := false }
    (pushOpenings (if s.recording then s.startRecs n else []) s).pushOpening r
  else if s.stagingFull then s.loseRecord
  else if 196608 ≤ s.log.bytes then (s.closeSegment.pushRec r).pushLost
  else s.pushOpening r

/-- STOP at tide `n`: END, the last segment closes, STATE is OFF (R445). -/
def logStop (s : State) (n last : Nat) : State :=
  let writes := s.recording || (s.replayMode && s.flag Reg.LOG_CFG_TRACE && decide (s.log.bytes ≠ 0))
  let s := if writes then (s.pushOpening ⟨0x10, 0, 0, n, [last]⟩).closeSegment else s
  let s := s.setLog { s.log with stopDue := false, runDue := false, replay := [], live := [], lastTide := none }
  (s.setFld Reg.LOG_STATUS_STATE 0).logPump

/-- LOG at the instant of tide `n`: END and OFF where STOP is due, otherwise the records the tide opens with. -/
def logTide (s : State) (n : Nat) : State :=
  let traces := s.replaying && s.flag Reg.LOG_CFG_TRACE
  if s.log.stopDue then
    if s.recording ∧ s.log.startDue then (s.logOpening n).logStop n n else s.logStop n (n - 1)
  else if s.recording || traces then s.logOpening n else s

/-! ### Operations (R434, R438, R445) -/

/-- Every pilot is EMPTY or STOPPED. -/
def pilotsAtRest (s : State) : Bool := (List.range 16).all fun k => decide ((s.pilot k).st = .empty ∨ (s.pilot k).st = .stopped)

/-- LOG takes its staging and ring berths. -/
def logHold (s : State) : State :=
  let (s, a) := s.acquire 22 (s.fld Reg.LOG_STAGE_HANDLE)
  let (s, b) := if s.flag Reg.LOG_CFG_RING then s.acquire 22 (s.fld Reg.LOG_RING_HANDLE) else (s, false)
  s.setLog { s.log with
    stage := if a then some (s.fld Reg.LOG_STAGE_HANDLE) else none
    ring := if b then some (s.fld Reg.LOG_RING_HANDLE) else none }

/-- LOG as an operation out of OFF finds it: nothing gathered. -/
def logFresh (s : State) : State :=
  let s := ((s.logDrop s.log.stage).logDrop s.log.ring).setFld Reg.LOG_STATUS_SEGMENT 0
  let s := match s.log.out with | some (h, _) => s.releasePost 22 22 h | none => s
  s.setLog { job := s.log.job, closed := [], startDue := true }

/-- LOG_CTRL.OP: 1 RECORD, 2 REPLAY, 3 RUN, 4 STOP (R434, R438, R445). -/
def logOp (s : State) (op : Nat) : State :=
  if op = 1 then
    if s.logState = 0 ∧ s.pilotsAtRest then (s.logFresh.logHold).setFld Reg.LOG_STATUS_STATE 1 else s.logRaise 0x10
  else if op = 2 then
    if s.logState = 0 ∧ s.pilotsAtRest then
      let s := ((s.logFresh.logHold).setFld2 Reg.LOG_DIV_TIDE_LO Reg.LOG_DIV_TIDE_HI 0).setWord 0x50058 0
      ((s.setWord 0x5005C 0).setWord 0x50064 0).setFld Reg.LOG_STATUS_STATE 2 |>.logPump
    else s
  else if op = 3 then if s.logState = 2 then s.setLog { s.log with runDue := true } else s
  else if op = 4 then if s.logState = 0 then s else s.setLog { s.log with stopDue := true }
  else s

/-! ### Replay at each tide (R439) -/

/-- The TIDE record of the tide that replay fires next. -/
def nextTideRec (s : State) : Option LogRec := s.log.replay.find? fun r => decide (r.typ = 2) && !bit r.sub 2

/-- Replay's next tide is due: the first at once, the others at the logged interval from their predecessor. -/
def replayDue (s : State) (r : LogRec) : Bool :=
  s.log.runDue || decide (s.time.firedAt + nsCycles ((r.body.headD 0 + 2 ^ 48 - s.log.lastT) % 2 ^ 48) ≤ s.now)

/-- D_sel, ACC, the domain states, the settings epoch and CAL_STALE take their logged values (R439, R232). -/
def replayTime (s : State) (r : LogRec) : State :=
  let w := r.body.getD 3 0
  let stale := w >>> 32 + (r.body.getD 4 0 % 65536) <<< 32
  let s := s.setFld Reg.TIME_STATUS_SEL (bits w 23 16)
  let d := s.sel
  let s := s.setDom d { s.dom d with count := r.body.getD 1 0 <<< 40 }
  let s := (s.setFld Reg.TIME_STATUS_STATE_A (bits w 27 24)).setFld Reg.TIME_STATUS_STATE_B (bits w 31 28)
  let s := { s with
    time := { s.time with acc := signed 64 (r.body.getD 2 0) * 2 ^ 40, switchTide := if bit r.sub 1 then some r.tide else s.time.switchTide }
    sys := { s.sys with epoch := w % 65536 } }
  let s := (s.setWord 0x150030 (BitVec.ofNat 32 stale)).setWord 0x150034 (BitVec.ofNat 32 (bits stale 40 32))
  let s := if s.log.runDue then s.setFld Reg.LOG_STATUS_STATE 3 else s
  s.setLog { s.log with runDue := false, lastT := r.body.headD 0, replay := s.log.replay.erase r }

/-- Logged leaves that no live leaf met (R441, R442). -/
def missing : List LogRec → State → State
  | [], s => s
  | r :: rs, s =>
    let w := r.body.headD 0
    missing rs ((s.count Reg.LOG_DIV_UNMATCHED_MISSING).diverge (bits (r.body.getD 1 0) 47 0) 5 r.src (bits w 11 0) (r.body.getD 1 0 % 2 ^ 32))

/-- Live leaves without a logged leaf. -/
def extra : List LogRec → State → State
  | [], s => s
  | r :: rs, s => extra rs ((s.count Reg.LOG_DIV_UNMATCHED_EXTRA).diverge r.tide 6 r.src (bits (r.body.headD 0) 11 0) 0)

/-- The last logged tide has ended: MISSING and EXTRA are decided and STATE is ENDED (R442). -/
def replayEnd (s : State) : State :=
  let s := missing (s.log.replay.filter fun r => decide (r.typ = 0x0D)) s
  let s := extra s.log.live s
  ((s.setLog { s.log with live := [], replay := [] }).setFld Reg.LOG_STATUS_STATE 4).logRaise 8

/-! ### Replay feeders (R439) -/

/-- Runs of consecutive rows that hold sensor data, cut to `n` rows: first row and count. -/
def validRuns (valid n : Nat) : Nat → Nat → Nat → List (Nat × Nat)
  | 0, r, c => if c = 0 then [] else [(r - c, c)]
  | fuel + 1, r, c =>
    if bit valid r then if c + 1 = n then (r + 1 - n, n) :: validRuns valid n fuel (r + 1) 0 else validRuns valid n fuel (r + 1) (c + 1)
    else (if c = 0 then [] else [(r - c, c)]) ++ validRuns valid n fuel (r + 1) 0

/-- Rows of the raw berth, read and emitted again in place. -/
def feedRuns (p : Nat) (f : PortFrame) (k : Nat) : List (Nat × Nat) → State → State
  | [], s => s
  | (r, n) :: rest, s =>
    let ofs := (k * s.frameRows p f + r) * s.frameStride p f
    let (s, bs) := s.readBerth (41 + p) f.raw ofs (n * s.frameStride p f)
    feedRuns p f k rest (s.emit (41 + p) { f.man with stratum := k, plane := 0, firstRow := r, rows := n, handle := f.raw } ofs bs)

/-- The strata of a fed frame: rows, then the map parcel (R151, R153). -/
def feedStrata (p : Nat) (f : PortFrame) : List Nat → State → State
  | [], s => s
  | k :: ks, s =>
    let (s, map) := if f.map = 0 then (s, []) else s.readBerth (41 + p) f.map (k * 4096) 4096
    let rows := s.frameRows p f
    let valid := if f.map = 0 then 2 ^ rows - 1 else ofBytesLE map
    let s := feedRuns p f k (validRuns valid (s.frameParcelRows p f) rows 0 0) s
    let s := if f.map = 0 then s else
      s.emit (41 + p) { f.man with stratum := k, plane := 14, firstRow := 0, rows := rows, handle := f.map } (k * 4096) map
    feedStrata p f ks s

/-- A feeder takes a FRAME record: the pushed berths must be the logged ones (R439, R441). -/
def feedFrame (s : State) (p : Nat) (r : LogRec) : State :=
  let man := Manifest.ofNat (ofBytesLE ((r.body.take 4).map (bytesLE 8)).flatten)
  let s := s.setLog { s.log with replay := s.log.replay.erase r }
  match s.popQ (logFeedQ p) with
  | (s, none) => s.diverge s.tide 4 p man.stream 0
  | (s, some e) =>
    let s := if e.h = man.handle ∧ e.h2 = r.body.getD 4 0 % 65536 then s else s.diverge s.tide 4 p man.stream 0
    match s.acquire (41 + p) e.h with
    | (s, false) => s
    | (s, true) =>
      let (s, b) := if e.h2 = 0 then (s, false) else s.acquire (41 + p) e.h2
      let f : PortFrame := { raw := e.h, map := if b then e.h2 else 0, entry := true, rawOk := true, mapOk := b, man := man, width := (s.berth e.h).format % 4, use := 0 }
      let s := feedStrata p f (List.range (s.frameStrata p f)) s
      let s := if s.flag (Reg.PIPE_CTRL_AUTO p) then s.pipeInPush p e.h e.h2 else s
      let s := s.releasePost (41 + p) (41 + p) e.h
      if b then s.release (41 + p) e.h2 else s

def feedFrames (p : Nat) : List LogRec → State → State
  | [], s => s
  | r :: rs, s => feedFrames p rs (s.feedFrame p r)

/-- Feeder `p` at its own tide `n`. -/
def feederTide (s : State) (p n : Nat) : State :=
  if !s.replaying then s
  else feedFrames p (s.log.replay.filter fun r => decide (r.typ = 8) && decide (r.src = p) && decide (r.tide = n)) s

/-! ### Received objects in replay (R439) -/

/-- One logged object fills the next pushed berth of its stream; without a payload the berth is left unwritten. -/
def replayObject (s : State) (q r : Nat) (head data : List Byte) (whole : Bool) : State :=
  let s := s.rxStart q r (hdrAt head 24 4) (hdrAt head 16 8) head
  match (s.rxStream q r).cur with
  | none => s
  | some o =>
    let s := s.setRx q r { s.rxStream q r with cur := none }
    if o.h = 0 then s
    else
      let pm := Manifest.ofNat (ofBytesLE ((head.drop 32).take 32))
      let m : Manifest := {
        stream := s.fld (Reg.NET_RX_MATCH_LOCAL q r), kind := 0xE, flags := pm.flags, tide := pm.tide, frame := pm.frame, time := pm.time
        epoch := pm.epoch, setEpoch := s.sys.epoch, origin := pm.origin, domain := s.netFld q (Reg.NET_RX_DOMAIN_DOMAIN q r), handle := o.h }
      let s := if whole then s.emit (18 + q) m 0 data else s
      s.releasePost (18 + q) (18 + q) o.h

/-- The objects of one stream's NETRX records, in order: header, bytes, and whether they are there. -/
def replayObjects (q r : Nat) (whole : Bool) : Nat → List Byte → State → State
  | 0, _, s => s
  | fuel + 1, bs, s =>
    if bs.length < 64 then s
    else
      let n := if whole then hdrAt bs 16 8 else 0
      replayObjects q r whole fuel (bs.drop (64 + ceilDiv n 8 * 8)) (s.replayObject q r (bs.take 64) ((bs.drop 64).take n) whole)

/-- NET_q at its own tide `n` in replay: the objects logged in that tide, stream by stream. -/
def netReplay (q n : Nat) : List Nat → State → State
  | [], s => s
  | r :: rs, s =>
    let mine := fun (e : LogRec) => decide (e.typ = 0x0A) && decide (e.src = 16 * q + r) && decide (e.tide = n)
    let es := s.log.replay.filter mine
    let bs := ((es.map (·.body)).flatten.map (bytesLE 8)).flatten
    let s := s.setLog { s.log with replay := s.log.replay.filter fun e => !mine e }
    netReplay q n rs (replayObjects q r (es.any fun e => bit e.sub 0) (bs.length / 64 + 1) bs s)

end State

/-! ### Commands -/

/-- LZE_JOB_END (R291, R437). -/
def execLzeJobEnd (q : Fin 2) (s : State) : Res := .next (s.lzeJobEnd q)

end Sys2Proof.Machine
end

