-- ==== Sys2Proof/Machine/Pilots.lean ====
section
/-! DEFINITION. Pilot cores: registers, memories and shared banks, exceptions and halts, docket queues and releases, starts and stops (R73 to R77, R84 to R91, R97, R502). -/

namespace Sys2Proof.Machine

namespace State

/-! ### Registers and predicates -/

/-- General register `i`; x0 reads 0 (R73). -/
def xreg (s : State) (k : Nat) (i : Fin 32) : Word64 := if i.val = 0 then 0 else (s.pilot k).x.get (fun _ => 0) i.val

/-- Write general register `i`; x0 ignores writes (R73). -/
def setX (s : State) (k : Nat) (i : Fin 32) (v : Word64) : State :=
  if i.val = 0 then s else s.setPilot k { s.pilot k with x := (s.pilot k).x.set (fun _ => 0) i.val v }

/-- The predicates as an 8-bit value; p0 reads 1 (R73). -/
def predsOf (s : State) (k : Nat) : Nat := (s.pilot k).preds ||| 1

/-- Predicate `i`. -/
def pred (s : State) (k : Nat) (i : Fin 8) : Bool := bit (s.predsOf k) i.val

/-- Write predicate `i`; p0 ignores writes (R73). -/
def setPred (s : State) (k : Nat) (i : Fin 8) (b : Bool) : State :=
  if i.val = 0 then s
  else s.setPilot k { s.pilot k with preds := putBits (s.pilot k).preds i.val i.val (b01 b) }

/-! ### Memories (R75, R76) -/

/-- Pilot `k` is the writer of shared bank `b` (R76). -/
def ownsBank (s : State) (k b : Nat) : Bool := bit (s.pilot k).banks b

/-- The bank of a shared-memory address. -/
def bankOf (a : Nat) : Nat := (a - 0x20000) / 0x4000

/-- An address a pilot may load from (R75). -/
def loadable (a : Nat) : Bool := decide (a < 0x18000) || decide (0x20000 ≤ a ∧ a < 0x60000)

/-- The end of the run of loadable addresses that starts at `a` (R75). -/
def loadEnd (a : Nat) : Nat := if a < 0x18000 then 0x18000 else if 0x20000 ≤ a ∧ a < 0x60000 then 0x60000 else a

/-- One byte as pilot `k` loads it: program, private or shared memory; a bank's writer sees its own stores, others the published copy (R75, R76). -/
def loadByte (s : State) (k a : Nat) : Byte :=
  if a < 0x10000 then (s.pilot k).prog.get (fun _ => 0) a
  else if a < 0x18000 then (s.pilot k).data.get (fun _ => 0) a
  else if s.ownsBank k (bankOf a) then s.shared.get (fun _ => 0) a
  else s.published.get (fun _ => 0) a

def loadBytes (s : State) (k a : Nat) : Nat → List Byte
  | 0 => []
  | n + 1 => s.loadByte k a :: loadBytes s k (a + 1) n

/-- Why pilot `k` may not store at address `a`: 0 when it may, 3 BUS, 4 PROT (R75, R76, R85). -/
def storeCause (s : State) (k a : Nat) : Nat :=
  if a < 0x10000 then 4
  else if a < 0x18000 then 0
  else if 0x20000 ≤ a ∧ a < 0x60000 then (if s.ownsBank k (bankOf a) then 0 else 3)
  else 3

/-- Store bytes at a place `storeCause` allows. -/
def storeAt (s : State) (k a : Nat) (bs : List Byte) : State :=
  if a < 0x18000 then s.setPilot k { s.pilot k with data := storeBytes (s.pilot k).data a bs }
  else { s with shared := storeBytes s.shared a bs }

/-- `len` bytes at `a` lie wholly in private data memory. -/
def inData (a len : Nat) : Bool := decide (0x10000 ≤ a ∧ a + len ≤ 0x18000)

/-! ### Halts and exceptions (R85, R86) -/

/-- LOG stops a pilot that diverged (R441). -/
def divergePilot (s : State) (k : Nat) : State :=
  let s := (s.diverge s.tide 3 k 0 0).dropTxn (16 + k)
  s.setPilot k { s.pilot k with st := .stopped, banks := 0, starting := 0 }

/-- A PILOT record (R435); in replay the pilot's next logged event must be this one at this RETIRED count (R441). -/
def pilotRec (s : State) (k sub : Nat) (more : List Nat) : State :=
  let body := (s.pilot k).retired :: more
  (s.logRec 0x05 k sub body).compareRec
    (fun r => decide (r.typ = 5) && decide (r.src = k) && (decide (sub ≠ 0) || decide (r.sub = 0)))
    (fun r => decide (r.sub = sub) && decide (r.body = body)) (fun s => s.divergePilot k)
    (fun s => if sub = 0 then s else s.divergePilot k)

/-- The next logged event of pilot `k` in replay is `sub` at the present RETIRED count (R92). -/
def pilotForced (s : State) (k sub : Nat) : Bool :=
  match s.log.replay.find? fun r => decide (r.typ = 5) && decide (r.src = k) with
  | some r => decide (r.sub = sub) && decide (r.body.headD 0 = (s.pilot k).retired)
  | none => false

/-- The pilot halts with a cause at a pc: PILOT_HALT, the PILOT record, and its transaction rolled back (R86). -/
def halt (s : State) (k cause pc : Nat) : State :=
  let s := s.setPilot k { s.pilot k with st := .halted, haltCause := cause, handler := (s.pilot k).handler }
  ((s.dropTxn (16 + k)).post 0x0E (16 + k) cause pc).pilotRec k 5 [cause]

/-- Take an exception: DOUBLE in handler mode and a missing handler halt, otherwise the handler is entered (R85, R86). -/
def takeExc (s : State) (k cause : Nat) (eval : Word64) (epc : Nat) : State :=
  let p := s.pilot k
  if p.handler then s.halt k 9 epc
  else if p.evec = 0 then s.halt k cause epc
  else s.setPilot k { p with epc := BitVec.ofNat 64 epc, ecause := cause, eval := eval, handler := true,
                             pc := p.evec.toNat / 4 * 4 }

/-- One more instruction retires and the pc moves on (R78, R84). -/
def retireTo (s : State) (k pc : Nat) : State :=
  s.setPilot k { s.pilot k with pc := pc, retired := ((s.pilot k).retired + 1) % 2 ^ 64 }

/-! ### Releases (R77, R87 to R91) -/

/-- The release order of two newly released dockets (R89). -/
def docketLe (a b : Docket) : Bool :=
  if a.kind ≠ b.kind then decide (a.kind < b.kind)
  else if a.src ≠ b.src then decide (a.src < b.src)
  else if a.arrived ≠ b.arrived then decide (a.arrived < b.arrived)
  else if a.sub ≠ b.sub then decide (a.sub < b.sub)
  else decide (a.payload ≤ b.payload)

/-- Insert a docket into a list in release order. -/
def insertDocket (d : Docket) : List Docket → List Docket
  | [] => [d]
  | e :: es => if docketLe e d then e :: insertDocket d es else d :: e :: es

/-- Dockets in release order (R89). -/
def sortDockets (l : List Docket) : List Docket := l.foldl (fun acc d => insertDocket d acc) []

/-- Number dockets in order from `n` (R87). -/
def numberDockets (n : Nat) : List Docket → List Docket
  | [] => []
  | d :: ds => { d with seq := n % 2 ^ 32 } :: numberDockets (n + 1) ds

/-- A docket's header (R87). -/
def docketHeader (d : Docket) : Nat := d.kind <<< 56 + d.src <<< 48 + d.sub <<< 32 + d.seq

/-- DOCKET records of newly released dockets, in SEQ order (R432). -/
def logDockets (k : Nat) : List Docket → State → State
  | [], s => s
  | d :: ds, s => logDockets k ds (s.logRec 0x03 k 0 [docketHeader d, d.payload])

/-- The docket of a DOCKET record (R435). -/
def docketOf (r : LogRec) : Docket :=
  let h := r.body.headD 0
  ⟨bits h 63 56, bits h 55 48, bits h 47 32, r.body.getD 1 0, 0, bits h 31 0⟩

/-- The dockets that the logbook released to pilot `k` at the present tide, in replay (R439). -/
def replayDockets (s : State) (k : Nat) : State :=
  let mine := fun (r : LogRec) => decide (r.typ = 3) && decide (r.src = k) && decide (r.tide = s.tide)
  let new := (s.log.replay.filter mine).map docketOf
  let p := s.pilot k
  let s := { s with log := { s.log with replay := s.log.replay.filter fun r => !mine r } }
  s.setPilot k { p with released := p.released ++ new, arrivals := [], seq := (p.seq + new.length) % 2 ^ 32 }

/-- Release the dockets that entered before FCLK cycle `cyc`, DOCKET_LOST first when one is due (R89, R90); in replay, those the logbook names. -/
def releaseDockets (s : State) (k cyc : Nat) : State :=
  if s.replaying then s.replayDockets k else
  let p := s.pilot k
  let due := sortDockets (p.arrivals.filter fun d => decide (d.arrived < cyc))
  let lost := !p.lostHeld && decide (0 < p.drops)
  let new := numberDockets p.seq ((if lost then [(⟨0x0F, 0, 0, p.drops, s.now, 0⟩ : Docket)] else []) ++ due)
  let s := s.setPilot k { p with
    released := p.released ++ new, arrivals := p.arrivals.filter fun d => !decide (d.arrived < cyc),
    lostHeld := p.lostHeld || lost, drops := if lost then 0 else p.drops, seq := (p.seq + new.length) % 2 ^ 32 }
  logDockets k new s

/-- The FCLK cycle that holds the scheduled instant of tide `t` (R89). -/
def instantOf (s : State) (t : Nat) : Nat :=
  match s.time.instants.find? fun e => decide (e.1 = t) with | some e => e.2 | none => s.time.firedAt

/-- The bytes of the banks that pilot `k` writes (R77). -/
def bankBytes (s : State) (k : Nat) (m : SMap Byte) : SMap Byte :=
  m.filter fun e => s.ownsBank k (bankOf e.1)

/-- The snapshot of pilot `k` becomes the published copy of its banks (R77). -/
def publish (s : State) (k : Nat) : State :=
  let rest := s.published.filter fun e => !s.ownsBank k (bankOf e.1)
  { s with published := (s.pilot k).snapshot.foldl (fun m e => m.set (fun _ => 0) e.1 e.2) rest }

/-- The tide at which a waiting pilot's WAIT or WAITU returns, if it is due (R80, R91). -/
def releaseTide (s : State) (k : Nat) : Option Nat :=
  let p := s.pilot k
  if p.st ≠ .waiting then none
  else
    let r := if p.ovr ∧ p.waitFor ≤ p.workTide + 1 then p.workTide + 1 else s.tide
    if p.workTide < r ∧ p.waitFor ≤ r ∧ r ≤ s.tide then some r else none

/-- WAIT returns at tide `r`: dockets released, snapshot published, rd written (R77, R89, R91). -/
def doRelease (s : State) (k r : Nat) : State :=
  let s := (s.publish k).releaseDockets k (s.instantOf r)
  let p := s.pilot k
  let s := s.setPilot k { p with st := .running, lastTide := r, workTide := r, ovr := false }
  s.setX k (Fin.ofNat 32 p.waitRd) (BitVec.ofNat 64 r)

/-! ### Start, stop and reset (R97, R502) -/

/-- The queue is discarded; its dockets count in LOST (R90). -/
def discardQueue (s : State) (k : Nat) : State :=
  let p := s.pilot k
  let n := p.released.length + p.arrivals.length
  let s := s.setPilot k { p with released := [], arrivals := [], lostHeld := false, drops := 0 }
  if n = 0 then s else s.count (Reg.PILOT_DKT_STATUS_LOST k) n

/-- STOP (R97): halted at once, its transaction rolled back, its queue discarded, its banks free, the dockets of its moves discarded. -/
def stopPilot (s : State) (k : Nat) : State :=
  let p := s.pilot k
  match p.st with
  | .empty | .stopped => s
  | _ =>
    let s := (s.dropTxn (16 + k)).discardQueue k
    let s := s.setPilot k { s.pilot k with
      st := .stopped, banks := 0, starting := 0, moves := p.moves.map fun (m : Move) => ({ m with discard := true } : Move) }
    s.pilotRec k 2 []

/-- RESET (PILOT_CTRL): STOP, then memories and registers clear. -/
def resetPilot (s : State) (k : Nat) : State :=
  let s := s.stopPilot k
  let s := s.discardQueue k
  let p := s.pilot k
  (s.setPilot k { moves := p.moves, load := p.load }).setFld (Reg.PILOT_DKT_SUB_MASK k) 0

/-- A restart clears registers, predicates, CSRs, the queue and the hash context, and its counts start from 0 (R502). -/
def cleared (p : Pilot) : Pilot :=
  { p with x := [], preds := 0, evec := 0, epc := 0, ecause := 0, eval := 0, scratch := 0, retired := 0, handler := false,
           released := [], arrivals := [], lostHeld := false, drops := 0, seq := 0, hashAlg := 0, hashed := [],
           tokens := 0, ovr := false }

/-- START (R502). -/
def startPilot (s : State) (k : Nat) : State :=
  let p := s.pilot k
  match p.st with
  | .loaded => (s.setPilot k { p with starting := 1, startAt := s.now, retired := 0 }).pilotRec k 1 []
  | .halted | .stopped => (s.setPilot k { cleared p with starting := 2, startAt := s.now }).pilotRec k 1 []
  | _ => s

/-- The moves in flight of the work for tide `t` and before are abandoned (R44, R88). -/
def abandonMoves (s : State) (k t : Nat) : State :=
  s.setPilot k { s.pilot k with moves := (s.pilot k).moves.map fun (m : Move) => if m.tide ≤ t then ({ m with gone := true } : Move) else m }

/-- A started pilot begins at ENTRY at the first tide boundary after the START, which is its first release (R95, R502). -/
def beginPilot (s : State) (k : Nat) : State :=
  let p := s.pilot k
  if p.starting = 0 ∨ s.time.firedAt ≤ p.startAt then s
  else
    let s := s.setPilot k { p with st := .running, starting := 0, pc := p.entry, lastTide := s.tide, workTide := s.tide, ovr := false }
    s.releaseDockets k (s.instantOf s.tide)

/-! ### Logged instructions (R80, R92) -/

/-- The VALUE record that replay returns to the present instruction of pilot `k` (R92). -/
def loggedValue (s : State) (k : Nat) : Option LogRec :=
  s.log.replay.find? fun r => decide (r.typ = 4) && decide (r.src = k) && decide (r.body.head? = some (s.pilot k).retired)

end State

/-! ### Meanings of the pilots' events and operations that are no instructions -/

/-- DOCKET_POST (R88 to R90): a docket from outside arrives at a pilot's queue. -/
def execDocketPost (k : Fin 16) (kind src : BitVec 8) (sub : BitVec 16) (payload : Word64) (s : State) : Res :=
  .next (s.postTo k kind.toNat src.toNat sub.toNat payload.toNat)

/-- PILOT_RELEASE (R89): a WAIT that is due returns. -/
def execPilotRelease (k : Fin 16) (s : State) : Res :=
  .next (match s.releaseTide k with | some r => s.doRelease k r | none => s)

/-- PILOT_OVERRUN (R91, R92): still running at its own tide k + 1; in replay at the logged count. -/
def execPilotOverrun (k : Fin 16) (s : State) : Res :=
  .next (
    let p := s.pilot k
    if p.st = .running ∧ !p.ovr ∧ (if s.replaying then s.pilotForced k 3 else p.workTide + 1 ≤ s.tide) then
      ((s.setPilot k { p with ovr := true }).declareOverrun (24 + k) p.workTide).pilotRec k 3 []
    else s)

/-- PILOT_ABANDON (R91, R92): still running at tide k + 2, in replay at the logged count; the exception is taken between two instructions, its EVAL is free (log entry 8), and the work for tide k + 1 is overrun at once. -/
def execPilotAbandon (k : Fin 16) (s : State) : Res :=
  .next (
    let p := s.pilot k
    if p.st = .running ∧ (if s.replaying then s.pilotForced k 4 else p.workTide + 2 ≤ s.tide) then
      let s := ((s.countAbandon (24 + k)).pilotRec k 4 []).takeExc k 8 (BitVec.ofNat 64 s.freeVal) p.pc
      let s := s.nextFree
      let s := (s.abandonMoves k p.workTide).setPilot k { (s.abandonMoves k p.workTide).pilot k with workTide := p.workTide + 1, ovr := true }
      s.declareOverrun (24 + k) (p.workTide + 1)
    else s)

/-- PILOT_BEGIN (R502). -/
def execPilotBegin (k : Fin 16) (s : State) : Res := .next (s.beginPilot k)

end Sys2Proof.Machine
end

