-- ==== Sys2Proof/Machine/Marl.lean ====
section
/-! DEFINITION. The Marl instructions but for CLD and CST: guards, formats, operands and effects (R78 to R86, R92, R98, R99). -/

namespace Sys2Proof.Machine

/-- What the body of an instruction comes to: it retires and goes on, it retires with the pilot no longer at the next pc by itself, or it raises an exception (cause and EVAL), or it stalls. -/
inductive IOut where
  | retire (s : State)
  | jump (s : State) (pc : Nat)
  | exc (cause : Nat) (eval : Word64)
  | stall

/-! ### Instruction words (R78, R79): what EVAL holds after ILLEGAL -/

def guardBits (g : Guard) : Nat := b01 g.n <<< 31 + g.p.val <<< 28

def wordA (op : Nat) (g : Guard) (f : FmtA) : Nat :=
  guardBits g + op <<< 22 + f.rd.val <<< 17 + f.rs1.val <<< 12 + f.rs2.val <<< 7 + f.fn.val
def wordI (op : Nat) (g : Guard) (f : FmtI) : Nat :=
  guardBits g + op <<< 22 + f.rd.val <<< 17 + f.rs1.val <<< 12 + f.imm.toNat
def wordU (op : Nat) (g : Guard) (f : FmtU) : Nat := guardBits g + op <<< 22 + f.rd.val <<< 17 + f.imm.toNat
def wordJ (op : Nat) (g : Guard) (off : BitVec 22) : Nat := guardBits g + op <<< 22 + off.toNat
def wordP (op : Nat) (g : Guard) (f : FmtP) : Nat :=
  guardBits g + op <<< 22 + f.pd.val <<< 19 + f.z1.toNat <<< 16 + f.rs1.val <<< 11 + f.rs2.val <<< 6 + f.cond.val <<< 3 + f.z2.toNat
def wordQ (op : Nat) (g : Guard) (f : FmtQ) : Nat :=
  guardBits g + op <<< 22 + f.pd.val <<< 19 + f.cond.val <<< 16 + f.rs1.val <<< 11 + f.imm.toNat
def wordL (op : Nat) (g : Guard) (f : FmtL) : Nat :=
  guardBits g + op <<< 22 + f.pd.val <<< 19 + f.pa.val <<< 16 + f.pb.val <<< 13 + f.op.val <<< 11 + f.z.toNat

namespace State

/-- The guard holds: p[P] XOR N (R78). -/
def guardOk (s : State) (k : Nat) (g : Guard) : Bool := s.pred k g.p != g.n

/-- Issue one instruction on pilot `k` (R74, R78): only a RUNNING pilot issues; a fetch outside program memory raises BUS (R75); the reserved guard raises ILLEGAL; a false guard retires with no effect. -/
def issue (s : State) (k : Nat) (word : Nat) (g : Guard) (body : State → IOut) : State :=
  let p := s.pilot k
  if p.st ≠ .running then s
  else if 0x10000 ≤ p.pc then s.takeExc k 3 (BitVec.ofNat 64 p.pc) p.pc
  else if g.n && decide (g.p.val = 0) then s.takeExc k 1 (BitVec.ofNat 64 word) p.pc
  else if !s.guardOk k g then s.retireTo k (p.pc + 4)
  else match body s with
    | .retire s' => s'.retireTo k (p.pc + 4)
    | .jump s' pc => s'.retireTo k pc
    | .exc c v => s.takeExc k c v p.pc
    | .stall => s

/-- ILLEGAL, with the instruction word in EVAL (R85). -/
def illegal (word : Nat) : IOut := .exc 1 (BitVec.ofNat 64 word)

/-- rd takes a value. -/
def put (s : State) (k : Nat) (rd : Fin 32) (v : Word64) : IOut := .retire (s.setX k rd v)

/-- A logged instruction: in replay rd takes the logged value and `apply` what LOG applies of a BCMD (R439), a missing or different record being a PILOT divergence that stops the pilot (R92, R441); otherwise its effect is carried out and its VALUE record written (R435). -/
def logged (s : State) (k op : Nat) (rd : Fin 32) (run : State → State × Nat) (more : State → List Nat := fun _ => [])
    (apply : State → LogRec → State := fun s _ => s) : IOut :=
  if s.replaying then
    match s.loggedValue k with
    | some r =>
      let s := { s with log := { s.log with replay := s.log.replay.erase r } }
      if r.sub = op then (apply s r).put k rd (BitVec.ofNat 64 (r.body.getD 1 0))
      else .retire (s.divergePilot k)
    | none => .retire (s.divergePilot k)
  else
    let n := (s.pilot k).retired
    let (s', v) := run s
    let s'' := s'.setX k rd (BitVec.ofNat 64 v)
    .retire (s''.logRec 0x04 k op ([n, v] ++ more s''))

/-! ### Operands -/

/-- ea = rs1 + sext(imm12) (R80). -/
def ea (s : State) (k : Nat) (f : FmtI) : Word64 := s.xreg k f.rs1 + f.imm.signExtend 64

/-- The ALU functions (R81, R82); none for a reserved fn. -/
def alu (fn : Nat) (a b : Word64) : Option Word64 :=
  let sh := b.toNat % 64
  match fn with
  | 0 => some (a + b)
  | 1 => some (a - b)
  | 2 => some (a &&& b)
  | 3 => some (a ||| b)
  | 4 => some (a ^^^ b)
  | 5 => some (a <<< sh)
  | 6 => some (a >>> sh)
  | 7 => some (a.sshiftRight sh)
  | 8 => some (a * b)
  | 9 => some (BitVec.ofNat 64 ((a.toNat * b.toNat) >>> 64))
  | 10 => some (if b = 0 then BitVec.allOnes 64 else a / b)
  | 11 => some (if b = 0 then a else a % b)
  | 12 => some (if a.toNat < b.toNat then a else b)
  | 13 => some (if a.toNat < b.toNat then b else a)
  | 14 => some (if a.toInt < b.toInt then a else b)
  | 15 => some (if a.toInt < b.toInt then b else a)
  | _ => none

/-- The comparison conditions (R79); none for a reserved cond. -/
def condHolds (c : Nat) (a b : Word64) : Option Bool :=
  match c with
  | 0 => some (decide (a = b))
  | 1 => some (decide (a ≠ b))
  | 2 => some (decide (a.toInt < b.toInt))
  | 3 => some (decide (b.toInt ≤ a.toInt))
  | 4 => some (decide (a.toNat < b.toNat))
  | 5 => some (decide (b.toNat ≤ a.toNat))
  | _ => none

/-- A load of `n` bytes at ea (R75, R80, R83): MISALIGN before BUS. -/
def load (s : State) (k n : Nat) (f : FmtI) : IOut :=
  let a := s.ea k f
  if a.toNat % n ≠ 0 then .exc 2 a
  else if !loadable a.toNat then .exc 3 a
  else s.put k f.rd (BitVec.ofNat 64 (ofBytesLE (s.loadBytes k a.toNat n)))

/-- A store of `n` bytes of rt at ea (R75, R76, R80, R83). -/
def store (s : State) (k n : Nat) (f : FmtI) : IOut :=
  let a := s.ea k f
  let c := s.storeCause k a.toNat
  if a.toNat % n ≠ 0 then .exc 2 a
  else if c ≠ 0 then .exc c a
  else .retire (s.storeAt k a.toNat (bytesLE n (s.xreg k f.rd).toNat))

/-- Fields of format A that must be 0 (R80). -/
def zeroA (f : FmtA) (rd rs1 rs2 fn : Bool) : Bool :=
  (!rd || decide (f.rd.val = 0)) && (!rs1 || decide (f.rs1.val = 0)) &&
  (!rs2 || decide (f.rs2.val = 0)) && (!fn || decide (f.fn.val = 0))

/-- Run `body` unless a field that must be 0 is not (R85). -/
def ifZero (ok : Bool) (word : Nat) (r : IOut) : IOut := if ok then r else illegal word

/-! ### Berth descriptors (R98) -/

/-- A descriptor place: 8-byte aligned and wholly in private data memory. -/
def descOk (a : Word64) (len : Nat) : Bool := decide (a.toNat % 8 = 0) && inData a.toNat len

/-- The 16 bytes a query writes (R98). -/
def queryBytes (h : Nat) (b : Berth) : List Byte :=
  bytesLE 2 h ++ bytesLE 2 b.format ++ bytesLE 4 b.pages ++ bytesLE 5 b.base ++ bytesLE 1 b.owner ++
    bytesLE 1 b.count ++ bytesLE 1 (stCode b.st)

/-- The two words of a 16-byte descriptor as a VALUE record holds them. -/
def descWords (k : Nat) (a : Word64) (s : State) : List Nat :=
  [ofBytesLE (s.loadBytes k a.toNat 8), ofBytesLE (s.loadBytes k (a.toNat + 8) 8)]

/-- An allocate descriptor that is not malformed: the reserved bits of bytes 8 to 15 are 0 (R98). -/
def allocDescOk (d : Nat) : Bool :=
  decide (bits d 103 90 = 0) && decide (bits d 111 110 = 0) && decide (bits d 127 112 = 0)

/-! ### Parcel moves (R99) -/

/-- The move a 64-byte descriptor describes. -/
def moveOf (token d : Nat) : Move :=
  { token := token, man := Manifest.ofNat (bits d 255 0), src := bits d 271 256, dst := bits d 287 272,
    addr := bits d 319 288, srcOfs := bits d 383 320, dstOfs := bits d 447 384, len := bits d 479 448,
    ok := false, discard := false }

/-- A PMOV descriptor that is not malformed (R99). -/
def moveOk (m : Move) (d : Nat) : Bool :=
  decide (0 < m.len ∧ m.len ≤ 1048576 ∧ m.len % 64 = 0) && decide (m.srcOfs % 64 = 0 ∧ m.dstOfs % 64 = 0) &&
  decide (bits d 511 480 = 0) && !decide (m.src = 0 ∧ m.dst = 0) &&
  (decide (m.src ≠ 0 ∧ m.dst ≠ 0) || inData m.addr m.len)

/-- Acquire the berths a move names; what was acquired is released again when the other fails. -/
def moveAcquire (s : State) (k : Nat) (m : Move) : State × Bool :=
  let u := 24 + k
  let (s, a) := if m.src = 0 then (s, true) else s.acquire u m.src
  if !a then (s, false)
  else
    let (s, b) := if m.dst = 0 then (s, true) else s.acquire u m.dst
    if b then (s, true) else ((if m.src = 0 then s else s.releaseTable u m.src), false)

/-! ### Hash (R80) -/

/-- Reset the hash context to an algorithm. -/
def hashReset (s : State) (k alg : Nat) : State := s.setPilot k { s.pilot k with hashAlg := alg, hashed := [] }

/-- The digest of the context: 48 bytes of SHA-384, or the CRC-32 as 4 bytes. -/
def digest (s : State) (k : Nat) : List Byte :=
  let p := s.pilot k
  if p.hashAlg = 0 then Sha.sha384 p.hashed else bytesLE 4 (crc32 p.hashed)

/-! ### Control and status registers (R84) -/

def csrRead (s : State) (k n : Nat) : Option Word64 :=
  let p := s.pilot k
  match n with
  | 0 => some p.evec
  | 1 => some p.epc
  | 2 => some (BitVec.ofNat 64 p.ecause)
  | 3 => some p.eval
  | 4 => some (BitVec.ofNat 64 p.retired)
  | 5 => some (BitVec.ofNat 64 k)
  | 6 => some (BitVec.ofNat 64 (s.fld Reg.SYS_ARRAY_ID_ID))
  | 7 => some p.scratch
  | _ => none

def csrWrite (s : State) (k n : Nat) (v : Word64) : Option State :=
  let p := s.pilot k
  match n with
  | 0 => some (s.setPilot k { p with evec := v })
  | 1 => some (s.setPilot k { p with epc := v })
  | 7 => some (s.setPilot k { p with scratch := v })
  | _ => none

/-- Enter WAITING (R77, R80): the snapshot of the written banks is taken and the least tide that ends the wait is noted. -/
def waitFrom (s : State) (k : Nat) (rd : Fin 32) (least : Nat) : State :=
  let p := s.pilot k
  s.setPilot k { p with st := .waiting, waitRd := rd.val, waitFor := least, snapshot := s.bankBytes k s.shared }

end State

open State

/-! ### Arithmetic -/

/-- ALU (R80 to R82). -/
def execAlu (k : Fin 16) (g : Guard) (f : FmtA) (s : State) : Res :=
  .next (s.issue k (wordA 0x00 g f) g fun s =>
    match alu f.fn.val (s.xreg k f.rs1) (s.xreg k f.rs2) with
    | some v => s.put k f.rd v
    | none => illegal (wordA 0x00 g f))

/-- ADDI (R80). -/
def execAddi (k : Fin 16) (g : Guard) (f : FmtI) (s : State) : Res :=
  .next (s.issue k (wordI 0x01 g f) g fun s => s.put k f.rd (s.xreg k f.rs1 + f.imm.signExtend 64))

/-- ANDI (R80). -/
def execAndi (k : Fin 16) (g : Guard) (f : FmtI) (s : State) : Res :=
  .next (s.issue k (wordI 0x02 g f) g fun s => s.put k f.rd (s.xreg k f.rs1 &&& f.imm.signExtend 64))

/-- ORI (R80). -/
def execOri (k : Fin 16) (g : Guard) (f : FmtI) (s : State) : Res :=
  .next (s.issue k (wordI 0x03 g f) g fun s => s.put k f.rd (s.xreg k f.rs1 ||| f.imm.zeroExtend 64))

/-- XORI (R80). -/
def execXori (k : Fin 16) (g : Guard) (f : FmtI) (s : State) : Res :=
  .next (s.issue k (wordI 0x04 g f) g fun s => s.put k f.rd (s.xreg k f.rs1 ^^^ f.imm.zeroExtend 64))

/-- SHI (R80): imm12[11:10] selects the shift, imm12[9:6] must be 0. -/
def execShi (k : Fin 16) (g : Guard) (f : FmtI) (s : State) : Res :=
  .next (s.issue k (wordI 0x05 g f) g fun s =>
    let n := f.imm.toNat
    let a := s.xreg k f.rs1
    if bits n 9 6 ≠ 0 then illegal (wordI 0x05 g f)
    else match bits n 11 10 with
      | 0 => s.put k f.rd (a <<< (n % 64))
      | 1 => s.put k f.rd (a >>> (n % 64))
      | 2 => s.put k f.rd (a.sshiftRight (n % 64))
      | _ => illegal (wordI 0x05 g f))

/-- LUI (R80): rd = sext(imm17) << 12. -/
def execLui (k : Fin 16) (g : Guard) (f : FmtU) (s : State) : Res :=
  .next (s.issue k (wordU 0x06 g f) g fun s => s.put k f.rd (f.imm.signExtend 64 <<< 12))

/-! ### Memory -/

/-- LD (R80). -/
def execLd (k : Fin 16) (g : Guard) (f : FmtI) (s : State) : Res :=
  .next (s.issue k (wordI 0x08 g f) g fun s => s.load k 8 f)

/-- LW (R80). -/
def execLw (k : Fin 16) (g : Guard) (f : FmtI) (s : State) : Res :=
  .next (s.issue k (wordI 0x09 g f) g fun s => s.load k 4 f)

/-- LH (R80). -/
def execLh (k : Fin 16) (g : Guard) (f : FmtI) (s : State) : Res :=
  .next (s.issue k (wordI 0x0A g f) g fun s => s.load k 2 f)

/-- LB (R80). -/
def execLb (k : Fin 16) (g : Guard) (f : FmtI) (s : State) : Res :=
  .next (s.issue k (wordI 0x0B g f) g fun s => s.load k 1 f)

/-- SD (R80). -/
def execSd (k : Fin 16) (g : Guard) (f : FmtI) (s : State) : Res :=
  .next (s.issue k (wordI 0x0C g f) g fun s => s.store k 8 f)

/-- SW (R80). -/
def execSw (k : Fin 16) (g : Guard) (f : FmtI) (s : State) : Res :=
  .next (s.issue k (wordI 0x0D g f) g fun s => s.store k 4 f)

/-- SH (R80). -/
def execSh (k : Fin 16) (g : Guard) (f : FmtI) (s : State) : Res :=
  .next (s.issue k (wordI 0x0E g f) g fun s => s.store k 2 f)

/-- SB (R80). -/
def execSb (k : Fin 16) (g : Guard) (f : FmtI) (s : State) : Res :=
  .next (s.issue k (wordI 0x0F g f) g fun s => s.store k 1 f)

/-- FENCE (R80, R83): CSTs are performed in program order, each before the next instruction, so nothing is left to wait for. -/
def execFence (k : Fin 16) (g : Guard) (f : FmtA) (s : State) : Res :=
  .next (s.issue k (wordA 0x12 g f) g fun s => ifZero (zeroA f true true true true) (wordA 0x12 g f) (.retire s))

/-! ### Predicates -/

/-- PCMP (R79, R80). -/
def execPcmp (k : Fin 16) (g : Guard) (f : FmtP) (s : State) : Res :=
  .next (s.issue k (wordP 0x14 g f) g fun s =>
    match condHolds f.cond.val (s.xreg k f.rs1) (s.xreg k f.rs2) with
    | some b => ifZero (decide (f.z1 = 0) && decide (f.z2 = 0)) (wordP 0x14 g f) (.retire (s.setPred k f.pd b))
    | none => illegal (wordP 0x14 g f))

/-- PCMPI (R79, R80). -/
def execPcmpi (k : Fin 16) (g : Guard) (f : FmtQ) (s : State) : Res :=
  .next (s.issue k (wordQ 0x15 g f) g fun s =>
    match condHolds f.cond.val (s.xreg k f.rs1) (f.imm.signExtend 64) with
    | some b => .retire (s.setPred k f.pd b)
    | none => illegal (wordQ 0x15 g f))

/-- PLOG (R79, R80). -/
def execPlog (k : Fin 16) (g : Guard) (f : FmtL) (s : State) : Res :=
  .next (s.issue k (wordL 0x16 g f) g fun s =>
    let a := s.pred k f.pa
    let b := s.pred k f.pb
    let v := match f.op.val with
      | 0 => a && b
      | 1 => a || b
      | 2 => a != b
      | _ => a && !b
    ifZero (decide (f.z = 0)) (wordL 0x16 g f) (.retire (s.setPred k f.pd v)))

/-- PGET (R80). -/
def execPget (k : Fin 16) (g : Guard) (f : FmtA) (s : State) : Res :=
  .next (s.issue k (wordA 0x17 g f) g fun s =>
    ifZero (zeroA f false true true true) (wordA 0x17 g f) (s.put k f.rd (BitVec.ofNat 64 (s.predsOf k))))

/-! ### Branches -/

/-- The pc-relative target (R80). -/
def branchTo (s : State) (k : Nat) (off : BitVec 22) : Nat :=
  wrap 32 (((s.pilot k).pc : Int) + 4 * off.toInt)

/-- BR (R80). -/
def execBr (k : Fin 16) (g : Guard) (off : BitVec 22) (s : State) : Res :=
  .next (s.issue k (wordJ 0x18 g off) g fun s => .jump s (branchTo s k off))

/-- CALL (R80). -/
def execCall (k : Fin 16) (g : Guard) (off : BitVec 22) (s : State) : Res :=
  .next (s.issue k (wordJ 0x19 g off) g fun s =>
    .jump (s.setX k 31 (BitVec.ofNat 64 ((s.pilot k).pc + 4))) (branchTo s k off))

/-- JR (R75, R80): an ea with any of bits 63:32 set raises BUS. -/
def execJr (k : Fin 16) (g : Guard) (f : FmtI) (s : State) : Res :=
  .next (s.issue k (wordI 0x1A g f) g fun s =>
    let a := s.ea k f
    if 2 ^ 32 ≤ a.toNat then .exc 3 a
    else .jump (s.setX k f.rd (BitVec.ofNat 64 ((s.pilot k).pc + 4))) (a.toNat / 4 * 4))

/-! ### Dockets -/

/-- DPOP (R80, R89, R90). -/
def execDpop (k : Fin 16) (g : Guard) (f : FmtA) (s : State) : Res :=
  .next (s.issue k (wordA 0x1C g f) g fun s =>
    if !zeroA f false true true true ∨ f.rd.val % 2 = 1 then illegal (wordA 0x1C g f)
    else
      let p := s.pilot k
      let (hd, pl) := match p.released with | d :: _ => (docketHeader d, d.payload) | [] => (0, 0)
      let isLost := match p.released with | d :: _ => decide (d.kind = 0x0F) | [] => false
      let s := s.setPilot k { p with released := p.released.tail, lostHeld := p.lostHeld && !isLost }
      if f.rd.val = 0 then .retire s
      else .retire ((s.setX k f.rd (BitVec.ofNat 64 hd)).setX k (f.rd + 1) (BitVec.ofNat 64 pl)))

/-- DPOST (R80, R88). -/
def execDpost (k : Fin 16) (g : Guard) (f : FmtA) (s : State) : Res :=
  .next (s.issue k (wordA 0x1D g f) g fun s =>
    ifZero (zeroA f true false false false) (wordA 0x1D g f)
      (.retire (s.postTo ((s.xreg k f.rs1).toNat % 16) 9 (16 + k) f.fn.val (s.xreg k f.rs2).toNat)))

/-- DCNT (R80). -/
def execDcnt (k : Fin 16) (g : Guard) (f : FmtA) (s : State) : Res :=
  .next (s.issue k (wordA 0x1E g f) g fun s =>
    ifZero (zeroA f false true true true) (wordA 0x1E g f)
      (s.put k f.rd (BitVec.ofNat 64 (s.pilot k).released.length)))

/-! ### Tide waits -/

/-- WAIT (R77, R80, R91). -/
def execWait (k : Fin 16) (g : Guard) (f : FmtA) (s : State) : Res :=
  .next (s.issue k (wordA 0x20 g f) g fun s =>
    ifZero (zeroA f false true true true) (wordA 0x20 g f) (.retire (s.waitFrom k f.rd 0)))

/-- WAITU (R80). -/
def execWaitu (k : Fin 16) (g : Guard) (f : FmtA) (s : State) : Res :=
  .next (s.issue k (wordA 0x21 g f) g fun s =>
    ifZero (zeroA f false false true true) (wordA 0x21 g f) (.retire (s.waitFrom k f.rd (s.xreg k f.rs1).toNat)))

/-- TIDE (R80). -/
def execTide (k : Fin 16) (g : Guard) (f : FmtA) (s : State) : Res :=
  .next (s.issue k (wordA 0x22 g f) g fun s =>
    ifZero (zeroA f false true true true) (wordA 0x22 g f) (s.put k f.rd (BitVec.ofNat 64 (s.pilot k).lastTide)))

/-- TIMR (R80, R113). -/
def execTimr (k : Fin 16) (g : Guard) (f : FmtA) (s : State) : Res :=
  .next (s.issue k (wordA 0x23 g f) g fun s =>
    ifZero (zeroA f false true true true) (wordA 0x23 g f) (s.logged k 0x23 f.rd fun s => (s, s.capture)))

/-! ### Manifest, transactions, berths -/

/-- MFLD (R80): a FREE berth or handle 0 gives 0. -/
def execMfld (k : Fin 16) (g : Guard) (f : FmtI) (s : State) : Res :=
  .next (s.issue k (wordI 0x24 g f) g fun s =>
    ifZero (decide (f.imm.toNat < 4)) (wordI 0x24 g f) (s.logged k 0x24 f.rd fun s =>
      let h := (s.xreg k f.rs1).toNat % 65536
      let b := s.berth h
      let w := if h = 0 ∨ b.st = .free then 0 else bits b.man.toNat (64 * (f.imm.toNat % 4) + 63) (64 * (f.imm.toNat % 4))
      (s, w)))

/-- TXB (R58, R80). -/
def execTxb (k : Fin 16) (g : Guard) (f : FmtA) (s : State) : Res :=
  .next (s.issue k (wordA 0x28 g f) g fun s =>
    ifZero (zeroA f false true true true) (wordA 0x28 g f) (s.logged k 0x28 f.rd fun s => s.txnBegin (16 + k)))

/-- TXC (R62, R63, R80). -/
def execTxc (k : Fin 16) (g : Guard) (f : FmtA) (s : State) : Res :=
  .next (s.issue k (wordA 0x29 g f) g fun s =>
    ifZero (zeroA f false false true false && decide (f.fn.val < 4)) (wordA 0x29 g f)
      (s.logged k 0x29 f.rd fun s =>
        let (s', r, t) := s.commit (16 + k) ((s.xreg k f.rs1).toNat % 2 ^ 48) (bit f.fn.val 0) (bit f.fn.val 1)
        (s', r + (if r = rOk then t <<< 32 else 0))))

/-- TXR (R66, R80). -/
def execTxr (k : Fin 16) (g : Guard) (f : FmtA) (s : State) : Res :=
  .next (s.issue k (wordA 0x2A g f) g fun s =>
    ifZero (zeroA f false true true true) (wordA 0x2A g f) (s.logged k 0x2A f.rd fun s => s.txnRollback (16 + k)))

/-- TXW (R66, R80). -/
def execTxw (k : Fin 16) (g : Guard) (f : FmtA) (s : State) : Res :=
  .next (s.issue k (wordA 0x2B g f) g fun s =>
    ifZero (zeroA f false false true true) (wordA 0x2B g f)
      (s.logged k 0x2B f.rd fun s => s.withdraw (16 + k) ((s.xreg k f.rs1).toNat % 2 ^ 32)))

/-- What LOG applies of a logged BCMD with a descriptor (R98, R439): the descriptor as written back, and an allocation that was granted. -/
def bcmdReplay (k a : Nat) (alloc : Bool) (s : State) (r : LogRec) : State :=
  let b := ((r.body.drop 2).map (bytesLE 8)).flatten
  let s := s.storeAt k a b
  let d := ofBytesLE b
  if alloc && decide (r.body.getD 1 0 = 0) then
    (s.allocate (bits d 15 0) (bits d 89 64) (bits d 63 32) (bits d 31 16) (bits d 109 104)).1
  else s

/-- BCMD with fn 1 (R35, R80, R98): allocate from a descriptor. -/
def execBcmdAllocate (k : Fin 16) (g : Guard) (f : FmtA) (s : State) : Res :=
  .next (s.issue k (wordA 0x2C g f) g fun s =>
    let a := s.xreg k f.rs1
    if f.fn.val ≠ 1 ∨ f.rs2.val ≠ 0 then illegal (wordA 0x2C g f)
    else
      let d := ofBytesLE (s.loadBytes k a.toNat 16)
      if !descOk a 16 || !allocDescOk d then .exc 5 a
      else s.logged k 0x2C f.rd
        (fun s => s.allocate (bits d 15 0) (bits d 89 64) (bits d 63 32) (bits d 31 16) (bits d 109 104))
        (descWords k a) (bcmdReplay k a.toNat true))

/-- BCMD with fn 2 (R37, R80): free as unit 24 + k. -/
def execBcmdFree (k : Fin 16) (g : Guard) (f : FmtA) (s : State) : Res :=
  .next (s.issue k (wordA 0x2C g f) g fun s =>
    if f.fn.val ≠ 2 ∨ f.rs2.val ≠ 0 then illegal (wordA 0x2C g f)
    else
      let h := (s.xreg k f.rs1).toNat % 65536
      s.logged k 0x2C f.rd (fun s => s.free (24 + k) h) (apply := fun s r =>
        if r.body.getD 1 0 = 0 ∨ r.body.getD 1 0 = 5 then (s.free (24 + k) h).1 else s))

/-- BCMD with fn 3 (R80, R98): query into a descriptor. -/
def execBcmdQuery (k : Fin 16) (g : Guard) (f : FmtA) (s : State) : Res :=
  .next (s.issue k (wordA 0x2C g f) g fun s =>
    let a := s.xreg k f.rs2
    if f.fn.val ≠ 3 then illegal (wordA 0x2C g f)
    else if !descOk a 16 then .exc 5 a
    else s.logged k 0x2C f.rd
      (fun s =>
        let h := (s.xreg k f.rs1).toNat % 65536
        match s.query h with
        | (some b, r) => (s.storeAt k a.toNat (queryBytes h b), r)
        | (none, r) => (s, r))
      (descWords k a) (bcmdReplay k a.toNat false))

/-- PMOV (R80, R99): the descriptor is checked, the berths acquired, the token returned; a ninth move stalls. -/
def execPmov (k : Fin 16) (g : Guard) (f : FmtA) (s : State) : Res :=
  .next (s.issue k (wordA 0x2D g f) g fun s =>
    let a := s.xreg k f.rs1
    let p := s.pilot k
    if !zeroA f false false true true then illegal (wordA 0x2D g f)
    else if !descOk a 64 then .exc 5 a
    else
      let d := ofBytesLE (s.loadBytes k a.toNat 64)
      let m := moveOf (p.tokens % 65536) d
      if !moveOk m d then .exc 5 a
      else if 8 ≤ p.moves.length then .stall
      else
        let (s, ok) := s.moveAcquire k m
        let s := s.setPilot k { s.pilot k with moves := p.moves ++ [{ m with ok := ok, tide := p.workTide }], tokens := p.tokens + 1 }
        s.put k f.rd (BitVec.ofNat 64 (p.tokens % 65536)))

/-! ### Hash -/

/-- HINIT (R80). -/
def execHinit (k : Fin 16) (g : Guard) (f : FmtA) (s : State) : Res :=
  .next (s.issue k (wordA 0x30 g f) g fun s =>
    ifZero (zeroA f true true true false && decide (f.fn.val < 2)) (wordA 0x30 g f) (.retire (s.hashReset k f.fn.val)))

/-- HUPD (R75, R80): absorbs rs2 bytes from rs1; the first address that cannot be loaded raises BUS. -/
def execHupd (k : Fin 16) (g : Guard) (f : FmtA) (s : State) : Res :=
  .next (s.issue k (wordA 0x31 g f) g fun s =>
    let a := (s.xreg k f.rs1).toNat
    let n := (s.xreg k f.rs2).toNat
    if !zeroA f true false false true then illegal (wordA 0x31 g f)
    else if 0 < n ∧ loadEnd a < a + n then .exc 3 (BitVec.ofNat 64 (loadEnd a))
    else .retire (s.setPilot k { s.pilot k with hashed := (s.pilot k).hashed ++ s.loadBytes k a n }))

/-- The cause and address of the first byte of a range that pilot `k` may not store. -/
def firstBadStore (s : State) (k a : Nat) : Nat → Option (Nat × Nat)
  | 0 => none
  | n + 1 => if s.storeCause k a ≠ 0 then some (s.storeCause k a, a) else firstBadStore s k (a + 1) n

/-- HFIN (R80). -/
def execHfin (k : Fin 16) (g : Guard) (f : FmtA) (s : State) : Res :=
  .next (s.issue k (wordA 0x32 g f) g fun s =>
    let a := (s.xreg k f.rs1).toNat
    let d := s.digest k
    if !zeroA f false false true true then illegal (wordA 0x32 g f)
    else match firstBadStore s k a d.length with
      | some (c, b) => .exc c (BitVec.ofNat 64 b)
      | none =>
        let s := (s.storeAt k a d).hashReset k (s.pilot k).hashAlg
        s.put k f.rd (BitVec.ofNat 64 (ofBytesLE (d.take 8))))

/-! ### System -/

/-- CSRR (R80, R84). -/
def execCsrr (k : Fin 16) (g : Guard) (f : FmtA) (s : State) : Res :=
  .next (s.issue k (wordA 0x38 g f) g fun s =>
    match s.csrRead k f.fn.val with
    | some v => ifZero (zeroA f false true true false) (wordA 0x38 g f) (s.put k f.rd v)
    | none => illegal (wordA 0x38 g f))

/-- CSRW (R80, R84). -/
def execCsrw (k : Fin 16) (g : Guard) (f : FmtA) (s : State) : Res :=
  .next (s.issue k (wordA 0x39 g f) g fun s =>
    match s.csrWrite k f.fn.val (s.xreg k f.rs1) with
    | some s' => ifZero (zeroA f true false true false) (wordA 0x39 g f) (.retire s')
    | none => illegal (wordA 0x39 g f))

/-- TRAP (R80, R86): it retires, and EPC is the pc after it. -/
def execTrap (k : Fin 16) (g : Guard) (f : FmtU) (s : State) : Res :=
  .next (s.issue k (wordU 0x3A g f) g fun s =>
    if f.rd.val ≠ 0 then illegal (wordU 0x3A g f)
    else
      let p := s.pilot k
      let s' := (s.retireTo k (p.pc + 4)).takeExc k 7 (f.imm.zeroExtend 64) (p.pc + 4)
      let q := s'.pilot k
      .jump (s'.setPilot k { q with retired := p.retired }) q.pc)

/-- ERET (R80). -/
def execEret (k : Fin 16) (g : Guard) (f : FmtA) (s : State) : Res :=
  .next (s.issue k (wordA 0x3B g f) g fun s =>
    let p := s.pilot k
    ifZero (zeroA f true true true true) (wordA 0x3B g f)
      (.jump (s.setPilot k { p with handler := false }) (p.epc.toNat / 4 * 4)))

/-- RAND (R80, R92): 64 bits of the TRNG, free. -/
def execRand (k : Fin 16) (g : Guard) (f : FmtA) (s : State) : Res :=
  .next (s.issue k (wordA 0x3C g f) g fun s =>
    ifZero (zeroA f false true true true) (wordA 0x3C g f)
      (s.logged k 0x3C f.rd fun s => (s.nextFree, (Config.trng s.fresh).toNat)))

/-- HALT (R80, R86). -/
def execHalt (k : Fin 16) (g : Guard) (f : FmtA) (s : State) : Res :=
  .next (s.issue k (wordA 0x3D g f) g fun s =>
    ifZero (zeroA f true true true true) (wordA 0x3D g f)
      (let pc := (s.pilot k).pc
       let s := s.setPilot k { s.pilot k with retired := ((s.pilot k).retired + 1) % 2 ^ 64 }
       let s := s.halt k 0 pc
       .jump (s.setPilot k { s.pilot k with retired := ((s.pilot k).retired + 2 ^ 64 - 1) % 2 ^ 64 }) pc))

end Sys2Proof.Machine
end

