-- ==== Sys2Proof/Machine/Mem.lean ====
section
/-! DEFINITION. Memory controllers: interleave, pools, urgency, the pick, pages, refresh, idle windows, retraining, reserves and ECC (R293 to R314). -/

namespace Sys2Proof.Machine

/-- Where an address lies in DRAM (R295). -/
structure DramPlace where
  c : Nat
  ch : Nat
  pc : Nat
  sid : Nat
  bk : Nat
  col : Nat
  row : Nat
  deriving DecidableEq, Repr

/-- The first address that no stack holds (R295). -/
def dramEnd : Nat := 0x3000000000

/-- The address interleave (R295). -/
def interleaveOf (a : Nat) : DramPlace :=
  let g := a >>> 8
  let q := g % 192
  let l := g / 192
  { c := q % 6, ch := q / 6 % 16, pc := q / 6 / 16, col := bits l 1 0, bk := bits l 5 2 ^^^ bits l 11 8,
    sid := bits l 7 6, row := bits l 21 8 }

/-- The pseudo-channel of an address among all 192: 32 c + 2 ch + pc. -/
def pcOf (a : Nat) : Nat := let d := interleaveOf a; 32 * d.c + 2 * d.ch + d.pc

/-- The bank of an address within its pseudo-channel, of 64. -/
def bankOf (a : Nat) : Nat := let d := interleaveOf a; 16 * d.sid + d.bk

/-- Urgency by age (R305); `age` in ns. -/
def urgencyAt (base target guard age : Nat) : Nat :=
  if 0 < target then
    if target * 7 ≤ age * 8 then 3 else if target ≤ age * 2 then max base 2 else base
  else if max guard 1 ≤ age then max base 2 else base

namespace State

def memPc (s : State) (k : Nat) : MemPc := s.memsys.pcs.get (fun _ => {}) k
def setMemPc (s : State) (k : Nat) (x : MemPc) : State :=
  { s with memsys := { s.memsys with pcs := s.memsys.pcs.set (fun _ => {}) k x } }

def memBank (x : MemPc) (b : Nat) : MemBank := x.banks.get (fun _ => {}) b
def setMemBank (x : MemPc) (b : Nat) (y : MemBank) : MemPc := { x with banks := x.banks.set (fun _ => {}) b y }

def memState (s : State) (c : Nat) : Nat := s.fld (Reg.MEM_STATUS_STATE c)

/-- Events of controller `c` (R313): SOURCE 54, the controller in SUB bits 15:12. -/
def memRaise (s : State) (c m : Nat) : State :=
  s.raiseAt (0x1A0020 + 0x4000 * c) (0x1A0024 + 0x4000 * c) 54 0xF000 (c <<< 12) m

/-! ### Urgency, reserves and pools (R296, R305, R308) -/

/-- The urgency a waiting request has reached: it never falls. -/
def escalate (s : State) (r : MemReq) : MemReq :=
  { r with urg := max r.urg (urgencyAt r.urg r.target (s.fld Reg.MEM_BE_AGE_NS) ((s.now - r.arrived) / 2)) }

def escalateAll (s : State) : State :=
  { s with memsys := { s.memsys with
    waiting := s.memsys.waiting.map s.escalate
    pcs := s.memsys.pcs.map fun (k, x) => (k, { x with reads := x.reads.map s.escalate, writes := x.writes.map s.escalate }) } }

/-- Quay `q` has used up its reserve in the present window. -/
def reserveUsed (s : State) (q : Nat) : Bool :=
  decide (s.fld (Reg.MEM_QUAY_RESERVE q) * 1000 ≤ s.memsys.used.get (fun _ => 0) q)

/-- Urgency in the pick: 0 for a held quay whose reserve is used up (R308). -/
def pickUrg (s : State) (r : MemReq) : Nat := if r.hold && s.reserveUsed r.quay then 0 else r.urg

/-- A pool of `total` entries, 16 of them reserved, takes a request of urgency `u`. -/
def poolTakes (total u : Nat) (l : List MemReq) : Bool :=
  let low := (l.filter fun r => r.low).length
  let high := l.length - low
  if u < 2 then decide (low + (high - 16) < total - 16) else decide (l.length < total)

/-- The quays are open: every controller ended its training READY (R294). -/
def quaysOpen (s : State) : Bool := (List.range 6).all fun c => decide (s.memState c = 2 ∨ s.memState c = 3)

/-- A request enters its pool; a read whose address has a queued write takes its data from it and is done (R297). -/
def poolEnter (s : State) (r : MemReq) : State × Bool :=
  let k := pcOf r.addr
  let x := s.memPc k
  let r := { r with low := decide (r.urg < 2) }
  if !s.quaysOpen || decide (s.memState (k / 32) ≠ 2) then (s, false)
  else if r.write then
    if poolTakes 64 r.urg x.writes then (s.setMemPc k { x with writes := x.writes ++ [r] }, true) else (s, false)
  else if x.writes.any fun w => decide (w.addr / 64 = r.addr / 64) then (s, true)
  else if poolTakes 96 r.urg x.reads then (s.setMemPc k { x with reads := x.reads ++ [r] }, true)
  else (s, false)

/-- Requests that wait for a credit enter the pools as these free entries, in order of arrival. -/
def takeIn : List MemReq → List MemReq → State → State
  | [], keep, s => { s with memsys := { s.memsys with waiting := keep } }
  | r :: rs, keep, s =>
    let blocked := keep.any fun x => decide (x.quay = r.quay) && decide (pcOf x.addr = pcOf r.addr)
    let (s, ok) := if blocked then (s, false) else s.poolEnter r
    takeIn rs (if ok then keep else keep ++ [r]) s

/-- MEM_REQUEST: a request from quay `q` (R296, R305). -/
def memRequest (s : State) (q a : Nat) (half write : Bool) (ecc : Nat) : State :=
  let base := s.fld (Reg.MEM_QUAY_BASE q)
  let target := s.fld (Reg.MEM_QUAY_TARGET_NS q)
  let r : MemReq := ⟨s.memsys.seq, q, a, if half then 32 else 64, write, ecc, s.now,
    urgencyAt base target (s.fld Reg.MEM_BE_AGE_NS) 0, target, s.flag (Reg.MEM_QUAY_HOLD q), false, 0⟩
  let s := { s with memsys := { s.memsys with seq := s.memsys.seq + 1 } }
  takeIn (s.memsys.waiting ++ [r]) [] s

/-! ### The pick (R297 to R299) -/

/-- An older request to the same 64-byte address is still queued. -/
def olderSame (x : MemPc) (r : MemReq) : Bool :=
  (x.reads ++ x.writes).any fun o => decide (o.seq < r.seq) && decide (o.addr / 64 = r.addr / 64)

def rowOfReq (r : MemReq) : Nat := (interleaveOf r.addr).row

/-- A request finds its row open. -/
def rowHit (x : MemPc) (r : MemReq) : Bool := decide ((memBank x (bankOf r.addr)).row = some (rowOfReq r))

/-- The head of bank `b` among the requests of one direction: the oldest of the highest urgency, or a row hit that may pass it. -/
def bankHead (s : State) (x : MemPc) (limit b : Nat) (l : List MemReq) : Option MemReq :=
  let l := l.filter fun r => decide (bankOf r.addr = b) && !olderSame x r
  let u := l.foldl (fun n r => max n (s.pickUrg r)) 0
  match l.filter fun r => decide (s.pickUrg r = u) with
  | [] => none
  | h :: t =>
    if rowHit x h then some h
    else
      let free := (h :: t).takeWhile fun r => decide (r.passed < limit)
      ((free ++ ((h :: t).drop free.length).take 1).find? fun r => rowHit x r).orElse fun _ => some h

/-- `a` goes before `b` in the pick: urgency, then reserve, then row hit, then the bank that follows the one served last. -/
def pickBefore (s : State) (x : MemPc) (a b : MemReq) : Bool :=
  let rot := fun (r : MemReq) => (bankOf r.addr + 63 - x.last) % 64
  let key := fun (r : MemReq) => (3 - s.pickUrg r) * 256 + b01 (s.reserveUsed r.quay) * 128 + (1 - b01 (rowHit x r)) * 64 + rot r
  decide (key a < key b)

/-- The request served in a command slot, among the banks in `ready` (those whose head breaks no JESD238 timing rule). -/
def pick (s : State) (x : MemPc) (limit : Nat) (ready : Nat) : Option MemReq :=
  let l := if x.writing then x.writes else x.reads
  ((List.range 64).filterMap fun b => if bit ready b then s.bankHead x limit b l else none).foldl
    (fun (best : Option MemReq) r => match best with
      | none => some r
      | some q => if s.pickBefore x r q then some r else some q) none

/-- The direction of the next slot (R299). -/
def turn (s : State) (c : Nat) (x : MemPc) : MemPc :=
  let r3 := x.reads.any fun r => decide (r.urg = 3)
  let w3 := x.writes.any fun r => decide (r.urg = 3)
  if x.writing then { x with writing := !(decide (x.writes.length ≤ s.fld (Reg.MEM_WBUF_LOW c)) || r3) }
  else { x with writing := decide (s.fld (Reg.MEM_WBUF_HIGH c) ≤ x.writes.length) || (w3 && !r3) }

/-- An uncorrectable error at an address (R312). -/
def memUncorr (s : State) (a : Nat) : State :=
  let c := (interleaveOf a).c
  let s := (s.count (Reg.MEM_CNT_UNCORR_COUNT c)).setFld2 (Reg.MEM_UNCORR_ADDR_LO c) (Reg.MEM_UNCORR_ADDR_HI c) a
  (s.memRaise c 2).note 54 1 a c

/-- Latency of a request as its first data reach the quay (R314). -/
def memLatency (s : State) (r : MemReq) : State :=
  let ns := (s.now - r.arrived) / 2
  let f := Reg.MEM_QUAY_MAX_NS r.quay
  let v := min ns 65535
  let s := s.rcEvent f (max (s.fld f) v) (max (s.rcShare f) v)
  if 0 < r.target ∧ r.target < ns then s.count (Reg.MEM_QUAY_LATE_LATE r.quay) else s

/-- Perform a request: page state, counters, reserve, ECC (R300, R308, R312). -/
def perform (s : State) (k : Nat) (r : MemReq) : State :=
  let c := k / 32
  let x := s.memPc k
  let b := memBank x (bankOf r.addr)
  let hit := rowHit x r
  let predict := s.flag (Reg.MEM_PAGE_PREDICT c)
  let pred := if !predict then 2 else if hit then min 3 (b.pred + 1) else if b.row.isSome then b.pred - 1 else b.pred
  let b := { row := if pred = 0 then none else some (rowOfReq r), pred := pred, used := s.now }
  let skip := fun (q : MemReq) => if q.seq < r.seq ∧ bankOf q.addr = bankOf r.addr ∧ s.pickUrg q = s.pickUrg r ∧ q.write = r.write then
    { q with passed := q.passed + 1 } else q
  let x := setMemBank { x with
    reads := (x.reads.filter fun q => decide (q.seq ≠ r.seq)).map skip
    writes := (x.writes.filter fun q => decide (q.seq ≠ r.seq)).map skip
    last := bankOf r.addr } (bankOf r.addr) b
  let s := s.setMemPc k x
  let s := s.count (if hit then Reg.MEM_CNT_HIT_HITS c else Reg.MEM_CNT_MISS_MISSES c)
  let s := s.count (if r.write then Reg.MEM_CNT_WR_WRITES c else Reg.MEM_CNT_RD_READS c)
  let n := s.memsys.used.get (fun _ => 0) r.quay
  let s := { s with memsys := { s.memsys with used := s.memsys.used.set (fun _ => 0) r.quay (n + r.len) } }
  let s := if r.write then s else s.memLatency r
  let s := if r.ecc = 1 then (s.count (Reg.MEM_CNT_CORR_COUNT c)).memRaise c 1 else s
  if r.ecc = 2 ∧ !r.write then s.memUncorr r.addr else s

/-- One command slot of pseudo-channel `k`; which banks may issue is free, since JESD238's timing is no part of the spec (log entry 13). -/
def memSlot (s : State) (k : Nat) : State :=
  let c := k / 32
  if s.memState c ≠ 2 ∨ s.fld (Reg.MEM_STATUS_SWEEP_PC c) = k % 32 then s
  else
    let s := s.setMemPc k (s.turn c (s.memPc k))
    match s.pick (s.memPc k) (max 1 (s.fld (Reg.MEM_PAGE_HIT_LIMIT c))) s.freeVal with
    | some r => s.nextFree.perform k r
    | none => s.nextFree

def memSlots : List Nat → State → State
  | [], s => s
  | k :: ks, s => memSlots ks (if (s.memPc k).reads.isEmpty && (s.memPc k).writes.isEmpty then s else s.memSlot k)

/-- Windows of at most 300 ns end (R302). -/
def endWindows : List Nat → State → State
  | [], s => s
  | c :: cs, s =>
    endWindows cs
      (if s.fld (Reg.MEM_STATUS_SWEEP_PC c) ≠ 0x3FF ∧ nsCycles 300 ≤ s.now - (s.memsys.sweeps.get (fun _ => {}) c).winAt then
        s.setFld (Reg.MEM_STATUS_SWEEP_PC c) 0x3FF else s)

/-- One FCLK cycle of the memory system. -/
def memTick (s : State) : State :=
  let s := endWindows (List.range 6) s
  if s.memsys.pcs.isEmpty && s.memsys.waiting.isEmpty then s
  else
    let s := s.escalateAll
    let s := memSlots (s.memsys.pcs.map (·.1)) s
    takeIn s.memsys.waiting [] s

/-! ### Pages, refresh and windows (R300 to R303) -/

/-- Close the row of a bank. -/
def closeRow (s : State) (k b : Nat) : State :=
  let x := s.memPc k
  s.setMemPc k (setMemBank x b { memBank x b with row := none })

/-- An open row unused for IDLE MCLK cycles closes; MCLK and FCLK have one rate. -/
def pageIdle (s : State) (k b : Nat) : State :=
  let y := memBank (s.memPc k) b
  if y.row.isSome ∧ s.fld (Reg.MEM_PAGE_IDLE (k / 32)) ≤ s.now - y.used then s.closeRow k b else s

/-- A refresh of a bank: postponed while it holds a request of urgency 3, up to the limit JESD238 allows. -/
def memRefresh (s : State) (k b : Nat) (limit : Bool) : State :=
  let x := s.memPc k
  if !limit && (x.reads ++ x.writes).any fun r => decide (bankOf r.addr = b) && decide (r.urg = 3) then
    s.count (Reg.MEM_CNT_REFPOST_POSTPONED (k / 32))
  else s.closeRow k b

def closeRows (k : Nat) : List Nat → State → State
  | [], s => s
  | b :: bs, s => closeRows k bs (if (memBank (s.memPc k) b).row.isSome then s.closeRow k b else s)

/-- The next window of a sweep begins (R302, R303): its pseudo-channel takes what CAL has for it. -/
def idleWindow (s : State) (c pc : Nat) : State :=
  let w := s.memsys.sweeps.get (fun _ => {}) c
  if s.memState c ≠ 2 ∨ w.next ≠ pc then s
  else
    let start := if pc = 0 then s.now else w.startAt
    let s := { s with memsys := { s.memsys with sweeps := s.memsys.sweeps.set (fun _ => {}) c ⟨start, (pc + 1) % 32, s.now⟩ } }
    let s := closeRows (32 * c + pc) (List.range 64) (s.setFld (Reg.MEM_STATUS_SWEEP_PC c) pc)
    if s.replayMode then s else calBoundary (32 + 32 * c + pc) start (List.range 41) s

/-! ### Training and retraining (R294, R304) -/

def memTrainDone (s : State) (c : Nat) (ok : Bool) : State :=
  if s.memState c = 0 ∨ s.memState c = 1 then
    if ok then s.setFld (Reg.MEM_STATUS_STATE c) 2 else (s.setFld (Reg.MEM_STATUS_STATE c) 4).memRaise c 0x10
  else s

/-- MEM_CTRL.OP = RETRAIN. -/
def memRetrain (s : State) (c : Nat) : State :=
  if (List.range 6).any fun k => decide (k ≠ c) && decide (s.memState k = 3) then s.memRaise c 0x20
  else if s.memState c = 2 then s.setFld (Reg.MEM_STATUS_STATE c) 3 else s

def memRetrainDone (s : State) (c : Nat) (ok : Bool) : State :=
  if s.memState c = 3 then
    if ok then (s.setFld (Reg.MEM_STATUS_STATE c) 2).memRaise c 4 else (s.setFld (Reg.MEM_STATUS_STATE c) 4).memRaise c 0x10
  else s

/-! ### The quay table and the decoder of addresses (R307, R314) -/

/-- The sum of the reserves. -/
def reserveSum (s : State) : Nat := ((List.range 48).map fun q => s.fld (Reg.MEM_QUAY_RESERVE q)).sum

/-- A write of the quay table: the sum, and OVERBOOKED when it rises above 5,200 GB/s. -/
def quayWritten (s : State) : State :=
  let old := s.fld Reg.MEM_QSTATUS_SUM
  let n := s.reserveSum
  let s := (s.setFld Reg.MEM_QSTATUS_SUM n).setFld Reg.MEM_QSTATUS_OVERBOOKED (b01 (decide (5200 < n)))
  if 5200 < n ∧ old < n then s.setBitsOf 0x1B8008 1 else s

/-- Decode the address in MEM_XLATE (R295). -/
def memXlate (s : State) : State :=
  let a := s.fld2 Reg.MEM_XLATE_LO Reg.MEM_XLATE_HI
  if dramEnd ≤ a then (s.setWord 0x1B8018 1).setWord 0x1B801C 0
  else
    let d := interleaveOf a
    let s := s.setWord 0x1B8018 0
    let s := ((s.setFld Reg.MEM_XLATE_OUT_0_C d.c).setFld Reg.MEM_XLATE_OUT_0_CH d.ch).setFld Reg.MEM_XLATE_OUT_0_PC d.pc
    let s := ((s.setFld Reg.MEM_XLATE_OUT_0_SID d.sid).setFld Reg.MEM_XLATE_OUT_0_BK d.bk).setFld Reg.MEM_XLATE_OUT_0_COL d.col
    s.setWord 0x1B801C (BitVec.ofNat 32 d.row)

end State

/-! ### Commands -/

/-- MEM_REQUEST (R296); an address that R295 says does not exist is no request a controller can take. -/
def execMemRequest (q : Fin 48) (addr : Nat) (half write : Bool) (ecc : Fin 3) (s : State) : Res :=
  if dramEnd ≤ addr then .fault (.noSuchAddress addr) else .next (s.memRequest q addr half write ecc)

/-- URGENCY_ESCALATE (R305). -/
def execUrgencyEscalate (s : State) : Res := .next s.escalateAll

/-- RESERVE_WINDOW: a quay's accounting window of 1 µs ends (R308). -/
def execReserveWindow (q : Fin 48) (s : State) : Res :=
  .next { s with memsys := { s.memsys with used := s.memsys.used.set (fun _ => 0) q 0 } }

/-- MEM_PAGE_IDLE (R300). -/
def execMemPageIdle (c : Fin 6) (pc : Fin 32) (b : Fin 64) (s : State) : Res := .next (s.pageIdle (32 * c + pc) b)

/-- MEM_REFRESH (R301). -/
def execMemRefresh (c : Fin 6) (pc : Fin 32) (b : Fin 64) (limit : Bool) (s : State) : Res :=
  .next (s.memRefresh (32 * c + pc) b limit)

/-- MEM_IDLE_WINDOW (R302). -/
def execMemIdleWindow (c : Fin 6) (pc : Fin 32) (s : State) : Res := .next (s.idleWindow c pc)

/-- MEM_RETRAIN_DONE (R304). -/
def execMemRetrainDone (c : Fin 6) (ok : Bool) (s : State) : Res := .next (s.memRetrainDone c ok)

end Sys2Proof.Machine
end

