-- ==== Sys2Proof/Machine/Twb.lean ====
section
/-! DEFINITION. Two-wire buses: bus clear, controller transfers, alerts, target transfers, faults, the control-target bus's framing (R394 to R403). -/

namespace Sys2Proof.Machine

/-- The bus clear (R400): at most 9 clocks, a STOP wherever SDA is high at the end of SCL high; true when both lines are then high. -/
def busClear : Nat → List (Bool × Bool) → Bool
  | 0, _ => false
  | _, [] => false
  | n + 1, (sda, free) :: l => (sda && free) || busClear n l

namespace State

def twb (s : State) (b : Nat) : Twb := s.twbs.get (fun _ => {}) b
def setTwb (s : State) (b : Nat) (x : Twb) : State := { s with twbs := s.twbs.set (fun _ => {}) b x }
def twbState (s : State) (b : Nat) : Nat := s.fld (Reg.TWB_STATUS_STATE b)
def setTwbState (s : State) (b v : Nat) : State := s.setFld (Reg.TWB_STATUS_STATE b) v
def twbMode (s : State) (b : Nat) : Nat := s.fld (Reg.TWB_CFG_MODE b)

/-- Event bits of bus `b`: SOURCE 48, the bus in SUB bits 15:8; WRITE_REJECT, bit 8 of the event word, has no place among SUB bits 7:0 (log entry 19). -/
def twbRaise (s : State) (b m : Nat) : State :=
  let a := (Reg.TWB_EVENT_NACK b).addr
  let en := (Reg.TWB_EVENT_EN_EN b).addr
  let s := s.raiseAt a en 48 0xFF00 (b <<< 8) (m % 256)
  if bit m 8 then
    let s := s.setBitsOf a 256
    if bit (s.word en).toNat 8 then s.post 5 48 (b <<< 8) 0 else s
  else s

/-- A transfer ends with a result (R396, R399). -/
def twbEnd (s : State) (b : Nat) (x : TwbXfer) (r n : Nat) (read : List Byte) : State :=
  if x.alert then s.twbRaise b 128
  else
    let s := ((s.setFld (Reg.TWB_XFER_STATUS_BUSY b) 0).setFld (Reg.TWB_XFER_STATUS_RESULT b) r).setFld (Reg.TWB_XFER_STATUS_BYTES b) n
    let s := if read = [] then s
      else s.setFld2 (Reg.TWB_RXD_0 b) (Reg.TWB_RXD_1 b) (ofBytesLE (read.take 8))
    s.twbRaise b (64 + if r = 1 ∨ r = 2 then 1 else 0)

/-- Every transfer of a list ends with result `r`. -/
def twbEndAll (b r : Nat) : List TwbXfer → State → State
  | [], s => s
  | x :: xs, s => twbEndAll b r xs (s.twbEnd b x r 0 [])

/-- The transfer in progress ends with result `r`. -/
def twbEndCur (s : State) (b r : Nat) : State :=
  match (s.twb b).cur with
  | none => s
  | some (x, _) =>
    let s := (s.setTwb b { s.twb b with cur := none }).setFld (Reg.TWB_STATUS_BUS_BUSY b) 0
    (if s.twbState b = 2 then s.setTwbState b 1 else s).twbEnd b x r 0 []

/-- Every transfer that waits or runs ends with result `r`. -/
def twbFlush (s : State) (b r : Nat) : State :=
  let s := s.twbEndCur b r
  let l := (s.twb b).wait
  twbEndAll b r l (s.setTwb b { s.twb b with wait := [] })

/-- A fault (R401): the pins are released, FAULT is latched, the transfer in progress ends with ABORTED. -/
def twbFault (s : State) (b k : Nat) : State :=
  let s := (s.setFld (Reg.TWB_STATUS_FAULT b) k).setTwb b { s.twb b with faultAt := s.now, pre := [] }
  let s := (s.twbEndCur b 7).setFld (Reg.TWB_STATUS_BUS_BUSY b) 0
  (if s.twbState b = 3 then s.setTwbState b 1 else s).twbRaise b 4

def showLines (s : State) (b : Nat) (scl sda : Bool) : State :=
  (s.setFld (Reg.TWB_STATUS_SCL b) (b01 scl)).setFld (Reg.TWB_STATUS_SDA b) (b01 sda)

/-- Run the bus clear (R400, R401): IDLE, or SHORT, or ISOLATED with SDA_STUCK. -/
def runClear (s : State) (b : Nat) (line : TwbLine) : State :=
  if line.short then (s.setTwbState b 1).twbFault b 3
  else if busClear 9 line.clear then ((s.setTwbState b 1).setFld (Reg.TWB_STATUS_FAULT b) 0).showLines b true true
  else ((s.setTwbState b 4).setFld (Reg.TWB_STATUS_FAULT b) 1).twbRaise b 6

/-- The lines as their status shows them; what a clear would find there is free (log entry 19). -/
def shownLine (s : State) (b : Nat) : TwbLine :=
  ⟨s.flag (Reg.TWB_STATUS_SCL b), s.flag (Reg.TWB_STATUS_SDA b), [(decide (s.freeVal % 2 = 0), true)], false⟩

/-- TWB_CTRL.OP (R400, R408): 1 ENABLE, 2 DISABLE, 3 CLEAR, 4 ABORT. -/
def twbOp (s : State) (b op : Nat) (line : TwbLine) : State :=
  let st := s.twbState b
  if op = 1 then
    if st ≠ 0 ∨ s.twbMode b = 0 ∨ 4 < s.twbMode b then s
    else
      let s := (s.setTwbState b 1).showLines b line.scl line.sda
      if line.scl && !line.sda then s.runClear b line else s
  else if op = 2 then (((s.twbFlush b 7).setTwb b { s.twb b with cur := none, wait := [], pre := [] }).setTwbState b 0).setFld (Reg.TWB_STATUS_BUS_BUSY b) 0
  else if op = 3 then
    if st = 4 ∨ (st = 1 ∧ line.scl ∧ !line.sda) then s.runClear b line
    else if st = 1 then
      (if s.fld (Reg.TWB_STATUS_FAULT b) = 3 then s.setFld (Reg.TWB_STATUS_FAULT b) 0 else s).showLines b line.scl line.sda
    else s
  else if op = 4 then s.twbFlush b 7
  else s

/-! ### Controller transfers -/

/-- The bus can send as controller. -/
def twbController (s : State) (b : Nat) : Bool := decide (s.twbState b ≠ 0) && decide (s.twbMode b = 1 ∨ s.twbMode b = 3)

/-- Eight bytes held in two registers. -/
def twoWords (s : State) (lo hi : Fld) : List Byte := bytesLE 8 (s.fld2 lo hi)

/-- An XFER waits or runs. -/
def xferPending (s : State) (b : Nat) : Bool :=
  ((s.twb b).wait.any fun (x : TwbXfer) => !x.alert) || (match (s.twb b).cur with | some (x, _) => !x.alert | none => false)

/-- TWB_XFER with GO = 1 (R396). -/
def twbGo (s : State) (b : Nat) (ten : Bool) (addr rd wr : Nat) : State :=
  if s.xferPending b then s.setFld (Reg.TWB_XFER_STATUS_RESULT b) 5
  else if !s.twbController b then s.twbRaise b 256
  else
    let x : TwbXfer := ⟨false, ten, addr, (s.twoWords (Reg.TWB_TXD_0 b) (Reg.TWB_TXD_1 b)).take wr, min 8 rd, 0⟩
    if s.twbState b = 4 then s.twbEnd b x 6 0 []
    else (s.setTwb b { s.twb b with wait := (s.twb b).wait ++ [x] }).setFld (Reg.TWB_XFER_STATUS_BUSY b) 1

/-- TWB_ALERT with GO = 1 (R399). -/
def twbAlert (s : State) (b : Nat) : State :=
  if s.twbMode b ≠ 3 ∨ s.twbState b = 0 then s.twbRaise b 256
  else
    let addr := s.fld (Reg.TWB_ALERT_ALERT_ADDR b)
    let n := clampN 1 8 (s.fld (Reg.TWB_ALERT_LEN b))
    let x : TwbXfer := ⟨true, decide (128 ≤ addr), addr, (s.twoWords (Reg.TWB_ALERT_D_0 b) (Reg.TWB_ALERT_D_1 b)).take n, 0, 0⟩
    let y := s.twb b
    if (y.wait.any fun (z : TwbXfer) => z.alert) || (match y.cur with | some (z, _) => z.alert | none => false) then s
    else if s.twbState b = 4 then s.twbEnd b x 6 0 []
    else s.setTwb b { y with wait := y.wait ++ [x] }

/-- Daxma's own address, or the general call with GC = 1 (R398). -/
def ownAddress (s : State) (b : Nat) (l : TwbLoss) : Bool :=
  let own := s.fld (Reg.TWB_OWN_ADDR_ADDR b)
  let ten := s.flag (Reg.TWB_CFG_TEN b)
  (decide (l.ten = ten) && decide (l.addr.toNat = if ten then own else own % 128)) ||
    (!l.ten && !l.read && decide (l.addr.toNat = 0) && s.flag (Reg.TWB_CFG_GC b))

/-- TWB_XFER_START: the oldest waiting transfer on a free bus (R396 to R398, R400, R401). -/
def twbStart (s : State) (b : Nat) (line : TwbLine) (lost : Option TwbLoss) : State :=
  let y := s.twb b
  match y.wait with
  | [] => s
  | x :: rest =>
    if s.replayMode ∨ s.twbState b ≠ 1 ∨ s.flag (Reg.TWB_STATUS_BUS_BUSY b) ∨ s.fld (Reg.TWB_STATUS_FAULT b) ≠ 0 ∨ !line.scl then s
    else
      let s := s.showLines b line.scl line.sda
      let s := if line.sda then s else s.runClear b line
      let drop := s.setTwb b { s.twb b with wait := rest }
      if s.twbState b = 4 then drop.twbEnd b x 6 0 []
      else if s.fld (Reg.TWB_STATUS_FAULT b) ≠ 0 then drop.twbEnd b x 7 0 []
      else if line.short then (drop.twbFault b 3).twbEnd b x 7 0 []
      else match lost with
        | some l =>
          let s := (s.count (Reg.TWB_CNT_ARB_LOST b)).twbRaise b 32
          let s := if s.fld (Reg.TWB_CFG_RETRY b) ≤ x.lost then (s.setTwb b { s.twb b with wait := rest }).twbEnd b x 3 0 []
            else s.setTwb b { s.twb b with wait := { x with lost := x.lost + 1 } :: rest }
          if s.twbMode b = 3 ∧ s.ownAddress b l then
            ((s.setTwb b { s.twb b with pre := l.before }).setTwbState b 3).setFld (Reg.TWB_STATUS_BUS_BUSY b) 1
          else s
        | none => ((drop.setTwb b { drop.twb b with cur := some (x, s.now) }).setTwbState b 2).setFld (Reg.TWB_STATUS_BUS_BUSY b) 1

/-- TWB_XFER_DONE. -/
def twbDone (s : State) (b : Nat) (a : TwbAnswer) : State :=
  match (s.twb b).cur with
  | none => s
  | some (x, _) =>
    let s := ((s.setTwb b { s.twb b with cur := none }).setTwbState b 1).setFld (Reg.TWB_STATUS_BUS_BUSY b) 0
    match a with
    | .ok read =>
      let bs := padTo x.rdLen read
      s.twbEnd b x 0 (if x.rdLen = 0 then x.wr.length else x.rdLen) bs
    | .nackAddr => s.twbEnd b x 1 0 []
    | .nackData k => s.twbEnd b x 2 k []

/-- TWB_STRETCH_TIMEOUT: SCL stretched past STRETCH_MS (R396). -/
def twbStretch (s : State) (b : Nat) : State :=
  match (s.twb b).cur with
  | none => s
  | some (_, t) => if t + msCycles (s.fld (Reg.TWB_TIMING_STRETCH_MS b)) ≤ s.now then s.twbEndCur b 4 else s

/-! ### Target (R399) -/

/-- The bus answers as a target. -/
def twbTarget (s : State) (b : Nat) : Bool :=
  decide (s.twbMode b = 2 ∨ s.twbMode b = 3) && decide (s.twbState b = 1 ∨ s.twbState b = 3) && decide (s.fld (Reg.TWB_STATUS_FAULT b) = 0) &&
    !s.replayMode

/-- TWB_RX dockets of at most 8 bytes each. -/
def twbDockets (b : Nat) : Nat → List Byte → State → State
  | 0, _, s => s
  | fuel + 1, bs, s =>
    if bs = [] then s else twbDockets b fuel (bs.drop 8) (s.post 0x0C b (bs.take 8).length (ofBytesLE (bs.take 8)))

def targetOver (s : State) (b : Nat) : State :=
  ((s.setTwb b { s.twb b with pre := [] }).setTwbState b 1).setFld (Reg.TWB_STATUS_BUS_BUSY b) 0

/-- TWB_TARGET_WRITE: bytes written to Daxma up to a repeated START or STOP. -/
def targetWrite (s : State) (b : Nat) (general : Bool) (bytes : List Byte) : State :=
  if !s.twbTarget b || (general && !s.flag (Reg.TWB_CFG_GC b)) then s
  else
    let bs := (s.twb b).pre ++ bytes
    (twbDockets b (bs.length + 1) bs s).targetOver b

/-- TWB_TARGET_READ: `n` bytes read from Daxma. -/
def targetRead (s : State) (b n : Nat) : State :=
  if !s.twbTarget b then s
  else
    let own := (s.twoWords (Reg.TWB_TGT_TXD_0 b) (Reg.TWB_TGT_TXD_1 b)).take (s.fld (Reg.TWB_TGT_LEN b))
    let bs := own.take n ++ List.replicate (n - own.length) (0xFF : Byte)
    ((s.setTwb b { s.twb b with resp := bs }).count (Reg.TWB_CNT_OVERREAD b) (n - own.length)).targetOver b

/-! ### Faults (R401) -/

/-- An enabled bus finds fault `k`. -/
def twbFaulted (s : State) (b k : Nat) : State := if s.twbState b = 0 ∨ s.twbState b = 4 then s else s.twbFault b k

/-- TWB_FAULT_RECOVER: 1 ms after the line recovered. -/
def twbRecover (s : State) (b : Nat) : State :=
  let k := s.fld (Reg.TWB_STATUS_FAULT b)
  if (k = 2 ∨ k = 4) ∧ (s.twb b).faultAt + msCycles 1 ≤ s.now then s.setFld (Reg.TWB_STATUS_FAULT b) 0 else s

/-! ### The control-target bus (R403) -/

/-- The address bytes of the bus's own address. -/
def ctAddress (s : State) (b r : Nat) : List Byte :=
  let a := s.fld (Reg.TWB_OWN_ADDR_ADDR b)
  if s.flag (Reg.TWB_CFG_TEN b) then bytesLE 1 (0xF0 + 2 * (a / 256) + r) ++ bytesLE 1 a else bytesLE 1 (2 * (a % 128) + r)

/-- The bus carries control accesses; in replay mode no bus carries any (R407). -/
def ctBus (s : State) (b : Nat) : Bool := decide (s.twbMode b = 4) && decide (s.twbState b ≠ 0) && !s.replayMode

end State

/-! ### Commands -/

/-- TWB_XFER_START (R396, R397, R400). -/
def execTwbXferStart (b : Fin 8) (line : TwbLine) (lost : Option TwbLoss) (s : State) : Res := .next (s.twbStart b line lost)

/-- TWB_XFER_DONE (R396). -/
def execTwbXferDone (b : Fin 8) (a : TwbAnswer) (s : State) : Res := .next (s.twbDone b a)

/-- TWB_TARGET_WRITE (R399). -/
def execTwbTargetWrite (b : Fin 8) (general : Bool) (bytes : List Byte) (s : State) : Res := .next (s.targetWrite b general bytes)

/-- TWB_TARGET_READ (R399). -/
def execTwbTargetRead (b : Fin 8) (n : Nat) (s : State) : Res := .next (s.targetRead b n)

/-- TWB_STRETCH_TIMEOUT (R396). -/
def execTwbStretchTimeout (b : Fin 8) (s : State) : Res := .next (s.twbStretch b)

/-- SCL_STUCK (R401). -/
def execSclStuck (b : Fin 8) (s : State) : Res := .next (s.twbFaulted b 2)

/-- TWB_SUPPLY_FAULT (R401). -/
def execTwbSupplyFault (b : Fin 8) (s : State) : Res := .next (s.twbFaulted b 4)

/-- TWB_FAULT_RECOVER (R401). -/
def execTwbFaultRecover (b : Fin 8) (s : State) : Res := .next (s.twbRecover b)

end Sys2Proof.Machine
end

