-- ==== Sys2Proof/Machine/Pwr.lean ====
section
/-! DEFINITION. Power, reset and protection: what each reset clears, the power-up sequence, unit domains, sleep and wake, the watchdog, supplies, port faults, the serial reference and thermal limits (R446 to R463, R476), and the JTAG instructions (R484). -/

namespace Sys2Proof.Machine

/-- Start step of a unit in mA (R449). -/
def startStep (u : Nat) : Nat :=
  if 4 ≤ u ∧ u < 8 then 8000 else if 8 ≤ u ∧ u < 12 then 4700 else if u = 12 ∨ u = 13 then 2700
  else if u = 15 ∨ u = 18 ∨ u = 19 then 1000 else if u = 21 then 800 else if u = 22 then 300
  else if 24 ≤ u ∧ u < 40 then 75 else if 41 ≤ u ∧ u < 45 then 100 else 0

/-- The control-space words of a unit with a BLOCK reset (R455, R456). -/
def unitRanges (u : Nat) : List (Nat × Nat) :=
  if u < 4 then [(0x80000 + 0x4000 * u, 0x84000 + 0x4000 * u)]
  else if u < 8 then [(0x100000 + 0x10000 * (u - 4), 0x110000 + 0x10000 * (u - 4)), (0x140000 + 0x1000 * (u - 4), 0x141000 + 0x1000 * (u - 4))]
  else if u < 12 then [(0x160000 + 0x4000 * (u - 8), 0x164000 + 0x4000 * (u - 8))]
  else if u < 14 then [(0x180000 + 0x4000 * (u - 12), 0x184000 + 0x4000 * (u - 12))]
  else if u = 14 then [(0x190000, 0x1A0000)]
  else if u = 15 then [(0x1C0000, 0x1D0000)]
  else if u < 18 then [(0x1D0000 + 0x1000 * (u - 16), 0x1D1000 + 0x1000 * (u - 16))]
  else if u < 20 then [(0x1E0000 + 0x4000 * (u - 18), 0x1E4000 + 0x4000 * (u - 18))]
  else if u = 20 then [(0x1F0000, 0x1F8000)]
  else []

namespace State

def pwrRaise (s : State) (m : Nat) : State := s.raise 0x100D0 0x100D4 50 m
def setPwr (s : State) (x : Pwr) : State := { s with pwr := x }

/-! ### Fuses at a reset (R233, R234) -/

/-- One record replaces its target row in the copies the registers show. -/
def fuseCopy (s : State) (t v : Nat) : State :=
  let w := BitVec.ofNat 32 v
  let s := s.setWord (0x151000 + 4 * t) w
  if t < 8 then
    let s := s.setWord (0x20 + 4 * t) w
    if t = 7 then s.setWord 0x14 (BitVec.ofNat 32 (v % 16)) else s
  else if t < 136 then
    (s.setWord (0x150800 + 8 * (t - 8)) (BitVec.ofNat 32 (v % 65536))).setWord (0x150804 + 8 * (t - 8)) (BitVec.ofNat 32 (v / 65536 % 65536))
  else s

/-- The records read at a reset, in order, each shown in its two field rows; those of a failed burn are free and invalid. -/
def fuseRecords : Nat → List (Option (Nat × Nat)) → State → State
  | _, [], s => s
  | k, some (t, v) :: rs, s =>
    let crc := crc8 (bytesLE 1 t ++ bytesLE 4 v)
    let s := (s.setWord (0x151400 + 8 * k) (BitVec.ofNat 32 (0xA0000000 + t <<< 20 + crc))).setWord (0x151404 + 8 * k) (BitVec.ofNat 32 v)
    fuseRecords (k + 1) rs (if t < 255 then s.fuseCopy t v else s)
  | k, none :: rs, s =>
    let s := (s.setWord (0x151400 + 8 * k) (BitVec.ofNat 32 s.freeVal)).nextFree
    fuseRecords (k + 1) rs ((s.setWord (0x151404 + 8 * k) (BitVec.ofNat 32 s.freeVal)).nextFree)

/-- The fuse copies after a reset, and the next free record. -/
def fusesIn (s : State) : State :=
  (fuseRecords 0 (s.cal.burnt.take s.cal.loaded) s).setFld Reg.CAL_FF_STATUS_NEXT s.cal.burnt.length

/-! ### The resets (R454, R455) -/

/-- What every reset of the whole device starts from: the commands that wait, time, the free values, and the burnt fuses. -/
def bare (s : State) : State :=
  { pending := s.pending
    now := s.now
    fresh := s.fresh
    cal := { burnt := s.cal.burnt, loaded := s.cal.loaded }
    sec := { slots := s.sec.slots, revoked := s.sec.revoked, policy := s.sec.policy }
    jtag := s.jtag }

/-- The sequence of R457 starts: time 0 is now, and the unit domains wait for their turns. -/
def startSequence (s : State) : State :=
  s.setPwr { s.pwr with started := s.now, lastOn := 0, waitOn := powerOrder.map fun u => (u, s.now + 300000) }

/-- COLD: everything but PWR_RESET_CAUSE, which takes `cause`; fuses reload; DRAM is lost; `hold` says what holds the reset. -/
def coldReset (s : State) (cause hold : Nat) : State :=
  let c := (s.word 0x10008).toNat ||| cause
  let b := s.bare
  let t := { b with
    cal := { b.cal with loaded := s.cal.burnt.length }
    pwr := { holds := s.pwr.holds ||| hold, heldAt := s.now, banks := s.pwr.banks } }
  (t.fusesIn.setWord 0x10008 (BitVec.ofNat 32 c)).startSequence

/-- WARM: PWR, MEM and DRAM are kept, and the fuses are not reloaded. -/
def warmReset (s : State) (cause : Nat) : State :=
  let t := { s.bare with
    regs := s.regs.window 0x10000 0x20000 ++ s.regs.window 0x1A0000 0x1C0000
    held := s.held.window 0x10000 0x20000 ++ s.held.window 0x1A0000 0x1C0000
    latched := s.latched.window 0x10000 0x20000 ++ s.latched.window 0x1A0000 0x1C0000
    mem := s.mem
    memsys := s.memsys
    pwr := { s.pwr with ops := [], idle := [], block := none } }
  t.fusesIn.setBitsOf 0x10008 cause

/-- Words of EVT_PAD, which WAKE keeps: offset 0x028 of each event pin. -/
def evtPadWords (m : SMap Word) : SMap Word := m.filter fun e => decide (0x1FE000 ≤ e.1 ∧ e.1 < 0x1FE400) && decide ((e.1 - 0x1FE000) % 0x40 = 0x28)

/-- WAKE: PWR, TWB, GPIO, EVT_PAD and DRAM are kept; the fuses reload. -/
def wakeReset (s : State) : State :=
  let b := s.bare
  let t := { b with
    regs := s.regs.window 0x10000 0x20000 ++ s.regs.window 0x1F8000 0x1FE000 ++ evtPadWords s.regs
    held := s.held.window 0x10000 0x20000 ++ s.held.window 0x1F8000 0x1FE000
    mem := s.mem
    cal := { b.cal with loaded := s.cal.burnt.length }
    time := { evt := (List.range 16).foldl (fun m i => m.set (fun _ => {}) i ({ retryAt := (s.evtPin i).retryAt } : EvtPin)) [] }
    twbs := s.twbs
    gpio := s.gpio
    pwr := s.pwr }
  t.fusesIn

/-! ### Blocks: STOP, BLOCK reset, idleness (R452, R456, R459) -/

def audStops : List Nat → State → State
  | [], s => s
  | p :: ps, s => audStops ps (if s.audState p = 0 then s else s.audStopped p)

/-- A unit's own STOP. -/
def stopUnit (s : State) (u : Nat) : State :=
  if u < 4 then s.srxStop u
  else if u < 8 then s.pipeOp (u - 4) 2
  else if u < 12 then s.encOp (u - 8) 2
  else if u < 14 then s.decOp (u - 12) 2
  else if u = 14 then ((s.lzeOp 2).lzeJobEnd 0).lzeJobEnd 1
  else if u = 15 then s.scnOp 2
  else if u < 18 then s.pcxOp (u - 16) 2
  else if u < 20 then s.netOp (u - 18) 2
  else if u = 20 then audStops (List.range 16) s
  else s

def stopUnits : List Nat → State → State
  | [], s => s
  | u :: us, s => stopUnits us (s.stopUnit u)

def stopPilots : List Nat → State → State
  | [], s => s
  | k :: ks, s => stopPilots ks (s.stopPilot k)

/-- Keys of a map outside the words of a unit. -/
def outside {α : Type} (rs : List (Nat × Nat)) (m : SMap α) : SMap α := rs.foldl (fun m r => SMap.clear m r.1 r.2) m

/-- What a unit holds beside its words, back at its reset contents. -/
def clearUnit (s : State) (u : Nat) : State :=
  if u < 4 then { s with lanes := s.lanes.clear (64 * u) (64 * u + 64), ports := s.ports.clear u (u + 1) }
  else if u < 8 then { s with pipes := s.pipes.clear (u - 4) (u - 3) }
  else if u < 12 then { s with encStreams := s.encStreams.clear (4 * (u - 8)) (4 * (u - 7)) }
  else if u < 14 then { s with decs := s.decs.clear (u - 12) (u - 11) }
  else if u = 14 then { s with lze := {} }
  else if u = 15 then { s with scn := {} }
  else if u < 18 then { s with pcx := { s.pcx with ports := s.pcx.ports.clear (u - 16) (u - 15) } }
  else if u < 20 then { s with nets := s.nets.clear (u - 18) (u - 17) }
  else { s with aud := {} }

/-- The bank instances of a unit (R30). -/
def unitBanks (u : Nat) : List Nat := if u < 4 ∨ (8 ≤ u ∧ u < 12) then [u] else if 4 ≤ u ∧ u < 8 then [u, u + 8] else []

/-- BLOCK: the unit's STOP, the berths it still holds, then its reset values (R456). -/
def blockReset (s : State) (u : Nat) : State :=
  let s := s.stopUnit u
  let s := (releaseAll u ((s.fab.refs.filter fun r => decide (r.unit = u)).map fun r => r.handle) s).endAllWork u
  let rs := unitRanges u
  let s := s.clearUnit u
  { s with
    regs := outside rs s.regs
    held := outside rs s.held
    latched := outside rs s.latched
    queues := outside rs s.queues
    sys := { s.sys with applied := outside rs s.sys.applied, banks := (unitBanks u).foldl (fun m i => SMap.clear m i (i + 1)) s.sys.banks }
    pwr := { s.pwr with block := some (u, s.now) } }

/-- A write of PWR_BLOCK_RESET. -/
def pwrBlock (s : State) (u : Nat) : State := if u ≤ 20 then s.blockReset u else s.pwrRaise 32

/-- Unit `u`'s block is STOPPED or OFF; a pilot's, when it is EMPTY or STOPPED (R452). -/
def blockIdle (s : State) (u : Nat) : Bool :=
  if u < 4 then decide (s.portState u = 0)
  else if u < 8 then decide (s.fld (Reg.PIPE_STATUS_STATE (u - 4)) = 0)
  else if u < 12 then decide (s.fld (Reg.ENC_STATUS_STATE (u - 8)) = 0)
  else if u < 14 then decide (s.fld (Reg.DEC_STATUS_STATE (u - 12)) = 0)
  else if u = 14 then decide (s.fld Reg.LZE_STATUS_STATE = 0)
  else if u = 15 then decide (s.fld Reg.SCN_STATUS_STATE = 0)
  else if u < 18 then decide (s.fld (Reg.PCX_STATUS_STATE (u - 16)) = 0)
  else if u < 20 then decide (s.fld (Reg.NET_STATUS_STATE (u - 18)) = 0)
  else if u = 20 then (List.range 16).all fun p => decide (s.audState p = 0)
  else if u = 22 then decide (s.logState = 0)
  else if 24 ≤ u ∧ u < 40 then
    let p := s.pilot (u - 24)
    decide (p.st = .empty ∨ p.st = .stopped) && decide (p.starting = 0)
  else false

/-- The FCLK cycle, plus 1, since which unit `u`'s block is stopped, if it is. -/
def idleSince (s : State) (u : Nat) : Option (Nat × Nat) :=
  if s.blockIdle u then some (u, s.pwr.idle.get (fun _ => s.now + 1) u) else none

/-- Each tick notes since when every block is stopped. -/
def idleScan (s : State) : State := s.setPwr { s.pwr with idle := (List.range 40).filterMap s.idleSince }

/-! ### Unit power domains (R451, R452) -/

/-- The domain of unit `u` is on; the CORE and AON domains always are. -/
def domainOn_ (s : State) (u : Nat) : Bool :=
  if u < 32 then bit (s.fld Reg.PWR_DOMAIN_ON_LO) u else if u < 40 then bit (s.fld Reg.PWR_DOMAIN_ON_HI) (u - 32) else true

def setDomain (s : State) (u : Nat) (v : Bool) : State :=
  if u < 32 then s.setFld Reg.PWR_DOMAIN_ON_LO (putBits (s.fld Reg.PWR_DOMAIN_ON_LO) u u (b01 v))
  else s.setFld Reg.PWR_DOMAIN_ON_HI (putBits (s.fld Reg.PWR_DOMAIN_ON_HI) (u - 32) (u - 32) (b01 v))

/-- A domain that is asked to switch on waits for its turn, 2 µs at least. -/
def askDomain (s : State) (u : Nat) : State :=
  if s.pwr.waitOn.any fun e => decide (e.1 = u) then s
  else s.setPwr { s.pwr with waitOn := s.pwr.waitOn ++ [(u, s.now + usCycles 2)] }

/-- The next domain in turn switches on: 128 PCLK cycles after the one before it, once its time has come. -/
def switchOn (s : State) (u : Nat) : State × Bool :=
  match s.pwr.waitOn with
  | (v, t) :: rest =>
    if u = v ∧ t ≤ s.now ∧ (s.pwr.lastOn = 0 ∨ 5 * (s.pwr.lastOn - 1) + 1024 ≤ 5 * s.now) then
      ((s.setPwr { s.pwr with waitOn := rest, lastOn := s.now + 1 }).setDomain u true, true)
    else (s, false)
  | [] => (s, false)

/-- DOMAIN_GATE_OFF: a gated domain whose block has been stopped for 100 µs. -/
def gateOff (s : State) (u : Nat) : State :=
  let en := if u < 32 then bit (s.fld Reg.PWR_GATE_EN_LO) u else bit (s.fld Reg.PWR_GATE_EN_HI) (u - 32)
  let since := s.pwr.idle.get (fun _ => 0) u
  if en && s.domainOn_ u && s.blockIdle u && decide (since ≠ 0) && decide (since - 1 + usCycles 100 ≤ s.now) then
    (s.setPwr { s.pwr with offAt := s.pwr.offAt.set (fun _ => 0) u (s.now + 1) }).setDomain u false
  else s

/-- WRITE_REJECT of a block whose start meets its own BLOCK reset (R456). -/
def startRejected (s : State) (u p : Nat) : State :=
  if u < 4 then s.srxRaise u 0x80
  else if u < 8 then s.pipeRaise (u - 4) 0x10
  else if u < 12 then s.encRaise (u - 8) 0x80
  else if u < 14 then s.decRaise (u - 12) 0x200
  else if u = 14 then s.lzeRaise 8
  else if u = 15 then s.scnRaise 1
  else if u < 18 then s.pcxRaise (u - 16) 1
  else if u < 20 then s.netRaise (u - 18) 0x20
  else s.audRaise p 0x20

/-- A start operation of unit `u`'s block, written as `v` at `a` to instance `p`: discarded in the cycle of the block's reset, kept until the domain is on, or performed by `run` (R452, R456). -/
def startOp (s : State) (u p a v : Nat) (run : State → State) : State :=
  if s.pwr.block = some (u, s.now) then s.startRejected u p
  else if s.domainOn_ u then run s
  else if s.pwr.offAt.get (fun _ => 0) u = s.now + 1 then run (s.setDomain u true)
  else (s.setPwr { s.pwr with ops := s.pwr.ops ++ [(u, a, v)] }).askDomain u

/-! ### DIDT (R450) -/

/-- The staggers and start steps of the running units. -/
def steps (s : State) : List (Nat × Nat) :=
  (List.range 45).filterMap fun u =>
    if startStep u ≠ 0 ∧ (if 41 ≤ u then s.replayMode else !s.blockIdle u) then some (s.fld (Reg.FAB_UNIT_CFG_STAGGER u), startStep u) else none

/-- The sum of the steps in the window of 128 PCLK cycles from `a`. -/
def windowSum (l : List (Nat × Nat)) (a : Nat) : Nat := ((l.filter fun e => decide (a ≤ e.1 ∧ e.1 < a + 128)).map (·.2)).sum

/-- The largest sum, and the lowest first cycle that has it. -/
def worstWindow (l : List (Nat × Nat)) : Nat × Nat :=
  (List.range 1024).foldl (fun best a => let n := windowSum l a; if best.1 < n then (n, a) else best) (0, 0)

/-- A stagger landed: SUM, START and DIDT; SUM's rounding of a fraction is free. -/
def didt (s : State) : State :=
  let w := worstWindow s.steps
  let up := if w.1 % 100 = 0 then 0 else s.freeVal % 2
  let s := ((s.nextFree).setFld Reg.PWR_DIDT_SUM (w.1 / 100 + up)).setFld Reg.PWR_DIDT_START w.2
  if 11700 < w.1 then s.pwrRaise 2 else s

/-! ### Supplies (R446 to R448) -/

/-- Nominal voltage of rail `r` in units of 0.1 mV; 0 for an I/O bank without a class (R446, R447, R476). -/
def railNominal (s : State) (r : Nat) : Nat :=
  match r with
  | 0 => 6500 + 25 * min 80 (s.fld Reg.PWR_STATUS_VID)
  | 1 => 8000 | 2 => 9000 | 3 => 12000 | 8 => 18000 | 9 => 11000 | 10 => 4000
  | _ =>
    let v := bits s.pwr.banks (8 * (r - 4) + 7) (8 * (r - 4)) * 20
    if 1080 ≤ v ∧ v ≤ 1320 then 12000 else if 1620 ≤ v ∧ v ≤ 1980 then 18000 else if 2970 ≤ v ∧ v ≤ 3630 then 33000 else 0

/-- Rail `r` at `mv` is below 90 % of nominal. -/
def railLow (s : State) (r mv : Nat) : Bool := decide (100 * mv < 9 * s.railNominal r)

def showRails : List (Nat × Nat) → State → State
  | [], s => s
  | (r, mv) :: l, s => showRails l (s.setFld (Reg.PWR_RAIL_MV r) mv)

/-- BROWNOUT: a rail low in both of two consecutive samples holds a COLD reset (R448). -/
def brownout (s : State) (a b : List Nat) : State :=
  let bad := (List.range 11).any fun r => match a[r]?, b[r]? with
    | some x, some y => s.railLow r x && s.railLow r y
    | _, _ => false
  let s := if bad then s.coldReset 16 4 else s
  showRails ((List.range 11).zip b) s

/-- What held the reset is gone; when nothing else holds it, the banks are classified and the sequence starts (R457, R476). -/
def endHold (s : State) (bitv : Nat) (banks : Option Nat) : State :=
  let h := s.pwr.holds - s.pwr.holds &&& bitv
  let s := s.setPwr { s.pwr with holds := h, banks := banks.getD s.pwr.banks }
  if h = 0 then s.startSequence else s

/-- VCORE_VID_STEP (R447): at most 4 codes, 10 µs after the step before. -/
def vidStep (s : State) : State :=
  let now_ := s.fld Reg.PWR_STATUS_VID
  let want := min 80 (if s.flag Reg.PWR_VCORE_MODE then s.fld Reg.PWR_VCORE_FIXED
    else Config.vcoreCode (s.fld Reg.SYS_SPEED_BIN) (s.fld Reg.PWR_THERM_DIE))
  if s.pwr.asleep ∨ now_ = want ∨ (s.pwr.vidAt ≠ 0 ∧ s.now < s.pwr.vidAt - 1 + usCycles 10) then s
  else
    let v := if now_ < want then min want (now_ + 4) else max want (now_ - 4)
    (s.setPwr { s.pwr with vidAt := s.now + 1 }).setFld Reg.PWR_STATUS_VID v

/-! ### Watchdog (R458) -/

def wdogMs (s : State) : Nat := max 1 (s.fld Reg.PWR_WDOG_MS)

/-- The watchdog was enabled or kicked. -/
def wdogRestart (s : State) : State := s.setPwr { s.pwr with kickAt := s.now }

/-- A write of PWR_WDOG_KICK. -/
def wdogKick (s : State) (v : Nat) : State := if v = 0xC0DE then s.wdogRestart else s

def wdogExpiry (s : State) : State :=
  if s.flag Reg.PWR_WDOG_EN && decide (s.pwr.kickAt + msCycles s.wdogMs ≤ s.now) then
    let cold := s.flag Reg.PWR_WDOG_ACTION
    if cold then s.coldReset 8 0
    else (s.warmReset 8).wdogRestart
  else s

/-! ### Sleep and wake (R459, R460, R402) -/

/-- OP = SLEEP: every block and pilot stops. -/
def sleep (s : State) : State :=
  if s.fld Reg.PWR_STATUS_STATE ≠ 0 then s
  else
    let s := stopPilots (List.range 16) (stopUnits (List.range 21) s)
    (s.setPwr { s.pwr with sleepAt := s.now, wake := none }).setFld Reg.PWR_STATUS_STATE 1

/-- A wake request: latched during entry, and the wake begins in sleep. -/
def wakeRequest (s : State) (gpio : Bool) (n : Nat) : State :=
  if s.fld Reg.PWR_STATUS_STATE ≠ 1 ∨ s.pwr.wake.isSome then s
  else
    let s := s.setPwr { s.pwr with wake := some (gpio, n), wakeAt := s.now }
    if s.pwr.asleep then s.setFld Reg.PWR_STATUS_STATE 2 else s

/-- SLEEP_ENTRY_DONE: the clocks stop, every domain but AON is off, VCORE is at code 0. -/
def sleepDone (s : State) : State :=
  if s.fld Reg.PWR_STATUS_STATE ≠ 1 ∨ s.pwr.asleep then s
  else
    let s := s.setPwr { s.pwr with asleep := true, waitOn := [], ops := [] }
    let s := ((s.setWord 0x10048 0).setWord 0x1004C 0).setFld Reg.PWR_STATUS_VID 0
    if s.pwr.wake.isSome then s.setFld Reg.PWR_STATUS_STATE 2 else s

/-- WAKE_RESET: the WAKE reset, the source of the wake, and the sequence of R457 from the request on. -/
def wakeUp (s : State) (banks : Nat) : State :=
  match s.pwr.wake with
  | none => s
  | some (gpio, n) =>
    if s.fld Reg.PWR_STATUS_STATE ≠ 2 then s
    else
      let at_ := s.pwr.wakeAt
      let s := s.wakeReset
      let s := s.setPwr { s.pwr with
        asleep := false, wake := none, banks := banks, started := at_, lastOn := 0, ops := [], idle := []
        waitOn := powerOrder.map fun u => (u, at_ + 300000) }
      let s := (s.setFld Reg.PWR_STATUS_STATE 0).setFld Reg.PWR_WAKE_SRC_TWB (if gpio then 0 else 1 <<< n)
      let s := if gpio then s.setBitsOf 0x10008 0x80
        else
          let s := (s.setBitsOf 0x10008 0x40).setTwb n { s.twb n with woke := false }
          s.raiseAt (Reg.TWB_EVENT_WAKE n).addr (Reg.TWB_EVENT_EN_EN n).addr 48 0xFF00 (n <<< 8) 0x10
      s.pwrRaise 1

/-- TWB_WAKE_MATCH: in sleep, a bus with WAKE in MODE 2, 3 or 4 matched its own address (R402). -/
def twbWake (s : State) (b : Nat) : State :=
  let m := s.twbMode b
  if s.pwr.asleep && s.flag (Reg.TWB_CFG_WAKE b) && decide (2 ≤ m ∧ m ≤ 4) then
    (s.setTwb b { s.twb b with woke := true }).wakeRequest false b
  else s

/-- WAKE_GPIO: an edge on a pin that PWR_WAKE_GPIO names. -/
def wakeGpio (s : State) (n : Nat) : State :=
  if bit (s.fld (Reg.PWR_WAKE_GPIO_MASK (n / 32))) (n % 32) then s.wakeRequest true n else s

/-! ### Commands of PWR_CTRL (R454, R459) -/

/-- The word written to PWR_CTRL: 1 SLEEP, 2 WARM with the key. -/
def pwrOp (s : State) (w : Nat) : State :=
  let op := bits w 31 28
  if op = 1 then s.sleep else if op = 2 ∧ w % 65536 = 0xA11E then s.warmReset 4 else s

/-! ### Port faults (R461) -/

/-- The key of a pin, and the field and bit that shows its fault. -/
def pinKey : PortPin → Nat
  | .pcie l => l | .eth l => 32 + l | .vf l => 40 + l | .sdi o => 48 + o | .audClock p => 56 + p | .audData p => 72 + p

def faultBit (s : State) (f : Fld) (i : Nat) (v : Bool) : State := s.setFld f (putBits (s.fld f) i i (b01 v))

/-- The fault bits of a pin: `how` is 0 for a short or mismatch, 1 for an SDI output that is open. -/
def showPin (s : State) (pin : PortPin) (how : Nat) (v : Bool) : State :=
  match pin with
  | .pcie l => s.faultBit Reg.PWR_PORT_FAULT_0_PCIE l v
  | .eth l => s.faultBit Reg.PWR_PORT_FAULT_1_ETH l v
  | .vf l => s.faultBit Reg.PWR_PORT_FAULT_1_VF l v
  | .sdi o => s.faultBit (if how = 0 then Reg.PWR_PORT_FAULT_1_SDI_SHORT else Reg.PWR_PORT_FAULT_1_SDI_OPEN) o v
  | .audClock p => (s.setPwr { s.pwr with audClock := putBits s.pwr.audClock p p (b01 v) }).faultBit Reg.PWR_AUD_FAULT_PORT p (v || bit s.pwr.audData p)
  | .audData p => (s.setPwr { s.pwr with audData := putBits s.pwr.audData p p (b01 v) }).faultBit Reg.PWR_AUD_FAULT_PORT p (v || bit s.pwr.audClock p)

/-- The limits of R461: the fault that a pin at `mv` shows. -/
def pinVerdict (pin : PortPin) (mv : Nat) : Option Nat :=
  match pin with
  | .sdi _ => if mv < 100 then some 0 else if 1200 < mv then some 1 else none
  | .audClock _ | .audData _ => some 0
  | _ => if mv < 100 ∨ 1050 < mv then some 0 else none

def pinRetryAt (s : State) : Nat := if s.fld Reg.PWR_PROTECT_RETRY_MS = 0 then 0 else s.now + msCycles (s.fld Reg.PWR_PROTECT_RETRY_MS)

/-- A pin shows a fault already. -/
def pinFaulted (s : State) (pin : PortPin) : Bool :=
  match pin with
  | .pcie l => bit (s.fld Reg.PWR_PORT_FAULT_0_PCIE) l
  | .eth l => bit (s.fld Reg.PWR_PORT_FAULT_1_ETH) l
  | .vf l => bit (s.fld Reg.PWR_PORT_FAULT_1_VF) l
  | .sdi o => bit (s.fld Reg.PWR_PORT_FAULT_1_SDI_SHORT) o || bit (s.fld Reg.PWR_PORT_FAULT_1_SDI_OPEN) o
  | .audClock p => bit s.pwr.audClock p
  | .audData p => bit s.pwr.audData p

/-- PORT_PIN_FAULT: 16 consecutive samples at `mv`, beyond the limits. -/
def portFault (s : State) (pin : PortPin) (mv : Nat) : State :=
  match pinVerdict pin mv with
  | none => s
  | some how =>
    if s.pinFaulted pin then s
    else
      let s := s.showPin pin how true
      let s := s.setPwr { s.pwr with retry := s.pwr.retry.set (fun _ => 0) (pinKey pin) s.pinRetryAt }
      let s := match pin with
        | .eth l => s.ethDown (l / 4)
        | .audClock p => s.audLost p
        | _ => s
      s.pwrRaise 8

/-- PORT_FAULT_RETRY: the pin is driven or connected for 20 µs; it resumes when the check passes. -/
def portRetry (s : State) (pin : PortPin) (pass : Bool) : State :=
  let t := s.pwr.retry.get (fun _ => 0) (pinKey pin)
  if !s.pinFaulted pin ∨ t = 0 ∨ s.now < t then s
  else if pass then
    ((s.showPin pin 0 false).showPin pin 1 false).setPwr { ((s.showPin pin 0 false).showPin pin 1 false).pwr with
      retry := s.pwr.retry.set (fun _ => 0) (pinKey pin) 0 }
  else s.setPwr { s.pwr with retry := s.pwr.retry.set (fun _ => 0) (pinKey pin) s.pinRetryAt }

/-! ### The serial reference (R462) -/

/-- REF_LOSS: a 10 µs window with a missing edge (none) or an error in ppm. -/
def refLoss (s : State) (ppm : Option Int) : State :=
  let bad := match ppm with | none => true | some e => decide (1000 < e.natAbs)
  if !bad then s
  else
    let s' := s.setPwr { s.pwr with refBad := s.now, refLost := some (s.pwr.refLost.getD s.now) }
    if s.pwr.refLost.isSome then s' else (s'.setFld Reg.PWR_STATUS_REF_OK 0).pwrRaise 16

def headsOff : List Nat → State → State
  | [], s => s
  | h :: hs, s => headsOff hs (s.setHead h { s.head h with tx := false })

def linksDown : List (Nat × Nat) → State → State
  | [], s => s
  | (p, k) :: l, s => linksDown l (s.linkDown p k)

/-- REF_HOLD_EXPIRY: the loss lasts beyond 100 µs, and the transmitters stop. -/
def refHoldExpiry (s : State) : State :=
  match s.pwr.refLost with
  | none => s
  | some t =>
    if s.pwr.txOff ∨ s.now < t + usCycles 100 then s
    else
      let s := s.setPwr { s.pwr with txOff := true }
      headsOff (List.range 10) (((linksDown ((List.range 8).map fun i => (i / 4, i % 4)) s).ethDown 0).ethDown 1)

/-- REF_RESTORE: the reference is back, within the 100 µs or in tolerance for 1 ms; links may train again, and heads transmit from their next latch. -/
def refRestore (s : State) : State :=
  if s.pwr.refLost.isSome && (!s.pwr.txOff || decide (s.pwr.refBad + msCycles 1 ≤ s.now)) then
    (s.setPwr { s.pwr with refLost := none, txOff := false }).setFld Reg.PWR_STATUS_REF_OK 1
  else if !s.flag Reg.PWR_STATUS_REF_OK && s.pwr.refLost.isNone then s.setFld Reg.PWR_STATUS_REF_OK 1
  else s

/-! ### Thermal limits (R463) -/

/-- The hottest of some S8.8 readings. -/
def hottest (l : List (BitVec 16)) : Int := (l.map BitVec.toInt).foldl max (-32768)

/-- The stacks' own readings: MEM_STATUS.TEMP, HOT above 85 °C and its event (R301, R313). -/
def stackTemps (c : Nat) : List (BitVec 16) → State → State
  | [], s => s
  | t :: ts, s =>
    let hot := decide (85 * 256 < t.toInt)
    let was := s.flag (Reg.MEM_STATUS_HOT c)
    let s := (s.setFld (Reg.MEM_STATUS_TEMP c) t.toNat).setFld (Reg.MEM_STATUS_HOT c) (b01 hot)
    stackTemps (c + 1) ts (if hot && !was then s.memRaise c 8 else s)

/-- THERMAL_SAMPLE: the readings, WARN and THROTTLE with 5 °C of hysteresis, SHUTDOWN and its release. -/
def thermal (s : State) (dies ks : List (BitVec 16)) : State :=
  let d := hottest dies
  let k := hottest ks
  let c := fun (f : Fld) => (s.fld f : Int) * 256
  let shut := c Reg.PWR_THERM_CFG_SHUTDOWN
  if bit s.pwr.holds 3 then
    if dies.all (fun x => decide (x.toInt ≤ shut - 15 * 256)) && ks.all (fun x => decide (x.toInt ≤ 90 * 256)) then s.endHold 8 none else s
  else
    let s := (s.setFld Reg.PWR_THERM_DIE (wrap 16 d)).setFld Reg.PWR_THERM_STACK (wrap 16 k)
    if shut ≤ d ∨ 105 * 256 ≤ k then s.coldReset 32 8
    else
      let old := s.fld Reg.PWR_STATUS_THERM
      let on := fun (was : Bool) (t : Int) => decide (t ≤ d) || (was && decide (t - 5 * 256 < d))
      let thr := on (decide (old = 2)) (c Reg.PWR_THERM_CFG_THROTTLE)
      let warn := on (decide (old ≠ 0)) (c Reg.PWR_THERM_CFG_WARN)
      let s := s.setFld Reg.PWR_STATUS_THERM (if thr then 2 else if warn then 1 else 0)
      let s := stackTemps 0 (ks.take 6) s
      if (warn || thr) && decide (old = 0) then s.pwrRaise 4 else s

/-! ### JTAG (R484) -/

/-- An instruction is selected; EXTEST and SAMPLE/PRELOAD carry the boundary scan that follows it. -/
def jtag_ (s : State) (code : Nat) (scan : Option (List Bool)) : State :=
  { s with jtag := { s.jtag with ir := code, boundary := scan.getD s.jtag.boundary } }

end State

/-! ### Commands -/

/-- POWER_ON (R454): RESET_N is held low until the rails and clocks have settled (R482). -/
def execPowerOn (s : State) : Res :=
  .next (let s := s.setPwr { s.pwr with holds := 0 }; (s.coldReset 0 2).setWord 0x10008 1)

/-- RESET_PIN_ASSERT (R454). -/
def execResetPinAssert (s : State) : Res := .next (s.coldReset 2 2)

/-- RESET_PIN_RELEASE (R457, R476). -/
def execResetPinRelease (banks : Word) (s : State) : Res := .next (if bit s.pwr.holds 1 then s.endHold 2 (some banks.toNat) else s)

/-- BROWNOUT (R448). -/
def execBrownout (first second : List Nat) (s : State) : Res := .next (s.brownout first second)

/-- BROWNOUT_RELEASE (R448). -/
def execBrownoutRelease (banks : Word) (s : State) : Res :=
  .next (if bit s.pwr.holds 2 ∧ s.pwr.heldAt + State.msCycles 1 ≤ s.now then s.endHold 4 (some banks.toNat) else s)

/-- SLEEP_ENTRY_DONE (R459). -/
def execSleepEntryDone (s : State) : Res := .next s.sleepDone

/-- WAKE_GPIO (R460). -/
def execWakeGpio (n : Fin 160) (s : State) : Res := .next (s.wakeGpio n)

/-- WAKE_RESET (R460). -/
def execWakeReset (banks : Word) (s : State) : Res := .next (s.wakeUp banks.toNat)

/-- TWB_WAKE_MATCH (R402). -/
def execTwbWakeMatch (b : Fin 8) (s : State) : Res := .next (s.twbWake b)

/-- WDOG_EXPIRY (R458). -/
def execWdogExpiry (s : State) : Res := .next s.wdogExpiry

/-- VCORE_VID_STEP (R447). -/
def execVcoreVidStep (s : State) : Res := .next s.vidStep

/-- DOMAIN_GATE_OFF (R452). -/
def execDomainGateOff (u : Fin 40) (s : State) : Res := .next (s.gateOff u)

/-- PORT_PIN_FAULT (R461). -/
def execPortPinFault (pin : PortPin) (mv : Nat) (s : State) : Res := .next (s.portFault pin mv)

/-- PORT_FAULT_RETRY (R461). -/
def execPortFaultRetry (pin : PortPin) (pass : Bool) (s : State) : Res := .next (s.portRetry pin pass)

/-- REF_LOSS (R462). -/
def execRefLoss (ppm : Option Int) (s : State) : Res := .next (s.refLoss ppm)

/-- REF_HOLD_EXPIRY (R462). -/
def execRefHoldExpiry (s : State) : Res := .next s.refHoldExpiry

/-- REF_RESTORE (R462). -/
def execRefRestore (s : State) : Res := .next s.refRestore

/-- THERMAL_SAMPLE (R463). -/
def execThermalSample (dieT stackT : List (BitVec 16)) (s : State) : Res := .next (s.thermal dieT stackT)

/-- EXTEST (R484). -/
def execExtest (scan : List Bool) (s : State) : Res := .next (s.jtag_ 0x00 (some scan))

/-- IDCODE (R484). -/
def execIdcode (s : State) : Res := .next (s.jtag_ 0x01 none)

/-- SAMPLE/PRELOAD (R484). -/
def execSamplePreload (scan : List Bool) (s : State) : Res := .next (s.jtag_ 0x02 (some scan))

/-- HIGHZ (R484). -/
def execHighz (s : State) : Res := .next (s.jtag_ 0x08 none)

/-- CLAMP (R484). -/
def execClamp (s : State) : Res := .next (s.jtag_ 0x09 none)

/-- DEBUG (R485). -/
def execDebug (s : State) : Res := .next (s.jtag_ 0x20 none)

/-- BYPASS (R484): 0xFF and every other code. -/
def execBypass (s : State) : Res := .next (s.jtag_ 0xFF none)

end Sys2Proof.Machine
end

