-- ==== Sys2Proof/Machine/View.lean ====
section
/-! DEFINITION. What control space reads as: the stored words, the fields that show the state of a block, wide values and RC fields (R5 to R11, R40, R47, R54, R55). -/

namespace Sys2Proof.Machine

/-- The values wider than 32 bits (R11): address of the lowest word, the array levels, and the number of words. -/
def wideTable : List (Nat × List (Nat × Nat) × Nat) := [
  (0x204, [], 2), (0x10040, [], 2), (0x10048, [], 2), (0x20018, [], 2), (0x20020, [], 3), (0x20030, [], 2), (0x20038, [], 2),
  (0x20040, [], 2), (0x20100, [(2, 0x80)], 2), (0x20108, [(2, 0x80)], 2), (0x2020C, [(2, 0x80)], 2), (0x20300, [(2, 0x20)], 2),
  (0x30018, [(16, 0x1000)], 2), (0x30020, [(16, 0x1000)], 2), (0x40040, [], 2), (0x40104, [(31, 0x10)], 2), (0x50050, [], 2),
  (0x60104, [], 2), (0x60204, [], 2), (0x61008, [(45, 0x20)], 2), (0x80040, [(4, 0x4000)], 2), (0x80048, [(4, 0x4000)], 2),
  (0x80050, [(4, 0x4000)], 2), (0x81018, [(4, 0x4000), (64, 0x40)], 2)] ++ [
  (0x150030, [], 2), (0x150038, [], 2), (0x190100, [(2, 0x40)], 8), (0x1A004C, [(6, 0x4000)], 2), (0x1B8010, [], 2),
  (0x1C1028, [(10, 0x100)], 2), (0x1D200C, [(8, 0x100)], 2), (0x1D2020, [(8, 0x100)], 5), (0x1D3008, [(4, 0x100)], 2),
  (0x1D3010, [(4, 0x100)], 2), (0x1D3018, [(4, 0x100)], 2), (0x1D3020, [(4, 0x100)], 2), (0x1E0010, [(2, 0x4000)], 2),
  (0x1E0030, [(2, 0x4000)], 4), (0x1E0040, [(2, 0x4000)], 4), (0x1E1004, [(2, 0x4000), (32, 0x40)], 4), (0x1E8014, [], 2),
  (0x1F1018, [(16, 0x100)], 2), (0x1F8014, [(8, 0x200)], 2), (0x1F8020, [(8, 0x200)], 2), (0x1F8028, [(8, 0x200)], 2),
  (0x1F8038, [(8, 0x200)], 2), (0x1FE004, [(16, 0x40)], 2), (0x1FE018, [(16, 0x40)], 2)]

/-- The place of a word among the words of one wide value: its index, none where it belongs to no such value. -/
def wideIndex (e : Nat × List (Nat × Nat) × Nat) (a : Nat) : Option Nat :=
  (List.range e.2.2).find? fun i => decide (e.1 + 4 * i ≤ a) && dimsMatch e.2.1 (a - e.1 - 4 * i)

/-- The index of a word in its wide value, and the number of words of that value; (0, 1) for a word of its own (R11). -/
def wideOf (a : Nat) : Nat × Nat :=
  (wideTable.findSome? fun e => (wideIndex e a).map fun i => (i, e.2.2)).getD (0, 1)

namespace State

/-! ### Fields that show the state of a block -/

/-- Milliseconds of a lease, rounded up (R55). -/
def leaseLeft (s : State) : Nat := if s.sys.owner = 0 then 0 else ceilDiv (s.sys.leaseEnd - s.now) 2000000

/-- Whether the ownership registers still show what they held before this FCLK cycle's claims (R54). -/
def shownBefore (s : State) : Bool := decide (s.sys.shownAt = s.now + 1)

def viewSys (s : State) (m a : Nat) : List (Fld × Nat) :=
  if a = 0x100 then
    if s.shownBefore then [(Reg.SYS_OWN_STATUS_HANDOVER, s.sys.shownHand), (Reg.SYS_OWN_STATUS_WAITERS, s.sys.shownWaits),
      (Reg.SYS_OWN_STATUS_OWNER, s.sys.shownOwner)]
    else [(Reg.SYS_OWN_STATUS_HANDOVER, s.sys.handover), (Reg.SYS_OWN_STATUS_WAITERS, s.sys.waits.length),
      (Reg.SYS_OWN_STATUS_OWNER, s.sys.owner)]
  else if a = 0x108 then
    [(Reg.SYS_OWN_RESULT_RESULT, (if s.shownBefore then s.sys.shownResults else s.sys.results).get (fun _ => 0) m)]
  else if a = 0x110 then [(Reg.SYS_OWN_LEFT_MS, s.leaseLeft)]
  else if a = 0x20C then
    let t := s.slotOf s.sys.owner
    [(Reg.SYS_TXN_STATUS_OPEN, b01 t.isSome), (Reg.SYS_TXN_STATUS_RESULT, s.sys.txnResult),
     (Reg.SYS_TXN_STATUS_SLOT, match t with | some (i, _) => i | none => 0),
     (Reg.SYS_TXN_STATUS_WRITES, match t with | some (_, x) => x.writes.length | none => 0)]
  else if a = 0x210 then [(Reg.SYS_TXN_SEQ_SEQ, s.sys.seq)]
  else if a = 0x21C then [(Reg.SYS_TXN_LANDQ_COUNT, s.sys.landq.length)]
  else if 0x280 ≤ a ∧ a < 0x2A0 then
    let i := (a - 0x280) / 4
    match s.slot i with
    | some t => [(Reg.SYS_TXN_SLOT_STATE i, if t.full then 2 else 1), (Reg.SYS_TXN_SLOT_HOLDER i, t.holder),
        (Reg.SYS_TXN_SLOT_WRITES i, t.writes.length)]
    | none => []
  else []

def viewTime (s : State) (a : Nat) : List (Fld × Nat) :=
  let acc := wrap 49 (s.time.acc.fdiv (2 ^ 40))
  if a = 0x20004 then [(Reg.TIME_STATUS_SLEWING, b01 (decide (s.time.acc ≠ 0)))]
  else if a = 0x20018 then [(Reg.TIME_ACC_LO_NS_LO, bits acc 31 0)]
  else if a = 0x2001C then [(Reg.TIME_ACC_HI_NS_HI, bits acc 48 32)]
  else if 0x20100 ≤ a ∧ a < 0x20200 then
    let d := (a - 0x20100) / 0x80
    let o := (a - 0x20100) % 0x80
    if o = 0 then [(Reg.DOM_NS d, bits (s.fullNs d) 31 0)]
    else if o = 4 then [(Reg.DOM_ERA d, bits (s.fullNs d) 63 48), (Reg.DOM_EPOCH d, bits (s.fullNs d) 47 32)]
    else []
  else if 0x20300 ≤ a ∧ a < 0x20340 then
    let q := (a - 0x20300) / 0x20
    let o := (a - 0x20300) % 0x20
    let l := s.etsQueue q
    let e : Stamp := l.headD ⟨0, 0⟩
    if o = 0 then [(Reg.ETS_HEAD_LO q, e.lo)] else if o = 4 then [(Reg.ETS_HEAD_HI q, e.hi)]
    else if o = 8 then [(Reg.ETS_COUNT q, l.length)] else []
  else []

def viewEvt (s : State) (a : Nat) : List (Fld × Nat) :=
  let i := (a - 0x1FE000) / 0x40
  let o := (a - 0x1FE000) % 0x40
  let l := (s.evtPin i).queue
  let e : Stamp := l.headD ⟨0, 0⟩
  if o = 0x18 then [(Reg.EVT_TSQ_HEAD_LO i, e.lo)] else if o = 0x1C then [(Reg.EVT_TSQ_HEAD_HI i, e.hi)]
  else if o = 0x20 then [(Reg.EVT_COUNT i, l.length)] else []

def viewPilot (s : State) (a : Nat) : List (Fld × Nat) :=
  let k := (a - 0x30000) / 0x1000
  let o := (a - 0x30000) % 0x1000
  let p := s.pilot k
  if o = 0x4 then [(Reg.PILOT_STATUS_STATE k, pilotCode p.st), (Reg.PILOT_STATUS_HANDLER k, b01 p.handler),
    (Reg.PILOT_STATUS_OVR k, b01 p.ovr), (Reg.PILOT_STATUS_CAUSE k, p.haltCause)]
  else if o = 0x8 then [(Reg.PILOT_LOAD_BUSY k, b01 p.load.isSome)]
  else if o = 0xC then [(Reg.PILOT_PC_VALUE k, p.pc)]
  else if o = 0x10 then [(Reg.PILOT_EPC_VALUE k, p.epc.toNat)]
  else if o = 0x14 then [(Reg.PILOT_EVAL_VALUE k, p.eval.toNat)]
  else if o = 0x18 then [(Reg.PILOT_RETIRED_LO_COUNT k, bits p.retired 31 0)]
  else if o = 0x1C then [(Reg.PILOT_RETIRED_HI_COUNT k, bits p.retired 63 32)]
  else if o = 0x20 then [(Reg.PILOT_BUILD_ID_LO_ID k, bits p.buildId 31 0)]
  else if o = 0x24 then [(Reg.PILOT_BUILD_ID_HI_ID k, bits p.buildId 63 32)]
  else if o = 0x34 then [(Reg.PILOT_DKT_STATUS_QUEUED k, State.queued p)]
  else if o = 0x38 then [(Reg.PILOT_BANKS_MASK k, p.banks)]
  else []

def viewSrx (s : State) (a : Nat) : List (Fld × Nat) :=
  let p := (a - 0x80000) / 0x4000
  let o := (a - 0x80000) % 0x4000
  let inState := fun (x : Nat) => ((List.range 64).filter fun i => decide (s.laneState p i = x)).length
  if o = 0x4 then [(Reg.SRX_STATUS_READY p, inState 6), (Reg.SRX_STATUS_FAULTS p, inState 7),
    (Reg.SRX_STATUS_USE p, match (s.port p).frame with
      | some f => ((List.range 64).filter f.use.testBit).length
      | none => 0)]
  else if o = 0x34 then [(Reg.SRX_FQ_STATUS_COUNT p, (s.queue (Reg.SRX_FQ_PUSH_RAW p).addr).length)]
  else if o = 0x7C then [(Reg.SRX_EB_LEVEL p, min 2048 (ceilDiv (s.port p).level 4096))]
  else if 0x1000 ≤ o ∧ o < 0x2000 then
    let i := (o - 0x1000) / 0x40
    if (o - 0x1000) % 0x40 = 0x18 then [(Reg.LANE_BITS_LO p i, bits (s.prbsBits p i) 31 0)]
    else if (o - 0x1000) % 0x40 = 0x1C then [(Reg.LANE_BITS_HI p i, bits (s.prbsBits p i) 47 32)]
    else []
  else []

def viewPipe (s : State) (a : Nat) : List (Fld × Nat) :=
  let i := (a - 0x100000) / 0x10000
  let o := (a - 0x100000) % 0x10000
  if o = 0x4 then [(Reg.PIPE_STATUS_IN_COUNT i, (s.queue (Reg.PIPE_IN_PUSH_RAW i).addr).length)]
  else if o = 0x8048 then [(Reg.PIPE_RAWOUT_STATUS_COUNT i, (s.queue (pipeRawQ i)).length)]
  else if 0x8100 ≤ o ∧ o < 0x8280 ∧ (o - 0x8100) % 0x80 = 0x64 then
    let b := (o - 0x8100) / 0x80
    [(Reg.PIPE_OUT_STATUS_COUNT i b, (s.queue (pipeOutQ i b)).length)]
  else []

def viewEnc (s : State) (a : Nat) : List (Fld × Nat) :=
  let e := (a - 0x160000) / 0x4000
  let o := (a - 0x160000) % 0x4000
  if o = 0x4 then
    (Reg.ENC_STATUS_OCCUPIED e, s.encOccupied e) ::
      (if (s.encActive e).isSome ∧ s.fld (Reg.ENC_STATUS_CAP e) = 0 then [(Reg.ENC_STATUS_CAP e, s.freeVal % 2)] else [])
  else if 0x100 ≤ o ∧ o < 0x500 ∧ (o - 0x100) % 0x100 = 0x40 then
    let i := (o - 0x100) / 0x100
    [(Reg.ENC_SLOT_QUEUE_IN e i, (s.queue (encQ e i 0)).length), (Reg.ENC_SLOT_QUEUE_BS e i, (s.queue (encQ e i 1)).length),
     (Reg.ENC_SLOT_QUEUE_ES e i, (s.queue (encQ e i 2)).length)]
  else []

def viewDec (s : State) (a : Nat) : List (Fld × Nat) :=
  let d := (a - 0x180000) / 0x4000
  let o := (a - 0x180000) % 0x4000
  let x := s.dec d
  if o = 0x4 then [(Reg.DEC_STATUS_POOL d, x.pool.length), (Reg.DEC_STATUS_DPB d, (decUsed x).length)]
  else if o = 0x24 then [(Reg.DEC_QUEUE_POOL d, x.pool.length), (Reg.DEC_QUEUE_OUT d, (s.queue (decOutQ d)).length),
    (Reg.DEC_QUEUE_IN d, (s.queue (decInQ d)).length)]
  else []

/-- The words of a completion entry (R291). -/
def lzeDoneView (q : Nat) (e : LzeDone) (o : Nat) : List (Fld × Nat) :=
  if o = 0x0 then [(Reg.LZE_DONE_0_TAG q, e.tag), (Reg.LZE_DONE_0_FIRST_ERR q, e.firstErr), (Reg.LZE_DONE_0_RESULT q, e.result)]
  else if o = 0x4 then [(Reg.LZE_DONE_1 q, e.nextBlock)]
  else if o = 0x8 then [(Reg.LZE_DONE_2 q, bits e.consumed 31 0)]
  else if o = 0xC then [(Reg.LZE_DONE_3 q, bits e.consumed 63 32)]
  else if o = 0x10 then [(Reg.LZE_DONE_4 q, bits e.produced 31 0)]
  else if o = 0x14 then [(Reg.LZE_DONE_5 q, bits e.produced 63 32)]
  else if o = 0x18 then [(Reg.LZE_DONE_6 q, e.errs)]
  else if o = 0x1C then [(Reg.LZE_DONE_7 q, e.firstErrBlock)]
  else []

/-- Cores working while a job runs: at least one, at most CORES, the number free (log entry 12). -/
def coresBusy (s : State) : Nat :=
  if (s.lzeJob 0).isSome || (s.lzeJob 1).isSome then 1 + s.freeVal % max 1 (s.fld Reg.LZE_CFG_CORES) else 0

def viewLze (s : State) (a : Nat) : List (Fld × Nat) :=
  let o := a - 0x190000
  if o = 0x4 then [(Reg.LZE_STATUS_CORES_BUSY, s.coresBusy), (Reg.LZE_STATUS_Q1, (s.queue (lzeQ 1)).length),
    (Reg.LZE_STATUS_Q0, (s.queue (lzeQ 0)).length)]
  else if 0x100 ≤ o ∧ o < 0x180 then
    let q := (o - 0x100) / 0x40
    let w := (o - 0x100) % 0x40
    if w = 0x24 then [(Reg.LZE_DONE_STAT_COUNT q, (s.lzeDoneQ q).length)]
    else match s.lzeDoneQ q with
      | e :: _ => lzeDoneView q e w
      | [] => []
  else []

/-- The line a running head is in: line i begins at S(j) + i × F / Ltot (R316). -/
def headLine (s : State) (h : Nat) : Nat :=
  match s.headSize h, s.headRate h with
  | some (_, hh, vb), some r =>
    if (s.head h).run then min (hh + vb - 1) (((s.tideTime48 - (s.head h).startAt) * ((hh + vb : Nat) : Int)).fdiv (framePeriod r)).toNat else 0
  | _, _ => 0

def viewScn (s : State) (a : Nat) : List (Fld × Nat) :=
  let o := a - 0x1C0000
  if 0x1000 ≤ o ∧ o < 0x1A00 ∧ o % 0x100 = 0x38 then
    let h := (o - 0x1000) / 0x100
    [(Reg.SCN_HEAD_STATUS_LINE h, s.headLine h)]
  else if 0x2000 ≤ o ∧ o < 0x2800 ∧ o % 0x80 = 0x28 then
    let l := (o - 0x2000) / 0x80
    [(Reg.SCN_LAYER_STATUS_CURRENT l, (s.layer l).cur.getD 0), (Reg.SCN_LAYER_STATUS_COUNT l, (s.queue (layerQ l)).length)]
  else []

def viewNet (s : State) (a : Nat) : List (Fld × Nat) :=
  if 0x1E8040 ≤ a ∧ a < 0x1E8060 then
    let i := (a - 0x1E8040) / 4
    if s.fld (Reg.NET_HCP_SESS_STATE i) = 0 then []
    else [(Reg.NET_HCP_SESS_IDLE_MS i, min 65535 ((s.now - (s.hcpSess i).validAt) / 2000000))]
  else if 0x1E8000 ≤ a then []
  else
    let q := (a - 0x1E0000) / 0x4000
    let o := (a - 0x1E0000) % 0x4000
    if 0x1000 ≤ o ∧ o < 0x1800 ∧ o % 0x40 = 0x28 then
      let t := (o - 0x1000) / 0x40
      [(Reg.NET_TX_STATUS_COUNT q t, (s.queue (netTxQ q t)).length)]
    else if 0x2000 ≤ o ∧ o < 0x2400 ∧ o % 0x40 = 0x14 then
      let r := (o - 0x2000) / 0x40
      [(Reg.NET_RX_STATUS_COUNT q r, (s.queue (netRxQ q r)).length)]
    else []

/-- The fields of a word that show the state of their block, as master `m` sees them. -/
def view (s : State) (m a : Nat) : List (Fld × Nat) :=
  if a < 0x10000 then s.viewSys m a
  else if a < 0x20000 then []
  else if a < 0x30000 then s.viewTime a
  else if a < 0x40000 then s.viewPilot a
  else if a = 0x40034 then [(Reg.SEC_OUT_STATUS_COUNT, (s.queue secQ).length)]
  else if a = 0x50040 then [(Reg.LOG_QUEUE_IN, (s.queue logInQ).length), (Reg.LOG_QUEUE_OUT, (s.queue logOutQ).length)]
  else if a = 0x60100 then [(Reg.FAB_BERTH_CMD_BUSY, b01 s.fab.cmd.isSome)]
  else if a < 0x80000 then []
  else if a < 0x90000 then s.viewSrx a
  else if a < 0x140000 then s.viewPipe a
  else if a < 0x150000 then
    (if (a - 0x140000) % 0x1000 = 0x34 then
      [(Reg.STAT_STATUS_COUNT ((a - 0x140000) / 0x1000), (s.queue (statQ ((a - 0x140000) / 0x1000))).length)] else [])
  else if a < 0x160000 then []
  else if a < 0x180000 then s.viewEnc a
  else if a < 0x190000 then s.viewDec a
  else if a < 0x1A0000 then s.viewLze a
  else if a < 0x1C0000 then []
  else if a < 0x1D0000 then s.viewScn a
  else if a < 0x1E0000 then
    (if 0x1D3000 ≤ a ∧ a < 0x1D3400 ∧ a % 0x100 = 4 then
      [(Reg.PCX_VOL_STATUS_QUEUED ((a - 0x1D3000) / 0x100), (s.queue (volQ ((a - 0x1D3000) / 0x100))).length)] else [])
  else if a < 0x1F0000 then s.viewNet a
  else if a < 0x1F8000 then
    (if 0x1F1000 ≤ a ∧ a < 0x1F2000 ∧ a % 0x100 = 0x24 then
      [(Reg.AUD_STATUS_COUNT ((a - 0x1F1000) / 0x100), (s.queue (audQ ((a - 0x1F1000) / 0x100))).length)] else [])
  else if a = 0x1FC514 then [(Reg.GPIO_BANK_VIO_D, bits s.pwr.banks 31 24), (Reg.GPIO_BANK_VIO_C, bits s.pwr.banks 23 16),
    (Reg.GPIO_BANK_VIO_B, bits s.pwr.banks 15 8), (Reg.GPIO_BANK_VIO_A, bits s.pwr.banks 7 0)]
  else if a < 0x1FE000 then []
  else if a < 0x1FE400 then s.viewEvt a
  else []

/-! ### Reads -/

/-- The bits of a word that a read returns: those of its fields but the WO ones (R7, R8). -/
def readMask (r : RegDesc) : Nat :=
  r.fields.foldl (fun n f => if f.acc = .wo then n else n ||| (2 ^ (f.hi + 1) - 2 ^ f.lo)) 0

/-- What a mapped word shows, without side effect. -/
def showWord (s : State) (m a : Nat) (r : RegDesc) : Nat :=
  (s.view m a).foldl (fun n e => putBits n e.1.hi e.1.lo e.2) ((s.word a).toNat &&& readMask r)

/-- A read of one RC field: the value before this cycle's events; these stay for the next read (R9). -/
def readRc (s : State) (a : Nat) (n : Nat) (f : FieldDesc) : State × Nat :=
  let x : Fld := ⟨a, f.hi, f.lo⟩
  if f.acc ≠ .rc then (s, n)
  else match s.evAdd.find? fun e => e.1 == fldKey x with
    | some (_, base, share) =>
      ({ s.setFld x share with evAdd := s.evAdd.put (fldKey x) (0, share) }, putBits n f.hi f.lo base)
    | none => (s.setFld x 0, n)

/-- The read actions of a word's RC fields (R8, R9). -/
def readRcs (a : Nat) : List FieldDesc → State → Nat → State × Nat
  | [], s, n => (s, n)
  | f :: fs, s, n => let (s, n) := s.readRc a n f; readRcs a fs s n

/-- A word has RC fields. -/
def hasRc (r : RegDesc) : Bool := r.fields.any fun f => decide (f.acc = .rc)

/-- The other words of a wide value are latched when its lowest word is read (R11). -/
def latchUpper (m a : Nat) : List Nat → State → State
  | [], s => s
  | i :: is, s =>
    let b := a + 4 * i
    let v := match regAt b with | some r => s.showWord m b r | none => 0
    latchUpper m a is { s with latched := s.latched.set (fun _ => none) b (some (BitVec.ofNat 32 v)) }

/-- FAB_AP_BASE as a byte offset (R40). -/
def apBase (s : State) : Nat := s.fld Reg.FAB_AP_BASE_LO_BASE_LO * 4096 + s.fld Reg.FAB_AP_BASE_HI_BASE_HI * 2 ^ 32

/-- The 4 bytes of the named berth behind aperture word `i`; a refused read sets FAULT (R39, R40). -/
def apertureWord (s : State) (i : Nat) : State × Word :=
  let h := s.fld Reg.FAB_AP_HANDLE_HANDLE
  let ofs := s.apBase + 4 * i
  let r := s.readBerth 40 h ofs 4
  (if s.accessCause 40 h ofs 4 = 0 then r.1 else r.1.setBitsOf 0x6020C 2, BitVec.ofNat 32 (ofBytesLE r.2))

/-- A read of the berth aperture: the harbourmaster's, or 0 for any other master (R40, R47). -/
def apertureRead (s : State) (m i : Nat) : State × Word :=
  if m = 0 ∨ s.sys.owner ≠ m then (s, 0) else s.apertureWord i

/-- A read of a mapped, aligned word by master `m`, with its side effects (R8, R9, R11, R40, R47); the free values it may show are drawn. A control master's RC clear is a WRITE record (R432). -/
def readWord (s : State) (m a : Nat) : State × Word :=
  if 0x68000 ≤ a ∧ a < 0x69000 then s.apertureRead m ((a - 0x68000) / 4)
  else match regAt a with
    | none => (s, 0)
    | some r =>
      let (i, n) := wideOf a
      if i ≠ 0 then match s.latched.get (fun _ => none) a with
        | some v => (s, v)
        | none => (s, BitVec.ofNat 32 (s.showWord m a r))
      else
        let v := s.showWord m a r
        let s := if 1 < n then latchUpper m a ((List.range n).drop 1) s else s
        let (s, v) := readRcs a r.fields s v
        let s := if a = 0x190004 ∨ (0x160000 ≤ a ∧ a < 0x170000 ∧ a % 0x4000 = 4) then s.nextFree else s
        let s := if hasRc r && isControlMaster m then s.logRec 0x07 m 0 [a + v <<< 32] else s
        (s, BitVec.ofNat 32 v)

/-- A control-space read (R5 to R7): partial, misaligned and unmapped reads return 0 and do nothing. -/
def controlRead (s : State) (m a be : Nat) : State × Word :=
  if be ≠ 15 ∨ a % 4 ≠ 0 ∨ 0x4000000 ≤ a then (s, 0) else s.readWord m a

end State

end Sys2Proof.Machine
end

