-- ==== Sys2Proof/Machine/Land.lean ====
section
/-! DEFINITION. Landings: committed class-T values enter control space, the schedule is anchored anew, domains switch and step, frame-bound blocks take banks (R29 to R31, R65, R69, R70, R104, R107, R109, R111, R114, R450). -/

namespace Sys2Proof.Machine.State

/-- One landed piece of a word: address, mask and value, as a LANDING record carries it (R435). -/
abbrev Piece := Nat × Nat × Nat

/-- A field's part of a commit as a piece of its word. -/
def pieceOf (e : Fld × Nat) : Piece :=
  (e.1.addr, 2 ^ (e.1.hi + 1) - 2 ^ e.1.lo, (e.2 % 2 ^ (e.1.hi + 1 - e.1.lo)) <<< e.1.lo)

/-- The pieces a commit lands. -/
def commitPieces (c : Commit) : List Piece := (c.writes.flatMap fun w => w.parts).map pieceOf

/-- A piece enters its word. -/
def putPiece (s : State) (p : Piece) : State :=
  let w := (s.word p.1).toNat
  s.setWord p.1 (BitVec.ofNat 32 ((w - (w &&& p.2.1)) ||| p.2.2))

/-- A LANDING record's entries (R435), and the pieces they spell. -/
def pieceWords (p : Piece) : List Nat := [p.1 + p.2.1 <<< 32, p.2.2]

def wordPieces : List Nat → List Piece
  | a :: v :: rest => (a % 2 ^ 32, a >>> 32, v % 2 ^ 32) :: wordPieces rest
  | _ => []

/-- LANDING records of one transaction: at most 253 entries in each (R432, R435). -/
def landingRecs (ticket : Nat) : List (List Piece) → State → State
  | [], s => s
  | l :: ls, s => landingRecs ticket ls (s.logRec 0x06 0 0 (ticket :: l.flatMap pieceWords))

/-- A transaction lands (R65): its values, in order, and its LANDING records. -/
def landOne (s : State) (ticket : Nat) (ps : List Piece) : State :=
  landingRecs ticket (chunks 253 (ps.length + 1) ps) (ps.foldl putPiece s)

/-- Some piece lies in `lo … hi - 1`. -/
def touches (ps : List Piece) (lo hi : Nat) : Bool := ps.any fun p => decide (lo ≤ p.1 ∧ p.1 < hi)

/-- TIDE_PERIOD reads back the value in force, clamped to 10 µs … 2 s (R107). -/
def clampPeriod (s : State) : State :=
  let p := clampN (10000 <<< 48) (2000000000 <<< 48) s.period
  ((s.setFld Reg.TIDE_PERIOD_NS_NS (p >>> 48)).setFld Reg.TIDE_PERIOD_FHI_FRAC_HI (bits p 47 32)).setFld
    Reg.TIDE_PERIOD_FLO_FRAC_LO (bits p 31 0)

/-- The schedule is anchored at (m, T(m)) of the old schedule, keeping the fraction (R109). -/
def reanchor (s : State) (m : Nat) (t : Int) : State :=
  let b := wrap 112 t
  let s := s.setFld2 Reg.TIDE_ANCHOR_LO_LO Reg.TIDE_ANCHOR_HI_HI m
  let s := (s.setWord 0x20038 (BitVec.ofNat 32 (bits b 79 48))).setWord 0x2003C (BitVec.ofNat 32 (bits b 111 80))
  { s with time := { s.time with baseFrac := bits b 47 0 } }

/-- A landed DOM_STEP steps its domain; a step of 0 ns is none (R104). -/
def landStep (ps : List Piece) (s : State) (d : Nat) : State :=
  let ns := signed 32 (s.fld (Reg.DOM_STEP d))
  if touches ps (Reg.DOM_STEP d).addr ((Reg.DOM_STEP d).addr + 4) ∧ ns ≠ 0 then s.stepDom d ns else s

/-- Settings of the blocks that apply class-T fields at their own tide are in force at once while tides do not run (R31, R69). -/
def applyNow (s : State) : State :=
  let s := [0, 1].foldl (fun (s : State) d => s.takeApplied (decA d) (decA d) (decA d + 0x4000)) s
  let s := [0, 1].foldl (fun (s : State) q => s.netTide q) s
  s.scnTide

/-- Heads that a landing outside tides would start begin at the next tide (R69, R316). -/
def wakeStarted (old : State) : List Nat → State → State
  | [], s => s
  | h :: hs, s =>
    let ch := fun f => decide (old.fld f ≠ s.fld f)
    let up := decide (s.fld (Reg.SCN_HEAD_CFG_EN h) = 1) && s.scnRunning &&
      (ch (Reg.SCN_HEAD_CFG_EN h) || ch (Reg.SCN_HEAD_CFG_RASTER h) || ch (Reg.SCN_HEAD_CFG_RATE h) || ch (Reg.SCN_HEAD_CFG_QUAD h))
    wakeStarted old hs (if up then s.setHead h { s.head h with wake := true } else s)

/-- What follows a landing: `old` is the state before it, `at_` the tide it lands at, none while tides do not run. -/
def landed (old : State) (at_ : Option Nat) (ps : List Piece) (s : State) : State :=
  let s := { s with sys := { s.sys with epoch := (s.sys.epoch + 1) % 65536 } }
  let s := if touches ps 0x20020 0x2002C then
      (match at_ with
        | some m => s.reanchor m (old.schedTime m)
        | none => s).clampPeriod
    else s
  let s := match at_ with
    | none => if s.fld Reg.TIME_CTRL_DOM_SEL ≠ s.sel ∧ touches ps 0x20000 0x20004 then
        let k := s.time.switchTide
        let s := s.switchDom (s.fld Reg.TIME_CTRL_DOM_SEL) 0
        { s with time := { s.time with switchTide := k } }
      else s
    | some _ => s
  let s := [0, 1].foldl (landStep ps) s
  let s := if touches ps 0x61000 0x615A0 then s.didt else s
  let s := takeBanks (List.range 16) (encEnabled old encSlots s)
  match at_ with
  | none => (wakeStarted old (List.range 10) s).applyNow
  | some _ => s

/-- TXN_LANDED for a ticket (R70, R88). -/
def postLanded : List Nat → State → State
  | [], s => s
  | t :: ts, s => postLanded ts (s.post 4 0 0 (t + s.sys.epoch <<< 32))

/-- Transactions land together, in ticket order, and the settings epoch advances once (R29, R65). -/
def landAll (s : State) (at_ : Option Nat) (l : List (Nat × List Piece)) : State :=
  if l.isEmpty then s
  else
    let s' := l.foldl (fun (s : State) e => s.landOne e.1 e.2) s
    postLanded (l.map (·.1)) (landed s at_ (l.flatMap (·.2)) s')

/-- The commits of the landing queue that `p` picks land together. -/
def landQueued (s : State) (at_ : Option Nat) (p : Commit → Bool) : State :=
  let due := s.sys.landq.filter p
  let s := { s with sys := { s.sys with landq := s.sys.landq.filter fun c => !p c } }
  s.landAll at_ (due.map fun c => (c.ticket, commitPieces c))

/-- The domain that tide `n` selects (R111, R114): a switch that a commit lands, else a failover that is due. -/
def tideSel (s : State) (n : Nat) : Nat :=
  let ps := (s.sys.landq.filter fun c => decide (c.target ≤ n)).flatMap commitPieces
  let chosen := ps.foldl (fun (d : Nat) (p : Piece) => if p.1 = 0x20000 ∧ bit p.2.1 1 then bits p.2.2 1 1 else d) s.sel
  if chosen ≠ s.sel then chosen else s.time.failTo.getD s.sel

/-- The switch of tide `n`; a failover due at it is over. -/
def tideSwitch (s : State) (n : Nat) : State :=
  let s := s.switchDom (s.tideSel n) n
  { s with time := { s.time with failTo := none } }

/-- LANDING records of tide `n` in replay, one transaction for each ticket (R439). -/
def replayPieces (l : List LogRec) : List (Nat × List Piece) :=
  l.map fun r => (r.body.headD 0 % 2 ^ 32, wordPieces r.body.tail)

/-- The landings of tide `n`: the queued transactions that target it, or in replay the logged ones (R65, R439). -/
def landTide (s : State) (n : Nat) : State :=
  if s.replaying then
    let mine := fun (r : LogRec) => decide (r.typ = 6) && decide (r.tide = n)
    let due := s.log.replay.filter mine
    let s := s.setLog { s.log with replay := s.log.replay.filter fun r => !mine r }
    s.landAll (some n) (replayPieces due)
  else s.landQueued (some n) fun c => decide (c.target ≤ n)

/-- While tides do not run, the oldest committed transaction lands (R69). -/
def landNow (s : State) : State :=
  if s.running then s
  else match s.sys.landq with
    | [] => s
    | c :: _ => s.landQueued none fun d => decide (d.ticket = c.ticket)

/-- Clearing RUN lands every queued transaction at once, with one advance of the settings epoch (R69). -/
def landStopped (s : State) : State := s.landQueued none fun _ => true

end Sys2Proof.Machine.State
end

