-- ==== Sys2Proof/Machine/PilotCtl.lean ====
section
/-! DEFINITION. Program loads and parcel moves of the pilots (R94 to R97, R99). -/

namespace Sys2Proof.Machine

namespace State

/-! ### Parcel moves (R99) -/

/-- A range of a berth that unit `u` holds, and that lies in the berth. -/
def moveRange (s : State) (u h ofs len : Nat) : Bool := decide (h = 0) || decide (s.accessCause u h ofs len = 0)

/-- OVR on the parcels of a move whose work is in overrun (R91). -/
def moveFlags (s : State) (k : Nat) (m : Move) : Nat :=
  if (s.pilot k).ovr ∧ (s.pilot k).workTide = m.tide then flagOvr else 0

/-- The payload of a move goes from its source to its destination (R99): from pilot memory to a berth as one parcel, which 1 MiB does not exceed (R15). -/
def movePayload (s : State) (k : Nat) (m : Move) : State :=
  let bs := if m.src = 0 then (List.range m.len).map fun i => (s.pilot k).data.get (fun _ => 0) (m.addr + i) else s.peek m.src m.srcOfs m.len
  if m.dst = 0 then s.setPilot k { s.pilot k with data := storeBytes (s.pilot k).data m.addr bs }
  else if m.src = 0 then
    s.emit (24 + k) { m.man with handle := m.dst, flags := m.man.flags ||| s.moveFlags k m } m.dstOfs bs
  else s.writeBerth (24 + k) m.dst m.dstOfs bs

/-- The berths of a move are released. -/
def moveRelease (s : State) (k : Nat) (m : Move) : State :=
  if !m.ok then s
  else releaseAll (24 + k) (([m.src, m.dst] : List Nat).filter fun h => decide (h ≠ 0)) s

/-- The oldest move of pilot `k` ends (R44, R97, R99): its payload moves unless it faults or was abandoned, its berths are released, PMOV_DONE follows unless the pilot was stopped. -/
def moveDone (s : State) (k : Nat) : State :=
  match (s.pilot k).moves with
  | [] => s
  | m :: ms =>
    let s := s.setPilot k { s.pilot k with moves := ms }
    let u := 24 + k
    let fits := m.ok && s.moveRange u m.src m.srcOfs m.len && s.moveRange u m.dst m.dstOfs m.len
    let s := if fits && !m.gone then s.movePayload k m
      else if m.ok && !m.gone then
        (if s.moveRange u m.src m.srcOfs m.len then s.berthFault u m.dst 2 else s.berthFault u m.src 2) else s
    let s := s.moveRelease k m
    if m.discard then s else s.postTo k 8 (16 + k) m.token (if m.gone then 2 else if fits then 0 else 1)

/-! ### Program loads (R94 to R96) -/

/-- A write of PILOT_LOAD: ignored while a load is in progress, otherwise it acquires the berth. -/
def pilotLoad (s : State) (k h : Nat) : State :=
  if (s.pilot k).load.isSome then s
  else
    let (s, ok) := s.acquire (24 + k) h
    s.setPilot k { s.pilot k with load := some (h, ok) }

/-- A bank of the mask `m` has another writer than pilot `k` (R76). -/
def bankTaken (s : State) (k m : Nat) : Bool :=
  (List.range 16).any fun j => decide (j ≠ k) && decide ((s.pilot j).banks &&& m ≠ 0)

/-- The fields of an image header (R94). -/
def imgField (h : List Byte) (i n : Nat) : Nat := hdrAt h i n

/-- Bytes of an image: header, code, data and signature block. -/
def imgSize (h : List Byte) : Nat := 64 + imgField h 8 4 + imgField h 12 4 + imgField h 36 4

/-- The lengths and ENTRY keep R94. -/
def imgLengthsOk (h : List Byte) : Bool :=
  let c := imgField h 8 4
  let e := imgField h 16 4
  decide (c % 4 = 0 ∧ 4 ≤ c ∧ c ≤ 65536) && decide (imgField h 12 4 ≤ 32768) && decide (e % 4 = 0 ∧ e < c)

/-- The result of a load of berth `h` into pilot `k`, in the order of R96. -/
def loadResult (s : State) (k h : Nat) (ok : Bool) : Nat :=
  let hd := s.peek h 0 64
  let p := s.pilot k
  let replay := bit (imgField hd 6 2) 0
  if !ok then 7
  else if p.st = .running ∨ p.st = .waiting ∨ p.starting ≠ 0 then 4
  else if hd.take 4 ≠ [0x4D, 0x41, 0x52, 0x4C] ∨ imgField hd 4 2 ≠ 1 then 1
  else if !imgLengthsOk hd then 2
  else if (s.berth h).pages * 4096 < imgSize hd then 7
  else if replay != s.replayMode then 6
  else if s.bankTaken k (imgField hd 24 2) then 5
  else
    let n := 64 + imgField hd 8 4 + imgField hd 12 4
    if s.imageOk (s.peek h 0 n) (s.peek h n (imgField hd 36 4)) replay then 0 else 3

/-- The LOAD record (R435); in replay mode the image's hash must be that of the logged LOAD (R438, R441). -/
def loadRec (s : State) (k build : Nat) (hash : List Byte) : State :=
  let ws := words8 hash
  let s := s.logRec 0x05 k 0 ((s.pilot k).retired :: build :: ws)
  if !s.replayMode then s
  else match s.log.replay.find? fun r => decide (r.typ = 5) && decide (r.src = k) && decide (r.sub = 0) with
    | some r =>
      let s := { s with log := { s.log with replay := s.log.replay.erase r } }
      if r.body.drop 2 = ws then s else s.divergePilot k
    | none => s

/-- The image in berth `h` is taken (R96, steps 5 to 7). -/
def takeImage (s : State) (k h : Nat) : State :=
  let hd := s.peek h 0 64
  let c := imgField hd 8 4
  let d := imgField hd 12 4
  let body := s.peek h 64 (c + d)
  let signed := s.peek h 0 (64 + c + d)
  let block := s.peek h (64 + c + d) 12
  let p := cleared (s.pilot k)
  let s := s.setPilot k { p with
    st := .loaded, prog := storeBytes [] 0 (body.take c), data := storeBytes [] 0x10000 (body.drop c), entry := imgField hd 16 4
    buildId := imgField hd 28 8, banks := imgField hd 24 2, snapshot := [], owner := hdrAt block 6 1
    serial := hdrAt block 8 4, imageHash := Sha.sha384 signed }
  let s := s.setFld (Reg.PILOT_DKT_SUB_MASK k) (imgField hd 20 4)
  s.loadRec k (imgField hd 28 8) (Sha.sha384 body)

/-- A load ends: its result, the image taken when it is OK, and the berth released (R96). -/
def pilotLoadDone (s : State) (k : Nat) : State :=
  match (s.pilot k).load with
  | none => s
  | some (h, ok) =>
    let r := s.loadResult k h ok
    let s := s.setPilot k { s.pilot k with load := none }
    let s := if r = 0 then s.takeImage k h else s
    let s := if ok then s.release (24 + k) h else s
    s.setFld (Reg.PILOT_LOAD_RESULT k) r

end State

/-- PMOV_DONE (R99). -/
def execPmovDone (k : Fin 16) (s : State) : Res := .next (s.moveDone k)

/-- PILOT_LOAD_DONE (R96). -/
def execPilotLoadDone (k : Fin 16) (s : State) : Res := .next (s.pilotLoadDone k)

end Sys2Proof.Machine
end

