-- ==== Sys2Proof/Machine/ControlSpace.lean ====
section
/-! DEFINITION. Writes of control space (R5 to R14, R49, R50, R59, R67, R68): who may write, what each word's fields take, which writes a running block rejects, and the action each register starts. -/

namespace Sys2Proof.Machine

/-- What a write finds outside: the lines of a two-wire bus, and whether a fuse burn succeeds; without them the outcome is free. -/
structure WriteEnv where
  line : Option TwbLine := none
  burnt : Option Bool := none
  /-- The write is a WRITE record that replay performs (R439). -/
  replayed : Bool := false

/-- The write of a live access that brings no facts of its own. -/
def WriteEnv.plain : WriteEnv := {}

/-- `v` with its bits `hi` to `lo` limited to `a … b`. -/
def clampBits (v hi lo a b : Nat) : Nat := putBits v hi lo (clampN a b (bits v hi lo))

/-- The value a word takes of a write whose fields their maps clamp. -/
def clampWrite (a v : Nat) : Nat :=
  if a = 0x10C then clampBits (clampBits v 31 16 10 60000) 15 0 10 60000
  else if a = 0x218 then clampBits v 12 0 5 5000
  else if a = 0x10060 then clampBits (clampBits v 31 24 100 125) 4 0 1 16
  else if a = 0x20010 then clampBits v 9 0 1 1000
  else if a < 0x80000 then v
  else if a < 0x90000 then
    if a % 0x4000 = 0 then clampBits v 13 0 2500 12500 else if a % 0x4000 = 0x2C then clampBits v 15 0 1 65535 else v
  else if 0x160000 ≤ a ∧ a < 0x170000 ∧ 0x100 ≤ a % 0x4000 ∧ a % 0x100 = 0x1C then clampBits (clampBits v 21 16 0 32) 5 0 0 32
  else if a = 0x190008 then clampBits (clampBits v 26 16 1 1032) 4 0 1 16
  else if 0x1A0000 ≤ a ∧ a < 0x1B8000 then
    if a % 0x4000 = 0xC then clampBits v 13 8 (min 63 (bits v 5 0 + 1)) 63
    else if a % 0x4000 = 0x10 then clampBits v 15 0 100 60000 else v
  else if 0x1B8100 ≤ a ∧ a < 0x1B8400 ∧ a % 0x10 = 0 then clampBits v 23 16 0 128
  else if 0x1C1000 ≤ a ∧ a < 0x1C2000 ∧ a % 0x100 = 0x10 then clampBits v 28 16 2000 8000
  else if a = 0x1D0040 ∨ a = 0x1D1040 then clampBits v 5 0 20 36
  else if 0x1D3000 ≤ a ∧ a < 0x1D3400 ∧ a % 0x100 = 0 then clampBits v 19 16 4 10
  else if a = 0x1E0004 ∨ a = 0x1E4004 then clampBits v 13 0 1280 9000
  else if 0x1F0100 ≤ a ∧ a < 0x1F0180 ∧ a % 0x20 = 4 then clampBits v 9 0 1 1000
  else if 0x1F1000 ≤ a ∧ a < 0x1F2000 ∧ a % 0x100 = 0xC then clampBits v 12 0 15 8191
  else v

namespace State

/-! ### Class-X fields (R12, R13) -/

/-- Ports that run and name generator `g` (R393). -/
def scgPorts (s : State) (g : Nat) : List Nat := (List.range 16).filter fun p => decide (s.audState p ≠ 0) && decide (s.audGen p = g)

/-- The class-X fields of word `a` are locked against the write of `v`. -/
def xLocked (s : State) (a v : Nat) : Bool :=
  if 0x20030 ≤ a ∧ a < 0x20040 then s.running
  else if 0x20200 ≤ a ∧ a < 0x20300 then
    s.flag (Reg.PTP_EN ((a - 0x20200) / 0x80)) && (decide ((a - 0x20200) % 0x80 ≠ 0) || bit v 31)
  else if a < 0x30000 then false
  else if a < 0x40000 then
    let p := s.pilot ((a - 0x30000) / 0x1000)
    decide (p.st = .running ∨ p.st = .waiting)
  else if a < 0x50000 then false
  else if a < 0x60000 then decide (s.logState ≠ 0)
  else if a < 0x80000 then false
  else if a < 0x90000 then decide (s.portState ((a - 0x80000) / 0x4000) ≠ 0)
  else if a < 0x140000 then decide (s.fld (Reg.PIPE_STATUS_STATE ((a - 0x100000) / 0x10000)) ≠ 0)
  else if a < 0x160000 then false
  else if a < 0x170000 then
    let e := (a - 0x160000) / 0x4000
    decide (s.encState e ≠ 0) || s.flag (Reg.ENC_SLOT_CFG_EN e (((a - 0x160000) % 0x4000 - 0x100) / 0x100))
  else if a < 0x190000 then decide (s.fld (Reg.DEC_STATUS_STATE ((a - 0x180000) / 0x4000)) ≠ 0)
  else if a < 0x1A0000 then decide (s.fld Reg.LZE_STATUS_STATE ≠ 0)
  else if a < 0x1D0000 then false
  else if a < 0x1D2000 then s.pcxOn ((a - 0x1D0000) / 0x1000)
  else if a < 0x1E0000 then decide (s.volState ((a - 0x1D3000) / 0x100) = 2)
  else if a < 0x1E8000 then s.netOn ((a - 0x1E0000) / 0x4000)
  else if a < 0x1F0000 then s.netOn 0 || s.netOn 1
  else if a < 0x1F1000 then !(s.scgPorts ((a - 0x1F0100) / 0x20)).isEmpty
  else if a < 0x1F8000 then decide (s.audState ((a - 0x1F1000) / 0x100) ≠ 0)
  else if a < 0x1FC000 then decide (s.twbState ((a - 0x1F8000) / 0x200) ≠ 0)
  else if a < 0x1FE000 then false
  else
    let i := (a - 0x1FE000) / 0x40
    decide (s.fld (Reg.EVT_MODE i) ≠ 0) && (decide ((a - 0x1FE000) % 0x40 ≠ 0) || decide (bits v 31 29 ≠ 0))

/-- WRITE_REJECT of several audio ports. -/
def audRejects : List Nat → State → State
  | [], s => s
  | p :: ps, s => audRejects ps (s.audRaise p 0x20)

/-- The WRITE_REJECT status of the block that holds word `a`. -/
def xReject (s : State) (a : Nat) : State :=
  if a < 0x30000 then s.timeRaise 0x80
  else if a < 0x40000 then
    let k := (a - 0x30000) / 0x1000
    s.raise (0x3003C + 0x1000 * k) (0x30050 + 0x1000 * k) (24 + k) 1
  else if a < 0x60000 then s.logRaise 0x10
  else if a < 0x90000 then s.srxRaise ((a - 0x80000) / 0x4000) 0x80
  else if a < 0x140000 then s.pipeRaise ((a - 0x100000) / 0x10000) 0x10
  else if a < 0x170000 then s.encRaise ((a - 0x160000) / 0x4000) 0x80
  else if a < 0x190000 then s.decRaise ((a - 0x180000) / 0x4000) 0x200
  else if a < 0x1A0000 then s.lzeRaise 8
  else if a < 0x1D2000 then s.pcxRaise ((a - 0x1D0000) / 0x1000) 1
  else if a < 0x1E0000 then s.pcxRaise (s.fld (Reg.PCX_VOL_CTRL_HOME ((a - 0x1D3000) / 0x100))) 1
  else if a < 0x1E8000 then s.netRaise ((a - 0x1E0000) / 0x4000) 0x20
  else if a < 0x1F0000 then
    let s := if s.netOn 0 then s.netRaise 0 0x20 else s
    if s.netOn 1 then s.netRaise 1 0x20 else s
  else if a < 0x1F1000 then audRejects (s.scgPorts ((a - 0x1F0100) / 0x20)) s
  else if a < 0x1F8000 then s.audRaise ((a - 0x1F1000) / 0x100) 0x20
  else if a < 0x1FC000 then s.twbRaise ((a - 0x1F8000) / 0x200) 256
  else s.setBitsOf (Reg.EVT_WRITE_REJECT ((a - 0x1FE000) / 0x40)).addr 0x200

/-! ### Fields (R8, R12) -/

/-- A write reaches the field: its access code lets a write set, clear or start something. -/
def isWritable (f : FieldDesc) : Bool := decide (f.acc ≠ .ro) && decide (f.acc ≠ .rc)

/-- WO fields that hold what was written for a later command: SEC_CMD_KEY and SEC_CMD_DATA. -/
def keepsWo (a : Nat) : Bool := decide (a = 0x4000C) || decide (0x40400 ≤ a ∧ a < 0x40800)

/-- W1S fields that only start an action: GPIO_SET and GPIO_CLR. -/
def dropsW1s (a : Nat) : Bool := decide (0x1FC420 ≤ a ∧ a < 0x1FC454)

/-- One field of class L, X or S takes its part of `v`; a locked class-X field keeps its value (R8, R9, R13). -/
def putField (lock : Bool) (a v : Nat) (s : State) (f : FieldDesc) : State :=
  let x : Fld := ⟨a, f.hi, f.lo⟩
  let n := bits v f.hi f.lo
  if f.cls = .t ∨ (f.cls = .x ∧ lock) then s
  else match f.acc with
    | .rw => s.setFld x n
    | .wo => if keepsWo a then s.setFld x n else s
    | .w1s => if dropsW1s a then s else s.setFld x (s.fld x ||| n)
    | .w1c =>
      let kept := bits (s.evSet.get (fun _ => 0) a).toNat f.hi f.lo
      let gone := n - (n &&& kept)
      s.setFld x (s.fld x - (s.fld x &&& gone))
    | .ro | .rc => s

/-- The fields of a word take theirs. -/
def putFields (lock : Bool) (a v : Nat) (fs : List FieldDesc) (s : State) : State := fs.foldl (putField lock a v) s

/-- The write would change a class-X field of the word. -/
def changesX (s : State) (a v : Nat) (fs : List FieldDesc) : Bool :=
  fs.any fun f => decide (f.cls = .x) && decide (bits v f.hi f.lo ≠ s.fld ⟨a, f.hi, f.lo⟩)

/-- The word has fields, and every one of them that a write reaches is of class X. -/
def onlyX (fs : List FieldDesc) : Bool :=
  let w := fs.filter isWritable
  !w.isEmpty && w.all fun f => decide (f.cls = .x)

/-- The class-T parts of a word. -/
def tParts (a v : Nat) (fs : List FieldDesc) : List (Fld × Nat) :=
  (fs.filter fun f => decide (f.cls = .t)).map fun f => (⟨a, f.hi, f.lo⟩, bits v f.hi f.lo)

/-- The fields of the register at an address. -/
def fieldsAt (a : Nat) : List FieldDesc := match regAt a with | some r => r.fields | none => []

/-- The class-T values a write of one value carries: each field one, but the words of a wide value together one (R11, R13). -/
def tWrites (ws : List (Nat × Nat)) : List TWrite :=
  let parts := ws.flatMap fun w => tParts w.1 w.2 (fieldsAt w.1)
  if 1 < ws.length then (match parts with | [] => [] | p :: _ => [⟨fldKey p.1, parts⟩])
  else parts.map fun p => ⟨fldKey p.1, [p]⟩

/-- The words of a value whose lowest word `a` is written with `v`: held upper words, or else what they hold (R11). -/
def wideWords (s : State) (a v n : Nat) : List (Nat × Nat) :=
  (a, v) :: ((List.range n).drop 1).map fun i =>
    let b := a + 4 * i
    (b, (match s.held.get (fun _ => none) b with | some w => w | none => s.word b).toNat)

/-- The held upper words of a value are used up. -/
def dropHeld (a n : Nat) (s : State) : State := { s with held := s.held.clear (a + 4) (a + 4 * n) }

/-! ### The actions of registers -/

/-- The unit whose block an OP register controls, and the instance of AUD it names (R43). -/
def ctrlUnit (a : Nat) : Option (Nat × Nat) :=
  if 0x30000 ≤ a ∧ a < 0x40000 ∧ a % 0x1000 = 0 then some (24 + (a - 0x30000) / 0x1000, 0)
  else if a = 0x50000 then some (22, 0)
  else if 0x80000 ≤ a ∧ a < 0x90000 ∧ a % 0x4000 = 0 then some ((a - 0x80000) / 0x4000, 0)
  else if 0x100000 ≤ a ∧ a < 0x140000 ∧ a % 0x10000 = 0 then some (4 + (a - 0x100000) / 0x10000, 0)
  else if 0x160000 ≤ a ∧ a < 0x170000 ∧ a % 0x4000 = 0 then some (8 + (a - 0x160000) / 0x4000, 0)
  else if a = 0x180000 ∨ a = 0x184000 then some (12 + (a - 0x180000) / 0x4000, 0)
  else if a = 0x190000 then some (14, 0)
  else if a = 0x1C0000 then some (15, 0)
  else if a = 0x1D0000 ∨ a = 0x1D1000 then some (16 + (a - 0x1D0000) / 0x1000, 0)
  else if a = 0x1E0000 ∨ a = 0x1E4000 then some (18 + (a - 0x1E0000) / 0x4000, 0)
  else if 0x1F1000 ≤ a ∧ a < 0x1F2000 ∧ a % 0x100 = 0 then some (20, (a - 0x1F1000) / 0x100)
  else none

/-- The operation `op` of a unit's block starts it, so that its power domain must be on (R452). -/
def isStart (u op : Nat) : Bool := decide (op = 1) || (decide (op = 2) && decide (u < 4 ∨ u = 22))

/-- PILOT_CTRL.OP: 1 START, 2 STOP, 3 RESET (R95, R97, R502). -/
def pilotOp (s : State) (k op : Nat) : State :=
  if op = 1 then s.startPilot k else if op = 2 then s.stopPilot k else if op = 3 then s.resetPilot k else s

/-- The operation that unit `u`'s control register names. -/
def blockOp (s : State) (u p op : Nat) : State :=
  if u < 4 then s.srxOp u op
  else if u < 8 then s.pipeOp (u - 4) op
  else if u < 12 then s.encOp (u - 8) op
  else if u < 14 then s.decOp (u - 12) op
  else if u = 14 then s.lzeOp op
  else if u = 15 then s.scnOp op
  else if u < 18 then s.pcxOp (u - 16) op
  else if u < 20 then s.netOp (u - 18) op
  else if u = 20 then s.audOp p op
  else if u = 22 then s.logOp op
  else s.pilotOp (u - 24) op

/-- A write of a block's control register: a start waits for the block's power domain (R452, R456). -/
def ctrlAction (s : State) (u p a v : Nat) : State :=
  let op := bits v 31 28
  if isStart u op then s.startOp u p a v (fun s => s.blockOp u p op) else s.blockOp u p op

/-- The start operations that waited for the domain of unit `u` are performed. -/
def deferredOps (u : Nat) : List (Nat × Nat × Nat) → State → State
  | [], s => s
  | (w, a, v) :: l, s =>
    deferredOps u l (if w = u then match ctrlUnit a with | some (_, p) => s.blockOp u p (bits v 31 28) | none => s else s)

/-- SYS_OWN_REQ (R51 to R56). -/
def ownReq (s : State) (m v : Nat) : State :=
  let op := bits v 31 28
  if op = 1 then s.claim m (bits v 7 0)
  else if op = 2 then s.ownRelease m
  else if op = 3 then s.heartbeat m
  else if op = 4 then s.handover m (bits v 12 8)
  else s.ownResult m rBadArg

/-- SYS_TXN_STATUS shows the result of a request through SYS_TXN_CTRL. -/
def txnShow (r : State × Nat) : State := { r.1 with sys := { r.1.sys with txnResult := r.2 } }

/-- SYS_TXN_CTRL (R58, R62, R63, R66), for the harbourmaster. -/
def txnReq (s : State) (h v : Nat) : State :=
  let op := bits v 31 28
  if op = 1 then txnShow (s.txnBegin h)
  else if op = 2 then
    let r := s.commit h (s.fld2 Reg.SYS_TXN_TARGET_LO_TIDE_LO Reg.SYS_TXN_TARGET_HI_TIDE_HI) (bit v 0) (bit v 1)
    txnShow (r.1, r.2.1)
  else if op = 3 then txnShow (s.txnRollback h)
  else if op = 4 then txnShow (s.withdraw h (s.fld Reg.SYS_TXN_TICKET_TICKET))
  else txnShow (s, rBadArg)

/-- The transactions that a stopped schedule still holds land one by one before it starts (R69). -/
def landEach : Nat → State → State
  | 0, s => s
  | n + 1, s => match s.sys.landq with
    | [] => s
    | c :: _ => landEach n (s.landQueued none fun d => decide (d.ticket = c.ticket))

/-- TIME_CTRL.RUN moves from `old` to what it holds now (R69, R108). -/
def runWritten (s : State) (old : Bool) : State :=
  if s.running = old then s
  else if s.running then
    let s := landEach s.sys.landq.length s
    { s with time := { s.time with next := some (max s.anchor (s.firstTideAfter s.tideTime48)) } }
  else { s with time := { s.time with next := none } }.landStopped

/-- A write of word 0 of PTP engine `e`: the engine starts, or stops (R115, R119, R126; log entry 23). -/
def ptpWritten (s : State) (e : Nat) (old : Bool) : State :=
  if s.flag (Reg.PTP_EN e) then
    if old then s
    else
      let s := (s.setDom e { s.dom e with foreign := [], lastAnnounce := s.now }).setFld (Reg.PTP_PORT_STATE e)
        (if s.fld (Reg.PTP_ROLE e) = 1 then 6 else 4)
      s.roleState e
  else if old then (s.setFld (Reg.PTP_PORT_STATE e) 3).roleState e else s

/-- A write of word 0 of event pin `i`: a new MODE starts afresh (R124). -/
def evtWritten (s : State) (i old : Nat) : State :=
  let m := s.fld (Reg.EVT_MODE i)
  if m = old then s
  else
    let p := { s.evtPin i with armed := false, asserted := false }
    let s := s.setEvtPin i p
    if m = 4 then
      let at_ := ((s.schedTime s.tide).fdiv (2 ^ 48)).toNat + s.fld (Reg.EVT_OFFSET i)
      s.setEvtPin i { p with nextAt := if s.running ∧ s.evtNow i < at_ then s.tide else s.tide + 1 }
    else if m = 5 then s.setEvtPin i { p with nextAt := ceilDiv (s.evtNow i) 1000000000 }
    else s

/-- TIME and PTP. -/
def timeAction (old : State) (a v : Nat) (s : State) : State :=
  if a = 0x20000 then s.runWritten old.running
  else if a = 0x20038 then { s with time := { s.time with baseFrac := 0 } }
  else if a = 0x20200 then s.ptpWritten 0 (old.flag (Reg.PTP_EN 0))
  else if a = 0x20280 then s.ptpWritten 1 (old.flag (Reg.PTP_EN 1))
  else if a = 0x2030C then if bit v 0 then s.popEts 0 else s
  else if a = 0x2032C then if bit v 0 then s.popEts 1 else s
  else s

/-- PILOT: control, load and mail (R88, R95 to R97). -/
def pilotAction (m a v : Nat) (s : State) : State :=
  let k := (a - 0x30000) / 0x1000
  let o := (a - 0x30000) % 0x1000
  if o = 8 then s.pilotLoad k (bits v 15 0)
  else if 0x40 ≤ o ∧ o < 0x50 then s.postTo k 1 m ((o - 0x40) / 4) v
  else s

/-- The unit of a master's berth requests: the harbourmaster's 40, a pilot's own (R37). -/
def masterUnit (m : Nat) : Nat := if isPilotMaster m then 24 + (m - 16) else 40

/-- A berth command through FAB_BERTH_CMD starts: `op` 1 allocate, 2 free, 3 query, on its handle and arguments as they stand (R35 to R38, R501). -/
def berthCmd (s : State) (m op h : Nat) : State :=
  let base := s.fld Reg.FAB_BERTH_BASE_LO_BASE_LO + s.fld Reg.FAB_BERTH_BASE_HI_BASE_HI <<< 20
  let run : Option (State × Nat × Option Berth) :=
    if op = 1 then
      let r := s.allocate h base (s.fld Reg.FAB_BERTH_SIZE_PAGES) (s.fld Reg.FAB_BERTH_ATTR_FORMAT) (s.fld Reg.FAB_BERTH_ATTR_OWNER)
      some (r.1, r.2, none)
    else if op = 2 then let r := s.free (masterUnit m) h; some (r.1, r.2, none)
    else if op = 3 then let r := s.query h; some (s, r.2, r.1)
    else none
  match run with
  | none => s
  | some (t, r, q) => { t with fab := { t.fab with cmd := some ⟨op, h, r, q⟩ } }

/-- A query's outcome enters the argument and query registers (R38). -/
def showQuery (s : State) (b : Berth) : State :=
  let s := (s.setFld Reg.FAB_BERTH_BASE_LO_BASE_LO b.base).setFld Reg.FAB_BERTH_BASE_HI_BASE_HI (b.base >>> 20)
  let s := (s.setFld Reg.FAB_BERTH_SIZE_PAGES b.pages).setFld Reg.FAB_BERTH_ATTR_REFCOUNT b.count
  let s := ((s.setFld Reg.FAB_BERTH_ATTR_STATE (stCode b.st)).setFld Reg.FAB_BERTH_ATTR_OWNER b.owner).setFld Reg.FAB_BERTH_ATTR_FORMAT b.format
  (List.range 8).foldl (fun (s : State) i => s.setFld (Reg.FAB_BERTH_MAN_WORD i) (b.man.wordAt i)) s

/-- A running berth command ends (R501). -/
def berthCmdEnd (s : State) : State :=
  match s.fab.cmd with
  | none => s
  | some c =>
    let s := { s with fab := { s.fab with cmd := none } }.setFld Reg.FAB_BERTH_CMD_RESULT c.result
    match c.query with | some b => s.showQuery b | none => s

/-- A write of FAB_AP_HANDLE: the old berth is released and the new one acquired (R40). -/
def apHandle (s : State) (old new : Nat) : State :=
  if old = new then s
  else
    let s := if old = 0 then s else s.releaseTable 40 old
    if new = 0 then s
    else match s.acquire 40 new with
      | (s, true) => s
      | (s, false) => (s.setFld Reg.FAB_AP_HANDLE_HANDLE 0).setBitsOf 0x6020C 1

/-- FAB. -/
def fabAction (old : State) (m a v : Nat) (s : State) : State :=
  if a = 0x60100 then s.berthCmd m (bits v 19 16) (bits v 15 0)
  else if a = 0x60200 then s.apHandle (old.fld Reg.FAB_AP_HANDLE_HANDLE) (bits v 15 0)
  else s

/-- A write of aperture word `i` (R39, R40). -/
def apertureWrite (s : State) (i v : Nat) : State :=
  let h := s.fld Reg.FAB_AP_HANDLE_HANDLE
  let ofs := s.apBase + 4 * i
  let t := s.writeBerth 40 h ofs (bytesLE 4 v)
  if s.accessCause 40 h ofs 4 = 0 then t else t.setBitsOf 0x6020C 2

/-- SEC and LOG. -/
def secLogAction (m a v : Nat) (env : WriteEnv) (s : State) : State :=
  if a = 0x40000 then match env.burnt with
    | some b => s.secCmd m v b
    | none => s.nextFree.secCmd m v (decide (s.freeVal % 2 = 1))
  else if a = 0x40030 then s.secPush (bits v 15 0)
  else if a = 0x5001C then s.logPush logOutQ ⟨bits v 15 0, 0, false⟩
  else if a = 0x50020 then s.logPush logInQ ⟨bits v 15 0, 0, false⟩ |>.logPump
  else if 0x50030 ≤ a ∧ a < 0x50040 then s.logPush (logFeedQ ((a - 0x50030) / 4)) ⟨bits v 15 0, bits v 31 16, false⟩
  else s

/-- SRX, PIPE and STAT. -/
def cameraAction (old : State) (a v : Nat) (s : State) : State :=
  if a < 0x90000 then
    let p := (a - 0x80000) / 0x4000
    let o := (a - 0x80000) % 0x4000
    let i := (o - 0x1000) / 0x40
    if o = 0x30 then s.srxFqPush p (bits v 15 0) (bits v 31 16)
    else if o = 0x80 ∨ o = 0x90 then s.gpioConflict (s.fld (Reg.SRX_SYNC_PIN p ((o - 0x80) / 0x10)))
    else if 0x1000 ≤ o ∧ o < 0x2000 ∧ o % 0x40 = 0 then s.laneCfgWritten p i (old.fld (Reg.LANE_CFG_PRBS p i)) (bit v 26)
    else if 0x1000 ≤ o ∧ o < 0x2000 ∧ o % 0x40 = 8 then if bit v 0 then s.laneSlip p i else s
    else s
  else if a < 0x140000 then
    let i := (a - 0x100000) / 0x10000
    let o := (a - 0x100000) % 0x10000
    if o = 8 then s.pipeInPush i (bits v 15 0) (bits v 31 16)
    else if o = 0x8044 then s.pipeRawPush i (bits v 15 0)
    else if 0x8100 ≤ o ∧ o < 0x8280 ∧ o % 0x80 = 0x60 then s.pipeOutPush i ((o - 0x8100) / 0x80) (bits v 15 0)
    else s
  else if a % 0x1000 = 0x30 then s.statPush ((a - 0x140000) / 0x1000) (bits v 15 0)
  else s

/-- CAL, ENC, DEC and LZE. -/
def codecAction (a v : Nat) (s : State) : State :=
  let h := bits v 15 0
  if a = 0x150000 then if bits v 31 28 = 1 then s.calRunCmd (bits v 5 0) else s
  else if a = 0x15004C then s.ffCmd v
  else if 0x160000 ≤ a ∧ a < 0x170000 then
    let e := (a - 0x160000) / 0x4000
    let o := (a - 0x160000) % 0x4000
    let w := o % 0x100
    if 0x100 ≤ o ∧ o < 0x500 ∧ (w = 0x30 ∨ w = 0x34 ∨ w = 0x38) then s.encPush e ((o - 0x100) / 0x100) ((w - 0x30) / 4) h else s
  else if 0x180000 ≤ a ∧ a < 0x188000 then
    let d := (a - 0x180000) / 0x4000
    let o := (a - 0x180000) % 0x4000
    if o = 0x18 then s.decInPush d h else if o = 0x1C then s.decOutPush d h else if o = 0x20 then s.decDpbPush d h else s
  else if a = 0x190010 then s.lzePush 0 h (bits v 31 16)
  else if a = 0x190014 then s.lzePush 1 h (bits v 31 16)
  else if a = 0x190120 then if bit v 0 then s.lzePop 0 else s
  else if a = 0x190160 then if bit v 0 then s.lzePop 1 else s
  else s

/-- MEM and SCN. -/
def memScnAction (a v : Nat) (s : State) : State :=
  if a < 0x1B8000 then if a % 0x4000 = 0 ∧ bits v 31 28 = 1 then s.memRetrain ((a - 0x1A0000) / 0x4000) else s
  else if a = 0x1B8010 then s.memXlate
  else if a < 0x1C0000 then if 0x1B8100 ≤ a ∧ a % 0x10 = 0 then s.quayWritten else s
  else if a = 0x1C002C then if bit v 0 then s.scnLoad else s
  else if 0x1C2000 ≤ a ∧ a < 0x1C2800 ∧ a % 0x80 = 0x24 then s.scnPush ((a - 0x1C2000) / 0x80) (bits v 15 0)
  else s

/-- PCX. -/
def pcxAction (old : State) (a v : Nat) (s : State) : State :=
  if a < 0x1D2000 then
    let p := (a - 0x1D0000) / 0x1000
    let o := (a - 0x1D0000) % 0x1000
    let w := (o - 0x50) / 4
    if 0x50 ≤ o ∧ o < 0x60 then s.epWindow p w (old.fld (Reg.PCX_EP_WIN_HANDLE p w)) (bits v 15 0)
    else if o = 0x60 then s.epIrq p v else s
  else if a < 0x1D3000 then if a % 0x100 = 0 then s.driveOp ((a - 0x1D2000) / 0x100) (bits v 31 28) else s
  else
    let w := (a - 0x1D3000) / 0x100
    if a % 0x100 = 0 then s.volOp w (bits v 31 28)
    else if a % 0x100 = 0x28 then s.volPush w (bits v 15 0) (bits v 31 16) else s

/-- The port that carries the messages of session `i`. -/
def sessPort (s : State) (i : Nat) : Nat := s.fld (Reg.NET_HCP_SESS_PORT i)

/-- The 16-byte header of an HCP message (R369). -/
def hcpHead (type session flags len seq addressed : Nat) : List Byte :=
  [0x48, 0x43, 1, BitVec.ofNat 8 type, BitVec.ofNat 8 session, BitVec.ofNat 8 flags] ++ bytesLE 2 len ++ bytesLE 4 seq ++ bytesLE 2 addressed ++ zeros 2

/-- A message of Daxma to session `i` as it leaves port `q`: the header is the AAD, the body is encrypted (R418); the array ID it names is free (log entry 24). -/
def hcpSeal (s : State) (q i type : Nat) (reply : Bool) (seq : Nat) (body : List Byte) : HcpOut :=
  let x := s.hcpSess i
  let nonce := x.saltD ++ [if reply then 0 else 1] ++ zeros 3 ++ bytesLE 4 seq
  let head := hcpHead type i (b01 reply) body.length seq (s.freeVal % 65536)
  let out := gcmSeal x.d2c nonce head body
  ⟨q, i, type, reply, seq, body, out.1 ++ out.2⟩

/-- A device message to session `i`, under Daxma's own count (R373, R418). -/
def deviceMsg (s : State) (i type : Nat) (body : List Byte) : State :=
  let x := s.hcpSess i
  let o := s.hcpSeal (s.sessPort i) i type false x.sent body
  (s.setHcpSess i { x with sent := (x.sent + 1) % 2 ^ 32 }).nextFree.hcpSend o

/-- A write of NET_HCP_SEND BODY_LO: a pilot's message leaves, when its session is open (R373). -/
def hcpSendReg (s : State) : State :=
  let i := s.fld Reg.NET_HCP_SEND_SESSION
  let t := s.fld Reg.NET_HCP_SEND_TYPE
  if s.fld (Reg.SEC_SESS_STATE i) = 2 ∧ 0x80 ≤ t ∧ t < 0xC0 then
    s.deviceMsg i t (bytesLE 8 (s.fld2 Reg.NET_HCP_SEND_BODY_LO Reg.NET_HCP_SEND_BODY_HI))
  else s

/-- NET and HCP. -/
def netAction (a v : Nat) (s : State) : State :=
  if a = 0x1E8014 then s.hcpSendReg
  else if 0x1E8000 ≤ a then s
  else
    let q := (a - 0x1E0000) / 0x4000
    let o := (a - 0x1E0000) % 0x4000
    if 0x1000 ≤ o ∧ o < 0x1800 ∧ o % 0x40 = 0x24 then s.netTxPush q ((o - 0x1000) / 0x40) (bits v 15 0)
    else if 0x2000 ≤ o ∧ o < 0x2400 ∧ o % 0x40 = 0x10 then s.netRxPush q ((o - 0x2000) / 0x40) (bits v 15 0)
    else s

/-- AUD. -/
def audAction (old : State) (a v : Nat) (s : State) : State :=
  if a < 0x1F1000 then
    let g := (a - 0x1F0100) / 0x20
    if a % 0x20 = 0 then
      s.scgConfig g (old.fld (Reg.AUD_SCG_CFG_EN g)) (old.fld (Reg.AUD_SCG_CFG_CLK g)) (old.fld (Reg.AUD_SCG_CFG_DOMAIN g))
    else s
  else if a % 0x100 = 0x20 then s.audPush ((a - 0x1F1000) / 0x100) (bits v 15 0)
  else s

/-- TWB (R396, R399, R400). -/
def twbAction (a v : Nat) (env : WriteEnv) (s : State) : State :=
  let b := (a - 0x1F8000) / 0x200
  let o := (a - 0x1F8000) % 0x200
  if o = 0 then match env.line with
    | some l => s.twbOp b (bits v 31 28) l
    | none => s.nextFree.twbOp b (bits v 31 28) (s.shownLine b)
  else if o = 0x10 then if bit v 31 then s.twbGo b (bit v 30) (bits v 25 16) (bits v 11 8) (bits v 3 0) else s
  else if o = 0x34 then if bit v 31 then s.twbAlert b else s
  else s

/-- GPIO and EVT (R124, R404 to R407). -/
def gpioEvtAction (old : State) (a v : Nat) (s : State) : State :=
  if a < 0x1FC280 then s.gpioConflict ((a - 0x1FC000) / 4)
  else if 0x1FC400 ≤ a ∧ a < 0x1FC460 then { s with regs := s.regs.set resetWord (0x1FC400 + a % 0x20) (old.word (0x1FC400 + a % 0x20)) }.gpioWrite
    (a % 0x20 / 4) ((a - 0x1FC400) / 0x20) v
  else if 0x1FC480 ≤ a ∧ a < 0x1FC4A0 then s.gpioResume (a % 0x20 / 4) v
  else if a < 0x1FE000 then s
  else
    let i := (a - 0x1FE000) / 0x40
    let o := (a - 0x1FE000) % 0x40
    if o = 0 then s.evtWritten i (old.fld (Reg.EVT_MODE i))
    else if o = 4 then s.evtArm i
    else if o = 0x24 then if bit v 0 then s.setEvtPin i { s.evtPin i with queue := (s.evtPin i).queue.tail } else s
    else if o = 0x28 then
      let s := s.setFld (Reg.EVT_PAD_CLEAR i) 0
      if bit v 28 then s.evtResume i else s
    else s

/-- PWR (R454, R456, R458, R459). -/
def pwrAction (old : State) (a v : Nat) (s : State) : State :=
  if a = 0x10000 then s.pwrOp v
  else if a = 0x1000C then s.pwrBlock (bits v 5 0)
  else if a = 0x10010 then if s.flag Reg.PWR_WDOG_EN && !old.flag Reg.PWR_WDOG_EN then s.wdogRestart else s
  else if a = 0x10014 then s.wdogKick (bits v 15 0)
  else s

/-- What the write of `v` to word `a` starts; `old` is the state before it. -/
def action (old : State) (m a v : Nat) (env : WriteEnv) (s : State) : State :=
  match ctrlUnit a with
  | some (u, p) => s.ctrlAction u p a v
  | none =>
    if a = 0x104 then s.ownReq m v
    else if a = 0x200 then s.txnReq m v
    else if a < 0x10000 then s
    else if a < 0x20000 then pwrAction old a v s
    else if a < 0x30000 then timeAction old a v s
    else if a < 0x40000 then pilotAction m a v s
    else if a < 0x60000 then secLogAction m a v env s
    else if a < 0x80000 then fabAction old m a v s
    else if a < 0x150000 then cameraAction old a v s
    else if a < 0x1A0000 then codecAction a v s
    else if a < 0x1D0000 then memScnAction a v s
    else if a < 0x1E0000 then pcxAction old a v s
    else if a < 0x1F0000 then netAction a v s
    else if a < 0x1F8000 then audAction old a v s
    else if a < 0x1FC000 then twbAction a v env s
    else gpioEvtAction old a v s

/-! ### A write -/

/-- Writes that a register ignores whole: FAB_BERTH_CMD while BUSY (R501). -/
def ignored (s : State) (a : Nat) : Bool := decide (a = 0x60100) && s.fab.cmd.isSome

/-- A write that would make a second two-wire bus MODE 4 (R394). -/
def secondTarget (s : State) (a v : Nat) : Bool :=
  decide (0x1F8000 ≤ a ∧ a < 0x1F9000 ∧ a % 0x200 = 4 ∧ v % 8 = 4) &&
    (List.range 8).any fun b => decide (b ≠ (a - 0x1F8000) / 0x200) && decide (s.twbMode b = 4)

/-- The write of the lowest word, or of the one word, of a value (R11 to R13). -/
def writeValue (s : State) (m a v n : Nat) (env : WriteEnv) : State :=
  let fs := fieldsAt a
  let ws := (s.wideWords a (clampWrite a v) n)
  let lock := s.xLocked a v
  let t := dropHeld a n s
  if lock && onlyX fs then t.xReject a
  else
    let t := if t.replaying then t else t.writeT m (tWrites ws)
    let t := if lock && s.changesX a v fs then t.xReject a else t
    let t := ws.foldl (fun (t : State) w => putFields lock w.1 w.2 (fieldsAt w.1) t) t
    action s m a v env t

/-- A write of the mapped word `a` is performed (R7, R8, R11 to R13). -/
def performWrite (s : State) (m a v : Nat) (env : WriteEnv) : State :=
  if 0x68000 ≤ a ∧ a < 0x69000 then s.apertureWrite ((a - 0x68000) / 4) v
  else if !(fieldsAt a).any isWritable || s.ignored a then s
  else if s.secondTarget a v then s.twbRaise ((a - 0x1F8000) / 0x200) 256
  else
    let (i, n) := wideOf a
    if i ≠ 0 then { s with held := s.held.set (fun _ => none) a (some (BitVec.ofNat 32 v)) }
    else s.writeValue m a v n env

/-- Master `m` may write word `a` now (R48 to R50, R439). -/
def mayWrite (s : State) (m a : Nat) (env : WriteEnv) : Bool :=
  env.replayed || isPilotMaster m ||
    (if a = 0x104 then isControlMaster m
     else decide (m ≠ 0) && decide (s.sys.owner = m) && (!s.replaying || decide (0x50000 ≤ a ∧ a < 0x60000)))

/-- A word whose write the logbook keeps: one with a field of class L or X, or a W1C, W1S or WO action, but never SEC_CMD_DATA (R432, R433). -/
def logsWrite (a : Nat) : Bool :=
  !decide (0x40400 ≤ a ∧ a < 0x40800) && (decide (0x68000 ≤ a ∧ a < 0x69000) ||
    (fieldsAt a).any fun f => isWritable f && decide (f.cls ≠ .t))

/-- The address starts a program load (R50). -/
def isLoad (a : Nat) : Bool := decide (0x30000 ≤ a ∧ a < 0x40000 ∧ a % 0x1000 = 8)

/-- The WRITE record of a control master's write (R432, R435). -/
def writeRec (s : State) (m a v sub : Nat) : State :=
  if isControlMaster m && logsWrite a then s.logRec 0x07 m sub [a + v <<< 32] else s

/-- A control-space write by master `m` (R6, R12, R49, R50): partial, misaligned and outside writes do nothing. -/
def controlWrite (s : State) (m a be v : Nat) (env : WriteEnv) : State :=
  if be ≠ 15 ∨ a % 4 ≠ 0 ∨ 0x4000000 ≤ a then s
  else if s.mayWrite m a env then (s.writeRec m a v 0).performWrite m a v env
  else (s.writeRec m a v 1).reject m a (isLoad a)

/-- A whole-word write that brings no facts of its own. -/
def wordWrite (s : State) (m a v : Nat) : State := s.controlWrite m a 15 v .plain

end State

end Sys2Proof.Machine
end

