-- ==== Sys2Proof/Machine/Access.lean ====
section
/-! DEFINITION. Reads and writes of control space as commands, and the commands of the fabric, the berth table and ownership that no write starts (R5 to R20, R34 to R40, R53, R55, R69, R501). -/

namespace Sys2Proof.Machine

namespace State

/-- A control-space read as a command: what it returned is the response. -/
def readCmd (s : State) (m a be : Nat) : State :=
  let r := s.controlRead m a be
  { r.1 with rsp := r.2 }

/-- A parcel of unit `u` arrives over a hop: its payload and manifest enter the berth (R34); the VC that a starvation limit favoured has had its slot (R19). -/
def parcelArrives (s : State) (hop : Nat) (p : Parcel) : State :=
  let s := if s.fab.starve.get (fun _ => 0) hop = p.vc.val + 1 then
      { s with fab := { s.fab with starve := s.fab.starve.set (fun _ => 0) hop 0 } } else s
  s.emit p.source.val p.man p.offset p.payload

/-- A unit's read request on its quay; a refused one is recorded and will return zeros (R16, R39). -/
def quayRead (s : State) (q u h ofs len : Nat) : State :=
  let c := s.accessCause u h ofs len
  let s := if c = 0 then s else s.berthFault u h c
  { s with fab := { s.fab with reads := s.fab.reads ++ [⟨q, u, h, ofs, len, decide (c = 0)⟩] } }

/-- Uncorrectable errors in the 64-byte units `is` of a read from address `a` on (R312). -/
def readErrors (a : Nat) : List Nat → State → State
  | [], s => s
  | i :: is, s => readErrors a is (s.memUncorr (a + 64 * i))

/-- The oldest read of quay `q` returns its data, and with it the berth manifest (R16). -/
def quayData (s : State) (q : Nat) (bad : List Nat) : State :=
  match s.fab.reads.find? fun (r : QuayReq) => decide (r.quay = q) with
  | none => s
  | some r =>
    let a := (s.berth r.handle).base * 4096 + r.ofs
    let s := if r.ok then readErrors (a / 64 * 64) (bad.filter fun i => decide (64 * i < r.len + a % 64)) s else s
    { s with fab := { s.fab with
        reads := s.fab.reads.erase r
        readData := if r.ok then s.memRead a r.len else zeros r.len
        readMan := if r.ok then (s.berth r.handle).man else {} } }

/-- A waiting claim whose time has passed fails (R53). -/
def claimTimeout (s : State) (m : Nat) : State :=
  if s.sys.waits.any fun (w : Claim) => decide (w.master = m) && decide (w.deadline ≤ s.now) then
    let s := s.ownResult m rClaimTimeout
    { s with sys := { s.sys with waits := s.sys.waits.filter fun (w : Claim) => !decide (w.master = m) } }
  else s

/-- The lease of the owner ends (R55). -/
def leaseExpiry (s : State) : State := if s.sys.owner ≠ 0 ∧ s.sys.leaseEnd ≤ s.now then s.lapse else s

end State

/-- REGISTER_WRITE (R6, R12, R50). -/
def execRegisterWrite (m : Fin 32) (addr : BitVec 32) (be : BitVec 4) (v : Word) (s : State) : Res :=
  .next (s.controlWrite m addr.toNat be.toNat v.toNat .plain)

/-- RC_READ (R8, R9). -/
def execRcRead (m : Fin 32) (addr : BitVec 32) (be : BitVec 4) (s : State) : Res := .next (s.readCmd m addr.toNat be.toNat)

/-- WIDE_VALUE_READ (R11). -/
def execWideValueRead (m : Fin 32) (addr : BitVec 32) (be : BitVec 4) (s : State) : Res := .next (s.readCmd m addr.toNat be.toNat)

/-- PARCEL_WRITE (R15, R34, R39). -/
def execParcelWrite (hop : Nat) (p : Parcel) (s : State) : Res := .next (s.parcelArrives hop p)

/-- QUAY_READ (R16, R39). -/
def execQuayRead (q : Fin 48) (u : Fin 45) (h : BitVec 16) (ofs len : Nat) (s : State) : Res :=
  .next (s.quayRead q u h.toNat ofs len)

/-- QUAY_READ_DATA (R16, R312): `bad` names the 64-byte units of the read with an uncorrectable error. -/
def execQuayReadData (q : Fin 48) (bad : List (Fin 16384)) (s : State) : Res := .next (s.quayData q (bad.map (·.val)))

/-- STARVE_LIMIT_EXPIRY (R19): the VC wins the next slot of the hop. -/
def execStarveLimitExpiry (hop : Nat) (vc : Fin 4) (s : State) : Res :=
  .next { s with fab := { s.fab with starve := s.fab.starve.set (fun _ => 0) hop (vc.val + 1) } }

/-- BERTH_CMD_DONE (R501). -/
def execBerthCmdDone (s : State) : Res := .next s.berthCmdEnd

/-- BERTH_ACQUIRE (R36). -/
def execBerthAcquire (u : Fin 45) (h : BitVec 16) (s : State) : Res := .next (s.acquire u h.toNat).1

/-- BERTH_RELEASE (R36). -/
def execBerthRelease (u : Fin 45) (h : BitVec 16) (s : State) : Res := .next (s.release u h.toNat)

/-- AP_DATA_READ (R40, R47). -/
def execApDataRead (m : Fin 32) (i : Fin 1024) (s : State) : Res := .next (s.readCmd m (0x68000 + 4 * i.val) 15)

/-- CLAIM_TIMEOUT (R53). -/
def execClaimTimeout (m : Fin 32) (s : State) : Res := .next (s.claimTimeout m)

/-- LEASE_EXPIRY (R55). -/
def execLeaseExpiry (s : State) : Res := .next s.leaseExpiry

/-- LANDING_NO_TIDES (R69). -/
def execLandingNoTides (s : State) : Res := .next s.landNow

end Sys2Proof.Machine
end

