-- ==== Sys2Proof/Machine/Cst.lean ====
section
/-! DEFINITION. The pilots' accesses to control space, CLD and CST (R80, R83), and the WRITE records that replay performs (R439). -/

namespace Sys2Proof.Machine

/-- A register of the berth aperture: offsets 0x0200 to 0x020F and 0x8000 to 0x8FFF of FAB (R83). -/
def isAperture (a : Nat) : Bool := decide (0x60200 ≤ a ∧ a < 0x60210) || decide (0x68000 ≤ a ∧ a < 0x69000)

/-- A register that only the harbourmaster may write (R83). -/
def ownerOnly (a : Nat) : Bool :=
  decide (a = 0x104) || decide (a = 0x200) || decide (a = 0x15004C) ||
  (decide (0x30000 ≤ a ∧ a < 0x40000) && (decide (a % 0x1000 = 0) || decide (a % 0x1000 = 8))) ||
  (decide (0x1A0000 ≤ a ∧ a < 0x1B8000) && decide (a % 0x4000 = 0)) ||
  decide (a = 0x10000) || decide (a = 0x10010) || decide (0x10020 ≤ a ∧ a < 0x10034) || decide (a = 0x10040) || decide (a = 0x10044) ||
  decide (a = 0x10054) || decide (a = 0x10060)

/-- An address that raises CTRL for CLD and CST alike (R83). -/
def ctrlAddr (a : Nat) : Bool := decide (a % 4 ≠ 0) || decide (0x4000000 ≤ a) || isAperture a

namespace State

/-- The WRITE record that replay performs next: the first of the present tide that was performed (R439). -/
def dueWrite (s : State) : Option LogRec :=
  s.log.replay.find? fun (r : LogRec) => decide (r.typ = 7) && decide (r.sub = 0) && decide (r.tide = s.tide)

/-- A logged WRITE is performed as its master; one of a word that only a read acts on clears its RC fields (R432, R439). -/
def replayWrite (s : State) : State :=
  if !s.replaying then s
  else match s.dueWrite with
    | none => s
    | some r =>
      let s := { s with log := { s.log with replay := s.log.replay.erase r } }
      let a := r.body.headD 0 % 2 ^ 32
      let v := r.body.headD 0 >>> 32
      if (fieldsAt a).any isWritable || decide (0x68000 ≤ a ∧ a < 0x69000) then s.controlWrite r.src a 15 v { replayed := true }
      else (s.controlRead r.src a 15).1

end State

/-- CLD (R80, R83, R92). -/
def execCld (k : Fin 16) (g : Guard) (f : FmtI) (s : State) : Res :=
  .next (s.issue k (wordI 0x10 g f) g fun s =>
    let a := s.ea k f
    if ctrlAddr a.toNat then .exc 6 a
    else s.logged k 0x10 f.rd fun s =>
      let r := s.controlRead (16 + k.val) a.toNat 15
      (r.1, r.2.toNat))

/-- CST (R80, R83). -/
def execCst (k : Fin 16) (g : Guard) (f : FmtI) (s : State) : Res :=
  .next (s.issue k (wordI 0x11 g f) g fun s =>
    let a := s.ea k f
    if ctrlAddr a.toNat || ownerOnly a.toNat then .exc 6 a
    else .retire (s.wordWrite (16 + k.val) a.toNat ((s.xreg k f.rd).toNat % 2 ^ 32)))

/-- REPLAY_WRITE (R439). -/
def execReplayWrite (s : State) : Res := .next s.replayWrite

end Sys2Proof.Machine
end

