-- ==== Sys2Proof/Machine/Hcp.lean ====
section
/-! DEFINITION. HCP messages of open sessions and of the array (R369 to R375, R416 to R419): authentication, sequence, execution and reply. -/

namespace Sys2Proof.Machine

/-- A reply: its message type and body (R370). -/
abbrev HcpReply := Nat × List Byte

/-- ACK (R370). -/
def ack (r n : Nat) : HcpReply := (0x06, bytesLE 1 r ++ zeros 1 ++ bytesLE 2 n)

namespace State

/-! ### What each message does, as session `i` -/

/-- The words a READ returns, each read under R6. -/
def readWords (m : Nat) : Nat → Nat → State → State × List Byte
  | 0, _, s => (s, [])
  | n + 1, a, s =>
    let (s, v) := s.controlRead m a 15
    let (s, l) := readWords m n (a + 4) s
    (s, bytesLE 4 v.toNat ++ l)

/-- READ: 1 to 256 words (R370). -/
def hcpReadMsg (s : State) (i : Nat) (b : List Byte) : State × Option HcpReply :=
  let n := hdrAt b 4 2
  if b.length ≠ 8 ∨ n = 0 ∨ 256 < n then (s, some (0x04, bytesLE 1 rBadArg ++ zeros 3))
  else
    let (s, l) := readWords (8 + i) n (hdrAt b 0 4) s
    (s, some (0x04, bytesLE 1 rOk ++ zeros 1 ++ bytesLE 2 n ++ l))

/-- The words of a WRITE in order, and how many of them the session may perform (R50). -/
def writeWords (m : Nat) : Nat → Nat → List Byte → State → State × Nat
  | 0, _, _, s => (s, 0)
  | n + 1, a, b, s =>
    let ok := s.mayWrite m a .plain && decide (a % 4 = 0 ∧ a < 0x4000000)
    let s := s.wordWrite m a (hdrAt b 0 4)
    let (s, k) := writeWords m n (a + 4) (b.drop 4) s
    (s, k + b01 ok)

/-- WRITE: 1 to 256 words (R370). -/
def hcpWriteMsg (s : State) (i : Nat) (b : List Byte) : State × Option HcpReply :=
  let n := hdrAt b 4 2
  if n = 0 ∨ 256 < n ∨ b.length ≠ 8 + 4 * n then (s, some (ack rBadArg 0))
  else
    let (s, k) := writeWords (8 + i) n (hdrAt b 0 4) (b.drop 8) s
    let bad := decide (hdrAt b 0 4 % 4 ≠ 0 ∨ 0x4000000 < hdrAt b 0 4 + 4 * n)
    (s, some (ack (if k = n then rOk else if bad then rBadArg else rNotOwner) k))

/-- The result of the master's last ownership request. -/
def ownAnswer (s : State) (m : Nat) : Nat := s.sys.results.get (fun _ => 0) m

/-- OWN: an ownership operation; a claim names the session itself (R370, R416). -/
def hcpOwnMsg (s : State) (i : Nat) (b : List Byte) : State × Option HcpReply :=
  let s := s.ownReq (8 + i) ((hdrAt b 0 1 % 16) <<< 28 + (hdrAt b 1 1 % 32) <<< 8 + i)
  (s, some (ack (s.ownAnswer (8 + i)) 0))

/-- HEARTBEAT (R55, R370). -/
def hcpHeartbeatMsg (s : State) (i : Nat) : State × Option HcpReply :=
  let s := s.heartbeat (8 + i)
  (s, some (ack (s.ownAnswer (8 + i)) 0))

/-- TXN_REPLY; ticket and target tide stand for a commit and are free otherwise (log entry 24). -/
def txnReply (s : State) (r : Nat) (ticket target : Option Nat) : State × Option HcpReply :=
  (s.nextFree, some (0x0A, bytesLE 1 r ++ zeros 3 ++ bytesLE 4 (ticket.getD s.freeVal) ++ bytesLE 8 (target.getD s.freeVal)))

/-- TXN: a transaction operation of the harbourmaster, on the message's own target and ticket (R58 to R66, R370); for any other session R50. -/
def hcpTxnMsg (s : State) (i : Nat) (b : List Byte) : State × Option HcpReply :=
  let m := 8 + i
  let op := hdrAt b 0 1
  let next := bit (hdrAt b 1 1) 0
  let later := bit (hdrAt b 1 1) 1
  let ticket := hdrAt b 4 4
  let tide := hdrAt b 8 8
  if !s.mayWrite m 0x200 .plain then (s.reject m 0x200 false).txnReply rNotOwner none none
  else if op = 1 then
    let r := s.txnBegin m
    (txnShow r).txnReply r.2 none none
  else if op = 2 then
    let r := s.commit m (tide % 2 ^ 48) next later
    (txnShow (r.1, r.2.1)).txnReply r.2.1 (if r.2.1 = rOk then some r.2.2 else none)
      (if r.2.1 = rOk then some (s.commitTarget (tide % 2 ^ 48) next later).1 else none)
  else if op = 3 then
    let r := s.txnRollback m
    (txnShow r).txnReply r.2 none none
  else if op = 4 then
    let r := s.withdraw m ticket
    (txnShow r).txnReply r.2 (some ticket) none
  else (txnShow (s, rBadArg)).txnReply rBadArg none none

/-- The ticket of a WITHDRAW_LIST's entry for array ID `d`. -/
def listTicket (d : Nat) (b : List Byte) : Nat → Option Nat
  | 0 => none
  | n + 1 => if hdrAt b 0 2 = d then some (hdrAt b 4 4) else listTicket d (b.drop 8) n

/-- WITHDRAW_LIST: the ticket in the entry with the device's own array ID; a device with no entry does nothing (R374). -/
def hcpListMsg (s : State) (i : Nat) (b : List Byte) : State × Option HcpReply :=
  let m := 8 + i
  match listTicket (s.fld Reg.SYS_ARRAY_ID_ID) (b.drop 4) (min (hdrAt b 0 4) (b.length / 8)) with
  | none => (s, none)
  | some t =>
    if !s.mayWrite m 0x200 .plain then (s.reject m 0x200 false).txnReply rNotOwner (some t) none
    else
      let r := s.withdraw m t
      (txnShow r).txnReply r.2 (some t) none

/-- CLOSE: no reply (R372). -/
def hcpCloseMsg (s : State) (i : Nat) : State × Option HcpReply := (s.closeSession i, none)

/-- The dockets that wait in the pilots' queues. -/
def allArrivals (s : State) : Nat := ((List.range 16).map fun k => (s.pilot k).arrivals.length).sum

/-- A pilot message becomes an HCP_CMD docket (R373). -/
def hcpPilotMsg (s : State) (i type : Nat) (b : List Byte) : State × Option HcpReply :=
  let t := s.post 2 (8 + i) type (ofBytesLE (b.take 8))
  (t, some (ack (if s.allArrivals < t.allArrivals then rOk else rBadArg) 0))

/-! ### Authentication, sequence and reply -/

/-- The header of a received message, as its tag covers it (R369, R418). -/
def msgHead (type : Nat) (msg : HcpMsg) : List Byte :=
  hcpHead type msg.session.toNat 0 msg.body.length msg.seq.toNat msg.addressed.toNat

/-- What a message does: its session and its plain body to a reply. -/
abbrev HcpRun := State → Nat → List Byte → State × Option HcpReply

/-- A message of session `i` whose tag verified (R371, R418): executed, answered again, or discarded by its sequence. -/
def sessionMsg (s : State) (q i seq : Nat) (plain : List Byte) (run : HcpRun) : State :=
  let s := s.setHcpSess i { s.hcpSess i with validAt := s.now }
  let s := if s.fld (Reg.SEC_SESS_STATE i) = 1 then s.showSess i 2 else s
  let x := s.hcpSess i
  match x.last with
  | some l =>
    if seq < l then s.count Reg.NET_HCP_CNT_DUP
    else if seq = l then
      let s := s.count Reg.NET_HCP_CNT_DUP
      match x.stored with | some o => s.hcpSend o | none => s
    else go s
  | none => go s
where
  /-- The message is executed, and its reply sent and kept. -/
  go (s : State) : State :=
    let r := run s i plain
    let s := r.1
    let o := r.2.map fun e => s.hcpSeal q i e.1 true seq e.2
    let s := if s.fld (Reg.SEC_SESS_STATE i) = 0 then s else s.setHcpSess i { s.hcpSess i with last := some seq, stored := o }
    match o with | some o => s.nextFree.hcpSend o | none => s

/-- The instant at which the reply to an array message is sent (R375): array ID × SPREAD_NS later. -/
def arrayAt (s : State) : Nat := s.now + nsCycles (s.fld Reg.SYS_ARRAY_ID_ID * (s.fld Reg.NET_ARRAY_SPREAD_NS * 10))

/-- A reply to an array message waits for its instant. -/
def replyLater (s : State) (o : HcpOut) : State := { s with hcp := { s.hcp with later := s.hcp.later ++ [(s.arrayAt, o)] } }

/-- An array message whose tag verified (R371, R374): a sequence of its own, executed as session `i`. -/
def arrayMsg (s : State) (q i seq : Nat) (plain : List Byte) (run : HcpRun) : State :=
  match s.hcp.arrayLast with
  | some l =>
    if seq < l then s.count Reg.NET_HCP_CNT_DUP
    else if seq = l then
      let s := s.count Reg.NET_HCP_CNT_DUP
      match s.hcp.arrayStored with | some o => s.replyLater o | none => s
    else go s
  | none => go s
where
  /-- The message is executed, and its reply kept until its instant. -/
  go (s : State) : State :=
    let s := s.setHcpSess i { s.hcpSess i with validAt := s.now }
    let r := run s i plain
    let s := r.1
    let o := r.2.map fun e => s.hcpSeal q i e.1 true seq e.2
    let s := { s with hcp := { s.hcp with arrayLast := some seq, arrayStored := o } }
    match o with | some o => s.nextFree.replyLater o | none => s

/-- An HCP message arrives on port `q` (R369, R374, R418). -/
def hcpMsg (s : State) (q type : Nat) (msg : HcpMsg) (run : HcpRun) : State :=
  let seq := msg.seq.toNat
  let head := msgHead type msg
  if !s.netLink q then s
  else if msg.session.toNat = 0xFF then
    if msg.addressed.toNat ≠ 0xFFFF ∧ msg.addressed.toNat ≠ s.fld Reg.SYS_ARRAY_ID_ID then s
    else match s.sec.array with
      | none => s.count Reg.NET_HCP_CNT_AUTH
      | some (id, key) =>
        let (plain, ok) := gcmOpen key (bytesLE 4 id ++ zeros 4 ++ bytesLE 4 seq) head msg.body msg.tag
        let i := s.fld Reg.NET_ARRAY_SESSION
        if !ok then s.count Reg.NET_HCP_CNT_AUTH
        else if s.fld (Reg.SEC_SESS_STATE i) ≠ 2 then s
        else s.arrayMsg q i seq plain run
  else
    let i := msg.session.toNat
    let x := s.hcpSess i
    let (plain, ok) := gcmOpen x.c2d (x.saltC ++ zeros 4 ++ bytesLE 4 seq) head msg.body msg.tag
    if 8 ≤ i ∨ s.fld (Reg.SEC_SESS_STATE i) = 0 ∨ !ok then s.count Reg.NET_HCP_CNT_AUTH
    else s.sessionMsg q i seq plain run

/-- The oldest reply whose instant has come is sent (R375). -/
def arrayReply (s : State) : State :=
  match s.hcp.later with
  | [] => s
  | (t, o) :: rest => if t ≤ s.now then { s with hcp := { s.hcp with later := rest } }.hcpSend o else s

end State

/-! ### Commands -/

/-- HCP_READ (R370, R371). -/
def execHcpRead (q : Fin 2) (msg : HcpMsg) (s : State) : Res := .next (s.hcpMsg q 0x03 msg fun s i b => s.hcpReadMsg i b)

/-- HCP_WRITE (R370, R371, R374). -/
def execHcpWrite (q : Fin 2) (msg : HcpMsg) (s : State) : Res := .next (s.hcpMsg q 0x05 msg fun s i b => s.hcpWriteMsg i b)

/-- OWN (R370, R371). -/
def execOwn (q : Fin 2) (msg : HcpMsg) (s : State) : Res := .next (s.hcpMsg q 0x07 msg fun s i b => s.hcpOwnMsg i b)

/-- HCP_HEARTBEAT (R55, R370). -/
def execHcpHeartbeat (q : Fin 2) (msg : HcpMsg) (s : State) : Res := .next (s.hcpMsg q 0x08 msg fun s i _ => s.hcpHeartbeatMsg i)

/-- HCP_TXN (R62, R63, R370, R374). -/
def execHcpTxn (q : Fin 2) (msg : HcpMsg) (s : State) : Res := .next (s.hcpMsg q 0x09 msg fun s i b => s.hcpTxnMsg i b)

/-- WITHDRAW_LIST (R374). -/
def execWithdrawList (q : Fin 2) (msg : HcpMsg) (s : State) : Res := .next (s.hcpMsg q 0x0B msg fun s i b => s.hcpListMsg i b)

/-- HCP_CLOSE (R372). -/
def execHcpClose (q : Fin 2) (msg : HcpMsg) (s : State) : Res := .next (s.hcpMsg q 0x0C msg fun s i _ => s.hcpCloseMsg i)

/-- HCP_PILOT_MESSAGE (R373): types 0x40 to 0x7F. -/
def execHcpPilotMessage (q : Fin 2) (type : Fin 64) (msg : HcpMsg) (s : State) : Res :=
  .next (s.hcpMsg q (0x40 + type.val) msg fun s i b => s.hcpPilotMsg i (0x40 + type.val) b)

/-- ARRAY_REPLY (R375). -/
def execArrayReply (s : State) : Res := .next s.arrayReply

end Sys2Proof.Machine
end

