-- ==== Sys2Proof/Machine/Links.lean ====
section
/-! DEFINITION. Control accesses that arrive on a link: the PCIe host (R338), the control-target bus (R403) and the debug port (R485). -/

namespace Sys2Proof.Machine

namespace State

/-! ### The control-target bus -/

/-- The CRC of an access covers the address byte with its R/W bit and every byte after it (R403, R500). -/
def ctCrc (s : State) (b r : Nat) (bytes : List Byte) : Nat := crc8 (s.ctAddress b r ++ bytes)

/-- A write access; a CRC that does not match is counted and the access discarded. -/
def ctWrite (s : State) (b cmd addr v crc : Nat) : State :=
  if !s.ctBus b || decide (cmd ≠ 1) then s
  else if s.ctCrc b 0 ([1] ++ bytesLE 4 addr ++ bytesLE 4 v) ≠ crc then (s.count (Reg.TWB_CNT_CRC b)).twbRaise b 8
  else s.wordWrite 2 addr v

/-- The bytes a read access returns: the word and its CRC, or five bytes of 0xFF; beyond them 0xFF. -/
def ctBytes (n : Nat) (five : List Byte) : List Byte := five.take n ++ List.replicate (n - 5) (0xFF : Byte)

/-- A read access of `n` bytes. -/
def ctRead (s : State) (b cmd addr crc n : Nat) : State :=
  if !s.ctBus b || decide (cmd ≠ 2) then s
  else if s.ctCrc b 0 ([2] ++ bytesLE 4 addr) ≠ crc then s.setTwb b { s.twb b with resp := ctBytes n (List.replicate 5 0xFF) }
  else
    let r := s.controlRead 2 addr 15
    let data := bytesLE 4 r.2.toNat
    let s := r.1
    s.setTwb b { s.twb b with resp := ctBytes n (data ++ bytesLE 1 (s.ctCrc b 1 data)) }

/-! ### The PCIe host -/

/-- A host access on an endpoint port whose link is up: BAR0 is control space as master 1, BAR2 the four windows. -/
def hostAccess (s : State) (p : Nat) (a : HostAccess) : State :=
  if !s.pcxOn p || !s.isEndpoint p || !s.flag (Reg.PCX_LINK_UP p 0) then s
  else match a with
    | .readWord addr be => let r := s.controlRead 1 addr.toNat be.toNat; { r.1 with rsp := r.2 }
    | .writeWord addr be v => s.controlWrite 1 addr.toNat be.toNat v.toNat .plain
    | .readBar2 ofs len => s.hostBar2 p (.readBar2 ofs len)
    | .writeBar2 ofs bs => s.hostBar2 p (.writeBar2 ofs bs)

/-! ### The debug port -/

/-- The captured debug register: the bits as shifted in, the data, DONE, DISCARDED. -/
def debugWord (dr data : Nat) (discarded : Bool) : Nat :=
  dr % 2 ^ 25 + data <<< 25 + 2 ^ 57 + b01 discarded * 2 ^ 58

/-- Update-DR in DEBUG: one access as master 3; one that finds an access of the same FCLK cycle running is ignored and shows BUSY. -/
def debugAccess (s : State) (dr : Nat) : State :=
  if s.jtag.ir ≠ 0x20 then s
  else if s.jtag.at_ = s.now + 1 then { s with jtag := { s.jtag with debug := putBits s.jtag.debug 59 59 1 } }
  else
    let a := 4 * bits dr 24 1
    let v := bits dr 56 25
    let s := { s with jtag := { s.jtag with at_ := s.now + 1 } }
    if bit dr 0 then
      let ok := s.mayWrite 3 a .plain
      let s := s.wordWrite 3 a v
      { s with jtag := { s.jtag with debug := debugWord dr v (!ok) } }
    else
      let r := s.controlRead 3 a 15
      { r.1 with jtag := { r.1.jtag with debug := debugWord dr r.2.toNat false } }

end State

/-- CT_WRITE (R403). -/
def execCtWrite (b : Fin 8) (cmd : Byte) (addr v : Word) (crc : Byte) (s : State) : Res :=
  .next (s.ctWrite b cmd.toNat addr.toNat v.toNat crc.toNat)

/-- CT_READ (R403). -/
def execCtRead (b : Fin 8) (cmd : Byte) (addr : Word) (crc : Byte) (n : Nat) (s : State) : Res :=
  .next (s.ctRead b cmd.toNat addr.toNat crc.toNat n)

/-- PCIE_HOST_ACCESS (R338). -/
def execPcieHostAccess (p : Fin 2) (a : HostAccess) (s : State) : Res := .next (s.hostAccess p a)

/-- DEBUG_ACCESS (R485). -/
def execDebugAccess (dr : BitVec 60) (s : State) : Res := .next (s.debugAccess dr.toNat)

end Sys2Proof.Machine
end

