-- ==== Sys2Proof/Machine/Tide.lean ====
section
/-! DEFINITION. The passing of time: the FCLK tick of an idle step, tides, units' own tides, overruns and abandons, power domains that switch on (R42 to R44, R106 to R118, R452). -/

namespace Sys2Proof.Machine

namespace State

/-! ### The FCLK tick -/

/-- One FCLK cycle of the whole block: counters and slews, memory arbitration, idle blocks (log entry 25). -/
def fclk (s : State) : State :=
  let s := s.tick.memTick
  (if s.now % 4 = 0 then scgSlew (List.range 4) s else s).idleScan

/-! ### Tides (R106) -/

/-- The FCLK cycle that holds T(n): the tick at which tide n fires less the time by which tide time has passed T(n). -/
def instantCycle (s : State) (n : Nat) : Nat :=
  s.now - (s.tideTime48 - s.schedTime n).toNat / 2 ^ 47

/-- TCLK returns to TOSC at the first tide after 100 ms in tolerance (R118). -/
def tideClock (s : State) : State :=
  if s.fld Reg.TIME_CLK_SRC ≠ 0 ∧ 10000 ≤ s.time.toscGood then s.moveClk 0 else s

/-- Tide `n`, whose instant lies in FCLK cycle `cyc`, is the tide now (R106). -/
def openTide (s : State) (n cyc : Nat) (next : Option Nat) : State :=
  let s := s.setFld2 Reg.TIDE_NOW_LO_LO Reg.TIDE_NOW_HI_HI n
  { s with time := { s.time with next := next, firedAt := s.now, instants := ((n, cyc) :: s.time.instants).take 8 } }

/-- What the landings of tide `n` set off: heads that start, integrity domains, sync pulses (R316, R423, R163). -/
def afterLandings (old : State) (n : Nat) (s : State) : State :=
  let s := headStarts old n (List.range 10) s
  syncTides n syncAll (s.noteDomains n)

/-- A tide of the live schedule: the switch due at it, LOG's records, the landings, the lanes, calibration results (R65, R106 to R118, R142, R226). -/
def liveTide (eyes : List LaneTide) (n : Nat) (s : State) : State :=
  let cyc := s.instantCycle n
  let s := s.openTide n cyc (some (n + 1))
  let s := (s.tideClock.tideSwitch n).logTide n
  let s := afterLandings s n (s.landTide n)
  (laneTides eyes s).calTide cyc

/-- A tide that the logbook gives (R439). -/
def replayTide (r : LogRec) (s : State) : State :=
  let s := s.openTide r.tide s.now (if s.running then some (r.tide + 1) else none)
  let s := (s.replayTime r).logTide r.tide
  afterLandings s r.tide (s.landTide r.tide)

/-- TIDE_FIRE: the tide that is due fires; while a logbook is replayed, its next tide, and after its last the end of the replay (R106, R439, R442). -/
def tideFire (eyes : List LaneTide) (s : State) : State :=
  if s.replaying || (decide (s.logState = 2) && s.log.runDue) then
    match s.nextTideRec with
    | some r => if s.replayDue r then s.replayTide r else s
    | none => if s.time.firedAt + s.period / 2 ^ 47 ≤ s.now ∧ s.replaying then s.replayEnd else s
  else match s.time.next with
    | some n => if s.running && s.tideDue n then s.liveTide eyes n else s
    | none => s

/-! ### Own tides (R42) -/

/-- The instant of the present tide plus unit `u`'s stagger, of 1.6 FCLK cycles to the PCLK cycle, has been reached. -/
def ownDue (s : State) (u : Nat) : Bool :=
  decide (5 * s.instantOf s.tide + 8 * s.fld (Reg.FAB_UNIT_CFG_STAGGER u) ≤ 5 * s.now)

/-- What unit `u` does at its own tide `k`. -/
def unitTide (s : State) (u k : Nat) : State :=
  if u < 4 then s
  else if u < 8 then s.pipeTide (u - 4) k
  else if u < 12 then s.encStart (u - 8)
  else if u < 14 then s.decTide (u - 12) k
  else if u = 15 then s.scnTide
  else if u = 18 ∨ u = 19 then
    let s := s.netTide (u - 18)
    if s.replaying then netReplay (u - 18) k (List.range 16) s else s
  else if u = 21 then s.secTide k
  else if u = 22 then s.logPump
  else if 41 ≤ u then s.feederTide (u - 41) k
  else s

/-- UNIT_TIDE_START: once in each tide, when the unit's stagger has passed. -/
def unitTideStart (s : State) (u : Nat) : State :=
  let k := s.tide
  if s.time.instants ≠ [] ∧ s.ownTide u ≠ k + 1 ∧ s.ownDue u then
    ({ s with fab := { s.fab with ownTide := s.fab.ownTide.set (fun _ => 0) u (k + 1) } } : State).unitTide u k
  else s

/-! ### Overruns and abandons (R43, R44) -/

/-- Unit `u` still has its part of the work of tide `t` to do: an encoder engine whose tile is done has not. -/
def workOpen (s : State) (u t : Nat) : Bool :=
  if 8 ≤ u ∧ u < 12 then
    let mine := (s.encPics.filter fun p => decide (p.man.tide = t)).flatMap fun p => p.tiles.filter fun x => decide (x.engine = u - 8)
    mine.isEmpty || mine.any fun x => decide (x.st ≠ .done)
  else true

/-- The oldest work of unit `u` that its own tide `due + late` finds unfinished. -/
def lateWork (s : State) (u late : Nat) (p : Work → Bool) : Option Work :=
  s.fab.work.find? fun w => decide (w.unit = u) && p w && decide (w.due + late + 1 ≤ s.ownTide u) && s.workOpen u w.tide

/-- The policy of unit `u` on an overrun of tide `t` (R43). -/
def overrunPolicy (s : State) (u t : Nat) : State :=
  if 4 ≤ u ∧ u < 8 then s.setPipe (u - 4) { s.pipe (u - 4) with skip := true }
  else if 8 ≤ u ∧ u < 12 then s.encOverrun (u - 8) t
  else if 12 ≤ u ∧ u < 14 then s.decOverrun (u - 12)
  else s

/-- UNIT_OVERRUN: units 4 to 13 with unfinished work, or NET with an object of the tide not sent. -/
def unitOverrun (s : State) (u : Nat) : State :=
  if u = 18 ∨ u = 19 then s.netOverrun (u - 18)
  else if 4 ≤ u ∧ u < 14 then
    match s.lateWork u 1 (fun w => !w.ovr) with
    | some w => (s.declareOverrun u w.tide).overrunPolicy u w.tide
    | none => s
  else s

/-- Encoder `e` abandons its part of the pictures of tide `t`; the other engines that still work on one give it up at their own tides. -/
def encGiveUp (s : State) (e t : Nat) : State :=
  let others := s.fab.work.filter fun w => decide (8 ≤ w.unit ∧ w.unit < 12 ∧ w.unit ≠ 8 + e ∧ w.tide = t) && s.workOpen w.unit t
  match (s.encInvolved e).filter fun p => decide (p.man.tide = t) with
  | [] => (s.countAbandon (8 + e)).endWork (8 + e) t
  | ps =>
    let s := encAbandonPics e ps s
    { s with fab := { s.fab with work := s.fab.work ++ others.filter fun w => !decide (w ∈ s.fab.work) } }

/-- UNIT_ABANDON: work that is two own tides late ends, and nothing more is emitted for it. -/
def unitAbandon (s : State) (u : Nat) : State :=
  if u = 18 ∨ u = 19 then s.netAbandon (u - 18)
  else if 4 ≤ u ∧ u < 14 then
    match s.lateWork u 2 (fun _ => true) with
    | some w =>
      if u < 8 then (s.pipeAbandon (u - 4)).endWork u w.tide
      else if u < 12 then s.encGiveUp (u - 8) w.tide
      else (((s.decAbandon (u - 12)).countAbandon u).endWork u w.tide).decRest (u - 12)
    | none => s
  else s

/-! ### Power domains (R451, R452) -/

/-- DOMAIN_SWITCH_ON: the domain in turn switches on, and the start operations that waited for it are performed in the order of their writes. -/
def domainSwitchOn (s : State) (u : Nat) : State :=
  match s.switchOn u with
  | (s, false) => s
  | (s, true) =>
    let ops := s.pwr.ops
    deferredOps u ops (s.setPwr { s.pwr with ops := ops.filter fun o => !decide (o.1 = u) })

end State

/-! ### Commands -/

/-- TIDE_FIRE (R106). -/
def execTideFire (eyes : List LaneTide) (s : State) : Res := .next (s.tideFire eyes)

/-- UNIT_TIDE_START (R42). -/
def execUnitTideStart (u : Fin 45) (s : State) : Res := .next (s.unitTideStart u)

/-- UNIT_OVERRUN (R43). -/
def execUnitOverrun (u : Fin 45) (s : State) : Res := .next (s.unitOverrun u)

/-- UNIT_ABANDON (R44). -/
def execUnitAbandon (u : Fin 45) (s : State) : Res := .next (s.unitAbandon u)

/-- DOMAIN_SWITCH_ON (R451, R452). -/
def execDomainSwitchOn (u : Fin 40) (s : State) : Res := .next (s.domainSwitchOn u)

/-- MEM_TRAIN_DONE (R294). -/
def execMemTrainDone (c : Fin 6) (ok : Bool) (s : State) : Res := .next (s.memTrainDone c ok)

/-- GPIO_FAULT_CLEAR: a write of 1 to a GPIO_FAULT bit or to EVT_PAD.CLEAR (R406, R407). -/
def execGpioFaultClear (m : Fin 32) (t : FaultClear) (s : State) : Res :=
  .next (match t with
    | .gpio w v => s.wordWrite m (Reg.GPIO_FAULT_FAULT w).addr v.toNat
    | .evt i v => s.wordWrite m (Reg.EVT_PAD_CLEAR i).addr v.toNat)

end Sys2Proof.Machine
end

