-- ==== Sys2Proof/Machine/Writes.lean ====
section
/-! DEFINITION. The commands that are one write of one register: each writes its word by R12 and R50 as its master, and the register's action follows. -/

namespace Sys2Proof.Machine

/-! ### Ownership and transactions (R51 to R69) -/

/-- CLAIM (R51, R52). -/
def execClaim (m : Fin 32) (session : BitVec 8) (s : State) : Res := .next (s.wordWrite m 0x104 (1 <<< 28 + session.toNat))

/-- OWN_RELEASE (R54). -/
def execOwnRelease (m : Fin 32) (s : State) : Res := .next (s.wordWrite m 0x104 (2 <<< 28))

/-- HEARTBEAT (R55). -/
def execHeartbeat (m : Fin 32) (s : State) : Res := .next (s.wordWrite m 0x104 (3 <<< 28))

/-- HANDOVER (R56). -/
def execHandover (m : Fin 32) (target : Fin 32) (s : State) : Res := .next (s.wordWrite m 0x104 (4 <<< 28 + target.val <<< 8))

/-- TXN_BEGIN (R58). -/
def execTxnBegin (m : Fin 32) (s : State) : Res := .next (s.wordWrite m 0x200 (1 <<< 28))

/-- TXN_COMMIT (R62, R63). -/
def execTxnCommit (m : Fin 32) (orLater next : Bool) (s : State) : Res := .next (s.wordWrite m 0x200 (2 <<< 28 + 2 * b01 orLater + b01 next))

/-- TXN_ROLLBACK (R66). -/
def execTxnRollback (m : Fin 32) (s : State) : Res := .next (s.wordWrite m 0x200 (3 <<< 28))

/-- OP_WITHDRAW (R66). -/
def execOpWithdraw (m : Fin 32) (s : State) : Res := .next (s.wordWrite m 0x200 (4 <<< 28))

/-! ### Berths (R35 to R40, R501) -/

/-- BERTH_ALLOCATE (R35). -/
def execBerthAllocate (m : Fin 32) (h : BitVec 16) (s : State) : Res := .next (s.wordWrite m 0x60100 (1 <<< 16 + h.toNat))

/-- BERTH_FREE (R36, R37). -/
def execBerthFree (m : Fin 32) (h : BitVec 16) (s : State) : Res := .next (s.wordWrite m 0x60100 (2 <<< 16 + h.toNat))

/-- BERTH_QUERY (R38). -/
def execBerthQuery (m : Fin 32) (h : BitVec 16) (s : State) : Res := .next (s.wordWrite m 0x60100 (3 <<< 16 + h.toNat))

/-- AP_HANDLE_WRITE (R40). -/
def execApHandleWrite (m : Fin 32) (h : BitVec 16) (s : State) : Res := .next (s.wordWrite m 0x60200 h.toNat)

/-- AP_DATA_WRITE (R40). -/
def execApDataWrite (m : Fin 32) (i : Fin 1024) (v : Word) (s : State) : Res := .next (s.wordWrite m (0x68000 + 4 * i.val) v.toNat)

/-! ### Pilots (R88, R95 to R97, R502) -/

/-- PILOT_START (R95, R502). -/
def execPilotStart (m : Fin 32) (k : Fin 16) (s : State) : Res := .next (s.wordWrite m (0x30000 + 0x1000 * k.val) (1 <<< 28))

/-- PILOT_STOP (R97). -/
def execPilotStop (m : Fin 32) (k : Fin 16) (s : State) : Res := .next (s.wordWrite m (0x30000 + 0x1000 * k.val) (2 <<< 28))

/-- PILOT_RESET (R502). -/
def execPilotReset (m : Fin 32) (k : Fin 16) (s : State) : Res := .next (s.wordWrite m (0x30000 + 0x1000 * k.val) (3 <<< 28))

/-- PILOT_LOAD (R96). -/
def execPilotLoad (m : Fin 32) (k : Fin 16) (h : BitVec 16) (s : State) : Res := .next (s.wordWrite m (0x30008 + 0x1000 * k.val) h.toNat)

/-- HOST_MAIL (R88). -/
def execHostMail (m : Fin 32) (k : Fin 16) (i : Fin 4) (v : Word) (s : State) : Res := .next (s.wordWrite m (0x30040 + 0x1000 * k.val + 4 * i.val) v.toNat)

/-! ### Time and event pins (R108, R122, R124) -/

/-- RUN_START (R108). -/
def execRunStart (m : Fin 32) (failover domSel : Bool) (s : State) : Res := .next (s.wordWrite m 0x20000 (4 * b01 failover + 2 * b01 domSel + 1))

/-- RUN_STOP (R69, R108). -/
def execRunStop (m : Fin 32) (failover domSel : Bool) (s : State) : Res := .next (s.wordWrite m 0x20000 (4 * b01 failover + 2 * b01 domSel))

/-- ETS_POP (R122). -/
def execEtsPop (m : Fin 32) (q : Fin 2) (s : State) : Res := .next (s.wordWrite m (0x2030C + 0x20 * q.val) 1)

/-- EVT_POP (R122). -/
def execEvtPop (m : Fin 32) (i : Fin 16) (s : State) : Res := .next (s.wordWrite m (0x1FE024 + 0x40 * i.val) 1)

/-- EVT_GEN_TIME (R124). -/
def execEvtGenTime (m : Fin 32) (i : Fin 16) (lo : Word) (s : State) : Res := .next (s.wordWrite m (0x1FE004 + 0x40 * i.val) lo.toNat)

/-! ### Camera ports (R136 to R146) -/

/-- SRX_TRAIN (R137). -/
def execSrxTrain (m : Fin 32) (p : Fin 4) (rest : BitVec 28) (s : State) : Res := .next (s.wordWrite m (0x80000 + 0x4000 * p.val) (1 <<< 28 + rest.toNat))

/-- SRX_RUN (R136). -/
def execSrxRun (m : Fin 32) (p : Fin 4) (rest : BitVec 28) (s : State) : Res := .next (s.wordWrite m (0x80000 + 0x4000 * p.val) (2 <<< 28 + rest.toNat))

/-- SRX_STOP (R136). -/
def execSrxStop (m : Fin 32) (p : Fin 4) (rest : BitVec 28) (s : State) : Res := .next (s.wordWrite m (0x80000 + 0x4000 * p.val) (3 <<< 28 + rest.toNat))

/-- LANE_SLIP (R138). -/
def execLaneSlip (m : Fin 32) (p : Fin 4) (i : Fin 64) (v : Word) (s : State) : Res := .next (s.wordWrite m (0x81008 + 0x4000 * p.val + 0x40 * i.val) v.toNat)

/-- SRX_FQ_PUSH (R146). -/
def execSrxFqPush (m : Fin 32) (p : Fin 4) (raw map : BitVec 16) (s : State) : Res := .next (s.wordWrite m (0x80030 + 0x4000 * p.val) (map.toNat <<< 16 + raw.toNat))

/-- PRBS_SELECT (R144). -/
def execPrbsSelect (m : Fin 32) (p : Fin 4) (i : Fin 64) (v : Word) (s : State) : Res := .next (s.wordWrite m (0x81000 + 0x4000 * p.val + 0x40 * i.val) v.toNat)

/-- INJECT (R145). -/
def execInject (m : Fin 32) (p : Fin 4) (i : Fin 64) (v : Word) (s : State) : Res := .next (s.wordWrite m (0x81000 + 0x4000 * p.val + 0x40 * i.val) v.toNat)

/-! ### Pipelines and statistics (R165, R185, R187, R214) -/

/-- PIPE_RUN (R185). -/
def execPipeRun (m : Fin 32) (i : Fin 4) (rest : BitVec 28) (s : State) : Res := .next (s.wordWrite m (0x100000 + 0x10000 * i.val) (1 <<< 28 + rest.toNat))

/-- PIPE_STOP (R185). -/
def execPipeStop (m : Fin 32) (i : Fin 4) (rest : BitVec 28) (s : State) : Res := .next (s.wordWrite m (0x100000 + 0x10000 * i.val) (2 <<< 28 + rest.toNat))

/-- PIPE_IN_PUSH (R165). -/
def execPipeInPush (m : Fin 32) (i : Fin 4) (raw map : BitVec 16) (s : State) : Res := .next (s.wordWrite m (0x100008 + 0x10000 * i.val) (map.toNat <<< 16 + raw.toNat))

/-- PIPE_OUT_PUSH (R187). -/
def execPipeOutPush (m : Fin 32) (i : Fin 4) (o : Fin 3) (h : BitVec 16) (s : State) : Res := .next (s.wordWrite m (0x108160 + 0x10000 * i.val + 0x80 * o.val) h.toNat)

/-- PIPE_RAWOUT_PUSH (R187). -/
def execPipeRawoutPush (m : Fin 32) (i : Fin 4) (h : BitVec 16) (s : State) : Res := .next (s.wordWrite m (0x108044 + 0x10000 * i.val) h.toNat)

/-- STAT_PUSH (R214). -/
def execStatPush (m : Fin 32) (i : Fin 4) (h : BitVec 16) (s : State) : Res := .next (s.wordWrite m (0x140030 + 0x1000 * i.val) h.toNat)

/-! ### Calibration (R227, R235) -/

/-- CAL_RUN (R227). -/
def execCalRun (m : Fin 32) (item : BitVec 6) (s : State) : Res := .next (s.wordWrite m 0x150000 (1 <<< 28 + item.toNat))

/-- CAL_FF_CMD (R235). -/
def execCalFfCmd (m : Fin 32) (key : Word) (s : State) : Res := .next (s.wordWrite m 0x15004C key.toNat)

/-! ### Encoders and decoders (R242, R256, R260, R263, R272) -/

/-- ENC_RUN (R260). -/
def execEncRun (m : Fin 32) (e : Fin 4) (rest : BitVec 28) (s : State) : Res := .next (s.wordWrite m (0x160000 + 0x4000 * e.val) (1 <<< 28 + rest.toNat))

/-- ENC_STOP (R256). -/
def execEncStop (m : Fin 32) (e : Fin 4) (rest : BitVec 28) (s : State) : Res := .next (s.wordWrite m (0x160000 + 0x4000 * e.val) (2 <<< 28 + rest.toNat))

/-- ENC_SLOT_IN_PUSH (R242). -/
def execEncSlotInPush (m : Fin 32) (e : Fin 4) (i : Fin 4) (h : BitVec 16) (s : State) : Res := .next (s.wordWrite m (0x160130 + 0x4000 * e.val + 0x100 * i.val) h.toNat)

/-- ENC_SLOT_BS_PUSH (R242). -/
def execEncSlotBsPush (m : Fin 32) (e : Fin 4) (i : Fin 4) (h : BitVec 16) (s : State) : Res := .next (s.wordWrite m (0x160134 + 0x4000 * e.val + 0x100 * i.val) h.toNat)

/-- ENC_SLOT_ES_PUSH (R242). -/
def execEncSlotEsPush (m : Fin 32) (e : Fin 4) (i : Fin 4) (h : BitVec 16) (s : State) : Res := .next (s.wordWrite m (0x160138 + 0x4000 * e.val + 0x100 * i.val) h.toNat)

/-- DEC_RUN (R272). -/
def execDecRun (m : Fin 32) (d : Fin 2) (rest : BitVec 28) (s : State) : Res := .next (s.wordWrite m (0x180000 + 0x4000 * d.val) (1 <<< 28 + rest.toNat))

/-- DEC_STOP (R272). -/
def execDecStop (m : Fin 32) (d : Fin 2) (rest : BitVec 28) (s : State) : Res := .next (s.wordWrite m (0x180000 + 0x4000 * d.val) (2 <<< 28 + rest.toNat))

/-- DEC_FLUSH (R272). -/
def execDecFlush (m : Fin 32) (d : Fin 2) (rest : BitVec 28) (s : State) : Res := .next (s.wordWrite m (0x180000 + 0x4000 * d.val) (3 <<< 28 + rest.toNat))

/-- DEC_IN_PUSH (R263). -/
def execDecInPush (m : Fin 32) (d : Fin 2) (h : BitVec 16) (s : State) : Res := .next (s.wordWrite m (0x180018 + 0x4000 * d.val) h.toNat)

/-- DEC_OUT_PUSH (R263). -/
def execDecOutPush (m : Fin 32) (d : Fin 2) (h : BitVec 16) (s : State) : Res := .next (s.wordWrite m (0x18001C + 0x4000 * d.val) h.toNat)

/-- DEC_DPB_PUSH (R263). -/
def execDecDpbPush (m : Fin 32) (d : Fin 2) (h : BitVec 16) (s : State) : Res := .next (s.wordWrite m (0x180020 + 0x4000 * d.val) h.toNat)

/-! ### Lossless engine, memory and scan-out (R274, R289, R292, R304, R314, R321, R322, R335) -/

/-- LZE_RUN (R292). -/
def execLzeRun (m : Fin 32) (rest : BitVec 28) (s : State) : Res := .next (s.wordWrite m 0x190000 (1 <<< 28 + rest.toNat))

/-- LZE_STOP (R289). -/
def execLzeStop (m : Fin 32) (rest : BitVec 28) (s : State) : Res := .next (s.wordWrite m 0x190000 (2 <<< 28 + rest.toNat))

/-- LZE_PUSH (R274). -/
def execLzePush (m : Fin 32) (q : Fin 2) (h : BitVec 16) (index : BitVec 16) (s : State) : Res := .next (s.wordWrite m (0x190010 + 4 * q.val) (index.toNat <<< 16 + h.toNat))

/-- LZE_DONE_POP (R292). -/
def execLzeDonePop (m : Fin 32) (q : Fin 2) (v : Word) (s : State) : Res := .next (s.wordWrite m (0x190120 + 0x40 * q.val) v.toNat)

/-- MEM_RETRAIN (R304). -/
def execMemRetrain (m : Fin 32) (c : Fin 6) (rest : BitVec 28) (s : State) : Res := .next (s.wordWrite m (0x1A0000 + 0x4000 * c.val) (1 <<< 28 + rest.toNat))

/-- MEM_XLATE (R295, R314). -/
def execMemXlate (m : Fin 32) (v : Word) (s : State) : Res := .next (s.wordWrite m 0x1B8010 v.toNat)

/-- SCN_RUN (R335). -/
def execScnRun (m : Fin 32) (rest : BitVec 28) (s : State) : Res := .next (s.wordWrite m 0x1C0000 (1 <<< 28 + rest.toNat))

/-- SCN_STOP (R335). -/
def execScnStop (m : Fin 32) (rest : BitVec 28) (s : State) : Res := .next (s.wordWrite m 0x1C0000 (2 <<< 28 + rest.toNat))

/-- SCN_LOAD_CMD (R321). -/
def execScnLoadCmd (m : Fin 32) (v : Word) (s : State) : Res := .next (s.wordWrite m 0x1C002C v.toNat)

/-- SCN_LAYER_PUSH (R322). -/
def execScnLayerPush (m : Fin 32) (l : Fin 16) (h : BitVec 16) (s : State) : Res := .next (s.wordWrite m (0x1C2024 + 0x80 * l.val) h.toNat)

/-! ### PCIe and volumes (R336, R338, R340, R346, R347) -/

/-- PCX_ENABLE (R336). -/
def execPcxEnable (m : Fin 32) (p : Fin 2) (rest : BitVec 28) (s : State) : Res := .next (s.wordWrite m (0x1D0000 + 0x1000 * p.val) (1 <<< 28 + rest.toNat))

/-- PCX_DISABLE (R336). -/
def execPcxDisable (m : Fin 32) (p : Fin 2) (rest : BitVec 28) (s : State) : Res := .next (s.wordWrite m (0x1D0000 + 0x1000 * p.val) (2 <<< 28 + rest.toNat))

/-- PCX_EP_WIN (R338). -/
def execPcxEpWin (m : Fin 32) (p : Fin 2) (w : Fin 4) (h : BitVec 16) (s : State) : Res := .next (s.wordWrite m (0x1D0050 + 0x1000 * p.val + 4 * w.val) h.toNat)

/-- PCX_EP_IRQ (R338). -/
def execPcxEpIrq (m : Fin 32) (p : Fin 2) (v : Word) (s : State) : Res := .next (s.wordWrite m (0x1D0060 + 0x1000 * p.val) v.toNat)

/-- ATTACH (R340). -/
def execAttach (m : Fin 32) (d : Fin 8) (rest : BitVec 28) (s : State) : Res := .next (s.wordWrite m (0x1D2000 + 0x100 * d.val) (1 <<< 28 + rest.toNat))

/-- DETACH (R340). -/
def execDetach (m : Fin 32) (d : Fin 8) (rest : BitVec 28) (s : State) : Res := .next (s.wordWrite m (0x1D2000 + 0x100 * d.val) (2 <<< 28 + rest.toNat))

/-- FORMAT (R346). -/
def execFormat (m : Fin 32) (v : Fin 4) (rest : BitVec 28) (s : State) : Res := .next (s.wordWrite m (0x1D3000 + 0x100 * v.val) (1 <<< 28 + rest.toNat))

/-- MOUNT (R346). -/
def execMount (m : Fin 32) (v : Fin 4) (rest : BitVec 28) (s : State) : Res := .next (s.wordWrite m (0x1D3000 + 0x100 * v.val) (2 <<< 28 + rest.toNat))

/-- UNMOUNT (R346). -/
def execUnmount (m : Fin 32) (v : Fin 4) (rest : BitVec 28) (s : State) : Res := .next (s.wordWrite m (0x1D3000 + 0x100 * v.val) (3 <<< 28 + rest.toNat))

/-- PCX_VOL_PUSH (R347). -/
def execPcxVolPush (m : Fin 32) (v : Fin 4) (h index : BitVec 16) (s : State) : Res := .next (s.wordWrite m (0x1D3028 + 0x100 * v.val) (index.toNat <<< 16 + h.toNat))

/-! ### Network (R357, R363, R367, R373) -/

/-- NET_ENABLE (R357). -/
def execNetEnable (m : Fin 32) (q : Fin 2) (rest : BitVec 28) (s : State) : Res := .next (s.wordWrite m (0x1E0000 + 0x4000 * q.val) (1 <<< 28 + rest.toNat))

/-- NET_DISABLE (R357). -/
def execNetDisable (m : Fin 32) (q : Fin 2) (rest : BitVec 28) (s : State) : Res := .next (s.wordWrite m (0x1E0000 + 0x4000 * q.val) (2 <<< 28 + rest.toNat))

/-- NET_TX_PUSH (R363). -/
def execNetTxPush (m : Fin 32) (q : Fin 2) (t : Fin 32) (h : BitVec 16) (s : State) : Res := .next (s.wordWrite m (0x1E1024 + 0x4000 * q.val + 0x40 * t.val) h.toNat)

/-- NET_RX_PUSH (R367). -/
def execNetRxPush (m : Fin 32) (q : Fin 2) (r : Fin 16) (h : BitVec 16) (s : State) : Res := .next (s.wordWrite m (0x1E2010 + 0x4000 * q.val + 0x40 * r.val) h.toNat)

/-- NET_HCP_SEND (R373). -/
def execNetHcpSend (m : Fin 32) (lo : Word) (s : State) : Res := .next (s.wordWrite m 0x1E8014 lo.toNat)

/-! ### Audio (R386, R391) -/

/-- AUD_START (R391). -/
def execAudStart (m : Fin 32) (p : Fin 16) (rest : BitVec 28) (s : State) : Res := .next (s.wordWrite m (0x1F1000 + 0x100 * p.val) (1 <<< 28 + rest.toNat))

/-- AUD_STOP (R391). -/
def execAudStop (m : Fin 32) (p : Fin 16) (rest : BitVec 28) (s : State) : Res := .next (s.wordWrite m (0x1F1000 + 0x100 * p.val) (2 <<< 28 + rest.toNat))

/-- AUD_ABORT (R391). -/
def execAudAbort (m : Fin 32) (p : Fin 16) (rest : BitVec 28) (s : State) : Res := .next (s.wordWrite m (0x1F1000 + 0x100 * p.val) (3 <<< 28 + rest.toNat))

/-- AUD_PUSH (R386). -/
def execAudPush (m : Fin 32) (p : Fin 16) (h : BitVec 16) (s : State) : Res := .next (s.wordWrite m (0x1F1020 + 0x100 * p.val) h.toNat)

/-! ### Two-wire buses and GPIO (R396, R399, R400, R406 to R408) -/

/-- TWB_ENABLE (R400). -/
def execTwbEnable (m : Fin 32) (b : Fin 8) (rest : BitVec 28) (line : TwbLine) (s : State) : Res := .next (s.controlWrite m (0x1F8000 + 0x200 * b.val) 15 (1 <<< 28 + rest.toNat) { line := some line })

/-- TWB_DISABLE (R408). -/
def execTwbDisable (m : Fin 32) (b : Fin 8) (rest : BitVec 28) (s : State) : Res := .next (s.wordWrite m (0x1F8000 + 0x200 * b.val) (2 <<< 28 + rest.toNat))

/-- TWB_CLEAR (R400). -/
def execTwbClear (m : Fin 32) (b : Fin 8) (rest : BitVec 28) (line : TwbLine) (s : State) : Res := .next (s.controlWrite m (0x1F8000 + 0x200 * b.val) 15 (3 <<< 28 + rest.toNat) { line := some line })

/-- TWB_ABORT (R396). -/
def execTwbAbort (m : Fin 32) (b : Fin 8) (rest : BitVec 28) (s : State) : Res := .next (s.wordWrite m (0x1F8000 + 0x200 * b.val) (4 <<< 28 + rest.toNat))

/-- TWB_XFER (R396). -/
def execTwbXfer (m : Fin 32) (b : Fin 8) (rest : BitVec 31) (s : State) : Res := .next (s.wordWrite m (0x1F8010 + 0x200 * b.val) (1 <<< 31 + rest.toNat))

/-- TWB_ALERT (R399). -/
def execTwbAlert (m : Fin 32) (b : Fin 8) (rest : BitVec 31) (s : State) : Res := .next (s.wordWrite m (0x1F8034 + 0x200 * b.val) (1 <<< 31 + rest.toNat))

/-! ### Security (R414, R419 to R428, R430) -/

/-- CERT_LOAD (R427). -/
def execCertLoad (m : Fin 32) (rest : BitVec 28) (s : State) : Res := .next (s.wordWrite m 0x40000 (1 <<< 28 + rest.toNat))

/-- OWNER_BURN (R414). -/
def execOwnerBurn (m : Fin 32) (rest : BitVec 28) (burnt : Bool) (s : State) : Res := .next (s.controlWrite m 0x40000 15 (2 <<< 28 + rest.toNat) { burnt := some burnt })

/-- OWNER_REVOKE (R414). -/
def execOwnerRevoke (m : Fin 32) (rest : BitVec 28) (burnt : Bool) (s : State) : Res := .next (s.controlWrite m 0x40000 15 (3 <<< 28 + rest.toNat) { burnt := some burnt })

/-- POLICY_BURN (R414). -/
def execPolicyBurn (m : Fin 32) (rest : BitVec 28) (burnt : Bool) (s : State) : Res := .next (s.controlWrite m 0x40000 15 (4 <<< 28 + rest.toNat) { burnt := some burnt })

/-- RECIP_SET (R420). -/
def execRecipSet (m : Fin 32) (rest : BitVec 28) (s : State) : Res := .next (s.wordWrite m 0x40000 (5 <<< 28 + rest.toNat))

/-- CLIP_OPEN (R420). -/
def execClipOpen (m : Fin 32) (rest : BitVec 28) (s : State) : Res := .next (s.wordWrite m 0x40000 (6 <<< 28 + rest.toNat))

/-- CLIP_LOAD (R420). -/
def execClipLoad (m : Fin 32) (rest : BitVec 28) (s : State) : Res := .next (s.wordWrite m 0x40000 (7 <<< 28 + rest.toNat))

/-- CLIP_CLOSE (R420). -/
def execClipClose (m : Fin 32) (rest : BitVec 28) (s : State) : Res := .next (s.wordWrite m 0x40000 (8 <<< 28 + rest.toNat))

/-- ARRAY_KEY (R419). -/
def execArrayKey (m : Fin 32) (rest : BitVec 28) (s : State) : Res := .next (s.wordWrite m 0x40000 (9 <<< 28 + rest.toNat))

/-- ATTEST (R428). -/
def execAttest (m : Fin 32) (rest : BitVec 28) (s : State) : Res := .next (s.wordWrite m 0x40000 (10 <<< 28 + rest.toNat))

/-- SEC_PUSH (R426). -/
def execSecPush (m : Fin 32) (h : BitVec 16) (s : State) : Res := .next (s.wordWrite m 0x40030 h.toNat)

/-! ### Logbook (R434, R437, R438, R445) -/

/-- RECORD (R434). -/
def execRecord (m : Fin 32) (s : State) : Res := .next (s.wordWrite m 0x50000 (1 <<< 28))

/-- REPLAY (R438). -/
def execReplay (m : Fin 32) (s : State) : Res := .next (s.wordWrite m 0x50000 (2 <<< 28))

/-- LOG_RUN (R438). -/
def execLogRun (m : Fin 32) (s : State) : Res := .next (s.wordWrite m 0x50000 (3 <<< 28))

/-- LOG_STOP (R445). -/
def execLogStop (m : Fin 32) (s : State) : Res := .next (s.wordWrite m 0x50000 (4 <<< 28))

/-- LOG_OUT_PUSH (R437). -/
def execLogOutPush (m : Fin 32) (h : BitVec 16) (s : State) : Res := .next (s.wordWrite m 0x5001C h.toNat)

/-- LOG_IN_PUSH (R438). -/
def execLogInPush (m : Fin 32) (h : BitVec 16) (s : State) : Res := .next (s.wordWrite m 0x50020 h.toNat)

/-- LOG_FEED (R438). -/
def execLogFeed (m : Fin 32) (p : Fin 4) (raw map : BitVec 16) (s : State) : Res := .next (s.wordWrite m (0x50030 + 4 * p.val) (map.toNat <<< 16 + raw.toNat))

/-! ### Power (R454, R456, R458, R459) -/

/-- SLEEP (R459). -/
def execSleep (m : Fin 32) (rest : BitVec 28) (s : State) : Res := .next (s.wordWrite m 0x10000 (1 <<< 28 + rest.toNat))

/-- WARM (R454). -/
def execWarm (m : Fin 32) (rest : BitVec 28) (s : State) : Res := .next (s.wordWrite m 0x10000 (2 <<< 28 + rest.toNat))

/-- PWR_BLOCK_RESET (R456). -/
def execPwrBlockReset (m : Fin 32) (v : Word) (s : State) : Res := .next (s.wordWrite m 0x1000C v.toNat)

/-- WDOG_KICK (R458). -/
def execWdogKick (m : Fin 32) (v : Word) (s : State) : Res := .next (s.wordWrite m 0x10014 v.toNat)

end Sys2Proof.Machine
end

