-- ==== Sys2Proof/Machine/Dispatch.lean ====
section
/-! DEFINITION. One arm per command: the call of its meaning, or its rejection by name. -/

namespace Sys2Proof.Machine

def exec (i : Instr) (s : State) : Host.Outcome State Fault Refusal :=
  match i with
  | .registerWrite m addr be v => Sys2Proof.Machine.execRegisterWrite m addr be v s
  | .rcRead m addr be => Sys2Proof.Machine.execRcRead m addr be s
  | .wideValueRead m addr be => Sys2Proof.Machine.execWideValueRead m addr be s
  | .parcelWrite hop p => Sys2Proof.Machine.execParcelWrite hop p s
  | .quayRead q u h ofs len => Sys2Proof.Machine.execQuayRead q u h ofs len s
  | .quayReadData q bad => Sys2Proof.Machine.execQuayReadData q bad s
  | .starveLimitExpiry hop vc => Sys2Proof.Machine.execStarveLimitExpiry hop vc s
  | .berthAllocate m h => Sys2Proof.Machine.execBerthAllocate m h s
  | .berthFree m h => Sys2Proof.Machine.execBerthFree m h s
  | .berthQuery m h => Sys2Proof.Machine.execBerthQuery m h s
  | .berthCmdDone => Sys2Proof.Machine.execBerthCmdDone s
  | .berthAcquire u h => Sys2Proof.Machine.execBerthAcquire u h s
  | .berthRelease u h => Sys2Proof.Machine.execBerthRelease u h s
  | .apHandleWrite m h => Sys2Proof.Machine.execApHandleWrite m h s
  | .apDataWrite m idx v => Sys2Proof.Machine.execApDataWrite m idx v s
  | .apDataRead m idx => Sys2Proof.Machine.execApDataRead m idx s
  | .tideFire eyes => Sys2Proof.Machine.execTideFire eyes s
  | .unitTideStart u => Sys2Proof.Machine.execUnitTideStart u s
  | .unitOverrun u => Sys2Proof.Machine.execUnitOverrun u s
  | .unitAbandon u => Sys2Proof.Machine.execUnitAbandon u s
  | .srxFrameExpire p => Sys2Proof.Machine.execSrxFrameExpire p s
  | .claim m session => Sys2Proof.Machine.execClaim m session s
  | .ownRelease m => Sys2Proof.Machine.execOwnRelease m s
  | .heartbeat m => Sys2Proof.Machine.execHeartbeat m s
  | .handover m target => Sys2Proof.Machine.execHandover m target s
  | .claimTimeout m => Sys2Proof.Machine.execClaimTimeout m s
  | .leaseExpiry => Sys2Proof.Machine.execLeaseExpiry s
  | .txnBegin m => Sys2Proof.Machine.execTxnBegin m s
  | .txnCommit m orLater next => Sys2Proof.Machine.execTxnCommit m orLater next s
  | .txnRollback m => Sys2Proof.Machine.execTxnRollback m s
  | .opWithdraw m => Sys2Proof.Machine.execOpWithdraw m s
  | .landingNoTides => Sys2Proof.Machine.execLandingNoTides s
  | .alu k g f => Sys2Proof.Machine.execAlu k g f s
  | .addi k g f => Sys2Proof.Machine.execAddi k g f s
  | .andi k g f => Sys2Proof.Machine.execAndi k g f s
  | .ori k g f => Sys2Proof.Machine.execOri k g f s
  | .xori k g f => Sys2Proof.Machine.execXori k g f s
  | .shi k g f => Sys2Proof.Machine.execShi k g f s
  | .lui k g f => Sys2Proof.Machine.execLui k g f s
  | .ld k g f => Sys2Proof.Machine.execLd k g f s
  | .lw k g f => Sys2Proof.Machine.execLw k g f s
  | .lh k g f => Sys2Proof.Machine.execLh k g f s
  | .lb k g f => Sys2Proof.Machine.execLb k g f s
  | .sd k g f => Sys2Proof.Machine.execSd k g f s
  | .sw k g f => Sys2Proof.Machine.execSw k g f s
  | .sh k g f => Sys2Proof.Machine.execSh k g f s
  | .sb k g f => Sys2Proof.Machine.execSb k g f s
  | .cld k g f => Sys2Proof.Machine.execCld k g f s
  | .cst k g f => Sys2Proof.Machine.execCst k g f s
  | .fence k g f => Sys2Proof.Machine.execFence k g f s
  | .pcmp k g f => Sys2Proof.Machine.execPcmp k g f s
  | .pcmpi k g f => Sys2Proof.Machine.execPcmpi k g f s
  | .plog k g f => Sys2Proof.Machine.execPlog k g f s
  | .pget k g f => Sys2Proof.Machine.execPget k g f s
  | .br k g off => Sys2Proof.Machine.execBr k g off s
  | .call k g off => Sys2Proof.Machine.execCall k g off s
  | .jr k g f => Sys2Proof.Machine.execJr k g f s
  | .dpop k g f => Sys2Proof.Machine.execDpop k g f s
  | .dpost k g f => Sys2Proof.Machine.execDpost k g f s
  | .dcnt k g f => Sys2Proof.Machine.execDcnt k g f s
  | .wait k g f => Sys2Proof.Machine.execWait k g f s
  | .waitu k g f => Sys2Proof.Machine.execWaitu k g f s
  | .tide k g f => Sys2Proof.Machine.execTide k g f s
  | .timr k g f => Sys2Proof.Machine.execTimr k g f s
  | .mfld k g f => Sys2Proof.Machine.execMfld k g f s
  | .txb k g f => Sys2Proof.Machine.execTxb k g f s
  | .txc k g f => Sys2Proof.Machine.execTxc k g f s
  | .txr k g f => Sys2Proof.Machine.execTxr k g f s
  | .txw k g f => Sys2Proof.Machine.execTxw k g f s
  | .bcmdAllocate k g f => Sys2Proof.Machine.execBcmdAllocate k g f s
  | .bcmdFree k g f => Sys2Proof.Machine.execBcmdFree k g f s
  | .bcmdQuery k g f => Sys2Proof.Machine.execBcmdQuery k g f s
  | .pmov k g f => Sys2Proof.Machine.execPmov k g f s
  | .pmovDone k => Sys2Proof.Machine.execPmovDone k s
  | .hinit k g f => Sys2Proof.Machine.execHinit k g f s
  | .hupd k g f => Sys2Proof.Machine.execHupd k g f s
  | .hfin k g f => Sys2Proof.Machine.execHfin k g f s
  | .csrr k g f => Sys2Proof.Machine.execCsrr k g f s
  | .csrw k g f => Sys2Proof.Machine.execCsrw k g f s
  | .trap k g f => Sys2Proof.Machine.execTrap k g f s
  | .eret k g f => Sys2Proof.Machine.execEret k g f s
  | .rand k g f => Sys2Proof.Machine.execRand k g f s
  | .halt k g f => Sys2Proof.Machine.execHalt k g f s
  | .docketPost k kind src sub payload => Sys2Proof.Machine.execDocketPost k kind src sub payload s
  | .pilotRelease k => Sys2Proof.Machine.execPilotRelease k s
  | .pilotOverrun k => Sys2Proof.Machine.execPilotOverrun k s
  | .pilotAbandon k => Sys2Proof.Machine.execPilotAbandon k s
  | .pilotStart m k => Sys2Proof.Machine.execPilotStart m k s
  | .pilotStop m k => Sys2Proof.Machine.execPilotStop m k s
  | .pilotReset m k => Sys2Proof.Machine.execPilotReset m k s
  | .pilotBegin k => Sys2Proof.Machine.execPilotBegin k s
  | .pilotLoad m k h => Sys2Proof.Machine.execPilotLoad m k h s
  | .pilotLoadDone k => Sys2Proof.Machine.execPilotLoadDone k s
  | .hostMail m k idx v => Sys2Proof.Machine.execHostMail m k idx v s
  | .epochWrap d => Sys2Proof.Machine.execEpochWrap d s
  | .runStart m failover domSel => Sys2Proof.Machine.execRunStart m failover domSel s
  | .runStop m failover domSel => Sys2Proof.Machine.execRunStop m failover domSel s
  | .ptpMessageRx e msg => Sys2Proof.Machine.execPtpMessageRx e msg s
  | .ptpMessageTx e kind => Sys2Proof.Machine.execPtpMessageTx e kind s
  | .syncLoss d => Sys2Proof.Machine.execSyncLoss d s
  | .announceTimeout e => Sys2Proof.Machine.execAnnounceTimeout e s
  | .clkMonitorWindow tosc ref => Sys2Proof.Machine.execClkMonitorWindow tosc ref s
  | .etsPop m q => Sys2Proof.Machine.execEtsPop m q s
  | .evtPop m idx => Sys2Proof.Machine.execEvtPop m idx s
  | .evtEdge idx rising => Sys2Proof.Machine.execEvtEdge idx rising s
  | .evtGenTime m idx lo => Sys2Proof.Machine.execEvtGenTime m idx lo s
  | .evtOutputEdge idx assert => Sys2Proof.Machine.execEvtOutputEdge idx assert s
  | .srxTrain m p rest => Sys2Proof.Machine.execSrxTrain m p rest s
  | .srxRun m p rest => Sys2Proof.Machine.execSrxRun m p rest s
  | .srxStop m p rest => Sys2Proof.Machine.execSrxStop m p rest s
  | .laneSignal p idx => Sys2Proof.Machine.execLaneSignal p idx s
  | .laneCdrLock p idx => Sys2Proof.Machine.execLaneCdrLock p idx s
  | .laneAlignLock p idx vert horz ctle dfe => Sys2Proof.Machine.execLaneAlignLock p idx vert horz ctle dfe s
  | .laneLockLoss p idx => Sys2Proof.Machine.execLaneLockLoss p idx s
  | .laneIdent p idx normal inverted => Sys2Proof.Machine.execLaneIdent p idx normal inverted s
  | .laneDeskew p arrivals => Sys2Proof.Machine.execLaneDeskew p arrivals s
  | .srxTrainTimeout p => Sys2Proof.Machine.execSrxTrainTimeout p s
  | .laneSlip m p idx v => Sys2Proof.Machine.execLaneSlip m p idx v s
  | .laneFaultTimeout p idx => Sys2Proof.Machine.execLaneFaultTimeout p idx s
  | .lanePinFault p idx pmv nmv => Sys2Proof.Machine.execLanePinFault p idx pmv nmv s
  | .sof p blocks => Sys2Proof.Machine.execSof p blocks s
  | .seam p blocks prev drained => Sys2Proof.Machine.execSeam p blocks prev drained s
  | .eof p blocks prev drained => Sys2Proof.Machine.execEof p blocks prev drained s
  | .badBlock p idx hdr block viol => Sys2Proof.Machine.execBadBlock p idx hdr block viol s
  | .srxFqPush m p raw map => Sys2Proof.Machine.execSrxFqPush m p raw map s
  | .prbsSelect m p idx v => Sys2Proof.Machine.execPrbsSelect m p idx v s
  | .prbsLock p idx inv => Sys2Proof.Machine.execPrbsLock p idx inv s
  | .inject m p idx v => Sys2Proof.Machine.execInject m p idx v s
  | .syncOutputEdge p k => Sys2Proof.Machine.execSyncOutputEdge p k s
  | .pipeRun m idx rest => Sys2Proof.Machine.execPipeRun m idx rest s
  | .pipeStop m idx rest => Sys2Proof.Machine.execPipeStop m idx rest s
  | .pipeInPush m idx raw map => Sys2Proof.Machine.execPipeInPush m idx raw map s
  | .pipeFrameEnd idx => Sys2Proof.Machine.execPipeFrameEnd idx s
  | .pipeOutPush m idx o h => Sys2Proof.Machine.execPipeOutPush m idx o h s
  | .pipeRawoutPush m idx h => Sys2Proof.Machine.execPipeRawoutPush m idx h s
  | .statPush m idx h => Sys2Proof.Machine.execStatPush m idx h s
  | .calTempSample temps => Sys2Proof.Machine.execCalTempSample temps s
  | .calRun m item => Sys2Proof.Machine.execCalRun m item s
  | .calRunStart n => Sys2Proof.Machine.execCalRunStart n s
  | .calRunDone n inRange lanes => Sys2Proof.Machine.execCalRunDone n inRange lanes s
  | .calPpbUpdate t valid => Sys2Proof.Machine.execCalPpbUpdate t valid s
  | .calFfCmd m key => Sys2Proof.Machine.execCalFfCmd m key s
  | .fuseBurnDone ok => Sys2Proof.Machine.execFuseBurnDone ok s
  | .encRun m e rest => Sys2Proof.Machine.execEncRun m e rest s
  | .encStop m e rest => Sys2Proof.Machine.execEncStop m e rest s
  | .encSlotInPush m e idx h => Sys2Proof.Machine.execEncSlotInPush m e idx h s
  | .encSlotBsPush m e idx h => Sys2Proof.Machine.execEncSlotBsPush m e idx h s
  | .encSlotEsPush m e idx h => Sys2Proof.Machine.execEncSlotEsPush m e idx h s
  | .encPictureStart e => Sys2Proof.Machine.execEncPictureStart e s
  | .encPreempt e => Sys2Proof.Machine.execEncPreempt e s
  | .encResume e => Sys2Proof.Machine.execEncResume e s
  | .encPictureEnd e => Sys2Proof.Machine.execEncPictureEnd e s
  | .decRun m d rest => Sys2Proof.Machine.execDecRun m d rest s
  | .decStop m d rest => Sys2Proof.Machine.execDecStop m d rest s
  | .decFlush m d rest => Sys2Proof.Machine.execDecFlush m d rest s
  | .decFlushDone d => Sys2Proof.Machine.execDecFlushDone d s
  | .decInPush m d h => Sys2Proof.Machine.execDecInPush m d h s
  | .decOutPush m d h => Sys2Proof.Machine.execDecOutPush m d h s
  | .decDpbPush m d h => Sys2Proof.Machine.execDecDpbPush m d h s
  | .decDecodeStart d => Sys2Proof.Machine.execDecDecodeStart d s
  | .decDecodeDone d au => Sys2Proof.Machine.execDecDecodeDone d au s
  | .decCopyDone d => Sys2Proof.Machine.execDecCopyDone d s
  | .lzeRun m rest => Sys2Proof.Machine.execLzeRun m rest s
  | .lzeStop m rest => Sys2Proof.Machine.execLzeStop m rest s
  | .lzePush m q h index => Sys2Proof.Machine.execLzePush m q h index s
  | .lzeJobStart q => Sys2Proof.Machine.execLzeJobStart q s
  | .lzeBlockDone q => Sys2Proof.Machine.execLzeBlockDone q s
  | .lzeJobEnd q => Sys2Proof.Machine.execLzeJobEnd q s
  | .lzeDonePop m q v => Sys2Proof.Machine.execLzeDonePop m q v s
  | .memTrainDone c ok => Sys2Proof.Machine.execMemTrainDone c ok s
  | .memRequest q addr half write ecc => Sys2Proof.Machine.execMemRequest q addr half write ecc s
  | .urgencyEscalate => Sys2Proof.Machine.execUrgencyEscalate s
  | .reserveWindow q => Sys2Proof.Machine.execReserveWindow q s
  | .memPageIdle c pc b => Sys2Proof.Machine.execMemPageIdle c pc b s
  | .memRefresh c pc b limit => Sys2Proof.Machine.execMemRefresh c pc b limit s
  | .memIdleWindow c pc => Sys2Proof.Machine.execMemIdleWindow c pc s
  | .memRetrain m c rest => Sys2Proof.Machine.execMemRetrain m c rest s
  | .memRetrainDone c ok => Sys2Proof.Machine.execMemRetrainDone c ok s
  | .memXlate m v => Sys2Proof.Machine.execMemXlate m v s
  | .scnRun m rest => Sys2Proof.Machine.execScnRun m rest s
  | .scnStop m rest => Sys2Proof.Machine.execScnStop m rest s
  | .scnLatch h => Sys2Proof.Machine.execScnLatch h s
  | .scnUnderrun h line x => Sys2Proof.Machine.execScnUnderrun h line x s
  | .scnFrameEnd h => Sys2Proof.Machine.execScnFrameEnd h s
  | .scnLoadCmd m v => Sys2Proof.Machine.execScnLoadCmd m v s
  | .scnLoadDone => Sys2Proof.Machine.execScnLoadDone s
  | .scnLayerPush m l h => Sys2Proof.Machine.execScnLayerPush m l h s
  | .pcxEnable m p rest => Sys2Proof.Machine.execPcxEnable m p rest s
  | .pcxDisable m p rest => Sys2Proof.Machine.execPcxDisable m p rest s
  | .pcieLinkUp p k gen width reversed corr uncorr => Sys2Proof.Machine.execPcieLinkUp p k gen width reversed corr uncorr s
  | .pcieLinkDown p k corr uncorr => Sys2Proof.Machine.execPcieLinkDown p k corr uncorr s
  | .pcieHostAccess p a => Sys2Proof.Machine.execPcieHostAccess p a s
  | .pcxEpWin m p w h => Sys2Proof.Machine.execPcxEpWin m p w h s
  | .pcxEpIrq m p v => Sys2Proof.Machine.execPcxEpIrq m p v s
  | .attach m d rest => Sys2Proof.Machine.execAttach m d rest s
  | .detach m d rest => Sys2Proof.Machine.execDetach m d rest s
  | .nvmeCompletion d idx ok data => Sys2Proof.Machine.execNvmeCompletion d idx ok data s
  | .nvmeTimeout d => Sys2Proof.Machine.execNvmeTimeout d s
  | .format m v rest => Sys2Proof.Machine.execFormat m v rest s
  | .mount m v rest => Sys2Proof.Machine.execMount m v rest s
  | .unmount m v rest => Sys2Proof.Machine.execUnmount m v rest s
  | .volOpDone v => Sys2Proof.Machine.execVolOpDone v s
  | .pcxVolPush m v h index => Sys2Proof.Machine.execPcxVolPush m v h index s
  | .pcxJobStart v => Sys2Proof.Machine.execPcxJobStart v s
  | .pcxJobEnd v => Sys2Proof.Machine.execPcxJobEnd v s
  | .netEnable m q rest => Sys2Proof.Machine.execNetEnable m q rest s
  | .netDisable m q rest => Sys2Proof.Machine.execNetDisable m q rest s
  | .arpRequest q v6 target sender mac => Sys2Proof.Machine.execArpRequest q v6 target sender mac s
  | .icmpEchoRequest q v6 target sender payload => Sys2Proof.Machine.execIcmpEchoRequest q v6 target sender payload s
  | .neighTimeout q => Sys2Proof.Machine.execNeighTimeout q s
  | .neighExpiry q => Sys2Proof.Machine.execNeighExpiry q s
  | .netTxPush m q t h => Sys2Proof.Machine.execNetTxPush m q t h s
  | .pierDatagramTx q => Sys2Proof.Machine.execPierDatagramTx q s
  | .netRxPush m q r h => Sys2Proof.Machine.execNetRxPush m q r h s
  | .pierDatagramRx q dport payload => Sys2Proof.Machine.execPierDatagramRx q dport payload s
  | .pierRxTimeout q r => Sys2Proof.Machine.execPierRxTimeout q r s
  | .hello q body => Sys2Proof.Machine.execHello q body s
  | .hcpRead q msg => Sys2Proof.Machine.execHcpRead q msg s
  | .hcpWrite q msg => Sys2Proof.Machine.execHcpWrite q msg s
  | .own q msg => Sys2Proof.Machine.execOwn q msg s
  | .hcpHeartbeat q msg => Sys2Proof.Machine.execHcpHeartbeat q msg s
  | .hcpTxn q msg => Sys2Proof.Machine.execHcpTxn q msg s
  | .withdrawList q msg => Sys2Proof.Machine.execWithdrawList q msg s
  | .hcpClose q msg => Sys2Proof.Machine.execHcpClose q msg s
  | .hcpPilotMessage q type msg => Sys2Proof.Machine.execHcpPilotMessage q type msg s
  | .netHcpSend m lo => Sys2Proof.Machine.execNetHcpSend m lo s
  | .hcpSessionTimeout idx => Sys2Proof.Machine.execHcpSessionTimeout idx s
  | .hcpHandshakeTimeout idx => Sys2Proof.Machine.execHcpHandshakeTimeout idx s
  | .arrayReply => Sys2Proof.Machine.execArrayReply s
  | .audStart m p rest => Sys2Proof.Machine.execAudStart m p rest s
  | .audStop m p rest => Sys2Proof.Machine.execAudStop m p rest s
  | .audAbort m p rest => Sys2Proof.Machine.execAudAbort m p rest s
  | .audPush m p h => Sys2Proof.Machine.execAudPush m p h s
  | .audFrame p samples => Sys2Proof.Machine.execAudFrame p samples s
  | .audClockLoss p => Sys2Proof.Machine.execAudClockLoss p s
  | .zcTimeout p slot => Sys2Proof.Machine.execZcTimeout p slot s
  | .scgLocked g => Sys2Proof.Machine.execScgLocked g s
  | .scgHoldover g => Sys2Proof.Machine.execScgHoldover g s
  | .twbEnable m b rest line => Sys2Proof.Machine.execTwbEnable m b rest line s
  | .twbDisable m b rest => Sys2Proof.Machine.execTwbDisable m b rest s
  | .twbClear m b rest line => Sys2Proof.Machine.execTwbClear m b rest line s
  | .twbAbort m b rest => Sys2Proof.Machine.execTwbAbort m b rest s
  | .twbXfer m b rest => Sys2Proof.Machine.execTwbXfer m b rest s
  | .twbXferStart b line lost => Sys2Proof.Machine.execTwbXferStart b line lost s
  | .twbXferDone b a => Sys2Proof.Machine.execTwbXferDone b a s
  | .twbAlert m b rest => Sys2Proof.Machine.execTwbAlert m b rest s
  | .twbTargetWrite b general bytes => Sys2Proof.Machine.execTwbTargetWrite b general bytes s
  | .twbTargetRead b n => Sys2Proof.Machine.execTwbTargetRead b n s
  | .twbStretchTimeout b => Sys2Proof.Machine.execTwbStretchTimeout b s
  | .sclStuck b => Sys2Proof.Machine.execSclStuck b s
  | .twbSupplyFault b => Sys2Proof.Machine.execTwbSupplyFault b s
  | .twbFaultRecover b => Sys2Proof.Machine.execTwbFaultRecover b s
  | .twbWakeMatch b => Sys2Proof.Machine.execTwbWakeMatch b s
  | .ctWrite b cmd addr v crc => Sys2Proof.Machine.execCtWrite b cmd addr v crc s
  | .ctRead b cmd addr crc n => Sys2Proof.Machine.execCtRead b cmd addr crc n s
  | .gpioEdge n rising => Sys2Proof.Machine.execGpioEdge n rising s
  | .gpioDriveFault pin level => Sys2Proof.Machine.execGpioDriveFault pin level s
  | .gpioFaultRetry pin pass => Sys2Proof.Machine.execGpioFaultRetry pin pass s
  | .gpioFaultClear m t => Sys2Proof.Machine.execGpioFaultClear m t s
  | .secReady ok => Sys2Proof.Machine.execSecReady ok s
  | .certLoad m rest => Sys2Proof.Machine.execCertLoad m rest s
  | .ownerBurn m rest burnt => Sys2Proof.Machine.execOwnerBurn m rest burnt s
  | .ownerRevoke m rest burnt => Sys2Proof.Machine.execOwnerRevoke m rest burnt s
  | .policyBurn m rest burnt => Sys2Proof.Machine.execPolicyBurn m rest burnt s
  | .recipSet m rest => Sys2Proof.Machine.execRecipSet m rest s
  | .clipOpen m rest => Sys2Proof.Machine.execClipOpen m rest s
  | .clipLoad m rest => Sys2Proof.Machine.execClipLoad m rest s
  | .clipClose m rest => Sys2Proof.Machine.execClipClose m rest s
  | .arrayKey m rest => Sys2Proof.Machine.execArrayKey m rest s
  | .attest m rest => Sys2Proof.Machine.execAttest m rest s
  | .secCmdDone => Sys2Proof.Machine.execSecCmdDone s
  | .secLeafHash idx => Sys2Proof.Machine.execSecLeafHash idx s
  | .chainSignDone d => Sys2Proof.Machine.execChainSignDone d s
  | .secPush m h => Sys2Proof.Machine.execSecPush m h s
  | .record m => Sys2Proof.Machine.execRecord m s
  | .replay m => Sys2Proof.Machine.execReplay m s
  | .logRun m => Sys2Proof.Machine.execLogRun m s
  | .logStop m => Sys2Proof.Machine.execLogStop m s
  | .logOutPush m h => Sys2Proof.Machine.execLogOutPush m h s
  | .logInPush m h => Sys2Proof.Machine.execLogInPush m h s
  | .logFeed m p raw map => Sys2Proof.Machine.execLogFeed m p raw map s
  | .replayWrite => Sys2Proof.Machine.execReplayWrite s
  | .powerOn => Sys2Proof.Machine.execPowerOn s
  | .resetPinAssert => Sys2Proof.Machine.execResetPinAssert s
  | .resetPinRelease banks => Sys2Proof.Machine.execResetPinRelease banks s
  | .brownout first second => Sys2Proof.Machine.execBrownout first second s
  | .brownoutRelease banks => Sys2Proof.Machine.execBrownoutRelease banks s
  | .sleep m rest => Sys2Proof.Machine.execSleep m rest s
  | .sleepEntryDone => Sys2Proof.Machine.execSleepEntryDone s
  | .warm m rest => Sys2Proof.Machine.execWarm m rest s
  | .wakeGpio n => Sys2Proof.Machine.execWakeGpio n s
  | .wakeReset banks => Sys2Proof.Machine.execWakeReset banks s
  | .pwrBlockReset m v => Sys2Proof.Machine.execPwrBlockReset m v s
  | .wdogKick m v => Sys2Proof.Machine.execWdogKick m v s
  | .wdogExpiry => Sys2Proof.Machine.execWdogExpiry s
  | .vcoreVidStep => Sys2Proof.Machine.execVcoreVidStep s
  | .domainSwitchOn u => Sys2Proof.Machine.execDomainSwitchOn u s
  | .domainGateOff u => Sys2Proof.Machine.execDomainGateOff u s
  | .portPinFault pin mv => Sys2Proof.Machine.execPortPinFault pin mv s
  | .portFaultRetry pin pass => Sys2Proof.Machine.execPortFaultRetry pin pass s
  | .refLoss ppm => Sys2Proof.Machine.execRefLoss ppm s
  | .refHoldExpiry => Sys2Proof.Machine.execRefHoldExpiry s
  | .refRestore => Sys2Proof.Machine.execRefRestore s
  | .thermalSample dieT stackT => Sys2Proof.Machine.execThermalSample dieT stackT s
  | .extest scan => Sys2Proof.Machine.execExtest scan s
  | .idcode => Sys2Proof.Machine.execIdcode s
  | .samplePreload scan => Sys2Proof.Machine.execSamplePreload scan s
  | .highz => Sys2Proof.Machine.execHighz s
  | .clamp => Sys2Proof.Machine.execClamp s
  | .debug => Sys2Proof.Machine.execDebug s
  | .bypass => Sys2Proof.Machine.execBypass s
  | .debugAccess dr => Sys2Proof.Machine.execDebugAccess dr s
  | .ethLinkUp q fecErr => Sys2Proof.Machine.execEthLinkUp q fecErr s
  | .ethLinkDown q fecErr => Sys2Proof.Machine.execEthLinkDown q fecErr s
  | .arpReply q v6 addr mac => Sys2Proof.Machine.execArpReply q v6 addr mac s
  | .netRxDiscard q => Sys2Proof.Machine.execNetRxDiscard q s
  | .laneSignalLoss p idx => Sys2Proof.Machine.execLaneSignalLoss p idx s

end Sys2Proof.Machine
end

