-- ==== Sys2Proof/Machine/Step.lean ====
section
/-! DEFINITION. One step of the block: the command at the front of the queue, or with none waiting one FCLK cycle (log entry 25). -/

namespace Sys2Proof.Machine

/-- The command at the front of the queue takes effect on the rest; an empty queue lets one FCLK cycle pass. -/
def step (s : State) : Host.Outcome State Fault Refusal :=
  match s.pending with
  | [] => .next s.fclk
  | c :: rest => exec c { s with pending := rest }

/-- The command that a word spells goes to the front of the queue; where it spells none, nothing changes. -/
def State.withFetchWord (s : State) (nbits w : Nat) : State :=
  match decodeTableWord nbits w with
  | some c => { s with pending := c :: s.pending }
  | none => s

end Sys2Proof.Machine
end

