-- ==== Sys2Proof/Safety.lean ====
section
/-! DEFINITION. What the claims call a good state, a completed command, and a change of parts of the state only. -/

namespace Sys2Proof.Machine

/-- DRAM is in its canonical form: addresses strictly rising, and no entry equal to what an unlisted byte reads as. -/
abbrev Memory.wf (m : List Host.Cell) : Bool := SMap.wf (fun _ => (0 : Byte)) m

/-- Control space is in its canonical form: addresses strictly rising, and no word listed at its reset value. -/
abbrev Regs.wf (m : SMap Word) : Bool := SMap.wf resetWord m

/-- A master ID is 0 or one that can own Daxma (R46). -/
def ownerId (m : Nat) : Bool := decide (m = 0) || isControlMaster m

/-- A slot entry is good: one of the eight slots (R58), its transaction within 4,096 values (R60). -/
def slotOk (e : Nat × Option Txn) : Bool :=
  decide (e.1 < 8) && (match e.2 with | some t => decide (t.writes.length ≤ 4096) | none => true)

/-- The harbourmaster, the target of a handover and every waiting claim are control masters (R46, R51, R56); at most 16 commits wait to land (R63), and every slot entry is good. -/
def Sys.ok (x : Sys) : Bool :=
  ownerId x.owner && ownerId x.handover && (x.waits.all fun w => isControlMaster w.master) && decide (x.landq.length ≤ 16) &&
    x.slots.all slotOk

/-- An RC field as it stood before this FCLK cycle's events, `shown` being what it shows now (R9). -/
def State.rcBefore (s : State) (x : Fld) (shown : Nat) : Nat :=
  match s.evAdd.find? fun e => e.1 == State.fldKey x with
  | some (_, base, _) => base % 2 ^ (x.hi + 1 - x.lo)
  | none => shown

/-- The command completes with a next state of which `p` holds. -/
def Completes (c : Instr) (s : State) (p : State → Prop) : Prop := ∃ t, exec c s = .next t ∧ p t

/-- No transmit stream, layer or encoder slot is enabled, so that none follows the berths that other units write or release (R242, R322, R363). -/
def State.noFollower (s : State) : Prop :=
  (∀ q t, q < 2 → t < 32 → s.appliedFld (State.netKey q) (Reg.NET_TX_CFG_EN q t) ≠ 1) ∧
  (∀ l, l < 16 → s.appliedFld (State.layerKey l) (Reg.SCN_LAYER_CFG_EN l) ≠ 1) ∧
  (∀ e i x, e < 4 → i < 4 → s.bankFld (8 + e) x (Reg.ENC_SLOT_CFG_EN e i) ≠ 1)

/-- The parts of the state, one per field. -/
inductive Part where
  | pending | now | fresh | regs | held | latched | rsp | evSet | evAdd | evPosted
  | mem | fab | sys | time | pilots | shared | published | log | queues | leaves
  | cal | lanes | ports | pipes | encPics | encStreams | decs | lze | memsys | scn
  | pcx | sec | nets | hcp | aud | twbs | gpio | pwr | jtag
  deriving DecidableEq, Repr

/-- Two states agree on a part. -/
def Part.same (s t : State) : Part → Prop
  | .pending => t.pending = s.pending
  | .now => t.now = s.now
  | .fresh => t.fresh = s.fresh
  | .regs => t.regs = s.regs
  | .held => t.held = s.held
  | .latched => t.latched = s.latched
  | .rsp => t.rsp = s.rsp
  | .evSet => t.evSet = s.evSet
  | .evAdd => t.evAdd = s.evAdd
  | .evPosted => t.evPosted = s.evPosted
  | .mem => t.mem = s.mem
  | .fab => t.fab = s.fab
  | .sys => t.sys = s.sys
  | .time => t.time = s.time
  | .pilots => t.pilots = s.pilots
  | .shared => t.shared = s.shared
  | .published => t.published = s.published
  | .log => t.log = s.log
  | .queues => t.queues = s.queues
  | .leaves => t.leaves = s.leaves
  | .cal => t.cal = s.cal
  | .lanes => t.lanes = s.lanes
  | .ports => t.ports = s.ports
  | .pipes => t.pipes = s.pipes
  | .encPics => t.encPics = s.encPics
  | .encStreams => t.encStreams = s.encStreams
  | .decs => t.decs = s.decs
  | .lze => t.lze = s.lze
  | .memsys => t.memsys = s.memsys
  | .scn => t.scn = s.scn
  | .pcx => t.pcx = s.pcx
  | .sec => t.sec = s.sec
  | .nets => t.nets = s.nets
  | .hcp => t.hcp = s.hcp
  | .aud => t.aud = s.aud
  | .twbs => t.twbs = s.twbs
  | .gpio => t.gpio = s.gpio
  | .pwr => t.pwr = s.pwr
  | .jtag => t.jtag = s.jtag

/-- Between `s` and `t` nothing changes but the parts named. -/
def Only (ps : List Part) (s t : State) : Prop := ∀ p, p ∉ ps → Part.same s t p

/-- A word that records and dockets never change: not LOG_STATUS, LOG_EVENT, LOG_CNT_LOST or LOG_REPLAY_CNT, and no docket counter of a pilot. -/
def calm (x : Nat) : Bool :=
  !decide (x = 0x50004 ∨ x = 0x50044 ∨ x = 0x5004C ∨ x = 0x50068) && !(decide (0x30000 ≤ x ∧ x < 0x40000) && decide (x % 0x1000 = 0x34))

/-- A pilot without its docket queue. -/
def Pilot.core (p : Pilot) : Pilot := { p with arrivals := [], drops := 0 }

/-- The parts in which event bits, counters, dockets, records and held upper words stand. -/
def sideParts : List Part := [.regs, .held, .evSet, .evAdd, .evPosted, .pilots, .log]

/-- What a command leaves alone: every part but `ps` and those that hold its words, event bits, dockets and records; every control-space word but `as` and those that records and dockets change; and the pilots, but for their docket queues. -/
def Frame (ps : List Part) (as : List Nat) (s t : State) : Prop :=
  Only (ps ++ sideParts) s t ∧ (∀ x, calm x = true → x ∉ as → t.word x = s.word x) ∧ ∀ k, (t.pilot k).core = (s.pilot k).core

end Sys2Proof.Machine

namespace Sys2Proof.Machine

/-- Pilot `k` issues an instruction of guard `g`: it runs, its pc lies in program memory, and the guard is not the reserved one and holds (R75, R78). -/
def State.issues (s : State) (k : Fin 16) (g : Guard) : Prop :=
  (s.pilot k).st = .running ∧ (s.pilot k).pc < 0x10000 ∧ ¬(g.n = true ∧ g.p = 0) ∧ s.pred k g.p ≠ g.n

/-- Pilot `k` has a handler and is not in it (R86). -/
def State.catches (s : State) (k : Fin 16) : Prop := (s.pilot k).handler = false ∧ (s.pilot k).evec ≠ 0

/-- Pilot `k` becomes `p`; nothing else of the state changes. -/
def PilotOnly (k : Fin 16) (p : Pilot) (s t : State) : Prop :=
  t.pilot k = p ∧ (∀ j, j ≠ k.val → t.pilot j = s.pilot j) ∧ Only [.pilots] s t

/-- An instruction of pilot `k` retires and goes to `pc`; of the pilot it changes what `p` says, and of the rest of the state nothing. -/
def RetiresAt (k : Fin 16) (pc : Nat) (p : Pilot) (s t : State) : Prop :=
  PilotOnly k { p with pc := pc, retired := ((s.pilot k).retired + 1) % 2 ^ 64 } s t

/-- Register `rd` of pilot `k` takes `v`, unless it is x0; the other registers keep their values. -/
def Puts (k : Fin 16) (rd : Fin 32) (v : Word64) (s t : State) : Prop :=
  ∀ i, t.xreg k i = if i = rd ∧ rd ≠ 0 then v else s.xreg k i

/-- The result `v` of an instruction of pilot `k` goes to `rd`, and nothing else changes but pc and RETIRED. -/
def Gives (k : Fin 16) (rd : Fin 32) (v : Word64) (s t : State) : Prop :=
  Puts k rd v s t ∧ RetiresAt k ((s.pilot k).pc + 4) { s.pilot k with x := (t.pilot k).x } s t

/-- An instruction of pilot `k` raises an exception and enters the handler (R86): it does not retire, and nothing but the pilot's exception registers and pc changes. -/
def Raises (k : Fin 16) (cause : Nat) (eval : Word64) (s t : State) : Prop :=
  PilotOnly k { s.pilot k with
    epc := BitVec.ofNat 64 (s.pilot k).pc, ecause := cause, eval := eval, handler := true, pc := (s.pilot k).evec.toNat / 4 * 4 } s t

/-- Pilot `k` becomes `p`, but for dockets that arrive; the other pilots change by arriving dockets only; of the rest only the parts `ps`, the words `as` and what records and events touch. -/
def Pilots (k : Fin 16) (p : Pilot) (ps : List Part) (as : List Nat) (s t : State) : Prop :=
  (t.pilot k).core = p.core ∧ (∀ j, j ≠ k.val → (t.pilot j).core = (s.pilot j).core) ∧ Only (ps ++ sideParts) s t ∧
  ∀ x, calm x = true → x ∉ as → t.word x = s.word x

/-- A logged instruction of pilot `k` retires outside replay (R92): `v` goes to `rd`; besides its VALUE record, its effect changes only the parts `ps` and the words `as`. -/
def Logs (k : Fin 16) (rd : Fin 32) (v : Word64) (ps : List Part) (as : List Nat) (s t : State) : Prop :=
  Puts k rd v s t ∧
  Pilots k { s.pilot k with x := (t.pilot k).x, pc := (s.pilot k).pc + 4, retired := ((s.pilot k).retired + 1) % 2 ^ 64 } ps as s t

/-- Unit `u`'s power domain is on and its block is not being reset, so that a start operation is performed at once (R452, R456). -/
def State.awake (s : State) (u : Nat) : Prop := s.domainOn_ u = true ∧ s.pwr.block ≠ some (u, s.now)

/-- A docket is posted (R88): outside replay, every LOADED, RUNNING or WAITING pilot that subscribes to its kind, and whose queue has room for it and for the events that may come before it, takes it. -/
def Posts (kind src sub payload : Nat) (s t : State) : Prop :=
  s.replaying = false → ∀ j, j < 16 → ((s.pilot j).st = .loaded ∨ (s.pilot j).st = .running ∨ (s.pilot j).st = .waiting) →
    State.queued (s.pilot j) < 240 → bit (s.word (Reg.PILOT_DKT_SUB_MASK j).addr).toNat kind = true →
    ⟨kind, src, sub, payload, s.now, 0⟩ ∈ (t.pilot j).arrivals

end Sys2Proof.Machine

namespace Sys2Proof.Machine

/-- An HCP message on port `q` is of the open session `i`, its tag verifies and gives `plain`, and its sequence is new (R371, R418). -/
def State.accepts (s : State) (q i type : Nat) (msg : HcpMsg) (plain : List Byte) : Prop :=
  s.netLink q = true ∧ msg.session.toNat = i ∧ i < 8 ∧ s.fld (Reg.SEC_SESS_STATE i) = 2 ∧
  gcmOpen (s.hcpSess i).c2d ((s.hcpSess i).saltC ++ zeros 4 ++ bytesLE 4 msg.seq.toNat) (State.msgHead type msg) msg.body msg.tag = (plain, true) ∧
  ∀ l, (s.hcpSess i).last = some l → l < msg.seq.toNat

/-- A message of sequence `seq` is answered on port `q` by a reply of `type` and `body`, which session `i` keeps (R370, R371). -/
def Replies (q i type seq : Nat) (body : List Byte) (t : State) : Prop :=
  ∃ o, t.hcp.out = some o ∧ o.port = q ∧ o.session = i ∧ o.type = type ∧ o.reply = true ∧ o.seq = seq ∧ o.body = body ∧
    (t.hcpSess i).last = some seq ∧ (t.hcpSess i).stored = some o

/-- The state with session `i` heard from now. -/
def State.heard (s : State) (i : Nat) : State := s.setHcpSess i { s.hcpSess i with validAt := s.now }

end Sys2Proof.Machine

namespace Sys2Proof.Machine

/-- Master `m` may give SEC a command that runs at once: SEC is ready, not BUSY and not in a replay mode, the key of burns stands (R414, R430). -/
def State.secTakes (s : State) (m : Nat) : Prop :=
  s.mayWrite m 0x40000 .plain = true ∧ s.secReady = true ∧ s.flag Reg.SEC_CMD_STATUS_BUSY = false ∧ s.replayMode = false ∧ m < 16 ∧
  s.fld Reg.SEC_CMD_KEY_KEY = 0x5EC00F5E

/-- Berth `h` gives SEC `n` input bytes `bs` at SEC_CMD_OFS (R430). -/
def State.secSees (s : State) (h n : Nat) (bs : List Byte) : Prop :=
  h ≠ 0 ∧ (s.berth h).st = .held ∧ (s.berth h).count < 255 ∧ s.fld Reg.SEC_CMD_OFS_OFS + n ≤ (s.berth h).pages * 4096 ∧
  bs = s.peek h (s.fld Reg.SEC_CMD_OFS_OFS) n

/-- A SEC command `op` is in progress and will end with result `r` (R430); nothing but SEC, the fabric's own records and what `ps` names changes. -/
def SecRuns (op r : Nat) (ps : List Part) (s t : State) : Prop :=
  t.sec.cmd = some (op, r) ∧ t.flag Reg.SEC_CMD_STATUS_BUSY = true ∧ Only ([.sec, .fab, .fresh] ++ ps ++ sideParts) s t

end Sys2Proof.Machine

namespace Sys2Proof.Machine

/-- A word that shows the fuses or one of `n` burnt records after a reset: the identity and fuse copies of SYS and CAL (R233, R234). -/
def fuseShown (n x : Nat) : Bool :=
  decide (x = 0x14) || decide (0x20 ≤ x ∧ x < 0x40) || decide (0x150800 ≤ x ∧ x < 0x150C00) || decide (0x151000 ≤ x ∧ x < 0x151400 + 8 * n) ||
  decide (x = 0x150040)

/-- What no reset of the device clears: the commands that wait, time, the burnt fuses and SEC's, and the JTAG port (R454, R485). -/
def Survives (s t : State) : Prop :=
  t.pending = s.pending ∧ t.now = s.now ∧ t.jtag = s.jtag ∧ t.cal.burnt = s.cal.burnt ∧ t.sec.slots = s.sec.slots ∧
  t.sec.revoked = s.sec.revoked ∧ t.sec.policy = s.sec.policy

/-- A COLD reset with `cause`, held by `hold` (R454, R455, R457): every word but RESET_CAUSE, the fuses shown and `ex` has its reset value, DRAM is lost, every part of the state is as after power-up but for what survives, and the domains wait for their turns. -/
def ColdReset (cause hold : Nat) (ex : List Nat) (s t : State) : Prop :=
  t.word 0x10008 = s.word 0x10008 ||| BitVec.ofNat 32 cause ∧
  (∀ x, x ≠ 0x10008 → x ∉ ex → fuseShown s.cal.burnt.length x = false → t.word x = resetWord x) ∧
  t.cal.loaded = s.cal.burnt.length ∧ t.pwr.holds = s.pwr.holds ||| hold ∧ t.pwr.waitOn = powerOrder.map (fun u => (u, s.now + 300000)) ∧
  Survives s t ∧ Only [.pending, .now, .fresh, .regs, .cal, .sec, .pwr, .jtag] State.reset t

/-- A WARM reset with `cause` (R454, R455): PWR, MEM and DRAM are kept, every other block has its reset contents and the fuses are not read again; PWR keeps its words but RESET_CAUSE and `ex`. -/
def WarmReset (cause : Nat) (ex : List Nat) (s t : State) : Prop :=
  t.word 0x10008 = s.word 0x10008 ||| BitVec.ofNat 32 cause ∧
  (∀ x, x ≠ 0x10008 → x ∉ ex → (0x10000 ≤ x ∧ x < 0x20000) ∨ (0x1A0000 ≤ x ∧ x < 0x1C0000) →
    fuseShown s.cal.burnt.length x = false → t.word x = s.word x) ∧
  (∀ x, ¬(0x10000 ≤ x ∧ x < 0x20000) → ¬(0x1A0000 ≤ x ∧ x < 0x1C0000) → fuseShown s.cal.burnt.length x = false → t.word x = resetWord x) ∧
  t.mem = s.mem ∧ t.memsys = s.memsys ∧ t.cal.loaded = s.cal.loaded ∧ Survives s t ∧
  Only [.pending, .now, .fresh, .regs, .held, .latched, .mem, .memsys, .cal, .sec, .evSet, .pwr, .jtag] State.reset t

end Sys2Proof.Machine
end

