-- ==== Sys2Proof/Certificates/Slice0/Obligations.lean ====
section
/-! DEFINITION. The statements about this model that the provers prove: one `Prop` each, at root level under `Obligations`. -/

open Sys2Proof Sys2Proof.Machine

/-- A step takes the command at the front of the queue and is that command's effect on the state with the queue's rest. -/
def Obligations.StepRunsFrontCommand : Prop :=
  ∀ (c : Instr) (rest : List Instr) (s : State), s.pending = c :: rest → step s = exec c { s with pending := rest }

/-- With no command waiting a step is one FCLK cycle: it completes and the cycle count goes up by one. The model's choice (log entry 25): the table has no row for a clock tick. -/
def Obligations.EmptyQueueLetsOneCyclePass : Prop :=
  ∀ s : State, s.pending = [] → ∃ t, step s = .next t ∧ t.now = s.now + 1 ∧ t.pending = []

/-- R6: a write with partial byte enables or a misaligned address is discarded; a read with either returns 0, clears nothing and latches nothing. R7: a write of an unmapped address is ignored and a read of it returns 0, in all of control space but the berth aperture (R40), which no map lists. -/
def Obligations.DiscardedAccesses : Prop :=
  (∀ (m : Fin 32) (addr : BitVec 32) (be : BitVec 4) (v : Word) (s : State), be.toNat ≠ 15 ∨ addr.toNat % 4 ≠ 0 →
      exec (.registerWrite m addr be v) s = .next s ∧
      exec (.rcRead m addr be) s = .next { s with rsp := 0 } ∧
      exec (.wideValueRead m addr be) s = .next { s with rsp := 0 }) ∧
  (∀ (m : Fin 32) (addr : BitVec 32) (be : BitVec 4) (v : Word) (s : State), regAt addr.toNat = none →
      ¬(0x68000 ≤ addr.toNat ∧ addr.toNat < 0x69000) →
      (s.mayWrite m.val addr.toNat .plain = true → exec (.registerWrite m addr be v) s = .next s) ∧
      exec (.rcRead m addr be) s = .next { s with rsp := 0 })

/-- R50: a write by a master that may not write is discarded. SYS_REJECT_CNT goes up (saturating, R10), SYS_REJECT_LAST names the master and the word, SYS_EVENT.REJECT is set and one logbook record is due; no other word changes. A program load is marked as one. R12, class X: while its block runs, a write of a word of class-X fields alone changes no word but the block's event bits, and WRITE_REJECT is set: a pilot's DKT_SUB, a decoder's FRAME_NUM, a network port's MTU and an audio port's CFG. -/
def Obligations.RejectedAndLockedWrites : Prop :=
  (∀ (m : Fin 32) (addr : BitVec 32) (v : Word) (s : State), s.mayWrite m.val addr.toNat .plain = false →
      addr.toNat % 4 = 0 → addr.toNat < 0x4000000 →
      Completes (.registerWrite m addr 15 v) s fun t =>
        t.fld Reg.SYS_REJECT_CNT_COUNT = min (s.fld Reg.SYS_REJECT_CNT_COUNT + 1) (2 ^ 32 - 1) ∧
        t.fld Reg.SYS_REJECT_LAST_MASTER = m.val ∧ t.fld Reg.SYS_REJECT_LAST_WORD = addr.toNat / 4 ∧
        t.fld Reg.SYS_REJECT_LAST_LOAD = b01 (State.isLoad addr.toNat) ∧
        t.word 0x130 = s.word 0x130 ||| 1 ∧ Frame [] [0x120, 0x124, 0x130] s t) ∧
  (∀ (m : Fin 32) (v : Word) (s : State),
      (∀ k : Fin 16, s.mayWrite m.val (0x30030 + 0x1000 * k.val) .plain = true →
        ((s.pilot k.val).st = .running ∨ (s.pilot k.val).st = .waiting) →
        Completes (.registerWrite m (BitVec.ofNat 32 (0x30030 + 0x1000 * k.val)) 15 v) s fun t =>
          t.word (0x3003C + 0x1000 * k.val) = s.word (0x3003C + 0x1000 * k.val) ||| 1 ∧ Frame [] [0x3003C + 0x1000 * k.val] s t) ∧
      (∀ d : Fin 2, s.mayWrite m.val (0x180028 + 0x4000 * d.val) .plain = true → s.fld (Reg.DEC_STATUS_STATE d.val) ≠ 0 →
        Completes (.registerWrite m (BitVec.ofNat 32 (0x180028 + 0x4000 * d.val)) 15 v) s fun t =>
          t.flag (Reg.DEC_EVENT_WRITE_REJECT d.val) = true ∧ Frame [] [0x180030 + 0x4000 * d.val] s t) ∧
      (∀ q : Fin 2, s.mayWrite m.val (0x1E0004 + 0x4000 * q.val) .plain = true → s.netOn q.val = true →
        Completes (.registerWrite m (BitVec.ofNat 32 (0x1E0004 + 0x4000 * q.val)) 15 v) s fun t =>
          t.flag (Reg.NET_EVENT_WRITE_REJECT q.val) = true ∧ Frame [] [0x1E0060 + 0x4000 * q.val] s t) ∧
      (∀ p : Fin 16, s.mayWrite m.val (0x1F1004 + 0x100 * p.val) .plain = true → s.audState p.val ≠ 0 →
        Completes (.registerWrite m (BitVec.ofNat 32 (0x1F1004 + 0x100 * p.val)) 15 v) s fun t =>
          t.flag (Reg.AUD_EVENT_WRITE_REJECT p.val) = true ∧ Frame [] [0x1F1028 + 0x100 * p.val] s t))

/-- A permitted write of a one-word register of SYS, PWR or FAB whose fields are all of code RW and class L, and which starts no action: every field takes its part of the value, clamped where its map clamps, and no other word changes (R8, R12). -/
def Obligations.RegisterWriteSetsLiveFields : Prop :=
  ∀ (m : Fin 32) (addr : BitVec 32) (v : Word) (s : State), s.mayWrite m.val addr.toNat .plain = true → addr.toNat % 4 = 0 →
    (0x10C ≤ addr.toNat ∧ addr.toNat < 0x10000 ∨ 0x10018 ≤ addr.toNat ∧ addr.toNat < 0x20000 ∨
      0x60000 ≤ addr.toNat ∧ addr.toNat < 0x68000 ∧ addr.toNat ≠ 0x60200) →
    State.fieldsAt addr.toNat ≠ [] → (∀ f ∈ State.fieldsAt addr.toNat, f.acc = .rw ∧ f.cls = .l) → wideOf addr.toNat = (0, 1) →
    Completes (.registerWrite m addr 15 v) s fun t =>
      (∀ f ∈ State.fieldsAt addr.toNat, t.fld ⟨addr.toNat, f.hi, f.lo⟩ = bits (clampWrite addr.toNat v.toNat) f.hi f.lo) ∧
      Frame [] [addr.toNat] s t

/-- A write of ones to an event word of SYS, PWR or FAB clears those bits, but an event bit set in this same FCLK cycle stays set (R8, R9). R8, R9: a read of a register returns each RC field as it stood before this FCLK cycle's events and leaves in it those events alone. Its own WRITE record (R432) counts in no calm word. -/
def Obligations.EventBitsAndCounters : Prop :=
  (∀ (m : Fin 32) (addr : BitVec 32) (v : Word) (s : State), s.mayWrite m.val addr.toNat .plain = true →
      (addr = 0x130 ∨ addr = 0x100D0 ∨ addr = 0x60000) →
      Completes (.registerWrite m addr 15 v) s fun t =>
        (∀ f ∈ State.fieldsAt addr.toNat, t.fld ⟨addr.toNat, f.hi, f.lo⟩ =
          (if bits v.toNat f.hi f.lo = 1 ∧ bits (s.evSet.get (fun _ => 0) addr.toNat).toNat f.hi f.lo = 0 then 0
           else s.fld ⟨addr.toNat, f.hi, f.lo⟩)) ∧ Frame [] [addr.toNat] s t) ∧
  (∀ (m : Fin 32) (addr : BitVec 32) (r : RegDesc) (s : State), addr.toNat % 4 = 0 → addr.toNat < 0x4000000 →
      regAt addr.toNat = some r → ¬(0x68000 ≤ addr.toNat ∧ addr.toNat < 0x69000) → wideOf addr.toNat = (0, 1) →
      (calm addr.toNat = true ∨ isControlMaster m.val = false) →
      Completes (.rcRead m addr 15) s fun t =>
        (∀ f ∈ r.fields, f.acc = .rc →
          bits t.rsp.toNat f.hi f.lo = s.rcBefore ⟨addr.toNat, f.hi, f.lo⟩ (bits (s.showWord m.val addr.toNat r) f.hi f.lo) ∧
          t.fld ⟨addr.toNat, f.hi, f.lo⟩ = s.rcShare ⟨addr.toNat, f.hi, f.lo⟩ % 2 ^ (f.hi + 1 - f.lo)) ∧
        Frame [.rsp, .fresh] [addr.toNat] s t)

/-- R11: a read of the lowest word of a wide value returns it and latches every other word as it then shows; a read of an upper word returns the latched word and changes nothing. -/
def Obligations.WideReadLatchesUpperWords : Prop :=
  ∀ (m : Fin 32) (addr : BitVec 32) (n : Nat) (r : RegDesc) (s : State), addr.toNat % 4 = 0 → addr.toNat < 0x4000000 →
    regAt addr.toNat = some r → ¬(0x68000 ≤ addr.toNat ∧ addr.toNat < 0x69000) →
    (wideOf addr.toNat = (0, n) → 1 < n →
      Completes (.wideValueRead m addr 15) s fun t =>
        t.rsp = BitVec.ofNat 32 (s.showWord m.val addr.toNat r) ∧
        (∀ i q, 0 < i → i < n → regAt (addr.toNat + 4 * i) = some q →
          t.latched.get (fun _ => none) (addr.toNat + 4 * i) = some (BitVec.ofNat 32 (s.showWord m.val (addr.toNat + 4 * i) q))) ∧
        Frame [.rsp, .latched, .fresh] [addr.toNat] s t) ∧
    (∀ i w, wideOf addr.toNat = (i, n) → i ≠ 0 → s.latched.get (fun _ => none) addr.toNat = some w →
      exec (.wideValueRead m addr 15) s = .next { s with rsp := w })

/-- R40, R47: a read of the berth aperture by a master other than the harbourmaster returns 0; the harbourmaster's returns the four bytes of the named berth at the aperture base, little-endian, while unit 40 may read them. -/
def Obligations.ApertureReadsNamedBerth : Prop :=
  ∀ (m : Fin 32) (idx : Fin 1024) (s : State),
    ((m.val = 0 ∨ s.sys.owner ≠ m.val) → exec (.apDataRead m idx) s = .next { s with rsp := 0 }) ∧
    (m.val ≠ 0 → s.sys.owner = m.val →
      s.accessCause 40 (s.fld Reg.FAB_AP_HANDLE_HANDLE) (s.apBase + 4 * idx.val) 4 = 0 →
      exec (.apDataRead m idx) s = .next { s with rsp := BitVec.ofNat 32 (ofBytesLE
        (s.memRead ((s.berth (s.fld Reg.FAB_AP_HANDLE_HANDLE)).base * 4096 + (s.apBase + 4 * idx.val)) 4)) })

/-- R14, and the reset columns of the maps: after reset no word differs from its reset value, tides do not run, no master owns Daxma, every berth is FREE, every pilot is EMPTY and nothing waits. The values are the spec's; that nothing waits is the block's queue. The state after reset has canonical DRAM and canonical control space, and its ownership and transaction state is good. -/
def Obligations.ResetLeavesResetValues : Prop :=
  ((∀ a, State.reset.word a = resetWord a) ∧ State.reset.running = false ∧ State.reset.sys.owner = 0 ∧
      (∀ h, (State.reset.berth h).st = .free) ∧ (∀ k, (State.reset.pilot k).st = .empty) ∧
      State.reset.pending = [] ∧ State.reset.sys.landq = [] ∧ (∀ i, State.reset.slot i = none)) ∧
  (Memory.wf State.reset.mem = true ∧ Regs.wf State.reset.regs = true ∧ State.reset.sys.ok = true)

/-- Every command completes in every state, but for a memory request beyond DRAM, which stops: no map gives those addresses memory (R295). No command's effect touches the queue of waiting commands. -/
def Obligations.EveryCommandCompletes : Prop :=
  ((∀ (c : Instr) (s : State), (∀ q addr half write ecc, c = .memRequest q addr half write ecc → addr < 0x3000000000) →
      ∃ t, exec c s = .next t) ∧
    (∀ q addr half write ecc s, 0x3000000000 ≤ addr → exec (.memRequest q addr half write ecc) s = .fault (.noSuchAddress addr))) ∧
  (∀ (c : Instr) (s t : State), exec c s = .next t → t.pending = s.pending)

/-- Every step keeps DRAM in its canonical form, from every state that has it there. -/
def Obligations.StepKeepsMemoryCanonical : Prop :=
  ∀ s t : State, Memory.wf s.mem = true → step s = .next t → Memory.wf t.mem = true

/-- Every step keeps the ownership and transaction state good: only control masters own, inherit or wait (R46, R51, R56), at most 16 commits wait to land (R63), slots are 0 to 7 (R58) and a shadow copy holds at most 4,096 values (R60). -/
def Obligations.StepKeepsOwnershipGood : Prop :=
  ∀ s t : State, s.sys.ok = true → step s = .next t → t.sys.ok = true

/-- R36: an acquire of a HELD berth adds one to its count and gives the unit a reference, whose first parcel will bring the manifest; of a FREE or DRAINING berth, of handle 0 or at count 255 it is refused and recorded as a BERTH_FAULT (R39). Nothing else changes. R36: where no queue follows the released berth, a release of a HELD berth takes one off its count, and a DRAINING berth that comes to 0 is FREE; the unit's oldest reference is dropped. At count 0, and of a FREE berth or handle 0, it is a BERTH_FAULT. -/
def Obligations.ReferencesAreCounted : Prop :=
  (∀ (u : Fin 45) (h : BitVec 16) (s : State),
      (h ≠ 0 → (s.berth h.toNat).st = .held → (s.berth h.toNat).count < 255 →
        Completes (.berthAcquire u h) s fun t =>
          t.berth h.toNat = { s.berth h.toNat with count := (s.berth h.toNat).count + 1 } ∧
          t.fab.refs = s.fab.refs ++ [⟨h.toNat, u.val, true⟩] ∧ (∀ j, j ≠ h.toNat → t.berth j = s.berth j) ∧ Frame [.fab] [] s t) ∧
      (h = 0 ∨ (s.berth h.toNat).st ≠ .held ∨ (s.berth h.toNat).count = 255 →
        Completes (.berthAcquire u h) s fun t =>
          t.fab = s.fab ∧ t.flag Reg.FAB_EVENT_BERTH_FAULT = true ∧ t.fld Reg.FAB_BERTH_FAULT_HANDLE = h.toNat ∧
          t.fld Reg.FAB_BERTH_FAULT_UNIT = u.val ∧ Frame [] [0x60000, 0x60128, 0x6012C] s t)) ∧
  (∀ (u : Fin 45) (h : BitVec 16) (s : State), s.noFollower →
      (h ≠ 0 → (s.berth h.toNat).st ≠ .free → 0 < (s.berth h.toNat).count →
        Completes (.berthRelease u h) s fun t =>
          (t.berth h.toNat).count = (s.berth h.toNat).count - 1 ∧
          (t.berth h.toNat).st = (if (s.berth h.toNat).st = .draining ∧ (s.berth h.toNat).count = 1 then .free else (s.berth h.toNat).st) ∧
          (t.berth h.toNat).base = (s.berth h.toNat).base ∧ (t.berth h.toNat).man = (s.berth h.toNat).man ∧
          t.fab.refs = State.dropRef u.val h.toNat s.fab.refs ∧ (∀ j, j ≠ h.toNat → t.berth j = s.berth j) ∧ Frame [.fab] [] s t) ∧
      (h = 0 ∨ (s.berth h.toNat).st = .free ∨ (s.berth h.toNat).count = 0 →
        Completes (.berthRelease u h) s fun t =>
          t.fab = s.fab ∧ t.flag Reg.FAB_EVENT_BERTH_FAULT = true ∧ t.fld Reg.FAB_BERTH_FAULT_HANDLE = h.toNat ∧
          t.fld Reg.FAB_BERTH_FAULT_UNIT = u.val ∧ Frame [] [0x60000, 0x60128, 0x6012C] s t))

/-- R35 to R38, R501: a berth command that no other command keeps waiting starts with its handle and the argument registers as they stand. An allocation in range of a FREE berth makes it HELD with count 0 and a zero manifest; a free by the harbourmaster of an unreferenced HELD berth makes it FREE, and of a referenced one DRAINING, with the early free counted; a query changes no berth. BERTH_CMD_DONE then ends the command and shows its result, and a query's entry. R501: when the running berth command ends, FAB_BERTH_CMD.RESULT holds its result and the next command may start; a query also fills the argument registers. -/
def Obligations.BerthCommandsFollowTable : Prop :=
  (∀ (m : Fin 32) (h : BitVec 16) (s : State), s.mayWrite m.val 0x60100 .plain = true → s.fab.cmd = none → h ≠ 0 →
      isPilotMaster m.val = false →
      (∀ base pages, base = s.fld Reg.FAB_BERTH_BASE_LO_BASE_LO + s.fld Reg.FAB_BERTH_BASE_HI_BASE_HI <<< 20 →
        pages = s.fld Reg.FAB_BERTH_SIZE_PAGES → (s.berth h.toNat).st = .free → 0 < pages → pages ≤ 0x3000000 → base + pages ≤ 0x3000000 →
        Completes (.berthAllocate m h) s fun t =>
          t.berth h.toNat = ⟨base, pages, s.fld Reg.FAB_BERTH_ATTR_FORMAT, s.fld Reg.FAB_BERTH_ATTR_OWNER, 0, .held, {}, none⟩ ∧
          t.fab.cmd = some ⟨1, h.toNat, 0, none⟩ ∧ (∀ j, j ≠ h.toNat → t.berth j = s.berth j) ∧ Frame [.fab] [0x60100] s t) ∧
      ((s.berth h.toNat).st = .held → (s.berth h.toNat).count = 0 →
        Completes (.berthFree m h) s fun t =>
          t.berth h.toNat = { s.berth h.toNat with st := .free } ∧ t.fab.cmd = some ⟨2, h.toNat, 0, none⟩ ∧
          (∀ j, j ≠ h.toNat → t.berth j = s.berth j) ∧ Frame [.fab] [0x60100] s t) ∧
      ((s.berth h.toNat).st = .held → 0 < (s.berth h.toNat).count →
        Completes (.berthFree m h) s fun t =>
          t.berth h.toNat = { s.berth h.toNat with st := .draining } ∧ t.fab.cmd = some ⟨2, h.toNat, 5, none⟩ ∧
          t.flag Reg.FAB_EVENT_EARLY_FREE = true ∧ t.fld Reg.FAB_EARLY_FREE_LAST_HANDLE = h.toNat ∧
          (∀ j, j ≠ h.toNat → t.berth j = s.berth j) ∧ Frame [.fab] [0x60000, 0x60100, 0x60120, 0x60124] s t) ∧
      Completes (.berthQuery m h) s fun t =>
        (∀ j, t.berth j = s.berth j) ∧ t.fab.cmd = some ⟨3, h.toNat, 0, some (s.berth h.toNat)⟩ ∧ Frame [.fab] [0x60100] s t) ∧
  (∀ (c : BerthCmd) (s : State), s.fab.cmd = some c → c.result < 16 →
      (c.query = none → Completes .berthCmdDone s fun t =>
        t.fab = { s.fab with cmd := none } ∧ t.fld Reg.FAB_BERTH_CMD_RESULT = c.result ∧ Frame [.fab] [0x60100] s t) ∧
      (∀ b, c.query = some b → b.base < 2 ^ 26 → b.pages < 2 ^ 26 → b.count < 256 → b.owner < 64 → Completes .berthCmdDone s fun t =>
        t.fab = { s.fab with cmd := none } ∧ t.fld Reg.FAB_BERTH_CMD_RESULT = c.result ∧
        t.fld Reg.FAB_BERTH_SIZE_PAGES = b.pages ∧ t.fld Reg.FAB_BERTH_ATTR_REFCOUNT = b.count ∧
        t.fld Reg.FAB_BERTH_ATTR_STATE = State.stCode b.st ∧ t.fld Reg.FAB_BERTH_ATTR_OWNER = b.owner ∧
        Frame [.fab] [0x60100, 0x60104, 0x60108, 0x6010C, 0x60110, 0x60140, 0x60144, 0x60148, 0x6014C, 0x60150, 0x60154, 0x60158, 0x6015C] s t))

/-- R34, R39: a parcel whose sender holds a reference to the berth and whose payload lies in it is stored there, byte for byte, and no other byte of DRAM changes; the first parcel under a write reference brings its manifest, a later one merges flags and rows into it; in replay mode REPLAY is set (R27). A parcel from a unit without a reference, or beyond the berth, is discarded and recorded. The VC that a starvation limit favours at the hop has had its slot (R19). R16, R39: a unit's read of a berth it references waits on its quay and then returns the berth's bytes and its manifest; a refused one is recorded and returns zeros. R19: a VC at its starvation limit wins the next slot of the hop. -/
def Obligations.ParcelsAndQuayReads : Prop :=
  (∀ (hop : Nat) (p : Parcel) (s : State) (m : Manifest), m = { p.man with flags := p.man.flags ||| s.modeFlags } →
      (s.accessCause p.source.val p.man.handle p.offset p.payload.length = 0 →
        Completes (.parcelWrite hop p) s fun t =>
          t.memRead ((s.berth p.man.handle).base * 4096 + p.offset) p.payload.length = p.payload ∧
          (∀ x, (x < (s.berth p.man.handle).base * 4096 + p.offset ∨
            (s.berth p.man.handle).base * 4096 + p.offset + p.payload.length ≤ x) → t.memByte x = s.memByte x) ∧
          (s.noFollower →
            (t.berth p.man.handle).man =
              (if s.fab.refs.any (fun r => decide (r.unit = p.source.val) && decide (r.handle = p.man.handle) && r.fresh) then m
               else (s.berth p.man.handle).man.merge m) ∧
            (∀ j, j ≠ p.man.handle → t.berth j = s.berth j) ∧ Frame [.mem, .fab, .leaves] [] s t)) ∧
      (s.accessCause p.source.val p.man.handle p.offset p.payload.length ≠ 0 →
        Completes (.parcelWrite hop p) s fun t =>
          t.mem = s.mem ∧ t.flag Reg.FAB_EVENT_BERTH_FAULT = true ∧ (∀ j, t.berth j = s.berth j) ∧
          Frame [.fab] [0x60000, 0x60128, 0x6012C] s t) ∧
      (s.fab.starve.get (fun _ => 0) hop = p.vc.val + 1 → Completes (.parcelWrite hop p) s fun t => t.fab.starve.get (fun _ => 0) hop = 0)) ∧
  ((∀ (q : Fin 48) (u : Fin 45) (h : BitVec 16) (ofs len : Nat) (s : State),
      (s.accessCause u.val h.toNat ofs len = 0 →
        exec (.quayRead q u h ofs len) s = .next { s with fab := { s.fab with reads := s.fab.reads ++ [⟨q.val, u.val, h.toNat, ofs, len, true⟩] } }) ∧
      (s.accessCause u.val h.toNat ofs len ≠ 0 →
        Completes (.quayRead q u h ofs len) s fun t =>
          t.fab.reads = s.fab.reads ++ [⟨q.val, u.val, h.toNat, ofs, len, false⟩] ∧ t.flag Reg.FAB_EVENT_BERTH_FAULT = true ∧
          t.fld Reg.FAB_BERTH_FAULT_CAUSE = s.accessCause u.val h.toNat ofs len ∧ t.fld Reg.FAB_BERTH_FAULT_UNIT = u.val ∧
          t.fld Reg.FAB_BERTH_FAULT_HANDLE = h.toNat ∧ Frame [.fab] [0x60000, 0x60128, 0x6012C] s t)) ∧
    (∀ (q : Fin 48) (r : QuayReq) (s : State), s.fab.reads.find? (fun (r : QuayReq) => decide (r.quay = q.val)) = some r →
      (r.ok = true → exec (.quayReadData q []) s = .next { s with fab := { s.fab with
        reads := s.fab.reads.erase r, readData := s.memRead ((s.berth r.handle).base * 4096 + r.ofs) r.len, readMan := (s.berth r.handle).man } }) ∧
      (r.ok = false → exec (.quayReadData q []) s = .next { s with fab := { s.fab with
        reads := s.fab.reads.erase r, readData := zeros r.len, readMan := {} } })) ∧
    (∀ (hop : Nat) (vc : Fin 4) (s : State), exec (.starveLimitExpiry hop vc) s =
      .next { s with fab := { s.fab with starve := s.fab.starve.set (fun _ => 0) hop (vc.val + 1) } }))

/-- R40: the harbourmaster names a berth for the aperture. Writing a new nonzero handle while none is named acquires a HELD berth for unit 40; a refused acquire leaves the handle at 0 and sets FAIL; writing 0 releases the berth named; the handle already named changes nothing. A word written through the aperture lands in the named berth, four bytes, little-endian, and nowhere else; without a reference it is discarded and sets FAULT. -/
def Obligations.ApertureNamesAndWritesBerth : Prop :=
  ∀ (m : Fin 32) (s : State),
    (∀ h : BitVec 16, s.mayWrite m.val 0x60200 .plain = true →
      (s.fld Reg.FAB_AP_HANDLE_HANDLE = 0 → h ≠ 0 → (s.berth h.toNat).st = .held → (s.berth h.toNat).count < 255 →
        Completes (.apHandleWrite m h) s fun t =>
          t.fld Reg.FAB_AP_HANDLE_HANDLE = h.toNat ∧ t.berth h.toNat = { s.berth h.toNat with count := (s.berth h.toNat).count + 1 } ∧
          t.fab.refs = s.fab.refs ++ [⟨h.toNat, 40, true⟩] ∧ Frame [.fab] [0x60200] s t) ∧
      (s.fld Reg.FAB_AP_HANDLE_HANDLE = 0 → h ≠ 0 → (s.berth h.toNat).st ≠ .held →
        Completes (.apHandleWrite m h) s fun t =>
          t.fld Reg.FAB_AP_HANDLE_HANDLE = 0 ∧ t.flag Reg.FAB_AP_STATUS_FAIL = true ∧ t.fab = s.fab ∧
          Frame [] [0x60000, 0x60128, 0x6012C, 0x60200, 0x6020C] s t) ∧
      (s.fld Reg.FAB_AP_HANDLE_HANDLE = h.toNat →
        Completes (.apHandleWrite m h) s fun t => t.fab = s.fab ∧ t.fld Reg.FAB_AP_HANDLE_HANDLE = h.toNat ∧ Frame [] [0x60200] s t) ∧
      (s.fld Reg.FAB_AP_HANDLE_HANDLE ≠ 0 → h = 0 → (s.berth (s.fld Reg.FAB_AP_HANDLE_HANDLE)).st = .held →
        0 < (s.berth (s.fld Reg.FAB_AP_HANDLE_HANDLE)).count →
        Completes (.apHandleWrite m h) s fun t =>
          t.fld Reg.FAB_AP_HANDLE_HANDLE = 0 ∧
          (t.berth (s.fld Reg.FAB_AP_HANDLE_HANDLE)).count = (s.berth (s.fld Reg.FAB_AP_HANDLE_HANDLE)).count - 1 ∧ Frame [.fab] [0x60200] s t)) ∧
    (∀ (idx : Fin 1024) (v : Word), s.mayWrite m.val (0x68000 + 4 * idx.val) .plain = true →
      (s.accessCause 40 (s.fld Reg.FAB_AP_HANDLE_HANDLE) (s.apBase + 4 * idx.val) 4 = 0 →
        Completes (.apDataWrite m idx v) s fun t =>
          t.memRead ((s.berth (s.fld Reg.FAB_AP_HANDLE_HANDLE)).base * 4096 + (s.apBase + 4 * idx.val)) 4 = bytesLE 4 v.toNat ∧
          (∀ x, (x < (s.berth (s.fld Reg.FAB_AP_HANDLE_HANDLE)).base * 4096 + (s.apBase + 4 * idx.val) ∨
            (s.berth (s.fld Reg.FAB_AP_HANDLE_HANDLE)).base * 4096 + (s.apBase + 4 * idx.val) + 4 ≤ x) → t.memByte x = s.memByte x) ∧
          Frame [.mem] [] s t) ∧
      (s.accessCause 40 (s.fld Reg.FAB_AP_HANDLE_HANDLE) (s.apBase + 4 * idx.val) 4 ≠ 0 →
        Completes (.apDataWrite m idx v) s fun t =>
          t.mem = s.mem ∧ t.flag Reg.FAB_AP_STATUS_FAULT = true ∧ t.flag Reg.FAB_EVENT_BERTH_FAULT = true ∧
          Frame [] [0x60000, 0x60128, 0x6012C, 0x6020C] s t))

/-- R65, R106: when tide n is due in the live schedule, it fires: the next tide is n + 1; every queued transaction that targets it or an earlier tide leaves the landing queue, and the settings epoch goes up by one if there is any, else not at all (R29). When none lands, TIDE_NOW reads n. R42: a unit's own tide begins once in each tide, when its stagger from the tide's instant has passed; its second start in a tide, or one before its time, does nothing (the model's choice, log entry 25). For a unit that does nothing more at its own tide, the start is only that. -/
def Obligations.DueTideFiresAndLands : Prop :=
  (∀ (eyes : List LaneTide) (n : Nat) (s : State), s.replaying = false → (s.logState = 2 → s.log.runDue = false) →
      s.time.next = some n → s.running = true → s.tideDue n = true →
      Completes (.tideFire eyes) s fun t =>
        t.time.next = some (n + 1) ∧ t.now = s.now ∧
        t.sys.landq = s.sys.landq.filter (fun c => !decide (c.target ≤ n)) ∧
        t.sys.epoch = (if s.sys.landq.any (fun c => decide (c.target ≤ n)) then (s.sys.epoch + 1) % 65536 else s.sys.epoch) ∧
        t.sys.owner = s.sys.owner ∧ t.sys.slots = s.sys.slots ∧
        ((∀ c ∈ s.sys.landq, n < c.target) → t.tide = n % 2 ^ 48)) ∧
  (∀ (u : Fin 45) (s : State),
      (s.time.instants ≠ [] → s.ownTide u.val ≠ s.tide + 1 → s.ownDue u.val = true →
        (u.val < 4 ∨ u.val = 14 ∨ u.val = 16 ∨ u.val = 17 ∨ u.val = 20 ∨ 23 ≤ u.val ∧ u.val < 41) →
        Completes (.unitTideStart u) s fun t =>
          t.ownTide u.val = s.tide + 1 ∧ (∀ v, v ≠ u.val → t.ownTide v = s.ownTide v) ∧ t.fab.berths = s.fab.berths ∧ Frame [.fab] [] s t) ∧
      (s.ownTide u.val = s.tide + 1 ∨ s.ownDue u.val = false ∨ s.time.instants = [] → exec (.unitTideStart u) s = .next s))

/-- R43: a pipeline whose own tide finds the work of an earlier tide unfinished overruns: FAB_UNIT_OVR counts it and names the tide, FAB_EVENT.OVERRUN is set, the work's manifest will carry OVR, and its next frame is skipped. R44: one tide later it abandons the work: the abandon is counted, FAB_EVENT.ABANDON is set and the work ends. -/
def Obligations.LateWorkOverrunsThenIsAbandoned : Prop :=
  ∀ (i : Fin 4) (w : Work) (s : State), w.tide < 2 ^ 48 →
    (s.lateWork (4 + i.val) 1 (fun w => !w.ovr) = some w →
      Completes (.unitOverrun ⟨4 + i.val, by omega⟩) s fun t =>
        t.fld (Reg.FAB_UNIT_OVR_OVR_CNT (4 + i.val)) = min (s.fld (Reg.FAB_UNIT_OVR_OVR_CNT (4 + i.val)) + 1) 65535 ∧
        t.fld2 (Reg.FAB_UNIT_OVR_TIDE_LO_TIDE_LO (4 + i.val)) (Reg.FAB_UNIT_OVR_TIDE_HI_TIDE_HI (4 + i.val)) = w.tide ∧
        t.flag Reg.FAB_EVENT_OVERRUN = true ∧ (t.pipe i.val).skip = true ∧ t.ovrFlag (4 + i.val) w.tide = flagOvr ∧
        Frame [.fab, .pipes] [0x60000, 0x61004 + 0x20 * (4 + i.val), 0x61008 + 0x20 * (4 + i.val), 0x6100C + 0x20 * (4 + i.val)] s t) ∧
    (s.lateWork (4 + i.val) 2 (fun _ => true) = some w → (s.pipe i.val).frame ≠ none →
      Completes (.unitAbandon ⟨4 + i.val, by omega⟩) s fun t =>
        (∀ x ∈ t.fab.work, ¬(x.unit = 4 + i.val ∧ x.tide = w.tide)) ∧ t.flag Reg.FAB_EVENT_ABANDON = true ∧ t.mem = s.mem) ∧
    (∀ u : Fin 45, (∀ p, s.lateWork u.val 1 p = none) → u.val ≠ 18 → u.val ≠ 19 → exec (.unitOverrun u) s = .next s ∧ exec (.unitAbandon u) s = .next s)

/-- R51, R52, R56: a claim by a control master. With an invalid session it fails with AUTH_FAIL and never waits; while no master owns Daxma it succeeds, with a full lease, and OWNER_CHANGE is set; the owner's own claim renews the lease; against another owner it waits, replacing the master's earlier wait, with result WAITING; and the target of a pending handover takes over, the former owner's result being OK. R53: a waiting claim whose time has passed fails with CLAIM_TIMEOUT and waits no more. R55: when the lease has run out, LAPSE is set and ownership is vacated, a pending handover having lapsed with HANDOVER_LAPSED. Before their time both events do nothing (the model's choice, log entry 25). -/
def Obligations.ClaimsAreDecidedAndExpire : Prop :=
  (∀ (m : Fin 32) (session : BitVec 8) (s : State), isControlMaster m.val = true →
      (s.sessionValid m.val session.toNat = false →
        Completes (.claim m session) s fun t =>
          t.sys.results.get (fun _ => 0) m.val = 2 ∧ t.sys.owner = s.sys.owner ∧ t.sys.waits = s.sys.waits ∧
          t.sys.leaseEnd = s.sys.leaseEnd ∧ Frame [.sys] [0x104] s t) ∧
      (s.sessionValid m.val session.toNat = true → s.sys.owner = m.val →
        Completes (.claim m session) s fun t =>
          t.sys.results.get (fun _ => 0) m.val = 0 ∧ t.sys.owner = m.val ∧
          t.sys.leaseEnd = s.now + 2000000 * s.fld Reg.SYS_OWN_CFG_LEASE_MS ∧ t.sys.waits = s.sys.waits ∧ Frame [.sys] [0x104] s t) ∧
      (s.sessionValid m.val session.toNat = true → s.sys.owner = 0 →
        Completes (.claim m session) s fun t =>
          t.sys.results.get (fun _ => 0) m.val = 0 ∧ t.sys.owner = m.val ∧
          t.sys.leaseEnd = s.now + 2000000 * s.fld Reg.SYS_OWN_CFG_LEASE_MS ∧ t.sys.handover = 0 ∧
          t.sys.waits = s.sys.waits.filter (fun w => !decide (w.master = m.val)) ∧ t.flag Reg.SYS_EVENT_OWNER_CHANGE = true ∧
          Frame [.sys] [0x104, 0x130] s t) ∧
      (s.sessionValid m.val session.toNat = true → s.sys.owner ≠ m.val → s.sys.owner ≠ 0 → s.sys.wonAt ≠ s.now + 1 → s.sys.handover ≠ m.val →
        Completes (.claim m session) s fun t =>
          t.sys.results.get (fun _ => 0) m.val = 1 ∧ t.sys.owner = s.sys.owner ∧
          t.sys.waits = s.sys.waits.filter (fun w => !decide (w.master = m.val)) ++
            [⟨m.val, s.now, s.now + 2000000 * s.fld Reg.SYS_OWN_CFG_WAIT_MS⟩] ∧ Frame [.sys] [0x104] s t) ∧
      (s.sessionValid m.val session.toNat = true → s.sys.owner ≠ m.val → s.sys.owner ≠ 0 → s.sys.wonAt ≠ s.now + 1 → s.sys.handover = m.val →
        Completes (.claim m session) s fun t =>
          t.sys.owner = m.val ∧ t.sys.results.get (fun _ => 0) m.val = 0 ∧ t.sys.results.get (fun _ => 0) s.sys.owner = 0 ∧ t.sys.handover = 0 ∧
          (∀ i x, s.slotOf s.sys.owner = some (i, x) → t.slot i = none) ∧ t.fld Reg.FAB_AP_HANDLE_HANDLE = 0)) ∧
  ((∀ (m : Fin 32) (s : State),
      ((∃ w ∈ s.sys.waits, w.master = m.val ∧ w.deadline ≤ s.now) →
        Completes (.claimTimeout m) s fun t =>
          t.sys.results.get (fun _ => 0) m.val = 4 ∧ t.sys.waits = s.sys.waits.filter (fun w => !decide (w.master = m.val)) ∧
          t.sys.owner = s.sys.owner ∧ Frame [.sys] [] s t) ∧
      ((∀ w ∈ s.sys.waits, w.master = m.val → s.now < w.deadline) → exec (.claimTimeout m) s = .next s)) ∧
    (∀ s : State,
      (s.sys.owner ≠ 0 → s.sys.leaseEnd ≤ s.now → s.sys.waits = [] →
        Completes .leaseExpiry s fun t =>
          t.sys.owner = 0 ∧ t.sys.handover = 0 ∧ t.flag Reg.SYS_EVENT_LAPSE = true ∧
          (s.sys.handover ≠ 0 → t.sys.results.get (fun _ => 0) s.sys.owner = 5)) ∧
      (s.sys.owner = 0 ∨ s.now < s.sys.leaseEnd → exec .leaseExpiry s = .next s)))

/-- R54, R55, R57: the owner's release vacates ownership: the oldest waiting claim succeeds, or no master owns Daxma; its open transaction is rolled back. The owner's heartbeat renews the lease and changes nothing else. Both fail with NOT_OWNER for any other master. R56: the owner's handover. To a target that can never claim it fails with BAD_ARG; to one whose claim waits ownership passes at once and the result is OK; otherwise it stays pending with result WAITING and the owner keeps Daxma. -/
def Obligations.OwnerReleasesOrHandsOver : Prop :=
  (∀ (m : Fin 32) (s : State), isControlMaster m.val = true →
      (s.sys.owner = m.val → s.sys.waits = [] →
        Completes (.ownRelease m) s fun t =>
          t.sys.owner = 0 ∧ t.sys.handover = 0 ∧ t.sys.results.get (fun _ => 0) m.val = 0 ∧ t.flag Reg.SYS_EVENT_OWNER_CHANGE = true ∧
          (∀ i x, s.slotOf m.val = some (i, x) → t.slot i = none)) ∧
      (∀ w, s.sys.owner = m.val → State.oldestWait s.sys.waits = some w →
        Completes (.ownRelease m) s fun t =>
          t.sys.owner = w.master ∧ t.sys.leaseEnd = s.now + 2000000 * s.fld Reg.SYS_OWN_CFG_LEASE_MS ∧
          (∀ x ∈ t.sys.waits, x.master ≠ w.master) ∧ t.sys.results.get (fun _ => 0) w.master = 0) ∧
      (s.sys.owner = m.val →
        Completes (.heartbeat m) s fun t =>
          t.sys.owner = m.val ∧ t.sys.leaseEnd = s.now + 2000000 * s.fld Reg.SYS_OWN_CFG_LEASE_MS ∧ t.sys.waits = s.sys.waits ∧
          t.sys.slots = s.sys.slots ∧ t.sys.landq = s.sys.landq ∧ t.sys.results.get (fun _ => 0) m.val = 0 ∧ Frame [.sys] [0x104] s t) ∧
      (s.sys.owner ≠ m.val →
        (Completes (.ownRelease m) s fun t => t.sys.results.get (fun _ => 0) m.val = 3 ∧ t.sys.owner = s.sys.owner ∧ Frame [.sys] [0x104] s t) ∧
        (Completes (.heartbeat m) s fun t => t.sys.results.get (fun _ => 0) m.val = 3 ∧ t.sys.leaseEnd = s.sys.leaseEnd ∧ Frame [.sys] [0x104] s t))) ∧
  (∀ (m target : Fin 32) (s : State), isControlMaster m.val = true → s.sys.owner = m.val →
      (State.badTarget m.val target.val = true →
        Completes (.handover m target) s fun t =>
          t.sys.results.get (fun _ => 0) m.val = 14 ∧ t.sys.owner = m.val ∧ t.sys.handover = s.sys.handover ∧ Frame [.sys] [0x104] s t) ∧
      (State.badTarget m.val target.val = false → (∃ w ∈ s.sys.waits, w.master = target.val) →
        Completes (.handover m target) s fun t =>
          t.sys.owner = target.val ∧ t.sys.results.get (fun _ => 0) m.val = 0 ∧ t.sys.results.get (fun _ => 0) target.val = 0 ∧
          (∀ x ∈ t.sys.waits, x.master ≠ target.val) ∧ t.sys.leaseEnd = s.now + 2000000 * s.fld Reg.SYS_OWN_CFG_LEASE_MS) ∧
      (State.badTarget m.val target.val = false → (∀ w ∈ s.sys.waits, w.master ≠ target.val) →
        Completes (.handover m target) s fun t =>
          t.sys.owner = m.val ∧ t.sys.handover = target.val ∧ t.sys.results.get (fun _ => 0) m.val = 1 ∧
          t.sys.leaseEnd = s.sys.leaseEnd ∧ Frame [.sys] [0x104] s t))

/-- R58: TXN_BEGIN by the harbourmaster. It fails with BUSY while the requester holds a transaction, otherwise with NO_SLOT when all slots are open; otherwise the lowest free slot holds an empty shadow copy that records the commit sequence (R61). R66, R69: TXN_ROLLBACK discards the requester's shadow copy and frees its slot, or fails with NO_TXN. OP_WITHDRAW takes the named ticket out of the landing queue while the deadline of its target has not been reached; without such a ticket it fails with NO_TXN, after the deadline or while tides do not run with LATE, and of a pilot's ticket with NOT_OWNER. -/
def Obligations.TransactionsOpenAndEnd : Prop :=
  (∀ (m : Fin 32) (s : State), s.mayWrite m.val 0x200 .plain = true →
      (∀ x, s.slotOf m.val = some x →
        Completes (.txnBegin m) s fun t => t.sys = { s.sys with txnResult := 7 } ∧ Frame [.sys] [0x200] s t) ∧
      (s.slotOf m.val = none → s.freeSlot = none →
        Completes (.txnBegin m) s fun t => t.sys = { s.sys with txnResult := 6 } ∧ Frame [.sys] [0x200] s t) ∧
      (∀ i, s.slotOf m.val = none → s.freeSlot = some i →
        Completes (.txnBegin m) s fun t =>
          t.slot i = some ⟨m.val, false, s.sys.seq, []⟩ ∧ (∀ j, j ≠ i → t.slot j = s.slot j) ∧ t.sys.txnResult = 0 ∧
          t.sys.landq = s.sys.landq ∧ t.sys.owner = s.sys.owner ∧ Frame [.sys] [0x200] s t)) ∧
  (∀ (m : Fin 32) (s : State), s.mayWrite m.val 0x200 .plain = true → isPilotMaster m.val = false →
      (∀ i x, s.slotOf m.val = some (i, x) →
        Completes (.txnRollback m) s fun t =>
          t.slot i = none ∧ (∀ j, j ≠ i → t.slot j = s.slot j) ∧ t.sys.txnResult = 0 ∧ t.sys.landq = s.sys.landq ∧ t.sys.seq = s.sys.seq ∧
          Frame [.sys] [0x200] s t) ∧
      (s.slotOf m.val = none → Completes (.txnRollback m) s fun t => t.sys = { s.sys with txnResult := 8 } ∧ Frame [.sys] [0x200] s t) ∧
      (s.running = false → Completes (.opWithdraw m) s fun t => t.sys = { s.sys with txnResult := 11 } ∧ Frame [.sys] [0x200] s t) ∧
      (s.running = true → s.sys.landq.find? (fun c => decide (c.ticket = s.fld Reg.SYS_TXN_TICKET_TICKET)) = none →
        Completes (.opWithdraw m) s fun t => t.sys = { s.sys with txnResult := 8 } ∧ Frame [.sys] [0x200] s t) ∧
      (∀ c, s.running = true → s.sys.landq.find? (fun c => decide (c.ticket = s.fld Reg.SYS_TXN_TICKET_TICKET)) = some c →
        (isPilotMaster c.holder = true →
          Completes (.opWithdraw m) s fun t => t.sys = { s.sys with txnResult := 3 } ∧ Frame [.sys] [0x200] s t) ∧
        (isPilotMaster c.holder = false → s.deadlinePassed c.target = true →
          Completes (.opWithdraw m) s fun t => t.sys = { s.sys with txnResult := 11 } ∧ Frame [.sys] [0x200] s t) ∧
        (isPilotMaster c.holder = false → s.deadlinePassed c.target = false →
          Completes (.opWithdraw m) s fun t =>
            t.sys = { s.sys with landq := s.sys.landq.filter (fun d => !decide (d.ticket = c.ticket)), txnResult := 0 } ∧
            Frame [.sys] [0x200] s t)))

/-- R61 to R64, R69: TXN_COMMIT by the harbourmaster with a transaction open in slot `i`. A transaction that is not FULL, whose target stands, that conflicts with no later commit and that finds room in the landing queue takes the next sequence value as its ticket, stamps its values, frees its slot and enters the queue; the checks fail in the order FULL, target, CONFLICT, queue, and a failed commit frees the slot and queues nothing. -/
def Obligations.TxnCommitChecksInOrder : Prop :=
  ∀ (m : Fin 32) (orLater next : Bool) (i : Nat) (x : Txn) (n : Nat) (r : Nat) (s : State), s.mayWrite m.val 0x200 .plain = true →
    isPilotMaster m.val = false → s.slotOf m.val = some (i, x) →
    s.commitTarget (s.fld2 Reg.SYS_TXN_TARGET_LO_TIDE_LO Reg.SYS_TXN_TARGET_HI_TIDE_HI) next orLater = (n, r) →
    (x.full = false → r = 0 →
      x.writes.any (fun w => match s.lastSeq w.key with | some q => seqAfter q x.begin | none => false) = false →
      s.sys.landq.length < 16 →
      Completes (.txnCommit m orLater next) s fun t =>
        t.sys.seq = (s.sys.seq + 1) % 2 ^ 32 ∧ t.sys.landq = s.sys.landq ++ [⟨(s.sys.seq + 1) % 2 ^ 32, n, m.val, x.writes⟩] ∧
        t.slot i = none ∧ (∀ w ∈ x.writes, t.lastSeq w.key = some ((s.sys.seq + 1) % 2 ^ 32)) ∧ t.sys.txnResult = 0 ∧
        t.sys.owner = s.sys.owner ∧ Frame [.sys] [0x200] s t) ∧
    (∀ e, (x.full = true ∧ e = 9 ∨ x.full = false ∧ r ≠ 0 ∧ e = r ∨
        x.full = false ∧ r = 0 ∧ x.writes.any (fun w => match s.lastSeq w.key with | some q => seqAfter q x.begin | none => false) = true ∧ e = 10 ∨
        x.full = false ∧ r = 0 ∧ x.writes.any (fun w => match s.lastSeq w.key with | some q => seqAfter q x.begin | none => false) = false ∧
          16 ≤ s.sys.landq.length ∧ e = 13) →
      Completes (.txnCommit m orLater next) s fun t =>
        t.sys.txnResult = e ∧ t.slot i = none ∧ t.sys.landq = s.sys.landq ∧ t.sys.seq = s.sys.seq ∧ Frame [.sys] [0x200] s t)

/-- R59, R60, R67: a write of a class-T field, here SYS_ARRAY_ID, does not change the value in force. Inside a transaction it goes to the holder's shadow copy: a repeated write replaces the value, a new one takes an entry, and entry 4,097 is discarded and marks the transaction FULL. Outside one it is an implicit commit with the next ticket, or is discarded with TXN_FAIL when the landing queue is full. R29, R69: while tides do not run the oldest committed transaction lands: it leaves the queue, the settings epoch goes up by one, and a pipeline setting that it alone carries takes its value. While they run, or with nothing queued, LANDING_NO_TIDES does nothing. -/
def Obligations.ClassTWriteIsShadowed : Prop :=
  (∀ (m : Fin 32) (v : Word) (w : TWrite) (s : State), s.mayWrite m.val 0x10 .plain = true → s.replaying = false →
      w = ⟨State.fldKey Reg.SYS_ARRAY_ID_ID, [(Reg.SYS_ARRAY_ID_ID, bits v.toNat 10 0)]⟩ →
      (∀ i x, s.slotOf m.val = some (i, x) →
        Completes (.registerWrite m 0x10 15 v) s fun t =>
          t.slot i = some (if x.writes.any (fun u => decide (u.key = w.key)) then
              { x with writes := x.writes.map fun (u : TWrite) => if u.key = w.key then w else u }
            else if x.writes.length < 4096 then { x with writes := x.writes ++ [w] } else { x with full := true }) ∧
          (∀ j, j ≠ i → t.slot j = s.slot j) ∧ t.sys.landq = s.sys.landq ∧ Frame [.sys] [] s t) ∧
      (s.slotOf m.val = none → s.sys.landq.length < 16 →
        Completes (.registerWrite m 0x10 15 v) s fun t =>
          t.sys.seq = (s.sys.seq + 1) % 2 ^ 32 ∧ t.lastSeq w.key = some ((s.sys.seq + 1) % 2 ^ 32) ∧
          t.sys.landq = s.sys.landq ++ [⟨(s.sys.seq + 1) % 2 ^ 32, if s.running then s.nextCommitTide else 0, m.val, [w]⟩] ∧
          Frame [.sys] [] s t) ∧
      (s.slotOf m.val = none → 16 ≤ s.sys.landq.length →
        Completes (.registerWrite m 0x10 15 v) s fun t => t.sys = s.sys ∧ t.flag Reg.SYS_EVENT_TXN_FAIL = true ∧ Frame [] [0x130] s t)) ∧
  (∀ (c : Commit) (rest : List Commit) (s : State), s.sys.landq = c :: rest →
      (s.running = false → (∀ d ∈ rest, d.ticket ≠ c.ticket) →
        Completes .landingNoTides s fun t =>
          t.sys.landq = rest ∧ t.sys.epoch = (s.sys.epoch + 1) % 65536 ∧ t.sys.owner = s.sys.owner ∧ t.sys.slots = s.sys.slots ∧
          (∀ k f v, c.writes = [⟨k, [(f, v)]⟩] → f.lo ≤ f.hi → f.hi < 32 → 0x100000 ≤ f.addr → f.addr < 0x140000 →
            t.fld f = v % 2 ^ (f.hi + 1 - f.lo))) ∧
      (s.running = true → exec .landingNoTides s = .next s))

/-- R78 to R82, R85: an arithmetic instruction that issues puts its result, modulo 2⁶⁴, in rd, and changes nothing else but pc and RETIRED. The ALU functions are those of R81; DIVU by 0 gives all ones and REMU by 0 gives rs1. An ALU fn above 15, a SHI of kind 3 or with a nonzero reserved bit raises ILLEGAL with the instruction word in EVAL. R75, R76, R80, R83: a load of 8, 4, 2 or 1 bytes at ea = rs1 + sext(imm12) puts them, little-endian and zero-extended, in rd. An unaligned ea raises MISALIGN, an ea outside program, private and shared memory BUS. A store of 8, 4, 2 or 1 bytes writes the low bytes of rt, little-endian, at ea in private memory or in a shared bank of which the pilot is the writer; the writer sees them at once, every other byte it can load and every published copy stay. An unaligned ea raises MISALIGN, program memory PROT, a bank of another writer and an unmapped ea BUS. -/
def Obligations.PilotArithmeticAndMemory : Prop :=
  (∀ (k : Fin 16) (g : Guard) (s : State), s.issues k g →
      (∀ (f : FmtA) (a b v : Word64), a = s.xreg k f.rs1 → b = s.xreg k f.rs2 →
        (f.fn.val, v) ∈ [(0, a + b), (1, a - b), (2, a &&& b), (3, a ||| b), (4, a ^^^ b),
          (5, a <<< (b.toNat % 64)), (6, a >>> (b.toNat % 64)), (7, a.sshiftRight (b.toNat % 64)),
          (8, a * b), (9, BitVec.ofNat 64 (a.toNat * b.toNat / 2 ^ 64)),
          (10, if b = 0 then BitVec.allOnes 64 else BitVec.ofNat 64 (a.toNat / b.toNat)),
          (11, if b = 0 then a else BitVec.ofNat 64 (a.toNat % b.toNat)),
          (12, if a.toNat ≤ b.toNat then a else b), (13, if a.toNat ≤ b.toNat then b else a),
          (14, if a.toInt ≤ b.toInt then a else b), (15, if a.toInt ≤ b.toInt then b else a)] →
        Completes (.alu k g f) s (Gives k f.rd v s)) ∧
      (∀ f : FmtA, 16 ≤ f.fn.val → s.catches k → Completes (.alu k g f) s (Raises k 1 (BitVec.ofNat 64 (wordA 0x00 g f)) s)) ∧
      (∀ f : FmtI,
        Completes (.addi k g f) s (Gives k f.rd (s.xreg k f.rs1 + f.imm.signExtend 64) s) ∧
        Completes (.andi k g f) s (Gives k f.rd (s.xreg k f.rs1 &&& f.imm.signExtend 64) s) ∧
        Completes (.ori k g f) s (Gives k f.rd (s.xreg k f.rs1 ||| f.imm.zeroExtend 64) s) ∧
        Completes (.xori k g f) s (Gives k f.rd (s.xreg k f.rs1 ^^^ f.imm.zeroExtend 64) s) ∧
        (∀ (n : Nat) (v : Word64), n < 64 →
          (f.imm.toNat, v) ∈ [(n, s.xreg k f.rs1 <<< n), (0x400 + n, s.xreg k f.rs1 >>> n), (0x800 + n, (s.xreg k f.rs1).sshiftRight n)] →
          Completes (.shi k g f) s (Gives k f.rd v s)) ∧
        (0xC00 ≤ f.imm.toNat ∨ f.imm.toNat % 1024 ≥ 64 → s.catches k →
          Completes (.shi k g f) s (Raises k 1 (BitVec.ofNat 64 (wordI 0x05 g f)) s))) ∧
      ∀ f : FmtU, Completes (.lui k g f) s (Gives k f.rd (f.imm.signExtend 64 <<< 12) s)) ∧
  ((∀ (k : Fin 16) (g : Guard) (f : FmtI) (c : Instr) (n : Nat) (a : Word64) (s : State), s.issues k g →
        (c, n) ∈ [(Instr.ld k g f, 8), (.lw k g f, 4), (.lh k g f, 2), (.lb k g f, 1)] → a = s.xreg k f.rs1 + f.imm.signExtend 64 →
        (a.toNat % n = 0 → (a.toNat < 0x18000 ∨ 0x20000 ≤ a.toNat ∧ a.toNat < 0x60000) →
          Completes c s (Gives k f.rd (BitVec.ofNat 64 (ofBytesLE ((List.range n).map fun i => s.loadByte k (a.toNat + i)))) s)) ∧
        (a.toNat % n ≠ 0 → s.catches k → Completes c s (Raises k 2 a s)) ∧
        (a.toNat % n = 0 → (0x18000 ≤ a.toNat ∧ a.toNat < 0x20000 ∨ 0x60000 ≤ a.toNat) → s.catches k → Completes c s (Raises k 3 a s))) ∧
    (∀ (k : Fin 16) (g : Guard) (f : FmtI) (c : Instr) (n : Nat) (a : Word64) (s : State), s.issues k g →
        (c, n) ∈ [(Instr.sd k g f, 8), (.sw k g f, 4), (.sh k g f, 2), (.sb k g f, 1)] → a = s.xreg k f.rs1 + f.imm.signExtend 64 →
        (a.toNat % n = 0 → (0x10000 ≤ a.toNat ∧ a.toNat < 0x18000 ∨
            0x20000 ≤ a.toNat ∧ a.toNat < 0x60000 ∧ s.ownsBank k ((a.toNat - 0x20000) / 0x4000) = true) →
          Completes c s fun t =>
            (∀ i, i < n → t.loadByte k (a.toNat + i) = BitVec.ofNat 8 ((s.xreg k f.rd).toNat >>> (8 * i))) ∧
            (∀ x, (x < a.toNat ∨ a.toNat + n ≤ x) → t.loadByte k x = s.loadByte k x ∧ t.shared.get (fun _ => 0) x = s.shared.get (fun _ => 0) x) ∧
            t.pilot k = { s.pilot k with data := (t.pilot k).data, pc := (s.pilot k).pc + 4, retired := ((s.pilot k).retired + 1) % 2 ^ 64 } ∧
            (∀ j, j ≠ k.val → t.pilot j = s.pilot j) ∧ Only [.pilots, .shared] s t) ∧
        (a.toNat % n ≠ 0 → s.catches k → Completes c s (Raises k 2 a s)) ∧
        (a.toNat % n = 0 → a.toNat < 0x10000 → s.catches k → Completes c s (Raises k 4 a s)) ∧
        (a.toNat % n = 0 → (0x20000 ≤ a.toNat ∧ a.toNat < 0x60000 ∧ s.ownsBank k ((a.toNat - 0x20000) / 0x4000) = false ∨
            0x18000 ≤ a.toNat ∧ a.toNat < 0x20000 ∨ 0x60000 ≤ a.toNat) → s.catches k →
          Completes c s (Raises k 3 a s))))

/-- R73, R75, R79, R80: PCMP and PCMPI set predicate pd to the test, PLOG to the logic of pa and pb; a write of p0 is ignored, and nothing else changes but pc and RETIRED. A reserved cond and a nonzero reserved field raise ILLEGAL. PGET puts the predicates in rd, bit 0 reading 1. BR and CALL add 4 × sext(off22) to pc, modulo 2³²; CALL first puts pc + 4 in x31. JR puts pc + 4 in rd and goes to ea with bits 1:0 cleared, ea being formed before rd is written; an ea with any of bits 63:32 set raises BUS. -/
def Obligations.PilotPredicatesAndBranches : Prop :=
  (∀ (k : Fin 16) (g : Guard) (s : State) (sets : Fin 8 → Bool → State → Prop), s.issues k g →
      sets = (fun pd b t => (∀ i, t.pred k i = if i = pd ∧ pd ≠ 0 then b else s.pred k i) ∧
        RetiresAt k ((s.pilot k).pc + 4) { s.pilot k with preds := (t.pilot k).preds } s t) →
      (∀ (c : Fin 8) (a b : Word64) (r : Bool),
        (c.val, r) ∈ [(0, decide (a = b)), (1, decide (a ≠ b)), (2, decide (a.toInt < b.toInt)), (3, decide (b.toInt ≤ a.toInt)),
          (4, decide (a.toNat < b.toNat)), (5, decide (b.toNat ≤ a.toNat))] →
        (∀ f : FmtP, f.z1 = 0 → f.z2 = 0 → f.cond = c → a = s.xreg k f.rs1 → b = s.xreg k f.rs2 → Completes (.pcmp k g f) s (sets f.pd r)) ∧
        ∀ f : FmtQ, f.cond = c → a = s.xreg k f.rs1 → b = f.imm.signExtend 64 → Completes (.pcmpi k g f) s (sets f.pd r)) ∧
      (∀ f : FmtP, (f.z1 ≠ 0 ∨ f.z2 ≠ 0 ∨ 6 ≤ f.cond.val) → s.catches k →
        Completes (.pcmp k g f) s (Raises k 1 (BitVec.ofNat 64 (wordP 0x14 g f)) s)) ∧
      (∀ f : FmtQ, 6 ≤ f.cond.val → s.catches k → Completes (.pcmpi k g f) s (Raises k 1 (BitVec.ofNat 64 (wordQ 0x15 g f)) s)) ∧
      (∀ (f : FmtL) (a b r : Bool), a = s.pred k f.pa → b = s.pred k f.pb →
        (f.z = 0 → (f.op.val, r) ∈ [(0, a && b), (1, a || b), (2, a != b), (3, a && !b)] → Completes (.plog k g f) s (sets f.pd r)) ∧
        (f.z ≠ 0 → s.catches k → Completes (.plog k g f) s (Raises k 1 (BitVec.ofNat 64 (wordL 0x16 g f)) s))) ∧
      ∀ f : FmtA, f.rs1 = 0 → f.rs2 = 0 → f.fn = 0 →
        ((s.pilot k).preds < 256 → Completes (.pget k g f) s fun t =>
          Gives k f.rd (BitVec.ofNat 64 ((s.pilot k).preds ||| 1)) s t ∧ (f.rd ≠ 0 → ∀ i : Fin 8, (t.xreg k f.rd).getLsbD i.val = s.pred k i))) ∧
  (∀ (k : Fin 16) (g : Guard) (s : State), s.issues k g →
      (∀ (off : BitVec 22) (n : Nat), n = ((((s.pilot k).pc : Int) + 4 * off.toInt) % 2 ^ 32).toNat →
        Completes (.br k g off) s (RetiresAt k n (s.pilot k) s) ∧
        Completes (.call k g off) s fun t =>
          Puts k 31 (BitVec.ofNat 64 ((s.pilot k).pc + 4)) s t ∧ RetiresAt k n { s.pilot k with x := (t.pilot k).x } s t) ∧
      ∀ (f : FmtI) (a : Word64), a = s.xreg k f.rs1 + f.imm.signExtend 64 →
        (a.toNat < 2 ^ 32 → Completes (.jr k g f) s fun t =>
          Puts k f.rd (BitVec.ofNat 64 ((s.pilot k).pc + 4)) s t ∧ RetiresAt k (a.toNat / 4 * 4) { s.pilot k with x := (t.pilot k).x } s t) ∧
        (2 ^ 32 ≤ a.toNat → s.catches k → Completes (.jr k g f) s (Raises k 3 a s)))

/-- R80, R83, R92: outside replay, CLD is the read of its control word that master 16 + k.val makes, and rd takes that word; CST is the pilot's write of rt[31:0]; FENCE has no more effect, every earlier CST having been performed. An ea that is unaligned, at or above 0x0400_0000 or in the berth aperture raises CTRL for both, and a harbourmaster-only register for CST, with nothing read or written. R80, R92, R113: TIDE gives the tide of the pilot's latest release. Outside replay TIMR gives the 48-bit count of the selected domain, MFLD the 64-bit word of a berth's manifest that imm12[1:0] names (0 for a FREE berth and handle 0), and RAND some 64 bits; each is logged and changes nothing else. In replay each logged instruction returns its logged value, and its record is used up; no device state changes. -/
def Obligations.PilotControlAndLoggedReads : Prop :=
  (∀ (k : Fin 16) (g : Guard) (f : FmtI) (a : Word64) (s : State), s.issues k g → a = s.xreg k f.rs1 + f.imm.signExtend 64 →
      (a.toNat % 4 = 0 → a.toNat < 0x4000000 → isAperture a.toNat = false → s.replaying = false →
        Completes (.rcRead ⟨16 + k.val, by omega⟩ (BitVec.ofNat 32 a.toNat) 15) s fun u =>
          Completes (.cld k g f) s fun t =>
            Puts k f.rd (u.rsp.zeroExtend 64) s t ∧ Only (.rsp :: sideParts) u t ∧ (∀ x, calm x = true → t.word x = u.word x)) ∧
      (a.toNat % 4 = 0 → a.toNat < 0x4000000 → isAperture a.toNat = false → ownerOnly a.toNat = false →
        Completes (.registerWrite ⟨16 + k.val, by omega⟩ (BitVec.ofNat 32 a.toNat) 15 ((s.xreg k f.rd).truncate 32)) s fun u =>
          Completes (.cst k g f) s
            (PilotOnly k { u.pilot k with pc := (s.pilot k).pc + 4, retired := ((u.pilot k).retired + 1) % 2 ^ 64 } u)) ∧
      (a.toNat % 4 ≠ 0 ∨ 0x4000000 ≤ a.toNat ∨ isAperture a.toNat = true → s.catches k →
        Completes (.cld k g f) s (Raises k 6 a s) ∧ Completes (.cst k g f) s (Raises k 6 a s)) ∧
      (ownerOnly a.toNat = true → s.catches k → Completes (.cst k g f) s (Raises k 6 a s)) ∧
      ∀ h : FmtA, h.rd = 0 → h.rs1 = 0 → h.rs2 = 0 → h.fn = 0 →
        Completes (.fence k g h) s (RetiresAt k ((s.pilot k).pc + 4) (s.pilot k) s)) ∧
  (∀ (k : Fin 16) (g : Guard) (rd rs1 : Fin 32) (s : State), s.issues k g →
      Completes (.tide k g ⟨rd, 0, 0, 0⟩) s (Gives k rd (BitVec.ofNat 64 (s.pilot k).lastTide) s) ∧
      (s.replaying = false →
        Completes (.timr k g ⟨rd, 0, 0, 0⟩) s (Logs k rd (BitVec.ofNat 64 (s.fullNs s.sel % 2 ^ 48)) [] [] s) ∧
        (∀ (i : Fin 4) (h : Nat) (v : Nat), h = (s.xreg k rs1).toNat % 65536 →
          v = (if h = 0 ∨ (s.berth h).st = .free then 0 else (s.berth h).man.toNat / 2 ^ (64 * i.val) % 2 ^ 64) →
          Completes (.mfld k g ⟨rd, rs1, BitVec.ofNat 12 i.val⟩) s (Logs k rd (BitVec.ofNat 64 v) [] [] s)) ∧
        Completes (.rand k g ⟨rd, 0, 0, 0⟩) s fun t => ∃ v, Logs k rd v [.fresh] [] s t) ∧
      ∀ (c : Instr) (op : Nat) (r : LogRec) (imm : BitVec 12) (fn : Fin 128), s.replaying = true → s.loggedValue k = some r →
        fn.val < 4 → imm.toNat < 4 → ctrlAddr (s.ea k ⟨rd, rs1, imm⟩).toNat = false → r.sub = op →
        (c, op) ∈ [(Instr.cld k g ⟨rd, rs1, imm⟩, 0x10), (.timr k g ⟨rd, 0, 0, 0⟩, 0x23), (.mfld k g ⟨rd, rs1, imm⟩, 0x24),
          (.txb k g ⟨rd, 0, 0, 0⟩, 0x28), (.txc k g ⟨rd, rs1, 0, fn⟩, 0x29), (.txr k g ⟨rd, 0, 0, 0⟩, 0x2A),
          (.txw k g ⟨rd, rs1, 0, 0⟩, 0x2B), (.rand k g ⟨rd, 0, 0, 0⟩, 0x3C)] →
        Completes c s fun t =>
          Logs k rd (BitVec.ofNat 64 (r.body.getD 1 0)) [] [] s t ∧ t.regs = s.regs ∧
          t.log = { s.log with replay := s.log.replay.erase r })

/-- R80, R87 to R90: DPOP takes the next released docket and puts its header in rd and its payload in rd + 1, both 0 when none is released; with rd = x0 it is popped and no register written, and an odd rd raises ILLEGAL. DCNT counts the released dockets. DPOST posts PILOT_POST to pilot rs1[3:0], which takes it while LOADED, RUNNING or WAITING and its queue has room. R77, R80: WAIT and WAITU end the work: the pilot waits, for the least tide rs1 with WAITU, and Daxma takes a snapshot of the banks it writes. R58, R62 to R66, R80: a pilot's transaction instructions, outside replay. TXB opens a transaction, TXC commits it to tide rs1[47:0] with fn bit 0 NEXT and bit 1 OR_LATER, checking FULL, target, CONFLICT and the landing queue in that order, and answers with TXN_RESULT; TXR rolls it back; TXW withdraws a ticket of the pilot's own. rd takes the result, and a ticket in bits 63:32 when a commit succeeds. -/
def Obligations.PilotDocketsAndTransactions : Prop :=
  (∀ (k : Fin 16) (g : Guard) (rd rs1 rs2 : Fin 32) (fn : Fin 128) (s : State), s.issues k g →
      (∀ d ds, (s.pilot k).released = d :: ds →
        (rd.val % 2 = 0 → rd ≠ 0 → Completes (.dpop k g ⟨rd, 0, 0, 0⟩) s fun t =>
          (∀ i, t.xreg k i = if i = rd then BitVec.ofNat 64 (d.kind * 2 ^ 56 + d.src * 2 ^ 48 + d.sub * 2 ^ 32 + d.seq)
            else if i.val = rd.val + 1 then BitVec.ofNat 64 d.payload else s.xreg k i) ∧
          RetiresAt k ((s.pilot k).pc + 4)
            { s.pilot k with x := (t.pilot k).x, released := ds, lostHeld := (s.pilot k).lostHeld && decide (d.kind ≠ 0x0F) } s t) ∧
        Completes (.dpop k g ⟨0, 0, 0, 0⟩) s
          (RetiresAt k ((s.pilot k).pc + 4)
            { s.pilot k with released := ds, lostHeld := (s.pilot k).lostHeld && decide (d.kind ≠ 0x0F) } s)) ∧
      ((s.pilot k).released = [] → rd.val % 2 = 0 → rd ≠ 0 → Completes (.dpop k g ⟨rd, 0, 0, 0⟩) s fun t =>
        (∀ i, t.xreg k i = if i = rd ∨ i.val = rd.val + 1 then 0 else s.xreg k i) ∧
        RetiresAt k ((s.pilot k).pc + 4) { s.pilot k with x := (t.pilot k).x } s t) ∧
      (rd.val % 2 = 1 → s.catches k →
        Completes (.dpop k g ⟨rd, 0, 0, 0⟩) s (Raises k 1 (BitVec.ofNat 64 (wordA 0x1C g ⟨rd, 0, 0, 0⟩)) s)) ∧
      Completes (.dcnt k g ⟨rd, 0, 0, 0⟩) s (Gives k rd (BitVec.ofNat 64 (s.pilot k).released.length) s) ∧
      (∀ n, n = (s.xreg k rs1).toNat % 16 → s.replaying = false →
        (((s.pilot n).st = .loaded ∨ (s.pilot n).st = .running ∨ (s.pilot n).st = .waiting) → State.queued (s.pilot n) < 256 →
          Completes (.dpost k g ⟨0, rs1, rs2, fn⟩) s fun t =>
            (t.pilot n).arrivals = (s.pilot n).arrivals ++ [⟨9, 16 + k.val, fn.val, (s.xreg k rs2).toNat, s.now, 0⟩] ∧
            (t.pilot k).pc = (s.pilot k).pc + 4 ∧ (t.pilot k).retired = ((s.pilot k).retired + 1) % 2 ^ 64 ∧
            (∀ j, j ≠ k.val → (t.pilot j).core = (s.pilot j).core) ∧ (∀ i, t.xreg k i = s.xreg k i) ∧
            (∀ j, j ≠ k.val → j ≠ n → t.pilot j = s.pilot j) ∧ Only [.pilots] s t) ∧
        ((s.pilot n).st ≠ .loaded → (s.pilot n).st ≠ .running → (s.pilot n).st ≠ .waiting →
          Completes (.dpost k g ⟨0, rs1, rs2, fn⟩) s (RetiresAt k ((s.pilot k).pc + 4) (s.pilot k) s))) ∧
      (∀ (c : Instr) (least : Nat),
        (c, least) ∈ [(Instr.wait k g ⟨rd, 0, 0, 0⟩, 0), (.waitu k g ⟨rd, rs1, 0, 0⟩, (s.xreg k rs1).toNat)] →
        Completes c s fun t =>
          RetiresAt k ((s.pilot k).pc + 4)
            { s.pilot k with st := .waiting, waitRd := rd.val, waitFor := least, snapshot := (t.pilot k).snapshot } s t ∧
          ∀ a, (t.pilot k).snapshot.get (fun _ => 0) a =
            if s.ownsBank k ((a - 0x20000) / 0x4000) then s.shared.get (fun _ => 0) a else 0)) ∧
  (∀ (k : Fin 16) (g : Guard) (rd rs1 : Fin 32) (fn : Fin 128) (s : State), s.issues k g → s.replaying = false → fn.val < 4 →
      ((s.slotOf (16 + k.val)).isSome →
        Completes (.txb k g ⟨rd, 0, 0, 0⟩) s (Logs k rd 7 [] [] s)) ∧
      (s.slotOf (16 + k.val) = none → s.freeSlot = none → Completes (.txb k g ⟨rd, 0, 0, 0⟩) s (Logs k rd 6 [] [] s)) ∧
      (∀ i, s.slotOf (16 + k.val) = none → s.freeSlot = some i →
        Completes (.txb k g ⟨rd, 0, 0, 0⟩) s fun t =>
          Logs k rd 0 [.sys] [] s t ∧ t.slot i = some ⟨16 + k.val, false, s.sys.seq, []⟩ ∧ t.sys = { s.sys with slots := t.sys.slots } ∧
          ∀ j, j ≠ i → t.slot j = s.slot j) ∧
      (s.slotOf (16 + k.val) = none →
        Completes (.txc k g ⟨rd, rs1, 0, fn⟩) s (Logs k rd 8 [] [] s) ∧ Completes (.txr k g ⟨rd, 0, 0, 0⟩) s (Logs k rd 8 [] [] s)) ∧
      (∀ i x, s.slotOf (16 + k.val) = some (i, x) →
        (Completes (.txr k g ⟨rd, 0, 0, 0⟩) s fun t =>
          Logs k rd 0 [.sys] [] s t ∧ t.slot i = none ∧ t.sys = { s.sys with slots := t.sys.slots } ∧ ∀ j, j ≠ i → t.slot j = s.slot j) ∧
        ∀ (n r : Nat) (clash : Bool),
          s.commitTarget ((s.xreg k rs1).toNat % 2 ^ 48) (decide (fn.val % 2 = 1)) (decide (2 ≤ fn.val)) = (n, r) →
          clash = x.writes.any (fun w => match s.lastSeq w.key with | some q => seqAfter q x.begin | none => false) →
          (x.full = false → r = 0 → clash = false → s.sys.landq.length < 16 →
            Completes (.txc k g ⟨rd, rs1, 0, fn⟩) s fun t =>
              Logs k rd (BitVec.ofNat 64 ((s.sys.seq + 1) % 2 ^ 32 * 2 ^ 32)) [.sys] [] s t ∧
              t.sys.seq = (s.sys.seq + 1) % 2 ^ 32 ∧ t.sys.landq = s.sys.landq ++ [⟨(s.sys.seq + 1) % 2 ^ 32, n, 16 + k.val, x.writes⟩] ∧
              t.slot i = none ∧ (∀ w ∈ x.writes, t.lastSeq w.key = some ((s.sys.seq + 1) % 2 ^ 32)) ∧ t.sys.owner = s.sys.owner ∧
              (State.queued (s.pilot k) < 256 → ⟨3, 16 + k.val, 0, (s.sys.seq + 1) % 2 ^ 32, s.now, 0⟩ ∈ (t.pilot k).arrivals)) ∧
          ∀ e, (x.full = true ∧ e = 9 ∨ x.full = false ∧ r ≠ 0 ∧ e = r ∨ x.full = false ∧ r = 0 ∧ clash = true ∧ e = 10 ∨
              x.full = false ∧ r = 0 ∧ clash = false ∧ 16 ≤ s.sys.landq.length ∧ e = 13) →
            Completes (.txc k g ⟨rd, rs1, 0, fn⟩) s fun t =>
              Logs k rd (BitVec.ofNat 64 e) [.sys] [] s t ∧ t.slot i = none ∧ t.sys = { s.sys with slots := t.sys.slots } ∧
              (State.queued (s.pilot k) < 256 → ⟨3, 16 + k.val, e, 0, s.now, 0⟩ ∈ (t.pilot k).arrivals)) ∧
      (∀ n, n = (s.xreg k rs1).toNat % 2 ^ 32 →
        (s.running = false → Completes (.txw k g ⟨rd, rs1, 0, 0⟩) s (Logs k rd 11 [] [] s)) ∧
        (s.running = true → s.sys.landq.find? (fun c => decide (c.ticket = n)) = none →
          Completes (.txw k g ⟨rd, rs1, 0, 0⟩) s (Logs k rd 8 [] [] s)) ∧
        ∀ c, s.running = true → s.sys.landq.find? (fun c => decide (c.ticket = n)) = some c →
          (c.holder ≠ 16 + k.val → Completes (.txw k g ⟨rd, rs1, 0, 0⟩) s (Logs k rd 3 [] [] s)) ∧
          (c.holder = 16 + k.val → s.deadlinePassed c.target = true → Completes (.txw k g ⟨rd, rs1, 0, 0⟩) s (Logs k rd 11 [] [] s)) ∧
          (c.holder = 16 + k.val → s.deadlinePassed c.target = false → Completes (.txw k g ⟨rd, rs1, 0, 0⟩) s fun t =>
            Logs k rd 0 [.sys] [] s t ∧
            t.sys = { s.sys with landq := s.sys.landq.filter fun d => !decide (d.ticket = n) })))

/-- R35 to R37, R80, R98, outside replay: BCMD allocates the berth that a descriptor in private data memory describes, frees a berth that the pilot, as unit 24 + k.val, owns, and queries a berth into a descriptor; rd takes the result code. A descriptor that is misaligned, outside private data memory or with a nonzero reserved bit raises DESC, a wrong fn ILLEGAL. R99: PMOV from pilot memory to a berth. A well-formed descriptor acquires the destination and returns the token, and the move is in flight; a berth that is not HELD makes it a move that fails; a malformed descriptor raises DESC; a ninth move stalls the pilot. When the oldest move ends, its bytes stand in the berth, the berth is released and PMOV_DONE follows with status 0; a move whose berth was refused ends with status 1, an abandoned one with status 2, and no bytes move. -/
def Obligations.PilotBerthCommandsAndMoves : Prop :=
  (∀ (k : Fin 16) (g : Guard) (rd rs1 rs2 : Fin 32) (s : State), s.issues k g → s.replaying = false →
      (∀ (a : Word64) (d h base pages : Nat), a = s.xreg k rs1 → d = ofBytesLE ((List.range 16).map fun i => s.loadByte k (a.toNat + i)) →
        h = d % 65536 → base = d / 2 ^ 64 % 2 ^ 26 → pages = d / 2 ^ 32 % 2 ^ 32 →
        (a.toNat % 8 = 0 → 0x10000 ≤ a.toNat → a.toNat + 16 ≤ 0x18000 → d / 2 ^ 90 % 2 ^ 14 = 0 → d / 2 ^ 110 % 4 = 0 → d / 2 ^ 112 = 0 →
          (h ≠ 0 → (s.berth h).st = .free → 0 < pages → pages ≤ 0x3000000 → base + pages ≤ 0x3000000 →
            Completes (.bcmdAllocate k g ⟨rd, rs1, 0, 1⟩) s fun t =>
              Logs k rd 0 [.fab] [] s t ∧ t.berth h = ⟨base, pages, d / 2 ^ 16 % 65536, d / 2 ^ 104 % 64, 0, .held, {}, none⟩ ∧
              (∀ j, j ≠ h → t.berth j = s.berth j) ∧ t.fab = { s.fab with berths := t.fab.berths }) ∧
          ∀ e : Word64, (h = 0 ∧ e = 2 ∨ h ≠ 0 ∧ (s.berth h).st ≠ .free ∧ e = 1 ∨
              h ≠ 0 ∧ (s.berth h).st = .free ∧ (pages = 0 ∨ 0x3000000 < pages ∨ 0x3000000 < base + pages) ∧ e = 3) →
            Completes (.bcmdAllocate k g ⟨rd, rs1, 0, 1⟩) s (Logs k rd e [] [] s)) ∧
        (s.catches k → (a.toNat % 8 ≠ 0 ∨ a.toNat < 0x10000 ∨ 0x18000 < a.toNat + 16 ∨ d / 2 ^ 90 % 2 ^ 14 ≠ 0 ∨ d / 2 ^ 110 % 4 ≠ 0 ∨
            d / 2 ^ 112 ≠ 0) →
          Completes (.bcmdAllocate k g ⟨rd, rs1, 0, 1⟩) s (Raises k 5 a s))) ∧
      (∀ h, h = (s.xreg k rs1).toNat % 65536 →
        (h ≠ 0 → (s.berth h).owner = 24 + k.val → (s.berth h).st = .held → (s.berth h).count = 0 →
          Completes (.bcmdFree k g ⟨rd, rs1, 0, 2⟩) s fun t =>
            Logs k rd 0 [.fab] [] s t ∧ t.berth h = { s.berth h with st := .free } ∧ ∀ j, j ≠ h → t.berth j = s.berth j) ∧
        (h ≠ 0 → (s.berth h).owner = 24 + k.val → (s.berth h).st = .held → 0 < (s.berth h).count →
          Completes (.bcmdFree k g ⟨rd, rs1, 0, 2⟩) s fun t =>
            Logs k rd 5 [.fab] [0x60000, 0x60120, 0x60124] s t ∧ t.berth h = { s.berth h with st := .draining } ∧
            t.flag Reg.FAB_EVENT_EARLY_FREE = true ∧ t.fld Reg.FAB_EARLY_FREE_LAST_HANDLE = h ∧ ∀ j, j ≠ h → t.berth j = s.berth j) ∧
        (∀ e : Word64, (h = 0 ∧ e = 2 ∨ h ≠ 0 ∧ (s.berth h).st = .free ∧ e = 7 ∨
            h ≠ 0 ∧ (s.berth h).st ≠ .free ∧ (s.berth h).owner ≠ 24 + k.val ∧ e = 4 ∨
            h ≠ 0 ∧ (s.berth h).st = .draining ∧ (s.berth h).owner = 24 + k.val ∧ e = 6) →
          Completes (.bcmdFree k g ⟨rd, rs1, 0, 2⟩) s (Logs k rd e [] [] s)) ∧
        ∀ a : Word64, a = s.xreg k rs2 →
          (h ≠ 0 → a.toNat % 8 = 0 → 0x10000 ≤ a.toNat → a.toNat + 16 ≤ 0x18000 → (s.berth h).format < 65536 → (s.berth h).pages < 2 ^ 32 →
            (s.berth h).base < 2 ^ 40 → (s.berth h).owner < 256 → (s.berth h).count < 256 →
            Completes (.bcmdQuery k g ⟨rd, rs1, rs2, 3⟩) s fun t =>
              Puts k rd 0 s t ∧
              ofBytesLE ((List.range 16).map fun i => t.loadByte k (a.toNat + i)) =
                h + (s.berth h).format * 2 ^ 16 + (s.berth h).pages * 2 ^ 32 + (s.berth h).base * 2 ^ 64 + (s.berth h).owner * 2 ^ 104 +
                  (s.berth h).count * 2 ^ 112 + State.stCode (s.berth h).st * 2 ^ 120 ∧
              (∀ x, (x < a.toNat ∨ a.toNat + 16 ≤ x) → t.loadByte k x = s.loadByte k x) ∧
              (t.pilot k).core = { (s.pilot k).core with
                x := (t.pilot k).x, data := (t.pilot k).data, pc := (s.pilot k).pc + 4, retired := ((s.pilot k).retired + 1) % 2 ^ 64 } ∧
              Only sideParts s t ∧ ∀ x, calm x = true → t.word x = s.word x) ∧
          (s.catches k → (a.toNat % 8 ≠ 0 ∨ a.toNat < 0x10000 ∨ 0x18000 < a.toNat + 16) →
            Completes (.bcmdQuery k g ⟨rd, rs1, rs2, 3⟩) s (Raises k 5 a s))) ∧
      ∀ fn : Fin 128, s.catches k →
        (fn ≠ 1 → Completes (.bcmdAllocate k g ⟨rd, rs1, rs2, fn⟩) s (Raises k 1 (BitVec.ofNat 64 (wordA 0x2C g ⟨rd, rs1, rs2, fn⟩)) s)) ∧
        (fn ≠ 2 → Completes (.bcmdFree k g ⟨rd, rs1, rs2, fn⟩) s (Raises k 1 (BitVec.ofNat 64 (wordA 0x2C g ⟨rd, rs1, rs2, fn⟩)) s)) ∧
        (fn ≠ 3 → Completes (.bcmdQuery k g ⟨rd, rs1, rs2, fn⟩) s (Raises k 1 (BitVec.ofNat 64 (wordA 0x2C g ⟨rd, rs1, rs2, fn⟩)) s))) ∧
  ((∀ (k : Fin 16) (g : Guard) (rd rs1 : Fin 32) (a : Word64) (d dst addr len : Nat) (s : State), s.issues k g → a = s.xreg k rs1 →
      d = ofBytesLE (s.loadBytes k a.toNat 64) → dst = d / 2 ^ 272 % 65536 → addr = d / 2 ^ 288 % 2 ^ 32 → len = d / 2 ^ 448 % 2 ^ 32 →
      (a.toNat % 8 = 0 → 0x10000 ≤ a.toNat → a.toNat + 64 ≤ 0x18000 → 0 < len → len ≤ 1048576 → len % 64 = 0 → d / 2 ^ 320 % 64 = 0 →
        d / 2 ^ 384 % 64 = 0 → d / 2 ^ 480 = 0 → d / 2 ^ 256 % 65536 = 0 → dst ≠ 0 → 0x10000 ≤ addr → addr + len ≤ 0x18000 →
        ((s.pilot k).moves.length < 8 → (s.berth dst).st = .held → (s.berth dst).count < 255 →
          Completes (.pmov k g ⟨rd, rs1, 0, 0⟩) s fun t =>
            Puts k rd (BitVec.ofNat 64 ((s.pilot k).tokens % 65536)) s t ∧
            t.pilot k = { s.pilot k with
              x := (t.pilot k).x, pc := (s.pilot k).pc + 4, retired := ((s.pilot k).retired + 1) % 2 ^ 64, tokens := (s.pilot k).tokens + 1,
              moves := (s.pilot k).moves ++ [⟨(s.pilot k).tokens % 65536, Manifest.ofNat (d % 2 ^ 256), 0, dst, addr,
                d / 2 ^ 320 % 2 ^ 64, d / 2 ^ 384 % 2 ^ 64, len, true, false, (s.pilot k).workTide, false⟩] } ∧
            t.berth dst = { s.berth dst with count := (s.berth dst).count + 1 } ∧ t.fab.refs = s.fab.refs ++ [⟨dst, 24 + k.val, true⟩] ∧
            (∀ j, j ≠ dst → t.berth j = s.berth j) ∧ (∀ j, j ≠ k.val → t.pilot j = s.pilot j) ∧ Only [.fab, .pilots] s t) ∧
        ((s.pilot k).moves.length < 8 → (s.berth dst).st ≠ .held →
          Completes (.pmov k g ⟨rd, rs1, 0, 0⟩) s fun t =>
            Puts k rd (BitVec.ofNat 64 ((s.pilot k).tokens % 65536)) s t ∧ t.fab = s.fab ∧ t.flag Reg.FAB_EVENT_BERTH_FAULT = true ∧
            ∃ m, (t.pilot k).moves = (s.pilot k).moves ++ [m] ∧ m.ok = false) ∧
        (8 ≤ (s.pilot k).moves.length → exec (.pmov k g ⟨rd, rs1, 0, 0⟩) s = .next s)) ∧
      (s.catches k → (a.toNat % 8 ≠ 0 ∨ a.toNat < 0x10000 ∨ 0x18000 < a.toNat + 64 ∨ len = 0 ∨ 1048576 < len ∨ len % 64 ≠ 0 ∨
          d / 2 ^ 320 % 64 ≠ 0 ∨ d / 2 ^ 384 % 64 ≠ 0 ∨ d / 2 ^ 480 ≠ 0 ∨ d / 2 ^ 256 % 2 ^ 32 = 0 ∨
          (d / 2 ^ 256 % 65536 = 0 ∨ dst = 0) ∧ (addr < 0x10000 ∨ 0x18000 < addr + len)) →
        Completes (.pmov k g ⟨rd, rs1, 0, 0⟩) s (Raises k 5 a s))) ∧
    ∀ (k : Fin 16) (m : Move) (ms : List Move) (s : State), (s.pilot k).moves = m :: ms → m.discard = false → m.src = 0 → m.dst ≠ 0 →
      s.noFollower →
      (m.ok = true → m.gone = false → s.accessCause (24 + k.val) m.dst m.dstOfs m.len = 0 → (s.berth m.dst).st = .held → 0 < (s.berth m.dst).count →
        Completes (.pmovDone k) s fun t =>
          (∀ i, i < m.len → t.memByte ((s.berth m.dst).base * 4096 + m.dstOfs + i) = (s.pilot k).data.get (fun _ => 0) (m.addr + i)) ∧
          (∀ x, (x < (s.berth m.dst).base * 4096 + m.dstOfs ∨ (s.berth m.dst).base * 4096 + m.dstOfs + m.len ≤ x) → t.memByte x = s.memByte x) ∧
          (t.pilot k).moves = ms ∧ (t.berth m.dst).count = (s.berth m.dst).count - 1 ∧ (∀ j, j ≠ m.dst → t.berth j = s.berth j) ∧
          (s.replaying = false → (s.pilot k).st = .running → State.queued (s.pilot k) < 256 →
            ⟨8, 16 + k.val, m.token % 65536, 0, s.now, 0⟩ ∈ (t.pilot k).arrivals)) ∧
      (m.ok = false → Completes (.pmovDone k) s fun t =>
        t.mem = s.mem ∧ t.fab = s.fab ∧ (t.pilot k).moves = ms ∧
        (s.replaying = false → (s.pilot k).st = .running → State.queued (s.pilot k) < 256 →
          ⟨8, 16 + k.val, m.token % 65536, if m.gone then 2 else 1, s.now, 0⟩ ∈ (t.pilot k).arrivals)) ∧
      (m.ok = true → m.gone = true → Completes (.pmovDone k) s fun t =>
        t.mem = s.mem ∧ (t.pilot k).moves = ms ∧
        (s.replaying = false → (s.pilot k).st = .running → State.queued (s.pilot k) < 256 →
          ⟨8, 16 + k.val, m.token % 65536, 2, s.now, 0⟩ ∈ (t.pilot k).arrivals)))

/-- R80, R84, R500: HINIT selects SHA-384 or CRC-32 and empties the hash context; HUPD absorbs rs2 bytes from rs1 on, BUS naming the first address that cannot be loaded; HFIN writes the digest at rs1, gives its first 8 bytes in rd and empties the context. CSRR reads the eight registers of R84, CSRW writes EVEC, EPC and SCRATCH; any other fn raises ILLEGAL. R75, R78, R85, R86: how every Marl instruction issues, and what TRAP, ERET and HALT do. A pilot that is not RUNNING executes nothing. A fetch outside program memory raises BUS with the pc; the reserved guard raises ILLEGAL; a false guard retires the instruction with no effect. An exception in handler mode halts the pilot with cause DOUBLE, and one without a handler with its own cause; the halt rolls back the pilot's transaction. TRAP retires and saves pc + 4; ERET goes back to EPC; HALT retires and halts with its own pc in PILOT_HALT. -/
def Obligations.PilotHashIssueAndTraps : Prop :=
  (∀ (k : Fin 16) (g : Guard) (rd rs1 rs2 : Fin 32) (fn : Fin 128) (s : State), s.issues k g →
      (fn.val < 2 → Completes (.hinit k g ⟨0, 0, 0, fn⟩) s
        (RetiresAt k ((s.pilot k).pc + 4) { s.pilot k with hashAlg := fn.val, hashed := [] } s)) ∧
      (2 ≤ fn.val → s.catches k → Completes (.hinit k g ⟨0, 0, 0, fn⟩) s (Raises k 1 (BitVec.ofNat 64 (wordA 0x30 g ⟨0, 0, 0, fn⟩)) s)) ∧
      (∀ a n : Nat, a = (s.xreg k rs1).toNat → n = (s.xreg k rs2).toNat →
        (n = 0 ∨ a + n ≤ 0x18000 ∨ 0x20000 ≤ a ∧ a + n ≤ 0x60000 →
          Completes (.hupd k g ⟨0, rs1, rs2, 0⟩) s
            (RetiresAt k ((s.pilot k).pc + 4) { s.pilot k with hashed := (s.pilot k).hashed ++ s.loadBytes k a n } s)) ∧
        (0 < n → s.catches k → ∀ b, (a < 0x18000 ∧ 0x18000 < a + n ∧ b = 0x18000 ∨ 0x18000 ≤ a ∧ a < 0x20000 ∧ b = a ∨
            0x20000 ≤ a ∧ a < 0x60000 ∧ 0x60000 < a + n ∧ b = 0x60000 ∨ 0x60000 ≤ a ∧ b = a) →
          Completes (.hupd k g ⟨0, rs1, rs2, 0⟩) s (Raises k 3 (BitVec.ofNat 64 b) s)) ∧
        ∀ d : List Byte, (d = if (s.pilot k).hashAlg = 0 then Sha.sha384 (s.pilot k).hashed else bytesLE 4 (crc32 (s.pilot k).hashed)) →
          (0x10000 ≤ a → a + d.length ≤ 0x18000 →
            Completes (.hfin k g ⟨rd, rs1, 0, 0⟩) s fun t =>
              Puts k rd (BitVec.ofNat 64 (ofBytesLE (d.take 8))) s t ∧
              (∀ i, i < d.length → t.loadByte k (a + i) = d.getD i 0) ∧
              (∀ x, (x < a ∨ a + d.length ≤ x) → t.loadByte k x = s.loadByte k x) ∧
              RetiresAt k ((s.pilot k).pc + 4) { s.pilot k with x := (t.pilot k).x, data := (t.pilot k).data, hashed := [] } s t) ∧
          (a < 0x10000 → 0 < d.length → s.catches k → Completes (.hfin k g ⟨rd, rs1, 0, 0⟩) s (Raises k 4 (BitVec.ofNat 64 a) s))) ∧
      (∀ v : Word64, (fn.val, v) ∈ [(0, (s.pilot k).evec), (1, (s.pilot k).epc), (2, BitVec.ofNat 64 (s.pilot k).ecause), (3, (s.pilot k).eval),
          (4, BitVec.ofNat 64 (s.pilot k).retired), (5, BitVec.ofNat 64 k.val), (6, BitVec.ofNat 64 (s.fld Reg.SYS_ARRAY_ID_ID)),
          (7, (s.pilot k).scratch)] →
        Completes (.csrr k g ⟨rd, 0, 0, fn⟩) s (Gives k rd v s)) ∧
      (∀ p, (fn.val, p) ∈ [(0, { s.pilot k with evec := s.xreg k rs1 }), (1, { s.pilot k with epc := s.xreg k rs1 }),
          (7, { s.pilot k with scratch := s.xreg k rs1 })] →
        Completes (.csrw k g ⟨0, rs1, 0, fn⟩) s (RetiresAt k ((s.pilot k).pc + 4) p s)) ∧
      (s.catches k →
        (8 ≤ fn.val → Completes (.csrr k g ⟨rd, 0, 0, fn⟩) s (Raises k 1 (BitVec.ofNat 64 (wordA 0x38 g ⟨rd, 0, 0, fn⟩)) s)) ∧
        (fn.val ≠ 0 → fn.val ≠ 1 → fn.val ≠ 7 →
          Completes (.csrw k g ⟨0, rs1, 0, fn⟩) s (Raises k 1 (BitVec.ofNat 64 (wordA 0x39 g ⟨0, rs1, 0, fn⟩)) s)))) ∧
  (∀ (k : Fin 16) (g : Guard) (a : FmtA) (i : FmtI) (u : FmtU) (p : FmtP) (q : FmtQ) (l : FmtL) (off : BitVec 22) (s : State),
      (∀ c, c ∈ [Instr.alu k g a, .addi k g i, .andi k g i, .ori k g i, .xori k g i, .shi k g i, .lui k g u, .ld k g i, .lw k g i, .lh k g i,
          .lb k g i, .sd k g i, .sw k g i, .sh k g i, .sb k g i, .cld k g i, .cst k g i, .fence k g a, .pcmp k g p, .pcmpi k g q, .plog k g l,
          .pget k g a, .br k g off, .call k g off, .jr k g i, .dpop k g a, .dpost k g a, .dcnt k g a, .wait k g a, .waitu k g a, .tide k g a,
          .timr k g a, .mfld k g i, .txb k g a, .txc k g a, .txr k g a, .txw k g a, .bcmdAllocate k g a, .bcmdFree k g a, .bcmdQuery k g a,
          .pmov k g a, .hinit k g a, .hupd k g a, .hfin k g a, .csrr k g a, .csrw k g a, .trap k g u, .eret k g a, .rand k g a, .halt k g a] →
        ((s.pilot k).st ≠ .running → exec c s = .next s) ∧
        ((s.pilot k).st = .running → 0x10000 ≤ (s.pilot k).pc → s.catches k → Completes c s (Raises k 3 (BitVec.ofNat 64 (s.pilot k).pc) s)) ∧
        ((s.pilot k).st = .running → (s.pilot k).pc < 0x10000 →
          (g.n = true → g.p = 0 → s.catches k → Completes c s fun t => ∃ w, Raises k 1 w s t) ∧
          (g.n = true → g.p = 0 → s.replaying = false → ∀ n, ((s.pilot k).handler = true ∧ n = 9 ∨
              (s.pilot k).handler = false ∧ (s.pilot k).evec = 0 ∧ n = 1) →
            Completes c s fun t =>
              (t.pilot k).core = { (s.pilot k).core with st := .halted, haltCause := n } ∧
              (∀ x, s.slotOf (16 + k.val) = some x → t.slot x.1 = none) ∧ t.sys.landq = s.sys.landq ∧
              (∀ j, j ≠ k.val → (t.pilot j).core = (s.pilot j).core) ∧ Only (.sys :: sideParts) s t ∧
              ∀ x, calm x = true → t.word x = s.word x) ∧
          (g.p ≠ 0 → s.pred k g.p = g.n → Completes c s (RetiresAt k ((s.pilot k).pc + 4) (s.pilot k) s)))) ∧
      (s.issues k g → s.catches k → u.rd = 0 → Completes (.trap k g u) s
        (PilotOnly k { s.pilot k with epc := BitVec.ofNat 64 ((s.pilot k).pc + 4), ecause := 7, eval := u.imm.zeroExtend 64, handler := true, pc := (s.pilot k).evec.toNat / 4 * 4, retired := ((s.pilot k).retired + 1) % 2 ^ 64 } s)) ∧
      (s.issues k g → Completes (.eret k g ⟨0, 0, 0, 0⟩) s
        (RetiresAt k ((s.pilot k).epc.toNat / 4 * 4) { s.pilot k with handler := false } s)) ∧
      (s.issues k g → s.replaying = false → Completes (.halt k g ⟨0, 0, 0, 0⟩) s fun t =>
        (t.pilot k).core = { (s.pilot k).core with st := .halted, haltCause := 0, retired := ((s.pilot k).retired + 1) % 2 ^ 64 } ∧
        (∀ x, s.slotOf (16 + k.val) = some x → t.slot x.1 = none) ∧ t.sys.landq = s.sys.landq ∧
        (∀ j, j ≠ k.val → (t.pilot j).core = (s.pilot j).core) ∧
        (∀ j, j < 16 → j ≠ k.val → (s.pilot j).st = .running → State.queued (s.pilot j) < 256 →
          bit (s.word (Reg.PILOT_DKT_SUB_MASK j).addr).toNat 14 = true →
          ⟨0x0E, 16 + k.val, 0, (s.pilot k).pc, s.now, 0⟩ ∈ (t.pilot j).arrivals) ∧
        Only (.sys :: sideParts) s t ∧ ∀ x, calm x = true → t.word x = s.word x))

/-- R88 to R90, R77, R89, R91, outside replay: a docket enters the queue of a LOADED, RUNNING or WAITING pilot with room, is dropped and counted at a full queue, and is not queued otherwise; HOST_MAIL posts one with the word written. A WAIT that is due returns: the snapshot becomes the published copy of the pilot's banks, the dockets that entered before the cycle of the tide's instant are released in the order of R89 behind those not yet popped, numbered on, a due DOCKET_LOST first, and rd takes the tide. A pilot still running at its own tide k + 1 overruns; at k + 2 it takes ABANDON, whose EVAL is free (log entry 8), and its work for k + 1 overruns. -/
def Obligations.PilotDocketsReleasesAndLateness : Prop :=
  (∀ (k : Fin 16) (kind src : BitVec 8) (sub : BitVec 16) (payload : Word64) (s : State), s.replaying = false →
    (((s.pilot k).st = .loaded ∨ (s.pilot k).st = .running ∨ (s.pilot k).st = .waiting) →
      (State.queued (s.pilot k) < 256 → Completes (.docketPost k kind src sub payload) s
        (PilotOnly k { s.pilot k with
          arrivals := (s.pilot k).arrivals ++ [⟨kind.toNat, src.toNat, sub.toNat, payload.toNat, s.now, 0⟩] } s)) ∧
      (256 ≤ State.queued (s.pilot k) → Completes (.docketPost k kind src sub payload) s fun t =>
        t.pilot k = { s.pilot k with drops := (s.pilot k).drops + 1 } ∧
        t.fld (Reg.PILOT_DKT_STATUS_LOST k) = min (s.fld (Reg.PILOT_DKT_STATUS_LOST k) + 1) 65535 ∧ Frame [] [] s t)) ∧
    ((s.pilot k).st ≠ .loaded → (s.pilot k).st ≠ .running → (s.pilot k).st ≠ .waiting →
      exec (.docketPost k kind src sub payload) s = .next s)) ∧
  (∀ (m : Fin 32) (k : Fin 16) (i : Fin 4) (v : Word) (s : State), s.mayWrite m.val (0x30040 + 0x1000 * k.val + 4 * i.val) .plain = true →
    s.replaying = false → (s.pilot k).st = .running → State.queued (s.pilot k) < 255 →
    Completes (.hostMail m k i v) s fun t =>
      ⟨1, m.val, i.val, v.toNat, s.now, 0⟩ ∈ (t.pilot k).arrivals ∧ Frame [] [0x30040 + 0x1000 * k.val + 4 * i.val] s t) ∧
  (∀ (k : Fin 16) (lost : Bool) (s : State), s.replaying = false →
    ((s.pilot k).st = .waiting → (s.pilot k).ovr = false → (s.pilot k).workTide < s.tide → (s.pilot k).waitFor ≤ s.tide →
      lost = (!(s.pilot k).lostHeld && decide (0 < (s.pilot k).drops)) → ((s.pilot k).snapshot.map (·.1)).Nodup →
      (∀ e ∈ (s.pilot k).snapshot, s.ownsBank k ((e.1 - 0x20000) / 0x4000) = true) →
      Completes (.pilotRelease k) s fun t =>
        (t.pilot k).st = .running ∧ (t.pilot k).lastTide = s.tide ∧ (t.pilot k).workTide = s.tide ∧
        (∀ i : Fin 32, t.xreg k i = if i.val = (s.pilot k).waitRd % 32 ∧ i ≠ 0 then BitVec.ofNat 64 s.tide else s.xreg k i) ∧
        (∀ a, t.published.get (fun _ => 0) a = if s.ownsBank k ((a - 0x20000) / 0x4000) then (s.pilot k).snapshot.get (fun _ => 0) a
          else s.published.get (fun _ => 0) a) ∧
        (∃ new : List Docket,
          (t.pilot k).released = (s.pilot k).released ++
            ((if lost then [⟨0x0F, 0, 0, (s.pilot k).drops, s.now, (s.pilot k).seq % 2 ^ 32⟩] else []) ++ new) ∧
          (new.map fun d => { d with seq := 0 }).Perm
            (((s.pilot k).arrivals.filter fun d => decide (d.arrived < s.instantOf s.tide)).map fun d => { d with seq := 0 }) ∧
          new.Pairwise (fun d e => State.docketLe d e = true) ∧
          ∀ i, i < new.length → (new.getD i ⟨0, 0, 0, 0, 0, 0⟩).seq = ((s.pilot k).seq + (if lost then 1 else 0) + i) % 2 ^ 32) ∧
        Pilots k { s.pilot k with st := .running, x := (t.pilot k).x, lastTide := s.tide, workTide := s.tide, ovr := false, released := (t.pilot k).released, lostHeld := (s.pilot k).lostHeld || lost, seq := (t.pilot k).seq } [.published] [] s t) ∧
    ((s.pilot k).st ≠ .waiting ∨ (s.pilot k).ovr = false ∧ s.tide ≤ (s.pilot k).workTide ∨ s.tide < (s.pilot k).waitFor →
      exec (.pilotRelease k) s = .next s)) ∧
  ∀ (k : Fin 16) (u : Nat) (s : State), s.replaying = false → u = 24 + k.val → (s.pilot k).workTide + 1 < 2 ^ 48 →
    ((s.pilot k).st = .running → (s.pilot k).ovr = false → (s.pilot k).workTide + 1 ≤ s.tide → Completes (.pilotOverrun k) s fun t =>
      t.fld (Reg.FAB_UNIT_OVR_OVR_CNT u) = min (s.fld (Reg.FAB_UNIT_OVR_OVR_CNT u) + 1) 65535 ∧
      t.fld2 (Reg.FAB_UNIT_OVR_TIDE_LO_TIDE_LO u) (Reg.FAB_UNIT_OVR_TIDE_HI_TIDE_HI u) = (s.pilot k).workTide ∧
      t.flag Reg.FAB_EVENT_OVERRUN = true ∧
      Pilots k { s.pilot k with ovr := true } [.fab] [0x60000, 0x61004 + 0x20 * u, 0x61008 + 0x20 * u, 0x6100C + 0x20 * u] s t) ∧
    ((s.pilot k).st = .running → s.catches k → (s.pilot k).workTide + 2 ≤ s.tide → Completes (.pilotAbandon k) s fun t =>
      t.fld (Reg.FAB_UNIT_OVR_ABANDON_CNT u) = min (s.fld (Reg.FAB_UNIT_OVR_ABANDON_CNT u) + 1) 65535 ∧
      t.fld2 (Reg.FAB_UNIT_OVR_TIDE_LO_TIDE_LO u) (Reg.FAB_UNIT_OVR_TIDE_HI_TIDE_HI u) = (s.pilot k).workTide + 1 ∧
      t.flag Reg.FAB_EVENT_ABANDON = true ∧ t.flag Reg.FAB_EVENT_OVERRUN = true ∧
      Pilots k { s.pilot k with epc := BitVec.ofNat 64 (s.pilot k).pc, ecause := 8, eval := (t.pilot k).eval, handler := true, pc := (s.pilot k).evec.toNat / 4 * 4, workTide := (s.pilot k).workTide + 1, ovr := true, moves := (s.pilot k).moves.map (fun m => if m.tide ≤ (s.pilot k).workTide then { m with gone := true } else m) }
        [.fab, .fresh] [0x60000, 0x61004 + 0x20 * u, 0x61008 + 0x20 * u, 0x6100C + 0x20 * u] s t) ∧
    ((s.pilot k).st ≠ .running ∨ s.tide < (s.pilot k).workTide + 1 → exec (.pilotOverrun k) s = .next s) ∧
    ((s.pilot k).st ≠ .running ∨ s.tide < (s.pilot k).workTide + 2 → exec (.pilotAbandon k) s = .next s)

/-- R95 to R97, R502: the harbourmaster's operations on a pilot by its state, outside replay. START makes a LOADED pilot wait for the next tide boundary, restarts a HALTED or STOPPED one with its registers, CSRs, queue, hash context and counts cleared and its memories kept, and is ignored otherwise; STOP rolls back its transaction, discards its queue and frees its banks; RESET empties it. The first tide boundary after a START begins it at ENTRY. PILOT_LOAD acquires the image's berth; the load's end shows its result, and takes the image only when every check passed. -/
def Obligations.PilotOperationsFollowState : Prop :=
  ∀ (m : Fin 32) (k : Fin 16) (s : State), s.replaying = false →
    (s.mayWrite m.val (0x30000 + 0x1000 * k.val) .plain = true →
      ((s.pilot k).st = .loaded → s.awake (24 + k.val) → Completes (.pilotStart m k) s
        (Pilots k { s.pilot k with starting := 1, startAt := s.now, retired := 0 } [] [0x30000 + 0x1000 * k.val] s)) ∧
      ((s.pilot k).st = .halted ∨ (s.pilot k).st = .stopped → s.awake (24 + k.val) → Completes (.pilotStart m k) s
        (Pilots k { s.pilot k with x := [], preds := 0, evec := 0, epc := 0, ecause := 0, eval := 0, scratch := 0, retired := 0, handler := false, released := [], lostHeld := false, seq := 0, hashAlg := 0, hashed := [], tokens := 0, ovr := false, starting := 2, startAt := s.now } [] [0x30000 + 0x1000 * k.val] s)) ∧
      ((s.pilot k).st = .empty ∨ (s.pilot k).st = .running ∨ (s.pilot k).st = .waiting → s.awake (24 + k.val) →
        Completes (.pilotStart m k) s (Frame [] [0x30000 + 0x1000 * k.val] s)) ∧
      ((s.pilot k).st ≠ .empty → (s.pilot k).st ≠ .stopped → Completes (.pilotStop m k) s fun t =>
        (∀ x, s.slotOf (16 + k.val) = some x → t.slot x.1 = none) ∧ t.sys.landq = s.sys.landq ∧ (t.pilot k).arrivals = [] ∧
        Pilots k { s.pilot k with st := .stopped, banks := 0, starting := 0, released := [], lostHeld := false, moves := (s.pilot k).moves.map (fun m => { m with discard := true }) }
          [.sys] [0x30000 + 0x1000 * k.val] s t) ∧
      ((s.pilot k).st = .empty ∨ (s.pilot k).st = .stopped →
        Completes (.pilotStop m k) s (Frame [] [0x30000 + 0x1000 * k.val] s)) ∧
      Completes (.pilotReset m k) s fun t =>
        (t.pilot k).arrivals = [] ∧ t.fld (Reg.PILOT_DKT_SUB_MASK k) = 0 ∧
        Pilots k { ({} : Pilot) with moves := (t.pilot k).moves, load := (s.pilot k).load } [.sys]
          [0x30000 + 0x1000 * k.val, 0x30030 + 0x1000 * k.val] s t) ∧
    ((s.pilot k).starting ≠ 0 → (s.pilot k).startAt < s.time.firedAt → Completes (.pilotBegin k) s
      fun t => Pilots k { s.pilot k with st := .running, starting := 0, pc := (s.pilot k).entry, lastTide := s.tide, workTide := s.tide, ovr := false, released := (t.pilot k).released, lostHeld := (t.pilot k).lostHeld, seq := (t.pilot k).seq } [] [] s t) ∧
    ((s.pilot k).starting = 0 ∨ s.time.firedAt ≤ (s.pilot k).startAt → exec (.pilotBegin k) s = .next s) ∧
    (∀ h : BitVec 16, s.mayWrite m.val (0x30008 + 0x1000 * k.val) .plain = true →
      ((s.pilot k).load = none → h ≠ 0 → (s.berth h.toNat).st = .held → (s.berth h.toNat).count < 255 →
        Completes (.pilotLoad m k h) s fun t =>
          t.berth h.toNat = { s.berth h.toNat with count := (s.berth h.toNat).count + 1 } ∧ (∀ j, j ≠ h.toNat → t.berth j = s.berth j) ∧
          Pilots k { s.pilot k with load := some (h.toNat, true) } [.fab] [0x30008 + 0x1000 * k.val] s t) ∧
      ((s.pilot k).load = none → (h = 0 ∨ (s.berth h.toNat).st ≠ .held) →
        Completes (.pilotLoad m k h) s fun t =>
          t.fab = s.fab ∧ t.flag Reg.FAB_EVENT_BERTH_FAULT = true ∧
          Pilots k { s.pilot k with load := some (h.toNat, false) } [] [0x30008 + 0x1000 * k.val, 0x60000, 0x60128, 0x6012C] s t) ∧
      ((s.pilot k).load.isSome → Completes (.pilotLoad m k h) s (Frame [] [0x30008 + 0x1000 * k.val] s))) ∧
    ∀ (h : Nat) (ok : Bool), (s.pilot k).load = some (h, ok) → s.noFollower →
      (ok = false → Completes (.pilotLoadDone k) s fun t =>
        t.fld (Reg.PILOT_LOAD_RESULT k) = 7 ∧ Pilots k { s.pilot k with load := none } [] [0x30008 + 0x1000 * k.val] s t) ∧
      (ok = true → (s.berth h).st = .held → 0 < (s.berth h).count → h ≠ 0 →
        (∀ e, ((s.pilot k).st = .running ∧ e = 4 ∨
            (s.pilot k).st = .stopped ∧ (s.pilot k).starting = 0 ∧ s.memRead ((s.berth h).base * 4096) 4 ≠ [0x4D, 0x41, 0x52, 0x4C] ∧ e = 1) →
          Completes (.pilotLoadDone k) s fun t =>
            t.fld (Reg.PILOT_LOAD_RESULT k) = e ∧ (t.berth h).count = (s.berth h).count - 1 ∧
            Pilots k { s.pilot k with load := none } [.fab] [0x30008 + 0x1000 * k.val] s t) ∧
        (s.loadResult k h true = 0 → s.replayMode = false → Completes (.pilotLoadDone k) s fun t =>
          t.fld (Reg.PILOT_LOAD_RESULT k) = 0 ∧ (t.pilot k).st = .loaded ∧ (t.berth h).count = (s.berth h).count - 1 ∧
          (∀ i, i < ofBytesLE (s.memRead ((s.berth h).base * 4096 + 8) 4) →
            (t.pilot k).prog.get (fun _ => 0) i = s.memByte ((s.berth h).base * 4096 + 64 + i)) ∧
          (∀ i, ofBytesLE (s.memRead ((s.berth h).base * 4096 + 8) 4) ≤ i → (t.pilot k).prog.get (fun _ => 0) i = 0) ∧
          (t.pilot k).entry = ofBytesLE (s.memRead ((s.berth h).base * 4096 + 16) 4) ∧
          (t.pilot k).banks = ofBytesLE (s.memRead ((s.berth h).base * 4096 + 24) 2) ∧
          t.fld (Reg.PILOT_DKT_SUB_MASK k) = ofBytesLE (s.memRead ((s.berth h).base * 4096 + 20) 4) ∧
          (t.pilot k).x = [] ∧ (t.pilot k).released = [] ∧ (t.pilot k).evec = 0 ∧ t.mem = s.mem))

/-- R69, R103, R108, R116, R118, R119: time. A changed wrap epoch is announced once. A write of RUN = 1 while tides do not run makes the first tide after tide time the next one, and RUN = 0 stops the schedule, where no commit waits and DOM_SEL goes to an open transaction. A LOCKED domain without a Sync for four sync intervals enters HOLDOVER; an engine that hears no Announce in time forgets its masters, a slave-only one listening, one with BMCA becoming master. The clock monitor moves TCLK from TOSC to the reference, and from both when both are out. R117, R119, outside replay: an enabled PTP engine processes the messages of its domain. A one-step Sync at a slave gives the offset t2 − t1 − meanPathDelay in DOM_OFFSET, a two-step one waits for its Follow_Up; a Delay_Resp gives meanPathDelay; a master answers a Delay_Req with the time of its arrival; an unsupported message is counted and ignored, and one of another domain, or to a disabled engine, does nothing. A sent message takes the next sequence number and the domain's time, and a delay request starts an exchange. R121 to R124: POP drops the head of a timestamp queue; an accepted edge of a capture pin is queued with its time, edge and ID, or counted as dropped at 16; a one-shot time arms its pin or is missed; a due output asserts for its width and then deasserts. -/
def Obligations.TimeRunsAndPtp : Prop :=
  ((∀ (d : Fin 2) (e : Nat) (s : State), e = s.fullNs d / 2 ^ 32 % 65536 →
      (e ≠ (s.dom d).wrapSeen → Completes (.epochWrap d) s fun t =>
        t.dom d = { s.dom d with wrapSeen := e } ∧ t.time = { s.time with dom := t.time.dom } ∧ bit (t.word 0x20008).toNat d = true ∧
        Posts 0x0D d 0 e s t ∧ Frame [.time] [0x20008] s t) ∧
      (e = (s.dom d).wrapSeen → exec (.epochWrap d) s = .next s)) ∧
    (∀ (m : Fin 32) (failover domSel : Bool) (s : State), s.mayWrite m.val 0x20000 .plain = true → s.replaying = false →
      (s.slotOf m.val).isSome → s.sys.landq = [] →
      (s.running = false → Completes (.runStart m failover domSel) s fun t =>
        t.running = true ∧ t.flag Reg.TIME_CTRL_FAILOVER = failover ∧ t.fld Reg.TIME_CTRL_DOM_SEL = s.fld Reg.TIME_CTRL_DOM_SEL ∧
        t.time = { s.time with next := some (max s.anchor (s.firstTideAfter s.tideTime48)) } ∧ t.sys = { s.sys with slots := t.sys.slots } ∧
        Frame [.time, .sys] [0x20000] s t) ∧
      (s.running = true → Completes (.runStop m failover domSel) s fun t =>
        t.running = false ∧ t.flag Reg.TIME_CTRL_FAILOVER = failover ∧ t.time = { s.time with next := none } ∧
        t.sys = { s.sys with slots := t.sys.slots } ∧ Frame [.time, .sys] [0x20000] s t)) ∧
    (∀ (d : Fin 2) (s : State),
      (s.domState d = 2 → s.flag Reg.TIME_CTRL_FAILOVER = false → (s.dom d).lastSync + 4 * State.intervalCycles (s.logSync d) ≤ s.now →
        Completes (.syncLoss d) s fun t =>
          t.domState d = 3 ∧ t.domState (1 - d.val) = s.domState (1 - d.val) ∧ bit (t.word 0x20008).toNat (4 + d.val) = true ∧
          (t.dom d).count = (s.dom d).count ∧ Posts 0x0D d 1 (s.epochOf d) s t ∧
          Frame [.time, .fresh] [0x20004, 0x20008, 0x20110 + 0x80 * d.val] s t) ∧
      (s.domState d ≠ 2 ∨ s.now < (s.dom d).lastSync + 4 * State.intervalCycles (s.logSync d) → exec (.syncLoss d) s = .next s)) ∧
    (∀ (e : Fin 2) (wait : Nat) (s : State),
      wait = s.fld (Reg.PTP_ANN_TO e) * State.intervalCycles (signed 4 (s.fld (Reg.PTP_LOG_ANN e))) →
      (s.flag (Reg.PTP_EN e) = true → (s.dom e).lastAnnounce + wait ≤ s.now →
        (s.fld (Reg.PTP_ROLE e) = 0 → Completes (.announceTimeout e) s fun t =>
          t.fld (Reg.PTP_PORT_STATE e) = 4 ∧ t.dom e = { s.dom e with foreign := [], lastAnnounce := s.now } ∧
          Frame [.time] [0x20208 + 0x80 * e.val] s t) ∧
        (s.fld (Reg.PTP_ROLE e) = 2 → Completes (.announceTimeout e) s fun t =>
          t.fld (Reg.PTP_PORT_STATE e) = 6 ∧ (t.dom e).foreign = [] ∧ t.domState e = 0 ∧ (t.dom e).adj = 0 ∧
          Frame [.time] [0x20208 + 0x80 * e.val, 0x20004, 0x20110 + 0x80 * e.val] s t)) ∧
      (s.flag (Reg.PTP_EN e) = false ∨ s.now < (s.dom e).lastAnnounce + wait → exec (.announceTimeout e) s = .next s)) ∧
    ∀ (tosc ref : Option Nat) (s : State) (n : Nat), n = (if s.clkGood tosc then s.time.toscGood + 1 else 0) →
      (s.fld Reg.TIME_CLK_SRC = 0 ∧ s.clkGood tosc = true ∨ s.fld Reg.TIME_CLK_SRC = 1 ∧ s.clkGood ref = true ∨ 2 ≤ s.fld Reg.TIME_CLK_SRC →
        exec (.clkMonitorWindow tosc ref) s = .next { s with time := { s.time with toscGood := n } }) ∧
      (∀ src, (s.fld Reg.TIME_CLK_SRC = 0 ∧ s.clkGood tosc = false ∧ s.clkGood ref = true ∧ src = 1 ∨
          s.fld Reg.TIME_CLK_SRC = 0 ∧ s.clkGood tosc = false ∧ s.clkGood ref = false ∧ src = 2 ∨
          s.fld Reg.TIME_CLK_SRC = 1 ∧ s.clkGood ref = false ∧ src = 2) →
        Completes (.clkMonitorWindow tosc ref) s fun t =>
          t.fld Reg.TIME_CLK_SRC = src ∧ t.time.toscGood = n ∧ bit (t.word 0x20008).toNat 6 = true ∧
          (∀ d : Fin 2, t.domState d = if s.domState d = 2 then 3 else s.domState d) ∧
          Frame [.time, .fresh] [0x20004, 0x20008, 0x20014, 0x20110, 0x20190] s t)) ∧
  ((∀ (e : Fin 2) (msg : PtpMsg) (s : State), s.replaying = false →
      (s.flag (Reg.PTP_EN e) = false ∨ msg.domain ≠ s.fld (Reg.PTP_DOMAIN e) → exec (.ptpMessageRx e msg) s = .next s) ∧
      (s.flag (Reg.PTP_EN e) = true → msg.domain = s.fld (Reg.PTP_DOMAIN e) →
        (msg.kind = .unsupported → Completes (.ptpMessageRx e msg) s fun t =>
          t.fld (Reg.PTP_IGNORED e) = min (s.fld (Reg.PTP_IGNORED e) + 1) 65535 ∧ Frame [] [0x20214 + 0x80 * e.val] s t) ∧
        (msg.kind = .sync → s.ptpSlave e = true → msg.twoStep = false → Completes (.ptpMessageRx e msg) s fun t =>
          t.fld (Reg.DOM_OFFSET e) =
            (((s.fullNs e : Int) - ((msg.time : Int) + msg.corr) - (s.dom e).meanDelay) % 2 ^ 32).toNat ∧
          (t.dom e).lastT1T2 = some ((msg.time : Int) + msg.corr, (s.fullNs e : Int)) ∧ (t.dom e).meanDelay = (s.dom e).meanDelay) ∧
        (msg.kind = .sync → s.ptpSlave e = true → msg.twoStep = true → Completes (.ptpMessageRx e msg) s fun t =>
          t.dom e = { s.dom e with syncWait := some (msg.seq, s.fullNs e) } ∧ Frame [.time] [] s t) ∧
        (∀ (t1 t2 : Int) (t3 : Nat), msg.kind = .delayResp → (s.dom e).reqWait = some (msg.seq, t3) → (s.dom e).lastT1T2 = some (t1, t2) →
          Completes (.ptpMessageRx e msg) s fun t =>
            t.dom e = { s.dom e with reqWait := none, meanDelay := ((t2 - t1) + ((msg.time : Int) - msg.corr - t3)).fdiv 2 } ∧
            Frame [.time] [] s t) ∧
        (msg.kind = .delayReq → s.ptpMaster e = true → Completes (.ptpMessageRx e msg) s fun t =>
          t.dom e = { s.dom e with lastSent := some (.delayResp, msg.seq, s.fullNs e) } ∧ Frame [.time] [] s t))) ∧
    (∀ (e : Fin 2) (kind : PtpKind) (s : State), s.replaying = false → s.flag (Reg.PTP_EN e) = true →
      Completes (.ptpMessageTx e kind) s fun t =>
        t.dom e = { s.dom e with txSeq := ((s.dom e).txSeq + 1) % 65536, lastSent := some (kind, (s.dom e).txSeq, s.fullNs e), reqWait := (if kind = .delayReq ∨ kind = .pdelayReq then some ((s.dom e).txSeq, s.fullNs e) else (s.dom e).reqWait), peerWait := (if kind = .delayReq ∨ kind = .pdelayReq then none else (s.dom e).peerWait) } ∧
        t.dom (1 - e.val) = s.dom (1 - e.val) ∧ Frame [.time] [] s t) ∧
    (∀ (m : Fin 32) (q : Fin 2) (s : State), s.mayWrite m.val (0x2030C + 0x20 * q.val) .plain = true → Completes (.etsPop m q) s fun t =>
      t.etsQueue q = (s.etsQueue q).tail ∧ t.etsQueue (1 - q.val) = s.etsQueue (1 - q.val) ∧ Frame [.time] [0x2030C + 0x20 * q.val] s t) ∧
    ∀ (m : Fin 32) (i : Fin 16) (s : State),
      (s.mayWrite m.val (0x1FE024 + 0x40 * i.val) .plain = true → Completes (.evtPop m i) s fun t =>
        t.evtPin i = { s.evtPin i with queue := (s.evtPin i).queue.tail } ∧ (∀ j, j ≠ i.val → t.evtPin j = s.evtPin j) ∧
        Frame [.time] [0x1FE024 + 0x40 * i.val] s t) ∧
      (∀ rising : Bool, s.replayMode = false → s.fld (Reg.EVT_MODE i) = 1 →
        (State.edgeSelected (s.fld (Reg.EVT_EDGE i)) rising = true → s.fld (Reg.EVT_FILTER i) = 0 → s.fld (Reg.EVT_DOMAIN i) = 0 →
          ((s.evtPin i).queue.length < 16 → Completes (.evtEdge i rising) s fun t =>
            t.evtPin i = { s.evtPin i with
              id := ((s.evtPin i).id + 1) % 256, queue := (s.evtPin i).queue ++ [State.mkStamp (s.evtPin i).id (s.sel + 1) (b01 rising) (wrap 104 (s.dom s.sel).count / 2 ^ 40 % 2 ^ 48)] } ∧
            (∀ j, j ≠ i.val → t.evtPin j = s.evtPin j) ∧ Frame [.time, .fresh] [] s t) ∧
          (16 ≤ (s.evtPin i).queue.length → Completes (.evtEdge i rising) s fun t =>
            t.fld (Reg.EVT_DROPPED i) = min (s.fld (Reg.EVT_DROPPED i) + 1) 65535 ∧
            t.evtPin i = { s.evtPin i with id := ((s.evtPin i).id + 1) % 256 } ∧ Frame [.time, .fresh] [0x1FE020 + 0x40 * i.val] s t)) ∧
        (State.edgeSelected (s.fld (Reg.EVT_EDGE i)) rising = false → exec (.evtEdge i rising) s = .next s)) ∧
      (∀ (lo : Word) (n : Nat), s.mayWrite m.val (0x1FE004 + 0x40 * i.val) .plain = true → s.fld (Reg.EVT_MODE i) = 2 →
        s.fld (Reg.EVT_DOMAIN i) = 1 → s.held.get (fun _ => none) (0x1FE008 + 0x40 * i.val) = none →
        n = State.nearestFull (s.fullNs 0) (lo.toNat + s.fld (Reg.EVT_GEN_TIME_HI i) % 65536 * 2 ^ 32) →
        (s.fullNs 0 < n → Completes (.evtGenTime m i lo) s fun t =>
          t.evtPin i = { s.evtPin i with armed := true, nextAt := n } ∧ (∀ j, j ≠ i.val → t.evtPin j = s.evtPin j) ∧
          Frame [.time] [0x1FE004 + 0x40 * i.val, 0x1FE008 + 0x40 * i.val] s t) ∧
        (n ≤ s.fullNs 0 → Completes (.evtGenTime m i lo) s fun t =>
          t.evtPin i = { s.evtPin i with armed := false } ∧ t.flag (Reg.EVT_MISSED i) = true ∧
          Frame [.time] [0x1FE004 + 0x40 * i.val, 0x1FE008 + 0x40 * i.val, 0x1FE020 + 0x40 * i.val] s t)) ∧
      (∀ n, s.evtDue i = some n → s.fld (Reg.EVT_PAD_FAULT i) = 0 → s.flag (Reg.EVT_OWN i) = false →
        Completes (.evtOutputEdge i true) s fun t =>
          (t.evtPin i).asserted = true ∧ (t.evtPin i).endAt = n + s.evtWidth i ∧ (t.evtPin i).queue = (s.evtPin i).queue ∧
          (s.fld (Reg.EVT_MODE i) = 2 → (t.evtPin i).armed = false) ∧
          (s.fld (Reg.EVT_MODE i) = 3 → (t.evtPin i).nextAt = n + max 100 (s.fld (Reg.EVT_PERIOD i))) ∧
          (∀ j, j ≠ i.val → t.evtPin j = s.evtPin j) ∧ Frame [.time] [] s t) ∧
      (s.evtDue i = none → exec (.evtOutputEdge i true) s = .next s) ∧
      ((s.evtPin i).asserted = true → (s.evtPin i).endAt ≤ s.evtNow i → s.flag (Reg.EVT_OWN i) = false →
        Completes (.evtOutputEdge i false) s fun t =>
          t.evtPin i = { s.evtPin i with asserted := false } ∧ (∀ j, j ≠ i.val → t.evtPin j = s.evtPin j) ∧ Frame [.time] [] s t))

/-- R136 to R144, R158 to R160: camera lanes. TRAIN puts every enabled lane in SIGNAL and the others OFF; each step moves its lane on to CDR, ALIGN, IDENT, DESKEW and READY, and a lane that fails a step or breaks a rule is in FAULT with its code, LOCK 0 and LANE_FAULT set. When no enabled lane is left short of READY, or SRX_TRAIN_MS has elapsed, the port is READY. RUN starts a READY port only; STOP closes its frame and powers the lanes down. -/
def Obligations.CameraLanesTrainAndFault : Prop :=
  ∀ (p : Fin 4) (i : Fin 64) (L P : Nat) (s : State) (goes : Nat → List Nat → State → Prop) (faults : Nat → List Nat → State → Prop),
    L = 0x81000 + 0x4000 * p.val + 0x40 * i.val → P = 0x80000 + 0x4000 * p.val →
    goes = (fun n as t => t.laneState p i = n ∧ (t.lane p i).enteredAt = s.now ∧
      (∀ j, j ≠ 64 * p.val + i.val → t.lanes.get (fun _ => {}) j = s.lanes.get (fun _ => {}) j) ∧ Frame [.lanes] ((L + 4) :: as) s t) →
    faults = (fun c as t => t.laneState p i = 7 ∧ t.fld (Reg.LANE_STATUS_FAULT p i) = c ∧ t.fld (Reg.LANE_STATUS_LOCK p i) = 0 ∧
      (t.lane p i).faultAt = s.now ∧ (t.lane p i).open_ = decide (c = 1 ∨ c = 2) ∧ t.flag (Reg.SRX_EVENT_LANE_FAULT p) = true ∧
      (s.portState p ≠ 3 → Frame [.lanes] ((L + 4) :: (P + 0x60) :: as) s t)) →
    (s.laneState p i = 1 → Completes (.laneSignal p i) s (goes 2 [])) ∧
    (s.laneState p i ≠ 1 → exec (.laneSignal p i) s = .next s) ∧
    (s.laneState p i = 2 → Completes (.laneCdrLock p i) s (goes 3 [])) ∧
    (s.laneState p i ≠ 2 → exec (.laneCdrLock p i) s = .next s) ∧
    (∀ (vert : BitVec 8) (horz : Fin 65) (ctle : BitVec 4) (dfe : BitVec 25), s.laneState p i = 3 →
      Completes (.laneAlignLock p i vert horz ctle dfe) s fun t =>
        goes 4 [L + 0xC, L + 0x10] t ∧ t.fld (Reg.LANE_STATUS_LOCK p i) = 1 ∧ t.fld (Reg.LANE_FOM_VERT p i) = vert.toNat ∧
        t.fld (Reg.LANE_FOM_HORZ p i) = horz.val ∧ t.fld (Reg.LANE_FOM_FOM p i) = min vert.toNat (4 * horz.val) % 256 ∧
        t.fld (Reg.LANE_EQ_CTLE p i) = if s.fld (Reg.LANE_CFG_ADAPT p i) = 0 then s.fld (Reg.LANE_EQ_CTLE p i) else ctle.toNat) ∧
    (s.flag (Reg.SRX_CTRL_CODE p) = true → s.flag (Reg.LANE_STATUS_LOCK p i) = true → Completes (.laneLockLoss p i) s fun t =>
      t.fld (Reg.LANE_STATUS_LOCK p i) = 0 ∧ t.lane p i = { s.lane p i with lostAt := some s.now } ∧ Frame [.lanes] [L + 4] s t) ∧
    (∀ (id : TrainId) (normal inverted : Option TrainId), s.laneState p i = 4 →
      (s.fld (Reg.LANE_CFG_POL p i) = 0 → normal = some id → id.tag.toNat = s.fld (Reg.SRX_CTRL_TAG p) →
        (∀ j : Fin 64, j ≠ i → ¬((s.lane p j).ident = true ∧ s.sensorOf p j = id.sensor.toNat)) →
        Completes (.laneIdent p i normal inverted) s fun t =>
          goes 5 [] t ∧ t.fld (Reg.LANE_STATUS_INVERTED p i) = 0 ∧ t.sensorOf p i = id.sensor.toNat ∧ (t.lane p i).ident = true) ∧
      (normal = none → inverted = none → Completes (.laneIdent p i normal inverted) s (faults 6 []))) ∧
    (∀ (arrivals : List (Fin 64 × Nat)) (first last : Nat), s.portState p = 1 →
      (∀ j : Fin 64, (s.laneEn p).testBit j.val = true → s.laneState p j = 5 ∨ s.laneState p j = 7) →
      (arrivals.map (·.1)).Nodup → (∀ e ∈ arrivals, s.laneState p e.1 = 5 ∧ (s.laneEn p).testBit e.1.val = true ∧ first ≤ e.2) →
      (∃ e ∈ arrivals, e.2 = first) → (∃ e ∈ arrivals, e.2 = last) → (∀ e ∈ arrivals, e.2 ≤ first + 256 → e.2 ≤ last) → last ≤ first + 256 →
      Completes (.laneDeskew p arrivals) s fun t =>
        (∀ e ∈ arrivals, e.2 ≤ first + 256 → t.laneState p e.1 = 6 ∧ t.fld (Reg.LANE_STATUS_DESKEW_UI p e.1) = last - e.2) ∧
        (∀ e ∈ arrivals, first + 256 < e.2 → t.laneState p e.1 = 7 ∧ t.fld (Reg.LANE_STATUS_FAULT p e.1) = 7) ∧
        ((∀ j : Fin 64, (s.laneEn p).testBit j.val = true → s.laneState p j = 5 → j ∈ arrivals.map (·.1)) →
          t.portState p = 2 ∧ t.flag (Reg.SRX_EVENT_TRAIN_DONE p) = true)) ∧
    (s.portState p = 1 → (s.port p).trainAt + State.msCycles (s.fld (Reg.SRX_TRAIN_MS_MS p)) ≤ s.now → Completes (.srxTrainTimeout p) s fun t =>
      t.portState p = 2 ∧ t.flag (Reg.SRX_EVENT_TRAIN_DONE p) = true ∧
      (1 ≤ s.laneState p i → s.laneState p i ≤ 5 → t.laneState p i = 7 ∧
        t.fld (Reg.LANE_STATUS_FAULT p i) = [0, 3, 4, 5, 6, 7].getD (s.laneState p i) 0) ∧
      (s.laneState p i = 0 ∨ 6 ≤ s.laneState p i → t.laneState p i = s.laneState p i)) ∧
    (s.portState p ≠ 1 ∨ s.now < (s.port p).trainAt + State.msCycles (s.fld (Reg.SRX_TRAIN_MS_MS p)) →
      exec (.srxTrainTimeout p) s = .next s) ∧
    (s.laneState p i = 2 → (s.lane p i).enteredAt + State.msCycles 1 ≤ s.now → Completes (.laneFaultTimeout p i) s (faults 4 [])) ∧
    (∀ n, s.laneState p i ≠ 0 → s.laneState p i ≠ 2 → s.laneState p i ≠ 7 → s.portState p = 3 → (s.lane p i).lostAt = some n →
      n + State.msCycles 1 ≤ s.now → Completes (.laneFaultTimeout p i) s (faults 5 [])) ∧
    (∀ pmv nmv : BitVec 11, 1 ≤ s.laneState p i → s.laneState p i ≤ 6 →
      (pmv.toNat < 100 ∨ nmv.toNat < 100 → Completes (.lanePinFault p i pmv nmv) s (faults 1 [L + 0x24])) ∧
      (100 ≤ pmv.toNat → 100 ≤ nmv.toNat → 1050 < pmv.toNat ∨ 1050 < nmv.toNat →
        Completes (.lanePinFault p i pmv nmv) s (faults 2 [L + 0x24])) ∧
      (100 ≤ pmv.toNat → 100 ≤ nmv.toNat → pmv.toNat ≤ 1050 → nmv.toNat ≤ 1050 → Completes (.lanePinFault p i pmv nmv) s fun t =>
        t.fld (Reg.LANE_PIN_P_MV p i) = pmv.toNat ∧ t.fld (Reg.LANE_PIN_N_MV p i) = nmv.toNat ∧ Frame [] [L + 0x24] s t)) ∧
    (2 ≤ s.laneState p i → s.laneState p i ≤ 6 → Completes (.laneSignalLoss p i) s (faults 3 [])) ∧
    (s.laneState p i < 2 ∨ s.laneState p i = 7 → exec (.laneSignalLoss p i) s = .next s) ∧
    ∀ (m : Fin 32) (rest : BitVec 28), s.mayWrite m.val P .plain = true →
      (s.awake p → Completes (.srxTrain m p rest) s fun t =>
        t.portState p = 1 ∧ t.fld (Reg.SRX_STATUS_DEGRADED p) = 0 ∧ (t.port p).trainAt = s.now ∧ (t.port p).width = none ∧
        (t.port p).frame = (s.port p).frame ∧ t.laneState p i = (if (s.laneEn p).testBit i.val then 1 else 0) ∧
        (t.lane p i).ident = false ∧ (∀ q, q ≠ p.val → t.port q = s.port q) ∧ Only ([.lanes, .ports] ++ sideParts) s t) ∧
      (s.awake p → s.portState p = 2 → Completes (.srxRun m p rest) s fun t =>
        t.portState p = 3 ∧ Frame [] [P, P + 4, P + 0x60] s t) ∧
      (s.awake p → s.portState p ≠ 2 → Completes (.srxRun m p rest) s fun t =>
        t.portState p = s.portState p ∧ t.flag (Reg.SRX_EVENT_WRITE_REJECT p) = true ∧ Frame [] [P, P + 0x60] s t) ∧
      (Completes (.srxStop m p rest) s fun t =>
        t.portState p = 0 ∧ t.laneState p i = (if s.laneState p i = 7 then 7 else 0) ∧ (t.port p).frame = none)

/-- R131, R144 to R157, R163: camera frames. A stratum-0 SOF opens a frame with the next FRAME_NUM, its stamp and the next entry of the frame queue, whose berths the port acquires, or with no berth; any other SOF without a frame is stray. A SEAM's header starts its row, or is counted when it fails; a row whose CRC fails is dropped and counted. An EOF whose count is the frame's rows closes the stratum, and with the last stratum the frame, which goes to the pipeline under AUTO. A frame two tides late closes short. R131, R138, R144, R145: a block that breaks the line code counts one code error on a lane between ALIGN and READY; LANE_SLIP moves the boundary of a sand-code lane by one bit; a new PRBS selection restarts the lane's checker, which takes its lock and polarity once; INJECT makes the looped-back checker count one error, and reads 0. -/
def Obligations.CameraFramesAndLineCode : Prop :=
  (∀ (p : Fin 4) (P : Nat) (s : State), P = 0x80000 + 0x4000 * p.val →
      (∀ (blocks : List LaneBlock) (use : Nat) (b : LaneBlock), s.portState p = 3 → s.replaying = false → (s.port p).frame = none →
        use = s.bankFld p s.sys.epoch (Reg.SRX_LANE_USE_LO p) + s.bankFld p s.sys.epoch (Reg.SRX_LANE_USE_HI p) * 2 ^ 32 →
        (∀ x ∈ blocks, isCtl (s.flag (Reg.SRX_CTRL_CODE p)) 2 x.block.toNat = true) → s.headBlock p use 2 blocks = some b →
        (∀ (q : QEnt) (es : List QEnt), b.block.toNat / 256 % 4 = 0 →
          s.queue (P + 0x30) = q :: es → q.h ≠ 0 → q.h2 = 0 → (s.berth q.h).st = .held → (s.berth q.h).count < 255 →
          Completes (.sof p blocks) s fun t =>
            t.queue (P + 0x30) = es ∧ (t.berth q.h).count = (s.berth q.h).count + 1 ∧
            t.fld (Reg.SRX_FRAME_NUM_FRAME_NUM p) = (s.fld (Reg.SRX_FRAME_NUM_FRAME_NUM p) + 1) % 2 ^ 32 ∧
            (∃ f, (t.port p).frame = some f ∧ f.raw = q.h ∧ f.map = 0 ∧ f.entry = true ∧ f.rawOk = true ∧ f.use = use ∧
              f.width = b.block.toNat / 1024 % 4 ∧ f.man.kind = 1 ∧ f.man.frame = s.fld (Reg.SRX_FRAME_NUM_FRAME_NUM p) ∧
              f.man.tide = s.tide ∧ f.man.setEpoch = s.sys.epoch ∧ f.man.stream = s.bankFld p s.sys.epoch (Reg.SRX_STREAM_STREAM p)) ∧
            Frame [.ports, .fab, .queues, .sys] [P + 0x28] s t) ∧
        (b.block.toNat / 256 % 4 = 0 → s.queue (P + 0x30) = [] → Completes (.sof p blocks) s fun t =>
          t.fld (Reg.SRX_FQ_STATUS_NO_BERTH p) = min (s.fld (Reg.SRX_FQ_STATUS_NO_BERTH p) + 1) 65535 ∧
          t.flag (Reg.SRX_EVENT_NO_BERTH p) = true ∧ (∃ f, (t.port p).frame = some f ∧ f.entry = false) ∧ t.fab.berths = s.fab.berths ∧
          Frame [.ports, .fab, .queues, .sys] [P + 0x28, P + 0x34, P + 0x60] s t) ∧
        (b.block.toNat / 256 % 4 ≠ 0 → Completes (.sof p blocks) s fun t =>
          t.flag (Reg.SRX_EVENT_STRAY p) = true ∧ t.port p = s.port p ∧ Frame [] [P + 0x60] s t)) ∧
      (∀ (blocks : List LaneBlock) (prev : List LaneBytes) (c : Instr),
        c ∈ [Instr.sof p blocks, .seam p blocks prev 0, .eof p blocks prev 0] → s.portState p ≠ 3 ∨ s.replaying = true → exec c s = .next s) ∧
      (∀ (f : PortFrame) (x : Stratum) (k r : Nat) (b : LaneBlock), s.portState p = 3 → s.replaying = false → (s.port p).frame = some f →
        (s.port p).row = none → isCtl (s.flag (Reg.SRX_CTRL_CODE p)) 3 b.block.toNat = true → s.pos0 p f.use [b] = some b.pos →
        s.headBlock p f.use 3 [b] = some b → k = b.block.toNat / 2 ^ 55 % 4 → r = b.block.toNat / 2 ^ 40 % 2 ^ 15 →
        b.block.toNat / 2 ^ 57 % 64 + 1 = (onesBelow 64 f.use).length → State.stratum f k = some x → x.closed = false → x.next = r →
        f.entry = true → r < s.frameRows p f → (s.port p).level + s.frameStride p f ≤ 8388608 →
        Completes (.seam p [b] [] 0) s fun t =>
          (t.port p).row = some (k, r, s.now) ∧ (t.port p).level = (s.port p).level + s.frameStride p f ∧
          (∃ g, (t.port p).frame = some g ∧ State.stratum g k = some { x with next := r + 1 } ∧ g.man = f.man) ∧
          Frame [.ports] [P + 0x7C] s t) ∧
      (∀ (f : PortFrame) (b : LaneBlock), s.portState p = 3 → s.replaying = false → (s.port p).frame = some f → (s.port p).row = none →
        isCtl (s.flag (Reg.SRX_CTRL_CODE p)) 3 b.block.toNat = true → s.pos0 p f.use [b] = some b.pos → s.headBlock p f.use 3 [b] = none →
        Completes (.seam p [b] [] 0) s fun t =>
          t.fld (Reg.SRX_ROW_CNT_HDR p) = min (s.fld (Reg.SRX_ROW_CNT_HDR p) + 1) 65535 ∧ (t.port p).frame = some f ∧
          Frame [.ports] [P + 0x74] s t) ∧
      (∀ (f : PortFrame) (x : Stratum) (k r n : Nat), s.portState p = 3 → s.replaying = false → (s.port p).frame = some f →
        (s.port p).row = some (k, r, n) → f.entry = false → State.stratum f k = some x →
        Completes (.seam p [] [] 0) s fun t =>
          t.fld (Reg.SRX_DROP_CNT_CRC p) = min (s.fld (Reg.SRX_DROP_CNT_CRC p) + 1) 65535 ∧ t.flag (Reg.SRX_EVENT_DROP p) = true ∧
          (t.port p).row = none ∧ (∃ g, (t.port p).frame = some g ∧ bit g.man.flags 3 = true ∧
            State.stratum g k = some { x with run := [] }) ∧ Frame [.ports] [P + 0x60, P + 0x70, P + 0x74] s t) ∧
      (∀ (f : PortFrame) (x : Stratum) (b : LaneBlock), s.portState p = 3 → s.replaying = false → s.noFollower → (s.port p).frame = some f →
        (s.port p).row = none → isCtl (s.flag (Reg.SRX_CTRL_CODE p)) 4 b.block.toNat = true → s.headBlock p f.use 4 [b] = some b →
        b.block.toNat / 2 ^ 56 % 4 = 0 → b.block.toNat / 2 ^ 40 % 65536 = s.frameRows p f → s.frameStrata p f = 1 →
        State.stratum f 0 = some x → x.closed = false → x.run = [] → x.valid = 2 ^ s.frameRows p f - 1 → f.entry = true → f.map = 0 →
        f.rawOk = true → f.mapOk = false → f.short = false → f.long = false → f.raw ≠ 0 → (s.berth f.raw).st = .held → 0 < (s.berth f.raw).count →
        Completes (.eof p [b] [] 0) s fun t =>
          (t.port p).frame = none ∧ (∀ w ∈ t.fab.work, ¬(w.unit = p.val ∧ w.tide = f.man.tide)) ∧
          (t.berth f.raw).count = (s.berth f.raw).count - 1 ∧
          t.queue (0x100008 + 0x10000 * p.val) = (if s.flag (Reg.PIPE_CTRL_AUTO p) = true ∧ (s.queue (0x100008 + 0x10000 * p.val)).length < 4 then
            s.queue (0x100008 + 0x10000 * p.val) ++ [⟨f.raw, 0, false⟩] else s.queue (0x100008 + 0x10000 * p.val)) ∧ t.mem = s.mem) ∧
      (∀ f, (s.port p).frame = some f →
        (f.man.tide + 2 < s.ownTide p → f.entry = false → (s.port p).row = none → Completes (.srxFrameExpire p) s fun t =>
          (t.port p).frame = none ∧ t.fab.berths = s.fab.berths ∧ t.mem = s.mem) ∧
        (s.ownTide p ≤ f.man.tide + 2 → exec (.srxFrameExpire p) s = .next s)) ∧
      (∀ (m : Fin 32) (raw map : BitVec 16), s.mayWrite m.val (P + 0x30) .plain = true →
        ((s.queue (P + 0x30)).length < 16 → Completes (.srxFqPush m p raw map) s fun t =>
          t.queue (P + 0x30) = s.queue (P + 0x30) ++ [⟨raw.toNat, map.toNat, false⟩] ∧ (∀ a, a ≠ P + 0x30 → t.queue a = s.queue a) ∧
          Frame [.queues] [P + 0x30] s t) ∧
        (16 ≤ (s.queue (P + 0x30)).length → Completes (.srxFqPush m p raw map) s fun t =>
          t.queues = s.queues ∧ t.flag (Reg.SRX_FQ_STATUS_PUSH_LOST p) = true ∧ Frame [] [P + 0x30, P + 0x34] s t)) ∧
      ∀ (k : Fin 2) (a b : Int) (rest : List (Int × Int)), (s.syncOut p k).on = false →
        (s.fld (Reg.GPIO_PAD_MODE (s.fld (Reg.SRX_SYNC_PIN p k))) = 3 → (s.syncsOn (s.fld (Reg.SRX_SYNC_PIN p k))).length ≤ 1) →
        (s.syncOut p k).due = (a, b) :: rest → a ≤ s.tideTime48 →
        Completes (.syncOutputEdge p k) s fun t =>
          t.syncOut p k = { on := true, offAt := b, due := rest } ∧ (∀ j, j ≠ k.val → t.syncOut p j = s.syncOut p j) ∧ Frame [.ports] [] s t) ∧
  (∀ (p : Fin 4) (i : Fin 64) (L : Nat) (s : State), L = 0x81000 + 0x4000 * p.val + 0x40 * i.val →
      (∀ (hdr : BitVec 2) (block : BitVec 64), 3 ≤ s.laneState p i → s.laneState p i ≤ 6 →
        Completes (.badBlock p i hdr block true) s fun t =>
          t.fld (Reg.LANE_CODE_ERR p i) = min (s.fld (Reg.LANE_CODE_ERR p i) + 1) (2 ^ 32 - 1) ∧
          t.lane p i = { s.lane p i with codeTide := (s.lane p i).codeTide + 1 } ∧ Frame [.lanes] [L + 0x20] s t) ∧
      (∀ (hdr : BitVec 2) (block : BitVec 64) (viol : Bool), s.laneState p i < 3 ∨ s.laneState p i = 7 ∨ viol = false ∧ hdr = 1 →
        exec (.badBlock p i hdr block viol) s = .next s) ∧
      (∀ inv : Bool, s.prbsRuns p i = true → s.flag (Reg.LANE_STATUS_PRBS_LOCK p i) = false → Completes (.prbsLock p i inv) s fun t =>
        t.flag (Reg.LANE_STATUS_PRBS_LOCK p i) = true ∧ t.flag (Reg.LANE_STATUS_PRBS_INV p i) = inv ∧
        t.lane p i = { s.lane p i with prbsFrom := some s.now } ∧ Frame [.lanes] [L + 4] s t) ∧
      (∀ inv : Bool, s.prbsRuns p i = false ∨ s.flag (Reg.LANE_STATUS_PRBS_LOCK p i) = true → exec (.prbsLock p i inv) s = .next s) ∧
      ∀ (m : Fin 32) (v : Word),
        (s.mayWrite m.val (L + 8) .plain = true →
          (v.getLsbD 0 = true → s.flag (Reg.SRX_CTRL_CODE p) = true → Completes (.laneSlip m p i v) s fun t =>
            t.lane p i = { s.lane p i with boundary := ((s.lane p i).boundary + 1) % 66 } ∧ Frame [.lanes] [L + 8] s t) ∧
          (v.getLsbD 0 = false ∨ s.flag (Reg.SRX_CTRL_CODE p) = false → Completes (.laneSlip m p i v) s (Frame [] [L + 8] s))) ∧
        (s.mayWrite m.val L .plain = true →
          (v.getLsbD 26 = false → Completes (.prbsSelect m p i v) s fun t =>
            t.fld (Reg.LANE_CFG_PRBS p i) = v.toNat / 2 ^ 29 ∧ t.flag (Reg.LANE_STATUS_PRBS_LOCK p i) = false ∧
            t.fld (Reg.LANE_PRBS_ERR p i) = 0 ∧ t.lane p i = { s.lane p i with prbsBits := 0, prbsFrom := none } ∧
            Frame [.lanes] [L, L + 4, L + 0x14, 0x80060 + 0x4000 * p.val] s t) ∧
          (v.getLsbD 26 = true → s.fld (Reg.LANE_CFG_PRBS p i) = v.toNat / 2 ^ 29 → v.getLsbD 27 = true → v.getLsbD 28 = true →
            s.prbsRuns p i = true → s.flag (Reg.LANE_STATUS_PRBS_LOCK p i) = true → Completes (.inject m p i v) s fun t =>
              t.fld (Reg.LANE_PRBS_ERR p i) = min (s.fld (Reg.LANE_PRBS_ERR p i) + 1) (2 ^ 32 - 1) ∧ t.fld (Reg.LANE_CFG_INJECT p i) = 0 ∧
              t.lanes = s.lanes ∧ Frame [] [L, L + 0x14, 0x80060 + 0x4000 * p.val] s t)))

/-- R43, R44, R165, R166, R184 to R188, R214: pipeline commands. RUN starts a stopped pipeline; STOP stops it, empties its input queue and abandons the frame in progress, which counts. A push puts an entry at the end of its queue, or is discarded, counted and flagged on a full one. A frame ends: the pipeline waits again, its work ends, BERTH_REL names the input berth, statistics name the frame, and no byte of DRAM changes outside the frame's output and statistics berths; a frame without outputs only gives back its input. -/
def Obligations.PipelineRunsFrames : Prop :=
  ∀ (i : Fin 4) (P B T : Nat) (s : State), P = 0x100000 + 0x10000 * i.val → B = 0x108000 + 0x10000 * i.val → T = 0x140000 + 0x1000 * i.val →
    (∀ (m : Fin 32) (rest : BitVec 28), s.mayWrite m.val P .plain = true →
      (s.awake (4 + i.val) → Completes (.pipeRun m i rest) s fun t =>
        t.fld (Reg.PIPE_STATUS_STATE i) = (if s.fld (Reg.PIPE_STATUS_STATE i) = 0 then 1 else s.fld (Reg.PIPE_STATUS_STATE i)) ∧
        t.pipe i = s.pipe i ∧ Frame [] [P, P + 4, P + 0x1A0] s t) ∧
      ((s.pipe i).frame = none → Completes (.pipeStop m i rest) s fun t =>
        t.fld (Reg.PIPE_STATUS_STATE i) = 0 ∧ t.pipe i = {} ∧ t.queue (P + 8) = [] ∧ (∀ j, j ≠ i.val → t.pipe j = s.pipe j) ∧
        (∀ a, a ≠ P + 8 → t.queue a = s.queue a) ∧ Frame [.pipes, .queues] [P, P + 4, P + 0x1A0] s t) ∧
      (∀ f, (s.pipe i).frame = some f → s.noFollower → Completes (.pipeStop m i rest) s fun t =>
        t.fld (Reg.PIPE_STATUS_STATE i) = 0 ∧ t.pipe i = {} ∧ t.queue (P + 8) = [] ∧ t.mem = s.mem ∧
        (∀ w ∈ t.fab.work, ¬(w.unit = 4 + i.val ∧ w.tide = f.man.tide)) ∧
        t.fld (Reg.FAB_UNIT_OVR_ABANDON_CNT (4 + i.val)) = min (s.fld (Reg.FAB_UNIT_OVR_ABANDON_CNT (4 + i.val)) + 1) 65535 ∧
        t.flag Reg.FAB_EVENT_ABANDON = true)) ∧
    (∀ (m : Fin 32) (raw map : BitVec 16), s.mayWrite m.val (P + 8) .plain = true →
      ((s.queue (P + 8)).length < 4 → Completes (.pipeInPush m i raw map) s fun t =>
        t.queue (P + 8) = s.queue (P + 8) ++ [⟨raw.toNat, map.toNat, false⟩] ∧ (∀ a, a ≠ P + 8 → t.queue a = s.queue a) ∧
        Frame [.queues] [P + 8] s t) ∧
      (4 ≤ (s.queue (P + 8)).length → Completes (.pipeInPush m i raw map) s fun t =>
        t.queues = s.queues ∧ t.fld (Reg.PIPE_IN_STATUS_LOST i) = min (s.fld (Reg.PIPE_IN_STATUS_LOST i) + 1) 65535 ∧
        bit (t.word (P + 0x1A0)).toNat 3 = true ∧ Frame [] [P + 8, P + 0xC, P + 0x1A0] s t)) ∧
    (∀ (m : Fin 32) (o : Fin 3) (h : BitVec 16) (a : Nat), a = B + 0x160 + 0x80 * o.val → s.mayWrite m.val a .plain = true →
      ((s.queue a).length < 8 → Completes (.pipeOutPush m i o h) s fun t =>
        t.queue a = s.queue a ++ [⟨h.toNat, 0, false⟩] ∧ (∀ b, b ≠ a → t.queue b = s.queue b) ∧ Frame [.queues] [a] s t) ∧
      (8 ≤ (s.queue a).length → Completes (.pipeOutPush m i o h) s fun t =>
        t.queues = s.queues ∧ t.fld (Reg.PIPE_OUT_STATUS_PUSH_LOST i o) = min (s.fld (Reg.PIPE_OUT_STATUS_PUSH_LOST i o) + 1) 255 ∧
        bit (t.word (B + 0x50)).toNat 1 = true ∧ Frame [] [a, a + 4, B + 0x50] s t)) ∧
    (∀ (m : Fin 32) (h : BitVec 16), s.mayWrite m.val (B + 0x44) .plain = true →
      ((s.queue (B + 0x44)).length < 4 → Completes (.pipeRawoutPush m i h) s fun t =>
        t.queue (B + 0x44) = s.queue (B + 0x44) ++ [⟨h.toNat, 0, false⟩] ∧ (∀ b, b ≠ B + 0x44 → t.queue b = s.queue b) ∧
        Frame [.queues] [B + 0x44] s t) ∧
      (4 ≤ (s.queue (B + 0x44)).length → Completes (.pipeRawoutPush m i h) s fun t =>
        t.queues = s.queues ∧ t.fld (Reg.PIPE_RAWOUT_STATUS_PUSH_LOST i) = min (s.fld (Reg.PIPE_RAWOUT_STATUS_PUSH_LOST i) + 1) 255 ∧
        bit (t.word (B + 0x50)).toNat 1 = true ∧ Frame [] [B + 0x44, B + 0x48, B + 0x50] s t)) ∧
    (∀ (m : Fin 32) (h : BitVec 16), s.mayWrite m.val (T + 0x30) .plain = true →
      ((s.queue (T + 0x30)).length < 8 → Completes (.statPush m i h) s fun t =>
        t.queue (T + 0x30) = s.queue (T + 0x30) ++ [⟨h.toNat, 0, false⟩] ∧ (∀ b, b ≠ T + 0x30 → t.queue b = s.queue b) ∧
        Frame [.queues] [T + 0x30] s t) ∧
      (8 ≤ (s.queue (T + 0x30)).length → Completes (.statPush m i h) s fun t =>
        t.queues = s.queues ∧ t.fld (Reg.STAT_STATUS_PUSH_LOST i) = min (s.fld (Reg.STAT_STATUS_PUSH_LOST i) + 1) 255 ∧
        bit (t.word (T + 0x50)).toNat 0 = true ∧ Frame [] [T + 0x30, T + 0x34, T + 0x50] s t)) ∧
    ((s.pipe i).frame = none → exec (.pipeFrameEnd i) s = .next s) ∧
    ∀ f, (s.pipe i).frame = some f → Completes (.pipeFrameEnd i) s fun t =>
      t.fld (Reg.PIPE_STATUS_STATE i) = 1 ∧ (t.pipe i).frame = none ∧ (∀ j, j ≠ i.val → t.pipe j = s.pipe j) ∧
      (∀ w ∈ t.fab.work, ¬(w.unit = 4 + i.val ∧ w.tide = f.man.tide)) ∧
      (∀ x, (∀ h ∈ f.outs.map (fun x => x.2) ++ f.stat.toList,
          x < (s.berth h).base * 4096 ∨ ((s.berth h).base + (s.berth h).pages) * 4096 ≤ x) → t.memByte x = s.memByte x) ∧
      (s.bankFld (12 + i.val) f.epoch (Reg.STAT_CFG_EN i) = 1 →
        t.fld (Reg.STAT_LAST_FRAME_FRAME i) = f.man.frame % 2 ^ 32) ∧
      (s.noFollower → f.outs = [] → f.stat = none → f.got = [f.raw] → f.raw ≠ 0 → (s.berth f.raw).st = .held → 0 < (s.berth f.raw).count →
        (t.berth f.raw).count = (s.berth f.raw).count - 1)

/-- R223 to R232, R235: calibration. A temperature that differs by more than its threshold from the start of the last run makes an item pending and stale, unless AUTO is off, it has no threshold or three runs failed; CAL_CMD RUN makes one item or all pending. A pending item starts in its turn and records its start temperature; a run that succeeds waits for its consumers, one that fails changes nothing, counts and raises FAIL. A TOSC reading gives cal_ppb; an invalid one holds it and makes item 39 stale. A field burn needs the key, consumes a record in any case and shows its result; a full bank answers FULL. -/
def Obligations.CalibrationRuns : Prop :=
  ∀ (s : State),
    (∀ (n : Fin 41) (T : BitVec 16), s.replayMode = false →
      Completes (.calTempSample [(n, T)]) s fun t =>
        t.fld (Reg.CAL_ITEM_T_NOW n) = T.toNat ∧
        (∀ th, s.calThreshold n = some th → s.flag Reg.CAL_CFG_AUTO = true →
          th < (signed 16 T.toNat - signed 16 (s.fld (Reg.CAL_ITEM_T_START n))).natAbs → s.fld (Reg.CAL_ITEM_FAILS n) < 3 →
          t.calPending n = true ∧ t.calStale n = true) ∧
        (s.calThreshold n = none ∨ s.flag Reg.CAL_CFG_AUTO = false ∨ 3 ≤ s.fld (Reg.CAL_ITEM_FAILS n) ∨
          (∃ th, s.calThreshold n = some th ∧ (signed 16 T.toNat - signed 16 (s.fld (Reg.CAL_ITEM_T_START n))).natAbs ≤ th) →
          Frame [] [(Reg.CAL_ITEM_T_NOW n).addr] s t) ∧
        Frame [] [(Reg.CAL_ITEM_T_NOW n).addr, (Reg.CAL_ITEM_STATE n).addr, Reg.CAL_PEND_LO.addr, Reg.CAL_PEND_HI.addr,
          Reg.CAL_STALE_LO.addr, Reg.CAL_STALE_HI.addr] s t) ∧
    (∀ temps : List (Fin 41 × BitVec 16), s.replayMode = false → (temps.map fun e => e.1).Nodup →
      Completes (.calTempSample temps) s fun t => ∀ e ∈ temps, t.fld (Reg.CAL_ITEM_T_NOW e.1) = e.2.toNat) ∧
    (∀ n, n < 41 → s.calThreshold n =
      (if n < 32 then some ((s.fld Reg.CAL_CFG_THRESH_LANE + 1) * 128) else if n < 38 then some ((s.fld Reg.CAL_CFG_THRESH_MEM + 1) * 128)
       else if n = 39 then none else some ((s.fld Reg.CAL_CFG_THRESH_MISC + 1) * 128))) ∧
    (∀ (m : Fin 32) (n : Nat) (item : BitVec 6), s.mayWrite m.val 0x150000 .plain = true → s.replayMode = false → n < 41 →
      item.toNat = n ∨ item = 63 → Completes (.calRun m item) s fun t =>
        t.calPending n = true ∧ t.calStale n = true ∧ t.fld (Reg.CAL_ITEM_STATE n) = (if s.fld (Reg.CAL_ITEM_STATE n) = 2 then 2 else 1) ∧
        (∀ j, j < 41 → j ≠ n → item ≠ 63 → t.calPending j = s.calPending j ∧ t.calStale j = s.calStale j) ∧
        Only sideParts s t) ∧
    (∀ n : Fin 41, s.replayMode = false → s.calPending n = true → s.calRunning n = false → n ≠ 39 →
      (n.val < 32 → 2 ≤ s.portState (n.val / 8)) → s.calTurn n = true → Completes (.calRunStart n) s fun t =>
        t.calRunning n = true ∧ t.calPending n = false ∧ t.calStale n = s.calStale n ∧
        t.fld (Reg.CAL_ITEM_T_START n) = s.fld (Reg.CAL_ITEM_T_NOW n) ∧
        Frame [] [(Reg.CAL_ITEM_T_NOW n).addr, (Reg.CAL_ITEM_STATE n).addr, Reg.CAL_PEND_LO.addr, Reg.CAL_PEND_HI.addr] s t) ∧
    (∀ n : Fin 41, s.replayMode = true ∨ s.calPending n = false ∨ s.calRunning n = true ∨ s.calTurn n = false →
      exec (.calRunStart n) s = .next s) ∧
    (∀ (n : Fin 41) (ok : Bool) (l : List LaneMeas), s.calRunning n = false → exec (.calRunDone n ok l) s = .next s) ∧
    (∀ (n : Fin 41) (ok : Bool), 32 ≤ n.val → s.calRunning n = true →
      (ok = true → Completes (.calRunDone n ok []) s fun t =>
        t.fld (Reg.CAL_ITEM_FAILS n) = 0 ∧ t.fld (Reg.CAL_ITEM_RUNS n) = min (s.fld (Reg.CAL_ITEM_RUNS n) + 1) 65535 ∧
        t.calResult n = some ⟨s.now, [], s.calConsumers n⟩ ∧ t.fld (Reg.CAL_ITEM_STATE n) = (if s.calPending n = true then 1 else 3) ∧
        (∀ j, j ≠ n.val → t.calResult j = s.calResult j) ∧ Frame [.cal] [(Reg.CAL_ITEM_STATE n).addr] s t) ∧
      (ok = false → Completes (.calRunDone n ok []) s fun t =>
        t.fld (Reg.CAL_ITEM_FAILS n) = min 3 (s.fld (Reg.CAL_ITEM_FAILS n) + 1) ∧ t.flag Reg.CAL_EVENT_FAIL = true ∧
        Frame [] [(Reg.CAL_ITEM_STATE n).addr, 0x150008] s t)) ∧
    (∀ (n : Fin 41) (ok : Bool) (l : List LaneMeas), n.val < 32 → s.calRunning n = true →
      l.filter (s.calMeasurable n) = [] ∨ ¬((l.filter (s.calMeasurable n)).all State.inField = true) →
      Completes (.calRunDone n ok l) s fun t =>
        t.fld (Reg.CAL_ITEM_FAILS n) = min 3 (s.fld (Reg.CAL_ITEM_FAILS n) + 1) ∧ t.flag Reg.CAL_EVENT_FAIL = true ∧
        Frame [] [(Reg.CAL_ITEM_STATE n).addr, 0x150008] s t) ∧
    (∀ (T : BitVec 16) (c1 c2 t0 dt x : Int), s.replayMode = false → s.toscTrim = (c1, c2, t0) → dt = signed 16 T.toNat - t0 →
      x * 65536 = c1 * dt * 256 + c2 * dt * dt → -(2 ^ 31) ≤ x → x < 2 ^ 31 →
      Completes (.calPpbUpdate T true) s fun t =>
        t.fld Reg.CAL_PPB_PPB = wrap 32 x ∧ t.fld (Reg.CAL_ITEM_T_NOW 39) = T.toNat ∧ t.calStale 39 = false ∧
        Frame [.fresh] [Reg.CAL_PPB_PPB.addr, (Reg.CAL_ITEM_T_NOW 39).addr, (Reg.CAL_ITEM_STATE 39).addr, Reg.CAL_PEND_LO.addr,
          Reg.CAL_PEND_HI.addr, Reg.CAL_STALE_LO.addr, Reg.CAL_STALE_HI.addr] s t) ∧
    (∀ T : BitVec 16, s.replayMode = false → Completes (.calPpbUpdate T false) s fun t =>
      t.calStale 39 = true ∧ t.fld Reg.CAL_PPB_PPB = s.fld Reg.CAL_PPB_PPB ∧ Frame [] [Reg.CAL_STALE_LO.addr, Reg.CAL_STALE_HI.addr] s t) ∧
    (∀ (m : Fin 32) (key : Word), s.mayWrite m.val 0x15004C .plain = true →
      (key = 0x0F5E0001 → s.flag Reg.CAL_FF_STATUS_BUSY = false → s.fld Reg.CAL_FF_STATUS_NEXT ≠ 32 → Completes (.calFfCmd m key) s fun t =>
        t.cal.burn = some (s.fld Reg.CAL_FF_TARGET_ROW, s.fld Reg.CAL_FF_DATA_VALUE) ∧ t.flag Reg.CAL_FF_STATUS_BUSY = true ∧
        Frame [.cal] [0x150040, 0x15004C] s t) ∧
      (key = 0x0F5E0001 → s.flag Reg.CAL_FF_STATUS_BUSY = false → s.fld Reg.CAL_FF_STATUS_NEXT = 32 → Completes (.calFfCmd m key) s fun t =>
        t.fld Reg.CAL_FF_STATUS_RESULT = 1 ∧ Frame [] [0x150040, 0x15004C] s t) ∧
      (key ≠ 0x0F5E0001 → Completes (.calFfCmd m key) s fun t => Frame [] [0x15004C] s t)) ∧
    (s.cal.burn = none → ∀ ok, exec (.fuseBurnDone ok) s = .next s) ∧
    ∀ (r v : Nat) (ok : Bool), s.cal.burn = some (r, v) → Completes (.fuseBurnDone ok) s fun t =>
      t.cal = { s.cal with burn := none, burnt := s.cal.burnt ++ [if ok = true then some (r, v) else none] } ∧
      t.flag Reg.CAL_FF_STATUS_BUSY = false ∧ t.fld Reg.CAL_FF_STATUS_RESULT = (if ok = true then 0 else 2) ∧
      t.fld Reg.CAL_FF_STATUS_NEXT = (s.fld Reg.CAL_FF_STATUS_NEXT + 1) % 64 ∧ bit (t.word 0x150008).toNat 2 = true ∧
      Frame [.cal] [0x150040, 0x150008] s t

/-- R242 to R245, R250, R259: an idle engine starts the due entry that goes first. It pops the entry and a bitstream entry, takes the picture in hand for the tide two later, shows CODING and the slot, reports MINCAP, and codes an IDR when one is forced. A frame without a bitstream entry, and one older than its tide allows, is not coded: it is counted in SKIPPED with NO_BERTH or LATE_INPUT. A stopped engine starts nothing. An engine suspends its picture for a due one of higher priority (PREEMPT), and resumes the suspended one of highest priority when none is due. R44, R242, R247, R249, R256, R259, R260: the end of an encoder's picture, and the encoder's commands. With the last tile done the picture leaves the engines: the recon berths swap roles, the slot shows IDR, QP and the width, the members' work ends, and no byte of DRAM changes outside the picture's bitstream, ENCSTAT and recon berths; an engine that codes nothing ends nothing. RUN makes a stopped engine wait; STOP abandons every picture the engine has a part in, and their streams go on with an IDR. A push puts an entry at the end of its queue of 8, or is counted in LOST. -/
def Obligations.EncodersScheduleAndEndPictures : Prop :=
  (∀ (e : Fin 4) (A : Nat) (s : State), A = 0x160000 + 0x4000 * e.val →
      (s.encState e = 0 → exec (.encPictureStart e) s = .next s) ∧
      (∀ (i : Fin 4) (q : QEnt) (qs : List QEnt) (b : Berth) (k c rows prio S : Nat),
        s.encState e = 1 → s.encActive e = none → k = s.encOwn e → S = A + 0x100 + 0x100 * i.val →
        (∀ j x, j < 4 → x ∈ s.queue (State.encQ e j 0) → k ≤ (s.berth x.h).man.tide + 2) →
        s.encBest e k (s.encFloor e) = some ⟨prio, b.man.tide, i, none⟩ → s.encDue k (s.queue (State.encQ e i 0)) = some (q, qs) →
        b = s.berth q.h → s.encGang e i = 0 → bits b.format 15 12 = s.fld (Reg.ENC_SLOT_CFG_KIND e i) →
        bits b.format 11 0 = s.fld (Reg.ENC_SLOT_CFG_FMT e i) → encLayoutOk (s.fld (Reg.ENC_SLOT_CFG_FMT e i)) = true →
        b.size = some (s.fld (Reg.ENC_SLOT_SIZE_W_M1 e i) + 1, s.fld (Reg.ENC_SLOT_SIZE_H_M1 e i) + 1) →
        c = s.encCols e i → rows = s.encRows e i →
        (∀ (bq : QEnt) (bqs : List QEnt) (cap : Nat), s.queue (State.encQ e i 1) = bq :: bqs →
          cap = s.encFld e b.man.setEpoch (Reg.ENC_SLOT_CAP_BITS e i) → 4096 + 192 * (c * rows) + 64 ≤ cap →
          4096 + ceilDiv cap 512 * 64 ≤ (s.berth bq.h).pages * 4096 → s.encFld e b.man.setEpoch (Reg.ENC_SLOT_STAT_EN e i) ≠ 1 →
          Completes (.encPictureStart e) s fun t =>
            (∃ p, t.encPics = s.encPics ++ [p] ∧ p.leader = e.val ∧ p.slot = i.val ∧ p.input = q.h ∧ p.bs = bq.h ∧ p.es = none ∧
              p.cap = cap ∧ p.man = b.man ∧ p.epoch = b.man.setEpoch ∧ p.startAt = s.now ∧ p.tiles = [{ engine := e.val, st := .coding }] ∧
              ((s.encStream e i).forced = true → p.idr = true)) ∧
            t.encState e = 2 ∧ t.fld (Reg.ENC_STATUS_ACTIVE e) = i.val ∧ t.queue (State.encQ e i 0) = qs ∧ t.queue (State.encQ e i 1) = bqs ∧
            t.fld (Reg.ENC_SLOT_MINCAP_BITS e i) = (4096 + 192 * (c * rows) + 64) % 2 ^ 32 ∧
            ⟨8 + e.val, b.man.tide, b.man.tide + 2, false, b.man.setEpoch⟩ ∈ t.fab.work ∧
            Frame [.fresh, .fab, .sys, .queues, .encPics, .encStreams] [A + 4, A + 0x10, S + 0x50, S + 0x54, 0x60000, 0x60128, 0x6012C] s t) ∧
        (s.queue (State.encQ e i 0) = [q] → (∀ j, j < 4 → j ≠ i.val → s.queue (State.encQ e j 0) = []) → s.encPics = [] → q.held = false →
          s.queue (State.encQ e i 1) = [] → Completes (.encPictureStart e) s fun t =>
            t.encPics = [] ∧ t.queue (State.encQ e i 0) = [] ∧ t.encState e = 1 ∧
            t.fld (Reg.ENC_SLOT_CNT_SKIPPED e i) = min (s.fld (Reg.ENC_SLOT_CNT_SKIPPED e i) + 1) 65535 ∧
            bit (t.word (A + 0x10)).toNat 3 = true ∧
            Frame [.fresh, .sys, .queues] [A + 4, A + 0x10, S + 0x4C, S + 0x50] s t)) ∧
      (∀ (i : Fin 4) (q : QEnt) (S : Nat), s.encState e = 1 → s.encPics = [] → S = A + 0x100 + 0x100 * i.val →
        s.queue (State.encQ e i 0) = [q] → (∀ j, j < 4 → j ≠ i.val → s.queue (State.encQ e j 0) = []) → q.held = false →
        (s.berth q.h).man.tide + 2 < s.encOwn e → Completes (.encPictureStart e) s fun t =>
          t.encPics = [] ∧ t.queue (State.encQ e i 0) = [] ∧ t.encState e = 1 ∧
          t.fld (Reg.ENC_SLOT_CNT_SKIPPED e i) = min (s.fld (Reg.ENC_SLOT_CNT_SKIPPED e i) + 1) 65535 ∧
          bit (t.word (A + 0x10)).toNat 4 = true ∧ Frame [.queues] [A + 4, A + 0x10, S + 0x4C] s t) ∧
      (∀ p : EncPic, s.encActive e = some p →
        (s.encBest e (s.encOwn e) (s.picPrio p + 1) = none → exec (.encPreempt e) s = .next s) ∧
        (∀ x, s.encBest e (s.encOwn e) (s.picPrio p + 1) = some x → Completes (.encPreempt e) s fun t =>
          (∃ y ∈ t.encPics, y.leader = p.leader ∧ y.slot = p.slot ∧ y.input = p.input ∧
            ∃ u ∈ y.tiles, u.engine = e.val ∧ u.st = .suspended) ∧ bit (t.word (A + 0x10)).toNat 2 = true ∧
          bit (t.fld (Reg.ENC_STATUS_SUSPENDED e)) p.slot = decide (p.slot < 4) ∧
          Only ([.fresh, .fab, .sys, .queues, .encPics, .encStreams] ++ sideParts) s t)) ∧
      (s.encActive e = none → exec (.encPreempt e) s = .next s) ∧
      (s.encState e ≠ 1 ∨ s.encSuspended e = [] → exec (.encResume e) s = .next s) ∧
      (∀ p : EncPic, s.encState e = 1 → s.encActive e = none → p ∈ s.encSuspended e →
        (∀ y ∈ s.encSuspended e, y ≠ p → s.picPrio y < s.picPrio p) →
        (∀ x, s.encBest e (s.encOwn e) (s.picPrio p + 1) = some x → exec (.encResume e) s = .next s) ∧
        (s.encBest e (s.encOwn e) (s.picPrio p + 1) = none → Completes (.encResume e) s fun t =>
          t.encActive e = some (State.setTile p e fun u => { u with st := .coding }) ∧ t.encState e = 2 ∧
          t.fld (Reg.ENC_STATUS_ACTIVE e) = p.slot % 4 ∧ Frame [.encPics] [A + 4] s t))) ∧
  (∀ (e : Fin 4) (A : Nat) (s : State), A = 0x160000 + 0x4000 * e.val →
      (s.encActive e = none → exec (.encPictureEnd e) s = .next s) ∧
      (∀ (p : EncPic) (l i : Nat), s.encActive e = some p → l = p.leader → i = p.slot → l < 4 → i < 4 →
        (∀ x ∈ p.tiles, x.engine = e.val ∨ x.st = .done) →
        Completes (.encPictureEnd e) s fun t =>
          t.encPic l i = none ∧ (∀ y ∈ s.encPics, ¬(y.leader = l ∧ y.slot = i) → y ∈ t.encPics) ∧
          (t.encStream l i).ref = 1 - (s.encStream l i).ref ∧ t.fld (Reg.ENC_SLOT_PIC_IDR l i) = b01 p.idr ∧
          t.fld (Reg.ENC_SLOT_PIC_QP l i) = p.qp % 64 ∧ t.fld (Reg.ENC_SLOT_PIC_B l i) = (t.encStream l i).b % 1024 ∧
          t.fld (Reg.ENC_CYCLES_ECLK l) = (s.now - p.startAt) / 2 % 2 ^ 32 ∧
          (∀ w ∈ t.fab.work, ¬(w.unit = 8 + e.val ∧ w.tide = p.man.tide)) ∧
          ((∀ y ∈ s.encPics, ¬(y.leader = l ∧ y.slot = i) → ∀ u ∈ y.tiles, ¬(u.engine = e.val ∧ u.st = .coding)) →
            s.encState e ≠ 0 → t.encState e = 1) ∧
          (∀ x, (∀ h ∈ [p.bs, p.recWrite] ++ p.es.toList,
            x < (s.berth h).base * 4096 ∨ ((s.berth h).base + (s.berth h).pages) * 4096 ≤ x) → t.memByte x = s.memByte x) ∧
          Only ([.fresh, .mem, .fab, .queues, .leaves, .encPics, .encStreams] ++ sideParts) s t) ∧
      (∀ (m : Fin 32) (rest : BitVec 28), s.mayWrite m.val A .plain = true →
        (s.awake (8 + e.val) → Completes (.encRun m e rest) s fun t =>
          t.encState e = (if s.encState e = 0 then 1 else s.encState e) ∧ Frame [] [A, A + 4] s t) ∧
        (Completes (.encStop m e rest) s fun t =>
          t.encState e = 0 ∧ t.encInvolved e = [] ∧
          (∀ p ∈ s.encInvolved e, t.encPic p.leader p.slot = none ∧ (t.encStream p.leader p.slot).forced = true)) ∧
        (s.encInvolved e = [] → Completes (.encStop m e rest) s fun t => Frame [] [A, A + 4] s t)) ∧
      ∀ (m : Fin 32) (i : Fin 4) (h : BitVec 16) (j Q : Nat) (c : Instr), Q = State.encQ e i j → s.mayWrite m.val Q .plain = true →
        (j = 0 ∧ c = .encSlotInPush m e i h ∨ j = 1 ∧ c = .encSlotBsPush m e i h ∨ j = 2 ∧ c = .encSlotEsPush m e i h) →
        ((s.queue Q).length < 8 → Completes c s fun t =>
          t.queue Q = s.queue Q ++ [⟨h.toNat, 0, false⟩] ∧ (∀ b, b ≠ Q → t.queue b = s.queue b) ∧ Frame [.queues] [Q] s t) ∧
        (8 ≤ (s.queue Q).length → Completes c s fun t =>
          t.queues = s.queues ∧ t.fld (Reg.ENC_SLOT_QUEUE_LOST e i) = min (s.fld (Reg.ENC_SLOT_QUEUE_LOST e i) + 1) 255 ∧
          Frame [] [Q, (Reg.ENC_SLOT_QUEUE_LOST e i).addr] s t))

/-- R254, R255: rate control keeps a tile within its share of the cap. Whatever the content costs, a tile whose share covers its non-VCL bits and its part of Cmin ends with at least the 64 bits that close the slice. -/
def Obligations.EncoderTileStaysWithinShare : Prop :=
  ∀ (c : TileCfg) (f : Nat → Nat), c.nonvcl + 192 * (c.cols.length * c.rows) + 64 ≤ c.share →
    64 ≤ (codeTile c f).left ∧ ((codeTile c f).used : Int) + (codeTile c f).left = c.share

/-- R263, R264, R266, R270, R271: decoding. An access unit starts when the decoder runs, is idle, has input and its pace allows it; the input berth is taken in hand. A finished unit that the decoder supports and has a berth for joins the DPB with its order count; it is tainted by its own damage, by a generated or a tainted reference; concealed CTUs are counted; an IRAP or the armed order count clears the DPB's taint. Parameters outside R262 discard until an IRAP (UNSUPPORTED); with no free pool berth nothing is decoded (NO_DPB). Only the picture's own DPB berth is written. R263, R267, R272: a decoder's queues, output and control. A push puts an entry at the end of its queue, with the length held for an input; a pool berth is acquired when pushed; a full queue counts it in LOST. A finished copy shows its taint and order count, is released with BERTH_REL, and writes only its output berth. RUN makes a stopped decoder wait. STOP empties everything and counts an abandoned picture. FLUSH puts out every picture that waits; when no copy is left FLUSHED is set. -/
def Obligations.DecodersDecodeAndOutput : Prop :=
  (∀ (d : Fin 2) (D : Nat) (s : State), D = 0x180000 + 0x4000 * d.val →
      (s.fld (Reg.DEC_STATUS_STATE d) = 0 ∨ (s.dec d).cur.isSome = true ∨ s.decHasInput d = false ∨
        s.decFld d (Reg.DEC_CFG_PICS d) ≠ 0 ∧ (s.dec d).left = 0 → exec (.decDecodeStart d) s = .next s) ∧
      (s.fld (Reg.DEC_STATUS_STATE d) ≠ 0 → (s.dec d).cur = none → (s.decFld d (Reg.DEC_CFG_PICS d) = 0 ∨ (s.dec d).left ≠ 0) →
        (∀ z, (s.dec d).inp = some z → Completes (.decDecodeStart d) s fun t =>
          t.dec d = { s.dec d with cur := some s.now, left := (s.dec d).left - 1 } ∧ t.fld (Reg.DEC_STATUS_STATE d) = 2 ∧
          (∀ j, j ≠ d.val → t.dec j = s.dec j) ∧ Frame [.decs] [D + 4] s t) ∧
        (∀ q qs, (s.dec d).inp = none → s.queue (D + 0x18) = q :: qs → q.h ≠ 0 → (s.berth q.h).st = .held → (s.berth q.h).count < 255 →
          Completes (.decDecodeStart d) s fun t =>
            t.dec d = { s.dec d with cur := some s.now, left := (s.dec d).left - 1, inp := some (q.h, q.h2, 0) } ∧
            t.queue (D + 0x18) = qs ∧ (t.berth q.h).count = (s.berth q.h).count + 1 ∧ t.fld (Reg.DEC_STATUS_STATE d) = 2 ∧
            Frame [.decs, .queues, .fab] [D + 4] s t)) ∧
      (∀ a : AuFacts, (s.dec d).cur = none ∨ s.flag (Reg.DEC_CFG_INFMT d) = true ∧ s.decBytes d < a.used →
        exec (.decDecodeDone d a) s = .next s) ∧
      (∀ (a : AuFacts) (t0 : Nat), (s.dec d).cur = some t0 → s.flag (Reg.DEC_CFG_INFMT d) = false →
        (auSupported a = false → Completes (.decDecodeDone d a) s fun t =>
          (t.dec d).discard = true ∧ (t.dec d).cur = none ∧ (t.dec d).inp = none ∧ (t.dec d).dpb = (s.dec d).dpb ∧
          bit (t.word (D + 0x30)).toNat 1 = true ∧ t.mem = s.mem ∧ t.fld (Reg.DEC_CYCLES_ECLK d) = (s.now - t0) / 2 % 2 ^ 32) ∧
        (auSupported a = true → (s.dec d).discard = true ∧ a.irap = false ∨ a.rasl = true → Completes (.decDecodeDone d a) s fun t =>
          (t.dec d).cur = none ∧ (t.dec d).dpb = (s.dec d).dpb ∧ (t.dec d).discard = (s.dec d).discard ∧ t.mem = s.mem) ∧
        (auSupported a = true → a.rasl = false → a.irap = true ∨ (s.dec d).discard = false →
          (∀ c ∈ a.rps, ∃ p ∈ (State.dpbBefore a (s.dec d)).dpb, p.poc = c) → State.decFree (State.dpbBefore a (s.dec d)) = [] →
          Completes (.decDecodeDone d a) s fun t =>
            bit (t.word (D + 0x30)).toNat 4 = true ∧ (t.dec d).dpb = (State.dpbBefore a (s.dec d)).dpb ∧ (t.dec d).cur = none ∧ t.mem = s.mem) ∧
        (∀ (x : Dec) (h : Nat) (hs : List Nat) (clears cause : Bool) (refs : List DpbPic),
          auSupported a = true → a.rasl = false → a.irap = true ∨ (s.dec d).discard = false → x = State.dpbBefore a (s.dec d) →
          (∀ c ∈ a.rps, ∃ p ∈ x.dpb, p.poc = c) → State.decFree x = h :: hs → a.latency = none → x.dpb.length + 1 ≤ a.reorder →
          refs = x.dpb.filter (fun p => decide (p.poc ∈ a.refs)) →
          clears = (a.irap && a.noRasl || (match x.armed with | some p => decide (p ≤ a.poc) | none => false)) →
          cause = (a.syntaxErr || !a.missCtus.isEmpty || refs.any fun p => p.gen) →
          Completes (.decDecodeDone d a) s fun t =>
            (∃ l p, (t.dec d).dpb = l ++ [p] ∧ l.map (fun y => (y.h, y.poc)) = x.dpb.map (fun y => (y.h, y.poc)) ∧
              (clears = true → ∀ y ∈ l, y.taint = false) ∧ p.h = h ∧ p.poc = a.poc ∧ p.gen = false ∧ p.w = a.width ∧ p.hgt = a.height ∧
              p.taint = (cause || (!clears && refs.any fun y => y.taint))) ∧
            (t.dec d).cur = none ∧ (t.dec d).inp = none ∧ (t.dec d).discard = false ∧
            t.fld (Reg.DEC_CNT_CONCEALED d) = min (s.fld (Reg.DEC_CNT_CONCEALED d) + (a.errCtus ++ a.missCtus).length) (2 ^ 32 - 1) ∧
            (clears = true → bit (t.word (D + 0x30)).toNat 7 = true) ∧ (a.syntaxErr = true → bit (t.word (D + 0x30)).toNat 2 = true) ∧
            t.fld (Reg.DEC_SEQ2_LEVEL d) = a.level.toNat ∧ t.fld (Reg.DEC_SEQ2_CHROMA d) = a.chroma.val ∧
            (∀ b, b < (s.berth h).base * 4096 ∨ ((s.berth h).base + (s.berth h).pages) * 4096 ≤ b → t.memByte b = s.memByte b) ∧
            Only ([.fresh, .mem, .fab, .queues, .decs] ++ sideParts) s t))) ∧
  (∀ (d : Fin 2) (D : Nat) (s : State), D = 0x180000 + 0x4000 * d.val →
      (∀ (m : Fin 32) (h : BitVec 16),
        (s.mayWrite m.val (D + 0x18) .plain = true →
          ((s.queue (D + 0x18)).length < 8 → Completes (.decInPush m d h) s fun t =>
            t.queue (D + 0x18) = s.queue (D + 0x18) ++ [⟨h.toNat, s.fld (Reg.DEC_IN_LEN_BYTES d), false⟩] ∧
            (∀ b, b ≠ D + 0x18 → t.queue b = s.queue b) ∧ Frame [.queues] [D + 0x18] s t) ∧
          (8 ≤ (s.queue (D + 0x18)).length → Completes (.decInPush m d h) s fun t =>
            t.fld (Reg.DEC_QUEUE_LOST d) = min (s.fld (Reg.DEC_QUEUE_LOST d) + 1) 255 ∧ Frame [] [D + 0x18, D + 0x24] s t)) ∧
        (s.mayWrite m.val (D + 0x1C) .plain = true →
          ((s.queue (D + 0x1C)).length < 16 → Completes (.decOutPush m d h) s fun t =>
            t.queue (D + 0x1C) = s.queue (D + 0x1C) ++ [⟨h.toNat, 0, false⟩] ∧
            (∀ b, b ≠ D + 0x1C → t.queue b = s.queue b) ∧ Frame [.queues] [D + 0x1C] s t) ∧
          (16 ≤ (s.queue (D + 0x1C)).length → Completes (.decOutPush m d h) s fun t =>
            t.fld (Reg.DEC_QUEUE_LOST d) = min (s.fld (Reg.DEC_QUEUE_LOST d) + 1) 255 ∧ Frame [] [D + 0x1C, D + 0x24] s t)) ∧
        (s.mayWrite m.val (D + 0x20) .plain = true →
          ((s.dec d).pool.length < 17 → h ≠ 0 → (s.berth h.toNat).st = .held → (s.berth h.toNat).count < 255 →
            Completes (.decDpbPush m d h) s fun t =>
              t.dec d = { s.dec d with pool := (s.dec d).pool ++ [h.toNat] } ∧
              (t.berth h.toNat).count = (s.berth h.toNat).count + 1 ∧ Frame [.fab, .decs] [D + 0x20] s t) ∧
          (17 ≤ (s.dec d).pool.length → Completes (.decDpbPush m d h) s fun t =>
            t.fld (Reg.DEC_QUEUE_LOST d) = min (s.fld (Reg.DEC_QUEUE_LOST d) + 1) 255 ∧ Frame [] [D + 0x20, D + 0x24] s t))) ∧
      (∀ (m : Fin 32) (rest : BitVec 28), s.mayWrite m.val D .plain = true →
        (s.awake (12 + d.val) → Completes (.decRun m d rest) s fun t =>
          t.fld (Reg.DEC_STATUS_STATE d) = (if s.fld (Reg.DEC_STATUS_STATE d) = 0 then 1 else s.fld (Reg.DEC_STATUS_STATE d)) ∧
          Frame [] [D, D + 4] s t) ∧
        (Completes (.decStop m d rest) s fun t =>
          t.fld (Reg.DEC_STATUS_STATE d) = 0 ∧ t.dec d = {} ∧ t.queue (D + 0x18) = [] ∧ t.queue (D + 0x1C) = [] ∧
          (∀ w ∈ t.fab.work, w.unit ≠ 12 + d.val) ∧ t.mem = s.mem ∧
          ((s.dec d).cur.isSome = true → t.fld (Reg.FAB_UNIT_OVR_ABANDON_CNT (12 + d.val)) =
            min (s.fld (Reg.FAB_UNIT_OVR_ABANDON_CNT (12 + d.val)) + 1) 65535)) ∧
        (Completes (.decFlush m d rest) s fun t =>
          (t.dec d).flushing = true ∧ (∀ p ∈ (t.dec d).dpb, p.out = false) ∧ (t.dec d).pool = (s.dec d).pool ∧
          (t.dec d).cur = (s.dec d).cur ∧ t.mem = s.mem)) ∧
      ((s.dec d).flushing = true → (s.dec d).copy = none → (s.dec d).copies = [] → Completes (.decFlushDone d) s fun t =>
        t.dec d = { s.dec d with flushing := false } ∧ bit (t.word (D + 0x30)).toNat 8 = true ∧ Frame [.decs] [D + 0x30] s t) ∧
      ((s.dec d).flushing = false ∨ (s.dec d).copy ≠ none ∨ (s.dec d).copies ≠ [] → exec (.decFlushDone d) s = .next s) ∧
      ((s.dec d).copy = none → exec (.decCopyDone d) s = .next s) ∧
      ∀ (p : DpbPic) (h : Nat) (man : Manifest), (s.dec d).copy = some (p, h, man) → (s.dec d).copies = [] →
        Completes (.decCopyDone d) s fun t =>
          t.dec d = { s.dec d with copy := none } ∧ t.fld (Reg.DEC_PIC_TAINT d) = b01 p.taint ∧ t.fld (Reg.DEC_PIC_POC_LSB d) = wrap 16 p.poc ∧
          (s.fld (Reg.DEC_STATUS_STATE d) ≠ 0 → t.fld (Reg.DEC_STATUS_STATE d) = if (s.dec d).cur.isSome = true then 2 else 1) ∧
          (∀ b, b < (s.berth h).base * 4096 ∨ ((s.berth h).base + (s.berth h).pages) * 4096 ≤ b → t.memByte b = s.memByte b) ∧
          ((s.dec d).cur = none → (s.dec d).left = 0 → ∀ w ∈ t.fab.work, w.unit ≠ 12 + d.val) ∧
          Only ([.mem, .fab, .queues, .leaves, .decs] ++ sideParts) s t)

/-- R274, R275, R279, R288, R289, R291: lossless jobs. A push takes a reference to its descriptor berth and queues the job, or is counted in LOST with PUSH_LOST when the queue is full. RUN starts the engine; STOP gives running jobs the result STOPPED. A job starts when its queue has an entry and no job: it reads its descriptor, is refused with BAD_DESC, or acquires its source and destination, and a compress job with HDR writes the container header. A job with a result ends: it gives its berths back, its completion entry joins the queue of 16 or is counted as dropped, and UNIT_EVENT names queue and result. A pop removes the oldest entry. R279, R281, R283, R284, R288, R289: lossless blocks. A compress block is written behind what the job produced, numbered from FIRST_BLOCK, LAST on the final one, and the job advances; one that does not fit ends the job OUT_FULL with nothing written. A valid stored block of a decompress job is written at its index's place, padded with zeros; with CONT = 0 a CRC mismatch ends the job with nothing written. No other byte of DRAM changes. A job without a block to do does nothing. -/
def Obligations.LosslessJobsAndBlocks : Prop :=
  (∀ (s : State),
      (∀ (m : Fin 32) (rest : BitVec 28), s.mayWrite m.val 0x190000 .plain = true →
        (s.awake 14 → Completes (.lzeRun m rest) s fun t =>
          t.fld Reg.LZE_STATUS_STATE = (if s.fld Reg.LZE_STATUS_STATE ≠ 0 then s.fld Reg.LZE_STATUS_STATE
            else if (s.lzeJob 0).isSome || (s.lzeJob 1).isSome then 2 else 1) ∧ Frame [] [0x190000, 0x190004] s t) ∧
        (Completes (.lzeStop m rest) s fun t =>
          t.fld Reg.LZE_STATUS_STATE = 0 ∧ (∀ q, t.lzeJob q = if q < 2 then (s.lzeJob q).map fun j => { j with result := some (j.result.getD 3) }
            else s.lzeJob q) ∧ Frame [.lze] [0x190000, 0x190004] s t)) ∧
      (∀ (m : Fin 32) (q : Fin 2) (h i : BitVec 16) (Q : Nat) (L : Fld), Q = 0x190010 + 4 * q.val → s.mayWrite m.val Q .plain = true →
        L = (if q = 0 then Reg.LZE_QUEUE_LOST_0 else Reg.LZE_QUEUE_LOST_1) →
        ((s.queue Q).length < 16 → h ≠ 0 → (s.berth h.toNat).st = .held → (s.berth h.toNat).count < 255 →
          Completes (.lzePush m q h i) s fun t =>
            t.queue Q = s.queue Q ++ [⟨h.toNat, i.toNat, true⟩] ∧ (t.berth h.toNat).count = (s.berth h.toNat).count + 1 ∧
            (∀ b, b ≠ Q → t.queue b = s.queue b) ∧ Frame [.queues, .fab] [Q] s t) ∧
        (16 ≤ (s.queue Q).length → Completes (.lzePush m q h i) s fun t =>
          t.queues = s.queues ∧ t.fld L = min (s.fld L + 1) 65535 ∧ bit (t.word 0x190020).toNat 0 = true ∧
          Frame [] [Q, 0x190018, 0x190020] s t)) ∧
      (∀ (m : Fin 32) (q : Fin 2) (v : Word), s.mayWrite m.val (0x190120 + 0x40 * q.val) .plain = true →
        Completes (.lzeDonePop m q v) s fun t =>
          t.lzeDoneQ q = (if v.getLsbD 0 = true then (s.lzeDoneQ q).tail else s.lzeDoneQ q) ∧ (∀ j, j ≠ q.val → t.lzeDoneQ j = s.lzeDoneQ j) ∧
          Frame [.lze] [0x190120 + 0x40 * q.val] s t) ∧
      (∀ q : Fin 2, s.fld Reg.LZE_STATUS_STATE = 0 ∨ (s.lzeJob q).isSome = true ∨ s.queue (0x190010 + 4 * q.val) = [] →
        exec (.lzeJobStart q) s = .next s) ∧
      (∀ (q : Fin 2) (e : QEnt) (es : List QEnt) (j : LzeJob), s.fld Reg.LZE_STATUS_STATE ≠ 0 → s.lzeJob q = none →
        s.queue (0x190010 + 4 * q.val) = e :: es → e.h ≠ 0 → s.accessCause 14 e.h (64 * e.h2) 64 = 0 →
        j = { desc := s.memRead ((s.berth e.h).base * 4096 + 64 * e.h2) 64, descH := e.h, got := [e.h] } →
        (badDesc j = true → Completes (.lzeJobStart q) s fun t =>
          t.lzeJob q = some { j with result := some 4 } ∧ t.queue (0x190010 + 4 * q.val) = es ∧ t.fld Reg.LZE_STATUS_STATE = 2 ∧
          Frame [.queues, .lze] [0x190004] s t) ∧
        (badDesc j = false → j.src ≠ 0 → j.dst ≠ 0 → j.src ≠ j.dst → (s.berth j.src).st = .held → (s.berth j.dst).st = .held →
          (s.berth j.src).count < 255 → (s.berth j.dst).count < 255 →
          ((j.compress && j.hdr) = false → Completes (.lzeJobStart q) s fun t =>
            t.lzeJob q = some { j with got := [e.h, j.src, j.dst] } ∧ t.queue (0x190010 + 4 * q.val) = es ∧
            t.fld Reg.LZE_STATUS_STATE = 2 ∧ (t.berth j.src).count = (s.berth j.src).count + 1 ∧
            (t.berth j.dst).count = (s.berth j.dst).count + 1 ∧ Frame [.fab, .queues, .lze] [0x190004] s t) ∧
          (j.compress = true → j.hdr = true → 64 ≤ j.dstLen → j.dstOff + 64 ≤ (s.berth j.dst).pages * 4096 → s.noFollower →
            Completes (.lzeJobStart q) s fun t =>
              t.lzeJob q = some { j with got := [e.h, j.src, j.dst], produced := 64, seq := 1 } ∧
              t.memRead ((s.berth j.dst).base * 4096 + j.dstOff) 64 = containerHeader j ∧
              (∀ x, x < (s.berth j.dst).base * 4096 + j.dstOff ∨ (s.berth j.dst).base * 4096 + j.dstOff + 64 ≤ x → t.memByte x = s.memByte x) ∧
              Frame [.mem, .fab, .queues, .leaves, .lze] [0x190004] s t))) ∧
      (∀ (q : Fin 2), s.lzeJob q = none ∨ (∃ j, s.lzeJob q = some j ∧ j.result = none) → s.lze.logDone = [] →
        Completes (.lzeJobEnd q) s fun t => t = s) ∧
      ∀ (q : Fin 2) (j : LzeJob) (r : Nat) (d : LzeDone), s.lzeJob q = some j → j.result = some r → j.descH ≠ 0 → s.lze.logDone = [] →
        d = { tag := j.at_ 6 2, firstErr := (j.firstErr.map fun x => x.1).getD 0, result := r, nextBlock := j.nextBlock, consumed := j.consumed,
              produced := j.produced, errs := j.errs, firstErrBlock := (j.firstErr.map fun x => x.2).getD 0 } →
        Completes (.lzeJobEnd q) s fun t =>
          t.lzeJob q = none ∧ t.mem = s.mem ∧ (∀ i, i ≠ q.val → t.lzeJob i = s.lzeJob i) ∧
          t.lzeDoneQ q = (if (s.lzeDoneQ q).length < 16 then s.lzeDoneQ q ++ [d] else s.lzeDoneQ q) ∧
          (16 ≤ (s.lzeDoneQ q).length → t.fld (Reg.LZE_DONE_STAT_DROPPED q) = min (s.fld (Reg.LZE_DONE_STAT_DROPPED q) + 1) 65535 ∧
            bit (t.word 0x190020).toNat 2 = true) ∧
          Posts 5 14 (0x8000 + q.val * 0x4000 + r) (d.tag + (d.nextBlock % 2 ^ 32) <<< 32) s t) ∧
  (∀ (q : Fin 2) (s : State),
      (s.lzeJob q = none ∨ (∃ j, s.lzeJob q = some j ∧ j.result.isSome = true) → Completes (.lzeBlockDone q) s fun t => t = s) ∧
      (∀ (j : LzeJob) (n : Nat) (raw bs : List Byte) (stored ends : Bool), s.lzeJob q = some j → j.result = none → j.compress = true →
        n = min (2 ^ j.logBlock) (j.srcLen - j.consumed) → s.accessCause 14 j.src (j.srcOff + j.consumed) n = 0 →
        raw = s.memRead ((s.berth j.src).base * 4096 + j.srcOff + j.consumed) n → ends = decide (j.srcLen ≤ j.consumed + n) →
        compressedBlock j (j.first + j.done) (ends && j.final) raw = (bs, stored) →
        (j.produced + bs.length ≤ j.dstLen → s.accessCause 14 j.dst (j.dstOff + j.produced) bs.length = 0 → s.noFollower →
          Completes (.lzeBlockDone q) s fun t =>
            t.lzeJob q = some { j with
              done := j.done + 1, last := j.first + j.done + 1
              consumed := j.consumed + n, produced := j.produced + bs.length, seq := j.seq + 1, result := (if ends = true then some 0 else none) } ∧
            t.memRead ((s.berth j.dst).base * 4096 + (j.dstOff + j.produced)) bs.length = bs ∧
            (∀ x, x < (s.berth j.dst).base * 4096 + (j.dstOff + j.produced) ∨
              (s.berth j.dst).base * 4096 + (j.dstOff + j.produced) + bs.length ≤ x → t.memByte x = s.memByte x) ∧
            t.fld Reg.LZE_CNT_BLOCKS_BLOCKS = min (s.fld Reg.LZE_CNT_BLOCKS_BLOCKS + 1) (2 ^ 32 - 1) ∧
            (stored = true → t.fld Reg.LZE_CNT_STORED_STORED = min (s.fld Reg.LZE_CNT_STORED_STORED + 1) (2 ^ 32 - 1)) ∧
            Frame [.mem, .fab, .leaves, .lze] [0x190030, 0x190034] s t) ∧
        (j.dstLen < j.produced + bs.length → Completes (.lzeBlockDone q) s fun t =>
          t.lzeJob q = some { j with result := some 1 } ∧ Frame [.lze] [] s t)) ∧
      ∀ (j : LzeJob) (h : List Byte) (b raw at_ size : Nat) (payload : List Byte), s.lzeJob q = some j → j.result = none → j.compress = false →
        h = s.memRead ((s.berth j.src).base * 4096 + (j.srcOff + j.consumed)) 32 →
        b = hdrAt h 4 4 → raw = hdrAt h 8 4 → size = ceilDiv (32 + raw) 64 * 64 → at_ = (b - j.first) * 2 ^ hdrAt h 18 1 →
        payload = s.memRead ((s.berth j.src).base * 4096 + (j.srcOff + j.consumed) + 32) raw →
        j.consumed + size ≤ j.srcLen → 64 ≤ size → s.accessCause 14 j.src (j.srcOff + j.consumed) size = 0 →
        isContainer (s.memRead ((s.berth j.src).base * 4096 + (j.srcOff + j.consumed)) 64) = false → isBlock h = true →
        j.first ≤ b → (j.last = 0 ∨ j.last = b) → 0 < raw → raw ≤ 2 ^ hdrAt h 18 1 → hdrAt h 12 4 = raw → hdrAt h 16 1 % 2 = 1 →
        at_ + ceilDiv raw 64 * 64 ≤ j.dstLen → s.accessCause 14 j.dst (j.dstOff + at_) (ceilDiv raw 64 * 64) = 0 →
        (crc32 payload = hdrAt h 24 4 → s.noFollower → Completes (.lzeBlockDone q) s fun t =>
          t.memRead ((s.berth j.dst).base * 4096 + (j.dstOff + at_)) (ceilDiv raw 64 * 64) = padTo (ceilDiv raw 64 * 64) payload ∧
          (∀ x, x < (s.berth j.dst).base * 4096 + (j.dstOff + at_) ∨
            (s.berth j.dst).base * 4096 + (j.dstOff + at_) + ceilDiv raw 64 * 64 ≤ x → t.memByte x = s.memByte x) ∧
          (∃ k, t.lzeJob q = some k ∧ k.last = max j.last (b + 1) ∧ k.consumed = j.consumed + size ∧ k.produced = j.produced + raw ∧
            k.errs = j.errs ∧ k.result = if j.srcLen ≤ j.consumed + size then some (if j.errs = 0 then 0 else 11) else none) ∧
          t.fld Reg.LZE_CNT_BLOCKS_BLOCKS = min (s.fld Reg.LZE_CNT_BLOCKS_BLOCKS + 1) (2 ^ 32 - 1) ∧
          Frame [.fresh, .mem, .fab, .leaves, .lze] [0x190030] s t) ∧
        (crc32 payload ≠ hdrAt h 24 4 → j.cont = false → Completes (.lzeBlockDone q) s fun t =>
          (∃ k, t.lzeJob q = some k ∧ k.result = some 10 ∧ k.errs = j.errs + 1 ∧ k.consumed = j.consumed ∧ k.produced = j.produced) ∧
          bit (t.word 0x190020).toNat 1 = true ∧ t.mem = s.mem ∧ Frame [.lze] [0x190020] s t))

/-- R281, R282: the container loses nothing. The inverse transform gives back every row of whole units, for both modes and every period; a block occupies at most the bytes R281 allows for a stored one; and a stored block of this engine decodes to its raw bytes. -/
def Obligations.LosslessFormatIsLossless : Prop :=
  (∀ (mode p : Nat) (row : List Byte), (mode = 1 ∨ mode = 2) → 1 ≤ p → p ≤ 8 → row.length % unitSize mode = 0 →
    inverseRow mode p (transformRow mode p row) = row) ∧
  (∀ (j : LzeJob) (index : Nat) (last : Bool) (raw : List Byte),
    (compressedBlock j index last raw).1.length ≤ ceilDiv (32 + raw.length) 64 * 64) ∧
  ∀ (j : LzeJob) (index : Nat) (last : Bool) (raw : List Byte), raw.length < 2 ^ 32 → (compressedBlock j index last raw).2 = true →
    decodePayload ((compressedBlock j index last raw).1.take 32) (((compressedBlock j index last raw).1.take (32 + raw.length)).drop 32) = (0, raw)

/-- R294 to R297, R300 to R305, R308: memory. A request below 0x30_0000_0000 enters its pool while every controller is open and the pool has room, a read of a queued write's address takes its data there and is done, and a request that cannot enter waits; at or above that address there is no cell. Waiting urgency rises by age and never falls. A window's end clears a quay's bytes. Training, retraining, refresh, page timeout and idle windows change the controller's state, its rows and its counters as the rules say. MEM_XLATE shows where an address lies. -/
def Obligations.MemoryControllersServe : Prop :=
  ∀ (s : State),
    (∀ (q : Fin 48) (a : Nat) (half w : Bool) (e : Fin 3), 0x3000000000 ≤ a → exec (.memRequest q a half w e) s = .fault (.noSuchAddress a)) ∧
    (∀ (q : Fin 48) (a : Nat) (half w : Bool) (e : Fin 3) (k : Nat) (r : MemReq), a < 0x3000000000 → s.memsys.waiting = [] → k = pcOf a →
      r = ⟨s.memsys.seq, q, a, if half = true then 32 else 64, w, e, s.now, urgencyAt (s.fld (Reg.MEM_QUAY_BASE q))
        (s.fld (Reg.MEM_QUAY_TARGET_NS q)) (s.fld Reg.MEM_BE_AGE_NS) 0, s.fld (Reg.MEM_QUAY_TARGET_NS q), s.flag (Reg.MEM_QUAY_HOLD q), false, 0⟩ →
      (s.quaysOpen = false ∨ s.memState (k / 32) ≠ 2 → Completes (.memRequest q a half w e) s fun t =>
        t.memsys = { s.memsys with seq := s.memsys.seq + 1, waiting := [r] } ∧ Only [.memsys] s t) ∧
      (s.quaysOpen = true → s.memState (k / 32) = 2 → w = true → (s.memPc k).writes.length < 48 →
        Completes (.memRequest q a half w e) s fun t =>
          t.memPc k = { s.memPc k with writes := (s.memPc k).writes ++ [{ r with low := decide (r.urg < 2) }] } ∧
          (∀ j, j ≠ k → t.memPc j = s.memPc j) ∧ t.memsys.waiting = [] ∧ t.memsys.seq = s.memsys.seq + 1 ∧ Only [.memsys] s t) ∧
      (s.quaysOpen = true → s.memState (k / 32) = 2 → w = false → (∀ x ∈ (s.memPc k).writes, x.addr / 64 ≠ a / 64) →
        (s.memPc k).reads.length < 80 → Completes (.memRequest q a half w e) s fun t =>
          t.memPc k = { s.memPc k with reads := (s.memPc k).reads ++ [{ r with low := decide (r.urg < 2) }] } ∧
          (∀ j, j ≠ k → t.memPc j = s.memPc j) ∧ t.memsys.waiting = [] ∧ Only [.memsys] s t) ∧
      (s.quaysOpen = true → s.memState (k / 32) = 2 → w = false → (∃ x ∈ (s.memPc k).writes, x.addr / 64 = a / 64) →
        Completes (.memRequest q a half w e) s fun t => (∀ j, t.memPc j = s.memPc j) ∧ t.memsys.waiting = [] ∧ Only [.memsys] s t)) ∧
    (Completes .urgencyEscalate s fun t =>
      t.memsys.waiting = s.memsys.waiting.map s.escalate ∧ (∀ k, (t.memPc k).reads = (s.memPc k).reads.map s.escalate) ∧ Only [.memsys] s t ∧
      ∀ r : MemReq, r.urg ≤ (s.escalate r).urg ∧
        (0 < r.target → r.target * 7 ≤ (s.now - r.arrived) / 2 * 8 → r.urg ≤ 3 → (s.escalate r).urg = 3) ∧
        (0 < r.target → (s.now - r.arrived) / 2 * 2 < r.target → (s.escalate r).urg = r.urg)) ∧
    (∀ q : Fin 48, Completes (.reserveWindow q) s fun t =>
      t.memsys.used.get (fun _ => 0) q = 0 ∧ (∀ j, j ≠ q.val → t.memsys.used.get (fun _ => 0) j = s.memsys.used.get (fun _ => 0) j) ∧
      t.memsys.pcs = s.memsys.pcs ∧ Only [.memsys] s t) ∧
    (∀ (c : Fin 6) (pc : Fin 32) (b : Fin 64) (k : Nat) (y : MemBank), k = 32 * c.val + pc.val → y = State.memBank (s.memPc k) b →
      (y.row.isSome = true → s.fld (Reg.MEM_PAGE_IDLE c) ≤ s.now - y.used → Completes (.memPageIdle c pc b) s fun t =>
        State.memBank (t.memPc k) b = { y with row := none } ∧ (∀ j, j ≠ b.val → State.memBank (t.memPc k) j = State.memBank (s.memPc k) j) ∧
        (∀ j, j ≠ k → t.memPc j = s.memPc j) ∧ Only [.memsys] s t) ∧
      (y.row = none ∨ s.now - y.used < s.fld (Reg.MEM_PAGE_IDLE c) → exec (.memPageIdle c pc b) s = .next s) ∧
      (∀ limit : Bool, limit = true ∨ (∀ r ∈ (s.memPc k).reads ++ (s.memPc k).writes, ¬(bankOf r.addr = b.val ∧ r.urg = 3)) →
        Completes (.memRefresh c pc b limit) s fun t =>
          State.memBank (t.memPc k) b = { y with row := none } ∧ (∀ j, j ≠ b.val → State.memBank (t.memPc k) j = State.memBank (s.memPc k) j) ∧
          (∀ j, j ≠ k → t.memPc j = s.memPc j) ∧ Only [.memsys] s t) ∧
      ((∃ r ∈ (s.memPc k).reads ++ (s.memPc k).writes, bankOf r.addr = b.val ∧ r.urg = 3) → Completes (.memRefresh c pc b false) s fun t =>
        t.fld (Reg.MEM_CNT_REFPOST_POSTPONED c) = min (s.fld (Reg.MEM_CNT_REFPOST_POSTPONED c) + 1) (2 ^ 32 - 1) ∧ t.memsys = s.memsys)) ∧
    (∀ (c : Fin 6) (pc : Fin 32) (w : MemSweep), w = s.memsys.sweeps.get (fun _ => {}) c →
      (s.memState c ≠ 2 ∨ w.next ≠ pc.val → exec (.memIdleWindow c pc) s = .next s) ∧
      (s.memState c = 2 → w.next = pc.val → Completes (.memIdleWindow c pc) s fun t =>
        t.fld (Reg.MEM_STATUS_SWEEP_PC c) = pc.val ∧ t.memsys.sweeps.get (fun _ => {}) c =
          ⟨if pc = 0 then s.now else w.startAt, (pc.val + 1) % 32, s.now⟩ ∧
        (∀ b, b < 64 → (State.memBank (t.memPc (32 * c.val + pc.val)) b).row = none) ∧
        (∀ j, j ≠ 32 * c.val + pc.val → t.memPc j = s.memPc j) ∧
        ((∀ n, n < 41 → s.calResult n = none) → Frame [.memsys] [(Reg.MEM_STATUS_SWEEP_PC c).addr] s t))) ∧
    (∀ (c : Fin 6) (ok : Bool) (A : Nat), A = 0x1A0000 + 0x4000 * c.val →
      (s.memState c < 2 → Completes (.memTrainDone c ok) s fun t =>
        t.memState c = (if ok = true then 2 else 4) ∧ (ok = false → bit (t.word (A + 0x20)).toNat 4 = true) ∧ Frame [] [A + 4, A + 0x20] s t) ∧
      (2 ≤ s.memState c → exec (.memTrainDone c ok) s = .next s) ∧
      (s.memState c = 3 → Completes (.memRetrainDone c ok) s fun t =>
        t.memState c = (if ok = true then 2 else 4) ∧ bit (t.word (A + 0x20)).toNat (if ok = true then 2 else 4) = true ∧
        Frame [] [A + 4, A + 0x20] s t) ∧
      (s.memState c ≠ 3 → exec (.memRetrainDone c ok) s = .next s) ∧
      ∀ (m : Fin 32) (rest : BitVec 28), s.mayWrite m.val A .plain = true →
        ((∃ j, j < 6 ∧ j ≠ c.val ∧ s.memState j = 3) → Completes (.memRetrain m c rest) s fun t =>
          bit (t.word (A + 0x20)).toNat 5 = true ∧ t.memState c = s.memState c ∧ Frame [] [A, A + 0x20] s t) ∧
        ((∀ j, j < 6 → j ≠ c.val → s.memState j ≠ 3) → Completes (.memRetrain m c rest) s fun t =>
          t.memState c = (if s.memState c = 2 then 3 else s.memState c) ∧ Frame [] [A, A + 4] s t)) ∧
    ∀ (m : Fin 32) (v : Word), s.mayWrite m.val 0x1B8010 .plain = true → Completes (.memXlate m v) s fun t =>
      t.fld Reg.MEM_XLATE_LO = v.toNat ∧ Only sideParts s t ∧
      ∀ (a g q L : Nat), a = t.fld2 Reg.MEM_XLATE_LO Reg.MEM_XLATE_HI → g = a / 256 → q = g % 192 → L = g / 192 →
        (0x3000000000 ≤ a → t.fld Reg.MEM_XLATE_OUT_0_INVALID = 1) ∧
        (a < 0x3000000000 → t.fld Reg.MEM_XLATE_OUT_0_INVALID = 0 ∧ t.fld Reg.MEM_XLATE_OUT_0_C = q % 6 ∧
          t.fld Reg.MEM_XLATE_OUT_0_CH = q / 6 % 16 ∧ t.fld Reg.MEM_XLATE_OUT_0_PC = q / 6 / 16 ∧ t.fld Reg.MEM_XLATE_OUT_0_COL = L % 4 ∧
          t.fld Reg.MEM_XLATE_OUT_0_BK = (L / 4 % 16) ^^^ (L / 256 % 16) ∧ t.fld Reg.MEM_XLATE_OUT_0_SID = L / 64 % 4 ∧
          (t.word 0x1B801C).toNat = L / 256)

/-- R295: the interleave maps every granule of DRAM to a place of its own, within the stacks' bounds; any 48 KiB aligned to 48 KiB touches each of the 192 pseudo-channels exactly once. R342: the stripe map places every logical block below the capacity of a volume on one member's namespace, at LBA 256 or above, and no two blocks on one place. -/
def Obligations.MemoryInterleaveIsOneToOne : Prop :=
  ((∀ a b, a < 0x3000000000 → b < 0x3000000000 → interleaveOf a = interleaveOf b → a / 256 = b / 256) ∧
    (∀ a, a < 0x3000000000 → (interleaveOf a).c < 6 ∧ (interleaveOf a).ch < 16 ∧ (interleaveOf a).pc < 2 ∧ (interleaveOf a).sid < 4 ∧
      (interleaveOf a).bk < 16 ∧ (interleaveOf a).col < 4 ∧ (interleaveOf a).row < 16384) ∧
    ∀ n k, 49152 * n < 0x3000000000 → k < 192 → ∃ i, i < 192 ∧ pcOf (49152 * n + 256 * i) = k ∧
      ∀ j, j < 192 → pcOf (49152 * n + 256 * j) = k → j = i) ∧
  (∀ (x : Vol) (size : Nat), 0 < x.unit → x.members ≠ [] → x.members.Nodup → x.cap = volCapacity x.members.length x.unit size → 256 ≤ size →
      (∀ b, b < x.cap → (blockPlace x b).1 ∈ x.members ∧ 256 ≤ (blockPlace x b).2 ∧ (blockPlace x b).2 < size) ∧
      ∀ a b, blockPlace x a = blockPlace x b → a = b)

/-- R316, R318, R319, R321 to R323, R327, R328, R334, R335: scan-out. RUN starts it and lets heads with EN start; STOP stops every head, empties the queues and ends a load. A latch at its instant takes the head's fields, starts the next frame, and shows frame, epoch and tide; each queue layer of the head takes its newest entry, and keeps its queue after an underrun. A head that waits starts frame 0; one whose EN went off stops. An underrun counts its line and its frame and is an overrun. The frame's end shows the CRC of the composed picture. A load copies a berth into its region; a layer push joins a queue of 4 or is counted. -/
def Obligations.ScanOutLatchesAndLoads : Prop :=
  ∀ (s : State),
    (∀ (m : Fin 32) (rest : BitVec 28), s.mayWrite m.val 0x1C0000 .plain = true →
      (s.awake 15 → Completes (.scnRun m rest) s fun t =>
        t.fld Reg.SCN_STATUS_STATE = 1 ∧
        (∀ h, t.head h = if s.fld Reg.SCN_STATUS_STATE = 1 ∨ 10 ≤ h then s.head h else { s.head h with wake := true }) ∧
        Frame [.scn] [0x1C0000, 0x1C0004] s t) ∧
      (Completes (.scnStop m rest) s fun t =>
        t.fld Reg.SCN_STATUS_STATE = 0 ∧ (∀ h, h < 10 → t.head h = {} ∧ t.fld (Reg.SCN_HEAD_STATUS_STATE h) = 0) ∧
        (∀ l, l < 16 → t.queue (State.layerQ l) = []) ∧ t.scn.load = none ∧ t.mem = s.mem ∧ t.scn.store = s.scn.store)) ∧
    (∀ (m : Fin 32) (l : Fin 16) (h : BitVec 16) (Q : Nat), Q = 0x1C2024 + 0x80 * l.val → s.mayWrite m.val Q .plain = true →
      ((s.queue Q).length < 4 → Completes (.scnLayerPush m l h) s fun t =>
        t.queue Q = s.queue Q ++ [⟨h.toNat, 0, false⟩] ∧ (∀ b, b ≠ Q → t.queue b = s.queue b) ∧ Frame [.queues] [Q] s t) ∧
      (4 ≤ (s.queue Q).length → Completes (.scnLayerPush m l h) s fun t =>
        t.queues = s.queues ∧ t.fld (Reg.SCN_LAYER_CNT_PUSH_LOST l) = min (s.fld (Reg.SCN_LAYER_CNT_PUSH_LOST l) + 1) 65535 ∧
        Frame [] [Q, 0x1C202C + 0x80 * l.val] s t)) ∧
    (∀ (m : Fin 32) (v : Word) (r h n : Nat), s.mayWrite m.val 0x1C002C .plain = true → r = s.fld Reg.SCN_LOAD_DST_REGION →
      h = s.fld Reg.SCN_LOAD_SRC_HANDLE → n = s.fld Reg.SCN_LOAD_LEN_BYTES →
      (v.getLsbD 0 = false → Completes (.scnLoadCmd m v) s fun t => Frame [] [0x1C002C] s t) ∧
      (v.getLsbD 0 = true → s.scn.load ≠ none → Completes (.scnLoadCmd m v) s fun t =>
        t.fld Reg.SCN_LOAD_CMD_RESULT = 1 ∧ Frame [] [0x1C002C] s t) ∧
      (v.getLsbD 0 = true → s.scn.load = none → (∃ l, l < 16 ∧ (s.layer l).on = true ∧ s.layerRegion l = r) →
        Completes (.scnLoadCmd m v) s fun t => t.fld Reg.SCN_LOAD_CMD_RESULT = 2 ∧ Frame [] [0x1C002C] s t) ∧
      (v.getLsbD 0 = true → s.scn.load = none → (∀ l, l < 16 → (s.layer l).on = true → s.layerRegion l ≠ r) → h ≠ 0 →
        (s.berth h).st = .held → (s.berth h).count < 255 → n ≤ (s.berth h).pages * 4096 →
        ((s.region r).2 * 65536 < n → Completes (.scnLoadCmd m v) s fun t => t.fld Reg.SCN_LOAD_CMD_RESULT = 4 ∧ Frame [] [0x1C002C] s t) ∧
        (n ≤ (s.region r).2 * 65536 → Completes (.scnLoadCmd m v) s fun t =>
          t.fld Reg.SCN_LOAD_CMD_BUSY = 1 ∧ t.scn = { s.scn with load := some (r, h, n) } ∧
          (t.berth h).count = (s.berth h).count + 1 ∧ Frame [.fab, .scn] [0x1C002C] s t))) ∧
    (s.scn.load = none → exec .scnLoadDone s = .next s) ∧
    (∀ r h n, s.scn.load = some (r, h, n) → (s.berth h).st = .held → 0 < (s.berth h).count → h ≠ 0 → s.noFollower → Completes .scnLoadDone s fun t =>
      t.scn.load = none ∧ t.fld Reg.SCN_LOAD_CMD_BUSY = 0 ∧ t.fld Reg.SCN_LOAD_CMD_RESULT = 0 ∧ bit (t.word 0x1C0010).toNat 4 = true ∧
      (∀ a, t.scn.store.get (fun _ => 0) a = (if (s.region r).1 * 65536 ≤ a ∧ a < (s.region r).1 * 65536 + n
        then s.memByte ((s.berth h).base * 4096 + (a - (s.region r).1 * 65536)) else s.scn.store.get (fun _ => 0) a)) ∧
      (t.berth h).count = (s.berth h).count - 1 ∧ t.mem = s.mem ∧ Frame [.fab, .queues, .scn] [0x1C002C, 0x1C0010] s t) ∧
    ∀ (h : Fin 10) (H : Nat), H = 0x1C1000 + 0x100 * h.val →
      (s.scnRunning = false ∨ (s.head h).run = false ∧ (s.head h).pend = none ∨
        (s.head h).run = true ∧ s.tideTime48 < s.headInstant h (s.head h).base ((s.head h).frame + 1) → exec (.scnLatch h) s = .next s) ∧
      (s.scnRunning = true → (s.head h).run = true → s.headInstant h (s.head h).base ((s.head h).frame + 1) ≤ s.tideTime48 →
        s.fld (Reg.SCN_HEAD_CFG_EN h) = 0 → Completes (.scnLatch h) s fun t =>
          (t.head h).run = false ∧ t.fld (Reg.SCN_HEAD_STATUS_STATE h) = 0 ∧ (∀ l, l < 16 → (t.layer l).head ≠ some h.val) ∧ t.mem = s.mem) ∧
      (∀ (j : Nat) (keep : Bool) (u : State), s.scnRunning = true → u = s.takeHead h →
        ((s.head h).run = true ∧ j = (s.head h).frame + 1 ∧ (s.head h).pend = none ∧ keep = (s.head h).under ∧
            s.fld (Reg.SCN_HEAD_CFG_EN h) = 1 ∧ s.headInstant h (s.head h).base j ≤ s.tideTime48 ∨
          (s.head h).run = false ∧ j = 0 ∧ keep = (s.head h).under ∧ u.headFld h (Reg.SCN_HEAD_CFG_EN h) = 1 ∧
            ∃ b, (s.head h).pend = some b ∧ u.headInstant h b 0 ≤ u.tideTime48) →
        u.headOk h = true → u.headQuadded h = false → Completes (.scnLatch h) s fun t =>
          (t.head h).run = true ∧ (t.head h).frame = j ∧ (t.head h).pend = none ∧ (t.head h).under = false ∧ (t.head h).lost = [] ∧
          t.fld (Reg.SCN_HEAD_LATCH_FRAME_FRAME h) = j % 2 ^ 32 ∧ t.fld (Reg.SCN_HEAD_LATCH_EPOCH_EPOCH h) = s.sys.epoch % 65536 ∧
          t.fld (Reg.SCN_HEAD_LATCH_TIDE_LO h) = s.tide % 2 ^ 32 ∧ bit (t.fld Reg.SCN_STATUS_ACTIVE) h.val = true ∧
          (∀ i, i ≠ h.val → t.head i = s.head i) ∧
          (∀ l, l < 16 → s.fld (Reg.SCN_LAYER_CFG_HEAD l) = h.val → s.fld (Reg.SCN_LAYER_CFG_EN l) = 1 → s.fld (Reg.SCN_LAYER_CFG_SRC l) = 0 →
            t.queue (State.layerQ l) = if keep = true then s.queue (State.layerQ l) else []) ∧
          (∀ l, l < 16 → s.fld (Reg.SCN_LAYER_CFG_HEAD l) ≠ h.val → (s.layer l).head ≠ some h.val → t.layer l = s.layer l) ∧
          Only ([.fresh, .fab, .sys, .queues, .cal, .lanes, .scn] ++ sideParts) s t) ∧
      (∀ line px, (s.head h).run = false ∨ (s.head h).ended = true → exec (.scnUnderrun h line px) s = .next s) ∧
      (∀ line px w hh vb, s.headSize h = some (w, hh, vb) → (s.head h).run = true → (s.head h).ended = false → line < hh → px < w →
        (∀ e ∈ (s.head h).lost, e.1 ≠ line) → Completes (.scnUnderrun h line px) s fun t =>
          t.head h = { s.head h with under := true, lost := (s.head h).lost ++ [(line, px)] } ∧
          t.fld (Reg.SCN_HEAD_UNDERRUN_LINES h) = min (s.fld (Reg.SCN_HEAD_UNDERRUN_LINES h) + 1) 65535 ∧
          t.fld (Reg.SCN_HEAD_UNDERRUN_FRAMES h) = (if (s.head h).under = true then s.fld (Reg.SCN_HEAD_UNDERRUN_FRAMES h)
            else min (s.fld (Reg.SCN_HEAD_UNDERRUN_FRAMES h) + 1) 65535) ∧
          ((s.head h).under = false → t.fld (Reg.FAB_UNIT_OVR_OVR_CNT 15) = min (s.fld (Reg.FAB_UNIT_OVR_OVR_CNT 15) + 1) 65535) ∧
          bit (t.word 0x1C0010).toNat 2 = true ∧
          Frame [.fab, .scn] [H + 0x30, 0x1C0010, 0x60000, 0x611E4, 0x611E8, 0x611EC] s t) ∧
      ((s.head h).run = false ∨ (s.head h).ended = true → exec (.scnFrameEnd h) s = .next s) ∧
      ((s.head h).run = true → (s.head h).ended = false → s.replaying = false → Completes (.scnFrameEnd h) s fun t =>
        (t.head h).ended = true ∧ t.fld (Reg.SCN_HEAD_STATUS_UNDERRUN_FRAME h) = b01 (s.head h).under ∧
        t.fld (Reg.SCN_HEAD_CRC_CRC h) =
          crc32 (((s.picture h).map fun line => (line.map fun p => (p.map (bytesLE 2)).flatten).flatten).flatten) % 2 ^ 32 ∧
        (∀ i, i ≠ h.val → t.head i = s.head i) ∧ Frame [.scn] [H + 0x34, H + 0x38] s t)

/-- R336 to R341: PCIe ports, links and drives. ENABLE switches a port on, unless it would break the endpoint rule (WRITE_REJECT); DISABLE takes its links down and switches it off. A link comes up at the generation and width both ends allow; one that goes down raises LINK_DOWN and faults its drives. Host accesses to BAR0 are control accesses of master 1, those to BAR2 reach the window's berth. ATTACH and DETACH issue their admin commands one after another; a drive in use answers BUSY; a completion goes on or ends READY, a failure or a timeout is counted and faults the drive. -/
def Obligations.StoragePortsAndDrives : Prop :=
  ∀ (p : Fin 2) (P : Nat) (s : State), P = 0x1D0000 + 0x1000 * p.val →
    (∀ (m : Fin 32) (rest : BitVec 28), s.mayWrite m.val P .plain = true →
      (s.awake (16 + p.val) → s.fld (Reg.PCX_STATUS_STATE p) = 0 → Completes (.pcxEnable m p rest) s fun t =>
        t.fld (Reg.PCX_CTRL_MODE p) = rest.toNat / 256 % 2 ∧
        (t.fld (Reg.PCX_CTRL_MODE p) = 0 ∨ t.fld (Reg.PCX_CTRL_BIFUR p) = 0 ∧ ¬(s.pcxOn (1 - p.val) = true ∧ s.isEndpoint (1 - p.val) = true) →
          t.fld (Reg.PCX_STATUS_STATE p) = 1 ∧ (t.pcxPort p).subsys = s.word Reg.SYS_SUBSYS_ID.addr) ∧
        (t.fld (Reg.PCX_CTRL_MODE p) = 1 → t.fld (Reg.PCX_CTRL_BIFUR p) ≠ 0 ∨ s.pcxOn (1 - p.val) = true ∧ s.isEndpoint (1 - p.val) = true →
          t.fld (Reg.PCX_STATUS_STATE p) = s.fld (Reg.PCX_STATUS_STATE p) ∧ t.flag (Reg.PCX_EVENT_WRITE_REJECT p) = true) ∧
        Frame [.pcx] [P, P + 4, P + 0x30] s t) ∧
      (Completes (.pcxDisable m p rest) s fun t =>
        t.fld (Reg.PCX_STATUS_STATE p) = 0 ∧ (∀ k, k < 4 → t.flag (Reg.PCX_LINK_UP p k) = false) ∧ Only ([.pcx] ++ sideParts) s t)) ∧
    (∀ (k : Fin 4) (gen width : Nat) (rev : Bool) (c u lanes : Nat), lanes = State.linkLanes (s.fld (Reg.PCX_CTRL_BIFUR p)) k →
      (s.pcxOn p = true → lanes ≠ 0 → s.flag (Reg.PCX_LINK_UP p k) = false → Completes (.pcieLinkUp p k gen width rev c u) s fun t =>
        t.flag (Reg.PCX_LINK_UP p k) = true ∧ t.flag (Reg.PCX_LINK_REVERSED p k) = rev ∧
        t.fld (Reg.PCX_LINK_GEN p k) = max 1 (min gen (min 5 (s.fld (Reg.PCX_CTRL_MAX_GEN p)))) ∧
        t.fld (Reg.PCX_LINK_WIDTH p k) = State.pcieWidth (min width lanes) ∧ bit (t.fld (Reg.PCX_STATUS_LINKS_UP p)) k.val = true ∧
        (s.isEndpoint p = false → t.fld (Reg.PCX_AER_CORR p) = min (s.fld (Reg.PCX_AER_CORR p) + c) 65535 ∧
          t.fld (Reg.PCX_AER_UNCORR p) = min (s.fld (Reg.PCX_AER_UNCORR p) + u) 65535) ∧
        Frame [.pcx] [P + 4, P + 0x10 + 4 * k.val, P + 0x20, P + 0x60] s t) ∧
      (s.pcxOn p = false ∨ lanes = 0 ∨ s.flag (Reg.PCX_LINK_UP p k) = true → Completes (.pcieLinkUp p k gen width rev c u) s fun t =>
        Frame [] [P + 0x20] s t) ∧
      (s.flag (Reg.PCX_LINK_UP p k) = true → Completes (.pcieLinkDown p k c u) s fun t =>
        t.flag (Reg.PCX_LINK_UP p k) = false ∧ bit (t.fld (Reg.PCX_STATUS_LINKS_UP p)) k.val = false ∧
        t.flag (Reg.PCX_EVENT_LINK_DOWN p) = true ∧
        (∀ d, d < 8 → t.drvState d =
          if s.drvState d ≠ 0 ∧ (s.drive d).port = p.val ∧ (s.drive d).link = k.val then 4 else s.drvState d) ∧
        Only ([.pcx] ++ sideParts) s t) ∧
      (s.flag (Reg.PCX_LINK_UP p k) = false → Completes (.pcieLinkDown p k c u) s fun t => Frame [] [P + 0x20] s t)) ∧
    (∀ a : HostAccess, s.pcxOn p = false ∨ s.isEndpoint p = false ∨ s.flag (Reg.PCX_LINK_UP p 0) = false →
      exec (.pcieHostAccess p a) s = .next s) ∧
    (s.pcxOn p = true → s.isEndpoint p = true → s.flag (Reg.PCX_LINK_UP p 0) = true →
      (∀ a be v, Completes (.pcieHostAccess p (.writeWord a be v)) s fun t => exec (.registerWrite 1 a be v) s = .next t) ∧
      (∀ a be, Completes (.pcieHostAccess p (.readWord a be)) s fun t => exec (.rcRead 1 a be) s = .next t) ∧
      (∀ (ofs len win h o : Nat), win = 2 ^ (clampN 20 36 (s.fld (Reg.PCX_EP_BAR2_SIZE_LOG2 p)) - 2) →
        h = s.fld (Reg.PCX_EP_WIN_HANDLE p (ofs / win % 4)) → o = ofs % win → s.accessCause (16 + p.val) h o len = 0 →
        (Completes (.pcieHostAccess p (.readBar2 ofs len)) s fun t =>
          (t.pcxPort p).data = s.memRead ((s.berth h).base * 4096 + o) len ∧ Only [.pcx] s t) ∧
        (∀ bs, bs.length = len → Completes (.pcieHostAccess p (.writeBar2 ofs bs)) s fun t =>
          t.memRead ((s.berth h).base * 4096 + o) len = bs ∧
          (∀ x, x < (s.berth h).base * 4096 + o ∨ (s.berth h).base * 4096 + o + len ≤ x → t.memByte x = s.memByte x) ∧ Only [.mem] s t))) ∧
    (∀ (m : Fin 32) (w : Fin 4) (h : BitVec 16) (W : Nat), W = P + 0x50 + 4 * w.val → s.mayWrite m.val W .plain = true →
      (s.fld (Reg.PCX_EP_WIN_HANDLE p w) = h.toNat → Completes (.pcxEpWin m p w h) s fun t => Frame [] [W] s t) ∧
      (s.fld (Reg.PCX_EP_WIN_HANDLE p w) = 0 → w.val ∉ (s.pcxPort p).wins → h ≠ 0 → (s.berth h.toNat).st = .held → (s.berth h.toNat).count < 255 →
        Completes (.pcxEpWin m p w h) s fun t =>
          t.fld (Reg.PCX_EP_WIN_HANDLE p w) = h.toNat ∧ (t.berth h.toNat).count = (s.berth h.toNat).count + 1 ∧
          w.val ∈ (t.pcxPort p).wins ∧ Frame [.pcx, .fab] [W] s t) ∧
      (∀ o, o = s.fld (Reg.PCX_EP_WIN_HANDLE p w) → h = 0 → o ≠ 0 → w.val ∈ (s.pcxPort p).wins → (s.berth o).st = .held → 0 < (s.berth o).count →
        s.noFollower → Completes (.pcxEpWin m p w h) s fun t =>
          t.fld (Reg.PCX_EP_WIN_HANDLE p w) = 0 ∧ (t.berth o).count = (s.berth o).count - 1 ∧ w.val ∉ (t.pcxPort p).wins ∧
          Frame [.pcx, .fab, .queues] [W] s t)) ∧
    (∀ (m : Fin 32) (v : Word) (x : Nat), s.mayWrite m.val (P + 0x60) .plain = true → x = s.fld (Reg.PCX_EP_IRQ_VECTORS p) ||| v.toNat →
      (¬(s.pcxOn p = true ∧ s.isEndpoint p = true ∧ s.flag (Reg.PCX_LINK_UP p 0) = true) → Completes (.pcxEpIrq m p v) s fun t =>
        t.fld (Reg.PCX_EP_IRQ_VECTORS p) = x ∧ Frame [] [P + 0x60] s t) ∧
      (s.pcxOn p = true → s.isEndpoint p = true → s.flag (Reg.PCX_LINK_UP p 0) = true → x ≠ 0 → Completes (.pcxEpIrq m p v) s fun t =>
        (t.pcxPort p).sent = x ∧ t.fld (Reg.PCX_EP_IRQ_VECTORS p) = 0 ∧ Frame [.pcx] [P + 0x60] s t)) ∧
    ∀ (d : Fin 8) (D : Nat) (x : Drive), D = 0x1D2000 + 0x100 * d.val → x = s.drive d →
      (∀ (m : Fin 32) (rest : BitVec 28), s.mayWrite m.val D .plain = true →
        (x.attaching = true ∨ x.detaching = true ∨ s.drvMember d = true →
          (Completes (.attach m d rest) s fun t => t.fld (Reg.PCX_DRV_STATUS_RESULT d) = 1 ∧ t.drive d = x ∧ Frame [] [D, D + 8] s t) ∧
          (Completes (.detach m d rest) s fun t => t.fld (Reg.PCX_DRV_STATUS_RESULT d) = 1 ∧ t.drive d = x ∧ Frame [] [D, D + 8] s t)) ∧
        (x.attaching = false → x.detaching = false → s.drvMember d = false →
          (Completes (.attach m d rest) s fun t =>
            t.drvState d = 1 ∧ t.drive d = {
              port := rest.toNat / 256 % 2, link := rest.toNat % 4, attaching := true
              plan := [.identifyNs, .getCache, .setQueues, .createCq, .createSq]
              cmds := [{ op := .identifyCtrl, drive := d, issued := s.now + 1 }] } ∧
            (∀ j, j ≠ d.val → t.drive j = s.drive j) ∧ Frame [.pcx] [D, D + 8] s t) ∧
          (s.drvState d = 0 → Completes (.detach m d rest) s fun t => t.drive d = x ∧ Frame [] [D] s t) ∧
          (s.drvState d ≠ 0 → x.cmds = [] → Completes (.detach m d rest) s fun t =>
            t.drive d = { x with
              detaching := true, plan := [.deleteCq], cmds := [{ op := .deleteSq, drive := d, issued := s.now + 1 }] } ∧
            (∀ j, j ≠ d.val → t.drive j = s.drive j) ∧ Frame [.pcx] [D] s t))) ∧
      (∀ (i : Fin 64) (ok : Bool) (data : NvmeData),
        x.cmds[i.val]? = none ∨ (∃ c, x.cmds[i.val]? = some c ∧ c.issued = 0) ∨ s.drvLinked d = false →
        exec (.nvmeCompletion d i ok data) s = .next s) ∧
      (∀ c : NvmeCmd, x.cmds = [c] → c.issued ≠ 0 → c.vol = none → s.drvLinked d = true →
        (∀ op ops, x.plan = op :: ops → Completes (.nvmeCompletion d 0 true .none) s fun t =>
          t.drive d = { x with plan := ops, cmds := [{ op := op, drive := d, issued := s.now + 1 }] } ∧ Frame [.pcx] [] s t) ∧
        (∀ n mdts op ops, x.plan = op :: ops → Completes (.nvmeCompletion d 0 true (.ctrl n mdts)) s fun t =>
          t.fld (Reg.PCX_DRV_MDTS d) = mdts.toNat ∧ State.drvSerial t d = bytesLE 20 n.toNat) ∧
        (∀ blocks, Completes (.nvmeCompletion d 0 true (.ns blocks false)) s fun t =>
          t.drvState d = 4 ∧ t.fld (Reg.PCX_DRV_STATUS_RESULT d) = 11 ∧ t.drvBlocks d = blocks.toNat) ∧
        (x.plan = [] → x.attaching = true → Completes (.nvmeCompletion d 0 true .none) s fun t =>
          t.drvState d = 2 ∧ t.fld (Reg.PCX_DRV_STATUS_RESULT d) = 0 ∧ t.drive d = { x with attaching := false, cmds := [] } ∧
          Frame [.pcx] [D + 8] s t) ∧
        (x.plan = [] → x.attaching = false → x.detaching = true → Completes (.nvmeCompletion d 0 true .none) s fun t =>
          t.drvState d = 0 ∧ t.fld (Reg.PCX_DRV_STATUS_RESULT d) = 0 ∧ Frame [.pcx] [D + 8] s t) ∧
        (∀ data, Completes (.nvmeCompletion d 0 false data) s fun t =>
          t.drvState d = 4 ∧ t.fld (Reg.PCX_DRV_STATUS_RESULT d) = 5 ∧
          t.fld (Reg.PCX_DRV_ERR_STATUS d) = min (s.fld (Reg.PCX_DRV_ERR_STATUS d) + 1) 65535 ∧
          (t.drive d).attaching = false ∧ (t.drive d).detaching = false ∧ (t.drive d).cmds = []) ∧
        (s.cmdExpired d c = true → Completes (.nvmeTimeout d) s fun t =>
          t.drvState d = 4 ∧ t.fld (Reg.PCX_DRV_STATUS_RESULT d) = 6 ∧
          t.fld (Reg.PCX_DRV_ERR_TIMEOUTS d) = min (s.fld (Reg.PCX_DRV_ERR_TIMEOUTS d) + 1) 65535 ∧ (t.drive d).cmds = [])) ∧
      (∀ c v, x.cmds = [c] → c.issued ≠ 0 → c.vol = some v → s.drvLinked d = true → ∀ data,
        Completes (.nvmeCompletion d 0 false data) s fun t => (t.vol v).result = some 5 ∧ (t.vol v).phases = [] ∧ Only ([.pcx] ++ sideParts) s t) ∧
      ((∀ c ∈ x.cmds, s.cmdExpired d c = false) → exec (.nvmeTimeout d) s = .next s)

/-- R346 to R350, R274: volumes and their jobs. An operation on a BUSY volume answers BUSY, UNMOUNT of one that is not mounted NOT_MOUNTED; else FORMAT, MOUNT and UNMOUNT make it BUSY and start their work, and when that has its result the volume shows it and is IDLE or MOUNTED, its drives IN USE or READY. A push acquires the descriptor's berth or is counted in LOST. A job starts when the volume has no work: a bad descriptor, a volume not mounted and a chunk past capacity end with their codes; a write job writes its payload before its header, which passes the checks of R346; a CHECKPOINT flushes first. A job ends with its result and docket; only a written chunk advances the tail; a failed write puts the volume into ERROR and empties its queue. -/
def Obligations.VolumesRunJobs : Prop :=
  ∀ (v : Fin 4) (V E : Nat) (s : State) (x : Vol), V = 0x1D3000 + 0x100 * v.val → E = 0x1D0030 + 0x1000 * s.volHome v → x = s.vol v →
    (∀ (m : Fin 32) (rest : BitVec 28), s.mayWrite m.val V .plain = true →
      (s.volState v = 1 →
        (Completes (.format m v rest) s fun t => t.fld (Reg.PCX_VOL_STATUS_RESULT v) = 1 ∧ Frame [] [V, V + 4] s t) ∧
        (Completes (.mount m v rest) s fun t => t.fld (Reg.PCX_VOL_STATUS_RESULT v) = 1 ∧ Frame [] [V, V + 4] s t) ∧
        (Completes (.unmount m v rest) s fun t => t.fld (Reg.PCX_VOL_STATUS_RESULT v) = 1 ∧ Frame [] [V, V + 4] s t)) ∧
      (s.volState v = 2 →
        (Completes (.format m v rest) s fun t => t.fld (Reg.PCX_VOL_STATUS_RESULT v) = 1 ∧ Frame [] [V, V + 4, E] s t) ∧
        (Completes (.mount m v rest) s fun t => t.fld (Reg.PCX_VOL_STATUS_RESULT v) = 1 ∧ Frame [] [V, V + 4, E] s t) ∧
        (x.work ≠ .idle ∨ s.queue (State.volQ v) ≠ [] →
          Completes (.unmount m v rest) s fun t => t.fld (Reg.PCX_VOL_STATUS_RESULT v) = 1 ∧ Frame [] [V, V + 4, E] s t) ∧
        (x.work = .idle → s.queue (State.volQ v) = [] → Completes (.unmount m v rest) s fun t =>
          t.volState v = 1 ∧ t.vol v = { x with work := .unmount, result := some 0 } ∧ Frame [.pcx] [V, V + 4, E] s t)) ∧
      (s.volState v ≠ 1 → s.volState v ≠ 2 →
        (Completes (.unmount m v rest) s fun t => t.fld (Reg.PCX_VOL_STATUS_RESULT v) = 12 ∧ Frame [] [V, V + 4] s t) ∧
        (x.work = .idle → (Completes (.mount m v rest) s fun t =>
            t.volState v = 1 ∧ (t.vol v).work = .mountHeaders ∧
            ((∀ d, d < 8 → s.drvState d ≠ 2) → (t.vol v).result = some 3) ∧
            (∀ d c, d < 8 → c < 2 → s.drvState d = 2 →
              ∃ q ∈ (t.drive d).cmds, q.op = .read ∧ q.lba = c ∧ q.blocks = 1 ∧ q.vol = some v.val) ∧
            Frame [.pcx] [V, V + 4] s t) ∧
          ∀ ds : List Nat, ds = onesBelow 8 (rest.toNat % 256) →
            (ds = [] ∨ (∃ d ∈ ds, s.drvState d ≠ 2) → Completes (.format m v rest) s fun t =>
              t.volState v = 1 ∧ t.vol v = { x with work := .format, result := some 2 } ∧ Frame [.pcx] [V, V + 4] s t) ∧
            (ds ≠ [] → (∀ d ∈ ds, s.drvState d = 2) → Completes (.format m v rest) s fun t =>
              t.volState v = 1 ∧ (t.vol v).work = .format ∧ (t.vol v).members = ds ∧ (t.vol v).tail = 0 ∧ (t.vol v).chunk = 0 ∧
              (t.vol v).gen = 1 ∧ (t.vol v).unit = 2 ^ clampN 4 10 (rest.toNat / 65536 % 16) ∧
              (∀ d ∈ ds, ∃ q ∈ (t.drive d).cmds, q.op = .deallocate ∧ q.lba = 0 ∧ q.blocks = s.drvBlocks d ∧ q.vol = some v.val) ∧
              Frame [.pcx, .fresh] [V, V + 4] s t)))) ∧
    (x.result = none → exec (.volOpDone v) s = .next s) ∧
    (∀ r, r < 16 → x.result = some r → (∀ d ∈ x.members, d < 8) →
      (x.work = .format → Completes (.volOpDone v) s fun t =>
        t.volState v = 0 ∧ t.fld (Reg.PCX_VOL_STATUS_RESULT v) = r ∧ (t.vol v).work = .idle ∧ Only ([.pcx] ++ sideParts) s t) ∧
      (x.work = .mountHeaders ∨ x.work = .mountScan → Completes (.volOpDone v) s fun t =>
        t.volState v = (if r = 0 then 2 else 0) ∧ t.fld (Reg.PCX_VOL_STATUS_RESULT v) = r ∧ (t.vol v).work = .idle ∧
        (∀ d, d < 8 → t.drvState d = if r = 0 ∧ d ∈ x.members ∧ s.drvState d = 2 then 3 else s.drvState d) ∧
        Only ([.pcx] ++ sideParts) s t) ∧
      (x.work = .unmount → Completes (.volOpDone v) s fun t =>
        t.volState v = 0 ∧ t.fld (Reg.PCX_VOL_STATUS_RESULT v) = r ∧ (t.vol v).work = .idle ∧
        (∀ d, d < 8 → t.drvState d = if d ∈ x.members ∧ s.drvState d = 3 then 2 else s.drvState d) ∧ Only ([.pcx] ++ sideParts) s t)) ∧
    (∀ (m : Fin 32) (h index : BitVec 16), s.mayWrite m.val (V + 0x28) .plain = true →
      ((s.queue (State.volQ v)).length < 32 → h ≠ 0 → (s.berth h.toNat).st = .held → (s.berth h.toNat).count < 255 →
        Completes (.pcxVolPush m v h index) s fun t =>
          t.queue (State.volQ v) = s.queue (State.volQ v) ++ [⟨h.toNat, index.toNat, true⟩] ∧
          (t.berth h.toNat).count = (s.berth h.toNat).count + 1 ∧ Frame [.fab, .queues] [] s t) ∧
      (32 ≤ (s.queue (State.volQ v)).length → Completes (.pcxVolPush m v h index) s fun t =>
        t.fld (Reg.PCX_VOL_QUEUE_LOST v) = min (s.fld (Reg.PCX_VOL_QUEUE_LOST v) + 1) 65535 ∧ Frame [] [V + 0x2C] s t)) ∧
    (x.work ≠ .idle ∨ s.queue (State.volQ v) = [] → exec (.pcxJobStart v) s = .next s) ∧
    (∀ (e : QEnt) (es : List QEnt) (j : PcxJob), x.work = .idle → s.queue (State.volQ v) = e :: es →
      s.accessCause (s.volUnit v) e.h (64 * e.h2) 64 = 0 → j = { desc := s.peek e.h (64 * e.h2) 64, got := [e.h] } →
      (j.bad = true → Completes (.pcxJobStart v) s fun t =>
        t.vol v = { x with work := .write, job := some j, result := some 7, got := [], phases := [] } ∧
        t.queue (State.volQ v) = es ∧ Frame [.pcx, .queues] [] s t) ∧
      (j.bad = false → s.volState v ≠ 2 → Completes (.pcxJobStart v) s fun t =>
        t.vol v = { x with work := .write, job := some j, result := some 12, got := [], phases := [] } ∧
        t.queue (State.volQ v) = es ∧ Frame [.pcx, .queues] [] s t) ∧
      (j.bad = false → s.volState v = 2 → j.type = 8 → s.replaying = false → Completes (.pcxJobStart v) s fun t =>
        (t.vol v).work = .checkpoint ∧ (t.vol v).job = some j ∧ t.queue (State.volQ v) = es ∧
        (∀ d ∈ x.members, s.flag (Reg.PCX_DRV_STATUS_VWC d) = true → ∃ q ∈ (t.drive d).cmds, q.op = .flush ∧ q.vol = some v.val) ∧
        Frame [.pcx, .queues] [] s t) ∧
      (j.bad = false → s.volState v = 2 → j.type ≠ 8 → j.enc = false → s.replaying = false → j.berth ≠ 0 →
        (s.berth j.berth).st = .held → (s.berth j.berth).count < 255 →
        (j.type = 9 → Completes (.pcxJobStart v) s fun t =>
          (t.vol v).work = .readHeader ∧ (t.berth j.berth).count = (s.berth j.berth).count + 1 ∧ t.queue (State.volQ v) = es ∧
          (∃ q ∈ (t.drive (blockPlace x j.lba).1).cmds, q.op = .read ∧ q.lba = (blockPlace x j.lba).2 ∧ q.vol = some v.val) ∧
          Frame [.pcx, .queues, .fab] [] s t) ∧
        (j.isWrite = true → j.ofs + j.len ≤ (s.berth j.berth).pages * 4096 →
          (x.cap < x.tail + 1 + ceilDiv j.len 4096 → Completes (.pcxJobStart v) s fun t =>
            (t.vol v).result = some 4 ∧ (t.vol v).tail = x.tail ∧ t.queue (State.volQ v) = es ∧ Frame [.pcx, .queues, .fab] [] s t) ∧
          (x.tail + 1 + ceilDiv j.len 4096 ≤ x.cap → x.id < 2 ^ 64 → x.cap < 2 ^ 64 → x.chunk < 2 ^ 64 →
            Completes (.pcxJobStart v) s fun t => ∃ hdr : List Byte, ∃ ps,
              isChunk hdr x.id x.tail (some x.chunk) = true ∧ hdrAt hdr 40 8 = j.len ∧ hdrAt hdr 48 8 = 1 + ceilDiv j.len 4096 ∧
              (t.vol v).work = .write ∧ (t.vol v).job = some { j with got := [e.h, j.berth], block := x.tail, hdr := hdr } ∧
              (t.vol v).phases = s.transfer v x .write 1 x.tail 1 hdr 0 :: ps ∧
              (∃ q ∈ (t.drive (blockPlace x (x.tail + 1)).1).cmds,
                q.op = .write ∧ q.lba = (blockPlace x (x.tail + 1)).2 ∧ q.vol = some v.val) ∧
              t.queue (State.volQ v) = es ∧ Frame [.pcx, .queues, .fab, .fresh] [] s t)))) ∧
    (x.job = none ∨ x.result = none → exec (.pcxJobEnd v) s = .next s) ∧
    (∀ (j : PcxJob) (r : Nat), r < 16 → x.job = some j → x.result = some r → (∀ d ∈ x.members, d < 8) →
      (r = 0 → x.work = .write → j.isWrite = true → j.hdr ≠ [] → j.got.length ≤ 2 → Completes (.pcxJobEnd v) s fun t =>
        (t.vol v).tail = x.tail + 1 + ceilDiv j.len 4096 ∧ (t.vol v).chunk = x.chunk + 1 ∧ (t.vol v).work = .idle ∧ (t.vol v).job = none ∧
        t.fld (Reg.PCX_VOL_STATUS_RESULT v) = 0 ∧ t.volState v = s.volState v ∧
        Posts 5 (16 + s.volHome v) (0x8000 + v.val * 0x1000) (j.tag + (j.block % 2 ^ 40) <<< 16) s t ∧
        Only ([.mem, .fab, .queues, .leaves, .pcx, .fresh] ++ sideParts) s t) ∧
      (r = 0 → x.work = .checkpoint → j.type = 8 → s.replaying = false → Completes (.pcxJobEnd v) s fun t =>
        (t.vol v).gen = x.gen + 1 ∧ (t.vol v).copy = 1 - x.copy ∧ (t.vol v).tail = x.tail ∧ (t.vol v).work = .idle ∧
        t.fld (Reg.PCX_VOL_STATUS_RESULT v) = 0) ∧
      (r = 5 ∨ r = 6 → x.work = .write → j.type ≠ 9 → Completes (.pcxJobEnd v) s fun t =>
        t.volState v = 3 ∧ t.fld (Reg.PCX_VOL_STATUS_RESULT v) = r ∧ (t.vol v).tail = x.tail ∧ t.queue (State.volQ v) = [] ∧
        t.flag (Reg.PCX_EVENT_JOB_FAIL (s.volHome v)) = true ∧ (t.vol v).work = .idle ∧
        ∀ d, d < 8 → t.drvState d = if d ∈ x.members ∧ s.drvState d = 3 then 2 else s.drvState d) ∧
      (r ≠ 0 → r ≠ 5 → r ≠ 6 → x.work = .write → j.type ≠ 9 → Completes (.pcxJobEnd v) s fun t =>
        t.volState v = s.volState v ∧ t.fld (Reg.PCX_VOL_STATUS_RESULT v) = r ∧ (t.vol v).tail = x.tail ∧ (t.vol v).chunk = x.chunk ∧
        t.flag (Reg.PCX_EVENT_JOB_FAIL (s.volHome v)) = true ∧ (t.vol v).work = .idle))

/-- R357 to R359, R376: Ethernet links and neighbours. ENABLE switches a port on and DISABLE off, its link with it. A link comes up on a port that is on and takes FEC_LOCK from RS-FEC; one that goes down raises LINK_DOWN. A request for another address is discarded and counted; one for the port's own is answered, and its sender confirmed; an echo request is answered, or waits for its next hop while that is asked for. A confirmed neighbour gets the datagrams held for it; those held 10 ms are discarded and counted; an entry ends 60 s after its last confirmation. -/
def Obligations.NetLinksAndNeighbours : Prop :=
  ∀ (q : Fin 2) (N : Nat) (s : State) (x : NetPort), N = 0x1E0000 + 0x4000 * q.val → x = s.net q →
    (∀ (m : Fin 32) (rest : BitVec 28), s.mayWrite m.val N .plain = true →
      (s.awake (18 + q.val) → s.fld (Reg.NET_STATUS_STATE q) = 0 → Completes (.netEnable m q rest) s fun t =>
        t.fld (Reg.NET_STATUS_STATE q) = 1 ∧ Frame [] [N, N + 8] s t) ∧
      (Completes (.netDisable m q rest) s fun t =>
        t.fld (Reg.NET_STATUS_STATE q) = 0 ∧ t.flag (Reg.NET_STATUS_LINK q) = false ∧ t.flag (Reg.NET_STATUS_FEC_LOCK q) = false ∧
        Frame [] [N, N + 8, N + 0x60] s t)) ∧
    (∀ n : Nat, (s.netOn q = false → Completes (.ethLinkUp q n) s fun t => t = s) ∧
      (s.netOn q = true → Completes (.ethLinkUp q n) s fun t =>
        t.flag (Reg.NET_STATUS_LINK q) = true ∧ t.flag (Reg.NET_STATUS_FEC_LOCK q) = s.fecOn q ∧
        (s.fecOn q = true → t.fld (Reg.NET_CNT_FEC_FEC_ERR q) = min (s.fld (Reg.NET_CNT_FEC_FEC_ERR q) + n) (2 ^ 32 - 1)) ∧
        Frame [] [N + 8, N + 0x74] s t) ∧
      (s.netLink q = true → Completes (.ethLinkDown q n) s fun t =>
        t.flag (Reg.NET_STATUS_LINK q) = false ∧ t.flag (Reg.NET_EVENT_LINK_DOWN q) = true ∧ Frame [] [N + 8, N + 0x60, N + 0x74] s t)) ∧
    (s.netLink q = false →
      (∀ v6 target sender mac, exec (.arpRequest q v6 target sender mac) s = .next s) ∧
      (∀ v6 a mac, exec (.arpReply q v6 a mac) s = .next s) ∧
      (∀ v6 target sender bs, exec (.icmpEchoRequest q v6 target sender bs) s = .next s) ∧
      exec (.netRxDiscard q) s = .next s ∧ exec (.pierDatagramTx q) s = .next s ∧ ∀ port bs, exec (.pierDatagramRx q port bs) s = .next s) ∧
    (s.netLink q = true →
      (Completes (.netRxDiscard q) s fun t =>
        t.fld (Reg.NET_CNT_RX_DISCARD q) = min (s.fld (Reg.NET_CNT_RX_DISCARD q) + 1) 65535 ∧ Frame [] [N + 0x70] s t) ∧
      (∀ (v6 : Bool) (target sender : BitVec 128) (mac : BitVec 48), target.toNat ≠ s.netOwn q v6 →
        Completes (.arpRequest q v6 target sender mac) s fun t =>
          t.fld (Reg.NET_CNT_RX_DISCARD q) = min (s.fld (Reg.NET_CNT_RX_DISCARD q) + 1) 65535 ∧ Frame [] [N + 0x70] s t) ∧
      (∀ (v6 : Bool) (target sender : BitVec 128) (mac : BitVec 48), target.toNat = s.netOwn q v6 → x.held = [] →
        Completes (.arpRequest q v6 target sender mac) s fun t =>
          (t.net q).sent = [{ kind := .neighReply, mac := mac.toNat, v6 := v6, dst := sender.toNat }] ∧
          t.neighMac q v6 sender.toNat = some mac.toNat ∧ Frame [.nets] [] s t) ∧
      (∀ (v6 : Bool) (a : BitVec 128) (mac : BitVec 48), Completes (.arpReply q v6 a mac) s fun t =>
        t.neighMac q v6 a.toNat = some mac.toNat ∧ (t.net q).cache.length ≤ max 64 x.cache.length ∧
        (∀ h ∈ (t.net q).held, h ∈ x.held ∧ ¬(h.frame.v6 = v6 ∧ h.hop = a.toNat)) ∧
        (∀ h ∈ x.held, h.frame.v6 = v6 → h.hop = a.toNat → { h.frame with mac := mac.toNat } ∈ (t.net q).sent) ∧ Frame [.nets] [] s t) ∧
      (∀ (v6 : Bool) (target sender : BitVec 128) (bs : List Byte) (f : NetFrame), target.toNat = s.netOwn q v6 → bs.length ≤ 1472 →
        isMulticast v6 sender.toNat = false → f = { kind := .echoReply, v6 := v6, dst := sender.toNat, payload := bs } →
        (∀ k, s.neighMac q v6 (s.nextHop q v6 sender.toNat) = some k → Completes (.icmpEchoRequest q v6 target sender bs) s fun t =>
          (t.net q).sent = [{ f with mac := k }] ∧ Frame [.nets] [] s t) ∧
        (s.neighMac q v6 (s.nextHop q v6 sender.toNat) = none → State.heldBytes x.held + bs.length + ipOverhead v6 ≤ 65536 →
          Completes (.icmpEchoRequest q v6 target sender bs) s fun t =>
            (t.net q).held = x.held ++ [⟨s.nextHop q v6 sender.toNat, s.now, f⟩] ∧
            (t.net q).sent = [{ kind := .neighRequest, v6 := v6, dst := s.nextHop q v6 sender.toNat }] ∧ Frame [.nets] [] s t))) ∧
    ((∀ h ∈ x.held, s.now < h.since + State.msCycles 10) → exec (.neighTimeout q) s = .next s) ∧
    (∀ h ∈ x.held, h.since + State.msCycles 10 ≤ s.now → Completes (.neighTimeout q) s fun t =>
      (t.net q).held = x.held.filter (fun k => decide (s.now < k.since + State.msCycles 10)) ∧ (t.net q).cache = x.cache ∧
      t.fld (Reg.NET_CNT_RX_NEIGH_FAIL q) =
        min (s.fld (Reg.NET_CNT_RX_NEIGH_FAIL q) + (x.held.length - (t.net q).held.length)) 65535 ∧
      t.flag (Reg.NET_EVENT_NEIGH q) = true ∧ Frame [.nets] [N + 0x60, N + 0x70] s t) ∧
    Completes (.neighExpiry q) s fun t =>
      t.net q = { x with cache := x.cache.filter fun n => decide (s.now < n.confirmed + State.msCycles 60000) } ∧ Frame [.nets] [] s t

/-- R361 to R368: Pier streams. A push puts a berth at the end of its stream's queue, or raises PUSH_LOST. With nothing due nothing is sent; a stream alone in turn sends its object's next datagram: header and the berth's bytes at its offset; after the last one the object is counted. A datagram that no receive stream matches, or of an older object, is discarded and counted; the first of a new object takes a berth, or counts NO_BERTH, and stores its data at its offset; an object that got all its bytes ends, and one that waits too long ends INCOMPLETE. -/
def Obligations.PierStreamsSendAndReceive : Prop :=
  ∀ (q : Fin 2) (N : Nat) (s : State), N = 0x1E0000 + 0x4000 * q.val →
    (∀ (m : Fin 32) (i : Fin 32) (h : BitVec 16) (T : Nat), T = N + 0x1000 + 0x40 * i.val → s.mayWrite m.val (T + 0x24) .plain = true →
      ((s.queue (State.netTxQ q i)).length < 8 → Completes (.netTxPush m q i h) s fun t =>
        t.queue (State.netTxQ q i) = s.queue (State.netTxQ q i) ++ [⟨h.toNat, 0, false⟩] ∧ Frame [.queues] [] s t) ∧
      (8 ≤ (s.queue (State.netTxQ q i)).length → Completes (.netTxPush m q i h) s fun t =>
        t.flag (Reg.NET_EVENT_PUSH_LOST q) = true ∧
        t.fld (Reg.NET_TX_STATUS_LOST q i) = min (s.fld (Reg.NET_TX_STATUS_LOST q i) + 1) 255 ∧ Frame [] [N + 0x60, T + 0x28] s t)) ∧
    (∀ (m : Fin 32) (r : Fin 16) (h : BitVec 16), s.mayWrite m.val (N + 0x2010 + 0x40 * r.val) .plain = true →
      ((s.queue (State.netRxQ q r)).length < 8 → Completes (.netRxPush m q r h) s fun t =>
        t.queue (State.netRxQ q r) = s.queue (State.netRxQ q r) ++ [⟨h.toNat, 0, false⟩] ∧ Frame [.queues] [] s t) ∧
      (8 ≤ (s.queue (State.netRxQ q r)).length → Completes (.netRxPush m q r h) s fun t =>
        t.flag (Reg.NET_EVENT_PUSH_LOST q) = true ∧ Frame [] [N + 0x60] s t)) ∧
    (s.netLink q = true → (∀ i, i < 32 → s.txReady q i = false) → Completes (.pierDatagramTx q) s fun t =>
      t.net q = { s.net q with sent := [] } ∧ Frame [.nets] [] s t) ∧
    (∀ (i : Fin 32) (o : TxObject) (n dst : Nat) (x : TxStream) (man : Manifest), s.netLink q = true → x = s.txStream q i →
      x.cur = some o → s.netFld q (Reg.NET_TX_CFG_EN q i) = 1 → (∀ j, j < 32 → j ≠ i.val → s.txReady q j = false) →
      s.netFld q (Reg.NET_TX_RATE_MBPS q i) = 0 → s.netFld q (Reg.NET_TX_CFG_TS q i) = 0 → s.fld (Reg.NET_TX_CFG_SRC q i) = 0 →
      s.flag (Reg.NET_TX_CFG_V6 q i) = false → dst = s.fld (Reg.NET_TX_DST_0 q i) → isMulticast false dst = true →
      n = min (pierFull (s.netMtu q) false) (o.len - o.ofs) → s.accessCause (18 + q.val) o.h o.ofs n = 0 →
      man = { o.man with flags := o.man.flags ||| (if s.netAt q o.man.tide 4 = true then flagOvr else 0) ||| s.modeFlags } →
      Completes (.pierDatagramTx q) s fun t =>
        (t.net q).sent = [{
          kind := .pier, mac := 0x01005E000000 + dst % 2 ^ 23, v6 := false, dst := dst, sport := s.fld (Reg.NET_TX_PORTS_SPORT q i)
          dport := s.fld (Reg.NET_TX_PORTS_DPORT q i), tag := (s.word (Reg.NET_TX_TAG_VLAN_EN q i).addr).toNat
          payload := pierHeader (decide (o.ofs = 0)) (decide (o.len ≤ o.ofs + n)) x.seq o.ofs o.len o.num n man ++ s.peek o.h o.ofs n }] ∧
        (t.txStream q i).seq = (x.seq + 1) % 2 ^ 32 ∧ (∀ j, j ≠ i.val → t.txStream q j = s.txStream q j) ∧
        (o.ofs + n < o.len → (t.txStream q i).cur = some { o with ofs := o.ofs + n } ∧ Frame [.nets] [] s t) ∧
        (o.len ≤ o.ofs + n → (t.txStream q i).cur = none ∧
          t.fld (Reg.NET_TX_CNT_OBJECTS q i) = min (s.fld (Reg.NET_TX_CNT_OBJECTS q i) + 1) 65535 ∧
          Only ([.nets, .fab, .queues] ++ sideParts) s t)) ∧
    (∀ (port : BitVec 16) (bs : List Byte), s.netLink q = true → s.replayMode = false →
      (bs.length < 64 ∨ bs.take 3 ≠ [0x50, 0x49, 1] ∨ s.rxMatch q port.toNat (Manifest.ofNat (ofBytesLE ((bs.drop 32).take 32))) = none →
        Completes (.pierDatagramRx q port bs) s fun t =>
          t.fld (Reg.NET_CNT_RX_DISCARD q) = min (s.fld (Reg.NET_CNT_RX_DISCARD q) + 1) 65535 ∧ Frame [] [N + 0x70] s t) ∧
      ∀ (r : Nat) (x : RxStream) (num len : Nat), r < 16 → 64 ≤ bs.length → bs.take 3 = [0x50, 0x49, 1] →
        s.rxMatch q port.toNat (Manifest.ofNat (ofBytesLE ((bs.drop 32).take 32))) = some r → x = s.rxStream q r →
        num = hdrAt bs 24 4 → len = hdrAt bs 16 8 →
        (∀ l, x.last = some l → num ≠ l → seqAfter num l = false → Completes (.pierDatagramRx q port bs) s fun t =>
          t.fld (Reg.NET_CNT_RX_DISCARD q) = min (s.fld (Reg.NET_CNT_RX_DISCARD q) + 1) 65535 ∧ (t.rxStream q r).cur = x.cur) ∧
        (x.last = none → x.cur = none → x.next = none → hdrAt bs 8 8 = 0 → hdrAt bs 28 2 = bs.length - 64 → 64 < bs.length →
          (s.queue (State.netRxQ q r) = [] → bs.length - 64 < len → Completes (.pierDatagramRx q port bs) s fun t =>
            t.fld (Reg.NET_RX_STATUS_NO_BERTH q r) = min (s.fld (Reg.NET_RX_STATUS_NO_BERTH q r) + 1) 65535 ∧
            (t.rxStream q r).last = some num ∧ t.mem = s.mem) ∧
          (∀ e es, s.queue (State.netRxQ q r) = e :: es → e.h ≠ 0 → (s.berth e.h).st = .held → (s.berth e.h).count < 255 →
            (bs.length - 64) % 64 = 0 → bs.length - 64 ≤ (s.berth e.h).pages * 4096 →
            Completes (.pierDatagramRx q port bs) s fun t =>
              t.memRead ((s.berth e.h).base * 4096) (bs.length - 64) = bs.drop 64 ∧
              t.queue (State.netRxQ q r) = es ∧ (t.rxStream q r).last = some num ∧
              (t.rxStream q r).next = some ((hdrAt bs 4 4 + 1) % 2 ^ 32) ∧
              (bs.length - 64 < len → ∃ o, (t.rxStream q r).cur = some o ∧ o.h = e.h ∧ o.num = num ∧ o.len = len ∧
                o.ranges = [(0, bs.length - 64)] ∧ (t.berth e.h).count = (s.berth e.h).count + 1) ∧
              (len ≤ bs.length - 64 → (t.rxStream q r).cur = none)))) ∧
    ∀ r : Fin 16,
      ((s.rxStream q r).cur = none → exec (.pierRxTimeout q r) s = .next s) ∧
      ∀ o, (s.rxStream q r).cur = some o →
        (s.now < o.lastAt + State.usCycles (s.fld (Reg.NET_RX_TIMEOUT_US q r)) → exec (.pierRxTimeout q r) s = .next s) ∧
        (o.lastAt + State.usCycles (s.fld (Reg.NET_RX_TIMEOUT_US q r)) ≤ s.now → o.h ≠ 0 → Completes (.pierRxTimeout q r) s fun t =>
          (t.rxStream q r).cur = none ∧
          t.fld (Reg.NET_RX_CNT_INCOMPLETE q r) = min (s.fld (Reg.NET_RX_CNT_INCOMPLETE q r) + 1) 65535 ∧
          t.flag (Reg.NET_EVENT_RX_INCOMPLETE q) = true ∧ Only ([.fab, .queues, .nets] ++ sideParts) s t)

/-- R369 to R375, R416, R418, R55, R58, R66: HCP. A message that is not addressed to a live link does nothing; one whose tag fails is counted and not executed; a repeated one gets its stored reply. A new message of an open session is executed and answered: READ and WRITE are the control accesses of master 8 + i, OWN and HEARTBEAT its ownership requests, TXN and WITHDRAW_LIST its transaction requests, a pilot message becomes an HCP_CMD docket, CLOSE closes the session and is not answered. HELLO opens a handshake at the lowest closed index, or is refused; a handshake and a session end at their timeouts; a device message leaves when its session is open; an array reply leaves at its instant. -/
def Obligations.HcpMessagesAreExecuted : Prop :=
  ∀ (q : Fin 2) (s : State),
    (∀ msg : HcpMsg, s.netLink q = false → ∀ c ∈ [Instr.hcpRead q msg, .hcpWrite q msg, .own q msg, .hcpHeartbeat q msg, .hcpTxn q msg,
        .withdrawList q msg, .hcpClose q msg], exec c s = .next s) ∧
    (∀ (msg : HcpMsg) (k : Nat) (c : Instr) (i : Nat), i = msg.session.toNat →
      (k, c) ∈ [(3, Instr.hcpRead q msg), (5, .hcpWrite q msg), (7, .own q msg), (8, .hcpHeartbeat q msg), (9, .hcpTxn q msg),
        (0x0B, .withdrawList q msg), (0x0C, .hcpClose q msg)] → s.netLink q = true → i < 8 →
      ((gcmOpen (s.hcpSess i).c2d ((s.hcpSess i).saltC ++ zeros 4 ++ bytesLE 4 msg.seq.toNat) (State.msgHead k msg) msg.body msg.tag).2 = false →
        Completes c s fun t =>
          t.fld Reg.NET_HCP_CNT_AUTH = min (s.fld Reg.NET_HCP_CNT_AUTH + 1) (2 ^ (Reg.NET_HCP_CNT_AUTH.hi + 1 - Reg.NET_HCP_CNT_AUTH.lo) - 1) ∧
          Frame [] [Reg.NET_HCP_CNT_AUTH.addr] s t) ∧
      ((gcmOpen (s.hcpSess i).c2d ((s.hcpSess i).saltC ++ zeros 4 ++ bytesLE 4 msg.seq.toNat) (State.msgHead k msg) msg.body msg.tag).2 = true →
        s.fld (Reg.SEC_SESS_STATE i) = 2 → (s.hcpSess i).last = some msg.seq.toNat → ∀ o, (s.hcpSess i).stored = some o →
        Completes c s fun t =>
          t.hcp.out = some o ∧ t.fld Reg.NET_HCP_CNT_DUP =
            min (s.fld Reg.NET_HCP_CNT_DUP + 1) (2 ^ (Reg.NET_HCP_CNT_DUP.hi + 1 - Reg.NET_HCP_CNT_DUP.lo) - 1) ∧
          Frame [.hcp] [Reg.NET_HCP_CNT_DUP.addr] s t)) ∧
    (∀ (i : Fin 8) (msg : HcpMsg) (b : List Byte) (n : Nat), n = msg.seq.toNat →
      (s.accepts q i 3 msg b →
        (b.length ≠ 8 ∨ hdrAt b 4 2 = 0 ∨ 256 < hdrAt b 4 2 → Completes (.hcpRead q msg) s fun t =>
          Replies q i 4 n [14, 0, 0, 0] t ∧ Frame [.hcp, .fresh] [] s t) ∧
        (b.length = 8 → hdrAt b 4 2 = 1 → ∀ r, exec (.rcRead ⟨8 + i.val, by omega⟩ (BitVec.ofNat 32 (hdrAt b 0 4)) 15) (s.heard i) = .next r →
          Completes (.hcpRead q msg) s fun t =>
            Replies q i 4 n ([0, 0, 1, 0] ++ bytesLE 4 r.rsp.toNat) t ∧ Only ([.hcp, .fresh, .latched] ++ sideParts) s t)) ∧
      (s.accepts q i 5 msg b →
        (hdrAt b 4 2 = 0 ∨ 256 < hdrAt b 4 2 ∨ b.length ≠ 8 + 4 * hdrAt b 4 2 → Completes (.hcpWrite q msg) s fun t =>
          Replies q i 6 n [14, 0, 0, 0] t ∧ Frame [.hcp, .fresh] [] s t) ∧
        (b.length = 12 → hdrAt b 4 2 = 1 → hdrAt b 0 4 % 4 = 0 → hdrAt b 0 4 < 0x4000000 →
          ∀ r, exec (.registerWrite ⟨8 + i.val, by omega⟩ (BitVec.ofNat 32 (hdrAt b 0 4)) 15 (BitVec.ofNat 32 (hdrAt b 8 4))) (s.heard i) = .next r →
          r.fld (Reg.SEC_SESS_STATE i) = 2 → Completes (.hcpWrite q msg) s fun t =>
            Replies q i 6 n (if (s.heard i).mayWrite (8 + i.val) (hdrAt b 0 4) .plain = true then [0, 0, 1, 0] else [3, 0, 0, 0]) t ∧
            Only [.hcp, .fresh] r t)) ∧
      (s.accepts q i 7 msg b → hdrAt b 0 1 = 2 →
        (s.sys.owner = 8 + i.val → s.sys.waits = [] → Completes (.own q msg) s fun t =>
          t.sys.owner = 0 ∧ Replies q i 6 n [0, 0, 0, 0] t ∧ Only ([.hcp, .fresh, .sys, .fab] ++ sideParts) s t) ∧
        (s.sys.owner ≠ 8 + i.val → Completes (.own q msg) s fun t =>
          t.sys.owner = s.sys.owner ∧ Replies q i 6 n [3, 0, 0, 0] t ∧ Frame [.hcp, .fresh, .sys] [] s t)) ∧
      (s.accepts q i 8 msg b →
        (s.sys.owner = 8 + i.val → Completes (.hcpHeartbeat q msg) s fun t =>
          t.sys.leaseEnd = s.now + s.leaseCycles ∧ t.sys.owner = s.sys.owner ∧ Replies q i 6 n [0, 0, 0, 0] t ∧
          Frame [.hcp, .fresh, .sys] [] s t) ∧
        (s.sys.owner ≠ 8 + i.val → Completes (.hcpHeartbeat q msg) s fun t =>
          t.sys.leaseEnd = s.sys.leaseEnd ∧ Replies q i 6 n [3, 0, 0, 0] t ∧ Frame [.hcp, .fresh, .sys] [] s t)) ∧
      (s.accepts q i 9 msg b → hdrAt b 0 1 = 1 →
        (s.mayWrite (8 + i.val) 0x200 .plain = true → s.slotOf (8 + i.val) = none → ∀ j, s.freeSlot = some j →
          Completes (.hcpTxn q msg) s fun t =>
            t.slot j = some ⟨8 + i.val, false, s.sys.seq, []⟩ ∧ (∃ l, Replies q i 0x0A n ([0, 0, 0, 0] ++ l) t) ∧
            Frame [.hcp, .fresh, .sys] [] s t) ∧
        (s.mayWrite (8 + i.val) 0x200 .plain = false → Completes (.hcpTxn q msg) s fun t =>
          (∃ l, Replies q i 0x0A n ([3, 0, 0, 0] ++ l) t) ∧ t.sys.slots = s.sys.slots ∧
          Only ([.hcp, .fresh, .sys] ++ sideParts) s t)) ∧
      (s.accepts q i 0x0B msg b →
        (hdrAt b 0 4 = 0 → Completes (.withdrawList q msg) s fun t =>
          t.hcp.out = s.hcp.out ∧ (t.hcpSess i).last = some n ∧ Frame [.hcp] [] s t) ∧
        (∀ (ticket : BitVec 32) (c : Commit), b = bytesLE 4 1 ++ bytesLE 2 (s.fld Reg.SYS_ARRAY_ID_ID) ++ zeros 2 ++ bytesLE 4 ticket.toNat →
          s.mayWrite (8 + i.val) 0x200 .plain = true → s.running = true →
          s.sys.landq.find? (fun c => decide (c.ticket = ticket.toNat)) = some c → State.ownsTicket (8 + i.val) c = true →
          s.deadlinePassed c.target = false → Completes (.withdrawList q msg) s fun t =>
            t.sys.landq = s.sys.landq.filter (fun d => !decide (d.ticket = ticket.toNat)) ∧
            (∃ l, Replies q i 0x0A n ([0, 0, 0, 0] ++ bytesLE 4 ticket.toNat ++ l) t) ∧ Frame [.hcp, .fresh, .sys] [] s t)) ∧
      (s.accepts q i 0x0C msg b → Completes (.hcpClose q msg) s fun t =>
        t.fld (Reg.SEC_SESS_STATE i) = 0 ∧ t.hcpSess i = {} ∧ t.hcp.out = s.hcp.out ∧
        (s.sys.owner = 8 + i.val → s.sys.waits = [] → t.sys.owner = 0) ∧
        (s.sys.owner ≠ 8 + i.val → t.sys.owner = s.sys.owner) ∧ Only ([.hcp, .sys, .fab] ++ sideParts) s t) ∧
      ∀ y : Fin 64, s.accepts q i (0x40 + y.val) msg b → Completes (.hcpPilotMessage q y msg) s fun t =>
        Posts 2 (8 + i.val) (0x40 + y.val) (ofBytesLE (b.take 8)) s t ∧ (∃ r, Replies q i 6 n [r, 0, 0, 0] t) ∧
        Frame [.hcp, .fresh] [] s t) ∧
    (∀ (m : Fin 32) (lo : Word) (i y : Nat), s.mayWrite m.val 0x1E8014 .plain = true → i = s.fld Reg.NET_HCP_SEND_SESSION →
      y = s.fld Reg.NET_HCP_SEND_TYPE →
      (s.fld (Reg.SEC_SESS_STATE i) = 2 → 0x80 ≤ y → y < 0xC0 → Completes (.netHcpSend m lo) s fun t =>
        (∃ o, t.hcp.out = some o ∧ o.session = i ∧ o.type = y ∧ o.reply = false ∧ o.seq = (s.hcpSess i).sent ∧
          o.port = s.sessPort i ∧ o.body.take 4 = bytesLE 4 lo.toNat) ∧
        (t.hcpSess i).sent = ((s.hcpSess i).sent + 1) % 2 ^ 32 ∧ Frame [.hcp, .fresh] [0x1E8014, 0x1E8018] s t) ∧
      (s.fld (Reg.SEC_SESS_STATE i) ≠ 2 ∨ y < 0x80 ∨ 0xC0 ≤ y → Completes (.netHcpSend m lo) s fun t =>
        Frame [] [0x1E8014, 0x1E8018] s t)) ∧
    (∀ b : List Byte, s.netLink q = false → exec (.hello q b) s = .next s) ∧
    (∀ b : List Byte, s.netLink q = true →
      (s.helloOk b = false → Completes (.hello q b) s fun t => t.hcp = s.hcp ∧
        t.fld Reg.SEC_CNT_AUTH = min (s.fld Reg.SEC_CNT_AUTH + 1) (2 ^ (Reg.SEC_CNT_AUTH.hi + 1 - Reg.SEC_CNT_AUTH.lo) - 1)) ∧
      (s.helloOk b = true → (∀ i, i < 8 → s.fld (Reg.SEC_SESS_STATE i) ≠ 0) → Completes (.hello q b) s fun t =>
        (∃ o, t.hcp.out = some o ∧ o.type = 2 ∧ o.reply = true ∧ o.body.take 1 = [6]) ∧ Frame [.hcp] [] s t) ∧
      (∀ i : Fin 8, s.helloOk b = true → s.fld (Reg.SEC_SESS_STATE i) = 0 → (∀ j, j < i.val → s.fld (Reg.SEC_SESS_STATE j) ≠ 0) →
        Completes (.hello q b) s fun t =>
          t.fld (Reg.SEC_SESS_STATE i) = 1 ∧ t.fld (Reg.SEC_SESS_MASTER i) = 8 + i.val ∧ (t.hcpSess i).last = none ∧
          (t.hcpSess i).since = s.now ∧ (∃ o, t.hcp.out = some o ∧ o.type = 2 ∧ o.body.take 2 = [0, BitVec.ofNat 8 i]) ∧
          Only ([.hcp, .fresh] ++ sideParts) s t)) ∧
    (∀ i : Fin 8,
      (s.fld (Reg.SEC_SESS_STATE i) ≠ 2 ∨ s.now < (s.hcpSess i).validAt + State.msCycles (max 1 (s.fld Reg.NET_HCP_TIMEOUT_MS)) →
        exec (.hcpSessionTimeout i) s = .next s) ∧
      (s.fld (Reg.SEC_SESS_STATE i) = 2 → (s.hcpSess i).validAt + State.msCycles (max 1 (s.fld Reg.NET_HCP_TIMEOUT_MS)) ≤ s.now →
        Completes (.hcpSessionTimeout i) s fun t =>
          t.fld (Reg.SEC_SESS_STATE i) = 0 ∧ t.hcpSess i = {} ∧ Only ([.hcp, .sys, .fab] ++ sideParts) s t) ∧
      (s.fld (Reg.SEC_SESS_STATE i) ≠ 1 ∨ s.now < (s.hcpSess i).since + State.msCycles 1000 → exec (.hcpHandshakeTimeout i) s = .next s) ∧
      (s.fld (Reg.SEC_SESS_STATE i) = 1 → (s.hcpSess i).since + State.msCycles 1000 ≤ s.now → Completes (.hcpHandshakeTimeout i) s fun t =>
        t.fld (Reg.SEC_SESS_STATE i) = 0 ∧ t.hcpSess i = {} ∧ Only ([.hcp, .sys, .fab] ++ sideParts) s t)) ∧
    (s.hcp.later = [] → exec .arrayReply s = .next s) ∧
    ∀ a o rest, s.hcp.later = (a, o) :: rest →
      (s.now < a → exec .arrayReply s = .next s) ∧
      (a ≤ s.now → Completes .arrayReply s fun t =>
        t.hcp.out = some o ∧ t.hcp.later = rest ∧ t.hcp.sess = s.hcp.sess ∧ Frame [.hcp] [] s t)

/-- R380 to R392: audio. START of a stopped port with a good configuration arms it, a bad one raises BAD_CFG; STOP ends an armed port at once and a running one when its gates have closed; ABORT closes the gates and ends the port at its next frame; an operation out of place is rejected. A push puts a berth at the end of the queue, or is counted and raises PUSH_LOST. A frame before its instant does nothing; an input port's frame takes a berth when none is open and adds the masked samples to the block, which closes when full; an output port plays the samples of its head block, or zeros with UNDERRUN. A gate that finds no crossing opens or closes at its timeout; a silent clock and a generator in holdover raise CLK_LOSS. -/
def Obligations.AudioPortsPlayAndRecord : Prop :=
  ∀ (p : Fin 16) (A : Nat) (s : State) (x : AudPort), A = 0x1F1000 + 0x100 * p.val → x = s.audPort p →
    (∀ (m : Fin 32) (rest : BitVec 28), s.mayWrite m.val A .plain = true →
      (s.awake 20 →
        (s.audState p = 0 → s.audBad p = false → Completes (.audStart m p rest) s fun t =>
          t.audState p = 1 ∧ t.fld (Reg.AUD_SEQ_SEQ p) = 0 ∧
          t.audPort p = { idx := if s.audTimed p = true then some (s.firstFrame p) else none, first := true, lastAt := s.now } ∧
          (∀ j, j ≠ p.val → t.audPort j = s.audPort j) ∧ Frame [.aud] [A, A + 0x24, A + 0x3C] s t) ∧
        (s.audState p = 0 → s.audBad p = true → Completes (.audStart m p rest) s fun t =>
          t.flag (Reg.AUD_EVENT_BAD_CFG p) = true ∧ Frame [] [A, A + 0x28] s t) ∧
        (s.audState p ≠ 0 → Completes (.audStart m p rest) s fun t =>
          t.flag (Reg.AUD_EVENT_WRITE_REJECT p) = true ∧ Frame [] [A, A + 0x28] s t)) ∧
      (s.audState p = 0 ∨ s.audState p = 3 → Completes (.audStop m p rest) s fun t =>
        t.flag (Reg.AUD_EVENT_WRITE_REJECT p) = true ∧ Frame [] [A, A + 0x28] s t) ∧
      (s.audState p = 1 ∨ s.audState p = 2 ∧ (s.flag (Reg.AUD_ZC_EN p) = false ∨ x.loss = true) → Completes (.audStop m p rest) s fun t =>
        t.audState p = 0 ∧ t.audPort p = {} ∧ t.queue (State.audQ p) = [] ∧ (∀ j, j ≠ p.val → t.audPort j = s.audPort j) ∧
        Only ([.mem, .fab, .queues, .leaves, .aud] ++ sideParts) s t) ∧
      (∀ j, s.audState p = 2 → s.flag (Reg.AUD_ZC_EN p) = true → x.loss = false → j ∈ s.audMask p → x.gates.get (fun _ => 0) j = 1 →
        Completes (.audStop m p rest) s fun t => t.audState p = 3 ∧ t.audPort p = x ∧ Frame [] [A, A + 0x24] s t) ∧
      (s.audState p = 0 → Completes (.audAbort m p rest) s fun t =>
        t.flag (Reg.AUD_EVENT_WRITE_REJECT p) = true ∧ Frame [] [A, A + 0x28] s t) ∧
      (s.audState p ≠ 0 → Completes (.audAbort m p rest) s fun t =>
        (t.audPort p).abort = true ∧ (∀ j ∈ s.audMask p, (t.audPort p).gates.get (fun _ => 0) j = 2) ∧ Frame [.aud] [A] s t)) ∧
    (∀ (m : Fin 32) (h : BitVec 16), s.mayWrite m.val (A + 0x20) .plain = true →
      ((s.queue (State.audQ p)).length < 8 → Completes (.audPush m p h) s fun t =>
        t.queue (State.audQ p) = s.queue (State.audQ p) ++ [⟨h.toNat, 0, false⟩] ∧ Frame [.queues] [] s t) ∧
      (8 ≤ (s.queue (State.audQ p)).length → Completes (.audPush m p h) s fun t =>
        t.flag (Reg.AUD_EVENT_PUSH_LOST p) = true ∧
        t.fld (Reg.AUD_CNT_1_PUSH_LOST p) = min (s.fld (Reg.AUD_CNT_1_PUSH_LOST p) + 1) 65535 ∧ Frame [] [A + 0x28, A + 0x34] s t)) ∧
    (∀ samples : List (BitVec 32), s.audState p = 0 ∨ s.audTimed p = true ∧ s.frameDue p (x.idx.getD 0) = false ∨ bit s.pwr.audClock p = true →
      exec (.audFrame p samples) s = .next s) ∧
    (∀ (samples : List (BitVec 32)) (tk : Nat × Nat), s.audState p ≠ 0 → (s.audTimed p = true → s.frameDue p (x.idx.getD 0) = true) →
      bit s.pwr.audClock p = false → tk = s.frameTime p (x.idx.getD 0) →
      (x.abort = true → Completes (.audFrame p samples) s fun t =>
        t.audState p = 0 ∧ t.audPort p = {} ∧ t.queue (State.audQ p) = []) ∧
      (x.abort = false → s.audState p = 1 → s.startReached p tk.1 = false → Completes (.audFrame p samples) s fun t =>
        t.audState p = 1 ∧ t.flag (Reg.AUD_STATUS_CLK_OK p) = true ∧ (t.audPort p).blk = x.blk ∧ Frame [.aud] [A + 0x24] s t) ∧
      (x.abort = false → s.audState p = 1 ∧ s.startReached p tk.1 = true ∨ s.audState p = 2 →
        s.flag (Reg.AUD_ZC_EN p) = false → (∀ j, x.gates.get (fun _ => 0) j ≠ 2) →
        (∀ bs : List Byte, s.flag (Reg.AUD_CFG_DIR p) = false → s.replaying = false → s.flag (Reg.AUD_BLOCK_ALIGN p) = false →
          bs = ((s.audMask p).map fun j =>
            storeSample (s.fld (Reg.AUD_CFG_STORE p)) (s.audDw p) ((samples.getD j 0).toNat % 2 ^ s.audDw p)).flatten →
          (∀ b, x.blk = some b → b.n + 1 < s.audFrames p → Completes (.audFrame p samples) s fun t =>
            t.audState p = 2 ∧ (∃ f, (t.audPort p).blk = some { b with n := b.n + 1, bytes := b.bytes ++ bs, flags := f }) ∧
            Frame [.aud] [A + 0x24] s t) ∧
          (∀ b, x.blk = some b → s.audFrames p ≤ b.n + 1 → Completes (.audFrame p samples) s fun t =>
            t.audState p = 2 ∧ (t.audPort p).blk = none ∧ Only ([.mem, .fab, .queues, .leaves, .aud] ++ sideParts) s t) ∧
          (∀ e es, x.blk = none → s.queue (State.audQ p) = e :: es → e.h ≠ 0 → (s.berth e.h).st = .held → (s.berth e.h).count < 255 →
            Completes (.audFrame p samples) s fun t =>
              t.queue (State.audQ p) = es ∧ (t.berth e.h).count = (s.berth e.h).count + 1 ∧
              t.fld (Reg.AUD_SEQ_SEQ p) = (s.fld (Reg.AUD_SEQ_SEQ p) + 1) % 2 ^ 32 ∧
              (∃ b, (t.audPort p).blk = some b ∧ b.h = e.h ∧ b.seq = s.fld (Reg.AUD_SEQ_SEQ p) ∧ b.n = 1 ∧ b.bytes = bs) ∧
              Frame [.aud, .queues, .fab] [A + 0x24, A + 0x3C] s t) ∧
          (x.blk = none → s.queue (State.audQ p) = [] → Completes (.audFrame p samples) s fun t =>
            t.flag (Reg.AUD_EVENT_NO_BERTH p) = true ∧
            t.fld (Reg.AUD_CNT_1_NO_BERTH p) = min (s.fld (Reg.AUD_CNT_1_NO_BERTH p) + 1) 65535 ∧
            (∃ b, (t.audPort p).blk = some b ∧ b.h = 0 ∧ b.n = 1) ∧ Frame [.aud] [A + 0x24, A + 0x28, A + 0x34, A + 0x3C] s t)) ∧
        (s.flag (Reg.AUD_CFG_DIR p) = true →
          (x.head = none → s.queue (State.audQ p) = [] → Completes (.audFrame p samples) s fun t =>
            (t.audPort p).outs = List.replicate (s.audSlots p) 0 ∧ t.flag (Reg.AUD_EVENT_UNDERRUN p) = true ∧
            t.fld (Reg.AUD_CNT_0_UNDERRUN p) = min (s.fld (Reg.AUD_CNT_0_UNDERRUN p) + 1) (2 ^ 32 - 1) ∧
            Frame [.aud] [A + 0x24, A + 0x28, A + 0x30] s t) ∧
          (∀ (o : AudHead) (i b n : Nat), x.head = some o → State.frameIndex tk.1 o.t0 (s.audFs p) = i → i + 1 < o.frames →
            bit s.pwr.audData p = false → (o.last = none ∨ ∃ l, o.last = some l ∧ i = l + 1) →
            b = storeBytesOf (s.fld (Reg.AUD_CFG_STORE p)) → n = (s.audMask p).length * b → s.accessCause 20 o.h (64 + i * n) n = 0 →
            Completes (.audFrame p samples) s fun t =>
              (∀ a j, (s.audMask p)[a]? = some j → j < s.audSlots p → (t.audPort p).outs.getD j 0 =
                loadSample (s.fld (Reg.AUD_CFG_STORE p)) (s.audDw p) (((s.peek o.h (64 + i * n) n).drop (a * b)).take b)) ∧
              (t.audPort p).head = some { o with last := some i } ∧ Frame [.aud] [A + 0x24] s t)))) ∧
    (s.flag (Reg.AUD_CFG_ROLE p) = false ∨ (s.now - x.lastAt) * s.audFs p < 8 * 1000000000 ∨ s.audState p = 0 ∨ x.loss = true →
      exec (.audClockLoss p) s = .next s) ∧
    (s.flag (Reg.AUD_CFG_ROLE p) = true → 8 * 1000000000 ≤ (s.now - x.lastAt) * s.audFs p → s.audState p ≠ 0 → x.loss = false →
      Completes (.audClockLoss p) s fun t =>
        t.flag (Reg.AUD_EVENT_CLK_LOSS p) = true ∧ t.flag (Reg.AUD_STATUS_CLK_OK p) = false ∧
        (s.audState p ≠ 3 → t.audState p = s.audState p ∧ (t.audPort p).loss = true ∧ (t.audPort p).blk = none) ∧
        (s.audState p = 3 → t.audState p = 0) ∧ Only ([.mem, .fab, .queues, .leaves, .aud] ++ sideParts) s t) ∧
    (∀ j : Fin 16,
      (j.val ∉ s.audMask p ∨ s.flag (Reg.AUD_ZC_EN p) = false → exec (.zcTimeout p j) s = .next s) ∧
      (j.val ∈ s.audMask p → s.flag (Reg.AUD_ZC_EN p) = true → s.audState p = 2 → x.gates.get (fun _ => 0) j = 0 →
        s.fld (Reg.AUD_ZC_TIMEOUT p) ≤ x.waited → Completes (.zcTimeout p j) s fun t =>
          t.audPort p = { x with gates := x.gates.set (fun _ => 0) j 1 } ∧ Frame [.aud] [] s t) ∧
      (j.val ∈ s.audMask p → s.flag (Reg.AUD_ZC_EN p) = true → s.audState p = 3 → x.gates.get (fun _ => 0) j = 1 →
        s.fld (Reg.AUD_ZC_TIMEOUT p) ≤ x.stopped → (∀ i ∈ s.audMask p, i ≠ j.val → x.gates.get (fun _ => 0) i ≠ 1) →
        Completes (.zcTimeout p j) s fun t => t.audState p = 0 ∧ t.audPort p = {} ∧ t.queue (State.audQ p) = [])) ∧
    ∀ (g : Fin 4) (G : Nat), G = 0x1F0100 + 0x20 * g.val →
      (s.scgWord g = false → exec (.scgLocked g) s = .next s ∧ exec (.scgHoldover g) s = .next s) ∧
      (s.scgWord g = true → s.fld (Reg.AUD_SCG_STATUS_STATE g) = 1 ∨ s.fld (Reg.AUD_SCG_STATUS_STATE g) = 3 →
        Completes (.scgLocked g) s fun t => t.fld (Reg.AUD_SCG_STATUS_STATE g) = 2 ∧ Frame [] [G + 8] s t) ∧
      (s.scgWord g = true → s.fld (Reg.AUD_SCG_STATUS_STATE g) = 2 → Completes (.scgHoldover g) s fun t =>
        t.fld (Reg.AUD_SCG_STATUS_STATE g) = 3 ∧ t.fld (Reg.AUD_SCG_STATUS_LOSS g) = min (s.fld (Reg.AUD_SCG_STATUS_LOSS g) + 1) 65535 ∧
        (s.audGen p = g.val → t.flag (Reg.AUD_EVENT_CLK_LOSS p) = true) ∧ Only sideParts s t)

/-- R394 to R403: two-wire buses. ENABLE makes a bus that is OFF IDLE, or runs the bus clear where SDA is held low; DISABLE ends its transfers and makes it OFF; CLEAR of an ISOLATED bus runs the bus clear, which makes it IDLE or leaves it ISOLATED; ABORT ends its transfers. XFER on a bus that can send as controller waits, BUSY, for a free bus; an ALERT likewise; both are rejected elsewhere. The oldest waiting transfer starts on a free bus, or loses arbitration, is counted and tried again up to RETRY times; it ends with what the target answered, or at the stretch limit. A target write becomes TWB_RX dockets, a target read the bytes prepared. A stuck clock or a supply fault latches FAULT; the bus recovers after 1 ms. A control-target access with a good CRC is a control access of master 2; a write with a bad one is counted, a read of it answers 0xFF. -/
def Obligations.TwoWireBusesTransfer : Prop :=
  ∀ (b : Fin 8) (B : Nat) (s : State) (y : Twb), B = 0x1F8000 + 0x200 * b.val → y = s.twb b →
    (∀ (m : Fin 32) (rest : BitVec 28) (line : TwbLine), s.mayWrite m.val B .plain = true →
      (s.twbState b = 0 → 1 ≤ s.twbMode b → s.twbMode b ≤ 4 →
        (line.scl = false ∨ line.sda = true → Completes (.twbEnable m b rest line) s fun t =>
          t.twbState b = 1 ∧ t.flag (Reg.TWB_STATUS_SCL b) = line.scl ∧ t.flag (Reg.TWB_STATUS_SDA b) = line.sda ∧ Frame [] [B, B + 0x40] s t) ∧
        (line.scl = true → line.sda = false → line.short = false → Completes (.twbEnable m b rest line) s fun t =>
          t.twbState b = (if busClear 9 line.clear = true then 1 else 4) ∧ Frame [] [B, B + 0x40, B + 0x44] s t)) ∧
      (s.twbState b ≠ 0 ∨ s.twbMode b = 0 → Completes (.twbEnable m b rest line) s fun t => Frame [] [B] s t) ∧
      (s.twbState b = 4 → line.short = false → Completes (.twbClear m b rest line) s fun t =>
        t.twbState b = (if busClear 9 line.clear = true then 1 else 4) ∧
        t.fld (Reg.TWB_STATUS_FAULT b) = (if busClear 9 line.clear = true then 0 else 1) ∧ Frame [] [B, B + 0x40, B + 0x44] s t) ∧
      (Completes (.twbDisable m b rest) s fun t =>
        t.twbState b = 0 ∧ (t.twb b).cur = none ∧ (t.twb b).wait = [] ∧ (∀ j, j ≠ b.val → t.twb j = s.twb j) ∧
        Frame [.twbs, .fresh] [B, B + 0x1C, B + 0x40, B + 0x44] s t) ∧
      (y.cur = none → y.wait = [] → Completes (.twbAbort m b rest) s fun t => Frame [.twbs, .fresh] [B] s t) ∧
      (∀ x since, y.cur = some (x, since) → x.alert = false → y.wait = [] → s.twbState b = 2 → Completes (.twbAbort m b rest) s fun t =>
        t.twbState b = 1 ∧ (t.twb b).cur = none ∧ t.fld (Reg.TWB_XFER_STATUS_RESULT b) = 7 ∧
        t.flag (Reg.TWB_XFER_STATUS_BUSY b) = false ∧ t.flag (Reg.TWB_EVENT_XFER_DONE b) = true ∧
        Frame [.twbs, .fresh] [B, B + 0x1C, B + 0x40, B + 0x44] s t)) ∧
    (∀ (m : Fin 32) (rest : BitVec 31), s.mayWrite m.val (B + 0x10) .plain = true →
      (s.xferPending b = true → Completes (.twbXfer m b rest) s fun t =>
        t.fld (Reg.TWB_XFER_STATUS_RESULT b) = 5 ∧ t.twb b = y ∧ Frame [] [B + 0x1C] s t) ∧
      (s.xferPending b = false → s.twbController b = false → Completes (.twbXfer m b rest) s fun t =>
        t.flag (Reg.TWB_EVENT_WRITE_REJECT b) = true ∧ Frame [] [B + 0x44] s t) ∧
      (s.xferPending b = false → s.twbController b = true → s.twbState b ≠ 4 → Completes (.twbXfer m b rest) s fun t =>
        t.twb b = { y with wait := y.wait ++ [{
          alert := false, ten := bit rest.toNat 30, addr := bits rest.toNat 25 16
          wr := (bytesLE 4 (s.fld (Reg.TWB_TXD_0 b)) ++ bytesLE 4 (s.fld (Reg.TWB_TXD_1 b))).take (bits rest.toNat 3 0)
          rdLen := min 8 (bits rest.toNat 11 8) }] } ∧
        t.flag (Reg.TWB_XFER_STATUS_BUSY b) = true ∧ Frame [.twbs] [B + 0x1C] s t)) ∧
    (∀ (m : Fin 32) (rest : BitVec 31), s.mayWrite m.val (B + 0x34) .plain = true →
      (s.twbMode b ≠ 3 ∨ s.twbState b = 0 → Completes (.twbAlert m b rest) s fun t =>
        t.flag (Reg.TWB_EVENT_WRITE_REJECT b) = true ∧ Frame [] [B + 0x34, B + 0x44] s t) ∧
      (s.twbMode b = 3 → s.twbState b = 1 → (∀ z ∈ y.wait, z.alert = false) → y.cur = none → Completes (.twbAlert m b rest) s fun t =>
        (∃ x, (t.twb b).wait = y.wait ++ [x] ∧ x.alert = true ∧ x.addr = bits rest.toNat 25 16 ∧ x.rdLen = 0) ∧
        Frame [.twbs] [B + 0x34] s t)) ∧
    (∀ (line : TwbLine) (lost : Option TwbLoss),
      y.wait = [] ∨ s.replayMode = true ∨ s.twbState b ≠ 1 ∨ s.flag (Reg.TWB_STATUS_BUS_BUSY b) = true ∨ s.fld (Reg.TWB_STATUS_FAULT b) ≠ 0 ∨
        line.scl = false → exec (.twbXferStart b line lost) s = .next s) ∧
    (∀ (line : TwbLine) (x : TwbXfer) (xs : List TwbXfer), y.wait = x :: xs → s.replayMode = false → s.twbState b = 1 →
      s.flag (Reg.TWB_STATUS_BUS_BUSY b) = false → s.fld (Reg.TWB_STATUS_FAULT b) = 0 → line.scl = true → line.sda = true → line.short = false →
      (Completes (.twbXferStart b line none) s fun t =>
        t.twb b = { y with wait := xs, cur := some (x, s.now) } ∧ t.twbState b = 2 ∧ t.flag (Reg.TWB_STATUS_BUS_BUSY b) = true ∧
        Frame [.twbs] [B + 0x40] s t) ∧
      ∀ l : TwbLoss, s.twbMode b = 1 →
        (x.lost < s.fld (Reg.TWB_CFG_RETRY b) → Completes (.twbXferStart b line (some l)) s fun t =>
          t.twb b = { y with wait := { x with lost := x.lost + 1 } :: xs } ∧ t.flag (Reg.TWB_EVENT_ARB_LOST b) = true ∧
          t.fld (Reg.TWB_CNT_ARB_LOST b) = min (s.fld (Reg.TWB_CNT_ARB_LOST b) + 1) 65535 ∧ Frame [.twbs] [B + 0x40, B + 0x44, B + 0x4C] s t) ∧
        (s.fld (Reg.TWB_CFG_RETRY b) ≤ x.lost → x.alert = false → Completes (.twbXferStart b line (some l)) s fun t =>
          t.twb b = { y with wait := xs } ∧ t.fld (Reg.TWB_XFER_STATUS_RESULT b) = 3 ∧ t.flag (Reg.TWB_XFER_STATUS_BUSY b) = false)) ∧
    (∀ a : TwbAnswer, y.cur = none → exec (.twbXferDone b a) s = .next s) ∧
    (∀ x since, y.cur = some (x, since) → x.alert = false →
      (∀ bs : List Byte, bs.length = x.rdLen → 0 < x.rdLen → x.rdLen ≤ 8 → Completes (.twbXferDone b (.ok bs)) s fun t =>
        t.twbState b = 1 ∧ (t.twb b).cur = none ∧ t.fld (Reg.TWB_XFER_STATUS_RESULT b) = 0 ∧ t.fld (Reg.TWB_XFER_STATUS_BYTES b) = x.rdLen ∧
        t.fld2 (Reg.TWB_RXD_0 b) (Reg.TWB_RXD_1 b) = ofBytesLE bs ∧ t.flag (Reg.TWB_EVENT_XFER_DONE b) = true ∧
        Frame [.twbs] [B + 0x1C, B + 0x20, B + 0x24, B + 0x40, B + 0x44] s t) ∧
      (Completes (.twbXferDone b .nackAddr) s fun t =>
        t.twbState b = 1 ∧ t.fld (Reg.TWB_XFER_STATUS_RESULT b) = 1 ∧ t.flag (Reg.TWB_EVENT_NACK b) = true ∧
        Frame [.twbs] [B + 0x1C, B + 0x40, B + 0x44] s t) ∧
      (s.now < since + State.msCycles (s.fld (Reg.TWB_TIMING_STRETCH_MS b)) → exec (.twbStretchTimeout b) s = .next s) ∧
      (since + State.msCycles (s.fld (Reg.TWB_TIMING_STRETCH_MS b)) ≤ s.now → s.twbState b = 2 → Completes (.twbStretchTimeout b) s fun t =>
        t.twbState b = 1 ∧ (t.twb b).cur = none ∧ t.fld (Reg.TWB_XFER_STATUS_RESULT b) = 4 ∧
        Frame [.twbs] [B + 0x1C, B + 0x40, B + 0x44] s t)) ∧
    (y.cur = none → exec (.twbStretchTimeout b) s = .next s) ∧
    (s.twbTarget b = false → (∀ g bs, exec (.twbTargetWrite b g bs) s = .next s) ∧ ∀ n, exec (.twbTargetRead b n) s = .next s) ∧
    (s.twbTarget b = true →
      (∀ bs : List Byte, y.pre = [] → bs ≠ [] → bs.length ≤ 8 → Completes (.twbTargetWrite b false bs) s fun t =>
        Posts 0x0C b bs.length (ofBytesLE bs) s t ∧ t.twbState b = 1 ∧ Frame [.twbs] [B + 0x40] s t) ∧
      ∀ (n : Nat) (own : List Byte),
        own = (bytesLE 4 (s.fld (Reg.TWB_TGT_TXD_0 b)) ++ bytesLE 4 (s.fld (Reg.TWB_TGT_TXD_1 b))).take (s.fld (Reg.TWB_TGT_LEN b)) →
        Completes (.twbTargetRead b n) s fun t =>
          (t.twb b).resp = own.take n ++ List.replicate (n - own.length) 0xFF ∧
          t.fld (Reg.TWB_CNT_OVERREAD b) = min (s.fld (Reg.TWB_CNT_OVERREAD b) + (n - own.length)) 255 ∧ t.twbState b = 1 ∧
          Frame [.twbs] [B + 0x40, B + 0x4C] s t) ∧
    (s.twbState b = 0 ∨ s.twbState b = 4 → exec (.sclStuck b) s = .next s ∧ exec (.twbSupplyFault b) s = .next s) ∧
    (s.twbState b ≠ 0 → s.twbState b ≠ 4 → y.cur = none →
      (Completes (.sclStuck b) s fun t =>
        t.fld (Reg.TWB_STATUS_FAULT b) = 2 ∧ t.flag (Reg.TWB_EVENT_FAULT b) = true ∧ (t.twb b).faultAt = s.now ∧
        Frame [.twbs] [B + 0x40, B + 0x44] s t) ∧
      (Completes (.twbSupplyFault b) s fun t =>
        t.fld (Reg.TWB_STATUS_FAULT b) = 4 ∧ t.flag (Reg.TWB_EVENT_FAULT b) = true ∧ (t.twb b).faultAt = s.now ∧
        Frame [.twbs] [B + 0x40, B + 0x44] s t)) ∧
    ((s.fld (Reg.TWB_STATUS_FAULT b) ≠ 2 ∧ s.fld (Reg.TWB_STATUS_FAULT b) ≠ 4) ∨ s.now < y.faultAt + State.msCycles 1 →
      exec (.twbFaultRecover b) s = .next s) ∧
    (s.fld (Reg.TWB_STATUS_FAULT b) = 2 ∨ s.fld (Reg.TWB_STATUS_FAULT b) = 4 → y.faultAt + State.msCycles 1 ≤ s.now →
      Completes (.twbFaultRecover b) s fun t => t.fld (Reg.TWB_STATUS_FAULT b) = 0 ∧ Frame [] [B + 0x40] s t) ∧
    (s.pwr.asleep = false ∨ s.flag (Reg.TWB_CFG_WAKE b) = false → exec (.twbWakeMatch b) s = .next s) ∧
    (s.pwr.asleep = true → s.flag (Reg.TWB_CFG_WAKE b) = true → 2 ≤ s.twbMode b → s.twbMode b ≤ 4 → s.pwr.wake = none → s.fld Reg.PWR_STATUS_STATE = 1 →
      Completes (.twbWakeMatch b) s fun t => (t.twb b).woke = true ∧ t.fld Reg.PWR_STATUS_STATE = 2 ∧ t.pwr.wake = some (false, b.val) ∧ Only ([.twbs, .pwr] ++ sideParts) s t) ∧
    (∀ (cmd : Byte) (a v : Word) (crc : Byte) (n : Nat), s.ctBus b = false →
      exec (.ctWrite b cmd a v crc) s = .next s ∧ exec (.ctRead b cmd a crc n) s = .next s) ∧
    (∀ (a v : Word) (crc : Byte), s.ctBus b = true →
      (s.ctCrc b 0 ([1] ++ bytesLE 4 a.toNat ++ bytesLE 4 v.toNat) = crc.toNat → Completes (.ctWrite b 1 a v crc) s fun t =>
        exec (.registerWrite 2 a 15 v) s = .next t) ∧
      (s.ctCrc b 0 ([1] ++ bytesLE 4 a.toNat ++ bytesLE 4 v.toNat) ≠ crc.toNat → Completes (.ctWrite b 1 a v crc) s fun t =>
        t.flag (Reg.TWB_EVENT_CRC_ERR b) = true ∧ t.fld (Reg.TWB_CNT_CRC b) = min (s.fld (Reg.TWB_CNT_CRC b) + 1) 255 ∧
        Frame [] [B + 0x44, B + 0x4C] s t) ∧
      (s.ctCrc b 0 ([2] ++ bytesLE 4 a.toNat) = crc.toNat → ∀ r, exec (.rcRead 2 a 15) s = .next r →
        Completes (.ctRead b 2 a crc 5) s fun t =>
          (t.twb b).resp = bytesLE 4 r.rsp.toNat ++ bytesLE 1 (s.ctCrc b 1 (bytesLE 4 r.rsp.toNat)) ∧ Only ([.fresh, .latched, .twbs] ++ sideParts) s t) ∧
      (s.ctCrc b 0 ([2] ++ bytesLE 4 a.toNat) ≠ crc.toNat → ∀ n : Nat, Completes (.ctRead b 2 a crc n) s fun t =>
        (t.twb b).resp = List.replicate n 0xFF ∧ Frame [.twbs] [] s t))

/-- R404, R406, R407: GPIO. An accepted edge changes the input bit of its pin alone, and the edges a pin's EDGE selects are posted. A driven pin that reads the other level is in FAULT, its kind the level it drove, and is released: it drives nothing until a retry passes or its bit is written with 1; a pin that reads what it drives, or drives nothing, is not. A retry before its time, or with RETRY_MS 0, does nothing; one that fails is tried again. An event pin likewise shows 1 or 2 and de-asserts. -/
def Obligations.GpioEdgesAndFaults : Prop :=
  ∀ (s : State),
    (∀ (n : Fin 160) (v : Bool),
      (s.pinBit 0x1FC460 n = v → exec (.gpioEdge n v) s = .next s) ∧
      (s.pinBit 0x1FC460 n ≠ v → Completes (.gpioEdge n v) s fun t =>
        t.pinBit 0x1FC460 n = v ∧ (∀ k, k < 160 → k ≠ n.val → t.pinBit 0x1FC460 k = s.pinBit 0x1FC460 k) ∧
        (bit (s.fld (Reg.GPIO_PAD_EDGE n)) (if v = true then 0 else 1) = true → Posts 0x0A n (b01 v) 0 s t) ∧
        Frame [] [0x1FC460 + 4 * (n.val / 32)] s t)) ∧
    (∀ (n : Fin 160) (level : Bool),
      (s.gpioDrive n = none ∨ s.gpioDrive n = some level → exec (.gpioDriveFault (.gpio n) level) s = .next s) ∧
      (s.gpioDrive n = some (!level) → Completes (.gpioDriveFault (.gpio n) level) s fun t =>
        t.pinBit 0x1FC480 n = true ∧ t.pinBit 0x1FC4A0 n = !level ∧ t.gpioDrive n = none ∧ t.flag Reg.GPIO_EVENT_FAULT = true ∧
        (∀ k, k < 160 → k ≠ n.val → t.gpioDrive k = s.gpioDrive k) ∧
        (s.fld Reg.GPIO_PROTECT_RETRY_MS ≠ 0 →
          t.gpio.retryAt.get (fun _ => 0) n = s.now + State.msCycles (s.fld Reg.GPIO_PROTECT_RETRY_MS)) ∧
        Frame [.gpio] [0x1FC480 + 4 * (n.val / 32), 0x1FC4A0 + 4 * (n.val / 32), 0x1FC500] s t)) ∧
    (∀ (n : Fin 160) (pass : Bool) (at_ : Nat), at_ = s.gpio.retryAt.get (fun _ => 0) n →
      (s.pinBit 0x1FC480 n = false ∨ at_ = 0 ∨ s.now < at_ → exec (.gpioFaultRetry (.gpio n) pass) s = .next s) ∧
      (s.pinBit 0x1FC480 n = true → at_ ≠ 0 → at_ ≤ s.now →
        (Completes (.gpioFaultRetry (.gpio n) true) s fun t =>
          t.pinBit 0x1FC480 n = false ∧ (∀ k, k < 160 → k ≠ n.val → t.pinBit 0x1FC480 k = s.pinBit 0x1FC480 k) ∧
          Frame [.gpio] [0x1FC480 + 4 * (n.val / 32)] s t) ∧
        (Completes (.gpioFaultRetry (.gpio n) false) s fun t =>
          t.pinBit 0x1FC480 n = true ∧ t.gpio.retryAt.get (fun _ => 0) n =
            (if s.fld Reg.GPIO_PROTECT_RETRY_MS = 0 then 0 else s.now + State.msCycles (s.fld Reg.GPIO_PROTECT_RETRY_MS)) ∧
          Frame [.gpio] [] s t))) ∧
    (∀ (i : Fin 16) (level pass : Bool) (P : Nat), P = 0x1FE028 + 0x40 * i.val →
      (s.evtDrive i = none ∨ s.evtDrive i = some level → exec (.gpioDriveFault (.evt i) level) s = .next s) ∧
      (s.evtDrive i = some (!level) → Completes (.gpioDriveFault (.evt i) level) s fun t =>
        t.fld (Reg.EVT_PAD_FAULT i) = (if level = true then 2 else 1) ∧ (t.evtPin i).asserted = false ∧ t.evtDrive i = none ∧
        t.flag Reg.GPIO_EVENT_FAULT = true ∧ Frame [.time] [P, 0x1FC500] s t) ∧
      (s.fld (Reg.EVT_PAD_FAULT i) = 0 ∨ (s.evtPin i).retryAt = 0 ∨ s.now < (s.evtPin i).retryAt →
        exec (.gpioFaultRetry (.evt i) pass) s = .next s) ∧
      (s.fld (Reg.EVT_PAD_FAULT i) ≠ 0 → (s.evtPin i).retryAt ≠ 0 → (s.evtPin i).retryAt ≤ s.now →
        Completes (.gpioFaultRetry (.evt i) true) s fun t => t.fld (Reg.EVT_PAD_FAULT i) = 0 ∧ Frame [.time] [P] s t)) ∧
    (∀ (m : Fin 32) (w : Fin 5) (v : Word), s.mayWrite m.val (0x1FC480 + 4 * w.val) .plain = true →
      (∀ e ∈ s.evSet, e.1 ≠ 0x1FC480 + 4 * w.val) → Completes (.gpioFaultClear m (.gpio w v)) s fun t =>
        (∀ k, k < 32 → t.pinBit 0x1FC480 (32 * w.val + k) = (s.pinBit 0x1FC480 (32 * w.val + k) && !v.getLsbD k) ∧
          (v.getLsbD k = true → t.gpio.retryAt.get (fun _ => 0) (32 * w.val + k) = 0)) ∧
        Frame [.gpio] [0x1FC480 + 4 * w.val] s t) ∧
    ∀ (m : Fin 32) (i : Fin 16) (v : Word), s.mayWrite m.val (0x1FE028 + 0x40 * i.val) .plain = true → v.getLsbD 28 = true →
      Completes (.gpioFaultClear m (.evt i v)) s fun t =>
        t.fld (Reg.EVT_PAD_FAULT i) = 0 ∧ (t.evtPin i).retryAt = 0 ∧ Only ([.time] ++ sideParts) s t

/-- R410 to R414, R419 to R421, R427 to R430: SEC commands. SEC_READY ends the self-tests READY or FAIL. A command while BUSY answers BUSY; one before READY, a burn by a pilot and one with a bad argument end with their results. CERT_LOAD keeps a chain that verifies; OWNER_BURN burns the first root's hash, OWNER_REVOKE a revocation that another live owner signed, POLICY_BURN policy bits; RECIP_SET keeps a recipient; CLIP_OPEN draws a clip key and writes its key block, CLIP_LOAD unwraps one, CLIP_CLOSE forgets it; ARRAY_KEY unwraps the array key; ATTEST writes the report. SEC_CMD_DONE shows the result and raises CMD_DONE. -/
def Obligations.SecurityCommands : Prop :=
  ∀ (m : Fin 32) (rest : BitVec 28) (burnt : Bool) (s : State) (k h : Nat), k = rest.toNat / 65536 % 256 → h = rest.toNat % 65536 →
    (∀ ok : Bool, s.secReady = true ∨ s.flag Reg.SEC_STATUS_FAIL = true → exec (.secReady ok) s = .next s) ∧
    (s.secReady = false → s.flag Reg.SEC_STATUS_FAIL = false →
      (Completes (.secReady true) s fun t => t.secReady = true ∧
        t.fld2 Reg.SEC_ID_LO Reg.SEC_ID_HI = ofBytesLE ((Sha.sha384 idEcPub).take 8) ∧ Only sideParts s t) ∧
      (Completes (.secReady false) s fun t => t.flag Reg.SEC_STATUS_FAIL = true ∧ Frame [] [0x40014] s t)) ∧
    (s.sec.cmd = none → exec .secCmdDone s = .next s) ∧
    (∀ op r, s.sec.cmd = some (op, r) → r < 16 → Completes .secCmdDone s fun t =>
      t.flag Reg.SEC_CMD_STATUS_BUSY = false ∧ t.fld Reg.SEC_CMD_STATUS_RESULT = r ∧ t.flag Reg.SEC_EVENT_CMD_DONE = true ∧
      t.sec = { s.sec with cmd := none } ∧ Frame [.sec] [0x40010, 0x40020] s t) ∧
    (∀ c ∈ [Instr.certLoad m rest, .ownerBurn m rest burnt, .ownerRevoke m rest burnt, .policyBurn m rest burnt, .recipSet m rest,
        .clipOpen m rest, .clipLoad m rest, .clipClose m rest, .arrayKey m rest, .attest m rest], s.mayWrite m.val 0x40000 .plain = true →
      (s.flag Reg.SEC_CMD_STATUS_BUSY = true → Completes c s fun t =>
        t.fld Reg.SEC_CMD_STATUS_RESULT = 1 ∧ t.sec = s.sec ∧ Frame [.fresh] [0x40000, 0x40010] s t) ∧
      (s.flag Reg.SEC_CMD_STATUS_BUSY = false → s.secReady = false → Completes c s fun t =>
        (∃ op, t.sec = { s.sec with cmd := some (op, 11) }) ∧ t.flag Reg.SEC_CMD_STATUS_BUSY = true ∧ Frame [.fresh, .sec] [0x40000, 0x40010] s t)) ∧
    (∀ c ∈ [Instr.ownerBurn m rest burnt, .ownerRevoke m rest burnt, .policyBurn m rest burnt], s.mayWrite m.val 0x40000 .plain = true →
      16 ≤ m.val → s.flag Reg.SEC_CMD_STATUS_BUSY = false → s.secReady = true → Completes c s fun t =>
        (∃ op, t.sec = { s.sec with cmd := some (op, 12) }) ∧ Frame [.sec] [0x40000, 0x40010] s t) ∧
    (s.secTakes m →
      (∀ bs n, n = s.fld Reg.SEC_CMD_ARG_ARG → 1 ≤ n → n ≤ 16384 → s.secSees h n bs →
        (Config.certsOk bs idEcPub idMlPub = true → Completes (.certLoad m rest) s fun t =>
          t.sec.certs = bs ∧ t.flag Reg.SEC_STATUS_CERT_OK = true ∧ SecRuns 1 0 [] s t) ∧
        (Config.certsOk bs idEcPub idMlPub = false → Completes (.certLoad m rest) s fun t =>
          t.sec.certs = [] ∧ t.flag Reg.SEC_STATUS_CERT_OK = false ∧ SecRuns 1 9 [] s t)) ∧
      (∀ bs, k < 4 → s.anyOwner = false → s.secSees h 2049 bs → Completes (.ownerBurn m rest burnt) s fun t =>
        (burnt = true → t.ownerSlot k = slotHash (bs.take 97) (slice bs 97 1952) ∧ (∀ j, j ≠ k → t.ownerSlot j = s.ownerSlot j) ∧
          SecRuns 2 0 [] s t) ∧
        (burnt = false → t.sec.slots = s.sec.slots ∧ SecRuns 2 10 [] s t)) ∧
      (4 ≤ k ∨ s.ownerSlot k ≠ [] → Completes (.ownerBurn m rest burnt) s fun t => t.sec.slots = s.sec.slots ∧ SecRuns 2 2 [] s t) ∧
      (s.slotLive k = false → Completes (.ownerRevoke m rest burnt) s fun t => t.sec.revoked = s.sec.revoked ∧ SecRuns 3 2 [] s t) ∧
      (s.slotLive k = true → (∀ j, j < 4 → j ≠ k → s.slotLive j = false) → Completes (.ownerRevoke m rest burnt) s fun t =>
        t.sec.revoked = s.sec.revoked ∧ SecRuns 3 6 [] s t) ∧
      (∀ bs j, s.slotLive k = true → s.secSees h 5455 bs → j = hdrAt bs 0 1 → j ≠ k → s.slotLive j = true →
        slotHash (slice bs 1 97) (slice bs 98 1952) = s.ownerSlot j →
        dualVerify (slice bs 1 97) (slice bs 98 1952) (statement "DXM-REVOKE" (Sha.sha384 (bytesLE 1 k))) (slice bs 2050 3405) = true →
        burnt = true → Completes (.ownerRevoke m rest burnt) s fun t => t.slotLive k = false ∧ SecRuns 3 0 [] s t) ∧
      (s.anyOwner = true → k < 8 → burnt = true → Completes (.policyBurn m rest burnt) s fun t =>
        t.sec.policy = s.sec.policy ||| k ∧ SecRuns 4 0 [] s t) ∧
      (s.anyOwner = false ∨ 8 ≤ k → Completes (.policyBurn m rest burnt) s fun t => t.sec.policy = s.sec.policy ∧ SecRuns 4 2 [] s t) ∧
      (∀ bs, k < 4 → s.secSees h 97 bs → Completes (.recipSet m rest) s fun t =>
        t.sec.recips.get (fun _ => []) k = bs ∧ SecRuns 5 0 [] s t) ∧
      (4 ≤ k → Completes (.recipSet m rest) s fun t => t.sec.recips = s.sec.recips ∧ SecRuns 5 2 [] s t) ∧
      (∀ clip, clip = s.fld Reg.SEC_CMD_ARG_ARG →
        (s.clipOpenFor clip = true →
          (Completes (.clipOpen m rest) s fun t => t.sec.clips = s.sec.clips ∧ SecRuns 6 2 [] s t) ∧
          (Completes (.clipLoad m rest) s fun t => t.sec.clips = s.sec.clips ∧ SecRuns 7 2 [] s t) ∧
          (Completes (.clipClose m rest) s fun t => t.clipOpenFor clip = false ∧ SecRuns 8 0 [] s t)) ∧
        (s.clipOpenFor clip = false →
          (Completes (.clipClose m rest) s fun t => t.sec.clips = s.sec.clips ∧ SecRuns 8 5 [] s t) ∧
          (∀ bs, s.secSees h 240 bs → s.fld Reg.SEC_CMD_OFS_OFS % 64 = 0 → onesBelow 4 k = [] → s.sec.clips.length < 16 →
            Completes (.clipOpen m rest) s fun t =>
              t.clipOpenFor clip = true ∧ t.memRead ((s.berth h).base * 4096 + s.fld Reg.SEC_CMD_OFS_OFS) 7 = [0x43, 0x4B, 0x45, 0x59, 1, 0, 1] ∧
              SecRuns 6 0 [.mem] s t) ∧
          (∀ bs ck, s.secSees h 240 bs → s.sec.clips.length < 16 → bs.take 6 = [0x43, 0x4B, 0x45, 0x59, 1, 0] → hdrAt bs 16 1 = 0 →
            State.unwrapEntry (slice bs 16 224) storageKey (bytesLE 4 clip) = some ck → Completes (.clipLoad m rest) s fun t =>
              t.sec.clips = s.sec.clips ++ [(clip, ck)] ∧ SecRuns 7 0 [] s t))) ∧
      (∀ bs id, s.secSees h 224 bs → id = s.fld Reg.SEC_CMD_ARG_ARG → hdrAt bs 0 1 = 2 → ∀ key,
        State.unwrapEntry bs (padTo 32 (Config.kdf (Config.ecdh exchangeKey (slice bs 64 97)) (ascii "DXM-ARRAY") (bytesLE 4 id) 32)) (bytesLE 4 id) =
          some key → Completes (.arrayKey m rest) s fun t =>
          t.sec.array = some (id, key) ∧ t.fld Reg.SEC_ARRAY_KEY_ID = id ∧ SecRuns 9 0 [] s t) ∧
      (h = 0 → Completes (.attest m rest) s fun t => SecRuns 10 2 [] s t) ∧
      (∀ bs, s.secSees h 9000 bs → s.sec.certs = [] → s.fld Reg.SEC_CMD_OFS_OFS % 64 = 0 → Completes (.attest m rest) s fun t =>
        t.memRead ((s.berth h).base * 4096 + s.fld Reg.SEC_CMD_OFS_OFS) 5 = [0x41, 0x54, 0x53, 0x54, 1] ∧ SecRuns 10 0 [.mem] s t))

/-- R423 to R426: the hash chain. A parcel's leaf is the hash of its manifest and payload; it joins its domain's leaves, or the late ones and the LATE count once its tide's entry is closed. A pending signature is written as a record in the output berth and is then no longer pending; without room it is lost and counted. A push puts an output berth at the end of the queue. -/
def Obligations.IntegrityChain : Prop :=
  ∀ (s : State),
    (∀ i : Nat, s.leaves[i]? = none → exec (.secLeafHash i) s = .next s) ∧
    (∀ (i : Nat) (man : Manifest) (payload : List Byte) (x : Chain) (l : Leaf), s.leaves[i]? = some (man, payload) → s.replaying = false →
      x = s.chain man.domain → l = ⟨man.stream, man.kind, man.stratum, man.plane, man.firstRow, man.tide, decide (man.tide < x.closed),
        Sha.sha384 (bytesLE 32 man.toNat ++ payload)⟩ → man.domain < 32 →
      Completes (.secLeafHash i) s fun t =>
        t.leaves = s.leaves.eraseIdx i ∧ (∀ d, d ≠ man.domain → t.chain d = s.chain d) ∧
        (x.closed ≤ man.tide → t.chain man.domain = { x with leaves := x.leaves ++ [l] } ∧ Frame [.leaves, .sec] [] s t) ∧
        (man.tide < x.closed → t.chain man.domain = { x with late := x.late ++ [l] } ∧
          t.fld (Reg.SEC_DOM_LATE man.domain) = min (s.fld (Reg.SEC_DOM_LATE man.domain) + 1) 65535 ∧
          Frame [.leaves, .sec] [0x4010C + 0x10 * man.domain] s t)) ∧
    (∀ d : Fin 32, (s.chain d).sign = none → exec (.chainSignDone d) s = .next s) ∧
    (∀ (d : Fin 32) (n : Nat) (c : List Byte), (s.chain d).sign = some (n, c) →
      (∀ h ofs, s.sec.out = some (h, ofs) → ofs % 64 = 0 → ofs + 3520 ≤ (s.berth h).pages * 4096 → s.holds 21 h = true →
        Completes (.chainSignDone d) s fun t =>
          (t.chain d).sign = none ∧ t.memRead ((s.berth h).base * 4096 + ofs) 4 = [0x43, 0x53, 0x49, 0x47] ∧
          (∃ o, t.sec.out = some (h, o) ∧ ofs < o) ∧ Only ([.fresh, .mem, .fab, .queues, .leaves, .sec] ++ sideParts) s t) ∧
      (s.sec.out = none → s.queue State.secQ = [] → Completes (.chainSignDone d) s fun t =>
        (t.chain d).sign = none ∧ t.flag Reg.SEC_EVENT_LOST = true ∧
        t.fld Reg.SEC_CNT_LOST = min (s.fld Reg.SEC_CNT_LOST + 1) 65535 ∧ Frame [.fresh, .sec] [0x40020, 0x40028] s t)) ∧
    ∀ (m : Fin 32) (h : BitVec 16), s.mayWrite m.val 0x40030 .plain = true →
      ((s.queue State.secQ).length < 8 → Completes (.secPush m h) s fun t =>
        t.queue State.secQ = s.queue State.secQ ++ [⟨h.toNat, 0, false⟩] ∧ Frame [.queues] [] s t) ∧
      (8 ≤ (s.queue State.secQ).length → Completes (.secPush m h) s fun t => t.queues = s.queues ∧ Frame [] [] s t)

/-- R434 to R439, R445: LOG. RECORD and REPLAY are taken only while STATE is OFF and every pilot is EMPTY or STOPPED: STATE becomes RECORDING (1) or REPLAY_SETUP (2), the staging berth is acquired, START records are due, and REPLAY clears the divergence report; a RECORD at any other time sets WRITE_REJECT and starts nothing, a REPLAY is ignored. RUN in REPLAY_SETUP makes the first logged tide due, STOP makes END due. A push goes to the end of its queue of 8, or is counted as lost; LOG reads on from a logbook berth pushed in replay by a job of LZE queue 0. A due WRITE record of the present tide is performed as its master and leaves the logbook. -/
def Obligations.LogRecordsAndReplays : Prop :=
  ∀ (m : Fin 32) (s : State) (g : Nat), g = s.fld Reg.LOG_STAGE_HANDLE →
    (s.mayWrite m.val 0x50000 .plain = true → s.awake 22 →
      (s.logState = 0 → s.pilotsAtRest = true → s.flag Reg.LOG_CFG_RING = false → s.log.stage = none → s.log.ring = none → s.log.out = none →
        g ≠ 0 → (s.berth g).st = .held → (s.berth g).count < 255 →
        (Completes (.record m) s fun t =>
          t.logState = 1 ∧ t.fld Reg.LOG_STATUS_SEGMENT = 0 ∧ t.log.stage = some g ∧ t.log.startDue = true ∧ t.log.open_ = [] ∧
          (t.berth g).count = (s.berth g).count + 1 ∧ (∀ h, h ≠ g → t.berth h = s.berth h) ∧ Frame [.fab] [0x50000] s t) ∧
        (s.queue State.logInQ = [] → Completes (.replay m) s fun t =>
          t.logState = 2 ∧ t.log.stage = some g ∧ t.log.replay = [] ∧
          (∀ x, x = 0x50050 ∨ x = 0x50054 ∨ x = 0x50058 ∨ x = 0x5005C ∨ x = 0x50064 → t.word x = 0) ∧
          (t.berth g).count = (s.berth g).count + 1 ∧ Frame [.fab] [0x50000, 0x50050, 0x50054, 0x50058, 0x5005C, 0x50064] s t)) ∧
      (s.logState ≠ 0 ∨ s.pilotsAtRest = false →
        (Completes (.record m) s fun t => t.logState = s.logState ∧ t.flag Reg.LOG_EVENT_WRITE_REJECT = true ∧ Frame [] [0x50000] s t) ∧
        (Completes (.replay m) s fun t => t.logState = s.logState ∧ t.log.replay = s.log.replay ∧ Frame [] [0x50000] s t))) ∧
    (s.mayWrite m.val 0x50000 .plain = true →
      (Completes (.logRun m) s fun t =>
        (s.logState = 2 → t.log.runDue = true) ∧ (s.logState ≠ 2 → t.log.runDue = s.log.runDue) ∧ t.logState = s.logState ∧
        Frame [] [0x50000] s t) ∧
      (Completes (.logStop m) s fun t =>
        (s.logState ≠ 0 → t.log.stopDue = true) ∧ (s.logState = 0 → t.log.stopDue = s.log.stopDue) ∧ t.logState = s.logState ∧
        Frame [] [0x50000] s t)) ∧
    (∀ (h : BitVec 16), s.mayWrite m.val 0x5001C .plain = true → Completes (.logOutPush m h) s fun t =>
      ((s.queue State.logOutQ).length < 8 → t.queue State.logOutQ = s.queue State.logOutQ ++ [⟨h.toNat, 0, false⟩] ∧
        (∀ a, a ≠ State.logOutQ → t.queue a = s.queue a) ∧ t.fld Reg.LOG_QUEUE_LOST = s.fld Reg.LOG_QUEUE_LOST) ∧
      (8 ≤ (s.queue State.logOutQ).length → t.queues = s.queues ∧
        t.fld Reg.LOG_QUEUE_LOST = min (s.fld Reg.LOG_QUEUE_LOST + 1) 255) ∧ Frame [.queues] [0x5001C, 0x50040] s t) ∧
    (∀ (p : Fin 4) (raw map : BitVec 16), s.mayWrite m.val (State.logFeedQ p) .plain = true → Completes (.logFeed m p raw map) s fun t =>
      ((s.queue (State.logFeedQ p)).length < 8 →
        t.queue (State.logFeedQ p) = s.queue (State.logFeedQ p) ++ [⟨raw.toNat, map.toNat, false⟩] ∧
        ∀ a, a ≠ State.logFeedQ p → t.queue a = s.queue a) ∧
      (8 ≤ (s.queue (State.logFeedQ p)).length → t.queues = s.queues ∧
        t.fld Reg.LOG_QUEUE_LOST = min (s.fld Reg.LOG_QUEUE_LOST + 1) 255) ∧ Frame [.queues] [State.logFeedQ p, 0x50040] s t) ∧
    (∀ (h : BitVec 16), s.mayWrite m.val 0x50020 .plain = true → s.log.staged = [] → s.log.closed = [] →
      (s.log.job = 2 → (s.queue State.logInQ).length < 8 → s.logState ≠ 0 → Completes (.logInPush m h) s fun t =>
        t.queue State.logInQ = s.queue State.logInQ ++ [⟨h.toNat, 0, false⟩] ∧ t.log.inp = s.log.inp ∧
        Frame [.queues] [0x50020, 0x50040] s t) ∧
      (s.logState = 2 → s.log.job = 0 → s.log.inp = none → s.queue State.logInQ = [] → (s.queue (State.lzeQ 0)).length < 16 →
        h ≠ 0 → (s.berth h.toNat).st = .held → (s.berth h.toNat).count < 255 → Completes (.logInPush m h) s fun t =>
          t.log.inp = some (h.toNat, 0) ∧ t.log.job = 2 ∧ t.queue State.logInQ = [] ∧
          (t.queue (State.lzeQ 0)).length = (s.queue (State.lzeQ 0)).length + 1 ∧ (t.berth h.toNat).count = (s.berth h.toNat).count + 1 ∧
          Frame [.queues, .fab] [0x50020, 0x50040] s t)) ∧
    (s.replaying = false ∨ s.dueWrite = none → exec .replayWrite s = .next s) ∧
    (∀ r a v, s.replaying = true → s.dueWrite = some r → a = r.body.headD 0 % 2 ^ 32 → v = r.body.headD 0 >>> 32 →
      (State.fieldsAt a).any State.isWritable = true →
      exec .replayWrite s = .next (({ s with log := { s.log with replay := s.log.replay.erase r } } : State).controlWrite r.src a 15 v
        { replayed := true }))

/-- R448, R454 to R458: resets. Power-on, RESET_N and a brown-out (a rail below 90 % in both of two samples) give a COLD reset, which they hold until they end; without a low rail the samples are only shown. WARM needs its key. A BLOCK reset of unit 0 to 20 gives that unit's words, queues and contents their reset values; another ID sets WRITE_REJECT. The watchdog does nothing until its count has passed, then resets COLD or WARM as ACTION says; a kick of 0xC0DE restarts its count, another value does nothing. -/
def Obligations.ResetsClearAndKeep : Prop :=
  ∀ (s : State),
    (Completes .powerOn s fun t => t.word 0x10008 = 1 ∧ t.pwr.holds = 2 ∧
      (∀ x, x ≠ 0x10008 → fuseShown s.cal.burnt.length x = false → t.word x = resetWord x) ∧ Survives s t ∧
      Only [.pending, .now, .fresh, .regs, .cal, .sec, .pwr, .jtag] State.reset t) ∧
    (Completes .resetPinAssert s (ColdReset 2 2 [] s)) ∧
    (∀ (banks : Word),
      (bit s.pwr.holds 1 = false → exec (.resetPinRelease banks) s = .next s) ∧
      (s.pwr.holds = 2 → Completes (.resetPinRelease banks) s fun t =>
        t.pwr = { s.pwr with
          holds := 0, banks := banks.toNat, started := s.now, lastOn := 0, waitOn := powerOrder.map fun u => (u, s.now + 300000) } ∧ Only [.pwr] s t) ∧
      (bit s.pwr.holds 2 = false ∨ s.now < s.pwr.heldAt + State.msCycles 1 → exec (.brownoutRelease banks) s = .next s) ∧
      (s.pwr.holds = 4 → s.pwr.heldAt + State.msCycles 1 ≤ s.now → Completes (.brownoutRelease banks) s fun t =>
        t.pwr = { s.pwr with
          holds := 0, banks := banks.toNat, started := s.now, lastOn := 0, waitOn := powerOrder.map fun u => (u, s.now + 300000) } ∧ Only [.pwr] s t)) ∧
    (∀ (a b : List Nat) (rails : List Nat), rails = (List.range 11).map (0x10080 + 4 * ·) →
      ((∃ r x y, r < 11 ∧ a[r]? = some x ∧ b[r]? = some y ∧ 100 * x < 9 * s.railNominal r ∧ 100 * y < 9 * s.railNominal r) →
        Completes (.brownout a b) s (ColdReset 16 4 rails s)) ∧
      ((∀ r x y, r < 11 → a[r]? = some x → b[r]? = some y → 9 * s.railNominal r ≤ 100 * x ∨ 9 * s.railNominal r ≤ 100 * y) →
        Completes (.brownout a b) s (Frame [] rails s)) ∧
      (∀ r y, r < 11 → b[r]? = some y → y < 65536 → Completes (.brownout a b) s fun t => t.fld (Reg.PWR_RAIL_MV r) = y)) ∧
    (∀ (m : Fin 32) (rest : BitVec 28), s.mayWrite m.val 0x10000 .plain = true →
      (rest.toNat % 65536 = 0xA11E → Completes (.warm m rest) s (WarmReset 4 [0x10000] s)) ∧
      (rest.toNat % 65536 ≠ 0xA11E → Completes (.warm m rest) s (Frame [] [0x10000] s))) ∧
    (∀ (m : Fin 32) (v : Word) (u : Nat), u = v.toNat % 64 → s.mayWrite m.val 0x1000C .plain = true →
      (20 < u → Completes (.pwrBlockReset m v) s fun t => t.flag Reg.PWR_EVENT_WRITE_REJECT = true ∧ Frame [] [0x1000C, 0x100D0] s t) ∧
      (u ≤ 20 → Completes (.pwrBlockReset m v) s fun t =>
        (∀ x r, r ∈ unitRanges u → r.1 ≤ x → x < r.2 → t.word x = resetWord x ∧ t.queue x = []) ∧
        (4 ≤ u → u < 8 → t.pipe (u - 4) = {}) ∧ (12 ≤ u → u < 14 → t.dec (u - 12) = {}) ∧ (u = 14 → t.lze = {}) ∧ (u = 15 → t.scn = {}) ∧
        (18 ≤ u → u < 20 → t.net (u - 18) = {}) ∧ (u = 20 → t.aud = {}) ∧ t.pwr.block = some (u, s.now) ∧
        Only ([.latched, .mem, .fab, .sys, .queues, .leaves, .lanes, .ports, .pipes, .encPics, .encStreams, .decs, .lze, .scn, .pcx, .nets,
          .aud, .pwr] ++ sideParts) s t)) ∧
    (∀ (m : Fin 32) (v : Word), s.mayWrite m.val 0x10014 .plain = true → Completes (.wdogKick m v) s fun t =>
      t.pwr = (if v.toNat % 65536 = 0xC0DE then { s.pwr with kickAt := s.now } else s.pwr) ∧ Frame [.pwr] [0x10014] s t) ∧
    (s.flag Reg.PWR_WDOG_EN = false ∨ s.now < s.pwr.kickAt + State.msCycles (max 1 (s.fld Reg.PWR_WDOG_MS)) → exec .wdogExpiry s = .next s) ∧
    (s.flag Reg.PWR_WDOG_EN = true → s.pwr.kickAt + State.msCycles (max 1 (s.fld Reg.PWR_WDOG_MS)) ≤ s.now →
      (s.flag Reg.PWR_WDOG_ACTION = true → Completes .wdogExpiry s (ColdReset 8 0 [] s)) ∧
      (s.flag Reg.PWR_WDOG_ACTION = false → Completes .wdogExpiry s fun t => WarmReset 8 [] s t ∧ t.pwr.kickAt = s.now))

/-- R402, R447, R452, R459, R460: sleep, wake, VCORE and unit domains. SLEEP stops every block and pilot; entry done, every domain is off and VCORE is at code 0. A wake request of an enabled pin, or of a bus with WAKE that matches its address in sleep, is latched, the first one only, and begins the wake once entry is done; the WAKE reset keeps DRAM, PWR, TWB and GPIO and shows its source. VCORE moves by at most 4 codes, no sooner than 10 µs after the step before. The domain in turn switches on when its time has come, 128 PCLK cycles after the one before, and the starts that waited are performed; a gated domain whose block has been stopped for 100 µs switches off. -/
def Obligations.PowerSleepsAndWakes : Prop :=
  ∀ (s : State),
    (∀ (m : Fin 32) (rest : BitVec 28), s.mayWrite m.val 0x10000 .plain = true →
      (s.fld Reg.PWR_STATUS_STATE ≠ 0 → Completes (.sleep m rest) s (Frame [] [0x10000] s)) ∧
      (s.fld Reg.PWR_STATUS_STATE = 0 → Completes (.sleep m rest) s fun t =>
        t.fld Reg.PWR_STATUS_STATE = 1 ∧ t.pwr.wake = none ∧ (∀ u, u ≤ 20 → t.blockIdle u = true) ∧
        (∀ k, k < 16 → (t.pilot k).st = .empty ∨ (t.pilot k).st = .stopped) ∧
        Only ([.fresh, .mem, .fab, .sys, .queues, .leaves, .lanes, .ports, .pipes, .encPics, .encStreams, .decs, .lze, .scn, .pcx, .aud,
          .pwr] ++ sideParts) s t)) ∧
    (s.fld Reg.PWR_STATUS_STATE ≠ 1 ∨ s.pwr.asleep = true → exec .sleepEntryDone s = .next s) ∧
    (s.fld Reg.PWR_STATUS_STATE = 1 → s.pwr.asleep = false → Completes .sleepEntryDone s fun t =>
      t.pwr = { s.pwr with asleep := true, waitOn := [], ops := [] } ∧ (∀ u, u < 40 → t.domainOn_ u = false) ∧ t.fld Reg.PWR_STATUS_VID = 0 ∧
      t.fld Reg.PWR_STATUS_STATE = (if s.pwr.wake = none then 1 else 2) ∧ Frame [.pwr] [0x10004, 0x10048, 0x1004C] s t) ∧
    (∀ (n : Fin 160) (en : Bool), en = bit (s.fld (Reg.PWR_WAKE_GPIO_MASK (n.val / 32))) (n.val % 32) →
      (en = false ∨ s.fld Reg.PWR_STATUS_STATE ≠ 1 ∨ s.pwr.wake ≠ none → exec (.wakeGpio n) s = .next s) ∧
      (en = true → s.fld Reg.PWR_STATUS_STATE = 1 → s.pwr.wake = none → Completes (.wakeGpio n) s fun t =>
        t.pwr = { s.pwr with wake := some (true, n.val), wakeAt := s.now } ∧
        t.fld Reg.PWR_STATUS_STATE = (if s.pwr.asleep = true then 2 else 1) ∧ Frame [.pwr] [0x10004] s t)) ∧
    (∀ (b : Fin 8) (hit : Bool), hit = (s.pwr.asleep && s.flag (Reg.TWB_CFG_WAKE b) && decide (2 ≤ s.twbMode b ∧ s.twbMode b ≤ 4)) →
      (hit = false → exec (.twbWakeMatch b) s = .next s) ∧
      (hit = true → s.fld Reg.PWR_STATUS_STATE = 1 → s.pwr.wake = none → Completes (.twbWakeMatch b) s fun t =>
        t.pwr = { s.pwr with wake := some (false, b.val), wakeAt := s.now } ∧ t.fld Reg.PWR_STATUS_STATE = 2 ∧ (t.twb b).woke = true ∧
        Frame [.pwr, .twbs] [0x10004] s t)) ∧
    (∀ (banks : Word),
      (s.pwr.wake = none ∨ s.fld Reg.PWR_STATUS_STATE ≠ 2 → exec (.wakeReset banks) s = .next s) ∧
      (∀ g n, s.pwr.wake = some (g, n) → n < 160 → (g = true ∨ n < 8) → s.fld Reg.PWR_STATUS_STATE = 2 → Completes (.wakeReset banks) s fun t =>
        t.fld Reg.PWR_STATUS_STATE = 0 ∧ t.pwr.asleep = false ∧ t.pwr.wake = none ∧ t.flag Reg.PWR_EVENT_WAKE = true ∧
        t.pwr.waitOn = powerOrder.map (fun u => (u, s.pwr.wakeAt + 300000)) ∧ t.mem = s.mem ∧ t.gpio = s.gpio ∧ t.cal.loaded = s.cal.burnt.length ∧
        (g = true → t.flag Reg.PWR_RESET_CAUSE_WAKE_GPIO = true ∧ t.fld Reg.PWR_WAKE_SRC_TWB = 0) ∧
        (g = false → t.flag Reg.PWR_RESET_CAUSE_WAKE_TWB = true ∧ t.fld Reg.PWR_WAKE_SRC_TWB = 1 <<< n ∧ t.flag (Reg.TWB_EVENT_WAKE n) = true ∧
          (t.twb n).woke = false) ∧
        (∀ x, 0x1FC000 ≤ x → x < 0x1FE000 → fuseShown s.cal.burnt.length x = false → t.word x = s.word x) ∧
        (∀ x, ¬(0x10000 ≤ x ∧ x < 0x20000) → ¬(0x1F8000 ≤ x ∧ x < 0x1FE400) → fuseShown s.cal.burnt.length x = false → t.word x = resetWord x) ∧
        Survives s t ∧ Only ([.pending, .now, .fresh, .held, .mem, .cal, .sec, .time, .twbs, .gpio, .pwr, .jtag] ++ sideParts) State.reset t)) ∧
    (∀ want, want = min 80 (if s.flag Reg.PWR_VCORE_MODE = true then s.fld Reg.PWR_VCORE_FIXED
        else Config.vcoreCode (s.fld Reg.SYS_SPEED_BIN) (s.fld Reg.PWR_THERM_DIE)) →
      (s.pwr.asleep = true ∨ s.fld Reg.PWR_STATUS_VID = want ∨ (s.pwr.vidAt ≠ 0 ∧ s.now + 1 < s.pwr.vidAt + State.usCycles 10) →
        exec .vcoreVidStep s = .next s) ∧
      (s.pwr.asleep = false → s.fld Reg.PWR_STATUS_VID ≠ want → s.pwr.vidAt = 0 ∨ s.pwr.vidAt + State.usCycles 10 ≤ s.now + 1 →
        Completes .vcoreVidStep s fun t =>
          t.fld Reg.PWR_STATUS_VID = (if s.fld Reg.PWR_STATUS_VID < want then min want (s.fld Reg.PWR_STATUS_VID + 4)
            else max want (s.fld Reg.PWR_STATUS_VID - 4)) ∧ Frame [.pwr] [0x10004] s t)) ∧
    (∀ (u : Fin 40), (∀ v t rest, s.pwr.waitOn = (v, t) :: rest → v ≠ u.val ∨ s.now < t ∨
        (s.pwr.lastOn ≠ 0 ∧ 5 * s.now < 5 * (s.pwr.lastOn - 1) + 1024)) → exec (.domainSwitchOn u) s = .next s) ∧
    (∀ (u : Fin 40) t₀ rest, s.pwr.waitOn = (u.val, t₀) :: rest → t₀ ≤ s.now → s.pwr.lastOn = 0 ∨ 5 * (s.pwr.lastOn - 1) + 1024 ≤ 5 * s.now →
      Completes (.domainSwitchOn u) s fun t =>
        t.domainOn_ u = true ∧ (∀ v, v ≠ u.val → t.domainOn_ v = s.domainOn_ v) ∧ t.pwr.waitOn = rest ∧ t.pwr.lastOn = s.now + 1 ∧
        t.pwr.ops = s.pwr.ops.filter (fun o => !decide (o.1 = u.val)) ∧
        ((∀ o ∈ s.pwr.ops, o.1 ≠ u.val) → Frame [.pwr] [0x10048, 0x1004C] s t)) ∧
    (∀ (u : Fin 40) (en : Bool) (since : Nat), en = bit (s.word (if u.val < 32 then Reg.PWR_GATE_EN_LO.addr else Reg.PWR_GATE_EN_HI.addr)).toNat (u.val % 32) →
      since = s.pwr.idle.get (fun _ => 0) u →
      (en = false ∨ s.domainOn_ u = false ∨ s.blockIdle u = false ∨ since = 0 ∨ s.now + 1 < since + State.usCycles 100 →
        exec (.domainGateOff u) s = .next s) ∧
      (en = true → s.domainOn_ u = true → s.blockIdle u = true → since ≠ 0 → since + State.usCycles 100 ≤ s.now + 1 →
        Completes (.domainGateOff u) s fun t =>
          t.domainOn_ u = false ∧ (∀ v, v ≠ u.val → t.domainOn_ v = s.domainOn_ v) ∧ t.pwr = { s.pwr with offAt := t.pwr.offAt } ∧
          Frame [.pwr] [0x10048, 0x1004C] s t))

/-- R461, R462, R463: port faults, the serial reference and heat. A pin within its limits, or in fault already, changes nothing; one beyond them is in fault (an SDI output below 100 mV is SHORT, above 1.2 V OPEN), an Ethernet lane takes its link down, and PORT_FAULT is set; a retry does nothing before its time, then clears the fault or waits again. A reference error above 1,000 ppm clears REF_OK at once; beyond 100 µs the transmitters stop and the links go down; it is restored within 100 µs, or after 1 ms in tolerance. WARN and THROTTLE rise at their limits and fall 5 °C below; SHUTDOWN holds a COLD reset until every die is 15 °C below it and every stack at 90 °C or less. -/
def Obligations.PinsReferenceAndHeat : Prop :=
  ∀ (s : State),
    (∀ (l : Fin 32) (k o : Fin 8) (mv : Nat),
      (100 ≤ mv → mv ≤ 1050 → exec (.portPinFault (.pcie l) mv) s = .next s ∧ exec (.portPinFault (.eth k) mv) s = .next s ∧
        exec (.portPinFault (.vf k) mv) s = .next s) ∧
      (100 ≤ mv → mv ≤ 1200 → exec (.portPinFault (.sdi o) mv) s = .next s) ∧
      (mv < 100 ∨ 1050 < mv →
        (bit (s.fld Reg.PWR_PORT_FAULT_0_PCIE) l = false → Completes (.portPinFault (.pcie l) mv) s fun t =>
          t.fld Reg.PWR_PORT_FAULT_0_PCIE = putBits (s.fld Reg.PWR_PORT_FAULT_0_PCIE) l l 1 ∧ Frame [.pwr] [0x100C0, 0x100D0] s t) ∧
        (bit (s.fld Reg.PWR_PORT_FAULT_1_VF) k = false → Completes (.portPinFault (.vf k) mv) s fun t =>
          t.fld Reg.PWR_PORT_FAULT_1_VF = putBits (s.fld Reg.PWR_PORT_FAULT_1_VF) k k 1 ∧ Frame [.pwr] [0x100C4, 0x100D0] s t) ∧
        (bit (s.fld Reg.PWR_PORT_FAULT_1_ETH) k = false → Completes (.portPinFault (.eth k) mv) s fun t =>
          t.fld Reg.PWR_PORT_FAULT_1_ETH = putBits (s.fld Reg.PWR_PORT_FAULT_1_ETH) k k 1 ∧ t.netLink (k.val / 4) = false ∧
          Frame [.pwr] [0x100C4, 0x100D0, 0x1E0008 + 0x4000 * (k.val / 4), 0x1E0060 + 0x4000 * (k.val / 4)] s t)) ∧
      (s.pinFaulted (.sdi o) = false → mv < 100 ∨ 1200 < mv → Completes (.portPinFault (.sdi o) mv) s fun t =>
        bit (t.fld Reg.PWR_PORT_FAULT_1_SDI_SHORT) o = decide (mv < 100) ∧ bit (t.fld Reg.PWR_PORT_FAULT_1_SDI_OPEN) o = decide (1200 < mv) ∧
        Frame [.pwr] [0x100C4, 0x100D0] s t)) ∧
    (∀ (p : Fin 16) (mv : Nat) (c : PortPin), c = .audData p ∨ (c = .audClock p ∧ s.audState p = 0) → s.pinFaulted c = false →
      Completes (.portPinFault c mv) s fun t => bit (t.fld Reg.PWR_AUD_FAULT_PORT) p = true ∧ Frame [.pwr] [0x100C8, 0x100D0] s t) ∧
    (∀ (pin : PortPin) (mv : Nat), s.pinFaulted pin = true → exec (.portPinFault pin mv) s = .next s) ∧
    (∀ (pin : PortPin) (mv how : Nat), s.pinFaulted pin = false → State.pinVerdict pin mv = some how → Completes (.portPinFault pin mv) s fun t =>
      t.pinFaulted pin = true ∧ (∀ x, x ≠ pin → t.pinFaulted x = s.pinFaulted x) ∧ t.flag Reg.PWR_EVENT_PORT_FAULT = true ∧
      t.pwr.retry.get (fun _ => 0) (State.pinKey pin) =
        (if s.fld Reg.PWR_PROTECT_RETRY_MS = 0 then 0 else s.now + State.msCycles (s.fld Reg.PWR_PROTECT_RETRY_MS))) ∧
    (∀ (pin : PortPin) (pass : Bool) (at_ : Nat), at_ = s.pwr.retry.get (fun _ => 0) (State.pinKey pin) →
      (s.pinFaulted pin = false ∨ at_ = 0 ∨ s.now < at_ → exec (.portFaultRetry pin pass) s = .next s) ∧
      (s.pinFaulted pin = true → at_ ≠ 0 → at_ ≤ s.now → Completes (.portFaultRetry pin pass) s fun t =>
        t.pinFaulted pin = !pass ∧ (∀ x, x ≠ pin → t.pinFaulted x = s.pinFaulted x) ∧
        (pass = false → t.pwr.retry.get (fun _ => 0) (State.pinKey pin) =
          (if s.fld Reg.PWR_PROTECT_RETRY_MS = 0 then 0 else s.now + State.msCycles (s.fld Reg.PWR_PROTECT_RETRY_MS))) ∧
        Frame [.pwr] [0x100C0, 0x100C4, 0x100C8] s t)) ∧
    (∀ e : Int, e.natAbs ≤ 1000 → exec (.refLoss (some e)) s = .next s) ∧
    (∀ ppm : Option Int, (∀ e, ppm = some e → 1000 < e.natAbs) → Completes (.refLoss ppm) s fun t =>
      t.pwr = { s.pwr with refBad := s.now, refLost := some (s.pwr.refLost.getD s.now) } ∧
      (s.pwr.refLost = none → t.flag Reg.PWR_STATUS_REF_OK = false ∧ t.flag Reg.PWR_EVENT_REF_LOSS = true) ∧
      Frame [.pwr] [0x10004, 0x100D0] s t) ∧
    (∀ since, s.pwr.refLost = some since →
      (s.pwr.txOff = true ∨ s.now < since + State.usCycles 100 → exec .refHoldExpiry s = .next s) ∧
      (s.pwr.txOff = false → since + State.usCycles 100 ≤ s.now → Completes .refHoldExpiry s fun t =>
        t.pwr = { s.pwr with txOff := true } ∧ (∀ p k, p < 2 → k < 4 → t.flag (Reg.PCX_LINK_UP p k) = false) ∧
        (∀ q, q < 2 → t.netLink q = false) ∧ (∀ h, h < 10 → (t.head h).tx = false) ∧ Only ([.pwr, .pcx, .scn] ++ sideParts) s t ∧
        ∀ x, calm x = true → ¬(0x1D0000 ≤ x ∧ x < 0x1E8000) → t.word x = s.word x) ∧
      (s.pwr.txOff = true → s.now < s.pwr.refBad + State.msCycles 1 → exec .refRestore s = .next s) ∧
      (s.pwr.txOff = false ∨ s.pwr.refBad + State.msCycles 1 ≤ s.now → Completes .refRestore s fun t =>
        t.pwr = { s.pwr with refLost := none, txOff := false } ∧ t.flag Reg.PWR_STATUS_REF_OK = true ∧ Frame [.pwr] [0x10004] s t)) ∧
    (s.pwr.refLost = none → exec .refHoldExpiry s = .next s ∧ (s.flag Reg.PWR_STATUS_REF_OK = true → exec .refRestore s = .next s)) ∧
    (∀ (dies ks : List (BitVec 16)) (d k sd th wn : Int) (old : Nat), d = State.hottest dies → k = State.hottest ks →
      sd = 256 * s.fld Reg.PWR_THERM_CFG_SHUTDOWN → th = 256 * s.fld Reg.PWR_THERM_CFG_THROTTLE → wn = 256 * s.fld Reg.PWR_THERM_CFG_WARN →
      old = s.fld Reg.PWR_STATUS_THERM →
      (bit s.pwr.holds 3 = false →
        (sd ≤ d ∨ 105 * 256 ≤ k → Completes (.thermalSample dies ks) s (ColdReset 32 8 [] s)) ∧
        (d < sd → k < 105 * 256 → Completes (.thermalSample dies ks) s fun t =>
          t.fld Reg.PWR_THERM_DIE = wrap 16 d ∧ t.fld Reg.PWR_THERM_STACK = wrap 16 k ∧
          t.fld Reg.PWR_STATUS_THERM = (if th ≤ d ∨ (old = 2 ∧ th < d + 5 * 256) then 2 else if wn ≤ d ∨ (old ≠ 0 ∧ wn < d + 5 * 256) then 1 else 0) ∧
          (old = 0 → wn ≤ d ∨ th ≤ d → t.flag Reg.PWR_EVENT_THERM = true) ∧
          (∀ (c : Nat) (x : BitVec 16), c < 6 → ks[c]? = some x → t.fld (Reg.MEM_STATUS_TEMP c) = x.toNat ∧
            t.flag (Reg.MEM_STATUS_HOT c) = decide (85 * 256 < x.toInt)) ∧
          Frame [] ([0x10004, 0x10064, 0x100D0] ++ (List.range 6).map (fun c => 0x1A0004 + 0x4000 * c) ++
            (List.range 6).map fun c => 0x1A0020 + 0x4000 * c) s t)) ∧
      (bit s.pwr.holds 3 = true →
        ((∃ x ∈ dies, sd < x.toInt + 15 * 256) ∨ (∃ x ∈ ks, 90 * 256 < x.toInt) → exec (.thermalSample dies ks) s = .next s) ∧
        (s.pwr.holds = 8 → (∀ x ∈ dies, x.toInt + 15 * 256 ≤ sd) → (∀ x ∈ ks, x.toInt ≤ 90 * 256) → Completes (.thermalSample dies ks) s fun t =>
          t.pwr.holds = 0 ∧ t.pwr.waitOn = powerOrder.map (fun u => (u, s.now + 300000)) ∧ Only [.pwr] s t)))

/-- R484, R485: JTAG. An instruction selects its data register; EXTEST and SAMPLE/PRELOAD load the boundary register, CLAMP and HIGHZ keep it. A debug access runs only in DEBUG: it reads or writes one aligned word as master 3 and captures the shifted bits, the data, DONE and DISCARDED; a second one in the same FCLK cycle only shows BUSY. -/
def Obligations.JtagInstructions : Prop :=
  ∀ (s : State),
    (∀ scan : List Bool,
      (Completes (.extest scan) s fun t => t.jtag = { s.jtag with ir := 0x00, boundary := scan } ∧ Only [.jtag] s t) ∧
      (Completes (.samplePreload scan) s fun t => t.jtag = { s.jtag with ir := 0x02, boundary := scan } ∧ Only [.jtag] s t)) ∧
    (Completes .idcode s fun t => t.jtag = { s.jtag with ir := 0x01 } ∧ Only [.jtag] s t) ∧
    (Completes .highz s fun t => t.jtag = { s.jtag with ir := 0x08 } ∧ Only [.jtag] s t) ∧
    (Completes .clamp s fun t => t.jtag = { s.jtag with ir := 0x09 } ∧ Only [.jtag] s t) ∧
    (Completes .debug s fun t => t.jtag = { s.jtag with ir := 0x20 } ∧ Only [.jtag] s t) ∧
    (Completes .bypass s fun t => t.jtag = { s.jtag with ir := 0xFF } ∧ Only [.jtag] s t) ∧
    (∀ (dr : BitVec 60) (a v : Nat), a = 4 * (dr.toNat / 2 % 2 ^ 24) → v = dr.toNat / 2 ^ 25 % 2 ^ 32 →
      (s.jtag.ir ≠ 0x20 → exec (.debugAccess dr) s = .next s) ∧
      (s.jtag.ir = 0x20 → s.jtag.at_ = s.now + 1 → Completes (.debugAccess dr) s fun t =>
        bit t.jtag.debug 59 = true ∧ (∀ i, i ≠ 59 → bit t.jtag.debug i = bit s.jtag.debug i) ∧ Only [.jtag] s t) ∧
      (∀ s₁ : State, s.jtag.ir = 0x20 → s.jtag.at_ ≠ s.now + 1 → s₁ = { s with jtag := { s.jtag with at_ := s.now + 1 } } →
        (dr.toNat % 2 = 1 → Completes (.debugAccess dr) s fun t =>
          bits t.jtag.debug 56 25 = v ∧ bit t.jtag.debug 57 = true ∧ bit t.jtag.debug 58 = !s.mayWrite 3 a .plain ∧
          bits t.jtag.debug 24 0 = dr.toNat % 2 ^ 25 ∧ Only [.jtag] (s₁.wordWrite 3 a v) t) ∧
        (dr.toNat % 2 = 0 → Completes (.debugAccess dr) s fun t =>
          bits t.jtag.debug 56 25 = (s₁.controlRead 3 a 15).2.toNat ∧ bit t.jtag.debug 57 = true ∧ bit t.jtag.debug 58 = false ∧
          bits t.jtag.debug 24 0 = dr.toNat % 2 ^ 25 ∧ Only [.jtag] (s₁.controlRead 3 a 15).1 t)))
end

