-- ==== Sys2Proof/Laws/SMap.lean ====
section
/-! SUPPORT. Sparse maps: reads after writes, and that every operation keeps the canonical form. -/

namespace Sys2Proof.Machine.SMap

variable {α : Type} [DecidableEq α] (d : Nat → α)

/-- Every key of the map lies above the bound. -/
def above (b : Option Nat) (k : Nat) : Bool := match b with | none => true | some j => decide (j < k)

theorem okFrom_cons (b : Option Nat) (k : Nat) (v : α) (m : SMap α) :
    okFrom d b ((k, v) :: m) = (above b k && !decide (v = d k) && okFrom d (some k) m) := by
  cases b <;> rfl

theorem okFrom_weaken {b : Option Nat} {j : Nat} (hb : above b j = true) : {m : SMap α} → okFrom d (some j) m = true → okFrom d b m = true
  | [], _ => by cases b <;> rfl
  | (k, v) :: m, h => by
    rw [okFrom_cons] at h ⊢
    simp only [Bool.and_eq_true] at h ⊢
    refine ⟨⟨?_, h.1.2⟩, h.2⟩
    cases b with
    | none => rfl
    | some i =>
      simp only [above, decide_eq_true_eq] at hb h ⊢
      omega

theorem okFrom_put {b : Option Nat} {k : Nat} {v : α} (hb : above b k = true) (hv : v ≠ d k) :
    {m : SMap α} → okFrom d b m = true → okFrom d b (put m k v) = true
  | [], _ => by
    rw [put, okFrom_cons]
    simp [hb, hv, okFrom]
  | (j, w) :: m, h => by
    rw [okFrom_cons] at h
    simp only [Bool.and_eq_true] at h
    unfold put
    split
    · rename_i e
      subst e
      rw [okFrom_cons]
      simp [hb, hv, h.2]
    · split
      · rename_i hjk
        rw [okFrom_cons, okFrom_cons]
        simp only [Bool.and_eq_true]
        exact ⟨⟨hb, by simp [hv]⟩, ⟨by simpa [above] using hjk, h.1.2⟩, h.2⟩
      · rw [okFrom_cons]
        simp only [Bool.and_eq_true]
        refine ⟨h.1, okFrom_put ?_ hv h.2⟩
        simp only [above, decide_eq_true_eq]
        omega

theorem okFrom_filter {b : Option Nat} {p : Nat × α → Bool} : {m : SMap α} → okFrom d b m = true → okFrom d b (m.filter p) = true
  | [], h => h
  | (j, w) :: m, h => by
    rw [okFrom_cons] at h
    simp only [Bool.and_eq_true] at h
    rw [List.filter_cons]
    split
    · rw [okFrom_cons]
      simp only [Bool.and_eq_true]
      exact ⟨h.1, okFrom_filter h.2⟩
    · exact okFrom_filter (okFrom_weaken d h.1.1 h.2)

/-- A write keeps the canonical form. -/
theorem wf_set {m : SMap α} {k : Nat} {v : α} (h : wf d m = true) : wf d (set d m k v) = true := by
  unfold set
  split
  · exact okFrom_filter d h
  · rename_i hv; exact okFrom_put d rfl hv h

theorem wf_clear {m : SMap α} {lo hi : Nat} (h : wf d m = true) : wf d (m.clear lo hi) = true := okFrom_filter d h

theorem wf_window {m : SMap α} {lo hi : Nat} (h : wf d m = true) : wf d (m.window lo hi) = true := okFrom_filter d h

omit [DecidableEq α] in
theorem get_put_same (m : SMap α) (k : Nat) (v : α) : get d (put m k v) k = v := by
  induction m with
  | nil => simp [put, get]
  | cons e m ih =>
    obtain ⟨j, w⟩ := e
    unfold put
    split
    · simp [get]
    · split
      · simp [get]
      · rw [get, if_neg (by assumption)]; exact ih

omit [DecidableEq α] in
theorem get_put_other (m : SMap α) {k i : Nat} (v : α) (h : i ≠ k) : get d (put m k v) i = get d m i := by
  induction m with
  | nil => simp [put, get, h]
  | cons e m ih =>
    obtain ⟨j, w⟩ := e
    unfold put
    split
    · rename_i e; subst e; simp [get, h]
    · split
      · rw [get, if_neg h]
      · rw [get, get, ih]

omit [DecidableEq α] in
/-- A filter that keeps key `i` keeps what it reads as. -/
theorem get_filter {p : Nat × α → Bool} {i : Nat} (m : SMap α) (h : ∀ v, p (i, v) = true) : get d (m.filter p) i = get d m i := by
  induction m with
  | nil => rfl
  | cons e m ih =>
    obtain ⟨j, w⟩ := e
    rw [List.filter_cons, get]
    split
    · rw [get, ih]
    · rename_i hp
      by_cases hi : i = j
      · subst hi; exact absurd (h w) hp
      · rw [if_neg hi, ih]

omit [DecidableEq α] in
/-- A filter that drops key `i` leaves it at its default. -/
theorem get_filter_out {p : Nat × α → Bool} {i : Nat} (m : SMap α) (h : ∀ v, p (i, v) = false) : get d (m.filter p) i = d i := by
  induction m with
  | nil => rfl
  | cons e m ih =>
    obtain ⟨j, w⟩ := e
    rw [List.filter_cons]
    split
    · rename_i hp
      by_cases hi : i = j
      · subst hi; rw [h w] at hp; cases hp
      · rw [get, if_neg hi, ih]
    · exact ih

/-- A map reads back what was written. -/
@[simp] theorem get_set_same (m : SMap α) (k : Nat) (v : α) : get d (set d m k v) k = v := by
  unfold set
  split
  · rename_i e; rw [erase, get_filter_out d m (by simp), e]
  · exact get_put_same d m k v

/-- A write leaves every other key alone. -/
theorem get_set_other (m : SMap α) {k i : Nat} {v : α} (h : i ≠ k) : get d (set d m k v) i = get d m i := by
  unfold set
  split
  · exact get_filter d m (by intro v; simpa using h)
  · exact get_put_other d m v h

theorem get_set (m : SMap α) (k i : Nat) (v : α) : get d (set d m k v) i = if i = k then v else get d m i := by
  split
  · rename_i e; subst e; exact get_set_same d m i v
  · rename_i h; exact get_set_other d m h

omit [DecidableEq α] in
/-- Clearing a range puts its keys back to their defaults and leaves the others. -/
theorem get_clear (m : SMap α) (lo hi i : Nat) : get d (m.clear lo hi) i = if lo ≤ i ∧ i < hi then d i else get d m i := by
  split
  · rename_i h; exact get_filter_out d m (by simp [h])
  · rename_i h; exact get_filter d m (by intro v; simp; omega)

omit [DecidableEq α] in
theorem mem_put {m : SMap α} {k : Nat} {v : α} {e : Nat × α} (h : e ∈ put m k v) : e = (k, v) ∨ e ∈ m := by
  induction m with
  | nil => exact .inl (by simpa [put] using h)
  | cons x m ih =>
    obtain ⟨j, w⟩ := x
    unfold put at h
    split at h
    · rcases List.mem_cons.mp h with h | h
      · exact .inl h
      · exact .inr (List.mem_cons_of_mem _ h)
    · split at h
      · rcases List.mem_cons.mp h with h | h
        · exact .inl h
        · exact .inr h
      · rcases List.mem_cons.mp h with h | h
        · exact .inr (h ▸ List.mem_cons_self)
        · rcases ih h with h | h
          · exact .inl h
          · exact .inr (List.mem_cons_of_mem _ h)

/-- What a write lists: the entry written, or an entry from before. -/
theorem mem_set {m : SMap α} {k : Nat} {v : α} {e : Nat × α} (h : e ∈ set d m k v) : e = (k, v) ∨ e ∈ m := by
  unfold set at h
  split at h
  · exact .inr (List.mem_filter.mp h).1
  · exact mem_put h

end Sys2Proof.Machine.SMap
end

