-- ==== Sys2Proof/Laws/SysOk.lean ====
section
/-! SUPPORT. The ownership and transaction state: what each update of it keeps of `Sys.ok`, and that memory operations keep DRAM canonical. -/

namespace Sys2Proof.Machine

theorem sys_ok_iff (x : Sys) : x.ok = true ↔ ownerId x.owner = true ∧ ownerId x.handover = true ∧
    (∀ w ∈ x.waits, isControlMaster w.master = true) ∧ x.landq.length ≤ 16 ∧ ∀ e ∈ x.slots, slotOk e = true := by
  simp only [Sys.ok, Bool.and_eq_true, List.all_eq_true, decide_eq_true_eq, and_assoc]

theorem sys_ok_same {x y : Sys} (h1 : x.owner = y.owner) (h2 : x.handover = y.handover) (h3 : x.waits = y.waits)
    (h4 : x.landq = y.landq) (h5 : x.slots = y.slots) (h : y.ok = true) : x.ok = true := by
  rw [sys_ok_iff] at *
  rw [h1, h2, h3, h4, h5]; exact h

theorem sys_ok_take {x y : Sys} (p : Claim → Bool) (h1 : ownerId x.owner = true) (h2 : x.handover = 0) (h3 : x.waits = y.waits.filter p)
    (h4 : x.landq = y.landq) (h5 : x.slots = y.slots) (h : y.ok = true) : x.ok = true := by
  rw [sys_ok_iff] at *
  rw [h2, h3, h4, h5]
  exact ⟨h1, rfl, fun w hw => h.2.2.1 w (List.mem_filter.mp hw).1, h.2.2.2⟩

theorem sys_ok_owner {x : Sys} {m : Nat} (h : x.ok = true) (hm : ownerId m = true) : ({ x with owner := m } : Sys).ok = true := by
  rw [sys_ok_iff] at *
  exact ⟨hm, h.2⟩

theorem sys_ok_handover {x : Sys} {m : Nat} (h : x.ok = true) (hm : ownerId m = true) :
    ({ x with handover := m } : Sys).ok = true := by
  rw [sys_ok_iff] at *
  exact ⟨h.1, hm, h.2.2⟩

theorem sys_ok_waits {x : Sys} {ws : List Claim} (h : x.ok = true) (hw : ∀ w ∈ ws, isControlMaster w.master = true) :
    ({ x with waits := ws } : Sys).ok = true := by
  rw [sys_ok_iff] at *
  exact ⟨h.1, h.2.1, hw, h.2.2.2⟩

theorem sys_ok_waits_filter {x : Sys} (p : Claim → Bool) (h : x.ok = true) :
    ({ x with waits := x.waits.filter p } : Sys).ok = true :=
  sys_ok_waits h fun w hw => ((sys_ok_iff x).mp h).2.2.1 w (List.mem_filter.mp hw).1

theorem sys_ok_landq {x : Sys} {l : List Commit} (h : x.ok = true) (hl : l.length ≤ 16) :
    ({ x with landq := l } : Sys).ok = true := by
  rw [sys_ok_iff] at *
  exact ⟨h.1, h.2.1, h.2.2.1, hl, h.2.2.2.2⟩

theorem sys_ok_landq_filter {x : Sys} (p : Commit → Bool) (h : x.ok = true) :
    ({ x with landq := x.landq.filter p } : Sys).ok = true :=
  sys_ok_landq h (Nat.le_trans (List.length_filter_le _ _) ((sys_ok_iff x).mp h).2.2.2.1)

theorem sys_ok_slots {x : Sys} {i : Nat} {t : Option Txn} (h : x.ok = true) (ht : slotOk (i, t) = true) :
    ({ x with slots := x.slots.set (fun _ => none) i t } : Sys).ok = true := by
  rw [sys_ok_iff] at *
  refine ⟨h.1, h.2.1, h.2.2.1, h.2.2.2.1, fun e he => ?_⟩
  rcases SMap.mem_set (fun _ => none) he with rfl | he
  · exact ht
  · exact h.2.2.2.2 e he

theorem ownerId_of_control {m : Nat} (h : isControlMaster m = true) : ownerId m = true := by simp [ownerId, h]

theorem control_of_ownerId {m : Nat} (h : ownerId m = true) (h0 : m ≠ 0) : isControlMaster m = true := by
  simpa [ownerId, h0] using h

/-- A map lists what it reads as, unless that is the default. -/
theorem SMap.mem_of_get {α : Type} {d : Nat → α} {k : Nat} {v : α} : {m : SMap α} → SMap.get d m k = v → v ≠ d k → (k, v) ∈ m
  | [], h, hv => absurd h.symm hv
  | (j, w) :: m, h, hv => by
    rw [SMap.get] at h
    split at h
    · rename_i e; subst e; subst h; exact List.mem_cons_self
    · exact List.mem_cons_of_mem _ (SMap.mem_of_get h hv)

theorem State.slot_mem {s : State} {i : Nat} {t : Txn} (h : s.slot i = some t) : (i, some t) ∈ s.sys.slots :=
  SMap.mem_of_get h (by simp)

theorem State.slotOf_slot {s : State} {a i : Nat} {t : Txn} (h : s.slotOf a = some (i, t)) : i < 8 ∧ s.slot i = some t := by
  unfold State.slotOf at h
  obtain ⟨j, hj, h⟩ := List.exists_of_findSome?_eq_some h
  split at h
  · rename_i u hu
    split at h
    · cases h; exact ⟨List.mem_range.mp hj, hu⟩
    · cases h
  · cases h

theorem State.slotOf_ok {s : State} {a i : Nat} {t : Txn} (hs : s.sys.ok = true) (h : s.slotOf a = some (i, t)) :
    i < 8 ∧ t.writes.length ≤ 4096 := by
  obtain ⟨hi, h⟩ := State.slotOf_slot h
  have := ((sys_ok_iff s.sys).mp hs).2.2.2.2 _ (State.slot_mem h)
  simp only [slotOk, Bool.and_eq_true, decide_eq_true_eq] at this
  exact this

theorem State.freeSlot_lt {s : State} {i : Nat} (h : s.freeSlot = some i) : i < 8 :=
  List.mem_range.mp (List.mem_of_find?_eq_some h)

/-- One more value keeps a shadow copy within its 4,096 entries (R60). -/
theorem addWrite_length {t : Txn} {w : TWrite} (h : t.writes.length ≤ 4096) : (State.addWrite t w).writes.length ≤ 4096 := by
  unfold State.addWrite
  split
  · simpa using h
  · split
    · simp; omega
    · exact h

theorem addWrites_length {ws : List TWrite} : {t : Txn} → t.writes.length ≤ 4096 → (ws.foldl State.addWrite t).writes.length ≤ 4096 := by
  induction ws with
  | nil => exact fun h => h
  | cons w ws ih => exact fun h => ih (addWrite_length h)

theorem oldestWait_mem : {ws : List Claim} → {w : Claim} → State.oldestWait ws = some w → w ∈ ws := by
  intro ws w h
  unfold State.oldestWait at h
  suffices H : ∀ (l : List Claim) (acc : Option Claim), (∀ a, acc = some a → a ∈ ws) → (∀ x ∈ l, x ∈ ws) →
      ∀ w, l.foldl (fun acc w => match acc with
        | none => some w
        | some a => if w.arrived < a.arrived ∨ (w.arrived = a.arrived ∧ w.master < a.master) then some w else some a) acc = some w → w ∈ ws by
    exact H ws none (by simp) (fun _ hx => hx) w h
  intro l
  induction l with
  | nil => intro acc ha _ w h; exact ha w h
  | cons x l ih =>
    intro acc ha hl w h
    refine ih _ ?_ (fun y hy => hl y (List.mem_cons_of_mem _ hy)) w h
    intro a e
    dsimp only at e
    split at e
    · cases e; exact hl _ List.mem_cons_self
    · split at e
      · cases e; exact hl _ List.mem_cons_self
      · cases e; exact ha _ rfl

/-- A session that is valid for a master is a control master's (R416). -/
theorem sessionValid_control {s : State} {m i : Nat} (h : s.sessionValid m i = true) : isControlMaster m = true := by
  unfold State.sessionValid at h
  split at h
  · simp only [Bool.and_eq_true, decide_eq_true_eq] at h
    simp [isControlMaster]; omega
  · split at h
    · simp only [Bool.and_eq_true, decide_eq_true_eq] at h
      simp [isControlMaster]; omega
    · cases h

/-- A target that a handover may name is a control master (R56). -/
theorem badTarget_control {m t : Nat} (h : State.badTarget m t = false) : isControlMaster t = true := by
  simp [State.badTarget] at h
  simp [isControlMaster]; omega

/-- Stores keep DRAM canonical. -/
theorem wf_storeBytes (bs : List Byte) : ∀ {m : SMap Byte} (a : Nat), Memory.wf m = true → Memory.wf (State.storeBytes m a bs) = true := by
  induction bs with
  | nil => exact fun _ h => h
  | cons b bs ih => exact fun a h => ih (a + 1) (SMap.wf_set _ h)

end Sys2Proof.Machine
end

