-- ==== Sys2Proof/Laws/Keeps.lean ====
section
/-! SUPPORT. What a change keeps: `Keeps m s t` says that `t` differs from `s` in the parts of the bit mask `m` only, and that DRAM stays canonical and the ownership and transaction state good; one lemma per update of a field, and what the claims read off it. -/

namespace Sys2Proof.Machine

/-- The bit of a part. -/
def Part.idx : Part → Nat
  | .pending => 0
  | .now => 1
  | .fresh => 2
  | .regs => 3
  | .held => 4
  | .latched => 5
  | .rsp => 6
  | .evSet => 7
  | .evAdd => 8
  | .evPosted => 9
  | .mem => 10
  | .fab => 11
  | .sys => 12
  | .time => 13
  | .pilots => 14
  | .shared => 15
  | .published => 16
  | .log => 17
  | .queues => 18
  | .leaves => 19
  | .cal => 20
  | .lanes => 21
  | .ports => 22
  | .pipes => 23
  | .encPics => 24
  | .encStreams => 25
  | .decs => 26
  | .lze => 27
  | .memsys => 28
  | .scn => 29
  | .pcx => 30
  | .sec => 31
  | .nets => 32
  | .hcp => 33
  | .aud => 34
  | .twbs => 35
  | .gpio => 36
  | .pwr => 37
  | .jtag => 38

/-- `t` differs from `s` in the parts of the mask only, and what is good of `s` stays good. -/
structure Keeps (m : Nat) (s t : State) : Prop where
  same : ∀ p : Part, m.testBit p.idx = false → Part.same s t p
  mem : Memory.wf s.mem = true → Memory.wf t.mem = true
  own : s.sys.ok = true → t.sys.ok = true

theorem Part.same_refl (s : State) (p : Part) : Part.same s s p := by cases p <;> rfl

theorem Keeps.refl {m : Nat} {s : State} : Keeps m s s := ⟨fun p _ => Part.same_refl s p, id, id⟩

theorem Part.same_trans {s t u : State} {p : Part} (h : Part.same s t p) (h' : Part.same t u p) : Part.same s u p := by
  cases p <;> exact h'.trans h

theorem Keeps.trans {m : Nat} {s t u : State} (h : Keeps m s t) (h' : Keeps m t u) : Keeps m s u :=
  ⟨fun p hp => Part.same_trans (h.same p hp) (h'.same p hp), fun x => h'.mem (h.mem x), fun x => h'.own (h.own x)⟩

theorem sub_trans {a b c : Nat} (h : a ||| b = b) (h' : b ||| c = c) : a ||| c = c := by
  rw [← h', ← Nat.or_assoc, h]

theorem sub_testBit {a b i : Nat} (h : a ||| b = b) (hb : b.testBit i = false) : a.testBit i = false := by
  rw [← h, Nat.testBit_or] at hb
  exact (Bool.or_eq_false_iff.mp hb).1

theorem Keeps.mono {a b : Nat} {s t : State} (h : Keeps a s t) (hs : a ||| b = b) : Keeps b s t :=
  ⟨fun p hp => h.same p (sub_testBit hs hp), h.mem, h.own⟩

/-- The mask of a list of parts. -/
def Part.mask (ps : List Part) : Nat := ps.foldr (fun p m => 2 ^ p.idx ||| m) 0

theorem Part.idx_inj {p q : Part} (h : p.idx = q.idx) : p = q := by
  cases p <;> cases q <;> first | rfl | (simp [Part.idx] at h)

theorem Part.mask_testBit {p : Part} : {ps : List Part} → p ∉ ps → (Part.mask ps).testBit p.idx = false
  | [], _ => by simp [Part.mask]
  | q :: qs, h => by
    have hq : p ≠ q := fun e => h (e ▸ List.mem_cons_self)
    have hr : p ∉ qs := fun e => h (List.mem_cons_of_mem _ e)
    have := Part.mask_testBit hr
    have e : q.idx ≠ p.idx := fun e => hq (Part.idx_inj e).symm
    simp only [Part.mask, List.foldr_cons, Nat.testBit_or, Nat.testBit_two_pow, Bool.or_eq_false_iff] at *
    exact ⟨by simpa using e, this⟩

/-- The claims' form: with `hm` by `rfl`. -/
theorem Keeps.only {m : Nat} {s t : State} (ps : List Part) (h : Keeps m s t) (hm : m ||| Part.mask ps = Part.mask ps) :
    Only ps s t := fun p hp => h.same p (sub_testBit hm (Part.mask_testBit hp))

theorem keeps_flat {m : Nat} {s₀ s t : State} (h : Keeps m s₀ s) (hs : ∀ p : Part, m.testBit p.idx = false → Part.same s₀ t p)
    (hm : Memory.wf s.mem = true → Memory.wf t.mem = true) (ho : s.sys.ok = true → t.sys.ok = true) : Keeps m s₀ t :=
  ⟨hs, fun x => hm (h.mem x), fun x => ho (h.own x)⟩

theorem keeps_foldl {α : Type} {m : Nat} {s₀ : State} (f : State → α → State) (l : List α) {s : State}
    (hf : ∀ x a, Keeps m s₀ x → Keeps m s₀ (f x a)) (h : Keeps m s₀ s) : Keeps m s₀ (l.foldl f s) := by
  induction l generalizing s with
  | nil => exact h
  | cons a l ih => exact ih (hf _ a h)

theorem keeps_ite {m : Nat} {s₀ a b : State} {p : Prop} [Decidable p] (ha : Keeps m s₀ a) (hb : Keeps m s₀ b) :
    Keeps m s₀ (if p then a else b) := by
  split <;> assumption

theorem keeps_ite_fst {α : Type} {m : Nat} {s₀ : State} {a b : State × α} {p : Prop} [Decidable p] (ha : Keeps m s₀ a.1)
    (hb : Keeps m s₀ b.1) : Keeps m s₀ (if p then a else b).1 := by
  split <;> assumption

variable {m : Nat} {s₀ s : State}

theorem keeps_pending {v} (h : Keeps m s₀ s) (hl : 1 ||| m = m) : Keeps m s₀ { s with pending := v } := by
  refine ⟨fun p hp => ?_, h.mem, h.own⟩
  cases p <;> first | exact h.same _ hp | exact absurd (sub_testBit hl hp) (by decide)
theorem keeps_now {v} (h : Keeps m s₀ s) (hl : 2 ||| m = m) : Keeps m s₀ { s with now := v } := by
  refine ⟨fun p hp => ?_, h.mem, h.own⟩
  cases p <;> first | exact h.same _ hp | exact absurd (sub_testBit hl hp) (by decide)
theorem keeps_fresh {v} (h : Keeps m s₀ s) (hl : 4 ||| m = m) : Keeps m s₀ { s with fresh := v } := by
  refine ⟨fun p hp => ?_, h.mem, h.own⟩
  cases p <;> first | exact h.same _ hp | exact absurd (sub_testBit hl hp) (by decide)
theorem keeps_regs {v} (h : Keeps m s₀ s) (hl : 8 ||| m = m) : Keeps m s₀ { s with regs := v } := by
  refine ⟨fun p hp => ?_, h.mem, h.own⟩
  cases p <;> first | exact h.same _ hp | exact absurd (sub_testBit hl hp) (by decide)
theorem keeps_held {v} (h : Keeps m s₀ s) (hl : 16 ||| m = m) : Keeps m s₀ { s with held := v } := by
  refine ⟨fun p hp => ?_, h.mem, h.own⟩
  cases p <;> first | exact h.same _ hp | exact absurd (sub_testBit hl hp) (by decide)
theorem keeps_latched {v} (h : Keeps m s₀ s) (hl : 32 ||| m = m) : Keeps m s₀ { s with latched := v } := by
  refine ⟨fun p hp => ?_, h.mem, h.own⟩
  cases p <;> first | exact h.same _ hp | exact absurd (sub_testBit hl hp) (by decide)
theorem keeps_rsp {v} (h : Keeps m s₀ s) (hl : 64 ||| m = m) : Keeps m s₀ { s with rsp := v } := by
  refine ⟨fun p hp => ?_, h.mem, h.own⟩
  cases p <;> first | exact h.same _ hp | exact absurd (sub_testBit hl hp) (by decide)
theorem keeps_evSet {v} (h : Keeps m s₀ s) (hl : 128 ||| m = m) : Keeps m s₀ { s with evSet := v } := by
  refine ⟨fun p hp => ?_, h.mem, h.own⟩
  cases p <;> first | exact h.same _ hp | exact absurd (sub_testBit hl hp) (by decide)
theorem keeps_evAdd {v} (h : Keeps m s₀ s) (hl : 256 ||| m = m) : Keeps m s₀ { s with evAdd := v } := by
  refine ⟨fun p hp => ?_, h.mem, h.own⟩
  cases p <;> first | exact h.same _ hp | exact absurd (sub_testBit hl hp) (by decide)
theorem keeps_evPosted {v} (h : Keeps m s₀ s) (hl : 512 ||| m = m) : Keeps m s₀ { s with evPosted := v } := by
  refine ⟨fun p hp => ?_, h.mem, h.own⟩
  cases p <;> first | exact h.same _ hp | exact absurd (sub_testBit hl hp) (by decide)
theorem keeps_mem {v} (hv : Memory.wf s.mem = true → Memory.wf v = true) (h : Keeps m s₀ s) (hl : 1024 ||| m = m) : Keeps m s₀ { s with mem := v } := by
  refine ⟨fun p hp => ?_, fun x => hv (h.mem x), h.own⟩
  cases p <;> first | exact h.same _ hp | exact absurd (sub_testBit hl hp) (by decide)
theorem keeps_fab {v} (h : Keeps m s₀ s) (hl : 2048 ||| m = m) : Keeps m s₀ { s with fab := v } := by
  refine ⟨fun p hp => ?_, h.mem, h.own⟩
  cases p <;> first | exact h.same _ hp | exact absurd (sub_testBit hl hp) (by decide)
theorem keeps_sys {v} (hv : s.sys.ok = true → v.ok = true) (h : Keeps m s₀ s) (hl : 4096 ||| m = m) : Keeps m s₀ { s with sys := v } := by
  refine ⟨fun p hp => ?_, h.mem, fun x => hv (h.own x)⟩
  cases p <;> first | exact h.same _ hp | exact absurd (sub_testBit hl hp) (by decide)
theorem keeps_time {v} (h : Keeps m s₀ s) (hl : 8192 ||| m = m) : Keeps m s₀ { s with time := v } := by
  refine ⟨fun p hp => ?_, h.mem, h.own⟩
  cases p <;> first | exact h.same _ hp | exact absurd (sub_testBit hl hp) (by decide)
theorem keeps_pilots {v} (h : Keeps m s₀ s) (hl : 16384 ||| m = m) : Keeps m s₀ { s with pilots := v } := by
  refine ⟨fun p hp => ?_, h.mem, h.own⟩
  cases p <;> first | exact h.same _ hp | exact absurd (sub_testBit hl hp) (by decide)
theorem keeps_shared {v} (h : Keeps m s₀ s) (hl : 32768 ||| m = m) : Keeps m s₀ { s with shared := v } := by
  refine ⟨fun p hp => ?_, h.mem, h.own⟩
  cases p <;> first | exact h.same _ hp | exact absurd (sub_testBit hl hp) (by decide)
theorem keeps_published {v} (h : Keeps m s₀ s) (hl : 65536 ||| m = m) : Keeps m s₀ { s with published := v } := by
  refine ⟨fun p hp => ?_, h.mem, h.own⟩
  cases p <;> first | exact h.same _ hp | exact absurd (sub_testBit hl hp) (by decide)
theorem keeps_log {v} (h : Keeps m s₀ s) (hl : 131072 ||| m = m) : Keeps m s₀ { s with log := v } := by
  refine ⟨fun p hp => ?_, h.mem, h.own⟩
  cases p <;> first | exact h.same _ hp | exact absurd (sub_testBit hl hp) (by decide)
theorem keeps_queues {v} (h : Keeps m s₀ s) (hl : 262144 ||| m = m) : Keeps m s₀ { s with queues := v } := by
  refine ⟨fun p hp => ?_, h.mem, h.own⟩
  cases p <;> first | exact h.same _ hp | exact absurd (sub_testBit hl hp) (by decide)
theorem keeps_leaves {v} (h : Keeps m s₀ s) (hl : 524288 ||| m = m) : Keeps m s₀ { s with leaves := v } := by
  refine ⟨fun p hp => ?_, h.mem, h.own⟩
  cases p <;> first | exact h.same _ hp | exact absurd (sub_testBit hl hp) (by decide)
theorem keeps_cal {v} (h : Keeps m s₀ s) (hl : 1048576 ||| m = m) : Keeps m s₀ { s with cal := v } := by
  refine ⟨fun p hp => ?_, h.mem, h.own⟩
  cases p <;> first | exact h.same _ hp | exact absurd (sub_testBit hl hp) (by decide)
theorem keeps_lanes {v} (h : Keeps m s₀ s) (hl : 2097152 ||| m = m) : Keeps m s₀ { s with lanes := v } := by
  refine ⟨fun p hp => ?_, h.mem, h.own⟩
  cases p <;> first | exact h.same _ hp | exact absurd (sub_testBit hl hp) (by decide)
theorem keeps_ports {v} (h : Keeps m s₀ s) (hl : 4194304 ||| m = m) : Keeps m s₀ { s with ports := v } := by
  refine ⟨fun p hp => ?_, h.mem, h.own⟩
  cases p <;> first | exact h.same _ hp | exact absurd (sub_testBit hl hp) (by decide)
theorem keeps_pipes {v} (h : Keeps m s₀ s) (hl : 8388608 ||| m = m) : Keeps m s₀ { s with pipes := v } := by
  refine ⟨fun p hp => ?_, h.mem, h.own⟩
  cases p <;> first | exact h.same _ hp | exact absurd (sub_testBit hl hp) (by decide)
theorem keeps_encPics {v} (h : Keeps m s₀ s) (hl : 16777216 ||| m = m) : Keeps m s₀ { s with encPics := v } := by
  refine ⟨fun p hp => ?_, h.mem, h.own⟩
  cases p <;> first | exact h.same _ hp | exact absurd (sub_testBit hl hp) (by decide)
theorem keeps_encStreams {v} (h : Keeps m s₀ s) (hl : 33554432 ||| m = m) : Keeps m s₀ { s with encStreams := v } := by
  refine ⟨fun p hp => ?_, h.mem, h.own⟩
  cases p <;> first | exact h.same _ hp | exact absurd (sub_testBit hl hp) (by decide)
theorem keeps_decs {v} (h : Keeps m s₀ s) (hl : 67108864 ||| m = m) : Keeps m s₀ { s with decs := v } := by
  refine ⟨fun p hp => ?_, h.mem, h.own⟩
  cases p <;> first | exact h.same _ hp | exact absurd (sub_testBit hl hp) (by decide)
theorem keeps_lze {v} (h : Keeps m s₀ s) (hl : 134217728 ||| m = m) : Keeps m s₀ { s with lze := v } := by
  refine ⟨fun p hp => ?_, h.mem, h.own⟩
  cases p <;> first | exact h.same _ hp | exact absurd (sub_testBit hl hp) (by decide)
theorem keeps_memsys {v} (h : Keeps m s₀ s) (hl : 268435456 ||| m = m) : Keeps m s₀ { s with memsys := v } := by
  refine ⟨fun p hp => ?_, h.mem, h.own⟩
  cases p <;> first | exact h.same _ hp | exact absurd (sub_testBit hl hp) (by decide)
theorem keeps_scn {v} (h : Keeps m s₀ s) (hl : 536870912 ||| m = m) : Keeps m s₀ { s with scn := v } := by
  refine ⟨fun p hp => ?_, h.mem, h.own⟩
  cases p <;> first | exact h.same _ hp | exact absurd (sub_testBit hl hp) (by decide)
theorem keeps_pcx {v} (h : Keeps m s₀ s) (hl : 1073741824 ||| m = m) : Keeps m s₀ { s with pcx := v } := by
  refine ⟨fun p hp => ?_, h.mem, h.own⟩
  cases p <;> first | exact h.same _ hp | exact absurd (sub_testBit hl hp) (by decide)
theorem keeps_sec {v} (h : Keeps m s₀ s) (hl : 2147483648 ||| m = m) : Keeps m s₀ { s with sec := v } := by
  refine ⟨fun p hp => ?_, h.mem, h.own⟩
  cases p <;> first | exact h.same _ hp | exact absurd (sub_testBit hl hp) (by decide)
theorem keeps_nets {v} (h : Keeps m s₀ s) (hl : 4294967296 ||| m = m) : Keeps m s₀ { s with nets := v } := by
  refine ⟨fun p hp => ?_, h.mem, h.own⟩
  cases p <;> first | exact h.same _ hp | exact absurd (sub_testBit hl hp) (by decide)
theorem keeps_hcp {v} (h : Keeps m s₀ s) (hl : 8589934592 ||| m = m) : Keeps m s₀ { s with hcp := v } := by
  refine ⟨fun p hp => ?_, h.mem, h.own⟩
  cases p <;> first | exact h.same _ hp | exact absurd (sub_testBit hl hp) (by decide)
theorem keeps_aud {v} (h : Keeps m s₀ s) (hl : 17179869184 ||| m = m) : Keeps m s₀ { s with aud := v } := by
  refine ⟨fun p hp => ?_, h.mem, h.own⟩
  cases p <;> first | exact h.same _ hp | exact absurd (sub_testBit hl hp) (by decide)
theorem keeps_twbs {v} (h : Keeps m s₀ s) (hl : 34359738368 ||| m = m) : Keeps m s₀ { s with twbs := v } := by
  refine ⟨fun p hp => ?_, h.mem, h.own⟩
  cases p <;> first | exact h.same _ hp | exact absurd (sub_testBit hl hp) (by decide)
theorem keeps_gpio {v} (h : Keeps m s₀ s) (hl : 68719476736 ||| m = m) : Keeps m s₀ { s with gpio := v } := by
  refine ⟨fun p hp => ?_, h.mem, h.own⟩
  cases p <;> first | exact h.same _ hp | exact absurd (sub_testBit hl hp) (by decide)
theorem keeps_pwr {v} (h : Keeps m s₀ s) (hl : 137438953472 ||| m = m) : Keeps m s₀ { s with pwr := v } := by
  refine ⟨fun p hp => ?_, h.mem, h.own⟩
  cases p <;> first | exact h.same _ hp | exact absurd (sub_testBit hl hp) (by decide)
theorem keeps_jtag {v} (h : Keeps m s₀ s) (hl : 274877906944 ||| m = m) : Keeps m s₀ { s with jtag := v } := by
  refine ⟨fun p hp => ?_, h.mem, h.own⟩
  cases p <;> first | exact h.same _ hp | exact absurd (sub_testBit hl hp) (by decide)
theorem keeps_sys₀ {v} (hv : s₀.sys.ok = true → s.sys.ok = true → v.ok = true) (h : Keeps m s₀ s) (hl : 4096 ||| m = m) :
    Keeps m s₀ { s with sys := v } :=
  ⟨fun p hp => by cases p <;> first | exact h.same _ hp | exact absurd (sub_testBit hl hp) (by decide), h.mem, fun x => hv x (h.own x)⟩
theorem keeps_pending_iff {v} (hl : 1 ||| m = m) : Keeps m s₀ { s with pending := v } ↔ Keeps m s₀ s :=
  ⟨fun h => keeps_pending (s := { s with pending := v }) (v := s.pending) h hl, fun h => keeps_pending h hl⟩
theorem keeps_now_iff {v} (hl : 2 ||| m = m) : Keeps m s₀ { s with now := v } ↔ Keeps m s₀ s :=
  ⟨fun h => keeps_now (s := { s with now := v }) (v := s.now) h hl, fun h => keeps_now h hl⟩
theorem keeps_fresh_iff {v} (hl : 4 ||| m = m) : Keeps m s₀ { s with fresh := v } ↔ Keeps m s₀ s :=
  ⟨fun h => keeps_fresh (s := { s with fresh := v }) (v := s.fresh) h hl, fun h => keeps_fresh h hl⟩
theorem keeps_regs_iff {v} (hl : 8 ||| m = m) : Keeps m s₀ { s with regs := v } ↔ Keeps m s₀ s :=
  ⟨fun h => keeps_regs (s := { s with regs := v }) (v := s.regs) h hl, fun h => keeps_regs h hl⟩
theorem keeps_held_iff {v} (hl : 16 ||| m = m) : Keeps m s₀ { s with held := v } ↔ Keeps m s₀ s :=
  ⟨fun h => keeps_held (s := { s with held := v }) (v := s.held) h hl, fun h => keeps_held h hl⟩
theorem keeps_latched_iff {v} (hl : 32 ||| m = m) : Keeps m s₀ { s with latched := v } ↔ Keeps m s₀ s :=
  ⟨fun h => keeps_latched (s := { s with latched := v }) (v := s.latched) h hl, fun h => keeps_latched h hl⟩
theorem keeps_rsp_iff {v} (hl : 64 ||| m = m) : Keeps m s₀ { s with rsp := v } ↔ Keeps m s₀ s :=
  ⟨fun h => keeps_rsp (s := { s with rsp := v }) (v := s.rsp) h hl, fun h => keeps_rsp h hl⟩
theorem keeps_evSet_iff {v} (hl : 128 ||| m = m) : Keeps m s₀ { s with evSet := v } ↔ Keeps m s₀ s :=
  ⟨fun h => keeps_evSet (s := { s with evSet := v }) (v := s.evSet) h hl, fun h => keeps_evSet h hl⟩
theorem keeps_evAdd_iff {v} (hl : 256 ||| m = m) : Keeps m s₀ { s with evAdd := v } ↔ Keeps m s₀ s :=
  ⟨fun h => keeps_evAdd (s := { s with evAdd := v }) (v := s.evAdd) h hl, fun h => keeps_evAdd h hl⟩
theorem keeps_evPosted_iff {v} (hl : 512 ||| m = m) : Keeps m s₀ { s with evPosted := v } ↔ Keeps m s₀ s :=
  ⟨fun h => keeps_evPosted (s := { s with evPosted := v }) (v := s.evPosted) h hl, fun h => keeps_evPosted h hl⟩
theorem keeps_fab_iff {v} (hl : 2048 ||| m = m) : Keeps m s₀ { s with fab := v } ↔ Keeps m s₀ s :=
  ⟨fun h => keeps_fab (s := { s with fab := v }) (v := s.fab) h hl, fun h => keeps_fab h hl⟩
theorem keeps_time_iff {v} (hl : 8192 ||| m = m) : Keeps m s₀ { s with time := v } ↔ Keeps m s₀ s :=
  ⟨fun h => keeps_time (s := { s with time := v }) (v := s.time) h hl, fun h => keeps_time h hl⟩
theorem keeps_pilots_iff {v} (hl : 16384 ||| m = m) : Keeps m s₀ { s with pilots := v } ↔ Keeps m s₀ s :=
  ⟨fun h => keeps_pilots (s := { s with pilots := v }) (v := s.pilots) h hl, fun h => keeps_pilots h hl⟩
theorem keeps_shared_iff {v} (hl : 32768 ||| m = m) : Keeps m s₀ { s with shared := v } ↔ Keeps m s₀ s :=
  ⟨fun h => keeps_shared (s := { s with shared := v }) (v := s.shared) h hl, fun h => keeps_shared h hl⟩
theorem keeps_published_iff {v} (hl : 65536 ||| m = m) : Keeps m s₀ { s with published := v } ↔ Keeps m s₀ s :=
  ⟨fun h => keeps_published (s := { s with published := v }) (v := s.published) h hl, fun h => keeps_published h hl⟩
theorem keeps_log_iff {v} (hl : 131072 ||| m = m) : Keeps m s₀ { s with log := v } ↔ Keeps m s₀ s :=
  ⟨fun h => keeps_log (s := { s with log := v }) (v := s.log) h hl, fun h => keeps_log h hl⟩
theorem keeps_queues_iff {v} (hl : 262144 ||| m = m) : Keeps m s₀ { s with queues := v } ↔ Keeps m s₀ s :=
  ⟨fun h => keeps_queues (s := { s with queues := v }) (v := s.queues) h hl, fun h => keeps_queues h hl⟩
theorem keeps_leaves_iff {v} (hl : 524288 ||| m = m) : Keeps m s₀ { s with leaves := v } ↔ Keeps m s₀ s :=
  ⟨fun h => keeps_leaves (s := { s with leaves := v }) (v := s.leaves) h hl, fun h => keeps_leaves h hl⟩
theorem keeps_cal_iff {v} (hl : 1048576 ||| m = m) : Keeps m s₀ { s with cal := v } ↔ Keeps m s₀ s :=
  ⟨fun h => keeps_cal (s := { s with cal := v }) (v := s.cal) h hl, fun h => keeps_cal h hl⟩
theorem keeps_lanes_iff {v} (hl : 2097152 ||| m = m) : Keeps m s₀ { s with lanes := v } ↔ Keeps m s₀ s :=
  ⟨fun h => keeps_lanes (s := { s with lanes := v }) (v := s.lanes) h hl, fun h => keeps_lanes h hl⟩
theorem keeps_ports_iff {v} (hl : 4194304 ||| m = m) : Keeps m s₀ { s with ports := v } ↔ Keeps m s₀ s :=
  ⟨fun h => keeps_ports (s := { s with ports := v }) (v := s.ports) h hl, fun h => keeps_ports h hl⟩
theorem keeps_pipes_iff {v} (hl : 8388608 ||| m = m) : Keeps m s₀ { s with pipes := v } ↔ Keeps m s₀ s :=
  ⟨fun h => keeps_pipes (s := { s with pipes := v }) (v := s.pipes) h hl, fun h => keeps_pipes h hl⟩
theorem keeps_encPics_iff {v} (hl : 16777216 ||| m = m) : Keeps m s₀ { s with encPics := v } ↔ Keeps m s₀ s :=
  ⟨fun h => keeps_encPics (s := { s with encPics := v }) (v := s.encPics) h hl, fun h => keeps_encPics h hl⟩
theorem keeps_encStreams_iff {v} (hl : 33554432 ||| m = m) : Keeps m s₀ { s with encStreams := v } ↔ Keeps m s₀ s :=
  ⟨fun h => keeps_encStreams (s := { s with encStreams := v }) (v := s.encStreams) h hl, fun h => keeps_encStreams h hl⟩
theorem keeps_decs_iff {v} (hl : 67108864 ||| m = m) : Keeps m s₀ { s with decs := v } ↔ Keeps m s₀ s :=
  ⟨fun h => keeps_decs (s := { s with decs := v }) (v := s.decs) h hl, fun h => keeps_decs h hl⟩
theorem keeps_lze_iff {v} (hl : 134217728 ||| m = m) : Keeps m s₀ { s with lze := v } ↔ Keeps m s₀ s :=
  ⟨fun h => keeps_lze (s := { s with lze := v }) (v := s.lze) h hl, fun h => keeps_lze h hl⟩
theorem keeps_memsys_iff {v} (hl : 268435456 ||| m = m) : Keeps m s₀ { s with memsys := v } ↔ Keeps m s₀ s :=
  ⟨fun h => keeps_memsys (s := { s with memsys := v }) (v := s.memsys) h hl, fun h => keeps_memsys h hl⟩
theorem keeps_scn_iff {v} (hl : 536870912 ||| m = m) : Keeps m s₀ { s with scn := v } ↔ Keeps m s₀ s :=
  ⟨fun h => keeps_scn (s := { s with scn := v }) (v := s.scn) h hl, fun h => keeps_scn h hl⟩
theorem keeps_pcx_iff {v} (hl : 1073741824 ||| m = m) : Keeps m s₀ { s with pcx := v } ↔ Keeps m s₀ s :=
  ⟨fun h => keeps_pcx (s := { s with pcx := v }) (v := s.pcx) h hl, fun h => keeps_pcx h hl⟩
theorem keeps_sec_iff {v} (hl : 2147483648 ||| m = m) : Keeps m s₀ { s with sec := v } ↔ Keeps m s₀ s :=
  ⟨fun h => keeps_sec (s := { s with sec := v }) (v := s.sec) h hl, fun h => keeps_sec h hl⟩
theorem keeps_nets_iff {v} (hl : 4294967296 ||| m = m) : Keeps m s₀ { s with nets := v } ↔ Keeps m s₀ s :=
  ⟨fun h => keeps_nets (s := { s with nets := v }) (v := s.nets) h hl, fun h => keeps_nets h hl⟩
theorem keeps_hcp_iff {v} (hl : 8589934592 ||| m = m) : Keeps m s₀ { s with hcp := v } ↔ Keeps m s₀ s :=
  ⟨fun h => keeps_hcp (s := { s with hcp := v }) (v := s.hcp) h hl, fun h => keeps_hcp h hl⟩
theorem keeps_aud_iff {v} (hl : 17179869184 ||| m = m) : Keeps m s₀ { s with aud := v } ↔ Keeps m s₀ s :=
  ⟨fun h => keeps_aud (s := { s with aud := v }) (v := s.aud) h hl, fun h => keeps_aud h hl⟩
theorem keeps_twbs_iff {v} (hl : 34359738368 ||| m = m) : Keeps m s₀ { s with twbs := v } ↔ Keeps m s₀ s :=
  ⟨fun h => keeps_twbs (s := { s with twbs := v }) (v := s.twbs) h hl, fun h => keeps_twbs h hl⟩
theorem keeps_gpio_iff {v} (hl : 68719476736 ||| m = m) : Keeps m s₀ { s with gpio := v } ↔ Keeps m s₀ s :=
  ⟨fun h => keeps_gpio (s := { s with gpio := v }) (v := s.gpio) h hl, fun h => keeps_gpio h hl⟩
theorem keeps_pwr_iff {v} (hl : 137438953472 ||| m = m) : Keeps m s₀ { s with pwr := v } ↔ Keeps m s₀ s :=
  ⟨fun h => keeps_pwr (s := { s with pwr := v }) (v := s.pwr) h hl, fun h => keeps_pwr h hl⟩
theorem keeps_jtag_iff {v} (hl : 274877906944 ||| m = m) : Keeps m s₀ { s with jtag := v } ↔ Keeps m s₀ s :=
  ⟨fun h => keeps_jtag (s := { s with jtag := v }) (v := s.jtag) h hl, fun h => keeps_jtag h hl⟩

end Sys2Proof.Machine
end

