-- ==== Sys2Proof/Laws/FrameCore.lean ====
section
/-! SUPPORT. One lemma per operation over the state: the parts it may change, as a bit mask (Part.idx); the operations of the control-space words, events, dockets, the logbook, berths, transactions, banks, queues, calibration, time and GPIO. -/

namespace Sys2Proof.Machine

open State

theorem keeps_setWord {L : Nat} {s₀ s : State} (a : Nat) (v : Word) (h : Keeps L s₀ s)
    (hl : 8 ||| L = L) : Keeps L s₀ (State.setWord s a v) := by
  unfold State.setWord
  repeat' first
    | with_reducible exact h
    | exact sub_trans rfl hl
    | with_reducible assumption
    | simp only [keeps_regs_iff (sub_trans rfl hl)]

theorem keeps_setFld {L : Nat} {s₀ s : State} (f : Fld) (v : Nat) (h : Keeps L s₀ s)
    (hl : 8 ||| L = L) : Keeps L s₀ (State.setFld s f v) := by
  unfold State.setFld
  repeat' first
    | with_reducible exact h
    | exact sub_trans rfl hl
    | with_reducible assumption
    | with_reducible refine keeps_setWord _ _ ?_ ?_

theorem keeps_setFld2 {L : Nat} {s₀ s : State} (lo : Fld) (hi : Fld) (v : Nat) (h : Keeps L s₀ s)
    (hl : 8 ||| L = L) : Keeps L s₀ (State.setFld2 s lo hi v) := by
  unfold State.setFld2
  repeat' first
    | with_reducible exact h
    | exact sub_trans rfl hl
    | with_reducible assumption
    | with_reducible refine keeps_setFld _ _ ?_ ?_

theorem keeps_resetWords {L : Nat} {s₀ s : State} (lo : Nat) (hi : Nat) (h : Keeps L s₀ s)
    (hl : 8 ||| L = L) : Keeps L s₀ (State.resetWords s lo hi) := by
  unfold State.resetWords
  repeat' first
    | with_reducible exact h
    | exact sub_trans rfl hl
    | with_reducible assumption
    | simp only [keeps_regs_iff (sub_trans rfl hl)]

theorem keeps_nextFree {L : Nat} {s₀ s : State}  (h : Keeps L s₀ s)
    (hl : 4 ||| L = L) : Keeps L s₀ (State.nextFree s) := by
  unfold State.nextFree
  repeat' first
    | with_reducible exact h
    | exact sub_trans rfl hl
    | with_reducible assumption
    | simp only [keeps_fresh_iff (sub_trans rfl hl)]

theorem keeps_setBerth {L : Nat} {s₀ s : State} (a1 : Nat) (b : Berth) (h : Keeps L s₀ s)
    (hl : 2048 ||| L = L) : Keeps L s₀ (State.setBerth s a1 b) := by
  unfold State.setBerth
  repeat' first
    | with_reducible exact h
    | exact sub_trans rfl hl
    | with_reducible assumption
    | simp only [keeps_fab_iff (sub_trans rfl hl)]

theorem keeps_setPilot {L : Nat} {s₀ s : State} (k : Nat) (p : Pilot) (h : Keeps L s₀ s)
    (hl : 16384 ||| L = L) : Keeps L s₀ (State.setPilot s k p) := by
  unfold State.setPilot
  repeat' first
    | with_reducible exact h
    | exact sub_trans rfl hl
    | with_reducible assumption
    | simp only [keeps_pilots_iff (sub_trans rfl hl)]

theorem keeps_setDom {L : Nat} {s₀ s : State} (d : Nat) (x : Dom) (h : Keeps L s₀ s)
    (hl : 8192 ||| L = L) : Keeps L s₀ (State.setDom s d x) := by
  unfold State.setDom
  repeat' first
    | with_reducible exact h
    | exact sub_trans rfl hl
    | with_reducible assumption
    | simp only [keeps_time_iff (sub_trans rfl hl)]

theorem keeps_setEvtPin {L : Nat} {s₀ s : State} (i : Nat) (x : EvtPin) (h : Keeps L s₀ s)
    (hl : 8192 ||| L = L) : Keeps L s₀ (State.setEvtPin s i x) := by
  unfold State.setEvtPin
  repeat' first
    | with_reducible exact h
    | exact sub_trans rfl hl
    | with_reducible assumption
    | simp only [keeps_time_iff (sub_trans rfl hl)]

theorem keeps_memWrite {L : Nat} {s₀ s : State} (a : Nat) (bs : List Byte) (h : Keeps L s₀ s)
    (hl : 1024 ||| L = L) : Keeps L s₀ (State.memWrite s a bs) := keeps_mem (wf_storeBytes bs a) h hl

theorem keeps_setBitsOf {L : Nat} {s₀ s : State} (a : Nat) (m : Nat) (h : Keeps L s₀ s)
    (hl : 136 ||| L = L) : Keeps L s₀ (State.setBitsOf s a m) := by
  unfold State.setBitsOf
  repeat' first
    | with_reducible exact h
    | exact sub_trans rfl hl
    | with_reducible assumption
    | with_reducible refine keeps_setWord _ _ ?_ ?_
    | simp only [keeps_evSet_iff (sub_trans rfl hl)]

theorem keeps_rcEvent {L : Nat} {s₀ s : State} (f : Fld) (v : Nat) (share : Nat) (h : Keeps L s₀ s)
    (hl : 264 ||| L = L) : Keeps L s₀ (State.rcEvent s f v share) := by
  unfold State.rcEvent
  repeat' first
    | with_reducible exact h
    | exact sub_trans rfl hl
    | with_reducible assumption
    | with_reducible refine keeps_setFld _ _ ?_ ?_
    | simp only [keeps_evAdd_iff (sub_trans rfl hl)]

theorem keeps_count {L : Nat} {s₀ s : State} (f : Fld) (k : optParam Nat 1) (h : Keeps L s₀ s)
    (hl : 264 ||| L = L) : Keeps L s₀ (State.count s f k) := by
  unfold State.count
  repeat' first
    | with_reducible exact h
    | exact sub_trans rfl hl
    | with_reducible assumption
    | with_reducible refine keeps_rcEvent _ _ _ ?_ ?_

theorem keeps_enqueue {L : Nat} {s₀ s : State} (k : Nat) (kind : Nat) (src : Nat) (sub : Nat) (payload : Nat) (h : Keeps L s₀ s)
    (hl : 16648 ||| L = L) : Keeps L s₀ (State.enqueue s k kind src sub payload) := by
  unfold State.enqueue
  repeat' first
    | with_reducible exact h
    | exact sub_trans rfl hl
    | with_reducible assumption
    | with_reducible refine keeps_count _ _ ?_ ?_
    | with_reducible refine keeps_setPilot _ _ ?_ ?_
    | dsimp only
    | with_reducible refine keeps_foldl _ _ (fun _ _ hx => ?_) ?_
    | with_reducible refine keeps_ite ?_ ?_

theorem keeps_live {L : Nat} {s₀ s : State} (f : State → State) (hf : ∀ x, Keeps L s₀ x → Keeps L s₀ (f x)) (h : Keeps L s₀ s)
    (hl : 264 ||| L = L) : Keeps L s₀ (State.live s f) := by
  unfold State.live
  repeat' first
    | with_reducible exact h
    | exact sub_trans rfl hl
    | with_reducible assumption
    | with_reducible refine keeps_count _ _ ?_ ?_
    | simp only [keeps_regs_iff (sub_trans rfl hl), keeps_evAdd_iff (sub_trans rfl hl)]
    | with_reducible refine hf _ ?_
    | with_reducible refine keeps_foldl _ _ (fun _ _ hx => ?_) ?_
    | with_reducible refine keeps_ite ?_ ?_

theorem keeps_postTo {L : Nat} {s₀ s : State} (k : Nat) (kind : Nat) (src : Nat) (sub : Nat) (payload : Nat) (h : Keeps L s₀ s)
    (hl : 16648 ||| L = L) : Keeps L s₀ (State.postTo s k kind src sub payload) := by
  unfold State.postTo
  repeat' first
    | with_reducible exact h
    | exact sub_trans rfl hl
    | with_reducible assumption
    | with_reducible refine keeps_enqueue _ _ _ _ _ ?_ ?_
    | with_reducible refine keeps_live _ (fun _ hx => ?_) ?_ ?_

theorem keeps_deliver {L : Nat} {s₀ a5 : State} (kind : Nat) (src : Nat) (sub : Nat) (payload : Nat) (a4 : List Nat) (h : Keeps L s₀ a5)
    (hl : 16648 ||| L = L) : Keeps L s₀ (State.deliver kind src sub payload a4 a5) := by
  fun_induction State.deliver kind src sub payload a4 a5
  all_goals repeat' first
      | with_reducible exact h
      | exact sub_trans rfl hl
      | with_reducible assumption
      | with_reducible refine keeps_enqueue _ _ _ _ _ ?_ ?_
      | simp only [keeps_regs_iff (sub_trans rfl hl), keeps_evAdd_iff (sub_trans rfl hl), keeps_pilots_iff (sub_trans rfl hl)]
      | with_reducible refine keeps_foldl _ _ (fun _ _ hx => ?_) ?_
      | with_reducible apply_assumption
      | with_reducible refine keeps_ite ?_ ?_

theorem keeps_post {L : Nat} {s₀ s : State} (kind : Nat) (src : Nat) (sub : Nat) (payload : Nat) (h : Keeps L s₀ s)
    (hl : 16648 ||| L = L) : Keeps L s₀ (State.post s kind src sub payload) := by
  unfold State.post
  repeat' first
    | with_reducible exact h
    | exact sub_trans rfl hl
    | with_reducible assumption
    | with_reducible refine keeps_deliver _ _ _ _ _ ?_ ?_
    | with_reducible refine keeps_live _ (fun _ hx => ?_) ?_ ?_

theorem keeps_mergeAll {L : Nat} {s₀ a3 : State} (src : Nat) (m : Nat) (a2 : List Nat) (h : Keeps L s₀ a3)
    (hl : 16384 ||| L = L) : Keeps L s₀ (State.mergeAll src m a2 a3) := by
  fun_induction State.mergeAll src m a2 a3
  all_goals repeat' first
      | with_reducible exact h
      | exact sub_trans rfl hl
      | with_reducible assumption
      | with_reducible refine keeps_setPilot _ _ ?_ ?_
      | simp only [keeps_pilots_iff (sub_trans rfl hl)]
      | with_reducible refine keeps_foldl _ _ (fun _ _ hx => ?_) ?_
      | with_reducible apply_assumption

theorem keeps_unitEvent {L : Nat} {s₀ s : State} (src : Nat) (m : Nat) (h : Keeps L s₀ s)
    (hl : 17160 ||| L = L) : Keeps L s₀ (State.unitEvent s src m) := by
  unfold State.unitEvent
  repeat' first
    | with_reducible exact h
    | exact sub_trans rfl hl
    | with_reducible assumption
    | with_reducible refine keeps_post _ _ _ _ ?_ ?_
    | with_reducible refine keeps_mergeAll _ _ _ ?_ ?_
    | simp only [keeps_evPosted_iff (sub_trans rfl hl)]
    | with_reducible refine keeps_foldl _ _ (fun _ _ hx => ?_) ?_
    | with_reducible refine keeps_ite ?_ ?_

theorem keeps_raise {L : Nat} {s₀ s : State} (a : Nat) (en : Nat) (src : Nat) (m : Nat) (sh : optParam Nat 0) (h : Keeps L s₀ s)
    (hl : 17288 ||| L = L) : Keeps L s₀ (State.raise s a en src m sh) := by
  unfold State.raise
  repeat' first
    | with_reducible exact h
    | exact sub_trans rfl hl
    | with_reducible assumption
    | with_reducible refine keeps_unitEvent _ _ ?_ ?_
    | with_reducible refine keeps_setBitsOf _ _ ?_ ?_

theorem keeps_mergeAllAt {L : Nat} {s₀ a5 : State} (src : Nat) (im : Nat) (inst : Nat) (m : Nat) (a4 : List Nat) (h : Keeps L s₀ a5)
    (hl : 16384 ||| L = L) : Keeps L s₀ (State.mergeAllAt src im inst m a4 a5) := by
  fun_induction State.mergeAllAt src im inst m a4 a5
  all_goals repeat' first
      | with_reducible exact h
      | exact sub_trans rfl hl
      | with_reducible assumption
      | with_reducible refine keeps_setPilot _ _ ?_ ?_
      | simp only [keeps_pilots_iff (sub_trans rfl hl)]
      | with_reducible refine keeps_foldl _ _ (fun _ _ hx => ?_) ?_
      | with_reducible apply_assumption

theorem keeps_raiseAt {L : Nat} {s₀ s : State} (a : Nat) (en : Nat) (src : Nat) (im : Nat) (inst : Nat) (m : Nat) (h : Keeps L s₀ s)
    (hl : 17288 ||| L = L) : Keeps L s₀ (State.raiseAt s a en src im inst m) := by
  unfold State.raiseAt
  repeat' first
    | with_reducible exact h
    | exact sub_trans rfl hl
    | with_reducible assumption
    | with_reducible refine keeps_post _ _ _ _ ?_ ?_
    | with_reducible refine keeps_setBitsOf _ _ ?_ ?_
    | with_reducible refine keeps_mergeAllAt _ _ _ _ _ ?_ ?_
    | simp only [keeps_evPosted_iff (sub_trans rfl hl)]
    | with_reducible refine keeps_foldl _ _ (fun _ _ hx => ?_) ?_
    | with_reducible refine keeps_ite ?_ ?_

theorem keeps_pushRec {L : Nat} {s₀ s : State} (r : LogRec) (h : Keeps L s₀ s)
    (hl : 131072 ||| L = L) : Keeps L s₀ (State.pushRec s r) := by
  unfold State.pushRec
  repeat' first
    | with_reducible exact h
    | exact sub_trans rfl hl
    | with_reducible assumption
    | simp only [keeps_log_iff (sub_trans rfl hl)]

theorem keeps_pushLost {L : Nat} {s₀ s : State}  (h : Keeps L s₀ s)
    (hl : 131072 ||| L = L) : Keeps L s₀ (State.pushLost s) := by
  unfold State.pushLost
  repeat' first
    | with_reducible exact h
    | exact sub_trans rfl hl
    | with_reducible assumption
    | with_reducible refine keeps_pushRec _ ?_ ?_
    | simp only [keeps_log_iff (sub_trans rfl hl)]
    | with_reducible refine keeps_foldl _ _ (fun _ _ hx => ?_) ?_
    | with_reducible refine keeps_ite ?_ ?_

theorem keeps_closeSegment {L : Nat} {s₀ s : State}  (h : Keeps L s₀ s)
    (hl : 131080 ||| L = L) : Keeps L s₀ (State.closeSegment s) := by
  unfold State.closeSegment
  repeat' first
    | with_reducible exact h
    | exact sub_trans rfl hl
    | with_reducible assumption
    | with_reducible refine keeps_setFld _ _ ?_ ?_
    | simp only [keeps_log_iff (sub_trans rfl hl)]

theorem keeps_continueSegment {L : Nat} {s₀ s : State}  (h : Keeps L s₀ s)
    (hl : 131072 ||| L = L) : Keeps L s₀ (State.continueSegment s) := by
  unfold State.continueSegment
  repeat' first
    | with_reducible exact h
    | exact sub_trans rfl hl
    | with_reducible assumption
    | with_reducible refine keeps_pushLost ?_ ?_
    | with_reducible refine keeps_pushRec _ ?_ ?_
    | simp only [keeps_log_iff (sub_trans rfl hl)]
    | with_reducible refine keeps_foldl _ _ (fun _ _ hx => ?_) ?_
    | with_reducible refine keeps_ite ?_ ?_
    | split

theorem keeps_loseRecord {L : Nat} {s₀ s : State}  (h : Keeps L s₀ s)
    (hl : 148360 ||| L = L) : Keeps L s₀ (State.loseRecord s) := by
  unfold State.loseRecord
  repeat' first
    | with_reducible exact h
    | exact sub_trans rfl hl
    | with_reducible assumption
    | with_reducible refine keeps_raise _ _ _ _ _ ?_ ?_
    | with_reducible refine keeps_count _ _ ?_ ?_
    | simp only [keeps_log_iff (sub_trans rfl hl)]

theorem keeps_logRec {L : Nat} {s₀ s : State} (typ : Nat) (src : Nat) (sub : Nat) (body : List Nat) (h : Keeps L s₀ s)
    (hl : 148360 ||| L = L) : Keeps L s₀ (State.logRec s typ src sub body) := by
  unfold State.logRec
  repeat' first
    | with_reducible exact h
    | exact sub_trans rfl hl
    | with_reducible assumption
    | with_reducible refine keeps_continueSegment ?_ ?_
    | with_reducible refine keeps_pushRec _ ?_ ?_
    | with_reducible refine keeps_closeSegment ?_ ?_
    | with_reducible refine keeps_loseRecord ?_ ?_
    | dsimp only
    | with_reducible refine keeps_foldl _ _ (fun _ _ hx => ?_) ?_
    | with_reducible refine keeps_ite ?_ ?_

theorem keeps_note {L : Nat} {s₀ s : State} (src : Nat) (code : Nat) (a : Nat) (b : Nat) (h : Keeps L s₀ s)
    (hl : 148360 ||| L = L) : Keeps L s₀ (State.note s src code a b) := by
  unfold State.note
  repeat' first
    | with_reducible exact h
    | exact sub_trans rfl hl
    | with_reducible assumption
    | with_reducible refine keeps_logRec _ _ _ _ ?_ ?_

theorem keeps_diverge {L : Nat} {s₀ s : State} (t : Nat) (kind : Nat) (src : Nat) (stream : Nat) (key : Nat) (h : Keeps L s₀ s)
    (hl : 148360 ||| L = L) : Keeps L s₀ (State.diverge s t kind src stream key) := by
  unfold State.diverge
  repeat' first
    | with_reducible exact h
    | exact sub_trans rfl hl
    | with_reducible assumption
    | with_reducible refine keeps_raise _ _ _ _ _ ?_ ?_
    | with_reducible refine keeps_setFld _ _ ?_ ?_
    | with_reducible refine keeps_count _ _ ?_ ?_
    | with_reducible refine keeps_setFld2 _ _ _ ?_ ?_
    | with_reducible refine keeps_setWord _ _ ?_ ?_
    | simp only [keeps_log_iff (sub_trans rfl hl)]
    | with_reducible refine keeps_foldl _ _ (fun _ _ hx => ?_) ?_
    | with_reducible refine keeps_ite ?_ ?_

theorem keeps_compareRec {L : Nat} {s₀ s : State} (same : LogRec → Bool) (ok : LogRec → Bool) (bad : State → State) (missing : State → State) (hbad : ∀ x, Keeps L s₀ x → Keeps L s₀ (bad x)) (hmissing : ∀ x, Keeps L s₀ x → Keeps L s₀ (missing x)) (h : Keeps L s₀ s)
    (hl : 131072 ||| L = L) : Keeps L s₀ (State.compareRec s same ok bad missing) := by
  unfold State.compareRec
  repeat' first
    | with_reducible exact h
    | exact sub_trans rfl hl
    | with_reducible assumption
    | simp only [keeps_log_iff (sub_trans rfl hl)]
    | with_reducible refine hbad _ ?_
    | with_reducible refine hmissing _ ?_
    | with_reducible refine keeps_foldl _ _ (fun _ _ hx => ?_) ?_
    | with_reducible refine keeps_ite ?_ ?_
    | split

theorem keeps_berthFault {L : Nat} {s₀ s : State} (u : Nat) (a2 : Nat) (cause : Nat) (h : Keeps L s₀ s)
    (hl : 148360 ||| L = L) : Keeps L s₀ (State.berthFault s u a2 cause) := by
  unfold State.berthFault
  repeat' first
    | with_reducible exact h
    | exact sub_trans rfl hl
    | with_reducible assumption
    | with_reducible refine keeps_raise _ _ _ _ _ ?_ ?_
    | with_reducible refine keeps_note _ _ _ _ ?_ ?_
    | with_reducible refine keeps_count _ _ ?_ ?_
    | with_reducible refine keeps_setFld _ _ ?_ ?_

theorem keeps_acquire {L : Nat} {s₀ s : State} (u : Nat) (a2 : Nat) (h : Keeps L s₀ s)
    (hl : 150408 ||| L = L) : Keeps L s₀ (State.acquire s u a2).1 := by
  unfold State.acquire
  repeat' first
    | with_reducible exact h
    | exact sub_trans rfl hl
    | with_reducible assumption
    | with_reducible refine keeps_berthFault _ _ _ ?_ ?_
    | with_reducible refine keeps_setBerth _ _ ?_ ?_
    | simp only [keeps_regs_iff (sub_trans rfl hl), keeps_fab_iff (sub_trans rfl hl)]
    | with_reducible refine keeps_foldl _ _ (fun _ _ hx => ?_) ?_
    | with_reducible refine keeps_ite_fst ?_ ?_

theorem keeps_acquire' {L : Nat} {s₀ s' : State} {s : State} {u : Nat} {a2 : Nat} {res} (he : State.acquire s u a2 = (s', res)) (h : Keeps L s₀ s)
    (hl : 150408 ||| L = L) : Keeps L s₀ s' := by
  have := keeps_acquire u a2 h hl
  rwa [he] at this

theorem keeps_releaseTable {L : Nat} {s₀ s : State} (u : Nat) (a2 : Nat) (h : Keeps L s₀ s)
    (hl : 150408 ||| L = L) : Keeps L s₀ (State.releaseTable s u a2) := by
  unfold State.releaseTable
  repeat' first
    | with_reducible exact h
    | exact sub_trans rfl hl
    | with_reducible assumption
    | with_reducible refine keeps_berthFault _ _ _ ?_ ?_
    | with_reducible refine keeps_setBerth _ _ ?_ ?_
    | simp only [keeps_fab_iff (sub_trans rfl hl)]
    | with_reducible refine keeps_foldl _ _ (fun _ _ hx => ?_) ?_
    | with_reducible refine keeps_ite ?_ ?_

theorem keeps_allocate {L : Nat} {s₀ s : State} (a1 : Nat) (base : Nat) (pages : Nat) (format : Nat) (owner : Nat) (h : Keeps L s₀ s)
    (hl : 2048 ||| L = L) : Keeps L s₀ (State.allocate s a1 base pages format owner).1 := by
  unfold State.allocate
  repeat' first
    | with_reducible exact h
    | exact sub_trans rfl hl
    | with_reducible assumption
    | with_reducible refine keeps_setBerth _ _ ?_ ?_
    | simp only [keeps_fab_iff (sub_trans rfl hl)]
    | with_reducible refine keeps_foldl _ _ (fun _ _ hx => ?_) ?_
    | with_reducible refine keeps_ite_fst ?_ ?_

theorem keeps_allocate' {L : Nat} {s₀ s' : State} {s : State} {a1 : Nat} {base : Nat} {pages : Nat} {format : Nat} {owner : Nat} {res} (he : State.allocate s a1 base pages format owner = (s', res)) (h : Keeps L s₀ s)
    (hl : 2048 ||| L = L) : Keeps L s₀ s' := by
  have := keeps_allocate a1 base pages format owner h hl
  rwa [he] at this

theorem keeps_earlyFree {L : Nat} {s₀ s : State} (u : Nat) (a2 : Nat) (h : Keeps L s₀ s)
    (hl : 148360 ||| L = L) : Keeps L s₀ (State.earlyFree s u a2) := by
  unfold State.earlyFree
  repeat' first
    | with_reducible exact h
    | exact sub_trans rfl hl
    | with_reducible assumption
    | with_reducible refine keeps_raise _ _ _ _ _ ?_ ?_
    | with_reducible refine keeps_note _ _ _ _ ?_ ?_
    | with_reducible refine keeps_count _ _ ?_ ?_
    | with_reducible refine keeps_setFld _ _ ?_ ?_

theorem keeps_free {L : Nat} {s₀ s : State} (u : Nat) (a2 : Nat) (h : Keeps L s₀ s)
    (hl : 150408 ||| L = L) : Keeps L s₀ (State.free s u a2).1 := by
  unfold State.free
  repeat' first
    | with_reducible exact h
    | exact sub_trans rfl hl
    | with_reducible assumption
    | with_reducible refine keeps_setBerth _ _ ?_ ?_
    | with_reducible refine keeps_earlyFree _ _ ?_ ?_
    | simp only [keeps_regs_iff (sub_trans rfl hl)]
    | with_reducible refine keeps_foldl _ _ (fun _ _ hx => ?_) ?_
    | with_reducible refine keeps_ite_fst ?_ ?_

theorem keeps_free' {L : Nat} {s₀ s' : State} {s : State} {u : Nat} {a2 : Nat} {res} (he : State.free s u a2 = (s', res)) (h : Keeps L s₀ s)
    (hl : 150408 ||| L = L) : Keeps L s₀ s' := by
  have := keeps_free u a2 h hl
  rwa [he] at this

theorem keeps_readBerth {L : Nat} {s₀ s : State} (u : Nat) (a2 : Nat) (ofs : Nat) (len : Nat) (h : Keeps L s₀ s)
    (hl : 148360 ||| L = L) : Keeps L s₀ (State.readBerth s u a2 ofs len).1 := by
  unfold State.readBerth
  repeat' first
    | with_reducible exact h
    | exact sub_trans rfl hl
    | with_reducible assumption
    | with_reducible refine keeps_berthFault _ _ _ ?_ ?_
    | simp only [keeps_regs_iff (sub_trans rfl hl)]
    | with_reducible refine keeps_foldl _ _ (fun _ _ hx => ?_) ?_
    | with_reducible refine keeps_ite_fst ?_ ?_

theorem keeps_readBerth' {L : Nat} {s₀ s' : State} {s : State} {u : Nat} {a2 : Nat} {ofs : Nat} {len : Nat} {res} (he : State.readBerth s u a2 ofs len = (s', res)) (h : Keeps L s₀ s)
    (hl : 148360 ||| L = L) : Keeps L s₀ s' := by
  have := keeps_readBerth u a2 ofs len h hl
  rwa [he] at this

theorem keeps_writeBerth {L : Nat} {s₀ s : State} (u : Nat) (a2 : Nat) (ofs : Nat) (bs : List Byte) (h : Keeps L s₀ s)
    (hl : 149384 ||| L = L) : Keeps L s₀ (State.writeBerth s u a2 ofs bs) := by
  unfold State.writeBerth
  repeat' first
    | with_reducible exact h
    | exact sub_trans rfl hl
    | with_reducible assumption
    | with_reducible refine keeps_berthFault _ _ _ ?_ ?_
    | with_reducible refine keeps_memWrite _ _ ?_ ?_
    | dsimp only
    | with_reducible refine keeps_foldl _ _ (fun _ _ hx => ?_) ?_
    | with_reducible refine keeps_ite ?_ ?_

theorem keeps_manifestIn {L : Nat} {s₀ s : State} (u : Nat) (a2 : Nat) (m : Manifest) (h : Keeps L s₀ s)
    (hl : 2048 ||| L = L) : Keeps L s₀ (State.manifestIn s u a2 m) := by
  unfold State.manifestIn
  repeat' first
    | with_reducible exact h
    | exact sub_trans rfl hl
    | with_reducible assumption
    | with_reducible refine keeps_setBerth _ _ ?_ ?_
    | simp only [keeps_fab_iff (sub_trans rfl hl)]

theorem keeps_setPicSize {L : Nat} {s₀ s : State} (a1 : Nat) (w : Nat) (hgt : Nat) (h : Keeps L s₀ s)
    (hl : 2048 ||| L = L) : Keeps L s₀ (State.setPicSize s a1 w hgt) := by
  unfold State.setPicSize
  repeat' first
    | with_reducible exact h
    | exact sub_trans rfl hl
    | with_reducible assumption
    | with_reducible refine keeps_setBerth _ _ ?_ ?_

theorem keeps_parcelIn {L : Nat} {s₀ s : State} (u : Nat) (m : Manifest) (ofs : Nat) (payload : List Byte) (h : Keeps L s₀ s)
    (hl : 151432 ||| L = L) : Keeps L s₀ (State.parcelIn s u m ofs payload) := by
  unfold State.parcelIn
  repeat' first
    | with_reducible exact h
    | exact sub_trans rfl hl
    | with_reducible assumption
    | with_reducible refine keeps_manifestIn _ _ _ ?_ ?_
    | with_reducible refine keeps_berthFault _ _ _ ?_ ?_
    | with_reducible refine keeps_memWrite _ _ ?_ ?_
    | dsimp only
    | with_reducible refine keeps_foldl _ _ (fun _ _ hx => ?_) ?_
    | with_reducible refine keeps_ite ?_ ?_

theorem keeps_beginWork {L : Nat} {s₀ s : State} (u : Nat) (t : Nat) (due : Nat) (e : Nat) (h : Keeps L s₀ s)
    (hl : 2048 ||| L = L) : Keeps L s₀ (State.beginWork s u t due e) := by
  unfold State.beginWork
  repeat' first
    | with_reducible exact h
    | exact sub_trans rfl hl
    | with_reducible assumption
    | simp only [keeps_fab_iff (sub_trans rfl hl)]

theorem keeps_endWork {L : Nat} {s₀ s : State} (u : Nat) (t : Nat) (h : Keeps L s₀ s)
    (hl : 2048 ||| L = L) : Keeps L s₀ (State.endWork s u t) := by
  unfold State.endWork
  repeat' first
    | with_reducible exact h
    | exact sub_trans rfl hl
    | with_reducible assumption
    | simp only [keeps_fab_iff (sub_trans rfl hl)]

theorem keeps_endAllWork {L : Nat} {s₀ s : State} (u : Nat) (h : Keeps L s₀ s)
    (hl : 2048 ||| L = L) : Keeps L s₀ (State.endAllWork s u) := by
  unfold State.endAllWork
  repeat' first
    | with_reducible exact h
    | exact sub_trans rfl hl
    | with_reducible assumption
    | simp only [keeps_fab_iff (sub_trans rfl hl)]

theorem keeps_declareOverrun {L : Nat} {s₀ s : State} (u : Nat) (t : Nat) (h : Keeps L s₀ s)
    (hl : 19336 ||| L = L) : Keeps L s₀ (State.declareOverrun s u t) := by
  unfold State.declareOverrun
  repeat' first
    | with_reducible exact h
    | exact sub_trans rfl hl
    | with_reducible assumption
    | with_reducible refine keeps_raise _ _ _ _ _ ?_ ?_
    | with_reducible refine keeps_count _ _ ?_ ?_
    | with_reducible refine keeps_setFld2 _ _ _ ?_ ?_
    | simp only [keeps_fab_iff (sub_trans rfl hl)]

theorem keeps_countAbandon {L : Nat} {s₀ s : State} (u : Nat) (h : Keeps L s₀ s)
    (hl : 17288 ||| L = L) : Keeps L s₀ (State.countAbandon s u) := by
  unfold State.countAbandon
  repeat' first
    | with_reducible exact h
    | exact sub_trans rfl hl
    | with_reducible assumption
    | with_reducible refine keeps_raise _ _ _ _ _ ?_ ?_
    | with_reducible refine keeps_count _ _ ?_ ?_

theorem keeps_berthRel {L : Nat} {s₀ s : State} (u : Nat) (a2 : Nat) (frame : Nat) (flags : Nat) (h : Keeps L s₀ s)
    (hl : 16648 ||| L = L) : Keeps L s₀ (State.berthRel s u a2 frame flags) := by
  unfold State.berthRel
  repeat' first
    | with_reducible exact h
    | exact sub_trans rfl hl
    | with_reducible assumption
    | with_reducible refine keeps_post _ _ _ _ ?_ ?_

theorem keeps_setSlot {L : Nat} {s₀ s : State} (i : Nat) (t : Option Txn) (hv : s.sys.ok = true → slotOk (i, t) = true)
    (h : Keeps L s₀ s) (hl : 4096 ||| L = L) : Keeps L s₀ (State.setSlot s i t) :=
  keeps_sys (fun ho => sys_ok_slots ho (hv ho)) h hl

theorem slotOk_none {i : Nat} (h : i < 8) : slotOk (i, none) = true := by simp [slotOk, h]

theorem keeps_txnBegin {L : Nat} {s₀ s : State} (a1 : Nat) (h : Keeps L s₀ s)
    (hl : 4096 ||| L = L) : Keeps L s₀ (State.txnBegin s a1).1 := by
  unfold State.txnBegin
  split
  · exact h
  · split
    · exact h
    · rename_i i e
      exact keeps_setSlot _ _ (fun _ => by simp [slotOk, State.freeSlot_lt e]) h hl

theorem keeps_txnBegin' {L : Nat} {s₀ s' : State} {s : State} {a1 : Nat} {res} (he : State.txnBegin s a1 = (s', res)) (h : Keeps L s₀ s)
    (hl : 4096 ||| L = L) : Keeps L s₀ s' := by
  have := keeps_txnBegin a1 h hl
  rwa [he] at this

theorem keeps_dropTxn {L : Nat} {s₀ s : State} (a1 : Nat) (h : Keeps L s₀ s)
    (hl : 4096 ||| L = L) : Keeps L s₀ (State.dropTxn s a1) := by
  unfold State.dropTxn
  split
  · rename_i e; exact keeps_setSlot _ _ (fun _ => slotOk_none (State.slotOf_slot e).1) h hl
  · exact h

theorem keeps_txnRollback {L : Nat} {s₀ s : State} (a1 : Nat) (h : Keeps L s₀ s)
    (hl : 4096 ||| L = L) : Keeps L s₀ (State.txnRollback s a1).1 := by
  unfold State.txnRollback
  split
  · rename_i e; exact keeps_setSlot _ _ (fun _ => slotOk_none (State.slotOf_slot e).1) h hl
  · exact h

theorem keeps_txnRollback' {L : Nat} {s₀ s' : State} {s : State} {a1 : Nat} {res} (he : State.txnRollback s a1 = (s', res)) (h : Keeps L s₀ s)
    (hl : 4096 ||| L = L) : Keeps L s₀ s' := by
  have := keeps_txnRollback a1 h hl
  rwa [he] at this

theorem keeps_enterQueue {L : Nat} {s₀ s : State} (a1 : Nat) (target : Nat) (ws : List TWrite) (hq : s.sys.landq.length < 16)
    (h : Keeps L s₀ s) (hl : 4096 ||| L = L) : Keeps L s₀ (State.enterQueue s a1 target ws).1 :=
  keeps_sys (fun ho => sys_ok_landq ho (by simp; omega)) h hl

theorem keeps_postResult {L : Nat} {s₀ s : State} (a1 : Nat) (result : Nat) (ticket : Nat) (h : Keeps L s₀ s)
    (hl : 16648 ||| L = L) : Keeps L s₀ (State.postResult s a1 result ticket) := by
  unfold State.postResult
  repeat' first
    | with_reducible exact h
    | exact sub_trans rfl hl
    | with_reducible assumption
    | with_reducible refine keeps_post _ _ _ _ ?_ ?_
    | with_reducible refine keeps_postTo _ _ _ _ _ ?_ ?_
    | simp only [keeps_regs_iff (sub_trans rfl hl), keeps_evAdd_iff (sub_trans rfl hl), keeps_pilots_iff (sub_trans rfl hl)]
    | with_reducible refine keeps_foldl _ _ (fun _ _ hx => ?_) ?_
    | with_reducible refine keeps_ite ?_ ?_

theorem keeps_commit {L : Nat} {s₀ s : State} (a1 : Nat) (target : Nat) (next : Bool) (orLater : Bool) (h : Keeps L s₀ s)
    (hl : 20744 ||| L = L) : Keeps L s₀ (State.commit s a1 target next orLater).1 := by
  unfold State.commit
  split
  · exact h
  · rename_i i t e
    have h1 : Keeps L s₀ (s.setSlot i none) := keeps_setSlot _ _ (fun _ => slotOk_none (State.slotOf_slot e).1) h (sub_trans rfl hl)
    dsimp only
    refine keeps_postResult _ _ _ (keeps_ite_fst h1 (keeps_ite_fst h1 (keeps_ite_fst h1 ?_))) (sub_trans rfl hl)
    split
    · exact h1
    · rename_i hq
      exact keeps_enterQueue _ _ _ (by simpa [State.setSlot] using hq) h1 (sub_trans rfl hl)

theorem keeps_commit' {L : Nat} {s₀ s' : State} {s : State} {a1 : Nat} {target : Nat} {next : Bool} {orLater : Bool} {res} (he : State.commit s a1 target next orLater = (s', res)) (h : Keeps L s₀ s)
    (hl : 20744 ||| L = L) : Keeps L s₀ s' := by
  have := keeps_commit a1 target next orLater h hl
  rwa [he] at this

theorem keeps_implicitCommit {L : Nat} {s₀ s : State} (a1 : Nat) (ws : List TWrite) (h : Keeps L s₀ s)
    (hl : 21384 ||| L = L) : Keeps L s₀ (State.implicitCommit s a1 ws) := by
  unfold State.implicitCommit
  split
  · exact keeps_postResult _ _ _ (keeps_raise _ _ _ _ _ h (sub_trans rfl hl)) (sub_trans rfl hl)
  · rename_i hq
    exact keeps_postResult _ _ _ (keeps_enterQueue _ _ _ (by omega) h (sub_trans rfl hl)) (sub_trans rfl hl)

theorem keeps_writeT {L : Nat} {s₀ s : State} (a1 : Nat) (ws : List TWrite) (h : Keeps L s₀ s)
    (hl : 21384 ||| L = L) : Keeps L s₀ (State.writeT s a1 ws) := by
  unfold State.writeT
  refine keeps_ite h ?_
  split
  · rename_i i t e
    refine keeps_setSlot _ _ (fun ho => ?_) h (sub_trans rfl hl)
    have := State.slotOf_ok ho e
    simp [slotOk, this.1, addWrites_length this.2]
  · exact keeps_implicitCommit _ _ h hl

theorem keeps_withdraw {L : Nat} {s₀ s : State} (a1 : Nat) (ticket : Nat) (h : Keeps L s₀ s)
    (hl : 4096 ||| L = L) : Keeps L s₀ (State.withdraw s a1 ticket).1 := by
  unfold State.withdraw
  refine keeps_ite_fst h ?_
  split
  · exact h
  · exact keeps_ite_fst h (keeps_ite_fst h (keeps_sys (fun ho => sys_ok_landq_filter _ ho) h hl))

theorem keeps_withdraw' {L : Nat} {s₀ s' : State} {s : State} {a1 : Nat} {ticket : Nat} {res} (he : State.withdraw s a1 ticket = (s', res)) (h : Keeps L s₀ s)
    (hl : 4096 ||| L = L) : Keeps L s₀ s' := by
  have := keeps_withdraw a1 ticket h hl
  rwa [he] at this

theorem keeps_takeBank {L : Nat} {s₀ s : State} (i : Nat) (h : Keeps L s₀ s)
    (hl : 4096 ||| L = L) : Keeps L s₀ (State.takeBank s i) := by
  unfold State.takeBank
  repeat' first
    | with_reducible exact h
    | exact sub_trans rfl hl
    | with_reducible assumption
    | dsimp only
    | refine keeps_sys (sys_ok_same rfl rfl rfl rfl rfl) ?_ ?_

theorem keeps_takeBanks {L : Nat} {s₀ a1 : State} (a0 : List Nat) (h : Keeps L s₀ a1)
    (hl : 4096 ||| L = L) : Keeps L s₀ (State.takeBanks a0 a1) := by
  fun_induction State.takeBanks a0 a1
  all_goals repeat' first
      | with_reducible exact h
      | exact sub_trans rfl hl
      | with_reducible assumption
      | with_reducible refine keeps_takeBank _ ?_ ?_
      | dsimp only
      | with_reducible refine keeps_foldl _ _ (fun _ _ hx => ?_) ?_
      | with_reducible apply_assumption

theorem keeps_touchBank {L : Nat} {s₀ s : State} (i : Nat) (e : Nat) (h : Keeps L s₀ s)
    (hl : 4096 ||| L = L) : Keeps L s₀ (State.touchBank s i e) := by
  unfold State.touchBank
  repeat' first
    | with_reducible exact h
    | exact sub_trans rfl hl
    | with_reducible assumption
    | dsimp only
    | refine keeps_sys (sys_ok_same rfl rfl rfl rfl rfl) ?_ ?_

theorem keeps_takeApplied {L : Nat} {s₀ s : State} (key : Nat) (lo : Nat) (hi : Nat) (h : Keeps L s₀ s)
    (hl : 4096 ||| L = L) : Keeps L s₀ (State.takeApplied s key lo hi) := by
  unfold State.takeApplied
  repeat' first
    | with_reducible exact h
    | exact sub_trans rfl hl
    | with_reducible assumption
    | dsimp only
    | refine keeps_sys (sys_ok_same rfl rfl rfl rfl rfl) ?_ ?_

theorem keeps_keepShown {L : Nat} {s₀ s : State}  (h : Keeps L s₀ s)
    (hl : 4096 ||| L = L) : Keeps L s₀ (State.keepShown s) := by
  unfold State.keepShown
  repeat' first
    | with_reducible exact h
    | exact sub_trans rfl hl
    | with_reducible assumption
    | dsimp only
    | with_reducible refine keeps_foldl _ _ (fun _ _ hx => ?_) ?_
    | with_reducible refine keeps_ite ?_ ?_
    | refine keeps_sys (sys_ok_same rfl rfl rfl rfl rfl) ?_ ?_

theorem keeps_ownResult {L : Nat} {s₀ s : State} (m : Nat) (r : Nat) (h : Keeps L s₀ s)
    (hl : 4096 ||| L = L) : Keeps L s₀ (State.ownResult s m r) := by
  unfold State.ownResult
  repeat' first
    | with_reducible exact h
    | exact sub_trans rfl hl
    | with_reducible assumption
    | with_reducible refine keeps_keepShown ?_ ?_
    | dsimp only
    | refine keeps_sys (sys_ok_same rfl rfl rfl rfl rfl) ?_ ?_

theorem keeps_dropAperture {L : Nat} {s₀ s : State}  (h : Keeps L s₀ s)
    (hl : 150408 ||| L = L) : Keeps L s₀ (State.dropAperture s) := by
  unfold State.dropAperture
  repeat' first
    | with_reducible exact h
    | exact sub_trans rfl hl
    | with_reducible assumption
    | with_reducible refine keeps_releaseTable _ _ ?_ ?_
    | with_reducible refine keeps_setFld _ _ ?_ ?_
    | dsimp only
    | with_reducible refine keeps_foldl _ _ (fun _ _ hx => ?_) ?_
    | with_reducible refine keeps_ite ?_ ?_

theorem keeps_leaveOwner {L : Nat} {s₀ s : State} (h : Keeps L s₀ s)
    (hl : 154504 ||| L = L) : Keeps L s₀ (State.leaveOwner s) := by
  unfold State.leaveOwner
  have h1 : Keeps L s₀ s.keepShown := keeps_keepShown h (sub_trans rfl hl)
  refine keeps_ite h1 ?_
  refine keeps_sys (fun ho => sys_ok_owner ho rfl) (keeps_dropAperture ?_ (sub_trans rfl hl)) (sub_trans rfl hl)
  split
  · rename_i i t e
    exact keeps_sys (sys_ok_same rfl rfl rfl rfl rfl) (keeps_setSlot _ _ (fun _ => slotOk_none (State.slotOf_slot e).1) h1 (sub_trans rfl hl)) (sub_trans rfl hl)
  · exact h1

theorem keeps_takeOwnership {L : Nat} {s₀ s : State} (m : Nat) (hm : s.sys.ok = true → isControlMaster m = true)
    (h : Keeps L s₀ s) (hl : 154504 ||| L = L) : Keeps L s₀ (State.takeOwnership s m) := by
  unfold State.takeOwnership
  refine keeps_ownResult _ _ (keeps_note _ _ _ _ (keeps_raise _ _ _ _ _ ?_ (sub_trans rfl hl)) (sub_trans rfl hl)) (sub_trans rfl hl)
  refine keeps_sys₀ (fun h0 ho => ?_) (keeps_leaveOwner h hl) (sub_trans rfl hl)
  exact sys_ok_take _ (ownerId_of_control (hm (h.own h0))) rfl rfl rfl rfl ho

theorem keeps_vacate {L : Nat} {s₀ s : State} (h : Keeps L s₀ s)
    (hl : 154504 ||| L = L) : Keeps L s₀ (State.vacate s) := by
  unfold State.vacate
  extract_lets s1 x s2
  have h2 : Keeps L s₀ s2 := keeps_sys (fun ho => sys_ok_handover (m := 0) ho rfl) (keeps_leaveOwner h hl) (sub_trans rfl hl)
  clear_value s2
  split
  · rename_i w e
    exact keeps_takeOwnership _ (fun ho => ((sys_ok_iff _).mp ho).2.2.1 w (oldestWait_mem e)) h2 hl
  · exact keeps_raise _ _ _ _ _ h2 (sub_trans rfl hl)

theorem keeps_enqueueWait {L : Nat} {s₀ s : State} (m : Nat) (hm : s.sys.ok = true → isControlMaster m = true)
    (h : Keeps L s₀ s) (hl : 4096 ||| L = L) : Keeps L s₀ (State.enqueueWait s m) := by
  unfold State.enqueueWait
  refine keeps_sys₀ (fun h0 ho => sys_ok_waits ho fun w hw => ?_) (keeps_keepShown h hl) hl
  rcases List.mem_append.mp hw with hw | hw
  · exact ((sys_ok_iff _).mp ho).2.2.1 w (List.mem_filter.mp hw).1
  · rw [List.mem_singleton.mp hw]; exact hm (h.own h0)

theorem ownResult_ok {s : State} {m r : Nat} (h : (s.ownResult m r).sys.ok = true) : s.sys.ok = true := by
  unfold State.ownResult State.keepShown at h
  split at h <;> exact h

theorem enqueueWait_owner {s : State} {m : Nat} : (s.enqueueWait m).sys.owner = s.sys.owner := by
  unfold State.enqueueWait State.keepShown
  split <;> rfl

theorem keeps_claim {L : Nat} {s₀ s : State} (m : Nat) (session : Nat) (h : Keeps L s₀ s)
    (hl : 154504 ||| L = L) : Keeps L s₀ (State.claim s m session) := by
  unfold State.claim
  by_cases hv : s.sessionValid m session = true
  · have hm := sessionValid_control hv
    rw [if_neg (by simp [hv])]
    refine keeps_ite ?_ ?_
    · exact keeps_sys (sys_ok_same rfl rfl rfl rfl rfl) (keeps_ownResult _ _ h (sub_trans rfl hl)) (sub_trans rfl hl)
    · split
      · exact keeps_sys (sys_ok_same rfl rfl rfl rfl rfl) (keeps_takeOwnership _ (fun _ => hm) h hl) (sub_trans rfl hl)
      · rename_i h0
        refine keeps_ite ?_ (keeps_ite ?_ ?_)
        · exact keeps_takeOwnership _ (fun _ => hm) (keeps_ownResult _ _
            (keeps_enqueueWait _ (fun ho => control_of_ownerId ((sys_ok_iff _).mp ho).1 h0) h (sub_trans rfl hl)) (sub_trans rfl hl)) hl
        · exact keeps_ownResult _ _ (keeps_takeOwnership _ (fun _ => hm) h hl) (sub_trans rfl hl)
        · exact keeps_ownResult _ _ (keeps_enqueueWait _ (fun _ => hm) h (sub_trans rfl hl)) (sub_trans rfl hl)
  · rw [if_pos (by simpa using hv)]
    exact keeps_ownResult _ _ h (sub_trans rfl hl)

theorem keeps_ownRelease {L : Nat} {s₀ s : State} (m : Nat) (h : Keeps L s₀ s)
    (hl : 154504 ||| L = L) : Keeps L s₀ (State.ownRelease s m) := by
  unfold State.ownRelease
  repeat' first
    | with_reducible exact h
    | exact sub_trans rfl hl
    | with_reducible assumption
    | with_reducible refine keeps_ownResult _ _ ?_ ?_
    | with_reducible refine keeps_vacate ?_ ?_
    | simp only [keeps_regs_iff (sub_trans rfl hl), keeps_evSet_iff (sub_trans rfl hl), keeps_evAdd_iff (sub_trans rfl hl), keeps_evPosted_iff (sub_trans rfl hl), keeps_fab_iff (sub_trans rfl hl), keeps_pilots_iff (sub_trans rfl hl), keeps_log_iff (sub_trans rfl hl)]
    | with_reducible refine keeps_foldl _ _ (fun _ _ hx => ?_) ?_
    | with_reducible refine keeps_ite ?_ ?_

theorem keeps_heartbeat {L : Nat} {s₀ s : State} (m : Nat) (h : Keeps L s₀ s)
    (hl : 4096 ||| L = L) : Keeps L s₀ (State.heartbeat s m) := by
  unfold State.heartbeat
  refine keeps_ite (keeps_ownResult _ _ h hl) ?_
  exact keeps_sys (sys_ok_same rfl rfl rfl rfl rfl) (keeps_ownResult _ _ h hl) hl

theorem keeps_handover {L : Nat} {s₀ s : State} (m : Nat) (t : Nat) (h : Keeps L s₀ s)
    (hl : 154504 ||| L = L) : Keeps L s₀ (State.handover s m t) := by
  unfold State.handover
  refine keeps_ite (keeps_ownResult _ _ h (sub_trans rfl hl)) ?_
  split
  · exact keeps_ownResult _ _ h (sub_trans rfl hl)
  · rename_i hb
    have ht : isControlMaster t = true := badTarget_control (by simpa using hb)
    refine keeps_ite (keeps_ownResult _ _ (keeps_takeOwnership _ (fun _ => ht) h hl) (sub_trans rfl hl)) ?_
    exact keeps_sys (fun ho => sys_ok_handover ho (ownerId_of_control ht)) (keeps_ownResult _ _ h (sub_trans rfl hl)) (sub_trans rfl hl)

theorem keeps_lapse {L : Nat} {s₀ s : State}  (h : Keeps L s₀ s)
    (hl : 154504 ||| L = L) : Keeps L s₀ (State.lapse s) := by
  unfold State.lapse
  repeat' first
    | with_reducible exact h
    | exact sub_trans rfl hl
    | with_reducible assumption
    | with_reducible refine keeps_raise _ _ _ _ _ ?_ ?_
    | with_reducible refine keeps_ownResult _ _ ?_ ?_
    | with_reducible refine keeps_note _ _ _ _ ?_ ?_
    | with_reducible refine keeps_vacate ?_ ?_
    | simp only [keeps_regs_iff (sub_trans rfl hl), keeps_evSet_iff (sub_trans rfl hl), keeps_evAdd_iff (sub_trans rfl hl), keeps_evPosted_iff (sub_trans rfl hl), keeps_fab_iff (sub_trans rfl hl), keeps_pilots_iff (sub_trans rfl hl), keeps_log_iff (sub_trans rfl hl)]
    | with_reducible refine keeps_foldl _ _ (fun _ _ hx => ?_) ?_
    | with_reducible refine keeps_ite ?_ ?_

theorem keeps_reject {L : Nat} {s₀ s : State} (m : Nat) (a : Nat) (load : Bool) (h : Keeps L s₀ s)
    (hl : 148360 ||| L = L) : Keeps L s₀ (State.reject s m a load) := by
  unfold State.reject
  repeat' first
    | with_reducible exact h
    | exact sub_trans rfl hl
    | with_reducible assumption
    | with_reducible refine keeps_raise _ _ _ _ _ ?_ ?_
    | with_reducible refine keeps_note _ _ _ _ ?_ ?_
    | with_reducible refine keeps_count _ _ ?_ ?_
    | with_reducible refine keeps_setFld _ _ ?_ ?_

theorem keeps_setQueue {L : Nat} {s₀ s : State} (a : Nat) (l : List QEnt) (h : Keeps L s₀ s)
    (hl : 262144 ||| L = L) : Keeps L s₀ (State.setQueue s a l) := by
  unfold State.setQueue
  repeat' first
    | with_reducible exact h
    | exact sub_trans rfl hl
    | with_reducible assumption
    | simp only [keeps_queues_iff (sub_trans rfl hl)]

theorem keeps_pushQ {L : Nat} {s₀ s : State} (a : Nat) (cap : Nat) (e : QEnt) (h : Keeps L s₀ s)
    (hl : 262144 ||| L = L) : Keeps L s₀ (State.pushQ s a cap e).1 := by
  unfold State.pushQ
  repeat' first
    | with_reducible exact h
    | exact sub_trans rfl hl
    | with_reducible assumption
    | with_reducible refine keeps_setQueue _ _ ?_ ?_
    | simp only [keeps_queues_iff (sub_trans rfl hl)]
    | with_reducible refine keeps_foldl _ _ (fun _ _ hx => ?_) ?_
    | with_reducible refine keeps_ite_fst ?_ ?_

theorem keeps_pushQ' {L : Nat} {s₀ s' : State} {s : State} {a : Nat} {cap : Nat} {e : QEnt} {res} (he : State.pushQ s a cap e = (s', res)) (h : Keeps L s₀ s)
    (hl : 262144 ||| L = L) : Keeps L s₀ s' := by
  have := keeps_pushQ a cap e h hl
  rwa [he] at this

theorem keeps_popQ {L : Nat} {s₀ s : State} (a : Nat) (h : Keeps L s₀ s)
    (hl : 262144 ||| L = L) : Keeps L s₀ (State.popQ s a).1 := by
  unfold State.popQ
  repeat' first
    | with_reducible exact h
    | exact sub_trans rfl hl
    | with_reducible assumption
    | with_reducible refine keeps_setQueue _ _ ?_ ?_
    | simp only [keeps_queues_iff (sub_trans rfl hl)]
    | with_reducible refine keeps_foldl _ _ (fun _ _ hx => ?_) ?_
    | with_reducible refine keeps_ite_fst ?_ ?_
    | split

theorem keeps_popQ' {L : Nat} {s₀ s' : State} {s : State} {a : Nat} {res} (he : State.popQ s a = (s', res)) (h : Keeps L s₀ s)
    (hl : 262144 ||| L = L) : Keeps L s₀ s' := by
  have := keeps_popQ a h hl
  rwa [he] at this

theorem keeps_pushHeld {L : Nat} {s₀ s : State} (u : Nat) (a : Nat) (cap : Nat) (a4 : Nat) (h : Keeps L s₀ s)
    (hl : 412552 ||| L = L) : Keeps L s₀ (State.pushHeld s u a cap a4).1 := by
  unfold State.pushHeld
  repeat' first
    | with_reducible exact h
    | exact sub_trans rfl hl
    | with_reducible assumption
    | with_reducible refine keeps_acquire _ _ ?_ ?_
    | (with_reducible refine keeps_acquire' (by assumption) ?_ ?_)
    | with_reducible refine keeps_setQueue _ _ ?_ ?_
    | simp only [keeps_regs_iff (sub_trans rfl hl)]
    | with_reducible refine keeps_foldl _ _ (fun _ _ hx => ?_) ?_
    | with_reducible refine keeps_ite_fst ?_ ?_

theorem keeps_pushHeld' {L : Nat} {s₀ s' : State} {s : State} {u : Nat} {a : Nat} {cap : Nat} {a4 : Nat} {res} (he : State.pushHeld s u a cap a4 = (s', res)) (h : Keeps L s₀ s)
    (hl : 412552 ||| L = L) : Keeps L s₀ s' := by
  have := keeps_pushHeld u a cap a4 h hl
  rwa [he] at this

theorem keeps_encFollow {L : Nat} {s₀ a3 : State} (v : Nat) (a1 : Nat) (a2 : List (Nat × Nat)) (h : Keeps L s₀ a3)
    (hl : 412552 ||| L = L) : Keeps L s₀ (State.encFollow v a1 a2 a3) := by
  fun_induction State.encFollow v a1 a2 a3
  all_goals repeat' first
      | with_reducible exact h
      | exact sub_trans rfl hl
      | with_reducible assumption
      | with_reducible refine keeps_pushHeld _ _ _ _ ?_ ?_
      | (with_reducible refine keeps_pushHeld' (by assumption) ?_ ?_)
      | with_reducible refine keeps_count _ _ ?_ ?_
      | dsimp only
      | with_reducible refine keeps_foldl _ _ (fun _ _ hx => ?_) ?_
      | with_reducible apply_assumption
      | with_reducible refine keeps_ite ?_ ?_

theorem keeps_scnFollow {L : Nat} {s₀ a3 : State} (race : Bool) (a1 : Nat) (a2 : List Nat) (h : Keeps L s₀ a3)
    (hl : 412552 ||| L = L) : Keeps L s₀ (State.scnFollow race a1 a2 a3) := by
  fun_induction State.scnFollow race a1 a2 a3
  all_goals repeat' first
      | with_reducible exact h
      | exact sub_trans rfl hl
      | with_reducible assumption
      | with_reducible refine keeps_pushHeld _ _ _ _ ?_ ?_
      | (with_reducible refine keeps_pushHeld' (by assumption) ?_ ?_)
      | with_reducible refine keeps_count _ _ ?_ ?_
      | dsimp only
      | with_reducible refine keeps_foldl _ _ (fun _ _ hx => ?_) ?_
      | with_reducible apply_assumption
      | with_reducible refine keeps_ite ?_ ?_

theorem keeps_netFollow {L : Nat} {s₀ a2 : State} (a0 : Nat) (a1 : List Nat) (h : Keeps L s₀ a2)
    (hl : 412552 ||| L = L) : Keeps L s₀ (State.netFollow a0 a1 a2) := by
  fun_induction State.netFollow a0 a1 a2
  all_goals repeat' first
      | with_reducible exact h
      | exact sub_trans rfl hl
      | with_reducible assumption
      | with_reducible refine keeps_raise _ _ _ _ _ ?_ ?_
      | with_reducible refine keeps_pushHeld _ _ _ _ ?_ ?_
      | (with_reducible refine keeps_pushHeld' (by assumption) ?_ ?_)
      | with_reducible refine keeps_count _ _ ?_ ?_
      | dsimp only
      | with_reducible refine keeps_foldl _ _ (fun _ _ hx => ?_) ?_
      | with_reducible apply_assumption
      | with_reducible refine keeps_ite ?_ ?_

theorem keeps_release {L : Nat} {s₀ s : State} (u : Nat) (a2 : Nat) (h : Keeps L s₀ s)
    (hl : 412552 ||| L = L) : Keeps L s₀ (State.release s u a2) := by
  unfold State.release
  repeat' first
    | with_reducible exact h
    | exact sub_trans rfl hl
    | with_reducible assumption
    | with_reducible refine keeps_netFollow _ _ ?_ ?_
    | with_reducible refine keeps_encFollow _ _ _ ?_ ?_
    | with_reducible refine keeps_releaseTable _ _ ?_ ?_
    | with_reducible refine keeps_scnFollow _ _ _ ?_ ?_
    | dsimp only
    | with_reducible refine keeps_foldl _ _ (fun _ _ hx => ?_) ?_
    | with_reducible refine keeps_ite ?_ ?_

theorem keeps_releaseAll {L : Nat} {s₀ a2 : State} (u : Nat) (a1 : List Nat) (h : Keeps L s₀ a2)
    (hl : 412552 ||| L = L) : Keeps L s₀ (State.releaseAll u a1 a2) := by
  fun_induction State.releaseAll u a1 a2
  all_goals repeat' first
      | with_reducible exact h
      | exact sub_trans rfl hl
      | with_reducible assumption
      | with_reducible refine keeps_release _ _ ?_ ?_
      | simp only [keeps_regs_iff (sub_trans rfl hl), keeps_evSet_iff (sub_trans rfl hl), keeps_evAdd_iff (sub_trans rfl hl), keeps_evPosted_iff (sub_trans rfl hl), keeps_fab_iff (sub_trans rfl hl), keeps_pilots_iff (sub_trans rfl hl), keeps_log_iff (sub_trans rfl hl), keeps_queues_iff (sub_trans rfl hl)]
      | with_reducible refine keeps_foldl _ _ (fun _ _ hx => ?_) ?_
      | with_reducible apply_assumption

theorem keeps_acquireAll {L : Nat} {s₀ : State} (u : Nat) : ∀ (a1 : List Nat) {s : State} (_ : Keeps L s₀ s)
    (_ : 150408 ||| L = L), Keeps L s₀ (State.acquireAll u a1 s).1
  | [], _, h, _ => h
  | x :: xs, s, h, hl => by
    simp only [State.acquireAll]
    split
    · exact keeps_acquireAll u xs h hl
    · exact keeps_acquireAll u xs (keeps_acquire u x h (sub_trans rfl hl)) hl

theorem keeps_acquireAll' {L : Nat} {s₀ s' : State} {u : Nat} {a1 : List Nat} {a2 : State} {res} (he : State.acquireAll u a1 a2 = (s', res)) (h : Keeps L s₀ a2)
    (hl : 150408 ||| L = L) : Keeps L s₀ s' := by
  have := keeps_acquireAll u a1 h hl
  rwa [he] at this

theorem keeps_emit {L : Nat} {s₀ s : State} (u : Nat) (m : Manifest) (ofs : Nat) (payload : List Byte) (h : Keeps L s₀ s)
    (hl : 937864 ||| L = L) : Keeps L s₀ (State.emit s u m ofs payload) := by
  unfold State.emit
  repeat' first
    | with_reducible exact h
    | exact sub_trans rfl hl
    | with_reducible assumption
    | with_reducible refine keeps_scnFollow _ _ _ ?_ ?_
    | with_reducible refine keeps_berthFault _ _ _ ?_ ?_
    | with_reducible refine keeps_memWrite _ _ ?_ ?_
    | with_reducible refine keeps_manifestIn _ _ _ ?_ ?_
    | simp only [keeps_leaves_iff (sub_trans rfl hl)]
    | with_reducible refine keeps_foldl _ _ (fun _ _ hx => ?_) ?_
    | with_reducible refine keeps_ite ?_ ?_

theorem keeps_releasePost {L : Nat} {s₀ s : State} (u : Nat) (src : Nat) (a3 : Nat) (h : Keeps L s₀ s)
    (hl : 412552 ||| L = L) : Keeps L s₀ (State.releasePost s u src a3) := by
  unfold State.releasePost
  repeat' first
    | with_reducible exact h
    | exact sub_trans rfl hl
    | with_reducible assumption
    | with_reducible refine keeps_berthRel _ _ _ _ ?_ ?_
    | with_reducible refine keeps_release _ _ ?_ ?_

theorem keeps_setLane {L : Nat} {s₀ s : State} (p : Nat) (i : Nat) (x : Lane) (h : Keeps L s₀ s)
    (hl : 2097152 ||| L = L) : Keeps L s₀ (State.setLane s p i x) := by
  unfold State.setLane
  repeat' first
    | with_reducible exact h
    | exact sub_trans rfl hl
    | with_reducible assumption
    | simp only [keeps_lanes_iff (sub_trans rfl hl)]

theorem keeps_setPort {L : Nat} {s₀ s : State} (p : Nat) (x : SrxPort) (h : Keeps L s₀ s)
    (hl : 4194304 ||| L = L) : Keeps L s₀ (State.setPort s p x) := by
  unfold State.setPort
  repeat' first
    | with_reducible exact h
    | exact sub_trans rfl hl
    | with_reducible assumption
    | simp only [keeps_ports_iff (sub_trans rfl hl)]

theorem keeps_setMaskBit {L : Nat} {s₀ s : State} (lo : Fld) (hi : Fld) (n : Nat) (b : Bool) (h : Keeps L s₀ s)
    (hl : 8 ||| L = L) : Keeps L s₀ (State.setMaskBit s lo hi n b) := by
  unfold State.setMaskBit
  repeat' first
    | with_reducible exact h
    | exact sub_trans rfl hl
    | with_reducible assumption
    | with_reducible refine keeps_setFld2 _ _ _ ?_ ?_

theorem keeps_setCalPending {L : Nat} {s₀ s : State} (n : Nat) (b : Bool) (h : Keeps L s₀ s)
    (hl : 8 ||| L = L) : Keeps L s₀ (State.setCalPending s n b) := by
  unfold State.setCalPending
  repeat' first
    | with_reducible exact h
    | exact sub_trans rfl hl
    | with_reducible assumption
    | with_reducible refine keeps_setMaskBit _ _ _ _ ?_ ?_

theorem keeps_setCalStale {L : Nat} {s₀ s : State} (n : Nat) (b : Bool) (h : Keeps L s₀ s)
    (hl : 8 ||| L = L) : Keeps L s₀ (State.setCalStale s n b) := by
  unfold State.setCalStale
  repeat' first
    | with_reducible exact h
    | exact sub_trans rfl hl
    | with_reducible assumption
    | with_reducible refine keeps_setMaskBit _ _ _ _ ?_ ?_

theorem keeps_setCalResult {L : Nat} {s₀ s : State} (n : Nat) (r : Option CalResult) (h : Keeps L s₀ s)
    (hl : 1048576 ||| L = L) : Keeps L s₀ (State.setCalResult s n r) := by
  unfold State.setCalResult
  repeat' first
    | with_reducible exact h
    | exact sub_trans rfl hl
    | with_reducible assumption
    | simp only [keeps_cal_iff (sub_trans rfl hl)]

theorem keeps_calNote {L : Nat} {s₀ s : State} (n : Nat) (code : Nat) (h : Keeps L s₀ s)
    (hl : 148360 ||| L = L) : Keeps L s₀ (State.calNote s n code) := by
  unfold State.calNote
  repeat' first
    | with_reducible exact h
    | exact sub_trans rfl hl
    | with_reducible assumption
    | with_reducible refine keeps_note _ _ _ _ ?_ ?_

theorem keeps_calRaise {L : Nat} {s₀ s : State} (m : Nat) (h : Keeps L s₀ s)
    (hl : 17288 ||| L = L) : Keeps L s₀ (State.calRaise s m) := by
  unfold State.calRaise
  repeat' first
    | with_reducible exact h
    | exact sub_trans rfl hl
    | with_reducible assumption
    | with_reducible refine keeps_raise _ _ _ _ _ ?_ ?_

theorem keeps_showItem {L : Nat} {s₀ s : State} (n : Nat) (h : Keeps L s₀ s)
    (hl : 8 ||| L = L) : Keeps L s₀ (State.showItem s n) := by
  unfold State.showItem
  repeat' first
    | with_reducible exact h
    | exact sub_trans rfl hl
    | with_reducible assumption
    | with_reducible refine keeps_setFld _ _ ?_ ?_

theorem keeps_makePending {L : Nat} {s₀ s : State} (n : Nat) (h : Keeps L s₀ s)
    (hl : 148360 ||| L = L) : Keeps L s₀ (State.makePending s n) := by
  unfold State.makePending
  repeat' first
    | with_reducible exact h
    | exact sub_trans rfl hl
    | with_reducible assumption
    | with_reducible refine keeps_calNote _ _ ?_ ?_
    | with_reducible refine keeps_showItem _ ?_ ?_
    | with_reducible refine keeps_setCalStale _ _ ?_ ?_
    | with_reducible refine keeps_setCalPending _ _ ?_ ?_

theorem keeps_makeAllPending {L : Nat} {s₀ a1 : State} (a0 : List Nat) (h : Keeps L s₀ a1)
    (hl : 148360 ||| L = L) : Keeps L s₀ (State.makeAllPending a0 a1) := by
  fun_induction State.makeAllPending a0 a1
  all_goals repeat' first
      | with_reducible exact h
      | exact sub_trans rfl hl
      | with_reducible assumption
      | with_reducible refine keeps_makePending _ ?_ ?_
      | simp only [keeps_regs_iff (sub_trans rfl hl), keeps_evSet_iff (sub_trans rfl hl), keeps_evAdd_iff (sub_trans rfl hl), keeps_evPosted_iff (sub_trans rfl hl), keeps_pilots_iff (sub_trans rfl hl), keeps_log_iff (sub_trans rfl hl)]
      | with_reducible refine keeps_foldl _ _ (fun _ _ hx => ?_) ?_
      | with_reducible apply_assumption

theorem keeps_calRunCmd {L : Nat} {s₀ s : State} (item : Nat) (h : Keeps L s₀ s)
    (hl : 148360 ||| L = L) : Keeps L s₀ (State.calRunCmd s item) := by
  unfold State.calRunCmd
  repeat' first
    | with_reducible exact h
    | exact sub_trans rfl hl
    | with_reducible assumption
    | with_reducible refine keeps_makePending _ ?_ ?_
    | with_reducible refine keeps_makeAllPending _ ?_ ?_
    | simp only [keeps_regs_iff (sub_trans rfl hl), keeps_evSet_iff (sub_trans rfl hl), keeps_evAdd_iff (sub_trans rfl hl), keeps_evPosted_iff (sub_trans rfl hl), keeps_pilots_iff (sub_trans rfl hl), keeps_log_iff (sub_trans rfl hl)]
    | with_reducible refine keeps_foldl _ _ (fun _ _ hx => ?_) ?_
    | with_reducible refine keeps_ite ?_ ?_

theorem keeps_tempSample {L : Nat} {s₀ s : State} (n : Nat) (t : Nat) (h : Keeps L s₀ s)
    (hl : 148360 ||| L = L) : Keeps L s₀ (State.tempSample s n t) := by
  unfold State.tempSample
  repeat' first
    | with_reducible exact h
    | exact sub_trans rfl hl
    | with_reducible assumption
    | with_reducible refine keeps_makePending _ ?_ ?_
    | with_reducible refine keeps_setFld _ _ ?_ ?_
    | dsimp only
    | with_reducible refine keeps_foldl _ _ (fun _ _ hx => ?_) ?_
    | with_reducible refine keeps_ite ?_ ?_
    | split

theorem keeps_tempSamples {L : Nat} {s₀ a1 : State} (a0 : List (Fin 41 × BitVec 16)) (h : Keeps L s₀ a1)
    (hl : 148360 ||| L = L) : Keeps L s₀ (State.tempSamples a0 a1) := by
  fun_induction State.tempSamples a0 a1
  all_goals repeat' first
      | with_reducible exact h
      | exact sub_trans rfl hl
      | with_reducible assumption
      | with_reducible refine keeps_tempSample _ _ ?_ ?_
      | simp only [keeps_regs_iff (sub_trans rfl hl), keeps_evSet_iff (sub_trans rfl hl), keeps_evAdd_iff (sub_trans rfl hl), keeps_evPosted_iff (sub_trans rfl hl), keeps_pilots_iff (sub_trans rfl hl), keeps_log_iff (sub_trans rfl hl)]
      | with_reducible refine keeps_foldl _ _ (fun _ _ hx => ?_) ?_
      | with_reducible apply_assumption

theorem keeps_calRunDone {L : Nat} {s₀ s : State} (n : Nat) (inRange : Bool) (lanes : List LaneMeas) (h : Keeps L s₀ s)
    (hl : 1196936 ||| L = L) : Keeps L s₀ (State.calRunDone s n inRange lanes) := by
  unfold State.calRunDone
  repeat' first
    | with_reducible exact h
    | exact sub_trans rfl hl
    | with_reducible assumption
    | with_reducible refine keeps_calNote _ _ ?_ ?_
    | with_reducible refine keeps_showItem _ ?_ ?_
    | with_reducible refine keeps_setCalResult _ _ ?_ ?_
    | with_reducible refine keeps_calRaise _ ?_ ?_
    | with_reducible refine keeps_setFld _ _ ?_ ?_
    | dsimp only
    | with_reducible refine keeps_foldl _ _ (fun _ _ hx => ?_) ?_
    | with_reducible refine keeps_ite ?_ ?_

theorem keeps_toBaseline {L : Nat} {s₀ s : State} (p : Nat) (i : Nat) (h : Keeps L s₀ s)
    (hl : 8 ||| L = L) : Keeps L s₀ (State.toBaseline s p i) := by
  unfold State.toBaseline
  repeat' first
    | with_reducible exact h
    | exact sub_trans rfl hl
    | with_reducible assumption
    | with_reducible refine keeps_setFld _ _ ?_ ?_

theorem keeps_applyLanes {L : Nat} {s₀ a1 : State} (a0 : List (Nat × Nat)) (h : Keeps L s₀ a1)
    (hl : 2097160 ||| L = L) : Keeps L s₀ (State.applyLanes a0 a1) := by
  fun_induction State.applyLanes a0 a1
  all_goals repeat' first
      | with_reducible exact h
      | exact sub_trans rfl hl
      | with_reducible assumption
      | with_reducible refine keeps_toBaseline _ _ ?_ ?_
      | with_reducible refine keeps_setFld _ _ ?_ ?_
      | with_reducible refine keeps_setLane _ _ _ ?_ ?_
      | simp only [keeps_regs_iff (sub_trans rfl hl), keeps_lanes_iff (sub_trans rfl hl)]
      | with_reducible refine keeps_foldl _ _ (fun _ _ hx => ?_) ?_
      | with_reducible apply_assumption
      | with_reducible refine keeps_ite ?_ ?_

theorem keeps_calReach {L : Nat} {s₀ s : State} (c : Nat) (cyc : Nat) (n : Nat) (h : Keeps L s₀ s)
    (hl : 3294088 ||| L = L) : Keeps L s₀ (State.calReach s c cyc n) := by
  unfold State.calReach
  repeat' first
    | with_reducible exact h
    | exact sub_trans rfl hl
    | with_reducible assumption
    | with_reducible refine keeps_calNote _ _ ?_ ?_
    | with_reducible refine keeps_showItem _ ?_ ?_
    | with_reducible refine keeps_setCalStale _ _ ?_ ?_
    | with_reducible refine keeps_setCalResult _ _ ?_ ?_
    | with_reducible refine keeps_calRaise _ ?_ ?_
    | with_reducible refine keeps_applyLanes _ ?_ ?_
    | dsimp only
    | with_reducible refine keeps_foldl _ _ (fun _ _ hx => ?_) ?_
    | with_reducible refine keeps_ite ?_ ?_
    | split

theorem keeps_calBoundary {L : Nat} {s₀ a3 : State} (c : Nat) (cyc : Nat) (a2 : List Nat) (h : Keeps L s₀ a3)
    (hl : 3294088 ||| L = L) : Keeps L s₀ (State.calBoundary c cyc a2 a3) := by
  fun_induction State.calBoundary c cyc a2 a3
  all_goals repeat' first
      | with_reducible exact h
      | exact sub_trans rfl hl
      | with_reducible assumption
      | with_reducible refine keeps_calReach _ _ _ ?_ ?_
      | simp only [keeps_regs_iff (sub_trans rfl hl), keeps_evSet_iff (sub_trans rfl hl), keeps_evAdd_iff (sub_trans rfl hl), keeps_evPosted_iff (sub_trans rfl hl), keeps_pilots_iff (sub_trans rfl hl), keeps_log_iff (sub_trans rfl hl), keeps_cal_iff (sub_trans rfl hl), keeps_lanes_iff (sub_trans rfl hl)]
      | with_reducible refine keeps_foldl _ _ (fun _ _ hx => ?_) ?_
      | with_reducible apply_assumption

theorem keeps_calTide {L : Nat} {s₀ s : State} (cyc : Nat) (h : Keeps L s₀ s)
    (hl : 3294088 ||| L = L) : Keeps L s₀ (State.calTide s cyc) := by
  unfold State.calTide
  repeat' first
    | with_reducible exact h
    | exact sub_trans rfl hl
    | with_reducible assumption
    | with_reducible refine keeps_calBoundary _ _ _ ?_ ?_
    | simp only [keeps_regs_iff (sub_trans rfl hl), keeps_evSet_iff (sub_trans rfl hl), keeps_evAdd_iff (sub_trans rfl hl), keeps_evPosted_iff (sub_trans rfl hl), keeps_pilots_iff (sub_trans rfl hl), keeps_log_iff (sub_trans rfl hl), keeps_cal_iff (sub_trans rfl hl), keeps_lanes_iff (sub_trans rfl hl)]
    | with_reducible refine keeps_foldl _ _ (fun _ _ hx => ?_) ?_
    | with_reducible refine keeps_ite ?_ ?_

theorem keeps_calAbort {L : Nat} {s₀ a2 : State} (p : Nat) (a1 : List Nat) (h : Keeps L s₀ a2)
    (hl : 8 ||| L = L) : Keeps L s₀ (State.calAbort p a1 a2) := by
  fun_induction State.calAbort p a1 a2
  all_goals repeat' first
      | with_reducible exact h
      | exact sub_trans rfl hl
      | with_reducible assumption
      | with_reducible refine keeps_setCalStale _ _ ?_ ?_
      | with_reducible refine keeps_setFld _ _ ?_ ?_
      | with_reducible refine keeps_setCalPending _ _ ?_ ?_
      | simp only [keeps_regs_iff (sub_trans rfl hl)]
      | with_reducible refine keeps_foldl _ _ (fun _ _ hx => ?_) ?_
      | with_reducible apply_assumption
      | with_reducible refine keeps_ite ?_ ?_

theorem keeps_ffCmd {L : Nat} {s₀ s : State} (key : Nat) (h : Keeps L s₀ s)
    (hl : 1048584 ||| L = L) : Keeps L s₀ (State.ffCmd s key) := by
  unfold State.ffCmd
  repeat' first
    | with_reducible exact h
    | exact sub_trans rfl hl
    | with_reducible assumption
    | with_reducible refine keeps_setFld _ _ ?_ ?_
    | simp only [keeps_cal_iff (sub_trans rfl hl)]
    | with_reducible refine keeps_foldl _ _ (fun _ _ hx => ?_) ?_
    | with_reducible refine keeps_ite ?_ ?_

theorem keeps_tickDom {L : Nat} {s₀ s : State} (d : Nat) (h : Keeps L s₀ s)
    (hl : 8196 ||| L = L) : Keeps L s₀ (State.tickDom s d) := by
  unfold State.tickDom
  repeat' first
    | with_reducible exact h
    | exact sub_trans rfl hl
    | with_reducible assumption
    | with_reducible refine keeps_setDom _ _ ?_ ?_
    | with_reducible refine keeps_nextFree ?_ ?_
    | dsimp only
    | with_reducible refine keeps_foldl _ _ (fun _ _ hx => ?_) ?_
    | with_reducible refine keeps_ite ?_ ?_

theorem keeps_slewAcc {L : Nat} {s₀ s : State}  (h : Keeps L s₀ s)
    (hl : 8192 ||| L = L) : Keeps L s₀ (State.slewAcc s) := by
  unfold State.slewAcc
  repeat' first
    | with_reducible exact h
    | exact sub_trans rfl hl
    | with_reducible assumption
    | simp only [keeps_time_iff (sub_trans rfl hl)]
    | with_reducible refine keeps_foldl _ _ (fun _ _ hx => ?_) ?_
    | with_reducible refine keeps_ite ?_ ?_

theorem keeps_tclk {L : Nat} {s₀ s : State}  (h : Keeps L s₀ s)
    (hl : 8196 ||| L = L) : Keeps L s₀ (State.tclk s) := by
  unfold State.tclk
  repeat' first
    | with_reducible exact h
    | exact sub_trans rfl hl
    | with_reducible assumption
    | with_reducible refine keeps_slewAcc ?_ ?_
    | with_reducible refine keeps_tickDom _ ?_ ?_

theorem keeps_tick {L : Nat} {s₀ s : State}  (h : Keeps L s₀ s)
    (hl : 8582 ||| L = L) : Keeps L s₀ (State.tick s) := by
  unfold State.tick
  repeat' first
    | with_reducible exact h
    | exact sub_trans rfl hl
    | with_reducible assumption
    | with_reducible refine keeps_tclk ?_ ?_
    | dsimp only
    | with_reducible refine keeps_foldl _ _ (fun _ _ hx => ?_) ?_
    | with_reducible refine keeps_ite ?_ ?_
    | split
    | (refine keeps_flat h (fun p hp => ?_) id id; cases p <;> first | (have e := h.same _ hp; dsimp only [Part.same] at e ⊢; with_reducible exact e) | (exact absurd (sub_testBit hl hp) (by decide)))

theorem keeps_timeEvent {L : Nat} {s₀ s : State} (src : Nat) (sub : Nat) (payload : Nat) (h : Keeps L s₀ s)
    (hl : 16648 ||| L = L) : Keeps L s₀ (State.timeEvent s src sub payload) := by
  unfold State.timeEvent
  repeat' first
    | with_reducible exact h
    | exact sub_trans rfl hl
    | with_reducible assumption
    | with_reducible refine keeps_post _ _ _ _ ?_ ?_

theorem keeps_timeRaise {L : Nat} {s₀ s : State} (m : Nat) (h : Keeps L s₀ s)
    (hl : 17288 ||| L = L) : Keeps L s₀ (State.timeRaise s m) := by
  unfold State.timeRaise
  repeat' first
    | with_reducible exact h
    | exact sub_trans rfl hl
    | with_reducible assumption
    | with_reducible refine keeps_raise _ _ _ _ _ ?_ ?_

theorem keeps_announceWrap {L : Nat} {s₀ s : State} (d : Nat) (h : Keeps L s₀ s)
    (hl : 25480 ||| L = L) : Keeps L s₀ (State.announceWrap s d) := by
  unfold State.announceWrap
  repeat' first
    | with_reducible exact h
    | exact sub_trans rfl hl
    | with_reducible assumption
    | with_reducible refine keeps_timeEvent _ _ _ ?_ ?_
    | with_reducible refine keeps_timeRaise _ ?_ ?_
    | with_reducible refine keeps_setDom _ _ ?_ ?_
    | dsimp only
    | with_reducible refine keeps_foldl _ _ (fun _ _ hx => ?_) ?_
    | with_reducible refine keeps_ite ?_ ?_

theorem keeps_stepDom {L : Nat} {s₀ s : State} (d : Nat) (ns : ℤ) (h : Keeps L s₀ s)
    (hl : 17179894664 ||| L = L) : Keeps L s₀ (State.stepDom s d ns) := by
  unfold State.stepDom
  repeat' first
    | with_reducible exact h
    | exact sub_trans rfl hl
    | with_reducible assumption
    | with_reducible refine keeps_timeRaise _ ?_ ?_
    | with_reducible refine keeps_setDom _ _ ?_ ?_
    | with_reducible refine keeps_timeEvent _ _ _ ?_ ?_
    | with_reducible refine keeps_announceWrap _ ?_ ?_
    | simp only [keeps_time_iff (sub_trans rfl hl), keeps_aud_iff (sub_trans rfl hl)]
    | with_reducible refine keeps_foldl _ _ (fun _ _ hx => ?_) ?_
    | with_reducible refine keeps_ite ?_ ?_

theorem keeps_switchDom {L : Nat} {s₀ s : State} (d : Nat) (t : Nat) (h : Keeps L s₀ s)
    (hl : 24840 ||| L = L) : Keeps L s₀ (State.switchDom s d t) := by
  unfold State.switchDom
  repeat' first
    | with_reducible exact h
    | exact sub_trans rfl hl
    | with_reducible assumption
    | with_reducible refine keeps_setFld _ _ ?_ ?_
    | with_reducible refine keeps_timeEvent _ _ _ ?_ ?_
    | simp only [keeps_time_iff (sub_trans rfl hl)]
    | with_reducible refine keeps_foldl _ _ (fun _ _ hx => ?_) ?_
    | with_reducible refine keeps_ite ?_ ?_

theorem keeps_setDomState {L : Nat} {s₀ s : State} (d : Nat) (v : Nat) (h : Keeps L s₀ s)
    (hl : 8 ||| L = L) : Keeps L s₀ (State.setDomState s d v) := by
  unfold State.setDomState
  repeat' first
    | with_reducible exact h
    | exact sub_trans rfl hl
    | with_reducible assumption
    | with_reducible refine keeps_setFld _ _ ?_ ?_
    | simp only [keeps_regs_iff (sub_trans rfl hl)]
    | with_reducible refine keeps_foldl _ _ (fun _ _ hx => ?_) ?_
    | with_reducible refine keeps_ite ?_ ?_

theorem keeps_setAdj {L : Nat} {s₀ s : State} (d : Nat) (a : ℤ) (h : Keeps L s₀ s)
    (hl : 8200 ||| L = L) : Keeps L s₀ (State.setAdj s d a) := by
  unfold State.setAdj
  repeat' first
    | with_reducible exact h
    | exact sub_trans rfl hl
    | with_reducible assumption
    | with_reducible refine keeps_setFld _ _ ?_ ?_
    | with_reducible refine keeps_setDom _ _ ?_ ?_

theorem keeps_enterHoldover {L : Nat} {s₀ s : State} (d : Nat) (h : Keeps L s₀ s)
    (hl : 25484 ||| L = L) : Keeps L s₀ (State.enterHoldover s d) := by
  unfold State.enterHoldover
  repeat' first
    | with_reducible exact h
    | exact sub_trans rfl hl
    | with_reducible assumption
    | with_reducible refine keeps_timeRaise _ ?_ ?_
    | with_reducible refine keeps_setDom _ _ ?_ ?_
    | with_reducible refine keeps_setAdj _ _ ?_ ?_
    | with_reducible refine keeps_setDomState _ _ ?_ ?_
    | with_reducible refine keeps_timeEvent _ _ _ ?_ ?_
    | with_reducible refine keeps_nextFree ?_ ?_
    | simp only [keeps_time_iff (sub_trans rfl hl)]
    | with_reducible refine keeps_foldl _ _ (fun _ _ hx => ?_) ?_
    | with_reducible refine keeps_ite ?_ ?_

theorem keeps_servo {L : Nat} {s₀ s : State} (d : Nat) (o : ℤ) (h : Keeps L s₀ s)
    (hl : 8200 ||| L = L) : Keeps L s₀ (State.servo s d o) := by
  unfold State.servo
  repeat' first
    | with_reducible exact h
    | exact sub_trans rfl hl
    | with_reducible assumption
    | with_reducible refine keeps_setDom _ _ ?_ ?_
    | with_reducible refine keeps_setAdj _ _ ?_ ?_

theorem keeps_lockDom {L : Nat} {s₀ s : State} (d : Nat) (h : Keeps L s₀ s)
    (hl : 8200 ||| L = L) : Keeps L s₀ (State.lockDom s d) := by
  unfold State.lockDom
  repeat' first
    | with_reducible exact h
    | exact sub_trans rfl hl
    | with_reducible assumption
    | with_reducible refine keeps_setDom _ _ ?_ ?_
    | with_reducible refine keeps_setDomState _ _ ?_ ?_

theorem keeps_noteSample {L : Nat} {s₀ s : State} (d : Nat) (o : ℤ) (h : Keeps L s₀ s)
    (hl : 8192 ||| L = L) : Keeps L s₀ (State.noteSample s d o) := by
  unfold State.noteSample
  repeat' first
    | with_reducible exact h
    | exact sub_trans rfl hl
    | with_reducible assumption
    | with_reducible refine keeps_setDom _ _ ?_ ?_

theorem keeps_sampleAcquire {L : Nat} {s₀ s : State} (d : Nat) (o : ℤ) (h : Keeps L s₀ s)
    (hl : 17179894664 ||| L = L) : Keeps L s₀ (State.sampleAcquire s d o) := by
  unfold State.sampleAcquire
  repeat' first
    | with_reducible exact h
    | exact sub_trans rfl hl
    | with_reducible assumption
    | with_reducible refine keeps_stepDom _ _ ?_ ?_
    | with_reducible refine keeps_servo _ _ ?_ ?_
    | with_reducible refine keeps_lockDom _ ?_ ?_
    | with_reducible refine keeps_setDom _ _ ?_ ?_
    | dsimp only
    | with_reducible refine keeps_foldl _ _ (fun _ _ hx => ?_) ?_
    | with_reducible refine keeps_ite ?_ ?_

theorem keeps_sampleLocked {L : Nat} {s₀ s : State} (d : Nat) (o : ℤ) (h : Keeps L s₀ s)
    (hl : 25484 ||| L = L) : Keeps L s₀ (State.sampleLocked s d o) := by
  unfold State.sampleLocked
  repeat' first
    | with_reducible exact h
    | exact sub_trans rfl hl
    | with_reducible assumption
    | with_reducible refine keeps_servo _ _ ?_ ?_
    | with_reducible refine keeps_count _ _ ?_ ?_
    | with_reducible refine keeps_noteSample _ _ ?_ ?_
    | with_reducible refine keeps_setDom _ _ ?_ ?_
    | with_reducible refine keeps_enterHoldover _ ?_ ?_
    | dsimp only
    | with_reducible refine keeps_foldl _ _ (fun _ _ hx => ?_) ?_
    | with_reducible refine keeps_ite ?_ ?_

theorem keeps_sampleHoldover {L : Nat} {s₀ s : State} (d : Nat) (o : ℤ) (h : Keeps L s₀ s)
    (hl : 17179894664 ||| L = L) : Keeps L s₀ (State.sampleHoldover s d o) := by
  unfold State.sampleHoldover
  repeat' first
    | with_reducible exact h
    | exact sub_trans rfl hl
    | with_reducible assumption
    | with_reducible refine keeps_timeEvent _ _ _ ?_ ?_
    | with_reducible refine keeps_stepDom _ _ ?_ ?_
    | with_reducible refine keeps_servo _ _ ?_ ?_
    | with_reducible refine keeps_lockDom _ ?_ ?_
    | with_reducible refine keeps_noteSample _ _ ?_ ?_
    | with_reducible refine keeps_setDom _ _ ?_ ?_
    | dsimp only
    | with_reducible refine keeps_foldl _ _ (fun _ _ hx => ?_) ?_
    | with_reducible refine keeps_ite ?_ ?_

theorem keeps_sample {L : Nat} {s₀ s : State} (d : Nat) (o : ℤ) (h : Keeps L s₀ s)
    (hl : 17179894668 ||| L = L) : Keeps L s₀ (State.sample s d o) := by
  unfold State.sample
  repeat' first
    | with_reducible exact h
    | exact sub_trans rfl hl
    | with_reducible assumption
    | with_reducible refine keeps_sampleHoldover _ _ ?_ ?_
    | with_reducible refine keeps_sampleLocked _ _ ?_ ?_
    | with_reducible refine keeps_noteSample _ _ ?_ ?_
    | with_reducible refine keeps_sampleAcquire _ _ ?_ ?_
    | with_reducible refine keeps_setFld _ _ ?_ ?_
    | dsimp only
    | with_reducible refine keeps_foldl _ _ (fun _ _ hx => ?_) ?_
    | with_reducible refine keeps_ite ?_ ?_
    | split

theorem keeps_ptpSample {L : Nat} {s₀ s : State} (e : Nat) (t1 : ℤ) (t2 : ℤ) (h : Keeps L s₀ s)
    (hl : 17179894668 ||| L = L) : Keeps L s₀ (State.ptpSample s e t1 t2) := by
  unfold State.ptpSample
  repeat' first
    | with_reducible exact h
    | exact sub_trans rfl hl
    | with_reducible assumption
    | with_reducible refine keeps_setDom _ _ ?_ ?_
    | with_reducible refine keeps_sample _ _ ?_ ?_

theorem keeps_roleState {L : Nat} {s₀ s : State} (e : Nat) (h : Keeps L s₀ s)
    (hl : 8200 ||| L = L) : Keeps L s₀ (State.roleState s e) := by
  unfold State.roleState
  repeat' first
    | with_reducible exact h
    | exact sub_trans rfl hl
    | with_reducible assumption
    | with_reducible refine keeps_setDom _ _ ?_ ?_
    | with_reducible refine keeps_setAdj _ _ ?_ ?_
    | with_reducible refine keeps_setDomState _ _ ?_ ?_
    | dsimp only
    | with_reducible refine keeps_foldl _ _ (fun _ _ hx => ?_) ?_
    | with_reducible refine keeps_ite ?_ ?_

theorem keeps_setParent {L : Nat} {s₀ s : State} (e : Nat) (g : BitVec 64) (h : Keeps L s₀ s)
    (hl : 25484 ||| L = L) : Keeps L s₀ (State.setParent s e g) := by
  unfold State.setParent
  repeat' first
    | with_reducible exact h
    | exact sub_trans rfl hl
    | with_reducible assumption
    | with_reducible refine keeps_setFld _ _ ?_ ?_
    | with_reducible refine keeps_setDom _ _ ?_ ?_
    | with_reducible refine keeps_enterHoldover _ ?_ ?_
    | dsimp only
    | with_reducible refine keeps_foldl _ _ (fun _ _ hx => ?_) ?_
    | with_reducible refine keeps_ite ?_ ?_

theorem keeps_ptpAnnounce {L : Nat} {s₀ s : State} (e : Nat) (m : PtpMsg) (h : Keeps L s₀ s)
    (hl : 25484 ||| L = L) : Keeps L s₀ (State.ptpAnnounce s e m) := by
  unfold State.ptpAnnounce
  repeat' first
    | with_reducible exact h
    | exact sub_trans rfl hl
    | with_reducible assumption
    | with_reducible refine keeps_setFld _ _ ?_ ?_
    | with_reducible refine keeps_setParent _ _ ?_ ?_
    | with_reducible refine keeps_setDom _ _ ?_ ?_
    | with_reducible refine keeps_roleState _ ?_ ?_
    | with_reducible refine keeps_nextFree ?_ ?_
    | dsimp only
    | with_reducible refine keeps_foldl _ _ (fun _ _ hx => ?_) ?_
    | with_reducible refine keeps_ite ?_ ?_
    | split

theorem keeps_ptpSend {L : Nat} {s₀ s : State} (e : Nat) (k : PtpKind) (seq : Nat) (t : Nat) (h : Keeps L s₀ s)
    (hl : 8192 ||| L = L) : Keeps L s₀ (State.ptpSend s e k seq t) := by
  unfold State.ptpSend
  repeat' first
    | with_reducible exact h
    | exact sub_trans rfl hl
    | with_reducible assumption
    | with_reducible refine keeps_setDom _ _ ?_ ?_

theorem keeps_ptpReceive {L : Nat} {s₀ s : State} (e : Nat) (m : PtpMsg) (h : Keeps L s₀ s)
    (hl : 17179894668 ||| L = L) : Keeps L s₀ (State.ptpReceive s e m) := by
  unfold State.ptpReceive
  repeat' first
    | with_reducible exact h
    | exact sub_trans rfl hl
    | with_reducible assumption
    | with_reducible refine keeps_ptpSample _ _ _ ?_ ?_
    | with_reducible refine keeps_count _ _ ?_ ?_
    | with_reducible refine keeps_ptpAnnounce _ _ ?_ ?_
    | with_reducible refine keeps_setDom _ _ ?_ ?_
    | with_reducible refine keeps_ptpSend _ _ _ _ ?_ ?_
    | dsimp only
    | with_reducible refine keeps_foldl _ _ (fun _ _ hx => ?_) ?_
    | with_reducible refine keeps_ite ?_ ?_
    | split

theorem keeps_moveClk {L : Nat} {s₀ s : State} (src : Nat) (h : Keeps L s₀ s)
    (hl : 25484 ||| L = L) : Keeps L s₀ (State.moveClk s src) := by
  unfold State.moveClk
  repeat' first
    | with_reducible exact h
    | exact sub_trans rfl hl
    | with_reducible assumption
    | with_reducible refine keeps_timeRaise _ ?_ ?_
    | with_reducible refine keeps_setFld _ _ ?_ ?_
    | with_reducible refine keeps_setDom _ _ ?_ ?_
    | with_reducible refine keeps_enterHoldover _ ?_ ?_
    | with_reducible refine keeps_nextFree ?_ ?_

theorem keeps_setEts {L : Nat} {s₀ s : State} (q : Nat) (l : List Stamp) (h : Keeps L s₀ s)
    (hl : 8192 ||| L = L) : Keeps L s₀ (State.setEts s q l) := by
  unfold State.setEts
  repeat' first
    | with_reducible exact h
    | exact sub_trans rfl hl
    | with_reducible assumption
    | simp only [keeps_time_iff (sub_trans rfl hl)]

theorem keeps_pushEts {L : Nat} {s₀ s : State} (q : Nat) (id : Nat) (h : Keeps L s₀ s)
    (hl : 8456 ||| L = L) : Keeps L s₀ (State.pushEts s q id) := by
  unfold State.pushEts
  repeat' first
    | with_reducible exact h
    | exact sub_trans rfl hl
    | with_reducible assumption
    | with_reducible refine keeps_count _ _ ?_ ?_
    | with_reducible refine keeps_setEts _ _ ?_ ?_
    | dsimp only
    | with_reducible refine keeps_foldl _ _ (fun _ _ hx => ?_) ?_
    | with_reducible refine keeps_ite ?_ ?_

theorem keeps_popEts {L : Nat} {s₀ s : State} (q : Nat) (h : Keeps L s₀ s)
    (hl : 8192 ||| L = L) : Keeps L s₀ (State.popEts s q) := by
  unfold State.popEts
  repeat' first
    | with_reducible exact h
    | exact sub_trans rfl hl
    | with_reducible assumption
    | with_reducible refine keeps_setEts _ _ ?_ ?_

theorem keeps_evtEdge {L : Nat} {s₀ s : State} (i : Nat) (rising : Bool) (filter : Nat) (h : Keeps L s₀ s)
    (hl : 24844 ||| L = L) : Keeps L s₀ (State.evtEdge s i rising filter) := by
  unfold State.evtEdge
  repeat' first
    | with_reducible exact h
    | exact sub_trans rfl hl
    | with_reducible assumption
    | with_reducible refine keeps_post _ _ _ _ ?_ ?_
    | with_reducible refine keeps_count _ _ ?_ ?_
    | with_reducible refine keeps_setEvtPin _ _ ?_ ?_
    | with_reducible refine keeps_nextFree ?_ ?_
    | dsimp only
    | with_reducible refine keeps_foldl _ _ (fun _ _ hx => ?_) ?_
    | with_reducible refine keeps_ite ?_ ?_

theorem keeps_evtArm {L : Nat} {s₀ s : State} (i : Nat) (h : Keeps L s₀ s)
    (hl : 8328 ||| L = L) : Keeps L s₀ (State.evtArm s i) := by
  unfold State.evtArm
  repeat' first
    | with_reducible exact h
    | exact sub_trans rfl hl
    | with_reducible assumption
    | with_reducible refine keeps_setBitsOf _ _ ?_ ?_
    | with_reducible refine keeps_setEvtPin _ _ ?_ ?_
    | dsimp only
    | with_reducible refine keeps_foldl _ _ (fun _ _ hx => ?_) ?_
    | with_reducible refine keeps_ite ?_ ?_
    | split

theorem keeps_evtOutput {L : Nat} {s₀ s : State} (i : Nat) (up : Bool) (h : Keeps L s₀ s)
    (hl : 24844 ||| L = L) : Keeps L s₀ (State.evtOutput s i up) := by
  unfold State.evtOutput
  repeat' first
    | with_reducible exact h
    | exact sub_trans rfl hl
    | with_reducible assumption
    | with_reducible refine keeps_setEvtPin _ _ ?_ ?_
    | with_reducible refine keeps_evtEdge _ _ _ ?_ ?_
    | dsimp only
    | with_reducible refine keeps_foldl _ _ (fun _ _ hx => ?_) ?_
    | with_reducible refine keeps_ite ?_ ?_
    | split

theorem keeps_setPinBit {L : Nat} {s₀ s : State} (a : Nat) (n : Nat) (v : Bool) (h : Keeps L s₀ s)
    (hl : 8 ||| L = L) : Keeps L s₀ (State.setPinBit s a n v) := by
  unfold State.setPinBit
  repeat' first
    | with_reducible exact h
    | exact sub_trans rfl hl
    | with_reducible assumption
    | with_reducible refine keeps_setWord _ _ ?_ ?_

theorem keeps_gpioRaise {L : Nat} {s₀ s : State} (m : Nat) (h : Keeps L s₀ s)
    (hl : 17288 ||| L = L) : Keeps L s₀ (State.gpioRaise s m) := by
  unfold State.gpioRaise
  repeat' first
    | with_reducible exact h
    | exact sub_trans rfl hl
    | with_reducible assumption
    | with_reducible refine keeps_raise _ _ _ _ _ ?_ ?_

theorem keeps_gpioConflict {L : Nat} {s₀ s : State} (n : Nat) (h : Keeps L s₀ s)
    (hl : 17288 ||| L = L) : Keeps L s₀ (State.gpioConflict s n) := by
  unfold State.gpioConflict
  repeat' first
    | with_reducible exact h
    | exact sub_trans rfl hl
    | with_reducible assumption
    | with_reducible refine keeps_gpioRaise _ ?_ ?_
    | simp only [keeps_regs_iff (sub_trans rfl hl), keeps_evSet_iff (sub_trans rfl hl), keeps_evAdd_iff (sub_trans rfl hl), keeps_evPosted_iff (sub_trans rfl hl), keeps_pilots_iff (sub_trans rfl hl)]
    | with_reducible refine keeps_foldl _ _ (fun _ _ hx => ?_) ?_
    | with_reducible refine keeps_ite ?_ ?_

theorem keeps_gpioEdge {L : Nat} {s₀ s : State} (n : Nat) (rising : Bool) (h : Keeps L s₀ s)
    (hl : 16648 ||| L = L) : Keeps L s₀ (State.gpioEdge s n rising) := by
  unfold State.gpioEdge
  repeat' first
    | with_reducible exact h
    | exact sub_trans rfl hl
    | with_reducible assumption
    | with_reducible refine keeps_post _ _ _ _ ?_ ?_
    | with_reducible refine keeps_setPinBit _ _ _ ?_ ?_
    | dsimp only
    | with_reducible refine keeps_foldl _ _ (fun _ _ hx => ?_) ?_
    | with_reducible refine keeps_ite ?_ ?_

theorem keeps_pinFault {L : Nat} {s₀ s : State} (pin : GpioPin) (level : Bool) (h : Keeps L s₀ s)
    (hl : 68719502216 ||| L = L) : Keeps L s₀ (State.pinFault s pin level) := by
  unfold State.pinFault
  repeat' first
    | with_reducible exact h
    | exact sub_trans rfl hl
    | with_reducible assumption
    | with_reducible refine keeps_setBitsOf _ _ ?_ ?_
    | with_reducible refine keeps_setPinBit _ _ _ ?_ ?_
    | with_reducible refine keeps_gpioRaise _ ?_ ?_
    | with_reducible refine keeps_setFld _ _ ?_ ?_
    | with_reducible refine keeps_setEvtPin _ _ ?_ ?_
    | simp only [keeps_gpio_iff (sub_trans rfl hl)]
    | with_reducible refine keeps_foldl _ _ (fun _ _ hx => ?_) ?_
    | with_reducible refine keeps_ite ?_ ?_
    | split

theorem keeps_faultRetry {L : Nat} {s₀ s : State} (pin : GpioPin) (pass : Bool) (h : Keeps L s₀ s)
    (hl : 68719484936 ||| L = L) : Keeps L s₀ (State.faultRetry s pin pass) := by
  unfold State.faultRetry
  repeat' first
    | with_reducible exact h
    | exact sub_trans rfl hl
    | with_reducible assumption
    | with_reducible refine keeps_setPinBit _ _ _ ?_ ?_
    | with_reducible refine keeps_setFld _ _ ?_ ?_
    | with_reducible refine keeps_setEvtPin _ _ ?_ ?_
    | simp only [keeps_gpio_iff (sub_trans rfl hl)]
    | with_reducible refine keeps_foldl _ _ (fun _ _ hx => ?_) ?_
    | with_reducible refine keeps_ite ?_ ?_
    | split

theorem keeps_gpioResume {L : Nat} {s₀ s : State} (w : Nat) (m : Nat) (h : Keeps L s₀ s)
    (hl : 68719476736 ||| L = L) : Keeps L s₀ (State.gpioResume s w m) := by
  unfold State.gpioResume
  repeat' first
    | with_reducible exact h
    | exact sub_trans rfl hl
    | with_reducible assumption
    | simp only [keeps_gpio_iff (sub_trans rfl hl)]

theorem keeps_evtResume {L : Nat} {s₀ s : State} (i : Nat) (h : Keeps L s₀ s)
    (hl : 8200 ||| L = L) : Keeps L s₀ (State.evtResume s i) := by
  unfold State.evtResume
  repeat' first
    | with_reducible exact h
    | exact sub_trans rfl hl
    | with_reducible assumption
    | with_reducible refine keeps_setEvtPin _ _ ?_ ?_
    | with_reducible refine keeps_setFld _ _ ?_ ?_

theorem keeps_gpioWrite {L : Nat} {s₀ s : State} (w : Nat) (k : Nat) (v : Nat) (h : Keeps L s₀ s)
    (hl : 68719476744 ||| L = L) : Keeps L s₀ (State.gpioWrite s w k v) := by
  unfold State.gpioWrite
  repeat' first
    | with_reducible exact h
    | exact sub_trans rfl hl
    | with_reducible assumption
    | with_reducible refine keeps_setWord _ _ ?_ ?_
    | simp only [keeps_gpio_iff (sub_trans rfl hl)]

end Sys2Proof.Machine
end

