-- ==== Sys2Proof/Laws/FrameVideo.lean ====
section
/-! SUPPORT. One lemma per operation over the state: the parts it may change, as a bit mask (Part.idx); the operations of the camera ports, encoders, pipelines, decoders and the lossless engine. -/

namespace Sys2Proof.Machine

open State

theorem keeps_srxRaise {L : Nat} {s₀ s : State} (p : Nat) (m : Nat) (h : Keeps L s₀ s)
    (hl : 17288 ||| L = L) : Keeps L s₀ (State.srxRaise s p m) := by
  unfold State.srxRaise
  repeat' first
    | with_reducible exact h
    | exact sub_trans rfl hl
    | with_reducible assumption
    | with_reducible refine keeps_raise _ _ _ _ _ ?_ ?_

theorem keeps_propose {L : Nat} {s₀ s : State} (p : Nat) (lanes : List Nat) (h : Keeps L s₀ s)
    (hl : 8 ||| L = L) : Keeps L s₀ (State.propose s p lanes) := by
  unfold State.propose
  repeat' first
    | with_reducible exact h
    | exact sub_trans rfl hl
    | with_reducible assumption
    | with_reducible refine keeps_setFld _ _ ?_ ?_
    | with_reducible refine keeps_setFld2 _ _ _ ?_ ?_

theorem keeps_setLaneState {L : Nat} {s₀ s : State} (p : Nat) (i : Nat) (v : Nat) (h : Keeps L s₀ s)
    (hl : 2097160 ||| L = L) : Keeps L s₀ (State.setLaneState s p i v) := by
  unfold State.setLaneState
  repeat' first
    | with_reducible exact h
    | exact sub_trans rfl hl
    | with_reducible assumption
    | with_reducible refine keeps_setFld _ _ ?_ ?_
    | with_reducible refine keeps_setLane _ _ _ ?_ ?_

theorem keeps_laneFault {L : Nat} {s₀ s : State} (p : Nat) (i : Nat) (code : Nat) (h : Keeps L s₀ s)
    (hl : 2114440 ||| L = L) : Keeps L s₀ (State.laneFault s p i code) := by
  unfold State.laneFault
  repeat' first
    | with_reducible exact h
    | exact sub_trans rfl hl
    | with_reducible assumption
    | with_reducible refine keeps_srxRaise _ _ ?_ ?_
    | with_reducible refine keeps_setFld _ _ ?_ ?_
    | with_reducible refine keeps_setLane _ _ _ ?_ ?_
    | with_reducible refine keeps_propose _ _ ?_ ?_
    | dsimp only
    | with_reducible refine keeps_foldl _ _ (fun _ _ hx => ?_) ?_
    | with_reducible refine keeps_ite ?_ ?_

theorem keeps_laneFaults {L : Nat} {s₀ a3 : State} (p : Nat) (code : Nat) (a2 : List Nat) (h : Keeps L s₀ a3)
    (hl : 2114440 ||| L = L) : Keeps L s₀ (State.laneFaults p code a2 a3) := by
  fun_induction State.laneFaults p code a2 a3
  all_goals repeat' first
      | with_reducible exact h
      | exact sub_trans rfl hl
      | with_reducible assumption
      | with_reducible refine keeps_laneFault _ _ _ ?_ ?_
      | simp only [keeps_regs_iff (sub_trans rfl hl), keeps_evSet_iff (sub_trans rfl hl), keeps_evAdd_iff (sub_trans rfl hl), keeps_evPosted_iff (sub_trans rfl hl), keeps_pilots_iff (sub_trans rfl hl), keeps_lanes_iff (sub_trans rfl hl)]
      | with_reducible refine keeps_foldl _ _ (fun _ _ hx => ?_) ?_
      | with_reducible apply_assumption

theorem keeps_endTraining {L : Nat} {s₀ s : State} (p : Nat) (h : Keeps L s₀ s)
    (hl : 17288 ||| L = L) : Keeps L s₀ (State.endTraining s p) := by
  unfold State.endTraining
  repeat' first
    | with_reducible exact h
    | exact sub_trans rfl hl
    | with_reducible assumption
    | with_reducible refine keeps_srxRaise _ _ ?_ ?_
    | with_reducible refine keeps_propose _ _ ?_ ?_
    | with_reducible refine keeps_setFld _ _ ?_ ?_

theorem keeps_trainLane {L : Nat} {s₀ s : State} (p : Nat) (i : Nat) (h : Keeps L s₀ s)
    (hl : 2097160 ||| L = L) : Keeps L s₀ (State.trainLane s p i) := by
  unfold State.trainLane
  repeat' first
    | with_reducible exact h
    | exact sub_trans rfl hl
    | with_reducible assumption
    | with_reducible refine keeps_toBaseline _ _ ?_ ?_
    | with_reducible refine keeps_setWord _ _ ?_ ?_
    | with_reducible refine keeps_setFld _ _ ?_ ?_
    | with_reducible refine keeps_setLane _ _ _ ?_ ?_
    | dsimp only
    | with_reducible refine keeps_foldl _ _ (fun _ _ hx => ?_) ?_
    | with_reducible refine keeps_ite ?_ ?_

theorem keeps_trainLanes {L : Nat} {s₀ a2 : State} (p : Nat) (a1 : List Nat) (h : Keeps L s₀ a2)
    (hl : 2097160 ||| L = L) : Keeps L s₀ (State.trainLanes p a1 a2) := by
  fun_induction State.trainLanes p a1 a2
  all_goals repeat' first
      | with_reducible exact h
      | exact sub_trans rfl hl
      | with_reducible assumption
      | with_reducible refine keeps_trainLane _ _ ?_ ?_
      | simp only [keeps_regs_iff (sub_trans rfl hl), keeps_lanes_iff (sub_trans rfl hl)]
      | with_reducible refine keeps_foldl _ _ (fun _ _ hx => ?_) ?_
      | with_reducible apply_assumption

theorem keeps_srxTrain {L : Nat} {s₀ s : State} (p : Nat) (h : Keeps L s₀ s)
    (hl : 6291464 ||| L = L) : Keeps L s₀ (State.srxTrain s p) := by
  unfold State.srxTrain
  repeat' first
    | with_reducible exact h
    | exact sub_trans rfl hl
    | with_reducible assumption
    | with_reducible refine keeps_trainLanes _ _ ?_ ?_
    | with_reducible refine keeps_calAbort _ _ ?_ ?_
    | with_reducible refine keeps_setFld _ _ ?_ ?_
    | with_reducible refine keeps_setPort _ _ ?_ ?_

theorem keeps_srxRun {L : Nat} {s₀ s : State} (p : Nat) (h : Keeps L s₀ s)
    (hl : 17288 ||| L = L) : Keeps L s₀ (State.srxRun s p) := by
  unfold State.srxRun
  repeat' first
    | with_reducible exact h
    | exact sub_trans rfl hl
    | with_reducible assumption
    | with_reducible refine keeps_srxRaise _ _ ?_ ?_
    | with_reducible refine keeps_setFld _ _ ?_ ?_
    | simp only [keeps_regs_iff (sub_trans rfl hl), keeps_evSet_iff (sub_trans rfl hl), keeps_evAdd_iff (sub_trans rfl hl), keeps_evPosted_iff (sub_trans rfl hl), keeps_pilots_iff (sub_trans rfl hl)]
    | with_reducible refine keeps_foldl _ _ (fun _ _ hx => ?_) ?_
    | with_reducible refine keeps_ite ?_ ?_

theorem keeps_timeoutLanes {L : Nat} {s₀ a2 : State} (p : Nat) (a1 : List Nat) (h : Keeps L s₀ a2)
    (hl : 2114440 ||| L = L) : Keeps L s₀ (State.timeoutLanes p a1 a2) := by
  fun_induction State.timeoutLanes p a1 a2
  all_goals repeat' first
      | with_reducible exact h
      | exact sub_trans rfl hl
      | with_reducible assumption
      | with_reducible refine keeps_laneFault _ _ _ ?_ ?_
      | simp only [keeps_regs_iff (sub_trans rfl hl), keeps_evSet_iff (sub_trans rfl hl), keeps_evAdd_iff (sub_trans rfl hl), keeps_evPosted_iff (sub_trans rfl hl), keeps_pilots_iff (sub_trans rfl hl), keeps_lanes_iff (sub_trans rfl hl)]
      | with_reducible refine keeps_foldl _ _ (fun _ _ hx => ?_) ?_
      | with_reducible apply_assumption
      | with_reducible refine keeps_ite ?_ ?_

theorem keeps_prbsRestart {L : Nat} {s₀ s : State} (p : Nat) (i : Nat) (h : Keeps L s₀ s)
    (hl : 2097160 ||| L = L) : Keeps L s₀ (State.prbsRestart s p i) := by
  unfold State.prbsRestart
  repeat' first
    | with_reducible exact h
    | exact sub_trans rfl hl
    | with_reducible assumption
    | with_reducible refine keeps_setFld _ _ ?_ ?_
    | with_reducible refine keeps_setLane _ _ _ ?_ ?_

theorem keeps_prbsInject {L : Nat} {s₀ s : State} (p : Nat) (i : Nat) (h : Keeps L s₀ s)
    (hl : 264 ||| L = L) : Keeps L s₀ (State.prbsInject s p i) := by
  unfold State.prbsInject
  repeat' first
    | with_reducible exact h
    | exact sub_trans rfl hl
    | with_reducible assumption
    | with_reducible refine keeps_count _ _ ?_ ?_
    | with_reducible refine keeps_setFld _ _ ?_ ?_
    | dsimp only
    | with_reducible refine keeps_foldl _ _ (fun _ _ hx => ?_) ?_
    | with_reducible refine keeps_ite ?_ ?_

theorem keeps_laneCfgWritten {L : Nat} {s₀ s : State} (p : Nat) (i : Nat) (old : Nat) (inject : Bool) (h : Keeps L s₀ s)
    (hl : 2097416 ||| L = L) : Keeps L s₀ (State.laneCfgWritten s p i old inject) := by
  unfold State.laneCfgWritten
  repeat' first
    | with_reducible exact h
    | exact sub_trans rfl hl
    | with_reducible assumption
    | with_reducible refine keeps_prbsInject _ _ ?_ ?_
    | with_reducible refine keeps_prbsRestart _ _ ?_ ?_
    | dsimp only
    | with_reducible refine keeps_foldl _ _ (fun _ _ hx => ?_) ?_
    | with_reducible refine keeps_ite ?_ ?_

theorem keeps_laneSlip {L : Nat} {s₀ s : State} (p : Nat) (i : Nat) (h : Keeps L s₀ s)
    (hl : 2097152 ||| L = L) : Keeps L s₀ (State.laneSlip s p i) := by
  unfold State.laneSlip
  repeat' first
    | with_reducible exact h
    | exact sub_trans rfl hl
    | with_reducible assumption
    | with_reducible refine keeps_setLane _ _ _ ?_ ?_
    | dsimp only
    | with_reducible refine keeps_foldl _ _ (fun _ _ hx => ?_) ?_
    | with_reducible refine keeps_ite ?_ ?_

theorem keeps_srxFqPush {L : Nat} {s₀ s : State} (p : Nat) (raw : Nat) (map : Nat) (h : Keeps L s₀ s)
    (hl : 262280 ||| L = L) : Keeps L s₀ (State.srxFqPush s p raw map) := by
  unfold State.srxFqPush
  repeat' first
    | with_reducible exact h
    | exact sub_trans rfl hl
    | with_reducible assumption
    | with_reducible refine keeps_setBitsOf _ _ ?_ ?_
    | with_reducible refine keeps_pushQ _ _ _ ?_ ?_
    | (with_reducible refine keeps_pushQ' (by assumption) ?_ ?_)
    | dsimp only
    | with_reducible refine keeps_foldl _ _ (fun _ _ hx => ?_) ?_
    | with_reducible refine keeps_ite ?_ ?_

theorem keeps_pipeInPush {L : Nat} {s₀ s : State} (i : Nat) (raw : Nat) (map : Nat) (h : Keeps L s₀ s)
    (hl : 279432 ||| L = L) : Keeps L s₀ (State.pipeInPush s i raw map) := by
  unfold State.pipeInPush
  repeat' first
    | with_reducible exact h
    | exact sub_trans rfl hl
    | with_reducible assumption
    | with_reducible refine keeps_raise _ _ _ _ _ ?_ ?_
    | with_reducible refine keeps_count _ _ ?_ ?_
    | with_reducible refine keeps_pushQ _ _ _ ?_ ?_
    | (with_reducible refine keeps_pushQ' (by assumption) ?_ ?_)
    | dsimp only
    | with_reducible refine keeps_foldl _ _ (fun _ _ hx => ?_) ?_
    | with_reducible refine keeps_ite ?_ ?_

theorem keeps_setFrame {L : Nat} {s₀ s : State} (p : Nat) (f : PortFrame) (h : Keeps L s₀ s)
    (hl : 4194304 ||| L = L) : Keeps L s₀ (State.setFrame s p f) := by
  unfold State.setFrame
  repeat' first
    | with_reducible exact h
    | exact sub_trans rfl hl
    | with_reducible assumption
    | with_reducible refine keeps_setPort _ _ ?_ ?_

theorem keeps_emitRows {L : Nat} {s₀ s : State} (p : Nat) (f : PortFrame) (k : Nat) (first : Nat) (rows : List (List Byte)) (h : Keeps L s₀ s)
    (hl : 937864 ||| L = L) : Keeps L s₀ (State.emitRows s p f k first rows) := by
  unfold State.emitRows
  repeat' first
    | with_reducible exact h
    | exact sub_trans rfl hl
    | with_reducible assumption
    | with_reducible refine keeps_emit _ _ _ _ ?_ ?_
    | dsimp only
    | with_reducible refine keeps_foldl _ _ (fun _ _ hx => ?_) ?_
    | with_reducible refine keeps_ite ?_ ?_

theorem keeps_flushRun {L : Nat} {s₀ s : State} (p : Nat) (f : PortFrame) (k : Nat) (h : Keeps L s₀ s)
    (hl : 5132168 ||| L = L) : Keeps L s₀ (State.flushRun s p f k).1 := by
  unfold State.flushRun
  repeat' first
    | with_reducible exact h
    | exact sub_trans rfl hl
    | with_reducible assumption
    | with_reducible refine keeps_emitRows _ _ _ _ _ ?_ ?_
    | with_reducible refine keeps_setFrame _ _ ?_ ?_
    | simp only [keeps_regs_iff (sub_trans rfl hl)]
    | with_reducible refine keeps_foldl _ _ (fun _ _ hx => ?_) ?_
    | with_reducible refine keeps_ite_fst ?_ ?_
    | split

theorem keeps_flushRun' {L : Nat} {s₀ s' : State} {s : State} {p : Nat} {f : PortFrame} {k : Nat} {res} (he : State.flushRun s p f k = (s', res)) (h : Keeps L s₀ s)
    (hl : 5132168 ||| L = L) : Keeps L s₀ s' := by
  have := keeps_flushRun p f k h hl
  rwa [he] at this

theorem keeps_ebAdd {L : Nat} {s₀ s : State} (p : Nat) (n : Nat) (h : Keeps L s₀ s)
    (hl : 4194312 ||| L = L) : Keeps L s₀ (State.ebAdd s p n) := by
  unfold State.ebAdd
  repeat' first
    | with_reducible exact h
    | exact sub_trans rfl hl
    | with_reducible assumption
    | with_reducible refine keeps_setFld _ _ ?_ ?_
    | with_reducible refine keeps_setPort _ _ ?_ ?_
    | dsimp only
    | with_reducible refine keeps_foldl _ _ (fun _ _ hx => ?_) ?_
    | with_reducible refine keeps_ite ?_ ?_

theorem keeps_ebSub {L : Nat} {s₀ s : State} (p : Nat) (n : Nat) (h : Keeps L s₀ s)
    (hl : 4194304 ||| L = L) : Keeps L s₀ (State.ebSub s p n) := by
  unfold State.ebSub
  repeat' first
    | with_reducible exact h
    | exact sub_trans rfl hl
    | with_reducible assumption
    | with_reducible refine keeps_setPort _ _ ?_ ?_

theorem keeps_dropRow {L : Nat} {s₀ s : State} (p : Nat) (f : PortFrame) (k : Nat) (h : Keeps L s₀ s)
    (hl : 5132168 ||| L = L) : Keeps L s₀ (State.dropRow s p f k).1 := by
  unfold State.dropRow
  repeat' first
    | with_reducible exact h
    | exact sub_trans rfl hl
    | with_reducible assumption
    | with_reducible refine keeps_srxRaise _ _ ?_ ?_
    | with_reducible refine keeps_flushRun _ _ _ ?_ ?_
    | (with_reducible refine keeps_flushRun' (by assumption) ?_ ?_)
    | with_reducible refine keeps_setFrame _ _ ?_ ?_

theorem keeps_dropRow' {L : Nat} {s₀ s' : State} {s : State} {p : Nat} {f : PortFrame} {k : Nat} {res} (he : State.dropRow s p f k = (s', res)) (h : Keeps L s₀ s)
    (hl : 5132168 ||| L = L) : Keeps L s₀ s' := by
  have := keeps_dropRow p f k h hl
  rwa [he] at this

theorem keeps_keepRow {L : Nat} {s₀ s : State} (p : Nat) (f : PortFrame) (k : Nat) (r : Nat) (row : List Byte) (h : Keeps L s₀ s)
    (hl : 5132168 ||| L = L) : Keeps L s₀ (State.keepRow s p f k r row) := by
  unfold State.keepRow
  repeat' first
    | with_reducible exact h
    | exact sub_trans rfl hl
    | with_reducible assumption
    | with_reducible refine keeps_flushRun _ _ _ ?_ ?_
    | (with_reducible refine keeps_flushRun' (by assumption) ?_ ?_)
    | with_reducible refine keeps_setFrame _ _ ?_ ?_
    | dsimp only
    | with_reducible refine keeps_foldl _ _ (fun _ _ hx => ?_) ?_
    | with_reducible refine keeps_ite ?_ ?_
    | split

theorem keeps_settleRow {L : Nat} {s₀ s : State} (p : Nat) (prev : List LaneBytes) (crc : Option Nat) (h : Keeps L s₀ s)
    (hl : 5132168 ||| L = L) : Keeps L s₀ (State.settleRow s p prev crc) := by
  unfold State.settleRow
  repeat' first
    | with_reducible exact h
    | exact sub_trans rfl hl
    | with_reducible assumption
    | with_reducible refine keeps_dropRow _ _ _ ?_ ?_
    | (with_reducible refine keeps_dropRow' (by assumption) ?_ ?_)
    | with_reducible refine keeps_count _ _ ?_ ?_
    | with_reducible refine keeps_keepRow _ _ _ _ _ ?_ ?_
    | with_reducible refine keeps_ebSub _ _ ?_ ?_
    | with_reducible refine keeps_setPort _ _ ?_ ?_
    | dsimp only
    | with_reducible refine keeps_foldl _ _ (fun _ _ hx => ?_) ?_
    | with_reducible refine keeps_ite ?_ ?_
    | split

theorem keeps_fillRows {L : Nat} {s₀ a7 : State} (p : Nat) (k : Nat) (row : List Byte) (valid : Nat) (a4 : Nat) (a5 : Nat) (a6 : List (List Byte)) (a8 : PortFrame) (h : Keeps L s₀ a7)
    (hl : 5132168 ||| L = L) : Keeps L s₀ (State.fillRows p k row valid a4 a5 a6 a7 a8).1 := by
  fun_induction State.fillRows p k row valid a4 a5 a6 a7 a8
  all_goals repeat' first
      | with_reducible exact h
      | exact sub_trans rfl hl
      | with_reducible assumption
      | with_reducible refine keeps_emitRows _ _ _ _ _ ?_ ?_
      | with_reducible refine keeps_count _ _ ?_ ?_
      | with_reducible refine keeps_srxRaise _ _ ?_ ?_
      | with_reducible refine keeps_ebAdd _ _ ?_ ?_
      | with_reducible refine keeps_setFrame _ _ ?_ ?_
      | simp only [keeps_regs_iff (sub_trans rfl hl)]
      | with_reducible refine keeps_foldl _ _ (fun _ _ hx => ?_) ?_
      | with_reducible apply_assumption

theorem keeps_fillRows' {L : Nat} {s₀ s' : State} {p : Nat} {k : Nat} {row : List Byte} {valid : Nat} {a4 : Nat} {a5 : Nat} {a6 : List (List Byte)} {a7 : State} {a8 : PortFrame} {res} (he : State.fillRows p k row valid a4 a5 a6 a7 a8 = (s', res)) (h : Keeps L s₀ a7)
    (hl : 5132168 ||| L = L) : Keeps L s₀ s' := by
  have := keeps_fillRows p k row valid a4 a5 a6 a8 h hl
  rwa [he] at this

theorem keeps_closeStratum {L : Nat} {s₀ s : State} (p : Nat) (f : PortFrame) (k : Nat) (count : Nat) (short : Bool) (h : Keeps L s₀ s)
    (hl : 5132168 ||| L = L) : Keeps L s₀ (State.closeStratum s p f k count short).1 := by
  unfold State.closeStratum
  repeat' first
    | with_reducible exact h
    | exact sub_trans rfl hl
    | with_reducible assumption
    | with_reducible refine keeps_srxRaise _ _ ?_ ?_
    | with_reducible refine keeps_fillRows _ _ _ _ _ _ _ _ ?_ ?_
    | (with_reducible refine keeps_fillRows' (by assumption) ?_ ?_)
    | with_reducible refine keeps_flushRun _ _ _ ?_ ?_
    | (with_reducible refine keeps_flushRun' (by assumption) ?_ ?_)
    | with_reducible refine keeps_setFrame _ _ ?_ ?_
    | simp only [keeps_regs_iff (sub_trans rfl hl)]
    | with_reducible refine keeps_foldl _ _ (fun _ _ hx => ?_) ?_
    | with_reducible refine keeps_ite_fst ?_ ?_

theorem keeps_closeStratum' {L : Nat} {s₀ s' : State} {s : State} {p : Nat} {f : PortFrame} {k : Nat} {count : Nat} {short : Bool} {res} (he : State.closeStratum s p f k count short = (s', res)) (h : Keeps L s₀ s)
    (hl : 5132168 ||| L = L) : Keeps L s₀ s' := by
  have := keeps_closeStratum p f k count short h hl
  rwa [he] at this

theorem keeps_emitMaps {L : Nat} {s₀ a3 : State} (p : Nat) (f : PortFrame) (a2 : List Nat) (h : Keeps L s₀ a3)
    (hl : 937864 ||| L = L) : Keeps L s₀ (State.emitMaps p f a2 a3) := by
  fun_induction State.emitMaps p f a2 a3
  all_goals repeat' first
      | with_reducible exact h
      | exact sub_trans rfl hl
      | with_reducible assumption
      | with_reducible refine keeps_emit _ _ _ _ ?_ ?_
      | dsimp only
      | with_reducible refine keeps_foldl _ _ (fun _ _ hx => ?_) ?_
      | with_reducible apply_assumption

theorem keeps_finishFrame {L : Nat} {s₀ s : State} (p : Nat) (f : PortFrame) (h : Keeps L s₀ s)
    (hl : 5132168 ||| L = L) : Keeps L s₀ (State.finishFrame s p f) := by
  unfold State.finishFrame
  repeat' first
    | with_reducible exact h
    | exact sub_trans rfl hl
    | with_reducible assumption
    | with_reducible refine keeps_release _ _ ?_ ?_
    | with_reducible refine keeps_logRec _ _ _ _ ?_ ?_
    | with_reducible refine keeps_emitMaps _ _ _ ?_ ?_
    | with_reducible refine keeps_berthRel _ _ _ _ ?_ ?_
    | with_reducible refine keeps_count _ _ ?_ ?_
    | with_reducible refine keeps_pipeInPush _ _ _ ?_ ?_
    | with_reducible refine keeps_endWork _ _ ?_ ?_
    | with_reducible refine keeps_setPort _ _ ?_ ?_
    | dsimp only
    | with_reducible refine keeps_foldl _ _ (fun _ _ hx => ?_) ?_
    | with_reducible refine keeps_ite ?_ ?_

theorem keeps_closeShort {L : Nat} {s₀ a2 : State} (p : Nat) (a1 : List Nat) (a3 : PortFrame) (h : Keeps L s₀ a2)
    (hl : 5132168 ||| L = L) : Keeps L s₀ (State.closeShort p a1 a2 a3).1 := by
  fun_induction State.closeShort p a1 a2 a3
  all_goals repeat' first
      | with_reducible exact h
      | exact sub_trans rfl hl
      | with_reducible assumption
      | with_reducible refine keeps_closeStratum _ _ _ _ _ ?_ ?_
      | (with_reducible refine keeps_closeStratum' (by assumption) ?_ ?_)
      | simp only [keeps_regs_iff (sub_trans rfl hl)]
      | with_reducible refine keeps_foldl _ _ (fun _ _ hx => ?_) ?_
      | with_reducible apply_assumption

theorem keeps_closeShort' {L : Nat} {s₀ s' : State} {p : Nat} {a1 : List Nat} {a2 : State} {a3 : PortFrame} {res} (he : State.closeShort p a1 a2 a3 = (s', res)) (h : Keeps L s₀ a2)
    (hl : 5132168 ||| L = L) : Keeps L s₀ s' := by
  have := keeps_closeShort p a1 a3 h hl
  rwa [he] at this

theorem keeps_closeFrame {L : Nat} {s₀ s : State} (p : Nat) (h : Keeps L s₀ s)
    (hl : 5132168 ||| L = L) : Keeps L s₀ (State.closeFrame s p) := by
  unfold State.closeFrame
  repeat' first
    | with_reducible exact h
    | exact sub_trans rfl hl
    | with_reducible assumption
    | with_reducible refine keeps_srxRaise _ _ ?_ ?_
    | with_reducible refine keeps_closeShort _ _ _ ?_ ?_
    | (with_reducible refine keeps_closeShort' (by assumption) ?_ ?_)
    | with_reducible refine keeps_finishFrame _ _ ?_ ?_
    | with_reducible refine keeps_ebSub _ _ ?_ ?_
    | with_reducible refine keeps_setPort _ _ ?_ ?_
    | with_reducible refine keeps_setFrame _ _ ?_ ?_
    | simp only [keeps_regs_iff (sub_trans rfl hl)]
    | with_reducible refine keeps_foldl _ _ (fun _ _ hx => ?_) ?_
    | with_reducible refine keeps_ite ?_ ?_
    | split

theorem keeps_openFrame {L : Nat} {s₀ s : State} (p : Nat) (width : Nat) (h : Keeps L s₀ s)
    (hl : 5136264 ||| L = L) : Keeps L s₀ (State.openFrame s p width) := by
  unfold State.openFrame
  repeat' first
    | with_reducible exact h
    | exact sub_trans rfl hl
    | with_reducible assumption
    | with_reducible refine keeps_acquire _ _ ?_ ?_
    | (with_reducible refine keeps_acquire' (by assumption) ?_ ?_)
    | with_reducible refine keeps_setFld _ _ ?_ ?_
    | with_reducible refine keeps_closeFrame _ ?_ ?_
    | with_reducible refine keeps_count _ _ ?_ ?_
    | with_reducible refine keeps_touchBank _ _ ?_ ?_
    | with_reducible refine keeps_beginWork _ _ _ _ ?_ ?_
    | with_reducible refine keeps_setPort _ _ ?_ ?_
    | with_reducible refine keeps_srxRaise _ _ ?_ ?_
    | with_reducible refine keeps_popQ _ ?_ ?_
    | (with_reducible refine keeps_popQ' (by assumption) ?_ ?_)
    | with_reducible refine keeps_setFrame _ _ ?_ ?_
    | simp only [keeps_regs_iff (sub_trans rfl hl)]
    | with_reducible refine keeps_foldl _ _ (fun _ _ hx => ?_) ?_
    | with_reducible refine keeps_ite ?_ ?_
    | split

theorem keeps_codeErr {L : Nat} {s₀ s : State} (p : Nat) (i : Nat) (h : Keeps L s₀ s)
    (hl : 2097416 ||| L = L) : Keeps L s₀ (State.codeErr s p i) := by
  unfold State.codeErr
  repeat' first
    | with_reducible exact h
    | exact sub_trans rfl hl
    | with_reducible assumption
    | with_reducible refine keeps_count _ _ ?_ ?_
    | with_reducible refine keeps_setLane _ _ _ ?_ ?_

theorem keeps_codeErrs {L : Nat} {s₀ a4 : State} (p : Nat) (kind : Nat) (pos0 : Option Nat) (a3 : List LaneBlock) (h : Keeps L s₀ a4)
    (hl : 2097416 ||| L = L) : Keeps L s₀ (State.codeErrs p kind pos0 a3 a4) := by
  fun_induction State.codeErrs p kind pos0 a3 a4
  all_goals repeat' first
      | with_reducible exact h
      | exact sub_trans rfl hl
      | with_reducible assumption
      | with_reducible refine keeps_codeErr _ _ ?_ ?_
      | simp only [keeps_regs_iff (sub_trans rfl hl), keeps_evAdd_iff (sub_trans rfl hl), keeps_lanes_iff (sub_trans rfl hl)]
      | with_reducible refine keeps_foldl _ _ (fun _ _ hx => ?_) ?_
      | with_reducible apply_assumption
      | with_reducible refine keeps_ite ?_ ?_

theorem keeps_startStratum {L : Nat} {s₀ s : State} (p : Nat) (k : Nat) (width : Nat) (h : Keeps L s₀ s)
    (hl : 4211592 ||| L = L) : Keeps L s₀ (State.startStratum s p k width) := by
  unfold State.startStratum
  repeat' first
    | with_reducible exact h
    | exact sub_trans rfl hl
    | with_reducible assumption
    | with_reducible refine keeps_srxRaise _ _ ?_ ?_
    | with_reducible refine keeps_setFrame _ _ ?_ ?_
    | simp only [keeps_regs_iff (sub_trans rfl hl), keeps_evSet_iff (sub_trans rfl hl), keeps_evAdd_iff (sub_trans rfl hl), keeps_evPosted_iff (sub_trans rfl hl), keeps_pilots_iff (sub_trans rfl hl), keeps_ports_iff (sub_trans rfl hl)]
    | with_reducible refine keeps_foldl _ _ (fun _ _ hx => ?_) ?_
    | with_reducible refine keeps_ite ?_ ?_
    | split

theorem keeps_acceptRow {L : Nat} {s₀ s : State} (p : Nat) (hdr : Nat) (h : Keeps L s₀ s)
    (hl : 5132168 ||| L = L) : Keeps L s₀ (State.acceptRow s p hdr) := by
  unfold State.acceptRow
  repeat' first
    | with_reducible exact h
    | exact sub_trans rfl hl
    | with_reducible assumption
    | with_reducible refine keeps_count _ _ ?_ ?_
    | with_reducible refine keeps_setPort _ _ ?_ ?_
    | with_reducible refine keeps_srxRaise _ _ ?_ ?_
    | with_reducible refine keeps_ebAdd _ _ ?_ ?_
    | with_reducible refine keeps_dropRow _ _ _ ?_ ?_
    | (with_reducible refine keeps_dropRow' (by assumption) ?_ ?_)
    | with_reducible refine keeps_flushRun _ _ _ ?_ ?_
    | (with_reducible refine keeps_flushRun' (by assumption) ?_ ?_)
    | with_reducible refine keeps_setFrame _ _ ?_ ?_
    | simp only [keeps_regs_iff (sub_trans rfl hl)]
    | with_reducible refine keeps_foldl _ _ (fun _ _ hx => ?_) ?_
    | with_reducible refine keeps_ite ?_ ?_
    | split

theorem keeps_eofStratum {L : Nat} {s₀ s : State} (p : Nat) (k : Nat) (count : Nat) (h : Keeps L s₀ s)
    (hl : 5132168 ||| L = L) : Keeps L s₀ (State.eofStratum s p k count) := by
  unfold State.eofStratum
  repeat' first
    | with_reducible exact h
    | exact sub_trans rfl hl
    | with_reducible assumption
    | with_reducible refine keeps_closeStratum _ _ _ _ _ ?_ ?_
    | (with_reducible refine keeps_closeStratum' (by assumption) ?_ ?_)
    | with_reducible refine keeps_srxRaise _ _ ?_ ?_
    | with_reducible refine keeps_finishFrame _ _ ?_ ?_
    | with_reducible refine keeps_setFrame _ _ ?_ ?_
    | simp only [keeps_regs_iff (sub_trans rfl hl)]
    | with_reducible refine keeps_foldl _ _ (fun _ _ hx => ?_) ?_
    | with_reducible refine keeps_ite ?_ ?_
    | split

theorem keeps_stopLanes {L : Nat} {s₀ a2 : State} (p : Nat) (a1 : List Nat) (h : Keeps L s₀ a2)
    (hl : 2097160 ||| L = L) : Keeps L s₀ (State.stopLanes p a1 a2) := by
  fun_induction State.stopLanes p a1 a2
  all_goals repeat' first
      | with_reducible exact h
      | exact sub_trans rfl hl
      | with_reducible assumption
      | with_reducible refine keeps_setFld _ _ ?_ ?_
      | with_reducible refine keeps_setLane _ _ _ ?_ ?_
      | dsimp only
      | with_reducible refine keeps_foldl _ _ (fun _ _ hx => ?_) ?_
      | with_reducible apply_assumption
      | with_reducible refine keeps_ite ?_ ?_

theorem keeps_srxStop {L : Nat} {s₀ s : State} (p : Nat) (h : Keeps L s₀ s)
    (hl : 7229320 ||| L = L) : Keeps L s₀ (State.srxStop s p) := by
  unfold State.srxStop
  repeat' first
    | with_reducible exact h
    | exact sub_trans rfl hl
    | with_reducible assumption
    | with_reducible refine keeps_calAbort _ _ ?_ ?_
    | with_reducible refine keeps_stopLanes _ _ ?_ ?_
    | with_reducible refine keeps_closeFrame _ ?_ ?_
    | with_reducible refine keeps_setFld _ _ ?_ ?_

theorem keeps_srxOp {L : Nat} {s₀ s : State} (p : Nat) (op : Nat) (h : Keeps L s₀ s)
    (hl : 7229320 ||| L = L) : Keeps L s₀ (State.srxOp s p op) := by
  unfold State.srxOp
  repeat' first
    | with_reducible exact h
    | exact sub_trans rfl hl
    | with_reducible assumption
    | with_reducible refine keeps_srxStop _ ?_ ?_
    | with_reducible refine keeps_srxRaise _ _ ?_ ?_
    | with_reducible refine keeps_srxTrain _ ?_ ?_
    | with_reducible refine keeps_srxRun _ ?_ ?_
    | simp only [keeps_regs_iff (sub_trans rfl hl), keeps_evSet_iff (sub_trans rfl hl), keeps_evAdd_iff (sub_trans rfl hl), keeps_evPosted_iff (sub_trans rfl hl), keeps_fab_iff (sub_trans rfl hl), keeps_pilots_iff (sub_trans rfl hl), keeps_log_iff (sub_trans rfl hl), keeps_queues_iff (sub_trans rfl hl), keeps_leaves_iff (sub_trans rfl hl), keeps_lanes_iff (sub_trans rfl hl), keeps_ports_iff (sub_trans rfl hl)]
    | with_reducible refine keeps_foldl _ _ (fun _ _ hx => ?_) ?_
    | with_reducible refine keeps_ite ?_ ?_

theorem keeps_laneTide {L : Nat} {s₀ s : State} (e : LaneTide) (h : Keeps L s₀ s)
    (hl : 2114440 ||| L = L) : Keeps L s₀ (State.laneTide s e) := by
  unfold State.laneTide
  lift_lets
  intro p i st fom s1 s2 perr s3 errs ln s4 s5
  have h1 : Keeps L s₀ s1 := keeps_setFld _ _ (keeps_setFld _ _ (keeps_setFld _ _ h (sub_trans rfl hl)) (sub_trans rfl hl)) (sub_trans rfl hl)
  clear_value s1
  have h2 : Keeps L s₀ s2 := by
    unfold s2
    split
    · exact keeps_setFld _ _ (keeps_setFld _ _ h1 (sub_trans rfl hl)) (sub_trans rfl hl)
    · exact h1
  clear_value s2
  have h3 : Keeps L s₀ s3 := by
    unfold s3
    split
    · exact h2
    · exact keeps_count _ _ h2 (sub_trans rfl hl)
  clear_value s3
  have h4 : Keeps L s₀ s4 := keeps_setLane _ _ _ h3 (sub_trans rfl hl)
  clear_value s4
  have h5 : Keeps L s₀ s5 := by
    unfold s5
    split
    · exact keeps_toBaseline _ _ (keeps_setFld _ _ h4 (sub_trans rfl hl)) (sub_trans rfl hl)
    · exact h4
  clear_value s5
  split
  · exact h
  · split
    · exact keeps_laneFault _ _ _ h5 (sub_trans rfl hl)
    · split
      · exact keeps_laneFault _ _ _ h5 (sub_trans rfl hl)
      · exact h5

theorem keeps_laneTides {L : Nat} {s₀ a1 : State} (a0 : List LaneTide) (h : Keeps L s₀ a1)
    (hl : 2114440 ||| L = L) : Keeps L s₀ (State.laneTides a0 a1) := by
  fun_induction State.laneTides a0 a1
  all_goals repeat' first
      | with_reducible exact h
      | exact sub_trans rfl hl
      | with_reducible assumption
      | with_reducible refine keeps_laneTide _ ?_ ?_
      | simp only [keeps_regs_iff (sub_trans rfl hl), keeps_evSet_iff (sub_trans rfl hl), keeps_evAdd_iff (sub_trans rfl hl), keeps_evPosted_iff (sub_trans rfl hl), keeps_pilots_iff (sub_trans rfl hl), keeps_lanes_iff (sub_trans rfl hl)]
      | with_reducible refine keeps_foldl _ _ (fun _ _ hx => ?_) ?_
      | with_reducible apply_assumption

theorem keeps_setSyncOut {L : Nat} {s₀ s : State} (p : Nat) (k : Nat) (x : SyncOut) (h : Keeps L s₀ s)
    (hl : 4194304 ||| L = L) : Keeps L s₀ (State.setSyncOut s p k x) := by
  unfold State.setSyncOut
  repeat' first
    | with_reducible exact h
    | exact sub_trans rfl hl
    | with_reducible assumption
    | with_reducible refine keeps_setPort _ _ ?_ ?_

theorem keeps_syncTide {L : Nat} {s₀ s : State} (n : Nat) (p : Nat) (k : Nat) (h : Keeps L s₀ s)
    (hl : 4194304 ||| L = L) : Keeps L s₀ (State.syncTide s n p k) := by
  unfold State.syncTide
  repeat' first
    | with_reducible exact h
    | exact sub_trans rfl hl
    | with_reducible assumption
    | with_reducible refine keeps_setSyncOut _ _ _ ?_ ?_
    | dsimp only
    | with_reducible refine keeps_foldl _ _ (fun _ _ hx => ?_) ?_
    | with_reducible refine keeps_ite ?_ ?_

theorem keeps_syncTides {L : Nat} {s₀ a2 : State} (n : Nat) (a1 : List (Nat × Nat)) (h : Keeps L s₀ a2)
    (hl : 4194304 ||| L = L) : Keeps L s₀ (State.syncTides n a1 a2) := by
  fun_induction State.syncTides n a1 a2
  all_goals repeat' first
      | with_reducible exact h
      | exact sub_trans rfl hl
      | with_reducible assumption
      | with_reducible refine keeps_syncTide _ _ _ ?_ ?_
      | simp only [keeps_ports_iff (sub_trans rfl hl)]
      | with_reducible refine keeps_foldl _ _ (fun _ _ hx => ?_) ?_
      | with_reducible apply_assumption

theorem keeps_syncEdge {L : Nat} {s₀ s : State} (p : Nat) (k : Nat) (h : Keeps L s₀ s)
    (hl : 4194304 ||| L = L) : Keeps L s₀ (State.syncEdge s p k) := by
  unfold State.syncEdge
  repeat' first
    | with_reducible exact h
    | exact sub_trans rfl hl
    | with_reducible assumption
    | with_reducible refine keeps_setSyncOut _ _ _ ?_ ?_
    | dsimp only
    | with_reducible refine keeps_foldl _ _ (fun _ _ hx => ?_) ?_
    | with_reducible refine keeps_ite ?_ ?_
    | split

theorem keeps_setEncStream {L : Nat} {s₀ s : State} (e : Nat) (i : Nat) (x : EncStream) (h : Keeps L s₀ s)
    (hl : 33554432 ||| L = L) : Keeps L s₀ (State.setEncStream s e i x) := by
  unfold State.setEncStream
  repeat' first
    | with_reducible exact h
    | exact sub_trans rfl hl
    | with_reducible assumption
    | simp only [keeps_encStreams_iff (sub_trans rfl hl)]

theorem keeps_encRaise {L : Nat} {s₀ s : State} (e : Nat) (m : Nat) (h : Keeps L s₀ s)
    (hl : 17288 ||| L = L) : Keeps L s₀ (State.encRaise s e m) := by
  unfold State.encRaise
  repeat' first
    | with_reducible exact h
    | exact sub_trans rfl hl
    | with_reducible assumption
    | with_reducible refine keeps_raise _ _ _ _ _ ?_ ?_

theorem keeps_freeBytes {L : Nat} {s₀ s : State} (n : Nat) (h : Keeps L s₀ s)
    (hl : 4 ||| L = L) : Keeps L s₀ (State.freeBytes s n).1 := by
  unfold State.freeBytes
  repeat' first
    | with_reducible exact h
    | exact sub_trans rfl hl
    | with_reducible assumption
    | simp only [keeps_fresh_iff (sub_trans rfl hl)]

theorem keeps_freeBytes' {L : Nat} {s₀ s' : State} {s : State} {n : Nat} {res} (he : State.freeBytes s n = (s', res)) (h : Keeps L s₀ s)
    (hl : 4 ||| L = L) : Keeps L s₀ s' := by
  have := keeps_freeBytes n h hl
  rwa [he] at this

theorem keeps_encPush {L : Nat} {s₀ s : State} (e : Nat) (i : Nat) (j : Nat) (a4 : Nat) (h : Keeps L s₀ s)
    (hl : 262408 ||| L = L) : Keeps L s₀ (State.encPush s e i j a4) := by
  unfold State.encPush
  repeat' first
    | with_reducible exact h
    | exact sub_trans rfl hl
    | with_reducible assumption
    | with_reducible refine keeps_count _ _ ?_ ?_
    | with_reducible refine keeps_pushQ _ _ _ ?_ ?_
    | (with_reducible refine keeps_pushQ' (by assumption) ?_ ?_)
    | dsimp only
    | with_reducible refine keeps_foldl _ _ (fun _ _ hx => ?_) ?_
    | with_reducible refine keeps_ite ?_ ?_

theorem keeps_encNotCoded {L : Nat} {s₀ s : State} (e : Nat) (i : Nat) (q : QEnt) (flags : Nat) (ev : Nat) (h : Keeps L s₀ s)
    (hl : 412552 ||| L = L) : Keeps L s₀ (State.encNotCoded s e i q flags ev) := by
  unfold State.encNotCoded
  repeat' first
    | with_reducible exact h
    | exact sub_trans rfl hl
    | with_reducible assumption
    | with_reducible refine keeps_encRaise _ _ ?_ ?_
    | with_reducible refine keeps_berthRel _ _ _ _ ?_ ?_
    | with_reducible refine keeps_count _ _ ?_ ?_
    | with_reducible refine keeps_release _ _ ?_ ?_
    | simp only [keeps_regs_iff (sub_trans rfl hl), keeps_evSet_iff (sub_trans rfl hl), keeps_evAdd_iff (sub_trans rfl hl), keeps_evPosted_iff (sub_trans rfl hl), keeps_fab_iff (sub_trans rfl hl), keeps_pilots_iff (sub_trans rfl hl), keeps_log_iff (sub_trans rfl hl), keeps_queues_iff (sub_trans rfl hl)]
    | with_reducible refine keeps_foldl _ _ (fun _ _ hx => ?_) ?_
    | with_reducible refine keeps_ite ?_ ?_

theorem keeps_dropLate {L : Nat} {s₀ a5 : State} (e : Nat) (i : Nat) (k : Nat) (a3 : List QEnt) (a4 : List QEnt) (h : Keeps L s₀ a5)
    (hl : 412552 ||| L = L) : Keeps L s₀ (State.dropLate e i k a3 a4 a5) := by
  fun_induction State.dropLate e i k a3 a4 a5
  all_goals repeat' first
      | with_reducible exact h
      | exact sub_trans rfl hl
      | with_reducible assumption
      | with_reducible refine keeps_encNotCoded _ _ _ _ _ ?_ ?_
      | with_reducible refine keeps_setQueue _ _ ?_ ?_
      | simp only [keeps_regs_iff (sub_trans rfl hl), keeps_evSet_iff (sub_trans rfl hl), keeps_evAdd_iff (sub_trans rfl hl), keeps_evPosted_iff (sub_trans rfl hl), keeps_fab_iff (sub_trans rfl hl), keeps_pilots_iff (sub_trans rfl hl), keeps_log_iff (sub_trans rfl hl), keeps_queues_iff (sub_trans rfl hl)]
      | with_reducible refine keeps_foldl _ _ (fun _ _ hx => ?_) ?_
      | with_reducible apply_assumption

theorem keeps_dropLates {L : Nat} {s₀ a3 : State} (e : Nat) (k : Nat) (a2 : List Nat) (h : Keeps L s₀ a3)
    (hl : 412552 ||| L = L) : Keeps L s₀ (State.dropLates e k a2 a3) := by
  fun_induction State.dropLates e k a2 a3
  all_goals repeat' first
      | with_reducible exact h
      | exact sub_trans rfl hl
      | with_reducible assumption
      | with_reducible refine keeps_dropLate _ _ _ _ _ ?_ ?_
      | simp only [keeps_regs_iff (sub_trans rfl hl), keeps_evSet_iff (sub_trans rfl hl), keeps_evAdd_iff (sub_trans rfl hl), keeps_evPosted_iff (sub_trans rfl hl), keeps_fab_iff (sub_trans rfl hl), keeps_pilots_iff (sub_trans rfl hl), keeps_log_iff (sub_trans rfl hl), keeps_queues_iff (sub_trans rfl hl)]
      | with_reducible refine keeps_foldl _ _ (fun _ _ hx => ?_) ?_
      | with_reducible apply_assumption

theorem keeps_setEncPic {L : Nat} {s₀ s : State} (x : EncPic) (h : Keeps L s₀ s)
    (hl : 16777216 ||| L = L) : Keeps L s₀ (State.setEncPic s x) := by
  unfold State.setEncPic
  repeat' first
    | with_reducible exact h
    | exact sub_trans rfl hl
    | with_reducible assumption
    | simp only [keeps_encPics_iff (sub_trans rfl hl)]

theorem keeps_dropEncPic {L : Nat} {s₀ s : State} (x : EncPic) (h : Keeps L s₀ s)
    (hl : 16777216 ||| L = L) : Keeps L s₀ (State.dropEncPic s x) := by
  unfold State.dropEncPic
  repeat' first
    | with_reducible exact h
    | exact sub_trans rfl hl
    | with_reducible assumption
    | simp only [keeps_encPics_iff (sub_trans rfl hl)]

theorem keeps_acquireFor {L : Nat} {s₀ : State} : ∀ (a1 : List (Nat × Nat)) {s : State} (_ : Keeps L s₀ s)
    (_ : 150408 ||| L = L), Keeps L s₀ (State.acquireFor a1 s).1
  | [], _, h, _ => h
  | (e, x) :: xs, s, h, hl => by
    simp only [State.acquireFor]
    split
    · exact keeps_acquireFor xs h hl
    · exact keeps_acquireFor xs (keeps_acquire (8 + e) x h (sub_trans rfl hl)) hl

theorem keeps_acquireFor' {L : Nat} {s₀ s' : State} {a0 : List (Nat × Nat)} {a1 : State} {res} (he : State.acquireFor a0 a1 = (s', res)) (h : Keeps L s₀ a1)
    (hl : 150408 ||| L = L) : Keeps L s₀ s' := by
  have := keeps_acquireFor a0 h hl
  rwa [he] at this

theorem keeps_encWork {L : Nat} {s₀ a3 : State} (t : Nat) (e : Nat) (a2 : List Nat) (h : Keeps L s₀ a3)
    (hl : 2048 ||| L = L) : Keeps L s₀ (State.encWork t e a2 a3) := by
  fun_induction State.encWork t e a2 a3
  all_goals repeat' first
      | with_reducible exact h
      | exact sub_trans rfl hl
      | with_reducible assumption
      | with_reducible refine keeps_beginWork _ _ _ _ ?_ ?_
      | simp only [keeps_fab_iff (sub_trans rfl hl)]
      | with_reducible refine keeps_foldl _ _ (fun _ _ hx => ?_) ?_
      | with_reducible apply_assumption

theorem keeps_encShow {L : Nat} {s₀ s : State} (e : Nat) (h : Keeps L s₀ s)
    (hl : 8 ||| L = L) : Keeps L s₀ (State.encShow s e) := by
  unfold State.encShow
  repeat' first
    | with_reducible exact h
    | exact sub_trans rfl hl
    | with_reducible assumption
    | with_reducible refine keeps_setFld _ _ ?_ ?_
    | dsimp only
    | with_reducible refine keeps_foldl _ _ (fun _ _ hx => ?_) ?_
    | with_reducible refine keeps_ite ?_ ?_
    | split

theorem keeps_encBegin {L : Nat} {s₀ s : State} (e : Nat) (i : Nat) (q : QEnt) (h : Keeps L s₀ s)
    (hl : 50748300 ||| L = L) : Keeps L s₀ (State.encBegin s e i q).1 := by
  unfold State.encBegin
  repeat' first
    | with_reducible exact h
    | exact sub_trans rfl hl
    | with_reducible assumption
    | with_reducible refine keeps_encWork _ _ _ ?_ ?_
    | with_reducible refine keeps_nextFree ?_ ?_
    | with_reducible refine keeps_setBitsOf _ _ ?_ ?_
    | with_reducible refine keeps_setFld _ _ ?_ ?_
    | with_reducible refine keeps_touchBank _ _ ?_ ?_
    | with_reducible refine keeps_setQueue _ _ ?_ ?_
    | with_reducible refine keeps_encNotCoded _ _ _ _ _ ?_ ?_
    | with_reducible refine keeps_acquireFor _ ?_ ?_
    | (with_reducible refine keeps_acquireFor' (by assumption) ?_ ?_)
    | with_reducible refine keeps_setEncStream _ _ _ ?_ ?_
    | with_reducible refine keeps_popQ _ ?_ ?_
    | (with_reducible refine keeps_popQ' (by assumption) ?_ ?_)
    | simp only [keeps_fresh_iff (sub_trans rfl hl), keeps_encPics_iff (sub_trans rfl hl)]
    | with_reducible refine keeps_foldl _ _ (fun _ _ hx => ?_) ?_
    | with_reducible refine keeps_ite_fst ?_ ?_
    | split

theorem keeps_encBegin' {L : Nat} {s₀ s' : State} {s : State} {e : Nat} {i : Nat} {q : QEnt} {res} (he : State.encBegin s e i q = (s', res)) (h : Keeps L s₀ s)
    (hl : 50748300 ||| L = L) : Keeps L s₀ s' := by
  have := keeps_encBegin e i q h hl
  rwa [he] at this

theorem keeps_encStartLoop {L : Nat} {s₀ a4 : State} (e : Nat) (k : Nat) (lo : Nat) (a3 : Nat) (h : Keeps L s₀ a4)
    (hl : 50748300 ||| L = L) : Keeps L s₀ (State.encStartLoop e k lo a3 a4) := by
  fun_induction State.encStartLoop e k lo a3 a4
  all_goals repeat' first
      | with_reducible exact h
      | exact sub_trans rfl hl
      | with_reducible assumption
      | with_reducible refine keeps_setEncPic _ ?_ ?_
      | with_reducible refine keeps_encBegin _ _ _ ?_ ?_
      | (with_reducible refine keeps_encBegin' (by assumption) ?_ ?_)
      | with_reducible refine keeps_setQueue _ _ ?_ ?_
      | simp only [keeps_fresh_iff (sub_trans rfl hl), keeps_regs_iff (sub_trans rfl hl), keeps_evSet_iff (sub_trans rfl hl), keeps_evAdd_iff (sub_trans rfl hl), keeps_evPosted_iff (sub_trans rfl hl), keeps_fab_iff (sub_trans rfl hl), keeps_pilots_iff (sub_trans rfl hl), keeps_log_iff (sub_trans rfl hl), keeps_queues_iff (sub_trans rfl hl), keeps_encPics_iff (sub_trans rfl hl), keeps_encStreams_iff (sub_trans rfl hl)]
      | with_reducible refine keeps_foldl _ _ (fun _ _ hx => ?_) ?_
      | with_reducible apply_assumption

theorem keeps_encStart {L : Nat} {s₀ s : State} (e : Nat) (h : Keeps L s₀ s)
    (hl : 50748300 ||| L = L) : Keeps L s₀ (State.encStart s e) := by
  unfold State.encStart
  repeat' first
    | with_reducible exact h
    | exact sub_trans rfl hl
    | with_reducible assumption
    | with_reducible refine keeps_encStartLoop _ _ _ _ ?_ ?_
    | with_reducible refine keeps_dropLates _ _ _ ?_ ?_
    | with_reducible refine keeps_encShow _ ?_ ?_
    | dsimp only
    | with_reducible refine keeps_foldl _ _ (fun _ _ hx => ?_) ?_
    | with_reducible refine keeps_ite ?_ ?_

theorem keeps_encPreempt {L : Nat} {s₀ s : State} (e : Nat) (h : Keeps L s₀ s)
    (hl : 50748300 ||| L = L) : Keeps L s₀ (State.encPreempt s e) := by
  unfold State.encPreempt
  repeat' first
    | with_reducible exact h
    | exact sub_trans rfl hl
    | with_reducible assumption
    | with_reducible refine keeps_setEncPic _ ?_ ?_
    | with_reducible refine keeps_encStartLoop _ _ _ _ ?_ ?_
    | with_reducible refine keeps_encRaise _ _ ?_ ?_
    | with_reducible refine keeps_encShow _ ?_ ?_
    | dsimp only
    | with_reducible refine keeps_foldl _ _ (fun _ _ hx => ?_) ?_
    | with_reducible refine keeps_ite ?_ ?_
    | split

theorem keeps_encResume {L : Nat} {s₀ s : State} (e : Nat) (h : Keeps L s₀ s)
    (hl : 16777224 ||| L = L) : Keeps L s₀ (State.encResume s e) := by
  unfold State.encResume
  repeat' first
    | with_reducible exact h
    | exact sub_trans rfl hl
    | with_reducible assumption
    | with_reducible refine keeps_setEncPic _ ?_ ?_
    | with_reducible refine keeps_encShow _ ?_ ?_
    | dsimp only
    | with_reducible refine keeps_foldl _ _ (fun _ _ hx => ?_) ?_
    | with_reducible refine keeps_ite ?_ ?_
    | split

theorem keeps_emitSegment {L : Nat} {s₀ a10 : State} (u : Nat) (g : Nat) (k : Nat) (base : Nat) (m : Manifest) (capBits : Option Nat) (ovrBits : Option Nat) (a7 : Nat) (a8 : Nat) (a9 : List Byte) (h : Keeps L s₀ a10)
    (hl : 937864 ||| L = L) : Keeps L s₀ (State.emitSegment u g k base m capBits ovrBits a7 a8 a9 a10).1 := by
  fun_induction State.emitSegment u g k base m capBits ovrBits a7 a8 a9 a10
  all_goals repeat' first
      | with_reducible exact h
      | exact sub_trans rfl hl
      | with_reducible assumption
      | with_reducible refine keeps_emit _ _ _ _ ?_ ?_
      | simp only [keeps_regs_iff (sub_trans rfl hl)]
      | with_reducible refine keeps_foldl _ _ (fun _ _ hx => ?_) ?_
      | with_reducible apply_assumption

theorem keeps_emitSegment' {L : Nat} {s₀ s' : State} {u : Nat} {g : Nat} {k : Nat} {base : Nat} {m : Manifest} {capBits : Option Nat} {ovrBits : Option Nat} {a7 : Nat} {a8 : Nat} {a9 : List Byte} {a10 : State} {res} (he : State.emitSegment u g k base m capBits ovrBits a7 a8 a9 a10 = (s', res)) (h : Keeps L s₀ a10)
    (hl : 937864 ||| L = L) : Keeps L s₀ s' := by
  have := keeps_emitSegment u g k base m capBits ovrBits a7 a8 a9 h hl
  rwa [he] at this

theorem keeps_emitEsRows {L : Nat} {s₀ a7 : State} (u : Nat) (g : Nat) (k : Nat) (plane : Nat) (m : Manifest) (a5 : Nat) (a6 : List (Nat × List Byte)) (h : Keeps L s₀ a7)
    (hl : 937864 ||| L = L) : Keeps L s₀ (State.emitEsRows u g k plane m a5 a6 a7).1 := by
  fun_induction State.emitEsRows u g k plane m a5 a6 a7
  all_goals repeat' first
      | with_reducible exact h
      | exact sub_trans rfl hl
      | with_reducible assumption
      | with_reducible refine keeps_emit _ _ _ _ ?_ ?_
      | simp only [keeps_regs_iff (sub_trans rfl hl)]
      | with_reducible refine keeps_foldl _ _ (fun _ _ hx => ?_) ?_
      | with_reducible apply_assumption

theorem keeps_emitEsRows' {L : Nat} {s₀ s' : State} {u : Nat} {g : Nat} {k : Nat} {plane : Nat} {m : Manifest} {a5 : Nat} {a6 : List (Nat × List Byte)} {a7 : State} {res} (he : State.emitEsRows u g k plane m a5 a6 a7 = (s', res)) (h : Keeps L s₀ a7)
    (hl : 937864 ||| L = L) : Keeps L s₀ s' := by
  have := keeps_emitEsRows u g k plane m a5 a6 h hl
  rwa [he] at this

theorem keeps_emitExport {L : Nat} {s₀ s : State} (p : EncPic) (u : Nat) (k : Nat) (a4 : Nat) (flags : Nat) (cols : List Nat) (x : TileRun) (h : Keeps L s₀ s)
    (hl : 937868 ||| L = L) : Keeps L s₀ (State.emitExport s p u k a4 flags cols x).1 := by
  unfold State.emitExport
  repeat' first
    | with_reducible exact h
    | exact sub_trans rfl hl
    | with_reducible assumption
    | with_reducible refine keeps_emitEsRows _ _ _ _ _ _ _ ?_ ?_
    | (with_reducible refine keeps_emitEsRows' (by assumption) ?_ ?_)
    | simp only [keeps_fresh_iff (sub_trans rfl hl)]

theorem keeps_emitExport' {L : Nat} {s₀ s' : State} {s : State} {p : EncPic} {u : Nat} {k : Nat} {a4 : Nat} {flags : Nat} {cols : List Nat} {x : TileRun} {res} (he : State.emitExport s p u k a4 flags cols x = (s', res)) (h : Keeps L s₀ s)
    (hl : 937868 ||| L = L) : Keeps L s₀ s' := by
  have := keeps_emitExport p u k a4 flags cols x h hl
  rwa [he] at this

theorem keeps_encTileDone {L : Nat} {s₀ s : State} (p : EncPic) (t : EncTile) (h : Keeps L s₀ s)
    (hl : 17715084 ||| L = L) : Keeps L s₀ (State.encTileDone s p t).1 := by
  unfold State.encTileDone
  repeat' first
    | with_reducible exact h
    | exact sub_trans rfl hl
    | with_reducible assumption
    | with_reducible refine keeps_emitSegment _ _ _ _ _ _ _ _ _ _ ?_ ?_
    | (with_reducible refine keeps_emitSegment' (by assumption) ?_ ?_)
    | with_reducible refine keeps_freeBytes _ ?_ ?_
    | (with_reducible refine keeps_freeBytes' (by assumption) ?_ ?_)
    | with_reducible refine keeps_nextFree ?_ ?_
    | with_reducible refine keeps_emitExport _ _ _ _ _ _ _ ?_ ?_
    | (with_reducible refine keeps_emitExport' (by assumption) ?_ ?_)
    | with_reducible refine keeps_setEncPic _ ?_ ?_
    | simp only [keeps_fresh_iff (sub_trans rfl hl)]
    | with_reducible refine keeps_foldl _ _ (fun _ _ hx => ?_) ?_
    | with_reducible refine keeps_ite_fst ?_ ?_
    | split

theorem keeps_encTileDone' {L : Nat} {s₀ s' : State} {s : State} {p : EncPic} {t : EncTile} {res} (he : State.encTileDone s p t = (s', res)) (h : Keeps L s₀ s)
    (hl : 17715084 ||| L = L) : Keeps L s₀ s' := by
  have := keeps_encTileDone p t h hl
  rwa [he] at this

theorem keeps_releaseFor {L : Nat} {s₀ a1 : State} (a0 : List (Nat × Nat)) (h : Keeps L s₀ a1)
    (hl : 412552 ||| L = L) : Keeps L s₀ (State.releaseFor a0 a1) := by
  fun_induction State.releaseFor a0 a1
  all_goals repeat' first
      | with_reducible exact h
      | exact sub_trans rfl hl
      | with_reducible assumption
      | with_reducible refine keeps_release _ _ ?_ ?_
      | simp only [keeps_regs_iff (sub_trans rfl hl), keeps_evSet_iff (sub_trans rfl hl), keeps_evAdd_iff (sub_trans rfl hl), keeps_evPosted_iff (sub_trans rfl hl), keeps_fab_iff (sub_trans rfl hl), keeps_pilots_iff (sub_trans rfl hl), keeps_log_iff (sub_trans rfl hl), keeps_queues_iff (sub_trans rfl hl)]
      | with_reducible refine keeps_foldl _ _ (fun _ _ hx => ?_) ?_
      | with_reducible apply_assumption

theorem keeps_encEndWork {L : Nat} {s₀ a2 : State} (t : Nat) (a1 : List Nat) (h : Keeps L s₀ a2)
    (hl : 2048 ||| L = L) : Keeps L s₀ (State.encEndWork t a1 a2) := by
  fun_induction State.encEndWork t a1 a2
  all_goals repeat' first
      | with_reducible exact h
      | exact sub_trans rfl hl
      | with_reducible assumption
      | with_reducible refine keeps_endWork _ _ ?_ ?_
      | simp only [keeps_fab_iff (sub_trans rfl hl)]
      | with_reducible refine keeps_foldl _ _ (fun _ _ hx => ?_) ?_
      | with_reducible apply_assumption

theorem keeps_encShowAll {L : Nat} {s₀ a1 : State} (a0 : List Nat) (h : Keeps L s₀ a1)
    (hl : 8 ||| L = L) : Keeps L s₀ (State.encShowAll a0 a1) := by
  fun_induction State.encShowAll a0 a1
  all_goals repeat' first
      | with_reducible exact h
      | exact sub_trans rfl hl
      | with_reducible assumption
      | with_reducible refine keeps_encShow _ ?_ ?_
      | simp only [keeps_regs_iff (sub_trans rfl hl)]
      | with_reducible refine keeps_foldl _ _ (fun _ _ hx => ?_) ?_
      | with_reducible apply_assumption

theorem keeps_encLeave {L : Nat} {s₀ s : State} (p : EncPic) (flags : Nat) (h : Keeps L s₀ s)
    (hl : 17189768 ||| L = L) : Keeps L s₀ (State.encLeave s p flags) := by
  unfold State.encLeave
  repeat' first
    | with_reducible exact h
    | exact sub_trans rfl hl
    | with_reducible assumption
    | with_reducible refine keeps_berthRel _ _ _ _ ?_ ?_
    | with_reducible refine keeps_dropEncPic _ ?_ ?_
    | with_reducible refine keeps_encEndWork _ _ ?_ ?_
    | with_reducible refine keeps_releaseFor _ ?_ ?_
    | with_reducible refine keeps_encShowAll _ ?_ ?_
    | dsimp only
    | with_reducible refine keeps_foldl _ _ (fun _ _ hx => ?_) ?_
    | with_reducible refine keeps_ite ?_ ?_
    | split

theorem keeps_encPicEnd {L : Nat} {s₀ s : State} (p : EncPic) (h : Keeps L s₀ s)
    (hl : 51269516 ||| L = L) : Keeps L s₀ (State.encPicEnd s p) := by
  unfold State.encPicEnd
  repeat' first
    | with_reducible exact h
    | exact sub_trans rfl hl
    | with_reducible assumption
    | with_reducible refine keeps_writeBerth _ _ _ _ ?_ ?_
    | with_reducible refine keeps_freeBytes _ ?_ ?_
    | (with_reducible refine keeps_freeBytes' (by assumption) ?_ ?_)
    | with_reducible refine keeps_encLeave _ _ ?_ ?_
    | with_reducible refine keeps_setWord _ _ ?_ ?_
    | with_reducible refine keeps_nextFree ?_ ?_
    | with_reducible refine keeps_setBitsOf _ _ ?_ ?_
    | with_reducible refine keeps_unitEvent _ _ ?_ ?_
    | with_reducible refine keeps_emit _ _ _ _ ?_ ?_
    | with_reducible refine keeps_setFld _ _ ?_ ?_
    | with_reducible refine keeps_count _ _ ?_ ?_
    | with_reducible refine keeps_setEncStream _ _ _ ?_ ?_
    | dsimp only
    | with_reducible refine keeps_foldl _ _ (fun _ _ hx => ?_) ?_
    | with_reducible refine keeps_ite ?_ ?_
    | split

theorem keeps_encEnd {L : Nat} {s₀ s : State} (e : Nat) (h : Keeps L s₀ s)
    (hl : 51269516 ||| L = L) : Keeps L s₀ (State.encEnd s e) := by
  unfold State.encEnd
  repeat' first
    | with_reducible exact h
    | exact sub_trans rfl hl
    | with_reducible assumption
    | with_reducible refine keeps_encPicEnd _ ?_ ?_
    | with_reducible refine keeps_encShow _ ?_ ?_
    | with_reducible refine keeps_encTileDone _ _ ?_ ?_
    | (with_reducible refine keeps_encTileDone' (by assumption) ?_ ?_)
    | dsimp only
    | with_reducible refine keeps_foldl _ _ (fun _ _ hx => ?_) ?_
    | with_reducible refine keeps_ite ?_ ?_
    | split

theorem keeps_encOverrun {L : Nat} {s₀ s : State} (e : Nat) (t : Nat) (h : Keeps L s₀ s)
    (hl : 16777356 ||| L = L) : Keeps L s₀ (State.encOverrun s e t) := by
  unfold State.encOverrun
  repeat' first
    | with_reducible exact h
    | exact sub_trans rfl hl
    | with_reducible assumption
    | with_reducible refine keeps_setBitsOf _ _ ?_ ?_
    | with_reducible refine keeps_setEncPic _ ?_ ?_
    | with_reducible refine keeps_encShow _ ?_ ?_
    | with_reducible refine keeps_nextFree ?_ ?_
    | dsimp only
    | with_reducible refine keeps_foldl _ _ (fun _ _ hx => ?_) ?_
    | with_reducible refine keeps_ite ?_ ?_
    | split

theorem keeps_encAbandonPic {L : Nat} {s₀ s : State} (p : EncPic) (h : Keeps L s₀ s)
    (hl : 50744200 ||| L = L) : Keeps L s₀ (State.encAbandonPic s p) := by
  unfold State.encAbandonPic
  repeat' first
    | with_reducible exact h
    | exact sub_trans rfl hl
    | with_reducible assumption
    | with_reducible refine keeps_setEncStream _ _ _ ?_ ?_
    | with_reducible refine keeps_encLeave _ _ ?_ ?_

theorem keeps_encAbandonPics {L : Nat} {s₀ a2 : State} (e : Nat) (a1 : List EncPic) (h : Keeps L s₀ a2)
    (hl : 50744200 ||| L = L) : Keeps L s₀ (State.encAbandonPics e a1 a2) := by
  fun_induction State.encAbandonPics e a1 a2
  all_goals repeat' first
      | with_reducible exact h
      | exact sub_trans rfl hl
      | with_reducible assumption
      | with_reducible refine keeps_countAbandon _ ?_ ?_
      | with_reducible refine keeps_encAbandonPic _ ?_ ?_
      | simp only [keeps_regs_iff (sub_trans rfl hl), keeps_evSet_iff (sub_trans rfl hl), keeps_evAdd_iff (sub_trans rfl hl), keeps_evPosted_iff (sub_trans rfl hl), keeps_fab_iff (sub_trans rfl hl), keeps_pilots_iff (sub_trans rfl hl), keeps_log_iff (sub_trans rfl hl), keeps_queues_iff (sub_trans rfl hl), keeps_encPics_iff (sub_trans rfl hl), keeps_encStreams_iff (sub_trans rfl hl)]
      | with_reducible refine keeps_foldl _ _ (fun _ _ hx => ?_) ?_
      | with_reducible apply_assumption

theorem keeps_encOp {L : Nat} {s₀ s : State} (e : Nat) (op : Nat) (h : Keeps L s₀ s)
    (hl : 50744200 ||| L = L) : Keeps L s₀ (State.encOp s e op) := by
  unfold State.encOp
  repeat' first
    | with_reducible exact h
    | exact sub_trans rfl hl
    | with_reducible assumption
    | with_reducible refine keeps_encAbandonPics _ _ ?_ ?_
    | with_reducible refine keeps_setFld _ _ ?_ ?_
    | dsimp only
    | with_reducible refine keeps_foldl _ _ (fun _ _ hx => ?_) ?_
    | with_reducible refine keeps_ite ?_ ?_

theorem keeps_encEnabled {L : Nat} {s₀ a2 : State} (old : State) (a1 : List (Nat × Nat)) (h : Keeps L s₀ a2)
    (hl : 33554432 ||| L = L) : Keeps L s₀ (State.encEnabled old a1 a2) := by
  fun_induction State.encEnabled old a1 a2
  all_goals repeat' first
      | with_reducible exact h
      | exact sub_trans rfl hl
      | with_reducible assumption
      | with_reducible refine keeps_setEncStream _ _ _ ?_ ?_
      | dsimp only
      | with_reducible refine keeps_foldl _ _ (fun _ _ hx => ?_) ?_
      | with_reducible apply_assumption
      | with_reducible refine keeps_ite ?_ ?_

theorem keeps_setPipe {L : Nat} {s₀ s : State} (i : Nat) (x : Pipe) (h : Keeps L s₀ s)
    (hl : 8388608 ||| L = L) : Keeps L s₀ (State.setPipe s i x) := by
  unfold State.setPipe
  repeat' first
    | with_reducible exact h
    | exact sub_trans rfl hl
    | with_reducible assumption
    | simp only [keeps_pipes_iff (sub_trans rfl hl)]

theorem keeps_pipeRaise {L : Nat} {s₀ s : State} (i : Nat) (m : Nat) (h : Keeps L s₀ s)
    (hl : 17288 ||| L = L) : Keeps L s₀ (State.pipeRaise s i m) := by
  unfold State.pipeRaise
  repeat' first
    | with_reducible exact h
    | exact sub_trans rfl hl
    | with_reducible assumption
    | with_reducible refine keeps_raise _ _ _ _ _ ?_ ?_

theorem keeps_pipeBeRaise {L : Nat} {s₀ s : State} (i : Nat) (m : Nat) (h : Keeps L s₀ s)
    (hl : 17288 ||| L = L) : Keeps L s₀ (State.pipeBeRaise s i m) := by
  unfold State.pipeBeRaise
  repeat' first
    | with_reducible exact h
    | exact sub_trans rfl hl
    | with_reducible assumption
    | with_reducible refine keeps_raise _ _ _ _ _ ?_ ?_

theorem keeps_statRaise {L : Nat} {s₀ s : State} (i : Nat) (m : Nat) (h : Keeps L s₀ s)
    (hl : 17288 ||| L = L) : Keeps L s₀ (State.statRaise s i m) := by
  unfold State.statRaise
  repeat' first
    | with_reducible exact h
    | exact sub_trans rfl hl
    | with_reducible assumption
    | with_reducible refine keeps_raise _ _ _ _ _ ?_ ?_

theorem keeps_pipeOutPush {L : Nat} {s₀ s : State} (i : Nat) (o : Nat) (a3 : Nat) (h : Keeps L s₀ s)
    (hl : 279432 ||| L = L) : Keeps L s₀ (State.pipeOutPush s i o a3) := by
  unfold State.pipeOutPush
  repeat' first
    | with_reducible exact h
    | exact sub_trans rfl hl
    | with_reducible assumption
    | with_reducible refine keeps_count _ _ ?_ ?_
    | with_reducible refine keeps_pushQ _ _ _ ?_ ?_
    | (with_reducible refine keeps_pushQ' (by assumption) ?_ ?_)
    | with_reducible refine keeps_pipeBeRaise _ _ ?_ ?_
    | dsimp only
    | with_reducible refine keeps_foldl _ _ (fun _ _ hx => ?_) ?_
    | with_reducible refine keeps_ite ?_ ?_

theorem keeps_pipeRawPush {L : Nat} {s₀ s : State} (i : Nat) (a2 : Nat) (h : Keeps L s₀ s)
    (hl : 279432 ||| L = L) : Keeps L s₀ (State.pipeRawPush s i a2) := by
  unfold State.pipeRawPush
  repeat' first
    | with_reducible exact h
    | exact sub_trans rfl hl
    | with_reducible assumption
    | with_reducible refine keeps_count _ _ ?_ ?_
    | with_reducible refine keeps_pushQ _ _ _ ?_ ?_
    | (with_reducible refine keeps_pushQ' (by assumption) ?_ ?_)
    | with_reducible refine keeps_pipeBeRaise _ _ ?_ ?_
    | dsimp only
    | with_reducible refine keeps_foldl _ _ (fun _ _ hx => ?_) ?_
    | with_reducible refine keeps_ite ?_ ?_

theorem keeps_statPush {L : Nat} {s₀ s : State} (i : Nat) (a2 : Nat) (h : Keeps L s₀ s)
    (hl : 279432 ||| L = L) : Keeps L s₀ (State.statPush s i a2) := by
  unfold State.statPush
  repeat' first
    | with_reducible exact h
    | exact sub_trans rfl hl
    | with_reducible assumption
    | with_reducible refine keeps_statRaise _ _ ?_ ?_
    | with_reducible refine keeps_count _ _ ?_ ?_
    | with_reducible refine keeps_pushQ _ _ _ ?_ ?_
    | (with_reducible refine keeps_pushQ' (by assumption) ?_ ?_)
    | dsimp only
    | with_reducible refine keeps_foldl _ _ (fun _ _ hx => ?_) ?_
    | with_reducible refine keeps_ite ?_ ?_

theorem keeps_popDue {L : Nat} {s₀ s : State} (i : Nat) (k : Nat) (h : Keeps L s₀ s)
    (hl : 262144 ||| L = L) : Keeps L s₀ (State.popDue s i k).1 := by
  unfold State.popDue
  repeat' first
    | with_reducible exact h
    | exact sub_trans rfl hl
    | with_reducible assumption
    | with_reducible refine keeps_setQueue _ _ ?_ ?_
    | simp only [keeps_queues_iff (sub_trans rfl hl)]
    | with_reducible refine keeps_foldl _ _ (fun _ _ hx => ?_) ?_
    | with_reducible refine keeps_ite_fst ?_ ?_
    | split

theorem keeps_popDue' {L : Nat} {s₀ s' : State} {s : State} {i : Nat} {k : Nat} {res} (he : State.popDue s i k = (s', res)) (h : Keeps L s₀ s)
    (hl : 262144 ||| L = L) : Keeps L s₀ s' := by
  have := keeps_popDue i k h hl
  rwa [he] at this

theorem keeps_statSkip {L : Nat} {s₀ s : State} (i : Nat) (man : Manifest) (h : Keeps L s₀ s)
    (hl : 937864 ||| L = L) : Keeps L s₀ (State.statSkip s i man) := by
  unfold State.statSkip
  repeat' first
    | with_reducible exact h
    | exact sub_trans rfl hl
    | with_reducible assumption
    | with_reducible refine keeps_acquire _ _ ?_ ?_
    | (with_reducible refine keeps_acquire' (by assumption) ?_ ?_)
    | with_reducible refine keeps_statRaise _ _ ?_ ?_
    | with_reducible refine keeps_releasePost _ _ _ ?_ ?_
    | with_reducible refine keeps_emit _ _ _ _ ?_ ?_
    | with_reducible refine keeps_count _ _ ?_ ?_
    | with_reducible refine keeps_popQ _ ?_ ?_
    | (with_reducible refine keeps_popQ' (by assumption) ?_ ?_)
    | dsimp only
    | with_reducible refine keeps_foldl _ _ (fun _ _ hx => ?_) ?_
    | with_reducible refine keeps_ite ?_ ?_
    | split

theorem keeps_pipeSkip {L : Nat} {s₀ s : State} (i : Nat) (k : Nat) (h : Keeps L s₀ s)
    (hl : 9326472 ||| L = L) : Keeps L s₀ (State.pipeSkip s i k) := by
  unfold State.pipeSkip
  repeat' first
    | with_reducible exact h
    | exact sub_trans rfl hl
    | with_reducible assumption
    | with_reducible refine keeps_berthRel _ _ _ _ ?_ ?_
    | with_reducible refine keeps_count _ _ ?_ ?_
    | with_reducible refine keeps_setPipe _ _ ?_ ?_
    | with_reducible refine keeps_statSkip _ _ ?_ ?_
    | with_reducible refine keeps_pipeRaise _ _ ?_ ?_
    | with_reducible refine keeps_popDue _ _ ?_ ?_
    | (with_reducible refine keeps_popDue' (by assumption) ?_ ?_)
    | dsimp only
    | with_reducible refine keeps_foldl _ _ (fun _ _ hx => ?_) ?_
    | with_reducible refine keeps_ite ?_ ?_
    | split

theorem keeps_startOutputs {L : Nat} {s₀ a5 : State} (i : Nat) (e : Nat) (cols : Nat) (rows : Nat) (a4 : List Nat) (a6 : List (Nat × Nat) × List Nat × Nat) (h : Keeps L s₀ a5)
    (hl : 412552 ||| L = L) : Keeps L s₀ (State.startOutputs i e cols rows a4 a5 a6).1 := by
  fun_induction State.startOutputs i e cols rows a4 a5 a6
  all_goals repeat' first
      | with_reducible exact h
      | exact sub_trans rfl hl
      | with_reducible assumption
      | with_reducible refine keeps_setBitsOf _ _ ?_ ?_
      | with_reducible refine keeps_count _ _ ?_ ?_
      | with_reducible refine keeps_acquireAll _ _ ?_ ?_
      | (with_reducible refine keeps_acquireAll' (by assumption) ?_ ?_)
      | with_reducible refine keeps_popQ _ ?_ ?_
      | (with_reducible refine keeps_popQ' (by assumption) ?_ ?_)
      | simp only [keeps_regs_iff (sub_trans rfl hl)]
      | with_reducible refine keeps_foldl _ _ (fun _ _ hx => ?_) ?_
      | with_reducible apply_assumption

theorem keeps_startOutputs' {L : Nat} {s₀ s' : State} {i : Nat} {e : Nat} {cols : Nat} {rows : Nat} {a4 : List Nat} {a5 : State} {a6 : List (Nat × Nat) × List Nat × Nat} {res} (he : State.startOutputs i e cols rows a4 a5 a6 = (s', res)) (h : Keeps L s₀ a5)
    (hl : 412552 ||| L = L) : Keeps L s₀ s' := by
  have := keeps_startOutputs i e cols rows a4 a6 h hl
  rwa [he] at this

theorem keeps_startRawPath {L : Nat} {s₀ s : State} (i : Nat) (e : Nat) (acc : List (Nat × Nat) × List Nat × Nat) (h : Keeps L s₀ s)
    (hl : 412552 ||| L = L) : Keeps L s₀ (State.startRawPath s i e acc).1 := by
  unfold State.startRawPath
  repeat' first
    | with_reducible exact h
    | exact sub_trans rfl hl
    | with_reducible assumption
    | with_reducible refine keeps_setBitsOf _ _ ?_ ?_
    | with_reducible refine keeps_count _ _ ?_ ?_
    | with_reducible refine keeps_acquireAll _ _ ?_ ?_
    | (with_reducible refine keeps_acquireAll' (by assumption) ?_ ?_)
    | with_reducible refine keeps_popQ _ ?_ ?_
    | (with_reducible refine keeps_popQ' (by assumption) ?_ ?_)
    | simp only [keeps_regs_iff (sub_trans rfl hl)]
    | with_reducible refine keeps_foldl _ _ (fun _ _ hx => ?_) ?_
    | with_reducible refine keeps_ite_fst ?_ ?_
    | split

theorem keeps_startRawPath' {L : Nat} {s₀ s' : State} {s : State} {i : Nat} {e : Nat} {acc : List (Nat × Nat) × List Nat × Nat} {res} (he : State.startRawPath s i e acc = (s', res)) (h : Keeps L s₀ s)
    (hl : 412552 ||| L = L) : Keeps L s₀ s' := by
  have := keeps_startRawPath i e acc h hl
  rwa [he] at this

theorem keeps_startStat {L : Nat} {s₀ s : State} (i : Nat) (e : Nat) (h : Keeps L s₀ s)
    (hl : 412552 ||| L = L) : Keeps L s₀ (State.startStat s i e).1 := by
  unfold State.startStat
  repeat' first
    | with_reducible exact h
    | exact sub_trans rfl hl
    | with_reducible assumption
    | with_reducible refine keeps_statRaise _ _ ?_ ?_
    | with_reducible refine keeps_count _ _ ?_ ?_
    | with_reducible refine keeps_acquireAll _ _ ?_ ?_
    | (with_reducible refine keeps_acquireAll' (by assumption) ?_ ?_)
    | with_reducible refine keeps_popQ _ ?_ ?_
    | (with_reducible refine keeps_popQ' (by assumption) ?_ ?_)
    | simp only [keeps_regs_iff (sub_trans rfl hl)]
    | with_reducible refine keeps_foldl _ _ (fun _ _ hx => ?_) ?_
    | with_reducible refine keeps_ite_fst ?_ ?_
    | split

theorem keeps_startStat' {L : Nat} {s₀ s' : State} {s : State} {i : Nat} {e : Nat} {res} (he : State.startStat s i e = (s', res)) (h : Keeps L s₀ s)
    (hl : 412552 ||| L = L) : Keeps L s₀ s' := by
  have := keeps_startStat i e h hl
  rwa [he] at this

theorem keeps_pipeStart {L : Nat} {s₀ s : State} (i : Nat) (k : Nat) (h : Keeps L s₀ s)
    (hl : 8805256 ||| L = L) : Keeps L s₀ (State.pipeStart s i k) := by
  unfold State.pipeStart
  repeat' first
    | with_reducible exact h
    | exact sub_trans rfl hl
    | with_reducible assumption
    | with_reducible refine keeps_acquireAll _ _ ?_ ?_
    | (with_reducible refine keeps_acquireAll' (by assumption) ?_ ?_)
    | with_reducible refine keeps_setFld _ _ ?_ ?_
    | with_reducible refine keeps_setPipe _ _ ?_ ?_
    | with_reducible refine keeps_touchBank _ _ ?_ ?_
    | with_reducible refine keeps_startStat _ _ ?_ ?_
    | (with_reducible refine keeps_startStat' (by assumption) ?_ ?_)
    | with_reducible refine keeps_beginWork _ _ _ _ ?_ ?_
    | with_reducible refine keeps_startRawPath _ _ _ ?_ ?_
    | (with_reducible refine keeps_startRawPath' (by assumption) ?_ ?_)
    | with_reducible refine keeps_startOutputs _ _ _ _ _ _ ?_ ?_
    | (with_reducible refine keeps_startOutputs' (by assumption) ?_ ?_)
    | with_reducible refine keeps_popDue _ _ ?_ ?_
    | (with_reducible refine keeps_popDue' (by assumption) ?_ ?_)
    | dsimp only
    | with_reducible refine keeps_foldl _ _ (fun _ _ hx => ?_) ?_
    | with_reducible refine keeps_ite ?_ ?_
    | split

theorem keeps_pipeTide {L : Nat} {s₀ s : State} (i : Nat) (k : Nat) (h : Keeps L s₀ s)
    (hl : 9330568 ||| L = L) : Keeps L s₀ (State.pipeTide s i k) := by
  unfold State.pipeTide
  repeat' first
    | with_reducible exact h
    | exact sub_trans rfl hl
    | with_reducible assumption
    | with_reducible refine keeps_pipeStart _ _ ?_ ?_
    | with_reducible refine keeps_pipeSkip _ _ ?_ ?_
    | dsimp only
    | with_reducible refine keeps_foldl _ _ (fun _ _ hx => ?_) ?_
    | with_reducible refine keeps_ite ?_ ?_

theorem keeps_readPart {L : Nat} {s₀ s : State} (u : Nat) (a2 : Nat) (n : Nat) (h : Keeps L s₀ s)
    (hl : 148360 ||| L = L) : Keeps L s₀ (State.readPart s u a2 n).1 := by
  unfold State.readPart
  repeat' first
    | with_reducible exact h
    | exact sub_trans rfl hl
    | with_reducible assumption
    | with_reducible refine keeps_berthFault _ _ _ ?_ ?_
    | simp only [keeps_regs_iff (sub_trans rfl hl)]
    | with_reducible refine keeps_foldl _ _ (fun _ _ hx => ?_) ?_
    | with_reducible refine keeps_ite_fst ?_ ?_
    | split

theorem keeps_readPart' {L : Nat} {s₀ s' : State} {s : State} {u : Nat} {a2 : Nat} {n : Nat} {res} (he : State.readPart s u a2 n = (s', res)) (h : Keeps L s₀ s)
    (hl : 148360 ||| L = L) : Keeps L s₀ s' := by
  have := keeps_readPart u a2 n h hl
  rwa [he] at this

theorem keeps_readTable {L : Nat} {s₀ s : State} (u : Nat) (a2 : Nat) (n : Nat) (h : Keeps L s₀ s)
    (hl : 148360 ||| L = L) : Keeps L s₀ (State.readTable s u a2 n).1 := by
  unfold State.readTable
  repeat' first
    | with_reducible exact h
    | exact sub_trans rfl hl
    | with_reducible assumption
    | with_reducible refine keeps_readPart _ _ _ ?_ ?_
    | (with_reducible refine keeps_readPart' (by assumption) ?_ ?_)
    | simp only [keeps_regs_iff (sub_trans rfl hl)]
    | with_reducible refine keeps_foldl _ _ (fun _ _ hx => ?_) ?_
    | with_reducible refine keeps_ite_fst ?_ ?_

theorem keeps_readTable' {L : Nat} {s₀ s' : State} {s : State} {u : Nat} {a2 : Nat} {n : Nat} {res} (he : State.readTable s u a2 n = (s', res)) (h : Keeps L s₀ s)
    (hl : 148360 ||| L = L) : Keeps L s₀ s' := by
  have := keeps_readTable u a2 n h hl
  rwa [he] at this

theorem keeps_emitChunks {L : Nat} {s₀ a8 : State} (u : Nat) (m : Manifest) (stride : Nat) (base : Nat) (n : Nat) (a5 : Nat) (a6 : Nat) (a7 : List (List Byte)) (h : Keeps L s₀ a8)
    (hl : 937864 ||| L = L) : Keeps L s₀ (State.emitChunks u m stride base n a5 a6 a7 a8) := by
  fun_induction State.emitChunks u m stride base n a5 a6 a7 a8
  all_goals repeat' first
      | with_reducible exact h
      | exact sub_trans rfl hl
      | with_reducible assumption
      | with_reducible refine keeps_emit _ _ _ _ ?_ ?_
      | simp only [keeps_regs_iff (sub_trans rfl hl), keeps_evSet_iff (sub_trans rfl hl), keeps_evAdd_iff (sub_trans rfl hl), keeps_evPosted_iff (sub_trans rfl hl), keeps_fab_iff (sub_trans rfl hl), keeps_pilots_iff (sub_trans rfl hl), keeps_log_iff (sub_trans rfl hl), keeps_queues_iff (sub_trans rfl hl), keeps_leaves_iff (sub_trans rfl hl)]
      | with_reducible refine keeps_foldl _ _ (fun _ _ hx => ?_) ?_
      | with_reducible apply_assumption

theorem keeps_emitPlanes {L : Nat} {s₀ a5 : State} (u : Nat) (m : Manifest) (pr : Nat) (a3 : List (Nat × List (List Byte))) (a4 : Nat) (h : Keeps L s₀ a5)
    (hl : 937864 ||| L = L) : Keeps L s₀ (State.emitPlanes u m pr a3 a4 a5).1 := by
  fun_induction State.emitPlanes u m pr a3 a4 a5
  all_goals repeat' first
      | with_reducible exact h
      | exact sub_trans rfl hl
      | with_reducible assumption
      | with_reducible refine keeps_emitChunks _ _ _ _ _ _ _ _ ?_ ?_
      | simp only [keeps_regs_iff (sub_trans rfl hl)]
      | with_reducible refine keeps_foldl _ _ (fun _ _ hx => ?_) ?_
      | with_reducible apply_assumption

theorem keeps_emitPlanes' {L : Nat} {s₀ s' : State} {u : Nat} {m : Manifest} {pr : Nat} {a3 : List (Nat × List (List Byte))} {a4 : Nat} {a5 : State} {res} (he : State.emitPlanes u m pr a3 a4 a5 = (s', res)) (h : Keeps L s₀ a5)
    (hl : 937864 ||| L = L) : Keeps L s₀ s' := by
  have := keeps_emitPlanes u m pr a3 a4 h hl
  rwa [he] at this

theorem keeps_writeOutputs {L : Nat} {s₀ : State} (i e fflags : Nat) (man : Manifest) (fo : FrontOut) :
    ∀ (a : List (Nat × Nat)) {s : State} (n : Nat) (acc : List (Nat × BranchOut)) (_ : Keeps L s₀ s)
    (_ : 937864 ||| L = L), Keeps L s₀ (State.writeOutputs i e fflags man fo a s n acc).1
  | [], _, _, _, h, _ => h
  | (o, x) :: xs, s, n, acc, h, hl => by
    rw [State.writeOutputs]
    split
    · extract_lets cols m
      clear_value cols m
      split
      rename_i s1 b e1
      exact keeps_writeOutputs i e fflags man fo xs _ _ (keeps_emitPlanes' e1 h hl) hl
    · extract_lets c hs
      clear_value c hs
      split
      rename_i s1 sc e1
      split
      rename_i s2 tn e2
      split
      rename_i s3 lt e3
      have h3 := keeps_readTable' e3 (keeps_readTable' e2 (keeps_readTable' e1 h (sub_trans rfl hl)) (sub_trans rfl hl)) (sub_trans rfl hl)
      clear e1 e2 e3
      extract_lets img m
      clear_value img m
      split
      rename_i s4 b e4
      have h4 := keeps_emitPlanes' e4 h3 hl
      extract_lets s5
      refine keeps_writeOutputs i e fflags man fo xs _ _ ?_ hl
      unfold s5
      split
      · exact keeps_setPicSize _ _ _ h4 (sub_trans rfl hl)
      · exact h4

theorem keeps_writeOutputs' {L : Nat} {s₀ s' : State} {i : Nat} {e : Nat} {fflags : Nat} {man : Manifest} {fo : FrontOut} {a5 : List (Nat × Nat)} {a6 : State} {a7 : Nat} {a8 : List (Nat × BranchOut)} {res} (he : State.writeOutputs i e fflags man fo a5 a6 a7 a8 = (s', res)) (h : Keeps L s₀ a6)
    (hl : 937864 ||| L = L) : Keeps L s₀ s' := by
  have := keeps_writeOutputs i e fflags man fo a5 a7 a8 h hl
  rwa [he] at this

theorem keeps_emitStats {L : Nat} {s₀ a4 : State} (u : Nat) (m : Manifest) (a2 : Nat) (a3 : List (Nat × Nat × Nat × List Byte)) (h : Keeps L s₀ a4)
    (hl : 937864 ||| L = L) : Keeps L s₀ (State.emitStats u m a2 a3 a4) := by
  fun_induction State.emitStats u m a2 a3 a4
  all_goals repeat' first
      | with_reducible exact h
      | exact sub_trans rfl hl
      | with_reducible assumption
      | with_reducible refine keeps_emit _ _ _ _ ?_ ?_
      | simp only [keeps_regs_iff (sub_trans rfl hl), keeps_evSet_iff (sub_trans rfl hl), keeps_evAdd_iff (sub_trans rfl hl), keeps_evPosted_iff (sub_trans rfl hl), keeps_fab_iff (sub_trans rfl hl), keeps_pilots_iff (sub_trans rfl hl), keeps_log_iff (sub_trans rfl hl), keeps_queues_iff (sub_trans rfl hl), keeps_leaves_iff (sub_trans rfl hl)]
      | with_reducible refine keeps_foldl _ _ (fun _ _ hx => ?_) ?_
      | with_reducible apply_assumption

theorem keeps_statEnd {L : Nat} {s₀ s : State} (i : Nat) (f : PipeFrame) (fflags : Nat) (fc : FrontCfg) (fo : FrontOut) (valid : Nat → Nat → Bool) (outs : List (Nat × BranchOut)) (h : Keeps L s₀ s)
    (hl : 937864 ||| L = L) : Keeps L s₀ (State.statEnd s i f fflags fc fo valid outs) := by
  unfold State.statEnd
  repeat' first
    | with_reducible exact h
    | exact sub_trans rfl hl
    | with_reducible assumption
    | with_reducible refine keeps_post _ _ _ _ ?_ ?_
    | with_reducible refine keeps_statRaise _ _ ?_ ?_
    | with_reducible refine keeps_emitStats _ _ _ _ ?_ ?_
    | with_reducible refine keeps_setFld _ _ ?_ ?_
    | with_reducible refine keeps_readTable _ _ _ ?_ ?_
    | (with_reducible refine keeps_readTable' (by assumption) ?_ ?_)
    | dsimp only
    | with_reducible refine keeps_foldl _ _ (fun _ _ hx => ?_) ?_
    | with_reducible refine keeps_ite ?_ ?_
    | split

theorem keeps_relPosts {L : Nat} {s₀ a2 : State} (u : Nat) (a1 : List (Nat × Manifest)) (h : Keeps L s₀ a2)
    (hl : 16648 ||| L = L) : Keeps L s₀ (State.relPosts u a1 a2) := by
  fun_induction State.relPosts u a1 a2
  all_goals repeat' first
      | with_reducible exact h
      | exact sub_trans rfl hl
      | with_reducible assumption
      | with_reducible refine keeps_berthRel _ _ _ _ ?_ ?_
      | simp only [keeps_regs_iff (sub_trans rfl hl), keeps_evAdd_iff (sub_trans rfl hl), keeps_pilots_iff (sub_trans rfl hl)]
      | with_reducible refine keeps_foldl _ _ (fun _ _ hx => ?_) ?_
      | with_reducible apply_assumption

theorem keeps_pipeRelease {L : Nat} {s₀ s : State} (i : Nat) (f : PipeFrame) (flags : Nat) (h : Keeps L s₀ s)
    (hl : 8801160 ||| L = L) : Keeps L s₀ (State.pipeRelease s i f flags) := by
  unfold State.pipeRelease
  repeat' first
    | with_reducible exact h
    | exact sub_trans rfl hl
    | with_reducible assumption
    | with_reducible refine keeps_berthRel _ _ _ _ ?_ ?_
    | with_reducible refine keeps_setPipe _ _ ?_ ?_
    | with_reducible refine keeps_releaseAll _ _ ?_ ?_
    | with_reducible refine keeps_relPosts _ _ ?_ ?_
    | with_reducible refine keeps_endWork _ _ ?_ ?_
    | with_reducible refine keeps_setFld _ _ ?_ ?_

theorem keeps_pipeFrameEnd {L : Nat} {s₀ s : State} (i : Nat) (h : Keeps L s₀ s)
    (hl : 9326472 ||| L = L) : Keeps L s₀ (State.pipeFrameEnd s i) := by
  unfold State.pipeFrameEnd
  repeat' first
    | with_reducible exact h
    | exact sub_trans rfl hl
    | with_reducible assumption
    | with_reducible refine keeps_setBitsOf _ _ ?_ ?_
    | with_reducible refine keeps_unitEvent _ _ ?_ ?_
    | with_reducible refine keeps_setFld _ _ ?_ ?_
    | with_reducible refine keeps_pipeRelease _ _ _ ?_ ?_
    | with_reducible refine keeps_readPart _ _ _ ?_ ?_
    | (with_reducible refine keeps_readPart' (by assumption) ?_ ?_)
    | with_reducible refine keeps_readTable _ _ _ ?_ ?_
    | (with_reducible refine keeps_readTable' (by assumption) ?_ ?_)
    | with_reducible refine keeps_writeOutputs _ _ _ _ _ _ _ _ ?_ ?_
    | (with_reducible refine keeps_writeOutputs' (by assumption) ?_ ?_)
    | with_reducible refine keeps_statEnd _ _ _ _ _ _ _ ?_ ?_
    | with_reducible refine keeps_pipeRaise _ _ ?_ ?_
    | dsimp only
    | with_reducible refine keeps_foldl _ _ (fun _ _ hx => ?_) ?_
    | with_reducible refine keeps_ite ?_ ?_
    | split

theorem keeps_pipeAbandon {L : Nat} {s₀ s : State} (i : Nat) (h : Keeps L s₀ s)
    (hl : 8801160 ||| L = L) : Keeps L s₀ (State.pipeAbandon s i) := by
  unfold State.pipeAbandon
  repeat' first
    | with_reducible exact h
    | exact sub_trans rfl hl
    | with_reducible assumption
    | with_reducible refine keeps_countAbandon _ ?_ ?_
    | with_reducible refine keeps_pipeRelease _ _ _ ?_ ?_
    | dsimp only
    | with_reducible refine keeps_foldl _ _ (fun _ _ hx => ?_) ?_
    | with_reducible refine keeps_ite ?_ ?_
    | split

theorem keeps_pipeOp {L : Nat} {s₀ s : State} (i : Nat) (op : Nat) (h : Keeps L s₀ s)
    (hl : 8801160 ||| L = L) : Keeps L s₀ (State.pipeOp s i op) := by
  unfold State.pipeOp
  repeat' first
    | with_reducible exact h
    | exact sub_trans rfl hl
    | with_reducible assumption
    | with_reducible refine keeps_setPipe _ _ ?_ ?_
    | with_reducible refine keeps_setQueue _ _ ?_ ?_
    | with_reducible refine keeps_setFld _ _ ?_ ?_
    | with_reducible refine keeps_pipeAbandon _ ?_ ?_
    | dsimp only
    | with_reducible refine keeps_foldl _ _ (fun _ _ hx => ?_) ?_
    | with_reducible refine keeps_ite ?_ ?_

theorem keeps_setDec {L : Nat} {s₀ s : State} (d : Nat) (x : Dec) (h : Keeps L s₀ s)
    (hl : 67108864 ||| L = L) : Keeps L s₀ (State.setDec s d x) := by
  unfold State.setDec
  repeat' first
    | with_reducible exact h
    | exact sub_trans rfl hl
    | with_reducible assumption
    | simp only [keeps_decs_iff (sub_trans rfl hl)]

theorem keeps_decRaise {L : Nat} {s₀ s : State} (d : Nat) (m : Nat) (h : Keeps L s₀ s)
    (hl : 17288 ||| L = L) : Keeps L s₀ (State.decRaise s d m) := by
  unfold State.decRaise
  repeat' first
    | with_reducible exact h
    | exact sub_trans rfl hl
    | with_reducible assumption
    | with_reducible refine keeps_raise _ _ _ _ _ ?_ ?_

theorem keeps_decInPush {L : Nat} {s₀ s : State} (d : Nat) (a2 : Nat) (h : Keeps L s₀ s)
    (hl : 262408 ||| L = L) : Keeps L s₀ (State.decInPush s d a2) := by
  unfold State.decInPush
  repeat' first
    | with_reducible exact h
    | exact sub_trans rfl hl
    | with_reducible assumption
    | with_reducible refine keeps_count _ _ ?_ ?_
    | with_reducible refine keeps_pushQ _ _ _ ?_ ?_
    | (with_reducible refine keeps_pushQ' (by assumption) ?_ ?_)
    | dsimp only
    | with_reducible refine keeps_foldl _ _ (fun _ _ hx => ?_) ?_
    | with_reducible refine keeps_ite ?_ ?_

theorem keeps_decOutPush {L : Nat} {s₀ s : State} (d : Nat) (a2 : Nat) (h : Keeps L s₀ s)
    (hl : 262408 ||| L = L) : Keeps L s₀ (State.decOutPush s d a2) := by
  unfold State.decOutPush
  repeat' first
    | with_reducible exact h
    | exact sub_trans rfl hl
    | with_reducible assumption
    | with_reducible refine keeps_count _ _ ?_ ?_
    | with_reducible refine keeps_pushQ _ _ _ ?_ ?_
    | (with_reducible refine keeps_pushQ' (by assumption) ?_ ?_)
    | dsimp only
    | with_reducible refine keeps_foldl _ _ (fun _ _ hx => ?_) ?_
    | with_reducible refine keeps_ite ?_ ?_

theorem keeps_decDpbPush {L : Nat} {s₀ s : State} (d : Nat) (a2 : Nat) (h : Keeps L s₀ s)
    (hl : 67259272 ||| L = L) : Keeps L s₀ (State.decDpbPush s d a2) := by
  unfold State.decDpbPush
  repeat' first
    | with_reducible exact h
    | exact sub_trans rfl hl
    | with_reducible assumption
    | with_reducible refine keeps_setDec _ _ ?_ ?_
    | with_reducible refine keeps_acquire _ _ ?_ ?_
    | (with_reducible refine keeps_acquire' (by assumption) ?_ ?_)
    | with_reducible refine keeps_count _ _ ?_ ?_
    | dsimp only
    | with_reducible refine keeps_foldl _ _ (fun _ _ hx => ?_) ?_
    | with_reducible refine keeps_ite ?_ ?_

theorem keeps_decShow {L : Nat} {s₀ s : State} (d : Nat) (h : Keeps L s₀ s)
    (hl : 8 ||| L = L) : Keeps L s₀ (State.decShow s d) := by
  unfold State.decShow
  repeat' first
    | with_reducible exact h
    | exact sub_trans rfl hl
    | with_reducible assumption
    | with_reducible refine keeps_setFld _ _ ?_ ?_
    | simp only [keeps_regs_iff (sub_trans rfl hl)]
    | with_reducible refine keeps_foldl _ _ (fun _ _ hx => ?_) ?_
    | with_reducible refine keeps_ite ?_ ?_

theorem keeps_decRest {L : Nat} {s₀ s : State} (d : Nat) (h : Keeps L s₀ s)
    (hl : 2048 ||| L = L) : Keeps L s₀ (State.decRest s d) := by
  unfold State.decRest
  repeat' first
    | with_reducible exact h
    | exact sub_trans rfl hl
    | with_reducible assumption
    | with_reducible refine keeps_endAllWork _ ?_ ?_
    | dsimp only
    | with_reducible refine keeps_foldl _ _ (fun _ _ hx => ?_) ?_
    | with_reducible refine keeps_ite ?_ ?_

theorem keeps_decCopyNext {L : Nat} {s₀ a2 : State} (d : Nat) (a1 : Nat) (h : Keeps L s₀ a2)
    (hl : 67521416 ||| L = L) : Keeps L s₀ (State.decCopyNext d a1 a2) := by
  fun_induction State.decCopyNext d a1 a2
  all_goals repeat' first
      | with_reducible exact h
      | exact sub_trans rfl hl
      | with_reducible assumption
      | with_reducible refine keeps_setDec _ _ ?_ ?_
      | with_reducible refine keeps_acquire _ _ ?_ ?_
      | (with_reducible refine keeps_acquire' (by assumption) ?_ ?_)
      | with_reducible refine keeps_decRaise _ _ ?_ ?_
      | with_reducible refine keeps_count _ _ ?_ ?_
      | with_reducible refine keeps_popQ _ ?_ ?_
      | (with_reducible refine keeps_popQ' (by assumption) ?_ ?_)
      | simp only [keeps_regs_iff (sub_trans rfl hl), keeps_evSet_iff (sub_trans rfl hl), keeps_evAdd_iff (sub_trans rfl hl), keeps_evPosted_iff (sub_trans rfl hl), keeps_fab_iff (sub_trans rfl hl), keeps_pilots_iff (sub_trans rfl hl), keeps_log_iff (sub_trans rfl hl), keeps_queues_iff (sub_trans rfl hl), keeps_decs_iff (sub_trans rfl hl)]
      | with_reducible refine keeps_foldl _ _ (fun _ _ hx => ?_) ?_
      | with_reducible apply_assumption

theorem keeps_decCopyDone {L : Nat} {s₀ s : State} (d : Nat) (h : Keeps L s₀ s)
    (hl : 68046728 ||| L = L) : Keeps L s₀ (State.decCopyDone s d) := by
  unfold State.decCopyDone
  repeat' first
    | with_reducible exact h
    | exact sub_trans rfl hl
    | with_reducible assumption
    | with_reducible refine keeps_setDec _ _ ?_ ?_
    | with_reducible refine keeps_decShow _ ?_ ?_
    | with_reducible refine keeps_setPicSize _ _ _ ?_ ?_
    | with_reducible refine keeps_setFld _ _ ?_ ?_
    | with_reducible refine keeps_decRest _ ?_ ?_
    | with_reducible refine keeps_emitPlanes _ _ _ _ _ ?_ ?_
    | (with_reducible refine keeps_emitPlanes' (by assumption) ?_ ?_)
    | with_reducible refine keeps_release _ _ ?_ ?_
    | with_reducible refine keeps_decCopyNext _ _ ?_ ?_
    | with_reducible refine keeps_berthRel _ _ _ _ ?_ ?_
    | dsimp only
    | with_reducible refine keeps_foldl _ _ (fun _ _ hx => ?_) ?_
    | with_reducible refine keeps_ite ?_ ?_
    | split

theorem keeps_writePicture {L : Nat} {s₀ s : State} (u : Nat) (p : DpbPic) (v : Nat → Nat → Nat → Nat) (h : Keeps L s₀ s)
    (hl : 149388 ||| L = L) : Keeps L s₀ (State.writePicture s u p v) := by
  unfold State.writePicture
  repeat' first
    | with_reducible exact h
    | exact sub_trans rfl hl
    | with_reducible assumption
    | with_reducible refine keeps_freeBytes _ ?_ ?_
    | (with_reducible refine keeps_freeBytes' (by assumption) ?_ ?_)
    | with_reducible refine keeps_writeBerth _ _ _ _ ?_ ?_

theorem keeps_generate {L : Nat} {s₀ a3 : State} (d : Nat) (a : AuFacts) (a2 : List ℤ) (h : Keeps L s₀ a3)
    (hl : 67258252 ||| L = L) : Keeps L s₀ (State.generate d a a2 a3).1 := by
  fun_induction State.generate d a a2 a3
  all_goals repeat' first
      | with_reducible exact h
      | exact sub_trans rfl hl
      | with_reducible assumption
      | with_reducible refine keeps_setDec _ _ ?_ ?_
      | with_reducible refine keeps_writePicture _ _ _ ?_ ?_
      | with_reducible refine keeps_decRaise _ _ ?_ ?_
      | with_reducible refine keeps_count _ _ ?_ ?_
      | simp only [keeps_fresh_iff (sub_trans rfl hl)]
      | with_reducible refine keeps_foldl _ _ (fun _ _ hx => ?_) ?_
      | with_reducible apply_assumption

theorem keeps_generate' {L : Nat} {s₀ s' : State} {d : Nat} {a : AuFacts} {a2 : List ℤ} {a3 : State} {res} (he : State.generate d a a2 a3 = (s', res)) (h : Keeps L s₀ a3)
    (hl : 67258252 ||| L = L) : Keeps L s₀ s' := by
  have := keeps_generate d a a2 h hl
  rwa [he] at this

theorem keeps_decOpen {L : Nat} {s₀ s : State} (d : Nat) (h : Keeps L s₀ s)
    (hl : 67521416 ||| L = L) : Keeps L s₀ (State.decOpen s d) := by
  unfold State.decOpen
  repeat' first
    | with_reducible exact h
    | exact sub_trans rfl hl
    | with_reducible assumption
    | with_reducible refine keeps_setDec _ _ ?_ ?_
    | with_reducible refine keeps_acquire _ _ ?_ ?_
    | (with_reducible refine keeps_acquire' (by assumption) ?_ ?_)
    | with_reducible refine keeps_popQ _ ?_ ?_
    | (with_reducible refine keeps_popQ' (by assumption) ?_ ?_)
    | dsimp only
    | with_reducible refine keeps_foldl _ _ (fun _ _ hx => ?_) ?_
    | with_reducible refine keeps_ite ?_ ?_
    | split

theorem keeps_decClose {L : Nat} {s₀ s : State} (d : Nat) (h : Keeps L s₀ s)
    (hl : 67521416 ||| L = L) : Keeps L s₀ (State.decClose s d) := by
  unfold State.decClose
  repeat' first
    | with_reducible exact h
    | exact sub_trans rfl hl
    | with_reducible assumption
    | with_reducible refine keeps_setDec _ _ ?_ ?_
    | with_reducible refine keeps_release _ _ ?_ ?_
    | with_reducible refine keeps_berthRel _ _ _ _ ?_ ?_
    | dsimp only
    | with_reducible refine keeps_foldl _ _ (fun _ _ hx => ?_) ?_
    | with_reducible refine keeps_ite ?_ ?_
    | split

theorem keeps_decParse {L : Nat} {s₀ a3 : State} (d : Nat) (a1 : Nat) (a2 : Nat) (h : Keeps L s₀ a3)
    (hl : 67521416 ||| L = L) : Keeps L s₀ (State.decParse d a1 a2 a3) := by
  fun_induction State.decParse d a1 a2 a3
  all_goals repeat' first
      | with_reducible exact h
      | exact sub_trans rfl hl
      | with_reducible assumption
      | with_reducible refine keeps_setDec _ _ ?_ ?_
      | with_reducible refine keeps_decClose _ ?_ ?_
      | with_reducible refine keeps_decOpen _ ?_ ?_
      | simp only [keeps_regs_iff (sub_trans rfl hl), keeps_evSet_iff (sub_trans rfl hl), keeps_evAdd_iff (sub_trans rfl hl), keeps_evPosted_iff (sub_trans rfl hl), keeps_fab_iff (sub_trans rfl hl), keeps_pilots_iff (sub_trans rfl hl), keeps_log_iff (sub_trans rfl hl), keeps_queues_iff (sub_trans rfl hl), keeps_decs_iff (sub_trans rfl hl)]
      | with_reducible refine keeps_foldl _ _ (fun _ _ hx => ?_) ?_
      | with_reducible apply_assumption

theorem keeps_decStart {L : Nat} {s₀ s : State} (d : Nat) (h : Keeps L s₀ s)
    (hl : 67521416 ||| L = L) : Keeps L s₀ (State.decStart s d) := by
  unfold State.decStart
  repeat' first
    | with_reducible exact h
    | exact sub_trans rfl hl
    | with_reducible assumption
    | with_reducible refine keeps_setDec _ _ ?_ ?_
    | with_reducible refine keeps_decShow _ ?_ ?_
    | with_reducible refine keeps_decOpen _ ?_ ?_
    | dsimp only
    | with_reducible refine keeps_foldl _ _ (fun _ _ hx => ?_) ?_
    | with_reducible refine keeps_ite ?_ ?_

theorem keeps_decTide {L : Nat} {s₀ s : State} (d : Nat) (k : Nat) (h : Keeps L s₀ s)
    (hl : 67525512 ||| L = L) : Keeps L s₀ (State.decTide s d k) := by
  unfold State.decTide
  repeat' first
    | with_reducible exact h
    | exact sub_trans rfl hl
    | with_reducible assumption
    | with_reducible refine keeps_takeApplied _ _ _ ?_ ?_
    | with_reducible refine keeps_setDec _ _ ?_ ?_
    | with_reducible refine keeps_decStart _ ?_ ?_
    | with_reducible refine keeps_beginWork _ _ _ _ ?_ ?_
    | dsimp only
    | with_reducible refine keeps_foldl _ _ (fun _ _ hx => ?_) ?_
    | with_reducible refine keeps_ite ?_ ?_

theorem keeps_decTakeInput {L : Nat} {s₀ s : State} (d : Nat) (a : AuFacts) (h : Keeps L s₀ s)
    (hl : 67521416 ||| L = L) : Keeps L s₀ (State.decTakeInput s d a) := by
  unfold State.decTakeInput
  repeat' first
    | with_reducible exact h
    | exact sub_trans rfl hl
    | with_reducible assumption
    | with_reducible refine keeps_decParse _ _ _ ?_ ?_
    | with_reducible refine keeps_decClose _ ?_ ?_
    | simp only [keeps_regs_iff (sub_trans rfl hl), keeps_evSet_iff (sub_trans rfl hl), keeps_evAdd_iff (sub_trans rfl hl), keeps_evPosted_iff (sub_trans rfl hl), keeps_fab_iff (sub_trans rfl hl), keeps_pilots_iff (sub_trans rfl hl), keeps_log_iff (sub_trans rfl hl), keeps_queues_iff (sub_trans rfl hl), keeps_decs_iff (sub_trans rfl hl)]
    | with_reducible refine keeps_foldl _ _ (fun _ _ hx => ?_) ?_
    | with_reducible refine keeps_ite ?_ ?_

theorem keeps_decPicture {L : Nat} {s₀ s : State} (d : Nat) (a : AuFacts) (a3 : Nat) (inMan : Manifest) (inH : Nat) (h : Keeps L s₀ s)
    (hl : 67258252 ||| L = L) : Keeps L s₀ (State.decPicture s d a a3 inMan inH) := by
  unfold State.decPicture
  repeat' first
    | with_reducible exact h
    | exact sub_trans rfl hl
    | with_reducible assumption
    | with_reducible refine keeps_writePicture _ _ _ ?_ ?_
    | with_reducible refine keeps_nextFree ?_ ?_
    | with_reducible refine keeps_setDec _ _ ?_ ?_
    | with_reducible refine keeps_decRaise _ _ ?_ ?_
    | with_reducible refine keeps_setFld _ _ ?_ ?_
    | with_reducible refine keeps_count _ _ ?_ ?_
    | simp only [keeps_fresh_iff (sub_trans rfl hl)]
    | with_reducible refine keeps_foldl _ _ (fun _ _ hx => ?_) ?_
    | with_reducible refine keeps_ite ?_ ?_

theorem keeps_decSeq {L : Nat} {s₀ s : State} (d : Nat) (a : AuFacts) (h : Keeps L s₀ s)
    (hl : 8 ||| L = L) : Keeps L s₀ (State.decSeq s d a) := by
  unfold State.decSeq
  repeat' first
    | with_reducible exact h
    | exact sub_trans rfl hl
    | with_reducible assumption
    | with_reducible refine keeps_setFld _ _ ?_ ?_

theorem keeps_decDone {L : Nat} {s₀ s : State} (d : Nat) (a : AuFacts) (h : Keeps L s₀ s)
    (hl : 67522444 ||| L = L) : Keeps L s₀ (State.decDone s d a) := by
  unfold State.decDone
  repeat' first
    | with_reducible exact h
    | exact sub_trans rfl hl
    | with_reducible assumption
    | with_reducible refine keeps_setDec _ _ ?_ ?_
    | with_reducible refine keeps_decShow _ ?_ ?_
    | with_reducible refine keeps_generate _ _ _ ?_ ?_
    | (with_reducible refine keeps_generate' (by assumption) ?_ ?_)
    | with_reducible refine keeps_decPicture _ _ _ _ _ ?_ ?_
    | with_reducible refine keeps_decRaise _ _ ?_ ?_
    | with_reducible refine keeps_setFld _ _ ?_ ?_
    | with_reducible refine keeps_decRest _ ?_ ?_
    | with_reducible refine keeps_decTakeInput _ _ ?_ ?_
    | with_reducible refine keeps_decSeq _ _ ?_ ?_
    | with_reducible refine keeps_decCopyNext _ _ ?_ ?_
    | dsimp only
    | with_reducible refine keeps_foldl _ _ (fun _ _ hx => ?_) ?_
    | with_reducible refine keeps_ite ?_ ?_
    | split

theorem keeps_decOverrun {L : Nat} {s₀ s : State} (d : Nat) (h : Keeps L s₀ s)
    (hl : 67126152 ||| L = L) : Keeps L s₀ (State.decOverrun s d) := by
  unfold State.decOverrun
  repeat' first
    | with_reducible exact h
    | exact sub_trans rfl hl
    | with_reducible assumption
    | with_reducible refine keeps_setDec _ _ ?_ ?_
    | with_reducible refine keeps_decRaise _ _ ?_ ?_

theorem keeps_decAbandon {L : Nat} {s₀ s : State} (d : Nat) (h : Keeps L s₀ s)
    (hl : 67521416 ||| L = L) : Keeps L s₀ (State.decAbandon s d) := by
  unfold State.decAbandon
  repeat' first
    | with_reducible exact h
    | exact sub_trans rfl hl
    | with_reducible assumption
    | with_reducible refine keeps_setDec _ _ ?_ ?_
    | with_reducible refine keeps_decShow _ ?_ ?_
    | with_reducible refine keeps_release _ _ ?_ ?_
    | with_reducible refine keeps_berthRel _ _ _ _ ?_ ?_
    | with_reducible refine keeps_decClose _ ?_ ?_
    | simp only [keeps_regs_iff (sub_trans rfl hl), keeps_evSet_iff (sub_trans rfl hl), keeps_evAdd_iff (sub_trans rfl hl), keeps_evPosted_iff (sub_trans rfl hl), keeps_fab_iff (sub_trans rfl hl), keeps_pilots_iff (sub_trans rfl hl), keeps_log_iff (sub_trans rfl hl), keeps_queues_iff (sub_trans rfl hl), keeps_decs_iff (sub_trans rfl hl)]
    | with_reducible refine keeps_foldl _ _ (fun _ _ hx => ?_) ?_
    | with_reducible refine keeps_ite ?_ ?_
    | split

theorem keeps_decStop {L : Nat} {s₀ s : State} (d : Nat) (h : Keeps L s₀ s)
    (hl : 67521416 ||| L = L) : Keeps L s₀ (State.decStop s d) := by
  unfold State.decStop
  repeat' first
    | with_reducible exact h
    | exact sub_trans rfl hl
    | with_reducible assumption
    | with_reducible refine keeps_setDec _ _ ?_ ?_
    | with_reducible refine keeps_endAllWork _ ?_ ?_
    | with_reducible refine keeps_countAbandon _ ?_ ?_
    | with_reducible refine keeps_releaseAll _ _ ?_ ?_
    | with_reducible refine keeps_setQueue _ _ ?_ ?_
    | with_reducible refine keeps_setFld _ _ ?_ ?_
    | simp only [keeps_regs_iff (sub_trans rfl hl), keeps_evSet_iff (sub_trans rfl hl), keeps_evAdd_iff (sub_trans rfl hl), keeps_evPosted_iff (sub_trans rfl hl), keeps_fab_iff (sub_trans rfl hl), keeps_pilots_iff (sub_trans rfl hl), keeps_log_iff (sub_trans rfl hl), keeps_queues_iff (sub_trans rfl hl), keeps_decs_iff (sub_trans rfl hl)]
    | with_reducible refine keeps_foldl _ _ (fun _ _ hx => ?_) ?_
    | with_reducible refine keeps_ite ?_ ?_

theorem keeps_decFlush {L : Nat} {s₀ s : State} (d : Nat) (h : Keeps L s₀ s)
    (hl : 67521416 ||| L = L) : Keeps L s₀ (State.decFlush s d) := by
  unfold State.decFlush
  repeat' first
    | with_reducible exact h
    | exact sub_trans rfl hl
    | with_reducible assumption
    | with_reducible refine keeps_setDec _ _ ?_ ?_
    | with_reducible refine keeps_decCopyNext _ _ ?_ ?_
    | with_reducible refine keeps_decShow _ ?_ ?_

theorem keeps_decOp {L : Nat} {s₀ s : State} (d : Nat) (op : Nat) (h : Keeps L s₀ s)
    (hl : 67521416 ||| L = L) : Keeps L s₀ (State.decOp s d op) := by
  unfold State.decOp
  repeat' first
    | with_reducible exact h
    | exact sub_trans rfl hl
    | with_reducible assumption
    | with_reducible refine keeps_decFlush _ ?_ ?_
    | with_reducible refine keeps_setFld _ _ ?_ ?_
    | with_reducible refine keeps_decStop _ ?_ ?_
    | simp only [keeps_regs_iff (sub_trans rfl hl), keeps_evSet_iff (sub_trans rfl hl), keeps_evAdd_iff (sub_trans rfl hl), keeps_evPosted_iff (sub_trans rfl hl), keeps_fab_iff (sub_trans rfl hl), keeps_pilots_iff (sub_trans rfl hl), keeps_log_iff (sub_trans rfl hl), keeps_queues_iff (sub_trans rfl hl), keeps_decs_iff (sub_trans rfl hl)]
    | with_reducible refine keeps_foldl _ _ (fun _ _ hx => ?_) ?_
    | with_reducible refine keeps_ite ?_ ?_

theorem keeps_decFlushDone {L : Nat} {s₀ s : State} (d : Nat) (h : Keeps L s₀ s)
    (hl : 67126152 ||| L = L) : Keeps L s₀ (State.decFlushDone s d) := by
  unfold State.decFlushDone
  repeat' first
    | with_reducible exact h
    | exact sub_trans rfl hl
    | with_reducible assumption
    | with_reducible refine keeps_setDec _ _ ?_ ?_
    | with_reducible refine keeps_decRaise _ _ ?_ ?_
    | dsimp only
    | with_reducible refine keeps_foldl _ _ (fun _ _ hx => ?_) ?_
    | with_reducible refine keeps_ite ?_ ?_

theorem keeps_setLzeJob {L : Nat} {s₀ s : State} (q : Nat) (j : Option LzeJob) (h : Keeps L s₀ s)
    (hl : 134217728 ||| L = L) : Keeps L s₀ (State.setLzeJob s q j) := by
  unfold State.setLzeJob
  repeat' first
    | with_reducible exact h
    | exact sub_trans rfl hl
    | with_reducible assumption
    | simp only [keeps_lze_iff (sub_trans rfl hl)]

theorem keeps_lzeRaise {L : Nat} {s₀ s : State} (m : Nat) (h : Keeps L s₀ s)
    (hl : 17288 ||| L = L) : Keeps L s₀ (State.lzeRaise s m) := by
  unfold State.lzeRaise
  repeat' first
    | with_reducible exact h
    | exact sub_trans rfl hl
    | with_reducible assumption
    | with_reducible refine keeps_raise _ _ _ _ _ ?_ ?_

theorem keeps_lzeShow {L : Nat} {s₀ s : State}  (h : Keeps L s₀ s)
    (hl : 8 ||| L = L) : Keeps L s₀ (State.lzeShow s) := by
  unfold State.lzeShow
  repeat' first
    | with_reducible exact h
    | exact sub_trans rfl hl
    | with_reducible assumption
    | with_reducible refine keeps_setFld _ _ ?_ ?_
    | simp only [keeps_regs_iff (sub_trans rfl hl)]
    | with_reducible refine keeps_foldl _ _ (fun _ _ hx => ?_) ?_
    | with_reducible refine keeps_ite ?_ ?_

theorem keeps_lzeLost {L : Nat} {s₀ s : State} (q : Nat) (h : Keeps L s₀ s)
    (hl : 17288 ||| L = L) : Keeps L s₀ (State.lzeLost s q) := by
  unfold State.lzeLost
  repeat' first
    | with_reducible exact h
    | exact sub_trans rfl hl
    | with_reducible assumption
    | with_reducible refine keeps_lzeRaise _ ?_ ?_
    | with_reducible refine keeps_count _ _ ?_ ?_

theorem keeps_lzePush {L : Nat} {s₀ s : State} (q : Nat) (a2 : Nat) (index : Nat) (h : Keeps L s₀ s)
    (hl : 412552 ||| L = L) : Keeps L s₀ (State.lzePush s q a2 index) := by
  unfold State.lzePush
  repeat' first
    | with_reducible exact h
    | exact sub_trans rfl hl
    | with_reducible assumption
    | with_reducible refine keeps_acquire _ _ ?_ ?_
    | (with_reducible refine keeps_acquire' (by assumption) ?_ ?_)
    | with_reducible refine keeps_lzeLost _ ?_ ?_
    | with_reducible refine keeps_setQueue _ _ ?_ ?_
    | dsimp only
    | with_reducible refine keeps_foldl _ _ (fun _ _ hx => ?_) ?_
    | with_reducible refine keeps_ite ?_ ?_

theorem keeps_lzeEmit {L : Nat} {s₀ s : State} (j : LzeJob) (kind : Nat) (first : Nat) (rows : Nat) (ofs : Nat) (bs : List Byte) (h : Keeps L s₀ s)
    (hl : 937868 ||| L = L) : Keeps L s₀ (State.lzeEmit s j kind first rows ofs bs).1 := by
  unfold State.lzeEmit
  repeat' first
    | with_reducible exact h
    | exact sub_trans rfl hl
    | with_reducible assumption
    | with_reducible refine keeps_emit _ _ _ _ ?_ ?_
    | with_reducible refine keeps_nextFree ?_ ?_
    | simp only [keeps_fresh_iff (sub_trans rfl hl), keeps_regs_iff (sub_trans rfl hl), keeps_evSet_iff (sub_trans rfl hl), keeps_evAdd_iff (sub_trans rfl hl), keeps_evPosted_iff (sub_trans rfl hl), keeps_fab_iff (sub_trans rfl hl), keeps_pilots_iff (sub_trans rfl hl), keeps_log_iff (sub_trans rfl hl), keeps_queues_iff (sub_trans rfl hl), keeps_leaves_iff (sub_trans rfl hl)]
    | with_reducible refine keeps_foldl _ _ (fun _ _ hx => ?_) ?_
    | with_reducible refine keeps_ite_fst ?_ ?_
    | split

theorem keeps_lzeEmit' {L : Nat} {s₀ s' : State} {s : State} {j : LzeJob} {kind : Nat} {first : Nat} {rows : Nat} {ofs : Nat} {bs : List Byte} {res} (he : State.lzeEmit s j kind first rows ofs bs = (s', res)) (h : Keeps L s₀ s)
    (hl : 937868 ||| L = L) : Keeps L s₀ s' := by
  have := keeps_lzeEmit j kind first rows ofs bs h hl
  rwa [he] at this

theorem keeps_lzeStart {L : Nat} {s₀ s : State} (q : Nat) (h : Keeps L s₀ s)
    (hl : 135155596 ||| L = L) : Keeps L s₀ (State.lzeStart s q) := by
  unfold State.lzeStart
  split
  · exact h
  split
  · rename_i s1 hp; exact keeps_popQ' hp h (sub_trans rfl hl)
  rename_i s1 e hp
  have h1 := keeps_popQ' hp h (sub_trans rfl hl)
  clear hp
  extract_lets c
  clear_value c
  split
  rename_i s2 desc hd
  have h2 : Keeps L s₀ s2 := by
    split at hd
    · cases hd; exact h1
    · exact keeps_readBerth' hd h1 (sub_trans rfl hl)
  clear hd h1 h
  extract_lets j
  clear_value j
  split
  · exact keeps_lzeShow (keeps_setLzeJob _ _ h2 (sub_trans rfl hl)) (sub_trans rfl hl)
  split
  · exact keeps_lzeShow (keeps_setLzeJob _ _ h2 (sub_trans rfl hl)) (sub_trans rfl hl)
  split
  rename_i s3 ok1 e1
  split
  rename_i s4 ok2 e2
  have h4 := keeps_acquire' e2 (keeps_acquire' e1 h2 (sub_trans rfl hl)) (sub_trans rfl hl)
  clear e1 e2 h2
  extract_lets j'
  clear_value j'
  split
  · exact keeps_lzeShow (keeps_setLzeJob _ _ h4 (sub_trans rfl hl)) (sub_trans rfl hl)
  split
  · split
    · exact keeps_lzeShow (keeps_setLzeJob _ _ h4 (sub_trans rfl hl)) (sub_trans rfl hl)
    split
    rename_i s5 ok e5
    exact keeps_lzeShow (keeps_setLzeJob _ _ (keeps_lzeEmit' e5 h4 (sub_trans rfl hl)) (sub_trans rfl hl)) (sub_trans rfl hl)
  · exact keeps_lzeShow (keeps_setLzeJob _ _ h4 (sub_trans rfl hl)) (sub_trans rfl hl)

theorem keeps_lzeCompress {L : Nat} {s₀ s : State} (j : LzeJob) (h : Keeps L s₀ s)
    (hl : 937868 ||| L = L) : Keeps L s₀ (State.lzeCompress s j).1 := by
  unfold State.lzeCompress
  repeat' first
    | with_reducible exact h
    | exact sub_trans rfl hl
    | with_reducible assumption
    | with_reducible refine keeps_readBerth _ _ _ _ ?_ ?_
    | (with_reducible refine keeps_readBerth' (by assumption) ?_ ?_)
    | with_reducible refine keeps_count _ _ ?_ ?_
    | with_reducible refine keeps_lzeEmit _ _ _ _ _ _ ?_ ?_
    | (with_reducible refine keeps_lzeEmit' (by assumption) ?_ ?_)
    | simp only [keeps_fresh_iff (sub_trans rfl hl)]
    | with_reducible refine keeps_foldl _ _ (fun _ _ hx => ?_) ?_
    | with_reducible refine keeps_ite_fst ?_ ?_
    | split

theorem keeps_lzeCompress' {L : Nat} {s₀ s' : State} {s : State} {j : LzeJob} {res} (he : State.lzeCompress s j = (s', res)) (h : Keeps L s₀ s)
    (hl : 937868 ||| L = L) : Keeps L s₀ s' := by
  have := keeps_lzeCompress j h hl
  rwa [he] at this

theorem keeps_lzeError {L : Nat} {s₀ s : State} (j : LzeJob) (code : Nat) (index : Nat) (h : Keeps L s₀ s)
    (hl : 17288 ||| L = L) : Keeps L s₀ (State.lzeError s j code index).1 := by
  unfold State.lzeError
  repeat' first
    | with_reducible exact h
    | exact sub_trans rfl hl
    | with_reducible assumption
    | with_reducible refine keeps_lzeRaise _ ?_ ?_

theorem keeps_lzeError' {L : Nat} {s₀ s' : State} {s : State} {j : LzeJob} {code : Nat} {index : Nat} {res} (he : State.lzeError s j code index = (s', res)) (h : Keeps L s₀ s)
    (hl : 17288 ||| L = L) : Keeps L s₀ s' := by
  have := keeps_lzeError j code index h hl
  rwa [he] at this

theorem keeps_lzePlace {L : Nat} {s₀ s : State} (j : LzeJob) (index : Nat) (v : Nat) (raw : List Byte) (h : Keeps L s₀ s)
    (hl : 937868 ||| L = L) : Keeps L s₀ (State.lzePlace s j index v raw).1 := by
  unfold State.lzePlace
  repeat' first
    | with_reducible exact h
    | exact sub_trans rfl hl
    | with_reducible assumption
    | with_reducible refine keeps_lzeEmit _ _ _ _ _ _ ?_ ?_

theorem keeps_lzePlace' {L : Nat} {s₀ s' : State} {s : State} {j : LzeJob} {index : Nat} {v : Nat} {raw : List Byte} {res} (he : State.lzePlace s j index v raw = (s', res)) (h : Keeps L s₀ s)
    (hl : 937868 ||| L = L) : Keeps L s₀ s' := by
  have := keeps_lzePlace j index v raw h hl
  rwa [he] at this

theorem keeps_lzeDecompress {L : Nat} {s₀ s : State} (j : LzeJob) (h : Keeps L s₀ s)
    (hl : 937868 ||| L = L) : Keeps L s₀ (State.lzeDecompress s j).1 := by
  unfold State.lzeDecompress
  extract_lets j left
  clear_value left j
  refine keeps_ite_fst h ?_
  refine keeps_ite_fst h ?_
  refine keeps_ite_fst (keeps_readBerth _ _ _ _ h (sub_trans rfl hl)) ?_
  refine keeps_ite_fst ?_ ?_
  · split
    rename_i s1 j1 e1
    have h1 := keeps_lzeError' e1 h (sub_trans rfl hl)
    split <;> exact h1
  split
  rename_i s1 j1 e1
  have h1 : Keeps L s₀ s1 := by
    split at e1
    · exact keeps_lzeError' e1 h (sub_trans rfl hl)
    · cases e1; exact h
  clear e1
  split
  · exact h1
  extract_lets guard at_ room
  clear_value guard at_ room
  split
  · exact h1
  split
  · exact h1
  split
  · exact keeps_readBerth _ _ _ _ h1 (sub_trans rfl hl)
  split
  rename_i code out e2
  clear e2
  split
  rename_i s2 j2 e2
  have h2 : Keeps L s₀ s2 := by
    split at e2
    · cases e2; exact h1
    · exact keeps_lzeError' e2 h1 (sub_trans rfl hl)
  clear e2
  split
  · exact h2
  split
  rename_i s3 j3 ok e3
  have h3 : Keeps L s₀ s3 := by
    split at e3
    · cases e3; exact h2
    · exact keeps_lzePlace' e3 h2 (sub_trans rfl hl)
  clear e3
  split
  · exact h3
  · dsimp only
    split
    · exact keeps_count _ _ h3 (sub_trans rfl hl)
    · exact h3

theorem keeps_lzeDecompress' {L : Nat} {s₀ s' : State} {s : State} {j : LzeJob} {res} (he : State.lzeDecompress s j = (s', res)) (h : Keeps L s₀ s)
    (hl : 937868 ||| L = L) : Keeps L s₀ s' := by
  have := keeps_lzeDecompress j h hl
  rwa [he] at this

theorem keeps_lzeBlock {L : Nat} {s₀ s : State} (q : Nat) (h : Keeps L s₀ s)
    (hl : 135155596 ||| L = L) : Keeps L s₀ (State.lzeBlock s q) := by
  unfold State.lzeBlock
  repeat' first
    | with_reducible exact h
    | exact sub_trans rfl hl
    | with_reducible assumption
    | with_reducible refine keeps_lzeCompress _ ?_ ?_
    | (with_reducible refine keeps_lzeCompress' (by assumption) ?_ ?_)
    | with_reducible refine keeps_setLzeJob _ _ ?_ ?_
    | with_reducible refine keeps_lzeDecompress _ ?_ ?_
    | (with_reducible refine keeps_lzeDecompress' (by assumption) ?_ ?_)
    | simp only [keeps_fresh_iff (sub_trans rfl hl)]
    | with_reducible refine keeps_foldl _ _ (fun _ _ hx => ?_) ?_
    | with_reducible refine keeps_ite ?_ ?_
    | split

theorem keeps_setLzeDoneQ {L : Nat} {s₀ s : State} (q : Nat) (l : List LzeDone) (h : Keeps L s₀ s)
    (hl : 134217728 ||| L = L) : Keeps L s₀ (State.setLzeDoneQ s q l) := by
  unfold State.setLzeDoneQ
  repeat' first
    | with_reducible exact h
    | exact sub_trans rfl hl
    | with_reducible assumption
    | simp only [keeps_lze_iff (sub_trans rfl hl)]

theorem keeps_lzeEnd {L : Nat} {s₀ s : State} (q : Nat) (h : Keeps L s₀ s)
    (hl : 134630280 ||| L = L) : Keeps L s₀ (State.lzeEnd s q) := by
  unfold State.lzeEnd
  repeat' first
    | with_reducible exact h
    | exact sub_trans rfl hl
    | with_reducible assumption
    | with_reducible refine keeps_post _ _ _ _ ?_ ?_
    | with_reducible refine keeps_lzeShow ?_ ?_
    | with_reducible refine keeps_lzeRaise _ ?_ ?_
    | with_reducible refine keeps_count _ _ ?_ ?_
    | with_reducible refine keeps_setLzeJob _ _ ?_ ?_
    | with_reducible refine keeps_setLzeDoneQ _ _ ?_ ?_
    | with_reducible refine keeps_releaseAll _ _ ?_ ?_
    | simp only [keeps_lze_iff (sub_trans rfl hl)]
    | with_reducible refine keeps_foldl _ _ (fun _ _ hx => ?_) ?_
    | with_reducible refine keeps_ite ?_ ?_
    | split

theorem keeps_lzePop {L : Nat} {s₀ s : State} (q : Nat) (h : Keeps L s₀ s)
    (hl : 134217728 ||| L = L) : Keeps L s₀ (State.lzePop s q) := by
  unfold State.lzePop
  repeat' first
    | with_reducible exact h
    | exact sub_trans rfl hl
    | with_reducible assumption
    | with_reducible refine keeps_setLzeDoneQ _ _ ?_ ?_

theorem keeps_lzeStopJob {L : Nat} {s₀ s : State} (q : Nat) (h : Keeps L s₀ s)
    (hl : 134217728 ||| L = L) : Keeps L s₀ (State.lzeStopJob s q) := by
  unfold State.lzeStopJob
  repeat' first
    | with_reducible exact h
    | exact sub_trans rfl hl
    | with_reducible assumption
    | with_reducible refine keeps_setLzeJob _ _ ?_ ?_
    | simp only [keeps_lze_iff (sub_trans rfl hl)]
    | with_reducible refine keeps_foldl _ _ (fun _ _ hx => ?_) ?_
    | with_reducible refine keeps_ite ?_ ?_
    | split

theorem keeps_lzeOp {L : Nat} {s₀ s : State} (op : Nat) (h : Keeps L s₀ s)
    (hl : 134217736 ||| L = L) : Keeps L s₀ (State.lzeOp s op) := by
  unfold State.lzeOp
  repeat' first
    | with_reducible exact h
    | exact sub_trans rfl hl
    | with_reducible assumption
    | with_reducible refine keeps_lzeShow ?_ ?_
    | with_reducible refine keeps_lzeStopJob _ ?_ ?_
    | with_reducible refine keeps_setFld _ _ ?_ ?_
    | simp only [keeps_regs_iff (sub_trans rfl hl), keeps_lze_iff (sub_trans rfl hl)]
    | with_reducible refine keeps_foldl _ _ (fun _ _ hx => ?_) ?_
    | with_reducible refine keeps_ite ?_ ?_

end Sys2Proof.Machine
end

