-- ==== Sys2Proof/Laws/FrameIo.lean ====
section
/-! SUPPORT. One lemma per operation over the state: the parts it may change, as a bit mask (Part.idx); the operations of PCIe, network, audio, scan-out, security and the logbook. -/

namespace Sys2Proof.Machine

open State

theorem keeps_setDrive {L : Nat} {s₀ s : State} (d : Nat) (x : Drive) (h : Keeps L s₀ s)
    (hl : 1073741824 ||| L = L) : Keeps L s₀ (State.setDrive s d x) := by
  unfold State.setDrive
  repeat' first
    | with_reducible exact h
    | exact sub_trans rfl hl
    | with_reducible assumption
    | simp only [keeps_pcx_iff (sub_trans rfl hl)]

theorem keeps_setVol {L : Nat} {s₀ s : State} (v : Nat) (x : Vol) (h : Keeps L s₀ s)
    (hl : 1073741824 ||| L = L) : Keeps L s₀ (State.setVol s v x) := by
  unfold State.setVol
  repeat' first
    | with_reducible exact h
    | exact sub_trans rfl hl
    | with_reducible assumption
    | simp only [keeps_pcx_iff (sub_trans rfl hl)]

theorem keeps_setPcxPort {L : Nat} {s₀ s : State} (p : Nat) (x : PcxPort) (h : Keeps L s₀ s)
    (hl : 1073741824 ||| L = L) : Keeps L s₀ (State.setPcxPort s p x) := by
  unfold State.setPcxPort
  repeat' first
    | with_reducible exact h
    | exact sub_trans rfl hl
    | with_reducible assumption
    | simp only [keeps_pcx_iff (sub_trans rfl hl)]

theorem keeps_pcxRaise {L : Nat} {s₀ s : State} (p : Nat) (m : Nat) (h : Keeps L s₀ s)
    (hl : 17288 ||| L = L) : Keeps L s₀ (State.pcxRaise s p m) := by
  unfold State.pcxRaise
  repeat' first
    | with_reducible exact h
    | exact sub_trans rfl hl
    | with_reducible assumption
    | with_reducible refine keeps_raise _ _ _ _ _ ?_ ?_

theorem keeps_setDrvState {L : Nat} {s₀ s : State} (d : Nat) (v : Nat) (h : Keeps L s₀ s)
    (hl : 8 ||| L = L) : Keeps L s₀ (State.setDrvState s d v) := by
  unfold State.setDrvState
  repeat' first
    | with_reducible exact h
    | exact sub_trans rfl hl
    | with_reducible assumption
    | with_reducible refine keeps_setFld _ _ ?_ ?_

theorem keeps_drvResult {L : Nat} {s₀ s : State} (d : Nat) (r : Nat) (h : Keeps L s₀ s)
    (hl : 8 ||| L = L) : Keeps L s₀ (State.drvResult s d r) := by
  unfold State.drvResult
  repeat' first
    | with_reducible exact h
    | exact sub_trans rfl hl
    | with_reducible assumption
    | with_reducible refine keeps_setFld _ _ ?_ ?_

theorem keeps_driveFault {L : Nat} {s₀ s : State} (d : Nat) (h : Keeps L s₀ s)
    (hl : 1073759112 ||| L = L) : Keeps L s₀ (State.driveFault s d) := by
  unfold State.driveFault
  repeat' first
    | with_reducible exact h
    | exact sub_trans rfl hl
    | with_reducible assumption
    | with_reducible refine keeps_pcxRaise _ _ ?_ ?_
    | with_reducible refine keeps_setDrvState _ _ ?_ ?_
    | with_reducible refine keeps_setDrive _ _ ?_ ?_

theorem keeps_addCmds {L : Nat} {s₀ s : State} (d : Nat) (cs : List NvmeCmd) (h : Keeps L s₀ s)
    (hl : 1073741824 ||| L = L) : Keeps L s₀ (State.addCmds s d cs) := by
  unfold State.addCmds
  repeat' first
    | with_reducible exact h
    | exact sub_trans rfl hl
    | with_reducible assumption
    | with_reducible refine keeps_setDrive _ _ ?_ ?_

theorem keeps_driveNext {L : Nat} {s₀ s : State} (d : Nat) (h : Keeps L s₀ s)
    (hl : 1073741832 ||| L = L) : Keeps L s₀ (State.driveNext s d) := by
  unfold State.driveNext
  repeat' first
    | with_reducible exact h
    | exact sub_trans rfl hl
    | with_reducible assumption
    | with_reducible refine keeps_drvResult _ _ ?_ ?_
    | with_reducible refine keeps_addCmds _ _ ?_ ?_
    | with_reducible refine keeps_setDrvState _ _ ?_ ?_
    | with_reducible refine keeps_setDrive _ _ ?_ ?_
    | dsimp only
    | with_reducible refine keeps_foldl _ _ (fun _ _ hx => ?_) ?_
    | with_reducible refine keeps_ite ?_ ?_
    | split

theorem keeps_driveFail {L : Nat} {s₀ s : State} (d : Nat) (r : Nat) (h : Keeps L s₀ s)
    (hl : 1073759112 ||| L = L) : Keeps L s₀ (State.driveFail s d r) := by
  unfold State.driveFail
  repeat' first
    | with_reducible exact h
    | exact sub_trans rfl hl
    | with_reducible assumption
    | with_reducible refine keeps_driveFault _ ?_ ?_
    | with_reducible refine keeps_drvResult _ _ ?_ ?_

theorem keeps_driveOp {L : Nat} {s₀ s : State} (d : Nat) (op : Nat) (h : Keeps L s₀ s)
    (hl : 1073741832 ||| L = L) : Keeps L s₀ (State.driveOp s d op) := by
  unfold State.driveOp
  repeat' first
    | with_reducible exact h
    | exact sub_trans rfl hl
    | with_reducible assumption
    | with_reducible refine keeps_drvResult _ _ ?_ ?_
    | with_reducible refine keeps_setDrvState _ _ ?_ ?_
    | with_reducible refine keeps_setDrive _ _ ?_ ?_
    | with_reducible refine keeps_driveNext _ ?_ ?_
    | dsimp only
    | with_reducible refine keeps_foldl _ _ (fun _ _ hx => ?_) ?_
    | with_reducible refine keeps_ite ?_ ?_

theorem keeps_adminDone {L : Nat} {s₀ s : State} (d : Nat) (data : NvmeData) (h : Keeps L s₀ s)
    (hl : 1073759112 ||| L = L) : Keeps L s₀ (State.adminDone s d data) := by
  unfold State.adminDone
  repeat' first
    | with_reducible exact h
    | exact sub_trans rfl hl
    | with_reducible assumption
    | with_reducible refine keeps_driveFail _ _ ?_ ?_
    | with_reducible refine keeps_setFld _ _ ?_ ?_
    | with_reducible refine keeps_driveNext _ ?_ ?_
    | with_reducible refine keeps_setFld2 _ _ _ ?_ ?_
    | dsimp only
    | with_reducible refine keeps_foldl _ _ (fun _ _ hx => ?_) ?_
    | with_reducible refine keeps_ite ?_ ?_
    | split

theorem keeps_aer {L : Nat} {s₀ s : State} (p : Nat) (corr : Nat) (uncorr : Nat) (h : Keeps L s₀ s)
    (hl : 264 ||| L = L) : Keeps L s₀ (State.aer s p corr uncorr) := by
  unfold State.aer
  repeat' first
    | with_reducible exact h
    | exact sub_trans rfl hl
    | with_reducible assumption
    | with_reducible refine keeps_count _ _ ?_ ?_
    | simp only [keeps_regs_iff (sub_trans rfl hl), keeps_evAdd_iff (sub_trans rfl hl)]
    | with_reducible refine keeps_foldl _ _ (fun _ _ hx => ?_) ?_
    | with_reducible refine keeps_ite ?_ ?_

theorem keeps_faultDrives {L : Nat} {s₀ a3 : State} (p : Nat) (k : Nat) (a2 : List Nat) (h : Keeps L s₀ a3)
    (hl : 1073759112 ||| L = L) : Keeps L s₀ (State.faultDrives p k a2 a3) := by
  fun_induction State.faultDrives p k a2 a3
  all_goals repeat' first
      | with_reducible exact h
      | exact sub_trans rfl hl
      | with_reducible assumption
      | with_reducible refine keeps_driveFault _ ?_ ?_
      | simp only [keeps_regs_iff (sub_trans rfl hl), keeps_evSet_iff (sub_trans rfl hl), keeps_evAdd_iff (sub_trans rfl hl), keeps_evPosted_iff (sub_trans rfl hl), keeps_pilots_iff (sub_trans rfl hl), keeps_pcx_iff (sub_trans rfl hl)]
      | with_reducible refine keeps_foldl _ _ (fun _ _ hx => ?_) ?_
      | with_reducible apply_assumption
      | with_reducible refine keeps_ite ?_ ?_

theorem keeps_linkDown {L : Nat} {s₀ s : State} (p : Nat) (k : Nat) (h : Keeps L s₀ s)
    (hl : 1073759112 ||| L = L) : Keeps L s₀ (State.linkDown s p k) := by
  unfold State.linkDown
  repeat' first
    | with_reducible exact h
    | exact sub_trans rfl hl
    | with_reducible assumption
    | with_reducible refine keeps_pcxRaise _ _ ?_ ?_
    | with_reducible refine keeps_faultDrives _ _ _ ?_ ?_
    | with_reducible refine keeps_setFld _ _ ?_ ?_
    | dsimp only
    | with_reducible refine keeps_foldl _ _ (fun _ _ hx => ?_) ?_
    | with_reducible refine keeps_ite ?_ ?_

theorem keeps_sendIrq {L : Nat} {s₀ s : State} (p : Nat) (h : Keeps L s₀ s)
    (hl : 1073741832 ||| L = L) : Keeps L s₀ (State.sendIrq s p) := by
  unfold State.sendIrq
  repeat' first
    | with_reducible exact h
    | exact sub_trans rfl hl
    | with_reducible assumption
    | with_reducible refine keeps_setPcxPort _ _ ?_ ?_
    | with_reducible refine keeps_setFld _ _ ?_ ?_
    | dsimp only
    | with_reducible refine keeps_foldl _ _ (fun _ _ hx => ?_) ?_
    | with_reducible refine keeps_ite ?_ ?_

theorem keeps_linkUp {L : Nat} {s₀ s : State} (p : Nat) (k : Nat) (gen : Nat) (width : Nat) (rev : Bool) (h : Keeps L s₀ s)
    (hl : 1073741832 ||| L = L) : Keeps L s₀ (State.linkUp s p k gen width rev) := by
  unfold State.linkUp
  repeat' first
    | with_reducible exact h
    | exact sub_trans rfl hl
    | with_reducible assumption
    | with_reducible refine keeps_sendIrq _ ?_ ?_
    | with_reducible refine keeps_setFld _ _ ?_ ?_
    | dsimp only
    | with_reducible refine keeps_foldl _ _ (fun _ _ hx => ?_) ?_
    | with_reducible refine keeps_ite ?_ ?_

theorem keeps_pcxOp {L : Nat} {s₀ s : State} (p : Nat) (op : Nat) (h : Keeps L s₀ s)
    (hl : 1073759112 ||| L = L) : Keeps L s₀ (State.pcxOp s p op) := by
  unfold State.pcxOp
  repeat' first
    | with_reducible exact h
    | exact sub_trans rfl hl
    | with_reducible assumption
    | with_reducible refine keeps_setPcxPort _ _ ?_ ?_
    | with_reducible refine keeps_linkDown _ _ ?_ ?_
    | with_reducible refine keeps_pcxRaise _ _ ?_ ?_
    | with_reducible refine keeps_setFld _ _ ?_ ?_
    | dsimp only
    | with_reducible refine keeps_foldl _ _ (fun _ _ hx => ?_) ?_
    | with_reducible refine keeps_ite ?_ ?_

theorem keeps_epWindow {L : Nat} {s₀ s : State} (p : Nat) (w : Nat) (old : Nat) (new : Nat) (h : Keeps L s₀ s)
    (hl : 1074154376 ||| L = L) : Keeps L s₀ (State.epWindow s p w old new) := by
  unfold State.epWindow
  repeat' first
    | with_reducible exact h
    | exact sub_trans rfl hl
    | with_reducible assumption
    | with_reducible refine keeps_acquire _ _ ?_ ?_
    | (with_reducible refine keeps_acquire' (by assumption) ?_ ?_)
    | with_reducible refine keeps_setPcxPort _ _ ?_ ?_
    | with_reducible refine keeps_release _ _ ?_ ?_
    | simp only [keeps_regs_iff (sub_trans rfl hl)]
    | with_reducible refine keeps_foldl _ _ (fun _ _ hx => ?_) ?_
    | with_reducible refine keeps_ite ?_ ?_
    | split

theorem keeps_epIrq {L : Nat} {s₀ s : State} (p : Nat) (v : Nat) (h : Keeps L s₀ s)
    (hl : 1073741832 ||| L = L) : Keeps L s₀ (State.epIrq s p v) := by
  unfold State.epIrq
  repeat' first
    | with_reducible exact h
    | exact sub_trans rfl hl
    | with_reducible assumption
    | with_reducible refine keeps_sendIrq _ ?_ ?_
    | with_reducible refine keeps_setFld _ _ ?_ ?_

theorem keeps_hostBar2 {L : Nat} {s₀ s : State} (p : Nat) (a2 : HostAccess) (h : Keeps L s₀ s)
    (hl : 1073891208 ||| L = L) : Keeps L s₀ (State.hostBar2 s p a2) := by
  unfold State.hostBar2
  repeat' first
    | with_reducible exact h
    | exact sub_trans rfl hl
    | with_reducible assumption
    | with_reducible refine keeps_setPcxPort _ _ ?_ ?_
    | with_reducible refine keeps_readBerth _ _ _ _ ?_ ?_
    | (with_reducible refine keeps_readBerth' (by assumption) ?_ ?_)
    | with_reducible refine keeps_writeBerth _ _ _ _ ?_ ?_
    | dsimp only
    | with_reducible refine keeps_foldl _ _ (fun _ _ hx => ?_) ?_
    | with_reducible refine keeps_ite ?_ ?_
    | split

theorem keeps_setVolState {L : Nat} {s₀ s : State} (v : Nat) (n : Nat) (h : Keeps L s₀ s)
    (hl : 8 ||| L = L) : Keeps L s₀ (State.setVolState s v n) := by
  unfold State.setVolState
  repeat' first
    | with_reducible exact h
    | exact sub_trans rfl hl
    | with_reducible assumption
    | with_reducible refine keeps_setFld _ _ ?_ ?_

theorem keeps_volResult {L : Nat} {s₀ s : State} (v : Nat) (r : Nat) (h : Keeps L s₀ s)
    (hl : 8 ||| L = L) : Keeps L s₀ (State.volResult s v r) := by
  unfold State.volResult
  repeat' first
    | with_reducible exact h
    | exact sub_trans rfl hl
    | with_reducible assumption
    | with_reducible refine keeps_setFld _ _ ?_ ?_

theorem keeps_issueAll {L : Nat} {s₀ a1 : State} (a0 : List NvmeCmd) (h : Keeps L s₀ a1)
    (hl : 1073741824 ||| L = L) : Keeps L s₀ (State.issueAll a0 a1) := by
  fun_induction State.issueAll a0 a1
  all_goals repeat' first
      | with_reducible exact h
      | exact sub_trans rfl hl
      | with_reducible assumption
      | with_reducible refine keeps_addCmds _ _ ?_ ?_
      | simp only [keeps_pcx_iff (sub_trans rfl hl)]
      | with_reducible refine keeps_foldl _ _ (fun _ _ hx => ?_) ?_
      | with_reducible apply_assumption

theorem keeps_finishVol {L : Nat} {s₀ s : State} (v : Nat) (r : Nat) (h : Keeps L s₀ s)
    (hl : 1073741824 ||| L = L) : Keeps L s₀ (State.finishVol s v r) := by
  unfold State.finishVol
  repeat' first
    | with_reducible exact h
    | exact sub_trans rfl hl
    | with_reducible assumption
    | with_reducible refine keeps_setVol _ _ ?_ ?_

theorem keeps_dropCmds {L : Nat} {s₀ a2 : State} (v : Nat) (a1 : List Nat) (h : Keeps L s₀ a2)
    (hl : 1073741824 ||| L = L) : Keeps L s₀ (State.dropCmds v a1 a2) := by
  fun_induction State.dropCmds v a1 a2
  all_goals repeat' first
      | with_reducible exact h
      | exact sub_trans rfl hl
      | with_reducible assumption
      | with_reducible refine keeps_setDrive _ _ ?_ ?_
      | simp only [keeps_pcx_iff (sub_trans rfl hl)]
      | with_reducible refine keeps_foldl _ _ (fun _ _ hx => ?_) ?_
      | with_reducible apply_assumption

theorem keeps_volFail {L : Nat} {s₀ s : State} (v : Nat) (r : Nat) (h : Keeps L s₀ s)
    (hl : 1073741824 ||| L = L) : Keeps L s₀ (State.volFail s v r) := by
  unfold State.volFail
  repeat' first
    | with_reducible exact h
    | exact sub_trans rfl hl
    | with_reducible assumption
    | with_reducible refine keeps_finishVol _ _ ?_ ?_
    | with_reducible refine keeps_dropCmds _ _ ?_ ?_

theorem keeps_scanTail {L : Nat} {s₀ s : State} (v : Nat) (h : Keeps L s₀ s)
    (hl : 1073741824 ||| L = L) : Keeps L s₀ (State.scanTail s v) := by
  unfold State.scanTail
  repeat' first
    | with_reducible exact h
    | exact sub_trans rfl hl
    | with_reducible assumption
    | with_reducible refine keeps_finishVol _ _ ?_ ?_
    | with_reducible refine keeps_setVol _ _ ?_ ?_
    | with_reducible refine keeps_issueAll _ ?_ ?_
    | dsimp only
    | with_reducible refine keeps_foldl _ _ (fun _ _ hx => ?_) ?_
    | with_reducible refine keeps_ite ?_ ?_

theorem keeps_mountChoose {L : Nat} {s₀ s : State} (v : Nat) (h : Keeps L s₀ s)
    (hl : 1073741824 ||| L = L) : Keeps L s₀ (State.mountChoose s v) := by
  unfold State.mountChoose
  repeat' first
    | with_reducible exact h
    | exact sub_trans rfl hl
    | with_reducible assumption
    | with_reducible refine keeps_finishVol _ _ ?_ ?_
    | with_reducible refine keeps_scanTail _ ?_ ?_
    | with_reducible refine keeps_setVol _ _ ?_ ?_
    | dsimp only
    | with_reducible refine keeps_foldl _ _ (fun _ _ hx => ?_) ?_
    | with_reducible refine keeps_ite ?_ ?_
    | split

theorem keeps_mountStep {L : Nat} {s₀ s : State} (v : Nat) (h : Keeps L s₀ s)
    (hl : 1073741824 ||| L = L) : Keeps L s₀ (State.mountStep s v) := by
  unfold State.mountStep
  repeat' first
    | with_reducible exact h
    | exact sub_trans rfl hl
    | with_reducible assumption
    | with_reducible refine keeps_scanTail _ ?_ ?_
    | with_reducible refine keeps_finishVol _ _ ?_ ?_
    | with_reducible refine keeps_setVol _ _ ?_ ?_
    | dsimp only
    | with_reducible refine keeps_foldl _ _ (fun _ _ hx => ?_) ?_
    | with_reducible refine keeps_ite ?_ ?_

theorem keeps_readPlan {L : Nat} {s₀ s : State} (v : Nat) (h : Keeps L s₀ s)
    (hl : 1073741824 ||| L = L) : Keeps L s₀ (State.readPlan s v) := by
  unfold State.readPlan
  repeat' first
    | with_reducible exact h
    | exact sub_trans rfl hl
    | with_reducible assumption
    | with_reducible refine keeps_issueAll _ ?_ ?_
    | with_reducible refine keeps_finishVol _ _ ?_ ?_
    | with_reducible refine keeps_setVol _ _ ?_ ?_
    | dsimp only
    | with_reducible refine keeps_foldl _ _ (fun _ _ hx => ?_) ?_
    | with_reducible refine keeps_ite ?_ ?_
    | split

theorem keeps_volNext {L : Nat} {s₀ s : State} (v : Nat) (h : Keeps L s₀ s)
    (hl : 1073741824 ||| L = L) : Keeps L s₀ (State.volNext s v) := by
  unfold State.volNext
  repeat' first
    | with_reducible exact h
    | exact sub_trans rfl hl
    | with_reducible assumption
    | with_reducible refine keeps_readPlan _ ?_ ?_
    | with_reducible refine keeps_issueAll _ ?_ ?_
    | with_reducible refine keeps_finishVol _ _ ?_ ?_
    | with_reducible refine keeps_mountChoose _ ?_ ?_
    | with_reducible refine keeps_setVol _ _ ?_ ?_
    | with_reducible refine keeps_mountStep _ ?_ ?_
    | dsimp only
    | with_reducible refine keeps_foldl _ _ (fun _ _ hx => ?_) ?_
    | with_reducible refine keeps_ite ?_ ?_
    | split

theorem keeps_volOp {L : Nat} {s₀ s : State} (v : Nat) (op : Nat) (h : Keeps L s₀ s)
    (hl : 1073741836 ||| L = L) : Keeps L s₀ (State.volOp s v op) := by
  unfold State.volOp
  repeat' first
    | with_reducible exact h
    | exact sub_trans rfl hl
    | with_reducible assumption
    | with_reducible refine keeps_volResult _ _ ?_ ?_
    | with_reducible refine keeps_setVol _ _ ?_ ?_
    | with_reducible refine keeps_setVolState _ _ ?_ ?_
    | with_reducible refine keeps_volNext _ ?_ ?_
    | with_reducible refine keeps_nextFree ?_ ?_
    | dsimp only
    | with_reducible refine keeps_foldl _ _ (fun _ _ hx => ?_) ?_
    | with_reducible refine keeps_ite ?_ ?_

theorem keeps_showVol {L : Nat} {s₀ s : State} (v : Nat) (h : Keeps L s₀ s)
    (hl : 8 ||| L = L) : Keeps L s₀ (State.showVol s v) := by
  unfold State.showVol
  repeat' first
    | with_reducible exact h
    | exact sub_trans rfl hl
    | with_reducible assumption
    | with_reducible refine keeps_setFld _ _ ?_ ?_
    | with_reducible refine keeps_setFld2 _ _ _ ?_ ?_

theorem keeps_moveDrives {L : Nat} {s₀ a3 : State} (a : Nat) (b : Nat) (a2 : List Nat) (h : Keeps L s₀ a3)
    (hl : 8 ||| L = L) : Keeps L s₀ (State.moveDrives a b a2 a3) := by
  fun_induction State.moveDrives a b a2 a3
  all_goals repeat' first
      | with_reducible exact h
      | exact sub_trans rfl hl
      | with_reducible assumption
      | with_reducible refine keeps_setDrvState _ _ ?_ ?_
      | simp only [keeps_regs_iff (sub_trans rfl hl)]
      | with_reducible refine keeps_foldl _ _ (fun _ _ hx => ?_) ?_
      | with_reducible apply_assumption
      | with_reducible refine keeps_ite ?_ ?_

theorem keeps_volOpDone {L : Nat} {s₀ s : State} (v : Nat) (h : Keeps L s₀ s)
    (hl : 1073741832 ||| L = L) : Keeps L s₀ (State.volOpDone s v) := by
  unfold State.volOpDone
  repeat' first
    | with_reducible exact h
    | exact sub_trans rfl hl
    | with_reducible assumption
    | with_reducible refine keeps_setVolState _ _ ?_ ?_
    | with_reducible refine keeps_showVol _ ?_ ?_
    | with_reducible refine keeps_volResult _ _ ?_ ?_
    | with_reducible refine keeps_moveDrives _ _ _ ?_ ?_
    | with_reducible refine keeps_setVol _ _ ?_ ?_
    | dsimp only
    | with_reducible refine keeps_foldl _ _ (fun _ _ hx => ?_) ?_
    | with_reducible refine keeps_ite ?_ ?_
    | split

theorem keeps_volPush {L : Nat} {s₀ s : State} (v : Nat) (a2 : Nat) (index : Nat) (h : Keeps L s₀ s)
    (hl : 412552 ||| L = L) : Keeps L s₀ (State.volPush s v a2 index) := by
  unfold State.volPush
  repeat' first
    | with_reducible exact h
    | exact sub_trans rfl hl
    | with_reducible assumption
    | with_reducible refine keeps_acquire _ _ ?_ ?_
    | (with_reducible refine keeps_acquire' (by assumption) ?_ ?_)
    | with_reducible refine keeps_count _ _ ?_ ?_
    | with_reducible refine keeps_setQueue _ _ ?_ ?_
    | dsimp only
    | with_reducible refine keeps_foldl _ _ (fun _ _ hx => ?_) ?_
    | with_reducible refine keeps_ite ?_ ?_

theorem keeps_planWrite {L : Nat} {s₀ s : State} (v : Nat) (j : PcxJob) (h : Keeps L s₀ s)
    (hl : 1073890188 ||| L = L) : Keeps L s₀ (State.planWrite s v j) := by
  unfold State.planWrite
  repeat' first
    | with_reducible exact h
    | exact sub_trans rfl hl
    | with_reducible assumption
    | with_reducible refine keeps_readBerth _ _ _ _ ?_ ?_
    | (with_reducible refine keeps_readBerth' (by assumption) ?_ ?_)
    | with_reducible refine keeps_finishVol _ _ ?_ ?_
    | with_reducible refine keeps_setVol _ _ ?_ ?_
    | with_reducible refine keeps_volNext _ ?_ ?_
    | with_reducible refine keeps_nextFree ?_ ?_
    | dsimp only
    | with_reducible refine keeps_foldl _ _ (fun _ _ hx => ?_) ?_
    | with_reducible refine keeps_ite ?_ ?_

theorem keeps_jobStart {L : Nat} {s₀ s : State} (v : Nat) (h : Keeps L s₀ s)
    (hl : 1074154380 ||| L = L) : Keeps L s₀ (State.jobStart s v) := by
  unfold State.jobStart
  split
  · exact h
  split
  · rename_i s1 hp; exact keeps_popQ' hp h (sub_trans rfl hl)
  rename_i s1 e hp
  have h1 := keeps_popQ' hp h (sub_trans rfl hl)
  clear hp h
  extract_lets u c put
  split
  rename_i s2 desc hd
  have h2 := keeps_readBerth' hd h1 (sub_trans rfl hl)
  clear hd h1
  extract_lets j x s3 x4
  have hput : ∀ {t : State} w i r, Keeps L s₀ t → Keeps L s₀ (put t w i r) := fun w i r ht => keeps_setVol _ _ ht (sub_trans rfl hl)
  clear_value put
  split
  · exact hput _ _ _ h2
  split
  · exact hput _ _ _ h2
  split
  · exact hput _ _ _ h2
  split
  · exact hput _ _ _ h2
  split
  · split
    · exact hput _ _ _ h2
    · exact keeps_volNext _ (keeps_setVol _ _ (hput _ _ _ h2) (sub_trans rfl hl)) (sub_trans rfl hl)
  split
  rename_i s3 ok e3
  have h3 := keeps_acquire' e3 h2 (sub_trans rfl hl)
  extract_lets j'
  clear_value j'
  split
  · exact hput _ _ _ h3
  split
  · exact keeps_volNext _ (keeps_setVol _ _ (hput _ _ _ h3) (sub_trans rfl hl)) (sub_trans rfl hl)
  split
  · exact hput _ _ _ h3
  · exact keeps_planWrite _ _ (hput _ _ _ h3) (sub_trans rfl hl)

theorem keeps_readParcels {L : Nat} {s₀ : State} (u : Nat) (m : Manifest) : ∀ (a2 : Nat) (a3 : Nat) (a4 : Nat) (a5 : List Byte)
    {s : State} (_ : Keeps L s₀ s) (_ : 937868 ||| L = L), Keeps L s₀ (State.readParcels u m a2 a3 a4 a5 s)
  | 0, _, _, _, _, h, _ => h
  | fuel + 1, seq, ofs, bs, s, h, hl => by
    rw [State.readParcels]
    split
    · exact h
    · refine keeps_readParcels u m fuel _ _ _ ?_ hl
      with_reducible refine keeps_emit _ _ _ _ ?_ (sub_trans rfl hl)
      split
      · exact keeps_nextFree (keeps_nextFree h (sub_trans rfl hl)) (sub_trans rfl hl)
      · exact h

theorem keeps_readEnd {L : Nat} {s₀ s : State} (v : Nat) (j : PcxJob) (h : Keeps L s₀ s)
    (hl : 937868 ||| L = L) : Keeps L s₀ (State.readEnd s v j).1 := by
  unfold State.readEnd
  repeat' first
    | with_reducible exact h
    | exact sub_trans rfl hl
    | with_reducible assumption
    | with_reducible refine keeps_raise _ _ _ _ _ ?_ ?_
    | with_reducible refine keeps_readBerth _ _ _ _ ?_ ?_
    | (with_reducible refine keeps_readBerth' (by assumption) ?_ ?_)
    | with_reducible refine keeps_readParcels _ _ _ _ _ _ ?_ ?_
    | simp only [keeps_fresh_iff (sub_trans rfl hl)]
    | with_reducible refine keeps_foldl _ _ (fun _ _ hx => ?_) ?_
    | with_reducible refine keeps_ite_fst ?_ ?_
    | split

theorem keeps_readEnd' {L : Nat} {s₀ s' : State} {s : State} {v : Nat} {j : PcxJob} {res} (he : State.readEnd s v j = (s', res)) (h : Keeps L s₀ s)
    (hl : 937868 ||| L = L) : Keeps L s₀ s' := by
  have := keeps_readEnd v j h hl
  rwa [he] at this

theorem keeps_abortJobs {L : Nat} {s₀ a2 : State} (v : Nat) (a1 : List QEnt) (h : Keeps L s₀ a2)
    (hl : 412552 ||| L = L) : Keeps L s₀ (State.abortJobs v a1 a2) := by
  fun_induction State.abortJobs v a1 a2
  all_goals repeat' first
      | with_reducible exact h
      | exact sub_trans rfl hl
      | with_reducible assumption
      | with_reducible refine keeps_post _ _ _ _ ?_ ?_
      | with_reducible refine keeps_release _ _ ?_ ?_
      | with_reducible refine keeps_pcxRaise _ _ ?_ ?_
      | simp only [keeps_regs_iff (sub_trans rfl hl), keeps_evSet_iff (sub_trans rfl hl), keeps_evAdd_iff (sub_trans rfl hl), keeps_evPosted_iff (sub_trans rfl hl), keeps_fab_iff (sub_trans rfl hl), keeps_pilots_iff (sub_trans rfl hl), keeps_log_iff (sub_trans rfl hl), keeps_queues_iff (sub_trans rfl hl)]
      | with_reducible refine keeps_foldl _ _ (fun _ _ hx => ?_) ?_
      | with_reducible apply_assumption

theorem keeps_readRec {L : Nat} {s₀ s : State} (v : Nat) (r : Nat) (block : Nat) (n : Nat) (crc : Nat) (h : Keeps L s₀ s)
    (hl : 148360 ||| L = L) : Keeps L s₀ (State.readRec s v r block n crc) := by
  unfold State.readRec
  repeat' first
    | with_reducible exact h
    | exact sub_trans rfl hl
    | with_reducible assumption
    | with_reducible refine keeps_logRec _ _ _ _ ?_ ?_
    | with_reducible refine keeps_diverge _ _ _ _ _ ?_ ?_
    | simp only [keeps_log_iff (sub_trans rfl hl)]
    | with_reducible refine keeps_foldl _ _ (fun _ _ hx => ?_) ?_
    | with_reducible refine keeps_ite ?_ ?_
    | split

theorem keeps_jobEnd {L : Nat} {s₀ s : State} (v : Nat) (h : Keeps L s₀ s)
    (hl : 1074679692 ||| L = L) : Keeps L s₀ (State.jobEnd s v) := by
  unfold State.jobEnd
  extract_lets x
  split
  rotate_left
  · exact h
  rename_i j r ej er
  split
  rename_i s1 r1 n1 e1
  have h1 : Keeps L s₀ s1 := by
    split at e1
    · exact keeps_readEnd' e1 h (sub_trans rfl hl)
    · cases e1; exact h
  clear e1 h
  extract_lets s2 wrote x2 s3 s4 blk m s5 s6 s7 s8 s9
  have h2 : Keeps L s₀ s2 := by
    unfold s2
    split
    · exact keeps_readRec _ _ _ _ _ h1 (sub_trans rfl hl)
    · exact h1
  clear_value s2 wrote x2
  have h3 : Keeps L s₀ s3 := keeps_setVol _ _ h2 (sub_trans rfl hl)
  clear_value s3
  have h4 : Keeps L s₀ s4 := by
    unfold s4
    split
    · exact keeps_showVol _ h3 (sub_trans rfl hl)
    · exact h3
  clear_value s4 blk m
  have h5 : Keeps L s₀ s5 := keeps_releaseAll _ _ h4 (sub_trans rfl hl)
  clear_value s5
  have h6 : Keeps L s₀ s6 := by
    unfold s6
    split
    · exact keeps_berthRel _ _ _ _ h5 (sub_trans rfl hl)
    · exact h5
  clear_value s6
  have h7 : Keeps L s₀ s7 := keeps_volResult _ _ h6 (sub_trans rfl hl)
  clear_value s7
  have h8 : Keeps L s₀ s8 := by
    unfold s8
    split
    · exact h7
    · exact keeps_pcxRaise _ _ h7 (sub_trans rfl hl)
  clear_value s8
  have h9 : Keeps L s₀ s9 := keeps_post _ _ _ _ h8 (sub_trans rfl hl)
  clear_value s9
  split
  · exact keeps_abortJobs _ _ (keeps_setQueue _ _ (keeps_moveDrives _ _ _ (keeps_setVolState _ _ h9 (sub_trans rfl hl)) (sub_trans rfl hl)) (sub_trans rfl hl)) (sub_trans rfl hl)
  · exact h9

theorem keeps_nvmeComplete {L : Nat} {s₀ s : State} (d : Nat) (i : Nat) (ok : Bool) (data : NvmeData) (h : Keeps L s₀ s)
    (hl : 1073759112 ||| L = L) : Keeps L s₀ (State.nvmeComplete s d i ok data) := by
  unfold State.nvmeComplete
  repeat' first
    | with_reducible exact h
    | exact sub_trans rfl hl
    | with_reducible assumption
    | with_reducible refine keeps_volFail _ _ ?_ ?_
    | with_reducible refine keeps_driveFail _ _ ?_ ?_
    | with_reducible refine keeps_count _ _ ?_ ?_
    | with_reducible refine keeps_setVol _ _ ?_ ?_
    | with_reducible refine keeps_setDrive _ _ ?_ ?_
    | with_reducible refine keeps_adminDone _ _ ?_ ?_
    | with_reducible refine keeps_volNext _ ?_ ?_
    | dsimp only
    | with_reducible refine keeps_foldl _ _ (fun _ _ hx => ?_) ?_
    | with_reducible refine keeps_ite ?_ ?_
    | split

theorem keeps_nvmeTimeout {L : Nat} {s₀ s : State} (d : Nat) (h : Keeps L s₀ s)
    (hl : 1073759112 ||| L = L) : Keeps L s₀ (State.nvmeTimeout s d) := by
  unfold State.nvmeTimeout
  repeat' first
    | with_reducible exact h
    | exact sub_trans rfl hl
    | with_reducible assumption
    | with_reducible refine keeps_count _ _ ?_ ?_
    | with_reducible refine keeps_volFail _ _ ?_ ?_
    | with_reducible refine keeps_driveFail _ _ ?_ ?_
    | with_reducible refine keeps_setDrive _ _ ?_ ?_
    | dsimp only
    | with_reducible refine keeps_foldl _ _ (fun _ _ hx => ?_) ?_
    | with_reducible refine keeps_ite ?_ ?_
    | split

theorem keeps_setNet {L : Nat} {s₀ s : State} (q : Nat) (x : NetPort) (h : Keeps L s₀ s)
    (hl : 4294967296 ||| L = L) : Keeps L s₀ (State.setNet s q x) := by
  unfold State.setNet
  repeat' first
    | with_reducible exact h
    | exact sub_trans rfl hl
    | with_reducible assumption
    | simp only [keeps_nets_iff (sub_trans rfl hl)]

theorem keeps_netRaise {L : Nat} {s₀ s : State} (q : Nat) (m : Nat) (h : Keeps L s₀ s)
    (hl : 17288 ||| L = L) : Keeps L s₀ (State.netRaise s q m) := by
  unfold State.netRaise
  repeat' first
    | with_reducible exact h
    | exact sub_trans rfl hl
    | with_reducible assumption
    | with_reducible refine keeps_raise _ _ _ _ _ ?_ ?_

theorem keeps_discardRx {L : Nat} {s₀ s : State} (q : Nat) (h : Keeps L s₀ s)
    (hl : 264 ||| L = L) : Keeps L s₀ (State.discardRx s q) := by
  unfold State.discardRx
  repeat' first
    | with_reducible exact h
    | exact sub_trans rfl hl
    | with_reducible assumption
    | with_reducible refine keeps_count _ _ ?_ ?_

theorem keeps_quiet {L : Nat} {s₀ s : State} (q : Nat) (h : Keeps L s₀ s)
    (hl : 4294967296 ||| L = L) : Keeps L s₀ (State.quiet s q) := by
  unfold State.quiet
  repeat' first
    | with_reducible exact h
    | exact sub_trans rfl hl
    | with_reducible assumption
    | with_reducible refine keeps_setNet _ _ ?_ ?_

theorem keeps_sendNow {L : Nat} {s₀ s : State} (q : Nat) (f : NetFrame) (h : Keeps L s₀ s)
    (hl : 4294967296 ||| L = L) : Keeps L s₀ (State.sendNow s q f) := by
  unfold State.sendNow
  repeat' first
    | with_reducible exact h
    | exact sub_trans rfl hl
    | with_reducible assumption
    | with_reducible refine keeps_setNet _ _ ?_ ?_

theorem keeps_confirmNeigh {L : Nat} {s₀ s : State} (q : Nat) (v6 : Bool) (addr : Nat) (mac : Nat) (h : Keeps L s₀ s)
    (hl : 4294967296 ||| L = L) : Keeps L s₀ (State.confirmNeigh s q v6 addr mac) := by
  unfold State.confirmNeigh
  repeat' first
    | with_reducible exact h
    | exact sub_trans rfl hl
    | with_reducible assumption
    | with_reducible refine keeps_setNet _ _ ?_ ?_

theorem keeps_sendFrame {L : Nat} {s₀ s : State} (q : Nat) (f : NetFrame) (h : Keeps L s₀ s)
    (hl : 4294984584 ||| L = L) : Keeps L s₀ (State.sendFrame s q f) := by
  unfold State.sendFrame
  repeat' first
    | with_reducible exact h
    | exact sub_trans rfl hl
    | with_reducible assumption
    | with_reducible refine keeps_count _ _ ?_ ?_
    | with_reducible refine keeps_netRaise _ _ ?_ ?_
    | with_reducible refine keeps_setNet _ _ ?_ ?_
    | with_reducible refine keeps_sendNow _ _ ?_ ?_
    | dsimp only
    | with_reducible refine keeps_foldl _ _ (fun _ _ hx => ?_) ?_
    | with_reducible refine keeps_ite ?_ ?_
    | split

theorem keeps_neighRequest {L : Nat} {s₀ s : State} (q : Nat) (v6 : Bool) (target : Nat) (sender : Nat) (mac : Nat) (h : Keeps L s₀ s)
    (hl : 4294967560 ||| L = L) : Keeps L s₀ (State.neighRequest s q v6 target sender mac) := by
  unfold State.neighRequest
  repeat' first
    | with_reducible exact h
    | exact sub_trans rfl hl
    | with_reducible assumption
    | with_reducible refine keeps_discardRx _ ?_ ?_
    | with_reducible refine keeps_confirmNeigh _ _ _ _ ?_ ?_
    | with_reducible refine keeps_quiet _ ?_ ?_
    | with_reducible refine keeps_sendNow _ _ ?_ ?_
    | simp only [keeps_regs_iff (sub_trans rfl hl), keeps_evAdd_iff (sub_trans rfl hl), keeps_nets_iff (sub_trans rfl hl)]
    | with_reducible refine keeps_foldl _ _ (fun _ _ hx => ?_) ?_
    | with_reducible refine keeps_ite ?_ ?_

theorem keeps_echoRequest {L : Nat} {s₀ s : State} (q : Nat) (v6 : Bool) (target : Nat) (sender : Nat) (payload : List Byte) (h : Keeps L s₀ s)
    (hl : 4294984584 ||| L = L) : Keeps L s₀ (State.echoRequest s q v6 target sender payload) := by
  unfold State.echoRequest
  repeat' first
    | with_reducible exact h
    | exact sub_trans rfl hl
    | with_reducible assumption
    | with_reducible refine keeps_discardRx _ ?_ ?_
    | with_reducible refine keeps_sendFrame _ _ ?_ ?_
    | with_reducible refine keeps_quiet _ ?_ ?_
    | simp only [keeps_regs_iff (sub_trans rfl hl), keeps_evSet_iff (sub_trans rfl hl), keeps_evAdd_iff (sub_trans rfl hl), keeps_evPosted_iff (sub_trans rfl hl), keeps_pilots_iff (sub_trans rfl hl), keeps_nets_iff (sub_trans rfl hl)]
    | with_reducible refine keeps_foldl _ _ (fun _ _ hx => ?_) ?_
    | with_reducible refine keeps_ite ?_ ?_

theorem keeps_neighTimeout {L : Nat} {s₀ s : State} (q : Nat) (h : Keeps L s₀ s)
    (hl : 4294984584 ||| L = L) : Keeps L s₀ (State.neighTimeout s q) := by
  unfold State.neighTimeout
  repeat' first
    | with_reducible exact h
    | exact sub_trans rfl hl
    | with_reducible assumption
    | with_reducible refine keeps_count _ _ ?_ ?_
    | with_reducible refine keeps_netRaise _ _ ?_ ?_
    | with_reducible refine keeps_setNet _ _ ?_ ?_
    | dsimp only
    | with_reducible refine keeps_foldl _ _ (fun _ _ hx => ?_) ?_
    | with_reducible refine keeps_ite ?_ ?_

theorem keeps_neighExpiry {L : Nat} {s₀ s : State} (q : Nat) (h : Keeps L s₀ s)
    (hl : 4294967296 ||| L = L) : Keeps L s₀ (State.neighExpiry s q) := by
  unfold State.neighExpiry
  repeat' first
    | with_reducible exact h
    | exact sub_trans rfl hl
    | with_reducible assumption
    | with_reducible refine keeps_setNet _ _ ?_ ?_

theorem keeps_netOp {L : Nat} {s₀ s : State} (q : Nat) (op : Nat) (h : Keeps L s₀ s)
    (hl : 8 ||| L = L) : Keeps L s₀ (State.netOp s q op) := by
  unfold State.netOp
  repeat' first
    | with_reducible exact h
    | exact sub_trans rfl hl
    | with_reducible assumption
    | with_reducible refine keeps_setFld _ _ ?_ ?_
    | simp only [keeps_regs_iff (sub_trans rfl hl)]
    | with_reducible refine keeps_foldl _ _ (fun _ _ hx => ?_) ?_
    | with_reducible refine keeps_ite ?_ ?_

theorem keeps_ethUp {L : Nat} {s₀ s : State} (q : Nat) (h : Keeps L s₀ s)
    (hl : 8 ||| L = L) : Keeps L s₀ (State.ethUp s q) := by
  unfold State.ethUp
  repeat' first
    | with_reducible exact h
    | exact sub_trans rfl hl
    | with_reducible assumption
    | with_reducible refine keeps_setFld _ _ ?_ ?_
    | simp only [keeps_regs_iff (sub_trans rfl hl)]
    | with_reducible refine keeps_foldl _ _ (fun _ _ hx => ?_) ?_
    | with_reducible refine keeps_ite ?_ ?_

theorem keeps_ethDown {L : Nat} {s₀ s : State} (q : Nat) (h : Keeps L s₀ s)
    (hl : 17288 ||| L = L) : Keeps L s₀ (State.ethDown s q) := by
  unfold State.ethDown
  repeat' first
    | with_reducible exact h
    | exact sub_trans rfl hl
    | with_reducible assumption
    | with_reducible refine keeps_netRaise _ _ ?_ ?_
    | with_reducible refine keeps_setFld _ _ ?_ ?_
    | simp only [keeps_regs_iff (sub_trans rfl hl), keeps_evSet_iff (sub_trans rfl hl), keeps_evAdd_iff (sub_trans rfl hl), keeps_evPosted_iff (sub_trans rfl hl), keeps_pilots_iff (sub_trans rfl hl)]
    | with_reducible refine keeps_foldl _ _ (fun _ _ hx => ?_) ?_
    | with_reducible refine keeps_ite ?_ ?_

theorem keeps_fecErrors {L : Nat} {s₀ s : State} (q : Nat) (n : Nat) (h : Keeps L s₀ s)
    (hl : 264 ||| L = L) : Keeps L s₀ (State.fecErrors s q n) := by
  unfold State.fecErrors
  repeat' first
    | with_reducible exact h
    | exact sub_trans rfl hl
    | with_reducible assumption
    | with_reducible refine keeps_count _ _ ?_ ?_
    | simp only [keeps_regs_iff (sub_trans rfl hl), keeps_evAdd_iff (sub_trans rfl hl)]
    | with_reducible refine keeps_foldl _ _ (fun _ _ hx => ?_) ?_
    | with_reducible refine keeps_ite ?_ ?_

theorem keeps_setTx {L : Nat} {s₀ s : State} (q : Nat) (t : Nat) (x : TxStream) (h : Keeps L s₀ s)
    (hl : 4294967296 ||| L = L) : Keeps L s₀ (State.setTx s q t x) := by
  unfold State.setTx
  repeat' first
    | with_reducible exact h
    | exact sub_trans rfl hl
    | with_reducible assumption
    | with_reducible refine keeps_setNet _ _ ?_ ?_

theorem keeps_netTxPush {L : Nat} {s₀ s : State} (q : Nat) (t : Nat) (a3 : Nat) (h : Keeps L s₀ s)
    (hl : 279432 ||| L = L) : Keeps L s₀ (State.netTxPush s q t a3) := by
  unfold State.netTxPush
  repeat' first
    | with_reducible exact h
    | exact sub_trans rfl hl
    | with_reducible assumption
    | with_reducible refine keeps_count _ _ ?_ ?_
    | with_reducible refine keeps_pushQ _ _ _ ?_ ?_
    | (with_reducible refine keeps_pushQ' (by assumption) ?_ ?_)
    | with_reducible refine keeps_netRaise _ _ ?_ ?_
    | dsimp only
    | with_reducible refine keeps_foldl _ _ (fun _ _ hx => ?_) ?_
    | with_reducible refine keeps_ite ?_ ?_

theorem keeps_txStart {L : Nat} {s₀ s : State} (q : Nat) (t : Nat) (h : Keeps L s₀ s)
    (hl : 4295379848 ||| L = L) : Keeps L s₀ (State.txStart s q t).1 := by
  unfold State.txStart
  repeat' first
    | with_reducible exact h
    | exact sub_trans rfl hl
    | with_reducible assumption
    | with_reducible refine keeps_acquire _ _ ?_ ?_
    | (with_reducible refine keeps_acquire' (by assumption) ?_ ?_)
    | with_reducible refine keeps_setTx _ _ _ ?_ ?_
    | with_reducible refine keeps_popQ _ ?_ ?_
    | (with_reducible refine keeps_popQ' (by assumption) ?_ ?_)
    | simp only [keeps_regs_iff (sub_trans rfl hl)]
    | with_reducible refine keeps_foldl _ _ (fun _ _ hx => ?_) ?_
    | with_reducible refine keeps_ite_fst ?_ ?_
    | split

theorem keeps_txStart' {L : Nat} {s₀ s' : State} {s : State} {q : Nat} {t : Nat} {res} (he : State.txStart s q t = (s', res)) (h : Keeps L s₀ s)
    (hl : 4295379848 ||| L = L) : Keeps L s₀ s' := by
  have := keeps_txStart q t h hl
  rwa [he] at this

theorem keeps_txSend {L : Nat} {s₀ s : State} (q : Nat) (t : Nat) (o : TxObject) (h : Keeps L s₀ s)
    (hl : 4295388040 ||| L = L) : Keeps L s₀ (State.txSend s q t o) := by
  unfold State.txSend
  repeat' first
    | with_reducible exact h
    | exact sub_trans rfl hl
    | with_reducible assumption
    | with_reducible refine keeps_releasePost _ _ _ ?_ ?_
    | with_reducible refine keeps_sendFrame _ _ ?_ ?_
    | with_reducible refine keeps_count _ _ ?_ ?_
    | with_reducible refine keeps_readBerth _ _ _ _ ?_ ?_
    | (with_reducible refine keeps_readBerth' (by assumption) ?_ ?_)
    | with_reducible refine keeps_setTx _ _ _ ?_ ?_
    | with_reducible refine keeps_pushEts _ _ ?_ ?_
    | simp only [keeps_regs_iff (sub_trans rfl hl)]
    | with_reducible refine keeps_foldl _ _ (fun _ _ hx => ?_) ?_
    | with_reducible refine keeps_ite ?_ ?_
    | split

theorem keeps_txTry {L : Nat} {s₀ : State} (q p : Nat) : ∀ (a : List Nat) {s : State} (_ : Keeps L s₀ s)
    (_ : 4295388040 ||| L = L), Keeps L s₀ (State.txTry q p a s).1
  | [], _, h, _ => h
  | t :: ts, s, h, hl => by
    rw [State.txTry]
    refine keeps_ite_fst (keeps_txTry q p ts h hl) ?_
    split
    rename_i s1 o e1
    have h1 : Keeps L s₀ s1 := by
      split at e1
      · cases e1; exact h
      · exact keeps_txStart' e1 h (sub_trans rfl hl)
    clear e1
    split
    · exact keeps_txTry q p ts h1 hl
    · refine keeps_ite_fst (keeps_txTry q p ts h1 hl) ?_
      exact keeps_txSend _ _ _ (keeps_setNet _ _ h1 (sub_trans rfl hl)) (sub_trans rfl hl)

theorem keeps_txTry' {L : Nat} {s₀ s' : State} {q : Nat} {p : Nat} {a2 : List Nat} {a3 : State} {res} (he : State.txTry q p a2 a3 = (s', res)) (h : Keeps L s₀ a3)
    (hl : 4295388040 ||| L = L) : Keeps L s₀ s' := by
  have := keeps_txTry q p a2 h hl
  rwa [he] at this

theorem keeps_txPrios {L : Nat} {s₀ a2 : State} (q : Nat) (a1 : List Nat) (h : Keeps L s₀ a2)
    (hl : 4295388040 ||| L = L) : Keeps L s₀ (State.txPrios q a1 a2) := by
  fun_induction State.txPrios q a1 a2
  all_goals repeat' first
      | with_reducible exact h
      | exact sub_trans rfl hl
      | with_reducible assumption
      | with_reducible refine keeps_txTry _ _ _ ?_ ?_
      | (with_reducible refine keeps_txTry' (by assumption) ?_ ?_)
      | simp only [keeps_regs_iff (sub_trans rfl hl), keeps_evSet_iff (sub_trans rfl hl), keeps_evAdd_iff (sub_trans rfl hl), keeps_evPosted_iff (sub_trans rfl hl), keeps_fab_iff (sub_trans rfl hl), keeps_time_iff (sub_trans rfl hl), keeps_pilots_iff (sub_trans rfl hl), keeps_log_iff (sub_trans rfl hl), keeps_queues_iff (sub_trans rfl hl), keeps_nets_iff (sub_trans rfl hl)]
      | with_reducible refine keeps_foldl _ _ (fun _ _ hx => ?_) ?_
      | with_reducible apply_assumption

theorem keeps_pierTx {L : Nat} {s₀ s : State} (q : Nat) (h : Keeps L s₀ s)
    (hl : 4295388040 ||| L = L) : Keeps L s₀ (State.pierTx s q) := by
  unfold State.pierTx
  repeat' first
    | with_reducible exact h
    | exact sub_trans rfl hl
    | with_reducible assumption
    | with_reducible refine keeps_txPrios _ _ ?_ ?_
    | with_reducible refine keeps_quiet _ ?_ ?_
    | simp only [keeps_regs_iff (sub_trans rfl hl), keeps_evSet_iff (sub_trans rfl hl), keeps_evAdd_iff (sub_trans rfl hl), keeps_evPosted_iff (sub_trans rfl hl), keeps_fab_iff (sub_trans rfl hl), keeps_time_iff (sub_trans rfl hl), keeps_pilots_iff (sub_trans rfl hl), keeps_log_iff (sub_trans rfl hl), keeps_queues_iff (sub_trans rfl hl), keeps_nets_iff (sub_trans rfl hl)]
    | with_reducible refine keeps_foldl _ _ (fun _ _ hx => ?_) ?_
    | with_reducible refine keeps_ite ?_ ?_

theorem keeps_netOverrun {L : Nat} {s₀ s : State} (q : Nat) (h : Keeps L s₀ s)
    (hl : 4294986632 ||| L = L) : Keeps L s₀ (State.netOverrun s q) := by
  unfold State.netOverrun
  repeat' first
    | with_reducible exact h
    | exact sub_trans rfl hl
    | with_reducible assumption
    | with_reducible refine keeps_netRaise _ _ ?_ ?_
    | with_reducible refine keeps_setNet _ _ ?_ ?_
    | with_reducible refine keeps_declareOverrun _ _ ?_ ?_
    | dsimp only
    | with_reducible refine keeps_foldl _ _ (fun _ _ hx => ?_) ?_
    | with_reducible refine keeps_ite ?_ ?_
    | split

theorem keeps_txDrop {L : Nat} {s₀ s : State} (q : Nat) (t : Nat) (a3 : Nat) (held : Bool) (h : Keeps L s₀ s)
    (hl : 412552 ||| L = L) : Keeps L s₀ (State.txDrop s q t a3 held) := by
  unfold State.txDrop
  repeat' first
    | with_reducible exact h
    | exact sub_trans rfl hl
    | with_reducible assumption
    | with_reducible refine keeps_berthRel _ _ _ _ ?_ ?_
    | with_reducible refine keeps_count _ _ ?_ ?_
    | with_reducible refine keeps_release _ _ ?_ ?_
    | simp only [keeps_regs_iff (sub_trans rfl hl), keeps_evSet_iff (sub_trans rfl hl), keeps_evAdd_iff (sub_trans rfl hl), keeps_evPosted_iff (sub_trans rfl hl), keeps_fab_iff (sub_trans rfl hl), keeps_pilots_iff (sub_trans rfl hl), keeps_log_iff (sub_trans rfl hl), keeps_queues_iff (sub_trans rfl hl)]
    | with_reducible refine keeps_foldl _ _ (fun _ _ hx => ?_) ?_
    | with_reducible refine keeps_ite ?_ ?_

theorem keeps_txDropQueue {L : Nat} {s₀ a4 : State} (q : Nat) (t : Nat) (n : Nat) (a3 : List QEnt) (h : Keeps L s₀ a4)
    (hl : 412552 ||| L = L) : Keeps L s₀ (State.txDropQueue q t n a3 a4) := by
  fun_induction State.txDropQueue q t n a3 a4
  all_goals repeat' first
      | with_reducible exact h
      | exact sub_trans rfl hl
      | with_reducible assumption
      | with_reducible refine keeps_txDrop _ _ _ _ ?_ ?_
      | with_reducible refine keeps_setQueue _ _ ?_ ?_
      | simp only [keeps_regs_iff (sub_trans rfl hl), keeps_evSet_iff (sub_trans rfl hl), keeps_evAdd_iff (sub_trans rfl hl), keeps_evPosted_iff (sub_trans rfl hl), keeps_fab_iff (sub_trans rfl hl), keeps_pilots_iff (sub_trans rfl hl), keeps_log_iff (sub_trans rfl hl), keeps_queues_iff (sub_trans rfl hl)]
      | with_reducible refine keeps_foldl _ _ (fun _ _ hx => ?_) ?_
      | with_reducible apply_assumption
      | with_reducible refine keeps_ite ?_ ?_

theorem keeps_txAbandon {L : Nat} {s₀ : State} (q n : Nat) : ∀ (a : List Nat) {s : State} (_ : Keeps L s₀ s)
    (_ : 4295379848 ||| L = L), Keeps L s₀ (State.txAbandon q n a s)
  | [], _, h, _ => h
  | t :: ts, s, h, hl => by
    rw [State.txAbandon]
    refine keeps_txAbandon q n ts ?_ hl
    with_reducible refine keeps_txDropQueue _ _ _ _ ?_ (sub_trans rfl hl)
    with_reducible refine keeps_setQueue _ _ ?_ (sub_trans rfl hl)
    split
    · exact keeps_ite (keeps_txDrop _ _ _ _ (keeps_setTx _ _ _ h (sub_trans rfl hl)) (sub_trans rfl hl)) h
    · exact h

theorem keeps_netAbandon {L : Nat} {s₀ s : State} (q : Nat) (h : Keeps L s₀ s)
    (hl : 4295379848 ||| L = L) : Keeps L s₀ (State.netAbandon s q) := by
  unfold State.netAbandon
  repeat' first
    | with_reducible exact h
    | exact sub_trans rfl hl
    | with_reducible assumption
    | with_reducible refine keeps_txAbandon _ _ _ ?_ ?_
    | with_reducible refine keeps_countAbandon _ ?_ ?_
    | with_reducible refine keeps_setNet _ _ ?_ ?_
    | dsimp only
    | with_reducible refine keeps_foldl _ _ (fun _ _ hx => ?_) ?_
    | with_reducible refine keeps_ite ?_ ?_
    | split

theorem keeps_netTide {L : Nat} {s₀ s : State} (q : Nat) (h : Keeps L s₀ s)
    (hl : 4096 ||| L = L) : Keeps L s₀ (State.netTide s q) := by
  unfold State.netTide
  repeat' first
    | with_reducible exact h
    | exact sub_trans rfl hl
    | with_reducible assumption
    | with_reducible refine keeps_takeApplied _ _ _ ?_ ?_

theorem keeps_setRx {L : Nat} {s₀ s : State} (q : Nat) (r : Nat) (x : RxStream) (h : Keeps L s₀ s)
    (hl : 4294967296 ||| L = L) : Keeps L s₀ (State.setRx s q r x) := by
  unfold State.setRx
  repeat' first
    | with_reducible exact h
    | exact sub_trans rfl hl
    | with_reducible assumption
    | with_reducible refine keeps_setNet _ _ ?_ ?_

theorem keeps_netRxPush {L : Nat} {s₀ s : State} (q : Nat) (r : Nat) (a3 : Nat) (h : Keeps L s₀ s)
    (hl : 279432 ||| L = L) : Keeps L s₀ (State.netRxPush s q r a3) := by
  unfold State.netRxPush
  repeat' first
    | with_reducible exact h
    | exact sub_trans rfl hl
    | with_reducible assumption
    | with_reducible refine keeps_pushQ _ _ _ ?_ ?_
    | (with_reducible refine keeps_pushQ' (by assumption) ?_ ?_)
    | with_reducible refine keeps_netRaise _ _ ?_ ?_
    | dsimp only
    | with_reducible refine keeps_foldl _ _ (fun _ _ hx => ?_) ?_
    | with_reducible refine keeps_ite ?_ ?_

theorem keeps_netRecs {L : Nat} {s₀ a4 : State} (src : Nat) (sub : Nat) (a2 : Nat) (a3 : List Nat) (h : Keeps L s₀ a4)
    (hl : 148360 ||| L = L) : Keeps L s₀ (State.netRecs src sub a2 a3 a4) := by
  fun_induction State.netRecs src sub a2 a3 a4
  all_goals repeat' first
      | with_reducible exact h
      | exact sub_trans rfl hl
      | with_reducible assumption
      | with_reducible refine keeps_logRec _ _ _ _ ?_ ?_
      | simp only [keeps_regs_iff (sub_trans rfl hl), keeps_evSet_iff (sub_trans rfl hl), keeps_evAdd_iff (sub_trans rfl hl), keeps_evPosted_iff (sub_trans rfl hl), keeps_pilots_iff (sub_trans rfl hl), keeps_log_iff (sub_trans rfl hl)]
      | with_reducible refine keeps_foldl _ _ (fun _ _ hx => ?_) ?_
      | with_reducible apply_assumption

theorem keeps_rxEnd {L : Nat} {s₀ s : State} (q : Nat) (r : Nat) (o : RxObject) (complete : Bool) (h : Keeps L s₀ s)
    (hl : 4295379848 ||| L = L) : Keeps L s₀ (State.rxEnd s q r o complete) := by
  unfold State.rxEnd
  repeat' first
    | with_reducible exact h
    | exact sub_trans rfl hl
    | with_reducible assumption
    | with_reducible refine keeps_count _ _ ?_ ?_
    | with_reducible refine keeps_setRx _ _ _ ?_ ?_
    | with_reducible refine keeps_releasePost _ _ _ ?_ ?_
    | with_reducible refine keeps_netRaise _ _ ?_ ?_
    | with_reducible refine keeps_netRecs _ _ _ _ ?_ ?_
    | dsimp only
    | with_reducible refine keeps_foldl _ _ (fun _ _ hx => ?_) ?_
    | with_reducible refine keeps_ite ?_ ?_

theorem keeps_rxStart {L : Nat} {s₀ s : State} (q : Nat) (r : Nat) (num : Nat) (len : Nat) (head : List Byte) (h : Keeps L s₀ s)
    (hl : 4295379848 ||| L = L) : Keeps L s₀ (State.rxStart s q r num len head) := by
  unfold State.rxStart
  repeat' first
    | with_reducible exact h
    | exact sub_trans rfl hl
    | with_reducible assumption
    | with_reducible refine keeps_acquire _ _ ?_ ?_
    | (with_reducible refine keeps_acquire' (by assumption) ?_ ?_)
    | with_reducible refine keeps_count _ _ ?_ ?_
    | with_reducible refine keeps_setRx _ _ _ ?_ ?_
    | with_reducible refine keeps_popQ _ ?_ ?_
    | (with_reducible refine keeps_popQ' (by assumption) ?_ ?_)
    | simp only [keeps_regs_iff (sub_trans rfl hl)]
    | with_reducible refine keeps_foldl _ _ (fun _ _ hx => ?_) ?_
    | with_reducible refine keeps_ite ?_ ?_
    | split

theorem keeps_rxData {L : Nat} {s₀ s : State} (q : Nat) (r : Nat) (o : RxObject) (pm : Manifest) (ofs : Nat) (last : Bool) (data : List Byte) (h : Keeps L s₀ s)
    (hl : 4295905164 ||| L = L) : Keeps L s₀ (State.rxData s q r o pm ofs last data) := by
  unfold State.rxData
  repeat' first
    | with_reducible exact h
    | exact sub_trans rfl hl
    | with_reducible assumption
    | with_reducible refine keeps_rxEnd _ _ _ _ ?_ ?_
    | with_reducible refine keeps_emit _ _ _ _ ?_ ?_
    | with_reducible refine keeps_setRx _ _ _ ?_ ?_
    | with_reducible refine keeps_nextFree ?_ ?_
    | dsimp only
    | with_reducible refine keeps_foldl _ _ (fun _ _ hx => ?_) ?_
    | with_reducible refine keeps_ite ?_ ?_

theorem keeps_pierRx {L : Nat} {s₀ s : State} (q : Nat) (dport : Nat) (bs : List Byte) (h : Keeps L s₀ s)
    (hl : 4295905164 ||| L = L) : Keeps L s₀ (State.pierRx s q dport bs) := by
  unfold State.pierRx
  repeat' first
    | with_reducible exact h
    | exact sub_trans rfl hl
    | with_reducible assumption
    | with_reducible refine keeps_rxStart _ _ _ _ _ ?_ ?_
    | with_reducible refine keeps_rxEnd _ _ _ _ ?_ ?_
    | with_reducible refine keeps_rxData _ _ _ _ _ _ _ ?_ ?_
    | with_reducible refine keeps_discardRx _ ?_ ?_
    | with_reducible refine keeps_count _ _ ?_ ?_
    | with_reducible refine keeps_setRx _ _ _ ?_ ?_
    | simp only [keeps_fresh_iff (sub_trans rfl hl)]
    | with_reducible refine keeps_foldl _ _ (fun _ _ hx => ?_) ?_
    | with_reducible refine keeps_ite ?_ ?_
    | split

theorem keeps_pierTimeout {L : Nat} {s₀ s : State} (q : Nat) (r : Nat) (h : Keeps L s₀ s)
    (hl : 4295379848 ||| L = L) : Keeps L s₀ (State.pierTimeout s q r) := by
  unfold State.pierTimeout
  repeat' first
    | with_reducible exact h
    | exact sub_trans rfl hl
    | with_reducible assumption
    | with_reducible refine keeps_rxEnd _ _ _ _ ?_ ?_
    | simp only [keeps_regs_iff (sub_trans rfl hl), keeps_evSet_iff (sub_trans rfl hl), keeps_evAdd_iff (sub_trans rfl hl), keeps_evPosted_iff (sub_trans rfl hl), keeps_fab_iff (sub_trans rfl hl), keeps_pilots_iff (sub_trans rfl hl), keeps_log_iff (sub_trans rfl hl), keeps_queues_iff (sub_trans rfl hl), keeps_nets_iff (sub_trans rfl hl)]
    | with_reducible refine keeps_foldl _ _ (fun _ _ hx => ?_) ?_
    | with_reducible refine keeps_ite ?_ ?_
    | split

theorem keeps_setAudPort {L : Nat} {s₀ s : State} (p : Nat) (x : AudPort) (h : Keeps L s₀ s)
    (hl : 17179869184 ||| L = L) : Keeps L s₀ (State.setAudPort s p x) := by
  unfold State.setAudPort
  repeat' first
    | with_reducible exact h
    | exact sub_trans rfl hl
    | with_reducible assumption
    | simp only [keeps_aud_iff (sub_trans rfl hl)]

theorem keeps_setAudState {L : Nat} {s₀ s : State} (p : Nat) (v : Nat) (h : Keeps L s₀ s)
    (hl : 8 ||| L = L) : Keeps L s₀ (State.setAudState s p v) := by
  unfold State.setAudState
  repeat' first
    | with_reducible exact h
    | exact sub_trans rfl hl
    | with_reducible assumption
    | with_reducible refine keeps_setFld _ _ ?_ ?_

theorem keeps_audRaise {L : Nat} {s₀ s : State} (p : Nat) (m : Nat) (h : Keeps L s₀ s)
    (hl : 17288 ||| L = L) : Keeps L s₀ (State.audRaise s p m) := by
  unfold State.audRaise
  repeat' first
    | with_reducible exact h
    | exact sub_trans rfl hl
    | with_reducible assumption
    | with_reducible refine keeps_raiseAt _ _ _ _ _ _ ?_ ?_

theorem keeps_setScgOff {L : Nat} {s₀ s : State} (g : Nat) (v : ℤ) (h : Keeps L s₀ s)
    (hl : 17179869184 ||| L = L) : Keeps L s₀ (State.setScgOff s g v) := by
  unfold State.setScgOff
  repeat' first
    | with_reducible exact h
    | exact sub_trans rfl hl
    | with_reducible assumption
    | simp only [keeps_aud_iff (sub_trans rfl hl)]

theorem keeps_scgSlew {L : Nat} {s₀ a1 : State} (a0 : List Nat) (h : Keeps L s₀ a1)
    (hl : 17179869184 ||| L = L) : Keeps L s₀ (State.scgSlew a0 a1) := by
  fun_induction State.scgSlew a0 a1
  all_goals repeat' first
      | with_reducible exact h
      | exact sub_trans rfl hl
      | with_reducible assumption
      | with_reducible refine keeps_setScgOff _ _ ?_ ?_
      | simp only [keeps_aud_iff (sub_trans rfl hl)]
      | with_reducible refine keeps_foldl _ _ (fun _ _ hx => ?_) ?_
      | with_reducible apply_assumption
      | with_reducible refine keeps_ite ?_ ?_

theorem keeps_scgConfig {L : Nat} {s₀ s : State} (g : Nat) (oldEn : Nat) (oldClk : Nat) (oldDom : Nat) (h : Keeps L s₀ s)
    (hl : 17179869192 ||| L = L) : Keeps L s₀ (State.scgConfig s g oldEn oldClk oldDom) := by
  unfold State.scgConfig
  repeat' first
    | with_reducible exact h
    | exact sub_trans rfl hl
    | with_reducible assumption
    | with_reducible refine keeps_setScgOff _ _ ?_ ?_
    | with_reducible refine keeps_setFld _ _ ?_ ?_
    | dsimp only
    | with_reducible refine keeps_foldl _ _ (fun _ _ hx => ?_) ?_
    | with_reducible refine keeps_ite ?_ ?_

theorem keeps_clkLossAll {L : Nat} {s₀ a2 : State} (g : Nat) (a1 : List Nat) (h : Keeps L s₀ a2)
    (hl : 17288 ||| L = L) : Keeps L s₀ (State.clkLossAll g a1 a2) := by
  fun_induction State.clkLossAll g a1 a2
  all_goals repeat' first
      | with_reducible exact h
      | exact sub_trans rfl hl
      | with_reducible assumption
      | with_reducible refine keeps_audRaise _ _ ?_ ?_
      | simp only [keeps_regs_iff (sub_trans rfl hl), keeps_evSet_iff (sub_trans rfl hl), keeps_evAdd_iff (sub_trans rfl hl), keeps_evPosted_iff (sub_trans rfl hl), keeps_pilots_iff (sub_trans rfl hl)]
      | with_reducible refine keeps_foldl _ _ (fun _ _ hx => ?_) ?_
      | with_reducible apply_assumption
      | with_reducible refine keeps_ite ?_ ?_

theorem keeps_scgLocked {L : Nat} {s₀ s : State} (g : Nat) (h : Keeps L s₀ s)
    (hl : 8 ||| L = L) : Keeps L s₀ (State.scgLocked s g) := by
  unfold State.scgLocked
  repeat' first
    | with_reducible exact h
    | exact sub_trans rfl hl
    | with_reducible assumption
    | with_reducible refine keeps_setFld _ _ ?_ ?_
    | dsimp only
    | with_reducible refine keeps_foldl _ _ (fun _ _ hx => ?_) ?_
    | with_reducible refine keeps_ite ?_ ?_

theorem keeps_scgHoldover {L : Nat} {s₀ s : State} (g : Nat) (h : Keeps L s₀ s)
    (hl : 17288 ||| L = L) : Keeps L s₀ (State.scgHoldover s g) := by
  unfold State.scgHoldover
  repeat' first
    | with_reducible exact h
    | exact sub_trans rfl hl
    | with_reducible assumption
    | with_reducible refine keeps_count _ _ ?_ ?_
    | with_reducible refine keeps_setFld _ _ ?_ ?_
    | with_reducible refine keeps_clkLossAll _ _ ?_ ?_
    | simp only [keeps_regs_iff (sub_trans rfl hl), keeps_evSet_iff (sub_trans rfl hl), keeps_evAdd_iff (sub_trans rfl hl), keeps_evPosted_iff (sub_trans rfl hl), keeps_pilots_iff (sub_trans rfl hl)]
    | with_reducible refine keeps_foldl _ _ (fun _ _ hx => ?_) ?_
    | with_reducible refine keeps_ite ?_ ?_

theorem keeps_audRel {L : Nat} {s₀ s : State} (a1 : Nat) (seq : Nat) (flags : Nat) (h : Keeps L s₀ s)
    (hl : 16648 ||| L = L) : Keeps L s₀ (State.audRel s a1 seq flags) := by
  unfold State.audRel
  repeat' first
    | with_reducible exact h
    | exact sub_trans rfl hl
    | with_reducible assumption
    | with_reducible refine keeps_post _ _ _ _ ?_ ?_

theorem keeps_audSeqNo {L : Nat} {s₀ s : State} (stream : Nat) (tide : Nat) (h : Keeps L s₀ s)
    (hl : 17179869184 ||| L = L) : Keeps L s₀ (State.audSeqNo s stream tide).1 := by
  unfold State.audSeqNo
  repeat' first
    | with_reducible exact h
    | exact sub_trans rfl hl
    | with_reducible assumption
    | simp only [keeps_aud_iff (sub_trans rfl hl)]

theorem keeps_audSeqNo' {L : Nat} {s₀ s' : State} {s : State} {stream : Nat} {tide : Nat} {res} (he : State.audSeqNo s stream tide = (s', res)) (h : Keeps L s₀ s)
    (hl : 17179869184 ||| L = L) : Keeps L s₀ s' := by
  have := keeps_audSeqNo stream tide h hl
  rwa [he] at this

theorem keeps_audSend {L : Nat} {s₀ s : State} (p : Nat) (a2 : Nat) (seq : Nat) (man : Manifest) (bytes : List Byte) (h : Keeps L s₀ s)
    (hl : 17180807048 ||| L = L) : Keeps L s₀ (State.audSend s p a2 seq man bytes) := by
  unfold State.audSend
  repeat' first
    | with_reducible exact h
    | exact sub_trans rfl hl
    | with_reducible assumption
    | with_reducible refine keeps_release _ _ ?_ ?_
    | with_reducible refine keeps_emit _ _ _ _ ?_ ?_
    | with_reducible refine keeps_logRec _ _ _ _ ?_ ?_
    | with_reducible refine keeps_audRel _ _ _ ?_ ?_
    | with_reducible refine keeps_audSeqNo _ _ ?_ ?_

theorem keeps_audClose {L : Nat} {s₀ s : State} (p : Nat) (extra : Nat) (h : Keeps L s₀ s)
    (hl : 17180807048 ||| L = L) : Keeps L s₀ (State.audClose s p extra) := by
  unfold State.audClose
  repeat' first
    | with_reducible exact h
    | exact sub_trans rfl hl
    | with_reducible assumption
    | with_reducible refine keeps_setAudPort _ _ ?_ ?_
    | with_reducible refine keeps_audSend _ _ _ _ _ ?_ ?_
    | dsimp only
    | with_reducible refine keeps_foldl _ _ (fun _ _ hx => ?_) ?_
    | with_reducible refine keeps_ite ?_ ?_
    | split

theorem keeps_audOpen {L : Nat} {s₀ s : State} (p : Nat) (t : Nat) (k : Nat) (h : Keeps L s₀ s)
    (hl : 17180281736 ||| L = L) : Keeps L s₀ (State.audOpen s p t k) := by
  unfold State.audOpen
  repeat' first
    | with_reducible exact h
    | exact sub_trans rfl hl
    | with_reducible assumption
    | with_reducible refine keeps_acquire _ _ ?_ ?_
    | (with_reducible refine keeps_acquire' (by assumption) ?_ ?_)
    | with_reducible refine keeps_setAudPort _ _ ?_ ?_
    | with_reducible refine keeps_setFld _ _ ?_ ?_
    | with_reducible refine keeps_audRaise _ _ ?_ ?_
    | with_reducible refine keeps_count _ _ ?_ ?_
    | with_reducible refine keeps_popQ _ ?_ ?_
    | (with_reducible refine keeps_popQ' (by assumption) ?_ ?_)
    | simp only [keeps_regs_iff (sub_trans rfl hl)]
    | with_reducible refine keeps_foldl _ _ (fun _ _ hx => ?_) ?_
    | with_reducible refine keeps_ite ?_ ?_
    | split

theorem keeps_audStopped {L : Nat} {s₀ s : State} (p : Nat) (h : Keeps L s₀ s)
    (hl : 17180807048 ||| L = L) : Keeps L s₀ (State.audStopped s p) := by
  unfold State.audStopped
  repeat' first
    | with_reducible exact h
    | exact sub_trans rfl hl
    | with_reducible assumption
    | with_reducible refine keeps_setAudState _ _ ?_ ?_
    | with_reducible refine keeps_release _ _ ?_ ?_
    | with_reducible refine keeps_setAudPort _ _ ?_ ?_
    | with_reducible refine keeps_audClose _ _ ?_ ?_
    | with_reducible refine keeps_setQueue _ _ ?_ ?_
    | with_reducible refine keeps_audRel _ _ _ ?_ ?_
    | simp only [keeps_regs_iff (sub_trans rfl hl)]
    | with_reducible refine keeps_foldl _ _ (fun _ _ hx => ?_) ?_
    | with_reducible refine keeps_ite ?_ ?_
    | split

theorem keeps_audMaybeStop {L : Nat} {s₀ s : State} (p : Nat) (h : Keeps L s₀ s)
    (hl : 17180807048 ||| L = L) : Keeps L s₀ (State.audMaybeStop s p) := by
  unfold State.audMaybeStop
  repeat' first
    | with_reducible exact h
    | exact sub_trans rfl hl
    | with_reducible assumption
    | with_reducible refine keeps_audStopped _ ?_ ?_
    | simp only [keeps_regs_iff (sub_trans rfl hl), keeps_evSet_iff (sub_trans rfl hl), keeps_evAdd_iff (sub_trans rfl hl), keeps_evPosted_iff (sub_trans rfl hl), keeps_fab_iff (sub_trans rfl hl), keeps_pilots_iff (sub_trans rfl hl), keeps_log_iff (sub_trans rfl hl), keeps_queues_iff (sub_trans rfl hl), keeps_leaves_iff (sub_trans rfl hl), keeps_aud_iff (sub_trans rfl hl)]
    | with_reducible refine keeps_foldl _ _ (fun _ _ hx => ?_) ?_
    | with_reducible refine keeps_ite ?_ ?_

theorem keeps_audOp {L : Nat} {s₀ s : State} (p : Nat) (op : Nat) (h : Keeps L s₀ s)
    (hl : 17180807048 ||| L = L) : Keeps L s₀ (State.audOp s p op) := by
  unfold State.audOp
  repeat' first
    | with_reducible exact h
    | exact sub_trans rfl hl
    | with_reducible assumption
    | with_reducible refine keeps_setAudPort _ _ ?_ ?_
    | with_reducible refine keeps_setFld _ _ ?_ ?_
    | with_reducible refine keeps_audRaise _ _ ?_ ?_
    | with_reducible refine keeps_setAudState _ _ ?_ ?_
    | with_reducible refine keeps_audStopped _ ?_ ?_
    | with_reducible refine keeps_audMaybeStop _ ?_ ?_
    | dsimp only
    | with_reducible refine keeps_foldl _ _ (fun _ _ hx => ?_) ?_
    | with_reducible refine keeps_ite ?_ ?_

theorem keeps_gateFrame {L : Nat} {s₀ s : State} (p : Nat) (vals : List (Nat × Nat)) (h : Keeps L s₀ s)
    (hl : 17179869184 ||| L = L) : Keeps L s₀ (State.gateFrame s p vals).1 := by
  unfold State.gateFrame
  repeat' first
    | with_reducible exact h
    | exact sub_trans rfl hl
    | with_reducible assumption
    | with_reducible refine keeps_setAudPort _ _ ?_ ?_

theorem keeps_gateFrame' {L : Nat} {s₀ s' : State} {s : State} {p : Nat} {vals : List (Nat × Nat)} {res} (he : State.gateFrame s p vals = (s', res)) (h : Keeps L s₀ s)
    (hl : 17179869184 ||| L = L) : Keeps L s₀ s' := by
  have := keeps_gateFrame p vals h hl
  rwa [he] at this

theorem keeps_audRecord {L : Nat} {s₀ s : State} (p : Nat) (t : Nat) (k : Nat) (samples : List (BitVec 32)) (h : Keeps L s₀ s)
    (hl : 17180807048 ||| L = L) : Keeps L s₀ (State.audRecord s p t k samples) := by
  unfold State.audRecord
  repeat' first
    | with_reducible exact h
    | exact sub_trans rfl hl
    | with_reducible assumption
    | with_reducible refine keeps_gateFrame _ _ ?_ ?_
    | (with_reducible refine keeps_gateFrame' (by assumption) ?_ ?_)
    | with_reducible refine keeps_setAudPort _ _ ?_ ?_
    | with_reducible refine keeps_audClose _ _ ?_ ?_
    | with_reducible refine keeps_audOpen _ _ _ ?_ ?_
    | dsimp only
    | with_reducible refine keeps_foldl _ _ (fun _ _ hx => ?_) ?_
    | with_reducible refine keeps_ite ?_ ?_
    | split

theorem keeps_audUnused {L : Nat} {s₀ s : State} (p : Nat) (a2 : Nat) (seq : Nat) (h : Keeps L s₀ s)
    (hl : 412552 ||| L = L) : Keeps L s₀ (State.audUnused s p a2 seq) := by
  unfold State.audUnused
  repeat' first
    | with_reducible exact h
    | exact sub_trans rfl hl
    | with_reducible assumption
    | with_reducible refine keeps_count _ _ ?_ ?_
    | with_reducible refine keeps_release _ _ ?_ ?_
    | with_reducible refine keeps_audRaise _ _ ?_ ?_
    | with_reducible refine keeps_audRel _ _ _ ?_ ?_

theorem keeps_audHeadAt {L : Nat} {s₀ s : State} (p : Nat) (t : Nat) (a3 : Nat) (h : Keeps L s₀ s)
    (hl : 17180281736 ||| L = L) : Keeps L s₀ (State.audHeadAt s p t a3).1 := by
  fun_induction State.audHeadAt s p t a3
  all_goals repeat' first
      | with_reducible exact h
      | exact sub_trans rfl hl
      | with_reducible assumption
      | with_reducible refine keeps_acquire _ _ ?_ ?_
      | (with_reducible refine keeps_acquire' (by assumption) ?_ ?_)
      | with_reducible refine keeps_readBerth _ _ _ _ ?_ ?_
      | (with_reducible refine keeps_readBerth' (by assumption) ?_ ?_)
      | with_reducible refine keeps_setAudPort _ _ ?_ ?_
      | with_reducible refine keeps_audUnused _ _ _ ?_ ?_
      | with_reducible refine keeps_popQ _ ?_ ?_
      | (with_reducible refine keeps_popQ' (by assumption) ?_ ?_)
      | simp only [keeps_regs_iff (sub_trans rfl hl)]
      | with_reducible refine keeps_foldl _ _ (fun _ _ hx => ?_) ?_
      | with_reducible apply_assumption

theorem keeps_audHeadAt' {L : Nat} {s₀ s' : State} {s : State} {p : Nat} {t : Nat} {a3 : Nat} {res} (he : State.audHeadAt s p t a3 = (s', res)) (h : Keeps L s₀ s)
    (hl : 17180281736 ||| L = L) : Keeps L s₀ s' := by
  have := keeps_audHeadAt p t a3 h hl
  rwa [he] at this

theorem keeps_slipAll {L : Nat} {s₀ a2 : State} (g : Nat) (a1 : List Nat) (h : Keeps L s₀ a2)
    (hl : 17179869184 ||| L = L) : Keeps L s₀ (State.slipAll g a1 a2) := by
  fun_induction State.slipAll g a1 a2
  all_goals repeat' first
      | with_reducible exact h
      | exact sub_trans rfl hl
      | with_reducible assumption
      | with_reducible refine keeps_setAudPort _ _ ?_ ?_
      | dsimp only
      | with_reducible refine keeps_foldl _ _ (fun _ _ hx => ?_) ?_
      | with_reducible apply_assumption
      | with_reducible refine keeps_ite ?_ ?_

theorem keeps_audPlay {L : Nat} {s₀ s : State} (p : Nat) (t : Nat) (h : Keeps L s₀ s)
    (hl : 17180281736 ||| L = L) : Keeps L s₀ (State.audPlay s p t) := by
  unfold State.audPlay
  repeat' first
    | with_reducible exact h
    | exact sub_trans rfl hl
    | with_reducible assumption
    | with_reducible refine keeps_gateFrame _ _ ?_ ?_
    | (with_reducible refine keeps_gateFrame' (by assumption) ?_ ?_)
    | with_reducible refine keeps_audRel _ _ _ ?_ ?_
    | with_reducible refine keeps_audHeadAt _ _ _ ?_ ?_
    | (with_reducible refine keeps_audHeadAt' (by assumption) ?_ ?_)
    | with_reducible refine keeps_count _ _ ?_ ?_
    | with_reducible refine keeps_release _ _ ?_ ?_
    | with_reducible refine keeps_readBerth _ _ _ _ ?_ ?_
    | (with_reducible refine keeps_readBerth' (by assumption) ?_ ?_)
    | with_reducible refine keeps_setAudPort _ _ ?_ ?_
    | with_reducible refine keeps_audRaise _ _ ?_ ?_
    | with_reducible refine keeps_slipAll _ _ ?_ ?_
    | dsimp only
    | with_reducible refine keeps_foldl _ _ (fun _ _ hx => ?_) ?_
    | with_reducible refine keeps_ite ?_ ?_
    | split

theorem keeps_audReplay {L : Nat} {s₀ s : State} (p : Nat) (h : Keeps L s₀ s)
    (hl : 17180807048 ||| L = L) : Keeps L s₀ (State.audReplay s p) := by
  unfold State.audReplay
  repeat' first
    | with_reducible exact h
    | exact sub_trans rfl hl
    | with_reducible assumption
    | with_reducible refine keeps_diverge _ _ _ _ _ ?_ ?_
    | with_reducible refine keeps_acquire _ _ ?_ ?_
    | (with_reducible refine keeps_acquire' (by assumption) ?_ ?_)
    | with_reducible refine keeps_count _ _ ?_ ?_
    | with_reducible refine keeps_readBerth _ _ _ _ ?_ ?_
    | (with_reducible refine keeps_readBerth' (by assumption) ?_ ?_)
    | with_reducible refine keeps_audRaise _ _ ?_ ?_
    | with_reducible refine keeps_popQ _ ?_ ?_
    | (with_reducible refine keeps_popQ' (by assumption) ?_ ?_)
    | with_reducible refine keeps_audSend _ _ _ _ _ ?_ ?_
    | simp only [keeps_regs_iff (sub_trans rfl hl), keeps_log_iff (sub_trans rfl hl)]
    | with_reducible refine keeps_foldl _ _ (fun _ _ hx => ?_) ?_
    | with_reducible refine keeps_ite ?_ ?_
    | split

theorem keeps_audFrame {L : Nat} {s₀ s : State} (p : Nat) (samples : List (BitVec 32)) (h : Keeps L s₀ s)
    (hl : 17180807048 ||| L = L) : Keeps L s₀ (State.audFrame s p samples) := by
  unfold State.audFrame
  repeat' first
    | with_reducible exact h
    | exact sub_trans rfl hl
    | with_reducible assumption
    | with_reducible refine keeps_audRecord _ _ _ _ ?_ ?_
    | with_reducible refine keeps_setAudPort _ _ ?_ ?_
    | with_reducible refine keeps_setFld _ _ ?_ ?_
    | with_reducible refine keeps_setAudState _ _ ?_ ?_
    | with_reducible refine keeps_audPlay _ _ ?_ ?_
    | with_reducible refine keeps_audStopped _ ?_ ?_
    | with_reducible refine keeps_audReplay _ ?_ ?_
    | with_reducible refine keeps_audMaybeStop _ ?_ ?_
    | dsimp only
    | with_reducible refine keeps_foldl _ _ (fun _ _ hx => ?_) ?_
    | with_reducible refine keeps_ite ?_ ?_

theorem keeps_audLost {L : Nat} {s₀ s : State} (p : Nat) (h : Keeps L s₀ s)
    (hl : 17180807048 ||| L = L) : Keeps L s₀ (State.audLost s p) := by
  unfold State.audLost
  repeat' first
    | with_reducible exact h
    | exact sub_trans rfl hl
    | with_reducible assumption
    | with_reducible refine keeps_setAudPort _ _ ?_ ?_
    | with_reducible refine keeps_audClose _ _ ?_ ?_
    | with_reducible refine keeps_setFld _ _ ?_ ?_
    | with_reducible refine keeps_audRaise _ _ ?_ ?_
    | with_reducible refine keeps_audStopped _ ?_ ?_
    | dsimp only
    | with_reducible refine keeps_foldl _ _ (fun _ _ hx => ?_) ?_
    | with_reducible refine keeps_ite ?_ ?_

theorem keeps_audLoss {L : Nat} {s₀ s : State} (p : Nat) (h : Keeps L s₀ s)
    (hl : 17180807048 ||| L = L) : Keeps L s₀ (State.audLoss s p) := by
  unfold State.audLoss
  repeat' first
    | with_reducible exact h
    | exact sub_trans rfl hl
    | with_reducible assumption
    | with_reducible refine keeps_audLost _ ?_ ?_
    | simp only [keeps_regs_iff (sub_trans rfl hl), keeps_evSet_iff (sub_trans rfl hl), keeps_evAdd_iff (sub_trans rfl hl), keeps_evPosted_iff (sub_trans rfl hl), keeps_fab_iff (sub_trans rfl hl), keeps_pilots_iff (sub_trans rfl hl), keeps_log_iff (sub_trans rfl hl), keeps_queues_iff (sub_trans rfl hl), keeps_leaves_iff (sub_trans rfl hl), keeps_aud_iff (sub_trans rfl hl)]
    | with_reducible refine keeps_foldl _ _ (fun _ _ hx => ?_) ?_
    | with_reducible refine keeps_ite ?_ ?_

theorem keeps_zcTimeout {L : Nat} {s₀ s : State} (p : Nat) (j : Nat) (h : Keeps L s₀ s)
    (hl : 17180807048 ||| L = L) : Keeps L s₀ (State.zcTimeout s p j) := by
  unfold State.zcTimeout
  repeat' first
    | with_reducible exact h
    | exact sub_trans rfl hl
    | with_reducible assumption
    | with_reducible refine keeps_setAudPort _ _ ?_ ?_
    | with_reducible refine keeps_audMaybeStop _ ?_ ?_
    | dsimp only
    | with_reducible refine keeps_foldl _ _ (fun _ _ hx => ?_) ?_
    | with_reducible refine keeps_ite ?_ ?_

theorem keeps_audPush {L : Nat} {s₀ s : State} (p : Nat) (a2 : Nat) (h : Keeps L s₀ s)
    (hl : 279432 ||| L = L) : Keeps L s₀ (State.audPush s p a2) := by
  unfold State.audPush
  repeat' first
    | with_reducible exact h
    | exact sub_trans rfl hl
    | with_reducible assumption
    | with_reducible refine keeps_count _ _ ?_ ?_
    | with_reducible refine keeps_pushQ _ _ _ ?_ ?_
    | (with_reducible refine keeps_pushQ' (by assumption) ?_ ?_)
    | with_reducible refine keeps_audRaise _ _ ?_ ?_
    | dsimp only
    | with_reducible refine keeps_foldl _ _ (fun _ _ hx => ?_) ?_
    | with_reducible refine keeps_ite ?_ ?_

theorem keeps_setHead {L : Nat} {s₀ s : State} (a1 : Nat) (x : Head) (h : Keeps L s₀ s)
    (hl : 536870912 ||| L = L) : Keeps L s₀ (State.setHead s a1 x) := by
  unfold State.setHead
  repeat' first
    | with_reducible exact h
    | exact sub_trans rfl hl
    | with_reducible assumption
    | simp only [keeps_scn_iff (sub_trans rfl hl)]

theorem keeps_setLayer {L : Nat} {s₀ s : State} (l : Nat) (x : Layer) (h : Keeps L s₀ s)
    (hl : 536870912 ||| L = L) : Keeps L s₀ (State.setLayer s l x) := by
  unfold State.setLayer
  repeat' first
    | with_reducible exact h
    | exact sub_trans rfl hl
    | with_reducible assumption
    | simp only [keeps_scn_iff (sub_trans rfl hl)]

theorem keeps_scnRaise {L : Nat} {s₀ s : State} (m : Nat) (h : Keeps L s₀ s)
    (hl : 17288 ||| L = L) : Keeps L s₀ (State.scnRaise s m) := by
  unfold State.scnRaise
  repeat' first
    | with_reducible exact h
    | exact sub_trans rfl hl
    | with_reducible assumption
    | with_reducible refine keeps_raise _ _ _ _ _ ?_ ?_

theorem keeps_scnTide {L : Nat} {s₀ s : State}  (h : Keeps L s₀ s)
    (hl : 4096 ||| L = L) : Keeps L s₀ (State.scnTide s) := by
  unfold State.scnTide
  repeat' first
    | with_reducible exact h
    | exact sub_trans rfl hl
    | with_reducible assumption
    | with_reducible refine keeps_takeApplied _ _ _ ?_ ?_

theorem keeps_takeHead {L : Nat} {s₀ s : State} (a1 : Nat) (h : Keeps L s₀ s)
    (hl : 4096 ||| L = L) : Keeps L s₀ (State.takeHead s a1) := by
  unfold State.takeHead
  repeat' first
    | with_reducible exact h
    | exact sub_trans rfl hl
    | with_reducible assumption
    | with_reducible refine keeps_takeApplied _ _ _ ?_ ?_

theorem keeps_takeLayer {L : Nat} {s₀ s : State} (l : Nat) (h : Keeps L s₀ s)
    (hl : 4096 ||| L = L) : Keeps L s₀ (State.takeLayer s l) := by
  unfold State.takeLayer
  repeat' first
    | with_reducible exact h
    | exact sub_trans rfl hl
    | with_reducible assumption
    | with_reducible refine keeps_takeApplied _ _ _ ?_ ?_

theorem keeps_scnPush {L : Nat} {s₀ s : State} (l : Nat) (a2 : Nat) (h : Keeps L s₀ s)
    (hl : 262408 ||| L = L) : Keeps L s₀ (State.scnPush s l a2) := by
  unfold State.scnPush
  repeat' first
    | with_reducible exact h
    | exact sub_trans rfl hl
    | with_reducible assumption
    | with_reducible refine keeps_count _ _ ?_ ?_
    | with_reducible refine keeps_pushQ _ _ _ ?_ ?_
    | (with_reducible refine keeps_pushQ' (by assumption) ?_ ?_)
    | dsimp only
    | with_reducible refine keeps_foldl _ _ (fun _ _ hx => ?_) ?_
    | with_reducible refine keeps_ite ?_ ?_

theorem keeps_scnRelease {L : Nat} {s₀ s : State} (a1 : Nat) (h : Keeps L s₀ s)
    (hl : 412552 ||| L = L) : Keeps L s₀ (State.scnRelease s a1) := by
  unfold State.scnRelease
  repeat' first
    | with_reducible exact h
    | exact sub_trans rfl hl
    | with_reducible assumption
    | with_reducible refine keeps_releasePost _ _ _ ?_ ?_

theorem keeps_layerClear {L : Nat} {s₀ s : State} (l : Nat) (h : Keeps L s₀ s)
    (hl : 537283464 ||| L = L) : Keeps L s₀ (State.layerClear s l) := by
  unfold State.layerClear
  repeat' first
    | with_reducible exact h
    | exact sub_trans rfl hl
    | with_reducible assumption
    | with_reducible refine keeps_setLayer _ _ ?_ ?_
    | with_reducible refine keeps_scnRelease _ ?_ ?_
    | simp only [keeps_regs_iff (sub_trans rfl hl), keeps_evSet_iff (sub_trans rfl hl), keeps_evAdd_iff (sub_trans rfl hl), keeps_evPosted_iff (sub_trans rfl hl), keeps_fab_iff (sub_trans rfl hl), keeps_pilots_iff (sub_trans rfl hl), keeps_log_iff (sub_trans rfl hl), keeps_queues_iff (sub_trans rfl hl), keeps_scn_iff (sub_trans rfl hl)]
    | with_reducible refine keeps_foldl _ _ (fun _ _ hx => ?_) ?_
    | with_reducible refine keeps_ite ?_ ?_
    | split

theorem keeps_skipEntries {L : Nat} {s₀ : State} (l : Nat) : ∀ (a : List QEnt) {s : State} (_ : Keeps L s₀ s)
    (_ : 412552 ||| L = L), Keeps L s₀ (State.skipEntries l a s)
  | [], _, h, _ => h
  | q :: qs, s, h, hl => by
    rw [State.skipEntries]
    refine keeps_skipEntries l qs ?_ hl
    with_reducible refine keeps_count _ _ ?_ (sub_trans rfl hl)
    exact keeps_ite (keeps_scnRelease _ h (sub_trans rfl hl)) (keeps_berthRel _ _ _ _ h (sub_trans rfl hl))

theorem keeps_layerTake {L : Nat} {s₀ s : State} (l : Nat) (a2 : Nat) (held : Bool) (h : Keeps L s₀ s)
    (hl : 537283464 ||| L = L) : Keeps L s₀ (State.layerTake s l a2 held) := by
  unfold State.layerTake
  repeat' first
    | with_reducible exact h
    | exact sub_trans rfl hl
    | with_reducible assumption
    | with_reducible refine keeps_acquire _ _ ?_ ?_
    | (with_reducible refine keeps_acquire' (by assumption) ?_ ?_)
    | with_reducible refine keeps_setLayer _ _ ?_ ?_
    | with_reducible refine keeps_scnRelease _ ?_ ?_
    | with_reducible refine keeps_scnRaise _ ?_ ?_
    | simp only [keeps_regs_iff (sub_trans rfl hl)]
    | with_reducible refine keeps_foldl _ _ (fun _ _ hx => ?_) ?_
    | with_reducible refine keeps_ite ?_ ?_
    | split

theorem keeps_layerFetch {L : Nat} {s₀ s : State} (l : Nat) (h : Keeps L s₀ s)
    (hl : 537283464 ||| L = L) : Keeps L s₀ (State.layerFetch s l) := by
  unfold State.layerFetch
  repeat' first
    | with_reducible exact h
    | exact sub_trans rfl hl
    | with_reducible assumption
    | with_reducible refine keeps_layerClear _ ?_ ?_
    | with_reducible refine keeps_skipEntries _ _ ?_ ?_
    | with_reducible refine keeps_layerTake _ _ _ ?_ ?_
    | with_reducible refine keeps_setQueue _ _ ?_ ?_
    | dsimp only
    | with_reducible refine keeps_foldl _ _ (fun _ _ hx => ?_) ?_
    | with_reducible refine keeps_ite ?_ ?_
    | split

theorem keeps_layerSize {L : Nat} {s₀ s : State} (l : Nat) (h : Keeps L s₀ s)
    (hl : 4 ||| L = L) : Keeps L s₀ (State.layerSize s l).1 := by
  unfold State.layerSize
  repeat' first
    | with_reducible exact h
    | exact sub_trans rfl hl
    | with_reducible assumption
    | with_reducible refine keeps_nextFree ?_ ?_
    | simp only [keeps_fresh_iff (sub_trans rfl hl)]
    | with_reducible refine keeps_foldl _ _ (fun _ _ hx => ?_) ?_
    | with_reducible refine keeps_ite_fst ?_ ?_
    | split

theorem keeps_layerSize' {L : Nat} {s₀ s' : State} {s : State} {l : Nat} {res} (he : State.layerSize s l = (s', res)) (h : Keeps L s₀ s)
    (hl : 4 ||| L = L) : Keeps L s₀ s' := by
  have := keeps_layerSize l h hl
  rwa [he] at this

theorem keeps_latchLayer {L : Nat} {s₀ s : State} (a1 : Nat) (l : Nat) (below : Nat) (keep : Bool) (h : Keeps L s₀ s)
    (hl : 537287564 ||| L = L) : Keeps L s₀ (State.latchLayer s a1 l below keep) := by
  unfold State.latchLayer
  repeat' first
    | with_reducible exact h
    | exact sub_trans rfl hl
    | with_reducible assumption
    | with_reducible refine keeps_layerClear _ ?_ ?_
    | with_reducible refine keeps_layerFetch _ ?_ ?_
    | with_reducible refine keeps_setHead _ _ ?_ ?_
    | with_reducible refine keeps_layerSize _ ?_ ?_
    | (with_reducible refine keeps_layerSize' (by assumption) ?_ ?_)
    | with_reducible refine keeps_takeLayer _ ?_ ?_
    | with_reducible refine keeps_setLayer _ _ ?_ ?_
    | with_reducible refine keeps_scnRaise _ ?_ ?_
    | simp only [keeps_fresh_iff (sub_trans rfl hl)]
    | with_reducible refine keeps_foldl _ _ (fun _ _ hx => ?_) ?_
    | with_reducible refine keeps_ite ?_ ?_

theorem keeps_latchLayers {L : Nat} {s₀ a4 : State} (a0 : Nat) (keep : Bool) (a2 : List Nat) (a3 : Nat) (h : Keeps L s₀ a4)
    (hl : 537287564 ||| L = L) : Keeps L s₀ (State.latchLayers a0 keep a2 a3 a4) := by
  fun_induction State.latchLayers a0 keep a2 a3 a4
  all_goals repeat' first
      | with_reducible exact h
      | exact sub_trans rfl hl
      | with_reducible assumption
      | with_reducible refine keeps_latchLayer _ _ _ _ ?_ ?_
      | simp only [keeps_fresh_iff (sub_trans rfl hl), keeps_regs_iff (sub_trans rfl hl), keeps_evSet_iff (sub_trans rfl hl), keeps_evAdd_iff (sub_trans rfl hl), keeps_evPosted_iff (sub_trans rfl hl), keeps_fab_iff (sub_trans rfl hl), keeps_pilots_iff (sub_trans rfl hl), keeps_log_iff (sub_trans rfl hl), keeps_queues_iff (sub_trans rfl hl), keeps_scn_iff (sub_trans rfl hl)]
      | with_reducible refine keeps_foldl _ _ (fun _ _ hx => ?_) ?_
      | with_reducible apply_assumption

theorem keeps_clearLayers {L : Nat} {s₀ a2 : State} (a0 : Nat) (a1 : List Nat) (h : Keeps L s₀ a2)
    (hl : 537283464 ||| L = L) : Keeps L s₀ (State.clearLayers a0 a1 a2) := by
  fun_induction State.clearLayers a0 a1 a2
  all_goals repeat' first
      | with_reducible exact h
      | exact sub_trans rfl hl
      | with_reducible assumption
      | with_reducible refine keeps_setLayer _ _ ?_ ?_
      | with_reducible refine keeps_layerClear _ ?_ ?_
      | dsimp only
      | with_reducible refine keeps_foldl _ _ (fun _ _ hx => ?_) ?_
      | with_reducible apply_assumption
      | with_reducible refine keeps_ite ?_ ?_

theorem keeps_headStop {L : Nat} {s₀ s : State} (a1 : Nat) (h : Keeps L s₀ s)
    (hl : 537283464 ||| L = L) : Keeps L s₀ (State.headStop s a1) := by
  unfold State.headStop
  repeat' first
    | with_reducible exact h
    | exact sub_trans rfl hl
    | with_reducible assumption
    | with_reducible refine keeps_setHead _ _ ?_ ?_
    | with_reducible refine keeps_clearLayers _ _ ?_ ?_
    | with_reducible refine keeps_setFld _ _ ?_ ?_

theorem keeps_headPsr {L : Nat} {s₀ s : State} (a1 : Nat) (calm : Bool) (h : Keeps L s₀ s)
    (hl : 536870920 ||| L = L) : Keeps L s₀ (State.headPsr s a1 calm) := by
  unfold State.headPsr
  repeat' first
    | with_reducible exact h
    | exact sub_trans rfl hl
    | with_reducible assumption
    | with_reducible refine keeps_setHead _ _ ?_ ?_
    | with_reducible refine keeps_setFld _ _ ?_ ?_

theorem keeps_headLatch {L : Nat} {s₀ s : State} (a1 : Nat) (j : Nat) (base : ℤ) (h : Keeps L s₀ s)
    (hl : 540433292 ||| L = L) : Keeps L s₀ (State.headLatch s a1 j base) := by
  unfold State.headLatch
  repeat' first
    | with_reducible exact h
    | exact sub_trans rfl hl
    | with_reducible assumption
    | with_reducible refine keeps_setHead _ _ ?_ ?_
    | with_reducible refine keeps_headPsr _ _ ?_ ?_
    | with_reducible refine keeps_setFld _ _ ?_ ?_
    | with_reducible refine keeps_latchLayers _ _ _ _ ?_ ?_
    | with_reducible refine keeps_calBoundary _ _ _ ?_ ?_
    | with_reducible refine keeps_setFld2 _ _ _ ?_ ?_
    | dsimp only
    | with_reducible refine keeps_foldl _ _ (fun _ _ hx => ?_) ?_
    | with_reducible refine keeps_ite ?_ ?_

theorem keeps_scnLatch {L : Nat} {s₀ s : State} (a1 : Nat) (h : Keeps L s₀ s)
    (hl : 540433292 ||| L = L) : Keeps L s₀ (State.scnLatch s a1) := by
  unfold State.scnLatch
  repeat' first
    | with_reducible exact h
    | exact sub_trans rfl hl
    | with_reducible assumption
    | with_reducible refine keeps_takeHead _ ?_ ?_
    | with_reducible refine keeps_setHead _ _ ?_ ?_
    | with_reducible refine keeps_headLatch _ _ _ ?_ ?_
    | with_reducible refine keeps_scnRaise _ ?_ ?_
    | with_reducible refine keeps_headStop _ ?_ ?_
    | dsimp only
    | with_reducible refine keeps_foldl _ _ (fun _ _ hx => ?_) ?_
    | with_reducible refine keeps_ite ?_ ?_
    | split

theorem keeps_headStarts {L : Nat} {s₀ a3 : State} (old : State) (n : Nat) (a2 : List Nat) (h : Keeps L s₀ a3)
    (hl : 536870912 ||| L = L) : Keeps L s₀ (State.headStarts old n a2 a3) := by
  fun_induction State.headStarts old n a2 a3
  all_goals repeat' first
      | with_reducible exact h
      | exact sub_trans rfl hl
      | with_reducible assumption
      | with_reducible refine keeps_setHead _ _ ?_ ?_
      | simp only [keeps_scn_iff (sub_trans rfl hl)]
      | with_reducible refine keeps_foldl _ _ (fun _ _ hx => ?_) ?_
      | with_reducible apply_assumption

theorem keeps_scnFrameEnd {L : Nat} {s₀ s : State} (a1 : Nat) (h : Keeps L s₀ s)
    (hl : 537019272 ||| L = L) : Keeps L s₀ (State.scnFrameEnd s a1) := by
  unfold State.scnFrameEnd
  extract_lets x pic crc sent s1 s2 ws
  clear_value pic crc sent
  have h1 : Keeps L s₀ s1 := keeps_setHead _ _ h (sub_trans rfl hl)
  have h2 : Keeps L s₀ s2 := keeps_setFld _ _ (keeps_setFld _ _ h1 (sub_trans rfl hl)) (sub_trans rfl hl)
  clear_value s2 s1 ws
  refine keeps_ite h ?_
  refine keeps_compareRec _ _ _ _ (fun _ hx => ?_) (fun _ hx => hx) (keeps_logRec _ _ _ _ h2 (sub_trans rfl hl)) (sub_trans rfl hl)
  exact keeps_diverge _ _ _ _ _ hx (sub_trans rfl hl)

theorem keeps_scnUnderrun {L : Nat} {s₀ s : State} (a1 : Nat) (line : Nat) (px : Nat) (h : Keeps L s₀ s)
    (hl : 536890248 ||| L = L) : Keeps L s₀ (State.scnUnderrun s a1 line px) := by
  unfold State.scnUnderrun
  repeat' first
    | with_reducible exact h
    | exact sub_trans rfl hl
    | with_reducible assumption
    | with_reducible refine keeps_setHead _ _ ?_ ?_
    | with_reducible refine keeps_declareOverrun _ _ ?_ ?_
    | with_reducible refine keeps_count _ _ ?_ ?_
    | with_reducible refine keeps_scnRaise _ ?_ ?_
    | dsimp only
    | with_reducible refine keeps_foldl _ _ (fun _ _ hx => ?_) ?_
    | with_reducible refine keeps_ite ?_ ?_
    | split

theorem keeps_scnLoad {L : Nat} {s₀ s : State}  (h : Keeps L s₀ s)
    (hl : 537021320 ||| L = L) : Keeps L s₀ (State.scnLoad s) := by
  unfold State.scnLoad
  repeat' first
    | with_reducible exact h
    | exact sub_trans rfl hl
    | with_reducible assumption
    | with_reducible refine keeps_acquire _ _ ?_ ?_
    | (with_reducible refine keeps_acquire' (by assumption) ?_ ?_)
    | with_reducible refine keeps_setFld _ _ ?_ ?_
    | simp only [keeps_regs_iff (sub_trans rfl hl), keeps_scn_iff (sub_trans rfl hl)]
    | with_reducible refine keeps_foldl _ _ (fun _ _ hx => ?_) ?_
    | with_reducible refine keeps_ite ?_ ?_

theorem keeps_scnLoadDone {L : Nat} {s₀ s : State}  (h : Keeps L s₀ s)
    (hl : 537283464 ||| L = L) : Keeps L s₀ (State.scnLoadDone s) := by
  unfold State.scnLoadDone
  repeat' first
    | with_reducible exact h
    | exact sub_trans rfl hl
    | with_reducible assumption
    | with_reducible refine keeps_setFld _ _ ?_ ?_
    | with_reducible refine keeps_scnRelease _ ?_ ?_
    | with_reducible refine keeps_scnRaise _ ?_ ?_
    | simp only [keeps_scn_iff (sub_trans rfl hl)]
    | with_reducible refine keeps_foldl _ _ (fun _ _ hx => ?_) ?_
    | with_reducible refine keeps_ite ?_ ?_
    | split

theorem keeps_headStops {L : Nat} {s₀ a1 : State} (a0 : List Nat) (h : Keeps L s₀ a1)
    (hl : 537283464 ||| L = L) : Keeps L s₀ (State.headStops a0 a1) := by
  fun_induction State.headStops a0 a1
  all_goals repeat' first
      | with_reducible exact h
      | exact sub_trans rfl hl
      | with_reducible assumption
      | with_reducible refine keeps_headStop _ ?_ ?_
      | with_reducible refine keeps_setHead _ _ ?_ ?_
      | simp only [keeps_regs_iff (sub_trans rfl hl), keeps_evSet_iff (sub_trans rfl hl), keeps_evAdd_iff (sub_trans rfl hl), keeps_evPosted_iff (sub_trans rfl hl), keeps_fab_iff (sub_trans rfl hl), keeps_pilots_iff (sub_trans rfl hl), keeps_log_iff (sub_trans rfl hl), keeps_queues_iff (sub_trans rfl hl), keeps_scn_iff (sub_trans rfl hl)]
      | with_reducible refine keeps_foldl _ _ (fun _ _ hx => ?_) ?_
      | with_reducible apply_assumption

theorem keeps_dropEntries {L : Nat} {s₀ a1 : State} (a0 : List QEnt) (h : Keeps L s₀ a1)
    (hl : 412552 ||| L = L) : Keeps L s₀ (State.dropEntries a0 a1) := by
  fun_induction State.dropEntries a0 a1
  all_goals repeat' first
      | with_reducible exact h
      | exact sub_trans rfl hl
      | with_reducible assumption
      | with_reducible refine keeps_scnRelease _ ?_ ?_
      | simp only [keeps_regs_iff (sub_trans rfl hl), keeps_evSet_iff (sub_trans rfl hl), keeps_evAdd_iff (sub_trans rfl hl), keeps_evPosted_iff (sub_trans rfl hl), keeps_fab_iff (sub_trans rfl hl), keeps_pilots_iff (sub_trans rfl hl), keeps_log_iff (sub_trans rfl hl), keeps_queues_iff (sub_trans rfl hl)]
      | with_reducible refine keeps_foldl _ _ (fun _ _ hx => ?_) ?_
      | with_reducible apply_assumption
      | with_reducible refine keeps_ite ?_ ?_

theorem keeps_dropQueues {L : Nat} {s₀ a1 : State} (a0 : List Nat) (h : Keeps L s₀ a1)
    (hl : 412552 ||| L = L) : Keeps L s₀ (State.dropQueues a0 a1) := by
  fun_induction State.dropQueues a0 a1
  all_goals repeat' first
      | with_reducible exact h
      | exact sub_trans rfl hl
      | with_reducible assumption
      | with_reducible refine keeps_dropEntries _ ?_ ?_
      | with_reducible refine keeps_setQueue _ _ ?_ ?_
      | simp only [keeps_regs_iff (sub_trans rfl hl), keeps_evSet_iff (sub_trans rfl hl), keeps_evAdd_iff (sub_trans rfl hl), keeps_evPosted_iff (sub_trans rfl hl), keeps_fab_iff (sub_trans rfl hl), keeps_pilots_iff (sub_trans rfl hl), keeps_log_iff (sub_trans rfl hl), keeps_queues_iff (sub_trans rfl hl)]
      | with_reducible refine keeps_foldl _ _ (fun _ _ hx => ?_) ?_
      | with_reducible apply_assumption

theorem keeps_wakeHeads {L : Nat} {s₀ a1 : State} (a0 : List Nat) (h : Keeps L s₀ a1)
    (hl : 536870912 ||| L = L) : Keeps L s₀ (State.wakeHeads a0 a1) := by
  fun_induction State.wakeHeads a0 a1
  all_goals repeat' first
      | with_reducible exact h
      | exact sub_trans rfl hl
      | with_reducible assumption
      | with_reducible refine keeps_setHead _ _ ?_ ?_
      | dsimp only
      | with_reducible refine keeps_foldl _ _ (fun _ _ hx => ?_) ?_
      | with_reducible apply_assumption

theorem keeps_scnOp {L : Nat} {s₀ s : State} (op : Nat) (h : Keeps L s₀ s)
    (hl : 537283464 ||| L = L) : Keeps L s₀ (State.scnOp s op) := by
  unfold State.scnOp
  repeat' first
    | with_reducible exact h
    | exact sub_trans rfl hl
    | with_reducible assumption
    | with_reducible refine keeps_wakeHeads _ ?_ ?_
    | with_reducible refine keeps_dropQueues _ ?_ ?_
    | with_reducible refine keeps_setFld _ _ ?_ ?_
    | with_reducible refine keeps_scnRelease _ ?_ ?_
    | with_reducible refine keeps_headStops _ ?_ ?_
    | simp only [keeps_scn_iff (sub_trans rfl hl)]
    | with_reducible refine keeps_foldl _ _ (fun _ _ hx => ?_) ?_
    | with_reducible refine keeps_ite ?_ ?_
    | split

theorem keeps_secRaise {L : Nat} {s₀ s : State} (m : Nat) (h : Keeps L s₀ s)
    (hl : 17288 ||| L = L) : Keeps L s₀ (State.secRaise s m) := by
  unfold State.secRaise
  repeat' first
    | with_reducible exact h
    | exact sub_trans rfl hl
    | with_reducible assumption
    | with_reducible refine keeps_raise _ _ _ _ _ ?_ ?_

theorem keeps_setSec {L : Nat} {s₀ s : State} (x : Sec) (h : Keeps L s₀ s)
    (hl : 2147483648 ||| L = L) : Keeps L s₀ (State.setSec s x) := by
  unfold State.setSec
  repeat' first
    | with_reducible exact h
    | exact sub_trans rfl hl
    | with_reducible assumption
    | simp only [keeps_sec_iff (sub_trans rfl hl)]

theorem keeps_drew {L : Nat} {s₀ s : State} (n : Nat) (h : Keeps L s₀ s)
    (hl : 4 ||| L = L) : Keeps L s₀ (State.drew s n) := by
  unfold State.drew
  repeat' first
    | with_reducible exact h
    | exact sub_trans rfl hl
    | with_reducible assumption
    | simp only [keeps_fresh_iff (sub_trans rfl hl)]

theorem keeps_showLocal {L : Nat} {s₀ s : State} (i : Nat) (h : Keeps L s₀ s)
    (hl : 8 ||| L = L) : Keeps L s₀ (State.showLocal s i) := by
  unfold State.showLocal
  repeat' first
    | with_reducible exact h
    | exact sub_trans rfl hl
    | with_reducible assumption
    | with_reducible refine keeps_setFld _ _ ?_ ?_

theorem keeps_showSec {L : Nat} {s₀ s : State}  (h : Keeps L s₀ s)
    (hl : 8 ||| L = L) : Keeps L s₀ (State.showSec s) := by
  unfold State.showSec
  repeat' first
    | with_reducible exact h
    | exact sub_trans rfl hl
    | with_reducible assumption
    | with_reducible refine keeps_showLocal _ ?_ ?_
    | with_reducible refine keeps_setFld _ _ ?_ ?_

theorem keeps_ready {L : Nat} {s₀ s : State} (ok : Bool) (h : Keeps L s₀ s)
    (hl : 8 ||| L = L) : Keeps L s₀ (State.ready s ok) := by
  unfold State.ready
  repeat' first
    | with_reducible exact h
    | exact sub_trans rfl hl
    | with_reducible assumption
    | with_reducible refine keeps_showSec ?_ ?_
    | with_reducible refine keeps_setFld _ _ ?_ ?_
    | with_reducible refine keeps_setFld2 _ _ _ ?_ ?_
    | dsimp only
    | with_reducible refine keeps_foldl _ _ (fun _ _ hx => ?_) ?_
    | with_reducible refine keeps_ite ?_ ?_

theorem keeps_secInput {L : Nat} {s₀ s : State} (a1 : Nat) (n : Nat) (h : Keeps L s₀ s)
    (hl : 150408 ||| L = L) : Keeps L s₀ (State.secInput s a1 n).1 := by
  unfold State.secInput
  repeat' first
    | with_reducible exact h
    | exact sub_trans rfl hl
    | with_reducible assumption
    | with_reducible refine keeps_acquire _ _ ?_ ?_
    | (with_reducible refine keeps_acquire' (by assumption) ?_ ?_)
    | with_reducible refine keeps_releaseTable _ _ ?_ ?_
    | with_reducible refine keeps_readBerth _ _ _ _ ?_ ?_
    | (with_reducible refine keeps_readBerth' (by assumption) ?_ ?_)
    | simp only [keeps_regs_iff (sub_trans rfl hl)]
    | with_reducible refine keeps_foldl _ _ (fun _ _ hx => ?_) ?_
    | with_reducible refine keeps_ite_fst ?_ ?_
    | split

theorem keeps_secInput' {L : Nat} {s₀ s' : State} {s : State} {a1 : Nat} {n : Nat} {res} (he : State.secInput s a1 n = (s', res)) (h : Keeps L s₀ s)
    (hl : 150408 ||| L = L) : Keeps L s₀ s' := by
  have := keeps_secInput a1 n h hl
  rwa [he] at this

theorem keeps_secOutput {L : Nat} {s₀ s : State} (a1 : Nat) (bs : List Byte) (h : Keeps L s₀ s)
    (hl : 151432 ||| L = L) : Keeps L s₀ (State.secOutput s a1 bs).1 := by
  unfold State.secOutput
  repeat' first
    | with_reducible exact h
    | exact sub_trans rfl hl
    | with_reducible assumption
    | with_reducible refine keeps_acquire _ _ ?_ ?_
    | (with_reducible refine keeps_acquire' (by assumption) ?_ ?_)
    | with_reducible refine keeps_releaseTable _ _ ?_ ?_
    | with_reducible refine keeps_writeBerth _ _ _ _ ?_ ?_
    | simp only [keeps_regs_iff (sub_trans rfl hl)]
    | with_reducible refine keeps_foldl _ _ (fun _ _ hx => ?_) ?_
    | with_reducible refine keeps_ite_fst ?_ ?_
    | split

theorem keeps_secOutput' {L : Nat} {s₀ s' : State} {s : State} {a1 : Nat} {bs : List Byte} {res} (he : State.secOutput s a1 bs = (s', res)) (h : Keeps L s₀ s)
    (hl : 151432 ||| L = L) : Keeps L s₀ s' := by
  have := keeps_secOutput a1 bs h hl
  rwa [he] at this

theorem keeps_ownerBurn {L : Nat} {s₀ s : State} (k : Nat) (a2 : Nat) (burnt : Bool) (h : Keeps L s₀ s)
    (hl : 2147634056 ||| L = L) : Keeps L s₀ (State.ownerBurn s k a2 burnt).1 := by
  unfold State.ownerBurn
  repeat' first
    | with_reducible exact h
    | exact sub_trans rfl hl
    | with_reducible assumption
    | with_reducible refine keeps_setSec _ ?_ ?_
    | with_reducible refine keeps_secInput _ _ ?_ ?_
    | (with_reducible refine keeps_secInput' (by assumption) ?_ ?_)
    | with_reducible refine keeps_showSec ?_ ?_
    | simp only [keeps_regs_iff (sub_trans rfl hl)]
    | with_reducible refine keeps_foldl _ _ (fun _ _ hx => ?_) ?_
    | with_reducible refine keeps_ite_fst ?_ ?_
    | split

theorem keeps_ownerBurn' {L : Nat} {s₀ s' : State} {s : State} {k : Nat} {a2 : Nat} {burnt : Bool} {res} (he : State.ownerBurn s k a2 burnt = (s', res)) (h : Keeps L s₀ s)
    (hl : 2147634056 ||| L = L) : Keeps L s₀ s' := by
  have := keeps_ownerBurn k a2 burnt h hl
  rwa [he] at this

theorem keeps_ownerRevoke {L : Nat} {s₀ s : State} (k : Nat) (a2 : Nat) (burnt : Bool) (h : Keeps L s₀ s)
    (hl : 2147634056 ||| L = L) : Keeps L s₀ (State.ownerRevoke s k a2 burnt).1 := by
  unfold State.ownerRevoke
  repeat' first
    | with_reducible exact h
    | exact sub_trans rfl hl
    | with_reducible assumption
    | with_reducible refine keeps_setSec _ ?_ ?_
    | with_reducible refine keeps_secInput _ _ ?_ ?_
    | (with_reducible refine keeps_secInput' (by assumption) ?_ ?_)
    | with_reducible refine keeps_showSec ?_ ?_
    | simp only [keeps_regs_iff (sub_trans rfl hl)]
    | with_reducible refine keeps_foldl _ _ (fun _ _ hx => ?_) ?_
    | with_reducible refine keeps_ite_fst ?_ ?_
    | split

theorem keeps_ownerRevoke' {L : Nat} {s₀ s' : State} {s : State} {k : Nat} {a2 : Nat} {burnt : Bool} {res} (he : State.ownerRevoke s k a2 burnt = (s', res)) (h : Keeps L s₀ s)
    (hl : 2147634056 ||| L = L) : Keeps L s₀ s' := by
  have := keeps_ownerRevoke k a2 burnt h hl
  rwa [he] at this

theorem keeps_policyBurn {L : Nat} {s₀ s : State} (mask : Nat) (burnt : Bool) (h : Keeps L s₀ s)
    (hl : 2147483656 ||| L = L) : Keeps L s₀ (State.policyBurn s mask burnt).1 := by
  unfold State.policyBurn
  repeat' first
    | with_reducible exact h
    | exact sub_trans rfl hl
    | with_reducible assumption
    | with_reducible refine keeps_setSec _ ?_ ?_
    | with_reducible refine keeps_showSec ?_ ?_
    | simp only [keeps_regs_iff (sub_trans rfl hl)]
    | with_reducible refine keeps_foldl _ _ (fun _ _ hx => ?_) ?_
    | with_reducible refine keeps_ite_fst ?_ ?_

theorem keeps_policyBurn' {L : Nat} {s₀ s' : State} {s : State} {mask : Nat} {burnt : Bool} {res} (he : State.policyBurn s mask burnt = (s', res)) (h : Keeps L s₀ s)
    (hl : 2147483656 ||| L = L) : Keeps L s₀ s' := by
  have := keeps_policyBurn mask burnt h hl
  rwa [he] at this

theorem keeps_recipEntries {L : Nat} {s₀ : State} (ck id : List Byte) : ∀ (a : List Nat) {s : State} (_ : Keeps L s₀ s)
    (_ : 4 ||| L = L), Keeps L s₀ (State.recipEntries ck id a s).1
  | [], _, h, _ => h
  | r :: rs, s, h, hl => by
    rw [State.recipEntries]
    split
    rename_i s1 rest e1
    have h1 := keeps_recipEntries ck id rs (keeps_drew 12 (keeps_drew 48 h (sub_trans rfl hl)) (sub_trans rfl hl)) hl
    rw [e1] at h1
    exact h1

theorem keeps_recipEntries' {L : Nat} {s₀ s' : State} {ck : List Byte} {id : List Byte} {a2 : List Nat} {a3 : State} {res} (he : State.recipEntries ck id a2 a3 = (s', res)) (h : Keeps L s₀ a3)
    (hl : 4 ||| L = L) : Keeps L s₀ s' := by
  have := keeps_recipEntries ck id a2 h hl
  rwa [he] at this

theorem keeps_recipSet {L : Nat} {s₀ s : State} (r : Nat) (a2 : Nat) (h : Keeps L s₀ s)
    (hl : 2147634056 ||| L = L) : Keeps L s₀ (State.recipSet s r a2).1 := by
  unfold State.recipSet
  repeat' first
    | with_reducible exact h
    | exact sub_trans rfl hl
    | with_reducible assumption
    | with_reducible refine keeps_secInput _ _ ?_ ?_
    | (with_reducible refine keeps_secInput' (by assumption) ?_ ?_)
    | with_reducible refine keeps_setSec _ ?_ ?_
    | simp only [keeps_regs_iff (sub_trans rfl hl)]
    | with_reducible refine keeps_foldl _ _ (fun _ _ hx => ?_) ?_
    | with_reducible refine keeps_ite_fst ?_ ?_
    | split

theorem keeps_recipSet' {L : Nat} {s₀ s' : State} {s : State} {r : Nat} {a2 : Nat} {res} (he : State.recipSet s r a2 = (s', res)) (h : Keeps L s₀ s)
    (hl : 2147634056 ||| L = L) : Keeps L s₀ s' := by
  have := keeps_recipSet r a2 h hl
  rwa [he] at this

theorem keeps_clipOpen {L : Nat} {s₀ s : State} (mask : Nat) (a2 : Nat) (h : Keeps L s₀ s)
    (hl : 2147635084 ||| L = L) : Keeps L s₀ (State.clipOpen s mask a2).1 := by
  unfold State.clipOpen
  repeat' first
    | with_reducible exact h
    | exact sub_trans rfl hl
    | with_reducible assumption
    | with_reducible refine keeps_setSec _ ?_ ?_
    | with_reducible refine keeps_recipEntries _ _ _ ?_ ?_
    | (with_reducible refine keeps_recipEntries' (by assumption) ?_ ?_)
    | with_reducible refine keeps_secOutput _ _ ?_ ?_
    | (with_reducible refine keeps_secOutput' (by assumption) ?_ ?_)
    | with_reducible refine keeps_drew _ ?_ ?_
    | simp only [keeps_fresh_iff (sub_trans rfl hl)]
    | with_reducible refine keeps_foldl _ _ (fun _ _ hx => ?_) ?_
    | with_reducible refine keeps_ite_fst ?_ ?_
    | split

theorem keeps_clipOpen' {L : Nat} {s₀ s' : State} {s : State} {mask : Nat} {a2 : Nat} {res} (he : State.clipOpen s mask a2 = (s', res)) (h : Keeps L s₀ s)
    (hl : 2147635084 ||| L = L) : Keeps L s₀ s' := by
  have := keeps_clipOpen mask a2 h hl
  rwa [he] at this

theorem keeps_clipLoad {L : Nat} {s₀ s : State} (a1 : Nat) (h : Keeps L s₀ s)
    (hl : 2147634056 ||| L = L) : Keeps L s₀ (State.clipLoad s a1).1 := by
  unfold State.clipLoad
  repeat' first
    | with_reducible exact h
    | exact sub_trans rfl hl
    | with_reducible assumption
    | with_reducible refine keeps_setSec _ ?_ ?_
    | with_reducible refine keeps_secInput _ _ ?_ ?_
    | (with_reducible refine keeps_secInput' (by assumption) ?_ ?_)
    | simp only [keeps_regs_iff (sub_trans rfl hl)]
    | with_reducible refine keeps_foldl _ _ (fun _ _ hx => ?_) ?_
    | with_reducible refine keeps_ite_fst ?_ ?_
    | split

theorem keeps_clipLoad' {L : Nat} {s₀ s' : State} {s : State} {a1 : Nat} {res} (he : State.clipLoad s a1 = (s', res)) (h : Keeps L s₀ s)
    (hl : 2147634056 ||| L = L) : Keeps L s₀ s' := by
  have := keeps_clipLoad a1 h hl
  rwa [he] at this

theorem keeps_clipClose {L : Nat} {s₀ s : State}  (h : Keeps L s₀ s)
    (hl : 2147483648 ||| L = L) : Keeps L s₀ (State.clipClose s).1 := by
  unfold State.clipClose
  repeat' first
    | with_reducible exact h
    | exact sub_trans rfl hl
    | with_reducible assumption
    | with_reducible refine keeps_setSec _ ?_ ?_
    | simp only [keeps_sec_iff (sub_trans rfl hl)]
    | with_reducible refine keeps_foldl _ _ (fun _ _ hx => ?_) ?_
    | with_reducible refine keeps_ite_fst ?_ ?_

theorem keeps_clipClose' {L : Nat} {s₀ s' : State} {s : State} {res} (he : State.clipClose s = (s', res)) (h : Keeps L s₀ s)
    (hl : 2147483648 ||| L = L) : Keeps L s₀ s' := by
  have := keeps_clipClose  h hl
  rwa [he] at this

theorem keeps_arrayKey {L : Nat} {s₀ s : State} (a1 : Nat) (h : Keeps L s₀ s)
    (hl : 2147634056 ||| L = L) : Keeps L s₀ (State.arrayKey s a1).1 := by
  unfold State.arrayKey
  repeat' first
    | with_reducible exact h
    | exact sub_trans rfl hl
    | with_reducible assumption
    | with_reducible refine keeps_setSec _ ?_ ?_
    | with_reducible refine keeps_setFld _ _ ?_ ?_
    | with_reducible refine keeps_secInput _ _ ?_ ?_
    | (with_reducible refine keeps_secInput' (by assumption) ?_ ?_)
    | simp only [keeps_regs_iff (sub_trans rfl hl)]
    | with_reducible refine keeps_foldl _ _ (fun _ _ hx => ?_) ?_
    | with_reducible refine keeps_ite_fst ?_ ?_
    | split

theorem keeps_arrayKey' {L : Nat} {s₀ s' : State} {s : State} {a1 : Nat} {res} (he : State.arrayKey s a1 = (s', res)) (h : Keeps L s₀ s)
    (hl : 2147634056 ||| L = L) : Keeps L s₀ s' := by
  have := keeps_arrayKey a1 h hl
  rwa [he] at this

theorem keeps_certLoad {L : Nat} {s₀ s : State} (a1 : Nat) (h : Keeps L s₀ s)
    (hl : 2147634056 ||| L = L) : Keeps L s₀ (State.certLoad s a1).1 := by
  unfold State.certLoad
  repeat' first
    | with_reducible exact h
    | exact sub_trans rfl hl
    | with_reducible assumption
    | with_reducible refine keeps_setSec _ ?_ ?_
    | with_reducible refine keeps_setFld _ _ ?_ ?_
    | with_reducible refine keeps_secInput _ _ ?_ ?_
    | (with_reducible refine keeps_secInput' (by assumption) ?_ ?_)
    | simp only [keeps_regs_iff (sub_trans rfl hl)]
    | with_reducible refine keeps_foldl _ _ (fun _ _ hx => ?_) ?_
    | with_reducible refine keeps_ite_fst ?_ ?_
    | split

theorem keeps_certLoad' {L : Nat} {s₀ s' : State} {s : State} {a1 : Nat} {res} (he : State.certLoad s a1 = (s', res)) (h : Keeps L s₀ s)
    (hl : 2147634056 ||| L = L) : Keeps L s₀ s' := by
  have := keeps_certLoad a1 h hl
  rwa [he] at this

theorem keeps_setChain {L : Nat} {s₀ s : State} (d : Nat) (x : Chain) (h : Keeps L s₀ s)
    (hl : 2147483648 ||| L = L) : Keeps L s₀ (State.setChain s d x) := by
  unfold State.setChain
  repeat' first
    | with_reducible exact h
    | exact sub_trans rfl hl
    | with_reducible assumption
    | with_reducible refine keeps_setSec _ ?_ ?_

theorem keeps_attest {L : Nat} {s₀ s : State} (a1 : Nat) (h : Keeps L s₀ s)
    (hl : 151436 ||| L = L) : Keeps L s₀ (State.attest s a1).1 := by
  unfold State.attest
  repeat' first
    | with_reducible exact h
    | exact sub_trans rfl hl
    | with_reducible assumption
    | with_reducible refine keeps_drew _ ?_ ?_
    | with_reducible refine keeps_secOutput _ _ ?_ ?_
    | (with_reducible refine keeps_secOutput' (by assumption) ?_ ?_)
    | simp only [keeps_fresh_iff (sub_trans rfl hl)]
    | with_reducible refine keeps_foldl _ _ (fun _ _ hx => ?_) ?_
    | with_reducible refine keeps_ite_fst ?_ ?_

theorem keeps_attest' {L : Nat} {s₀ s' : State} {s : State} {a1 : Nat} {res} (he : State.attest s a1 = (s', res)) (h : Keeps L s₀ s)
    (hl : 151436 ||| L = L) : Keeps L s₀ s' := by
  have := keeps_attest a1 h hl
  rwa [he] at this

theorem keeps_secRun {L : Nat} {s₀ s : State} (m : Nat) (op : Nat) (slot : Nat) (a4 : Nat) (burnt : Bool) (h : Keeps L s₀ s)
    (hl : 2147635084 ||| L = L) : Keeps L s₀ (State.secRun s m op slot a4 burnt).1 := by
  unfold State.secRun
  repeat' first
    | with_reducible exact h
    | exact sub_trans rfl hl
    | with_reducible assumption
    | with_reducible refine keeps_certLoad _ ?_ ?_
    | (with_reducible refine keeps_certLoad' (by assumption) ?_ ?_)
    | with_reducible refine keeps_clipLoad _ ?_ ?_
    | (with_reducible refine keeps_clipLoad' (by assumption) ?_ ?_)
    | with_reducible refine keeps_arrayKey _ ?_ ?_
    | (with_reducible refine keeps_arrayKey' (by assumption) ?_ ?_)
    | with_reducible refine keeps_clipClose ?_ ?_
    | (with_reducible refine keeps_clipClose' (by assumption) ?_ ?_)
    | with_reducible refine keeps_attest _ ?_ ?_
    | (with_reducible refine keeps_attest' (by assumption) ?_ ?_)
    | with_reducible refine keeps_ownerBurn _ _ _ ?_ ?_
    | (with_reducible refine keeps_ownerBurn' (by assumption) ?_ ?_)
    | with_reducible refine keeps_clipOpen _ _ ?_ ?_
    | (with_reducible refine keeps_clipOpen' (by assumption) ?_ ?_)
    | with_reducible refine keeps_ownerRevoke _ _ _ ?_ ?_
    | (with_reducible refine keeps_ownerRevoke' (by assumption) ?_ ?_)
    | with_reducible refine keeps_policyBurn _ _ ?_ ?_
    | (with_reducible refine keeps_policyBurn' (by assumption) ?_ ?_)
    | with_reducible refine keeps_recipSet _ _ ?_ ?_
    | (with_reducible refine keeps_recipSet' (by assumption) ?_ ?_)
    | simp only [keeps_fresh_iff (sub_trans rfl hl)]
    | with_reducible refine keeps_foldl _ _ (fun _ _ hx => ?_) ?_
    | with_reducible refine keeps_ite_fst ?_ ?_
    | split

theorem keeps_secRun' {L : Nat} {s₀ s' : State} {s : State} {m : Nat} {op : Nat} {slot : Nat} {a4 : Nat} {burnt : Bool} {res} (he : State.secRun s m op slot a4 burnt = (s', res)) (h : Keeps L s₀ s)
    (hl : 2147635084 ||| L = L) : Keeps L s₀ s' := by
  have := keeps_secRun m op slot a4 burnt h hl
  rwa [he] at this

theorem keeps_secCmd {L : Nat} {s₀ s : State} (m : Nat) (w : Nat) (burnt : Bool) (h : Keeps L s₀ s)
    (hl : 2147635084 ||| L = L) : Keeps L s₀ (State.secCmd s m w burnt) := by
  unfold State.secCmd
  repeat' first
    | with_reducible exact h
    | exact sub_trans rfl hl
    | with_reducible assumption
    | with_reducible refine keeps_setSec _ ?_ ?_
    | with_reducible refine keeps_secRun _ _ _ _ _ ?_ ?_
    | (with_reducible refine keeps_secRun' (by assumption) ?_ ?_)
    | with_reducible refine keeps_setFld _ _ ?_ ?_
    | dsimp only
    | with_reducible refine keeps_foldl _ _ (fun _ _ hx => ?_) ?_
    | with_reducible refine keeps_ite ?_ ?_

theorem keeps_secDone {L : Nat} {s₀ s : State}  (h : Keeps L s₀ s)
    (hl : 2147632008 ||| L = L) : Keeps L s₀ (State.secDone s) := by
  unfold State.secDone
  repeat' first
    | with_reducible exact h
    | exact sub_trans rfl hl
    | with_reducible assumption
    | with_reducible refine keeps_note _ _ _ _ ?_ ?_
    | with_reducible refine keeps_setSec _ ?_ ?_
    | with_reducible refine keeps_setFld _ _ ?_ ?_
    | with_reducible refine keeps_secRaise _ ?_ ?_
    | dsimp only
    | with_reducible refine keeps_foldl _ _ (fun _ _ hx => ?_) ?_
    | with_reducible refine keeps_ite ?_ ?_
    | split

theorem keeps_secPush {L : Nat} {s₀ s : State} (a1 : Nat) (h : Keeps L s₀ s)
    (hl : 262144 ||| L = L) : Keeps L s₀ (State.secPush s a1) := by
  unfold State.secPush
  repeat' first
    | with_reducible exact h
    | exact sub_trans rfl hl
    | with_reducible assumption
    | with_reducible refine keeps_pushQ _ _ _ ?_ ?_

theorem keeps_secRoom {L : Nat} {s₀ s : State} (n : Nat) (a2 : Nat) (h : Keeps L s₀ s)
    (hl : 2147896200 ||| L = L) : Keeps L s₀ (State.secRoom s n a2).1 := by
  fun_induction State.secRoom s n a2
  all_goals repeat' first
      | with_reducible exact h
      | exact sub_trans rfl hl
      | with_reducible assumption
      | with_reducible refine keeps_acquire _ _ ?_ ?_
      | (with_reducible refine keeps_acquire' (by assumption) ?_ ?_)
      | with_reducible refine keeps_releasePost _ _ _ ?_ ?_
      | with_reducible refine keeps_setSec _ ?_ ?_
      | with_reducible refine keeps_popQ _ ?_ ?_
      | (with_reducible refine keeps_popQ' (by assumption) ?_ ?_)
      | simp only [keeps_regs_iff (sub_trans rfl hl)]
      | with_reducible refine keeps_foldl _ _ (fun _ _ hx => ?_) ?_
      | with_reducible apply_assumption

theorem keeps_secRoom' {L : Nat} {s₀ s' : State} {s : State} {n : Nat} {a2 : Nat} {res} (he : State.secRoom s n a2 = (s', res)) (h : Keeps L s₀ s)
    (hl : 2147896200 ||| L = L) : Keeps L s₀ s' := by
  have := keeps_secRoom n a2 h hl
  rwa [he] at this

theorem keeps_secSeq {L : Nat} {s₀ s : State} (n : Nat) (h : Keeps L s₀ s)
    (hl : 2147483648 ||| L = L) : Keeps L s₀ (State.secSeq s n).1 := by
  unfold State.secSeq
  repeat' first
    | with_reducible exact h
    | exact sub_trans rfl hl
    | with_reducible assumption
    | with_reducible refine keeps_setSec _ ?_ ?_

theorem keeps_secSeq' {L : Nat} {s₀ s' : State} {s : State} {n : Nat} {res} (he : State.secSeq s n = (s', res)) (h : Keeps L s₀ s)
    (hl : 2147483648 ||| L = L) : Keeps L s₀ s' := by
  have := keeps_secSeq n h hl
  rwa [he] at this

theorem keeps_secWrite {L : Nat} {s₀ s : State} (n : Nat) (plane : Nat) (bs : List Byte) (h : Keeps L s₀ s)
    (hl : 2148421512 ||| L = L) : Keeps L s₀ (State.secWrite s n plane bs) := by
  unfold State.secWrite
  repeat' first
    | with_reducible exact h
    | exact sub_trans rfl hl
    | with_reducible assumption
    | with_reducible refine keeps_secRoom _ _ ?_ ?_
    | (with_reducible refine keeps_secRoom' (by assumption) ?_ ?_)
    | with_reducible refine keeps_setSec _ ?_ ?_
    | with_reducible refine keeps_secSeq _ ?_ ?_
    | (with_reducible refine keeps_secSeq' (by assumption) ?_ ?_)
    | with_reducible refine keeps_emit _ _ _ _ ?_ ?_
    | with_reducible refine keeps_count _ _ ?_ ?_
    | with_reducible refine keeps_secRaise _ ?_ ?_
    | dsimp only
    | with_reducible refine keeps_foldl _ _ (fun _ _ hx => ?_) ?_
    | with_reducible refine keeps_ite ?_ ?_
    | split

theorem keeps_noteDomains {L : Nat} {s₀ s : State} (n : Nat) (h : Keeps L s₀ s)
    (hl : 2147483648 ||| L = L) : Keeps L s₀ (State.noteDomains s n) := by
  unfold State.noteDomains
  repeat' first
    | with_reducible exact h
    | exact sub_trans rfl hl
    | with_reducible assumption
    | with_reducible refine keeps_setSec _ ?_ ?_

theorem keeps_closeEntry {L : Nat} {s₀ s : State} (d : Nat) (n : Nat) (h : Keeps L s₀ s)
    (hl : 2148421512 ||| L = L) : Keeps L s₀ (State.closeEntry s d n) := by
  unfold State.closeEntry
  repeat' first
    | with_reducible exact h
    | exact sub_trans rfl hl
    | with_reducible assumption
    | with_reducible refine keeps_secWrite _ _ _ ?_ ?_
    | with_reducible refine keeps_count _ _ ?_ ?_
    | with_reducible refine keeps_setChain _ _ ?_ ?_
    | with_reducible refine keeps_secRaise _ ?_ ?_
    | with_reducible refine keeps_setFld2 _ _ _ ?_ ?_
    | simp only [keeps_regs_iff (sub_trans rfl hl), keeps_evSet_iff (sub_trans rfl hl), keeps_evAdd_iff (sub_trans rfl hl), keeps_evPosted_iff (sub_trans rfl hl), keeps_fab_iff (sub_trans rfl hl), keeps_pilots_iff (sub_trans rfl hl), keeps_log_iff (sub_trans rfl hl), keeps_queues_iff (sub_trans rfl hl), keeps_leaves_iff (sub_trans rfl hl), keeps_sec_iff (sub_trans rfl hl)]
    | with_reducible refine keeps_foldl _ _ (fun _ _ hx => ?_) ?_
    | with_reducible refine keeps_ite ?_ ?_

theorem keeps_closeEntries {L : Nat} {s₀ a2 : State} (n : Nat) (a1 : List Nat) (h : Keeps L s₀ a2)
    (hl : 2148421512 ||| L = L) : Keeps L s₀ (State.closeEntries n a1 a2) := by
  fun_induction State.closeEntries n a1 a2
  all_goals repeat' first
      | with_reducible exact h
      | exact sub_trans rfl hl
      | with_reducible assumption
      | with_reducible refine keeps_closeEntry _ _ ?_ ?_
      | simp only [keeps_regs_iff (sub_trans rfl hl), keeps_evSet_iff (sub_trans rfl hl), keeps_evAdd_iff (sub_trans rfl hl), keeps_evPosted_iff (sub_trans rfl hl), keeps_fab_iff (sub_trans rfl hl), keeps_pilots_iff (sub_trans rfl hl), keeps_log_iff (sub_trans rfl hl), keeps_queues_iff (sub_trans rfl hl), keeps_leaves_iff (sub_trans rfl hl), keeps_sec_iff (sub_trans rfl hl)]
      | with_reducible refine keeps_foldl _ _ (fun _ _ hx => ?_) ?_
      | with_reducible apply_assumption
      | with_reducible refine keeps_ite ?_ ?_

theorem keeps_secTide {L : Nat} {s₀ s : State} (k : Nat) (h : Keeps L s₀ s)
    (hl : 2148421512 ||| L = L) : Keeps L s₀ (State.secTide s k) := by
  unfold State.secTide
  repeat' first
    | with_reducible exact h
    | exact sub_trans rfl hl
    | with_reducible assumption
    | with_reducible refine keeps_closeEntries _ _ ?_ ?_
    | simp only [keeps_regs_iff (sub_trans rfl hl), keeps_evSet_iff (sub_trans rfl hl), keeps_evAdd_iff (sub_trans rfl hl), keeps_evPosted_iff (sub_trans rfl hl), keeps_fab_iff (sub_trans rfl hl), keeps_pilots_iff (sub_trans rfl hl), keeps_log_iff (sub_trans rfl hl), keeps_queues_iff (sub_trans rfl hl), keeps_leaves_iff (sub_trans rfl hl), keeps_sec_iff (sub_trans rfl hl)]
    | with_reducible refine keeps_foldl _ _ (fun _ _ hx => ?_) ?_
    | with_reducible refine keeps_ite ?_ ?_

theorem keeps_liveLeaf {L : Nat} {s₀ s : State} (d : Nat) (l : Leaf) (h : Keeps L s₀ s)
    (hl : 148360 ||| L = L) : Keeps L s₀ (State.liveLeaf s d l) := by
  unfold State.liveLeaf
  repeat' first
    | with_reducible exact h
    | exact sub_trans rfl hl
    | with_reducible assumption
    | with_reducible refine keeps_diverge _ _ _ _ _ ?_ ?_
    | simp only [keeps_log_iff (sub_trans rfl hl)]
    | with_reducible refine keeps_foldl _ _ (fun _ _ hx => ?_) ?_
    | with_reducible refine keeps_ite ?_ ?_
    | split

theorem keeps_leafHash {L : Nat} {s₀ s : State} (i : Nat) (h : Keeps L s₀ s)
    (hl : 2148156296 ||| L = L) : Keeps L s₀ (State.leafHash s i) := by
  unfold State.leafHash
  repeat' first
    | with_reducible exact h
    | exact sub_trans rfl hl
    | with_reducible assumption
    | with_reducible refine keeps_logRec _ _ _ _ ?_ ?_
    | with_reducible refine keeps_count _ _ ?_ ?_
    | with_reducible refine keeps_setChain _ _ ?_ ?_
    | with_reducible refine keeps_liveLeaf _ _ ?_ ?_
    | simp only [keeps_leaves_iff (sub_trans rfl hl)]
    | with_reducible refine keeps_foldl _ _ (fun _ _ hx => ?_) ?_
    | with_reducible refine keeps_ite ?_ ?_
    | split

theorem keeps_signDone {L : Nat} {s₀ s : State} (d : Nat) (h : Keeps L s₀ s)
    (hl : 2148421516 ||| L = L) : Keeps L s₀ (State.signDone s d) := by
  unfold State.signDone
  repeat' first
    | with_reducible exact h
    | exact sub_trans rfl hl
    | with_reducible assumption
    | with_reducible refine keeps_secWrite _ _ _ ?_ ?_
    | with_reducible refine keeps_setChain _ _ ?_ ?_
    | with_reducible refine keeps_drew _ ?_ ?_
    | dsimp only
    | with_reducible refine keeps_foldl _ _ (fun _ _ hx => ?_) ?_
    | with_reducible refine keeps_ite ?_ ?_
    | split

theorem keeps_setHcpSess {L : Nat} {s₀ s : State} (i : Nat) (x : HcpSess) (h : Keeps L s₀ s)
    (hl : 8589934592 ||| L = L) : Keeps L s₀ (State.setHcpSess s i x) := by
  unfold State.setHcpSess
  repeat' first
    | with_reducible exact h
    | exact sub_trans rfl hl
    | with_reducible assumption
    | simp only [keeps_hcp_iff (sub_trans rfl hl)]

theorem keeps_showSess {L : Nat} {s₀ s : State} (i : Nat) (st : Nat) (h : Keeps L s₀ s)
    (hl : 8 ||| L = L) : Keeps L s₀ (State.showSess s i st) := by
  unfold State.showSess
  repeat' first
    | with_reducible exact h
    | exact sub_trans rfl hl
    | with_reducible assumption
    | with_reducible refine keeps_setFld _ _ ?_ ?_

theorem keeps_hcpSend {L : Nat} {s₀ s : State} (o : HcpOut) (h : Keeps L s₀ s)
    (hl : 8589934592 ||| L = L) : Keeps L s₀ (State.hcpSend s o) := by
  unfold State.hcpSend
  repeat' first
    | with_reducible exact h
    | exact sub_trans rfl hl
    | with_reducible assumption
    | simp only [keeps_hcp_iff (sub_trans rfl hl)]

theorem keeps_hello {L : Nat} {s₀ s : State} (q : Nat) (body : List Byte) (h : Keeps L s₀ s)
    (hl : 8589951884 ||| L = L) : Keeps L s₀ (State.hello s q body) := by
  unfold State.hello
  repeat' first
    | with_reducible exact h
    | exact sub_trans rfl hl
    | with_reducible assumption
    | with_reducible refine keeps_showSess _ _ ?_ ?_
    | with_reducible refine keeps_setFld _ _ ?_ ?_
    | with_reducible refine keeps_count _ _ ?_ ?_
    | with_reducible refine keeps_hcpSend _ ?_ ?_
    | with_reducible refine keeps_setHcpSess _ _ ?_ ?_
    | with_reducible refine keeps_drew _ ?_ ?_
    | with_reducible refine keeps_secRaise _ ?_ ?_
    | dsimp only
    | with_reducible refine keeps_foldl _ _ (fun _ _ hx => ?_) ?_
    | with_reducible refine keeps_ite ?_ ?_
    | split

theorem keeps_closeSession {L : Nat} {s₀ s : State} (i : Nat) (h : Keeps L s₀ s)
    (hl : 8590089096 ||| L = L) : Keeps L s₀ (State.closeSession s i) := by
  unfold State.closeSession
  repeat' first
    | with_reducible exact h
    | exact sub_trans rfl hl
    | with_reducible assumption
    | with_reducible refine keeps_setHcpSess _ _ ?_ ?_
    | with_reducible refine keeps_showSess _ _ ?_ ?_
    | with_reducible refine keeps_setWord _ _ ?_ ?_
    | with_reducible refine keeps_vacate ?_ ?_
    | dsimp only
    | with_reducible refine keeps_foldl _ _ (fun _ _ hx => ?_) ?_
    | with_reducible refine keeps_ite ?_ ?_

theorem keeps_handshakeTimeout {L : Nat} {s₀ s : State} (i : Nat) (h : Keeps L s₀ s)
    (hl : 8590089096 ||| L = L) : Keeps L s₀ (State.handshakeTimeout s i) := by
  unfold State.handshakeTimeout
  repeat' first
    | with_reducible exact h
    | exact sub_trans rfl hl
    | with_reducible assumption
    | with_reducible refine keeps_closeSession _ ?_ ?_
    | simp only [keeps_regs_iff (sub_trans rfl hl), keeps_evSet_iff (sub_trans rfl hl), keeps_evAdd_iff (sub_trans rfl hl), keeps_evPosted_iff (sub_trans rfl hl), keeps_fab_iff (sub_trans rfl hl), keeps_pilots_iff (sub_trans rfl hl), keeps_log_iff (sub_trans rfl hl), keeps_hcp_iff (sub_trans rfl hl)]
    | with_reducible refine keeps_foldl _ _ (fun _ _ hx => ?_) ?_
    | with_reducible refine keeps_ite ?_ ?_

theorem keeps_sessionTimeout {L : Nat} {s₀ s : State} (i : Nat) (h : Keeps L s₀ s)
    (hl : 8590089096 ||| L = L) : Keeps L s₀ (State.sessionTimeout s i) := by
  unfold State.sessionTimeout
  repeat' first
    | with_reducible exact h
    | exact sub_trans rfl hl
    | with_reducible assumption
    | with_reducible refine keeps_closeSession _ ?_ ?_
    | simp only [keeps_regs_iff (sub_trans rfl hl), keeps_evSet_iff (sub_trans rfl hl), keeps_evAdd_iff (sub_trans rfl hl), keeps_evPosted_iff (sub_trans rfl hl), keeps_fab_iff (sub_trans rfl hl), keeps_pilots_iff (sub_trans rfl hl), keeps_log_iff (sub_trans rfl hl), keeps_hcp_iff (sub_trans rfl hl)]
    | with_reducible refine keeps_foldl _ _ (fun _ _ hx => ?_) ?_
    | with_reducible refine keeps_ite ?_ ?_

theorem keeps_logRaise {L : Nat} {s₀ s : State} (m : Nat) (h : Keeps L s₀ s)
    (hl : 17288 ||| L = L) : Keeps L s₀ (State.logRaise s m) := by
  unfold State.logRaise
  repeat' first
    | with_reducible exact h
    | exact sub_trans rfl hl
    | with_reducible assumption
    | with_reducible refine keeps_raise _ _ _ _ _ ?_ ?_

theorem keeps_setLog {L : Nat} {s₀ s : State} (l : Log) (h : Keeps L s₀ s)
    (hl : 131072 ||| L = L) : Keeps L s₀ (State.setLog s l) := by
  unfold State.setLog
  repeat' first
    | with_reducible exact h
    | exact sub_trans rfl hl
    | with_reducible assumption
    | simp only [keeps_log_iff (sub_trans rfl hl)]

theorem keeps_logPush {L : Nat} {s₀ s : State} (a : Nat) (e : QEnt) (h : Keeps L s₀ s)
    (hl : 262408 ||| L = L) : Keeps L s₀ (State.logPush s a e) := by
  unfold State.logPush
  repeat' first
    | with_reducible exact h
    | exact sub_trans rfl hl
    | with_reducible assumption
    | with_reducible refine keeps_count _ _ ?_ ?_
    | with_reducible refine keeps_pushQ _ _ _ ?_ ?_
    | (with_reducible refine keeps_pushQ' (by assumption) ?_ ?_)
    | dsimp only
    | with_reducible refine keeps_foldl _ _ (fun _ _ hx => ?_) ?_
    | with_reducible refine keeps_ite ?_ ?_

theorem keeps_pushJob {L : Nat} {s₀ s : State} (kind : Nat) (desc : List Byte) (h : Keeps L s₀ s)
    (hl : 393216 ||| L = L) : Keeps L s₀ (State.pushJob s kind desc) := by
  unfold State.pushJob
  repeat' first
    | with_reducible exact h
    | exact sub_trans rfl hl
    | with_reducible assumption
    | with_reducible refine keeps_setLog _ ?_ ?_
    | with_reducible refine keeps_setQueue _ _ ?_ ?_
    | dsimp only
    | with_reducible refine keeps_foldl _ _ (fun _ _ hx => ?_) ?_
    | with_reducible refine keeps_ite ?_ ?_

theorem keeps_loseSegment {L : Nat} {s₀ s : State}  (h : Keeps L s₀ s)
    (hl : 148360 ||| L = L) : Keeps L s₀ (State.loseSegment s) := by
  unfold State.loseSegment
  repeat' first
    | with_reducible exact h
    | exact sub_trans rfl hl
    | with_reducible assumption
    | with_reducible refine keeps_setLog _ ?_ ?_
    | with_reducible refine keeps_count _ _ ?_ ?_
    | with_reducible refine keeps_logRaise _ ?_ ?_

theorem keeps_stageSegments {L : Nat} {s₀ a1 : State} (a0 : List (Nat × List LogRec)) (h : Keeps L s₀ a1)
    (hl : 937864 ||| L = L) : Keeps L s₀ (State.stageSegments a0 a1) := by
  fun_induction State.stageSegments a0 a1
  all_goals repeat' first
      | with_reducible exact h
      | exact sub_trans rfl hl
      | with_reducible assumption
      | with_reducible refine keeps_emit _ _ _ _ ?_ ?_
      | with_reducible refine keeps_setLog _ ?_ ?_
      | with_reducible refine keeps_loseSegment ?_ ?_
      | dsimp only
      | with_reducible refine keeps_foldl _ _ (fun _ _ hx => ?_) ?_
      | with_reducible apply_assumption
      | with_reducible refine keeps_ite ?_ ?_

theorem keeps_logOut {L : Nat} {s₀ s : State} (a1 : Nat) (h : Keeps L s₀ s)
    (hl : 412552 ||| L = L) : Keeps L s₀ (State.logOut s a1).1 := by
  fun_induction State.logOut s a1
  all_goals repeat' first
      | with_reducible exact h
      | exact sub_trans rfl hl
      | with_reducible assumption
      | with_reducible refine keeps_acquire _ _ ?_ ?_
      | (with_reducible refine keeps_acquire' (by assumption) ?_ ?_)
      | with_reducible refine keeps_setLog _ ?_ ?_
      | with_reducible refine keeps_popQ _ ?_ ?_
      | (with_reducible refine keeps_popQ' (by assumption) ?_ ?_)
      | simp only [keeps_regs_iff (sub_trans rfl hl)]
      | with_reducible refine keeps_foldl _ _ (fun _ _ hx => ?_) ?_
      | with_reducible apply_assumption

theorem keeps_logOut' {L : Nat} {s₀ s' : State} {s : State} {a1 : Nat} {res} (he : State.logOut s a1 = (s', res)) (h : Keeps L s₀ s)
    (hl : 412552 ||| L = L) : Keeps L s₀ s' := by
  have := keeps_logOut a1 h hl
  rwa [he] at this

theorem keeps_logCompress {L : Nat} {s₀ s : State}  (h : Keeps L s₀ s)
    (hl : 412552 ||| L = L) : Keeps L s₀ (State.logCompress s) := by
  unfold State.logCompress
  repeat' first
    | with_reducible exact h
    | exact sub_trans rfl hl
    | with_reducible assumption
    | with_reducible refine keeps_pushJob _ _ ?_ ?_
    | with_reducible refine keeps_logOut _ ?_ ?_
    | (with_reducible refine keeps_logOut' (by assumption) ?_ ?_)
    | dsimp only
    | with_reducible refine keeps_foldl _ _ (fun _ _ hx => ?_) ?_
    | with_reducible refine keeps_ite ?_ ?_
    | split

theorem keeps_logRead {L : Nat} {s₀ s : State}  (h : Keeps L s₀ s)
    (hl : 412552 ||| L = L) : Keeps L s₀ (State.logRead s) := by
  unfold State.logRead
  repeat' first
    | with_reducible exact h
    | exact sub_trans rfl hl
    | with_reducible assumption
    | with_reducible refine keeps_acquire _ _ ?_ ?_
    | (with_reducible refine keeps_acquire' (by assumption) ?_ ?_)
    | with_reducible refine keeps_setLog _ ?_ ?_
    | with_reducible refine keeps_pushJob _ _ ?_ ?_
    | with_reducible refine keeps_popQ _ ?_ ?_
    | (with_reducible refine keeps_popQ' (by assumption) ?_ ?_)
    | dsimp only
    | with_reducible refine keeps_foldl _ _ (fun _ _ hx => ?_) ?_
    | with_reducible refine keeps_ite ?_ ?_
    | split

theorem keeps_logDrop {L : Nat} {s₀ s : State} (a1 : Option Nat) (h : Keeps L s₀ s)
    (hl : 412552 ||| L = L) : Keeps L s₀ (State.logDrop s a1) := by
  unfold State.logDrop
  repeat' first
    | with_reducible exact h
    | exact sub_trans rfl hl
    | with_reducible assumption
    | with_reducible refine keeps_release _ _ ?_ ?_
    | simp only [keeps_regs_iff (sub_trans rfl hl), keeps_evSet_iff (sub_trans rfl hl), keeps_evAdd_iff (sub_trans rfl hl), keeps_evPosted_iff (sub_trans rfl hl), keeps_fab_iff (sub_trans rfl hl), keeps_pilots_iff (sub_trans rfl hl), keeps_log_iff (sub_trans rfl hl), keeps_queues_iff (sub_trans rfl hl)]
    | with_reducible refine keeps_foldl _ _ (fun _ _ hx => ?_) ?_
    | with_reducible refine keeps_ite ?_ ?_
    | split

theorem keeps_logIdle {L : Nat} {s₀ s : State}  (h : Keeps L s₀ s)
    (hl : 412552 ||| L = L) : Keeps L s₀ (State.logIdle s) := by
  unfold State.logIdle
  repeat' first
    | with_reducible exact h
    | exact sub_trans rfl hl
    | with_reducible assumption
    | with_reducible refine keeps_releasePost _ _ _ ?_ ?_
    | with_reducible refine keeps_setLog _ ?_ ?_
    | with_reducible refine keeps_logDrop _ ?_ ?_
    | dsimp only
    | with_reducible refine keeps_foldl _ _ (fun _ _ hx => ?_) ?_
    | with_reducible refine keeps_ite ?_ ?_
    | split

theorem keeps_logPump {L : Nat} {s₀ s : State}  (h : Keeps L s₀ s)
    (hl : 937864 ||| L = L) : Keeps L s₀ (State.logPump s) := by
  unfold State.logPump
  repeat' first
    | with_reducible exact h
    | exact sub_trans rfl hl
    | with_reducible assumption
    | with_reducible refine keeps_stageSegments _ ?_ ?_
    | with_reducible refine keeps_setLog _ ?_ ?_
    | with_reducible refine keeps_logCompress ?_ ?_
    | with_reducible refine keeps_logIdle ?_ ?_
    | with_reducible refine keeps_logRead ?_ ?_
    | dsimp only
    | with_reducible refine keeps_foldl _ _ (fun _ _ hx => ?_) ?_
    | with_reducible refine keeps_ite ?_ ?_

theorem keeps_segmentEnd {L : Nat} {s₀ s : State} (e : LzeDone) (h : Keeps L s₀ s)
    (hl : 412552 ||| L = L) : Keeps L s₀ (State.segmentEnd s e) := by
  unfold State.segmentEnd
  repeat' first
    | with_reducible exact h
    | exact sub_trans rfl hl
    | with_reducible assumption
    | with_reducible refine keeps_releasePost _ _ _ ?_ ?_
    | with_reducible refine keeps_setLog _ ?_ ?_
    | with_reducible refine keeps_loseSegment ?_ ?_
    | with_reducible refine keeps_logRaise _ ?_ ?_
    | dsimp only
    | with_reducible refine keeps_foldl _ _ (fun _ _ hx => ?_) ?_
    | with_reducible refine keeps_ite ?_ ?_
    | split

theorem keeps_startWords {L : Nat} {s₀ a1 : State} (a0 : List Nat) (h : Keeps L s₀ a1)
    (hl : 8 ||| L = L) : Keeps L s₀ (State.startWords a0 a1) := by
  fun_induction State.startWords a0 a1
  all_goals repeat' first
      | with_reducible exact h
      | exact sub_trans rfl hl
      | with_reducible assumption
      | with_reducible refine keeps_setWord _ _ ?_ ?_
      | simp only [keeps_regs_iff (sub_trans rfl hl)]
      | with_reducible refine keeps_foldl _ _ (fun _ _ hx => ?_) ?_
      | with_reducible apply_assumption
      | with_reducible refine keeps_ite ?_ ?_

theorem keeps_startBerths {L : Nat} {s₀ a1 : State} (a0 : List Nat) (h : Keeps L s₀ a1)
    (hl : 2048 ||| L = L) : Keeps L s₀ (State.startBerths a0 a1) := by
  fun_induction State.startBerths a0 a1
  all_goals repeat' first
      | with_reducible exact h
      | exact sub_trans rfl hl
      | with_reducible assumption
      | with_reducible refine keeps_setBerth _ _ ?_ ?_
      | simp only [keeps_fab_iff (sub_trans rfl hl)]
      | with_reducible refine keeps_foldl _ _ (fun _ _ hx => ?_) ?_
      | with_reducible apply_assumption

theorem keeps_takeRecs {L : Nat} {s₀ a1 : State} (a0 : List LogRec) (h : Keeps L s₀ a1)
    (hl : 133128 ||| L = L) : Keeps L s₀ (State.takeRecs a0 a1) := by
  fun_induction State.takeRecs a0 a1
  all_goals repeat' first
      | with_reducible exact h
      | exact sub_trans rfl hl
      | with_reducible assumption
      | with_reducible refine keeps_setLog _ ?_ ?_
      | with_reducible refine keeps_startBerths _ ?_ ?_
      | with_reducible refine keeps_startWords _ ?_ ?_
      | dsimp only
      | with_reducible refine keeps_foldl _ _ (fun _ _ hx => ?_) ?_
      | with_reducible apply_assumption
      | with_reducible refine keeps_ite ?_ ?_

theorem keeps_takeSegments {L : Nat} {s₀ a2 : State} (first : Nat) (a1 : List (Nat × Nat)) (h : Keeps L s₀ a2)
    (hl : 133128 ||| L = L) : Keeps L s₀ (State.takeSegments first a1 a2) := by
  fun_induction State.takeSegments first a1 a2
  all_goals repeat' first
      | with_reducible exact h
      | exact sub_trans rfl hl
      | with_reducible assumption
      | with_reducible refine keeps_takeRecs _ ?_ ?_
      | simp only [keeps_regs_iff (sub_trans rfl hl), keeps_fab_iff (sub_trans rfl hl), keeps_log_iff (sub_trans rfl hl)]
      | with_reducible refine keeps_foldl _ _ (fun _ _ hx => ?_) ?_
      | with_reducible apply_assumption

theorem keeps_logReadEnd {L : Nat} {s₀ s : State} (e : LzeDone) (h : Keeps L s₀ s)
    (hl : 412552 ||| L = L) : Keeps L s₀ (State.logReadEnd s e) := by
  unfold State.logReadEnd
  repeat' first
    | with_reducible exact h
    | exact sub_trans rfl hl
    | with_reducible assumption
    | with_reducible refine keeps_release _ _ ?_ ?_
    | with_reducible refine keeps_setLog _ ?_ ?_
    | with_reducible refine keeps_takeSegments _ _ ?_ ?_
    | dsimp only
    | with_reducible refine keeps_foldl _ _ (fun _ _ hx => ?_) ?_
    | with_reducible refine keeps_ite ?_ ?_
    | split

theorem keeps_logDones {L : Nat} {s₀ a1 : State} (a0 : List LzeDone) (h : Keeps L s₀ a1)
    (hl : 937864 ||| L = L) : Keeps L s₀ (State.logDones a0 a1) := by
  fun_induction State.logDones a0 a1
  all_goals repeat' first
      | with_reducible exact h
      | exact sub_trans rfl hl
      | with_reducible assumption
      | with_reducible refine keeps_logReadEnd _ ?_ ?_
      | with_reducible refine keeps_segmentEnd _ ?_ ?_
      | with_reducible refine keeps_logPump ?_ ?_
      | simp only [keeps_regs_iff (sub_trans rfl hl), keeps_evSet_iff (sub_trans rfl hl), keeps_evAdd_iff (sub_trans rfl hl), keeps_evPosted_iff (sub_trans rfl hl), keeps_fab_iff (sub_trans rfl hl), keeps_pilots_iff (sub_trans rfl hl), keeps_log_iff (sub_trans rfl hl), keeps_queues_iff (sub_trans rfl hl), keeps_leaves_iff (sub_trans rfl hl)]
      | with_reducible refine keeps_foldl _ _ (fun _ _ hx => ?_) ?_
      | with_reducible apply_assumption
      | with_reducible refine keeps_ite ?_ ?_

theorem keeps_lzeJobEnd {L : Nat} {s₀ s : State} (q : Nat) (h : Keeps L s₀ s)
    (hl : 135155592 ||| L = L) : Keeps L s₀ (State.lzeJobEnd s q) := by
  unfold State.lzeJobEnd
  repeat' first
    | with_reducible exact h
    | exact sub_trans rfl hl
    | with_reducible assumption
    | with_reducible refine keeps_lzeEnd _ ?_ ?_
    | with_reducible refine keeps_logDones _ ?_ ?_
    | simp only [keeps_lze_iff (sub_trans rfl hl)]

theorem keeps_pushOpening {L : Nat} {s₀ s : State} (r : LogRec) (h : Keeps L s₀ s)
    (hl : 131080 ||| L = L) : Keeps L s₀ (State.pushOpening s r) := by
  unfold State.pushOpening
  repeat' first
    | with_reducible exact h
    | exact sub_trans rfl hl
    | with_reducible assumption
    | with_reducible refine keeps_continueSegment ?_ ?_
    | with_reducible refine keeps_pushRec _ ?_ ?_
    | with_reducible refine keeps_closeSegment ?_ ?_
    | simp only [keeps_regs_iff (sub_trans rfl hl), keeps_log_iff (sub_trans rfl hl)]
    | with_reducible refine keeps_foldl _ _ (fun _ _ hx => ?_) ?_
    | with_reducible refine keeps_ite ?_ ?_

theorem keeps_pushOpenings {L : Nat} {s₀ a1 : State} (a0 : List LogRec) (h : Keeps L s₀ a1)
    (hl : 131080 ||| L = L) : Keeps L s₀ (State.pushOpenings a0 a1) := by
  fun_induction State.pushOpenings a0 a1
  all_goals repeat' first
      | with_reducible exact h
      | exact sub_trans rfl hl
      | with_reducible assumption
      | with_reducible refine keeps_pushOpening _ ?_ ?_
      | simp only [keeps_regs_iff (sub_trans rfl hl), keeps_log_iff (sub_trans rfl hl)]
      | with_reducible refine keeps_foldl _ _ (fun _ _ hx => ?_) ?_
      | with_reducible apply_assumption

theorem keeps_logOpening {L : Nat} {s₀ s : State} (n : Nat) (h : Keeps L s₀ s)
    (hl : 148360 ||| L = L) : Keeps L s₀ (State.logOpening s n) := by
  unfold State.logOpening
  repeat' first
    | with_reducible exact h
    | exact sub_trans rfl hl
    | with_reducible assumption
    | with_reducible refine keeps_pushLost ?_ ?_
    | with_reducible refine keeps_closeSegment ?_ ?_
    | with_reducible refine keeps_setLog _ ?_ ?_
    | with_reducible refine keeps_pushOpenings _ ?_ ?_
    | with_reducible refine keeps_pushRec _ ?_ ?_
    | with_reducible refine keeps_loseRecord ?_ ?_
    | with_reducible refine keeps_pushOpening _ ?_ ?_
    | dsimp only
    | with_reducible refine keeps_foldl _ _ (fun _ _ hx => ?_) ?_
    | with_reducible refine keeps_ite ?_ ?_

theorem keeps_logStop {L : Nat} {s₀ s : State} (n : Nat) (last : Nat) (h : Keeps L s₀ s)
    (hl : 937864 ||| L = L) : Keeps L s₀ (State.logStop s n last) := by
  unfold State.logStop
  repeat' first
    | with_reducible exact h
    | exact sub_trans rfl hl
    | with_reducible assumption
    | with_reducible refine keeps_closeSegment ?_ ?_
    | with_reducible refine keeps_setLog _ ?_ ?_
    | with_reducible refine keeps_setFld _ _ ?_ ?_
    | with_reducible refine keeps_logPump ?_ ?_
    | with_reducible refine keeps_pushOpening _ ?_ ?_
    | simp only [keeps_regs_iff (sub_trans rfl hl), keeps_evSet_iff (sub_trans rfl hl), keeps_evAdd_iff (sub_trans rfl hl), keeps_evPosted_iff (sub_trans rfl hl), keeps_fab_iff (sub_trans rfl hl), keeps_pilots_iff (sub_trans rfl hl), keeps_log_iff (sub_trans rfl hl), keeps_queues_iff (sub_trans rfl hl), keeps_leaves_iff (sub_trans rfl hl)]
    | with_reducible refine keeps_foldl _ _ (fun _ _ hx => ?_) ?_
    | with_reducible refine keeps_ite ?_ ?_

theorem keeps_logTide {L : Nat} {s₀ s : State} (n : Nat) (h : Keeps L s₀ s)
    (hl : 937864 ||| L = L) : Keeps L s₀ (State.logTide s n) := by
  unfold State.logTide
  repeat' first
    | with_reducible exact h
    | exact sub_trans rfl hl
    | with_reducible assumption
    | with_reducible refine keeps_logStop _ _ ?_ ?_
    | with_reducible refine keeps_logOpening _ ?_ ?_
    | dsimp only
    | with_reducible refine keeps_foldl _ _ (fun _ _ hx => ?_) ?_
    | with_reducible refine keeps_ite ?_ ?_

theorem keeps_logHold {L : Nat} {s₀ s : State}  (h : Keeps L s₀ s)
    (hl : 150408 ||| L = L) : Keeps L s₀ (State.logHold s) := by
  unfold State.logHold
  repeat' first
    | with_reducible exact h
    | exact sub_trans rfl hl
    | with_reducible assumption
    | with_reducible refine keeps_acquire _ _ ?_ ?_
    | (with_reducible refine keeps_acquire' (by assumption) ?_ ?_)
    | with_reducible refine keeps_setLog _ ?_ ?_
    | simp only [keeps_regs_iff (sub_trans rfl hl)]
    | with_reducible refine keeps_foldl _ _ (fun _ _ hx => ?_) ?_
    | with_reducible refine keeps_ite ?_ ?_
    | split

theorem keeps_logFresh {L : Nat} {s₀ s : State}  (h : Keeps L s₀ s)
    (hl : 412552 ||| L = L) : Keeps L s₀ (State.logFresh s) := by
  unfold State.logFresh
  repeat' first
    | with_reducible exact h
    | exact sub_trans rfl hl
    | with_reducible assumption
    | with_reducible refine keeps_releasePost _ _ _ ?_ ?_
    | with_reducible refine keeps_setLog _ ?_ ?_
    | with_reducible refine keeps_logDrop _ ?_ ?_
    | with_reducible refine keeps_setFld _ _ ?_ ?_
    | simp only [keeps_regs_iff (sub_trans rfl hl), keeps_evSet_iff (sub_trans rfl hl), keeps_evAdd_iff (sub_trans rfl hl), keeps_evPosted_iff (sub_trans rfl hl), keeps_fab_iff (sub_trans rfl hl), keeps_pilots_iff (sub_trans rfl hl), keeps_log_iff (sub_trans rfl hl), keeps_queues_iff (sub_trans rfl hl)]
    | with_reducible refine keeps_foldl _ _ (fun _ _ hx => ?_) ?_
    | with_reducible refine keeps_ite ?_ ?_
    | split

theorem keeps_logOp {L : Nat} {s₀ s : State} (op : Nat) (h : Keeps L s₀ s)
    (hl : 937864 ||| L = L) : Keeps L s₀ (State.logOp s op) := by
  unfold State.logOp
  repeat' first
    | with_reducible exact h
    | exact sub_trans rfl hl
    | with_reducible assumption
    | with_reducible refine keeps_logFresh ?_ ?_
    | with_reducible refine keeps_setLog _ ?_ ?_
    | with_reducible refine keeps_setFld _ _ ?_ ?_
    | with_reducible refine keeps_logHold ?_ ?_
    | with_reducible refine keeps_logPump ?_ ?_
    | with_reducible refine keeps_logRaise _ ?_ ?_
    | with_reducible refine keeps_setWord _ _ ?_ ?_
    | with_reducible refine keeps_setFld2 _ _ _ ?_ ?_
    | dsimp only
    | with_reducible refine keeps_foldl _ _ (fun _ _ hx => ?_) ?_
    | with_reducible refine keeps_ite ?_ ?_

theorem keeps_replayTime {L : Nat} {s₀ s : State} (r : LogRec) (h : Keeps L s₀ s)
    (hl : 143368 ||| L = L) : Keeps L s₀ (State.replayTime s r) := by
  unfold State.replayTime
  extract_lets w stale s1 d dd s2 s3 yy tt s4 s5 s6
  clear_value w stale
  have h1 : Keeps L s₀ s1 := keeps_setFld _ _ h (sub_trans rfl hl)
  clear_value s1
  have h2 : Keeps L s₀ s2 := keeps_setDom _ _ h1 (sub_trans rfl hl)
  clear_value s2
  have h3 : Keeps L s₀ s3 := keeps_setFld _ _ (keeps_setFld _ _ h2 (sub_trans rfl hl)) (sub_trans rfl hl)
  clear_value s3
  have h4 : Keeps L s₀ s4 := keeps_flat h3 (fun p hp => by cases p <;> first | exact h3.same _ hp | exact absurd (sub_testBit hl hp) (by decide)) id (sys_ok_same rfl rfl rfl rfl rfl)
  clear_value s4
  have h5 : Keeps L s₀ s5 := keeps_setWord _ _ (keeps_setWord _ _ h4 (sub_trans rfl hl)) (sub_trans rfl hl)
  clear_value s5
  have h6 : Keeps L s₀ s6 := keeps_ite (keeps_setFld _ _ h5 (sub_trans rfl hl)) h5
  clear_value s6
  exact keeps_setLog _ h6 (sub_trans rfl hl)

theorem keeps_missing {L : Nat} {s₀ a1 : State} (a0 : List LogRec) (h : Keeps L s₀ a1)
    (hl : 148360 ||| L = L) : Keeps L s₀ (State.missing a0 a1) := by
  fun_induction State.missing a0 a1
  all_goals repeat' first
      | with_reducible exact h
      | exact sub_trans rfl hl
      | with_reducible assumption
      | with_reducible refine keeps_count _ _ ?_ ?_
      | with_reducible refine keeps_diverge _ _ _ _ _ ?_ ?_
      | simp only [keeps_regs_iff (sub_trans rfl hl), keeps_evSet_iff (sub_trans rfl hl), keeps_evAdd_iff (sub_trans rfl hl), keeps_evPosted_iff (sub_trans rfl hl), keeps_pilots_iff (sub_trans rfl hl), keeps_log_iff (sub_trans rfl hl)]
      | with_reducible refine keeps_foldl _ _ (fun _ _ hx => ?_) ?_
      | with_reducible apply_assumption

theorem keeps_extra {L : Nat} {s₀ a1 : State} (a0 : List LogRec) (h : Keeps L s₀ a1)
    (hl : 148360 ||| L = L) : Keeps L s₀ (State.extra a0 a1) := by
  fun_induction State.extra a0 a1
  all_goals repeat' first
      | with_reducible exact h
      | exact sub_trans rfl hl
      | with_reducible assumption
      | with_reducible refine keeps_count _ _ ?_ ?_
      | with_reducible refine keeps_diverge _ _ _ _ _ ?_ ?_
      | simp only [keeps_regs_iff (sub_trans rfl hl), keeps_evSet_iff (sub_trans rfl hl), keeps_evAdd_iff (sub_trans rfl hl), keeps_evPosted_iff (sub_trans rfl hl), keeps_pilots_iff (sub_trans rfl hl), keeps_log_iff (sub_trans rfl hl)]
      | with_reducible refine keeps_foldl _ _ (fun _ _ hx => ?_) ?_
      | with_reducible apply_assumption

theorem keeps_replayEnd {L : Nat} {s₀ s : State}  (h : Keeps L s₀ s)
    (hl : 148360 ||| L = L) : Keeps L s₀ (State.replayEnd s) := by
  unfold State.replayEnd
  repeat' first
    | with_reducible exact h
    | exact sub_trans rfl hl
    | with_reducible assumption
    | with_reducible refine keeps_missing _ ?_ ?_
    | with_reducible refine keeps_extra _ ?_ ?_
    | with_reducible refine keeps_setLog _ ?_ ?_
    | with_reducible refine keeps_setFld _ _ ?_ ?_
    | with_reducible refine keeps_logRaise _ ?_ ?_

theorem keeps_feedRuns {L : Nat} {s₀ a4 : State} (p : Nat) (f : PortFrame) (k : Nat) (a3 : List (Nat × Nat)) (h : Keeps L s₀ a4)
    (hl : 937864 ||| L = L) : Keeps L s₀ (State.feedRuns p f k a3 a4) := by
  fun_induction State.feedRuns p f k a3 a4
  all_goals repeat' first
      | with_reducible exact h
      | exact sub_trans rfl hl
      | with_reducible assumption
      | with_reducible refine keeps_readBerth _ _ _ _ ?_ ?_
      | (with_reducible refine keeps_readBerth' (by assumption) ?_ ?_)
      | with_reducible refine keeps_emit _ _ _ _ ?_ ?_
      | dsimp only
      | with_reducible refine keeps_foldl _ _ (fun _ _ hx => ?_) ?_
      | with_reducible apply_assumption

theorem keeps_feedStrata {L : Nat} {s₀ : State} (p : Nat) (f : PortFrame) : ∀ (a : List Nat) {s : State} (_ : Keeps L s₀ s)
    (_ : 937864 ||| L = L), Keeps L s₀ (State.feedStrata p f a s)
  | [], _, h, _ => h
  | k :: ks, s, h, hl => by
    rw [State.feedStrata]
    split
    rename_i s1 map e1
    have h1 : Keeps L s₀ s1 := by
      split at e1
      · cases e1; exact h
      · exact keeps_readBerth' e1 h (sub_trans rfl hl)
    clear e1
    refine keeps_feedStrata p f ks ?_ hl
    refine keeps_ite ?_ (keeps_emit _ _ _ _ ?_ (sub_trans rfl hl))
    · exact keeps_feedRuns _ _ _ _ h1 (sub_trans rfl hl)
    · exact keeps_feedRuns _ _ _ _ h1 (sub_trans rfl hl)

theorem keeps_feedFrame {L : Nat} {s₀ s : State} (p : Nat) (r : LogRec) (h : Keeps L s₀ s)
    (hl : 937864 ||| L = L) : Keeps L s₀ (State.feedFrame s p r) := by
  unfold State.feedFrame
  repeat' first
    | with_reducible exact h
    | exact sub_trans rfl hl
    | with_reducible assumption
    | with_reducible refine keeps_acquire _ _ ?_ ?_
    | (with_reducible refine keeps_acquire' (by assumption) ?_ ?_)
    | with_reducible refine keeps_releasePost _ _ _ ?_ ?_
    | with_reducible refine keeps_release _ _ ?_ ?_
    | with_reducible refine keeps_diverge _ _ _ _ _ ?_ ?_
    | with_reducible refine keeps_setLog _ ?_ ?_
    | with_reducible refine keeps_feedStrata _ _ _ ?_ ?_
    | with_reducible refine keeps_popQ _ ?_ ?_
    | (with_reducible refine keeps_popQ' (by assumption) ?_ ?_)
    | with_reducible refine keeps_pipeInPush _ _ _ ?_ ?_
    | simp only [keeps_regs_iff (sub_trans rfl hl)]
    | with_reducible refine keeps_foldl _ _ (fun _ _ hx => ?_) ?_
    | with_reducible refine keeps_ite ?_ ?_
    | split

theorem keeps_feedFrames {L : Nat} {s₀ a2 : State} (p : Nat) (a1 : List LogRec) (h : Keeps L s₀ a2)
    (hl : 937864 ||| L = L) : Keeps L s₀ (State.feedFrames p a1 a2) := by
  fun_induction State.feedFrames p a1 a2
  all_goals repeat' first
      | with_reducible exact h
      | exact sub_trans rfl hl
      | with_reducible assumption
      | with_reducible refine keeps_feedFrame _ _ ?_ ?_
      | simp only [keeps_regs_iff (sub_trans rfl hl), keeps_evSet_iff (sub_trans rfl hl), keeps_evAdd_iff (sub_trans rfl hl), keeps_evPosted_iff (sub_trans rfl hl), keeps_fab_iff (sub_trans rfl hl), keeps_pilots_iff (sub_trans rfl hl), keeps_log_iff (sub_trans rfl hl), keeps_queues_iff (sub_trans rfl hl), keeps_leaves_iff (sub_trans rfl hl)]
      | with_reducible refine keeps_foldl _ _ (fun _ _ hx => ?_) ?_
      | with_reducible apply_assumption

theorem keeps_feederTide {L : Nat} {s₀ s : State} (p : Nat) (n : Nat) (h : Keeps L s₀ s)
    (hl : 937864 ||| L = L) : Keeps L s₀ (State.feederTide s p n) := by
  unfold State.feederTide
  repeat' first
    | with_reducible exact h
    | exact sub_trans rfl hl
    | with_reducible assumption
    | with_reducible refine keeps_feedFrames _ _ ?_ ?_
    | simp only [keeps_regs_iff (sub_trans rfl hl), keeps_evSet_iff (sub_trans rfl hl), keeps_evAdd_iff (sub_trans rfl hl), keeps_evPosted_iff (sub_trans rfl hl), keeps_fab_iff (sub_trans rfl hl), keeps_pilots_iff (sub_trans rfl hl), keeps_log_iff (sub_trans rfl hl), keeps_queues_iff (sub_trans rfl hl), keeps_leaves_iff (sub_trans rfl hl)]
    | with_reducible refine keeps_foldl _ _ (fun _ _ hx => ?_) ?_
    | with_reducible refine keeps_ite ?_ ?_

theorem keeps_replayObject {L : Nat} {s₀ s : State} (q : Nat) (r : Nat) (head : List Byte) (data : List Byte) (whole : Bool) (h : Keeps L s₀ s)
    (hl : 4295905160 ||| L = L) : Keeps L s₀ (State.replayObject s q r head data whole) := by
  unfold State.replayObject
  repeat' first
    | with_reducible exact h
    | exact sub_trans rfl hl
    | with_reducible assumption
    | with_reducible refine keeps_releasePost _ _ _ ?_ ?_
    | with_reducible refine keeps_rxStart _ _ _ _ _ ?_ ?_
    | with_reducible refine keeps_emit _ _ _ _ ?_ ?_
    | with_reducible refine keeps_setRx _ _ _ ?_ ?_
    | dsimp only
    | with_reducible refine keeps_foldl _ _ (fun _ _ hx => ?_) ?_
    | with_reducible refine keeps_ite ?_ ?_
    | split

theorem keeps_replayObjects {L : Nat} {s₀ a5 : State} (q : Nat) (r : Nat) (whole : Bool) (a3 : Nat) (a4 : List Byte) (h : Keeps L s₀ a5)
    (hl : 4295905160 ||| L = L) : Keeps L s₀ (State.replayObjects q r whole a3 a4 a5) := by
  fun_induction State.replayObjects q r whole a3 a4 a5
  all_goals repeat' first
      | with_reducible exact h
      | exact sub_trans rfl hl
      | with_reducible assumption
      | with_reducible refine keeps_replayObject _ _ _ _ _ ?_ ?_
      | simp only [keeps_regs_iff (sub_trans rfl hl), keeps_evSet_iff (sub_trans rfl hl), keeps_evAdd_iff (sub_trans rfl hl), keeps_evPosted_iff (sub_trans rfl hl), keeps_fab_iff (sub_trans rfl hl), keeps_pilots_iff (sub_trans rfl hl), keeps_log_iff (sub_trans rfl hl), keeps_queues_iff (sub_trans rfl hl), keeps_leaves_iff (sub_trans rfl hl), keeps_nets_iff (sub_trans rfl hl)]
      | with_reducible refine keeps_foldl _ _ (fun _ _ hx => ?_) ?_
      | with_reducible apply_assumption

theorem keeps_netReplay {L : Nat} {s₀ a3 : State} (q : Nat) (n : Nat) (a2 : List Nat) (h : Keeps L s₀ a3)
    (hl : 4295905160 ||| L = L) : Keeps L s₀ (State.netReplay q n a2 a3) := by
  fun_induction State.netReplay q n a2 a3
  all_goals repeat' first
      | with_reducible exact h
      | exact sub_trans rfl hl
      | with_reducible assumption
      | with_reducible refine keeps_setLog _ ?_ ?_
      | with_reducible refine keeps_replayObjects _ _ _ _ _ ?_ ?_
      | simp only [keeps_regs_iff (sub_trans rfl hl), keeps_evSet_iff (sub_trans rfl hl), keeps_evAdd_iff (sub_trans rfl hl), keeps_evPosted_iff (sub_trans rfl hl), keeps_fab_iff (sub_trans rfl hl), keeps_pilots_iff (sub_trans rfl hl), keeps_log_iff (sub_trans rfl hl), keeps_queues_iff (sub_trans rfl hl), keeps_leaves_iff (sub_trans rfl hl), keeps_nets_iff (sub_trans rfl hl)]
      | with_reducible refine keeps_foldl _ _ (fun _ _ hx => ?_) ?_
      | with_reducible apply_assumption

end Sys2Proof.Machine
end

