-- ==== Sys2Proof/Laws/FrameControl.lean ====
section
/-! SUPPORT. One lemma per operation over the state: the parts it may change, as a bit mask (Part.idx); the operations of pilots, memory, two-wire buses, power, views, landings, control space, HCP and tides. -/

namespace Sys2Proof.Machine

open State

theorem keeps_setX {L : Nat} {s₀ s : State} (k : Nat) (i : Fin 32) (v : Word64) (h : Keeps L s₀ s)
    (hl : 16384 ||| L = L) : Keeps L s₀ (State.setX s k i v) := by
  unfold State.setX
  repeat' first
    | with_reducible exact h
    | exact sub_trans rfl hl
    | with_reducible assumption
    | with_reducible refine keeps_setPilot _ _ ?_ ?_
    | dsimp only
    | with_reducible refine keeps_foldl _ _ (fun _ _ hx => ?_) ?_
    | with_reducible refine keeps_ite ?_ ?_

theorem keeps_setPred {L : Nat} {s₀ s : State} (k : Nat) (i : Fin 8) (b : Bool) (h : Keeps L s₀ s)
    (hl : 16384 ||| L = L) : Keeps L s₀ (State.setPred s k i b) := by
  unfold State.setPred
  repeat' first
    | with_reducible exact h
    | exact sub_trans rfl hl
    | with_reducible assumption
    | with_reducible refine keeps_setPilot _ _ ?_ ?_
    | dsimp only
    | with_reducible refine keeps_foldl _ _ (fun _ _ hx => ?_) ?_
    | with_reducible refine keeps_ite ?_ ?_

theorem keeps_storeAt {L : Nat} {s₀ s : State} (k : Nat) (a : Nat) (bs : List Byte) (h : Keeps L s₀ s)
    (hl : 49152 ||| L = L) : Keeps L s₀ (State.storeAt s k a bs) := by
  unfold State.storeAt
  repeat' first
    | with_reducible exact h
    | exact sub_trans rfl hl
    | with_reducible assumption
    | with_reducible refine keeps_setPilot _ _ ?_ ?_
    | simp only [keeps_shared_iff (sub_trans rfl hl)]
    | with_reducible refine keeps_foldl _ _ (fun _ _ hx => ?_) ?_
    | with_reducible refine keeps_ite ?_ ?_

theorem keeps_divergePilot {L : Nat} {s₀ s : State} (k : Nat) (h : Keeps L s₀ s)
    (hl : 152456 ||| L = L) : Keeps L s₀ (State.divergePilot s k) := by
  unfold State.divergePilot
  repeat' first
    | with_reducible exact h
    | exact sub_trans rfl hl
    | with_reducible assumption
    | with_reducible refine keeps_diverge _ _ _ _ _ ?_ ?_
    | with_reducible refine keeps_setPilot _ _ ?_ ?_
    | with_reducible refine keeps_dropTxn _ ?_ ?_

theorem keeps_pilotRec {L : Nat} {s₀ s : State} (k : Nat) (sub : Nat) (more : List Nat) (h : Keeps L s₀ s)
    (hl : 152456 ||| L = L) : Keeps L s₀ (State.pilotRec s k sub more) := by
  unfold State.pilotRec
  repeat' first
    | with_reducible exact h
    | exact sub_trans rfl hl
    | with_reducible assumption
    | with_reducible refine keeps_divergePilot _ ?_ ?_
    | with_reducible refine keeps_compareRec _ _ _ _ (fun _ hx => ?_) (fun _ hx => ?_) ?_ ?_
    | with_reducible refine keeps_logRec _ _ _ _ ?_ ?_
    | simp only [keeps_regs_iff (sub_trans rfl hl), keeps_evSet_iff (sub_trans rfl hl), keeps_evAdd_iff (sub_trans rfl hl), keeps_evPosted_iff (sub_trans rfl hl), keeps_pilots_iff (sub_trans rfl hl), keeps_log_iff (sub_trans rfl hl)]
    | with_reducible refine keeps_foldl _ _ (fun _ _ hx => ?_) ?_
    | with_reducible refine keeps_ite ?_ ?_

theorem keeps_halt {L : Nat} {s₀ s : State} (k : Nat) (cause : Nat) (pc : Nat) (h : Keeps L s₀ s)
    (hl : 152456 ||| L = L) : Keeps L s₀ (State.halt s k cause pc) := by
  unfold State.halt
  repeat' first
    | with_reducible exact h
    | exact sub_trans rfl hl
    | with_reducible assumption
    | with_reducible refine keeps_post _ _ _ _ ?_ ?_
    | with_reducible refine keeps_setPilot _ _ ?_ ?_
    | with_reducible refine keeps_pilotRec _ _ _ ?_ ?_
    | with_reducible refine keeps_dropTxn _ ?_ ?_

theorem keeps_takeExc {L : Nat} {s₀ s : State} (k : Nat) (cause : Nat) (eval : Word64) (epc : Nat) (h : Keeps L s₀ s)
    (hl : 152456 ||| L = L) : Keeps L s₀ (State.takeExc s k cause eval epc) := by
  unfold State.takeExc
  repeat' first
    | with_reducible exact h
    | exact sub_trans rfl hl
    | with_reducible assumption
    | with_reducible refine keeps_halt _ _ _ ?_ ?_
    | with_reducible refine keeps_setPilot _ _ ?_ ?_
    | dsimp only
    | with_reducible refine keeps_foldl _ _ (fun _ _ hx => ?_) ?_
    | with_reducible refine keeps_ite ?_ ?_

theorem keeps_retireTo {L : Nat} {s₀ s : State} (k : Nat) (pc : Nat) (h : Keeps L s₀ s)
    (hl : 16384 ||| L = L) : Keeps L s₀ (State.retireTo s k pc) := by
  unfold State.retireTo
  repeat' first
    | with_reducible exact h
    | exact sub_trans rfl hl
    | with_reducible assumption
    | with_reducible refine keeps_setPilot _ _ ?_ ?_

theorem keeps_logDockets {L : Nat} {s₀ a2 : State} (k : Nat) (a1 : List Docket) (h : Keeps L s₀ a2)
    (hl : 148360 ||| L = L) : Keeps L s₀ (State.logDockets k a1 a2) := by
  fun_induction State.logDockets k a1 a2
  all_goals repeat' first
      | with_reducible exact h
      | exact sub_trans rfl hl
      | with_reducible assumption
      | with_reducible refine keeps_logRec _ _ _ _ ?_ ?_
      | simp only [keeps_regs_iff (sub_trans rfl hl), keeps_evSet_iff (sub_trans rfl hl), keeps_evAdd_iff (sub_trans rfl hl), keeps_evPosted_iff (sub_trans rfl hl), keeps_pilots_iff (sub_trans rfl hl), keeps_log_iff (sub_trans rfl hl)]
      | with_reducible refine keeps_foldl _ _ (fun _ _ hx => ?_) ?_
      | with_reducible apply_assumption

theorem keeps_replayDockets {L : Nat} {s₀ s : State} (k : Nat) (h : Keeps L s₀ s)
    (hl : 147456 ||| L = L) : Keeps L s₀ (State.replayDockets s k) := by
  unfold State.replayDockets
  repeat' first
    | with_reducible exact h
    | exact sub_trans rfl hl
    | with_reducible assumption
    | with_reducible refine keeps_setPilot _ _ ?_ ?_
    | simp only [keeps_log_iff (sub_trans rfl hl)]

theorem keeps_releaseDockets {L : Nat} {s₀ s : State} (k : Nat) (cyc : Nat) (h : Keeps L s₀ s)
    (hl : 148360 ||| L = L) : Keeps L s₀ (State.releaseDockets s k cyc) := by
  unfold State.releaseDockets
  repeat' first
    | with_reducible exact h
    | exact sub_trans rfl hl
    | with_reducible assumption
    | with_reducible refine keeps_logDockets _ _ ?_ ?_
    | with_reducible refine keeps_setPilot _ _ ?_ ?_
    | with_reducible refine keeps_replayDockets _ ?_ ?_
    | dsimp only
    | with_reducible refine keeps_foldl _ _ (fun _ _ hx => ?_) ?_
    | with_reducible refine keeps_ite ?_ ?_

theorem keeps_publish {L : Nat} {s₀ s : State} (k : Nat) (h : Keeps L s₀ s)
    (hl : 65536 ||| L = L) : Keeps L s₀ (State.publish s k) := by
  unfold State.publish
  repeat' first
    | with_reducible exact h
    | exact sub_trans rfl hl
    | with_reducible assumption
    | simp only [keeps_published_iff (sub_trans rfl hl)]

theorem keeps_doRelease {L : Nat} {s₀ s : State} (k : Nat) (r : Nat) (h : Keeps L s₀ s)
    (hl : 213896 ||| L = L) : Keeps L s₀ (State.doRelease s k r) := by
  unfold State.doRelease
  repeat' first
    | with_reducible exact h
    | exact sub_trans rfl hl
    | with_reducible assumption
    | with_reducible refine keeps_releaseDockets _ _ ?_ ?_
    | with_reducible refine keeps_setPilot _ _ ?_ ?_
    | with_reducible refine keeps_publish _ ?_ ?_
    | with_reducible refine keeps_setX _ _ _ ?_ ?_

theorem keeps_discardQueue {L : Nat} {s₀ s : State} (k : Nat) (h : Keeps L s₀ s)
    (hl : 16648 ||| L = L) : Keeps L s₀ (State.discardQueue s k) := by
  unfold State.discardQueue
  repeat' first
    | with_reducible exact h
    | exact sub_trans rfl hl
    | with_reducible assumption
    | with_reducible refine keeps_setPilot _ _ ?_ ?_
    | with_reducible refine keeps_count _ _ ?_ ?_
    | dsimp only
    | with_reducible refine keeps_foldl _ _ (fun _ _ hx => ?_) ?_
    | with_reducible refine keeps_ite ?_ ?_

theorem keeps_stopPilot {L : Nat} {s₀ s : State} (k : Nat) (h : Keeps L s₀ s)
    (hl : 152456 ||| L = L) : Keeps L s₀ (State.stopPilot s k) := by
  unfold State.stopPilot
  repeat' first
    | with_reducible exact h
    | exact sub_trans rfl hl
    | with_reducible assumption
    | with_reducible refine keeps_discardQueue _ ?_ ?_
    | with_reducible refine keeps_pilotRec _ _ _ ?_ ?_
    | with_reducible refine keeps_setPilot _ _ ?_ ?_
    | with_reducible refine keeps_dropTxn _ ?_ ?_
    | dsimp only
    | with_reducible refine keeps_foldl _ _ (fun _ _ hx => ?_) ?_
    | with_reducible refine keeps_ite ?_ ?_
    | split

theorem keeps_resetPilot {L : Nat} {s₀ s : State} (k : Nat) (h : Keeps L s₀ s)
    (hl : 152456 ||| L = L) : Keeps L s₀ (State.resetPilot s k) := by
  unfold State.resetPilot
  repeat' first
    | with_reducible exact h
    | exact sub_trans rfl hl
    | with_reducible assumption
    | with_reducible refine keeps_stopPilot _ ?_ ?_
    | with_reducible refine keeps_setPilot _ _ ?_ ?_
    | with_reducible refine keeps_discardQueue _ ?_ ?_
    | with_reducible refine keeps_setFld _ _ ?_ ?_

theorem keeps_startPilot {L : Nat} {s₀ s : State} (k : Nat) (h : Keeps L s₀ s)
    (hl : 152456 ||| L = L) : Keeps L s₀ (State.startPilot s k) := by
  unfold State.startPilot
  repeat' first
    | with_reducible exact h
    | exact sub_trans rfl hl
    | with_reducible assumption
    | with_reducible refine keeps_pilotRec _ _ _ ?_ ?_
    | with_reducible refine keeps_setPilot _ _ ?_ ?_
    | dsimp only
    | with_reducible refine keeps_foldl _ _ (fun _ _ hx => ?_) ?_
    | with_reducible refine keeps_ite ?_ ?_
    | split

theorem keeps_abandonMoves {L : Nat} {s₀ s : State} (k : Nat) (t : Nat) (h : Keeps L s₀ s)
    (hl : 16384 ||| L = L) : Keeps L s₀ (State.abandonMoves s k t) := by
  unfold State.abandonMoves
  repeat' first
    | with_reducible exact h
    | exact sub_trans rfl hl
    | with_reducible assumption
    | with_reducible refine keeps_setPilot _ _ ?_ ?_

theorem keeps_beginPilot {L : Nat} {s₀ s : State} (k : Nat) (h : Keeps L s₀ s)
    (hl : 148360 ||| L = L) : Keeps L s₀ (State.beginPilot s k) := by
  unfold State.beginPilot
  repeat' first
    | with_reducible exact h
    | exact sub_trans rfl hl
    | with_reducible assumption
    | with_reducible refine keeps_releaseDockets _ _ ?_ ?_
    | with_reducible refine keeps_setPilot _ _ ?_ ?_
    | dsimp only
    | with_reducible refine keeps_foldl _ _ (fun _ _ hx => ?_) ?_
    | with_reducible refine keeps_ite ?_ ?_

/-- What the outcome of an instruction's body may have changed. -/
def OutKeeps (L : Nat) (s₀ : State) : IOut → Prop
  | .retire t => Keeps L s₀ t
  | .jump t _ => Keeps L s₀ t
  | .exc _ _ => True
  | .stall => True

/-- What an instruction's own body may change, `issue` may change, and what retiring or an exception changes. -/
theorem keeps_issue {L : Nat} {s₀ s : State} (k word : Nat) (g : Guard) (body : State → IOut) (hb : OutKeeps L s₀ (body s))
    (h : Keeps L s₀ s) (hl : 152456 ||| L = L) : Keeps L s₀ (State.issue s k word g body) := by
  unfold State.issue
  refine keeps_ite h (keeps_ite ?_ (keeps_ite ?_ (keeps_ite ?_ ?_)))
  · exact keeps_takeExc _ _ _ _ h (sub_trans rfl hl)
  · exact keeps_takeExc _ _ _ _ h (sub_trans rfl hl)
  · exact keeps_retireTo _ _ h (sub_trans rfl hl)
  · split
    · rename_i e; rw [e] at hb; exact keeps_retireTo _ _ hb (sub_trans rfl hl)
    · rename_i e; rw [e] at hb; exact keeps_retireTo _ _ hb (sub_trans rfl hl)
    · exact keeps_takeExc _ _ _ _ h (sub_trans rfl hl)
    · exact h

theorem outKeeps_illegal {L : Nat} {s₀ : State} (w : Nat) : OutKeeps L s₀ (illegal w) := trivial

theorem outKeeps_ifZero {L : Nat} {s₀ : State} {ok : Bool} {w : Nat} {r : IOut} (h : OutKeeps L s₀ r) :
    OutKeeps L s₀ (ifZero ok w r) := by
  unfold ifZero
  split
  · exact h
  · trivial

theorem outKeeps_put {L : Nat} {s₀ s : State} (k : Nat) (rd : Fin 32) (v : Word64) (h : Keeps L s₀ s)
    (hl : 16384 ||| L = L) : OutKeeps L s₀ (s.put k rd v) := keeps_setX _ _ _ h hl

theorem outKeeps_load {L : Nat} {s₀ s : State} (k n : Nat) (f : FmtI) (h : Keeps L s₀ s)
    (hl : 16384 ||| L = L) : OutKeeps L s₀ (s.load k n f) := by
  unfold State.load
  extract_lets a
  split
  · trivial
  split
  · trivial
  · exact outKeeps_put _ _ _ h hl

theorem outKeeps_store {L : Nat} {s₀ s : State} (k n : Nat) (f : FmtI) (h : Keeps L s₀ s)
    (hl : 49152 ||| L = L) : OutKeeps L s₀ (s.store k n f) := by
  unfold State.store
  extract_lets a c
  split
  · trivial
  split
  · trivial
  · exact keeps_storeAt _ _ _ h hl

/-- A logged instruction changes what its effect and what replay applies change, the register, and the logbook. -/
theorem outKeeps_logged {L : Nat} {s₀ s : State} (k op : Nat) (rd : Fin 32) (run : State → State × Nat) (more : State → List Nat)
    (apply : State → LogRec → State) (hrun : ∀ x, Keeps L s₀ x → Keeps L s₀ (run x).1)
    (happly : ∀ x r, Keeps L s₀ x → Keeps L s₀ (apply x r)) (h : Keeps L s₀ s) (hl : 152456 ||| L = L) :
    OutKeeps L s₀ (s.logged k op rd run more apply) := by
  unfold State.logged
  split
  · split
    · have h1 : ∀ v, Keeps L s₀ { s with log := v } := fun v => keeps_log h (sub_trans rfl hl)
      dsimp only
      split
      · exact outKeeps_put _ _ _ (happly _ _ (h1 _)) (sub_trans rfl hl)
      · exact keeps_divergePilot _ (h1 _) (sub_trans rfl hl)
    · exact keeps_divergePilot _ h (sub_trans rfl hl)
  · exact keeps_logRec _ _ _ _ (keeps_setX _ _ _ (hrun _ h) (sub_trans rfl hl)) (sub_trans rfl hl)

theorem keeps_moveAcquire {L : Nat} {s₀ s : State} (k : Nat) (m : Move) (h : Keeps L s₀ s)
    (hl : 150408 ||| L = L) : Keeps L s₀ (State.moveAcquire s k m).1 := by
  unfold State.moveAcquire
  repeat' first
    | with_reducible exact h
    | exact sub_trans rfl hl
    | with_reducible assumption
    | with_reducible refine keeps_acquire _ _ ?_ ?_
    | (with_reducible refine keeps_acquire' (by assumption) ?_ ?_)
    | with_reducible refine keeps_releaseTable _ _ ?_ ?_
    | simp only [keeps_regs_iff (sub_trans rfl hl)]
    | with_reducible refine keeps_foldl _ _ (fun _ _ hx => ?_) ?_
    | with_reducible refine keeps_ite_fst ?_ ?_
    | split

theorem keeps_moveAcquire' {L : Nat} {s₀ s' : State} {s : State} {k : Nat} {m : Move} {res} (he : State.moveAcquire s k m = (s', res)) (h : Keeps L s₀ s)
    (hl : 150408 ||| L = L) : Keeps L s₀ s' := by
  have := keeps_moveAcquire k m h hl
  rwa [he] at this

theorem keeps_hashReset {L : Nat} {s₀ s : State} (k : Nat) (alg : Nat) (h : Keeps L s₀ s)
    (hl : 16384 ||| L = L) : Keeps L s₀ (State.hashReset s k alg) := by
  unfold State.hashReset
  repeat' first
    | with_reducible exact h
    | exact sub_trans rfl hl
    | with_reducible assumption
    | with_reducible refine keeps_setPilot _ _ ?_ ?_

theorem keeps_waitFrom {L : Nat} {s₀ s : State} (k : Nat) (rd : Fin 32) (least : Nat) (h : Keeps L s₀ s)
    (hl : 16384 ||| L = L) : Keeps L s₀ (State.waitFrom s k rd least) := by
  unfold State.waitFrom
  repeat' first
    | with_reducible exact h
    | exact sub_trans rfl hl
    | with_reducible assumption
    | with_reducible refine keeps_setPilot _ _ ?_ ?_

theorem keeps_bcmdReplay {L : Nat} {s₀ s : State} (k : Nat) (a : Nat) (alloc : Bool) (r : LogRec) (h : Keeps L s₀ s)
    (hl : 51200 ||| L = L) : Keeps L s₀ (bcmdReplay k a alloc s r) := by
  unfold bcmdReplay
  repeat' first
    | with_reducible exact h
    | exact sub_trans rfl hl
    | with_reducible assumption
    | with_reducible refine keeps_allocate _ _ _ _ _ ?_ ?_
    | (with_reducible refine keeps_allocate' (by assumption) ?_ ?_)
    | with_reducible refine keeps_storeAt _ _ _ ?_ ?_
    | dsimp only
    | with_reducible refine keeps_foldl _ _ (fun _ _ hx => ?_) ?_
    | with_reducible refine keeps_ite ?_ ?_

theorem keeps_setMemPc {L : Nat} {s₀ s : State} (k : Nat) (x : MemPc) (h : Keeps L s₀ s)
    (hl : 268435456 ||| L = L) : Keeps L s₀ (State.setMemPc s k x) := by
  unfold State.setMemPc
  repeat' first
    | with_reducible exact h
    | exact sub_trans rfl hl
    | with_reducible assumption
    | simp only [keeps_memsys_iff (sub_trans rfl hl)]

theorem keeps_memRaise {L : Nat} {s₀ s : State} (c : Nat) (m : Nat) (h : Keeps L s₀ s)
    (hl : 17288 ||| L = L) : Keeps L s₀ (State.memRaise s c m) := by
  unfold State.memRaise
  repeat' first
    | with_reducible exact h
    | exact sub_trans rfl hl
    | with_reducible assumption
    | with_reducible refine keeps_raiseAt _ _ _ _ _ _ ?_ ?_

theorem keeps_escalateAll {L : Nat} {s₀ s : State}  (h : Keeps L s₀ s)
    (hl : 268435456 ||| L = L) : Keeps L s₀ (State.escalateAll s) := by
  unfold State.escalateAll
  repeat' first
    | with_reducible exact h
    | exact sub_trans rfl hl
    | with_reducible assumption
    | simp only [keeps_memsys_iff (sub_trans rfl hl)]

theorem keeps_poolEnter {L : Nat} {s₀ s : State} (r : MemReq) (h : Keeps L s₀ s)
    (hl : 268435456 ||| L = L) : Keeps L s₀ (State.poolEnter s r).1 := by
  unfold State.poolEnter
  repeat' first
    | with_reducible exact h
    | exact sub_trans rfl hl
    | with_reducible assumption
    | with_reducible refine keeps_setMemPc _ _ ?_ ?_
    | simp only [keeps_memsys_iff (sub_trans rfl hl)]
    | with_reducible refine keeps_foldl _ _ (fun _ _ hx => ?_) ?_
    | with_reducible refine keeps_ite_fst ?_ ?_

theorem keeps_poolEnter' {L : Nat} {s₀ s' : State} {s : State} {r : MemReq} {res} (he : State.poolEnter s r = (s', res)) (h : Keeps L s₀ s)
    (hl : 268435456 ||| L = L) : Keeps L s₀ s' := by
  have := keeps_poolEnter r h hl
  rwa [he] at this

theorem keeps_takeIn {L : Nat} {s₀ : State} : ∀ (a keep : List MemReq) {s : State} (_ : Keeps L s₀ s)
    (_ : 268435456 ||| L = L), Keeps L s₀ (State.takeIn a keep s)
  | [], _, _, h, hl => keeps_memsys h hl
  | r :: rs, keep, s, h, hl => by
    rw [State.takeIn]
    split
    rename_i s1 ok e1
    have h1 : Keeps L s₀ s1 := by
      split at e1
      · cases e1; exact h
      · exact keeps_poolEnter' e1 h hl
    exact keeps_takeIn rs _ h1 hl

theorem keeps_memRequest {L : Nat} {s₀ s : State} (q : Nat) (a : Nat) (half : Bool) (write : Bool) (ecc : Nat) (h : Keeps L s₀ s)
    (hl : 268435456 ||| L = L) : Keeps L s₀ (State.memRequest s q a half write ecc) := by
  unfold State.memRequest
  repeat' first
    | with_reducible exact h
    | exact sub_trans rfl hl
    | with_reducible assumption
    | with_reducible refine keeps_takeIn _ _ ?_ ?_
    | simp only [keeps_memsys_iff (sub_trans rfl hl)]

theorem keeps_memUncorr {L : Nat} {s₀ s : State} (a : Nat) (h : Keeps L s₀ s)
    (hl : 148360 ||| L = L) : Keeps L s₀ (State.memUncorr s a) := by
  unfold State.memUncorr
  repeat' first
    | with_reducible exact h
    | exact sub_trans rfl hl
    | with_reducible assumption
    | with_reducible refine keeps_note _ _ _ _ ?_ ?_
    | with_reducible refine keeps_memRaise _ _ ?_ ?_
    | with_reducible refine keeps_count _ _ ?_ ?_
    | with_reducible refine keeps_setFld2 _ _ _ ?_ ?_

theorem keeps_memLatency {L : Nat} {s₀ s : State} (r : MemReq) (h : Keeps L s₀ s)
    (hl : 264 ||| L = L) : Keeps L s₀ (State.memLatency s r) := by
  unfold State.memLatency
  repeat' first
    | with_reducible exact h
    | exact sub_trans rfl hl
    | with_reducible assumption
    | with_reducible refine keeps_count _ _ ?_ ?_
    | with_reducible refine keeps_rcEvent _ _ _ ?_ ?_
    | dsimp only
    | with_reducible refine keeps_foldl _ _ (fun _ _ hx => ?_) ?_
    | with_reducible refine keeps_ite ?_ ?_

theorem keeps_perform {L : Nat} {s₀ s : State} (k : Nat) (r : MemReq) (h : Keeps L s₀ s)
    (hl : 268583816 ||| L = L) : Keeps L s₀ (State.perform s k r) := by
  unfold State.perform
  repeat' first
    | with_reducible exact h
    | exact sub_trans rfl hl
    | with_reducible assumption
    | with_reducible refine keeps_count _ _ ?_ ?_
    | with_reducible refine keeps_setMemPc _ _ ?_ ?_
    | with_reducible refine keeps_memRaise _ _ ?_ ?_
    | with_reducible refine keeps_memUncorr _ ?_ ?_
    | with_reducible refine keeps_memLatency _ ?_ ?_
    | simp only [keeps_memsys_iff (sub_trans rfl hl)]
    | with_reducible refine keeps_foldl _ _ (fun _ _ hx => ?_) ?_
    | with_reducible refine keeps_ite ?_ ?_

theorem keeps_memSlot {L : Nat} {s₀ s : State} (k : Nat) (h : Keeps L s₀ s)
    (hl : 268583820 ||| L = L) : Keeps L s₀ (State.memSlot s k) := by
  unfold State.memSlot
  repeat' first
    | with_reducible exact h
    | exact sub_trans rfl hl
    | with_reducible assumption
    | with_reducible refine keeps_setMemPc _ _ ?_ ?_
    | with_reducible refine keeps_perform _ _ ?_ ?_
    | with_reducible refine keeps_nextFree ?_ ?_
    | dsimp only
    | with_reducible refine keeps_foldl _ _ (fun _ _ hx => ?_) ?_
    | with_reducible refine keeps_ite ?_ ?_
    | split

theorem keeps_memSlots {L : Nat} {s₀ a1 : State} (a0 : List Nat) (h : Keeps L s₀ a1)
    (hl : 268583820 ||| L = L) : Keeps L s₀ (State.memSlots a0 a1) := by
  fun_induction State.memSlots a0 a1
  all_goals repeat' first
      | with_reducible exact h
      | exact sub_trans rfl hl
      | with_reducible assumption
      | with_reducible refine keeps_memSlot _ ?_ ?_
      | simp only [keeps_fresh_iff (sub_trans rfl hl), keeps_regs_iff (sub_trans rfl hl), keeps_evSet_iff (sub_trans rfl hl), keeps_evAdd_iff (sub_trans rfl hl), keeps_evPosted_iff (sub_trans rfl hl), keeps_pilots_iff (sub_trans rfl hl), keeps_log_iff (sub_trans rfl hl), keeps_memsys_iff (sub_trans rfl hl)]
      | with_reducible refine keeps_foldl _ _ (fun _ _ hx => ?_) ?_
      | with_reducible apply_assumption
      | with_reducible refine keeps_ite ?_ ?_

theorem keeps_endWindows {L : Nat} {s₀ a1 : State} (a0 : List Nat) (h : Keeps L s₀ a1)
    (hl : 8 ||| L = L) : Keeps L s₀ (State.endWindows a0 a1) := by
  fun_induction State.endWindows a0 a1
  all_goals repeat' first
      | with_reducible exact h
      | exact sub_trans rfl hl
      | with_reducible assumption
      | with_reducible refine keeps_setFld _ _ ?_ ?_
      | simp only [keeps_regs_iff (sub_trans rfl hl)]
      | with_reducible refine keeps_foldl _ _ (fun _ _ hx => ?_) ?_
      | with_reducible apply_assumption
      | with_reducible refine keeps_ite ?_ ?_

theorem keeps_memTick {L : Nat} {s₀ s : State}  (h : Keeps L s₀ s)
    (hl : 268583820 ||| L = L) : Keeps L s₀ (State.memTick s) := by
  unfold State.memTick
  repeat' first
    | with_reducible exact h
    | exact sub_trans rfl hl
    | with_reducible assumption
    | with_reducible refine keeps_takeIn _ _ ?_ ?_
    | with_reducible refine keeps_endWindows _ ?_ ?_
    | with_reducible refine keeps_escalateAll ?_ ?_
    | with_reducible refine keeps_memSlots _ ?_ ?_
    | dsimp only
    | with_reducible refine keeps_foldl _ _ (fun _ _ hx => ?_) ?_
    | with_reducible refine keeps_ite ?_ ?_

theorem keeps_closeRow {L : Nat} {s₀ s : State} (k : Nat) (b : Nat) (h : Keeps L s₀ s)
    (hl : 268435456 ||| L = L) : Keeps L s₀ (State.closeRow s k b) := by
  unfold State.closeRow
  repeat' first
    | with_reducible exact h
    | exact sub_trans rfl hl
    | with_reducible assumption
    | with_reducible refine keeps_setMemPc _ _ ?_ ?_

theorem keeps_pageIdle {L : Nat} {s₀ s : State} (k : Nat) (b : Nat) (h : Keeps L s₀ s)
    (hl : 268435456 ||| L = L) : Keeps L s₀ (State.pageIdle s k b) := by
  unfold State.pageIdle
  repeat' first
    | with_reducible exact h
    | exact sub_trans rfl hl
    | with_reducible assumption
    | with_reducible refine keeps_closeRow _ _ ?_ ?_
    | dsimp only
    | with_reducible refine keeps_foldl _ _ (fun _ _ hx => ?_) ?_
    | with_reducible refine keeps_ite ?_ ?_

theorem keeps_memRefresh {L : Nat} {s₀ s : State} (k : Nat) (b : Nat) (limit : Bool) (h : Keeps L s₀ s)
    (hl : 268435720 ||| L = L) : Keeps L s₀ (State.memRefresh s k b limit) := by
  unfold State.memRefresh
  repeat' first
    | with_reducible exact h
    | exact sub_trans rfl hl
    | with_reducible assumption
    | with_reducible refine keeps_count _ _ ?_ ?_
    | with_reducible refine keeps_closeRow _ _ ?_ ?_
    | dsimp only
    | with_reducible refine keeps_foldl _ _ (fun _ _ hx => ?_) ?_
    | with_reducible refine keeps_ite ?_ ?_

theorem keeps_closeRows {L : Nat} {s₀ a2 : State} (k : Nat) (a1 : List Nat) (h : Keeps L s₀ a2)
    (hl : 268435456 ||| L = L) : Keeps L s₀ (State.closeRows k a1 a2) := by
  fun_induction State.closeRows k a1 a2
  all_goals repeat' first
      | with_reducible exact h
      | exact sub_trans rfl hl
      | with_reducible assumption
      | with_reducible refine keeps_closeRow _ _ ?_ ?_
      | simp only [keeps_memsys_iff (sub_trans rfl hl)]
      | with_reducible refine keeps_foldl _ _ (fun _ _ hx => ?_) ?_
      | with_reducible apply_assumption
      | with_reducible refine keeps_ite ?_ ?_

theorem keeps_idleWindow {L : Nat} {s₀ s : State} (c : Nat) (pc : Nat) (h : Keeps L s₀ s)
    (hl : 271729544 ||| L = L) : Keeps L s₀ (State.idleWindow s c pc) := by
  unfold State.idleWindow
  repeat' first
    | with_reducible exact h
    | exact sub_trans rfl hl
    | with_reducible assumption
    | with_reducible refine keeps_setFld _ _ ?_ ?_
    | with_reducible refine keeps_closeRows _ _ ?_ ?_
    | with_reducible refine keeps_calBoundary _ _ _ ?_ ?_
    | simp only [keeps_memsys_iff (sub_trans rfl hl)]
    | with_reducible refine keeps_foldl _ _ (fun _ _ hx => ?_) ?_
    | with_reducible refine keeps_ite ?_ ?_

theorem keeps_memTrainDone {L : Nat} {s₀ s : State} (c : Nat) (ok : Bool) (h : Keeps L s₀ s)
    (hl : 17288 ||| L = L) : Keeps L s₀ (State.memTrainDone s c ok) := by
  unfold State.memTrainDone
  repeat' first
    | with_reducible exact h
    | exact sub_trans rfl hl
    | with_reducible assumption
    | with_reducible refine keeps_memRaise _ _ ?_ ?_
    | with_reducible refine keeps_setFld _ _ ?_ ?_
    | simp only [keeps_regs_iff (sub_trans rfl hl), keeps_evSet_iff (sub_trans rfl hl), keeps_evAdd_iff (sub_trans rfl hl), keeps_evPosted_iff (sub_trans rfl hl), keeps_pilots_iff (sub_trans rfl hl)]
    | with_reducible refine keeps_foldl _ _ (fun _ _ hx => ?_) ?_
    | with_reducible refine keeps_ite ?_ ?_

theorem keeps_memRetrain {L : Nat} {s₀ s : State} (c : Nat) (h : Keeps L s₀ s)
    (hl : 17288 ||| L = L) : Keeps L s₀ (State.memRetrain s c) := by
  unfold State.memRetrain
  repeat' first
    | with_reducible exact h
    | exact sub_trans rfl hl
    | with_reducible assumption
    | with_reducible refine keeps_memRaise _ _ ?_ ?_
    | with_reducible refine keeps_setFld _ _ ?_ ?_
    | simp only [keeps_regs_iff (sub_trans rfl hl), keeps_evSet_iff (sub_trans rfl hl), keeps_evAdd_iff (sub_trans rfl hl), keeps_evPosted_iff (sub_trans rfl hl), keeps_pilots_iff (sub_trans rfl hl)]
    | with_reducible refine keeps_foldl _ _ (fun _ _ hx => ?_) ?_
    | with_reducible refine keeps_ite ?_ ?_

theorem keeps_memRetrainDone {L : Nat} {s₀ s : State} (c : Nat) (ok : Bool) (h : Keeps L s₀ s)
    (hl : 17288 ||| L = L) : Keeps L s₀ (State.memRetrainDone s c ok) := by
  unfold State.memRetrainDone
  repeat' first
    | with_reducible exact h
    | exact sub_trans rfl hl
    | with_reducible assumption
    | with_reducible refine keeps_memRaise _ _ ?_ ?_
    | with_reducible refine keeps_setFld _ _ ?_ ?_
    | simp only [keeps_regs_iff (sub_trans rfl hl), keeps_evSet_iff (sub_trans rfl hl), keeps_evAdd_iff (sub_trans rfl hl), keeps_evPosted_iff (sub_trans rfl hl), keeps_pilots_iff (sub_trans rfl hl)]
    | with_reducible refine keeps_foldl _ _ (fun _ _ hx => ?_) ?_
    | with_reducible refine keeps_ite ?_ ?_

theorem keeps_quayWritten {L : Nat} {s₀ s : State}  (h : Keeps L s₀ s)
    (hl : 136 ||| L = L) : Keeps L s₀ (State.quayWritten s) := by
  unfold State.quayWritten
  repeat' first
    | with_reducible exact h
    | exact sub_trans rfl hl
    | with_reducible assumption
    | with_reducible refine keeps_setBitsOf _ _ ?_ ?_
    | with_reducible refine keeps_setFld _ _ ?_ ?_
    | dsimp only
    | with_reducible refine keeps_foldl _ _ (fun _ _ hx => ?_) ?_
    | with_reducible refine keeps_ite ?_ ?_

theorem keeps_memXlate {L : Nat} {s₀ s : State}  (h : Keeps L s₀ s)
    (hl : 8 ||| L = L) : Keeps L s₀ (State.memXlate s) := by
  unfold State.memXlate
  repeat' first
    | with_reducible exact h
    | exact sub_trans rfl hl
    | with_reducible assumption
    | with_reducible refine keeps_setWord _ _ ?_ ?_
    | with_reducible refine keeps_setFld _ _ ?_ ?_
    | dsimp only
    | with_reducible refine keeps_foldl _ _ (fun _ _ hx => ?_) ?_
    | with_reducible refine keeps_ite ?_ ?_

theorem keeps_setTwb {L : Nat} {s₀ s : State} (b : Nat) (x : Twb) (h : Keeps L s₀ s)
    (hl : 34359738368 ||| L = L) : Keeps L s₀ (State.setTwb s b x) := by
  unfold State.setTwb
  repeat' first
    | with_reducible exact h
    | exact sub_trans rfl hl
    | with_reducible assumption
    | simp only [keeps_twbs_iff (sub_trans rfl hl)]

theorem keeps_setTwbState {L : Nat} {s₀ s : State} (b : Nat) (v : Nat) (h : Keeps L s₀ s)
    (hl : 8 ||| L = L) : Keeps L s₀ (State.setTwbState s b v) := by
  unfold State.setTwbState
  repeat' first
    | with_reducible exact h
    | exact sub_trans rfl hl
    | with_reducible assumption
    | with_reducible refine keeps_setFld _ _ ?_ ?_

theorem keeps_twbRaise {L : Nat} {s₀ s : State} (b : Nat) (m : Nat) (h : Keeps L s₀ s)
    (hl : 17288 ||| L = L) : Keeps L s₀ (State.twbRaise s b m) := by
  unfold State.twbRaise
  repeat' first
    | with_reducible exact h
    | exact sub_trans rfl hl
    | with_reducible assumption
    | with_reducible refine keeps_post _ _ _ _ ?_ ?_
    | with_reducible refine keeps_setBitsOf _ _ ?_ ?_
    | with_reducible refine keeps_raiseAt _ _ _ _ _ _ ?_ ?_
    | dsimp only
    | with_reducible refine keeps_foldl _ _ (fun _ _ hx => ?_) ?_
    | with_reducible refine keeps_ite ?_ ?_

theorem keeps_twbEnd {L : Nat} {s₀ s : State} (b : Nat) (x : TwbXfer) (r : Nat) (n : Nat) (read : List Byte) (h : Keeps L s₀ s)
    (hl : 17288 ||| L = L) : Keeps L s₀ (State.twbEnd s b x r n read) := by
  unfold State.twbEnd
  repeat' first
    | with_reducible exact h
    | exact sub_trans rfl hl
    | with_reducible assumption
    | with_reducible refine keeps_twbRaise _ _ ?_ ?_
    | with_reducible refine keeps_setFld _ _ ?_ ?_
    | with_reducible refine keeps_setFld2 _ _ _ ?_ ?_
    | dsimp only
    | with_reducible refine keeps_foldl _ _ (fun _ _ hx => ?_) ?_
    | with_reducible refine keeps_ite ?_ ?_

theorem keeps_twbEndAll {L : Nat} {s₀ a3 : State} (b : Nat) (r : Nat) (a2 : List TwbXfer) (h : Keeps L s₀ a3)
    (hl : 17288 ||| L = L) : Keeps L s₀ (State.twbEndAll b r a2 a3) := by
  fun_induction State.twbEndAll b r a2 a3
  all_goals repeat' first
      | with_reducible exact h
      | exact sub_trans rfl hl
      | with_reducible assumption
      | with_reducible refine keeps_twbEnd _ _ _ _ _ ?_ ?_
      | simp only [keeps_regs_iff (sub_trans rfl hl), keeps_evSet_iff (sub_trans rfl hl), keeps_evAdd_iff (sub_trans rfl hl), keeps_evPosted_iff (sub_trans rfl hl), keeps_pilots_iff (sub_trans rfl hl)]
      | with_reducible refine keeps_foldl _ _ (fun _ _ hx => ?_) ?_
      | with_reducible apply_assumption

theorem keeps_twbEndCur {L : Nat} {s₀ s : State} (b : Nat) (r : Nat) (h : Keeps L s₀ s)
    (hl : 34359755656 ||| L = L) : Keeps L s₀ (State.twbEndCur s b r) := by
  unfold State.twbEndCur
  repeat' first
    | with_reducible exact h
    | exact sub_trans rfl hl
    | with_reducible assumption
    | with_reducible refine keeps_twbEnd _ _ _ _ _ ?_ ?_
    | with_reducible refine keeps_setTwb _ _ ?_ ?_
    | with_reducible refine keeps_setTwbState _ _ ?_ ?_
    | with_reducible refine keeps_setFld _ _ ?_ ?_
    | dsimp only
    | with_reducible refine keeps_foldl _ _ (fun _ _ hx => ?_) ?_
    | with_reducible refine keeps_ite ?_ ?_
    | split

theorem keeps_twbFlush {L : Nat} {s₀ s : State} (b : Nat) (r : Nat) (h : Keeps L s₀ s)
    (hl : 34359755656 ||| L = L) : Keeps L s₀ (State.twbFlush s b r) := by
  unfold State.twbFlush
  repeat' first
    | with_reducible exact h
    | exact sub_trans rfl hl
    | with_reducible assumption
    | with_reducible refine keeps_setTwb _ _ ?_ ?_
    | with_reducible refine keeps_twbEndAll _ _ _ ?_ ?_
    | with_reducible refine keeps_twbEndCur _ _ ?_ ?_

theorem keeps_twbFault {L : Nat} {s₀ s : State} (b : Nat) (k : Nat) (h : Keeps L s₀ s)
    (hl : 34359755656 ||| L = L) : Keeps L s₀ (State.twbFault s b k) := by
  unfold State.twbFault
  repeat' first
    | with_reducible exact h
    | exact sub_trans rfl hl
    | with_reducible assumption
    | with_reducible refine keeps_setTwb _ _ ?_ ?_
    | with_reducible refine keeps_twbRaise _ _ ?_ ?_
    | with_reducible refine keeps_setTwbState _ _ ?_ ?_
    | with_reducible refine keeps_twbEndCur _ _ ?_ ?_
    | with_reducible refine keeps_setFld _ _ ?_ ?_
    | dsimp only
    | with_reducible refine keeps_foldl _ _ (fun _ _ hx => ?_) ?_
    | with_reducible refine keeps_ite ?_ ?_

theorem keeps_showLines {L : Nat} {s₀ s : State} (b : Nat) (scl : Bool) (sda : Bool) (h : Keeps L s₀ s)
    (hl : 8 ||| L = L) : Keeps L s₀ (State.showLines s b scl sda) := by
  unfold State.showLines
  repeat' first
    | with_reducible exact h
    | exact sub_trans rfl hl
    | with_reducible assumption
    | with_reducible refine keeps_setFld _ _ ?_ ?_

theorem keeps_runClear {L : Nat} {s₀ s : State} (b : Nat) (line : TwbLine) (h : Keeps L s₀ s)
    (hl : 34359755656 ||| L = L) : Keeps L s₀ (State.runClear s b line) := by
  unfold State.runClear
  repeat' first
    | with_reducible exact h
    | exact sub_trans rfl hl
    | with_reducible assumption
    | with_reducible refine keeps_setTwbState _ _ ?_ ?_
    | with_reducible refine keeps_showLines _ _ _ ?_ ?_
    | with_reducible refine keeps_twbRaise _ _ ?_ ?_
    | with_reducible refine keeps_twbFault _ _ ?_ ?_
    | with_reducible refine keeps_setFld _ _ ?_ ?_
    | simp only [keeps_regs_iff (sub_trans rfl hl), keeps_evSet_iff (sub_trans rfl hl), keeps_evAdd_iff (sub_trans rfl hl), keeps_evPosted_iff (sub_trans rfl hl), keeps_pilots_iff (sub_trans rfl hl), keeps_twbs_iff (sub_trans rfl hl)]
    | with_reducible refine keeps_foldl _ _ (fun _ _ hx => ?_) ?_
    | with_reducible refine keeps_ite ?_ ?_

theorem keeps_twbOp {L : Nat} {s₀ s : State} (b : Nat) (op : Nat) (line : TwbLine) (h : Keeps L s₀ s)
    (hl : 34359755656 ||| L = L) : Keeps L s₀ (State.twbOp s b op line) := by
  unfold State.twbOp
  repeat' first
    | with_reducible exact h
    | exact sub_trans rfl hl
    | with_reducible assumption
    | with_reducible refine keeps_setTwb _ _ ?_ ?_
    | with_reducible refine keeps_runClear _ _ ?_ ?_
    | with_reducible refine keeps_setTwbState _ _ ?_ ?_
    | with_reducible refine keeps_twbFlush _ _ ?_ ?_
    | with_reducible refine keeps_showLines _ _ _ ?_ ?_
    | with_reducible refine keeps_setFld _ _ ?_ ?_
    | dsimp only
    | with_reducible refine keeps_foldl _ _ (fun _ _ hx => ?_) ?_
    | with_reducible refine keeps_ite ?_ ?_

theorem keeps_twbGo {L : Nat} {s₀ s : State} (b : Nat) (ten : Bool) (addr : Nat) (rd : Nat) (wr : Nat) (h : Keeps L s₀ s)
    (hl : 34359755656 ||| L = L) : Keeps L s₀ (State.twbGo s b ten addr rd wr) := by
  unfold State.twbGo
  repeat' first
    | with_reducible exact h
    | exact sub_trans rfl hl
    | with_reducible assumption
    | with_reducible refine keeps_setTwb _ _ ?_ ?_
    | with_reducible refine keeps_twbRaise _ _ ?_ ?_
    | with_reducible refine keeps_setFld _ _ ?_ ?_
    | with_reducible refine keeps_twbEnd _ _ _ _ _ ?_ ?_
    | dsimp only
    | with_reducible refine keeps_foldl _ _ (fun _ _ hx => ?_) ?_
    | with_reducible refine keeps_ite ?_ ?_

theorem keeps_twbAlert {L : Nat} {s₀ s : State} (b : Nat) (h : Keeps L s₀ s)
    (hl : 34359755656 ||| L = L) : Keeps L s₀ (State.twbAlert s b) := by
  unfold State.twbAlert
  repeat' first
    | with_reducible exact h
    | exact sub_trans rfl hl
    | with_reducible assumption
    | with_reducible refine keeps_setTwb _ _ ?_ ?_
    | with_reducible refine keeps_twbRaise _ _ ?_ ?_
    | with_reducible refine keeps_twbEnd _ _ _ _ _ ?_ ?_
    | dsimp only
    | with_reducible refine keeps_foldl _ _ (fun _ _ hx => ?_) ?_
    | with_reducible refine keeps_ite ?_ ?_

theorem keeps_twbStart {L : Nat} {s₀ s : State} (b : Nat) (line : TwbLine) (lost : Option TwbLoss) (h : Keeps L s₀ s)
    (hl : 34359755656 ||| L = L) : Keeps L s₀ (State.twbStart s b line lost) := by
  unfold State.twbStart
  repeat' first
    | with_reducible exact h
    | exact sub_trans rfl hl
    | with_reducible assumption
    | with_reducible refine keeps_setTwb _ _ ?_ ?_
    | with_reducible refine keeps_runClear _ _ ?_ ?_
    | with_reducible refine keeps_twbRaise _ _ ?_ ?_
    | with_reducible refine keeps_setTwbState _ _ ?_ ?_
    | with_reducible refine keeps_showLines _ _ _ ?_ ?_
    | with_reducible refine keeps_twbFault _ _ ?_ ?_
    | with_reducible refine keeps_setFld _ _ ?_ ?_
    | with_reducible refine keeps_twbEnd _ _ _ _ _ ?_ ?_
    | with_reducible refine keeps_count _ _ ?_ ?_
    | dsimp only
    | with_reducible refine keeps_foldl _ _ (fun _ _ hx => ?_) ?_
    | with_reducible refine keeps_ite ?_ ?_
    | split

theorem keeps_twbDone {L : Nat} {s₀ s : State} (b : Nat) (a : TwbAnswer) (h : Keeps L s₀ s)
    (hl : 34359755656 ||| L = L) : Keeps L s₀ (State.twbDone s b a) := by
  unfold State.twbDone
  repeat' first
    | with_reducible exact h
    | exact sub_trans rfl hl
    | with_reducible assumption
    | with_reducible refine keeps_setTwb _ _ ?_ ?_
    | with_reducible refine keeps_setTwbState _ _ ?_ ?_
    | with_reducible refine keeps_setFld _ _ ?_ ?_
    | with_reducible refine keeps_twbEnd _ _ _ _ _ ?_ ?_
    | dsimp only
    | with_reducible refine keeps_foldl _ _ (fun _ _ hx => ?_) ?_
    | with_reducible refine keeps_ite ?_ ?_
    | split

theorem keeps_twbStretch {L : Nat} {s₀ s : State} (b : Nat) (h : Keeps L s₀ s)
    (hl : 34359755656 ||| L = L) : Keeps L s₀ (State.twbStretch s b) := by
  unfold State.twbStretch
  repeat' first
    | with_reducible exact h
    | exact sub_trans rfl hl
    | with_reducible assumption
    | with_reducible refine keeps_twbEndCur _ _ ?_ ?_
    | simp only [keeps_regs_iff (sub_trans rfl hl), keeps_evSet_iff (sub_trans rfl hl), keeps_evAdd_iff (sub_trans rfl hl), keeps_evPosted_iff (sub_trans rfl hl), keeps_pilots_iff (sub_trans rfl hl), keeps_twbs_iff (sub_trans rfl hl)]
    | with_reducible refine keeps_foldl _ _ (fun _ _ hx => ?_) ?_
    | with_reducible refine keeps_ite ?_ ?_
    | split

theorem keeps_twbDockets {L : Nat} {s₀ a3 : State} (b : Nat) (a1 : Nat) (a2 : List Byte) (h : Keeps L s₀ a3)
    (hl : 16648 ||| L = L) : Keeps L s₀ (State.twbDockets b a1 a2 a3) := by
  fun_induction State.twbDockets b a1 a2 a3
  all_goals repeat' first
      | with_reducible exact h
      | exact sub_trans rfl hl
      | with_reducible assumption
      | with_reducible refine keeps_post _ _ _ _ ?_ ?_
      | simp only [keeps_regs_iff (sub_trans rfl hl), keeps_evAdd_iff (sub_trans rfl hl), keeps_pilots_iff (sub_trans rfl hl)]
      | with_reducible refine keeps_foldl _ _ (fun _ _ hx => ?_) ?_
      | with_reducible apply_assumption

theorem keeps_targetOver {L : Nat} {s₀ s : State} (b : Nat) (h : Keeps L s₀ s)
    (hl : 34359738376 ||| L = L) : Keeps L s₀ (State.targetOver s b) := by
  unfold State.targetOver
  repeat' first
    | with_reducible exact h
    | exact sub_trans rfl hl
    | with_reducible assumption
    | with_reducible refine keeps_setTwb _ _ ?_ ?_
    | with_reducible refine keeps_setTwbState _ _ ?_ ?_
    | with_reducible refine keeps_setFld _ _ ?_ ?_

theorem keeps_targetWrite {L : Nat} {s₀ s : State} (b : Nat) (general : Bool) (bytes : List Byte) (h : Keeps L s₀ s)
    (hl : 34359755016 ||| L = L) : Keeps L s₀ (State.targetWrite s b general bytes) := by
  unfold State.targetWrite
  repeat' first
    | with_reducible exact h
    | exact sub_trans rfl hl
    | with_reducible assumption
    | with_reducible refine keeps_targetOver _ ?_ ?_
    | with_reducible refine keeps_twbDockets _ _ _ ?_ ?_
    | dsimp only
    | with_reducible refine keeps_foldl _ _ (fun _ _ hx => ?_) ?_
    | with_reducible refine keeps_ite ?_ ?_

theorem keeps_targetRead {L : Nat} {s₀ s : State} (b : Nat) (n : Nat) (h : Keeps L s₀ s)
    (hl : 34359738632 ||| L = L) : Keeps L s₀ (State.targetRead s b n) := by
  unfold State.targetRead
  repeat' first
    | with_reducible exact h
    | exact sub_trans rfl hl
    | with_reducible assumption
    | with_reducible refine keeps_setTwb _ _ ?_ ?_
    | with_reducible refine keeps_count _ _ ?_ ?_
    | with_reducible refine keeps_targetOver _ ?_ ?_
    | dsimp only
    | with_reducible refine keeps_foldl _ _ (fun _ _ hx => ?_) ?_
    | with_reducible refine keeps_ite ?_ ?_

theorem keeps_twbFaulted {L : Nat} {s₀ s : State} (b : Nat) (k : Nat) (h : Keeps L s₀ s)
    (hl : 34359755656 ||| L = L) : Keeps L s₀ (State.twbFaulted s b k) := by
  unfold State.twbFaulted
  repeat' first
    | with_reducible exact h
    | exact sub_trans rfl hl
    | with_reducible assumption
    | with_reducible refine keeps_twbFault _ _ ?_ ?_
    | simp only [keeps_regs_iff (sub_trans rfl hl), keeps_evSet_iff (sub_trans rfl hl), keeps_evAdd_iff (sub_trans rfl hl), keeps_evPosted_iff (sub_trans rfl hl), keeps_pilots_iff (sub_trans rfl hl), keeps_twbs_iff (sub_trans rfl hl)]
    | with_reducible refine keeps_foldl _ _ (fun _ _ hx => ?_) ?_
    | with_reducible refine keeps_ite ?_ ?_

theorem keeps_twbRecover {L : Nat} {s₀ s : State} (b : Nat) (h : Keeps L s₀ s)
    (hl : 8 ||| L = L) : Keeps L s₀ (State.twbRecover s b) := by
  unfold State.twbRecover
  repeat' first
    | with_reducible exact h
    | exact sub_trans rfl hl
    | with_reducible assumption
    | with_reducible refine keeps_setFld _ _ ?_ ?_
    | dsimp only
    | with_reducible refine keeps_foldl _ _ (fun _ _ hx => ?_) ?_
    | with_reducible refine keeps_ite ?_ ?_

theorem keeps_pwrRaise {L : Nat} {s₀ s : State} (m : Nat) (h : Keeps L s₀ s)
    (hl : 17288 ||| L = L) : Keeps L s₀ (State.pwrRaise s m) := by
  unfold State.pwrRaise
  repeat' first
    | with_reducible exact h
    | exact sub_trans rfl hl
    | with_reducible assumption
    | with_reducible refine keeps_raise _ _ _ _ _ ?_ ?_

theorem keeps_setPwr {L : Nat} {s₀ s : State} (x : Pwr) (h : Keeps L s₀ s)
    (hl : 137438953472 ||| L = L) : Keeps L s₀ (State.setPwr s x) := by
  unfold State.setPwr
  repeat' first
    | with_reducible exact h
    | exact sub_trans rfl hl
    | with_reducible assumption
    | simp only [keeps_pwr_iff (sub_trans rfl hl)]

theorem keeps_fuseCopy {L : Nat} {s₀ s : State} (t : Nat) (v : Nat) (h : Keeps L s₀ s)
    (hl : 8 ||| L = L) : Keeps L s₀ (State.fuseCopy s t v) := by
  unfold State.fuseCopy
  repeat' first
    | with_reducible exact h
    | exact sub_trans rfl hl
    | with_reducible assumption
    | with_reducible refine keeps_setWord _ _ ?_ ?_
    | dsimp only
    | with_reducible refine keeps_foldl _ _ (fun _ _ hx => ?_) ?_
    | with_reducible refine keeps_ite ?_ ?_

theorem keeps_fuseRecords {L : Nat} {s₀ a2 : State} (a0 : Nat) (a1 : List (Option (Nat × Nat))) (h : Keeps L s₀ a2)
    (hl : 12 ||| L = L) : Keeps L s₀ (State.fuseRecords a0 a1 a2) := by
  fun_induction State.fuseRecords a0 a1 a2
  all_goals repeat' first
      | with_reducible exact h
      | exact sub_trans rfl hl
      | with_reducible assumption
      | with_reducible refine keeps_fuseCopy _ _ ?_ ?_
      | with_reducible refine keeps_setWord _ _ ?_ ?_
      | with_reducible refine keeps_nextFree ?_ ?_
      | simp only [keeps_fresh_iff (sub_trans rfl hl), keeps_regs_iff (sub_trans rfl hl)]
      | with_reducible refine keeps_foldl _ _ (fun _ _ hx => ?_) ?_
      | with_reducible apply_assumption
      | with_reducible refine keeps_ite ?_ ?_

theorem keeps_fusesIn {L : Nat} {s₀ s : State}  (h : Keeps L s₀ s)
    (hl : 12 ||| L = L) : Keeps L s₀ (State.fusesIn s) := by
  unfold State.fusesIn
  repeat' first
    | with_reducible exact h
    | exact sub_trans rfl hl
    | with_reducible assumption
    | with_reducible refine keeps_fuseRecords _ _ ?_ ?_
    | with_reducible refine keeps_setFld _ _ ?_ ?_

theorem keeps_bare {L : Nat} {s₀ s : State}  (h : Keeps L s₀ s)
    (hl : 274877906936 ||| L = L) : Keeps L s₀ (State.bare s) := by
  unfold State.bare
  repeat' first
    | with_reducible exact h
    | exact sub_trans rfl hl
    | with_reducible assumption
    | simp only [keeps_regs_iff (sub_trans rfl hl), keeps_held_iff (sub_trans rfl hl), keeps_latched_iff (sub_trans rfl hl), keeps_rsp_iff (sub_trans rfl hl), keeps_evSet_iff (sub_trans rfl hl), keeps_evAdd_iff (sub_trans rfl hl), keeps_evPosted_iff (sub_trans rfl hl), keeps_fab_iff (sub_trans rfl hl), keeps_time_iff (sub_trans rfl hl), keeps_pilots_iff (sub_trans rfl hl), keeps_shared_iff (sub_trans rfl hl), keeps_published_iff (sub_trans rfl hl), keeps_log_iff (sub_trans rfl hl), keeps_queues_iff (sub_trans rfl hl), keeps_leaves_iff (sub_trans rfl hl), keeps_cal_iff (sub_trans rfl hl), keeps_lanes_iff (sub_trans rfl hl), keeps_ports_iff (sub_trans rfl hl), keeps_pipes_iff (sub_trans rfl hl), keeps_encPics_iff (sub_trans rfl hl), keeps_encStreams_iff (sub_trans rfl hl), keeps_decs_iff (sub_trans rfl hl), keeps_lze_iff (sub_trans rfl hl), keeps_memsys_iff (sub_trans rfl hl), keeps_scn_iff (sub_trans rfl hl), keeps_pcx_iff (sub_trans rfl hl), keeps_sec_iff (sub_trans rfl hl), keeps_nets_iff (sub_trans rfl hl), keeps_hcp_iff (sub_trans rfl hl), keeps_aud_iff (sub_trans rfl hl), keeps_twbs_iff (sub_trans rfl hl), keeps_gpio_iff (sub_trans rfl hl), keeps_pwr_iff (sub_trans rfl hl)]
    | with_reducible refine keeps_foldl _ _ (fun _ _ hx => ?_) ?_
    | with_reducible refine keeps_ite ?_ ?_
    | split
    | (refine keeps_flat h (fun p hp => ?_) (fun _ => rfl) (fun _ => rfl); cases p <;> first | (have e := h.same _ hp; dsimp only [Part.same] at e ⊢; with_reducible exact e) | (exact absurd (sub_testBit hl hp) (by decide)))

theorem keeps_startSequence {L : Nat} {s₀ s : State}  (h : Keeps L s₀ s)
    (hl : 137438953472 ||| L = L) : Keeps L s₀ (State.startSequence s) := by
  unfold State.startSequence
  repeat' first
    | with_reducible exact h
    | exact sub_trans rfl hl
    | with_reducible assumption
    | with_reducible refine keeps_setPwr _ ?_ ?_

theorem keeps_coldReset {L : Nat} {s₀ s : State} (cause : Nat) (hold : Nat) (h : Keeps L s₀ s)
    (hl : 274877906940 ||| L = L) : Keeps L s₀ (State.coldReset s cause hold) := by
  unfold State.coldReset
  refine keeps_startSequence (keeps_setWord _ _ (keeps_fusesIn ?_ (sub_trans rfl hl)) (sub_trans rfl hl)) (sub_trans rfl hl)
  exact keeps_flat h (fun p hp => by cases p <;> first | exact h.same _ hp | exact absurd (sub_testBit hl hp) (by decide)) (fun _ => rfl) (fun _ => rfl)

theorem keeps_warmReset {L : Nat} {s₀ s : State} (cause : Nat) (h : Keeps L s₀ s)
    (hl : 274877906940 ||| L = L) : Keeps L s₀ (State.warmReset s cause) := by
  unfold State.warmReset
  refine keeps_setBitsOf _ _ (keeps_fusesIn ?_ (sub_trans rfl hl)) (sub_trans rfl hl)
  exact keeps_flat h (fun p hp => by cases p <;> first | exact h.same _ hp | exact absurd (sub_testBit hl hp) (by decide)) id (fun _ => rfl)

theorem keeps_wakeReset {L : Nat} {s₀ s : State} (h : Keeps L s₀ s)
    (hl : 274877906940 ||| L = L) : Keeps L s₀ (State.wakeReset s) := by
  unfold State.wakeReset
  refine keeps_fusesIn ?_ (sub_trans rfl hl)
  exact keeps_flat h (fun p hp => by cases p <;> first | exact h.same _ hp | exact absurd (sub_testBit hl hp) (by decide)) id (fun _ => rfl)

theorem keeps_audStops {L : Nat} {s₀ a1 : State} (a0 : List Nat) (h : Keeps L s₀ a1)
    (hl : 17180807048 ||| L = L) : Keeps L s₀ (State.audStops a0 a1) := by
  fun_induction State.audStops a0 a1
  all_goals repeat' first
      | with_reducible exact h
      | exact sub_trans rfl hl
      | with_reducible assumption
      | with_reducible refine keeps_audStopped _ ?_ ?_
      | simp only [keeps_regs_iff (sub_trans rfl hl), keeps_evSet_iff (sub_trans rfl hl), keeps_evAdd_iff (sub_trans rfl hl), keeps_evPosted_iff (sub_trans rfl hl), keeps_fab_iff (sub_trans rfl hl), keeps_pilots_iff (sub_trans rfl hl), keeps_log_iff (sub_trans rfl hl), keeps_queues_iff (sub_trans rfl hl), keeps_leaves_iff (sub_trans rfl hl), keeps_aud_iff (sub_trans rfl hl)]
      | with_reducible refine keeps_foldl _ _ (fun _ _ hx => ?_) ?_
      | with_reducible apply_assumption
      | with_reducible refine keeps_ite ?_ ?_

theorem keeps_stopUnit {L : Nat} {s₀ s : State} (u : Nat) (h : Keeps L s₀ s)
    (hl : 19057758088 ||| L = L) : Keeps L s₀ (State.stopUnit s u) := by
  unfold State.stopUnit
  repeat' first
    | with_reducible exact h
    | exact sub_trans rfl hl
    | with_reducible assumption
    | with_reducible refine keeps_srxStop _ ?_ ?_
    | with_reducible refine keeps_encOp _ _ ?_ ?_
    | with_reducible refine keeps_lzeJobEnd _ ?_ ?_
    | with_reducible refine keeps_pipeOp _ _ ?_ ?_
    | with_reducible refine keeps_decOp _ _ ?_ ?_
    | with_reducible refine keeps_pcxOp _ _ ?_ ?_
    | with_reducible refine keeps_netOp _ _ ?_ ?_
    | with_reducible refine keeps_audStops _ ?_ ?_
    | with_reducible refine keeps_scnOp _ ?_ ?_
    | with_reducible refine keeps_lzeOp _ ?_ ?_
    | simp only [keeps_regs_iff (sub_trans rfl hl), keeps_evSet_iff (sub_trans rfl hl), keeps_evAdd_iff (sub_trans rfl hl), keeps_evPosted_iff (sub_trans rfl hl), keeps_fab_iff (sub_trans rfl hl), keeps_pilots_iff (sub_trans rfl hl), keeps_log_iff (sub_trans rfl hl), keeps_queues_iff (sub_trans rfl hl), keeps_leaves_iff (sub_trans rfl hl), keeps_lanes_iff (sub_trans rfl hl), keeps_ports_iff (sub_trans rfl hl), keeps_pipes_iff (sub_trans rfl hl), keeps_encPics_iff (sub_trans rfl hl), keeps_encStreams_iff (sub_trans rfl hl), keeps_decs_iff (sub_trans rfl hl), keeps_lze_iff (sub_trans rfl hl), keeps_scn_iff (sub_trans rfl hl), keeps_pcx_iff (sub_trans rfl hl), keeps_aud_iff (sub_trans rfl hl)]
    | with_reducible refine keeps_foldl _ _ (fun _ _ hx => ?_) ?_
    | with_reducible refine keeps_ite ?_ ?_

theorem keeps_stopUnits {L : Nat} {s₀ a1 : State} (a0 : List Nat) (h : Keeps L s₀ a1)
    (hl : 19057758088 ||| L = L) : Keeps L s₀ (State.stopUnits a0 a1) := by
  fun_induction State.stopUnits a0 a1
  all_goals repeat' first
      | with_reducible exact h
      | exact sub_trans rfl hl
      | with_reducible assumption
      | with_reducible refine keeps_stopUnit _ ?_ ?_
      | simp only [keeps_regs_iff (sub_trans rfl hl), keeps_evSet_iff (sub_trans rfl hl), keeps_evAdd_iff (sub_trans rfl hl), keeps_evPosted_iff (sub_trans rfl hl), keeps_fab_iff (sub_trans rfl hl), keeps_pilots_iff (sub_trans rfl hl), keeps_log_iff (sub_trans rfl hl), keeps_queues_iff (sub_trans rfl hl), keeps_leaves_iff (sub_trans rfl hl), keeps_lanes_iff (sub_trans rfl hl), keeps_ports_iff (sub_trans rfl hl), keeps_pipes_iff (sub_trans rfl hl), keeps_encPics_iff (sub_trans rfl hl), keeps_encStreams_iff (sub_trans rfl hl), keeps_decs_iff (sub_trans rfl hl), keeps_lze_iff (sub_trans rfl hl), keeps_scn_iff (sub_trans rfl hl), keeps_pcx_iff (sub_trans rfl hl), keeps_aud_iff (sub_trans rfl hl)]
      | with_reducible refine keeps_foldl _ _ (fun _ _ hx => ?_) ?_
      | with_reducible apply_assumption

theorem keeps_stopPilots {L : Nat} {s₀ a1 : State} (a0 : List Nat) (h : Keeps L s₀ a1)
    (hl : 152456 ||| L = L) : Keeps L s₀ (State.stopPilots a0 a1) := by
  fun_induction State.stopPilots a0 a1
  all_goals repeat' first
      | with_reducible exact h
      | exact sub_trans rfl hl
      | with_reducible assumption
      | with_reducible refine keeps_stopPilot _ ?_ ?_
      | simp only [keeps_regs_iff (sub_trans rfl hl), keeps_evSet_iff (sub_trans rfl hl), keeps_evAdd_iff (sub_trans rfl hl), keeps_evPosted_iff (sub_trans rfl hl), keeps_pilots_iff (sub_trans rfl hl), keeps_log_iff (sub_trans rfl hl)]
      | with_reducible refine keeps_foldl _ _ (fun _ _ hx => ?_) ?_
      | with_reducible apply_assumption

theorem keeps_clearUnit {L : Nat} {s₀ s : State} (u : Nat) (h : Keeps L s₀ s)
    (hl : 23335010304 ||| L = L) : Keeps L s₀ (State.clearUnit s u) := by
  unfold State.clearUnit
  repeat' first
    | with_reducible exact h
    | exact sub_trans rfl hl
    | with_reducible assumption
    | simp only [keeps_pipes_iff (sub_trans rfl hl), keeps_encStreams_iff (sub_trans rfl hl), keeps_decs_iff (sub_trans rfl hl), keeps_lze_iff (sub_trans rfl hl), keeps_scn_iff (sub_trans rfl hl), keeps_pcx_iff (sub_trans rfl hl), keeps_nets_iff (sub_trans rfl hl), keeps_aud_iff (sub_trans rfl hl)]
    | with_reducible refine keeps_foldl _ _ (fun _ _ hx => ?_) ?_
    | with_reducible refine keeps_ite ?_ ?_
    | split
    | (refine keeps_flat h (fun p hp => ?_) id id; cases p <;> first | (have e := h.same _ hp; dsimp only [Part.same] at e ⊢; with_reducible exact e) | (exact absurd (sub_testBit hl hp) (by decide)))

theorem keeps_blockReset {L : Nat} {s₀ s : State} (u : Nat) (h : Keeps L s₀ s)
    (hl : 160791683000 ||| L = L) : Keeps L s₀ (State.blockReset s u) := by
  unfold State.blockReset
  extract_lets s1 s2 rs s3
  have h1 : Keeps L s₀ s1 := keeps_stopUnit _ h (sub_trans rfl hl)
  have h2 : Keeps L s₀ s2 := keeps_endAllWork _ (keeps_releaseAll _ _ h1 (sub_trans rfl hl)) (sub_trans rfl hl)
  have h3 : Keeps L s₀ s3 := keeps_clearUnit _ h2 (sub_trans rfl hl)
  clear_value s3
  exact keeps_flat h3 (fun p hp => by cases p <;> first | exact h3.same _ hp | exact absurd (sub_testBit hl hp) (by decide)) id (sys_ok_same rfl rfl rfl rfl rfl)

theorem keeps_pwrBlock {L : Nat} {s₀ s : State} (u : Nat) (h : Keeps L s₀ s)
    (hl : 160791683000 ||| L = L) : Keeps L s₀ (State.pwrBlock s u) := by
  unfold State.pwrBlock
  repeat' first
    | with_reducible exact h
    | exact sub_trans rfl hl
    | with_reducible assumption
    | with_reducible refine keeps_pwrRaise _ ?_ ?_
    | with_reducible refine keeps_blockReset _ ?_ ?_
    | simp only [keeps_regs_iff (sub_trans rfl hl), keeps_held_iff (sub_trans rfl hl), keeps_latched_iff (sub_trans rfl hl), keeps_evSet_iff (sub_trans rfl hl), keeps_evAdd_iff (sub_trans rfl hl), keeps_evPosted_iff (sub_trans rfl hl), keeps_fab_iff (sub_trans rfl hl), keeps_pilots_iff (sub_trans rfl hl), keeps_log_iff (sub_trans rfl hl), keeps_queues_iff (sub_trans rfl hl), keeps_leaves_iff (sub_trans rfl hl), keeps_lanes_iff (sub_trans rfl hl), keeps_ports_iff (sub_trans rfl hl), keeps_pipes_iff (sub_trans rfl hl), keeps_encPics_iff (sub_trans rfl hl), keeps_encStreams_iff (sub_trans rfl hl), keeps_decs_iff (sub_trans rfl hl), keeps_lze_iff (sub_trans rfl hl), keeps_scn_iff (sub_trans rfl hl), keeps_pcx_iff (sub_trans rfl hl), keeps_nets_iff (sub_trans rfl hl), keeps_aud_iff (sub_trans rfl hl), keeps_pwr_iff (sub_trans rfl hl)]
    | with_reducible refine keeps_foldl _ _ (fun _ _ hx => ?_) ?_
    | with_reducible refine keeps_ite ?_ ?_

theorem keeps_idleScan {L : Nat} {s₀ s : State}  (h : Keeps L s₀ s)
    (hl : 137438953472 ||| L = L) : Keeps L s₀ (State.idleScan s) := by
  unfold State.idleScan
  repeat' first
    | with_reducible exact h
    | exact sub_trans rfl hl
    | with_reducible assumption
    | with_reducible refine keeps_setPwr _ ?_ ?_

theorem keeps_setDomain {L : Nat} {s₀ s : State} (u : Nat) (v : Bool) (h : Keeps L s₀ s)
    (hl : 8 ||| L = L) : Keeps L s₀ (State.setDomain s u v) := by
  unfold State.setDomain
  repeat' first
    | with_reducible exact h
    | exact sub_trans rfl hl
    | with_reducible assumption
    | with_reducible refine keeps_setFld _ _ ?_ ?_
    | simp only [keeps_regs_iff (sub_trans rfl hl)]
    | with_reducible refine keeps_foldl _ _ (fun _ _ hx => ?_) ?_
    | with_reducible refine keeps_ite ?_ ?_

theorem keeps_askDomain {L : Nat} {s₀ s : State} (u : Nat) (h : Keeps L s₀ s)
    (hl : 137438953472 ||| L = L) : Keeps L s₀ (State.askDomain s u) := by
  unfold State.askDomain
  repeat' first
    | with_reducible exact h
    | exact sub_trans rfl hl
    | with_reducible assumption
    | with_reducible refine keeps_setPwr _ ?_ ?_
    | dsimp only
    | with_reducible refine keeps_foldl _ _ (fun _ _ hx => ?_) ?_
    | with_reducible refine keeps_ite ?_ ?_

theorem keeps_switchOn {L : Nat} {s₀ s : State} (u : Nat) (h : Keeps L s₀ s)
    (hl : 137438953480 ||| L = L) : Keeps L s₀ (State.switchOn s u).1 := by
  unfold State.switchOn
  repeat' first
    | with_reducible exact h
    | exact sub_trans rfl hl
    | with_reducible assumption
    | with_reducible refine keeps_setDomain _ _ ?_ ?_
    | with_reducible refine keeps_setPwr _ ?_ ?_
    | simp only [keeps_regs_iff (sub_trans rfl hl)]
    | with_reducible refine keeps_foldl _ _ (fun _ _ hx => ?_) ?_
    | with_reducible refine keeps_ite_fst ?_ ?_
    | split

theorem keeps_switchOn' {L : Nat} {s₀ s' : State} {s : State} {u : Nat} {res} (he : State.switchOn s u = (s', res)) (h : Keeps L s₀ s)
    (hl : 137438953480 ||| L = L) : Keeps L s₀ s' := by
  have := keeps_switchOn u h hl
  rwa [he] at this

theorem keeps_gateOff {L : Nat} {s₀ s : State} (u : Nat) (h : Keeps L s₀ s)
    (hl : 137438953480 ||| L = L) : Keeps L s₀ (State.gateOff s u) := by
  unfold State.gateOff
  repeat' first
    | with_reducible exact h
    | exact sub_trans rfl hl
    | with_reducible assumption
    | with_reducible refine keeps_setDomain _ _ ?_ ?_
    | with_reducible refine keeps_setPwr _ ?_ ?_
    | dsimp only
    | with_reducible refine keeps_foldl _ _ (fun _ _ hx => ?_) ?_
    | with_reducible refine keeps_ite ?_ ?_

theorem keeps_startRejected {L : Nat} {s₀ s : State} (u : Nat) (p : Nat) (h : Keeps L s₀ s)
    (hl : 17288 ||| L = L) : Keeps L s₀ (State.startRejected s u p) := by
  unfold State.startRejected
  repeat' first
    | with_reducible exact h
    | exact sub_trans rfl hl
    | with_reducible assumption
    | with_reducible refine keeps_srxRaise _ _ ?_ ?_
    | with_reducible refine keeps_encRaise _ _ ?_ ?_
    | with_reducible refine keeps_lzeRaise _ ?_ ?_
    | with_reducible refine keeps_scnRaise _ ?_ ?_
    | with_reducible refine keeps_pipeRaise _ _ ?_ ?_
    | with_reducible refine keeps_decRaise _ _ ?_ ?_
    | with_reducible refine keeps_pcxRaise _ _ ?_ ?_
    | with_reducible refine keeps_netRaise _ _ ?_ ?_
    | with_reducible refine keeps_audRaise _ _ ?_ ?_
    | simp only [keeps_regs_iff (sub_trans rfl hl), keeps_evSet_iff (sub_trans rfl hl), keeps_evAdd_iff (sub_trans rfl hl), keeps_evPosted_iff (sub_trans rfl hl), keeps_pilots_iff (sub_trans rfl hl)]
    | with_reducible refine keeps_foldl _ _ (fun _ _ hx => ?_) ?_
    | with_reducible refine keeps_ite ?_ ?_

theorem keeps_startOp {L : Nat} {s₀ s : State} (u : Nat) (p : Nat) (a : Nat) (v : Nat) (run : State → State) (hrun : ∀ x, Keeps L s₀ x → Keeps L s₀ (run x)) (h : Keeps L s₀ s)
    (hl : 137438970760 ||| L = L) : Keeps L s₀ (State.startOp s u p a v run) := by
  unfold State.startOp
  repeat' first
    | with_reducible exact h
    | exact sub_trans rfl hl
    | with_reducible assumption
    | with_reducible refine keeps_setDomain _ _ ?_ ?_
    | with_reducible refine keeps_startRejected _ _ ?_ ?_
    | with_reducible refine keeps_setPwr _ ?_ ?_
    | with_reducible refine keeps_askDomain _ ?_ ?_
    | dsimp only
    | with_reducible refine hrun _ ?_
    | with_reducible refine keeps_foldl _ _ (fun _ _ hx => ?_) ?_
    | with_reducible refine keeps_ite ?_ ?_

theorem keeps_didt {L : Nat} {s₀ s : State}  (h : Keeps L s₀ s)
    (hl : 17292 ||| L = L) : Keeps L s₀ (State.didt s) := by
  unfold State.didt
  repeat' first
    | with_reducible exact h
    | exact sub_trans rfl hl
    | with_reducible assumption
    | with_reducible refine keeps_pwrRaise _ ?_ ?_
    | with_reducible refine keeps_setFld _ _ ?_ ?_
    | with_reducible refine keeps_nextFree ?_ ?_
    | dsimp only
    | with_reducible refine keeps_foldl _ _ (fun _ _ hx => ?_) ?_
    | with_reducible refine keeps_ite ?_ ?_

theorem keeps_showRails {L : Nat} {s₀ a1 : State} (a0 : List (Nat × Nat)) (h : Keeps L s₀ a1)
    (hl : 8 ||| L = L) : Keeps L s₀ (State.showRails a0 a1) := by
  fun_induction State.showRails a0 a1
  all_goals repeat' first
      | with_reducible exact h
      | exact sub_trans rfl hl
      | with_reducible assumption
      | with_reducible refine keeps_setFld _ _ ?_ ?_
      | simp only [keeps_regs_iff (sub_trans rfl hl)]
      | with_reducible refine keeps_foldl _ _ (fun _ _ hx => ?_) ?_
      | with_reducible apply_assumption

theorem keeps_brownout {L : Nat} {s₀ s : State} (a : List Nat) (b : List Nat) (h : Keeps L s₀ s)
    (hl : 274877906940 ||| L = L) : Keeps L s₀ (State.brownout s a b) := by
  unfold State.brownout
  repeat' first
    | with_reducible exact h
    | exact sub_trans rfl hl
    | with_reducible assumption
    | with_reducible refine keeps_showRails _ ?_ ?_
    | with_reducible refine keeps_coldReset _ _ ?_ ?_
    | simp only [keeps_fresh_iff (sub_trans rfl hl), keeps_regs_iff (sub_trans rfl hl), keeps_held_iff (sub_trans rfl hl), keeps_latched_iff (sub_trans rfl hl), keeps_rsp_iff (sub_trans rfl hl), keeps_evSet_iff (sub_trans rfl hl), keeps_evAdd_iff (sub_trans rfl hl), keeps_evPosted_iff (sub_trans rfl hl), keeps_fab_iff (sub_trans rfl hl), keeps_time_iff (sub_trans rfl hl), keeps_pilots_iff (sub_trans rfl hl), keeps_shared_iff (sub_trans rfl hl), keeps_published_iff (sub_trans rfl hl), keeps_log_iff (sub_trans rfl hl), keeps_queues_iff (sub_trans rfl hl), keeps_leaves_iff (sub_trans rfl hl), keeps_cal_iff (sub_trans rfl hl), keeps_lanes_iff (sub_trans rfl hl), keeps_ports_iff (sub_trans rfl hl), keeps_pipes_iff (sub_trans rfl hl), keeps_encPics_iff (sub_trans rfl hl), keeps_encStreams_iff (sub_trans rfl hl), keeps_decs_iff (sub_trans rfl hl), keeps_lze_iff (sub_trans rfl hl), keeps_memsys_iff (sub_trans rfl hl), keeps_scn_iff (sub_trans rfl hl), keeps_pcx_iff (sub_trans rfl hl), keeps_sec_iff (sub_trans rfl hl), keeps_nets_iff (sub_trans rfl hl), keeps_hcp_iff (sub_trans rfl hl), keeps_aud_iff (sub_trans rfl hl), keeps_twbs_iff (sub_trans rfl hl), keeps_gpio_iff (sub_trans rfl hl), keeps_pwr_iff (sub_trans rfl hl)]
    | with_reducible refine keeps_foldl _ _ (fun _ _ hx => ?_) ?_
    | with_reducible refine keeps_ite ?_ ?_

theorem keeps_endHold {L : Nat} {s₀ s : State} (bitv : Nat) (banks : Option Nat) (h : Keeps L s₀ s)
    (hl : 137438953472 ||| L = L) : Keeps L s₀ (State.endHold s bitv banks) := by
  unfold State.endHold
  repeat' first
    | with_reducible exact h
    | exact sub_trans rfl hl
    | with_reducible assumption
    | with_reducible refine keeps_setPwr _ ?_ ?_
    | with_reducible refine keeps_startSequence ?_ ?_
    | dsimp only
    | with_reducible refine keeps_foldl _ _ (fun _ _ hx => ?_) ?_
    | with_reducible refine keeps_ite ?_ ?_

theorem keeps_vidStep {L : Nat} {s₀ s : State}  (h : Keeps L s₀ s)
    (hl : 137438953480 ||| L = L) : Keeps L s₀ (State.vidStep s) := by
  unfold State.vidStep
  repeat' first
    | with_reducible exact h
    | exact sub_trans rfl hl
    | with_reducible assumption
    | with_reducible refine keeps_setPwr _ ?_ ?_
    | with_reducible refine keeps_setFld _ _ ?_ ?_
    | dsimp only
    | with_reducible refine keeps_foldl _ _ (fun _ _ hx => ?_) ?_
    | with_reducible refine keeps_ite ?_ ?_

theorem keeps_wdogRestart {L : Nat} {s₀ s : State}  (h : Keeps L s₀ s)
    (hl : 137438953472 ||| L = L) : Keeps L s₀ (State.wdogRestart s) := by
  unfold State.wdogRestart
  repeat' first
    | with_reducible exact h
    | exact sub_trans rfl hl
    | with_reducible assumption
    | with_reducible refine keeps_setPwr _ ?_ ?_

theorem keeps_wdogKick {L : Nat} {s₀ s : State} (v : Nat) (h : Keeps L s₀ s)
    (hl : 137438953472 ||| L = L) : Keeps L s₀ (State.wdogKick s v) := by
  unfold State.wdogKick
  repeat' first
    | with_reducible exact h
    | exact sub_trans rfl hl
    | with_reducible assumption
    | with_reducible refine keeps_wdogRestart ?_ ?_
    | simp only [keeps_pwr_iff (sub_trans rfl hl)]
    | with_reducible refine keeps_foldl _ _ (fun _ _ hx => ?_) ?_
    | with_reducible refine keeps_ite ?_ ?_

theorem keeps_wdogExpiry {L : Nat} {s₀ s : State}  (h : Keeps L s₀ s)
    (hl : 274877906940 ||| L = L) : Keeps L s₀ (State.wdogExpiry s) := by
  unfold State.wdogExpiry
  repeat' first
    | with_reducible exact h
    | exact sub_trans rfl hl
    | with_reducible assumption
    | with_reducible refine keeps_wdogRestart ?_ ?_
    | with_reducible refine keeps_warmReset _ ?_ ?_
    | with_reducible refine keeps_coldReset _ _ ?_ ?_
    | dsimp only
    | with_reducible refine keeps_foldl _ _ (fun _ _ hx => ?_) ?_
    | with_reducible refine keeps_ite ?_ ?_

theorem keeps_sleep {L : Nat} {s₀ s : State}  (h : Keeps L s₀ s)
    (hl : 156496715656 ||| L = L) : Keeps L s₀ (State.sleep s) := by
  unfold State.sleep
  repeat' first
    | with_reducible exact h
    | exact sub_trans rfl hl
    | with_reducible assumption
    | with_reducible refine keeps_stopUnits _ ?_ ?_
    | with_reducible refine keeps_stopPilots _ ?_ ?_
    | with_reducible refine keeps_setPwr _ ?_ ?_
    | with_reducible refine keeps_setFld _ _ ?_ ?_
    | dsimp only
    | with_reducible refine keeps_foldl _ _ (fun _ _ hx => ?_) ?_
    | with_reducible refine keeps_ite ?_ ?_

theorem keeps_wakeRequest {L : Nat} {s₀ s : State} (gpio : Bool) (n : Nat) (h : Keeps L s₀ s)
    (hl : 137438953480 ||| L = L) : Keeps L s₀ (State.wakeRequest s gpio n) := by
  unfold State.wakeRequest
  repeat' first
    | with_reducible exact h
    | exact sub_trans rfl hl
    | with_reducible assumption
    | with_reducible refine keeps_setPwr _ ?_ ?_
    | with_reducible refine keeps_setFld _ _ ?_ ?_
    | dsimp only
    | with_reducible refine keeps_foldl _ _ (fun _ _ hx => ?_) ?_
    | with_reducible refine keeps_ite ?_ ?_

theorem keeps_sleepDone {L : Nat} {s₀ s : State}  (h : Keeps L s₀ s)
    (hl : 137438953480 ||| L = L) : Keeps L s₀ (State.sleepDone s) := by
  unfold State.sleepDone
  repeat' first
    | with_reducible exact h
    | exact sub_trans rfl hl
    | with_reducible assumption
    | with_reducible refine keeps_setPwr _ ?_ ?_
    | with_reducible refine keeps_setFld _ _ ?_ ?_
    | with_reducible refine keeps_setWord _ _ ?_ ?_
    | dsimp only
    | with_reducible refine keeps_foldl _ _ (fun _ _ hx => ?_) ?_
    | with_reducible refine keeps_ite ?_ ?_

theorem keeps_wakeUp {L : Nat} {s₀ s : State} (banks : Nat) (h : Keeps L s₀ s)
    (hl : 274877906940 ||| L = L) : Keeps L s₀ (State.wakeUp s banks) := by
  unfold State.wakeUp
  repeat' first
    | with_reducible exact h
    | exact sub_trans rfl hl
    | with_reducible assumption
    | with_reducible refine keeps_setBitsOf _ _ ?_ ?_
    | with_reducible refine keeps_setTwb _ _ ?_ ?_
    | with_reducible refine keeps_raiseAt _ _ _ _ _ _ ?_ ?_
    | with_reducible refine keeps_setPwr _ ?_ ?_
    | with_reducible refine keeps_setFld _ _ ?_ ?_
    | with_reducible refine keeps_wakeReset ?_ ?_
    | with_reducible refine keeps_pwrRaise _ ?_ ?_
    | dsimp only
    | with_reducible refine keeps_foldl _ _ (fun _ _ hx => ?_) ?_
    | with_reducible refine keeps_ite ?_ ?_
    | split

theorem keeps_twbWake {L : Nat} {s₀ s : State} (b : Nat) (h : Keeps L s₀ s)
    (hl : 171798691848 ||| L = L) : Keeps L s₀ (State.twbWake s b) := by
  unfold State.twbWake
  repeat' first
    | with_reducible exact h
    | exact sub_trans rfl hl
    | with_reducible assumption
    | with_reducible refine keeps_wakeRequest _ _ ?_ ?_
    | with_reducible refine keeps_setTwb _ _ ?_ ?_
    | dsimp only
    | with_reducible refine keeps_foldl _ _ (fun _ _ hx => ?_) ?_
    | with_reducible refine keeps_ite ?_ ?_

theorem keeps_wakeGpio {L : Nat} {s₀ s : State} (n : Nat) (h : Keeps L s₀ s)
    (hl : 137438953480 ||| L = L) : Keeps L s₀ (State.wakeGpio s n) := by
  unfold State.wakeGpio
  repeat' first
    | with_reducible exact h
    | exact sub_trans rfl hl
    | with_reducible assumption
    | with_reducible refine keeps_wakeRequest _ _ ?_ ?_
    | simp only [keeps_regs_iff (sub_trans rfl hl), keeps_pwr_iff (sub_trans rfl hl)]
    | with_reducible refine keeps_foldl _ _ (fun _ _ hx => ?_) ?_
    | with_reducible refine keeps_ite ?_ ?_

theorem keeps_pwrOp {L : Nat} {s₀ s : State} (w : Nat) (h : Keeps L s₀ s)
    (hl : 274877906940 ||| L = L) : Keeps L s₀ (State.pwrOp s w) := by
  unfold State.pwrOp
  repeat' first
    | with_reducible exact h
    | exact sub_trans rfl hl
    | with_reducible assumption
    | with_reducible refine keeps_sleep ?_ ?_
    | with_reducible refine keeps_warmReset _ ?_ ?_
    | dsimp only
    | with_reducible refine keeps_foldl _ _ (fun _ _ hx => ?_) ?_
    | with_reducible refine keeps_ite ?_ ?_

theorem keeps_faultBit {L : Nat} {s₀ s : State} (f : Fld) (i : Nat) (v : Bool) (h : Keeps L s₀ s)
    (hl : 8 ||| L = L) : Keeps L s₀ (State.faultBit s f i v) := by
  unfold State.faultBit
  repeat' first
    | with_reducible exact h
    | exact sub_trans rfl hl
    | with_reducible assumption
    | with_reducible refine keeps_setFld _ _ ?_ ?_

theorem keeps_showPin {L : Nat} {s₀ s : State} (pin : PortPin) (how : Nat) (v : Bool) (h : Keeps L s₀ s)
    (hl : 137438953480 ||| L = L) : Keeps L s₀ (State.showPin s pin how v) := by
  unfold State.showPin
  repeat' first
    | with_reducible exact h
    | exact sub_trans rfl hl
    | with_reducible assumption
    | with_reducible refine keeps_faultBit _ _ _ ?_ ?_
    | with_reducible refine keeps_setPwr _ ?_ ?_
    | dsimp only
    | with_reducible refine keeps_foldl _ _ (fun _ _ hx => ?_) ?_
    | with_reducible refine keeps_ite ?_ ?_
    | split

theorem keeps_portFault {L : Nat} {s₀ s : State} (pin : PortPin) (mv : Nat) (h : Keeps L s₀ s)
    (hl : 154619760520 ||| L = L) : Keeps L s₀ (State.portFault s pin mv) := by
  unfold State.portFault
  repeat' first
    | with_reducible exact h
    | exact sub_trans rfl hl
    | with_reducible assumption
    | with_reducible refine keeps_showPin _ _ _ ?_ ?_
    | with_reducible refine keeps_setPwr _ ?_ ?_
    | with_reducible refine keeps_pwrRaise _ ?_ ?_
    | with_reducible refine keeps_ethDown _ ?_ ?_
    | with_reducible refine keeps_audLost _ ?_ ?_
    | dsimp only
    | with_reducible refine keeps_foldl _ _ (fun _ _ hx => ?_) ?_
    | with_reducible refine keeps_ite ?_ ?_
    | split

theorem keeps_portRetry {L : Nat} {s₀ s : State} (pin : PortPin) (pass : Bool) (h : Keeps L s₀ s)
    (hl : 137438953480 ||| L = L) : Keeps L s₀ (State.portRetry s pin pass) := by
  unfold State.portRetry
  repeat' first
    | with_reducible exact h
    | exact sub_trans rfl hl
    | with_reducible assumption
    | with_reducible refine keeps_showPin _ _ _ ?_ ?_
    | with_reducible refine keeps_setPwr _ ?_ ?_
    | dsimp only
    | with_reducible refine keeps_foldl _ _ (fun _ _ hx => ?_) ?_
    | with_reducible refine keeps_ite ?_ ?_

theorem keeps_refLoss {L : Nat} {s₀ s : State} (ppm : Option ℤ) (h : Keeps L s₀ s)
    (hl : 137438970760 ||| L = L) : Keeps L s₀ (State.refLoss s ppm) := by
  unfold State.refLoss
  repeat' first
    | with_reducible exact h
    | exact sub_trans rfl hl
    | with_reducible assumption
    | with_reducible refine keeps_setPwr _ ?_ ?_
    | with_reducible refine keeps_setFld _ _ ?_ ?_
    | with_reducible refine keeps_pwrRaise _ ?_ ?_
    | dsimp only
    | with_reducible refine keeps_foldl _ _ (fun _ _ hx => ?_) ?_
    | with_reducible refine keeps_ite ?_ ?_

theorem keeps_headsOff {L : Nat} {s₀ a1 : State} (a0 : List Nat) (h : Keeps L s₀ a1)
    (hl : 536870912 ||| L = L) : Keeps L s₀ (State.headsOff a0 a1) := by
  fun_induction State.headsOff a0 a1
  all_goals repeat' first
      | with_reducible exact h
      | exact sub_trans rfl hl
      | with_reducible assumption
      | with_reducible refine keeps_setHead _ _ ?_ ?_
      | dsimp only
      | with_reducible refine keeps_foldl _ _ (fun _ _ hx => ?_) ?_
      | with_reducible apply_assumption

theorem keeps_linksDown {L : Nat} {s₀ a1 : State} (a0 : List (Nat × Nat)) (h : Keeps L s₀ a1)
    (hl : 1073759112 ||| L = L) : Keeps L s₀ (State.linksDown a0 a1) := by
  fun_induction State.linksDown a0 a1
  all_goals repeat' first
      | with_reducible exact h
      | exact sub_trans rfl hl
      | with_reducible assumption
      | with_reducible refine keeps_linkDown _ _ ?_ ?_
      | simp only [keeps_regs_iff (sub_trans rfl hl), keeps_evSet_iff (sub_trans rfl hl), keeps_evAdd_iff (sub_trans rfl hl), keeps_evPosted_iff (sub_trans rfl hl), keeps_pilots_iff (sub_trans rfl hl), keeps_pcx_iff (sub_trans rfl hl)]
      | with_reducible refine keeps_foldl _ _ (fun _ _ hx => ?_) ?_
      | with_reducible apply_assumption

theorem keeps_refHoldExpiry {L : Nat} {s₀ s : State}  (h : Keeps L s₀ s)
    (hl : 139049583496 ||| L = L) : Keeps L s₀ (State.refHoldExpiry s) := by
  unfold State.refHoldExpiry
  repeat' first
    | with_reducible exact h
    | exact sub_trans rfl hl
    | with_reducible assumption
    | with_reducible refine keeps_setPwr _ ?_ ?_
    | with_reducible refine keeps_linksDown _ ?_ ?_
    | with_reducible refine keeps_headsOff _ ?_ ?_
    | with_reducible refine keeps_ethDown _ ?_ ?_
    | dsimp only
    | with_reducible refine keeps_foldl _ _ (fun _ _ hx => ?_) ?_
    | with_reducible refine keeps_ite ?_ ?_
    | split

theorem keeps_refRestore {L : Nat} {s₀ s : State}  (h : Keeps L s₀ s)
    (hl : 137438953480 ||| L = L) : Keeps L s₀ (State.refRestore s) := by
  unfold State.refRestore
  repeat' first
    | with_reducible exact h
    | exact sub_trans rfl hl
    | with_reducible assumption
    | with_reducible refine keeps_setPwr _ ?_ ?_
    | with_reducible refine keeps_setFld _ _ ?_ ?_
    | dsimp only
    | with_reducible refine keeps_foldl _ _ (fun _ _ hx => ?_) ?_
    | with_reducible refine keeps_ite ?_ ?_

theorem keeps_stackTemps {L : Nat} {s₀ a2 : State} (c : Nat) (a1 : List (BitVec 16)) (h : Keeps L s₀ a2)
    (hl : 17288 ||| L = L) : Keeps L s₀ (State.stackTemps c a1 a2) := by
  fun_induction State.stackTemps c a1 a2
  all_goals repeat' first
      | with_reducible exact h
      | exact sub_trans rfl hl
      | with_reducible assumption
      | with_reducible refine keeps_memRaise _ _ ?_ ?_
      | with_reducible refine keeps_setFld _ _ ?_ ?_
      | simp only [keeps_regs_iff (sub_trans rfl hl), keeps_evSet_iff (sub_trans rfl hl), keeps_evAdd_iff (sub_trans rfl hl), keeps_evPosted_iff (sub_trans rfl hl), keeps_pilots_iff (sub_trans rfl hl)]
      | with_reducible refine keeps_foldl _ _ (fun _ _ hx => ?_) ?_
      | with_reducible apply_assumption
      | with_reducible refine keeps_ite ?_ ?_

theorem keeps_thermal {L : Nat} {s₀ s : State} (dies : List (BitVec 16)) (ks : List (BitVec 16)) (h : Keeps L s₀ s)
    (hl : 274877906940 ||| L = L) : Keeps L s₀ (State.thermal s dies ks) := by
  unfold State.thermal
  repeat' first
    | with_reducible exact h
    | exact sub_trans rfl hl
    | with_reducible assumption
    | with_reducible refine keeps_coldReset _ _ ?_ ?_
    | with_reducible refine keeps_pwrRaise _ ?_ ?_
    | with_reducible refine keeps_endHold _ _ ?_ ?_
    | with_reducible refine keeps_setFld _ _ ?_ ?_
    | with_reducible refine keeps_stackTemps _ _ ?_ ?_
    | dsimp only
    | with_reducible refine keeps_foldl _ _ (fun _ _ hx => ?_) ?_
    | with_reducible refine keeps_ite ?_ ?_

theorem keeps_jtag_ {L : Nat} {s₀ s : State} (code : Nat) (scan : Option (List Bool)) (h : Keeps L s₀ s)
    (hl : 274877906944 ||| L = L) : Keeps L s₀ (State.jtag_ s code scan) := by
  unfold State.jtag_
  repeat' first
    | with_reducible exact h
    | exact sub_trans rfl hl
    | with_reducible assumption
    | simp only [keeps_jtag_iff (sub_trans rfl hl)]

theorem keeps_readRc {L : Nat} {s₀ s : State} (a : Nat) (n : Nat) (f : FieldDesc) (h : Keeps L s₀ s)
    (hl : 264 ||| L = L) : Keeps L s₀ (State.readRc s a n f).1 := by
  unfold State.readRc
  repeat' first
    | with_reducible exact h
    | exact sub_trans rfl hl
    | with_reducible assumption
    | with_reducible refine keeps_setFld _ _ ?_ ?_
    | simp only [keeps_regs_iff (sub_trans rfl hl), keeps_evAdd_iff (sub_trans rfl hl)]
    | with_reducible refine keeps_foldl _ _ (fun _ _ hx => ?_) ?_
    | with_reducible refine keeps_ite_fst ?_ ?_
    | split

theorem keeps_readRc' {L : Nat} {s₀ s' : State} {s : State} {a : Nat} {n : Nat} {f : FieldDesc} {res} (he : State.readRc s a n f = (s', res)) (h : Keeps L s₀ s)
    (hl : 264 ||| L = L) : Keeps L s₀ s' := by
  have := keeps_readRc a n f h hl
  rwa [he] at this

theorem keeps_readRcs {L : Nat} {s₀ a2 : State} (a : Nat) (a1 : List FieldDesc) (a3 : Nat) (h : Keeps L s₀ a2)
    (hl : 264 ||| L = L) : Keeps L s₀ (State.readRcs a a1 a2 a3).1 := by
  fun_induction State.readRcs a a1 a2 a3
  all_goals repeat' first
      | with_reducible exact h
      | exact sub_trans rfl hl
      | with_reducible assumption
      | with_reducible refine keeps_readRc _ _ _ ?_ ?_
      | (with_reducible refine keeps_readRc' (by assumption) ?_ ?_)
      | simp only [keeps_regs_iff (sub_trans rfl hl)]
      | with_reducible refine keeps_foldl _ _ (fun _ _ hx => ?_) ?_
      | with_reducible apply_assumption

theorem keeps_readRcs' {L : Nat} {s₀ s' : State} {a : Nat} {a1 : List FieldDesc} {a2 : State} {a3 : Nat} {res} (he : State.readRcs a a1 a2 a3 = (s', res)) (h : Keeps L s₀ a2)
    (hl : 264 ||| L = L) : Keeps L s₀ s' := by
  have := keeps_readRcs a a1 a3 h hl
  rwa [he] at this

theorem keeps_latchUpper {L : Nat} {s₀ a3 : State} (m : Nat) (a : Nat) (a2 : List Nat) (h : Keeps L s₀ a3)
    (hl : 32 ||| L = L) : Keeps L s₀ (State.latchUpper m a a2 a3) := by
  fun_induction State.latchUpper m a a2 a3
  all_goals repeat' first
      | with_reducible exact h
      | exact sub_trans rfl hl
      | with_reducible assumption
      | simp only [keeps_latched_iff (sub_trans rfl hl)]
      | with_reducible refine keeps_foldl _ _ (fun _ _ hx => ?_) ?_
      | with_reducible apply_assumption

theorem keeps_apertureWord {L : Nat} {s₀ s : State} (i : Nat) (h : Keeps L s₀ s)
    (hl : 148360 ||| L = L) : Keeps L s₀ (State.apertureWord s i).1 := by
  unfold State.apertureWord
  repeat' first
    | with_reducible exact h
    | exact sub_trans rfl hl
    | with_reducible assumption
    | with_reducible refine keeps_setBitsOf _ _ ?_ ?_
    | with_reducible refine keeps_readBerth _ _ _ _ ?_ ?_
    | (with_reducible refine keeps_readBerth' (by assumption) ?_ ?_)
    | dsimp only
    | with_reducible refine keeps_foldl _ _ (fun _ _ hx => ?_) ?_
    | with_reducible refine keeps_ite_fst ?_ ?_
    | split

theorem keeps_apertureWord' {L : Nat} {s₀ s' : State} {s : State} {i : Nat} {res} (he : State.apertureWord s i = (s', res)) (h : Keeps L s₀ s)
    (hl : 148360 ||| L = L) : Keeps L s₀ s' := by
  have := keeps_apertureWord i h hl
  rwa [he] at this

theorem keeps_apertureRead {L : Nat} {s₀ s : State} (m : Nat) (i : Nat) (h : Keeps L s₀ s)
    (hl : 148360 ||| L = L) : Keeps L s₀ (State.apertureRead s m i).1 := by
  unfold State.apertureRead
  repeat' first
    | with_reducible exact h
    | exact sub_trans rfl hl
    | with_reducible assumption
    | with_reducible refine keeps_apertureWord _ ?_ ?_
    | (with_reducible refine keeps_apertureWord' (by assumption) ?_ ?_)
    | simp only [keeps_regs_iff (sub_trans rfl hl)]
    | with_reducible refine keeps_foldl _ _ (fun _ _ hx => ?_) ?_
    | with_reducible refine keeps_ite_fst ?_ ?_

theorem keeps_apertureRead' {L : Nat} {s₀ s' : State} {s : State} {m : Nat} {i : Nat} {res} (he : State.apertureRead s m i = (s', res)) (h : Keeps L s₀ s)
    (hl : 148360 ||| L = L) : Keeps L s₀ s' := by
  have := keeps_apertureRead m i h hl
  rwa [he] at this

theorem keeps_readWord {L : Nat} {s₀ s : State} (m : Nat) (a : Nat) (h : Keeps L s₀ s)
    (hl : 148396 ||| L = L) : Keeps L s₀ (State.readWord s m a).1 := by
  unfold State.readWord
  repeat' first
    | with_reducible exact h
    | exact sub_trans rfl hl
    | with_reducible assumption
    | with_reducible refine keeps_readRcs _ _ _ ?_ ?_
    | (with_reducible refine keeps_readRcs' (by assumption) ?_ ?_)
    | with_reducible refine keeps_latchUpper _ _ _ ?_ ?_
    | with_reducible refine keeps_apertureRead _ _ ?_ ?_
    | (with_reducible refine keeps_apertureRead' (by assumption) ?_ ?_)
    | with_reducible refine keeps_nextFree ?_ ?_
    | with_reducible refine keeps_logRec _ _ _ _ ?_ ?_
    | simp only [keeps_fresh_iff (sub_trans rfl hl)]
    | with_reducible refine keeps_foldl _ _ (fun _ _ hx => ?_) ?_
    | with_reducible refine keeps_ite_fst ?_ ?_
    | split

theorem keeps_readWord' {L : Nat} {s₀ s' : State} {s : State} {m : Nat} {a : Nat} {res} (he : State.readWord s m a = (s', res)) (h : Keeps L s₀ s)
    (hl : 148396 ||| L = L) : Keeps L s₀ s' := by
  have := keeps_readWord m a h hl
  rwa [he] at this

theorem keeps_controlRead {L : Nat} {s₀ s : State} (m : Nat) (a : Nat) (be : Nat) (h : Keeps L s₀ s)
    (hl : 148396 ||| L = L) : Keeps L s₀ (State.controlRead s m a be).1 := by
  unfold State.controlRead
  repeat' first
    | with_reducible exact h
    | exact sub_trans rfl hl
    | with_reducible assumption
    | with_reducible refine keeps_readWord _ _ ?_ ?_
    | (with_reducible refine keeps_readWord' (by assumption) ?_ ?_)
    | simp only [keeps_fresh_iff (sub_trans rfl hl)]
    | with_reducible refine keeps_foldl _ _ (fun _ _ hx => ?_) ?_
    | with_reducible refine keeps_ite_fst ?_ ?_

theorem keeps_controlRead' {L : Nat} {s₀ s' : State} {s : State} {m : Nat} {a : Nat} {be : Nat} {res} (he : State.controlRead s m a be = (s', res)) (h : Keeps L s₀ s)
    (hl : 148396 ||| L = L) : Keeps L s₀ s' := by
  have := keeps_controlRead m a be h hl
  rwa [he] at this

theorem keeps_putPiece {L : Nat} {s₀ s : State} (p : State.Piece) (h : Keeps L s₀ s)
    (hl : 8 ||| L = L) : Keeps L s₀ (State.putPiece s p) := by
  unfold State.putPiece
  repeat' first
    | with_reducible exact h
    | exact sub_trans rfl hl
    | with_reducible assumption
    | with_reducible refine keeps_setWord _ _ ?_ ?_

theorem keeps_landingRecs {L : Nat} {s₀ a2 : State} (ticket : Nat) (a1 : List (List State.Piece)) (h : Keeps L s₀ a2)
    (hl : 148360 ||| L = L) : Keeps L s₀ (State.landingRecs ticket a1 a2) := by
  fun_induction State.landingRecs ticket a1 a2
  all_goals repeat' first
      | with_reducible exact h
      | exact sub_trans rfl hl
      | with_reducible assumption
      | with_reducible refine keeps_logRec _ _ _ _ ?_ ?_
      | simp only [keeps_regs_iff (sub_trans rfl hl), keeps_evSet_iff (sub_trans rfl hl), keeps_evAdd_iff (sub_trans rfl hl), keeps_evPosted_iff (sub_trans rfl hl), keeps_pilots_iff (sub_trans rfl hl), keeps_log_iff (sub_trans rfl hl)]
      | with_reducible refine keeps_foldl _ _ (fun _ _ hx => ?_) ?_
      | with_reducible apply_assumption

theorem keeps_landOne {L : Nat} {s₀ s : State} (ticket : Nat) (ps : List State.Piece) (h : Keeps L s₀ s)
    (hl : 148360 ||| L = L) : Keeps L s₀ (State.landOne s ticket ps) := by
  unfold State.landOne
  repeat' first
    | with_reducible exact h
    | exact sub_trans rfl hl
    | with_reducible assumption
    | with_reducible refine keeps_putPiece _ ?_ ?_
    | with_reducible refine keeps_landingRecs _ _ ?_ ?_
    | simp only [keeps_regs_iff (sub_trans rfl hl), keeps_evSet_iff (sub_trans rfl hl), keeps_evAdd_iff (sub_trans rfl hl), keeps_evPosted_iff (sub_trans rfl hl), keeps_pilots_iff (sub_trans rfl hl), keeps_log_iff (sub_trans rfl hl)]
    | with_reducible refine keeps_foldl _ _ (fun _ _ hx => ?_) ?_

theorem keeps_clampPeriod {L : Nat} {s₀ s : State}  (h : Keeps L s₀ s)
    (hl : 8 ||| L = L) : Keeps L s₀ (State.clampPeriod s) := by
  unfold State.clampPeriod
  repeat' first
    | with_reducible exact h
    | exact sub_trans rfl hl
    | with_reducible assumption
    | with_reducible refine keeps_setFld _ _ ?_ ?_

theorem keeps_reanchor {L : Nat} {s₀ s : State} (m : Nat) (t : ℤ) (h : Keeps L s₀ s)
    (hl : 8200 ||| L = L) : Keeps L s₀ (State.reanchor s m t) := by
  unfold State.reanchor
  repeat' first
    | with_reducible exact h
    | exact sub_trans rfl hl
    | with_reducible assumption
    | with_reducible refine keeps_setFld2 _ _ _ ?_ ?_
    | with_reducible refine keeps_setWord _ _ ?_ ?_
    | simp only [keeps_time_iff (sub_trans rfl hl)]

theorem keeps_landStep {L : Nat} {s₀ s : State} (ps : List State.Piece) (d : Nat) (h : Keeps L s₀ s)
    (hl : 17179894664 ||| L = L) : Keeps L s₀ (State.landStep ps s d) := by
  unfold State.landStep
  repeat' first
    | with_reducible exact h
    | exact sub_trans rfl hl
    | with_reducible assumption
    | with_reducible refine keeps_stepDom _ _ ?_ ?_
    | dsimp only
    | with_reducible refine keeps_foldl _ _ (fun _ _ hx => ?_) ?_
    | with_reducible refine keeps_ite ?_ ?_

theorem keeps_applyNow {L : Nat} {s₀ s : State}  (h : Keeps L s₀ s)
    (hl : 4096 ||| L = L) : Keeps L s₀ (State.applyNow s) := by
  unfold State.applyNow
  repeat' first
    | with_reducible exact h
    | exact sub_trans rfl hl
    | with_reducible assumption
    | with_reducible refine keeps_takeApplied _ _ _ ?_ ?_
    | with_reducible refine keeps_scnTide ?_ ?_
    | with_reducible refine keeps_netTide _ ?_ ?_
    | dsimp only
    | with_reducible refine keeps_foldl _ _ (fun _ _ hx => ?_) ?_

theorem keeps_wakeStarted {L : Nat} {s₀ a2 : State} (old : State) (a1 : List Nat) (h : Keeps L s₀ a2)
    (hl : 536870912 ||| L = L) : Keeps L s₀ (State.wakeStarted old a1 a2) := by
  fun_induction State.wakeStarted old a1 a2
  all_goals repeat' first
      | with_reducible exact h
      | exact sub_trans rfl hl
      | with_reducible assumption
      | with_reducible refine keeps_setHead _ _ ?_ ?_
      | dsimp only
      | with_reducible refine keeps_foldl _ _ (fun _ _ hx => ?_) ?_
      | with_reducible apply_assumption
      | with_reducible refine keeps_ite ?_ ?_

theorem keeps_landed {L : Nat} {s₀ s : State} (old : State) (at_ : Option Nat) (ps : List State.Piece) (h : Keeps L s₀ s)
    (hl : 17750324108 ||| L = L) : Keeps L s₀ (State.landed old at_ ps s) := by
  unfold State.landed
  repeat' first
    | with_reducible exact h
    | exact sub_trans rfl hl
    | with_reducible assumption
    | with_reducible refine keeps_landStep _ _ ?_ ?_
    | with_reducible refine keeps_clampPeriod ?_ ?_
    | with_reducible refine keeps_encEnabled _ _ ?_ ?_
    | with_reducible refine keeps_didt ?_ ?_
    | with_reducible refine keeps_wakeStarted _ _ ?_ ?_
    | with_reducible refine keeps_reanchor _ _ ?_ ?_
    | with_reducible refine keeps_applyNow ?_ ?_
    | with_reducible refine keeps_switchDom _ _ ?_ ?_
    | with_reducible refine keeps_takeBanks _ ?_ ?_
    | simp only [keeps_time_iff (sub_trans rfl hl)]
    | with_reducible refine keeps_foldl _ _ (fun _ _ hx => ?_) ?_
    | with_reducible refine keeps_ite ?_ ?_
    | split
    | refine keeps_sys (sys_ok_same rfl rfl rfl rfl rfl) ?_ ?_

theorem keeps_postLanded {L : Nat} {s₀ a1 : State} (a0 : List Nat) (h : Keeps L s₀ a1)
    (hl : 16648 ||| L = L) : Keeps L s₀ (State.postLanded a0 a1) := by
  fun_induction State.postLanded a0 a1
  all_goals repeat' first
      | with_reducible exact h
      | exact sub_trans rfl hl
      | with_reducible assumption
      | with_reducible refine keeps_post _ _ _ _ ?_ ?_
      | simp only [keeps_regs_iff (sub_trans rfl hl), keeps_evAdd_iff (sub_trans rfl hl), keeps_pilots_iff (sub_trans rfl hl)]
      | with_reducible refine keeps_foldl _ _ (fun _ _ hx => ?_) ?_
      | with_reducible apply_assumption

theorem keeps_landAll {L : Nat} {s₀ s : State} (at_ : Option Nat) (l : List (Nat × List State.Piece)) (h : Keeps L s₀ s)
    (hl : 17750455180 ||| L = L) : Keeps L s₀ (State.landAll s at_ l) := by
  unfold State.landAll
  repeat' first
    | with_reducible exact h
    | exact sub_trans rfl hl
    | with_reducible assumption
    | with_reducible refine keeps_postLanded _ ?_ ?_
    | with_reducible refine keeps_landOne _ _ ?_ ?_
    | with_reducible refine keeps_landed _ _ _ ?_ ?_
    | dsimp only
    | with_reducible refine keeps_foldl _ _ (fun _ _ hx => ?_) ?_
    | with_reducible refine keeps_ite ?_ ?_

theorem keeps_landQueued {L : Nat} {s₀ s : State} (at_ : Option Nat) (p : Commit → Bool) (h : Keeps L s₀ s)
    (hl : 17750455180 ||| L = L) : Keeps L s₀ (State.landQueued s at_ p) := by
  unfold State.landQueued
  repeat' first
    | with_reducible exact h
    | exact sub_trans rfl hl
    | with_reducible assumption
    | with_reducible refine keeps_landAll _ _ ?_ ?_
    | dsimp only
    | refine keeps_sys (sys_ok_landq_filter _) ?_ ?_

theorem keeps_tideSwitch {L : Nat} {s₀ s : State} (n : Nat) (h : Keeps L s₀ s)
    (hl : 24840 ||| L = L) : Keeps L s₀ (State.tideSwitch s n) := by
  unfold State.tideSwitch
  repeat' first
    | with_reducible exact h
    | exact sub_trans rfl hl
    | with_reducible assumption
    | with_reducible refine keeps_switchDom _ _ ?_ ?_
    | simp only [keeps_time_iff (sub_trans rfl hl)]

theorem keeps_landTide {L : Nat} {s₀ s : State} (n : Nat) (h : Keeps L s₀ s)
    (hl : 17750455180 ||| L = L) : Keeps L s₀ (State.landTide s n) := by
  unfold State.landTide
  repeat' first
    | with_reducible exact h
    | exact sub_trans rfl hl
    | with_reducible assumption
    | with_reducible refine keeps_setLog _ ?_ ?_
    | with_reducible refine keeps_landAll _ _ ?_ ?_
    | with_reducible refine keeps_landQueued _ _ ?_ ?_
    | dsimp only
    | with_reducible refine keeps_foldl _ _ (fun _ _ hx => ?_) ?_
    | with_reducible refine keeps_ite ?_ ?_

theorem keeps_landNow {L : Nat} {s₀ s : State}  (h : Keeps L s₀ s)
    (hl : 17750455180 ||| L = L) : Keeps L s₀ (State.landNow s) := by
  unfold State.landNow
  repeat' first
    | with_reducible exact h
    | exact sub_trans rfl hl
    | with_reducible assumption
    | with_reducible refine keeps_landQueued _ _ ?_ ?_
    | simp only [keeps_fresh_iff (sub_trans rfl hl), keeps_regs_iff (sub_trans rfl hl), keeps_evSet_iff (sub_trans rfl hl), keeps_evAdd_iff (sub_trans rfl hl), keeps_evPosted_iff (sub_trans rfl hl), keeps_time_iff (sub_trans rfl hl), keeps_pilots_iff (sub_trans rfl hl), keeps_log_iff (sub_trans rfl hl), keeps_encStreams_iff (sub_trans rfl hl), keeps_scn_iff (sub_trans rfl hl), keeps_aud_iff (sub_trans rfl hl)]
    | with_reducible refine keeps_foldl _ _ (fun _ _ hx => ?_) ?_
    | with_reducible refine keeps_ite ?_ ?_
    | split

theorem keeps_landStopped {L : Nat} {s₀ s : State}  (h : Keeps L s₀ s)
    (hl : 17750455180 ||| L = L) : Keeps L s₀ (State.landStopped s) := by
  unfold State.landStopped
  repeat' first
    | with_reducible exact h
    | exact sub_trans rfl hl
    | with_reducible assumption
    | with_reducible refine keeps_landQueued _ _ ?_ ?_

theorem keeps_movePayload {L : Nat} {s₀ s : State} (k : Nat) (m : Move) (h : Keeps L s₀ s)
    (hl : 937864 ||| L = L) : Keeps L s₀ (State.movePayload s k m) := by
  unfold State.movePayload
  repeat' first
    | with_reducible exact h
    | exact sub_trans rfl hl
    | with_reducible assumption
    | with_reducible refine keeps_writeBerth _ _ _ _ ?_ ?_
    | with_reducible refine keeps_emit _ _ _ _ ?_ ?_
    | with_reducible refine keeps_setPilot _ _ ?_ ?_
    | dsimp only
    | with_reducible refine keeps_foldl _ _ (fun _ _ hx => ?_) ?_
    | with_reducible refine keeps_ite ?_ ?_

theorem keeps_moveRelease {L : Nat} {s₀ s : State} (k : Nat) (m : Move) (h : Keeps L s₀ s)
    (hl : 412552 ||| L = L) : Keeps L s₀ (State.moveRelease s k m) := by
  unfold State.moveRelease
  repeat' first
    | with_reducible exact h
    | exact sub_trans rfl hl
    | with_reducible assumption
    | with_reducible refine keeps_releaseAll _ _ ?_ ?_
    | simp only [keeps_regs_iff (sub_trans rfl hl), keeps_evSet_iff (sub_trans rfl hl), keeps_evAdd_iff (sub_trans rfl hl), keeps_evPosted_iff (sub_trans rfl hl), keeps_fab_iff (sub_trans rfl hl), keeps_pilots_iff (sub_trans rfl hl), keeps_log_iff (sub_trans rfl hl), keeps_queues_iff (sub_trans rfl hl)]
    | with_reducible refine keeps_foldl _ _ (fun _ _ hx => ?_) ?_
    | with_reducible refine keeps_ite ?_ ?_

theorem keeps_moveDone {L : Nat} {s₀ s : State} (k : Nat) (h : Keeps L s₀ s)
    (hl : 937864 ||| L = L) : Keeps L s₀ (State.moveDone s k) := by
  unfold State.moveDone
  repeat' first
    | with_reducible exact h
    | exact sub_trans rfl hl
    | with_reducible assumption
    | with_reducible refine keeps_movePayload _ _ ?_ ?_
    | with_reducible refine keeps_berthFault _ _ _ ?_ ?_
    | with_reducible refine keeps_postTo _ _ _ _ _ ?_ ?_
    | with_reducible refine keeps_moveRelease _ _ ?_ ?_
    | with_reducible refine keeps_setPilot _ _ ?_ ?_
    | dsimp only
    | with_reducible refine keeps_foldl _ _ (fun _ _ hx => ?_) ?_
    | with_reducible refine keeps_ite ?_ ?_
    | split

theorem keeps_pilotLoad {L : Nat} {s₀ s : State} (k : Nat) (a2 : Nat) (h : Keeps L s₀ s)
    (hl : 150408 ||| L = L) : Keeps L s₀ (State.pilotLoad s k a2) := by
  unfold State.pilotLoad
  repeat' first
    | with_reducible exact h
    | exact sub_trans rfl hl
    | with_reducible assumption
    | with_reducible refine keeps_acquire _ _ ?_ ?_
    | (with_reducible refine keeps_acquire' (by assumption) ?_ ?_)
    | with_reducible refine keeps_setPilot _ _ ?_ ?_
    | dsimp only
    | with_reducible refine keeps_foldl _ _ (fun _ _ hx => ?_) ?_
    | with_reducible refine keeps_ite ?_ ?_

theorem keeps_loadRec {L : Nat} {s₀ s : State} (k : Nat) (build : Nat) (hash : List Byte) (h : Keeps L s₀ s)
    (hl : 152456 ||| L = L) : Keeps L s₀ (State.loadRec s k build hash) := by
  unfold State.loadRec
  repeat' first
    | with_reducible exact h
    | exact sub_trans rfl hl
    | with_reducible assumption
    | with_reducible refine keeps_logRec _ _ _ _ ?_ ?_
    | with_reducible refine keeps_divergePilot _ ?_ ?_
    | simp only [keeps_log_iff (sub_trans rfl hl)]
    | with_reducible refine keeps_foldl _ _ (fun _ _ hx => ?_) ?_
    | with_reducible refine keeps_ite ?_ ?_
    | split

theorem keeps_takeImage {L : Nat} {s₀ s : State} (k : Nat) (a2 : Nat) (h : Keeps L s₀ s)
    (hl : 152456 ||| L = L) : Keeps L s₀ (State.takeImage s k a2) := by
  unfold State.takeImage
  repeat' first
    | with_reducible exact h
    | exact sub_trans rfl hl
    | with_reducible assumption
    | with_reducible refine keeps_setPilot _ _ ?_ ?_
    | with_reducible refine keeps_setFld _ _ ?_ ?_
    | with_reducible refine keeps_loadRec _ _ _ ?_ ?_

theorem keeps_pilotLoadDone {L : Nat} {s₀ s : State} (k : Nat) (h : Keeps L s₀ s)
    (hl : 416648 ||| L = L) : Keeps L s₀ (State.pilotLoadDone s k) := by
  unfold State.pilotLoadDone
  repeat' first
    | with_reducible exact h
    | exact sub_trans rfl hl
    | with_reducible assumption
    | with_reducible refine keeps_setFld _ _ ?_ ?_
    | with_reducible refine keeps_takeImage _ _ ?_ ?_
    | with_reducible refine keeps_release _ _ ?_ ?_
    | with_reducible refine keeps_setPilot _ _ ?_ ?_
    | dsimp only
    | with_reducible refine keeps_foldl _ _ (fun _ _ hx => ?_) ?_
    | with_reducible refine keeps_ite ?_ ?_
    | split

theorem keeps_audRejects {L : Nat} {s₀ a1 : State} (a0 : List Nat) (h : Keeps L s₀ a1)
    (hl : 17288 ||| L = L) : Keeps L s₀ (State.audRejects a0 a1) := by
  fun_induction State.audRejects a0 a1
  all_goals repeat' first
      | with_reducible exact h
      | exact sub_trans rfl hl
      | with_reducible assumption
      | with_reducible refine keeps_audRaise _ _ ?_ ?_
      | simp only [keeps_regs_iff (sub_trans rfl hl), keeps_evSet_iff (sub_trans rfl hl), keeps_evAdd_iff (sub_trans rfl hl), keeps_evPosted_iff (sub_trans rfl hl), keeps_pilots_iff (sub_trans rfl hl)]
      | with_reducible refine keeps_foldl _ _ (fun _ _ hx => ?_) ?_
      | with_reducible apply_assumption

theorem keeps_xReject {L : Nat} {s₀ s : State} (a : Nat) (h : Keeps L s₀ s)
    (hl : 17288 ||| L = L) : Keeps L s₀ (State.xReject s a) := by
  unfold State.xReject
  repeat' first
    | with_reducible exact h
    | exact sub_trans rfl hl
    | with_reducible assumption
    | with_reducible refine keeps_raise _ _ _ _ _ ?_ ?_
    | with_reducible refine keeps_setBitsOf _ _ ?_ ?_
    | with_reducible refine keeps_encRaise _ _ ?_ ?_
    | with_reducible refine keeps_twbRaise _ _ ?_ ?_
    | with_reducible refine keeps_netRaise _ _ ?_ ?_
    | with_reducible refine keeps_logRaise _ ?_ ?_
    | with_reducible refine keeps_srxRaise _ _ ?_ ?_
    | with_reducible refine keeps_lzeRaise _ ?_ ?_
    | with_reducible refine keeps_audRejects _ ?_ ?_
    | with_reducible refine keeps_timeRaise _ ?_ ?_
    | with_reducible refine keeps_pcxRaise _ _ ?_ ?_
    | with_reducible refine keeps_decRaise _ _ ?_ ?_
    | with_reducible refine keeps_pipeRaise _ _ ?_ ?_
    | with_reducible refine keeps_audRaise _ _ ?_ ?_
    | dsimp only
    | with_reducible refine keeps_foldl _ _ (fun _ _ hx => ?_) ?_
    | with_reducible refine keeps_ite ?_ ?_

theorem keeps_putField {L : Nat} {s₀ s : State} (lock : Bool) (a : Nat) (v : Nat) (f : FieldDesc) (h : Keeps L s₀ s)
    (hl : 8 ||| L = L) : Keeps L s₀ (State.putField lock a v s f) := by
  unfold State.putField
  repeat' first
    | with_reducible exact h
    | exact sub_trans rfl hl
    | with_reducible assumption
    | with_reducible refine keeps_setFld _ _ ?_ ?_
    | dsimp only
    | with_reducible refine keeps_foldl _ _ (fun _ _ hx => ?_) ?_
    | with_reducible refine keeps_ite ?_ ?_
    | split

theorem keeps_putFields {L : Nat} {s₀ s : State} (lock : Bool) (a : Nat) (v : Nat) (fs : List FieldDesc) (h : Keeps L s₀ s)
    (hl : 8 ||| L = L) : Keeps L s₀ (State.putFields lock a v fs s) := by
  unfold State.putFields
  repeat' first
    | with_reducible exact h
    | exact sub_trans rfl hl
    | with_reducible assumption
    | with_reducible refine keeps_putField _ _ _ _ ?_ ?_
    | simp only [keeps_regs_iff (sub_trans rfl hl)]
    | with_reducible refine keeps_foldl _ _ (fun _ _ hx => ?_) ?_

theorem keeps_dropHeld {L : Nat} {s₀ s : State} (a : Nat) (n : Nat) (h : Keeps L s₀ s)
    (hl : 16 ||| L = L) : Keeps L s₀ (State.dropHeld a n s) := by
  unfold State.dropHeld
  repeat' first
    | with_reducible exact h
    | exact sub_trans rfl hl
    | with_reducible assumption
    | simp only [keeps_held_iff (sub_trans rfl hl)]

theorem keeps_pilotOp {L : Nat} {s₀ s : State} (k : Nat) (op : Nat) (h : Keeps L s₀ s)
    (hl : 152456 ||| L = L) : Keeps L s₀ (State.pilotOp s k op) := by
  unfold State.pilotOp
  repeat' first
    | with_reducible exact h
    | exact sub_trans rfl hl
    | with_reducible assumption
    | with_reducible refine keeps_startPilot _ ?_ ?_
    | with_reducible refine keeps_resetPilot _ ?_ ?_
    | with_reducible refine keeps_stopPilot _ ?_ ?_
    | simp only [keeps_regs_iff (sub_trans rfl hl), keeps_evSet_iff (sub_trans rfl hl), keeps_evAdd_iff (sub_trans rfl hl), keeps_evPosted_iff (sub_trans rfl hl), keeps_pilots_iff (sub_trans rfl hl), keeps_log_iff (sub_trans rfl hl)]
    | with_reducible refine keeps_foldl _ _ (fun _ _ hx => ?_) ?_
    | with_reducible refine keeps_ite ?_ ?_

theorem keeps_blockOp {L : Nat} {s₀ s : State} (u : Nat) (p : Nat) (op : Nat) (h : Keeps L s₀ s)
    (hl : 19057762184 ||| L = L) : Keeps L s₀ (State.blockOp s u p op) := by
  unfold State.blockOp
  repeat' first
    | with_reducible exact h
    | exact sub_trans rfl hl
    | with_reducible assumption
    | with_reducible refine keeps_encOp _ _ ?_ ?_
    | with_reducible refine keeps_pipeOp _ _ ?_ ?_
    | with_reducible refine keeps_pilotOp _ _ ?_ ?_
    | with_reducible refine keeps_srxOp _ _ ?_ ?_
    | with_reducible refine keeps_audOp _ _ ?_ ?_
    | with_reducible refine keeps_logOp _ ?_ ?_
    | with_reducible refine keeps_decOp _ _ ?_ ?_
    | with_reducible refine keeps_pcxOp _ _ ?_ ?_
    | with_reducible refine keeps_netOp _ _ ?_ ?_
    | with_reducible refine keeps_scnOp _ ?_ ?_
    | with_reducible refine keeps_lzeOp _ ?_ ?_
    | simp only [keeps_regs_iff (sub_trans rfl hl), keeps_evSet_iff (sub_trans rfl hl), keeps_evAdd_iff (sub_trans rfl hl), keeps_evPosted_iff (sub_trans rfl hl), keeps_fab_iff (sub_trans rfl hl), keeps_pilots_iff (sub_trans rfl hl), keeps_log_iff (sub_trans rfl hl), keeps_queues_iff (sub_trans rfl hl), keeps_leaves_iff (sub_trans rfl hl), keeps_lanes_iff (sub_trans rfl hl), keeps_ports_iff (sub_trans rfl hl), keeps_pipes_iff (sub_trans rfl hl), keeps_encPics_iff (sub_trans rfl hl), keeps_encStreams_iff (sub_trans rfl hl), keeps_decs_iff (sub_trans rfl hl), keeps_lze_iff (sub_trans rfl hl), keeps_scn_iff (sub_trans rfl hl), keeps_pcx_iff (sub_trans rfl hl), keeps_aud_iff (sub_trans rfl hl)]
    | with_reducible refine keeps_foldl _ _ (fun _ _ hx => ?_) ?_
    | with_reducible refine keeps_ite ?_ ?_

theorem keeps_ctrlAction {L : Nat} {s₀ s : State} (u : Nat) (p : Nat) (a : Nat) (v : Nat) (h : Keeps L s₀ s)
    (hl : 156496715656 ||| L = L) : Keeps L s₀ (State.ctrlAction s u p a v) := by
  unfold State.ctrlAction
  repeat' first
    | with_reducible exact h
    | exact sub_trans rfl hl
    | with_reducible assumption
    | with_reducible refine keeps_startOp _ _ _ _ _ (fun _ hx => ?_) ?_ ?_
    | with_reducible refine keeps_blockOp _ _ _ ?_ ?_
    | dsimp only
    | with_reducible refine keeps_foldl _ _ (fun _ _ hx => ?_) ?_
    | with_reducible refine keeps_ite ?_ ?_

theorem keeps_deferredOps {L : Nat} {s₀ a2 : State} (u : Nat) (a1 : List (Nat × Nat × Nat)) (h : Keeps L s₀ a2)
    (hl : 19057762184 ||| L = L) : Keeps L s₀ (State.deferredOps u a1 a2) := by
  fun_induction State.deferredOps u a1 a2
  all_goals repeat' first
      | with_reducible exact h
      | exact sub_trans rfl hl
      | with_reducible assumption
      | with_reducible refine keeps_blockOp _ _ _ ?_ ?_
      | simp only [keeps_regs_iff (sub_trans rfl hl), keeps_evSet_iff (sub_trans rfl hl), keeps_evAdd_iff (sub_trans rfl hl), keeps_evPosted_iff (sub_trans rfl hl), keeps_fab_iff (sub_trans rfl hl), keeps_pilots_iff (sub_trans rfl hl), keeps_log_iff (sub_trans rfl hl), keeps_queues_iff (sub_trans rfl hl), keeps_leaves_iff (sub_trans rfl hl), keeps_lanes_iff (sub_trans rfl hl), keeps_ports_iff (sub_trans rfl hl), keeps_pipes_iff (sub_trans rfl hl), keeps_encPics_iff (sub_trans rfl hl), keeps_encStreams_iff (sub_trans rfl hl), keeps_decs_iff (sub_trans rfl hl), keeps_lze_iff (sub_trans rfl hl), keeps_scn_iff (sub_trans rfl hl), keeps_pcx_iff (sub_trans rfl hl), keeps_aud_iff (sub_trans rfl hl)]
      | with_reducible refine keeps_foldl _ _ (fun _ _ hx => ?_) ?_
      | with_reducible apply_assumption
      | with_reducible refine keeps_ite ?_ ?_
      | split

theorem keeps_ownReq {L : Nat} {s₀ s : State} (m : Nat) (v : Nat) (h : Keeps L s₀ s)
    (hl : 154504 ||| L = L) : Keeps L s₀ (State.ownReq s m v) := by
  unfold State.ownReq
  repeat' first
    | with_reducible exact h
    | exact sub_trans rfl hl
    | with_reducible assumption
    | with_reducible refine keeps_heartbeat _ ?_ ?_
    | with_reducible refine keeps_ownResult _ _ ?_ ?_
    | with_reducible refine keeps_handover _ _ ?_ ?_
    | with_reducible refine keeps_claim _ _ ?_ ?_
    | with_reducible refine keeps_ownRelease _ ?_ ?_
    | dsimp only
    | with_reducible refine keeps_foldl _ _ (fun _ _ hx => ?_) ?_
    | with_reducible refine keeps_ite ?_ ?_

theorem keeps_txnShow {L : Nat} {s₀ : State} (r : State × Nat) (h : Keeps L s₀ r.1)
    (hl : 4096 ||| L = L) : Keeps L s₀ (State.txnShow r) := keeps_sys (sys_ok_same rfl rfl rfl rfl rfl) h hl

theorem keeps_txnReq {L : Nat} {s₀ s : State} (a1 : Nat) (v : Nat) (h : Keeps L s₀ s)
    (hl : 20744 ||| L = L) : Keeps L s₀ (State.txnReq s a1 v) := by
  unfold State.txnReq
  refine keeps_ite ?_ (keeps_ite ?_ (keeps_ite ?_ (keeps_ite ?_ ?_)))
  · exact keeps_txnShow _ (keeps_txnBegin _ h (sub_trans rfl hl)) (sub_trans rfl hl)
  · exact keeps_txnShow _ (keeps_commit _ _ _ _ h (sub_trans rfl hl)) (sub_trans rfl hl)
  · exact keeps_txnShow _ (keeps_txnRollback _ h (sub_trans rfl hl)) (sub_trans rfl hl)
  · exact keeps_txnShow _ (keeps_withdraw _ _ h (sub_trans rfl hl)) (sub_trans rfl hl)
  · exact keeps_txnShow _ h (sub_trans rfl hl)

theorem keeps_landEach {L : Nat} {s₀ a1 : State} (a0 : Nat) (h : Keeps L s₀ a1)
    (hl : 17750455180 ||| L = L) : Keeps L s₀ (State.landEach a0 a1) := by
  fun_induction State.landEach a0 a1
  all_goals repeat' first
      | with_reducible exact h
      | exact sub_trans rfl hl
      | with_reducible assumption
      | with_reducible refine keeps_landQueued _ _ ?_ ?_
      | simp only [keeps_fresh_iff (sub_trans rfl hl), keeps_regs_iff (sub_trans rfl hl), keeps_evSet_iff (sub_trans rfl hl), keeps_evAdd_iff (sub_trans rfl hl), keeps_evPosted_iff (sub_trans rfl hl), keeps_time_iff (sub_trans rfl hl), keeps_pilots_iff (sub_trans rfl hl), keeps_log_iff (sub_trans rfl hl), keeps_encStreams_iff (sub_trans rfl hl), keeps_scn_iff (sub_trans rfl hl), keeps_aud_iff (sub_trans rfl hl)]
      | with_reducible refine keeps_foldl _ _ (fun _ _ hx => ?_) ?_
      | with_reducible apply_assumption

theorem keeps_runWritten {L : Nat} {s₀ s : State} (old : Bool) (h : Keeps L s₀ s)
    (hl : 17750455180 ||| L = L) : Keeps L s₀ (State.runWritten s old) := by
  unfold State.runWritten
  repeat' first
    | with_reducible exact h
    | exact sub_trans rfl hl
    | with_reducible assumption
    | with_reducible refine keeps_landEach _ ?_ ?_
    | with_reducible refine keeps_landStopped ?_ ?_
    | simp only [keeps_time_iff (sub_trans rfl hl)]
    | with_reducible refine keeps_foldl _ _ (fun _ _ hx => ?_) ?_
    | with_reducible refine keeps_ite ?_ ?_

theorem keeps_ptpWritten {L : Nat} {s₀ s : State} (e : Nat) (old : Bool) (h : Keeps L s₀ s)
    (hl : 8200 ||| L = L) : Keeps L s₀ (State.ptpWritten s e old) := by
  unfold State.ptpWritten
  repeat' first
    | with_reducible exact h
    | exact sub_trans rfl hl
    | with_reducible assumption
    | with_reducible refine keeps_setFld _ _ ?_ ?_
    | with_reducible refine keeps_roleState _ ?_ ?_
    | with_reducible refine keeps_setDom _ _ ?_ ?_
    | dsimp only
    | with_reducible refine keeps_foldl _ _ (fun _ _ hx => ?_) ?_
    | with_reducible refine keeps_ite ?_ ?_

theorem keeps_evtWritten {L : Nat} {s₀ s : State} (i : Nat) (old : Nat) (h : Keeps L s₀ s)
    (hl : 8192 ||| L = L) : Keeps L s₀ (State.evtWritten s i old) := by
  unfold State.evtWritten
  repeat' first
    | with_reducible exact h
    | exact sub_trans rfl hl
    | with_reducible assumption
    | with_reducible refine keeps_setEvtPin _ _ ?_ ?_
    | dsimp only
    | with_reducible refine keeps_foldl _ _ (fun _ _ hx => ?_) ?_
    | with_reducible refine keeps_ite ?_ ?_

theorem keeps_timeAction {L : Nat} {s₀ s : State} (old : State) (a : Nat) (v : Nat) (h : Keeps L s₀ s)
    (hl : 17750455180 ||| L = L) : Keeps L s₀ (State.timeAction old a v s) := by
  unfold State.timeAction
  repeat' first
    | with_reducible exact h
    | exact sub_trans rfl hl
    | with_reducible assumption
    | with_reducible refine keeps_runWritten _ ?_ ?_
    | with_reducible refine keeps_ptpWritten _ _ ?_ ?_
    | with_reducible refine keeps_popEts _ ?_ ?_
    | simp only [keeps_time_iff (sub_trans rfl hl)]
    | with_reducible refine keeps_foldl _ _ (fun _ _ hx => ?_) ?_
    | with_reducible refine keeps_ite ?_ ?_

theorem keeps_pilotAction {L : Nat} {s₀ s : State} (m : Nat) (a : Nat) (v : Nat) (h : Keeps L s₀ s)
    (hl : 150408 ||| L = L) : Keeps L s₀ (State.pilotAction m a v s) := by
  unfold State.pilotAction
  repeat' first
    | with_reducible exact h
    | exact sub_trans rfl hl
    | with_reducible assumption
    | with_reducible refine keeps_postTo _ _ _ _ _ ?_ ?_
    | with_reducible refine keeps_pilotLoad _ _ ?_ ?_
    | dsimp only
    | with_reducible refine keeps_foldl _ _ (fun _ _ hx => ?_) ?_
    | with_reducible refine keeps_ite ?_ ?_

theorem keeps_berthCmd {L : Nat} {s₀ s : State} (m op a3 : Nat) (h : Keeps L s₀ s)
    (hl : 150408 ||| L = L) : Keeps L s₀ (State.berthCmd s m op a3) := by
  unfold State.berthCmd
  split
  · exact keeps_fab (keeps_allocate _ _ _ _ _ h (sub_trans rfl hl)) (sub_trans rfl hl)
  split
  · exact keeps_fab (keeps_free _ _ h (sub_trans rfl hl)) (sub_trans rfl hl)
  split
  · exact keeps_fab h (sub_trans rfl hl)
  · exact h

theorem keeps_showQuery {L : Nat} {s₀ s : State} (b : Berth) (h : Keeps L s₀ s)
    (hl : 8 ||| L = L) : Keeps L s₀ (State.showQuery s b) := by
  unfold State.showQuery
  repeat' first
    | with_reducible exact h
    | exact sub_trans rfl hl
    | with_reducible assumption
    | with_reducible refine keeps_setFld _ _ ?_ ?_
    | dsimp only
    | with_reducible refine keeps_foldl _ _ (fun _ _ hx => ?_) ?_

theorem keeps_berthCmdEnd {L : Nat} {s₀ s : State}  (h : Keeps L s₀ s)
    (hl : 2056 ||| L = L) : Keeps L s₀ (State.berthCmdEnd s) := by
  unfold State.berthCmdEnd
  repeat' first
    | with_reducible exact h
    | exact sub_trans rfl hl
    | with_reducible assumption
    | with_reducible refine keeps_showQuery _ ?_ ?_
    | with_reducible refine keeps_setFld _ _ ?_ ?_
    | simp only [keeps_fab_iff (sub_trans rfl hl)]
    | with_reducible refine keeps_foldl _ _ (fun _ _ hx => ?_) ?_
    | with_reducible refine keeps_ite ?_ ?_
    | split

theorem keeps_apHandle {L : Nat} {s₀ s : State} (old : Nat) (new : Nat) (h : Keeps L s₀ s)
    (hl : 150408 ||| L = L) : Keeps L s₀ (State.apHandle s old new) := by
  unfold State.apHandle
  repeat' first
    | with_reducible exact h
    | exact sub_trans rfl hl
    | with_reducible assumption
    | with_reducible refine keeps_acquire _ _ ?_ ?_
    | (with_reducible refine keeps_acquire' (by assumption) ?_ ?_)
    | with_reducible refine keeps_setBitsOf _ _ ?_ ?_
    | with_reducible refine keeps_releaseTable _ _ ?_ ?_
    | with_reducible refine keeps_setFld _ _ ?_ ?_
    | dsimp only
    | with_reducible refine keeps_foldl _ _ (fun _ _ hx => ?_) ?_
    | with_reducible refine keeps_ite ?_ ?_
    | split

theorem keeps_fabAction {L : Nat} {s₀ s : State} (old : State) (m : Nat) (a : Nat) (v : Nat) (h : Keeps L s₀ s)
    (hl : 150408 ||| L = L) : Keeps L s₀ (State.fabAction old m a v s) := by
  unfold State.fabAction
  repeat' first
    | with_reducible exact h
    | exact sub_trans rfl hl
    | with_reducible assumption
    | with_reducible refine keeps_apHandle _ _ ?_ ?_
    | with_reducible refine keeps_berthCmd _ _ _ ?_ ?_
    | simp only [keeps_regs_iff (sub_trans rfl hl), keeps_evSet_iff (sub_trans rfl hl), keeps_evAdd_iff (sub_trans rfl hl), keeps_evPosted_iff (sub_trans rfl hl), keeps_fab_iff (sub_trans rfl hl), keeps_pilots_iff (sub_trans rfl hl), keeps_log_iff (sub_trans rfl hl)]
    | with_reducible refine keeps_foldl _ _ (fun _ _ hx => ?_) ?_
    | with_reducible refine keeps_ite ?_ ?_

theorem keeps_apertureWrite {L : Nat} {s₀ s : State} (i : Nat) (v : Nat) (h : Keeps L s₀ s)
    (hl : 149384 ||| L = L) : Keeps L s₀ (State.apertureWrite s i v) := by
  unfold State.apertureWrite
  repeat' first
    | with_reducible exact h
    | exact sub_trans rfl hl
    | with_reducible assumption
    | with_reducible refine keeps_setBitsOf _ _ ?_ ?_
    | with_reducible refine keeps_writeBerth _ _ _ _ ?_ ?_
    | dsimp only
    | with_reducible refine keeps_foldl _ _ (fun _ _ hx => ?_) ?_
    | with_reducible refine keeps_ite ?_ ?_

theorem keeps_secLogAction {L : Nat} {s₀ s : State} (m : Nat) (a : Nat) (v : Nat) (env : WriteEnv) (h : Keeps L s₀ s)
    (hl : 2148421516 ||| L = L) : Keeps L s₀ (State.secLogAction m a v env s) := by
  unfold State.secLogAction
  repeat' first
    | with_reducible exact h
    | exact sub_trans rfl hl
    | with_reducible assumption
    | with_reducible refine keeps_logPump ?_ ?_
    | with_reducible refine keeps_secPush _ ?_ ?_
    | with_reducible refine keeps_logPush _ _ ?_ ?_
    | with_reducible refine keeps_secCmd _ _ _ ?_ ?_
    | with_reducible refine keeps_nextFree ?_ ?_
    | simp only [keeps_fresh_iff (sub_trans rfl hl), keeps_regs_iff (sub_trans rfl hl), keeps_evSet_iff (sub_trans rfl hl), keeps_evAdd_iff (sub_trans rfl hl), keeps_evPosted_iff (sub_trans rfl hl), keeps_fab_iff (sub_trans rfl hl), keeps_pilots_iff (sub_trans rfl hl), keeps_log_iff (sub_trans rfl hl), keeps_queues_iff (sub_trans rfl hl), keeps_leaves_iff (sub_trans rfl hl), keeps_sec_iff (sub_trans rfl hl)]
    | with_reducible refine keeps_foldl _ _ (fun _ _ hx => ?_) ?_
    | with_reducible refine keeps_ite ?_ ?_
    | split

theorem keeps_cameraAction {L : Nat} {s₀ s : State} (old : State) (a : Nat) (v : Nat) (h : Keeps L s₀ s)
    (hl : 2376584 ||| L = L) : Keeps L s₀ (State.cameraAction old a v s) := by
  unfold State.cameraAction
  repeat' first
    | with_reducible exact h
    | exact sub_trans rfl hl
    | with_reducible assumption
    | with_reducible refine keeps_pipeRawPush _ _ ?_ ?_
    | with_reducible refine keeps_statPush _ _ ?_ ?_
    | with_reducible refine keeps_laneCfgWritten _ _ _ _ ?_ ?_
    | with_reducible refine keeps_pipeOutPush _ _ _ ?_ ?_
    | with_reducible refine keeps_pipeInPush _ _ _ ?_ ?_
    | with_reducible refine keeps_laneSlip _ _ ?_ ?_
    | with_reducible refine keeps_gpioConflict _ ?_ ?_
    | with_reducible refine keeps_srxFqPush _ _ _ ?_ ?_
    | dsimp only
    | with_reducible refine keeps_foldl _ _ (fun _ _ hx => ?_) ?_
    | with_reducible refine keeps_ite ?_ ?_

theorem keeps_codecAction {L : Nat} {s₀ s : State} (a : Nat) (v : Nat) (h : Keeps L s₀ s)
    (hl : 202787720 ||| L = L) : Keeps L s₀ (State.codecAction a v s) := by
  unfold State.codecAction
  repeat' first
    | with_reducible exact h
    | exact sub_trans rfl hl
    | with_reducible assumption
    | with_reducible refine keeps_ffCmd _ ?_ ?_
    | with_reducible refine keeps_lzePop _ ?_ ?_
    | with_reducible refine keeps_decOutPush _ _ ?_ ?_
    | with_reducible refine keeps_decDpbPush _ _ ?_ ?_
    | with_reducible refine keeps_encPush _ _ _ _ ?_ ?_
    | with_reducible refine keeps_decInPush _ _ ?_ ?_
    | with_reducible refine keeps_lzePush _ _ _ ?_ ?_
    | with_reducible refine keeps_calRunCmd _ ?_ ?_
    | dsimp only
    | with_reducible refine keeps_foldl _ _ (fun _ _ hx => ?_) ?_
    | with_reducible refine keeps_ite ?_ ?_

theorem keeps_memScnAction {L : Nat} {s₀ s : State} (a : Nat) (v : Nat) (h : Keeps L s₀ s)
    (hl : 537283464 ||| L = L) : Keeps L s₀ (State.memScnAction a v s) := by
  unfold State.memScnAction
  repeat' first
    | with_reducible exact h
    | exact sub_trans rfl hl
    | with_reducible assumption
    | with_reducible refine keeps_memXlate ?_ ?_
    | with_reducible refine keeps_memRetrain _ ?_ ?_
    | with_reducible refine keeps_scnLoad ?_ ?_
    | with_reducible refine keeps_quayWritten ?_ ?_
    | with_reducible refine keeps_scnPush _ _ ?_ ?_
    | simp only [keeps_regs_iff (sub_trans rfl hl), keeps_evSet_iff (sub_trans rfl hl), keeps_evAdd_iff (sub_trans rfl hl), keeps_evPosted_iff (sub_trans rfl hl), keeps_fab_iff (sub_trans rfl hl), keeps_pilots_iff (sub_trans rfl hl), keeps_log_iff (sub_trans rfl hl), keeps_queues_iff (sub_trans rfl hl), keeps_scn_iff (sub_trans rfl hl)]
    | with_reducible refine keeps_foldl _ _ (fun _ _ hx => ?_) ?_
    | with_reducible refine keeps_ite ?_ ?_

theorem keeps_pcxAction {L : Nat} {s₀ s : State} (old : State) (a : Nat) (v : Nat) (h : Keeps L s₀ s)
    (hl : 1074154380 ||| L = L) : Keeps L s₀ (State.pcxAction old a v s) := by
  unfold State.pcxAction
  repeat' first
    | with_reducible exact h
    | exact sub_trans rfl hl
    | with_reducible assumption
    | with_reducible refine keeps_driveOp _ _ ?_ ?_
    | with_reducible refine keeps_volOp _ _ ?_ ?_
    | with_reducible refine keeps_epIrq _ _ ?_ ?_
    | with_reducible refine keeps_volPush _ _ _ ?_ ?_
    | with_reducible refine keeps_epWindow _ _ _ _ ?_ ?_
    | dsimp only
    | with_reducible refine keeps_foldl _ _ (fun _ _ hx => ?_) ?_
    | with_reducible refine keeps_ite ?_ ?_

theorem keeps_deviceMsg {L : Nat} {s₀ s : State} (i : Nat) (type : Nat) (body : List Byte) (h : Keeps L s₀ s)
    (hl : 8589934596 ||| L = L) : Keeps L s₀ (State.deviceMsg s i type body) := by
  unfold State.deviceMsg
  repeat' first
    | with_reducible exact h
    | exact sub_trans rfl hl
    | with_reducible assumption
    | with_reducible refine keeps_hcpSend _ ?_ ?_
    | with_reducible refine keeps_setHcpSess _ _ ?_ ?_
    | with_reducible refine keeps_nextFree ?_ ?_

theorem keeps_hcpSendReg {L : Nat} {s₀ s : State}  (h : Keeps L s₀ s)
    (hl : 8589934596 ||| L = L) : Keeps L s₀ (State.hcpSendReg s) := by
  unfold State.hcpSendReg
  repeat' first
    | with_reducible exact h
    | exact sub_trans rfl hl
    | with_reducible assumption
    | with_reducible refine keeps_deviceMsg _ _ _ ?_ ?_
    | dsimp only
    | with_reducible refine keeps_foldl _ _ (fun _ _ hx => ?_) ?_
    | with_reducible refine keeps_ite ?_ ?_

theorem keeps_netAction {L : Nat} {s₀ s : State} (a : Nat) (v : Nat) (h : Keeps L s₀ s)
    (hl : 8590214028 ||| L = L) : Keeps L s₀ (State.netAction a v s) := by
  unfold State.netAction
  repeat' first
    | with_reducible exact h
    | exact sub_trans rfl hl
    | with_reducible assumption
    | with_reducible refine keeps_netTxPush _ _ _ ?_ ?_
    | with_reducible refine keeps_hcpSendReg ?_ ?_
    | with_reducible refine keeps_netRxPush _ _ _ ?_ ?_
    | dsimp only
    | with_reducible refine keeps_foldl _ _ (fun _ _ hx => ?_) ?_
    | with_reducible refine keeps_ite ?_ ?_

theorem keeps_audAction {L : Nat} {s₀ s : State} (old : State) (a : Nat) (v : Nat) (h : Keeps L s₀ s)
    (hl : 17180148616 ||| L = L) : Keeps L s₀ (State.audAction old a v s) := by
  unfold State.audAction
  repeat' first
    | with_reducible exact h
    | exact sub_trans rfl hl
    | with_reducible assumption
    | with_reducible refine keeps_scgConfig _ _ _ _ ?_ ?_
    | with_reducible refine keeps_audPush _ _ ?_ ?_
    | dsimp only
    | with_reducible refine keeps_foldl _ _ (fun _ _ hx => ?_) ?_
    | with_reducible refine keeps_ite ?_ ?_

theorem keeps_twbAction {L : Nat} {s₀ s : State} (a : Nat) (v : Nat) (env : WriteEnv) (h : Keeps L s₀ s)
    (hl : 34359755660 ||| L = L) : Keeps L s₀ (State.twbAction a v env s) := by
  unfold State.twbAction
  repeat' first
    | with_reducible exact h
    | exact sub_trans rfl hl
    | with_reducible assumption
    | with_reducible refine keeps_twbAlert _ ?_ ?_
    | with_reducible refine keeps_twbGo _ _ _ _ _ ?_ ?_
    | with_reducible refine keeps_nextFree ?_ ?_
    | with_reducible refine keeps_twbOp _ _ _ ?_ ?_
    | dsimp only
    | with_reducible refine keeps_foldl _ _ (fun _ _ hx => ?_) ?_
    | with_reducible refine keeps_ite ?_ ?_
    | split

theorem keeps_gpioEvtAction {L : Nat} {s₀ s : State} (old : State) (a : Nat) (v : Nat) (h : Keeps L s₀ s)
    (hl : 68719502216 ||| L = L) : Keeps L s₀ (State.gpioEvtAction old a v s) := by
  unfold State.gpioEvtAction
  repeat' first
    | with_reducible exact h
    | exact sub_trans rfl hl
    | with_reducible assumption
    | with_reducible refine keeps_setFld _ _ ?_ ?_
    | with_reducible refine keeps_evtResume _ ?_ ?_
    | with_reducible refine keeps_gpioWrite _ _ _ ?_ ?_
    | with_reducible refine keeps_evtWritten _ _ ?_ ?_
    | with_reducible refine keeps_evtArm _ ?_ ?_
    | with_reducible refine keeps_gpioConflict _ ?_ ?_
    | with_reducible refine keeps_gpioResume _ _ ?_ ?_
    | with_reducible refine keeps_setEvtPin _ _ ?_ ?_
    | simp only [keeps_regs_iff (sub_trans rfl hl)]
    | with_reducible refine keeps_foldl _ _ (fun _ _ hx => ?_) ?_
    | with_reducible refine keeps_ite ?_ ?_

theorem keeps_pwrAction {L : Nat} {s₀ s : State} (old : State) (a : Nat) (v : Nat) (h : Keeps L s₀ s)
    (hl : 274877906940 ||| L = L) : Keeps L s₀ (State.pwrAction old a v s) := by
  unfold State.pwrAction
  repeat' first
    | with_reducible exact h
    | exact sub_trans rfl hl
    | with_reducible assumption
    | with_reducible refine keeps_pwrOp _ ?_ ?_
    | with_reducible refine keeps_wdogRestart ?_ ?_
    | with_reducible refine keeps_wdogKick _ ?_ ?_
    | with_reducible refine keeps_pwrBlock _ ?_ ?_
    | simp only [keeps_fresh_iff (sub_trans rfl hl), keeps_regs_iff (sub_trans rfl hl), keeps_held_iff (sub_trans rfl hl), keeps_latched_iff (sub_trans rfl hl), keeps_rsp_iff (sub_trans rfl hl), keeps_evSet_iff (sub_trans rfl hl), keeps_evAdd_iff (sub_trans rfl hl), keeps_evPosted_iff (sub_trans rfl hl), keeps_fab_iff (sub_trans rfl hl), keeps_time_iff (sub_trans rfl hl), keeps_pilots_iff (sub_trans rfl hl), keeps_shared_iff (sub_trans rfl hl), keeps_published_iff (sub_trans rfl hl), keeps_log_iff (sub_trans rfl hl), keeps_queues_iff (sub_trans rfl hl), keeps_leaves_iff (sub_trans rfl hl), keeps_cal_iff (sub_trans rfl hl), keeps_lanes_iff (sub_trans rfl hl), keeps_ports_iff (sub_trans rfl hl), keeps_pipes_iff (sub_trans rfl hl), keeps_encPics_iff (sub_trans rfl hl), keeps_encStreams_iff (sub_trans rfl hl), keeps_decs_iff (sub_trans rfl hl), keeps_lze_iff (sub_trans rfl hl), keeps_memsys_iff (sub_trans rfl hl), keeps_scn_iff (sub_trans rfl hl), keeps_pcx_iff (sub_trans rfl hl), keeps_sec_iff (sub_trans rfl hl), keeps_nets_iff (sub_trans rfl hl), keeps_hcp_iff (sub_trans rfl hl), keeps_aud_iff (sub_trans rfl hl), keeps_twbs_iff (sub_trans rfl hl), keeps_gpio_iff (sub_trans rfl hl), keeps_pwr_iff (sub_trans rfl hl)]
    | with_reducible refine keeps_foldl _ _ (fun _ _ hx => ?_) ?_
    | with_reducible refine keeps_ite ?_ ?_

theorem keeps_action {L : Nat} {s₀ s : State} (old : State) (m : Nat) (a : Nat) (v : Nat) (env : WriteEnv) (h : Keeps L s₀ s)
    (hl : 274877906940 ||| L = L) : Keeps L s₀ (State.action old m a v env s) := by
  unfold State.action
  repeat' first
    | with_reducible exact h
    | exact sub_trans rfl hl
    | with_reducible assumption
    | with_reducible refine keeps_pilotAction _ _ _ ?_ ?_
    | with_reducible refine keeps_pcxAction _ _ _ ?_ ?_
    | with_reducible refine keeps_secLogAction _ _ _ _ ?_ ?_
    | with_reducible refine keeps_pwrAction _ _ _ ?_ ?_
    | with_reducible refine keeps_memScnAction _ _ ?_ ?_
    | with_reducible refine keeps_cameraAction _ _ _ ?_ ?_
    | with_reducible refine keeps_codecAction _ _ ?_ ?_
    | with_reducible refine keeps_netAction _ _ ?_ ?_
    | with_reducible refine keeps_txnReq _ _ ?_ ?_
    | with_reducible refine keeps_ownReq _ _ ?_ ?_
    | with_reducible refine keeps_audAction _ _ _ ?_ ?_
    | with_reducible refine keeps_fabAction _ _ _ _ ?_ ?_
    | with_reducible refine keeps_twbAction _ _ _ ?_ ?_
    | with_reducible refine keeps_gpioEvtAction _ _ _ ?_ ?_
    | with_reducible refine keeps_ctrlAction _ _ _ _ ?_ ?_
    | with_reducible refine keeps_timeAction _ _ _ ?_ ?_
    | simp only [keeps_fresh_iff (sub_trans rfl hl), keeps_regs_iff (sub_trans rfl hl), keeps_held_iff (sub_trans rfl hl), keeps_latched_iff (sub_trans rfl hl), keeps_rsp_iff (sub_trans rfl hl), keeps_evSet_iff (sub_trans rfl hl), keeps_evAdd_iff (sub_trans rfl hl), keeps_evPosted_iff (sub_trans rfl hl), keeps_fab_iff (sub_trans rfl hl), keeps_time_iff (sub_trans rfl hl), keeps_pilots_iff (sub_trans rfl hl), keeps_shared_iff (sub_trans rfl hl), keeps_published_iff (sub_trans rfl hl), keeps_log_iff (sub_trans rfl hl), keeps_queues_iff (sub_trans rfl hl), keeps_leaves_iff (sub_trans rfl hl), keeps_cal_iff (sub_trans rfl hl), keeps_lanes_iff (sub_trans rfl hl), keeps_ports_iff (sub_trans rfl hl), keeps_pipes_iff (sub_trans rfl hl), keeps_encPics_iff (sub_trans rfl hl), keeps_encStreams_iff (sub_trans rfl hl), keeps_decs_iff (sub_trans rfl hl), keeps_lze_iff (sub_trans rfl hl), keeps_memsys_iff (sub_trans rfl hl), keeps_scn_iff (sub_trans rfl hl), keeps_pcx_iff (sub_trans rfl hl), keeps_sec_iff (sub_trans rfl hl), keeps_nets_iff (sub_trans rfl hl), keeps_hcp_iff (sub_trans rfl hl), keeps_aud_iff (sub_trans rfl hl), keeps_twbs_iff (sub_trans rfl hl), keeps_gpio_iff (sub_trans rfl hl), keeps_pwr_iff (sub_trans rfl hl)]
    | with_reducible refine keeps_foldl _ _ (fun _ _ hx => ?_) ?_
    | with_reducible refine keeps_ite ?_ ?_
    | split

theorem keeps_writeValue {L : Nat} {s₀ s : State} (m : Nat) (a : Nat) (v : Nat) (n : Nat) (env : WriteEnv) (h : Keeps L s₀ s)
    (hl : 274877906940 ||| L = L) : Keeps L s₀ (State.writeValue s m a v n env) := by
  unfold State.writeValue
  repeat' first
    | with_reducible exact h
    | exact sub_trans rfl hl
    | with_reducible assumption
    | with_reducible refine keeps_dropHeld _ _ ?_ ?_
    | with_reducible refine keeps_writeT _ _ ?_ ?_
    | with_reducible refine keeps_action _ _ _ _ _ ?_ ?_
    | with_reducible refine keeps_putFields _ _ _ _ ?_ ?_
    | with_reducible refine keeps_xReject _ ?_ ?_
    | dsimp only
    | with_reducible refine keeps_foldl _ _ (fun _ _ hx => ?_) ?_
    | with_reducible refine keeps_ite ?_ ?_

theorem keeps_performWrite {L : Nat} {s₀ s : State} (m : Nat) (a : Nat) (v : Nat) (env : WriteEnv) (h : Keeps L s₀ s)
    (hl : 274877906940 ||| L = L) : Keeps L s₀ (State.performWrite s m a v env) := by
  unfold State.performWrite
  repeat' first
    | with_reducible exact h
    | exact sub_trans rfl hl
    | with_reducible assumption
    | with_reducible refine keeps_apertureWrite _ _ ?_ ?_
    | with_reducible refine keeps_twbRaise _ _ ?_ ?_
    | with_reducible refine keeps_writeValue _ _ _ _ _ ?_ ?_
    | simp only [keeps_held_iff (sub_trans rfl hl)]
    | with_reducible refine keeps_foldl _ _ (fun _ _ hx => ?_) ?_
    | with_reducible refine keeps_ite ?_ ?_

theorem keeps_writeRec {L : Nat} {s₀ s : State} (m : Nat) (a : Nat) (v : Nat) (sub : Nat) (h : Keeps L s₀ s)
    (hl : 148360 ||| L = L) : Keeps L s₀ (State.writeRec s m a v sub) := by
  unfold State.writeRec
  repeat' first
    | with_reducible exact h
    | exact sub_trans rfl hl
    | with_reducible assumption
    | with_reducible refine keeps_logRec _ _ _ _ ?_ ?_
    | simp only [keeps_regs_iff (sub_trans rfl hl), keeps_evSet_iff (sub_trans rfl hl), keeps_evAdd_iff (sub_trans rfl hl), keeps_evPosted_iff (sub_trans rfl hl), keeps_pilots_iff (sub_trans rfl hl), keeps_log_iff (sub_trans rfl hl)]
    | with_reducible refine keeps_foldl _ _ (fun _ _ hx => ?_) ?_
    | with_reducible refine keeps_ite ?_ ?_

theorem keeps_controlWrite {L : Nat} {s₀ s : State} (m : Nat) (a : Nat) (be : Nat) (v : Nat) (env : WriteEnv) (h : Keeps L s₀ s)
    (hl : 274877906940 ||| L = L) : Keeps L s₀ (State.controlWrite s m a be v env) := by
  unfold State.controlWrite
  repeat' first
    | with_reducible exact h
    | exact sub_trans rfl hl
    | with_reducible assumption
    | with_reducible refine keeps_performWrite _ _ _ _ ?_ ?_
    | with_reducible refine keeps_reject _ _ _ ?_ ?_
    | with_reducible refine keeps_writeRec _ _ _ _ ?_ ?_
    | simp only [keeps_fresh_iff (sub_trans rfl hl), keeps_regs_iff (sub_trans rfl hl), keeps_held_iff (sub_trans rfl hl), keeps_latched_iff (sub_trans rfl hl), keeps_rsp_iff (sub_trans rfl hl), keeps_evSet_iff (sub_trans rfl hl), keeps_evAdd_iff (sub_trans rfl hl), keeps_evPosted_iff (sub_trans rfl hl), keeps_fab_iff (sub_trans rfl hl), keeps_time_iff (sub_trans rfl hl), keeps_pilots_iff (sub_trans rfl hl), keeps_shared_iff (sub_trans rfl hl), keeps_published_iff (sub_trans rfl hl), keeps_log_iff (sub_trans rfl hl), keeps_queues_iff (sub_trans rfl hl), keeps_leaves_iff (sub_trans rfl hl), keeps_cal_iff (sub_trans rfl hl), keeps_lanes_iff (sub_trans rfl hl), keeps_ports_iff (sub_trans rfl hl), keeps_pipes_iff (sub_trans rfl hl), keeps_encPics_iff (sub_trans rfl hl), keeps_encStreams_iff (sub_trans rfl hl), keeps_decs_iff (sub_trans rfl hl), keeps_lze_iff (sub_trans rfl hl), keeps_memsys_iff (sub_trans rfl hl), keeps_scn_iff (sub_trans rfl hl), keeps_pcx_iff (sub_trans rfl hl), keeps_sec_iff (sub_trans rfl hl), keeps_nets_iff (sub_trans rfl hl), keeps_hcp_iff (sub_trans rfl hl), keeps_aud_iff (sub_trans rfl hl), keeps_twbs_iff (sub_trans rfl hl), keeps_gpio_iff (sub_trans rfl hl), keeps_pwr_iff (sub_trans rfl hl)]
    | with_reducible refine keeps_foldl _ _ (fun _ _ hx => ?_) ?_
    | with_reducible refine keeps_ite ?_ ?_

theorem keeps_wordWrite {L : Nat} {s₀ s : State} (m : Nat) (a : Nat) (v : Nat) (h : Keeps L s₀ s)
    (hl : 274877906940 ||| L = L) : Keeps L s₀ (State.wordWrite s m a v) := by
  unfold State.wordWrite
  repeat' first
    | with_reducible exact h
    | exact sub_trans rfl hl
    | with_reducible assumption
    | with_reducible refine keeps_controlWrite _ _ _ _ _ ?_ ?_

theorem keeps_readCmd {L : Nat} {s₀ s : State} (m : Nat) (a : Nat) (be : Nat) (h : Keeps L s₀ s)
    (hl : 148460 ||| L = L) : Keeps L s₀ (State.readCmd s m a be) := by
  unfold State.readCmd
  repeat' first
    | with_reducible exact h
    | exact sub_trans rfl hl
    | with_reducible assumption
    | with_reducible refine keeps_controlRead _ _ _ ?_ ?_
    | (with_reducible refine keeps_controlRead' (by assumption) ?_ ?_)
    | simp only [keeps_fresh_iff (sub_trans rfl hl), keeps_rsp_iff (sub_trans rfl hl)]

theorem keeps_parcelArrives {L : Nat} {s₀ s : State} (hop : Nat) (p : Parcel) (h : Keeps L s₀ s)
    (hl : 937864 ||| L = L) : Keeps L s₀ (State.parcelArrives s hop p) := by
  unfold State.parcelArrives
  repeat' first
    | with_reducible exact h
    | exact sub_trans rfl hl
    | with_reducible assumption
    | with_reducible refine keeps_emit _ _ _ _ ?_ ?_
    | simp only [keeps_fab_iff (sub_trans rfl hl)]
    | with_reducible refine keeps_foldl _ _ (fun _ _ hx => ?_) ?_
    | with_reducible refine keeps_ite ?_ ?_

theorem keeps_quayRead {L : Nat} {s₀ s : State} (q : Nat) (u : Nat) (a3 : Nat) (ofs : Nat) (len : Nat) (h : Keeps L s₀ s)
    (hl : 150408 ||| L = L) : Keeps L s₀ (State.quayRead s q u a3 ofs len) := by
  unfold State.quayRead
  repeat' first
    | with_reducible exact h
    | exact sub_trans rfl hl
    | with_reducible assumption
    | with_reducible refine keeps_berthFault _ _ _ ?_ ?_
    | simp only [keeps_fab_iff (sub_trans rfl hl)]
    | with_reducible refine keeps_foldl _ _ (fun _ _ hx => ?_) ?_
    | with_reducible refine keeps_ite ?_ ?_

theorem keeps_readErrors {L : Nat} {s₀ a2 : State} (a : Nat) (a1 : List Nat) (h : Keeps L s₀ a2)
    (hl : 148360 ||| L = L) : Keeps L s₀ (State.readErrors a a1 a2) := by
  fun_induction State.readErrors a a1 a2
  all_goals repeat' first
      | with_reducible exact h
      | exact sub_trans rfl hl
      | with_reducible assumption
      | with_reducible refine keeps_memUncorr _ ?_ ?_
      | simp only [keeps_regs_iff (sub_trans rfl hl), keeps_evSet_iff (sub_trans rfl hl), keeps_evAdd_iff (sub_trans rfl hl), keeps_evPosted_iff (sub_trans rfl hl), keeps_pilots_iff (sub_trans rfl hl), keeps_log_iff (sub_trans rfl hl)]
      | with_reducible refine keeps_foldl _ _ (fun _ _ hx => ?_) ?_
      | with_reducible apply_assumption

theorem keeps_quayData {L : Nat} {s₀ s : State} (q : Nat) (bad : List Nat) (h : Keeps L s₀ s)
    (hl : 150408 ||| L = L) : Keeps L s₀ (State.quayData s q bad) := by
  unfold State.quayData
  repeat' first
    | with_reducible exact h
    | exact sub_trans rfl hl
    | with_reducible assumption
    | with_reducible refine keeps_readErrors _ _ ?_ ?_
    | simp only [keeps_fab_iff (sub_trans rfl hl)]
    | with_reducible refine keeps_foldl _ _ (fun _ _ hx => ?_) ?_
    | with_reducible refine keeps_ite ?_ ?_
    | split

theorem keeps_claimTimeout {L : Nat} {s₀ s : State} (m : Nat) (h : Keeps L s₀ s)
    (hl : 4096 ||| L = L) : Keeps L s₀ (State.claimTimeout s m) := by
  unfold State.claimTimeout
  repeat' first
    | with_reducible exact h
    | exact sub_trans rfl hl
    | with_reducible assumption
    | with_reducible refine keeps_ownResult _ _ ?_ ?_
    | dsimp only
    | with_reducible refine keeps_foldl _ _ (fun _ _ hx => ?_) ?_
    | with_reducible refine keeps_ite ?_ ?_
    | refine keeps_sys (sys_ok_waits_filter _) ?_ ?_

theorem keeps_leaseExpiry {L : Nat} {s₀ s : State}  (h : Keeps L s₀ s)
    (hl : 154504 ||| L = L) : Keeps L s₀ (State.leaseExpiry s) := by
  unfold State.leaseExpiry
  repeat' first
    | with_reducible exact h
    | exact sub_trans rfl hl
    | with_reducible assumption
    | with_reducible refine keeps_lapse ?_ ?_
    | simp only [keeps_regs_iff (sub_trans rfl hl), keeps_evSet_iff (sub_trans rfl hl), keeps_evAdd_iff (sub_trans rfl hl), keeps_evPosted_iff (sub_trans rfl hl), keeps_fab_iff (sub_trans rfl hl), keeps_pilots_iff (sub_trans rfl hl), keeps_log_iff (sub_trans rfl hl)]
    | with_reducible refine keeps_foldl _ _ (fun _ _ hx => ?_) ?_
    | with_reducible refine keeps_ite ?_ ?_

theorem keeps_replayWrite {L : Nat} {s₀ s : State}  (h : Keeps L s₀ s)
    (hl : 274877906940 ||| L = L) : Keeps L s₀ (State.replayWrite s) := by
  unfold State.replayWrite
  repeat' first
    | with_reducible exact h
    | exact sub_trans rfl hl
    | with_reducible assumption
    | with_reducible refine keeps_controlRead _ _ _ ?_ ?_
    | (with_reducible refine keeps_controlRead' (by assumption) ?_ ?_)
    | with_reducible refine keeps_controlWrite _ _ _ _ _ ?_ ?_
    | simp only [keeps_log_iff (sub_trans rfl hl)]
    | with_reducible refine keeps_foldl _ _ (fun _ _ hx => ?_) ?_
    | with_reducible refine keeps_ite ?_ ?_
    | split

theorem keeps_readWords {L : Nat} {s₀ : State} (m : Nat) : ∀ (n a : Nat) {s : State} (_ : Keeps L s₀ s)
    (_ : 148396 ||| L = L), Keeps L s₀ (State.readWords m n a s).1
  | 0, _, _, h, _ => h
  | n + 1, a, s, h, hl => by
    rw [State.readWords]
    split
    rename_i s1 v e1
    have h2 := keeps_readWords m n (a + 4) (keeps_controlRead' e1 h hl) hl
    split
    rename_i s2 l e2
    rw [e2] at h2
    exact h2

theorem keeps_readWords' {L : Nat} {s₀ s' : State} {m : Nat} {a1 : Nat} {a2 : Nat} {a3 : State} {res} (he : State.readWords m a1 a2 a3 = (s', res)) (h : Keeps L s₀ a3)
    (hl : 148396 ||| L = L) : Keeps L s₀ s' := by
  have := keeps_readWords m a1 a2 h hl
  rwa [he] at this

theorem keeps_hcpReadMsg {L : Nat} {s₀ s : State} (i : Nat) (b : List Byte) (h : Keeps L s₀ s)
    (hl : 148396 ||| L = L) : Keeps L s₀ (State.hcpReadMsg s i b).1 := by
  unfold State.hcpReadMsg
  repeat' first
    | with_reducible exact h
    | exact sub_trans rfl hl
    | with_reducible assumption
    | with_reducible refine keeps_readWords _ _ _ ?_ ?_
    | (with_reducible refine keeps_readWords' (by assumption) ?_ ?_)
    | simp only [keeps_fresh_iff (sub_trans rfl hl)]
    | with_reducible refine keeps_foldl _ _ (fun _ _ hx => ?_) ?_
    | with_reducible refine keeps_ite_fst ?_ ?_

theorem keeps_hcpReadMsg' {L : Nat} {s₀ s' : State} {s : State} {i : Nat} {b : List Byte} {res} (he : State.hcpReadMsg s i b = (s', res)) (h : Keeps L s₀ s)
    (hl : 148396 ||| L = L) : Keeps L s₀ s' := by
  have := keeps_hcpReadMsg i b h hl
  rwa [he] at this

theorem keeps_writeWords {L : Nat} {s₀ : State} (m : Nat) : ∀ (n a : Nat) (b : List Byte) {s : State} (_ : Keeps L s₀ s)
    (_ : 274877906940 ||| L = L), Keeps L s₀ (State.writeWords m n a b s).1
  | 0, _, _, _, h, _ => h
  | n + 1, a, b, s, h, hl => by
    rw [State.writeWords]
    have h2 := keeps_writeWords m n (a + 4) (b.drop 4) (keeps_wordWrite m a (hdrAt b 0 4) h hl) hl
    split
    rename_i s2 l e2
    rw [e2] at h2
    exact h2

theorem keeps_writeWords' {L : Nat} {s₀ s' : State} {m : Nat} {a1 : Nat} {a2 : Nat} {a3 : List Byte} {a4 : State} {res} (he : State.writeWords m a1 a2 a3 a4 = (s', res)) (h : Keeps L s₀ a4)
    (hl : 274877906940 ||| L = L) : Keeps L s₀ s' := by
  have := keeps_writeWords m a1 a2 a3 h hl
  rwa [he] at this

theorem keeps_hcpWriteMsg {L : Nat} {s₀ s : State} (i : Nat) (b : List Byte) (h : Keeps L s₀ s)
    (hl : 274877906940 ||| L = L) : Keeps L s₀ (State.hcpWriteMsg s i b).1 := by
  unfold State.hcpWriteMsg
  repeat' first
    | with_reducible exact h
    | exact sub_trans rfl hl
    | with_reducible assumption
    | with_reducible refine keeps_writeWords _ _ _ _ ?_ ?_
    | (with_reducible refine keeps_writeWords' (by assumption) ?_ ?_)
    | simp only [keeps_fresh_iff (sub_trans rfl hl)]
    | with_reducible refine keeps_foldl _ _ (fun _ _ hx => ?_) ?_
    | with_reducible refine keeps_ite_fst ?_ ?_

theorem keeps_hcpWriteMsg' {L : Nat} {s₀ s' : State} {s : State} {i : Nat} {b : List Byte} {res} (he : State.hcpWriteMsg s i b = (s', res)) (h : Keeps L s₀ s)
    (hl : 274877906940 ||| L = L) : Keeps L s₀ s' := by
  have := keeps_hcpWriteMsg i b h hl
  rwa [he] at this

theorem keeps_hcpOwnMsg {L : Nat} {s₀ s : State} (i : Nat) (b : List Byte) (h : Keeps L s₀ s)
    (hl : 154504 ||| L = L) : Keeps L s₀ (State.hcpOwnMsg s i b).1 := by
  unfold State.hcpOwnMsg
  repeat' first
    | with_reducible exact h
    | exact sub_trans rfl hl
    | with_reducible assumption
    | with_reducible refine keeps_ownReq _ _ ?_ ?_

theorem keeps_hcpOwnMsg' {L : Nat} {s₀ s' : State} {s : State} {i : Nat} {b : List Byte} {res} (he : State.hcpOwnMsg s i b = (s', res)) (h : Keeps L s₀ s)
    (hl : 154504 ||| L = L) : Keeps L s₀ s' := by
  have := keeps_hcpOwnMsg i b h hl
  rwa [he] at this

theorem keeps_hcpHeartbeatMsg {L : Nat} {s₀ s : State} (i : Nat) (h : Keeps L s₀ s)
    (hl : 4096 ||| L = L) : Keeps L s₀ (State.hcpHeartbeatMsg s i).1 := by
  unfold State.hcpHeartbeatMsg
  repeat' first
    | with_reducible exact h
    | exact sub_trans rfl hl
    | with_reducible assumption
    | with_reducible refine keeps_heartbeat _ ?_ ?_

theorem keeps_hcpHeartbeatMsg' {L : Nat} {s₀ s' : State} {s : State} {i : Nat} {res} (he : State.hcpHeartbeatMsg s i = (s', res)) (h : Keeps L s₀ s)
    (hl : 4096 ||| L = L) : Keeps L s₀ s' := by
  have := keeps_hcpHeartbeatMsg i h hl
  rwa [he] at this

theorem keeps_txnReply {L : Nat} {s₀ s : State} (r : Nat) (ticket : Option Nat) (target : Option Nat) (h : Keeps L s₀ s)
    (hl : 4 ||| L = L) : Keeps L s₀ (State.txnReply s r ticket target).1 := by
  unfold State.txnReply
  repeat' first
    | with_reducible exact h
    | exact sub_trans rfl hl
    | with_reducible assumption
    | with_reducible refine keeps_nextFree ?_ ?_

theorem keeps_txnReply' {L : Nat} {s₀ s' : State} {s : State} {r : Nat} {ticket : Option Nat} {target : Option Nat} {res} (he : State.txnReply s r ticket target = (s', res)) (h : Keeps L s₀ s)
    (hl : 4 ||| L = L) : Keeps L s₀ s' := by
  have := keeps_txnReply r ticket target h hl
  rwa [he] at this

theorem keeps_hcpTxnMsg {L : Nat} {s₀ s : State} (i : Nat) (b : List Byte) (h : Keeps L s₀ s)
    (hl : 152460 ||| L = L) : Keeps L s₀ (State.hcpTxnMsg s i b).1 := by
  unfold State.hcpTxnMsg
  refine keeps_ite_fst ?_ (keeps_ite_fst ?_ (keeps_ite_fst ?_ (keeps_ite_fst ?_ (keeps_ite_fst ?_ ?_)))) <;>
    refine keeps_txnReply _ _ _ ?_ (sub_trans rfl hl)
  · exact keeps_reject _ _ _ h (sub_trans rfl hl)
  · exact keeps_txnShow _ (keeps_txnBegin _ h (sub_trans rfl hl)) (sub_trans rfl hl)
  · exact keeps_txnShow _ (keeps_commit _ _ _ _ h (sub_trans rfl hl)) (sub_trans rfl hl)
  · exact keeps_txnShow _ (keeps_txnRollback _ h (sub_trans rfl hl)) (sub_trans rfl hl)
  · exact keeps_txnShow _ (keeps_withdraw _ _ h (sub_trans rfl hl)) (sub_trans rfl hl)
  · exact keeps_txnShow _ h (sub_trans rfl hl)

theorem keeps_hcpTxnMsg' {L : Nat} {s₀ s' : State} {s : State} {i : Nat} {b : List Byte} {res} (he : State.hcpTxnMsg s i b = (s', res)) (h : Keeps L s₀ s)
    (hl : 152460 ||| L = L) : Keeps L s₀ s' := by
  have := keeps_hcpTxnMsg i b h hl
  rwa [he] at this

theorem keeps_hcpListMsg {L : Nat} {s₀ s : State} (i : Nat) (b : List Byte) (h : Keeps L s₀ s)
    (hl : 152460 ||| L = L) : Keeps L s₀ (State.hcpListMsg s i b).1 := by
  unfold State.hcpListMsg
  split
  · exact h
  · refine keeps_ite_fst ?_ ?_ <;> refine keeps_txnReply _ _ _ ?_ (sub_trans rfl hl)
    · exact keeps_reject _ _ _ h (sub_trans rfl hl)
    · exact keeps_txnShow _ (keeps_withdraw _ _ h (sub_trans rfl hl)) (sub_trans rfl hl)

theorem keeps_hcpListMsg' {L : Nat} {s₀ s' : State} {s : State} {i : Nat} {b : List Byte} {res} (he : State.hcpListMsg s i b = (s', res)) (h : Keeps L s₀ s)
    (hl : 152460 ||| L = L) : Keeps L s₀ s' := by
  have := keeps_hcpListMsg i b h hl
  rwa [he] at this

theorem keeps_hcpCloseMsg {L : Nat} {s₀ s : State} (i : Nat) (h : Keeps L s₀ s)
    (hl : 8590089096 ||| L = L) : Keeps L s₀ (State.hcpCloseMsg s i).1 := by
  unfold State.hcpCloseMsg
  repeat' first
    | with_reducible exact h
    | exact sub_trans rfl hl
    | with_reducible assumption
    | with_reducible refine keeps_closeSession _ ?_ ?_

theorem keeps_hcpCloseMsg' {L : Nat} {s₀ s' : State} {s : State} {i : Nat} {res} (he : State.hcpCloseMsg s i = (s', res)) (h : Keeps L s₀ s)
    (hl : 8590089096 ||| L = L) : Keeps L s₀ s' := by
  have := keeps_hcpCloseMsg i h hl
  rwa [he] at this

theorem keeps_hcpPilotMsg {L : Nat} {s₀ s : State} (i : Nat) (type : Nat) (b : List Byte) (h : Keeps L s₀ s)
    (hl : 16648 ||| L = L) : Keeps L s₀ (State.hcpPilotMsg s i type b).1 := by
  unfold State.hcpPilotMsg
  repeat' first
    | with_reducible exact h
    | exact sub_trans rfl hl
    | with_reducible assumption
    | with_reducible refine keeps_post _ _ _ _ ?_ ?_

theorem keeps_hcpPilotMsg' {L : Nat} {s₀ s' : State} {s : State} {i : Nat} {type : Nat} {b : List Byte} {res} (he : State.hcpPilotMsg s i type b = (s', res)) (h : Keeps L s₀ s)
    (hl : 16648 ||| L = L) : Keeps L s₀ s' := by
  have := keeps_hcpPilotMsg i type b h hl
  rwa [he] at this

theorem keeps_sessionGo {L : Nat} {s₀ s : State} (q i seq : Nat) (plain : List Byte) (run : State.HcpRun) (hrun : ∀ x i b, Keeps L s₀ x → Keeps L s₀ (run x i b).1)
    (h : Keeps L s₀ s) (hl : 8589934860 ||| L = L) : Keeps L s₀ (State.sessionMsg.go q i seq plain run s) := by
  unfold State.sessionMsg.go
  extract_lets r s1 o y s2
  have h1 : Keeps L s₀ s1 := hrun _ _ _ h
  clear_value s1 o
  have h2 : Keeps L s₀ s2 := keeps_ite h1 (keeps_setHcpSess _ _ h1 (sub_trans rfl hl))
  clear_value s2
  split
  · exact keeps_hcpSend _ (keeps_nextFree h2 (sub_trans rfl hl)) (sub_trans rfl hl)
  · exact h2

theorem keeps_sessionMsg {L : Nat} {s₀ s : State} (q i seq : Nat) (plain : List Byte) (run : State.HcpRun) (hrun : ∀ x i b, Keeps L s₀ x → Keeps L s₀ (run x i b).1)
    (h : Keeps L s₀ s) (hl : 8589934860 ||| L = L) : Keeps L s₀ (State.sessionMsg s q i seq plain run) := by
  unfold State.sessionMsg
  extract_lets y s1 s2 x
  have h1 : Keeps L s₀ s1 := keeps_setHcpSess _ _ h (sub_trans rfl hl)
  have h2 : Keeps L s₀ s2 := keeps_ite (keeps_showSess _ _ h1 (sub_trans rfl hl)) h1
  clear_value s2 x
  have hc : Keeps L s₀ (s2.count Reg.NET_HCP_CNT_DUP) := keeps_count _ _ h2 (sub_trans rfl hl)
  split
  · refine keeps_ite hc (keeps_ite ?_ (keeps_sessionGo _ _ _ _ _ hrun h2 hl))
    split
    · exact keeps_hcpSend _ hc (sub_trans rfl hl)
    · exact hc
  · exact keeps_sessionGo _ _ _ _ _ hrun h2 hl

theorem keeps_replyLater {L : Nat} {s₀ s : State} (o : HcpOut) (h : Keeps L s₀ s)
    (hl : 8589934592 ||| L = L) : Keeps L s₀ (State.replyLater s o) := by
  unfold State.replyLater
  repeat' first
    | with_reducible exact h
    | exact sub_trans rfl hl
    | with_reducible assumption
    | simp only [keeps_hcp_iff (sub_trans rfl hl)]

theorem keeps_arrayGo {L : Nat} {s₀ s : State} (q i seq : Nat) (plain : List Byte) (run : State.HcpRun) (hrun : ∀ x i b, Keeps L s₀ x → Keeps L s₀ (run x i b).1)
    (h : Keeps L s₀ s) (hl : 8589934860 ||| L = L) : Keeps L s₀ (State.arrayMsg.go q i seq plain run s) := by
  unfold State.arrayMsg.go
  extract_lets y s1 r s2 o hh s3
  have h2 : Keeps L s₀ s2 := hrun _ _ _ (keeps_setHcpSess _ _ h (sub_trans rfl hl))
  clear_value s2 o
  have h3 : Keeps L s₀ s3 := keeps_hcp h2 (sub_trans rfl hl)
  clear_value s3
  split
  · exact keeps_replyLater _ (keeps_nextFree h3 (sub_trans rfl hl)) (sub_trans rfl hl)
  · exact h3

theorem keeps_arrayMsg {L : Nat} {s₀ s : State} (q i seq : Nat) (plain : List Byte) (run : State.HcpRun) (hrun : ∀ x i b, Keeps L s₀ x → Keeps L s₀ (run x i b).1)
    (h : Keeps L s₀ s) (hl : 8589934860 ||| L = L) : Keeps L s₀ (State.arrayMsg s q i seq plain run) := by
  unfold State.arrayMsg
  have hc : Keeps L s₀ (s.count Reg.NET_HCP_CNT_DUP) := keeps_count _ _ h (sub_trans rfl hl)
  split
  · refine keeps_ite hc (keeps_ite ?_ (keeps_arrayGo _ _ _ _ _ hrun h hl))
    extract_lets s1
    split
    · exact keeps_replyLater _ hc (sub_trans rfl hl)
    · exact hc
  · exact keeps_arrayGo _ _ _ _ _ hrun h hl

theorem keeps_hcpMsg {L : Nat} {s₀ s : State} (q type : Nat) (msg : HcpMsg) (run : State.HcpRun) (hrun : ∀ x i b, Keeps L s₀ x → Keeps L s₀ (run x i b).1)
    (h : Keeps L s₀ s) (hl : 8589934860 ||| L = L) : Keeps L s₀ (State.hcpMsg s q type msg run) := by
  have hc : Keeps L s₀ (s.count Reg.NET_HCP_CNT_AUTH) := keeps_count _ _ h (sub_trans rfl hl)
  unfold State.hcpMsg
  split
  · exact h
  split
  · refine keeps_ite h ?_
    split
    · exact hc
    · exact keeps_ite hc (keeps_ite h (keeps_arrayMsg _ _ _ _ _ hrun h hl))
  · exact keeps_ite hc (keeps_sessionMsg _ _ _ _ _ hrun h hl)

theorem keeps_arrayReply {L : Nat} {s₀ s : State}  (h : Keeps L s₀ s)
    (hl : 8589934592 ||| L = L) : Keeps L s₀ (State.arrayReply s) := by
  unfold State.arrayReply
  repeat' first
    | with_reducible exact h
    | exact sub_trans rfl hl
    | with_reducible assumption
    | with_reducible refine keeps_hcpSend _ ?_ ?_
    | simp only [keeps_hcp_iff (sub_trans rfl hl)]
    | with_reducible refine keeps_foldl _ _ (fun _ _ hx => ?_) ?_
    | with_reducible refine keeps_ite ?_ ?_
    | split

theorem keeps_ctWrite {L : Nat} {s₀ s : State} (b : Nat) (cmd : Nat) (addr : Nat) (v : Nat) (crc : Nat) (h : Keeps L s₀ s)
    (hl : 274877906940 ||| L = L) : Keeps L s₀ (State.ctWrite s b cmd addr v crc) := by
  unfold State.ctWrite
  repeat' first
    | with_reducible exact h
    | exact sub_trans rfl hl
    | with_reducible assumption
    | with_reducible refine keeps_count _ _ ?_ ?_
    | with_reducible refine keeps_twbRaise _ _ ?_ ?_
    | with_reducible refine keeps_wordWrite _ _ _ ?_ ?_
    | simp only [keeps_fresh_iff (sub_trans rfl hl), keeps_regs_iff (sub_trans rfl hl), keeps_held_iff (sub_trans rfl hl), keeps_latched_iff (sub_trans rfl hl), keeps_rsp_iff (sub_trans rfl hl), keeps_evSet_iff (sub_trans rfl hl), keeps_evAdd_iff (sub_trans rfl hl), keeps_evPosted_iff (sub_trans rfl hl), keeps_fab_iff (sub_trans rfl hl), keeps_time_iff (sub_trans rfl hl), keeps_pilots_iff (sub_trans rfl hl), keeps_shared_iff (sub_trans rfl hl), keeps_published_iff (sub_trans rfl hl), keeps_log_iff (sub_trans rfl hl), keeps_queues_iff (sub_trans rfl hl), keeps_leaves_iff (sub_trans rfl hl), keeps_cal_iff (sub_trans rfl hl), keeps_lanes_iff (sub_trans rfl hl), keeps_ports_iff (sub_trans rfl hl), keeps_pipes_iff (sub_trans rfl hl), keeps_encPics_iff (sub_trans rfl hl), keeps_encStreams_iff (sub_trans rfl hl), keeps_decs_iff (sub_trans rfl hl), keeps_lze_iff (sub_trans rfl hl), keeps_memsys_iff (sub_trans rfl hl), keeps_scn_iff (sub_trans rfl hl), keeps_pcx_iff (sub_trans rfl hl), keeps_sec_iff (sub_trans rfl hl), keeps_nets_iff (sub_trans rfl hl), keeps_hcp_iff (sub_trans rfl hl), keeps_aud_iff (sub_trans rfl hl), keeps_twbs_iff (sub_trans rfl hl), keeps_gpio_iff (sub_trans rfl hl), keeps_pwr_iff (sub_trans rfl hl)]
    | with_reducible refine keeps_foldl _ _ (fun _ _ hx => ?_) ?_
    | with_reducible refine keeps_ite ?_ ?_

theorem keeps_ctRead {L : Nat} {s₀ s : State} (b : Nat) (cmd : Nat) (addr : Nat) (crc : Nat) (n : Nat) (h : Keeps L s₀ s)
    (hl : 34359886764 ||| L = L) : Keeps L s₀ (State.ctRead s b cmd addr crc n) := by
  unfold State.ctRead
  repeat' first
    | with_reducible exact h
    | exact sub_trans rfl hl
    | with_reducible assumption
    | with_reducible refine keeps_controlRead _ _ _ ?_ ?_
    | (with_reducible refine keeps_controlRead' (by assumption) ?_ ?_)
    | with_reducible refine keeps_setTwb _ _ ?_ ?_
    | dsimp only
    | with_reducible refine keeps_foldl _ _ (fun _ _ hx => ?_) ?_
    | with_reducible refine keeps_ite ?_ ?_

theorem keeps_hostAccess {L : Nat} {s₀ s : State} (p : Nat) (a : HostAccess) (h : Keeps L s₀ s)
    (hl : 274877906940 ||| L = L) : Keeps L s₀ (State.hostAccess s p a) := by
  unfold State.hostAccess
  repeat' first
    | with_reducible exact h
    | exact sub_trans rfl hl
    | with_reducible assumption
    | with_reducible refine keeps_controlRead _ _ _ ?_ ?_
    | (with_reducible refine keeps_controlRead' (by assumption) ?_ ?_)
    | with_reducible refine keeps_controlWrite _ _ _ _ _ ?_ ?_
    | with_reducible refine keeps_hostBar2 _ _ ?_ ?_
    | simp only [keeps_fresh_iff (sub_trans rfl hl), keeps_rsp_iff (sub_trans rfl hl)]
    | with_reducible refine keeps_foldl _ _ (fun _ _ hx => ?_) ?_
    | with_reducible refine keeps_ite ?_ ?_
    | split

theorem keeps_debugAccess {L : Nat} {s₀ s : State} (dr : Nat) (h : Keeps L s₀ s)
    (hl : 549755813884 ||| L = L) : Keeps L s₀ (State.debugAccess s dr) := by
  unfold State.debugAccess
  repeat' first
    | with_reducible exact h
    | exact sub_trans rfl hl
    | with_reducible assumption
    | with_reducible refine keeps_controlRead _ _ _ ?_ ?_
    | (with_reducible refine keeps_controlRead' (by assumption) ?_ ?_)
    | with_reducible refine keeps_wordWrite _ _ _ ?_ ?_
    | simp only [keeps_fresh_iff (sub_trans rfl hl), keeps_jtag_iff (sub_trans rfl hl)]
    | with_reducible refine keeps_foldl _ _ (fun _ _ hx => ?_) ?_
    | with_reducible refine keeps_ite ?_ ?_

theorem keeps_fclk {L : Nat} {s₀ s : State}  (h : Keeps L s₀ s)
    (hl : 154887414670 ||| L = L) : Keeps L s₀ (State.fclk s) := by
  unfold State.fclk
  repeat' first
    | with_reducible exact h
    | exact sub_trans rfl hl
    | with_reducible assumption
    | with_reducible refine keeps_scgSlew _ ?_ ?_
    | with_reducible refine keeps_idleScan ?_ ?_
    | with_reducible refine keeps_memTick ?_ ?_
    | with_reducible refine keeps_tick ?_ ?_
    | simp only [keeps_now_iff (sub_trans rfl hl), keeps_fresh_iff (sub_trans rfl hl), keeps_regs_iff (sub_trans rfl hl), keeps_evSet_iff (sub_trans rfl hl), keeps_evAdd_iff (sub_trans rfl hl), keeps_evPosted_iff (sub_trans rfl hl), keeps_time_iff (sub_trans rfl hl), keeps_pilots_iff (sub_trans rfl hl), keeps_log_iff (sub_trans rfl hl), keeps_memsys_iff (sub_trans rfl hl), keeps_aud_iff (sub_trans rfl hl), keeps_pwr_iff (sub_trans rfl hl)]
    | with_reducible refine keeps_foldl _ _ (fun _ _ hx => ?_) ?_
    | with_reducible refine keeps_ite ?_ ?_

theorem keeps_tideClock {L : Nat} {s₀ s : State}  (h : Keeps L s₀ s)
    (hl : 25484 ||| L = L) : Keeps L s₀ (State.tideClock s) := by
  unfold State.tideClock
  repeat' first
    | with_reducible exact h
    | exact sub_trans rfl hl
    | with_reducible assumption
    | with_reducible refine keeps_moveClk _ ?_ ?_
    | simp only [keeps_fresh_iff (sub_trans rfl hl), keeps_regs_iff (sub_trans rfl hl), keeps_evSet_iff (sub_trans rfl hl), keeps_evAdd_iff (sub_trans rfl hl), keeps_evPosted_iff (sub_trans rfl hl), keeps_time_iff (sub_trans rfl hl), keeps_pilots_iff (sub_trans rfl hl)]
    | with_reducible refine keeps_foldl _ _ (fun _ _ hx => ?_) ?_
    | with_reducible refine keeps_ite ?_ ?_

theorem keeps_openTide {L : Nat} {s₀ s : State} (n : Nat) (cyc : Nat) (next : Option Nat) (h : Keeps L s₀ s)
    (hl : 8200 ||| L = L) : Keeps L s₀ (State.openTide s n cyc next) := by
  unfold State.openTide
  repeat' first
    | with_reducible exact h
    | exact sub_trans rfl hl
    | with_reducible assumption
    | with_reducible refine keeps_setFld2 _ _ _ ?_ ?_
    | simp only [keeps_time_iff (sub_trans rfl hl)]

theorem keeps_afterLandings {L : Nat} {s₀ s : State} (old : State) (n : Nat) (h : Keeps L s₀ s)
    (hl : 2688548864 ||| L = L) : Keeps L s₀ (State.afterLandings old n s) := by
  unfold State.afterLandings
  repeat' first
    | with_reducible exact h
    | exact sub_trans rfl hl
    | with_reducible assumption
    | with_reducible refine keeps_syncTides _ _ ?_ ?_
    | with_reducible refine keeps_headStarts _ _ _ ?_ ?_
    | with_reducible refine keeps_noteDomains _ ?_ ?_

theorem keeps_liveTide {L : Nat} {s₀ s : State} (eyes : List LaneTide) (n : Nat) (h : Keeps L s₀ s)
    (hl : 19906068364 ||| L = L) : Keeps L s₀ (State.liveTide eyes n s) := by
  unfold State.liveTide
  repeat' first
    | with_reducible exact h
    | exact sub_trans rfl hl
    | with_reducible assumption
    | with_reducible refine keeps_openTide _ _ _ ?_ ?_
    | with_reducible refine keeps_landTide _ ?_ ?_
    | with_reducible refine keeps_tideSwitch _ ?_ ?_
    | with_reducible refine keeps_afterLandings _ _ ?_ ?_
    | with_reducible refine keeps_laneTides _ ?_ ?_
    | with_reducible refine keeps_tideClock ?_ ?_
    | with_reducible refine keeps_calTide _ ?_ ?_
    | with_reducible refine keeps_logTide _ ?_ ?_

theorem keeps_replayTide {L : Nat} {s₀ s : State} (r : LogRec) (h : Keeps L s₀ s)
    (hl : 19902922636 ||| L = L) : Keeps L s₀ (State.replayTide r s) := by
  unfold State.replayTide
  repeat' first
    | with_reducible exact h
    | exact sub_trans rfl hl
    | with_reducible assumption
    | with_reducible refine keeps_replayTime _ ?_ ?_
    | with_reducible refine keeps_openTide _ _ _ ?_ ?_
    | with_reducible refine keeps_landTide _ ?_ ?_
    | with_reducible refine keeps_afterLandings _ _ ?_ ?_
    | with_reducible refine keeps_logTide _ ?_ ?_

theorem keeps_tideFire {L : Nat} {s₀ s : State} (eyes : List LaneTide) (h : Keeps L s₀ s)
    (hl : 19906068364 ||| L = L) : Keeps L s₀ (State.tideFire eyes s) := by
  unfold State.tideFire
  repeat' first
    | with_reducible exact h
    | exact sub_trans rfl hl
    | with_reducible assumption
    | with_reducible refine keeps_liveTide _ _ ?_ ?_
    | with_reducible refine keeps_replayEnd ?_ ?_
    | with_reducible refine keeps_replayTide _ ?_ ?_
    | simp only [keeps_fresh_iff (sub_trans rfl hl), keeps_regs_iff (sub_trans rfl hl), keeps_evSet_iff (sub_trans rfl hl), keeps_evAdd_iff (sub_trans rfl hl), keeps_evPosted_iff (sub_trans rfl hl), keeps_fab_iff (sub_trans rfl hl), keeps_time_iff (sub_trans rfl hl), keeps_pilots_iff (sub_trans rfl hl), keeps_log_iff (sub_trans rfl hl), keeps_queues_iff (sub_trans rfl hl), keeps_leaves_iff (sub_trans rfl hl), keeps_cal_iff (sub_trans rfl hl), keeps_lanes_iff (sub_trans rfl hl), keeps_ports_iff (sub_trans rfl hl), keeps_encStreams_iff (sub_trans rfl hl), keeps_scn_iff (sub_trans rfl hl), keeps_sec_iff (sub_trans rfl hl), keeps_aud_iff (sub_trans rfl hl)]
    | with_reducible refine keeps_foldl _ _ (fun _ _ hx => ?_) ?_
    | with_reducible refine keeps_ite ?_ ?_
    | split

theorem keeps_unitTide {L : Nat} {s₀ s : State} (u : Nat) (k : Nat) (h : Keeps L s₀ s)
    (hl : 6569222028 ||| L = L) : Keeps L s₀ (State.unitTide s u k) := by
  unfold State.unitTide
  repeat' first
    | with_reducible exact h
    | exact sub_trans rfl hl
    | with_reducible assumption
    | with_reducible refine keeps_netReplay _ _ _ ?_ ?_
    | with_reducible refine keeps_decTide _ _ ?_ ?_
    | with_reducible refine keeps_encStart _ ?_ ?_
    | with_reducible refine keeps_scnTide ?_ ?_
    | with_reducible refine keeps_feederTide _ _ ?_ ?_
    | with_reducible refine keeps_netTide _ ?_ ?_
    | with_reducible refine keeps_pipeTide _ _ ?_ ?_
    | with_reducible refine keeps_logPump ?_ ?_
    | with_reducible refine keeps_secTide _ ?_ ?_
    | dsimp only
    | with_reducible refine keeps_foldl _ _ (fun _ _ hx => ?_) ?_
    | with_reducible refine keeps_ite ?_ ?_

theorem keeps_unitTideStart {L : Nat} {s₀ s : State} (u : Nat) (h : Keeps L s₀ s)
    (hl : 6569222028 ||| L = L) : Keeps L s₀ (State.unitTideStart s u) := by
  unfold State.unitTideStart
  repeat' first
    | with_reducible exact h
    | exact sub_trans rfl hl
    | with_reducible assumption
    | with_reducible refine keeps_unitTide _ _ ?_ ?_
    | simp only [keeps_fab_iff (sub_trans rfl hl)]
    | with_reducible refine keeps_foldl _ _ (fun _ _ hx => ?_) ?_
    | with_reducible refine keeps_ite ?_ ?_

theorem keeps_overrunPolicy {L : Nat} {s₀ s : State} (u : Nat) (t : Nat) (h : Keeps L s₀ s)
    (hl : 92291980 ||| L = L) : Keeps L s₀ (State.overrunPolicy s u t) := by
  unfold State.overrunPolicy
  repeat' first
    | with_reducible exact h
    | exact sub_trans rfl hl
    | with_reducible assumption
    | with_reducible refine keeps_setPipe _ _ ?_ ?_
    | with_reducible refine keeps_encOverrun _ _ ?_ ?_
    | with_reducible refine keeps_decOverrun _ ?_ ?_
    | dsimp only
    | with_reducible refine keeps_foldl _ _ (fun _ _ hx => ?_) ?_
    | with_reducible refine keeps_ite ?_ ?_

theorem keeps_unitOverrun {L : Nat} {s₀ s : State} (u : Nat) (h : Keeps L s₀ s)
    (hl : 4387261324 ||| L = L) : Keeps L s₀ (State.unitOverrun s u) := by
  unfold State.unitOverrun
  repeat' first
    | with_reducible exact h
    | exact sub_trans rfl hl
    | with_reducible assumption
    | with_reducible refine keeps_overrunPolicy _ _ ?_ ?_
    | with_reducible refine keeps_netOverrun _ ?_ ?_
    | with_reducible refine keeps_declareOverrun _ _ ?_ ?_
    | simp only [keeps_fresh_iff (sub_trans rfl hl), keeps_regs_iff (sub_trans rfl hl), keeps_evSet_iff (sub_trans rfl hl), keeps_evAdd_iff (sub_trans rfl hl), keeps_evPosted_iff (sub_trans rfl hl), keeps_fab_iff (sub_trans rfl hl), keeps_pilots_iff (sub_trans rfl hl), keeps_pipes_iff (sub_trans rfl hl), keeps_encPics_iff (sub_trans rfl hl), keeps_decs_iff (sub_trans rfl hl), keeps_nets_iff (sub_trans rfl hl)]
    | with_reducible refine keeps_foldl _ _ (fun _ _ hx => ?_) ?_
    | with_reducible refine keeps_ite ?_ ?_
    | split

theorem keeps_encGiveUp {L : Nat} {s₀ s : State} (e : Nat) (t : Nat) (h : Keeps L s₀ s)
    (hl : 50744200 ||| L = L) : Keeps L s₀ (State.encGiveUp s e t) := by
  unfold State.encGiveUp
  repeat' first
    | with_reducible exact h
    | exact sub_trans rfl hl
    | with_reducible assumption
    | with_reducible refine keeps_countAbandon _ ?_ ?_
    | with_reducible refine keeps_endWork _ _ ?_ ?_
    | with_reducible refine keeps_encAbandonPics _ _ ?_ ?_
    | simp only [keeps_fab_iff (sub_trans rfl hl)]
    | with_reducible refine keeps_foldl _ _ (fun _ _ hx => ?_) ?_
    | with_reducible refine keeps_ite ?_ ?_
    | split

theorem keeps_unitAbandon {L : Nat} {s₀ s : State} (u : Nat) (h : Keeps L s₀ s)
    (hl : 4421208968 ||| L = L) : Keeps L s₀ (State.unitAbandon s u) := by
  unfold State.unitAbandon
  repeat' first
    | with_reducible exact h
    | exact sub_trans rfl hl
    | with_reducible assumption
    | with_reducible refine keeps_countAbandon _ ?_ ?_
    | with_reducible refine keeps_netAbandon _ ?_ ?_
    | with_reducible refine keeps_decAbandon _ ?_ ?_
    | with_reducible refine keeps_decRest _ ?_ ?_
    | with_reducible refine keeps_encGiveUp _ _ ?_ ?_
    | with_reducible refine keeps_endWork _ _ ?_ ?_
    | with_reducible refine keeps_pipeAbandon _ ?_ ?_
    | simp only [keeps_regs_iff (sub_trans rfl hl), keeps_evSet_iff (sub_trans rfl hl), keeps_evAdd_iff (sub_trans rfl hl), keeps_evPosted_iff (sub_trans rfl hl), keeps_fab_iff (sub_trans rfl hl), keeps_pilots_iff (sub_trans rfl hl), keeps_log_iff (sub_trans rfl hl), keeps_queues_iff (sub_trans rfl hl), keeps_pipes_iff (sub_trans rfl hl), keeps_encPics_iff (sub_trans rfl hl), keeps_encStreams_iff (sub_trans rfl hl), keeps_decs_iff (sub_trans rfl hl), keeps_nets_iff (sub_trans rfl hl)]
    | with_reducible refine keeps_foldl _ _ (fun _ _ hx => ?_) ?_
    | with_reducible refine keeps_ite ?_ ?_
    | split

theorem keeps_domainSwitchOn {L : Nat} {s₀ s : State} (u : Nat) (h : Keeps L s₀ s)
    (hl : 156496715656 ||| L = L) : Keeps L s₀ (State.domainSwitchOn s u) := by
  unfold State.domainSwitchOn
  repeat' first
    | with_reducible exact h
    | exact sub_trans rfl hl
    | with_reducible assumption
    | with_reducible refine keeps_setPwr _ ?_ ?_
    | with_reducible refine keeps_switchOn _ ?_ ?_
    | (with_reducible refine keeps_switchOn' (by assumption) ?_ ?_)
    | with_reducible refine keeps_deferredOps _ _ ?_ ?_
    | dsimp only
    | with_reducible refine keeps_foldl _ _ (fun _ _ hx => ?_) ?_
    | with_reducible refine keeps_ite ?_ ?_
    | split

theorem keeps_withFetchWord {L : Nat} {s₀ s : State} (nbits : Nat) (w : Nat) (h : Keeps L s₀ s)
    (hl : 1 ||| L = L) : Keeps L s₀ (State.withFetchWord s nbits w) := by
  unfold State.withFetchWord
  repeat' first
    | with_reducible exact h
    | exact sub_trans rfl hl
    | with_reducible assumption
    | simp only [keeps_pending_iff (sub_trans rfl hl)]
    | with_reducible refine keeps_foldl _ _ (fun _ _ hx => ?_) ?_
    | with_reducible refine keeps_ite ?_ ?_
    | split

end Sys2Proof.Machine
end

