-- ==== Sys2Proof/Laws/FrameExec.lean ====
section
/-! SUPPORT. The parts of the state each command may change, as a bit mask (Part.idx). -/

namespace Sys2Proof.Machine

open State

theorem frame_execCalTempSample (temps : List (Fin 41 × BitVec 16)) (s t : State) (h : execCalTempSample temps s = .next t) : Keeps 148360 s t := by
  unfold execCalTempSample at h
  cases h
  repeat' first
    | exact rfl
    | with_reducible exact Keeps.refl
    | with_reducible assumption
    | exact trivial
    | with_reducible refine keeps_tempSamples _ ?_ ?_
    | simp only [keeps_regs_iff (m := 148360) rfl, keeps_evSet_iff (m := 148360) rfl, keeps_evAdd_iff (m := 148360) rfl, keeps_evPosted_iff (m := 148360) rfl, keeps_pilots_iff (m := 148360) rfl, keeps_log_iff (m := 148360) rfl]
    | with_reducible refine keeps_ite ?_ ?_

theorem frame_execCalRunStart (n : Fin 41) (s t : State) (h : execCalRunStart n s = .next t) : Keeps 148360 s t := by
  unfold execCalRunStart at h
  cases h
  repeat' first
    | exact rfl
    | with_reducible exact Keeps.refl
    | with_reducible assumption
    | exact trivial
    | with_reducible refine keeps_calNote _ _ ?_ ?_
    | with_reducible refine keeps_setCalPending _ _ ?_ ?_
    | with_reducible refine keeps_setFld _ _ ?_ ?_
    | dsimp only
    | with_reducible refine keeps_ite ?_ ?_

theorem frame_execCalRunDone (n : Fin 41) (inRange : Bool) (lanes : List LaneMeas) (s t : State) (h : execCalRunDone n inRange lanes s = .next t) : Keeps 1196936 s t := by
  unfold execCalRunDone at h
  cases h
  repeat' first
    | exact rfl
    | with_reducible exact Keeps.refl
    | with_reducible assumption
    | exact trivial
    | with_reducible refine keeps_calRunDone _ _ _ ?_ ?_
    | simp only [keeps_regs_iff (m := 1196936) rfl, keeps_evSet_iff (m := 1196936) rfl, keeps_evAdd_iff (m := 1196936) rfl, keeps_evPosted_iff (m := 1196936) rfl, keeps_pilots_iff (m := 1196936) rfl, keeps_log_iff (m := 1196936) rfl, keeps_cal_iff (m := 1196936) rfl]
    | with_reducible refine keeps_ite ?_ ?_

theorem frame_execCalPpbUpdate (t0 : BitVec 16) (valid : Bool) (s t : State) (h : execCalPpbUpdate t0 valid s = .next t) : Keeps 148364 s t := by
  unfold execCalPpbUpdate at h
  cases h
  repeat' first
    | exact rfl
    | with_reducible exact Keeps.refl
    | with_reducible assumption
    | exact trivial
    | with_reducible refine keeps_calNote _ _ ?_ ?_
    | with_reducible refine keeps_showItem _ ?_ ?_
    | with_reducible refine keeps_setCalStale _ _ ?_ ?_
    | with_reducible refine keeps_setCalPending _ _ ?_ ?_
    | with_reducible refine keeps_setFld _ _ ?_ ?_
    | with_reducible refine keeps_nextFree ?_ ?_
    | dsimp only
    | with_reducible refine keeps_ite ?_ ?_

theorem frame_execFuseBurnDone (ok : Bool) (s t : State) (h : execFuseBurnDone ok s = .next t) : Keeps 1065864 s t := by
  unfold execFuseBurnDone at h
  cases h
  repeat' first
    | exact rfl
    | with_reducible exact Keeps.refl
    | with_reducible assumption
    | exact trivial
    | with_reducible refine keeps_setFld _ _ ?_ ?_
    | with_reducible refine keeps_calRaise _ ?_ ?_
    | simp only [keeps_cal_iff (m := 1065864) rfl]
    | with_reducible refine keeps_ite ?_ ?_
    | with_reducible refine keeps_ite_fst ?_ ?_
    | split

theorem frame_execEpochWrap (d : Fin 2) (s t : State) (h : execEpochWrap d s = .next t) : Keeps 25480 s t := by
  unfold execEpochWrap at h
  cases h
  repeat' first
    | exact rfl
    | with_reducible exact Keeps.refl
    | with_reducible assumption
    | exact trivial
    | with_reducible refine keeps_announceWrap _ ?_ ?_

theorem frame_execPtpMessageRx (e : Fin 2) (msg : PtpMsg) (s t : State) (h : execPtpMessageRx e msg s = .next t) : Keeps 17179894668 s t := by
  unfold execPtpMessageRx at h
  cases h
  repeat' first
    | exact rfl
    | with_reducible exact Keeps.refl
    | with_reducible assumption
    | exact trivial
    | with_reducible refine keeps_ptpReceive _ _ ?_ ?_
    | simp only [keeps_fresh_iff (m := 17179894668) rfl, keeps_regs_iff (m := 17179894668) rfl, keeps_evSet_iff (m := 17179894668) rfl, keeps_evAdd_iff (m := 17179894668) rfl, keeps_evPosted_iff (m := 17179894668) rfl, keeps_time_iff (m := 17179894668) rfl, keeps_pilots_iff (m := 17179894668) rfl, keeps_aud_iff (m := 17179894668) rfl]
    | with_reducible refine keeps_ite ?_ ?_

theorem frame_execPtpMessageTx (e : Fin 2) (kind : PtpKind) (s t : State) (h : execPtpMessageTx e kind s = .next t) : Keeps 8192 s t := by
  unfold execPtpMessageTx at h
  cases h
  repeat' first
    | exact rfl
    | with_reducible exact Keeps.refl
    | with_reducible assumption
    | exact trivial
    | with_reducible refine keeps_setDom _ _ ?_ ?_
    | dsimp only
    | with_reducible refine keeps_ite ?_ ?_
    | with_reducible refine keeps_ite_fst ?_ ?_
    | split

theorem frame_execSyncLoss (d : Fin 2) (s t : State) (h : execSyncLoss d s = .next t) : Keeps 25484 s t := by
  unfold execSyncLoss at h
  cases h
  repeat' first
    | exact rfl
    | with_reducible exact Keeps.refl
    | with_reducible assumption
    | exact trivial
    | with_reducible refine keeps_enterHoldover _ ?_ ?_
    | simp only [keeps_fresh_iff (m := 25484) rfl, keeps_regs_iff (m := 25484) rfl, keeps_evSet_iff (m := 25484) rfl, keeps_evAdd_iff (m := 25484) rfl, keeps_evPosted_iff (m := 25484) rfl, keeps_time_iff (m := 25484) rfl, keeps_pilots_iff (m := 25484) rfl]
    | with_reducible refine keeps_ite ?_ ?_

theorem frame_execAnnounceTimeout (e : Fin 2) (s t : State) (h : execAnnounceTimeout e s = .next t) : Keeps 8200 s t := by
  unfold execAnnounceTimeout at h
  cases h
  repeat' first
    | exact rfl
    | with_reducible exact Keeps.refl
    | with_reducible assumption
    | exact trivial
    | with_reducible refine keeps_setFld _ _ ?_ ?_
    | with_reducible refine keeps_roleState _ ?_ ?_
    | with_reducible refine keeps_setDom _ _ ?_ ?_
    | dsimp only
    | with_reducible refine keeps_ite ?_ ?_
    | with_reducible refine keeps_ite_fst ?_ ?_
    | split

theorem frame_execClkMonitorWindow (tosc : Option Nat) (ref : Option Nat) (s t : State) (h : execClkMonitorWindow tosc ref s = .next t) : Keeps 25484 s t := by
  unfold execClkMonitorWindow at h
  cases h
  repeat' first
    | exact rfl
    | with_reducible exact Keeps.refl
    | with_reducible assumption
    | exact trivial
    | with_reducible refine keeps_moveClk _ ?_ ?_
    | simp only [keeps_fresh_iff (m := 25484) rfl, keeps_time_iff (m := 25484) rfl]
    | with_reducible refine keeps_ite ?_ ?_
    | with_reducible refine keeps_ite_fst ?_ ?_
    | split

theorem frame_execEvtEdge (i : Fin 16) (rising : Bool) (s t : State) (h : execEvtEdge i rising s = .next t) : Keeps 24844 s t := by
  unfold execEvtEdge at h
  cases h
  repeat' first
    | exact rfl
    | with_reducible exact Keeps.refl
    | with_reducible assumption
    | exact trivial
    | with_reducible refine keeps_evtEdge _ _ _ ?_ ?_
    | simp only [keeps_fresh_iff (m := 24844) rfl, keeps_regs_iff (m := 24844) rfl, keeps_evAdd_iff (m := 24844) rfl, keeps_time_iff (m := 24844) rfl, keeps_pilots_iff (m := 24844) rfl]
    | with_reducible refine keeps_ite ?_ ?_

theorem frame_execEvtOutputEdge (i : Fin 16) (assert : Bool) (s t : State) (h : execEvtOutputEdge i assert s = .next t) : Keeps 24844 s t := by
  unfold execEvtOutputEdge at h
  cases h
  repeat' first
    | exact rfl
    | with_reducible exact Keeps.refl
    | with_reducible assumption
    | exact trivial
    | with_reducible refine keeps_evtOutput _ _ ?_ ?_

theorem frame_execGpioEdge (n : Fin 160) (rising : Bool) (s t : State) (h : execGpioEdge n rising s = .next t) : Keeps 16648 s t := by
  unfold execGpioEdge at h
  cases h
  repeat' first
    | exact rfl
    | with_reducible exact Keeps.refl
    | with_reducible assumption
    | exact trivial
    | with_reducible refine keeps_gpioEdge _ _ ?_ ?_

theorem frame_execGpioDriveFault (pin : GpioPin) (level : Bool) (s t : State) (h : execGpioDriveFault pin level s = .next t) : Keeps 68719502216 s t := by
  unfold execGpioDriveFault at h
  cases h
  repeat' first
    | exact rfl
    | with_reducible exact Keeps.refl
    | with_reducible assumption
    | exact trivial
    | with_reducible refine keeps_pinFault _ _ ?_ ?_

theorem frame_execGpioFaultRetry (pin : GpioPin) (pass : Bool) (s t : State) (h : execGpioFaultRetry pin pass s = .next t) : Keeps 68719484936 s t := by
  unfold execGpioFaultRetry at h
  cases h
  repeat' first
    | exact rfl
    | with_reducible exact Keeps.refl
    | with_reducible assumption
    | exact trivial
    | with_reducible refine keeps_faultRetry _ _ ?_ ?_

theorem frame_execLaneSignal (p : Fin 4) (i : Fin 64) (s t : State) (h : execLaneSignal p i s = .next t) : Keeps 2097160 s t := by
  unfold execLaneSignal at h
  cases h
  repeat' first
    | exact rfl
    | with_reducible exact Keeps.refl
    | with_reducible assumption
    | exact trivial
    | with_reducible refine keeps_setLaneState _ _ _ ?_ ?_
    | simp only [keeps_regs_iff (m := 2097160) rfl, keeps_lanes_iff (m := 2097160) rfl]
    | with_reducible refine keeps_ite ?_ ?_

theorem frame_execLaneCdrLock (p : Fin 4) (i : Fin 64) (s t : State) (h : execLaneCdrLock p i s = .next t) : Keeps 2097160 s t := by
  unfold execLaneCdrLock at h
  cases h
  repeat' first
    | exact rfl
    | with_reducible exact Keeps.refl
    | with_reducible assumption
    | exact trivial
    | with_reducible refine keeps_setLaneState _ _ _ ?_ ?_
    | simp only [keeps_regs_iff (m := 2097160) rfl, keeps_lanes_iff (m := 2097160) rfl]
    | with_reducible refine keeps_ite ?_ ?_

theorem frame_execLaneAlignLock (p : Fin 4) (i : Fin 64) (vert : BitVec 8) (horz : Fin 65) (ctle : BitVec 4) (dfe : BitVec 25) (s t : State) (h : execLaneAlignLock p i vert horz ctle dfe s = .next t) : Keeps 2097160 s t := by
  unfold execLaneAlignLock at h
  cases h
  repeat' first
    | exact rfl
    | with_reducible exact Keeps.refl
    | with_reducible assumption
    | exact trivial
    | with_reducible refine keeps_setLaneState _ _ _ ?_ ?_
    | with_reducible refine keeps_setFld _ _ ?_ ?_
    | with_reducible refine keeps_setLane _ _ _ ?_ ?_
    | dsimp only
    | with_reducible refine keeps_ite ?_ ?_

theorem frame_execLaneLockLoss (p : Fin 4) (i : Fin 64) (s t : State) (h : execLaneLockLoss p i s = .next t) : Keeps 2097160 s t := by
  unfold execLaneLockLoss at h
  cases h
  repeat' first
    | exact rfl
    | with_reducible exact Keeps.refl
    | with_reducible assumption
    | exact trivial
    | with_reducible refine keeps_setFld _ _ ?_ ?_
    | with_reducible refine keeps_setLane _ _ _ ?_ ?_
    | dsimp only
    | with_reducible refine keeps_ite ?_ ?_

theorem frame_execLaneIdent (p : Fin 4) (i : Fin 64) (normal : Option TrainId) (inverted : Option TrainId) (s t : State) (h : execLaneIdent p i normal inverted s = .next t) : Keeps 2114440 s t := by
  unfold execLaneIdent at h
  cases h
  repeat' first
    | exact rfl
    | with_reducible exact Keeps.refl
    | with_reducible assumption
    | exact trivial
    | with_reducible refine keeps_setLaneState _ _ _ ?_ ?_
    | with_reducible refine keeps_setFld _ _ ?_ ?_
    | with_reducible refine keeps_setLane _ _ _ ?_ ?_
    | with_reducible refine keeps_laneFaults _ _ _ ?_ ?_
    | with_reducible refine keeps_laneFault _ _ _ ?_ ?_
    | dsimp only
    | with_reducible refine keeps_ite ?_ ?_
    | with_reducible refine keeps_ite_fst ?_ ?_
    | split

theorem frame_execLaneDeskew (p : Fin 4) (arrivals : List (Fin 64 × Nat)) (s t : State) (h : execLaneDeskew p arrivals s = .next t) : Keeps 2114440 s t := by
  unfold execLaneDeskew at h
  cases h
  repeat' first
    | exact rfl
    | with_reducible exact Keeps.refl
    | with_reducible assumption
    | exact trivial
    | with_reducible refine keeps_endTraining _ ?_ ?_
    | with_reducible refine keeps_laneFaults _ _ _ ?_ ?_
    | with_reducible refine keeps_setLaneState _ _ _ ?_ ?_
    | with_reducible refine keeps_setFld _ _ ?_ ?_
    | dsimp only
    | with_reducible refine keeps_ite ?_ ?_
    | with_reducible refine keeps_ite_fst ?_ ?_
    | with_reducible refine keeps_foldl _ _ (fun _ _ hx => ?_) ?_

theorem frame_execSrxTrainTimeout (p : Fin 4) (s t : State) (h : execSrxTrainTimeout p s = .next t) : Keeps 2114440 s t := by
  unfold execSrxTrainTimeout at h
  cases h
  repeat' first
    | exact rfl
    | with_reducible exact Keeps.refl
    | with_reducible assumption
    | exact trivial
    | with_reducible refine keeps_timeoutLanes _ _ ?_ ?_
    | with_reducible refine keeps_endTraining _ ?_ ?_
    | simp only [keeps_regs_iff (m := 2114440) rfl, keeps_evSet_iff (m := 2114440) rfl, keeps_evAdd_iff (m := 2114440) rfl, keeps_evPosted_iff (m := 2114440) rfl, keeps_pilots_iff (m := 2114440) rfl, keeps_lanes_iff (m := 2114440) rfl]
    | with_reducible refine keeps_ite ?_ ?_

theorem frame_execLaneFaultTimeout (p : Fin 4) (i : Fin 64) (s t : State) (h : execLaneFaultTimeout p i s = .next t) : Keeps 2114440 s t := by
  unfold execLaneFaultTimeout at h
  cases h
  repeat' first
    | exact rfl
    | with_reducible exact Keeps.refl
    | with_reducible assumption
    | exact trivial
    | with_reducible refine keeps_laneFault _ _ _ ?_ ?_
    | dsimp only
    | with_reducible refine keeps_ite ?_ ?_
    | with_reducible refine keeps_ite_fst ?_ ?_
    | split

theorem frame_execLanePinFault (p : Fin 4) (i : Fin 64) (pmv : BitVec 11) (nmv : BitVec 11) (s t : State) (h : execLanePinFault p i pmv nmv s = .next t) : Keeps 2114440 s t := by
  unfold execLanePinFault at h
  cases h
  repeat' first
    | exact rfl
    | with_reducible exact Keeps.refl
    | with_reducible assumption
    | exact trivial
    | with_reducible refine keeps_laneFault _ _ _ ?_ ?_
    | with_reducible refine keeps_setFld _ _ ?_ ?_
    | dsimp only
    | with_reducible refine keeps_ite ?_ ?_

theorem frame_execLaneSignalLoss (p : Fin 4) (i : Fin 64) (s t : State) (h : execLaneSignalLoss p i s = .next t) : Keeps 2114440 s t := by
  unfold execLaneSignalLoss at h
  cases h
  repeat' first
    | exact rfl
    | with_reducible exact Keeps.refl
    | with_reducible assumption
    | exact trivial
    | with_reducible refine keeps_laneFault _ _ _ ?_ ?_
    | simp only [keeps_regs_iff (m := 2114440) rfl, keeps_evSet_iff (m := 2114440) rfl, keeps_evAdd_iff (m := 2114440) rfl, keeps_evPosted_iff (m := 2114440) rfl, keeps_pilots_iff (m := 2114440) rfl, keeps_lanes_iff (m := 2114440) rfl]
    | with_reducible refine keeps_ite ?_ ?_

theorem frame_execPrbsLock (p : Fin 4) (i : Fin 64) (inv : Bool) (s t : State) (h : execPrbsLock p i inv s = .next t) : Keeps 2097160 s t := by
  unfold execPrbsLock at h
  cases h
  repeat' first
    | exact rfl
    | with_reducible exact Keeps.refl
    | with_reducible assumption
    | exact trivial
    | with_reducible refine keeps_setFld _ _ ?_ ?_
    | with_reducible refine keeps_setLane _ _ _ ?_ ?_
    | dsimp only
    | with_reducible refine keeps_ite ?_ ?_

theorem frame_execBadBlock (p : Fin 4) (i : Fin 64) (hdr : BitVec 2) (block : BitVec 64) (viol : Bool) (s t : State) (h : execBadBlock p i hdr block viol s = .next t) : Keeps 2097416 s t := by
  unfold execBadBlock at h
  cases h
  repeat' first
    | exact rfl
    | with_reducible exact Keeps.refl
    | with_reducible assumption
    | exact trivial
    | with_reducible refine keeps_codeErr _ _ ?_ ?_
    | dsimp only
    | with_reducible refine keeps_ite ?_ ?_

theorem frame_execSof (p : Fin 4) (blocks : List LaneBlock) (s t : State) (h : execSof p blocks s = .next t) : Keeps 7233416 s t := by
  unfold execSof at h
  cases h
  repeat' first
    | exact rfl
    | with_reducible exact Keeps.refl
    | with_reducible assumption
    | exact trivial
    | with_reducible refine keeps_codeErrs _ _ _ _ ?_ ?_
    | with_reducible refine keeps_openFrame _ _ ?_ ?_
    | with_reducible refine keeps_startStratum _ _ _ ?_ ?_
    | dsimp only
    | with_reducible refine keeps_ite ?_ ?_
    | with_reducible refine keeps_ite_fst ?_ ?_
    | split

theorem frame_execSeam (p : Fin 4) (blocks : List LaneBlock) (prev : List LaneBytes) (drained : Nat) (s t : State) (h : execSeam p blocks prev drained s = .next t) : Keeps 7229320 s t := by
  unfold execSeam at h
  cases h
  repeat' first
    | exact rfl
    | with_reducible exact Keeps.refl
    | with_reducible assumption
    | exact trivial
    | with_reducible refine keeps_codeErrs _ _ _ _ ?_ ?_
    | with_reducible refine keeps_count _ _ ?_ ?_
    | with_reducible refine keeps_settleRow _ _ _ ?_ ?_
    | with_reducible refine keeps_acceptRow _ _ ?_ ?_
    | with_reducible refine keeps_ebSub _ _ ?_ ?_
    | dsimp only
    | with_reducible refine keeps_ite ?_ ?_
    | with_reducible refine keeps_ite_fst ?_ ?_
    | split

theorem frame_execEof (p : Fin 4) (blocks : List LaneBlock) (prev : List LaneBytes) (drained : Nat) (s t : State) (h : execEof p blocks prev drained s = .next t) : Keeps 7229320 s t := by
  unfold execEof at h
  cases h
  repeat' first
    | exact rfl
    | with_reducible exact Keeps.refl
    | with_reducible assumption
    | exact trivial
    | with_reducible refine keeps_codeErrs _ _ _ _ ?_ ?_
    | with_reducible refine keeps_eofStratum _ _ _ ?_ ?_
    | with_reducible refine keeps_settleRow _ _ _ ?_ ?_
    | with_reducible refine keeps_ebSub _ _ ?_ ?_
    | dsimp only
    | with_reducible refine keeps_ite ?_ ?_
    | with_reducible refine keeps_ite_fst ?_ ?_
    | split

theorem frame_execSrxFrameExpire (p : Fin 4) (s t : State) (h : execSrxFrameExpire p s = .next t) : Keeps 5132168 s t := by
  unfold execSrxFrameExpire at h
  cases h
  repeat' first
    | exact rfl
    | with_reducible exact Keeps.refl
    | with_reducible assumption
    | exact trivial
    | with_reducible refine keeps_closeFrame _ ?_ ?_
    | simp only [keeps_regs_iff (m := 5132168) rfl, keeps_evSet_iff (m := 5132168) rfl, keeps_evAdd_iff (m := 5132168) rfl, keeps_evPosted_iff (m := 5132168) rfl, keeps_fab_iff (m := 5132168) rfl, keeps_pilots_iff (m := 5132168) rfl, keeps_log_iff (m := 5132168) rfl, keeps_queues_iff (m := 5132168) rfl, keeps_leaves_iff (m := 5132168) rfl, keeps_ports_iff (m := 5132168) rfl]
    | with_reducible refine keeps_ite ?_ ?_
    | with_reducible refine keeps_ite_fst ?_ ?_
    | split

theorem frame_execSyncOutputEdge (p : Fin 4) (k : Fin 2) (s t : State) (h : execSyncOutputEdge p k s = .next t) : Keeps 4211592 s t := by
  unfold execSyncOutputEdge at h
  cases h
  repeat' first
    | exact rfl
    | with_reducible exact Keeps.refl
    | with_reducible assumption
    | exact trivial
    | with_reducible refine keeps_gpioConflict _ ?_ ?_
    | with_reducible refine keeps_syncEdge _ _ ?_ ?_

theorem frame_execEncPictureStart (e : Fin 4) (s t : State) (h : execEncPictureStart e s = .next t) : Keeps 50748300 s t := by
  unfold execEncPictureStart at h
  cases h
  repeat' first
    | exact rfl
    | with_reducible exact Keeps.refl
    | with_reducible assumption
    | exact trivial
    | with_reducible refine keeps_encStart _ ?_ ?_

theorem frame_execEncPreempt (e : Fin 4) (s t : State) (h : execEncPreempt e s = .next t) : Keeps 50748300 s t := by
  unfold execEncPreempt at h
  cases h
  repeat' first
    | exact rfl
    | with_reducible exact Keeps.refl
    | with_reducible assumption
    | exact trivial
    | with_reducible refine keeps_encPreempt _ ?_ ?_

theorem frame_execEncResume (e : Fin 4) (s t : State) (h : execEncResume e s = .next t) : Keeps 16777224 s t := by
  unfold execEncResume at h
  cases h
  repeat' first
    | exact rfl
    | with_reducible exact Keeps.refl
    | with_reducible assumption
    | exact trivial
    | with_reducible refine keeps_encResume _ ?_ ?_

theorem frame_execEncPictureEnd (e : Fin 4) (s t : State) (h : execEncPictureEnd e s = .next t) : Keeps 51269516 s t := by
  unfold execEncPictureEnd at h
  cases h
  repeat' first
    | exact rfl
    | with_reducible exact Keeps.refl
    | with_reducible assumption
    | exact trivial
    | with_reducible refine keeps_encEnd _ ?_ ?_

theorem frame_execPipeFrameEnd (i : Fin 4) (s t : State) (h : execPipeFrameEnd i s = .next t) : Keeps 9326472 s t := by
  unfold execPipeFrameEnd at h
  cases h
  repeat' first
    | exact rfl
    | with_reducible exact Keeps.refl
    | with_reducible assumption
    | exact trivial
    | with_reducible refine keeps_pipeFrameEnd _ ?_ ?_

theorem frame_execDecFlushDone (d : Fin 2) (s t : State) (h : execDecFlushDone d s = .next t) : Keeps 67126152 s t := by
  unfold execDecFlushDone at h
  cases h
  repeat' first
    | exact rfl
    | with_reducible exact Keeps.refl
    | with_reducible assumption
    | exact trivial
    | with_reducible refine keeps_decFlushDone _ ?_ ?_

theorem frame_execDecDecodeStart (d : Fin 2) (s t : State) (h : execDecDecodeStart d s = .next t) : Keeps 67521416 s t := by
  unfold execDecDecodeStart at h
  cases h
  repeat' first
    | exact rfl
    | with_reducible exact Keeps.refl
    | with_reducible assumption
    | exact trivial
    | with_reducible refine keeps_decStart _ ?_ ?_

theorem frame_execDecDecodeDone (d : Fin 2) (au : AuFacts) (s t : State) (h : execDecDecodeDone d au s = .next t) : Keeps 67522444 s t := by
  unfold execDecDecodeDone at h
  cases h
  repeat' first
    | exact rfl
    | with_reducible exact Keeps.refl
    | with_reducible assumption
    | exact trivial
    | with_reducible refine keeps_decDone _ _ ?_ ?_

theorem frame_execDecCopyDone (d : Fin 2) (s t : State) (h : execDecCopyDone d s = .next t) : Keeps 68046728 s t := by
  unfold execDecCopyDone at h
  cases h
  repeat' first
    | exact rfl
    | with_reducible exact Keeps.refl
    | with_reducible assumption
    | exact trivial
    | with_reducible refine keeps_decCopyDone _ ?_ ?_

theorem frame_execLzeJobStart (q : Fin 2) (s t : State) (h : execLzeJobStart q s = .next t) : Keeps 135155596 s t := by
  unfold execLzeJobStart at h
  cases h
  repeat' first
    | exact rfl
    | with_reducible exact Keeps.refl
    | with_reducible assumption
    | exact trivial
    | with_reducible refine keeps_lzeStart _ ?_ ?_

theorem frame_execLzeBlockDone (q : Fin 2) (s t : State) (h : execLzeBlockDone q s = .next t) : Keeps 135155596 s t := by
  unfold execLzeBlockDone at h
  cases h
  repeat' first
    | exact rfl
    | with_reducible exact Keeps.refl
    | with_reducible assumption
    | exact trivial
    | with_reducible refine keeps_lzeBlock _ ?_ ?_

theorem frame_execPcieLinkUp (p : Fin 2) (k : Fin 4) (gen : Nat) (width : Nat) (reversed : Bool) (corr : Nat) (uncorr : Nat) (s t : State) (h : execPcieLinkUp p k gen width reversed corr uncorr s = .next t) : Keeps 1073742088 s t := by
  unfold execPcieLinkUp at h
  cases h
  repeat' first
    | exact rfl
    | with_reducible exact Keeps.refl
    | with_reducible assumption
    | exact trivial
    | with_reducible refine keeps_linkUp _ _ _ _ _ ?_ ?_
    | with_reducible refine keeps_aer _ _ _ ?_ ?_

theorem frame_execPcieLinkDown (p : Fin 2) (k : Fin 4) (corr : Nat) (uncorr : Nat) (s t : State) (h : execPcieLinkDown p k corr uncorr s = .next t) : Keeps 1073759112 s t := by
  unfold execPcieLinkDown at h
  cases h
  repeat' first
    | exact rfl
    | with_reducible exact Keeps.refl
    | with_reducible assumption
    | exact trivial
    | with_reducible refine keeps_linkDown _ _ ?_ ?_
    | with_reducible refine keeps_aer _ _ _ ?_ ?_

theorem frame_execNvmeCompletion (d : Fin 8) (i : Fin 64) (ok : Bool) (data : NvmeData) (s t : State) (h : execNvmeCompletion d i ok data s = .next t) : Keeps 1073759112 s t := by
  unfold execNvmeCompletion at h
  cases h
  repeat' first
    | exact rfl
    | with_reducible exact Keeps.refl
    | with_reducible assumption
    | exact trivial
    | with_reducible refine keeps_nvmeComplete _ _ _ _ ?_ ?_

theorem frame_execNvmeTimeout (d : Fin 8) (s t : State) (h : execNvmeTimeout d s = .next t) : Keeps 1073759112 s t := by
  unfold execNvmeTimeout at h
  cases h
  repeat' first
    | exact rfl
    | with_reducible exact Keeps.refl
    | with_reducible assumption
    | exact trivial
    | with_reducible refine keeps_nvmeTimeout _ ?_ ?_

theorem frame_execVolOpDone (v : Fin 4) (s t : State) (h : execVolOpDone v s = .next t) : Keeps 1073741832 s t := by
  unfold execVolOpDone at h
  cases h
  repeat' first
    | exact rfl
    | with_reducible exact Keeps.refl
    | with_reducible assumption
    | exact trivial
    | with_reducible refine keeps_volOpDone _ ?_ ?_

theorem frame_execPcxJobStart (v : Fin 4) (s t : State) (h : execPcxJobStart v s = .next t) : Keeps 1074154380 s t := by
  unfold execPcxJobStart at h
  cases h
  repeat' first
    | exact rfl
    | with_reducible exact Keeps.refl
    | with_reducible assumption
    | exact trivial
    | with_reducible refine keeps_jobStart _ ?_ ?_

theorem frame_execPcxJobEnd (v : Fin 4) (s t : State) (h : execPcxJobEnd v s = .next t) : Keeps 1074679692 s t := by
  unfold execPcxJobEnd at h
  cases h
  repeat' first
    | exact rfl
    | with_reducible exact Keeps.refl
    | with_reducible assumption
    | exact trivial
    | with_reducible refine keeps_jobEnd _ ?_ ?_

theorem frame_execEthLinkUp (q : Fin 2) (fecErr : Nat) (s t : State) (h : execEthLinkUp q fecErr s = .next t) : Keeps 264 s t := by
  unfold execEthLinkUp at h
  cases h
  repeat' first
    | exact rfl
    | with_reducible exact Keeps.refl
    | with_reducible assumption
    | exact trivial
    | with_reducible refine keeps_ethUp _ ?_ ?_
    | with_reducible refine keeps_fecErrors _ _ ?_ ?_

theorem frame_execEthLinkDown (q : Fin 2) (fecErr : Nat) (s t : State) (h : execEthLinkDown q fecErr s = .next t) : Keeps 17288 s t := by
  unfold execEthLinkDown at h
  cases h
  repeat' first
    | exact rfl
    | with_reducible exact Keeps.refl
    | with_reducible assumption
    | exact trivial
    | with_reducible refine keeps_ethDown _ ?_ ?_
    | with_reducible refine keeps_fecErrors _ _ ?_ ?_

theorem frame_execArpRequest (q : Fin 2) (v6 : Bool) (target : BitVec 128) (sender : BitVec 128) (mac : BitVec 48) (s t : State) (h : execArpRequest q v6 target sender mac s = .next t) : Keeps 4294967560 s t := by
  unfold execArpRequest at h
  cases h
  repeat' first
    | exact rfl
    | with_reducible exact Keeps.refl
    | with_reducible assumption
    | exact trivial
    | with_reducible refine keeps_neighRequest _ _ _ _ _ ?_ ?_

theorem frame_execArpReply (q : Fin 2) (v6 : Bool) (addr : BitVec 128) (mac : BitVec 48) (s t : State) (h : execArpReply q v6 addr mac s = .next t) : Keeps 4294967296 s t := by
  unfold execArpReply at h
  cases h
  repeat' first
    | exact rfl
    | with_reducible exact Keeps.refl
    | with_reducible assumption
    | exact trivial
    | with_reducible refine keeps_confirmNeigh _ _ _ _ ?_ ?_
    | with_reducible refine keeps_quiet _ ?_ ?_
    | simp only [keeps_nets_iff (m := 4294967296) rfl]
    | with_reducible refine keeps_ite ?_ ?_

theorem frame_execIcmpEchoRequest (q : Fin 2) (v6 : Bool) (target : BitVec 128) (sender : BitVec 128) (payload : List Byte) (s t : State) (h : execIcmpEchoRequest q v6 target sender payload s = .next t) : Keeps 4294984584 s t := by
  unfold execIcmpEchoRequest at h
  cases h
  repeat' first
    | exact rfl
    | with_reducible exact Keeps.refl
    | with_reducible assumption
    | exact trivial
    | with_reducible refine keeps_echoRequest _ _ _ _ _ ?_ ?_

theorem frame_execNeighTimeout (q : Fin 2) (s t : State) (h : execNeighTimeout q s = .next t) : Keeps 4294984584 s t := by
  unfold execNeighTimeout at h
  cases h
  repeat' first
    | exact rfl
    | with_reducible exact Keeps.refl
    | with_reducible assumption
    | exact trivial
    | with_reducible refine keeps_neighTimeout _ ?_ ?_

theorem frame_execNeighExpiry (q : Fin 2) (s t : State) (h : execNeighExpiry q s = .next t) : Keeps 4294967296 s t := by
  unfold execNeighExpiry at h
  cases h
  repeat' first
    | exact rfl
    | with_reducible exact Keeps.refl
    | with_reducible assumption
    | exact trivial
    | with_reducible refine keeps_neighExpiry _ ?_ ?_

theorem frame_execNetRxDiscard (q : Fin 2) (s t : State) (h : execNetRxDiscard q s = .next t) : Keeps 264 s t := by
  unfold execNetRxDiscard at h
  cases h
  repeat' first
    | exact rfl
    | with_reducible exact Keeps.refl
    | with_reducible assumption
    | exact trivial
    | with_reducible refine keeps_discardRx _ ?_ ?_
    | simp only [keeps_regs_iff (m := 264) rfl, keeps_evAdd_iff (m := 264) rfl]
    | with_reducible refine keeps_ite ?_ ?_

theorem frame_execPierDatagramTx (q : Fin 2) (s t : State) (h : execPierDatagramTx q s = .next t) : Keeps 4295388040 s t := by
  unfold execPierDatagramTx at h
  cases h
  repeat' first
    | exact rfl
    | with_reducible exact Keeps.refl
    | with_reducible assumption
    | exact trivial
    | with_reducible refine keeps_pierTx _ ?_ ?_

theorem frame_execPierDatagramRx (q : Fin 2) (dport : BitVec 16) (payload : List Byte) (s t : State) (h : execPierDatagramRx q dport payload s = .next t) : Keeps 4295905164 s t := by
  unfold execPierDatagramRx at h
  cases h
  repeat' first
    | exact rfl
    | with_reducible exact Keeps.refl
    | with_reducible assumption
    | exact trivial
    | with_reducible refine keeps_pierRx _ _ _ ?_ ?_

theorem frame_execPierRxTimeout (q : Fin 2) (r : Fin 16) (s t : State) (h : execPierRxTimeout q r s = .next t) : Keeps 4295379848 s t := by
  unfold execPierRxTimeout at h
  cases h
  repeat' first
    | exact rfl
    | with_reducible exact Keeps.refl
    | with_reducible assumption
    | exact trivial
    | with_reducible refine keeps_pierTimeout _ _ ?_ ?_

theorem frame_execAudFrame (p : Fin 16) (samples : List (BitVec 32)) (s t : State) (h : execAudFrame p samples s = .next t) : Keeps 17180807048 s t := by
  unfold execAudFrame at h
  cases h
  repeat' first
    | exact rfl
    | with_reducible exact Keeps.refl
    | with_reducible assumption
    | exact trivial
    | with_reducible refine keeps_audFrame _ _ ?_ ?_

theorem frame_execAudClockLoss (p : Fin 16) (s t : State) (h : execAudClockLoss p s = .next t) : Keeps 17180807048 s t := by
  unfold execAudClockLoss at h
  cases h
  repeat' first
    | exact rfl
    | with_reducible exact Keeps.refl
    | with_reducible assumption
    | exact trivial
    | with_reducible refine keeps_audLoss _ ?_ ?_

theorem frame_execZcTimeout (p : Fin 16) (slot : Fin 16) (s t : State) (h : execZcTimeout p slot s = .next t) : Keeps 17180807048 s t := by
  unfold execZcTimeout at h
  cases h
  repeat' first
    | exact rfl
    | with_reducible exact Keeps.refl
    | with_reducible assumption
    | exact trivial
    | with_reducible refine keeps_zcTimeout _ _ ?_ ?_

theorem frame_execScgLocked (g : Fin 4) (s t : State) (h : execScgLocked g s = .next t) : Keeps 8 s t := by
  unfold execScgLocked at h
  cases h
  repeat' first
    | exact rfl
    | with_reducible exact Keeps.refl
    | with_reducible assumption
    | exact trivial
    | with_reducible refine keeps_scgLocked _ ?_ ?_

theorem frame_execScgHoldover (g : Fin 4) (s t : State) (h : execScgHoldover g s = .next t) : Keeps 17288 s t := by
  unfold execScgHoldover at h
  cases h
  repeat' first
    | exact rfl
    | with_reducible exact Keeps.refl
    | with_reducible assumption
    | exact trivial
    | with_reducible refine keeps_scgHoldover _ ?_ ?_

theorem frame_execScnLatch (h0 : Fin 10) (s t : State) (h : execScnLatch h0 s = .next t) : Keeps 540433292 s t := by
  unfold execScnLatch at h
  cases h
  repeat' first
    | exact rfl
    | with_reducible exact Keeps.refl
    | with_reducible assumption
    | exact trivial
    | with_reducible refine keeps_scnLatch _ ?_ ?_

theorem frame_execScnUnderrun (h0 : Fin 10) (line : Nat) (x : Nat) (s t : State) (h : execScnUnderrun h0 line x s = .next t) : Keeps 536890248 s t := by
  unfold execScnUnderrun at h
  cases h
  repeat' first
    | exact rfl
    | with_reducible exact Keeps.refl
    | with_reducible assumption
    | exact trivial
    | with_reducible refine keeps_scnUnderrun _ _ _ ?_ ?_

theorem frame_execScnFrameEnd (h0 : Fin 10) (s t : State) (h : execScnFrameEnd h0 s = .next t) : Keeps 537019272 s t := by
  unfold execScnFrameEnd at h
  cases h
  repeat' first
    | exact rfl
    | with_reducible exact Keeps.refl
    | with_reducible assumption
    | exact trivial
    | with_reducible refine keeps_scnFrameEnd _ ?_ ?_

theorem frame_execScnLoadDone  (s t : State) (h : execScnLoadDone s = .next t) : Keeps 537283464 s t := by
  unfold execScnLoadDone at h
  cases h
  repeat' first
    | exact rfl
    | with_reducible exact Keeps.refl
    | with_reducible assumption
    | exact trivial
    | with_reducible refine keeps_scnLoadDone ?_ ?_

theorem frame_execSecReady (ok : Bool) (s t : State) (h : execSecReady ok s = .next t) : Keeps 8 s t := by
  unfold execSecReady at h
  cases h
  repeat' first
    | exact rfl
    | with_reducible exact Keeps.refl
    | with_reducible assumption
    | exact trivial
    | with_reducible refine keeps_ready _ ?_ ?_

theorem frame_execSecCmdDone  (s t : State) (h : execSecCmdDone s = .next t) : Keeps 2147632008 s t := by
  unfold execSecCmdDone at h
  cases h
  repeat' first
    | exact rfl
    | with_reducible exact Keeps.refl
    | with_reducible assumption
    | exact trivial
    | with_reducible refine keeps_secDone ?_ ?_

theorem frame_execSecLeafHash (i : Nat) (s t : State) (h : execSecLeafHash i s = .next t) : Keeps 2148156296 s t := by
  unfold execSecLeafHash at h
  cases h
  repeat' first
    | exact rfl
    | with_reducible exact Keeps.refl
    | with_reducible assumption
    | exact trivial
    | with_reducible refine keeps_leafHash _ ?_ ?_

theorem frame_execChainSignDone (d : Fin 32) (s t : State) (h : execChainSignDone d s = .next t) : Keeps 2148421516 s t := by
  unfold execChainSignDone at h
  cases h
  repeat' first
    | exact rfl
    | with_reducible exact Keeps.refl
    | with_reducible assumption
    | exact trivial
    | with_reducible refine keeps_signDone _ ?_ ?_

theorem frame_execHello (q : Fin 2) (body : List Byte) (s t : State) (h : execHello q body s = .next t) : Keeps 8589951884 s t := by
  unfold execHello at h
  cases h
  repeat' first
    | exact rfl
    | with_reducible exact Keeps.refl
    | with_reducible assumption
    | exact trivial
    | with_reducible refine keeps_hello _ _ ?_ ?_

theorem frame_execHcpHandshakeTimeout (i : Fin 8) (s t : State) (h : execHcpHandshakeTimeout i s = .next t) : Keeps 8590089096 s t := by
  unfold execHcpHandshakeTimeout at h
  cases h
  repeat' first
    | exact rfl
    | with_reducible exact Keeps.refl
    | with_reducible assumption
    | exact trivial
    | with_reducible refine keeps_handshakeTimeout _ ?_ ?_

theorem frame_execHcpSessionTimeout (i : Fin 8) (s t : State) (h : execHcpSessionTimeout i s = .next t) : Keeps 8590089096 s t := by
  unfold execHcpSessionTimeout at h
  cases h
  repeat' first
    | exact rfl
    | with_reducible exact Keeps.refl
    | with_reducible assumption
    | exact trivial
    | with_reducible refine keeps_sessionTimeout _ ?_ ?_

theorem frame_execLzeJobEnd (q : Fin 2) (s t : State) (h : execLzeJobEnd q s = .next t) : Keeps 135155592 s t := by
  unfold execLzeJobEnd at h
  cases h
  repeat' first
    | exact rfl
    | with_reducible exact Keeps.refl
    | with_reducible assumption
    | exact trivial
    | with_reducible refine keeps_lzeJobEnd _ ?_ ?_

theorem frame_execDocketPost (k : Fin 16) (kind : BitVec 8) (src : BitVec 8) (sub : BitVec 16) (payload : Word64) (s t : State) (h : execDocketPost k kind src sub payload s = .next t) : Keeps 16648 s t := by
  unfold execDocketPost at h
  cases h
  repeat' first
    | exact rfl
    | with_reducible exact Keeps.refl
    | with_reducible assumption
    | exact trivial
    | with_reducible refine keeps_postTo _ _ _ _ _ ?_ ?_

theorem frame_execPilotRelease (k : Fin 16) (s t : State) (h : execPilotRelease k s = .next t) : Keeps 213896 s t := by
  unfold execPilotRelease at h
  cases h
  repeat' first
    | exact rfl
    | with_reducible exact Keeps.refl
    | with_reducible assumption
    | exact trivial
    | with_reducible refine keeps_doRelease _ _ ?_ ?_
    | simp only [keeps_regs_iff (m := 213896) rfl, keeps_evSet_iff (m := 213896) rfl, keeps_evAdd_iff (m := 213896) rfl, keeps_evPosted_iff (m := 213896) rfl, keeps_pilots_iff (m := 213896) rfl, keeps_published_iff (m := 213896) rfl, keeps_log_iff (m := 213896) rfl]
    | with_reducible refine keeps_ite ?_ ?_
    | with_reducible refine keeps_ite_fst ?_ ?_
    | split

theorem frame_execPilotOverrun (k : Fin 16) (s t : State) (h : execPilotOverrun k s = .next t) : Keeps 154504 s t := by
  unfold execPilotOverrun at h
  cases h
  repeat' first
    | exact rfl
    | with_reducible exact Keeps.refl
    | with_reducible assumption
    | exact trivial
    | with_reducible refine keeps_pilotRec _ _ _ ?_ ?_
    | with_reducible refine keeps_declareOverrun _ _ ?_ ?_
    | with_reducible refine keeps_setPilot _ _ ?_ ?_
    | dsimp only
    | with_reducible refine keeps_ite ?_ ?_

theorem frame_execPilotAbandon (k : Fin 16) (s t : State) (h : execPilotAbandon k s = .next t) : Keeps 154508 s t := by
  unfold execPilotAbandon at h
  cases h
  repeat' first
    | exact rfl
    | with_reducible exact Keeps.refl
    | with_reducible assumption
    | exact trivial
    | with_reducible refine keeps_pilotRec _ _ _ ?_ ?_
    | with_reducible refine keeps_declareOverrun _ _ ?_ ?_
    | with_reducible refine keeps_countAbandon _ ?_ ?_
    | with_reducible refine keeps_setPilot _ _ ?_ ?_
    | with_reducible refine keeps_abandonMoves _ _ ?_ ?_
    | with_reducible refine keeps_takeExc _ _ _ _ ?_ ?_
    | with_reducible refine keeps_nextFree ?_ ?_
    | dsimp only
    | with_reducible refine keeps_ite ?_ ?_

theorem frame_execPilotBegin (k : Fin 16) (s t : State) (h : execPilotBegin k s = .next t) : Keeps 148360 s t := by
  unfold execPilotBegin at h
  cases h
  repeat' first
    | exact rfl
    | with_reducible exact Keeps.refl
    | with_reducible assumption
    | exact trivial
    | with_reducible refine keeps_beginPilot _ ?_ ?_

theorem frame_execAlu (k : Fin 16) (g : Guard) (f : FmtA) (s t : State) (h : execAlu k g f s = .next t) : Keeps 152456 s t := by
  unfold execAlu at h
  cases h
  repeat' first
    | exact rfl
    | with_reducible exact Keeps.refl
    | with_reducible assumption
    | exact trivial
    | with_reducible refine keeps_issue _ _ _ _ ?_ ?_ ?_
    | with_reducible refine outKeeps_put _ _ _ ?_ ?_
    | with_reducible refine outKeeps_load _ _ _ ?_ ?_
    | with_reducible refine outKeeps_store _ _ _ ?_ ?_
    | with_reducible refine outKeeps_ifZero ?_
    | with_reducible refine outKeeps_logged _ _ _ _ _ _ (fun _ hx => ?_) (fun _ _ hx => ?_) ?_ ?_
    | with_reducible exact outKeeps_illegal _
    | simp only [keeps_regs_iff (m := 152456) rfl, keeps_evSet_iff (m := 152456) rfl, keeps_evAdd_iff (m := 152456) rfl, keeps_evPosted_iff (m := 152456) rfl, keeps_pilots_iff (m := 152456) rfl, keeps_log_iff (m := 152456) rfl]
    | with_reducible refine keeps_ite ?_ ?_
    | with_reducible refine keeps_ite_fst ?_ ?_
    | split

theorem frame_execAddi (k : Fin 16) (g : Guard) (f : FmtI) (s t : State) (h : execAddi k g f s = .next t) : Keeps 152456 s t := by
  unfold execAddi at h
  cases h
  repeat' first
    | exact rfl
    | with_reducible exact Keeps.refl
    | with_reducible assumption
    | exact trivial
    | with_reducible refine keeps_issue _ _ _ _ ?_ ?_ ?_
    | with_reducible refine outKeeps_put _ _ _ ?_ ?_

theorem frame_execAndi (k : Fin 16) (g : Guard) (f : FmtI) (s t : State) (h : execAndi k g f s = .next t) : Keeps 152456 s t := by
  unfold execAndi at h
  cases h
  repeat' first
    | exact rfl
    | with_reducible exact Keeps.refl
    | with_reducible assumption
    | exact trivial
    | with_reducible refine keeps_issue _ _ _ _ ?_ ?_ ?_
    | with_reducible refine outKeeps_put _ _ _ ?_ ?_

theorem frame_execOri (k : Fin 16) (g : Guard) (f : FmtI) (s t : State) (h : execOri k g f s = .next t) : Keeps 152456 s t := by
  unfold execOri at h
  cases h
  repeat' first
    | exact rfl
    | with_reducible exact Keeps.refl
    | with_reducible assumption
    | exact trivial
    | with_reducible refine keeps_issue _ _ _ _ ?_ ?_ ?_
    | with_reducible refine outKeeps_put _ _ _ ?_ ?_

theorem frame_execXori (k : Fin 16) (g : Guard) (f : FmtI) (s t : State) (h : execXori k g f s = .next t) : Keeps 152456 s t := by
  unfold execXori at h
  cases h
  repeat' first
    | exact rfl
    | with_reducible exact Keeps.refl
    | with_reducible assumption
    | exact trivial
    | with_reducible refine keeps_issue _ _ _ _ ?_ ?_ ?_
    | with_reducible refine outKeeps_put _ _ _ ?_ ?_

theorem frame_execShi (k : Fin 16) (g : Guard) (f : FmtI) (s t : State) (h : execShi k g f s = .next t) : Keeps 152456 s t := by
  unfold execShi at h
  cases h
  repeat' first
    | exact rfl
    | with_reducible exact Keeps.refl
    | with_reducible assumption
    | exact trivial
    | with_reducible refine keeps_issue _ _ _ _ ?_ ?_ ?_
    | with_reducible refine outKeeps_put _ _ _ ?_ ?_
    | with_reducible refine outKeeps_load _ _ _ ?_ ?_
    | with_reducible refine outKeeps_store _ _ _ ?_ ?_
    | with_reducible refine outKeeps_ifZero ?_
    | with_reducible refine outKeeps_logged _ _ _ _ _ _ (fun _ hx => ?_) (fun _ _ hx => ?_) ?_ ?_
    | with_reducible exact outKeeps_illegal _
    | dsimp only
    | with_reducible refine keeps_ite ?_ ?_
    | with_reducible refine keeps_ite_fst ?_ ?_
    | split

theorem frame_execLui (k : Fin 16) (g : Guard) (f : FmtU) (s t : State) (h : execLui k g f s = .next t) : Keeps 152456 s t := by
  unfold execLui at h
  cases h
  repeat' first
    | exact rfl
    | with_reducible exact Keeps.refl
    | with_reducible assumption
    | exact trivial
    | with_reducible refine keeps_issue _ _ _ _ ?_ ?_ ?_
    | with_reducible refine outKeeps_put _ _ _ ?_ ?_

theorem frame_execLd (k : Fin 16) (g : Guard) (f : FmtI) (s t : State) (h : execLd k g f s = .next t) : Keeps 152456 s t := by
  unfold execLd at h
  cases h
  repeat' first
    | exact rfl
    | with_reducible exact Keeps.refl
    | with_reducible assumption
    | exact trivial
    | with_reducible refine keeps_issue _ _ _ _ ?_ ?_ ?_
    | with_reducible refine outKeeps_put _ _ _ ?_ ?_
    | with_reducible refine outKeeps_load _ _ _ ?_ ?_

theorem frame_execLw (k : Fin 16) (g : Guard) (f : FmtI) (s t : State) (h : execLw k g f s = .next t) : Keeps 152456 s t := by
  unfold execLw at h
  cases h
  repeat' first
    | exact rfl
    | with_reducible exact Keeps.refl
    | with_reducible assumption
    | exact trivial
    | with_reducible refine keeps_issue _ _ _ _ ?_ ?_ ?_
    | with_reducible refine outKeeps_put _ _ _ ?_ ?_
    | with_reducible refine outKeeps_load _ _ _ ?_ ?_

theorem frame_execLh (k : Fin 16) (g : Guard) (f : FmtI) (s t : State) (h : execLh k g f s = .next t) : Keeps 152456 s t := by
  unfold execLh at h
  cases h
  repeat' first
    | exact rfl
    | with_reducible exact Keeps.refl
    | with_reducible assumption
    | exact trivial
    | with_reducible refine keeps_issue _ _ _ _ ?_ ?_ ?_
    | with_reducible refine outKeeps_put _ _ _ ?_ ?_
    | with_reducible refine outKeeps_load _ _ _ ?_ ?_

theorem frame_execLb (k : Fin 16) (g : Guard) (f : FmtI) (s t : State) (h : execLb k g f s = .next t) : Keeps 152456 s t := by
  unfold execLb at h
  cases h
  repeat' first
    | exact rfl
    | with_reducible exact Keeps.refl
    | with_reducible assumption
    | exact trivial
    | with_reducible refine keeps_issue _ _ _ _ ?_ ?_ ?_
    | with_reducible refine outKeeps_put _ _ _ ?_ ?_
    | with_reducible refine outKeeps_load _ _ _ ?_ ?_

theorem frame_execSd (k : Fin 16) (g : Guard) (f : FmtI) (s t : State) (h : execSd k g f s = .next t) : Keeps 185224 s t := by
  unfold execSd at h
  cases h
  repeat' first
    | exact rfl
    | with_reducible exact Keeps.refl
    | with_reducible assumption
    | exact trivial
    | with_reducible refine keeps_issue _ _ _ _ ?_ ?_ ?_
    | with_reducible refine outKeeps_put _ _ _ ?_ ?_
    | with_reducible refine outKeeps_load _ _ _ ?_ ?_
    | with_reducible refine outKeeps_store _ _ _ ?_ ?_

theorem frame_execSw (k : Fin 16) (g : Guard) (f : FmtI) (s t : State) (h : execSw k g f s = .next t) : Keeps 185224 s t := by
  unfold execSw at h
  cases h
  repeat' first
    | exact rfl
    | with_reducible exact Keeps.refl
    | with_reducible assumption
    | exact trivial
    | with_reducible refine keeps_issue _ _ _ _ ?_ ?_ ?_
    | with_reducible refine outKeeps_put _ _ _ ?_ ?_
    | with_reducible refine outKeeps_load _ _ _ ?_ ?_
    | with_reducible refine outKeeps_store _ _ _ ?_ ?_

theorem frame_execSh (k : Fin 16) (g : Guard) (f : FmtI) (s t : State) (h : execSh k g f s = .next t) : Keeps 185224 s t := by
  unfold execSh at h
  cases h
  repeat' first
    | exact rfl
    | with_reducible exact Keeps.refl
    | with_reducible assumption
    | exact trivial
    | with_reducible refine keeps_issue _ _ _ _ ?_ ?_ ?_
    | with_reducible refine outKeeps_put _ _ _ ?_ ?_
    | with_reducible refine outKeeps_load _ _ _ ?_ ?_
    | with_reducible refine outKeeps_store _ _ _ ?_ ?_

theorem frame_execSb (k : Fin 16) (g : Guard) (f : FmtI) (s t : State) (h : execSb k g f s = .next t) : Keeps 185224 s t := by
  unfold execSb at h
  cases h
  repeat' first
    | exact rfl
    | with_reducible exact Keeps.refl
    | with_reducible assumption
    | exact trivial
    | with_reducible refine keeps_issue _ _ _ _ ?_ ?_ ?_
    | with_reducible refine outKeeps_put _ _ _ ?_ ?_
    | with_reducible refine outKeeps_load _ _ _ ?_ ?_
    | with_reducible refine outKeeps_store _ _ _ ?_ ?_

theorem frame_execFence (k : Fin 16) (g : Guard) (f : FmtA) (s t : State) (h : execFence k g f s = .next t) : Keeps 152456 s t := by
  unfold execFence at h
  cases h
  repeat' first
    | exact rfl
    | with_reducible exact Keeps.refl
    | with_reducible assumption
    | exact trivial
    | with_reducible refine keeps_issue _ _ _ _ ?_ ?_ ?_
    | with_reducible refine outKeeps_put _ _ _ ?_ ?_
    | with_reducible refine outKeeps_load _ _ _ ?_ ?_
    | with_reducible refine outKeeps_store _ _ _ ?_ ?_
    | with_reducible refine outKeeps_ifZero ?_
    | with_reducible refine outKeeps_logged _ _ _ _ _ _ (fun _ hx => ?_) (fun _ _ hx => ?_) ?_ ?_
    | with_reducible exact outKeeps_illegal _
    | simp only [keeps_regs_iff (m := 152456) rfl, keeps_evSet_iff (m := 152456) rfl, keeps_evAdd_iff (m := 152456) rfl, keeps_evPosted_iff (m := 152456) rfl, keeps_pilots_iff (m := 152456) rfl, keeps_log_iff (m := 152456) rfl]
    | with_reducible refine keeps_ite ?_ ?_
    | with_reducible refine keeps_ite_fst ?_ ?_
    | split
    | show Keeps _ _ _

theorem frame_execPcmp (k : Fin 16) (g : Guard) (f : FmtP) (s t : State) (h : execPcmp k g f s = .next t) : Keeps 152456 s t := by
  unfold execPcmp at h
  cases h
  repeat' first
    | exact rfl
    | with_reducible exact Keeps.refl
    | with_reducible assumption
    | exact trivial
    | with_reducible refine keeps_setPred _ _ _ ?_ ?_
    | with_reducible refine keeps_issue _ _ _ _ ?_ ?_ ?_
    | with_reducible refine outKeeps_put _ _ _ ?_ ?_
    | with_reducible refine outKeeps_load _ _ _ ?_ ?_
    | with_reducible refine outKeeps_store _ _ _ ?_ ?_
    | with_reducible refine outKeeps_ifZero ?_
    | with_reducible refine outKeeps_logged _ _ _ _ _ _ (fun _ hx => ?_) (fun _ _ hx => ?_) ?_ ?_
    | with_reducible exact outKeeps_illegal _
    | simp only [keeps_regs_iff (m := 152456) rfl, keeps_evSet_iff (m := 152456) rfl, keeps_evAdd_iff (m := 152456) rfl, keeps_evPosted_iff (m := 152456) rfl, keeps_pilots_iff (m := 152456) rfl, keeps_log_iff (m := 152456) rfl]
    | with_reducible refine keeps_ite ?_ ?_
    | with_reducible refine keeps_ite_fst ?_ ?_
    | split
    | show Keeps _ _ _

theorem frame_execPcmpi (k : Fin 16) (g : Guard) (f : FmtQ) (s t : State) (h : execPcmpi k g f s = .next t) : Keeps 152456 s t := by
  unfold execPcmpi at h
  cases h
  repeat' first
    | exact rfl
    | with_reducible exact Keeps.refl
    | with_reducible assumption
    | exact trivial
    | with_reducible refine keeps_setPred _ _ _ ?_ ?_
    | with_reducible refine keeps_issue _ _ _ _ ?_ ?_ ?_
    | with_reducible refine outKeeps_put _ _ _ ?_ ?_
    | with_reducible refine outKeeps_load _ _ _ ?_ ?_
    | with_reducible refine outKeeps_store _ _ _ ?_ ?_
    | with_reducible refine outKeeps_ifZero ?_
    | with_reducible refine outKeeps_logged _ _ _ _ _ _ (fun _ hx => ?_) (fun _ _ hx => ?_) ?_ ?_
    | with_reducible exact outKeeps_illegal _
    | simp only [keeps_regs_iff (m := 152456) rfl, keeps_evSet_iff (m := 152456) rfl, keeps_evAdd_iff (m := 152456) rfl, keeps_evPosted_iff (m := 152456) rfl, keeps_pilots_iff (m := 152456) rfl, keeps_log_iff (m := 152456) rfl]
    | with_reducible refine keeps_ite ?_ ?_
    | with_reducible refine keeps_ite_fst ?_ ?_
    | split
    | show Keeps _ _ _

theorem frame_execPlog (k : Fin 16) (g : Guard) (f : FmtL) (s t : State) (h : execPlog k g f s = .next t) : Keeps 152456 s t := by
  unfold execPlog at h
  cases h
  repeat' first
    | exact rfl
    | with_reducible exact Keeps.refl
    | with_reducible assumption
    | exact trivial
    | with_reducible refine keeps_setPred _ _ _ ?_ ?_
    | with_reducible refine keeps_issue _ _ _ _ ?_ ?_ ?_
    | with_reducible refine outKeeps_put _ _ _ ?_ ?_
    | with_reducible refine outKeeps_load _ _ _ ?_ ?_
    | with_reducible refine outKeeps_store _ _ _ ?_ ?_
    | with_reducible refine outKeeps_ifZero ?_
    | with_reducible refine outKeeps_logged _ _ _ _ _ _ (fun _ hx => ?_) (fun _ _ hx => ?_) ?_ ?_
    | with_reducible exact outKeeps_illegal _
    | simp only [keeps_regs_iff (m := 152456) rfl, keeps_evSet_iff (m := 152456) rfl, keeps_evAdd_iff (m := 152456) rfl, keeps_evPosted_iff (m := 152456) rfl, keeps_pilots_iff (m := 152456) rfl, keeps_log_iff (m := 152456) rfl]
    | with_reducible refine keeps_ite ?_ ?_
    | with_reducible refine keeps_ite_fst ?_ ?_
    | split
    | show Keeps _ _ _

theorem frame_execPget (k : Fin 16) (g : Guard) (f : FmtA) (s t : State) (h : execPget k g f s = .next t) : Keeps 152456 s t := by
  unfold execPget at h
  cases h
  repeat' first
    | exact rfl
    | with_reducible exact Keeps.refl
    | with_reducible assumption
    | exact trivial
    | with_reducible refine keeps_issue _ _ _ _ ?_ ?_ ?_
    | with_reducible refine outKeeps_put _ _ _ ?_ ?_
    | with_reducible refine outKeeps_load _ _ _ ?_ ?_
    | with_reducible refine outKeeps_store _ _ _ ?_ ?_
    | with_reducible refine outKeeps_ifZero ?_

theorem frame_execBr (k : Fin 16) (g : Guard) (off : BitVec 22) (s t : State) (h : execBr k g off s = .next t) : Keeps 152456 s t := by
  unfold execBr at h
  cases h
  repeat' first
    | exact rfl
    | with_reducible exact Keeps.refl
    | with_reducible assumption
    | exact trivial
    | with_reducible refine keeps_issue _ _ _ _ ?_ ?_ ?_
    | with_reducible refine outKeeps_put _ _ _ ?_ ?_
    | with_reducible refine outKeeps_load _ _ _ ?_ ?_
    | with_reducible refine outKeeps_store _ _ _ ?_ ?_
    | with_reducible refine outKeeps_ifZero ?_
    | with_reducible refine outKeeps_logged _ _ _ _ _ _ (fun _ hx => ?_) (fun _ _ hx => ?_) ?_ ?_
    | with_reducible exact outKeeps_illegal _
    | simp only [keeps_regs_iff (m := 152456) rfl, keeps_evSet_iff (m := 152456) rfl, keeps_evAdd_iff (m := 152456) rfl, keeps_evPosted_iff (m := 152456) rfl, keeps_pilots_iff (m := 152456) rfl, keeps_log_iff (m := 152456) rfl]
    | with_reducible refine keeps_ite ?_ ?_
    | with_reducible refine keeps_ite_fst ?_ ?_
    | split
    | show Keeps _ _ _

theorem frame_execCall (k : Fin 16) (g : Guard) (off : BitVec 22) (s t : State) (h : execCall k g off s = .next t) : Keeps 152456 s t := by
  unfold execCall at h
  cases h
  repeat' first
    | exact rfl
    | with_reducible exact Keeps.refl
    | with_reducible assumption
    | exact trivial
    | with_reducible refine keeps_issue _ _ _ _ ?_ ?_ ?_
    | with_reducible refine keeps_setX _ _ _ ?_ ?_
    | with_reducible refine outKeeps_put _ _ _ ?_ ?_
    | with_reducible refine outKeeps_load _ _ _ ?_ ?_
    | with_reducible refine outKeeps_store _ _ _ ?_ ?_
    | with_reducible refine outKeeps_ifZero ?_
    | with_reducible refine outKeeps_logged _ _ _ _ _ _ (fun _ hx => ?_) (fun _ _ hx => ?_) ?_ ?_
    | with_reducible exact outKeeps_illegal _
    | simp only [keeps_regs_iff (m := 152456) rfl, keeps_evSet_iff (m := 152456) rfl, keeps_evAdd_iff (m := 152456) rfl, keeps_evPosted_iff (m := 152456) rfl, keeps_pilots_iff (m := 152456) rfl, keeps_log_iff (m := 152456) rfl]
    | with_reducible refine keeps_ite ?_ ?_
    | with_reducible refine keeps_ite_fst ?_ ?_
    | split
    | show Keeps _ _ _

theorem frame_execJr (k : Fin 16) (g : Guard) (f : FmtI) (s t : State) (h : execJr k g f s = .next t) : Keeps 152456 s t := by
  unfold execJr at h
  cases h
  repeat' first
    | exact rfl
    | with_reducible exact Keeps.refl
    | with_reducible assumption
    | exact trivial
    | with_reducible refine keeps_issue _ _ _ _ ?_ ?_ ?_
    | with_reducible refine keeps_setX _ _ _ ?_ ?_
    | with_reducible refine outKeeps_put _ _ _ ?_ ?_
    | with_reducible refine outKeeps_load _ _ _ ?_ ?_
    | with_reducible refine outKeeps_store _ _ _ ?_ ?_
    | with_reducible refine outKeeps_ifZero ?_
    | with_reducible refine outKeeps_logged _ _ _ _ _ _ (fun _ hx => ?_) (fun _ _ hx => ?_) ?_ ?_
    | with_reducible exact outKeeps_illegal _
    | dsimp only
    | with_reducible refine keeps_ite ?_ ?_
    | with_reducible refine keeps_ite_fst ?_ ?_
    | split
    | show Keeps _ _ _

theorem frame_execDpop (k : Fin 16) (g : Guard) (f : FmtA) (s t : State) (h : execDpop k g f s = .next t) : Keeps 152456 s t := by
  unfold execDpop at h
  cases h
  repeat' first
    | exact rfl
    | with_reducible exact Keeps.refl
    | with_reducible assumption
    | exact trivial
    | with_reducible refine keeps_setX _ _ _ ?_ ?_
    | with_reducible refine keeps_setPilot _ _ ?_ ?_
    | with_reducible refine keeps_issue _ _ _ _ ?_ ?_ ?_
    | with_reducible refine outKeeps_put _ _ _ ?_ ?_
    | with_reducible refine outKeeps_load _ _ _ ?_ ?_
    | with_reducible refine outKeeps_store _ _ _ ?_ ?_
    | with_reducible refine outKeeps_ifZero ?_
    | with_reducible refine outKeeps_logged _ _ _ _ _ _ (fun _ hx => ?_) (fun _ _ hx => ?_) ?_ ?_
    | with_reducible exact outKeeps_illegal _
    | dsimp only
    | with_reducible refine keeps_ite ?_ ?_
    | with_reducible refine keeps_ite_fst ?_ ?_
    | split
    | show Keeps _ _ _

theorem frame_execDpost (k : Fin 16) (g : Guard) (f : FmtA) (s t : State) (h : execDpost k g f s = .next t) : Keeps 152456 s t := by
  unfold execDpost at h
  cases h
  repeat' first
    | exact rfl
    | with_reducible exact Keeps.refl
    | with_reducible assumption
    | exact trivial
    | with_reducible refine keeps_postTo _ _ _ _ _ ?_ ?_
    | with_reducible refine keeps_issue _ _ _ _ ?_ ?_ ?_
    | with_reducible refine outKeeps_put _ _ _ ?_ ?_
    | with_reducible refine outKeeps_load _ _ _ ?_ ?_
    | with_reducible refine outKeeps_store _ _ _ ?_ ?_
    | with_reducible refine outKeeps_ifZero ?_
    | with_reducible refine outKeeps_logged _ _ _ _ _ _ (fun _ hx => ?_) (fun _ _ hx => ?_) ?_ ?_
    | with_reducible exact outKeeps_illegal _
    | simp only [keeps_regs_iff (m := 152456) rfl, keeps_evSet_iff (m := 152456) rfl, keeps_evAdd_iff (m := 152456) rfl, keeps_evPosted_iff (m := 152456) rfl, keeps_pilots_iff (m := 152456) rfl, keeps_log_iff (m := 152456) rfl]
    | with_reducible refine keeps_ite ?_ ?_
    | with_reducible refine keeps_ite_fst ?_ ?_
    | split
    | show Keeps _ _ _

theorem frame_execDcnt (k : Fin 16) (g : Guard) (f : FmtA) (s t : State) (h : execDcnt k g f s = .next t) : Keeps 152456 s t := by
  unfold execDcnt at h
  cases h
  repeat' first
    | exact rfl
    | with_reducible exact Keeps.refl
    | with_reducible assumption
    | exact trivial
    | with_reducible refine keeps_issue _ _ _ _ ?_ ?_ ?_
    | with_reducible refine outKeeps_put _ _ _ ?_ ?_
    | with_reducible refine outKeeps_load _ _ _ ?_ ?_
    | with_reducible refine outKeeps_store _ _ _ ?_ ?_
    | with_reducible refine outKeeps_ifZero ?_

theorem frame_execWait (k : Fin 16) (g : Guard) (f : FmtA) (s t : State) (h : execWait k g f s = .next t) : Keeps 152456 s t := by
  unfold execWait at h
  cases h
  repeat' first
    | exact rfl
    | with_reducible exact Keeps.refl
    | with_reducible assumption
    | exact trivial
    | with_reducible refine keeps_issue _ _ _ _ ?_ ?_ ?_
    | with_reducible refine keeps_waitFrom _ _ _ ?_ ?_
    | with_reducible refine outKeeps_put _ _ _ ?_ ?_
    | with_reducible refine outKeeps_load _ _ _ ?_ ?_
    | with_reducible refine outKeeps_store _ _ _ ?_ ?_
    | with_reducible refine outKeeps_ifZero ?_
    | with_reducible refine outKeeps_logged _ _ _ _ _ _ (fun _ hx => ?_) (fun _ _ hx => ?_) ?_ ?_
    | with_reducible exact outKeeps_illegal _
    | simp only [keeps_regs_iff (m := 152456) rfl, keeps_evSet_iff (m := 152456) rfl, keeps_evAdd_iff (m := 152456) rfl, keeps_evPosted_iff (m := 152456) rfl, keeps_pilots_iff (m := 152456) rfl, keeps_log_iff (m := 152456) rfl]
    | with_reducible refine keeps_ite ?_ ?_
    | with_reducible refine keeps_ite_fst ?_ ?_
    | split
    | show Keeps _ _ _

theorem frame_execWaitu (k : Fin 16) (g : Guard) (f : FmtA) (s t : State) (h : execWaitu k g f s = .next t) : Keeps 152456 s t := by
  unfold execWaitu at h
  cases h
  repeat' first
    | exact rfl
    | with_reducible exact Keeps.refl
    | with_reducible assumption
    | exact trivial
    | with_reducible refine keeps_issue _ _ _ _ ?_ ?_ ?_
    | with_reducible refine keeps_waitFrom _ _ _ ?_ ?_
    | with_reducible refine outKeeps_put _ _ _ ?_ ?_
    | with_reducible refine outKeeps_load _ _ _ ?_ ?_
    | with_reducible refine outKeeps_store _ _ _ ?_ ?_
    | with_reducible refine outKeeps_ifZero ?_
    | with_reducible refine outKeeps_logged _ _ _ _ _ _ (fun _ hx => ?_) (fun _ _ hx => ?_) ?_ ?_
    | with_reducible exact outKeeps_illegal _
    | simp only [keeps_regs_iff (m := 152456) rfl, keeps_evSet_iff (m := 152456) rfl, keeps_evAdd_iff (m := 152456) rfl, keeps_evPosted_iff (m := 152456) rfl, keeps_pilots_iff (m := 152456) rfl, keeps_log_iff (m := 152456) rfl]
    | with_reducible refine keeps_ite ?_ ?_
    | with_reducible refine keeps_ite_fst ?_ ?_
    | split
    | show Keeps _ _ _

theorem frame_execTide (k : Fin 16) (g : Guard) (f : FmtA) (s t : State) (h : execTide k g f s = .next t) : Keeps 152456 s t := by
  unfold execTide at h
  cases h
  repeat' first
    | exact rfl
    | with_reducible exact Keeps.refl
    | with_reducible assumption
    | exact trivial
    | with_reducible refine keeps_issue _ _ _ _ ?_ ?_ ?_
    | with_reducible refine outKeeps_put _ _ _ ?_ ?_
    | with_reducible refine outKeeps_load _ _ _ ?_ ?_
    | with_reducible refine outKeeps_store _ _ _ ?_ ?_
    | with_reducible refine outKeeps_ifZero ?_

theorem frame_execTimr (k : Fin 16) (g : Guard) (f : FmtA) (s t : State) (h : execTimr k g f s = .next t) : Keeps 152456 s t := by
  unfold execTimr at h
  cases h
  repeat' first
    | exact rfl
    | with_reducible exact Keeps.refl
    | with_reducible assumption
    | exact trivial
    | with_reducible refine keeps_issue _ _ _ _ ?_ ?_ ?_
    | with_reducible refine outKeeps_put _ _ _ ?_ ?_
    | with_reducible refine outKeeps_load _ _ _ ?_ ?_
    | with_reducible refine outKeeps_store _ _ _ ?_ ?_
    | with_reducible refine outKeeps_ifZero ?_
    | with_reducible refine outKeeps_logged _ _ _ _ _ _ (fun _ hx => ?_) (fun _ _ hx => ?_) ?_ ?_

theorem frame_execMfld (k : Fin 16) (g : Guard) (f : FmtI) (s t : State) (h : execMfld k g f s = .next t) : Keeps 152456 s t := by
  unfold execMfld at h
  cases h
  repeat' first
    | exact rfl
    | with_reducible exact Keeps.refl
    | with_reducible assumption
    | exact trivial
    | with_reducible refine keeps_issue _ _ _ _ ?_ ?_ ?_
    | with_reducible refine outKeeps_put _ _ _ ?_ ?_
    | with_reducible refine outKeeps_load _ _ _ ?_ ?_
    | with_reducible refine outKeeps_store _ _ _ ?_ ?_
    | with_reducible refine outKeeps_ifZero ?_
    | with_reducible refine outKeeps_logged _ _ _ _ _ _ (fun _ hx => ?_) (fun _ _ hx => ?_) ?_ ?_

theorem frame_execTxb (k : Fin 16) (g : Guard) (f : FmtA) (s t : State) (h : execTxb k g f s = .next t) : Keeps 152456 s t := by
  unfold execTxb at h
  cases h
  repeat' first
    | exact rfl
    | with_reducible exact Keeps.refl
    | with_reducible assumption
    | exact trivial
    | with_reducible refine keeps_txnBegin _ ?_ ?_
    | (with_reducible refine keeps_txnBegin' (by assumption) ?_ ?_)
    | with_reducible refine keeps_issue _ _ _ _ ?_ ?_ ?_
    | with_reducible refine outKeeps_put _ _ _ ?_ ?_
    | with_reducible refine outKeeps_load _ _ _ ?_ ?_
    | with_reducible refine outKeeps_store _ _ _ ?_ ?_
    | with_reducible refine outKeeps_ifZero ?_
    | with_reducible refine outKeeps_logged _ _ _ _ _ _ (fun _ hx => ?_) (fun _ _ hx => ?_) ?_ ?_

theorem frame_execTxc (k : Fin 16) (g : Guard) (f : FmtA) (s t : State) (h : execTxc k g f s = .next t) : Keeps 152456 s t := by
  unfold execTxc at h
  cases h
  repeat' first
    | exact rfl
    | with_reducible exact Keeps.refl
    | with_reducible assumption
    | exact trivial
    | with_reducible refine keeps_commit _ _ _ _ ?_ ?_
    | (with_reducible refine keeps_commit' (by assumption) ?_ ?_)
    | with_reducible refine keeps_issue _ _ _ _ ?_ ?_ ?_
    | with_reducible refine outKeeps_put _ _ _ ?_ ?_
    | with_reducible refine outKeeps_load _ _ _ ?_ ?_
    | with_reducible refine outKeeps_store _ _ _ ?_ ?_
    | with_reducible refine outKeeps_ifZero ?_
    | with_reducible refine outKeeps_logged _ _ _ _ _ _ (fun _ hx => ?_) (fun _ _ hx => ?_) ?_ ?_

theorem frame_execTxr (k : Fin 16) (g : Guard) (f : FmtA) (s t : State) (h : execTxr k g f s = .next t) : Keeps 152456 s t := by
  unfold execTxr at h
  cases h
  repeat' first
    | exact rfl
    | with_reducible exact Keeps.refl
    | with_reducible assumption
    | exact trivial
    | with_reducible refine keeps_issue _ _ _ _ ?_ ?_ ?_
    | with_reducible refine keeps_txnRollback _ ?_ ?_
    | (with_reducible refine keeps_txnRollback' (by assumption) ?_ ?_)
    | with_reducible refine outKeeps_put _ _ _ ?_ ?_
    | with_reducible refine outKeeps_load _ _ _ ?_ ?_
    | with_reducible refine outKeeps_store _ _ _ ?_ ?_
    | with_reducible refine outKeeps_ifZero ?_
    | with_reducible refine outKeeps_logged _ _ _ _ _ _ (fun _ hx => ?_) (fun _ _ hx => ?_) ?_ ?_

theorem frame_execTxw (k : Fin 16) (g : Guard) (f : FmtA) (s t : State) (h : execTxw k g f s = .next t) : Keeps 152456 s t := by
  unfold execTxw at h
  cases h
  repeat' first
    | exact rfl
    | with_reducible exact Keeps.refl
    | with_reducible assumption
    | exact trivial
    | with_reducible refine keeps_issue _ _ _ _ ?_ ?_ ?_
    | with_reducible refine keeps_withdraw _ _ ?_ ?_
    | (with_reducible refine keeps_withdraw' (by assumption) ?_ ?_)
    | with_reducible refine outKeeps_put _ _ _ ?_ ?_
    | with_reducible refine outKeeps_load _ _ _ ?_ ?_
    | with_reducible refine outKeeps_store _ _ _ ?_ ?_
    | with_reducible refine outKeeps_ifZero ?_
    | with_reducible refine outKeeps_logged _ _ _ _ _ _ (fun _ hx => ?_) (fun _ _ hx => ?_) ?_ ?_

theorem frame_execBcmdAllocate (k : Fin 16) (g : Guard) (f : FmtA) (s t : State) (h : execBcmdAllocate k g f s = .next t) : Keeps 187272 s t := by
  unfold execBcmdAllocate at h
  cases h
  repeat' first
    | exact rfl
    | with_reducible exact Keeps.refl
    | with_reducible assumption
    | exact trivial
    | with_reducible refine keeps_bcmdReplay _ _ _ _ ?_ ?_
    | with_reducible refine keeps_allocate _ _ _ _ _ ?_ ?_
    | (with_reducible refine keeps_allocate' (by assumption) ?_ ?_)
    | with_reducible refine keeps_issue _ _ _ _ ?_ ?_ ?_
    | with_reducible refine outKeeps_put _ _ _ ?_ ?_
    | with_reducible refine outKeeps_load _ _ _ ?_ ?_
    | with_reducible refine outKeeps_store _ _ _ ?_ ?_
    | with_reducible refine outKeeps_ifZero ?_
    | with_reducible refine outKeeps_logged _ _ _ _ _ _ (fun _ hx => ?_) (fun _ _ hx => ?_) ?_ ?_
    | with_reducible exact outKeeps_illegal _
    | dsimp only
    | with_reducible refine keeps_ite ?_ ?_
    | with_reducible refine keeps_ite_fst ?_ ?_
    | split

theorem frame_execBcmdFree (k : Fin 16) (g : Guard) (f : FmtA) (s t : State) (h : execBcmdFree k g f s = .next t) : Keeps 154504 s t := by
  unfold execBcmdFree at h
  cases h
  repeat' first
    | exact rfl
    | with_reducible exact Keeps.refl
    | with_reducible assumption
    | exact trivial
    | with_reducible refine keeps_issue _ _ _ _ ?_ ?_ ?_
    | with_reducible refine keeps_free _ _ ?_ ?_
    | (with_reducible refine keeps_free' (by assumption) ?_ ?_)
    | with_reducible refine outKeeps_put _ _ _ ?_ ?_
    | with_reducible refine outKeeps_load _ _ _ ?_ ?_
    | with_reducible refine outKeeps_store _ _ _ ?_ ?_
    | with_reducible refine outKeeps_ifZero ?_
    | with_reducible refine outKeeps_logged _ _ _ _ _ _ (fun _ hx => ?_) (fun _ _ hx => ?_) ?_ ?_
    | with_reducible exact outKeeps_illegal _
    | dsimp only
    | with_reducible refine keeps_ite ?_ ?_
    | with_reducible refine keeps_ite_fst ?_ ?_
    | split

theorem frame_execBcmdQuery (k : Fin 16) (g : Guard) (f : FmtA) (s t : State) (h : execBcmdQuery k g f s = .next t) : Keeps 187272 s t := by
  unfold execBcmdQuery at h
  cases h
  repeat' first
    | exact rfl
    | with_reducible exact Keeps.refl
    | with_reducible assumption
    | exact trivial
    | with_reducible refine keeps_bcmdReplay _ _ _ _ ?_ ?_
    | with_reducible refine keeps_storeAt _ _ _ ?_ ?_
    | with_reducible refine keeps_issue _ _ _ _ ?_ ?_ ?_
    | with_reducible refine outKeeps_put _ _ _ ?_ ?_
    | with_reducible refine outKeeps_load _ _ _ ?_ ?_
    | with_reducible refine outKeeps_store _ _ _ ?_ ?_
    | with_reducible refine outKeeps_ifZero ?_
    | with_reducible refine outKeeps_logged _ _ _ _ _ _ (fun _ hx => ?_) (fun _ _ hx => ?_) ?_ ?_
    | with_reducible exact outKeeps_illegal _
    | simp only [keeps_regs_iff (m := 187272) rfl]
    | with_reducible refine keeps_ite ?_ ?_
    | with_reducible refine keeps_ite_fst ?_ ?_
    | split

theorem frame_execPmov (k : Fin 16) (g : Guard) (f : FmtA) (s t : State) (h : execPmov k g f s = .next t) : Keeps 154504 s t := by
  unfold execPmov at h
  cases h
  repeat' first
    | exact rfl
    | with_reducible exact Keeps.refl
    | with_reducible assumption
    | exact trivial
    | with_reducible refine keeps_moveAcquire _ _ ?_ ?_
    | (with_reducible refine keeps_moveAcquire' (by assumption) ?_ ?_)
    | with_reducible refine keeps_setPilot _ _ ?_ ?_
    | with_reducible refine keeps_issue _ _ _ _ ?_ ?_ ?_
    | with_reducible refine outKeeps_put _ _ _ ?_ ?_
    | with_reducible refine outKeeps_load _ _ _ ?_ ?_
    | with_reducible refine outKeeps_store _ _ _ ?_ ?_
    | with_reducible refine outKeeps_ifZero ?_
    | with_reducible refine outKeeps_logged _ _ _ _ _ _ (fun _ hx => ?_) (fun _ _ hx => ?_) ?_ ?_
    | with_reducible exact outKeeps_illegal _
    | dsimp only
    | with_reducible refine keeps_ite ?_ ?_
    | with_reducible refine keeps_ite_fst ?_ ?_
    | split

theorem frame_execHinit (k : Fin 16) (g : Guard) (f : FmtA) (s t : State) (h : execHinit k g f s = .next t) : Keeps 152456 s t := by
  unfold execHinit at h
  cases h
  repeat' first
    | exact rfl
    | with_reducible exact Keeps.refl
    | with_reducible assumption
    | exact trivial
    | with_reducible refine keeps_hashReset _ _ ?_ ?_
    | with_reducible refine keeps_issue _ _ _ _ ?_ ?_ ?_
    | with_reducible refine outKeeps_put _ _ _ ?_ ?_
    | with_reducible refine outKeeps_load _ _ _ ?_ ?_
    | with_reducible refine outKeeps_store _ _ _ ?_ ?_
    | with_reducible refine outKeeps_ifZero ?_
    | with_reducible refine outKeeps_logged _ _ _ _ _ _ (fun _ hx => ?_) (fun _ _ hx => ?_) ?_ ?_
    | with_reducible exact outKeeps_illegal _
    | simp only [keeps_regs_iff (m := 152456) rfl, keeps_evSet_iff (m := 152456) rfl, keeps_evAdd_iff (m := 152456) rfl, keeps_evPosted_iff (m := 152456) rfl, keeps_pilots_iff (m := 152456) rfl, keeps_log_iff (m := 152456) rfl]
    | with_reducible refine keeps_ite ?_ ?_
    | with_reducible refine keeps_ite_fst ?_ ?_
    | split
    | show Keeps _ _ _

theorem frame_execHupd (k : Fin 16) (g : Guard) (f : FmtA) (s t : State) (h : execHupd k g f s = .next t) : Keeps 152456 s t := by
  unfold execHupd at h
  cases h
  repeat' first
    | exact rfl
    | with_reducible exact Keeps.refl
    | with_reducible assumption
    | exact trivial
    | with_reducible refine keeps_setPilot _ _ ?_ ?_
    | with_reducible refine keeps_issue _ _ _ _ ?_ ?_ ?_
    | with_reducible refine outKeeps_put _ _ _ ?_ ?_
    | with_reducible refine outKeeps_load _ _ _ ?_ ?_
    | with_reducible refine outKeeps_store _ _ _ ?_ ?_
    | with_reducible refine outKeeps_ifZero ?_
    | with_reducible refine outKeeps_logged _ _ _ _ _ _ (fun _ hx => ?_) (fun _ _ hx => ?_) ?_ ?_
    | with_reducible exact outKeeps_illegal _
    | dsimp only
    | with_reducible refine keeps_ite ?_ ?_
    | with_reducible refine keeps_ite_fst ?_ ?_
    | split
    | show Keeps _ _ _

theorem frame_execHfin (k : Fin 16) (g : Guard) (f : FmtA) (s t : State) (h : execHfin k g f s = .next t) : Keeps 185224 s t := by
  unfold execHfin at h
  cases h
  repeat' first
    | exact rfl
    | with_reducible exact Keeps.refl
    | with_reducible assumption
    | exact trivial
    | with_reducible refine keeps_hashReset _ _ ?_ ?_
    | with_reducible refine keeps_issue _ _ _ _ ?_ ?_ ?_
    | with_reducible refine keeps_storeAt _ _ _ ?_ ?_
    | with_reducible refine outKeeps_put _ _ _ ?_ ?_
    | with_reducible refine outKeeps_load _ _ _ ?_ ?_
    | with_reducible refine outKeeps_store _ _ _ ?_ ?_
    | with_reducible refine outKeeps_ifZero ?_
    | with_reducible refine outKeeps_logged _ _ _ _ _ _ (fun _ hx => ?_) (fun _ _ hx => ?_) ?_ ?_
    | with_reducible exact outKeeps_illegal _
    | dsimp only
    | with_reducible refine keeps_ite ?_ ?_
    | with_reducible refine keeps_ite_fst ?_ ?_
    | split

theorem frame_execCsrr (k : Fin 16) (g : Guard) (f : FmtA) (s t : State) (h : execCsrr k g f s = .next t) : Keeps 152456 s t := by
  unfold execCsrr at h
  cases h
  repeat' first
    | exact rfl
    | with_reducible exact Keeps.refl
    | with_reducible assumption
    | exact trivial
    | with_reducible refine keeps_issue _ _ _ _ ?_ ?_ ?_
    | with_reducible refine outKeeps_put _ _ _ ?_ ?_
    | with_reducible refine outKeeps_load _ _ _ ?_ ?_
    | with_reducible refine outKeeps_store _ _ _ ?_ ?_
    | with_reducible refine outKeeps_ifZero ?_
    | with_reducible refine outKeeps_logged _ _ _ _ _ _ (fun _ hx => ?_) (fun _ _ hx => ?_) ?_ ?_
    | with_reducible exact outKeeps_illegal _
    | simp only [keeps_regs_iff (m := 152456) rfl, keeps_evSet_iff (m := 152456) rfl, keeps_evAdd_iff (m := 152456) rfl, keeps_evPosted_iff (m := 152456) rfl, keeps_pilots_iff (m := 152456) rfl, keeps_log_iff (m := 152456) rfl]
    | with_reducible refine keeps_ite ?_ ?_
    | with_reducible refine keeps_ite_fst ?_ ?_
    | split

theorem frame_execCsrw (k : Fin 16) (g : Guard) (f : FmtA) (s t : State) (h : execCsrw k g f s = .next t) : Keeps 152456 s t := by
  unfold execCsrw at h
  cases h
  refine keeps_issue _ _ _ _ ?_ Keeps.refl rfl
  split
  · rename_i s' e
    refine outKeeps_ifZero ?_
    unfold State.csrWrite at e
    dsimp only at e
    split at e
    · cases e; exact keeps_setPilot _ _ Keeps.refl rfl
    · cases e; exact keeps_setPilot _ _ Keeps.refl rfl
    · cases e; exact keeps_setPilot _ _ Keeps.refl rfl
    · cases e
  · trivial

theorem frame_execTrap (k : Fin 16) (g : Guard) (f : FmtU) (s t : State) (h : execTrap k g f s = .next t) : Keeps 152456 s t := by
  unfold execTrap at h
  cases h
  repeat' first
    | exact rfl
    | with_reducible exact Keeps.refl
    | with_reducible assumption
    | exact trivial
    | with_reducible refine keeps_setPilot _ _ ?_ ?_
    | with_reducible refine keeps_retireTo _ _ ?_ ?_
    | with_reducible refine keeps_issue _ _ _ _ ?_ ?_ ?_
    | with_reducible refine keeps_takeExc _ _ _ _ ?_ ?_
    | with_reducible refine outKeeps_put _ _ _ ?_ ?_
    | with_reducible refine outKeeps_load _ _ _ ?_ ?_
    | with_reducible refine outKeeps_store _ _ _ ?_ ?_
    | with_reducible refine outKeeps_ifZero ?_
    | with_reducible refine outKeeps_logged _ _ _ _ _ _ (fun _ hx => ?_) (fun _ _ hx => ?_) ?_ ?_
    | with_reducible exact outKeeps_illegal _
    | dsimp only
    | with_reducible refine keeps_ite ?_ ?_
    | with_reducible refine keeps_ite_fst ?_ ?_
    | split
    | show Keeps _ _ _

theorem frame_execEret (k : Fin 16) (g : Guard) (f : FmtA) (s t : State) (h : execEret k g f s = .next t) : Keeps 152456 s t := by
  unfold execEret at h
  cases h
  repeat' first
    | exact rfl
    | with_reducible exact Keeps.refl
    | with_reducible assumption
    | exact trivial
    | with_reducible refine keeps_setPilot _ _ ?_ ?_
    | with_reducible refine keeps_issue _ _ _ _ ?_ ?_ ?_
    | with_reducible refine outKeeps_put _ _ _ ?_ ?_
    | with_reducible refine outKeeps_load _ _ _ ?_ ?_
    | with_reducible refine outKeeps_store _ _ _ ?_ ?_
    | with_reducible refine outKeeps_ifZero ?_
    | with_reducible refine outKeeps_logged _ _ _ _ _ _ (fun _ hx => ?_) (fun _ _ hx => ?_) ?_ ?_
    | with_reducible exact outKeeps_illegal _
    | simp only [keeps_regs_iff (m := 152456) rfl, keeps_evSet_iff (m := 152456) rfl, keeps_evAdd_iff (m := 152456) rfl, keeps_evPosted_iff (m := 152456) rfl, keeps_pilots_iff (m := 152456) rfl, keeps_log_iff (m := 152456) rfl]
    | with_reducible refine keeps_ite ?_ ?_
    | with_reducible refine keeps_ite_fst ?_ ?_
    | split
    | show Keeps _ _ _

theorem frame_execRand (k : Fin 16) (g : Guard) (f : FmtA) (s t : State) (h : execRand k g f s = .next t) : Keeps 152460 s t := by
  unfold execRand at h
  cases h
  repeat' first
    | exact rfl
    | with_reducible exact Keeps.refl
    | with_reducible assumption
    | exact trivial
    | with_reducible refine keeps_issue _ _ _ _ ?_ ?_ ?_
    | with_reducible refine keeps_nextFree ?_ ?_
    | with_reducible refine outKeeps_put _ _ _ ?_ ?_
    | with_reducible refine outKeeps_load _ _ _ ?_ ?_
    | with_reducible refine outKeeps_store _ _ _ ?_ ?_
    | with_reducible refine outKeeps_ifZero ?_
    | with_reducible refine outKeeps_logged _ _ _ _ _ _ (fun _ hx => ?_) (fun _ _ hx => ?_) ?_ ?_

theorem frame_execHalt (k : Fin 16) (g : Guard) (f : FmtA) (s t : State) (h : execHalt k g f s = .next t) : Keeps 152456 s t := by
  unfold execHalt at h
  cases h
  repeat' first
    | exact rfl
    | with_reducible exact Keeps.refl
    | with_reducible assumption
    | exact trivial
    | with_reducible refine keeps_halt _ _ _ ?_ ?_
    | with_reducible refine keeps_setPilot _ _ ?_ ?_
    | with_reducible refine keeps_issue _ _ _ _ ?_ ?_ ?_
    | with_reducible refine outKeeps_put _ _ _ ?_ ?_
    | with_reducible refine outKeeps_load _ _ _ ?_ ?_
    | with_reducible refine outKeeps_store _ _ _ ?_ ?_
    | with_reducible refine outKeeps_ifZero ?_
    | with_reducible refine outKeeps_logged _ _ _ _ _ _ (fun _ hx => ?_) (fun _ _ hx => ?_) ?_ ?_
    | with_reducible exact outKeeps_illegal _
    | dsimp only
    | with_reducible refine keeps_ite ?_ ?_
    | with_reducible refine keeps_ite_fst ?_ ?_
    | split
    | show Keeps _ _ _

theorem frame_execMemRequest (q : Fin 48) (addr : Nat) (half : Bool) (write : Bool) (ecc : Fin 3) (s t : State) (h : execMemRequest q addr half write ecc s = .next t) : Keeps 268435456 s t := by
  unfold execMemRequest at h
  split at h
  · cases h
  · cases h
    exact keeps_memRequest _ _ _ _ _ Keeps.refl rfl

theorem frame_execUrgencyEscalate  (s t : State) (h : execUrgencyEscalate s = .next t) : Keeps 268435456 s t := by
  unfold execUrgencyEscalate at h
  cases h
  repeat' first
    | exact rfl
    | with_reducible exact Keeps.refl
    | with_reducible assumption
    | exact trivial
    | with_reducible refine keeps_escalateAll ?_ ?_

theorem frame_execReserveWindow (q : Fin 48) (s t : State) (h : execReserveWindow q s = .next t) : Keeps 268435456 s t := by
  unfold execReserveWindow at h
  cases h
  repeat' first
    | exact rfl
    | with_reducible exact Keeps.refl
    | with_reducible assumption
    | exact trivial
    | simp only [keeps_memsys_iff (m := 268435456) rfl]

theorem frame_execMemPageIdle (c : Fin 6) (pc : Fin 32) (b : Fin 64) (s t : State) (h : execMemPageIdle c pc b s = .next t) : Keeps 268435456 s t := by
  unfold execMemPageIdle at h
  cases h
  repeat' first
    | exact rfl
    | with_reducible exact Keeps.refl
    | with_reducible assumption
    | exact trivial
    | with_reducible refine keeps_pageIdle _ _ ?_ ?_

theorem frame_execMemRefresh (c : Fin 6) (pc : Fin 32) (b : Fin 64) (limit : Bool) (s t : State) (h : execMemRefresh c pc b limit s = .next t) : Keeps 268435720 s t := by
  unfold execMemRefresh at h
  cases h
  repeat' first
    | exact rfl
    | with_reducible exact Keeps.refl
    | with_reducible assumption
    | exact trivial
    | with_reducible refine keeps_memRefresh _ _ _ ?_ ?_

theorem frame_execMemIdleWindow (c : Fin 6) (pc : Fin 32) (s t : State) (h : execMemIdleWindow c pc s = .next t) : Keeps 271729544 s t := by
  unfold execMemIdleWindow at h
  cases h
  repeat' first
    | exact rfl
    | with_reducible exact Keeps.refl
    | with_reducible assumption
    | exact trivial
    | with_reducible refine keeps_idleWindow _ _ ?_ ?_

theorem frame_execMemRetrainDone (c : Fin 6) (ok : Bool) (s t : State) (h : execMemRetrainDone c ok s = .next t) : Keeps 17288 s t := by
  unfold execMemRetrainDone at h
  cases h
  repeat' first
    | exact rfl
    | with_reducible exact Keeps.refl
    | with_reducible assumption
    | exact trivial
    | with_reducible refine keeps_memRetrainDone _ _ ?_ ?_

theorem frame_execTwbXferStart (b : Fin 8) (line : TwbLine) (lost : Option TwbLoss) (s t : State) (h : execTwbXferStart b line lost s = .next t) : Keeps 34359755656 s t := by
  unfold execTwbXferStart at h
  cases h
  repeat' first
    | exact rfl
    | with_reducible exact Keeps.refl
    | with_reducible assumption
    | exact trivial
    | with_reducible refine keeps_twbStart _ _ _ ?_ ?_

theorem frame_execTwbXferDone (b : Fin 8) (a : TwbAnswer) (s t : State) (h : execTwbXferDone b a s = .next t) : Keeps 34359755656 s t := by
  unfold execTwbXferDone at h
  cases h
  repeat' first
    | exact rfl
    | with_reducible exact Keeps.refl
    | with_reducible assumption
    | exact trivial
    | with_reducible refine keeps_twbDone _ _ ?_ ?_

theorem frame_execTwbTargetWrite (b : Fin 8) (general : Bool) (bytes : List Byte) (s t : State) (h : execTwbTargetWrite b general bytes s = .next t) : Keeps 34359755016 s t := by
  unfold execTwbTargetWrite at h
  cases h
  repeat' first
    | exact rfl
    | with_reducible exact Keeps.refl
    | with_reducible assumption
    | exact trivial
    | with_reducible refine keeps_targetWrite _ _ _ ?_ ?_

theorem frame_execTwbTargetRead (b : Fin 8) (n : Nat) (s t : State) (h : execTwbTargetRead b n s = .next t) : Keeps 34359738632 s t := by
  unfold execTwbTargetRead at h
  cases h
  repeat' first
    | exact rfl
    | with_reducible exact Keeps.refl
    | with_reducible assumption
    | exact trivial
    | with_reducible refine keeps_targetRead _ _ ?_ ?_

theorem frame_execTwbStretchTimeout (b : Fin 8) (s t : State) (h : execTwbStretchTimeout b s = .next t) : Keeps 34359755656 s t := by
  unfold execTwbStretchTimeout at h
  cases h
  repeat' first
    | exact rfl
    | with_reducible exact Keeps.refl
    | with_reducible assumption
    | exact trivial
    | with_reducible refine keeps_twbStretch _ ?_ ?_

theorem frame_execSclStuck (b : Fin 8) (s t : State) (h : execSclStuck b s = .next t) : Keeps 34359755656 s t := by
  unfold execSclStuck at h
  cases h
  repeat' first
    | exact rfl
    | with_reducible exact Keeps.refl
    | with_reducible assumption
    | exact trivial
    | with_reducible refine keeps_twbFaulted _ _ ?_ ?_

theorem frame_execTwbSupplyFault (b : Fin 8) (s t : State) (h : execTwbSupplyFault b s = .next t) : Keeps 34359755656 s t := by
  unfold execTwbSupplyFault at h
  cases h
  repeat' first
    | exact rfl
    | with_reducible exact Keeps.refl
    | with_reducible assumption
    | exact trivial
    | with_reducible refine keeps_twbFaulted _ _ ?_ ?_

theorem frame_execTwbFaultRecover (b : Fin 8) (s t : State) (h : execTwbFaultRecover b s = .next t) : Keeps 8 s t := by
  unfold execTwbFaultRecover at h
  cases h
  repeat' first
    | exact rfl
    | with_reducible exact Keeps.refl
    | with_reducible assumption
    | exact trivial
    | with_reducible refine keeps_twbRecover _ ?_ ?_

theorem frame_execPowerOn  (s t : State) (h : execPowerOn s = .next t) : Keeps 274877906940 s t := by
  unfold execPowerOn at h
  cases h
  repeat' first
    | exact rfl
    | with_reducible exact Keeps.refl
    | with_reducible assumption
    | exact trivial
    | with_reducible refine keeps_coldReset _ _ ?_ ?_
    | with_reducible refine keeps_setPwr _ ?_ ?_
    | with_reducible refine keeps_setWord _ _ ?_ ?_

theorem frame_execResetPinAssert  (s t : State) (h : execResetPinAssert s = .next t) : Keeps 274877906940 s t := by
  unfold execResetPinAssert at h
  cases h
  repeat' first
    | exact rfl
    | with_reducible exact Keeps.refl
    | with_reducible assumption
    | exact trivial
    | with_reducible refine keeps_coldReset _ _ ?_ ?_

theorem frame_execResetPinRelease (banks : Word) (s t : State) (h : execResetPinRelease banks s = .next t) : Keeps 137438953472 s t := by
  unfold execResetPinRelease at h
  cases h
  repeat' first
    | exact rfl
    | with_reducible exact Keeps.refl
    | with_reducible assumption
    | exact trivial
    | with_reducible refine keeps_endHold _ _ ?_ ?_
    | simp only [keeps_pwr_iff (m := 137438953472) rfl]
    | with_reducible refine keeps_ite ?_ ?_

theorem frame_execBrownout (first : List Nat) (second : List Nat) (s t : State) (h : execBrownout first second s = .next t) : Keeps 274877906940 s t := by
  unfold execBrownout at h
  cases h
  repeat' first
    | exact rfl
    | with_reducible exact Keeps.refl
    | with_reducible assumption
    | exact trivial
    | with_reducible refine keeps_brownout _ _ ?_ ?_

theorem frame_execBrownoutRelease (banks : Word) (s t : State) (h : execBrownoutRelease banks s = .next t) : Keeps 137438953472 s t := by
  unfold execBrownoutRelease at h
  cases h
  repeat' first
    | exact rfl
    | with_reducible exact Keeps.refl
    | with_reducible assumption
    | exact trivial
    | with_reducible refine keeps_endHold _ _ ?_ ?_
    | simp only [keeps_pwr_iff (m := 137438953472) rfl]
    | with_reducible refine keeps_ite ?_ ?_

theorem frame_execSleepEntryDone  (s t : State) (h : execSleepEntryDone s = .next t) : Keeps 137438953480 s t := by
  unfold execSleepEntryDone at h
  cases h
  repeat' first
    | exact rfl
    | with_reducible exact Keeps.refl
    | with_reducible assumption
    | exact trivial
    | with_reducible refine keeps_sleepDone ?_ ?_

theorem frame_execWakeGpio (n : Fin 160) (s t : State) (h : execWakeGpio n s = .next t) : Keeps 137438953480 s t := by
  unfold execWakeGpio at h
  cases h
  repeat' first
    | exact rfl
    | with_reducible exact Keeps.refl
    | with_reducible assumption
    | exact trivial
    | with_reducible refine keeps_wakeGpio _ ?_ ?_

theorem frame_execWakeReset (banks : Word) (s t : State) (h : execWakeReset banks s = .next t) : Keeps 274877906940 s t := by
  unfold execWakeReset at h
  cases h
  repeat' first
    | exact rfl
    | with_reducible exact Keeps.refl
    | with_reducible assumption
    | exact trivial
    | with_reducible refine keeps_wakeUp _ ?_ ?_

theorem frame_execTwbWakeMatch (b : Fin 8) (s t : State) (h : execTwbWakeMatch b s = .next t) : Keeps 171798691848 s t := by
  unfold execTwbWakeMatch at h
  cases h
  repeat' first
    | exact rfl
    | with_reducible exact Keeps.refl
    | with_reducible assumption
    | exact trivial
    | with_reducible refine keeps_twbWake _ ?_ ?_

theorem frame_execWdogExpiry  (s t : State) (h : execWdogExpiry s = .next t) : Keeps 274877906940 s t := by
  unfold execWdogExpiry at h
  cases h
  repeat' first
    | exact rfl
    | with_reducible exact Keeps.refl
    | with_reducible assumption
    | exact trivial
    | with_reducible refine keeps_wdogExpiry ?_ ?_

theorem frame_execVcoreVidStep  (s t : State) (h : execVcoreVidStep s = .next t) : Keeps 137438953480 s t := by
  unfold execVcoreVidStep at h
  cases h
  repeat' first
    | exact rfl
    | with_reducible exact Keeps.refl
    | with_reducible assumption
    | exact trivial
    | with_reducible refine keeps_vidStep ?_ ?_

theorem frame_execDomainGateOff (u : Fin 40) (s t : State) (h : execDomainGateOff u s = .next t) : Keeps 137438953480 s t := by
  unfold execDomainGateOff at h
  cases h
  repeat' first
    | exact rfl
    | with_reducible exact Keeps.refl
    | with_reducible assumption
    | exact trivial
    | with_reducible refine keeps_gateOff _ ?_ ?_

theorem frame_execPortPinFault (pin : PortPin) (mv : Nat) (s t : State) (h : execPortPinFault pin mv s = .next t) : Keeps 154619760520 s t := by
  unfold execPortPinFault at h
  cases h
  repeat' first
    | exact rfl
    | with_reducible exact Keeps.refl
    | with_reducible assumption
    | exact trivial
    | with_reducible refine keeps_portFault _ _ ?_ ?_

theorem frame_execPortFaultRetry (pin : PortPin) (pass : Bool) (s t : State) (h : execPortFaultRetry pin pass s = .next t) : Keeps 137438953480 s t := by
  unfold execPortFaultRetry at h
  cases h
  repeat' first
    | exact rfl
    | with_reducible exact Keeps.refl
    | with_reducible assumption
    | exact trivial
    | with_reducible refine keeps_portRetry _ _ ?_ ?_

theorem frame_execRefLoss (ppm : Option ℤ) (s t : State) (h : execRefLoss ppm s = .next t) : Keeps 137438970760 s t := by
  unfold execRefLoss at h
  cases h
  repeat' first
    | exact rfl
    | with_reducible exact Keeps.refl
    | with_reducible assumption
    | exact trivial
    | with_reducible refine keeps_refLoss _ ?_ ?_

theorem frame_execRefHoldExpiry  (s t : State) (h : execRefHoldExpiry s = .next t) : Keeps 139049583496 s t := by
  unfold execRefHoldExpiry at h
  cases h
  repeat' first
    | exact rfl
    | with_reducible exact Keeps.refl
    | with_reducible assumption
    | exact trivial
    | with_reducible refine keeps_refHoldExpiry ?_ ?_

theorem frame_execRefRestore  (s t : State) (h : execRefRestore s = .next t) : Keeps 137438953480 s t := by
  unfold execRefRestore at h
  cases h
  repeat' first
    | exact rfl
    | with_reducible exact Keeps.refl
    | with_reducible assumption
    | exact trivial
    | with_reducible refine keeps_refRestore ?_ ?_

theorem frame_execThermalSample (dieT : List (BitVec 16)) (stackT : List (BitVec 16)) (s t : State) (h : execThermalSample dieT stackT s = .next t) : Keeps 274877906940 s t := by
  unfold execThermalSample at h
  cases h
  repeat' first
    | exact rfl
    | with_reducible exact Keeps.refl
    | with_reducible assumption
    | exact trivial
    | with_reducible refine keeps_thermal _ _ ?_ ?_

theorem frame_execExtest (scan : List Bool) (s t : State) (h : execExtest scan s = .next t) : Keeps 274877906944 s t := by
  unfold execExtest at h
  cases h
  repeat' first
    | exact rfl
    | with_reducible exact Keeps.refl
    | with_reducible assumption
    | exact trivial
    | with_reducible refine keeps_jtag_ _ _ ?_ ?_

theorem frame_execIdcode  (s t : State) (h : execIdcode s = .next t) : Keeps 274877906944 s t := by
  unfold execIdcode at h
  cases h
  repeat' first
    | exact rfl
    | with_reducible exact Keeps.refl
    | with_reducible assumption
    | exact trivial
    | with_reducible refine keeps_jtag_ _ _ ?_ ?_

theorem frame_execSamplePreload (scan : List Bool) (s t : State) (h : execSamplePreload scan s = .next t) : Keeps 274877906944 s t := by
  unfold execSamplePreload at h
  cases h
  repeat' first
    | exact rfl
    | with_reducible exact Keeps.refl
    | with_reducible assumption
    | exact trivial
    | with_reducible refine keeps_jtag_ _ _ ?_ ?_

theorem frame_execHighz  (s t : State) (h : execHighz s = .next t) : Keeps 274877906944 s t := by
  unfold execHighz at h
  cases h
  repeat' first
    | exact rfl
    | with_reducible exact Keeps.refl
    | with_reducible assumption
    | exact trivial
    | with_reducible refine keeps_jtag_ _ _ ?_ ?_

theorem frame_execClamp  (s t : State) (h : execClamp s = .next t) : Keeps 274877906944 s t := by
  unfold execClamp at h
  cases h
  repeat' first
    | exact rfl
    | with_reducible exact Keeps.refl
    | with_reducible assumption
    | exact trivial
    | with_reducible refine keeps_jtag_ _ _ ?_ ?_

theorem frame_execDebug  (s t : State) (h : execDebug s = .next t) : Keeps 274877906944 s t := by
  unfold execDebug at h
  cases h
  repeat' first
    | exact rfl
    | with_reducible exact Keeps.refl
    | with_reducible assumption
    | exact trivial
    | with_reducible refine keeps_jtag_ _ _ ?_ ?_

theorem frame_execBypass  (s t : State) (h : execBypass s = .next t) : Keeps 274877906944 s t := by
  unfold execBypass at h
  cases h
  repeat' first
    | exact rfl
    | with_reducible exact Keeps.refl
    | with_reducible assumption
    | exact trivial
    | with_reducible refine keeps_jtag_ _ _ ?_ ?_

theorem frame_execPmovDone (k : Fin 16) (s t : State) (h : execPmovDone k s = .next t) : Keeps 937864 s t := by
  unfold execPmovDone at h
  cases h
  repeat' first
    | exact rfl
    | with_reducible exact Keeps.refl
    | with_reducible assumption
    | exact trivial
    | with_reducible refine keeps_moveDone _ ?_ ?_

theorem frame_execPilotLoadDone (k : Fin 16) (s t : State) (h : execPilotLoadDone k s = .next t) : Keeps 416648 s t := by
  unfold execPilotLoadDone at h
  cases h
  repeat' first
    | exact rfl
    | with_reducible exact Keeps.refl
    | with_reducible assumption
    | exact trivial
    | with_reducible refine keeps_pilotLoadDone _ ?_ ?_

theorem frame_execRegisterWrite (m : Fin 32) (addr : BitVec 32) (be : BitVec 4) (v : Word) (s t : State) (h : execRegisterWrite m addr be v s = .next t) : Keeps 274877906940 s t := by
  unfold execRegisterWrite at h
  cases h
  repeat' first
    | exact rfl
    | with_reducible exact Keeps.refl
    | with_reducible assumption
    | exact trivial
    | with_reducible refine keeps_controlWrite _ _ _ _ _ ?_ ?_

theorem frame_execRcRead (m : Fin 32) (addr : BitVec 32) (be : BitVec 4) (s t : State) (h : execRcRead m addr be s = .next t) : Keeps 148460 s t := by
  unfold execRcRead at h
  cases h
  repeat' first
    | exact rfl
    | with_reducible exact Keeps.refl
    | with_reducible assumption
    | exact trivial
    | with_reducible refine keeps_readCmd _ _ _ ?_ ?_

theorem frame_execWideValueRead (m : Fin 32) (addr : BitVec 32) (be : BitVec 4) (s t : State) (h : execWideValueRead m addr be s = .next t) : Keeps 148460 s t := by
  unfold execWideValueRead at h
  cases h
  repeat' first
    | exact rfl
    | with_reducible exact Keeps.refl
    | with_reducible assumption
    | exact trivial
    | with_reducible refine keeps_readCmd _ _ _ ?_ ?_

theorem frame_execParcelWrite (hop : Nat) (p : Parcel) (s t : State) (h : execParcelWrite hop p s = .next t) : Keeps 937864 s t := by
  unfold execParcelWrite at h
  cases h
  repeat' first
    | exact rfl
    | with_reducible exact Keeps.refl
    | with_reducible assumption
    | exact trivial
    | with_reducible refine keeps_parcelArrives _ _ ?_ ?_

theorem frame_execQuayRead (q : Fin 48) (u : Fin 45) (h0 : BitVec 16) (ofs : Nat) (len : Nat) (s t : State) (h : execQuayRead q u h0 ofs len s = .next t) : Keeps 150408 s t := by
  unfold execQuayRead at h
  cases h
  repeat' first
    | exact rfl
    | with_reducible exact Keeps.refl
    | with_reducible assumption
    | exact trivial
    | with_reducible refine keeps_quayRead _ _ _ _ _ ?_ ?_

theorem frame_execQuayReadData (q : Fin 48) (bad : List (Fin 16384)) (s t : State) (h : execQuayReadData q bad s = .next t) : Keeps 150408 s t := by
  unfold execQuayReadData at h
  cases h
  repeat' first
    | exact rfl
    | with_reducible exact Keeps.refl
    | with_reducible assumption
    | exact trivial
    | with_reducible refine keeps_quayData _ _ ?_ ?_

theorem frame_execStarveLimitExpiry (hop : Nat) (vc : Fin 4) (s t : State) (h : execStarveLimitExpiry hop vc s = .next t) : Keeps 2048 s t := by
  unfold execStarveLimitExpiry at h
  cases h
  repeat' first
    | exact rfl
    | with_reducible exact Keeps.refl
    | with_reducible assumption
    | exact trivial
    | simp only [keeps_fab_iff (m := 2048) rfl]

theorem frame_execBerthCmdDone  (s t : State) (h : execBerthCmdDone s = .next t) : Keeps 2056 s t := by
  unfold execBerthCmdDone at h
  cases h
  repeat' first
    | exact rfl
    | with_reducible exact Keeps.refl
    | with_reducible assumption
    | exact trivial
    | with_reducible refine keeps_berthCmdEnd ?_ ?_

theorem frame_execBerthAcquire (u : Fin 45) (h0 : BitVec 16) (s t : State) (h : execBerthAcquire u h0 s = .next t) : Keeps 150408 s t := by
  unfold execBerthAcquire at h
  cases h
  repeat' first
    | exact rfl
    | with_reducible exact Keeps.refl
    | with_reducible assumption
    | exact trivial
    | with_reducible refine keeps_acquire _ _ ?_ ?_

theorem frame_execBerthRelease (u : Fin 45) (h0 : BitVec 16) (s t : State) (h : execBerthRelease u h0 s = .next t) : Keeps 412552 s t := by
  unfold execBerthRelease at h
  cases h
  repeat' first
    | exact rfl
    | with_reducible exact Keeps.refl
    | with_reducible assumption
    | exact trivial
    | with_reducible refine keeps_release _ _ ?_ ?_

theorem frame_execApDataRead (m : Fin 32) (i : Fin 1024) (s t : State) (h : execApDataRead m i s = .next t) : Keeps 148460 s t := by
  unfold execApDataRead at h
  cases h
  repeat' first
    | exact rfl
    | with_reducible exact Keeps.refl
    | with_reducible assumption
    | exact trivial
    | with_reducible refine keeps_readCmd _ _ _ ?_ ?_

theorem frame_execClaimTimeout (m : Fin 32) (s t : State) (h : execClaimTimeout m s = .next t) : Keeps 4096 s t := by
  unfold execClaimTimeout at h
  cases h
  repeat' first
    | exact rfl
    | with_reducible exact Keeps.refl
    | with_reducible assumption
    | exact trivial
    | with_reducible refine keeps_claimTimeout _ ?_ ?_

theorem frame_execLeaseExpiry  (s t : State) (h : execLeaseExpiry s = .next t) : Keeps 154504 s t := by
  unfold execLeaseExpiry at h
  cases h
  repeat' first
    | exact rfl
    | with_reducible exact Keeps.refl
    | with_reducible assumption
    | exact trivial
    | with_reducible refine keeps_leaseExpiry ?_ ?_

theorem frame_execLandingNoTides  (s t : State) (h : execLandingNoTides s = .next t) : Keeps 17750455180 s t := by
  unfold execLandingNoTides at h
  cases h
  repeat' first
    | exact rfl
    | with_reducible exact Keeps.refl
    | with_reducible assumption
    | exact trivial
    | with_reducible refine keeps_landNow ?_ ?_

theorem frame_execCld (k : Fin 16) (g : Guard) (f : FmtI) (s t : State) (h : execCld k g f s = .next t) : Keeps 152492 s t := by
  unfold execCld at h
  cases h
  repeat' first
    | exact rfl
    | with_reducible exact Keeps.refl
    | with_reducible assumption
    | exact trivial
    | with_reducible refine keeps_controlRead _ _ _ ?_ ?_
    | (with_reducible refine keeps_controlRead' (by assumption) ?_ ?_)
    | with_reducible refine keeps_issue _ _ _ _ ?_ ?_ ?_
    | with_reducible refine outKeeps_put _ _ _ ?_ ?_
    | with_reducible refine outKeeps_load _ _ _ ?_ ?_
    | with_reducible refine outKeeps_store _ _ _ ?_ ?_
    | with_reducible refine outKeeps_ifZero ?_
    | with_reducible refine outKeeps_logged _ _ _ _ _ _ (fun _ hx => ?_) (fun _ _ hx => ?_) ?_ ?_
    | with_reducible exact outKeeps_illegal _
    | dsimp only
    | with_reducible refine keeps_ite ?_ ?_
    | with_reducible refine keeps_ite_fst ?_ ?_
    | split

theorem frame_execCst (k : Fin 16) (g : Guard) (f : FmtI) (s t : State) (h : execCst k g f s = .next t) : Keeps 274877906940 s t := by
  unfold execCst at h
  cases h
  repeat' first
    | exact rfl
    | with_reducible exact Keeps.refl
    | with_reducible assumption
    | exact trivial
    | with_reducible refine keeps_issue _ _ _ _ ?_ ?_ ?_
    | with_reducible refine keeps_wordWrite _ _ _ ?_ ?_
    | with_reducible refine outKeeps_put _ _ _ ?_ ?_
    | with_reducible refine outKeeps_load _ _ _ ?_ ?_
    | with_reducible refine outKeeps_store _ _ _ ?_ ?_
    | with_reducible refine outKeeps_ifZero ?_
    | with_reducible refine outKeeps_logged _ _ _ _ _ _ (fun _ hx => ?_) (fun _ _ hx => ?_) ?_ ?_
    | with_reducible exact outKeeps_illegal _
    | dsimp only
    | with_reducible refine keeps_ite ?_ ?_
    | with_reducible refine keeps_ite_fst ?_ ?_
    | split
    | show Keeps _ _ _

theorem frame_execReplayWrite  (s t : State) (h : execReplayWrite s = .next t) : Keeps 274877906940 s t := by
  unfold execReplayWrite at h
  cases h
  repeat' first
    | exact rfl
    | with_reducible exact Keeps.refl
    | with_reducible assumption
    | exact trivial
    | with_reducible refine keeps_replayWrite ?_ ?_

theorem frame_execHcpRead (q : Fin 2) (msg : HcpMsg) (s t : State) (h : execHcpRead q msg s = .next t) : Keeps 8590082988 s t := by
  unfold execHcpRead at h
  cases h
  repeat' first
    | exact rfl
    | with_reducible exact Keeps.refl
    | with_reducible assumption
    | exact trivial
    | with_reducible refine keeps_hcpReadMsg _ _ ?_ ?_
    | (with_reducible refine keeps_hcpReadMsg' (by assumption) ?_ ?_)
    | with_reducible refine keeps_hcpMsg _ _ _ _ (fun _ _ _ hx => ?_) ?_ ?_

theorem frame_execHcpWrite (q : Fin 2) (msg : HcpMsg) (s t : State) (h : execHcpWrite q msg s = .next t) : Keeps 274877906940 s t := by
  unfold execHcpWrite at h
  cases h
  repeat' first
    | exact rfl
    | with_reducible exact Keeps.refl
    | with_reducible assumption
    | exact trivial
    | with_reducible refine keeps_hcpWriteMsg _ _ ?_ ?_
    | (with_reducible refine keeps_hcpWriteMsg' (by assumption) ?_ ?_)
    | with_reducible refine keeps_hcpMsg _ _ _ _ (fun _ _ _ hx => ?_) ?_ ?_

theorem frame_execOwn (q : Fin 2) (msg : HcpMsg) (s t : State) (h : execOwn q msg s = .next t) : Keeps 8590089100 s t := by
  unfold execOwn at h
  cases h
  repeat' first
    | exact rfl
    | with_reducible exact Keeps.refl
    | with_reducible assumption
    | exact trivial
    | with_reducible refine keeps_hcpOwnMsg _ _ ?_ ?_
    | (with_reducible refine keeps_hcpOwnMsg' (by assumption) ?_ ?_)
    | with_reducible refine keeps_hcpMsg _ _ _ _ (fun _ _ _ hx => ?_) ?_ ?_

theorem frame_execHcpHeartbeat (q : Fin 2) (msg : HcpMsg) (s t : State) (h : execHcpHeartbeat q msg s = .next t) : Keeps 8589938956 s t := by
  unfold execHcpHeartbeat at h
  cases h
  repeat' first
    | exact rfl
    | with_reducible exact Keeps.refl
    | with_reducible assumption
    | exact trivial
    | with_reducible refine keeps_hcpHeartbeatMsg _ ?_ ?_
    | (with_reducible refine keeps_hcpHeartbeatMsg' (by assumption) ?_ ?_)
    | with_reducible refine keeps_hcpMsg _ _ _ _ (fun _ _ _ hx => ?_) ?_ ?_

theorem frame_execHcpTxn (q : Fin 2) (msg : HcpMsg) (s t : State) (h : execHcpTxn q msg s = .next t) : Keeps 8590087052 s t := by
  unfold execHcpTxn at h
  cases h
  repeat' first
    | exact rfl
    | with_reducible exact Keeps.refl
    | with_reducible assumption
    | exact trivial
    | with_reducible refine keeps_hcpMsg _ _ _ _ (fun _ _ _ hx => ?_) ?_ ?_
    | with_reducible refine keeps_hcpTxnMsg _ _ ?_ ?_

theorem frame_execWithdrawList (q : Fin 2) (msg : HcpMsg) (s t : State) (h : execWithdrawList q msg s = .next t) : Keeps 8590087052 s t := by
  unfold execWithdrawList at h
  cases h
  repeat' first
    | exact rfl
    | with_reducible exact Keeps.refl
    | with_reducible assumption
    | exact trivial
    | with_reducible refine keeps_hcpListMsg _ _ ?_ ?_
    | (with_reducible refine keeps_hcpListMsg' (by assumption) ?_ ?_)
    | with_reducible refine keeps_hcpMsg _ _ _ _ (fun _ _ _ hx => ?_) ?_ ?_

theorem frame_execHcpClose (q : Fin 2) (msg : HcpMsg) (s t : State) (h : execHcpClose q msg s = .next t) : Keeps 8590089100 s t := by
  unfold execHcpClose at h
  cases h
  repeat' first
    | exact rfl
    | with_reducible exact Keeps.refl
    | with_reducible assumption
    | exact trivial
    | with_reducible refine keeps_hcpMsg _ _ _ _ (fun _ _ _ hx => ?_) ?_ ?_
    | with_reducible refine keeps_hcpCloseMsg _ ?_ ?_

theorem frame_execHcpPilotMessage (q : Fin 2) (type : Fin 64) (msg : HcpMsg) (s t : State) (h : execHcpPilotMessage q type msg s = .next t) : Keeps 8589951244 s t := by
  unfold execHcpPilotMessage at h
  cases h
  repeat' first
    | exact rfl
    | with_reducible exact Keeps.refl
    | with_reducible assumption
    | exact trivial
    | with_reducible refine keeps_hcpPilotMsg _ _ _ ?_ ?_
    | (with_reducible refine keeps_hcpPilotMsg' (by assumption) ?_ ?_)
    | with_reducible refine keeps_hcpMsg _ _ _ _ (fun _ _ _ hx => ?_) ?_ ?_

theorem frame_execArrayReply  (s t : State) (h : execArrayReply s = .next t) : Keeps 8589934592 s t := by
  unfold execArrayReply at h
  cases h
  repeat' first
    | exact rfl
    | with_reducible exact Keeps.refl
    | with_reducible assumption
    | exact trivial
    | with_reducible refine keeps_arrayReply ?_ ?_

theorem frame_execCtWrite (b : Fin 8) (cmd : Byte) (addr : Word) (v : Word) (crc : Byte) (s t : State) (h : execCtWrite b cmd addr v crc s = .next t) : Keeps 274877906940 s t := by
  unfold execCtWrite at h
  cases h
  repeat' first
    | exact rfl
    | with_reducible exact Keeps.refl
    | with_reducible assumption
    | exact trivial
    | with_reducible refine keeps_ctWrite _ _ _ _ _ ?_ ?_

theorem frame_execCtRead (b : Fin 8) (cmd : Byte) (addr : Word) (crc : Byte) (n : Nat) (s t : State) (h : execCtRead b cmd addr crc n s = .next t) : Keeps 34359886764 s t := by
  unfold execCtRead at h
  cases h
  repeat' first
    | exact rfl
    | with_reducible exact Keeps.refl
    | with_reducible assumption
    | exact trivial
    | with_reducible refine keeps_ctRead _ _ _ _ _ ?_ ?_

theorem frame_execPcieHostAccess (p : Fin 2) (a : HostAccess) (s t : State) (h : execPcieHostAccess p a s = .next t) : Keeps 274877906940 s t := by
  unfold execPcieHostAccess at h
  cases h
  repeat' first
    | exact rfl
    | with_reducible exact Keeps.refl
    | with_reducible assumption
    | exact trivial
    | with_reducible refine keeps_hostAccess _ _ ?_ ?_

theorem frame_execDebugAccess (dr : BitVec 60) (s t : State) (h : execDebugAccess dr s = .next t) : Keeps 549755813884 s t := by
  unfold execDebugAccess at h
  cases h
  repeat' first
    | exact rfl
    | with_reducible exact Keeps.refl
    | with_reducible assumption
    | exact trivial
    | with_reducible refine keeps_debugAccess _ ?_ ?_

theorem frame_execTideFire (eyes : List LaneTide) (s t : State) (h : execTideFire eyes s = .next t) : Keeps 19906068364 s t := by
  unfold execTideFire at h
  cases h
  repeat' first
    | exact rfl
    | with_reducible exact Keeps.refl
    | with_reducible assumption
    | exact trivial
    | with_reducible refine keeps_tideFire _ ?_ ?_

theorem frame_execUnitTideStart (u : Fin 45) (s t : State) (h : execUnitTideStart u s = .next t) : Keeps 6569222028 s t := by
  unfold execUnitTideStart at h
  cases h
  repeat' first
    | exact rfl
    | with_reducible exact Keeps.refl
    | with_reducible assumption
    | exact trivial
    | with_reducible refine keeps_unitTideStart _ ?_ ?_

theorem frame_execUnitOverrun (u : Fin 45) (s t : State) (h : execUnitOverrun u s = .next t) : Keeps 4387261324 s t := by
  unfold execUnitOverrun at h
  cases h
  repeat' first
    | exact rfl
    | with_reducible exact Keeps.refl
    | with_reducible assumption
    | exact trivial
    | with_reducible refine keeps_unitOverrun _ ?_ ?_

theorem frame_execUnitAbandon (u : Fin 45) (s t : State) (h : execUnitAbandon u s = .next t) : Keeps 4421208968 s t := by
  unfold execUnitAbandon at h
  cases h
  repeat' first
    | exact rfl
    | with_reducible exact Keeps.refl
    | with_reducible assumption
    | exact trivial
    | with_reducible refine keeps_unitAbandon _ ?_ ?_

theorem frame_execDomainSwitchOn (u : Fin 40) (s t : State) (h : execDomainSwitchOn u s = .next t) : Keeps 156496715656 s t := by
  unfold execDomainSwitchOn at h
  cases h
  repeat' first
    | exact rfl
    | with_reducible exact Keeps.refl
    | with_reducible assumption
    | exact trivial
    | with_reducible refine keeps_domainSwitchOn _ ?_ ?_

theorem frame_execMemTrainDone (c : Fin 6) (ok : Bool) (s t : State) (h : execMemTrainDone c ok s = .next t) : Keeps 17288 s t := by
  unfold execMemTrainDone at h
  cases h
  repeat' first
    | exact rfl
    | with_reducible exact Keeps.refl
    | with_reducible assumption
    | exact trivial
    | with_reducible refine keeps_memTrainDone _ _ ?_ ?_

theorem frame_execGpioFaultClear (m : Fin 32) (t0 : FaultClear) (s t : State) (h : execGpioFaultClear m t0 s = .next t) : Keeps 274877906940 s t := by
  unfold execGpioFaultClear at h
  cases h
  repeat' first
    | exact rfl
    | with_reducible exact Keeps.refl
    | with_reducible assumption
    | exact trivial
    | with_reducible refine keeps_wordWrite _ _ _ ?_ ?_
    | simp only [keeps_fresh_iff (m := 274877906940) rfl, keeps_regs_iff (m := 274877906940) rfl, keeps_held_iff (m := 274877906940) rfl, keeps_latched_iff (m := 274877906940) rfl, keeps_rsp_iff (m := 274877906940) rfl, keeps_evSet_iff (m := 274877906940) rfl, keeps_evAdd_iff (m := 274877906940) rfl, keeps_evPosted_iff (m := 274877906940) rfl, keeps_fab_iff (m := 274877906940) rfl, keeps_time_iff (m := 274877906940) rfl, keeps_pilots_iff (m := 274877906940) rfl, keeps_shared_iff (m := 274877906940) rfl, keeps_published_iff (m := 274877906940) rfl, keeps_log_iff (m := 274877906940) rfl, keeps_queues_iff (m := 274877906940) rfl, keeps_leaves_iff (m := 274877906940) rfl, keeps_cal_iff (m := 274877906940) rfl, keeps_lanes_iff (m := 274877906940) rfl, keeps_ports_iff (m := 274877906940) rfl, keeps_pipes_iff (m := 274877906940) rfl, keeps_encPics_iff (m := 274877906940) rfl, keeps_encStreams_iff (m := 274877906940) rfl, keeps_decs_iff (m := 274877906940) rfl, keeps_lze_iff (m := 274877906940) rfl, keeps_memsys_iff (m := 274877906940) rfl, keeps_scn_iff (m := 274877906940) rfl, keeps_pcx_iff (m := 274877906940) rfl, keeps_sec_iff (m := 274877906940) rfl, keeps_nets_iff (m := 274877906940) rfl, keeps_hcp_iff (m := 274877906940) rfl, keeps_aud_iff (m := 274877906940) rfl, keeps_twbs_iff (m := 274877906940) rfl, keeps_gpio_iff (m := 274877906940) rfl, keeps_pwr_iff (m := 274877906940) rfl]
    | with_reducible refine keeps_ite ?_ ?_
    | with_reducible refine keeps_ite_fst ?_ ?_
    | split

theorem frame_execClaim (m : Fin 32) (session : BitVec 8) (s t : State) (h : execClaim m session s = .next t) : Keeps 274877906940 s t := by
  unfold execClaim at h
  cases h
  repeat' first
    | exact rfl
    | with_reducible exact Keeps.refl
    | with_reducible assumption
    | exact trivial
    | with_reducible refine keeps_wordWrite _ _ _ ?_ ?_

theorem frame_execOwnRelease (m : Fin 32) (s t : State) (h : execOwnRelease m s = .next t) : Keeps 274877906940 s t := by
  unfold execOwnRelease at h
  cases h
  repeat' first
    | exact rfl
    | with_reducible exact Keeps.refl
    | with_reducible assumption
    | exact trivial
    | with_reducible refine keeps_wordWrite _ _ _ ?_ ?_

theorem frame_execHeartbeat (m : Fin 32) (s t : State) (h : execHeartbeat m s = .next t) : Keeps 274877906940 s t := by
  unfold execHeartbeat at h
  cases h
  repeat' first
    | exact rfl
    | with_reducible exact Keeps.refl
    | with_reducible assumption
    | exact trivial
    | with_reducible refine keeps_wordWrite _ _ _ ?_ ?_

theorem frame_execHandover (m : Fin 32) (target : Fin 32) (s t : State) (h : execHandover m target s = .next t) : Keeps 274877906940 s t := by
  unfold execHandover at h
  cases h
  repeat' first
    | exact rfl
    | with_reducible exact Keeps.refl
    | with_reducible assumption
    | exact trivial
    | with_reducible refine keeps_wordWrite _ _ _ ?_ ?_

theorem frame_execTxnBegin (m : Fin 32) (s t : State) (h : execTxnBegin m s = .next t) : Keeps 274877906940 s t := by
  unfold execTxnBegin at h
  cases h
  repeat' first
    | exact rfl
    | with_reducible exact Keeps.refl
    | with_reducible assumption
    | exact trivial
    | with_reducible refine keeps_wordWrite _ _ _ ?_ ?_

theorem frame_execTxnCommit (m : Fin 32) (orLater : Bool) (next : Bool) (s t : State) (h : execTxnCommit m orLater next s = .next t) : Keeps 274877906940 s t := by
  unfold execTxnCommit at h
  cases h
  repeat' first
    | exact rfl
    | with_reducible exact Keeps.refl
    | with_reducible assumption
    | exact trivial
    | with_reducible refine keeps_wordWrite _ _ _ ?_ ?_

theorem frame_execTxnRollback (m : Fin 32) (s t : State) (h : execTxnRollback m s = .next t) : Keeps 274877906940 s t := by
  unfold execTxnRollback at h
  cases h
  repeat' first
    | exact rfl
    | with_reducible exact Keeps.refl
    | with_reducible assumption
    | exact trivial
    | with_reducible refine keeps_wordWrite _ _ _ ?_ ?_

theorem frame_execOpWithdraw (m : Fin 32) (s t : State) (h : execOpWithdraw m s = .next t) : Keeps 274877906940 s t := by
  unfold execOpWithdraw at h
  cases h
  repeat' first
    | exact rfl
    | with_reducible exact Keeps.refl
    | with_reducible assumption
    | exact trivial
    | with_reducible refine keeps_wordWrite _ _ _ ?_ ?_

theorem frame_execBerthAllocate (m : Fin 32) (h0 : BitVec 16) (s t : State) (h : execBerthAllocate m h0 s = .next t) : Keeps 274877906940 s t := by
  unfold execBerthAllocate at h
  cases h
  repeat' first
    | exact rfl
    | with_reducible exact Keeps.refl
    | with_reducible assumption
    | exact trivial
    | with_reducible refine keeps_wordWrite _ _ _ ?_ ?_

theorem frame_execBerthFree (m : Fin 32) (h0 : BitVec 16) (s t : State) (h : execBerthFree m h0 s = .next t) : Keeps 274877906940 s t := by
  unfold execBerthFree at h
  cases h
  repeat' first
    | exact rfl
    | with_reducible exact Keeps.refl
    | with_reducible assumption
    | exact trivial
    | with_reducible refine keeps_wordWrite _ _ _ ?_ ?_

theorem frame_execBerthQuery (m : Fin 32) (h0 : BitVec 16) (s t : State) (h : execBerthQuery m h0 s = .next t) : Keeps 274877906940 s t := by
  unfold execBerthQuery at h
  cases h
  repeat' first
    | exact rfl
    | with_reducible exact Keeps.refl
    | with_reducible assumption
    | exact trivial
    | with_reducible refine keeps_wordWrite _ _ _ ?_ ?_

theorem frame_execApHandleWrite (m : Fin 32) (h0 : BitVec 16) (s t : State) (h : execApHandleWrite m h0 s = .next t) : Keeps 274877906940 s t := by
  unfold execApHandleWrite at h
  cases h
  repeat' first
    | exact rfl
    | with_reducible exact Keeps.refl
    | with_reducible assumption
    | exact trivial
    | with_reducible refine keeps_wordWrite _ _ _ ?_ ?_

theorem frame_execApDataWrite (m : Fin 32) (i : Fin 1024) (v : Word) (s t : State) (h : execApDataWrite m i v s = .next t) : Keeps 274877906940 s t := by
  unfold execApDataWrite at h
  cases h
  repeat' first
    | exact rfl
    | with_reducible exact Keeps.refl
    | with_reducible assumption
    | exact trivial
    | with_reducible refine keeps_wordWrite _ _ _ ?_ ?_

theorem frame_execPilotStart (m : Fin 32) (k : Fin 16) (s t : State) (h : execPilotStart m k s = .next t) : Keeps 274877906940 s t := by
  unfold execPilotStart at h
  cases h
  repeat' first
    | exact rfl
    | with_reducible exact Keeps.refl
    | with_reducible assumption
    | exact trivial
    | with_reducible refine keeps_wordWrite _ _ _ ?_ ?_

theorem frame_execPilotStop (m : Fin 32) (k : Fin 16) (s t : State) (h : execPilotStop m k s = .next t) : Keeps 274877906940 s t := by
  unfold execPilotStop at h
  cases h
  repeat' first
    | exact rfl
    | with_reducible exact Keeps.refl
    | with_reducible assumption
    | exact trivial
    | with_reducible refine keeps_wordWrite _ _ _ ?_ ?_

theorem frame_execPilotReset (m : Fin 32) (k : Fin 16) (s t : State) (h : execPilotReset m k s = .next t) : Keeps 274877906940 s t := by
  unfold execPilotReset at h
  cases h
  repeat' first
    | exact rfl
    | with_reducible exact Keeps.refl
    | with_reducible assumption
    | exact trivial
    | with_reducible refine keeps_wordWrite _ _ _ ?_ ?_

theorem frame_execPilotLoad (m : Fin 32) (k : Fin 16) (h0 : BitVec 16) (s t : State) (h : execPilotLoad m k h0 s = .next t) : Keeps 274877906940 s t := by
  unfold execPilotLoad at h
  cases h
  repeat' first
    | exact rfl
    | with_reducible exact Keeps.refl
    | with_reducible assumption
    | exact trivial
    | with_reducible refine keeps_wordWrite _ _ _ ?_ ?_

theorem frame_execHostMail (m : Fin 32) (k : Fin 16) (i : Fin 4) (v : Word) (s t : State) (h : execHostMail m k i v s = .next t) : Keeps 274877906940 s t := by
  unfold execHostMail at h
  cases h
  repeat' first
    | exact rfl
    | with_reducible exact Keeps.refl
    | with_reducible assumption
    | exact trivial
    | with_reducible refine keeps_wordWrite _ _ _ ?_ ?_

theorem frame_execRunStart (m : Fin 32) (failover : Bool) (domSel : Bool) (s t : State) (h : execRunStart m failover domSel s = .next t) : Keeps 274877906940 s t := by
  unfold execRunStart at h
  cases h
  repeat' first
    | exact rfl
    | with_reducible exact Keeps.refl
    | with_reducible assumption
    | exact trivial
    | with_reducible refine keeps_wordWrite _ _ _ ?_ ?_

theorem frame_execRunStop (m : Fin 32) (failover : Bool) (domSel : Bool) (s t : State) (h : execRunStop m failover domSel s = .next t) : Keeps 274877906940 s t := by
  unfold execRunStop at h
  cases h
  repeat' first
    | exact rfl
    | with_reducible exact Keeps.refl
    | with_reducible assumption
    | exact trivial
    | with_reducible refine keeps_wordWrite _ _ _ ?_ ?_

theorem frame_execEtsPop (m : Fin 32) (q : Fin 2) (s t : State) (h : execEtsPop m q s = .next t) : Keeps 274877906940 s t := by
  unfold execEtsPop at h
  cases h
  repeat' first
    | exact rfl
    | with_reducible exact Keeps.refl
    | with_reducible assumption
    | exact trivial
    | with_reducible refine keeps_wordWrite _ _ _ ?_ ?_

theorem frame_execEvtPop (m : Fin 32) (i : Fin 16) (s t : State) (h : execEvtPop m i s = .next t) : Keeps 274877906940 s t := by
  unfold execEvtPop at h
  cases h
  repeat' first
    | exact rfl
    | with_reducible exact Keeps.refl
    | with_reducible assumption
    | exact trivial
    | with_reducible refine keeps_wordWrite _ _ _ ?_ ?_

theorem frame_execEvtGenTime (m : Fin 32) (i : Fin 16) (lo : Word) (s t : State) (h : execEvtGenTime m i lo s = .next t) : Keeps 274877906940 s t := by
  unfold execEvtGenTime at h
  cases h
  repeat' first
    | exact rfl
    | with_reducible exact Keeps.refl
    | with_reducible assumption
    | exact trivial
    | with_reducible refine keeps_wordWrite _ _ _ ?_ ?_

theorem frame_execSrxTrain (m : Fin 32) (p : Fin 4) (rest : BitVec 28) (s t : State) (h : execSrxTrain m p rest s = .next t) : Keeps 274877906940 s t := by
  unfold execSrxTrain at h
  cases h
  repeat' first
    | exact rfl
    | with_reducible exact Keeps.refl
    | with_reducible assumption
    | exact trivial
    | with_reducible refine keeps_wordWrite _ _ _ ?_ ?_

theorem frame_execSrxRun (m : Fin 32) (p : Fin 4) (rest : BitVec 28) (s t : State) (h : execSrxRun m p rest s = .next t) : Keeps 274877906940 s t := by
  unfold execSrxRun at h
  cases h
  repeat' first
    | exact rfl
    | with_reducible exact Keeps.refl
    | with_reducible assumption
    | exact trivial
    | with_reducible refine keeps_wordWrite _ _ _ ?_ ?_

theorem frame_execSrxStop (m : Fin 32) (p : Fin 4) (rest : BitVec 28) (s t : State) (h : execSrxStop m p rest s = .next t) : Keeps 274877906940 s t := by
  unfold execSrxStop at h
  cases h
  repeat' first
    | exact rfl
    | with_reducible exact Keeps.refl
    | with_reducible assumption
    | exact trivial
    | with_reducible refine keeps_wordWrite _ _ _ ?_ ?_

theorem frame_execLaneSlip (m : Fin 32) (p : Fin 4) (i : Fin 64) (v : Word) (s t : State) (h : execLaneSlip m p i v s = .next t) : Keeps 274877906940 s t := by
  unfold execLaneSlip at h
  cases h
  repeat' first
    | exact rfl
    | with_reducible exact Keeps.refl
    | with_reducible assumption
    | exact trivial
    | with_reducible refine keeps_wordWrite _ _ _ ?_ ?_

theorem frame_execSrxFqPush (m : Fin 32) (p : Fin 4) (raw : BitVec 16) (map : BitVec 16) (s t : State) (h : execSrxFqPush m p raw map s = .next t) : Keeps 274877906940 s t := by
  unfold execSrxFqPush at h
  cases h
  repeat' first
    | exact rfl
    | with_reducible exact Keeps.refl
    | with_reducible assumption
    | exact trivial
    | with_reducible refine keeps_wordWrite _ _ _ ?_ ?_

theorem frame_execPrbsSelect (m : Fin 32) (p : Fin 4) (i : Fin 64) (v : Word) (s t : State) (h : execPrbsSelect m p i v s = .next t) : Keeps 274877906940 s t := by
  unfold execPrbsSelect at h
  cases h
  repeat' first
    | exact rfl
    | with_reducible exact Keeps.refl
    | with_reducible assumption
    | exact trivial
    | with_reducible refine keeps_wordWrite _ _ _ ?_ ?_

theorem frame_execInject (m : Fin 32) (p : Fin 4) (i : Fin 64) (v : Word) (s t : State) (h : execInject m p i v s = .next t) : Keeps 274877906940 s t := by
  unfold execInject at h
  cases h
  repeat' first
    | exact rfl
    | with_reducible exact Keeps.refl
    | with_reducible assumption
    | exact trivial
    | with_reducible refine keeps_wordWrite _ _ _ ?_ ?_

theorem frame_execPipeRun (m : Fin 32) (i : Fin 4) (rest : BitVec 28) (s t : State) (h : execPipeRun m i rest s = .next t) : Keeps 274877906940 s t := by
  unfold execPipeRun at h
  cases h
  repeat' first
    | exact rfl
    | with_reducible exact Keeps.refl
    | with_reducible assumption
    | exact trivial
    | with_reducible refine keeps_wordWrite _ _ _ ?_ ?_

theorem frame_execPipeStop (m : Fin 32) (i : Fin 4) (rest : BitVec 28) (s t : State) (h : execPipeStop m i rest s = .next t) : Keeps 274877906940 s t := by
  unfold execPipeStop at h
  cases h
  repeat' first
    | exact rfl
    | with_reducible exact Keeps.refl
    | with_reducible assumption
    | exact trivial
    | with_reducible refine keeps_wordWrite _ _ _ ?_ ?_

theorem frame_execPipeInPush (m : Fin 32) (i : Fin 4) (raw : BitVec 16) (map : BitVec 16) (s t : State) (h : execPipeInPush m i raw map s = .next t) : Keeps 274877906940 s t := by
  unfold execPipeInPush at h
  cases h
  repeat' first
    | exact rfl
    | with_reducible exact Keeps.refl
    | with_reducible assumption
    | exact trivial
    | with_reducible refine keeps_wordWrite _ _ _ ?_ ?_

theorem frame_execPipeOutPush (m : Fin 32) (i : Fin 4) (o : Fin 3) (h0 : BitVec 16) (s t : State) (h : execPipeOutPush m i o h0 s = .next t) : Keeps 274877906940 s t := by
  unfold execPipeOutPush at h
  cases h
  repeat' first
    | exact rfl
    | with_reducible exact Keeps.refl
    | with_reducible assumption
    | exact trivial
    | with_reducible refine keeps_wordWrite _ _ _ ?_ ?_

theorem frame_execPipeRawoutPush (m : Fin 32) (i : Fin 4) (h0 : BitVec 16) (s t : State) (h : execPipeRawoutPush m i h0 s = .next t) : Keeps 274877906940 s t := by
  unfold execPipeRawoutPush at h
  cases h
  repeat' first
    | exact rfl
    | with_reducible exact Keeps.refl
    | with_reducible assumption
    | exact trivial
    | with_reducible refine keeps_wordWrite _ _ _ ?_ ?_

theorem frame_execStatPush (m : Fin 32) (i : Fin 4) (h0 : BitVec 16) (s t : State) (h : execStatPush m i h0 s = .next t) : Keeps 274877906940 s t := by
  unfold execStatPush at h
  cases h
  repeat' first
    | exact rfl
    | with_reducible exact Keeps.refl
    | with_reducible assumption
    | exact trivial
    | with_reducible refine keeps_wordWrite _ _ _ ?_ ?_

theorem frame_execCalRun (m : Fin 32) (item : BitVec 6) (s t : State) (h : execCalRun m item s = .next t) : Keeps 274877906940 s t := by
  unfold execCalRun at h
  cases h
  repeat' first
    | exact rfl
    | with_reducible exact Keeps.refl
    | with_reducible assumption
    | exact trivial
    | with_reducible refine keeps_wordWrite _ _ _ ?_ ?_

theorem frame_execCalFfCmd (m : Fin 32) (key : Word) (s t : State) (h : execCalFfCmd m key s = .next t) : Keeps 274877906940 s t := by
  unfold execCalFfCmd at h
  cases h
  repeat' first
    | exact rfl
    | with_reducible exact Keeps.refl
    | with_reducible assumption
    | exact trivial
    | with_reducible refine keeps_wordWrite _ _ _ ?_ ?_

theorem frame_execEncRun (m : Fin 32) (e : Fin 4) (rest : BitVec 28) (s t : State) (h : execEncRun m e rest s = .next t) : Keeps 274877906940 s t := by
  unfold execEncRun at h
  cases h
  repeat' first
    | exact rfl
    | with_reducible exact Keeps.refl
    | with_reducible assumption
    | exact trivial
    | with_reducible refine keeps_wordWrite _ _ _ ?_ ?_

theorem frame_execEncStop (m : Fin 32) (e : Fin 4) (rest : BitVec 28) (s t : State) (h : execEncStop m e rest s = .next t) : Keeps 274877906940 s t := by
  unfold execEncStop at h
  cases h
  repeat' first
    | exact rfl
    | with_reducible exact Keeps.refl
    | with_reducible assumption
    | exact trivial
    | with_reducible refine keeps_wordWrite _ _ _ ?_ ?_

theorem frame_execEncSlotInPush (m : Fin 32) (e : Fin 4) (i : Fin 4) (h0 : BitVec 16) (s t : State) (h : execEncSlotInPush m e i h0 s = .next t) : Keeps 274877906940 s t := by
  unfold execEncSlotInPush at h
  cases h
  repeat' first
    | exact rfl
    | with_reducible exact Keeps.refl
    | with_reducible assumption
    | exact trivial
    | with_reducible refine keeps_wordWrite _ _ _ ?_ ?_

theorem frame_execEncSlotBsPush (m : Fin 32) (e : Fin 4) (i : Fin 4) (h0 : BitVec 16) (s t : State) (h : execEncSlotBsPush m e i h0 s = .next t) : Keeps 274877906940 s t := by
  unfold execEncSlotBsPush at h
  cases h
  repeat' first
    | exact rfl
    | with_reducible exact Keeps.refl
    | with_reducible assumption
    | exact trivial
    | with_reducible refine keeps_wordWrite _ _ _ ?_ ?_

theorem frame_execEncSlotEsPush (m : Fin 32) (e : Fin 4) (i : Fin 4) (h0 : BitVec 16) (s t : State) (h : execEncSlotEsPush m e i h0 s = .next t) : Keeps 274877906940 s t := by
  unfold execEncSlotEsPush at h
  cases h
  repeat' first
    | exact rfl
    | with_reducible exact Keeps.refl
    | with_reducible assumption
    | exact trivial
    | with_reducible refine keeps_wordWrite _ _ _ ?_ ?_

theorem frame_execDecRun (m : Fin 32) (d : Fin 2) (rest : BitVec 28) (s t : State) (h : execDecRun m d rest s = .next t) : Keeps 274877906940 s t := by
  unfold execDecRun at h
  cases h
  repeat' first
    | exact rfl
    | with_reducible exact Keeps.refl
    | with_reducible assumption
    | exact trivial
    | with_reducible refine keeps_wordWrite _ _ _ ?_ ?_

theorem frame_execDecStop (m : Fin 32) (d : Fin 2) (rest : BitVec 28) (s t : State) (h : execDecStop m d rest s = .next t) : Keeps 274877906940 s t := by
  unfold execDecStop at h
  cases h
  repeat' first
    | exact rfl
    | with_reducible exact Keeps.refl
    | with_reducible assumption
    | exact trivial
    | with_reducible refine keeps_wordWrite _ _ _ ?_ ?_

theorem frame_execDecFlush (m : Fin 32) (d : Fin 2) (rest : BitVec 28) (s t : State) (h : execDecFlush m d rest s = .next t) : Keeps 274877906940 s t := by
  unfold execDecFlush at h
  cases h
  repeat' first
    | exact rfl
    | with_reducible exact Keeps.refl
    | with_reducible assumption
    | exact trivial
    | with_reducible refine keeps_wordWrite _ _ _ ?_ ?_

theorem frame_execDecInPush (m : Fin 32) (d : Fin 2) (h0 : BitVec 16) (s t : State) (h : execDecInPush m d h0 s = .next t) : Keeps 274877906940 s t := by
  unfold execDecInPush at h
  cases h
  repeat' first
    | exact rfl
    | with_reducible exact Keeps.refl
    | with_reducible assumption
    | exact trivial
    | with_reducible refine keeps_wordWrite _ _ _ ?_ ?_

theorem frame_execDecOutPush (m : Fin 32) (d : Fin 2) (h0 : BitVec 16) (s t : State) (h : execDecOutPush m d h0 s = .next t) : Keeps 274877906940 s t := by
  unfold execDecOutPush at h
  cases h
  repeat' first
    | exact rfl
    | with_reducible exact Keeps.refl
    | with_reducible assumption
    | exact trivial
    | with_reducible refine keeps_wordWrite _ _ _ ?_ ?_

theorem frame_execDecDpbPush (m : Fin 32) (d : Fin 2) (h0 : BitVec 16) (s t : State) (h : execDecDpbPush m d h0 s = .next t) : Keeps 274877906940 s t := by
  unfold execDecDpbPush at h
  cases h
  repeat' first
    | exact rfl
    | with_reducible exact Keeps.refl
    | with_reducible assumption
    | exact trivial
    | with_reducible refine keeps_wordWrite _ _ _ ?_ ?_

theorem frame_execLzeRun (m : Fin 32) (rest : BitVec 28) (s t : State) (h : execLzeRun m rest s = .next t) : Keeps 274877906940 s t := by
  unfold execLzeRun at h
  cases h
  repeat' first
    | exact rfl
    | with_reducible exact Keeps.refl
    | with_reducible assumption
    | exact trivial
    | with_reducible refine keeps_wordWrite _ _ _ ?_ ?_

theorem frame_execLzeStop (m : Fin 32) (rest : BitVec 28) (s t : State) (h : execLzeStop m rest s = .next t) : Keeps 274877906940 s t := by
  unfold execLzeStop at h
  cases h
  repeat' first
    | exact rfl
    | with_reducible exact Keeps.refl
    | with_reducible assumption
    | exact trivial
    | with_reducible refine keeps_wordWrite _ _ _ ?_ ?_

theorem frame_execLzePush (m : Fin 32) (q : Fin 2) (h0 : BitVec 16) (index : BitVec 16) (s t : State) (h : execLzePush m q h0 index s = .next t) : Keeps 274877906940 s t := by
  unfold execLzePush at h
  cases h
  repeat' first
    | exact rfl
    | with_reducible exact Keeps.refl
    | with_reducible assumption
    | exact trivial
    | with_reducible refine keeps_wordWrite _ _ _ ?_ ?_

theorem frame_execLzeDonePop (m : Fin 32) (q : Fin 2) (v : Word) (s t : State) (h : execLzeDonePop m q v s = .next t) : Keeps 274877906940 s t := by
  unfold execLzeDonePop at h
  cases h
  repeat' first
    | exact rfl
    | with_reducible exact Keeps.refl
    | with_reducible assumption
    | exact trivial
    | with_reducible refine keeps_wordWrite _ _ _ ?_ ?_

theorem frame_execMemRetrain (m : Fin 32) (c : Fin 6) (rest : BitVec 28) (s t : State) (h : execMemRetrain m c rest s = .next t) : Keeps 274877906940 s t := by
  unfold execMemRetrain at h
  cases h
  repeat' first
    | exact rfl
    | with_reducible exact Keeps.refl
    | with_reducible assumption
    | exact trivial
    | with_reducible refine keeps_wordWrite _ _ _ ?_ ?_

theorem frame_execMemXlate (m : Fin 32) (v : Word) (s t : State) (h : execMemXlate m v s = .next t) : Keeps 274877906940 s t := by
  unfold execMemXlate at h
  cases h
  repeat' first
    | exact rfl
    | with_reducible exact Keeps.refl
    | with_reducible assumption
    | exact trivial
    | with_reducible refine keeps_wordWrite _ _ _ ?_ ?_

theorem frame_execScnRun (m : Fin 32) (rest : BitVec 28) (s t : State) (h : execScnRun m rest s = .next t) : Keeps 274877906940 s t := by
  unfold execScnRun at h
  cases h
  repeat' first
    | exact rfl
    | with_reducible exact Keeps.refl
    | with_reducible assumption
    | exact trivial
    | with_reducible refine keeps_wordWrite _ _ _ ?_ ?_

theorem frame_execScnStop (m : Fin 32) (rest : BitVec 28) (s t : State) (h : execScnStop m rest s = .next t) : Keeps 274877906940 s t := by
  unfold execScnStop at h
  cases h
  repeat' first
    | exact rfl
    | with_reducible exact Keeps.refl
    | with_reducible assumption
    | exact trivial
    | with_reducible refine keeps_wordWrite _ _ _ ?_ ?_

theorem frame_execScnLoadCmd (m : Fin 32) (v : Word) (s t : State) (h : execScnLoadCmd m v s = .next t) : Keeps 274877906940 s t := by
  unfold execScnLoadCmd at h
  cases h
  repeat' first
    | exact rfl
    | with_reducible exact Keeps.refl
    | with_reducible assumption
    | exact trivial
    | with_reducible refine keeps_wordWrite _ _ _ ?_ ?_

theorem frame_execScnLayerPush (m : Fin 32) (l : Fin 16) (h0 : BitVec 16) (s t : State) (h : execScnLayerPush m l h0 s = .next t) : Keeps 274877906940 s t := by
  unfold execScnLayerPush at h
  cases h
  repeat' first
    | exact rfl
    | with_reducible exact Keeps.refl
    | with_reducible assumption
    | exact trivial
    | with_reducible refine keeps_wordWrite _ _ _ ?_ ?_

theorem frame_execPcxEnable (m : Fin 32) (p : Fin 2) (rest : BitVec 28) (s t : State) (h : execPcxEnable m p rest s = .next t) : Keeps 274877906940 s t := by
  unfold execPcxEnable at h
  cases h
  repeat' first
    | exact rfl
    | with_reducible exact Keeps.refl
    | with_reducible assumption
    | exact trivial
    | with_reducible refine keeps_wordWrite _ _ _ ?_ ?_

theorem frame_execPcxDisable (m : Fin 32) (p : Fin 2) (rest : BitVec 28) (s t : State) (h : execPcxDisable m p rest s = .next t) : Keeps 274877906940 s t := by
  unfold execPcxDisable at h
  cases h
  repeat' first
    | exact rfl
    | with_reducible exact Keeps.refl
    | with_reducible assumption
    | exact trivial
    | with_reducible refine keeps_wordWrite _ _ _ ?_ ?_

theorem frame_execPcxEpWin (m : Fin 32) (p : Fin 2) (w : Fin 4) (h0 : BitVec 16) (s t : State) (h : execPcxEpWin m p w h0 s = .next t) : Keeps 274877906940 s t := by
  unfold execPcxEpWin at h
  cases h
  repeat' first
    | exact rfl
    | with_reducible exact Keeps.refl
    | with_reducible assumption
    | exact trivial
    | with_reducible refine keeps_wordWrite _ _ _ ?_ ?_

theorem frame_execPcxEpIrq (m : Fin 32) (p : Fin 2) (v : Word) (s t : State) (h : execPcxEpIrq m p v s = .next t) : Keeps 274877906940 s t := by
  unfold execPcxEpIrq at h
  cases h
  repeat' first
    | exact rfl
    | with_reducible exact Keeps.refl
    | with_reducible assumption
    | exact trivial
    | with_reducible refine keeps_wordWrite _ _ _ ?_ ?_

theorem frame_execAttach (m : Fin 32) (d : Fin 8) (rest : BitVec 28) (s t : State) (h : execAttach m d rest s = .next t) : Keeps 274877906940 s t := by
  unfold execAttach at h
  cases h
  repeat' first
    | exact rfl
    | with_reducible exact Keeps.refl
    | with_reducible assumption
    | exact trivial
    | with_reducible refine keeps_wordWrite _ _ _ ?_ ?_

theorem frame_execDetach (m : Fin 32) (d : Fin 8) (rest : BitVec 28) (s t : State) (h : execDetach m d rest s = .next t) : Keeps 274877906940 s t := by
  unfold execDetach at h
  cases h
  repeat' first
    | exact rfl
    | with_reducible exact Keeps.refl
    | with_reducible assumption
    | exact trivial
    | with_reducible refine keeps_wordWrite _ _ _ ?_ ?_

theorem frame_execFormat (m : Fin 32) (v : Fin 4) (rest : BitVec 28) (s t : State) (h : execFormat m v rest s = .next t) : Keeps 274877906940 s t := by
  unfold execFormat at h
  cases h
  repeat' first
    | exact rfl
    | with_reducible exact Keeps.refl
    | with_reducible assumption
    | exact trivial
    | with_reducible refine keeps_wordWrite _ _ _ ?_ ?_

theorem frame_execMount (m : Fin 32) (v : Fin 4) (rest : BitVec 28) (s t : State) (h : execMount m v rest s = .next t) : Keeps 274877906940 s t := by
  unfold execMount at h
  cases h
  repeat' first
    | exact rfl
    | with_reducible exact Keeps.refl
    | with_reducible assumption
    | exact trivial
    | with_reducible refine keeps_wordWrite _ _ _ ?_ ?_

theorem frame_execUnmount (m : Fin 32) (v : Fin 4) (rest : BitVec 28) (s t : State) (h : execUnmount m v rest s = .next t) : Keeps 274877906940 s t := by
  unfold execUnmount at h
  cases h
  repeat' first
    | exact rfl
    | with_reducible exact Keeps.refl
    | with_reducible assumption
    | exact trivial
    | with_reducible refine keeps_wordWrite _ _ _ ?_ ?_

theorem frame_execPcxVolPush (m : Fin 32) (v : Fin 4) (h0 : BitVec 16) (index : BitVec 16) (s t : State) (h : execPcxVolPush m v h0 index s = .next t) : Keeps 274877906940 s t := by
  unfold execPcxVolPush at h
  cases h
  repeat' first
    | exact rfl
    | with_reducible exact Keeps.refl
    | with_reducible assumption
    | exact trivial
    | with_reducible refine keeps_wordWrite _ _ _ ?_ ?_

theorem frame_execNetEnable (m : Fin 32) (q : Fin 2) (rest : BitVec 28) (s t : State) (h : execNetEnable m q rest s = .next t) : Keeps 274877906940 s t := by
  unfold execNetEnable at h
  cases h
  repeat' first
    | exact rfl
    | with_reducible exact Keeps.refl
    | with_reducible assumption
    | exact trivial
    | with_reducible refine keeps_wordWrite _ _ _ ?_ ?_

theorem frame_execNetDisable (m : Fin 32) (q : Fin 2) (rest : BitVec 28) (s t : State) (h : execNetDisable m q rest s = .next t) : Keeps 274877906940 s t := by
  unfold execNetDisable at h
  cases h
  repeat' first
    | exact rfl
    | with_reducible exact Keeps.refl
    | with_reducible assumption
    | exact trivial
    | with_reducible refine keeps_wordWrite _ _ _ ?_ ?_

theorem frame_execNetTxPush (m : Fin 32) (q : Fin 2) (t0 : Fin 32) (h0 : BitVec 16) (s t : State) (h : execNetTxPush m q t0 h0 s = .next t) : Keeps 274877906940 s t := by
  unfold execNetTxPush at h
  cases h
  repeat' first
    | exact rfl
    | with_reducible exact Keeps.refl
    | with_reducible assumption
    | exact trivial
    | with_reducible refine keeps_wordWrite _ _ _ ?_ ?_

theorem frame_execNetRxPush (m : Fin 32) (q : Fin 2) (r : Fin 16) (h0 : BitVec 16) (s t : State) (h : execNetRxPush m q r h0 s = .next t) : Keeps 274877906940 s t := by
  unfold execNetRxPush at h
  cases h
  repeat' first
    | exact rfl
    | with_reducible exact Keeps.refl
    | with_reducible assumption
    | exact trivial
    | with_reducible refine keeps_wordWrite _ _ _ ?_ ?_

theorem frame_execNetHcpSend (m : Fin 32) (lo : Word) (s t : State) (h : execNetHcpSend m lo s = .next t) : Keeps 274877906940 s t := by
  unfold execNetHcpSend at h
  cases h
  repeat' first
    | exact rfl
    | with_reducible exact Keeps.refl
    | with_reducible assumption
    | exact trivial
    | with_reducible refine keeps_wordWrite _ _ _ ?_ ?_

theorem frame_execAudStart (m : Fin 32) (p : Fin 16) (rest : BitVec 28) (s t : State) (h : execAudStart m p rest s = .next t) : Keeps 274877906940 s t := by
  unfold execAudStart at h
  cases h
  repeat' first
    | exact rfl
    | with_reducible exact Keeps.refl
    | with_reducible assumption
    | exact trivial
    | with_reducible refine keeps_wordWrite _ _ _ ?_ ?_

theorem frame_execAudStop (m : Fin 32) (p : Fin 16) (rest : BitVec 28) (s t : State) (h : execAudStop m p rest s = .next t) : Keeps 274877906940 s t := by
  unfold execAudStop at h
  cases h
  repeat' first
    | exact rfl
    | with_reducible exact Keeps.refl
    | with_reducible assumption
    | exact trivial
    | with_reducible refine keeps_wordWrite _ _ _ ?_ ?_

theorem frame_execAudAbort (m : Fin 32) (p : Fin 16) (rest : BitVec 28) (s t : State) (h : execAudAbort m p rest s = .next t) : Keeps 274877906940 s t := by
  unfold execAudAbort at h
  cases h
  repeat' first
    | exact rfl
    | with_reducible exact Keeps.refl
    | with_reducible assumption
    | exact trivial
    | with_reducible refine keeps_wordWrite _ _ _ ?_ ?_

theorem frame_execAudPush (m : Fin 32) (p : Fin 16) (h0 : BitVec 16) (s t : State) (h : execAudPush m p h0 s = .next t) : Keeps 274877906940 s t := by
  unfold execAudPush at h
  cases h
  repeat' first
    | exact rfl
    | with_reducible exact Keeps.refl
    | with_reducible assumption
    | exact trivial
    | with_reducible refine keeps_wordWrite _ _ _ ?_ ?_

theorem frame_execTwbEnable (m : Fin 32) (b : Fin 8) (rest : BitVec 28) (line : TwbLine) (s t : State) (h : execTwbEnable m b rest line s = .next t) : Keeps 274877906940 s t := by
  unfold execTwbEnable at h
  cases h
  repeat' first
    | exact rfl
    | with_reducible exact Keeps.refl
    | with_reducible assumption
    | exact trivial
    | with_reducible refine keeps_controlWrite _ _ _ _ _ ?_ ?_

theorem frame_execTwbDisable (m : Fin 32) (b : Fin 8) (rest : BitVec 28) (s t : State) (h : execTwbDisable m b rest s = .next t) : Keeps 274877906940 s t := by
  unfold execTwbDisable at h
  cases h
  repeat' first
    | exact rfl
    | with_reducible exact Keeps.refl
    | with_reducible assumption
    | exact trivial
    | with_reducible refine keeps_wordWrite _ _ _ ?_ ?_

theorem frame_execTwbClear (m : Fin 32) (b : Fin 8) (rest : BitVec 28) (line : TwbLine) (s t : State) (h : execTwbClear m b rest line s = .next t) : Keeps 274877906940 s t := by
  unfold execTwbClear at h
  cases h
  repeat' first
    | exact rfl
    | with_reducible exact Keeps.refl
    | with_reducible assumption
    | exact trivial
    | with_reducible refine keeps_controlWrite _ _ _ _ _ ?_ ?_

theorem frame_execTwbAbort (m : Fin 32) (b : Fin 8) (rest : BitVec 28) (s t : State) (h : execTwbAbort m b rest s = .next t) : Keeps 274877906940 s t := by
  unfold execTwbAbort at h
  cases h
  repeat' first
    | exact rfl
    | with_reducible exact Keeps.refl
    | with_reducible assumption
    | exact trivial
    | with_reducible refine keeps_wordWrite _ _ _ ?_ ?_

theorem frame_execTwbXfer (m : Fin 32) (b : Fin 8) (rest : BitVec 31) (s t : State) (h : execTwbXfer m b rest s = .next t) : Keeps 274877906940 s t := by
  unfold execTwbXfer at h
  cases h
  repeat' first
    | exact rfl
    | with_reducible exact Keeps.refl
    | with_reducible assumption
    | exact trivial
    | with_reducible refine keeps_wordWrite _ _ _ ?_ ?_

theorem frame_execTwbAlert (m : Fin 32) (b : Fin 8) (rest : BitVec 31) (s t : State) (h : execTwbAlert m b rest s = .next t) : Keeps 274877906940 s t := by
  unfold execTwbAlert at h
  cases h
  repeat' first
    | exact rfl
    | with_reducible exact Keeps.refl
    | with_reducible assumption
    | exact trivial
    | with_reducible refine keeps_wordWrite _ _ _ ?_ ?_

theorem frame_execCertLoad (m : Fin 32) (rest : BitVec 28) (s t : State) (h : execCertLoad m rest s = .next t) : Keeps 274877906940 s t := by
  unfold execCertLoad at h
  cases h
  repeat' first
    | exact rfl
    | with_reducible exact Keeps.refl
    | with_reducible assumption
    | exact trivial
    | with_reducible refine keeps_wordWrite _ _ _ ?_ ?_

theorem frame_execOwnerBurn (m : Fin 32) (rest : BitVec 28) (burnt : Bool) (s t : State) (h : execOwnerBurn m rest burnt s = .next t) : Keeps 274877906940 s t := by
  unfold execOwnerBurn at h
  cases h
  repeat' first
    | exact rfl
    | with_reducible exact Keeps.refl
    | with_reducible assumption
    | exact trivial
    | with_reducible refine keeps_controlWrite _ _ _ _ _ ?_ ?_

theorem frame_execOwnerRevoke (m : Fin 32) (rest : BitVec 28) (burnt : Bool) (s t : State) (h : execOwnerRevoke m rest burnt s = .next t) : Keeps 274877906940 s t := by
  unfold execOwnerRevoke at h
  cases h
  repeat' first
    | exact rfl
    | with_reducible exact Keeps.refl
    | with_reducible assumption
    | exact trivial
    | with_reducible refine keeps_controlWrite _ _ _ _ _ ?_ ?_

theorem frame_execPolicyBurn (m : Fin 32) (rest : BitVec 28) (burnt : Bool) (s t : State) (h : execPolicyBurn m rest burnt s = .next t) : Keeps 274877906940 s t := by
  unfold execPolicyBurn at h
  cases h
  repeat' first
    | exact rfl
    | with_reducible exact Keeps.refl
    | with_reducible assumption
    | exact trivial
    | with_reducible refine keeps_controlWrite _ _ _ _ _ ?_ ?_

theorem frame_execRecipSet (m : Fin 32) (rest : BitVec 28) (s t : State) (h : execRecipSet m rest s = .next t) : Keeps 274877906940 s t := by
  unfold execRecipSet at h
  cases h
  repeat' first
    | exact rfl
    | with_reducible exact Keeps.refl
    | with_reducible assumption
    | exact trivial
    | with_reducible refine keeps_wordWrite _ _ _ ?_ ?_

theorem frame_execClipOpen (m : Fin 32) (rest : BitVec 28) (s t : State) (h : execClipOpen m rest s = .next t) : Keeps 274877906940 s t := by
  unfold execClipOpen at h
  cases h
  repeat' first
    | exact rfl
    | with_reducible exact Keeps.refl
    | with_reducible assumption
    | exact trivial
    | with_reducible refine keeps_wordWrite _ _ _ ?_ ?_

theorem frame_execClipLoad (m : Fin 32) (rest : BitVec 28) (s t : State) (h : execClipLoad m rest s = .next t) : Keeps 274877906940 s t := by
  unfold execClipLoad at h
  cases h
  repeat' first
    | exact rfl
    | with_reducible exact Keeps.refl
    | with_reducible assumption
    | exact trivial
    | with_reducible refine keeps_wordWrite _ _ _ ?_ ?_

theorem frame_execClipClose (m : Fin 32) (rest : BitVec 28) (s t : State) (h : execClipClose m rest s = .next t) : Keeps 274877906940 s t := by
  unfold execClipClose at h
  cases h
  repeat' first
    | exact rfl
    | with_reducible exact Keeps.refl
    | with_reducible assumption
    | exact trivial
    | with_reducible refine keeps_wordWrite _ _ _ ?_ ?_

theorem frame_execArrayKey (m : Fin 32) (rest : BitVec 28) (s t : State) (h : execArrayKey m rest s = .next t) : Keeps 274877906940 s t := by
  unfold execArrayKey at h
  cases h
  repeat' first
    | exact rfl
    | with_reducible exact Keeps.refl
    | with_reducible assumption
    | exact trivial
    | with_reducible refine keeps_wordWrite _ _ _ ?_ ?_

theorem frame_execAttest (m : Fin 32) (rest : BitVec 28) (s t : State) (h : execAttest m rest s = .next t) : Keeps 274877906940 s t := by
  unfold execAttest at h
  cases h
  repeat' first
    | exact rfl
    | with_reducible exact Keeps.refl
    | with_reducible assumption
    | exact trivial
    | with_reducible refine keeps_wordWrite _ _ _ ?_ ?_

theorem frame_execSecPush (m : Fin 32) (h0 : BitVec 16) (s t : State) (h : execSecPush m h0 s = .next t) : Keeps 274877906940 s t := by
  unfold execSecPush at h
  cases h
  repeat' first
    | exact rfl
    | with_reducible exact Keeps.refl
    | with_reducible assumption
    | exact trivial
    | with_reducible refine keeps_wordWrite _ _ _ ?_ ?_

theorem frame_execRecord (m : Fin 32) (s t : State) (h : execRecord m s = .next t) : Keeps 274877906940 s t := by
  unfold execRecord at h
  cases h
  repeat' first
    | exact rfl
    | with_reducible exact Keeps.refl
    | with_reducible assumption
    | exact trivial
    | with_reducible refine keeps_wordWrite _ _ _ ?_ ?_

theorem frame_execReplay (m : Fin 32) (s t : State) (h : execReplay m s = .next t) : Keeps 274877906940 s t := by
  unfold execReplay at h
  cases h
  repeat' first
    | exact rfl
    | with_reducible exact Keeps.refl
    | with_reducible assumption
    | exact trivial
    | with_reducible refine keeps_wordWrite _ _ _ ?_ ?_

theorem frame_execLogRun (m : Fin 32) (s t : State) (h : execLogRun m s = .next t) : Keeps 274877906940 s t := by
  unfold execLogRun at h
  cases h
  repeat' first
    | exact rfl
    | with_reducible exact Keeps.refl
    | with_reducible assumption
    | exact trivial
    | with_reducible refine keeps_wordWrite _ _ _ ?_ ?_

theorem frame_execLogStop (m : Fin 32) (s t : State) (h : execLogStop m s = .next t) : Keeps 274877906940 s t := by
  unfold execLogStop at h
  cases h
  repeat' first
    | exact rfl
    | with_reducible exact Keeps.refl
    | with_reducible assumption
    | exact trivial
    | with_reducible refine keeps_wordWrite _ _ _ ?_ ?_

theorem frame_execLogOutPush (m : Fin 32) (h0 : BitVec 16) (s t : State) (h : execLogOutPush m h0 s = .next t) : Keeps 274877906940 s t := by
  unfold execLogOutPush at h
  cases h
  repeat' first
    | exact rfl
    | with_reducible exact Keeps.refl
    | with_reducible assumption
    | exact trivial
    | with_reducible refine keeps_wordWrite _ _ _ ?_ ?_

theorem frame_execLogInPush (m : Fin 32) (h0 : BitVec 16) (s t : State) (h : execLogInPush m h0 s = .next t) : Keeps 274877906940 s t := by
  unfold execLogInPush at h
  cases h
  repeat' first
    | exact rfl
    | with_reducible exact Keeps.refl
    | with_reducible assumption
    | exact trivial
    | with_reducible refine keeps_wordWrite _ _ _ ?_ ?_

theorem frame_execLogFeed (m : Fin 32) (p : Fin 4) (raw : BitVec 16) (map : BitVec 16) (s t : State) (h : execLogFeed m p raw map s = .next t) : Keeps 274877906940 s t := by
  unfold execLogFeed at h
  cases h
  repeat' first
    | exact rfl
    | with_reducible exact Keeps.refl
    | with_reducible assumption
    | exact trivial
    | with_reducible refine keeps_wordWrite _ _ _ ?_ ?_

theorem frame_execSleep (m : Fin 32) (rest : BitVec 28) (s t : State) (h : execSleep m rest s = .next t) : Keeps 274877906940 s t := by
  unfold execSleep at h
  cases h
  repeat' first
    | exact rfl
    | with_reducible exact Keeps.refl
    | with_reducible assumption
    | exact trivial
    | with_reducible refine keeps_wordWrite _ _ _ ?_ ?_

theorem frame_execWarm (m : Fin 32) (rest : BitVec 28) (s t : State) (h : execWarm m rest s = .next t) : Keeps 274877906940 s t := by
  unfold execWarm at h
  cases h
  repeat' first
    | exact rfl
    | with_reducible exact Keeps.refl
    | with_reducible assumption
    | exact trivial
    | with_reducible refine keeps_wordWrite _ _ _ ?_ ?_

theorem frame_execPwrBlockReset (m : Fin 32) (v : Word) (s t : State) (h : execPwrBlockReset m v s = .next t) : Keeps 274877906940 s t := by
  unfold execPwrBlockReset at h
  cases h
  repeat' first
    | exact rfl
    | with_reducible exact Keeps.refl
    | with_reducible assumption
    | exact trivial
    | with_reducible refine keeps_wordWrite _ _ _ ?_ ?_

theorem frame_execWdogKick (m : Fin 32) (v : Word) (s t : State) (h : execWdogKick m v s = .next t) : Keeps 274877906940 s t := by
  unfold execWdogKick at h
  cases h
  repeat' first
    | exact rfl
    | with_reducible exact Keeps.refl
    | with_reducible assumption
    | exact trivial
    | with_reducible refine keeps_wordWrite _ _ _ ?_ ?_

end Sys2Proof.Machine
end

