-- ==== Sys2Proof/Laws/State.lean ====
section
/-! SUPPORT. What the updates of the state read as: one lemma per field that an update leaves alone, and the values that each table, word and field reads after it. -/

namespace Sys2Proof.Machine

/-! ### Bits of a number -/

theorem bits_lt (n hi lo : Nat) : bits n hi lo < 2 ^ (hi + 1 - lo) := Nat.mod_lt _ (Nat.two_pow_pos _)

theorem bits_testBit (n hi lo i : Nat) : (bits n hi lo).testBit i = (decide (i < hi + 1 - lo) && n.testBit (lo + i)) := by
  simp [bits, Nat.testBit_mod_two_pow]

theorem putBits_eq_or (n hi lo v : Nat) (h : lo ≤ hi) :
    putBits n hi lo v = (n >>> (hi + 1)) <<< (hi + 1) ||| (v % 2 ^ (hi + 1 - lo)) <<< lo ||| n % 2 ^ lo := by
  have h1 : (v % 2 ^ (hi + 1 - lo)) <<< lo < 2 ^ (hi + 1) := by
    rw [Nat.shiftLeft_eq]
    calc _ < 2 ^ (hi + 1 - lo) * 2 ^ lo := Nat.mul_lt_mul_of_pos_right (Nat.mod_lt _ (Nat.two_pow_pos _)) (Nat.two_pow_pos _)
      _ = 2 ^ (hi + 1) := by rw [← Nat.pow_add]; congr 1; omega
  have h2 : (v % 2 ^ (hi + 1 - lo)) <<< lo + n % 2 ^ lo = (v % 2 ^ (hi + 1 - lo)) <<< lo ||| n % 2 ^ lo :=
    Nat.shiftLeft_add_eq_or_of_lt (Nat.mod_lt _ (Nat.two_pow_pos _)) _
  have h3 : (v % 2 ^ (hi + 1 - lo)) <<< lo + n % 2 ^ lo < 2 ^ (hi + 1) := by
    rw [h2]
    exact Nat.or_lt_two_pow h1 (Nat.lt_of_lt_of_le (Nat.mod_lt _ (Nat.two_pow_pos _)) (Nat.pow_le_pow_right (by decide) (by omega)))
  rw [putBits, Nat.add_assoc, Nat.shiftLeft_add_eq_or_of_lt h3, h2, Nat.or_assoc]

theorem putBits_testBit (n hi lo v i : Nat) (h : lo ≤ hi) :
    (putBits n hi lo v).testBit i = if lo ≤ i ∧ i ≤ hi then v.testBit (i - lo) else n.testBit i := by
  rw [putBits_eq_or n hi lo v h]
  simp only [Nat.testBit_or, Nat.testBit_shiftLeft, Nat.testBit_shiftRight, Nat.testBit_mod_two_pow]
  by_cases h1 : lo ≤ i <;> by_cases h2 : i ≤ hi
  · have a1 : ¬ (hi + 1 ≤ i) := by omega
    have a2 : i - lo < hi + 1 - lo := by omega
    have a3 : ¬ (i < lo) := by omega
    simp [h1, h2, a1, a2, a3]
  · have a1 : hi + 1 ≤ i := by omega
    have a2 : ¬ (i - lo < hi + 1 - lo) := by omega
    have a3 : ¬ (i < lo) := by omega
    have a4 : hi + 1 + (i - (hi + 1)) = i := by omega
    simp [h1, h2, a1, a2, a3, a4]
  · have a1 : ¬ (hi + 1 ≤ i) := by omega
    have a3 : i < lo := by omega
    simp [h1, a1, a3]
  · omega

theorem bits_putBits_same (n hi lo v : Nat) (h : lo ≤ hi) : bits (putBits n hi lo v) hi lo = v % 2 ^ (hi + 1 - lo) := by
  apply Nat.eq_of_testBit_eq
  intro i
  rw [bits_testBit, putBits_testBit _ _ _ _ _ h, Nat.testBit_mod_two_pow]
  by_cases hi' : i < hi + 1 - lo
  · have : lo ≤ lo + i ∧ lo + i ≤ hi := by omega
    simp [hi', this]
  · simp [hi']

theorem bits_putBits_other (n hi lo v hi' lo' : Nat) (h : lo ≤ hi) (hd : hi' < lo ∨ hi < lo') :
    bits (putBits n hi lo v) hi' lo' = bits n hi' lo' := by
  apply Nat.eq_of_testBit_eq
  intro i
  rw [bits_testBit, bits_testBit, putBits_testBit _ _ _ _ _ h]
  by_cases hi'' : i < hi' + 1 - lo'
  · have : ¬ (lo ≤ lo' + i ∧ lo' + i ≤ hi) := by omega
    simp [this]
  · simp [hi'']

theorem putBits_lt {n hi lo v w : Nat} (hn : n < 2 ^ w) (h : lo ≤ hi) (hw : hi < w) : putBits n hi lo v < 2 ^ w := by
  apply Nat.lt_pow_two_of_testBit
  intro i hi'
  rw [putBits_testBit _ _ _ _ _ h, if_neg (by omega)]
  exact Nat.testBit_lt_two_pow (Nat.lt_of_lt_of_le hn (Nat.pow_le_pow_right (by decide) hi'))

theorem bits_mod_two_pow (n w hi lo : Nat) (h : hi < w) : bits (n % 2 ^ w) hi lo = bits n hi lo := by
  apply Nat.eq_of_testBit_eq
  intro i
  rw [bits_testBit, bits_testBit, Nat.testBit_mod_two_pow]
  by_cases h' : i < hi + 1 - lo
  · have : lo + i < w := by omega
    simp [this]
  · simp [h']

namespace State

/-! ### Fields that an update leaves alone -/

@[simp] theorem setWord_pending (s : State) (a : Nat) (v : Word) : (s.setWord a v).pending = s.pending := rfl
@[simp] theorem setWord_now (s : State) (a : Nat) (v : Word) : (s.setWord a v).now = s.now := rfl
@[simp] theorem setWord_fresh (s : State) (a : Nat) (v : Word) : (s.setWord a v).fresh = s.fresh := rfl
@[simp] theorem setWord_held (s : State) (a : Nat) (v : Word) : (s.setWord a v).held = s.held := rfl
@[simp] theorem setWord_latched (s : State) (a : Nat) (v : Word) : (s.setWord a v).latched = s.latched := rfl
@[simp] theorem setWord_rsp (s : State) (a : Nat) (v : Word) : (s.setWord a v).rsp = s.rsp := rfl
@[simp] theorem setWord_evSet (s : State) (a : Nat) (v : Word) : (s.setWord a v).evSet = s.evSet := rfl
@[simp] theorem setWord_evAdd (s : State) (a : Nat) (v : Word) : (s.setWord a v).evAdd = s.evAdd := rfl
@[simp] theorem setWord_evPosted (s : State) (a : Nat) (v : Word) : (s.setWord a v).evPosted = s.evPosted := rfl
@[simp] theorem setWord_mem (s : State) (a : Nat) (v : Word) : (s.setWord a v).mem = s.mem := rfl
@[simp] theorem setWord_fab (s : State) (a : Nat) (v : Word) : (s.setWord a v).fab = s.fab := rfl
@[simp] theorem setWord_sys (s : State) (a : Nat) (v : Word) : (s.setWord a v).sys = s.sys := rfl
@[simp] theorem setWord_time (s : State) (a : Nat) (v : Word) : (s.setWord a v).time = s.time := rfl
@[simp] theorem setWord_pilots (s : State) (a : Nat) (v : Word) : (s.setWord a v).pilots = s.pilots := rfl
@[simp] theorem setWord_shared (s : State) (a : Nat) (v : Word) : (s.setWord a v).shared = s.shared := rfl
@[simp] theorem setWord_published (s : State) (a : Nat) (v : Word) : (s.setWord a v).published = s.published := rfl
@[simp] theorem setWord_log (s : State) (a : Nat) (v : Word) : (s.setWord a v).log = s.log := rfl
@[simp] theorem setWord_queues (s : State) (a : Nat) (v : Word) : (s.setWord a v).queues = s.queues := rfl
@[simp] theorem setWord_leaves (s : State) (a : Nat) (v : Word) : (s.setWord a v).leaves = s.leaves := rfl
@[simp] theorem setWord_cal (s : State) (a : Nat) (v : Word) : (s.setWord a v).cal = s.cal := rfl
@[simp] theorem setWord_lanes (s : State) (a : Nat) (v : Word) : (s.setWord a v).lanes = s.lanes := rfl
@[simp] theorem setWord_ports (s : State) (a : Nat) (v : Word) : (s.setWord a v).ports = s.ports := rfl
@[simp] theorem setWord_pipes (s : State) (a : Nat) (v : Word) : (s.setWord a v).pipes = s.pipes := rfl
@[simp] theorem setWord_encPics (s : State) (a : Nat) (v : Word) : (s.setWord a v).encPics = s.encPics := rfl
@[simp] theorem setWord_encStreams (s : State) (a : Nat) (v : Word) : (s.setWord a v).encStreams = s.encStreams := rfl
@[simp] theorem setWord_decs (s : State) (a : Nat) (v : Word) : (s.setWord a v).decs = s.decs := rfl
@[simp] theorem setWord_lze (s : State) (a : Nat) (v : Word) : (s.setWord a v).lze = s.lze := rfl
@[simp] theorem setWord_memsys (s : State) (a : Nat) (v : Word) : (s.setWord a v).memsys = s.memsys := rfl
@[simp] theorem setWord_scn (s : State) (a : Nat) (v : Word) : (s.setWord a v).scn = s.scn := rfl
@[simp] theorem setWord_pcx (s : State) (a : Nat) (v : Word) : (s.setWord a v).pcx = s.pcx := rfl
@[simp] theorem setWord_sec (s : State) (a : Nat) (v : Word) : (s.setWord a v).sec = s.sec := rfl
@[simp] theorem setWord_nets (s : State) (a : Nat) (v : Word) : (s.setWord a v).nets = s.nets := rfl
@[simp] theorem setWord_hcp (s : State) (a : Nat) (v : Word) : (s.setWord a v).hcp = s.hcp := rfl
@[simp] theorem setWord_aud (s : State) (a : Nat) (v : Word) : (s.setWord a v).aud = s.aud := rfl
@[simp] theorem setWord_twbs (s : State) (a : Nat) (v : Word) : (s.setWord a v).twbs = s.twbs := rfl
@[simp] theorem setWord_gpio (s : State) (a : Nat) (v : Word) : (s.setWord a v).gpio = s.gpio := rfl
@[simp] theorem setWord_pwr (s : State) (a : Nat) (v : Word) : (s.setWord a v).pwr = s.pwr := rfl
@[simp] theorem setWord_jtag (s : State) (a : Nat) (v : Word) : (s.setWord a v).jtag = s.jtag := rfl
@[simp] theorem setFld_pending (s : State) (f : Fld) (v : Nat) : (s.setFld f v).pending = s.pending := rfl
@[simp] theorem setFld_now (s : State) (f : Fld) (v : Nat) : (s.setFld f v).now = s.now := rfl
@[simp] theorem setFld_fresh (s : State) (f : Fld) (v : Nat) : (s.setFld f v).fresh = s.fresh := rfl
@[simp] theorem setFld_held (s : State) (f : Fld) (v : Nat) : (s.setFld f v).held = s.held := rfl
@[simp] theorem setFld_latched (s : State) (f : Fld) (v : Nat) : (s.setFld f v).latched = s.latched := rfl
@[simp] theorem setFld_rsp (s : State) (f : Fld) (v : Nat) : (s.setFld f v).rsp = s.rsp := rfl
@[simp] theorem setFld_evSet (s : State) (f : Fld) (v : Nat) : (s.setFld f v).evSet = s.evSet := rfl
@[simp] theorem setFld_evAdd (s : State) (f : Fld) (v : Nat) : (s.setFld f v).evAdd = s.evAdd := rfl
@[simp] theorem setFld_evPosted (s : State) (f : Fld) (v : Nat) : (s.setFld f v).evPosted = s.evPosted := rfl
@[simp] theorem setFld_mem (s : State) (f : Fld) (v : Nat) : (s.setFld f v).mem = s.mem := rfl
@[simp] theorem setFld_fab (s : State) (f : Fld) (v : Nat) : (s.setFld f v).fab = s.fab := rfl
@[simp] theorem setFld_sys (s : State) (f : Fld) (v : Nat) : (s.setFld f v).sys = s.sys := rfl
@[simp] theorem setFld_time (s : State) (f : Fld) (v : Nat) : (s.setFld f v).time = s.time := rfl
@[simp] theorem setFld_pilots (s : State) (f : Fld) (v : Nat) : (s.setFld f v).pilots = s.pilots := rfl
@[simp] theorem setFld_shared (s : State) (f : Fld) (v : Nat) : (s.setFld f v).shared = s.shared := rfl
@[simp] theorem setFld_published (s : State) (f : Fld) (v : Nat) : (s.setFld f v).published = s.published := rfl
@[simp] theorem setFld_log (s : State) (f : Fld) (v : Nat) : (s.setFld f v).log = s.log := rfl
@[simp] theorem setFld_queues (s : State) (f : Fld) (v : Nat) : (s.setFld f v).queues = s.queues := rfl
@[simp] theorem setFld_leaves (s : State) (f : Fld) (v : Nat) : (s.setFld f v).leaves = s.leaves := rfl
@[simp] theorem setFld_cal (s : State) (f : Fld) (v : Nat) : (s.setFld f v).cal = s.cal := rfl
@[simp] theorem setFld_lanes (s : State) (f : Fld) (v : Nat) : (s.setFld f v).lanes = s.lanes := rfl
@[simp] theorem setFld_ports (s : State) (f : Fld) (v : Nat) : (s.setFld f v).ports = s.ports := rfl
@[simp] theorem setFld_pipes (s : State) (f : Fld) (v : Nat) : (s.setFld f v).pipes = s.pipes := rfl
@[simp] theorem setFld_encPics (s : State) (f : Fld) (v : Nat) : (s.setFld f v).encPics = s.encPics := rfl
@[simp] theorem setFld_encStreams (s : State) (f : Fld) (v : Nat) : (s.setFld f v).encStreams = s.encStreams := rfl
@[simp] theorem setFld_decs (s : State) (f : Fld) (v : Nat) : (s.setFld f v).decs = s.decs := rfl
@[simp] theorem setFld_lze (s : State) (f : Fld) (v : Nat) : (s.setFld f v).lze = s.lze := rfl
@[simp] theorem setFld_memsys (s : State) (f : Fld) (v : Nat) : (s.setFld f v).memsys = s.memsys := rfl
@[simp] theorem setFld_scn (s : State) (f : Fld) (v : Nat) : (s.setFld f v).scn = s.scn := rfl
@[simp] theorem setFld_pcx (s : State) (f : Fld) (v : Nat) : (s.setFld f v).pcx = s.pcx := rfl
@[simp] theorem setFld_sec (s : State) (f : Fld) (v : Nat) : (s.setFld f v).sec = s.sec := rfl
@[simp] theorem setFld_nets (s : State) (f : Fld) (v : Nat) : (s.setFld f v).nets = s.nets := rfl
@[simp] theorem setFld_hcp (s : State) (f : Fld) (v : Nat) : (s.setFld f v).hcp = s.hcp := rfl
@[simp] theorem setFld_aud (s : State) (f : Fld) (v : Nat) : (s.setFld f v).aud = s.aud := rfl
@[simp] theorem setFld_twbs (s : State) (f : Fld) (v : Nat) : (s.setFld f v).twbs = s.twbs := rfl
@[simp] theorem setFld_gpio (s : State) (f : Fld) (v : Nat) : (s.setFld f v).gpio = s.gpio := rfl
@[simp] theorem setFld_pwr (s : State) (f : Fld) (v : Nat) : (s.setFld f v).pwr = s.pwr := rfl
@[simp] theorem setFld_jtag (s : State) (f : Fld) (v : Nat) : (s.setFld f v).jtag = s.jtag := rfl
@[simp] theorem setFld2_pending (s : State) (lo hi : Fld) (v : Nat) : (s.setFld2 lo hi v).pending = s.pending := rfl
@[simp] theorem setFld2_now (s : State) (lo hi : Fld) (v : Nat) : (s.setFld2 lo hi v).now = s.now := rfl
@[simp] theorem setFld2_fresh (s : State) (lo hi : Fld) (v : Nat) : (s.setFld2 lo hi v).fresh = s.fresh := rfl
@[simp] theorem setFld2_held (s : State) (lo hi : Fld) (v : Nat) : (s.setFld2 lo hi v).held = s.held := rfl
@[simp] theorem setFld2_latched (s : State) (lo hi : Fld) (v : Nat) : (s.setFld2 lo hi v).latched = s.latched := rfl
@[simp] theorem setFld2_rsp (s : State) (lo hi : Fld) (v : Nat) : (s.setFld2 lo hi v).rsp = s.rsp := rfl
@[simp] theorem setFld2_evSet (s : State) (lo hi : Fld) (v : Nat) : (s.setFld2 lo hi v).evSet = s.evSet := rfl
@[simp] theorem setFld2_evAdd (s : State) (lo hi : Fld) (v : Nat) : (s.setFld2 lo hi v).evAdd = s.evAdd := rfl
@[simp] theorem setFld2_evPosted (s : State) (lo hi : Fld) (v : Nat) : (s.setFld2 lo hi v).evPosted = s.evPosted := rfl
@[simp] theorem setFld2_mem (s : State) (lo hi : Fld) (v : Nat) : (s.setFld2 lo hi v).mem = s.mem := rfl
@[simp] theorem setFld2_fab (s : State) (lo hi : Fld) (v : Nat) : (s.setFld2 lo hi v).fab = s.fab := rfl
@[simp] theorem setFld2_sys (s : State) (lo hi : Fld) (v : Nat) : (s.setFld2 lo hi v).sys = s.sys := rfl
@[simp] theorem setFld2_time (s : State) (lo hi : Fld) (v : Nat) : (s.setFld2 lo hi v).time = s.time := rfl
@[simp] theorem setFld2_pilots (s : State) (lo hi : Fld) (v : Nat) : (s.setFld2 lo hi v).pilots = s.pilots := rfl
@[simp] theorem setFld2_shared (s : State) (lo hi : Fld) (v : Nat) : (s.setFld2 lo hi v).shared = s.shared := rfl
@[simp] theorem setFld2_published (s : State) (lo hi : Fld) (v : Nat) : (s.setFld2 lo hi v).published = s.published := rfl
@[simp] theorem setFld2_log (s : State) (lo hi : Fld) (v : Nat) : (s.setFld2 lo hi v).log = s.log := rfl
@[simp] theorem setFld2_queues (s : State) (lo hi : Fld) (v : Nat) : (s.setFld2 lo hi v).queues = s.queues := rfl
@[simp] theorem setFld2_leaves (s : State) (lo hi : Fld) (v : Nat) : (s.setFld2 lo hi v).leaves = s.leaves := rfl
@[simp] theorem setFld2_cal (s : State) (lo hi : Fld) (v : Nat) : (s.setFld2 lo hi v).cal = s.cal := rfl
@[simp] theorem setFld2_lanes (s : State) (lo hi : Fld) (v : Nat) : (s.setFld2 lo hi v).lanes = s.lanes := rfl
@[simp] theorem setFld2_ports (s : State) (lo hi : Fld) (v : Nat) : (s.setFld2 lo hi v).ports = s.ports := rfl
@[simp] theorem setFld2_pipes (s : State) (lo hi : Fld) (v : Nat) : (s.setFld2 lo hi v).pipes = s.pipes := rfl
@[simp] theorem setFld2_encPics (s : State) (lo hi : Fld) (v : Nat) : (s.setFld2 lo hi v).encPics = s.encPics := rfl
@[simp] theorem setFld2_encStreams (s : State) (lo hi : Fld) (v : Nat) : (s.setFld2 lo hi v).encStreams = s.encStreams := rfl
@[simp] theorem setFld2_decs (s : State) (lo hi : Fld) (v : Nat) : (s.setFld2 lo hi v).decs = s.decs := rfl
@[simp] theorem setFld2_lze (s : State) (lo hi : Fld) (v : Nat) : (s.setFld2 lo hi v).lze = s.lze := rfl
@[simp] theorem setFld2_memsys (s : State) (lo hi : Fld) (v : Nat) : (s.setFld2 lo hi v).memsys = s.memsys := rfl
@[simp] theorem setFld2_scn (s : State) (lo hi : Fld) (v : Nat) : (s.setFld2 lo hi v).scn = s.scn := rfl
@[simp] theorem setFld2_pcx (s : State) (lo hi : Fld) (v : Nat) : (s.setFld2 lo hi v).pcx = s.pcx := rfl
@[simp] theorem setFld2_sec (s : State) (lo hi : Fld) (v : Nat) : (s.setFld2 lo hi v).sec = s.sec := rfl
@[simp] theorem setFld2_nets (s : State) (lo hi : Fld) (v : Nat) : (s.setFld2 lo hi v).nets = s.nets := rfl
@[simp] theorem setFld2_hcp (s : State) (lo hi : Fld) (v : Nat) : (s.setFld2 lo hi v).hcp = s.hcp := rfl
@[simp] theorem setFld2_aud (s : State) (lo hi : Fld) (v : Nat) : (s.setFld2 lo hi v).aud = s.aud := rfl
@[simp] theorem setFld2_twbs (s : State) (lo hi : Fld) (v : Nat) : (s.setFld2 lo hi v).twbs = s.twbs := rfl
@[simp] theorem setFld2_gpio (s : State) (lo hi : Fld) (v : Nat) : (s.setFld2 lo hi v).gpio = s.gpio := rfl
@[simp] theorem setFld2_pwr (s : State) (lo hi : Fld) (v : Nat) : (s.setFld2 lo hi v).pwr = s.pwr := rfl
@[simp] theorem setFld2_jtag (s : State) (lo hi : Fld) (v : Nat) : (s.setFld2 lo hi v).jtag = s.jtag := rfl
@[simp] theorem setBitsOf_pending (s : State) (a m : Nat) : (s.setBitsOf a m).pending = s.pending := rfl
@[simp] theorem setBitsOf_now (s : State) (a m : Nat) : (s.setBitsOf a m).now = s.now := rfl
@[simp] theorem setBitsOf_fresh (s : State) (a m : Nat) : (s.setBitsOf a m).fresh = s.fresh := rfl
@[simp] theorem setBitsOf_held (s : State) (a m : Nat) : (s.setBitsOf a m).held = s.held := rfl
@[simp] theorem setBitsOf_latched (s : State) (a m : Nat) : (s.setBitsOf a m).latched = s.latched := rfl
@[simp] theorem setBitsOf_rsp (s : State) (a m : Nat) : (s.setBitsOf a m).rsp = s.rsp := rfl
@[simp] theorem setBitsOf_evAdd (s : State) (a m : Nat) : (s.setBitsOf a m).evAdd = s.evAdd := rfl
@[simp] theorem setBitsOf_evPosted (s : State) (a m : Nat) : (s.setBitsOf a m).evPosted = s.evPosted := rfl
@[simp] theorem setBitsOf_mem (s : State) (a m : Nat) : (s.setBitsOf a m).mem = s.mem := rfl
@[simp] theorem setBitsOf_fab (s : State) (a m : Nat) : (s.setBitsOf a m).fab = s.fab := rfl
@[simp] theorem setBitsOf_sys (s : State) (a m : Nat) : (s.setBitsOf a m).sys = s.sys := rfl
@[simp] theorem setBitsOf_time (s : State) (a m : Nat) : (s.setBitsOf a m).time = s.time := rfl
@[simp] theorem setBitsOf_pilots (s : State) (a m : Nat) : (s.setBitsOf a m).pilots = s.pilots := rfl
@[simp] theorem setBitsOf_shared (s : State) (a m : Nat) : (s.setBitsOf a m).shared = s.shared := rfl
@[simp] theorem setBitsOf_published (s : State) (a m : Nat) : (s.setBitsOf a m).published = s.published := rfl
@[simp] theorem setBitsOf_log (s : State) (a m : Nat) : (s.setBitsOf a m).log = s.log := rfl
@[simp] theorem setBitsOf_queues (s : State) (a m : Nat) : (s.setBitsOf a m).queues = s.queues := rfl
@[simp] theorem setBitsOf_leaves (s : State) (a m : Nat) : (s.setBitsOf a m).leaves = s.leaves := rfl
@[simp] theorem setBitsOf_cal (s : State) (a m : Nat) : (s.setBitsOf a m).cal = s.cal := rfl
@[simp] theorem setBitsOf_lanes (s : State) (a m : Nat) : (s.setBitsOf a m).lanes = s.lanes := rfl
@[simp] theorem setBitsOf_ports (s : State) (a m : Nat) : (s.setBitsOf a m).ports = s.ports := rfl
@[simp] theorem setBitsOf_pipes (s : State) (a m : Nat) : (s.setBitsOf a m).pipes = s.pipes := rfl
@[simp] theorem setBitsOf_encPics (s : State) (a m : Nat) : (s.setBitsOf a m).encPics = s.encPics := rfl
@[simp] theorem setBitsOf_encStreams (s : State) (a m : Nat) : (s.setBitsOf a m).encStreams = s.encStreams := rfl
@[simp] theorem setBitsOf_decs (s : State) (a m : Nat) : (s.setBitsOf a m).decs = s.decs := rfl
@[simp] theorem setBitsOf_lze (s : State) (a m : Nat) : (s.setBitsOf a m).lze = s.lze := rfl
@[simp] theorem setBitsOf_memsys (s : State) (a m : Nat) : (s.setBitsOf a m).memsys = s.memsys := rfl
@[simp] theorem setBitsOf_scn (s : State) (a m : Nat) : (s.setBitsOf a m).scn = s.scn := rfl
@[simp] theorem setBitsOf_pcx (s : State) (a m : Nat) : (s.setBitsOf a m).pcx = s.pcx := rfl
@[simp] theorem setBitsOf_sec (s : State) (a m : Nat) : (s.setBitsOf a m).sec = s.sec := rfl
@[simp] theorem setBitsOf_nets (s : State) (a m : Nat) : (s.setBitsOf a m).nets = s.nets := rfl
@[simp] theorem setBitsOf_hcp (s : State) (a m : Nat) : (s.setBitsOf a m).hcp = s.hcp := rfl
@[simp] theorem setBitsOf_aud (s : State) (a m : Nat) : (s.setBitsOf a m).aud = s.aud := rfl
@[simp] theorem setBitsOf_twbs (s : State) (a m : Nat) : (s.setBitsOf a m).twbs = s.twbs := rfl
@[simp] theorem setBitsOf_gpio (s : State) (a m : Nat) : (s.setBitsOf a m).gpio = s.gpio := rfl
@[simp] theorem setBitsOf_pwr (s : State) (a m : Nat) : (s.setBitsOf a m).pwr = s.pwr := rfl
@[simp] theorem setBitsOf_jtag (s : State) (a m : Nat) : (s.setBitsOf a m).jtag = s.jtag := rfl
@[simp] theorem nextFree_pending (s : State) : (s.nextFree).pending = s.pending := rfl
@[simp] theorem nextFree_now (s : State) : (s.nextFree).now = s.now := rfl
@[simp] theorem nextFree_regs (s : State) : (s.nextFree).regs = s.regs := rfl
@[simp] theorem nextFree_held (s : State) : (s.nextFree).held = s.held := rfl
@[simp] theorem nextFree_latched (s : State) : (s.nextFree).latched = s.latched := rfl
@[simp] theorem nextFree_rsp (s : State) : (s.nextFree).rsp = s.rsp := rfl
@[simp] theorem nextFree_evSet (s : State) : (s.nextFree).evSet = s.evSet := rfl
@[simp] theorem nextFree_evAdd (s : State) : (s.nextFree).evAdd = s.evAdd := rfl
@[simp] theorem nextFree_evPosted (s : State) : (s.nextFree).evPosted = s.evPosted := rfl
@[simp] theorem nextFree_mem (s : State) : (s.nextFree).mem = s.mem := rfl
@[simp] theorem nextFree_fab (s : State) : (s.nextFree).fab = s.fab := rfl
@[simp] theorem nextFree_sys (s : State) : (s.nextFree).sys = s.sys := rfl
@[simp] theorem nextFree_time (s : State) : (s.nextFree).time = s.time := rfl
@[simp] theorem nextFree_pilots (s : State) : (s.nextFree).pilots = s.pilots := rfl
@[simp] theorem nextFree_shared (s : State) : (s.nextFree).shared = s.shared := rfl
@[simp] theorem nextFree_published (s : State) : (s.nextFree).published = s.published := rfl
@[simp] theorem nextFree_log (s : State) : (s.nextFree).log = s.log := rfl
@[simp] theorem nextFree_queues (s : State) : (s.nextFree).queues = s.queues := rfl
@[simp] theorem nextFree_leaves (s : State) : (s.nextFree).leaves = s.leaves := rfl
@[simp] theorem nextFree_cal (s : State) : (s.nextFree).cal = s.cal := rfl
@[simp] theorem nextFree_lanes (s : State) : (s.nextFree).lanes = s.lanes := rfl
@[simp] theorem nextFree_ports (s : State) : (s.nextFree).ports = s.ports := rfl
@[simp] theorem nextFree_pipes (s : State) : (s.nextFree).pipes = s.pipes := rfl
@[simp] theorem nextFree_encPics (s : State) : (s.nextFree).encPics = s.encPics := rfl
@[simp] theorem nextFree_encStreams (s : State) : (s.nextFree).encStreams = s.encStreams := rfl
@[simp] theorem nextFree_decs (s : State) : (s.nextFree).decs = s.decs := rfl
@[simp] theorem nextFree_lze (s : State) : (s.nextFree).lze = s.lze := rfl
@[simp] theorem nextFree_memsys (s : State) : (s.nextFree).memsys = s.memsys := rfl
@[simp] theorem nextFree_scn (s : State) : (s.nextFree).scn = s.scn := rfl
@[simp] theorem nextFree_pcx (s : State) : (s.nextFree).pcx = s.pcx := rfl
@[simp] theorem nextFree_sec (s : State) : (s.nextFree).sec = s.sec := rfl
@[simp] theorem nextFree_nets (s : State) : (s.nextFree).nets = s.nets := rfl
@[simp] theorem nextFree_hcp (s : State) : (s.nextFree).hcp = s.hcp := rfl
@[simp] theorem nextFree_aud (s : State) : (s.nextFree).aud = s.aud := rfl
@[simp] theorem nextFree_twbs (s : State) : (s.nextFree).twbs = s.twbs := rfl
@[simp] theorem nextFree_gpio (s : State) : (s.nextFree).gpio = s.gpio := rfl
@[simp] theorem nextFree_pwr (s : State) : (s.nextFree).pwr = s.pwr := rfl
@[simp] theorem nextFree_jtag (s : State) : (s.nextFree).jtag = s.jtag := rfl
@[simp] theorem memWrite_pending (s : State) (a : Nat) (bs : List Byte) : (s.memWrite a bs).pending = s.pending := rfl
@[simp] theorem memWrite_now (s : State) (a : Nat) (bs : List Byte) : (s.memWrite a bs).now = s.now := rfl
@[simp] theorem memWrite_fresh (s : State) (a : Nat) (bs : List Byte) : (s.memWrite a bs).fresh = s.fresh := rfl
@[simp] theorem memWrite_regs (s : State) (a : Nat) (bs : List Byte) : (s.memWrite a bs).regs = s.regs := rfl
@[simp] theorem memWrite_held (s : State) (a : Nat) (bs : List Byte) : (s.memWrite a bs).held = s.held := rfl
@[simp] theorem memWrite_latched (s : State) (a : Nat) (bs : List Byte) : (s.memWrite a bs).latched = s.latched := rfl
@[simp] theorem memWrite_rsp (s : State) (a : Nat) (bs : List Byte) : (s.memWrite a bs).rsp = s.rsp := rfl
@[simp] theorem memWrite_evSet (s : State) (a : Nat) (bs : List Byte) : (s.memWrite a bs).evSet = s.evSet := rfl
@[simp] theorem memWrite_evAdd (s : State) (a : Nat) (bs : List Byte) : (s.memWrite a bs).evAdd = s.evAdd := rfl
@[simp] theorem memWrite_evPosted (s : State) (a : Nat) (bs : List Byte) : (s.memWrite a bs).evPosted = s.evPosted := rfl
@[simp] theorem memWrite_fab (s : State) (a : Nat) (bs : List Byte) : (s.memWrite a bs).fab = s.fab := rfl
@[simp] theorem memWrite_sys (s : State) (a : Nat) (bs : List Byte) : (s.memWrite a bs).sys = s.sys := rfl
@[simp] theorem memWrite_time (s : State) (a : Nat) (bs : List Byte) : (s.memWrite a bs).time = s.time := rfl
@[simp] theorem memWrite_pilots (s : State) (a : Nat) (bs : List Byte) : (s.memWrite a bs).pilots = s.pilots := rfl
@[simp] theorem memWrite_shared (s : State) (a : Nat) (bs : List Byte) : (s.memWrite a bs).shared = s.shared := rfl
@[simp] theorem memWrite_published (s : State) (a : Nat) (bs : List Byte) : (s.memWrite a bs).published = s.published := rfl
@[simp] theorem memWrite_log (s : State) (a : Nat) (bs : List Byte) : (s.memWrite a bs).log = s.log := rfl
@[simp] theorem memWrite_queues (s : State) (a : Nat) (bs : List Byte) : (s.memWrite a bs).queues = s.queues := rfl
@[simp] theorem memWrite_leaves (s : State) (a : Nat) (bs : List Byte) : (s.memWrite a bs).leaves = s.leaves := rfl
@[simp] theorem memWrite_cal (s : State) (a : Nat) (bs : List Byte) : (s.memWrite a bs).cal = s.cal := rfl
@[simp] theorem memWrite_lanes (s : State) (a : Nat) (bs : List Byte) : (s.memWrite a bs).lanes = s.lanes := rfl
@[simp] theorem memWrite_ports (s : State) (a : Nat) (bs : List Byte) : (s.memWrite a bs).ports = s.ports := rfl
@[simp] theorem memWrite_pipes (s : State) (a : Nat) (bs : List Byte) : (s.memWrite a bs).pipes = s.pipes := rfl
@[simp] theorem memWrite_encPics (s : State) (a : Nat) (bs : List Byte) : (s.memWrite a bs).encPics = s.encPics := rfl
@[simp] theorem memWrite_encStreams (s : State) (a : Nat) (bs : List Byte) : (s.memWrite a bs).encStreams = s.encStreams := rfl
@[simp] theorem memWrite_decs (s : State) (a : Nat) (bs : List Byte) : (s.memWrite a bs).decs = s.decs := rfl
@[simp] theorem memWrite_lze (s : State) (a : Nat) (bs : List Byte) : (s.memWrite a bs).lze = s.lze := rfl
@[simp] theorem memWrite_memsys (s : State) (a : Nat) (bs : List Byte) : (s.memWrite a bs).memsys = s.memsys := rfl
@[simp] theorem memWrite_scn (s : State) (a : Nat) (bs : List Byte) : (s.memWrite a bs).scn = s.scn := rfl
@[simp] theorem memWrite_pcx (s : State) (a : Nat) (bs : List Byte) : (s.memWrite a bs).pcx = s.pcx := rfl
@[simp] theorem memWrite_sec (s : State) (a : Nat) (bs : List Byte) : (s.memWrite a bs).sec = s.sec := rfl
@[simp] theorem memWrite_nets (s : State) (a : Nat) (bs : List Byte) : (s.memWrite a bs).nets = s.nets := rfl
@[simp] theorem memWrite_hcp (s : State) (a : Nat) (bs : List Byte) : (s.memWrite a bs).hcp = s.hcp := rfl
@[simp] theorem memWrite_aud (s : State) (a : Nat) (bs : List Byte) : (s.memWrite a bs).aud = s.aud := rfl
@[simp] theorem memWrite_twbs (s : State) (a : Nat) (bs : List Byte) : (s.memWrite a bs).twbs = s.twbs := rfl
@[simp] theorem memWrite_gpio (s : State) (a : Nat) (bs : List Byte) : (s.memWrite a bs).gpio = s.gpio := rfl
@[simp] theorem memWrite_pwr (s : State) (a : Nat) (bs : List Byte) : (s.memWrite a bs).pwr = s.pwr := rfl
@[simp] theorem memWrite_jtag (s : State) (a : Nat) (bs : List Byte) : (s.memWrite a bs).jtag = s.jtag := rfl
@[simp] theorem setBerth_pending (s : State) (h : Nat) (b : Berth) : (s.setBerth h b).pending = s.pending := rfl
@[simp] theorem setBerth_now (s : State) (h : Nat) (b : Berth) : (s.setBerth h b).now = s.now := rfl
@[simp] theorem setBerth_fresh (s : State) (h : Nat) (b : Berth) : (s.setBerth h b).fresh = s.fresh := rfl
@[simp] theorem setBerth_regs (s : State) (h : Nat) (b : Berth) : (s.setBerth h b).regs = s.regs := rfl
@[simp] theorem setBerth_held (s : State) (h : Nat) (b : Berth) : (s.setBerth h b).held = s.held := rfl
@[simp] theorem setBerth_latched (s : State) (h : Nat) (b : Berth) : (s.setBerth h b).latched = s.latched := rfl
@[simp] theorem setBerth_rsp (s : State) (h : Nat) (b : Berth) : (s.setBerth h b).rsp = s.rsp := rfl
@[simp] theorem setBerth_evSet (s : State) (h : Nat) (b : Berth) : (s.setBerth h b).evSet = s.evSet := rfl
@[simp] theorem setBerth_evAdd (s : State) (h : Nat) (b : Berth) : (s.setBerth h b).evAdd = s.evAdd := rfl
@[simp] theorem setBerth_evPosted (s : State) (h : Nat) (b : Berth) : (s.setBerth h b).evPosted = s.evPosted := rfl
@[simp] theorem setBerth_mem (s : State) (h : Nat) (b : Berth) : (s.setBerth h b).mem = s.mem := rfl
@[simp] theorem setBerth_sys (s : State) (h : Nat) (b : Berth) : (s.setBerth h b).sys = s.sys := rfl
@[simp] theorem setBerth_time (s : State) (h : Nat) (b : Berth) : (s.setBerth h b).time = s.time := rfl
@[simp] theorem setBerth_pilots (s : State) (h : Nat) (b : Berth) : (s.setBerth h b).pilots = s.pilots := rfl
@[simp] theorem setBerth_shared (s : State) (h : Nat) (b : Berth) : (s.setBerth h b).shared = s.shared := rfl
@[simp] theorem setBerth_published (s : State) (h : Nat) (b : Berth) : (s.setBerth h b).published = s.published := rfl
@[simp] theorem setBerth_log (s : State) (h : Nat) (b : Berth) : (s.setBerth h b).log = s.log := rfl
@[simp] theorem setBerth_queues (s : State) (h : Nat) (b : Berth) : (s.setBerth h b).queues = s.queues := rfl
@[simp] theorem setBerth_leaves (s : State) (h : Nat) (b : Berth) : (s.setBerth h b).leaves = s.leaves := rfl
@[simp] theorem setBerth_cal (s : State) (h : Nat) (b : Berth) : (s.setBerth h b).cal = s.cal := rfl
@[simp] theorem setBerth_lanes (s : State) (h : Nat) (b : Berth) : (s.setBerth h b).lanes = s.lanes := rfl
@[simp] theorem setBerth_ports (s : State) (h : Nat) (b : Berth) : (s.setBerth h b).ports = s.ports := rfl
@[simp] theorem setBerth_pipes (s : State) (h : Nat) (b : Berth) : (s.setBerth h b).pipes = s.pipes := rfl
@[simp] theorem setBerth_encPics (s : State) (h : Nat) (b : Berth) : (s.setBerth h b).encPics = s.encPics := rfl
@[simp] theorem setBerth_encStreams (s : State) (h : Nat) (b : Berth) : (s.setBerth h b).encStreams = s.encStreams := rfl
@[simp] theorem setBerth_decs (s : State) (h : Nat) (b : Berth) : (s.setBerth h b).decs = s.decs := rfl
@[simp] theorem setBerth_lze (s : State) (h : Nat) (b : Berth) : (s.setBerth h b).lze = s.lze := rfl
@[simp] theorem setBerth_memsys (s : State) (h : Nat) (b : Berth) : (s.setBerth h b).memsys = s.memsys := rfl
@[simp] theorem setBerth_scn (s : State) (h : Nat) (b : Berth) : (s.setBerth h b).scn = s.scn := rfl
@[simp] theorem setBerth_pcx (s : State) (h : Nat) (b : Berth) : (s.setBerth h b).pcx = s.pcx := rfl
@[simp] theorem setBerth_sec (s : State) (h : Nat) (b : Berth) : (s.setBerth h b).sec = s.sec := rfl
@[simp] theorem setBerth_nets (s : State) (h : Nat) (b : Berth) : (s.setBerth h b).nets = s.nets := rfl
@[simp] theorem setBerth_hcp (s : State) (h : Nat) (b : Berth) : (s.setBerth h b).hcp = s.hcp := rfl
@[simp] theorem setBerth_aud (s : State) (h : Nat) (b : Berth) : (s.setBerth h b).aud = s.aud := rfl
@[simp] theorem setBerth_twbs (s : State) (h : Nat) (b : Berth) : (s.setBerth h b).twbs = s.twbs := rfl
@[simp] theorem setBerth_gpio (s : State) (h : Nat) (b : Berth) : (s.setBerth h b).gpio = s.gpio := rfl
@[simp] theorem setBerth_pwr (s : State) (h : Nat) (b : Berth) : (s.setBerth h b).pwr = s.pwr := rfl
@[simp] theorem setBerth_jtag (s : State) (h : Nat) (b : Berth) : (s.setBerth h b).jtag = s.jtag := rfl
@[simp] theorem setPilot_pending (s : State) (k : Nat) (p : Pilot) : (s.setPilot k p).pending = s.pending := rfl
@[simp] theorem setPilot_now (s : State) (k : Nat) (p : Pilot) : (s.setPilot k p).now = s.now := rfl
@[simp] theorem setPilot_fresh (s : State) (k : Nat) (p : Pilot) : (s.setPilot k p).fresh = s.fresh := rfl
@[simp] theorem setPilot_regs (s : State) (k : Nat) (p : Pilot) : (s.setPilot k p).regs = s.regs := rfl
@[simp] theorem setPilot_held (s : State) (k : Nat) (p : Pilot) : (s.setPilot k p).held = s.held := rfl
@[simp] theorem setPilot_latched (s : State) (k : Nat) (p : Pilot) : (s.setPilot k p).latched = s.latched := rfl
@[simp] theorem setPilot_rsp (s : State) (k : Nat) (p : Pilot) : (s.setPilot k p).rsp = s.rsp := rfl
@[simp] theorem setPilot_evSet (s : State) (k : Nat) (p : Pilot) : (s.setPilot k p).evSet = s.evSet := rfl
@[simp] theorem setPilot_evAdd (s : State) (k : Nat) (p : Pilot) : (s.setPilot k p).evAdd = s.evAdd := rfl
@[simp] theorem setPilot_evPosted (s : State) (k : Nat) (p : Pilot) : (s.setPilot k p).evPosted = s.evPosted := rfl
@[simp] theorem setPilot_mem (s : State) (k : Nat) (p : Pilot) : (s.setPilot k p).mem = s.mem := rfl
@[simp] theorem setPilot_fab (s : State) (k : Nat) (p : Pilot) : (s.setPilot k p).fab = s.fab := rfl
@[simp] theorem setPilot_sys (s : State) (k : Nat) (p : Pilot) : (s.setPilot k p).sys = s.sys := rfl
@[simp] theorem setPilot_time (s : State) (k : Nat) (p : Pilot) : (s.setPilot k p).time = s.time := rfl
@[simp] theorem setPilot_shared (s : State) (k : Nat) (p : Pilot) : (s.setPilot k p).shared = s.shared := rfl
@[simp] theorem setPilot_published (s : State) (k : Nat) (p : Pilot) : (s.setPilot k p).published = s.published := rfl
@[simp] theorem setPilot_log (s : State) (k : Nat) (p : Pilot) : (s.setPilot k p).log = s.log := rfl
@[simp] theorem setPilot_queues (s : State) (k : Nat) (p : Pilot) : (s.setPilot k p).queues = s.queues := rfl
@[simp] theorem setPilot_leaves (s : State) (k : Nat) (p : Pilot) : (s.setPilot k p).leaves = s.leaves := rfl
@[simp] theorem setPilot_cal (s : State) (k : Nat) (p : Pilot) : (s.setPilot k p).cal = s.cal := rfl
@[simp] theorem setPilot_lanes (s : State) (k : Nat) (p : Pilot) : (s.setPilot k p).lanes = s.lanes := rfl
@[simp] theorem setPilot_ports (s : State) (k : Nat) (p : Pilot) : (s.setPilot k p).ports = s.ports := rfl
@[simp] theorem setPilot_pipes (s : State) (k : Nat) (p : Pilot) : (s.setPilot k p).pipes = s.pipes := rfl
@[simp] theorem setPilot_encPics (s : State) (k : Nat) (p : Pilot) : (s.setPilot k p).encPics = s.encPics := rfl
@[simp] theorem setPilot_encStreams (s : State) (k : Nat) (p : Pilot) : (s.setPilot k p).encStreams = s.encStreams := rfl
@[simp] theorem setPilot_decs (s : State) (k : Nat) (p : Pilot) : (s.setPilot k p).decs = s.decs := rfl
@[simp] theorem setPilot_lze (s : State) (k : Nat) (p : Pilot) : (s.setPilot k p).lze = s.lze := rfl
@[simp] theorem setPilot_memsys (s : State) (k : Nat) (p : Pilot) : (s.setPilot k p).memsys = s.memsys := rfl
@[simp] theorem setPilot_scn (s : State) (k : Nat) (p : Pilot) : (s.setPilot k p).scn = s.scn := rfl
@[simp] theorem setPilot_pcx (s : State) (k : Nat) (p : Pilot) : (s.setPilot k p).pcx = s.pcx := rfl
@[simp] theorem setPilot_sec (s : State) (k : Nat) (p : Pilot) : (s.setPilot k p).sec = s.sec := rfl
@[simp] theorem setPilot_nets (s : State) (k : Nat) (p : Pilot) : (s.setPilot k p).nets = s.nets := rfl
@[simp] theorem setPilot_hcp (s : State) (k : Nat) (p : Pilot) : (s.setPilot k p).hcp = s.hcp := rfl
@[simp] theorem setPilot_aud (s : State) (k : Nat) (p : Pilot) : (s.setPilot k p).aud = s.aud := rfl
@[simp] theorem setPilot_twbs (s : State) (k : Nat) (p : Pilot) : (s.setPilot k p).twbs = s.twbs := rfl
@[simp] theorem setPilot_gpio (s : State) (k : Nat) (p : Pilot) : (s.setPilot k p).gpio = s.gpio := rfl
@[simp] theorem setPilot_pwr (s : State) (k : Nat) (p : Pilot) : (s.setPilot k p).pwr = s.pwr := rfl
@[simp] theorem setPilot_jtag (s : State) (k : Nat) (p : Pilot) : (s.setPilot k p).jtag = s.jtag := rfl
@[simp] theorem setDom_pending (s : State) (d : Nat) (x : Dom) : (s.setDom d x).pending = s.pending := rfl
@[simp] theorem setDom_now (s : State) (d : Nat) (x : Dom) : (s.setDom d x).now = s.now := rfl
@[simp] theorem setDom_fresh (s : State) (d : Nat) (x : Dom) : (s.setDom d x).fresh = s.fresh := rfl
@[simp] theorem setDom_regs (s : State) (d : Nat) (x : Dom) : (s.setDom d x).regs = s.regs := rfl
@[simp] theorem setDom_held (s : State) (d : Nat) (x : Dom) : (s.setDom d x).held = s.held := rfl
@[simp] theorem setDom_latched (s : State) (d : Nat) (x : Dom) : (s.setDom d x).latched = s.latched := rfl
@[simp] theorem setDom_rsp (s : State) (d : Nat) (x : Dom) : (s.setDom d x).rsp = s.rsp := rfl
@[simp] theorem setDom_evSet (s : State) (d : Nat) (x : Dom) : (s.setDom d x).evSet = s.evSet := rfl
@[simp] theorem setDom_evAdd (s : State) (d : Nat) (x : Dom) : (s.setDom d x).evAdd = s.evAdd := rfl
@[simp] theorem setDom_evPosted (s : State) (d : Nat) (x : Dom) : (s.setDom d x).evPosted = s.evPosted := rfl
@[simp] theorem setDom_mem (s : State) (d : Nat) (x : Dom) : (s.setDom d x).mem = s.mem := rfl
@[simp] theorem setDom_fab (s : State) (d : Nat) (x : Dom) : (s.setDom d x).fab = s.fab := rfl
@[simp] theorem setDom_sys (s : State) (d : Nat) (x : Dom) : (s.setDom d x).sys = s.sys := rfl
@[simp] theorem setDom_pilots (s : State) (d : Nat) (x : Dom) : (s.setDom d x).pilots = s.pilots := rfl
@[simp] theorem setDom_shared (s : State) (d : Nat) (x : Dom) : (s.setDom d x).shared = s.shared := rfl
@[simp] theorem setDom_published (s : State) (d : Nat) (x : Dom) : (s.setDom d x).published = s.published := rfl
@[simp] theorem setDom_log (s : State) (d : Nat) (x : Dom) : (s.setDom d x).log = s.log := rfl
@[simp] theorem setDom_queues (s : State) (d : Nat) (x : Dom) : (s.setDom d x).queues = s.queues := rfl
@[simp] theorem setDom_leaves (s : State) (d : Nat) (x : Dom) : (s.setDom d x).leaves = s.leaves := rfl
@[simp] theorem setDom_cal (s : State) (d : Nat) (x : Dom) : (s.setDom d x).cal = s.cal := rfl
@[simp] theorem setDom_lanes (s : State) (d : Nat) (x : Dom) : (s.setDom d x).lanes = s.lanes := rfl
@[simp] theorem setDom_ports (s : State) (d : Nat) (x : Dom) : (s.setDom d x).ports = s.ports := rfl
@[simp] theorem setDom_pipes (s : State) (d : Nat) (x : Dom) : (s.setDom d x).pipes = s.pipes := rfl
@[simp] theorem setDom_encPics (s : State) (d : Nat) (x : Dom) : (s.setDom d x).encPics = s.encPics := rfl
@[simp] theorem setDom_encStreams (s : State) (d : Nat) (x : Dom) : (s.setDom d x).encStreams = s.encStreams := rfl
@[simp] theorem setDom_decs (s : State) (d : Nat) (x : Dom) : (s.setDom d x).decs = s.decs := rfl
@[simp] theorem setDom_lze (s : State) (d : Nat) (x : Dom) : (s.setDom d x).lze = s.lze := rfl
@[simp] theorem setDom_memsys (s : State) (d : Nat) (x : Dom) : (s.setDom d x).memsys = s.memsys := rfl
@[simp] theorem setDom_scn (s : State) (d : Nat) (x : Dom) : (s.setDom d x).scn = s.scn := rfl
@[simp] theorem setDom_pcx (s : State) (d : Nat) (x : Dom) : (s.setDom d x).pcx = s.pcx := rfl
@[simp] theorem setDom_sec (s : State) (d : Nat) (x : Dom) : (s.setDom d x).sec = s.sec := rfl
@[simp] theorem setDom_nets (s : State) (d : Nat) (x : Dom) : (s.setDom d x).nets = s.nets := rfl
@[simp] theorem setDom_hcp (s : State) (d : Nat) (x : Dom) : (s.setDom d x).hcp = s.hcp := rfl
@[simp] theorem setDom_aud (s : State) (d : Nat) (x : Dom) : (s.setDom d x).aud = s.aud := rfl
@[simp] theorem setDom_twbs (s : State) (d : Nat) (x : Dom) : (s.setDom d x).twbs = s.twbs := rfl
@[simp] theorem setDom_gpio (s : State) (d : Nat) (x : Dom) : (s.setDom d x).gpio = s.gpio := rfl
@[simp] theorem setDom_pwr (s : State) (d : Nat) (x : Dom) : (s.setDom d x).pwr = s.pwr := rfl
@[simp] theorem setDom_jtag (s : State) (d : Nat) (x : Dom) : (s.setDom d x).jtag = s.jtag := rfl
@[simp] theorem setEvtPin_pending (s : State) (i : Nat) (x : EvtPin) : (s.setEvtPin i x).pending = s.pending := rfl
@[simp] theorem setEvtPin_now (s : State) (i : Nat) (x : EvtPin) : (s.setEvtPin i x).now = s.now := rfl
@[simp] theorem setEvtPin_fresh (s : State) (i : Nat) (x : EvtPin) : (s.setEvtPin i x).fresh = s.fresh := rfl
@[simp] theorem setEvtPin_regs (s : State) (i : Nat) (x : EvtPin) : (s.setEvtPin i x).regs = s.regs := rfl
@[simp] theorem setEvtPin_held (s : State) (i : Nat) (x : EvtPin) : (s.setEvtPin i x).held = s.held := rfl
@[simp] theorem setEvtPin_latched (s : State) (i : Nat) (x : EvtPin) : (s.setEvtPin i x).latched = s.latched := rfl
@[simp] theorem setEvtPin_rsp (s : State) (i : Nat) (x : EvtPin) : (s.setEvtPin i x).rsp = s.rsp := rfl
@[simp] theorem setEvtPin_evSet (s : State) (i : Nat) (x : EvtPin) : (s.setEvtPin i x).evSet = s.evSet := rfl
@[simp] theorem setEvtPin_evAdd (s : State) (i : Nat) (x : EvtPin) : (s.setEvtPin i x).evAdd = s.evAdd := rfl
@[simp] theorem setEvtPin_evPosted (s : State) (i : Nat) (x : EvtPin) : (s.setEvtPin i x).evPosted = s.evPosted := rfl
@[simp] theorem setEvtPin_mem (s : State) (i : Nat) (x : EvtPin) : (s.setEvtPin i x).mem = s.mem := rfl
@[simp] theorem setEvtPin_fab (s : State) (i : Nat) (x : EvtPin) : (s.setEvtPin i x).fab = s.fab := rfl
@[simp] theorem setEvtPin_sys (s : State) (i : Nat) (x : EvtPin) : (s.setEvtPin i x).sys = s.sys := rfl
@[simp] theorem setEvtPin_pilots (s : State) (i : Nat) (x : EvtPin) : (s.setEvtPin i x).pilots = s.pilots := rfl
@[simp] theorem setEvtPin_shared (s : State) (i : Nat) (x : EvtPin) : (s.setEvtPin i x).shared = s.shared := rfl
@[simp] theorem setEvtPin_published (s : State) (i : Nat) (x : EvtPin) : (s.setEvtPin i x).published = s.published := rfl
@[simp] theorem setEvtPin_log (s : State) (i : Nat) (x : EvtPin) : (s.setEvtPin i x).log = s.log := rfl
@[simp] theorem setEvtPin_queues (s : State) (i : Nat) (x : EvtPin) : (s.setEvtPin i x).queues = s.queues := rfl
@[simp] theorem setEvtPin_leaves (s : State) (i : Nat) (x : EvtPin) : (s.setEvtPin i x).leaves = s.leaves := rfl
@[simp] theorem setEvtPin_cal (s : State) (i : Nat) (x : EvtPin) : (s.setEvtPin i x).cal = s.cal := rfl
@[simp] theorem setEvtPin_lanes (s : State) (i : Nat) (x : EvtPin) : (s.setEvtPin i x).lanes = s.lanes := rfl
@[simp] theorem setEvtPin_ports (s : State) (i : Nat) (x : EvtPin) : (s.setEvtPin i x).ports = s.ports := rfl
@[simp] theorem setEvtPin_pipes (s : State) (i : Nat) (x : EvtPin) : (s.setEvtPin i x).pipes = s.pipes := rfl
@[simp] theorem setEvtPin_encPics (s : State) (i : Nat) (x : EvtPin) : (s.setEvtPin i x).encPics = s.encPics := rfl
@[simp] theorem setEvtPin_encStreams (s : State) (i : Nat) (x : EvtPin) : (s.setEvtPin i x).encStreams = s.encStreams := rfl
@[simp] theorem setEvtPin_decs (s : State) (i : Nat) (x : EvtPin) : (s.setEvtPin i x).decs = s.decs := rfl
@[simp] theorem setEvtPin_lze (s : State) (i : Nat) (x : EvtPin) : (s.setEvtPin i x).lze = s.lze := rfl
@[simp] theorem setEvtPin_memsys (s : State) (i : Nat) (x : EvtPin) : (s.setEvtPin i x).memsys = s.memsys := rfl
@[simp] theorem setEvtPin_scn (s : State) (i : Nat) (x : EvtPin) : (s.setEvtPin i x).scn = s.scn := rfl
@[simp] theorem setEvtPin_pcx (s : State) (i : Nat) (x : EvtPin) : (s.setEvtPin i x).pcx = s.pcx := rfl
@[simp] theorem setEvtPin_sec (s : State) (i : Nat) (x : EvtPin) : (s.setEvtPin i x).sec = s.sec := rfl
@[simp] theorem setEvtPin_nets (s : State) (i : Nat) (x : EvtPin) : (s.setEvtPin i x).nets = s.nets := rfl
@[simp] theorem setEvtPin_hcp (s : State) (i : Nat) (x : EvtPin) : (s.setEvtPin i x).hcp = s.hcp := rfl
@[simp] theorem setEvtPin_aud (s : State) (i : Nat) (x : EvtPin) : (s.setEvtPin i x).aud = s.aud := rfl
@[simp] theorem setEvtPin_twbs (s : State) (i : Nat) (x : EvtPin) : (s.setEvtPin i x).twbs = s.twbs := rfl
@[simp] theorem setEvtPin_gpio (s : State) (i : Nat) (x : EvtPin) : (s.setEvtPin i x).gpio = s.gpio := rfl
@[simp] theorem setEvtPin_pwr (s : State) (i : Nat) (x : EvtPin) : (s.setEvtPin i x).pwr = s.pwr := rfl
@[simp] theorem setEvtPin_jtag (s : State) (i : Nat) (x : EvtPin) : (s.setEvtPin i x).jtag = s.jtag := rfl
@[simp] theorem setSlot_pending (s : State) (i : Nat) (t : Option Txn) : (s.setSlot i t).pending = s.pending := rfl
@[simp] theorem setSlot_now (s : State) (i : Nat) (t : Option Txn) : (s.setSlot i t).now = s.now := rfl
@[simp] theorem setSlot_fresh (s : State) (i : Nat) (t : Option Txn) : (s.setSlot i t).fresh = s.fresh := rfl
@[simp] theorem setSlot_regs (s : State) (i : Nat) (t : Option Txn) : (s.setSlot i t).regs = s.regs := rfl
@[simp] theorem setSlot_held (s : State) (i : Nat) (t : Option Txn) : (s.setSlot i t).held = s.held := rfl
@[simp] theorem setSlot_latched (s : State) (i : Nat) (t : Option Txn) : (s.setSlot i t).latched = s.latched := rfl
@[simp] theorem setSlot_rsp (s : State) (i : Nat) (t : Option Txn) : (s.setSlot i t).rsp = s.rsp := rfl
@[simp] theorem setSlot_evSet (s : State) (i : Nat) (t : Option Txn) : (s.setSlot i t).evSet = s.evSet := rfl
@[simp] theorem setSlot_evAdd (s : State) (i : Nat) (t : Option Txn) : (s.setSlot i t).evAdd = s.evAdd := rfl
@[simp] theorem setSlot_evPosted (s : State) (i : Nat) (t : Option Txn) : (s.setSlot i t).evPosted = s.evPosted := rfl
@[simp] theorem setSlot_mem (s : State) (i : Nat) (t : Option Txn) : (s.setSlot i t).mem = s.mem := rfl
@[simp] theorem setSlot_fab (s : State) (i : Nat) (t : Option Txn) : (s.setSlot i t).fab = s.fab := rfl
@[simp] theorem setSlot_time (s : State) (i : Nat) (t : Option Txn) : (s.setSlot i t).time = s.time := rfl
@[simp] theorem setSlot_pilots (s : State) (i : Nat) (t : Option Txn) : (s.setSlot i t).pilots = s.pilots := rfl
@[simp] theorem setSlot_shared (s : State) (i : Nat) (t : Option Txn) : (s.setSlot i t).shared = s.shared := rfl
@[simp] theorem setSlot_published (s : State) (i : Nat) (t : Option Txn) : (s.setSlot i t).published = s.published := rfl
@[simp] theorem setSlot_log (s : State) (i : Nat) (t : Option Txn) : (s.setSlot i t).log = s.log := rfl
@[simp] theorem setSlot_queues (s : State) (i : Nat) (t : Option Txn) : (s.setSlot i t).queues = s.queues := rfl
@[simp] theorem setSlot_leaves (s : State) (i : Nat) (t : Option Txn) : (s.setSlot i t).leaves = s.leaves := rfl
@[simp] theorem setSlot_cal (s : State) (i : Nat) (t : Option Txn) : (s.setSlot i t).cal = s.cal := rfl
@[simp] theorem setSlot_lanes (s : State) (i : Nat) (t : Option Txn) : (s.setSlot i t).lanes = s.lanes := rfl
@[simp] theorem setSlot_ports (s : State) (i : Nat) (t : Option Txn) : (s.setSlot i t).ports = s.ports := rfl
@[simp] theorem setSlot_pipes (s : State) (i : Nat) (t : Option Txn) : (s.setSlot i t).pipes = s.pipes := rfl
@[simp] theorem setSlot_encPics (s : State) (i : Nat) (t : Option Txn) : (s.setSlot i t).encPics = s.encPics := rfl
@[simp] theorem setSlot_encStreams (s : State) (i : Nat) (t : Option Txn) : (s.setSlot i t).encStreams = s.encStreams := rfl
@[simp] theorem setSlot_decs (s : State) (i : Nat) (t : Option Txn) : (s.setSlot i t).decs = s.decs := rfl
@[simp] theorem setSlot_lze (s : State) (i : Nat) (t : Option Txn) : (s.setSlot i t).lze = s.lze := rfl
@[simp] theorem setSlot_memsys (s : State) (i : Nat) (t : Option Txn) : (s.setSlot i t).memsys = s.memsys := rfl
@[simp] theorem setSlot_scn (s : State) (i : Nat) (t : Option Txn) : (s.setSlot i t).scn = s.scn := rfl
@[simp] theorem setSlot_pcx (s : State) (i : Nat) (t : Option Txn) : (s.setSlot i t).pcx = s.pcx := rfl
@[simp] theorem setSlot_sec (s : State) (i : Nat) (t : Option Txn) : (s.setSlot i t).sec = s.sec := rfl
@[simp] theorem setSlot_nets (s : State) (i : Nat) (t : Option Txn) : (s.setSlot i t).nets = s.nets := rfl
@[simp] theorem setSlot_hcp (s : State) (i : Nat) (t : Option Txn) : (s.setSlot i t).hcp = s.hcp := rfl
@[simp] theorem setSlot_aud (s : State) (i : Nat) (t : Option Txn) : (s.setSlot i t).aud = s.aud := rfl
@[simp] theorem setSlot_twbs (s : State) (i : Nat) (t : Option Txn) : (s.setSlot i t).twbs = s.twbs := rfl
@[simp] theorem setSlot_gpio (s : State) (i : Nat) (t : Option Txn) : (s.setSlot i t).gpio = s.gpio := rfl
@[simp] theorem setSlot_pwr (s : State) (i : Nat) (t : Option Txn) : (s.setSlot i t).pwr = s.pwr := rfl
@[simp] theorem setSlot_jtag (s : State) (i : Nat) (t : Option Txn) : (s.setSlot i t).jtag = s.jtag := rfl
@[simp] theorem setQueue_pending (s : State) (a : Nat) (l : List QEnt) : (s.setQueue a l).pending = s.pending := rfl
@[simp] theorem setQueue_now (s : State) (a : Nat) (l : List QEnt) : (s.setQueue a l).now = s.now := rfl
@[simp] theorem setQueue_fresh (s : State) (a : Nat) (l : List QEnt) : (s.setQueue a l).fresh = s.fresh := rfl
@[simp] theorem setQueue_regs (s : State) (a : Nat) (l : List QEnt) : (s.setQueue a l).regs = s.regs := rfl
@[simp] theorem setQueue_held (s : State) (a : Nat) (l : List QEnt) : (s.setQueue a l).held = s.held := rfl
@[simp] theorem setQueue_latched (s : State) (a : Nat) (l : List QEnt) : (s.setQueue a l).latched = s.latched := rfl
@[simp] theorem setQueue_rsp (s : State) (a : Nat) (l : List QEnt) : (s.setQueue a l).rsp = s.rsp := rfl
@[simp] theorem setQueue_evSet (s : State) (a : Nat) (l : List QEnt) : (s.setQueue a l).evSet = s.evSet := rfl
@[simp] theorem setQueue_evAdd (s : State) (a : Nat) (l : List QEnt) : (s.setQueue a l).evAdd = s.evAdd := rfl
@[simp] theorem setQueue_evPosted (s : State) (a : Nat) (l : List QEnt) : (s.setQueue a l).evPosted = s.evPosted := rfl
@[simp] theorem setQueue_mem (s : State) (a : Nat) (l : List QEnt) : (s.setQueue a l).mem = s.mem := rfl
@[simp] theorem setQueue_fab (s : State) (a : Nat) (l : List QEnt) : (s.setQueue a l).fab = s.fab := rfl
@[simp] theorem setQueue_sys (s : State) (a : Nat) (l : List QEnt) : (s.setQueue a l).sys = s.sys := rfl
@[simp] theorem setQueue_time (s : State) (a : Nat) (l : List QEnt) : (s.setQueue a l).time = s.time := rfl
@[simp] theorem setQueue_pilots (s : State) (a : Nat) (l : List QEnt) : (s.setQueue a l).pilots = s.pilots := rfl
@[simp] theorem setQueue_shared (s : State) (a : Nat) (l : List QEnt) : (s.setQueue a l).shared = s.shared := rfl
@[simp] theorem setQueue_published (s : State) (a : Nat) (l : List QEnt) : (s.setQueue a l).published = s.published := rfl
@[simp] theorem setQueue_log (s : State) (a : Nat) (l : List QEnt) : (s.setQueue a l).log = s.log := rfl
@[simp] theorem setQueue_leaves (s : State) (a : Nat) (l : List QEnt) : (s.setQueue a l).leaves = s.leaves := rfl
@[simp] theorem setQueue_cal (s : State) (a : Nat) (l : List QEnt) : (s.setQueue a l).cal = s.cal := rfl
@[simp] theorem setQueue_lanes (s : State) (a : Nat) (l : List QEnt) : (s.setQueue a l).lanes = s.lanes := rfl
@[simp] theorem setQueue_ports (s : State) (a : Nat) (l : List QEnt) : (s.setQueue a l).ports = s.ports := rfl
@[simp] theorem setQueue_pipes (s : State) (a : Nat) (l : List QEnt) : (s.setQueue a l).pipes = s.pipes := rfl
@[simp] theorem setQueue_encPics (s : State) (a : Nat) (l : List QEnt) : (s.setQueue a l).encPics = s.encPics := rfl
@[simp] theorem setQueue_encStreams (s : State) (a : Nat) (l : List QEnt) : (s.setQueue a l).encStreams = s.encStreams := rfl
@[simp] theorem setQueue_decs (s : State) (a : Nat) (l : List QEnt) : (s.setQueue a l).decs = s.decs := rfl
@[simp] theorem setQueue_lze (s : State) (a : Nat) (l : List QEnt) : (s.setQueue a l).lze = s.lze := rfl
@[simp] theorem setQueue_memsys (s : State) (a : Nat) (l : List QEnt) : (s.setQueue a l).memsys = s.memsys := rfl
@[simp] theorem setQueue_scn (s : State) (a : Nat) (l : List QEnt) : (s.setQueue a l).scn = s.scn := rfl
@[simp] theorem setQueue_pcx (s : State) (a : Nat) (l : List QEnt) : (s.setQueue a l).pcx = s.pcx := rfl
@[simp] theorem setQueue_sec (s : State) (a : Nat) (l : List QEnt) : (s.setQueue a l).sec = s.sec := rfl
@[simp] theorem setQueue_nets (s : State) (a : Nat) (l : List QEnt) : (s.setQueue a l).nets = s.nets := rfl
@[simp] theorem setQueue_hcp (s : State) (a : Nat) (l : List QEnt) : (s.setQueue a l).hcp = s.hcp := rfl
@[simp] theorem setQueue_aud (s : State) (a : Nat) (l : List QEnt) : (s.setQueue a l).aud = s.aud := rfl
@[simp] theorem setQueue_twbs (s : State) (a : Nat) (l : List QEnt) : (s.setQueue a l).twbs = s.twbs := rfl
@[simp] theorem setQueue_gpio (s : State) (a : Nat) (l : List QEnt) : (s.setQueue a l).gpio = s.gpio := rfl
@[simp] theorem setQueue_pwr (s : State) (a : Nat) (l : List QEnt) : (s.setQueue a l).pwr = s.pwr := rfl
@[simp] theorem setQueue_jtag (s : State) (a : Nat) (l : List QEnt) : (s.setQueue a l).jtag = s.jtag := rfl

/-! ### Words and fields -/

@[simp] theorem word_setWord_same (s : State) (a : Nat) (v : Word) : (s.setWord a v).word a = v := SMap.get_set_same ..

theorem word_setWord (s : State) (a b : Nat) (v : Word) : (s.setWord a v).word b = if b = a then v else s.word b := SMap.get_set ..

theorem word_setWord_other (s : State) {a b : Nat} (v : Word) (h : b ≠ a) : (s.setWord a v).word b = s.word b := SMap.get_set_other _ _ h

theorem word_setFld_other (s : State) (f : Fld) (v : Nat) {b : Nat} (h : b ≠ f.addr) : (s.setFld f v).word b = s.word b :=
  word_setWord_other s _ h

/-- A field reads what was written to it, cut to its width. -/
theorem fld_setFld_same (s : State) (f : Fld) (v : Nat) (h : f.lo ≤ f.hi) (hw : f.hi < 32) :
    (s.setFld f v).fld f = v % 2 ^ (f.hi + 1 - f.lo) := by
  rw [fld, setFld, word_setWord_same, BitVec.toNat_ofNat, bits_mod_two_pow _ _ _ _ hw, bits_putBits_same _ _ _ _ h]

/-- A write of a field leaves the fields of other words. -/
theorem fld_setFld_addr (s : State) (f g : Fld) (v : Nat) (h : g.addr ≠ f.addr) : (s.setFld f v).fld g = s.fld g := by
  rw [fld, word_setFld_other s f v h, fld]

/-- A write of a field leaves the other fields of its word. -/
theorem fld_setFld_bits (s : State) (f g : Fld) (v : Nat) (ha : g.addr = f.addr) (h : f.lo ≤ f.hi) (hw : g.hi < 32)
    (hd : g.hi < f.lo ∨ f.hi < g.lo) : (s.setFld f v).fld g = s.fld g := by
  rw [fld, setFld, ha, word_setWord_same, BitVec.toNat_ofNat, bits_mod_two_pow _ _ _ _ hw, bits_putBits_other _ _ _ _ _ _ h hd,
    fld, ha]

theorem fld_setWord_addr (s : State) (a : Nat) (v : Word) (g : Fld) (h : g.addr ≠ a) : (s.setWord a v).fld g = s.fld g := by
  rw [fld, word_setWord_other s v h, fld]

theorem fld_setWord_same (s : State) (v : Word) (g : Fld) : (s.setWord g.addr v).fld g = bits v.toNat g.hi g.lo := by
  rw [fld, word_setWord_same]

theorem word_congr {s t : State} (h : t.regs = s.regs) (a : Nat) : t.word a = s.word a := by rw [word, word, h]

theorem fld_congr {s t : State} (h : t.regs = s.regs) (f : Fld) : t.fld f = s.fld f := by rw [fld, fld, word_congr h]

theorem word_setBitsOf (s : State) (a m b : Nat) :
    (s.setBitsOf a m).word b = if b = a then s.word a ||| BitVec.ofNat 32 m else s.word b := word_setWord ..

/-! ### Tables -/

@[simp] theorem berth_setBerth_same (s : State) (h : Nat) (b : Berth) : (s.setBerth h b).berth h = b := SMap.get_set_same ..
theorem berth_setBerth_other (s : State) {h i : Nat} (b : Berth) (hi : i ≠ h) : (s.setBerth h b).berth i = s.berth i := SMap.get_set_other _ _ hi
@[simp] theorem pilot_setPilot_same (s : State) (k : Nat) (p : Pilot) : (s.setPilot k p).pilot k = p := SMap.get_set_same ..
theorem pilot_setPilot_other (s : State) {k j : Nat} (p : Pilot) (h : j ≠ k) : (s.setPilot k p).pilot j = s.pilot j := SMap.get_set_other _ _ h
@[simp] theorem dom_setDom_same (s : State) (d : Nat) (x : Dom) : (s.setDom d x).dom d = x := SMap.get_set_same ..
theorem dom_setDom_other (s : State) {d e : Nat} (x : Dom) (h : e ≠ d) : (s.setDom d x).dom e = s.dom e := SMap.get_set_other _ _ h
@[simp] theorem evtPin_setEvtPin_same (s : State) (i : Nat) (x : EvtPin) : (s.setEvtPin i x).evtPin i = x := SMap.get_set_same ..
theorem evtPin_setEvtPin_other (s : State) {i j : Nat} (x : EvtPin) (h : j ≠ i) : (s.setEvtPin i x).evtPin j = s.evtPin j := SMap.get_set_other _ _ h
@[simp] theorem slot_setSlot_same (s : State) (i : Nat) (t : Option Txn) : (s.setSlot i t).slot i = t := SMap.get_set_same ..
theorem slot_setSlot_other (s : State) {i j : Nat} (t : Option Txn) (h : j ≠ i) : (s.setSlot i t).slot j = s.slot j := SMap.get_set_other _ _ h
@[simp] theorem queue_setQueue_same (s : State) (a : Nat) (l : List QEnt) : (s.setQueue a l).queue a = l := SMap.get_set_same ..
theorem queue_setQueue_other (s : State) {a b : Nat} (l : List QEnt) (h : b ≠ a) : (s.setQueue a l).queue b = s.queue b := SMap.get_set_other _ _ h

/-! ### DRAM -/

/-- A byte after a store: the stored one inside the stored bytes, the old one outside. -/
theorem get_storeBytes : (bs : List Byte) → (m : SMap Byte) → (a b : Nat) →
    SMap.get (fun _ => (0 : Byte)) (storeBytes m a bs) b =
      if a ≤ b then (bs[b - a]?).getD (SMap.get (fun _ => 0) m b) else SMap.get (fun _ => 0) m b
  | [], m, a, b => by simp [storeBytes]
  | x :: xs, m, a, b => by
    rw [storeBytes, get_storeBytes xs, SMap.get_set]
    by_cases h : a + 1 ≤ b
    · have h1 : a ≤ b := by omega
      have h2 : b ≠ a := by omega
      obtain ⟨c, hc⟩ : ∃ c, b - a = c + 1 := ⟨b - a - 1, by omega⟩
      have h3 : b - (a + 1) = c := by omega
      simp [h, h1, h2, hc, h3]
    · by_cases h2 : b = a
      · subst h2; simp
      · have h1 : ¬ a ≤ b := by omega
        simp [h, h1, h2]

theorem memByte_memWrite (s : State) (a : Nat) (bs : List Byte) (b : Nat) :
    (s.memWrite a bs).memByte b = if a ≤ b then (bs[b - a]?).getD (s.memByte b) else s.memByte b := get_storeBytes bs s.mem a b

theorem memByte_memWrite_outside (s : State) (a : Nat) (bs : List Byte) {b : Nat} (h : b < a ∨ a + bs.length ≤ b) :
    (s.memWrite a bs).memByte b = s.memByte b := by
  rw [memByte_memWrite]
  split
  · rw [List.getElem?_eq_none (by omega)]; rfl
  · rfl

/-- A read after a store to the same place gives what was stored. -/
theorem memRead_memWrite (s : State) (a : Nat) (bs : List Byte) : (s.memWrite a bs).memRead a bs.length = bs := by
  suffices H : ∀ (k : Nat) (n : Nat), k + n = bs.length → (s.memWrite a bs).memRead (a + k) n = bs.drop k by
    simpa using H 0 bs.length (by omega)
  intro k n
  induction n generalizing k with
  | zero => intro h; rw [memRead, List.drop_eq_nil_of_le (by omega)]
  | succ n ih =>
    intro h
    have hk : k < bs.length := by omega
    rw [memRead, memByte_memWrite, if_pos (by omega), Nat.add_assoc a k 1, ih (k + 1) (by omega), List.drop_eq_getElem_cons hk]
    simp [hk]

end State

end Sys2Proof.Machine
end

