-- ==== Sys2Proof/Laws/Aside.lean ====
section
/-! SUPPORT. What records, dockets, event bits and counters can change beside a command's own effect: `Aside`, and one lemma per shared operation that says it does no more. -/

namespace Sys2Proof.Machine

/-- A word of control space without event bits and event counters, other than LOG_STATUS. -/
def quiet (x : Nat) : Bool :=
  decide (x ≠ 0x50004) && (State.fieldsAt x).all fun (f : FieldDesc) => decide (f.acc ≠ .w1c) && decide (f.acc ≠ .rc)

/-- `t` differs from `s` only as records, dockets, event bits and counters can. -/
structure Aside (s t : State) : Prop where
  keeps : Keeps 148376 s t
  word : ∀ x, quiet x = true → t.word x = s.word x
  pilot : ∀ k, (t.pilot k).core = (s.pilot k).core
  logState : t.fld Reg.LOG_STATUS_STATE = s.fld Reg.LOG_STATUS_STATE

namespace Aside

theorem refl {s : State} : Aside s s := ⟨Keeps.refl, fun _ _ => rfl, fun _ => rfl, rfl⟩

theorem trans {s t u : State} (h : Aside s t) (h' : Aside t u) : Aside s u :=
  ⟨h.keeps.trans h'.keeps, fun x hx => (h'.word x hx).trans (h.word x hx), fun k => (h'.pilot k).trans (h.pilot k),
    h'.logState.trans h.logState⟩

theorem fld {s t : State} (h : Aside s t) (f : Fld) (hq : quiet f.addr = true) : t.fld f = s.fld f := by
  rw [State.fld, State.fld, h.word _ hq]

theorem queue {s t : State} (h : Aside s t) (a : Nat) : t.queue a = s.queue a := by
  have := h.keeps.same .queues rfl
  rw [State.queue, State.queue, this]

theorem berth {s t : State} (h : Aside s t) (a : Nat) : t.berth a = s.berth a := by
  have := h.keeps.same .fab rfl
  rw [State.berth, State.berth, this]

end Aside

theorem State.word_setFld (s : State) (f : Fld) (v : Nat) (x : Nat) (h : x ≠ f.addr) : (s.setFld f v).word x = s.word x :=
  State.word_setFld_other s f v h

/-- A change of the words and the places aside of them only, outside the quiet words. -/
theorem aside_regs {s t : State} (hk : Keeps 148376 s t) (hw : ∀ x, quiet x = true → t.word x = s.word x)
    (hp : t.pilots = s.pilots) (hl : t.fld Reg.LOG_STATUS_STATE = s.fld Reg.LOG_STATUS_STATE) : Aside s t :=
  ⟨hk, hw, fun k => by rw [State.pilot, State.pilot, hp], hl⟩

theorem aside_setFld {s : State} (f : Fld) (v : Nat) (hq : quiet f.addr = false) (hn : f.addr ≠ 0x50004) : Aside s (s.setFld f v) :=
  aside_regs (keeps_setFld _ _ Keeps.refl rfl)
    (fun x hx => State.word_setFld_other _ _ _ (fun e => by rw [e, hq] at hx; cases hx)) rfl (State.fld_setFld_addr _ _ _ _ (Ne.symm hn))

theorem aside_setBitsOf {s : State} (a m : Nat) (hq : quiet a = false) (hn : a ≠ 0x50004) : Aside s (s.setBitsOf a m) :=
  aside_regs (keeps_setBitsOf _ _ Keeps.refl rfl)
    (fun x hx => by rw [State.word_setBitsOf, if_neg (fun e => by rw [e, hq] at hx; cases hx)]) rfl
    (by rw [State.fld, State.word_setBitsOf, if_neg (fun e => hn e.symm), State.fld])

theorem aside_rcEvent {s : State} (f : Fld) (v w : Nat) (hq : quiet f.addr = false) (hn : f.addr ≠ 0x50004) :
    Aside s (s.rcEvent f v w) :=
  aside_regs (keeps_rcEvent _ _ _ Keeps.refl rfl)
    (fun x hx => State.word_setFld_other s f v (fun e => by rw [e, hq] at hx; cases hx)) rfl
    (State.fld_setFld_addr s _ _ v (Ne.symm hn))

theorem aside_count {s : State} (f : Fld) (k : Nat) (hq : quiet f.addr = false) (hn : f.addr ≠ 0x50004) :
    Aside s (s.count f k) := aside_rcEvent _ _ _ hq hn

theorem aside_setPilot {s : State} (k : Nat) (p : Pilot) (h : p.core = (s.pilot k).core) : Aside s (s.setPilot k p) :=
  ⟨keeps_setPilot _ _ Keeps.refl rfl, fun _ _ => rfl, fun j => by
    by_cases e : j = k
    · subst e; rw [State.pilot_setPilot_same, h]
    · rw [State.pilot_setPilot_other _ _ e], rfl⟩

theorem quiet_dkt {k : Nat} (h : k < 16) : quiet (0x30034 + 0x1000 * k) = false := by
  revert h; revert k; decide

theorem dkt_ne {k : Nat} (h : k < 16) : (0x30034 + 0x1000 * k) ≠ 0x50004 := by omega

theorem aside_enqueue {s : State} {k : Nat} (kind src sub payload : Nat) (hk : k < 16) :
    Aside s (s.enqueue k kind src sub payload) := by
  unfold State.enqueue
  dsimp only
  split
  · split
    · exact aside_setPilot _ _ rfl
    · refine Aside.trans ?_ (aside_count _ _ (quiet_dkt hk) (dkt_ne hk))
      exact aside_setPilot _ _ rfl
  · exact Aside.refl

theorem aside_live {s : State} (f : State → State) (h : Aside s (f s)) : Aside s (s.live f) := by
  unfold State.live
  split
  · exact aside_count _ _ (by decide) (by decide)
  · exact h

theorem aside_postTo {s : State} {k : Nat} (kind src sub payload : Nat) (hk : k < 16) :
    Aside s (s.postTo k kind src sub payload) := aside_live _ (aside_enqueue _ _ _ _ hk)

theorem aside_deliver (kind src sub payload : Nat) : (ks : List Nat) → (∀ k ∈ ks, k < 16) → (s : State) →
    Aside s (State.deliver kind src sub payload ks s)
  | [], _, _ => Aside.refl
  | k :: ks, h, s => by
    unfold State.deliver
    refine Aside.trans ?_ (aside_deliver kind src sub payload ks (fun j hj => h j (List.mem_cons_of_mem _ hj)) _)
    split
    · exact aside_enqueue _ _ _ _ (h k List.mem_cons_self)
    · exact Aside.refl

theorem aside_post {s : State} (kind src sub payload : Nat) : Aside s (s.post kind src sub payload) :=
  aside_live _ (aside_deliver _ _ _ _ _ (fun _ h => List.mem_range.mp h) _)

theorem aside_mergeAll (src m : Nat) : (ks : List Nat) → (s : State) → Aside s (State.mergeAll src m ks s)
  | [], _ => Aside.refl
  | k :: ks, s => by
    unfold State.mergeAll
    refine Aside.trans ?_ (aside_mergeAll src m ks _)
    exact aside_setPilot _ _ rfl

theorem aside_mergeAllAt (src im inst m : Nat) : (ks : List Nat) → (s : State) → Aside s (State.mergeAllAt src im inst m ks s)
  | [], _ => Aside.refl
  | k :: ks, s => by
    unfold State.mergeAllAt
    refine Aside.trans ?_ (aside_mergeAllAt src im inst m ks _)
    exact aside_setPilot _ _ rfl

theorem aside_evPosted {s : State} (v : SMap Nat) : Aside s { s with evPosted := v } :=
  ⟨keeps_evPosted Keeps.refl rfl, fun _ _ => rfl, fun _ => rfl, rfl⟩

theorem aside_unitEvent {s : State} (src m : Nat) : Aside s (s.unitEvent src m) := by
  unfold State.unitEvent
  split
  · exact Aside.refl
  · split
    · exact aside_mergeAll _ _ _ _
    · exact (aside_evPosted _).trans (aside_post _ _ _ _)

/-- Event bits: their word, and the dockets of those enabled. -/
theorem aside_raise {s : State} (a en src m sh : Nat) (hq : quiet a = false) (hn : a ≠ 0x50004) : Aside s (s.raise a en src m sh) :=
  (aside_setBitsOf a m hq hn).trans (aside_unitEvent _ _)

theorem aside_raiseAt {s : State} (a en src im inst m : Nat) (hq : quiet a = false) (hn : a ≠ 0x50004) :
    Aside s (s.raiseAt a en src im inst m) := by
  unfold State.raiseAt
  dsimp only
  refine (aside_setBitsOf a m hq hn).trans ?_
  split
  · exact Aside.refl
  · split
    · exact aside_mergeAllAt _ _ _ _ _ _
    · exact (aside_evPosted _).trans (aside_post _ _ _ _)

theorem aside_log {s : State} (l : Log) : Aside s { s with log := l } :=
  ⟨keeps_log Keeps.refl rfl, fun _ _ => rfl, fun _ => rfl, rfl⟩

theorem aside_pushRec {s : State} (r : LogRec) : Aside s (s.pushRec r) := aside_log _

theorem aside_pushLost {s : State} : Aside s s.pushLost := by
  unfold State.pushLost
  split
  · exact Aside.refl
  · exact (aside_log _).trans (aside_pushRec _)

theorem aside_closeSegment {s : State} : Aside s s.closeSegment := by
  unfold State.closeSegment
  refine Aside.trans (t := s.setFld Reg.LOG_STATUS_SEGMENT (s.fld Reg.LOG_STATUS_SEGMENT + 1)) ?_ (aside_log _)
  refine aside_regs (keeps_setFld _ _ Keeps.refl rfl) (fun x hx => State.word_setFld_other _ _ _ (fun e => ?_)) rfl
    (State.fld_setFld_bits _ _ _ _ rfl (by decide) (by decide) (Or.inr (by decide)))
  subst e; revert hx; decide

theorem aside_continueSegment {s : State} : Aside s s.continueSegment := by
  unfold State.continueSegment
  refine Aside.trans ?_ aside_pushLost
  split
  · exact aside_pushRec _
  · exact Aside.refl

theorem aside_loseRecord {s : State} : Aside s s.loseRecord := by
  unfold State.loseRecord
  exact ((aside_log _).trans (aside_count _ _ (by decide) (by decide))).trans (aside_raise _ _ _ _ _ (by decide) (by decide))

/-- A record of the logbook. -/
theorem aside_logRec {s : State} (typ src sub : Nat) (body : List Nat) : Aside s (s.logRec typ src sub body) := by
  unfold State.logRec
  dsimp only
  split
  · split
    · exact aside_loseRecord
    · split
      · exact (aside_closeSegment.trans aside_continueSegment).trans (aside_pushRec _)
      · exact aside_pushRec _
  · exact Aside.refl

theorem aside_note {s : State} (src code a b : Nat) : Aside s (s.note src code a b) := aside_logRec _ _ _ _

theorem aside_writeRec {s : State} (m a v sub : Nat) : Aside s (s.writeRec m a v sub) := by
  unfold State.writeRec
  split
  · exact aside_logRec _ _ _ _
  · exact Aside.refl

theorem aside_held {s : State} (v : SMap (Option Word)) : Aside s { s with held := v } :=
  ⟨keeps_held Keeps.refl rfl, fun _ _ => rfl, fun _ => rfl, rfl⟩

end Sys2Proof.Machine
end

