-- ==== Sys2Proof/Laws/Calm.lean ====
section
/-! SUPPORT. Dockets, event bits and records change no word outside LOG's block and the docket counters but the event word they set: `calm` words, and what the shared operations leave in them. -/

namespace Sys2Proof.Machine

/-- No calm word differs. -/
def Calm (s t : State) : Prop := ∀ x, calm x = true → t.word x = s.word x

theorem Calm.refl {s : State} : Calm s s := fun _ _ => rfl

theorem Calm.trans {s t u : State} (h : Calm s t) (h' : Calm t u) : Calm s u := fun x hx => (h' x hx).trans (h x hx)

theorem Calm.of_regs {s t : State} (h : t.regs = s.regs) : Calm s t := fun x _ => by rw [State.word, State.word, h]

theorem Calm.setFld {s : State} (f : Fld) (v : Nat) (h : calm f.addr = false) : Calm s (s.setFld f v) :=
  fun x hx => State.word_setFld _ _ _ _ fun e => by rw [e, h] at hx; cases hx

theorem Calm.setFld2 {s : State} (f g : Fld) (v : Nat) (h : calm f.addr = false) (h' : calm g.addr = false) :
    Calm s (s.setFld2 f g v) := (Calm.setFld _ _ h).trans (Calm.setFld _ _ h')

theorem Calm.setBitsOf {s : State} (a m : Nat) (h : calm a = false) : Calm s (s.setBitsOf a m) :=
  fun x hx => by rw [State.word_setBitsOf, if_neg (fun e => by rw [e, h] at hx; cases hx)]

theorem Calm.rcEvent {s : State} (f : Fld) (v w : Nat) (h : calm f.addr = false) : Calm s (s.rcEvent f v w) :=
  (Calm.setFld f v h).trans (Calm.of_regs rfl)

theorem Calm.count {s : State} (f : Fld) (k : Nat) (h : calm f.addr = false) : Calm s (s.count f k) := Calm.rcEvent _ _ _ h

theorem calm_dkt {k : Nat} (h : k < 16) : calm (0x30034 + 0x1000 * k) = false := by
  revert h; revert k; decide

theorem calm_enqueue {s : State} {k : Nat} (kind src sub payload : Nat) (hk : k < 16) : Calm s (s.enqueue k kind src sub payload) := by
  unfold State.enqueue
  dsimp only
  split
  · split
    · exact Calm.of_regs rfl
    · exact Calm.trans (Calm.of_regs rfl) (Calm.count _ _ (calm_dkt hk))
  · exact Calm.refl

theorem calm_live {s : State} (f : State → State) (h : Calm s (f s)) : Calm s (s.live f) := by
  unfold State.live
  split
  · exact Calm.count _ _ (by decide)
  · exact h

theorem calm_postTo {s : State} {k : Nat} (kind src sub payload : Nat) (hk : k < 16) : Calm s (s.postTo k kind src sub payload) :=
  calm_live _ (calm_enqueue _ _ _ _ hk)

theorem calm_deliver (kind src sub payload : Nat) : (ks : List Nat) → (∀ k ∈ ks, k < 16) → (s : State) →
    Calm s (State.deliver kind src sub payload ks s)
  | [], _, _ => Calm.refl
  | k :: ks, h, s => by
    unfold State.deliver
    refine Calm.trans ?_ (calm_deliver kind src sub payload ks (fun j hj => h j (List.mem_cons_of_mem _ hj)) _)
    split
    · exact calm_enqueue _ _ _ _ (h k List.mem_cons_self)
    · exact Calm.refl

theorem calm_post {s : State} (kind src sub payload : Nat) : Calm s (s.post kind src sub payload) :=
  calm_live _ (calm_deliver _ _ _ _ _ (fun _ h => List.mem_range.mp h) _)

theorem calm_mergeAll (src m : Nat) : (ks : List Nat) → (s : State) → Calm s (State.mergeAll src m ks s)
  | [], _ => Calm.refl
  | _ :: ks, _ => Calm.trans (Calm.of_regs rfl) (calm_mergeAll src m ks _)

theorem calm_mergeAllAt (src im inst m : Nat) : (ks : List Nat) → (s : State) → Calm s (State.mergeAllAt src im inst m ks s)
  | [], _ => Calm.refl
  | _ :: ks, _ => Calm.trans (Calm.of_regs rfl) (calm_mergeAllAt src im inst m ks _)

theorem calm_unitEvent {s : State} (src m : Nat) : Calm s (s.unitEvent src m) := by
  unfold State.unitEvent
  split
  · exact Calm.refl
  · split
    · exact calm_mergeAll _ _ _ _
    · refine Calm.trans ?_ (calm_post _ _ _ _)
      exact Calm.of_regs rfl

/-- Event bits that occur change their own word and no other calm word. -/
theorem calm_raise {s : State} (a en src m sh : Nat) : Calm (s.setBitsOf a m) (s.raise a en src m sh) := calm_unitEvent _ _

theorem calm_raiseAt {s : State} (a en src im inst m : Nat) : Calm (s.setBitsOf a m) (s.raiseAt a en src im inst m) := by
  unfold State.raiseAt
  dsimp only
  split
  · exact Calm.refl
  · split
    · exact calm_mergeAllAt _ _ _ _ _ _
    · refine Calm.trans ?_ (calm_post _ _ _ _)
      exact Calm.of_regs rfl

theorem calm_pushRec {s : State} (r : LogRec) : Calm s (s.pushRec r) := Calm.of_regs rfl

theorem calm_pushLost {s : State} : Calm s s.pushLost := by
  unfold State.pushLost
  split
  · exact Calm.refl
  · exact Calm.of_regs rfl

theorem calm_closeSegment {s : State} : Calm s s.closeSegment :=
  (Calm.setFld _ _ (by decide)).trans (Calm.of_regs rfl)

theorem calm_continueSegment {s : State} : Calm s s.continueSegment := by
  unfold State.continueSegment
  split
  · exact Calm.trans (calm_pushRec _) calm_pushLost
  · exact calm_pushLost

theorem calm_loseRecord {s : State} : Calm s s.loseRecord := by
  unfold State.loseRecord
  refine Calm.trans (t := ({ s with log := { s.log with lostDue := (s.log.lostDue.1, s.log.lostDue.2 + 1) } }.count
    Reg.LOG_CNT_LOST_RECORDS)) ?_ ?_
  · exact Calm.trans (Calm.of_regs rfl) (Calm.count _ _ (by decide))
  · exact Calm.trans (Calm.setBitsOf _ _ (by decide)) (calm_raise _ _ _ _ _)

theorem calm_logRec {s : State} (typ src sub : Nat) (body : List Nat) : Calm s (s.logRec typ src sub body) := by
  unfold State.logRec
  dsimp only
  split
  · split
    · exact calm_loseRecord
    · split
      · exact (calm_closeSegment.trans calm_continueSegment).trans (calm_pushRec _)
      · exact calm_pushRec _
  · exact Calm.refl

theorem calm_note {s : State} (src code a b : Nat) : Calm s (s.note src code a b) := calm_logRec _ _ _ _

theorem calm_writeRec {s : State} (m a v sub : Nat) : Calm s (s.writeRec m a v sub) := by
  unfold State.writeRec
  split
  · exact calm_logRec _ _ _ _
  · exact Calm.refl

/-! What `simp` reads off them. -/

theorem State.word_unitEvent {s : State} {x : Nat} (src m : Nat) (h : calm x = true) : (s.unitEvent src m).word x = s.word x :=
  calm_unitEvent _ _ x h

theorem State.word_raise {s : State} {x : Nat} (a en src m sh : Nat) (h : calm x = true) :
    (s.raise a en src m sh).word x = if x = a then s.word a ||| BitVec.ofNat 32 m else s.word x := by
  rw [calm_raise a en src m sh x h, State.word_setBitsOf]

theorem State.word_raiseAt {s : State} {x : Nat} (a en src im inst m : Nat) (h : calm x = true) :
    (s.raiseAt a en src im inst m).word x = if x = a then s.word a ||| BitVec.ofNat 32 m else s.word x := by
  rw [calm_raiseAt a en src im inst m x h, State.word_setBitsOf]

theorem State.word_note {s : State} {x : Nat} (src code a b : Nat) (h : calm x = true) : (s.note src code a b).word x = s.word x :=
  calm_note _ _ _ _ x h

theorem State.word_logRec {s : State} {x : Nat} (typ src sub : Nat) (body : List Nat) (h : calm x = true) :
    (s.logRec typ src sub body).word x = s.word x := calm_logRec _ _ _ _ x h

theorem State.word_writeRec {s : State} {x : Nat} (m a v sub : Nat) (h : calm x = true) : (s.writeRec m a v sub).word x = s.word x :=
  calm_writeRec _ _ _ _ x h

theorem State.word_post {s : State} {x : Nat} (kind src sub payload : Nat) (h : calm x = true) :
    (s.post kind src sub payload).word x = s.word x := calm_post _ _ _ _ x h

theorem State.word_count {s : State} {x : Nat} (f : Fld) (k : Nat) (h : x ≠ f.addr) : (s.count f k).word x = s.word x :=
  State.word_setFld s f _ x h

theorem State.word_postTo {s : State} {k x : Nat} (kind src sub payload : Nat) (hk : k < 16) (h : calm x = true) :
    (s.postTo k kind src sub payload).word x = s.word x := calm_postTo _ _ _ _ hk x h

theorem State.fld_of_word {s t : State} {f : Fld} (h : t.word f.addr = s.word f.addr) : t.fld f = s.fld f := by
  rw [State.fld, State.fld, h]

theorem State.fld_note {s : State} {f : Fld} (src code a b : Nat) (h : calm f.addr = true) : (s.note src code a b).fld f = s.fld f :=
  State.fld_of_word (State.word_note _ _ _ _ h)

theorem State.fld_logRec {s : State} {f : Fld} (typ src sub : Nat) (body : List Nat) (h : calm f.addr = true) :
    (s.logRec typ src sub body).fld f = s.fld f := State.fld_of_word (State.word_logRec _ _ _ _ h)

theorem State.fld_writeRec {s : State} {f : Fld} (m a v sub : Nat) (h : calm f.addr = true) : (s.writeRec m a v sub).fld f = s.fld f :=
  State.fld_of_word (State.word_writeRec _ _ _ _ h)

theorem State.fld_post {s : State} {f : Fld} (kind src sub payload : Nat) (h : calm f.addr = true) :
    (s.post kind src sub payload).fld f = s.fld f := State.fld_of_word (State.word_post _ _ _ _ h)

theorem State.fld_postTo {s : State} {f : Fld} {k : Nat} (kind src sub payload : Nat) (hk : k < 16) (h : calm f.addr = true) :
    (s.postTo k kind src sub payload).fld f = s.fld f := State.fld_of_word (State.word_postTo _ _ _ _ hk h)

theorem State.fld_raise {s : State} {f : Fld} (a en src m sh : Nat) (h : calm f.addr = true) (ha : f.addr ≠ a) :
    (s.raise a en src m sh).fld f = s.fld f := State.fld_of_word ((State.word_raise _ _ _ _ _ h).trans (if_neg ha))

theorem State.fld_raiseAt {s : State} {f : Fld} (a en src im inst m : Nat) (h : calm f.addr = true) (ha : f.addr ≠ a) :
    (s.raiseAt a en src im inst m).fld f = s.fld f := State.fld_of_word ((State.word_raiseAt _ _ _ _ _ _ h).trans (if_neg ha))

theorem State.fld_setBitsOf {s : State} {f : Fld} (a m : Nat) (ha : f.addr ≠ a) : (s.setBitsOf a m).fld f = s.fld f :=
  State.fld_of_word ((State.word_setBitsOf _ _ _ _).trans (if_neg ha))

theorem State.fld_count_addr {s : State} {f g : Fld} (k : Nat) (h : f.addr ≠ g.addr) : (s.count g k).fld f = s.fld f :=
  State.fld_of_word (State.word_count _ _ h)

/-- A counter after `k` more events: it saturates at all ones (R10). -/
theorem State.fld_count_same {s : State} {f : Fld} (k : Nat) (h : f.lo ≤ f.hi) (hw : f.hi < 32) :
    (s.count f k).fld f = min (s.fld f + k) (2 ^ (f.hi + 1 - f.lo) - 1) := by
  show (s.setFld f (satAdd (f.hi + 1 - f.lo) (s.fld f) k)).fld f = _
  rw [State.fld_setFld_same _ _ _ h hw]
  unfold satAdd
  have : 0 < 2 ^ (f.hi + 1 - f.lo) := Nat.two_pow_pos _
  split
  · rw [Nat.mod_eq_of_lt (by omega)]; omega
  · rw [Nat.mod_eq_of_lt (by omega)]; omega

/-- An event bit that has occurred is set. -/
theorem State.flag_raise {s : State} {f : Fld} (en src m sh : Nat) (h : calm f.addr = true) (hb : f.hi = f.lo) (hw : f.lo < 32)
    (hm : m.testBit f.lo = true) : (s.raise f.addr en src m sh).flag f = true := by
  unfold State.flag
  rw [State.fld, State.word_raise _ _ _ _ _ h, if_pos rfl]
  simp only [bits, hb, Nat.add_sub_cancel_left, decide_eq_true_eq]
  intro h0
  have : ((s.word f.addr ||| BitVec.ofNat 32 m).toNat).testBit f.lo = true := by
    rw [BitVec.toNat_or, Nat.testBit_or, BitVec.toNat_ofNat, Nat.testBit_mod_two_pow]
    simp [hm, hw]
  rw [Nat.testBit_eq_decide_div_mod_eq] at this
  rw [Nat.shiftRight_eq_div_pow] at h0
  simp_all

theorem State.flag_raiseAt {s : State} {f : Fld} (en src im inst m : Nat) (h : calm f.addr = true) (hb : f.hi = f.lo) (hw : f.lo < 32)
    (hm : m.testBit f.lo = true) : (s.raiseAt f.addr en src im inst m).flag f = true := by
  unfold State.flag
  rw [State.fld, State.word_raiseAt _ _ _ _ _ _ h, if_pos rfl]
  simp only [bits, hb, Nat.add_sub_cancel_left, decide_eq_true_eq]
  intro h0
  have : ((s.word f.addr ||| BitVec.ofNat 32 m).toNat).testBit f.lo = true := by
    rw [BitVec.toNat_or, Nat.testBit_or, BitVec.toNat_ofNat, Nat.testBit_mod_two_pow]
    simp [hm, hw]
  rw [Nat.testBit_eq_decide_div_mod_eq] at this
  rw [Nat.shiftRight_eq_div_pow] at h0
  simp_all

end Sys2Proof.Machine
end

