-- ==== Sys2Proof/Laws/Writes.lean ====
section
/-! SUPPORT. What a control-space write does before the action of its register: `write_one` for the registers of one word without class-T fields, by which every register command is a short evaluation. -/

namespace Sys2Proof.Machine

open State

/-! ### WRITE_REJECT -/

/-- Word `a` lies in a block that exists. -/
def inBlock (a : Nat) : Bool :=
  if a < 0x170000 then true
  else if a < 0x190000 then decide ((a - 0x180000) / 0x4000 < 2)
  else if a < 0x1F1000 then true
  else if a < 0x1F8000 then decide ((a - 0x1F1000) / 0x100 < 16)
  else if a < 0x1FC000 then decide ((a - 0x1F8000) / 0x200 < 8)
  else decide ((a - 0x1FE000) / 0x40 < 16)

/-- An ENC word lies in one of the four slots, and a volume's word in one of the four volumes. -/
def inSlot (a : Nat) : Bool :=
  if a < 0x160000 then true
  else if a < 0x170000 then decide (((a - 0x160000) % 0x4000 - 0x100) / 0x100 < 4)
  else if a < 0x1D2000 then true
  else if a < 0x1E0000 then decide ((a - 0x1D3000) / 0x100 < 4)
  else true

theorem pcx_home_lt (s : State) (v : Nat) : s.fld (Reg.PCX_VOL_CTRL_HOME v) < 2 := bits_lt _ _ _

theorem aside_pcxRaise {s : State} {p : Nat} (m : Nat) (h : p < 2) : Aside s (s.pcxRaise p m) :=
  aside_raise _ _ _ _ _ (by revert h; revert p; decide) (by simp [Reg.PCX_EVENT_JOB_FAIL]; omega)

theorem aside_netRaise {s : State} {p : Nat} (m : Nat) (h : p < 2) : Aside s (s.netRaise p m) :=
  aside_raise _ _ _ _ _ (by revert h; revert p; decide) (by simp [Reg.NET_EVENT_LINK_DOWN]; omega)

theorem aside_audRaise {s : State} {p : Nat} (m : Nat) (h : p < 16) : Aside s (s.audRaise p m) :=
  aside_raiseAt _ _ _ _ _ _ (by revert h; revert p; decide) (by simp [Reg.AUD_EVENT_PUSH_LOST]; omega)

theorem aside_srxRaise {s : State} {p : Nat} (m : Nat) (h : p < 4) : Aside s (s.srxRaise p m) :=
  aside_raise _ _ _ _ _ (by revert h; revert p; decide) (by omega)

theorem aside_pipeRaise {s : State} {p : Nat} (m : Nat) (h : p < 4) : Aside s (s.pipeRaise p m) :=
  aside_raise _ _ _ _ _ (by revert h; revert p; decide) (by omega)

theorem aside_encRaise {s : State} {p : Nat} (m : Nat) (h : p < 4) : Aside s (s.encRaise p m) :=
  aside_raise _ _ _ _ _ (by revert h; revert p; decide) (by simp [encA]; omega)

theorem aside_decRaise {s : State} {p : Nat} (m : Nat) (h : p < 2) : Aside s (s.decRaise p m) :=
  aside_raise _ _ _ _ _ (by revert h; revert p; decide) (by simp [decA]; omega)

theorem aside_lzeRaise {s : State} (m : Nat) : Aside s (s.lzeRaise m) := aside_raise _ _ _ _ _ (by decide) (by decide)

theorem aside_logRaise {s : State} (m : Nat) : Aside s (s.logRaise m) := aside_raise _ _ _ _ _ (by decide) (by decide)

theorem aside_timeRaise {s : State} (m : Nat) : Aside s (s.timeRaise m) := aside_raise _ _ _ _ _ (by decide) (by decide)

theorem aside_twbRaise {s : State} {p : Nat} (m : Nat) (h : p < 8) : Aside s (s.twbRaise p m) := by
  have hq : quiet (Reg.TWB_EVENT_NACK p).addr = false := by revert h; revert p; decide
  have hn : (Reg.TWB_EVENT_NACK p).addr ≠ 0x50004 := by simp [Reg.TWB_EVENT_NACK]; omega
  unfold State.twbRaise
  dsimp only
  split
  · refine Aside.trans ((aside_raiseAt (s := s) _ (Reg.TWB_EVENT_EN_EN p).addr 48 0xFF00 (p <<< 8) (m % 256) hq hn).trans
      (aside_setBitsOf _ 256 hq hn)) ?_
    split
    · exact aside_post _ _ _ _
    · exact Aside.refl
  · exact aside_raiseAt _ _ _ _ _ _ hq hn

theorem aside_audRejects : (ps : List Nat) → (∀ p ∈ ps, p < 16) → (s : State) → Aside s (audRejects ps s)
  | [], _, _ => Aside.refl
  | p :: ps, h, s => by
    unfold audRejects
    exact (aside_audRaise _ (h p List.mem_cons_self)).trans (aside_audRejects ps (fun q hq => h q (List.mem_cons_of_mem _ hq)) _)

/-- A rejected write sets its block's WRITE_REJECT and nothing else. -/
theorem aside_xReject {s : State} {a : Nat} (h : inBlock a = true) : Aside s (s.xReject a) := by
  unfold State.xReject
  unfold inBlock at h
  by_cases h1 : a < 0x30000
  · rw [if_pos h1]; exact aside_timeRaise _
  rw [if_neg h1]
  by_cases h2 : a < 0x40000
  · rw [if_pos h2]
    exact aside_raise _ _ _ _ _ (by
      have : (a - 0x30000) / 0x1000 < 16 := by omega
      revert this; generalize (a - 0x30000) / 0x1000 = k; revert k; decide) (by omega)
  rw [if_neg h2]
  by_cases h3 : a < 0x60000
  · rw [if_pos h3]; exact aside_logRaise _
  rw [if_neg h3]
  by_cases h4 : a < 0x90000
  · rw [if_pos h4]; exact aside_srxRaise _ (by omega)
  rw [if_neg h4]
  by_cases h5 : a < 0x140000
  · rw [if_pos h5]; exact aside_pipeRaise _ (by omega)
  rw [if_neg h5]
  by_cases h6 : a < 0x170000
  · rw [if_pos h6]; exact aside_encRaise _ (by omega)
  rw [if_neg h6]
  rw [if_neg h6] at h
  by_cases h7 : a < 0x190000
  · rw [if_pos h7]; rw [if_pos h7] at h; exact aside_decRaise _ (of_decide_eq_true h)
  rw [if_neg h7]
  rw [if_neg h7] at h
  by_cases h8 : a < 0x1A0000
  · rw [if_pos h8]; exact aside_lzeRaise _
  rw [if_neg h8]
  by_cases h9 : a < 0x1D2000
  · rw [if_pos h9]
    by_cases h9' : a < 0x1D0000
    · have : (a - 0x1D0000) / 0x1000 = 0 := by omega
      rw [this]; exact aside_pcxRaise _ (by decide)
    · exact aside_pcxRaise _ (by omega)
  rw [if_neg h9]
  by_cases h10 : a < 0x1E0000
  · rw [if_pos h10]; exact aside_pcxRaise _ (pcx_home_lt _ _)
  rw [if_neg h10]
  by_cases h11 : a < 0x1E8000
  · rw [if_pos h11]; exact aside_netRaise _ (by omega)
  rw [if_neg h11]
  by_cases h12 : a < 0x1F0000
  · rw [if_pos h12]
    dsimp only
    split
    · split
      · exact (aside_netRaise _ (by decide)).trans (aside_netRaise _ (by decide))
      · exact aside_netRaise _ (by decide)
    · split
      · exact aside_netRaise _ (by decide)
      · exact Aside.refl
  rw [if_neg h12]
  by_cases h13 : a < 0x1F1000
  · rw [if_pos h13]; exact aside_audRejects _ (fun p hp => List.mem_range.mp (List.mem_filter.mp hp).1) _
  rw [if_neg h13]
  rw [if_neg h13] at h
  by_cases h14 : a < 0x1F8000
  · rw [if_pos h14]; rw [if_pos h14] at h; exact aside_audRaise _ (of_decide_eq_true h)
  rw [if_neg h14]
  rw [if_neg h14] at h
  by_cases h15 : a < 0x1FC000
  · rw [if_pos h15]; rw [if_pos h15] at h; exact aside_twbRaise _ (of_decide_eq_true h)
  rw [if_neg h15]
  rw [if_neg h15] at h
  have h16 := of_decide_eq_true h
  exact aside_setBitsOf _ _ (by revert h16; generalize (a - 0x1FE000) / 0x40 = k; revert k; decide) (by
    simp only [Reg.EVT_WRITE_REJECT]; omega)

/-! ### What a rejected write leaves -/

/-- The words in which a rejected write of word `a` can set WRITE_REJECT. -/
def inReject (a x : Nat) : Bool :=
  if a < 0x30000 then decide (x = 0x20008)
  else if a < 0x40000 then decide (x = 0x3003C + 0x1000 * ((a - 0x30000) / 0x1000))
  else if a < 0x60000 then decide (x = 0x50044)
  else if a < 0x90000 then decide (x = 0x80060 + 0x4000 * ((a - 0x80000) / 0x4000))
  else if a < 0x140000 then decide (x = 0x1001A0 + 0x10000 * ((a - 0x100000) / 0x10000))
  else if a < 0x170000 then decide (x = 0x160010 + 0x4000 * ((a - 0x160000) / 0x4000))
  else if a < 0x190000 then decide (x = 0x180030 + 0x4000 * ((a - 0x180000) / 0x4000))
  else if a < 0x1A0000 then decide (x = 0x190020)
  else if a < 0x1D2000 then decide (x = 0x1D0030 + 0x1000 * ((a - 0x1D0000) / 0x1000))
  else if a < 0x1E0000 then decide (x = 0x1D0030 ∨ x = 0x1D1030)
  else if a < 0x1E8000 then decide (x = 0x1E0060 + 0x4000 * ((a - 0x1E0000) / 0x4000))
  else if a < 0x1F0000 then decide (x = 0x1E0060 ∨ x = 0x1E4060)
  else if a < 0x1F1000 then decide (0x1F1028 ≤ x ∧ x < 0x1F2028)
  else if a < 0x1F8000 then decide (x = 0x1F1028 + 0x100 * ((a - 0x1F1000) / 0x100))
  else if a < 0x1FC000 then decide (x = 0x1F8044 + 0x200 * ((a - 0x1F8000) / 0x200))
  else decide (x = 0x1FE020 + 0x40 * ((a - 0x1FE000) / 0x40))

theorem word_audRejects {x : Nat} (hx : calm x = true) : (ps : List Nat) → (∀ p ∈ ps, x ≠ (Reg.AUD_EVENT_PUSH_LOST p).addr) → (s : State) →
    (audRejects ps s).word x = s.word x
  | [], _, _ => rfl
  | p :: ps, h, s => by
    unfold audRejects
    rw [word_audRejects hx ps (fun q hq => h q (List.mem_cons_of_mem _ hq)), State.audRaise, State.word_raiseAt _ _ _ _ _ _ hx,
      if_neg (h p List.mem_cons_self)]

theorem word_twbRaise {s : State} {b m x : Nat} (hx : calm x = true) (h : x ≠ (Reg.TWB_EVENT_NACK b).addr) :
    (s.twbRaise b m).word x = s.word x := by
  unfold State.twbRaise
  dsimp only
  split
  · split
    · rw [State.word_post _ _ _ _ hx, State.word_setBitsOf, if_neg h, State.word_raiseAt _ _ _ _ _ _ hx, if_neg h]
    · rw [State.word_setBitsOf, if_neg h, State.word_raiseAt _ _ _ _ _ _ hx, if_neg h]
  · rw [State.word_raiseAt _ _ _ _ _ _ hx, if_neg h]

/-- A rejected write changes no calm word but those that hold its WRITE_REJECT. -/
theorem calm_xReject {s : State} {a x : Nat} (hx : calm x = true) (hb : inBlock a = true) (h : inReject a x = false) :
    (s.xReject a).word x = s.word x := by
  unfold State.xReject
  unfold inReject at h
  unfold inBlock at hb
  by_cases h1 : a < 0x30000
  · rw [if_pos h1] at h ⊢
    rw [State.timeRaise, State.word_raise _ _ _ _ _ hx]; exact if_neg (of_decide_eq_false h)
  rw [if_neg h1] at h ⊢
  by_cases h2 : a < 0x40000
  · rw [if_pos h2] at h ⊢
    dsimp only
    rw [State.word_raise _ _ _ _ _ hx, if_neg (of_decide_eq_false h)]
  rw [if_neg h2] at h ⊢
  by_cases h3 : a < 0x60000
  · rw [if_pos h3] at h ⊢
    rw [State.logRaise, State.word_raise _ _ _ _ _ hx]; exact if_neg (of_decide_eq_false h)
  rw [if_neg h3] at h ⊢
  by_cases h4 : a < 0x90000
  · rw [if_pos h4] at h ⊢
    rw [State.srxRaise, State.word_raise _ _ _ _ _ hx]; exact if_neg (of_decide_eq_false h)
  rw [if_neg h4] at h ⊢
  by_cases h5 : a < 0x140000
  · rw [if_pos h5] at h ⊢
    rw [State.pipeRaise, State.word_raise _ _ _ _ _ hx]; exact if_neg (of_decide_eq_false h)
  rw [if_neg h5] at h ⊢
  by_cases h6 : a < 0x170000
  · rw [if_pos h6] at h ⊢
    rw [State.encRaise, State.word_raise _ _ _ _ _ hx, if_neg (by have := of_decide_eq_false h; simp only [encA]; omega)]
  rw [if_neg h6] at h hb ⊢
  by_cases h7 : a < 0x190000
  · rw [if_pos h7] at h ⊢
    rw [State.decRaise, State.word_raise _ _ _ _ _ hx, if_neg (by have := of_decide_eq_false h; simp only [decA]; omega)]
  rw [if_neg h7] at h hb ⊢
  by_cases h8 : a < 0x1A0000
  · rw [if_pos h8] at h ⊢
    rw [State.lzeRaise, State.word_raise _ _ _ _ _ hx]; exact if_neg (of_decide_eq_false h)
  rw [if_neg h8] at h ⊢
  by_cases h9 : a < 0x1D2000
  · rw [if_pos h9] at h ⊢
    rw [State.pcxRaise, State.word_raise _ _ _ _ _ hx]; exact if_neg (of_decide_eq_false h)
  rw [if_neg h9] at h ⊢
  by_cases h10 : a < 0x1E0000
  · rw [if_pos h10] at h ⊢
    have h' := of_decide_eq_false h
    rw [State.pcxRaise, State.word_raise _ _ _ _ _ hx, if_neg (by
      have := pcx_home_lt s ((a - 0x1D3000) / 0x100)
      generalize s.fld (Reg.PCX_VOL_CTRL_HOME ((a - 0x1D3000) / 0x100)) = k at this ⊢
      simp only [Reg.PCX_EVENT_JOB_FAIL]; omega)]
  rw [if_neg h10] at h ⊢
  by_cases h11 : a < 0x1E8000
  · rw [if_pos h11] at h ⊢
    rw [State.netRaise, State.word_raise _ _ _ _ _ hx]; exact if_neg (of_decide_eq_false h)
  rw [if_neg h11] at h ⊢
  by_cases h12 : a < 0x1F0000
  · rw [if_pos h12] at h ⊢
    have h' := of_decide_eq_false h
    have e : ∀ q, q < 2 → ∀ u : State, (u.netRaise q 0x20).word x = u.word x := fun q hq u => by
      rw [State.netRaise, State.word_raise _ _ _ _ _ hx, if_neg (by simp only [Reg.NET_EVENT_LINK_DOWN]; omega)]
    dsimp only
    split
    · split
      · rw [e 1 (by decide), e 0 (by decide)]
      · rw [e 0 (by decide)]
    · split
      · rw [e 1 (by decide)]
      · rfl
  rw [if_neg h12] at h ⊢
  by_cases h13 : a < 0x1F1000
  · rw [if_pos h13] at h ⊢
    have h' := of_decide_eq_false h
    exact word_audRejects hx _ (fun p hp => by have := List.mem_range.mp (List.mem_filter.mp hp).1; simp only [Reg.AUD_EVENT_PUSH_LOST]; omega) _
  rw [if_neg h13] at h ⊢
  by_cases h14 : a < 0x1F8000
  · rw [if_pos h14] at h ⊢
    rw [State.audRaise, State.word_raiseAt _ _ _ _ _ _ hx]; exact if_neg (of_decide_eq_false h)
  rw [if_neg h14] at h ⊢
  by_cases h15 : a < 0x1FC000
  · rw [if_pos h15] at h ⊢
    exact word_twbRaise hx (of_decide_eq_false h)
  rw [if_neg h15] at h ⊢
  rw [State.word_setBitsOf]; exact if_neg (of_decide_eq_false h)

/-! ### Fields of the written word -/

theorem putField_other {lock : Bool} {a v : Nat} {s : State} {f : FieldDesc} {x : Nat} (h : x ≠ a) :
    (putField lock a v s f).word x = s.word x := by
  unfold putField
  dsimp only
  split
  · rfl
  · split
    · exact State.word_setFld_other _ _ _ h
    · split
      · exact State.word_setFld_other _ _ _ h
      · rfl
    · split
      · rfl
      · exact State.word_setFld_other _ _ _ h
    · exact State.word_setFld_other _ _ _ h
    · rfl
    · rfl

theorem putFields_other {lock : Bool} {a v : Nat} {x : Nat} (h : x ≠ a) :
    (fs : List FieldDesc) → (s : State) → (putFields lock a v fs s).word x = s.word x
  | [], _ => rfl
  | f :: fs, s => (putFields_other h fs (putField lock a v s f)).trans (putField_other h)

/-- Two fields of a word share no bit, and both lie in it. -/
def apart (f g : FieldDesc) : Bool := decide (f.hi < 32) && decide (f.lo ≤ f.hi) && (decide (g.hi < f.lo) || decide (f.hi < g.lo))

theorem putField_apart {lock : Bool} {a v : Nat} {s : State} {f g : FieldDesc} (h : apart f g = true) (hg : g.hi < 32) :
    (putField lock a v s f).fld ⟨a, g.hi, g.lo⟩ = s.fld ⟨a, g.hi, g.lo⟩ := by
  have e : ∀ n, (s.setFld ⟨a, f.hi, f.lo⟩ n).fld ⟨a, g.hi, g.lo⟩ = s.fld ⟨a, g.hi, g.lo⟩ := fun n => by
    simp only [apart, Bool.and_eq_true, Bool.or_eq_true, decide_eq_true_eq] at h
    exact State.fld_setFld_bits _ _ _ _ rfl h.1.2 hg h.2
  unfold putField
  dsimp only
  split
  · rfl
  · split
    · exact e _
    · split
      · exact e _
      · rfl
    · split
      · rfl
      · exact e _
    · exact e _
    · rfl
    · rfl

theorem putFields_apart {lock : Bool} {a v : Nat} {g : FieldDesc} (hg : g.hi < 32) :
    (fs : List FieldDesc) → (∀ f ∈ fs, apart f g = true) → (s : State) →
      (putFields lock a v fs s).fld ⟨a, g.hi, g.lo⟩ = s.fld ⟨a, g.hi, g.lo⟩
  | [], _, _ => rfl
  | f :: fs, h, s => (putFields_apart hg fs (fun x hx => h x (List.mem_cons_of_mem _ hx)) (putField lock a v s f)).trans
      (putField_apart (h f List.mem_cons_self) hg)

/-- Every field of the list shares no bit with those after it. -/
def allApart (fs : List FieldDesc) : Bool := match fs with
  | [] => true
  | f :: fs => fs.all (fun g => apart f g && apart g f && decide (g.hi < 32)) && decide (f.hi < 32) && decide (f.lo ≤ f.hi) && allApart fs

/-- A writable field of class L or S, or an unlocked one of class X, takes its part of the value (R8, R12). -/
theorem putFields_rw {lock : Bool} {a v : Nat} {g : FieldDesc} (hc : g.cls ≠ .t) (hx : g.cls = .x → lock = false) (hw : g.acc = .rw) :
    (fs : List FieldDesc) → allApart fs = true → g ∈ fs → (s : State) →
      (putFields lock a v fs s).fld ⟨a, g.hi, g.lo⟩ = bits v g.hi g.lo
  | f :: fs, ha, hm, s => by
    simp only [allApart, Bool.and_eq_true, List.all_eq_true, decide_eq_true_eq] at ha
    rcases List.mem_cons.mp hm with rfl | hm
    · refine (putFields_apart ha.1.1.2 fs (fun x hx => (ha.1.1.1 x hx).1.2) _).trans ?_
      unfold putField
      dsimp only
      rw [if_neg (by rintro (h | ⟨h, h'⟩); exact hc h; rw [hx h] at h'; cases h'), hw]
      dsimp only
      rw [State.fld_setFld_same _ _ _ ha.1.2 ha.1.1.2, Nat.mod_eq_of_lt (bits_lt _ _ _)]
    · exact putFields_rw hc hx hw fs ha.2 hm _

/-- A locked class-X field keeps its value (R13). -/
theorem putFields_locked {a v : Nat} {g : FieldDesc} (hc : g.cls = .x) (hg : g.hi < 32) :
    (fs : List FieldDesc) → (∀ f ∈ fs, apart f g = true ∨ f = g) → (s : State) →
      (putFields true a v fs s).fld ⟨a, g.hi, g.lo⟩ = s.fld ⟨a, g.hi, g.lo⟩
  | [], _, _ => rfl
  | f :: fs, h, s => by
    refine (putFields_locked hc hg fs (fun x hx => h x (List.mem_cons_of_mem _ hx)) (putField true a v s f)).trans ?_
    rcases h f List.mem_cons_self with h | rfl
    · exact putField_apart h hg
    · unfold putField
      dsimp only
      rw [if_pos (Or.inr ⟨hc, rfl⟩)]

theorem allApart_hi : {fs : List FieldDesc} → {g : FieldDesc} → allApart fs = true → g ∈ fs → g.hi < 32
  | f :: fs, g, h, hg => by
    simp only [allApart, Bool.and_eq_true, List.all_eq_true, decide_eq_true_eq] at h
    rcases List.mem_cons.mp hg with rfl | hg
    · exact h.1.1.2
    · exact allApart_hi h.2 hg

theorem allApart_apart : {fs : List FieldDesc} → {f g : FieldDesc} → allApart fs = true → f ∈ fs → g ∈ fs → apart f g = true ∨ f = g
  | e :: fs, f, g, h, hf, hg => by
    simp only [allApart, Bool.and_eq_true, List.all_eq_true, decide_eq_true_eq] at h
    rcases List.mem_cons.mp hf with hf | hf <;> rcases List.mem_cons.mp hg with hg | hg
    · exact Or.inr (hf.trans hg.symm)
    · exact Or.inl (hf ▸ (h.1.1.1 g hg).1.1)
    · exact Or.inl (hg ▸ (h.1.1.1 f hf).1.2)
    · exact allApart_apart h.2 hf hg

/-! ### One word without class-T fields -/

/-- A register of one word, mapped, writable, and without class-T fields. -/
def plainReg (a : Nat) : Bool :=
  decide (a % 4 = 0) && decide (a < 0x4000000) && !decide (0x68000 ≤ a ∧ a < 0x69000) && (fieldsAt a).any isWritable &&
    decide (wideOf a = (0, 1)) && ((fieldsAt a).all fun (f : FieldDesc) => decide (f.cls ≠ .t)) && !onlyX (fieldsAt a) &&
    !decide (0x1F8000 ≤ a ∧ a < 0x1F9000 ∧ a % 0x200 = 4) && inBlock a && inSlot a && allApart (fieldsAt a)

/-- Between `s` and `t`, word `a` was written with `v`: a WRITE record may have been made, the word's fields have taken theirs, a locked class-X field may have set WRITE_REJECT. -/
structure Wrote (a v : Nat) (s t : State) : Prop where
  keeps : Keeps 148376 s t
  word : ∀ x, quiet x = true → x ≠ a → t.word x = s.word x
  pilot : ∀ k, (t.pilot k).core = (s.pilot k).core
  logState : a ≠ 0x50004 → t.fld Reg.LOG_STATUS_STATE = s.fld Reg.LOG_STATUS_STATE
  field : ∀ g ∈ fieldsAt a, g.acc = .rw → g.cls ≠ .x → t.fld ⟨a, g.hi, g.lo⟩ = bits (clampWrite a v) g.hi g.lo
  fieldX : ∀ g ∈ fieldsAt a, g.acc = .rw → s.xLocked a v = false → t.fld ⟨a, g.hi, g.lo⟩ = bits (clampWrite a v) g.hi g.lo
  calm : calm a = true → ∀ x, calm x = true → x ≠ a →
    (s.xLocked a v = true → s.changesX a v (fieldsAt a) = true → inReject a x = false) → t.word x = s.word x
  w1c : ((fieldsAt a).all fun (f : FieldDesc) => decide (f.cls ≠ .x)) = true → Machine.calm a = true → a ≠ 0x50044 →
    ∀ g ∈ fieldsAt a, g.acc = .w1c → g.cls = .s → g.hi = g.lo → t.fld ⟨a, g.hi, g.lo⟩ =
      if bits (clampWrite a v) g.hi g.lo = 1 ∧ bits (s.evSet.get (fun _ => 0) a).toNat g.hi g.lo = 0 then 0 else s.fld ⟨a, g.hi, g.lo⟩
  kept : quiet a = true → ∀ g ∈ fieldsAt a, g.cls = .x → s.xLocked a v = true → t.fld ⟨a, g.hi, g.lo⟩ = s.fld ⟨a, g.hi, g.lo⟩

/-! ### What decides a class-X lock stays through a WRITE record -/

theorem tWrites_nil {a v : Nat} (h : ((fieldsAt a).all fun (f : FieldDesc) => decide (f.cls ≠ .t)) = true) : tWrites [(a, v)] = [] := by
  have : tParts a v (fieldsAt a) = [] := by
    unfold tParts
    rw [List.map_eq_nil_iff, List.filter_eq_nil_iff]
    intro f hf
    have := List.all_eq_true.mp h f hf
    simpa using this
  simp [tWrites, this]

theorem clear_held (s : State) (a : Nat) : Aside s (dropHeld a 1 s) := aside_held _

theorem quietAt {c : Nat} {g : Nat → Nat} (h : ∀ k, k < c → quiet (g k) = true) {k : Nat} (hk : k < c) : quiet (g k) = true := h k hk

theorem quiet_encSlot : ∀ e, e < 4 → ∀ i, i < 4 → quiet (Reg.ENC_SLOT_CFG_EN e i).addr = true := by decide +kernel

theorem xLocked_aside {s t : State} (h : Aside s t) (a v : Nat) (hb : inBlock a = true) (hs : inSlot a = true) :
    t.xLocked a v = s.xLocked a v := by
  unfold State.xLocked
  unfold inBlock at hb
  unfold inSlot at hs
  by_cases h1 : 0x20030 ≤ a ∧ a < 0x20040
  · rw [if_pos h1, if_pos h1, State.running, State.running, State.flag, State.flag, h.fld _ (by decide)]
  rw [if_neg h1, if_neg h1]
  by_cases h2 : 0x20200 ≤ a ∧ a < 0x20300
  · rw [if_pos h2, if_pos h2, State.flag, State.flag, h.fld _ (by
      have : (a - 0x20200) / 0x80 < 2 := by omega
      revert this; generalize (a - 0x20200) / 0x80 = k; revert k; decide +kernel)]
  rw [if_neg h2, if_neg h2]
  by_cases h3 : a < 0x30000
  · rw [if_pos h3, if_pos h3]
  rw [if_neg h3, if_neg h3]
  by_cases h4 : a < 0x40000
  · have := congrArg Pilot.st (h.pilot ((a - 0x30000) / 0x1000))
    simp only [Pilot.core] at this
    rw [if_pos h4, if_pos h4]
    dsimp only
    rw [this]
  rw [if_neg h4, if_neg h4]
  by_cases h5 : a < 0x50000
  · rw [if_pos h5, if_pos h5]
  rw [if_neg h5, if_neg h5]
  by_cases h6 : a < 0x60000
  · rw [if_pos h6, if_pos h6, State.logState, State.logState, h.logState]
  rw [if_neg h6, if_neg h6]
  by_cases h7 : a < 0x80000
  · rw [if_pos h7, if_pos h7]
  rw [if_neg h7, if_neg h7]
  by_cases h8 : a < 0x90000
  · rw [if_pos h8, if_pos h8, State.portState, State.portState, h.fld _ (by
      have : (a - 0x80000) / 0x4000 < 4 := by omega
      revert this; generalize (a - 0x80000) / 0x4000 = k; revert k; decide +kernel)]
  rw [if_neg h8, if_neg h8]
  by_cases h9 : a < 0x140000
  · rw [if_pos h9, if_pos h9, h.fld _ (by
      have : (a - 0x100000) / 0x10000 < 4 := by omega
      revert this; generalize (a - 0x100000) / 0x10000 = k; revert k; decide +kernel)]
  rw [if_neg h9, if_neg h9]
  by_cases h10 : a < 0x160000
  · rw [if_pos h10, if_pos h10]
  rw [if_neg h10, if_neg h10]
  by_cases h11 : a < 0x170000
  · rw [if_neg h10, if_pos h11] at hs
    have h11' : (a - 0x160000) / 0x4000 < 4 := by omega
    have h11'' := of_decide_eq_true hs
    rw [if_pos h11, if_pos h11]
    dsimp only
    rw [State.encState, State.encState, State.flag, State.flag, h.fld _ (by
      revert h11'; generalize (a - 0x160000) / 0x4000 = k; revert k; decide +kernel), h.fld (Reg.ENC_SLOT_CFG_EN _ _)
      (quiet_encSlot _ h11' _ h11'')]
  rw [if_neg h11, if_neg h11]
  rw [if_neg h11] at hb
  by_cases h12 : a < 0x190000
  · rw [if_pos h12] at hb
    rw [if_pos h12, if_pos h12, h.fld _ (by
      have := of_decide_eq_true hb
      revert this; generalize (a - 0x180000) / 0x4000 = k; revert k; decide +kernel)]
  rw [if_neg h12, if_neg h12]
  rw [if_neg h12] at hb
  by_cases h13 : a < 0x1A0000
  · rw [if_pos h13, if_pos h13, h.fld _ (by decide)]
  rw [if_neg h13, if_neg h13]
  by_cases h14 : a < 0x1D0000
  · rw [if_pos h14, if_pos h14]
  rw [if_neg h14, if_neg h14]
  by_cases h15 : a < 0x1D2000
  · rw [if_pos h15, if_pos h15, State.pcxOn, State.pcxOn, h.fld _ (by
      have : (a - 0x1D0000) / 0x1000 < 2 := by omega
      revert this; generalize (a - 0x1D0000) / 0x1000 = k; revert k; decide +kernel)]
  rw [if_neg h15, if_neg h15]
  by_cases h16 : a < 0x1E0000
  · rw [if_neg h10, if_neg h11, if_neg h15, if_pos h16] at hs
    rw [if_pos h16, if_pos h16, State.volState, State.volState, h.fld _ (by
      have := of_decide_eq_true hs
      revert this; generalize (a - 0x1D3000) / 0x100 = k; revert k; decide +kernel)]
  rw [if_neg h16, if_neg h16]
  have hn : ∀ q, q < 2 → t.netOn q = s.netOn q := fun q hq => by
    rw [State.netOn, State.netOn, h.fld _ (by revert hq; revert q; decide +kernel)]
  by_cases h17 : a < 0x1E8000
  · rw [if_pos h17, if_pos h17, hn _ (by omega)]
  rw [if_neg h17, if_neg h17]
  by_cases h18 : a < 0x1F0000
  · rw [if_pos h18, if_pos h18, hn _ (by decide), hn _ (by decide)]
  rw [if_neg h18, if_neg h18]
  have hau : ∀ p, p < 16 → t.audState p = s.audState p := fun q hq => by
    rw [State.audState, State.audState, h.fld _ (by revert hq; revert q; decide +kernel)]
  by_cases h19 : a < 0x1F1000
  · have hg : ∀ p, p < 16 → t.audGen p = s.audGen p := fun q hq => by
      rw [State.audGen, State.audGen, h.fld _ (by revert hq; revert q; decide +kernel)]
    have hp : ∀ g, t.scgPorts g = s.scgPorts g := fun g => by
      rw [State.scgPorts, State.scgPorts]
      exact List.filter_congr fun p hp => by rw [hau p (List.mem_range.mp hp), hg p (List.mem_range.mp hp)]
    rw [if_pos h19, if_pos h19, hp]
  rw [if_neg h19, if_neg h19]
  rw [if_neg h19] at hb
  by_cases h20 : a < 0x1F8000
  · rw [if_pos h20] at hb
    rw [if_pos h20, if_pos h20, hau _ (of_decide_eq_true hb)]
  rw [if_neg h20, if_neg h20]
  rw [if_neg h20] at hb
  by_cases h21 : a < 0x1FC000
  · rw [if_pos h21] at hb
    rw [if_pos h21, if_pos h21, State.twbState, State.twbState, h.fld _ (by
      have := of_decide_eq_true hb
      revert this; generalize (a - 0x1F8000) / 0x200 = k; revert k; decide +kernel)]
  rw [if_neg h21, if_neg h21]
  rw [if_neg h21] at hb
  by_cases h22 : a < 0x1FE000
  · rw [if_pos h22, if_pos h22]
  rw [if_neg h22, if_neg h22]
  dsimp only
  rw [h.fld _ (by
    have := of_decide_eq_true hb
    revert this; generalize (a - 0x1FE000) / 0x40 = k; revert k; decide +kernel)]

theorem wideWords_one (s : State) (a v : Nat) : s.wideWords a v 1 = [(a, v)] := rfl

theorem writeT_nil (s : State) (m : Nat) : (if s.replaying then s else s.writeT m []) = s := by
  split
  · rfl
  · rfl

/-- What the word takes before its action runs. -/
def taken (w : State) (a v : Nat) : State :=
  putFields (w.xLocked a v) a (clampWrite a v) (fieldsAt a)
    (if w.xLocked a v && w.changesX a v (fieldsAt a) then (dropHeld a 1 w).xReject a else dropHeld a 1 w)

theorem writeValue_one {w : State} {m a v : Nat} {env : WriteEnv} (h6 : tWrites [(a, clampWrite a v)] = [])
    (h7 : onlyX (fieldsAt a) = false) : w.writeValue m a v 1 env = action w m a v env (taken w a v) := by
  unfold State.writeValue taken
  simp only [wideWords_one, h6, h7, Bool.and_false, Bool.false_eq_true, if_false, writeT_nil, List.foldl_cons, List.foldl_nil]

/-- A W1C bit after a write of its word. -/
theorem putField_w1c {a v : Nat} {s : State} {f : FieldDesc} (hc : f.acc = .w1c) (hs : f.cls = .s) (h1 : f.hi = f.lo) (hw : f.hi < 32) (lock : Bool) :
    (putField lock a v s f).fld ⟨a, f.hi, f.lo⟩ =
      if bits v f.hi f.lo = 1 ∧ bits (s.evSet.get (fun _ => 0) a).toNat f.hi f.lo = 0 then 0 else s.fld ⟨a, f.hi, f.lo⟩ := by
  unfold putField
  dsimp only
  rw [if_neg (by rw [hs]; simp), hc]
  dsimp only
  rw [State.fld_setFld_same _ ⟨a, f.hi, f.lo⟩ _ (by rw [h1]) hw]
  have b1 : bits v f.hi f.lo < 2 := by have := bits_lt v f.hi f.lo; rw [h1] at this ⊢; simpa using this
  have b2 : bits (s.evSet.get (fun _ => 0) a).toNat f.hi f.lo < 2 := by
    have := bits_lt (s.evSet.get (fun _ => 0) a).toNat f.hi f.lo; rw [h1] at this ⊢; simpa using this
  have b3 : s.fld ⟨a, f.hi, f.lo⟩ < 2 := by have := bits_lt (s.word a).toNat f.hi f.lo; rw [State.fld]; rw [h1] at this ⊢; simpa using this
  have e : f.hi + 1 - f.lo = 1 := by omega
  simp only [e]
  generalize bits v f.hi f.lo = x at *
  generalize bits (s.evSet.get (fun _ => 0) a).toNat f.hi f.lo = y at *
  generalize s.fld ⟨a, f.hi, f.lo⟩ = z at *
  interval_cases x <;> interval_cases y <;> interval_cases z <;> rfl

theorem putField_evSet {a v : Nat} {s : State} {f : FieldDesc} (lock : Bool) : (putField lock a v s f).evSet = s.evSet := by
  unfold putField
  dsimp only
  split
  · rfl
  · split <;> first | rfl | (split <;> rfl)

theorem putFields_w1c {a v : Nat} {g : FieldDesc} (hc : g.acc = .w1c) (hs : g.cls = .s) (h1 : g.hi = g.lo) (lock : Bool) :
    (fs : List FieldDesc) → allApart fs = true → g ∈ fs → (s : State) →
    (putFields lock a v fs s).fld ⟨a, g.hi, g.lo⟩ =
      if bits v g.hi g.lo = 1 ∧ bits (s.evSet.get (fun _ => 0) a).toNat g.hi g.lo = 0 then 0 else s.fld ⟨a, g.hi, g.lo⟩
  | f :: fs, ha, hm, s => by
    simp only [allApart, Bool.and_eq_true, List.all_eq_true, decide_eq_true_eq] at ha
    rcases List.mem_cons.mp hm with rfl | hm
    · refine (putFields_apart ha.1.1.2 fs (fun x hx => (ha.1.1.1 x hx).1.2) _).trans ?_
      exact putField_w1c hc hs h1 ha.1.1.2 lock
    · have h2 := putFields_w1c (a := a) (v := v) hc hs h1 lock fs ha.2 hm (putField lock a v s f)
      rw [putField_evSet, putField_apart (ha.1.1.1 g hm).1.1 (ha.1.1.1 g hm).2] at h2
      exact h2


theorem writeRec_evSet {s : State} (a : Nat) (hn : a ≠ 0x50044) (m b v sub : Nat) :
    (s.writeRec m b v sub).evSet.get (fun _ => 0) a = s.evSet.get (fun _ => 0) a := by
  have e : ∀ {u w : State}, w.evSet = u.evSet → w.evSet.get (fun _ => 0) a = u.evSet.get (fun _ => 0) a := fun h => by rw [h]
  unfold State.writeRec
  split
  · unfold State.logRec
    dsimp only
    split
    · split
      · unfold State.loseRecord State.raise
        refine (e ((keeps_unitEvent (L := 17160) _ _ Keeps.refl rfl).same .evSet rfl)).trans ?_
        exact SMap.get_set_other (d := fun _ => 0) _ hn
      · split
        · refine (e rfl).trans ((e ((keeps_continueSegment (L := 131072) Keeps.refl rfl).same .evSet rfl)).trans rfl)
        · rfl
    · rfl
  · rfl

theorem changesX_word {s t : State} {a v : Nat} (h : t.word a = s.word a) (fs : List FieldDesc) :
    t.changesX a v fs = s.changesX a v fs := by
  unfold State.changesX
  congr 1
  funext f
  rw [State.fld, State.fld, h]

theorem wrote_taken {s w : State} {a v : Nat} (hw : Aside s w) (hc' : Calm s w)
    (he : ∀ b, b ≠ 0x50044 → w.evSet.get (fun _ => 0) b = s.evSet.get (fun _ => 0) b) (hx : w.xLocked a v = s.xLocked a v) (hb : inBlock a = true)
    (ha : allApart (fieldsAt a) = true) (hT : ∀ g ∈ fieldsAt a, g.cls ≠ .t) : Wrote a v s (taken w a v) := by
  unfold taken
  have hd : Aside s (dropHeld a 1 w) := hw.trans (clear_held _ _)
  have hr : Aside s (if w.xLocked a v && w.changesX a v (fieldsAt a) then (dropHeld a 1 w).xReject a else dropHeld a 1 w) := by
    split
    · exact hd.trans (aside_xReject hb)
    · exact hd
  generalize htw : (if w.xLocked a v && w.changesX a v (fieldsAt a) then (dropHeld a 1 w).xReject a else dropHeld a 1 w) = t at hr
  rw [hx]
  refine ⟨hr.keeps.trans (keeps_putFields _ _ _ _ Keeps.refl rfl), fun x hq hxa => (putFields_other hxa _ _).trans (hr.word x hq),
    fun k => ?_, fun hn => ?_, fun g hg hw hc => ?_, fun g hg hw hl => ?_, fun ha x hxc hxa hr => ?_, fun hnx hca hn g hg hc hs h1 => ?_, fun hq g hg hc hl => ?_⟩
  · have := (keeps_putFields (L := 8) (s.xLocked a v) a (clampWrite a v) (fieldsAt a) (Keeps.refl (s := t)) rfl).same .pilots rfl
    rw [State.pilot, this]; exact hr.pilot k
  · rw [State.fld, putFields_other (x := Reg.LOG_STATUS_STATE.addr) (Ne.symm hn)]; exact hr.logState
  · exact putFields_rw (hT g hg) (fun e => absurd e hc) hw _ ha hg _
  · exact putFields_rw (hT g hg) (fun _ => hl) hw _ ha hg _
  · rw [putFields_other hxa]
    refine Eq.trans ?_ (hc' x hxc)
    rw [← htw]
    rw [hx, changesX_word (hc' a ha)]
    cases hl : s.xLocked a v <;> cases hch : s.changesX a v (fieldsAt a) <;>
      simp only [Bool.and_false, Bool.and_true, Bool.false_eq_true, if_false, if_true]
    · rfl
    · rfl
    · rfl
    · exact calm_xReject hxc hb (hr hl hch)
  · refine (putFields_w1c hc hs h1 _ _ ha hg _).trans ?_
    have hch : w.changesX a v (fieldsAt a) = false := by
      unfold State.changesX
      rw [List.any_eq_false]
      intro f hf
      have := List.all_eq_true.mp hnx f hf
      simp only [decide_eq_true_eq] at this
      simp only [this, decide_false, Bool.false_and, Bool.false_eq_true, not_false_eq_true]
    rw [hch, Bool.and_false] at htw
    have e1 : (dropHeld a 1 w) = t := by simpa using htw
    rw [← e1]
    have e2 : (dropHeld a 1 w).fld ⟨a, g.hi, g.lo⟩ = s.fld ⟨a, g.hi, g.lo⟩ := State.fld_of_word (hc' a hca)
    have e3 : (dropHeld a 1 w).evSet.get (fun _ => 0) a = s.evSet.get (fun _ => 0) a := he a hn
    rw [e2, e3]
  · rw [hl]
    refine (putFields_locked hc (allApart_hi ha hg) _ (fun f hf => allApart_apart ha hf hg) _).trans ?_
    rw [State.fld, State.fld, hr.word a hq]

/-- A permitted write of a register of one word without class-T fields: the word takes it, then its action runs. -/
theorem write_one {s : State} {m a v : Nat} {env : WriteEnv} (hr : plainReg a = true) (hm : s.mayWrite m a env = true)
    (hi : s.ignored a = false) :
    ∃ s₁ u, Aside s s₁ ∧ Wrote a v s u ∧ s.controlWrite m a 15 v env = action s₁ m a v env u := by
  simp only [plainReg, Bool.and_eq_true, Bool.not_eq_true', decide_eq_true_eq, decide_eq_false_iff_not] at hr
  obtain ⟨⟨⟨⟨⟨⟨⟨⟨⟨⟨h1, h2⟩, h3⟩, h4⟩, h5⟩, h6⟩, h7⟩, h8⟩, h9⟩, h9'⟩, h10⟩ := hr
  have hw : Aside s (s.writeRec m a v 0) := aside_writeRec _ _ _ _
  have hx : (s.writeRec m a v 0).xLocked a v = s.xLocked a v := xLocked_aside hw a v h9 h9'
  have hi' : (s.writeRec m a v 0).ignored a = false := by
    have := hw.keeps.same .fab rfl
    rw [State.ignored, this]; exact hi
  have ht : (s.writeRec m a v 0).secondTarget a v = false := by
    unfold State.secondTarget
    rw [decide_eq_false (fun h => h8 ⟨h.1, h.2.1, h.2.2.1⟩)]; rfl
  refine ⟨s.writeRec m a v 0, taken (s.writeRec m a v 0) a v, hw, wrote_taken hw (calm_writeRec _ _ _ _) (fun b hb => writeRec_evSet b hb _ _ _ _) hx h9 h10 (fun g hg => by simpa using List.all_eq_true.mp h6 g hg), ?_⟩
  rw [← writeValue_one (tWrites_nil h6) h7]
  unfold State.controlWrite
  rw [if_neg (by omega), if_pos hm]
  unfold State.performWrite
  simp only [h4, hi', ht, h5, if_neg h3, Bool.not_true, Bool.or_false, Bool.false_eq_true, if_false, ne_eq, not_true_eq_false]

/-- A register of one word of class-X fields alone. -/
def lockReg (a : Nat) : Bool :=
  decide (a % 4 = 0) && decide (a < 0x4000000) && !decide (0x68000 ≤ a ∧ a < 0x69000) && (fieldsAt a).any isWritable &&
    decide (wideOf a = (0, 1)) && onlyX (fieldsAt a) && !decide (0x1F8000 ≤ a ∧ a < 0x1F9000 ∧ a % 0x200 = 4) && inBlock a && inSlot a

/-- A permitted write of such a register while its block runs: rejected whole (R12, R68). -/
theorem write_locked {s : State} {m a v : Nat} {env : WriteEnv} (hr : lockReg a = true) (hm : s.mayWrite m a env = true)
    (hi : s.ignored a = false) (hl : s.xLocked a v = true) :
    s.controlWrite m a 15 v env = (dropHeld a 1 (s.writeRec m a v 0)).xReject a := by
  simp only [lockReg, Bool.and_eq_true, Bool.not_eq_true', decide_eq_true_eq, decide_eq_false_iff_not] at hr
  obtain ⟨⟨⟨⟨⟨⟨⟨⟨h1, h2⟩, h3⟩, h4⟩, h5⟩, h6⟩, h7⟩, h8⟩, h9⟩ := hr
  have hw : Aside s (s.writeRec m a v 0) := aside_writeRec _ _ _ _
  have hx : (s.writeRec m a v 0).xLocked a v = true := (xLocked_aside hw a v h8 h9).trans hl
  have hi' : (s.writeRec m a v 0).ignored a = false := by
    have := hw.keeps.same .fab rfl
    rw [State.ignored, this]; exact hi
  have ht : (s.writeRec m a v 0).secondTarget a v = false := by
    unfold State.secondTarget
    rw [decide_eq_false (fun h => h7 ⟨h.1, h.2.1, h.2.2.1⟩)]; rfl
  unfold State.controlWrite
  rw [if_neg (by omega), if_pos hm]
  unfold State.performWrite
  simp only [h4, hi', ht, h5, if_neg h3, Bool.not_true, Bool.or_false, Bool.false_eq_true, if_false, ne_eq, not_true_eq_false]
  unfold State.writeValue
  simp only [hx, h6, Bool.and_self, if_true]

end Sys2Proof.Machine
end

