-- ==== Sys2Proof/Laws/Actions.lean ====
section
/-! SUPPORT. One lemma per register command: a permitted write takes its word and then is the operation of its register. -/

namespace Sys2Proof.Machine

open State

section

set_option Elab.async false
set_option linter.unusedSimpArgs false
set_option linter.unusedTactic false
set_option linter.unreachableTactic false

theorem bit_eq (n i : Nat) : bit n i = decide (n / 2 ^ i % 2 = 1) := by
  rw [bit, Nat.testBit_eq_decide_div_mod_eq]

theorem write_berthAllocate {s : State} (m : Fin 32) (h : BitVec 16) (hm : s.mayWrite m (0x60100) .plain = true) (hc : s.fab.cmd = none) :
    ∃ w u, Aside s w ∧ Wrote (0x60100) (1 <<< 16 + h.toNat) s u ∧ execBerthAllocate m h s = .next (u.berthCmd m 1 h.toNat) := by
  have l_h := h.isLt
  obtain ⟨w, u, hw, hu, e⟩ := write_one (v := (1 <<< 16 + h.toNat)) (by decide +kernel) hm (by unfold State.ignored; rw [hc]; rfl)
  refine ⟨w, u, hw, hu, ?_⟩
  unfold execBerthAllocate State.wordWrite
  rw [e]
  have f0 : bits ((1 <<< 16 + h.toNat)) 19 16 = 1 := by
    simp only [bits, Nat.shiftLeft_eq, Nat.shiftRight_eq_div_pow, Nat.reduceAdd, Nat.reduceSub, Nat.reducePow, Nat.reduceMul]; omega
  have f1 : bits ((1 <<< 16 + h.toNat)) 15 0 = h.toNat := by
    simp only [bits, Nat.shiftLeft_eq, Nat.shiftRight_eq_div_pow, Nat.reduceAdd, Nat.reduceSub, Nat.reducePow, Nat.reduceMul]; omega
  clear hm e hu hw
  generalize ((1 <<< 16 + h.toNat)) = v_ at *
  obtain ⟨a, ha⟩ : ∃ a, a = 0x60100 := ⟨_, rfl⟩
  rw [← ha]
  have hn : ctrlUnit a = none := by rw [ha]; decide +kernel
  unfold action
  rw [hn]
  dsimp only
  simp (disch := omega) only [if_neg, if_pos]
  unfold fabAction
  try dsimp only
  try simp (disch := omega) only [if_neg, if_pos, f0, f1, if_true]
  all_goals first | done | (congr 2 <;> omega) | (congr 3 <;> omega) | (congr 4 <;> omega) | (congr 5 <;> omega) | (congr 6 <;> omega)

theorem write_berthFree {s : State} (m : Fin 32) (h : BitVec 16) (hm : s.mayWrite m (0x60100) .plain = true) (hc : s.fab.cmd = none) :
    ∃ w u, Aside s w ∧ Wrote (0x60100) (2 <<< 16 + h.toNat) s u ∧ execBerthFree m h s = .next (u.berthCmd m 2 h.toNat) := by
  have l_h := h.isLt
  obtain ⟨w, u, hw, hu, e⟩ := write_one (v := (2 <<< 16 + h.toNat)) (by decide +kernel) hm (by unfold State.ignored; rw [hc]; rfl)
  refine ⟨w, u, hw, hu, ?_⟩
  unfold execBerthFree State.wordWrite
  rw [e]
  have f0 : bits ((2 <<< 16 + h.toNat)) 19 16 = 2 := by
    simp only [bits, Nat.shiftLeft_eq, Nat.shiftRight_eq_div_pow, Nat.reduceAdd, Nat.reduceSub, Nat.reducePow, Nat.reduceMul]; omega
  have f1 : bits ((2 <<< 16 + h.toNat)) 15 0 = h.toNat := by
    simp only [bits, Nat.shiftLeft_eq, Nat.shiftRight_eq_div_pow, Nat.reduceAdd, Nat.reduceSub, Nat.reducePow, Nat.reduceMul]; omega
  clear hm e hu hw
  generalize ((2 <<< 16 + h.toNat)) = v_ at *
  obtain ⟨a, ha⟩ : ∃ a, a = 0x60100 := ⟨_, rfl⟩
  rw [← ha]
  have hn : ctrlUnit a = none := by rw [ha]; decide +kernel
  unfold action
  rw [hn]
  dsimp only
  simp (disch := omega) only [if_neg, if_pos]
  unfold fabAction
  try dsimp only
  try simp (disch := omega) only [if_neg, if_pos, f0, f1, if_true]
  all_goals first | done | (congr 2 <;> omega) | (congr 3 <;> omega) | (congr 4 <;> omega) | (congr 5 <;> omega) | (congr 6 <;> omega)

theorem write_berthQuery {s : State} (m : Fin 32) (h : BitVec 16) (hm : s.mayWrite m (0x60100) .plain = true) (hc : s.fab.cmd = none) :
    ∃ w u, Aside s w ∧ Wrote (0x60100) (3 <<< 16 + h.toNat) s u ∧ execBerthQuery m h s = .next (u.berthCmd m 3 h.toNat) := by
  have l_h := h.isLt
  obtain ⟨w, u, hw, hu, e⟩ := write_one (v := (3 <<< 16 + h.toNat)) (by decide +kernel) hm (by unfold State.ignored; rw [hc]; rfl)
  refine ⟨w, u, hw, hu, ?_⟩
  unfold execBerthQuery State.wordWrite
  rw [e]
  have f0 : bits ((3 <<< 16 + h.toNat)) 19 16 = 3 := by
    simp only [bits, Nat.shiftLeft_eq, Nat.shiftRight_eq_div_pow, Nat.reduceAdd, Nat.reduceSub, Nat.reducePow, Nat.reduceMul]; omega
  have f1 : bits ((3 <<< 16 + h.toNat)) 15 0 = h.toNat := by
    simp only [bits, Nat.shiftLeft_eq, Nat.shiftRight_eq_div_pow, Nat.reduceAdd, Nat.reduceSub, Nat.reducePow, Nat.reduceMul]; omega
  clear hm e hu hw
  generalize ((3 <<< 16 + h.toNat)) = v_ at *
  obtain ⟨a, ha⟩ : ∃ a, a = 0x60100 := ⟨_, rfl⟩
  rw [← ha]
  have hn : ctrlUnit a = none := by rw [ha]; decide +kernel
  unfold action
  rw [hn]
  dsimp only
  simp (disch := omega) only [if_neg, if_pos]
  unfold fabAction
  try dsimp only
  try simp (disch := omega) only [if_neg, if_pos, f0, f1, if_true]
  all_goals first | done | (congr 2 <;> omega) | (congr 3 <;> omega) | (congr 4 <;> omega) | (congr 5 <;> omega) | (congr 6 <;> omega)

theorem write_apHandleWrite {s : State} (m : Fin 32) (h : BitVec 16) (hm : s.mayWrite m (0x60200) .plain = true) :
    ∃ w u, Aside s w ∧ Wrote (0x60200) h.toNat s u ∧ execApHandleWrite m h s = .next (u.apHandle (w.fld Reg.FAB_AP_HANDLE_HANDLE) h.toNat) := by
  have l_h := h.isLt
  obtain ⟨w, u, hw, hu, e⟩ := write_one (v := h.toNat) (by decide +kernel) hm (by unfold State.ignored; rw [decide_eq_false (by omega)]; rfl)
  refine ⟨w, u, hw, hu, ?_⟩
  unfold execApHandleWrite State.wordWrite
  rw [e]
  have f0 : bits (h.toNat) 15 0 = h.toNat := by
    simp only [bits, Nat.shiftLeft_eq, Nat.shiftRight_eq_div_pow, Nat.reduceAdd, Nat.reduceSub, Nat.reducePow, Nat.reduceMul]; omega
  clear hm e hu hw
  obtain ⟨a, ha⟩ : ∃ a, a = 0x60200 := ⟨_, rfl⟩
  rw [← ha]
  have hn : ctrlUnit a = none := by rw [ha]; decide +kernel
  unfold action
  rw [hn]
  dsimp only
  simp (disch := omega) only [if_neg, if_pos]
  unfold fabAction
  try dsimp only
  try simp (disch := omega) only [if_neg, if_pos, f0, if_true]
  all_goals first | done | (congr 2 <;> omega) | (congr 3 <;> omega) | (congr 4 <;> omega) | (congr 5 <;> omega) | (congr 6 <;> omega)

theorem write_claim {s : State} (m : Fin 32) (session : BitVec 8) (hm : s.mayWrite m (0x104) .plain = true) :
    ∃ w u, Aside s w ∧ Wrote (0x104) (1 <<< 28 + session.toNat) s u ∧ execClaim m session s = .next (u.claim m session.toNat) := by
  have l_session := session.isLt
  obtain ⟨w, u, hw, hu, e⟩ := write_one (v := (1 <<< 28 + session.toNat)) (by decide +kernel) hm (by unfold State.ignored; rw [decide_eq_false (by omega)]; rfl)
  refine ⟨w, u, hw, hu, ?_⟩
  unfold execClaim State.wordWrite
  rw [e]
  have f0 : bits ((1 <<< 28 + session.toNat)) 31 28 = 1 := by
    simp only [bits, Nat.shiftLeft_eq, Nat.shiftRight_eq_div_pow, Nat.reduceAdd, Nat.reduceSub, Nat.reducePow, Nat.reduceMul]; omega
  have f1 : bits ((1 <<< 28 + session.toNat)) 7 0 = session.toNat := by
    simp only [bits, Nat.shiftLeft_eq, Nat.shiftRight_eq_div_pow, Nat.reduceAdd, Nat.reduceSub, Nat.reducePow, Nat.reduceMul]; omega
  clear hm e hu hw
  generalize ((1 <<< 28 + session.toNat)) = v_ at *
  obtain ⟨a, ha⟩ : ∃ a, a = 0x104 := ⟨_, rfl⟩
  rw [← ha]
  have hn : ctrlUnit a = none := by rw [ha]; decide +kernel
  unfold action
  rw [hn]
  dsimp only
  simp (disch := omega) only [if_neg, if_pos]
  unfold ownReq
  try dsimp only
  try simp (disch := omega) only [if_neg, if_pos, f0, f1, if_true]
  all_goals first | done | (congr 2 <;> omega) | (congr 3 <;> omega) | (congr 4 <;> omega) | (congr 5 <;> omega) | (congr 6 <;> omega)

theorem write_ownRelease {s : State} (m : Fin 32) (hm : s.mayWrite m (0x104) .plain = true) :
    ∃ w u, Aside s w ∧ Wrote (0x104) (2 <<< 28) s u ∧ execOwnRelease m s = .next (u.ownRelease m) := by
  obtain ⟨w, u, hw, hu, e⟩ := write_one (v := (2 <<< 28)) (by decide +kernel) hm (by unfold State.ignored; rw [decide_eq_false (by omega)]; rfl)
  refine ⟨w, u, hw, hu, ?_⟩
  unfold execOwnRelease State.wordWrite
  rw [e]
  have f0 : bits ((2 <<< 28)) 31 28 = 2 := by
    rfl
  clear hm e hu hw
  generalize ((2 <<< 28)) = v_ at *
  obtain ⟨a, ha⟩ : ∃ a, a = 0x104 := ⟨_, rfl⟩
  rw [← ha]
  have hn : ctrlUnit a = none := by rw [ha]; decide +kernel
  unfold action
  rw [hn]
  dsimp only
  simp (disch := omega) only [if_neg, if_pos]
  unfold ownReq
  try dsimp only
  try simp (disch := omega) only [if_neg, if_pos, f0, if_true]
  all_goals first | done | (congr 2 <;> omega) | (congr 3 <;> omega) | (congr 4 <;> omega) | (congr 5 <;> omega) | (congr 6 <;> omega)

theorem write_heartbeat {s : State} (m : Fin 32) (hm : s.mayWrite m (0x104) .plain = true) :
    ∃ w u, Aside s w ∧ Wrote (0x104) (3 <<< 28) s u ∧ execHeartbeat m s = .next (u.heartbeat m) := by
  obtain ⟨w, u, hw, hu, e⟩ := write_one (v := (3 <<< 28)) (by decide +kernel) hm (by unfold State.ignored; rw [decide_eq_false (by omega)]; rfl)
  refine ⟨w, u, hw, hu, ?_⟩
  unfold execHeartbeat State.wordWrite
  rw [e]
  have f0 : bits ((3 <<< 28)) 31 28 = 3 := by
    rfl
  clear hm e hu hw
  generalize ((3 <<< 28)) = v_ at *
  obtain ⟨a, ha⟩ : ∃ a, a = 0x104 := ⟨_, rfl⟩
  rw [← ha]
  have hn : ctrlUnit a = none := by rw [ha]; decide +kernel
  unfold action
  rw [hn]
  dsimp only
  simp (disch := omega) only [if_neg, if_pos]
  unfold ownReq
  try dsimp only
  try simp (disch := omega) only [if_neg, if_pos, f0, if_true]
  all_goals first | done | (congr 2 <;> omega) | (congr 3 <;> omega) | (congr 4 <;> omega) | (congr 5 <;> omega) | (congr 6 <;> omega)

theorem write_handover {s : State} (m : Fin 32) (target : Fin 32) (hm : s.mayWrite m (0x104) .plain = true) :
    ∃ w u, Aside s w ∧ Wrote (0x104) (4 <<< 28 + target.val <<< 8) s u ∧ execHandover m target s = .next (u.handover m target.val) := by
  have l_target := target.isLt
  obtain ⟨w, u, hw, hu, e⟩ := write_one (v := (4 <<< 28 + target.val <<< 8)) (by decide +kernel) hm (by unfold State.ignored; rw [decide_eq_false (by omega)]; rfl)
  refine ⟨w, u, hw, hu, ?_⟩
  unfold execHandover State.wordWrite
  rw [e]
  have f0 : bits ((4 <<< 28 + target.val <<< 8)) 31 28 = 4 := by
    simp only [bits, Nat.shiftLeft_eq, Nat.shiftRight_eq_div_pow, Nat.reduceAdd, Nat.reduceSub, Nat.reducePow, Nat.reduceMul]; omega
  have f1 : bits ((4 <<< 28 + target.val <<< 8)) 12 8 = target.val := by
    simp only [bits, Nat.shiftLeft_eq, Nat.shiftRight_eq_div_pow, Nat.reduceAdd, Nat.reduceSub, Nat.reducePow, Nat.reduceMul]; omega
  clear hm e hu hw
  generalize ((4 <<< 28 + target.val <<< 8)) = v_ at *
  obtain ⟨a, ha⟩ : ∃ a, a = 0x104 := ⟨_, rfl⟩
  rw [← ha]
  have hn : ctrlUnit a = none := by rw [ha]; decide +kernel
  unfold action
  rw [hn]
  dsimp only
  simp (disch := omega) only [if_neg, if_pos]
  unfold ownReq
  try dsimp only
  try simp (disch := omega) only [if_neg, if_pos, f0, f1, if_true]
  all_goals first | done | (congr 2 <;> omega) | (congr 3 <;> omega) | (congr 4 <;> omega) | (congr 5 <;> omega) | (congr 6 <;> omega)

theorem write_txnBegin {s : State} (m : Fin 32) (hm : s.mayWrite m (0x200) .plain = true) :
    ∃ w u, Aside s w ∧ Wrote (0x200) (1 <<< 28) s u ∧ execTxnBegin m s = .next (txnShow (u.txnBegin m)) := by
  obtain ⟨w, u, hw, hu, e⟩ := write_one (v := (1 <<< 28)) (by decide +kernel) hm (by unfold State.ignored; rw [decide_eq_false (by omega)]; rfl)
  refine ⟨w, u, hw, hu, ?_⟩
  unfold execTxnBegin State.wordWrite
  rw [e]
  have f0 : bits ((1 <<< 28)) 31 28 = 1 := by
    rfl
  clear hm e hu hw
  generalize ((1 <<< 28)) = v_ at *
  obtain ⟨a, ha⟩ : ∃ a, a = 0x200 := ⟨_, rfl⟩
  rw [← ha]
  have hn : ctrlUnit a = none := by rw [ha]; decide +kernel
  unfold action
  rw [hn]
  dsimp only
  simp (disch := omega) only [if_neg, if_pos]
  unfold txnReq
  try dsimp only
  try simp (disch := omega) only [if_neg, if_pos, f0, if_true]
  all_goals first | done | (congr 2 <;> omega) | (congr 3 <;> omega) | (congr 4 <;> omega) | (congr 5 <;> omega) | (congr 6 <;> omega)

theorem write_txnCommit {s : State} (m : Fin 32) (orLater next : Bool) (hm : s.mayWrite m (0x200) .plain = true) :
    ∃ w u, Aside s w ∧ Wrote (0x200) (2 <<< 28 + 2 * b01 orLater + b01 next) s u ∧ execTxnCommit m orLater next s = .next ((let r := u.commit m (u.fld2 Reg.SYS_TXN_TARGET_LO_TIDE_LO Reg.SYS_TXN_TARGET_HI_TIDE_HI) next orLater
        txnShow (r.1, r.2.1))) := by
  obtain ⟨w, u, hw, hu, e⟩ := write_one (v := (2 <<< 28 + 2 * b01 orLater + b01 next)) (by decide +kernel) hm (by unfold State.ignored; rw [decide_eq_false (by omega)]; rfl)
  refine ⟨w, u, hw, hu, ?_⟩
  unfold execTxnCommit State.wordWrite
  rw [e]
  have f0 : bits ((2 <<< 28 + 2 * b01 orLater + b01 next)) 31 28 = 2 := by
    cases next <;> cases orLater <;> rfl
  have g0 : bit (2 <<< 28 + 2 * b01 orLater + b01 next) 0 = next := by cases next <;> cases orLater <;> rfl
  have g1 : bit (2 <<< 28 + 2 * b01 orLater + b01 next) 1 = orLater := by cases next <;> cases orLater <;> rfl
  clear hm e hu hw
  generalize ((2 <<< 28 + 2 * b01 orLater + b01 next)) = v_ at *
  obtain ⟨a, ha⟩ : ∃ a, a = 0x200 := ⟨_, rfl⟩
  rw [← ha]
  have hn : ctrlUnit a = none := by rw [ha]; decide +kernel
  unfold action
  rw [hn]
  dsimp only
  simp (disch := omega) only [if_neg, if_pos]
  unfold txnReq
  try dsimp only
  try simp (disch := omega) only [if_neg, if_pos, f0, g0, g1, if_true]
  all_goals first | done | (congr 2 <;> omega) | (congr 3 <;> omega) | (congr 4 <;> omega) | (congr 5 <;> omega) | (congr 6 <;> omega)

theorem write_txnRollback {s : State} (m : Fin 32) (hm : s.mayWrite m (0x200) .plain = true) :
    ∃ w u, Aside s w ∧ Wrote (0x200) (3 <<< 28) s u ∧ execTxnRollback m s = .next (txnShow (u.txnRollback m)) := by
  obtain ⟨w, u, hw, hu, e⟩ := write_one (v := (3 <<< 28)) (by decide +kernel) hm (by unfold State.ignored; rw [decide_eq_false (by omega)]; rfl)
  refine ⟨w, u, hw, hu, ?_⟩
  unfold execTxnRollback State.wordWrite
  rw [e]
  have f0 : bits ((3 <<< 28)) 31 28 = 3 := by
    rfl
  clear hm e hu hw
  generalize ((3 <<< 28)) = v_ at *
  obtain ⟨a, ha⟩ : ∃ a, a = 0x200 := ⟨_, rfl⟩
  rw [← ha]
  have hn : ctrlUnit a = none := by rw [ha]; decide +kernel
  unfold action
  rw [hn]
  dsimp only
  simp (disch := omega) only [if_neg, if_pos]
  unfold txnReq
  try dsimp only
  try simp (disch := omega) only [if_neg, if_pos, f0, if_true]
  all_goals first | done | (congr 2 <;> omega) | (congr 3 <;> omega) | (congr 4 <;> omega) | (congr 5 <;> omega) | (congr 6 <;> omega)

theorem write_opWithdraw {s : State} (m : Fin 32) (hm : s.mayWrite m (0x200) .plain = true) :
    ∃ w u, Aside s w ∧ Wrote (0x200) (4 <<< 28) s u ∧ execOpWithdraw m s = .next (txnShow (u.withdraw m (u.fld Reg.SYS_TXN_TICKET_TICKET))) := by
  obtain ⟨w, u, hw, hu, e⟩ := write_one (v := (4 <<< 28)) (by decide +kernel) hm (by unfold State.ignored; rw [decide_eq_false (by omega)]; rfl)
  refine ⟨w, u, hw, hu, ?_⟩
  unfold execOpWithdraw State.wordWrite
  rw [e]
  have f0 : bits ((4 <<< 28)) 31 28 = 4 := by
    rfl
  clear hm e hu hw
  generalize ((4 <<< 28)) = v_ at *
  obtain ⟨a, ha⟩ : ∃ a, a = 0x200 := ⟨_, rfl⟩
  rw [← ha]
  have hn : ctrlUnit a = none := by rw [ha]; decide +kernel
  unfold action
  rw [hn]
  dsimp only
  simp (disch := omega) only [if_neg, if_pos]
  unfold txnReq
  try dsimp only
  try simp (disch := omega) only [if_neg, if_pos, f0, if_true]
  all_goals first | done | (congr 2 <;> omega) | (congr 3 <;> omega) | (congr 4 <;> omega) | (congr 5 <;> omega) | (congr 6 <;> omega)

theorem plain_pilotStart : ∀ (k : Fin 16), plainReg (0x30000 + 0x1000 * k.val) = true := by decide +kernel

theorem ctrl_pilotStart : ∀ (k : Fin 16), ctrlUnit (0x30000 + 0x1000 * k.val) = some (24 + k.val, 0) := by decide +kernel

theorem write_pilotStart {s : State} (m : Fin 32) (k : Fin 16) (hm : s.mayWrite m (0x30000 + 0x1000 * k.val) .plain = true) :
    ∃ w u, Aside s w ∧ Wrote (0x30000 + 0x1000 * k.val) (1 <<< 28) s u ∧ execPilotStart m k s = .next (u.ctrlAction (24 + k.val) 0 (0x30000 + 0x1000 * k.val) (1 <<< 28)) := by
  have l_k := k.isLt
  obtain ⟨w, u, hw, hu, e⟩ := write_one (v := (1 <<< 28)) (plain_pilotStart k) hm (by unfold State.ignored; rw [decide_eq_false (by omega)]; rfl)
  refine ⟨w, u, hw, hu, ?_⟩
  unfold execPilotStart State.wordWrite
  rw [e]
  unfold action
  rw [ctrl_pilotStart]

theorem write_pilotStop {s : State} (m : Fin 32) (k : Fin 16) (hm : s.mayWrite m (0x30000 + 0x1000 * k.val) .plain = true) :
    ∃ w u, Aside s w ∧ Wrote (0x30000 + 0x1000 * k.val) (2 <<< 28) s u ∧ execPilotStop m k s = .next (u.ctrlAction (24 + k.val) 0 (0x30000 + 0x1000 * k.val) (2 <<< 28)) := by
  have l_k := k.isLt
  obtain ⟨w, u, hw, hu, e⟩ := write_one (v := (2 <<< 28)) (plain_pilotStart k) hm (by unfold State.ignored; rw [decide_eq_false (by omega)]; rfl)
  refine ⟨w, u, hw, hu, ?_⟩
  unfold execPilotStop State.wordWrite
  rw [e]
  unfold action
  rw [ctrl_pilotStart]

theorem write_pilotReset {s : State} (m : Fin 32) (k : Fin 16) (hm : s.mayWrite m (0x30000 + 0x1000 * k.val) .plain = true) :
    ∃ w u, Aside s w ∧ Wrote (0x30000 + 0x1000 * k.val) (3 <<< 28) s u ∧ execPilotReset m k s = .next (u.ctrlAction (24 + k.val) 0 (0x30000 + 0x1000 * k.val) (3 <<< 28)) := by
  have l_k := k.isLt
  obtain ⟨w, u, hw, hu, e⟩ := write_one (v := (3 <<< 28)) (plain_pilotStart k) hm (by unfold State.ignored; rw [decide_eq_false (by omega)]; rfl)
  refine ⟨w, u, hw, hu, ?_⟩
  unfold execPilotReset State.wordWrite
  rw [e]
  unfold action
  rw [ctrl_pilotStart]

theorem plain_pilotLoad : ∀ (k : Fin 16), plainReg (0x30008 + 0x1000 * k.val) = true := by decide +kernel

theorem write_pilotLoad {s : State} (m : Fin 32) (k : Fin 16) (h : BitVec 16) (hm : s.mayWrite m (0x30008 + 0x1000 * k.val) .plain = true) :
    ∃ w u, Aside s w ∧ Wrote (0x30008 + 0x1000 * k.val) h.toNat s u ∧ execPilotLoad m k h s = .next (u.pilotLoad k.val h.toNat) := by
  have l_k := k.isLt
  have l_h := h.isLt
  obtain ⟨w, u, hw, hu, e⟩ := write_one (v := h.toNat) (plain_pilotLoad k) hm (by unfold State.ignored; rw [decide_eq_false (by omega)]; rfl)
  refine ⟨w, u, hw, hu, ?_⟩
  unfold execPilotLoad State.wordWrite
  rw [e]
  have f0 : bits (h.toNat) 15 0 = h.toNat := by
    simp only [bits, Nat.shiftLeft_eq, Nat.shiftRight_eq_div_pow, Nat.reduceAdd, Nat.reduceSub, Nat.reducePow, Nat.reduceMul]; omega
  clear hm e hu hw
  generalize ha : 0x30008 + 0x1000 * k.val = a
  have hn : ctrlUnit a = none := by
    unfold ctrlUnit
    simp (disch := omega) only [if_neg]
  unfold action
  rw [hn]
  dsimp only
  simp (disch := omega) only [if_neg, if_pos]
  unfold pilotAction
  try dsimp only
  try simp (disch := omega) only [if_neg, if_pos, f0, if_true]
  all_goals first | done | (congr 2 <;> omega) | (congr 3 <;> omega) | (congr 4 <;> omega) | (congr 5 <;> omega) | (congr 6 <;> omega)

theorem plain_hostMail : ∀ (k : Fin 16) (i : Fin 4), plainReg (0x30040 + 0x1000 * k.val + 4 * i.val) = true := by decide +kernel

theorem write_hostMail {s : State} (m : Fin 32) (k : Fin 16) (i : Fin 4) (v : Word) (hm : s.mayWrite m (0x30040 + 0x1000 * k.val + 4 * i.val) .plain = true) :
    ∃ w u, Aside s w ∧ Wrote (0x30040 + 0x1000 * k.val + 4 * i.val) v.toNat s u ∧ execHostMail m k i v s = .next (u.postTo k.val 1 m i.val v.toNat) := by
  have l_k := k.isLt
  have l_i := i.isLt
  have l_v := v.isLt
  obtain ⟨w, u, hw, hu, e⟩ := write_one (v := v.toNat) (plain_hostMail k i) hm (by unfold State.ignored; rw [decide_eq_false (by omega)]; rfl)
  refine ⟨w, u, hw, hu, ?_⟩
  unfold execHostMail State.wordWrite
  rw [e]
  clear hm e hu hw
  generalize (v.toNat) = v_ at *
  generalize ha : 0x30040 + 0x1000 * k.val + 4 * i.val = a
  have hn : ctrlUnit a = none := by
    unfold ctrlUnit
    simp (disch := omega) only [if_neg]
  unfold action
  rw [hn]
  dsimp only
  simp (disch := omega) only [if_neg, if_pos]
  unfold pilotAction
  try dsimp only
  try simp (disch := omega) only [if_neg, if_pos, if_true]
  all_goals first | done | (congr 2 <;> omega) | (congr 3 <;> omega) | (congr 4 <;> omega) | (congr 5 <;> omega) | (congr 6 <;> omega)

theorem plain_etsPop : ∀ (q : Fin 2), plainReg (0x2030C + 0x20 * q.val) = true := by decide +kernel

theorem write_etsPop {s : State} (m : Fin 32) (q : Fin 2) (hm : s.mayWrite m (0x2030C + 0x20 * q.val) .plain = true) :
    ∃ w u, Aside s w ∧ Wrote (0x2030C + 0x20 * q.val) 1 s u ∧ execEtsPop m q s = .next (u.popEts q.val) := by
  have l_q := q.isLt
  obtain ⟨w, u, hw, hu, e⟩ := write_one (v := 1) (plain_etsPop q) hm (by unfold State.ignored; rw [decide_eq_false (by omega)]; rfl)
  refine ⟨w, u, hw, hu, ?_⟩
  unfold execEtsPop State.wordWrite
  rw [e]
  clear hm e hu hw
  generalize ha : 0x2030C + 0x20 * q.val = a
  have hn : ctrlUnit a = none := by
    unfold ctrlUnit
    simp (disch := omega) only [if_neg]
  rcases (show q.val = 0 ∨ q.val = 1 by omega) with hq | hq
  · unfold action
    rw [hn]
    dsimp only
    simp (disch := omega) only [if_neg, if_pos]
    unfold timeAction
    try dsimp only
    try simp (disch := omega) only [if_neg, if_pos, if_true]
    all_goals try rw [hq]
    all_goals first | done | (congr 2 <;> omega) | (congr 3 <;> omega) | (congr 4 <;> omega) | (congr 5 <;> omega) | (congr 6 <;> omega)
  · unfold action
    rw [hn]
    dsimp only
    simp (disch := omega) only [if_neg, if_pos]
    unfold timeAction
    try dsimp only
    try simp (disch := omega) only [if_neg, if_pos, if_true]
    all_goals try rw [hq]
    all_goals first | done | (congr 2 <;> omega) | (congr 3 <;> omega) | (congr 4 <;> omega) | (congr 5 <;> omega) | (congr 6 <;> omega)

theorem plain_evtPop : ∀ (i : Fin 16), plainReg (0x1FE024 + 0x40 * i.val) = true := by decide +kernel

theorem write_evtPop {s : State} (m : Fin 32) (i : Fin 16) (hm : s.mayWrite m (0x1FE024 + 0x40 * i.val) .plain = true) :
    ∃ w u, Aside s w ∧ Wrote (0x1FE024 + 0x40 * i.val) 1 s u ∧ execEvtPop m i s = .next (u.setEvtPin i.val { u.evtPin i.val with queue := (u.evtPin i.val).queue.tail }) := by
  have l_i := i.isLt
  obtain ⟨w, u, hw, hu, e⟩ := write_one (v := 1) (plain_evtPop i) hm (by unfold State.ignored; rw [decide_eq_false (by omega)]; rfl)
  refine ⟨w, u, hw, hu, ?_⟩
  unfold execEvtPop State.wordWrite
  rw [e]
  clear hm e hu hw
  generalize ha : 0x1FE024 + 0x40 * i.val = a
  have hn : ctrlUnit a = none := by
    unfold ctrlUnit
    simp (disch := omega) only [if_neg]
  unfold action
  rw [hn]
  dsimp only
  simp (disch := omega) only [if_neg, if_pos]
  unfold gpioEvtAction
  try dsimp only
  rw [show (a - 0x1FE000) / 0x40 = i.val by omega]
  try simp (disch := omega) only [if_neg, if_pos, if_true]
  all_goals first | done | (congr 2 <;> omega) | (congr 3 <;> omega) | (congr 4 <;> omega) | (congr 5 <;> omega) | (congr 6 <;> omega)

theorem plain_srxTrain : ∀ (p : Fin 4), plainReg (0x80000 + 0x4000 * p.val) = true := by decide +kernel

theorem ctrl_srxTrain : ∀ (p : Fin 4), ctrlUnit (0x80000 + 0x4000 * p.val) = some (p.val, 0) := by decide +kernel

theorem write_srxTrain {s : State} (m : Fin 32) (p : Fin 4) (rest : BitVec 28) (hm : s.mayWrite m (0x80000 + 0x4000 * p.val) .plain = true) :
    ∃ w u, Aside s w ∧ Wrote (0x80000 + 0x4000 * p.val) (1 <<< 28 + rest.toNat) s u ∧ execSrxTrain m p rest s = .next (u.ctrlAction p.val 0 (0x80000 + 0x4000 * p.val) (1 <<< 28 + rest.toNat)) := by
  have l_p := p.isLt
  have l_rest := rest.isLt
  obtain ⟨w, u, hw, hu, e⟩ := write_one (v := (1 <<< 28 + rest.toNat)) (plain_srxTrain p) hm (by unfold State.ignored; rw [decide_eq_false (by omega)]; rfl)
  refine ⟨w, u, hw, hu, ?_⟩
  unfold execSrxTrain State.wordWrite
  rw [e]
  unfold action
  rw [ctrl_srxTrain]

theorem write_srxRun {s : State} (m : Fin 32) (p : Fin 4) (rest : BitVec 28) (hm : s.mayWrite m (0x80000 + 0x4000 * p.val) .plain = true) :
    ∃ w u, Aside s w ∧ Wrote (0x80000 + 0x4000 * p.val) (2 <<< 28 + rest.toNat) s u ∧ execSrxRun m p rest s = .next (u.ctrlAction p.val 0 (0x80000 + 0x4000 * p.val) (2 <<< 28 + rest.toNat)) := by
  have l_p := p.isLt
  have l_rest := rest.isLt
  obtain ⟨w, u, hw, hu, e⟩ := write_one (v := (2 <<< 28 + rest.toNat)) (plain_srxTrain p) hm (by unfold State.ignored; rw [decide_eq_false (by omega)]; rfl)
  refine ⟨w, u, hw, hu, ?_⟩
  unfold execSrxRun State.wordWrite
  rw [e]
  unfold action
  rw [ctrl_srxTrain]

theorem write_srxStop {s : State} (m : Fin 32) (p : Fin 4) (rest : BitVec 28) (hm : s.mayWrite m (0x80000 + 0x4000 * p.val) .plain = true) :
    ∃ w u, Aside s w ∧ Wrote (0x80000 + 0x4000 * p.val) (3 <<< 28 + rest.toNat) s u ∧ execSrxStop m p rest s = .next (u.ctrlAction p.val 0 (0x80000 + 0x4000 * p.val) (3 <<< 28 + rest.toNat)) := by
  have l_p := p.isLt
  have l_rest := rest.isLt
  obtain ⟨w, u, hw, hu, e⟩ := write_one (v := (3 <<< 28 + rest.toNat)) (plain_srxTrain p) hm (by unfold State.ignored; rw [decide_eq_false (by omega)]; rfl)
  refine ⟨w, u, hw, hu, ?_⟩
  unfold execSrxStop State.wordWrite
  rw [e]
  unfold action
  rw [ctrl_srxTrain]

theorem plain_laneSlip : ∀ (p : Fin 4) (i : Fin 64), plainReg (0x81008 + 0x4000 * p.val + 0x40 * i.val) = true := by decide +kernel

theorem write_laneSlip {s : State} (m : Fin 32) (p : Fin 4) (i : Fin 64) (v : Word) (hm : s.mayWrite m (0x81008 + 0x4000 * p.val + 0x40 * i.val) .plain = true) :
    ∃ w u, Aside s w ∧ Wrote (0x81008 + 0x4000 * p.val + 0x40 * i.val) v.toNat s u ∧ execLaneSlip m p i v s = .next (if bit v.toNat 0 then u.laneSlip p.val i.val else u) := by
  have l_p := p.isLt
  have l_i := i.isLt
  have l_v := v.isLt
  obtain ⟨w, u, hw, hu, e⟩ := write_one (v := v.toNat) (plain_laneSlip p i) hm (by unfold State.ignored; rw [decide_eq_false (by omega)]; rfl)
  refine ⟨w, u, hw, hu, ?_⟩
  unfold execLaneSlip State.wordWrite
  rw [e]
  clear hm e hu hw
  generalize (v.toNat) = v_ at *
  generalize ha : 0x81008 + 0x4000 * p.val + 0x40 * i.val = a
  have hn : ctrlUnit a = none := by
    unfold ctrlUnit
    simp (disch := omega) only [if_neg]
  unfold action
  rw [hn]
  dsimp only
  simp (disch := omega) only [if_neg, if_pos]
  unfold cameraAction
  try dsimp only
  try simp (disch := omega) only [if_neg, if_pos, if_true]
  all_goals first | done | (congr 2 <;> omega) | (congr 3 <;> omega) | (congr 4 <;> omega) | (congr 5 <;> omega) | (congr 6 <;> omega)

theorem plain_srxFqPush : ∀ (p : Fin 4), plainReg (0x80030 + 0x4000 * p.val) = true := by decide +kernel

theorem write_srxFqPush {s : State} (m : Fin 32) (p : Fin 4) (raw map : BitVec 16) (hm : s.mayWrite m (0x80030 + 0x4000 * p.val) .plain = true) :
    ∃ w u, Aside s w ∧ Wrote (0x80030 + 0x4000 * p.val) (map.toNat <<< 16 + raw.toNat) s u ∧ execSrxFqPush m p raw map s = .next (u.srxFqPush p.val raw.toNat map.toNat) := by
  have l_p := p.isLt
  have l_raw := raw.isLt
  have l_map := map.isLt
  obtain ⟨w, u, hw, hu, e⟩ := write_one (v := (map.toNat <<< 16 + raw.toNat)) (plain_srxFqPush p) hm (by unfold State.ignored; rw [decide_eq_false (by omega)]; rfl)
  refine ⟨w, u, hw, hu, ?_⟩
  unfold execSrxFqPush State.wordWrite
  rw [e]
  have f0 : bits ((map.toNat <<< 16 + raw.toNat)) 31 16 = map.toNat := by
    simp only [bits, Nat.shiftLeft_eq, Nat.shiftRight_eq_div_pow, Nat.reduceAdd, Nat.reduceSub, Nat.reducePow, Nat.reduceMul]; omega
  have f1 : bits ((map.toNat <<< 16 + raw.toNat)) 15 0 = raw.toNat := by
    simp only [bits, Nat.shiftLeft_eq, Nat.shiftRight_eq_div_pow, Nat.reduceAdd, Nat.reduceSub, Nat.reducePow, Nat.reduceMul]; omega
  clear hm e hu hw
  generalize ((map.toNat <<< 16 + raw.toNat)) = v_ at *
  generalize ha : 0x80030 + 0x4000 * p.val = a
  have hn : ctrlUnit a = none := by
    unfold ctrlUnit
    simp (disch := omega) only [if_neg]
  unfold action
  rw [hn]
  dsimp only
  simp (disch := omega) only [if_neg, if_pos]
  unfold cameraAction
  try dsimp only
  try simp (disch := omega) only [if_neg, if_pos, f0, f1, if_true]
  all_goals first | done | (congr 2 <;> omega) | (congr 3 <;> omega) | (congr 4 <;> omega) | (congr 5 <;> omega) | (congr 6 <;> omega)

theorem plain_prbsSelect : ∀ (p : Fin 4) (i : Fin 64), plainReg (0x81000 + 0x4000 * p.val + 0x40 * i.val) = true := by decide +kernel

theorem write_prbsSelect {s : State} (m : Fin 32) (p : Fin 4) (i : Fin 64) (v : Word) (hm : s.mayWrite m (0x81000 + 0x4000 * p.val + 0x40 * i.val) .plain = true) :
    ∃ w u, Aside s w ∧ Wrote (0x81000 + 0x4000 * p.val + 0x40 * i.val) v.toNat s u ∧ execPrbsSelect m p i v s = .next (u.laneCfgWritten p.val i.val (w.fld (Reg.LANE_CFG_PRBS p.val i.val)) (bit v.toNat 26)) := by
  have l_p := p.isLt
  have l_i := i.isLt
  have l_v := v.isLt
  obtain ⟨w, u, hw, hu, e⟩ := write_one (v := v.toNat) (plain_prbsSelect p i) hm (by unfold State.ignored; rw [decide_eq_false (by omega)]; rfl)
  refine ⟨w, u, hw, hu, ?_⟩
  unfold execPrbsSelect State.wordWrite
  rw [e]
  clear hm e hu hw
  generalize (v.toNat) = v_ at *
  generalize ha : 0x81000 + 0x4000 * p.val + 0x40 * i.val = a
  have hn : ctrlUnit a = none := by
    unfold ctrlUnit
    simp (disch := omega) only [if_neg]
  unfold action
  rw [hn]
  dsimp only
  simp (disch := omega) only [if_neg, if_pos]
  unfold cameraAction
  try dsimp only
  try simp (disch := omega) only [if_neg, if_pos, if_true]
  all_goals first | done | (congr 2 <;> omega) | (congr 3 <;> omega) | (congr 4 <;> omega) | (congr 5 <;> omega) | (congr 6 <;> omega)

theorem write_inject {s : State} (m : Fin 32) (p : Fin 4) (i : Fin 64) (v : Word) (hm : s.mayWrite m (0x81000 + 0x4000 * p.val + 0x40 * i.val) .plain = true) :
    ∃ w u, Aside s w ∧ Wrote (0x81000 + 0x4000 * p.val + 0x40 * i.val) v.toNat s u ∧ execInject m p i v s = .next (u.laneCfgWritten p.val i.val (w.fld (Reg.LANE_CFG_PRBS p.val i.val)) (bit v.toNat 26)) := by
  have l_p := p.isLt
  have l_i := i.isLt
  have l_v := v.isLt
  obtain ⟨w, u, hw, hu, e⟩ := write_one (v := v.toNat) (plain_prbsSelect p i) hm (by unfold State.ignored; rw [decide_eq_false (by omega)]; rfl)
  refine ⟨w, u, hw, hu, ?_⟩
  unfold execInject State.wordWrite
  rw [e]
  clear hm e hu hw
  generalize (v.toNat) = v_ at *
  generalize ha : 0x81000 + 0x4000 * p.val + 0x40 * i.val = a
  have hn : ctrlUnit a = none := by
    unfold ctrlUnit
    simp (disch := omega) only [if_neg]
  unfold action
  rw [hn]
  dsimp only
  simp (disch := omega) only [if_neg, if_pos]
  unfold cameraAction
  try dsimp only
  try simp (disch := omega) only [if_neg, if_pos, if_true]
  all_goals first | done | (congr 2 <;> omega) | (congr 3 <;> omega) | (congr 4 <;> omega) | (congr 5 <;> omega) | (congr 6 <;> omega)

theorem plain_pipeRun : ∀ (i : Fin 4), plainReg (0x100000 + 0x10000 * i.val) = true := by decide +kernel

theorem ctrl_pipeRun : ∀ (i : Fin 4), ctrlUnit (0x100000 + 0x10000 * i.val) = some (4 + i.val, 0) := by decide +kernel

theorem write_pipeRun {s : State} (m : Fin 32) (i : Fin 4) (rest : BitVec 28) (hm : s.mayWrite m (0x100000 + 0x10000 * i.val) .plain = true) :
    ∃ w u, Aside s w ∧ Wrote (0x100000 + 0x10000 * i.val) (1 <<< 28 + rest.toNat) s u ∧ execPipeRun m i rest s = .next (u.ctrlAction (4 + i.val) 0 (0x100000 + 0x10000 * i.val) (1 <<< 28 + rest.toNat)) := by
  have l_i := i.isLt
  have l_rest := rest.isLt
  obtain ⟨w, u, hw, hu, e⟩ := write_one (v := (1 <<< 28 + rest.toNat)) (plain_pipeRun i) hm (by unfold State.ignored; rw [decide_eq_false (by omega)]; rfl)
  refine ⟨w, u, hw, hu, ?_⟩
  unfold execPipeRun State.wordWrite
  rw [e]
  unfold action
  rw [ctrl_pipeRun]

theorem write_pipeStop {s : State} (m : Fin 32) (i : Fin 4) (rest : BitVec 28) (hm : s.mayWrite m (0x100000 + 0x10000 * i.val) .plain = true) :
    ∃ w u, Aside s w ∧ Wrote (0x100000 + 0x10000 * i.val) (2 <<< 28 + rest.toNat) s u ∧ execPipeStop m i rest s = .next (u.ctrlAction (4 + i.val) 0 (0x100000 + 0x10000 * i.val) (2 <<< 28 + rest.toNat)) := by
  have l_i := i.isLt
  have l_rest := rest.isLt
  obtain ⟨w, u, hw, hu, e⟩ := write_one (v := (2 <<< 28 + rest.toNat)) (plain_pipeRun i) hm (by unfold State.ignored; rw [decide_eq_false (by omega)]; rfl)
  refine ⟨w, u, hw, hu, ?_⟩
  unfold execPipeStop State.wordWrite
  rw [e]
  unfold action
  rw [ctrl_pipeRun]

theorem plain_pipeInPush : ∀ (i : Fin 4), plainReg (0x100008 + 0x10000 * i.val) = true := by decide +kernel

theorem write_pipeInPush {s : State} (m : Fin 32) (i : Fin 4) (raw map : BitVec 16) (hm : s.mayWrite m (0x100008 + 0x10000 * i.val) .plain = true) :
    ∃ w u, Aside s w ∧ Wrote (0x100008 + 0x10000 * i.val) (map.toNat <<< 16 + raw.toNat) s u ∧ execPipeInPush m i raw map s = .next (u.pipeInPush i.val raw.toNat map.toNat) := by
  have l_i := i.isLt
  have l_raw := raw.isLt
  have l_map := map.isLt
  obtain ⟨w, u, hw, hu, e⟩ := write_one (v := (map.toNat <<< 16 + raw.toNat)) (plain_pipeInPush i) hm (by unfold State.ignored; rw [decide_eq_false (by omega)]; rfl)
  refine ⟨w, u, hw, hu, ?_⟩
  unfold execPipeInPush State.wordWrite
  rw [e]
  have f0 : bits ((map.toNat <<< 16 + raw.toNat)) 31 16 = map.toNat := by
    simp only [bits, Nat.shiftLeft_eq, Nat.shiftRight_eq_div_pow, Nat.reduceAdd, Nat.reduceSub, Nat.reducePow, Nat.reduceMul]; omega
  have f1 : bits ((map.toNat <<< 16 + raw.toNat)) 15 0 = raw.toNat := by
    simp only [bits, Nat.shiftLeft_eq, Nat.shiftRight_eq_div_pow, Nat.reduceAdd, Nat.reduceSub, Nat.reducePow, Nat.reduceMul]; omega
  clear hm e hu hw
  generalize ((map.toNat <<< 16 + raw.toNat)) = v_ at *
  generalize ha : 0x100008 + 0x10000 * i.val = a
  have hn : ctrlUnit a = none := by
    unfold ctrlUnit
    simp (disch := omega) only [if_neg]
  unfold action
  rw [hn]
  dsimp only
  simp (disch := omega) only [if_neg, if_pos]
  unfold cameraAction
  try dsimp only
  try simp (disch := omega) only [if_neg, if_pos, f0, f1, if_true]
  all_goals first | done | (congr 2 <;> omega) | (congr 3 <;> omega) | (congr 4 <;> omega) | (congr 5 <;> omega) | (congr 6 <;> omega)

theorem plain_pipeOutPush : ∀ (i : Fin 4) (o : Fin 3), plainReg (0x108160 + 0x10000 * i.val + 0x80 * o.val) = true := by decide +kernel

theorem write_pipeOutPush {s : State} (m : Fin 32) (i : Fin 4) (o : Fin 3) (h : BitVec 16) (hm : s.mayWrite m (0x108160 + 0x10000 * i.val + 0x80 * o.val) .plain = true) :
    ∃ w u, Aside s w ∧ Wrote (0x108160 + 0x10000 * i.val + 0x80 * o.val) h.toNat s u ∧ execPipeOutPush m i o h s = .next (u.pipeOutPush i.val o.val h.toNat) := by
  have l_i := i.isLt
  have l_o := o.isLt
  have l_h := h.isLt
  obtain ⟨w, u, hw, hu, e⟩ := write_one (v := h.toNat) (plain_pipeOutPush i o) hm (by unfold State.ignored; rw [decide_eq_false (by omega)]; rfl)
  refine ⟨w, u, hw, hu, ?_⟩
  unfold execPipeOutPush State.wordWrite
  rw [e]
  have f0 : bits (h.toNat) 15 0 = h.toNat := by
    simp only [bits, Nat.shiftLeft_eq, Nat.shiftRight_eq_div_pow, Nat.reduceAdd, Nat.reduceSub, Nat.reducePow, Nat.reduceMul]; omega
  clear hm e hu hw
  generalize ha : 0x108160 + 0x10000 * i.val + 0x80 * o.val = a
  have hn : ctrlUnit a = none := by
    unfold ctrlUnit
    simp (disch := omega) only [if_neg]
  unfold action
  rw [hn]
  dsimp only
  simp (disch := omega) only [if_neg, if_pos]
  unfold cameraAction
  try dsimp only
  try simp (disch := omega) only [if_neg, if_pos, f0, if_true]
  all_goals first | done | (congr 2 <;> omega) | (congr 3 <;> omega) | (congr 4 <;> omega) | (congr 5 <;> omega) | (congr 6 <;> omega)

theorem plain_pipeRawoutPush : ∀ (i : Fin 4), plainReg (0x108044 + 0x10000 * i.val) = true := by decide +kernel

theorem write_pipeRawoutPush {s : State} (m : Fin 32) (i : Fin 4) (h : BitVec 16) (hm : s.mayWrite m (0x108044 + 0x10000 * i.val) .plain = true) :
    ∃ w u, Aside s w ∧ Wrote (0x108044 + 0x10000 * i.val) h.toNat s u ∧ execPipeRawoutPush m i h s = .next (u.pipeRawPush i.val h.toNat) := by
  have l_i := i.isLt
  have l_h := h.isLt
  obtain ⟨w, u, hw, hu, e⟩ := write_one (v := h.toNat) (plain_pipeRawoutPush i) hm (by unfold State.ignored; rw [decide_eq_false (by omega)]; rfl)
  refine ⟨w, u, hw, hu, ?_⟩
  unfold execPipeRawoutPush State.wordWrite
  rw [e]
  have f0 : bits (h.toNat) 15 0 = h.toNat := by
    simp only [bits, Nat.shiftLeft_eq, Nat.shiftRight_eq_div_pow, Nat.reduceAdd, Nat.reduceSub, Nat.reducePow, Nat.reduceMul]; omega
  clear hm e hu hw
  generalize ha : 0x108044 + 0x10000 * i.val = a
  have hn : ctrlUnit a = none := by
    unfold ctrlUnit
    simp (disch := omega) only [if_neg]
  unfold action
  rw [hn]
  dsimp only
  simp (disch := omega) only [if_neg, if_pos]
  unfold cameraAction
  try dsimp only
  try simp (disch := omega) only [if_neg, if_pos, f0, if_true]
  all_goals first | done | (congr 2 <;> omega) | (congr 3 <;> omega) | (congr 4 <;> omega) | (congr 5 <;> omega) | (congr 6 <;> omega)

theorem plain_statPush : ∀ (i : Fin 4), plainReg (0x140030 + 0x1000 * i.val) = true := by decide +kernel

theorem write_statPush {s : State} (m : Fin 32) (i : Fin 4) (h : BitVec 16) (hm : s.mayWrite m (0x140030 + 0x1000 * i.val) .plain = true) :
    ∃ w u, Aside s w ∧ Wrote (0x140030 + 0x1000 * i.val) h.toNat s u ∧ execStatPush m i h s = .next (u.statPush i.val h.toNat) := by
  have l_i := i.isLt
  have l_h := h.isLt
  obtain ⟨w, u, hw, hu, e⟩ := write_one (v := h.toNat) (plain_statPush i) hm (by unfold State.ignored; rw [decide_eq_false (by omega)]; rfl)
  refine ⟨w, u, hw, hu, ?_⟩
  unfold execStatPush State.wordWrite
  rw [e]
  have f0 : bits (h.toNat) 15 0 = h.toNat := by
    simp only [bits, Nat.shiftLeft_eq, Nat.shiftRight_eq_div_pow, Nat.reduceAdd, Nat.reduceSub, Nat.reducePow, Nat.reduceMul]; omega
  clear hm e hu hw
  generalize ha : 0x140030 + 0x1000 * i.val = a
  have hn : ctrlUnit a = none := by
    unfold ctrlUnit
    simp (disch := omega) only [if_neg]
  unfold action
  rw [hn]
  dsimp only
  simp (disch := omega) only [if_neg, if_pos]
  unfold cameraAction
  try dsimp only
  try simp (disch := omega) only [if_neg, if_pos, f0, if_true]
  all_goals first | done | (congr 2 <;> omega) | (congr 3 <;> omega) | (congr 4 <;> omega) | (congr 5 <;> omega) | (congr 6 <;> omega)

theorem write_calRun {s : State} (m : Fin 32) (item : BitVec 6) (hm : s.mayWrite m (0x150000) .plain = true) :
    ∃ w u, Aside s w ∧ Wrote (0x150000) (1 <<< 28 + item.toNat) s u ∧ execCalRun m item s = .next (u.calRunCmd item.toNat) := by
  have l_item := item.isLt
  obtain ⟨w, u, hw, hu, e⟩ := write_one (v := (1 <<< 28 + item.toNat)) (by decide +kernel) hm (by unfold State.ignored; rw [decide_eq_false (by omega)]; rfl)
  refine ⟨w, u, hw, hu, ?_⟩
  unfold execCalRun State.wordWrite
  rw [e]
  have f0 : bits ((1 <<< 28 + item.toNat)) 31 28 = 1 := by
    simp only [bits, Nat.shiftLeft_eq, Nat.shiftRight_eq_div_pow, Nat.reduceAdd, Nat.reduceSub, Nat.reducePow, Nat.reduceMul]; omega
  have f1 : bits ((1 <<< 28 + item.toNat)) 5 0 = item.toNat := by
    simp only [bits, Nat.shiftLeft_eq, Nat.shiftRight_eq_div_pow, Nat.reduceAdd, Nat.reduceSub, Nat.reducePow, Nat.reduceMul]; omega
  clear hm e hu hw
  generalize ((1 <<< 28 + item.toNat)) = v_ at *
  obtain ⟨a, ha⟩ : ∃ a, a = 0x150000 := ⟨_, rfl⟩
  rw [← ha]
  have hn : ctrlUnit a = none := by rw [ha]; decide +kernel
  unfold action
  rw [hn]
  dsimp only
  simp (disch := omega) only [if_neg, if_pos]
  unfold codecAction
  try dsimp only
  try simp (disch := omega) only [if_neg, if_pos, f0, f1, if_true]
  all_goals first | done | (congr 2 <;> omega) | (congr 3 <;> omega) | (congr 4 <;> omega) | (congr 5 <;> omega) | (congr 6 <;> omega)

theorem write_calFfCmd {s : State} (m : Fin 32) (key : Word) (hm : s.mayWrite m (0x15004C) .plain = true) :
    ∃ w u, Aside s w ∧ Wrote (0x15004C) key.toNat s u ∧ execCalFfCmd m key s = .next (u.ffCmd key.toNat) := by
  have l_key := key.isLt
  obtain ⟨w, u, hw, hu, e⟩ := write_one (v := key.toNat) (by decide +kernel) hm (by unfold State.ignored; rw [decide_eq_false (by omega)]; rfl)
  refine ⟨w, u, hw, hu, ?_⟩
  unfold execCalFfCmd State.wordWrite
  rw [e]
  clear hm e hu hw
  generalize (key.toNat) = v_ at *
  obtain ⟨a, ha⟩ : ∃ a, a = 0x15004C := ⟨_, rfl⟩
  rw [← ha]
  have hn : ctrlUnit a = none := by rw [ha]; decide +kernel
  unfold action
  rw [hn]
  dsimp only
  simp (disch := omega) only [if_neg, if_pos]
  unfold codecAction
  try dsimp only
  try simp (disch := omega) only [if_neg, if_pos, if_true]
  all_goals first | done | (congr 2 <;> omega) | (congr 3 <;> omega) | (congr 4 <;> omega) | (congr 5 <;> omega) | (congr 6 <;> omega)

theorem plain_encRun : ∀ (e : Fin 4), plainReg (0x160000 + 0x4000 * e.val) = true := by decide +kernel

theorem ctrl_encRun : ∀ (e : Fin 4), ctrlUnit (0x160000 + 0x4000 * e.val) = some (8 + e.val, 0) := by decide +kernel

theorem write_encRun {s : State} (m : Fin 32) (e : Fin 4) (rest : BitVec 28) (hm : s.mayWrite m (0x160000 + 0x4000 * e.val) .plain = true) :
    ∃ w u, Aside s w ∧ Wrote (0x160000 + 0x4000 * e.val) (1 <<< 28 + rest.toNat) s u ∧ execEncRun m e rest s = .next (u.ctrlAction (8 + e.val) 0 (0x160000 + 0x4000 * e.val) (1 <<< 28 + rest.toNat)) := by
  have l_e := e.isLt
  have l_rest := rest.isLt
  obtain ⟨w, u, hw, hu, e⟩ := write_one (v := (1 <<< 28 + rest.toNat)) (plain_encRun e) hm (by unfold State.ignored; rw [decide_eq_false (by omega)]; rfl)
  refine ⟨w, u, hw, hu, ?_⟩
  unfold execEncRun State.wordWrite
  rw [e]
  unfold action
  rw [ctrl_encRun]

theorem write_encStop {s : State} (m : Fin 32) (e : Fin 4) (rest : BitVec 28) (hm : s.mayWrite m (0x160000 + 0x4000 * e.val) .plain = true) :
    ∃ w u, Aside s w ∧ Wrote (0x160000 + 0x4000 * e.val) (2 <<< 28 + rest.toNat) s u ∧ execEncStop m e rest s = .next (u.ctrlAction (8 + e.val) 0 (0x160000 + 0x4000 * e.val) (2 <<< 28 + rest.toNat)) := by
  have l_e := e.isLt
  have l_rest := rest.isLt
  obtain ⟨w, u, hw, hu, e⟩ := write_one (v := (2 <<< 28 + rest.toNat)) (plain_encRun e) hm (by unfold State.ignored; rw [decide_eq_false (by omega)]; rfl)
  refine ⟨w, u, hw, hu, ?_⟩
  unfold execEncStop State.wordWrite
  rw [e]
  unfold action
  rw [ctrl_encRun]

theorem plain_encSlotInPush : ∀ (e : Fin 4) (i : Fin 4), plainReg (0x160130 + 0x4000 * e.val + 0x100 * i.val) = true := by decide +kernel

theorem write_encSlotInPush {s : State} (m : Fin 32) (e : Fin 4) (i : Fin 4) (h : BitVec 16) (hm : s.mayWrite m (0x160130 + 0x4000 * e.val + 0x100 * i.val) .plain = true) :
    ∃ w u, Aside s w ∧ Wrote (0x160130 + 0x4000 * e.val + 0x100 * i.val) h.toNat s u ∧ execEncSlotInPush m e i h s = .next (u.encPush e.val i.val 0 h.toNat) := by
  have l_e := e.isLt
  have l_i := i.isLt
  have l_h := h.isLt
  obtain ⟨w, u, hw, hu, e⟩ := write_one (v := h.toNat) (plain_encSlotInPush e i) hm (by unfold State.ignored; rw [decide_eq_false (by omega)]; rfl)
  refine ⟨w, u, hw, hu, ?_⟩
  unfold execEncSlotInPush State.wordWrite
  rw [e]
  have f0 : bits (h.toNat) 15 0 = h.toNat := by
    simp only [bits, Nat.shiftLeft_eq, Nat.shiftRight_eq_div_pow, Nat.reduceAdd, Nat.reduceSub, Nat.reducePow, Nat.reduceMul]; omega
  clear hm e hu hw
  generalize ha : 0x160130 + 0x4000 * e.val + 0x100 * i.val = a
  have hn : ctrlUnit a = none := by
    unfold ctrlUnit
    simp (disch := omega) only [if_neg]
  unfold action
  rw [hn]
  dsimp only
  simp (disch := omega) only [if_neg, if_pos]
  unfold codecAction
  try dsimp only
  try simp (disch := omega) only [if_neg, if_pos, f0, if_true]
  all_goals first | done | (congr 2 <;> omega) | (congr 3 <;> omega) | (congr 4 <;> omega) | (congr 5 <;> omega) | (congr 6 <;> omega)

theorem plain_encSlotBsPush : ∀ (e : Fin 4) (i : Fin 4), plainReg (0x160134 + 0x4000 * e.val + 0x100 * i.val) = true := by decide +kernel

theorem write_encSlotBsPush {s : State} (m : Fin 32) (e : Fin 4) (i : Fin 4) (h : BitVec 16) (hm : s.mayWrite m (0x160134 + 0x4000 * e.val + 0x100 * i.val) .plain = true) :
    ∃ w u, Aside s w ∧ Wrote (0x160134 + 0x4000 * e.val + 0x100 * i.val) h.toNat s u ∧ execEncSlotBsPush m e i h s = .next (u.encPush e.val i.val 1 h.toNat) := by
  have l_e := e.isLt
  have l_i := i.isLt
  have l_h := h.isLt
  obtain ⟨w, u, hw, hu, e⟩ := write_one (v := h.toNat) (plain_encSlotBsPush e i) hm (by unfold State.ignored; rw [decide_eq_false (by omega)]; rfl)
  refine ⟨w, u, hw, hu, ?_⟩
  unfold execEncSlotBsPush State.wordWrite
  rw [e]
  have f0 : bits (h.toNat) 15 0 = h.toNat := by
    simp only [bits, Nat.shiftLeft_eq, Nat.shiftRight_eq_div_pow, Nat.reduceAdd, Nat.reduceSub, Nat.reducePow, Nat.reduceMul]; omega
  clear hm e hu hw
  generalize ha : 0x160134 + 0x4000 * e.val + 0x100 * i.val = a
  have hn : ctrlUnit a = none := by
    unfold ctrlUnit
    simp (disch := omega) only [if_neg]
  unfold action
  rw [hn]
  dsimp only
  simp (disch := omega) only [if_neg, if_pos]
  unfold codecAction
  try dsimp only
  try simp (disch := omega) only [if_neg, if_pos, f0, if_true]
  all_goals first | done | (congr 2 <;> omega) | (congr 3 <;> omega) | (congr 4 <;> omega) | (congr 5 <;> omega) | (congr 6 <;> omega)

theorem plain_encSlotEsPush : ∀ (e : Fin 4) (i : Fin 4), plainReg (0x160138 + 0x4000 * e.val + 0x100 * i.val) = true := by decide +kernel

theorem write_encSlotEsPush {s : State} (m : Fin 32) (e : Fin 4) (i : Fin 4) (h : BitVec 16) (hm : s.mayWrite m (0x160138 + 0x4000 * e.val + 0x100 * i.val) .plain = true) :
    ∃ w u, Aside s w ∧ Wrote (0x160138 + 0x4000 * e.val + 0x100 * i.val) h.toNat s u ∧ execEncSlotEsPush m e i h s = .next (u.encPush e.val i.val 2 h.toNat) := by
  have l_e := e.isLt
  have l_i := i.isLt
  have l_h := h.isLt
  obtain ⟨w, u, hw, hu, e⟩ := write_one (v := h.toNat) (plain_encSlotEsPush e i) hm (by unfold State.ignored; rw [decide_eq_false (by omega)]; rfl)
  refine ⟨w, u, hw, hu, ?_⟩
  unfold execEncSlotEsPush State.wordWrite
  rw [e]
  have f0 : bits (h.toNat) 15 0 = h.toNat := by
    simp only [bits, Nat.shiftLeft_eq, Nat.shiftRight_eq_div_pow, Nat.reduceAdd, Nat.reduceSub, Nat.reducePow, Nat.reduceMul]; omega
  clear hm e hu hw
  generalize ha : 0x160138 + 0x4000 * e.val + 0x100 * i.val = a
  have hn : ctrlUnit a = none := by
    unfold ctrlUnit
    simp (disch := omega) only [if_neg]
  unfold action
  rw [hn]
  dsimp only
  simp (disch := omega) only [if_neg, if_pos]
  unfold codecAction
  try dsimp only
  try simp (disch := omega) only [if_neg, if_pos, f0, if_true]
  all_goals first | done | (congr 2 <;> omega) | (congr 3 <;> omega) | (congr 4 <;> omega) | (congr 5 <;> omega) | (congr 6 <;> omega)

theorem plain_decRun : ∀ (d : Fin 2), plainReg (0x180000 + 0x4000 * d.val) = true := by decide +kernel

theorem ctrl_decRun : ∀ (d : Fin 2), ctrlUnit (0x180000 + 0x4000 * d.val) = some (12 + d.val, 0) := by decide +kernel

theorem write_decRun {s : State} (m : Fin 32) (d : Fin 2) (rest : BitVec 28) (hm : s.mayWrite m (0x180000 + 0x4000 * d.val) .plain = true) :
    ∃ w u, Aside s w ∧ Wrote (0x180000 + 0x4000 * d.val) (1 <<< 28 + rest.toNat) s u ∧ execDecRun m d rest s = .next (u.ctrlAction (12 + d.val) 0 (0x180000 + 0x4000 * d.val) (1 <<< 28 + rest.toNat)) := by
  have l_d := d.isLt
  have l_rest := rest.isLt
  obtain ⟨w, u, hw, hu, e⟩ := write_one (v := (1 <<< 28 + rest.toNat)) (plain_decRun d) hm (by unfold State.ignored; rw [decide_eq_false (by omega)]; rfl)
  refine ⟨w, u, hw, hu, ?_⟩
  unfold execDecRun State.wordWrite
  rw [e]
  unfold action
  rw [ctrl_decRun]

theorem write_decStop {s : State} (m : Fin 32) (d : Fin 2) (rest : BitVec 28) (hm : s.mayWrite m (0x180000 + 0x4000 * d.val) .plain = true) :
    ∃ w u, Aside s w ∧ Wrote (0x180000 + 0x4000 * d.val) (2 <<< 28 + rest.toNat) s u ∧ execDecStop m d rest s = .next (u.ctrlAction (12 + d.val) 0 (0x180000 + 0x4000 * d.val) (2 <<< 28 + rest.toNat)) := by
  have l_d := d.isLt
  have l_rest := rest.isLt
  obtain ⟨w, u, hw, hu, e⟩ := write_one (v := (2 <<< 28 + rest.toNat)) (plain_decRun d) hm (by unfold State.ignored; rw [decide_eq_false (by omega)]; rfl)
  refine ⟨w, u, hw, hu, ?_⟩
  unfold execDecStop State.wordWrite
  rw [e]
  unfold action
  rw [ctrl_decRun]

theorem write_decFlush {s : State} (m : Fin 32) (d : Fin 2) (rest : BitVec 28) (hm : s.mayWrite m (0x180000 + 0x4000 * d.val) .plain = true) :
    ∃ w u, Aside s w ∧ Wrote (0x180000 + 0x4000 * d.val) (3 <<< 28 + rest.toNat) s u ∧ execDecFlush m d rest s = .next (u.ctrlAction (12 + d.val) 0 (0x180000 + 0x4000 * d.val) (3 <<< 28 + rest.toNat)) := by
  have l_d := d.isLt
  have l_rest := rest.isLt
  obtain ⟨w, u, hw, hu, e⟩ := write_one (v := (3 <<< 28 + rest.toNat)) (plain_decRun d) hm (by unfold State.ignored; rw [decide_eq_false (by omega)]; rfl)
  refine ⟨w, u, hw, hu, ?_⟩
  unfold execDecFlush State.wordWrite
  rw [e]
  unfold action
  rw [ctrl_decRun]

theorem plain_decInPush : ∀ (d : Fin 2), plainReg (0x180018 + 0x4000 * d.val) = true := by decide +kernel

theorem write_decInPush {s : State} (m : Fin 32) (d : Fin 2) (h : BitVec 16) (hm : s.mayWrite m (0x180018 + 0x4000 * d.val) .plain = true) :
    ∃ w u, Aside s w ∧ Wrote (0x180018 + 0x4000 * d.val) h.toNat s u ∧ execDecInPush m d h s = .next (u.decInPush d.val h.toNat) := by
  have l_d := d.isLt
  have l_h := h.isLt
  obtain ⟨w, u, hw, hu, e⟩ := write_one (v := h.toNat) (plain_decInPush d) hm (by unfold State.ignored; rw [decide_eq_false (by omega)]; rfl)
  refine ⟨w, u, hw, hu, ?_⟩
  unfold execDecInPush State.wordWrite
  rw [e]
  have f0 : bits (h.toNat) 15 0 = h.toNat := by
    simp only [bits, Nat.shiftLeft_eq, Nat.shiftRight_eq_div_pow, Nat.reduceAdd, Nat.reduceSub, Nat.reducePow, Nat.reduceMul]; omega
  clear hm e hu hw
  generalize ha : 0x180018 + 0x4000 * d.val = a
  have hn : ctrlUnit a = none := by
    unfold ctrlUnit
    simp (disch := omega) only [if_neg]
  unfold action
  rw [hn]
  dsimp only
  simp (disch := omega) only [if_neg, if_pos]
  unfold codecAction
  try dsimp only
  try simp (disch := omega) only [if_neg, if_pos, f0, if_true]
  all_goals first | done | (congr 2 <;> omega) | (congr 3 <;> omega) | (congr 4 <;> omega) | (congr 5 <;> omega) | (congr 6 <;> omega)

theorem plain_decOutPush : ∀ (d : Fin 2), plainReg (0x18001C + 0x4000 * d.val) = true := by decide +kernel

theorem write_decOutPush {s : State} (m : Fin 32) (d : Fin 2) (h : BitVec 16) (hm : s.mayWrite m (0x18001C + 0x4000 * d.val) .plain = true) :
    ∃ w u, Aside s w ∧ Wrote (0x18001C + 0x4000 * d.val) h.toNat s u ∧ execDecOutPush m d h s = .next (u.decOutPush d.val h.toNat) := by
  have l_d := d.isLt
  have l_h := h.isLt
  obtain ⟨w, u, hw, hu, e⟩ := write_one (v := h.toNat) (plain_decOutPush d) hm (by unfold State.ignored; rw [decide_eq_false (by omega)]; rfl)
  refine ⟨w, u, hw, hu, ?_⟩
  unfold execDecOutPush State.wordWrite
  rw [e]
  have f0 : bits (h.toNat) 15 0 = h.toNat := by
    simp only [bits, Nat.shiftLeft_eq, Nat.shiftRight_eq_div_pow, Nat.reduceAdd, Nat.reduceSub, Nat.reducePow, Nat.reduceMul]; omega
  clear hm e hu hw
  generalize ha : 0x18001C + 0x4000 * d.val = a
  have hn : ctrlUnit a = none := by
    unfold ctrlUnit
    simp (disch := omega) only [if_neg]
  unfold action
  rw [hn]
  dsimp only
  simp (disch := omega) only [if_neg, if_pos]
  unfold codecAction
  try dsimp only
  try simp (disch := omega) only [if_neg, if_pos, f0, if_true]
  all_goals first | done | (congr 2 <;> omega) | (congr 3 <;> omega) | (congr 4 <;> omega) | (congr 5 <;> omega) | (congr 6 <;> omega)

theorem plain_decDpbPush : ∀ (d : Fin 2), plainReg (0x180020 + 0x4000 * d.val) = true := by decide +kernel

theorem write_decDpbPush {s : State} (m : Fin 32) (d : Fin 2) (h : BitVec 16) (hm : s.mayWrite m (0x180020 + 0x4000 * d.val) .plain = true) :
    ∃ w u, Aside s w ∧ Wrote (0x180020 + 0x4000 * d.val) h.toNat s u ∧ execDecDpbPush m d h s = .next (u.decDpbPush d.val h.toNat) := by
  have l_d := d.isLt
  have l_h := h.isLt
  obtain ⟨w, u, hw, hu, e⟩ := write_one (v := h.toNat) (plain_decDpbPush d) hm (by unfold State.ignored; rw [decide_eq_false (by omega)]; rfl)
  refine ⟨w, u, hw, hu, ?_⟩
  unfold execDecDpbPush State.wordWrite
  rw [e]
  have f0 : bits (h.toNat) 15 0 = h.toNat := by
    simp only [bits, Nat.shiftLeft_eq, Nat.shiftRight_eq_div_pow, Nat.reduceAdd, Nat.reduceSub, Nat.reducePow, Nat.reduceMul]; omega
  clear hm e hu hw
  generalize ha : 0x180020 + 0x4000 * d.val = a
  have hn : ctrlUnit a = none := by
    unfold ctrlUnit
    simp (disch := omega) only [if_neg]
  unfold action
  rw [hn]
  dsimp only
  simp (disch := omega) only [if_neg, if_pos]
  unfold codecAction
  try dsimp only
  try simp (disch := omega) only [if_neg, if_pos, f0, if_true]
  all_goals first | done | (congr 2 <;> omega) | (congr 3 <;> omega) | (congr 4 <;> omega) | (congr 5 <;> omega) | (congr 6 <;> omega)

theorem write_lzeRun {s : State} (m : Fin 32) (rest : BitVec 28) (hm : s.mayWrite m (0x190000) .plain = true) :
    ∃ w u, Aside s w ∧ Wrote (0x190000) (1 <<< 28 + rest.toNat) s u ∧ execLzeRun m rest s = .next (u.ctrlAction 14 0 0x190000 (1 <<< 28 + rest.toNat)) := by
  have l_rest := rest.isLt
  obtain ⟨w, u, hw, hu, e⟩ := write_one (v := (1 <<< 28 + rest.toNat)) (by decide +kernel) hm (by unfold State.ignored; rw [decide_eq_false (by omega)]; rfl)
  refine ⟨w, u, hw, hu, ?_⟩
  unfold execLzeRun State.wordWrite
  rw [e]
  unfold action
  rw [show ctrlUnit 0x190000 = some (14, 0) from by decide +kernel]

theorem write_lzeStop {s : State} (m : Fin 32) (rest : BitVec 28) (hm : s.mayWrite m (0x190000) .plain = true) :
    ∃ w u, Aside s w ∧ Wrote (0x190000) (2 <<< 28 + rest.toNat) s u ∧ execLzeStop m rest s = .next (u.ctrlAction 14 0 0x190000 (2 <<< 28 + rest.toNat)) := by
  have l_rest := rest.isLt
  obtain ⟨w, u, hw, hu, e⟩ := write_one (v := (2 <<< 28 + rest.toNat)) (by decide +kernel) hm (by unfold State.ignored; rw [decide_eq_false (by omega)]; rfl)
  refine ⟨w, u, hw, hu, ?_⟩
  unfold execLzeStop State.wordWrite
  rw [e]
  unfold action
  rw [show ctrlUnit 0x190000 = some (14, 0) from by decide +kernel]

theorem plain_lzePush : ∀ (q : Fin 2), plainReg (0x190010 + 4 * q.val) = true := by decide +kernel

theorem write_lzePush {s : State} (m : Fin 32) (q : Fin 2) (h : BitVec 16) (index : BitVec 16) (hm : s.mayWrite m (0x190010 + 4 * q.val) .plain = true) :
    ∃ w u, Aside s w ∧ Wrote (0x190010 + 4 * q.val) (index.toNat <<< 16 + h.toNat) s u ∧ execLzePush m q h index s = .next (u.lzePush q.val h.toNat index.toNat) := by
  have l_q := q.isLt
  have l_h := h.isLt
  have l_index := index.isLt
  obtain ⟨w, u, hw, hu, e⟩ := write_one (v := (index.toNat <<< 16 + h.toNat)) (plain_lzePush q) hm (by unfold State.ignored; rw [decide_eq_false (by omega)]; rfl)
  refine ⟨w, u, hw, hu, ?_⟩
  unfold execLzePush State.wordWrite
  rw [e]
  have f0 : bits ((index.toNat <<< 16 + h.toNat)) 31 16 = index.toNat := by
    simp only [bits, Nat.shiftLeft_eq, Nat.shiftRight_eq_div_pow, Nat.reduceAdd, Nat.reduceSub, Nat.reducePow, Nat.reduceMul]; omega
  have f1 : bits ((index.toNat <<< 16 + h.toNat)) 15 0 = h.toNat := by
    simp only [bits, Nat.shiftLeft_eq, Nat.shiftRight_eq_div_pow, Nat.reduceAdd, Nat.reduceSub, Nat.reducePow, Nat.reduceMul]; omega
  clear hm e hu hw
  generalize ((index.toNat <<< 16 + h.toNat)) = v_ at *
  generalize ha : 0x190010 + 4 * q.val = a
  have hn : ctrlUnit a = none := by
    unfold ctrlUnit
    simp (disch := omega) only [if_neg]
  rcases (show q.val = 0 ∨ q.val = 1 by omega) with hq | hq
  · unfold action
    rw [hn]
    dsimp only
    simp (disch := omega) only [if_neg, if_pos]
    unfold codecAction
    try dsimp only
    try simp (disch := omega) only [if_neg, if_pos, f0, f1, if_true]
    all_goals try rw [hq]
    all_goals first | done | (congr 2 <;> omega) | (congr 3 <;> omega) | (congr 4 <;> omega) | (congr 5 <;> omega) | (congr 6 <;> omega)
  · unfold action
    rw [hn]
    dsimp only
    simp (disch := omega) only [if_neg, if_pos]
    unfold codecAction
    try dsimp only
    try simp (disch := omega) only [if_neg, if_pos, f0, f1, if_true]
    all_goals try rw [hq]
    all_goals first | done | (congr 2 <;> omega) | (congr 3 <;> omega) | (congr 4 <;> omega) | (congr 5 <;> omega) | (congr 6 <;> omega)

theorem plain_lzeDonePop : ∀ (q : Fin 2), plainReg (0x190120 + 0x40 * q.val) = true := by decide +kernel

theorem write_lzeDonePop {s : State} (m : Fin 32) (q : Fin 2) (v : Word) (hm : s.mayWrite m (0x190120 + 0x40 * q.val) .plain = true) :
    ∃ w u, Aside s w ∧ Wrote (0x190120 + 0x40 * q.val) v.toNat s u ∧ execLzeDonePop m q v s = .next (if bit v.toNat 0 then u.lzePop q.val else u) := by
  have l_q := q.isLt
  have l_v := v.isLt
  obtain ⟨w, u, hw, hu, e⟩ := write_one (v := v.toNat) (plain_lzeDonePop q) hm (by unfold State.ignored; rw [decide_eq_false (by omega)]; rfl)
  refine ⟨w, u, hw, hu, ?_⟩
  unfold execLzeDonePop State.wordWrite
  rw [e]
  clear hm e hu hw
  generalize (v.toNat) = v_ at *
  generalize ha : 0x190120 + 0x40 * q.val = a
  have hn : ctrlUnit a = none := by
    unfold ctrlUnit
    simp (disch := omega) only [if_neg]
  rcases (show q.val = 0 ∨ q.val = 1 by omega) with hq | hq
  · unfold action
    rw [hn]
    dsimp only
    simp (disch := omega) only [if_neg, if_pos]
    unfold codecAction
    try dsimp only
    try simp (disch := omega) only [if_neg, if_pos, if_true]
    all_goals try rw [hq]
    all_goals first | done | (congr 2 <;> omega) | (congr 3 <;> omega) | (congr 4 <;> omega) | (congr 5 <;> omega) | (congr 6 <;> omega)
  · unfold action
    rw [hn]
    dsimp only
    simp (disch := omega) only [if_neg, if_pos]
    unfold codecAction
    try dsimp only
    try simp (disch := omega) only [if_neg, if_pos, if_true]
    all_goals try rw [hq]
    all_goals first | done | (congr 2 <;> omega) | (congr 3 <;> omega) | (congr 4 <;> omega) | (congr 5 <;> omega) | (congr 6 <;> omega)

theorem plain_memRetrain : ∀ (c : Fin 6), plainReg (0x1A0000 + 0x4000 * c.val) = true := by decide +kernel

theorem write_memRetrain {s : State} (m : Fin 32) (c : Fin 6) (rest : BitVec 28) (hm : s.mayWrite m (0x1A0000 + 0x4000 * c.val) .plain = true) :
    ∃ w u, Aside s w ∧ Wrote (0x1A0000 + 0x4000 * c.val) (1 <<< 28 + rest.toNat) s u ∧ execMemRetrain m c rest s = .next (u.memRetrain c.val) := by
  have l_c := c.isLt
  have l_rest := rest.isLt
  obtain ⟨w, u, hw, hu, e⟩ := write_one (v := (1 <<< 28 + rest.toNat)) (plain_memRetrain c) hm (by unfold State.ignored; rw [decide_eq_false (by omega)]; rfl)
  refine ⟨w, u, hw, hu, ?_⟩
  unfold execMemRetrain State.wordWrite
  rw [e]
  have f0 : bits ((1 <<< 28 + rest.toNat)) 31 28 = 1 := by
    simp only [bits, Nat.shiftLeft_eq, Nat.shiftRight_eq_div_pow, Nat.reduceAdd, Nat.reduceSub, Nat.reducePow, Nat.reduceMul]; omega
  clear hm e hu hw
  generalize ((1 <<< 28 + rest.toNat)) = v_ at *
  generalize ha : 0x1A0000 + 0x4000 * c.val = a
  have hn : ctrlUnit a = none := by
    unfold ctrlUnit
    simp (disch := omega) only [if_neg]
  unfold action
  rw [hn]
  dsimp only
  simp (disch := omega) only [if_neg, if_pos]
  unfold memScnAction
  try dsimp only
  rw [if_pos (by omega), if_pos ⟨by omega, f0⟩]
  try simp (disch := omega) only [if_neg, if_pos, f0, if_true]
  all_goals first | done | (congr 2 <;> omega) | (congr 3 <;> omega) | (congr 4 <;> omega) | (congr 5 <;> omega) | (congr 6 <;> omega)

theorem write_scnRun {s : State} (m : Fin 32) (rest : BitVec 28) (hm : s.mayWrite m (0x1C0000) .plain = true) :
    ∃ w u, Aside s w ∧ Wrote (0x1C0000) (1 <<< 28 + rest.toNat) s u ∧ execScnRun m rest s = .next (u.ctrlAction 15 0 0x1C0000 (1 <<< 28 + rest.toNat)) := by
  have l_rest := rest.isLt
  obtain ⟨w, u, hw, hu, e⟩ := write_one (v := (1 <<< 28 + rest.toNat)) (by decide +kernel) hm (by unfold State.ignored; rw [decide_eq_false (by omega)]; rfl)
  refine ⟨w, u, hw, hu, ?_⟩
  unfold execScnRun State.wordWrite
  rw [e]
  unfold action
  rw [show ctrlUnit 0x1C0000 = some (15, 0) from by decide +kernel]

theorem write_scnStop {s : State} (m : Fin 32) (rest : BitVec 28) (hm : s.mayWrite m (0x1C0000) .plain = true) :
    ∃ w u, Aside s w ∧ Wrote (0x1C0000) (2 <<< 28 + rest.toNat) s u ∧ execScnStop m rest s = .next (u.ctrlAction 15 0 0x1C0000 (2 <<< 28 + rest.toNat)) := by
  have l_rest := rest.isLt
  obtain ⟨w, u, hw, hu, e⟩ := write_one (v := (2 <<< 28 + rest.toNat)) (by decide +kernel) hm (by unfold State.ignored; rw [decide_eq_false (by omega)]; rfl)
  refine ⟨w, u, hw, hu, ?_⟩
  unfold execScnStop State.wordWrite
  rw [e]
  unfold action
  rw [show ctrlUnit 0x1C0000 = some (15, 0) from by decide +kernel]

theorem write_scnLoadCmd {s : State} (m : Fin 32) (v : Word) (hm : s.mayWrite m (0x1C002C) .plain = true) :
    ∃ w u, Aside s w ∧ Wrote (0x1C002C) v.toNat s u ∧ execScnLoadCmd m v s = .next (if bit v.toNat 0 then u.scnLoad else u) := by
  have l_v := v.isLt
  obtain ⟨w, u, hw, hu, e⟩ := write_one (v := v.toNat) (by decide +kernel) hm (by unfold State.ignored; rw [decide_eq_false (by omega)]; rfl)
  refine ⟨w, u, hw, hu, ?_⟩
  unfold execScnLoadCmd State.wordWrite
  rw [e]
  clear hm e hu hw
  generalize (v.toNat) = v_ at *
  obtain ⟨a, ha⟩ : ∃ a, a = 0x1C002C := ⟨_, rfl⟩
  rw [← ha]
  have hn : ctrlUnit a = none := by rw [ha]; decide +kernel
  unfold action
  rw [hn]
  dsimp only
  simp (disch := omega) only [if_neg, if_pos]
  unfold memScnAction
  try dsimp only
  try simp (disch := omega) only [if_neg, if_pos, if_true]
  all_goals first | done | (congr 2 <;> omega) | (congr 3 <;> omega) | (congr 4 <;> omega) | (congr 5 <;> omega) | (congr 6 <;> omega)

theorem plain_scnLayerPush : ∀ (l : Fin 16), plainReg (0x1C2024 + 0x80 * l.val) = true := by decide +kernel

theorem write_scnLayerPush {s : State} (m : Fin 32) (l : Fin 16) (h : BitVec 16) (hm : s.mayWrite m (0x1C2024 + 0x80 * l.val) .plain = true) :
    ∃ w u, Aside s w ∧ Wrote (0x1C2024 + 0x80 * l.val) h.toNat s u ∧ execScnLayerPush m l h s = .next (u.scnPush l.val h.toNat) := by
  have l_l := l.isLt
  have l_h := h.isLt
  obtain ⟨w, u, hw, hu, e⟩ := write_one (v := h.toNat) (plain_scnLayerPush l) hm (by unfold State.ignored; rw [decide_eq_false (by omega)]; rfl)
  refine ⟨w, u, hw, hu, ?_⟩
  unfold execScnLayerPush State.wordWrite
  rw [e]
  have f0 : bits (h.toNat) 15 0 = h.toNat := by
    simp only [bits, Nat.shiftLeft_eq, Nat.shiftRight_eq_div_pow, Nat.reduceAdd, Nat.reduceSub, Nat.reducePow, Nat.reduceMul]; omega
  clear hm e hu hw
  generalize ha : 0x1C2024 + 0x80 * l.val = a
  have hn : ctrlUnit a = none := by
    unfold ctrlUnit
    simp (disch := omega) only [if_neg]
  unfold action
  rw [hn]
  dsimp only
  simp (disch := omega) only [if_neg, if_pos]
  unfold memScnAction
  try dsimp only
  try simp (disch := omega) only [if_neg, if_pos, f0, if_true]
  all_goals first | done | (congr 2 <;> omega) | (congr 3 <;> omega) | (congr 4 <;> omega) | (congr 5 <;> omega) | (congr 6 <;> omega)

theorem plain_pcxEnable : ∀ (p : Fin 2), plainReg (0x1D0000 + 0x1000 * p.val) = true := by decide +kernel

theorem ctrl_pcxEnable : ∀ (p : Fin 2), ctrlUnit (0x1D0000 + 0x1000 * p.val) = some (16 + p.val, 0) := by decide +kernel

theorem write_pcxEnable {s : State} (m : Fin 32) (p : Fin 2) (rest : BitVec 28) (hm : s.mayWrite m (0x1D0000 + 0x1000 * p.val) .plain = true) :
    ∃ w u, Aside s w ∧ Wrote (0x1D0000 + 0x1000 * p.val) (1 <<< 28 + rest.toNat) s u ∧ execPcxEnable m p rest s = .next (u.ctrlAction (16 + p.val) 0 (0x1D0000 + 0x1000 * p.val) (1 <<< 28 + rest.toNat)) := by
  have l_p := p.isLt
  have l_rest := rest.isLt
  obtain ⟨w, u, hw, hu, e⟩ := write_one (v := (1 <<< 28 + rest.toNat)) (plain_pcxEnable p) hm (by unfold State.ignored; rw [decide_eq_false (by omega)]; rfl)
  refine ⟨w, u, hw, hu, ?_⟩
  unfold execPcxEnable State.wordWrite
  rw [e]
  unfold action
  rw [ctrl_pcxEnable]

theorem write_pcxDisable {s : State} (m : Fin 32) (p : Fin 2) (rest : BitVec 28) (hm : s.mayWrite m (0x1D0000 + 0x1000 * p.val) .plain = true) :
    ∃ w u, Aside s w ∧ Wrote (0x1D0000 + 0x1000 * p.val) (2 <<< 28 + rest.toNat) s u ∧ execPcxDisable m p rest s = .next (u.ctrlAction (16 + p.val) 0 (0x1D0000 + 0x1000 * p.val) (2 <<< 28 + rest.toNat)) := by
  have l_p := p.isLt
  have l_rest := rest.isLt
  obtain ⟨w, u, hw, hu, e⟩ := write_one (v := (2 <<< 28 + rest.toNat)) (plain_pcxEnable p) hm (by unfold State.ignored; rw [decide_eq_false (by omega)]; rfl)
  refine ⟨w, u, hw, hu, ?_⟩
  unfold execPcxDisable State.wordWrite
  rw [e]
  unfold action
  rw [ctrl_pcxEnable]

theorem plain_pcxEpWin : ∀ (p : Fin 2) (w_ : Fin 4), plainReg (0x1D0050 + 0x1000 * p.val + 4 * w_.val) = true := by decide +kernel

theorem write_pcxEpWin {s : State} (m : Fin 32) (p : Fin 2) (w_ : Fin 4) (h : BitVec 16) (hm : s.mayWrite m (0x1D0050 + 0x1000 * p.val + 4 * w_.val) .plain = true) :
    ∃ w u, Aside s w ∧ Wrote (0x1D0050 + 0x1000 * p.val + 4 * w_.val) h.toNat s u ∧ execPcxEpWin m p w_ h s = .next (u.epWindow p.val w_.val (w.fld (Reg.PCX_EP_WIN_HANDLE p.val w_.val)) h.toNat) := by
  have l_p := p.isLt
  have l_w_ := w_.isLt
  have l_h := h.isLt
  obtain ⟨w, u, hw, hu, e⟩ := write_one (v := h.toNat) (plain_pcxEpWin p w_) hm (by unfold State.ignored; rw [decide_eq_false (by omega)]; rfl)
  refine ⟨w, u, hw, hu, ?_⟩
  unfold execPcxEpWin State.wordWrite
  rw [e]
  have f0 : bits (h.toNat) 15 0 = h.toNat := by
    simp only [bits, Nat.shiftLeft_eq, Nat.shiftRight_eq_div_pow, Nat.reduceAdd, Nat.reduceSub, Nat.reducePow, Nat.reduceMul]; omega
  clear hm e hu hw
  generalize ha : 0x1D0050 + 0x1000 * p.val + 4 * w_.val = a
  have hn : ctrlUnit a = none := by
    unfold ctrlUnit
    simp (disch := omega) only [if_neg]
  unfold action
  rw [hn]
  dsimp only
  simp (disch := omega) only [if_neg, if_pos]
  unfold pcxAction
  try dsimp only
  try simp (disch := omega) only [if_neg, if_pos, f0, if_true]
  all_goals first | done | (congr 2 <;> omega) | (congr 3 <;> omega) | (congr 4 <;> omega) | (congr 5 <;> omega) | (congr 6 <;> omega)

theorem plain_pcxEpIrq : ∀ (p : Fin 2), plainReg (0x1D0060 + 0x1000 * p.val) = true := by decide +kernel

theorem write_pcxEpIrq {s : State} (m : Fin 32) (p : Fin 2) (v : Word) (hm : s.mayWrite m (0x1D0060 + 0x1000 * p.val) .plain = true) :
    ∃ w u, Aside s w ∧ Wrote (0x1D0060 + 0x1000 * p.val) v.toNat s u ∧ execPcxEpIrq m p v s = .next (u.epIrq p.val v.toNat) := by
  have l_p := p.isLt
  have l_v := v.isLt
  obtain ⟨w, u, hw, hu, e⟩ := write_one (v := v.toNat) (plain_pcxEpIrq p) hm (by unfold State.ignored; rw [decide_eq_false (by omega)]; rfl)
  refine ⟨w, u, hw, hu, ?_⟩
  unfold execPcxEpIrq State.wordWrite
  rw [e]
  clear hm e hu hw
  generalize (v.toNat) = v_ at *
  generalize ha : 0x1D0060 + 0x1000 * p.val = a
  have hn : ctrlUnit a = none := by
    unfold ctrlUnit
    simp (disch := omega) only [if_neg]
  unfold action
  rw [hn]
  dsimp only
  simp (disch := omega) only [if_neg, if_pos]
  unfold pcxAction
  try dsimp only
  try simp (disch := omega) only [if_neg, if_pos, if_true]
  all_goals first | done | (congr 2 <;> omega) | (congr 3 <;> omega) | (congr 4 <;> omega) | (congr 5 <;> omega) | (congr 6 <;> omega)

theorem plain_attach : ∀ (d : Fin 8), plainReg (0x1D2000 + 0x100 * d.val) = true := by decide +kernel

theorem write_attach {s : State} (m : Fin 32) (d : Fin 8) (rest : BitVec 28) (hm : s.mayWrite m (0x1D2000 + 0x100 * d.val) .plain = true) :
    ∃ w u, Aside s w ∧ Wrote (0x1D2000 + 0x100 * d.val) (1 <<< 28 + rest.toNat) s u ∧ execAttach m d rest s = .next (u.driveOp d.val 1) := by
  have l_d := d.isLt
  have l_rest := rest.isLt
  obtain ⟨w, u, hw, hu, e⟩ := write_one (v := (1 <<< 28 + rest.toNat)) (plain_attach d) hm (by unfold State.ignored; rw [decide_eq_false (by omega)]; rfl)
  refine ⟨w, u, hw, hu, ?_⟩
  unfold execAttach State.wordWrite
  rw [e]
  have f0 : bits ((1 <<< 28 + rest.toNat)) 31 28 = 1 := by
    simp only [bits, Nat.shiftLeft_eq, Nat.shiftRight_eq_div_pow, Nat.reduceAdd, Nat.reduceSub, Nat.reducePow, Nat.reduceMul]; omega
  clear hm e hu hw
  generalize ((1 <<< 28 + rest.toNat)) = v_ at *
  generalize ha : 0x1D2000 + 0x100 * d.val = a
  have hn : ctrlUnit a = none := by
    unfold ctrlUnit
    simp (disch := omega) only [if_neg]
  unfold action
  rw [hn]
  dsimp only
  simp (disch := omega) only [if_neg, if_pos]
  unfold pcxAction
  try dsimp only
  try simp (disch := omega) only [if_neg, if_pos, f0, if_true]
  all_goals first | done | (congr 2 <;> omega) | (congr 3 <;> omega) | (congr 4 <;> omega) | (congr 5 <;> omega) | (congr 6 <;> omega)

theorem write_detach {s : State} (m : Fin 32) (d : Fin 8) (rest : BitVec 28) (hm : s.mayWrite m (0x1D2000 + 0x100 * d.val) .plain = true) :
    ∃ w u, Aside s w ∧ Wrote (0x1D2000 + 0x100 * d.val) (2 <<< 28 + rest.toNat) s u ∧ execDetach m d rest s = .next (u.driveOp d.val 2) := by
  have l_d := d.isLt
  have l_rest := rest.isLt
  obtain ⟨w, u, hw, hu, e⟩ := write_one (v := (2 <<< 28 + rest.toNat)) (plain_attach d) hm (by unfold State.ignored; rw [decide_eq_false (by omega)]; rfl)
  refine ⟨w, u, hw, hu, ?_⟩
  unfold execDetach State.wordWrite
  rw [e]
  have f0 : bits ((2 <<< 28 + rest.toNat)) 31 28 = 2 := by
    simp only [bits, Nat.shiftLeft_eq, Nat.shiftRight_eq_div_pow, Nat.reduceAdd, Nat.reduceSub, Nat.reducePow, Nat.reduceMul]; omega
  clear hm e hu hw
  generalize ((2 <<< 28 + rest.toNat)) = v_ at *
  generalize ha : 0x1D2000 + 0x100 * d.val = a
  have hn : ctrlUnit a = none := by
    unfold ctrlUnit
    simp (disch := omega) only [if_neg]
  unfold action
  rw [hn]
  dsimp only
  simp (disch := omega) only [if_neg, if_pos]
  unfold pcxAction
  try dsimp only
  try simp (disch := omega) only [if_neg, if_pos, f0, if_true]
  all_goals first | done | (congr 2 <;> omega) | (congr 3 <;> omega) | (congr 4 <;> omega) | (congr 5 <;> omega) | (congr 6 <;> omega)

theorem plain_format : ∀ (v : Fin 4), plainReg (0x1D3000 + 0x100 * v.val) = true := by decide +kernel

theorem write_format {s : State} (m : Fin 32) (v : Fin 4) (rest : BitVec 28) (hm : s.mayWrite m (0x1D3000 + 0x100 * v.val) .plain = true) :
    ∃ w u, Aside s w ∧ Wrote (0x1D3000 + 0x100 * v.val) (1 <<< 28 + rest.toNat) s u ∧ execFormat m v rest s = .next (u.volOp v.val 1) := by
  have l_v := v.isLt
  have l_rest := rest.isLt
  obtain ⟨w, u, hw, hu, e⟩ := write_one (v := (1 <<< 28 + rest.toNat)) (plain_format v) hm (by unfold State.ignored; rw [decide_eq_false (by omega)]; rfl)
  refine ⟨w, u, hw, hu, ?_⟩
  unfold execFormat State.wordWrite
  rw [e]
  have f0 : bits ((1 <<< 28 + rest.toNat)) 31 28 = 1 := by
    simp only [bits, Nat.shiftLeft_eq, Nat.shiftRight_eq_div_pow, Nat.reduceAdd, Nat.reduceSub, Nat.reducePow, Nat.reduceMul]; omega
  clear hm e hu hw
  generalize ((1 <<< 28 + rest.toNat)) = v_ at *
  generalize ha : 0x1D3000 + 0x100 * v.val = a
  have hn : ctrlUnit a = none := by
    unfold ctrlUnit
    simp (disch := omega) only [if_neg]
  unfold action
  rw [hn]
  dsimp only
  simp (disch := omega) only [if_neg, if_pos]
  unfold pcxAction
  try dsimp only
  try simp (disch := omega) only [if_neg, if_pos, f0, if_true]
  all_goals first | done | (congr 2 <;> omega) | (congr 3 <;> omega) | (congr 4 <;> omega) | (congr 5 <;> omega) | (congr 6 <;> omega)

theorem write_mount {s : State} (m : Fin 32) (v : Fin 4) (rest : BitVec 28) (hm : s.mayWrite m (0x1D3000 + 0x100 * v.val) .plain = true) :
    ∃ w u, Aside s w ∧ Wrote (0x1D3000 + 0x100 * v.val) (2 <<< 28 + rest.toNat) s u ∧ execMount m v rest s = .next (u.volOp v.val 2) := by
  have l_v := v.isLt
  have l_rest := rest.isLt
  obtain ⟨w, u, hw, hu, e⟩ := write_one (v := (2 <<< 28 + rest.toNat)) (plain_format v) hm (by unfold State.ignored; rw [decide_eq_false (by omega)]; rfl)
  refine ⟨w, u, hw, hu, ?_⟩
  unfold execMount State.wordWrite
  rw [e]
  have f0 : bits ((2 <<< 28 + rest.toNat)) 31 28 = 2 := by
    simp only [bits, Nat.shiftLeft_eq, Nat.shiftRight_eq_div_pow, Nat.reduceAdd, Nat.reduceSub, Nat.reducePow, Nat.reduceMul]; omega
  clear hm e hu hw
  generalize ((2 <<< 28 + rest.toNat)) = v_ at *
  generalize ha : 0x1D3000 + 0x100 * v.val = a
  have hn : ctrlUnit a = none := by
    unfold ctrlUnit
    simp (disch := omega) only [if_neg]
  unfold action
  rw [hn]
  dsimp only
  simp (disch := omega) only [if_neg, if_pos]
  unfold pcxAction
  try dsimp only
  try simp (disch := omega) only [if_neg, if_pos, f0, if_true]
  all_goals first | done | (congr 2 <;> omega) | (congr 3 <;> omega) | (congr 4 <;> omega) | (congr 5 <;> omega) | (congr 6 <;> omega)

theorem write_unmount {s : State} (m : Fin 32) (v : Fin 4) (rest : BitVec 28) (hm : s.mayWrite m (0x1D3000 + 0x100 * v.val) .plain = true) :
    ∃ w u, Aside s w ∧ Wrote (0x1D3000 + 0x100 * v.val) (3 <<< 28 + rest.toNat) s u ∧ execUnmount m v rest s = .next (u.volOp v.val 3) := by
  have l_v := v.isLt
  have l_rest := rest.isLt
  obtain ⟨w, u, hw, hu, e⟩ := write_one (v := (3 <<< 28 + rest.toNat)) (plain_format v) hm (by unfold State.ignored; rw [decide_eq_false (by omega)]; rfl)
  refine ⟨w, u, hw, hu, ?_⟩
  unfold execUnmount State.wordWrite
  rw [e]
  have f0 : bits ((3 <<< 28 + rest.toNat)) 31 28 = 3 := by
    simp only [bits, Nat.shiftLeft_eq, Nat.shiftRight_eq_div_pow, Nat.reduceAdd, Nat.reduceSub, Nat.reducePow, Nat.reduceMul]; omega
  clear hm e hu hw
  generalize ((3 <<< 28 + rest.toNat)) = v_ at *
  generalize ha : 0x1D3000 + 0x100 * v.val = a
  have hn : ctrlUnit a = none := by
    unfold ctrlUnit
    simp (disch := omega) only [if_neg]
  unfold action
  rw [hn]
  dsimp only
  simp (disch := omega) only [if_neg, if_pos]
  unfold pcxAction
  try dsimp only
  try simp (disch := omega) only [if_neg, if_pos, f0, if_true]
  all_goals first | done | (congr 2 <;> omega) | (congr 3 <;> omega) | (congr 4 <;> omega) | (congr 5 <;> omega) | (congr 6 <;> omega)

theorem plain_pcxVolPush : ∀ (v : Fin 4), plainReg (0x1D3028 + 0x100 * v.val) = true := by decide +kernel

theorem write_pcxVolPush {s : State} (m : Fin 32) (v : Fin 4) (h index : BitVec 16) (hm : s.mayWrite m (0x1D3028 + 0x100 * v.val) .plain = true) :
    ∃ w u, Aside s w ∧ Wrote (0x1D3028 + 0x100 * v.val) (index.toNat <<< 16 + h.toNat) s u ∧ execPcxVolPush m v h index s = .next (u.volPush v.val h.toNat index.toNat) := by
  have l_v := v.isLt
  have l_h := h.isLt
  have l_index := index.isLt
  obtain ⟨w, u, hw, hu, e⟩ := write_one (v := (index.toNat <<< 16 + h.toNat)) (plain_pcxVolPush v) hm (by unfold State.ignored; rw [decide_eq_false (by omega)]; rfl)
  refine ⟨w, u, hw, hu, ?_⟩
  unfold execPcxVolPush State.wordWrite
  rw [e]
  have f0 : bits ((index.toNat <<< 16 + h.toNat)) 31 16 = index.toNat := by
    simp only [bits, Nat.shiftLeft_eq, Nat.shiftRight_eq_div_pow, Nat.reduceAdd, Nat.reduceSub, Nat.reducePow, Nat.reduceMul]; omega
  have f1 : bits ((index.toNat <<< 16 + h.toNat)) 15 0 = h.toNat := by
    simp only [bits, Nat.shiftLeft_eq, Nat.shiftRight_eq_div_pow, Nat.reduceAdd, Nat.reduceSub, Nat.reducePow, Nat.reduceMul]; omega
  clear hm e hu hw
  generalize ((index.toNat <<< 16 + h.toNat)) = v_ at *
  generalize ha : 0x1D3028 + 0x100 * v.val = a
  have hn : ctrlUnit a = none := by
    unfold ctrlUnit
    simp (disch := omega) only [if_neg]
  unfold action
  rw [hn]
  dsimp only
  simp (disch := omega) only [if_neg, if_pos]
  unfold pcxAction
  try dsimp only
  try simp (disch := omega) only [if_neg, if_pos, f0, f1, if_true]
  all_goals first | done | (congr 2 <;> omega) | (congr 3 <;> omega) | (congr 4 <;> omega) | (congr 5 <;> omega) | (congr 6 <;> omega)

theorem plain_netEnable : ∀ (q : Fin 2), plainReg (0x1E0000 + 0x4000 * q.val) = true := by decide +kernel

theorem ctrl_netEnable : ∀ (q : Fin 2), ctrlUnit (0x1E0000 + 0x4000 * q.val) = some (18 + q.val, 0) := by decide +kernel

theorem write_netEnable {s : State} (m : Fin 32) (q : Fin 2) (rest : BitVec 28) (hm : s.mayWrite m (0x1E0000 + 0x4000 * q.val) .plain = true) :
    ∃ w u, Aside s w ∧ Wrote (0x1E0000 + 0x4000 * q.val) (1 <<< 28 + rest.toNat) s u ∧ execNetEnable m q rest s = .next (u.ctrlAction (18 + q.val) 0 (0x1E0000 + 0x4000 * q.val) (1 <<< 28 + rest.toNat)) := by
  have l_q := q.isLt
  have l_rest := rest.isLt
  obtain ⟨w, u, hw, hu, e⟩ := write_one (v := (1 <<< 28 + rest.toNat)) (plain_netEnable q) hm (by unfold State.ignored; rw [decide_eq_false (by omega)]; rfl)
  refine ⟨w, u, hw, hu, ?_⟩
  unfold execNetEnable State.wordWrite
  rw [e]
  unfold action
  rw [ctrl_netEnable]

theorem write_netDisable {s : State} (m : Fin 32) (q : Fin 2) (rest : BitVec 28) (hm : s.mayWrite m (0x1E0000 + 0x4000 * q.val) .plain = true) :
    ∃ w u, Aside s w ∧ Wrote (0x1E0000 + 0x4000 * q.val) (2 <<< 28 + rest.toNat) s u ∧ execNetDisable m q rest s = .next (u.ctrlAction (18 + q.val) 0 (0x1E0000 + 0x4000 * q.val) (2 <<< 28 + rest.toNat)) := by
  have l_q := q.isLt
  have l_rest := rest.isLt
  obtain ⟨w, u, hw, hu, e⟩ := write_one (v := (2 <<< 28 + rest.toNat)) (plain_netEnable q) hm (by unfold State.ignored; rw [decide_eq_false (by omega)]; rfl)
  refine ⟨w, u, hw, hu, ?_⟩
  unfold execNetDisable State.wordWrite
  rw [e]
  unfold action
  rw [ctrl_netEnable]

theorem plain_netTxPush : ∀ (q : Fin 2) (t : Fin 32), plainReg (0x1E1024 + 0x4000 * q.val + 0x40 * t.val) = true := by decide +kernel

theorem write_netTxPush {s : State} (m : Fin 32) (q : Fin 2) (t : Fin 32) (h : BitVec 16) (hm : s.mayWrite m (0x1E1024 + 0x4000 * q.val + 0x40 * t.val) .plain = true) :
    ∃ w u, Aside s w ∧ Wrote (0x1E1024 + 0x4000 * q.val + 0x40 * t.val) h.toNat s u ∧ execNetTxPush m q t h s = .next (u.netTxPush q.val t.val h.toNat) := by
  have l_q := q.isLt
  have l_t := t.isLt
  have l_h := h.isLt
  obtain ⟨w, u, hw, hu, e⟩ := write_one (v := h.toNat) (plain_netTxPush q t) hm (by unfold State.ignored; rw [decide_eq_false (by omega)]; rfl)
  refine ⟨w, u, hw, hu, ?_⟩
  unfold execNetTxPush State.wordWrite
  rw [e]
  have f0 : bits (h.toNat) 15 0 = h.toNat := by
    simp only [bits, Nat.shiftLeft_eq, Nat.shiftRight_eq_div_pow, Nat.reduceAdd, Nat.reduceSub, Nat.reducePow, Nat.reduceMul]; omega
  clear hm e hu hw
  generalize ha : 0x1E1024 + 0x4000 * q.val + 0x40 * t.val = a
  have hn : ctrlUnit a = none := by
    unfold ctrlUnit
    simp (disch := omega) only [if_neg]
  unfold action
  rw [hn]
  dsimp only
  simp (disch := omega) only [if_neg, if_pos]
  unfold netAction
  try dsimp only
  try simp (disch := omega) only [if_neg, if_pos, f0, if_true]
  all_goals first | done | (congr 2 <;> omega) | (congr 3 <;> omega) | (congr 4 <;> omega) | (congr 5 <;> omega) | (congr 6 <;> omega)

theorem plain_netRxPush : ∀ (q : Fin 2) (r : Fin 16), plainReg (0x1E2010 + 0x4000 * q.val + 0x40 * r.val) = true := by decide +kernel

theorem write_netRxPush {s : State} (m : Fin 32) (q : Fin 2) (r : Fin 16) (h : BitVec 16) (hm : s.mayWrite m (0x1E2010 + 0x4000 * q.val + 0x40 * r.val) .plain = true) :
    ∃ w u, Aside s w ∧ Wrote (0x1E2010 + 0x4000 * q.val + 0x40 * r.val) h.toNat s u ∧ execNetRxPush m q r h s = .next (u.netRxPush q.val r.val h.toNat) := by
  have l_q := q.isLt
  have l_r := r.isLt
  have l_h := h.isLt
  obtain ⟨w, u, hw, hu, e⟩ := write_one (v := h.toNat) (plain_netRxPush q r) hm (by unfold State.ignored; rw [decide_eq_false (by omega)]; rfl)
  refine ⟨w, u, hw, hu, ?_⟩
  unfold execNetRxPush State.wordWrite
  rw [e]
  have f0 : bits (h.toNat) 15 0 = h.toNat := by
    simp only [bits, Nat.shiftLeft_eq, Nat.shiftRight_eq_div_pow, Nat.reduceAdd, Nat.reduceSub, Nat.reducePow, Nat.reduceMul]; omega
  clear hm e hu hw
  generalize ha : 0x1E2010 + 0x4000 * q.val + 0x40 * r.val = a
  have hn : ctrlUnit a = none := by
    unfold ctrlUnit
    simp (disch := omega) only [if_neg]
  unfold action
  rw [hn]
  dsimp only
  simp (disch := omega) only [if_neg, if_pos]
  unfold netAction
  try dsimp only
  try simp (disch := omega) only [if_neg, if_pos, f0, if_true]
  all_goals first | done | (congr 2 <;> omega) | (congr 3 <;> omega) | (congr 4 <;> omega) | (congr 5 <;> omega) | (congr 6 <;> omega)

theorem plain_audStart : ∀ (p : Fin 16), plainReg (0x1F1000 + 0x100 * p.val) = true := by decide +kernel

theorem ctrl_audStart : ∀ (p : Fin 16), ctrlUnit (0x1F1000 + 0x100 * p.val) = some (20, p.val) := by decide +kernel

theorem write_audStart {s : State} (m : Fin 32) (p : Fin 16) (rest : BitVec 28) (hm : s.mayWrite m (0x1F1000 + 0x100 * p.val) .plain = true) :
    ∃ w u, Aside s w ∧ Wrote (0x1F1000 + 0x100 * p.val) (1 <<< 28 + rest.toNat) s u ∧ execAudStart m p rest s = .next (u.ctrlAction 20 p.val (0x1F1000 + 0x100 * p.val) (1 <<< 28 + rest.toNat)) := by
  have l_p := p.isLt
  have l_rest := rest.isLt
  obtain ⟨w, u, hw, hu, e⟩ := write_one (v := (1 <<< 28 + rest.toNat)) (plain_audStart p) hm (by unfold State.ignored; rw [decide_eq_false (by omega)]; rfl)
  refine ⟨w, u, hw, hu, ?_⟩
  unfold execAudStart State.wordWrite
  rw [e]
  unfold action
  rw [ctrl_audStart]

theorem write_audStop {s : State} (m : Fin 32) (p : Fin 16) (rest : BitVec 28) (hm : s.mayWrite m (0x1F1000 + 0x100 * p.val) .plain = true) :
    ∃ w u, Aside s w ∧ Wrote (0x1F1000 + 0x100 * p.val) (2 <<< 28 + rest.toNat) s u ∧ execAudStop m p rest s = .next (u.ctrlAction 20 p.val (0x1F1000 + 0x100 * p.val) (2 <<< 28 + rest.toNat)) := by
  have l_p := p.isLt
  have l_rest := rest.isLt
  obtain ⟨w, u, hw, hu, e⟩ := write_one (v := (2 <<< 28 + rest.toNat)) (plain_audStart p) hm (by unfold State.ignored; rw [decide_eq_false (by omega)]; rfl)
  refine ⟨w, u, hw, hu, ?_⟩
  unfold execAudStop State.wordWrite
  rw [e]
  unfold action
  rw [ctrl_audStart]

theorem write_audAbort {s : State} (m : Fin 32) (p : Fin 16) (rest : BitVec 28) (hm : s.mayWrite m (0x1F1000 + 0x100 * p.val) .plain = true) :
    ∃ w u, Aside s w ∧ Wrote (0x1F1000 + 0x100 * p.val) (3 <<< 28 + rest.toNat) s u ∧ execAudAbort m p rest s = .next (u.ctrlAction 20 p.val (0x1F1000 + 0x100 * p.val) (3 <<< 28 + rest.toNat)) := by
  have l_p := p.isLt
  have l_rest := rest.isLt
  obtain ⟨w, u, hw, hu, e⟩ := write_one (v := (3 <<< 28 + rest.toNat)) (plain_audStart p) hm (by unfold State.ignored; rw [decide_eq_false (by omega)]; rfl)
  refine ⟨w, u, hw, hu, ?_⟩
  unfold execAudAbort State.wordWrite
  rw [e]
  unfold action
  rw [ctrl_audStart]

theorem plain_audPush : ∀ (p : Fin 16), plainReg (0x1F1020 + 0x100 * p.val) = true := by decide +kernel

theorem write_audPush {s : State} (m : Fin 32) (p : Fin 16) (h : BitVec 16) (hm : s.mayWrite m (0x1F1020 + 0x100 * p.val) .plain = true) :
    ∃ w u, Aside s w ∧ Wrote (0x1F1020 + 0x100 * p.val) h.toNat s u ∧ execAudPush m p h s = .next (u.audPush p.val h.toNat) := by
  have l_p := p.isLt
  have l_h := h.isLt
  obtain ⟨w, u, hw, hu, e⟩ := write_one (v := h.toNat) (plain_audPush p) hm (by unfold State.ignored; rw [decide_eq_false (by omega)]; rfl)
  refine ⟨w, u, hw, hu, ?_⟩
  unfold execAudPush State.wordWrite
  rw [e]
  have f0 : bits (h.toNat) 15 0 = h.toNat := by
    simp only [bits, Nat.shiftLeft_eq, Nat.shiftRight_eq_div_pow, Nat.reduceAdd, Nat.reduceSub, Nat.reducePow, Nat.reduceMul]; omega
  clear hm e hu hw
  generalize ha : 0x1F1020 + 0x100 * p.val = a
  have hn : ctrlUnit a = none := by
    unfold ctrlUnit
    simp (disch := omega) only [if_neg]
  unfold action
  rw [hn]
  dsimp only
  simp (disch := omega) only [if_neg, if_pos]
  unfold audAction
  try dsimp only
  try simp (disch := omega) only [if_neg, if_pos, f0, if_true]
  all_goals first | done | (congr 2 <;> omega) | (congr 3 <;> omega) | (congr 4 <;> omega) | (congr 5 <;> omega) | (congr 6 <;> omega)

theorem plain_twbEnable : ∀ (b : Fin 8), plainReg (0x1F8000 + 0x200 * b.val) = true := by decide +kernel

theorem write_twbEnable {s : State} (m : Fin 32) (b : Fin 8) (rest : BitVec 28) (line : TwbLine) (hm : s.mayWrite m (0x1F8000 + 0x200 * b.val) { line := some line } = true) :
    ∃ w u, Aside s w ∧ Wrote (0x1F8000 + 0x200 * b.val) (1 <<< 28 + rest.toNat) s u ∧ execTwbEnable m b rest line s = .next (u.twbOp b.val 1 line) := by
  have l_b := b.isLt
  have l_rest := rest.isLt
  obtain ⟨w, u, hw, hu, e⟩ := write_one (v := (1 <<< 28 + rest.toNat)) (plain_twbEnable b) hm (by unfold State.ignored; rw [decide_eq_false (by omega)]; rfl)
  refine ⟨w, u, hw, hu, ?_⟩
  unfold execTwbEnable
  rw [e]
  have f0 : bits ((1 <<< 28 + rest.toNat)) 31 28 = 1 := by
    simp only [bits, Nat.shiftLeft_eq, Nat.shiftRight_eq_div_pow, Nat.reduceAdd, Nat.reduceSub, Nat.reducePow, Nat.reduceMul]; omega
  clear hm e hu hw
  generalize ((1 <<< 28 + rest.toNat)) = v_ at *
  generalize ha : 0x1F8000 + 0x200 * b.val = a
  have hn : ctrlUnit a = none := by
    unfold ctrlUnit
    simp (disch := omega) only [if_neg]
  unfold action
  rw [hn]
  dsimp only
  simp (disch := omega) only [if_neg, if_pos]
  unfold twbAction
  try dsimp only
  try simp (disch := omega) only [if_neg, if_pos, f0, if_true]
  all_goals first | done | (congr 2 <;> omega) | (congr 3 <;> omega) | (congr 4 <;> omega) | (congr 5 <;> omega) | (congr 6 <;> omega)

theorem write_twbClear {s : State} (m : Fin 32) (b : Fin 8) (rest : BitVec 28) (line : TwbLine) (hm : s.mayWrite m (0x1F8000 + 0x200 * b.val) { line := some line } = true) :
    ∃ w u, Aside s w ∧ Wrote (0x1F8000 + 0x200 * b.val) (3 <<< 28 + rest.toNat) s u ∧ execTwbClear m b rest line s = .next (u.twbOp b.val 3 line) := by
  have l_b := b.isLt
  have l_rest := rest.isLt
  obtain ⟨w, u, hw, hu, e⟩ := write_one (v := (3 <<< 28 + rest.toNat)) (plain_twbEnable b) hm (by unfold State.ignored; rw [decide_eq_false (by omega)]; rfl)
  refine ⟨w, u, hw, hu, ?_⟩
  unfold execTwbClear
  rw [e]
  have f0 : bits ((3 <<< 28 + rest.toNat)) 31 28 = 3 := by
    simp only [bits, Nat.shiftLeft_eq, Nat.shiftRight_eq_div_pow, Nat.reduceAdd, Nat.reduceSub, Nat.reducePow, Nat.reduceMul]; omega
  clear hm e hu hw
  generalize ((3 <<< 28 + rest.toNat)) = v_ at *
  generalize ha : 0x1F8000 + 0x200 * b.val = a
  have hn : ctrlUnit a = none := by
    unfold ctrlUnit
    simp (disch := omega) only [if_neg]
  unfold action
  rw [hn]
  dsimp only
  simp (disch := omega) only [if_neg, if_pos]
  unfold twbAction
  try dsimp only
  try simp (disch := omega) only [if_neg, if_pos, f0, if_true]
  all_goals first | done | (congr 2 <;> omega) | (congr 3 <;> omega) | (congr 4 <;> omega) | (congr 5 <;> omega) | (congr 6 <;> omega)

theorem write_twbDisable {s : State} (m : Fin 32) (b : Fin 8) (rest : BitVec 28) (hm : s.mayWrite m (0x1F8000 + 0x200 * b.val) .plain = true) :
    ∃ w u, Aside s w ∧ Wrote (0x1F8000 + 0x200 * b.val) (2 <<< 28 + rest.toNat) s u ∧ execTwbDisable m b rest s = .next (u.nextFree.twbOp b.val 2 (u.shownLine b.val)) := by
  have l_b := b.isLt
  have l_rest := rest.isLt
  obtain ⟨w, u, hw, hu, e⟩ := write_one (v := (2 <<< 28 + rest.toNat)) (plain_twbEnable b) hm (by unfold State.ignored; rw [decide_eq_false (by omega)]; rfl)
  refine ⟨w, u, hw, hu, ?_⟩
  unfold execTwbDisable State.wordWrite
  rw [e]
  have f0 : bits ((2 <<< 28 + rest.toNat)) 31 28 = 2 := by
    simp only [bits, Nat.shiftLeft_eq, Nat.shiftRight_eq_div_pow, Nat.reduceAdd, Nat.reduceSub, Nat.reducePow, Nat.reduceMul]; omega
  clear hm e hu hw
  generalize ((2 <<< 28 + rest.toNat)) = v_ at *
  generalize ha : 0x1F8000 + 0x200 * b.val = a
  have hn : ctrlUnit a = none := by
    unfold ctrlUnit
    simp (disch := omega) only [if_neg]
  unfold action
  rw [hn]
  dsimp only
  simp (disch := omega) only [if_neg, if_pos]
  unfold twbAction
  try dsimp only
  rw [if_pos (show (a - 0x1F8000) % 0x200 = 0 by omega)]
  simp only [WriteEnv.plain]
  rw [f0, show (a - 0x1F8000) / 0x200 = b.val by omega]
  try simp (disch := omega) only [if_neg, if_pos, f0, if_true]
  all_goals first | done | (congr 2 <;> omega) | (congr 3 <;> omega) | (congr 4 <;> omega) | (congr 5 <;> omega) | (congr 6 <;> omega)

theorem write_twbAbort {s : State} (m : Fin 32) (b : Fin 8) (rest : BitVec 28) (hm : s.mayWrite m (0x1F8000 + 0x200 * b.val) .plain = true) :
    ∃ w u, Aside s w ∧ Wrote (0x1F8000 + 0x200 * b.val) (4 <<< 28 + rest.toNat) s u ∧ execTwbAbort m b rest s = .next (u.nextFree.twbOp b.val 4 (u.shownLine b.val)) := by
  have l_b := b.isLt
  have l_rest := rest.isLt
  obtain ⟨w, u, hw, hu, e⟩ := write_one (v := (4 <<< 28 + rest.toNat)) (plain_twbEnable b) hm (by unfold State.ignored; rw [decide_eq_false (by omega)]; rfl)
  refine ⟨w, u, hw, hu, ?_⟩
  unfold execTwbAbort State.wordWrite
  rw [e]
  have f0 : bits ((4 <<< 28 + rest.toNat)) 31 28 = 4 := by
    simp only [bits, Nat.shiftLeft_eq, Nat.shiftRight_eq_div_pow, Nat.reduceAdd, Nat.reduceSub, Nat.reducePow, Nat.reduceMul]; omega
  clear hm e hu hw
  generalize ((4 <<< 28 + rest.toNat)) = v_ at *
  generalize ha : 0x1F8000 + 0x200 * b.val = a
  have hn : ctrlUnit a = none := by
    unfold ctrlUnit
    simp (disch := omega) only [if_neg]
  unfold action
  rw [hn]
  dsimp only
  simp (disch := omega) only [if_neg, if_pos]
  unfold twbAction
  try dsimp only
  rw [if_pos (show (a - 0x1F8000) % 0x200 = 0 by omega)]
  simp only [WriteEnv.plain]
  rw [f0, show (a - 0x1F8000) / 0x200 = b.val by omega]
  try simp (disch := omega) only [if_neg, if_pos, f0, if_true]
  all_goals first | done | (congr 2 <;> omega) | (congr 3 <;> omega) | (congr 4 <;> omega) | (congr 5 <;> omega) | (congr 6 <;> omega)

theorem plain_twbXfer : ∀ (b : Fin 8), plainReg (0x1F8010 + 0x200 * b.val) = true := by decide +kernel

theorem write_twbXfer {s : State} (m : Fin 32) (b : Fin 8) (rest : BitVec 31) (hm : s.mayWrite m (0x1F8010 + 0x200 * b.val) .plain = true) :
    ∃ w u, Aside s w ∧ Wrote (0x1F8010 + 0x200 * b.val) (1 <<< 31 + rest.toNat) s u ∧ execTwbXfer m b rest s = .next (u.twbGo b.val (bit rest.toNat 30) (bits rest.toNat 25 16) (bits rest.toNat 11 8) (bits rest.toNat 3 0)) := by
  have l_b := b.isLt
  have l_rest := rest.isLt
  obtain ⟨w, u, hw, hu, e⟩ := write_one (v := (1 <<< 31 + rest.toNat)) (plain_twbXfer b) hm (by unfold State.ignored; rw [decide_eq_false (by omega)]; rfl)
  refine ⟨w, u, hw, hu, ?_⟩
  unfold execTwbXfer State.wordWrite
  rw [e]
  have g0 : bit (1 <<< 31 + rest.toNat) 31 = true := by rw [bit_eq]; simp only [Nat.shiftLeft_eq, Nat.reducePow]; exact decide_eq_true (by omega)
  have g1 : bit (1 <<< 31 + rest.toNat) 30 = bit rest.toNat 30 := by rw [bit_eq, bit_eq]; simp only [Nat.shiftLeft_eq, Nat.reducePow]; congr 1; apply propext; omega
  have f0 : bits (1 <<< 31 + rest.toNat) 25 16 = bits rest.toNat 25 16 := by
    simp only [bits, Nat.shiftLeft_eq, Nat.shiftRight_eq_div_pow, Nat.reduceAdd, Nat.reduceSub, Nat.reducePow, Nat.reduceMul]; omega
  have f1 : bits (1 <<< 31 + rest.toNat) 11 8 = bits rest.toNat 11 8 := by
    simp only [bits, Nat.shiftLeft_eq, Nat.shiftRight_eq_div_pow, Nat.reduceAdd, Nat.reduceSub, Nat.reducePow, Nat.reduceMul]; omega
  have f2 : bits (1 <<< 31 + rest.toNat) 3 0 = bits rest.toNat 3 0 := by
    simp only [bits, Nat.shiftLeft_eq, Nat.shiftRight_eq_div_pow, Nat.reduceAdd, Nat.reduceSub, Nat.reducePow, Nat.reduceMul]; omega
  clear hm e hu hw
  generalize ((1 <<< 31 + rest.toNat)) = v_ at *
  generalize ha : 0x1F8010 + 0x200 * b.val = a
  have hn : ctrlUnit a = none := by
    unfold ctrlUnit
    simp (disch := omega) only [if_neg]
  unfold action
  rw [hn]
  dsimp only
  simp (disch := omega) only [if_neg, if_pos]
  unfold twbAction
  try dsimp only
  try simp (disch := omega) only [if_neg, if_pos, f0, f1, f2, g0, g1, if_true]
  all_goals first | done | (congr 2 <;> omega) | (congr 3 <;> omega) | (congr 4 <;> omega) | (congr 5 <;> omega) | (congr 6 <;> omega)

theorem plain_twbAlert : ∀ (b : Fin 8), plainReg (0x1F8034 + 0x200 * b.val) = true := by decide +kernel

theorem write_twbAlert {s : State} (m : Fin 32) (b : Fin 8) (rest : BitVec 31) (hm : s.mayWrite m (0x1F8034 + 0x200 * b.val) .plain = true) :
    ∃ w u, Aside s w ∧ Wrote (0x1F8034 + 0x200 * b.val) (1 <<< 31 + rest.toNat) s u ∧ execTwbAlert m b rest s = .next (u.twbAlert b.val) := by
  have l_b := b.isLt
  have l_rest := rest.isLt
  obtain ⟨w, u, hw, hu, e⟩ := write_one (v := (1 <<< 31 + rest.toNat)) (plain_twbAlert b) hm (by unfold State.ignored; rw [decide_eq_false (by omega)]; rfl)
  refine ⟨w, u, hw, hu, ?_⟩
  unfold execTwbAlert State.wordWrite
  rw [e]
  have g0 : bit (1 <<< 31 + rest.toNat) 31 = true := by rw [bit_eq]; simp only [Nat.shiftLeft_eq, Nat.reducePow]; exact decide_eq_true (by omega)
  clear hm e hu hw
  generalize ((1 <<< 31 + rest.toNat)) = v_ at *
  generalize ha : 0x1F8034 + 0x200 * b.val = a
  have hn : ctrlUnit a = none := by
    unfold ctrlUnit
    simp (disch := omega) only [if_neg]
  unfold action
  rw [hn]
  dsimp only
  simp (disch := omega) only [if_neg, if_pos]
  unfold twbAction
  try dsimp only
  try simp (disch := omega) only [if_neg, if_pos, g0, if_true]
  all_goals first | done | (congr 2 <;> omega) | (congr 3 <;> omega) | (congr 4 <;> omega) | (congr 5 <;> omega) | (congr 6 <;> omega)

theorem write_certLoad {s : State} (m : Fin 32) (rest : BitVec 28) (hm : s.mayWrite m (0x40000) .plain = true) :
    ∃ w u, Aside s w ∧ Wrote (0x40000) (1 <<< 28 + rest.toNat) s u ∧ execCertLoad m rest s = .next (u.nextFree.secCmd m (1 <<< 28 + rest.toNat) (decide (u.freeVal % 2 = 1))) := by
  have l_rest := rest.isLt
  obtain ⟨w, u, hw, hu, e⟩ := write_one (v := (1 <<< 28 + rest.toNat)) (by decide +kernel) hm (by unfold State.ignored; rw [decide_eq_false (by omega)]; rfl)
  refine ⟨w, u, hw, hu, ?_⟩
  unfold execCertLoad State.wordWrite
  rw [e]
  have f0 : bits ((1 <<< 28 + rest.toNat)) 31 28 = 1 := by
    simp only [bits, Nat.shiftLeft_eq, Nat.shiftRight_eq_div_pow, Nat.reduceAdd, Nat.reduceSub, Nat.reducePow, Nat.reduceMul]; omega
  clear hm e hu hw
  generalize ((1 <<< 28 + rest.toNat)) = v_ at *
  obtain ⟨a, ha⟩ : ∃ a, a = 0x40000 := ⟨_, rfl⟩
  rw [← ha]
  have hn : ctrlUnit a = none := by rw [ha]; decide +kernel
  unfold action
  rw [hn]
  dsimp only
  simp (disch := omega) only [if_neg, if_pos]
  unfold secLogAction
  try dsimp only
  try simp (disch := omega) only [if_neg, if_pos, f0, if_true]
  all_goals first | done | (congr 2 <;> omega) | (congr 3 <;> omega) | (congr 4 <;> omega) | (congr 5 <;> omega) | (congr 6 <;> omega)

theorem write_recipSet {s : State} (m : Fin 32) (rest : BitVec 28) (hm : s.mayWrite m (0x40000) .plain = true) :
    ∃ w u, Aside s w ∧ Wrote (0x40000) (5 <<< 28 + rest.toNat) s u ∧ execRecipSet m rest s = .next (u.nextFree.secCmd m (5 <<< 28 + rest.toNat) (decide (u.freeVal % 2 = 1))) := by
  have l_rest := rest.isLt
  obtain ⟨w, u, hw, hu, e⟩ := write_one (v := (5 <<< 28 + rest.toNat)) (by decide +kernel) hm (by unfold State.ignored; rw [decide_eq_false (by omega)]; rfl)
  refine ⟨w, u, hw, hu, ?_⟩
  unfold execRecipSet State.wordWrite
  rw [e]
  have f0 : bits ((5 <<< 28 + rest.toNat)) 31 28 = 5 := by
    simp only [bits, Nat.shiftLeft_eq, Nat.shiftRight_eq_div_pow, Nat.reduceAdd, Nat.reduceSub, Nat.reducePow, Nat.reduceMul]; omega
  clear hm e hu hw
  generalize ((5 <<< 28 + rest.toNat)) = v_ at *
  obtain ⟨a, ha⟩ : ∃ a, a = 0x40000 := ⟨_, rfl⟩
  rw [← ha]
  have hn : ctrlUnit a = none := by rw [ha]; decide +kernel
  unfold action
  rw [hn]
  dsimp only
  simp (disch := omega) only [if_neg, if_pos]
  unfold secLogAction
  try dsimp only
  try simp (disch := omega) only [if_neg, if_pos, f0, if_true]
  all_goals first | done | (congr 2 <;> omega) | (congr 3 <;> omega) | (congr 4 <;> omega) | (congr 5 <;> omega) | (congr 6 <;> omega)

theorem write_clipOpen {s : State} (m : Fin 32) (rest : BitVec 28) (hm : s.mayWrite m (0x40000) .plain = true) :
    ∃ w u, Aside s w ∧ Wrote (0x40000) (6 <<< 28 + rest.toNat) s u ∧ execClipOpen m rest s = .next (u.nextFree.secCmd m (6 <<< 28 + rest.toNat) (decide (u.freeVal % 2 = 1))) := by
  have l_rest := rest.isLt
  obtain ⟨w, u, hw, hu, e⟩ := write_one (v := (6 <<< 28 + rest.toNat)) (by decide +kernel) hm (by unfold State.ignored; rw [decide_eq_false (by omega)]; rfl)
  refine ⟨w, u, hw, hu, ?_⟩
  unfold execClipOpen State.wordWrite
  rw [e]
  have f0 : bits ((6 <<< 28 + rest.toNat)) 31 28 = 6 := by
    simp only [bits, Nat.shiftLeft_eq, Nat.shiftRight_eq_div_pow, Nat.reduceAdd, Nat.reduceSub, Nat.reducePow, Nat.reduceMul]; omega
  clear hm e hu hw
  generalize ((6 <<< 28 + rest.toNat)) = v_ at *
  obtain ⟨a, ha⟩ : ∃ a, a = 0x40000 := ⟨_, rfl⟩
  rw [← ha]
  have hn : ctrlUnit a = none := by rw [ha]; decide +kernel
  unfold action
  rw [hn]
  dsimp only
  simp (disch := omega) only [if_neg, if_pos]
  unfold secLogAction
  try dsimp only
  try simp (disch := omega) only [if_neg, if_pos, f0, if_true]
  all_goals first | done | (congr 2 <;> omega) | (congr 3 <;> omega) | (congr 4 <;> omega) | (congr 5 <;> omega) | (congr 6 <;> omega)

theorem write_clipLoad {s : State} (m : Fin 32) (rest : BitVec 28) (hm : s.mayWrite m (0x40000) .plain = true) :
    ∃ w u, Aside s w ∧ Wrote (0x40000) (7 <<< 28 + rest.toNat) s u ∧ execClipLoad m rest s = .next (u.nextFree.secCmd m (7 <<< 28 + rest.toNat) (decide (u.freeVal % 2 = 1))) := by
  have l_rest := rest.isLt
  obtain ⟨w, u, hw, hu, e⟩ := write_one (v := (7 <<< 28 + rest.toNat)) (by decide +kernel) hm (by unfold State.ignored; rw [decide_eq_false (by omega)]; rfl)
  refine ⟨w, u, hw, hu, ?_⟩
  unfold execClipLoad State.wordWrite
  rw [e]
  have f0 : bits ((7 <<< 28 + rest.toNat)) 31 28 = 7 := by
    simp only [bits, Nat.shiftLeft_eq, Nat.shiftRight_eq_div_pow, Nat.reduceAdd, Nat.reduceSub, Nat.reducePow, Nat.reduceMul]; omega
  clear hm e hu hw
  generalize ((7 <<< 28 + rest.toNat)) = v_ at *
  obtain ⟨a, ha⟩ : ∃ a, a = 0x40000 := ⟨_, rfl⟩
  rw [← ha]
  have hn : ctrlUnit a = none := by rw [ha]; decide +kernel
  unfold action
  rw [hn]
  dsimp only
  simp (disch := omega) only [if_neg, if_pos]
  unfold secLogAction
  try dsimp only
  try simp (disch := omega) only [if_neg, if_pos, f0, if_true]
  all_goals first | done | (congr 2 <;> omega) | (congr 3 <;> omega) | (congr 4 <;> omega) | (congr 5 <;> omega) | (congr 6 <;> omega)

theorem write_clipClose {s : State} (m : Fin 32) (rest : BitVec 28) (hm : s.mayWrite m (0x40000) .plain = true) :
    ∃ w u, Aside s w ∧ Wrote (0x40000) (8 <<< 28 + rest.toNat) s u ∧ execClipClose m rest s = .next (u.nextFree.secCmd m (8 <<< 28 + rest.toNat) (decide (u.freeVal % 2 = 1))) := by
  have l_rest := rest.isLt
  obtain ⟨w, u, hw, hu, e⟩ := write_one (v := (8 <<< 28 + rest.toNat)) (by decide +kernel) hm (by unfold State.ignored; rw [decide_eq_false (by omega)]; rfl)
  refine ⟨w, u, hw, hu, ?_⟩
  unfold execClipClose State.wordWrite
  rw [e]
  have f0 : bits ((8 <<< 28 + rest.toNat)) 31 28 = 8 := by
    simp only [bits, Nat.shiftLeft_eq, Nat.shiftRight_eq_div_pow, Nat.reduceAdd, Nat.reduceSub, Nat.reducePow, Nat.reduceMul]; omega
  clear hm e hu hw
  generalize ((8 <<< 28 + rest.toNat)) = v_ at *
  obtain ⟨a, ha⟩ : ∃ a, a = 0x40000 := ⟨_, rfl⟩
  rw [← ha]
  have hn : ctrlUnit a = none := by rw [ha]; decide +kernel
  unfold action
  rw [hn]
  dsimp only
  simp (disch := omega) only [if_neg, if_pos]
  unfold secLogAction
  try dsimp only
  try simp (disch := omega) only [if_neg, if_pos, f0, if_true]
  all_goals first | done | (congr 2 <;> omega) | (congr 3 <;> omega) | (congr 4 <;> omega) | (congr 5 <;> omega) | (congr 6 <;> omega)

theorem write_arrayKey {s : State} (m : Fin 32) (rest : BitVec 28) (hm : s.mayWrite m (0x40000) .plain = true) :
    ∃ w u, Aside s w ∧ Wrote (0x40000) (9 <<< 28 + rest.toNat) s u ∧ execArrayKey m rest s = .next (u.nextFree.secCmd m (9 <<< 28 + rest.toNat) (decide (u.freeVal % 2 = 1))) := by
  have l_rest := rest.isLt
  obtain ⟨w, u, hw, hu, e⟩ := write_one (v := (9 <<< 28 + rest.toNat)) (by decide +kernel) hm (by unfold State.ignored; rw [decide_eq_false (by omega)]; rfl)
  refine ⟨w, u, hw, hu, ?_⟩
  unfold execArrayKey State.wordWrite
  rw [e]
  have f0 : bits ((9 <<< 28 + rest.toNat)) 31 28 = 9 := by
    simp only [bits, Nat.shiftLeft_eq, Nat.shiftRight_eq_div_pow, Nat.reduceAdd, Nat.reduceSub, Nat.reducePow, Nat.reduceMul]; omega
  clear hm e hu hw
  generalize ((9 <<< 28 + rest.toNat)) = v_ at *
  obtain ⟨a, ha⟩ : ∃ a, a = 0x40000 := ⟨_, rfl⟩
  rw [← ha]
  have hn : ctrlUnit a = none := by rw [ha]; decide +kernel
  unfold action
  rw [hn]
  dsimp only
  simp (disch := omega) only [if_neg, if_pos]
  unfold secLogAction
  try dsimp only
  try simp (disch := omega) only [if_neg, if_pos, f0, if_true]
  all_goals first | done | (congr 2 <;> omega) | (congr 3 <;> omega) | (congr 4 <;> omega) | (congr 5 <;> omega) | (congr 6 <;> omega)

theorem write_attest {s : State} (m : Fin 32) (rest : BitVec 28) (hm : s.mayWrite m (0x40000) .plain = true) :
    ∃ w u, Aside s w ∧ Wrote (0x40000) (10 <<< 28 + rest.toNat) s u ∧ execAttest m rest s = .next (u.nextFree.secCmd m (10 <<< 28 + rest.toNat) (decide (u.freeVal % 2 = 1))) := by
  have l_rest := rest.isLt
  obtain ⟨w, u, hw, hu, e⟩ := write_one (v := (10 <<< 28 + rest.toNat)) (by decide +kernel) hm (by unfold State.ignored; rw [decide_eq_false (by omega)]; rfl)
  refine ⟨w, u, hw, hu, ?_⟩
  unfold execAttest State.wordWrite
  rw [e]
  have f0 : bits ((10 <<< 28 + rest.toNat)) 31 28 = 10 := by
    simp only [bits, Nat.shiftLeft_eq, Nat.shiftRight_eq_div_pow, Nat.reduceAdd, Nat.reduceSub, Nat.reducePow, Nat.reduceMul]; omega
  clear hm e hu hw
  generalize ((10 <<< 28 + rest.toNat)) = v_ at *
  obtain ⟨a, ha⟩ : ∃ a, a = 0x40000 := ⟨_, rfl⟩
  rw [← ha]
  have hn : ctrlUnit a = none := by rw [ha]; decide +kernel
  unfold action
  rw [hn]
  dsimp only
  simp (disch := omega) only [if_neg, if_pos]
  unfold secLogAction
  try dsimp only
  try simp (disch := omega) only [if_neg, if_pos, f0, if_true]
  all_goals first | done | (congr 2 <;> omega) | (congr 3 <;> omega) | (congr 4 <;> omega) | (congr 5 <;> omega) | (congr 6 <;> omega)

theorem write_ownerBurn {s : State} (m : Fin 32) (rest : BitVec 28) (burnt : Bool) (hm : s.mayWrite m (0x40000) { burnt := some burnt } = true) :
    ∃ w u, Aside s w ∧ Wrote (0x40000) (2 <<< 28 + rest.toNat) s u ∧ execOwnerBurn m rest burnt s = .next (u.secCmd m (2 <<< 28 + rest.toNat) burnt) := by
  have l_rest := rest.isLt
  obtain ⟨w, u, hw, hu, e⟩ := write_one (v := (2 <<< 28 + rest.toNat)) (by decide +kernel) hm (by unfold State.ignored; rw [decide_eq_false (by omega)]; rfl)
  refine ⟨w, u, hw, hu, ?_⟩
  unfold execOwnerBurn
  rw [e]
  have f0 : bits ((2 <<< 28 + rest.toNat)) 31 28 = 2 := by
    simp only [bits, Nat.shiftLeft_eq, Nat.shiftRight_eq_div_pow, Nat.reduceAdd, Nat.reduceSub, Nat.reducePow, Nat.reduceMul]; omega
  clear hm e hu hw
  generalize ((2 <<< 28 + rest.toNat)) = v_ at *
  obtain ⟨a, ha⟩ : ∃ a, a = 0x40000 := ⟨_, rfl⟩
  rw [← ha]
  have hn : ctrlUnit a = none := by rw [ha]; decide +kernel
  unfold action
  rw [hn]
  dsimp only
  simp (disch := omega) only [if_neg, if_pos]
  unfold secLogAction
  try dsimp only
  try simp (disch := omega) only [if_neg, if_pos, f0, if_true]
  all_goals first | done | (congr 2 <;> omega) | (congr 3 <;> omega) | (congr 4 <;> omega) | (congr 5 <;> omega) | (congr 6 <;> omega)

theorem write_ownerRevoke {s : State} (m : Fin 32) (rest : BitVec 28) (burnt : Bool) (hm : s.mayWrite m (0x40000) { burnt := some burnt } = true) :
    ∃ w u, Aside s w ∧ Wrote (0x40000) (3 <<< 28 + rest.toNat) s u ∧ execOwnerRevoke m rest burnt s = .next (u.secCmd m (3 <<< 28 + rest.toNat) burnt) := by
  have l_rest := rest.isLt
  obtain ⟨w, u, hw, hu, e⟩ := write_one (v := (3 <<< 28 + rest.toNat)) (by decide +kernel) hm (by unfold State.ignored; rw [decide_eq_false (by omega)]; rfl)
  refine ⟨w, u, hw, hu, ?_⟩
  unfold execOwnerRevoke
  rw [e]
  have f0 : bits ((3 <<< 28 + rest.toNat)) 31 28 = 3 := by
    simp only [bits, Nat.shiftLeft_eq, Nat.shiftRight_eq_div_pow, Nat.reduceAdd, Nat.reduceSub, Nat.reducePow, Nat.reduceMul]; omega
  clear hm e hu hw
  generalize ((3 <<< 28 + rest.toNat)) = v_ at *
  obtain ⟨a, ha⟩ : ∃ a, a = 0x40000 := ⟨_, rfl⟩
  rw [← ha]
  have hn : ctrlUnit a = none := by rw [ha]; decide +kernel
  unfold action
  rw [hn]
  dsimp only
  simp (disch := omega) only [if_neg, if_pos]
  unfold secLogAction
  try dsimp only
  try simp (disch := omega) only [if_neg, if_pos, f0, if_true]
  all_goals first | done | (congr 2 <;> omega) | (congr 3 <;> omega) | (congr 4 <;> omega) | (congr 5 <;> omega) | (congr 6 <;> omega)

theorem write_policyBurn {s : State} (m : Fin 32) (rest : BitVec 28) (burnt : Bool) (hm : s.mayWrite m (0x40000) { burnt := some burnt } = true) :
    ∃ w u, Aside s w ∧ Wrote (0x40000) (4 <<< 28 + rest.toNat) s u ∧ execPolicyBurn m rest burnt s = .next (u.secCmd m (4 <<< 28 + rest.toNat) burnt) := by
  have l_rest := rest.isLt
  obtain ⟨w, u, hw, hu, e⟩ := write_one (v := (4 <<< 28 + rest.toNat)) (by decide +kernel) hm (by unfold State.ignored; rw [decide_eq_false (by omega)]; rfl)
  refine ⟨w, u, hw, hu, ?_⟩
  unfold execPolicyBurn
  rw [e]
  have f0 : bits ((4 <<< 28 + rest.toNat)) 31 28 = 4 := by
    simp only [bits, Nat.shiftLeft_eq, Nat.shiftRight_eq_div_pow, Nat.reduceAdd, Nat.reduceSub, Nat.reducePow, Nat.reduceMul]; omega
  clear hm e hu hw
  generalize ((4 <<< 28 + rest.toNat)) = v_ at *
  obtain ⟨a, ha⟩ : ∃ a, a = 0x40000 := ⟨_, rfl⟩
  rw [← ha]
  have hn : ctrlUnit a = none := by rw [ha]; decide +kernel
  unfold action
  rw [hn]
  dsimp only
  simp (disch := omega) only [if_neg, if_pos]
  unfold secLogAction
  try dsimp only
  try simp (disch := omega) only [if_neg, if_pos, f0, if_true]
  all_goals first | done | (congr 2 <;> omega) | (congr 3 <;> omega) | (congr 4 <;> omega) | (congr 5 <;> omega) | (congr 6 <;> omega)

theorem write_secPush {s : State} (m : Fin 32) (h : BitVec 16) (hm : s.mayWrite m (0x40030) .plain = true) :
    ∃ w u, Aside s w ∧ Wrote (0x40030) h.toNat s u ∧ execSecPush m h s = .next (u.secPush h.toNat) := by
  have l_h := h.isLt
  obtain ⟨w, u, hw, hu, e⟩ := write_one (v := h.toNat) (by decide +kernel) hm (by unfold State.ignored; rw [decide_eq_false (by omega)]; rfl)
  refine ⟨w, u, hw, hu, ?_⟩
  unfold execSecPush State.wordWrite
  rw [e]
  have f0 : bits (h.toNat) 15 0 = h.toNat := by
    simp only [bits, Nat.shiftLeft_eq, Nat.shiftRight_eq_div_pow, Nat.reduceAdd, Nat.reduceSub, Nat.reducePow, Nat.reduceMul]; omega
  clear hm e hu hw
  obtain ⟨a, ha⟩ : ∃ a, a = 0x40030 := ⟨_, rfl⟩
  rw [← ha]
  have hn : ctrlUnit a = none := by rw [ha]; decide +kernel
  unfold action
  rw [hn]
  dsimp only
  simp (disch := omega) only [if_neg, if_pos]
  unfold secLogAction
  try dsimp only
  try simp (disch := omega) only [if_neg, if_pos, f0, if_true]
  all_goals first | done | (congr 2 <;> omega) | (congr 3 <;> omega) | (congr 4 <;> omega) | (congr 5 <;> omega) | (congr 6 <;> omega)

theorem write_record {s : State} (m : Fin 32) (hm : s.mayWrite m (0x50000) .plain = true) :
    ∃ w u, Aside s w ∧ Wrote (0x50000) (1 <<< 28) s u ∧ execRecord m s = .next (u.ctrlAction 22 0 0x50000 (1 <<< 28)) := by
  obtain ⟨w, u, hw, hu, e⟩ := write_one (v := (1 <<< 28)) (by decide +kernel) hm (by unfold State.ignored; rw [decide_eq_false (by omega)]; rfl)
  refine ⟨w, u, hw, hu, ?_⟩
  unfold execRecord State.wordWrite
  rw [e]
  unfold action
  rw [show ctrlUnit 0x50000 = some (22, 0) from by decide +kernel]

theorem write_replay {s : State} (m : Fin 32) (hm : s.mayWrite m (0x50000) .plain = true) :
    ∃ w u, Aside s w ∧ Wrote (0x50000) (2 <<< 28) s u ∧ execReplay m s = .next (u.ctrlAction 22 0 0x50000 (2 <<< 28)) := by
  obtain ⟨w, u, hw, hu, e⟩ := write_one (v := (2 <<< 28)) (by decide +kernel) hm (by unfold State.ignored; rw [decide_eq_false (by omega)]; rfl)
  refine ⟨w, u, hw, hu, ?_⟩
  unfold execReplay State.wordWrite
  rw [e]
  unfold action
  rw [show ctrlUnit 0x50000 = some (22, 0) from by decide +kernel]

theorem write_logRun {s : State} (m : Fin 32) (hm : s.mayWrite m (0x50000) .plain = true) :
    ∃ w u, Aside s w ∧ Wrote (0x50000) (3 <<< 28) s u ∧ execLogRun m s = .next (u.ctrlAction 22 0 0x50000 (3 <<< 28)) := by
  obtain ⟨w, u, hw, hu, e⟩ := write_one (v := (3 <<< 28)) (by decide +kernel) hm (by unfold State.ignored; rw [decide_eq_false (by omega)]; rfl)
  refine ⟨w, u, hw, hu, ?_⟩
  unfold execLogRun State.wordWrite
  rw [e]
  unfold action
  rw [show ctrlUnit 0x50000 = some (22, 0) from by decide +kernel]

theorem write_logStop {s : State} (m : Fin 32) (hm : s.mayWrite m (0x50000) .plain = true) :
    ∃ w u, Aside s w ∧ Wrote (0x50000) (4 <<< 28) s u ∧ execLogStop m s = .next (u.ctrlAction 22 0 0x50000 (4 <<< 28)) := by
  obtain ⟨w, u, hw, hu, e⟩ := write_one (v := (4 <<< 28)) (by decide +kernel) hm (by unfold State.ignored; rw [decide_eq_false (by omega)]; rfl)
  refine ⟨w, u, hw, hu, ?_⟩
  unfold execLogStop State.wordWrite
  rw [e]
  unfold action
  rw [show ctrlUnit 0x50000 = some (22, 0) from by decide +kernel]

theorem write_logOutPush {s : State} (m : Fin 32) (h : BitVec 16) (hm : s.mayWrite m (0x5001C) .plain = true) :
    ∃ w u, Aside s w ∧ Wrote (0x5001C) h.toNat s u ∧ execLogOutPush m h s = .next (u.logPush logOutQ ⟨h.toNat, 0, false⟩) := by
  have l_h := h.isLt
  obtain ⟨w, u, hw, hu, e⟩ := write_one (v := h.toNat) (by decide +kernel) hm (by unfold State.ignored; rw [decide_eq_false (by omega)]; rfl)
  refine ⟨w, u, hw, hu, ?_⟩
  unfold execLogOutPush State.wordWrite
  rw [e]
  have f0 : bits (h.toNat) 15 0 = h.toNat := by
    simp only [bits, Nat.shiftLeft_eq, Nat.shiftRight_eq_div_pow, Nat.reduceAdd, Nat.reduceSub, Nat.reducePow, Nat.reduceMul]; omega
  clear hm e hu hw
  obtain ⟨a, ha⟩ : ∃ a, a = 0x5001C := ⟨_, rfl⟩
  rw [← ha]
  have hn : ctrlUnit a = none := by rw [ha]; decide +kernel
  unfold action
  rw [hn]
  dsimp only
  simp (disch := omega) only [if_neg, if_pos]
  unfold secLogAction
  try dsimp only
  try simp (disch := omega) only [if_neg, if_pos, f0, if_true]
  all_goals first | done | (congr 2 <;> omega) | (congr 3 <;> omega) | (congr 4 <;> omega) | (congr 5 <;> omega) | (congr 6 <;> omega)

theorem write_logInPush {s : State} (m : Fin 32) (h : BitVec 16) (hm : s.mayWrite m (0x50020) .plain = true) :
    ∃ w u, Aside s w ∧ Wrote (0x50020) h.toNat s u ∧ execLogInPush m h s = .next ((u.logPush logInQ ⟨h.toNat, 0, false⟩).logPump) := by
  have l_h := h.isLt
  obtain ⟨w, u, hw, hu, e⟩ := write_one (v := h.toNat) (by decide +kernel) hm (by unfold State.ignored; rw [decide_eq_false (by omega)]; rfl)
  refine ⟨w, u, hw, hu, ?_⟩
  unfold execLogInPush State.wordWrite
  rw [e]
  have f0 : bits (h.toNat) 15 0 = h.toNat := by
    simp only [bits, Nat.shiftLeft_eq, Nat.shiftRight_eq_div_pow, Nat.reduceAdd, Nat.reduceSub, Nat.reducePow, Nat.reduceMul]; omega
  clear hm e hu hw
  obtain ⟨a, ha⟩ : ∃ a, a = 0x50020 := ⟨_, rfl⟩
  rw [← ha]
  have hn : ctrlUnit a = none := by rw [ha]; decide +kernel
  unfold action
  rw [hn]
  dsimp only
  simp (disch := omega) only [if_neg, if_pos]
  unfold secLogAction
  try dsimp only
  try simp (disch := omega) only [if_neg, if_pos, f0, if_true]
  all_goals first | done | (congr 2 <;> omega) | (congr 3 <;> omega) | (congr 4 <;> omega) | (congr 5 <;> omega) | (congr 6 <;> omega)

theorem plain_logFeed : ∀ (p : Fin 4), plainReg (0x50030 + 4 * p.val) = true := by decide +kernel

theorem write_logFeed {s : State} (m : Fin 32) (p : Fin 4) (raw map : BitVec 16) (hm : s.mayWrite m (0x50030 + 4 * p.val) .plain = true) :
    ∃ w u, Aside s w ∧ Wrote (0x50030 + 4 * p.val) (map.toNat <<< 16 + raw.toNat) s u ∧ execLogFeed m p raw map s = .next (u.logPush (logFeedQ p.val) ⟨raw.toNat, map.toNat, false⟩) := by
  have l_p := p.isLt
  have l_raw := raw.isLt
  have l_map := map.isLt
  obtain ⟨w, u, hw, hu, e⟩ := write_one (v := (map.toNat <<< 16 + raw.toNat)) (plain_logFeed p) hm (by unfold State.ignored; rw [decide_eq_false (by omega)]; rfl)
  refine ⟨w, u, hw, hu, ?_⟩
  unfold execLogFeed State.wordWrite
  rw [e]
  have f0 : bits ((map.toNat <<< 16 + raw.toNat)) 31 16 = map.toNat := by
    simp only [bits, Nat.shiftLeft_eq, Nat.shiftRight_eq_div_pow, Nat.reduceAdd, Nat.reduceSub, Nat.reducePow, Nat.reduceMul]; omega
  have f1 : bits ((map.toNat <<< 16 + raw.toNat)) 15 0 = raw.toNat := by
    simp only [bits, Nat.shiftLeft_eq, Nat.shiftRight_eq_div_pow, Nat.reduceAdd, Nat.reduceSub, Nat.reducePow, Nat.reduceMul]; omega
  clear hm e hu hw
  generalize ((map.toNat <<< 16 + raw.toNat)) = v_ at *
  generalize ha : 0x50030 + 4 * p.val = a
  have hn : ctrlUnit a = none := by
    unfold ctrlUnit
    simp (disch := omega) only [if_neg]
  unfold action
  rw [hn]
  dsimp only
  simp (disch := omega) only [if_neg, if_pos]
  unfold secLogAction
  try dsimp only
  try simp (disch := omega) only [if_neg, if_pos, f0, f1, if_true]
  all_goals first | done | (congr 2 <;> omega) | (congr 3 <;> omega) | (congr 4 <;> omega) | (congr 5 <;> omega) | (congr 6 <;> omega)

theorem write_sleep {s : State} (m : Fin 32) (rest : BitVec 28) (hm : s.mayWrite m (0x10000) .plain = true) :
    ∃ w u, Aside s w ∧ Wrote (0x10000) (1 <<< 28 + rest.toNat) s u ∧ execSleep m rest s = .next (u.pwrOp (1 <<< 28 + rest.toNat)) := by
  have l_rest := rest.isLt
  obtain ⟨w, u, hw, hu, e⟩ := write_one (v := (1 <<< 28 + rest.toNat)) (by decide +kernel) hm (by unfold State.ignored; rw [decide_eq_false (by omega)]; rfl)
  refine ⟨w, u, hw, hu, ?_⟩
  unfold execSleep State.wordWrite
  rw [e]
  have f0 : bits ((1 <<< 28 + rest.toNat)) 31 28 = 1 := by
    simp only [bits, Nat.shiftLeft_eq, Nat.shiftRight_eq_div_pow, Nat.reduceAdd, Nat.reduceSub, Nat.reducePow, Nat.reduceMul]; omega
  clear hm e hu hw
  generalize ((1 <<< 28 + rest.toNat)) = v_ at *
  obtain ⟨a, ha⟩ : ∃ a, a = 0x10000 := ⟨_, rfl⟩
  rw [← ha]
  have hn : ctrlUnit a = none := by rw [ha]; decide +kernel
  unfold action
  rw [hn]
  dsimp only
  simp (disch := omega) only [if_neg, if_pos]
  unfold pwrAction
  try dsimp only
  try simp (disch := omega) only [if_neg, if_pos, f0, if_true]
  all_goals first | done | (congr 2 <;> omega) | (congr 3 <;> omega) | (congr 4 <;> omega) | (congr 5 <;> omega) | (congr 6 <;> omega)

theorem write_warm {s : State} (m : Fin 32) (rest : BitVec 28) (hm : s.mayWrite m (0x10000) .plain = true) :
    ∃ w u, Aside s w ∧ Wrote (0x10000) (2 <<< 28 + rest.toNat) s u ∧ execWarm m rest s = .next (u.pwrOp (2 <<< 28 + rest.toNat)) := by
  have l_rest := rest.isLt
  obtain ⟨w, u, hw, hu, e⟩ := write_one (v := (2 <<< 28 + rest.toNat)) (by decide +kernel) hm (by unfold State.ignored; rw [decide_eq_false (by omega)]; rfl)
  refine ⟨w, u, hw, hu, ?_⟩
  unfold execWarm State.wordWrite
  rw [e]
  have f0 : bits ((2 <<< 28 + rest.toNat)) 31 28 = 2 := by
    simp only [bits, Nat.shiftLeft_eq, Nat.shiftRight_eq_div_pow, Nat.reduceAdd, Nat.reduceSub, Nat.reducePow, Nat.reduceMul]; omega
  clear hm e hu hw
  generalize ((2 <<< 28 + rest.toNat)) = v_ at *
  obtain ⟨a, ha⟩ : ∃ a, a = 0x10000 := ⟨_, rfl⟩
  rw [← ha]
  have hn : ctrlUnit a = none := by rw [ha]; decide +kernel
  unfold action
  rw [hn]
  dsimp only
  simp (disch := omega) only [if_neg, if_pos]
  unfold pwrAction
  try dsimp only
  try simp (disch := omega) only [if_neg, if_pos, f0, if_true]
  all_goals first | done | (congr 2 <;> omega) | (congr 3 <;> omega) | (congr 4 <;> omega) | (congr 5 <;> omega) | (congr 6 <;> omega)

theorem write_pwrBlockReset {s : State} (m : Fin 32) (v : Word) (hm : s.mayWrite m (0x1000C) .plain = true) :
    ∃ w u, Aside s w ∧ Wrote (0x1000C) v.toNat s u ∧ execPwrBlockReset m v s = .next (u.pwrBlock (bits v.toNat 5 0)) := by
  have l_v := v.isLt
  obtain ⟨w, u, hw, hu, e⟩ := write_one (v := v.toNat) (by decide +kernel) hm (by unfold State.ignored; rw [decide_eq_false (by omega)]; rfl)
  refine ⟨w, u, hw, hu, ?_⟩
  unfold execPwrBlockReset State.wordWrite
  rw [e]
  clear hm e hu hw
  generalize (v.toNat) = v_ at *
  obtain ⟨a, ha⟩ : ∃ a, a = 0x1000C := ⟨_, rfl⟩
  rw [← ha]
  have hn : ctrlUnit a = none := by rw [ha]; decide +kernel
  unfold action
  rw [hn]
  dsimp only
  simp (disch := omega) only [if_neg, if_pos]
  unfold pwrAction
  try dsimp only
  try simp (disch := omega) only [if_neg, if_pos, if_true]
  all_goals first | done | (congr 2 <;> omega) | (congr 3 <;> omega) | (congr 4 <;> omega) | (congr 5 <;> omega) | (congr 6 <;> omega)

theorem write_wdogKick {s : State} (m : Fin 32) (v : Word) (hm : s.mayWrite m (0x10014) .plain = true) :
    ∃ w u, Aside s w ∧ Wrote (0x10014) v.toNat s u ∧ execWdogKick m v s = .next (u.wdogKick (bits v.toNat 15 0)) := by
  have l_v := v.isLt
  obtain ⟨w, u, hw, hu, e⟩ := write_one (v := v.toNat) (by decide +kernel) hm (by unfold State.ignored; rw [decide_eq_false (by omega)]; rfl)
  refine ⟨w, u, hw, hu, ?_⟩
  unfold execWdogKick State.wordWrite
  rw [e]
  clear hm e hu hw
  generalize (v.toNat) = v_ at *
  obtain ⟨a, ha⟩ : ∃ a, a = 0x10014 := ⟨_, rfl⟩
  rw [← ha]
  have hn : ctrlUnit a = none := by rw [ha]; decide +kernel
  unfold action
  rw [hn]
  dsimp only
  simp (disch := omega) only [if_neg, if_pos]
  unfold pwrAction
  try dsimp only
  try simp (disch := omega) only [if_neg, if_pos, if_true]
  all_goals first | done | (congr 2 <;> omega) | (congr 3 <;> omega) | (congr 4 <;> omega) | (congr 5 <;> omega) | (congr 6 <;> omega)

end

end Sys2Proof.Machine
end

