-- ==== Sys2Proof/Laws/Frames.lean ====
section
/-! SUPPORT. How `Frame`s are built: the identity, composition, and one lemma per kind of update. -/

namespace Sys2Proof.Machine

theorem Only.refl {ps : List Part} {s : State} : Only ps s s := fun p _ => Part.same_refl s p

theorem Only.trans {ps : List Part} {s t u : State} (h : Only ps s t) (h' : Only ps t u) : Only ps s u :=
  fun p hp => Part.same_trans (h p hp) (h' p hp)

theorem Only.of_keeps {n : Nat} {ps : List Part} {s t : State} (h : Keeps n s t) (hn : n ||| Part.mask ps = Part.mask ps) :
    Only ps s t := fun p hp => h.same p (sub_testBit hn (Part.mask_testBit hp))

theorem Only.mono {ps qs : List Part} {s t : State} (h : Only ps s t) (hs : ∀ p ∈ ps, p ∈ qs) : Only qs s t :=
  fun p hp => h p fun hm => hp (hs p hm)

namespace Frame

variable {ps : List Part} {as : List Nat} {s t u : State}

theorem refl : Frame ps as s s := ⟨Only.refl, fun _ _ _ => rfl, fun _ => rfl⟩

theorem trans (h : Frame ps as s t) (h' : Frame ps as t u) : Frame ps as s u :=
  ⟨h.1.trans h'.1, fun x hx hn => (h'.2.1 x hx hn).trans (h.2.1 x hx hn), fun k => (h'.2.2 k).trans (h.2.2 k)⟩

theorem mono {qs : List Part} {bs : List Nat} (h : Frame ps as s t) (hp : ∀ p ∈ ps, p ∈ qs) (ha : ∀ a ∈ as, a ∈ bs) :
    Frame qs bs s t :=
  ⟨h.1.mono fun p hm => by
      rcases List.mem_append.mp hm with hm | hm
      · exact List.mem_append.mpr (Or.inl (hp p hm))
      · exact List.mem_append.mpr (Or.inr hm),
    fun x hx hn => h.2.1 x hx fun hm => hn (ha x hm), h.2.2⟩

theorem side_mask : 148376 ||| Part.mask sideParts = Part.mask sideParts := by decide

/-- Records, dockets and event bits leave the frame, where the calm words do not change. -/
theorem of_aside (h : Aside s t) (hc : ∀ x, calm x = true → x ∉ as → t.word x = s.word x) : Frame ps as s t :=
  ⟨(Only.of_keeps h.keeps side_mask).mono fun _ hp => List.mem_append.mpr (Or.inr hp), hc, h.pilot⟩

/-- A written word, where the write rejects nothing or its event word is named. -/
theorem of_wrote {a v : Nat} (h : Wrote a v s t) (ha : a ∈ as) (hc : calm a = true)
    (hr : s.xLocked a v = true → s.changesX a v (State.fieldsAt a) = true → ∀ x, inReject a x = true → x ∈ as) : Frame ps as s t :=
  ⟨(Only.of_keeps h.keeps side_mask).mono fun _ hp => List.mem_append.mpr (Or.inr hp),
    fun x hx hn => h.calm hc x hx (fun e => hn (e ▸ ha)) fun hl hch => by
      cases hi : inReject a x
      · rfl
      · exact absurd (hr hl hch x hi) hn, h.pilot⟩

theorem changesX_none {a v : Nat} (h : ((State.fieldsAt a).all fun (f : FieldDesc) => decide (f.cls ≠ .x)) = true) (s : State) :
    s.changesX a v (State.fieldsAt a) = false := by
  unfold State.changesX
  rw [List.any_eq_false]
  intro f hf
  have := List.all_eq_true.mp h f hf
  simp only [decide_eq_true_eq] at this
  simp only [this, decide_false, Bool.false_and, Bool.false_eq_true, not_false_eq_true]

/-- A written word without class-X fields. -/
theorem of_wrote_free {a v : Nat} (h : Wrote a v s t) (ha : a ∈ as) (hc : calm a = true)
    (hx : ((State.fieldsAt a).all fun (f : FieldDesc) => decide (f.cls ≠ .x)) = true) : Frame ps as s t :=
  of_wrote h ha hc fun _ hch => by rw [changesX_none hx] at hch; cases hch

/-- Event bits that occur. -/
theorem raise (a en src m sh : Nat) (ha : a ∈ as) (hq : quiet a = false) (hn : a ≠ 0x50004) : Frame ps as s (s.raise a en src m sh) :=
  of_aside (aside_raise _ _ _ _ _ hq hn) fun x hx hm => by
    exact (State.word_raise _ _ _ _ _ hx).trans (if_neg fun (e : x = a) => hm (e ▸ ha))

theorem raiseAt (a en src im inst m : Nat) (ha : a ∈ as) (hq : quiet a = false) (hn : a ≠ 0x50004) :
    Frame ps as s (s.raiseAt a en src im inst m) :=
  of_aside (aside_raiseAt _ _ _ _ _ _ hq hn) fun x hx hm => by
    exact (State.word_raiseAt _ _ _ _ _ _ hx).trans (if_neg fun (e : x = a) => hm (e ▸ ha))

theorem note (src code a b : Nat) : Frame ps as s (s.note src code a b) :=
  of_aside (aside_note _ _ _ _) fun _ hx _ => State.word_note _ _ _ _ hx

theorem logRec (typ src sub : Nat) (body : List Nat) : Frame ps as s (s.logRec typ src sub body) :=
  of_aside (aside_logRec _ _ _ _) fun _ hx _ => State.word_logRec _ _ _ _ hx

theorem writeRec (m a v sub : Nat) : Frame ps as s (s.writeRec m a v sub) :=
  of_aside (aside_writeRec _ _ _ _) fun _ hx _ => State.word_writeRec _ _ _ _ hx

theorem post (kind src sub payload : Nat) : Frame ps as s (s.post kind src sub payload) :=
  of_aside (aside_post _ _ _ _) fun _ hx _ => State.word_post _ _ _ _ hx

theorem postTo {k : Nat} (kind src sub payload : Nat) (hk : k < 16) : Frame ps as s (s.postTo k kind src sub payload) :=
  of_aside (aside_postTo _ _ _ _ hk) fun x hx _ => calm_postTo _ _ _ _ hk x hx

theorem count (f : Fld) (k : Nat) (ha : f.addr ∈ as) (hq : quiet f.addr = false) (hn : f.addr ≠ 0x50004) :
    Frame ps as s (s.count f k) :=
  of_aside (aside_count _ _ hq hn) fun _ _ hm => State.word_count _ _ fun e => hm (e ▸ ha)

theorem xReject {a : Nat} (hb : inBlock a = true) (h : ∀ x, inReject a x = true → x ∈ as) : Frame ps as s (s.xReject a) :=
  of_aside (aside_xReject hb) fun x hx hn => calm_xReject hx hb (by
    cases hi : inReject a x
    · rfl
    · exact absurd (h x hi) hn)

theorem setFld (f : Fld) (v : Nat) (h : f.addr ∈ as) : Frame ps as s (s.setFld f v) :=
  ⟨fun p hp => by cases p <;> first | rfl | (exact absurd (List.mem_append.mpr (Or.inr (by decide))) hp),
    fun x _ hn => State.word_setFld _ _ _ _ fun e => hn (e ▸ h), fun _ => rfl⟩

theorem setFld2 (f g : Fld) (v : Nat) (hf : f.addr ∈ as) (hg : g.addr ∈ as) : Frame ps as s (s.setFld2 f g v) :=
  (setFld f _ hf).trans (setFld g _ hg)

/-- Nothing changes but the parts named and those aside, and no word and no pilot. -/
theorem inert (h : Only (ps ++ sideParts) s t) (hr : t.regs = s.regs) (hp : t.pilots = s.pilots) : Frame ps as s t :=
  ⟨h, fun x _ _ => by rw [State.word, State.word, hr], fun k => by rw [State.pilot, State.pilot, hp]⟩

/-- Parts that hold no word, no pilot and no record change. -/
theorem parts (h : Only ps s t) (hr : Part.regs ∉ ps) (hp : Part.pilots ∉ ps) : Frame ps as s t := by
  have e : t.regs = s.regs := h .regs hr
  have f : t.pilots = s.pilots := h .pilots hp
  exact ⟨h.mono fun _ hp => List.mem_append.mpr (Or.inl hp), fun x _ _ => by rw [State.word, State.word, e],
    fun k => by rw [State.pilot, State.pilot, f]⟩

end Frame

end Sys2Proof.Machine
end

