-- ==== Sys2Proof/Laws/Registers.lean ====
section
/-! SUPPORT. What the register maps give every register (its fields share no bit), and what reads of RC fields and of wide values leave. -/

namespace Sys2Proof.Machine

open State

theorem tableAt_apart (a : Nat) : (tableAt a).all (fun r => allApart r.fields) = true := by
  unfold tableAt
  by_cases h0 : a < 0x10000
  · rw [if_pos h0]; decide +kernel
  rw [if_neg h0]
  by_cases h1 : a < 0x20000
  · rw [if_pos h1]; decide +kernel
  rw [if_neg h1]
  by_cases h2 : a < 0x30000
  · rw [if_pos h2]; decide +kernel
  rw [if_neg h2]
  by_cases h3 : a < 0x40000
  · rw [if_pos h3]; decide +kernel
  rw [if_neg h3]
  by_cases h4 : a < 0x50000
  · rw [if_pos h4]; decide +kernel
  rw [if_neg h4]
  by_cases h5 : a < 0x60000
  · rw [if_pos h5]; decide +kernel
  rw [if_neg h5]
  by_cases h6 : a < 0x80000
  · rw [if_pos h6]; decide +kernel
  rw [if_neg h6]
  by_cases h7 : a < 0x90000
  · rw [if_pos h7]; decide +kernel
  rw [if_neg h7]
  by_cases h8 : a < 0x100000
  · rw [if_pos h8]; decide +kernel
  rw [if_neg h8]
  by_cases h9 : a < 0x140000
  · rw [if_pos h9]; decide +kernel
  rw [if_neg h9]
  by_cases h10 : a < 0x144000
  · rw [if_pos h10]; decide +kernel
  rw [if_neg h10]
  by_cases h11 : a < 0x150000
  · rw [if_pos h11]; decide +kernel
  rw [if_neg h11]
  by_cases h12 : a < 0x160000
  · rw [if_pos h12]; decide +kernel
  rw [if_neg h12]
  by_cases h13 : a < 0x170000
  · rw [if_pos h13]; decide +kernel
  rw [if_neg h13]
  by_cases h14 : a < 0x180000
  · rw [if_pos h14]; decide +kernel
  rw [if_neg h14]
  by_cases h15 : a < 0x188000
  · rw [if_pos h15]; decide +kernel
  rw [if_neg h15]
  by_cases h16 : a < 0x190000
  · rw [if_pos h16]; decide +kernel
  rw [if_neg h16]
  by_cases h17 : a < 0x1A0000
  · rw [if_pos h17]; decide +kernel
  rw [if_neg h17]
  by_cases h18 : a < 0x1B8000
  · rw [if_pos h18]; decide +kernel
  rw [if_neg h18]
  by_cases h19 : a < 0x1C0000
  · rw [if_pos h19]; decide +kernel
  rw [if_neg h19]
  by_cases h20 : a < 0x1D0000
  · rw [if_pos h20]; decide +kernel
  rw [if_neg h20]
  by_cases h21 : a < 0x1E0000
  · rw [if_pos h21]; decide +kernel
  rw [if_neg h21]
  by_cases h22 : a < 0x1F0000
  · rw [if_pos h22]; decide +kernel
  rw [if_neg h22]
  by_cases h23 : a < 0x1F8000
  · rw [if_pos h23]; decide +kernel
  rw [if_neg h23]
  by_cases h24 : a < 0x1FC000
  · rw [if_pos h24]; decide +kernel
  rw [if_neg h24]
  by_cases h25 : a < 0x1FE000
  · rw [if_pos h25]; decide +kernel
  rw [if_neg h25]
  by_cases h26 : a < 0x200000
  · rw [if_pos h26]; decide +kernel
  rw [if_neg h26]
  rfl

theorem regAt_apart {a : Nat} {r : RegDesc} (h : regAt a = some r) : allApart r.fields = true :=
  List.all_eq_true.mp (tableAt_apart a) r (List.mem_of_find?_eq_some h)

theorem fieldsAt_apart (a : Nat) : allApart (State.fieldsAt a) = true := by
  unfold State.fieldsAt
  split
  · next r h => exact regAt_apart h
  · rfl

theorem bits_low (n hi lo : Nat) (h : hi < 32) : bits (n % 2 ^ 32) hi lo = bits n hi lo := by
  apply Nat.eq_of_testBit_eq
  intro i
  rw [bits_testBit, bits_testBit, Nat.testBit_mod_two_pow]
  by_cases hi' : i < hi + 1 - lo
  · rw [decide_eq_true (show lo + i < 32 by omega)]; simp
  · simp [hi']

/-! ### RC fields -/

theorem find_put {v : Nat × Nat} {k : Nat} : (m : SMap (Nat × Nat)) →
    (m.put k v).find? (fun e => e.1 == k) = some (k, v)
  | [] => by simp [SMap.put]
  | (j, w) :: m => by
    unfold SMap.put
    split
    · simp
    · split
      · simp
      · next h _ => rw [List.find?_cons_of_neg (by simpa using Ne.symm h)]; exact find_put m

theorem find_put_other {v : Nat × Nat} {k i : Nat} (hi : i ≠ k) : (m : SMap (Nat × Nat)) →
    (m.put k v).find? (fun e => e.1 == i) = m.find? (fun e => e.1 == i)
  | [] => by simp [SMap.put, Ne.symm hi]
  | (j, w) :: m => by
    unfold SMap.put
    split
    · next h => subst h; rw [List.find?_cons_of_neg (by simpa using Ne.symm hi), List.find?_cons_of_neg (by simpa using Ne.symm hi)]
    · split
      · rw [List.find?_cons_of_neg (by simpa using Ne.symm hi)]
      · rw [List.find?_cons, List.find?_cons, find_put_other hi m]

theorem apart_lo {f g : FieldDesc} (h : apart f g = true) (h' : apart g f = true) : f.lo ≠ g.lo := by
  simp only [apart, Bool.and_eq_true, Bool.or_eq_true, decide_eq_true_eq] at h h'
  omega

/-- A field apart from one that is read. -/
theorem readRc_apart {s : State} {a n : Nat} {f g : FieldDesc} (h : apart f g = true) (h' : apart g f = true) :
    (s.readRc a n f).1.fld ⟨a, g.hi, g.lo⟩ = s.fld ⟨a, g.hi, g.lo⟩ ∧ bits (s.readRc a n f).2 g.hi g.lo = bits n g.hi g.lo ∧
    (∀ k, (s.readRc a n f).1.rcBefore ⟨a, g.hi, g.lo⟩ k = s.rcBefore ⟨a, g.hi, g.lo⟩ k) ∧
    (s.readRc a n f).1.rcShare ⟨a, g.hi, g.lo⟩ = s.rcShare ⟨a, g.hi, g.lo⟩ := by
  have hk : fldKey ⟨a, g.hi, g.lo⟩ ≠ fldKey ⟨a, f.hi, f.lo⟩ := by
    have := apart_lo h h'
    unfold fldKey
    show a * 32 + g.lo ≠ a * 32 + f.lo
    omega
  simp only [apart, Bool.and_eq_true, Bool.or_eq_true, decide_eq_true_eq] at h h'
  have e : ∀ v, (s.setFld ⟨a, f.hi, f.lo⟩ v).fld ⟨a, g.hi, g.lo⟩ = s.fld ⟨a, g.hi, g.lo⟩ := fun v =>
    State.fld_setFld_bits _ _ _ _ rfl h.1.2 h'.1.1 h.2
  unfold readRc
  dsimp only
  split
  · exact ⟨rfl, rfl, fun _ => rfl, rfl⟩
  · split
    · refine ⟨e _, bits_putBits_other _ _ _ _ _ _ h.1.2 h.2, fun k => ?_, ?_⟩
      · unfold rcBefore
        dsimp only
        rw [find_put_other hk]
      · unfold rcShare
        dsimp only
        rw [find_put_other hk]
    · exact ⟨e _, rfl, fun _ => rfl, rfl⟩

/-- The field that is read (R9). -/
theorem readRc_same {s : State} {a n : Nat} {f : FieldDesc} (hl : f.hi < 32 ∧ f.lo ≤ f.hi) (hc : f.acc = .rc) :
    (s.readRc a n f).1.fld ⟨a, f.hi, f.lo⟩ = s.rcShare ⟨a, f.hi, f.lo⟩ % 2 ^ (f.hi + 1 - f.lo) ∧
    bits (s.readRc a n f).2 f.hi f.lo = s.rcBefore ⟨a, f.hi, f.lo⟩ (bits n f.hi f.lo) := by
  unfold readRc rcShare rcBefore
  dsimp only
  rw [if_neg (fun h => h hc)]
  cases s.evAdd.find? fun e => e.1 == fldKey ⟨a, f.hi, f.lo⟩ with
  | some e => exact ⟨State.fld_setFld_same _ ⟨a, f.hi, f.lo⟩ _ hl.2 hl.1, bits_putBits_same _ _ _ _ hl.2⟩
  | none => exact ⟨State.fld_setFld_same _ ⟨a, f.hi, f.lo⟩ _ hl.2 hl.1, rfl⟩

theorem readRc_frame {ps : List Part} {as : List Nat} {s : State} {a n : Nat} {f : FieldDesc} (ha : a ∈ as) :
    Frame ps as s (s.readRc a n f).1 := by
  unfold readRc
  dsimp only
  split
  · exact Frame.refl
  · split
    · next _ base share _ =>
      refine (Frame.setFld (s := s) ⟨a, f.hi, f.lo⟩ share ha).trans ?_
      exact Frame.inert (fun p hp => by
        cases p <;> first | rfl | exact absurd (List.mem_append.mpr (Or.inr (by decide))) hp) rfl rfl
    · exact Frame.setFld ⟨a, f.hi, f.lo⟩ _ ha

theorem readRcs_frame {ps : List Part} {as : List Nat} {a : Nat} (ha : a ∈ as) : (fs : List FieldDesc) → (s : State) → (n : Nat) →
    Frame ps as s (readRcs a fs s n).1
  | [], _, _ => Frame.refl
  | f :: fs, s, n => by
    unfold readRcs
    exact (readRc_frame ha).trans (readRcs_frame ha fs _ _)

theorem readRcs_apart {a : Nat} {g : FieldDesc} : (fs : List FieldDesc) →
    (∀ f ∈ fs, apart f g = true ∧ apart g f = true) → (s : State) → (n : Nat) →
    (readRcs a fs s n).1.fld ⟨a, g.hi, g.lo⟩ = s.fld ⟨a, g.hi, g.lo⟩ ∧ bits (readRcs a fs s n).2 g.hi g.lo = bits n g.hi g.lo
  | [], _, _, _ => ⟨rfl, rfl⟩
  | f :: fs, h, s, n => by
    unfold readRcs
    have h1 := readRc_apart (s := s) (a := a) (n := n) (h f List.mem_cons_self).1 (h f List.mem_cons_self).2
    have h2 := readRcs_apart (a := a) fs (fun x hx => h x (List.mem_cons_of_mem _ hx)) (s.readRc a n f).1 (s.readRc a n f).2
    exact ⟨h2.1.trans h1.1, h2.2.trans h1.2.1⟩

/-- Every RC field of a word that is read (R8, R9). -/
theorem readRcs_rc {a : Nat} {g : FieldDesc} (hc : g.acc = .rc) : (fs : List FieldDesc) → allApart fs = true → g ∈ fs →
    (s : State) → (n : Nat) →
    (readRcs a fs s n).1.fld ⟨a, g.hi, g.lo⟩ = s.rcShare ⟨a, g.hi, g.lo⟩ % 2 ^ (g.hi + 1 - g.lo) ∧
      bits (readRcs a fs s n).2 g.hi g.lo = s.rcBefore ⟨a, g.hi, g.lo⟩ (bits n g.hi g.lo)
  | f :: fs, ha, hm, s, n => by
    simp only [allApart, Bool.and_eq_true, List.all_eq_true, decide_eq_true_eq] at ha
    unfold readRcs
    rcases List.mem_cons.mp hm with rfl | hm
    · have h1 := readRc_same (s := s) (a := a) (n := n) ⟨ha.1.1.2, ha.1.2⟩ hc
      have h2 := readRcs_apart (a := a) fs (fun x hx => ⟨(ha.1.1.1 x hx).1.2, (ha.1.1.1 x hx).1.1⟩) (s.readRc a n g).1 (s.readRc a n g).2
      exact ⟨h2.1.trans h1.1, h2.2.trans h1.2⟩
    · have h1 := readRc_apart (s := s) (a := a) (n := n) (ha.1.1.1 g hm).1.1 (ha.1.1.1 g hm).1.2
      have h2 := readRcs_rc (a := a) hc fs ha.2 hm (s.readRc a n f).1 (s.readRc a n f).2
      rw [h1.2.2.2, h1.2.2.1, h1.2.1] at h2
      exact h2

end Sys2Proof.Machine
end

