-- ==== Sys2Proof/WellFormed.lean ====
section
/-! DEFINITION. Which commands are well formed: the limits the spec puts on what a command carries and the operand types do not already say. -/

namespace Sys2Proof

/-- Every field fits the width the manifest gives it (R21). -/
def Manifest.wf (m : Manifest) : Bool :=
  decide (m.stream < 4096) && decide (m.kind < 16) && decide (m.stratum < 4) && decide (m.plane < 16) && decide (m.flags < 1024) &&
  decide (m.tide < 2 ^ 48) && decide (m.frame < 2 ^ 32) && decide (m.time < 2 ^ 32) && decide (m.epoch < 65536) &&
  decide (m.setEpoch < 65536) && decide (m.expSet < 65536) && decide (m.origin < 2048) && decide (m.domain < 32) &&
  decide (m.firstRow < 65536) && decide (m.rows < 65536) && decide (m.handle < 65536)

/-- A parcel has 1 to 16,384 whole flits of payload at a 64-byte offset of 38 bits (R15). -/
def Parcel.wf (p : Parcel) : Bool :=
  p.man.wf && decide (p.payload.length % 64 = 0) && decide (64 ≤ p.payload.length) && decide (p.payload.length ≤ 64 * 16384) &&
  decide (p.offset % 64 = 0) && decide (p.offset < 2 ^ 38)

/-- The fields of a PTP message fit their widths; its domain number is 8 bits (R119). -/
def PtpMsg.wf (m : PtpMsg) : Bool :=
  decide (m.domain < 256) && decide (m.seq < 65536) && decide (m.prio1 < 256) && decide (m.clockClass < 256) && decide (m.accuracy < 256) &&
  decide (m.variance < 65536) && decide (m.prio2 < 256) && decide (m.steps < 65536)

/-- No lane delivers two control blocks at once (R129). -/
def lanesDistinct (l : List LaneBlock) : Bool := decide (l.map (·.lane)).Nodup

/-- A picture has a size, its crop lies inside it, and its reference pictures are of its reference picture set (R262, R264). -/
def AuFacts.wf (a : AuFacts) : Bool :=
  decide (0 < a.width) && decide (0 < a.height) && decide (a.cropX + a.cropW ≤ a.width) && decide (a.cropY + a.cropH ≤ a.height) &&
  a.refs.all fun r => decide (r ∈ a.rps)

/-- An HCP message carries a tag of 16 bytes (R369). -/
def HcpMsg.wf (m : HcpMsg) : Bool := decide (m.tag.length = 16)

/-- A measured lane offset is a signed 7-bit code (R224). -/
def LaneMeas.wf (m : LaneMeas) : Bool := decide (-64 ≤ m.offset) && decide (m.offset < 64)

/-- What a command carries lies within the spec's limits; a command without such limits is always well formed. -/
def Instr.wellFormed : Instr → Bool
  | .parcelWrite _ p => p.wf
  | .quayRead _ _ _ ofs len => decide (ofs % 64 = 0) && decide (len % 64 = 0) && decide (0 < len)
  | .tideFire eyes => decide (eyes.map fun e => (e.port, e.lane)).Nodup
  | .ptpMessageRx _ msg => msg.wf
  | .laneDeskew _ arrivals => decide (arrivals.map (·.1)).Nodup
  | .sof _ blocks => lanesDistinct blocks
  | .seam _ blocks prev _ => lanesDistinct blocks && decide (prev.map (·.lane)).Nodup
  | .eof _ blocks prev _ => lanesDistinct blocks && decide (prev.map (·.lane)).Nodup
  | .calTempSample temps => decide (temps.map (·.1)).Nodup
  | .calRunDone _ _ lanes => lanes.all LaneMeas.wf
  | .decDecodeDone _ au => au.wf
  | .memRequest _ addr half _ _ => decide (addr % (if half then 32 else 64) = 0)
  | .pcieLinkUp _ _ gen width _ _ _ => decide (1 ≤ gen ∧ gen ≤ 5) && decide (width = 1 ∨ width = 2 ∨ width = 4 ∨ width = 8 ∨ width = 16)
  | .hcpRead _ m => m.wf
  | .hcpWrite _ m => m.wf
  | .own _ m => m.wf
  | .hcpHeartbeat _ m => m.wf
  | .hcpTxn _ m => m.wf
  | .withdrawList _ m => m.wf
  | .hcpClose _ m => m.wf
  | .hcpPilotMessage _ _ m => m.wf
  | .audFrame _ samples => decide (samples.length ≤ 16)
  | .twbTargetRead _ n => decide (0 < n)
  | _ => true

end Sys2Proof
end

section
/-! PROOFS. Control-space accesses as commands: those that are discarded, what a read of a mapped word leaves (RC fields, latched upper words, the WRITE record), and which registers of SYS, PWR and FAB a write sets without an action. -/

namespace Sys2Proof.Machine

open State

/-! ### The commands -/

theorem exec_registerWrite (m : Fin 32) (addr : BitVec 32) (be : BitVec 4) (v : Word) (s : State) :
    exec (.registerWrite m addr be v) s = .next (s.controlWrite m.val addr.toNat be.toNat v.toNat .plain) := rfl

theorem exec_rcRead (m : Fin 32) (addr : BitVec 32) (be : BitVec 4) (s : State) :
    exec (.rcRead m addr be) s = .next (s.readCmd m.val addr.toNat be.toNat) := rfl

theorem exec_wideValueRead (m : Fin 32) (addr : BitVec 32) (be : BitVec 4) (s : State) :
    exec (.wideValueRead m addr be) s = .next (s.readCmd m.val addr.toNat be.toNat) := rfl

theorem readCmd_of_controlRead {s t : State} {m a be : Nat} {w : Word} (h : s.controlRead m a be = (t, w)) :
    s.readCmd m a be = { t with rsp := w } := by
  unfold readCmd
  rw [h]

/-- A whole, aligned read inside control space is a read of its word. -/
theorem readCmd_of_readWord {s t : State} {m a : Nat} {w : Word} (ha : a % 4 = 0) (hl : a < 0x4000000)
    (h : s.readWord m a = (t, w)) : s.readCmd m a 15 = { t with rsp := w } :=
  readCmd_of_controlRead (by
    unfold controlRead
    rw [if_neg (by omega), h])

/-! ### Discarded accesses (R6, R7) -/

theorem controlWrite_malformed {s : State} {m a be v : Nat} {env : WriteEnv} (h : be ≠ 15 ∨ a % 4 ≠ 0) :
    s.controlWrite m a be v env = s := if_pos (by omega)

theorem readCmd_malformed {s : State} {m a be : Nat} (h : be ≠ 15 ∨ a % 4 ≠ 0) : s.readCmd m a be = { s with rsp := 0 } :=
  readCmd_of_controlRead (if_pos (by omega))

theorem fieldsAt_mapped {a : Nat} {r : RegDesc} (h : regAt a = some r) : fieldsAt a = r.fields := by
  unfold fieldsAt
  rw [h]

theorem fieldsAt_unmapped {a : Nat} (h : regAt a = none) : fieldsAt a = [] := by
  unfold fieldsAt
  rw [h]

theorem logsWrite_unmapped {a : Nat} (h : regAt a = none) (hap : ¬(0x68000 ≤ a ∧ a < 0x69000)) : logsWrite a = false := by
  unfold logsWrite
  rw [fieldsAt_unmapped h, decide_eq_false hap]
  exact Bool.and_false _

theorem performWrite_unmapped {s : State} {m a v : Nat} {env : WriteEnv} (h : regAt a = none) (hap : ¬(0x68000 ≤ a ∧ a < 0x69000)) :
    s.performWrite m a v env = s := by
  unfold performWrite
  rw [if_neg hap, fieldsAt_unmapped h]
  exact if_pos rfl

/-- A write of an unmapped word, by a master that may write, changes nothing and is not logged. -/
theorem controlWrite_unmapped {s : State} {m a be v : Nat} {env : WriteEnv} (h : regAt a = none)
    (hap : ¬(0x68000 ≤ a ∧ a < 0x69000)) (hm : s.mayWrite m a env = true) : s.controlWrite m a be v env = s := by
  have hrec : s.writeRec m a v 0 = s := by
    unfold writeRec
    rw [logsWrite_unmapped h hap, Bool.and_false]
    exact if_neg Bool.false_ne_true
  unfold controlWrite
  rw [if_pos hm, hrec, performWrite_unmapped h hap]
  exact ite_self s

theorem readCmd_unmapped {s : State} {m a be : Nat} (h : regAt a = none) (hap : ¬(0x68000 ≤ a ∧ a < 0x69000)) :
    s.readCmd m a be = { s with rsp := 0 } := by
  have hw : s.readWord m a = (s, 0) := by
    unfold readWord
    rw [if_neg hap, h]
  refine readCmd_of_controlRead ?_
  unfold controlRead
  rw [hw]
  exact ite_self _

/-! ### What follows the RC fields of a read -/

/-- The free value that a read of LZE_STATUS or ENC_STATUS shows is drawn. -/
def readDraw (s : State) (a : Nat) : State :=
  if a = 0x190004 ∨ (0x160000 ≤ a ∧ a < 0x170000 ∧ a % 0x4000 = 4) then s.nextFree else s

/-- The end of a read of word `a` that returns `v`: the free values it shows are drawn, and a control master's RC clear is logged (R432). -/
def readDone (s : State) (m a : Nat) (r : RegDesc) (v : Nat) : State :=
  if hasRc r && isControlMaster m then (readDraw s a).logRec 0x07 m 0 [a + v <<< 32] else readDraw s a

theorem frame_part {ps : List Part} {as : List Nat} {s t : State} {p : Part} (h : Only [p] s t) (hp : p ∈ ps) (hr : t.regs = s.regs)
    (hk : t.pilots = s.pilots) : Frame ps as s t :=
  Frame.inert (h.mono fun q hq => by
    rw [List.mem_singleton.mp hq]
    exact List.mem_append_left _ hp) hr hk

theorem frame_nextFree {ps : List Part} {as : List Nat} {s : State} (h : Part.fresh ∈ ps) : Frame ps as s s.nextFree :=
  frame_part (Only.of_keeps (n := 4) (keeps_nextFree Keeps.refl rfl) (by decide)) h rfl rfl

theorem frame_rsp {ps : List Part} {as : List Nat} {s : State} {w : Word} (h : Part.rsp ∈ ps) : Frame ps as s { s with rsp := w } :=
  frame_part (Only.of_keeps (n := 64) (keeps_rsp Keeps.refl rfl) (by decide)) h rfl rfl

theorem frame_latched {ps : List Part} {as : List Nat} {s : State} {l : SMap (Option Word)} (h : Part.latched ∈ ps) :
    Frame ps as s { s with latched := l } :=
  frame_part (Only.of_keeps (n := 32) (keeps_latched Keeps.refl rfl) (by decide)) h rfl rfl

theorem readDraw_frame {ps : List Part} {as : List Nat} {s : State} {a : Nat} (h : Part.fresh ∈ ps) : Frame ps as s (readDraw s a) := by
  unfold readDraw
  split
  · exact frame_nextFree h
  · exact Frame.refl

theorem word_readDraw {s : State} {a x : Nat} : (readDraw s a).word x = s.word x := by
  unfold readDraw
  split <;> rfl

theorem readDone_frame {ps : List Part} {as : List Nat} {s : State} {m a : Nat} {r : RegDesc} {v : Nat} (h : Part.fresh ∈ ps) :
    Frame ps as s (readDone s m a r v) := by
  unfold readDone
  split
  · exact (readDraw_frame h).trans (Frame.logRec _ _ _ _)
  · exact readDraw_frame h

/-- The end of a read leaves its own word, where the logbook's record counts nothing in it. -/
theorem word_readDone {s : State} {m a : Nat} {r : RegDesc} {v : Nat} (h : calm a = true ∨ isControlMaster m = false) :
    (readDone s m a r v).word a = s.word a := by
  unfold readDone
  split
  case isTrue hrec =>
    have hm := (Bool.and_eq_true_iff.mp hrec).2
    have hc : calm a = true := h.resolve_right (by rw [hm]; decide)
    rw [State.word_logRec _ _ _ _ hc, word_readDraw]
  case isFalse => exact word_readDraw

/-- A read of a word of its own (R8, R9). -/
theorem readWord_own {s : State} {m a : Nat} {r : RegDesc} (hr : regAt a = some r) (hap : ¬(0x68000 ≤ a ∧ a < 0x69000))
    (hw : wideOf a = (0, 1)) :
    s.readWord m a = (readDone (readRcs a r.fields s (s.showWord m a r)).1 m a r (readRcs a r.fields s (s.showWord m a r)).2,
      BitVec.ofNat 32 (readRcs a r.fields s (s.showWord m a r)).2) := by
  unfold readWord
  rw [if_neg hap, hr]
  dsimp only
  rw [hw]
  rfl

/-! ### Wide values (R11) -/

theorem readRcs_none {a : Nat} : (fs : List FieldDesc) → (fs.any fun f => decide (f.acc = .rc)) = false → (s : State) → (n : Nat) →
    readRcs a fs s n = (s, n)
  | [], _, _, _ => rfl
  | f :: fs, h, s, n => by
    obtain ⟨hf, hfs⟩ := Bool.or_eq_false_iff.mp (List.any_cons ▸ h)
    have hread : s.readRc a n f = (s, n) := if_pos (of_decide_eq_false hf)
    unfold readRcs
    rw [hread]
    exact readRcs_none fs hfs s n

/-- A read of the lowest word of a wide value without RC fields. -/
theorem readWord_low {s : State} {m a n : Nat} {r : RegDesc} (hr : regAt a = some r) (hap : ¬(0x68000 ≤ a ∧ a < 0x69000))
    (hw : wideOf a = (0, n)) (hn : 1 < n) (hrc : hasRc r = false) :
    s.readWord m a = (readDone (latchUpper m a ((List.range n).drop 1) s) m a r (s.showWord m a r),
      BitVec.ofNat 32 (s.showWord m a r)) := by
  unfold readWord
  rw [if_neg hap, hr]
  dsimp only
  rw [hw]
  dsimp only
  rw [if_neg (by decide), if_pos hn, readRcs_none _ hrc]
  rfl

/-- A read of an upper word that was latched. -/
theorem readWord_upper {s : State} {m a i n : Nat} {r : RegDesc} {w : Word} (hr : regAt a = some r)
    (hap : ¬(0x68000 ≤ a ∧ a < 0x69000)) (hw : wideOf a = (i, n)) (hi : i ≠ 0) (hl : s.latched.get (fun _ => none) a = some w) :
    s.readWord m a = (s, w) := by
  unfold readWord
  rw [if_neg hap, hr]
  dsimp only
  rw [hw]
  dsimp only
  rw [if_pos hi, hl]

/-! `view_latched` and `viewScn_latched` rewrite with the next lemmas; `(rfl)` keeps `simp` from having the kernel compare the whole views. -/

theorem headLine_latched (s : State) (l : SMap (Option Word)) (h : Nat) : ({ s with latched := l } : State).headLine h = s.headLine h := (rfl)

theorem layer_latched (s : State) (l : SMap (Option Word)) (i : Nat) : ({ s with latched := l } : State).layer i = s.layer i := (rfl)

theorem queue_latched (s : State) (l : SMap (Option Word)) (a : Nat) : ({ s with latched := l } : State).queue a = s.queue a := (rfl)

theorem viewScn_latched (s : State) (l : SMap (Option Word)) (a : Nat) : ({ s with latched := l } : State).viewScn a = s.viewScn a := by
  unfold viewScn
  simp only [headLine_latched, layer_latched, queue_latched]

theorem viewSys_latched (s : State) (l : SMap (Option Word)) (m a : Nat) : ({ s with latched := l } : State).viewSys m a = s.viewSys m a := (rfl)

theorem viewTime_latched (s : State) (l : SMap (Option Word)) (a : Nat) : ({ s with latched := l } : State).viewTime a = s.viewTime a := (rfl)

theorem viewEvt_latched (s : State) (l : SMap (Option Word)) (a : Nat) : ({ s with latched := l } : State).viewEvt a = s.viewEvt a := (rfl)

theorem viewPilot_latched (s : State) (l : SMap (Option Word)) (a : Nat) : ({ s with latched := l } : State).viewPilot a = s.viewPilot a := (rfl)

theorem viewSrx_latched (s : State) (l : SMap (Option Word)) (a : Nat) : ({ s with latched := l } : State).viewSrx a = s.viewSrx a := (rfl)

theorem viewPipe_latched (s : State) (l : SMap (Option Word)) (a : Nat) : ({ s with latched := l } : State).viewPipe a = s.viewPipe a := (rfl)

theorem viewEnc_latched (s : State) (l : SMap (Option Word)) (a : Nat) : ({ s with latched := l } : State).viewEnc a = s.viewEnc a := (rfl)

theorem viewDec_latched (s : State) (l : SMap (Option Word)) (a : Nat) : ({ s with latched := l } : State).viewDec a = s.viewDec a := (rfl)

theorem viewLze_latched (s : State) (l : SMap (Option Word)) (a : Nat) : ({ s with latched := l } : State).viewLze a = s.viewLze a := (rfl)

theorem viewNet_latched (s : State) (l : SMap (Option Word)) (a : Nat) : ({ s with latched := l } : State).viewNet a = s.viewNet a := (rfl)

/-- No view reads the latched words. -/
theorem view_latched (s : State) (l : SMap (Option Word)) (m a : Nat) : ({ s with latched := l } : State).view m a = s.view m a := by
  unfold view
  simp only [viewSys_latched, viewTime_latched, viewEvt_latched, viewPilot_latched, viewSrx_latched, viewPipe_latched,
    viewEnc_latched, viewDec_latched, viewLze_latched, viewScn_latched, viewNet_latched, queue_latched]

theorem showWord_latched (s : State) (l : SMap (Option Word)) (m a : Nat) (r : RegDesc) :
    ({ s with latched := l } : State).showWord m a r = s.showWord m a r := by
  unfold showWord
  rw [view_latched]
  rfl

/-- What word `b` shows a master when it is latched: 0 where no map names it. -/
def latchValue (s : State) (m b : Nat) : Word :=
  BitVec.ofNat 32 (match regAt b with | some r => s.showWord m b r | none => 0)

theorem latchValue_mapped {s : State} {m b : Nat} {r : RegDesc} (h : regAt b = some r) :
    latchValue s m b = BitVec.ofNat 32 (s.showWord m b r) := by
  unfold latchValue
  rw [h]

theorem latchValue_latched (s : State) (l : SMap (Option Word)) (m b : Nat) : latchValue { s with latched := l } m b = latchValue s m b := by
  unfold latchValue
  split
  · rw [showWord_latched]
  · rfl

theorem latchUpper_cons (m a i : Nat) (is : List Nat) (s : State) :
    latchUpper m a (i :: is) s =
      latchUpper m a is { s with latched := s.latched.set (fun _ => none) (a + 4 * i) (some (latchValue s m (a + 4 * i))) } := rfl

theorem latchUpper_frame {ps : List Part} {as : List Nat} {m a : Nat} (h : Part.latched ∈ ps) : (is : List Nat) → (s : State) →
    Frame ps as s (latchUpper m a is s)
  | [], _ => Frame.refl
  | i :: is, s => by
    rw [latchUpper_cons]
    exact (frame_latched h).trans (latchUpper_frame h is _)

/-- The words named are latched as they show; the others keep what was latched of them. -/
theorem latchUpper_latched {m a i : Nat} : (is : List Nat) → (s : State) →
    (latchUpper m a is s).latched.get (fun _ => none) (a + 4 * i) =
      if i ∈ is then some (latchValue s m (a + 4 * i)) else s.latched.get (fun _ => none) (a + 4 * i)
  | [], _ => rfl
  | j :: is, s => by
    rw [latchUpper_cons, latchUpper_latched is, latchValue_latched, SMap.get_set]
    by_cases hm : i ∈ is
    · rw [if_pos hm, if_pos (List.mem_cons_of_mem _ hm)]
    · rw [if_neg hm]
      by_cases hj : i = j
      · subst hj
        rw [if_pos rfl, if_pos List.mem_cons_self]
      · rw [if_neg (by omega), if_neg (by simp [hj, hm])]

/-- The end of a read latches nothing. -/
theorem readDone_latched {s : State} {m a : Nat} {r : RegDesc} {v : Nat} : (readDone s m a r v).latched = s.latched :=
  (readDone_frame (ps := [.fresh]) (as := []) List.mem_cons_self).1 .latched (by decide)

/-- The offsets of the registers of an array. -/
def arrayOffsets : List (Nat × Nat) → List Nat
  | [] => [0]
  | (c, s) :: rest => (List.range c).flatMap fun k => (arrayOffsets rest).map (s * k + ·)

theorem mem_arrayOffsets : (dims : List (Nat × Nat)) → (o : Nat) → dimsMatch dims o = true → o ∈ arrayOffsets dims
  | [], o, h => by simpa [dimsMatch, arrayOffsets] using h
  | (c, s) :: rest, o, h => by
    simp only [dimsMatch, Bool.and_eq_true, decide_eq_true_eq] at h
    obtain ⟨hk, hrest⟩ := h
    exact List.mem_flatMap.mpr ⟨o / s, List.mem_range.mpr hk,
      List.mem_map.mpr ⟨o % s, mem_arrayOffsets rest _ hrest, Nat.div_add_mod o s⟩⟩

/-- The word at an address has no RC field. -/
def rcFree (a : Nat) : Bool := (regAt a).all fun r => !hasRc r

/-- No lowest word of a wide value has an RC field. -/
theorem wideTable_rcFree : (wideTable.all fun e => (arrayOffsets e.2.1).all fun o => rcFree (e.1 + o)) = true := by decide +kernel

/-- The lowest word of a wide value is one that an entry of the table of wide values places. -/
theorem wideOf_low {a n : Nat} (h : wideOf a = (0, n)) (hn : 1 < n) :
    ∃ e ∈ wideTable, e.1 ≤ a ∧ dimsMatch e.2.1 (a - e.1) = true := by
  unfold wideOf at h
  cases hf : wideTable.findSome? fun e => (wideIndex e a).map fun i => (i, e.2.2) with
  | none =>
    rw [hf] at h
    have : 1 = n := congrArg Prod.snd h
    omega
  | some p =>
    rw [hf] at h
    obtain ⟨e, he, hi⟩ := List.exists_of_findSome?_eq_some hf
    obtain ⟨i, hidx, hp⟩ := Option.map_eq_some_iff.mp hi
    have hi0 : i = 0 := congrArg Prod.fst (hp.trans h)
    subst hi0
    have hmatch := List.find?_some hidx
    simp only [Nat.mul_zero, Nat.add_zero, Nat.sub_zero, Bool.and_eq_true, decide_eq_true_eq] at hmatch
    exact ⟨e, he, hmatch⟩

theorem hasRc_wideLow {a n : Nat} {r : RegDesc} (hr : regAt a = some r) (h : wideOf a = (0, n)) (hn : 1 < n) : hasRc r = false := by
  obtain ⟨e, he, hle, hd⟩ := wideOf_low h hn
  have ho := List.all_eq_true.mp (List.all_eq_true.mp wideTable_rcFree e he) _ (mem_arrayOffsets _ _ hd)
  rw [Nat.add_sub_cancel' hle] at ho
  unfold rcFree at ho
  rw [hr] at ho
  simpa using ho

/-! ### Registers of SYS, PWR and FAB that start no action -/

/-- The words of SYS, PWR and FAB below the aperture among which only the transaction and berth commands start an action. -/
def inertBlock (a : Nat) : Prop :=
  0x10C ≤ a ∧ a < 0x10000 ∨ 0x10018 ≤ a ∧ a < 0x20000 ∨ 0x60000 ≤ a ∧ a < 0x68000 ∧ a ≠ 0x60200

theorem inBlock_inertBlock {a : Nat} (h : inertBlock a) : inBlock a = true := if_pos (by unfold inertBlock at h; omega)

theorem inSlot_inertBlock {a : Nat} (h : inertBlock a) : inSlot a = true := if_pos (by unfold inertBlock at h; omega)

theorem calm_inertBlock {a : Nat} (h : inertBlock a) : calm a = true := by
  unfold inertBlock at h
  unfold calm
  rw [decide_eq_false (by omega), decide_eq_false (p := 0x30000 ≤ a ∧ a < 0x40000) (by omega)]
  rfl

theorem ctrlUnit_inertBlock {a : Nat} (h : inertBlock a) : ctrlUnit a = none := by
  unfold inertBlock at h
  unfold ctrlUnit
  simp (disch := omega) only [if_neg]

/-- But for the transaction and berth commands, a write there does no more than set its word. -/
theorem action_inertBlock {old s : State} {m a v : Nat} {env : WriteEnv} (h : inertBlock a) (ht : a ≠ 0x200) (hb : a ≠ 0x60100) :
    action old m a v env s = s := by
  have hu := ctrlUnit_inertBlock h
  unfold inertBlock at h
  unfold action
  rw [hu]
  dsimp only
  rw [if_neg (by omega), if_neg ht]
  rcases h with h | h | h
  · exact if_pos h.2
  · rw [if_neg (by omega), if_pos h.2]
    unfold pwrAction
    simp (disch := omega) only [if_neg]
  · simp (disch := omega) only [if_neg, if_pos]
    unfold fabAction
    rw [if_neg hb, if_neg h.2.2]

theorem ignored_of_ne {s : State} {a : Nat} (h : a ≠ 0x60100) : s.ignored a = false := by
  unfold ignored
  rw [decide_eq_false h]
  rfl

/-- Every field of the word is writable and of class L, and the word has one. -/
def liveWord (a : Nat) : Prop := fieldsAt a ≠ [] ∧ ∀ f ∈ fieldsAt a, f.acc = .rw ∧ f.cls = .l

theorem any_isWritable_liveWord {a : Nat} (h : liveWord a) : (fieldsAt a).any isWritable = true := by
  obtain ⟨f, hf⟩ := List.exists_mem_of_ne_nil _ h.1
  refine List.any_eq_true.mpr ⟨f, hf, ?_⟩
  unfold isWritable
  rw [(h.2 f hf).1]
  rfl

theorem all_cls_liveWord {a : Nat} {c : Cls} (h : liveWord a) (hc : c ≠ .l) :
    ((fieldsAt a).all fun (f : FieldDesc) => decide (f.cls ≠ c)) = true :=
  List.all_eq_true.mpr fun f hf => by simpa [(h.2 f hf).2] using hc.symm

theorem onlyX_liveWord {a : Nat} (h : liveWord a) : onlyX (fieldsAt a) = false := by
  obtain ⟨f, hf, hw⟩ := List.any_eq_true.mp (any_isWritable_liveWord h)
  unfold onlyX
  dsimp only
  rw [Bool.and_eq_false_iff]
  refine Or.inr (List.all_eq_false.mpr ⟨f, List.mem_filter.mpr ⟨hf, hw⟩, ?_⟩)
  rw [(h.2 f hf).2]
  decide

theorem plainReg_liveWord {a : Nat} (ha : a % 4 = 0) (hi : inertBlock a) (hl : liveWord a) (hw : wideOf a = (0, 1)) :
    plainReg a = true := by
  have hap : ¬(0x68000 ≤ a ∧ a < 0x69000) := by unfold inertBlock at hi; omega
  have htw : ¬(0x1F8000 ≤ a ∧ a < 0x1F9000 ∧ a % 0x200 = 4) := by unfold inertBlock at hi; omega
  have hlt : a < 0x4000000 := by unfold inertBlock at hi; omega
  unfold plainReg
  rw [decide_eq_true ha, decide_eq_true hlt, decide_eq_false hap, any_isWritable_liveWord hl, decide_eq_true hw,
    all_cls_liveWord hl (by decide), onlyX_liveWord hl, decide_eq_false htw, inBlock_inertBlock hi, inSlot_inertBlock hi,
    fieldsAt_apart]
  rfl

theorem liveWord_ne_command {a : Nat} (h : liveWord a) : a ≠ 0x200 ∧ a ≠ 0x60100 := by
  constructor
  · rintro rfl
    exact absurd h.2 (by decide +kernel)
  · rintro rfl
    exact absurd h.2 (by decide +kernel)

/-- A permitted write of such a word: a WRITE record, and the word takes it. -/
theorem wrote_liveWord {s : State} {m a v : Nat} (hm : s.mayWrite m a .plain = true) (ha : a % 4 = 0) (hi : inertBlock a)
    (hl : liveWord a) (hw : wideOf a = (0, 1)) : Wrote a v s (s.controlWrite m a 15 v .plain) := by
  obtain ⟨ht, hb⟩ := liveWord_ne_command hl
  obtain ⟨_, u, _, hu, he⟩ := write_one (v := v) (plainReg_liveWord ha hi hl hw) hm (ignored_of_ne hb)
  rw [he, action_inertBlock hi ht hb]
  exact hu

/-! ### Event words of SYS, PWR and FAB -/

/-- An event word: one register of single W1C bits, which no map clamps, and whose write starts no action. -/
structure EventWord (a : Nat) : Prop where
  inert : inertBlock a
  plain : plainReg a = true
  oneBit : ∀ f ∈ fieldsAt a, f.acc = .w1c ∧ f.cls = .s ∧ f.hi = f.lo
  clamp : ∀ v, clampWrite a v = v
  notCommand : a ≠ 0x200 ∧ a ≠ 0x60100

theorem eventWord_sys : EventWord 0x130 :=
  ⟨by unfold inertBlock; omega, by decide +kernel, by decide +kernel, fun _ => rfl, by decide⟩

theorem eventWord_pwr : EventWord 0x100D0 :=
  ⟨by unfold inertBlock; omega, by decide +kernel, by decide +kernel, fun _ => rfl, by decide⟩

theorem eventWord_fab : EventWord 0x60000 :=
  ⟨by unfold inertBlock; omega, by decide +kernel, by decide +kernel, fun _ => rfl, by decide⟩

theorem EventWord.no_classX {a : Nat} (h : EventWord a) : ((fieldsAt a).all fun (f : FieldDesc) => decide (f.cls ≠ .x)) = true :=
  List.all_eq_true.mpr fun f hf => by
    rw [(h.oneBit f hf).2.1]
    rfl

theorem EventWord.wrote {s : State} {m a v : Nat} (h : EventWord a) (hm : s.mayWrite m a .plain = true) :
    Wrote a v s (s.controlWrite m a 15 v .plain) := by
  obtain ⟨ht, hb⟩ := h.notCommand
  obtain ⟨_, u, _, hu, he⟩ := write_one (v := v) h.plain hm (ignored_of_ne hb)
  rw [he, action_inertBlock h.inert ht hb]
  exact hu

/-- A write of an event word clears the bits it names but those set in this FCLK cycle (R8, R9). -/
theorem EventWord.field {s t : State} {a v : Nat} (h : EventWord a) (ht : Wrote a v s t) {f : FieldDesc} (hf : f ∈ fieldsAt a) :
    t.fld ⟨a, f.hi, f.lo⟩ =
      if bits v f.hi f.lo = 1 ∧ bits (s.evSet.get (fun _ => 0) a).toNat f.hi f.lo = 0 then 0 else s.fld ⟨a, f.hi, f.lo⟩ := by
  obtain ⟨hacc, hcls, h1⟩ := h.oneBit f hf
  have hlog : a ≠ 0x50044 := by
    have := h.inert
    unfold inertBlock at this
    omega
  have := ht.w1c h.no_classX (calm_inertBlock h.inert) hlog f hf hacc hcls h1
  rwa [h.clamp] at this

end Sys2Proof.Machine
end

section
/-! PROOFS. The obligations of the scope: what a step runs, accesses that do nothing, writes of live fields, event bits and counters, wide values, and the state after reset. -/

namespace Sys2Proof.Machine

open State

/-- Settles O3: malformed accesses stop at the first test of a read or a write, and an unmapped word has no fields, so that nothing is written, logged or read. -/
theorem discardedAccesses : Obligations.DiscardedAccesses := by
  unfold Obligations.DiscardedAccesses
  refine ⟨fun m addr be v s h => ?_, fun m addr be v s hr hap => ?_⟩
  · rw [exec_registerWrite, exec_rcRead, exec_wideValueRead, controlWrite_malformed h, readCmd_malformed h]
    exact ⟨rfl, rfl, rfl⟩
  · rw [exec_registerWrite, exec_rcRead, readCmd_unmapped hr hap]
    exact ⟨fun hm => by rw [controlWrite_unmapped hr hap hm], rfl⟩

/-- Settles O5: such a word is no command's, so its write is the WRITE record and the word's fields alone. -/
theorem registerWriteSetsLiveFields : Obligations.RegisterWriteSetsLiveFields := by
  unfold Obligations.RegisterWriteSetsLiveFields
  intro m addr v s hm ha hi hne hfs hw
  have hl : liveWord addr.toNat := ⟨hne, hfs⟩
  have hu := wrote_liveWord (v := v.toNat) hm ha hi hl hw
  refine ⟨_, exec_registerWrite m addr 15 v s, fun f hf => ?_, ?_⟩
  · obtain ⟨hacc, hcls⟩ := hfs f hf
    exact hu.field f hf hacc (by rw [hcls]; decide)
  · exact Frame.of_wrote_free hu List.mem_cons_self (calm_inertBlock hi) (all_cls_liveWord hl (by decide))

/-- The W1C half of O6 (R8, R9). -/
theorem eventWord_write {m : Fin 32} {addr : BitVec 32} {v : Word} {s : State} (h : EventWord addr.toNat)
    (hm : s.mayWrite m.val addr.toNat .plain = true) :
    Completes (.registerWrite m addr 15 v) s fun t =>
      (∀ f ∈ fieldsAt addr.toNat, t.fld ⟨addr.toNat, f.hi, f.lo⟩ =
        (if bits v.toNat f.hi f.lo = 1 ∧ bits (s.evSet.get (fun _ => 0) addr.toNat).toNat f.hi f.lo = 0 then 0
         else s.fld ⟨addr.toNat, f.hi, f.lo⟩)) ∧ Frame [] [addr.toNat] s t :=
  ⟨_, exec_registerWrite m addr 15 v s, fun _ hf => h.field (h.wrote hm) hf,
    Frame.of_wrote_free (h.wrote hm) List.mem_cons_self (calm_inertBlock h.inert) h.no_classX⟩

/-- The RC half of O6: what is read and left of each RC field is `readRcs_rc`, and the end of the read leaves the word (R8, R9). -/
theorem rcRead_own {m : Fin 32} {addr : BitVec 32} {r : RegDesc} {s : State} (ha : addr.toNat % 4 = 0) (hlt : addr.toNat < 0x4000000)
    (hr : regAt addr.toNat = some r) (hap : ¬(0x68000 ≤ addr.toNat ∧ addr.toNat < 0x69000)) (hw : wideOf addr.toNat = (0, 1))
    (hc : calm addr.toNat = true ∨ isControlMaster m.val = false) :
    Completes (.rcRead m addr 15) s fun t =>
      (∀ f ∈ r.fields, f.acc = .rc →
        bits t.rsp.toNat f.hi f.lo = s.rcBefore ⟨addr.toNat, f.hi, f.lo⟩ (bits (s.showWord m.val addr.toNat r) f.hi f.lo) ∧
        t.fld ⟨addr.toNat, f.hi, f.lo⟩ = s.rcShare ⟨addr.toNat, f.hi, f.lo⟩ % 2 ^ (f.hi + 1 - f.lo)) ∧
      Frame [.rsp, .fresh] [addr.toNat] s t := by
  have happ := regAt_apart hr
  refine ⟨_, (exec_rcRead m addr 15 s).trans (congrArg _ (readCmd_of_readWord ha hlt (readWord_own hr hap hw))),
    fun f hf hacc => ?_, ?_⟩
  · obtain ⟨hleft, hread⟩ := readRcs_rc (a := addr.toNat) hacc r.fields happ hf s (s.showWord m.val addr.toNat r)
    constructor
    · rw [← hread, BitVec.toNat_ofNat]
      exact bits_low _ _ _ (allApart_hi happ hf)
    · rw [← hleft]
      exact State.fld_of_word (word_readDone hc)
  · exact ((readRcs_frame List.mem_cons_self r.fields s _).trans
      (readDone_frame (List.mem_cons_of_mem _ List.mem_cons_self))).trans (frame_rsp List.mem_cons_self)

/-- Settles O6, from its W1C half and its RC half. -/
theorem eventBitsAndCounters : Obligations.EventBitsAndCounters := by
  unfold Obligations.EventBitsAndCounters
  refine ⟨fun m addr v s hm haddr => ?_, fun m addr r s ha hlt hr hap hw hc => rcRead_own ha hlt hr hap hw hc⟩
  rcases haddr with rfl | rfl | rfl
  · exact eventWord_write eventWord_sys hm
  · exact eventWord_write eventWord_pwr hm
  · exact eventWord_write eventWord_fab hm

/-- Settles O7: no wide value has RC fields in its lowest word, and what a word shows does not depend on what is latched. -/
theorem wideReadLatchesUpperWords : Obligations.WideReadLatchesUpperWords := by
  unfold Obligations.WideReadLatchesUpperWords
  intro m addr n r s ha hlt hr hap
  refine ⟨fun hw hn => ?_, fun i w hw hi hl => ?_⟩
  · refine ⟨_, (exec_wideValueRead m addr 15 s).trans
      (congrArg _ (readCmd_of_readWord ha hlt (readWord_low hr hap hw hn (hasRc_wideLow hr hw hn)))), rfl, fun i q h0 hin hq => ?_, ?_⟩
    · have hmem : i ∈ (List.range n).drop 1 := by
        rw [List.range_eq_range', List.drop_range']
        exact List.mem_range'_1.mpr (by omega)
      rw [← latchValue_mapped hq]
      refine (congrArg (SMap.get (fun _ => none) · _) readDone_latched).trans ?_
      exact (latchUpper_latched _ s).trans (if_pos hmem)
    · exact ((latchUpper_frame (by decide) _ s).trans (readDone_frame (by decide))).trans (frame_rsp (by decide))
  · rw [exec_wideValueRead]
    exact congrArg _ (readCmd_of_readWord ha hlt (readWord_upper hr hap hw hi hl))

/-- Settles O1: it is the equation of `step` for a queue that holds a command. -/
theorem stepRunsFrontCommand : Obligations.StepRunsFrontCommand := by
  unfold Obligations.StepRunsFrontCommand
  intro c rest s h
  unfold step
  rw [h]

theorem word_reset (a : Nat) : State.reset.word a = resetWord a := rfl

/-- TIME_CTRL.RUN is 0 in the map's reset column. -/
theorem running_reset : State.reset.running = false := by decide

/-- Settles O9: every map of the state after reset is empty, so each word, berth, pilot and slot reads as its default. -/
theorem resetLeavesResetValues : Obligations.ResetLeavesResetValues := by
  unfold Obligations.ResetLeavesResetValues
  exact ⟨⟨word_reset, running_reset, rfl, fun _ => rfl, fun _ => rfl, rfl, rfl, fun _ => rfl⟩, rfl, rfl, rfl⟩

end Sys2Proof.Machine
end

section
/-! PROOFS. A concrete state and access that meet the hypotheses of each statement above that has some, with what it then says. -/

namespace Sys2Proof.Machine

/-- O3 of a pilot's write to a word that no map names. -/
theorem discardedAccesses_unmapped : exec (.registerWrite 16 0x300 15 5) State.reset = .next State.reset :=
  (discardedAccesses.2 16 0x300 15 5 State.reset (by decide +kernel) (by decide)).1 (by decide)

/-- O5 of a pilot's write of 0 to the claim and lease times of SYS, which their map clamps to 10. -/
theorem registerWriteSetsLiveFields_clamped : Completes (.registerWrite 16 0x10C 15 0) State.reset fun t =>
    t.fld ⟨0x10C, 31, 16⟩ = 10 ∧ t.fld ⟨0x10C, 15, 0⟩ = 10 := by
  obtain ⟨t, ht, hfields, -⟩ := registerWriteSetsLiveFields 16 0x10C 0 State.reset (by decide) (by decide) (by decide)
    (by decide +kernel) (by decide +kernel) (by decide +kernel)
  exact ⟨t, ht, hfields ⟨31, 16, .rw, .l, 0x3E8⟩ (by decide +kernel), hfields ⟨15, 0, .rw, .l, 0x1388⟩ (by decide +kernel)⟩

/-- SYS_EVENT holds bits 0 and 1, and bit 1 was set in this FCLK cycle. -/
def eventState : State := (State.reset.setWord 0x130 1).setBitsOf 0x130 2

/-- O6 of a write that would clear both bits: the one set in this cycle stays. -/
theorem eventBitsAndCounters_sameCycle : Completes (.registerWrite 16 0x130 15 3) eventState fun t =>
    t.fld ⟨0x130, 0, 0⟩ = 0 ∧ t.fld ⟨0x130, 1, 1⟩ = 1 := by
  obtain ⟨t, ht, hfields, -⟩ := eventBitsAndCounters.1 16 0x130 3 eventState (by decide) (.inl rfl)
  exact ⟨t, ht, (hfields ⟨0, 0, .w1c, .s, 0⟩ (by decide +kernel)).trans (by decide +kernel),
    (hfields ⟨1, 1, .w1c, .s, 0⟩ (by decide +kernel)).trans (by decide +kernel)⟩

/-- SYS_REJECT_CNT stood at 5 before this FCLK cycle, which counted one more. -/
def countState : State := (State.reset.setFld Reg.SYS_REJECT_CNT_COUNT 5).count Reg.SYS_REJECT_CNT_COUNT

/-- O6 of a read of that counter: 5 is read and 1 stays. -/
theorem eventBitsAndCounters_counter : Completes (.rcRead 1 0x120 15) countState fun t =>
    bits t.rsp.toNat 31 0 = 5 ∧ t.fld Reg.SYS_REJECT_CNT_COUNT = 1 := by
  obtain ⟨t, ht, hfields, -⟩ := eventBitsAndCounters.2 1 0x120 ⟨0x120, [], [⟨31, 0, .rc, .s, 0⟩]⟩ countState (by decide) (by decide)
    (by decide +kernel) (by decide) (by decide +kernel) (.inl (by decide))
  obtain ⟨hread, hleft⟩ := hfields ⟨31, 0, .rc, .s, 0⟩ List.mem_cons_self rfl
  exact ⟨t, ht, hread.trans (by decide +kernel), hleft.trans (by decide +kernel)⟩

/-- The wide value of PWR's words 0x10040 and 0x10044 holds 7 below 9. -/
def wideState : State := (State.reset.setWord 0x10040 7).setWord 0x10044 9

/-- O7 of a read of that value's lowest word. -/
theorem wideReadLatchesUpperWords_low : Completes (.wideValueRead 1 0x10040 15) wideState fun t =>
    t.rsp = 7 ∧ t.latched.get (fun _ => none) 0x10044 = some 9 := by
  obtain ⟨t, ht, hrsp, hlatched, -⟩ := (wideReadLatchesUpperWords 1 0x10040 2 ⟨0x10040, [], [⟨31, 0, .rw, .l, 0⟩]⟩ wideState
    (by decide) (by decide) (by decide +kernel) (by decide)).1 (by decide +kernel) (by decide)
  exact ⟨t, ht, hrsp.trans (by decide +kernel),
    (hlatched 1 ⟨0x10044, [], [⟨7, 0, .rw, .l, 0⟩]⟩ (by decide) (by decide) (by decide +kernel)).trans (by decide +kernel)⟩

end Sys2Proof.Machine
end

section
/-! PROOFS. The berth table and the references of units: what a fault records, what an acquire, a release, an allocation and a free do, and that a release which no queue follows is the berth table's alone. -/

namespace Sys2Proof.Machine

open State

variable {s t : State} {u h c : Nat} {ps : List Part} {as : List Nat}

theorem flag_of_fld {f : Fld} (e : t.fld f = s.fld f) : t.flag f = s.flag f := by
  unfold flag
  rw [e]

theorem berth_congr (e : t.fab = s.fab) (j : Nat) : t.berth j = s.berth j := by
  unfold berth
  rw [e]

theorem memByte_congr (e : t.mem = s.mem) (x : Nat) : t.memByte x = s.memByte x := by
  unfold memByte
  rw [e]

theorem memRead_congr (e : t.mem = s.mem) : (n x : Nat) → t.memRead x n = s.memRead x n
  | 0, _ => rfl
  | n + 1, x => by rw [memRead, memRead, memByte_congr e, memRead_congr e n]

/-- Only the fabric's own part changes. -/
theorem frame_fab {f : Fab} (hp : Part.fab ∈ ps) : Frame ps as s { s with fab := f } :=
  frame_part (Only.of_keeps (n := 2048) (keeps_fab Keeps.refl rfl) (by decide)) hp rfl rfl

/-- Only DRAM changes. -/
theorem frame_memWrite {a : Nat} {bs : List Byte} (hp : Part.mem ∈ ps) : Frame ps as s (s.memWrite a bs) :=
  frame_part (Only.of_keeps (n := 1024) (keeps_memWrite a bs Keeps.refl rfl) (by decide)) hp rfl rfl

/-! ### Faults (R39) -/

@[simp] theorem berthFault_fab : (s.berthFault u h c).fab = s.fab :=
  (keeps_berthFault (L := 148360) u h c Keeps.refl rfl).same .fab rfl

@[simp] theorem berthFault_mem : (s.berthFault u h c).mem = s.mem :=
  (keeps_berthFault (L := 148360) u h c Keeps.refl rfl).same .mem rfl

@[simp] theorem berth_berthFault (j : Nat) : (s.berthFault u h c).berth j = s.berth j := berth_congr berthFault_fab j

/-- The words of a fault: the event, the fault's record and its count. -/
theorem frame_berthFault (he : 0x60000 ∈ as) (hf : 0x60128 ∈ as) (hn : 0x6012C ∈ as) : Frame ps as s (s.berthFault u h c) :=
  Frame.trans ((((Frame.setFld _ u hf).trans (Frame.setFld _ c hf)).trans (Frame.setFld _ h hf)).trans
    (Frame.count Reg.FAB_BERTH_FAULT_CNT_COUNT 1 hn (by decide) (by decide)))
    ((Frame.raise 0x60000 0x60004 52 2 0 he (by decide) (by decide)).trans (Frame.note u c h 0))

theorem berthFault_event : (s.berthFault u h c).flag Reg.FAB_EVENT_BERTH_FAULT = true :=
  (flag_of_fld (State.fld_note _ _ _ _ (by decide))).trans
    (State.flag_raise (f := Reg.FAB_EVENT_BERTH_FAULT) 0x60004 52 2 0 (by decide) rfl (by decide) (by decide))

/-- The word that names a fault, as its three fields leave it. -/
theorem fld_berthFault {f : Fld} (hf : f.addr = 0x60128) : (s.berthFault u h c).fld f =
    (((s.setFld Reg.FAB_BERTH_FAULT_UNIT u).setFld Reg.FAB_BERTH_FAULT_CAUSE c).setFld Reg.FAB_BERTH_FAULT_HANDLE h).fld f := by
  have hc : calm f.addr = true := by rw [hf]; decide
  unfold berthFault
  dsimp only
  rw [State.fld_note _ _ _ _ hc, State.fld_raise _ _ _ _ _ hc (by rw [hf]; decide), State.fld_count_addr _ (by rw [hf]; decide)]

theorem berthFault_handle : (s.berthFault u h c).fld Reg.FAB_BERTH_FAULT_HANDLE = h % 65536 :=
  (fld_berthFault rfl).trans (State.fld_setFld_same _ _ _ (by decide) (by decide))

theorem berthFault_cause : (s.berthFault u h c).fld Reg.FAB_BERTH_FAULT_CAUSE = c % 8 := by
  rw [fld_berthFault rfl, State.fld_setFld_bits _ Reg.FAB_BERTH_FAULT_HANDLE Reg.FAB_BERTH_FAULT_CAUSE _ rfl (by decide) (by decide) (by decide),
    State.fld_setFld_same _ _ _ (by decide) (by decide)]
  rfl

theorem berthFault_unit : (s.berthFault u h c).fld Reg.FAB_BERTH_FAULT_UNIT = u % 64 := by
  rw [fld_berthFault rfl, State.fld_setFld_bits _ Reg.FAB_BERTH_FAULT_HANDLE Reg.FAB_BERTH_FAULT_UNIT _ rfl (by decide) (by decide) (by decide),
    State.fld_setFld_bits _ Reg.FAB_BERTH_FAULT_CAUSE Reg.FAB_BERTH_FAULT_UNIT _ rfl (by decide) (by decide) (by decide),
    State.fld_setFld_same _ _ _ (by decide) (by decide)]
  rfl

/-! ### Acquires (R36) -/

/-- The state with one more reference of unit `u` to berth `h`. -/
def withRef (s : State) (u h : Nat) : State :=
  let t := s.setBerth h { s.berth h with count := (s.berth h).count + 1 }
  { t with fab := { t.fab with refs := s.fab.refs ++ [⟨h, u, true⟩] } }

theorem berth_withRef_same : (withRef s u h).berth h = { s.berth h with count := (s.berth h).count + 1 } :=
  State.berth_setBerth_same s h _

theorem berth_withRef_other {j : Nat} (hj : j ≠ h) : (withRef s u h).berth j = s.berth j := State.berth_setBerth_other s _ hj

theorem refs_withRef : (withRef s u h).fab.refs = s.fab.refs ++ [⟨h, u, true⟩] := rfl

theorem frame_withRef (hp : Part.fab ∈ ps) : Frame ps as s (withRef s u h) := frame_fab hp

theorem acquire_granted (h0 : h ≠ 0) (hs : (s.berth h).st = .held) (hc : (s.berth h).count < 255) :
    s.acquire u h = (withRef s u h, true) := by
  unfold acquire
  dsimp only
  rw [if_neg (by simp [h0, hs]), if_neg (by omega)]
  rfl

theorem acquire_refused (hr : h = 0 ∨ (s.berth h).st ≠ .held) : s.acquire u h = (s.berthFault u h 3, false) := by
  unfold acquire
  exact if_pos hr

theorem acquire_full (hc : (s.berth h).count = 255) : ∃ c, s.acquire u h = (s.berthFault u h c, false) := by
  by_cases hr : h = 0 ∨ (s.berth h).st ≠ .held
  · exact ⟨3, acquire_refused hr⟩
  · refine ⟨5, ?_⟩
    unfold acquire
    dsimp only
    rw [if_neg hr, if_pos hc]

/-! ### Releases (R36) -/

/-- A berth with one reference less: a DRAINING one without references is FREE. -/
def lessOne (b : Berth) : Berth :=
  { b with count := b.count - 1, st := if b.st = .draining ∧ b.count = 1 then .free else b.st }

/-- The state without the oldest reference of unit `u` to berth `h`. -/
def withoutRef (s : State) (u h : Nat) : State :=
  let t := s.setBerth h (lessOne (s.berth h))
  { t with fab := { t.fab with refs := dropRef u h s.fab.refs } }

theorem berth_withoutRef_same : (withoutRef s u h).berth h = lessOne (s.berth h) := State.berth_setBerth_same s h _

theorem berth_withoutRef_other {j : Nat} (hj : j ≠ h) : (withoutRef s u h).berth j = s.berth j := State.berth_setBerth_other s _ hj

theorem refs_withoutRef : (withoutRef s u h).fab.refs = dropRef u h s.fab.refs := rfl

theorem frame_withoutRef (hp : Part.fab ∈ ps) : Frame ps as s (withoutRef s u h) := frame_fab hp

theorem releaseTable_counted (h0 : h ≠ 0) (hs : (s.berth h).st ≠ .free) (hc : 0 < (s.berth h).count) :
    s.releaseTable u h = withoutRef s u h := by
  have e : (if (s.berth h).st = .draining ∧ (s.berth h).count - 1 = 0
      then { s.berth h with count := (s.berth h).count - 1, st := .free }
      else { s.berth h with count := (s.berth h).count - 1 }) = lessOne (s.berth h) := by
    unfold lessOne
    split
    · next x => rw [if_pos ⟨x.1, by omega⟩]
    · next x => rw [if_neg fun y => x ⟨y.1, by omega⟩]
  unfold releaseTable
  dsimp only
  rw [if_neg (by rintro (x | x | x) <;> [exact hs x; omega; exact h0 x]), e]
  rfl

theorem releaseTable_refused (hr : h = 0 ∨ (s.berth h).st = .free ∨ (s.berth h).count = 0) :
    s.releaseTable u h = s.berthFault u h 4 := by
  unfold releaseTable
  exact if_pos (by tauto)

/-! ### Followers (R242, R322, R363) -/

theorem appliedFld_congr (e : t.sys = s.sys) (k : Nat) (f : Fld) : t.appliedFld k f = s.appliedFld k f := by
  unfold appliedFld
  rw [e]

theorem bankFld_congr (e : t.sys = s.sys) (i x : Nat) (f : Fld) : t.bankFld i x f = s.bankFld i x f := by
  unfold bankFld bankWords bankList
  rw [e]

/-- Followers are enabled by landed fields alone. -/
theorem noFollower_congr (e : t.sys = s.sys) (hn : s.noFollower) : t.noFollower := by
  obtain ⟨hnet, hscn, henc⟩ := hn
  refine ⟨fun q n hq hm => ?_, fun l hl => ?_, fun d i x hd hi => ?_⟩
  · rw [appliedFld_congr e]; exact hnet q n hq hm
  · rw [appliedFld_congr e]; exact hscn l hl
  · rw [bankFld_congr e]; exact henc d i x hd hi

theorem scnFollow_none (hn : s.noFollower) (race : Bool) : (ls : List Nat) → (∀ l ∈ ls, l < 16) → scnFollow race h ls s = s
  | [], _ => rfl
  | l :: ls, hl => by
    unfold scnFollow
    dsimp only
    rw [if_neg fun e => hn.2.1 l (hl l List.mem_cons_self) e.1]
    exact scnFollow_none hn race ls fun j hj => hl j (List.mem_cons_of_mem _ hj)

theorem encFollow_none (hn : s.noFollower) (v : Nat) : (es : List (Nat × Nat)) → (∀ e ∈ es, e.1 < 4 ∧ e.2 < 4) →
    encFollow v h es s = s
  | [], _ => rfl
  | e :: es, he => by
    obtain ⟨h1, h2⟩ := he e List.mem_cons_self
    unfold encFollow
    dsimp only
    rw [if_neg fun x => hn.2.2 e.1 e.2 _ h1 h2 x.1]
    exact encFollow_none hn v es fun j hj => he j (List.mem_cons_of_mem _ hj)

theorem netFollow_none (hn : s.noFollower) : (ns : List Nat) → (∀ n ∈ ns, n < 64) → netFollow h ns s = s
  | [], _ => rfl
  | n :: ns, hl => by
    have := hl n List.mem_cons_self
    unfold netFollow
    dsimp only
    rw [if_neg fun x => hn.1 (n / 32) (n % 32) (by omega) (by omega) x.1]
    exact netFollow_none hn ns fun j hj => hl j (List.mem_cons_of_mem _ hj)

theorem scnFollow_noFollower (hn : s.noFollower) (race : Bool) : scnFollow race h (List.range 16) s = s :=
  scnFollow_none hn race _ fun _ hl => List.mem_range.mp hl

theorem encFollow_noFollower (hn : s.noFollower) (v : Nat) : encFollow v h encSlots s = s :=
  encFollow_none hn v _ (by decide)

theorem netFollow_noFollower (hn : s.noFollower) : netFollow h (List.range 64) s = s :=
  netFollow_none hn _ fun _ hl => List.mem_range.mp hl

/-- Where no queue follows, a release is the berth table's alone. -/
theorem release_noFollower (hn : s.noFollower) : s.release u h = s.releaseTable u h := by
  unfold release
  dsimp only
  simp only [encFollow_noFollower hn, scnFollow_noFollower hn, netFollow_noFollower hn, ite_self]

end Sys2Proof.Machine
end

section
/-! PROOFS. O13: references are counted. -/

namespace Sys2Proof.Machine

open State

variable {s : State}

theorem exec_berthAcquire (u : Fin 45) (h : BitVec 16) (s : State) :
    exec (.berthAcquire u h) s = .next (s.acquire u.val h.toNat).1 := rfl

theorem exec_berthRelease (u : Fin 45) (h : BitVec 16) (s : State) :
    exec (.berthRelease u h) s = .next (s.release u.val h.toNat) := rfl

theorem handle_ne_zero {h : BitVec 16} (h0 : h ≠ 0) : h.toNat ≠ 0 := fun e => h0 (BitVec.eq_of_toNat_eq e)

/-- What a refused acquire or release leaves: the fault with its handle and unit, and nothing else. -/
theorem berthFault_recorded (u : Fin 45) (h : BitVec 16) (c : Nat) :
    (s.berthFault u.val h.toNat c).fab = s.fab ∧ (s.berthFault u.val h.toNat c).flag Reg.FAB_EVENT_BERTH_FAULT = true ∧
    (s.berthFault u.val h.toNat c).fld Reg.FAB_BERTH_FAULT_HANDLE = h.toNat ∧
    (s.berthFault u.val h.toNat c).fld Reg.FAB_BERTH_FAULT_UNIT = u.val ∧
    Frame [] [0x60000, 0x60128, 0x6012C] s (s.berthFault u.val h.toNat c) :=
  ⟨berthFault_fab, berthFault_event, berthFault_handle.trans (Nat.mod_eq_of_lt h.isLt),
    berthFault_unit.trans (Nat.mod_eq_of_lt (by omega)), frame_berthFault (by decide) (by decide) (by decide)⟩

/-- The acquire half of O13. -/
theorem berthAcquire_counts (u : Fin 45) (h : BitVec 16) (s : State) :
    (h ≠ 0 → (s.berth h.toNat).st = .held → (s.berth h.toNat).count < 255 →
      Completes (.berthAcquire u h) s fun t =>
        t.berth h.toNat = { s.berth h.toNat with count := (s.berth h.toNat).count + 1 } ∧
        t.fab.refs = s.fab.refs ++ [⟨h.toNat, u.val, true⟩] ∧ (∀ j, j ≠ h.toNat → t.berth j = s.berth j) ∧ Frame [.fab] [] s t) ∧
    (h = 0 ∨ (s.berth h.toNat).st ≠ .held ∨ (s.berth h.toNat).count = 255 →
      Completes (.berthAcquire u h) s fun t =>
        t.fab = s.fab ∧ t.flag Reg.FAB_EVENT_BERTH_FAULT = true ∧ t.fld Reg.FAB_BERTH_FAULT_HANDLE = h.toNat ∧
        t.fld Reg.FAB_BERTH_FAULT_UNIT = u.val ∧ Frame [] [0x60000, 0x60128, 0x6012C] s t) := by
  refine ⟨fun h0 hs hc => ⟨_, exec_berthAcquire u h s, ?_⟩, fun hr => ⟨_, exec_berthAcquire u h s, ?_⟩⟩
  · rw [acquire_granted (handle_ne_zero h0) hs hc]
    exact ⟨berth_withRef_same, refs_withRef, fun j hj => berth_withRef_other hj, frame_withRef (by decide)⟩
  · have ⟨c, e⟩ : ∃ c, s.acquire u.val h.toNat = (s.berthFault u.val h.toNat c, false) := by
      rcases hr with rfl | hs | hc
      · exact ⟨3, acquire_refused (.inl rfl)⟩
      · exact ⟨3, acquire_refused (.inr hs)⟩
      · exact acquire_full hc
    rw [e]
    exact berthFault_recorded u h c

/-- Settles O13: an acquire or a release that is granted counts one reference, one that is refused is a fault; a release is the table's alone, as nothing follows. -/
theorem referencesAreCounted : Obligations.ReferencesAreCounted := by
  unfold Obligations.ReferencesAreCounted
  refine ⟨berthAcquire_counts, fun u h s hn => ?_⟩
  have e : exec (.berthRelease u h) s = .next (s.releaseTable u.val h.toNat) :=
    (exec_berthRelease u h s).trans (congrArg _ (release_noFollower hn))
  refine ⟨fun h0 hs hc => ⟨_, e, ?_⟩, fun hr => ⟨_, e, ?_⟩⟩
  · have hb := berth_withoutRef_same (s := s) (u := u.val) (h := h.toNat)
    rw [releaseTable_counted (handle_ne_zero h0) hs hc]
    exact ⟨(congrArg Berth.count hb :), (congrArg Berth.st hb :), (congrArg Berth.base hb :), (congrArg Berth.man hb :),
      refs_withoutRef, fun j hj => berth_withoutRef_other hj, frame_withoutRef (by decide)⟩
  · rw [releaseTable_refused (hr.imp_left fun h0 => by rw [h0]; rfl)]
    exact berthFault_recorded u h 4

end Sys2Proof.Machine
end

section
/-! PROOFS. O8 and O16: the berth aperture. -/

namespace Sys2Proof.Machine

open State

variable {s t : State} {h : Nat}

theorem exec_apDataRead (m : Fin 32) (idx : Fin 1024) (s : State) :
    exec (.apDataRead m idx) s = .next (s.readCmd m.val (0x68000 + 4 * idx.val) 15) := rfl

theorem exec_apDataWrite (m : Fin 32) (idx : Fin 1024) (v : Word) (s : State) :
    exec (.apDataWrite m idx v) s = .next (s.wordWrite m.val (0x68000 + 4 * idx.val) v.toNat) := rfl

theorem exec_apHandleWrite (m : Fin 32) (h : BitVec 16) (s : State) :
    exec (.apHandleWrite m h) s = execApHandleWrite m h s := rfl

theorem apertureIndex (i : Nat) : (0x68000 + 4 * i - 0x68000) / 4 = i := by omega

/-! ### Reads (R40, R47) -/

theorem readWord_aperture (m : Nat) (idx : Fin 1024) : s.readWord m (0x68000 + 4 * idx.val) = s.apertureRead m idx.val := by
  unfold readWord
  rw [if_pos (by omega), apertureIndex]

/-- A read through the aperture returns what the aperture shows its master. -/
theorem apDataRead_of_apertureRead {m : Fin 32} {idx : Fin 1024} {w : Word} (e : s.apertureRead m.val idx.val = (t, w)) :
    exec (.apDataRead m idx) s = .next { t with rsp := w } :=
  (exec_apDataRead m idx s).trans
    (congrArg _ (readCmd_of_readWord (by omega) (by omega) ((readWord_aperture m.val idx).trans e)))

theorem apertureRead_other {m i : Nat} (hm : m = 0 ∨ s.sys.owner ≠ m) : s.apertureRead m i = (s, 0) := if_pos hm

theorem apertureWord_allowed {i : Nat} (hc : s.accessCause 40 (s.fld Reg.FAB_AP_HANDLE_HANDLE) (s.apBase + 4 * i) 4 = 0) :
    s.apertureWord i = (s, BitVec.ofNat 32 (ofBytesLE
      (s.memRead ((s.berth (s.fld Reg.FAB_AP_HANDLE_HANDLE)).base * 4096 + (s.apBase + 4 * i)) 4))) := by
  unfold apertureWord readBerth
  dsimp only
  rw [if_pos hc, if_pos hc]

/-- Settles O8: the aperture shows any other master 0 and the harbourmaster the named berth's bytes. -/
theorem apertureReadsNamedBerth : Obligations.ApertureReadsNamedBerth := by
  unfold Obligations.ApertureReadsNamedBerth
  refine fun m idx s => ⟨fun hm => apDataRead_of_apertureRead (apertureRead_other hm), fun hm ho hc => ?_⟩
  have hown : ¬(m.val = 0 ∨ s.sys.owner ≠ m.val) := by rintro (x | x) <;> [exact hm x; exact x ho]
  exact apDataRead_of_apertureRead ((if_neg hown).trans (apertureWord_allowed hc))

/-! ### Data writes (R39, R40) -/

theorem length_bytesLE : (k n : Nat) → (bytesLE k n).length = k
  | 0, _ => rfl
  | k + 1, n => congrArg (· + 1) (length_bytesLE k (n >>> 8))

theorem accessCause_congr (e : t.fab = s.fab) (u h o n : Nat) : t.accessCause u h o n = s.accessCause u h o n := by
  unfold accessCause holds berth
  rw [e]

theorem apBase_congr (hl : t.word 0x60204 = s.word 0x60204) (hh : t.word 0x60208 = s.word 0x60208) : t.apBase = s.apBase := by
  unfold apBase
  rw [State.fld_of_word (f := Reg.FAB_AP_BASE_LO_BASE_LO) hl, State.fld_of_word (f := Reg.FAB_AP_BASE_HI_BASE_HI) hh]

/-- The word of a permitted aperture write reaches the aperture, after its WRITE record. -/
theorem wordWrite_aperture {m v : Nat} (idx : Fin 1024) (hm : s.mayWrite m (0x68000 + 4 * idx.val) .plain = true) :
    s.wordWrite m (0x68000 + 4 * idx.val) v = (s.writeRec m (0x68000 + 4 * idx.val) v 0).apertureWrite idx.val v := by
  unfold wordWrite controlWrite
  rw [if_neg (by omega), if_pos hm]
  unfold performWrite
  rw [if_pos (by omega), apertureIndex]

/-- What an aperture write looks at: the berth named, the base, and whether unit 40 may touch the bytes. -/
structure SameAperture (s t : State) : Prop where
  fab : t.fab = s.fab
  mem : t.mem = s.mem
  handle : t.fld Reg.FAB_AP_HANDLE_HANDLE = s.fld Reg.FAB_AP_HANDLE_HANDLE
  base : t.apBase = s.apBase

theorem sameAperture_writeRec {m a v r : Nat} : SameAperture s (s.writeRec m a v r) where
  fab := (aside_writeRec m a v r).keeps.same .fab rfl
  mem := (aside_writeRec m a v r).keeps.same .mem rfl
  handle := State.fld_writeRec _ _ _ _ (by decide)
  base := apBase_congr (State.word_writeRec _ _ _ _ (by decide)) (State.word_writeRec _ _ _ _ (by decide))

theorem apertureWrite_allowed {i v : Nat} (hc : s.accessCause 40 (s.fld Reg.FAB_AP_HANDLE_HANDLE) (s.apBase + 4 * i) 4 = 0) :
    s.apertureWrite i v =
      s.memWrite ((s.berth (s.fld Reg.FAB_AP_HANDLE_HANDLE)).base * 4096 + (s.apBase + 4 * i)) (bytesLE 4 v) := by
  unfold apertureWrite writeBerth
  dsimp only
  rw [length_bytesLE, if_pos hc, if_pos hc]

theorem apertureWrite_refused {i v : Nat} (hc : s.accessCause 40 (s.fld Reg.FAB_AP_HANDLE_HANDLE) (s.apBase + 4 * i) 4 ≠ 0) :
    s.apertureWrite i v = (s.berthFault 40 (s.fld Reg.FAB_AP_HANDLE_HANDLE)
      (s.accessCause 40 (s.fld Reg.FAB_AP_HANDLE_HANDLE) (s.apBase + 4 * i) 4)).setBitsOf 0x6020C 2 := by
  unfold apertureWrite writeBerth
  dsimp only
  rw [length_bytesLE, if_neg hc, if_neg hc]

/-- An event bit that a command sets without a docket. -/
theorem flag_setBitsOf {f : Fld} (m : Nat) (hc : calm f.addr = true) (hb : f.hi = f.lo) (hw : f.lo < 32) (hm : m.testBit f.lo = true) :
    (s.setBitsOf f.addr m).flag f = true :=
  (flag_of_fld (State.fld_of_word (calm_raise f.addr 0 0 m 0 f.addr hc).symm)).trans (State.flag_raise 0 0 m 0 hc hb hw hm)

theorem frame_setBitsOf {ps : List Part} {as : List Nat} {a : Nat} (m : Nat) (ha : a ∈ as) (hq : quiet a = false) (hn : a ≠ 0x50004) :
    Frame ps as s (s.setBitsOf a m) :=
  Frame.of_aside (aside_setBitsOf a m hq hn) fun x _ hx =>
    (State.word_setBitsOf s a m x).trans (if_neg fun (e : x = a) => hx (e ▸ ha))

/-- The data half of O16. -/
theorem apDataWrite_effect (m : Fin 32) (s : State) (idx : Fin 1024) (v : Word)
    (hm : s.mayWrite m.val (0x68000 + 4 * idx.val) .plain = true) :
    (s.accessCause 40 (s.fld Reg.FAB_AP_HANDLE_HANDLE) (s.apBase + 4 * idx.val) 4 = 0 →
      Completes (.apDataWrite m idx v) s fun t =>
        t.memRead ((s.berth (s.fld Reg.FAB_AP_HANDLE_HANDLE)).base * 4096 + (s.apBase + 4 * idx.val)) 4 = bytesLE 4 v.toNat ∧
        (∀ x, (x < (s.berth (s.fld Reg.FAB_AP_HANDLE_HANDLE)).base * 4096 + (s.apBase + 4 * idx.val) ∨
          (s.berth (s.fld Reg.FAB_AP_HANDLE_HANDLE)).base * 4096 + (s.apBase + 4 * idx.val) + 4 ≤ x) → t.memByte x = s.memByte x) ∧
        Frame [.mem] [] s t) ∧
    (s.accessCause 40 (s.fld Reg.FAB_AP_HANDLE_HANDLE) (s.apBase + 4 * idx.val) 4 ≠ 0 →
      Completes (.apDataWrite m idx v) s fun t =>
        t.mem = s.mem ∧ t.flag Reg.FAB_AP_STATUS_FAULT = true ∧ t.flag Reg.FAB_EVENT_BERTH_FAULT = true ∧
        Frame [] [0x60000, 0x60128, 0x6012C, 0x6020C] s t) := by
  have e := (exec_apDataWrite m idx v s).trans (congrArg _ (wordWrite_aperture (v := v.toNat) idx hm))
  have hw : SameAperture s (s.writeRec m.val (0x68000 + 4 * idx.val) v.toNat 0) := sameAperture_writeRec
  have hf : ∀ ps as, Frame ps as s (s.writeRec m.val (0x68000 + 4 * idx.val) v.toNat 0) := fun _ _ => Frame.writeRec _ _ _ _
  generalize s.writeRec m.val (0x68000 + 4 * idx.val) v.toNat 0 = w at e hw hf
  rw [← hw.handle, ← hw.base, ← berth_congr hw.fab, ← accessCause_congr hw.fab]
  refine ⟨fun hc => ⟨_, e, ?_⟩, fun hc => ⟨_, e, ?_⟩⟩
  · rw [apertureWrite_allowed hc]
    refine ⟨?_, fun x hx => ?_, (hf _ _).trans (frame_memWrite (by decide))⟩
    · have := memRead_memWrite w ((w.berth (w.fld Reg.FAB_AP_HANDLE_HANDLE)).base * 4096 + (w.apBase + 4 * idx.val)) (bytesLE 4 v.toNat)
      rwa [length_bytesLE] at this
    · exact (memByte_memWrite_outside _ _ _ (by rwa [length_bytesLE])).trans (memByte_congr hw.mem x)
  · rw [apertureWrite_refused hc]
    refine ⟨by rw [setBitsOf_mem, berthFault_mem, hw.mem], flag_setBitsOf (f := Reg.FAB_AP_STATUS_FAULT) 2 (by decide) rfl (by decide) (by decide),
      (flag_of_fld (State.fld_setBitsOf _ _ (by decide))).trans berthFault_event, ?_⟩
    exact ((hf _ _).trans (frame_berthFault (by decide) (by decide) (by decide))).trans
      (frame_setBitsOf 2 (by decide) (by decide) (by decide))

/-! ### The handle (R40) -/

theorem apHandle_same : s.apHandle h h = s := if_pos rfl

theorem apHandle_named (h0 : h ≠ 0) (hs : (s.berth h).st = .held) (hc : (s.berth h).count < 255) :
    s.apHandle 0 h = withRef s 40 h := by
  unfold apHandle
  dsimp only
  rw [if_neg h0.symm, if_pos rfl, if_neg h0, acquire_granted h0 hs hc]

theorem apHandle_refused (h0 : h ≠ 0) (hs : (s.berth h).st ≠ .held) :
    s.apHandle 0 h = ((s.berthFault 40 h 3).setFld Reg.FAB_AP_HANDLE_HANDLE 0).setBitsOf 0x6020C 1 := by
  unfold apHandle
  dsimp only
  rw [if_neg h0.symm, if_pos rfl, if_neg h0, acquire_refused (.inr hs)]

theorem apHandle_unnamed (h0 : h ≠ 0) : s.apHandle h 0 = s.releaseTable 40 h := by
  unfold apHandle
  dsimp only
  rw [if_neg h0, if_neg h0, if_pos rfl]

/-- A permitted write of the handle: its word takes it, then the old berth is given back and the new one taken. -/
theorem apHandleWrite_wrote {m : Fin 32} (h : BitVec 16) (hm : s.mayWrite m.val 0x60200 .plain = true) :
    ∃ u, exec (.apHandleWrite m h) s = .next (u.apHandle (s.fld Reg.FAB_AP_HANDLE_HANDLE) h.toNat) ∧ u.fab = s.fab ∧
      u.fld Reg.FAB_AP_HANDLE_HANDLE = h.toNat ∧ ∀ ps as, 0x60200 ∈ as → Frame ps as s u := by
  obtain ⟨w, u, hw, hu, e⟩ := write_apHandleWrite m h hm
  rw [hw.fld _ (by decide +kernel)] at e
  refine ⟨u, (exec_apHandleWrite m h s).trans e, hu.keeps.same .fab rfl, ?_, fun ps as ha => ?_⟩
  · exact (hu.field ⟨15, 0, .rw, .l, 0⟩ (by decide +kernel) rfl (by decide)).trans (Nat.mod_eq_of_lt h.isLt)
  · exact Frame.of_wrote_free hu ha (by decide) (by decide +kernel)

/-- Settles O16: from the effect of a handle write in each case, and that of a data write. -/
theorem apertureNamesAndWritesBerth : Obligations.ApertureNamesAndWritesBerth := by
  unfold Obligations.ApertureNamesAndWritesBerth
  refine fun m s => ⟨fun h hm => ?_, apDataWrite_effect m s⟩
  obtain ⟨u, e, hfab, hhandle, hframe⟩ := apHandleWrite_wrote h hm
  have hb := berth_congr hfab
  refine ⟨fun ho h0 hs hc => ?_, fun ho h0 hs => ?_, fun ho => ?_, fun ho h0 hs hc => ?_⟩
  · rw [ho, apHandle_named (handle_ne_zero h0) (by rwa [hb]) (by rwa [hb])] at e
    refine ⟨_, e, hhandle, ?_, ?_, (hframe _ _ (by decide)).trans (frame_withRef (by decide))⟩
    · rw [berth_withRef_same, hb]
    · rw [refs_withRef, hfab]
  · rw [ho, apHandle_refused (handle_ne_zero h0) (by rwa [hb])] at e
    refine ⟨_, e, ?_, flag_setBitsOf (f := Reg.FAB_AP_STATUS_FAIL) 1 (by decide) rfl (by decide) (by decide),
      by rw [setBitsOf_fab, setFld_fab, berthFault_fab, hfab], ?_⟩
    · exact (State.fld_setBitsOf _ _ (by decide)).trans (State.fld_setFld_same _ _ _ (by decide) (by decide))
    · exact (((hframe _ _ (by decide)).trans (frame_berthFault (by decide) (by decide) (by decide))).trans
        (Frame.setFld _ _ (by decide))).trans (frame_setBitsOf 1 (by decide) (by decide) (by decide))
  · rw [ho, apHandle_same] at e
    exact ⟨_, e, hfab, hhandle, hframe _ _ (by decide)⟩
  · subst h0
    rw [show (0 : BitVec 16).toNat = 0 from rfl, apHandle_unnamed ho, releaseTable_counted ho (by rw [hb, hs]; decide) (by rwa [hb])] at e
    refine ⟨_, e, hhandle, ?_, (hframe _ _ (by decide)).trans (frame_withoutRef (by decide))⟩
    rw [berth_withoutRef_same, hb]
    rfl

end Sys2Proof.Machine
end

section
/-! PROOFS. O14: berth commands follow the berth table, and show their result when they end. -/

namespace Sys2Proof.Machine

open State

variable {s : State} {u h m : Nat}

theorem exec_berthAllocate (m : Fin 32) (h : BitVec 16) (s : State) :
    exec (.berthAllocate m h) s = execBerthAllocate m h s := rfl

theorem exec_berthFree (m : Fin 32) (h : BitVec 16) (s : State) : exec (.berthFree m h) s = execBerthFree m h s := rfl

theorem exec_berthQuery (m : Fin 32) (h : BitVec 16) (s : State) : exec (.berthQuery m h) s = execBerthQuery m h s := rfl

theorem exec_berthCmdDone (s : State) : exec .berthCmdDone s = .next s.berthCmdEnd := rfl

/-! ### The berth table's part (R35 to R38) -/

/-- Berth `h` has another entry. -/
theorem frame_setBerth {ps : List Part} {as : List Nat} {b : Berth} (hp : Part.fab ∈ ps) : Frame ps as s (s.setBerth h b) :=
  frame_fab hp

theorem allocate_granted {base pages format owner : Nat} (h0 : h ≠ 0) (hs : (s.berth h).st = .free) (hp : 0 < pages)
    (hm : pages ≤ 0x3000000) (he : base + pages ≤ 0x3000000) :
    s.allocate h base pages format owner = (s.setBerth h ⟨base, pages, format, owner, 0, .held, {}, none⟩, 0) := by
  unfold allocate
  rw [if_neg h0, if_neg (not_not.mpr hs), if_neg (by omega)]
  rfl

theorem free_unreferenced (h0 : h ≠ 0) (hu : u = 40 ∨ u = (s.berth h).owner) (hs : (s.berth h).st = .held) (hc : (s.berth h).count = 0) :
    s.free u h = (s.setBerth h { s.berth h with st := .free }, 0) := by
  unfold free
  dsimp only
  rw [if_neg h0, if_neg (by rw [hs]; decide), if_neg (by tauto), if_neg (by rw [hs]; decide), if_pos hc]
  rfl

theorem free_referenced (h0 : h ≠ 0) (hu : u = 40 ∨ u = (s.berth h).owner) (hs : (s.berth h).st = .held) (hc : 0 < (s.berth h).count) :
    s.free u h = ((s.setBerth h { s.berth h with st := .draining }).earlyFree u h, 5) := by
  unfold free
  dsimp only
  rw [if_neg h0, if_neg (by rw [hs]; decide), if_neg (by tauto), if_neg (by rw [hs]; decide), if_neg (by omega)]
  rfl

@[simp] theorem earlyFree_fab : (s.earlyFree u h).fab = s.fab :=
  (keeps_earlyFree (L := 148360) u h Keeps.refl rfl).same .fab rfl

theorem frame_earlyFree {ps : List Part} {as : List Nat} (he : 0x60000 ∈ as) (hn : 0x60120 ∈ as) (hl : 0x60124 ∈ as) :
    Frame ps as s (s.earlyFree u h) :=
  ((Frame.count Reg.FAB_EARLY_FREE_CNT_COUNT 1 hn (by decide) (by decide)).trans (Frame.setFld _ h hl)).trans
    ((Frame.raise 0x60000 0x60004 52 1 0 he (by decide) (by decide)).trans (Frame.note u 0 h 0))

theorem earlyFree_event : (s.earlyFree u h).flag Reg.FAB_EVENT_EARLY_FREE = true :=
  (flag_of_fld (State.fld_note _ _ _ _ (by decide))).trans
    (State.flag_raise (f := Reg.FAB_EVENT_EARLY_FREE) 0x60004 52 1 0 (by decide) rfl (by decide) (by decide))

theorem earlyFree_last : (s.earlyFree u h).fld Reg.FAB_EARLY_FREE_LAST_HANDLE = h % 65536 := by
  unfold earlyFree
  dsimp only
  rw [State.fld_note _ _ _ _ (by decide), State.fld_raise _ _ _ _ _ (by decide) (by decide),
    State.fld_setFld_same _ _ _ (by decide) (by decide)]
  rfl

/-! ### Commands that start (R501) -/

/-- A berth command is in progress. -/
def withCmd (s : State) (c : BerthCmd) : State := { s with fab := { s.fab with cmd := some c } }

theorem berth_withCmd (c : BerthCmd) (j : Nat) : (withCmd s c).berth j = s.berth j := rfl

theorem frame_withCmd {ps : List Part} {as : List Nat} {c : BerthCmd} (hp : Part.fab ∈ ps) : Frame ps as s (withCmd s c) := frame_fab hp

theorem berthCmd_allocate : s.berthCmd m 1 h =
    let r := s.allocate h (s.fld Reg.FAB_BERTH_BASE_LO_BASE_LO + s.fld Reg.FAB_BERTH_BASE_HI_BASE_HI <<< 20)
      (s.fld Reg.FAB_BERTH_SIZE_PAGES) (s.fld Reg.FAB_BERTH_ATTR_FORMAT) (s.fld Reg.FAB_BERTH_ATTR_OWNER)
    withCmd r.1 ⟨1, h, r.2, none⟩ := rfl

theorem berthCmd_free : s.berthCmd m 2 h = withCmd (s.free (masterUnit m) h).1 ⟨2, h, (s.free (masterUnit m) h).2, none⟩ := rfl

theorem berthCmd_query (h0 : h ≠ 0) : s.berthCmd m 3 h = withCmd s ⟨3, h, 0, some (s.berth h)⟩ := by
  have e : s.query h = (some (s.berth h), 0) := if_neg h0
  have : s.berthCmd m 3 h = withCmd s ⟨3, h, (s.query h).2, (s.query h).1⟩ := rfl
  rw [this, e]

/-- The harbourmaster's berth requests are unit 40's. -/
theorem masterUnit_harbourmaster (hm : isPilotMaster m = false) : masterUnit m = 40 := by
  unfold masterUnit
  rw [hm]
  rfl

/-- What a write of the command leaves for it to find: the berth table and the argument registers as they stood. -/
structure CmdWritten (s u : State) : Prop where
  fab : u.fab = s.fab
  args : ∀ f : Fld, quiet f.addr = true → f.addr ≠ 0x60100 → u.fld f = s.fld f
  frame : ∀ ps as, 0x60100 ∈ as → Frame ps as s u

theorem Wrote.cmdWritten {v : Nat} {u : State} (hu : Wrote 0x60100 v s u) : CmdWritten s u where
  fab := hu.keeps.same .fab rfl
  args f hq hn := State.fld_of_word (hu.word _ hq hn)
  frame _ _ ha := Frame.of_wrote_free hu ha (by decide) (by decide +kernel)

theorem berthAllocate_written {m : Fin 32} (h : BitVec 16) (hm : s.mayWrite m.val 0x60100 .plain = true) (hc : s.fab.cmd = none) :
    ∃ u, CmdWritten s u ∧ exec (.berthAllocate m h) s = .next (u.berthCmd m.val 1 h.toNat) := by
  obtain ⟨_, u, _, hu, e⟩ := write_berthAllocate m h hm hc
  exact ⟨u, hu.cmdWritten, (exec_berthAllocate m h s).trans e⟩

theorem berthFree_written {m : Fin 32} (h : BitVec 16) (hm : s.mayWrite m.val 0x60100 .plain = true) (hc : s.fab.cmd = none) :
    ∃ u, CmdWritten s u ∧ exec (.berthFree m h) s = .next (u.berthCmd m.val 2 h.toNat) := by
  obtain ⟨_, u, _, hu, e⟩ := write_berthFree m h hm hc
  exact ⟨u, hu.cmdWritten, (exec_berthFree m h s).trans e⟩

theorem berthQuery_written {m : Fin 32} (h : BitVec 16) (hm : s.mayWrite m.val 0x60100 .plain = true) (hc : s.fab.cmd = none) :
    ∃ u, CmdWritten s u ∧ exec (.berthQuery m h) s = .next (u.berthCmd m.val 3 h.toNat) := by
  obtain ⟨_, u, _, hu, e⟩ := write_berthQuery m h hm hc
  exact ⟨u, hu.cmdWritten, (exec_berthQuery m h s).trans e⟩

/-- An allocation in range of a FREE berth (R35). -/
theorem berthAllocate_effect {m : Fin 32} {h : BitVec 16} {base pages : Nat} (hm : s.mayWrite m.val 0x60100 .plain = true)
    (hc : s.fab.cmd = none) (h0 : h ≠ 0)
    (hb : base = s.fld Reg.FAB_BERTH_BASE_LO_BASE_LO + s.fld Reg.FAB_BERTH_BASE_HI_BASE_HI <<< 20)
    (hpg : pages = s.fld Reg.FAB_BERTH_SIZE_PAGES) (hs : (s.berth h.toNat).st = .free) (hp : 0 < pages) (hx : pages ≤ 0x3000000)
    (he : base + pages ≤ 0x3000000) :
    Completes (.berthAllocate m h) s fun t =>
      t.berth h.toNat = ⟨base, pages, s.fld Reg.FAB_BERTH_ATTR_FORMAT, s.fld Reg.FAB_BERTH_ATTR_OWNER, 0, .held, {}, none⟩ ∧
      t.fab.cmd = some ⟨1, h.toNat, 0, none⟩ ∧ (∀ j, j ≠ h.toNat → t.berth j = s.berth j) ∧ Frame [.fab] [0x60100] s t := by
  obtain ⟨u, hu, e⟩ := berthAllocate_written h hm hc
  have hbu := berth_congr hu.fab
  rw [berthCmd_allocate, hu.args _ (by decide +kernel) (by decide), hu.args _ (by decide +kernel) (by decide),
    hu.args _ (by decide +kernel) (by decide), hu.args _ (by decide +kernel) (by decide), hu.args _ (by decide +kernel) (by decide),
    ← hb, ← hpg, allocate_granted (handle_ne_zero h0) (by rwa [hbu]) hp hx he] at e
  exact ⟨_, e, (berth_withCmd _ _).trans (berth_setBerth_same _ _ _), rfl,
    fun j hj => ((berth_withCmd _ _).trans (berth_setBerth_other _ _ hj)).trans (hbu j),
    ((hu.frame _ _ (by decide)).trans (frame_setBerth (by decide))).trans (frame_withCmd (by decide))⟩

/-- A free of an unreferenced HELD berth by the harbourmaster (R36). -/
theorem berthFree_unreferenced {m : Fin 32} {h : BitVec 16} (hm : s.mayWrite m.val 0x60100 .plain = true) (hc : s.fab.cmd = none)
    (h0 : h ≠ 0) (hp : isPilotMaster m.val = false) (hs : (s.berth h.toNat).st = .held) (hn : (s.berth h.toNat).count = 0) :
    Completes (.berthFree m h) s fun t =>
      t.berth h.toNat = { s.berth h.toNat with st := .free } ∧ t.fab.cmd = some ⟨2, h.toNat, 0, none⟩ ∧
      (∀ j, j ≠ h.toNat → t.berth j = s.berth j) ∧ Frame [.fab] [0x60100] s t := by
  obtain ⟨u, hu, e⟩ := berthFree_written h hm hc
  have hbu := berth_congr hu.fab
  rw [berthCmd_free, masterUnit_harbourmaster hp,
    free_unreferenced (handle_ne_zero h0) (.inl rfl) (by rwa [hbu]) (by rwa [hbu]), hbu] at e
  exact ⟨_, e, (berth_withCmd _ _).trans (berth_setBerth_same _ _ _), rfl,
    fun j hj => ((berth_withCmd _ _).trans (berth_setBerth_other _ _ hj)).trans (hbu j),
    ((hu.frame _ _ (by decide)).trans (frame_setBerth (by decide))).trans (frame_withCmd (by decide))⟩

/-- A free of a referenced HELD berth by the harbourmaster: an early free (R37). -/
theorem berthFree_referenced {m : Fin 32} {h : BitVec 16} (hm : s.mayWrite m.val 0x60100 .plain = true) (hc : s.fab.cmd = none)
    (h0 : h ≠ 0) (hp : isPilotMaster m.val = false) (hs : (s.berth h.toNat).st = .held) (hn : 0 < (s.berth h.toNat).count) :
    Completes (.berthFree m h) s fun t =>
      t.berth h.toNat = { s.berth h.toNat with st := .draining } ∧ t.fab.cmd = some ⟨2, h.toNat, 5, none⟩ ∧
      t.flag Reg.FAB_EVENT_EARLY_FREE = true ∧ t.fld Reg.FAB_EARLY_FREE_LAST_HANDLE = h.toNat ∧
      (∀ j, j ≠ h.toNat → t.berth j = s.berth j) ∧ Frame [.fab] [0x60000, 0x60100, 0x60120, 0x60124] s t := by
  obtain ⟨u, hu, e⟩ := berthFree_written h hm hc
  have hbu := berth_congr hu.fab
  rw [berthCmd_free, masterUnit_harbourmaster hp,
    free_referenced (handle_ne_zero h0) (.inl rfl) (by rwa [hbu]) (by rwa [hbu]), hbu] at e
  have hbe : ∀ j, (withCmd ((u.setBerth h.toNat { s.berth h.toNat with st := .draining }).earlyFree 40 h.toNat)
      ⟨2, h.toNat, 5, none⟩).berth j = (u.setBerth h.toNat { s.berth h.toNat with st := .draining }).berth j :=
    fun j => (berth_withCmd _ _).trans (berth_congr earlyFree_fab j)
  exact ⟨_, e, (hbe _).trans (berth_setBerth_same _ _ _), rfl, earlyFree_event,
    earlyFree_last.trans (Nat.mod_eq_of_lt h.isLt), fun j hj => ((hbe j).trans (berth_setBerth_other _ _ hj)).trans (hbu j),
    (((hu.frame _ _ (by decide)).trans (frame_setBerth (by decide))).trans
      (frame_earlyFree (by decide) (by decide) (by decide))).trans (frame_withCmd (by decide))⟩

/-- A query changes no berth (R38). -/
theorem berthQuery_effect {m : Fin 32} {h : BitVec 16} (hm : s.mayWrite m.val 0x60100 .plain = true) (hc : s.fab.cmd = none)
    (h0 : h ≠ 0) :
    Completes (.berthQuery m h) s fun t =>
      (∀ j, t.berth j = s.berth j) ∧ t.fab.cmd = some ⟨3, h.toNat, 0, some (s.berth h.toNat)⟩ ∧ Frame [.fab] [0x60100] s t := by
  obtain ⟨u, hu, e⟩ := berthQuery_written h hm hc
  have hbu := berth_congr hu.fab
  rw [berthCmd_query (handle_ne_zero h0), hbu] at e
  exact ⟨_, e, fun j => (berth_withCmd _ _).trans (hbu j), rfl, (hu.frame _ _ (by decide)).trans (frame_withCmd (by decide))⟩

/-! ### Commands that end (R38, R501) -/

/-- The command in progress is over and its result shows. -/
def cmdEnded (s : State) (r : Nat) : State := { s with fab := { s.fab with cmd := none } }.setFld Reg.FAB_BERTH_CMD_RESULT r

theorem cmdEnded_fab (r : Nat) : (cmdEnded s r).fab = { s.fab with cmd := none } := rfl

theorem cmdEnded_result {r : Nat} (hr : r < 16) : (cmdEnded s r).fld Reg.FAB_BERTH_CMD_RESULT = r :=
  (State.fld_setFld_same _ _ _ (by decide) (by decide)).trans (Nat.mod_eq_of_lt hr)

theorem frame_cmdEnded {as : List Nat} {r : Nat} (ha : 0x60100 ∈ as) : Frame [.fab] as s (cmdEnded s r) :=
  (frame_fab (by decide)).trans (Frame.setFld _ r ha)

theorem berthCmdEnd_plain {c : BerthCmd} (hc : s.fab.cmd = some c) (hq : c.query = none) : s.berthCmdEnd = cmdEnded s c.result := by
  unfold berthCmdEnd
  rw [hc]
  dsimp only
  rw [hq]
  rfl

theorem berthCmdEnd_query {c : BerthCmd} {b : Berth} (hc : s.fab.cmd = some c) (hq : c.query = some b) :
    s.berthCmdEnd = (cmdEnded s c.result).showQuery b := by
  unfold berthCmdEnd
  rw [hc]
  dsimp only
  rw [hq]
  rfl

/-- The manifest words of a query. -/
def showManifest (b : Berth) (l : List Nat) (s : State) : State :=
  l.foldl (fun (s : State) i => s.setFld (Reg.FAB_BERTH_MAN_WORD i) (b.man.wordAt i)) s

/-- The argument registers of a query. -/
def showEntry (s : State) (b : Berth) : State :=
  (((((((s.setFld Reg.FAB_BERTH_BASE_LO_BASE_LO b.base).setFld Reg.FAB_BERTH_BASE_HI_BASE_HI (b.base >>> 20)).setFld
    Reg.FAB_BERTH_SIZE_PAGES b.pages).setFld Reg.FAB_BERTH_ATTR_REFCOUNT b.count).setFld
    Reg.FAB_BERTH_ATTR_STATE (stCode b.st)).setFld Reg.FAB_BERTH_ATTR_OWNER b.owner).setFld Reg.FAB_BERTH_ATTR_FORMAT b.format)

theorem showQuery_eq (b : Berth) : s.showQuery b = showManifest b (List.range 8) (showEntry s b) := rfl

theorem showManifest_fab (b : Berth) : (l : List Nat) → (s : State) → (showManifest b l s).fab = s.fab
  | [], _ => rfl
  | _ :: l, s => (showManifest_fab b l _).trans (setFld_fab s _ _)

theorem fld_showManifest {f : Fld} (b : Berth) (hf : f.addr < 0x60140) : (l : List Nat) → (s : State) →
    (showManifest b l s).fld f = s.fld f
  | [], _ => rfl
  | _ :: l, s => (fld_showManifest b hf l _).trans
      (State.fld_setFld_addr s _ _ _ (by simp only [Reg.FAB_BERTH_MAN_WORD]; omega))

theorem frame_showManifest {ps : List Part} {as : List Nat} (b : Berth) : (l : List Nat) →
    (∀ i ∈ l, (Reg.FAB_BERTH_MAN_WORD i).addr ∈ as) → (s : State) → Frame ps as s (showManifest b l s)
  | [], _, _ => Frame.refl
  | i :: l, hl, _ => (Frame.setFld _ _ (hl i List.mem_cons_self)).trans
      (frame_showManifest b l (fun j hj => hl j (List.mem_cons_of_mem _ hj)) _)

theorem frame_showEntry {ps : List Part} {as : List Nat} {b : Berth} (hl : 0x60104 ∈ as) (hh : 0x60108 ∈ as) (hp : 0x6010C ∈ as)
    (ha : 0x60110 ∈ as) : Frame ps as s (showEntry s b) :=
  ((((((Frame.setFld _ _ hl).trans (Frame.setFld _ _ hh)).trans (Frame.setFld _ _ hp)).trans (Frame.setFld _ _ ha)).trans
    (Frame.setFld _ _ ha)).trans (Frame.setFld _ _ ha)).trans (Frame.setFld _ _ ha)

/-- Each argument register of a query reads its part of the entry, cut to its width; other words stay. -/
theorem fld_showEntry (b : Berth) :
    (showEntry s b).fld Reg.FAB_BERTH_SIZE_PAGES = b.pages % 2 ^ 26 ∧ (showEntry s b).fld Reg.FAB_BERTH_ATTR_REFCOUNT = b.count % 2 ^ 8 ∧
    (showEntry s b).fld Reg.FAB_BERTH_ATTR_STATE = stCode b.st % 2 ^ 2 ∧ (showEntry s b).fld Reg.FAB_BERTH_ATTR_OWNER = b.owner % 2 ^ 6 ∧
    (showEntry s b).fld Reg.FAB_BERTH_CMD_RESULT = s.fld Reg.FAB_BERTH_CMD_RESULT := by
  unfold showEntry
  refine ⟨?_, ?_, ?_, ?_, ?_⟩
  case refine_5 => simp (disch := decide) only [State.fld_setFld_addr]
  all_goals
    simp (disch := decide) only [State.fld_setFld_addr, State.fld_setFld_bits, State.fld_setFld_same]
    rfl

theorem stCode_lt (b : BState) : stCode b < 4 := by cases b <;> decide

/-- The end of a query shows the entry (R38). -/
theorem berthCmdDone_query {c : BerthCmd} {b : Berth} (hc : s.fab.cmd = some c) (hr : c.result < 16) (hq : c.query = some b)
    (hp : b.pages < 2 ^ 26) (hn : b.count < 256) (ho : b.owner < 64) :
    Completes .berthCmdDone s fun t =>
      t.fab = { s.fab with cmd := none } ∧ t.fld Reg.FAB_BERTH_CMD_RESULT = c.result ∧
      t.fld Reg.FAB_BERTH_SIZE_PAGES = b.pages ∧ t.fld Reg.FAB_BERTH_ATTR_REFCOUNT = b.count ∧
      t.fld Reg.FAB_BERTH_ATTR_STATE = stCode b.st ∧ t.fld Reg.FAB_BERTH_ATTR_OWNER = b.owner ∧
      Frame [.fab] [0x60100, 0x60104, 0x60108, 0x6010C, 0x60110, 0x60140, 0x60144, 0x60148, 0x6014C, 0x60150, 0x60154, 0x60158, 0x6015C] s t := by
  have hm : ∀ f : Fld, f.addr < 0x60140 → ((cmdEnded s c.result).showQuery b).fld f = (showEntry (cmdEnded s c.result) b).fld f :=
    fun f hf => by rw [showQuery_eq, fld_showManifest b hf]
  obtain ⟨epg, ecn, est, eow, eres⟩ := fld_showEntry (s := cmdEnded s c.result) b
  refine ⟨_, (exec_berthCmdDone s).trans (congrArg _ (berthCmdEnd_query hc hq)), ?_, ?_, ?_, ?_, ?_, ?_, ?_⟩
  · rw [showQuery_eq, showManifest_fab]
    rfl
  · exact ((hm _ (by decide)).trans eres).trans (cmdEnded_result hr)
  · exact ((hm _ (by decide)).trans epg).trans (Nat.mod_eq_of_lt hp)
  · exact ((hm _ (by decide)).trans ecn).trans (Nat.mod_eq_of_lt hn)
  · exact ((hm _ (by decide)).trans est).trans (Nat.mod_eq_of_lt (stCode_lt _))
  · exact ((hm _ (by decide)).trans eow).trans (Nat.mod_eq_of_lt ho)
  · rw [showQuery_eq]
    exact ((frame_cmdEnded (by decide)).trans (frame_showEntry (by decide) (by decide) (by decide) (by decide))).trans
      (frame_showManifest b _ (by decide) _)

/-- Settles O14, from the start of each command and the end of those that show an entry. -/
theorem berthCommandsFollowTable : Obligations.BerthCommandsFollowTable := by
  unfold Obligations.BerthCommandsFollowTable
  refine ⟨fun m h s hm hc h0 hp => ⟨fun _ _ hb hpg hs h1 h2 h3 => berthAllocate_effect hm hc h0 hb hpg hs h1 h2 h3,
    berthFree_unreferenced hm hc h0 hp, berthFree_referenced hm hc h0 hp, berthQuery_effect hm hc h0⟩, fun c s hc hr =>
    ⟨fun hq => ?_, fun b hq _ hpg hn ho => berthCmdDone_query hc hr hq hpg hn ho⟩⟩
  exact ⟨_, (exec_berthCmdDone s).trans (congrArg _ (berthCmdEnd_plain hc hq)), cmdEnded_fab _, cmdEnded_result hr,
    frame_cmdEnded (by decide)⟩

end Sys2Proof.Machine
end

section
/-! PROOFS. O15: parcels are stored in their berths, and quay reads return berth bytes. -/

namespace Sys2Proof.Machine

open State

variable {s : State} {u : Nat} {ps : List Part} {as : List Nat}

theorem exec_parcelWrite (hop : Nat) (p : Parcel) (s : State) : exec (.parcelWrite hop p) s = .next (s.parcelArrives hop p) := rfl

theorem exec_quayRead (q : Fin 48) (u : Fin 45) (h : BitVec 16) (ofs len : Nat) (s : State) :
    exec (.quayRead q u h ofs len) s = .next (s.quayRead q.val u.val h.toNat ofs len) := rfl

theorem exec_quayReadData (q : Fin 48) (bad : List (Fin 16384)) (s : State) :
    exec (.quayReadData q bad) s = .next (s.quayData q.val (bad.map (·.val))) := rfl

theorem exec_starveLimitExpiry (hop : Nat) (vc : Fin 4) (s : State) : exec (.starveLimitExpiry hop vc) s =
    .next { s with fab := { s.fab with starve := s.fab.starve.set (fun _ => 0) hop (vc.val + 1) } } := rfl

/-! ### Parcels that units emit (R34, R39) -/

/-- A manifest as it is stored: REPLAY in replay mode (R27). -/
def stamped (s : State) (m : Manifest) : Manifest := { m with flags := m.flags ||| s.modeFlags }

/-- Unit `u` has a reference to berth `h` under which nothing was written yet. -/
def freshRef (s : State) (u h : Nat) : Bool := s.fab.refs.any fun r => decide (r.unit = u) && decide (r.handle = h) && r.fresh

/-- Payload and manifest of an accepted parcel in the berth. -/
def parcelStored (s : State) (u : Nat) (m : Manifest) (ofs : Nat) (payload : List Byte) : State :=
  (s.memWrite ((s.berth m.handle).base * 4096 + ofs) payload).manifestIn u m.handle m

/-- Racing layers push the berth at its first parcel (R322). -/
def raced (first : Bool) (u h : Nat) (s : State) : State :=
  if first && (decide (4 ≤ u ∧ u < 8) || decide (u = 12 ∨ u = 13)) then scnFollow true h (List.range 16) s else s

/-- SEC taps a parcel of a domain under test (R423). -/
def tapped (m : Manifest) (payload : List Byte) (s : State) : State :=
  if m.domain ≠ 0 ∧ s.fld (Reg.SEC_DOM_EN m.domain) = 1 then { s with leaves := s.leaves ++ [(m, payload)] } else s

theorem emit_accepted {m : Manifest} {ofs : Nat} {payload : List Byte} (hc : s.accessCause u m.handle ofs payload.length = 0) :
    s.emit u m ofs payload =
      tapped (stamped s m) payload (raced (freshRef s u m.handle) u m.handle (parcelStored s u (stamped s m) ofs payload)) := by
  unfold emit
  exact if_neg (not_not.mpr hc)

theorem emit_refused {m : Manifest} {ofs : Nat} {payload : List Byte} (hc : s.accessCause u m.handle ofs payload.length ≠ 0) :
    s.emit u m ofs payload = s.berthFault u m.handle (s.accessCause u m.handle ofs payload.length) := by
  unfold emit
  exact if_pos hc

theorem tapped_mem {m : Manifest} {payload : List Byte} : (tapped m payload s).mem = s.mem := by
  unfold tapped
  split <;> rfl

theorem tapped_fab {m : Manifest} {payload : List Byte} : (tapped m payload s).fab = s.fab := by
  unfold tapped
  split <;> rfl

theorem frame_tapped {m : Manifest} {payload : List Byte} (hp : Part.leaves ∈ ps) : Frame ps as s (tapped m payload s) := by
  unfold tapped
  split
  · exact frame_part (Only.of_keeps (n := 524288) (keeps_leaves Keeps.refl rfl) (by decide)) hp rfl rfl
  · exact Frame.refl

theorem raced_mem {first : Bool} {h : Nat} : (raced first u h s).mem = s.mem := by
  unfold raced
  split
  · exact (keeps_scnFollow (L := 412552) _ _ _ Keeps.refl rfl).same .mem rfl
  · rfl

theorem raced_noFollower {first : Bool} {h : Nat} (hn : s.noFollower) : raced first u h s = s := by
  unfold raced
  rw [scnFollow_noFollower hn, ite_self]

/-- The berth's manifest after a parcel: copied under a new write reference, merged under a used one (R34). -/
def manifestAfter (s : State) (u h : Nat) (m : Manifest) : Manifest := if freshRef s u h then m else (s.berth h).man.merge m

/-- The berth entry after a parcel. -/
def berthAfter (s : State) (u h : Nat) (m : Manifest) : Berth :=
  { s.berth h with man := manifestAfter s u h m, size := if freshRef s u h then none else (s.berth h).size }

theorem berth_parcelStored_same {m : Manifest} {ofs : Nat} {payload : List Byte} :
    (parcelStored s u m ofs payload).berth m.handle = berthAfter s u m.handle m := SMap.get_set_same ..

theorem berth_parcelStored_other {m : Manifest} {ofs j : Nat} {payload : List Byte} (hj : j ≠ m.handle) :
    (parcelStored s u m ofs payload).berth j = s.berth j := SMap.get_set_other _ _ hj

theorem parcelStored_sys {m : Manifest} {ofs : Nat} {payload : List Byte} : (parcelStored s u m ofs payload).sys = s.sys := rfl

theorem frame_parcelStored {m : Manifest} {ofs : Nat} {payload : List Byte} (hm : Part.mem ∈ ps) (hf : Part.fab ∈ ps) :
    Frame ps as s (parcelStored s u m ofs payload) := (frame_memWrite hm).trans (frame_fab hf)

/-- DRAM after an accepted parcel holds its payload in its berth, whoever follows. -/
theorem emit_mem {m : Manifest} {ofs : Nat} {payload : List Byte} (hc : s.accessCause u m.handle ofs payload.length = 0) :
    (s.emit u m ofs payload).mem = (s.memWrite ((s.berth m.handle).base * 4096 + ofs) payload).mem := by
  rw [emit_accepted hc, tapped_mem, raced_mem]
  rfl

/-- Where nothing follows, an accepted parcel is stored and tapped. -/
theorem emit_noFollower {m : Manifest} {ofs : Nat} {payload : List Byte} (hn : s.noFollower)
    (hc : s.accessCause u m.handle ofs payload.length = 0) :
    s.emit u m ofs payload = tapped (stamped s m) payload (parcelStored s u (stamped s m) ofs payload) := by
  rw [emit_accepted hc, raced_noFollower (noFollower_congr (parcelStored_sys (m := stamped s m)) hn)]

/-! ### A favoured VC has its slot (R19) -/

theorem acquire_starve (h : Nat) : (s.acquire u h).1.fab.starve = s.fab.starve := by
  unfold acquire
  dsimp only
  split
  · rw [berthFault_fab]
  · split
    · rw [berthFault_fab]
    · rfl

theorem pushHeld_starve (a cap h : Nat) : (s.pushHeld u a cap h).1.fab.starve = s.fab.starve := by
  have e := acquire_starve (s := s) (u := u) h
  unfold pushHeld
  split
  · dsimp only
    split
    · exact e
    · exact e
  · rfl

theorem scnFollow_starve (race : Bool) (h : Nat) : (ls : List Nat) → (s : State) → (scnFollow race h ls s).fab.starve = s.fab.starve
  | [], _ => rfl
  | l :: ls, s => by
    have e := pushHeld_starve (s := s) (u := 15) (layerQ l) 4 h
    unfold scnFollow
    refine (scnFollow_starve race h ls _).trans ?_
    split
    · dsimp only
      split
      · exact e
      · exact e
    · rfl

theorem emit_starve {m : Manifest} {ofs : Nat} {payload : List Byte} : (s.emit u m ofs payload).fab.starve = s.fab.starve := by
  by_cases hc : s.accessCause u m.handle ofs payload.length = 0
  · rw [emit_accepted hc, tapped_fab]
    unfold raced
    split
    · exact scnFollow_starve _ _ _ _
    · rfl
  · rw [emit_refused hc, berthFault_fab]

/-- The hop after a parcel: the VC that its starvation limit favoured has had its slot. -/
def slotHad (s : State) (hop : Nat) (vc : Fin 4) : State :=
  if s.fab.starve.get (fun _ => 0) hop = vc.val + 1 then
    { s with fab := { s.fab with starve := s.fab.starve.set (fun _ => 0) hop 0 } } else s

/-- What a parcel's fate depends on is as it was. -/
structure SameBerths (s t : State) : Prop where
  berths : t.fab.berths = s.fab.berths
  refs : t.fab.refs = s.fab.refs
  mem : t.mem = s.mem
  sys : t.sys = s.sys
  modeFlags : t.modeFlags = s.modeFlags
  frame : ∀ ps as, Part.fab ∈ ps → Frame ps as s t

theorem sameBerths_slotHad {hop : Nat} {vc : Fin 4} : SameBerths s (slotHad s hop vc) := by
  unfold slotHad
  split
  · exact ⟨rfl, rfl, rfl, rfl, rfl, fun _ _ hp => frame_fab hp⟩
  · exact ⟨rfl, rfl, rfl, rfl, rfl, fun _ _ _ => Frame.refl⟩

theorem slotHad_starve {hop : Nat} {vc : Fin 4} (h : s.fab.starve.get (fun _ => 0) hop = vc.val + 1) :
    (slotHad s hop vc).fab.starve.get (fun _ => 0) hop = 0 := by
  unfold slotHad
  rw [if_pos h]
  exact SMap.get_set_same (fun _ => 0) s.fab.starve hop 0

section
variable {t : State}

theorem SameBerths.berth (e : SameBerths s t) (j : Nat) : t.berth j = s.berth j := by
  unfold State.berth
  rw [e.berths]

theorem SameBerths.cause (e : SameBerths s t) (u h o n : Nat) : t.accessCause u h o n = s.accessCause u h o n := by
  unfold accessCause holds
  rw [e.refs, e.berth]

theorem SameBerths.stamped (e : SameBerths s t) (m : Manifest) : Machine.stamped t m = Machine.stamped s m := by
  unfold Machine.stamped
  rw [e.modeFlags]

theorem SameBerths.manifestAfter (e : SameBerths s t) (u h : Nat) (m : Manifest) :
    Machine.manifestAfter t u h m = Machine.manifestAfter s u h m := by
  unfold Machine.manifestAfter freshRef
  rw [e.refs, e.berth]

end

theorem parcelWrite_eq (hop : Nat) (p : Parcel) (s : State) :
    exec (.parcelWrite hop p) s = .next ((slotHad s hop p.vc).emit p.source.val p.man p.offset p.payload) := exec_parcelWrite hop p s

/-- A parcel that its sender may write: stored byte for byte, and its manifest with it (R34). -/
theorem parcelWrite_accepted (hop : Nat) (p : Parcel) (s : State)
    (hc : s.accessCause p.source.val p.man.handle p.offset p.payload.length = 0) :
    Completes (.parcelWrite hop p) s fun t =>
      t.memRead ((s.berth p.man.handle).base * 4096 + p.offset) p.payload.length = p.payload ∧
      (∀ x, (x < (s.berth p.man.handle).base * 4096 + p.offset ∨
        (s.berth p.man.handle).base * 4096 + p.offset + p.payload.length ≤ x) → t.memByte x = s.memByte x) ∧
      (s.noFollower →
        (t.berth p.man.handle).man = manifestAfter s p.source.val p.man.handle (stamped s p.man) ∧
        (∀ j, j ≠ p.man.handle → t.berth j = s.berth j) ∧ Frame [.mem, .fab, .leaves] [] s t) := by
  have hs : SameBerths s (slotHad s hop p.vc) := sameBerths_slotHad
  refine ⟨_, parcelWrite_eq hop p s, ?_⟩
  generalize slotHad s hop p.vc = w at hs
  have hcw := (hs.cause p.source.val p.man.handle p.offset p.payload.length).trans hc
  have hmem := emit_mem hcw
  rw [hs.berth] at hmem
  refine ⟨(memRead_congr hmem _ _).trans (memRead_memWrite _ _ _), fun x hx => ?_, fun hn => ?_⟩
  · exact ((memByte_congr hmem x).trans (memByte_memWrite_outside _ _ _ hx)).trans (memByte_congr hs.mem x)
  · rw [emit_noFollower (noFollower_congr hs.sys hn) hcw, hs.stamped]
    refine ⟨?_, fun j hj => ?_, ?_⟩
    · rw [berth_congr tapped_fab]
      exact (congrArg Berth.man (berth_parcelStored_same (m := stamped s p.man))).trans (hs.manifestAfter _ _ _)
    · exact ((berth_congr tapped_fab j).trans (berth_parcelStored_other (m := stamped s p.man) hj)).trans (hs.berth j)
    · exact ((hs.frame _ _ (by decide)).trans (frame_parcelStored (by decide) (by decide))).trans (frame_tapped (by decide))

/-- A parcel that its sender may not write: discarded and recorded (R39). -/
theorem parcelWrite_refused (hop : Nat) (p : Parcel) (s : State)
    (hc : s.accessCause p.source.val p.man.handle p.offset p.payload.length ≠ 0) :
    Completes (.parcelWrite hop p) s fun t =>
      t.mem = s.mem ∧ t.flag Reg.FAB_EVENT_BERTH_FAULT = true ∧ (∀ j, t.berth j = s.berth j) ∧
      Frame [.fab] [0x60000, 0x60128, 0x6012C] s t := by
  have hs : SameBerths s (slotHad s hop p.vc) := sameBerths_slotHad
  refine ⟨_, parcelWrite_eq hop p s, ?_⟩
  generalize slotHad s hop p.vc = w at hs
  rw [emit_refused (by rwa [hs.cause])]
  exact ⟨berthFault_mem.trans hs.mem, berthFault_event, fun j => (berth_berthFault j).trans (hs.berth j),
    (hs.frame _ _ (by decide)).trans (frame_berthFault (by decide) (by decide) (by decide))⟩

/-! ### Reads on quays (R16, R39) -/

theorem quayRead_allowed {q h ofs len : Nat} (hc : s.accessCause u h ofs len = 0) :
    s.quayRead q u h ofs len = { s with fab := { s.fab with reads := s.fab.reads ++ [⟨q, u, h, ofs, len, true⟩] } } := by
  unfold quayRead
  dsimp only
  rw [if_pos hc, decide_eq_true hc]

theorem quayRead_refused {q h ofs len : Nat} (hc : s.accessCause u h ofs len ≠ 0) :
    s.quayRead q u h ofs len =
      let t := s.berthFault u h (s.accessCause u h ofs len)
      { t with fab := { t.fab with reads := t.fab.reads ++ [⟨q, u, h, ofs, len, false⟩] } } := by
  unfold quayRead
  dsimp only
  rw [if_neg hc, decide_eq_false hc]

theorem accessCause_lt (h o n : Nat) : s.accessCause u h o n < 8 := by
  unfold accessCause
  split
  · decide
  · split <;> decide

/-- A refused read is recorded and waits for zeros. -/
theorem quayRead_recorded (q : Fin 48) (u : Fin 45) (h : BitVec 16) (ofs len : Nat) (s : State)
    (hc : s.accessCause u.val h.toNat ofs len ≠ 0) :
    Completes (.quayRead q u h ofs len) s fun t =>
      t.fab.reads = s.fab.reads ++ [⟨q.val, u.val, h.toNat, ofs, len, false⟩] ∧ t.flag Reg.FAB_EVENT_BERTH_FAULT = true ∧
      t.fld Reg.FAB_BERTH_FAULT_CAUSE = s.accessCause u.val h.toNat ofs len ∧ t.fld Reg.FAB_BERTH_FAULT_UNIT = u.val ∧
      t.fld Reg.FAB_BERTH_FAULT_HANDLE = h.toNat ∧ Frame [.fab] [0x60000, 0x60128, 0x6012C] s t := by
  obtain ⟨hfab, hev, hh, hu, -⟩ := berthFault_recorded (s := s) u h (s.accessCause u.val h.toNat ofs len)
  refine ⟨_, (exec_quayRead q u h ofs len s).trans (congrArg _ (quayRead_refused hc)), ?_, hev,
    berthFault_cause.trans (Nat.mod_eq_of_lt (accessCause_lt _ _ _)), hu, hh,
    (frame_berthFault (by decide) (by decide) (by decide)).trans (frame_fab (by decide))⟩
  exact congrArg (fun f : Fab => f.reads ++ [⟨q.val, u.val, h.toNat, ofs, len, false⟩]) hfab

/-- The oldest read of a quay returns, without an uncorrectable error. -/
theorem quayData_clean {q : Nat} {r : QuayReq} (hr : s.fab.reads.find? (fun (r : QuayReq) => decide (r.quay = q)) = some r) :
    s.quayData q [] = { s with fab := { s.fab with
      reads := s.fab.reads.erase r
      readData := if r.ok then s.memRead ((s.berth r.handle).base * 4096 + r.ofs) r.len else zeros r.len
      readMan := if r.ok then (s.berth r.handle).man else {} } } := by
  unfold quayData
  rw [hr]
  dsimp only
  rw [List.filter_nil, show ∀ a, readErrors a [] s = s from fun _ => rfl, ite_self]

/-- Settles O15, from the fate of a parcel and the two halves of a read. -/
theorem parcelsAndQuayReads : Obligations.ParcelsAndQuayReads := by
  unfold Obligations.ParcelsAndQuayReads
  refine ⟨fun hop p s m hm => ⟨fun hc => hm ▸ parcelWrite_accepted hop p s hc, parcelWrite_refused hop p s, fun hv => ?_⟩,
    fun q u h ofs len s => ⟨fun hc => ?_, quayRead_recorded q u h ofs len s⟩, fun q r s hr => ⟨fun ho => ?_, fun ho => ?_⟩,
    exec_starveLimitExpiry⟩
  · exact ⟨_, parcelWrite_eq hop p s, (congrArg (SMap.get (fun _ => 0) · hop) emit_starve).trans (slotHad_starve hv)⟩
  · exact (exec_quayRead q u h ofs len s).trans (congrArg _ (quayRead_allowed hc))
  · refine (exec_quayReadData q [] s).trans (congrArg _ ((quayData_clean hr).trans ?_))
    rw [if_pos ho, if_pos ho]
  · refine (exec_quayReadData q [] s).trans (congrArg _ ((quayData_clean hr).trans ?_))
    rw [ho, if_neg Bool.false_ne_true, if_neg Bool.false_ne_true]

end Sys2Proof.Machine
end

section
/-! PROOFS. O28 fails: the release of an abandoned move's berth may be a fault, whose UNIT_EVENT can take the last place of the pilot's docket queue before PMOV_DONE comes. -/

namespace Sys2Proof.Machine

open State

theorem exec_pmovDone (k : Fin 16) (s : State) : exec (.pmovDone k) s = .next (s.moveDone k.val) := rfl

/-- Before any landing no unit has taken a setting, and the maps reset every follower to off. -/
theorem noFollower_unlanded {s : State} (ha : s.sys.applied = []) (hb : s.sys.banks = []) : s.noFollower := by
  have happ : ∀ k f, s.appliedFld k f = bits (resetWord f.addr).toNat f.hi f.lo := fun k f => by
    unfold appliedFld
    rw [ha]
    rfl
  have hbank : ∀ i x f, s.bankFld i x f = bits (resetWord f.addr).toNat f.hi f.lo := fun i x f => by
    unfold bankFld bankWords bankList
    rw [hb]
    rfl
  have hnet : ∀ q < 2, ∀ n < 32, s.appliedFld (netKey q) (Reg.NET_TX_CFG_EN q n) ≠ 1 := by
    simp only [happ]
    decide +kernel
  have hscn : ∀ l < 16, s.appliedFld (layerKey l) (Reg.SCN_LAYER_CFG_EN l) ≠ 1 := by
    simp only [happ]
    decide +kernel
  have henc : ∀ e < 4, ∀ i < 4, ∀ x, s.bankFld (8 + e) x (Reg.ENC_SLOT_CFG_EN e i) ≠ 1 := by
    simp only [hbank, forall_const]
    decide +kernel
  exact ⟨fun q n hq hm => hnet q hq n hm, hscn, fun e i x he hi => henc e he i hi x⟩

/-- A move from pilot memory into berth 1, its berth acquired, of work that was abandoned (R44). -/
def goneMove : Move :=
  { token := 5, man := {}, src := 0, dst := 1, addr := 0x10000, srcOfs := 0, dstOfs := 0, len := 64, ok := true, discard := false, gone := true }

/-- Pilot 0 runs with that move in flight and 255 dockets queued, and subscribes to UNIT_EVENT; berth faults are enabled as an event. Berth 1 is HELD, but its one reference is gone: a BERTH_RELEASE by any unit takes one off (R36). -/
def goneState : State :=
  (((State.reset.setBerth 1 { pages := 1, st := .held }).setPilot 0
    { st := .running, moves := [goneMove], arrivals := List.replicate 255 ⟨9, 16, 0, 0, 0, 0⟩ }).setFld Reg.FAB_EVENT_EN_EN 2).setFld
    (Reg.PILOT_DKT_SUB_MASK 0) 0x20

/-- The fault's docket fills the queue, and PMOV_DONE is dropped (R90). -/
theorem pmovDone_goneState : (⟨8, 16 + (0 : Fin 16).val, goneMove.token % 65536, 2, goneState.now, 0⟩ : Docket) ∉
    ((goneState.moveDone (0 : Fin 16).val).pilot (0 : Fin 16).val).arrivals := by
  decide +kernel

/-- Refutes O28: an abandoned move that ends is not always followed by its PMOV_DONE of status 2, though the queue had a place free. -/
theorem not_pilotBerthCommandsAndMoves : ¬ Obligations.PilotBerthCommandsAndMoves := by
  unfold Obligations.PilotBerthCommandsAndMoves
  intro ⟨_, _, hdone⟩
  obtain ⟨_, _, hgone⟩ := hdone 0 goneMove [] goneState (by decide +kernel) rfl rfl (by decide) (noFollower_unlanded rfl rfl)
  obtain ⟨t, ht, -, -, hpost⟩ := hgone rfl rfl
  rw [exec_pmovDone] at ht
  rw [← Host.Outcome.next.inj ht] at hpost
  exact pmovDone_goneState (hpost (by decide +kernel) (by decide +kernel) (by decide +kernel))

end Sys2Proof.Machine
end

section
/-! PROOFS. A concrete state and command that meet the hypotheses of each statement of the fabric above, with what it then says. -/

namespace Sys2Proof.Machine

open State

/-- The entry of berth 1: one page from page 16 on, HELD, with one reference. -/
def portBerth : Berth := { base := 16, pages := 1, count := 1, st := .held }

/-- Master 1 owns Daxma and names berth 1 for the aperture, so that unit 40 has a reference to it; the berth holds four bytes, and the argument registers name pages 32 and 33. -/
def portState : State :=
  let s := ((State.reset.setFld Reg.FAB_AP_HANDLE_HANDLE 1).setFld Reg.FAB_BERTH_BASE_LO_BASE_LO 32).setFld Reg.FAB_BERTH_SIZE_PAGES 2
  { s.memWrite 65536 [1, 2, 3, 4] with
    sys := { s.sys with owner := 1 }, fab := { (s.setBerth 1 portBerth).fab with refs := [⟨1, 40, true⟩] } }

theorem noFollower_portState : portState.noFollower := noFollower_unlanded rfl rfl

theorem berth_portState : portState.berth 1 = portBerth := rfl

/-- O8 of the harbourmaster's read of the first word. -/
theorem apertureReadsNamedBerth_first : exec (.apDataRead 1 0) portState = .next { portState with rsp := 0x04030201 } :=
  ((apertureReadsNamedBerth 1 0 portState).2 (by decide) rfl (by decide +kernel)).trans
    (by rw [show ofBytesLE _ = 0x04030201 from by decide +kernel]; rfl)

/-- O13 of an acquire by unit 4: the second reference. -/
theorem referencesAreCounted_acquire : Completes (.berthAcquire 4 1) portState fun t =>
    t.berth 1 = { portBerth with count := 2 } ∧ t.fab.refs = [⟨1, 40, true⟩, ⟨1, 4, true⟩] := by
  obtain ⟨t, ht, hb, hr, -⟩ := (referencesAreCounted.1 4 1 portState).1 (by decide) rfl (by decide +kernel)
  exact ⟨t, ht, hb, hr⟩

/-- O13 of the release of the only reference. -/
theorem referencesAreCounted_release : Completes (.berthRelease 40 1) portState fun t =>
    (t.berth 1).count = 0 ∧ (t.berth 1).st = .held ∧ t.fab.refs = [] := by
  obtain ⟨t, ht, hc, hs, -, -, hr, -⟩ :=
    (referencesAreCounted.2 40 1 portState noFollower_portState).1 (by decide) (by decide +kernel) (by decide +kernel)
  exact ⟨t, ht, hc, hs, hr⟩

/-- O14 of an allocation of berth 2. -/
theorem berthCommandsFollowTable_allocate : Completes (.berthAllocate 1 2) portState fun t =>
    t.berth 2 = { base := 32, pages := 2, st := .held } ∧ t.fab.cmd = some ⟨1, 2, 0, none⟩ := by
  obtain ⟨t, ht, hb, hc, -⟩ := (berthCommandsFollowTable.1 1 2 portState (by decide +kernel) rfl (by decide) (by decide)).1 32 2
    (by decide +kernel) (by decide +kernel) rfl (by decide) (by decide) (by decide)
  exact ⟨t, ht, hb.trans (by decide +kernel), hc⟩

/-- O14 of the end of a query of berth 1. -/
theorem berthCommandsFollowTable_query : Completes .berthCmdDone (withCmd portState ⟨3, 1, 0, some portBerth⟩) fun t =>
    t.fab.cmd = none ∧ t.fld Reg.FAB_BERTH_SIZE_PAGES = 1 ∧ t.fld Reg.FAB_BERTH_ATTR_REFCOUNT = 1 := by
  obtain ⟨t, ht, hf, -, hp, hn, -⟩ := (berthCommandsFollowTable.2 ⟨3, 1, 0, some portBerth⟩
    (withCmd portState ⟨3, 1, 0, some portBerth⟩) rfl (by decide)).2 portBerth rfl (by decide) (by decide) (by decide) (by decide)
  exact ⟨t, ht, congrArg Fab.cmd hf, hp, hn⟩

/-- A parcel of unit 40 for the second 64 bytes of berth 1, of frame 9. -/
def portParcel : Parcel := ⟨{ handle := 1, frame := 9 }, 64, 2, 40, List.replicate 64 7⟩

/-- O15 of that parcel: the first under unit 40's reference, which brings its manifest. -/
theorem parcelsAndQuayReads_parcel : Completes (.parcelWrite 3 portParcel) portState fun t =>
    t.memRead 65600 64 = List.replicate 64 7 ∧ t.memByte 65536 = 1 ∧ (t.berth 1).man = { handle := 1, frame := 9 } := by
  obtain ⟨t, ht, hp, hx, hn⟩ := (parcelsAndQuayReads.1 3 portParcel portState _ rfl).1 (by decide +kernel)
  exact ⟨t, ht, hp, (hx 65536 (.inl (by decide))).trans (by decide +kernel), (hn noFollower_portState).1.trans (by decide +kernel)⟩

/-- O15 of a read by unit 4, which has no reference. -/
theorem parcelsAndQuayReads_refused : Completes (.quayRead 2 4 1 0 64) portState fun t =>
    t.fab.reads = [⟨2, 4, 1, 0, 64, false⟩] ∧ t.fld Reg.FAB_BERTH_FAULT_CAUSE = 1 := by
  obtain ⟨t, ht, hr, -, hc, -⟩ := (parcelsAndQuayReads.2.1 2 4 1 0 64 portState).2 (by decide +kernel)
  exact ⟨t, ht, hr, hc.trans (by decide +kernel)⟩

/-- O16 of a write of 0 to the handle, which gives berth 1 back. -/
theorem apertureNamesAndWritesBerth_unnamed : Completes (.apHandleWrite 1 0) portState fun t =>
    t.fld Reg.FAB_AP_HANDLE_HANDLE = 0 ∧ (t.berth 1).count = 0 := by
  obtain ⟨t, ht, hh, hc, -⟩ := ((apertureNamesAndWritesBerth 1 portState).1 0 (by decide +kernel)).2.2.2 (by decide +kernel) rfl
    (by decide +kernel) (by decide +kernel)
  exact ⟨t, ht, hh, hc⟩

/-- O16 of a write of the second word. -/
theorem apertureNamesAndWritesBerth_data : Completes (.apDataWrite 1 1 0x0A0B0C0D) portState fun t =>
    t.memRead 65540 4 = [0x0D, 0x0C, 0x0B, 0x0A] ∧ t.memByte 65536 = 1 := by
  obtain ⟨t, ht, hw, hx, -⟩ := ((apertureNamesAndWritesBerth 1 portState).2 1 0x0A0B0C0D (by decide +kernel)).1 (by decide +kernel)
  exact ⟨t, ht, hw, (hx 65536 (.inl (by decide +kernel))).trans (by decide +kernel)⟩

end Sys2Proof.Machine
end

section
/-! PROOFS. O12: no command spoils the ownership and transaction state. -/

namespace Sys2Proof.Machine

/-- Every command keeps what `Keeps` says is good, and changes neither the queue of commands nor the cycle count: each by its own frame lemma, whose mask has neither bit 0 nor bit 1. -/
theorem exec_keeps {c : Instr} {s t : State} (h : exec c s = .next t) : Keeps 549755813884 s t := by
  cases c with
  | registerWrite => exact (frame_execRegisterWrite _ _ _ _ _ _ h).mono rfl
  | rcRead => exact (frame_execRcRead _ _ _ _ _ h).mono rfl
  | wideValueRead => exact (frame_execWideValueRead _ _ _ _ _ h).mono rfl
  | parcelWrite => exact (frame_execParcelWrite _ _ _ _ h).mono rfl
  | quayRead => exact (frame_execQuayRead _ _ _ _ _ _ _ h).mono rfl
  | quayReadData => exact (frame_execQuayReadData _ _ _ _ h).mono rfl
  | starveLimitExpiry => exact (frame_execStarveLimitExpiry _ _ _ _ h).mono rfl
  | berthAllocate => exact (frame_execBerthAllocate _ _ _ _ h).mono rfl
  | berthFree => exact (frame_execBerthFree _ _ _ _ h).mono rfl
  | berthQuery => exact (frame_execBerthQuery _ _ _ _ h).mono rfl
  | berthCmdDone => exact (frame_execBerthCmdDone _ _ h).mono rfl
  | berthAcquire => exact (frame_execBerthAcquire _ _ _ _ h).mono rfl
  | berthRelease => exact (frame_execBerthRelease _ _ _ _ h).mono rfl
  | apHandleWrite => exact (frame_execApHandleWrite _ _ _ _ h).mono rfl
  | apDataWrite => exact (frame_execApDataWrite _ _ _ _ _ h).mono rfl
  | apDataRead => exact (frame_execApDataRead _ _ _ _ h).mono rfl
  | tideFire => exact (frame_execTideFire _ _ _ h).mono rfl
  | unitTideStart => exact (frame_execUnitTideStart _ _ _ h).mono rfl
  | unitOverrun => exact (frame_execUnitOverrun _ _ _ h).mono rfl
  | unitAbandon => exact (frame_execUnitAbandon _ _ _ h).mono rfl
  | srxFrameExpire => exact (frame_execSrxFrameExpire _ _ _ h).mono rfl
  | claim => exact (frame_execClaim _ _ _ _ h).mono rfl
  | ownRelease => exact (frame_execOwnRelease _ _ _ h).mono rfl
  | heartbeat => exact (frame_execHeartbeat _ _ _ h).mono rfl
  | handover => exact (frame_execHandover _ _ _ _ h).mono rfl
  | claimTimeout => exact (frame_execClaimTimeout _ _ _ h).mono rfl
  | leaseExpiry => exact (frame_execLeaseExpiry _ _ h).mono rfl
  | txnBegin => exact (frame_execTxnBegin _ _ _ h).mono rfl
  | txnCommit => exact (frame_execTxnCommit _ _ _ _ _ h).mono rfl
  | txnRollback => exact (frame_execTxnRollback _ _ _ h).mono rfl
  | opWithdraw => exact (frame_execOpWithdraw _ _ _ h).mono rfl
  | landingNoTides => exact (frame_execLandingNoTides _ _ h).mono rfl
  | alu => exact (frame_execAlu _ _ _ _ _ h).mono rfl
  | addi => exact (frame_execAddi _ _ _ _ _ h).mono rfl
  | andi => exact (frame_execAndi _ _ _ _ _ h).mono rfl
  | ori => exact (frame_execOri _ _ _ _ _ h).mono rfl
  | xori => exact (frame_execXori _ _ _ _ _ h).mono rfl
  | shi => exact (frame_execShi _ _ _ _ _ h).mono rfl
  | lui => exact (frame_execLui _ _ _ _ _ h).mono rfl
  | ld => exact (frame_execLd _ _ _ _ _ h).mono rfl
  | lw => exact (frame_execLw _ _ _ _ _ h).mono rfl
  | lh => exact (frame_execLh _ _ _ _ _ h).mono rfl
  | lb => exact (frame_execLb _ _ _ _ _ h).mono rfl
  | sd => exact (frame_execSd _ _ _ _ _ h).mono rfl
  | sw => exact (frame_execSw _ _ _ _ _ h).mono rfl
  | sh => exact (frame_execSh _ _ _ _ _ h).mono rfl
  | sb => exact (frame_execSb _ _ _ _ _ h).mono rfl
  | cld => exact (frame_execCld _ _ _ _ _ h).mono rfl
  | cst => exact (frame_execCst _ _ _ _ _ h).mono rfl
  | fence => exact (frame_execFence _ _ _ _ _ h).mono rfl
  | pcmp => exact (frame_execPcmp _ _ _ _ _ h).mono rfl
  | pcmpi => exact (frame_execPcmpi _ _ _ _ _ h).mono rfl
  | plog => exact (frame_execPlog _ _ _ _ _ h).mono rfl
  | pget => exact (frame_execPget _ _ _ _ _ h).mono rfl
  | br => exact (frame_execBr _ _ _ _ _ h).mono rfl
  | call => exact (frame_execCall _ _ _ _ _ h).mono rfl
  | jr => exact (frame_execJr _ _ _ _ _ h).mono rfl
  | dpop => exact (frame_execDpop _ _ _ _ _ h).mono rfl
  | dpost => exact (frame_execDpost _ _ _ _ _ h).mono rfl
  | dcnt => exact (frame_execDcnt _ _ _ _ _ h).mono rfl
  | wait => exact (frame_execWait _ _ _ _ _ h).mono rfl
  | waitu => exact (frame_execWaitu _ _ _ _ _ h).mono rfl
  | tide => exact (frame_execTide _ _ _ _ _ h).mono rfl
  | timr => exact (frame_execTimr _ _ _ _ _ h).mono rfl
  | mfld => exact (frame_execMfld _ _ _ _ _ h).mono rfl
  | txb => exact (frame_execTxb _ _ _ _ _ h).mono rfl
  | txc => exact (frame_execTxc _ _ _ _ _ h).mono rfl
  | txr => exact (frame_execTxr _ _ _ _ _ h).mono rfl
  | txw => exact (frame_execTxw _ _ _ _ _ h).mono rfl
  | bcmdAllocate => exact (frame_execBcmdAllocate _ _ _ _ _ h).mono rfl
  | bcmdFree => exact (frame_execBcmdFree _ _ _ _ _ h).mono rfl
  | bcmdQuery => exact (frame_execBcmdQuery _ _ _ _ _ h).mono rfl
  | pmov => exact (frame_execPmov _ _ _ _ _ h).mono rfl
  | pmovDone => exact (frame_execPmovDone _ _ _ h).mono rfl
  | hinit => exact (frame_execHinit _ _ _ _ _ h).mono rfl
  | hupd => exact (frame_execHupd _ _ _ _ _ h).mono rfl
  | hfin => exact (frame_execHfin _ _ _ _ _ h).mono rfl
  | csrr => exact (frame_execCsrr _ _ _ _ _ h).mono rfl
  | csrw => exact (frame_execCsrw _ _ _ _ _ h).mono rfl
  | trap => exact (frame_execTrap _ _ _ _ _ h).mono rfl
  | eret => exact (frame_execEret _ _ _ _ _ h).mono rfl
  | rand => exact (frame_execRand _ _ _ _ _ h).mono rfl
  | halt => exact (frame_execHalt _ _ _ _ _ h).mono rfl
  | docketPost => exact (frame_execDocketPost _ _ _ _ _ _ _ h).mono rfl
  | pilotRelease => exact (frame_execPilotRelease _ _ _ h).mono rfl
  | pilotOverrun => exact (frame_execPilotOverrun _ _ _ h).mono rfl
  | pilotAbandon => exact (frame_execPilotAbandon _ _ _ h).mono rfl
  | pilotStart => exact (frame_execPilotStart _ _ _ _ h).mono rfl
  | pilotStop => exact (frame_execPilotStop _ _ _ _ h).mono rfl
  | pilotReset => exact (frame_execPilotReset _ _ _ _ h).mono rfl
  | pilotBegin => exact (frame_execPilotBegin _ _ _ h).mono rfl
  | pilotLoad => exact (frame_execPilotLoad _ _ _ _ _ h).mono rfl
  | pilotLoadDone => exact (frame_execPilotLoadDone _ _ _ h).mono rfl
  | hostMail => exact (frame_execHostMail _ _ _ _ _ _ h).mono rfl
  | epochWrap => exact (frame_execEpochWrap _ _ _ h).mono rfl
  | runStart => exact (frame_execRunStart _ _ _ _ _ h).mono rfl
  | runStop => exact (frame_execRunStop _ _ _ _ _ h).mono rfl
  | ptpMessageRx => exact (frame_execPtpMessageRx _ _ _ _ h).mono rfl
  | ptpMessageTx => exact (frame_execPtpMessageTx _ _ _ _ h).mono rfl
  | syncLoss => exact (frame_execSyncLoss _ _ _ h).mono rfl
  | announceTimeout => exact (frame_execAnnounceTimeout _ _ _ h).mono rfl
  | clkMonitorWindow => exact (frame_execClkMonitorWindow _ _ _ _ h).mono rfl
  | etsPop => exact (frame_execEtsPop _ _ _ _ h).mono rfl
  | evtPop => exact (frame_execEvtPop _ _ _ _ h).mono rfl
  | evtEdge => exact (frame_execEvtEdge _ _ _ _ h).mono rfl
  | evtGenTime => exact (frame_execEvtGenTime _ _ _ _ _ h).mono rfl
  | evtOutputEdge => exact (frame_execEvtOutputEdge _ _ _ _ h).mono rfl
  | srxTrain => exact (frame_execSrxTrain _ _ _ _ _ h).mono rfl
  | srxRun => exact (frame_execSrxRun _ _ _ _ _ h).mono rfl
  | srxStop => exact (frame_execSrxStop _ _ _ _ _ h).mono rfl
  | laneSignal => exact (frame_execLaneSignal _ _ _ _ h).mono rfl
  | laneCdrLock => exact (frame_execLaneCdrLock _ _ _ _ h).mono rfl
  | laneAlignLock => exact (frame_execLaneAlignLock _ _ _ _ _ _ _ _ h).mono rfl
  | laneLockLoss => exact (frame_execLaneLockLoss _ _ _ _ h).mono rfl
  | laneIdent => exact (frame_execLaneIdent _ _ _ _ _ _ h).mono rfl
  | laneDeskew => exact (frame_execLaneDeskew _ _ _ _ h).mono rfl
  | srxTrainTimeout => exact (frame_execSrxTrainTimeout _ _ _ h).mono rfl
  | laneSlip => exact (frame_execLaneSlip _ _ _ _ _ _ h).mono rfl
  | laneFaultTimeout => exact (frame_execLaneFaultTimeout _ _ _ _ h).mono rfl
  | lanePinFault => exact (frame_execLanePinFault _ _ _ _ _ _ h).mono rfl
  | sof => exact (frame_execSof _ _ _ _ h).mono rfl
  | seam => exact (frame_execSeam _ _ _ _ _ _ h).mono rfl
  | eof => exact (frame_execEof _ _ _ _ _ _ h).mono rfl
  | badBlock => exact (frame_execBadBlock _ _ _ _ _ _ _ h).mono rfl
  | srxFqPush => exact (frame_execSrxFqPush _ _ _ _ _ _ h).mono rfl
  | prbsSelect => exact (frame_execPrbsSelect _ _ _ _ _ _ h).mono rfl
  | prbsLock => exact (frame_execPrbsLock _ _ _ _ _ h).mono rfl
  | inject => exact (frame_execInject _ _ _ _ _ _ h).mono rfl
  | syncOutputEdge => exact (frame_execSyncOutputEdge _ _ _ _ h).mono rfl
  | pipeRun => exact (frame_execPipeRun _ _ _ _ _ h).mono rfl
  | pipeStop => exact (frame_execPipeStop _ _ _ _ _ h).mono rfl
  | pipeInPush => exact (frame_execPipeInPush _ _ _ _ _ _ h).mono rfl
  | pipeFrameEnd => exact (frame_execPipeFrameEnd _ _ _ h).mono rfl
  | pipeOutPush => exact (frame_execPipeOutPush _ _ _ _ _ _ h).mono rfl
  | pipeRawoutPush => exact (frame_execPipeRawoutPush _ _ _ _ _ h).mono rfl
  | statPush => exact (frame_execStatPush _ _ _ _ _ h).mono rfl
  | calTempSample => exact (frame_execCalTempSample _ _ _ h).mono rfl
  | calRun => exact (frame_execCalRun _ _ _ _ h).mono rfl
  | calRunStart => exact (frame_execCalRunStart _ _ _ h).mono rfl
  | calRunDone => exact (frame_execCalRunDone _ _ _ _ _ h).mono rfl
  | calPpbUpdate => exact (frame_execCalPpbUpdate _ _ _ _ h).mono rfl
  | calFfCmd => exact (frame_execCalFfCmd _ _ _ _ h).mono rfl
  | fuseBurnDone => exact (frame_execFuseBurnDone _ _ _ h).mono rfl
  | encRun => exact (frame_execEncRun _ _ _ _ _ h).mono rfl
  | encStop => exact (frame_execEncStop _ _ _ _ _ h).mono rfl
  | encSlotInPush => exact (frame_execEncSlotInPush _ _ _ _ _ _ h).mono rfl
  | encSlotBsPush => exact (frame_execEncSlotBsPush _ _ _ _ _ _ h).mono rfl
  | encSlotEsPush => exact (frame_execEncSlotEsPush _ _ _ _ _ _ h).mono rfl
  | encPictureStart => exact (frame_execEncPictureStart _ _ _ h).mono rfl
  | encPreempt => exact (frame_execEncPreempt _ _ _ h).mono rfl
  | encResume => exact (frame_execEncResume _ _ _ h).mono rfl
  | encPictureEnd => exact (frame_execEncPictureEnd _ _ _ h).mono rfl
  | decRun => exact (frame_execDecRun _ _ _ _ _ h).mono rfl
  | decStop => exact (frame_execDecStop _ _ _ _ _ h).mono rfl
  | decFlush => exact (frame_execDecFlush _ _ _ _ _ h).mono rfl
  | decFlushDone => exact (frame_execDecFlushDone _ _ _ h).mono rfl
  | decInPush => exact (frame_execDecInPush _ _ _ _ _ h).mono rfl
  | decOutPush => exact (frame_execDecOutPush _ _ _ _ _ h).mono rfl
  | decDpbPush => exact (frame_execDecDpbPush _ _ _ _ _ h).mono rfl
  | decDecodeStart => exact (frame_execDecDecodeStart _ _ _ h).mono rfl
  | decDecodeDone => exact (frame_execDecDecodeDone _ _ _ _ h).mono rfl
  | decCopyDone => exact (frame_execDecCopyDone _ _ _ h).mono rfl
  | lzeRun => exact (frame_execLzeRun _ _ _ _ h).mono rfl
  | lzeStop => exact (frame_execLzeStop _ _ _ _ h).mono rfl
  | lzePush => exact (frame_execLzePush _ _ _ _ _ _ h).mono rfl
  | lzeJobStart => exact (frame_execLzeJobStart _ _ _ h).mono rfl
  | lzeBlockDone => exact (frame_execLzeBlockDone _ _ _ h).mono rfl
  | lzeJobEnd => exact (frame_execLzeJobEnd _ _ _ h).mono rfl
  | lzeDonePop => exact (frame_execLzeDonePop _ _ _ _ _ h).mono rfl
  | memTrainDone => exact (frame_execMemTrainDone _ _ _ _ h).mono rfl
  | memRequest => exact (frame_execMemRequest _ _ _ _ _ _ _ h).mono rfl
  | urgencyEscalate => exact (frame_execUrgencyEscalate _ _ h).mono rfl
  | reserveWindow => exact (frame_execReserveWindow _ _ _ h).mono rfl
  | memPageIdle => exact (frame_execMemPageIdle _ _ _ _ _ h).mono rfl
  | memRefresh => exact (frame_execMemRefresh _ _ _ _ _ _ h).mono rfl
  | memIdleWindow => exact (frame_execMemIdleWindow _ _ _ _ h).mono rfl
  | memRetrain => exact (frame_execMemRetrain _ _ _ _ _ h).mono rfl
  | memRetrainDone => exact (frame_execMemRetrainDone _ _ _ _ h).mono rfl
  | memXlate => exact (frame_execMemXlate _ _ _ _ h).mono rfl
  | scnRun => exact (frame_execScnRun _ _ _ _ h).mono rfl
  | scnStop => exact (frame_execScnStop _ _ _ _ h).mono rfl
  | scnLatch => exact (frame_execScnLatch _ _ _ h).mono rfl
  | scnUnderrun => exact (frame_execScnUnderrun _ _ _ _ _ h).mono rfl
  | scnFrameEnd => exact (frame_execScnFrameEnd _ _ _ h).mono rfl
  | scnLoadCmd => exact (frame_execScnLoadCmd _ _ _ _ h).mono rfl
  | scnLoadDone => exact (frame_execScnLoadDone _ _ h).mono rfl
  | scnLayerPush => exact (frame_execScnLayerPush _ _ _ _ _ h).mono rfl
  | pcxEnable => exact (frame_execPcxEnable _ _ _ _ _ h).mono rfl
  | pcxDisable => exact (frame_execPcxDisable _ _ _ _ _ h).mono rfl
  | pcieLinkUp => exact (frame_execPcieLinkUp _ _ _ _ _ _ _ _ _ h).mono rfl
  | pcieLinkDown => exact (frame_execPcieLinkDown _ _ _ _ _ _ h).mono rfl
  | pcieHostAccess => exact (frame_execPcieHostAccess _ _ _ _ h).mono rfl
  | pcxEpWin => exact (frame_execPcxEpWin _ _ _ _ _ _ h).mono rfl
  | pcxEpIrq => exact (frame_execPcxEpIrq _ _ _ _ _ h).mono rfl
  | attach => exact (frame_execAttach _ _ _ _ _ h).mono rfl
  | detach => exact (frame_execDetach _ _ _ _ _ h).mono rfl
  | nvmeCompletion => exact (frame_execNvmeCompletion _ _ _ _ _ _ h).mono rfl
  | nvmeTimeout => exact (frame_execNvmeTimeout _ _ _ h).mono rfl
  | format => exact (frame_execFormat _ _ _ _ _ h).mono rfl
  | mount => exact (frame_execMount _ _ _ _ _ h).mono rfl
  | unmount => exact (frame_execUnmount _ _ _ _ _ h).mono rfl
  | volOpDone => exact (frame_execVolOpDone _ _ _ h).mono rfl
  | pcxVolPush => exact (frame_execPcxVolPush _ _ _ _ _ _ h).mono rfl
  | pcxJobStart => exact (frame_execPcxJobStart _ _ _ h).mono rfl
  | pcxJobEnd => exact (frame_execPcxJobEnd _ _ _ h).mono rfl
  | netEnable => exact (frame_execNetEnable _ _ _ _ _ h).mono rfl
  | netDisable => exact (frame_execNetDisable _ _ _ _ _ h).mono rfl
  | arpRequest => exact (frame_execArpRequest _ _ _ _ _ _ _ h).mono rfl
  | icmpEchoRequest => exact (frame_execIcmpEchoRequest _ _ _ _ _ _ _ h).mono rfl
  | neighTimeout => exact (frame_execNeighTimeout _ _ _ h).mono rfl
  | neighExpiry => exact (frame_execNeighExpiry _ _ _ h).mono rfl
  | netTxPush => exact (frame_execNetTxPush _ _ _ _ _ _ h).mono rfl
  | pierDatagramTx => exact (frame_execPierDatagramTx _ _ _ h).mono rfl
  | netRxPush => exact (frame_execNetRxPush _ _ _ _ _ _ h).mono rfl
  | pierDatagramRx => exact (frame_execPierDatagramRx _ _ _ _ _ h).mono rfl
  | pierRxTimeout => exact (frame_execPierRxTimeout _ _ _ _ h).mono rfl
  | hello => exact (frame_execHello _ _ _ _ h).mono rfl
  | hcpRead => exact (frame_execHcpRead _ _ _ _ h).mono rfl
  | hcpWrite => exact (frame_execHcpWrite _ _ _ _ h).mono rfl
  | own => exact (frame_execOwn _ _ _ _ h).mono rfl
  | hcpHeartbeat => exact (frame_execHcpHeartbeat _ _ _ _ h).mono rfl
  | hcpTxn => exact (frame_execHcpTxn _ _ _ _ h).mono rfl
  | withdrawList => exact (frame_execWithdrawList _ _ _ _ h).mono rfl
  | hcpClose => exact (frame_execHcpClose _ _ _ _ h).mono rfl
  | hcpPilotMessage => exact (frame_execHcpPilotMessage _ _ _ _ _ h).mono rfl
  | netHcpSend => exact (frame_execNetHcpSend _ _ _ _ h).mono rfl
  | hcpSessionTimeout => exact (frame_execHcpSessionTimeout _ _ _ h).mono rfl
  | hcpHandshakeTimeout => exact (frame_execHcpHandshakeTimeout _ _ _ h).mono rfl
  | arrayReply => exact (frame_execArrayReply _ _ h).mono rfl
  | audStart => exact (frame_execAudStart _ _ _ _ _ h).mono rfl
  | audStop => exact (frame_execAudStop _ _ _ _ _ h).mono rfl
  | audAbort => exact (frame_execAudAbort _ _ _ _ _ h).mono rfl
  | audPush => exact (frame_execAudPush _ _ _ _ _ h).mono rfl
  | audFrame => exact (frame_execAudFrame _ _ _ _ h).mono rfl
  | audClockLoss => exact (frame_execAudClockLoss _ _ _ h).mono rfl
  | zcTimeout => exact (frame_execZcTimeout _ _ _ _ h).mono rfl
  | scgLocked => exact (frame_execScgLocked _ _ _ h).mono rfl
  | scgHoldover => exact (frame_execScgHoldover _ _ _ h).mono rfl
  | twbEnable => exact (frame_execTwbEnable _ _ _ _ _ _ h).mono rfl
  | twbDisable => exact (frame_execTwbDisable _ _ _ _ _ h).mono rfl
  | twbClear => exact (frame_execTwbClear _ _ _ _ _ _ h).mono rfl
  | twbAbort => exact (frame_execTwbAbort _ _ _ _ _ h).mono rfl
  | twbXfer => exact (frame_execTwbXfer _ _ _ _ _ h).mono rfl
  | twbXferStart => exact (frame_execTwbXferStart _ _ _ _ _ h).mono rfl
  | twbXferDone => exact (frame_execTwbXferDone _ _ _ _ h).mono rfl
  | twbAlert => exact (frame_execTwbAlert _ _ _ _ _ h).mono rfl
  | twbTargetWrite => exact (frame_execTwbTargetWrite _ _ _ _ _ h).mono rfl
  | twbTargetRead => exact (frame_execTwbTargetRead _ _ _ _ h).mono rfl
  | twbStretchTimeout => exact (frame_execTwbStretchTimeout _ _ _ h).mono rfl
  | sclStuck => exact (frame_execSclStuck _ _ _ h).mono rfl
  | twbSupplyFault => exact (frame_execTwbSupplyFault _ _ _ h).mono rfl
  | twbFaultRecover => exact (frame_execTwbFaultRecover _ _ _ h).mono rfl
  | twbWakeMatch => exact (frame_execTwbWakeMatch _ _ _ h).mono rfl
  | ctWrite => exact (frame_execCtWrite _ _ _ _ _ _ _ h).mono rfl
  | ctRead => exact (frame_execCtRead _ _ _ _ _ _ _ h).mono rfl
  | gpioEdge => exact (frame_execGpioEdge _ _ _ _ h).mono rfl
  | gpioDriveFault => exact (frame_execGpioDriveFault _ _ _ _ h).mono rfl
  | gpioFaultRetry => exact (frame_execGpioFaultRetry _ _ _ _ h).mono rfl
  | gpioFaultClear => exact (frame_execGpioFaultClear _ _ _ _ h).mono rfl
  | secReady => exact (frame_execSecReady _ _ _ h).mono rfl
  | certLoad => exact (frame_execCertLoad _ _ _ _ h).mono rfl
  | ownerBurn => exact (frame_execOwnerBurn _ _ _ _ _ h).mono rfl
  | ownerRevoke => exact (frame_execOwnerRevoke _ _ _ _ _ h).mono rfl
  | policyBurn => exact (frame_execPolicyBurn _ _ _ _ _ h).mono rfl
  | recipSet => exact (frame_execRecipSet _ _ _ _ h).mono rfl
  | clipOpen => exact (frame_execClipOpen _ _ _ _ h).mono rfl
  | clipLoad => exact (frame_execClipLoad _ _ _ _ h).mono rfl
  | clipClose => exact (frame_execClipClose _ _ _ _ h).mono rfl
  | arrayKey => exact (frame_execArrayKey _ _ _ _ h).mono rfl
  | attest => exact (frame_execAttest _ _ _ _ h).mono rfl
  | secCmdDone => exact (frame_execSecCmdDone _ _ h).mono rfl
  | secLeafHash => exact (frame_execSecLeafHash _ _ _ h).mono rfl
  | chainSignDone => exact (frame_execChainSignDone _ _ _ h).mono rfl
  | secPush => exact (frame_execSecPush _ _ _ _ h).mono rfl
  | record => exact (frame_execRecord _ _ _ h).mono rfl
  | replay => exact (frame_execReplay _ _ _ h).mono rfl
  | logRun => exact (frame_execLogRun _ _ _ h).mono rfl
  | logStop => exact (frame_execLogStop _ _ _ h).mono rfl
  | logOutPush => exact (frame_execLogOutPush _ _ _ _ h).mono rfl
  | logInPush => exact (frame_execLogInPush _ _ _ _ h).mono rfl
  | logFeed => exact (frame_execLogFeed _ _ _ _ _ _ h).mono rfl
  | replayWrite => exact (frame_execReplayWrite _ _ h).mono rfl
  | powerOn => exact (frame_execPowerOn _ _ h).mono rfl
  | resetPinAssert => exact (frame_execResetPinAssert _ _ h).mono rfl
  | resetPinRelease => exact (frame_execResetPinRelease _ _ _ h).mono rfl
  | brownout => exact (frame_execBrownout _ _ _ _ h).mono rfl
  | brownoutRelease => exact (frame_execBrownoutRelease _ _ _ h).mono rfl
  | sleep => exact (frame_execSleep _ _ _ _ h).mono rfl
  | sleepEntryDone => exact (frame_execSleepEntryDone _ _ h).mono rfl
  | warm => exact (frame_execWarm _ _ _ _ h).mono rfl
  | wakeGpio => exact (frame_execWakeGpio _ _ _ h).mono rfl
  | wakeReset => exact (frame_execWakeReset _ _ _ h).mono rfl
  | pwrBlockReset => exact (frame_execPwrBlockReset _ _ _ _ h).mono rfl
  | wdogKick => exact (frame_execWdogKick _ _ _ _ h).mono rfl
  | wdogExpiry => exact (frame_execWdogExpiry _ _ h).mono rfl
  | vcoreVidStep => exact (frame_execVcoreVidStep _ _ h).mono rfl
  | domainSwitchOn => exact (frame_execDomainSwitchOn _ _ _ h).mono rfl
  | domainGateOff => exact (frame_execDomainGateOff _ _ _ h).mono rfl
  | portPinFault => exact (frame_execPortPinFault _ _ _ _ h).mono rfl
  | portFaultRetry => exact (frame_execPortFaultRetry _ _ _ _ h).mono rfl
  | refLoss => exact (frame_execRefLoss _ _ _ h).mono rfl
  | refHoldExpiry => exact (frame_execRefHoldExpiry _ _ h).mono rfl
  | refRestore => exact (frame_execRefRestore _ _ h).mono rfl
  | thermalSample => exact (frame_execThermalSample _ _ _ _ h).mono rfl
  | extest => exact (frame_execExtest _ _ _ h).mono rfl
  | idcode => exact (frame_execIdcode _ _ h).mono rfl
  | samplePreload => exact (frame_execSamplePreload _ _ _ h).mono rfl
  | highz => exact (frame_execHighz _ _ h).mono rfl
  | clamp => exact (frame_execClamp _ _ h).mono rfl
  | debug => exact (frame_execDebug _ _ h).mono rfl
  | bypass => exact (frame_execBypass _ _ h).mono rfl
  | debugAccess => exact (frame_execDebugAccess _ _ _ h).mono rfl
  | ethLinkUp => exact (frame_execEthLinkUp _ _ _ _ h).mono rfl
  | ethLinkDown => exact (frame_execEthLinkDown _ _ _ _ h).mono rfl
  | arpReply => exact (frame_execArpReply _ _ _ _ _ _ h).mono rfl
  | netRxDiscard => exact (frame_execNetRxDiscard _ _ _ h).mono rfl
  | laneSignalLoss => exact (frame_execLaneSignalLoss _ _ _ _ h).mono rfl

/-- Settles O12: a step is one FCLK cycle or a command, and both keep it. -/
theorem stepKeepsOwnershipGood : Obligations.StepKeepsOwnershipGood := by
  unfold Obligations.StepKeepsOwnershipGood
  intro s t hok h
  unfold step at h
  split at h
  · cases h
    exact (keeps_fclk (L := 549755813886) Keeps.refl rfl).own hok
  · exact (exec_keeps h).own hok

end Sys2Proof.Machine
end

section
/-! PROOFS. What the tide schedule and the transaction checks read, and that states which agree there give the same answers. -/

namespace Sys2Proof.Machine

open State

variable {s t : State}

/-- The words that the tide schedule and the commit deadlines read (R62, R106, R108). -/
def clockWords : List Nat :=
  [0x218, 0x20000, 0x20004, 0x20020, 0x20024, 0x20028, 0x20030, 0x20034, 0x20038, 0x2003C, 0x20040, 0x20044]

/-- Tide time, the schedule and the commit deadlines are the same. -/
structure SameClock (s t : State) : Prop where
  time : t.time = s.time
  word : ∀ x ∈ clockWords, t.word x = s.word x

theorem quiet_clockWords : ∀ x ∈ clockWords, quiet x = true := by decide +kernel

namespace SameClock

theorem fld (h : SameClock s t) (f : Fld) (hf : f.addr ∈ clockWords) : t.fld f = s.fld f := State.fld_of_word (h.word _ hf)

theorem fld2 (h : SameClock s t) (lo hi : Fld) (hl : lo.addr ∈ clockWords) (hh : hi.addr ∈ clockWords) :
    t.fld2 lo hi = s.fld2 lo hi := by
  unfold State.fld2
  rw [h.fld lo hl, h.fld hi hh]

theorem running (h : SameClock s t) : t.running = s.running := by
  rw [State.running, State.running, State.flag, State.flag, h.fld _ (by decide)]

theorem tide (h : SameClock s t) : t.tide = s.tide := h.fld2 _ _ (by decide) (by decide)

theorem period (h : SameClock s t) : t.period = s.period := by
  rw [State.period, State.period, h.fld _ (by decide), h.fld _ (by decide), h.fld _ (by decide)]

theorem anchor (h : SameClock s t) : t.anchor = s.anchor := h.fld2 _ _ (by decide) (by decide)

theorem base (h : SameClock s t) : t.base = s.base := by
  rw [State.base, State.base, h.word _ (by decide), h.word _ (by decide), h.time]

theorem tideTime48 (h : SameClock s t) : t.tideTime48 = s.tideTime48 := by
  rw [State.tideTime48, State.tideTime48, State.tideTime, State.tideTime, State.dom, State.dom, State.sel, State.sel,
    h.fld _ (by decide), h.time]

theorem deadlineLead (h : SameClock s t) : t.deadlineLead = s.deadlineLead := by
  rw [State.deadlineLead, State.deadlineLead, h.fld _ (by decide)]

theorem schedTime (h : SameClock s t) (n : Nat) : t.schedTime n = s.schedTime n := by
  rw [State.schedTime, State.schedTime, h.base, h.anchor, h.period]

theorem deadlinePassed (h : SameClock s t) (n : Nat) : t.deadlinePassed n = s.deadlinePassed n := by
  rw [State.deadlinePassed, State.deadlinePassed, h.schedTime, h.deadlineLead, h.tideTime48]

theorem firstTideAfter (h : SameClock s t) (x : Int) : t.firstTideAfter x = s.firstTideAfter x := by
  rw [State.firstTideAfter, State.firstTideAfter, h.anchor, h.base, h.period]

theorem nextCommitTide (h : SameClock s t) : t.nextCommitTide = s.nextCommitTide := by
  rw [State.nextCommitTide, State.nextCommitTide, h.tideTime48, h.deadlineLead, h.firstTideAfter, h.time]

theorem commitTarget (h : SameClock s t) (target : Nat) (next orLater : Bool) :
    t.commitTarget target next orLater = s.commitTarget target next orLater := by
  unfold State.commitTarget
  simp only [h.running, h.nextCommitTide, h.deadlinePassed, h.tide]

end SameClock

theorem Wrote.sameClock {a v : Nat} (hu : Wrote a v s t) (ha : a ∉ clockWords) : SameClock s t where
  time := hu.keeps.same .time rfl
  word x hx := hu.word x (quiet_clockWords x hx) fun e => ha (e ▸ hx)

theorem fld2_of_word {lo hi : Fld} (hl : t.word lo.addr = s.word lo.addr) (hh : t.word hi.addr = s.word hi.addr) :
    t.fld2 lo hi = s.fld2 lo hi := by
  unfold fld2
  rw [State.fld_of_word hl, State.fld_of_word hh]

theorem slot_congr (e : t.sys = s.sys) (i : Nat) : t.slot i = s.slot i := by
  unfold slot
  rw [e]

theorem slotOf_congr (e : t.sys = s.sys) (h : Nat) : t.slotOf h = s.slotOf h := by
  unfold slotOf
  simp only [slot_congr e]

theorem freeSlot_congr (e : t.sys = s.sys) : t.freeSlot = s.freeSlot := by
  unfold freeSlot
  simp only [slot_congr e]

theorem lastSeq_congr (e : t.sys = s.sys) (k : Nat) : t.lastSeq k = s.lastSeq k := by
  unfold lastSeq
  rw [e]

theorem sys_post (kind src sub payload : Nat) : (s.post kind src sub payload).sys = s.sys :=
  (keeps_post (L := 16648) kind src sub payload Keeps.refl rfl).same .sys rfl

/-- Only the ownership and transaction state changes. -/
theorem only_sys (x : Sys) : Only [.sys] s { s with sys := x } := fun p hp => by
  cases p <;> first | rfl | exact absurd (List.mem_singleton.mpr rfl) hp

theorem frame_sys {ps : List Part} {as : List Nat} (x : Sys) (hp : Part.sys ∈ ps) : Frame ps as s { s with sys := x } :=
  frame_part (only_sys x) hp rfl rfl

end Sys2Proof.Machine
end

section
/-! PROOFS. O21 and O22: transactions open, roll back, commit and withdraw. -/

namespace Sys2Proof.Machine

open State

variable {s u : State} {h i r : Nat} {x : Txn}

theorem exec_txnBegin (m : Fin 32) (s : State) : exec (.txnBegin m) s = execTxnBegin m s := rfl

theorem exec_txnCommit (m : Fin 32) (orLater next : Bool) (s : State) :
    exec (.txnCommit m orLater next) s = execTxnCommit m orLater next s := rfl

theorem exec_txnRollback (m : Fin 32) (s : State) : exec (.txnRollback m) s = execTxnRollback m s := rfl

theorem exec_opWithdraw (m : Fin 32) (s : State) : exec (.opWithdraw m) s = execOpWithdraw m s := rfl

/-! ### The requests (R58, R61 to R63, R66) -/

theorem txnBegin_busy {y : Nat × Txn} (ho : s.slotOf h = some y) : s.txnBegin h = (s, rBusy) := by
  unfold txnBegin
  rw [ho]

theorem txnBegin_full (ho : s.slotOf h = none) (hf : s.freeSlot = none) : s.txnBegin h = (s, rNoSlot) := by
  unfold txnBegin
  rw [ho, hf]

theorem txnBegin_opens (ho : s.slotOf h = none) (hf : s.freeSlot = some i) :
    s.txnBegin h = (s.setSlot i (some ⟨h, false, s.sys.seq, []⟩), rOk) := by
  unfold txnBegin
  rw [ho, hf]

theorem txnRollback_open (ho : s.slotOf h = some (i, x)) : s.txnRollback h = (s.setSlot i none, rOk) := by
  unfold txnRollback
  rw [ho]

theorem txnRollback_closed (ho : s.slotOf h = none) : s.txnRollback h = (s, rNoTxn) := by
  unfold txnRollback
  rw [ho]

theorem withdraw_stopped {k : Nat} (hr : s.running = false) : s.withdraw h k = (s, rLate) := by
  unfold withdraw
  rw [hr]
  rfl

theorem withdraw_unknown {k : Nat} (hr : s.running = true) (hf : s.sys.landq.find? (fun c => decide (c.ticket = k)) = none) :
    s.withdraw h k = (s, rNoTxn) := by
  unfold withdraw
  rw [hr, hf]
  rfl

/-- The harbourmaster owns every control master's ticket and no pilot's (R66). -/
theorem ownsTicket_harbourmaster (hp : isPilotMaster h = false) (c : Commit) : ownsTicket h c = !isPilotMaster c.holder := by
  unfold ownsTicket
  rw [hp]
  rfl

/-- Ticket `k` no longer waits to land. -/
def withdrawn (s : State) (k : Nat) : State :=
  { s with sys := { s.sys with landq := s.sys.landq.filter fun d => !decide (d.ticket = k) } }

/-- The harbourmaster's request for a ticket that waits to land: its owner, then its deadline (R66). -/
theorem withdraw_known {k : Nat} {c : Commit} (hp : isPilotMaster h = false) (hr : s.running = true)
    (hf : s.sys.landq.find? (fun c => decide (c.ticket = k)) = some c) :
    s.withdraw h k = if isPilotMaster c.holder then (s, rNotOwner) else if s.deadlinePassed c.target then (s, rLate)
      else (withdrawn s k, rOk) := by
  unfold withdraw
  rw [hr, hf]
  dsimp only
  rw [ownsTicket_harbourmaster hp, Bool.not_not]
  rfl

/-- A value that a commit writes conflicts: a later commit wrote it (R61). -/
def conflicts (s : State) (x : Txn) : Bool :=
  x.writes.any fun w => match s.lastSeq w.key with | some q => seqAfter q x.begin | none => false

theorem conflicts_congr {t : State} (e : t.sys = s.sys) (x : Txn) : conflicts t x = conflicts s x := by
  unfold conflicts
  simp only [lastSeq_congr e]

/-- A docket tells the subscribers the result and the ticket of a commit (R70). -/
def announced (h : Nat) (c : State × Nat × Nat) : State × Nat × Nat := (c.1.post 3 h c.2.1 c.2.2, c.2)

/-- A refused commit: its slot is free (R63). -/
def commitRefused (s : State) (i r : Nat) : State × Nat × Nat := (s.setSlot i none, r, 0)

/-- A commit that enters the landing queue (R63). -/
def commitQueued (s : State) (h i n : Nat) (ws : List TWrite) : State × Nat × Nat :=
  let e := (s.setSlot i none).enterQueue h n ws
  (e.1, rOk, e.2)

/-- The checks of a commit in their order (R62, R63). -/
theorem commit_checks {n target : Nat} {next orLater : Bool} (hp : isPilotMaster h = false) (ho : s.slotOf h = some (i, x))
    (hn : s.commitTarget target next orLater = (n, r)) : s.commit h target next orLater =
      announced h (if x.full then commitRefused s i rFull else if r ≠ rOk then commitRefused s i r
        else if conflicts s x then commitRefused s i rConflict
        else if 16 ≤ s.sys.landq.length then commitRefused s i rQueueFull else commitQueued s h i n x.writes) := by
  have hpost : ∀ (t : State) (a b : Nat), t.postResult h a b = t.post 3 h a b := fun t a b => if_neg (by rw [hp]; decide)
  unfold commit
  rw [ho]
  dsimp only
  rw [hn]
  simp only [hpost]
  rfl

/-- Every value of a commit bears its sequence (R61). -/
theorem get_stampSeq {q k : Nat} : (ws : List TWrite) → (m : SMap Nat) →
    m.get (fun _ => 0) k = q + 1 ∨ (∃ w ∈ ws, w.key = k) → (stampSeq q m ws).get (fun _ => 0) k = q + 1
  | [], m, hk => hk.elim id fun ⟨_, hw, _⟩ => absurd hw List.not_mem_nil
  | a :: ws, m, hk => by
    refine get_stampSeq ws (m.set (fun _ => 0) a.key (q + 1)) ?_
    rw [SMap.get_set]
    split
    · exact .inl rfl
    · next hne =>
      refine hk.imp id ?_
      rintro ⟨w, hw, e⟩
      rcases List.mem_cons.mp hw with rfl | hw
      · exact absurd e.symm hne
      · exact ⟨w, hw, e⟩

/-! ### What a write of SYS_TXN_CTRL leaves for its request to find -/

/-- The transactions, the schedule and the arguments as they stood before the write. -/
structure TxnWritten (s u : State) : Prop where
  sys : u.sys = s.sys
  clock : SameClock s u
  ticket : u.fld Reg.SYS_TXN_TICKET_TICKET = s.fld Reg.SYS_TXN_TICKET_TICKET
  target : u.fld2 Reg.SYS_TXN_TARGET_LO_TIDE_LO Reg.SYS_TXN_TARGET_HI_TIDE_HI =
    s.fld2 Reg.SYS_TXN_TARGET_LO_TIDE_LO Reg.SYS_TXN_TARGET_HI_TIDE_HI
  frame : Frame [.sys] [0x200] s u

theorem Wrote.txnWritten {v : Nat} (hu : Wrote 0x200 v s u) : TxnWritten s u where
  sys := hu.keeps.same .sys rfl
  clock := hu.sameClock (by decide)
  ticket := State.fld_of_word (hu.word _ (by decide +kernel) (by decide))
  target := fld2_of_word (hu.word _ (by decide +kernel) (by decide)) (hu.word _ (by decide +kernel) (by decide))
  frame := Frame.of_wrote_free hu (by decide) (by decide) (by decide +kernel)

theorem txnBegin_written {m : Fin 32} (hm : s.mayWrite m.val 0x200 .plain = true) :
    ∃ u, TxnWritten s u ∧ exec (.txnBegin m) s = .next (txnShow (u.txnBegin m)) :=
  let ⟨_, u, _, hu, e⟩ := write_txnBegin m hm
  ⟨u, hu.txnWritten, (exec_txnBegin m s).trans e⟩

theorem txnRollback_written {m : Fin 32} (hm : s.mayWrite m.val 0x200 .plain = true) :
    ∃ u, TxnWritten s u ∧ exec (.txnRollback m) s = .next (txnShow (u.txnRollback m)) :=
  let ⟨_, u, _, hu, e⟩ := write_txnRollback m hm
  ⟨u, hu.txnWritten, (exec_txnRollback m s).trans e⟩

theorem opWithdraw_written {m : Fin 32} (hm : s.mayWrite m.val 0x200 .plain = true) :
    ∃ u, TxnWritten s u ∧ exec (.opWithdraw m) s = .next (txnShow (u.withdraw m (s.fld Reg.SYS_TXN_TICKET_TICKET))) :=
  let ⟨_, u, _, hu, e⟩ := write_opWithdraw m hm
  ⟨u, hu.txnWritten, by rw [← hu.txnWritten.ticket]; exact (exec_opWithdraw m s).trans e⟩

theorem txnCommit_written {m : Fin 32} (orLater next : Bool) (hm : s.mayWrite m.val 0x200 .plain = true) :
    ∃ u, TxnWritten s u ∧ exec (.txnCommit m orLater next) s =
      let r := u.commit m (s.fld2 Reg.SYS_TXN_TARGET_LO_TIDE_LO Reg.SYS_TXN_TARGET_HI_TIDE_HI) next orLater
      .next (txnShow (r.1, r.2.1)) :=
  let ⟨_, u, _, hu, e⟩ := write_txnCommit m orLater next hm
  ⟨u, hu.txnWritten, by rw [← hu.txnWritten.target]; exact (exec_txnCommit m orLater next s).trans e⟩

/-- A request that only answers with its result. -/
theorem TxnWritten.answers (hu : TxnWritten s u) (r : Nat) :
    (txnShow (u, r)).sys = { s.sys with txnResult := r } ∧ Frame [.sys] [0x200] s (txnShow (u, r)) :=
  ⟨congrArg (fun x : Sys => { x with txnResult := r }) hu.sys, hu.frame.trans (frame_sys _ (by decide))⟩

/-- A request that changes slot `i` alone and answers with its result. -/
theorem TxnWritten.setsSlot (hu : TxnWritten s u) (i r : Nat) (y : Option Txn) :
    (txnShow (u.setSlot i y, r)).slot i = y ∧ (∀ j, j ≠ i → (txnShow (u.setSlot i y, r)).slot j = s.slot j) ∧
    Frame [.sys] [0x200] s (txnShow (u.setSlot i y, r)) :=
  ⟨slot_setSlot_same u i y, fun _ hj => (slot_setSlot_other u y hj).trans (slot_congr hu.sys _),
    (hu.frame.trans (frame_sys _ (by decide))).trans (frame_sys _ (by decide))⟩

/-! ### O21 -/

/-- The half of O21 for TXN_BEGIN (R58, R61). -/
theorem txnBegin_effect {m : Fin 32} (hm : s.mayWrite m.val 0x200 .plain = true) :
    (∀ y, s.slotOf m.val = some y →
      Completes (.txnBegin m) s fun t => t.sys = { s.sys with txnResult := 7 } ∧ Frame [.sys] [0x200] s t) ∧
    (s.slotOf m.val = none → s.freeSlot = none →
      Completes (.txnBegin m) s fun t => t.sys = { s.sys with txnResult := 6 } ∧ Frame [.sys] [0x200] s t) ∧
    (∀ i, s.slotOf m.val = none → s.freeSlot = some i →
      Completes (.txnBegin m) s fun t =>
        t.slot i = some ⟨m.val, false, s.sys.seq, []⟩ ∧ (∀ j, j ≠ i → t.slot j = s.slot j) ∧ t.sys.txnResult = 0 ∧
        t.sys.landq = s.sys.landq ∧ t.sys.owner = s.sys.owner ∧ Frame [.sys] [0x200] s t) := by
  obtain ⟨u, hu, e⟩ := txnBegin_written hm
  have ho := slotOf_congr hu.sys m.val
  have hf := freeSlot_congr hu.sys
  refine ⟨fun y hy => ⟨_, e, ?_⟩, fun hy hn => ⟨_, e, ?_⟩, fun i hy hi => ⟨_, e, ?_⟩⟩
  · rw [txnBegin_busy (ho.trans hy)]
    exact hu.answers rBusy
  · rw [txnBegin_full (ho.trans hy) (hf.trans hn)]
    exact hu.answers rNoSlot
  · rw [txnBegin_opens (ho.trans hy) (hf.trans hi)]
    obtain ⟨hsame, hother, hframe⟩ := hu.setsSlot i rOk (some ⟨m.val, false, u.sys.seq, []⟩)
    exact ⟨hsame.trans (by rw [hu.sys]), hother, rfl, (congrArg Sys.landq hu.sys :), (congrArg Sys.owner hu.sys :), hframe⟩

/-- The half of O21 for TXN_ROLLBACK (R66). -/
theorem txnRollback_effect {m : Fin 32} (hm : s.mayWrite m.val 0x200 .plain = true) :
    (∀ i x, s.slotOf m.val = some (i, x) →
      Completes (.txnRollback m) s fun t =>
        t.slot i = none ∧ (∀ j, j ≠ i → t.slot j = s.slot j) ∧ t.sys.txnResult = 0 ∧ t.sys.landq = s.sys.landq ∧ t.sys.seq = s.sys.seq ∧
        Frame [.sys] [0x200] s t) ∧
    (s.slotOf m.val = none → Completes (.txnRollback m) s fun t => t.sys = { s.sys with txnResult := 8 } ∧ Frame [.sys] [0x200] s t) := by
  obtain ⟨u, hu, e⟩ := txnRollback_written hm
  have ho := slotOf_congr hu.sys m.val
  refine ⟨fun i x hx => ⟨_, e, ?_⟩, fun hx => ⟨_, e, ?_⟩⟩
  · rw [txnRollback_open (ho.trans hx)]
    obtain ⟨hsame, hother, hframe⟩ := hu.setsSlot i rOk none
    exact ⟨hsame, hother, rfl, (congrArg Sys.landq hu.sys :), (congrArg Sys.seq hu.sys :), hframe⟩
  · rw [txnRollback_closed (ho.trans hx)]
    exact hu.answers rNoTxn

/-- A withdrawal for the harbourmaster of a ticket that waits to land (R66). -/
theorem opWithdraw_known {m : Fin 32} {c : Commit} (hm : s.mayWrite m.val 0x200 .plain = true) (hp : isPilotMaster m.val = false)
    (hr : s.running = true) (hf : s.sys.landq.find? (fun c => decide (c.ticket = s.fld Reg.SYS_TXN_TICKET_TICKET)) = some c) :
    (isPilotMaster c.holder = true →
      Completes (.opWithdraw m) s fun t => t.sys = { s.sys with txnResult := 3 } ∧ Frame [.sys] [0x200] s t) ∧
    (isPilotMaster c.holder = false → s.deadlinePassed c.target = true →
      Completes (.opWithdraw m) s fun t => t.sys = { s.sys with txnResult := 11 } ∧ Frame [.sys] [0x200] s t) ∧
    (isPilotMaster c.holder = false → s.deadlinePassed c.target = false →
      Completes (.opWithdraw m) s fun t =>
        t.sys = { s.sys with landq := s.sys.landq.filter (fun d => !decide (d.ticket = c.ticket)), txnResult := 0 } ∧
        Frame [.sys] [0x200] s t) := by
  obtain ⟨u, hu, e⟩ := opWithdraw_written hm
  have hticket : c.ticket = s.fld Reg.SYS_TXN_TICKET_TICKET := by simpa using List.find?_some hf
  rw [withdraw_known hp (hu.clock.running.trans hr) (by rw [hu.sys]; exact hf), hu.clock.deadlinePassed, ← hticket] at e
  refine ⟨fun hc => ⟨_, e, ?_⟩, fun hc hd => ⟨_, e, ?_⟩, fun hc hd => ⟨_, e, ?_⟩⟩
  · rw [if_pos hc]
    exact hu.answers rNotOwner
  · rw [hc, if_neg (by decide), if_pos hd]
    exact hu.answers rLate
  · rw [hc, if_neg (by decide), hd, if_neg (by decide)]
    exact ⟨congrArg (fun x : Sys =>
        { x with landq := x.landq.filter fun d => !decide (d.ticket = c.ticket), txnResult := rOk }) hu.sys,
      (hu.frame.trans (frame_sys _ (by decide))).trans (frame_sys _ (by decide))⟩

/-- The half of O21 for OP_WITHDRAW (R66, R69). -/
theorem opWithdraw_effect {m : Fin 32} (hm : s.mayWrite m.val 0x200 .plain = true) :
    (s.running = false → Completes (.opWithdraw m) s fun t => t.sys = { s.sys with txnResult := 11 } ∧ Frame [.sys] [0x200] s t) ∧
    (s.running = true → s.sys.landq.find? (fun c => decide (c.ticket = s.fld Reg.SYS_TXN_TICKET_TICKET)) = none →
      Completes (.opWithdraw m) s fun t => t.sys = { s.sys with txnResult := 8 } ∧ Frame [.sys] [0x200] s t) := by
  obtain ⟨u, hu, e⟩ := opWithdraw_written hm
  refine ⟨fun hr => ⟨_, e, ?_⟩, fun hr hf => ⟨_, e, ?_⟩⟩
  · rw [withdraw_stopped (hu.clock.running.trans hr)]
    exact hu.answers rLate
  · rw [withdraw_unknown (hu.clock.running.trans hr) (by rw [hu.sys]; exact hf)]
    exact hu.answers rNoTxn

/-- Settles O21, one request at a time. -/
theorem transactionsOpenAndEnd : Obligations.TransactionsOpenAndEnd := by
  unfold Obligations.TransactionsOpenAndEnd
  refine ⟨fun m s hm => txnBegin_effect hm, fun m s hm hp => ?_⟩
  obtain ⟨hopen, hclosed⟩ := txnRollback_effect hm
  obtain ⟨hstopped, hunknown⟩ := opWithdraw_effect hm
  exact ⟨hopen, hclosed, hstopped, hunknown, fun c hr hf => opWithdraw_known hm hp hr hf⟩

/-! ### O22 -/

/-- What a refused commit leaves (R63). -/
theorem TxnWritten.commitRefused (hu : TxnWritten s u) (h i r : Nat) :
    let t := txnShow ((announced h (Machine.commitRefused u i r)).1, r)
    t.sys.txnResult = r ∧ t.slot i = none ∧ t.sys.landq = s.sys.landq ∧ t.sys.seq = s.sys.seq ∧ Frame [.sys] [0x200] s t := by
  have hs : ((u.setSlot i none).post 3 h r 0).sys = (u.setSlot i none).sys := sys_post 3 h r 0
  refine ⟨rfl, (slot_congr hs i).trans (slot_setSlot_same u i none), ?_, ?_, ?_⟩
  · exact (congrArg Sys.landq hs).trans (congrArg Sys.landq hu.sys :)
  · exact (congrArg Sys.seq hs).trans (congrArg Sys.seq hu.sys :)
  · exact ((hu.frame.trans (frame_sys _ (by decide))).trans (Frame.post 3 h r 0)).trans (frame_sys _ (by decide))

/-- What a commit that is queued leaves (R61, R63). -/
theorem TxnWritten.commitQueued (hu : TxnWritten s u) (h i n : Nat) (ws : List TWrite) :
    let t := txnShow ((announced h (Machine.commitQueued u h i n ws)).1, rOk)
    t.sys.seq = (s.sys.seq + 1) % 2 ^ 32 ∧ t.sys.landq = s.sys.landq ++ [⟨(s.sys.seq + 1) % 2 ^ 32, n, h, ws⟩] ∧
    t.slot i = none ∧ (∀ w ∈ ws, t.lastSeq w.key = some ((s.sys.seq + 1) % 2 ^ 32)) ∧ t.sys.txnResult = 0 ∧
    t.sys.owner = s.sys.owner ∧ Frame [.sys] [0x200] s t := by
  have hs : ((((u.setSlot i none).enterQueue h n ws).1).post 3 h rOk ((u.setSlot i none).enterQueue h n ws).2).sys =
      ((u.setSlot i none).enterQueue h n ws).1.sys := sys_post _ _ _ _
  refine ⟨?_, ?_, ?_, fun w hw => ?_, rfl, ?_, ?_⟩
  · exact (congrArg Sys.seq hs).trans (congrArg (fun x : Sys => (x.seq + 1) % 2 ^ 32) hu.sys :)
  · exact (congrArg Sys.landq hs).trans (congrArg (fun x : Sys => x.landq ++ [⟨(x.seq + 1) % 2 ^ 32, n, h, ws⟩]) hu.sys :)
  · exact (slot_congr hs i).trans (slot_setSlot_same u i none)
  · refine (lastSeq_congr hs w.key).trans ?_
    have hq : (((u.setSlot i none).enterQueue h n ws).1).sys.fieldSeq.get (fun _ => 0) w.key = (s.sys.seq + 1) % 2 ^ 32 + 1 := by
      rw [← hu.sys]
      exact get_stampSeq ws _ (.inr ⟨w, hw, rfl⟩)
    unfold lastSeq
    rw [hq]
  · exact (congrArg Sys.owner hs).trans (congrArg Sys.owner hu.sys :)
  · exact (((hu.frame.trans (frame_sys _ (by decide))).trans (frame_sys _ (by decide))).trans (Frame.post _ _ _ _)).trans
      (frame_sys _ (by decide))

/-- Settles O22: the checks of `commit_checks` answer one after the other. -/
theorem txnCommitChecksInOrder : Obligations.TxnCommitChecksInOrder := by
  unfold Obligations.TxnCommitChecksInOrder
  intro m orLater next i x n r s hm hp ho hn
  obtain ⟨u, hu, e⟩ := txnCommit_written orLater next hm
  rw [commit_checks hp ((slotOf_congr hu.sys m.val).trans ho) ((hu.clock.commitTarget _ next orLater).trans hn),
    conflicts_congr hu.sys, hu.sys] at e
  refine ⟨fun hfull hr hc hq => ⟨_, e, ?_⟩, fun c hcode => ⟨_, e, ?_⟩⟩
  · rw [hfull, if_neg (by decide), if_neg (show ¬ r ≠ rOk from not_not.mpr hr), if_neg (Bool.eq_false_iff.mp (show conflicts s x = false from hc)), if_neg (by omega)]
    exact hu.commitQueued m.val i n x.writes
  · rcases hcode with ⟨hfull, rfl⟩ | ⟨hfull, hr, rfl⟩ | ⟨hfull, hr, hc, rfl⟩ | ⟨hfull, hr, hc, hq, rfl⟩
    · rw [if_pos hfull]
      exact hu.commitRefused m.val i rFull
    · rw [hfull, if_neg (by decide), if_pos (show c ≠ rOk from hr)]
      exact hu.commitRefused m.val i c
    · rw [hfull, if_neg (by decide), if_neg (show ¬ r ≠ rOk from not_not.mpr hr), if_pos (show conflicts s x = true from hc)]
      exact hu.commitRefused m.val i rConflict
    · rw [hfull, if_neg (by decide), if_neg (show ¬ r ≠ rOk from not_not.mpr hr), if_neg (Bool.eq_false_iff.mp (show conflicts s x = false from hc)), if_pos hq]
      exact hu.commitRefused m.val i rQueueFull

end Sys2Proof.Machine
end

section
/-! PROOFS. O19: claims are decided by the owner; claims and leases expire. -/

namespace Sys2Proof.Machine

open State

variable {s t u : State} {m r : Nat} {ps : List Part} {as : List Nat}

theorem exec_claim (m : Fin 32) (session : BitVec 8) (s : State) : exec (.claim m session) s = execClaim m session s := rfl

theorem exec_claimTimeout (m : Fin 32) (s : State) : exec (.claimTimeout m) s = .next (s.claimTimeout m) := rfl

theorem exec_leaseExpiry (s : State) : exec .leaseExpiry s = .next s.leaseExpiry := rfl

/-! ### Results and what the ownership registers show (R54) -/

/-- The ownership state that keeps what its registers show until the FCLK cycle ends. -/
def shown (s : State) : Sys := s.keepShown.sys

theorem keepShown_eq : s.keepShown = { s with sys := shown s } := by
  unfold shown keepShown
  split <;> rfl

/-- What a change of the shown values alone leaves of the ownership and transaction state. -/
structure SameOwnership (x y : Sys) : Prop where
  owner : y.owner = x.owner
  leaseEnd : y.leaseEnd = x.leaseEnd
  handover : y.handover = x.handover
  waits : y.waits = x.waits
  results : y.results = x.results
  slots : y.slots = x.slots

theorem sameOwnership_shown : SameOwnership s.sys (shown s) := by
  unfold shown keepShown
  split <;> exact ⟨rfl, rfl, rfl, rfl, rfl, rfl⟩

theorem ownResult_eq : s.ownResult m r =
    { s with sys := { shown s with results := (shown s).results.set (fun _ => 0) m r } } := by
  unfold ownResult
  rw [keepShown_eq]

theorem frame_ownResult (hp : Part.sys ∈ ps) : Frame ps as s (s.ownResult m r) := by
  rw [ownResult_eq]
  exact frame_sys _ hp

theorem results_ownResult (j : Nat) : (s.ownResult m r).sys.results.get (fun _ => 0) j =
    if j = m then r else s.sys.results.get (fun _ => 0) j := by
  rw [ownResult_eq]
  refine (SMap.get_set (fun _ => 0) (shown s).results m j r).trans ?_
  rw [sameOwnership_shown.results]

theorem result_ownResult (s : State) (m r : Nat) : (s.ownResult m r).sys.results.get (fun _ => 0) m = r :=
  (results_ownResult m).trans (if_pos rfl)

@[simp] theorem owner_ownResult : (s.ownResult m r).sys.owner = s.sys.owner := by
  rw [ownResult_eq]
  exact sameOwnership_shown.owner

@[simp] theorem leaseEnd_ownResult : (s.ownResult m r).sys.leaseEnd = s.sys.leaseEnd := by
  rw [ownResult_eq]
  exact sameOwnership_shown.leaseEnd

@[simp] theorem handover_ownResult : (s.ownResult m r).sys.handover = s.sys.handover := by
  rw [ownResult_eq]
  exact sameOwnership_shown.handover

@[simp] theorem waits_ownResult : (s.ownResult m r).sys.waits = s.sys.waits := by
  rw [ownResult_eq]
  exact sameOwnership_shown.waits

@[simp] theorem slots_ownResult : (s.ownResult m r).sys.slots = s.sys.slots := by
  rw [ownResult_eq]
  exact sameOwnership_shown.slots

@[simp] theorem now_ownResult : (s.ownResult m r).now = s.now := by rw [ownResult_eq]

@[simp] theorem word_ownResult (x : Nat) : (s.ownResult m r).word x = s.word x := by
  rw [ownResult_eq]
  rfl

/-! ### Ownership leaves its holder (R40, R57) -/

theorem frame_releaseTable {v h : Nat} (hp : Part.fab ∈ ps) (he : 0x60000 ∈ as) (hf : 0x60128 ∈ as) (hn : 0x6012C ∈ as) :
    Frame ps as s (s.releaseTable v h) := by
  by_cases hr : h = 0 ∨ (s.berth h).st = .free ∨ (s.berth h).count = 0
  · rw [releaseTable_refused hr]
    exact frame_berthFault he hf hn
  · push Not at hr
    rw [releaseTable_counted hr.1 hr.2.1 (Nat.pos_of_ne_zero hr.2.2)]
    exact frame_withoutRef hp

/-- The words of FAB in which a release of the aperture's berth shows. -/
def apertureWords : List Nat := [0x60000, 0x60128, 0x6012C, 0x60200]

theorem frame_dropAperture : Frame [.fab] apertureWords s s.dropAperture := by
  unfold dropAperture
  dsimp only
  split
  · exact Frame.refl
  · exact (frame_releaseTable (by decide) (by decide) (by decide) (by decide)).trans (Frame.setFld _ _ (by decide))

theorem sys_dropAperture : s.dropAperture.sys = s.sys := frame_dropAperture.1 .sys (by decide)

theorem apertureHandle_dropAperture : s.dropAperture.fld Reg.FAB_AP_HANDLE_HANDLE = 0 := by
  unfold dropAperture
  dsimp only
  split
  · assumption
  · exact State.fld_setFld_same _ _ _ (by decide) (by decide)

/-- The open transaction of the owner is gone (R57). -/
def ownerRolledBack (s : State) : State :=
  match s.slotOf s.sys.owner with
  | some (i, _) => let s := s.setSlot i none; { s with sys := { s.sys with txnResult := rRolledBack } }
  | none => s

theorem ownerRolledBack_slots : ∃ y : Sys, ownerRolledBack s = { s with sys := y } ∧
    { y with slots := s.sys.slots, txnResult := s.sys.txnResult } = s.sys ∧
    ∀ i x, s.slotOf s.sys.owner = some (i, x) → y.slots.get (fun _ => none) i = none := by
  unfold ownerRolledBack
  split
  · next i x e =>
    refine ⟨_, rfl, rfl, fun j y h => ?_⟩
    rw [e] at h
    cases h
    exact slot_setSlot_same s i none
  · next e => exact ⟨s.sys, rfl, rfl, fun j y h => by rw [e] at h; cases h⟩

theorem leaveOwner_unowned (ho : s.sys.owner = 0) : s.leaveOwner = { s with sys := shown s } := by
  unfold leaveOwner
  rw [keepShown_eq]
  exact if_pos (sameOwnership_shown.owner.trans ho)

theorem leaveOwner_owned (ho : s.sys.owner ≠ 0) : s.leaveOwner =
    let t := (ownerRolledBack { s with sys := shown s }).dropAperture
    { t with sys := { t.sys with owner := 0 } } := by
  unfold leaveOwner
  rw [keepShown_eq]
  exact if_neg fun e => ho (sameOwnership_shown.owner.symm.trans e)

/-- What the loss of ownership keeps: all but the owner, its transaction and the aperture. -/
structure Left (s t : State) : Prop where
  frame : Frame [.sys, .fab] apertureWords s t
  owner : t.sys.owner = 0
  leaseEnd : t.sys.leaseEnd = s.sys.leaseEnd
  handover : t.sys.handover = s.sys.handover
  waits : t.sys.waits = s.sys.waits
  results : t.sys.results = s.sys.results

theorem left_leaveOwner : Left s s.leaveOwner := by
  have hs := sameOwnership_shown (s := s)
  by_cases ho : s.sys.owner = 0
  · rw [leaveOwner_unowned ho]
    exact ⟨frame_sys _ (by decide), hs.owner.trans ho, hs.leaseEnd, hs.handover, hs.waits, hs.results⟩
  · obtain ⟨y, ey, hy, -⟩ := ownerRolledBack_slots (s := { s with sys := shown s })
    rw [leaveOwner_owned ho, ey]
    have hd := sys_dropAperture (s := { s with sys := y })
    have hf := frame_dropAperture (s := { s with sys := y })
    refine ⟨?_, rfl, ?_, ?_, ?_, ?_⟩
    · exact ((frame_sys y (by decide)).trans (hf.mono (by decide) fun _ h => h)).trans (frame_sys _ (by decide))
    · exact (congrArg Sys.leaseEnd hd).trans ((congrArg Sys.leaseEnd hy).trans hs.leaseEnd)
    · exact (congrArg Sys.handover hd).trans ((congrArg Sys.handover hy).trans hs.handover)
    · exact (congrArg Sys.waits hd).trans ((congrArg Sys.waits hy).trans hs.waits)
    · exact (congrArg Sys.results hd).trans ((congrArg Sys.results hy).trans hs.results)

/-- The former owner's transaction is rolled back and the aperture names no berth (R40, R57). -/
theorem leaveOwner_drops (ho : s.sys.owner ≠ 0) : s.leaveOwner.fld Reg.FAB_AP_HANDLE_HANDLE = 0 ∧
    ∀ i x, s.slotOf s.sys.owner = some (i, x) → s.leaveOwner.slot i = none := by
  have hs := sameOwnership_shown (s := s)
  obtain ⟨y, ey, -, hslot⟩ := ownerRolledBack_slots (s := { s with sys := shown s })
  have hopen : ({ s with sys := shown s } : State).slotOf (shown s).owner = s.slotOf s.sys.owner := by
    rw [hs.owner]
    unfold slotOf slot
    simp only [hs.slots]
  rw [leaveOwner_owned ho, ey]
  refine ⟨apertureHandle_dropAperture, fun i x hx => ?_⟩
  have hd : ({ s with sys := y } : State).dropAperture.sys.slots = y.slots := congrArg Sys.slots sys_dropAperture
  exact (congrArg (fun l => SMap.get (fun _ => none) l i) hd).trans (hslot i x (hopen.trans hx))

theorem frame_leaveOwner_unowned (ho : s.sys.owner = 0) (hp : Part.sys ∈ ps) : Frame ps as s s.leaveOwner := by
  rw [leaveOwner_unowned ho]
  exact frame_sys _ hp

/-! ### A master takes ownership (R57) -/

/-- The lease and the waits of a new owner `m`, as yet without a trace. -/
def installed (s : State) (m : Nat) : State :=
  { s with sys := { s.sys with
      owner := m, leaseEnd := s.now + s.leaseCycles, handover := 0,
      waits := s.sys.waits.filter fun w => !decide (w.master = m) } }

/-- OWNER_CHANGE and its NOTE (R57). -/
def ownerChanged (s : State) (m : Nat) : State := (s.raise 0x130 0x134 51 2).note m 1 0 0

theorem takeOwnership_eq : s.takeOwnership m = (ownerChanged (installed s.leaveOwner m) m).ownResult m rOk := rfl

theorem sys_raise (a en src b sh : Nat) : (s.raise a en src b sh).sys = s.sys :=
  (keeps_raise (L := 17288) a en src b sh Keeps.refl rfl).same .sys rfl

theorem sys_note (src code a b : Nat) : (s.note src code a b).sys = s.sys :=
  (keeps_note (L := 148360) src code a b Keeps.refl rfl).same .sys rfl

theorem sys_ownerChanged : (ownerChanged s m).sys = s.sys := (sys_note _ _ _ _).trans (sys_raise _ _ _ _ _)

theorem frame_ownerChanged (ha : 0x130 ∈ as) : Frame ps as s (ownerChanged s m) :=
  (Frame.raise _ _ _ _ _ ha (by decide) (by decide)).trans (Frame.note _ _ _ _)

theorem event_ownerChanged : (ownerChanged s m).flag Reg.SYS_EVENT_OWNER_CHANGE = true :=
  (flag_of_fld (State.fld_note _ _ _ _ (by decide))).trans
    (State.flag_raise (f := Reg.SYS_EVENT_OWNER_CHANGE) 0x134 51 2 0 (by decide) rfl (by decide) (by decide))

theorem leaseCycles_of_frame (hf : Frame ps as s t) (ha : 0x10C ∉ as) : t.leaseCycles = 2000000 * s.fld Reg.SYS_OWN_CFG_LEASE_MS := by
  unfold leaseCycles msCycles
  rw [State.fld_of_word (f := Reg.SYS_OWN_CFG_LEASE_MS) (hf.2.1 _ (by decide) ha), Nat.mul_comm]

/-- What the new owner `m` finds. -/
structure Taken (s t : State) (m : Nat) : Prop where
  owner : t.sys.owner = m
  handover : t.sys.handover = 0
  waits : t.sys.waits = s.sys.waits.filter fun w => !decide (w.master = m)
  results : ∀ j, t.sys.results.get (fun _ => 0) j = if j = m then 0 else s.sys.results.get (fun _ => 0) j
  leaseEnd : t.sys.leaseEnd = s.now + 2000000 * s.fld Reg.SYS_OWN_CFG_LEASE_MS
  event : t.flag Reg.SYS_EVENT_OWNER_CHANGE = true

theorem taken_takeOwnership : Taken s (s.takeOwnership m) m := by
  have hl := left_leaveOwner (s := s)
  have hc := sys_ownerChanged (s := installed s.leaveOwner m) (m := m)
  rw [takeOwnership_eq]
  refine ⟨?_, ?_, ?_, fun j => ?_, ?_, ?_⟩
  · rw [owner_ownResult, hc]
    rfl
  · rw [handover_ownResult, hc]
    rfl
  · rw [waits_ownResult, hc]
    exact congrArg (List.filter _) hl.waits
  · rw [results_ownResult, hc]
    exact congrArg (fun l => if j = m then rOk else SMap.get (fun _ => 0) l j) hl.results
  · rw [leaseEnd_ownResult, hc]
    exact congrArg₂ (· + ·) (hl.frame.1 .now (by decide)) (leaseCycles_of_frame hl.frame (by decide))
  · exact (flag_of_fld (State.fld_of_word (word_ownResult _))).trans event_ownerChanged

theorem frame_takeOwnership_unowned (ho : s.sys.owner = 0) (hp : Part.sys ∈ ps) (ha : 0x130 ∈ as) : Frame ps as s (s.takeOwnership m) := by
  rw [takeOwnership_eq]
  exact (((frame_leaveOwner_unowned ho hp).trans (frame_sys _ hp)).trans (frame_ownerChanged ha)).trans (frame_ownResult hp)

/-- The former owner's transaction and the aperture, when `m` takes over (R40, R57). -/
theorem takeOwnership_drops (ho : s.sys.owner ≠ 0) : (s.takeOwnership m).fld Reg.FAB_AP_HANDLE_HANDLE = 0 ∧
    ∀ i x, s.slotOf s.sys.owner = some (i, x) → (s.takeOwnership m).slot i = none := by
  obtain ⟨hap, hslot⟩ := leaveOwner_drops ho
  have hc := sys_ownerChanged (s := installed s.leaveOwner m) (m := m)
  rw [takeOwnership_eq]
  refine ⟨?_, fun i x hx => ?_⟩
  · rw [State.fld_of_word (word_ownResult _)]
    exact (State.fld_of_word ((frame_ownerChanged (ps := []) (as := [0x130]) (by decide)).2.1 _ (by decide) (by decide))).trans hap
  · unfold slot
    rw [slots_ownResult, hc]
    exact hslot i x hx

/-! ### A claim that waits (R53) -/

/-- The waits with a new one of master `m`. -/
def waitsWith (s : State) (m : Nat) : List Claim :=
  (s.sys.waits.filter fun w => !decide (w.master = m)) ++ [⟨m, s.now, s.now + 2000000 * s.fld Reg.SYS_OWN_CFG_WAIT_MS⟩]

theorem enqueueWait_eq : s.enqueueWait m = { s with sys := { shown s with waits := waitsWith s m } } := by
  have hw : (shown s).waits = s.sys.waits := sameOwnership_shown.waits
  unfold enqueueWait waitsWith
  rw [keepShown_eq, Nat.mul_comm 2000000]
  dsimp only
  rw [hw]
  rfl

/-! ### What a write of SYS_OWN_CTRL leaves for its request to find -/

/-- The ownership state and what decides a claim, as they stood before the write. -/
structure ClaimWritten (s u : State) : Prop where
  sys : u.sys = s.sys
  now : u.now = s.now
  valid : ∀ m i, u.sessionValid m i = s.sessionValid m i
  waitTime : u.fld Reg.SYS_OWN_CFG_WAIT_MS = s.fld Reg.SYS_OWN_CFG_WAIT_MS
  leaseTime : u.fld Reg.SYS_OWN_CFG_LEASE_MS = s.fld Reg.SYS_OWN_CFG_LEASE_MS
  frame : Frame [.sys] [0x104] s u

theorem quiet_session : ∀ i, i < 8 → quiet (Reg.SEC_SESS_STATE i).addr = true ∧ (Reg.SEC_SESS_STATE i).addr ≠ 0x104 := by
  decide +kernel

/-- The validity of a session is read off SEC's words alone (R416). -/
theorem sessionValid_congr (hs : ∀ i, i < 8 → u.word (0x40300 + 4 * i) = s.word (0x40300 + 4 * i)) (hr : u.word 0x40014 = s.word 0x40014)
    (m i : Nat) : u.sessionValid m i = s.sessionValid m i := by
  unfold sessionValid
  split
  · next hi =>
    rw [State.fld_of_word (f := Reg.SEC_SESS_STATE i) (hs i hi),
      flag_of_fld (State.fld_of_word (f := Reg.SEC_SESS_CLAIM i) (hs i hi))]
  · rw [flag_of_fld (State.fld_of_word (f := Reg.SEC_STATUS_READY) hr), State.fld_of_word (f := Reg.SEC_STATUS_POLICY) hr]

theorem Wrote.claimWritten {v : Nat} (hu : Wrote 0x104 v s u) : ClaimWritten s u where
  sys := hu.keeps.same .sys rfl
  now := hu.keeps.same .now rfl
  valid := sessionValid_congr (fun i hi => hu.word _ (quiet_session i hi).1 (quiet_session i hi).2) (hu.word _ (by decide +kernel) (by decide))
  waitTime := State.fld_of_word (hu.word _ (by decide +kernel) (by decide))
  leaseTime := State.fld_of_word (hu.word _ (by decide +kernel) (by decide))
  frame := Frame.of_wrote_free hu (by decide) (by decide) (by decide +kernel)

theorem mayWrite_ownCtrl (hc : isControlMaster m = true) : s.mayWrite m 0x104 .plain = true := by
  unfold mayWrite
  rw [if_pos rfl, hc, Bool.or_true]

theorem claim_written {m : Fin 32} {session : BitVec 8} (hc : isControlMaster m.val = true) :
    ∃ u, ClaimWritten s u ∧ exec (.claim m session) s = .next (u.claim m session.toNat) :=
  let ⟨_, u, _, hu, e⟩ := write_claim m session (mayWrite_ownCtrl hc)
  ⟨u, hu.claimWritten, (exec_claim m session s).trans e⟩

/-! ### The decision of a claim (R51, R52, R54, R56) -/

variable {i : Nat}

theorem claim_invalid (hv : s.sessionValid m i = false) : s.claim m i = s.ownResult m rAuthFail := by
  unfold claim
  rw [hv]
  rfl

/-- The lease ends at `e`: `e` is a parameter so that the kernel never compares a lease that ends with one that ends elsewhere. -/
def withLease (s : State) (e : Nat) : State := { s with sys := { s.sys with leaseEnd := e } }

theorem results_withLease (e : Nat) : (withLease s e).sys.results = s.sys.results := rfl

theorem owner_withLease (e : Nat) : (withLease s e).sys.owner = s.sys.owner := rfl

theorem waits_withLease (e : Nat) : (withLease s e).sys.waits = s.sys.waits := rfl

theorem leaseEnd_withLease (e : Nat) : (withLease s e).sys.leaseEnd = e := rfl

theorem frame_withLease (e : Nat) (hp : Part.sys ∈ ps) : Frame ps as s (withLease s e) := frame_sys _ hp

theorem claim_owner (hv : s.sessionValid m i = true) (ho : s.sys.owner = m) :
    s.claim m i = withLease (s.ownResult m rOk) ((s.ownResult m rOk).now + (s.ownResult m rOk).leaseCycles) := by
  unfold claim
  rw [hv, if_neg (by decide), if_pos ho]
  rfl

theorem claim_unowned (hv : s.sessionValid m i = true) (ho : s.sys.owner ≠ m) (h0 : s.sys.owner = 0) : s.claim m i =
    let t := s.takeOwnership m
    { t with sys := { t.sys with wonAt := t.now + 1 } } := by
  unfold claim
  rw [hv, if_neg (by decide), if_neg ho, if_pos h0]

/-- Against an owner that has not just won. -/
theorem claim_owned (hv : s.sessionValid m i = true) (ho : s.sys.owner ≠ m) (h0 : s.sys.owner ≠ 0) (hw : s.sys.wonAt ≠ s.now + 1) :
    s.claim m i = if s.sys.handover = m then (s.takeOwnership m).ownResult s.sys.owner rOk else (s.enqueueWait m).ownResult m rWaiting := by
  unfold claim
  rw [hv, if_neg (by decide), if_neg ho, if_neg h0, if_neg fun h => hw h.1]

theorem control_ne_zero (hc : isControlMaster m = true) : m ≠ 0 := by
  rintro rfl
  exact absurd hc (by decide)

section
variable {m : Fin 32} {session : BitVec 8} (hc : isControlMaster m.val = true)
include hc

/-- A claim with an invalid session (R51). -/
theorem claim_refused (hv : s.sessionValid m.val session.toNat = false) :
    Completes (.claim m session) s fun t =>
      t.sys.results.get (fun _ => 0) m.val = 2 ∧ t.sys.owner = s.sys.owner ∧ t.sys.waits = s.sys.waits ∧
      t.sys.leaseEnd = s.sys.leaseEnd ∧ Frame [.sys] [0x104] s t := by
  obtain ⟨u, hu, e⟩ := claim_written (s := s) (session := session) hc
  rw [← hu.valid] at hv
  rw [claim_invalid hv] at e
  rw [← hu.sys]
  exact ⟨_, e, result_ownResult u m.val rAuthFail, owner_ownResult, waits_ownResult, leaseEnd_ownResult,
    hu.frame.trans (frame_ownResult (by decide))⟩

/-- The owner's own claim (R51, R55). -/
theorem claim_renews (hv : s.sessionValid m.val session.toNat = true) (ho : s.sys.owner = m.val) :
    Completes (.claim m session) s fun t =>
      t.sys.results.get (fun _ => 0) m.val = 0 ∧ t.sys.owner = m.val ∧
      t.sys.leaseEnd = s.now + 2000000 * s.fld Reg.SYS_OWN_CFG_LEASE_MS ∧ t.sys.waits = s.sys.waits ∧ Frame [.sys] [0x104] s t := by
  obtain ⟨u, hu, e⟩ := claim_written (s := s) (session := session) hc
  rw [← hu.valid] at hv
  rw [← hu.sys] at ho ⊢
  have hf : Frame [.sys] [0x104] s (u.ownResult m.val rOk) := hu.frame.trans (frame_ownResult (by decide))
  rw [claim_owner hv ho, hf.1 .now (by decide), leaseCycles_of_frame hf (by decide)] at e
  refine ⟨_, e, ?_, ?_, leaseEnd_withLease _, ?_, hf.trans (frame_withLease _ (by decide))⟩
  · rw [results_withLease]
    exact result_ownResult u m.val rOk
  · rw [owner_withLease, owner_ownResult, ho]
  · rw [waits_withLease, waits_ownResult]

/-- A claim while no master owns Daxma (R51, R57). -/
theorem claim_wins (hv : s.sessionValid m.val session.toNat = true) (ho : s.sys.owner = 0) :
    Completes (.claim m session) s fun t =>
      t.sys.results.get (fun _ => 0) m.val = 0 ∧ t.sys.owner = m.val ∧
      t.sys.leaseEnd = s.now + 2000000 * s.fld Reg.SYS_OWN_CFG_LEASE_MS ∧ t.sys.handover = 0 ∧
      t.sys.waits = s.sys.waits.filter (fun w => !decide (w.master = m.val)) ∧ t.flag Reg.SYS_EVENT_OWNER_CHANGE = true ∧
      Frame [.sys] [0x104, 0x130] s t := by
  obtain ⟨u, hu, e⟩ := claim_written (s := s) (session := session) hc
  rw [← hu.valid] at hv
  rw [← hu.sys] at ho ⊢
  rw [claim_unowned hv (by rw [ho]; exact (control_ne_zero hc).symm) ho] at e
  have ht := taken_takeOwnership (s := u) (m := m.val)
  have hlease := ht.leaseEnd
  rw [hu.now, hu.leaseTime] at hlease
  exact ⟨_, e, (ht.results m.val).trans (if_pos rfl), ht.owner, hlease, ht.handover, ht.waits, ht.event,
    ((hu.frame.mono (fun _ h => h) (by decide)).trans (frame_takeOwnership_unowned ho (by decide) (by decide))).trans
      (frame_sys _ (by decide))⟩

/-- A claim against another owner, not of the target of its handover (R52, R53). -/
theorem claim_waits (hv : s.sessionValid m.val session.toNat = true) (hm : s.sys.owner ≠ m.val) (ho : s.sys.owner ≠ 0)
    (hw : s.sys.wonAt ≠ s.now + 1) (hh : s.sys.handover ≠ m.val) :
    Completes (.claim m session) s fun t =>
      t.sys.results.get (fun _ => 0) m.val = 1 ∧ t.sys.owner = s.sys.owner ∧ t.sys.waits = waitsWith s m.val ∧
      Frame [.sys] [0x104] s t := by
  obtain ⟨u, hu, e⟩ := claim_written (s := s) (session := session) hc
  have hwaits : waitsWith u m.val = waitsWith s m.val := by
    unfold waitsWith
    rw [hu.sys, hu.now, hu.waitTime]
  rw [← hu.valid] at hv
  rw [← hu.sys] at hm ho hw hh ⊢
  rw [← hu.now] at hw
  rw [claim_owned hv hm ho hw, if_neg hh, enqueueWait_eq, hwaits] at e
  exact ⟨_, e, result_ownResult _ m.val rWaiting, owner_ownResult.trans sameOwnership_shown.owner, waits_ownResult,
    (hu.frame.trans (frame_sys _ (by decide))).trans (frame_ownResult (by decide))⟩

/-- A claim of the target of the owner's handover (R56, R57). -/
theorem claim_inherits (hv : s.sessionValid m.val session.toNat = true) (hm : s.sys.owner ≠ m.val) (ho : s.sys.owner ≠ 0)
    (hw : s.sys.wonAt ≠ s.now + 1) (hh : s.sys.handover = m.val) :
    Completes (.claim m session) s fun t =>
      t.sys.owner = m.val ∧ t.sys.results.get (fun _ => 0) m.val = 0 ∧ t.sys.results.get (fun _ => 0) s.sys.owner = 0 ∧ t.sys.handover = 0 ∧
      (∀ i x, s.slotOf s.sys.owner = some (i, x) → t.slot i = none) ∧ t.fld Reg.FAB_AP_HANDLE_HANDLE = 0 := by
  obtain ⟨u, hu, e⟩ := claim_written (s := s) (session := session) hc
  rw [← hu.valid] at hv
  rw [← hu.sys] at hm ho hw hh ⊢
  rw [← hu.now] at hw
  rw [claim_owned hv hm ho hw, if_pos hh] at e
  have ht := taken_takeOwnership (s := u) (m := m.val)
  obtain ⟨hap, hslot⟩ := takeOwnership_drops (m := m.val) ho
  refine ⟨_, e, owner_ownResult.trans ht.owner, ?_, result_ownResult _ _ rOk, handover_ownResult.trans ht.handover,
    fun j x hx => ?_, (State.fld_of_word (word_ownResult _)).trans hap⟩
  · rw [results_ownResult, if_neg (Ne.symm hm), ht.results, if_pos rfl]
  · unfold slot
    rw [slots_ownResult]
    exact hslot j x ((slotOf_congr hu.sys _).trans hx)

end

/-! ### Expiry (R53, R55) -/

/-- The half of O19 for the claims that wait (R53). -/
theorem claimTimeout_effect (m : Fin 32) (s : State) :
    ((∃ w ∈ s.sys.waits, w.master = m.val ∧ w.deadline ≤ s.now) →
      Completes (.claimTimeout m) s fun t =>
        t.sys.results.get (fun _ => 0) m.val = 4 ∧ t.sys.waits = s.sys.waits.filter (fun w => !decide (w.master = m.val)) ∧
        t.sys.owner = s.sys.owner ∧ Frame [.sys] [] s t) ∧
    ((∀ w ∈ s.sys.waits, w.master = m.val → s.now < w.deadline) → exec (.claimTimeout m) s = .next s) := by
  have hany : (s.sys.waits.any fun (w : Claim) => decide (w.master = m.val) && decide (w.deadline ≤ s.now)) = true ↔
      ∃ w ∈ s.sys.waits, w.master = m.val ∧ w.deadline ≤ s.now := by
    simp only [List.any_eq_true, Bool.and_eq_true, decide_eq_true_eq]
  refine ⟨fun hw => ⟨_, exec_claimTimeout m s, ?_⟩, fun hw => (exec_claimTimeout m s).trans (congrArg _ ?_)⟩
  · unfold claimTimeout
    rw [if_pos (hany.mpr hw)]
    exact ⟨result_ownResult s m.val rClaimTimeout, congrArg (List.filter _) waits_ownResult,
      owner_ownResult (m := m.val) (r := rClaimTimeout),
      (frame_ownResult (by decide)).trans (frame_sys _ (by decide))⟩
  · refine if_neg (mt hany.mp ?_)
    rintro ⟨w, hmem, hm, hd⟩
    exact absurd (hw w hmem hm) (by omega)

theorem flag_eq_testBit {f : Fld} (hb : f.hi = f.lo) : s.flag f = (s.word f.addr).toNat.testBit f.lo := by
  rw [Bool.eq_iff_iff]
  simp [flag, fld, bits, hb]

/-- An event bit that was set stays set while others occur. -/
theorem flag_raise_kept {f : Fld} (a en src b sh : Nat) (hc : calm f.addr = true) (hb : f.hi = f.lo)
    (h : s.flag f = true) : (s.raise a en src b sh).flag f = true := by
  by_cases ha : f.addr = a
  · subst ha
    rw [flag_eq_testBit hb] at h ⊢
    rw [State.word_raise _ _ _ _ _ hc, if_pos rfl, BitVec.toNat_or, Nat.testBit_or, h, Bool.true_or]
  · exact (flag_of_fld (State.fld_raise _ _ _ _ _ hc ha)).trans h

/-- A pending handover lapses with its result (R56). -/
def handoverLapsed (s : State) : State := if s.sys.handover = 0 then s else s.ownResult s.sys.owner rHandoverLapsed

/-- LAPSE and its NOTE (R55). -/
def lapseNoted (s : State) (o : Nat) : State := (s.raise 0x130 0x134 51 4).note o 2 0 0

theorem lapse_eq : s.lapse = (lapseNoted (handoverLapsed s) s.sys.owner).vacate := rfl

theorem vacate_alone (hw : s.leaveOwner.sys.waits = []) : s.vacate =
    ({ s.leaveOwner with sys := { s.leaveOwner.sys with handover := 0, leaseEnd := 0 } } : State).raise 0x130 0x134 51 2 := by
  unfold vacate
  dsimp only
  rw [hw]
  rfl

theorem sys_lapseNoted (o : Nat) : (lapseNoted s o).sys = s.sys := (sys_note _ _ _ _).trans (sys_raise _ _ _ _ _)

theorem event_lapseNoted (o : Nat) : (lapseNoted s o).flag Reg.SYS_EVENT_LAPSE = true :=
  (flag_of_fld (State.fld_note _ _ _ _ (by decide))).trans
    (State.flag_raise (f := Reg.SYS_EVENT_LAPSE) 0x134 51 4 0 (by decide) rfl (by decide) (by decide))

theorem waits_handoverLapsed : (handoverLapsed s).sys.waits = s.sys.waits := by
  unfold handoverLapsed
  split
  · rfl
  · exact waits_ownResult

/-- The half of O19 for the lease, where no claim waits (R55, R56). -/
theorem leaseExpiry_effect (s : State) :
    (s.sys.owner ≠ 0 → s.sys.leaseEnd ≤ s.now → s.sys.waits = [] →
      Completes .leaseExpiry s fun t =>
        t.sys.owner = 0 ∧ t.sys.handover = 0 ∧ t.flag Reg.SYS_EVENT_LAPSE = true ∧
        (s.sys.handover ≠ 0 → t.sys.results.get (fun _ => 0) s.sys.owner = 5)) ∧
    (s.sys.owner = 0 ∨ s.now < s.sys.leaseEnd → exec .leaseExpiry s = .next s) := by
  refine ⟨fun ho hl hw => ⟨_, exec_leaseExpiry s, ?_⟩, fun h => (exec_leaseExpiry s).trans (congrArg _ ?_)⟩
  · have hv := left_leaveOwner (s := lapseNoted (handoverLapsed s) s.sys.owner)
    have hn := sys_lapseNoted (s := handoverLapsed s) s.sys.owner
    have hwaits : (lapseNoted (handoverLapsed s) s.sys.owner).leaveOwner.sys.waits = [] := by
      rw [hv.waits, hn, waits_handoverLapsed, hw]
    unfold leaseExpiry
    rw [if_pos ⟨ho, hl⟩, lapse_eq, vacate_alone hwaits]
    refine ⟨?_, ?_, ?_, fun hh => ?_⟩
    · rw [sys_raise]
      exact hv.owner
    · rw [sys_raise]
    · refine flag_raise_kept _ _ _ _ _ (by decide) rfl ?_
      exact (flag_of_fld (State.fld_of_word (hv.frame.2.1 _ (by decide) (by decide)))).trans (event_lapseNoted _)
    · rw [sys_raise]
      refine (congrArg (SMap.get (fun _ => 0) · s.sys.owner) (hv.results.trans (congrArg Sys.results hn))).trans ?_
      unfold handoverLapsed
      rw [if_neg hh]
      exact result_ownResult s _ rHandoverLapsed
  · unfold leaseExpiry
    exact if_neg (by omega)

/-- Settles O19: the decision of a claim, its expiry and the lease's. -/
theorem claimsAreDecidedAndExpire : Obligations.ClaimsAreDecidedAndExpire := by
  unfold Obligations.ClaimsAreDecidedAndExpire
  exact ⟨fun m session s hc => ⟨claim_refused hc, claim_renews hc, claim_wins hc, claim_waits hc, claim_inherits hc⟩,
    claimTimeout_effect, leaseExpiry_effect⟩

end Sys2Proof.Machine
end

section
/-! PROOFS. R88, R90: a docket that is posted reaches every pilot that takes its kind and has room, and event bits that occur before it leave that room. -/

namespace Sys2Proof.Machine

open State

variable {s t u : State} {d : Docket} {j k kind src sub payload : Nat}

theorem now_enqueue : (s.enqueue k kind src sub payload).now = s.now :=
  (keeps_enqueue (L := 16648) k kind src sub payload Keeps.refl rfl).same .now rfl

/-- A docket for another pilot leaves a pilot as it is. -/
theorem pilot_enqueue_other (h : j ≠ k) : (s.enqueue k kind src sub payload).pilot j = s.pilot j := by
  unfold enqueue
  dsimp only
  split
  · split
    · exact pilot_setPilot_other _ _ h
    · exact pilot_setPilot_other s _ h
  · rfl

/-- What a queue held stays in it while a docket arrives. -/
theorem arrivals_enqueue (h : d ∈ (s.pilot j).arrivals) : d ∈ ((s.enqueue k kind src sub payload).pilot j).arrivals := by
  by_cases hj : j = k
  · subst hj
    unfold enqueue
    dsimp only
    split
    · split
      · rw [pilot_setPilot_same]
        exact List.mem_append_left _ h
      · show d ∈ ((s.setPilot j { s.pilot j with drops := (s.pilot j).drops + 1 }).pilot j).arrivals
        rw [pilot_setPilot_same]
        exact h
    · exact h
  · rw [pilot_enqueue_other hj]
    exact h

/-- A queue grows by one docket at most. -/
theorem queued_enqueue : queued ((s.enqueue k kind src sub payload).pilot j) ≤ queued (s.pilot j) + 1 := by
  by_cases hj : j = k
  · subst hj
    unfold enqueue
    dsimp only
    split
    · split
      · rw [pilot_setPilot_same]
        simp only [queued, List.length_append, List.length_singleton]
        omega
      · show queued ((s.setPilot j { s.pilot j with drops := (s.pilot j).drops + 1 }).pilot j) ≤ _
        rw [pilot_setPilot_same]
        exact Nat.le_succ _
    · exact Nat.le_succ _
  · rw [pilot_enqueue_other hj]
    exact Nat.le_succ _

/-- A pilot with room takes the docket (R88). -/
theorem mem_enqueue (hs : (s.pilot j).st = .loaded ∨ (s.pilot j).st = .running ∨ (s.pilot j).st = .waiting)
    (hq : queued (s.pilot j) < 256) :
    ⟨kind, src % 256, sub % 65536, payload % 2 ^ 64, s.now, 0⟩ ∈ ((s.enqueue j kind src sub payload).pilot j).arrivals := by
  unfold enqueue
  dsimp only
  rw [if_pos hs, if_pos hq, pilot_setPilot_same]
  exact List.mem_append_right _ (List.mem_singleton.mpr rfl)

theorem arrivals_deliver (h : d ∈ (s.pilot j).arrivals) (ks : List Nat) :
    d ∈ ((deliver kind src sub payload ks s).pilot j).arrivals := by
  induction ks generalizing s with
  | nil => exact h
  | cons k ks ih =>
    refine ih ?_
    split
    · exact arrivals_enqueue h
    · exact h

theorem queued_deliver (ks : List Nat) :
    queued ((deliver kind src sub payload ks s).pilot j) ≤ queued (s.pilot j) + ks.length := by
  induction ks generalizing s with
  | nil => exact Nat.le_refl _
  | cons k ks ih =>
    rw [List.length_cons]
    refine (ih (s := if bit _ kind then _ else s)).trans ?_
    have step : queued ((if bit (s.word (Reg.PILOT_DKT_SUB_MASK k).addr).toNat kind then s.enqueue k kind src sub payload else s).pilot j) ≤
        queued (s.pilot j) + 1 := by
      split
      · exact queued_enqueue
      · exact Nat.le_succ _
    omega

theorem calm_subMask : ∀ j, j < 16 → calm (Reg.PILOT_DKT_SUB_MASK j).addr = true := by decide

/-- Every subscriber among `ks` that has room takes the docket. -/
theorem mem_deliver (hj : j < 16) (hs : (s.pilot j).st = .loaded ∨ (s.pilot j).st = .running ∨ (s.pilot j).st = .waiting)
    (hq : queued (s.pilot j) < 256) (hm : bit (s.word (Reg.PILOT_DKT_SUB_MASK j).addr).toNat kind = true) :
    (ks : List Nat) → (∀ k ∈ ks, k < 16) → j ∈ ks →
      ⟨kind, src % 256, sub % 65536, payload % 2 ^ 64, s.now, 0⟩ ∈ ((deliver kind src sub payload ks s).pilot j).arrivals := by
  intro ks hks hjk
  induction ks generalizing s with
  | nil => cases hjk
  | cons k ks ih =>
    rw [deliver]
    have hk : k < 16 := hks k List.mem_cons_self
    by_cases e : j = k
    · subst e
      rw [if_pos hm]
      exact arrivals_deliver (mem_enqueue hs hq) ks
    · have hj' : j ∈ ks := (List.mem_cons.mp hjk).resolve_left e
      have hks' : ∀ k ∈ ks, k < 16 := fun k hk => hks k (List.mem_cons_of_mem _ hk)
      split
      · rw [← now_enqueue (s := s) (k := k) (kind := kind) (src := src) (sub := sub) (payload := payload)]
        have hp := pilot_enqueue_other (s := s) (kind := kind) (src := src) (sub := sub) (payload := payload) e
        exact ih (by rw [hp]; exact hs) (by rw [hp]; exact hq)
          (by rw [calm_enqueue kind src sub payload hk _ (calm_subMask j hj)]; exact hm) hks' hj'
      · exact ih hs hq hm hks' hj'

/-! ### Event bits before a docket (R497) -/

theorem queued_mergeAll (m : Nat) (ks : List Nat) : queued ((mergeAll src m ks s).pilot j) = queued (s.pilot j) := by
  induction ks generalizing s with
  | nil => rfl
  | cons k ks ih =>
    rw [mergeAll, ih]
    by_cases e : j = k
    · subst e
      rw [pilot_setPilot_same]
      simp only [queued, List.length_map]
    · rw [pilot_setPilot_other _ _ e]

theorem queued_post : queued ((s.post kind src sub payload).pilot j) ≤ queued (s.pilot j) + 16 := by
  unfold post live
  split
  · exact Nat.le_add_right _ _
  · exact queued_deliver (List.range 16)

theorem queued_raise (a en src m sh : Nat) : queued ((s.raise a en src m sh).pilot j) ≤ queued (s.pilot j) + 16 := by
  unfold raise unitEvent
  split
  · exact Nat.le_add_right _ _
  split
  · exact (queued_mergeAll _ _).le.trans (Nat.le_add_right _ _)
  · exact queued_post

/-- As far as the delivery of dockets goes, `u` differs from `s` by events only. -/
structure Hears (s u : State) : Prop where
  aside : u.fld Reg.LOG_STATUS_STATE = s.fld Reg.LOG_STATUS_STATE
  now : u.now = s.now
  pilot : ∀ j, (u.pilot j).core = (s.pilot j).core
  room : ∀ j, queued (u.pilot j) ≤ queued (s.pilot j) + 16
  mask : ∀ j, j < 16 → u.word (Reg.PILOT_DKT_SUB_MASK j).addr = s.word (Reg.PILOT_DKT_SUB_MASK j).addr

/-- Event bits after a change that touches neither the pilots nor their subscriptions. -/
theorem hears_raise {a en m sh : Nat} (hp : t.pilots = s.pilots) (hn : t.now = s.now)
    (hl : t.fld Reg.LOG_STATUS_STATE = s.fld Reg.LOG_STATUS_STATE)
    (hm : ∀ j, j < 16 → t.word (Reg.PILOT_DKT_SUB_MASK j).addr = s.word (Reg.PILOT_DKT_SUB_MASK j).addr)
    (hq : quiet a = false) (ha : a ≠ 0x50004) (hj : ∀ j, j < 16 → (Reg.PILOT_DKT_SUB_MASK j).addr ≠ a) : Hears s (t.raise a en src m sh) where
  aside := ((aside_raise a en src m sh hq ha).logState).trans hl
  now := ((keeps_raise (L := 17288) a en src m sh Keeps.refl rfl).same .now rfl).trans hn
  pilot j := ((aside_raise a en src m sh hq ha).pilot j).trans (by rw [State.pilot, State.pilot, hp])
  room j := (queued_raise a en src m sh).trans (by rw [State.pilot, State.pilot, hp])
  mask j h := ((State.word_raise a en src m sh (calm_subMask j h)).trans (if_neg (hj j h))).trans (hm j h)

/-- A docket posted after events reaches every pilot that had room for both (R88). -/
theorem posts_of_hears (h : Hears s u) (hsrc : src < 256) (hsub : sub < 65536) (hpay : payload < 2 ^ 64) :
    Posts kind src sub payload s (u.post kind src sub payload) := by
  intro hr j hj hst hq hm
  have hru : u.replaying = false := by
    rw [State.replaying, h.aside]
    exact hr
  have hst' : (u.pilot j).st = (s.pilot j).st := (congrArg Pilot.st (h.pilot j) :)
  have room := h.room j
  unfold State.post State.live
  rw [if_neg (by rw [hru]; exact Bool.false_ne_true)]
  have := mem_deliver (s := u) (kind := kind) (src := src) (sub := sub) (payload := payload) hj (hst' ▸ hst) (by omega)
    (by rw [h.mask j hj]; exact hm) (List.range 16) (fun k hk => List.mem_range.mp hk) (List.mem_range.mpr hj)
  rwa [Nat.mod_eq_of_lt hsrc, Nat.mod_eq_of_lt hsub, Nat.mod_eq_of_lt hpay, h.now] at this

end Sys2Proof.Machine
end

section
/-! PROOFS. O32, the domains: wrap epochs, lost Syncs and the clock monitor (R103, R116, R118). -/

namespace Sys2Proof.Machine

open State

variable {s t u : State} {ps : List Part} {as : List Nat}

/-- Only what TIME keeps beside its words changes. -/
theorem only_time (x : Time) : Only [.time] s { s with time := x } := fun p hp => by
  cases p <;> first | rfl | exact absurd (List.mem_singleton.mpr rfl) hp

theorem frame_time (x : Time) (hp : Part.time ∈ ps) : Frame ps as s { s with time := x } :=
  frame_part (only_time x) hp rfl rfl

theorem frame_setDom (d : Nat) (x : Dom) (hp : Part.time ∈ ps) : Frame ps as s (s.setDom d x) := frame_time _ hp

theorem dom_congr (e : t.time = s.time) (d : Nat) : t.dom d = s.dom d := by
  unfold dom
  rw [e]

theorem time_timeRaise (m : Nat) : (s.timeRaise m).time = s.time :=
  (keeps_timeRaise (L := 17288) m Keeps.refl rfl).same .time rfl

theorem time_timeEvent (src sub payload : Nat) : (s.timeEvent src sub payload).time = s.time :=
  (keeps_post (L := 16648) 0x0D src sub payload Keeps.refl rfl).same .time rfl

theorem frame_timeRaise (m : Nat) (ha : 0x20008 ∈ as) : Frame ps as s (s.timeRaise m) :=
  Frame.raise 0x20008 0x2000C 53 m 0 ha (by decide) (by decide)

theorem frame_timeEvent (src sub payload : Nat) : Frame ps as s (s.timeEvent src sub payload) := Frame.post _ _ _ _

/-- An event bit of TIME that occurs is set. -/
theorem bit_timeRaise {i : Nat} (hi : i < 32) : bit ((s.timeRaise (1 <<< i)).word 0x20008).toNat i = true := by
  unfold timeRaise
  rw [State.word_raise _ _ _ _ _ (by decide), if_pos rfl, bit, BitVec.toNat_or, Nat.testBit_or, BitVec.toNat_ofNat,
    Nat.testBit_mod_two_pow, Nat.one_shiftLeft, Nat.testBit_two_pow]
  simp [hi]

theorem hears_timeRaise (m : Nat) (hp : t.pilots = s.pilots) (hn : t.now = s.now) (hl : t.word 0x50004 = s.word 0x50004)
    (hm : ∀ j, j < 16 → t.word (Reg.PILOT_DKT_SUB_MASK j).addr = s.word (Reg.PILOT_DKT_SUB_MASK j).addr) : Hears s (t.timeRaise m) :=
  hears_raise hp hn (State.fld_of_word hl) hm (by decide) (by decide) (by decide)

/-! ### Wrap epochs (R103) -/

theorem exec_epochWrap (d : Fin 2) (s : State) : exec (.epochWrap d) s = .next (s.announceWrap d.val) := rfl

theorem epochOf_eq (s : State) (d : Nat) : s.epochOf d = s.fullNs d / 2 ^ 32 % 65536 := by
  rw [epochOf, Nat.shiftRight_eq_div_pow]

theorem epochWrap_effect (d : Fin 2) (e : Nat) (s : State) (he : e = s.fullNs d / 2 ^ 32 % 65536) :
    (e ≠ (s.dom d).wrapSeen → Completes (.epochWrap d) s fun t =>
      t.dom d = { s.dom d with wrapSeen := e } ∧ t.time = { s.time with dom := t.time.dom } ∧ bit (t.word 0x20008).toNat d = true ∧
      Posts 0x0D d 0 e s t ∧ Frame [.time] [0x20008] s t) ∧
    (e = (s.dom d).wrapSeen → exec (.epochWrap d) s = .next s) := by
  rw [← epochOf_eq] at he
  subst he
  constructor
  · intro hne
    have ht : s.announceWrap d.val =
        ((s.setDom d { s.dom d with wrapSeen := s.epochOf d }).timeRaise (1 <<< d.val)).timeEvent d 0 (s.epochOf d) := if_neg hne
    generalize hv : s.setDom d { s.dom d with wrapSeen := s.epochOf d } = v at ht
    have time : ((v.timeRaise (1 <<< d.val)).timeEvent d 0 (s.epochOf d)).time = v.time := (time_timeEvent _ _ _).trans (time_timeRaise _)
    refine ⟨_, (exec_epochWrap d s).trans (congrArg _ ht), ?_, ?_, ?_, ?_, ?_⟩
    · rw [dom_congr time, ← hv, dom_setDom_same]
    · rw [time, ← hv]
      rfl
    · rw [timeEvent, State.word_post _ _ _ _ (by decide)]
      exact bit_timeRaise (by omega)
    · refine posts_of_hears (hears_timeRaise _ ?_ ?_ ?_ ?_) (by omega) (by decide) ?_
      · rw [← hv]; rfl
      · rw [← hv]; rfl
      · rw [← hv]; rfl
      · intro j _
        rw [← hv]
        rfl
      · have : s.epochOf d < 65536 := Nat.mod_lt _ (by decide)
        omega
    · rw [← hv]
      exact ((frame_setDom _ _ (by decide)).trans (frame_timeRaise _ (by decide))).trans (frame_timeEvent _ _ _)
  · intro heq
    exact (exec_epochWrap d s).trans (congrArg _ (if_pos heq))

/-! ### Holdover (R116) -/

theorem exec_syncLoss (d : Fin 2) (s : State) : exec (.syncLoss d) s =
    .next (if (s.dom d).lastSync + 4 * State.intervalCycles (s.logSync d) ≤ s.now then s.enterHoldover d else s) := rfl

/-- The field of TIME_STATUS that holds the state of domain `d`. -/
def stateField (d : Nat) : Fld := if d = 0 then Reg.TIME_STATUS_STATE_A else Reg.TIME_STATUS_STATE_B

theorem domState_eq (s : State) (d : Nat) : s.domState d = s.fld (stateField d) := by
  unfold domState stateField
  split <;> rfl

theorem setDomState_eq (s : State) (d v : Nat) : s.setDomState d v = s.setFld (stateField d) v := by
  unfold setDomState stateField
  split <;> rfl

theorem addr_stateField (d : Nat) : (stateField d).addr = 0x20004 := by
  unfold stateField
  split <;> rfl

theorem domState_congr (h : t.word 0x20004 = s.word 0x20004) (d : Nat) : t.domState d = s.domState d := by
  rw [domState_eq, domState_eq]
  exact State.fld_of_word (by rw [addr_stateField]; exact h)

theorem domState_setDomState_same (s : State) (d v : Nat) : (s.setDomState d v).domState d = v % 4 := by
  rw [domState_eq, setDomState_eq]
  unfold stateField
  split <;> exact State.fld_setFld_same s _ v (by decide) (by decide)

theorem domState_setDomState_other (s : State) {d e : Nat} (v : Nat) (h : d = 0 ↔ e ≠ 0) : (s.setDomState d v).domState e = s.domState e := by
  rw [domState_eq, setDomState_eq, domState_eq]
  unfold stateField
  by_cases hd : d = 0
  · rw [if_pos hd, if_neg (h.mp hd)]
    exact State.fld_setFld_bits s _ _ v rfl (by decide) (by decide) (by decide)
  · rw [if_neg hd, if_pos (by omega)]
    exact State.fld_setFld_bits s _ _ v rfl (by decide) (by decide) (by decide)

theorem frame_setDomState (d v : Nat) (ha : 0x20004 ∈ as) : Frame ps as s (s.setDomState d v) := by
  rw [setDomState_eq]
  exact Frame.setFld _ v (by rw [addr_stateField]; exact ha)

theorem frame_setAdj (d : Nat) (a : Int) (hp : Part.time ∈ ps) (ha : (Reg.DOM_ADJ d).addr ∈ as) : Frame ps as s (s.setAdj d a) :=
  (frame_setDom d _ hp).trans (Frame.setFld _ _ ha)

/-- A domain whose adj is frozen at its mean (R116). -/
def frozen (s : State) (d : Nat) : State :=
  let v := (s.setAdj d (s.meanAdj d)).nextFree
  v.setDom d { v.dom d with good := 0, glitches := 0 }

/-- HOLDOVER is entered and announced (R116). -/
def holdoverTold (s : State) (d : Nat) : State := ((s.setDomState d 3).timeRaise (16 <<< d)).timeEvent d 1 (s.epochOf d)

/-- A failover that the loss of the selected domain makes due (R114). -/
def failoverDue (s : State) (d : Nat) : State :=
  if s.flag Reg.TIME_CTRL_FAILOVER && decide (d = s.sel) && decide (s.domState (1 - d) = 2) then
    { s with time := { s.time with failTo := some (1 - d) } }
  else s

theorem enterHoldover_eq {d : Nat} (h : s.domState d = 2) : s.enterHoldover d = failoverDue (holdoverTold (frozen s d) d) d := by
  unfold enterHoldover
  rw [if_neg (by rw [h]; exact fun e => e rfl)]
  rfl

theorem enterHoldover_other {d : Nat} (h : s.domState d ≠ 2) : s.enterHoldover d = s := if_pos h

theorem fullNs_congr {d : Nat} (h : (t.dom d).count = (s.dom d).count) : t.fullNs d = s.fullNs d := by
  rw [fullNs, fullNs, h]

theorem epochOf_congr {d : Nat} (h : (t.dom d).count = (s.dom d).count) : t.epochOf d = s.epochOf d := by
  rw [epochOf, epochOf, fullNs_congr h]

theorem epochOf_lt (s : State) (d : Nat) : s.epochOf d < 65536 := Nat.mod_lt _ (by decide)

theorem count_frozen (d : Nat) : ((frozen s d).dom d).count = (s.dom d).count := by
  unfold frozen
  rw [dom_setDom_same]
  show (((s.setDom d { s.dom d with adj := s.meanAdj d }).dom d).count) = _
  rw [dom_setDom_same]

theorem word_frozen {d x : Nat} (h : x ≠ 0x20110 + 0x80 * d) : (frozen s d).word x = s.word x :=
  State.word_setFld (s.setDom d { s.dom d with adj := s.meanAdj d }) (Reg.DOM_ADJ d) _ x h

theorem domState_frozen (d e : Nat) : (frozen s d).domState e = s.domState e := domState_congr (word_frozen (by omega)) e

theorem frame_frozen {d : Nat} (hp : Part.time ∈ ps) (hf : Part.fresh ∈ ps) (ha : 0x20110 + 0x80 * d ∈ as) : Frame ps as s (frozen s d) :=
  ((frame_setAdj d _ hp ha).trans (frame_nextFree hf)).trans (frame_setDom d _ hp)

/-! What HOLDOVER announced leaves of a state `s`. -/

theorem time_holdoverTold (d : Nat) : (holdoverTold s d).time = s.time := by
  unfold holdoverTold
  rw [time_timeEvent, time_timeRaise, setDomState_eq]
  rfl

theorem frame_holdoverTold (d : Nat) (ha : 0x20004 ∈ as) (he : 0x20008 ∈ as) : Frame ps as s (holdoverTold s d) :=
  ((frame_setDomState d 3 ha).trans (frame_timeRaise _ he)).trans (frame_timeEvent _ _ _)

theorem domState_holdoverTold (d e : Nat) : (holdoverTold s d).domState e = (s.setDomState d 3).domState e := by
  refine domState_congr ?_ e
  unfold holdoverTold timeEvent timeRaise
  rw [State.word_post _ _ _ _ (by decide), State.word_raise _ _ _ _ _ (by decide), if_neg (by decide)]

theorem bit_holdoverTold {d : Nat} (h : d < 2) : bit ((holdoverTold s d).word 0x20008).toNat (4 + d) = true := by
  unfold holdoverTold timeEvent
  rw [State.word_post _ _ _ _ (by decide), show 16 <<< d = 1 <<< (4 + d) by rw [Nat.shiftLeft_add]; rfl]
  exact bit_timeRaise (by omega)

theorem fld_failoverDue (d : Nat) (f : Fld) : (failoverDue s d).fld f = s.fld f := by
  unfold failoverDue
  split <;> rfl

/-- A domain in HOLDOVER hears of it (R88, R116). -/
theorem posts_holdover (d : Fin 2) : Posts 0x0D d 1 (s.epochOf d) s (holdoverTold (frozen s d) d) := by
  have hw : ∀ x, x ≠ 0x20004 → x ≠ 0x20110 + 0x80 * d.val → ((frozen s d).setDomState d 3).word x = s.word x := fun x h1 h2 => by
    rw [setDomState_eq, State.word_setFld _ _ _ _ (by rw [addr_stateField]; exact h1), word_frozen h2]
  have hear : Hears s (((frozen s d).setDomState d 3).timeRaise (16 <<< d.val)) := by
    refine hears_timeRaise _ ?_ ?_ (hw _ (by decide) (by omega)) fun j _ => hw _ ?_ ?_
    · rw [setDomState_eq]; rfl
    · rw [setDomState_eq]; rfl
    · show 0x30030 + 0x1000 * j ≠ 0x20004
      omega
    · show 0x30030 + 0x1000 * j ≠ 0x20110 + 0x80 * d.val
      omega
  unfold holdoverTold timeEvent
  rw [epochOf_congr (count_frozen d.val)]
  exact posts_of_hears hear (by omega) (by decide) (Nat.lt_trans (epochOf_lt s d) (by decide))

/-- What entering HOLDOVER touches beside TIME's own part. -/
theorem frame_holdover {d : Nat} (hp : Part.time ∈ ps) (hf : Part.fresh ∈ ps) (hs : 0x20004 ∈ as) (he : 0x20008 ∈ as)
    (ha : 0x20110 + 0x80 * d ∈ as) : Frame ps as s (holdoverTold (frozen s d) d) :=
  (frame_frozen hp hf ha).trans (frame_holdoverTold d hs he)

/-- The words that HOLDOVER of domain `d` touches. -/
def holdoverWords (d : Nat) : List Nat := [0x20004, 0x20008, 0x20110 + 0x80 * d]

theorem frame_holdoverWords (d : Nat) : Frame [.time, .fresh] (holdoverWords d) s (holdoverTold (frozen s d) d) :=
  frame_holdover (by decide) (by decide) (by simp [holdoverWords]) (by simp [holdoverWords]) (by simp [holdoverWords])

/-- Without FAILOVER no switch is due. -/
theorem failoverDue_off {d : Nat} (hf : s.flag Reg.TIME_CTRL_FAILOVER = false) :
    failoverDue (holdoverTold (frozen s d) d) d = holdoverTold (frozen s d) d := by
  have hflag : (holdoverTold (frozen s d) d).flag Reg.TIME_CTRL_FAILOVER = s.flag Reg.TIME_CTRL_FAILOVER :=
    flag_of_fld (State.fld_of_word ((frame_holdoverWords d).2.1 0x20000 (by decide) (by
      simp only [holdoverWords, List.mem_cons, List.not_mem_nil, or_false]
      omega)))
  refine if_neg ?_
  rw [hflag, hf]
  exact Bool.false_ne_true

/-! ### Lost Syncs (R116) -/

theorem syncLoss_effect (d : Fin 2) (s : State) :
    (s.domState d = 2 → s.flag Reg.TIME_CTRL_FAILOVER = false → (s.dom d).lastSync + 4 * State.intervalCycles (s.logSync d) ≤ s.now →
      Completes (.syncLoss d) s fun t =>
        t.domState d = 3 ∧ t.domState (1 - d.val) = s.domState (1 - d.val) ∧ bit (t.word 0x20008).toNat (4 + d.val) = true ∧
        (t.dom d).count = (s.dom d).count ∧ Posts 0x0D d 1 (s.epochOf d) s t ∧
        Frame [.time, .fresh] [0x20004, 0x20008, 0x20110 + 0x80 * d.val] s t) ∧
    (s.domState d ≠ 2 ∨ s.now < (s.dom d).lastSync + 4 * State.intervalCycles (s.logSync d) → exec (.syncLoss d) s = .next s) := by
  rw [Completes, exec_syncLoss]
  constructor
  · intro h2 hf ht
    rw [if_pos ht, enterHoldover_eq h2, failoverDue_off hf]
    refine ⟨_, rfl, ?_, ?_, bit_holdoverTold d.isLt, ?_, posts_holdover d, frame_holdoverWords d⟩
    · rw [domState_holdoverTold, domState_setDomState_same]
    · rw [domState_holdoverTold, domState_setDomState_other _ _ (by omega), domState_frozen]
    · rw [dom_congr (time_holdoverTold d.val), count_frozen]
  · intro h
    refine congrArg _ ?_
    by_cases ht : (s.dom d).lastSync + 4 * State.intervalCycles (s.logSync d) ≤ s.now
    · rw [if_pos ht, enterHoldover_other (h.resolve_right (by omega))]
    · rw [if_neg ht]

/-! ### HOLDOVER, where the domain was LOCKED or not -/

theorem frame_failoverDue (d : Nat) (hp : Part.time ∈ ps) : Frame ps as s (failoverDue s d) := by
  unfold failoverDue
  split
  · exact frame_time _ hp
  · exact Frame.refl

theorem frame_enterHoldover (d : Nat) : Frame [.time, .fresh] (holdoverWords d) s (s.enterHoldover d) := by
  by_cases h : s.domState d = 2
  · rw [enterHoldover_eq h]
    exact (frame_holdoverWords d).trans (frame_failoverDue d (by decide))
  · rw [enterHoldover_other h]
    exact Frame.refl

theorem domState_enterHoldover {d e : Nat} (hd : d < 2) (he : e < 2) :
    (s.enterHoldover d).domState e = if e = d ∧ s.domState d = 2 then 3 else s.domState e := by
  by_cases h : s.domState d = 2
  · rw [enterHoldover_eq h, domState_eq, fld_failoverDue, ← domState_eq, domState_holdoverTold]
    by_cases e1 : e = d
    · subst e1
      rw [domState_setDomState_same, if_pos ⟨rfl, h⟩]
    · rw [domState_setDomState_other _ _ (by omega), domState_frozen, if_neg fun hn => e1 hn.1]
  · rw [enterHoldover_other h, if_neg fun hn => h hn.2]

theorem toscGood_enterHoldover (d : Nat) : (s.enterHoldover d).time.toscGood = s.time.toscGood := by
  by_cases h : s.domState d = 2
  · have e : (failoverDue (holdoverTold (frozen s d) d) d).time.toscGood = (holdoverTold (frozen s d) d).time.toscGood := by
      unfold failoverDue
      split <;> rfl
    rw [enterHoldover_eq h, e, time_holdoverTold]
    rfl
  · rw [enterHoldover_other h]

/-- An event bit of TIME that was set stays set. -/
theorem bit_enterHoldover {d i : Nat} (h : bit (s.word 0x20008).toNat i = true) : bit ((s.enterHoldover d).word 0x20008).toNat i = true := by
  by_cases h2 : s.domState d = 2
  · have e : (failoverDue (holdoverTold (frozen s d) d) d).word 0x20008 = (holdoverTold (frozen s d) d).word 0x20008 := by
      unfold failoverDue
      split <;> rfl
    rw [enterHoldover_eq h2, e]
    unfold holdoverTold timeEvent timeRaise
    rw [State.word_post _ _ _ _ (by decide), State.word_raise _ _ _ _ _ (by decide), if_pos rfl, setDomState_eq,
      State.word_setFld _ _ _ _ (by rw [addr_stateField]; decide), word_frozen (by omega), bit, BitVec.toNat_or, Nat.testBit_or]
    rw [bit] at h
    rw [h, Bool.true_or]
  · rw [enterHoldover_other h2]
    exact h

/-! ### The clock monitor (R118) -/

/-- A window of the clock monitor has told whether TOSC is in tolerance. -/
def windowSeen (s : State) (n : Nat) : State := { s with time := { s.time with toscGood := n } }

/-- A domain whose counter misses `lost` ticks. -/
def missTicks (s : State) (lost d : Nat) : State :=
  s.setDom d { s.dom d with count := wrap 104 (((s.dom d).count : Int) - lost * (s.effInc d).1) }

/-- Both counters miss `lost` ticks. -/
def bothMiss (s : State) (lost : Nat) : State := (missTicks (missTicks s lost 0) lost 1).nextFree

theorem regs_bothMiss (lost : Nat) : (bothMiss s lost).regs = s.regs := by
  rw [bothMiss, nextFree_regs, missTicks, setDom_regs, missTicks, setDom_regs]

theorem toscGood_setDom (d : Nat) (x : Dom) : (s.setDom d x).time.toscGood = s.time.toscGood := rfl

theorem toscGood_bothMiss (lost : Nat) : (bothMiss s lost).time.toscGood = s.time.toscGood := by
  rw [bothMiss, nextFree_time, missTicks, toscGood_setDom, missTicks, toscGood_setDom]

theorem frame_bothMiss (lost : Nat) : Frame [.time, .fresh] as s (bothMiss s lost) :=
  ((frame_setDom 0 _ (by decide)).trans (frame_setDom 1 _ (by decide))).trans (frame_nextFree (by decide))

/-- Source `src` of TCLK is shown and announced. -/
def srcShown (s : State) (src : Nat) : State := (s.setFld Reg.TIME_CLK_SRC src).timeRaise 64

/-- TCLK has moved to source `src`, before the domains enter HOLDOVER. -/
def clkMoved (s : State) (src : Nat) : State := bothMiss (srcShown s src) ((srcShown s src).freeVal % 2)

theorem moveClk_eq (s : State) (src : Nat) : s.moveClk src = ((clkMoved s src).enterHoldover 0).enterHoldover 1 := rfl

theorem regs_clkMoved (src : Nat) : (clkMoved s src).regs = (srcShown s src).regs := regs_bothMiss _

theorem toscGood_clkMoved (src : Nat) : (clkMoved s src).time.toscGood = s.time.toscGood := by
  rw [clkMoved, toscGood_bothMiss, srcShown, time_timeRaise]
  rfl

/-- The words that a move of TCLK touches. -/
def clkWords : List Nat := [0x20004, 0x20008, 0x20014, 0x20110, 0x20190]

theorem frame_clkMoved (src : Nat) : Frame [.time, .fresh] clkWords s (clkMoved s src) :=
  ((Frame.setFld Reg.TIME_CLK_SRC src (by decide)).trans (frame_timeRaise 64 (by decide))).trans (frame_bothMiss _)

theorem frame_moveClk (src : Nat) : Frame [.time, .fresh] clkWords s (s.moveClk src) :=
  ((frame_clkMoved src).trans ((frame_enterHoldover 0).mono (fun _ h => h) (by decide))).trans
    ((frame_enterHoldover 1).mono (fun _ h => h) (by decide))

theorem clkSrc_moveClk {src : Nat} (h : src < 4) : (s.moveClk src).fld Reg.TIME_CLK_SRC = src := by
  have e0 : ((clkMoved s src).enterHoldover 0).word 0x20014 = (clkMoved s src).word 0x20014 :=
    (frame_enterHoldover 0).2.1 0x20014 (by decide) (by decide)
  have e1 : (s.moveClk src).word 0x20014 = ((clkMoved s src).enterHoldover 0).word 0x20014 :=
    (frame_enterHoldover 1).2.1 0x20014 (by decide) (by decide)
  rw [State.fld_of_word (e1.trans (e0.trans (word_congr (regs_clkMoved src) _))), srcShown, timeRaise,
    State.fld_raise _ _ _ _ _ (by decide) (by decide), State.fld_setFld_same _ _ _ (by decide) (by decide)]
  exact Nat.mod_eq_of_lt h

theorem domState_clkMoved (src e : Nat) : (clkMoved s src).domState e = s.domState e := by
  refine domState_congr ?_ e
  rw [word_congr (regs_clkMoved src), srcShown, timeRaise, State.word_raise _ _ _ _ _ (by decide), if_neg (by decide),
    State.word_setFld _ _ _ _ (by decide)]

theorem domState_moveClk (src : Nat) (d : Fin 2) : (s.moveClk src).domState d = if s.domState d = 2 then 3 else s.domState d := by
  rw [moveClk_eq, domState_enterHoldover (by decide) d.isLt, domState_enterHoldover (by decide) (by decide),
    domState_enterHoldover (by decide) d.isLt]
  simp only [domState_clkMoved]
  match d with
  | 0 => simp
  | 1 => simp

/-- A move of TCLK is announced, and both domains go through HOLDOVER (R118). -/
theorem moveClk_effect {src n : Nat} (h : src < 4) (hn : s.time.toscGood = n) :
    (s.moveClk src).fld Reg.TIME_CLK_SRC = src ∧ (s.moveClk src).time.toscGood = n ∧ bit ((s.moveClk src).word 0x20008).toNat 6 = true ∧
    (∀ d : Fin 2, (s.moveClk src).domState d = if s.domState d = 2 then 3 else s.domState d) ∧
    Frame [.time, .fresh] clkWords s (s.moveClk src) := by
  refine ⟨clkSrc_moveClk h, ?_, ?_, domState_moveClk src, frame_moveClk src⟩
  · rw [moveClk_eq, toscGood_enterHoldover, toscGood_enterHoldover, toscGood_clkMoved, hn]
  · rw [moveClk_eq]
    refine bit_enterHoldover (bit_enterHoldover ?_)
    rw [word_congr (regs_clkMoved src), srcShown, show 64 = 1 <<< 6 from rfl]
    exact bit_timeRaise (by decide)

/-- What the window decides, by the source in use. -/
theorem clkMonitorWindow_eq (tosc ref : Option Nat) (s : State) (n : Nat) (hn : n = if s.clkGood tosc then s.time.toscGood + 1 else 0) :
    exec (.clkMonitorWindow tosc ref) s = .next (match s.fld Reg.TIME_CLK_SRC with
      | 0 => if s.clkGood tosc then windowSeen s n else if s.clkGood ref then (windowSeen s n).moveClk 1 else (windowSeen s n).moveClk 2
      | 1 => if s.clkGood ref then windowSeen s n else (windowSeen s n).moveClk 2
      | _ => windowSeen s n) := by
  subst hn
  rfl

theorem clkMonitorWindow_effect (tosc ref : Option Nat) (s : State) (n : Nat) (hn : n = if s.clkGood tosc then s.time.toscGood + 1 else 0) :
    (s.fld Reg.TIME_CLK_SRC = 0 ∧ s.clkGood tosc = true ∨ s.fld Reg.TIME_CLK_SRC = 1 ∧ s.clkGood ref = true ∨ 2 ≤ s.fld Reg.TIME_CLK_SRC →
      exec (.clkMonitorWindow tosc ref) s = .next { s with time := { s.time with toscGood := n } }) ∧
    (∀ src, (s.fld Reg.TIME_CLK_SRC = 0 ∧ s.clkGood tosc = false ∧ s.clkGood ref = true ∧ src = 1 ∨
        s.fld Reg.TIME_CLK_SRC = 0 ∧ s.clkGood tosc = false ∧ s.clkGood ref = false ∧ src = 2 ∨
        s.fld Reg.TIME_CLK_SRC = 1 ∧ s.clkGood ref = false ∧ src = 2) →
      Completes (.clkMonitorWindow tosc ref) s fun t =>
        t.fld Reg.TIME_CLK_SRC = src ∧ t.time.toscGood = n ∧ bit (t.word 0x20008).toNat 6 = true ∧
        (∀ d : Fin 2, t.domState d = if s.domState d = 2 then 3 else s.domState d) ∧
        Frame [.time, .fresh] [0x20004, 0x20008, 0x20014, 0x20110, 0x20190] s t) := by
  unfold Completes
  rw [clkMonitorWindow_eq tosc ref s n hn]
  constructor
  · rintro (⟨h, hg⟩ | ⟨h, hg⟩ | h)
    · rw [h]
      exact congrArg _ (if_pos hg)
    · rw [h]
      exact congrArg _ (if_pos hg)
    · obtain ⟨k, hk⟩ := Nat.exists_eq_add_of_le' h
      rw [hk]
      rfl
  · have moves : ∀ src, src < 4 → ∃ t, (Host.Outcome.next ((windowSeen s n).moveClk src) : Res) = .next t ∧
        (t.fld Reg.TIME_CLK_SRC = src ∧ t.time.toscGood = n ∧ bit (t.word 0x20008).toNat 6 = true ∧
        (∀ d : Fin 2, t.domState d = if s.domState d = 2 then 3 else s.domState d) ∧ Frame [.time, .fresh] clkWords s t) := by
      intro src hs
      obtain ⟨hf, hn', hb, hd, hfr⟩ := moveClk_effect (s := windowSeen s n) hs rfl
      exact ⟨_, rfl, hf, hn', hb, hd, (frame_time _ (by decide)).trans hfr⟩
    rintro src (⟨h, ht, hr, rfl⟩ | ⟨h, ht, hr, rfl⟩ | ⟨h, hr, rfl⟩)
    · rw [h]
      simp only [ht, hr, Bool.false_eq_true, if_false, if_true]
      exact moves 1 (by decide)
    · rw [h]
      simp only [ht, hr, Bool.false_eq_true, if_false]
      exact moves 2 (by decide)
    · rw [h]
      simp only [hr, Bool.false_eq_true, if_false]
      exact moves 2 (by decide)

end Sys2Proof.Machine
end

section
/-! PROOFS. O32, the PTP engines: Announce timeouts, messages and samples (R115 to R117, R119). -/

namespace Sys2Proof.Machine

open State

variable {s t u : State} {ps : List Part} {as : List Nat}

/-! ### Announce timeouts (R119) -/

/-- The masters that engine `e` heard are forgotten. -/
def mastersForgotten (s : State) (e : Nat) : State := s.setDom e { s.dom e with foreign := [], lastAnnounce := s.now }

/-- The time an engine waits for an Announce. -/
def announceWait (s : State) (e : Nat) : Nat := s.fld (Reg.PTP_ANN_TO e) * intervalCycles (signed 4 (s.fld (Reg.PTP_LOG_ANN e)))

theorem announceTimeout_eq (e : Fin 2) (s : State) : exec (.announceTimeout e) s = .next (
    if s.flag (Reg.PTP_EN e) ∧ (s.dom e).lastAnnounce + announceWait s e ≤ s.now then
      match s.fld (Reg.PTP_ROLE e) with
      | 0 => (mastersForgotten s e).setFld (Reg.PTP_PORT_STATE e) 4
      | 2 => ((mastersForgotten s e).setFld (Reg.PTP_PORT_STATE e) 6).roleState e
      | _ => mastersForgotten s e
    else s) := rfl

/-- An engine that BMCA made master does not discipline its domain (R115). -/
theorem roleState_master {e : Nat} (hr : s.fld (Reg.PTP_ROLE e) = 2) (hp : s.fld (Reg.PTP_PORT_STATE e) = 6) :
    s.roleState e = (s.setDomState e 0).setAdj e 0 := by
  refine if_neg ?_
  simp [ptpSlave, hr, hp]

theorem dom_setDomState (d v e : Nat) : (s.setDomState d v).dom e = s.dom e := by
  rw [setDomState_eq]
  rfl

theorem dom_setAdj_same (d : Nat) (a : Int) : (s.setAdj d a).dom d = { s.dom d with adj := a } :=
  (dom_congr (s := s.setDom d { s.dom d with adj := a }) rfl d).trans (dom_setDom_same _ _ _)

theorem word_setAdj {d x : Nat} (a : Int) (h : x ≠ 0x20110 + 0x80 * d) : (s.setAdj d a).word x = s.word x :=
  State.word_setFld (s.setDom d { s.dom d with adj := a }) (Reg.DOM_ADJ d) _ x h

theorem announceTimeout_listens {e : Fin 2} (hen : s.flag (Reg.PTP_EN e) = true) (ht : (s.dom e).lastAnnounce + announceWait s e ≤ s.now)
    (hr : s.fld (Reg.PTP_ROLE e) = 0) : Completes (.announceTimeout e) s fun t =>
      t.fld (Reg.PTP_PORT_STATE e) = 4 ∧ t.dom e = { s.dom e with foreign := [], lastAnnounce := s.now } ∧
      Frame [.time] [0x20208 + 0x80 * e.val] s t := by
  unfold Completes
  rw [announceTimeout_eq, if_pos ⟨hen, ht⟩, hr]
  exact ⟨_, rfl, State.fld_setFld_same _ (Reg.PTP_PORT_STATE e.val) 4 (show 0 ≤ 3 by decide) (show 3 < 32 by decide), dom_setDom_same _ _ _,
    (frame_setDom _ _ (by decide)).trans (Frame.setFld _ _ (List.mem_singleton.mpr rfl))⟩

theorem announceTimeout_leads {e : Fin 2} (hen : s.flag (Reg.PTP_EN e) = true) (ht : (s.dom e).lastAnnounce + announceWait s e ≤ s.now)
    (hr : s.fld (Reg.PTP_ROLE e) = 2) : Completes (.announceTimeout e) s fun t =>
      t.fld (Reg.PTP_PORT_STATE e) = 6 ∧ (t.dom e).foreign = [] ∧ t.domState e = 0 ∧ (t.dom e).adj = 0 ∧
      Frame [.time] [0x20208 + 0x80 * e.val, 0x20004, 0x20110 + 0x80 * e.val] s t := by
  unfold Completes
  rw [announceTimeout_eq, if_pos ⟨hen, ht⟩, hr]
  generalize hv : (mastersForgotten s e).setFld (Reg.PTP_PORT_STATE e) 6 = v
  have hp : v.fld (Reg.PTP_PORT_STATE e) = 6 := by
    rw [← hv]
    exact State.fld_setFld_same _ (Reg.PTP_PORT_STATE e.val) 6 (show 0 ≤ 3 by decide) (show 3 < 32 by decide)
  have hrv : v.fld (Reg.PTP_ROLE e) = 2 := by
    rw [← hv, State.fld_setFld_addr _ _ _ _ (by simp only [Reg.PTP_ROLE, Reg.PTP_PORT_STATE]; omega)]
    exact hr
  have hd : v.dom e = { s.dom e with foreign := [], lastAnnounce := s.now } := by
    rw [← hv]
    exact dom_setDom_same _ _ _
  have hdt : ((v.setDomState e 0).setAdj e 0).dom e = { v.dom e with adj := 0 } := by rw [dom_setAdj_same, dom_setDomState]
  have hf : Frame [.time] [0x20208 + 0x80 * e.val, 0x20004, 0x20110 + 0x80 * e.val] s v := by
    rw [← hv]
    exact (frame_setDom _ _ (by decide)).trans (Frame.setFld _ _ List.mem_cons_self)
  refine ⟨v.roleState e, rfl, ?_⟩
  rw [roleState_master hrv hp]
  refine ⟨?_, ?_, ?_, ?_, (hf.trans (frame_setDomState _ _ (by simp))).trans (frame_setAdj _ _ (by decide) (by simp [Reg.DOM_ADJ]))⟩
  · refine Eq.trans (State.fld_of_word ?_) hp
    have ne : 0x20208 + 0x80 * e.val ≠ 0x20110 + 0x80 * e.val := by omega
    rw [word_setAdj 0 (by exact ne), setDomState_eq, State.word_setFld _ _ _ _ (by
      rw [addr_stateField]
      show 0x20208 + 0x80 * e.val ≠ 0x20004
      omega)]
  · rw [hdt, hd]
  · rw [domState_congr (word_setAdj 0 (by omega)), domState_setDomState_same]
  · rw [hdt]

theorem announceTimeout_effect (e : Fin 2) (wait : Nat) (s : State)
    (hw : wait = s.fld (Reg.PTP_ANN_TO e) * intervalCycles (signed 4 (s.fld (Reg.PTP_LOG_ANN e)))) :
    (s.flag (Reg.PTP_EN e) = true → (s.dom e).lastAnnounce + wait ≤ s.now →
      (s.fld (Reg.PTP_ROLE e) = 0 → Completes (.announceTimeout e) s fun t =>
        t.fld (Reg.PTP_PORT_STATE e) = 4 ∧ t.dom e = { s.dom e with foreign := [], lastAnnounce := s.now } ∧
        Frame [.time] [0x20208 + 0x80 * e.val] s t) ∧
      (s.fld (Reg.PTP_ROLE e) = 2 → Completes (.announceTimeout e) s fun t =>
        t.fld (Reg.PTP_PORT_STATE e) = 6 ∧ (t.dom e).foreign = [] ∧ t.domState e = 0 ∧ (t.dom e).adj = 0 ∧
        Frame [.time] [0x20208 + 0x80 * e.val, 0x20004, 0x20110 + 0x80 * e.val] s t)) ∧
    (s.flag (Reg.PTP_EN e) = false ∨ s.now < (s.dom e).lastAnnounce + wait → exec (.announceTimeout e) s = .next s) := by
  subst hw
  refine ⟨fun hen ht => ⟨announceTimeout_listens hen ht, announceTimeout_leads hen ht⟩, fun h => ?_⟩
  rw [announceTimeout_eq, if_neg]
  rintro ⟨hen, ht⟩
  rcases h with h | h
  · exact absurd (h.symm.trans hen) Bool.false_ne_true
  · exact Nat.not_lt.mpr ht h

/-! ### Samples (R116, R117): what the servo and the lock states leave -/

/-- The sample of domain `d` that DOM_OFFSET shows, and the times it came from, stand. -/
structure SampleStands (d : Nat) (s t : State) : Prop where
  offset : t.fld (Reg.DOM_OFFSET d) = s.fld (Reg.DOM_OFFSET d)
  times : (t.dom d).lastT1T2 = (s.dom d).lastT1T2
  delay : (t.dom d).meanDelay = (s.dom d).meanDelay

namespace SampleStands

variable {d : Nat}

theorem refl : SampleStands d s s := ⟨rfl, rfl, rfl⟩

theorem trans (h : SampleStands d s t) (h' : SampleStands d t u) : SampleStands d s u :=
  ⟨h'.offset.trans h.offset, h'.times.trans h.times, h'.delay.trans h.delay⟩

theorem setDom (x : Dom) (ht : x.lastT1T2 = (s.dom d).lastT1T2) (hm : x.meanDelay = (s.dom d).meanDelay) : SampleStands d s (s.setDom d x) where
  offset := rfl
  times := by rw [dom_setDom_same, ht]
  delay := by rw [dom_setDom_same, hm]

/-- A change of other words alone. -/
theorem of_words (ht : t.time = s.time) (hw : t.word (0x20124 + 0x80 * d) = s.word (0x20124 + 0x80 * d)) : SampleStands d s t where
  offset := State.fld_of_word hw
  times := by rw [dom_congr ht]
  delay := by rw [dom_congr ht]

theorem setFld (f : Fld) (v : Nat) (h : 0x20124 + 0x80 * d ≠ f.addr) : SampleStands d s (s.setFld f v) :=
  of_words rfl (State.word_setFld _ _ _ _ h)

theorem setDomState (v : Nat) : SampleStands d s (s.setDomState d v) := by
  rw [setDomState_eq]
  exact setFld _ _ (by rw [addr_stateField]; omega)

theorem setAdj (a : Int) : SampleStands d s (s.setAdj d a) :=
  (setDom { s.dom d with adj := a } rfl rfl).trans (setFld (Reg.DOM_ADJ d) _ (show 0x20124 + 0x80 * d ≠ 0x20110 + 0x80 * d by omega))

theorem servo (o : Int) : SampleStands d s (s.servo d o) := by
  obtain ⟨a, i, h, e⟩ : ∃ a i h, s.servo d o = (s.setAdj d a).setDom d { (s.setAdj d a).dom d with integ := i, adjHist := h } :=
    ⟨_, _, _, rfl⟩
  rw [e]
  exact (setAdj a).trans (setDom { (s.setAdj d a).dom d with integ := i, adjHist := h } rfl rfl)

theorem lockDom : SampleStands d s (s.lockDom d) := (setDomState 2).trans (setDom _ (by rw [dom_setDomState]) (by rw [dom_setDomState]))

theorem noteSample (o : Int) : SampleStands d s (s.noteSample d o) := setDom _ rfl rfl

theorem timeRaise (hd : d < 2) (m : Nat) : SampleStands d s (s.timeRaise m) :=
  of_words (time_timeRaise m) ((State.word_raise _ _ _ _ _ (by simp [calm]; omega)).trans (if_neg (by omega)))

theorem timeEvent (hd : d < 2) (src sub payload : Nat) : SampleStands d s (s.timeEvent src sub payload) :=
  of_words (time_timeEvent _ _ _) (State.word_post _ _ _ _ (by simp [calm]; omega))

theorem announceWrap (hd : d < 2) : SampleStands d s (s.announceWrap d) := by
  unfold State.announceWrap
  dsimp only
  split
  · exact refl
  · exact ((setDom { s.dom d with wrapSeen := s.epochOf d } rfl rfl).trans (timeRaise hd _)).trans (timeEvent hd _ _ _)

theorem acc (a : Int) : SampleStands d s { s with time := { s.time with acc := a } } := ⟨rfl, rfl, rfl⟩

theorem counted (c : Nat) : SampleStands d s (s.setDom d { s.dom d with count := c, integ := 0 }) :=
  setDom { s.dom d with count := c, integ := 0 } rfl rfl

theorem stepDom (hd : d < 2) (ns : Int) : SampleStands d s (s.stepDom d ns) := by
  unfold State.stepDom
  dsimp only
  generalize wrap 104 (((s.dom d).count : Int) + ns * 2 ^ 40) = c
  refine SampleStands.trans ?_ (announceWrap hd)
  refine SampleStands.trans ?_ (timeEvent hd _ _ _)
  refine SampleStands.trans ?_ (timeRaise hd _)
  refine SampleStands.trans ?_ (of_words (s := ite _ _ _) rfl rfl)
  split
  · exact (counted c).trans (acc _)
  · exact counted c

theorem failTo (x : Option Nat) : SampleStands d s { s with time := { s.time with failTo := x } } := ⟨rfl, rfl, rfl⟩

theorem frozen : SampleStands d s (Machine.frozen s d) := by
  unfold Machine.frozen
  refine SampleStands.trans (t := (s.setAdj d (s.meanAdj d)).nextFree) ((setAdj _).trans (of_words rfl rfl)) ?_
  exact setDom _ (by rfl) (by rfl)

theorem holdoverTold (hd : d < 2) : SampleStands d s (Machine.holdoverTold s d) :=
  ((setDomState 3).trans (timeRaise hd _)).trans (timeEvent hd _ _ _)

theorem failoverDue : SampleStands d s (Machine.failoverDue s d) := by
  unfold Machine.failoverDue
  split
  · exact failTo _
  · exact refl

theorem enterHoldover (hd : d < 2) : SampleStands d s (s.enterHoldover d) := by
  by_cases h : s.domState d = 2
  · rw [enterHoldover_eq h]
    exact (frozen.trans (holdoverTold hd)).trans failoverDue
  · rw [enterHoldover_other h]
    exact refl

/-- A large or small offset steps or steers the domain. -/
theorem stepOrSteer (hd : d < 2) (p : Prop) [Decidable p] (o : Int) : SampleStands d s (if p then s.stepDom d (-o) else s.servo d o) := by
  split
  · exact stepDom hd _
  · exact servo _

theorem acquires (hd : d < 2) (o : Int) : SampleStands d s (s.sampleAcquire d o) := by
  unfold sampleAcquire
  dsimp only
  have steered : SampleStands d s (if (decide (s.fld (Reg.DOM_STEP_NS d) < o.natAbs) && !(s.dom d).stepped) = true then
      (s.stepDom d (-o)).setDom d { (s.stepDom d (-o)).dom d with stepped := true } else s.servo d o) := by
    split
    · exact (stepDom hd _).trans (setDom _ (by rfl) (by rfl))
    · exact servo _
  generalize (if (decide (s.fld (Reg.DOM_STEP_NS d) < o.natAbs) && !(s.dom d).stepped) = true then _ else s.servo d o) = v at steered ⊢
  have counts : SampleStands d s (v.setDom d { v.dom d with good := (v.dom d).good + 1 }) := steered.trans (setDom _ (by rfl) (by rfl))
  split
  · exact counts.trans lockDom
  · exact counts

theorem locked (hd : d < 2) (o : Int) : SampleStands d s (s.sampleLocked d o) := by
  unfold sampleLocked
  dsimp only
  split
  · have glitch : SampleStands d s ((s.setDom d { s.dom d with glitches := (s.dom d).glitches + 1 }).count (Reg.PTP_GLITCH d)) :=
      (setDom _ (by rfl) (by rfl)).trans (of_words rfl (State.word_count _ _ (by simp only [Reg.PTP_GLITCH]; omega)))
    split
    · exact glitch.trans (enterHoldover hd)
    · exact glitch
  · have noted : SampleStands d s ((s.setDom d { s.dom d with glitches := 0 }).noteSample d o) :=
      (setDom _ (by rfl) (by rfl)).trans (noteSample o)
    split
    · exact noted.trans (enterHoldover hd)
    · exact noted.trans (servo o)

theorem holdsOver (hd : d < 2) (o : Int) : SampleStands d s (s.sampleHoldover d o) := by
  unfold sampleHoldover
  dsimp only
  have noted : SampleStands d s ((s.setDom d { s.dom d with good := (s.dom d).good + 1 }).noteSample d o) :=
    (setDom _ (by rfl) (by rfl)).trans (noteSample o)
  split
  · exact ((noted.trans (stepOrSteer hd _ o)).trans lockDom).trans (timeEvent hd _ _ _)
  · exact noted

end SampleStands

/-- A sample shows its offset, and leaves the times it came from (R117). -/
theorem sample_stands {d : Nat} (hd : d < 2) (o : Int) : SampleStands d (s.setFld (Reg.DOM_OFFSET d) (wrap 32 o)) (s.sample d o) := by
  unfold sample
  dsimp only
  split
  · exact (SampleStands.noteSample o).trans (SampleStands.acquires hd o)
  · exact SampleStands.locked hd o
  · exact SampleStands.holdsOver hd o
  · exact SampleStands.refl

/-! ### Messages (R117, R119) -/

theorem exec_ptpMessageRx (e : Fin 2) (msg : PtpMsg) (s : State) : exec (.ptpMessageRx e msg) s = .next (
    if s.replaying || !s.flag (Reg.PTP_EN e) then s else if msg.domain ≠ s.fld (Reg.PTP_DOMAIN e) then s else s.ptpReceive e msg) := rfl

section

variable {e : Fin 2} {msg : PtpMsg}

theorem ptpMessageRx_ignored (h : s.flag (Reg.PTP_EN e) = false ∨ msg.domain ≠ s.fld (Reg.PTP_DOMAIN e)) :
    exec (.ptpMessageRx e msg) s = .next s := by
  rw [exec_ptpMessageRx]
  rcases h with h | h
  · rw [h, Bool.not_false, Bool.or_true, if_pos rfl]
  · rw [if_pos h, ite_self]

theorem ptpMessageRx_received (hr : s.replaying = false) (hen : s.flag (Reg.PTP_EN e) = true) (hd : msg.domain = s.fld (Reg.PTP_DOMAIN e)) :
    exec (.ptpMessageRx e msg) s = .next (s.ptpReceive e msg) := by
  rw [exec_ptpMessageRx, hr, hen, if_neg (by decide), if_neg fun h => h hd]

/-! What a received message does, by its kind. -/

theorem receive_unsupported (hk : msg.kind = .unsupported) : s.ptpReceive e msg = s.count (Reg.PTP_IGNORED e) := by
  unfold ptpReceive
  rw [hk]

theorem receive_oneStep (hk : msg.kind = .sync) (hs : s.ptpSlave e = true) (h2 : msg.twoStep = false) :
    s.ptpReceive e msg = s.ptpSample e ((msg.time : Int) + msg.corr) (s.fullNs e) := by
  unfold ptpReceive
  rw [hk]
  simp only [hs, h2, Bool.not_true, Bool.false_eq_true, if_false]

theorem receive_twoStep (hk : msg.kind = .sync) (hs : s.ptpSlave e = true) (h2 : msg.twoStep = true) :
    s.ptpReceive e msg = s.setDom e { s.dom e with syncWait := some (msg.seq, s.fullNs e) } := by
  unfold ptpReceive
  rw [hk]
  simp only [hs, h2, Bool.not_true, Bool.false_eq_true, if_false, if_true]

theorem receive_delayResp {t1 t2 : Int} {t3 : Nat} (hk : msg.kind = .delayResp) (hq : (s.dom e).reqWait = some (msg.seq, t3))
    (ht : (s.dom e).lastT1T2 = some (t1, t2)) : s.ptpReceive e msg =
      s.setDom e { s.dom e with reqWait := none, meanDelay := ((t2 - t1) + ((msg.time : Int) - msg.corr - t3)).fdiv 2 } := by
  unfold ptpReceive
  rw [hk]
  simp only [hq, ht, if_true]

theorem receive_delayReq (hk : msg.kind = .delayReq) (hm : s.ptpMaster e = true) :
    s.ptpReceive e msg = s.setDom e { s.dom e with lastSent := some (.delayResp, msg.seq, s.fullNs e) } := by
  unfold ptpReceive
  rw [hk]
  simp only [hm, if_true]
  rfl

theorem quiet_ignored : ∀ e : Fin 2, quiet (Reg.PTP_IGNORED e).addr = false := by decide +kernel

theorem count_ignored (e : Fin 2) (s : State) :
    (s.count (Reg.PTP_IGNORED e)).fld (Reg.PTP_IGNORED e) = min (s.fld (Reg.PTP_IGNORED e) + 1) 65535 :=
  State.fld_count_same 1 (show 0 ≤ 15 by decide) (show 15 < 32 by decide)

/-- A sample is offered: DOM_OFFSET shows t2 − t1 − meanPathDelay (R117). -/
theorem ptpSample_shows (e : Fin 2) (t1 t2 : Int) :
    (s.ptpSample e t1 t2).fld (Reg.DOM_OFFSET e) = ((t2 - t1 - (s.dom e).meanDelay) % 2 ^ 32).toNat ∧
    ((s.ptpSample e t1 t2).dom e).lastT1T2 = some (t1, t2) ∧ ((s.ptpSample e t1 t2).dom e).meanDelay = (s.dom e).meanDelay := by
  unfold ptpSample
  dsimp only
  rw [dom_setDom_same]
  generalize hv : s.setDom e { s.dom e with lastT1T2 := some (t1, t2), syncWait := none } = v
  have hd : v.dom e = { s.dom e with lastT1T2 := some (t1, t2), syncWait := none } := by rw [← hv, dom_setDom_same]
  have st := sample_stands (s := v) e.isLt (t2 - t1 - (s.dom e).meanDelay)
  refine ⟨?_, ?_, ?_⟩
  · rw [st.offset, State.fld_setFld_same _ (Reg.DOM_OFFSET e.val) _ (show 0 ≤ 31 by decide) (show 31 < 32 by decide)]
    have hlt : wrap 32 (t2 - t1 - (s.dom e).meanDelay) < 2 ^ 32 := by
      unfold wrap
      have := Int.emod_lt_of_pos (t2 - t1 - (s.dom e).meanDelay) (show (0 : Int) < ((2 ^ 32 : Nat) : Int) by decide)
      omega
    exact (Nat.mod_eq_of_lt hlt).trans rfl
  · rw [st.times]
    exact congrArg Dom.lastT1T2 hd
  · rw [st.delay]
    exact (congrArg Dom.meanDelay hd :)

theorem ptpMessageRx_effect (e : Fin 2) (msg : PtpMsg) (s : State) (hr : s.replaying = false) :
    (s.flag (Reg.PTP_EN e) = false ∨ msg.domain ≠ s.fld (Reg.PTP_DOMAIN e) → exec (.ptpMessageRx e msg) s = .next s) ∧
    (s.flag (Reg.PTP_EN e) = true → msg.domain = s.fld (Reg.PTP_DOMAIN e) →
      (msg.kind = .unsupported → Completes (.ptpMessageRx e msg) s fun t =>
        t.fld (Reg.PTP_IGNORED e) = min (s.fld (Reg.PTP_IGNORED e) + 1) 65535 ∧ Frame [] [0x20214 + 0x80 * e.val] s t) ∧
      (msg.kind = .sync → s.ptpSlave e = true → msg.twoStep = false → Completes (.ptpMessageRx e msg) s fun t =>
        t.fld (Reg.DOM_OFFSET e) =
          (((s.fullNs e : Int) - ((msg.time : Int) + msg.corr) - (s.dom e).meanDelay) % 2 ^ 32).toNat ∧
        (t.dom e).lastT1T2 = some ((msg.time : Int) + msg.corr, (s.fullNs e : Int)) ∧ (t.dom e).meanDelay = (s.dom e).meanDelay) ∧
      (msg.kind = .sync → s.ptpSlave e = true → msg.twoStep = true → Completes (.ptpMessageRx e msg) s fun t =>
        t.dom e = { s.dom e with syncWait := some (msg.seq, s.fullNs e) } ∧ Frame [.time] [] s t) ∧
      (∀ (t1 t2 : Int) (t3 : Nat), msg.kind = .delayResp → (s.dom e).reqWait = some (msg.seq, t3) → (s.dom e).lastT1T2 = some (t1, t2) →
        Completes (.ptpMessageRx e msg) s fun t =>
          t.dom e = { s.dom e with reqWait := none, meanDelay := ((t2 - t1) + ((msg.time : Int) - msg.corr - t3)).fdiv 2 } ∧
          Frame [.time] [] s t) ∧
      (msg.kind = .delayReq → s.ptpMaster e = true → Completes (.ptpMessageRx e msg) s fun t =>
        t.dom e = { s.dom e with lastSent := some (.delayResp, msg.seq, s.fullNs e) } ∧ Frame [.time] [] s t)) := by
  refine ⟨ptpMessageRx_ignored, fun hen hd => ?_⟩
  have he := ptpMessageRx_received hr hen hd
  refine ⟨fun hk => ?_, fun hk hs h2 => ?_, fun hk hs h2 => ?_, fun t1 t2 t3 hk hq ht => ?_, fun hk hm => ?_⟩
  · rw [receive_unsupported hk] at he
    exact ⟨_, he, count_ignored e s, Frame.count _ 1 (List.mem_singleton.mpr rfl) (quiet_ignored e) (by simp only [Reg.PTP_IGNORED]; omega)⟩
  · rw [receive_oneStep hk hs h2] at he
    exact ⟨_, he, ptpSample_shows e _ _⟩
  · rw [receive_twoStep hk hs h2] at he
    exact ⟨_, he, dom_setDom_same _ _ _, frame_setDom _ _ (by decide)⟩
  · rw [receive_delayResp hk hq ht] at he
    exact ⟨_, he, dom_setDom_same _ _ _, frame_setDom _ _ (by decide)⟩
  · rw [receive_delayReq hk hm] at he
    exact ⟨_, he, dom_setDom_same _ _ _, frame_setDom _ _ (by decide)⟩

/-! ### Sent messages (R119) -/

/-- Engine `e` has sent a message of `kind`. -/
def messageSent (s : State) (e : Nat) (kind : PtpKind) : State :=
  s.setDom e { s.dom e with txSeq := ((s.dom e).txSeq + 1) % 65536, lastSent := some (kind, (s.dom e).txSeq, s.fullNs e) }

/-- A delay exchange has started with the message just sent. -/
def exchangeStarted (s v : State) (e : Nat) : State :=
  v.setDom e { v.dom e with reqWait := some ((s.dom e).txSeq, s.fullNs e), peerWait := none }

theorem ptpMessageTx_eq (e : Fin 2) (kind : PtpKind) (hr : s.replaying = false) (hen : s.flag (Reg.PTP_EN e) = true) :
    exec (.ptpMessageTx e kind) s = .next (if kind = .delayReq ∨ kind = .pdelayReq then exchangeStarted s (messageSent s e kind) e
      else messageSent s e kind) := by
  refine congrArg _ ((if_neg (by rw [hr, hen]; decide)).trans ?_)
  cases kind <;> rfl

theorem ptpMessageTx_effect (e : Fin 2) (kind : PtpKind) (s : State) (hr : s.replaying = false) (hen : s.flag (Reg.PTP_EN e) = true) :
    Completes (.ptpMessageTx e kind) s fun t =>
      t.dom e = { s.dom e with txSeq := ((s.dom e).txSeq + 1) % 65536, lastSent := some (kind, (s.dom e).txSeq, s.fullNs e), reqWait := (if kind = .delayReq ∨ kind = .pdelayReq then some ((s.dom e).txSeq, s.fullNs e) else (s.dom e).reqWait), peerWait := (if kind = .delayReq ∨ kind = .pdelayReq then none else (s.dom e).peerWait) } ∧
      t.dom (1 - e.val) = s.dom (1 - e.val) ∧ Frame [.time] [] s t := by
  unfold Completes
  rw [ptpMessageTx_eq e kind hr hen]
  have hd : (messageSent s e kind).dom e = _ := dom_setDom_same s e.val _
  have ho : (messageSent s e kind).dom (1 - e.val) = s.dom (1 - e.val) := dom_setDom_other _ _ (by omega)
  have hf : Frame [.time] [] s (messageSent s e kind) := frame_setDom _ _ (by decide)
  by_cases hk : kind = .delayReq ∨ kind = .pdelayReq
  · simp only [if_pos hk]
    refine ⟨_, rfl, (dom_setDom_same _ _ _).trans (by rw [hd]), (dom_setDom_other _ _ (by omega)).trans ho, hf.trans (frame_setDom _ _ (by decide))⟩
  · simp only [if_neg hk]
    exact ⟨_, rfl, hd, ho, hf⟩

end

end Sys2Proof.Machine
end

section
/-! PROOFS. O32, timestamps: the queues, the capture pins and the output pins (R121 to R124). -/

namespace Sys2Proof.Machine

open State

variable {s t u : State} {ps : List Part} {as : List Nat} {i : Fin 16}

/-! ### Queues (R122) -/

theorem exec_etsPop (m : Fin 32) (q : Fin 2) (s : State) : exec (.etsPop m q) s = execEtsPop m q s := rfl

theorem exec_evtPop (m : Fin 32) (i : Fin 16) (s : State) : exec (.evtPop m i) s = execEvtPop m i s := rfl

theorem etsPop_word : ∀ q : Fin 2, calm (0x2030C + 0x20 * q.val) = true ∧
    ((fieldsAt (0x2030C + 0x20 * q.val)).all fun (f : FieldDesc) => decide (f.cls ≠ .x)) = true := by decide +kernel

theorem evtPop_word : ∀ i : Fin 16, calm (0x1FE024 + 0x40 * i.val) = true ∧
    ((fieldsAt (0x1FE024 + 0x40 * i.val)).all fun (f : FieldDesc) => decide (f.cls ≠ .x)) = true := by decide +kernel

theorem etsQueue_congr (e : t.time = s.time) (q : Nat) : t.etsQueue q = s.etsQueue q := by
  unfold etsQueue
  rw [e]

theorem evtPin_congr (e : t.time = s.time) (j : Nat) : t.evtPin j = s.evtPin j := by
  unfold evtPin
  rw [e]

theorem frame_setEvtPin (j : Nat) (x : EvtPin) (hp : Part.time ∈ ps) : Frame ps as s (s.setEvtPin j x) := frame_time _ hp

theorem etsPop_effect (m : Fin 32) (q : Fin 2) (s : State) (hm : s.mayWrite m.val (0x2030C + 0x20 * q.val) .plain = true) :
    Completes (.etsPop m q) s fun t =>
      t.etsQueue q = (s.etsQueue q).tail ∧ t.etsQueue (1 - q.val) = s.etsQueue (1 - q.val) ∧ Frame [.time] [0x2030C + 0x20 * q.val] s t := by
  obtain ⟨w, u, -, hu, he⟩ := write_etsPop m q hm
  have time : u.time = s.time := hu.keeps.same .time rfl
  obtain ⟨hc, hx⟩ := etsPop_word q
  refine ⟨_, (exec_etsPop m q s).trans he, ?_, ?_, (Frame.of_wrote_free hu (List.mem_singleton.mpr rfl) hc hx).trans (frame_time _ (by decide))⟩
  · rw [← etsQueue_congr time]
    exact SMap.get_set_same ..
  · rw [← etsQueue_congr time]
    exact SMap.get_set_other _ _ (by omega)

theorem evtPop_effect (m : Fin 32) (i : Fin 16) (s : State) (hm : s.mayWrite m.val (0x1FE024 + 0x40 * i.val) .plain = true) :
    Completes (.evtPop m i) s fun t =>
      t.evtPin i = { s.evtPin i with queue := (s.evtPin i).queue.tail } ∧ (∀ j, j ≠ i.val → t.evtPin j = s.evtPin j) ∧
      Frame [.time] [0x1FE024 + 0x40 * i.val] s t := by
  obtain ⟨w, u, -, hu, he⟩ := write_evtPop m i hm
  have time : u.time = s.time := hu.keeps.same .time rfl
  obtain ⟨hc, hx⟩ := evtPop_word i
  refine ⟨_, (exec_evtPop m i s).trans he, ?_, fun j hj => ?_,
    (Frame.of_wrote_free hu (List.mem_singleton.mpr rfl) hc hx).trans (frame_setEvtPin _ _ (by decide))⟩
  · rw [evtPin_setEvtPin_same, evtPin_congr time]
  · rw [evtPin_setEvtPin_other _ _ hj, evtPin_congr time]

/-! ### Accepted edges (R121, R123) -/

theorem exec_evtEdge (i : Fin 16) (rising : Bool) (s : State) : exec (.evtEdge i rising) s = .next (
    if s.replayMode then s
    else if s.fld (Reg.EVT_MODE i) = 1 ∧ edgeSelected (s.fld (Reg.EVT_EDGE i)) rising then s.evtEdge i rising (s.fld (Reg.EVT_FILTER i))
    else s) := rfl

/-- The time an accepted edge is stamped with: the selected domain's, without a filter delay (R121). -/
def edgeTime (s : State) : Nat := wrap 104 (s.dom s.sel).count / 2 ^ 40 % 2 ^ 48

/-- The pin numbers its edge. -/
def edgeCounted (s : State) (i : Nat) : State := s.setEvtPin i { s.evtPin i with id := ((s.evtPin i).id + 1) % 256 }

/-- The edge is queued with its time. -/
def edgeQueued (s v : State) (i : Nat) (rising : Bool) : State :=
  v.setEvtPin i { v.evtPin i with
    queue := (s.evtPin i).queue ++ [mkStamp (s.evtPin i).id (s.sel + 1) (b01 rising) (edgeTime s)] }

/-- The edge is posted (R88). -/
def edgePosted (s v : State) (i : Nat) (rising : Bool) : State :=
  (v.post 0x0B i (b01 rising) (edgeTime s + (s.evtPin i).id <<< 56)).nextFree

theorem evtEdge_eq {i : Nat} (hd : s.fld (Reg.EVT_DOMAIN i) = 0) (rising : Bool) : s.evtEdge i rising 0 = edgePosted s
    (if (s.evtPin i).queue.length < 16 then edgeQueued s (edgeCounted s i) i rising else (edgeCounted s i).count (Reg.EVT_DROPPED i)) i rising := by
  have hdom : s.evtDom i = s.sel := by
    simp only [evtDom, hd]
  have ht : (wrap 104 (((s.dom s.sel).count : Int) - (0 : Nat) * (s.effInc s.sel).1)) >>> 40 % 2 ^ 48 = edgeTime s := by
    rw [edgeTime, Nat.shiftRight_eq_div_pow, Int.natCast_zero, zero_mul, sub_zero]
  unfold State.evtEdge
  dsimp only
  rw [hdom, ht]
  rfl

theorem time_edgePosted (v : State) (i : Nat) (rising : Bool) : (edgePosted s v i rising).time = v.time :=
  (keeps_post (L := 16648) 0x0B i (b01 rising) _ Keeps.refl rfl).same .time rfl

theorem frame_edgePosted (v : State) (i : Nat) (rising : Bool) (hf : Part.fresh ∈ ps) : Frame ps as v (edgePosted s v i rising) :=
  (Frame.post _ _ _ _).trans (frame_nextFree hf)

theorem dropped_word : ∀ i : Fin 16, calm (Reg.EVT_DROPPED i).addr = true ∧ quiet (Reg.EVT_DROPPED i).addr = false := by decide +kernel

theorem evtEdge_selected {rising : Bool} (hr : s.replayMode = false) (hm : s.fld (Reg.EVT_MODE i) = 1)
    (hs : edgeSelected (s.fld (Reg.EVT_EDGE i)) rising = true) (hf : s.fld (Reg.EVT_FILTER i) = 0) (hd : s.fld (Reg.EVT_DOMAIN i) = 0) :
    exec (.evtEdge i rising) s = .next (edgePosted s (if (s.evtPin i).queue.length < 16 then edgeQueued s (edgeCounted s i) i rising
      else (edgeCounted s i).count (Reg.EVT_DROPPED i)) i rising) := by
  rw [exec_evtEdge, hr, if_neg Bool.false_ne_true, if_pos ⟨hm, hs⟩, hf, evtEdge_eq hd]

theorem evtEdge_ignored {rising : Bool} (hs : edgeSelected (s.fld (Reg.EVT_EDGE i)) rising = false) :
    exec (.evtEdge i rising) s = .next s := by
  rw [exec_evtEdge, if_neg fun h : _ ∧ _ => absurd (hs.symm.trans h.2) Bool.false_ne_true, ite_self]

theorem evtEdge_effect (i : Fin 16) (s : State) (rising : Bool) (hr : s.replayMode = false) (hm : s.fld (Reg.EVT_MODE i) = 1) :
    (edgeSelected (s.fld (Reg.EVT_EDGE i)) rising = true → s.fld (Reg.EVT_FILTER i) = 0 → s.fld (Reg.EVT_DOMAIN i) = 0 →
      ((s.evtPin i).queue.length < 16 → Completes (.evtEdge i rising) s fun t =>
        t.evtPin i = { s.evtPin i with
          id := ((s.evtPin i).id + 1) % 256, queue := (s.evtPin i).queue ++ [State.mkStamp (s.evtPin i).id (s.sel + 1) (b01 rising) (wrap 104 (s.dom s.sel).count / 2 ^ 40 % 2 ^ 48)] } ∧
        (∀ j, j ≠ i.val → t.evtPin j = s.evtPin j) ∧ Frame [.time, .fresh] [] s t) ∧
      (16 ≤ (s.evtPin i).queue.length → Completes (.evtEdge i rising) s fun t =>
        t.fld (Reg.EVT_DROPPED i) = min (s.fld (Reg.EVT_DROPPED i) + 1) 65535 ∧
        t.evtPin i = { s.evtPin i with id := ((s.evtPin i).id + 1) % 256 } ∧ Frame [.time, .fresh] [0x1FE020 + 0x40 * i.val] s t)) ∧
    (edgeSelected (s.fld (Reg.EVT_EDGE i)) rising = false → exec (.evtEdge i rising) s = .next s) := by
  refine ⟨fun hs hf hd => ?_, evtEdge_ignored⟩
  have he := evtEdge_selected hr hm hs hf hd
  have hc : (edgeCounted s i).evtPin i = { s.evtPin i with id := ((s.evtPin i).id + 1) % 256 } := evtPin_setEvtPin_same _ _ _
  constructor
  · intro hq
    rw [if_pos hq] at he
    refine ⟨_, he, ?_, fun j hj => ?_, ((frame_setEvtPin _ _ (by decide)).trans (frame_setEvtPin _ _ (by decide))).trans
      (frame_edgePosted _ _ _ (by decide))⟩
    · rw [evtPin_congr (time_edgePosted _ _ _), edgeQueued, evtPin_setEvtPin_same, hc]
      rfl
    · rw [evtPin_congr (time_edgePosted _ _ _), edgeQueued, evtPin_setEvtPin_other _ _ hj, edgeCounted, evtPin_setEvtPin_other _ _ hj]
  · intro hq
    rw [if_neg (Nat.not_lt.mpr hq)] at he
    obtain ⟨hcalm, hquiet⟩ := dropped_word i
    refine ⟨_, he, ?_, ?_, ((frame_setEvtPin _ _ (by decide)).trans (Frame.count _ 1 (List.mem_singleton.mpr rfl) hquiet (by
      simp only [Reg.EVT_DROPPED]
      omega))).trans (frame_edgePosted _ _ _ (by decide))⟩
    · refine Eq.trans (State.fld_of_word (State.word_post _ _ _ _ hcalm)) ?_
      exact State.fld_count_same (f := Reg.EVT_DROPPED i.val) 1 (show 16 ≤ 31 by decide) (show 31 < 32 by decide)
    · rw [evtPin_congr (time_edgePosted _ _ _)]
      exact hc

/-! ### Output edges (R124) -/

/-- A due output is asserted until its width has passed. -/
def outputRaised (s : State) (i n : Nat) : State :=
  s.setEvtPin i { s.evtPin i with
    asserted := true, armed := (s.evtPin i).armed && !decide (s.fld (Reg.EVT_MODE i) = 2), endAt := n + s.evtWidth i
    nextAt := match s.fld (Reg.EVT_MODE i) with
      | 3 => n + s.evtPeriod i
      | 4 => s.tide + 1
      | 5 => n / 1000000000 + 1
      | _ => (s.evtPin i).nextAt }

/-- The pin is deasserted. -/
def outputLowered (s : State) (i : Nat) : State := s.setEvtPin i { s.evtPin i with asserted := false }

theorem exec_evtOutputEdge (i : Fin 16) (up : Bool) (s : State) : exec (.evtOutputEdge i up) s = .next (s.evtOutput i up) := rfl

theorem evtOutput_raises {i n : Nat} (hd : s.evtDue i = some n) (hp : s.fld (Reg.EVT_PAD_FAULT i) = 0) (ho : s.flag (Reg.EVT_OWN i) = false) :
    s.evtOutput i true = outputRaised s i n := by
  have own : (outputRaised s i n).flag (Reg.EVT_OWN i) = false := ho
  unfold evtOutput
  simp only [hd, hp, if_true, decide_true]
  exact if_neg (by
    show ¬ (outputRaised s i n).flag (Reg.EVT_OWN i) = true
    rw [own]
    exact Bool.false_ne_true)

theorem evtOutput_notDue {i : Nat} (hd : s.evtDue i = none) : s.evtOutput i true = s := by
  unfold evtOutput
  simp only [hd, if_true]

theorem evtOutput_lowers {i : Nat} (ha : (s.evtPin i).asserted = true) (he : (s.evtPin i).endAt ≤ s.evtNow i)
    (ho : s.flag (Reg.EVT_OWN i) = false) : s.evtOutput i false = outputLowered s i := by
  have own : (outputLowered s i).flag (Reg.EVT_OWN i) = false := ho
  unfold evtOutput
  simp only [Bool.false_eq_true, if_false]
  rw [if_pos ⟨ha, he⟩]
  exact if_neg (by
    show ¬ (outputLowered s i).flag (Reg.EVT_OWN i) = true
    rw [own]
    exact Bool.false_ne_true)

theorem evtOutputEdge_effect (i : Fin 16) (s : State) :
    (∀ n, s.evtDue i = some n → s.fld (Reg.EVT_PAD_FAULT i) = 0 → s.flag (Reg.EVT_OWN i) = false →
      Completes (.evtOutputEdge i true) s fun t =>
        (t.evtPin i).asserted = true ∧ (t.evtPin i).endAt = n + s.evtWidth i ∧ (t.evtPin i).queue = (s.evtPin i).queue ∧
        (s.fld (Reg.EVT_MODE i) = 2 → (t.evtPin i).armed = false) ∧
        (s.fld (Reg.EVT_MODE i) = 3 → (t.evtPin i).nextAt = n + max 100 (s.fld (Reg.EVT_PERIOD i))) ∧
        (∀ j, j ≠ i.val → t.evtPin j = s.evtPin j) ∧ Frame [.time] [] s t) ∧
    (s.evtDue i = none → exec (.evtOutputEdge i true) s = .next s) ∧
    ((s.evtPin i).asserted = true → (s.evtPin i).endAt ≤ s.evtNow i → s.flag (Reg.EVT_OWN i) = false →
      Completes (.evtOutputEdge i false) s fun t =>
        t.evtPin i = { s.evtPin i with asserted := false } ∧ (∀ j, j ≠ i.val → t.evtPin j = s.evtPin j) ∧ Frame [.time] [] s t) := by
  unfold Completes
  simp only [exec_evtOutputEdge]
  refine ⟨fun n hd hp ho => ?_, fun hd => by rw [evtOutput_notDue hd], fun ha he ho => ?_⟩
  · rw [evtOutput_raises hd hp ho]
    refine ⟨_, rfl, ?_⟩
    unfold outputRaised
    rw [evtPin_setEvtPin_same]
    refine ⟨rfl, rfl, rfl, fun h2 => ?_, fun h3 => ?_, fun j hj => evtPin_setEvtPin_other _ _ hj, frame_setEvtPin _ _ (by decide)⟩
    · simp only [h2, decide_true, Bool.not_true, Bool.and_false]
    · simp only [h3, evtPeriod]
  · rw [evtOutput_lowers ha he ho]
    exact ⟨_, rfl, evtPin_setEvtPin_same _ _ _, fun j hj => evtPin_setEvtPin_other _ _ hj, frame_setEvtPin _ _ (by decide)⟩

end Sys2Proof.Machine
end

section
/-! PROOFS. O32, the writes with a class-T field or of a wide value: TIME_CTRL and EVT_GEN_TIME (R11, R59, R69, R108, R124). -/

namespace Sys2Proof.Machine

open State

variable {s t u w : State} {m i : Nat} {x : Txn}

/-- A permitted write of a register whose action nothing holds back: its WRITE record, then its value (R6, R11). -/
theorem controlWrite_value {a v n : Nat} {env : WriteEnv} (hm : s.mayWrite m a env = true) (ha : a % 4 = 0) (hl : a < 0x4000000)
    (hap : ¬(0x68000 ≤ a ∧ a < 0x69000)) (hf : (fieldsAt a).any isWritable = true) (hc : a ≠ 0x60100) (hw : ¬(0x1F8000 ≤ a ∧ a < 0x1F9000))
    (hn : wideOf a = (0, n)) : s.controlWrite m a 15 v env = (s.writeRec m a v 0).writeValue m a v n env := by
  unfold controlWrite
  rw [if_neg (by omega), if_pos hm]
  unfold performWrite
  rw [if_neg hap, hf, State.ignored, decide_eq_false hc, State.secondTarget, decide_eq_false fun h => hw ⟨h.1, h.2.1⟩, hn]
  simp only [Bool.not_true, Bool.false_and, Bool.or_false, Bool.false_eq_true, if_false, ne_eq, not_true_eq_false]

/-- A value none of whose class-X fields would change: its class-T parts have gone where they belong, in `t`; its other fields take theirs, then the register's action runs (R13). -/
theorem writeValue_free {a v n : Nat} {env : WriteEnv} (hx : onlyX (fieldsAt a) = false) (hch : w.changesX a v (fieldsAt a) = false)
    (ht : (if (dropHeld a n w).replaying then dropHeld a n w else (dropHeld a n w).writeT m (tWrites (w.wideWords a (clampWrite a v) n))) = t) :
    w.writeValue m a v n env = action w m a v env
      ((w.wideWords a (clampWrite a v) n).foldl (fun t p => putFields (w.xLocked a v) p.1 p.2 (fieldsAt p.1) t) t) := by
  unfold writeValue
  simp only [hx, hch, ht, Bool.and_false, Bool.false_eq_true, if_false]

/-! ### TIME_CTRL (R59, R69, R108) -/

theorem fieldsAt_timeCtrl : fieldsAt 0x20000 = [⟨2, 2, .rw, .l, 0⟩, ⟨1, 1, .rw, .t, 0⟩, ⟨0, 0, .rw, .l, 0⟩] := by decide +kernel

/-- TIME_CTRL takes FAILOVER and RUN; DOM_SEL goes to the open transaction `x` of slot `i`. -/
def ctrlTaken (w : State) (i v : Nat) (x : Txn) : State :=
  (((dropHeld 0x20000 1 w).setSlot i (some ((tWrites [(0x20000, v)]).foldl addWrite x))).setFld Reg.TIME_CTRL_FAILOVER (bits v 2 2)).setFld
    Reg.TIME_CTRL_RUN (bits v 0 0)

theorem action_timeCtrl {old : State} (v : Nat) (env : WriteEnv) : action old m 0x20000 v env s = s.runWritten old.running := by
  have hn : ctrlUnit 0x20000 = none := by decide +kernel
  unfold action
  rw [hn]
  simp only [show ¬(0x20000 = 0x104) by decide, show ¬(0x20000 = 0x200) by decide, show ¬(0x20000 < 0x10000) by decide,
    show ¬(0x20000 < 0x20000) by decide, show 0x20000 < 0x30000 by decide, if_false, if_true]
  exact if_pos rfl

theorem putFields_timeCtrl (v : Nat) : putFields false 0x20000 v [⟨2, 2, .rw, .l, 0⟩, ⟨1, 1, .rw, .t, 0⟩, ⟨0, 0, .rw, .l, 0⟩] s =
    (s.setFld Reg.TIME_CTRL_FAILOVER (bits v 2 2)).setFld Reg.TIME_CTRL_RUN (bits v 0 0) := rfl

/-- The record of the write of TIME_CTRL. -/
def ctrlRecorded (s : State) (m v : Nat) : State := s.writeRec m 0x20000 v 0

theorem timeCtrl_written {v : Nat} (hm : s.mayWrite m 0x20000 .plain = true) (hr : s.replaying = false) (ho : s.slotOf m = some (i, x)) :
    s.wordWrite m 0x20000 v = (ctrlTaken (ctrlRecorded s m v) i v x).runWritten (ctrlRecorded s m v).running := by
  have hw : Aside s (ctrlRecorded s m v) := aside_writeRec _ _ _ _
  have hrw : (dropHeld 0x20000 1 (ctrlRecorded s m v)).replaying = false :=
    (show (ctrlRecorded s m v).replaying = s.replaying by rw [State.replaying, State.replaying, hw.logState]).trans hr
  have hsys : (ctrlRecorded s m v).sys = s.sys := hw.keeps.same .sys rfl
  have hslot : (dropHeld 0x20000 1 (ctrlRecorded s m v)).slotOf m = some (i, x) := (slotOf_congr hsys m).trans ho
  have hch : (ctrlRecorded s m v).changesX 0x20000 v (fieldsAt 0x20000) = false := Frame.changesX_none (by decide +kernel) _
  have hws : clampWrite 0x20000 v = v := rfl
  have hT : (tWrites [(0x20000, v)]).isEmpty = false := by
    unfold tWrites
    simp only [List.flatMap_cons, List.flatMap_nil, fieldsAt_timeCtrl]
    rfl
  have hl : (ctrlRecorded s m v).xLocked 0x20000 v = false := rfl
  unfold wordWrite
  rw [controlWrite_value (n := 1) hm (by decide) (by decide) (by decide) (by decide +kernel) (by decide) (by decide) (by decide +kernel),
    ← ctrlRecorded, writeValue_free (by decide +kernel) hch rfl, wideWords_one, hws, hrw, writeT, hT, hslot]
  simp only [Bool.false_eq_true, if_false, List.foldl_cons, List.foldl_nil, fieldsAt_timeCtrl, hl, putFields_timeCtrl, action_timeCtrl, ctrlTaken]

/-! What the taken word leaves of the state before the write. -/

section

variable {v : Nat} (hs : Aside s w)

include hs

theorem time_ctrlTaken : (ctrlTaken w i v x).time = s.time := hs.keeps.same .time rfl

theorem sys_ctrlTaken : (ctrlTaken w i v x).sys = { s.sys with slots := (ctrlTaken w i v x).sys.slots } := by
  have e : w.sys = s.sys := hs.keeps.same .sys rfl
  rw [← e]
  rfl

theorem word_ctrlTaken {y : Nat} (hq : quiet y = true) (hy : y ≠ 0x20000) : (ctrlTaken w i v x).word y = s.word y := by
  unfold ctrlTaken
  rw [State.word_setFld _ _ _ _ hy, State.word_setFld _ _ _ _ hy]
  exact hs.word y hq

theorem domSel_ctrlTaken : (ctrlTaken w i v x).fld Reg.TIME_CTRL_DOM_SEL = s.fld Reg.TIME_CTRL_DOM_SEL := by
  unfold ctrlTaken
  rw [State.fld_setFld_bits _ Reg.TIME_CTRL_RUN Reg.TIME_CTRL_DOM_SEL _ rfl (by decide) (by decide) (by decide),
    State.fld_setFld_bits _ Reg.TIME_CTRL_FAILOVER Reg.TIME_CTRL_DOM_SEL _ rfl (by decide) (by decide) (by decide)]
  exact hs.fld _ (by decide)

end

theorem running_ctrlTaken (v : Nat) : (ctrlTaken w i v x).running = decide (bits v 0 0 ≠ 0) := by
  unfold ctrlTaken
  rw [State.running, State.flag, State.fld_setFld_same _ _ _ (by decide) (by decide)]
  rw [Nat.mod_eq_of_lt (show bits v 0 0 < 2 ^ (Reg.TIME_CTRL_RUN.hi + 1 - Reg.TIME_CTRL_RUN.lo) from bits_lt v 0 0)]

theorem failover_ctrlTaken (v : Nat) : (ctrlTaken w i v x).flag Reg.TIME_CTRL_FAILOVER = decide (bits v 2 2 ≠ 0) := by
  unfold ctrlTaken
  rw [State.flag, State.fld_setFld_bits _ Reg.TIME_CTRL_RUN Reg.TIME_CTRL_FAILOVER _ rfl (by decide) (by decide) (by decide), State.fld_setFld_same _ _ _ (by decide) (by decide)]
  rw [Nat.mod_eq_of_lt (show bits v 2 2 < 2 ^ (Reg.TIME_CTRL_FAILOVER.hi + 1 - Reg.TIME_CTRL_FAILOVER.lo) from bits_lt v 2 2)]

theorem frame_ctrlTaken {ps : List Part} {v : Nat} (hp : Part.sys ∈ ps) : Frame ps [0x20000] w (ctrlTaken w i v x) :=
  (((Frame.of_aside (clear_held w 0x20000) fun _ _ _ => rfl).trans (frame_sys _ hp)).trans (Frame.setFld _ _ (by decide))).trans
    (Frame.setFld _ _ (by decide))

/-- Where the words of the schedule agree, but perhaps TIME_CTRL, so does the first tide of a schedule that starts (R108). -/
theorem firstTide_congr (ht : t.time = s.time) (hw : ∀ y ∈ clockWords, y ≠ 0x20000 → t.word y = s.word y) :
    max t.anchor (t.firstTideAfter t.tideTime48) = max s.anchor (s.firstTideAfter s.tideTime48) := by
  have fld : ∀ f : Fld, f.addr ∈ clockWords → f.addr ≠ 0x20000 → t.fld f = s.fld f := fun f h1 h2 => State.fld_of_word (hw _ h1 h2)
  have anchor : t.anchor = s.anchor := fld2_of_word (hw _ (by decide) (by decide)) (hw _ (by decide) (by decide))
  have base : t.base = s.base := by
    rw [State.base, State.base, hw _ (by decide) (by decide), hw _ (by decide) (by decide), ht]
  have period : t.period = s.period := by
    rw [State.period, State.period, fld _ (by decide) (by decide), fld _ (by decide) (by decide), fld _ (by decide) (by decide)]
  have now : t.tideTime48 = s.tideTime48 := by
    rw [State.tideTime48, State.tideTime48, State.tideTime, State.tideTime, State.dom, State.dom, State.sel, State.sel,
      fld _ (by decide) (by decide), ht]
  rw [State.firstTideAfter, State.firstTideAfter, anchor, base, period, now]

/-! ### The schedule starts and stops (R69, R108) -/

theorem runWritten_starts (hu : u.running = true) (hq : u.sys.landq = []) :
    u.runWritten false = { u with time := { u.time with next := some (max u.anchor (u.firstTideAfter u.tideTime48)) } } := by
  unfold runWritten
  simp only [hu, hq, Bool.true_eq_false, if_false, if_true]
  rfl

theorem landQueued_none {at_ : Option Nat} {p : Commit → Bool} (hq : u.sys.landq = []) : u.landQueued at_ p = u := by
  have e : { u with sys := { u.sys with landq := [] } } = u := by rw [← hq]
  unfold landQueued
  simp only [hq, List.filter_nil, List.map_nil, e]
  rfl

theorem runWritten_stops (hu : u.running = false) (hq : u.sys.landq = []) :
    u.runWritten true = { u with time := { u.time with next := none } } := by
  unfold runWritten
  simp only [hu, Bool.false_eq_true, if_false]
  exact landQueued_none hq

theorem exec_runStart (m : Fin 32) (failover domSel : Bool) (s : State) : exec (.runStart m failover domSel) s =
    .next (s.wordWrite m 0x20000 (4 * b01 failover + 2 * b01 domSel + 1)) := rfl

theorem exec_runStop (m : Fin 32) (failover domSel : Bool) (s : State) : exec (.runStop m failover domSel) s =
    .next (s.wordWrite m 0x20000 (4 * b01 failover + 2 * b01 domSel)) := rfl

theorem runBits (failover domSel : Bool) :
    decide (bits (4 * b01 failover + 2 * b01 domSel + 1) 2 2 ≠ 0) = failover ∧ decide (bits (4 * b01 failover + 2 * b01 domSel + 1) 0 0 ≠ 0) = true ∧
    decide (bits (4 * b01 failover + 2 * b01 domSel) 2 2 ≠ 0) = failover ∧ decide (bits (4 * b01 failover + 2 * b01 domSel) 0 0 ≠ 0) = false := by
  revert failover domSel
  decide

/-- TIME_CTRL as a write of `v` leaves it, before the schedule follows. -/
structure CtrlWritten (s u : State) (v : Nat) : Prop where
  time : u.time = s.time
  sys : u.sys = { s.sys with slots := u.sys.slots }
  words : ∀ y ∈ clockWords, y ≠ 0x20000 → u.word y = s.word y
  domSel : u.fld Reg.TIME_CTRL_DOM_SEL = s.fld Reg.TIME_CTRL_DOM_SEL
  failover : u.flag Reg.TIME_CTRL_FAILOVER = decide (bits v 2 2 ≠ 0)
  running : u.running = decide (bits v 0 0 ≠ 0)
  frame : Frame [.time, .sys] [0x20000] s u

theorem ctrlWritten {v : Nat} (hm : s.mayWrite m 0x20000 .plain = true) (hr : s.replaying = false) (ho : (s.slotOf m).isSome) :
    ∃ u, CtrlWritten s u v ∧ s.wordWrite m 0x20000 v = u.runWritten s.running := by
  obtain ⟨⟨i, x⟩, hslot⟩ := Option.isSome_iff_exists.mp ho
  have hw : Aside s (ctrlRecorded s m v) := aside_writeRec _ _ _ _
  have hrun : (ctrlRecorded s m v).running = s.running := flag_of_fld (hw.fld _ (by decide))
  refine ⟨ctrlTaken (ctrlRecorded s m v) i v x, ?_, (timeCtrl_written hm hr hslot).trans (by rw [hrun])⟩
  exact ⟨time_ctrlTaken hw, sys_ctrlTaken hw, fun y hy hn => word_ctrlTaken hw (quiet_clockWords y hy) hn, domSel_ctrlTaken hw,
    failover_ctrlTaken v, running_ctrlTaken v, (Frame.writeRec _ _ _ _).trans (frame_ctrlTaken (by decide))⟩

theorem run_effect (m : Fin 32) (failover domSel : Bool) (s : State) (hm : s.mayWrite m.val 0x20000 .plain = true) (hr : s.replaying = false)
    (ho : (s.slotOf m.val).isSome) (hq : s.sys.landq = []) :
    (s.running = false → Completes (.runStart m failover domSel) s fun t =>
      t.running = true ∧ t.flag Reg.TIME_CTRL_FAILOVER = failover ∧ t.fld Reg.TIME_CTRL_DOM_SEL = s.fld Reg.TIME_CTRL_DOM_SEL ∧
      t.time = { s.time with next := some (max s.anchor (s.firstTideAfter s.tideTime48)) } ∧ t.sys = { s.sys with slots := t.sys.slots } ∧
      Frame [.time, .sys] [0x20000] s t) ∧
    (s.running = true → Completes (.runStop m failover domSel) s fun t =>
      t.running = false ∧ t.flag Reg.TIME_CTRL_FAILOVER = failover ∧ t.time = { s.time with next := none } ∧
      t.sys = { s.sys with slots := t.sys.slots } ∧ Frame [.time, .sys] [0x20000] s t) := by
  obtain ⟨f1, r1, f0, r0⟩ := runBits failover domSel
  unfold Completes
  rw [exec_runStart, exec_runStop]
  constructor
  · intro hoff
    obtain ⟨u, hu, he⟩ := ctrlWritten (v := 4 * b01 failover + 2 * b01 domSel + 1) hm hr ho
    have hlq : u.sys.landq = [] := by rw [hu.sys]; exact hq
    rw [he, hoff, runWritten_starts (hu.running.trans r1) hlq, firstTide_congr hu.time hu.words, hu.time]
    exact ⟨_, rfl, hu.running.trans r1, hu.failover.trans f1, hu.domSel, rfl, hu.sys, hu.frame.trans (frame_time _ (by decide))⟩
  · intro hon
    obtain ⟨u, hu, he⟩ := ctrlWritten (v := 4 * b01 failover + 2 * b01 domSel) hm hr ho
    have hlq : u.sys.landq = [] := by rw [hu.sys]; exact hq
    rw [he, hon, runWritten_stops (hu.running.trans r0) hlq, hu.time]
    exact ⟨_, rfl, hu.running.trans r0, hu.failover.trans f0, rfl, hu.sys, hu.frame.trans (frame_time _ (by decide))⟩

/-! ### EVT_GEN_TIME (R11, R124) -/

section

variable {i : Fin 16}

/-- EVT_GEN_TIME of pin `i`: its lowest word. -/
def genWord (i : Nat) : Nat := 0x1FE004 + 0x40 * i

theorem fieldsAt_genTime : ∀ i : Fin 16, fieldsAt (genWord i) = [⟨31, 0, .rw, .l, 0⟩] ∧ fieldsAt (genWord i + 4) = [⟨31, 0, .rw, .l, 0⟩] := by
  decide +kernel

theorem wideOf_genTime : ∀ i : Fin 16, wideOf (genWord i) = (0, 2) := by decide +kernel

theorem clampWrite_genTime (i : Fin 16) (v : Nat) : clampWrite (genWord i) v = v := by
  unfold clampWrite genWord
  simp (disch := omega) only [if_neg]

theorem action_genTime {old : State} (v : Nat) (env : WriteEnv) : action old m (genWord i) v env s = s.evtArm i := by
  have hi := i.isLt
  generalize ha : genWord i = a
  unfold genWord at ha
  have hn : ctrlUnit a = none := by
    unfold ctrlUnit
    simp (disch := omega) only [if_neg]
  unfold action
  rw [hn]
  dsimp only
  simp (disch := omega) only [if_neg]
  unfold gpioEvtAction
  dsimp only
  rw [show (a - 0x1FE000) / 0x40 = i.val by omega, show (a - 0x1FE000) % 0x40 = 4 by omega]
  simp (disch := omega) only [if_neg, if_true]

theorem putFields_word (lock : Bool) (a v : Nat) : putFields lock a v [⟨31, 0, .rw, .l, 0⟩] s = s.setFld ⟨a, 31, 0⟩ (bits v 31 0) := by
  cases lock <;> rfl

/-- Both words of EVT_GEN_TIME take theirs: the lowest one the written value, the upper one what it holds. -/
def genTaken (w : State) (i v : Nat) : State :=
  ((dropHeld (genWord i) 2 w).setFld ⟨genWord i, 31, 0⟩ (bits v 31 0)).setFld ⟨genWord i + 4, 31, 0⟩
    (bits (w.word (genWord i + 4)).toNat 31 0)

theorem held_writeRec (a v sub : Nat) : (s.writeRec m a v sub).held = s.held :=
  (keeps_writeRec (L := 148360) m a v sub Keeps.refl rfl).same .held rfl

theorem genTime_written {v : Nat} (hm : s.mayWrite m (genWord i) .plain = true) (hh : s.held.get (fun _ => none) (genWord i + 4) = none) :
    s.wordWrite m (genWord i) v = (genTaken (s.writeRec m (genWord i) v 0) i v).evtArm i := by
  obtain ⟨h0, h1⟩ := fieldsAt_genTime i
  have hwords : (s.writeRec m (genWord i) v 0).wideWords (genWord i) v 2 =
      [(genWord i, v), (genWord i + 4, ((s.writeRec m (genWord i) v 0).word (genWord i + 4)).toNat)] := by
    show [(genWord i, v), (genWord i + 4, (match (s.writeRec m (genWord i) v 0).held.get (fun _ => none) (genWord i + 4) with
      | some w => w | none => (s.writeRec m (genWord i) v 0).word (genWord i + 4)).toNat)] = _
    rw [held_writeRec, hh]
  have hch : (s.writeRec m (genWord i) v 0).changesX (genWord i) v (fieldsAt (genWord i)) = false := by
    rw [h0]
    rfl
  have hT : tWrites [(genWord i, v), (genWord i + 4, ((s.writeRec m (genWord i) v 0).word (genWord i + 4)).toNat)] = [] := by
    unfold tWrites
    simp only [List.flatMap_cons, List.flatMap_nil, h0, h1]
    rfl
  have lt := i.isLt
  unfold wordWrite
  rw [controlWrite_value hm (by unfold genWord; omega) (by unfold genWord; omega) (by unfold genWord; omega) (by rw [h0]; rfl)
    (by unfold genWord; omega) (by unfold genWord; omega) (wideOf_genTime i), writeValue_free (by rw [h0]; rfl) hch rfl,
    clampWrite_genTime, hwords, hT, writeT_nil]
  simp only [List.foldl_cons, List.foldl_nil, h0, h1, putFields_word, action_genTime, genTaken]

theorem addr_genHi (i : Nat) : Reg.EVT_GEN_TIME_HI i = ⟨genWord i + 4, 31, 0⟩ := by
  unfold Reg.EVT_GEN_TIME_HI genWord
  rw [Nat.add_right_comm]

/-- EVT_GEN_TIME of pin `i` as a write of its lowest word with `v` leaves it, before the pin is armed. -/
structure GenWritten (s u : State) (i v : Nat) : Prop where
  time : u.time = s.time
  low : u.fld (Reg.EVT_GEN_TIME_LO i) = bits v 31 0
  high : u.fld (Reg.EVT_GEN_TIME_HI i) = s.fld (Reg.EVT_GEN_TIME_HI i)
  config : u.word (0x1FE000 + 0x40 * i) = s.word (0x1FE000 + 0x40 * i)
  frame : Frame [.time] [0x1FE004 + 0x40 * i, 0x1FE008 + 0x40 * i] s u

theorem frame_genTaken {i v : Nat} : Frame [.time] [genWord i, genWord i + 4] w (genTaken w i v) := by
  have dropped : Frame [.time] [genWord i, genWord i + 4] w (dropHeld (genWord i) 2 w) :=
    Frame.of_aside (aside_held _) fun _ _ _ => rfl
  have low := dropped.trans (Frame.setFld ⟨genWord i, 31, 0⟩ (bits v 31 0) (by simp))
  exact low.trans (Frame.setFld ⟨genWord i + 4, 31, 0⟩ _ (by simp))

theorem genTime_words : ∀ i : Fin 16, quiet (0x1FE000 + 0x40 * i.val) = true ∧ quiet (genWord i + 4) = true := by decide +kernel

theorem genWritten {v : Nat} (hm : s.mayWrite m (genWord i) .plain = true) (hh : s.held.get (fun _ => none) (genWord i + 4) = none) :
    ∃ u, GenWritten s u i v ∧ s.wordWrite m (genWord i) v = u.evtArm i := by
  refine ⟨genTaken (s.writeRec m (genWord i) v 0) i v, ?_, genTime_written hm hh⟩
  have hw : Aside s (s.writeRec m (genWord i) v 0) := aside_writeRec _ _ _ _
  obtain ⟨hq0, hq8⟩ := genTime_words i
  have frame : Frame [.time] [genWord i, genWord i + 4] s (genTaken (s.writeRec m (genWord i) v 0) i v) :=
    (Frame.writeRec m (genWord i) v 0).trans frame_genTaken
  generalize s.writeRec m (genWord i) v 0 = w at hw frame
  refine ⟨hw.keeps.same .time rfl, ?_, ?_, ?_, by rwa [genWord, Nat.add_right_comm] at frame⟩
  · unfold genTaken
    rw [State.fld_setFld_addr _ ⟨genWord i + 4, 31, 0⟩ (Reg.EVT_GEN_TIME_LO i) _ (show genWord i ≠ genWord i + 4 by omega)]
    refine (State.fld_setFld_same _ ⟨genWord i, 31, 0⟩ _ (show 0 ≤ 31 by decide) (show 31 < 32 by decide)).trans ?_
    exact Nat.mod_eq_of_lt (bits_lt v 31 0)
  · rw [addr_genHi, genTaken, State.fld_setFld_same _ ⟨genWord i + 4, 31, 0⟩ _ (show 0 ≤ 31 by decide) (show 31 < 32 by decide)]
    refine (Nat.mod_eq_of_lt (bits_lt _ 31 0)).trans ?_
    exact hw.fld ⟨genWord i + 4, 31, 0⟩ hq8
  · unfold genTaken
    rw [State.word_setFld _ _ _ _ (by show _ ≠ genWord i + 4; unfold genWord; omega),
      State.word_setFld _ _ _ _ (by show _ ≠ genWord i; unfold genWord; omega)]
    exact hw.word _ hq0

/-- A one-shot time of an output pin in domain A: the pin is armed, or has missed it (R124). -/
theorem evtArm_oneShot {u : State} {i n : Nat} (hm : u.fld (Reg.EVT_MODE i) = 2) (hd : u.fld (Reg.EVT_DOMAIN i) = 1)
    (hn : n = nearestFull (u.fullNs 0) (u.fld (Reg.EVT_GEN_TIME_LO i) + u.fld (Reg.EVT_GEN_TIME_HI i) % 65536 * 2 ^ 32)) :
    u.evtArm i = if n ≤ u.fullNs 0 then (u.setBitsOf (Reg.EVT_MISSED i).addr 256).setEvtPin i { u.evtPin i with armed := false }
      else u.setEvtPin i { u.evtPin i with armed := true, nextAt := n } := by
  have hdom : u.evtDom i = 0 := by simp only [evtDom, hd]
  rw [← Nat.shiftLeft_eq] at hn
  unfold evtArm
  simp only [hdom, hm, ← hn]

theorem exec_evtGenTime (m : Fin 32) (i : Fin 16) (lo : Word) (s : State) :
    exec (.evtGenTime m i lo) s = .next (s.wordWrite m (genWord i) lo.toNat) := rfl

theorem missed_word : ∀ i : Fin 16, calm (Reg.EVT_MISSED i).addr = true ∧ quiet (Reg.EVT_MISSED i).addr = false := by decide +kernel

theorem evtGenTime_effect (m : Fin 32) (i : Fin 16) (s : State) (lo : Word) (n : Nat)
    (hm : s.mayWrite m.val (0x1FE004 + 0x40 * i.val) .plain = true) (h2 : s.fld (Reg.EVT_MODE i) = 2) (hd : s.fld (Reg.EVT_DOMAIN i) = 1)
    (hh : s.held.get (fun _ => none) (0x1FE008 + 0x40 * i.val) = none)
    (hn : n = State.nearestFull (s.fullNs 0) (lo.toNat + s.fld (Reg.EVT_GEN_TIME_HI i) % 65536 * 2 ^ 32)) :
    (s.fullNs 0 < n → Completes (.evtGenTime m i lo) s fun t =>
      t.evtPin i = { s.evtPin i with armed := true, nextAt := n } ∧ (∀ j, j ≠ i.val → t.evtPin j = s.evtPin j) ∧
      Frame [.time] [0x1FE004 + 0x40 * i.val, 0x1FE008 + 0x40 * i.val] s t) ∧
    (n ≤ s.fullNs 0 → Completes (.evtGenTime m i lo) s fun t =>
      t.evtPin i = { s.evtPin i with armed := false } ∧ t.flag (Reg.EVT_MISSED i) = true ∧
      Frame [.time] [0x1FE004 + 0x40 * i.val, 0x1FE008 + 0x40 * i.val, 0x1FE020 + 0x40 * i.val] s t) := by
  obtain ⟨u, hu, he⟩ := genWritten (s := s) (m := m) (i := i) (v := lo.toNat) hm (by
    rw [show genWord i + 4 = 0x1FE008 + 0x40 * i.val by unfold genWord; omega]
    exact hh)
  have hns : u.fullNs 0 = s.fullNs 0 := fullNs_congr (by rw [dom_congr hu.time])
  have hlo : bits lo.toNat 31 0 = lo.toNat := Nat.mod_eq_of_lt lo.isLt
  have arm := evtArm_oneShot (u := u) (i := i) (n := n) ((State.fld_of_word hu.config).trans h2) ((State.fld_of_word hu.config).trans hd)
    (by rw [hns, hu.low, hlo, hu.high, hn])
  obtain ⟨hcalm, hquiet⟩ := missed_word i
  unfold Completes
  rw [exec_evtGenTime, he, arm, hns]
  constructor
  · intro hlt
    rw [if_neg (Nat.not_le.mpr hlt)]
    refine ⟨_, rfl, ?_, fun j hj => ?_, hu.frame.trans (frame_setEvtPin _ _ (by decide))⟩
    · rw [evtPin_setEvtPin_same, evtPin_congr hu.time]
    · rw [evtPin_setEvtPin_other _ _ hj, evtPin_congr hu.time]
  · intro hle
    rw [if_pos hle]
    refine ⟨_, rfl, ?_, ?_, ((hu.frame.mono (fun _ h => h) fun a ha => ?_).trans
      (frame_setBitsOf 256 (by simp [Reg.EVT_MISSED]) hquiet (by simp only [Reg.EVT_MISSED]; omega))).trans (frame_setEvtPin _ _ (by decide))⟩
    · rw [evtPin_setEvtPin_same, evtPin_congr hu.time]
    · exact flag_setBitsOf (f := Reg.EVT_MISSED i.val) 256 hcalm rfl (show 8 < 32 by decide) (show Nat.testBit 256 8 = true by decide)
    · simp only [List.mem_cons] at ha ⊢
      tauto

end

end Sys2Proof.Machine
end

section
/-! PROOFS. O32. -/

namespace Sys2Proof.Machine

/-- Settles O32, clause by clause: each command's effect is one lemma above, and a command before its time changes nothing. -/
theorem timeRunsAndPtp : Obligations.TimeRunsAndPtp := by
  unfold Obligations.TimeRunsAndPtp
  refine ⟨⟨epochWrap_effect, run_effect, syncLoss_effect, announceTimeout_effect, clkMonitorWindow_effect⟩,
    ptpMessageRx_effect, ptpMessageTx_effect, etsPop_effect, fun m i s => ?_⟩
  obtain ⟨rises, waits, falls⟩ := evtOutputEdge_effect i s
  exact ⟨evtPop_effect m i s, evtEdge_effect i s, evtGenTime_effect m i s, rises, waits, falls⟩

end Sys2Proof.Machine
end

section
/-! PROOFS. What fires with a tide beside its landings: TIDE_NOW stands once it is set, and no replay begins. -/

namespace Sys2Proof.Machine

open State

variable {s t u : State}

/-- TIDE_NOW and the next tide stand, and where no logbook was replayed none is. -/
structure TideStands (s t : State) : Prop where
  words : ∀ x, x = 0x20040 ∨ x = 0x20044 → t.word x = s.word x
  live : s.replaying = false → t.replaying = false
  next : t.time.next = s.time.next

namespace TideStands

variable {f : Fld} {v : Nat}

theorem refl : TideStands s s := ⟨fun _ _ => rfl, id, rfl⟩

theorem trans (h : TideStands s t) (h' : TideStands t u) : TideStands s u :=
  ⟨fun x hx => (h'.words x hx).trans (h.words x hx), fun hl => h'.live (h.live hl),
    h'.next.trans h.next⟩

/-- Only words above LOG's block change. -/
theorem of_high (hn : t.time.next = s.time.next) (h : ∀ x, x < 0x60000 → t.word x = s.word x) : TideStands s t where
  next := hn
  words x hx := h x (by omega)
  live hl := by
    rw [State.replaying, State.fld_of_word (h Reg.LOG_STATUS_STATE.addr (by decide))]
    exact hl

theorem of_regs (h : t.regs = s.regs) (hn : t.time.next = s.time.next) : TideStands s t := of_high hn fun x _ => word_congr h x

theorem of_aside (h : Aside s t) : TideStands s t where
  next := congrArg Time.next (h.keeps.same .time rfl)
  words x hx := h.word x (by rcases hx with rfl | rfl <;> decide)
  live hl := by
    rw [State.replaying, h.logState]
    exact hl

theorem setFld (h : 0x60000 ≤ f.addr) : TideStands s (s.setFld f v) := of_high rfl fun x hx => State.word_setFld _ _ _ _ (by omega)

theorem setFld2 {g : Fld} (hf : 0x60000 ≤ f.addr) (hg : 0x60000 ≤ g.addr) : TideStands s (s.setFld2 f g v) := (setFld hf).trans (setFld hg)

theorem count (k : Nat) (h : 0x60000 ≤ f.addr) : TideStands s (s.count f k) := of_high rfl fun x hx => State.word_count _ _ (by omega)

theorem setBitsOf {a : Nat} (m : Nat) (h : 0x60000 ≤ a) : TideStands s (s.setBitsOf a m) :=
  of_high rfl fun x hx => (State.word_setBitsOf _ _ _ _).trans (if_neg (by omega))

theorem raise {a : Nat} (en src m sh : Nat) (h : 0x60000 ≤ a) : TideStands s (s.raise a en src m sh) :=
  (setBitsOf m h).trans (of_aside (aside_unitEvent _ _))

theorem note (src code a b : Nat) : TideStands s (s.note src code a b) := of_aside (aside_note _ _ _ _)

theorem post (kind src sub payload : Nat) : TideStands s (s.post kind src sub payload) := of_aside (aside_post _ _ _ _)

/-! ### The berth table and the followers -/

theorem berthFault (w h c : Nat) : TideStands s (s.berthFault w h c) := by
  unfold State.berthFault
  dsimp only
  refine TideStands.trans ?_ (note _ _ _ _)
  refine TideStands.trans ?_ (raise _ _ _ _ (by decide))
  refine TideStands.trans ?_ (count 1 (by decide))
  exact ((setFld (by decide)).trans (setFld (by decide))).trans (setFld (by decide))

theorem acquire (w h : Nat) : TideStands s (s.acquire w h).1 := by
  unfold State.acquire
  dsimp only
  split
  · exact berthFault _ _ _
  · split
    · exact berthFault _ _ _
    · exact of_regs rfl rfl

theorem releaseTable (w h : Nat) : TideStands s (s.releaseTable w h) := by
  unfold State.releaseTable
  dsimp only
  split
  · exact berthFault _ _ _
  · exact of_regs rfl rfl

theorem pushHeld (w a cap h : Nat) : TideStands s (s.pushHeld w a cap h).1 := by
  have hq := acquire (s := s) w h
  unfold State.pushHeld
  split
  · generalize s.acquire w h = r at hq ⊢
    obtain ⟨s', ok⟩ := r
    dsimp only
    split
    · exact hq.trans (of_regs rfl rfl)
    · exact hq
  · exact refl

theorem encFollow (v h : Nat) : (l : List (Nat × Nat)) → (s : State) → TideStands s (State.encFollow v h l s)
  | [], _ => refl
  | (e, i) :: rest, s => by
    rw [State.encFollow]
    refine TideStands.trans ?_ (encFollow v h rest _)
    dsimp only
    split
    · have hq := pushHeld (s := s) (8 + e) (encQ e i 0) 8 h
      generalize s.pushHeld (8 + e) (encQ e i 0) 8 h = r at hq ⊢
      split
      · exact hq
      · exact hq.trans (count 1 (by simp only [Reg.ENC_SLOT_QUEUE_LOST]; omega))
    · exact refl

theorem scnFollow (race : Bool) (h : Nat) : (l : List Nat) → (s : State) → TideStands s (State.scnFollow race h l s)
  | [], _ => refl
  | l :: rest, s => by
    rw [State.scnFollow]
    refine TideStands.trans ?_ (scnFollow race h rest _)
    dsimp only
    split
    · have hq := pushHeld (s := s) 15 (layerQ l) 4 h
      generalize s.pushHeld 15 (layerQ l) 4 h = r at hq ⊢
      split
      · exact hq
      · exact hq.trans (count 1 (by simp only [Reg.SCN_LAYER_CNT_PUSH_LOST]; omega))
    · exact refl

theorem netFollow (h : Nat) : (l : List Nat) → (s : State) → TideStands s (State.netFollow h l s)
  | [], _ => refl
  | n :: rest, s => by
    rw [State.netFollow]
    refine TideStands.trans ?_ (netFollow h rest _)
    dsimp only
    split
    · have hq := pushHeld (s := s) (18 + n / 32) (netTxQ (n / 32) (n % 32)) 8 h
      generalize s.pushHeld (18 + n / 32) (netTxQ (n / 32) (n % 32)) 8 h = r at hq ⊢
      split
      · exact hq
      · exact (hq.trans (count 1 (by simp only [Reg.NET_TX_STATUS_LOST]; omega))).trans
          (raise _ _ _ _ (by simp only [Reg.NET_EVENT_PUSH_LOST]; omega))
    · exact refl

/-- A step taken under a condition. -/
theorem when {p : Prop} [Decidable p] (h : p → TideStands s t) : TideStands s (if p then t else s) := by
  split
  · exact h ‹p›
  · exact refl

theorem whenNot {p : Prop} [Decidable p] (h : ¬p → TideStands s t) : TideStands s (if p then s else t) := by
  split
  · exact refl
  · exact h ‹¬p›

theorem release (w h : Nat) : TideStands s (s.release w h) := by
  unfold State.release
  split
  · exact releaseTable w h
  · dsimp only
    refine TideStands.trans ?_ (releaseTable w h)
    refine TideStands.trans ?_ (whenNot fun _ => netFollow _ _ _)
    refine TideStands.trans ?_ (when fun _ => scnFollow _ _ _ _)
    exact when fun _ => (encFollow _ _ _ _).trans (scnFollow _ _ _ _)

theorem releasePost (w src h : Nat) : TideStands s (s.releasePost w src h) := (release w h).trans (post _ _ _ _)

theorem emit (w : Nat) (m : Manifest) (ofs : Nat) (payload : List Byte) : TideStands s (s.emit w m ofs payload) := by
  unfold State.emit
  dsimp only
  split
  · exact berthFault _ _ _
  · refine TideStands.trans ?_ (when fun _ => of_regs rfl rfl)
    refine TideStands.trans ?_ (when fun _ => scnFollow _ _ _ _)
    exact of_regs rfl rfl

/-! ### LOG (R436, R437, R445) -/

theorem popQ (a : Nat) : TideStands s (s.popQ a).1 := by
  unfold State.popQ
  split
  · exact refl
  · exact of_regs rfl rfl

theorem setLog (l : Log) : TideStands s (s.setLog l) := of_regs rfl rfl

theorem pushJob (kind : Nat) (desc : List Byte) : TideStands s (s.pushJob kind desc) := by
  unfold State.pushJob
  split
  · exact refl
  · exact of_regs rfl rfl

theorem loseSegment : TideStands s s.loseSegment := by
  unfold State.loseSegment
  exact ((setLog _).trans (of_aside (aside_count _ 1 (by decide) (by decide)))).trans (of_aside (aside_logRaise _))

theorem stageSegments : (l : List (Nat × List LogRec)) → (s : State) → TideStands s (State.stageSegments l s)
  | [], _ => refl
  | (n, rs) :: rest, s => by
    rw [State.stageSegments]
    refine TideStands.trans ?_ (stageSegments rest _)
    dsimp only
    split
    · exact (emit _ _ _ _).trans loseSegment
    · exact (emit _ _ _ _).trans (setLog _)

theorem of_popQ {a : Nat} {e : Option QEnt} (h : s.popQ a = (t, e)) : TideStands s t := by
  have := popQ (s := s) a
  rwa [h] at this

theorem of_acquire {w h : Nat} {ok : Bool} (he : s.acquire w h = (t, ok)) : TideStands s t := by
  have := acquire (s := s) w h
  rwa [he] at this

theorem logOut (fuel : Nat) : TideStands s (s.logOut fuel).1 := by
  induction fuel generalizing s with
  | zero => exact refl
  | succ fuel ih =>
    unfold State.logOut
    split
    · exact refl
    · split
      · next v hv => exact of_popQ hv
      · next v e hv =>
        split
        · next x hx => exact ((of_popQ hv).trans (of_acquire hx)).trans ih
        · next x hx => exact ((of_popQ hv).trans (of_acquire hx)).trans (setLog _)

theorem of_logOut {fuel : Nat} {o : Option (Nat × Nat)} (h : s.logOut fuel = (t, o)) : TideStands s t := by
  have := logOut (s := s) fuel
  rwa [h] at this

theorem logCompress : TideStands s s.logCompress := by
  unfold State.logCompress
  split
  · exact refl
  · split
    · exact pushJob _ _
    · split
      · next v hv => exact of_logOut hv
      · next v h ofs hv => exact (of_logOut hv).trans (pushJob _ _)

theorem logRead : TideStands s s.logRead := by
  unfold State.logRead
  split
  · exact pushJob _ _
  · split
    · next v hv => exact of_popQ hv
    · next v e hv =>
      split
      · next x hx => exact (of_popQ hv).trans (of_acquire hx)
      · next x hx => exact (((of_popQ hv).trans (of_acquire hx)).trans (setLog _)).trans (pushJob _ _)

theorem logDrop (h : Option Nat) : TideStands s (s.logDrop h) := by
  unfold State.logDrop
  split
  · exact release _ _
  · exact refl

theorem logIdle : TideStands s s.logIdle := by
  unfold State.logIdle
  split
  · dsimp only
    refine TideStands.trans ?_ (setLog _)
    refine TideStands.trans ((logDrop s.log.stage).trans (logDrop s.log.ring)) ?_
    split
    · exact releasePost _ _ _
    · exact refl
  · exact refl

theorem logPump : TideStands s s.logPump := by
  unfold State.logPump
  dsimp only
  refine TideStands.trans ?_ logIdle
  refine TideStands.trans ?_ (whenNot fun _ => logRead)
  refine TideStands.trans ?_ (whenNot fun _ => logCompress)
  exact whenNot fun _ => (setLog _).trans (stageSegments _ _)

theorem pushOpening (r : LogRec) : TideStands s (s.pushOpening r) := by
  unfold State.pushOpening
  split
  · exact of_aside ((aside_closeSegment.trans aside_continueSegment).trans (aside_pushRec _))
  · exact of_aside (aside_pushRec _)

theorem pushOpenings : (l : List LogRec) → (s : State) → TideStands s (State.pushOpenings l s)
  | [], _ => refl
  | r :: rs, _ => (pushOpening r).trans (pushOpenings rs _)

theorem logOpening (n : Nat) : TideStands s (s.logOpening n) := by
  unfold State.logOpening
  dsimp only
  split
  · exact ((setLog _).trans (setLog _)).trans ((pushOpenings _ _).trans (pushOpening _))
  · split
    · exact (setLog _).trans (of_aside aside_loseRecord)
    · split
      · exact (setLog _).trans (of_aside ((aside_closeSegment.trans (aside_pushRec _)).trans aside_pushLost))
      · exact (setLog _).trans (pushOpening _)

/-- STATE is OFF. -/
theorem logOff : TideStands s (s.setFld Reg.LOG_STATUS_STATE 0) where
  next := rfl
  words x hx := State.word_setFld _ _ _ _ (by rcases hx with rfl | rfl <;> decide)
  live _ := by
    rw [State.replaying, State.fld_setFld_same _ _ _ (by decide) (by decide)]
    decide

theorem logStop (n last : Nat) : TideStands s (s.logStop n last) := by
  unfold State.logStop
  dsimp only
  refine TideStands.trans ?_ (logOff.trans logPump)
  refine TideStands.trans ?_ (setLog _)
  exact when fun _ => (pushOpening _).trans (of_aside aside_closeSegment)

theorem logTide (n : Nat) : TideStands s (s.logTide n) := by
  unfold State.logTide
  dsimp only
  split
  · split
    · exact (logOpening n).trans (logStop _ _)
    · exact logStop _ _
  · exact when fun _ => logOpening n

/-! ### TCLK and the selected domain (R111, R114, R118) -/

theorem setFld_apart (h : f.addr ≠ 0x20040 ∧ f.addr ≠ 0x20044 ∧ f.addr ≠ 0x50004) : TideStands s (s.setFld f v) where
  next := rfl
  words x hx := State.word_setFld _ _ _ _ (by omega)
  live hl := by
    rw [State.replaying, State.fld_setFld_addr _ _ _ _ (Ne.symm h.2.2)]
    exact hl

theorem frozen (d : Nat) : TideStands s (Machine.frozen s d) := by
  have adj : TideStands (s.setDom d { s.dom d with adj := s.meanAdj d }) (s.setAdj d (s.meanAdj d)) :=
    setFld_apart (f := Reg.DOM_ADJ d) (by simp only [Reg.DOM_ADJ]; omega)
  refine TideStands.trans (TideStands.trans ?_ adj) ?_
  · exact of_regs rfl rfl
  · exact of_regs rfl rfl

theorem setDomState (d v : Nat) : TideStands s (s.setDomState d v) := by
  rw [setDomState_eq]
  exact setFld_apart (by rw [addr_stateField]; decide)

theorem holdoverTold (d : Nat) : TideStands s (Machine.holdoverTold s d) :=
  ((setDomState d 3).trans (of_aside (aside_timeRaise _))).trans (post _ _ _ _)

theorem failoverDue (d : Nat) : TideStands s (Machine.failoverDue s d) := by
  unfold Machine.failoverDue
  exact when fun _ => of_regs rfl rfl

theorem enterHoldover (d : Nat) : TideStands s (s.enterHoldover d) := by
  by_cases h : s.domState d = 2
  · rw [enterHoldover_eq h]
    exact ((frozen d).trans (holdoverTold d)).trans (failoverDue d)
  · rw [enterHoldover_other h]
    exact refl

theorem next_setDom (d : Nat) (x : Dom) : (s.setDom d x).time.next = s.time.next := rfl

theorem bothMiss (lost : Nat) : TideStands s (Machine.bothMiss s lost) :=
  of_regs (regs_bothMiss lost) (by rw [Machine.bothMiss, nextFree_time, missTicks, next_setDom, missTicks, next_setDom])

theorem moveClk (src : Nat) : TideStands s (s.moveClk src) := by
  rw [moveClk_eq]
  refine TideStands.trans ?_ (enterHoldover 1)
  refine TideStands.trans ?_ (enterHoldover 0)
  refine TideStands.trans ?_ (bothMiss _)
  exact (setFld_apart (by decide)).trans (of_aside (aside_timeRaise _))

theorem tideClock : TideStands s s.tideClock := when fun _ => moveClk 0

theorem switchDom (d n : Nat) : TideStands s (s.switchDom d n) := by
  unfold State.switchDom
  refine whenNot fun _ => ?_
  dsimp only
  refine TideStands.trans ?_ (post _ _ _ _)
  exact (setFld_apart (f := Reg.TIME_STATUS_SEL) (v := d) (by decide)).trans (of_regs rfl rfl)

theorem tideSwitch (n : Nat) : TideStands s (s.tideSwitch n) := (switchDom _ n).trans (of_regs rfl rfl)

/-! ### The lanes and the boundaries of calibration (R142, R226) -/

theorem setLane (p i : Nat) (x : Lane) : TideStands s (s.setLane p i x) := of_regs rfl rfl

theorem toBaseline (p i : Nat) : TideStands s (s.toBaseline p i) :=
  (setFld (by simp only [Reg.LANE_EQ_CTLE]; omega)).trans (setFld (by simp only [Reg.LANE_EQ_DFE]; omega))

theorem propose (p : Nat) (l : List Nat) : TideStands s (s.propose p l) := by
  unfold State.propose
  exact (setFld2 (by simp only [Reg.SRX_PROPOSE_LO]; omega) (by simp only [Reg.SRX_PROPOSE_HI]; omega)).trans
    (setFld (by simp only [Reg.SRX_MIN_FRAME_NS_NS]; omega))

theorem laneFault (p i code : Nat) : TideStands s (s.laneFault p i code) := by
  unfold State.laneFault
  refine whenNot fun _ => ?_
  dsimp only
  refine TideStands.trans ?_ (when fun _ => (setFld (by simp only [Reg.SRX_STATUS_DEGRADED]; omega)).trans (propose _ _))
  refine TideStands.trans ?_ (raise _ _ _ _ (by omega))
  refine TideStands.trans ?_ (setLane _ _ _)
  refine TideStands.trans ?_ (setFld (by simp only [Reg.LANE_STATUS_LOCK]; omega))
  refine TideStands.trans ?_ (setFld (by simp only [Reg.LANE_STATUS_FAULT]; omega))
  exact setFld (by simp only [Reg.LANE_STATUS_STATE]; omega)

/-- A lane that may fault with one code or another. -/
theorem mayFault {p q : Prop} [Decidable p] [Decidable q] {x i c d : Nat} (h : TideStands s t) :
    TideStands s (if p then t.laneFault x i c else if q then t.laneFault x i d else t) := by
  split
  · exact h.trans (laneFault _ _ _)
  · exact h.trans (when fun _ => laneFault _ _ _)

theorem laneTide (e : LaneTide) : TideStands s (s.laneTide e) := by
  unfold State.laneTide
  dsimp only
  refine whenNot fun _ => mayFault ?_
  refine TideStands.trans ?_ (when fun _ => (setFld (by simp only [Reg.LANE_STATUS_SUSPECT]; omega)).trans (toBaseline _ _))
  refine TideStands.trans ?_ (setLane _ _ _)
  refine TideStands.trans ?_ (whenNot fun _ => count _ (by simp only [Reg.LANE_PRBS_ERR]; omega))
  refine TideStands.trans ?_ (when fun _ => (setFld (by simp only [Reg.LANE_EQ_CTLE]; omega)).trans (setFld (by simp only [Reg.LANE_EQ_DFE]; omega)))
  refine TideStands.trans ?_ (setFld (by simp only [Reg.LANE_FOM_FOM]; omega))
  exact (setFld (by simp only [Reg.LANE_FOM_VERT]; omega)).trans (setFld (by simp only [Reg.LANE_FOM_HORZ]; omega))

theorem laneTides : (l : List LaneTide) → (s : State) → TideStands s (State.laneTides l s)
  | [], _ => refl
  | e :: es, _ => (laneTide e).trans (laneTides es _)

theorem applyLanes : (l : List (Nat × Nat)) → (s : State) → TideStands s (State.applyLanes l s)
  | [], _ => refl
  | (l, w) :: rest, s => by
    rw [State.applyLanes]
    refine TideStands.trans ?_ (applyLanes rest _)
    refine TideStands.trans ?_ (when fun _ => toBaseline _ _)
    exact (setLane _ _ _).trans (setFld (by simp only [Reg.CAL_LANE_BASE_BASE]; omega))

theorem setMaskBit {lo hi : Fld} (n : Nat) (b : Bool) (hl : 0x60000 ≤ lo.addr) (hh : 0x60000 ≤ hi.addr) : TideStands s (s.setMaskBit lo hi n b) :=
  setFld2 hl hh

theorem showItem (n : Nat) : TideStands s (s.showItem n) := setFld (by simp only [Reg.CAL_ITEM_STATE]; omega)

theorem calReach (c cyc n : Nat) : TideStands s (s.calReach c cyc n) := by
  unfold State.calReach
  split
  · exact refl
  · refine when fun _ => ?_
    dsimp only
    split
    · refine TideStands.trans ?_ (note _ _ _ _)
      refine TideStands.trans ?_ (raise _ _ _ _ (by decide))
      refine TideStands.trans ?_ (showItem n)
      refine TideStands.trans ?_ (whenNot fun _ => setMaskBit _ _ (by decide) (by decide))
      exact (applyLanes _ _).trans (of_regs rfl rfl)
    · exact (applyLanes _ _).trans (of_regs rfl rfl)

theorem calBoundary (c cyc : Nat) : (l : List Nat) → (s : State) → TideStands s (State.calBoundary c cyc l s)
  | [], _ => refl
  | n :: ns, _ => (calReach c cyc n).trans (calBoundary c cyc ns _)

theorem calTide (cyc : Nat) : TideStands s (s.calTide cyc) := by
  unfold State.calTide
  refine whenNot fun _ => ?_
  generalize List.range 41 = l
  simp only [List.foldl_cons, List.foldl_nil]
  exact ((((calBoundary 0 cyc l s).trans (calBoundary 1 cyc l _)).trans (calBoundary 2 cyc l _)).trans (calBoundary 3 cyc l _)).trans
    (calBoundary 4 cyc l _)

end TideStands

end Sys2Proof.Machine
end

section
/-! PROOFS. What landings leave of the landing queue, of ownership and of the next tide (R29, R65). -/

namespace Sys2Proof.Machine

open State

variable {s t u : State}

/-- Landings move neither the owner nor the open transactions, the landing queue, the settings epoch or the next tide. -/
structure QueueStands (s t : State) : Prop where
  next : t.time.next = s.time.next
  landq : t.sys.landq = s.sys.landq
  owner : t.sys.owner = s.sys.owner
  slots : t.sys.slots = s.sys.slots
  epoch : t.sys.epoch = s.sys.epoch

namespace QueueStands

theorem refl : QueueStands s s := ⟨rfl, rfl, rfl, rfl, rfl⟩

theorem trans (h : QueueStands s t) (h' : QueueStands t u) : QueueStands s u :=
  ⟨h'.next.trans h.next, h'.landq.trans h.landq, h'.owner.trans h.owner, h'.slots.trans h.slots, h'.epoch.trans h.epoch⟩

theorem of_sys (hn : t.time.next = s.time.next) (hs : t.sys = s.sys) : QueueStands s t :=
  ⟨hn, congrArg Sys.landq hs, congrArg Sys.owner hs, congrArg Sys.slots hs, congrArg Sys.epoch hs⟩

/-- A change that reaches neither SYS nor TIME. -/
theorem of_keeps {m : Nat} (h : Keeps m s t) (hs : m.testBit 12 = false) (ht : m.testBit 13 = false) : QueueStands s t :=
  of_sys (congrArg Time.next (h.same .time ht)) (h.same .sys hs)

/-- A step taken under a condition. -/
theorem when {p : Prop} [Decidable p] (h : p → QueueStands s t) : QueueStands s (if p then t else s) := by
  split
  · exact h ‹p›
  · exact refl

theorem takeBank (i : Nat) : QueueStands s (s.takeBank i) := ⟨rfl, rfl, rfl, rfl, rfl⟩

theorem takeBanks : (l : List Nat) → (s : State) → QueueStands s (State.takeBanks l s)
  | [], _ => refl
  | i :: is, _ => (takeBank i).trans (takeBanks is _)

theorem timeRaise (m : Nat) : QueueStands s (s.timeRaise m) := of_keeps (keeps_timeRaise (L := 17288) m Keeps.refl rfl) rfl rfl

theorem post (kind src sub payload : Nat) : QueueStands s (s.post kind src sub payload) :=
  of_keeps (keeps_post (L := 16648) kind src sub payload Keeps.refl rfl) rfl rfl

theorem announceWrap (d : Nat) : QueueStands s (s.announceWrap d) := by
  unfold State.announceWrap
  dsimp only
  split
  · exact refl
  · refine QueueStands.trans ?_ (post _ _ _ _)
    refine QueueStands.trans ?_ (timeRaise _)
    exact of_sys rfl rfl

theorem stepDom (d : Nat) (ns : Int) : QueueStands s (s.stepDom d ns) := by
  unfold State.stepDom
  dsimp only
  generalize wrap 104 (((s.dom d).count : Int) + ns * 2 ^ 40) = c
  refine QueueStands.trans ?_ (announceWrap d)
  refine QueueStands.trans ?_ (post _ _ _ _)
  refine QueueStands.trans ?_ (timeRaise _)
  refine QueueStands.trans ?_ (of_sys (s := ite _ _ _) rfl rfl)
  split
  · exact of_sys rfl rfl
  · exact of_sys rfl rfl

theorem landStep (ps : List Piece) (d : Nat) : QueueStands s (State.landStep ps s d) := by
  unfold State.landStep
  dsimp only
  split
  · exact stepDom _ _
  · exact refl

theorem clampPeriod : QueueStands s s.clampPeriod := of_keeps (keeps_clampPeriod (L := 8) Keeps.refl rfl) rfl rfl

theorem didt : QueueStands s s.didt := of_keeps (keeps_didt (L := 17292) Keeps.refl rfl) rfl rfl

theorem encEnabled (old : State) (l : List (Nat × Nat)) : QueueStands s (State.encEnabled old l s) :=
  of_keeps (keeps_encEnabled (L := 33554432) old l Keeps.refl rfl) rfl rfl

/-- The schedule anchored anew (R109). -/
theorem reanchored (m : Nat) (t : Int) : QueueStands s (s.reanchor m t) := by
  unfold State.reanchor
  dsimp only
  generalize wrap 112 t = b
  exact of_sys rfl rfl

theorem landOne (ticket : Nat) (ps : List Piece) : QueueStands s (s.landOne ticket ps) :=
  of_keeps (keeps_landOne (L := 148360) ticket ps Keeps.refl rfl) rfl rfl

theorem landEach (l : List (Nat × List Piece)) : QueueStands s (l.foldl (fun (s : State) e => s.landOne e.1 e.2) s) := by
  induction l generalizing s with
  | nil => exact refl
  | cons e l ih => exact (landOne e.1 e.2).trans ih

theorem postLanded (l : List Nat) : QueueStands s (State.postLanded l s) :=
  of_keeps (keeps_postLanded (L := 16648) l Keeps.refl rfl) rfl rfl

end QueueStands

/-- The settings epoch advances (R29). -/
def epochAdvanced (s : State) : State := { s with sys := { s.sys with epoch := (s.sys.epoch + 1) % 65536 } }

/-- What follows a landing at a tide, after the settings epoch has advanced (R29, R104, R107, R109). -/
theorem landed_queue (old : State) (n : Nat) (ps : List Piece) : QueueStands (epochAdvanced s) (landed old (some n) ps s) := by
  unfold landed
  dsimp only
  refine QueueStands.trans ?_ (QueueStands.takeBanks _ _)
  refine QueueStands.trans ?_ (QueueStands.encEnabled _ _)
  refine QueueStands.trans ?_ (QueueStands.when fun _ => QueueStands.didt)
  refine QueueStands.trans ?_ ((QueueStands.landStep ps 0).trans (QueueStands.landStep ps 1))
  exact QueueStands.when fun _ => (QueueStands.reanchored n _).trans QueueStands.clampPeriod

/-- A landing's share in SYS: the epoch advances when something lands (R29). -/
structure LandsFrom (s t : State) (any : Bool) : Prop where
  next : t.time.next = s.time.next
  landq : t.sys.landq = s.sys.landq
  owner : t.sys.owner = s.sys.owner
  slots : t.sys.slots = s.sys.slots
  epoch : t.sys.epoch = if any then (s.sys.epoch + 1) % 65536 else s.sys.epoch

theorem landAll_queue (n : Nat) (l : List (Nat × List Piece)) : LandsFrom s (s.landAll (some n) l) !l.isEmpty := by
  unfold landAll
  cases h : l.isEmpty
  · rw [if_neg Bool.false_ne_true]
    dsimp only
    have each := QueueStands.landEach (s := s) l
    generalize l.foldl (fun (s : State) e => s.landOne e.1 e.2) s = v at each ⊢
    have after : QueueStands (epochAdvanced v) _ := (landed_queue s n (l.flatMap (·.2)) (s := v)).trans (QueueStands.postLanded (l.map (·.1)))
    refine ⟨after.next.trans each.next, after.landq.trans each.landq, after.owner.trans each.owner, after.slots.trans each.slots, ?_⟩
    exact after.epoch.trans (congrArg (fun e => (e + 1) % 65536) each.epoch)
  · rw [if_pos rfl]
    exact ⟨rfl, rfl, rfl, rfl, rfl⟩

/-- The queue without the commits that `p` picks. -/
def leavesQueue (s : State) (p : Commit → Bool) : State := { s with sys := { s.sys with landq := s.sys.landq.filter fun c => !p c } }

theorem next_leavesQueue (p : Commit → Bool) : (leavesQueue s p).time.next = s.time.next := rfl

theorem landQueued_queue (n : Nat) (p : Commit → Bool) : LandsFrom (leavesQueue s p) (s.landQueued (some n) p) (s.sys.landq.any p) := by
  have e : (!((s.sys.landq.filter p).map fun c => (c.ticket, commitPieces c)).isEmpty) = s.sys.landq.any p := by
    rw [List.isEmpty_map, Bool.eq_iff_iff]
    simp only [Bool.not_eq_true', List.isEmpty_eq_false_iff_exists_mem, List.mem_filter, List.any_eq_true]
  rw [← e]
  exact landAll_queue n _

/-- Nothing lands of a queue in which nothing is due. -/
theorem landQueued_notDue {n : Nat} {p : Commit → Bool} (h : ∀ c ∈ s.sys.landq, p c = false) : s.landQueued (some n) p = s := by
  have due : s.sys.landq.filter p = [] := List.filter_eq_nil_iff.mpr fun c hc => by rw [h c hc]; exact Bool.false_ne_true
  have rest : (s.sys.landq.filter fun c => !p c) = s.sys.landq := List.filter_eq_self.mpr fun c hc => by rw [h c hc]; rfl
  unfold landQueued
  simp only [due, rest]
  rfl

end Sys2Proof.Machine
end

section
/-! PROOFS. O17: a due tide fires and lands, and a unit's own tide begins (R42, R65, R106). -/

namespace Sys2Proof.Machine

open State

variable {s t u : State} {n : Nat}

theorem exec_tideFire (eyes : List LaneTide) (s : State) : exec (.tideFire eyes) s = .next (s.tideFire eyes) := rfl

theorem exec_unitTideStart (u : Fin 45) (s : State) : exec (.unitTideStart u) s = .next (s.unitTideStart u.val) := rfl

/-! ### The live schedule (R65, R106) -/

theorem tideFire_live {eyes : List LaneTide} (hr : s.replaying = false) (hl : s.logState = 2 → s.log.runDue = false)
    (hn : s.time.next = some n) (hrun : s.running = true) (hd : s.tideDue n = true) : s.tideFire eyes = s.liveTide eyes n := by
  have live : (s.replaying || (decide (s.logState = 2) && s.log.runDue)) = false := by
    rw [hr, Bool.false_or, Bool.and_eq_false_iff, decide_eq_false_iff_not]
    by_cases h2 : s.logState = 2
    · exact Or.inr (hl h2)
    · exact Or.inl h2
  unfold tideFire
  rw [live, if_neg Bool.false_ne_true, hn]
  simp only [hrun, hd, Bool.and_self, if_true]

/-- Tide `n` has opened: TIDE_NOW shows it. -/
def tideOpened (s : State) (n : Nat) : State := s.openTide n (s.instantCycle n) (some (n + 1))

/-- Tide `n` as its landings find it. -/
def tideReady (s : State) (n : Nat) : State := ((tideOpened s n).tideClock.tideSwitch n).logTide n

/-- What tide `n` sets off after its landings, in a state `v`. -/
def tideRest (s v : State) (eyes : List LaneTide) (n : Nat) : State :=
  (laneTides eyes (afterLandings (tideReady s n) n v)).calTide (s.instantCycle n)

theorem liveTide_eq (eyes : List LaneTide) : s.liveTide eyes n = tideRest s ((tideReady s n).landTide n) eyes n := rfl

section

variable (cyc : Nat) (next : Option Nat)

theorem fld_withTime (x : Time) (f : Fld) : ({ s with time := x } : State).fld f = s.fld f := rfl

theorem fld_openTide (f : Fld) : (s.openTide n cyc next).fld f = ((s.setFld Reg.TIDE_NOW_LO_LO n).setFld Reg.TIDE_NOW_HI_HI (n >>> 32)).fld f :=
  fld_withTime _ f

theorem tide_openTide : (s.openTide n cyc next).tide = n % 2 ^ 48 := by
  have low : (s.openTide n cyc next).fld Reg.TIDE_NOW_LO_LO = n % 2 ^ 32 := by
    rw [fld_openTide, State.fld_setFld_addr _ _ _ _ (by decide), State.fld_setFld_same _ _ _ (by decide) (by decide)]
    simp only [Reg.TIDE_NOW_LO_LO, Nat.reduceAdd, Nat.reduceSub]
  have high : (s.openTide n cyc next).fld Reg.TIDE_NOW_HI_HI = (n >>> 32) % 2 ^ 16 := by
    rw [fld_openTide, State.fld_setFld_same _ _ _ (by decide) (by decide)]
    simp only [Reg.TIDE_NOW_HI_HI, Nat.reduceAdd, Nat.reduceSub]
  unfold State.tide fld2
  rw [low, high, Nat.shiftLeft_eq, Nat.shiftRight_eq_div_pow]
  omega

theorem replaying_openTide (hr : s.replaying = false) : (s.openTide n cyc next).replaying = false := by
  rw [State.replaying, fld_openTide, State.fld_setFld_addr _ _ _ _ (by decide), State.fld_setFld_addr _ _ _ _ (by decide)]
  exact hr

theorem next_openTide : (s.openTide n cyc next).time.next = next := rfl

end

theorem stands_ready : TideStands (tideOpened s n) (tideReady s n) :=
  (TideStands.tideClock.trans (TideStands.tideSwitch n)).trans (TideStands.logTide n)

theorem sys_ready : (tideReady s n).sys = s.sys := by
  have h0 : (tideOpened s n).sys = s.sys := (keeps_openTide (L := 8200) _ _ _ Keeps.refl rfl).same .sys rfl
  have h1 : (tideOpened s n).tideClock.sys = (tideOpened s n).sys := (keeps_tideClock (L := 25484) Keeps.refl rfl).same .sys rfl
  have h2 : ((tideOpened s n).tideClock.tideSwitch n).sys = (tideOpened s n).tideClock.sys :=
    (keeps_tideSwitch (L := 24840) n Keeps.refl rfl).same .sys rfl
  have h3 : (tideReady s n).sys = ((tideOpened s n).tideClock.tideSwitch n).sys := (keeps_logTide (L := 937864) n Keeps.refl rfl).same .sys rfl
  exact h3.trans (h2.trans (h1.trans h0))

theorem next_ready : (tideReady s n).time.next = some (n + 1) := stands_ready.next.trans (next_openTide _ _)

/-- The landings of a tide of the live schedule: what is due of the queue (R65). -/
theorem landTide_ready (hr : s.replaying = false) :
    (tideReady s n).landTide n = (tideReady s n).landQueued (some n) fun c => decide (c.target ≤ n) := by
  unfold landTide
  rw [stands_ready.live (replaying_openTide _ _ hr), if_neg Bool.false_ne_true]

theorem queue_rest (v : State) (eyes : List LaneTide) : QueueStands v (tideRest s v eyes n) := by
  unfold tideRest
  refine (QueueStands.of_keeps (keeps_afterLandings (L := 2688548864) (tideReady s n) n Keeps.refl rfl) rfl rfl).trans ?_
  refine (QueueStands.of_keeps (keeps_laneTides (L := 2114440) eyes Keeps.refl rfl) rfl rfl).trans ?_
  exact QueueStands.of_keeps (keeps_calTide (L := 3294088) _ Keeps.refl rfl) rfl rfl

theorem stands_rest (v : State) (eyes : List LaneTide) : TideStands v (tideRest s v eyes n) := by
  have after := keeps_afterLandings (L := 2688548864) (tideReady s n) n (Keeps.refl (s := v)) rfl
  refine TideStands.trans ?_ ((TideStands.laneTides eyes _).trans (TideStands.calTide _))
  exact TideStands.of_regs (after.same .regs rfl) (congrArg Time.next (after.same .time rfl))

theorem tide_congr (h : TideStands s t) : t.tide = s.tide := fld2_of_word (h.words _ (Or.inl rfl)) (h.words _ (Or.inr rfl))

theorem now_tideFire (eyes : List LaneTide) : (s.tideFire eyes).now = s.now :=
  (keeps_tideFire (L := 19906068364) eyes Keeps.refl rfl).same .now rfl

theorem tideFire_effect (eyes : List LaneTide) (n : Nat) (s : State) (hr : s.replaying = false) (hl : s.logState = 2 → s.log.runDue = false)
    (hn : s.time.next = some n) (hrun : s.running = true) (hd : s.tideDue n = true) :
    Completes (.tideFire eyes) s fun t =>
      t.time.next = some (n + 1) ∧ t.now = s.now ∧
      t.sys.landq = s.sys.landq.filter (fun c => !decide (c.target ≤ n)) ∧
      t.sys.epoch = (if s.sys.landq.any (fun c => decide (c.target ≤ n)) then (s.sys.epoch + 1) % 65536 else s.sys.epoch) ∧
      t.sys.owner = s.sys.owner ∧ t.sys.slots = s.sys.slots ∧
      ((∀ c ∈ s.sys.landq, n < c.target) → t.tide = n % 2 ^ 48) := by
  refine ⟨s.tideFire eyes, exec_tideFire eyes s, ?_⟩
  have hnow := now_tideFire (s := s) eyes
  rw [tideFire_live hr hl hn hrun hd, liveTide_eq, landTide_ready hr] at hnow ⊢
  have lands := landQueued_queue (s := tideReady s n) n fun c => decide (c.target ≤ n)
  have rest := queue_rest (s := s) (n := n) ((tideReady s n).landQueued (some n) fun c => decide (c.target ≤ n)) eyes
  refine ⟨?_, hnow, ?_, ?_, ?_, ?_, fun h => ?_⟩
  · rw [rest.next, lands.next, next_leavesQueue, next_ready]
  · rw [rest.landq, lands.landq, leavesQueue, sys_ready]
  · rw [rest.epoch, lands.epoch, leavesQueue, sys_ready]
  · rw [rest.owner, lands.owner, leavesQueue, sys_ready]
  · rw [rest.slots, lands.slots, leavesQueue, sys_ready]
  · rw [tide_congr (stands_rest _ eyes), landQueued_notDue (fun c hc => decide_eq_false (Nat.not_le.mpr (h c (sys_ready ▸ hc)))),
      tide_congr stands_ready, tideOpened, tide_openTide]

/-! ### Own tides (R42) -/

/-- Unit `u` has begun its own tide `k`. -/
def ownTideBegun (s : State) (u k : Nat) : State := { s with fab := { s.fab with ownTide := s.fab.ownTide.set (fun _ => 0) u (k + 1) } }

theorem ownTide_begun_same (u k : Nat) : (ownTideBegun s u k).ownTide u = k + 1 := by
  show SMap.get (fun _ => 0) (s.fab.ownTide.set (fun _ => 0) u (k + 1)) u = k + 1
  exact SMap.get_set_same ..

theorem ownTide_begun_other {u v : Nat} (k : Nat) (h : v ≠ u) : (ownTideBegun s u k).ownTide v = s.ownTide v := by
  show SMap.get (fun _ => 0) (s.fab.ownTide.set (fun _ => 0) u (k + 1)) v = SMap.get (fun _ => 0) s.fab.ownTide v
  exact SMap.get_set_other _ _ h

/-- The units that do nothing more at their own tide. -/
theorem unitTide_idle {u k : Nat} (h : u < 4 ∨ u = 14 ∨ u = 16 ∨ u = 17 ∨ u = 20 ∨ 23 ≤ u ∧ u < 41) : s.unitTide u k = s := by
  unfold unitTide
  by_cases h4 : u < 4
  · rw [if_pos h4]
  · simp (disch := omega) only [if_neg]

theorem unitTideStart_effect (u : Fin 45) (s : State) :
    (s.time.instants ≠ [] → s.ownTide u.val ≠ s.tide + 1 → s.ownDue u.val = true →
      (u.val < 4 ∨ u.val = 14 ∨ u.val = 16 ∨ u.val = 17 ∨ u.val = 20 ∨ 23 ≤ u.val ∧ u.val < 41) →
      Completes (.unitTideStart u) s fun t =>
        t.ownTide u.val = s.tide + 1 ∧ (∀ v, v ≠ u.val → t.ownTide v = s.ownTide v) ∧ t.fab.berths = s.fab.berths ∧ Frame [.fab] [] s t) ∧
    (s.ownTide u.val = s.tide + 1 ∨ s.ownDue u.val = false ∨ s.time.instants = [] → exec (.unitTideStart u) s = .next s) := by
  constructor
  · intro hi ho hd hu
    have e : s.unitTideStart u.val = ownTideBegun s u.val s.tide := (if_pos ⟨hi, ho, hd⟩).trans (unitTide_idle hu)
    refine ⟨_, (exec_unitTideStart u s).trans (congrArg _ e), ownTide_begun_same _ _,
      fun v hv => ownTide_begun_other _ hv, rfl, frame_fab (by decide)⟩
  · intro h
    refine (exec_unitTideStart u s).trans (congrArg _ (if_neg ?_))
    rintro ⟨hi, ho, hd⟩
    rcases h with h | h | h
    · exact ho h
    · exact absurd (h.symm.trans hd) Bool.false_ne_true
    · exact hi h

/-- Settles O17: the tide that is due is `liveTide`, of whose stages only the landings reach SYS, and none but its opening TIDE_NOW. -/
theorem dueTideFiresAndLands : Obligations.DueTideFiresAndLands := by
  unfold Obligations.DueTideFiresAndLands
  exact ⟨tideFire_effect, unitTideStart_effect⟩

end Sys2Proof.Machine
end

section
/-! PROOFS. A concrete state and command that meet the hypotheses of each statement above on ownership, transactions and time, with what it then says. -/

namespace Sys2Proof.Machine

open State

/-- A claim of master 1 waits to be run. -/
def claimPending : State := { State.reset with pending := [.claim 1 8] }

/-- O12 of the step that runs it. -/
theorem stepKeepsOwnershipGood_claim : ∃ t, step claimPending = .next t ∧ t.sys.ok = true :=
  ⟨_, rfl, stepKeepsOwnershipGood claimPending _ (by decide) rfl⟩

/-- DOM_SEL = 1, as a transaction carries it. -/
def selectB : TWrite := ⟨fldKey Reg.TIME_CTRL_DOM_SEL, [(Reg.TIME_CTRL_DOM_SEL, 1)]⟩

/-- Tides run, tide 0 is due, and a commit waits for it. -/
def tideDueState : State :=
  { State.reset.setFld Reg.TIME_CTRL_RUN 1 with time := { next := some 0 }, sys := { owner := 1, landq := [⟨1, 0, 1, [selectB]⟩] } }

/-- O17 of that tide: the commit lands. -/
theorem dueTideFiresAndLands_commit : Completes (.tideFire []) tideDueState fun t =>
    t.time.next = some 1 ∧ t.sys.landq = [] ∧ t.sys.epoch = 1 := by
  obtain ⟨t, ht, hnext, -, hlandq, hepoch, -⟩ := dueTideFiresAndLands.1 [] 0 tideDueState (by decide +kernel) (by decide +kernel) rfl
    (by decide +kernel) (by decide +kernel)
  exact ⟨t, ht, hnext, hlandq, hepoch⟩

/-- SEC is ready, so that a claim by master 1 names a valid session, and no master owns Daxma. -/
def claimState : State := State.reset.setFld Reg.SEC_STATUS_READY 1

/-- O19 of that claim. -/
theorem claimsAreDecidedAndExpire_wins : Completes (.claim 1 8) claimState fun t =>
    t.sys.owner = 1 ∧ t.flag Reg.SYS_EVENT_OWNER_CHANGE = true := by
  obtain ⟨t, ht, -, howner, -, -, -, hevent, -⟩ := (claimsAreDecidedAndExpire.1 1 8 claimState (by decide)).2.2.1 (by decide +kernel) rfl
  exact ⟨t, ht, howner, hevent⟩

/-- Master 1 owns Daxma, and no transaction is open. -/
def ownedState : State := { State.reset with sys := { owner := 1 } }

/-- O21 of its TXN_BEGIN: slot 0 opens. -/
theorem transactionsOpenAndEnd_begins : Completes (.txnBegin 1) ownedState fun t => t.slot 0 = some ⟨1, false, 0, []⟩ := by
  obtain ⟨t, ht, hslot, -⟩ := (transactionsOpenAndEnd.1 1 ownedState (by decide +kernel)).2.2 0 (by decide) (by decide)
  exact ⟨t, ht, hslot⟩

/-- Its transaction in slot 0 holds one value. -/
def openState : State := ownedState.setSlot 0 (some ⟨1, false, 0, [selectB]⟩)

/-- O22 of its TXN_COMMIT while tides do not run: ticket 1 waits to land. -/
theorem txnCommitChecksInOrder_queues : Completes (.txnCommit 1 false true) openState fun t =>
    t.sys.landq = [⟨1, 0, 1, [selectB]⟩] ∧ t.slot 0 = none := by
  obtain ⟨t, ht, -, hlandq, hslot, -⟩ := (txnCommitChecksInOrder 1 false true 0 ⟨1, false, 0, [selectB]⟩ 0 0 openState (by decide +kernel)
    (by decide) (by decide +kernel) (by decide +kernel)).1 rfl rfl (by decide +kernel) (by decide)
  exact ⟨t, ht, hlandq, hslot⟩

/-- The count of domain A has passed 2³² ns, which no docket has told yet. -/
def wrappedState : State := State.reset.setDom 0 { count := 2 ^ 72 }

/-- O32 of its EPOCH_WRAP. -/
theorem timeRunsAndPtp_wraps : Completes (.epochWrap 0) wrappedState fun t =>
    (t.dom 0).wrapSeen = 1 ∧ bit (t.word 0x20008).toNat 0 = true := by
  obtain ⟨t, ht, hdom, -, hevent, -⟩ := (timeRunsAndPtp.1.1 0 1 wrappedState (by decide +kernel)).1 (by decide +kernel)
  exact ⟨t, ht, congrArg Dom.wrapSeen hdom, hevent⟩

end Sys2Proof.Machine
end

section
/-! PROOFS. The rules of a Marl instruction that issues: what its outcome makes of the state, and what reads of the pilot's registers, predicates and memories give after each write. -/

namespace Sys2Proof.Machine

open State

variable {s t u : State} {k : Fin 16} {g : Guard} {p q : Pilot}

/-! ### One pilot alone changes -/

theorem only_pilots (x : SMap Pilot) : Only [.pilots] s { s with pilots := x } := fun p hp => by
  cases p with
  | pilots => exact absurd (List.mem_singleton.mpr rfl) hp
  | _ => rfl

theorem pilotOnly_refl : PilotOnly k (s.pilot k) s s := ⟨rfl, fun _ _ => rfl, Only.refl⟩

theorem PilotOnly.setPilot (h : PilotOnly k p s t) (q : Pilot) : PilotOnly k q s (t.setPilot k q) :=
  ⟨pilot_setPilot_same .., fun j hj => (pilot_setPilot_other _ _ hj).trans (h.2.1 j hj), h.2.2.trans (only_pilots _)⟩

theorem pilotOnly_setPilot (q : Pilot) : PilotOnly k q s (s.setPilot k q) := pilotOnly_refl.setPilot q

/-! ### Registers (R73) -/

theorem xreg_congr (h : (t.pilot k).x = (s.pilot k).x) (i : Fin 32) : t.xreg k i = s.xreg k i := by
  unfold xreg
  rw [h]

/-- Pilot `k`'s registers with `v` in `rd`. -/
def regsWith (p : Pilot) (rd : Fin 32) (v : Word64) : SMap Word64 := if rd = 0 then p.x else p.x.set (fun _ => 0) rd.val v

theorem setX_eq (rd : Fin 32) (v : Word64) : s.setX k rd v = s ∧ regsWith (s.pilot k) rd v = (s.pilot k).x ∨
    s.setX k rd v = s.setPilot k { s.pilot k with x := regsWith (s.pilot k) rd v } := by
  unfold setX regsWith
  by_cases h : rd = 0
  · exact .inl ⟨if_pos (congrArg Fin.val h), if_pos h⟩
  · have hv : rd.val ≠ 0 := fun e => h (Fin.ext e)
    exact .inr (by rw [if_neg hv, if_neg h])

theorem pilotOnly_setX (rd : Fin 32) (v : Word64) : PilotOnly k { s.pilot k with x := regsWith (s.pilot k) rd v } s (s.setX k rd v) := by
  rcases setX_eq (s := s) (k := k) rd v with ⟨e, hx⟩ | e
  · rw [e, hx]
    exact pilotOnly_refl
  · rw [e]
    exact pilotOnly_setPilot _

theorem PilotOnly.setX (h : PilotOnly k p s t) (rd : Fin 32) (v : Word64) : PilotOnly k { p with x := regsWith p rd v } s (t.setX k rd v) := by
  obtain ⟨hp, others, only⟩ := h
  obtain ⟨hp', others', only'⟩ := pilotOnly_setX (s := t) (k := k) rd v
  exact ⟨by rw [hp', hp], fun j hj => (others' j hj).trans (others j hj), only.trans only'⟩

theorem pilot_setX (rd : Fin 32) (v : Word64) : (s.setX k rd v).pilot k = { s.pilot k with x := regsWith (s.pilot k) rd v } :=
  (pilotOnly_setX rd v).1

/-- A register reads what was written to it; x0 reads 0 (R73). -/
theorem xreg_setX (rd : Fin 32) (v : Word64) (i : Fin 32) : (s.setX k rd v).xreg k i = if i = rd ∧ rd ≠ 0 then v else s.xreg k i := by
  unfold xreg
  rw [pilot_setX]
  unfold regsWith
  by_cases hi : i.val = 0
  · have : ¬(i = rd ∧ rd ≠ 0) := fun ⟨e, h⟩ => h (e ▸ Fin.ext hi)
    rw [if_pos hi, if_neg this, if_pos hi]
  by_cases hr : rd = 0
  · rw [if_neg hi, if_pos hr, if_neg fun h => h.2 hr, if_neg hi]
  · rw [if_neg hi, if_neg hr, SMap.get_set, if_neg hi]
    by_cases e : i = rd
    · rw [if_pos (congrArg Fin.val e), if_pos ⟨e, hr⟩]
    · rw [if_neg fun h => e (Fin.ext h), if_neg fun h => e h.1]

theorem puts_setX (rd : Fin 32) (v : Word64) : Puts k rd v s (s.setX k rd v) := xreg_setX rd v

theorem Puts.congr {rd : Fin 32} {v : Word64} (h : Puts k rd v s t) (e : (u.pilot k).x = (t.pilot k).x) : Puts k rd v s u :=
  fun i => (xreg_congr e i).trans (h i)

/-! ### Retirement (R78, R84) -/

theorem pilot_retireTo (pc : Nat) : (t.retireTo k pc).pilot k = { t.pilot k with pc := pc, retired := ((t.pilot k).retired + 1) % 2 ^ 64 } :=
  pilot_setPilot_same ..

theorem xreg_retireTo (pc : Nat) (i : Fin 32) : (t.retireTo k pc).xreg k i = t.xreg k i := xreg_congr (by rw [pilot_retireTo]) i

theorem pred_congr (h : (t.pilot k).preds = (s.pilot k).preds) (i : Fin 8) : t.pred k i = s.pred k i := by
  unfold pred predsOf
  rw [h]

theorem PilotOnly.retiresAt (h : PilotOnly k p s t) (hr : p.retired = (s.pilot k).retired) (pc : Nat) : RetiresAt k pc p s (t.retireTo k pc) := by
  unfold RetiresAt retireTo
  rw [h.1, hr]
  exact h.setPilot _

/-! ### What the outcome makes of the state in which the instruction issued (R78, R85) -/

/-- An instruction whose body came to `o` in state `s` has run. -/
def finish (s : State) (k : Nat) : IOut → State
  | .retire t => t.retireTo k ((s.pilot k).pc + 4)
  | .jump t pc => t.retireTo k pc
  | .exc c v => s.takeExc k c v (s.pilot k).pc
  | .stall => s

theorem issue_eq_finish {w : Nat} {body : State → IOut} (h : s.issues k g) : s.issue k w g body = finish s k (body s) := by
  obtain ⟨hst, hpc, hres, hg⟩ := h
  have reserved : ¬(g.n && decide (g.p.val = 0)) = true := fun e => by
    rw [Bool.and_eq_true, decide_eq_true_eq] at e
    exact hres ⟨e.1, Fin.ext e.2⟩
  have guard : ¬(!s.guardOk k g) = true := by
    unfold guardOk
    rw [Bool.not_eq_true', bne_eq_false_iff_eq]
    exact hg
  unfold issue
  dsimp only
  rw [if_neg (not_not.mpr hst), if_neg (Nat.not_le.mpr hpc), if_neg reserved, if_neg guard]
  cases body s <;> rfl

/-- The one rule of an instruction that issues: `c` runs `body`, which comes to `o`. -/
theorem completes_of_issues {c : Instr} {w : Nat} {body : State → IOut} {o : IOut} {post : State → Prop} (hi : s.issues k g)
    (he : exec c s = .next (s.issue k w g body)) (hb : body s = o) (hp : post (finish s k o)) : Completes c s post :=
  ⟨_, he.trans (congrArg _ ((issue_eq_finish hi).trans (congrArg _ hb))), hp⟩

theorem gives_setX (rd : Fin 32) (v : Word64) : Gives k rd v s (finish s k (s.put k rd v)) := by
  unfold put
  refine ⟨(puts_setX rd v).congr (by rw [finish, pilot_retireTo]), ?_⟩
  rw [finish, pilot_retireTo, pilot_setX]
  exact (pilotOnly_setX rd v).retiresAt rfl _

/-- A caught exception enters the handler (R86). -/
theorem takeExc_caught (h : s.catches k) (c : Nat) (v : Word64) (epc : Nat) : s.takeExc k c v epc = s.setPilot k { s.pilot k with
    epc := BitVec.ofNat 64 epc, ecause := c, eval := v, handler := true, pc := (s.pilot k).evec.toNat / 4 * 4 } := by
  unfold takeExc
  dsimp only
  rw [if_neg (Bool.eq_false_iff.mp h.1), if_neg h.2]

theorem raises_takeExc (h : s.catches k) (c : Nat) (v : Word64) : Raises k c v s (finish s k (.exc c v)) := by
  rw [finish, takeExc_caught h]
  exact pilotOnly_setPilot _

theorem ifZero_zero {w : Nat} {o : IOut} {ok : Bool} (h : ok = true) : ifZero ok w o = o := by
  rw [h]
  rfl

theorem ifZero_reserved {w : Nat} {o : IOut} {ok : Bool} (h : ok = false) : ifZero ok w o = .exc 1 (BitVec.ofNat 64 w) := by
  rw [h]
  rfl

/-- An instruction that gives `v` in `rd`. -/
theorem completes_gives {c : Instr} {w : Nat} {body : State → IOut} {rd : Fin 32} {v : Word64} (hi : s.issues k g)
    (he : exec c s = .next (s.issue k w g body)) (hb : body s = s.put k rd v) : Completes c s (Gives k rd v s) :=
  completes_of_issues hi he hb (gives_setX rd v)

/-- An instruction that raises an exception. -/
theorem completes_raises {c : Instr} {w n : Nat} {body : State → IOut} {v : Word64} (hi : s.issues k g) (hc : s.catches k)
    (he : exec c s = .next (s.issue k w g body)) (hb : body s = .exc n v) : Completes c s (Raises k n v s) :=
  completes_of_issues hi he hb (raises_takeExc hc n v)

/-- An instruction that retires and changes its own pilot alone, to `p`. -/
theorem completes_retires {c : Instr} {w : Nat} {body : State → IOut} (hi : s.issues k g)
    (he : exec c s = .next (s.issue k w g body)) (hb : body s = .retire (s.setPilot k p)) (hr : p.retired = (s.pilot k).retired) :
    Completes c s (RetiresAt k ((s.pilot k).pc + 4) p s) :=
  completes_of_issues hi he hb ((pilotOnly_setPilot p).retiresAt hr _)

end Sys2Proof.Machine
end

section
/-! PROOFS. O24: arithmetic, loads and stores of the pilots (R75, R76, R78 to R83, R85). -/

namespace Sys2Proof.Machine

open State

variable {s t : State} {k : Fin 16} {g : Guard} {a b v : Word64}

/-! ### The ALU functions (R81, R82) -/

/-- R81's table of the functions. -/
def aluTable (a b : Word64) : List (Nat × Word64) :=
  [(0, a + b), (1, a - b), (2, a &&& b), (3, a ||| b), (4, a ^^^ b),
    (5, a <<< (b.toNat % 64)), (6, a >>> (b.toNat % 64)), (7, a.sshiftRight (b.toNat % 64)),
    (8, a * b), (9, BitVec.ofNat 64 (a.toNat * b.toNat / 2 ^ 64)),
    (10, if b = 0 then BitVec.allOnes 64 else BitVec.ofNat 64 (a.toNat / b.toNat)),
    (11, if b = 0 then a else BitVec.ofNat 64 (a.toNat % b.toNat)),
    (12, if a.toNat ≤ b.toNat then a else b), (13, if a.toNat ≤ b.toNat then b else a),
    (14, if a.toInt ≤ b.toInt then a else b), (15, if a.toInt ≤ b.toInt then b else a)]

theorem alu_mulHigh : alu 9 a b = some (BitVec.ofNat 64 (a.toNat * b.toNat / 2 ^ 64)) := by
  rw [← Nat.shiftRight_eq_div_pow]
  rfl

theorem alu_div : alu 10 a b = some (if b = 0 then BitVec.allOnes 64 else BitVec.ofNat 64 (a.toNat / b.toNat)) := by
  have e : BitVec.ofNat 64 (a.toNat / b.toNat) = a / b := BitVec.eq_of_toNat_eq (by
    rw [BitVec.toNat_ofNat, BitVec.toNat_udiv]
    exact Nat.mod_eq_of_lt (Nat.lt_of_le_of_lt (Nat.div_le_self _ _) a.isLt))
  rw [e]
  rfl

theorem alu_rem : alu 11 a b = some (if b = 0 then a else BitVec.ofNat 64 (a.toNat % b.toNat)) := by
  have e : BitVec.ofNat 64 (a.toNat % b.toNat) = a % b := BitVec.eq_of_toNat_eq (by
    rw [BitVec.toNat_ofNat, BitVec.toNat_umod]
    exact Nat.mod_eq_of_lt (Nat.lt_of_le_of_lt (Nat.mod_le _ _) a.isLt))
  rw [e]
  rfl

/-- Of two operands that compare equal either is the smaller and the larger. -/
theorem select_le {x y : Word64} (hu : a.toNat = b.toNat → x = y) :
    (if a.toNat < b.toNat then x else y) = if a.toNat ≤ b.toNat then x else y := by
  by_cases h : a.toNat < b.toNat
  · rw [if_pos h, if_pos h.le]
  · rw [if_neg h]
    split
    · exact (hu (by omega)).symm
    · rfl

theorem select_le_signed {x y : Word64} (hu : a.toInt = b.toInt → x = y) :
    (if a.toInt < b.toInt then x else y) = if a.toInt ≤ b.toInt then x else y := by
  by_cases h : a.toInt < b.toInt
  · rw [if_pos h, if_pos h.le]
  · rw [if_neg h]
    split
    · exact (hu (by omega)).symm
    · rfl

theorem alu_of_table {n : Nat} (h : (n, v) ∈ aluTable a b) : alu n a b = some v := by
  simp only [aluTable, List.mem_cons, List.not_mem_nil, or_false, Prod.mk.injEq] at h
  rcases h with ⟨rfl, rfl⟩ | ⟨rfl, rfl⟩ | ⟨rfl, rfl⟩ | ⟨rfl, rfl⟩ | ⟨rfl, rfl⟩ | ⟨rfl, rfl⟩ | ⟨rfl, rfl⟩ | ⟨rfl, rfl⟩ | ⟨rfl, rfl⟩ |
    ⟨rfl, rfl⟩ | ⟨rfl, rfl⟩ | ⟨rfl, rfl⟩ | ⟨rfl, rfl⟩ | ⟨rfl, rfl⟩ | ⟨rfl, rfl⟩ | ⟨rfl, rfl⟩
  case inr.inr.inr.inr.inr.inr.inr.inr.inr.inl => exact alu_mulHigh
  case inr.inr.inr.inr.inr.inr.inr.inr.inr.inr.inl => exact alu_div
  case inr.inr.inr.inr.inr.inr.inr.inr.inr.inr.inr.inl => exact alu_rem
  case inr.inr.inr.inr.inr.inr.inr.inr.inr.inr.inr.inr.inl => exact congrArg some (select_le BitVec.eq_of_toNat_eq)
  case inr.inr.inr.inr.inr.inr.inr.inr.inr.inr.inr.inr.inr.inl => exact congrArg some (select_le fun e => (BitVec.eq_of_toNat_eq e).symm)
  case inr.inr.inr.inr.inr.inr.inr.inr.inr.inr.inr.inr.inr.inr.inl => exact congrArg some (select_le_signed BitVec.eq_of_toInt_eq)
  case inr.inr.inr.inr.inr.inr.inr.inr.inr.inr.inr.inr.inr.inr.inr => exact congrArg some (select_le_signed fun e => (BitVec.eq_of_toInt_eq e).symm)
  all_goals rfl

theorem alu_reserved {n : Nat} (h : 16 ≤ n) : alu n a b = none := by
  obtain ⟨m, rfl⟩ := Nat.exists_eq_add_of_le h
  rw [Nat.add_comm]
  rfl

/-! ### Shifts by an immediate (R80) -/

/-- The shift by `n` of SHI's kind `c`; kind 3 is ILLEGAL with the word `w` (R80). -/
def shiftKind (s : State) (k : Nat) (rd : Fin 32) (a : Word64) (n w : Nat) : Nat → IOut
  | 0 => s.put k rd (a <<< n)
  | 1 => s.put k rd (a >>> n)
  | 2 => s.put k rd (a.sshiftRight n)
  | _ => illegal w

/-- What SHI does by its immediate `i` (R80). -/
def shiftOut (s : State) (k : Nat) (rd : Fin 32) (a : Word64) (i w : Nat) : IOut :=
  if bits i 9 6 ≠ 0 then illegal w else shiftKind s k rd a (i % 64) w (bits i 11 10)

theorem shiftOut_kind {rd : Fin 32} {c n w : Nat} (hc : c < 4) (hn : n < 64) :
    shiftOut s k rd a (c * 0x400 + n) w = shiftKind s k rd a n w c := by
  have reserved : bits (c * 0x400 + n) 9 6 = 0 := by
    simp only [bits, Nat.shiftRight_eq_div_pow, Nat.reduceAdd, Nat.reduceSub, Nat.reducePow]
    omega
  have kind : bits (c * 0x400 + n) 11 10 = c := by
    simp only [bits, Nat.shiftRight_eq_div_pow, Nat.reduceAdd, Nat.reduceSub, Nat.reducePow]
    omega
  have count : (c * 0x400 + n) % 64 = n := by omega
  unfold shiftOut
  rw [if_neg (not_not.mpr reserved), kind, count]

theorem shiftOut_of_table {rd : Fin 32} {n i w : Nat} (hn : n < 64)
    (h : (i, v) ∈ [(n, a <<< n), (0x400 + n, a >>> n), (0x800 + n, a.sshiftRight n)]) : shiftOut s k rd a i w = s.put k rd v := by
  simp only [List.mem_cons, List.not_mem_nil, or_false, Prod.mk.injEq] at h
  rcases h with ⟨hi, rfl⟩ | ⟨rfl, rfl⟩ | ⟨rfl, rfl⟩
  · rw [show i = 0 * 0x400 + n by omega]
    exact shiftOut_kind (c := 0) (by decide) hn
  · exact shiftOut_kind (c := 1) (by decide) hn
  · exact shiftOut_kind (c := 2) (by decide) hn

theorem shiftOut_reserved {rd : Fin 32} {n w : Nat} (hl : n < 4096) (h : 0xC00 ≤ n ∨ 64 ≤ n % 1024) :
    shiftOut s k rd a n w = illegal w := by
  by_cases hr : bits n 9 6 = 0
  · simp only [bits, Nat.shiftRight_eq_div_pow, Nat.reduceAdd, Nat.reduceSub, Nat.reducePow] at hr
    rw [show n = 3 * 0x400 + n % 64 by omega]
    exact shiftOut_kind (c := 3) (by decide) (Nat.mod_lt _ (by decide))
  · exact if_pos hr

theorem arithmetic_effect (k : Fin 16) (g : Guard) (s : State) (hi : s.issues k g) :
    (∀ (f : FmtA) (a b v : Word64), a = s.xreg k f.rs1 → b = s.xreg k f.rs2 → (f.fn.val, v) ∈ aluTable a b →
      Completes (.alu k g f) s (Gives k f.rd v s)) ∧
    (∀ f : FmtA, 16 ≤ f.fn.val → s.catches k → Completes (.alu k g f) s (Raises k 1 (BitVec.ofNat 64 (wordA 0x00 g f)) s)) ∧
    (∀ f : FmtI,
      Completes (.addi k g f) s (Gives k f.rd (s.xreg k f.rs1 + f.imm.signExtend 64) s) ∧
      Completes (.andi k g f) s (Gives k f.rd (s.xreg k f.rs1 &&& f.imm.signExtend 64) s) ∧
      Completes (.ori k g f) s (Gives k f.rd (s.xreg k f.rs1 ||| f.imm.zeroExtend 64) s) ∧
      Completes (.xori k g f) s (Gives k f.rd (s.xreg k f.rs1 ^^^ f.imm.zeroExtend 64) s) ∧
      (∀ (n : Nat) (v : Word64), n < 64 →
        (f.imm.toNat, v) ∈ [(n, s.xreg k f.rs1 <<< n), (0x400 + n, s.xreg k f.rs1 >>> n), (0x800 + n, (s.xreg k f.rs1).sshiftRight n)] →
        Completes (.shi k g f) s (Gives k f.rd v s)) ∧
      (0xC00 ≤ f.imm.toNat ∨ f.imm.toNat % 1024 ≥ 64 → s.catches k →
        Completes (.shi k g f) s (Raises k 1 (BitVec.ofNat 64 (wordI 0x05 g f)) s))) ∧
    ∀ f : FmtU, Completes (.lui k g f) s (Gives k f.rd (f.imm.signExtend 64 <<< 12) s) := by
  refine ⟨?_, fun f hf hc => ?_, fun f => ⟨?_, ?_, ?_, ?_, fun n v hn hv => ?_, fun hr hc => ?_⟩, fun f => ?_⟩
  · rintro f _ _ v rfl rfl hv
    exact completes_gives hi rfl (by rw [alu_of_table hv])
  · exact completes_raises hi hc rfl (by rw [alu_reserved hf]; rfl)
  · exact completes_gives hi rfl rfl
  · exact completes_gives hi rfl rfl
  · exact completes_gives hi rfl rfl
  · exact completes_gives hi rfl rfl
  · exact completes_gives hi rfl (shiftOut_of_table (w := wordI 0x05 g f) hn hv)
  · exact completes_raises hi hc rfl (shiftOut_reserved f.imm.isLt hr)
  · exact completes_gives hi rfl rfl

/-! ### Loads (R75, R80, R83) -/

theorem loadBytes_eq_map (s : State) (k : Nat) : (n a : Nat) → s.loadBytes k a n = (List.range n).map fun i => s.loadByte k (a + i)
  | 0, _ => rfl
  | n + 1, a => by
    rw [loadBytes, loadBytes_eq_map s k n (a + 1), List.range_succ_eq_map, List.map_cons, List.map_map]
    refine congrArg _ (List.map_congr_left fun i _ => ?_)
    rw [Function.comp_apply]
    exact congrArg _ (by omega)

theorem loadable_iff {a : Nat} : loadable a = true ↔ a < 0x18000 ∨ 0x20000 ≤ a ∧ a < 0x60000 := by
  unfold loadable
  rw [Bool.or_eq_true, decide_eq_true_eq, decide_eq_true_eq]

/-- LD, LW, LH and LB are the loads of their sizes. -/
theorem exec_load {f : FmtI} {c : Instr} {n : Nat} (h : (c, n) ∈ [(Instr.ld k g f, 8), (.lw k g f, 4), (.lh k g f, 2), (.lb k g f, 1)]) :
    ∃ w, exec c s = .next (s.issue k w g fun s => s.load k n f) := by
  simp only [List.mem_cons, List.not_mem_nil, or_false, Prod.mk.injEq] at h
  rcases h with ⟨rfl, rfl⟩ | ⟨rfl, rfl⟩ | ⟨rfl, rfl⟩ | ⟨rfl, rfl⟩ <;> exact ⟨_, rfl⟩

theorem load_effect (k : Fin 16) (g : Guard) (f : FmtI) (c : Instr) (n : Nat) (a : Word64) (s : State) (hi : s.issues k g)
    (hc : (c, n) ∈ [(Instr.ld k g f, 8), (.lw k g f, 4), (.lh k g f, 2), (.lb k g f, 1)]) (ha : a = s.xreg k f.rs1 + f.imm.signExtend 64) :
    (a.toNat % n = 0 → (a.toNat < 0x18000 ∨ 0x20000 ≤ a.toNat ∧ a.toNat < 0x60000) →
      Completes c s (Gives k f.rd (BitVec.ofNat 64 (ofBytesLE ((List.range n).map fun i => s.loadByte k (a.toNat + i)))) s)) ∧
    (a.toNat % n ≠ 0 → s.catches k → Completes c s (Raises k 2 a s)) ∧
    (a.toNat % n = 0 → (0x18000 ≤ a.toNat ∧ a.toNat < 0x20000 ∨ 0x60000 ≤ a.toNat) → s.catches k → Completes c s (Raises k 3 a s)) := by
  obtain ⟨w, he⟩ := exec_load (s := s) hc
  have hea : s.ea k f = a := ha.symm
  refine ⟨fun hm hl => completes_gives hi he ?_, fun hm hk => completes_raises hi hk he ?_, fun hm hl hk => completes_raises hi hk he ?_⟩
  · rw [load, hea, if_neg (not_not.mpr hm), loadable_iff.mpr hl, loadBytes_eq_map]
    rfl
  · rw [load, hea, if_pos hm]
  · have : loadable a.toNat = false := Bool.eq_false_iff.mpr fun h => by
      have := loadable_iff.mp h
      omega
    rw [load, hea, if_neg (not_not.mpr hm), this]
    rfl

/-! ### Stores (R75, R76, R80, R83) -/

theorem exec_store {f : FmtI} {c : Instr} {n : Nat} (h : (c, n) ∈ [(Instr.sd k g f, 8), (.sw k g f, 4), (.sh k g f, 2), (.sb k g f, 1)]) :
    ∃ w, exec c s = .next (s.issue k w g fun s => s.store k n f) := by
  simp only [List.mem_cons, List.not_mem_nil, or_false, Prod.mk.injEq] at h
  rcases h with ⟨rfl, rfl⟩ | ⟨rfl, rfl⟩ | ⟨rfl, rfl⟩ | ⟨rfl, rfl⟩ <;> exact ⟨_, rfl⟩

/-- Byte `i` of a little-endian value. -/
theorem getElem?_bytesLE : (n v i : Nat) → i < n → (bytesLE n v)[i]? = some (BitVec.ofNat 8 (v >>> (8 * i)))
  | n + 1, v, 0, _ => by simp [bytesLE]
  | n + 1, v, i + 1, h => by
    rw [bytesLE, List.getElem?_cons_succ, getElem?_bytesLE n _ i (by omega), ← Nat.shiftRight_add]
    exact congrArg (fun j => some (BitVec.ofNat 8 (v >>> j))) (by omega)

theorem get_storeBytes_outside {m : SMap Byte} {bs : List Byte} {a x : Nat} (h : x < a ∨ a + bs.length ≤ x) :
    SMap.get (fun _ => (0 : Byte)) (storeBytes m a bs) x = SMap.get (fun _ => 0) m x := by
  rw [get_storeBytes]
  split
  · rw [List.getElem?_eq_none (by omega)]
    rfl
  · rfl

theorem get_storeBytes_inside {m : SMap Byte} {bs : List Byte} {a i : Nat} (h : i < bs.length) :
    SMap.get (fun _ => (0 : Byte)) (storeBytes m a bs) (a + i) = bs.getD i 0 := by
  rw [get_storeBytes, if_pos (Nat.le_add_right _ _), Nat.add_sub_cancel_left, List.getElem?_eq_getElem h, List.getD_eq_getElem _ _ h]
  rfl

/-- What a load sees, by where its address lies (R75, R76). -/
theorem loadByte_congr {x : Nat} (hp : (t.pilot k).prog = (s.pilot k).prog) (hb : (t.pilot k).banks = (s.pilot k).banks)
    (hd : 0x10000 ≤ x → x < 0x18000 → SMap.get (fun _ => (0 : Byte)) (t.pilot k).data x = SMap.get (fun _ => 0) (s.pilot k).data x)
    (hs : 0x18000 ≤ x → t.shared.get (fun _ => 0) x = s.shared.get (fun _ => 0) x) (hu : t.published = s.published) :
    t.loadByte k x = s.loadByte k x := by
  unfold loadByte ownsBank
  rw [hp, hb, hu]
  by_cases h1 : x < 0x10000
  · rw [if_pos h1, if_pos h1]
  by_cases h2 : x < 0x18000
  · rw [if_neg h1, if_neg h1, if_pos h2, if_pos h2, hd (by omega) h2]
  · rw [if_neg h1, if_neg h1, if_neg h2, if_neg h2, hs (by omega)]

theorem loadByte_data {x : Nat} (hl : 0x10000 ≤ x) (hh : x < 0x18000) : s.loadByte k x = SMap.get (fun _ => 0) (s.pilot k).data x := by
  unfold loadByte
  rw [if_neg (by omega), if_pos hh]

theorem loadByte_shared {x : Nat} (hl : 0x20000 ≤ x) (ho : s.ownsBank k (State.bankOf x) = true) : s.loadByte k x = s.shared.get (fun _ => 0) x := by
  unfold loadByte
  rw [if_neg (by omega), if_neg (by omega), if_pos ho]

/-- Bytes `bs` stand at `a` in pilot `k`'s own data memory. -/
def dataStored (s : State) (k a : Nat) (bs : List Byte) : State := s.setPilot k { s.pilot k with data := storeBytes (s.pilot k).data a bs }

theorem storeAt_data {a : Nat} {bs : List Byte} (h : a < 0x18000) : s.storeAt k a bs = dataStored s k a bs := if_pos h

theorem storeAt_shared {a : Nat} {bs : List Byte} (h : 0x18000 ≤ a) : s.storeAt k a bs = { s with shared := storeBytes s.shared a bs } :=
  if_neg (Nat.not_lt.mpr h)

theorem pilot_dataStored (a : Nat) (bs : List Byte) :
    (dataStored s k a bs).pilot k = { s.pilot k with data := storeBytes (s.pilot k).data a bs } := pilot_setPilot_same ..

/-- Bytes that were stored at `a`: the pilot loads them, and every other byte and every published copy stays. -/
structure Stored (k : Fin 16) (a : Nat) (bs : List Byte) (s t : State) : Prop where
  inside : ∀ i, i < bs.length → t.loadByte k (a + i) = bs.getD i 0
  outside : ∀ x, (x < a ∨ a + bs.length ≤ x) → t.loadByte k x = s.loadByte k x ∧ t.shared.get (fun _ => 0) x = s.shared.get (fun _ => 0) x
  pilot : t.pilot k = { s.pilot k with data := (t.pilot k).data }
  others : ∀ j, j ≠ k.val → t.pilot j = s.pilot j
  only : Only [.pilots, .shared] s t

theorem stored_data {a : Nat} {bs : List Byte} (hl : 0x10000 ≤ a) (hh : a + bs.length ≤ 0x18000) : Stored k a bs s (dataStored s k a bs) where
  inside i hi := by
    rw [loadByte_data (by omega) (by omega), pilot_dataStored]
    exact get_storeBytes_inside hi
  outside x hx := by
    have hp := pilot_dataStored (s := s) (k := k) a bs
    refine ⟨loadByte_congr (by rw [hp]) (by rw [hp]) (fun _ _ => ?_) (fun _ => rfl) rfl, rfl⟩
    rw [hp]
    exact get_storeBytes_outside hx
  pilot := by rw [pilot_dataStored]
  others j hj := pilot_setPilot_other s _ hj
  only := (only_pilots _).mono fun p hp => by rw [List.mem_singleton.mp hp]; decide

theorem only_shared (x : SMap Byte) : Only [.shared] s { s with shared := x } := fun p hp => by
  cases p with
  | shared => exact absurd (List.mem_singleton.mpr rfl) hp
  | _ => rfl

theorem stored_shared {a : Nat} {bs : List Byte} (hl : 0x20000 ≤ a) (ho : ∀ i, i < bs.length → s.ownsBank k (State.bankOf (a + i)) = true) :
    Stored k a bs s { s with shared := storeBytes s.shared a bs } where
  inside i hi := (loadByte_shared (s := { s with shared := storeBytes s.shared a bs }) (by omega) (ho i hi)).trans (get_storeBytes_inside hi)
  outside x hx := ⟨loadByte_congr (t := { s with shared := storeBytes s.shared a bs }) rfl rfl (fun _ _ => rfl) (fun _ => get_storeBytes_outside hx) rfl, get_storeBytes_outside hx⟩
  pilot := rfl
  others _ _ := rfl
  only := (only_shared _).mono fun p hp => by rw [List.mem_singleton.mp hp]; decide

/-- An aligned store of up to 8 bytes at an address of the pilot's own memory. -/
theorem stored_storeAt {a n : Nat} {bs : List Byte} (hn : n = 8 ∨ n = 4 ∨ n = 2 ∨ n = 1) (hm : a % n = 0) (hl : bs.length = n)
    (h : 0x10000 ≤ a ∧ a < 0x18000 ∨ 0x20000 ≤ a ∧ a < 0x60000 ∧ s.ownsBank k (State.bankOf a) = true) : Stored k a bs s (s.storeAt k a bs) := by
  rcases h with ⟨hlo, hhi⟩ | ⟨hlo, hhi, ho⟩
  · rw [storeAt_data hhi]
    exact stored_data hlo (by rcases hn with rfl | rfl | rfl | rfl <;> omega)
  · rw [storeAt_shared (by omega)]
    refine stored_shared hlo fun i hi => ?_
    have : State.bankOf (a + i) = State.bankOf a := by
      unfold State.bankOf
      rcases hn with rfl | rfl | rfl | rfl <;> omega
    rw [this]
    exact ho

/-- What a store that retires leaves. -/
theorem Stored.finish {a : Nat} {bs : List Byte} (h : Stored k a bs s t) :
    (∀ i, i < bs.length → (finish s k (.retire t)).loadByte k (a + i) = bs.getD i 0) ∧
    (∀ x, (x < a ∨ a + bs.length ≤ x) → (finish s k (.retire t)).loadByte k x = s.loadByte k x ∧
      (finish s k (.retire t)).shared.get (fun _ => 0) x = s.shared.get (fun _ => 0) x) ∧
    (finish s k (.retire t)).pilot k = { s.pilot k with
      data := ((finish s k (.retire t)).pilot k).data, pc := (s.pilot k).pc + 4, retired := ((s.pilot k).retired + 1) % 2 ^ 64 } ∧
    (∀ j, j ≠ k.val → (finish s k (.retire t)).pilot j = s.pilot j) ∧ Only [.pilots, .shared] s (finish s k (.retire t)) := by
  rw [Machine.finish]
  have hp := pilot_retireTo (t := t) (k := k) ((s.pilot k).pc + 4)
  have same : ∀ x, (t.retireTo k ((s.pilot k).pc + 4)).loadByte k x = t.loadByte k x := fun x =>
    loadByte_congr (by rw [hp]) (by rw [hp]) (fun _ _ => by rw [hp]) (fun _ => rfl) rfl
  refine ⟨fun i hi => (same _).trans (h.inside i hi), fun x hx => ⟨(same x).trans (h.outside x hx).1, (h.outside x hx).2⟩, ?_,
    fun j hj => (pilot_setPilot_other _ _ hj).trans (h.others j hj), h.only.trans ((only_pilots _).mono fun p hp => by rw [List.mem_singleton.mp hp]; decide)⟩
  rw [hp, h.pilot]

theorem storeCause_program {a : Nat} (h : a < 0x10000) : s.storeCause k a = 4 := if_pos h

theorem storeCause_own {a : Nat} (h : 0x10000 ≤ a ∧ a < 0x18000 ∨ 0x20000 ≤ a ∧ a < 0x60000 ∧ s.ownsBank k (State.bankOf a) = true) :
    s.storeCause k a = 0 := by
  unfold storeCause
  rcases h with ⟨hl, hh⟩ | ⟨hl, hh, ho⟩
  · rw [if_neg (by omega), if_pos hh]
  · rw [if_neg (by omega), if_neg (by omega), if_pos ⟨hl, hh⟩, if_pos ho]

theorem storeCause_bus {a : Nat} (h : 0x20000 ≤ a ∧ a < 0x60000 ∧ s.ownsBank k (State.bankOf a) = false ∨ 0x18000 ≤ a ∧ a < 0x20000 ∨ 0x60000 ≤ a) :
    s.storeCause k a = 3 := by
  unfold storeCause
  rw [if_neg (by omega), if_neg (by omega)]
  rcases h with ⟨hl, hh, ho⟩ | h
  · rw [if_pos ⟨hl, hh⟩, ho]
    rfl
  · rw [if_neg (by omega)]

theorem store_effect (k : Fin 16) (g : Guard) (f : FmtI) (c : Instr) (n : Nat) (a : Word64) (s : State) (hi : s.issues k g)
    (hc : (c, n) ∈ [(Instr.sd k g f, 8), (.sw k g f, 4), (.sh k g f, 2), (.sb k g f, 1)]) (ha : a = s.xreg k f.rs1 + f.imm.signExtend 64) :
    (a.toNat % n = 0 → (0x10000 ≤ a.toNat ∧ a.toNat < 0x18000 ∨
        0x20000 ≤ a.toNat ∧ a.toNat < 0x60000 ∧ s.ownsBank k ((a.toNat - 0x20000) / 0x4000) = true) →
      Completes c s fun t =>
        (∀ i, i < n → t.loadByte k (a.toNat + i) = BitVec.ofNat 8 ((s.xreg k f.rd).toNat >>> (8 * i))) ∧
        (∀ x, (x < a.toNat ∨ a.toNat + n ≤ x) → t.loadByte k x = s.loadByte k x ∧ t.shared.get (fun _ => 0) x = s.shared.get (fun _ => 0) x) ∧
        t.pilot k = { s.pilot k with data := (t.pilot k).data, pc := (s.pilot k).pc + 4, retired := ((s.pilot k).retired + 1) % 2 ^ 64 } ∧
        (∀ j, j ≠ k.val → t.pilot j = s.pilot j) ∧ Only [.pilots, .shared] s t) ∧
    (a.toNat % n ≠ 0 → s.catches k → Completes c s (Raises k 2 a s)) ∧
    (a.toNat % n = 0 → a.toNat < 0x10000 → s.catches k → Completes c s (Raises k 4 a s)) ∧
    (a.toNat % n = 0 → (0x20000 ≤ a.toNat ∧ a.toNat < 0x60000 ∧ s.ownsBank k ((a.toNat - 0x20000) / 0x4000) = false ∨
        0x18000 ≤ a.toNat ∧ a.toNat < 0x20000 ∨ 0x60000 ≤ a.toNat) → s.catches k →
      Completes c s (Raises k 3 a s)) := by
  obtain ⟨w, he⟩ := exec_store (s := s) hc
  have hea : s.ea k f = a := ha.symm
  have hn : n = 8 ∨ n = 4 ∨ n = 2 ∨ n = 1 := by
    simp only [List.mem_cons, List.not_mem_nil, or_false, Prod.mk.injEq] at hc
    exact hc.imp And.right (Or.imp And.right (Or.imp And.right And.right))
  refine ⟨fun hm ho => ?_, fun hm hk => completes_raises hi hk he ?_, fun hm hl hk => completes_raises hi hk he ?_,
    fun hm hl hk => completes_raises hi hk he ?_⟩
  · have hlen := length_bytesLE n (s.xreg k f.rd).toNat
    have hst := (stored_storeAt hn hm hlen ho).finish
    rw [hlen] at hst
    obtain ⟨inside, outside, rest⟩ := hst
    refine completes_of_issues hi he (o := .retire (s.storeAt k a.toNat (bytesLE n (s.xreg k f.rd).toNat))) ?_ ⟨fun i hi => (inside i hi).trans ?_, outside, rest⟩
    · rw [store, hea, if_neg (not_not.mpr hm), storeCause_own ho]
      rfl
    · rw [List.getD_eq_getElem?_getD, getElem?_bytesLE n _ i hi]
      rfl
  · rw [store, hea, if_pos hm]
  · rw [store, hea, if_neg (not_not.mpr hm), storeCause_program hl]
    rfl
  · rw [store, hea, if_neg (not_not.mpr hm), storeCause_bus hl]
    rfl

/-- Settles O24, from the effect of the arithmetic instructions, of a load and of a store. -/
theorem pilotArithmeticAndMemory : Obligations.PilotArithmeticAndMemory := by
  unfold Obligations.PilotArithmeticAndMemory
  exact ⟨arithmetic_effect, load_effect, store_effect⟩

end Sys2Proof.Machine
end

section
/-! PROOFS. O25: predicates, branches, calls and jumps of the pilots (R73, R75, R79, R80). -/

namespace Sys2Proof.Machine

open State

variable {s t : State} {k : Fin 16} {g : Guard} {pd : Fin 8} {r : Bool}

/-! ### Predicates (R73, R79) -/

/-- Pilot `k`'s predicates with `b` in `pd`. -/
def predsWith (p : Pilot) (pd : Fin 8) (b : Bool) : Nat := if pd = 0 then p.preds else putBits p.preds pd.val pd.val (b01 b)

theorem pilotOnly_setPred (pd : Fin 8) (b : Bool) :
    PilotOnly k { s.pilot k with preds := predsWith (s.pilot k) pd b } s (s.setPred k pd b) := by
  unfold setPred predsWith
  by_cases h : pd = 0
  · have hv : pd.val = 0 := congrArg Fin.val h
    rw [if_pos hv, if_pos h]
    exact pilotOnly_refl
  · have hv : pd.val ≠ 0 := fun e => h (Fin.ext e)
    rw [if_neg hv, if_neg h]
    exact pilotOnly_setPilot _

theorem pred_eq_testBit (i : Fin 8) : s.pred k i = (decide (i = 0) || (s.pilot k).preds.testBit i.val) := by
  have one : ∀ i : Fin 8, Nat.testBit 1 i.val = decide (i = 0) := by decide
  show ((s.pilot k).preds ||| 1).testBit i.val = _
  rw [Nat.testBit_or, one, Bool.or_comm]

/-- A predicate reads what was written to it; p0 reads 1 (R73). -/
theorem pred_setPred (pd : Fin 8) (b : Bool) (i : Fin 8) : (s.setPred k pd b).pred k i = if i = pd ∧ pd ≠ 0 then b else s.pred k i := by
  rw [pred_eq_testBit, pred_eq_testBit, (pilotOnly_setPred pd b).1]
  unfold predsWith
  by_cases h : pd = 0
  · dsimp only
    rw [if_pos h, if_neg fun e : i = pd ∧ pd ≠ 0 => e.2 h]
  dsimp only
  rw [if_neg h, putBits_testBit _ _ _ _ _ (Nat.le_refl _)]
  by_cases e : i = pd
  · subst e
    rw [if_pos ⟨Nat.le_refl _, Nat.le_refl _⟩, if_pos ⟨rfl, h⟩, decide_eq_false h, Nat.sub_self]
    cases b <;> rfl
  · have hv : ¬(pd.val ≤ i.val ∧ i.val ≤ pd.val) := fun ⟨hl, hh⟩ => e (Fin.ext (by omega))
    rw [if_neg hv, if_neg fun h => e h.1]

/-- Predicate `pd` takes `b`, and nothing else changes but pc and RETIRED. -/
def SetsPred (k : Fin 16) (s : State) (pd : Fin 8) (b : Bool) (t : State) : Prop :=
  (∀ i, t.pred k i = if i = pd ∧ pd ≠ 0 then b else s.pred k i) ∧
  RetiresAt k ((s.pilot k).pc + 4) { s.pilot k with preds := (t.pilot k).preds } s t

theorem setsPred_finish (pd : Fin 8) (b : Bool) : SetsPred k s pd b (finish s k (.retire (s.setPred k pd b))) := by
  rw [finish]
  have hp := pilot_retireTo (t := s.setPred k pd b) (k := k) ((s.pilot k).pc + 4)
  refine ⟨fun i => (pred_congr (by rw [hp]) i).trans (pred_setPred pd b i), ?_⟩
  rw [hp, (pilotOnly_setPred pd b).1]
  exact (pilotOnly_setPred pd b).retiresAt rfl _

/-- An instruction that sets a predicate. -/
theorem completes_setsPred {c : Instr} {w : Nat} {body : State → IOut} (hi : s.issues k g)
    (he : exec c s = .next (s.issue k w g body)) (hb : body s = .retire (s.setPred k pd r)) : Completes c s (SetsPred k s pd r) :=
  completes_of_issues hi he hb (setsPred_finish pd r)

/-- R79's conditions. -/
def condTable (a b : Word64) : List (Nat × Bool) :=
  [(0, decide (a = b)), (1, decide (a ≠ b)), (2, decide (a.toInt < b.toInt)), (3, decide (b.toInt ≤ a.toInt)),
    (4, decide (a.toNat < b.toNat)), (5, decide (b.toNat ≤ a.toNat))]

theorem condHolds_of_table {n : Nat} {a b : Word64} (h : (n, r) ∈ condTable a b) : condHolds n a b = some r := by
  simp only [condTable, List.mem_cons, List.not_mem_nil, or_false, Prod.mk.injEq] at h
  rcases h with ⟨rfl, rfl⟩ | ⟨rfl, rfl⟩ | ⟨rfl, rfl⟩ | ⟨rfl, rfl⟩ | ⟨rfl, rfl⟩ | ⟨rfl, rfl⟩ <;> rfl

theorem condHolds_reserved {n : Nat} {a b : Word64} (h : 6 ≤ n) : condHolds n a b = none := by
  obtain ⟨m, rfl⟩ := Nat.exists_eq_add_of_le h
  rw [Nat.add_comm]
  rfl

/-- PLOG's logic (R79). -/
def logicOf (a b : Bool) : Nat → Bool
  | 0 => a && b
  | 1 => a || b
  | 2 => a != b
  | _ => a && !b

theorem logicOf_of_table {n : Nat} {a b : Bool} (h : (n, r) ∈ [(0, a && b), (1, a || b), (2, a != b), (3, a && !b)]) : logicOf a b n = r := by
  simp only [List.mem_cons, List.not_mem_nil, or_false, Prod.mk.injEq] at h
  rcases h with ⟨rfl, rfl⟩ | ⟨rfl, rfl⟩ | ⟨rfl, rfl⟩ | ⟨rfl, rfl⟩ <;> rfl

theorem getLsbD_predsOf (i : Fin 8) :
    (BitVec.ofNat 64 ((s.pilot k).preds ||| 1)).getLsbD i.val = s.pred k i := by
  rw [BitVec.getLsbD_ofNat, decide_eq_true (show i.val < 64 by omega), Bool.true_and]
  rfl

theorem compare_effect (k : Fin 16) (g : Guard) (s : State) (hi : s.issues k g) (c : Fin 8) (a b : Word64) (r : Bool)
    (hr : (c.val, r) ∈ condTable a b) :
    (∀ f : FmtP, f.z1 = 0 → f.z2 = 0 → f.cond = c → a = s.xreg k f.rs1 → b = s.xreg k f.rs2 → Completes (.pcmp k g f) s (SetsPred k s f.pd r)) ∧
    ∀ f : FmtQ, f.cond = c → a = s.xreg k f.rs1 → b = f.imm.signExtend 64 → Completes (.pcmpi k g f) s (SetsPred k s f.pd r) := by
  have holds := condHolds_of_table hr
  constructor
  · rintro f h1 h2 rfl rfl rfl
    refine completes_setsPred hi rfl ?_
    rw [holds]
    exact ifZero_zero (by rw [h1, h2]; rfl)
  · rintro f rfl rfl rfl
    exact completes_setsPred hi rfl (by rw [holds])

theorem compare_illegal (k : Fin 16) (g : Guard) (s : State) (hi : s.issues k g) :
    (∀ f : FmtP, (f.z1 ≠ 0 ∨ f.z2 ≠ 0 ∨ 6 ≤ f.cond.val) → s.catches k →
      Completes (.pcmp k g f) s (Raises k 1 (BitVec.ofNat 64 (wordP 0x14 g f)) s)) ∧
    (∀ f : FmtQ, 6 ≤ f.cond.val → s.catches k → Completes (.pcmpi k g f) s (Raises k 1 (BitVec.ofNat 64 (wordQ 0x15 g f)) s)) := by
  refine ⟨fun f hf hc => completes_raises hi hc rfl ?_, fun f hf hc => completes_raises hi hc rfl ?_⟩
  · cases holds : condHolds f.cond.val (s.xreg k f.rs1) (s.xreg k f.rs2) with
    | none => rfl
    | some b =>
      refine ifZero_reserved (Bool.eq_false_iff.mpr fun h => ?_)
      rw [Bool.and_eq_true, decide_eq_true_eq, decide_eq_true_eq] at h
      rcases hf with hf | hf | hf
      · exact hf h.1
      · exact hf h.2
      · rw [condHolds_reserved hf] at holds
        cases holds
  · rw [condHolds_reserved hf]
    rfl

theorem logic_effect (k : Fin 16) (g : Guard) (s : State) (hi : s.issues k g) (f : FmtL) (a b r : Bool) (ha : a = s.pred k f.pa)
    (hb : b = s.pred k f.pb) :
    (f.z = 0 → (f.op.val, r) ∈ [(0, a && b), (1, a || b), (2, a != b), (3, a && !b)] → Completes (.plog k g f) s (SetsPred k s f.pd r)) ∧
    (f.z ≠ 0 → s.catches k → Completes (.plog k g f) s (Raises k 1 (BitVec.ofNat 64 (wordL 0x16 g f)) s)) := by
  subst ha hb
  refine ⟨fun hz hr => completes_setsPred hi rfl ?_, fun hz hc => completes_raises hi hc rfl (ifZero_reserved (decide_eq_false hz))⟩
  rw [← logicOf_of_table hr]
  exact ifZero_zero (decide_eq_true hz)

theorem pget_effect (k : Fin 16) (g : Guard) (s : State) (hi : s.issues k g) (f : FmtA) (h1 : f.rs1 = 0) (h2 : f.rs2 = 0) (hf : f.fn = 0) :
    Completes (.pget k g f) s fun t =>
      Gives k f.rd (BitVec.ofNat 64 ((s.pilot k).preds ||| 1)) s t ∧ (f.rd ≠ 0 → ∀ i : Fin 8, (t.xreg k f.rd).getLsbD i.val = s.pred k i) := by
  obtain ⟨t, ht, hg⟩ := completes_gives (c := .pget k g f) (v := BitVec.ofNat 64 ((s.pilot k).preds ||| 1)) (rd := f.rd) hi rfl
    (ifZero_zero (by rw [zeroA, h1, h2, hf]; rfl))
  refine ⟨t, ht, hg, fun hrd i => ?_⟩
  rw [hg.1, if_pos ⟨rfl, hrd⟩, getLsbD_predsOf]

/-! ### Branches, calls and jumps (R75, R80) -/

/-- A jump that puts the return address in `rd`. -/
theorem completes_links {c : Instr} {w pc : Nat} {body : State → IOut} {rd : Fin 32} {v : Word64} (hi : s.issues k g)
    (he : exec c s = .next (s.issue k w g body)) (hb : body s = .jump (s.setX k rd v) pc) : Completes c s fun t =>
      Puts k rd v s t ∧ RetiresAt k pc { s.pilot k with x := (t.pilot k).x } s t := by
  refine completes_of_issues hi he hb ⟨(puts_setX rd v).congr (by rw [finish, pilot_retireTo]), ?_⟩
  rw [finish, pilot_retireTo, pilot_setX]
  exact (pilotOnly_setX rd v).retiresAt rfl _

theorem branch_effect (k : Fin 16) (g : Guard) (s : State) (hi : s.issues k g) (off : BitVec 22) (n : Nat)
    (hn : n = ((((s.pilot k).pc : Int) + 4 * off.toInt) % 2 ^ 32).toNat) :
    Completes (.br k g off) s (RetiresAt k n (s.pilot k) s) ∧
    Completes (.call k g off) s fun t =>
      Puts k 31 (BitVec.ofNat 64 ((s.pilot k).pc + 4)) s t ∧ RetiresAt k n { s.pilot k with x := (t.pilot k).x } s t := by
  subst hn
  exact ⟨completes_of_issues hi rfl rfl (pilotOnly_refl.retiresAt rfl _), completes_links hi rfl rfl⟩

theorem jump_effect (k : Fin 16) (g : Guard) (s : State) (hi : s.issues k g) (f : FmtI) (a : Word64)
    (ha : a = s.xreg k f.rs1 + f.imm.signExtend 64) :
    (a.toNat < 2 ^ 32 → Completes (.jr k g f) s fun t =>
      Puts k f.rd (BitVec.ofNat 64 ((s.pilot k).pc + 4)) s t ∧ RetiresAt k (a.toNat / 4 * 4) { s.pilot k with x := (t.pilot k).x } s t) ∧
    (2 ^ 32 ≤ a.toNat → s.catches k → Completes (.jr k g f) s (Raises k 3 a s)) := by
  subst ha
  exact ⟨fun h => completes_links hi rfl (if_neg (Nat.not_le.mpr h)), fun h hc => completes_raises hi hc rfl (if_pos h)⟩

/-- Settles O25, from the effect of each kind of instruction. -/
theorem pilotPredicatesAndBranches : Obligations.PilotPredicatesAndBranches := by
  unfold Obligations.PilotPredicatesAndBranches
  refine ⟨fun k g s sets hi hs => ?_, fun k g s hi => ⟨branch_effect k g s hi, jump_effect k g s hi⟩⟩
  subst hs
  obtain ⟨pcmp, pcmpi⟩ := compare_illegal k g s hi
  exact ⟨compare_effect k g s hi, pcmp, pcmpi, logic_effect k g s hi, fun f h1 h2 hf _ => pget_effect k g s hi f h1 h2 hf⟩

end Sys2Proof.Machine
end

section
/-! PROOFS. What halts and logged instructions rest on: dropped transactions, records outside replay, dockets that stay queued, and how `Pilots` is built. -/

namespace Sys2Proof.Machine

open State

variable {s t u : State} {k : Fin 16} {p q : Pilot} {ps : List Part} {as : List Nat} {d : Docket} {j : Nat}

/-! ### One pilot's core, and what `ps` and `as` name -/

theorem pilots_of_frame (h : Frame ps as s t) : Pilots k (s.pilot k) ps as s t := ⟨h.2.2 k, fun j _ => h.2.2 j, h.1, h.2.1⟩

theorem Pilots.frame (h : Pilots k p ps as s t) (h' : Frame ps as t u) : Pilots k p ps as s u :=
  ⟨(h'.2.2 k).trans h.1, fun j hj => (h'.2.2 j).trans (h.2.1 j hj), h.2.2.1.trans h'.1, fun x hx hn => (h'.2.1 x hx hn).trans (h.2.2.2 x hx hn)⟩

theorem only_pilots_side (x : SMap Pilot) : Only (ps ++ sideParts) s { s with pilots := x } :=
  (only_pilots x).mono fun p hp => by
    rw [List.mem_singleton.mp hp]
    exact List.mem_append_right _ (by decide)

theorem Pilots.setPilot {r : Pilot} (h : Pilots k p ps as s t) (hc : q.core = r.core) : Pilots k r ps as s (t.setPilot k q) :=
  ⟨(congrArg Pilot.core (pilot_setPilot_same t k q)).trans hc, fun j hj => (congrArg Pilot.core (pilot_setPilot_other t q hj)).trans (h.2.1 j hj),
    h.2.2.1.trans (only_pilots_side _), h.2.2.2⟩

theorem pilots_setPilot (q : Pilot) : Pilots k q ps as s (s.setPilot k q) := (pilots_of_frame Frame.refl).setPilot rfl

/-! ### Transactions that are dropped (R66) -/

theorem dropTxn_eq (h : Nat) : s.dropTxn h = { s with sys := (s.dropTxn h).sys } := by
  unfold dropTxn
  split <;> rfl

theorem frame_dropTxn (h : Nat) (hp : Part.sys ∈ ps) : Frame ps as s (s.dropTxn h) := by
  rw [dropTxn_eq]
  exact frame_sys _ hp

theorem pilot_dropTxn (h j : Nat) : (s.dropTxn h).pilot j = s.pilot j := by
  rw [dropTxn_eq]
  rfl

theorem landq_dropTxn (h : Nat) : (s.dropTxn h).sys.landq = s.sys.landq := by
  unfold dropTxn
  split <;> rfl

theorem slot_dropTxn {h : Nat} {x : Nat × Txn} (hx : s.slotOf h = some x) : (s.dropTxn h).slot x.1 = none := by
  unfold dropTxn
  rw [hx]
  exact slot_setSlot_same s x.1 none

theorem replaying_congr (h : t.fld Reg.LOG_STATUS_STATE = s.fld Reg.LOG_STATUS_STATE) : t.replaying = s.replaying := by
  unfold replaying
  rw [h]

/-- Outside replay a pilot's record is compared with nothing (R441). -/
theorem pilotRec_live (hr : s.replaying = false) (sub : Nat) (more : List Nat) :
    s.pilotRec k sub more = s.logRec 0x05 k sub ((s.pilot k).retired :: more) := by
  have live := (replaying_congr (aside_logRec (s := s) 0x05 k sub ((s.pilot k).retired :: more)).logState).trans hr
  unfold pilotRec compareRec
  dsimp only
  rw [live]
  rfl

/-! ### Dockets that are no unit events stay queued while events and records come (R497) -/

theorem arrivals_mergeAll {src m : Nat} (hk : d.kind ≠ 5) : (ks : List Nat) → (s : State) → d ∈ (s.pilot j).arrivals →
    d ∈ ((mergeAll src m ks s).pilot j).arrivals
  | [], _, h => h
  | k :: ks, s, h => by
    refine arrivals_mergeAll hk ks _ ?_
    by_cases e : j = k
    · subst e
      rw [pilot_setPilot_same]
      exact List.mem_map.mpr ⟨d, h, if_neg fun c => hk c.1⟩
    · rw [pilot_setPilot_other _ _ e]
      exact h

theorem arrivals_post {kind src sub payload : Nat} (h : d ∈ (s.pilot j).arrivals) : d ∈ ((s.post kind src sub payload).pilot j).arrivals := by
  unfold post live
  split
  · exact h
  · exact arrivals_deliver h _

theorem arrivals_raise {a en src m sh : Nat} (hk : d.kind ≠ 5) (h : d ∈ (s.pilot j).arrivals) :
    d ∈ ((s.raise a en src m sh).pilot j).arrivals := by
  unfold raise unitEvent
  split
  · exact h
  split
  · exact arrivals_mergeAll hk _ _ h
  · exact arrivals_post h

theorem pilots_closeSegment : s.closeSegment.continueSegment.pilots = s.pilots :=
  (keeps_continueSegment (L := 131080) (s₀ := s) (keeps_closeSegment Keeps.refl rfl) rfl).same .pilots rfl

theorem pilot_congr (e : t.pilots = s.pilots) (j : Nat) : t.pilot j = s.pilot j := by rw [State.pilot, State.pilot, e]

/-- A record leaves the pilots alone, unless it is lost, which is an event (R437). -/
theorem pilots_logRec {typ src sub : Nat} {body : List Nat} :
    (s.logRec typ src sub body).pilots = s.pilots ∨ s.logRec typ src sub body = s.loseRecord := by
  unfold logRec
  dsimp only
  split
  · split
    · exact .inr rfl
    · split
      · exact .inl pilots_closeSegment
      · exact .inl rfl
  · exact .inl rfl

theorem arrivals_logRec {typ src sub : Nat} {body : List Nat} (hk : d.kind ≠ 5) (h : d ∈ (s.pilot j).arrivals) :
    d ∈ ((s.logRec typ src sub body).pilot j).arrivals := by
  rcases pilots_logRec (s := s) (typ := typ) (src := src) (sub := sub) (body := body) with e | e
  · rw [pilot_congr e]
    exact h
  · rw [e]
    exact arrivals_raise hk h

/-- A docket that is posted reaches every subscriber with room (R88). -/
theorem mem_post {kind src sub payload : Nat} (hr : s.replaying = false) (hj : j < 16)
    (hs : (s.pilot j).st = .loaded ∨ (s.pilot j).st = .running ∨ (s.pilot j).st = .waiting) (hq : queued (s.pilot j) < 256)
    (hm : bit (s.word (Reg.PILOT_DKT_SUB_MASK j).addr).toNat kind = true) :
    ⟨kind, src % 256, sub % 65536, payload % 2 ^ 64, s.now, 0⟩ ∈ ((s.post kind src sub payload).pilot j).arrivals := by
  unfold post live
  rw [hr, if_neg Bool.false_ne_true]
  exact mem_deliver hj hs hq hm (List.range 16) (fun _ h => List.mem_range.mp h) (List.mem_range.mpr hj)

/-! ### Halts (R86) -/

/-- What a pilot's halt leaves: its transaction is dropped, its landings wait on, and subscribers learn of it. -/
structure Halted (k : Fin 16) (p : Pilot) (cause pc : Nat) (s t : State) : Prop where
  pilots : Pilots k { p with st := .halted, haltCause := cause } [.sys] [] s t
  slot : ∀ x, s.slotOf (16 + k.val) = some x → t.slot x.1 = none
  landq : t.sys.landq = s.sys.landq
  posts : ∀ j, j < 16 → j ≠ k.val → (s.pilot j).st = .running → queued (s.pilot j) < 256 →
    bit (s.word (Reg.PILOT_DKT_SUB_MASK j).addr).toNat 14 = true → ⟨0x0E, 16 + k.val, cause, pc, s.now, 0⟩ ∈ (t.pilot j).arrivals

/-- The pilot has halted and its transaction is dropped; its docket and its record are due. -/
def haltDropped (s : State) (k cause : Nat) : State := (s.setPilot k { s.pilot k with st := .halted, haltCause := cause }).dropTxn (16 + k)

/-- The pilot has halted and its docket is out; its record is due. -/
def haltPosted (s : State) (k cause pc : Nat) : State := (haltDropped s k cause).post 0x0E (16 + k) cause pc

section

variable {cause pc : Nat}

theorem now_haltDropped : (haltDropped s k cause).now = s.now := by
  unfold haltDropped
  rw [dropTxn_eq]
  rfl

theorem word_haltDropped (x : Nat) : (haltDropped s k cause).word x = s.word x := by
  unfold haltDropped
  rw [dropTxn_eq]
  rfl

theorem pilot_haltDropped_other (h : j ≠ k) : (haltDropped s k cause).pilot j = s.pilot j :=
  (pilot_dropTxn _ _).trans (pilot_setPilot_other _ _ h)

theorem replaying_haltDropped (hr : s.replaying = false) : (haltDropped s k cause).replaying = false :=
  (replaying_congr (fld_of_word (word_haltDropped _))).trans hr

theorem landq_haltDropped : (haltDropped s k cause).sys.landq = s.sys.landq := (landq_dropTxn _).trans rfl

theorem slot_haltDropped {x : Nat × Txn} (hx : s.slotOf (16 + k.val) = some x) : (haltDropped s k cause).slot x.1 = none := slot_dropTxn hx

theorem pilots_haltDropped : Pilots k { s.pilot k with st := .halted, haltCause := cause } [.sys] as s (haltDropped s k cause) :=
  (pilots_setPilot _).frame (frame_dropTxn _ (by decide))

theorem halt_eq (hr : s.replaying = false) : s.halt k cause pc =
    (haltPosted s k cause pc).logRec 0x05 k 5 [((haltPosted s k cause pc).pilot k).retired, cause] :=
  pilotRec_live ((replaying_congr (aside_post 0x0E (16 + k) cause pc).logState).trans (replaying_haltDropped hr)) 5 [cause]

theorem sys_halt (hr : s.replaying = false) : (s.halt k cause pc).sys = (haltDropped s k cause).sys := by
  rw [halt_eq hr]
  exact ((keeps_logRec (L := 148376) 5 _ 5 _ Keeps.refl rfl).same .sys rfl).trans (sys_post _ _ _ _)

theorem halted_halt (hr : s.replaying = false) (hc : cause < 65536) (hpc : pc < 2 ^ 64) :
    Halted k (s.pilot k) cause pc s (s.halt k cause pc) := by
  refine ⟨?_, fun x hx => (slot_congr (sys_halt hr) x.1).trans (slot_haltDropped hx), by rw [sys_halt hr, landq_haltDropped],
    fun j hj hjk hst hq hm => ?_⟩
  · rw [halt_eq hr]
    exact (pilots_haltDropped.frame (Frame.post _ _ _ _)).frame (Frame.logRec _ _ _ _)
  · have posted := mem_post (kind := 0x0E) (src := 16 + k) (sub := cause) (payload := pc) (replaying_haltDropped (k := k) (cause := cause) hr) hj
      (by rw [pilot_haltDropped_other hjk]; exact .inr (.inl hst)) (by rw [pilot_haltDropped_other hjk]; exact hq)
      (by rw [word_haltDropped]; exact hm)
    rw [Nat.mod_eq_of_lt (show 16 + k.val < 256 by omega), Nat.mod_eq_of_lt hc, Nat.mod_eq_of_lt hpc, now_haltDropped] at posted
    rw [halt_eq hr]
    exact arrivals_logRec (Nat.ne_of_beq_eq_false rfl) posted

end

/-- An exception that no handler takes: DOUBLE in handler mode, its own cause without a handler (R86). -/
theorem takeExc_uncaught {c n epc : Nat} {v : Word64}
    (h : (s.pilot k).handler = true ∧ n = 9 ∨ (s.pilot k).handler = false ∧ (s.pilot k).evec = 0 ∧ n = c) :
    s.takeExc k c v epc = s.halt k n epc := by
  unfold takeExc
  dsimp only
  rcases h with ⟨hh, rfl⟩ | ⟨hh, he, rfl⟩
  · rw [if_pos hh]
  · rw [if_neg (Bool.eq_false_iff.mp hh), if_pos he]

end Sys2Proof.Machine
end

section
/-! PROOFS. O29: the hash and CSR instructions, how every Marl instruction issues, and TRAP, ERET and HALT (R75, R78, R80, R84 to R86, R500). -/

namespace Sys2Proof.Machine

open State

variable {s t : State} {k : Fin 16} {g : Guard}

/-! ### The hash context (R80, R500) -/

theorem hinit_effect (fn : Fin 128) (hi : s.issues k g) :
    (fn.val < 2 → Completes (.hinit k g ⟨0, 0, 0, fn⟩) s
      (RetiresAt k ((s.pilot k).pc + 4) { s.pilot k with hashAlg := fn.val, hashed := [] } s)) ∧
    (2 ≤ fn.val → s.catches k → Completes (.hinit k g ⟨0, 0, 0, fn⟩) s (Raises k 1 (BitVec.ofNat 64 (wordA 0x30 g ⟨0, 0, 0, fn⟩)) s)) :=
  ⟨fun h => completes_retires hi rfl (ifZero_zero (decide_eq_true h)) rfl,
    fun h hc => completes_raises hi hc rfl (ifZero_reserved (decide_eq_false (Nat.not_lt.mpr h)))⟩

theorem hupd_effect (rs1 rs2 : Fin 32) (hi : s.issues k g) (a n : Nat) (ha : a = (s.xreg k rs1).toNat) (hn : n = (s.xreg k rs2).toNat) :
    (n = 0 ∨ a + n ≤ 0x18000 ∨ 0x20000 ≤ a ∧ a + n ≤ 0x60000 →
      Completes (.hupd k g ⟨0, rs1, rs2, 0⟩) s
        (RetiresAt k ((s.pilot k).pc + 4) { s.pilot k with hashed := (s.pilot k).hashed ++ s.loadBytes k a n } s)) ∧
    (0 < n → s.catches k → ∀ b, (a < 0x18000 ∧ 0x18000 < a + n ∧ b = 0x18000 ∨ 0x18000 ≤ a ∧ a < 0x20000 ∧ b = a ∨
        0x20000 ≤ a ∧ a < 0x60000 ∧ 0x60000 < a + n ∧ b = 0x60000 ∨ 0x60000 ≤ a ∧ b = a) →
      Completes (.hupd k g ⟨0, rs1, rs2, 0⟩) s (Raises k 3 (BitVec.ofNat 64 b) s)) := by
  have hbody : (if 0 < (s.xreg k rs2).toNat ∧ loadEnd (s.xreg k rs1).toNat < (s.xreg k rs1).toNat + (s.xreg k rs2).toNat then
      IOut.exc 3 (BitVec.ofNat 64 (loadEnd (s.xreg k rs1).toNat))
    else .retire (s.setPilot k { s.pilot k with hashed := (s.pilot k).hashed ++ s.loadBytes k (s.xreg k rs1).toNat (s.xreg k rs2).toNat })) =
    if 0 < n ∧ loadEnd a < a + n then IOut.exc 3 (BitVec.ofNat 64 (loadEnd a))
    else .retire (s.setPilot k { s.pilot k with hashed := (s.pilot k).hashed ++ s.loadBytes k a n }) := by rw [ha, hn]
  refine ⟨fun h => completes_retires hi rfl ((if_neg Bool.false_ne_true).trans (hbody.trans (if_neg ?_))) rfl,
    fun h0 hc b hb => completes_raises hi hc rfl ?_⟩
  · unfold loadEnd
    split_ifs <;> omega
  · have hend : loadEnd a = b := by
      unfold loadEnd
      split_ifs <;> omega
    have hbad : 0 < n ∧ loadEnd a < a + n := ⟨h0, by omega⟩
    rw [← hend]
    exact (if_neg Bool.false_ne_true).trans (hbody.trans (if_pos hbad))

theorem firstBadStore_none : (n a : Nat) → (∀ x, a ≤ x → x < a + n → s.storeCause k x = 0) → firstBadStore s k a n = none
  | 0, _, _ => rfl
  | n + 1, a, h => by
    rw [firstBadStore, if_neg (not_not.mpr (h a (Nat.le_refl _) (by omega)))]
    exact firstBadStore_none n (a + 1) fun x hl hh => h x (by omega) (by omega)

theorem firstBadStore_head {n a c : Nat} (hn : 0 < n) (h : s.storeCause k a = c) (hc : c ≠ 0) : firstBadStore s k a n = some (c, a) := by
  obtain ⟨m, rfl⟩ := Nat.exists_eq_succ_of_ne_zero hn.ne'
  rw [firstBadStore, h, if_pos hc]

/-- A store that lies in the pilot's own data memory changes nothing but that memory, even one of no bytes at its end. -/
theorem stored_private {a : Nat} {bs : List Byte} (hl : 0x10000 ≤ a) (hh : a + bs.length ≤ 0x18000) :
    Stored k a bs s (s.storeAt k a bs) ∧
    PilotOnly k { s.pilot k with data := ((s.storeAt k a bs).pilot k).data } s (s.storeAt k a bs) := by
  by_cases h : a < 0x18000
  · rw [storeAt_data h]
    refine ⟨stored_data hl hh, ?_⟩
    rw [pilot_dataStored]
    exact pilotOnly_setPilot _
  · have hbs : bs = [] := List.length_eq_zero_iff.mp (by omega)
    have e : s.storeAt k a bs = s := by
      rw [storeAt_shared (Nat.not_lt.mp h), hbs]
      rfl
    rw [e, hbs]
    exact ⟨⟨fun i hi => absurd hi (Nat.not_lt_zero i), fun _ _ => ⟨rfl, rfl⟩, rfl, fun _ _ => rfl, Only.refl⟩, pilotOnly_refl⟩

/-- HFIN's state before its result goes to rd: the digest `d` stands at `a` and the context is empty. -/
def digestStored (s : State) (k a : Nat) (d : List Byte) : State := (s.storeAt k a d).hashReset k (s.pilot k).hashAlg

theorem pilotOnly_digestStored {a : Nat} {d : List Byte} (hl : 0x10000 ≤ a) (hh : a + d.length ≤ 0x18000) :
    PilotOnly k { s.pilot k with data := ((s.storeAt k a d).pilot k).data, hashed := [] } s (digestStored s k a d) := by
  have stored := (stored_private (s := s) (k := k) hl hh).2
  unfold digestStored hashReset
  rw [stored.1]
  exact stored.setPilot _

theorem hfin_stores {rd rs1 : Fin 32} (hi : s.issues k g) {a : Nat} {d : List Byte} (ha : a = (s.xreg k rs1).toNat) (hd : d = s.digest k)
    (hl : 0x10000 ≤ a) (hh : a + d.length ≤ 0x18000) : Completes (.hfin k g ⟨rd, rs1, 0, 0⟩) s fun t =>
      Puts k rd (BitVec.ofNat 64 (ofBytesLE (d.take 8))) s t ∧
      (∀ i, i < d.length → t.loadByte k (a + i) = d.getD i 0) ∧
      (∀ x, (x < a ∨ a + d.length ≤ x) → t.loadByte k x = s.loadByte k x) ∧
      RetiresAt k ((s.pilot k).pc + 4) { s.pilot k with x := (t.pilot k).x, data := (t.pilot k).data, hashed := [] } s t := by
  subst ha hd
  generalize hd : s.digest k = d at hh ⊢
  generalize ha : (s.xreg k rs1).toNat = a at hl hh ⊢
  have stored := (stored_private (s := s) (k := k) hl hh).1
  have reset := pilotOnly_digestStored (s := s) (k := k) hl hh
  refine completes_of_issues hi rfl (o := (digestStored s k a d).put k rd (BitVec.ofNat 64 (ofBytesLE (d.take 8)))) ?_ ?_
  · have whole : firstBadStore s k a d.length = none :=
      firstBadStore_none _ _ fun x hx hx' => storeCause_own (.inl ⟨by omega, by omega⟩)
    dsimp only
    rw [hd, ha, whole]
    rfl
  · rw [put, finish]
    generalize hv : BitVec.ofNat 64 (ofBytesLE (d.take 8)) = v
    have hp : (((digestStored s k a d).setX k rd v).retireTo k ((s.pilot k).pc + 4)).pilot k = { s.pilot k with
        x := regsWith (s.pilot k) rd v, data := ((s.storeAt k a d).pilot k).data, hashed := [], pc := (s.pilot k).pc + 4,
        retired := ((s.pilot k).retired + 1) % 2 ^ 64 } := by
      rw [pilot_retireTo, pilot_setX, reset.1]
      rfl
    have loads : ∀ x, (((digestStored s k a d).setX k rd v).retireTo k ((s.pilot k).pc + 4)).loadByte k x = (s.storeAt k a d).loadByte k x :=
      fun x => loadByte_congr (by rw [hp, stored.pilot]) (by rw [hp, stored.pilot]) (fun _ _ => by rw [hp])
        (fun _ => by
          have := (pilotOnly_setX (s := digestStored s k a d) (k := k) rd v).2.2 .shared (by decide)
          exact congrArg (fun m => SMap.get (fun _ => 0) m x) this)
        ((pilotOnly_setX (s := digestStored s k a d) (k := k) rd v).2.2 .published (by decide))
    refine ⟨fun i => ?_, fun i hi => (loads _).trans (stored.inside i hi), fun x hx => (loads x).trans (stored.outside x hx).1, ?_⟩
    · rw [xreg_retireTo, xreg_setX]
      split
      · rfl
      · exact xreg_congr (by rw [reset.1]) i
    · rw [hp]
      exact (reset.setX rd v).retiresAt rfl _

theorem hfin_effect (rd rs1 : Fin 32) (hi : s.issues k g) (a : Nat) (ha : a = (s.xreg k rs1).toNat) (d : List Byte) (hd : d = s.digest k) :
    (0x10000 ≤ a → a + d.length ≤ 0x18000 →
      Completes (.hfin k g ⟨rd, rs1, 0, 0⟩) s fun t =>
        Puts k rd (BitVec.ofNat 64 (ofBytesLE (d.take 8))) s t ∧
        (∀ i, i < d.length → t.loadByte k (a + i) = d.getD i 0) ∧
        (∀ x, (x < a ∨ a + d.length ≤ x) → t.loadByte k x = s.loadByte k x) ∧
        RetiresAt k ((s.pilot k).pc + 4) { s.pilot k with x := (t.pilot k).x, data := (t.pilot k).data, hashed := [] } s t) ∧
    (a < 0x10000 → 0 < d.length → s.catches k → Completes (.hfin k g ⟨rd, rs1, 0, 0⟩) s (Raises k 4 (BitVec.ofNat 64 a) s)) := by
  refine ⟨hfin_stores hi ha hd, fun hl h0 hc => completes_raises hi hc rfl ?_⟩
  have bad : firstBadStore s k a d.length = some (4, a) := firstBadStore_head h0 (storeCause_program hl) (by decide)
  dsimp only
  rw [← ha, ← hd, bad]
  rfl

/-! ### Control and status registers (R84) -/

theorem csrRead_of_table {n : Nat} {v : Word64} (h : (n, v) ∈ [(0, (s.pilot k).evec), (1, (s.pilot k).epc),
    (2, BitVec.ofNat 64 (s.pilot k).ecause), (3, (s.pilot k).eval), (4, BitVec.ofNat 64 (s.pilot k).retired), (5, BitVec.ofNat 64 k.val),
    (6, BitVec.ofNat 64 (s.fld Reg.SYS_ARRAY_ID_ID)), (7, (s.pilot k).scratch)]) : s.csrRead k n = some v := by
  simp only [List.mem_cons, List.not_mem_nil, or_false, Prod.mk.injEq] at h
  rcases h with ⟨rfl, rfl⟩ | ⟨rfl, rfl⟩ | ⟨rfl, rfl⟩ | ⟨rfl, rfl⟩ | ⟨rfl, rfl⟩ | ⟨rfl, rfl⟩ | ⟨rfl, rfl⟩ | ⟨rfl, rfl⟩ <;> rfl

theorem csrRead_reserved {n : Nat} (h : 8 ≤ n) : s.csrRead k n = none := by
  obtain ⟨m, rfl⟩ := Nat.exists_eq_add_of_le h
  rw [Nat.add_comm]
  rfl

theorem csrWrite_of_table {n : Nat} {v : Word64} {p : Pilot} (h : (n, p) ∈ [(0, { s.pilot k with evec := v }), (1, { s.pilot k with epc := v }),
    (7, { s.pilot k with scratch := v })]) : s.csrWrite k n v = some (s.setPilot k p) ∧ p.retired = (s.pilot k).retired := by
  simp only [List.mem_cons, List.not_mem_nil, or_false, Prod.mk.injEq] at h
  rcases h with ⟨rfl, rfl⟩ | ⟨rfl, rfl⟩ | ⟨rfl, rfl⟩ <;> exact ⟨rfl, rfl⟩

theorem csrWrite_reserved {n : Nat} {v : Word64} (h0 : n ≠ 0) (h1 : n ≠ 1) (h7 : n ≠ 7) : s.csrWrite k n v = none := by
  unfold csrWrite
  split
  · exact absurd rfl h0
  · exact absurd rfl h1
  · exact absurd rfl h7
  · rfl

theorem csrr_effect (rd : Fin 32) (fn : Fin 128) (hi : s.issues k g) {v : Word64} (h : s.csrRead k fn.val = some v) :
    Completes (.csrr k g ⟨rd, 0, 0, fn⟩) s (Gives k rd v s) := completes_gives hi rfl (by rw [h]; rfl)

theorem csrw_effect (rs1 : Fin 32) (fn : Fin 128) (hi : s.issues k g) {p : Pilot}
    (h : s.csrWrite k fn.val (s.xreg k rs1) = some (s.setPilot k p) ∧ p.retired = (s.pilot k).retired) :
    Completes (.csrw k g ⟨0, rs1, 0, fn⟩) s (RetiresAt k ((s.pilot k).pc + 4) p s) :=
  completes_retires hi rfl (by rw [h.1]; rfl) h.2

theorem csr_illegal (rd rs1 : Fin 32) (fn : Fin 128) (hi : s.issues k g) (hc : s.catches k) :
    (8 ≤ fn.val → Completes (.csrr k g ⟨rd, 0, 0, fn⟩) s (Raises k 1 (BitVec.ofNat 64 (wordA 0x38 g ⟨rd, 0, 0, fn⟩)) s)) ∧
    (fn.val ≠ 0 → fn.val ≠ 1 → fn.val ≠ 7 →
      Completes (.csrw k g ⟨0, rs1, 0, fn⟩) s (Raises k 1 (BitVec.ofNat 64 (wordA 0x39 g ⟨0, rs1, 0, fn⟩)) s)) :=
  ⟨fun h => completes_raises hi hc rfl (by rw [csrRead_reserved h]; rfl),
    fun h0 h1 h7 => completes_raises hi hc rfl (by rw [csrWrite_reserved h0 h1 h7]; rfl)⟩

/-! ### How every instruction issues (R75, R78, R86) -/

/-- Every Marl instruction of pilot `k` under guard `g`. -/
def marlInstrs (k : Fin 16) (g : Guard) (a : FmtA) (i : FmtI) (u : FmtU) (p : FmtP) (q : FmtQ) (l : FmtL) (off : BitVec 22) : List Instr :=
  [Instr.alu k g a, .addi k g i, .andi k g i, .ori k g i, .xori k g i, .shi k g i, .lui k g u, .ld k g i, .lw k g i, .lh k g i,
    .lb k g i, .sd k g i, .sw k g i, .sh k g i, .sb k g i, .cld k g i, .cst k g i, .fence k g a, .pcmp k g p, .pcmpi k g q, .plog k g l,
    .pget k g a, .br k g off, .call k g off, .jr k g i, .dpop k g a, .dpost k g a, .dcnt k g a, .wait k g a, .waitu k g a, .tide k g a,
    .timr k g a, .mfld k g i, .txb k g a, .txc k g a, .txr k g a, .txw k g a, .bcmdAllocate k g a, .bcmdFree k g a, .bcmdQuery k g a,
    .pmov k g a, .hinit k g a, .hupd k g a, .hfin k g a, .csrr k g a, .csrw k g a, .trap k g u, .eret k g a, .rand k g a, .halt k g a]

theorem exec_marl {a : FmtA} {i : FmtI} {u : FmtU} {p : FmtP} {q : FmtQ} {l : FmtL} {off : BitVec 22} {c : Instr}
    (h : c ∈ marlInstrs k g a i u p q l off) : ∃ w body, exec c s = .next (s.issue k w g body) := by
  simp only [marlInstrs, List.mem_cons, List.not_mem_nil, or_false] at h
  rcases h with rfl | rfl | rfl | rfl | rfl | rfl | rfl | rfl | rfl | rfl | rfl | rfl | rfl | rfl | rfl | rfl | rfl | rfl | rfl | rfl |
    rfl | rfl | rfl | rfl | rfl | rfl | rfl | rfl | rfl | rfl | rfl | rfl | rfl | rfl | rfl | rfl | rfl | rfl | rfl | rfl |
    rfl | rfl | rfl | rfl | rfl | rfl | rfl | rfl | rfl | rfl <;> exact ⟨_, _, rfl⟩

section

variable {w : Nat} {body : State → IOut}

theorem issue_atRest (h : (s.pilot k).st ≠ .running) : s.issue k w g body = s := if_pos h

theorem issue_outside (h : (s.pilot k).st = .running) (hpc : 0x10000 ≤ (s.pilot k).pc) :
    s.issue k w g body = s.takeExc k 3 (BitVec.ofNat 64 (s.pilot k).pc) (s.pilot k).pc := by
  unfold issue
  dsimp only
  rw [if_neg (not_not.mpr h), if_pos hpc]

theorem issue_reserved (h : (s.pilot k).st = .running) (hpc : (s.pilot k).pc < 0x10000) (hn : g.n = true) (hp : g.p = 0) :
    s.issue k w g body = s.takeExc k 1 (BitVec.ofNat 64 w) (s.pilot k).pc := by
  unfold issue
  dsimp only
  rw [if_neg (not_not.mpr h), if_neg (Nat.not_le.mpr hpc), hn, hp]
  exact if_pos rfl

theorem issue_falseGuard (h : (s.pilot k).st = .running) (hpc : (s.pilot k).pc < 0x10000) (hp : g.p ≠ 0) (hg : s.pred k g.p = g.n) :
    s.issue k w g body = s.retireTo k ((s.pilot k).pc + 4) := by
  have named : ¬(g.n && decide (g.p.val = 0)) = true := fun e => by
    rw [Bool.and_eq_true, decide_eq_true_eq] at e
    exact hp (Fin.ext e.2)
  have fails : (!s.guardOk k g) = true := by
    unfold guardOk
    rw [hg, bne_self_eq_false]
    rfl
  unfold issue
  dsimp only
  rw [if_neg (not_not.mpr h), if_neg (Nat.not_le.mpr hpc), if_neg named, if_pos fails]

end

theorem raises_caught (hc : s.catches k) (c : Nat) (v : Word64) : Raises k c v s (s.takeExc k c v (s.pilot k).pc) := raises_takeExc hc c v

/-- The halt of a pilot that cannot take an exception (R86). -/
theorem halts_uncaught (hr : s.replaying = false) (hpc : (s.pilot k).pc < 0x10000) {n : Nat} {v : Word64}
    (hn : (s.pilot k).handler = true ∧ n = 9 ∨ (s.pilot k).handler = false ∧ (s.pilot k).evec = 0 ∧ n = 1) :
    let t := s.takeExc k 1 v (s.pilot k).pc
    (t.pilot k).core = { (s.pilot k).core with st := .halted, haltCause := n } ∧
    (∀ x, s.slotOf (16 + k.val) = some x → t.slot x.1 = none) ∧ t.sys.landq = s.sys.landq ∧
    (∀ j, j ≠ k.val → (t.pilot j).core = (s.pilot j).core) ∧ Only (.sys :: sideParts) s t ∧
    ∀ x, calm x = true → t.word x = s.word x := by
  have small : n < 65536 := by rcases hn with ⟨_, rfl⟩ | ⟨_, _, rfl⟩ <;> decide
  have halted := halted_halt (k := k) hr small (show (s.pilot k).pc < 2 ^ 64 by omega)
  rw [takeExc_uncaught hn]
  obtain ⟨core, others, only, words⟩ := halted.pilots
  exact ⟨core, halted.slot, halted.landq, others, only, fun x hx => words x hx List.not_mem_nil⟩

theorem issue_effect (a : FmtA) (i : FmtI) (u : FmtU) (p : FmtP) (q : FmtQ) (l : FmtL) (off : BitVec 22) (c : Instr)
    (hm : c ∈ marlInstrs k g a i u p q l off) :
    ((s.pilot k).st ≠ .running → exec c s = .next s) ∧
    ((s.pilot k).st = .running → 0x10000 ≤ (s.pilot k).pc → s.catches k → Completes c s (Raises k 3 (BitVec.ofNat 64 (s.pilot k).pc) s)) ∧
    ((s.pilot k).st = .running → (s.pilot k).pc < 0x10000 →
      (g.n = true → g.p = 0 → s.catches k → Completes c s fun t => ∃ w, Raises k 1 w s t) ∧
      (g.n = true → g.p = 0 → s.replaying = false → ∀ n, ((s.pilot k).handler = true ∧ n = 9 ∨
          (s.pilot k).handler = false ∧ (s.pilot k).evec = 0 ∧ n = 1) →
        Completes c s fun t =>
          (t.pilot k).core = { (s.pilot k).core with st := .halted, haltCause := n } ∧
          (∀ x, s.slotOf (16 + k.val) = some x → t.slot x.1 = none) ∧ t.sys.landq = s.sys.landq ∧
          (∀ j, j ≠ k.val → (t.pilot j).core = (s.pilot j).core) ∧ Only (.sys :: sideParts) s t ∧
          ∀ x, calm x = true → t.word x = s.word x) ∧
      (g.p ≠ 0 → s.pred k g.p = g.n → Completes c s (RetiresAt k ((s.pilot k).pc + 4) (s.pilot k) s))) := by
  obtain ⟨w, body, he⟩ := exec_marl (s := s) hm
  refine ⟨fun h => ?_, fun h hpc hc => ⟨_, he, ?_⟩, fun h hpc => ⟨fun hn hp hc => ⟨_, he, BitVec.ofNat 64 w, ?_⟩,
    fun hn hp hr n hh => ⟨_, he, ?_⟩, fun hp hg => ⟨_, he, ?_⟩⟩⟩
  · rw [he, issue_atRest h]
  · rw [issue_outside h hpc]
    exact raises_caught hc 3 _
  · rw [issue_reserved h hpc hn hp]
    exact raises_caught hc 1 _
  · rw [issue_reserved h hpc hn hp]
    exact halts_uncaught hr hpc hh
  · rw [issue_falseGuard h hpc hp hg]
    exact pilotOnly_refl.retiresAt rfl _

/-! ### TRAP, ERET and HALT (R80, R86) -/

/-- TRAP's exception has been taken with the instruction retired, and is about to be (R86). -/
def trapOut (s : State) (k : Nat) (u : FmtU) : IOut :=
  let t := (s.retireTo k ((s.pilot k).pc + 4)).takeExc k 7 (u.imm.zeroExtend 64) ((s.pilot k).pc + 4)
  .jump (t.setPilot k { t.pilot k with retired := (s.pilot k).retired }) (t.pilot k).pc

theorem trap_effect (u : FmtU) (hi : s.issues k g) (hc : s.catches k) (hu : u.rd = 0) : Completes (.trap k g u) s
    (PilotOnly k { s.pilot k with epc := BitVec.ofNat 64 ((s.pilot k).pc + 4), ecause := 7, eval := u.imm.zeroExtend 64, handler := true, pc := (s.pilot k).evec.toNat / 4 * 4, retired := ((s.pilot k).retired + 1) % 2 ^ 64 } s) := by
  have retired := pilot_retireTo (t := s) (k := k) ((s.pilot k).pc + 4)
  have caught : (s.retireTo k ((s.pilot k).pc + 4)).catches k := by
    unfold catches
    rw [retired]
    exact hc
  refine completes_of_issues hi rfl (o := trapOut s k u) (if_neg (not_not.mpr (congrArg Fin.val hu))) ?_
  unfold trapOut
  dsimp only
  rw [takeExc_caught caught, pilot_setPilot_same, retired, finish, retireTo, pilot_setPilot_same]
  exact (((pilotOnly_setPilot _).setPilot _).setPilot _).setPilot _

/-- ERET has left handler mode, and is about to retire. -/
def eretOut (s : State) (k : Nat) : IOut := .jump (s.setPilot k { s.pilot k with handler := false }) ((s.pilot k).epc.toNat / 4 * 4)

theorem eret_effect (hi : s.issues k g) : Completes (.eret k g ⟨0, 0, 0, 0⟩) s
    (RetiresAt k ((s.pilot k).epc.toNat / 4 * 4) { s.pilot k with handler := false } s) := by
  refine completes_of_issues hi rfl (o := eretOut s k) (ifZero_zero rfl) ?_
  exact (pilotOnly_setPilot (s := s) { s.pilot k with handler := false }).retiresAt rfl _

/-- RETIRED counts HALT before the halt (R86). -/
def retiredOnce (s : State) (k : Nat) : State := s.setPilot k { s.pilot k with retired := ((s.pilot k).retired + 1) % 2 ^ 64 }

/-- HALT's state before the instruction retires. -/
def haltRun (s : State) (k : Nat) : State := (retiredOnce s k).halt k 0 (s.pilot k).pc

theorem halted_haltRun (hr : s.replaying = false) (hpc : (s.pilot k).pc < 2 ^ 64) :
    Halted k { s.pilot k with retired := ((s.pilot k).retired + 1) % 2 ^ 64 } 0 (s.pilot k).pc s (haltRun s k) := by
  have once : (retiredOnce s k).pilot k = { s.pilot k with retired := ((s.pilot k).retired + 1) % 2 ^ 64 } := pilot_setPilot_same ..
  have other : ∀ j, j ≠ k.val → (retiredOnce s k).pilot j = s.pilot j := fun j hj => pilot_setPilot_other _ _ hj
  have halted := halted_halt (s := retiredOnce s k) (k := k) (cause := 0) hr (by decide) hpc
  obtain ⟨core, others, only, words⟩ := halted.pilots
  refine ⟨⟨by rw [haltRun, core, once], fun j hj => (others j hj).trans (by rw [other j hj]), (only_pilots_side (ps := [.sys]) _).trans only, words⟩,
    halted.slot, halted.landq, fun j h16 hj hst hq hm => halted.posts j h16 hj ?_ ?_ hm⟩
  · rw [other j hj]
    exact hst
  · rw [other j hj]
    exact hq

/-- HALT has halted its pilot, and is about to retire. -/
def haltOut (s : State) (k : Nat) : IOut :=
  .jump ((haltRun s k).setPilot k { (haltRun s k).pilot k with retired := (((haltRun s k).pilot k).retired + 2 ^ 64 - 1) % 2 ^ 64 }) (s.pilot k).pc

/-- HALT retires in state `t`, in which its pilot has halted already. -/
def haltLeft (t : State) (k pc : Nat) : State :=
  (t.setPilot k { t.pilot k with retired := ((t.pilot k).retired + 2 ^ 64 - 1) % 2 ^ 64 }).retireTo k pc

theorem finish_haltOut : finish s k (haltOut s k) = haltLeft (haltRun s k) k (s.pilot k).pc := rfl

theorem sys_haltLeft (pc : Nat) : (haltLeft t k pc).sys = t.sys := rfl

theorem word_haltLeft (pc x : Nat) : (haltLeft t k pc).word x = t.word x := rfl

theorem only_haltLeft (pc : Nat) : Only (.sys :: sideParts) t (haltLeft t k pc) :=
  (only_pilots_side (ps := [.sys]) _).trans (only_pilots_side (ps := [.sys]) _)

theorem pilot_haltLeft (pc : Nat) : (haltLeft t k pc).pilot k =
    { t.pilot k with pc := pc, retired := (((t.pilot k).retired + 2 ^ 64 - 1) % 2 ^ 64 + 1) % 2 ^ 64 } := by
  rw [haltLeft, retireTo, pilot_setPilot_same, pilot_setPilot_same]

theorem pilot_haltLeft_other {j : Nat} (h : j ≠ k.val) (pc : Nat) : (haltLeft t k pc).pilot j = t.pilot j := by
  rw [haltLeft, retireTo, pilot_setPilot_other _ _ h, pilot_setPilot_other _ _ h]

theorem retired_pred_succ (n : Nat) : ((n % 2 ^ 64 + 2 ^ 64 - 1) % 2 ^ 64 + 1) % 2 ^ 64 = n % 2 ^ 64 := by omega

theorem core_haltLeft {p : Pilot} {n pc : Nat} (h : (t.pilot k).core = ({ p with retired := (n + 1) % 2 ^ 64 } : Pilot).core) :
    ((haltLeft t k pc).pilot k).core = { p.core with pc := pc, retired := (n + 1) % 2 ^ 64 } := by
  have hret : (t.pilot k).retired = (n + 1) % 2 ^ 64 := (congrArg Pilot.retired h :)
  rw [pilot_haltLeft, hret, retired_pred_succ]
  exact (congrArg (fun p : Pilot => { p with pc := pc, retired := (n + 1) % 2 ^ 64 }) h :)

theorem halt_effect (hi : s.issues k g) (hr : s.replaying = false) : Completes (.halt k g ⟨0, 0, 0, 0⟩) s fun t =>
    (t.pilot k).core = { (s.pilot k).core with st := .halted, haltCause := 0, retired := ((s.pilot k).retired + 1) % 2 ^ 64 } ∧
    (∀ x, s.slotOf (16 + k.val) = some x → t.slot x.1 = none) ∧ t.sys.landq = s.sys.landq ∧
    (∀ j, j ≠ k.val → (t.pilot j).core = (s.pilot j).core) ∧
    (∀ j, j < 16 → j ≠ k.val → (s.pilot j).st = .running → State.queued (s.pilot j) < 256 →
      bit (s.word (Reg.PILOT_DKT_SUB_MASK j).addr).toNat 14 = true →
      ⟨0x0E, 16 + k.val, 0, (s.pilot k).pc, s.now, 0⟩ ∈ (t.pilot j).arrivals) ∧
    Only (.sys :: sideParts) s t ∧ ∀ x, calm x = true → t.word x = s.word x := by
  have hpc : (s.pilot k).pc < 2 ^ 64 := Nat.lt_trans hi.2.1 (by decide)
  have halted := halted_haltRun (k := k) hr hpc
  obtain ⟨core, others, only, words⟩ := halted.pilots
  refine completes_of_issues hi rfl (o := haltOut s k) (ifZero_zero rfl) ?_
  rw [finish_haltOut]
  generalize haltRun s k = u at halted core others only words ⊢
  refine ⟨core_haltLeft (p := { s.pilot k with st := .halted, haltCause := 0 }) core, fun x hx => (slot_congr (sys_haltLeft _) x.1).trans (halted.slot x hx),
    halted.landq, fun j hj => ?_, fun j h16 hj hst hq hm => ?_, only.trans (only_haltLeft _), fun x hx => (word_haltLeft _ x).trans (words x hx List.not_mem_nil)⟩
  · rw [pilot_haltLeft_other hj]
    exact others j hj
  · rw [pilot_haltLeft_other hj]
    exact halted.posts j h16 hj hst hq hm

/-- Settles O29: hash and CSR instructions one by one, the issue of all fifty, then the three that leave the flow. -/
theorem pilotHashIssueAndTraps : Obligations.PilotHashIssueAndTraps := by
  unfold Obligations.PilotHashIssueAndTraps
  refine ⟨fun k g rd rs1 rs2 fn s hi => ?_, fun k g a i u p q l off s => ?_⟩
  · obtain ⟨init, initBad⟩ := hinit_effect fn hi
    refine ⟨init, initBad, fun a n ha hn => ?_, fun v hv => csrr_effect rd fn hi (csrRead_of_table hv),
      fun p hp => csrw_effect rs1 fn hi (csrWrite_of_table hp), csr_illegal rd rs1 fn hi⟩
    obtain ⟨absorbs, faults⟩ := hupd_effect rs1 rs2 hi a n ha hn
    exact ⟨absorbs, faults, hfin_effect rd rs1 hi a ha⟩
  · exact ⟨issue_effect a i u p q l off, trap_effect u, eret_effect, halt_effect⟩

end Sys2Proof.Machine
end

section
/-! PROOFS. O27: DPOP, DCNT, DPOST, WAIT and WAITU (R77, R87 to R90), and what a pilot's transaction instructions carry out and answer outside replay (R58, R62 to R66). -/

namespace Sys2Proof.Machine

open State

variable {s t u s' : State} {k : Fin 16} {g : Guard} {p q r : Pilot} {ps : List Part} {as : List Nat} {rd rs1 rs2 : Fin 32} {fn : Fin 128}

/-! ### Registers written in a row -/

/-- A register pair, the odd register after the even one. -/
def pairWritten (s : State) (k : Nat) (rd : Fin 32) (a b : Word64) : State := (s.setX k rd a).setX k (rd + 1) b

theorem val_succ_of_even (he : rd.val % 2 = 0) : (rd + 1).val = rd.val + 1 :=
  (Fin.val_add rd 1).trans (Nat.mod_eq_of_lt (show rd.val + 1 < 32 by omega))

theorem xreg_pairWritten (he : rd.val % 2 = 0) (h0 : rd ≠ 0) (a b : Word64) (i : Fin 32) :
    (pairWritten s k rd a b).xreg k i = if i = rd then a else if i.val = rd.val + 1 then b else s.xreg k i := by
  have hs := val_succ_of_even he
  have h1 : rd + 1 ≠ 0 := fun e => by
    have : (rd + 1).val = 0 := congrArg Fin.val e
    omega
  have hi : i = rd + 1 ↔ i.val = rd.val + 1 := by rw [Fin.ext_iff, hs]
  rw [pairWritten, xreg_setX, xreg_setX]
  by_cases e : i = rd
  · have : ¬(i = rd + 1 ∧ rd + 1 ≠ 0) := fun h => by
      have := hi.mp h.1
      rw [e] at this
      omega
    rw [if_neg this, if_pos ⟨e, h0⟩, if_pos e]
  · rw [if_neg e, if_neg (fun h : i = rd ∧ rd ≠ 0 => e h.1)]
    by_cases e1 : i.val = rd.val + 1
    · rw [if_pos ⟨hi.mpr e1, h1⟩, if_pos e1]
    · rw [if_neg fun h => e1 (hi.mp h.1), if_neg e1]

/-! ### DPOP, DCNT and DPOST (R80, R88 to R90) -/

/-- Dockets `ds` are left of what was released, and DOCKET_LOST is held or not. -/
def popped (s : State) (k : Nat) (ds : List Docket) (held : Bool) : State :=
  s.setPilot k { s.pilot k with released := ds, lostHeld := held }

theorem popped_nothing (h : (s.pilot k).released = []) : popped s k [] ((s.pilot k).lostHeld && !false) = s.setPilot k (s.pilot k) := by
  unfold popped
  rw [← h, Bool.not_false, Bool.and_true]

theorem dpop_allowed (he : rd.val % 2 = 0) : ¬((!zeroA ⟨rd, 0, 0, 0⟩ false true true true) = true ∨ rd.val % 2 = 1) := by
  rintro (h | h)
  · exact Bool.false_ne_true h
  · omega

theorem docketHeader_eq (d : Docket) : docketHeader d = d.kind * 2 ^ 56 + d.src * 2 ^ 48 + d.sub * 2 ^ 32 + d.seq := by
  simp only [docketHeader, Nat.shiftLeft_eq]

theorem dpop_some {d : Docket} {ds : List Docket} (hi : s.issues k g) (hd : (s.pilot k).released = d :: ds) (he : rd.val % 2 = 0) (h0 : rd ≠ 0) :
    Completes (.dpop k g ⟨rd, 0, 0, 0⟩) s fun t =>
      (∀ i, t.xreg k i = if i = rd then BitVec.ofNat 64 (d.kind * 2 ^ 56 + d.src * 2 ^ 48 + d.sub * 2 ^ 32 + d.seq)
        else if i.val = rd.val + 1 then BitVec.ofNat 64 d.payload else s.xreg k i) ∧
      RetiresAt k ((s.pilot k).pc + 4)
        { s.pilot k with x := (t.pilot k).x, released := ds, lostHeld := (s.pilot k).lostHeld && decide (d.kind ≠ 0x0F) } s t := by
  have hv : rd.val ≠ 0 := fun e => h0 (Fin.ext e)
  refine completes_of_issues hi rfl
    (o := .retire (pairWritten (popped s k ds ((s.pilot k).lostHeld && !decide (d.kind = 0x0F))) k rd
      (BitVec.ofNat 64 (docketHeader d)) (BitVec.ofNat 64 d.payload))) ?_ ⟨fun i => ?_, ?_⟩
  · refine (if_neg (dpop_allowed he)).trans ?_
    dsimp only
    rw [hd]
    exact if_neg hv
  · rw [finish, xreg_retireTo, xreg_pairWritten he h0, docketHeader_eq]
    have same : (popped s k ds ((s.pilot k).lostHeld && !decide (d.kind = 0x0F))).xreg k i = s.xreg k i :=
      xreg_congr (by rw [popped, pilot_setPilot_same]) i
    rw [same]
  · have only := ((pilotOnly_setPilot (s := s) (k := k) { s.pilot k with
      released := ds, lostHeld := (s.pilot k).lostHeld && !decide (d.kind = 0x0F) }).setX rd (BitVec.ofNat 64 (docketHeader d))).setX (rd + 1) (BitVec.ofNat 64 d.payload)
    rw [finish, pilot_retireTo, pairWritten, popped, only.1, decide_not]
    exact only.retiresAt rfl _

theorem dpop_zero {d : Docket} {ds : List Docket} (hi : s.issues k g) (hd : (s.pilot k).released = d :: ds) :
    Completes (.dpop k g ⟨0, 0, 0, 0⟩) s (RetiresAt k ((s.pilot k).pc + 4)
      { s.pilot k with released := ds, lostHeld := (s.pilot k).lostHeld && decide (d.kind ≠ 0x0F) } s) := by
  refine completes_retires hi rfl ((if_neg (dpop_allowed rfl)).trans ?_) rfl
  dsimp only
  rw [hd, decide_not]
  exact if_pos rfl

theorem dpop_none (hi : s.issues k g) (hd : (s.pilot k).released = []) (he : rd.val % 2 = 0) (h0 : rd ≠ 0) :
    Completes (.dpop k g ⟨rd, 0, 0, 0⟩) s fun t =>
      (∀ i, t.xreg k i = if i = rd ∨ i.val = rd.val + 1 then 0 else s.xreg k i) ∧
      RetiresAt k ((s.pilot k).pc + 4) { s.pilot k with x := (t.pilot k).x } s t := by
  have hv : rd.val ≠ 0 := fun e => h0 (Fin.ext e)
  refine completes_of_issues hi rfl (o := .retire (pairWritten (popped s k [] ((s.pilot k).lostHeld && !false)) k rd 0 0)) ?_ ⟨fun i => ?_, ?_⟩
  · refine (if_neg (dpop_allowed he)).trans ?_
    dsimp only
    rw [hd]
    exact if_neg hv
  · have same : (s.setPilot k (s.pilot k)).xreg k i = s.xreg k i := xreg_congr (by rw [pilot_setPilot_same]) i
    rw [finish, xreg_retireTo, xreg_pairWritten he h0, popped_nothing hd, same, ite_or]
  · have only := ((pilotOnly_setPilot (s := s) (k := k) (s.pilot k)).setX rd 0).setX (rd + 1) 0
    rw [finish, pilot_retireTo, pairWritten, popped_nothing hd, only.1]
    exact only.retiresAt rfl _

theorem dpop_odd (hi : s.issues k g) (ho : rd.val % 2 = 1) (hc : s.catches k) :
    Completes (.dpop k g ⟨rd, 0, 0, 0⟩) s (Raises k 1 (BitVec.ofNat 64 (wordA 0x1C g ⟨rd, 0, 0, 0⟩)) s) :=
  completes_raises hi hc rfl (if_pos (.inr ho))

/-- A docket for one pilot, outside replay, joins its queue (R88). -/
theorem postTo_taken {n kind src sub payload : Nat} (hr : s.replaying = false)
    (hs : (s.pilot n).st = .loaded ∨ (s.pilot n).st = .running ∨ (s.pilot n).st = .waiting) (hq : queued (s.pilot n) < 256) :
    s.postTo n kind src sub payload = s.setPilot n { s.pilot n with
      arrivals := (s.pilot n).arrivals ++ [⟨kind, src % 256, sub % 65536, payload % 2 ^ 64, s.now, 0⟩] } := by
  unfold postTo live enqueue
  dsimp only
  rw [hr, if_neg Bool.false_ne_true, if_pos hs, if_pos hq]

/-- A pilot in no state that takes dockets leaves them (R88). -/
theorem postTo_refused {n kind src sub payload : Nat} (hr : s.replaying = false) (hl : (s.pilot n).st ≠ .loaded)
    (hr' : (s.pilot n).st ≠ .running) (hw : (s.pilot n).st ≠ .waiting) : s.postTo n kind src sub payload = s := by
  unfold postTo live enqueue
  dsimp only
  rw [hr, if_neg Bool.false_ne_true, if_neg (not_or.mpr ⟨hl, not_or.mpr ⟨hr', hw⟩⟩)]

/-- DPOST to a pilot that takes dockets and has room, its own included (R80, R88). -/
theorem dpost_taken {n : Nat} (hi : s.issues k g) (hn : n = (s.xreg k rs1).toNat % 16) (hr : s.replaying = false)
    (hs : (s.pilot n).st = .loaded ∨ (s.pilot n).st = .running ∨ (s.pilot n).st = .waiting) (hq : queued (s.pilot n) < 256) :
    Completes (.dpost k g ⟨0, rs1, rs2, fn⟩) s fun t =>
      (t.pilot n).arrivals = (s.pilot n).arrivals ++ [⟨9, 16 + k.val, fn.val, (s.xreg k rs2).toNat, s.now, 0⟩] ∧
      (t.pilot k).pc = (s.pilot k).pc + 4 ∧ (t.pilot k).retired = ((s.pilot k).retired + 1) % 2 ^ 64 ∧
      (∀ j, j ≠ k.val → (t.pilot j).core = (s.pilot j).core) ∧ (∀ i, t.xreg k i = s.xreg k i) ∧
      (∀ j, j ≠ k.val → j ≠ n → t.pilot j = s.pilot j) ∧ Only [.pilots] s t := by
  have taken := postTo_taken (kind := 9) (src := 16 + k) (sub := fn.val) (payload := (s.xreg k rs2).toNat) hr hs hq
  rw [Nat.mod_eq_of_lt (show 16 + k.val < 256 by omega), Nat.mod_eq_of_lt (show fn.val < 65536 by omega),
    Nat.mod_eq_of_lt (s.xreg k rs2).isLt] at taken
  generalize hp : ({ s.pilot n with arrivals := (s.pilot n).arrivals ++ [⟨9, 16 + k.val, fn.val, (s.xreg k rs2).toNat, s.now, 0⟩] } : Pilot) = p at taken
  have hcore : p.core = (s.pilot n).core := by rw [← hp]; rfl
  have harr : p.arrivals = (s.pilot n).arrivals ++ [⟨9, 16 + k.val, fn.val, (s.xreg k rs2).toNat, s.now, 0⟩] := by rw [← hp]
  refine completes_of_issues hi rfl (o := .retire (s.setPilot n p)) ?_ ?_
  · rw [← taken, hn]
    exact ifZero_zero rfl
  have other : ∀ j, j ≠ k.val → ((s.setPilot n p).retireTo k ((s.pilot k).pc + 4)).pilot j = (s.setPilot n p).pilot j :=
    fun j hj => pilot_setPilot_other _ _ hj
  have cores : ∀ j, ((s.setPilot n p).pilot j).core = (s.pilot j).core := fun j => by
    by_cases e : j = n
    · rw [e, pilot_setPilot_same, hcore]
    · rw [pilot_setPilot_other _ _ e]
  rw [finish]
  refine ⟨?_, by rw [pilot_retireTo], ?_, fun j hj => ?_, fun i => (xreg_retireTo _ i).trans (xreg_congr (congrArg Pilot.x (cores k) :) i),
    fun j hj hjn => (other j hj).trans (pilot_setPilot_other _ _ hjn), (only_pilots _).trans (only_pilots _)⟩
  · rw [← harr]
    by_cases e : n = k.val
    · rw [e, pilot_retireTo, ← e, pilot_setPilot_same]
    · rw [other n e, pilot_setPilot_same]
  · rw [pilot_retireTo]
    exact (congrArg (fun q : Pilot => (q.retired + 1) % 2 ^ 64) (cores k) :)
  · rw [other j hj]
    exact cores j

theorem dpost_refused {n : Nat} (hi : s.issues k g) (hn : n = (s.xreg k rs1).toNat % 16) (hr : s.replaying = false)
    (hl : (s.pilot n).st ≠ .loaded) (hr' : (s.pilot n).st ≠ .running) (hw : (s.pilot n).st ≠ .waiting) :
    Completes (.dpost k g ⟨0, rs1, rs2, fn⟩) s (RetiresAt k ((s.pilot k).pc + 4) (s.pilot k) s) := by
  subst hn
  exact completes_of_issues hi rfl ((ifZero_zero rfl).trans (congrArg IOut.retire (postTo_refused hr hl hr' hw))) (pilotOnly_refl.retiresAt rfl _)

/-! ### WAIT and WAITU (R77, R80) -/

/-- A snapshot holds the bytes of the banks that the pilot writes, and no others. -/
theorem get_bankBytes (m : SMap Byte) (a : Nat) : (s.bankBytes k m).get (fun _ => 0) a =
    if s.ownsBank k ((a - 0x20000) / 0x4000) then m.get (fun _ => 0) a else 0 := by
  unfold bankBytes
  split
  · next h => exact SMap.get_filter _ _ fun _ => h
  · next h => exact SMap.get_filter_out _ _ fun _ => Bool.eq_false_iff.mpr h

theorem waits_waitFrom (rd : Fin 32) (least : Nat) :
    let t := finish s k (.retire (s.waitFrom k rd least))
    RetiresAt k ((s.pilot k).pc + 4)
      { s.pilot k with st := .waiting, waitRd := rd.val, waitFor := least, snapshot := (t.pilot k).snapshot } s t ∧
    ∀ a, (t.pilot k).snapshot.get (fun _ => 0) a =
      if s.ownsBank k ((a - 0x20000) / 0x4000) then s.shared.get (fun _ => 0) a else 0 := by
  have snap : ((finish s k (.retire (s.waitFrom k rd least))).pilot k).snapshot = s.bankBytes k s.shared := by
    rw [finish, pilot_retireTo, waitFrom, pilot_setPilot_same]
  dsimp only
  rw [snap]
  exact ⟨(pilotOnly_setPilot (s := s) { s.pilot k with
    st := .waiting, waitRd := rd.val, waitFor := least, snapshot := s.bankBytes k s.shared }).retiresAt rfl _, get_bankBytes s.shared⟩

theorem wait_effect (hi : s.issues k g) {c : Instr} {least : Nat}
    (h : (c, least) ∈ [(Instr.wait k g ⟨rd, 0, 0, 0⟩, 0), (.waitu k g ⟨rd, rs1, 0, 0⟩, (s.xreg k rs1).toNat)]) : Completes c s fun t =>
      RetiresAt k ((s.pilot k).pc + 4)
        { s.pilot k with st := .waiting, waitRd := rd.val, waitFor := least, snapshot := (t.pilot k).snapshot } s t ∧
      ∀ a, (t.pilot k).snapshot.get (fun _ => 0) a =
        if s.ownsBank k ((a - 0x20000) / 0x4000) then s.shared.get (fun _ => 0) a else 0 := by
  simp only [List.mem_cons, List.not_mem_nil, or_false, Prod.mk.injEq] at h
  rcases h with ⟨rfl, rfl⟩ | ⟨rfl, rfl⟩ <;> exact completes_of_issues hi rfl (ifZero_zero rfl) (waits_waitFrom rd _)

/-! ### Logged instructions outside replay (R92) -/

theorem Pilots.pilotOnly (h : Pilots k p ps as s t) (h' : PilotOnly k q t u) (hc : q.core = r.core) : Pilots k r ps as s u := by
  obtain ⟨_, others, only, words⟩ := h
  obtain ⟨hp, others', only'⟩ := h'
  exact ⟨by rw [hp, hc], fun j hj => by rw [others' j hj, others j hj], only.trans (only'.mono fun a ha => by
      rw [List.mem_singleton.mp ha]
      exact List.mem_append_right _ (by decide)),
    fun x hx hn => (word_congr (only' .regs (by decide)) x).trans (words x hx hn)⟩

theorem Pilots.setX (h : Pilots k p ps as s t) (rd : Fin 32) (v : Word64) : Pilots k { p with x := regsWith p rd v } ps as s (t.setX k rd v) :=
  h.pilotOnly (pilotOnly_setX rd v) (congrArg (fun a : Pilot => { a with x := regsWith a rd v }) h.1 :)

/-- A logged instruction has had its effect, `s'`, and its result `v` stands in `rd`; its VALUE record is written and it retires. -/
def loggedEnd (s s' : State) (k op : Nat) (rd : Fin 32) (v : Nat) : State :=
  ((s'.setX k rd (BitVec.ofNat 64 v)).logRec 0x04 k op [(s.pilot k).retired, v]).retireTo k ((s.pilot k).pc + 4)

section

variable {op v : Nat}

theorem logs_loggedEnd (hf : Frame ps as s s') : Logs k rd (BitVec.ofNat 64 v) ps as s (loggedEnd s s' k op rd v) := by
  have recorded := ((pilots_of_frame (k := k) hf).setX rd (BitVec.ofNat 64 v)).frame (Frame.logRec 0x04 k.val op [(s.pilot k).retired, v])
  have ended : Pilots k { s.pilot k with
      x := regsWith (s.pilot k) rd (BitVec.ofNat 64 v), pc := (s.pilot k).pc + 4, retired := ((s.pilot k).retired + 1) % 2 ^ 64 } ps as s (loggedEnd s s' k op rd v) :=
    recorded.setPilot (congrArg (fun a : Pilot => { a with pc := (s.pilot k).pc + 4, retired := (a.retired + 1) % 2 ^ 64 }) recorded.1 :)
  have hx : ((loggedEnd s s' k op rd v).pilot k).x = regsWith (s.pilot k) rd (BitVec.ofNat 64 v) := (congrArg Pilot.x ended.1 :)
  refine ⟨(puts_setX rd _).congr (by rw [hx, pilot_setX]), ?_⟩
  rw [hx]
  exact ended

theorem sys_loggedEnd : (loggedEnd s s' k op rd v).sys = s'.sys :=
  ((keeps_logRec (L := 148376) 4 k op [(s.pilot k).retired, v] Keeps.refl rfl).same .sys rfl).trans
    ((pilotOnly_setX (s := s') rd (BitVec.ofNat 64 v)).2.2 .sys (by decide))

theorem arrivals_loggedEnd {d : Docket} (hk : d.kind ≠ 5) (h : d ∈ (s'.pilot k).arrivals) : d ∈ ((loggedEnd s s' k op rd v).pilot k).arrivals := by
  have set : d ∈ ((s'.setX k rd (BitVec.ofNat 64 v)).pilot k).arrivals := by
    rw [pilot_setX]
    exact h
  rw [loggedEnd, pilot_retireTo]
  exact arrivals_logRec hk set

theorem logged_live {run : State → State × Nat} (hr : s.replaying = false) (hrun : run s = (s', v)) :
    finish s k (s.logged k op rd run) = loggedEnd s s' k op rd v := by
  unfold logged
  dsimp only
  rw [hr, if_neg Bool.false_ne_true, hrun]
  rfl

/-- A logged instruction outside replay. -/
theorem completes_logged {c : Instr} {w : Nat} {body : State → IOut} {run : State → State × Nat} {post : State → Prop} (hi : s.issues k g)
    (hr : s.replaying = false) (he : exec c s = .next (s.issue k w g body)) (hb : body s = s.logged k op rd run) (hrun : run s = (s', v))
    (hp : post (loggedEnd s s' k op rd v)) : Completes c s post :=
  completes_of_issues hi he hb (by rw [logged_live hr hrun]; exact hp)

/-- A logged instruction that only answers. -/
theorem completes_answers {c : Instr} {w : Nat} {body : State → IOut} {run : State → State × Nat} (hi : s.issues k g)
    (hr : s.replaying = false) (he : exec c s = .next (s.issue k w g body)) (hb : body s = s.logged k op rd run) (hrun : run s = (s, v)) :
    Completes c s (Logs k rd (BitVec.ofNat 64 v) [] [] s) :=
  completes_logged hi hr he hb hrun (logs_loggedEnd Frame.refl)

/-- A logged instruction that gives slot `i` the transaction `y`, or none, and answers. -/
theorem slot_loggedEnd (i : Nat) (y : Option Txn) :
    let t := loggedEnd s (s.setSlot i y) k op rd v
    Logs k rd (BitVec.ofNat 64 v) [.sys] [] s t ∧ t.slot i = y ∧ t.sys = { s.sys with slots := t.sys.slots } ∧ ∀ j, j ≠ i → t.slot j = s.slot j := by
  have hs : (loggedEnd s (s.setSlot i y) k op rd v).sys = (s.setSlot i y).sys := sys_loggedEnd
  refine ⟨logs_loggedEnd (frame_sys _ (by decide)), (slot_congr hs i).trans (slot_setSlot_same s i y), ?_,
    fun j hj => (slot_congr hs j).trans (slot_setSlot_other s y hj)⟩
  rw [hs]
  rfl

end

/-! ### TXB and TXR (R58, R66) -/

theorem txb_effect (rd : Fin 32) (hi : s.issues k g) (hr : s.replaying = false) :
    ((s.slotOf (16 + k.val)).isSome → Completes (.txb k g ⟨rd, 0, 0, 0⟩) s (Logs k rd 7 [] [] s)) ∧
    (s.slotOf (16 + k.val) = none → s.freeSlot = none → Completes (.txb k g ⟨rd, 0, 0, 0⟩) s (Logs k rd 6 [] [] s)) ∧
    (∀ i, s.slotOf (16 + k.val) = none → s.freeSlot = some i →
      Completes (.txb k g ⟨rd, 0, 0, 0⟩) s fun t =>
        Logs k rd 0 [.sys] [] s t ∧ t.slot i = some ⟨16 + k.val, false, s.sys.seq, []⟩ ∧ t.sys = { s.sys with slots := t.sys.slots } ∧
        ∀ j, j ≠ i → t.slot j = s.slot j) := by
  refine ⟨fun h => ?_, fun ho hf => completes_answers hi hr rfl (ifZero_zero rfl) (txnBegin_full ho hf),
    fun i ho hf => completes_logged hi hr rfl (ifZero_zero rfl) (txnBegin_opens ho hf) (slot_loggedEnd i _)⟩
  obtain ⟨y, hy⟩ := Option.isSome_iff_exists.mp h
  exact completes_answers hi hr rfl (ifZero_zero rfl) (txnBegin_busy hy)

theorem txr_closed (rd : Fin 32) (hi : s.issues k g) (hr : s.replaying = false) (ho : s.slotOf (16 + k.val) = none) :
    Completes (.txr k g ⟨rd, 0, 0, 0⟩) s (Logs k rd 8 [] [] s) :=
  completes_answers hi hr rfl (ifZero_zero rfl) (txnRollback_closed ho)

theorem txr_open {i : Nat} {x : Txn} (rd : Fin 32) (hi : s.issues k g) (hr : s.replaying = false) (ho : s.slotOf (16 + k.val) = some (i, x)) :
    Completes (.txr k g ⟨rd, 0, 0, 0⟩) s fun t =>
      Logs k rd 0 [.sys] [] s t ∧ t.slot i = none ∧ t.sys = { s.sys with slots := t.sys.slots } ∧ ∀ j, j ≠ i → t.slot j = s.slot j :=
  completes_logged hi hr rfl (ifZero_zero rfl) (txnRollback_open ho) (slot_loggedEnd i none)

/-! ### TXW (R66) -/

theorem isPilotMaster_pilot (k : Fin 16) : isPilotMaster (16 + k.val) = true := decide_eq_true ⟨by omega, by omega⟩

/-- A pilot's request for a ticket that waits to land: its own, then its deadline (R66). -/
theorem withdraw_pilot {n : Nat} {c : Commit} (hr : s.running = true) (hf : s.sys.landq.find? (fun c => decide (c.ticket = n)) = some c) :
    s.withdraw (16 + k.val) n = if !decide (c.holder = 16 + k.val) then (s, rNotOwner) else if s.deadlinePassed c.target then (s, rLate)
      else (withdrawn s n, rOk) := by
  have own : ownsTicket (16 + k.val) c = decide (c.holder = 16 + k.val) := if_pos (isPilotMaster_pilot k)
  unfold withdraw
  rw [hr, hf]
  dsimp only
  rw [own]
  rfl

theorem txw_effect {n : Nat} (rd rs1 : Fin 32) (hi : s.issues k g) (hr : s.replaying = false) (hn : n = (s.xreg k rs1).toNat % 2 ^ 32) :
    (s.running = false → Completes (.txw k g ⟨rd, rs1, 0, 0⟩) s (Logs k rd 11 [] [] s)) ∧
    (s.running = true → s.sys.landq.find? (fun c => decide (c.ticket = n)) = none →
      Completes (.txw k g ⟨rd, rs1, 0, 0⟩) s (Logs k rd 8 [] [] s)) ∧
    ∀ c, s.running = true → s.sys.landq.find? (fun c => decide (c.ticket = n)) = some c →
      (c.holder ≠ 16 + k.val → Completes (.txw k g ⟨rd, rs1, 0, 0⟩) s (Logs k rd 3 [] [] s)) ∧
      (c.holder = 16 + k.val → s.deadlinePassed c.target = true → Completes (.txw k g ⟨rd, rs1, 0, 0⟩) s (Logs k rd 11 [] [] s)) ∧
      (c.holder = 16 + k.val → s.deadlinePassed c.target = false → Completes (.txw k g ⟨rd, rs1, 0, 0⟩) s fun t =>
        Logs k rd 0 [.sys] [] s t ∧
        t.sys = { s.sys with landq := s.sys.landq.filter fun d => !decide (d.ticket = n) }) := by
  subst hn
  refine ⟨fun h => completes_answers hi hr rfl (ifZero_zero rfl) (withdraw_stopped h),
    fun h hf => completes_answers hi hr rfl (ifZero_zero rfl) (withdraw_unknown h hf), fun c h hf => ?_⟩
  have known := withdraw_pilot (k := k) h hf
  refine ⟨fun ho => completes_answers hi hr rfl (ifZero_zero rfl) (known.trans (if_pos ?_)),
    fun ho hd => completes_answers hi hr rfl (ifZero_zero rfl) ((known.trans (if_neg ?_)).trans (if_pos hd)),
    fun ho hd => completes_logged hi hr rfl (ifZero_zero rfl) ((known.trans (if_neg ?_)).trans (if_neg (Bool.eq_false_iff.mp hd)))
      ⟨logs_loggedEnd (frame_sys _ (by decide)), sys_loggedEnd⟩⟩
  · rw [decide_eq_false ho]
    rfl
  · rw [decide_eq_true ho]
    exact Bool.false_ne_true
  · rw [decide_eq_true ho]
    exact Bool.false_ne_true

/-! ### TXC (R62 to R64, R70) -/

/-- A docket answers the committing pilot with the result and the ticket (R70). -/
def answered (k : Nat) (c : State × Nat × Nat) : State := c.1.postTo k 3 (16 + k) c.2.1 c.2.2

/-- The checks of a pilot's commit in their order (R62, R63). -/
def commitOf (s : State) (k i n r : Nat) (x : Txn) : State × Nat × Nat :=
  if x.full then commitRefused s i rFull else if r ≠ rOk then commitRefused s i r
  else if conflicts s x then commitRefused s i rConflict
  else if 16 ≤ s.sys.landq.length then commitRefused s i rQueueFull else commitQueued s (16 + k) i n x.writes

/-- TXC's result with the ticket of a commit that succeeded in bits 63:32 (R80). -/
def commitValue (r ticket : Nat) : Nat := r + (if r = rOk then ticket <<< 32 else 0)

section

variable {i n r target : Nat} {x : Txn} {next orLater : Bool}

theorem commit_pilot (ho : s.slotOf (16 + k.val) = some (i, x)) (hn : s.commitTarget target next orLater = (n, r)) :
    s.commit (16 + k) target next orLater = (answered k (commitOf s k i n r x), (commitOf s k i n r x).2) := by
  have hpost : ∀ (t : State) (a b : Nat), t.postResult (16 + k) a b = t.postTo k 3 (16 + k) a b := fun t a b => by
    unfold postResult
    rw [if_pos (isPilotMaster_pilot k), Nat.add_sub_cancel_left]
  unfold commit
  rw [ho]
  dsimp only
  rw [hn]
  simp only [hpost]
  rfl

theorem commit_closed (ho : s.slotOf (16 + k.val) = none) : s.commit (16 + k) target next orLater = (s, rNoTxn, 0) := by
  unfold commit
  rw [ho]

/-- A commit's target is good, LATE or TOO_FAR (R62). -/
theorem commitTarget_result (hn : s.commitTarget target next orLater = (n, r)) : r = 0 ∨ r = 11 ∨ r = 12 := by
  have hr : (s.commitTarget target next orLater).2 = r := by rw [hn]
  rw [← hr]
  unfold commitTarget
  dsimp only
  split
  · exact .inl rfl
  by_cases late : (!next && !orLater && s.deadlinePassed target) = true
  · exact .inr (.inl (congrArg Prod.snd (if_pos late)))
  rw [if_neg late]
  generalize (if next then s.nextCommitTide else if s.deadlinePassed target && orLater then s.nextCommitTide else target) = m
  by_cases far : s.tide + 2 ^ 24 < m
  · exact .inr (.inr (congrArg Prod.snd (if_pos far)))
  · exact .inl (congrArg Prod.snd (if_neg far))

theorem bit_zero_eq (n : Nat) : bit n 0 = decide (n % 2 = 1) := by
  unfold bit
  rw [Nat.testBit_zero]

theorem bit_one_eq {n : Nat} (h : n < 4) : bit n 1 = decide (2 ≤ n) := by
  interval_cases n <;> rfl

theorem txc_body {rd rs1 : Fin 32} {fn : Fin 128} (hf : fn.val < 4) (o : IOut) :
    ifZero (zeroA ⟨rd, rs1, 0, fn⟩ false false true false && decide (fn.val < 4)) (wordA 0x29 g ⟨rd, rs1, 0, fn⟩) o = o :=
  ifZero_zero (Bool.and_eq_true_iff.mpr ⟨rfl, decide_eq_true hf⟩)

theorem txc_closed (rd rs1 : Fin 32) (hi : s.issues k g) (hr : s.replaying = false) (hf : fn.val < 4) (ho : s.slotOf (16 + k.val) = none) :
    Completes (.txc k g ⟨rd, rs1, 0, fn⟩) s (Logs k rd 8 [] [] s) := by
  refine completes_answers hi hr rfl (txc_body hf _) ?_
  dsimp only
  rw [commit_closed ho]
  rfl

/-- What TXC leaves when the checks come to `c` (R80). -/
theorem txc_open {post : State → Prop} {c : State × Nat × Nat} (hi : s.issues k g) (hr : s.replaying = false) (hf : fn.val < 4)
    (ho : s.slotOf (16 + k.val) = some (i, x))
    (hn : s.commitTarget ((s.xreg k rs1).toNat % 2 ^ 48) (decide (fn.val % 2 = 1)) (decide (2 ≤ fn.val)) = (n, r))
    (hc : commitOf s k i n r x = c) (hp : post (loggedEnd s (answered k c) k 0x29 rd (commitValue c.2.1 c.2.2))) :
    Completes (.txc k g ⟨rd, rs1, 0, fn⟩) s post := by
  refine completes_logged hi hr rfl (txc_body hf _) ?_ hp
  dsimp only
  rw [bit_zero_eq, bit_one_eq hf, commit_pilot ho hn, hc]
  rfl

theorem sys_answered (c : State × Nat × Nat) : (answered k c).sys = c.1.sys :=
  (keeps_postTo (L := 16648) k 3 _ _ _ Keeps.refl rfl).same .sys rfl

/-- The docket that answers reaches the pilot, whose instruction it is (R88). -/
theorem mem_answered {c : State × Nat × Nat} (hi : s.issues k g) (hr : s.replaying = false) (hq : queued (s.pilot k) < 256)
    (hc : c.1 = { s with sys := c.1.sys }) (he : c.2.1 < 65536) (ht : c.2.2 < 2 ^ 64) :
    ⟨3, 16 + k.val, c.2.1, c.2.2, s.now, 0⟩ ∈ ((answered k c).pilot k).arrivals := by
  have hp : c.1.pilot k = s.pilot k := by rw [hc]; rfl
  have hrep : c.1.replaying = false := by rw [hc]; exact hr
  have hnow : c.1.now = s.now := by rw [hc]
  unfold answered
  rw [postTo_taken hrep (.inr (.inl (by rw [hp]; exact hi.1))) (by rw [hp]; exact hq), pilot_setPilot_same, hnow,
    Nat.mod_eq_of_lt (show 16 + k.val < 256 by omega), Nat.mod_eq_of_lt he, Nat.mod_eq_of_lt ht]
  exact List.mem_append_right _ (List.mem_singleton.mpr rfl)

theorem frame_answered {c : State × Nat × Nat} (hc : c.1 = { s with sys := c.1.sys }) : Frame [.sys] [] s (answered k c) := by
  have changed : Frame [.sys] [] s c.1 := by
    rw [hc]
    exact frame_sys _ (by decide)
  exact changed.trans (Frame.postTo 3 _ _ _ k.isLt)

/-- A pilot's refused commit (R63). -/
theorem txc_refused {e : Nat} (hi : s.issues k g) (hr : s.replaying = false) (he : e < 65536) (h0 : e ≠ 0) :
    let t := loggedEnd s (answered k (commitRefused s i e)) k 0x29 rd (commitValue e 0)
    Logs k rd (BitVec.ofNat 64 e) [.sys] [] s t ∧ t.slot i = none ∧ t.sys = { s.sys with slots := t.sys.slots } ∧
    (queued (s.pilot k) < 256 → ⟨3, 16 + k.val, e, 0, s.now, 0⟩ ∈ (t.pilot k).arrivals) := by
  have hv : commitValue e 0 = e := by
    unfold commitValue
    rw [if_neg (show e ≠ rOk from h0), Nat.add_zero]
  have hs : (loggedEnd s (answered k (commitRefused s i e)) k 0x29 rd e).sys = (s.setSlot i none).sys :=
    sys_loggedEnd.trans (sys_answered _)
  dsimp only
  rw [hv]
  refine ⟨logs_loggedEnd (frame_answered rfl), (slot_congr hs i).trans (slot_setSlot_same s i none), ?_,
    fun hq => arrivals_loggedEnd (Nat.ne_of_beq_eq_false rfl) (mem_answered hi hr hq rfl he (Nat.two_pow_pos 64))⟩
  rw [hs]
  rfl

/-- A pilot's commit that enters the landing queue (R61, R63). -/
theorem txc_queued {ws : List TWrite} (hi : s.issues k g) (hr : s.replaying = false) :
    let t := loggedEnd s (answered k (commitQueued s (16 + k) i n ws)) k 0x29 rd (commitValue 0 ((s.sys.seq + 1) % 2 ^ 32))
    Logs k rd (BitVec.ofNat 64 ((s.sys.seq + 1) % 2 ^ 32 * 2 ^ 32)) [.sys] [] s t ∧
    t.sys.seq = (s.sys.seq + 1) % 2 ^ 32 ∧ t.sys.landq = s.sys.landq ++ [⟨(s.sys.seq + 1) % 2 ^ 32, n, 16 + k.val, ws⟩] ∧
    t.slot i = none ∧ (∀ w ∈ ws, t.lastSeq w.key = some ((s.sys.seq + 1) % 2 ^ 32)) ∧ t.sys.owner = s.sys.owner ∧
    (queued (s.pilot k) < 256 → ⟨3, 16 + k.val, 0, (s.sys.seq + 1) % 2 ^ 32, s.now, 0⟩ ∈ (t.pilot k).arrivals) := by
  have hv : commitValue 0 ((s.sys.seq + 1) % 2 ^ 32) = (s.sys.seq + 1) % 2 ^ 32 * 2 ^ 32 := by
    unfold commitValue
    rw [if_pos (show 0 = rOk from rfl), Nat.zero_add, Nat.shiftLeft_eq]
  have small : (s.sys.seq + 1) % 2 ^ 32 < 2 ^ 64 := by omega
  dsimp only
  rw [hv]
  have hs : (loggedEnd s (answered k (commitQueued s (16 + k) i n ws)) k 0x29 rd ((s.sys.seq + 1) % 2 ^ 32 * 2 ^ 32)).sys =
      ((s.setSlot i none).enterQueue (16 + k) n ws).1.sys := sys_loggedEnd.trans (sys_answered _)
  refine ⟨logs_loggedEnd (frame_answered rfl), by rw [hs]; rfl, by rw [hs]; rfl, (slot_congr hs i).trans (slot_setSlot_same s i none),
    fun w hw => (lastSeq_congr hs w.key).trans ?_, by rw [hs]; rfl,
    fun hq => arrivals_loggedEnd (Nat.ne_of_beq_eq_false rfl) (mem_answered hi hr hq rfl (Nat.two_pow_pos 16) small)⟩
  have hq : (((s.setSlot i none).enterQueue (16 + k) n ws).1).sys.fieldSeq.get (fun _ => 0) w.key = (s.sys.seq + 1) % 2 ^ 32 + 1 :=
    get_stampSeq ws _ (.inr ⟨w, hw, rfl⟩)
  unfold lastSeq
  rw [hq]

theorem commitOf_queued (hfull : x.full = false) (hr : r = 0) (hc : conflicts s x = false) (hq : s.sys.landq.length < 16) :
    commitOf s k i n r x = commitQueued s (16 + k) i n x.writes := by
  unfold commitOf
  rw [hfull, if_neg Bool.false_ne_true, if_neg (show ¬ r ≠ rOk from not_not.mpr hr), hc, if_neg Bool.false_ne_true, if_neg (Nat.not_le.mpr hq)]

theorem commitOf_refused {e : Nat} (h : x.full = true ∧ e = 9 ∨ x.full = false ∧ r ≠ 0 ∧ e = r ∨
    x.full = false ∧ r = 0 ∧ conflicts s x = true ∧ e = 10 ∨ x.full = false ∧ r = 0 ∧ conflicts s x = false ∧ 16 ≤ s.sys.landq.length ∧ e = 13) :
    commitOf s k i n r x = commitRefused s i e := by
  unfold commitOf
  rcases h with ⟨hfull, rfl⟩ | ⟨hfull, hr, rfl⟩ | ⟨hfull, hr, hc, rfl⟩ | ⟨hfull, hr, hc, hq, rfl⟩
  · rw [if_pos hfull]
    rfl
  · rw [hfull, if_neg Bool.false_ne_true, if_pos (show e ≠ rOk from hr)]
  · rw [hfull, if_neg Bool.false_ne_true, if_neg (show ¬ r ≠ rOk from not_not.mpr hr), if_pos hc]
    rfl
  · rw [hfull, if_neg Bool.false_ne_true, if_neg (show ¬ r ≠ rOk from not_not.mpr hr), hc, if_neg Bool.false_ne_true, if_pos hq]
    rfl

end

/-- Settles O27: the dockets and waits of the first half, then TXB, TXR, TXC and TXW. -/
theorem pilotDocketsAndTransactions : Obligations.PilotDocketsAndTransactions := by
  unfold Obligations.PilotDocketsAndTransactions
  refine ⟨fun k g rd rs1 rs2 fn s hi => ⟨fun d ds hd => ⟨dpop_some hi hd, dpop_zero hi hd⟩, dpop_none hi, dpop_odd hi,
      completes_gives hi rfl (ifZero_zero rfl), fun n hn hr => ⟨dpost_taken hi hn hr, dpost_refused hi hn hr⟩, fun c least => wait_effect hi⟩,
    fun k g rd rs1 fn s hi hr hf => ?_⟩
  obtain ⟨busy, full, opens⟩ := txb_effect rd hi hr
  refine ⟨busy, full, opens, fun ho => ⟨txc_closed rd rs1 hi hr hf ho, txr_closed rd hi hr ho⟩, fun i x ho => ⟨txr_open rd hi hr ho,
    fun n r clash hn hclash => ⟨fun hfull hz hc hq => txc_open hi hr hf ho hn
      (commitOf_queued hfull hz (hclash.symm.trans hc :) hq) (txc_queued hi hr), fun e h => ?_⟩⟩, fun n => txw_effect rd rs1 hi hr⟩
  subst hclash
  have target := commitTarget_result hn
  exact txc_open hi hr hf ho hn (commitOf_refused h) (txc_refused hi hr (by omega) (by omega))

end Sys2Proof.Machine
end

section
/-! PROOFS. O30, the dockets that come from outside (R88 to R90): one posted to a pilot, and the harbourmaster's mail, whose WRITE record may cost the queue one place. -/

namespace Sys2Proof.Machine

open State

variable {s t u : State} {k : Fin 16} {ps : List Part} {as : List Nat} {j : Nat}

/-! ### DOCKET_POST (R88, R90) -/

theorem exec_docketPost (k : Fin 16) (kind src : BitVec 8) (sub : BitVec 16) (payload : Word64) (s : State) :
    exec (.docketPost k kind src sub payload) s = .next (s.postTo k kind.toNat src.toNat sub.toNat payload.toNat) := rfl

/-- A full queue drops a docket and counts it (R90). -/
theorem postTo_full {n kind src sub payload : Nat} (hr : s.replaying = false)
    (hs : (s.pilot n).st = .loaded ∨ (s.pilot n).st = .running ∨ (s.pilot n).st = .waiting) (hq : 256 ≤ queued (s.pilot n)) :
    s.postTo n kind src sub payload =
      (s.setPilot n { s.pilot n with drops := (s.pilot n).drops + 1 }).count (Reg.PILOT_DKT_STATUS_LOST n) := by
  unfold postTo live enqueue
  dsimp only
  rw [hr, if_neg Bool.false_ne_true, if_pos hs, if_neg (Nat.not_lt.mpr hq)]

theorem docketPost_effect (k : Fin 16) (kind src : BitVec 8) (sub : BitVec 16) (payload : Word64) (s : State) (hr : s.replaying = false) :
    (((s.pilot k).st = .loaded ∨ (s.pilot k).st = .running ∨ (s.pilot k).st = .waiting) →
      (queued (s.pilot k) < 256 → Completes (.docketPost k kind src sub payload) s
        (PilotOnly k { s.pilot k with
          arrivals := (s.pilot k).arrivals ++ [⟨kind.toNat, src.toNat, sub.toNat, payload.toNat, s.now, 0⟩] } s)) ∧
      (256 ≤ queued (s.pilot k) → Completes (.docketPost k kind src sub payload) s fun t =>
        t.pilot k = { s.pilot k with drops := (s.pilot k).drops + 1 } ∧
        t.fld (Reg.PILOT_DKT_STATUS_LOST k) = min (s.fld (Reg.PILOT_DKT_STATUS_LOST k) + 1) 65535 ∧ Frame [] [] s t)) ∧
    ((s.pilot k).st ≠ .loaded → (s.pilot k).st ≠ .running → (s.pilot k).st ≠ .waiting →
      exec (.docketPost k kind src sub payload) s = .next s) := by
  have run := exec_docketPost k kind src sub payload s
  refine ⟨fun hs => ⟨fun hq => ⟨_, run, ?_⟩, fun hq => ⟨_, run, ?_⟩⟩, fun hl hr' hw => run.trans (congrArg _ (postTo_refused hr hl hr' hw))⟩
  · rw [postTo_taken hr hs hq, Nat.mod_eq_of_lt src.isLt, Nat.mod_eq_of_lt sub.isLt, Nat.mod_eq_of_lt payload.isLt]
    exact pilotOnly_setPilot _
  · have frame : Frame [] [] s (s.postTo k kind.toNat src.toNat sub.toNat payload.toNat) := Frame.postTo _ _ _ _ k.isLt
    rw [postTo_full hr hs hq] at frame ⊢
    exact ⟨pilot_setPilot_same .., State.fld_count_same (f := Reg.PILOT_DKT_STATUS_LOST k) 1 (show 16 ≤ 31 by decide) (show 31 < 32 by decide), frame⟩

/-! ### An event or a record takes one place of a queue at most -/

theorem pilot_deliver_other {kind src sub payload : Nat} : (ks : List Nat) → (s : State) → j ∉ ks →
    (deliver kind src sub payload ks s).pilot j = s.pilot j
  | [], _, _ => rfl
  | k :: ks, s, h => by
    obtain ⟨hk, hks⟩ := not_or.mp (mt List.mem_cons.mpr h)
    refine (pilot_deliver_other ks _ hks).trans ?_
    split
    · exact pilot_enqueue_other hk
    · rfl

theorem queued_deliver_nodup {kind src sub payload : Nat} : (ks : List Nat) → (s : State) → ks.Nodup →
    queued ((deliver kind src sub payload ks s).pilot j) ≤ queued (s.pilot j) + 1
  | [], _, _ => Nat.le_succ _
  | k :: ks, s, h => by
    obtain ⟨hk, hks⟩ := List.nodup_cons.mp h
    rw [deliver]
    by_cases e : j = k
    · rw [pilot_deliver_other ks _ (e ▸ hk)]
      split
      · exact queued_enqueue
      · exact Nat.le_succ _
    · refine (queued_deliver_nodup ks _ hks).trans (Nat.le_of_eq ?_)
      split
      · rw [pilot_enqueue_other e]
      · rfl

theorem queued_post_one {kind src sub payload : Nat} : queued ((s.post kind src sub payload).pilot j) ≤ queued (s.pilot j) + 1 := by
  unfold post live
  split
  · exact Nat.le_succ _
  · exact queued_deliver_nodup _ _ List.nodup_range

theorem queued_raise_one (a en src m sh : Nat) : queued ((s.raise a en src m sh).pilot j) ≤ queued (s.pilot j) + 1 := by
  unfold raise unitEvent
  split
  · exact Nat.le_succ _
  split
  · exact (queued_mergeAll _ _).le.trans (Nat.le_succ _)
  · exact queued_post_one

theorem queued_logRec {typ src sub : Nat} {body : List Nat} : queued ((s.logRec typ src sub body).pilot j) ≤ queued (s.pilot j) + 1 := by
  rcases pilots_logRec (s := s) (typ := typ) (src := src) (sub := sub) (body := body) with e | e
  · rw [pilot_congr e]
    exact Nat.le_succ _
  · rw [e]
    exact queued_raise_one _ _ _ _ _

theorem queued_writeRec (m a v sub : Nat) : queued ((s.writeRec m a v sub).pilot j) ≤ queued (s.pilot j) + 1 := by
  unfold writeRec
  split
  · exact queued_logRec
  · exact Nat.le_succ _

/-! ### HOST_MAIL (R88) -/

/-- A word without class-X fields takes what is written and leaves the pilots alone. -/
theorem pilots_taken {a v : Nat} (h : ((fieldsAt a).all fun (f : FieldDesc) => decide (f.cls ≠ .x)) = true) :
    (taken s a v).pilots = s.pilots := by
  unfold taken
  rw [Frame.changesX_none h, Bool.and_false, if_neg Bool.false_ne_true]
  exact ((keeps_putFields (L := 8) _ _ _ _ Keeps.refl rfl).same .pilots rfl).trans
    ((keeps_dropHeld (L := 16) _ _ Keeps.refl rfl).same .pilots rfl)

/-- `write_one`, with the state that the action finds written out. -/
theorem write_taken {m a v : Nat} {env : WriteEnv} (hr : plainReg a = true) (hm : s.mayWrite m a env = true) (hi : s.ignored a = false) :
    Wrote a v s (taken (s.writeRec m a v 0) a v) ∧
    s.controlWrite m a 15 v env = action (s.writeRec m a v 0) m a v env (taken (s.writeRec m a v 0) a v) := by
  simp only [plainReg, Bool.and_eq_true, Bool.not_eq_true', decide_eq_true_eq, decide_eq_false_iff_not] at hr
  obtain ⟨⟨⟨⟨⟨⟨⟨⟨⟨⟨aligned, inSpace⟩, notBank⟩, writable⟩, oneWord⟩, noT⟩, notOnlyX⟩, notTarget⟩, block⟩, slot⟩, apart⟩ := hr
  have recorded : Aside s (s.writeRec m a v 0) := aside_writeRec _ _ _ _
  have unignored : (s.writeRec m a v 0).ignored a = false := by
    rw [State.ignored, recorded.keeps.same .fab rfl]
    exact hi
  have single : (s.writeRec m a v 0).secondTarget a v = false := by
    unfold State.secondTarget
    rw [decide_eq_false fun h => notTarget ⟨h.1, h.2.1, h.2.2.1⟩]
    rfl
  refine ⟨wrote_taken recorded (calm_writeRec _ _ _ _) (fun b hb => writeRec_evSet b hb _ _ _ _) (xLocked_aside recorded a v block slot) block apart
    (fun g hg => by simpa using List.all_eq_true.mp noT g hg), ?_⟩
  rw [← writeValue_one (tWrites_nil noT) notOnlyX]
  unfold State.controlWrite
  rw [if_neg (by omega), if_pos hm]
  unfold State.performWrite
  simp only [writable, unignored, single, oneWord, if_neg notBank, Bool.not_true, Bool.or_false, Bool.false_eq_true, if_false, ne_eq,
    not_true_eq_false]

/-- The word of mail register `i` of pilot `k`. -/
def mailAddr (k i : Nat) : Nat := 0x30040 + 0x1000 * k + 4 * i

theorem action_mail {m v : Nat} {env : WriteEnv} {old : State} (k : Fin 16) (i : Fin 4) (s : State) :
    action old m (mailAddr k i) v env s = s.postTo k 1 m i v := by
  have hk := k.isLt
  have hi := i.isLt
  generalize ha : mailAddr k i = a
  unfold mailAddr at ha
  have noCtrl : ctrlUnit a = none := by
    unfold ctrlUnit
    simp (disch := omega) only [if_neg]
  have pilot : (a - 0x30000) / 0x1000 = k := by omega
  have reg : (a - 0x30000) % 0x1000 = 0x40 + 4 * i.val := by omega
  have which : (0x40 + 4 * i.val - 0x40) / 4 = i := by omega
  unfold action
  rw [noCtrl]
  dsimp only
  simp (disch := omega) only [if_neg, if_pos]
  unfold pilotAction
  dsimp only
  rw [pilot, reg, if_neg (by omega), if_pos (by omega), which]

theorem mail_free : ∀ (k : Fin 16) (i : Fin 4),
    ((fieldsAt (mailAddr k i)).all fun (f : FieldDesc) => decide (f.cls ≠ .x)) = true := by decide +kernel

theorem calm_mail : ∀ (k : Fin 16) (i : Fin 4), calm (mailAddr k i) = true := by decide

theorem exec_hostMail (m : Fin 32) (k : Fin 16) (i : Fin 4) (v : Word) (s : State) :
    exec (.hostMail m k i v) s = .next (s.controlWrite m (mailAddr k i) 15 v.toNat .plain) := rfl

theorem hostMail_effect (m : Fin 32) (k : Fin 16) (i : Fin 4) (v : Word) (s : State)
    (hm : s.mayWrite m.val (0x30040 + 0x1000 * k.val + 4 * i.val) .plain = true)
    (hr : s.replaying = false) (hs : (s.pilot k).st = .running) (hq : queued (s.pilot k) < 255) :
    Completes (.hostMail m k i v) s fun t =>
      ⟨1, m.val, i.val, v.toNat, s.now, 0⟩ ∈ (t.pilot k).arrivals ∧ Frame [] [0x30040 + 0x1000 * k.val + 4 * i.val] s t := by
  obtain ⟨wrote, ran⟩ := write_taken (a := mailAddr k i) (v := v.toNat) (plain_hostMail k i) hm
    (by unfold State.ignored mailAddr; rw [decide_eq_false (by omega)]; rfl)
  rw [action_mail] at ran
  refine ⟨_, (exec_hostMail m k i v s).trans (congrArg _ ran), ?_, (Frame.of_wrote_free wrote List.mem_cons_self (calm_mail k i) (mail_free k i)).trans (Frame.postTo _ _ _ _ k.isLt)⟩
  generalize hu : taken (s.writeRec m (mailAddr k i) v.toNat 0) (mailAddr k i) v.toNat = u at wrote ⊢
  have hst : (u.pilot k).st = .running := (congrArg Pilot.st (wrote.pilot k) :).trans hs
  have room : queued (u.pilot k) < 256 := by
    have one := queued_writeRec (s := s) (j := k) m (mailAddr k i) v.toNat 0
    have same : u.pilot k = (s.writeRec m (mailAddr k i) v.toNat 0).pilot k := by
      rw [← hu, pilot_congr (pilots_taken (mail_free k i))]
    rw [same]
    omega
  have live : u.replaying = false := (replaying_congr (wrote.logState (by unfold mailAddr; omega))).trans hr
  have now : u.now = s.now := wrote.keeps.same .now rfl
  rw [postTo_taken live (.inr (.inl hst)) room, pilot_setPilot_same, Nat.mod_eq_of_lt (show m.val < 256 by omega),
    Nat.mod_eq_of_lt (show i.val < 65536 by omega), Nat.mod_eq_of_lt (show v.toNat < 2 ^ 64 by omega), now]
  exact List.mem_append_right _ (List.mem_singleton.mpr rfl)

end Sys2Proof.Machine
end

section
/-! PROOFS. O30, the release of a WAIT that is due (R77, R89 to R91): the order and the numbers of the released dockets, and what is published. -/

namespace Sys2Proof.Machine

open State

variable {s t u : State} {k : Fin 16} {p q r : Pilot} {ps : List Part} {as : List Nat} {a b c d : Docket}

/-! ### The release order (R89) -/

theorem docketLe_iff : docketLe a b = true ↔ a.kind < b.kind ∨ a.kind = b.kind ∧ (a.src < b.src ∨ a.src = b.src ∧
    (a.arrived < b.arrived ∨ a.arrived = b.arrived ∧ (a.sub < b.sub ∨ a.sub = b.sub ∧ a.payload ≤ b.payload))) := by
  unfold docketLe
  split_ifs <;> rw [decide_eq_true_eq] <;> omega

theorem docketLe_total (h : ¬docketLe a b = true) : docketLe b a = true := by
  rw [docketLe_iff] at *
  omega

theorem docketLe_trans (h : docketLe a b = true) (h' : docketLe b c = true) : docketLe a c = true := by
  rw [docketLe_iff] at *
  omega

/-- In the order of R89. -/
def Ordered (l : List Docket) : Prop := l.Pairwise fun d e => docketLe d e = true

theorem insertDocket_perm (d : Docket) : (l : List Docket) → (insertDocket d l).Perm (d :: l)
  | [] => List.Perm.refl _
  | e :: es => by
    rw [insertDocket]
    split
    · exact ((insertDocket_perm d es).cons e).trans (List.Perm.swap d e es)
    · exact List.Perm.refl _

theorem ordered_insertDocket (d : Docket) : (l : List Docket) → Ordered l → Ordered (insertDocket d l)
  | [], _ => List.pairwise_singleton _ _
  | e :: es, h => by
    obtain ⟨he, hes⟩ := List.pairwise_cons.mp h
    rw [insertDocket]
    split
    · next hle =>
      refine List.pairwise_cons.mpr ⟨fun x hx => ?_, ordered_insertDocket d es hes⟩
      rcases List.mem_cons.mp ((insertDocket_perm d es).mem_iff.mp hx) with rfl | hx
      · exact hle
      · exact he x hx
    · next hle =>
      refine List.pairwise_cons.mpr ⟨fun x hx => ?_, h⟩
      rcases List.mem_cons.mp hx with rfl | hx
      · exact docketLe_total hle
      · exact docketLe_trans (docketLe_total hle) (he x hx)

theorem foldl_insertDocket : (l acc : List Docket) → Ordered acc →
    (l.foldl (fun acc d => insertDocket d acc) acc).Perm (l ++ acc) ∧ Ordered (l.foldl (fun acc d => insertDocket d acc) acc)
  | [], _, h => ⟨List.Perm.refl _, h⟩
  | d :: l, acc, h => by
    obtain ⟨perm, ordered⟩ := foldl_insertDocket l (insertDocket d acc) (ordered_insertDocket d acc h)
    exact ⟨perm.trans (((insertDocket_perm d acc).append_left l).trans List.perm_middle), ordered⟩

theorem sortDockets_perm (l : List Docket) : (sortDockets l).Perm l := by
  have perm := (foldl_insertDocket l [] List.Pairwise.nil).1
  rwa [List.append_nil] at perm

theorem ordered_sortDockets (l : List Docket) : Ordered (sortDockets l) := (foldl_insertDocket l [] List.Pairwise.nil).2

/-! ### The numbers of released dockets (R87) -/

/-- A docket before it is numbered. -/
def unnumbered (d : Docket) : Docket := { d with seq := 0 }

theorem map_numberDockets : (n : Nat) → (l : List Docket) → (numberDockets n l).map unnumbered = l.map unnumbered
  | _, [] => rfl
  | n, d :: l => by
    rw [numberDockets, List.map_cons, List.map_cons, map_numberDockets (n + 1) l]
    rfl

theorem length_numberDockets : (n : Nat) → (l : List Docket) → (numberDockets n l).length = l.length
  | _, [] => rfl
  | n, _ :: l => congrArg (· + 1) (length_numberDockets (n + 1) l)

theorem seq_numberDockets {e : Docket} : (n : Nat) → (l : List Docket) → (i : Nat) → i < (numberDockets n l).length →
    ((numberDockets n l).getD i e).seq = (n + i) % 2 ^ 32
  | _, [], _, h => absurd h (Nat.not_lt_zero _)
  | _, _ :: _, 0, _ => rfl
  | n, _ :: l, i + 1, h => (seq_numberDockets (n + 1) l i (Nat.lt_of_succ_lt_succ h)).trans (by rw [Nat.add_assoc, Nat.add_comm 1])

/-- The release order does not look at numbers. -/
theorem ordered_map_unnumbered (l : List Docket) : Ordered (l.map unnumbered) ↔ Ordered l := List.pairwise_map

theorem ordered_numberDockets (n : Nat) {l : List Docket} (h : Ordered l) : Ordered (numberDockets n l) := by
  rw [← ordered_map_unnumbered, map_numberDockets, ordered_map_unnumbered]
  exact h

/-! ### What a release does to the queue (R89, R90) -/

/-- A DOCKET_LOST is due (R90). -/
def lostDue (p : Pilot) : Bool := !p.lostHeld && decide (0 < p.drops)

/-- The DOCKET_LOST that a release at `now` brings (R90). -/
def lostDocket (p : Pilot) (now : Nat) : List Docket := if lostDue p then [⟨0x0F, 0, 0, p.drops, now, 0⟩] else []

/-- The dockets of `p` that entered before `cyc`, in the order of R89. -/
def dueDockets (p : Pilot) (cyc : Nat) : List Docket := sortDockets (p.arrivals.filter fun d => decide (d.arrived < cyc))

/-- What a release brings, numbered on. -/
def newDockets (p : Pilot) (now cyc : Nat) : List Docket := numberDockets p.seq (lostDocket p now ++ dueDockets p cyc)

/-- A pilot whose queue has `new` released behind what it had. -/
def withReleased (p : Pilot) (new : List Docket) : Pilot :=
  { p with released := p.released ++ new, lostHeld := p.lostHeld || lostDue p, seq := (p.seq + new.length) % 2 ^ 32 }

theorem frame_logDockets (k : Nat) : (ds : List Docket) → (s : State) → Frame ps as s (logDockets k ds s)
  | [], _ => Frame.refl
  | _ :: ds, _ => (Frame.logRec _ _ _ _).trans (frame_logDockets k ds _)

/-- Changes one after the other. -/
theorem Pilots.trans (h : Pilots k p ps as s t) (h' : Pilots k q ps as t u) (hc : q.core = r.core) : Pilots k r ps as s u := by
  obtain ⟨_, others, only, words⟩ := h
  obtain ⟨hp, others', only', words'⟩ := h'
  exact ⟨hp.trans hc, fun j hj => (others' j hj).trans (others j hj), only.trans only', fun x hx hn => (words' x hx hn).trans (words x hx hn)⟩

/-- A change of one pilot that does not look at its docket queue. -/
theorem Pilots.update (h : Pilots k p ps as s t) (f : Pilot → Pilot) (hf : ∀ q, (f q).core = (f q.core).core) :
    Pilots k (f p) ps as s (t.setPilot k (f (t.pilot k))) := h.setPilot (by rw [hf, h.1, ← hf])

/-- The pilot's queue has been released; the DOCKET records are due. -/
def queueReleased (s : State) (k cyc : Nat) : State :=
  let p := s.pilot k
  s.setPilot k { withReleased p (newDockets p s.now cyc) with
    arrivals := p.arrivals.filter fun d => !decide (d.arrived < cyc), drops := if lostDue p then 0 else p.drops }

theorem releaseDockets_live (hr : s.replaying = false) (k cyc : Nat) :
    s.releaseDockets k cyc = logDockets k (newDockets (s.pilot k) s.now cyc) (queueReleased s k cyc) := by
  unfold releaseDockets
  rw [hr, if_neg Bool.false_ne_true]
  rfl

theorem pilots_releaseDockets (hr : s.replaying = false) (cyc : Nat) :
    Pilots k (withReleased (s.pilot k) (newDockets (s.pilot k) s.now cyc)) ps as s (s.releaseDockets k cyc) := by
  rw [releaseDockets_live hr]
  have queue : Pilots k (withReleased (s.pilot k) (newDockets (s.pilot k) s.now cyc)) ps as s (queueReleased s k cyc) :=
    (pilots_of_frame Frame.refl).setPilot rfl
  exact queue.frame (frame_logDockets _ _ _)

theorem published_releaseDockets (hr : s.replaying = false) (k cyc : Nat) : (s.releaseDockets k cyc).published = s.published := by
  rw [releaseDockets_live hr]
  exact (keeps_logDockets (L := 148376) k _ Keeps.refl rfl).same .published rfl

/-- A release brings DOCKET_LOST first when it is due, then the due dockets in order, all numbered on. -/
theorem newDockets_eq (p : Pilot) (now cyc : Nat) : newDockets p now cyc =
    (if lostDue p then [⟨0x0F, 0, 0, p.drops, now, p.seq % 2 ^ 32⟩] else []) ++
      numberDockets (p.seq + if lostDue p then 1 else 0) (dueDockets p cyc) := by
  unfold newDockets lostDocket
  cases lostDue p <;> rfl

/-! ### What is published (R77) -/

theorem get_of_not_mem {α : Type} {f : Nat → α} {x : Nat} : (l : SMap α) → x ∉ l.map (·.1) → SMap.get f l x = f x
  | [], _ => rfl
  | e :: l, h => by
    obtain ⟨he, hl⟩ := not_or.mp (mt List.mem_cons.mpr h)
    rw [SMap.get, if_neg he]
    exact get_of_not_mem l hl

/-- Entries written one after the other, no key twice, are found again over what was there. -/
theorem get_foldl_set {α : Type} [DecidableEq α] {f : Nat → α} {x : Nat} : (l m : SMap α) → (l.map (·.1)).Nodup →
    SMap.get f (l.foldl (fun m e => m.set f e.1 e.2) m) x = if x ∈ l.map (·.1) then SMap.get f l x else SMap.get f m x
  | [], _, _ => rfl
  | e :: l, m, h => by
    obtain ⟨he, hl⟩ := List.nodup_cons.mp h
    rw [List.foldl_cons, List.map_cons, get_foldl_set l _ hl, SMap.get_set, SMap.get]
    by_cases hx : x ∈ l.map (·.1)
    · have hne : x ≠ e.1 := fun h => he (show e.1 ∈ _ from h ▸ hx)
      rw [if_pos hx, if_pos (List.mem_cons_of_mem _ hx), if_neg hne]
    · rw [if_neg hx]
      by_cases hxe : x = e.1
      · rw [if_pos hxe, if_pos (hxe ▸ List.mem_cons_self), if_pos hxe]
      · rw [if_neg hxe, if_neg fun h => (List.mem_cons.mp h).elim hxe hx]

theorem get_publish (hn : ((s.pilot k).snapshot.map (·.1)).Nodup)
    (ho : ∀ e ∈ (s.pilot k).snapshot, s.ownsBank k ((e.1 - 0x20000) / 0x4000) = true) (x : Nat) :
    (s.publish k).published.get (fun _ => 0) x = if s.ownsBank k ((x - 0x20000) / 0x4000) then (s.pilot k).snapshot.get (fun _ => 0) x
      else s.published.get (fun _ => 0) x := by
  refine (get_foldl_set _ _ hn).trans ?_
  by_cases hx : x ∈ (s.pilot k).snapshot.map (·.1)
  · obtain ⟨e, he, rfl⟩ := List.mem_map.mp hx
    rw [if_pos hx, if_pos (ho e he)]
  · rw [if_neg hx]
    split
    · next h => exact (SMap.get_filter_out _ _ fun _ => congrArg (!·) h).trans (get_of_not_mem (f := fun _ => 0) _ hx).symm
    · next h => exact SMap.get_filter _ _ fun _ => congrArg (!·) (Bool.eq_false_iff.mpr h)

theorem only_published (x : SMap Byte) : Only [.published] s { s with published := x } := fun p hp => by
  cases p with
  | published => exact absurd (List.mem_singleton.mpr rfl) hp
  | _ => rfl

theorem frame_publish (k : Nat) : Frame [.published] as s (s.publish k) := frame_part (only_published _) List.mem_cons_self rfl rfl

/-! ### PILOT_RELEASE (R77, R80, R89, R91) -/

theorem exec_pilotRelease (k : Fin 16) (s : State) :
    exec (.pilotRelease k) s = .next (match s.releaseTide k with | some r => s.doRelease k r | none => s) := rfl

/-- A pilot that has not overrun waits for the latest tide (R91). -/
theorem releaseTide_of_not_ovr (hst : (s.pilot k).st = .waiting) (ho : (s.pilot k).ovr = false) : s.releaseTide k =
    if (s.pilot k).workTide < s.tide ∧ (s.pilot k).waitFor ≤ s.tide ∧ s.tide ≤ s.tide then some s.tide else none := by
  have latest : (if (s.pilot k).ovr = true ∧ (s.pilot k).waitFor ≤ (s.pilot k).workTide + 1 then (s.pilot k).workTide + 1 else s.tide) = s.tide :=
    if_neg fun h => Bool.eq_false_iff.mp ho h.1
  unfold releaseTide
  dsimp only
  rw [if_neg (not_not.mpr hst), latest]

theorem releaseTide_due (hst : (s.pilot k).st = .waiting) (ho : (s.pilot k).ovr = false) (hw : (s.pilot k).workTide < s.tide)
    (hf : (s.pilot k).waitFor ≤ s.tide) : s.releaseTide k = some s.tide :=
  (releaseTide_of_not_ovr hst ho).trans (if_pos ⟨hw, hf, Nat.le_refl _⟩)

theorem releaseTide_early (h : (s.pilot k).st ≠ .waiting ∨ (s.pilot k).ovr = false ∧ s.tide ≤ (s.pilot k).workTide ∨ s.tide < (s.pilot k).waitFor) :
    s.releaseTide k = none := by
  by_cases hst : (s.pilot k).st = .waiting
  · rcases h with h | ⟨ho, hw⟩ | hf
    · exact absurd hst h
    · exact (releaseTide_of_not_ovr hst ho).trans (if_neg (by omega))
    · unfold releaseTide
      dsimp only
      rw [if_neg (not_not.mpr hst)]
      exact if_neg fun ⟨_, hn, ht⟩ => absurd (hn.trans ht) (by omega)
  · exact if_pos hst

/-- The queue of the released pilot has moved on; the pilot waits yet. -/
def releaseQueued (s : State) (k r : Nat) : State := (s.publish k).releaseDockets k (s.instantOf r)

/-- The pilot as WAIT returns at tide `r` with `new` dockets. -/
def returned (p : Pilot) (r : Nat) (new : List Docket) : Pilot :=
  { withReleased p new with st := .running, lastTide := r, workTide := r, ovr := false, x := regsWith p (Fin.ofNat 32 p.waitRd) (BitVec.ofNat 64 r) }

theorem doRelease_eq (k r : Nat) : s.doRelease k r = ((releaseQueued s k r).setPilot k
    { (releaseQueued s k r).pilot k with st := .running, lastTide := r, workTide := r, ovr := false }).setX k
      (Fin.ofNat 32 ((releaseQueued s k r).pilot k).waitRd) (BitVec.ofNat 64 r) := rfl

theorem pilots_doRelease (hr : s.replaying = false) (n : Nat) :
    Pilots k (returned (s.pilot k) n (newDockets (s.pilot k) s.now (s.instantOf n))) [.published] [] s (s.doRelease k n) := by
  have live : (s.publish k).replaying = false := hr
  have queue : Pilots k (withReleased (s.pilot k) (newDockets (s.pilot k) s.now (s.instantOf n))) [.published] [] s (releaseQueued s k n) :=
    (pilots_of_frame (frame_publish k)).trans (pilots_releaseDockets live _) rfl
  have hrd : ((releaseQueued s k n).pilot k).waitRd = (s.pilot k).waitRd := (congrArg Pilot.waitRd queue.1 :)
  rw [doRelease_eq, hrd]
  exact (queue.update (fun a => { a with st := .running, lastTide := n, workTide := n, ovr := false }) fun _ => rfl).setX _ _

theorem published_doRelease (hr : s.replaying = false) (n : Nat) : (s.doRelease k n).published = (s.publish k).published := by
  rw [doRelease_eq]
  exact ((pilotOnly_setX _ _).2.2 .published (by decide)).trans (published_releaseDockets (s := s.publish k) hr k _)

theorem release_effect {lost : Bool} (hr : s.replaying = false) (hst : (s.pilot k).st = .waiting) (ho : (s.pilot k).ovr = false)
    (hw : (s.pilot k).workTide < s.tide) (hf : (s.pilot k).waitFor ≤ s.tide) (hl : lost = (!(s.pilot k).lostHeld && decide (0 < (s.pilot k).drops)))
    (hn : ((s.pilot k).snapshot.map (·.1)).Nodup) (hb : ∀ e ∈ (s.pilot k).snapshot, s.ownsBank k ((e.1 - 0x20000) / 0x4000) = true) :
    Completes (.pilotRelease k) s fun t =>
      (t.pilot k).st = .running ∧ (t.pilot k).lastTide = s.tide ∧ (t.pilot k).workTide = s.tide ∧
      (∀ i : Fin 32, t.xreg k i = if i.val = (s.pilot k).waitRd % 32 ∧ i ≠ 0 then BitVec.ofNat 64 s.tide else s.xreg k i) ∧
      (∀ a, t.published.get (fun _ => 0) a = if s.ownsBank k ((a - 0x20000) / 0x4000) then (s.pilot k).snapshot.get (fun _ => 0) a
        else s.published.get (fun _ => 0) a) ∧
      (∃ new : List Docket,
        (t.pilot k).released = (s.pilot k).released ++
          ((if lost then [⟨0x0F, 0, 0, (s.pilot k).drops, s.now, (s.pilot k).seq % 2 ^ 32⟩] else []) ++ new) ∧
        (new.map fun d => { d with seq := 0 }).Perm
          (((s.pilot k).arrivals.filter fun d => decide (d.arrived < s.instantOf s.tide)).map fun d => { d with seq := 0 }) ∧
        new.Pairwise (fun d e => docketLe d e = true) ∧
        ∀ i, i < new.length → (new.getD i ⟨0, 0, 0, 0, 0, 0⟩).seq = ((s.pilot k).seq + (if lost then 1 else 0) + i) % 2 ^ 32) ∧
      Pilots k { s.pilot k with st := .running, x := (t.pilot k).x, lastTide := s.tide, workTide := s.tide, ovr := false, released := (t.pilot k).released, lostHeld := (s.pilot k).lostHeld || lost, seq := (t.pilot k).seq } [.published] [] s t := by
  have hl' : lostDue (s.pilot k) = lost := hl.symm
  have done := pilots_doRelease (k := k) hr s.tide
  generalize ht : s.doRelease k s.tide = t at done
  have core := done.1
  have hx : (t.pilot k).x = regsWith (s.pilot k) (Fin.ofNat 32 (s.pilot k).waitRd) (BitVec.ofNat 64 s.tide) := (congrArg Pilot.x core :)
  have hrel : (t.pilot k).released = (s.pilot k).released ++ newDockets (s.pilot k) s.now (s.instantOf s.tide) := (congrArg Pilot.released core :)
  have hseq : (t.pilot k).seq = ((s.pilot k).seq + (newDockets (s.pilot k) s.now (s.instantOf s.tide)).length) % 2 ^ 32 := (congrArg Pilot.seq core :)
  refine ⟨t, by rw [exec_pilotRelease, releaseTide_due hst ho hw hf, ← ht], (congrArg Pilot.st core :), (congrArg Pilot.lastTide core :),
    (congrArg Pilot.workTide core :), fun i => ?_, fun a => ?_, ⟨numberDockets ((s.pilot k).seq + if lost then 1 else 0) (dueDockets (s.pilot k) (s.instantOf s.tide)),
      ?_, ?_, ordered_numberDockets _ (ordered_sortDockets _), fun i hi => seq_numberDockets _ _ i hi⟩, ?_⟩
  · refine ((puts_setX (s := s) (Fin.ofNat 32 (s.pilot k).waitRd) (BitVec.ofNat 64 s.tide)).congr (by rw [hx, pilot_setX]) i).trans ?_
    refine if_congr ⟨fun ⟨e, h⟩ => ⟨congrArg Fin.val e, e ▸ h⟩, fun ⟨e, h⟩ => ?_⟩ rfl rfl
    have hi : i = Fin.ofNat 32 (s.pilot k).waitRd := Fin.ext e
    exact ⟨hi, hi ▸ h⟩
  · rw [← ht, published_doRelease hr]
    exact get_publish hn hb a
  · rw [hrel, newDockets_eq, hl']
  · have perm := (sortDockets_perm ((s.pilot k).arrivals.filter fun d => decide (d.arrived < s.instantOf s.tide))).map unnumbered
    exact (List.Perm.of_eq (map_numberDockets _ _)).trans perm
  · rw [hx, hrel, hseq, ← hl']
    exact done

theorem pilotRelease_early (h : (s.pilot k).st ≠ .waiting ∨ (s.pilot k).ovr = false ∧ s.tide ≤ (s.pilot k).workTide ∨ s.tide < (s.pilot k).waitFor) :
    exec (.pilotRelease k) s = .next s := by
  rw [exec_pilotRelease, releaseTide_early h]

end Sys2Proof.Machine
end

section
/-! PROOFS. O30, late pilots (R91): the overrun at tide k + 1 and the abandon at k + 2, with the counts, tides and events of their unit. -/

namespace Sys2Proof.Machine

open State

variable {s t u : State} {k : Fin 16} {ps : List Part} {as : List Nat}

/-! ### The overrun registers of a pilot's unit -/

theorem calm_unitOvr : ∀ k : Fin 16, calm (0x61004 + 0x20 * (24 + k.val)) = true ∧ calm (0x61008 + 0x20 * (24 + k.val)) = true ∧
    calm (0x6100C + 0x20 * (24 + k.val)) = true := by decide

theorem quiet_unitOvr : ∀ k : Fin 16, quiet (0x61004 + 0x20 * (24 + k.val)) = false := by decide

/-- The words that an overrun or an abandon of pilot `k` changes. -/
def lateWords (k : Nat) : List Nat := [0x60000, 0x61004 + 0x20 * (24 + k), 0x61008 + 0x20 * (24 + k), 0x6100C + 0x20 * (24 + k)]

/-! ### An abandon is counted (R44) -/

theorem aside_countAbandon (k : Fin 16) : Aside s (s.countAbandon (24 + k)) :=
  (aside_count _ _ (quiet_unitOvr k) (show 0x61004 + 0x20 * (24 + k.val) ≠ 0x50004 by omega)).trans (aside_raise _ _ _ _ _ (by decide) (by decide))

theorem frame_countAbandon (k : Fin 16) : Frame ps (lateWords k) s (s.countAbandon (24 + k)) :=
  (Frame.count (Reg.FAB_UNIT_OVR_ABANDON_CNT (24 + k)) 1 (List.mem_cons_of_mem _ List.mem_cons_self) (quiet_unitOvr k)
    (show 0x61004 + 0x20 * (24 + k.val) ≠ 0x50004 by omega)).trans (Frame.raise _ _ _ _ _ List.mem_cons_self (by decide) (by decide))

theorem abandonCnt_countAbandon (k : Fin 16) : (s.countAbandon (24 + k)).fld (Reg.FAB_UNIT_OVR_ABANDON_CNT (24 + k)) =
    min (s.fld (Reg.FAB_UNIT_OVR_ABANDON_CNT (24 + k)) + 1) 65535 :=
  (State.fld_raise _ _ _ _ _ (calm_unitOvr k).1 (show 0x61004 + 0x20 * (24 + k.val) ≠ 0x60000 by omega)).trans
    (State.fld_count_same (f := Reg.FAB_UNIT_OVR_ABANDON_CNT (24 + k)) 1 (show 16 ≤ 31 by decide) (show 31 < 32 by decide))

theorem abandonEvent_countAbandon (u : Nat) : (s.countAbandon u).flag Reg.FAB_EVENT_ABANDON = true :=
  State.flag_raise (f := Reg.FAB_EVENT_ABANDON) 0x60004 52 8 0 (by decide) rfl (by decide) (by decide)

/-! ### An overrun is declared (R43) -/

/-- OVR stands on the work of unit `u` for tide `t`. -/
def workOverrun (s : State) (u t : Nat) : State :=
  { s with fab := { s.fab with work := s.fab.work.map fun (w : Work) => if w.unit = u ∧ w.tide = t then ({ w with ovr := true } : Work) else w } }

/-- The overrun is counted and its tide noted; its event is due. -/
def overrunNoted (s : State) (u t : Nat) : State :=
  ((workOverrun s u t).count (Reg.FAB_UNIT_OVR_OVR_CNT u)).setFld2 (Reg.FAB_UNIT_OVR_TIDE_LO_TIDE_LO u) (Reg.FAB_UNIT_OVR_TIDE_HI_TIDE_HI u) t

theorem declareOverrun_eq (u t : Nat) : s.declareOverrun u t = (overrunNoted s u t).raise 0x60000 0x60004 52 4 := rfl

section

variable {n : Nat}

theorem word_overrunNoted {x : Nat} (hc : x ≠ 0x61004 + 0x20 * (24 + k.val)) (hl : x ≠ 0x61008 + 0x20 * (24 + k.val))
    (hh : x ≠ 0x6100C + 0x20 * (24 + k.val)) : (overrunNoted s (24 + k) n).word x = s.word x :=
  (State.word_setFld _ _ _ x hh).trans ((State.word_setFld _ _ _ x hl).trans (State.word_count _ _ hc))

theorem logState_declareOverrun (k : Fin 16) : (s.declareOverrun (24 + k) n).fld Reg.LOG_STATUS_STATE = s.fld Reg.LOG_STATUS_STATE :=
  (aside_raise 0x60000 0x60004 52 4 0 (by decide) (by decide)).logState.trans
    (State.fld_of_word (word_overrunNoted (show 0x50004 ≠ _ by omega) (show 0x50004 ≠ _ by omega) (show 0x50004 ≠ _ by omega)))

theorem frame_overrunNoted (k : Fin 16) : Frame ps (lateWords k) (workOverrun s (24 + k) n) (overrunNoted s (24 + k) n) :=
  (Frame.count (Reg.FAB_UNIT_OVR_OVR_CNT (24 + k)) 1 (List.mem_cons_of_mem _ List.mem_cons_self) (quiet_unitOvr k)
    (show 0x61004 + 0x20 * (24 + k.val) ≠ 0x50004 by omega)).trans
    (Frame.setFld2 (Reg.FAB_UNIT_OVR_TIDE_LO_TIDE_LO (24 + k)) (Reg.FAB_UNIT_OVR_TIDE_HI_TIDE_HI (24 + k)) n
      (List.mem_cons_of_mem _ (List.mem_cons_of_mem _ List.mem_cons_self))
      (List.mem_cons_of_mem _ (List.mem_cons_of_mem _ (List.mem_cons_of_mem _ List.mem_cons_self))))

theorem frame_declareOverrun (k : Fin 16) : Frame [.fab] (lateWords k) s (s.declareOverrun (24 + k) n) :=
  ((frame_fab List.mem_cons_self).trans (frame_overrunNoted k)).trans (Frame.raise _ _ _ _ _ List.mem_cons_self (by decide) (by decide))

/-- The word of the two counts is as the count of the overrun left it. -/
theorem word_declareOverrun_counts (k : Fin 16) : (s.declareOverrun (24 + k) n).word (0x61004 + 0x20 * (24 + k.val)) =
    ((workOverrun s (24 + k) n).count (Reg.FAB_UNIT_OVR_OVR_CNT (24 + k))).word (0x61004 + 0x20 * (24 + k.val)) := by
  rw [declareOverrun_eq]
  refine ((State.word_raise _ _ _ _ _ (calm_unitOvr k).1).trans (if_neg (show 0x61004 + 0x20 * (24 + k.val) ≠ 0x60000 by omega))).trans ?_
  exact (State.word_setFld _ (Reg.FAB_UNIT_OVR_TIDE_HI_TIDE_HI (24 + k)) _ _ (show 0x61004 + 0x20 * (24 + k.val) ≠ 0x6100C + 0x20 * (24 + k.val) by omega)).trans
    (State.word_setFld _ (Reg.FAB_UNIT_OVR_TIDE_LO_TIDE_LO (24 + k)) _ _ (show 0x61004 + 0x20 * (24 + k.val) ≠ 0x61008 + 0x20 * (24 + k.val) by omega))

theorem ovrCnt_declareOverrun (k : Fin 16) : (s.declareOverrun (24 + k) n).fld (Reg.FAB_UNIT_OVR_OVR_CNT (24 + k)) =
    min (s.fld (Reg.FAB_UNIT_OVR_OVR_CNT (24 + k)) + 1) 65535 :=
  (State.fld_of_word (f := Reg.FAB_UNIT_OVR_OVR_CNT (24 + k)) (word_declareOverrun_counts k)).trans
    (State.fld_count_same (f := Reg.FAB_UNIT_OVR_OVR_CNT (24 + k)) 1 (show 0 ≤ 15 by decide) (show 15 < 32 by decide))

/-- A count leaves the other fields of its word. -/
theorem fld_count_bits {f g : Fld} (n : Nat) (ha : g.addr = f.addr) (h : f.lo ≤ f.hi) (hw : g.hi < 32) (hd : g.hi < f.lo ∨ f.hi < g.lo) :
    (s.count f n).fld g = s.fld g := by
  show (s.setFld f _).fld g = s.fld g
  exact State.fld_setFld_bits s f g _ ha h hw hd

theorem abandonCnt_declareOverrun (k : Fin 16) : (s.declareOverrun (24 + k) n).fld (Reg.FAB_UNIT_OVR_ABANDON_CNT (24 + k)) =
    s.fld (Reg.FAB_UNIT_OVR_ABANDON_CNT (24 + k)) :=
  (State.fld_of_word (f := Reg.FAB_UNIT_OVR_ABANDON_CNT (24 + k)) (word_declareOverrun_counts k)).trans
    (fld_count_bits (f := Reg.FAB_UNIT_OVR_OVR_CNT (24 + k)) (g := Reg.FAB_UNIT_OVR_ABANDON_CNT (24 + k)) 1 rfl (show 0 ≤ 15 by decide)
      (show 31 < 32 by decide) (.inr (show 15 < 16 by decide)))

theorem halves_join (hn : n < 2 ^ 48) : n % 2 ^ 32 + ((n >>> 32) % 2 ^ 16) <<< 32 = n := by
  rw [Nat.shiftRight_eq_div_pow, Nat.shiftLeft_eq]
  omega

/-- A 48-bit value in a low word and the low half of another is read as it was written. -/
theorem fld2_setFld2 {a b : Nat} (hab : a ≠ b) (hn : n < 2 ^ 48) : (s.setFld2 ⟨a, 31, 0⟩ ⟨b, 15, 0⟩ n).fld2 ⟨a, 31, 0⟩ ⟨b, 15, 0⟩ = n := by
  have low : ((s.setFld ⟨a, 31, 0⟩ n).setFld ⟨b, 15, 0⟩ (n >>> 32)).fld ⟨a, 31, 0⟩ = n % 2 ^ 32 :=
    (State.fld_setFld_addr _ ⟨b, 15, 0⟩ ⟨a, 31, 0⟩ _ hab).trans (State.fld_setFld_same s ⟨a, 31, 0⟩ n (Nat.zero_le _) (show 31 < 32 by decide))
  have high : ((s.setFld ⟨a, 31, 0⟩ n).setFld ⟨b, 15, 0⟩ (n >>> 32)).fld ⟨b, 15, 0⟩ = (n >>> 32) % 2 ^ 16 :=
    State.fld_setFld_same _ ⟨b, 15, 0⟩ _ (Nat.zero_le _) (show 15 < 32 by decide)
  exact (congrArg₂ (fun x y => x + y <<< 32) low high).trans (halves_join hn)

theorem ovrTide_declareOverrun (k : Fin 16) (hn : n < 2 ^ 48) : (s.declareOverrun (24 + k) n).fld2
    (Reg.FAB_UNIT_OVR_TIDE_LO_TIDE_LO (24 + k)) (Reg.FAB_UNIT_OVR_TIDE_HI_TIDE_HI (24 + k)) = n := by
  rw [declareOverrun_eq]
  refine (fld2_of_word ((State.word_raise _ _ _ _ _ (calm_unitOvr k).2.1).trans (if_neg (show 0x61008 + 0x20 * (24 + k.val) ≠ 0x60000 by omega)))
    ((State.word_raise _ _ _ _ _ (calm_unitOvr k).2.2).trans (if_neg (show 0x6100C + 0x20 * (24 + k.val) ≠ 0x60000 by omega)))).trans ?_
  exact fld2_setFld2 (show 0x61008 + 0x20 * (24 + k.val) ≠ 0x6100C + 0x20 * (24 + k.val) by omega) hn

theorem overrunEvent_declareOverrun (u : Nat) : (s.declareOverrun u n).flag Reg.FAB_EVENT_OVERRUN = true :=
  State.flag_raise (f := Reg.FAB_EVENT_OVERRUN) 0x60004 52 4 0 (by decide) rfl (by decide) (by decide)

theorem abandonEvent_declareOverrun (k : Fin 16) (h : s.flag Reg.FAB_EVENT_ABANDON = true) :
    (s.declareOverrun (24 + k) n).flag Reg.FAB_EVENT_ABANDON = true := by
  rw [declareOverrun_eq]
  refine flag_raise_kept _ _ _ _ _ (by decide) rfl ((flag_of_fld (State.fld_of_word ?_)).trans h)
  exact word_overrunNoted (show 0x60000 ≠ _ by omega) (show 0x60000 ≠ _ by omega) (show 0x60000 ≠ _ by omega)

end

/-! ### PILOT_OVERRUN and PILOT_ABANDON (R91) -/

/-- The overrun is declared; its PILOT record is due. -/
def overrunDeclared (s : State) (k : Nat) : State :=
  (s.setPilot k { s.pilot k with ovr := true }).declareOverrun (24 + k) (s.pilot k).workTide

theorem exec_pilotOverrun (hr : s.replaying = false) : exec (.pilotOverrun k) s = .next (
    if (s.pilot k).st = .running ∧ (!(s.pilot k).ovr) = true ∧ (s.pilot k).workTide + 1 ≤ s.tide then (overrunDeclared s k).pilotRec k 3 [] else s) := by
  have due : (if s.replaying = true then s.pilotForced k 3 else decide ((s.pilot k).workTide + 1 ≤ s.tide)) = true ↔
      (s.pilot k).workTide + 1 ≤ s.tide := by
    rw [if_neg (Bool.eq_false_iff.mp hr), decide_eq_true_eq]
  exact congrArg Host.Outcome.next (if_congr (and_congr_right' (and_congr_right' due)) rfl rfl)

theorem overrun_effect (hr : s.replaying = false) (hn : (s.pilot k).workTide + 1 < 2 ^ 48) (hs : (s.pilot k).st = .running)
    (ho : (s.pilot k).ovr = false) (hw : (s.pilot k).workTide + 1 ≤ s.tide) : Completes (.pilotOverrun k) s fun t =>
      t.fld (Reg.FAB_UNIT_OVR_OVR_CNT (24 + k)) = min (s.fld (Reg.FAB_UNIT_OVR_OVR_CNT (24 + k)) + 1) 65535 ∧
      t.fld2 (Reg.FAB_UNIT_OVR_TIDE_LO_TIDE_LO (24 + k)) (Reg.FAB_UNIT_OVR_TIDE_HI_TIDE_HI (24 + k)) = (s.pilot k).workTide ∧
      t.flag Reg.FAB_EVENT_OVERRUN = true ∧ Pilots k { s.pilot k with ovr := true } [.fab] (lateWords k) s t := by
  have live : (overrunDeclared s k).replaying = false := (replaying_congr (logState_declareOverrun k)).trans hr
  obtain ⟨count, low, high⟩ := calm_unitOvr k
  refine ⟨_, (exec_pilotOverrun hr).trans (congrArg _ ((if_pos ⟨hs, by rw [ho]; rfl, hw⟩).trans (pilotRec_live live 3 []))), ?_, ?_, ?_, ?_⟩
  · exact (State.fld_logRec (f := Reg.FAB_UNIT_OVR_OVR_CNT (24 + k)) _ _ _ _ count).trans (ovrCnt_declareOverrun k)
  · exact (fld2_of_word (State.word_logRec _ _ _ _ low) (State.word_logRec _ _ _ _ high)).trans (ovrTide_declareOverrun k (by omega))
  · exact (flag_of_fld (State.fld_logRec _ _ _ _ (by decide))).trans (overrunEvent_declareOverrun _)
  · exact ((pilots_setPilot _).frame (frame_declareOverrun k)).frame (Frame.logRec _ _ _ _)

/-- The abandon is counted; its PILOT record, its exception and the overrun of the next tide's work are due. -/
def abandonRecorded (s : State) (k : Nat) : State := (s.countAbandon (24 + k)).pilotRec k 4 []

/-- The exception of the abandon has been taken, at a free EVAL. -/
def abandonTaken (s : State) (k : Nat) : State :=
  ((abandonRecorded s k).takeExc k 8 (BitVec.ofNat 64 s.freeVal) (s.pilot k).pc).nextFree

/-- The work for tide k + 1 is given up; its overrun is due. -/
def workGivenUp (s : State) (k n : Nat) : State :=
  (s.abandonMoves k n).setPilot k { (s.abandonMoves k n).pilot k with workTide := n + 1, ovr := true }

theorem exec_pilotAbandon (hr : s.replaying = false) : exec (.pilotAbandon k) s = .next (
    if (s.pilot k).st = .running ∧ (s.pilot k).workTide + 2 ≤ s.tide then
      (workGivenUp (abandonTaken s k) k (s.pilot k).workTide).declareOverrun (24 + k) ((s.pilot k).workTide + 1) else s) := by
  have due : (if s.replaying = true then s.pilotForced k 4 else decide ((s.pilot k).workTide + 2 ≤ s.tide)) = true ↔
      (s.pilot k).workTide + 2 ≤ s.tide := by
    rw [if_neg (Bool.eq_false_iff.mp hr), decide_eq_true_eq]
  exact congrArg Host.Outcome.next (if_congr (and_congr_right' due) rfl rfl)

theorem abandonRecorded_eq (hr : s.replaying = false) :
    abandonRecorded s k = (s.countAbandon (24 + k)).logRec 5 k 4 [((s.countAbandon (24 + k)).pilot k).retired] :=
  pilotRec_live ((replaying_congr (aside_countAbandon k).logState).trans hr) 4 []

theorem frame_abandonRecorded (hr : s.replaying = false) : Frame ps (lateWords k) s (abandonRecorded s k) := by
  rw [abandonRecorded_eq hr]
  exact (frame_countAbandon k).trans (Frame.logRec _ _ _ _)

/-- Pilot `p` in its handler after an abandon with EVAL `v`. -/
def abandonHandled (p : Pilot) (v : Word64) (pc : Nat) : Pilot :=
  { p with epc := BitVec.ofNat 64 pc, ecause := 8, eval := v, handler := true, pc := p.evec.toNat / 4 * 4 }

/-- Pilot `p` without its moves for tide `n` and before, at work for tide n + 1, late. -/
def gaveUp (n : Nat) (p : Pilot) : Pilot :=
  { p with moves := p.moves.map (fun m => if m.tide ≤ n then { m with gone := true } else m), workTide := n + 1, ovr := true }

theorem abandonTaken_eq (hr : s.replaying = false) (hc : s.catches k) : abandonTaken s k =
    ((abandonRecorded s k).setPilot k (abandonHandled ((abandonRecorded s k).pilot k) (BitVec.ofNat 64 s.freeVal) (s.pilot k).pc)).nextFree := by
  have core := (frame_abandonRecorded (ps := []) (k := k) hr).2.2 k
  have caught : (abandonRecorded s k).catches k := ⟨(congrArg Pilot.handler core :).trans hc.1, fun e => hc.2 ((congrArg Pilot.evec core :).symm.trans e)⟩
  rw [abandonTaken, takeExc_caught caught]
  rfl

theorem pilots_abandonTaken (hr : s.replaying = false) (hc : s.catches k) :
    Pilots k (abandonHandled (s.pilot k) (BitVec.ofNat 64 s.freeVal) (s.pilot k).pc) [.fab, .fresh] (lateWords k) s (abandonTaken s k) := by
  rw [abandonTaken_eq hr hc]
  exact ((pilots_of_frame (frame_abandonRecorded hr)).update (fun p => abandonHandled p _ _) fun _ => rfl).frame (frame_nextFree (by decide))

theorem workGivenUp_eq (n : Nat) : workGivenUp s k n =
    (s.setPilot k { s.pilot k with moves := (gaveUp n (s.pilot k)).moves }).setPilot k (gaveUp n (s.pilot k)) := by
  rw [workGivenUp, abandonMoves, pilot_setPilot_same]
  rfl

theorem pilots_workGivenUp {p : Pilot} {n : Nat} (h : Pilots k p ps as s t) : Pilots k (gaveUp n p) ps as s (workGivenUp t k n) := by
  rw [workGivenUp_eq]
  have core : (gaveUp n (t.pilot k)).core = (gaveUp n p).core := (congrArg (fun a : Pilot => gaveUp n a) h.1 :)
  exact (h.setPilot (r := { p with moves := (gaveUp n p).moves }) (congrArg (fun a : Pilot => { a with moves := (gaveUp n a).moves }) h.1 :)).setPilot core

theorem word_workGivenUp (n x : Nat) : (workGivenUp s k n).word x = s.word x := rfl

theorem abandon_effect (hr : s.replaying = false) (hn : (s.pilot k).workTide + 1 < 2 ^ 48) (hs : (s.pilot k).st = .running)
    (hc : s.catches k) (hw : (s.pilot k).workTide + 2 ≤ s.tide) : Completes (.pilotAbandon k) s fun t =>
      t.fld (Reg.FAB_UNIT_OVR_ABANDON_CNT (24 + k)) = min (s.fld (Reg.FAB_UNIT_OVR_ABANDON_CNT (24 + k)) + 1) 65535 ∧
      t.fld2 (Reg.FAB_UNIT_OVR_TIDE_LO_TIDE_LO (24 + k)) (Reg.FAB_UNIT_OVR_TIDE_HI_TIDE_HI (24 + k)) = (s.pilot k).workTide + 1 ∧
      t.flag Reg.FAB_EVENT_ABANDON = true ∧ t.flag Reg.FAB_EVENT_OVERRUN = true ∧
      Pilots k { s.pilot k with epc := BitVec.ofNat 64 (s.pilot k).pc, ecause := 8, eval := (t.pilot k).eval, handler := true, pc := (s.pilot k).evec.toNat / 4 * 4, workTide := (s.pilot k).workTide + 1, ovr := true, moves := (s.pilot k).moves.map (fun m => if m.tide ≤ (s.pilot k).workTide then { m with gone := true } else m) }
        [.fab, .fresh] (lateWords k) s t := by
  have words : ∀ x, calm x = true → (workGivenUp (abandonTaken s k) k (s.pilot k).workTide).word x = (s.countAbandon (24 + k)).word x := fun x hx => by
    rw [word_workGivenUp, abandonTaken_eq hr hc, abandonRecorded_eq hr]
    exact State.word_logRec _ _ _ _ hx
  have late := (pilots_workGivenUp (n := (s.pilot k).workTide) (pilots_abandonTaken hr hc)).frame
    ((frame_declareOverrun (n := (s.pilot k).workTide + 1) k).mono (by decide) fun _ h => h)
  refine ⟨_, (exec_pilotAbandon hr).trans (congrArg _ (if_pos ⟨hs, hw⟩)), ?_, ovrTide_declareOverrun k hn, ?_, overrunEvent_declareOverrun _, ?_⟩
  · rw [abandonCnt_declareOverrun, State.fld_of_word (words _ (calm_unitOvr k).1), abandonCnt_countAbandon]
  · exact abandonEvent_declareOverrun k ((flag_of_fld (State.fld_of_word (words _ (by decide)))).trans (abandonEvent_countAbandon _))
  · have eval : (((workGivenUp (abandonTaken s k) k (s.pilot k).workTide).declareOverrun (24 + k) ((s.pilot k).workTide + 1)).pilot k).eval =
      BitVec.ofNat 64 s.freeVal := (congrArg Pilot.eval late.1 :)
    rw [eval]
    exact late

theorem overrun_early (hr : s.replaying = false) (h : (s.pilot k).st ≠ .running ∨ s.tide < (s.pilot k).workTide + 1) :
    exec (.pilotOverrun k) s = .next s :=
  (exec_pilotOverrun hr).trans (congrArg _ (if_neg fun ⟨hs, _, hw⟩ => h.elim (fun h => h hs) fun h => absurd hw (Nat.not_le.mpr h)))

theorem abandon_early (hr : s.replaying = false) (h : (s.pilot k).st ≠ .running ∨ s.tide < (s.pilot k).workTide + 2) :
    exec (.pilotAbandon k) s = .next s :=
  (exec_pilotAbandon hr).trans (congrArg _ (if_neg fun ⟨hs, hw⟩ => h.elim (fun h => h hs) fun h => absurd hw (Nat.not_le.mpr h)))

/-- Settles O30: dockets from outside, the release of a WAIT, and the two kinds of lateness. -/
theorem pilotDocketsReleasesAndLateness : Obligations.PilotDocketsReleasesAndLateness := by
  unfold Obligations.PilotDocketsReleasesAndLateness
  refine ⟨docketPost_effect, hostMail_effect, fun k lost s hr => ⟨release_effect hr, pilotRelease_early⟩, fun k u s hr hu hn => ?_⟩
  subst hu
  exact ⟨overrun_effect hr hn, abandon_effect hr hn, overrun_early hr, abandon_early hr⟩

end Sys2Proof.Machine
end

section
/-! PROOFS. O31, the operations on a pilot (R95, R97, R502): START, STOP and RESET through PILOT_CTRL, and the tide boundary at which a started pilot begins. -/

namespace Sys2Proof.Machine

open State

variable {s t u : State} {k : Fin 16} {p q : Pilot} {ps : List Part} {as : List Nat} {j : Nat}

/-! ### A pilot that takes no dockets has none after events and records -/

/-- A pilot in no state that takes dockets, with an empty queue (R88). -/
def Silent (p : Pilot) : Prop := p.st ≠ .loaded ∧ p.st ≠ .running ∧ p.st ≠ .waiting ∧ p.arrivals = []

theorem pilot_enqueue_silent {i kind src sub payload : Nat} (h : Silent (s.pilot j)) : (s.enqueue i kind src sub payload).pilot j = s.pilot j := by
  by_cases e : j = i
  · subst e
    obtain ⟨loaded, running, waiting, _⟩ := h
    unfold enqueue
    dsimp only
    rw [if_neg (not_or.mpr ⟨loaded, not_or.mpr ⟨running, waiting⟩⟩)]
  · exact pilot_enqueue_other e

theorem pilot_deliver_silent {kind src sub payload : Nat} : (ks : List Nat) → (s : State) → Silent (s.pilot j) →
    (deliver kind src sub payload ks s).pilot j = s.pilot j
  | [], _, _ => rfl
  | i :: ks, s, h => by
    rw [deliver]
    split
    · have same := pilot_enqueue_silent (i := i) (kind := kind) (src := src) (sub := sub) (payload := payload) h
      exact (pilot_deliver_silent ks _ (same ▸ h)).trans same
    · exact pilot_deliver_silent ks s h

theorem silent_mergeAll {src m : Nat} : (ks : List Nat) → (s : State) → Silent (s.pilot j) → Silent ((mergeAll src m ks s).pilot j)
  | [], _, h => h
  | i :: ks, s, h => by
    refine silent_mergeAll ks _ ?_
    by_cases e : j = i
    · subst e
      obtain ⟨loaded, running, waiting, empty⟩ := h
      rw [pilot_setPilot_same]
      exact ⟨loaded, running, waiting, by rw [empty]; rfl⟩
    · rw [pilot_setPilot_other _ _ e]
      exact h

theorem silent_post {kind src sub payload : Nat} (h : Silent (s.pilot j)) : Silent ((s.post kind src sub payload).pilot j) := by
  unfold post live
  split
  · exact h
  · rw [pilot_deliver_silent _ _ h]
    exact h

theorem silent_raise (a en src m sh : Nat) (h : Silent (s.pilot j)) : Silent ((s.raise a en src m sh).pilot j) := by
  unfold raise unitEvent
  split
  · exact h
  split
  · exact silent_mergeAll _ _ h
  · exact silent_post h

theorem silent_logRec {typ src sub : Nat} {body : List Nat} (h : Silent (s.pilot j)) : Silent ((s.logRec typ src sub body).pilot j) := by
  rcases pilots_logRec (s := s) (typ := typ) (src := src) (sub := sub) (body := body) with e | e
  · rw [pilot_congr e]
    exact h
  · rw [e]
    exact silent_raise _ _ _ _ _ h

/-! ### The queue is discarded (R90) -/

/-- The pilot's queue is empty; the dockets it held are to be counted. -/
def emptied (s : State) (k : Nat) : State :=
  s.setPilot k { s.pilot k with released := [], arrivals := [], lostHeld := false, drops := 0 }

theorem discardQueue_eq (s : State) (k : Nat) :
    s.discardQueue k = emptied s k ∨ ∃ n, s.discardQueue k = (emptied s k).count (Reg.PILOT_DKT_STATUS_LOST k) n := by
  by_cases h : (s.pilot k).released.length + (s.pilot k).arrivals.length = 0
  · exact .inl (if_pos h)
  · exact .inr ⟨_, if_neg h⟩

theorem frame_discardQueue (k : Fin 16) : Frame ps as (emptied s k) (s.discardQueue k) := by
  rcases discardQueue_eq s k with e | ⟨n, e⟩
  · rw [e]
    exact Frame.refl
  · rw [e]
    refine Frame.of_aside (aside_count _ _ (quiet_dkt k.isLt) (dkt_ne k.isLt)) fun x hx _ => State.word_count _ _ fun h => ?_
    rw [show x = 0x30034 + 0x1000 * k.val from h, calm_dkt k.isLt] at hx
    exact Bool.false_ne_true hx

theorem pilot_discardQueue (s : State) (k j : Nat) : (s.discardQueue k).pilot j = (emptied s k).pilot j := by
  rcases discardQueue_eq s k with e | ⟨n, e⟩ <;> rw [e]
  rfl

theorem sys_discardQueue (s : State) (k : Nat) : (s.discardQueue k).sys = s.sys := by
  rcases discardQueue_eq s k with e | ⟨n, e⟩ <;> rw [e] <;> rfl

theorem logState_discardQueue (k : Fin 16) : (s.discardQueue k).fld Reg.LOG_STATUS_STATE = s.fld Reg.LOG_STATUS_STATE := by
  rcases discardQueue_eq s k with e | ⟨n, e⟩ <;> rw [e]
  · rfl
  · exact (aside_count (Reg.PILOT_DKT_STATUS_LOST k) n (quiet_dkt k.isLt) (dkt_ne k.isLt)).logState

theorem Pilots.discardQueue (h : Pilots k p ps as s t) : Pilots k { p with released := [], lostHeld := false } ps as s (t.discardQueue k) := by
  have empty : Pilots k { p with released := [], lostHeld := false } ps as s (emptied t k) :=
    h.update (fun a => { a with released := [], arrivals := [], lostHeld := false, drops := 0 }) fun _ => rfl
  exact empty.frame (frame_discardQueue k)

/-! ### START, STOP and RESET of a pilot (R97, R502) -/

theorem startPilot_loaded (h : (s.pilot k).st = .loaded) :
    s.startPilot k = (s.setPilot k { s.pilot k with starting := 1, startAt := s.now, retired := 0 }).pilotRec k 1 [] := by
  unfold startPilot
  dsimp only
  rw [h]

theorem startPilot_again (h : (s.pilot k).st = .halted ∨ (s.pilot k).st = .stopped) :
    s.startPilot k = (s.setPilot k { cleared (s.pilot k) with starting := 2, startAt := s.now }).pilotRec k 1 [] := by
  unfold startPilot
  dsimp only
  rcases h with h | h <;> rw [h]

theorem startPilot_ignored (h : (s.pilot k).st = .empty ∨ (s.pilot k).st = .running ∨ (s.pilot k).st = .waiting) : s.startPilot k = s := by
  unfold startPilot
  dsimp only
  rcases h with h | h | h <;> rw [h]

/-- A started pilot's START record is due. -/
theorem pilots_started (hr : s.replaying = false) (q : Pilot) : Pilots k q ps as s ((s.setPilot k q).pilotRec k 1 []) := by
  rw [pilotRec_live (s := s.setPilot k q) hr 1 []]
  exact (pilots_setPilot q).frame (Frame.logRec _ _ _ _)

/-- A stopped pilot: its banks are free, its moves bring no dockets, its queue is empty. -/
def stopped (p : Pilot) : Pilot :=
  { p with st := .stopped, banks := 0, starting := 0, released := [], lostHeld := false, moves := p.moves.map (fun m => { m with discard := true }) }

/-- The pilot's transaction is rolled back and its queue discarded; it runs yet. -/
def stopQueue (s : State) (k : Nat) : State := (s.dropTxn (16 + k)).discardQueue k

/-- The pilot has stopped; its PILOT record is due. -/
def stopDone (s : State) (k : Nat) : State :=
  (stopQueue s k).setPilot k { (stopQueue s k).pilot k with
    st := .stopped, banks := 0, starting := 0, moves := (s.pilot k).moves.map fun (m : Move) => ({ m with discard := true } : Move) }

theorem stopPilot_runs (he : (s.pilot k).st ≠ .empty) (hs : (s.pilot k).st ≠ .stopped) : s.stopPilot k = (stopDone s k).pilotRec k 2 [] := by
  unfold stopPilot
  dsimp only
  split
  · next h => exact absurd h he
  · next h => exact absurd h hs
  · rfl

theorem stopPilot_rests (h : (s.pilot k).st = .empty ∨ (s.pilot k).st = .stopped) : s.stopPilot k = s := by
  unfold stopPilot
  dsimp only
  rcases h with h | h <;> rw [h]

theorem live_stopDone (hr : s.replaying = false) : (stopDone s k).replaying = false := by
  have dropped : (s.dropTxn (16 + k.val)).fld Reg.LOG_STATUS_STATE = s.fld Reg.LOG_STATUS_STATE := by
    rw [dropTxn_eq]
    rfl
  exact (replaying_congr ((logState_discardQueue k).trans dropped)).trans hr

theorem stopPilot_live (hr : s.replaying = false) (he : (s.pilot k).st ≠ .empty) (hs : (s.pilot k).st ≠ .stopped) :
    s.stopPilot k = (stopDone s k).logRec 0x05 k 2 [((stopDone s k).pilot k).retired] :=
  (stopPilot_runs he hs).trans (pilotRec_live (live_stopDone hr) 2 [])

theorem pilots_stopPilot (hr : s.replaying = false) (he : (s.pilot k).st ≠ .empty) (hs : (s.pilot k).st ≠ .stopped) :
    Pilots k (stopped (s.pilot k)) [.sys] as s (s.stopPilot k) := by
  rw [stopPilot_live hr he hs]
  have queue : Pilots k { s.pilot k with released := [], lostHeld := false } [.sys] as s (stopQueue s k) :=
    (pilots_of_frame (frame_dropTxn _ List.mem_cons_self)).discardQueue
  have done : Pilots k (stopped (s.pilot k)) [.sys] as s (stopDone s k) := queue.update (fun a => { a with
    st := .stopped, banks := 0, starting := 0, moves := (s.pilot k).moves.map fun (m : Move) => ({ m with discard := true } : Move) }) fun _ => rfl
  exact done.frame (Frame.logRec _ _ _ _)

theorem silent_stopDone : Silent ((stopDone s k).pilot k) := by
  rw [stopDone, pilot_setPilot_same]
  exact ⟨nofun, nofun, nofun, by rw [stopQueue, pilot_discardQueue, emptied, pilot_setPilot_same]⟩

theorem sys_stopPilot (hr : s.replaying = false) (he : (s.pilot k).st ≠ .empty) (hs : (s.pilot k).st ≠ .stopped) :
    (s.stopPilot k).sys = (s.dropTxn (16 + k)).sys := by
  rw [stopPilot_live hr he hs]
  exact ((keeps_logRec (L := 148376) 5 _ 2 _ Keeps.refl rfl).same .sys rfl).trans (sys_discardQueue _ _)

/-- RESET stops the pilot first, whatever it does (R97). -/
theorem stopPilot_any (hr : s.replaying = false) : ∃ q : Pilot, q.load = (s.pilot k).load ∧ Pilots k q [.sys] as s (s.stopPilot k) := by
  by_cases h : (s.pilot k).st = .empty ∨ (s.pilot k).st = .stopped
  · exact ⟨s.pilot k, rfl, by rw [stopPilot_rests h]; exact pilots_of_frame Frame.refl⟩
  · obtain ⟨he, hs⟩ := not_or.mp h
    exact ⟨stopped (s.pilot k), rfl, pilots_stopPilot hr he hs⟩

/-- The pilot is as after power-up, but for its moves and its load; its subscriptions are due to clear. -/
def resetDone (s : State) (k : Nat) : State :=
  ((s.stopPilot k).discardQueue k).setPilot k
    { moves := (((s.stopPilot k).discardQueue k).pilot k).moves, load := (((s.stopPilot k).discardQueue k).pilot k).load }

theorem resetPilot_eq : s.resetPilot k = (resetDone s k).setFld (Reg.PILOT_DKT_SUB_MASK k) 0 := rfl

theorem pilots_resetPilot (hr : s.replaying = false) (ha : 0x30030 + 0x1000 * k.val ∈ as) :
    ((s.resetPilot k).pilot k).arrivals = [] ∧ (s.resetPilot k).fld (Reg.PILOT_DKT_SUB_MASK k) = 0 ∧
    Pilots k { ({} : Pilot) with moves := ((s.resetPilot k).pilot k).moves, load := (s.pilot k).load } [.sys] as s (s.resetPilot k) := by
  obtain ⟨q, hload, hstop⟩ := stopPilot_any (k := k) (as := as) hr
  have queue := hstop.discardQueue
  have load : (((s.stopPilot k).discardQueue k).pilot k).load = (s.pilot k).load := (congrArg Pilot.load queue.1 :).trans hload
  have pilot : (s.resetPilot k).pilot k =
      { moves := (((s.stopPilot k).discardQueue k).pilot k).moves, load := (((s.stopPilot k).discardQueue k).pilot k).load } := by
    rw [resetPilot_eq]
    exact pilot_setPilot_same ..
  refine ⟨by rw [pilot], State.fld_setFld_same _ (Reg.PILOT_DKT_SUB_MASK k) 0 (show 0 ≤ 31 by decide) (show 31 < 32 by decide), ?_⟩
  rw [pilot, resetPilot_eq, ← load]
  exact (queue.setPilot rfl).frame (Frame.setFld _ _ ha)

/-! ### The writes of PILOT_CTRL -/

theorem blockOp_pilot (k : Fin 16) (op : Nat) : s.blockOp (24 + k) 0 op = s.pilotOp k op := by
  unfold blockOp
  simp (disch := omega) only [if_neg]
  rw [Nat.add_sub_cancel_left]

theorem ctrlAction_of_op {n i a v op : Nat} (h : bits v 31 28 = op) : s.ctrlAction n i a v =
    if isStart n op then s.startOp n i a v (fun s => s.blockOp n i op) else s.blockOp n i op := by
  subst h
  rfl

/-- START at once, where the pilot's domain is on (R452, R456). -/
theorem ctrlAction_start (ha : s.awake (24 + k)) (a : Nat) : s.ctrlAction (24 + k) 0 a (1 <<< 28) = s.startPilot k := by
  obtain ⟨on, block⟩ := ha
  rw [ctrlAction_of_op (op := 1) rfl, if_pos (show isStart (24 + k.val) 1 = true from rfl), startOp, if_neg block, if_pos on, blockOp_pilot]
  rfl

theorem isStart_pilot {op : Nat} (h : op ≠ 1) (k : Fin 16) : isStart (24 + k) op = false := by
  unfold isStart
  rw [decide_eq_false h, decide_eq_false (show ¬(24 + k.val < 4 ∨ 24 + k.val = 22) by omega), Bool.and_false]
  rfl

theorem ctrlAction_stop (a : Nat) : s.ctrlAction (24 + k) 0 a (2 <<< 28) = s.stopPilot k := by
  rw [ctrlAction_of_op (op := 2) rfl, isStart_pilot (by decide), if_neg Bool.false_ne_true, blockOp_pilot]
  rfl

theorem ctrlAction_reset (a : Nat) : s.ctrlAction (24 + k) 0 a (3 <<< 28) = s.resetPilot k := by
  rw [ctrlAction_of_op (op := 3) rfl, isStart_pilot (by decide), if_neg Bool.false_ne_true, blockOp_pilot]
  rfl

/-- A write that has reached one of pilot `k`'s words, and its action not yet. -/
structure PilotWritten (k : Fin 16) (a : Nat) (s u : State) : Prop where
  frame : Frame [] [a] s u
  live : u.replaying = s.replaying
  now : u.now = s.now
  fab : u.fab = s.fab
  sys : u.sys = s.sys
  awake : s.awake (24 + k) → u.awake (24 + k)

theorem Wrote.pilotWritten {a v : Nat} (h : Wrote a v s u) (hc : Machine.calm a = true) (hp : 0x30000 ≤ a) (hl : a < 0x40000)
    (hx : ((fieldsAt a).all fun (f : FieldDesc) => decide (f.cls ≠ .x)) = true) : PilotWritten k a s u := by
  have frame : Frame [] [a] s u := Frame.of_wrote_free h List.mem_cons_self hc hx
  have low : u.fld Reg.PWR_DOMAIN_ON_LO = s.fld Reg.PWR_DOMAIN_ON_LO := State.fld_of_word (frame.2.1 _ (by decide) fun e => by
    have : Reg.PWR_DOMAIN_ON_LO.addr = a := List.mem_singleton.mp e
    exact absurd (this ▸ hp) (by decide))
  have high : u.fld Reg.PWR_DOMAIN_ON_HI = s.fld Reg.PWR_DOMAIN_ON_HI := State.fld_of_word (frame.2.1 _ (by decide) fun e => by
    have : Reg.PWR_DOMAIN_ON_HI.addr = a := List.mem_singleton.mp e
    exact absurd (this ▸ hp) (by decide))
  have now : u.now = s.now := h.keeps.same .now rfl
  have pwr : u.pwr = s.pwr := h.keeps.same .pwr rfl
  refine ⟨frame, replaying_congr (h.logState (by omega)), now, h.keeps.same .fab rfl, h.keeps.same .sys rfl, fun ⟨on, block⟩ => ⟨?_, ?_⟩⟩
  · unfold domainOn_
    rw [low, high]
    exact on
  · rw [pwr, now]
    exact block

/-- Pilot `k`'s PILOT_CTRL. -/
theorem calm_pilotCtrl : ∀ k : Fin 16, calm (0x30000 + 0x1000 * k.val) = true := by decide

theorem pilotCtrl_free : ∀ k : Fin 16, ((fieldsAt (0x30000 + 0x1000 * k.val)).all fun (f : FieldDesc) => decide (f.cls ≠ .x)) = true := by decide +kernel

theorem Wrote.pilotCtrl {v : Nat} (h : Wrote (0x30000 + 0x1000 * k.val) v s u) : PilotWritten k (0x30000 + 0x1000 * k.val) s u :=
  h.pilotWritten (calm_pilotCtrl k) (by omega) (by omega) (pilotCtrl_free k)

section

variable {m : Fin 32} (hm : s.mayWrite m.val (0x30000 + 0x1000 * k.val) .plain = true)

include hm

theorem pilotStart_written (ha : s.awake (24 + k.val)) :
    ∃ u, PilotWritten k (0x30000 + 0x1000 * k.val) s u ∧ exec (.pilotStart m k) s = .next (u.startPilot k) := by
  obtain ⟨_, u, _, wrote, e⟩ := write_pilotStart m k hm
  have hu := wrote.pilotCtrl
  rw [ctrlAction_start (hu.awake ha)] at e
  exact ⟨u, hu, e⟩

theorem pilotStop_written : ∃ u, PilotWritten k (0x30000 + 0x1000 * k.val) s u ∧ exec (.pilotStop m k) s = .next (u.stopPilot k) := by
  obtain ⟨_, u, _, wrote, e⟩ := write_pilotStop m k hm
  rw [ctrlAction_stop] at e
  exact ⟨u, wrote.pilotCtrl, e⟩

theorem pilotReset_written : ∃ u, PilotWritten k (0x30000 + 0x1000 * k.val) s u ∧ exec (.pilotReset m k) s = .next (u.resetPilot k) := by
  obtain ⟨_, u, _, wrote, e⟩ := write_pilotReset m k hm
  rw [ctrlAction_reset] at e
  exact ⟨u, wrote.pilotCtrl, e⟩

end

theorem PilotWritten.st {a : Nat} (h : PilotWritten k a s u) : (u.pilot k).st = (s.pilot k).st := (congrArg Pilot.st (h.frame.2.2 k) :)

/-! ### The three operations, as a master sees them -/

section

variable {m : Fin 32}

theorem start_effect (hr : s.replaying = false) (hm : s.mayWrite m.val (0x30000 + 0x1000 * k.val) .plain = true) :
    ((s.pilot k).st = .loaded → s.awake (24 + k.val) → Completes (.pilotStart m k) s
      (Pilots k { s.pilot k with starting := 1, startAt := s.now, retired := 0 } [] [0x30000 + 0x1000 * k.val] s)) ∧
    ((s.pilot k).st = .halted ∨ (s.pilot k).st = .stopped → s.awake (24 + k.val) → Completes (.pilotStart m k) s
      (Pilots k { s.pilot k with x := [], preds := 0, evec := 0, epc := 0, ecause := 0, eval := 0, scratch := 0, retired := 0, handler := false, released := [], lostHeld := false, seq := 0, hashAlg := 0, hashed := [], tokens := 0, ovr := false, starting := 2, startAt := s.now } [] [0x30000 + 0x1000 * k.val] s)) ∧
    ((s.pilot k).st = .empty ∨ (s.pilot k).st = .running ∨ (s.pilot k).st = .waiting → s.awake (24 + k.val) →
      Completes (.pilotStart m k) s (Frame [] [0x30000 + 0x1000 * k.val] s)) := by
  refine ⟨fun hst ha => ?_, fun hst ha => ?_, fun hst ha => ?_⟩
  · obtain ⟨u, hu, e⟩ := pilotStart_written hm ha
    refine ⟨_, e.trans (congrArg _ (startPilot_loaded (hu.st.trans hst))), ?_⟩
    rw [hu.now]
    exact (pilots_of_frame hu.frame).trans (pilots_started (hu.live.trans hr) _)
      (congrArg (fun a : Pilot => { a with starting := 1, startAt := s.now, retired := 0 }) (hu.frame.2.2 k) :)
  · obtain ⟨u, hu, e⟩ := pilotStart_written hm ha
    refine ⟨_, e.trans (congrArg _ (startPilot_again (by rw [hu.st]; exact hst))), ?_⟩
    rw [hu.now]
    exact (pilots_of_frame hu.frame).trans (pilots_started (hu.live.trans hr) _)
      (congrArg (fun a : Pilot => { cleared a with starting := 2, startAt := s.now }) (hu.frame.2.2 k) :)
  · obtain ⟨u, hu, e⟩ := pilotStart_written hm ha
    exact ⟨u, e.trans (congrArg _ (startPilot_ignored (by rw [hu.st]; exact hst))), hu.frame⟩

theorem stop_effect (hr : s.replaying = false) (hm : s.mayWrite m.val (0x30000 + 0x1000 * k.val) .plain = true) :
    ((s.pilot k).st ≠ .empty → (s.pilot k).st ≠ .stopped → Completes (.pilotStop m k) s fun t =>
      (∀ x, s.slotOf (16 + k.val) = some x → t.slot x.1 = none) ∧ t.sys.landq = s.sys.landq ∧ (t.pilot k).arrivals = [] ∧
      Pilots k { s.pilot k with st := .stopped, banks := 0, starting := 0, released := [], lostHeld := false, moves := (s.pilot k).moves.map (fun m => { m with discard := true }) }
        [.sys] [0x30000 + 0x1000 * k.val] s t) ∧
    ((s.pilot k).st = .empty ∨ (s.pilot k).st = .stopped →
      Completes (.pilotStop m k) s (Frame [] [0x30000 + 0x1000 * k.val] s)) := by
  obtain ⟨u, hu, e⟩ := pilotStop_written hm
  have live := hu.live.trans hr
  refine ⟨fun he hs => ?_, fun h => ⟨u, e.trans (congrArg _ (stopPilot_rests (by rw [hu.st]; exact h))), hu.frame⟩⟩
  rw [← hu.st] at he hs
  have sys := sys_stopPilot live he hs
  refine ⟨_, e, fun x hx => (slot_congr sys x.1).trans (slot_dropTxn ((slotOf_congr hu.sys _).trans hx)), by rw [sys, landq_dropTxn, hu.sys], ?_, ?_⟩
  · rw [stopPilot_live live he hs]
    exact (silent_logRec silent_stopDone).2.2.2
  · exact (pilots_of_frame (hu.frame.mono nofun fun _ h => h)).trans (pilots_stopPilot live he hs)
      (congrArg (fun a : Pilot => stopped a) (hu.frame.2.2 k) :)

theorem reset_effect (hr : s.replaying = false) (hm : s.mayWrite m.val (0x30000 + 0x1000 * k.val) .plain = true) :
    Completes (.pilotReset m k) s fun t =>
      (t.pilot k).arrivals = [] ∧ t.fld (Reg.PILOT_DKT_SUB_MASK k) = 0 ∧
      Pilots k { ({} : Pilot) with moves := (t.pilot k).moves, load := (s.pilot k).load } [.sys]
        [0x30000 + 0x1000 * k.val, 0x30030 + 0x1000 * k.val] s t := by
  obtain ⟨u, hu, e⟩ := pilotReset_written hm
  obtain ⟨empty, mask, pilots⟩ := pilots_resetPilot (k := k) (as := [0x30000 + 0x1000 * k.val, 0x30030 + 0x1000 * k.val]) (hu.live.trans hr)
    (List.mem_cons_of_mem _ List.mem_cons_self)
  have load : (u.pilot k).load = (s.pilot k).load := (congrArg Pilot.load (hu.frame.2.2 k) :)
  rw [load] at pilots
  have wrote : Frame [.sys] [0x30000 + 0x1000 * k.val, 0x30030 + 0x1000 * k.val] s u :=
    hu.frame.mono nofun fun a h => List.mem_cons.mpr (.inl (List.mem_singleton.mp h))
  exact ⟨_, e, empty, mask, (pilots_of_frame wrote).trans pilots rfl⟩

end

/-! ### PILOT_BEGIN (R95, R502) -/

theorem exec_pilotBegin (k : Fin 16) (s : State) : exec (.pilotBegin k) s = .next (s.beginPilot k) := rfl

/-- A started pilot at ENTRY; its first release is due. -/
def atEntry (s : State) (k : Nat) : State := s.setPilot k { s.pilot k with
  st := .running, starting := 0, pc := (s.pilot k).entry, lastTide := s.tide, workTide := s.tide, ovr := false }

theorem beginPilot_due (hs : (s.pilot k).starting ≠ 0) (hf : (s.pilot k).startAt < s.time.firedAt) :
    s.beginPilot k = (atEntry s k).releaseDockets k ((atEntry s k).instantOf (atEntry s k).tide) :=
  if_neg (not_or.mpr ⟨hs, Nat.not_le.mpr hf⟩)

theorem begin_effect (hr : s.replaying = false) :
    ((s.pilot k).starting ≠ 0 → (s.pilot k).startAt < s.time.firedAt → Completes (.pilotBegin k) s
      fun t => Pilots k { s.pilot k with st := .running, starting := 0, pc := (s.pilot k).entry, lastTide := s.tide, workTide := s.tide, ovr := false, released := (t.pilot k).released, lostHeld := (t.pilot k).lostHeld, seq := (t.pilot k).seq } [] [] s t) ∧
    ((s.pilot k).starting = 0 ∨ s.time.firedAt ≤ (s.pilot k).startAt → exec (.pilotBegin k) s = .next s) := by
  refine ⟨fun hs hf => ⟨_, (exec_pilotBegin k s).trans (congrArg _ (beginPilot_due hs hf)), ?_⟩, fun h => (exec_pilotBegin k s).trans (congrArg _ (if_pos h))⟩
  have released := pilots_releaseDockets (s := atEntry s k) (k := k) (ps := []) (as := []) hr ((atEntry s k).instantOf (atEntry s k).tide)
  generalize (atEntry s k).releaseDockets k ((atEntry s k).instantOf (atEntry s k).tide) = t at released ⊢
  generalize newDockets ((atEntry s k).pilot k) (atEntry s k).now ((atEntry s k).instantOf (atEntry s k).tide) = new at released
  have entry : (atEntry s k).pilot k = { s.pilot k with
      st := .running, starting := 0, pc := (s.pilot k).entry, lastTide := s.tide, workTide := s.tide, ovr := false } := pilot_setPilot_same ..
  rw [entry] at released
  have core := released.1
  have hrel : (t.pilot k).released = (s.pilot k).released ++ new := (congrArg Pilot.released core :)
  have hlost : (t.pilot k).lostHeld = ((s.pilot k).lostHeld || lostDue (s.pilot k)) := (congrArg Pilot.lostHeld core :)
  have hseq : (t.pilot k).seq = ((s.pilot k).seq + new.length) % 2 ^ 32 := (congrArg Pilot.seq core :)
  dsimp only
  rw [hrel, hlost, hseq]
  exact (pilots_setPilot _).trans released rfl

end Sys2Proof.Machine
end

section
/-! PROOFS. O31, program loads (R95, R96): PILOT_LOAD acquires the image's berth, and the load's end shows its result and takes a good image. -/

namespace Sys2Proof.Machine

open State

variable {s t u : State} {k : Fin 16} {p q : Pilot} {ps : List Part} {as : List Nat} {h : Nat}

/-! ### PILOT_LOAD (R95) -/

theorem calm_pilotLoad : ∀ k : Fin 16, calm (0x30008 + 0x1000 * k.val) = true := by decide

theorem pilotLoad_free : ∀ k : Fin 16, ((fieldsAt (0x30008 + 0x1000 * k.val)).all fun (f : FieldDesc) => decide (f.cls ≠ .x)) = true := by decide +kernel

theorem pilotLoad_written {m : Fin 32} (h : BitVec 16) (hm : s.mayWrite m.val (0x30008 + 0x1000 * k.val) .plain = true) :
    ∃ u, PilotWritten k (0x30008 + 0x1000 * k.val) s u ∧ exec (.pilotLoad m k h) s = .next (u.pilotLoad k h.toNat) := by
  obtain ⟨_, u, _, wrote, e⟩ := write_pilotLoad m k h hm
  exact ⟨u, wrote.pilotWritten (calm_pilotLoad k) (by omega) (by omega) (pilotLoad_free k), e⟩

/-- A load of berth `h` is in progress. -/
def loadBegun (s : State) (k h : Nat) (ok : Bool) : State := s.setPilot k { s.pilot k with load := some (h, ok) }

theorem fab_loadBegun (ok : Bool) : (loadBegun s k h ok).fab = s.fab := rfl

theorem flag_loadBegun (ok : Bool) (f : Fld) : (loadBegun s k h ok).flag f = s.flag f := rfl

theorem Pilots.loadBegun (hp : Pilots k p ps as s t) (h : Nat) (ok : Bool) :
    Pilots k { p with load := some (h, ok) } ps as s (Machine.loadBegun t k h ok) :=
  hp.update (fun a => { a with load := some (h, ok) }) fun _ => rfl

theorem pilotLoad_begins {ok : Bool} (hl : (s.pilot k).load = none) (ha : s.acquire (24 + k) h = (t, ok)) : s.pilotLoad k h = loadBegun t k h ok := by
  unfold pilotLoad
  rw [hl, ha]
  rfl

theorem pilotLoad_busy (hl : (s.pilot k).load.isSome) : s.pilotLoad k h = s := if_pos hl

theorem pilotLoad_effect {m : Fin 32} (h : BitVec 16) (hm : s.mayWrite m.val (0x30008 + 0x1000 * k.val) .plain = true) :
    ((s.pilot k).load = none → h ≠ 0 → (s.berth h.toNat).st = .held → (s.berth h.toNat).count < 255 →
      Completes (.pilotLoad m k h) s fun t =>
        t.berth h.toNat = { s.berth h.toNat with count := (s.berth h.toNat).count + 1 } ∧ (∀ j, j ≠ h.toNat → t.berth j = s.berth j) ∧
        Pilots k { s.pilot k with load := some (h.toNat, true) } [.fab] [0x30008 + 0x1000 * k.val] s t) ∧
    ((s.pilot k).load = none → (h = 0 ∨ (s.berth h.toNat).st ≠ .held) →
      Completes (.pilotLoad m k h) s fun t =>
        t.fab = s.fab ∧ t.flag Reg.FAB_EVENT_BERTH_FAULT = true ∧
        Pilots k { s.pilot k with load := some (h.toNat, false) } [] [0x30008 + 0x1000 * k.val, 0x60000, 0x60128, 0x6012C] s t) ∧
    ((s.pilot k).load.isSome → Completes (.pilotLoad m k h) s (Frame [] [0x30008 + 0x1000 * k.val] s)) := by
  obtain ⟨u, hu, e⟩ := pilotLoad_written h hm
  have load : (u.pilot k).load = (s.pilot k).load := (congrArg Pilot.load (hu.frame.2.2 k) :)
  have berth : ∀ j, u.berth j = s.berth j := berth_congr hu.fab
  refine ⟨fun hl h0 hs hc => ?_, fun hl hb => ?_, fun hl => ⟨u, e.trans (congrArg _ (pilotLoad_busy (by rw [load]; exact hl))), hu.frame⟩⟩
  · have granted := acquire_granted (s := u) (u := 24 + k.val) (h := h.toNat) (fun z => h0 (BitVec.eq_of_toNat_eq z)) (by rw [berth]; exact hs)
      (by rw [berth]; exact hc)
    refine ⟨_, e.trans (congrArg _ (pilotLoad_begins (load.trans hl) granted)), ?_, fun j hj => ?_,
      ((pilots_of_frame (hu.frame.mono nofun fun _ h => h)).frame (frame_withRef List.mem_cons_self)).loadBegun h.toNat true⟩
    · rw [berth_congr (fab_loadBegun true), berth_withRef_same, berth]
    · rw [berth_congr (fab_loadBegun true), berth_withRef_other hj, berth]
  · have refused := acquire_refused (s := u) (u := 24 + k.val) (h := h.toNat) (hb.imp (fun z => by rw [z]; rfl) fun z => by rw [berth]; exact z)
    have words : Frame [] [0x30008 + 0x1000 * k.val, 0x60000, 0x60128, 0x6012C] s u := hu.frame.mono nofun fun a h => by
      rw [List.mem_singleton.mp h]
      exact List.mem_cons_self
    refine ⟨_, e.trans (congrArg _ (pilotLoad_begins (load.trans hl) refused)), ?_, (flag_loadBegun _ _).trans berthFault_event,
      ((pilots_of_frame words).frame (frame_berthFault (by simp) (by simp) (by simp))).loadBegun h.toNat false⟩
    rw [fab_loadBegun, ← hu.fab]
    exact (keeps_berthFault (L := 148376) _ _ _ Keeps.refl rfl).same .fab rfl

/-! ### Bytes of an image in its berth (R94) -/

theorem getElem?_memRead (i : Nat) : (n a : Nat) → (s.memRead a n)[i]? = if i < n then some (s.memByte (a + i)) else none := by
  induction i with
  | zero => intro n a; cases n <;> rfl
  | succ i ih =>
    intro n a
    cases n with
    | zero => rfl
    | succ n =>
      rw [memRead, List.getElem?_cons_succ, ih n (a + 1), Nat.add_right_comm, Nat.add_assoc]
      simp only [Nat.succ_lt_succ_iff]

theorem drop_memRead (i n a : Nat) : (s.memRead a n).drop i = s.memRead (a + i) (n - i) := by
  refine List.ext_getElem? fun j => ?_
  rw [List.getElem?_drop, getElem?_memRead, getElem?_memRead, Nat.add_assoc]
  exact if_congr (by omega) rfl rfl

theorem take_memRead (i n a : Nat) : (s.memRead a n).take i = s.memRead a (min i n) := by
  refine List.ext_getElem? fun j => ?_
  rw [List.getElem?_take, getElem?_memRead, getElem?_memRead]
  by_cases hi : j < i
  · rw [if_pos hi]
    exact if_congr (by omega) rfl rfl
  · rw [if_neg hi, if_neg (by omega)]

/-- A header field is what stands in memory at its place. -/
theorem imgField_head {i n : Nat} (hin : i + n ≤ 64) : imgField (s.peek h 0 64) i n = ofBytesLE (s.memRead ((s.berth h).base * 4096 + i) n) := by
  rw [imgField, hdrAt, peek, drop_memRead, take_memRead, Nat.add_zero, Nat.min_eq_left (by omega)]

theorem peek_congr (hm : t.mem = s.mem) (hf : t.fab = s.fab) (ofs n : Nat) : t.peek h ofs n = s.peek h ofs n := by
  rw [peek, peek, memRead_congr hm, berth_congr hf]

theorem ofBytesLE_lt : (l : List Byte) → ofBytesLE l < 2 ^ (8 * l.length)
  | [] => Nat.one_pos
  | b :: l => by
    have hl := ofBytesLE_lt l
    have hb := b.isLt
    rw [List.length_cons, Nat.mul_succ, Nat.pow_add]
    rw [ofBytesLE, Nat.shiftLeft_eq]
    omega

theorem imgField_lt (l : List Byte) (i : Nat) : imgField l i 4 < 2 ^ 32 := by
  refine (ofBytesLE_lt _).trans_le (Nat.pow_le_pow_right (by decide) ?_)
  rw [List.length_take]
  omega

/-! ### The result of a load (R96) -/

theorem loadResult_refused : s.loadResult k h false = 7 := by
  unfold loadResult
  exact if_pos rfl

theorem loadResult_running (hs : (s.pilot k).st = .running) : s.loadResult k h true = 4 := by
  unfold loadResult
  dsimp only
  rw [Bool.not_true, if_neg Bool.false_ne_true, if_pos (.inl hs)]

theorem loadResult_badMagic (hs : (s.pilot k).st = .stopped) (h0 : (s.pilot k).starting = 0)
    (hm : s.memRead ((s.berth h).base * 4096) 4 ≠ [0x4D, 0x41, 0x52, 0x4C]) : s.loadResult k h true = 1 := by
  have idle : ¬((s.pilot k).st = .running ∨ (s.pilot k).st = .waiting ∨ (s.pilot k).starting ≠ 0) := by
    rw [hs, h0]
    simp
  have magic : (s.peek h 0 64).take 4 = s.memRead ((s.berth h).base * 4096) 4 := by
    rw [peek, take_memRead, Nat.add_zero, Nat.min_eq_left (by decide)]
  unfold loadResult
  dsimp only
  rw [Bool.not_true, if_neg Bool.false_ne_true, if_neg idle, magic, if_pos (.inl hm)]

/-! ### A good image is taken (R96) -/

/-- The code and the data of the image in berth `h`. -/
def imgBody (s : State) (h : Nat) : List Byte := s.peek h 64 (imgField (s.peek h 0 64) 8 4 + imgField (s.peek h 0 64) 12 4)

/-- What the image's signature covers. -/
def imgSigned (s : State) (h : Nat) : List Byte := s.peek h 0 (64 + imgField (s.peek h 0 64) 8 4 + imgField (s.peek h 0 64) 12 4)

/-- The head of the image's signature block. -/
def imgBlock (s : State) (h : Nat) : List Byte := s.peek h (64 + imgField (s.peek h 0 64) 8 4 + imgField (s.peek h 0 64) 12 4) 12

/-- Pilot `p` with the image in berth `h`. -/
def withImage (s : State) (h : Nat) (p : Pilot) : Pilot :=
  { cleared p with
    st := .loaded
    prog := storeBytes [] 0 ((imgBody s h).take (imgField (s.peek h 0 64) 8 4))
    data := storeBytes [] 0x10000 ((imgBody s h).drop (imgField (s.peek h 0 64) 8 4))
    entry := imgField (s.peek h 0 64) 16 4
    buildId := imgField (s.peek h 0 64) 28 8
    banks := imgField (s.peek h 0 64) 24 2
    snapshot := []
    owner := hdrAt (imgBlock s h) 6 1
    serial := hdrAt (imgBlock s h) 8 4
    imageHash := Sha.sha384 (imgSigned s h) }

/-- The image and its subscriptions are taken; the LOAD record is due. -/
def imageTaken (s : State) (k h : Nat) : State :=
  (s.setPilot k (withImage s h (s.pilot k))).setFld (Reg.PILOT_DKT_SUB_MASK k) (imgField (s.peek h 0 64) 20 4)

theorem takeImage_eq (k h : Nat) : s.takeImage k h =
    (imageTaken s k h).loadRec k (imgField (s.peek h 0 64) 28 8) (Sha.sha384 (imgBody s h)) := rfl

/-- Outside replay mode a LOAD record is compared with nothing (R438). -/
theorem loadRec_live (hm : s.replayMode = false) (k build : Nat) (hash : List Byte) :
    s.loadRec k build hash = s.logRec 0x05 k 0 ((s.pilot k).retired :: build :: words8 hash) := by
  have live : (s.logRec 0x05 k 0 ((s.pilot k).retired :: build :: words8 hash)).replayMode = false := by
    rw [replayMode, (aside_logRec (s := s) 0x05 k 0 _).logState]
    exact hm
  unfold loadRec
  dsimp only
  rw [live]
  rfl

theorem imageTaken_live (hm : s.replayMode = false) (k : Fin 16) (h : Nat) : (imageTaken s k h).replayMode = false := by
  have log : (imageTaken s k h).fld Reg.LOG_STATUS_STATE = s.fld Reg.LOG_STATUS_STATE :=
    State.fld_setFld_addr _ (Reg.PILOT_DKT_SUB_MASK k) Reg.LOG_STATUS_STATE _ (show 0x50004 ≠ 0x30030 + 0x1000 * k.val by omega)
  rw [replayMode, log]
  exact hm

/-- What taking a good image leaves. -/
structure ImageTaken (k : Fin 16) (h : Nat) (s t : State) : Prop where
  core : (t.pilot k).core = (withImage s h (s.pilot k)).core
  mask : t.word (Reg.PILOT_DKT_SUB_MASK k).addr = (imageTaken s k h).word (Reg.PILOT_DKT_SUB_MASK k).addr
  mem : t.mem = s.mem
  fab : t.fab = s.fab
  sys : t.sys = s.sys

theorem taken_takeImage (hm : s.replayMode = false) (k : Fin 16) (h : Nat) : ImageTaken k h s (s.takeImage k h) := by
  rw [takeImage_eq, loadRec_live (imageTaken_live hm k h)]
  have frame : Frame [] [] (imageTaken s k h) ((imageTaken s k h).logRec 0x05 k 0
    (((imageTaken s k h).pilot k).retired :: imgField (s.peek h 0 64) 28 8 :: words8 (Sha.sha384 (imgBody s h)))) := Frame.logRec _ _ _ _
  have pilot : (imageTaken s k h).pilot k = withImage s h (s.pilot k) := pilot_setPilot_same s k (withImage s h (s.pilot k))
  refine ⟨(frame.2.2 k).trans (congrArg Pilot.core pilot), frame.2.1 _ (calm_subMask k k.isLt) List.not_mem_nil, ?_, ?_, ?_⟩
  · exact frame.1 .mem (by decide)
  · exact frame.1 .fab (by decide)
  · exact frame.1 .sys (by decide)

/-- The code of an image stands in program memory from 0 on. -/
theorem get_imageCode (h i : Nat) (p : Pilot) : (withImage s h p).prog.get (fun _ => 0) i =
    if i < imgField (s.peek h 0 64) 8 4 then s.memByte ((s.berth h).base * 4096 + 64 + i) else 0 := by
  have byte : ∀ n, (s.peek h 64 n)[i]? = if i < n then some (s.memByte ((s.berth h).base * 4096 + 64 + i)) else none :=
    fun n => getElem?_memRead i n _
  unfold withImage
  dsimp only
  rw [get_storeBytes, if_pos (Nat.zero_le i), Nat.sub_zero, imgBody, List.getElem?_take, byte]
  split
  · rw [if_pos (by omega)]
    rfl
  · rfl

/-- The core of a pilot holds its program. -/
theorem prog_of_core (e : p.core = q.core) : p.prog = q.prog := (congrArg Pilot.prog e :)

/-! ### The end of a load (R96) -/

/-- The load is over; its result is due. -/
def loadOver (s : State) (k : Nat) : State := s.setPilot k { s.pilot k with load := none }

/-- A load without a good image ends. -/
theorem pilotLoadDone_failed {ok : Bool} (hl : (s.pilot k).load = some (h, ok)) (hr : s.loadResult k h ok ≠ 0) : s.pilotLoadDone k =
    (if ok then (loadOver s k).release (24 + k) h else loadOver s k).setFld (Reg.PILOT_LOAD_RESULT k) (s.loadResult k h ok) := by
  unfold pilotLoadDone
  rw [hl]
  dsimp only
  rw [if_neg hr]
  rfl

/-- A load with a good image ends. -/
theorem pilotLoadDone_good (hl : (s.pilot k).load = some (h, true)) (hr : s.loadResult k h true = 0) : s.pilotLoadDone k =
    (((loadOver s k).takeImage k h).release (24 + k) h).setFld (Reg.PILOT_LOAD_RESULT k) 0 := by
  unfold pilotLoadDone
  rw [hl]
  dsimp only
  rw [hr]
  rfl

theorem fld_loadResult {r : Nat} (hr : r < 16) (k : Nat) : (s.setFld (Reg.PILOT_LOAD_RESULT k) r).fld (Reg.PILOT_LOAD_RESULT k) = r :=
  (State.fld_setFld_same s (Reg.PILOT_LOAD_RESULT k) r (show 27 ≤ 30 by decide) (show 30 < 32 by decide)).trans (Nat.mod_eq_of_lt hr)

theorem pilots_loadOver : Pilots k { s.pilot k with load := none } ps as s (loadOver s k) := pilots_setPilot _

theorem exec_pilotLoadDone (k : Fin 16) (s : State) : exec (.pilotLoadDone k) s = .next (s.pilotLoadDone k) := rfl

/-- A counted reference to the image's berth is given back (R36). -/
theorem release_image (hn : s.noFollower) (hsys : t.sys = s.sys) (hfab : t.fab = s.fab) (hs : (s.berth h).st = .held) (hc : 0 < (s.berth h).count)
    (h0 : h ≠ 0) : t.release (24 + k) h = withoutRef t (24 + k) h := by
  have berth : t.berth h = s.berth h := berth_congr hfab h
  rw [release_noFollower (noFollower_congr hsys hn), releaseTable_counted h0 (by rw [berth, hs]; decide) (by rw [berth]; exact hc)]

theorem loadDone_refused (hl : (s.pilot k).load = some (h, false)) : Completes (.pilotLoadDone k) s fun t =>
    t.fld (Reg.PILOT_LOAD_RESULT k) = 7 ∧ Pilots k { s.pilot k with load := none } [] [0x30008 + 0x1000 * k.val] s t := by
  have done := pilotLoadDone_failed hl (by rw [loadResult_refused]; decide)
  rw [loadResult_refused] at done
  exact ⟨_, (exec_pilotLoadDone k s).trans (congrArg _ done), fld_loadResult (by decide) k,
    pilots_loadOver.frame (Frame.setFld _ _ List.mem_cons_self)⟩

section

variable (hl : (s.pilot k).load = some (h, true)) (hn : s.noFollower) (hs : (s.berth h).st = .held) (hc : 0 < (s.berth h).count) (h0 : h ≠ 0)

include hl hn hs hc h0

theorem loadDone_failed {e : Nat} (he : (s.pilot k).st = .running ∧ e = 4 ∨
      (s.pilot k).st = .stopped ∧ (s.pilot k).starting = 0 ∧ s.memRead ((s.berth h).base * 4096) 4 ≠ [0x4D, 0x41, 0x52, 0x4C] ∧ e = 1) :
    Completes (.pilotLoadDone k) s fun t =>
      t.fld (Reg.PILOT_LOAD_RESULT k) = e ∧ (t.berth h).count = (s.berth h).count - 1 ∧
      Pilots k { s.pilot k with load := none } [.fab] [0x30008 + 0x1000 * k.val] s t := by
  have result : s.loadResult k h true = e := by
    rcases he with ⟨hst, rfl⟩ | ⟨hst, hz, hm, rfl⟩
    · exact loadResult_running hst
    · exact loadResult_badMagic hst hz hm
  have done := pilotLoadDone_failed hl (by omega)
  rw [result, if_pos rfl, release_image (t := loadOver s k) hn rfl rfl hs hc h0] at done
  refine ⟨_, (exec_pilotLoadDone k s).trans (congrArg _ done), fld_loadResult (by omega) k, ?_, ?_⟩
  · exact congrArg Berth.count (berth_withoutRef_same (s := loadOver s k) (u := 24 + k.val) (h := h))
  · exact (pilots_loadOver.frame (frame_withoutRef List.mem_cons_self)).frame (Frame.setFld _ _ List.mem_cons_self)

theorem loadDone_good (hr : s.loadResult k h true = 0) (hm : s.replayMode = false) : Completes (.pilotLoadDone k) s fun t =>
    t.fld (Reg.PILOT_LOAD_RESULT k) = 0 ∧ (t.pilot k).st = .loaded ∧ (t.berth h).count = (s.berth h).count - 1 ∧
    (∀ i, i < ofBytesLE (s.memRead ((s.berth h).base * 4096 + 8) 4) →
      (t.pilot k).prog.get (fun _ => 0) i = s.memByte ((s.berth h).base * 4096 + 64 + i)) ∧
    (∀ i, ofBytesLE (s.memRead ((s.berth h).base * 4096 + 8) 4) ≤ i → (t.pilot k).prog.get (fun _ => 0) i = 0) ∧
    (t.pilot k).entry = ofBytesLE (s.memRead ((s.berth h).base * 4096 + 16) 4) ∧
    (t.pilot k).banks = ofBytesLE (s.memRead ((s.berth h).base * 4096 + 24) 2) ∧
    t.fld (Reg.PILOT_DKT_SUB_MASK k) = ofBytesLE (s.memRead ((s.berth h).base * 4096 + 20) 4) ∧
    (t.pilot k).x = [] ∧ (t.pilot k).released = [] ∧ (t.pilot k).evec = 0 ∧ t.mem = s.mem := by
  have taken := taken_takeImage (s := loadOver s k) hm k h
  have done := pilotLoadDone_good hl hr
  rw [release_image hn taken.sys taken.fab hs hc h0] at done
  generalize (loadOver s k).takeImage k h = v at taken done
  have head : (loadOver s k).peek h 0 64 = s.peek h 0 64 := peek_congr rfl rfl 0 64
  have berth : ((withoutRef v (24 + k) h).setFld (Reg.PILOT_LOAD_RESULT k) 0).berth h = lessOne (s.berth h) := by
    have fab : v.fab = s.fab := taken.fab
    rw [← berth_congr fab h]
    exact berth_withoutRef_same
  have shown := fld_loadResult (s := withoutRef v (24 + k) h) (r := 0) (by decide) k
  have mask : ((withoutRef v (24 + k) h).setFld (Reg.PILOT_LOAD_RESULT k) 0).fld (Reg.PILOT_DKT_SUB_MASK k) = imgField (s.peek h 0 64) 20 4 := by
    rw [State.fld_setFld_addr _ (Reg.PILOT_LOAD_RESULT k) (Reg.PILOT_DKT_SUB_MASK k) _ (show 0x30030 + 0x1000 * k.val ≠ 0x30008 + 0x1000 * k.val by omega),
      ← head]
    exact (State.fld_of_word taken.mask).trans ((State.fld_setFld_same _ (Reg.PILOT_DKT_SUB_MASK k) _ (show 0 ≤ 31 by decide) (show 31 < 32 by decide)).trans
      (Nat.mod_eq_of_lt (imgField_lt _ _)))
  have mem : ((withoutRef v (24 + k) h).setFld (Reg.PILOT_LOAD_RESULT k) 0).mem = s.mem := taken.mem
  have core : (((withoutRef v (24 + k) h).setFld (Reg.PILOT_LOAD_RESULT k) 0).pilot k).core =
      (withImage (loadOver s k) h ((loadOver s k).pilot k)).core := taken.core
  generalize (withoutRef v (24 + k) h).setFld (Reg.PILOT_LOAD_RESULT k) 0 = t at done berth shown mask mem core
  have prog : (t.pilot k).prog = (withImage (loadOver s k) h ((loadOver s k).pilot k)).prog := prog_of_core core
  refine ⟨t, (exec_pilotLoadDone k s).trans (congrArg _ done), shown, (congrArg Pilot.st core :), by rw [berth]; rfl, fun i hi => ?_, fun i hi => ?_,
    ?_, ?_, mask.trans (imgField_head (by decide)), (congrArg Pilot.x core :), (congrArg Pilot.released core :), (congrArg Pilot.evec core :), mem⟩
  · rw [← imgField_head (by decide), ← head] at hi
    rw [prog, get_imageCode, if_pos hi]
    rfl
  · rw [← imgField_head (by decide), ← head] at hi
    rw [prog, get_imageCode, if_neg (Nat.not_lt.mpr hi)]
  · rw [← imgField_head (by decide), ← head]
    exact (congrArg Pilot.entry core :)
  · rw [← imgField_head (by decide), ← head]
    exact (congrArg Pilot.banks core :)

end

/-- Settles O31: START, STOP and RESET, the tide boundary that begins a pilot, and the two ends of a load. -/
theorem pilotOperationsFollowState : Obligations.PilotOperationsFollowState := by
  unfold Obligations.PilotOperationsFollowState
  intro m k s hr
  obtain ⟨due, early⟩ := begin_effect (s := s) (k := k) hr
  refine ⟨fun hm => ?_, due, early, fun h hm => pilotLoad_effect h hm, fun h ok hl hn => ⟨fun ho => loadDone_refused (h := h) (ho ▸ hl),
    fun ho hs hc h0 => ⟨fun e he => loadDone_failed (ho ▸ hl) hn hs hc h0 he, loadDone_good (ho ▸ hl) hn hs hc h0⟩⟩⟩
  obtain ⟨loaded, again, ignored⟩ := start_effect hr hm
  obtain ⟨stops, rests⟩ := stop_effect hr hm
  exact ⟨loaded, again, ignored, stops, rests, reset_effect hr hm⟩

end Sys2Proof.Machine
end

section
/-! PROOFS. A concrete state and command that meet the hypotheses of each statement above on the pilots, with what it then says. -/

namespace Sys2Proof.Machine

open State

/-- The guard of an instruction that always executes. -/
def always : Guard := ⟨false, 0⟩

/-- A docket of kind 9 from pilot 3. -/
def heldDocket : Docket := ⟨9, 19, 2, 77, 0, 5⟩

/-- Pilot 0 runs with a handler, a released docket and three registers; pilot 1 is LOADED; pilot 2 waits. -/
def marlState : State := ((State.reset.setPilot 0
  { st := .running, evec := 0x100, x := [(1, 9), (2, 0x10000), (3, 5)], released := [heldDocket] }).setPilot 1 { st := .loaded, entry := 64 }).setPilot 2
  { st := .waiting, waitRd := 6, banks := 1, snapshot := [(0x20010, 4)], arrivals := [⟨9, 19, 2, 77, 3, 0⟩] }

theorem issues_marlState : marlState.issues 0 always := ⟨rfl, by decide, by decide, by decide⟩

theorem catches_marlState : marlState.catches 0 := ⟨rfl, by decide⟩

/-- O24 of a subtraction: 9 − 5. -/
theorem pilotArithmeticAndMemory_sub : Completes (.alu 0 always ⟨4, 1, 3, 1⟩) marlState fun t => t.xreg 0 4 = 4 := by
  obtain ⟨t, ht, hx, -⟩ := (pilotArithmeticAndMemory.1 0 always marlState issues_marlState).1 ⟨4, 1, 3, 1⟩ 9 5 4 rfl rfl (by decide)
  exact ⟨t, ht, (hx 4).trans (if_pos (by decide))⟩

/-- O24 of a store of one byte at the start of the pilot's own data memory. -/
theorem pilotArithmeticAndMemory_store : Completes (.sb 0 always ⟨3, 2, 0⟩) marlState fun t => t.loadByte 0 0x10000 = 5 := by
  obtain ⟨t, ht, hin, -⟩ := (pilotArithmeticAndMemory.2.2 0 always ⟨3, 2, 0⟩ (.sb 0 always ⟨3, 2, 0⟩) 1 0x10000 marlState issues_marlState
    (by decide) (by decide)).1 (by decide) (.inl (by decide))
  exact ⟨t, ht, hin 0 (by decide)⟩

/-- O25 of a jump to x1 + 1, rounded down to a word. -/
theorem pilotPredicatesAndBranches_jr : Completes (.jr 0 always ⟨4, 1, 1⟩) marlState fun t => t.xreg 0 4 = 4 ∧ (t.pilot 0).pc = 8 := by
  obtain ⟨t, ht, hx, hp, -⟩ := ((pilotPredicatesAndBranches.2 0 always marlState issues_marlState).2 ⟨4, 1, 1⟩ 10 (by decide)).1 (by decide)
  exact ⟨t, ht, (hx 4).trans (if_pos (by decide)), congrArg Pilot.pc hp⟩

/-- O27 of a DPOP of the released docket into x4 and x5. -/
theorem pilotDocketsAndTransactions_dpop : Completes (.dpop 0 always ⟨4, 0, 0, 0⟩) marlState fun t => t.xreg 0 5 = 77 ∧ (t.pilot 0).released = [] := by
  obtain ⟨t, ht, hx, hp, -⟩ := ((pilotDocketsAndTransactions.1 0 always 4 0 0 0 marlState issues_marlState).1 heldDocket [] rfl).1 rfl (by decide)
  exact ⟨t, ht, (hx 5).trans ((if_neg (by decide)).trans (if_pos (by decide))), congrArg Pilot.released hp⟩

/-- O27 of a TXB: slot 0 opens. -/
theorem pilotDocketsAndTransactions_txb : Completes (.txb 0 always ⟨4, 0, 0, 0⟩) marlState fun t =>
    t.xreg 0 4 = 0 ∧ t.slot 0 = some ⟨16, false, 0, []⟩ := by
  obtain ⟨t, ht, ⟨hx, -⟩, hslot, -⟩ := (pilotDocketsAndTransactions.2 0 always 4 0 0 marlState issues_marlState (by decide +kernel) (by decide)).2.2.1 0
    (by decide) (by decide)
  exact ⟨t, ht, (hx 4).trans (if_pos (by decide)), hslot⟩

/-- O29 of a HALT, which retires. -/
theorem pilotHashIssueAndTraps_halt : Completes (.halt 0 always ⟨0, 0, 0, 0⟩) marlState fun t => (t.pilot 0).st = .halted ∧ (t.pilot 0).retired = 1 := by
  obtain ⟨t, ht, hp, -⟩ := (pilotHashIssueAndTraps.2 0 always ⟨0, 0, 0, 0⟩ ⟨0, 0, 0⟩ ⟨0, 0⟩ ⟨0, 0, 0, 0, 0, 0⟩ ⟨0, 0, 0, 0⟩ ⟨0, 0, 0, 0, 0⟩ 0 marlState).2.2.2
    issues_marlState (by decide +kernel)
  exact ⟨t, ht, congrArg Pilot.st hp, congrArg Pilot.retired hp⟩

/-- O30 of a docket for the LOADED pilot. -/
theorem pilotDocketsReleasesAndLateness_post : Completes (.docketPost 1 9 16 2 77) marlState fun t => (t.pilot 1).arrivals = [⟨9, 16, 2, 77, 0, 0⟩] := by
  obtain ⟨t, ht, hp, -⟩ := ((pilotDocketsReleasesAndLateness.1 1 9 16 2 77 marlState (by decide +kernel)).1 (.inl rfl)).1 (by decide)
  exact ⟨t, ht, congrArg Pilot.arrivals hp⟩

/-- Tide 1 has come, in FCLK cycle 4. -/
def tideOneState : State := { marlState.setFld Reg.TIDE_NOW_LO_LO 1 with time := { firedAt := 4 } }

/-- O30 of the release of the waiting pilot: rd is x6, and the snapshot is published. -/
theorem pilotDocketsReleasesAndLateness_release : Completes (.pilotRelease 2) tideOneState fun t =>
    (t.pilot 2).st = .running ∧ t.xreg 2 6 = 1 ∧ t.published.get (fun _ => 0) 0x20010 = 4 := by
  obtain ⟨t, ht, hst, -, -, hx, hpub, -⟩ := (pilotDocketsReleasesAndLateness.2.2.1 2 false tideOneState (by decide +kernel)).1 rfl rfl (by decide +kernel)
    (by decide +kernel) rfl (by decide) (by decide)
  exact ⟨t, ht, hst, (hx 6).trans ((if_pos (by decide)).trans (by decide +kernel)), (hpub _).trans (by decide)⟩

/-- O30 of the overrun of the running pilot, whose work is for tide 0. -/
theorem pilotDocketsReleasesAndLateness_overrun : Completes (.pilotOverrun 0) tideOneState fun t =>
    t.fld (Reg.FAB_UNIT_OVR_OVR_CNT 24) = 1 ∧ t.flag Reg.FAB_EVENT_OVERRUN = true := by
  obtain ⟨t, ht, hcnt, -, hevent, -⟩ := (pilotDocketsReleasesAndLateness.2.2.2 0 24 tideOneState (by decide +kernel) rfl (by decide)).1 rfl rfl
    (by decide +kernel)
  exact ⟨t, ht, hcnt.trans (by decide +kernel), hevent⟩

/-- Master 1 owns Daxma, and the domains of all pilots are on. -/
def commandedState : State := { marlState.setFld Reg.PWR_DOMAIN_ON_LO 0xFFFFFFFF with sys := { owner := 1 } }

/-- O31 of a START of the LOADED pilot. -/
theorem pilotOperationsFollowState_start : Completes (.pilotStart 1 1) commandedState fun t => (t.pilot 1).st = .loaded ∧ (t.pilot 1).starting = 1 := by
  obtain ⟨t, ht, hp, -⟩ := ((pilotOperationsFollowState 1 1 commandedState (by decide +kernel)).1 (by decide +kernel)).1 rfl ⟨by decide +kernel, by decide⟩
  exact ⟨t, ht, congrArg Pilot.st hp, congrArg Pilot.starting hp⟩

/-- O31 of a STOP of the running one: its docket is gone. -/
theorem pilotOperationsFollowState_stop : Completes (.pilotStop 1 0) commandedState fun t => (t.pilot 0).st = .stopped ∧ (t.pilot 0).released = [] := by
  obtain ⟨t, ht, -, -, -, hp, -⟩ := ((pilotOperationsFollowState 1 0 commandedState (by decide +kernel)).1 (by decide +kernel)).2.2.2.1 (by decide) (by decide)
  exact ⟨t, ht, congrArg Pilot.st hp, congrArg Pilot.released hp⟩

/-- A load of a berth that was not acquired is ending. -/
def loadEndState : State := marlState.setPilot 1 { st := .loaded, load := some (7, false) }

/-- O31 of that end. -/
theorem pilotOperationsFollowState_loadRefused : Completes (.pilotLoadDone 1) loadEndState fun t => t.fld (Reg.PILOT_LOAD_RESULT 1) = 7 := by
  obtain ⟨t, ht, hr, -⟩ := ((pilotOperationsFollowState 1 1 loadEndState (by decide +kernel)).2.2.2.2 7 false rfl (noFollower_unlanded rfl rfl)).1 rfl
  exact ⟨t, ht, hr⟩

end Sys2Proof.Machine
end

section
/-! PROOFS. Camera lanes and ports: what an update of one of them leaves of the others and of the words, and what a fault of a lane does (R137, R143, R158 to R160). -/

namespace Sys2Proof.Machine

open State

variable {s t u : State} {ps : List Part} {as : List Nat} {p q i j k c : Nat}

/-! ### Lanes and ports -/

@[simp] theorem lane_setLane_same (x : Lane) : (s.setLane p i x).lane p i = x := SMap.get_set_same ..

theorem lanes_setLane (x : Lane) : (s.setLane p i x).lanes = s.lanes.set (fun _ => {}) (64 * p + i) x := rfl

theorem lanes_setLane_other (x : Lane) (h : k ≠ 64 * p + i) :
    (s.setLane p i x).lanes.get (fun _ => {}) k = s.lanes.get (fun _ => {}) k := SMap.get_set_other _ _ h

theorem lane_setLane_other (x : Lane) (h : 64 * q + j ≠ 64 * p + i) : (s.setLane p i x).lane q j = s.lane q j := lanes_setLane_other x h

theorem lane_congr (h : t.lanes = s.lanes) (p i : Nat) : t.lane p i = s.lane p i := by
  unfold lane
  rw [h]

theorem fld_setLane (x : Lane) (f : Fld) : (s.setLane p i x).fld f = s.fld f := State.fld_congr rfl f

theorem fld_setPort (x : SrxPort) (f : Fld) : (s.setPort p x).fld f = s.fld f := State.fld_congr rfl f

@[simp] theorem port_setPort_same (x : SrxPort) : (s.setPort p x).port p = x := SMap.get_set_same ..

theorem port_setPort_other (x : SrxPort) (h : q ≠ p) : (s.setPort p x).port q = s.port q := SMap.get_set_other _ _ h

theorem port_congr (h : t.ports = s.ports) (p : Nat) : t.port p = s.port p := by
  unfold port
  rw [h]

theorem frame_setLane (x : Lane) (hp : Part.lanes ∈ ps) : Frame ps as s (s.setLane p i x) :=
  frame_part (Only.of_keeps (n := 2097152) (keeps_setLane p i x Keeps.refl rfl) (by decide)) hp rfl rfl

theorem frame_setPort (x : SrxPort) (hp : Part.ports ∈ ps) : Frame ps as s (s.setPort p x) :=
  frame_part (Only.of_keeps (n := 4194304) (keeps_setPort p x Keeps.refl rfl) (by decide)) hp rfl rfl

/-! ### The words of ports and lanes -/

/-- Words of the camera ports are calm. -/
theorem calm_camera {x : Nat} (h : 0x80000 ≤ x) : calm x = true := by
  unfold calm
  rw [decide_eq_false (by omega), decide_eq_false (p := 0x30000 ≤ x ∧ x < 0x40000) (by omega)]
  rfl

/-- A frame leaves the camera words it does not name. -/
theorem Frame.camera {x : Nat} (h : Frame ps as s t) (hx : 0x80000 ≤ x) (hn : x ∉ as) : t.word x = s.word x := h.2.1 x (calm_camera hx) hn

theorem Frame.cameraFld {f : Fld} {x : Nat} (h : Frame ps as s t) (hf : f.addr = x) (hx : 0x80000 ≤ x) (hn : x ∉ as) : t.fld f = s.fld f :=
  State.fld_of_word (hf ▸ h.camera hx hn)

theorem laneState_of_word (h : t.word ((0x81004 + 0x4000 * p + 0x40 * i)) = s.word ((0x81004 + 0x4000 * p + 0x40 * i))) : t.laneState p i = s.laneState p i :=
  State.fld_of_word h

theorem frame_srxRaise (m : Nat) (hp : p < 4) (ha : 0x80060 + 0x4000 * p ∈ as) : Frame ps as s (s.srxRaise p m) :=
  Frame.of_aside (aside_srxRaise m hp) fun x hx hn => (State.word_raise _ _ _ _ _ hx).trans (if_neg fun e : x = _ => hn (e ▸ ha))

theorem fld_srxRaise {f : Fld} (m : Nat) (h : 0x80000 ≤ f.addr) (hn : f.addr ≠ 0x80060 + 0x4000 * p) : (s.srxRaise p m).fld f = s.fld f :=
  State.fld_raise _ _ _ _ _ (calm_camera h) hn

theorem flag_srxRaise {f : Fld} {m : Nat} (ha : f.addr = 0x80060 + 0x4000 * p) (hb : f.hi = f.lo) (hw : f.lo < 32)
    (hm : m.testBit f.lo = true) : (s.srxRaise p m).flag f = true := by
  unfold srxRaise
  rw [← ha]
  exact State.flag_raise _ _ _ _ (calm_camera (by omega)) hb hw hm

theorem same_srxRaise {x : Part} (m : Nat) (hx : Nat.testBit 17288 x.idx = false) : Part.same s (s.srxRaise p m) x :=
  (keeps_srxRaise (L := 17288) p m Keeps.refl rfl).same x hx

/-! ### Training states (R137) -/

theorem laneState_setLaneState (v : Nat) : (s.setLaneState p i v).laneState p i = v % 8 :=
  State.fld_setFld_same s (Reg.LANE_STATUS_STATE p i) v (show 29 ≤ 31 by decide) (show 31 < 32 by decide)

theorem frame_setLaneState (v : Nat) (hp : Part.lanes ∈ ps) (ha : (0x81004 + 0x4000 * p + 0x40 * i) ∈ as) : Frame ps as s (s.setLaneState p i v) :=
  (Frame.setFld (Reg.LANE_STATUS_STATE p i) v ha).trans (frame_setLane _ hp)

theorem fld_setLaneState {f : Fld} (v : Nat) (ha : f.addr = (0x81004 + 0x4000 * p + 0x40 * i)) (hf : f.hi < 29) : (s.setLaneState p i v).fld f = s.fld f :=
  State.fld_setFld_bits s (Reg.LANE_STATUS_STATE p i) f v ha (show 29 ≤ 31 by decide) (by omega) (.inl hf)

/-! ### Proposals and degraded ports (R143, R160) -/

/-- The words of a proposal. -/
def proposalWords (p : Nat) : List Nat := [0x80050 + 0x4000 * p, 0x80054 + 0x4000 * p, 0x80058 + 0x4000 * p]

theorem frame_propose (l : List Nat) (h : ∀ a ∈ proposalWords p, a ∈ as) : Frame ps as s (s.propose p l) := by
  have lo : 0x80050 + 0x4000 * p ∈ as := h _ (by simp [proposalWords])
  have hi : 0x80054 + 0x4000 * p ∈ as := h _ (by simp [proposalWords])
  have ns : 0x80058 + 0x4000 * p ∈ as := h _ (by simp [proposalWords])
  exact (Frame.setFld2 (Reg.SRX_PROPOSE_LO p) (Reg.SRX_PROPOSE_HI p) _ lo hi).trans (Frame.setFld (Reg.SRX_MIN_FRAME_NS_NS p) _ ns)

/-- The sensor lanes in use that no fault has taken. -/
def lanesLeft (s : State) (p : Nat) : List Nat := (onesBelow 64 (s.useNow p)).filter fun n => !s.sensorFaulted p n

/-- The port runs on with the lanes that are left. -/
def degraded (s : State) (p : Nat) : State :=
  (s.setFld (Reg.SRX_STATUS_DEGRADED p) 1).propose p (lanesLeft (s.setFld (Reg.SRX_STATUS_DEGRADED p) 1) p)

theorem frame_degraded (hs : 0x80004 + 0x4000 * p ∈ as) (h : ∀ a ∈ proposalWords p, a ∈ as) : Frame ps as s (degraded s p) := by
  unfold degraded
  exact (Frame.setFld (Reg.SRX_STATUS_DEGRADED p) 1 hs).trans (frame_propose _ h)

theorem lanes_degraded : (degraded s p).lanes = s.lanes := by
  unfold degraded
  exact (keeps_propose (L := 8) p _ (keeps_setFld _ _ Keeps.refl rfl) rfl).same .lanes rfl

/-! ### Faults of lanes (R158 to R160) -/

/-- What a fault leaves of a lane. -/
def faultedLane (l : Lane) (now code : Nat) : Lane := { l with faultAt := now, lostAt := none, open_ := decide (code = 1 ∨ code = 2) }

/-- LANE_STATUS takes the state FAULT and the code, and loses LOCK. -/
def faultShown (s : State) (p i code : Nat) : State :=
  ((s.setFld (Reg.LANE_STATUS_STATE p i) 7).setFld (Reg.LANE_STATUS_FAULT p i) code).setFld (Reg.LANE_STATUS_LOCK p i) 0

/-- Lane `i` of port `p` is shut down with `code`. -/
def laneDown (s : State) (p i code : Nat) : State :=
  ((faultShown s p i code).setLane p i (faultedLane ((faultShown s p i code).lane p i) (faultShown s p i code).now code)).srxRaise p 0x20

theorem lanes_faultShown : (faultShown s p i c).lanes = s.lanes := by
  rw [faultShown, setFld_lanes, setFld_lanes, setFld_lanes]

theorem now_faultShown : (faultShown s p i c).now = s.now := by
  rw [faultShown, setFld_now, setFld_now, setFld_now]

theorem laneFault_ignored (h : s.laneState p i = 7 ∨ s.laneState p i = 0) : s.laneFault p i c = s := if_pos h

/-- A fault shuts the lane down; in RUN it may degrade the port. -/
theorem laneFault_cases (h7 : s.laneState p i ≠ 7) (h0 : s.laneState p i ≠ 0) :
    s.laneFault p i c = laneDown s p i c ∨ (laneDown s p i c).portState p = 3 ∧ s.laneFault p i c = degraded (laneDown s p i c) p := by
  have e : s.laneFault p i c = (if (laneDown s p i c).portState p = 3 ∧ ((laneDown s p i c).lane p i).ident ∧
      bit ((laneDown s p i c).useNow p) ((laneDown s p i c).sensorOf p i) then degraded (laneDown s p i c) p else laneDown s p i c) := by
    unfold laneFault
    rw [if_neg (not_or.mpr ⟨h7, h0⟩)]
    rfl
  rw [e]
  split
  · next h => exact .inr ⟨h.1, rfl⟩
  · exact .inl rfl

theorem frame_laneDown (hp : p < 4) (hl : Part.lanes ∈ ps) (ha : (0x81004 + 0x4000 * p + 0x40 * i) ∈ as) (he : 0x80060 + 0x4000 * p ∈ as) :
    Frame ps as s (laneDown s p i c) := by
  have shown : Frame ps as s (faultShown s p i c) :=
    ((Frame.setFld (Reg.LANE_STATUS_STATE p i) 7 ha).trans (Frame.setFld (Reg.LANE_STATUS_FAULT p i) c ha)).trans (Frame.setFld (Reg.LANE_STATUS_LOCK p i) 0 ha)
  exact (shown.trans (frame_setLane _ hl)).trans (frame_srxRaise _ hp he)

/-- The fields of LANE_STATUS that a fault sets. -/
theorem fld_laneDown {f : Fld} (hf : f.addr = (0x81004 + 0x4000 * p + 0x40 * i)) (hp : p < 4) : (laneDown s p i c).fld f = (faultShown s p i c).fld f :=
  (fld_srxRaise 0x20 (by omega) (by omega)).trans (fld_setLane _ f)

theorem laneState_faultShown : (faultShown s p i c).fld (Reg.LANE_STATUS_STATE p i) = 7 := by
  unfold faultShown
  rw [State.fld_setFld_bits _ (Reg.LANE_STATUS_LOCK p i) (Reg.LANE_STATUS_STATE p i) _ rfl (show 23 ≤ 23 by decide) (show 31 < 32 by decide) (.inr (show 23 < 29 by decide)),
    State.fld_setFld_bits _ (Reg.LANE_STATUS_FAULT p i) (Reg.LANE_STATUS_STATE p i) _ rfl (show 25 ≤ 28 by decide) (show 31 < 32 by decide) (.inr (show 28 < 29 by decide)),
    State.fld_setFld_same _ (Reg.LANE_STATUS_STATE p i) _ (show 29 ≤ 31 by decide) (show 31 < 32 by decide)]
  rfl

theorem code_faultShown : (faultShown s p i c).fld (Reg.LANE_STATUS_FAULT p i) = c % 16 := by
  unfold faultShown
  rw [State.fld_setFld_bits _ (Reg.LANE_STATUS_LOCK p i) (Reg.LANE_STATUS_FAULT p i) _ rfl (show 23 ≤ 23 by decide) (show 28 < 32 by decide) (.inr (show 23 < 25 by decide)),
    State.fld_setFld_same _ (Reg.LANE_STATUS_FAULT p i) _ (show 25 ≤ 28 by decide) (show 28 < 32 by decide)]
  rfl

theorem lock_faultShown : (faultShown s p i c).fld (Reg.LANE_STATUS_LOCK p i) = 0 :=
  State.fld_setFld_same _ (Reg.LANE_STATUS_LOCK p i) 0 (show 23 ≤ 23 by decide) (show 23 < 32 by decide)

theorem lanes_laneDown : (laneDown s p i c).lanes = s.lanes.set (fun _ => {}) (64 * p + i) (faultedLane (s.lane p i) s.now c) := by
  have raised : (laneDown s p i c).lanes = _ := same_srxRaise (x := .lanes) 0x20 rfl
  rw [raised, lanes_setLane, lane_congr lanes_faultShown, lanes_faultShown, now_faultShown]

/-- What a lane that was neither OFF nor in FAULT is after its fault. -/
structure LaneFaulted (p i c : Nat) (s t : State) : Prop where
  state : t.laneState p i = 7
  code : t.fld (Reg.LANE_STATUS_FAULT p i) = c
  lock : t.fld (Reg.LANE_STATUS_LOCK p i) = 0
  lane : t.lane p i = faultedLane (s.lane p i) s.now c
  others : ∀ k, k ≠ 64 * p + i → t.lanes.get (fun _ => {}) k = s.lanes.get (fun _ => {}) k
  event : t.flag (Reg.SRX_EVENT_LANE_FAULT p) = true
  frame : Frame [.lanes] ((0x81004 + 0x4000 * p + 0x40 * i) :: (0x80060 + 0x4000 * p) :: (0x80004 + 0x4000 * p) :: proposalWords p) s t
  training : s.portState p ≠ 3 → Frame [.lanes] [(0x81004 + 0x4000 * p + 0x40 * i), 0x80060 + 0x4000 * p] s t

theorem laneDown_faulted (hp : p < 4) (hc : c < 16) : LaneFaulted p i c s (laneDown s p i c) where
  state := (fld_laneDown rfl hp).trans laneState_faultShown
  code := (fld_laneDown rfl hp).trans (code_faultShown.trans (Nat.mod_eq_of_lt hc))
  lock := (fld_laneDown rfl hp).trans lock_faultShown
  lane := (lane_congr (s := s.setLane p i _) lanes_laneDown p i).trans (lane_setLane_same _)
  others k hk := by rw [lanes_laneDown, SMap.get_set_other _ _ hk]
  event := flag_srxRaise rfl rfl (show 5 < 32 by decide) (show Nat.testBit 32 5 = true by decide)
  frame := frame_laneDown hp (by decide) (by simp) (by simp)
  training _ := frame_laneDown hp (by decide) (by simp) (by simp)

/-- A proposal is not shown in the words of the port's state, of its events or of its lanes. -/
theorem apart_proposalWords {x : Nat} (h : x = 0x80004 + 0x4000 * p ∨ x = 0x80060 + 0x4000 * p ∨ 0x81000 + 0x4000 * p ≤ x) : x ∉ proposalWords p := by
  simp only [proposalWords, List.mem_cons, List.not_mem_nil, or_false]
  omega

theorem LaneFaulted.degraded (h : LaneFaulted p i c s t) (run : s.portState p = 3) : LaneFaulted p i c s (degraded t p) := by
  have frame : Frame [.lanes] ((0x80004 + 0x4000 * p) :: proposalWords p) t (Machine.degraded t p) :=
    frame_degraded List.mem_cons_self fun _ h => List.mem_cons_of_mem _ h
  have apart : ∀ x, x = 0x80060 + 0x4000 * p ∨ 0x81000 + 0x4000 * p ≤ x → x ∉ (0x80004 + 0x4000 * p) :: proposalWords p := fun x hx hm => by
    rcases List.mem_cons.mp hm with e | hm
    · omega
    · exact apart_proposalWords (.inr hx) hm
  have status : ∀ f : Fld, f.addr = 0x81004 + 0x4000 * p + 0x40 * i → (Machine.degraded t p).fld f = t.fld f :=
    fun f hf => frame.cameraFld hf (by omega) (apart _ (by omega))
  have event : (Machine.degraded t p).fld (Reg.SRX_EVENT_LANE_FAULT p) = t.fld (Reg.SRX_EVENT_LANE_FAULT p) :=
    frame.cameraFld (x := 0x80060 + 0x4000 * p) rfl (by omega) (apart _ (.inl rfl))
  exact {
    state := (status _ rfl).trans h.state
    code := (status _ rfl).trans h.code
    lock := (status _ rfl).trans h.lock
    lane := (lane_congr lanes_degraded p i).trans h.lane
    others := fun k hk => by rw [lanes_degraded]; exact h.others k hk
    event := (flag_of_fld event).trans h.event
    frame := h.frame.trans (frame.mono (fun _ h => h) fun _ h => List.mem_cons_of_mem _ (List.mem_cons_of_mem _ h))
    training := fun hn => absurd run hn }

theorem portState_of_frame (h : Frame ps as s t) (ha : 0x80004 + 0x4000 * p ∉ as) : t.portState p = s.portState p :=
  h.cameraFld (x := 0x80004 + 0x4000 * p) rfl (by omega) ha

/-- A fault that finds its lane neither OFF nor in FAULT. -/
theorem laneFault_faulted (hp : p < 4) (hc : c < 16) (h7 : s.laneState p i ≠ 7) (h0 : s.laneState p i ≠ 0) :
    LaneFaulted p i c s (s.laneFault p i c) := by
  have down := laneDown_faulted (s := s) (i := i) hp hc
  rcases laneFault_cases (c := c) h7 h0 with e | ⟨run, e⟩ <;> rw [e]
  · exact down
  · refine down.degraded ?_
    have frame : Frame [.lanes] [0x81004 + 0x4000 * p + 0x40 * i, 0x80060 + 0x4000 * p] s (laneDown s p i c) :=
      frame_laneDown hp (by decide) (by simp) (by simp)
    refine (portState_of_frame frame ?_).symm.trans run
    simp only [List.mem_cons, List.not_mem_nil, or_false]
    omega

/-- A fault of a lane leaves the words of the other lanes. -/
theorem word_laneFault_other (hp : p < 4) (hj : j < 64) (hc : c < 16) (h : j ≠ i) :
    (s.laneFault p i c).word (0x81004 + 0x4000 * p + 0x40 * j) = s.word (0x81004 + 0x4000 * p + 0x40 * j) := by
  by_cases hs : s.laneState p i = 7 ∨ s.laneState p i = 0
  · rw [laneFault_ignored hs]
  · obtain ⟨h7, h0⟩ := not_or.mp hs
    refine (laneFault_faulted hp hc h7 h0).frame.camera (by omega) fun hm => ?_
    rcases List.mem_cons.mp hm with e | hm
    · omega
    rcases List.mem_cons.mp hm with e | hm
    · omega
    rcases List.mem_cons.mp hm with e | hm
    · omega
    · exact apart_proposalWords (by omega) hm

end Sys2Proof.Machine
end

section
/-! PROOFS. O33, the training steps and the faults of one lane (R137 to R140, R142, R158, R159). -/

namespace Sys2Proof.Machine

open State

variable {s t u : State} {as : List Nat} {p : Fin 4} {i : Fin 64} {L P n c : Nat}

/-! ### Training steps -/

/-- Lane `i` of port `p`, whose registers start at `L`, enters training state `n`; of the words only its LANE_STATUS and `as` change. -/
def GoesTo (p : Fin 4) (i : Fin 64) (L : Nat) (s : State) (n : Nat) (as : List Nat) (t : State) : Prop :=
  t.laneState p i = n ∧ (t.lane p i).enteredAt = s.now ∧
    (∀ j, j ≠ 64 * p.val + i.val → t.lanes.get (fun _ => {}) j = s.lanes.get (fun _ => {}) j) ∧ Frame [.lanes] ((L + 4) :: as) s t

theorem goesTo_setLaneState (hL : L = 0x81000 + 0x4000 * p.val + 0x40 * i.val) (hn : n < 8) (hu : Frame [.lanes] ((L + 4) :: as) s u)
    (others : ∀ j, j ≠ 64 * p.val + i.val → u.lanes.get (fun _ => {}) j = s.lanes.get (fun _ => {}) j) :
    GoesTo p i L s n as (u.setLaneState p i n) := by
  have now : u.now = s.now := hu.1 .now (by decide)
  refine ⟨(laneState_setLaneState n).trans (Nat.mod_eq_of_lt hn), ?_, fun j hj => (lanes_setLane_other _ hj).trans (others j hj), hu.trans ?_⟩
  · unfold setLaneState
    rw [lane_setLane_same]
    exact now
  · exact frame_setLaneState n (by decide) (List.mem_cons.mpr (.inl (by omega)))

theorem exec_laneSignal : exec (.laneSignal p i) s = .next (if s.laneState p i = 1 then s.setLaneState p i 2 else s) := rfl

theorem exec_laneCdrLock : exec (.laneCdrLock p i) s = .next (if s.laneState p i = 2 then s.setLaneState p i 3 else s) := rfl

theorem laneSignal_goes (hL : L = 0x81000 + 0x4000 * p.val + 0x40 * i.val) (h : s.laneState p i = 1) :
    Completes (.laneSignal p i) s (GoesTo p i L s 2 []) :=
  ⟨_, exec_laneSignal.trans (congrArg Host.Outcome.next (if_pos h)), goesTo_setLaneState hL (by decide) Frame.refl fun _ _ => rfl⟩

theorem laneSignal_rests (h : s.laneState p i ≠ 1) : exec (.laneSignal p i) s = .next s := exec_laneSignal.trans (congrArg Host.Outcome.next (if_neg h))

theorem laneCdrLock_goes (hL : L = 0x81000 + 0x4000 * p.val + 0x40 * i.val) (h : s.laneState p i = 2) :
    Completes (.laneCdrLock p i) s (GoesTo p i L s 3 []) :=
  ⟨_, exec_laneCdrLock.trans (congrArg Host.Outcome.next (if_pos h)), goesTo_setLaneState hL (by decide) Frame.refl fun _ _ => rfl⟩

theorem laneCdrLock_rests (h : s.laneState p i ≠ 2) : exec (.laneCdrLock p i) s = .next s :=
  exec_laneCdrLock.trans (congrArg Host.Outcome.next (if_neg h))

/-! ### ALIGN (R137, R138, R142) -/

/-- The eye monitor's figures are shown. -/
def eyeShown (s : State) (p i vert horz : Nat) : State :=
  ((s.setFld (Reg.LANE_FOM_VERT p i) vert).setFld (Reg.LANE_FOM_HORZ p i) horz).setFld (Reg.LANE_FOM_FOM p i) (min vert (4 * horz))

/-- The equaliser takes what adaptation found, unless it is off. -/
def equalised (s : State) (p i ctle dfe : Nat) : State :=
  if s.fld (Reg.LANE_CFG_ADAPT p i) = 0 then s else (s.setFld (Reg.LANE_EQ_CTLE p i) ctle).setFld (Reg.LANE_EQ_DFE p i) dfe

/-- A lane that has aligned goes to IDENT with LOCK. -/
def aligned (s : State) (p i : Nat) : State := (s.setFld (Reg.LANE_STATUS_LOCK p i) 1).setLaneState p i 4

theorem fom_eyeShown {x i vert horz : Nat} :
    (eyeShown s x i vert horz).fld (Reg.LANE_FOM_VERT x i) = vert % 256 ∧ (eyeShown s x i vert horz).fld (Reg.LANE_FOM_HORZ x i) = horz % 128 ∧
    (eyeShown s x i vert horz).fld (Reg.LANE_FOM_FOM x i) = min vert (4 * horz) % 256 := by
  have fom : ∀ (u : State) (f : Fld), f.addr = (Reg.LANE_FOM_FOM x i).addr → f.hi < 24 → ∀ v, (u.setFld (Reg.LANE_FOM_FOM x i) v).fld f = u.fld f :=
    fun u f ha hf v => State.fld_setFld_bits u _ f v ha (show 24 ≤ 31 by decide) (by omega) (.inl hf)
  unfold eyeShown
  refine ⟨?_, ?_, State.fld_setFld_same _ (Reg.LANE_FOM_FOM x i) _ (show 24 ≤ 31 by decide) (show 31 < 32 by decide)⟩
  · rw [fom _ (Reg.LANE_FOM_VERT x i) rfl (show 23 < 24 by decide),
      State.fld_setFld_bits _ (Reg.LANE_FOM_HORZ x i) (Reg.LANE_FOM_VERT x i) _ rfl (show 8 ≤ 14 by decide) (show 23 < 32 by decide)
        (.inr (show 14 < 16 by decide))]
    exact State.fld_setFld_same _ (Reg.LANE_FOM_VERT x i) _ (show 16 ≤ 23 by decide) (show 23 < 32 by decide)
  · rw [fom _ (Reg.LANE_FOM_HORZ x i) rfl (show 14 < 24 by decide)]
    exact State.fld_setFld_same _ (Reg.LANE_FOM_HORZ x i) _ (show 8 ≤ 14 by decide) (show 14 < 32 by decide)

theorem frame_eyeShown {ps : List Part} {x i vert horz : Nat} (ha : 0x8100C + 0x4000 * x + 0x40 * i ∈ as) : Frame ps as s (eyeShown s x i vert horz) :=
  ((Frame.setFld (Reg.LANE_FOM_VERT x i) _ ha).trans (Frame.setFld (Reg.LANE_FOM_HORZ x i) _ ha)).trans (Frame.setFld (Reg.LANE_FOM_FOM x i) _ ha)

theorem frame_equalised {ps : List Part} {x i ctle dfe : Nat} (ha : 0x81010 + 0x4000 * x + 0x40 * i ∈ as) : Frame ps as s (equalised s x i ctle dfe) := by
  unfold equalised
  split
  · exact Frame.refl
  · exact (Frame.setFld (Reg.LANE_EQ_CTLE x i) _ ha).trans (Frame.setFld (Reg.LANE_EQ_DFE x i) _ ha)

theorem ctle_equalised {x i ctle dfe : Nat} (hc : ctle < 16) : (equalised s x i ctle dfe).fld (Reg.LANE_EQ_CTLE x i) =
    if s.fld (Reg.LANE_CFG_ADAPT x i) = 0 then s.fld (Reg.LANE_EQ_CTLE x i) else ctle := by
  unfold equalised
  split
  · rfl
  · rw [State.fld_setFld_bits _ (Reg.LANE_EQ_DFE x i) (Reg.LANE_EQ_CTLE x i) _ rfl (show 0 ≤ 24 by decide) (show 31 < 32 by decide)
        (.inr (show 24 < 28 by decide)),
      State.fld_setFld_same _ (Reg.LANE_EQ_CTLE x i) _ (show 28 ≤ 31 by decide) (show 31 < 32 by decide)]
    exact Nat.mod_eq_of_lt hc

theorem lanes_eyeShown {x i vert horz : Nat} : (eyeShown s x i vert horz).lanes = s.lanes := by
  rw [eyeShown, setFld_lanes, setFld_lanes, setFld_lanes]

theorem lanes_equalised {x i ctle dfe : Nat} : (equalised s x i ctle dfe).lanes = s.lanes := by
  unfold equalised
  split <;> rfl

theorem exec_laneAlignLock (vert : BitVec 8) (horz : Fin 65) (ctle : BitVec 4) (dfe : BitVec 25) (h : s.laneState p i = 3) :
    exec (.laneAlignLock p i vert horz ctle dfe) s =
      .next (aligned (equalised (eyeShown s p i vert.toNat horz.val) p i ctle.toNat dfe.toNat) p i) := by
  have e : execLaneAlignLock p i vert horz ctle dfe s = .next (aligned (equalised (eyeShown s p i vert.toNat horz.val) p i ctle.toNat dfe.toNat) p i) := by
    unfold execLaneAlignLock aligned equalised eyeShown
    dsimp only
    rw [if_pos h]
  exact e

theorem laneAlignLock_goes (hL : L = 0x81000 + 0x4000 * p.val + 0x40 * i.val) (vert : BitVec 8) (horz : Fin 65) (ctle : BitVec 4) (dfe : BitVec 25)
    (h : s.laneState p i = 3) :
    Completes (.laneAlignLock p i vert horz ctle dfe) s fun t =>
      GoesTo p i L s 4 [L + 0xC, L + 0x10] t ∧ t.fld (Reg.LANE_STATUS_LOCK p i) = 1 ∧ t.fld (Reg.LANE_FOM_VERT p i) = vert.toNat ∧
      t.fld (Reg.LANE_FOM_HORZ p i) = horz.val ∧ t.fld (Reg.LANE_FOM_FOM p i) = min vert.toNat (4 * horz.val) % 256 ∧
      t.fld (Reg.LANE_EQ_CTLE p i) = if s.fld (Reg.LANE_CFG_ADAPT p i) = 0 then s.fld (Reg.LANE_EQ_CTLE p i) else ctle.toNat := by
  refine ⟨_, exec_laneAlignLock vert horz ctle dfe h, ?_⟩
  have eye : Frame [.lanes] [L + 0xC] s (eyeShown s p i vert.toNat horz.val) := frame_eyeShown (List.mem_singleton.mpr (by omega))
  have eq : Frame [.lanes] [L + 0x10] (eyeShown s p i vert.toNat horz.val) (equalised (eyeShown s p i vert.toNat horz.val) p i ctle.toNat dfe.toNat) :=
    frame_equalised (List.mem_singleton.mpr (by omega))
  obtain ⟨hvert, hhorz, hfom⟩ := fom_eyeShown (s := s) (x := p) (i := i) (vert := vert.toNat) (horz := horz.val)
  have hctle := ctle_equalised (s := eyeShown s p i vert.toNat horz.val) (x := p) (i := i) (dfe := dfe.toNat) ctle.isLt
  have lanes := lanes_equalised (s := eyeShown s p i vert.toNat horz.val) (x := p) (i := i) (ctle := ctle.toNat) (dfe := dfe.toNat)
  have shown : (eyeShown s p i vert.toNat horz.val).lanes = s.lanes := lanes_eyeShown
  have adapt : (eyeShown s p i vert.toNat horz.val).fld (Reg.LANE_CFG_ADAPT p i) = s.fld (Reg.LANE_CFG_ADAPT p i) :=
    eye.cameraFld (x := L) hL.symm (by omega) (by simp)
  have held : (eyeShown s p i vert.toNat horz.val).fld (Reg.LANE_EQ_CTLE p i) = s.fld (Reg.LANE_EQ_CTLE p i) :=
    eye.cameraFld (x := L + 0x10) (show _ = _ by simp only [Reg.LANE_EQ_CTLE]; omega) (by omega) (by simp)
  generalize eyeShown s p i vert.toNat horz.val = e at *
  generalize equalised e p i ctle.toNat dfe.toNat = u at *
  have status : Frame [.lanes] [L + 4] u (aligned u p i) :=
    (Frame.setFld (Reg.LANE_STATUS_LOCK p i) 1 (List.mem_singleton.mpr (show _ = _ by simp only [Reg.LANE_STATUS_LOCK]; omega))).trans
      (frame_setLaneState 4 (by decide) (List.mem_singleton.mpr (by omega)))
  have fom : ∀ f : Fld, f.addr = L + 0xC → (aligned u p i).fld f = e.fld f := fun f hf =>
    (status.cameraFld hf (by omega) (by simp)).trans (eq.cameraFld hf (by omega) (by simp))
  refine ⟨?_, ?_, ?_, ?_, ?_, ?_⟩
  · have lock : Frame [.lanes] [L + 4] u (u.setFld (Reg.LANE_STATUS_LOCK p i) 1) :=
      Frame.setFld (Reg.LANE_STATUS_LOCK p i) 1 (List.mem_singleton.mpr (show _ = _ by simp only [Reg.LANE_STATUS_LOCK]; omega))
    refine goesTo_setLaneState hL (by decide) ?_ fun k _ => by rw [setFld_lanes, lanes, shown]
    exact ((eye.mono (fun _ h => h) (by simp)).trans (eq.mono (fun _ h => h) (by simp))).trans (lock.mono (fun _ h => h) (by simp))
  · exact (fld_setLaneState 4 rfl (show 23 < 29 by decide)).trans
      (State.fld_setFld_same _ (Reg.LANE_STATUS_LOCK p i) 1 (show 23 ≤ 23 by decide) (show 23 < 32 by decide))
  · exact (fom _ (by simp only [Reg.LANE_FOM_VERT]; omega)).trans (hvert.trans (Nat.mod_eq_of_lt vert.isLt))
  · exact (fom _ (by simp only [Reg.LANE_FOM_HORZ]; omega)).trans (hhorz.trans (Nat.mod_eq_of_lt (by omega)))
  · exact (fom _ (by simp only [Reg.LANE_FOM_FOM]; omega)).trans hfom
  · rw [status.cameraFld (x := L + 0x10) (by simp only [Reg.LANE_EQ_CTLE]; omega) (by omega) (by simp), hctle, adapt, held]

/-! ### LOCK (R138) -/

theorem exec_laneLockLoss : exec (.laneLockLoss p i) s = .next (if s.flag (Reg.SRX_CTRL_CODE p) && s.flag (Reg.LANE_STATUS_LOCK p i) then
    (s.setFld (Reg.LANE_STATUS_LOCK p i) 0).setLane p i { s.lane p i with lostAt := some s.now } else s) := rfl

theorem laneLockLoss_effect (hL : L = 0x81000 + 0x4000 * p.val + 0x40 * i.val) (hc : s.flag (Reg.SRX_CTRL_CODE p) = true)
    (hl : s.flag (Reg.LANE_STATUS_LOCK p i) = true) : Completes (.laneLockLoss p i) s fun t =>
      t.fld (Reg.LANE_STATUS_LOCK p i) = 0 ∧ t.lane p i = { s.lane p i with lostAt := some s.now } ∧ Frame [.lanes] [L + 4] s t := by
  refine ⟨_, exec_laneLockLoss.trans (congrArg Host.Outcome.next (if_pos (by rw [hc, hl]; rfl))), ?_, lane_setLane_same _, ?_⟩
  · exact (fld_setLane _ _).trans (State.fld_setFld_same s (Reg.LANE_STATUS_LOCK p i) 0 (show 23 ≤ 23 by decide) (show 23 < 32 by decide))
  · exact (Frame.setFld (Reg.LANE_STATUS_LOCK p i) 0 (List.mem_singleton.mpr (show _ = _ by simp only [Reg.LANE_STATUS_LOCK]; omega))).trans
      (frame_setLane _ (by decide))

/-! ### Faults (R158, R159) -/

/-- Lane `i` of port `p`, whose registers start at `L` and `P`, is in FAULT with code `c`; outside RUN only its LANE_STATUS, the port's event word and `as` change. -/
def FaultsWith (p : Fin 4) (i : Fin 64) (L P : Nat) (s : State) (c : Nat) (as : List Nat) (t : State) : Prop :=
  t.laneState p i = 7 ∧ t.fld (Reg.LANE_STATUS_FAULT p i) = c ∧ t.fld (Reg.LANE_STATUS_LOCK p i) = 0 ∧
    (t.lane p i).faultAt = s.now ∧ (t.lane p i).open_ = decide (c = 1 ∨ c = 2) ∧ t.flag (Reg.SRX_EVENT_LANE_FAULT p) = true ∧
    (s.portState p ≠ 3 → Frame [.lanes] ((L + 4) :: (P + 0x60) :: as) s t)

section

variable (hL : L = 0x81000 + 0x4000 * p.val + 0x40 * i.val) (hP : P = 0x80000 + 0x4000 * p.val)

include hL hP

/-- A fault after a step that names only `as`, all of them registers of the lane. -/
theorem LaneFaulted.faultsWith (h : LaneFaulted p i c u t) (hu : Frame [] as s u) (has : ∀ a ∈ as, L < a) : FaultsWith p i L P s c as t := by
  have now : u.now = s.now := hu.1 .now (by decide)
  have run : u.portState p = s.portState p := portState_of_frame hu fun hm => by
    have := has _ hm
    omega
  refine ⟨h.state, h.code, h.lock, ?_, congrArg Lane.open_ h.lane, h.event, fun hs => ?_⟩
  · rw [h.lane, now]
    rfl
  · refine (hu.mono nofun fun _ hm => List.mem_cons_of_mem _ (List.mem_cons_of_mem _ hm)).trans ((h.training (run ▸ hs)).mono (fun _ hm => hm) ?_)
    intro a ha
    rcases List.mem_cons.mp ha with e | ha
    · exact List.mem_cons.mpr (.inl (by omega))
    · exact List.mem_cons_of_mem _ (List.mem_cons.mpr (.inl (by rw [List.mem_singleton.mp ha]; omega)))

theorem laneFault_faultsWith (hc : c < 16) (h7 : s.laneState p i ≠ 7) (h0 : s.laneState p i ≠ 0) : FaultsWith p i L P s c [] (s.laneFault p i c) :=
  (laneFault_faulted p.isLt hc h7 h0).faultsWith hL hP Frame.refl nofun

omit hL hP in
theorem exec_laneFaultTimeout : exec (.laneFaultTimeout p i) s = .next (
    if s.laneState p i = 2 ∧ (s.lane p i).enteredAt + State.msCycles 1 ≤ s.now then s.laneFault p i 4
    else match (s.lane p i).lostAt with
      | some t => if s.portState p = 3 ∧ t + State.msCycles 1 ≤ s.now then s.laneFault p i 5 else s
      | none => s) := rfl

theorem laneFaultTimeout_noClock (h : s.laneState p i = 2) (hd : (s.lane p i).enteredAt + State.msCycles 1 ≤ s.now) :
    Completes (.laneFaultTimeout p i) s (FaultsWith p i L P s 4 []) :=
  ⟨_, exec_laneFaultTimeout.trans (congrArg Host.Outcome.next (if_pos ⟨h, hd⟩)), laneFault_faultsWith hL hP (by decide) (by omega) (by omega)⟩

theorem laneFaultTimeout_noLock (h0 : s.laneState p i ≠ 0) (h2 : s.laneState p i ≠ 2) (h7 : s.laneState p i ≠ 7) (hr : s.portState p = 3)
    (hl : (s.lane p i).lostAt = some n) (hd : n + State.msCycles 1 ≤ s.now) : Completes (.laneFaultTimeout p i) s (FaultsWith p i L P s 5 []) := by
  refine ⟨s.laneFault p i 5, ?_, laneFault_faultsWith hL hP (by decide) h7 h0⟩
  rw [exec_laneFaultTimeout, if_neg fun h => h2 h.1, hl]
  exact congrArg Host.Outcome.next (if_pos ⟨hr, hd⟩)

omit hL hP in
theorem exec_laneSignalLoss : exec (.laneSignalLoss p i) s = .next (if 2 ≤ s.laneState p i ∧ s.laneState p i ≤ 6 then s.laneFault p i 3 else s) := rfl

theorem laneSignalLoss_faults (h2 : 2 ≤ s.laneState p i) (h6 : s.laneState p i ≤ 6) :
    Completes (.laneSignalLoss p i) s (FaultsWith p i L P s 3 []) :=
  ⟨_, exec_laneSignalLoss.trans (congrArg Host.Outcome.next (if_pos ⟨h2, h6⟩)), laneFault_faultsWith hL hP (by decide) (by omega) (by omega)⟩

omit hL hP in
theorem laneSignalLoss_rests (h : s.laneState p i < 2 ∨ s.laneState p i = 7) : exec (.laneSignalLoss p i) s = .next s :=
  exec_laneSignalLoss.trans (congrArg Host.Outcome.next (if_neg (by omega)))

/-! ### The pin monitor (R158, R159) -/

/-- The pin monitor's voltages are shown. -/
def pinsShown (s : State) (p i pmv nmv : Nat) : State := (s.setFld (Reg.LANE_PIN_P_MV p i) pmv).setFld (Reg.LANE_PIN_N_MV p i) nmv

omit hP in
theorem frame_pinsShown (pmv nmv : Nat) : Frame [] [L + 0x24] s (pinsShown s p i pmv nmv) :=
  (Frame.setFld (Reg.LANE_PIN_P_MV p i) _ (List.mem_singleton.mpr (show _ = _ by simp only [Reg.LANE_PIN_P_MV]; omega))).trans
    (Frame.setFld (Reg.LANE_PIN_N_MV p i) _ (List.mem_singleton.mpr (show _ = _ by simp only [Reg.LANE_PIN_N_MV]; omega)))

omit hL hP in
theorem fld_pinsShown {x i pmv nmv : Nat} : (pinsShown s x i pmv nmv).fld (Reg.LANE_PIN_P_MV x i) = pmv % 2048 ∧
    (pinsShown s x i pmv nmv).fld (Reg.LANE_PIN_N_MV x i) = nmv % 2048 := by
  unfold pinsShown
  refine ⟨?_, State.fld_setFld_same _ (Reg.LANE_PIN_N_MV x i) _ (show 0 ≤ 10 by decide) (show 10 < 32 by decide)⟩
  rw [State.fld_setFld_bits _ (Reg.LANE_PIN_N_MV x i) (Reg.LANE_PIN_P_MV x i) _ rfl (show 0 ≤ 10 by decide) (show 26 < 32 by decide)
    (.inr (show 10 < 16 by decide))]
  exact State.fld_setFld_same _ (Reg.LANE_PIN_P_MV x i) _ (show 16 ≤ 26 by decide) (show 26 < 32 by decide)

omit hL hP in
theorem exec_lanePinFault (pmv nmv : BitVec 11) : exec (.lanePinFault p i pmv nmv) s = .next (
    if pmv.toNat < 100 ∨ nmv.toNat < 100 then (pinsShown s p i pmv.toNat nmv.toNat).laneFault p i 1
    else if 1050 < pmv.toNat ∨ 1050 < nmv.toNat then (pinsShown s p i pmv.toNat nmv.toNat).laneFault p i 2
    else pinsShown s p i pmv.toNat nmv.toNat) := rfl

theorem pinsShown_faults (hc : c < 16) (h1 : 1 ≤ s.laneState p i) (h6 : s.laneState p i ≤ 6) (pmv nmv : Nat) :
    FaultsWith p i L P s c [L + 0x24] ((pinsShown s p i pmv nmv).laneFault p i c) := by
  have frame := frame_pinsShown (s := s) hL pmv nmv
  have state : (pinsShown s p i pmv nmv).laneState p i = s.laneState p i :=
    laneState_of_word (frame.camera (by omega) (by simp only [List.mem_singleton]; omega))
  exact (laneFault_faulted p.isLt hc (by omega) (by omega)).faultsWith hL hP frame fun a ha => by
    rw [List.mem_singleton.mp ha]
    omega

theorem lanePinFault_effect (pmv nmv : BitVec 11) (h1 : 1 ≤ s.laneState p i) (h6 : s.laneState p i ≤ 6) :
    (pmv.toNat < 100 ∨ nmv.toNat < 100 → Completes (.lanePinFault p i pmv nmv) s (FaultsWith p i L P s 1 [L + 0x24])) ∧
    (100 ≤ pmv.toNat → 100 ≤ nmv.toNat → 1050 < pmv.toNat ∨ 1050 < nmv.toNat →
      Completes (.lanePinFault p i pmv nmv) s (FaultsWith p i L P s 2 [L + 0x24])) ∧
    (100 ≤ pmv.toNat → 100 ≤ nmv.toNat → pmv.toNat ≤ 1050 → nmv.toNat ≤ 1050 → Completes (.lanePinFault p i pmv nmv) s fun t =>
      t.fld (Reg.LANE_PIN_P_MV p i) = pmv.toNat ∧ t.fld (Reg.LANE_PIN_N_MV p i) = nmv.toNat ∧ Frame [] [L + 0x24] s t) := by
  refine ⟨fun low => ?_, fun hp hn high => ?_, fun hp hn hp' hn' => ?_⟩
  · refine ⟨_, ?_, pinsShown_faults hL hP (by decide) h1 h6 pmv.toNat nmv.toNat⟩
    rw [exec_lanePinFault, if_pos low]
  · refine ⟨_, ?_, pinsShown_faults hL hP (by decide) h1 h6 pmv.toNat nmv.toNat⟩
    rw [exec_lanePinFault, if_neg (by omega), if_pos high]
  · obtain ⟨shownP, shownN⟩ := fld_pinsShown (s := s) (x := p) (i := i) (pmv := pmv.toNat) (nmv := nmv.toNat)
    refine ⟨pinsShown s p i pmv.toNat nmv.toNat, ?_, shownP.trans (Nat.mod_eq_of_lt pmv.isLt), shownN.trans (Nat.mod_eq_of_lt nmv.isLt),
      frame_pinsShown hL _ _⟩
    rw [exec_lanePinFault, if_neg (by omega), if_neg (by omega)]

end

/-! ### IDENT (R139, R140) -/

/-- The identity of a lane in its polarity is settled. -/
def identified (s : State) (p i : Nat) (sensor : Nat) : State :=
  let u := (s.setFld (Reg.LANE_STATUS_INVERTED p i) 0).setFld (Reg.LANE_STATUS_SENSOR_LANE p i) sensor
  u.setLane p i { s.lane p i with ident := true }

/-- The other lanes that carry sensor lane `n`. -/
def twins (s : State) (p i n : Nat) : List Nat :=
  (List.range 64).filter fun j => decide (j ≠ i) && (s.lane p j).ident && decide (s.sensorOf p j = n)

theorem exec_laneIdent_normal {id : TrainId} {inverted : Option TrainId} (h : s.laneState p i = 4) (hp : s.fld (Reg.LANE_CFG_POL p i) = 0)
    (ht : id.tag.toNat = (s.setFld (Reg.LANE_STATUS_INVERTED p i) 0).fld (Reg.SRX_CTRL_TAG p))
    (hn : twins (s.setFld (Reg.LANE_STATUS_INVERTED p i) 0) p i id.sensor.toNat = []) :
    exec (.laneIdent p i (some id) inverted) s = .next ((identified s p i id.sensor.toNat).setLaneState p i 5) := by
  have e : execLaneIdent p i (some id) inverted s = .next ((identified s p i id.sensor.toNat).setLaneState p i 5) := by
    unfold twins at hn
    unfold execLaneIdent identified
    dsimp only
    rw [if_neg (not_not.mpr h), hp]
    simp only [if_neg (show ¬0 = 1 by decide), if_neg (show ¬0 = 2 by decide), b01, Bool.false_eq_true, if_false]
    rw [if_neg (not_not.mpr ht), if_pos hn]
    rfl
  exact e

theorem exec_laneIdent_none (h : s.laneState p i = 4) : exec (.laneIdent p i none none) s = .next (s.laneFault p i 6) := by
  have e : execLaneIdent p i none none s = .next (s.laneFault p i 6) := by
    unfold execLaneIdent
    dsimp only [Option.map_none]
    rw [if_neg (not_not.mpr h), ite_self, ite_self]
  exact e

/-- A polarity bit of one lane changes nothing that the other lanes' identities rest on. -/
theorem twins_setFld_inverted {n v : Nat} (h : ∀ j : Fin 64, j ≠ i → ¬((s.lane p j).ident = true ∧ s.sensorOf p j = n)) :
    twins (s.setFld (Reg.LANE_STATUS_INVERTED p i) v) p i n = [] := by
  refine List.filter_eq_nil_iff.mpr fun j hj => ?_
  have hj := List.mem_range.mp hj
  by_cases e : j = i.val
  · simp [e]
  · have sensor : (s.setFld (Reg.LANE_STATUS_INVERTED p i) v).sensorOf p j = s.sensorOf p j :=
      State.fld_setFld_addr _ _ _ _ (by simp only [Reg.LANE_STATUS_SENSOR_LANE, Reg.LANE_STATUS_INVERTED]; omega)
    have other := h ⟨j, hj⟩ (by simpa [Fin.ext_iff] using e)
    rw [lane_congr (setFld_lanes s _ v), sensor]
    simpa [e] using other

theorem fld_identified {x i n : Nat} : (identified s x i n).fld (Reg.LANE_STATUS_SENSOR_LANE x i) = n % 64 ∧
    (identified s x i n).fld (Reg.LANE_STATUS_INVERTED x i) = 0 := by
  unfold identified
  dsimp only
  rw [fld_setLane, fld_setLane]
  refine ⟨State.fld_setFld_same _ (Reg.LANE_STATUS_SENSOR_LANE x i) n (show 14 ≤ 19 by decide) (show 19 < 32 by decide), ?_⟩
  rw [State.fld_setFld_bits _ (Reg.LANE_STATUS_SENSOR_LANE x i) (Reg.LANE_STATUS_INVERTED x i) n rfl (show 14 ≤ 19 by decide) (show 24 < 32 by decide)
    (.inr (show 19 < 24 by decide))]
  exact State.fld_setFld_same s (Reg.LANE_STATUS_INVERTED x i) 0 (show 24 ≤ 24 by decide) (show 24 < 32 by decide)

theorem frame_identified (hL : L = 0x81000 + 0x4000 * p.val + 0x40 * i.val) (n : Nat) : Frame [.lanes] [L + 4] s (identified s p i n) := by
  have word : 0x81004 + 0x4000 * p.val + 0x40 * i.val ∈ [L + 4] := List.mem_singleton.mpr (by omega)
  exact ((Frame.setFld (Reg.LANE_STATUS_INVERTED p i) 0 word).trans (Frame.setFld (Reg.LANE_STATUS_SENSOR_LANE p i) n word)).trans
    (frame_setLane _ (by decide))

theorem lanes_identified {x i n : Nat} : (identified s x i n).lanes = s.lanes.set (fun _ => {}) (64 * x + i) { s.lane x i with ident := true } := by
  unfold identified
  dsimp only
  rw [lanes_setLane, setFld_lanes, setFld_lanes]

theorem laneIdent_effect (hL : L = 0x81000 + 0x4000 * p.val + 0x40 * i.val) (hP : P = 0x80000 + 0x4000 * p.val) (id : TrainId)
    (normal inverted : Option TrainId) (h : s.laneState p i = 4) :
    (s.fld (Reg.LANE_CFG_POL p i) = 0 → normal = some id → id.tag.toNat = s.fld (Reg.SRX_CTRL_TAG p) →
      (∀ j : Fin 64, j ≠ i → ¬((s.lane p j).ident = true ∧ s.sensorOf p j = id.sensor.toNat)) →
      Completes (.laneIdent p i normal inverted) s fun t =>
        GoesTo p i L s 5 [] t ∧ t.fld (Reg.LANE_STATUS_INVERTED p i) = 0 ∧ t.sensorOf p i = id.sensor.toNat ∧ (t.lane p i).ident = true) ∧
    (normal = none → inverted = none → Completes (.laneIdent p i normal inverted) s (FaultsWith p i L P s 6 [])) := by
  refine ⟨fun hpol hn htag hother => ?_, fun hn hi => ?_⟩
  · subst hn
    have tag : (s.setFld (Reg.LANE_STATUS_INVERTED p i) 0).fld (Reg.SRX_CTRL_TAG p) = s.fld (Reg.SRX_CTRL_TAG p) :=
      State.fld_setFld_addr _ _ _ _ (by simp only [Reg.SRX_CTRL_TAG, Reg.LANE_STATUS_INVERTED]; omega)
    obtain ⟨sensor, upright⟩ := fld_identified (s := s) (x := p) (i := i) (n := id.sensor.toNat)
    refine ⟨_, exec_laneIdent_normal h hpol (htag.trans tag.symm) (twins_setFld_inverted hother), ?_, ?_, ?_, ?_⟩
    · exact goesTo_setLaneState hL (by decide) (frame_identified hL _) fun k hk => by rw [lanes_identified, SMap.get_set_other _ _ hk]
    · exact (fld_setLaneState 5 rfl (show 24 < 29 by decide)).trans upright
    · exact (fld_setLaneState (f := Reg.LANE_STATUS_SENSOR_LANE p i) 5 rfl (show 19 < 29 by decide)).trans (sensor.trans (Nat.mod_eq_of_lt id.sensor.isLt))
    · unfold setLaneState
      rw [lane_setLane_same]
      exact congrArg Lane.ident ((lane_congr (s := s.setLane p i { s.lane p i with ident := true }) lanes_identified p i).trans (lane_setLane_same _))
  · subst hn hi
    exact ⟨_, exec_laneIdent_none h, laneFault_faultsWith hL hP (by decide) (by omega) (by omega)⟩

end Sys2Proof.Machine
end

section
/-! PROOFS. O33, the end of a port's training: DESKEW, the timeout and READY (R137, R141, R143). -/

namespace Sys2Proof.Machine

open State

variable {s t : State} {p i j c d : Nat}

/-! ### Faults of several lanes -/

/-- The word of lane `j` stands. -/
def LaneStands (p j : Nat) (s t : State) : Prop := t.word (0x81004 + 0x4000 * p + 0x40 * j) = s.word (0x81004 + 0x4000 * p + 0x40 * j)

/-- Lane `j` shows FAULT with code `d`. -/
def ShowsFault (p j d : Nat) (s : State) : Prop := s.laneState p j = 7 ∧ s.fld (Reg.LANE_STATUS_FAULT p j) = d

theorem LaneStands.trans {u : State} (h : LaneStands p j s t) (h' : LaneStands p j t u) : LaneStands p j s u := Eq.trans h' h

theorem LaneStands.state (h : LaneStands p j s t) : t.laneState p j = s.laneState p j := laneState_of_word h

theorem ShowsFault.stands (h : ShowsFault p j d s) (hw : LaneStands p j s t) : ShowsFault p j d t :=
  ⟨hw.state.trans h.1, (State.fld_of_word (f := Reg.LANE_STATUS_FAULT p j) hw).trans h.2⟩

theorem LaneStands.of_frame {ps : List Part} {as : List Nat} (h : Frame ps as s t) (hn : 0x81004 + 0x4000 * p + 0x40 * j ∉ as) : LaneStands p j s t :=
  h.camera (by omega) hn

/-- A fault changes its own lane's word only, and nothing where the lane is OFF or in FAULT. -/
theorem laneFault_stands (hp : p < 4) (hj : j < 64) (hc : c < 16) (h : j ≠ i ∨ s.laneState p i = 7 ∨ s.laneState p i = 0) :
    LaneStands p j s (s.laneFault p i c) := by
  by_cases e : s.laneState p i = 7 ∨ s.laneState p i = 0
  · rw [laneFault_ignored e]
    exact rfl
  · exact word_laneFault_other hp hj hc (h.resolve_right e)

theorem ShowsFault.laneFault (h : ShowsFault p j d s) (hp : p < 4) (hj : j < 64) (hc : c < 16) : ShowsFault p j d (s.laneFault p i c) := by
  refine h.stands (laneFault_stands hp hj hc ?_)
  by_cases e : j = i
  · exact .inr (.inl (e ▸ h.1))
  · exact .inl e

theorem showsFault_laneFault (hp : p < 4) (hc : c < 16) (h7 : s.laneState p i ≠ 7) (h0 : s.laneState p i ≠ 0) :
    ShowsFault p i c (s.laneFault p i c) :=
  ⟨(laneFault_faulted hp hc h7 h0).state, (laneFault_faulted hp hc h7 h0).code⟩

theorem laneFaults_stands (hp : p < 4) (hj : j < 64) (hc : c < 16) : (is : List Nat) → (∀ i ∈ is, j ≠ i) → (s : State) →
    LaneStands p j s (laneFaults p c is s)
  | [], _, _ => rfl
  | i :: is, h, s => (laneFault_stands hp hj hc (.inl (h i List.mem_cons_self))).trans
      (laneFaults_stands hp hj hc is (fun k hk => h k (List.mem_cons_of_mem _ hk)) (s.laneFault p i c))

theorem ShowsFault.laneFaults (hp : p < 4) (hj : j < 64) (hc : c < 16) : (is : List Nat) → {s : State} → ShowsFault p j d s →
    ShowsFault p j d (laneFaults p c is s)
  | [], _, h => h
  | _ :: is, _, h => ShowsFault.laneFaults hp hj hc is (h.laneFault hp hj hc)

theorem showsFault_laneFaults (hp : p < 4) (hj : j < 64) (hc : c < 16) : (is : List Nat) → j ∈ is → (s : State) →
    s.laneState p j ≠ 7 → s.laneState p j ≠ 0 → ShowsFault p j c (laneFaults p c is s)
  | i :: is, hm, s, h7, h0 => by
    by_cases e : j = i
    · subst e
      exact ShowsFault.laneFaults hp hj hc is (showsFault_laneFault hp hc h7 h0)
    · have stands := laneFault_stands (s := s) hp hj hc (.inl e)
      exact showsFault_laneFaults hp hj hc is ((List.mem_cons.mp hm).resolve_left e) _ (by rwa [stands.state]) (by rwa [stands.state])

/-! ### READY (R137, R143) -/

theorem frame_endTraining (hp : p < 4) : Frame [] ((0x80004 + 0x4000 * p) :: (0x80060 + 0x4000 * p) :: proposalWords p) s (s.endTraining p) := by
  unfold endTraining
  refine ((Frame.setFld (Reg.SRX_STATUS_STATE p) 2 List.mem_cons_self).trans (frame_srxRaise _ hp (List.mem_cons_of_mem _ List.mem_cons_self))).trans
    (frame_propose _ fun a ha => List.mem_cons_of_mem _ (List.mem_cons_of_mem _ ha))

theorem endTraining_stands (hp : p < 4) : LaneStands p j s (s.endTraining p) := by
  refine LaneStands.of_frame (frame_endTraining hp) fun hm => ?_
  rcases List.mem_cons.mp hm with e | hm
  · omega
  rcases List.mem_cons.mp hm with e | hm
  · omega
  · exact apart_proposalWords (by omega) hm

theorem endTraining_ready (hp : p < 4) : (s.endTraining p).portState p = 2 ∧ (s.endTraining p).flag (Reg.SRX_EVENT_TRAIN_DONE p) = true := by
  have proposed : Frame [] (proposalWords p) ((s.setFld (Reg.SRX_STATUS_STATE p) 2).srxRaise p 0x40) (s.endTraining p) := frame_propose _ fun _ h => h
  constructor
  · refine (portState_of_frame proposed (apart_proposalWords (.inl rfl))).trans ?_
    refine (fld_srxRaise (f := Reg.SRX_STATUS_STATE p) 0x40 (show _ ≤ 0x80004 + 0x4000 * p by omega) (show 0x80004 + 0x4000 * p ≠ _ by omega)).trans ?_
    exact State.fld_setFld_same s (Reg.SRX_STATUS_STATE p) 2 (show 30 ≤ 31 by decide) (show 31 < 32 by decide)
  · refine (flag_of_fld (proposed.cameraFld (f := Reg.SRX_EVENT_TRAIN_DONE p) (x := 0x80060 + 0x4000 * p) rfl (by omega)
      (apart_proposalWords (.inr (.inl rfl))))).trans ?_
    exact flag_srxRaise rfl rfl (show 6 < 32 by decide) (show Nat.testBit 64 6 = true by decide)

/-! ### The timeout (R137) -/

theorem stepCode_lt (n : Nat) : stepCode n < 16 := by
  unfold stepCode
  split <;> [decide; split <;> [decide; split <;> [decide; split <;> decide]]]

theorem ShowsFault.timeoutLanes (hp : p < 4) (hj : j < 64) : (is : List Nat) → {s : State} → ShowsFault p j d s →
    ShowsFault p j d (timeoutLanes p is s)
  | [], _, h => h
  | i :: is, s, h => by
    unfold State.timeoutLanes
    refine ShowsFault.timeoutLanes hp hj is ?_
    split
    · exact h.laneFault hp hj (stepCode_lt _)
    · exact h

/-- A lane that is OFF, READY or in FAULT stays so. -/
theorem timeoutLanes_stands (hp : p < 4) (hj : j < 64) : (is : List Nat) → (s : State) → s.laneState p j = 0 ∨ 6 ≤ s.laneState p j →
    LaneStands p j s (timeoutLanes p is s)
  | [], _, _ => rfl
  | i :: is, s, h => by
    unfold State.timeoutLanes
    have step : LaneStands p j s (if 1 ≤ s.laneState p i ∧ s.laneState p i ≤ 5 then s.laneFault p i (stepCode (s.laneState p i)) else s) := by
      split
      · next due => exact laneFault_stands hp hj (stepCode_lt _) (.inl fun e => by subst e; omega)
      · exact rfl
    exact step.trans (timeoutLanes_stands hp hj is _ (by rwa [step.state]))

/-- A lane short of READY faults with the code of its step. -/
theorem timeoutLanes_faults (hp : p < 4) (hj : j < 64) : (is : List Nat) → j ∈ is → (s : State) → 1 ≤ s.laneState p j → s.laneState p j ≤ 5 →
    ShowsFault p j (stepCode (s.laneState p j)) (timeoutLanes p is s)
  | i :: is, hm, s, h1, h5 => by
    unfold State.timeoutLanes
    dsimp only
    by_cases e : j = i
    · subst e
      rw [if_pos ⟨h1, h5⟩]
      exact ShowsFault.timeoutLanes hp hj is (showsFault_laneFault hp (stepCode_lt _) (by omega) (by omega))
    · have step : LaneStands p j s (if 1 ≤ s.laneState p i ∧ s.laneState p i ≤ 5 then s.laneFault p i (stepCode (s.laneState p i)) else s) := by
        split
        · exact laneFault_stands hp hj (stepCode_lt _) (.inl e)
        · exact rfl
      rw [← step.state] at h1 h5 ⊢
      exact timeoutLanes_faults hp hj is ((List.mem_cons.mp hm).resolve_left e) _ h1 h5

theorem exec_srxTrainTimeout (p : Fin 4) : exec (.srxTrainTimeout p) s = .next (
    if s.portState p = 1 ∧ (s.port p).trainAt + State.msCycles (s.fld (Reg.SRX_TRAIN_MS_MS p)) ≤ s.now then
      (State.timeoutLanes p (List.range 64) s).endTraining p
    else s) := rfl

theorem srxTrainTimeout_effect (p : Fin 4) (i : Fin 64) (hr : s.portState p = 1)
    (hd : (s.port p).trainAt + State.msCycles (s.fld (Reg.SRX_TRAIN_MS_MS p)) ≤ s.now) : Completes (.srxTrainTimeout p) s fun t =>
      t.portState p = 2 ∧ t.flag (Reg.SRX_EVENT_TRAIN_DONE p) = true ∧
      (1 ≤ s.laneState p i → s.laneState p i ≤ 5 → t.laneState p i = 7 ∧
        t.fld (Reg.LANE_STATUS_FAULT p i) = [0, 3, 4, 5, 6, 7].getD (s.laneState p i) 0) ∧
      (s.laneState p i = 0 ∨ 6 ≤ s.laneState p i → t.laneState p i = s.laneState p i) := by
  obtain ⟨ready, done⟩ := endTraining_ready (s := State.timeoutLanes p (List.range 64) s) p.isLt
  refine ⟨_, (exec_srxTrainTimeout p).trans (congrArg Host.Outcome.next (if_pos ⟨hr, hd⟩)), ready, done, fun h1 h5 => ?_, fun h => ?_⟩
  · have code : stepCode (s.laneState p i) = [0, 3, 4, 5, 6, 7].getD (s.laneState p i) 0 := by
      generalize s.laneState p i = n at *
      interval_cases n <;> rfl
    rw [← code]
    exact (timeoutLanes_faults p.isLt i.isLt _ (List.mem_range.mpr i.isLt) s h1 h5).stands (endTraining_stands p.isLt)
  · exact ((timeoutLanes_stands p.isLt i.isLt _ s h).trans (endTraining_stands p.isLt)).state

theorem srxTrainTimeout_rests (p : Fin 4)
    (h : s.portState p ≠ 1 ∨ s.now < (s.port p).trainAt + State.msCycles (s.fld (Reg.SRX_TRAIN_MS_MS p))) : exec (.srxTrainTimeout p) s = .next s :=
  (exec_srxTrainTimeout p).trans (congrArg Host.Outcome.next (if_neg fun ⟨hr, hd⟩ => h.elim (fun hn => hn hr) (fun hl => absurd hd (Nat.not_le.mpr hl))))

/-! ### DESKEW (R141) -/

/-- A lane is delayed to the latest of its port and becomes READY. -/
def delayed (p last : Nat) (s : State) (e : Fin 64 × Nat) : State := (s.setFld (Reg.LANE_STATUS_DESKEW_UI p e.1) (last - e.2)).setLaneState p e.1 6

theorem delayed_stands {last : Nat} {e : Fin 64 × Nat} (h : j ≠ e.1.val) : LaneStands p j s (delayed p last s e) := by
  have frame : Frame [.lanes] [0x81004 + 0x4000 * p + 0x40 * e.1.val] s (delayed p last s e) :=
    (Frame.setFld (Reg.LANE_STATUS_DESKEW_UI p e.1) _ List.mem_cons_self).trans (frame_setLaneState 6 (by decide) List.mem_cons_self)
  exact LaneStands.of_frame frame (by rw [List.mem_singleton]; omega)

theorem delayed_ready {last : Nat} {e : Fin 64 × Nat} : (delayed p last s e).laneState p e.1 = 6 ∧
    (delayed p last s e).fld (Reg.LANE_STATUS_DESKEW_UI p e.1) = (last - e.2) % 512 :=
  ⟨laneState_setLaneState 6, (fld_setLaneState (f := Reg.LANE_STATUS_DESKEW_UI p e.1) 6 rfl (show 8 < 29 by decide)).trans
    (State.fld_setFld_same s (Reg.LANE_STATUS_DESKEW_UI p e.1) _ (show 0 ≤ 8 by decide) (show 8 < 32 by decide))⟩

theorem foldl_delayed_stands {last : Nat} : (l : List (Fin 64 × Nat)) → (∀ e ∈ l, j ≠ e.1.val) → (s : State) →
    LaneStands p j s (l.foldl (delayed p last) s)
  | [], _, _ => rfl
  | e :: l, h, s => (delayed_stands (h e List.mem_cons_self)).trans
      (foldl_delayed_stands l (fun x hx => h x (List.mem_cons_of_mem _ hx)) (delayed p last s e))

theorem foldl_delayed_ready {last : Nat} {e : Fin 64 × Nat} : (l : List (Fin 64 × Nat)) → (l.map (·.1)).Nodup → e ∈ l → (s : State) →
    (l.foldl (delayed p last) s).laneState p e.1 = 6 ∧ (l.foldl (delayed p last) s).fld (Reg.LANE_STATUS_DESKEW_UI p e.1) = (last - e.2) % 512
  | x :: l, hd, hm, s => by
    obtain ⟨hx, hd⟩ := List.nodup_cons.mp hd
    rcases List.mem_cons.mp hm with rfl | hm
    · have rest : LaneStands p e.1 (delayed p last s e) (l.foldl (delayed p last) (delayed p last s e)) :=
        foldl_delayed_stands l (fun y hy he => hx (List.mem_map.mpr ⟨y, hy, (Fin.ext he).symm⟩)) _
      obtain ⟨ready, ui⟩ := delayed_ready (s := s) (p := p) (last := last) (e := e)
      exact ⟨rest.state.trans ready, (State.fld_of_word (f := Reg.LANE_STATUS_DESKEW_UI p e.1) rest).trans ui⟩
    · exact foldl_delayed_ready l hd hm _

/-- The lanes that arrived within 256 UI of the first. -/
def onTime (first : Nat) (l : List (Fin 64 × Nat)) : List (Fin 64 × Nat) := l.filter fun e => decide (e.2 ≤ first + 256)

/-- The lanes that arrived later. -/
def skewed (first : Nat) (l : List (Fin 64 × Nat)) : List (Fin 64 × Nat) := l.filter fun e => decide (first + 256 < e.2)

/-- Late lanes fault, the others are READY. -/
def deskewed (s : State) (p first last : Nat) (l : List (Fin 64 × Nat)) : State :=
  (onTime first l).foldl (delayed p last) (laneFaults p 7 ((skewed first l).map fun e => e.1.val) s)

/-- Every enabled lane is READY or in FAULT. -/
def trained (s t : State) (p : Nat) : Bool := (onesBelow 64 (s.laneEn p)).all fun i => decide (t.laneState p i = 6 ∨ t.laneState p i = 7)

/-- The first of the arrivals, and the last of those on time. -/
def firstOf (l : List (Fin 64 × Nat)) : Nat := l.foldl (fun m e => min m e.2) ((l.head?.map fun e => e.2).getD 0)

def lastOf (l : List (Fin 64 × Nat)) : Nat := l.foldl (fun m e => max m e.2) 0

theorem exec_laneDeskew (p : Fin 4) (arrivals : List (Fin 64 × Nat)) (hr : s.portState p = 1)
    (he : (onesBelow 64 (s.laneEn p)).all (fun i => decide (s.laneState p i = 5 ∨ s.laneState p i = 7)) = true)
    (hg : (arrivals.filter fun e => decide (s.laneState p e.1 = 5)) = arrivals) :
    exec (.laneDeskew p arrivals) s = .next (
      let t := deskewed s p (firstOf arrivals) (lastOf (onTime (firstOf arrivals) arrivals)) arrivals
      if trained s t p then t.endTraining p else t) := by
  have e : execLaneDeskew p arrivals s = .next (
      let t := deskewed s p (firstOf arrivals) (lastOf (onTime (firstOf arrivals) arrivals)) arrivals
      if trained s t p then t.endTraining p else t) := by
    unfold execLaneDeskew
    dsimp only
    rw [if_neg (by rw [hr, he]; decide), hg]
    rfl
  exact e

theorem foldl_min {first : Nat} : (l : List (Fin 64 × Nat)) → (m : Nat) → (∀ e ∈ l, first ≤ e.2) → first ≤ m → (m = first ∨ ∃ e ∈ l, e.2 = first) →
    l.foldl (fun m e => min m e.2) m = first
  | [], m, _, _, h => h.resolve_right (by simp)
  | x :: l, m, hle, hm, h => by
    have hx := hle x List.mem_cons_self
    refine foldl_min l (min m x.2) (fun e he => hle e (List.mem_cons_of_mem _ he)) (by omega) ?_
    rcases h with h | ⟨e, he, h⟩
    · exact .inl (by omega)
    rcases List.mem_cons.mp he with rfl | he
    · exact .inl (by omega)
    · exact .inr ⟨e, he, h⟩

theorem foldl_max {last : Nat} : (l : List (Fin 64 × Nat)) → (m : Nat) → (∀ e ∈ l, e.2 ≤ last) → m ≤ last → (m = last ∨ ∃ e ∈ l, e.2 = last) →
    l.foldl (fun m e => max m e.2) m = last
  | [], m, _, _, h => h.resolve_right (by simp)
  | x :: l, m, hle, hm, h => by
    have hx := hle x List.mem_cons_self
    refine foldl_max l (max m x.2) (fun e he => hle e (List.mem_cons_of_mem _ he)) (by omega) ?_
    rcases h with h | ⟨e, he, h⟩
    · exact .inl (by omega)
    rcases List.mem_cons.mp he with rfl | he
    · exact .inl (by omega)
    · exact .inr ⟨e, he, h⟩

theorem firstOf_eq {first : Nat} {l : List (Fin 64 × Nat)} (hle : ∀ e ∈ l, first ≤ e.2) (h : ∃ e ∈ l, e.2 = first) : firstOf l = first := by
  refine foldl_min l _ hle ?_ (.inr h)
  match l, h with
  | x :: _, _ => exact hle x List.mem_cons_self

theorem lastOf_onTime {first last : Nat} {l : List (Fin 64 × Nat)} (hle : ∀ e ∈ l, e.2 ≤ first + 256 → e.2 ≤ last) (hl : last ≤ first + 256)
    (h : ∃ e ∈ l, e.2 = last) : lastOf (onTime first l) = last := by
  refine foldl_max _ 0 (fun e he => ?_) (Nat.zero_le _) (.inr ?_)
  · obtain ⟨hm, hd⟩ := List.mem_filter.mp he
    exact hle e hm (of_decide_eq_true hd)
  · obtain ⟨e, hm, he⟩ := h
    exact ⟨e, List.mem_filter.mpr ⟨hm, decide_eq_true (by omega)⟩, he⟩

section

variable {first last : Nat} {l : List (Fin 64 × Nat)} {e : Fin 64 × Nat}

theorem deskewed_ready (hd : (l.map (·.1)).Nodup) (he : e ∈ l) (ht : e.2 ≤ first + 256) (hf : first ≤ e.2) (hl : last ≤ first + 256) :
    (deskewed s p first last l).laneState p e.1 = 6 ∧ (deskewed s p first last l).fld (Reg.LANE_STATUS_DESKEW_UI p e.1) = last - e.2 := by
  have hm : e ∈ onTime first l := List.mem_filter.mpr ⟨he, decide_eq_true ht⟩
  have nodup : ((onTime first l).map (·.1)).Nodup := hd.sublist ((List.filter_sublist (l := l)).map _)
  obtain ⟨ready, ui⟩ := foldl_delayed_ready (p := p) (last := last) (onTime first l) nodup hm (laneFaults p 7 ((skewed first l).map fun e => e.1.val) s)
  exact ⟨ready, ui.trans (Nat.mod_eq_of_lt (by omega))⟩

theorem eq_of_lane (hd : (l.map (·.1)).Nodup) {x : Fin 64 × Nat} (he : e ∈ l) (hx : x ∈ l) (h : e.1 = x.1) : e = x := List.inj_on_of_nodup_map hd he hx h

theorem deskewed_late (hp : p < 4) (hd : (l.map (·.1)).Nodup) (he : e ∈ l) (ht : first + 256 < e.2) (h5 : s.laneState p e.1 = 5) :
    ShowsFault p e.1 7 (deskewed s p first last l) := by
  have hm : e.1.val ∈ (skewed first l).map fun e => e.1.val := List.mem_map.mpr ⟨e, List.mem_filter.mpr ⟨he, decide_eq_true ht⟩, rfl⟩
  have fault := showsFault_laneFaults hp e.1.isLt (show 7 < 16 by decide) _ hm s (by omega) (by omega)
  refine fault.stands (foldl_delayed_stands _ (fun x hx h => ?_) _)
  obtain ⟨hx, hd'⟩ := List.mem_filter.mp hx
  have := eq_of_lane hd he hx (Fin.ext h)
  subst this
  exact absurd (of_decide_eq_true hd') (by omega)

/-- A lane without an arrival stands. -/
theorem deskewed_stands (hp : p < 4) {k : Fin 64} (h : k ∉ l.map (·.1)) : LaneStands p k s (deskewed s p first last l) := by
  have out : ∀ x ∈ l, k.val ≠ x.1.val := fun x hx he => h (List.mem_map.mpr ⟨x, hx, (Fin.ext he).symm⟩)
  refine (laneFaults_stands hp k.isLt (show 7 < 16 by decide) _ (fun n hn => ?_) s).trans
    (foldl_delayed_stands _ (fun x hx => out x (List.mem_filter.mp hx).1) _)
  obtain ⟨x, hx, rfl⟩ := List.mem_map.mp hn
  exact out x (List.mem_filter.mp hx).1

end

theorem mem_onesBelow {w m n : Nat} : n ∈ onesBelow w m ↔ n < w ∧ m.testBit n = true := by
  unfold onesBelow
  rw [List.mem_filter, List.mem_range]

theorem laneDeskew_effect (p : Fin 4) (arrivals : List (Fin 64 × Nat)) (first last : Nat) (hr : s.portState p = 1)
    (hen : ∀ j : Fin 64, (s.laneEn p).testBit j.val = true → s.laneState p j = 5 ∨ s.laneState p j = 7) (hd : (arrivals.map (·.1)).Nodup)
    (harr : ∀ e ∈ arrivals, s.laneState p e.1 = 5 ∧ (s.laneEn p).testBit e.1.val = true ∧ first ≤ e.2) (hfirst : ∃ e ∈ arrivals, e.2 = first)
    (hlast : ∃ e ∈ arrivals, e.2 = last) (hle : ∀ e ∈ arrivals, e.2 ≤ first + 256 → e.2 ≤ last) (hl : last ≤ first + 256) :
    Completes (.laneDeskew p arrivals) s fun t =>
      (∀ e ∈ arrivals, e.2 ≤ first + 256 → t.laneState p e.1 = 6 ∧ t.fld (Reg.LANE_STATUS_DESKEW_UI p e.1) = last - e.2) ∧
      (∀ e ∈ arrivals, first + 256 < e.2 → t.laneState p e.1 = 7 ∧ t.fld (Reg.LANE_STATUS_FAULT p e.1) = 7) ∧
      ((∀ j : Fin 64, (s.laneEn p).testBit j.val = true → s.laneState p j = 5 → j ∈ arrivals.map (·.1)) →
        t.portState p = 2 ∧ t.flag (Reg.SRX_EVENT_TRAIN_DONE p) = true) := by
  have enabled : (onesBelow 64 (s.laneEn p)).all (fun i => decide (s.laneState p i = 5 ∨ s.laneState p i = 7)) = true :=
    List.all_eq_true.mpr fun n hn => by
      obtain ⟨hn, hb⟩ := mem_onesBelow.mp hn
      exact decide_eq_true (hen ⟨n, hn⟩ hb)
  have all : (arrivals.filter fun e => decide (s.laneState p e.1 = 5)) = arrivals :=
    List.filter_eq_self.mpr fun e he => decide_eq_true (harr e he).1
  have exec := exec_laneDeskew p arrivals hr enabled all
  rw [firstOf_eq (fun e he => (harr e he).2.2) hfirst, lastOf_onTime hle hl hlast] at exec
  have good : ∀ e ∈ arrivals, e.2 ≤ first + 256 → _ := fun e he ht => deskewed_ready (s := s) (p := p) (last := last) hd he ht (harr e he).2.2 hl
  have late : ∀ e ∈ arrivals, first + 256 < e.2 → _ := fun e he ht => deskewed_late (last := last) p.isLt hd he ht (harr e he).1
  have out : ∀ k : Fin 64, k ∉ arrivals.map (·.1) → _ := fun k hk => deskewed_stands (s := s) (first := first) (last := last) p.isLt hk
  generalize deskewed s p first last arrivals = t at exec good late out
  have ends : ∃ u, (if trained s t p then t.endTraining p else t) = u ∧ ∀ j : Fin 64, LaneStands p j t u := by
    split
    · exact ⟨_, rfl, fun j => endTraining_stands p.isLt⟩
    · exact ⟨_, rfl, fun j => rfl⟩
  obtain ⟨u, hu, stands⟩ := ends
  refine ⟨u, exec.trans (congrArg Host.Outcome.next hu), fun e he ht => ?_, fun e he ht => (late e he ht).stands (stands e.1), fun every => ?_⟩
  · obtain ⟨ready, ui⟩ := good e he ht
    exact ⟨(stands e.1).state.trans ready, (State.fld_of_word (f := Reg.LANE_STATUS_DESKEW_UI p e.1) (stands e.1)).trans ui⟩
  · have done : trained s t p = true := List.all_eq_true.mpr fun n hn => by
      obtain ⟨hn, hb⟩ := mem_onesBelow.mp hn
      refine decide_eq_true ?_
      by_cases hm : (⟨n, hn⟩ : Fin 64) ∈ arrivals.map (·.1)
      · obtain ⟨e, he, hne⟩ := List.mem_map.mp hm
        have hne : e.1.val = n := congrArg Fin.val hne
        subst hne
        by_cases ht : e.2 ≤ first + 256
        · exact .inl (good e he ht).1
        · exact .inr (late e he (by omega)).1
      · refine .inr ((out _ hm).state.trans ((hen ⟨n, hn⟩ hb).resolve_left fun h5 => hm (every _ hb h5)))
    rw [if_pos done] at hu
    rw [← hu]
    exact endTraining_ready p.isLt

end Sys2Proof.Machine
end

section
/-! PROOFS. What the close of a frame leaves of the lanes: their registers stand through parcels, releases and the queues that follow (R36, R150 to R156). -/

namespace Sys2Proof.Machine

open State

variable {s t u : State}

/-! ### Queues -/

theorem pushQ_room {a cap : Nat} {e : QEnt} (h : (s.queue a).length < cap) : s.pushQ a cap e = (s.setQueue a (s.queue a ++ [e]), true) := if_pos h

theorem pushQ_full {a cap : Nat} {e : QEnt} (h : cap ≤ (s.queue a).length) : s.pushQ a cap e = (s, false) := if_neg (Nat.not_lt.mpr h)

theorem pipeInPush_room {i raw map : Nat} (h : (s.queue (pipeInQ i)).length < 4) :
    s.pipeInPush i raw map = s.setQueue (pipeInQ i) (s.queue (pipeInQ i) ++ [⟨raw, map, false⟩]) := by
  rw [pipeInPush, pushQ_room h]
  exact if_pos rfl

theorem pipeInPush_full {i raw map : Nat} (h : 4 ≤ (s.queue (pipeInQ i)).length) :
    s.pipeInPush i raw map = (s.count (Reg.PIPE_IN_STATUS_LOST i)).raise (0x1001A0 + 0x10000 * i) (0x1001A4 + 0x10000 * i) (4 + i) 8 := by
  rw [pipeInPush, pushQ_full h]
  exact if_neg Bool.false_ne_true

theorem srxFqPush_room {p raw map : Nat} (h : (s.queue (fqA p)).length < 16) :
    s.srxFqPush p raw map = s.setQueue (fqA p) (s.queue (fqA p) ++ [⟨raw, map, false⟩]) := by
  rw [srxFqPush, pushQ_room h]
  exact if_pos rfl

theorem srxFqPush_full {p raw map : Nat} (h : 16 ≤ (s.queue (fqA p)).length) :
    s.srxFqPush p raw map = s.setBitsOf (0x80034 + 0x4000 * p) 0x100 := by
  rw [srxFqPush, pushQ_full h]
  exact if_neg Bool.false_ne_true

/-! ### The registers of the lanes -/

/-- The registers of the lanes of all ports stand. -/
def LanesHold (s t : State) : Prop := ∀ x, 0x80000 ≤ x → x < 0x90000 → 0x1000 ≤ x % 0x4000 → t.word x = s.word x

/-- A word that is no lane's register. -/
def noLaneWord (x : Nat) : Prop := x < 0x80000 ∨ 0x90000 ≤ x ∨ x % 0x4000 < 0x1000

namespace LanesHold

variable {f : Fld} {p : Nat}

theorem refl : LanesHold s s := fun _ _ _ _ => rfl

theorem trans (h : LanesHold s t) (h' : LanesHold t u) : LanesHold s u := fun x hx hl hm => (h' x hx hl hm).trans (h x hx hl hm)

theorem of_regs (h : t.regs = s.regs) : LanesHold s t := fun x _ _ _ => word_congr h x

theorem of_calm (h : Calm s t) : LanesHold s t := fun x hx _ _ => h x (calm_camera hx)

theorem of_frame {ps : List Part} {as : List Nat} (h : Frame ps as s t) (ha : ∀ a ∈ as, noLaneWord a) : LanesHold s t := fun x hx hl hm =>
  h.camera hx fun hmem => by
    have := ha x hmem
    unfold noLaneWord at this
    omega

theorem setFld (v : Nat) (h : noLaneWord f.addr) : LanesHold s (s.setFld f v) := fun x hx hl hm =>
  State.word_setFld _ _ _ _ fun e => by
    unfold noLaneWord at h
    omega

theorem count (k : Nat) (h : noLaneWord f.addr) : LanesHold s (s.count f k) := fun x hx hl hm =>
  State.word_count _ _ fun e => by
    unfold noLaneWord at h
    omega

theorem raise {a : Nat} (en src m sh : Nat) (h : noLaneWord a) : LanesHold s (s.raise a en src m sh) := fun x hx hl hm =>
  (State.word_raise _ _ _ _ _ (calm_camera hx)).trans (if_neg fun e => by
    unfold noLaneWord at h
    omega)

/-- A step taken under a condition. -/
theorem when {c : Prop} [Decidable c] (h : LanesHold s t) : LanesHold s (if c then t else s) := by
  split
  · exact h
  · exact refl

theorem whenNot {c : Prop} [Decidable c] (h : LanesHold s t) : LanesHold s (if c then s else t) := by
  split
  · exact refl
  · exact h

/-! ### The berth table and the followers -/

theorem berthFault (w h c : Nat) : LanesHold s (s.berthFault w h c) :=
  of_frame (ps := []) (frame_berthFault (as := [0x60000, 0x60128, 0x6012C]) (by decide) (by decide) (by decide)) fun a ha => .inl (by
    simp only [List.mem_cons, List.not_mem_nil, or_false] at ha
    omega)

theorem acquire (w h : Nat) : LanesHold s (s.acquire w h).1 := by
  unfold State.acquire
  dsimp only
  split
  · exact berthFault _ _ _
  · split
    · exact berthFault _ _ _
    · exact of_regs rfl

theorem releaseTable (w h : Nat) : LanesHold s (s.releaseTable w h) := by
  unfold State.releaseTable
  dsimp only
  split
  · exact berthFault _ _ _
  · exact of_regs rfl

theorem pushHeld (w a cap h : Nat) : LanesHold s (s.pushHeld w a cap h).1 := by
  have hq := acquire (s := s) w h
  unfold State.pushHeld
  split
  · generalize s.acquire w h = r at hq ⊢
    obtain ⟨s', ok⟩ := r
    dsimp only
    split
    · exact hq.trans (of_regs rfl)
    · exact hq
  · exact refl

/-- An entry that is pushed and acquired, or else counted as lost. -/
theorem pushed {w a cap h : Nat} {lost : State → State} (hl : ∀ v, LanesHold v (lost v)) :
    LanesHold s (match s.pushHeld w a cap h with | (v, ok) => if ok then v else lost v) := by
  have hq := pushHeld (s := s) w a cap h
  generalize s.pushHeld w a cap h = r at hq ⊢
  split
  split
  · exact hq
  · exact hq.trans (hl _)

theorem encFollow (v h : Nat) : (l : List (Nat × Nat)) → (s : State) → LanesHold s (State.encFollow v h l s)
  | [], _ => refl
  | (e, i) :: rest, s => by
    rw [State.encFollow]
    refine LanesHold.trans ?_ (encFollow v h rest _)
    exact when (pushed fun _ => count 1 (.inr (.inl (by simp only [Reg.ENC_SLOT_QUEUE_LOST]; omega))))

theorem scnFollow (race : Bool) (h : Nat) : (l : List Nat) → (s : State) → LanesHold s (State.scnFollow race h l s)
  | [], _ => refl
  | l :: rest, s => by
    rw [State.scnFollow]
    refine LanesHold.trans ?_ (scnFollow race h rest _)
    exact when (pushed fun _ => count 1 (.inr (.inl (by simp only [Reg.SCN_LAYER_CNT_PUSH_LOST]; omega))))

theorem netFollow (h : Nat) : (l : List Nat) → (s : State) → LanesHold s (State.netFollow h l s)
  | [], _ => refl
  | n :: rest, s => by
    rw [State.netFollow]
    refine LanesHold.trans ?_ (netFollow h rest _)
    exact when (pushed fun _ => (count 1 (.inr (.inl (by simp only [Reg.NET_TX_STATUS_LOST]; omega)))).trans
      (raise _ _ _ _ (.inr (.inl (by simp only [Reg.NET_EVENT_PUSH_LOST]; omega)))))

theorem release (w h : Nat) : LanesHold s (s.release w h) := by
  unfold State.release
  split
  · exact releaseTable w h
  · dsimp only
    refine LanesHold.trans ?_ (releaseTable w h)
    refine LanesHold.trans ?_ (whenNot (netFollow _ _ _))
    refine LanesHold.trans ?_ (when (scnFollow _ _ _ _))
    exact when ((encFollow _ _ _ _).trans (scnFollow _ _ _ _))

theorem emit (w : Nat) (m : Manifest) (ofs : Nat) (payload : List Byte) : LanesHold s (s.emit w m ofs payload) := by
  unfold State.emit
  dsimp only
  split
  · exact berthFault _ _ _
  · refine LanesHold.trans ?_ (when (of_regs rfl))
    refine LanesHold.trans ?_ (when (scnFollow _ _ _ _))
    exact of_regs rfl

theorem pipeInPush (i raw map : Nat) : LanesHold s (s.pipeInPush i raw map) := by
  by_cases h : (s.queue (pipeInQ i)).length < 4
  · rw [pipeInPush_room h]
    exact of_regs rfl
  · rw [pipeInPush_full (Nat.not_lt.mp h)]
    exact (count 1 (.inr (.inl (by simp only [Reg.PIPE_IN_STATUS_LOST]; omega)))).trans (raise _ _ _ _ (.inr (.inl (by omega))))

/-! ### Rows, strata and frames -/

theorem setPort (p : Nat) (x : SrxPort) : LanesHold s (s.setPort p x) := of_regs rfl

theorem setFrame (p : Nat) (f : PortFrame) : LanesHold s (s.setFrame p f) := of_regs rfl

theorem srxRaise (m : Nat) : LanesHold s (s.srxRaise p m) := raise _ _ _ _ (.inr (.inr (by omega)))

theorem countRows (f : Fld) (ha : f.addr = 0x80070 + 0x4000 * p ∨ f.addr = 0x80078 + 0x4000 * p) : LanesHold s (s.count f) :=
  count 1 (.inr (.inr (by omega)))

theorem emitRows (f : PortFrame) (k first : Nat) (rows : List (List Byte)) : LanesHold s (s.emitRows p f k first rows) :=
  whenNot (emit _ _ _ _)

theorem flushRun (f : PortFrame) (k : Nat) : LanesHold s (s.flushRun p f k).1 := by
  unfold State.flushRun
  split
  · exact refl
  · exact (emitRows _ _ _ _).trans (setFrame _ _)

theorem ebSub (n : Nat) : LanesHold s (s.ebSub p n) := setPort _ _

theorem ebAdd (n : Nat) : LanesHold s (s.ebAdd p n) := by
  unfold State.ebAdd
  exact (setPort _ _).trans (when (setFld _ (.inr (.inr (by simp only [Reg.SRX_EB_HIGH]; omega)))))

theorem fillRows (k : Nat) (row : List Byte) (valid : Nat) : (n r : Nat) → (acc : List (List Byte)) → (s : State) → (f : PortFrame) →
    LanesHold s (State.fillRows p k row valid n r acc s f).1
  | 0, _, _, _, _ => emitRows _ _ _ _
  | n + 1, r, acc, s, f => by
    rw [State.fillRows]
    split
    · exact (emitRows _ _ _ _).trans (fillRows k row valid n _ _ _ _)
    split
    · dsimp only
      split
      · exact ((ebAdd _).trans (emitRows _ _ _ _)).trans (fillRows k row valid n _ _ _ _)
      · exact (ebAdd _).trans (fillRows k row valid n _ _ _ _)
    · dsimp only
      refine LanesHold.trans ?_ (fillRows k row valid n _ _ _ _)
      exact (((emitRows _ _ _ _).trans (setFrame _ _)).trans (countRows (Reg.SRX_DROP_CNT_BUFFER p) (.inl rfl))).trans (srxRaise _)

theorem closeStratum (f : PortFrame) (k n : Nat) (short : Bool) : LanesHold s (s.closeStratum p f k n short).1 := by
  unfold State.closeStratum
  extract_lets f'
  split
  next v g e =>
  have flushed : LanesHold s v := by
    have h := flushRun (s := s) (p := p) f' k
    rwa [e] at h
  extract_lets x rows c closed counted
  split
  · exact flushed.trans (setFrame _ _)
  have raised : ∀ f, LanesHold s ((v.setFrame p f).srxRaise p 2) := fun _ => flushed.trans ((setFrame _ _).trans (srxRaise 2))
  split
  · exact raised _
  · exact (raised _).trans ((fillRows _ _ _ _ _ _ _ _).trans (setFrame _ _))

theorem closeShort : (ks : List Nat) → (s : State) → (f : PortFrame) → LanesHold s (State.closeShort p ks s f).1
  | [], _, _ => refl
  | k :: ks, s, f => by
    rw [State.closeShort]
    split
    · split
      · exact closeShort ks s f
      · exact (closeStratum _ _ _ _).trans (closeShort ks (s.closeStratum p f k _ true).1 (s.closeStratum p f k _ true).2)
    · exact (closeStratum _ _ _ _).trans (closeShort ks (s.closeStratum p f k 0 true).1 (s.closeStratum p f k 0 true).2)

theorem emitMaps (f : PortFrame) : (ks : List Nat) → (s : State) → LanesHold s (State.emitMaps p f ks s)
  | [], _ => refl
  | _ :: ks, s => by
    rw [State.emitMaps]
    exact (emit _ _ _ _).trans (emitMaps f ks _)

theorem finishFrame (f : PortFrame) : LanesHold s (s.finishFrame p f) := by
  unfold State.finishFrame
  dsimp only
  refine LanesHold.trans ?_ (whenNot ?_)
  · refine LanesHold.trans ?_ (of_regs rfl)
    refine LanesHold.trans ?_ (when (countRows (Reg.SRX_FRAME_CNT_LONG p) (.inr rfl)))
    exact (setPort _ _).trans (when (countRows (Reg.SRX_FRAME_CNT_SHORT p) (.inr rfl)))
  · refine LanesHold.trans ?_ (of_calm (calm_post _ _ _ _))
    refine LanesHold.trans ?_ (when (release _ _))
    refine LanesHold.trans ?_ (when (release _ _))
    refine LanesHold.trans ?_ (when (pipeInPush _ _ _))
    exact (whenNot (emitMaps f _ _)).trans (of_calm (calm_logRec _ _ _ _))

theorem closeFrame : LanesHold s (s.closeFrame p) := by
  unfold State.closeFrame
  split
  · exact refl
  · next f _ =>
    have waiting : LanesHold s (match (s.port p).row with
        | none => (s, f)
        | some _ =>
          let s := (s.setPort p { s.port p with row := none }).ebSub p (s.frameStride p f)
          let f := frameFlag f flagDrop
          ((s.setFrame p f).srxRaise p 8, f)).1 := by
      split
      · exact refl
      · exact (((setPort _ _).trans (ebSub _)).trans (setFrame _ _)).trans (srxRaise _)
    refine waiting.trans ?_
    exact (closeShort _ _ _).trans (finishFrame _)

end LanesHold

end Sys2Proof.Machine
end

section
/-! PROOFS. O33, the operations of a camera port: TRAIN, RUN and STOP (R136, R137, R154, R228). -/

namespace Sys2Proof.Machine

open State

variable {s t u : State} {p : Fin 4}

/-! ### The write of SRX_CTRL -/

/-- A write that has reached SRX_CTRL of port `p`, and its operation not yet. -/
structure PortWritten (p : Fin 4) (s u : State) : Prop where
  frame : Frame [] [0x80000 + 0x4000 * p.val, 0x80060 + 0x4000 * p.val] s u
  keeps : Keeps 148376 s u
  awake : s.awake p → u.awake p

theorem inReject_port {x : Nat} (h : inReject (0x80000 + 0x4000 * p.val) x = true) : x = 0x80060 + 0x4000 * p.val := by
  unfold inReject at h
  simp (disch := omega) only [if_neg, if_pos, decide_eq_true_eq] at h
  omega

theorem Wrote.portWritten {v : Nat} (h : Wrote (0x80000 + 0x4000 * p.val) v s u) : PortWritten p s u := by
  have frame : Frame [] [0x80000 + 0x4000 * p.val, 0x80060 + 0x4000 * p.val] s u :=
    Frame.of_wrote h List.mem_cons_self (calm_camera (by omega)) fun _ _ _ hx =>
      List.mem_cons_of_mem _ (List.mem_singleton.mpr (inReject_port hx))
  have apart : ∀ x < 0x80000, x ∉ [0x80000 + 0x4000 * p.val, 0x80060 + 0x4000 * p.val] := fun x hx hm => by
    simp only [List.mem_cons, List.not_mem_nil, or_false] at hm
    omega
  have low : u.fld Reg.PWR_DOMAIN_ON_LO = s.fld Reg.PWR_DOMAIN_ON_LO := State.fld_of_word (frame.2.1 _ (by decide) (apart _ (by decide)))
  have high : u.fld Reg.PWR_DOMAIN_ON_HI = s.fld Reg.PWR_DOMAIN_ON_HI := State.fld_of_word (frame.2.1 _ (by decide) (apart _ (by decide)))
  have now : u.now = s.now := h.keeps.same .now rfl
  have pwr : u.pwr = s.pwr := h.keeps.same .pwr rfl
  refine ⟨frame, h.keeps, fun ⟨on, block⟩ => ⟨?_, ?_⟩⟩
  · unfold domainOn_
    rw [low, high]
    exact on
  · rw [pwr, now]
    exact block

theorem op_srxCtrl {n : Nat} (rest : BitVec 28) (h : n < 16) : bits (n <<< 28 + rest.toNat) 31 28 = n := by
  have := rest.isLt
  unfold bits
  rw [Nat.shiftLeft_eq, Nat.shiftRight_eq_div_pow]
  omega

theorem blockOp_port (op : Nat) : s.blockOp p 0 op = s.srxOp p op := if_pos p.isLt

theorem ctrlAction_awake {v op : Nat} (h : bits v 31 28 = op) (ha : s.awake p) (a : Nat) : s.ctrlAction p 0 a v = s.srxOp p op := by
  obtain ⟨on, block⟩ := ha
  rw [ctrlAction_of_op h, startOp, if_neg block, if_pos on, blockOp_port, ite_self]

theorem srxOp_train : s.srxOp p 1 = s.srxTrain p := if_pos rfl

theorem srxOp_run : s.srxOp p 2 = s.srxRun p := by
  rw [srxOp, if_neg (by decide), if_pos rfl]

theorem srxOp_stop : s.srxOp p 3 = s.srxStop p := by
  rw [srxOp, if_neg (by decide), if_neg (by decide), if_pos rfl]

theorem isStart_srxStop : isStart p.val 3 = false := rfl

theorem ctrlAction_srxStop {v : Nat} (h : bits v 31 28 = 3) (a : Nat) : s.ctrlAction p 0 a v = s.srxStop p := by
  rw [ctrlAction_of_op h, isStart_srxStop, if_neg Bool.false_ne_true, blockOp_port, srxOp_stop]

section

variable {m : Fin 32} (hm : s.mayWrite m.val (0x80000 + 0x4000 * p.val) .plain = true) (rest : BitVec 28)

include hm

theorem srxTrain_written (ha : s.awake p) : ∃ u, PortWritten p s u ∧ exec (.srxTrain m p rest) s = .next (u.srxTrain p) := by
  obtain ⟨_, u, _, wrote, e⟩ := write_srxTrain m p rest hm
  rw [ctrlAction_awake (op_srxCtrl rest (by decide)) (wrote.portWritten.awake ha), srxOp_train] at e
  exact ⟨u, wrote.portWritten, e⟩

theorem srxRun_written (ha : s.awake p) : ∃ u, PortWritten p s u ∧ exec (.srxRun m p rest) s = .next (u.srxRun p) := by
  obtain ⟨_, u, _, wrote, e⟩ := write_srxRun m p rest hm
  rw [ctrlAction_awake (op_srxCtrl rest (by decide)) (wrote.portWritten.awake ha), srxOp_run] at e
  exact ⟨u, wrote.portWritten, e⟩

theorem srxStop_written : ∃ u, PortWritten p s u ∧ exec (.srxStop m p rest) s = .next (u.srxStop p) := by
  obtain ⟨_, u, _, wrote, e⟩ := write_srxStop m p rest hm
  rw [ctrlAction_srxStop (op_srxCtrl rest (by decide))] at e
  exact ⟨u, wrote.portWritten, e⟩

end

namespace PortWritten

variable (h : PortWritten p s u)

include h

theorem camera {x : Nat} (hx : 0x80000 ≤ x) (hc : x ≠ 0x80000 + 0x4000 * p.val) (he : x ≠ 0x80060 + 0x4000 * p.val) : u.word x = s.word x :=
  h.frame.camera hx fun hm => by
    rcases List.mem_cons.mp hm with e | hm
    · exact hc e
    · exact he (List.mem_singleton.mp hm)

theorem portState : u.portState p = s.portState p :=
  State.fld_of_word (f := Reg.SRX_STATUS_STATE p) (h.camera (show 0x80000 ≤ 0x80004 + 0x4000 * p.val by omega)
    (show 0x80004 + 0x4000 * p.val ≠ _ by omega) (show 0x80004 + 0x4000 * p.val ≠ _ by omega))

theorem laneState (i : Fin 64) : u.laneState p i = s.laneState p i := laneState_of_word (h.camera (by omega) (by omega) (by omega))

theorem laneEn : u.laneEn p = s.laneEn p := by
  have en : ∀ f : Fld, f.addr = 0x80040 + 0x4000 * p.val ∨ f.addr = 0x80044 + 0x4000 * p.val → u.fld f = s.fld f := fun f hf =>
    State.fld_of_word (h.camera (by omega) (by omega) (by omega))
  unfold State.laneEn State.fld2
  rw [en (Reg.SRX_LANE_EN_LO p) (.inl rfl), en (Reg.SRX_LANE_EN_HI p) (.inr rfl)]

theorem ports : u.ports = s.ports := h.keeps.same .ports rfl

theorem now : u.now = s.now := h.keeps.same .now rfl

end PortWritten

end Sys2Proof.Machine
end

section
/-! PROOFS. O33, what TRAIN, RUN and STOP do to the port and its lanes (R136, R137, R154, R228). -/

namespace Sys2Proof.Machine

open State

variable {s t u : State} {ps : List Part} {as : List Nat} {p i j : Nat}

/-! ### Aborted calibration (R228) -/

/-- An abort of calibration runs leaves the words below those of CAL. -/
theorem word_calAbort {x : Nat} (hx : x < 0x150000) : (ns : List Nat) → (s : State) → (calAbort p ns s).word x = s.word x
  | [], _ => rfl
  | n :: ns, s => by
    rw [calAbort, word_calAbort hx ns]
    split
    · have pend : ∀ f : Fld, ∀ v, 0x150000 ≤ f.addr → ∀ w : State, (w.setFld f v).word x = w.word x := fun f v hf w => word_setFld_other w f v (by omega)
      unfold setCalStale setCalPending setMaskBit setFld2
      rw [pend _ _ (by decide), pend _ _ (by decide), pend _ _ (by decide), pend _ _ (by decide), pend _ _ (show 0x150000 ≤ 0x150100 + 0x10 * n by omega)]
    · rfl

theorem ports_calAbort (ns : List Nat) : (calAbort p ns s).ports = s.ports := (keeps_calAbort (L := 8) p ns Keeps.refl rfl).same .ports rfl

theorem now_calAbort (ns : List Nat) : (calAbort p ns s).now = s.now := (keeps_calAbort (L := 8) p ns Keeps.refl rfl).same .now rfl

/-! ### TRAIN (R136, R137) -/

theorem laneEn_of_words (h : ∀ x, x = 0x80040 + 0x4000 * p ∨ x = 0x80044 + 0x4000 * p → t.word x = s.word x) : t.laneEn p = s.laneEn p := by
  unfold State.laneEn fld2
  rw [State.fld_of_word (f := Reg.SRX_LANE_EN_LO p) (h _ (.inl rfl)), State.fld_of_word (f := Reg.SRX_LANE_EN_HI p) (h _ (.inr rfl))]

theorem Frame.laneEn (h : Frame ps as s t) (ha : ∀ a ∈ as, 0x81000 + 0x4000 * p ≤ a) : t.laneEn p = s.laneEn p :=
  laneEn_of_words fun x hx => h.camera (by omega) fun hm => by
    have := ha x hm
    omega

/-- What a lane is when its training starts. -/
def startedLane (l : Lane) (now : Nat) : Lane := { offset := l.offset, prbsBits := l.prbsBits, enteredAt := now }

/-- The lane and its LANE_STATUS at their start values. -/
def started (s : State) (p i : Nat) : State := (s.setLane p i (startedLane (s.lane p i) s.now)).setWord (0x81004 + 0x4000 * p + 0x40 * i) 0

theorem frame_setWord {a : Nat} (v : Word) (ha : a ∈ as) : Frame ps as s (s.setWord a v) :=
  ⟨(Only.of_keeps (keeps_setWord (L := 148376) a v Keeps.refl rfl) Frame.side_mask).mono fun _ hp => List.mem_append.mpr (.inr hp),
    fun _ _ hn => word_setWord_other s v fun e => hn (e ▸ ha), fun _ => rfl⟩

theorem frame_started (hp : Part.lanes ∈ ps) (ha : 0x81004 + 0x4000 * p + 0x40 * i ∈ as) : Frame ps as s (started s p i) :=
  (frame_setLane _ hp).trans (frame_setWord 0 ha)

theorem frame_toBaseline (ha : 0x81010 + 0x4000 * p + 0x40 * i ∈ as) : Frame ps as s (s.toBaseline p i) :=
  (Frame.setFld (Reg.LANE_EQ_CTLE p i) _ ha).trans (Frame.setFld (Reg.LANE_EQ_DFE p i) _ ha)

theorem lanes_toBaseline : (s.toBaseline p i).lanes = s.lanes := rfl

theorem trainLane_eq : s.trainLane p i =
    if bit ((started s p i).laneEn p) i then
      if ((started s p i).setFld (Reg.LANE_STATUS_STATE p i) 1).fld (Reg.LANE_CFG_ADAPT p i) = 0 then (started s p i).setFld (Reg.LANE_STATUS_STATE p i) 1
      else ((started s p i).setFld (Reg.LANE_STATUS_STATE p i) 1).toBaseline p i
    else started s p i := rfl

theorem frame_trainLane (hp : Part.lanes ∈ ps) (ha : 0x81004 + 0x4000 * p + 0x40 * i ∈ as) (he : 0x81010 + 0x4000 * p + 0x40 * i ∈ as) :
    Frame ps as s (s.trainLane p i) := by
  have signal : Frame ps as s ((started s p i).setFld (Reg.LANE_STATUS_STATE p i) 1) :=
    (frame_started hp ha).trans (Frame.setFld (Reg.LANE_STATUS_STATE p i) 1 ha)
  rw [trainLane_eq]
  split
  · split
    · exact signal
    · exact signal.trans (frame_toBaseline he)
  · exact frame_started hp ha

theorem lanes_trainLane : (s.trainLane p i).lanes = s.lanes.set (fun _ => {}) (64 * p + i) (startedLane (s.lane p i) s.now) := by
  have signal : ((started s p i).setFld (Reg.LANE_STATUS_STATE p i) 1).lanes = (started s p i).lanes := setFld_lanes ..
  have start : (started s p i).lanes = s.lanes.set (fun _ => {}) (64 * p + i) (startedLane (s.lane p i) s.now) := rfl
  rw [trainLane_eq]
  split
  · split
    · exact signal.trans start
    · exact lanes_toBaseline.trans (signal.trans start)
  · exact start

theorem lane_trainLane : (s.trainLane p i).lane p i = startedLane (s.lane p i) s.now :=
  (lane_congr (s := s.setLane p i (startedLane (s.lane p i) s.now)) lanes_trainLane p i).trans (lane_setLane_same _)

theorem laneEn_started : (started s p i).laneEn p = s.laneEn p :=
  (frame_started (ps := [.lanes]) (as := [0x81004 + 0x4000 * p + 0x40 * i]) (by decide) List.mem_cons_self).laneEn fun a ha => by
    rw [List.mem_singleton.mp ha]
    omega

/-- An enabled lane starts in SIGNAL, another in OFF. -/
theorem laneState_trainLane : (s.trainLane p i).laneState p i = if (s.laneEn p).testBit i then 1 else 0 := by
  have signal : ((started s p i).setFld (Reg.LANE_STATUS_STATE p i) 1).laneState p i = 1 :=
    State.fld_setFld_same _ (Reg.LANE_STATUS_STATE p i) 1 (show 29 ≤ 31 by decide) (show 31 < 32 by decide)
  have off : (started s p i).laneState p i = 0 := (State.fld_setWord_same _ 0 (Reg.LANE_STATUS_STATE p i)).trans rfl
  have baseline : ∀ w : State, (w.toBaseline p i).laneState p i = w.laneState p i := fun w =>
    laneState_of_word ((frame_toBaseline (ps := []) List.mem_cons_self).camera (by omega) fun hm => by
      have := List.mem_singleton.mp hm
      omega)
  rw [trainLane_eq, laneEn_started]
  change (if (s.laneEn p).testBit i then _ else _ : State).laneState p i = _
  split
  · split
    · exact signal
    · exact (baseline _).trans signal
  · exact off

/-- Lane `j` of port `p` keeps its training state and what it holds. -/
def LaneKept (p j : Nat) (s t : State) : Prop := t.laneState p j = s.laneState p j ∧ t.lane p j = s.lane p j

theorem LaneKept.trans (h : LaneKept p j s t) (h' : LaneKept p j t u) : LaneKept p j s u := ⟨h'.1.trans h.1, h'.2.trans h.2⟩

theorem frame_trainLane_own : Frame [.lanes] [0x81004 + 0x4000 * p + 0x40 * i, 0x81010 + 0x4000 * p + 0x40 * i] s (s.trainLane p i) :=
  frame_trainLane (by decide) List.mem_cons_self (List.mem_cons_of_mem _ List.mem_cons_self)

theorem trainLane_kept (h : j ≠ i) : LaneKept p j s (s.trainLane p i) :=
  ⟨laneState_of_word (frame_trainLane_own.camera (by omega) fun hm => by
      simp only [List.mem_cons, List.not_mem_nil, or_false] at hm
      omega),
    (lane_congr lanes_trainLane p j).trans (lane_setLane_other (s := s) _ (by omega))⟩

theorem laneEn_trainLane : (s.trainLane p i).laneEn p = s.laneEn p := frame_trainLane_own.laneEn fun a ha => by
  simp only [List.mem_cons, List.not_mem_nil, or_false] at ha
  omega

theorem trainLanes_kept : (is : List Nat) → j ∉ is → (s : State) → LaneKept p j s (trainLanes p is s)
  | [], _, _ => ⟨rfl, rfl⟩
  | i :: is, h, s => by
    obtain ⟨hj, h⟩ := not_or.mp (mt List.mem_cons.mpr h)
    rw [trainLanes]
    exact (trainLane_kept hj).trans (trainLanes_kept is h _)

theorem trainLanes_starts : (is : List Nat) → j ∈ is → (s : State) →
    (trainLanes p is s).laneState p j = (if (s.laneEn p).testBit j then 1 else 0) ∧ ((trainLanes p is s).lane p j).ident = false
  | i :: is, hm, s => by
    rw [trainLanes]
    by_cases later : j ∈ is
    · rw [← laneEn_trainLane (s := s)]
      exact trainLanes_starts is later _
    · have e := (List.mem_cons.mp hm).resolve_right later
      subst e
      obtain ⟨state, lane⟩ := trainLanes_kept (p := p) is later (s.trainLane p j)
      rw [state, lane, lane_trainLane, laneState_trainLane]
      exact ⟨rfl, rfl⟩

/-- The lanes of port `p` once TRAIN has started them. -/
def lanesStarted (s : State) (p : Nat) : State := trainLanes p (List.range 64) (calAbort p (List.range 32) s)

theorem ports_lanesStarted : (lanesStarted s p).ports = s.ports :=
  ((keeps_trainLanes (L := 2097160) p _ Keeps.refl rfl).same .ports rfl).trans (ports_calAbort _)

theorem now_lanesStarted : (lanesStarted s p).now = s.now :=
  ((keeps_trainLanes (L := 2097160) p _ Keeps.refl rfl).same .now rfl).trans (now_calAbort _)

theorem lanesStarted_starts (hp : p < 4) (hj : j < 64) :
    (lanesStarted s p).laneState p j = (if (s.laneEn p).testBit j then 1 else 0) ∧ ((lanesStarted s p).lane p j).ident = false := by
  have enabled : (calAbort p (List.range 32) s).laneEn p = s.laneEn p := laneEn_of_words fun x hx => word_calAbort (by omega) _ _
  rw [← enabled]
  exact trainLanes_starts _ (List.mem_range.mpr hj) _

/-- SRX_STATUS shows TRAIN, and no longer DEGRADED. -/
def trainShown (s : State) (p : Nat) : State := (s.setFld (Reg.SRX_STATUS_STATE p) 1).setFld (Reg.SRX_STATUS_DEGRADED p) 0

theorem lanes_trainShown : (trainShown s p).lanes = s.lanes := (setFld_lanes ..).trans (setFld_lanes ..)

theorem ports_trainShown : (trainShown s p).ports = s.ports := (setFld_ports ..).trans (setFld_ports ..)

theorem now_trainShown : (trainShown s p).now = s.now := (setFld_now ..).trans (setFld_now ..)

theorem status_trainShown : (trainShown s p).portState p = 1 ∧ (trainShown s p).fld (Reg.SRX_STATUS_DEGRADED p) = 0 :=
  ⟨(State.fld_setFld_bits _ (Reg.SRX_STATUS_DEGRADED p) (Reg.SRX_STATUS_STATE p) 0 rfl (show 29 ≤ 29 by decide) (show 31 < 32 by decide) (.inr (show 29 < 30 by decide))).trans
      (State.fld_setFld_same s (Reg.SRX_STATUS_STATE p) 1 (show 30 ≤ 31 by decide) (show 31 < 32 by decide)),
    State.fld_setFld_same _ (Reg.SRX_STATUS_DEGRADED p) 0 (show 29 ≤ 29 by decide) (show 29 < 32 by decide)⟩

theorem laneState_trainShown : (trainShown s p).laneState p j = s.laneState p j :=
  laneState_of_word ((word_setFld_other _ (Reg.SRX_STATUS_DEGRADED p) _ (show _ ≠ 0x80004 + 0x4000 * p by omega)).trans
    (word_setFld_other _ (Reg.SRX_STATUS_STATE p) _ (show _ ≠ 0x80004 + 0x4000 * p by omega)))

theorem lane_setPort (x : SrxPort) (q : Nat) : (s.setPort p x).lane q i = s.lane q i := rfl

theorem srxTrain_eq : s.srxTrain p = (trainShown (lanesStarted s p) p).setPort p
    { s.port p with trainAt := s.now, width := none } := by
  have port : (trainShown (lanesStarted s p) p).port p = s.port p := port_congr (ports_trainShown.trans ports_lanesStarted) p
  have now : (trainShown (lanesStarted s p) p).now = s.now := now_trainShown.trans now_lanesStarted
  rw [← port, ← now]
  rfl

theorem srxTrain_effect (p : Fin 4) (i : Fin 64) (m : Fin 32) (rest : BitVec 28) (hm : s.mayWrite m.val (0x80000 + 0x4000 * p.val) .plain = true)
    (ha : s.awake p) : Completes (.srxTrain m p rest) s fun t =>
      t.portState p = 1 ∧ t.fld (Reg.SRX_STATUS_DEGRADED p) = 0 ∧ (t.port p).trainAt = s.now ∧ (t.port p).width = none ∧
      (t.port p).frame = (s.port p).frame ∧ t.laneState p i = (if (s.laneEn p).testBit i.val then 1 else 0) ∧
      (t.lane p i).ident = false ∧ (∀ q, q ≠ p.val → t.port q = s.port q) ∧ Only ([.lanes, .ports] ++ sideParts) s t := by
  obtain ⟨u, hu, e⟩ := srxTrain_written hm rest ha
  have only : Only ([.lanes, .ports] ++ sideParts) s (u.srxTrain p) :=
    Only.of_keeps (n := 6439832) ((hu.keeps.mono rfl).trans (keeps_srxTrain p Keeps.refl rfl)) (by decide)
  obtain ⟨state, ident⟩ := lanesStarted_starts (s := u) p.isLt i.isLt
  obtain ⟨train, shown⟩ := status_trainShown (s := lanesStarted u p) (p := p)
  refine ⟨_, e, ?_⟩
  rw [srxTrain_eq] at only ⊢
  refine ⟨(fld_setPort _ _).trans train, (fld_setPort _ _).trans shown, ?_, ?_, ?_, ?_, ?_, fun q hq => ?_, only⟩
  · rw [port_setPort_same]
    exact hu.now
  · rw [port_setPort_same]
  · rw [port_setPort_same, port_congr hu.ports]
  · rw [← hu.laneEn]
    exact (fld_setPort _ _).trans (laneState_trainShown.trans state)
  · rw [lane_setPort, lane_congr lanes_trainShown]
    exact ident
  · rw [port_setPort_other _ hq]
    exact port_congr (ports_trainShown.trans (ports_lanesStarted.trans hu.ports)) q

/-! ### RUN (R136) -/

section

variable {p : Fin 4} {m : Fin 32} {rest : BitVec 28} (hm : s.mayWrite m.val (0x80000 + 0x4000 * p.val) .plain = true) (ha : s.awake p)

include hm ha

theorem srxRun_ready (hr : s.portState p = 2) : Completes (.srxRun m p rest) s fun t =>
    t.portState p = 3 ∧ Frame [] [0x80000 + 0x4000 * p.val, 0x80000 + 0x4000 * p.val + 4, 0x80000 + 0x4000 * p.val + 0x60] s t := by
  obtain ⟨u, hu, e⟩ := srxRun_written hm rest ha
  rw [srxRun, if_pos (hu.portState.trans hr)] at e
  refine ⟨_, e, State.fld_setFld_same u (Reg.SRX_STATUS_STATE p) 3 (show 30 ≤ 31 by decide) (show 31 < 32 by decide), ?_⟩
  refine (hu.frame.mono nofun fun x hx => ?_).trans (Frame.setFld (Reg.SRX_STATUS_STATE p) 3 ?_)
  · simp only [List.mem_cons, List.not_mem_nil, or_false] at hx ⊢
    omega
  · exact List.mem_cons_of_mem _ (List.mem_cons.mpr (.inl (show 0x80004 + 0x4000 * p.val = _ by omega)))

theorem srxRun_rejected (hr : s.portState p ≠ 2) : Completes (.srxRun m p rest) s fun t =>
    t.portState p = s.portState p ∧ t.flag (Reg.SRX_EVENT_WRITE_REJECT p) = true ∧
      Frame [] [0x80000 + 0x4000 * p.val, 0x80000 + 0x4000 * p.val + 0x60] s t := by
  obtain ⟨u, hu, e⟩ := srxRun_written hm rest ha
  rw [srxRun, if_neg (by rwa [hu.portState])] at e
  refine ⟨_, e, (fld_srxRaise 0x80 (show 0x80000 ≤ 0x80004 + 0x4000 * p.val by omega) (show 0x80004 + 0x4000 * p.val ≠ _ by omega)).trans hu.portState,
    flag_srxRaise rfl rfl (show 7 < 32 by decide) (show Nat.testBit 0x80 7 = true by decide), ?_⟩
  refine (hu.frame.mono nofun fun x hx => ?_).trans (frame_srxRaise 0x80 p.isLt (List.mem_cons_of_mem _ (List.mem_singleton.mpr (by omega))))
  simp only [List.mem_cons, List.not_mem_nil, or_false] at hx ⊢
  omega

end

/-! ### STOP (R136, R154, R228) -/

/-- A lane is powered down, unless it is OFF or its fault is latched. -/
def laneStopped (s : State) (p i : Nat) : State :=
  if s.laneState p i = 7 ∨ s.laneState p i = 0 then s
  else ((s.setFld (Reg.LANE_STATUS_STATE p i) 0).setFld (Reg.LANE_STATUS_LOCK p i) 0).setLane p i
    { ((s.setFld (Reg.LANE_STATUS_STATE p i) 0).setFld (Reg.LANE_STATUS_LOCK p i) 0).lane p i with lostAt := none }

/-- The training state that a STOP leaves. -/
def stoppedState (n : Nat) : Nat := if n = 7 then 7 else 0

theorem laneState_laneStopped : (laneStopped s p i).laneState p i = stoppedState (s.laneState p i) := by
  unfold laneStopped stoppedState
  split
  · next h =>
    rcases h with h | h <;> rw [h]
    · rfl
    · rfl
  · next h =>
    rw [if_neg (not_or.mp h).1]
    exact (fld_setLane _ _).trans ((State.fld_setFld_bits _ (Reg.LANE_STATUS_LOCK p i) (Reg.LANE_STATUS_STATE p i) 0 rfl (show 23 ≤ 23 by decide) (show 31 < 32 by decide)
      (.inr (show 23 < 29 by decide))).trans (State.fld_setFld_same s (Reg.LANE_STATUS_STATE p i) 0 (show 29 ≤ 31 by decide) (show 31 < 32 by decide)))

theorem laneState_laneStopped_other (h : j ≠ i) : (laneStopped s p i).laneState p j = s.laneState p j := by
  unfold laneStopped
  split
  · rfl
  · exact (fld_setLane _ _).trans ((State.fld_setFld_addr _ (Reg.LANE_STATUS_LOCK p i) (Reg.LANE_STATUS_STATE p j) 0
      (show 0x81004 + 0x4000 * p + 0x40 * j ≠ 0x81004 + 0x4000 * p + 0x40 * i by omega)).trans
      (State.fld_setFld_addr s (Reg.LANE_STATUS_STATE p i) (Reg.LANE_STATUS_STATE p j) 0
        (show 0x81004 + 0x4000 * p + 0x40 * j ≠ 0x81004 + 0x4000 * p + 0x40 * i by omega)))

theorem stopLanes_cons (is : List Nat) : stopLanes p (i :: is) s = stopLanes p is (laneStopped s p i) := rfl

theorem stoppedState_idem (n : Nat) : stoppedState (stoppedState n) = stoppedState n := by
  unfold stoppedState
  split
  · rfl
  · rfl

theorem laneState_stopLanes : (is : List Nat) → (s : State) →
    (stopLanes p is s).laneState p j = if j ∈ is then stoppedState (s.laneState p j) else s.laneState p j
  | [], _ => rfl
  | i :: is, s => by
    rw [stopLanes_cons, laneState_stopLanes is]
    by_cases e : j = i
    · subst e
      rw [laneState_laneStopped, stoppedState_idem, ite_self, if_pos List.mem_cons_self]
    · rw [laneState_laneStopped_other e]
      simp only [List.mem_cons, e, false_or]

/-! ### The end of a frame, in parts (R153, R156, R165) -/

/-- A SHORT or LONG frame is counted. -/
def frameCounted (s : State) (p : Nat) (f : PortFrame) : State :=
  let t := if f.short then s.count (Reg.SRX_FRAME_CNT_SHORT p) else s
  if f.long then t.count (Reg.SRX_FRAME_CNT_LONG p) else t

/-- The port has no frame and no work for it. -/
def frameEnded (s : State) (p : Nat) (f : PortFrame) : State := (frameCounted (s.setPort p { s.port p with frame := none }) p f).endWork p f.man.tide

/-- The maps are written and the frame is in the logbook. -/
def frameLogged (s : State) (p : Nat) (f : PortFrame) : State :=
  let t := if f.map = 0 then s else emitMaps p f (List.range (s.frameStrata p f)) s
  t.logRec 0x08 p 0 (manWords (t.berth f.raw).man ++ [f.map])

/-- Under AUTO the frame goes to the pipeline. -/
def framePushed (s : State) (p : Nat) (f : PortFrame) : State := if s.flag (Reg.PIPE_CTRL_AUTO p) then s.pipeInPush p f.raw f.map else s

/-- The port gives its berths back. -/
def frameGiven (s : State) (p : Nat) (f : PortFrame) : State :=
  let t := if f.rawOk then s.release p f.raw else s
  (if f.mapOk then t.release p f.map else t).berthRel p f.raw f.man.frame f.man.flags

theorem finishFrame_eq (f : PortFrame) : s.finishFrame p f =
    if !f.entry then frameEnded s p f else frameGiven (framePushed (frameLogged (frameEnded s p f) p f) p f) p f := rfl

section

variable {L : Nat} {s₀ : State} (f : PortFrame) (h : Keeps L s₀ s)

include h

theorem keeps_frameCounted (hl : 264 ||| L = L) : Keeps L s₀ (frameCounted s p f) := by
  have short := keeps_ite (p := f.short = true) (keeps_count (Reg.SRX_FRAME_CNT_SHORT p) 1 h hl) h
  exact keeps_ite (keeps_count _ 1 short hl) short

theorem keeps_frameLogged (hl : 937864 ||| L = L) : Keeps L s₀ (frameLogged s p f) :=
  keeps_logRec _ _ _ _ (keeps_ite h (keeps_emitMaps _ _ _ h hl)) (sub_trans rfl hl)

theorem keeps_framePushed (hl : 279432 ||| L = L) : Keeps L s₀ (framePushed s p f) := keeps_ite (keeps_pipeInPush _ _ _ h hl) h

theorem keeps_frameGiven (hl : 412552 ||| L = L) : Keeps L s₀ (frameGiven s p f) := by
  have raw := keeps_ite (p := f.rawOk = true) (keeps_release p f.raw h hl) h
  exact keeps_berthRel _ _ _ _ (keeps_ite (keeps_release _ _ raw hl) raw) (sub_trans rfl hl)

end

/-- A frame that is done leaves its port without one. -/
theorem ports_finishFrame (f : PortFrame) : (s.finishFrame p f).ports = (s.setPort p { s.port p with frame := none }).ports := by
  have ended : Keeps 937864 (s.setPort p { s.port p with frame := none }) (frameEnded s p f) :=
    keeps_endWork _ _ (keeps_frameCounted f Keeps.refl rfl) rfl
  rw [finishFrame_eq]
  exact (keeps_ite ended (keeps_frameGiven f (keeps_framePushed f (keeps_frameLogged f ended rfl) rfl) rfl)).same .ports rfl

theorem frame_finishFrame (f : PortFrame) : ((s.finishFrame p f).port p).frame = none :=
  (congrArg SrxPort.frame (port_congr (ports_finishFrame f) p)).trans (congrArg SrxPort.frame (port_setPort_same _))

theorem frame_closeFrame : ((s.closeFrame p).port p).frame = none := by
  unfold closeFrame
  split
  · next h => exact h
  · exact frame_finishFrame _

theorem srxStop_effect (p : Fin 4) (i : Fin 64) (m : Fin 32) (rest : BitVec 28) (hm : s.mayWrite m.val (0x80000 + 0x4000 * p.val) .plain = true) :
    Completes (.srxStop m p rest) s fun t =>
      t.portState p = 0 ∧ t.laneState p i = (if s.laneState p i = 7 then 7 else 0) ∧ (t.port p).frame = none := by
  obtain ⟨u, hu, e⟩ := srxStop_written hm rest
  refine ⟨_, e, State.fld_setFld_same _ (Reg.SRX_STATUS_STATE p) 0 (show 30 ≤ 31 by decide) (show 31 < 32 by decide), ?_, ?_⟩
  · have closed : (u.closeFrame p).laneState p i = u.laneState p i := laneState_of_word (LanesHold.closeFrame _ (by omega) (by omega) (by omega))
    have aborted : (calAbort p (List.range 32) (u.closeFrame p)).laneState p i = (u.closeFrame p).laneState p i :=
      laneState_of_word (word_calAbort (by omega) _ _)
    refine (State.fld_setFld_addr _ (Reg.SRX_STATUS_STATE p) (Reg.LANE_STATUS_STATE p i) 0
      (show 0x81004 + 0x4000 * p.val + 0x40 * i.val ≠ 0x80004 + 0x4000 * p.val by omega)).trans ?_
    refine (laneState_stopLanes _ _).trans ((if_pos (List.mem_range.mpr i.isLt)).trans ?_)
    rw [aborted, closed, hu.laneState]
    rfl
  · have ports : (u.srxStop p).ports = (u.closeFrame p).ports :=
      (setFld_ports ..).trans (((keeps_stopLanes (L := 2097160) p _ Keeps.refl rfl).same .ports rfl).trans (ports_calAbort _))
    exact (congrArg SrxPort.frame (port_congr ports p)).trans frame_closeFrame

end Sys2Proof.Machine
end

section
/-! PROOFS. O33: the training and the faults of camera lanes, put together (R136 to R144, R158 to R160). -/

namespace Sys2Proof.Machine

open State

/-- Settles O33: each step of training moves its lane on, each broken rule faults it, and TRAIN, RUN and STOP lead the port. -/
theorem cameraLanesTrainAndFault : Obligations.CameraLanesTrainAndFault := by
  unfold Obligations.CameraLanesTrainAndFault
  intro p i L P s goes faults hL hP hg hf
  have goes_eq : goes = GoesTo p i L s := hg
  have faults_eq : faults = FaultsWith p i L P s := hf
  rw [goes_eq, faults_eq]
  refine ⟨laneSignal_goes hL, laneSignal_rests, laneCdrLock_goes hL, laneCdrLock_rests, laneAlignLock_goes hL, laneLockLoss_effect hL,
    laneIdent_effect hL hP, fun arrivals first last hr hen hd harr hfirst hlast hle hl =>
      laneDeskew_effect p arrivals first last hr hen hd harr hfirst hlast hle hl,
    srxTrainTimeout_effect p i, srxTrainTimeout_rests p, laneFaultTimeout_noClock hL hP, fun n => laneFaultTimeout_noLock hL hP,
    lanePinFault_effect hL hP, laneSignalLoss_faults hL hP, laneSignalLoss_rests, fun m rest hm => ?_⟩
  subst hP
  exact ⟨srxTrain_effect p i m rest hm, srxRun_ready hm, srxRun_rejected hm, srxStop_effect p i m rest hm⟩

end Sys2Proof.Machine
end

section
/-! PROOFS. O34, the start of a frame: the control block that opens it, its stamp and its berths (R131, R146 to R148). -/

namespace Sys2Proof.Machine

open State

variable {s t u : State} {ps : List Part} {as : List Nat} {p i : Nat}

/-! ### Counters of a port, and queues -/

theorem quiet_portCounters : ∀ p : Fin 4, ∀ x ∈ [0x34, 0x70, 0x74, 0x78], quiet (0x80000 + 0x4000 * p.val + x) = false := by decide +kernel

theorem frame_countPort {f : Fld} {p : Fin 4} (x : Nat) (hx : x ∈ [0x34, 0x70, 0x74, 0x78]) (hf : f.addr = 0x80000 + 0x4000 * p.val + x) (ha : f.addr ∈ as) :
    Frame ps as s (s.count f) :=
  Frame.count f 1 ha (hf ▸ quiet_portCounters p x hx) (by omega)

theorem frame_setQueue (a : Nat) (l : List QEnt) (hp : Part.queues ∈ ps) : Frame ps as s (s.setQueue a l) :=
  frame_part (Only.of_keeps (n := 262144) (keeps_setQueue a l Keeps.refl rfl) (by decide)) hp rfl rfl

theorem queue_congr (h : t.queues = s.queues) (a : Nat) : t.queue a = s.queue a := by
  unfold queue
  rw [h]

/-! ### Control blocks (R131, R149) -/

/-- Good control blocks count no code error. -/
theorem codeErrs_good {kind : Nat} {pos : Option Nat} : (bs : List LaneBlock) → (s : State) →
    (∀ b ∈ bs, isCtl (s.flag (Reg.SRX_CTRL_CODE p)) kind b.block.toNat = true ∧ ∀ x, pos = some x → b.pos = x) → codeErrs p kind pos bs s = s
  | [], _, _ => rfl
  | b :: bs, s, h => by
    obtain ⟨ctl, hpos⟩ := h b List.mem_cons_self
    have rest : codeErrs p kind pos bs s = s := codeErrs_good bs s fun b hb => h b (List.mem_cons_of_mem _ hb)
    unfold State.codeErrs
    dsimp only
    cases pos with
    | none => simpa [ctl] using rest
    | some x => simpa [ctl, hpos x rfl] using rest

/-! ### Banks -/

/-- A bank of epoch `e` is used in cycle `now`. -/
def usedNow (now e : Nat) (b : Bank) : Bank := if b.epoch = e then { b with used := now } else b

theorem epoch_usedNow {now e : Nat} {b : Bank} : (usedNow now e b).epoch = b.epoch := by
  unfold usedNow
  split
  · rfl
  · rfl

theorem words_usedNow {now e : Nat} {b : Bank} : (usedNow now e b).words = b.words := by
  unfold usedNow
  split
  · rfl
  · rfl

/-- The bank of an epoch holds the same words after a use. -/
theorem bankFld_touchBank (n i e x : Nat) (f : Fld) : (s.touchBank n e).bankFld i x f = s.bankFld i x f := by
  have words : (s.touchBank n e).bankWords i x = s.bankWords i x := by
    unfold bankWords
    by_cases hi : i = n
    · subst hi
      have list : (s.touchBank i e).bankList i = (s.bankList i).map (usedNow s.now e) := SMap.get_set_same ..
      rw [list, ← List.map_reverse, List.find?_map, show ((fun b : Bank => decide (b.epoch = x)) ∘ usedNow s.now e) = fun b => decide (b.epoch = x) from
        funext fun b => by rw [Function.comp, epoch_usedNow]]
      cases (s.bankList i).reverse.find? fun b => decide (b.epoch = x) with
      | none => rfl
      | some b => exact words_usedNow
    · have list : (s.touchBank n e).bankList i = s.bankList i := SMap.get_set_other _ _ hi
      rw [list]
  unfold bankFld
  rw [words]


/-! ### The frame that a stratum-0 SOF opens (R25, R147) -/

/-- The SOF's width is kept, and the bank of the present epoch is used. -/
def sofTaken (s : State) (p w : Nat) : State := (s.setPort p { s.port p with width := some w }).touchBank p s.sys.epoch

/-- The lanes in use of the present epoch. -/
def sofUse (s : State) (p : Nat) : Nat :=
  s.bankFld p s.sys.epoch (Reg.SRX_LANE_USE_LO p) + s.bankFld p s.sys.epoch (Reg.SRX_LANE_USE_HI p) <<< 32

/-- The stamp of the frame. -/
def sofMan (s : State) (p : Nat) : Manifest :=
  { s.stamp s.tide with
    stream := s.bankFld p s.sys.epoch (Reg.SRX_STREAM_STREAM p), kind := 1, frame := s.fld (Reg.SRX_FRAME_NUM_FRAME_NUM p),
    expSet := s.bankFld p s.sys.epoch (Reg.SRX_EXPSET_SET_ID p), domain := s.bankFld p s.sys.epoch (Reg.SRX_STREAM_DOMAIN p),
    flags := (s.stamp s.tide).flags ||| (if s.portStale p (sofUse s p) then flagStale else 0) }

/-- The next frame number. -/
def numbered (s : State) (p : Nat) : State := s.setFld (Reg.SRX_FRAME_NUM_FRAME_NUM p) (s.fld (Reg.SRX_FRAME_NUM_FRAME_NUM p) + 1)

/-- The next frame number, and the port's work for the tide. -/
def sofCounted (s : State) (p : Nat) : State := (numbered s p).beginWork p (numbered s p).tide (numbered s p).tide s.sys.epoch

/-- The open frame, with the entry of the frame queue that it takes and whether its berths are acquired. -/
def newFrame (s : State) (p w : Nat) (q : Option QEnt) (rawOk mapOk : Bool) : PortFrame :=
  { raw := (q.map fun e => e.h).getD 0, map := (q.map fun e => e.h2).getD 0, entry := q.isSome, rawOk := rawOk, mapOk := mapOk,
    man := sofMan s p, width := w, use := sofUse s p, strata := [(0, some {})] }

theorem openFrame_eq (h : (s.port p).frame = none) (w : Nat) : s.openFrame p w =
    match (sofCounted (sofTaken s p w) p).popQ (fqA p) with
    | (v, none) => ((v.setFrame p (newFrame (sofTaken s p w) p w none false false)).count (Reg.SRX_FQ_STATUS_NO_BERTH p)).srxRaise p 0x10
    | (v, some q) =>
      let (v, a) := v.acquire p q.h
      let (v, b) := if q.h2 = 0 then (v, false) else v.acquire p q.h2
      v.setFrame p (newFrame (sofTaken s p w) p w (some q) a b) := by
  have closed : s.closeFrame p = s := by
    unfold closeFrame
    rw [h]
  unfold openFrame
  rw [closed]
  rfl

end Sys2Proof.Machine
end

section
/-! PROOFS. O34, the start of a frame: what an SOF does (R147, R148). -/

namespace Sys2Proof.Machine

open State

variable {s t u : State} {ps : List Part} {as : List Nat} {p w : Nat}

theorem frame_sofTaken (hp : Part.ports ∈ ps) (hs : Part.sys ∈ ps) : Frame ps as s (sofTaken s p w) :=
  (frame_setPort _ hp).trans (frame_part (Only.of_keeps (n := 4096) (keeps_touchBank p _ Keeps.refl rfl) (by decide)) hs rfl rfl)

theorem fld_sofTaken (f : Fld) : (sofTaken s p w).fld f = s.fld f := State.fld_congr rfl f

theorem bankFld_sofTaken (i e : Nat) (f : Fld) : (sofTaken s p w).bankFld i e f = s.bankFld i e f := by
  have sys : ∀ x, (s.setPort p x).sys = s.sys := fun _ => rfl
  unfold sofTaken
  rw [bankFld_touchBank, bankFld_congr (sys _)]

theorem tide_sofTaken : (sofTaken s p w).tide = s.tide := by
  unfold tide fld2
  rw [fld_sofTaken, fld_sofTaken]

theorem epoch_sofTaken : (sofTaken s p w).sys.epoch = s.sys.epoch := rfl

theorem sofUse_sofTaken : sofUse (sofTaken s p w) p = sofUse s p := by
  unfold sofUse
  rw [epoch_sofTaken, bankFld_sofTaken, bankFld_sofTaken]

theorem frame_sofCounted (hf : Part.fab ∈ ps) (ha : 0x80028 + 0x4000 * p ∈ as) : Frame ps as s (sofCounted s p) :=
  (Frame.setFld (Reg.SRX_FRAME_NUM_FRAME_NUM p) _ ha).trans (frame_fab hf)

section

variable {u n d e : Nat}

theorem fld_beginWork (f : Fld) : (s.beginWork u n d e).fld f = s.fld f := State.fld_congr rfl f

theorem berths_beginWork : (s.beginWork u n d e).fab.berths = s.fab.berths := rfl

theorem queues_beginWork : (s.beginWork u n d e).queues = s.queues := rfl

end

theorem frameNum_sofCounted : (sofCounted s p).fld (Reg.SRX_FRAME_NUM_FRAME_NUM p) = (s.fld (Reg.SRX_FRAME_NUM_FRAME_NUM p) + 1) % 2 ^ 32 := by
  unfold sofCounted
  rw [fld_beginWork]
  exact State.fld_setFld_same s (Reg.SRX_FRAME_NUM_FRAME_NUM p) _ (show 0 ≤ 31 by decide) (show 31 < 32 by decide)

theorem berths_sofCounted : (sofCounted s p).fab.berths = s.fab.berths := by
  unfold sofCounted numbered
  rw [berths_beginWork, setFld_fab]

theorem queues_sofCounted : (sofCounted s p).queues = s.queues := by
  unfold sofCounted numbered
  rw [queues_beginWork, setFld_queues]

theorem berths_sofTaken : (sofTaken s p w).fab.berths = s.fab.berths := rfl

theorem queues_sofTaken : (sofTaken s p w).queues = s.queues := rfl

theorem berth_of_berths (h : t.fab.berths = s.fab.berths) (j : Nat) : t.berth j = s.berth j := by
  unfold berth
  rw [h]

/-- The port is about to take an entry of its frame queue. -/
def sofStarted (s : State) (p w : Nat) : State := sofCounted (sofTaken s p w) p

theorem frame_sofStarted (hp : Part.ports ∈ ps) (hf : Part.fab ∈ ps) (hs : Part.sys ∈ ps) (ha : 0x80028 + 0x4000 * p ∈ as) :
    Frame ps as s (sofStarted s p w) := (frame_sofTaken hp hs).trans (frame_sofCounted hf ha)

theorem frameNum_sofStarted : (sofStarted s p w).fld (Reg.SRX_FRAME_NUM_FRAME_NUM p) = (s.fld (Reg.SRX_FRAME_NUM_FRAME_NUM p) + 1) % 2 ^ 32 := by
  unfold sofStarted
  rw [frameNum_sofCounted, fld_sofTaken]

theorem berths_sofStarted : (sofStarted s p w).fab.berths = s.fab.berths := berths_sofCounted.trans berths_sofTaken

theorem queue_sofStarted (a : Nat) : (sofStarted s p w).queue a = s.queue a := queue_congr (queues_sofCounted.trans queues_sofTaken) a

/-- What an SOF's frame takes from the state it starts in. -/
structure FrameStarted (p w : Nat) (s : State) (f : PortFrame) : Prop where
  use : f.use = sofUse s p
  width : f.width = w
  kind : f.man.kind = 1
  num : f.man.frame = s.fld (Reg.SRX_FRAME_NUM_FRAME_NUM p)
  tide : f.man.tide = s.tide
  epoch : f.man.setEpoch = s.sys.epoch
  stream : f.man.stream = s.bankFld p s.sys.epoch (Reg.SRX_STREAM_STREAM p)

theorem newFrame_started (q : Option QEnt) (a b : Bool) : FrameStarted p w s (newFrame (sofTaken s p w) p w q a b) where
  use := sofUse_sofTaken
  width := rfl
  kind := rfl
  num := fld_sofTaken _
  tide := tide_sofTaken
  epoch := epoch_sofTaken
  stream := bankFld_sofTaken _ _ _

theorem frame_setFrame (f : PortFrame) (hp : Part.ports ∈ ps) : Frame ps as s (s.setFrame p f) := frame_setPort _ hp

theorem fab_setFrame (f : PortFrame) : (s.setFrame p f).fab = s.fab := rfl

theorem queues_setFrame_withRef {h : Nat} (f : PortFrame) : ((withRef s w h).setFrame p f).queues = s.queues := rfl

theorem regs_setFrame_withRef {h : Nat} (f : PortFrame) : ((withRef s w h).setFrame p f).regs = s.regs := rfl

theorem port_setFrame (f : PortFrame) : ((s.setFrame p f).port p).frame = some f := congrArg SrxPort.frame (port_setPort_same _)

/-- Without a berth: the frame is opened, counted and shown. -/
theorem openFrame_empty (h : (s.port p).frame = none) (hq : s.queue (fqA p) = []) : s.openFrame p w =
    (((sofStarted s p w).setFrame p (newFrame (sofTaken s p w) p w none false false)).count (Reg.SRX_FQ_STATUS_NO_BERTH p)).srxRaise p 0x10 := by
  have pop : (sofStarted s p w).popQ (fqA p) = (sofStarted s p w, none) := by
    unfold popQ
    rw [queue_sofStarted, hq]
  rw [openFrame_eq h, ← sofStarted, pop]

/-- With an entry whose berth can be acquired, and without a map. -/
theorem openFrame_entry {q : QEnt} {es : List QEnt} (h : (s.port p).frame = none) (hq : s.queue (fqA p) = q :: es) (h0 : q.h ≠ 0) (h2 : q.h2 = 0)
    (hb : (s.berth q.h).st = .held) (hc : (s.berth q.h).count < 255) : s.openFrame p w =
    (withRef ((sofStarted s p w).setQueue (fqA p) es) p q.h).setFrame p (newFrame (sofTaken s p w) p w (some q) true false) := by
  have pop : (sofStarted s p w).popQ (fqA p) = ((sofStarted s p w).setQueue (fqA p) es, some q) := by
    unfold popQ
    rw [queue_sofStarted, hq]
  have berth : ((sofStarted s p w).setQueue (fqA p) es).berth q.h = s.berth q.h :=
    berth_of_berths ((congrArg Fab.berths (setQueue_fab ..)).trans berths_sofStarted) _
  have acquired : ((sofStarted s p w).setQueue (fqA p) es).acquire p q.h = (withRef ((sofStarted s p w).setQueue (fqA p) es) p q.h, true) :=
    acquire_granted h0 (by rw [berth, hb]) (by rw [berth]; exact hc)
  rw [openFrame_eq h, ← sofStarted, pop]
  dsimp only
  rw [acquired, if_pos h2]

/-! ### SOF (R147, R148) -/

theorem bits_eq_div (n hi lo : Nat) : bits n hi lo = n / 2 ^ lo % 2 ^ (hi + 1 - lo) := by
  rw [bits, Nat.shiftRight_eq_div_pow]

section

variable {p : Fin 4}

theorem sof_rests (blocks : List LaneBlock) (h : s.portState p ≠ 3 ∨ s.replaying = true) : exec (.sof p blocks) s = .next s :=
  congrArg Host.Outcome.next (if_pos h)

variable {blocks : List LaneBlock} {use : Nat} {b : LaneBlock} (hr : s.portState p = 3) (hl : s.replaying = false)
  (hf : (s.port p).frame = none) (hu : use = s.bankFld p s.sys.epoch (Reg.SRX_LANE_USE_LO p) + s.bankFld p s.sys.epoch (Reg.SRX_LANE_USE_HI p) * 2 ^ 32)
  (hg : ∀ x ∈ blocks, isCtl (s.flag (Reg.SRX_CTRL_CODE p)) 2 x.block.toNat = true) (hb : s.headBlock p use 2 blocks = some b)

include hu in
theorem sofUse_eq : sofUse s p = use := by
  unfold sofUse
  rw [hu, Nat.shiftLeft_eq]

include hr hl hf hu hg hb in
theorem exec_sof : exec (.sof p blocks) s = .next (if b.block.toNat / 256 % 4 = 0 then s.openFrame p (b.block.toNat / 1024 % 4)
    else s.startStratum p (b.block.toNat / 256 % 4) (b.block.toNat / 1024 % 4)) := by
  have run : ¬(s.portState p ≠ 3 ∨ s.replaying = true) := fun h => h.elim (fun hn => hn hr) (fun ht => by rw [hl] at ht; cases ht)
  have good : codeErrs p 2 none blocks s = s := codeErrs_good blocks s fun x hx => ⟨hg x hx, nofun⟩
  have used : s.bankFld p s.sys.epoch (Reg.SRX_LANE_USE_LO p) + s.bankFld p s.sys.epoch (Reg.SRX_LANE_USE_HI p) <<< 32 = use := sofUse_eq hu
  have kind : bits b.block.toNat 9 8 = b.block.toNat / 256 % 4 := bits_eq_div _ 9 8
  have width : bits b.block.toNat 11 10 = b.block.toNat / 1024 % 4 := bits_eq_div _ 11 10
  have e : execSof p blocks s = .next (if b.block.toNat / 256 % 4 = 0 then s.openFrame p (b.block.toNat / 1024 % 4)
      else s.startStratum p (b.block.toNat / 256 % 4) (b.block.toNat / 1024 % 4)) := by
    unfold execSof
    rw [if_neg run]
    dsimp only
    rw [good, hf]
    dsimp only
    rw [used, hb]
    dsimp only
    rw [kind, width]
  exact e

include hr hl hf hu hg hb

theorem sof_stray (hk : b.block.toNat / 256 % 4 ≠ 0) : Completes (.sof p blocks) s fun t =>
    t.flag (Reg.SRX_EVENT_STRAY p) = true ∧ t.port p = s.port p ∧ Frame [] [0x80000 + 0x4000 * p.val + 0x60] s t := by
  have stray : ∀ w, s.startStratum p (b.block.toNat / 256 % 4) w = s.srxRaise p 1 := fun w => by
    unfold startStratum
    rw [hf]
  refine ⟨s.srxRaise p 1, ?_, flag_srxRaise rfl rfl (show 0 < 32 by decide) (show Nat.testBit 1 0 = true by decide),
    port_congr (same_srxRaise (x := .ports) 1 rfl) p, frame_srxRaise 1 p.isLt (List.mem_singleton.mpr (by omega))⟩
  rw [exec_sof hr hl hf hu hg hb, if_neg hk, stray]

theorem sof_noBerth (hk : b.block.toNat / 256 % 4 = 0) (hq : s.queue (0x80000 + 0x4000 * p.val + 0x30) = []) : Completes (.sof p blocks) s fun t =>
    t.fld (Reg.SRX_FQ_STATUS_NO_BERTH p) = min (s.fld (Reg.SRX_FQ_STATUS_NO_BERTH p) + 1) 65535 ∧
    t.flag (Reg.SRX_EVENT_NO_BERTH p) = true ∧ (∃ f, (t.port p).frame = some f ∧ f.entry = false) ∧ t.fab.berths = s.fab.berths ∧
    Frame [.ports, .fab, .queues, .sys]
      [0x80000 + 0x4000 * p.val + 0x28, 0x80000 + 0x4000 * p.val + 0x34, 0x80000 + 0x4000 * p.val + 0x60] s t := by
  have words : ∀ a ∈ [0x80028 + 0x4000 * p.val, 0x80034 + 0x4000 * p.val, 0x80060 + 0x4000 * p.val],
      a ∈ [0x80000 + 0x4000 * p.val + 0x28, 0x80000 + 0x4000 * p.val + 0x34, 0x80000 + 0x4000 * p.val + 0x60] := fun a ha => by
    simp only [List.mem_cons, List.not_mem_nil, or_false] at ha ⊢
    omega
  have queue : s.queue (fqA p) = [] := by
    rw [← hq]
    exact congrArg s.queue (by unfold fqA; omega)
  have e := exec_sof hr hl hf hu hg hb
  rw [if_pos hk, openFrame_empty hf queue] at e
  generalize b.block.toNat / 1024 % 4 = w at e
  have opened : Frame [.ports, .fab, .queues, .sys] [0x80028 + 0x4000 * p.val] s
      ((sofStarted s p w).setFrame p (newFrame (sofTaken s p w) p w none false false)) :=
    (frame_sofStarted (by decide) (by decide) (by decide) List.mem_cons_self).trans (frame_setFrame _ (by decide))
  have berths : ((sofStarted s p w).setFrame p (newFrame (sofTaken s p w) p w none false false)).fab.berths = s.fab.berths :=
    (congrArg Fab.berths (fab_setFrame _)).trans berths_sofStarted
  have port := port_setFrame (s := sofStarted s p w) (p := p) (newFrame (sofTaken s p w) p w none false false)
  generalize (sofStarted s p w).setFrame p (newFrame (sofTaken s p w) p w none false false) = v at e opened berths port
  have kept : Keeps 17288 v ((v.count (Reg.SRX_FQ_STATUS_NO_BERTH p)).srxRaise p 0x10) :=
    keeps_srxRaise _ _ (keeps_count _ _ Keeps.refl rfl) rfl
  refine ⟨_, e, ?_, flag_srxRaise rfl rfl (show 4 < 32 by decide) (show Nat.testBit 16 4 = true by decide),
    ⟨_, (congrArg SrxPort.frame (port_congr (kept.same .ports rfl) p)).trans port, rfl⟩, (congrArg Fab.berths (kept.same .fab rfl)).trans berths, ?_⟩
  · refine (fld_srxRaise 0x10 (show 0x80000 ≤ 0x80034 + 0x4000 * p.val by omega) (show 0x80034 + 0x4000 * p.val ≠ _ by omega)).trans ?_
    rw [State.fld_count_same 1 (show 16 ≤ 31 by decide) (show 31 < 32 by decide),
      opened.cameraFld (f := Reg.SRX_FQ_STATUS_NO_BERTH p) (x := 0x80034 + 0x4000 * p.val) rfl (by omega) (by rw [List.mem_singleton]; omega)]
    rfl
  · have counted : Frame [.ports, .fab, .queues, .sys] [0x80028 + 0x4000 * p.val, 0x80034 + 0x4000 * p.val, 0x80060 + 0x4000 * p.val] s
        ((v.count (Reg.SRX_FQ_STATUS_NO_BERTH p)).srxRaise p 0x10) :=
      ((opened.mono (fun _ h => h) fun x hx => by rw [List.mem_singleton.mp hx]; exact List.mem_cons_self).trans
        (frame_countPort (p := p) (f := Reg.SRX_FQ_STATUS_NO_BERTH p) 0x34 (by decide) (show 0x80034 + 0x4000 * p.val = _ by omega)
          (List.mem_cons_of_mem _ List.mem_cons_self))).trans
        (frame_srxRaise 0x10 p.isLt (List.mem_cons_of_mem _ (List.mem_cons_of_mem _ List.mem_cons_self)))
    exact counted.mono (fun _ h => h) words

theorem sof_opens {q : QEnt} {es : List QEnt} (hk : b.block.toNat / 256 % 4 = 0) (hq : s.queue (0x80000 + 0x4000 * p.val + 0x30) = q :: es)
    (h0 : q.h ≠ 0) (h2 : q.h2 = 0) (hs : (s.berth q.h).st = .held) (hc : (s.berth q.h).count < 255) : Completes (.sof p blocks) s fun t =>
    t.queue (0x80000 + 0x4000 * p.val + 0x30) = es ∧ (t.berth q.h).count = (s.berth q.h).count + 1 ∧
    t.fld (Reg.SRX_FRAME_NUM_FRAME_NUM p) = (s.fld (Reg.SRX_FRAME_NUM_FRAME_NUM p) + 1) % 2 ^ 32 ∧
    (∃ f, (t.port p).frame = some f ∧ f.raw = q.h ∧ f.map = 0 ∧ f.entry = true ∧ f.rawOk = true ∧ f.use = use ∧
      f.width = b.block.toNat / 1024 % 4 ∧ f.man.kind = 1 ∧ f.man.frame = s.fld (Reg.SRX_FRAME_NUM_FRAME_NUM p) ∧
      f.man.tide = s.tide ∧ f.man.setEpoch = s.sys.epoch ∧ f.man.stream = s.bankFld p s.sys.epoch (Reg.SRX_STREAM_STREAM p)) ∧
    Frame [.ports, .fab, .queues, .sys] [0x80000 + 0x4000 * p.val + 0x28] s t := by
  have queue : fqA p = 0x80000 + 0x4000 * p.val + 0x30 := by unfold fqA; omega
  have e := exec_sof hr hl hf hu hg hb
  rw [if_pos hk, openFrame_entry hf (queue ▸ hq) h0 h2 hs hc] at e
  have started := newFrame_started (s := s) (p := p) (w := b.block.toNat / 1024 % 4) (some q) true false
  generalize b.block.toNat / 1024 % 4 = w at e started
  have ready : Frame [.ports, .fab, .queues, .sys] [0x80000 + 0x4000 * p.val + 0x28] s ((sofStarted s p w).setQueue (fqA p) es) :=
    (frame_sofStarted (by decide) (by decide) (by decide) (List.mem_singleton.mpr (by omega))).trans (frame_setQueue _ _ (by decide))
  have num : ((sofStarted s p w).setQueue (fqA p) es).fld (Reg.SRX_FRAME_NUM_FRAME_NUM p) = _ := (State.fld_congr (setQueue_regs ..) _).trans frameNum_sofStarted
  have taken : ((sofStarted s p w).setQueue (fqA p) es).queue (fqA p) = es := queue_setQueue_same ..
  have berths : ((sofStarted s p w).setQueue (fqA p) es).berth q.h = s.berth q.h :=
    berth_of_berths ((congrArg Fab.berths (setQueue_fab ..)).trans berths_sofStarted) _
  generalize (sofStarted s p w).setQueue (fqA p) es = v at e ready num taken berths
  obtain ⟨hu', hw, hkind, hnum, htide, hepoch, hstream⟩ := started
  refine ⟨_, e, ?_, ?_, ?_, ⟨_, port_setFrame _, rfl, h2, rfl, rfl, hu'.trans (sofUse_eq hu), hw, hkind, hnum, htide, hepoch, hstream⟩, ?_⟩
  · rw [← queue]
    exact (queue_congr (queues_setFrame_withRef _) _).trans taken
  · have counted : (((withRef v p q.h).setFrame p (newFrame (sofTaken s p w) p w (some q) true false)).berth q.h) = (withRef v p q.h).berth q.h :=
      berth_congr (fab_setFrame _) _
    rw [counted, berth_withRef_same, berths]
  · exact (State.fld_congr (regs_setFrame_withRef _) _).trans num
  · exact ready.trans ((frame_withRef (by decide)).trans (frame_setFrame _ (by decide)))

end

end Sys2Proof.Machine
end

section
/-! PROOFS. O34, the rows of a frame: SEAM's header, and the row whose CRC fails (R149, R150, R155). -/

namespace Sys2Proof.Machine

open State

variable {s t u : State} {ps : List Part} {as : List Nat} {p k n : Nat} {f : PortFrame}

/-! ### What does not see the ports -/

theorem flag_congr (h : t.regs = s.regs) (x : Fld) : t.flag x = s.flag x := flag_of_fld (State.fld_congr h x)

theorem physOf_congr (hr : t.regs = s.regs) (hl : t.lanes = s.lanes) (x : Nat) : t.physOf p x = s.physOf p x := by
  unfold physOf sensorOf
  simp only [lane_congr hl, State.fld_congr hr]

theorem headBlock_congr (hr : t.regs = s.regs) (hl : t.lanes = s.lanes) (use kind : Nat) (bs : List LaneBlock) :
    t.headBlock p use kind bs = s.headBlock p use kind bs := by
  unfold headBlock laneState
  simp only [physOf_congr hr hl, State.fld_congr hr, flag_congr hr]

theorem headBlock_nil (use kind : Nat) : s.headBlock p use kind [] = none := by
  unfold headBlock
  rw [List.findSome?_eq_none_iff]
  intro x _
  split
  · rfl
  · split
    · rfl
    · rfl

theorem frameFld_congr (h : t.sys = s.sys) (x : Fld) : t.frameFld p f x = s.frameFld p f x := bankFld_congr h _ _ _

theorem frameRows_congr (h : t.sys = s.sys) : t.frameRows p f = s.frameRows p f := congrArg (· + 1) (frameFld_congr h _)

theorem frameStride_congr (h : t.sys = s.sys) : t.frameStride p f = s.frameStride p f := by
  unfold frameStride framePacked frameSamples
  rw [frameFld_congr h, frameFld_congr h]

/-! ### Strata and flags of a frame -/

theorem stratum_setStratum (x : Stratum) : stratum (setStratum f k x) k = some x := by
  show SMap.get (fun _ => none) (f.strata.set (fun _ => none) k (some x)) k = some x
  exact SMap.get_set_same ..

theorem frameStride_setStratum (x : Stratum) : s.frameStride p (setStratum f k x) = s.frameStride p f := rfl

theorem drop_frameFlag : bit (frameFlag f flagDrop).man.flags 3 = true := by
  unfold bit
  show (f.man.flags ||| flagDrop).testBit 3 = true
  rw [Nat.testBit_or, show flagDrop.testBit 3 = true from rfl, Bool.or_true]

/-! ### The elastic buffer -/

theorem frame_ebSub (hp : Part.ports ∈ ps) : Frame ps as s (s.ebSub p n) := frame_setPort _ hp

theorem port_ebSub : (s.ebSub p n).port p = { s.port p with level := (s.port p).level - n } := port_setPort_same _

theorem regs_ebSub : (s.ebSub p n).regs = s.regs := rfl

theorem lanes_ebSub : (s.ebSub p n).lanes = s.lanes := rfl

theorem sys_ebSub : (s.ebSub p n).sys = s.sys := rfl

theorem frame_ebAdd (hp : Part.ports ∈ ps) (ha : 0x8007C + 0x4000 * p ∈ as) : Frame ps as s (s.ebAdd p n) := by
  unfold ebAdd
  dsimp only
  split
  · exact (frame_setPort _ hp).trans (Frame.setFld (Reg.SRX_EB_HIGH p) _ ha)
  · exact frame_setPort _ hp

theorem port_ebAdd : (s.ebAdd p n).port p = { s.port p with level := (s.port p).level + n } := by
  unfold ebAdd
  dsimp only
  split
  · exact (port_congr (setFld_ports ..) p).trans (port_setPort_same _)
  · exact port_setPort_same _

/-! ### SEAM -/

section

variable {p : Fin 4} {blocks : List LaneBlock} {prev : List LaneBytes}

theorem seam_rests (d : Nat) (h : s.portState p ≠ 3 ∨ s.replaying = true) : exec (.seam p blocks prev d) s = .next s :=
  congrArg Host.Outcome.next (if_pos h)

variable {b : LaneBlock} (hr : s.portState p = 3) (hl : s.replaying = false) (hf : (s.port p).frame = some f)

include hf in
theorem useNow_frame : s.useNow p = f.use := by
  unfold useNow
  rw [hf]

/-- The port has its SEAM's blocks before it, and 0 bytes have left the buffer. -/
theorem useNow_ebSub : (s.ebSub p n).useNow p = s.useNow p := by
  unfold useNow laneUse fld2
  rw [port_ebSub, State.fld_congr regs_ebSub, State.fld_congr regs_ebSub]

theorem settleRow_none (h : (s.port p).row = none) (crc : Option Nat) : s.settleRow p prev crc = s := by
  unfold settleRow
  rw [h]

section

include hr hl hf

/-- One good SEAM block, and no row that waits: the block's header is next. -/
theorem exec_seam_block (hn : (s.port p).row = none) (hc : isCtl (s.flag (Reg.SRX_CTRL_CODE p)) 3 b.block.toNat = true)
    (h0 : s.pos0 p f.use [b] = some b.pos) : exec (.seam p [b] [] 0) s = .next (
      match s.headBlock p f.use 3 [b] with
      | none => (s.ebSub p 0).count (Reg.SRX_ROW_CNT_HDR p)
      | some b => (s.ebSub p 0).acceptRow p (bits b.block.toNat 63 40)) := by
  have run : ¬(s.portState p ≠ 3 ∨ s.replaying = true) := fun h => h.elim (fun hn => hn hr) (fun ht => by rw [hl] at ht; cases ht)
  have good : codeErrs p 3 (some b.pos) [b] (s.ebSub p 0) = s.ebSub p 0 := codeErrs_good [b] _ fun x hx => by
    rw [List.mem_singleton.mp hx, flag_congr regs_ebSub]
    exact ⟨hc, fun y hy => Option.some.inj hy⟩
  have row : ((s.ebSub p 0).port p).row = none := by rw [port_ebSub, hn]
  have e : execSeam p [b] [] 0 s = .next (
      match s.headBlock p f.use 3 [b] with
      | none => (s.ebSub p 0).count (Reg.SRX_ROW_CNT_HDR p)
      | some b => (s.ebSub p 0).acceptRow p (bits b.block.toNat 63 40)) := by
    unfold execSeam
    rw [if_neg run, useNow_frame hf, h0]
    dsimp only
    rw [good, useNow_ebSub, useNow_frame hf, headBlock_congr regs_ebSub lanes_ebSub]
    simp only [settleRow_none row] <;> rfl
  exact e

end

theorem seam_failedHeader (hr : s.portState p = 3) (hl : s.replaying = false) (hf : (s.port p).frame = some f) (hn : (s.port p).row = none)
    (hc : isCtl (s.flag (Reg.SRX_CTRL_CODE p)) 3 b.block.toNat = true) (h0 : s.pos0 p f.use [b] = some b.pos) (hb : s.headBlock p f.use 3 [b] = none) :
    Completes (.seam p [b] [] 0) s fun t =>
      t.fld (Reg.SRX_ROW_CNT_HDR p) = min (s.fld (Reg.SRX_ROW_CNT_HDR p) + 1) 65535 ∧ (t.port p).frame = some f ∧
      Frame [.ports] [0x80000 + 0x4000 * p.val + 0x74] s t := by
  refine ⟨(s.ebSub p 0).count (Reg.SRX_ROW_CNT_HDR p), ?_, ?_, ?_, ?_⟩
  · rw [exec_seam_block hr hl hf hn hc h0, hb]
  · rw [State.fld_count_same 1 (show 0 ≤ 15 by decide) (show 15 < 32 by decide), State.fld_congr regs_ebSub]
    rfl
  · have ports : ((s.ebSub p 0).count (Reg.SRX_ROW_CNT_HDR p)).ports = (s.ebSub p 0).ports := (keeps_count (L := 264) _ _ Keeps.refl rfl).same .ports rfl
    rw [port_congr ports, port_ebSub]
    exact hf
  · exact (frame_ebSub (by decide)).trans (frame_countPort (p := p) 0x74 (by decide) (show 0x80074 + 0x4000 * p.val = _ by omega)
      (List.mem_singleton.mpr (show 0x80074 + 0x4000 * p.val = _ by omega)))

end

/-! ### The header of a row (R149, R150) -/

/-- A row whose header is accepted: its stratum goes on to the next row, its bytes are in the buffer, and it waits for its CRC. -/
def rowAccepted (s : State) (p : Nat) (f : PortFrame) (x : Stratum) (k r : Nat) : State :=
  let t := (s.setFrame p (setStratum f k { x with next := r + 1 })).ebAdd p (s.frameStride p f)
  t.setPort p { t.port p with row := some (k, r, s.now) }

theorem acceptRow_next {x : Stratum} {hdr k r : Nat} (hf : (s.port p).frame = some f) (hk : bits hdr 16 15 = k) (hr : bits hdr 14 0 = r)
    (hn : bits hdr 22 17 + 1 = (onesBelow 64 f.use).length) (hx : stratum f k = some x) (ho : x.closed = false) (hnext : x.next = r) (he : f.entry = true)
    (hrow : r < s.frameRows p f) (room : (s.port p).level + s.frameStride p f ≤ 8388608) :
    s.acceptRow p hdr = rowAccepted s p f x k r := by
  have fits : (s.setFrame p (setStratum f k { x with next := r + 1 })).ebRoom p (s.frameStride p f) = true := by
    unfold ebRoom setFrame
    rw [port_setPort_same]
    exact decide_eq_true room
  have stride : (s.setFrame p (setStratum f k { x with next := r + 1 })).frameStride p (setStratum f k { x with next := r + 1 }) = s.frameStride p f :=
    (frameStride_congr rfl).trans (frameStride_setStratum _)
  unfold acceptRow
  rw [hf, hk, hr]
  dsimp only
  rw [hx]
  dsimp only
  rw [if_neg (by rw [ho, hn, hnext]; simp), he, if_neg (by decide), if_neg (Nat.not_le.mpr hrow), if_neg (show ¬x.next < r by omega)]
  dsimp only
  rw [hx, Option.getD_some, stride, if_pos fits]
  rfl

theorem port_rowAccepted {x : Stratum} {r : Nat} : (rowAccepted s p f x k r).port p =
    { s.port p with level := (s.port p).level + s.frameStride p f, frame := some (setStratum f k { x with next := r + 1 }), row := some (k, r, s.now) } := by
  unfold rowAccepted setFrame
  rw [port_setPort_same, port_ebAdd, port_setPort_same]

theorem frame_rowAccepted {x : Stratum} {r : Nat} (hp : Part.ports ∈ ps) (ha : 0x8007C + 0x4000 * p ∈ as) : Frame ps as s (rowAccepted s p f x k r) :=
  ((frame_setFrame _ hp).trans (frame_ebAdd hp ha)).trans (frame_setPort _ hp)

section

variable {p : Fin 4} {b : LaneBlock}

theorem seam_accepts {x : Stratum} {r : Nat} (hr : s.portState p = 3) (hl : s.replaying = false) (hf : (s.port p).frame = some f) (hn : (s.port p).row = none)
    (hc : isCtl (s.flag (Reg.SRX_CTRL_CODE p)) 3 b.block.toNat = true) (h0 : s.pos0 p f.use [b] = some b.pos) (hb : s.headBlock p f.use 3 [b] = some b)
    (hk : k = b.block.toNat / 2 ^ 55 % 4) (hrow : r = b.block.toNat / 2 ^ 40 % 2 ^ 15)
    (hlanes : b.block.toNat / 2 ^ 57 % 64 + 1 = (onesBelow 64 f.use).length) (hx : stratum f k = some x) (ho : x.closed = false) (hnext : x.next = r)
    (he : f.entry = true) (hrows : r < s.frameRows p f) (room : (s.port p).level + s.frameStride p f ≤ 8388608) :
    Completes (.seam p [b] [] 0) s fun t =>
      (t.port p).row = some (k, r, s.now) ∧ (t.port p).level = (s.port p).level + s.frameStride p f ∧
      (∃ g, (t.port p).frame = some g ∧ stratum g k = some { x with next := r + 1 } ∧ g.man = f.man) ∧
      Frame [.ports] [0x80000 + 0x4000 * p.val + 0x7C] s t := by
  have rows : (s.ebSub p 0).frameRows p f = s.frameRows p f := frameRows_congr sys_ebSub
  have stride : (s.ebSub p 0).frameStride p f = s.frameStride p f := frameStride_congr sys_ebSub
  have accepted : (s.ebSub p 0).acceptRow p (bits b.block.toNat 63 40) = rowAccepted (s.ebSub p 0) p f x k r := by
    refine acceptRow_next (by rw [port_ebSub, hf]) ?_ ?_ ?_ hx ho hnext he (by rwa [rows]) (by rwa [port_ebSub, stride])
    all_goals
      simp only [bits_eq_div]
      omega
  have port := port_rowAccepted (s := s.ebSub p 0) (p := p) (f := f) (x := x) (k := k) (r := r)
  rw [port_ebSub, stride] at port
  refine ⟨rowAccepted (s.ebSub p 0) p f x k r, ?_, ?_, ?_, ⟨_, congrArg SrxPort.frame port, stratum_setStratum _, rfl⟩, ?_⟩
  · rw [exec_seam_block hr hl hf hn hc h0, hb, ← accepted]
  · rw [port]
    rfl
  · rw [port]
    rfl
  · exact (frame_ebSub (by decide)).trans (frame_rowAccepted (by decide) (List.mem_singleton.mpr (by omega)))

end

end Sys2Proof.Machine
end

section
/-! PROOFS. O34, a row whose CRC fails (R150, R151). -/

namespace Sys2Proof.Machine

open State

variable {s t u : State} {ps : List Part} {as : List Nat} {p k n : Nat} {f : PortFrame} {x : Stratum}

/-- The row that waited is gone, and its bytes have left the buffer. -/
def rowGone (s : State) (p : Nat) (f : PortFrame) : State := (s.setPort p { s.port p with row := none }).ebSub p (s.frameStride p f)

theorem frame_rowGone (hp : Part.ports ∈ ps) : Frame ps as s (rowGone s p f) := (frame_setPort _ hp).trans (frame_ebSub hp)

theorem port_rowGone : (rowGone s p f).port p = { s.port p with row := none, level := (s.port p).level - s.frameStride p f } := by
  unfold rowGone
  rw [port_ebSub, port_setPort_same]

/-- The frame without the run of stratum `k`, and with the flag of a dropped row. -/
def droppedFrame (f : PortFrame) (k : Nat) (x : Stratum) : PortFrame := frameFlag (setStratum f k { x with run := [] }) flagDrop

/-- Rows of a frame without an entry are not emitted. -/
theorem emitRows_noEntry (he : f.entry = false) (first : Nat) (rows : List (List Byte)) : s.emitRows p f k first rows = s :=
  if_pos (.inr (by rw [he]; rfl))

theorem dropRow_noEntry (he : f.entry = false) (hx : stratum f k = some x) : s.dropRow p f k =
    (((s.setFrame p (setStratum f k { x with run := [] })).setFrame p (droppedFrame f k x)).srxRaise p 8, droppedFrame f k x) := by
  unfold dropRow flushRun
  rw [hx]
  dsimp only
  rw [emitRows_noEntry he]
  rfl

theorem settleRow_fails {prev : List LaneBytes} {r : Nat} (hrow : (s.port p).row = some (k, r, n)) (hf : (s.port p).frame = some f) :
    s.settleRow p prev none = ((rowGone s p f).dropRow p f k).1.count (Reg.SRX_DROP_CNT_CRC p) := by
  unfold settleRow
  rw [hrow, hf]
  rfl

/-- A row that fails its CRC, in a frame without an entry. -/
def rowFailed (s : State) (p : Nat) (f : PortFrame) (k : Nat) (x : Stratum) : State :=
  ((((rowGone s p f).setFrame p (setStratum f k { x with run := [] })).setFrame p (droppedFrame f k x)).srxRaise p 8).count (Reg.SRX_DROP_CNT_CRC p)

section

variable {p : Fin 4}

theorem frame_rowFailed (hp : Part.ports ∈ ps) (he : 0x80060 + 0x4000 * p.val ∈ as) (hd : 0x80070 + 0x4000 * p.val ∈ as) :
    Frame ps as s (rowFailed s p f k x) :=
  ((((frame_rowGone hp).trans (frame_setFrame _ hp)).trans (frame_setFrame _ hp)).trans (frame_srxRaise 8 p.isLt he)).trans
    (frame_countPort (p := p) 0x70 (by decide) (show 0x80070 + 0x4000 * p.val = _ by omega) hd)

theorem port_rowFailed : (rowFailed s p f k x).port p =
    { s.port p with row := none, level := (s.port p).level - s.frameStride p f, frame := some (droppedFrame f k x) } := by
  have ports : ∀ v : State, ((v.srxRaise p 8).count (Reg.SRX_DROP_CNT_CRC p)).ports = v.ports := fun v =>
    (keeps_count (L := 17288) _ 1 (keeps_srxRaise _ _ Keeps.refl rfl) rfl).same .ports rfl
  unfold rowFailed
  rw [port_congr (ports _), setFrame, port_setPort_same, setFrame, port_setPort_same, port_rowGone]

theorem fld_rowFailed : (rowFailed s p f k x).fld (Reg.SRX_DROP_CNT_CRC p) = min (s.fld (Reg.SRX_DROP_CNT_CRC p) + 1) 65535 := by
  unfold rowFailed
  rw [State.fld_count_same 1 (show 0 ≤ 15 by decide) (show 15 < 32 by decide),
    fld_srxRaise 8 (show 0x80000 ≤ 0x80070 + 0x4000 * p.val by omega) (show 0x80070 + 0x4000 * p.val ≠ _ by omega), setFrame, setFrame, fld_setPort, fld_setPort,
    rowGone, ebSub, fld_setPort, fld_setPort]
  rfl

theorem event_rowFailed : (rowFailed s p f k x).flag (Reg.SRX_EVENT_DROP p) = true := by
  refine (flag_of_fld ?_).trans (flag_srxRaise (s := ((rowGone s p f).setFrame p (setStratum f k { x with run := [] })).setFrame p (droppedFrame f k x))
    (p := p) (m := 8) rfl rfl (show 3 < 32 by decide) (show Nat.testBit 8 3 = true by decide))
  exact State.fld_count_addr 1 (show 0x80060 + 0x4000 * p.val ≠ 0x80070 + 0x4000 * p.val by omega)

/-- A SEAM without blocks, while a row waits: the row fails, and so does the header. -/
theorem exec_seam_empty {r : Nat} (hr : s.portState p = 3) (hl : s.replaying = false) (hf : (s.port p).frame = some f) (hrow : (s.port p).row = some (k, r, n))
    (he : f.entry = false) (hx : stratum f k = some x) :
    exec (.seam p [] [] 0) s = .next ((rowFailed (s.ebSub p 0) p f k x).count (Reg.SRX_ROW_CNT_HDR p)) := by
  have run : ¬(s.portState p ≠ 3 ∨ s.replaying = true) := fun h => h.elim (fun hn => hn hr) (fun ht => by rw [hl] at ht; cases ht)
  have row : ((s.ebSub p 0).port p).row = some (k, r, n) := by rw [port_ebSub, hrow]
  have frame : ((s.ebSub p 0).port p).frame = some f := by rw [port_ebSub, hf]
  have e : execSeam p [] [] 0 s = .next ((rowFailed (s.ebSub p 0) p f k x).count (Reg.SRX_ROW_CNT_HDR p)) := by
    unfold execSeam
    rw [if_neg run]
    dsimp only
    rw [show codeErrs p 3 (s.pos0 p (s.useNow p) []) [] (s.ebSub p 0) = s.ebSub p 0 from rfl, headBlock_nil]
    dsimp only
    rw [settleRow_fails row frame, dropRow_noEntry he hx]
    rfl
  exact e

theorem seam_drops {r : Nat} (hr : s.portState p = 3) (hl : s.replaying = false) (hf : (s.port p).frame = some f) (hrow : (s.port p).row = some (k, r, n))
    (he : f.entry = false) (hx : stratum f k = some x) : Completes (.seam p [] [] 0) s fun t =>
      t.fld (Reg.SRX_DROP_CNT_CRC p) = min (s.fld (Reg.SRX_DROP_CNT_CRC p) + 1) 65535 ∧ t.flag (Reg.SRX_EVENT_DROP p) = true ∧
      (t.port p).row = none ∧ (∃ g, (t.port p).frame = some g ∧ bit g.man.flags 3 = true ∧ stratum g k = some { x with run := [] }) ∧
      Frame [.ports] [0x80000 + 0x4000 * p.val + 0x60, 0x80000 + 0x4000 * p.val + 0x70, 0x80000 + 0x4000 * p.val + 0x74] s t := by
  have counted : ∀ v : State, (v.count (Reg.SRX_ROW_CNT_HDR p)).ports = v.ports := fun v => (keeps_count (L := 264) _ _ Keeps.refl rfl).same .ports rfl
  have other : ∀ (v : State) (g : Fld), g.addr ≠ 0x80074 + 0x4000 * p.val → (v.count (Reg.SRX_ROW_CNT_HDR p)).fld g = v.fld g :=
    fun v g hg => State.fld_count_addr 1 hg
  have port : ((rowFailed (s.ebSub p 0) p f k x).count (Reg.SRX_ROW_CNT_HDR p)).port p = _ := (port_congr (counted _) p).trans port_rowFailed
  refine ⟨_, exec_seam_empty hr hl hf hrow he hx, ?_, ?_, congrArg SrxPort.row port, ⟨_, congrArg SrxPort.frame port, drop_frameFlag, ?_⟩, ?_⟩
  · rw [other _ _ (show 0x80070 + 0x4000 * p.val ≠ _ by omega), fld_rowFailed, State.fld_congr regs_ebSub]
  · exact (flag_of_fld (other _ _ (show 0x80060 + 0x4000 * p.val ≠ _ by omega))).trans event_rowFailed
  · exact stratum_setStratum (f := f) { x with run := [] }
  · refine (frame_ebSub (by decide)).trans ((frame_rowFailed (by decide) ?_ ?_).trans
      (frame_countPort (p := p) 0x74 (by decide) (show 0x80074 + 0x4000 * p.val = _ by omega) (show 0x80074 + 0x4000 * p.val ∈ _ from ?_)))
    all_goals
      simp only [List.mem_cons, List.not_mem_nil, or_false]
      omega

end

end Sys2Proof.Machine
end

section
/-! PROOFS. O34, the end of a frame: the EOF of its last stratum, and a frame that came too late (R44, R148, R154 to R156, R165). -/

namespace Sys2Proof.Machine

open State

variable {s t u : State} {ps : List Part} {as : List Nat} {p k n : Nat} {f : PortFrame} {x : Stratum}

/-! ### The parts of a frame's end -/

theorem mem_endWork {d : Nat} {w : Work} (h : w ∈ (s.endWork n d).fab.work) : ¬(w.unit = n ∧ w.tide = d) := by
  obtain ⟨-, hw⟩ := List.mem_filter.mp h
  rintro ⟨hu, hd⟩
  rw [hu, hd, decide_eq_true rfl, decide_eq_true rfl] at hw
  cases hw

theorem berths_endWork {d : Nat} : (s.endWork n d).fab.berths = s.fab.berths := rfl

theorem berths_frameEnded : (frameEnded s p f).fab.berths = s.fab.berths := by
  have counted : (frameCounted (s.setPort p { s.port p with frame := none }) p f).fab = s.fab :=
    (keeps_frameCounted (L := 264) f Keeps.refl rfl).same .fab rfl
  unfold frameEnded
  rw [berths_endWork, counted]

theorem keeps_frameEnded : Keeps 4196616 s (frameEnded s p f) :=
  keeps_endWork _ _ (keeps_frameCounted f (keeps_setPort _ _ Keeps.refl rfl) rfl) rfl

theorem keeps_frameLogged_noMap (h : f.map = 0) : Keeps 148360 s (frameLogged s p f) := by
  unfold frameLogged
  rw [if_pos h]
  exact keeps_logRec _ _ _ _ Keeps.refl rfl

/-- Under AUTO the frame stands at the end of the pipeline's input queue, if that has room. -/
theorem queue_framePushed : (framePushed s p f).queue (pipeInQ p) =
    if s.flag (Reg.PIPE_CTRL_AUTO p) = true ∧ (s.queue (pipeInQ p)).length < 4 then s.queue (pipeInQ p) ++ [⟨f.raw, f.map, false⟩]
    else s.queue (pipeInQ p) := by
  unfold framePushed
  by_cases auto : s.flag (Reg.PIPE_CTRL_AUTO p) = true
  · rw [if_pos auto]
    by_cases room : (s.queue (pipeInQ p)).length < 4
    · rw [if_pos ⟨auto, room⟩, pipeInPush_room room, queue_setQueue_same]
    · rw [if_neg fun h => room h.2, pipeInPush_full (Nat.not_lt.mp room)]
      exact queue_congr ((keeps_raise (L := 17288) _ _ _ _ _ (keeps_count _ _ Keeps.refl rfl) rfl).same .queues rfl) _
  · rw [if_neg auto, if_neg fun h => auto h.1]

/-- The raw berth alone is given back, and BERTH_REL names it. -/
theorem frameGiven_raw (hr : f.rawOk = true) (hm : f.mapOk = false) (hn : s.noFollower) (h0 : f.raw ≠ 0) (hs : (s.berth f.raw).st ≠ .free)
    (hc : 0 < (s.berth f.raw).count) : frameGiven s p f = (withoutRef s p f.raw).berthRel p f.raw f.man.frame f.man.flags := by
  unfold frameGiven
  rw [hr, if_pos rfl, release_noFollower hn, releaseTable_counted h0 hs hc, hm]
  dsimp only
  rw [if_neg Bool.false_ne_true]

/-! ### The last stratum closes (R154, R156) -/

/-- The frame with stratum `k` closed. -/
def stratumClosed (f : PortFrame) (k : Nat) (x : Stratum) : PortFrame :=
  setStratum (setStratum f k { x with run := [] }) k { x with run := [], closed := true }

/-- A stratum that holds no run and all its rows closes. -/
theorem closeStratum_whole {c : Nat} (hx : stratum f k = some x) (hr : x.run = []) (hc : c = s.frameRows p f) (hv : x.valid = 2 ^ s.frameRows p f - 1) :
    s.closeStratum p f k c false =
      ((s.setFrame p (setStratum f k { x with run := [] })).setFrame p (stratumClosed f k x), stratumClosed f k x) := by
  have flush : s.flushRun p f k = (s.setFrame p (setStratum f k { x with run := [] }), setStratum f k { x with run := [] }) := by
    unfold flushRun
    rw [hx]
    dsimp only
    rw [hr, emitRows, if_pos (.inl rfl)]
  have rows : (s.setFrame p (setStratum f k { x with run := [] })).frameRows p (setStratum f k { x with run := [] }) = s.frameRows p f := frameRows_congr rfl
  have all : x.valid % 2 ^ min c (s.frameRows p f) = 2 ^ min c (s.frameRows p f) - 1 := by
    rw [hc, Nat.min_self, hv]
    exact Nat.mod_eq_of_lt (Nat.sub_lt (Nat.two_pow_pos _) Nat.one_pos)
  unfold closeStratum
  dsimp only
  rw [hx]
  dsimp only
  rw [flush]
  dsimp only
  rw [stratum_setStratum, Option.getD_some, rows, if_pos all]
  rfl

/-- The port's only stratum closed, its frame is done. -/
theorem eofStratum_whole {c : Nat} (hf : (s.port p).frame = some f) (hx : stratum f 0 = some x) (ho : x.closed = false) (hr : x.run = [])
    (hc : c = s.frameRows p f) (hv : x.valid = 2 ^ s.frameRows p f - 1) (h1 : s.frameStrata p f = 1) : s.eofStratum p 0 c =
      ((s.setFrame p (setStratum f 0 { x with run := [] })).setFrame p (stratumClosed f 0 x)).finishFrame p (stratumClosed f 0 x) := by
  have strata : ((s.setFrame p (setStratum f 0 { x with run := [] })).setFrame p (stratumClosed f 0 x)).frameStrata p (stratumClosed f 0 x) = 1 :=
    h1 ▸ congrArg (· + 1) (frameFld_congr (p := p) (f := f) rfl _)
  have closed : stratum (stratumClosed f 0 x) 0 = some { x with run := [], closed := true } := stratum_setStratum _
  unfold eofStratum
  rw [hf]
  dsimp only
  rw [hx]
  dsimp only
  rw [if_neg (show ¬x.closed = true by rw [ho]; exact Bool.false_ne_true), if_neg (show ¬s.frameRows p f < c by omega)]
  dsimp only
  rw [decide_eq_false (show ¬c < s.frameRows p f by omega), closeStratum_whole hx hr hc hv]
  dsimp only
  rw [strata, if_pos (List.all_eq_true.mpr fun j hj => by
    have : j = 0 := by have := List.mem_range.mp hj; omega
    subst this
    rw [closed])]

/-! ### EOF -/

section

variable {p : Fin 4} {b : LaneBlock}

theorem eof_rests (blocks : List LaneBlock) (prev : List LaneBytes) (d : Nat) (h : s.portState p ≠ 3 ∨ s.replaying = true) :
    exec (.eof p blocks prev d) s = .next s := congrArg Host.Outcome.next (if_pos h)

theorem exec_eof_block (hr : s.portState p = 3) (hl : s.replaying = false) (hf : (s.port p).frame = some f) (hn : (s.port p).row = none)
    (hc : isCtl (s.flag (Reg.SRX_CTRL_CODE p)) 4 b.block.toNat = true) (hb : s.headBlock p f.use 4 [b] = some b) :
    exec (.eof p [b] [] 0) s = .next ((s.ebSub p 0).eofStratum p (b.block.toNat / 2 ^ 56 % 4) (b.block.toNat / 2 ^ 40 % 65536)) := by
  have run : ¬(s.portState p ≠ 3 ∨ s.replaying = true) := fun h => h.elim (fun hn => hn hr) (fun ht => by rw [hl] at ht; cases ht)
  have good : codeErrs p 4 none [b] (s.ebSub p 0) = s.ebSub p 0 := codeErrs_good [b] _ fun x hx => by
    rw [List.mem_singleton.mp hx, flag_congr regs_ebSub]
    exact ⟨hc, nofun⟩
  have row : ((s.ebSub p 0).port p).row = none := by rw [port_ebSub, hn]
  have kind : bits b.block.toNat 57 56 = b.block.toNat / 2 ^ 56 % 4 := bits_eq_div _ 57 56
  have rows : bits b.block.toNat 55 40 = b.block.toNat / 2 ^ 40 % 65536 := bits_eq_div _ 55 40
  have e : execEof p [b] [] 0 s = .next ((s.ebSub p 0).eofStratum p (b.block.toNat / 2 ^ 56 % 4) (b.block.toNat / 2 ^ 40 % 65536)) := by
    unfold execEof
    rw [if_neg run]
    dsimp only
    rw [good, useNow_ebSub, useNow_frame hf, headBlock_congr regs_ebSub lanes_ebSub, hb]
    dsimp only
    rw [settleRow_none row, kind, rows]
  exact e

theorem regs_endWork {d : Nat} : (s.endWork n d).regs = s.regs := rfl

theorem regs_frameEnded (hs : f.short = false) (hg : f.long = false) : (frameEnded s n f).regs = s.regs := by
  unfold frameEnded frameCounted
  rw [hs, hg, regs_endWork]
  rfl

theorem flag_frameLogged (h0 : f.map = 0) : (frameLogged s n f).flag (Reg.PIPE_CTRL_AUTO p) = s.flag (Reg.PIPE_CTRL_AUTO p) := by
  unfold frameLogged
  rw [if_pos h0]
  exact flag_of_fld (State.fld_of_word (State.word_logRec _ _ _ _ (calm_camera (show 0x80000 ≤ 0x100000 + 0x10000 * p.val by omega))))

theorem work_withoutRef {h : Nat} : (withoutRef s n h).fab.work = s.fab.work := rfl

theorem queues_withoutRef {h : Nat} : (withoutRef s n h).queues = s.queues := rfl

/-- What the end of a frame with a raw berth leaves. -/
structure FrameGivenBack (p : Fin 4) (f : PortFrame) (s t : State) : Prop where
  frame : (t.port p).frame = none
  work : ∀ w ∈ t.fab.work, ¬(w.unit = p.val ∧ w.tide = f.man.tide)
  count : (t.berth f.raw).count = (s.berth f.raw).count - 1
  queue : t.queue (pipeInQ p) = if s.flag (Reg.PIPE_CTRL_AUTO p) = true ∧ (s.queue (pipeInQ p)).length < 4 then
    s.queue (pipeInQ p) ++ [⟨f.raw, 0, false⟩] else s.queue (pipeInQ p)
  mem : t.mem = s.mem

theorem finishFrame_givesBack (hn : s.noFollower) (he : f.entry = true) (h0 : f.map = 0) (hr : f.rawOk = true) (hm : f.mapOk = false)
    (hs : f.short = false) (hg : f.long = false) (hraw : f.raw ≠ 0) (hb : (s.berth f.raw).st = .held) (hc : 0 < (s.berth f.raw).count) :
    FrameGivenBack p f s (s.finishFrame p f) := by
  have done : s.finishFrame p f = frameGiven (framePushed (frameLogged (frameEnded s p f) p f) p f) p f := by
    rw [finishFrame_eq, if_neg (by rw [he]; decide)]
  have ended : Keeps 4196616 s (frameEnded s p f) := keeps_frameEnded
  have berths : (frameEnded s p f).fab.berths = s.fab.berths := berths_frameEnded
  have work : ∀ w ∈ (frameEnded s p f).fab.work, ¬(w.unit = p.val ∧ w.tide = f.man.tide) := fun w => mem_endWork
  have auto : (frameEnded s p f).flag (Reg.PIPE_CTRL_AUTO p) = s.flag (Reg.PIPE_CTRL_AUTO p) := flag_congr (regs_frameEnded hs hg) _
  have port : ((s.finishFrame p f).port p).frame = none := frame_finishFrame f
  rw [done] at port ⊢
  generalize frameEnded s p f = e at ended berths work auto port
  have logged : Keeps 148360 e (frameLogged e p f) := keeps_frameLogged_noMap h0
  have auto : (frameLogged e p f).flag (Reg.PIPE_CTRL_AUTO p) = s.flag (Reg.PIPE_CTRL_AUTO p) := (flag_frameLogged h0).trans auto
  generalize frameLogged e p f = l at logged auto port
  have queue := queue_framePushed (s := l) (p := p) (f := f)
  have pushed : Keeps 279432 l (framePushed l p f) := keeps_framePushed f Keeps.refl rfl
  rw [auto, queue_congr (s := s) ((logged.same .queues rfl).trans (ended.same .queues rfl)), h0] at queue
  generalize framePushed l p f = q at queue pushed port
  have fab : q.fab = e.fab := (pushed.same .fab rfl).trans (logged.same .fab rfl)
  have berth : q.berth f.raw = s.berth f.raw := berth_of_berths (fab ▸ berths) _
  have follower : q.noFollower :=
    noFollower_congr (s := s) ((pushed.same .sys rfl).trans ((logged.same .sys rfl).trans (ended.same .sys rfl))) hn
  have mem : (frameGiven q p f).mem = q.mem := (keeps_frameGiven (L := 412552) f Keeps.refl rfl).same .mem rfl
  have given : frameGiven q p f = _ := frameGiven_raw hr hm follower hraw (by rw [berth, hb]; decide) (by rwa [berth])
  have shown : Keeps 16648 (withoutRef q p f.raw) (frameGiven q p f) := by
    rw [given]
    exact keeps_berthRel _ _ _ _ Keeps.refl rfl
  have fab' : (frameGiven q p f).fab = (withoutRef q p f.raw).fab := shown.same .fab rfl
  refine ⟨port, fun w hw => work w ?_, ?_, ?_, mem.trans ((pushed.same .mem rfl).trans ((logged.same .mem rfl).trans (ended.same .mem rfl)))⟩
  · rw [fab', work_withoutRef, fab] at hw
    exact hw
  · rw [berth_congr fab', berth_withoutRef_same, berth]
    rfl
  · exact (queue_congr ((shown.same .queues rfl).trans queues_withoutRef) _).trans queue

theorem FrameGivenBack.of_same {g : PortFrame} (h : FrameGivenBack p g u t) (fab : u.fab = s.fab) (regs : u.regs = s.regs) (queues : u.queues = s.queues)
    (mem : u.mem = s.mem) (raw : g.raw = f.raw) (man : g.man = f.man) : FrameGivenBack p f s t where
  frame := h.frame
  work := man ▸ h.work
  count := by
    rw [← berth_congr fab, ← raw]
    exact h.count
  queue := by
    rw [← flag_congr regs, ← queue_congr queues, ← raw]
    exact h.queue
  mem := h.mem.trans mem

theorem eof_ends (hr : s.portState p = 3) (hl : s.replaying = false) (hn : s.noFollower) (hf : (s.port p).frame = some f) (hrow : (s.port p).row = none)
    (hc : isCtl (s.flag (Reg.SRX_CTRL_CODE p)) 4 b.block.toNat = true) (hb : s.headBlock p f.use 4 [b] = some b) (hk : b.block.toNat / 2 ^ 56 % 4 = 0)
    (hrows : b.block.toNat / 2 ^ 40 % 65536 = s.frameRows p f) (h1 : s.frameStrata p f = 1) (hx : stratum f 0 = some x) (ho : x.closed = false)
    (hrun : x.run = []) (hv : x.valid = 2 ^ s.frameRows p f - 1) (he : f.entry = true) (hm : f.map = 0) (hraw : f.rawOk = true) (hmap : f.mapOk = false)
    (hs : f.short = false) (hg : f.long = false) (h0 : f.raw ≠ 0) (hst : (s.berth f.raw).st = .held) (hcount : 0 < (s.berth f.raw).count) :
    Completes (.eof p [b] [] 0) s (FrameGivenBack p f s) := by
  have rows : (s.ebSub p 0).frameRows p f = s.frameRows p f := frameRows_congr sys_ebSub
  have strata : (s.ebSub p 0).frameStrata p f = 1 := h1 ▸ congrArg (· + 1) (frameFld_congr sys_ebSub _)
  have exec := exec_eof_block hr hl hf hrow hc hb
  rw [hk, hrows, eofStratum_whole (by rw [port_ebSub, hf]) hx ho hrun rows.symm (by rwa [rows]) strata] at exec
  have kept : Keeps 4194304 s (((s.ebSub p 0).setFrame p (setStratum f 0 { x with run := [] })).setFrame p (stratumClosed f 0 x)) :=
    keeps_setFrame _ _ (keeps_setFrame _ _ (keeps_ebSub _ _ Keeps.refl rfl) rfl) rfl
  generalize ((s.ebSub p 0).setFrame p (setStratum f 0 { x with run := [] })).setFrame p (stratumClosed f 0 x) = w at exec kept
  have fab : w.fab = s.fab := kept.same .fab rfl
  have back : FrameGivenBack p (stratumClosed f 0 x) w _ :=
    finishFrame_givesBack (noFollower_congr (kept.same .sys rfl) hn) he hm hraw hmap hs hg h0 ((congrArg Berth.st (berth_congr fab _)).trans hst)
      (hcount.trans_eq (congrArg Berth.count (berth_congr fab _)).symm)
  exact ⟨_, exec, back.of_same fab (kept.same .regs rfl) (kept.same .queues rfl) (kept.same .mem rfl) rfl rfl⟩

end

/-! ### A frame two tides late (R44, R154) -/

theorem flushRun_noEntry (he : f.entry = false) : Keeps 4211592 s (s.flushRun p f k).1 ∧ (s.flushRun p f k).2.entry = false := by
  unfold flushRun
  split
  · exact ⟨Keeps.refl, he⟩
  · rw [emitRows_noEntry he]
    exact ⟨keeps_setFrame _ _ Keeps.refl rfl, he⟩

/-- A stratum of a frame without an entry closes in the port alone. -/
theorem closeStratum_noEntry (he : f.entry = false) (c : Nat) :
    Keeps 4211592 s (s.closeStratum p f k c true).1 ∧ (s.closeStratum p f k c true).2.entry = false := by
  unfold closeStratum
  extract_lets f'
  have opened : f'.entry = false := by
    show PortFrame.entry (match stratum f k with | some _ => f | none => setStratum f k {}) = false
    split
    · exact he
    · exact he
  obtain ⟨flushed, entry⟩ := flushRun_noEntry (s := s) (p := p) (k := k) opened
  split
  next v g e =>
  rw [e] at flushed entry
  extract_lets x rows c closed counted
  have noEntry : counted.entry = false := by
    show PortFrame.entry (if x.valid % 2 ^ c = 2 ^ c - 1 then closed else frameFlag closed flagDrop) = false
    split
    · exact entry
    · exact entry
  rw [if_neg (by decide), if_pos (by rw [show (frameFlag counted flagShort).entry = counted.entry from rfl, noEntry]; rfl)]
  exact ⟨keeps_srxRaise _ _ (keeps_setFrame _ _ flushed rfl) rfl, noEntry⟩

theorem closeShort_noEntry : (ks : List Nat) → (s : State) → (f : PortFrame) → f.entry = false →
    Keeps 4211592 s (closeShort p ks s f).1 ∧ (closeShort p ks s f).2.entry = false
  | [], _, _, he => ⟨Keeps.refl, he⟩
  | k :: ks, s, f, he => by
    have step : ∀ c, Keeps 4211592 s (closeShort p ks (s.closeStratum p f k c true).1 (s.closeStratum p f k c true).2).1 ∧
        (closeShort p ks (s.closeStratum p f k c true).1 (s.closeStratum p f k c true).2).2.entry = false := fun c => by
      obtain ⟨kept, entry⟩ := closeStratum_noEntry (s := s) (p := p) (k := k) he c
      obtain ⟨kept', entry'⟩ := closeShort_noEntry ks _ _ entry
      exact ⟨kept.trans kept', entry'⟩
    rw [closeShort]
    split
    · split
      · exact closeShort_noEntry ks s f he
      · exact step _
    · exact step 0

theorem closeFrame_noRow (hf : (s.port p).frame = some f) (hrow : (s.port p).row = none) : s.closeFrame p =
    (closeShort p (List.range (s.frameStrata p f)) s f).1.finishFrame p (closeShort p (List.range (s.frameStrata p f)) s f).2 := by
  unfold closeFrame
  rw [hf]
  dsimp only
  rw [hrow]

/-- A frame without an entry closes short: no berth and no byte of DRAM changes. -/
theorem closeFrame_noEntry (hf : (s.port p).frame = some f) (he : f.entry = false) (hrow : (s.port p).row = none) :
    ((s.closeFrame p).port p).frame = none ∧ (s.closeFrame p).fab.berths = s.fab.berths ∧ (s.closeFrame p).mem = s.mem := by
  refine ⟨frame_closeFrame, ?_⟩
  rw [closeFrame_noRow hf hrow]
  obtain ⟨kept, entry⟩ := closeShort_noEntry (p := p) (List.range (s.frameStrata p f)) s f he
  generalize closeShort p (List.range (s.frameStrata p f)) s f = r at kept entry
  obtain ⟨v, g⟩ := r
  have done : v.finishFrame p g = frameEnded v p g := by
    rw [finishFrame_eq, if_pos (by rw [show g.entry = false from entry]; rfl)]
  rw [done, berths_frameEnded]
  exact ⟨congrArg Fab.berths (kept.same .fab rfl), (keeps_frameEnded.same .mem rfl).trans (kept.same .mem rfl)⟩

section

variable {p : Fin 4}

theorem exec_srxFrameExpire (hf : (s.port p).frame = some f) :
    exec (.srxFrameExpire p) s = .next (if f.man.tide + 2 < s.ownTide p then s.closeFrame p else s) := by
  have e : execSrxFrameExpire p s = .next (if f.man.tide + 2 < s.ownTide p then s.closeFrame p else s) := by
    unfold execSrxFrameExpire
    rw [hf]
  exact e

theorem srxFrameExpire_closes (hf : (s.port p).frame = some f) (hd : f.man.tide + 2 < s.ownTide p) (he : f.entry = false) (hrow : (s.port p).row = none) :
    Completes (.srxFrameExpire p) s fun t => (t.port p).frame = none ∧ t.fab.berths = s.fab.berths ∧ t.mem = s.mem :=
  ⟨s.closeFrame p, by rw [exec_srxFrameExpire hf, if_pos hd], closeFrame_noEntry hf he hrow⟩

theorem srxFrameExpire_rests (hf : (s.port p).frame = some f) (hd : s.ownTide p ≤ f.man.tide + 2) : exec (.srxFrameExpire p) s = .next s := by
  rw [exec_srxFrameExpire hf, if_neg (Nat.not_lt.mpr hd)]

end

end Sys2Proof.Machine
end

section
/-! PROOFS. O34, the frame queue, sync outputs, code errors and test patterns (R131, R138, R144 to R146, R163). -/

namespace Sys2Proof.Machine

open State

variable {s t u : State} {p : Fin 4} {i : Fin 64}

/-! ### SRX_FQ_PUSH (R146) -/

theorem fqPush_free : ∀ p : Fin 4, ((fieldsAt (0x80030 + 0x4000 * p.val)).all fun (f : FieldDesc) => decide (f.cls ≠ .x)) = true := by decide +kernel

theorem quiet_fqStatus : ∀ p : Fin 4, quiet (0x80034 + 0x4000 * p.val) = false := by decide +kernel

section

variable {m : Fin 32} {raw map : BitVec 16} (hm : s.mayWrite m.val (0x80000 + 0x4000 * p.val + 0x30) .plain = true)

include hm

/-- A push has reached the word of the queue, and the queue not yet. -/
theorem srxFqPush_written : ∃ u, Frame [] [0x80000 + 0x4000 * p.val + 0x30] s u ∧ u.queues = s.queues ∧
    exec (.srxFqPush m p raw map) s = .next (u.srxFqPush p raw.toNat map.toNat) := by
  have address : 0x80030 + 0x4000 * p.val = 0x80000 + 0x4000 * p.val + 0x30 := by omega
  obtain ⟨_, u, _, wrote, e⟩ := write_srxFqPush m p raw map (by rwa [address])
  exact ⟨u, Frame.of_wrote_free wrote (List.mem_singleton.mpr address) (calm_camera (by omega)) (fqPush_free p), wrote.keeps.same .queues rfl, e⟩

theorem srxFqPush_takes (h : (s.queue (0x80000 + 0x4000 * p.val + 0x30)).length < 16) : Completes (.srxFqPush m p raw map) s fun t =>
    t.queue (0x80000 + 0x4000 * p.val + 0x30) = s.queue (0x80000 + 0x4000 * p.val + 0x30) ++ [⟨raw.toNat, map.toNat, false⟩] ∧
    (∀ a, a ≠ 0x80000 + 0x4000 * p.val + 0x30 → t.queue a = s.queue a) ∧ Frame [.queues] [0x80000 + 0x4000 * p.val + 0x30] s t := by
  obtain ⟨u, frame, queues, e⟩ := srxFqPush_written (raw := raw) (map := map) hm
  have address : fqA p = 0x80000 + 0x4000 * p.val + 0x30 := by unfold fqA; omega
  rw [srxFqPush_room (by rw [queue_congr queues, address]; exact h), address] at e
  refine ⟨_, e, ?_, fun a ha => ?_, (frame.mono nofun fun _ h => h).trans (frame_setQueue _ _ (by decide))⟩
  · rw [queue_setQueue_same, queue_congr queues]
  · rw [queue_setQueue_other _ _ ha, queue_congr queues]

theorem srxFqPush_loses (h : 16 ≤ (s.queue (0x80000 + 0x4000 * p.val + 0x30)).length) : Completes (.srxFqPush m p raw map) s fun t =>
    t.queues = s.queues ∧ t.flag (Reg.SRX_FQ_STATUS_PUSH_LOST p) = true ∧
    Frame [] [0x80000 + 0x4000 * p.val + 0x30, 0x80000 + 0x4000 * p.val + 0x34] s t := by
  obtain ⟨u, frame, queues, e⟩ := srxFqPush_written (raw := raw) (map := map) hm
  have address : fqA p = 0x80000 + 0x4000 * p.val + 0x30 := by unfold fqA; omega
  rw [srxFqPush_full (by rw [queue_congr queues, address]; exact h)] at e
  exact ⟨_, e, queues, flag_setBitsOf (f := Reg.SRX_FQ_STATUS_PUSH_LOST p) 0x100 (calm_camera (show 0x80000 ≤ 0x80034 + 0x4000 * p.val by omega)) rfl
      (show 8 < 32 by decide) (show Nat.testBit 0x100 8 = true by decide),
    (frame.mono nofun fun _ h => List.mem_cons.mpr (.inl (List.mem_singleton.mp h))).trans
      (frame_setBitsOf 0x100 (List.mem_cons_of_mem _ (List.mem_singleton.mpr (by omega))) (quiet_fqStatus p) (by omega))⟩

end

/-! ### Sync outputs (R163) -/

theorem frame_setSyncOut {k : Nat} (x : SyncOut) : Frame [.ports] [] s (s.setSyncOut p k x) := frame_setPort _ (by decide)

theorem syncOut_setSyncOut_same {k : Nat} (x : SyncOut) : (s.setSyncOut p k x).syncOut p k = x := by
  unfold syncOut setSyncOut
  rw [port_setPort_same]
  exact SMap.get_set_same ..

theorem syncOut_setSyncOut_other {j k : Nat} (x : SyncOut) (h : j ≠ k) : (s.setSyncOut p k x).syncOut p j = s.syncOut p j := by
  unfold syncOut setSyncOut
  rw [port_setPort_same]
  exact SMap.get_set_other _ _ h

theorem syncsOn_congr (h : t.regs = s.regs) (n : Nat) : t.syncsOn n = s.syncsOn n := by
  unfold syncsOn
  simp only [flag_congr h, State.fld_congr h]

theorem syncOutputEdge_starts (k : Fin 2) (a b : Int) (rest : List (Int × Int)) (hon : (s.syncOut p k).on = false)
    (hone : s.fld (Reg.GPIO_PAD_MODE (s.fld (Reg.SRX_SYNC_PIN p k))) = 3 → (s.syncsOn (s.fld (Reg.SRX_SYNC_PIN p k))).length ≤ 1)
    (hdue : (s.syncOut p k).due = (a, b) :: rest) (ha : a ≤ s.tideTime48) : Completes (.syncOutputEdge p k) s fun t =>
      t.syncOut p k = { on := true, offAt := b, due := rest } ∧ (∀ j, j ≠ k.val → t.syncOut p j = s.syncOut p j) ∧ Frame [.ports] [] s t := by
  have edge : s.syncEdge p k = s.setSyncOut p k { on := true, offAt := b, due := rest } := by
    unfold syncEdge
    dsimp only
    rw [hon, if_neg (fun h => absurd h.1 Bool.false_ne_true), hdue]
    exact if_pos ha
  have regs : (s.setSyncOut p k { on := true, offAt := b, due := rest }).regs = s.regs := rfl
  have quiet : ∀ n, (s.fld (Reg.GPIO_PAD_MODE n) = 3 → (s.syncsOn n).length ≤ 1) →
      (s.setSyncOut p k { on := true, offAt := b, due := rest }).gpioConflict n = s.setSyncOut p k { on := true, offAt := b, due := rest } := fun n hn => by
    unfold gpioConflict
    rw [State.fld_congr regs, syncsOn_congr regs]
    exact if_neg fun h => absurd (hn h.1) (Nat.not_le.mpr h.2)
  refine ⟨_, ?_, syncOut_setSyncOut_same _, fun j hj => syncOut_setSyncOut_other _ hj, frame_setSyncOut _⟩
  have e : execSyncOutputEdge p k s = .next (s.setSyncOut p k { on := true, offAt := b, due := rest }) := by
    unfold execSyncOutputEdge
    rw [edge, quiet _ hone]
  exact e

end Sys2Proof.Machine
end

section
/-! PROOFS. O34, the line code and the test patterns of a lane (R131, R138, R144, R145). -/

namespace Sys2Proof.Machine

open State

variable {s t u : State} {ps : List Part} {as : List Nat} {p : Fin 4} {i : Fin 64} {L : Nat}

theorem quiet_laneCounters : ∀ p : Fin 4, ∀ i : Fin 64, quiet (0x81014 + 0x4000 * p.val + 0x40 * i.val) = false ∧
    quiet (0x81020 + 0x4000 * p.val + 0x40 * i.val) = false := by decide +kernel

/-! ### Code errors (R131) -/

section

variable (hL : L = 0x81000 + 0x4000 * p.val + 0x40 * i.val)

include hL

theorem codeErr_effect : (s.codeErr p i).fld (Reg.LANE_CODE_ERR p i) = min (s.fld (Reg.LANE_CODE_ERR p i) + 1) (2 ^ 32 - 1) ∧
    (s.codeErr p i).lane p i = { s.lane p i with codeTide := (s.lane p i).codeTide + 1 } ∧ Frame [.lanes] [L + 0x20] s (s.codeErr p i) := by
  unfold codeErr
  refine ⟨?_, ?_, ?_⟩
  · rw [fld_setLane, State.fld_count_same 1 (show 0 ≤ 31 by decide) (show 31 < 32 by decide)]
    rfl
  · rw [lane_setLane_same]
  · exact (Frame.count (Reg.LANE_CODE_ERR p i) 1 (List.mem_singleton.mpr (show 0x81020 + 0x4000 * p.val + 0x40 * i.val = _ by omega)) (quiet_laneCounters p i).2
      (show 0x81020 + 0x4000 * p.val + 0x40 * i.val ≠ 0x50004 by omega)).trans (frame_setLane _ (by decide))

theorem badBlock_counts (hdr : BitVec 2) (block : BitVec 64) (h3 : 3 ≤ s.laneState p i) (h6 : s.laneState p i ≤ 6) :
    Completes (.badBlock p i hdr block true) s fun t =>
      t.fld (Reg.LANE_CODE_ERR p i) = min (s.fld (Reg.LANE_CODE_ERR p i) + 1) (2 ^ 32 - 1) ∧
      t.lane p i = { s.lane p i with codeTide := (s.lane p i).codeTide + 1 } ∧ Frame [.lanes] [L + 0x20] s t :=
  ⟨s.codeErr p i, congrArg Host.Outcome.next (if_pos ⟨rfl, h3, h6⟩), codeErr_effect hL⟩

end

theorem badBlock_rests (hdr : BitVec 2) (block : BitVec 64) (viol : Bool) (h : s.laneState p i < 3 ∨ s.laneState p i = 7 ∨ viol = false ∧ hdr = 1) :
    exec (.badBlock p i hdr block viol) s = .next s := by
  refine congrArg Host.Outcome.next (if_neg ?_)
  rintro ⟨bad, h3, h6⟩
  rcases h with h | h | ⟨rfl, rfl⟩
  · omega
  · omega
  · simp at bad

/-! ### The lock of a checker (R144) -/

/-- The checker of a lane is locked, with its polarity. -/
def prbsLocked (s : State) (p i : Nat) (inv : Bool) : State :=
  (s.setFld (Reg.LANE_STATUS_PRBS_LOCK p i) 1).setFld (Reg.LANE_STATUS_PRBS_INV p i) (b01 inv)

theorem exec_prbsLock (inv : Bool) : exec (.prbsLock p i inv) s = .next (
    if s.prbsRuns p i && !s.flag (Reg.LANE_STATUS_PRBS_LOCK p i) then
      (prbsLocked s p i inv).setLane p i { s.lane p i with prbsFrom := some s.now }
    else s) := rfl

theorem prbsLock_locks (hL : L = 0x81000 + 0x4000 * p.val + 0x40 * i.val) (inv : Bool) (hr : s.prbsRuns p i = true)
    (hl : s.flag (Reg.LANE_STATUS_PRBS_LOCK p i) = false) : Completes (.prbsLock p i inv) s fun t =>
      t.flag (Reg.LANE_STATUS_PRBS_LOCK p i) = true ∧ t.flag (Reg.LANE_STATUS_PRBS_INV p i) = inv ∧
      t.lane p i = { s.lane p i with prbsFrom := some s.now } ∧ Frame [.lanes] [L + 4] s t := by
  have lock : (prbsLocked s p i inv).fld (Reg.LANE_STATUS_PRBS_LOCK p i) = 1 :=
    (State.fld_setFld_bits _ (Reg.LANE_STATUS_PRBS_INV p i) (Reg.LANE_STATUS_PRBS_LOCK p i) _ rfl (show 20 ≤ 20 by decide) (show 21 < 32 by decide)
      (.inr (show 20 < 21 by decide))).trans (State.fld_setFld_same s (Reg.LANE_STATUS_PRBS_LOCK p i) 1 (show 21 ≤ 21 by decide) (show 21 < 32 by decide))
  have polarity : (prbsLocked s p i inv).fld (Reg.LANE_STATUS_PRBS_INV p i) = b01 inv % 2 :=
    State.fld_setFld_same _ (Reg.LANE_STATUS_PRBS_INV p i) (b01 inv) (show 20 ≤ 20 by decide) (show 20 < 32 by decide)
  have frame : Frame [.lanes] [L + 4] s (prbsLocked s p i inv) :=
    (Frame.setFld (Reg.LANE_STATUS_PRBS_LOCK p i) _ (List.mem_singleton.mpr (show 0x81004 + 0x4000 * p.val + 0x40 * i.val = _ by omega))).trans
      (Frame.setFld (Reg.LANE_STATUS_PRBS_INV p i) _ (List.mem_singleton.mpr (show 0x81004 + 0x4000 * p.val + 0x40 * i.val = _ by omega)))
  refine ⟨_, (exec_prbsLock inv).trans (congrArg Host.Outcome.next (if_pos (by rw [hr, hl]; rfl))), ?_, ?_, ?_, frame.trans (frame_setLane _ (by decide))⟩
  · unfold flag
    rw [fld_setLane, lock]
    rfl
  · unfold flag
    rw [fld_setLane, polarity]
    cases inv
    · rfl
    · rfl
  · exact lane_setLane_same _

theorem prbsLock_rests (inv : Bool) (h : s.prbsRuns p i = false ∨ s.flag (Reg.LANE_STATUS_PRBS_LOCK p i) = true) : exec (.prbsLock p i inv) s = .next s := by
  refine (exec_prbsLock inv).trans (congrArg Host.Outcome.next (if_neg ?_))
  rcases h with h | h
  · rw [h]
    exact Bool.false_ne_true
  · rw [h, Bool.not_true, Bool.and_false]
    exact Bool.false_ne_true

/-! ### LANE_SLIP (R138) -/

theorem laneSlip_free : ∀ p : Fin 4, ∀ i : Fin 64,
    ((fieldsAt (0x81008 + 0x4000 * p.val + 0x40 * i.val)).all fun (f : FieldDesc) => decide (f.cls ≠ .x)) = true := by decide +kernel

theorem laneSlip_effect (hL : L = 0x81000 + 0x4000 * p.val + 0x40 * i.val) (m : Fin 32) (v : Word) (hm : s.mayWrite m.val (L + 8) .plain = true) :
    (v.getLsbD 0 = true → s.flag (Reg.SRX_CTRL_CODE p) = true → Completes (.laneSlip m p i v) s fun t =>
      t.lane p i = { s.lane p i with boundary := ((s.lane p i).boundary + 1) % 66 } ∧ Frame [.lanes] [L + 8] s t) ∧
    (v.getLsbD 0 = false ∨ s.flag (Reg.SRX_CTRL_CODE p) = false → Completes (.laneSlip m p i v) s (Frame [] [L + 8] s)) := by
  have address : 0x81008 + 0x4000 * p.val + 0x40 * i.val = L + 8 := by omega
  obtain ⟨_, u, _, wrote, e⟩ := write_laneSlip m p i v (by rwa [address])
  have frame : Frame [] [L + 8] s u := Frame.of_wrote_free wrote (List.mem_singleton.mpr address) (calm_camera (by omega)) (laneSlip_free p i)
  have code : u.flag (Reg.SRX_CTRL_CODE p) = s.flag (Reg.SRX_CTRL_CODE p) :=
    flag_of_fld (frame.cameraFld (x := 0x80000 + 0x4000 * p.val) rfl (by omega) (by rw [List.mem_singleton]; omega))
  have lanes : u.lanes = s.lanes := wrote.keeps.same .lanes rfl
  have slips : bit v.toNat 0 = v.getLsbD 0 := BitVec.testBit_toNat v
  rw [slips] at e
  unfold State.laneSlip at e
  refine ⟨fun hv hc => ?_, fun h => ?_⟩
  · rw [hv, if_pos rfl, code, hc, if_pos rfl] at e
    refine ⟨_, e, ?_, (frame.mono nofun fun _ h => h).trans (frame_setLane _ (by decide))⟩
    rw [lane_setLane_same, lane_congr lanes]
  · refine ⟨u, e.trans (congrArg Host.Outcome.next ?_), frame⟩
    rcases h with h | h
    · rw [h, if_neg Bool.false_ne_true]
    · rw [code, h, if_neg Bool.false_ne_true, ite_self]

end Sys2Proof.Machine
end

section
/-! PROOFS. O34, writes of LANE_CFG: a new PRBS selection, and INJECT (R144, R145). -/

namespace Sys2Proof.Machine

open State

variable {s t u : State} {ps : List Part} {as : List Nat} {p : Fin 4} {i : Fin 64} {L : Nat}

/-! ### The write of LANE_CFG -/

theorem laneCfg_fields : ∀ p : Fin 4, ∀ i : Fin 64, ∀ g ∈ [(⟨31, 29, .rw, .l, 0⟩ : FieldDesc), ⟨28, 28, .rw, .l, 0⟩, ⟨27, 27, .rw, .l, 0⟩],
    g ∈ fieldsAt (0x81000 + 0x4000 * p.val + 0x40 * i.val) := by decide +kernel

theorem quiet_laneCfg : ∀ p : Fin 4, ∀ i : Fin 64, quiet (0x81000 + 0x4000 * p.val + 0x40 * i.val) = true := by decide +kernel

theorem inReject_lane {x : Nat} (h : inReject (0x81000 + 0x4000 * p.val + 0x40 * i.val) x = true) : x = 0x80060 + 0x4000 * p.val := by
  unfold inReject at h
  simp (disch := omega) only [if_neg, if_pos, decide_eq_true_eq] at h
  omega

theorem clampWrite_laneCfg (v : Nat) : clampWrite (0x81000 + 0x4000 * p.val + 0x40 * i.val) v = v := by
  unfold clampWrite
  simp (disch := omega) only [if_neg, if_pos]

/-- A write that has reached LANE_CFG of a lane, and its action not yet. -/
structure CfgWritten (p : Fin 4) (i : Fin 64) (v : Word) (s u : State) : Prop where
  frame : Frame [] [0x81000 + 0x4000 * p.val + 0x40 * i.val, 0x80060 + 0x4000 * p.val] s u
  keeps : Keeps 148376 s u
  prbs : u.fld (Reg.LANE_CFG_PRBS p i) = v.toNat / 2 ^ 29
  gen : u.fld (Reg.LANE_CFG_GEN p i) = v.toNat / 2 ^ 28 % 2
  loop : u.fld (Reg.LANE_CFG_LOOP p i) = v.toNat / 2 ^ 27 % 2

theorem Wrote.cfgWritten {v : Word} (h : Wrote (0x81000 + 0x4000 * p.val + 0x40 * i.val) v.toNat s u) : CfgWritten p i v s u where
  frame := Frame.of_wrote h List.mem_cons_self (calm_camera (by omega)) fun _ _ _ hx => List.mem_cons_of_mem _ (List.mem_singleton.mpr (inReject_lane hx))
  keeps := h.keeps
  prbs := by
    have shown : u.fld (Reg.LANE_CFG_PRBS p i) = v.toNat / 2 ^ 29 % 2 ^ 3 := (h.field _ (laneCfg_fields p i ⟨31, 29, .rw, .l, 0⟩ (by decide)) rfl (by decide)).trans
      ((congrArg (bits · 31 29) (clampWrite_laneCfg _)).trans (bits_eq_div _ 31 29))
    have := v.isLt
    omega
  gen := (h.field _ (laneCfg_fields p i ⟨28, 28, .rw, .l, 0⟩ (by decide)) rfl (by decide)).trans
    ((congrArg (bits · 28 28) (clampWrite_laneCfg _)).trans (bits_eq_div _ 28 28))
  loop := (h.field _ (laneCfg_fields p i ⟨27, 27, .rw, .l, 0⟩ (by decide)) rfl (by decide)).trans
    ((congrArg (bits · 27 27) (clampWrite_laneCfg _)).trans (bits_eq_div _ 27 27))

/-! ### A restarted checker (R144) -/

/-- The checker of a lane unlocks, and its counters are clear. -/
def prbsCleared (s : State) (p i : Nat) : State :=
  ((s.setFld (Reg.LANE_STATUS_PRBS_LOCK p i) 0).setFld (Reg.LANE_STATUS_PRBS_INV p i) 0).setFld (Reg.LANE_PRBS_ERR p i) 0

theorem lanes_prbsCleared {p i : Nat} : (prbsCleared s p i).lanes = s.lanes := by
  rw [prbsCleared, setFld_lanes, setFld_lanes, setFld_lanes]

theorem frame_prbsCleared {p i : Nat} (hs : 0x81004 + 0x4000 * p + 0x40 * i ∈ as) (he : 0x81014 + 0x4000 * p + 0x40 * i ∈ as) :
    Frame ps as s (prbsCleared s p i) :=
  ((Frame.setFld (Reg.LANE_STATUS_PRBS_LOCK p i) 0 hs).trans (Frame.setFld (Reg.LANE_STATUS_PRBS_INV p i) 0 hs)).trans (Frame.setFld (Reg.LANE_PRBS_ERR p i) 0 he)

theorem lock_prbsCleared {p i : Nat} : (prbsCleared s p i).fld (Reg.LANE_STATUS_PRBS_LOCK p i) = 0 := by
  unfold prbsCleared
  rw [State.fld_setFld_addr _ (Reg.LANE_PRBS_ERR p i) (Reg.LANE_STATUS_PRBS_LOCK p i) 0 (show 0x81004 + 0x4000 * p + 0x40 * i ≠ 0x81014 + 0x4000 * p + 0x40 * i by omega),
    State.fld_setFld_bits _ (Reg.LANE_STATUS_PRBS_INV p i) (Reg.LANE_STATUS_PRBS_LOCK p i) 0 rfl (show 20 ≤ 20 by decide) (show 21 < 32 by decide)
      (.inr (show 20 < 21 by decide)), State.fld_setFld_same s (Reg.LANE_STATUS_PRBS_LOCK p i) 0 (show 21 ≤ 21 by decide) (show 21 < 32 by decide)]
  exact Nat.zero_mod _

theorem err_prbsCleared {p i : Nat} : (prbsCleared s p i).fld (Reg.LANE_PRBS_ERR p i) = 0 :=
  (State.fld_setFld_same _ (Reg.LANE_PRBS_ERR p i) 0 (show 0 ≤ 31 by decide) (show 31 < 32 by decide)).trans (Nat.zero_mod _)

theorem prbsRestart_eq {p i : Nat} : s.prbsRestart p i =
    (prbsCleared s p i).setLane p i { (prbsCleared s p i).lane p i with prbsBits := 0, prbsFrom := none } := rfl

theorem laneCfgWritten_select {p i old : Nat} : s.laneCfgWritten p i old false = s.prbsRestart p i := rfl

theorem laneCfgWritten_inject {p i old : Nat} (h : old = s.fld (Reg.LANE_CFG_PRBS p i)) : s.laneCfgWritten p i old true = s.prbsInject p i := by
  unfold laneCfgWritten
  dsimp only
  rw [if_pos (c := true = true ∧ old = s.fld (Reg.LANE_CFG_PRBS p i)) ⟨rfl, h⟩, if_pos rfl]

section

variable (hL : L = 0x81000 + 0x4000 * p.val + 0x40 * i.val) (m : Fin 32) (v : Word) (hm : s.mayWrite m.val L .plain = true)

include hL hm

theorem prbsSelect_restarts (h26 : v.getLsbD 26 = false) : Completes (.prbsSelect m p i v) s fun t =>
    t.fld (Reg.LANE_CFG_PRBS p i) = v.toNat / 2 ^ 29 ∧ t.flag (Reg.LANE_STATUS_PRBS_LOCK p i) = false ∧
    t.fld (Reg.LANE_PRBS_ERR p i) = 0 ∧ t.lane p i = { s.lane p i with prbsBits := 0, prbsFrom := none } ∧
    Frame [.lanes] [L, L + 4, L + 0x14, 0x80060 + 0x4000 * p.val] s t := by
  subst hL
  obtain ⟨_, u, _, wrote, e⟩ := write_prbsSelect m p i v hm
  have hu := wrote.cfgWritten
  rw [show bit v.toNat 26 = false from (BitVec.testBit_toNat v).trans h26, laneCfgWritten_select, prbsRestart_eq] at e
  have cleared : Frame [] [0x81004 + 0x4000 * p.val + 0x40 * i.val, 0x81014 + 0x4000 * p.val + 0x40 * i.val] u (prbsCleared u p i) :=
    frame_prbsCleared List.mem_cons_self (List.mem_cons_of_mem _ List.mem_cons_self)
  refine ⟨_, e, ?_, ?_, ?_, ?_, ?_⟩
  · rw [fld_setLane, ← hu.prbs]
    refine cleared.cameraFld (x := 0x81000 + 0x4000 * p.val + 0x40 * i.val) rfl (by omega) ?_
    simp only [List.mem_cons, List.not_mem_nil, or_false]
    omega
  · rw [flag, fld_setLane, lock_prbsCleared]
    rfl
  · rw [fld_setLane, err_prbsCleared]
  · rw [lane_setLane_same, lane_congr lanes_prbsCleared, lane_congr (hu.keeps.same .lanes rfl)]
  · refine (hu.frame.mono nofun ?_).trans ((cleared.mono nofun ?_).trans (frame_setLane _ (by decide)))
    all_goals
      intro a ha
      simp only [List.mem_cons, List.not_mem_nil, or_false] at ha ⊢
      omega

end

/-! ### INJECT (R145) -/

/-- The words that decide, beside LANE_CFG, whether the checker of a lane runs. -/
def runWords (p i : Nat) : List Nat := [0x80004 + 0x4000 * p, 0x80048 + 0x4000 * p, 0x8004C + 0x4000 * p, 0x81004 + 0x4000 * p + 0x40 * i]

theorem prbsRuns_congr {p i : Nat} (hp : t.ports = s.ports) (hc : t.fld (Reg.LANE_CFG_PRBS p i) = s.fld (Reg.LANE_CFG_PRBS p i))
    (hw : ∀ x ∈ runWords p i, t.word x = s.word x) : t.prbsRuns p i = s.prbsRuns p i := by
  have state : t.portState p = s.portState p := State.fld_of_word (f := Reg.SRX_STATUS_STATE p) (hw (0x80004 + 0x4000 * p) (by simp [runWords]))
  have low : t.fld (Reg.SRX_LANE_USE_LO p) = s.fld (Reg.SRX_LANE_USE_LO p) := State.fld_of_word (hw (0x80048 + 0x4000 * p) (by simp [runWords]))
  have high : t.fld (Reg.SRX_LANE_USE_HI p) = s.fld (Reg.SRX_LANE_USE_HI p) := State.fld_of_word (hw (0x8004C + 0x4000 * p) (by simp [runWords]))
  have sensor : t.sensorOf p i = s.sensorOf p i :=
    State.fld_of_word (f := Reg.LANE_STATUS_SENSOR_LANE p i) (hw (0x81004 + 0x4000 * p + 0x40 * i) (by simp [runWords]))
  have use : t.useNow p = s.useNow p := by
    unfold useNow laneUse fld2
    rw [port_congr hp, low, high]
  unfold State.prbsRuns
  rw [state, sensor, use, hc]

theorem runWords_high {x : Nat} (h : x ∈ runWords p i) : 0x80000 ≤ x ∧ x ≠ 0x81000 + 0x4000 * p.val + 0x40 * i.val ∧ x ≠ 0x80060 + 0x4000 * p.val := by
  simp only [runWords, List.mem_cons, List.not_mem_nil, or_false] at h
  omega

/-- INJECT reads 0 again. -/
def injectShown (s : State) (p i : Nat) : State := s.setFld (Reg.LANE_CFG_INJECT p i) 0

theorem fld_injectShown {p i : Nat} {f : Fld} (ha : f.addr = 0x81000 + 0x4000 * p + 0x40 * i) (hw : f.hi < 32) (hd : 26 < f.lo) :
    (injectShown s p i).fld f = s.fld f := State.fld_setFld_bits s (Reg.LANE_CFG_INJECT p i) f 0 ha (show 26 ≤ 26 by decide) hw (.inr hd)

theorem word_injectShown {p i x : Nat} (h : x ≠ 0x81000 + 0x4000 * p + 0x40 * i) : (injectShown s p i).word x = s.word x :=
  word_setFld_other s (Reg.LANE_CFG_INJECT p i) 0 h

theorem prbsInject_counts {p i : Nat} (hl : (injectShown s p i).fld (Reg.LANE_CFG_LOOP p i) = 1) (hg : (injectShown s p i).fld (Reg.LANE_CFG_GEN p i) = 1)
    (hr : (injectShown s p i).prbsRuns p i = true) (hk : (injectShown s p i).flag (Reg.LANE_STATUS_PRBS_LOCK p i) = true) :
    s.prbsInject p i = (injectShown s p i).count (Reg.LANE_PRBS_ERR p i) := by
  refine if_pos ?_
  show ((injectShown s p i).flag (Reg.LANE_CFG_LOOP p i) && (injectShown s p i).flag (Reg.LANE_CFG_GEN p i) && (injectShown s p i).prbsRuns p i &&
    (injectShown s p i).flag (Reg.LANE_STATUS_PRBS_LOCK p i)) = true
  rw [hk, hr, flag, hl, flag, hg]
  rfl

theorem testBit_eq_div (n k : Nat) (h : n.testBit k = true) : n / 2 ^ k % 2 = 1 := by
  rwa [Nat.testBit_eq_decide_div_mod_eq, decide_eq_true_eq] at h

theorem inject_counts (hL : L = 0x81000 + 0x4000 * p.val + 0x40 * i.val) (m : Fin 32) (v : Word) (hm : s.mayWrite m.val L .plain = true)
    (h26 : v.getLsbD 26 = true) (hc : s.fld (Reg.LANE_CFG_PRBS p i) = v.toNat / 2 ^ 29) (h27 : v.getLsbD 27 = true) (h28 : v.getLsbD 28 = true)
    (hr : s.prbsRuns p i = true) (hk : s.flag (Reg.LANE_STATUS_PRBS_LOCK p i) = true) : Completes (.inject m p i v) s fun t =>
      t.fld (Reg.LANE_PRBS_ERR p i) = min (s.fld (Reg.LANE_PRBS_ERR p i) + 1) (2 ^ 32 - 1) ∧ t.fld (Reg.LANE_CFG_INJECT p i) = 0 ∧
      t.lanes = s.lanes ∧ Frame [] [L, L + 0x14, 0x80060 + 0x4000 * p.val] s t := by
  subst hL
  obtain ⟨w, u, aside, wrote, e⟩ := write_inject m p i v hm
  have hu := wrote.cfgWritten
  have old : w.fld (Reg.LANE_CFG_PRBS p i) = u.fld (Reg.LANE_CFG_PRBS p i) := (aside.fld (Reg.LANE_CFG_PRBS p i) (quiet_laneCfg p i)).trans (hc.trans hu.prbs.symm)
  have word : ∀ x, 0x80000 ≤ x → x ≠ 0x81000 + 0x4000 * p.val + 0x40 * i.val → x ≠ 0x80060 + 0x4000 * p.val → (injectShown u p i).word x = s.word x :=
    fun x hx hc he => (word_injectShown hc).trans (hu.frame.camera hx (by simp only [List.mem_cons, List.not_mem_nil, or_false]; omega))
  have ports : (injectShown u p i).ports = s.ports := (setFld_ports ..).trans (hu.keeps.same .ports rfl)
  have lanes : (injectShown u p i).lanes = s.lanes := (setFld_lanes ..).trans (hu.keeps.same .lanes rfl)
  have prbs : (injectShown u p i).fld (Reg.LANE_CFG_PRBS p i) = s.fld (Reg.LANE_CFG_PRBS p i) :=
    (fld_injectShown rfl (show 31 < 32 by decide) (show 26 < 29 by decide)).trans (hu.prbs.trans hc.symm)
  have loop : (injectShown u p i).fld (Reg.LANE_CFG_LOOP p i) = 1 :=
    (fld_injectShown rfl (show 27 < 32 by decide) (show 26 < 27 by decide)).trans (hu.loop.trans (testBit_eq_div _ 27 ((BitVec.testBit_toNat v).trans h27)))
  have gen : (injectShown u p i).fld (Reg.LANE_CFG_GEN p i) = 1 :=
    (fld_injectShown rfl (show 28 < 32 by decide) (show 26 < 28 by decide)).trans (hu.gen.trans (testBit_eq_div _ 28 ((BitVec.testBit_toNat v).trans h28)))
  have runs : (injectShown u p i).prbsRuns p i = true := (prbsRuns_congr ports prbs fun x hx => by
    obtain ⟨high, hc, he⟩ := runWords_high hx
    exact word x high hc he).trans hr
  have locked : (injectShown u p i).flag (Reg.LANE_STATUS_PRBS_LOCK p i) = true := (flag_of_fld (State.fld_of_word (f := Reg.LANE_STATUS_PRBS_LOCK p i)
    (word (0x81004 + 0x4000 * p.val + 0x40 * i.val) (by omega) (by omega) (by omega)))).trans hk
  rw [show bit v.toNat 26 = true from (BitVec.testBit_toNat v).trans h26, laneCfgWritten_inject old, prbsInject_counts loop gen runs locked] at e
  have shown : (injectShown u p i).fld (Reg.LANE_CFG_INJECT p i) = 0 :=
    State.fld_setFld_same u (Reg.LANE_CFG_INJECT p i) 0 (show 26 ≤ 26 by decide) (show 26 < 32 by decide)
  have frame : Frame [] [0x81000 + 0x4000 * p.val + 0x40 * i.val] u (injectShown u p i) := Frame.setFld (Reg.LANE_CFG_INJECT p i) 0 List.mem_cons_self
  have errors : (injectShown u p i).fld (Reg.LANE_PRBS_ERR p i) = s.fld (Reg.LANE_PRBS_ERR p i) := State.fld_of_word (f := Reg.LANE_PRBS_ERR p i)
    (word (0x81014 + 0x4000 * p.val + 0x40 * i.val) (by omega) (by omega) (by omega))
  generalize injectShown u p i = r at e shown frame errors lanes
  refine ⟨_, e, ?_, ?_, ?_, ?_⟩
  · rw [State.fld_count_same 1 (show 0 ≤ 31 by decide) (show 31 < 32 by decide), errors]
    rfl
  · rw [State.fld_count_addr 1 (show 0x81000 + 0x4000 * p.val + 0x40 * i.val ≠ 0x81014 + 0x4000 * p.val + 0x40 * i.val by omega), shown]
  · exact ((keeps_count (L := 264) _ _ Keeps.refl rfl).same .lanes rfl).trans lanes
  · refine (hu.frame.mono nofun ?_).trans ((frame.mono nofun ?_).trans (Frame.count (Reg.LANE_PRBS_ERR p i) 1
      (show 0x81014 + 0x4000 * p.val + 0x40 * i.val ∈ _ from ?_) (quiet_laneCounters p i).1 (show 0x81014 + 0x4000 * p.val + 0x40 * i.val ≠ 0x50004 by omega)))
    · intro a ha
      simp only [List.mem_cons, List.not_mem_nil, or_false] at ha ⊢
      omega
    · intro a ha
      rw [List.mem_singleton.mp ha]
      exact List.mem_cons_self
    · simp only [List.mem_cons, List.not_mem_nil, or_false]
      omega

end Sys2Proof.Machine
end

section
/-! PROOFS. O34: camera frames and line code, put together (R131, R138, R144 to R157, R163). -/

namespace Sys2Proof.Machine

open State

/-- Settles O34: a frame from its SOF to its EOF or its late end, the frame queue and the sync outputs, and the line code and test patterns of a lane. -/
theorem cameraFramesAndLineCode : Obligations.CameraFramesAndLineCode := by
  unfold Obligations.CameraFramesAndLineCode
  constructor
  · intro p P s hP
    subst hP
    refine ⟨fun blocks use b hr hl hf hu hg hb => ⟨fun q es hk hq h0 h2 hs hc => sof_opens hr hl hf hu hg hb hk hq h0 h2 hs hc,
      sof_noBerth hr hl hf hu hg hb, sof_stray hr hl hf hu hg hb⟩, fun blocks prev c hc h => ?_, fun f x k r b => seam_accepts, fun f b => seam_failedHeader,
      fun f x k r n => seam_drops, fun f x b hr hl hn hf hrow hc hb hk hrows h1 hx ho hrun hv he hm hraw hmap hs hg h0 hst hcount => ?_,
      fun f hf => ⟨srxFrameExpire_closes hf, srxFrameExpire_rests hf⟩, fun m raw map hm => ⟨srxFqPush_takes hm, srxFqPush_loses hm⟩,
      syncOutputEdge_starts⟩
    · simp only [List.mem_cons, List.not_mem_nil, or_false] at hc
      rcases hc with rfl | rfl | rfl
      · exact sof_rests blocks h
      · exact seam_rests 0 h
      · exact eof_rests blocks prev 0 h
    · obtain ⟨t, ht, none, work, count, queue, mem⟩ :=
        eof_ends hr hl hn hf hrow hc hb hk hrows h1 hx ho hrun hv he hm hraw hmap hs hg h0 hst hcount
      exact ⟨t, ht, none, work, count, queue, mem⟩
  · intro p i L s hL
    exact ⟨fun hdr block => badBlock_counts hL hdr block, badBlock_rests, prbsLock_locks hL, prbsLock_rests, fun m v =>
      ⟨laneSlip_effect hL m v, fun hm => ⟨prbsSelect_restarts hL m v hm, inject_counts hL m v hm⟩⟩⟩

end Sys2Proof.Machine
end

section
/-! PROOFS. O33 and O34 on camera ports that stand ready: states of which their hypotheses hold, and what follows. -/

namespace Sys2Proof.Machine

open State

/-- Lane 0 of port 0 is in training state `n`, its port in state `m`. -/
def laneAt (m n : Nat) : State := (State.reset.setFld (Reg.SRX_STATUS_STATE 0) m).setFld (Reg.LANE_STATUS_STATE 0 0) n

/-- O33 of a lane in SIGNAL. -/
theorem cameraLanesTrainAndFault_signal : Completes (.laneSignal 0 0) (laneAt 1 1) fun t => t.laneState 0 0 = 2 := by
  obtain ⟨t, ht, hs, -⟩ := laneSignal_goes (s := laneAt 1 1) (p := 0) (i := 0) rfl (by decide +kernel)
  exact ⟨t, ht, hs⟩

/-- O33 of a READY lane that loses its signal. -/
theorem cameraLanesTrainAndFault_loss : Completes (.laneSignalLoss 0 0) (laneAt 2 6) fun t =>
    t.laneState 0 0 = 7 ∧ t.fld (Reg.LANE_STATUS_FAULT 0 0) = 3 := by
  obtain ⟨t, ht, hs, hc, -⟩ := laneSignalLoss_faults (s := laneAt 2 6) (p := 0) (i := 0) rfl rfl (by decide +kernel) (by decide +kernel)
  exact ⟨t, ht, hs, hc⟩

/-- O33 of the only enabled lane's arrival, which ends the training. -/
theorem cameraLanesTrainAndFault_deskew : Completes (.laneDeskew 0 [(0, 9)]) ((laneAt 1 5).setFld (Reg.SRX_LANE_EN_LO 0) 1) fun t =>
    t.laneState 0 0 = 6 ∧ t.portState 0 = 2 := by
  obtain ⟨t, ht, ready, -, done⟩ := laneDeskew_effect (s := (laneAt 1 5).setFld (Reg.SRX_LANE_EN_LO 0) 1) 0 [(0, 9)] 9 9
    (by decide +kernel) (by decide +kernel) (by decide) (by decide +kernel) (by decide) (by decide) (by decide) (by decide)
  exact ⟨t, ht, (ready (0, 9) (by decide) (by decide)).1, (done (by decide +kernel)).1⟩

/-- Master 1 owns Daxma, all domains are on, and port 0 is READY with lane 0 enabled. -/
def readyPortState : State :=
  { ((laneAt 2 6).setFld (Reg.SRX_LANE_EN_LO 0) 1).setFld Reg.PWR_DOMAIN_ON_LO 0xFFFFFFFF with sys := { owner := 1 } }

/-- O33 of TRAIN on it. -/
theorem cameraLanesTrainAndFault_train : Completes (.srxTrain 1 0 0) readyPortState fun t => t.portState 0 = 1 ∧ t.laneState 0 0 = 1 := by
  obtain ⟨t, ht, hp, -, -, -, -, hs, -⟩ := srxTrain_effect (s := readyPortState) 0 0 1 0 (by decide +kernel) ⟨by decide +kernel, by decide⟩
  exact ⟨t, ht, hp, hs.trans (by decide +kernel)⟩

/-- O33 of RUN on it. -/
theorem cameraLanesTrainAndFault_run : Completes (.srxRun 1 0 0) readyPortState fun t => t.portState 0 = 3 := by
  obtain ⟨t, ht, hp, -⟩ := srxRun_ready (s := readyPortState) (p := 0) (m := 1) (rest := 0) (by decide +kernel) ⟨by decide +kernel, by decide⟩ (by decide +kernel)
  exact ⟨t, ht, hp⟩

/-- Port 0 runs with lane 0 alone, which carries sensor lane 0; its frame queue holds berth 1. -/
def runningPortState : State :=
  { laneAt 3 6 with
    lanes := [(0, { ident := true })], queues := [(0x80030, [⟨1, 0, false⟩])],
    sys := { owner := 1, banks := [(0, [⟨0, 0, [(0x80048, 1)]⟩])] },
    fab := { berths := [(1, { base := 16, pages := 64, count := 1, st := .held })] } }

/-- A stratum-0 SOF of width code 1 on lane 0, in the code that reset selects. -/
def sofBlock : LaneBlock := ⟨0, BitVec.ofNat 64 (0x400 + ctlByte (runningPortState.flag (Reg.SRX_CTRL_CODE 0)) 2), 0⟩

/-- O34 of that SOF: the frame takes berth 1. -/
theorem cameraFramesAndLineCode_sof : Completes (.sof 0 [sofBlock]) runningPortState fun t =>
    t.queue 0x80030 = [] ∧ (t.berth 1).count = 2 ∧ ∃ f, (t.port 0).frame = some f ∧ f.raw = 1 ∧ f.width = 1 := by
  obtain ⟨t, ht, hq, hc, -, ⟨f, hf, hraw, -, -, -, -, hw, -⟩, -⟩ := sof_opens (s := runningPortState) (p := 0) (blocks := [sofBlock]) (b := sofBlock) (q := ⟨1, 0, false⟩) (es := [])
    (by decide +kernel) (by decide +kernel) (by decide +kernel) rfl (by decide +kernel) (by decide +kernel) (by decide +kernel) (by decide +kernel)
    (by decide) rfl (by decide +kernel) (by decide +kernel)
  exact ⟨t, ht, hq, hc.trans (by decide +kernel), f, hf, hraw, hw.trans (by decide +kernel)⟩

/-- The frame of berth 1 on lane 0, with all its rows kept. -/
def wholeFrame : PortFrame :=
  { raw := 1, map := 0, entry := true, rawOk := true, mapOk := false, man := { tide := 5 }, width := 1, use := 1,
    strata := [(0, some { next := 1, valid := 1 })] }

/-- Port 0 has it open, under AUTO. -/
def openFrameState : State :=
  { (laneAt 3 6).setFld (Reg.PIPE_CTRL_AUTO 0) 1 with
    lanes := [(0, { ident := true })], ports := [(0, { frame := some wholeFrame })],
    fab := { berths := [(1, { base := 16, pages := 64, count := 2, st := .held })], work := [⟨0, 5, 5, false, 0⟩] } }

/-- The EOF of stratum 0 that counts 1 row. -/
def eofBlock : LaneBlock := ⟨0, BitVec.ofNat 64 (2 ^ 40 + ctlByte (openFrameState.flag (Reg.SRX_CTRL_CODE 0)) 4), 0⟩

/-- O34 of that EOF: the frame is done, and the pipeline has it. -/
theorem cameraFramesAndLineCode_eof : Completes (.eof 0 [eofBlock] [] 0) openFrameState fun t =>
    (t.port 0).frame = none ∧ (t.berth 1).count = 1 ∧ t.queue 0x100008 = [⟨1, 0, false⟩] := by
  obtain ⟨t, ht, hf, -, hc, hq, -⟩ := eof_ends (s := openFrameState) (p := 0) (f := wholeFrame) (x := { next := 1, valid := 1 }) (b := eofBlock)
    (by decide +kernel) (by decide +kernel) (noFollower_unlanded rfl rfl) rfl rfl (by decide +kernel) (by decide +kernel) (by decide +kernel) (by decide +kernel)
    (by decide +kernel) rfl rfl rfl (by decide +kernel) rfl rfl rfl rfl rfl rfl (by decide) (by decide +kernel) (by decide +kernel)
  exact ⟨t, ht, hf, hc.trans (by decide +kernel), hq.trans (by decide +kernel)⟩

/-- A lane whose PRBS-7 checker is locked to its own generator, on a port in TRAIN that master 1 may write. -/
def loopedLaneState : State :=
  { ((laneAt 1 6).setFld (Reg.LANE_CFG_PRBS 0 0) 1).setFld (Reg.LANE_STATUS_PRBS_LOCK 0 0) 1 with sys := { owner := 1 } }

/-- O34 of an INJECT on it. -/
theorem cameraFramesAndLineCode_inject : Completes (.inject 1 0 0 0x3C000000#32) loopedLaneState fun t =>
    t.fld (Reg.LANE_PRBS_ERR 0 0) = 1 ∧ t.fld (Reg.LANE_CFG_INJECT 0 0) = 0 := by
  obtain ⟨t, ht, he, hi, -⟩ := inject_counts (s := loopedLaneState) (p := 0) (i := 0) rfl 1 0x3C000000#32 (by decide +kernel) (by decide) (by decide +kernel)
    (by decide) (by decide) (by decide +kernel) (by decide +kernel)
  exact ⟨t, ht, he.trans (by decide +kernel), hi⟩

end Sys2Proof.Machine
end

section
/-! PROOFS. O36, what calibration items show: the pending and the stale mask, STATE, and what CAL's notes and events leave (R227, R231, R232). -/

namespace Sys2Proof.Machine

open State

variable {s t : State} {ps : List Part} {as : List Nat} {n j : Nat} {b : Bool}

/-! ### Masks of 41 items in two words -/

theorem fld2_lt_mask (a c : Nat) : s.fld2 ⟨a, 31, 0⟩ ⟨c, 8, 0⟩ < 2 ^ 41 := by
  have low : s.fld ⟨a, 31, 0⟩ < 2 ^ 32 := bits_lt _ 31 0
  have high : s.fld ⟨c, 8, 0⟩ < 2 ^ 9 := bits_lt _ 8 0
  unfold fld2
  rw [Nat.shiftLeft_eq]
  omega

theorem fld2_setFld2_mask {a c v : Nat} (hac : a ≠ c) (hv : v < 2 ^ 41) :
    (s.setFld2 ⟨a, 31, 0⟩ ⟨c, 8, 0⟩ v).fld2 ⟨a, 31, 0⟩ ⟨c, 8, 0⟩ = v := by
  have low : ((s.setFld ⟨a, 31, 0⟩ v).setFld ⟨c, 8, 0⟩ (v >>> 32)).fld ⟨a, 31, 0⟩ = v % 2 ^ 32 :=
    (State.fld_setFld_addr _ ⟨c, 8, 0⟩ ⟨a, 31, 0⟩ _ hac).trans (State.fld_setFld_same s ⟨a, 31, 0⟩ v (Nat.zero_le _) (show 31 < 32 by decide))
  have high : ((s.setFld ⟨a, 31, 0⟩ v).setFld ⟨c, 8, 0⟩ (v >>> 32)).fld ⟨c, 8, 0⟩ = (v >>> 32) % 2 ^ 9 :=
    State.fld_setFld_same _ ⟨c, 8, 0⟩ _ (Nat.zero_le _) (show 8 < 32 by decide)
  unfold fld2 setFld2
  rw [low, high, Nat.shiftRight_eq_div_pow, Nat.shiftLeft_eq]
  omega

theorem maskBit_setMaskBit {a c : Nat} (hac : a ≠ c) (hn : n < 41) :
    (s.setMaskBit ⟨a, 31, 0⟩ ⟨c, 8, 0⟩ n b).maskBit ⟨a, 31, 0⟩ ⟨c, 8, 0⟩ j = if j = n then b else s.maskBit ⟨a, 31, 0⟩ ⟨c, 8, 0⟩ j := by
  unfold maskBit setMaskBit bit
  rw [fld2_setFld2_mask hac (putBits_lt (fld2_lt_mask a c) (Nat.le_refl n) hn), putBits_testBit _ _ _ _ _ (Nat.le_refl n)]
  by_cases h : j = n
  · rw [if_pos ⟨h ▸ Nat.le_refl n, h ▸ Nat.le_refl j⟩, if_pos h, h, Nat.sub_self]
    cases b <;> rfl
  · rw [if_neg fun hj => h (Nat.le_antisymm hj.2 hj.1), if_neg h]

theorem calPending_setCalPending (hn : n < 41) : (s.setCalPending n b).calPending j = if j = n then b else s.calPending j :=
  maskBit_setMaskBit (by decide) hn

theorem calStale_setCalStale (hn : n < 41) : (s.setCalStale n b).calStale j = if j = n then b else s.calStale j :=
  maskBit_setMaskBit (by decide) hn

/-! ### What a frame that names other words leaves -/

theorem Frame.calPending (h : Frame ps as s t) (hl : 0x150038 ∉ as) (hh : 0x15003C ∉ as) (n : Nat) : t.calPending n = s.calPending n :=
  congrArg (bit · n) (fld2_of_word (lo := Reg.CAL_PEND_LO) (hi := Reg.CAL_PEND_HI) (h.camera (by decide) hl) (h.camera (by decide) hh))

theorem Frame.calStale (h : Frame ps as s t) (hl : 0x150030 ∉ as) (hh : 0x150034 ∉ as) (n : Nat) : t.calStale n = s.calStale n :=
  congrArg (bit · n) (fld2_of_word (lo := Reg.CAL_STALE_LO) (hi := Reg.CAL_STALE_HI) (h.camera (by decide) hl) (h.camera (by decide) hh))

theorem Frame.calThreshold (h : Frame ps as s t) (hn : 0x150004 ∉ as) (n : Nat) : t.calThreshold n = s.calThreshold n := by
  have same : ∀ f : Fld, f.addr = 0x150004 → t.fld f = s.fld f := fun f hf => h.cameraFld hf (by decide) hn
  unfold State.calThreshold
  rw [same Reg.CAL_CFG_THRESH_LANE rfl, same Reg.CAL_CFG_THRESH_MEM rfl, same Reg.CAL_CFG_THRESH_MISC rfl]

/-- The word of STATE, FAILS and RUNS of an item. -/
theorem Frame.calItem {f : Fld} (h : Frame ps as s t) (hf : f.addr = 0x150100 + 0x10 * n) (hn : 0x150100 + 0x10 * n ∉ as) : t.fld f = s.fld f :=
  h.cameraFld hf (by omega) hn

/-- The word of T_START and T_NOW of an item. -/
theorem Frame.calTemp {f : Fld} (h : Frame ps as s t) (hf : f.addr = 0x150104 + 0x10 * n) (hn : 0x150104 + 0x10 * n ∉ as) : t.fld f = s.fld f :=
  h.cameraFld hf (by omega) hn

theorem frame_setCalPending (hl : 0x150038 ∈ as) (hh : 0x15003C ∈ as) : Frame ps as s (s.setCalPending n b) := Frame.setFld2 _ _ _ hl hh

theorem frame_setCalStale (hl : 0x150030 ∈ as) (hh : 0x150034 ∈ as) : Frame ps as s (s.setCalStale n b) := Frame.setFld2 _ _ _ hl hh

theorem frame_showItem (h : 0x150100 + 0x10 * n ∈ as) : Frame ps as s (s.showItem n) := Frame.setFld _ _ h

theorem frame_calNote (code : Nat) : Frame ps as s (s.calNote n code) := Frame.note _ _ _ _

theorem frame_calRaise (m : Nat) (h : 0x150008 ∈ as) : Frame ps as s (s.calRaise m) := Frame.raise _ _ _ _ _ h (by decide) (by decide)

theorem frame_setCalResult (r : Option CalResult) (h : Part.cal ∈ ps) : Frame ps as s (s.setCalResult n r) :=
  frame_part (Only.of_keeps (n := 1048576) (keeps_setCalResult n r Keeps.refl rfl) (by decide)) h rfl rfl

theorem fld_calNote {f : Fld} (code : Nat) (h : 0x80000 ≤ f.addr) : (s.calNote n code).fld f = s.fld f :=
  State.fld_note _ _ _ _ (calm_camera h)

theorem cal_calNote (code : Nat) : (s.calNote n code).cal = s.cal := (keeps_calNote (L := 148360) n code Keeps.refl rfl).same .cal rfl

theorem cal_calRaise (m : Nat) : (s.calRaise m).cal = s.cal := (keeps_calRaise (L := 17288) m Keeps.refl rfl).same .cal rfl

theorem calResult_congr (h : t.cal = s.cal) (n : Nat) : t.calResult n = s.calResult n := by
  unfold calResult
  rw [h]

theorem fld_setCalResult (r : Option CalResult) (f : Fld) : (s.setCalResult n r).fld f = s.fld f := State.fld_congr rfl f

theorem calResult_setCalResult_same (r : Option CalResult) : (s.setCalResult n r).calResult n = r := SMap.get_set_same ..

theorem calResult_setCalResult_other (r : Option CalResult) (h : j ≠ n) : (s.setCalResult n r).calResult j = s.calResult j :=
  SMap.get_set_other _ _ h

/-! ### STATE -/

theorem calState_showItem : (s.showItem n).fld (Reg.CAL_ITEM_STATE n) = if s.fld (Reg.CAL_ITEM_STATE n) = 2 then 2
    else if s.calPending n = true then 1 else if (s.calResult n).isSome = true then 3 else 0 := by
  refine (State.fld_setFld_same s (Reg.CAL_ITEM_STATE n) _ (show 30 ≤ 31 by decide) (show 31 < 32 by decide)).trans (Nat.mod_eq_of_lt ?_)
  show _ < 4
  split_ifs <;> decide

/-- The fields of an item's first word under STATE stand. -/
theorem fld_showItem {f : Fld} (hf : f.addr = 0x150100 + 0x10 * n) (h : f.hi < 30) : (s.showItem n).fld f = s.fld f :=
  State.fld_setFld_bits s (Reg.CAL_ITEM_STATE n) f _ hf (show 30 ≤ 31 by decide) (by omega) (.inl h)

/-! ### An item becomes pending (R227, R231) -/

/-- The words in which item `n` shows that it is pending. -/
def pendingWords (n : Nat) : List Nat := [0x150100 + 0x10 * n, 0x150038, 0x15003C, 0x150030, 0x150034]

theorem frame_makePending : Frame ps (pendingWords n) s (s.makePending n) := by
  have stale : Frame ps (pendingWords n) s ((s.setCalPending n true).setCalStale n true) :=
    (frame_setCalPending (by simp [pendingWords]) (by simp [pendingWords])).trans
      (frame_setCalStale (by simp [pendingWords]) (by simp [pendingWords]))
  exact (stale.trans (frame_showItem List.mem_cons_self)).trans (frame_calNote 0)

theorem calPending_makePending (hn : n < 41) : (s.makePending n).calPending j = if j = n then true else s.calPending j := by
  have rest : Frame [] [0x150030, 0x150034, 0x150100 + 0x10 * n] (s.setCalPending n true) (s.makePending n) :=
    ((frame_setCalStale (by simp) (by simp)).trans (frame_showItem (by simp))).trans (frame_calNote 0)
  rw [rest.calPending (by simp; omega) (by simp; omega), calPending_setCalPending hn]

theorem calStale_makePending (hn : n < 41) : (s.makePending n).calStale j = if j = n then true else s.calStale j := by
  have rest : Frame [] [0x150100 + 0x10 * n] ((s.setCalPending n true).setCalStale n true) (s.makePending n) :=
    (frame_showItem (by simp)).trans (frame_calNote 0)
  have first : Frame [] [0x150038, 0x15003C] s (s.setCalPending n true) := frame_setCalPending (by decide) (by decide)
  rw [rest.calStale (by simp; omega) (by simp; omega), calStale_setCalStale hn, first.calStale (by decide) (by decide)]

theorem calState_makePending (hn : n < 41) : (s.makePending n).fld (Reg.CAL_ITEM_STATE j) =
    if j = n then (if s.fld (Reg.CAL_ITEM_STATE n) = 2 then 2 else 1) else s.fld (Reg.CAL_ITEM_STATE j) := by
  by_cases h : j = n
  · subst h
    have pend : Frame [] [0x150038, 0x15003C] s (s.setCalPending j true) := frame_setCalPending (by decide) (by decide)
    have stale : Frame [] [0x150030, 0x150034] (s.setCalPending j true) ((s.setCalPending j true).setCalStale j true) :=
      frame_setCalStale (by decide) (by decide)
    have shown : (s.makePending j).fld (Reg.CAL_ITEM_STATE j) = _ := (fld_calNote 0 (show 0x80000 ≤ 0x150100 + 0x10 * j by omega)).trans calState_showItem
    have state : ((s.setCalPending j true).setCalStale j true).fld (Reg.CAL_ITEM_STATE j) = s.fld (Reg.CAL_ITEM_STATE j) :=
      (stale.calItem rfl (by simp; omega)).trans (pend.calItem rfl (by simp; omega))
    rw [shown, state, stale.calPending (by decide) (by decide), calPending_setCalPending hn, if_pos rfl, if_pos rfl, if_pos rfl]
  · rw [if_neg h]
    exact (frame_makePending (ps := [])).calItem rfl (by simp [pendingWords]; omega)

end Sys2Proof.Machine
end

section
/-! PROOFS. O36, what makes calibration items pending: temperature samples and CAL_CMD (R227, R229, R232). -/

namespace Sys2Proof.Machine

open State

variable {s : State} {n j k T : Nat}

/-! ### Temperature samples (R227, R229) -/

theorem exec_calTempSample (temps : List (Fin 41 × BitVec 16)) (hr : s.replayMode = false) :
    exec (.calTempSample temps) s = .next (tempSamples temps s) := by
  have e : exec (.calTempSample temps) s = .next (if s.replayMode then s else tempSamples temps s) := rfl
  rw [e, hr]
  rfl

theorem calThreshold_eq (s : State) (n : Nat) : s.calThreshold n =
    (if n < 32 then some ((s.fld Reg.CAL_CFG_THRESH_LANE + 1) * 128) else if n < 38 then some ((s.fld Reg.CAL_CFG_THRESH_MEM + 1) * 128)
     else if n = 39 then none else some ((s.fld Reg.CAL_CFG_THRESH_MISC + 1) * 128)) := rfl

/-- How far temperature `T` lies from the one at which item `n`'s last run started, in 1/256 °C. -/
def tempDistance (s : State) (n T : Nat) : Nat := (signed 16 T - signed 16 (s.fld (Reg.CAL_ITEM_T_START n))).natAbs

/-- Temperature `T` makes item `n` pending. -/
def tempTriggers (s : State) (n T : Nat) : Prop :=
  s.flag Reg.CAL_CFG_AUTO = true ∧ s.fld (Reg.CAL_ITEM_FAILS n) < 3 ∧ ∃ th, s.calThreshold n = some th ∧ th < tempDistance s n T

theorem not_tempTriggers (h : s.calThreshold n = none ∨ s.flag Reg.CAL_CFG_AUTO = false ∨ 3 ≤ s.fld (Reg.CAL_ITEM_FAILS n) ∨
    ∃ th, s.calThreshold n = some th ∧ tempDistance s n T ≤ th) : ¬tempTriggers s n T := by
  rintro ⟨auto, fails, th, hth, far⟩
  rcases h with none | off | failed | ⟨th', hth', near⟩
  · rw [hth] at none
    cases none
  · rw [auto] at off
    cases off
  · omega
  · rw [hth] at hth'
    cases hth'
    omega

theorem frame_setTNow : Frame [] [0x150104 + 0x10 * n] s (s.setFld (Reg.CAL_ITEM_T_NOW n) T) := Frame.setFld _ _ List.mem_cons_self

theorem tStart_setTNow : (s.setFld (Reg.CAL_ITEM_T_NOW n) T).fld (Reg.CAL_ITEM_T_START n) = s.fld (Reg.CAL_ITEM_T_START n) :=
  State.fld_setFld_bits s (Reg.CAL_ITEM_T_NOW n) (Reg.CAL_ITEM_T_START n) _ rfl (Nat.zero_le _) (show 31 < 32 by decide) (.inr (show 15 < 16 by decide))

theorem tNow_setTNow : (s.setFld (Reg.CAL_ITEM_T_NOW n) T).fld (Reg.CAL_ITEM_T_NOW n) = T % 2 ^ 16 :=
  State.fld_setFld_same s (Reg.CAL_ITEM_T_NOW n) _ (Nat.zero_le _) (show 15 < 32 by decide)

theorem tempSample_unlimited (h : s.calThreshold n = none) : s.tempSample n T = s.setFld (Reg.CAL_ITEM_T_NOW n) T := by
  unfold tempSample
  dsimp only
  rw [frame_setTNow.calThreshold (by simp; omega), h]

/-- What decides a sample is read after T_NOW is taken, which does not change it. -/
theorem tempSample_limited {th : Nat} (h : s.calThreshold n = some th) : s.tempSample n T =
    if s.flag Reg.CAL_CFG_AUTO && decide (th < tempDistance s n T) && decide (s.fld (Reg.CAL_ITEM_FAILS n) < 3)
    then (s.setFld (Reg.CAL_ITEM_T_NOW n) T).makePending n else s.setFld (Reg.CAL_ITEM_T_NOW n) T := by
  have taken : Frame [] [0x150104 + 0x10 * n] s (s.setFld (Reg.CAL_ITEM_T_NOW n) T) := frame_setTNow
  have auto : (s.setFld (Reg.CAL_ITEM_T_NOW n) T).flag Reg.CAL_CFG_AUTO = s.flag Reg.CAL_CFG_AUTO :=
    flag_of_fld (taken.cameraFld (x := 0x150004) rfl (by decide) (by simp; omega))
  have fails : (s.setFld (Reg.CAL_ITEM_T_NOW n) T).fld (Reg.CAL_ITEM_FAILS n) = s.fld (Reg.CAL_ITEM_FAILS n) := taken.calItem rfl (by simp)
  unfold tempSample tempDistance
  dsimp only
  rw [taken.calThreshold (by simp; omega), h]
  dsimp only
  rw [auto, fails, tStart_setTNow]

theorem tempSample_triggered (h : tempTriggers s n T) : s.tempSample n T = (s.setFld (Reg.CAL_ITEM_T_NOW n) T).makePending n := by
  obtain ⟨auto, fails, th, hth, far⟩ := h
  rw [tempSample_limited hth, auto, decide_eq_true far, decide_eq_true fails]
  rfl

theorem tempSample_rests (h : ¬tempTriggers s n T) : s.tempSample n T = s.setFld (Reg.CAL_ITEM_T_NOW n) T := by
  cases hth : s.calThreshold n with
  | none => exact tempSample_unlimited hth
  | some th =>
    rw [tempSample_limited hth]
    refine if_neg fun hc => h ?_
    simp only [Bool.and_eq_true, decide_eq_true_eq] at hc
    exact ⟨hc.1.1, hc.2, th, hth, hc.1.2⟩

theorem frame_tempSample : Frame [] ((0x150104 + 0x10 * n) :: pendingWords n) s (s.tempSample n T) := by
  have taken : Frame [] ((0x150104 + 0x10 * n) :: pendingWords n) s (s.setFld (Reg.CAL_ITEM_T_NOW n) T) := Frame.setFld _ _ List.mem_cons_self
  by_cases h : tempTriggers s n T
  · rw [tempSample_triggered h]
    exact taken.trans (frame_makePending.mono (fun _ h => h) fun _ => List.mem_cons_of_mem _)
  · rwa [tempSample_rests h]

theorem tNow_tempSample : (s.tempSample n T).fld (Reg.CAL_ITEM_T_NOW n) = T % 2 ^ 16 := by
  by_cases h : tempTriggers s n T
  · rw [tempSample_triggered h, (frame_makePending (ps := [])).calTemp rfl (by simp [pendingWords]; omega), tNow_setTNow]
  · rw [tempSample_rests h, tNow_setTNow]

theorem tNow_tempSample_other (h : k ≠ n) : (s.tempSample n T).fld (Reg.CAL_ITEM_T_NOW k) = s.fld (Reg.CAL_ITEM_T_NOW k) :=
  frame_tempSample.calTemp rfl (by simp [pendingWords]; omega)

theorem tNow_tempSamples_other : (temps : List (Fin 41 × BitVec 16)) → (∀ e ∈ temps, k ≠ e.1.val) → (s : State) →
    (tempSamples temps s).fld (Reg.CAL_ITEM_T_NOW k) = s.fld (Reg.CAL_ITEM_T_NOW k)
  | [], _, _ => rfl
  | e :: temps, h, _ => (tNow_tempSamples_other temps (fun x hx => h x (List.mem_cons_of_mem _ hx)) _).trans
      (tNow_tempSample_other (h e List.mem_cons_self))

/-- Samples of different items do not disturb one another. -/
theorem tNow_tempSamples : (temps : List (Fin 41 × BitVec 16)) → (temps.map fun e => e.1).Nodup → (s : State) →
    ∀ e ∈ temps, (tempSamples temps s).fld (Reg.CAL_ITEM_T_NOW e.1) = e.2.toNat
  | [], _, _ => nofun
  | a :: temps, hd, _ => by
    intro e he
    obtain ⟨fresh, rest⟩ := List.nodup_cons.mp hd
    rcases List.mem_cons.mp he with rfl | he
    · have others : ∀ x ∈ temps, e.1.val ≠ x.1.val := fun x hx same => fresh (List.mem_map.mpr ⟨x, hx, (Fin.ext same).symm⟩)
      exact (tNow_tempSamples_other temps others _).trans (tNow_tempSample.trans (Nat.mod_eq_of_lt e.2.isLt))
    · exact tNow_tempSamples temps rest _ e he

theorem calTempSample_effect (n : Fin 41) (T : BitVec 16) (hr : s.replayMode = false) : Completes (.calTempSample [(n, T)]) s fun t =>
    t.fld (Reg.CAL_ITEM_T_NOW n) = T.toNat ∧ (tempTriggers s n T.toNat → t.calPending n = true ∧ t.calStale n = true) ∧
    (¬tempTriggers s n T.toNat → Frame [] [0x150104 + 0x10 * n.val] s t) ∧ Frame [] ((0x150104 + 0x10 * n.val) :: pendingWords n) s t := by
  refine ⟨s.tempSample n T.toNat, exec_calTempSample _ hr, tNow_tempSample.trans (Nat.mod_eq_of_lt T.isLt), fun h => ?_, fun h => ?_, frame_tempSample⟩
  · rw [tempSample_triggered h, calPending_makePending n.isLt, calStale_makePending n.isLt]
    exact ⟨if_pos rfl, if_pos rfl⟩
  · rw [tempSample_rests h]
    exact frame_setTNow

/-! ### CAL_CMD with OP = RUN (R227, R231) -/

theorem calPending_makeAllPending : (ns : List Nat) → (∀ k ∈ ns, k < 41) → (s : State) →
    (makeAllPending ns s).calPending j = if j ∈ ns then true else s.calPending j
  | [], _, _ => rfl
  | n :: ns, h, s => by
    rw [makeAllPending, calPending_makeAllPending ns (fun k hk => h k (List.mem_cons_of_mem _ hk)), calPending_makePending (h n List.mem_cons_self)]
    by_cases hj : j ∈ ns <;> by_cases hn : j = n <;> simp [hj, hn]

theorem calStale_makeAllPending : (ns : List Nat) → (∀ k ∈ ns, k < 41) → (s : State) →
    (makeAllPending ns s).calStale j = if j ∈ ns then true else s.calStale j
  | [], _, _ => rfl
  | n :: ns, h, s => by
    rw [makeAllPending, calStale_makeAllPending ns (fun k hk => h k (List.mem_cons_of_mem _ hk)), calStale_makePending (h n List.mem_cons_self)]
    by_cases hj : j ∈ ns <;> by_cases hn : j = n <;> simp [hj, hn]

theorem calState_makeAllPending : (ns : List Nat) → (∀ k ∈ ns, k < 41) → (s : State) → (makeAllPending ns s).fld (Reg.CAL_ITEM_STATE j) =
    if j ∈ ns then (if s.fld (Reg.CAL_ITEM_STATE j) = 2 then 2 else 1) else s.fld (Reg.CAL_ITEM_STATE j)
  | [], _, _ => rfl
  | n :: ns, h, s => by
    rw [makeAllPending, calState_makeAllPending ns (fun k hk => h k (List.mem_cons_of_mem _ hk)), calState_makePending (h n List.mem_cons_self)]
    by_cases hn : j = n
    · subst hn
      by_cases run : s.fld (Reg.CAL_ITEM_STATE j) = 2 <;> simp [run]
    · simp [hn]

/-- The items that a RUN names: one, or all with 63. -/
def itemsOf (item : BitVec 6) : List Nat := if item = 63 then List.range 41 else [item.toNat]

theorem calRunCmd_eq {item : BitVec 6} (hr : s.replayMode = false) (hi : item.toNat < 41 ∨ item = 63) :
    s.calRunCmd item.toNat = makeAllPending (itemsOf item) s := by
  unfold calRunCmd itemsOf
  rw [if_neg (by rw [hr]; decide)]
  by_cases h : item = 63
  · rw [if_pos h, h]
    exact if_pos rfl
  · have one : item.toNat < 41 := hi.resolve_right h
    rw [if_neg h, if_neg (by omega), if_pos one]
    rfl

theorem itemsOf_lt {item : BitVec 6} (hi : item.toNat < 41 ∨ item = 63) : ∀ k ∈ itemsOf item, k < 41 := by
  intro k hk
  unfold itemsOf at hk
  by_cases h : item = 63
  · rw [if_pos h] at hk
    exact List.mem_range.mp hk
  · rw [if_neg h] at hk
    rw [List.mem_singleton.mp hk]
    exact hi.resolve_right h

/-- A RUN has reached the word of CAL_CMD, and the items not yet. -/
theorem calRun_written {m : Fin 32} {item : BitVec 6} (hm : s.mayWrite m.val 0x150000 .plain = true) :
    ∃ u, Frame [] [0x150000] s u ∧ Keeps 148376 s u ∧ u.replayMode = s.replayMode ∧ exec (.calRun m item) s = .next (u.calRunCmd item.toNat) := by
  obtain ⟨_, u, _, wrote, e⟩ := write_calRun m item hm
  have mode : u.replayMode = s.replayMode := by rw [replayMode, wrote.logState (by decide), replayMode]
  exact ⟨u, Frame.of_wrote_free wrote (by decide) (by decide) (by decide +kernel), wrote.keeps, mode, e⟩

theorem calRun_effect (m : Fin 32) (n : Nat) (item : BitVec 6) (hm : s.mayWrite m.val 0x150000 .plain = true) (hr : s.replayMode = false)
    (hn : n < 41) (hi : item.toNat = n ∨ item = 63) : Completes (.calRun m item) s fun t =>
      t.calPending n = true ∧ t.calStale n = true ∧ t.fld (Reg.CAL_ITEM_STATE n) = (if s.fld (Reg.CAL_ITEM_STATE n) = 2 then 2 else 1) ∧
      (∀ j, j < 41 → j ≠ n → item ≠ 63 → t.calPending j = s.calPending j ∧ t.calStale j = s.calStale j) ∧ Only sideParts s t := by
  obtain ⟨u, frame, keeps, mode, e⟩ := calRun_written (item := item) hm
  have named : item.toNat < 41 ∨ item = 63 := hi.imp_left fun h => h.trans_lt hn
  have mem : n ∈ itemsOf item := by
    unfold itemsOf
    split
    · exact List.mem_range.mpr hn
    · next h => exact List.mem_singleton.mpr (hi.resolve_right h).symm
  have only : Only sideParts s (u.calRunCmd item.toNat) := Only.of_keeps (keeps_calRunCmd item.toNat keeps rfl) Frame.side_mask
  have pend : ∀ j, u.calPending j = s.calPending j := frame.calPending (by decide) (by decide)
  have stale : ∀ j, u.calStale j = s.calStale j := frame.calStale (by decide) (by decide)
  have all := itemsOf_lt named
  have cmd := calRunCmd_eq (mode.trans hr) named
  refine ⟨_, e, ?_, ?_, ?_, fun j _ hj one => ?_, only⟩
  · rw [cmd, calPending_makeAllPending _ all, if_pos mem]
  · rw [cmd, calStale_makeAllPending _ all, if_pos mem]
  · rw [cmd, calState_makeAllPending _ all, if_pos mem, frame.calItem rfl (by simp; omega)]
  · have out : j ∉ itemsOf item := by
      rw [itemsOf, if_neg one, List.mem_singleton, hi.resolve_right one]
      exact hj
    rw [cmd, calPending_makeAllPending _ all, calStale_makeAllPending _ all, if_neg out, if_neg out, pend, stale]
    exact ⟨rfl, rfl⟩

end Sys2Proof.Machine
end

section
/-! PROOFS. O36, runs of calibration items: their start, and their end with and without a result (R226, R228, R229, R231). -/

namespace Sys2Proof.Machine

open State

variable {s t : State} {ps : List Part} {as : List Nat} {n v : Nat} {l : List LaneMeas}

/-! ### A run starts (R228) -/

theorem exec_calRunStart (n : Fin 41) (s : State) : exec (.calRunStart n) s = execCalRunStart n s := rfl

/-- A run of item `n` has started in state `s`. -/
def runStarted (s : State) (n : Nat) : State :=
  (((s.setCalPending n false).setFld (Reg.CAL_ITEM_STATE n) 2).setFld (Reg.CAL_ITEM_T_START n) (s.fld (Reg.CAL_ITEM_T_NOW n))).calNote n 1

/-- The item is no longer pending and runs, and its temperatures stand. -/
theorem frame_runTaken : Frame [] [0x150100 + 0x10 * n, 0x150038, 0x15003C] s ((s.setCalPending n false).setFld (Reg.CAL_ITEM_STATE n) 2) :=
  (frame_setCalPending (by simp) (by simp)).trans (Frame.setFld _ _ List.mem_cons_self)

theorem calStartable_of (hp : s.calPending n = true) (hi : s.calRunning n = false) (h39 : n ≠ 39) (hport : n < 32 → 2 ≤ s.portState (n / 8)) :
    s.calStartable n = true := by
  have ready : 32 ≤ n ∨ 2 ≤ s.portState (n / 8) := (Nat.lt_or_ge n 32).elim (fun h => .inr (hport h)) .inl
  unfold calStartable
  rw [hp, hi, decide_eq_true h39]
  simpa using ready

theorem execCalRunStart_starts {n : Fin 41} (hr : s.replayMode = false) (hs : s.calStartable n = true) (ht : s.calTurn n = true) :
    execCalRunStart n s = .next (runStarted s n) := by
  unfold execCalRunStart runStarted
  rw [hr, hs, ht]
  dsimp only
  rw [if_pos (show (!false && true && true) = true from rfl), frame_runTaken.calTemp (f := Reg.CAL_ITEM_T_NOW n) rfl (by simp; omega)]

theorem calRunStart_starts (n : Fin 41) (hr : s.replayMode = false) (hp : s.calPending n = true) (hi : s.calRunning n = false) (h39 : n ≠ 39)
    (hport : n.val < 32 → 2 ≤ s.portState (n.val / 8)) (ht : s.calTurn n = true) : Completes (.calRunStart n) s fun t =>
      t.calRunning n = true ∧ t.calPending n = false ∧ t.calStale n = s.calStale n ∧
      t.fld (Reg.CAL_ITEM_T_START n) = s.fld (Reg.CAL_ITEM_T_NOW n) ∧
      Frame [] [(Reg.CAL_ITEM_T_NOW n).addr, (Reg.CAL_ITEM_STATE n).addr, Reg.CAL_PEND_LO.addr, Reg.CAL_PEND_HI.addr] s t := by
  have startable : s.calStartable n = true := calStartable_of hp hi (fun h => h39 (Fin.ext h)) hport
  have shown : Frame [] [0x150104 + 0x10 * n.val] ((s.setCalPending n false).setFld (Reg.CAL_ITEM_STATE n) 2) (runStarted s n) :=
    (Frame.setFld _ _ List.mem_cons_self).trans (frame_calNote 1)
  have waits : Frame [] [0x150104 + 0x10 * n.val, 0x150100 + 0x10 * n.val] (s.setCalPending n false) (runStarted s n) :=
    ((Frame.setFld (s := s.setCalPending n false) (Reg.CAL_ITEM_STATE n) 2 (by simp [Reg.CAL_ITEM_STATE])).trans
      (Frame.setFld _ _ List.mem_cons_self)).trans (frame_calNote 1)
  have frame : Frame [] [0x150104 + 0x10 * n.val, 0x150100 + 0x10 * n.val, 0x150038, 0x15003C] s (runStarted s n) :=
    (frame_runTaken.mono (fun _ h => h) fun _ => List.mem_cons_of_mem _).trans (shown.mono (fun _ h => h) fun _ h => by
      rw [List.mem_singleton.mp h]
      exact List.mem_cons_self)
  have state : (runStarted s n).fld (Reg.CAL_ITEM_STATE n) = 2 := (shown.calItem rfl (by simp)).trans
    (State.fld_setFld_same _ (Reg.CAL_ITEM_STATE n) _ (show 30 ≤ 31 by decide) (show 31 < 32 by decide))
  have start : (runStarted s n).fld (Reg.CAL_ITEM_T_START n) = s.fld (Reg.CAL_ITEM_T_NOW n) :=
    (fld_calNote 1 (show 0x80000 ≤ 0x150104 + 0x10 * n.val by omega)).trans
      ((State.fld_setFld_same _ (Reg.CAL_ITEM_T_START n) _ (show 16 ≤ 31 by decide) (show 31 < 32 by decide)).trans
        (Nat.mod_eq_of_lt (bits_lt _ 15 0)))
  refine ⟨_, (exec_calRunStart n s).trans (execCalRunStart_starts hr startable ht), decide_eq_true state, ?_,
    frame.calStale (by simp; omega) (by simp; omega) n, start, frame⟩
  rw [waits.calPending (by simp; omega) (by simp; omega), calPending_setCalPending n.isLt, if_pos rfl]

theorem calRunStart_rests (n : Fin 41) (h : s.replayMode = true ∨ s.calPending n = false ∨ s.calRunning n = true ∨ s.calTurn n = false) :
    exec (.calRunStart n) s = .next s := by
  rw [exec_calRunStart]
  unfold execCalRunStart calStartable
  rcases h with h | h | h | h <;> simp [h]

/-! ### A run ends (R229) -/

theorem exec_calRunDone_running {n : Fin 41} (ok : Bool) (l : List LaneMeas) (h : s.calRunning n = true) :
    exec (.calRunDone n ok l) s = .next (s.calRunDone n ok l) := congrArg Host.Outcome.next (if_pos h)

theorem calRunDone_rests (n : Fin 41) (ok : Bool) (l : List LaneMeas) (h : s.calRunning n = false) : exec (.calRunDone n ok l) s = .next s :=
  congrArg Host.Outcome.next (if_neg (by rw [h]; decide))

/-! ### The fields of an item's first word: one of them written, the others stand -/

theorem frame_setState (h : 0x150100 + 0x10 * n ∈ as) : Frame ps as s (s.setFld (Reg.CAL_ITEM_STATE n) v) := Frame.setFld _ _ h

theorem frame_setFails (h : 0x150100 + 0x10 * n ∈ as) : Frame ps as s (s.setFld (Reg.CAL_ITEM_FAILS n) v) := Frame.setFld _ _ h

theorem frame_setRuns (h : 0x150100 + 0x10 * n ∈ as) : Frame ps as s (s.setFld (Reg.CAL_ITEM_RUNS n) v) := Frame.setFld _ _ h

theorem fails_setState : (s.setFld (Reg.CAL_ITEM_STATE n) v).fld (Reg.CAL_ITEM_FAILS n) = s.fld (Reg.CAL_ITEM_FAILS n) :=
  State.fld_setFld_bits s (Reg.CAL_ITEM_STATE n) (Reg.CAL_ITEM_FAILS n) _ rfl (show 30 ≤ 31 by decide) (show 29 < 32 by decide)
    (.inl (show 29 < 30 by decide))

theorem runs_setState : (s.setFld (Reg.CAL_ITEM_STATE n) v).fld (Reg.CAL_ITEM_RUNS n) = s.fld (Reg.CAL_ITEM_RUNS n) :=
  State.fld_setFld_bits s (Reg.CAL_ITEM_STATE n) (Reg.CAL_ITEM_RUNS n) _ rfl (show 30 ≤ 31 by decide) (show 15 < 32 by decide)
    (.inl (show 15 < 30 by decide))

theorem state_setState : (s.setFld (Reg.CAL_ITEM_STATE n) 0).fld (Reg.CAL_ITEM_STATE n) = 0 :=
  State.fld_setFld_same s (Reg.CAL_ITEM_STATE n) 0 (show 30 ≤ 31 by decide) (show 31 < 32 by decide)

theorem state_setFails : (s.setFld (Reg.CAL_ITEM_FAILS n) v).fld (Reg.CAL_ITEM_STATE n) = s.fld (Reg.CAL_ITEM_STATE n) :=
  State.fld_setFld_bits s (Reg.CAL_ITEM_FAILS n) (Reg.CAL_ITEM_STATE n) _ rfl (show 28 ≤ 29 by decide) (show 31 < 32 by decide)
    (.inr (show 29 < 30 by decide))

theorem runs_setFails : (s.setFld (Reg.CAL_ITEM_FAILS n) v).fld (Reg.CAL_ITEM_RUNS n) = s.fld (Reg.CAL_ITEM_RUNS n) :=
  State.fld_setFld_bits s (Reg.CAL_ITEM_FAILS n) (Reg.CAL_ITEM_RUNS n) _ rfl (show 28 ≤ 29 by decide) (show 15 < 32 by decide)
    (.inl (show 15 < 28 by decide))

theorem fails_setFails : (s.setFld (Reg.CAL_ITEM_FAILS n) v).fld (Reg.CAL_ITEM_FAILS n) = v % 4 :=
  State.fld_setFld_same s (Reg.CAL_ITEM_FAILS n) v (show 28 ≤ 29 by decide) (show 29 < 32 by decide)

theorem state_setRuns : (s.setFld (Reg.CAL_ITEM_RUNS n) v).fld (Reg.CAL_ITEM_STATE n) = s.fld (Reg.CAL_ITEM_STATE n) :=
  State.fld_setFld_bits s (Reg.CAL_ITEM_RUNS n) (Reg.CAL_ITEM_STATE n) _ rfl (Nat.zero_le _) (show 31 < 32 by decide)
    (.inr (show 15 < 30 by decide))

theorem fails_setRuns : (s.setFld (Reg.CAL_ITEM_RUNS n) v).fld (Reg.CAL_ITEM_FAILS n) = s.fld (Reg.CAL_ITEM_FAILS n) :=
  State.fld_setFld_bits s (Reg.CAL_ITEM_RUNS n) (Reg.CAL_ITEM_FAILS n) _ rfl (Nat.zero_le _) (show 29 < 32 by decide)
    (.inr (show 15 < 28 by decide))

theorem runs_setRuns : (s.setFld (Reg.CAL_ITEM_RUNS n) v).fld (Reg.CAL_ITEM_RUNS n) = v % 2 ^ 16 :=
  State.fld_setFld_same s (Reg.CAL_ITEM_RUNS n) v (Nat.zero_le _) (show 15 < 32 by decide)

/-! ### A run that fails (R229) -/

/-- The run of item `n` has failed: one more of FAILS. -/
def runFailed (s : State) (n : Nat) : State :=
  ((((s.setFld (Reg.CAL_ITEM_STATE n) 0).setFld (Reg.CAL_ITEM_FAILS n) (min 3 (s.fld (Reg.CAL_ITEM_FAILS n) + 1))).calRaise 2).showItem n).calNote n 3

/-- A lane group fails without a lane that counts, or with a value beyond its field; the other items fail as their run says. -/
theorem calRunDone_fails {ok : Bool} (h : (if n < 32 then !(l.filter (s.calMeasurable n)).isEmpty && (l.filter (s.calMeasurable n)).all inField else ok) = false) :
    s.calRunDone n ok l = runFailed s n := by
  unfold calRunDone runFailed
  dsimp only
  rw [h, if_neg Bool.false_ne_true, fails_setState]

/-- What a failed run leaves. -/
theorem runFailed_effect (s : State) (n : Nat) : (runFailed s n).fld (Reg.CAL_ITEM_FAILS n) = min 3 (s.fld (Reg.CAL_ITEM_FAILS n) + 1) ∧
    (runFailed s n).flag Reg.CAL_EVENT_FAIL = true ∧ Frame [] [0x150100 + 0x10 * n, 0x150008] s (runFailed s n) := by
  obtain ⟨w, hw⟩ : ∃ w, w = (s.setFld (Reg.CAL_ITEM_STATE n) 0).setFld (Reg.CAL_ITEM_FAILS n) (min 3 (s.fld (Reg.CAL_ITEM_FAILS n) + 1)) := ⟨_, rfl⟩
  have e : runFailed s n = ((w.calRaise 2).showItem n).calNote n 3 := by rw [hw]; rfl
  have fails : w.fld (Reg.CAL_ITEM_FAILS n) = min 3 (s.fld (Reg.CAL_ITEM_FAILS n) + 1) := by
    rw [hw, fails_setFails]
    omega
  have counted : Frame [] [0x150100 + 0x10 * n, 0x150008] s w := by
    rw [hw]
    exact (frame_setState List.mem_cons_self).trans (frame_setFails List.mem_cons_self)
  have raised : Frame [] [0x150008] w (w.calRaise 2) := frame_calRaise 2 (by decide)
  have shown : Frame [] [0x150100 + 0x10 * n] (w.calRaise 2) (runFailed s n) := by
    rw [e]
    exact (frame_showItem List.mem_cons_self).trans (frame_calNote 3)
  refine ⟨?_, ?_, (counted.trans (raised.mono (fun _ h => h) fun _ => List.mem_cons_of_mem _)).trans (shown.mono (fun _ h => h) fun _ h => ?_)⟩
  · rw [e, fld_calNote 3 (show 0x80000 ≤ 0x150100 + 0x10 * n by omega), fld_showItem rfl (show 29 < 30 by decide), raised.calItem rfl (by simp; omega), fails]
  · rw [flag_of_fld (shown.cameraFld (f := Reg.CAL_EVENT_FAIL) (x := 0x150008) rfl (by decide) (by simp; omega))]
    exact State.flag_raise (f := Reg.CAL_EVENT_FAIL) _ _ _ _ (by decide) rfl (by decide) (by decide)
  · rw [List.mem_singleton.mp h]
    exact List.mem_cons_self

theorem calRunDone_failing {n : Fin 41} {ok : Bool} (hr : s.calRunning n = true)
    (h : (if n.val < 32 then !(l.filter (s.calMeasurable n)).isEmpty && (l.filter (s.calMeasurable n)).all inField else ok) = false) :
    Completes (.calRunDone n ok l) s fun t =>
      t.fld (Reg.CAL_ITEM_FAILS n) = min 3 (s.fld (Reg.CAL_ITEM_FAILS n) + 1) ∧ t.flag Reg.CAL_EVENT_FAIL = true ∧
      Frame [] [(Reg.CAL_ITEM_STATE n).addr, 0x150008] s t :=
  ⟨_, (exec_calRunDone_running ok l hr).trans (congrArg _ (calRunDone_fails h)), runFailed_effect s n⟩

/-! ### A run that succeeds (R225, R226, R229) -/

/-- The consumers of a result are named by registers of SCN and MEM. -/
theorem calConsumers_congr (h : ∀ x, 0x1A0000 ≤ x → t.word x = s.word x) (n : Nat) : t.calConsumers n = s.calConsumers n := by
  have head : ∀ i, t.fld (Reg.SCN_HEAD_STATUS_STATE i) = s.fld (Reg.SCN_HEAD_STATUS_STATE i) := fun i =>
    State.fld_of_word (h _ (show 0x1A0000 ≤ 0x1C1038 + 0x100 * i by omega))
  have mem : ∀ i, t.fld (Reg.MEM_STATUS_STATE i) = s.fld (Reg.MEM_STATUS_STATE i) := fun i =>
    State.fld_of_word (h _ (show 0x1A0000 ≤ 0x1A0004 + 0x4000 * i by omega))
  unfold calConsumers
  simp only [head, mem]

/-- Item `n` counts a run with a result: its first word. -/
def runCounted (s : State) (n : Nat) : State :=
  ((s.setFld (Reg.CAL_ITEM_STATE n) 0).setFld (Reg.CAL_ITEM_FAILS n) 0).setFld (Reg.CAL_ITEM_RUNS n) (min (s.fld (Reg.CAL_ITEM_RUNS n) + 1) 65535)

theorem frame_runCounted : Frame [] [0x150100 + 0x10 * n] s (runCounted s n) :=
  ((frame_setState List.mem_cons_self).trans (frame_setFails List.mem_cons_self)).trans (frame_setRuns List.mem_cons_self)

theorem cal_runCounted : (runCounted s n).cal = s.cal := by simp only [runCounted, setFld_cal]

theorem state_runCounted : (runCounted s n).fld (Reg.CAL_ITEM_STATE n) = 0 := by
  rw [runCounted, state_setRuns, state_setFails, state_setState]

theorem fails_runCounted : (runCounted s n).fld (Reg.CAL_ITEM_FAILS n) = 0 := by
  rw [runCounted, fails_setRuns, fails_setFails]

theorem runs_runCounted : (runCounted s n).fld (Reg.CAL_ITEM_RUNS n) = min (s.fld (Reg.CAL_ITEM_RUNS n) + 1) 65535 := by
  rw [runCounted, runs_setRuns]
  omega

/-- The run of item `n` gave result `r`, which waits for its consumers. -/
def runSucceeded (s : State) (n : Nat) (r : CalResult) : State := (((runCounted s n).setCalResult n (some r)).showItem n).calNote n 2

theorem satAdd_one (k : Nat) : satAdd 16 k 1 = min (k + 1) 65535 := by
  unfold satAdd
  split <;> omega

theorem calRunDone_succeeds (hn : 32 ≤ n) (h41 : n < 41) : s.calRunDone n true [] = runSucceeded s n ⟨s.now, [], s.calConsumers n⟩ := by
  have runs : satAdd 16 (((s.setFld (Reg.CAL_ITEM_STATE n) 0).setFld (Reg.CAL_ITEM_FAILS n) 0).fld (Reg.CAL_ITEM_RUNS n)) 1 =
      min (s.fld (Reg.CAL_ITEM_RUNS n) + 1) 65535 := by rw [runs_setFails, runs_setState, satAdd_one]
  have waits : (runCounted s n).calConsumers n = s.calConsumers n := calConsumers_congr (fun x hx => frame_runCounted.camera (by omega) (by simp; omega)) n
  have now : (runCounted s n).now = s.now := by simp only [runCounted, setFld_now]
  unfold runCounted at waits now
  unfold calRunDone runSucceeded runCounted
  dsimp only
  rw [if_neg (show ¬n < 32 by omega), if_pos rfl, runs, now, waits]
  rfl

theorem calRunDone_ends {n : Fin 41} (hn : 32 ≤ n.val) (hr : s.calRunning n = true) : Completes (.calRunDone n true []) s fun t =>
    t.fld (Reg.CAL_ITEM_FAILS n) = 0 ∧ t.fld (Reg.CAL_ITEM_RUNS n) = min (s.fld (Reg.CAL_ITEM_RUNS n) + 1) 65535 ∧
    t.calResult n = some ⟨s.now, [], s.calConsumers n⟩ ∧ t.fld (Reg.CAL_ITEM_STATE n) = (if s.calPending n = true then 1 else 3) ∧
    (∀ j, j ≠ n.val → t.calResult j = s.calResult j) ∧ Frame [.cal] [(Reg.CAL_ITEM_STATE n).addr] s t := by
  refine ⟨_, (exec_calRunDone_running true [] hr).trans (congrArg _ (calRunDone_succeeds hn n.isLt)), ?_⟩
  generalize (⟨s.now, [], s.calConsumers n⟩ : CalResult) = r
  have low : ∀ f : Fld, f.addr = 0x150100 + 0x10 * n.val → f.hi < 30 → (runSucceeded s n r).fld f = (runCounted s n).fld f := fun f hf hi => by
    rw [runSucceeded, fld_calNote 2 (by omega), fld_showItem hf hi, fld_setCalResult]
  have result : ∀ j, (runSucceeded s n r).calResult j = ((runCounted s n).setCalResult n (some r)).calResult j :=
    calResult_congr (cal_calNote 2)
  refine ⟨(low (Reg.CAL_ITEM_FAILS n) rfl (show 29 < 30 by decide)).trans fails_runCounted, (low (Reg.CAL_ITEM_RUNS n) rfl (show 15 < 30 by decide)).trans runs_runCounted, ?_, ?_, fun j hj => ?_, ?_⟩
  · rw [result, calResult_setCalResult_same]
  · have state : ((runCounted s n).setCalResult n (some r)).fld (Reg.CAL_ITEM_STATE n) = 0 := (fld_setCalResult _ _).trans state_runCounted
    have pend : ((runCounted s n).setCalResult n (some r)).calPending n = s.calPending n :=
      (frame_runCounted.mono nofun fun _ h => h).trans (frame_setCalResult (ps := [.cal]) (some r) (by decide)) |>.calPending (by simp; omega) (by simp; omega) n
    rw [runSucceeded, fld_calNote 2 (show 0x80000 ≤ 0x150100 + 0x10 * n.val by omega), calState_showItem, state, pend, calResult_setCalResult_same,
      if_neg (by decide)]
    rfl
  · rw [result, calResult_setCalResult_other _ hj]
    exact calResult_congr cal_runCounted j
  · exact (((frame_runCounted.mono nofun fun _ h => h).trans (frame_setCalResult (some r) (by decide))).trans (frame_showItem List.mem_cons_self)).trans (frame_calNote 2)

end Sys2Proof.Machine
end

section
/-! PROOFS. O36, cal_ppb and the field fuses (R230, R231, R232, R235). -/

namespace Sys2Proof.Machine

open State

variable {s : State} {as : List Nat} {T : Nat} {m : Fin 32} {key : Word}

/-! ### cal_ppb (R230) -/

/-- A cal_ppb without a fraction and within the format is exact. -/
theorem ppbOf_exact {c1 c2 t0 dt x : Int} (htrim : s.toscTrim = (c1, c2, t0)) (hdt : dt = signed 16 T - t0)
    (hx : x * 65536 = c1 * dt * 256 + c2 * dt * dt) (hl : -(2 ^ 31) ≤ x) (hh : x < 2 ^ 31) : s.ppbOf T = wrap 32 x := by
  unfold ppbOf
  rw [htrim]
  dsimp only
  rw [← hdt, ← hx, Int.mul_fdiv_cancel _ (by decide), if_pos (Int.mul_emod_left x 65536)]
  exact if_pos ⟨by simpa using hl, by simpa using hh⟩

theorem wrap_lt (w : Nat) (i : Int) : wrap w i < 2 ^ w := by
  have pos : (0 : Int) < (2 ^ w : Nat) := by exact_mod_cast Nat.two_pow_pos w
  have low := Int.emod_nonneg i (ne_of_gt pos)
  have high := Int.emod_lt_of_pos i pos
  unfold wrap
  omega

/-- The words that a TOSC reading can change. -/
def ppbWords : List Nat := [0x150010, 0x150374, 0x150370, 0x150038, 0x15003C, 0x150030, 0x150034]

/-- cal_ppb and item 39's temperature are taken. -/
def ppbTaken (s : State) (v T : Nat) : State := (s.nextFree.setFld Reg.CAL_PPB_PPB v).setFld (Reg.CAL_ITEM_T_NOW 39) T

/-- Item 39 has taken effect: it is neither pending nor stale. -/
def toscApplied (s : State) : State := (((s.setCalPending 39 false).setCalStale 39 false).showItem 39).calNote 39 4

theorem frame_ppbTaken (v T : Nat) : Frame [.fresh] ppbWords s (ppbTaken s v T) :=
  ((frame_nextFree (by decide)).trans (Frame.setFld _ _ (by decide))).trans (Frame.setFld _ _ (by decide))

theorem ppb_ppbTaken {v : Nat} (hv : v < 2 ^ 32) : (ppbTaken s v T).fld Reg.CAL_PPB_PPB = v :=
  (State.fld_setFld_addr _ (Reg.CAL_ITEM_T_NOW 39) Reg.CAL_PPB_PPB _ (by decide)).trans
    ((State.fld_setFld_same _ Reg.CAL_PPB_PPB _ (by decide) (by decide)).trans (Nat.mod_eq_of_lt hv))

theorem tNow_ppbTaken {v : Nat} : (ppbTaken s v T).fld (Reg.CAL_ITEM_T_NOW 39) = T % 2 ^ 16 := tNow_setTNow

theorem frame_toscApplied : Frame [] [0x150038, 0x15003C, 0x150030, 0x150034, 0x150370] s (toscApplied s) :=
  (((frame_setCalPending (by decide) (by decide)).trans (frame_setCalStale (by decide) (by decide))).trans
    (frame_showItem (by decide))).trans (frame_calNote 4)

theorem calStale_toscApplied : (toscApplied s).calStale 39 = false := by
  have shown : Frame [] [0x150370] ((s.setCalPending 39 false).setCalStale 39 false) (toscApplied s) :=
    (frame_showItem (by decide)).trans (frame_calNote 4)
  rw [shown.calStale (by decide) (by decide), calStale_setCalStale (by decide), if_pos rfl]

/-- A reading ends item 39 where it was stale. -/
theorem execCalPpbUpdate_valid {T : BitVec 16} (hr : s.replayMode = false) : execCalPpbUpdate T true s =
    .next (if (ppbTaken s (s.ppbOf T.toNat) T.toNat).calStale 39 = true then toscApplied (ppbTaken s (s.ppbOf T.toNat) T.toNat)
      else ppbTaken s (s.ppbOf T.toNat) T.toNat) := by
  unfold execCalPpbUpdate
  rw [hr]
  rfl

/-- What a reading leaves, whether item 39 was stale or not. -/
theorem ppbUpdated_effect (w : State) : ∃ t, (if w.calStale 39 = true then toscApplied w else w) = t ∧
    t.calStale 39 = false ∧ Frame [] [0x150038, 0x15003C, 0x150030, 0x150034, 0x150370] w t := by
  refine ⟨_, rfl, ?_⟩
  by_cases h : w.calStale 39 = true
  · rw [if_pos h]
    exact ⟨calStale_toscApplied, frame_toscApplied⟩
  · rw [if_neg h]
    exact ⟨Bool.eq_false_of_not_eq_true h, Frame.refl⟩

theorem calPpbUpdate_valid (T : BitVec 16) (c1 c2 t0 dt x : Int) (hr : s.replayMode = false) (htrim : s.toscTrim = (c1, c2, t0))
    (hdt : dt = signed 16 T.toNat - t0) (hx : x * 65536 = c1 * dt * 256 + c2 * dt * dt) (hl : -(2 ^ 31) ≤ x) (hh : x < 2 ^ 31) :
    Completes (.calPpbUpdate T true) s fun t =>
      t.fld Reg.CAL_PPB_PPB = wrap 32 x ∧ t.fld (Reg.CAL_ITEM_T_NOW 39) = T.toNat ∧ t.calStale 39 = false ∧ Frame [.fresh] ppbWords s t := by
  obtain ⟨t, e, stale, frame⟩ := ppbUpdated_effect (ppbTaken s (wrap 32 x) T.toNat)
  have run : exec (.calPpbUpdate T true) s = .next t := (execCalPpbUpdate_valid hr).trans (by rw [ppbOf_exact htrim hdt hx hl hh, e])
  refine ⟨t, run, ?_, ?_, stale, (frame_ppbTaken _ _).trans (frame.mono nofun (by decide))⟩
  · rw [frame.cameraFld (f := Reg.CAL_PPB_PPB) rfl (by decide) (by decide), ppb_ppbTaken (wrap_lt 32 x)]
  · rw [frame.cameraFld (f := Reg.CAL_ITEM_T_NOW 39) rfl (by decide) (by decide), tNow_ppbTaken, Nat.mod_eq_of_lt T.isLt]

theorem calPpbUpdate_invalid (T : BitVec 16) (hr : s.replayMode = false) : Completes (.calPpbUpdate T false) s fun t =>
    t.calStale 39 = true ∧ t.fld Reg.CAL_PPB_PPB = s.fld Reg.CAL_PPB_PPB ∧ Frame [] [Reg.CAL_STALE_LO.addr, Reg.CAL_STALE_HI.addr] s t := by
  have run : execCalPpbUpdate T false s = .next (s.setCalStale 39 true) := by
    unfold execCalPpbUpdate
    rw [hr]
    rfl
  have frame : Frame [] [0x150030, 0x150034] s (s.setCalStale 39 true) := frame_setCalStale (by decide) (by decide)
  exact ⟨_, run, (calStale_setCalStale (by decide)).trans (if_pos rfl), frame.cameraFld rfl (by decide) (by decide), frame⟩

/-! ### A burn is asked for (R235) -/

/-- What CAL holds beside its registers becomes `c`. -/
def withCal (s : State) (c : Cal) : State := { s with cal := c }

theorem frame_withCal (c : Cal) : Frame [.cal] as s (withCal s c) := by
  refine frame_part (p := .cal) (fun p hp => ?_) (by decide) rfl rfl
  cases p with
  | cal => exact absurd List.mem_cons_self hp
  | _ => rfl

theorem fld_withCal (c : Cal) (f : Fld) : (withCal s c).fld f = s.fld f := State.fld_congr rfl f

/-- A write of CAL_FF_CMD has reached its word, and the fuses not yet. -/
theorem calFfCmd_written (hm : s.mayWrite m.val 0x15004C .plain = true) :
    ∃ u, Frame [] [0x15004C] s u ∧ u.cal = s.cal ∧ exec (.calFfCmd m key) s = .next (u.ffCmd key.toNat) := by
  obtain ⟨_, u, _, wrote, e⟩ := write_calFfCmd m key hm
  exact ⟨u, Frame.of_wrote_free wrote (by decide) (by decide) (by decide +kernel), wrote.keeps.same .cal rfl, e⟩

/-- The fuses burn row `r` with value `v`. -/
def burnStarted (s : State) (r v : Nat) : State := withCal (s.setFld Reg.CAL_FF_STATUS_BUSY 1) { s.cal with burn := some (r, v) }

theorem ffCmd_burns (hb : s.flag Reg.CAL_FF_STATUS_BUSY = false) (hn : s.fld Reg.CAL_FF_STATUS_NEXT ≠ 32) :
    s.ffCmd 0x0F5E0001 = burnStarted s (s.fld Reg.CAL_FF_TARGET_ROW) (s.fld Reg.CAL_FF_DATA_VALUE) := by
  have row := State.fld_setFld_addr s Reg.CAL_FF_STATUS_BUSY Reg.CAL_FF_TARGET_ROW 1 (by decide)
  have value := State.fld_setFld_addr s Reg.CAL_FF_STATUS_BUSY Reg.CAL_FF_DATA_VALUE 1 (by decide)
  unfold ffCmd burnStarted withCal
  dsimp only
  rw [if_neg (by simp [hb]), if_neg hn, row, value, setFld_cal]

theorem ffCmd_full (hb : s.flag Reg.CAL_FF_STATUS_BUSY = false) (hn : s.fld Reg.CAL_FF_STATUS_NEXT = 32) :
    s.ffCmd 0x0F5E0001 = s.setFld Reg.CAL_FF_STATUS_RESULT 1 := by
  unfold ffCmd
  rw [if_neg (by simp [hb]), if_pos hn]

theorem ffCmd_ignored {k : Nat} (h : k ≠ 0x0F5E0001) : s.ffCmd k = s := if_pos (.inl h)

theorem frame_burnStarted (r v : Nat) : Frame [.cal] [0x150040] s (burnStarted s r v) := (Frame.setFld _ _ (by decide)).trans (frame_withCal _)

theorem busy_burnStarted (r v : Nat) : (burnStarted s r v).flag Reg.CAL_FF_STATUS_BUSY = true := by
  have busy : (s.setFld Reg.CAL_FF_STATUS_BUSY 1).fld Reg.CAL_FF_STATUS_BUSY = 1 := State.fld_setFld_same s Reg.CAL_FF_STATUS_BUSY 1 (by decide) (by decide)
  rw [flag, burnStarted, fld_withCal, busy]
  rfl

theorem calFfCmd_burns (hm : s.mayWrite m.val 0x15004C .plain = true) (hk : key = 0x0F5E0001) (hb : s.flag Reg.CAL_FF_STATUS_BUSY = false)
    (hn : s.fld Reg.CAL_FF_STATUS_NEXT ≠ 32) : Completes (.calFfCmd m key) s fun t =>
      t.cal.burn = some (s.fld Reg.CAL_FF_TARGET_ROW, s.fld Reg.CAL_FF_DATA_VALUE) ∧ t.flag Reg.CAL_FF_STATUS_BUSY = true ∧
      Frame [.cal] [0x150040, 0x15004C] s t := by
  obtain ⟨u, frame, -, e⟩ := calFfCmd_written (key := key) hm
  have same : ∀ f : Fld, 0x150040 ≤ f.addr ∧ f.addr ≤ 0x150048 → u.fld f = s.fld f := fun f hf =>
    frame.cameraFld rfl (by omega) (by simp; omega)
  subst hk
  rw [show (0x0F5E0001 : Word).toNat = 0x0F5E0001 from by decide,
    ffCmd_burns ((flag_of_fld (same _ (by decide))).trans hb) (by rwa [same _ (by decide)]), same Reg.CAL_FF_TARGET_ROW (by decide),
    same Reg.CAL_FF_DATA_VALUE (by decide)] at e
  exact ⟨_, e, rfl, busy_burnStarted _ _,
    (frame.mono nofun fun _ => List.mem_cons_of_mem _).trans ((frame_burnStarted _ _).mono (fun _ h => h) (by decide))⟩

theorem calFfCmd_full (hm : s.mayWrite m.val 0x15004C .plain = true) (hk : key = 0x0F5E0001) (hb : s.flag Reg.CAL_FF_STATUS_BUSY = false)
    (hn : s.fld Reg.CAL_FF_STATUS_NEXT = 32) : Completes (.calFfCmd m key) s fun t =>
      t.fld Reg.CAL_FF_STATUS_RESULT = 1 ∧ Frame [] [0x150040, 0x15004C] s t := by
  obtain ⟨u, frame, -, e⟩ := calFfCmd_written (key := key) hm
  have same : ∀ f : Fld, f.addr = 0x150040 → u.fld f = s.fld f := fun f hf => frame.cameraFld hf (by decide) (by decide)
  subst hk
  rw [show (0x0F5E0001 : Word).toNat = 0x0F5E0001 from by decide, ffCmd_full ((flag_of_fld (same _ rfl)).trans hb) ((same _ rfl).trans hn)] at e
  exact ⟨_, e, State.fld_setFld_same u Reg.CAL_FF_STATUS_RESULT 1 (by decide) (by decide),
    (frame.mono nofun fun _ => List.mem_cons_of_mem _).trans (Frame.setFld _ _ (by decide))⟩

theorem calFfCmd_ignored (hm : s.mayWrite m.val 0x15004C .plain = true) (hk : key ≠ 0x0F5E0001) :
    Completes (.calFfCmd m key) s fun t => Frame [] [0x15004C] s t := by
  obtain ⟨u, frame, -, e⟩ := calFfCmd_written (key := key) hm
  rw [ffCmd_ignored fun h => hk (BitVec.eq_of_toNat_eq h)] at e
  exact ⟨u, e, frame⟩

/-! ### A burn ends (R235) -/

/-- The burn of a record has ended, well or not: the record is used. -/
def recordUsed (s : State) (rec : Option (Nat × Nat)) : State := withCal s { s.cal with burn := none, burnt := s.cal.burnt ++ [rec] }

/-- CAL_FF_STATUS after a burn of result `r`. -/
def burnShown (s : State) (r : Nat) : State :=
  ((s.setFld Reg.CAL_FF_STATUS_BUSY 0).setFld Reg.CAL_FF_STATUS_RESULT r).setFld Reg.CAL_FF_STATUS_NEXT (s.fld Reg.CAL_FF_STATUS_NEXT + 1)

theorem frame_burnShown (r : Nat) : Frame [.cal] [0x150040, 0x150008] s (burnShown s r) :=
  ((Frame.setFld _ _ (by decide)).trans (Frame.setFld _ _ (by decide))).trans (Frame.setFld _ _ (by decide))

theorem next_setBusyResult (v r : Nat) : ((s.setFld Reg.CAL_FF_STATUS_BUSY v).setFld Reg.CAL_FF_STATUS_RESULT r).fld Reg.CAL_FF_STATUS_NEXT =
    s.fld Reg.CAL_FF_STATUS_NEXT :=
  (State.fld_setFld_bits _ Reg.CAL_FF_STATUS_RESULT Reg.CAL_FF_STATUS_NEXT _ rfl (by decide) (by decide) (by decide)).trans
    (State.fld_setFld_bits _ Reg.CAL_FF_STATUS_BUSY Reg.CAL_FF_STATUS_NEXT _ rfl (by decide) (by decide) (by decide))

theorem busy_burnShown (r : Nat) : (burnShown s r).fld Reg.CAL_FF_STATUS_BUSY = 0 :=
  ((State.fld_setFld_bits _ Reg.CAL_FF_STATUS_NEXT Reg.CAL_FF_STATUS_BUSY _ rfl (by decide) (by decide) (by decide)).trans
    (State.fld_setFld_bits _ Reg.CAL_FF_STATUS_RESULT Reg.CAL_FF_STATUS_BUSY _ rfl (by decide) (by decide) (by decide))).trans
    (State.fld_setFld_same s Reg.CAL_FF_STATUS_BUSY 0 (by decide) (by decide))

theorem result_burnShown {r : Nat} (h : r < 4) : (burnShown s r).fld Reg.CAL_FF_STATUS_RESULT = r :=
  (State.fld_setFld_bits _ Reg.CAL_FF_STATUS_NEXT Reg.CAL_FF_STATUS_RESULT _ rfl (by decide) (by decide) (by decide)).trans
    ((State.fld_setFld_same _ Reg.CAL_FF_STATUS_RESULT r (by decide) (by decide)).trans (Nat.mod_eq_of_lt h))

theorem next_burnShown (r : Nat) : (burnShown s r).fld Reg.CAL_FF_STATUS_NEXT = (s.fld Reg.CAL_FF_STATUS_NEXT + 1) % 64 :=
  State.fld_setFld_same _ Reg.CAL_FF_STATUS_NEXT _ (by decide) (by decide)

theorem fuseBurnDone_rests (h : s.cal.burn = none) (ok : Bool) : exec (.fuseBurnDone ok) s = .next s := by
  have e : exec (.fuseBurnDone ok) s = execFuseBurnDone ok s := rfl
  rw [e]
  unfold execFuseBurnDone
  rw [h]

theorem exec_fuseBurnDone {r v : Nat} (ok : Bool) (h : s.cal.burn = some (r, v)) : exec (.fuseBurnDone ok) s =
    .next ((burnShown (recordUsed s (if ok = true then some (r, v) else none)) (if ok = true then 0 else 2)).calRaise 4) := by
  have e : exec (.fuseBurnDone ok) s = execFuseBurnDone ok s := rfl
  rw [e]
  unfold execFuseBurnDone burnShown
  rw [h]
  dsimp only
  rw [next_setBusyResult]
  rfl

theorem fuseBurnDone_ends (r v : Nat) (ok : Bool) (h : s.cal.burn = some (r, v)) : Completes (.fuseBurnDone ok) s fun t =>
    t.cal = { s.cal with burn := none, burnt := s.cal.burnt ++ [if ok = true then some (r, v) else none] } ∧
    t.flag Reg.CAL_FF_STATUS_BUSY = false ∧ t.fld Reg.CAL_FF_STATUS_RESULT = (if ok = true then 0 else 2) ∧
    t.fld Reg.CAL_FF_STATUS_NEXT = (s.fld Reg.CAL_FF_STATUS_NEXT + 1) % 64 ∧ bit (t.word 0x150008).toNat 2 = true ∧
    Frame [.cal] [0x150040, 0x150008] s t := by
  have code : (if ok = true then 0 else 2) < 4 := by cases ok <;> decide
  refine ⟨_, exec_fuseBurnDone ok h, ?_⟩
  generalize (if ok = true then 0 else 2) = c at code ⊢
  generalize (if ok = true then some (r, v) else none) = rec
  have kept : ∀ f : Fld, f.addr = 0x150040 → ((burnShown (recordUsed s rec) c).calRaise 4).fld f = (burnShown (recordUsed s rec) c).fld f := fun f hf =>
    (frame_calRaise (ps := []) (as := [0x150008]) 4 (by decide)).cameraFld hf (by decide) (by decide)
  have event : ((burnShown (recordUsed s rec) c).calRaise 4).flag Reg.CAL_EVENT_FF_DONE = true :=
    State.flag_raise (f := Reg.CAL_EVENT_FF_DONE) _ _ _ _ (by decide) rfl (by decide) (by decide)
  have next : (recordUsed s rec).fld Reg.CAL_FF_STATUS_NEXT = s.fld Reg.CAL_FF_STATUS_NEXT := fld_withCal _ _
  refine ⟨cal_calRaise 4, ?_, (kept _ rfl).trans (result_burnShown code), ?_, ?_,
    ((frame_withCal _).trans (frame_burnShown c)).trans (frame_calRaise 4 (by decide))⟩
  · rw [flag, kept _ rfl, busy_burnShown]
    rfl
  · rw [kept _ rfl, next_burnShown, next]
  · rwa [flag_eq_testBit rfl] at event

end Sys2Proof.Machine
end

section
/-! PROOFS. O36: the triggers, runs and results of calibration items, cal_ppb and the field fuses, put together (R223 to R232, R235). -/

namespace Sys2Proof.Machine

open State

/-- Settles O36: samples and commands that make items pending, the start and the two ends of a run, cal_ppb, and the burn of a field record. -/
theorem calibrationRuns : Obligations.CalibrationRuns := by
  unfold Obligations.CalibrationRuns
  intro s
  refine ⟨fun n T hr => ?_, fun temps hr hd => ⟨_, exec_calTempSample temps hr, tNow_tempSamples temps hd s⟩, fun n _ => calThreshold_eq s n,
    calRun_effect, fun n hr hp hi h39 hport ht => calRunStart_starts n hr hp hi h39 hport ht, calRunStart_rests, calRunDone_rests,
    fun n ok hn hr => ⟨fun h => h ▸ calRunDone_ends hn hr, fun h => h ▸ calRunDone_failing hr ?_⟩, fun n ok l hn hr hl => calRunDone_failing hr ?_,
    calPpbUpdate_valid, calPpbUpdate_invalid, fun m key hm => ⟨calFfCmd_burns hm, calFfCmd_full hm, calFfCmd_ignored hm⟩,
    fuseBurnDone_rests, fuseBurnDone_ends⟩
  · obtain ⟨t, ht, now, due, rests, frame⟩ := calTempSample_effect n T hr
    exact ⟨t, ht, now, fun th hth auto far fails => due ⟨auto, fails, th, hth, far⟩, fun h => rests (not_tempTriggers h), frame⟩
  · rw [if_neg (by omega)]
  · rw [if_pos hn]
    rcases hl with none | beyond
    · rw [none]
      rfl
    · rw [Bool.eq_false_of_not_eq_true beyond, Bool.and_false]

end Sys2Proof.Machine
end

section
/-! PROOFS. O36 on concrete states: a command of each kind whose hypotheses hold, and what follows. -/

namespace Sys2Proof.Machine

open State

/-- O36 of a sample 1000/256 °C above the start of lane group 0's last run, twice the threshold of reset. -/
theorem calibrationRuns_sample : Completes (.calTempSample [(0, 1000)]) State.reset fun t =>
    t.fld (Reg.CAL_ITEM_T_NOW 0) = 1000 ∧ t.calPending 0 = true ∧ t.calStale 0 = true := by
  obtain ⟨t, ht, now, due, -⟩ := (calibrationRuns State.reset).1 0 1000 (by decide +kernel)
  exact ⟨t, ht, now, due 512 (by decide +kernel) (by decide +kernel) (by decide +kernel) (by decide +kernel)⟩

/-- O36 of a RUN of item 33 by the owner. -/
theorem calibrationRuns_command : Completes (.calRun 1 33) ownedState fun t =>
    t.calPending 33 = true ∧ t.fld (Reg.CAL_ITEM_STATE 33) = 1 := by
  obtain ⟨t, ht, pending, -, state, -⟩ := calRun_effect (s := ownedState) 1 33 33 (by decide +kernel) (by decide +kernel) (by decide) (.inl rfl)
  exact ⟨t, ht, pending, state.trans (by decide +kernel)⟩

/-- O36 of the start of item 32, pending since reset. -/
theorem calibrationRuns_start : Completes (.calRunStart 32) State.reset fun t => t.calRunning 32 = true ∧ t.calPending 32 = false := by
  obtain ⟨t, ht, running, waits, -⟩ := calRunStart_starts (s := State.reset) 32 (by decide +kernel) (by decide +kernel) (by decide +kernel) (by decide)
    (fun h => absurd h (by decide)) (by decide +kernel)
  exact ⟨t, ht, running, waits⟩

/-- A run of item `n` is in progress, the first since reset. -/
def calRunningState (n : Nat) : State := State.reset.setFld (Reg.CAL_ITEM_STATE n) 2

/-- O36 of its end with a result, which waits for the item's consumers. -/
theorem calibrationRuns_result : Completes (.calRunDone 40 true []) (calRunningState 40) fun t =>
    t.fld (Reg.CAL_ITEM_RUNS 40) = 1 ∧ t.calResult 40 = some ⟨0, [], [4]⟩ := by
  obtain ⟨t, ht, -, runs, result, -⟩ := calRunDone_ends (s := calRunningState 40) (n := 40) (by decide) (by decide +kernel)
  exact ⟨t, ht, runs.trans (by decide +kernel), result.trans (by decide +kernel)⟩

/-- O36 of the end of lane group 0's run without a lane that counts. -/
theorem calibrationRuns_failure : Completes (.calRunDone 0 true []) (calRunningState 0) fun t =>
    t.fld (Reg.CAL_ITEM_FAILS 0) = 1 ∧ t.flag Reg.CAL_EVENT_FAIL = true := by
  obtain ⟨t, ht, fails, event, -⟩ := calRunDone_failing (s := calRunningState 0) (n := 0) (ok := true) (l := []) (by decide +kernel) rfl
  exact ⟨t, ht, fails.trans (by decide +kernel), event⟩

/-- The software's trim is in use: 1 ppb per °C from 0 °C. -/
def trimmedState : State := (State.reset.setFld Reg.CAL_TOSC_CFG_SRC 1).setFld Reg.CAL_TOSC_C1_C1 0x10000

/-- O36 of a reading of 1 °C. -/
theorem calibrationRuns_reading : Completes (.calPpbUpdate 256 true) trimmedState fun t =>
    t.fld Reg.CAL_PPB_PPB = 0x10000 ∧ t.calStale 39 = false := by
  obtain ⟨t, ht, ppb, -, stale, -⟩ := calPpbUpdate_valid (s := trimmedState) 256 0x10000 0 0 256 0x10000 (by decide +kernel) (by decide +kernel) (by decide)
    (by decide) (by decide) (by decide)
  exact ⟨t, ht, ppb, stale⟩

/-- Master 1 owns Daxma, and `k` field records are used. -/
def usedRecordsState (k : Nat) : State := { ownedState with regs := [(0x150040, BitVec.ofNat 32 (k <<< 20))] }

/-- O36 of the key of a field burn while a record is free, and of the end of that burn. -/
theorem calibrationRuns_burn : Completes (.calFfCmd 1 0x0F5E0001) (usedRecordsState 0) fun t =>
    t.flag Reg.CAL_FF_STATUS_BUSY = true ∧ Completes (.fuseBurnDone true) t fun u =>
      u.cal.burn = none ∧ u.flag Reg.CAL_FF_STATUS_BUSY = false ∧ u.fld Reg.CAL_FF_STATUS_RESULT = 0 := by
  obtain ⟨t, ht, burn, busy, -⟩ := calFfCmd_burns (s := usedRecordsState 0) (m := 1) (key := 0x0F5E0001) (by decide +kernel) rfl (by decide +kernel) (by decide +kernel)
  obtain ⟨u, hu, cal, idle, result, -⟩ := fuseBurnDone_ends _ _ true burn
  exact ⟨t, ht, busy, u, hu, congrArg Cal.burn cal, idle, result⟩

/-- O36 of the key when all 32 records are used. -/
theorem calibrationRuns_full : Completes (.calFfCmd 1 0x0F5E0001) (usedRecordsState 32) fun t =>
    t.fld Reg.CAL_FF_STATUS_RESULT = 1 := by
  obtain ⟨t, ht, result, -⟩ := calFfCmd_full (s := usedRecordsState 32) (m := 1) (key := 0x0F5E0001) (by decide +kernel) rfl
    (by decide +kernel) (by decide +kernel)
  exact ⟨t, ht, result⟩

end Sys2Proof.Machine
end

section
/-! PROOFS. O38: rate control keeps a tile within its share of the cap (R254, R255). -/

namespace Sys2Proof.Machine

variable {c : TileCfg} {f : Nat → Nat} {x : TileRun}

/-- A CTU lies in the refreshed area. -/
def inArea (c : TileCfg) (p : Nat × Nat) : Bool := decide (p.2 < c.area)

/-- The free cost of a CTU by the way it is coded: outside cap mode, as a minimal CTU, or skipped in cap mode. -/
theorem freeCost_le {cap minimal : Bool} (a most : Nat) :
    (if !cap then a % (most + 1) else if minimal then a % 193 else a % 49) ≤ 48 ∨
      (if !cap then a % (most + 1) else if minimal then a % 193 else a % 49) ≤ 192 ∧ minimal = true ∨
      (if !cap then a % (most + 1) else if minimal then a % 193 else a % 49) ≤ most ∧ cap = false := by
  have h (n : Nat) : a % (n + 1) ≤ n := Nat.le_of_lt_succ (Nat.mod_lt _ n.succ_pos)
  cases cap with
  | false => exact .inr (.inr ⟨h most, rfl⟩)
  | true => cases minimal with
    | false => exact .inl (h 48)
    | true => exact .inr (.inl ⟨h 192, rfl⟩)

/-- What a CTU costs leaves the run's budget and joins what is used: at most 48 bits in cap mode, 192 for a minimal CTU of the area, and without cap mode no more than the reserve leaves. -/
theorem codeCtu_cost (p : Nat × Nat) : ∃ cost : Nat, (codeCtu c f x p).left = x.left - cost ∧ (codeCtu c f x p).used = x.used + cost ∧
    (cost ≤ 48 ∨ cost ≤ 192 ∧ inArea c p = true ∨
      cost ≤ c.maxctu ∧ (c.maxctu + 48 * (x.m - 1 : Nat) + 144 * x.u + 64 : Int) ≤ x.left) := by
  refine ⟨_, rfl, rfl, (freeCost_le _ _).imp_right (.imp (.imp_right fun minimal => ?_) (.imp_right fun outside => ?_))⟩
  · simp only [Bool.and_eq_true] at minimal
    exact minimal.1.2
  · simp only [Bool.or_eq_false_iff, decide_eq_false_iff_not] at outside
    exact not_lt.mp outside.1.2

/-- A run of which the CTUs `l` are not yet coded: it knows how many they are and how many of them lie in the area, it keeps what cap mode needs for them and for closing the slice, and every bit of the share is used or left. -/
structure WithinShare (c : TileCfg) (x : TileRun) (l : List (Nat × Nat)) : Prop where
  rest : x.m = l.length
  restArea : x.u = l.countP (inArea c)
  reserve : 48 * (x.m : Int) + 144 * x.u + 64 ≤ x.left
  share : (x.used : Int) + x.left = c.share

theorem codeCtu_withinShare {p : Nat × Nat} {l : List (Nat × Nat)} (h : WithinShare c x (p :: l)) :
    WithinShare c (codeCtu c f x p) l := by
  obtain ⟨rest, restArea, reserve, share⟩ := h
  obtain ⟨cost, left, used, cheap⟩ := codeCtu_cost (c := c) (f := f) (x := x) p
  have m : (codeCtu c f x p).m = x.m - 1 := rfl
  have u : (codeCtu c f x p).u = if inArea c p then x.u - 1 else x.u := rfl
  rw [List.length_cons] at rest
  rw [List.countP_cons] at restArea
  refine ⟨by omega, ?_, ?_, by omega⟩
  · rw [u]
    split at restArea <;> simp_all
  · rw [left, m, u]
    by_cases area : inArea c p = true
    · rw [if_pos area] at restArea ⊢
      omega
    · rw [if_neg area] at restArea ⊢
      have cheap := cheap.imp_right fun h => h.resolve_left fun h => area h.2
      omega

theorem codeCtus_withinShare (g : TileRun → Nat → Nat) : (l : List (Nat × Nat)) → (x : TileRun) → WithinShare c x l →
    WithinShare c (l.foldl (fun x p => codeCtu c (g x) x p) x) []
  | [], _, h => h
  | _ :: l, _, h => codeCtus_withinShare g l _ (codeCtu_withinShare h)

/-- The CTUs of a tile, row by row. -/
def tileCtus (c : TileCfg) : List (Nat × Nat) := ((List.range c.rows).map fun r => c.cols.map fun k => (r, k)).flatten

theorem length_tileCtus : (tileCtus c).length = c.cols.length * c.rows := by
  simp [tileCtus, List.length_flatten, Function.comp_def, Nat.mul_comm]

theorem countP_tileCtus : (tileCtus c).countP (inArea c) = (c.cols.filter fun k => decide (k < c.area)).length * c.rows := by
  have row : ∀ r, (c.cols.map fun k => (r, k)).countP (inArea c) = (c.cols.filter fun k => decide (k < c.area)).length := fun r => by
    rw [List.countP_map, List.countP_eq_length_filter]
    rfl
  simp [tileCtus, List.countP_flatten, Function.comp_def, row, Nat.mul_comm]

/-- A tile begins within a share that covers its non-VCL bits and its part of Cmin. -/
theorem withinShare_start (h : c.nonvcl + 192 * (c.cols.length * c.rows) + 64 ≤ c.share) :
    WithinShare c
      { left := (c.share : Int) - c.nonvcl, used := c.nonvcl, m := (tileCtus c).length,
        u := (c.cols.filter fun k => decide (k < c.area)).length * c.rows } (tileCtus c) := by
  have area : (tileCtus c).countP (inArea c) ≤ (tileCtus c).length := List.countP_le_length
  refine ⟨rfl, countP_tileCtus.symm, ?_, by dsimp only; omega⟩
  rw [← countP_tileCtus]
  rw [← length_tileCtus] at h
  dsimp only
  omega

/-- Settles O38: before each CTU the run keeps 48 bits for every CTU to come, 144 more for every one of the area, and the 64 that close the slice. -/
theorem encoderTileStaysWithinShare : Obligations.EncoderTileStaysWithinShare := by
  unfold Obligations.EncoderTileStaysWithinShare
  intro c f h
  obtain ⟨rest, restArea, reserve, share⟩ :=
    codeCtus_withinShare (fun x n => f (5 * x.idx + n)) (tileCtus c) _ (withinShare_start h)
  rw [rest, restArea] at reserve
  exact ⟨reserve, share⟩

/-- A tile of one row of two CTUs in an area that must be refreshed by now, whose share leaves no CTU out of cap mode. -/
def cappedTile : TileCfg where
  cols := [0, 1]
  rows := 1
  area := 2
  b := 0
  refHi := 2
  deadline := true
  share := 448
  nonvcl := 0
  maxctu := 61440
  qp := 30
  qpMin := 10
  aq := 0
  mean := none
  forcedAt := none

/-- O38 of that tile, with nothing to spare. -/
theorem encoderTileStaysWithinShare_capped (f : Nat → Nat) :
    64 ≤ (codeTile cappedTile f).left ∧ ((codeTile cappedTile f).used : Int) + (codeTile cappedTile f).left = 448 :=
  encoderTileStaysWithinShare cappedTile f (by decide)

end Sys2Proof.Machine
end

section
/-! PROOFS. O37, the registers of the encoders: what parcels, releases and the queues that follow leave of them, and ENC_STATUS (R243, R260). -/

namespace Sys2Proof.Machine

open State

variable {s t u : State} {e : Nat} {ps : List Part} {as : List Nat}

/-! ### Control space of the encoders -/

theorem calm_enc {x : Nat} (h : 0x160000 ≤ x) : calm x = true := calm_camera (by omega)

/-- The registers of the encoders stand. -/
def EncStands (s t : State) : Prop := ∀ x, 0x160000 ≤ x → x < 0x170000 → t.word x = s.word x

/-- A word that is no encoder's. -/
def noEncWord (x : Nat) : Prop := x < 0x160000 ∨ 0x170000 ≤ x

namespace EncStands

theorem refl : EncStands s s := fun _ _ _ => rfl

theorem trans (h : EncStands s t) (h' : EncStands t u) : EncStands s u := fun x hx hl => (h' x hx hl).trans (h x hx hl)

theorem of_regs (h : t.regs = s.regs) : EncStands s t := fun x _ _ => word_congr h x

theorem of_calm (h : Calm s t) : EncStands s t := fun x hx _ => h x (calm_enc hx)

theorem of_frame (h : Frame ps as s t) (ha : ∀ a ∈ as, noEncWord a) : EncStands s t := fun x hx hl =>
  h.2.1 x (calm_enc hx) fun hm => (ha x hm).elim (by omega) (by omega)

theorem count {f : Fld} (k : Nat) (h : noEncWord f.addr) : EncStands s (s.count f k) := fun x hx hl =>
  State.word_count _ _ fun e => by
    unfold noEncWord at h
    omega

theorem raise {a : Nat} (en src m sh : Nat) (h : noEncWord a) : EncStands s (s.raise a en src m sh) := fun x hx hl =>
  (State.word_raise _ _ _ _ _ (calm_enc hx)).trans (if_neg fun e => by
    unfold noEncWord at h
    omega)

/-- A step taken under a condition. -/
theorem when {c : Prop} [Decidable c] (h : c → EncStands s t) : EncStands s (if c then t else s) := by
  split
  · exact h ‹c›
  · exact refl

/-- The value of a field of an encoder's register. -/
theorem fld (h : EncStands s t) (f : Fld) (hx : 0x160000 ≤ f.addr ∧ f.addr < 0x170000) : t.fld f = s.fld f :=
  State.fld_of_word (h _ hx.1 hx.2)

/-! ### The berth table and the followers of encoders' releases -/

theorem berthFault (w h c : Nat) : EncStands s (s.berthFault w h c) :=
  of_frame (ps := []) (frame_berthFault (as := [0x60000, 0x60128, 0x6012C]) (by decide) (by decide) (by decide)) fun a ha => .inl (by
    simp only [List.mem_cons, List.not_mem_nil, or_false] at ha
    omega)

theorem acquire (w h : Nat) : EncStands s (s.acquire w h).1 := by
  unfold State.acquire
  dsimp only
  split
  · exact berthFault _ _ _
  split
  · exact berthFault _ _ _
  · exact of_regs rfl

theorem releaseTable (w h : Nat) : EncStands s (s.releaseTable w h) := by
  unfold State.releaseTable
  dsimp only
  split
  · exact berthFault _ _ _
  · exact of_regs rfl

/-- An entry that is pushed and acquired, or else counted as lost. -/
theorem pushed {w a cap h : Nat} {lost : State → State} (hl : ∀ v, EncStands v (lost v)) :
    EncStands s (match s.pushHeld w a cap h with | (v, ok) => if ok then v else lost v) := by
  have granted := acquire (s := s) w h
  unfold State.pushHeld
  generalize s.acquire w h = r at granted ⊢
  obtain ⟨v, ok⟩ := r
  by_cases room : (s.queue a).length < cap
  · cases ok with
    | true =>
      have entered : EncStands v (v.setQueue a (v.queue a ++ [⟨h, 0, true⟩])) := of_regs rfl
      simpa [room] using granted.trans entered
    | false => simpa [room] using granted
  · simpa [room] using hl s

theorem scnFollow (race : Bool) (h : Nat) : (l : List Nat) → (s : State) → EncStands s (State.scnFollow race h l s)
  | [], _ => refl
  | l :: rest, s => by
    rw [State.scnFollow]
    refine EncStands.trans ?_ (scnFollow race h rest _)
    exact when fun _ => pushed fun _ => count 1 (.inr (by simp only [Reg.SCN_LAYER_CNT_PUSH_LOST]; omega))

theorem netFollow (h : Nat) : (l : List Nat) → (s : State) → EncStands s (State.netFollow h l s)
  | [], _ => refl
  | n :: rest, s => by
    rw [State.netFollow]
    refine EncStands.trans ?_ (netFollow h rest _)
    exact when fun _ => pushed fun _ => (count 1 (.inr (by simp only [Reg.NET_TX_STATUS_LOST]; omega))).trans
      (raise _ _ _ _ (.inr (by simp only [Reg.NET_EVENT_PUSH_LOST]; omega)))

/-- No encoder slot follows a unit that is no pipeline (R242). -/
theorem release {w : Nat} (hw : 8 ≤ w) (h : Nat) : EncStands s (s.release w h) := by
  unfold State.release
  split
  · exact releaseTable w h
  · dsimp only
    rw [if_neg (show ¬(4 ≤ w ∧ w < 8) by omega)]
    refine EncStands.trans ?_ (releaseTable w h)
    have scn : EncStands s (if w = 12 ∨ w = 13 then State.scnFollow false h (List.range 16) s else s) := when fun _ => scnFollow _ _ _ _
    split
    · exact scn
    · exact scn.trans (netFollow _ _ _)

theorem acquireFor : (l : List (Nat × Nat)) → (s : State) → EncStands s (State.acquireFor l s).1
  | [], _ => refl
  | (m, h) :: l, s => by
    rw [State.acquireFor]
    split
    · exact acquireFor l s
    · exact (acquire (8 + m) h).trans (acquireFor l _)

theorem releaseFor : (l : List (Nat × Nat)) → (s : State) → EncStands s (State.releaseFor l s)
  | [], _ => refl
  | (m, h) :: l, s => (release (by omega) h).trans (releaseFor l (s.release (8 + m) h))

theorem emit (w : Nat) (m : Manifest) (ofs : Nat) (payload : List Byte) : EncStands s (s.emit w m ofs payload) := by
  unfold State.emit
  dsimp only
  split
  · exact berthFault _ _ _
  · refine EncStands.trans ?_ (when fun _ => of_regs rfl)
    refine EncStands.trans ?_ (when fun _ => scnFollow _ _ _ _)
    exact of_regs rfl

theorem writeBerth (w h ofs : Nat) (bs : List Byte) : EncStands s (s.writeBerth w h ofs bs) := by
  unfold State.writeBerth
  dsimp only
  split
  · exact of_regs rfl
  · exact berthFault _ _ _

end EncStands

/-! ### Pictures, streams and entries -/

theorem encActive_congr (h : t.encPics = s.encPics) (e : Nat) : t.encActive e = s.encActive e := by
  unfold encActive
  rw [h]

/-- Engine `e` codes none of the pictures exactly where it is not active. -/
theorem encActive_none : s.encActive e = none ↔ ∀ y ∈ s.encPics, ∀ x ∈ y.tiles, ¬(x.engine = e ∧ x.st = .coding) := by
  unfold encActive
  simp only [List.find?_eq_none, List.any_eq_true, Bool.and_eq_true, decide_eq_true_eq, not_exists, not_and]

theorem encActive_some {p : EncPic} (h : s.encActive e = some p) : p ∈ s.encPics ∧ ∃ x ∈ p.tiles, x.engine = e ∧ x.st = .coding := by
  have part := List.find?_some h
  simp only [List.any_eq_true, Bool.and_eq_true, decide_eq_true_eq] at part
  exact ⟨List.mem_of_find?_eq_some h, part⟩

theorem mem_encSuspended {p : EncPic} : p ∈ s.encSuspended e ↔ p ∈ s.encPics ∧ ∃ x ∈ p.tiles, x.engine = e ∧ x.st = .suspended := by
  unfold encSuspended
  simp only [List.mem_filter, List.any_eq_true, Bool.and_eq_true, decide_eq_true_eq]

/-! ### ENC_STATUS -/

/-- The slots of the pictures that engine `e` has suspended. -/
def suspendedMask (s : State) (e : Nat) : Nat := (s.encSuspended e).foldl (fun m p => m ||| 2 ^ p.slot) 0

theorem testBit_foldl_slots (k : Nat) : (l : List EncPic) → (m : Nat) →
    (l.foldl (fun m p => m ||| 2 ^ p.slot) m).testBit k = (m.testBit k || l.any fun p => decide (p.slot = k))
  | [], m => by simp
  | p :: l, m => by
    rw [List.foldl_cons, testBit_foldl_slots k l, Nat.testBit_or, Nat.testBit_two_pow, List.any_cons, Bool.or_assoc]

theorem testBit_suspendedMask (k : Nat) : (suspendedMask s e).testBit k = (s.encSuspended e).any fun p => decide (p.slot = k) := by
  rw [suspendedMask, testBit_foldl_slots, Nat.zero_testBit, Bool.false_or]

/-- Word ENC_STATUS shows `state`, the suspended slots, `cap` and, of a picture in hand, its slot. -/
def statusShown (s : State) (e state : Nat) (active : Option Nat) (cap : Nat) : State :=
  let s := (s.setFld (Reg.ENC_STATUS_SUSPENDED e) (suspendedMask s e)).setFld (Reg.ENC_STATUS_STATE e) state
  (match active with | some i => s.setFld (Reg.ENC_STATUS_ACTIVE e) i | none => s).setFld (Reg.ENC_STATUS_CAP e) cap

theorem frame_statusShown {state cap : Nat} {active : Option Nat} (ha : 0x160004 + 0x4000 * e ∈ as) :
    Frame ps as s (statusShown s e state active cap) := by
  have first : Frame ps as s ((s.setFld (Reg.ENC_STATUS_SUSPENDED e) (suspendedMask s e)).setFld (Reg.ENC_STATUS_STATE e) state) :=
    (Frame.setFld (Reg.ENC_STATUS_SUSPENDED e) _ ha).trans (Frame.setFld (Reg.ENC_STATUS_STATE e) _ ha)
  cases active with
  | some i => exact first.trans ((Frame.setFld (Reg.ENC_STATUS_ACTIVE e) i ha).trans (Frame.setFld (Reg.ENC_STATUS_CAP e) cap ha))
  | none => exact first.trans (Frame.setFld (Reg.ENC_STATUS_CAP e) cap ha)

/-- A field of ENC_STATUS is written beside another. -/
theorem fld_status_apart {f g : Fld} (v : Nat) (hf : f.addr = 0x160004 + 0x4000 * e) (hg : g.addr = 0x160004 + 0x4000 * e)
    (hl : g.lo ≤ g.hi) (hw : f.hi < 32) (hd : f.hi < g.lo ∨ g.hi < f.lo) : (s.setFld g v).fld f = s.fld f :=
  State.fld_setFld_bits _ _ _ _ (hf.trans hg.symm) hl hw hd

theorem encState_statusShown {state cap : Nat} {active : Option Nat} : (statusShown s e state active cap).encState e = state % 4 := by
  have own : ∀ v : State, (v.setFld (Reg.ENC_STATUS_STATE e) state).fld (Reg.ENC_STATUS_STATE e) = state % 4 := fun v =>
    State.fld_setFld_same _ _ _ (show 30 ≤ 31 by decide) (show 31 < 32 by decide)
  have cap' : ∀ v : State, (v.setFld (Reg.ENC_STATUS_CAP e) cap).fld (Reg.ENC_STATUS_STATE e) = v.fld (Reg.ENC_STATUS_STATE e) := fun v =>
    fld_status_apart cap rfl rfl (show 0 ≤ 0 by decide) (show 31 < 32 by decide) (.inr (show 0 < 30 by decide))
  unfold encState statusShown
  cases active with
  | some i => exact (cap' _).trans ((fld_status_apart i rfl rfl (show 24 ≤ 25 by decide) (show 31 < 32 by decide)
      (.inr (show 25 < 30 by decide))).trans (own _))
  | none => exact (cap' _).trans (own _)

theorem active_statusShown {state cap i : Nat} : (statusShown s e state (some i) cap).fld (Reg.ENC_STATUS_ACTIVE e) = i % 4 :=
  (fld_status_apart cap rfl rfl (show 0 ≤ 0 by decide) (show 25 < 32 by decide) (.inr (show 0 < 24 by decide))).trans
    (State.fld_setFld_same _ _ _ (show 24 ≤ 25 by decide) (show 25 < 32 by decide))

theorem suspended_statusShown {state cap : Nat} {active : Option Nat} :
    (statusShown s e state active cap).fld (Reg.ENC_STATUS_SUSPENDED e) = suspendedMask s e % 16 := by
  have beside : ∀ (v : State) (g : Fld) (n : Nat), g.addr = 0x160004 + 0x4000 * e → g.lo ≤ g.hi → 19 < g.lo ∨ g.hi < 16 →
      (v.setFld g n).fld (Reg.ENC_STATUS_SUSPENDED e) = v.fld (Reg.ENC_STATUS_SUSPENDED e) := fun v g n ha hl hd =>
    fld_status_apart n rfl ha hl (show 19 < 32 by decide) hd
  have shown : ((s.setFld (Reg.ENC_STATUS_SUSPENDED e) (suspendedMask s e)).setFld (Reg.ENC_STATUS_STATE e) state).fld
      (Reg.ENC_STATUS_SUSPENDED e) = suspendedMask s e % 16 :=
    (beside _ (Reg.ENC_STATUS_STATE e) _ rfl (show 30 ≤ 31 by decide) (.inl (show 19 < 30 by decide))).trans
      (State.fld_setFld_same _ _ _ (show 16 ≤ 19 by decide) (show 19 < 32 by decide))
  refine (beside _ (Reg.ENC_STATUS_CAP e) _ rfl (show 0 ≤ 0 by decide) (.inr (show 0 < 16 by decide))).trans ?_
  cases active with
  | some i => exact (beside _ (Reg.ENC_STATUS_ACTIVE e) _ rfl (show 24 ≤ 25 by decide) (.inl (show 19 < 24 by decide))).trans shown
  | none => exact shown

/-- What ENC_STATUS shows of an engine that codes `p`. -/
theorem encShow_active {p : EncPic} (h : s.encActive e = some p) : ∃ cap, s.encShow e = statusShown s e 2 (some p.slot) cap := by
  have h' : (s.setFld (Reg.ENC_STATUS_SUSPENDED e) (suspendedMask s e)).encActive e = some p := h
  refine ⟨b01 (match tileOf p e with | some t => t.forced.isSome | none => false), ?_⟩
  unfold encShow
  dsimp only
  rw [← suspendedMask, h']
  rfl

theorem encState_setSuspended (v : Nat) : (s.setFld (Reg.ENC_STATUS_SUSPENDED e) v).encState e = s.encState e :=
  fld_status_apart v rfl rfl (show 16 ≤ 19 by decide) (show 31 < 32 by decide) (.inr (show 19 < 30 by decide))

/-- What ENC_STATUS shows of an engine that codes nothing. -/
theorem encShow_idle (h : s.encActive e = none) : s.encShow e = statusShown s e (if s.encState e = 0 then 0 else 1) none 0 := by
  have h' : (s.setFld (Reg.ENC_STATUS_SUSPENDED e) (suspendedMask s e)).encActive e = none := h
  unfold encShow
  dsimp only
  rw [← suspendedMask, h', encState_setSuspended]
  rfl

/-- What `encShow` writes, whatever the engine does. -/
theorem encShow_eq (s : State) (e : Nat) : ∃ state active cap, s.encShow e = statusShown s e state active cap := by
  cases h : s.encActive e with
  | some p =>
    obtain ⟨cap, shown⟩ := encShow_active h
    exact ⟨2, some p.slot, cap, shown⟩
  | none => exact ⟨_, none, 0, encShow_idle h⟩

theorem frame_encShow (ha : 0x160004 + 0x4000 * e ∈ as) : Frame ps as s (s.encShow e) := by
  obtain ⟨state, active, cap, shown⟩ := encShow_eq s e
  rw [shown]
  exact frame_statusShown ha

theorem word_encShow_other {x : Nat} (hx : 0x160000 ≤ x) (h : x ≠ 0x160004 + 0x4000 * e) : (s.encShow e).word x = s.word x :=
  (frame_encShow (ps := []) List.mem_cons_self).2.1 x (calm_enc hx) fun hm => h (List.mem_singleton.mp hm)

theorem suspended_encShow : (s.encShow e).fld (Reg.ENC_STATUS_SUSPENDED e) = suspendedMask s e % 16 := by
  obtain ⟨state, active, cap, shown⟩ := encShow_eq s e
  rw [shown, suspended_statusShown]

theorem encPics_encShow : (s.encShow e).encPics = s.encPics := (keeps_encShow (L := 8) e Keeps.refl rfl).same .encPics rfl

end Sys2Proof.Machine
end

section
/-! PROOFS. O37, pushes to the queues of a slot (R242). -/

namespace Sys2Proof.Machine

open State

variable {s t u : State} {e i : Fin 4} {j a n : Nat}

/-! ### A push register is written -/

theorem encPush_room (h : (s.queue (encQ a n j)).length < 8) (x : Nat) :
    s.encPush a n j x = s.setQueue (encQ a n j) (s.queue (encQ a n j) ++ [⟨x, 0, false⟩]) := by
  rw [encPush, pushQ_room h]
  exact if_pos rfl

theorem encPush_full (h : 8 ≤ (s.queue (encQ a n j)).length) (x : Nat) : s.encPush a n j x = s.count (Reg.ENC_SLOT_QUEUE_LOST a n) := by
  rw [encPush, pushQ_full h]
  exact if_neg Bool.false_ne_true

/-- The push registers of a slot hold no locked field. -/
theorem encQ_free : ∀ (e i : Fin 4) (j : Fin 3), ((fieldsAt (encQ e i j)).all fun (f : FieldDesc) => decide (f.cls ≠ .x)) = true := by
  decide +kernel

theorem quiet_queueLost : ∀ e i : Fin 4, quiet (Reg.ENC_SLOT_QUEUE_LOST e i).addr = false := by decide +kernel

theorem encPush_written {m : Fin 32} {h : BitVec 16} {c : Instr} (hm : s.mayWrite m.val (encQ e i j) .plain = true)
    (hc : j = 0 ∧ c = .encSlotInPush m e i h ∨ j = 1 ∧ c = .encSlotBsPush m e i h ∨ j = 2 ∧ c = .encSlotEsPush m e i h) :
    ∃ u, Frame [] [encQ e i j] s u ∧ exec c s = .next (u.encPush e i j h.toNat) := by
  have frame {u : State} (k : Fin 3) (hw : Wrote (encQ e i k) h.toNat s u) : Frame [] [encQ e i k] s u :=
    Frame.of_wrote_free hw List.mem_cons_self (calm_enc (by unfold encQ; omega)) (encQ_free e i k)
  rcases hc with ⟨rfl, rfl⟩ | ⟨rfl, rfl⟩ | ⟨rfl, rfl⟩
  · obtain ⟨_, u, _, wrote, run⟩ := write_encSlotInPush m e i h hm
    exact ⟨u, frame 0 wrote, run⟩
  · have at_ : 0x160134 + 0x4000 * e.val + 0x100 * i.val = encQ e i 1 := by unfold encQ; omega
    obtain ⟨_, u, _, wrote, run⟩ := write_encSlotBsPush m e i h (at_ ▸ hm)
    exact ⟨u, frame 1 (at_ ▸ wrote), run⟩
  · have at_ : 0x160138 + 0x4000 * e.val + 0x100 * i.val = encQ e i 2 := by unfold encQ; omega
    obtain ⟨_, u, _, wrote, run⟩ := write_encSlotEsPush m e i h (at_ ▸ hm)
    exact ⟨u, frame 2 (at_ ▸ wrote), run⟩

/-- The part of O37 on pushes: an entry joins its queue of 8, or is counted in LOST (R242). -/
theorem encPush_effect {m : Fin 32} {h : BitVec 16} {Q : Nat} {c : Instr} (hQ : Q = encQ e i j) (hm : s.mayWrite m.val Q .plain = true)
    (hc : j = 0 ∧ c = .encSlotInPush m e i h ∨ j = 1 ∧ c = .encSlotBsPush m e i h ∨ j = 2 ∧ c = .encSlotEsPush m e i h) :
    ((s.queue Q).length < 8 → Completes c s fun t =>
      t.queue Q = s.queue Q ++ [⟨h.toNat, 0, false⟩] ∧ (∀ b, b ≠ Q → t.queue b = s.queue b) ∧ Frame [.queues] [Q] s t) ∧
    (8 ≤ (s.queue Q).length → Completes c s fun t =>
      t.queues = s.queues ∧ t.fld (Reg.ENC_SLOT_QUEUE_LOST e i) = min (s.fld (Reg.ENC_SLOT_QUEUE_LOST e i) + 1) 255 ∧
      Frame [] [Q, (Reg.ENC_SLOT_QUEUE_LOST e i).addr] s t) := by
  subst hQ
  obtain ⟨u, frame, run⟩ := encPush_written hm hc
  have queues : u.queues = s.queues := frame.1 .queues (by decide)
  rw [← queue_congr queues]
  refine ⟨fun room => ⟨_, run, ?_⟩, fun full => ⟨_, run, ?_⟩⟩
  · rw [encPush_room room]
    exact ⟨queue_setQueue_same .., fun b hb => (queue_setQueue_other _ _ hb).trans (queue_congr queues b),
      (frame.mono (by simp) (by simp)).trans (frame_setQueue _ _ List.mem_cons_self)⟩
  · have apart : (Reg.ENC_SLOT_QUEUE_LOST e i).addr ≠ encQ e i j := by
      have : j < 3 := by omega
      simp only [Reg.ENC_SLOT_QUEUE_LOST, encQ]
      omega
    have lost : u.fld (Reg.ENC_SLOT_QUEUE_LOST e i) = s.fld (Reg.ENC_SLOT_QUEUE_LOST e i) :=
      State.fld_of_word (frame.2.1 _ (calm_enc (by simp only [Reg.ENC_SLOT_QUEUE_LOST]; omega)) (by simpa using apart))
    rw [encPush_full full]
    refine ⟨queues, ?_, (frame.mono (by simp) (by simp)).trans
      (Frame.count _ _ (by simp) (quiet_queueLost e i) (by simp only [Reg.ENC_SLOT_QUEUE_LOST]; omega))⟩
    rw [State.fld_count_same _ (show 24 ≤ 31 by decide) (show 31 < 32 by decide), lost]
    rfl

end Sys2Proof.Machine
end

section
/-! PROOFS. O37, what a picture that leaves the engines takes with it, and RUN and STOP (R44, R256, R260). -/

namespace Sys2Proof.Machine

open State

variable {s t u : State} {p y : EncPic} {flags : Nat}

/-! ### Pictures in hand -/

theorem mem_dropEncPic : y ∈ (s.dropEncPic p).encPics ↔ y ∈ s.encPics ∧ ¬(y.leader = p.leader ∧ y.slot = p.slot) := by
  show y ∈ s.encPics.filter _ ↔ _
  simp only [List.mem_filter, Bool.not_eq_true', Bool.and_eq_false_iff, decide_eq_false_iff_not, not_and_or]

theorem encPic_none {l i : Nat} : s.encPic l i = none ↔ ∀ y ∈ s.encPics, ¬(y.leader = l ∧ y.slot = i) := by
  unfold encPic
  simp only [List.find?_eq_none, Bool.and_eq_true, decide_eq_true_eq]

theorem encStream_congr (h : t.encStreams = s.encStreams) (l i : Nat) : t.encStream l i = s.encStream l i := by
  unfold encStream
  rw [h]

theorem encStream_setEncStream (s : State) (l i m j : Nat) (x : EncStream) :
    (s.setEncStream l i x).encStream m j = if 4 * m + j = 4 * l + i then x else s.encStream m j := SMap.get_set ..

/-! ### A picture leaves the engines (R259) -/

/-- The engines of a picture. -/
def picEngines (p : EncPic) : List Nat := p.tiles.map fun t => t.engine

/-- The references and the work of a picture are given back and the engines show it no more; its BERTH_RELs are still to come. -/
def leftEngines (s : State) (p : EncPic) : State :=
  encShowAll (picEngines p) ((encEndWork p.man.tide (picEngines p) (releaseFor p.got s)).dropEncPic p)

/-- BERTH_RELs alone follow. -/
theorem frame_encLeave {ps : List Part} {as : List Nat} : Frame ps as (leftEngines s p) (s.encLeave p flags) := by
  have rel : ∀ (v : State) (h : Nat), Frame ps as v (v.berthRel (8 + p.leader) h p.man.frame flags) := fun v h => Frame.post _ _ _ _
  have two : Frame ps as (leftEngines s p)
      (((leftEngines s p).berthRel (8 + p.leader) p.input p.man.frame flags).berthRel (8 + p.leader) p.bs p.man.frame flags) :=
    (rel _ _).trans (rel _ _)
  have e : s.encLeave p flags = (match p.es with
    | some h => (((leftEngines s p).berthRel (8 + p.leader) p.input p.man.frame flags).berthRel (8 + p.leader) p.bs p.man.frame flags).berthRel
        (8 + p.leader) h p.man.frame flags
    | none => ((leftEngines s p).berthRel (8 + p.leader) p.input p.man.frame flags).berthRel (8 + p.leader) p.bs p.man.frame flags) := rfl
  rw [e]
  cases p.es with
  | some h => exact two.trans (rel _ _)
  | none => exact two

theorem encPics_leftEngines : (leftEngines s p).encPics = (s.dropEncPic p).encPics := by
  have shown : ∀ v : State, (encShowAll (picEngines p) v).encPics = v.encPics := fun v =>
    (keeps_encShowAll (L := 8) _ Keeps.refl rfl).same .encPics rfl
  have ended : (encEndWork p.man.tide (picEngines p) (releaseFor p.got s)).encPics = s.encPics :=
    (keeps_encEndWork (L := 412552) _ _ (keeps_releaseFor _ Keeps.refl rfl) rfl).same .encPics rfl
  rw [leftEngines, shown, dropEncPic, ended]
  rfl

theorem encPics_encLeave : (s.encLeave p flags).encPics = (s.dropEncPic p).encPics :=
  ((frame_encLeave (ps := []) (as := [])).1 .encPics (by decide)).trans encPics_leftEngines

theorem encStreams_encLeave : (s.encLeave p flags).encStreams = s.encStreams :=
  (keeps_encLeave (L := 17189768) p flags Keeps.refl rfl).same .encStreams rfl

/-! ### Pictures are abandoned (R44, R256) -/

theorem encPics_encAbandonPic : (s.encAbandonPic p).encPics = (s.dropEncPic p).encPics := encPics_encLeave

theorem encStream_encAbandonPic (l i : Nat) : (s.encAbandonPic p).encStream l i =
    if 4 * l + i = 4 * p.leader + p.slot then { s.encStream p.leader p.slot with forced := true, cycle := none, b := 0 }
    else s.encStream l i := by
  unfold encAbandonPic
  rw [encStream_congr encStreams_encLeave, encStream_setEncStream]

theorem encPics_countAbandon (n : Nat) : (s.countAbandon n).encPics = s.encPics :=
  (keeps_countAbandon (L := 17288) n Keeps.refl rfl).same .encPics rfl

theorem encStreams_countAbandon (n : Nat) : (s.countAbandon n).encStreams = s.encStreams :=
  (keeps_countAbandon (L := 17288) n Keeps.refl rfl).same .encStreams rfl

/-- What abandoned pictures leave in hand. -/
theorem mem_encAbandonPics (e : Nat) : (l : List EncPic) → (s : State) →
    (y ∈ (encAbandonPics e l s).encPics ↔ y ∈ s.encPics ∧ ∀ p ∈ l, ¬(y.leader = p.leader ∧ y.slot = p.slot))
  | [], _ => by simp [encAbandonPics]
  | p :: l, s => by
    rw [encAbandonPics, mem_encAbandonPics e l, encPics_countAbandon, encPics_encAbandonPic, mem_dropEncPic, List.forall_mem_cons, and_assoc]

/-- An IDR that is forced stays forced while pictures are abandoned. -/
theorem forced_encAbandonPics {a i : Nat} (e : Nat) : (l : List EncPic) → (s : State) →
    (s.encStream a i).forced = true ∨ (∃ p ∈ l, p.leader = a ∧ p.slot = i) → ((encAbandonPics e l s).encStream a i).forced = true
  | [], _, h => h.resolve_right (by simp)
  | p :: l, s, h => by
    rw [encAbandonPics]
    refine forced_encAbandonPics e l _ ?_
    rw [encStream_congr (encStreams_countAbandon _), encStream_encAbandonPic]
    split
    · exact .inl rfl
    · next apart =>
      refine h.imp_right fun ⟨q, hq, hl, hi⟩ => ⟨q, (List.mem_cons.mp hq).resolve_left fun e => apart ?_, hl, hi⟩
      rw [← hl, ← hi, e]

end Sys2Proof.Machine

namespace Sys2Proof.Machine

open State

variable {s t u : State} {e : Fin 4} {A : Nat}

/-! ### The writes of ENC_CTRL -/

theorem encCtrl_free : ∀ e : Fin 4, ((fieldsAt (0x160000 + 0x4000 * e.val)).all fun (f : FieldDesc) => decide (f.cls ≠ .x)) = true := by
  decide +kernel

/-- A write outside PWR leaves a unit as awake as it was. -/
theorem Wrote.awake {a v n : Nat} (h : Wrote a v s u) (ha : 0x20000 ≤ a) (hs : s.awake n) : u.awake n := by
  have low : u.fld Reg.PWR_DOMAIN_ON_LO = s.fld Reg.PWR_DOMAIN_ON_LO :=
    State.fld_of_word (h.word _ (by decide +kernel) (by simp only [Reg.PWR_DOMAIN_ON_LO]; omega))
  have high : u.fld Reg.PWR_DOMAIN_ON_HI = s.fld Reg.PWR_DOMAIN_ON_HI :=
    State.fld_of_word (h.word _ (by decide +kernel) (by simp only [Reg.PWR_DOMAIN_ON_HI]; omega))
  have now : u.now = s.now := h.keeps.same .now rfl
  have pwr : u.pwr = s.pwr := h.keeps.same .pwr rfl
  obtain ⟨on, block⟩ := hs
  refine ⟨?_, by rw [pwr, now]; exact block⟩
  unfold domainOn_
  rw [low, high]
  exact on

theorem blockOp_enc (e : Fin 4) (op : Nat) : s.blockOp (8 + e) 0 op = s.encOp e op := by
  unfold blockOp
  rw [if_neg (by omega), if_neg (by omega), if_pos (by omega), Nat.add_sub_cancel_left]

theorem encOp_run : s.encOp e 1 = if s.encState e = 0 then s.setFld (Reg.ENC_STATUS_STATE e) 1 else s := if_pos rfl

theorem encOp_stop : s.encOp e 2 = (encAbandonPics e (s.encInvolved e) s).setFld (Reg.ENC_STATUS_STATE e) 0 := by
  rw [encOp, if_neg (by decide), if_pos rfl]

theorem isStart_encStop (e : Fin 4) : isStart (8 + e) 2 = false := by
  unfold isStart
  rw [decide_eq_false (show ¬(8 + e.val < 4 ∨ 8 + e.val = 22) by omega)]
  rfl

theorem frame_encCtrl {v : Nat} (h : Wrote (0x160000 + 0x4000 * e.val) v s u) : Frame [] [0x160000 + 0x4000 * e.val] s u :=
  Frame.of_wrote_free h List.mem_cons_self (calm_enc (by omega)) (encCtrl_free e)

section

variable {m : Fin 32} (hm : s.mayWrite m.val (0x160000 + 0x4000 * e.val) .plain = true) (rest : BitVec 28)

include hm

theorem encRun_written (ha : s.awake (8 + e.val)) : ∃ u, Frame [] [0x160000 + 0x4000 * e.val] s u ∧
    exec (.encRun m e rest) s = .next (u.encOp e 1) := by
  obtain ⟨_, u, _, wrote, run⟩ := write_encRun m e rest hm
  obtain ⟨on, block⟩ := wrote.awake (by omega) ha
  rw [ctrlAction_of_op (op_srxCtrl rest (by decide)), startOp, if_neg block, if_pos on, blockOp_enc, ite_self] at run
  exact ⟨u, frame_encCtrl wrote, run⟩

theorem encStop_written : ∃ u, Frame [] [0x160000 + 0x4000 * e.val] s u ∧ exec (.encStop m e rest) s = .next (u.encOp e 2) := by
  obtain ⟨_, u, _, wrote, run⟩ := write_encStop m e rest hm
  rw [ctrlAction_of_op (op_srxCtrl rest (by decide)), isStart_encStop, if_neg Bool.false_ne_true, blockOp_enc] at run
  exact ⟨u, frame_encCtrl wrote, run⟩

end

theorem encState_setState (v : Nat) : (s.setFld (Reg.ENC_STATUS_STATE e) v).encState e = v % 4 :=
  State.fld_setFld_same _ _ _ (show 30 ≤ 31 by decide) (show 31 < 32 by decide)

section

variable (hA : A = 0x160000 + 0x4000 * e.val)

include hA

theorem frame_setEncState {v : Nat} (h : Frame [] [0x160000 + 0x4000 * e.val] s u) :
    Frame [] [A, A + 4] s (u.setFld (Reg.ENC_STATUS_STATE e) v) :=
  (h.mono (by simp) (by simp [hA])).trans (Frame.setFld _ _ (by simp only [Reg.ENC_STATUS_STATE, hA, List.mem_cons]; omega))

variable {m : Fin 32} (rest : BitVec 28) (hm : s.mayWrite m.val A .plain = true)

include hm

/-- The part of O37 on RUN (R260). -/
theorem encRun_effect (ha : s.awake (8 + e.val)) : Completes (.encRun m e rest) s fun t =>
    t.encState e = (if s.encState e = 0 then 1 else s.encState e) ∧ Frame [] [A, A + 4] s t := by
  obtain ⟨u, frame, run⟩ := encRun_written (hA ▸ hm) rest ha
  have state : u.encState e = s.encState e :=
    State.fld_of_word (frame.2.1 _ (calm_enc (by simp only [Reg.ENC_STATUS_STATE]; omega)) (by simp [Reg.ENC_STATUS_STATE]))
  refine ⟨_, run, ?_⟩
  rw [encOp_run, state]
  split
  · exact ⟨encState_setState 1, frame_setEncState hA frame⟩
  · exact ⟨state, frame.mono (by simp) (by simp [hA])⟩

/-- The part of O37 on STOP: every picture the engine has a part in is abandoned (R44, R256, R260). -/
theorem encStop_effect : Completes (.encStop m e rest) s fun t =>
    t.encState e = 0 ∧ t.encInvolved e = [] ∧
    ∀ p ∈ s.encInvolved e, t.encPic p.leader p.slot = none ∧ (t.encStream p.leader p.slot).forced = true := by
  obtain ⟨u, frame, run⟩ := encStop_written (hA ▸ hm) rest
  have pics : u.encPics = s.encPics := frame.1 .encPics (by decide)
  have involved : u.encInvolved e = s.encInvolved e := by rw [encInvolved, pics, encInvolved]
  refine ⟨_, run, ?_⟩
  rw [encOp_stop, involved]
  refine ⟨encState_setState 0, ?_, fun p hp => ⟨encPic_none.mpr fun y hy same => ?_, ?_⟩⟩
  · refine List.filter_eq_nil_iff.mpr fun y hy part => ?_
    obtain ⟨old, gone⟩ := (mem_encAbandonPics e.val _ u).mp hy
    exact gone y (List.mem_filter.mpr ⟨pics ▸ old, part⟩) ⟨rfl, rfl⟩
  · exact ((mem_encAbandonPics e.val _ u).mp hy).2 p hp same
  · exact forced_encAbandonPics e.val _ u (.inr ⟨p, hp, rfl, rfl⟩)

theorem encStop_idle (h : s.encInvolved e = []) : Completes (.encStop m e rest) s fun t => Frame [] [A, A + 4] s t := by
  obtain ⟨u, frame, run⟩ := encStop_written (hA ▸ hm) rest
  have pics : u.encPics = s.encPics := frame.1 .encPics (by decide)
  refine ⟨_, run, ?_⟩
  rw [encOp_stop, encInvolved, pics, ← encInvolved, h]
  exact frame_setEncState hA frame

end

end Sys2Proof.Machine
end

section
/-! PROOFS. O37, one picture of the engines changes, and ENC_RESUME (R244). -/

namespace Sys2Proof.Machine

open State

variable {s t u : State} {p x y : EncPic} {e : Nat}

/-! ### A picture in hand changes -/

theorem mem_setEncPic_self (hp : p ∈ s.encPics) (hl : p.leader = x.leader) (hs : p.slot = x.slot) : x ∈ (s.setEncPic x).encPics :=
  List.mem_map.mpr ⟨p, hp, if_pos ⟨hl, hs⟩⟩

theorem mem_setEncPic_other (hy : y ∈ s.encPics) (h : ¬(y.leader = x.leader ∧ y.slot = x.slot)) : y ∈ (s.setEncPic x).encPics :=
  List.mem_map.mpr ⟨y, hy, if_neg h⟩

/-- Which pictures are in hand after one has changed. -/
theorem of_mem_setEncPic (h : y ∈ (s.setEncPic x).encPics) : y = x ∨ y ∈ s.encPics ∧ ¬(y.leader = x.leader ∧ y.slot = x.slot) := by
  obtain ⟨z, hz, rfl⟩ := List.mem_map.mp h
  split
  · exact .inl rfl
  · next apart => exact .inr ⟨hz, apart⟩

/-- The tiles of a picture of which engine `e`'s changes. -/
theorem mem_setTile {f : EncTile → EncTile} {n : EncTile} :
    n ∈ (setTile p e f).tiles ↔ ∃ z ∈ p.tiles, (if z.engine = e then f z else z) = n := List.mem_map

/-- The state of engine `e`'s tile of picture `p` becomes `st`. -/
theorem setTile_st {st : TileSt} (h : ∃ z ∈ p.tiles, z.engine = e) :
    ∃ n ∈ (setTile p e fun t => { t with st := st }).tiles, n.engine = e ∧ n.st = st := by
  obtain ⟨z, hz, he⟩ := h
  exact ⟨{ z with st := st }, mem_setTile.mpr ⟨z, hz, if_pos he⟩, he, rfl⟩

/-- An engine that codes nothing codes the picture of which its tile is set to be coded. -/
theorem encActive_setEncPic (h : s.encActive e = none) (hp : p ∈ s.encPics) (hl : p.leader = x.leader) (hs : p.slot = x.slot)
    (hx : ∃ n ∈ x.tiles, n.engine = e ∧ n.st = .coding) : (s.setEncPic x).encActive e = some x := by
  cases active : (s.setEncPic x).encActive e with
  | none =>
    obtain ⟨n, hn, coding⟩ := hx
    exact absurd coding (encActive_none.mp active x (mem_setEncPic_self hp hl hs) n hn)
  | some y =>
    obtain ⟨hy, n, hn, coding⟩ := encActive_some active
    rcases of_mem_setEncPic hy with rfl | ⟨old, -⟩
    · rfl
    · exact absurd coding (encActive_none.mp h y old n hn)

theorem frame_setEncPic {ps : List Part} {as : List Nat} (hp : Part.encPics ∈ ps) : Frame ps as s (s.setEncPic x) :=
  frame_part (Only.of_keeps (n := 16777216) (keeps_setEncPic x Keeps.refl rfl) (by decide)) hp rfl rfl

end Sys2Proof.Machine

namespace Sys2Proof.Machine

open State

variable {s : State} {e : Fin 4} {p : EncPic}

/-! ### ENC_RESUME -/

theorem exec_encResume (e : Fin 4) (s : State) : exec (.encResume e) s = .next (s.encResume e) := rfl

/-- The suspended picture of highest priority. -/
def highestSuspended (s : State) (e : Nat) : Option EncPic :=
  (s.encSuspended e).find? fun p => (s.encSuspended e).all fun q => decide (s.picPrio q ≤ s.picPrio p)

theorem encResume_rests (h : s.encState e ≠ 1 ∨ s.encSuspended e = []) : exec (.encResume e) s = .next s := by
  refine (exec_encResume e s).trans (congrArg _ ?_)
  unfold State.encResume
  rcases h with h | h
  · rw [if_pos h]
  · simp only [h, List.find?_nil, ite_self]

theorem encResume_eq (h1 : s.encState e = 1) (hh : highestSuspended s e = some p) :
    s.encResume e = if (s.encBest e (s.encOwn e) (s.picPrio p + 1)).isSome then s
      else (s.setEncPic (setTile p e fun t => { t with st := .coding })).encShow e := by
  unfold highestSuspended at hh
  unfold State.encResume
  dsimp only
  rw [if_neg (not_not.mpr h1), hh]
  dsimp only
  cases s.encBest e (s.encOwn e) (s.picPrio p + 1) <;> rfl

theorem highestSuspended_eq (hp : p ∈ s.encSuspended e) (hy : ∀ y ∈ s.encSuspended e, y ≠ p → s.picPrio y < s.picPrio p) :
    highestSuspended s e = some p := by
  unfold highestSuspended
  have top : ((s.encSuspended e).all fun q => decide (s.picPrio q ≤ s.picPrio p)) = true := List.all_eq_true.mpr fun q hq => by
    by_cases same : q = p
    · exact decide_eq_true (same ▸ le_rfl)
    · exact decide_eq_true (hy q hq same).le
  cases found : (s.encSuspended e).find? fun p => (s.encSuspended e).all fun q => decide (s.picPrio q ≤ s.picPrio p) with
  | none => exact absurd top (List.find?_eq_none.mp found p hp)
  | some q =>
    have all := List.find?_some found
    have above : s.picPrio p ≤ s.picPrio q := of_decide_eq_true (List.all_eq_true.mp all p hp)
    by_contra other
    exact absurd (hy q (List.mem_of_find?_eq_some found) fun same => other (same ▸ rfl)) (by omega)

/-- The part of O37 on ENC_RESUME (R244). -/
theorem encResume_effect {A : Nat} (hA : A = 0x160000 + 0x4000 * e.val) (h1 : s.encState e = 1) (hn : s.encActive e = none)
    (hp : p ∈ s.encSuspended e) (hy : ∀ y ∈ s.encSuspended e, y ≠ p → s.picPrio y < s.picPrio p) :
    (∀ x, s.encBest e (s.encOwn e) (s.picPrio p + 1) = some x → exec (.encResume e) s = .next s) ∧
    (s.encBest e (s.encOwn e) (s.picPrio p + 1) = none → Completes (.encResume e) s fun t =>
      t.encActive e = some (State.setTile p e fun u => { u with st := .coding }) ∧ t.encState e = 2 ∧
      t.fld (Reg.ENC_STATUS_ACTIVE e) = p.slot % 4 ∧ Frame [.encPics] [A + 4] s t) := by
  have step := encResume_eq h1 (highestSuspended_eq hp hy)
  refine ⟨fun x hx => ?_, fun hx => ⟨_, exec_encResume e s, ?_⟩⟩
  · rw [hx, if_pos Option.isSome_some] at step
    exact (exec_encResume e s).trans (congrArg _ step)
  rw [hx, if_neg (by simp)] at step
  obtain ⟨inHand, z, hz, he, -⟩ := mem_encSuspended.mp hp
  have active : (s.setEncPic (setTile p e fun t => { t with st := .coding })).encActive e =
      some (setTile p e fun t => { t with st := .coding }) :=
    encActive_setEncPic hn inHand rfl rfl (setTile_st ⟨z, hz, he⟩)
  obtain ⟨cap, shown⟩ := encShow_active active
  rw [step]
  refine ⟨(encActive_congr encPics_encShow e).trans active, ?_, ?_, (frame_setEncPic (by decide)).trans (frame_encShow ?_)⟩
  · rw [shown, encState_statusShown]
  · rw [shown, active_statusShown]
    rfl
  · rw [List.mem_singleton]
    omega

end Sys2Proof.Machine
end

section
/-! PROOFS. O37, how an engine begins a picture: the refusals in their order, and the picture it takes in hand (R243, R247, R250 to R252, R259). -/

namespace Sys2Proof.Machine

open State

variable {s t u : State} {e i : Nat} {q bq : QEnt} {bqs : List QEnt} {ps : List Part} {as : List Nat}

/-! ### Event bits -/

/-- Event bits of engine `e` that are set stay set. -/
def EventsStay (e : Nat) (s t : State) : Prop := ∀ k, bit (s.word (encA e)).toNat k = true → bit (t.word (encA e)).toNat k = true

namespace EventsStay

theorem of_word (h : t.word (encA e) = s.word (encA e)) : EventsStay e s t := fun k hk => by rwa [h]

theorem refl : EventsStay e s s := of_word rfl

theorem trans (h : EventsStay e s t) (h' : EventsStay e t u) : EventsStay e s u := fun k hk => h' k (h k hk)

theorem of_stands (h : EncStands s t) (he : e < 4) : EventsStay e s t :=
  of_word (h _ (by unfold encA; omega) (by unfold encA; omega))

theorem setFld {f : Fld} (v : Nat) (h : encA e ≠ f.addr) : EventsStay e s (s.setFld f v) := of_word (State.word_setFld _ _ _ _ h)

theorem setBitsOf (m : Nat) : EventsStay e s (s.setBitsOf (encA e) m) := fun k hk => by
  rw [bit] at hk ⊢
  rw [State.word_setBitsOf, if_pos rfl, BitVec.toNat_or, Nat.testBit_or, hk, Bool.true_or]

end EventsStay

/-- An event bit that occurs is set. -/
theorem bit_setBitsOf {a m k : Nat} (hk : k < 32) (hm : m.testBit k = true) : bit ((s.setBitsOf a m).word a).toNat k = true := by
  rw [bit, State.word_setBitsOf, if_pos rfl, BitVec.toNat_or, Nat.testBit_or, BitVec.toNat_ofNat, Nat.testBit_mod_two_pow, hm,
    decide_eq_true hk]
  simp

theorem quiet_encA : ∀ e : Fin 4, quiet (encA e) = false := by decide +kernel

theorem encStands_unitEvent (n m : Nat) : EncStands s (s.unitEvent n m) := EncStands.of_calm (calm_unitEvent _ _)

theorem bit_encRaise {m k : Nat} (he : e < 4) (hk : k < 32) (hm : m.testBit k = true) :
    bit ((s.encRaise e m).word (encA e)).toNat k = true :=
  EventsStay.of_stands (s := s.setBitsOf (encA e) m) (encStands_unitEvent _ _) he k (bit_setBitsOf hk hm)

theorem eventsStay_encRaise (he : e < 4) (m : Nat) : EventsStay e s (s.encRaise e m) :=
  (EventsStay.setBitsOf m).trans (EventsStay.of_stands (encStands_unitEvent _ _) he)

theorem frame_encRaise {e : Fin 4} (m : Nat) (ha : encA e ∈ as) : Frame ps as s (s.encRaise e m) :=
  Frame.raise _ _ _ _ _ ha (quiet_encA e) (by unfold encA; omega)

/-! ### A frame that is not coded (R250, R259) -/

theorem encPics_encNotCoded (flags ev : Nat) : (s.encNotCoded e i q flags ev).encPics = s.encPics :=
  (keeps_encNotCoded (L := 412552) e i q flags ev Keeps.refl rfl).same .encPics rfl

theorem eventsStay_encNotCoded (he : e < 4) (flags ev : Nat) : EventsStay e s (s.encNotCoded e i q flags ev) := by
  unfold State.encNotCoded
  dsimp only
  refine EventsStay.trans ?_ (eventsStay_encRaise he ev)
  have given : EncStands s (if q.held then s.release (8 + e) q.h else s) := EncStands.when fun _ => EncStands.release (by omega) _
  refine (EventsStay.of_stands given he).trans ?_
  generalize (if q.held then s.release (8 + e) q.h else s) = v
  have counted : EventsStay e v (v.count (Reg.ENC_SLOT_CNT_SKIPPED e i)) :=
    EventsStay.of_word (State.word_count _ _ (by simp only [encA, Reg.ENC_SLOT_CNT_SKIPPED]; omega))
  exact counted.trans (EventsStay.of_stands (EncStands.of_calm (calm_post _ _ _ _)) he)

theorem bit_encNotCoded {flags ev k : Nat} (he : e < 4) (hk : k < 32) (hm : ev.testBit k = true) :
    bit ((s.encNotCoded e i q flags ev).word (encA e)).toNat k = true := by
  unfold State.encNotCoded
  exact bit_encRaise he hk hm

/-- The frame counted in SKIPPED and its BERTH_REL posted; its event is still to come. -/
def skipCounted (s : State) (e i h flags : Nat) : State :=
  (s.count (Reg.ENC_SLOT_CNT_SKIPPED e i)).berthRel (8 + e) h (s.berth h).man.frame ((s.berth h).man.flags ||| flags)

/-- A frame whose berth the engine has no reference to. -/
theorem encNotCoded_free (hh : q.held = false) (flags ev : Nat) :
    s.encNotCoded e i q flags ev = (skipCounted s e i q.h flags).encRaise e ev := by
  unfold State.encNotCoded
  rw [hh]
  rfl

theorem quiet_skipped : ∀ e i : Fin 4, quiet (Reg.ENC_SLOT_CNT_SKIPPED e i).addr = false := by decide +kernel

theorem frame_encNotCoded {e i : Fin 4} {flags ev : Nat} (hh : q.held = false) (ha : encA e ∈ as)
    (hc : 0x16014C + 0x4000 * e.val + 0x100 * i.val ∈ as) : Frame ps as s (s.encNotCoded e i q flags ev) := by
  rw [encNotCoded_free hh]
  exact ((Frame.count (Reg.ENC_SLOT_CNT_SKIPPED e i) 1 hc (quiet_skipped e i) (by simp only [Reg.ENC_SLOT_CNT_SKIPPED]; omega)).trans
    (Frame.post _ _ _ _)).trans (frame_encRaise ev ha)

theorem skipped_encNotCoded {flags ev : Nat} (hh : q.held = false) :
    (s.encNotCoded e i q flags ev).fld (Reg.ENC_SLOT_CNT_SKIPPED e i) = min (s.fld (Reg.ENC_SLOT_CNT_SKIPPED e i) + 1) 65535 := by
  have calm' : calm (Reg.ENC_SLOT_CNT_SKIPPED e i).addr = true := calm_enc (by simp only [Reg.ENC_SLOT_CNT_SKIPPED]; omega)
  rw [encNotCoded_free hh, encRaise, State.fld_raise _ _ _ _ _ calm' (by simp only [encA, Reg.ENC_SLOT_CNT_SKIPPED]; omega), skipCounted,
    berthRel, State.fld_post _ _ _ _ calm']
  exact State.fld_count_same 1 (show 0 ≤ 15 by decide) (show 15 < 32 by decide)

/-! ### What the start of a picture shows first (R250) -/

/-- The bits a picture of a slot needs at least (R250). -/
def minCap (s : State) (e i : Nat) : Nat :=
  4096 + ((List.range (gangMembers e (s.encGang e i)).length).map fun k =>
    192 * ((tileCols (gangMembers e (s.encGang e i)).length (s.encCols e i) k).length * s.encRows e i) + 64).sum

/-- The bank of epoch `ep` is in use and MINCAP shows what a picture of slot `i` needs. -/
def minCapShown (s : State) (e i ep : Nat) : State :=
  (s.touchBank (8 + e) ep).setFld (Reg.ENC_SLOT_MINCAP_BITS e i) (minCap s e i)

/-- The settings epoch that an entry's berth names. -/
def entryEpoch (s : State) (q : QEnt) : Nat := (s.berth q.h).man.setEpoch

/-- MINCAP is shown and the cause of a refusal drawn. -/
def beginShown (s : State) (e i : Nat) (q : QEnt) : State := (minCapShown s e i (entryEpoch s q)).nextFree

/-- The cause of a refusal that is known without the bitstream berth (R250). -/
def beginCause (s : State) (e i : Nat) (q : QEnt) : Nat :=
  (minCapShown s e i (entryEpoch s q)).encCause e i (entryEpoch s q) (s.berth q.h)

/-- The bitstream berth is too small for the segments that the slot's cap allows. -/
def bsSmall (s : State) (e i : Nat) (q bq : QEnt) : Bool :=
  decide ((s.berth bq.h).pages * 4096 < segOffset ((beginShown s e i q).encFld e (entryEpoch s q) (Reg.ENC_SLOT_CAP_BITS e i))
    (gangMembers e (s.encGang e i)).length (s.encCols e i) (gangMembers e (s.encGang e i)).length)

/-- The cap of a picture, cut to its bitstream berth (R250). -/
def pictureCap (s : State) (e i : Nat) (q bq : QEnt) : Nat :=
  if bsSmall s e i q bq then 8 * ((s.berth bq.h).pages * 4096 - 4096 - 64 * (gangMembers e (s.encGang e i)).length)
  else (beginShown s e i q).encFld e (entryEpoch s q) (Reg.ENC_SLOT_CAP_BITS e i)

theorem encBegin_refused (h : beginCause s e i q ≠ 0) : s.encBegin e i q =
    (((beginShown s e i q).setFld (Reg.ENC_SLOT_PIC_CAUSE e i) (beginCause s e i q)).encNotCoded e i q 0 32, false) := by
  unfold State.encBegin
  exact if_pos h

theorem encBegin_noBerth (h : beginCause s e i q = 0) (hq : (beginShown s e i q).queue (encQ e i 1) = []) :
    s.encBegin e i q = ((beginShown s e i q).encNotCoded e i q flagOvr 8, false) := by
  unfold State.encBegin
  refine (if_neg (not_not.mpr h)).trans ?_
  show (match (beginShown s e i q).queue (encQ e i 1) with | [] => _ | _ :: _ => _) = _
  rw [hq]
  rfl

theorem encBegin_capless (h : beginCause s e i q = 0) (hq : (beginShown s e i q).queue (encQ e i 1) = bq :: bqs)
    (hc : pictureCap s e i q bq < minCap s e i) : s.encBegin e i q =
      (((if bsSmall s e i q bq then (beginShown s e i q).setBitsOf (encA e) 64 else beginShown s e i q).setFld
        (Reg.ENC_SLOT_PIC_CAUSE e i) 4).encNotCoded e i q 0 (32 + 64 * b01 (bsSmall s e i q bq)), false) := by
  unfold State.encBegin
  refine (if_neg (not_not.mpr h)).trans ?_
  show (match (beginShown s e i q).queue (encQ e i 1) with | [] => _ | _ :: _ => _) = _
  rw [hq]
  exact if_pos hc

/-! ### The picture an engine takes in hand (R243, R247, R249) -/

theorem frame_setEncStream {l : Nat} (x : EncStream) (hp : Part.encStreams ∈ ps) : Frame ps as s (s.setEncStream l i x) :=
  frame_part (Only.of_keeps (n := 33554432) (keeps_setEncStream l i x Keeps.refl rfl) (by decide)) hp rfl rfl

theorem frame_acquire (w h : Nat) (hp : Part.fab ∈ ps) (he : 0x60000 ∈ as) (hf : 0x60128 ∈ as) (hn : 0x6012C ∈ as) :
    Frame ps as s (s.acquire w h).1 := by
  unfold State.acquire
  dsimp only
  split
  · exact frame_berthFault he hf hn
  split
  · exact frame_berthFault he hf hn
  · exact frame_fab hp

theorem frame_acquireFor (hp : Part.fab ∈ ps) (he : 0x60000 ∈ as) (hf : 0x60128 ∈ as) (hn : 0x6012C ∈ as) :
    (l : List (Nat × Nat)) → (s : State) → Frame ps as s (State.acquireFor l s).1
  | [], _ => Frame.refl
  | (m, h) :: l, s => by
    rw [State.acquireFor]
    split
    · exact frame_acquireFor hp he hf hn l s
    · exact (frame_acquire (8 + m) h hp he hf hn).trans (frame_acquireFor hp he hf hn l _)

theorem frame_encWork (hp : Part.fab ∈ ps) (n ep : Nat) : (l : List Nat) → (s : State) → Frame ps as s (encWork n ep l s)
  | [], _ => Frame.refl
  | m :: l, s => by
    rw [encWork]
    exact Frame.trans (t := s.beginWork (8 + m) n (n + 2) ep) (frame_fab hp) (frame_encWork hp n ep l _)

/-- The work of a gang's members for a picture of tide `n`. -/
theorem mem_encWork {n ep : Nat} {x : Work} : (l : List Nat) → (s : State) →
    (x ∈ s.fab.work ∨ ∃ m ∈ l, x = ⟨8 + m, n, n + 2, false, ep⟩) → x ∈ (encWork n ep l s).fab.work
  | [], _, h => h.resolve_right (by simp)
  | m :: l, s, h => by
    rw [encWork]
    refine mem_encWork l _ ?_
    rcases h with h | ⟨k, hk, rfl⟩
    · exact .inl (List.mem_append_left _ h)
    · rcases List.mem_cons.mp hk with rfl | hk
      · exact .inl (List.mem_append_right _ List.mem_cons_self)
      · exact .inr ⟨k, hk, rfl⟩

/-- The words in which the start of a picture of slot `i` of engine `e` shows. -/
def startWords (e i : Nat) : List Nat :=
  [encA e, 0x160150 + 0x4000 * e + 0x100 * i, 0x160154 + 0x4000 * e + 0x100 * i, 0x60000, 0x60128, 0x6012C]

/-- XLEVEL shows the limits that the stream exceeds, and the events `ev` of the start occur. -/
def levelShown (s : State) (e i exceeds ev : Nat) : State :=
  (((s.setFld (Reg.ENC_SLOT_XLEVEL_SIZE e i) (exceeds % 2)).setFld (Reg.ENC_SLOT_XLEVEL_DIM e i) (exceeds / 2 % 2)).setFld
    (Reg.ENC_SLOT_XLEVEL_RATE e i) (exceeds / 4)).setBitsOf (encA e) ev

theorem frame_levelShown {e : Fin 4} {exceeds ev : Nat} : Frame ps (startWords e i) s (levelShown s e i exceeds ev) := by
  have level : 0x160154 + 0x4000 * e.val + 0x100 * i ∈ startWords e i := by simp [startWords]
  refine Frame.trans ?_ (frame_setBitsOf ev (by simp [startWords]) (quiet_encA e) (by unfold encA; omega))
  exact ((Frame.setFld (Reg.ENC_SLOT_XLEVEL_SIZE e i) _ level).trans (Frame.setFld (Reg.ENC_SLOT_XLEVEL_DIM e i) _ level)).trans
    (Frame.setFld (Reg.ENC_SLOT_XLEVEL_RATE e i) _ level)

theorem eventsStay_levelShown {exceeds ev : Nat} : EventsStay e s (levelShown s e i exceeds ev) := by
  have apart : encA e ≠ 0x160154 + 0x4000 * e + 0x100 * i := by unfold encA; omega
  refine EventsStay.trans ?_ (EventsStay.setBitsOf ev)
  exact ((EventsStay.setFld (f := Reg.ENC_SLOT_XLEVEL_SIZE e i) _ apart).trans (EventsStay.setFld (f := Reg.ENC_SLOT_XLEVEL_DIM e i) _ apart)).trans
    (EventsStay.setFld (f := Reg.ENC_SLOT_XLEVEL_RATE e i) _ apart)

theorem minCap_levelShown {exceeds ev : Nat} :
    (levelShown s e i exceeds ev).fld (Reg.ENC_SLOT_MINCAP_BITS e i) = s.fld (Reg.ENC_SLOT_MINCAP_BITS e i) := by
  have apart : (Reg.ENC_SLOT_MINCAP_BITS e i).addr ≠ 0x160154 + 0x4000 * e + 0x100 * i := by simp only [Reg.ENC_SLOT_MINCAP_BITS]; omega
  rw [levelShown, State.fld_setBitsOf _ _ (by simp only [Reg.ENC_SLOT_MINCAP_BITS, encA]; omega),
    State.fld_setFld_addr _ _ _ _ apart, State.fld_setFld_addr _ _ _ _ apart, State.fld_setFld_addr _ _ _ _ apart]

/-- Slot `i` of engine `e` has taken picture `p` in hand: of entry `q` and of bitstream entry `bq`, with `cap` bits. -/
structure PictureTaken (e i : Nat) (q bq : QEnt) (bqs : List QEnt) (cap : Nat) (s : State) (p : EncPic) (t : State) : Prop where
  leader : p.leader = e
  slot : p.slot = i
  input : p.input = q.h
  bs : p.bs = bq.h
  es : s.encFld e (entryEpoch s q) (Reg.ENC_SLOT_STAT_EN e i) ≠ 1 → p.es = none
  cap : p.cap = cap
  man : p.man = (s.berth q.h).man
  epoch : p.epoch = entryEpoch s q
  start : p.startAt = s.now
  tiles : p.tiles = (gangMembers e (s.encGang e i)).map fun m => { engine := m, st := if m = e then .coding else .waiting }
  idr : (s.encStream e i).forced = true → p.idr = true
  pics : t.encPics = s.encPics ++ [p]
  queue : ∀ a, a ≠ encQ e i 2 → t.queue a = if a = encQ e i 1 then bqs else s.queue a
  minCap : t.fld (Reg.ENC_SLOT_MINCAP_BITS e i) = minCap s e i % 2 ^ 32
  work : ∀ m ∈ gangMembers e (s.encGang e i),
    ⟨8 + m, (s.berth q.h).man.tide, (s.berth q.h).man.tide + 2, false, entryEpoch s q⟩ ∈ t.fab.work
  events : EventsStay e s t
  frame : Frame [.fresh, .fab, .sys, .queues, .encPics, .encStreams] (startWords e i) s t

theorem encFld_beginShown (f : Fld) : (beginShown s e i q).encFld e (entryEpoch s q) f = s.encFld e (entryEpoch s q) f :=
  (bankFld_congr (t := beginShown s e i q) (s := s.touchBank (8 + e) (entryEpoch s q)) rfl _ _ f).trans (bankFld_touchBank ..)

theorem frame_beginShown (hf : Part.fresh ∈ ps) (hs : Part.sys ∈ ps) (ha : 0x160150 + 0x4000 * e + 0x100 * i ∈ as) :
    Frame ps as s (beginShown s e i q) :=
  Frame.trans (Frame.trans (t := s.touchBank (8 + e) (entryEpoch s q)) (frame_sys _ hs)
    (Frame.setFld (Reg.ENC_SLOT_MINCAP_BITS e i) (minCap s e i) ha)) (frame_nextFree hf)

theorem minCap_beginShown : (beginShown s e i q).fld (Reg.ENC_SLOT_MINCAP_BITS e i) = minCap s e i % 2 ^ 32 :=
  State.fld_setFld_same _ (Reg.ENC_SLOT_MINCAP_BITS e i) _ (show 0 ≤ 31 by decide) (show 31 < 32 by decide)

theorem eventsStay_beginShown : EventsStay e s (beginShown s e i q) := by
  have apart : encA e ≠ 0x160150 + 0x4000 * e + 0x100 * i := by
    unfold encA
    omega
  have bank : EventsStay e s (s.touchBank (8 + e) (entryEpoch s q)) := EventsStay.of_word rfl
  have shown : EventsStay e (s.touchBank (8 + e) (entryEpoch s q)) (minCapShown s e i (entryEpoch s q)) :=
    EventsStay.setFld (f := Reg.ENC_SLOT_MINCAP_BITS e i) _ apart
  have drawn : EventsStay e (minCapShown s e i (entryEpoch s q)) (beginShown s e i q) := EventsStay.of_word rfl
  exact (bank.trans shown).trans drawn

/-- The picture's ENCSTAT berth, where the slot has one: its queue alone changes. -/
theorem esTaken {v w : State} {es : Option Nat} {ev : Nat} {want : Prop} [Decidable want]
    (h : (if want then match v.popQ (encQ e i 2) with | (s, some x) => (s, some x.h, 0) | (s, none) => (s, none, 8) else (v, none, 0)) =
      (w, es, ev)) : (¬want → es = none) ∧ (w = v ∨ ∃ l, w = v.setQueue (encQ e i 2) l) := by
  by_cases hw : want
  · rw [if_pos hw, popQ] at h
    refine ⟨fun hn => absurd hw hn, ?_⟩
    cases entries : v.queue (encQ e i 2) with
    | nil =>
      rw [entries] at h
      cases h
      exact .inl rfl
    | cons x l =>
      rw [entries] at h
      cases h
      exact .inr ⟨l, rfl⟩
  · rw [if_neg hw] at h
    cases h
    exact ⟨fun _ => rfl, .inl rfl⟩

/-- MINCAP is shown and the entries of a picture but for its input are popped: its bitstream entry is the first of its queue. -/
structure EntriesTaken (e i : Nat) (q : QEnt) (bqs : List QEnt) (s w : State) : Prop where
  streams : w.encStreams = s.encStreams
  pics : w.encPics = s.encPics
  now : w.now = s.now
  fab : w.fab = s.fab
  minCap : w.fld (Reg.ENC_SLOT_MINCAP_BITS e i) = minCap s e i % 2 ^ 32
  queue : ∀ a, a ≠ encQ e i 2 → w.queue a = if a = encQ e i 1 then bqs else s.queue a
  events : EventsStay e s w
  frame : Frame [.fresh, .fab, .sys, .queues, .encPics, .encStreams] (startWords e i) s w

theorem entriesTaken (e i : Nat) (q : QEnt) (bqs : List QEnt) (s : State) :
    EntriesTaken e i q bqs s ((beginShown s e i q).setQueue (encQ e i 1) bqs) where
  streams := rfl
  pics := rfl
  now := rfl
  fab := rfl
  minCap := minCap_beginShown
  queue a _ := SMap.get_set ..
  events := eventsStay_beginShown
  frame := (frame_beginShown (by decide) (by decide) (by simp [startWords])).trans (frame_setQueue _ _ (by decide))

theorem EntriesTaken.setEs {w : State} (h : EntriesTaken e i q bqs s w) (l : List QEnt) :
    EntriesTaken e i q bqs s (w.setQueue (encQ e i 2) l) where
  streams := h.streams
  pics := h.pics
  now := h.now
  fab := h.fab
  minCap := h.minCap
  queue a ha := (queue_setQueue_other _ _ ha).trans (h.queue a ha)
  events := h.events
  frame := h.frame.trans (frame_setQueue _ _ (by decide))

/-- A picture enters the engines. -/
def addEncPic (s : State) (p : EncPic) : State := { s with encPics := s.encPics ++ [p] }

theorem keeps_addEncPic {p : EncPic} : Keeps 16777216 s (addEncPic s p) := keeps_encPics Keeps.refl rfl

theorem frame_addEncPic {p : EncPic} (hp : Part.encPics ∈ ps) : Frame ps as s (addEncPic s p) :=
  frame_part (Only.of_keeps (n := 16777216) keeps_addEncPic (by decide)) hp rfl rfl

theorem keeps_levelShown {exceeds ev : Nat} : Keeps 136 s (levelShown s e i exceeds ev) := by
  unfold levelShown
  exact keeps_setBitsOf _ _ (keeps_setFld _ _ (keeps_setFld _ _ (keeps_setFld _ _ Keeps.refl rfl) rfl) rfl) rfl

/-- The picture is in hand, and the work of the gang's members `ms`. -/
def workTaken (y : State) (tide ep : Nat) (ms : List Nat) (p : EncPic) : State := encWork tide ep ms (addEncPic y p)

section

variable {y : State} {tide ep : Nat} {ms : List Nat} {p : EncPic}

theorem keeps_workTaken : Keeps 16779264 y (workTaken y tide ep ms p) :=
  keeps_encWork _ _ _ (keeps_encPics Keeps.refl rfl) rfl

theorem encPics_workTaken : (workTaken y tide ep ms p).encPics = y.encPics ++ [p] :=
  (keeps_encWork (L := 2048) tide ep ms (Keeps.refl (s := addEncPic y p)) rfl).same .encPics rfl

theorem frame_workTaken (hp : Part.encPics ∈ ps) (hf : Part.fab ∈ ps) : Frame ps as y (workTaken y tide ep ms p) :=
  (frame_addEncPic hp).trans (frame_encWork hf _ _ _ _)

end

/-- What is in hand once the references are taken. -/
structure PictureEntered (e i : Nat) (bqs : List QEnt) (s : State) (p : EncPic) (t : State) : Prop where
  pics : t.encPics = s.encPics ++ [p]
  queue : ∀ a, a ≠ encQ e i 2 → t.queue a = if a = encQ e i 1 then bqs else s.queue a
  minCap : t.fld (Reg.ENC_SLOT_MINCAP_BITS e i) = minCap s e i % 2 ^ 32
  events : EventsStay e s t
  frame : Frame [.fresh, .fab, .sys, .queues, .encPics, .encStreams] (startWords e i) s t

theorem frame_refsTaken (st : EncStream) (refs : List (Nat × Nat)) (w : State) :
    Frame [.fresh, .fab, .sys, .queues, .encPics, .encStreams] (startWords e i) w (acquireFor refs (w.setEncStream e i st)).1 :=
  (frame_setEncStream st (by decide)).trans
    (frame_acquireFor (by decide) (by simp [startWords]) (by simp [startWords]) (by simp [startWords]) refs _)

theorem stands_refsTaken (st : EncStream) (refs : List (Nat × Nat)) (w : State) :
    EncStands w (acquireFor refs (w.setEncStream e i st)).1 :=
  EncStands.trans (t := w.setEncStream e i st) (EncStands.of_regs rfl) (EncStands.acquireFor refs _)

theorem keeps_refsTaken (st : EncStream) (refs : List (Nat × Nat)) (w : State) :
    Keeps 33704840 w (acquireFor refs (w.setEncStream e i st)).1 :=
  keeps_acquireFor refs (keeps_setEncStream e i st Keeps.refl rfl) rfl

/-- The picture enters with its registers once the references are taken. -/
theorem EntriesTaken.entered {e i : Fin 4} {w x : State} (h : EntriesTaken e i q bqs s w) (keeps : Keeps 33704840 w x)
    (stands : EncStands w x) (frame : Frame [.fresh, .fab, .sys, .queues, .encPics, .encStreams] (startWords e i) w x)
    (exceeds ev tide ep : Nat) (ms : List Nat) (p : EncPic) :
    PictureEntered e i bqs s p (workTaken (levelShown x e i exceeds ev) tide ep ms p) where
  pics := encPics_workTaken.trans (congrArg (· ++ [p]) ((keeps_levelShown.same .encPics rfl).trans ((keeps.same .encPics rfl).trans h.pics)))
  queue a ha := (queue_congr ((keeps_workTaken.same .queues rfl).trans ((keeps_levelShown.same .queues rfl).trans (keeps.same .queues rfl))) a).trans (h.queue a ha)
  minCap := by
    rw [State.fld_of_word (word_congr (keeps_workTaken.same .regs rfl) _), minCap_levelShown,
      stands.fld _ (by simp only [Reg.ENC_SLOT_MINCAP_BITS]; omega), h.minCap]
  events := ((h.events.trans (EventsStay.of_stands stands e.isLt)).trans eventsStay_levelShown).trans
    (EventsStay.of_word (word_congr (keeps_workTaken.same .regs rfl) _))
  frame := ((h.frame.trans frame).trans frame_levelShown).trans (frame_workTaken (by decide) (by decide))

/-- The picture is taken where nothing stands against it. -/
theorem encBegin_taken {e i : Fin 4} (h : beginCause s e i q = 0) (hq : (beginShown s e i q).queue (encQ e i 1) = bq :: bqs)
    (hc : ¬pictureCap s e i q bq < minCap s e i) :
    ∃ p t, s.encBegin e i q = (t, true) ∧ PictureTaken e i q bq bqs (pictureCap s e i q bq) s p t := by
  generalize run : s.encBegin e i q = r
  unfold State.encBegin at run
  replace run := (if_neg (not_not.mpr h)).symm.trans run
  change (match (beginShown s e i q).queue (encQ e i 1) with | [] => _ | _ :: _ => _) = r at run
  rw [hq] at run
  replace run := (if_neg hc).symm.trans run
  extract_lets v want at run
  split at run
  next w es evEs he =>
  extract_lets st r0 r1 on idr width slack starts cyc b0 deadline qp w1 ev at run
  split at run
  next rd wr hr =>
  extract_lets refs at run
  split at run
  next x got0 hx =>
  extract_lets got exceeds x1 x2 p at run
  subst run
  have statOff : s.encFld e (entryEpoch s q) (Reg.ENC_SLOT_STAT_EN e i) ≠ 1 → es = none := fun h =>
    (esTaken he).1 fun on => h ((encFld_beginShown (i := i) _).symm.trans on)
  have entries : EntriesTaken e i q bqs s w := by
    rcases (esTaken he).2 with rfl | ⟨l, rfl⟩
    · exact entriesTaken e i q bqs s
    · exact (entriesTaken e i q bqs s).setEs l
  have acquired : x = (acquireFor refs w1).1 := by rw [hx]
  have entered := entries.entered (x := x) (acquired ▸ keeps_refsTaken _ refs w) (acquired ▸ stands_refsTaken _ refs w)
    (acquired ▸ frame_refsTaken _ refs w) exceeds ev (s.berth q.h).man.tide (entryEpoch s q) (gangMembers e (s.encGang e i)) p
  have forced : (s.encStream e i).forced = true → idr = true := fun forced => by
    have : st.forced = true := (congrArg EncStream.forced (encStream_congr entries.streams e i)).trans forced
    exact (congrArg (on || ·) this).trans (Bool.or_true on)
  have now : x.now = s.now := ((acquired ▸ keeps_refsTaken _ refs w : Keeps 33704840 w x).same .now rfl).trans entries.now
  have shown : x2 = levelShown x e i exceeds ev := rfl
  have start : p.startAt = s.now :=
    (show p.startAt = x2.now from rfl).trans ((congrArg State.now shown).trans ((keeps_levelShown.same .now rfl).trans now))
  have capEq : p.cap = pictureCap s e i q bq := by
    unfold pictureCap bsSmall
    show (if _ then _ else _) = (if _ then _ else _)
    congr 1
  change ∃ p' t,
    (workTaken (levelShown x e i exceeds ev) (s.berth q.h).man.tide (entryEpoch s q) (gangMembers e (s.encGang e i)) p, true) = (t, true) ∧
    PictureTaken e i q bq bqs (pictureCap s e i q bq) s p' t
  exact ⟨p, _, rfl, {
    leader := rfl
    slot := rfl
    input := rfl
    bs := rfl
    es := statOff
    cap := capEq
    man := rfl
    epoch := rfl
    start := start
    tiles := rfl
    idr := forced
    pics := entered.pics
    queue := entered.queue
    minCap := entered.minCap
    work := fun m hm => mem_encWork _ _ (.inr ⟨m, hm, rfl⟩)
    events := entered.events
    frame := entered.frame }⟩

end Sys2Proof.Machine
end

section
/-! PROOFS. O37, ENC_PICTURE_START: late entries are dropped, and what goes first is started (R243). -/

namespace Sys2Proof.Machine

open State

variable {s t u : State} {e i k : Nat} {q : QEnt} {qs keep : List QEnt} {ps : List Part} {as : List Nat}

/-! ### Entries that are not late stay -/

/-- Other lists for the queues. -/
def withQueues (s : State) (m : SMap (List QEnt)) : State := { s with queues := m }

theorem frame_withQueues {m : SMap (List QEnt)} (hp : Part.queues ∈ ps) : Frame ps as s (withQueues s m) :=
  frame_part (Only.of_keeps (n := 262144) (keeps_queues Keeps.refl rfl) (by decide)) hp rfl rfl

theorem queue_setQueue_eq (h : s.queue i = qs) (a : Nat) : (s.setQueue i qs).queue a = s.queue a := by
  by_cases same : a = i
  · rw [same, queue_setQueue_same, h]
  · exact queue_setQueue_other _ _ same

theorem dropLate_kept (e i k : Nat) : (l keep : List QEnt) → (s : State) → (∀ x ∈ l, k ≤ (s.berth x.h).man.tide + 2) →
    dropLate e i k l keep s = s.setQueue (encQ e i 0) (keep ++ l)
  | [], keep, s, _ => by rw [dropLate, List.append_nil]
  | x :: l, keep, s, h => by
    rw [dropLate, if_neg (Nat.not_lt.mpr (h x List.mem_cons_self)), dropLate_kept e i k l _ s fun y hy => h y (List.mem_cons_of_mem _ hy),
      List.append_assoc, List.singleton_append]

/-- Where no entry of the slots is late, every queue stays. -/
theorem dropLates_kept (e k : Nat) : (l : List Nat) → (s : State) →
    (∀ j ∈ l, ∀ x ∈ s.queue (encQ e j 0), k ≤ (s.berth x.h).man.tide + 2) →
    ∃ m, dropLates e k l s = withQueues s m ∧ ∀ a, (withQueues s m).queue a = s.queue a
  | [], s, _ => ⟨s.queues, rfl, fun _ => rfl⟩
  | j :: l, s, h => by
    have kept : ∀ a, (s.setQueue (encQ e j 0) (s.queue (encQ e j 0))).queue a = s.queue a := queue_setQueue_eq rfl
    obtain ⟨m, run, same⟩ := dropLates_kept e k l (s.setQueue (encQ e j 0) (s.queue (encQ e j 0))) fun n hn x hx =>
      h n (List.mem_cons_of_mem _ hn) x (kept _ ▸ hx)
    refine ⟨m, ?_, fun a => (same a).trans (kept a)⟩
    rw [dropLates, dropLate_kept e j k _ _ s (h j List.mem_cons_self), List.nil_append, run]
    rfl

theorem dropLates_append (e k : Nat) : (l l' : List Nat) → (v : State) → dropLates e k (l ++ l') v = dropLates e k l' (dropLates e k l v)
  | [], _, _ => rfl
  | _ :: l, l', _ => dropLates_append e k l l' _

/-- The four slots, with slot `i` picked out. -/
theorem slots_split : ∀ i : Fin 4, ∃ l l', [0, 1, 2, 3] = l ++ i.val :: l' ∧ (∀ j ∈ l, j < 4 ∧ j ≠ i.val) ∧ ∀ j ∈ l', j < 4 ∧ j ≠ i.val
  | 0 => ⟨[], [1, 2, 3], by decide⟩
  | 1 => ⟨[0], [2, 3], by decide⟩
  | 2 => ⟨[0, 1], [3], by decide⟩
  | 3 => ⟨[0, 1, 2], [], by decide⟩

/-! ### What goes first depends on the queues' entries alone -/

theorem encDue_withQueues (m : SMap (List QEnt)) (k : Nat) : (l : List QEnt) → (withQueues s m).encDue k l = s.encDue k l
  | [] => rfl
  | x :: l => by
    have same : (withQueues s m).berth x.h = s.berth x.h := rfl
    rw [encDue, encDue, encDue_withQueues m k l, same]

theorem encCands_withQueues {m : SMap (List QEnt)} (h : ∀ a, (withQueues s m).queue a = s.queue a) (e k : Nat) :
    (withQueues s m).encCands e k = s.encCands e k := by
  unfold encCands
  refine congrArg₂ (· ++ ·) (List.filterMap_congr fun i _ => ?_) rfl
  rw [encDue_withQueues, h]
  rfl

theorem encBest_withQueues {m : SMap (List QEnt)} (h : ∀ a, (withQueues s m).queue a = s.queue a) (e k lo : Nat) :
    (withQueues s m).encBest e k lo = s.encBest e k lo := by
  unfold encBest
  rw [encCands_withQueues h]

/-- An engine without a picture and without an entry has nothing to start. -/
theorem encBest_idle (hp : s.encPics = []) (hq : ∀ j, j < 4 → s.queue (encQ e j 0) = []) (lo : Nat) : s.encBest e k lo = none := by
  have none_ : s.encCands e k = [] := by
    unfold encCands
    rw [hp]
    refine (List.append_nil _).trans (List.filterMap_eq_nil_iff.mpr fun j hj => ?_)
    rw [hq j (List.mem_range.mp hj)]
    exact ite_self none
  rw [encBest, none_, List.foldl_nil]

/-! ### The loop -/

theorem encStartLoop_rests {lo : Nat} (h : s.encBest e k lo = none) : (fuel : Nat) → encStartLoop e k lo fuel s = s
  | 0 => rfl
  | fuel + 1 => by rw [encStartLoop, h]

/-- The engine's own entry goes first. -/
theorem encStartLoop_own {prio tide lo : Nat} (hb : s.encBest e k lo = some ⟨prio, tide, i, none⟩)
    (hd : s.encDue k (s.queue (encQ e i 0)) = some (q, qs)) (fuel : Nat) : encStartLoop e k lo (fuel + 1) s =
      if ((s.setQueue (encQ e i 0) qs).encBegin e i q).2 = true then ((s.setQueue (encQ e i 0) qs).encBegin e i q).1
      else encStartLoop e k lo fuel ((s.setQueue (encQ e i 0) qs).encBegin e i q).1 := by
  rw [encStartLoop, hb]
  dsimp only
  rw [hd]

theorem exec_encPictureStart (e : Fin 4) (s : State) : exec (.encPictureStart e) s = .next (s.encStart e) := rfl

theorem encStart_stopped (h : s.encState e = 0) : s.encStart e = s := if_pos h

theorem encStart_waiting (h : s.encState e = 1) (ht : dropLates e (s.encOwn e) [0, 1, 2, 3] s = t) (h' : t.encState e = 1) :
    s.encStart e = (encStartLoop e (s.encOwn e) (t.encFloor e) 64 t).encShow e := by
  unfold encStart
  rw [if_neg (by omega)]
  dsimp only
  rw [ht, if_neg (not_not.mpr h')]

end Sys2Proof.Machine

namespace Sys2Proof.Machine

open State

variable {s t u : State} {e i : Fin 4} {q : QEnt} {qs : List QEnt} {A S : Nat}

/-! ### A frame that is not coded -/

/-- An idle engine that coded nothing shows that it waits. -/
theorem encState_shown_waiting {e : Nat} (hp : s.encPics = []) (h : s.encState e = 1) : (s.encShow e).encState e = 1 := by
  rw [encShow_idle (encActive_none.mpr (by simp [hp])), h, encState_statusShown]
  rfl

theorem encState_of_frame {ps : List Part} {as : List Nat} {e : Nat} (h : Frame ps as s t) (ha : 0x160004 + 0x4000 * e ∉ as) :
    t.encState e = s.encState e :=
  State.fld_of_word (h.2.1 _ (calm_enc (by simp only [Reg.ENC_STATUS_STATE]; omega)) ha)

theorem queues_encNotCoded {e i flags ev : Nat} (hh : q.held = false) : (s.encNotCoded e i q flags ev).queues = s.queues := by
  rw [encNotCoded_free hh]
  exact (keeps_raise (L := 17288) _ _ _ _ _ (keeps_berthRel _ _ _ _ (keeps_count _ _ Keeps.refl rfl) rfl) rfl).same .queues rfl

/-- Nothing is in hand: the engine's one frame was not coded, and event `ev` says why. -/
structure FrameSkipped (ps : List Part) (as : List Nat) (e i : Fin 4) (ev : Nat) (s t : State) : Prop where
  pics : t.encPics = []
  state : t.encState e = 1
  skipped : t.fld (Reg.ENC_SLOT_CNT_SKIPPED e i) = min (s.fld (Reg.ENC_SLOT_CNT_SKIPPED e i) + 1) 65535
  event : bit (t.word (encA e)).toNat ev = true
  frame : Frame ps as s t

theorem FrameSkipped.withQueues {ps : List Part} {as : List Nat} {ev : Nat} {m : SMap (List QEnt)} (h : FrameSkipped ps as e i ev s t)
    (hp : Part.queues ∈ ps) : FrameSkipped ps as e i ev s (withQueues t m) where
  pics := h.pics
  state := h.state
  skipped := h.skipped
  event := h.event
  frame := h.frame.trans (frame_withQueues hp)

/-- With nothing left to start the engine shows that it waits. -/
theorem FrameSkipped.shown {ps : List Part} {as : List Nat} {ev k lo : Nat} (h : FrameSkipped ps as e i ev s t)
    (hq : ∀ j, j < 4 → t.queue (encQ e j 0) = []) (ha : 0x160004 + 0x4000 * e.val ∈ as) (fuel : Nat) : FrameSkipped ps as e i ev s ((encStartLoop e k lo fuel t).encShow e) ∧
      ∀ a, ((encStartLoop e k lo fuel t).encShow e).queue a = t.queue a := by
  rw [encStartLoop_rests (encBest_idle h.pics hq lo)]
  have skipped : (t.encShow e).fld (Reg.ENC_SLOT_CNT_SKIPPED e i) = t.fld (Reg.ENC_SLOT_CNT_SKIPPED e i) :=
    State.fld_of_word (word_encShow_other (by simp only [Reg.ENC_SLOT_CNT_SKIPPED]; omega) (by simp only [Reg.ENC_SLOT_CNT_SKIPPED]; omega))
  have event : (t.encShow e).word (encA e) = t.word (encA e) := word_encShow_other (by unfold encA; omega) (by unfold encA; omega)
  refine ⟨?_, fun a => queue_congr ((keeps_encShow (L := 8) e Keeps.refl rfl).same .queues rfl) a⟩
  exact {
    pics := encPics_encShow.trans h.pics
    state := encState_shown_waiting h.pics h.state
    skipped := skipped.trans h.skipped
    event := event ▸ h.event
    frame := h.frame.trans (frame_encShow ha) }

/-- What a frame that is not coded leaves, where no picture is in hand. -/
theorem frameSkipped {ps : List Part} {as : List Nat} {flags ev k : Nat} (hp : t.encPics = []) (h1 : t.encState e = 1) (hh : q.held = false) (hk : k < 32) (hm : ev.testBit k = true)
    (same : t.fld (Reg.ENC_SLOT_CNT_SKIPPED e i) = s.fld (Reg.ENC_SLOT_CNT_SKIPPED e i)) (hf : Frame ps as s t) (ha : encA e ∈ as)
    (hc : 0x16014C + 0x4000 * e.val + 0x100 * i.val ∈ as) : FrameSkipped ps as e i k s (t.encNotCoded e i q flags ev) where
  pics := (encPics_encNotCoded _ _).trans hp
  state := by
    have beside : Frame [] [encA e, 0x16014C + 0x4000 * e.val + 0x100 * i.val] t (t.encNotCoded e i q flags ev) :=
      frame_encNotCoded hh (by simp) (by simp)
    exact (encState_of_frame beside (by simp only [encA, List.mem_cons, List.not_mem_nil, or_false]; omega)).trans h1
  skipped := by rw [skipped_encNotCoded hh, same]
  event := bit_encNotCoded e.isLt hk hm
  frame := hf.trans (frame_encNotCoded hh ha hc)

/-- The words in which a frame that is not coded shows. -/
def skipWords (e i : Nat) : List Nat := [0x160004 + 0x4000 * e, encA e, 0x16014C + 0x4000 * e + 0x100 * i]

/-- The late frame is dropped and the queues are empty. -/
theorem dropLates_late {k : Nat} (hp : s.encPics = []) (h1 : s.encState e = 1) (hq : s.queue (encQ e i 0) = [q])
    (ho : ∀ j, j < 4 → j ≠ i.val → s.queue (encQ e j 0) = []) (hh : q.held = false) (late : (s.berth q.h).man.tide + 2 < k) :
    FrameSkipped [.queues] (skipWords e i) e i 4 s
      (dropLates e k [0, 1, 2, 3] s) ∧ ∀ j, j < 4 → (dropLates e k [0, 1, 2, 3] s).queue (encQ e j 0) = [] := by
  obtain ⟨l, l', slots, hl, hl'⟩ := slots_split i
  have onTime : ∀ (v : State) (j : Nat), v.queue (encQ e j 0) = [] → ∀ x ∈ v.queue (encQ e j 0), k ≤ (v.berth x.h).man.tide + 2 :=
    fun v j h x hx => absurd hx (by simp [h])
  obtain ⟨m, first, same⟩ := dropLates_kept e k l s fun j hj => onTime s j (ho j (hl j hj).1 (hl j hj).2)
  have entry : (withQueues s m).queue (encQ e i 0) = [q] := (same _).trans hq
  have late' : ((withQueues s m).berth q.h).man.tide + 2 < k := late
  have dropped : FrameSkipped [.queues] (skipWords e i) e i 4 s
      ((withQueues s m).encNotCoded e i q flagOvr 16) :=
    frameSkipped hp h1 hh (by decide) (by decide) rfl (frame_withQueues (by decide)) (by simp [skipWords]) (by simp [skipWords])
  have rest : ∀ a, ((withQueues s m).encNotCoded e i q flagOvr 16).queue a = s.queue a := fun a =>
    (queue_congr (queues_encNotCoded hh) a).trans (same a)
  generalize hv : (withQueues s m).encNotCoded e i q flagOvr 16 = v at dropped rest
  have emptied : ∀ j, j < 4 → (v.setQueue (encQ e i 0) []).queue (encQ e j 0) = [] := fun j hj => by
    by_cases own : j = i.val
    · rw [own, queue_setQueue_same]
    · rw [queue_setQueue_other _ _ (by unfold encQ; omega), rest, ho j hj own]
  obtain ⟨m', last, same'⟩ := dropLates_kept e k l' (v.setQueue (encQ e i 0) []) fun j hj => onTime _ j (emptied j (hl' j hj).1)
  have run : dropLates e k [0, 1, 2, 3] s = withQueues v m' := by
    rw [slots, dropLates_append, first, dropLates, entry, dropLate, if_pos late', dropLate, hv, last]
    rfl
  rw [run]
  exact ⟨dropped.withQueues (by decide), fun j hj => (same' _).trans (emptied j hj)⟩

/-- The part of O37 on a frame that is older than its tide allows (R243, R259). -/
theorem encPictureStart_late (hA : A = 0x160000 + 0x4000 * e.val) (hS : S = A + 0x100 + 0x100 * i.val) (h1 : s.encState e = 1)
    (hp : s.encPics = []) (hq : s.queue (encQ e i 0) = [q]) (ho : ∀ j, j < 4 → j ≠ i.val → s.queue (encQ e j 0) = [])
    (hh : q.held = false) (late : (s.berth q.h).man.tide + 2 < s.encOwn e) : Completes (.encPictureStart e) s fun t =>
      t.encPics = [] ∧ t.queue (encQ e i 0) = [] ∧ t.encState e = 1 ∧
      t.fld (Reg.ENC_SLOT_CNT_SKIPPED e i) = min (s.fld (Reg.ENC_SLOT_CNT_SKIPPED e i) + 1) 65535 ∧
      bit (t.word (A + 0x10)).toNat 4 = true ∧ Frame [.queues] [A + 4, A + 0x10, S + 0x4C] s t := by
  obtain ⟨dropped, empty⟩ := dropLates_late hp h1 hq ho hh late
  have run := encStart_waiting h1 rfl dropped.state
  obtain ⟨shown, same⟩ := dropped.shown (k := s.encOwn e) (lo := (dropLates e (s.encOwn e) [0, 1, 2, 3] s).encFloor e) empty (by simp [skipWords]) 64
  refine ⟨_, exec_encPictureStart e s, ?_⟩
  rw [run]
  have word : encA e = A + 0x10 := by
    unfold encA
    omega
  have words : skipWords e i = [A + 4, A + 0x10, S + 0x4C] := by
    rw [skipWords, word, show 0x160004 + 0x4000 * e.val = A + 4 by omega, show 0x16014C + 0x4000 * e.val + 0x100 * i.val = S + 0x4C by omega]
  exact ⟨shown.pics, (same _).trans (empty i i.isLt), shown.state, shown.skipped, word ▸ shown.event, words ▸ shown.frame⟩

end Sys2Proof.Machine
end

section
/-! PROOFS. O37, ENC_PICTURE_START: the picture that an idle engine starts (R243, R245, R247, R250). -/

namespace Sys2Proof.Machine

open State

variable {s t : State} {e i : Fin 4} {q bq : QEnt} {qs bqs : List QEnt} {b : Berth} {k c rows cap : Nat}

/-! ### A slot without a gang -/

theorem gangMembers_zero (e : Nat) : gangMembers e 0 = [e] := rfl

theorem length_tileCols_one (c : Nat) : (tileCols 1 c 0).length = c := by
  unfold tileCols
  rw [List.length_drop, List.length_range]
  omega

theorem minCap_alone (h : s.encGang e i = 0) : minCap s e i = 4096 + 192 * (s.encCols e i * s.encRows e i) + 64 := by
  unfold minCap
  rw [h, gangMembers_zero]
  simp only [List.length_singleton, List.range_one, List.map_singleton, List.sum_singleton, length_tileCols_one]
  omega

theorem segOffset_one (hc : 0 < c) : segOffset cap 1 c 1 = 4096 + ceilDiv cap 512 * 64 := by
  unfold segOffset encShare
  simp only [List.range_one, List.map_singleton, List.sum_singleton, length_tileCols_one, if_neg hc.ne', Nat.mul_div_cancel cap hc]

theorem encCols_pos (e i : Nat) : 0 < s.encCols e i := by
  unfold encCols encW8 pad8 ceilDiv
  omega

theorem pictureCap_alone (h : s.encGang e i = 0) (hc : cap = s.encFld e (entryEpoch s q) (Reg.ENC_SLOT_CAP_BITS e i))
    (hs : 4096 + ceilDiv cap 512 * 64 ≤ (s.berth bq.h).pages * 4096) : pictureCap s e i q bq = cap := by
  have room : bsSmall s e i q bq = false := by
    unfold bsSmall
    rw [h, gangMembers_zero, encFld_beginShown, ← hc, List.length_singleton, segOffset_one (encCols_pos _ _)]
    exact decide_eq_false (Nat.not_lt.mpr hs)
  unfold pictureCap
  rw [room, if_neg Bool.false_ne_true, encFld_beginShown, hc]

/-- Settings of a slot beside MINCAP. -/
theorem fld_minCapShown {n : Nat} {f : Fld} (h : f.addr ≠ 0x160150 + 0x4000 * e.val + 0x100 * i.val) :
    (minCapShown s e i n).fld f = s.fld f :=
  (State.fld_setFld_addr _ (Reg.ENC_SLOT_MINCAP_BITS e i) _ _ h).trans (State.fld_congr rfl f)

theorem encGang_minCapShown {n : Nat} : (minCapShown s e i n).encGang e i = s.encGang e i := by
  unfold encGang
  rw [fld_minCapShown (by simp only [Reg.ENC_SLOT_CFG_GANG]; omega)]

/-- An input of the slot's own form is not refused (R250). -/
theorem beginCause_zero (hb : b = s.berth q.h) (hg : s.encGang e i = 0) (hk : bits b.format 15 12 = s.fld (Reg.ENC_SLOT_CFG_KIND e i))
    (hf : bits b.format 11 0 = s.fld (Reg.ENC_SLOT_CFG_FMT e i)) (hl : encLayoutOk (s.fld (Reg.ENC_SLOT_CFG_FMT e i)) = true)
    (hs : b.size = some (s.fld (Reg.ENC_SLOT_SIZE_W_M1 e i) + 1, s.fld (Reg.ENC_SLOT_SIZE_H_M1 e i) + 1)) :
    beginCause s e i q = 0 := by
  have kind := fld_minCapShown (s := s) (e := e) (i := i) (n := entryEpoch s q) (f := Reg.ENC_SLOT_CFG_KIND e i)
    (by simp only [Reg.ENC_SLOT_CFG_KIND]; omega)
  have fmt := fld_minCapShown (s := s) (e := e) (i := i) (n := entryEpoch s q) (f := Reg.ENC_SLOT_CFG_FMT e i)
    (by simp only [Reg.ENC_SLOT_CFG_FMT]; omega)
  have width := fld_minCapShown (s := s) (e := e) (i := i) (n := entryEpoch s q) (f := Reg.ENC_SLOT_SIZE_W_M1 e i)
    (by simp only [Reg.ENC_SLOT_SIZE_W_M1]; omega)
  have height := fld_minCapShown (s := s) (e := e) (i := i) (n := entryEpoch s q) (f := Reg.ENC_SLOT_SIZE_H_M1 e i)
    (by simp only [Reg.ENC_SLOT_SIZE_H_M1]; omega)
  unfold beginCause encCause
  dsimp only
  rw [kind, fmt, width, height, encGang_minCapShown, hg, ← hb, hk, hf, hl, hs, gangMembers_zero]
  simp [gangMisled]

/-! ### The due entry that goes first -/

/-- Slot `i` of the idle engine `e` has the due entry `q` that goes first, of the slot's own form; no entry is late. -/
structure GoesFirst (s : State) (e i : Fin 4) (q : QEnt) (qs : List QEnt) (b : Berth) (k : Nat) : Prop where
  state : s.encState e = 1
  own : k = s.encOwn e
  onTime : ∀ j x, j < 4 → x ∈ s.queue (encQ e j 0) → k ≤ (s.berth x.h).man.tide + 2
  first : ∃ prio tide, s.encBest e k (s.encFloor e) = some ⟨prio, tide, i, none⟩
  due : s.encDue k (s.queue (encQ e i 0)) = some (q, qs)
  berth : b = s.berth q.h
  gang : s.encGang e i = 0
  kind : bits b.format 15 12 = s.fld (Reg.ENC_SLOT_CFG_KIND e i)
  fmt : bits b.format 11 0 = s.fld (Reg.ENC_SLOT_CFG_FMT e i)
  layout : encLayoutOk (s.fld (Reg.ENC_SLOT_CFG_FMT e i)) = true
  size : b.size = some (s.fld (Reg.ENC_SLOT_SIZE_W_M1 e i) + 1, s.fld (Reg.ENC_SLOT_SIZE_H_M1 e i) + 1)

/-- An idle engine starts the entry that goes first, or goes on without it. -/
theorem GoesFirst.start (h : GoesFirst s e i q qs b k) : ∃ m, (∀ a, a ≠ encQ e i 0 → (withQueues s m).queue a = s.queue a) ∧
    (withQueues s m).queue (encQ e i 0) = qs ∧ beginCause (withQueues s m) e i q = 0 ∧ ∃ lo,
    s.encStart e = (if ((withQueues s m).encBegin e i q).2 = true then ((withQueues s m).encBegin e i q).1
      else encStartLoop e k lo 63 ((withQueues s m).encBegin e i q).1).encShow e := by
  obtain ⟨m, kept, same⟩ := dropLates_kept e k [0, 1, 2, 3] s fun j hj x hx =>
    h.onTime j x (by simp only [List.mem_cons, List.not_mem_nil, or_false] at hj; omega) hx
  obtain ⟨prio, tide, first⟩ := h.first
  refine ⟨(withQueues s m).queues.set (fun _ => []) (encQ e i 0) qs, fun a ha => (queue_setQueue_other _ _ ha).trans (same a),
    queue_setQueue_same _ _ _, ?_, s.encFloor e, ?_⟩
  · exact beginCause_zero (s := withQueues s _) h.berth h.gang h.kind h.fmt h.layout h.size
  · have own := h.own
    subst own
    rw [encStart_waiting (t := withQueues s m) h.state kept h.state]
    refine congrArg (State.encShow · e) ?_
    exact encStartLoop_own (qs := qs) ((encBest_withQueues same _ _ _).trans first) (by rw [encDue_withQueues, same, h.due]) 63

/-- A picture that enters is the one an engine codes that coded none. -/
theorem encActive_entered {e : Nat} {p : EncPic} (h : s.encActive e = none) (ht : t.encPics = s.encPics ++ [p])
    (hp : ∃ x ∈ p.tiles, x.engine = e ∧ x.st = .coding) : t.encActive e = some p := by
  unfold encActive at h ⊢
  rw [ht, List.find?_append, h, Option.none_or, List.find?_singleton, if_pos]
  simpa only [List.any_eq_true, Bool.and_eq_true, decide_eq_true_eq] using hp

/-- The part of O37 on the picture that is started (R243, R245, R247, R250). -/
theorem encPictureStart_starts {A S : Nat} (h : GoesFirst s e i q qs b k) (hA : A = 0x160000 + 0x4000 * e.val)
    (hS : S = A + 0x100 + 0x100 * i.val) (idle : s.encActive e = none) (hc : c = s.encCols e i) (hr : rows = s.encRows e i)
    (hbs : s.queue (encQ e i 1) = bq :: bqs) (hcap : cap = s.encFld e b.man.setEpoch (Reg.ENC_SLOT_CAP_BITS e i))
    (hmin : 4096 + 192 * (c * rows) + 64 ≤ cap) (hsize : 4096 + ceilDiv cap 512 * 64 ≤ (s.berth bq.h).pages * 4096)
    (hes : s.encFld e b.man.setEpoch (Reg.ENC_SLOT_STAT_EN e i) ≠ 1) : Completes (.encPictureStart e) s fun t =>
      (∃ p, t.encPics = s.encPics ++ [p] ∧ p.leader = e.val ∧ p.slot = i.val ∧ p.input = q.h ∧ p.bs = bq.h ∧ p.es = none ∧
        p.cap = cap ∧ p.man = b.man ∧ p.epoch = b.man.setEpoch ∧ p.startAt = s.now ∧ p.tiles = [{ engine := e.val, st := .coding }] ∧
        ((s.encStream e i).forced = true → p.idr = true)) ∧
      t.encState e = 2 ∧ t.fld (Reg.ENC_STATUS_ACTIVE e) = i.val ∧ t.queue (encQ e i 0) = qs ∧ t.queue (encQ e i 1) = bqs ∧
      t.fld (Reg.ENC_SLOT_MINCAP_BITS e i) = (4096 + 192 * (c * rows) + 64) % 2 ^ 32 ∧
      ⟨8 + e.val, b.man.tide, b.man.tide + 2, false, b.man.setEpoch⟩ ∈ t.fab.work ∧
      Frame [.fresh, .fab, .sys, .queues, .encPics, .encStreams] [A + 4, A + 0x10, S + 0x50, S + 0x54, 0x60000, 0x60128, 0x6012C] s t := by
  obtain ⟨m, others, own, cause, lo, run⟩ := h.start
  obtain rfl := h.berth
  have gang : (withQueues s m).encGang e i = 0 := h.gang
  have bs : (beginShown (withQueues s m) e i q).queue (encQ e i 1) = bq :: bqs := (others _ (by unfold encQ; omega)).trans hbs
  have capped : pictureCap (withQueues s m) e i q bq = cap := pictureCap_alone (s := withQueues s m) gang hcap hsize
  have need : minCap (withQueues s m) e i = 4096 + 192 * (c * rows) + 64 := hc ▸ hr ▸ minCap_alone (s := withQueues s m) gang
  obtain ⟨p, t, begun, taken⟩ := encBegin_taken cause bs (by rw [capped, need]; omega)
  rw [begun, if_pos rfl] at run
  have tiles : p.tiles = [{ engine := e.val, st := .coding }] := by
    rw [taken.tiles, gang, gangMembers_zero, List.map_singleton, if_pos rfl]
  have active : t.encActive e = some p := encActive_entered (s := s) idle taken.pics ⟨_, by rw [tiles]; exact List.mem_cons_self, rfl, rfl⟩
  obtain ⟨shownCap, shown⟩ := encShow_active active
  have keeps : Keeps 8 t (t.encShow e) := keeps_encShow e Keeps.refl rfl
  refine ⟨_, exec_encPictureStart e s, ?_⟩
  rw [run]
  refine ⟨⟨p, (keeps.same .encPics rfl).trans taken.pics, taken.leader, taken.slot, taken.input, taken.bs, taken.es hes, taken.cap.trans capped,
    taken.man, taken.epoch, taken.start, tiles, taken.idr⟩, ?_, ?_, ?_, ?_, ?_, ?_, ?_⟩
  · rw [shown, encState_statusShown]
  · rw [shown, active_statusShown, taken.slot, Nat.mod_eq_of_lt i.isLt]
  · rw [queue_congr (keeps.same .queues rfl), taken.queue _ (by unfold encQ; omega), if_neg (by unfold encQ; omega), own]
  · rw [queue_congr (keeps.same .queues rfl), taken.queue _ (by unfold encQ; omega), if_pos rfl]
  · rw [← need, ← taken.minCap]
    exact State.fld_of_word (word_encShow_other (by simp only [Reg.ENC_SLOT_MINCAP_BITS]; omega) (by simp only [Reg.ENC_SLOT_MINCAP_BITS]; omega))
  · have same : (t.encShow e).fab = t.fab := keeps.same .fab rfl
    rw [same]
    exact taken.work e (by rw [gang, gangMembers_zero]; exact List.mem_cons_self)
  · have words : startWords e i ⊆ [A + 4, A + 0x10, S + 0x50, S + 0x54, 0x60000, 0x60128, 0x6012C] := by
      intro a ha
      simp only [startWords, encA, List.mem_cons, List.not_mem_nil, or_false] at ha ⊢
      omega
    exact ((frame_withQueues (by decide)).trans (taken.frame.mono (fun _ hp => hp) words)).trans
      (frame_encShow (List.mem_cons.mpr (.inl (by omega))))

theorem encDue_single (h : s.encDue k [q] = some (q, qs)) : qs = [] := by
  rw [encDue] at h
  split at h
  · exact (congrArg Prod.snd (Option.some.inj h)).symm
  · exact absurd h nofun

/-- The part of O37 on a frame without a bitstream entry (R250, R259). -/
theorem encPictureStart_noBerth {A S : Nat} (h : GoesFirst s e i q qs b k) (hA : A = 0x160000 + 0x4000 * e.val)
    (hS : S = A + 0x100 + 0x100 * i.val) (hq : s.queue (encQ e i 0) = [q]) (ho : ∀ j, j < 4 → j ≠ i.val → s.queue (encQ e j 0) = [])
    (hp : s.encPics = []) (hh : q.held = false) (hbs : s.queue (encQ e i 1) = []) : Completes (.encPictureStart e) s fun t =>
      t.encPics = [] ∧ t.queue (encQ e i 0) = [] ∧ t.encState e = 1 ∧
      t.fld (Reg.ENC_SLOT_CNT_SKIPPED e i) = min (s.fld (Reg.ENC_SLOT_CNT_SKIPPED e i) + 1) 65535 ∧
      bit (t.word (A + 0x10)).toNat 3 = true ∧
      Frame [.fresh, .sys, .queues] [A + 4, A + 0x10, S + 0x4C, S + 0x50] s t := by
  obtain ⟨m, others, own, cause, lo, run⟩ := h.start
  have bs : (beginShown (withQueues s m) e i q).queue (encQ e i 1) = [] := (others _ (by unfold encQ; omega)).trans hbs
  have last : qs = [] := encDue_single (s := s) (hq ▸ h.due)
  rw [encBegin_noBerth cause bs, if_neg Bool.false_ne_true] at run
  have words : [A + 4, A + 0x10, S + 0x4C, S + 0x50] = [0x160004 + 0x4000 * e.val, encA e, 0x16014C + 0x4000 * e.val + 0x100 * i.val,
      0x160150 + 0x4000 * e.val + 0x100 * i.val] := by
    unfold encA
    simp only [List.cons.injEq, and_true]
    omega
  have begun : Frame [.fresh, .sys, .queues] [0x160004 + 0x4000 * e.val, encA e, 0x16014C + 0x4000 * e.val + 0x100 * i.val,
      0x160150 + 0x4000 * e.val + 0x100 * i.val] s (beginShown (withQueues s m) e i q) :=
    (frame_withQueues (by decide)).trans (frame_beginShown (by decide) (by decide) (by simp))
  have shownMin : Frame [.fresh, .sys] [0x160150 + 0x4000 * e.val + 0x100 * i.val] (withQueues s m) (beginShown (withQueues s m) e i q) :=
    frame_beginShown (by decide) (by decide) (by simp)
  have state : (beginShown (withQueues s m) e i q).encState e = 1 :=
    (encState_of_frame shownMin (by simp only [List.mem_singleton]; omega)).trans h.state
  have count : (beginShown (withQueues s m) e i q).fld (Reg.ENC_SLOT_CNT_SKIPPED e i) = s.fld (Reg.ENC_SLOT_CNT_SKIPPED e i) :=
    fld_minCapShown (s := withQueues s m) (by simp only [Reg.ENC_SLOT_CNT_SKIPPED]; omega)
  have pics : (beginShown (withQueues s m) e i q).encPics = [] := hp
  have queues : ∀ j, j < 4 → (beginShown (withQueues s m) e i q).queue (encQ e j 0) = [] := fun j hj => by
    by_cases same : j = i.val
    · rw [same]
      exact own.trans last
    · exact (others _ (by unfold encQ; omega)).trans (ho j hj same)
  generalize beginShown (withQueues s m) e i q = v at *
  have skipped := frameSkipped (i := i) (flags := flagOvr) (ev := 8) (k := 3) pics state hh (by decide) (by decide) count begun (by simp) (by simp)
  have empty : ∀ j, j < 4 → (v.encNotCoded e i q flagOvr 8).queue (encQ e j 0) = [] := fun j hj =>
    (queue_congr (queues_encNotCoded hh) _).trans (queues j hj)
  obtain ⟨shown, same⟩ := skipped.shown (k := k) (lo := lo) empty (by simp) 63
  refine ⟨_, exec_encPictureStart e s, ?_⟩
  rw [run, words]
  have word : encA e = A + 0x10 := by
    unfold encA
    omega
  exact ⟨shown.pics, (same _).trans (empty i i.isLt), shown.state, shown.skipped, word ▸ shown.event, shown.frame⟩

end Sys2Proof.Machine
end

section
/-! PROOFS. O37, ENC_PREEMPT: what an engine may start, and the picture that it suspends for it (R244). -/

namespace Sys2Proof.Machine

open State

variable {s t : State} {k lo : Nat} {c : EncCand}

/-! ### What an engine may start -/

/-- The one of `b` and `c` that goes first, of priority `lo` or higher. -/
def earlierOf (lo : Nat) (b : Option EncCand) (c : EncCand) : Option EncCand :=
  if c.prio < lo then b else match b with
    | none => some c
    | some d => if c.before d then some c else b

theorem earlierOf_eq {b : Option EncCand} {a : EncCand} (h : earlierOf lo b a = some c) : c = a ∨ b = some c := by
  unfold earlierOf at h
  split at h
  · exact .inr h
  cases b with
  | none => exact .inl (Option.some.inj h).symm
  | some d =>
    dsimp only at h
    split at h
    · exact .inl (Option.some.inj h).symm
    · exact .inr h

theorem mem_of_foldl_earlierOf : (l : List EncCand) → (b : Option EncCand) → l.foldl (earlierOf lo) b = some c → c ∈ l ∨ b = some c
  | [], _, h => .inr h
  | a :: l, b, h => by
    rcases mem_of_foldl_earlierOf l _ h with later | here
    · exact .inl (List.mem_cons_of_mem _ later)
    · exact (earlierOf_eq here).imp_left fun (same : c = a) => same ▸ List.mem_cons_self

/-- What goes first is one of the candidates. -/
theorem mem_encCands_of_encBest {e : Nat} (h : s.encBest e k lo = some c) : c ∈ s.encCands e k :=
  (mem_of_foldl_earlierOf (lo := lo) _ none h).resolve_right nofun

/-- A candidate is an entry of one of the four slots or a picture of which the engine's tile waits. -/
theorem of_mem_encCands {e : Nat} (h : c ∈ s.encCands e k) : (c.gang = none ∧ c.slot < 4) ∨
    ∃ p ∈ s.encPics, c.gang = some p.leader ∧ c.slot = p.slot ∧ ∃ x ∈ p.tiles, x.engine = e ∧ x.st = .waiting := by
  unfold encCands at h
  rcases List.mem_append.mp h with own | gang
  · obtain ⟨i, hi, some_⟩ := List.mem_filterMap.mp own
    split at some_
    · exact absurd some_ nofun
    split at some_
    · dsimp only at some_
      split at some_
      · exact .inl (Option.some.inj some_ ▸ ⟨rfl, List.mem_range.mp hi⟩)
      · exact absurd some_ nofun
    · exact absurd some_ nofun
  · obtain ⟨p, hp, some_⟩ := List.mem_filterMap.mp gang
    split at some_
    · next waits =>
      simp only [Bool.and_eq_true, List.any_eq_true, decide_eq_true_eq] at waits
      exact .inr (Option.some.inj some_ ▸ ⟨p, hp, rfl, rfl, waits.2⟩)
    · exact absurd some_ nofun

/-! ### What a start leaves -/

variable {e i : Fin 4} {q : QEnt}

/-- Event bits stay set, and the pictures in hand stay. -/
def Started (e : Nat) (s : State) (r : State × Bool) : Prop :=
  EventsStay e s r.1 ∧ if r.2 = true then ∃ p, r.1.encPics = s.encPics ++ [p] else r.1.encPics = s.encPics

theorem started_notCoded {flags ev : Nat} (h : EventsStay e s t) (hp : t.encPics = s.encPics) :
    Started e s (t.encNotCoded e i q flags ev, false) :=
  ⟨h.trans (eventsStay_encNotCoded e.isLt _ _), (encPics_encNotCoded _ _).trans hp⟩

theorem encA_ne_picCause : encA e ≠ (Reg.ENC_SLOT_PIC_CAUSE e i).addr := by
  simp only [encA, Reg.ENC_SLOT_PIC_CAUSE]
  omega

theorem started_encBegin (s : State) (e i : Fin 4) (q : QEnt) : Started e s (s.encBegin e i q) := by
  have shown : EventsStay e s (beginShown s e i q) := eventsStay_beginShown
  by_cases cause : beginCause s e i q = 0
  swap
  · rw [encBegin_refused cause]
    exact started_notCoded (shown.trans (EventsStay.setFld _ encA_ne_picCause)) rfl
  cases hq : (beginShown s e i q).queue (encQ e i 1) with
  | nil =>
    rw [encBegin_noBerth cause hq]
    exact started_notCoded shown rfl
  | cons bq bqs =>
    by_cases cap : pictureCap s e i q bq < minCap s e i
    · rw [encBegin_capless cause hq cap]
      refine started_notCoded (EventsStay.trans ?_ (EventsStay.setFld _ encA_ne_picCause)) ?_
      · split
        · exact shown.trans (EventsStay.setBitsOf _)
        · exact shown
      · refine ((keeps_setFld (L := 8) _ _ Keeps.refl rfl).same .encPics rfl).trans ?_
        split
        · exact (keeps_setBitsOf (L := 136) _ _ Keeps.refl rfl).same .encPics rfl
        · rfl
    · obtain ⟨p, t, run, taken⟩ := encBegin_taken cause hq cap
      rw [run]
      exact ⟨taken.events, p, taken.pics⟩

/-- A picture stays in hand, and event bits set, while an engine starts what goes first, when the engine's tile of it does not wait. -/
theorem encStartLoop_keeps {y : EncPic} (e : Fin 4) (k lo : Nat) : (fuel : Nat) → (s : State) → y ∈ s.encPics →
    (∀ p ∈ s.encPics, p.leader = y.leader → p.slot = y.slot → ∀ x ∈ p.tiles, ¬(x.engine = e.val ∧ x.st = .waiting)) →
    y ∈ (encStartLoop e k lo fuel s).encPics ∧ EventsStay e s (encStartLoop e k lo fuel s)
  | 0, s, hy, _ => ⟨hy, EventsStay.refl⟩
  | fuel + 1, s, hy, hw => by
    rw [encStartLoop]
    cases best : s.encBest e k lo with
    | none => exact ⟨hy, EventsStay.refl⟩
    | some c =>
      rcases of_mem_encCands (mem_encCands_of_encBest best) with ⟨own, slot⟩ | ⟨p, hp, gang, slot, x, hx, waits⟩
      · dsimp only
        rw [own]
        dsimp only
        cases due : s.encDue k (s.queue (encQ e c.slot 0)) with
        | none => exact ⟨hy, EventsStay.refl⟩
        | some r =>
          obtain ⟨q, qs⟩ := r
          have popped : EventsStay e s (s.setQueue (encQ e c.slot 0) qs) := EventsStay.of_word rfl
          obtain ⟨events, pics⟩ := started_encBegin (s.setQueue (encQ e c.slot 0) qs) e ⟨c.slot, slot⟩ q
          dsimp only at events pics ⊢
          generalize (s.setQueue (encQ e c.slot 0) qs).encBegin e c.slot q = r at events pics ⊢
          split at pics
          · next started =>
            obtain ⟨p, pics⟩ := pics
            rw [if_pos started, pics]
            exact ⟨List.mem_append_left _ hy, popped.trans events⟩
          · next started =>
            rw [if_neg started]
            have same : r.1.encPics = s.encPics := pics
            obtain ⟨stays, events'⟩ := encStartLoop_keeps e k lo fuel r.1 (same ▸ hy) (same ▸ hw)
            exact ⟨stays, (popped.trans events).trans events'⟩
      · dsimp only
        rw [gang]
        dsimp only
        cases found : s.encPic p.leader c.slot with
        | none => exact ⟨hy, EventsStay.refl⟩
        | some z =>
          have key := List.find?_some found
          simp only [Bool.and_eq_true, decide_eq_true_eq] at key
          refine ⟨mem_setEncPic_other hy fun same => ?_, EventsStay.of_word rfl⟩
          exact hw p hp (key.1.symm.trans same.1.symm) (slot.symm.trans (key.2.symm.trans same.2.symm)) x hx waits

/-! ### ENC_PREEMPT -/

theorem exec_encPreempt (e : Fin 4) (s : State) : exec (.encPreempt e) s = .next (s.encPreempt e) := rfl

theorem encPreempt_none {e : Nat} (h : s.encActive e = none) : s.encPreempt e = s := by
  unfold State.encPreempt
  rw [h]

theorem encPreempt_rests {e : Nat} {p : EncPic} (h : s.encActive e = some p) (hb : s.encBest e (s.encOwn e) (s.picPrio p + 1) = none) :
    s.encPreempt e = s := by
  unfold State.encPreempt
  rw [h]
  dsimp only
  rw [hb]

/-- The engine's picture is suspended and the event occurs. -/
def preempted (s : State) (e : Nat) (p : EncPic) : State :=
  (s.setEncPic (setTile p e fun t => { t with st := .suspended })).encRaise e 4

theorem encPreempt_starts {e : Nat} {p : EncPic} (h : s.encActive e = some p)
    (hb : s.encBest e (s.encOwn e) (s.picPrio p + 1) = some c) :
    s.encPreempt e = (encStartLoop e (s.encOwn e) (s.picPrio p + 1) 64 (preempted s e p)).encShow e := by
  unfold State.encPreempt
  rw [h]
  dsimp only
  rw [hb]
  rfl

theorem encPics_preempted {e : Nat} {p : EncPic} :
    (preempted s e p).encPics = (s.setEncPic (setTile p e fun t => { t with st := .suspended })).encPics :=
  (keeps_encRaise (L := 17288) e 4 Keeps.refl rfl).same .encPics rfl

/-- No tile of the engine waits in a picture that it suspends. -/
theorem not_waiting_suspended {e : Nat} {p : EncPic} {x : EncTile} (hx : x ∈ (setTile p e fun t => { t with st := .suspended }).tiles) :
    ¬(x.engine = e ∧ x.st = .waiting) := by
  obtain ⟨z, -, rfl⟩ := mem_setTile.mp hx
  split
  · exact fun h => absurd h.2 nofun
  · next other => exact fun h => other h.1

/-- SUSPENDED shows the slot of a suspended picture. -/
theorem bit_suspended_encShow {e : Nat} {y : EncPic} (hy : y ∈ s.encSuspended e) :
    bit ((s.encShow e).fld (Reg.ENC_STATUS_SUSPENDED e)) y.slot = decide (y.slot < 4) := by
  have mask : (suspendedMask s e).testBit y.slot = true := by
    rw [testBit_suspendedMask]
    exact List.any_eq_true.mpr ⟨y, hy, decide_eq_true rfl⟩
  rw [suspended_encShow, bit, show 16 = 2 ^ 4 by rfl, Nat.testBit_mod_two_pow, mask, Bool.and_true]

/-- The part of O37 on ENC_PREEMPT with a picture of higher priority due (R244). -/
theorem encPreempt_effect {A : Nat} {p : EncPic} (hA : A = 0x160000 + 0x4000 * e.val) (h : s.encActive e = some p)
    (hb : s.encBest e (s.encOwn e) (s.picPrio p + 1) = some c) : Completes (.encPreempt e) s fun t =>
      (∃ y ∈ t.encPics, y.leader = p.leader ∧ y.slot = p.slot ∧ y.input = p.input ∧
        ∃ u ∈ y.tiles, u.engine = e.val ∧ u.st = .suspended) ∧ bit (t.word (A + 0x10)).toNat 2 = true ∧
      bit (t.fld (Reg.ENC_STATUS_SUSPENDED e)) p.slot = decide (p.slot < 4) ∧
      Only ([.fresh, .fab, .sys, .queues, .encPics, .encStreams] ++ sideParts) s t := by
  obtain ⟨hp, z, hz, he, -⟩ := encActive_some h
  have only : Only ([.fresh, .fab, .sys, .queues, .encPics, .encStreams] ++ sideParts) s (s.encPreempt e) :=
    Only.of_keeps (frame_execEncPreempt e s _ rfl) (by decide)
  refine ⟨_, exec_encPreempt e s, ?_⟩
  have suspended : ∃ u ∈ (setTile p e fun t => { t with st := .suspended }).tiles, u.engine = e.val ∧ u.st = .suspended :=
    setTile_st ⟨z, hz, he⟩
  have inHand : setTile p e (fun t => { t with st := .suspended }) ∈ (preempted s e p).encPics :=
    encPics_preempted ▸ mem_setEncPic_self hp rfl rfl
  obtain ⟨stays, events⟩ := encStartLoop_keeps e (s.encOwn e) (s.picPrio p + 1) 64 (preempted s e p) inHand fun y hy hl hs x hx => by
    rw [encPics_preempted] at hy
    rcases of_mem_setEncPic hy with rfl | ⟨-, other⟩
    · exact not_waiting_suspended hx
    · exact absurd ⟨hl, hs⟩ other
  rw [encPreempt_starts h hb] at only ⊢
  generalize encStartLoop e (s.encOwn e) (s.picPrio p + 1) 64 (preempted s e p) = t at stays events only
  have event : bit (t.word (encA e)).toNat 2 = true := events 2 (bit_encRaise e.isLt (by decide) (by decide))
  have word : encA e = A + 0x10 := by
    unfold encA
    omega
  have shown : (t.encShow e).word (A + 0x10) = t.word (encA e) := by
    rw [word]
    exact word_encShow_other (by omega) (by omega)
  have listed : setTile p e (fun t => { t with st := .suspended }) ∈ t.encSuspended e := mem_encSuspended.mpr ⟨stays, suspended⟩
  have stays' : setTile p e (fun t => { t with st := .suspended }) ∈ (t.encShow e).encPics := by
    rw [encPics_encShow]
    exact stays
  have slot := bit_suspended_encShow listed
  exact ⟨⟨_, stays', rfl, rfl, rfl, suspended⟩, shown ▸ event, slot, only⟩

end Sys2Proof.Machine
end

section
/-! PROOFS. O37, the end of a tile: its parcels land in the picture's berths alone (R34, R39, R249, R254, R258). -/

namespace Sys2Proof.Machine

open State

variable {s t u : State} {w : Nat} {hs : List Nat}

/-! ### What the coding of a picture writes -/

/-- Byte `x` of DRAM lies in none of the berths `hs`. -/
def Outside (hs : List Nat) (s : State) (x : Nat) : Prop :=
  ∀ h ∈ hs, x < (s.berth h).base * 4096 ∨ ((s.berth h).base + (s.berth h).pages) * 4096 ≤ x

/-- An encoder writes into the berths `hs`: its registers, its pictures and streams, and every other byte of DRAM stand. -/
structure Coding (hs : List Nat) (s t : State) : Prop where
  stands : EncStands s t
  streams : t.encStreams = s.encStreams
  pics : t.encPics = s.encPics
  now : t.now = s.now
  places : ∀ j, (t.berth j).base = (s.berth j).base ∧ (t.berth j).pages = (s.berth j).pages
  bytes : ∀ x, Outside hs s x → t.memByte x = s.memByte x

namespace Coding

theorem refl : Coding hs s s := ⟨EncStands.refl, rfl, rfl, rfl, fun _ => ⟨rfl, rfl⟩, fun _ _ => rfl⟩

theorem outside (h : Coding hs s t) {x : Nat} (hx : Outside hs s x) : Outside hs t x := fun j hj => by
  rw [(h.places j).1, (h.places j).2]
  exact hx j hj

theorem trans (h : Coding hs s t) (h' : Coding hs t u) : Coding hs s u where
  stands := h.stands.trans h'.stands
  streams := h'.streams.trans h.streams
  pics := h'.pics.trans h.pics
  now := h'.now.trans h.now
  places j := ⟨(h'.places j).1.trans (h.places j).1, (h'.places j).2.trans (h.places j).2⟩
  bytes x hx := (h'.bytes x (h.outside hx)).trans (h.bytes x hx)

/-- Free values are drawn. -/
theorem fresh (n : Nat) : Coding hs s { s with fresh := n } := ⟨EncStands.of_regs rfl, rfl, rfl, rfl, fun _ => ⟨rfl, rfl⟩, fun _ _ => rfl⟩

theorem freeBytes (n : Nat) : Coding hs s (s.freeBytes n).1 := fresh _

/-- A write into the berths. -/
theorem stored (hk : Keeps 937864 s t) (stands : EncStands s t)
    (places : ∀ j, (t.berth j).base = (s.berth j).base ∧ (t.berth j).pages = (s.berth j).pages)
    (bytes : ∀ x, Outside hs s x → t.memByte x = s.memByte x) : Coding hs s t :=
  ⟨stands, hk.same .encStreams rfl, hk.same .encPics rfl, hk.same .now rfl, places, bytes⟩

/-- A refused access. -/
theorem refused (w h c : Nat) : Coding hs s (s.berthFault w h c) :=
  stored (keeps_berthFault w h c Keeps.refl rfl) (EncStands.berthFault _ _ _) (fun j => by simp)
    fun x _ => memByte_congr ((keeps_berthFault (L := 148360) w h c Keeps.refl rfl).same .mem rfl) x

end Coding

/-- An access that is not refused lies in its berth. -/
theorem fits_of_accessCause {h ofs len : Nat} (hc : s.accessCause w h ofs len = 0) : ofs + len ≤ (s.berth h).pages * 4096 := by
  unfold accessCause at hc
  split at hc
  · omega
  · split at hc <;> omega

/-- A byte outside the berths is not one that an access of a berth writes. -/
theorem Outside.memWrite {h ofs x : Nat} {bs : List Byte} (hx : Outside hs s x) (hh : h ∈ hs)
    (hc : s.accessCause w h ofs bs.length = 0) : (s.memWrite ((s.berth h).base * 4096 + ofs) bs).memByte x = s.memByte x := by
  have fits := fits_of_accessCause hc
  refine memByte_memWrite_outside _ _ _ ?_
  rcases hx h hh with below | above <;> omega

theorem Coding.writeBerth {h ofs : Nat} {bs : List Byte} (hh : h ∈ hs) : Coding hs s (s.writeBerth w h ofs bs) := by
  refine Coding.stored (keeps_writeBerth _ _ _ _ Keeps.refl rfl) (EncStands.writeBerth _ _ _ _) (fun j => ?_) fun x hx => ?_
  all_goals unfold State.writeBerth; dsimp only; split
  · exact ⟨rfl, rfl⟩
  · simp
  · next hc => exact hx.memWrite hh hc
  · exact (Coding.refused (hs := hs) _ _ _).bytes x hx

/-- No racing layer follows what a unit writes that is neither a pipeline nor a network port (R322). -/
theorem raced_other {first : Bool} {h : Nat} (hw : 8 ≤ w ∧ w < 12) : raced first w h s = s := by
  unfold raced
  rw [decide_eq_false (show ¬(4 ≤ w ∧ w < 8) by omega), decide_eq_false (show ¬(w = 12 ∨ w = 13) by omega)]
  simp

theorem Coding.emit {m : Manifest} {ofs : Nat} {payload : List Byte} (hw : 8 ≤ w ∧ w < 12) (hh : m.handle ∈ hs) :
    Coding hs s (s.emit w m ofs payload) := by
  by_cases hc : s.accessCause w m.handle ofs payload.length = 0
  · refine Coding.stored (keeps_emit _ _ _ _ Keeps.refl rfl) (EncStands.emit _ _ _ _) (fun j => ?_) fun x hx => ?_
    · rw [emit_accepted hc, raced_other hw, berth_congr tapped_fab]
      by_cases same : j = m.handle
      · subst same
        have kept := berth_parcelStored_same (s := s) (u := w) (m := stamped s m) (ofs := ofs) (payload := payload)
        exact ⟨(congrArg Berth.base kept).trans rfl, (congrArg Berth.pages kept).trans rfl⟩
      · rw [berth_parcelStored_other (m := stamped s m) same]
        exact ⟨rfl, rfl⟩
    · rw [memByte_congr (emit_mem hc)]
      exact hx.memWrite hh hc
  · rw [emit_refused hc]
    exact Coding.refused _ _ _

theorem Coding.emitSegment {g k base : Nat} {capBits ovrBits : Option Nat} (hw : 8 ≤ w ∧ w < 12) :
    (fuel n : Nat) → (m : Manifest) → (bs : List Byte) → (s : State) → m.handle ∈ hs →
    Coding hs s (emitSegment w g k base m capBits ovrBits fuel n bs s).1
  | 0, _, _, _, _, _ => Coding.refl
  | fuel + 1, n, m, bs, s, hh => by
    rw [State.emitSegment]
    split
    · exact Coding.refl
    · exact Coding.trans (Coding.emit hw (by exact hh)) (Coding.emitSegment hw fuel (n + 1) _ _ _ hh)

theorem Coding.emitEsRows {g k plane : Nat} {m : Manifest} (hw : 8 ≤ w ∧ w < 12) (hh : m.handle ∈ hs) :
    (n : Nat) → (l : List (Nat × List Byte)) → (s : State) → Coding hs s (emitEsRows w g k plane m n l s).1
  | _, [], _ => Coding.refl
  | n, (ofs, bs) :: l, s => by
    rw [State.emitEsRows]
    exact Coding.trans (Coding.emit hw (by exact hh)) (Coding.emitEsRows hw hh (n + 1) l _)

theorem Coding.emitExport {p : EncPic} {k h flags : Nat} {cols : List Nat} {x : TileRun} (hw : 8 ≤ w ∧ w < 12) (hh : h ∈ hs) :
    Coding hs s (s.emitExport p w k h flags cols x).1 := by
  unfold State.emitExport
  extract_lets w16 hh16 c g m xs s0 vecs s1 f
  split
  next s2 n0 vectors =>
  extract_lets recs
  split
  next s3 n1 records =>
  have first : Coding hs s1 s2 := by
    have := Coding.emitEsRows (g := g) (k := k) (plane := 0) (m := m) hw hh 0 vecs s1
    rwa [vectors] at this
  have second : Coding hs s2 s3 := by
    have := Coding.emitEsRows (g := g) (k := k) (plane := 1) (m := m) hw hh 0 recs s2
    rwa [records] at this
  exact ((Coding.fresh _).trans first).trans second

/-! ### A tile is done -/

/-- Engine `n`'s tile of `p` is done; nothing else of the picture changes. -/
def TileFinished (p : EncPic) (n : Nat) (p' : EncPic) : Prop :=
  ∃ f, p' = setTile p n f ∧ ∀ x : EncTile, (f x).st = .done ∧ (f x).engine = x.engine

theorem encTileDone_coding {p : EncPic} {x : EncTile} (he : x.engine < 4) (hb : p.bs ∈ hs) (hes : ∀ h, p.es = some h → h ∈ hs) :
    ∃ v p', s.encTileDone p x = (v.setEncPic p', p') ∧ Coding hs s v ∧ TileFinished p x.engine p' := by
  unfold State.encTileDone
  extract_lets l i f c rows g k w cols fmt pf refresh st nonvcl s1 run s2 closing len s3 capBits
  split
  next s4 body drawn =>
  extract_lets seg inFlags
  split
  next s5 n segment =>
  extract_lets flags
  split
  next s6 ne statRun =>
  have engine : 8 ≤ w ∧ w < 12 := ⟨Nat.le_add_right _ _, Nat.add_lt_add_left he 8⟩
  have free : Coding hs s s4 := by
    have last : Coding hs s3 s4 := by
      have := Coding.freeBytes (hs := hs) (s := s3) (len - 4)
      rwa [drawn] at this
    exact (((Coding.fresh _).trans (Coding.fresh (s := s1) _)).trans (Coding.fresh (s := s2) _)).trans last
  have coded : Coding hs s4 s5 := by
    have := Coding.emitSegment (g := g) (k := k) (base := segOffset p.cap g c k) (capBits := capBits) (ovrBits := run.ovrAt) engine len 0
      (s4.bsMan p inFlags) seg s4 hb
    rwa [segment] at this
  have statistics : Coding hs s5 s6 := by
    split at statRun
    · next h some_ =>
      have := Coding.emitExport (s := s5) (p := p) (k := k) (flags := flags) (cols := cols) (x := run) engine (hes h some_)
      rwa [statRun] at this
    · cases statRun
      exact Coding.refl
  exact ⟨s6, _, rfl, (free.trans coded).trans statistics, _, rfl, fun _ => ⟨rfl, rfl⟩⟩

end Sys2Proof.Machine
end

section
/-! PROOFS. O37, the end of a picture: its registers, and how it leaves the engines (R247 to R249, R254, R259). -/

namespace Sys2Proof.Machine

open State

variable {s t : State} {l i e : Nat} {p : EncPic} {hs : List Nat}

/-! ### The registers of a picture that ended -/

/-- PIC and BITS of slot `i` of engine `l`. -/
def pictureShown (s : State) (l i : Nat) (cap defer idr : Bool) (qp b bytes : Nat) : State :=
  let s := s.setWord (Reg.ENC_SLOT_PIC_CAP l i).addr 0
  let s := (s.setFld (Reg.ENC_SLOT_PIC_CAP l i) (b01 cap)).setFld (Reg.ENC_SLOT_PIC_DEFER l i) (b01 defer)
  let s := (s.setFld (Reg.ENC_SLOT_PIC_IDR l i) (b01 idr)).setFld (Reg.ENC_SLOT_PIC_QP l i) qp
  (s.setFld (Reg.ENC_SLOT_PIC_B l i) b).setFld (Reg.ENC_SLOT_BITS_BYTES l i) bytes

/-- The counter of pictures in cap mode, CYCLES and the event of cap mode. -/
def costShown (s : State) (l i : Nat) (cap : Bool) (start : Nat) : State :=
  let s := if cap then s.count (Reg.ENC_SLOT_CNT_CAP_PICS l i) else s
  let s := s.setFld (Reg.ENC_CYCLES_ECLK l) ((s.now - start) / 2)
  if cap then s.setBitsOf (encA l) 1 else s

section

variable {cap defer idr : Bool} {qp b bytes start : Nat}

theorem keeps_pictureShown : Keeps 8 s (pictureShown s l i cap defer idr qp b bytes) := by
  unfold pictureShown
  exact keeps_setFld _ _ (keeps_setFld _ _ (keeps_setFld _ _ (keeps_setFld _ _ (keeps_setFld _ _ (keeps_setFld _ _
    (keeps_setWord _ _ Keeps.refl rfl) rfl) rfl) rfl) rfl) rfl) rfl

theorem keeps_costShown : Keeps 392 s (costShown s l i cap start) := by
  cases cap with
  | true => exact keeps_setBitsOf _ _ (keeps_setFld _ _ (keeps_count _ _ Keeps.refl rfl) rfl) rfl
  | false => exact keeps_setFld _ _ Keeps.refl rfl

/-- Fields of PIC lie beside each other. -/
theorem fld_pic_apart {f g : Fld} (v : Nat) (hf : f.addr = 0x160144 + 0x4000 * l + 0x100 * i) (hg : g.addr = 0x160144 + 0x4000 * l + 0x100 * i)
    (hl : g.lo ≤ g.hi) (hw : f.hi < 32) (hd : f.hi < g.lo ∨ g.hi < f.lo) : (s.setFld g v).fld f = s.fld f :=
  State.fld_setFld_bits _ _ _ _ (hf.trans hg.symm) hl hw hd

theorem fld_setBytes {f : Fld} (hf : f.addr = 0x160144 + 0x4000 * l + 0x100 * i) :
    (s.setFld (Reg.ENC_SLOT_BITS_BYTES l i) bytes).fld f = s.fld f :=
  State.fld_setFld_addr _ _ _ _ (by rw [hf]; simp only [Reg.ENC_SLOT_BITS_BYTES]; omega)

theorem picB_pictureShown : (pictureShown s l i cap defer idr qp b bytes).fld (Reg.ENC_SLOT_PIC_B l i) = b % 1024 :=
  (fld_setBytes rfl).trans (State.fld_setFld_same _ _ _ (show 0 ≤ 9 by decide) (show 9 < 32 by decide))

theorem picQp_pictureShown : (pictureShown s l i cap defer idr qp b bytes).fld (Reg.ENC_SLOT_PIC_QP l i) = qp % 64 :=
  (fld_setBytes rfl).trans ((fld_pic_apart b rfl rfl (show 0 ≤ 9 by decide) (show 21 < 32 by decide) (.inr (show 9 < 16 by decide))).trans
    (State.fld_setFld_same _ _ _ (show 16 ≤ 21 by decide) (show 21 < 32 by decide)))

theorem picIdr_pictureShown : (pictureShown s l i cap defer idr qp b bytes).fld (Reg.ENC_SLOT_PIC_IDR l i) = b01 idr := by
  refine (fld_setBytes rfl).trans ((fld_pic_apart b rfl rfl (show 0 ≤ 9 by decide) (show 29 < 32 by decide) (.inr (show 9 < 29 by decide))).trans
    ((fld_pic_apart qp rfl rfl (show 16 ≤ 21 by decide) (show 29 < 32 by decide) (.inr (show 21 < 29 by decide))).trans
      ((State.fld_setFld_same _ _ _ (show 29 ≤ 29 by decide) (show 29 < 32 by decide)).trans ?_)))
  cases idr <;> rfl

/-- A field of a word beside PIC, BITS, CNT, CYCLES and EVENT. -/
theorem word_pictureShown {x : Nat} (hp : x ≠ 0x160144 + 0x4000 * l + 0x100 * i) (hb : x ≠ 0x160148 + 0x4000 * l + 0x100 * i) :
    (pictureShown s l i cap defer idr qp b bytes).word x = s.word x := by
  unfold pictureShown
  dsimp only
  rw [State.word_setFld_other _ _ _ hb, State.word_setFld_other _ _ _ hp, State.word_setFld_other _ _ _ hp, State.word_setFld_other _ _ _ hp,
    State.word_setFld_other _ _ _ hp, State.word_setFld_other _ _ _ hp, State.word_setWord_other _ (a := (Reg.ENC_SLOT_PIC_CAP l i).addr) _ hp]

theorem word_costShown {x : Nat} (hc : x ≠ 0x16014C + 0x4000 * l + 0x100 * i) (hy : x ≠ 0x160020 + 0x4000 * l) (he : x ≠ encA l) :
    (costShown s l i cap start).word x = s.word x := by
  cases cap with
  | true =>
    refine (State.word_setBitsOf _ _ _ _).trans ((if_neg he).trans ?_)
    exact (State.word_setFld_other _ (Reg.ENC_CYCLES_ECLK l) _ hy).trans (State.word_count _ _ hc)
  | false => exact State.word_setFld_other _ (Reg.ENC_CYCLES_ECLK l) _ hy

theorem cycles_costShown : (costShown s l i cap start).fld (Reg.ENC_CYCLES_ECLK l) = (s.now - start) / 2 % 2 ^ 32 := by
  have own : ∀ (v : State) (n : Nat), (v.setFld (Reg.ENC_CYCLES_ECLK l) n).fld (Reg.ENC_CYCLES_ECLK l) = n % 2 ^ 32 := fun v n =>
    State.fld_setFld_same _ _ _ (show 0 ≤ 31 by decide) (show 31 < 32 by decide)
  cases cap with
  | true =>
    have now : (s.count (Reg.ENC_SLOT_CNT_CAP_PICS l i)).now = s.now := (keeps_count (L := 264) _ _ Keeps.refl rfl).same .now rfl
    exact (State.fld_setBitsOf _ _ (by simp only [Reg.ENC_CYCLES_ECLK, encA]; omega)).trans ((own _ _).trans (by rw [if_pos rfl, now]))
  | false => exact own _ _

end

/-! ### The picture ends -/

/-- The registers of a picture that ended, from state `w` on. -/
def endShown (w : State) (p : EncPic) (st : EncStream) (cap defer : Bool) (bytes : Nat) : State :=
  costShown (pictureShown (w.setEncStream p.leader p.slot st) p.leader p.slot cap defer p.idr p.qp st.b bytes) p.leader p.slot cap p.startAt

theorem encPicEnd_coding (hl : p.leader < 4) (hb : p.bs ∈ hs) (hr : p.recWrite ∈ hs) (hes : ∀ h, p.es = some h → h ∈ hs) :
    ∃ w st cap defer bytes flags ev, Coding hs s w ∧ st.ref = 1 - (s.encStream p.leader p.slot).ref ∧
      s.encPicEnd p = ((endShown w p st cap defer bytes).encLeave p flags).unitEvent (8 + p.leader) ev := by
  unfold State.encPicEnd
  extract_lets l i u g c cap width st allIntra b defer ovrs flags last man s1 lastEs w16 h16 s2 ctus sum
  split
  next s3 recon drawn =>
  extract_lets s4 mean s5 raise_ s6 s7 s8 s9 s10 s11 s12 s13 s14
  have engine : 8 ≤ u ∧ u < 12 := ⟨Nat.le_add_right _ _, Nat.add_lt_add_left hl 8⟩
  have index : Coding hs s s1 := Coding.emit engine hb
  have stat : Coding hs s1 s2 := by
    show Coding hs s1 (match p.es with | some h => _ | none => s1)
    split
    · next h some_ => exact Coding.emit engine (hes h some_)
    · exact Coding.refl
  have free : Coding hs s2 s3 := by
    have := Coding.freeBytes (hs := hs) (s := s2)
      (reconBytes (Back.pixfmt (s2.fld (Reg.ENC_SLOT_CFG_FMT l i))) (s2.encW8 l i) (s2.encH8 l i))
    rwa [drawn] at this
  have recon_ : Coding hs s3 s4 := Coding.writeBerth hr
  have last : Coding hs s4 s5 := Coding.fresh _
  have coding := (((index.trans stat).trans free).trans recon_).trans last
  exact ⟨s5, { st with raise_ := raise_, ref := 1 - st.ref, b := b, cycle := if b = c then none else st.cycle, mean := some mean }, cap, defer,
    _, flags, _, coding, rfl, rfl⟩

end Sys2Proof.Machine
end

section
/-! PROOFS. O37, ENC_PICTURE_END: the engine's last tile ends the picture (R259). -/

namespace Sys2Proof.Machine

open State

variable {s t v : State} {e : Nat} {p p' : EncPic}

/-! ### The picture leaves the engines -/

/-- The references are given back, the work ended and the picture dropped; ENC_STATUS does not show it yet. -/
def pictureDropped (s : State) (p : EncPic) : State :=
  (encEndWork p.man.tide (picEngines p) (releaseFor p.got s)).dropEncPic p

theorem leftEngines_eq : leftEngines s p = encShowAll (picEngines p) (pictureDropped s p) := rfl

theorem stands_pictureDropped : EncStands s (pictureDropped s p) :=
  (EncStands.releaseFor p.got s).trans (EncStands.of_regs ((keeps_encEndWork (L := 2048) _ _ Keeps.refl rfl).same .regs rfl))

theorem word_encShowAll {x : Nat} (hx : 0x160000 ≤ x) : (l : List Nat) → (s : State) → (∀ m ∈ l, x ≠ 0x160004 + 0x4000 * m) →
    (encShowAll l s).word x = s.word x
  | [], _, _ => rfl
  | m :: l, s, h => by
    rw [encShowAll, word_encShowAll hx l _ fun n hn => h n (List.mem_cons_of_mem _ hn), word_encShow_other hx (h m List.mem_cons_self)]

/-- The registers of the encoders but for ENC_STATUS stand when a picture leaves. -/
theorem word_encLeave {x flags : Nat} (hx : 0x160000 ≤ x ∧ x < 0x170000) (h : ∀ m, x ≠ 0x160004 + 0x4000 * m) :
    (s.encLeave p flags).word x = s.word x := by
  rw [(frame_encLeave (ps := []) (as := [])).2.1 x (calm_enc hx.1) (by simp), leftEngines_eq,
    word_encShowAll hx.1 _ _ fun m _ => h m, stands_pictureDropped x hx.1 hx.2]

/-- Every engine of a picture that left and codes nothing now shows that it waits. -/
theorem encState_encShowAll : (l : List Nat) → (s : State) → s.encActive e = none → s.encState e ≠ 0 →
    (encShowAll l s).encState e = if e ∈ l then 1 else s.encState e
  | [], _, _, _ => by simp [encShowAll]
  | m :: l, s, ha, h0 => by
    have active : (s.encShow m).encActive e = none := (encActive_congr encPics_encShow e).trans ha
    by_cases own : m = e
    · have waits : (s.encShow m).encState e = 1 := by
        rw [own, encShow_idle ha, if_neg h0, encState_statusShown]
      rw [encShowAll, encState_encShowAll l _ active (by omega), waits, ite_self, own, if_pos List.mem_cons_self]
    · have same : (s.encShow m).encState e = s.encState e :=
        State.fld_of_word (word_encShow_other (by simp only [Reg.ENC_STATUS_STATE]; omega) (by simp only [Reg.ENC_STATUS_STATE]; omega))
      rw [encShowAll, encState_encShowAll l _ active (same ▸ h0), same]
      simp only [List.mem_cons, Ne.symm own, false_or]

theorem encState_encLeave {flags : Nat} (he : e ∈ picEngines p) (h16 : e < 4) (ha : (pictureDropped s p).encActive e = none)
    (h0 : s.encState e ≠ 0) : (s.encLeave p flags).encState e = 1 := by
  have same : (pictureDropped s p).encState e = s.encState e :=
    stands_pictureDropped.fld _ (by simp only [Reg.ENC_STATUS_STATE]; omega)
  have left : (s.encLeave p flags).encState e = (leftEngines s p).encState e :=
    encState_of_frame (frame_encLeave (ps := []) (as := [])) (by simp)
  rw [left, leftEngines_eq, encState_encShowAll _ _ ha (same ▸ h0), if_pos he]

theorem mem_encEndWork {n : Nat} {x : Work} : (l : List Nat) → (s : State) → x ∈ (encEndWork n l s).fab.work →
    x ∈ s.fab.work ∧ ∀ m ∈ l, ¬(x.unit = 8 + m ∧ x.tide = n)
  | [], _, h => ⟨h, by simp⟩
  | m :: l, s, h => by
    obtain ⟨kept, others⟩ := mem_encEndWork l _ h
    obtain ⟨old, mine⟩ := List.mem_filter.mp kept
    refine ⟨old, List.forall_mem_cons.mpr ⟨?_, others⟩⟩
    simpa only [Bool.not_eq_true', Bool.and_eq_false_iff, decide_eq_false_iff_not, not_and_or] using mine

/-- The engines of a picture that left have no work of its tide. -/
theorem work_encLeave {flags : Nat} {x : Work} (h : x ∈ (s.encLeave p flags).fab.work) (he : e ∈ picEngines p) :
    ¬(x.unit = 8 + e ∧ x.tide = p.man.tide) := by
  have same : (s.encLeave p flags).fab = (encEndWork p.man.tide (picEngines p) (releaseFor p.got s)).fab :=
    ((frame_encLeave (ps := []) (as := [])).1 .fab (by decide)).trans ((keeps_encShowAll (L := 8) _ Keeps.refl rfl).same .fab rfl)
  rw [same] at h
  exact (mem_encEndWork _ _ h).2 e he

/-! ### ENC_PICTURE_END -/

theorem exec_encPictureEnd (e : Fin 4) (s : State) : exec (.encPictureEnd e) s = .next (s.encEnd e) := rfl

theorem encEnd_none (h : s.encActive e = none) : s.encEnd e = s := by
  unfold State.encEnd
  rw [h]

theorem tileOf_some (h : ∃ x ∈ p.tiles, x.engine = e) : ∃ x, tileOf p e = some x ∧ x.engine = e := by
  cases found : tileOf p e with
  | none =>
    obtain ⟨x, hx, he⟩ := h
    exact absurd (decide_eq_true he) (List.find?_eq_none.mp found x hx)
  | some x => exact ⟨x, rfl, of_decide_eq_true (List.find?_some (p := fun t : EncTile => decide (t.engine = e)) found)⟩

/-- With the last tile done the picture ends. -/
theorem encEnd_last {x : EncTile} (h : s.encActive e = some p) (hx : tileOf p e = some x) (run : s.encTileDone p x = (t, p'))
    (done : ∀ x ∈ p'.tiles, x.st = .done) : s.encEnd e = t.encPicEnd p' := by
  unfold State.encEnd
  rw [h]
  dsimp only
  rw [hx]
  dsimp only
  rw [run]
  dsimp only
  exact if_pos (List.all_eq_true.mpr fun x hx => decide_eq_true (done x hx))

theorem TileFinished.done (h : TileFinished p e p') (hp : ∀ x ∈ p.tiles, x.engine = e ∨ x.st = .done) : ∀ x ∈ p'.tiles, x.st = .done := by
  obtain ⟨f, rfl, hf⟩ := h
  intro x hx
  obtain ⟨z, hz, rfl⟩ := mem_setTile.mp hx
  split
  · exact (hf z).1
  · next other => exact (hp z hz).resolve_left other

theorem TileFinished.engines (h : TileFinished p e p') (hp : ∃ x ∈ p.tiles, x.engine = e) : e ∈ picEngines p' := by
  obtain ⟨f, rfl, hf⟩ := h
  obtain ⟨x, hx, he⟩ := hp
  refine List.mem_map.mpr ⟨f x, mem_setTile.mpr ⟨x, hx, if_pos he⟩, (hf x).2.trans he⟩

/-- The picture after its last tile has the berths, the stamp and the values that it had. -/
structure SamePicture (p p' : EncPic) : Prop where
  leader : p'.leader = p.leader
  slot : p'.slot = p.slot
  bs : p'.bs = p.bs
  es : p'.es = p.es
  recWrite : p'.recWrite = p.recWrite
  idr : p'.idr = p.idr
  qp : p'.qp = p.qp
  man : p'.man = p.man
  startAt : p'.startAt = p.startAt

theorem TileFinished.same (h : TileFinished p e p') : SamePicture p p' := by
  obtain ⟨f, rfl, -⟩ := h
  exact ⟨rfl, rfl, rfl, rfl, rfl, rfl, rfl, rfl, rfl⟩

end Sys2Proof.Machine
end

section
/-! PROOFS. O37, the state in which a picture has ended (R247, R249, R259). -/

namespace Sys2Proof.Machine

open State

variable {s v w : State} {e : Nat} {p p' y : EncPic} {st : EncStream} {cap defer : Bool} {bytes flags ev : Nat}

/-- A picture has ended: its registers are shown, it has left the engines, and their events occur. -/
def pictureEnded (w : State) (p : EncPic) (st : EncStream) (cap defer : Bool) (bytes flags ev : Nat) : State :=
  ((endShown w p st cap defer bytes).encLeave p flags).unitEvent (8 + p.leader) ev

theorem keeps_endShown : Keeps 33554824 w (endShown w p st cap defer bytes) := by
  have streams : Keeps 33554824 w (w.setEncStream p.leader p.slot st) := keeps_setEncStream _ _ _ Keeps.refl rfl
  exact (streams.trans (keeps_pictureShown.mono rfl)).trans (keeps_costShown.mono rfl)

/-- Streams are as the end of the picture set them. -/
theorem encStream_pictureEnded (l i : Nat) : (pictureEnded w p st cap defer bytes flags ev).encStream l i =
    if 4 * l + i = 4 * p.leader + p.slot then st else w.encStream l i := by
  have event : ∀ v : State, (v.unitEvent (8 + p.leader) ev).encStreams = v.encStreams := fun v =>
    (keeps_unitEvent (L := 17160) _ _ Keeps.refl rfl).same .encStreams rfl
  have shown : (endShown w p st cap defer bytes).encStreams = (w.setEncStream p.leader p.slot st).encStreams :=
    ((keeps_pictureShown.mono (b := 392) rfl).trans keeps_costShown).same .encStreams rfl
  have ended : (pictureEnded w p st cap defer bytes flags ev).encStreams = (w.setEncStream p.leader p.slot st).encStreams :=
    ((event _).trans encStreams_encLeave).trans shown
  rw [encStream_congr ended, encStream_setEncStream]

theorem mem_pictureEnded : y ∈ (pictureEnded w p st cap defer bytes flags ev).encPics ↔
    y ∈ w.encPics ∧ ¬(y.leader = p.leader ∧ y.slot = p.slot) := by
  have event : (pictureEnded w p st cap defer bytes flags ev).encPics = ((endShown w p st cap defer bytes).encLeave p flags).encPics :=
    (keeps_unitEvent (L := 17160) _ _ Keeps.refl rfl).same .encPics rfl
  have shown : (endShown w p st cap defer bytes).encPics = w.encPics := keeps_endShown.same .encPics rfl
  rw [event, encPics_encLeave, mem_dropEncPic, shown]

theorem memByte_pictureEnded (x : Nat) : (pictureEnded w p st cap defer bytes flags ev).memByte x = w.memByte x := by
  have left : Keeps 17189768 (endShown w p st cap defer bytes) (pictureEnded w p st cap defer bytes flags ev) :=
    keeps_unitEvent _ _ (keeps_encLeave _ _ Keeps.refl rfl) rfl
  exact memByte_congr ((left.same .mem rfl).trans (keeps_endShown.same .mem rfl)) x

theorem work_pictureEnded {x : Work} (h : x ∈ (pictureEnded w p st cap defer bytes flags ev).fab.work) (he : e ∈ picEngines p) :
    ¬(x.unit = 8 + e ∧ x.tide = p.man.tide) := by
  have event : (pictureEnded w p st cap defer bytes flags ev).fab = ((endShown w p st cap defer bytes).encLeave p flags).fab :=
    (keeps_unitEvent (L := 17160) _ _ Keeps.refl rfl).same .fab rfl
  exact work_encLeave (event ▸ h) he

/-! ### Its registers -/

theorem word_pictureEnded {x : Nat} (hx : 0x160000 ≤ x ∧ x < 0x170000) (h : ∀ m, x ≠ 0x160004 + 0x4000 * m) :
    (pictureEnded w p st cap defer bytes flags ev).word x = (endShown w p st cap defer bytes).word x :=
  (encStands_unitEvent _ _ x hx.1 hx.2).trans (word_encLeave hx h)

/-- PIC reads what the end of the picture wrote. -/
theorem pic_pictureEnded {f : Fld} (hl : p.leader < 4) (hi : p.slot < 4) (hf : f.addr = 0x160144 + 0x4000 * p.leader + 0x100 * p.slot) :
    (pictureEnded w p st cap defer bytes flags ev).fld f =
      (pictureShown (w.setEncStream p.leader p.slot st) p.leader p.slot cap defer p.idr p.qp st.b bytes).fld f := by
  refine State.fld_of_word ((word_pictureEnded (by omega) fun m => by omega).trans ?_)
  exact word_costShown (by omega) (by omega) (by unfold encA; omega)

theorem cycles_pictureEnded (hl : p.leader < 4) : (pictureEnded w p st cap defer bytes flags ev).fld (Reg.ENC_CYCLES_ECLK p.leader) =
    (w.now - p.startAt) / 2 % 2 ^ 32 := by
  have now : (pictureShown (w.setEncStream p.leader p.slot st) p.leader p.slot cap defer p.idr p.qp st.b bytes).now = w.now :=
    keeps_pictureShown.same .now rfl
  have word := word_pictureEnded (w := w) (p := p) (st := st) (cap := cap) (defer := defer) (bytes := bytes) (flags := flags) (ev := ev)
    (x := (Reg.ENC_CYCLES_ECLK p.leader).addr) (by simp only [Reg.ENC_CYCLES_ECLK]; omega) fun m => by simp only [Reg.ENC_CYCLES_ECLK]; omega
  rw [State.fld_of_word word, endShown, cycles_costShown, now]

/-- The registers that show a picture that ended. -/
theorem registers_pictureEnded (hl : p.leader < 4) (hi : p.slot < 4) :
    (pictureEnded w p st cap defer bytes flags ev).fld (Reg.ENC_SLOT_PIC_IDR p.leader p.slot) = b01 p.idr ∧
    (pictureEnded w p st cap defer bytes flags ev).fld (Reg.ENC_SLOT_PIC_QP p.leader p.slot) = p.qp % 64 ∧
    (pictureEnded w p st cap defer bytes flags ev).fld (Reg.ENC_SLOT_PIC_B p.leader p.slot) = st.b % 1024 ∧
    (pictureEnded w p st cap defer bytes flags ev).fld (Reg.ENC_CYCLES_ECLK p.leader) = (w.now - p.startAt) / 2 % 2 ^ 32 :=
  ⟨(pic_pictureEnded hl hi rfl).trans picIdr_pictureShown, (pic_pictureEnded hl hi rfl).trans picQp_pictureShown,
    (pic_pictureEnded hl hi rfl).trans picB_pictureShown, cycles_pictureEnded hl⟩

/-- ENC_STATUS does not show the end before the picture leaves. -/
theorem encState_endShown : (endShown w p st cap defer bytes).encState e = w.encState e := by
  refine State.fld_of_word ((word_costShown ?_ ?_ ?_).trans (word_pictureShown ?_ ?_))
  all_goals simp only [Reg.ENC_STATUS_STATE, encA]; omega

/-- An engine of the picture that codes no other picture waits. -/
theorem encState_pictureEnded (he : e < 4) (hm : e ∈ picEngines p) (h0 : w.encState e ≠ 0)
    (others : ∀ y ∈ w.encPics, ¬(y.leader = p.leader ∧ y.slot = p.slot) → ∀ x ∈ y.tiles, ¬(x.engine = e ∧ x.st = .coding)) :
    (pictureEnded w p st cap defer bytes flags ev).encState e = 1 := by
  have pics : (pictureDropped (endShown w p st cap defer bytes) p).encPics = (w.dropEncPic p).encPics := by
    have ended : (encEndWork p.man.tide (picEngines p) (releaseFor p.got (endShown w p st cap defer bytes))).encPics = w.encPics :=
      ((keeps_encEndWork (L := 412552) _ _ (keeps_releaseFor _ Keeps.refl rfl) rfl).same .encPics rfl).trans (keeps_endShown.same .encPics rfl)
    rw [pictureDropped, dropEncPic, ended]
    rfl
  have idle : (pictureDropped (endShown w p st cap defer bytes) p).encActive e = none := by
    rw [encActive_congr pics]
    exact encActive_none.mpr fun y hy => others y (mem_dropEncPic.mp hy).1 (mem_dropEncPic.mp hy).2
  have event := encStands_unitEvent (s := (endShown w p st cap defer bytes).encLeave p flags) (8 + p.leader) ev
  exact (event.fld _ (by simp only [Reg.ENC_STATUS_STATE]; omega)).trans
    (encState_encLeave hm he idle (by rwa [encState_endShown]))

/-! ### The part of O37 on ENC_PICTURE_END -/

/-- The end of a tile and of its picture, when the engine's tile is the last. -/
theorem encEnd_pictureEnded (he : e < 4) (ha : s.encActive e = some p) (hl : p.leader < 4) (hd : ∀ x ∈ p.tiles, x.engine = e ∨ x.st = .done) :
    ∃ v p' w st cap defer bytes flags ev, s.encEnd e = pictureEnded w p' st cap defer bytes flags ev ∧
      SamePicture p p' ∧ e ∈ picEngines p' ∧ Coding ([p.bs, p.recWrite] ++ p.es.toList) s v ∧
      Coding ([p.bs, p.recWrite] ++ p.es.toList) (v.setEncPic p') w ∧ st.ref = 1 - (s.encStream p.leader p.slot).ref := by
  obtain ⟨-, z, hz, hze, -⟩ := encActive_some ha
  obtain ⟨x, tile, own⟩ := tileOf_some ⟨z, hz, hze⟩
  have stat : ∀ h, p.es = some h → h ∈ [p.bs, p.recWrite] ++ p.es.toList := fun h some_ => by simp [some_]
  obtain ⟨v, p', run, coded, finished⟩ := encTileDone_coding (hs := [p.bs, p.recWrite] ++ p.es.toList) (own ▸ he) (by simp) stat
  rw [own] at finished
  have same := finished.same
  obtain ⟨w, st, cap, defer, bytes, flags, ev, ended, ref, step⟩ := encPicEnd_coding (s := v.setEncPic p') (p := p')
    (hs := [p.bs, p.recWrite] ++ p.es.toList) (same.leader ▸ hl) (by rw [same.bs]; simp) (by rw [same.recWrite]; simp)
    (by rw [same.es]; exact stat)
  refine ⟨v, p', w, st, cap, defer, bytes, flags, ev, ?_, same, finished.engines ⟨z, hz, hze⟩, coded, ended, ?_⟩
  · rw [encEnd_last ha tile run (finished.done hd), step]
    rfl
  · rw [ref, same.leader, same.slot]
    exact congrArg (fun x : EncStream => 1 - x.ref) (encStream_congr coded.streams _ _)

theorem encPictureEnd_effect {e : Fin 4} {l i : Nat} (ha : s.encActive e = some p) (hl : l = p.leader) (hi : i = p.slot) (l4 : l < 4)
    (i4 : i < 4) (hd : ∀ x ∈ p.tiles, x.engine = e.val ∨ x.st = .done) : Completes (.encPictureEnd e) s fun t =>
      t.encPic l i = none ∧ (∀ y ∈ s.encPics, ¬(y.leader = l ∧ y.slot = i) → y ∈ t.encPics) ∧
      (t.encStream l i).ref = 1 - (s.encStream l i).ref ∧ t.fld (Reg.ENC_SLOT_PIC_IDR l i) = b01 p.idr ∧
      t.fld (Reg.ENC_SLOT_PIC_QP l i) = p.qp % 64 ∧ t.fld (Reg.ENC_SLOT_PIC_B l i) = (t.encStream l i).b % 1024 ∧
      t.fld (Reg.ENC_CYCLES_ECLK l) = (s.now - p.startAt) / 2 % 2 ^ 32 ∧
      (∀ w ∈ t.fab.work, ¬(w.unit = 8 + e.val ∧ w.tide = p.man.tide)) ∧
      ((∀ y ∈ s.encPics, ¬(y.leader = l ∧ y.slot = i) → ∀ u ∈ y.tiles, ¬(u.engine = e.val ∧ u.st = .coding)) →
        s.encState e ≠ 0 → t.encState e = 1) ∧
      (∀ x, (∀ h ∈ [p.bs, p.recWrite] ++ p.es.toList,
        x < (s.berth h).base * 4096 ∨ ((s.berth h).base + (s.berth h).pages) * 4096 ≤ x) → t.memByte x = s.memByte x) ∧
      Only ([.fresh, .mem, .fab, .queues, .leaves, .encPics, .encStreams] ++ sideParts) s t := by
  subst hl hi
  obtain ⟨v, p', w, st, cap, defer, bytes, flags, ev, run, same, member, coded, ended, ref⟩ := encEnd_pictureEnded e.isLt ha l4 hd
  have only : Only ([.fresh, .mem, .fab, .queues, .leaves, .encPics, .encStreams] ++ sideParts) s (s.encEnd e) :=
    Only.of_keeps (frame_execEncPictureEnd e s _ rfl) (by decide)
  have stands : EncStands s w := (coded.stands.trans (EncStands.of_regs rfl)).trans ended.stands
  have now : w.now = s.now := ended.now.trans coded.now
  have stream : (pictureEnded w p' st cap defer bytes flags ev).encStream p.leader p.slot = st := by
    rw [encStream_pictureEnded, same.leader, same.slot, if_pos rfl]
  have others : ∀ y, ¬(y.leader = p.leader ∧ y.slot = p.slot) → (y ∈ w.encPics ↔ y ∈ s.encPics) := fun y hy => by
    rw [ended.pics, ← coded.pics]
    refine ⟨fun h => ?_, fun h => mem_setEncPic_other h (by rwa [same.leader, same.slot])⟩
    rcases of_mem_setEncPic h with rfl | ⟨old, -⟩
    · exact absurd ⟨same.leader, same.slot⟩ hy
    · exact old
  have registers := registers_pictureEnded (w := w) (st := st) (cap := cap) (defer := defer) (bytes := bytes) (flags := flags) (ev := ev)
    (same.leader ▸ l4) (same.slot ▸ i4)
  rw [same.leader, same.slot, same.idr, same.qp, same.startAt, now] at registers
  obtain ⟨idr, qp, column, cycles⟩ := registers
  refine ⟨_, exec_encPictureEnd e s, ?_⟩
  rw [run] at only ⊢
  refine ⟨encPic_none.mpr fun y hy => ?_, fun y hy apart => ?_, ?_, idr, qp, ?_, cycles, fun x hx => ?_, fun alone h0 => ?_, fun x hx => ?_, only⟩
  · have left := (mem_pictureEnded.mp hy).2
    rwa [same.leader, same.slot] at left
  · exact mem_pictureEnded.mpr ⟨(others y apart).mpr hy, by rwa [same.leader, same.slot]⟩
  · rw [stream, ref]
  · rw [stream, column]
  · have ended := work_pictureEnded hx member
    rwa [same.man] at ended
  · refine encState_pictureEnded e.isLt member ?_ fun y hy apart => ?_
    · rwa [show w.encState e = s.encState e from stands.fld _ (by simp only [Reg.ENC_STATUS_STATE]; omega)]
    · rw [same.leader, same.slot] at apart
      exact alone y ((others y apart).mp hy) apart
  · rw [memByte_pictureEnded, ended.bytes x (coded.outside hx)]
    exact coded.bytes x hx

end Sys2Proof.Machine
end

section
/-! PROOFS. O37: how encoders schedule, suspend and end pictures, put together (R242 to R245, R247, R249, R250, R256, R259, R260). -/

namespace Sys2Proof.Machine

open State

/-- Settles O37: the start of the entry that goes first and what is not coded, ENC_PREEMPT and ENC_RESUME, the end of a picture, RUN and STOP, and the pushes. -/
theorem encodersScheduleAndEndPictures : Obligations.EncodersScheduleAndEndPictures := by
  unfold Obligations.EncodersScheduleAndEndPictures
  refine ⟨fun e A s hA => ⟨fun h => ?_, ?_, ?_, fun p hp => ⟨fun h => ?_, fun c h => ?_⟩, fun h => ?_, encResume_rests, fun p h1 hn hp hy => ?_⟩,
    fun e A s hA => ⟨fun h => ?_, fun p l i ha hl hi l4 i4 hd => ?_, fun m rest hm => ⟨?_, ?_, ?_⟩, fun m i h j Q c hQ hm hc => ?_⟩⟩
  · exact (exec_encPictureStart e s).trans (congrArg _ (encStart_stopped h))
  · intro i q qs b k c rows prio S h1 idle hk hS onTime first due berth gang kind fmt layout size hc hr
    have goes : GoesFirst s e i q qs b k := ⟨h1, hk, onTime, ⟨prio, _, first⟩, due, berth, gang, kind, fmt, layout, size⟩
    exact ⟨fun bq bqs cap hbs hcap hmin hsize hes => encPictureStart_starts goes hA hS idle hc hr hbs hcap hmin hsize hes,
      fun hq ho hp hh hbs => encPictureStart_noBerth goes hA hS hq ho hp hh hbs⟩
  · exact fun i q S h1 hp hS hq ho hh late => encPictureStart_late hA hS h1 hp hq ho hh late
  · exact (exec_encPreempt e s).trans (congrArg _ (encPreempt_rests hp h))
  · exact encPreempt_effect hA hp h
  · exact (exec_encPreempt e s).trans (congrArg _ (encPreempt_none h))
  · exact encResume_effect hA h1 hn hp hy
  · exact (exec_encPictureEnd e s).trans (congrArg _ (encEnd_none h))
  · exact encPictureEnd_effect ha hl hi l4 i4 hd
  · exact encRun_effect hA rest hm
  · exact encStop_effect hA rest hm
  · exact encStop_idle hA rest hm
  · exact encPush_effect hQ hm hc

end Sys2Proof.Machine
end

section
/-! PROOFS. O37 on concrete states: a command of each kind whose hypotheses hold, and what follows. -/

namespace Sys2Proof.Machine

open State

/-- The bank of encoder 0 in epoch 0: slot 0 is on with priority 1, its cap 8192 bits. -/
def encoderBank : Bank := ⟨0, 0, SMap.set (fun _ => 0) (SMap.set (fun _ => 0) [] (Reg.ENC_SLOT_CFG_EN 0 0).addr 0x81000000)
  (Reg.ENC_SLOT_CAP_BITS 0 0).addr 8192⟩

/-- The numbers of what goes first. -/
def candNumbers (c : EncCand) : Nat × Nat × Nat × Option Nat := (c.prio, c.tide, c.slot, c.gang)

theorem eq_some_of_candNumbers {o : Option EncCand} {prio tide slot : Nat} {gang : Option Nat}
    (h : o.map candNumbers = some (prio, tide, slot, gang)) : o = some ⟨prio, tide, slot, gang⟩ := by
  obtain ⟨c, rfl, hc⟩ := Option.map_eq_some_iff.mp h
  cases hc
  rfl

/-- Encoder 0 waits in its own tide `own`; slot 0 takes one-pixel pictures and has input berth 5 of tide 0 and the bitstream entries `bs`. -/
def encoderWaiting (own : Nat) (bs : List QEnt) : State :=
  let s := (State.reset.setFld (Reg.ENC_STATUS_STATE 0) 1).setFld (Reg.ENC_SLOT_CFG_FMT 0 0) 0x10
  let s := { s with sys := { s.sys with banks := s.sys.banks.set (fun _ => []) 8 [encoderBank] } }
  let s := (s.setBerth 5 { format := 0x3010, size := some (1, 1), pages := 1 }).setBerth 6 { base := 1, pages := 2 }
  ((ownTideBegun s 8 own).setQueue (encQ 0 0 0) [⟨5, 0, false⟩]).setQueue (encQ 0 0 1) bs

/-- A picture of slot `i` of encoder 0 whose one tile is in state `st`; its bitstream goes to berth 6, its recon to berth 7. -/
def onePicture (i : Nat) (st : TileSt) : EncPic :=
  ⟨0, i, 5, 6, none, 8, 7, [], {}, 0, true, 8192, 0, false, false, 30, 0, 0, [{ engine := 0, st := st }]⟩

/-- Only input 5 of tide 0 and nothing else waits. -/
theorem encoderWaiting_queues (own : Nat) (bs : List QEnt) : ∀ j, j < 4 → j ≠ 0 → (encoderWaiting own bs).queue (encQ 0 j 0) = [] := by
  intro j hj h0
  refine (queue_setQueue_other _ _ ?_).trans ((queue_setQueue_other _ _ ?_).trans rfl)
  all_goals unfold encQ; omega

theorem encoderWaiting_onTime (bs : List QEnt) : ∀ j x, j < 4 → x ∈ (encoderWaiting 2 bs).queue (encQ 0 j 0) →
    2 ≤ ((encoderWaiting 2 bs).berth x.h).man.tide + 2 := fun _ _ _ _ => Nat.le_add_left ..

/-- O37 of an encoder that starts the one picture that is due. -/
theorem encodersScheduleAndEndPictures_start : Completes (.encPictureStart 0) (encoderWaiting 2 [⟨6, 0, false⟩]) fun t =>
    t.encState 0 = 2 ∧ t.queue (encQ 0 0 1) = [] ∧ ∃ p, t.encPics = [p] ∧ p.bs = 6 ∧ p.cap = 8192 := by
  obtain ⟨t, ht, ⟨p, pics, -, -, -, bs, -, cap, -⟩, state, -, -, queue, -⟩ :=
    ((encodersScheduleAndEndPictures.1 0 _ (encoderWaiting 2 [⟨6, 0, false⟩]) rfl).2.1 0 ⟨5, 0, false⟩ []
      { format := 0x3010, size := some (1, 1), pages := 1 } 2 1 1 1 _ (by decide +kernel) (by decide +kernel) (by decide +kernel) rfl
      (encoderWaiting_onTime _) (eq_some_of_candNumbers (by decide +kernel)) (by decide +kernel) (by decide +kernel) (by decide +kernel) (by decide +kernel)
      (by decide +kernel) (by decide +kernel) (by decide +kernel) (by decide +kernel) (by decide +kernel)).1 ⟨6, 0, false⟩ [] 8192
      (by decide +kernel) (by decide +kernel) (by decide) (by decide +kernel) (by decide +kernel)
  exact ⟨t, ht, state, queue, p, pics, bs, cap⟩

/-- O37 of the same frame without a bitstream entry. -/
theorem encodersScheduleAndEndPictures_noBerth : Completes (.encPictureStart 0) (encoderWaiting 2 []) fun t =>
    t.encState 0 = 1 ∧ t.fld (Reg.ENC_SLOT_CNT_SKIPPED 0 0) = 1 := by
  obtain ⟨t, ht, -, -, state, skipped, -⟩ :=
    ((encodersScheduleAndEndPictures.1 0 _ (encoderWaiting 2 []) rfl).2.1 0 ⟨5, 0, false⟩ []
      { format := 0x3010, size := some (1, 1), pages := 1 } 2 1 1 1 _ (by decide +kernel) (by decide +kernel) (by decide +kernel) rfl
      (encoderWaiting_onTime _) (eq_some_of_candNumbers (by decide +kernel)) (by decide +kernel) (by decide +kernel) (by decide +kernel) (by decide +kernel)
      (by decide +kernel) (by decide +kernel) (by decide +kernel) (by decide +kernel) (by decide +kernel)).2
      (by decide +kernel) (encoderWaiting_queues _ _) (by decide +kernel) rfl (by decide +kernel)
  exact ⟨t, ht, state, skipped.trans (by decide +kernel)⟩

/-- O37 of the same frame one tide later. -/
theorem encodersScheduleAndEndPictures_late : Completes (.encPictureStart 0) (encoderWaiting 3 []) fun t =>
    t.encState 0 = 1 ∧ t.fld (Reg.ENC_SLOT_CNT_SKIPPED 0 0) = 1 := by
  obtain ⟨t, ht, -, -, state, skipped, -⟩ := encPictureStart_late (s := encoderWaiting 3 []) (e := 0) (i := 0) (q := ⟨5, 0, false⟩) rfl rfl
    (by decide +kernel) (by decide +kernel) (by decide +kernel) (encoderWaiting_queues _ _) rfl (by decide +kernel)
  exact ⟨t, ht, state, skipped.trans (by decide +kernel)⟩

/-- Encoder 0 has a picture of slot 1 in hand, of priority 0, whose tile is in state `st`; the frame of slot 0 is due in own tide 2. -/
def encoderBusy (own : Nat) (st : TileSt) : State := { encoderWaiting own [⟨6, 0, false⟩] with encPics := [onePicture 1 st] }

/-- O37 of the frame of slot 0 that is due while the picture of slot 1 is coded. -/
theorem encodersScheduleAndEndPictures_preempt : Completes (.encPreempt 0) (encoderBusy 2 .coding) fun t =>
    bit (t.fld (Reg.ENC_STATUS_SUSPENDED 0)) 1 = true := by
  obtain ⟨t, ht, -, -, slot, -⟩ := encPreempt_effect (s := encoderBusy 2 .coding) (e := 0) (p := onePicture 1 .coding) (c := ⟨1, 0, 0, none⟩) rfl
    (by decide +kernel) (eq_some_of_candNumbers (by decide +kernel))
  exact ⟨t, ht, slot⟩

/-- O37 of the suspended picture while nothing is due. -/
theorem encodersScheduleAndEndPictures_resume : Completes (.encResume 0) (encoderBusy 1 .suspended) fun t =>
    t.encState 0 = 2 ∧ t.fld (Reg.ENC_STATUS_ACTIVE 0) = 1 := by
  obtain ⟨t, ht, -, state, active, -⟩ := (encResume_effect (s := encoderBusy 1 .suspended) (e := 0) (p := onePicture 1 .suspended) rfl
    (by decide +kernel) (by decide +kernel) (by decide +kernel) (by decide +kernel)).2 (by decide +kernel)
  exact ⟨t, ht, state, active⟩

/-- O37 of the end of the one picture in hand: the encoder waits, and page 4 of DRAM stands. -/
theorem encodersScheduleAndEndPictures_end : Completes (.encPictureEnd 0) (encoderBusy 2 .coding) fun t =>
    t.encState 0 = 1 ∧ t.encPic 0 1 = none ∧ t.memByte 16384 = 0 := by
  obtain ⟨t, ht, gone, -, -, -, -, -, -, -, state, bytes, -⟩ := encPictureEnd_effect (s := encoderBusy 2 .coding) (e := 0)
    (p := onePicture 1 .coding) (by decide +kernel) rfl rfl (by decide) (by decide) (by decide)
  exact ⟨t, ht, state (by decide +kernel) (by decide +kernel), gone, (bytes 16384 (by decide +kernel)).trans (by decide +kernel)⟩

/-- Master 1 owns Daxma, and encoder 0 codes a picture. -/
def ownedEncoder : State := { ownedState with encPics := [onePicture 1 .coding] }

/-- O37 of STOP by the owner. -/
theorem encodersScheduleAndEndPictures_stop : Completes (.encStop 1 0 0) ownedEncoder fun t =>
    t.encState 0 = 0 ∧ t.encPic 0 1 = none ∧ (t.encStream 0 1).forced = true := by
  obtain ⟨t, ht, state, -, abandoned⟩ := encStop_effect (s := ownedEncoder) (e := 0) (m := 1) rfl 0 (by decide +kernel)
  exact ⟨t, ht, state, abandoned (onePicture 1 .coding) (by decide +kernel)⟩

/-- O37 of a push by the owner into an empty queue. -/
theorem encodersScheduleAndEndPictures_push : Completes (.encSlotBsPush 1 0 0 6) ownedEncoder fun t =>
    t.queue (encQ 0 0 1) = [⟨6, 0, false⟩] := by
  obtain ⟨t, ht, queue, -⟩ := (encPush_effect (s := ownedEncoder) (e := 0) (i := 0) (m := 1) (h := 6) (j := 1) rfl (by decide +kernel)
    (.inr (.inl ⟨rfl, rfl⟩))).1 (by decide +kernel)
  exact ⟨t, ht, queue⟩

end Sys2Proof.Machine
end
